-- ==== Sys2Proof/Word.lean ====
section
/-! DEFINITION. The word types of the machine: a 32-bit register (R8), a byte, a 64-bit pair (R16). -/

namespace Sys2Proof

/-- A register of the register address space (R8): 32 bits. -/
abbrev Word := BitVec 32

/-- A byte of buffer memory, of an MRAM record or of a message. -/
abbrev Byte := BitVec 8

/-- A 64-bit quantity held in a register pair (R16), and ring time (R583). -/
abbrev Dword := BitVec 64

end Sys2Proof
end

