-- ==== Sys2Proof/Config.lean ====
section
/-! DEFINITION. What the spec leaves open (the free values), and what one chip fixes (its fuses, its serial number): each a
constant with no body, so that no proof can lean on what it is. -/

namespace Sys2Proof.Config

/-- The free values: the `k`-th value that the spec leaves undefined, `w` bits wide. A step that needs one applies it to
`State.freeN` and advances that counter (log 1). -/
opaque freeValue (w : Nat) : Nat → BitVec w

/-- The outputs of the 16-state max-log-MAP detector before their scaling, one for each equalised sample, with a target in 1/64 (R105): the
spec gives its outputs no unit (log 38). -/
opaque detect (target samples : List Int) : List Int

/-- The silicon stepping held in the fuses (R523), 0 to 15 as IDCODE and the STEPPINGS masks number it (log 6). -/
opaque stepping : BitVec 4

/-- The ROM version (R539, TRC_ID.ROM_VER) (log 6). -/
opaque romVersion : BitVec 8

/-- The per-message number with which the P-384 engine signs a digest (FIPS 186-5 leaves its making to the signer): one that makes neither component
zero (R524) (log 6). -/
opaque signNumber : BitVec 384 → BitVec 384

/-- The serial number that Identify Controller returns from boot MRAM, the same on both chips of a pair (R334) (log 6). -/
opaque serialNumber : List Byte

end Sys2Proof.Config
end

