-- ==== Sys2Proof/Syntax.lean ====
section
/-! DEFINITION. The commands of the block: one constructor for every row of spec/opcode_table.json, in the table's order,
with the operands the row's event brings from outside the block (an address, a value, a sample, a message, a host entry). -/

namespace Sys2Proof

/-- Who accesses a register (R8): a control core's hart, or the service port through a Cuhar command. -/
inductive Req where
  | core (hart : Fin 8)
  | service
deriving DecidableEq, Repr

/-- What hardware does to the same register in the same fabric handshake as a software access: the W1C bits it sets (R11)
and the RW bits it updates (R13), as masks over the register's word. -/
structure HwEdit where
  set : Word
  mask : Word
  val : Word
deriving DecidableEq, Repr

/-- A lane number and an actuator number, 0 to 3. -/
abbrev Lane := Fin 4


/-- A lane record of the LANES section (R637). -/
structure LaneRec where
  present : Bool
  home : Bool
  actuator : Nat
  preampPort : Nat
  motionCh : Nat
  heads : Nat
  headEn : BitVec 8
  milli : Bool
  micro : Bool
deriving DecidableEq, Repr

/-- A DRAM channel's record (R637). -/
structure DramRec where
  configured : Bool
  width : Nat
  density : Nat
  ranks : Nat
deriving DecidableEq, Repr

/-- The HOST section (R637). -/
structure HostSec where
  ports : Nat
  vf0 : Nat
  vf1 : Nat
  qpMax : Nat
  nsMax : Nat
  mqe : Nat
  vid : BitVec 16
  ssvid : BitVec 16
  pfDid : BitVec 16
  vfDid : BitVec 16
  ieee : BitVec 24
  rated : Dword
  mn : List Byte
deriving DecidableEq, Repr

/-- The SPINDLE section (R638); gains are KP and KI per cadence, the profile is duration in µs and DRIVE code. -/
structure SpindleSec where
  cadences : BitVec 4
  poles : Nat
  keImg : Nat
  ilimCeil : Nat
  rateCeil : Nat
  runupRate : Nat
  advance : List Nat
  gains : List (Int × Int)
  profile : List (Nat × Nat)
deriving DecidableEq, Repr

/-- An entry of a zone's sector map (R639). -/
structure SectorPos where
  wedge : Nat
  gateOfs : Nat
  split : Nat
  contOfs : Nat
deriving DecidableEq, Repr

/-- A zone format (R639) with the sector map that lies at MAP within the section. -/
structure ZoneFmt where
  bpw : Nat
  cls : Nat
  p : Nat
  g : Nat
  spt : Nat
  preamble : Nat
  mapOfs : Nat
  map : List SectorPos
deriving DecidableEq, Repr

/-- The presets of one lane, head and zone (R639, part 5). -/
structure ZonePreset where
  heater : Word
  afe : Word
  eq : List Word
  write : Word
  verify : Word
  precomp : Word
deriving DecidableEq, Repr

/-- A ZONES section (R639). Boundaries: for lane l and head h (key 8 l + h) the first tracks of the zones and the last track.
Presets: key (8 l + h) × 32 + z. -/
structure ZonesSec where
  z : Nat
  smax : Nat
  bounds : List (Nat × List Nat × Nat)
  fmts : List ZoneFmt
  presets : List (Nat × ZonePreset)
deriving DecidableEq, Repr

/-- A head record of a READERS section (R640). -/
structure ReaderHead where
  innerXt : Int
  outerXt : Int
  dt : List Nat
  trail : Nat
  taps : List Word
deriving DecidableEq, Repr

/-- A zone record of a READERS section (R640). -/
structure ReaderZone where
  delays : List Int
  xts : List Int
  wtbl3 : Word
deriving DecidableEq, Repr

/-- A READERS section (R640): its counts, the head records, and the zone records keyed 32 h + z. -/
structure ReadersSec where
  heads : Nat
  z : Nat
  hd : List ReaderHead
  zn : List (Nat × ReaderZone)
deriving DecidableEq, Repr

/-- A SERVO section (R641): blocks are first word, word count and initial exponent; gains are mantissa and exponent. -/
structure ServoSec where
  sbpw : Nat
  ceil : List Nat
  limit : List Nat
  unloadTrack : Nat
  load : List (Int × Nat)
  blocks : List (Nat × Nat × Nat)
  words : List (BitVec 24)
  program : List (BitVec 64)
  kp : BitVec 24 × Nat
  ki : BitVec 24 × Nat
deriving DecidableEq, Repr

/-- A run entry of the BANDS section (R642). -/
structure BandRun where
  kind : Nat
  actuator : Nat
  head : Nat
  bands : Nat
  firstTrack : Nat
  tpb : Nat
  firstBand : Nat
deriving DecidableEq, Repr

/-- The BANDS section (R642). -/
structure BandsSec where
  code : Nat
  mcFraction : Nat
  format : BitVec 16
  nbands : Nat
  sectPool : List Nat
  runs : List BandRun
deriving DecidableEq, Repr

/-- The contents of a section by its type (R48, R636). -/
inductive Section where
  | lanes (l : List LaneRec)
  | readers (r : ReadersSec)
  | zones (z : ZonesSec)
  | ustore (words : List (BitVec 176))
  | sram (qeWays bndWays : Nat) (dmaMode : Dword)
  | dram (c0 c1 : DramRec)
  | host (h : HostSec)
  | balls (mxa mxb : Nat)
  | pair (role : Nat) (pairSet : BitVec 16) (hbMin hbMax : Nat)
  | bandwidth (journal mirror host : Nat)
  | presets (l : List (BitVec 32 × Word))
  | servo (v : ServoSec)
  | spindle (p : SpindleSec)
  | bands (b : BandsSec)
  | unknown (type : Nat)
deriving DecidableEq, Repr

/-- A directory entry (R46) with its section's contents; crc and digest are the entry's CRC-32C and SHA-384 fields, crcOk and digestOk whether the
section's bytes come to them, reservedOk whether every reserved field of the section is zero. -/
structure DirEntry where
  inst : Nat
  flags : BitVec 8
  offset : Nat
  length : Nat
  crc : BitVec 32
  crcOk : Bool
  digestOk : Bool
  reservedOk : Bool
  digest : BitVec 384
  body : Section
deriving DecidableEq, Repr

/-- A structure image (R45 to R48): its header, its directory with the sections, its signature block. sections is the header's count, digest the
SHA-384 of the bytes that the signature covers, reservedOk and sigZero whether the zero bytes of the header and of the block are zero. -/
structure Image where
  magic : BitVec 32
  format : BitVec 16
  sections : Nat
  length : Nat
  imageVer : BitVec 32
  steppings : BitVec 32
  buildId : Dword
  buildTime : Dword
  dirOffset : Nat
  sigOffset : Nat
  reservedOk : Bool
  digest : BitVec 384
  keyId : BitVec 32
  sigZero : Bool
  sigR : Nat
  sigS : Nat
  dir : List DirEntry
deriving DecidableEq, Repr


/-- The gates of a lane (R233, R140). -/
inductive GateKind where
  | read
  | write
  | verify
deriving DecidableEq, Repr


/-- What a codeword is decoded for: a read on the fly, a concurrent verify, an attempt of the ladder (R111, R114). -/
inductive DecodeFor where
  | otf
  | verify
  | retry
deriving DecidableEq, Repr

/-- How a decode ended (R108): whether every parity check holds, whether the tag's CRC matches, the iterations used, and the
information part as decoded: data and metadata, then the 32-byte tag. -/
structure Decoded where
  parity : Bool
  iters : Nat
  info : List Byte
deriving DecidableEq, Repr

/-- The read signals of the three readers of a head over a codeword (R82, R89): values on a grid of 1/16 baud, inner, centre and outer, the
first of them `lead` bauds before the first codeword bit. -/
structure Wave where
  lead : Nat
  readers : List (List Int)
deriving DecidableEq, Repr

/-- Why a ladder attempt was abandoned (R124). -/
inductive LadderEnd where
  | done
  | abandoned
deriving DecidableEq, Repr


/-- How the concurrent verify of a sector ended (R141, R142): with the second fetch of its data and metadata as KEY encrypts it, or without
an outcome. -/
inductive VerifyEnd where
  | compared (second : List Byte)
  | noOutcome
deriving DecidableEq, Repr


/-- What the calibration of R83 measured on one calibration track for one reader: delay in 1/16 baud, gain in 0.05 dB, cross-track
position in 0.1 % of track pitch. -/
structure CalMeasure where
  reader : Fin 3
  zone : Nat
  delay : Int
  gain : Int
  cross : Int
deriving DecidableEq, Repr


/-- The state of a zone of a zoned namespace (R253, R262). -/
inductive ZoneState where
  | empty
  | implicitOpen
  | explicitOpen
  | closed
  | full
  | offline
deriving DecidableEq, Repr

/-- A namespace's entry (R251, R343, R346): kind 1 device-managed, 2 zoned; LBA format 0 to 2; protection information type; base logical
band and count; actuator set; the controllers attached, and those that hold rotation permission (R391). -/
structure NsEntry where
  kind : Nat
  lbaf : Nat
  pi_ : Nat
  base : Nat
  count : Nat
  set_ : BitVec 4
  attached : List Nat
  permits : List Nat
deriving DecidableEq, Repr

/-- An entry of the logical band table (R256); the write pointer counts data sectors. -/
structure LBand where
  phys : Option Nat
  zone : ZoneState
  wp : Nat
  seq : Nat
deriving DecidableEq, Repr

/-- An entry of the physical band table (R257): STATE 0 FREE, 1 OPEN, 2 FULL, 3 REWRITE_TARGET, 4 CONVENTIONAL, 5 SPARE, 6 RETIRED. -/
structure Band where
  state : Nat
  act : Nat
  head : Nat
  logical : Option Nat
  vfy : Nat
  valid : Nat
  pos : Nat
  rewrites : Nat
  disturb : Nat
  seq0 : Nat
  seq : Nat
deriving DecidableEq, Repr

/-- An extent of the media-cache index (R258); no location marks the LBAs as deallocated. -/
structure Extent where
  first : Nat
  len : Nat
  loc : Option (Nat × Nat)
  seq : Nat
deriving DecidableEq, Repr

/-- A journal entry (R262). -/
structure JEntry where
  type_ : Nat
  act : Nat
  count : Nat
  seq : Nat
  band : Nat
  ns : Nat
  x : Nat
  arg0 : Nat
  arg1 : Nat
deriving DecidableEq, Repr

/-- A map image as read from its slot (R269): its checkpoint C and the tables. -/
structure MapImage where
  ckpt : Nat
  ns : List (Nat × NsEntry)
  lbt : List (Nat × LBand)
  pbt : List (Nat × Band)
  mci : List Extent
deriving DecidableEq, Repr

/-- A position that a region scan read (R271): its sector's LBA, SEQ and BAND where the decode succeeded. -/
structure Scanned where
  pos : Nat
  good : Bool
  lba : Nat
  seq : Nat
  band : Nat
deriving DecidableEq, Repr


/-- What a work item answers to (R302, R303): a host command's slot, a destage of the write cache, journal sectors, a map image, a band
rewrite's sources or its new band, the tail of a media-cache log, a relocation, patrol, a region scan, head calibration. -/
inductive WorkFor where
  | host (slot : Nat)
  | destage
  | journal
  | image
  | rewriteRead (band : Nat)
  | rewriteWrite (band : Nat)
  | relocate
  | patrol
  | scan
  | calibrate
  | forwarded (tag : Nat)
deriving DecidableEq, Repr

/-- A request for actuator work on its way into the pool (R302). KIND: 0 read, 1 write, 2 calibration. -/
structure WorkReq where
  for_ : WorkFor
  cls : Nat
  kind : Nat
  fn : Nat
  act : Nat
  head : Nat
  track : Nat
  pos : Nat
  count : Nat
  lba : Nat
  lbaValid : Bool
  meta_ : Nat
  seq : Nat
  band : Nat
  over_ : Nat
  limited : Bool
  shares : List (Nat × Nat)
deriving DecidableEq, Repr

/-- Where an arriving work item comes from (R302, R303): the oldest request that waits, dirty blocks of the write cache to be destaged from an
LBA on, a band rewrite's next part, or firmware's calibration of a head. -/
inductive ItemSource where
  | waiting
  | destage (lba count : Nat)
  | rewrite (band : Nat)
  | calibrate (n : Lane) (head : BitVec 3)
deriving DecidableEq, Repr


/-- The status values of a completion entry, by the names the manual gives them (R330 to R401). -/
inductive NvStatus where
  | success
  | invalidField
  | invalidOpcode
  | invalidNamespace
  | invalidQueueSize
  | invalidQueueId
  | invalidQueueDeletion
  | invalidControllerResources
  | invalidResourceId
  | invalidLogPage
  | featureNotSaveable
  | nsIdUnavailable
  | insufficientCapacity
  | writeProtected
  | tooManyActiveZones
  | zoneInvalidWrite
  | zoneFull
  | zoneOffline
  | zoneTransition
  | zoneBoundary
  | unrecoveredRead
  | writeFault
  | dataTransfer
  | prpOffset
  | lbaRange
  | guardCheck
  | appTagCheck
  | refTagCheck
  | compareFailure
  | sqDeleted
  | abortedByRequest
  | abortLimit
  | asyncLimit
  | invalidCq
  | invalidVector
  | nsAttached
  | nsNotAttached
  | controllerListInvalid
  | invalidControllerId
  | accessDenied
  | sizeLimit
  | sequenceError
  | internalError
  | anaPersistentLoss
  | anaInaccessible
  | anaTransition
deriving DecidableEq, Repr

/-- Zone Management Send actions (R337, R362). -/
inductive ZoneAction where
  | open_
  | close
  | finish
  | reset
  | offline
deriving DecidableEq, Repr

/-- A command by its name (R336, R337) with its own parameters. -/
inductive HostOp where
  | read
  | write
  | flush
  | compare
  | writeUncorrectable
  | writeZeroes (dealloc : Bool)
  | dsm (deallocate : Bool)
  | verify
  | copy
  | zoneSend (a : ZoneAction)
  | zoneReceive (report bytes : Nat) (part : Bool)
  | zoneAppend
  | createSq (qid size cqid prio : Nat) (base : BitVec 64) (pc : Bool)
  | createCq (qid size vector : Nat) (base : BitVec 64) (pc ien : Bool)
  | deleteSq (qid : Nat)
  | deleteCq (qid : Nat)
  | abort (sqid cid : Nat)
  | asyncEvent
  | identify (cns csi cntid : Nat)
  | getLog (lid csi bytes offset : Nat)
  | getFeatures (fid arg : Nat)
  | setFeatures (fid arg data : Nat) (save : Bool)
  | nsCreate (nsze ncap : Nat) (zoned known : Bool) (lbaf pi_ : Nat) (group : BitVec 4)
  | nsDelete
  | nsAttach (ctrls : List Nat)
  | nsDetach (ctrls : List Nat)
  | virt (action cntlid : Nat) (vectors : Bool) (count : Nat)
  | format (lbaf ses pi_ : Nat)
  | sanitize (action : Nat)
  | secReceive (proto spsp len : Nat)
  | secSend (proto spsp len : Nat)
  | standings (numd : Nat)
  | fwDownload
  | fwCommit
  | other
deriving DecidableEq, Repr

/-- A submission queue entry (R360): CID, NSID, the range, FUA, Limited Retry, whether the PRP entries are well formed and PRP1 aligned
to 4 KiB (R375, R379). -/
structure Sqe where
  op : HostOp
  cid : Nat
  nsid : Nat
  slba : Nat
  nlb : Nat
  fua : Bool
  limited : Bool
  prpOk : Bool
  aligned : Bool
deriving DecidableEq, Repr

/-- A command's result: its status, DNR, and DW0 and DW1 of the completion entry, with the data that goes to host memory before it. -/
structure Result where
  status : NvStatus
  dnr : Bool
  dw0 : Nat
  dw1 : Nat
  data : List (List Byte)
deriving DecidableEq, Repr

/-- The PCI Express capabilities of R325, those present and those absent. -/
inductive PciCap where
  | pciExpress
  | msix
  | aer
  | ari
  | flr
  | powerManagement
  | sriov
  | serialNumber
  | secondaryPcie
  | dataLinkFeature
  | physical16
  | physical32
  | laneMargining
  | msi
  | ats
  | pri
  | pasid
  | tph
  | acs
  | resizableBar
  | ltr
  | l1Substates
  | aspmL0s
  | ecrc
deriving DecidableEq, Repr

/-- Fields of a function's configuration space that R325 to R329 and R342 name or need (log 41). -/
inductive CfgField where
  | vendorId
  | deviceId
  | classCode
  | subsystemVendorId
  | barSize
  | maxPayloadSupported
  | maxPayload
  | maxReadRequest
  | tag10Supported
  | tag10Enable
  | timeoutRanges
  | timeoutValue
  | aspmL1
  | powerState
  | msixSize
  | msixEnable
  | msixFunctionMask
  | totalVfs
  | initialVfs
  | numVfs
  | vfEnable
  | vfOffset
  | vfStride
  | vfDeviceId
  | serialNumber
  | aerUncStatus
  | aerUncMask
  | aerCorStatus
  | aerCorMask
deriving DecidableEq, Repr

/-- Registers of a controller in BAR0 whose contents the spec fixes (R332, R333). -/
inductive Bar0Reg where
  | cap
  | vs
  | csts
deriving DecidableEq, Repr

/-- What a host asks of a function's configuration space (R325, R327), of its controller's registers, and of its MSI-X table, both in BAR0. -/
inductive CfgReq where
  | capability (c : PciCap)
  | read (f : CfgField)
  | write (f : CfgField) (v : Nat)
  | register (r : Bar0Reg)
  | vectorMask (vector : Nat) (masked : Bool)
deriving DecidableEq, Repr

/-- What a host port meets on its link (R351). -/
inductive TlpError where
  | badTlp
  | badDllp
  | malformed
  | unsupported
  | replayRoll
  /-- A completion with status Unsupported Request for a read of host memory that the command in a slot made (R375). -/
  | unsupportedCompletion (slot : Nat)
deriving DecidableEq, Repr

/-- Who asked for a DRAM read (R419 SOURCE, R423): the scrubber, a core, a DMA channel, a host read of a device LBA, a destage of a device
LBA, a verify fetch, a read-modify-write of the merge buffer, a read of a lane's spill slot, any other. -/
inductive DramReader where
  | core (hart : Fin 8)
  | dma (ch : Fin 64)
  | host (lba : Nat)
  | destage (lba : Nat)
  | verify (n : Lane)
  | merge
  | spill (n : Lane) (slot : Nat)
  | other
deriving DecidableEq, Repr

/-- What a granted lane stream moves (R110, R130): a decoded sector into BUF, or a sector's data into a lane's write-data FIFO. -/
inductive LaneMove where
  | decoded
  | writeData (n : Lane)
  /-- A decoded sector's buffer write that was not granted in time (R429). -/
  | decodedLate
  /-- A write sector's data that was not granted in time for its gate (R429). -/
  | writeLate (n : Lane)
deriving DecidableEq, Repr



/-- Atomic memory operations of RV64A (R433), as R437 performs them in SCC. -/
inductive AmoOp where
  | swap
  | add
  | and
  | or
  | xor
  | min
  | max
  | minu
  | maxu
deriving DecidableEq, Repr

/-- The control and status registers of a hart whose values the RH4480 fixes or drives (R433, R434), and its pending interrupts (R440, R443). -/
inductive CoreCsr where
  | misa
  | mvendorid
  | marchid
  | mimpid
  | mhartid
  | cycle
  | time
  | mip
deriving DecidableEq, Repr

/-- What a core does at a physical address (R436 to R439, R454, R455): a load, a store, a fetch, LR, SC with whether it follows the LR within
256 instructions, an AMO, a fence that empties the store buffer, or FENCE.I. -/
inductive CoreOp where
  | load
  | store
  | fetch
  | lr
  | sc (within : Bool)
  | amo (f : AmoOp)
  | fence
  | fenceI
  /-- A read of a control and status register that the RH4480 fixes or drives (R433, R434, R440, R443). -/
  | csrRead (r : CoreCsr)
  /-- A write of misa, which is ignored (R433). -/
  | csrWriteMisa
deriving DecidableEq, Repr

/-- What the core's L1 caches found (R445): the line, no line, or a parity error in it. -/
inductive L1Result where
  | hit
  | miss
  | parity
deriving DecidableEq, Repr

/-- What SECDED found in the shared-cache arrays at the access (R451). -/
inductive ArrayResult where
  | ok
  | correctable
  | uncorrectable
deriving DecidableEq, Repr

/-- A core access: the virtual address, the physical address, the bytes, the store data, the cause of a PMP or page-table refusal (R438). -/
structure CoreAccess where
  hart : Fin 8
  op : CoreOp
  va : Nat
  addr : Nat
  size : Nat
  data : Dword
  refused : Option Nat
  l1 : L1Result
  array : ArrayResult
deriving DecidableEq, Repr



/-- The header of a received Baton message whose CRC holds (R485): LSEQ, ACKSEQ, CREDIT and TAG. -/
structure BatHdr where
  lseq : BitVec 16
  ackseq : BitVec 16
  credit : BitVec 16
  tag : BitVec 32
deriving DecidableEq, Repr

/-- What MESSAGE_REPLAY meets (R484, R487): a message received with a failing CRC, by its payload entries, or the LSEQ that the partner's ACKSEQ names. -/
inductive ReplayCause where
  | crcFailed (len : Nat)
  | named (lseq : BitVec 16)
deriving DecidableEq, Repr

/-- The Baton messages with their arguments and payloads (R486). -/
inductive BatMsg where
  | hello (set role stepping image fw : Nat) (manifest : BitVec 128)
  | heartbeat (mode : Nat) (owned lost : BitVec 4) (ke pcache resynced : Bool) (offer ack : Nat)
  | release (acts : BitVec 4)
  | cmd (fn ns cls : Nat) (e : Sqe)
  | data (first count : Nat) (blocks : List (List Byte))
  | done (status : NvStatus) (dnr : Bool) (dw0 dw1 : Nat)
  | extent (req : WorkReq) (age : Nat)
  | outcome (outcome charge : Nat)
  | mirror (ns first count : Nat) (blocks : List (List Byte))
  | commit (ns first count : Nat) (transfer : Bool)
  | mack
  | mfree (ns first count : Nat)
  | mreq (ns lba : Nat)
  | jnl (pos : Nat) (entries : List JEntry)
  | jack (pos : Nat)
  | keyrec (ns : Nat) (rec_ : List Byte)
  | nsrec (ns : Nat) (entry : Option NsEntry)
  | rack
  | lwlrec (base ns fn : Nat) (map : BitVec 256)
  | resync (phase : Nat)
deriving DecidableEq, Repr


/-- A component entry of a manifest (R533). -/
structure Component where
  type : Nat
  inst : Nat
  roles : BitVec 8
  version : BitVec 32
  flashOff : BitVec 32
  length : BitVec 32
  param : BitVec 32
  revision : List Byte
  digest : BitVec 384
deriving DecidableEq, Repr

/-- A combination entry of a manifest (R534). -/
structure Combo where
  steppings : BitVec 32
  roles : BitVec 8
  tcfVer : BitVec 32
  cfwVer : BitVec 32
  imageVer : BitVec 32
  ucode : List (BitVec 32)
  peerSteppings : BitVec 32
  peerImageVer : BitVec 32
  peerCfwVer : BitVec 32
deriving DecidableEq, Repr

/-- A manifest (R532): its header (ncomp and ncombo are the header's counts), its entries, its signature block; digest is the digest that its signature
covers, reservedOk whether every zero byte is zero. -/
structure Manifest where
  magic : BitVec 32
  format : BitVec 16
  ncomp : Nat
  ncombo : Nat
  components : List Component
  combos : List Combo
  svn : BitVec 16
  svnFloor : BitVec 16
  pairSet : BitVec 16
  length : Nat
  id : Dword
  buildTime : Dword
  reservedOk : Bool
  digest : BitVec 384
  sigKey : BitVec 32
  sigR : Nat
  sigS : Nat
deriving DecidableEq, Repr

/-- An entry of the key table (R528): a public key with its uses. -/
structure KeyEntry where
  keyId : BitVec 32
  usage : BitVec 32
  x : Nat
  y : Nat
deriving DecidableEq, Repr

/-- A key table (R528): its VERSION and entries, its signature; formed says that its header is right and its zero bytes are zero, root is the SHA-384
of entry 0's X and Y, digest that of the bytes signed. -/
structure KeyTable where
  version : BitVec 16
  entries : List KeyEntry
  formed : Bool
  root : BitVec 384
  digest : BitVec 384
  sigR : Nat
  sigS : Nat
deriving DecidableEq, Repr


/-- A frame of the Mocel ring as its entries (R579): the header entry and the payload entries. -/
structure MocFrame where
  hdr : BitVec 128
  payload : List (BitVec 128)
deriving DecidableEq, Repr

/-- A register that pops a receive FIFO (R549, R589). -/
inductive RxPort where
  | svc
  | moc
deriving DecidableEq, Repr

/-- The read ports whose selection advances with AUTOINC (R587, R230, R170). -/
inductive IndexPort where
  | evrRd
  | evrStd
  | msStore (n : Lane)
  | svCoef (n : Lane)
deriving DecidableEq, Repr

/-- Which hold of the log a freeze timeout releases (R562). -/
inductive FreezeHold where
  | firmware
  | service
deriving DecidableEq, Repr


/-- Where a power-on reset comes from (R590, GLB_RST_CAUSE.SOURCE). -/
inductive PorSource where
  | supply
  | sysRst
deriving DecidableEq, Repr

/-- A unit of GLB_UNIT_OK0 or GLB_UNIT_OK1 (R43): register 0 or 1 and the bit that shows it; `qeWay` says that QE failed by an uncorrectable
error in a queue-structure way (R453). -/
structure UnitId where
  reg1 : Bool
  bit : Fin 32
  qeWay : Bool
deriving DecidableEq, Repr

/-- What the CRCs of MRAM records come to at a reset: the two copies of the recorder header (R564), and by bit each lane's upkeep record (R293). -/
structure RecorderScan where
  good0 : Bool
  good1 : Bool
  upkeep : BitVec 4
deriving DecidableEq, Repr

/-- How far the note's LOST write came before a reset or the end of power (R598, R602, R627): made, cut off so that its CRC fails, or not begun. -/
inductive NoteWrite where
  | made
  | cut
  | notBegun
deriving DecidableEq, Repr

/-- What asserts the power-fail condition (R597, R598): PWR_FAIL_N, a low rail, SUPPLY_LOW. -/
structure PowerCause where
  pin : Bool
  rail : Bool
  supply : Bool
deriving DecidableEq, Repr


/-- A command: one row of the table each. -/
inductive Instr where
  /-- REGISTER_WRITE (R10): A control-core or service-port write to a register that has no row of its own updates its fields under their access codes. -/
  | registerWrite (who : Req) (size addr : Nat) (data : Word) (hw : HwEdit)
  /-- PAIR_LO_READ (R16): A read of a _LO register returns its value and latches the _HI half into the shared shadow. -/
  | pairLoRead (who : Req) (addr : Nat)
  /-- PAIR_HI_WRITE (R16): A write of a _HI register is held in the holding register without taking effect. -/
  | pairHiWrite (who : Req) (addr : Nat) (data : Word)
  /-- PAIR_LO_WRITE (R16): A write of a _LO register commits the 64-bit value together with the holding register. -/
  | pairLoWrite (who : Req) (addr : Nat) (data : Word)
  /-- COUNTER_READ_CLEAR (R10): A read of an RC field returns its value and clears it, with a same-handshake event deferred to the next read. -/
  | counterReadClear (who : Req) (addr : Nat) (event : Word)
  /-- MODE_REQUEST (R35): Firmware writes GLB_MODE_REQ.TARGET and GLB takes the matching transition or rejects the request. -/
  | modeRequest (target : BitVec 4)
  /-- TRANSITION_COMPLETE (R635): A transition that waited for lanes, spindle or heads completes, clearing BUSY and writing PREV and CAUSE. -/
  | transitionComplete
  /-- FABRIC_PACE_UPDATE (R28): Every 10 µs GLB updates GLB_FABRIC_PACE.PACE and records an excursion below 256. -/
  | fabricPaceUpdate (pace : BitVec 16)
  /-- IMAGE_LOAD_START (R57): CFG starts loading the structure image from the flash slot the trust core hands it, reading the header first. -/
  | imageLoadStart
  /-- IMAGE_READ_DONE (R57): The last image byte has been read and hashed and signature verification begins. -/
  | imageReadDone (failedAt : Option Nat)
  /-- SIGNATURE_VERIFIED (R47): The trust core completes ECDSA verification of the image and CFG runs the admission checks. -/
  | signatureVerified (badStore : Option Lane)
  /-- DRAM_TRAINING_DONE (R415): A DMC finishes training, runs check 0x000C and the checker self-test, and is marked present or not. -/
  | dramTrainingDone (channel : Fin 2) (found : DramRec) (trained binOk : Bool) (read : List (Vector (BitVec 64) 10))
  /-- DRAM_INIT_CHUNK (R416): A DMC writes 64 KiB of zeros with valid check bits and advances DMCn_INIT_PTR. -/
  | dramInitChunk (channel : Fin 2)
  /-- PBUS_COMMAND_WRITE (R78): Firmware writes LNn_PBUS_CMD and a read or write frame is queued, refused while busy, or completed at once as dropped. -/
  | pbusCommandWrite (n : Lane) (data : Word)
  /-- PBUS_FRAME_START (R74): The lane bus master starts the next waiting frame in priority order when it fits before the next gate frame. -/
  | pbusFrameStart (n : Lane) (room : Option Nat)
  /-- PBUS_FRAME_END (R78): A preamp frame ends and its result, retry or read-back is processed and LNn_PBUS_RES is updated. -/
  | pbusFrameEnd (n : Lane) (data : BitVec 16) (check : BitVec 8)
  /-- FAULT_QUALIFIED (R81): HLn_FAULT_N low for two samples is qualified, setting FAULT_SEEN, counting and signalling the write path. -/
  | faultQualified (n : Lane)
  /-- PLL_RELOCK (R86): The synthesiser relocks after a change of M and LNn sets PLL_LOCK. -/
  | pllRelock (n : Lane)
  /-- TABLE_DATA_WRITE (R97): A write of LNn_TBL_DATA or LNn_WTBL_DATA is applied at once or held until the open gate closes. -/
  | tableDataWrite (who : Req) (addr : Nat) (data : Word)
  /-- TABLE_DATA_READ (R96): A read of LNn_TBL_DATA or LNn_WTBL_DATA returns the selected entry and advances INDEX with AUTOINC. -/
  | tableDataRead (who : Req) (addr : Nat)
  /-- GATE_CLOSE (R233): LNn closes a read, write or verify gate at the end of the sector's pad or at a split. -/
  | gateClose (n : Lane) (gate : GateKind) (taps : List Word)
  /-- TOKEN_REQUEST (R113): The first LLR of a codeword enters the soft-output FIFO and the lane requests a decoder engine. -/
  | tokenRequest (n : Lane) (kind : DecodeFor) (fifo : Nat) (wave : Wave)
  /-- TOKEN_GRANT (R113): A floating token is granted to the oldest waiting request and the engine begins intake. -/
  | tokenGrant
  /-- DECODE_DONE (R108): An LDPC engine ends a decode, classifies it as success, miscorrection, tag mismatch or failure, and returns tokens. -/
  | decodeDone (engine : Fin 12) (result : Decoded)
  /-- ENGINE_FAULT (R115): An engine detecting a memory fault loses its token, slips its codeword and reissues a retry decode. -/
  | engineFault (engine : Fin 12)
  /-- LADDER_ATTEMPT_END (R121): A ladder attempt ends, counting its revolution and moving to the next attempt or rung. -/
  | ladderAttemptEnd (n : Lane) (ended : LadderEnd)
  /-- VERIFY_GATE_OPEN (R140): LNn opens the verify gate on the verify reader VFY_GAP bauds after the write gate opens. -/
  | verifyGateOpen (n : Lane)
  /-- VERIFY_OUTCOME (R141): The verify decode and byte comparison with the second fetch finish and the sector passes or misses. -/
  | verifyOutcome (n : Lane) (ended : VerifyEnd)
  /-- SECTOR_REWRITE (R144): MSn rewrites a missed sector with the same data and tag on the next revolution. -/
  | sectorRewrite (n : Lane)
  /-- WRITE_INHIBIT (R146): A write-inhibit source asserts and LNn squelches the write data and records the source. -/
  | writeInhibit (n : Lane) (source : Fin 6)
  /-- INHIBIT_RESUME (R146): An inhibit source clears under its resume condition and writing may resume. -/
  | inhibitResume (n : Lane) (source : Fin 6)
  /-- INTERRUPTED_REWRITE (R149): MSn writes an interrupted sector again whole once its source has cleared, or relocates it. -/
  | interruptedRewrite (n : Lane)
  /-- WRITE_FIFO_UNDERRUN (R30): The write-data FIFO underruns inside a gate and the sector is rewritten next revolution. -/
  | writeFifoUnderrun (n : Lane)
  /-- SERVO_ENABLE (R192): SVn_CTL.ENABLE becomes 1 and the engine goes from OFF to PARKED. -/
  | servoEnable (n : Lane)
  /-- SERVO_DISABLE (R192): SVn_CTL.ENABLE becomes 0 and the engine sends retract frames then stops outputs in OFF. -/
  | servoDisable (n : Lane)
  /-- SYNC_REFERENCE (R155): SVn finds the servo sync mark, aligns its clock, restarts the wedge timer and applies parameter entries. -/
  | syncReference (n : Lane) (mark : BitVec 8) (interval bauds : Nat)
  /-- SYNC_WINDOW_END (R159): The search window ends without SYNC and the wedge coasts from the predicted reference. -/
  | syncWindowEnd (n : Lane) (estTrack : Nat) (estV : Int)
  /-- SERVO_SAMPLE (R155): At cycle 256 the sample is ready with wedge, track and PES, and safety and counts are judged. -/
  | servoSample (n : Lane) (field : BitVec 82) (a b : Int) (estTrack : Nat) (estV : Int)
  /-- CURRENT_TICK (R164): At each current tick the VCM command with PI correction is sent as a VCM frame. -/
  | currentTick (n : Lane) (beats : Nat)
  /-- SERVO_OUTPUT (R173): At cycle 1,280 the position outputs go to the motion link. -/
  | servoOutput (n : Lane) (beats : Nat)
  /-- NOP (R643): An Abacus NOP slot does nothing for one cycle. -/
  | nop (n : Lane)
  /-- MUL (R643): An Abacus MUL slot starts an accumulation with the product of two words. -/
  | mul (n : Lane)
  /-- MAC (R643): An Abacus MAC slot adds the product of two words to the accumulator. -/
  | mac (n : Lane)
  /-- STORE (R643): An Abacus STORE slot rounds the accumulator into a word at its block exponent. -/
  | store (n : Lane)
  /-- ABACUS_MOVE (R643): An Abacus MOVE slot copies one word to another at the destination block exponent. -/
  | abacusMove (n : Lane)
  /-- IN (R643): An Abacus IN slot loads a numbered input into a word. -/
  | in_ (n : Lane)
  /-- OUT (R643): An Abacus OUT slot sets a numbered output for conversion at cycle 1,280. -/
  | out_ (n : Lane)
  /-- RENORM (R168): An Abacus RENORM slot renormalises a block's mantissas and exponent. -/
  | renorm (n : Lane)
  /-- NOP_FRAME (R172): MOT sends a NOP frame when 4 µs pass without another outbound frame. -/
  | nopFrame
  /-- CURRENT_FRAME (R172): An inbound CURRENT frame delivers a measured VCM current to the channel's servo engine. -/
  | currentFrame (frame : BitVec 64)
  /-- BEMF_FRAME (R200): An inbound BEMF frame delivers floating-phase voltage, zero crossings and pulse currents to SPM. -/
  | bemfFrame (frame : BitVec 64) (at_ : Nat)
  /-- STATUS_FRAME (R175): An inbound STATUS frame updates shock, supply, temperature and retract flags. -/
  | statusFrame (frame : BitVec 64)
  /-- INBOUND_FRAME_GAP (R174): An expected CURRENT or STATUS frame not validly received within 1.5 µs counts in RX_GAP. -/
  | inboundFrameGap
  /-- MOTION_LINK_LOST (R174): 4 µs without a valid inbound frame clear LINK_UP and put every SVn in FAULT. -/
  | motionLinkLost
  /-- TARGET_MAILBOX_WRITE (R184): A target entry from the selected source is written to the one-entry mailbox, overwriting any unread one. -/
  | targetMailboxWrite (n : Lane) (firmware : Bool) (entry : BitVec 64)
  /-- PACER_STEP (R185): At cycle 1,536 of every fourth wedge the Pacer reads the mailbox and supplies reference samples. -/
  | pacerStep (n : Lane)
  /-- PLAN_END (R189): Plan time passes the plan's end and SEEK becomes SETTLE or an unload turns to retract frames. -/
  | planEnd (n : Lane)
  /-- FE_TRIP (R191): The following-error count reaches WEDGES and the target is abandoned with a restart plan. -/
  | feTrip (n : Lane)
  /-- SETTLE_DONE (R193): WEDGES wedges within the settle limit move SETTLE to FOLLOW and copy the TAG. -/
  | settleDone (n : Lane)
  /-- SETTLE_TIMEOUT (R193): SETTLE lasting MAX wedges sets SETTLE_TO and counts. -/
  | settleTimeout (n : Lane)
  /-- LOAD (R192): A load command in PARKED with the spindle at speed starts LOADING. -/
  | load (n : Lane)
  /-- UNLOAD (R195): An unload command plans to the unload track under the latched limits. -/
  | unload (n : Lane)
  /-- RETRACT (R192): A retract command sends the engine to RETRACT. -/
  | retract (n : Lane)
  /-- CLEAR_FAULT (R192): A clear-fault command with the link up takes FAULT to PARKED. -/
  | clearFault (n : Lane)
  /-- ACQUIRE_DONE (R193): ACQ_WEDGES consecutive valid wedges take ACQUIRE to SEEK. -/
  | acquireDone (n : Lane)
  /-- LOAD_TIMEOUT (R194): A load attempt not reaching FOLLOW within MAX ms retracts and retries or ends in FAULT. -/
  | loadTimeout (n : Lane)
  /-- RETRACT_TIME_END (R192): RET_TIME elapses and UNLOADING or RETRACT ends in PARKED or FAULT. -/
  | retractTimeEnd (n : Lane)
  /-- SPINDLE_START (R206): A start command is accepted with all heads parked or refused with REQ_REJ. -/
  | spindleStart
  /-- ROTOR_REST_CHECK (R206): SPM judges from 2 ms of BEMF frames whether the rotor is at rest and starts sensing or R211 handling. -/
  | rotorRestCheck
  /-- SENSE_DONE (R206): Six sensing pulses end and open-loop commutation begins two steps past the sensed sector. -/
  | senseDone
  /-- COMMUTATION (R202): The commutation timer releases a SPINDLE frame 52 beats before its due time. -/
  | commutation (beats : Nat)
  /-- SPEED_UPDATE (R204): Once per mechanical revolution SPM measures speed and updates DRIVE by PI action. -/
  | speedUpdate
  /-- ZC_TIMEOUT (R205): No zero crossing for 4 × T₆₀ sets REG_LOST. -/
  | zcTimeout
  /-- NO_HANDOVER (R207): An attempt without handover within OPEN_MAX fails. -/
  | noHandover
  /-- SPIN_TIMEOUT (R207): An attempt not at speed within SPIN_MAX fails. -/
  | spinTimeout
  /-- KE_CHECK_END (R210): The Ke window ends and the run-up continues or the spindle is refused. -/
  | keCheckEnd (meanSpeed : Nat)
  /-- SPINDLE_BRAKE (R213): A brake command or failed attempt brakes once every actuator is parked. -/
  | spindleBrake
  /-- BRAKE_PROBE (R213): Every PROBE_MS SPM coasts 2 ms and judges the spindle stopped below STOP_MV. -/
  | brakeProbe
  /-- RETRY_WAIT_END (R209): RETRY_WAIT elapses and a new start attempt begins. -/
  | retryWaitEnd
  /-- SPINDLE_CLEAR_FAULT (R214): A clear-fault command with the spindle stopped takes FAULT to STOPPED. -/
  | spindleClearFault
  /-- SPM_SELF_TEST (R212): SPM passes its start-up self-test after DONE and sets GLB_UNIT_OK1.SPM. -/
  | spmSelfTest (passed : Bool)
  /-- CADENCE_REQUEST (R215): A write of SPM_CAD_REQ sets the spin-up target or starts a cadence change. -/
  | cadenceRequest (cad : BitVec 2)
  /-- DRAIN_COMPLETE (R216): Every lane has drained and the speed ramp begins. -/
  | drainComplete
  /-- CADENCE_RAMP_END (R216): The speed reference reaches the new cadence and regulation is awaited. -/
  | cadenceRampEnd
  /-- CAD_TIMEOUT (R217): No regulation within SETTLE_MAX after the ramp ends retracts and brakes. -/
  | cadTimeout
  /-- LANE_RESUME (R216): After relock and the heater lead the lane resumes gates at the new cadence. -/
  | laneResume (n : Lane)
  /-- PF_COAST_END (R220): COAST_MS elapses while powered and SPM brakes. -/
  | pfCoastEnd
  /-- RUN (R244): MSn_CTL.RUN going 0 to 1 clears sequencer state and starts at 0x000. -/
  | run (n : Lane)
  /-- RUN_STOP (R245): RUN written to 0 halts the sequencer at its next safe point. -/
  | runStop (n : Lane)
  /-- SEQUENCER_RESUME (R244): MSn_CTL.RESUME continues a halted sequencer at PC without clearing state. -/
  | sequencerResume (n : Lane)
  /-- FIRMWARE_INTERRUPT (R240): Firmware writes MSn_INT.FW and a firmware interrupt becomes pending. -/
  | firmwareInterrupt (n : Lane)
  /-- TRAP (R242): At a safe point a fault or enabled interrupt is taken, recording cause and addresses and setting MASK. -/
  | trap (n : Lane)
  /-- FORCED_HALT (R245): No HALT within 100 µs of MODE_EXIT or RUN=0 forces a halt and posts 0xF2. -/
  | forcedHalt (n : Lane)
  /-- TIMER_HOLD_END (R232): A word's baud-target, cycle-count or condition hold ends and its fields act. -/
  | timerHoldEnd (n : Lane)
  /-- BRANCH (R229): A BRANCH word goes to BR_ADDR or NEXT by its condition. -/
  | branch (n : Lane) (storeOk : Bool)
  /-- LOOP (R230): A LOOP0 or LOOP1 word decrements its counter and branches while above 1. -/
  | loop (n : Lane) (storeOk : Bool)
  /-- CALL (R229): A CALL word pushes NEXT and goes to BR_ADDR. -/
  | call (n : Lane) (storeOk : Bool)
  /-- RETURN (R229): A RETURN word pops the return stack. -/
  | return_ (n : Lane) (storeOk : Bool)
  /-- DISPATCH (R229): A DISPATCH word goes to BR_ADDR plus the last popped opcode. -/
  | dispatch (n : Lane) (storeOk : Bool)
  /-- HALT (R229): A HALT word stops the sequencer HALTED. -/
  | halt (n : Lane) (storeOk : Bool)
  /-- TRAP_RETURN (R243): TRAP_RETURN clears MASK and continues at the recorded return address. -/
  | trapReturn (n : Lane) (storeOk : Bool)
  /-- OPEN_READ (R233): GATE open read starts a read gate for the described sector, or faults. -/
  | openRead (n : Lane) (heard : BitVec 112)
  /-- OPEN_WRITE (R233): GATE open write starts a write gate when the sector's data is ready, or faults. -/
  | openWrite (n : Lane)
  /-- CLOSE_NOW (R233): GATE close now ends an open gate at once. -/
  | closeNow (n : Lane)
  /-- GATE_FRAME (R234): PB_OP 1 schedules a gate frame selecting head HD at PB_AT after the next reference. -/
  | gateFrame (n : Lane)
  /-- SETTING_FRAME (R234): PB_OP 2 queues a setting frame from the table or W7, suppressed if unchanged. -/
  | settingFrame (n : Lane)
  /-- READ_FAULT_STAT (R234): PB_OP 3 reads FAULT_STAT into W8 and disables writing on writer or assist faults. -/
  | readFaultStat (n : Lane)
  /-- READ_REGISTER (R234): PB_OP 4 reads preamp register PB_ADDR into W8. -/
  | readRegister (n : Lane)
  /-- READ_OVERRIDE (R235): OVR sets or clears the read override for following read gates. -/
  | readOverride (n : Lane)
  /-- SECT_READ (R235): SECT code 1 passes a READ sector descriptor to LNn. -/
  | sectRead (n : Lane)
  /-- SECT_WRITE (R235): SECT code 2 passes a WRITE sector descriptor to LNn. -/
  | sectWrite (n : Lane)
  /-- SECT_WRITE_VERIFY (R235): SECT code 3 passes a WRITE descriptor with forced verify. -/
  | sectWriteVerify (n : Lane)
  /-- START_PARITY_GROUP (R235): SECT code 4 clears the track-parity accumulators. -/
  | startParityGroup (n : Lane)
  /-- SECT_READ_SPILL (R235): SECT code 5 passes a READ whose decode combines spilled LLRs. -/
  | sectReadSpill (n : Lane)
  /-- POP (R236): CMD POP waits for a command FIFO entry and copies OP and W0 to W4. -/
  | pop (n : Lane) (measured : List CalMeasure)
  /-- DISCARD (R236): CMD DISCARD removes the head command entry without copying. -/
  | discard (n : Lane)
  /-- EVENT_POST (R237): EVT posts a 64-bit event entry, holding while the event FIFO is full. -/
  | eventPost (n : Lane)
  /-- ALU (R238): ALU_OP performs its 24-bit operation on work registers and sets flags. -/
  | alu (n : Lane)
  /-- CLK_ZONE (R239): CLK 1 loads BPW and M for zone W2 and relocks, or faults CLK_BUSY. -/
  | clkZone (n : Lane)
  /-- JOURNAL_FLUSH (R264): BND starts a flush of pending, REGION, ALLOC and CHECKPOINT entries to the journal areas. -/
  | journalFlush (intervalOver : Bool)
  /-- CHECKPOINT_PLACED (R264): Every sector of every journal copy is placed and BND_CKPT_NUM advances. -/
  | checkpointPlaced
  /-- FLUSH_COMMAND (R263): Firmware writes BND_CMD.FLUSH to start a flush. -/
  | flushCommand
  /-- IMAGE_COMMAND (R269): Firmware writes BND_CMD.IMAGE to start a map image. -/
  | imageCommand
  /-- MAP_IMAGE (R269): BND writes the map tables to the older map slot while service continues. -/
  | mapImage
  /-- MAP_IMAGE_PLACED (R269): Both copies of a map image are placed and older journal space becomes free. -/
  | mapImagePlaced
  /-- BAND_REWRITE_BEGIN (R267): BND allocates a band, reserves SEQ, journals REWRITE_BEGIN and forces a flush. -/
  | bandRewriteBegin (logical : Nat)
  /-- BAND_SWITCH (R267): Every sector of the new band is placed and BND switches the logical band. -/
  | bandSwitch (band : Nat)
  /-- RELOCATION (R260): BND handles a sector reported for relocation by dropping or placing it in a media cache. -/
  | relocation
  /-- MAP_REBUILD (R270): BND starts rebuilding its map when heads first load after CONFIGURE. -/
  | mapRebuild (images : List MapImage) (flushes : List (List JEntry))
  /-- REGION_SCAN (R271): A lane completes the scan of one region, accepting sectors and recording holes. -/
  | regionScan (n : Lane) (read : List Scanned) (ms : Nat)
  /-- REBUILD_READY (R270): Rewrites and zones are resolved, the counter set, a flush forced and STATE becomes READY. -/
  | rebuildReady
  /-- RANGE_REBUILD (R276): Poison in a map line makes BND rebuild the range it covers. -/
  | rangeRebuild (logicals : List Nat)
  /-- COLLECTION_LEVEL (R284): BND re-evaluates an actuator's collection level on a measure change or every 10 ms. -/
  | collectionLevel (a : Lane)
  /-- COLLECTION_WORK (R286): BND selects the next collection rewrite or tail copy for an actuator. -/
  | collectionWork (a : Lane)
  /-- MIGRATION (R282): A due static migration rewrites a cold least-worn band into a most-worn free band. -/
  | migration (a : Lane)
  /-- PATROL_PASS (R290): A lane starts a patrol pass over every written position, paced to PERIOD. -/
  | patrolPass (n : Lane)
  /-- PATROL_REQUEST (R291): Patrol reads are requested as idle or scheduled work by DEBT. -/
  | patrolRequest (n : Lane)
  /-- READONLY_ENTRY (R298): On entering READONLY BND destages, journals, flushes and writes a map image. -/
  | readonlyEntry
  /-- WORK_ITEM_ARRIVAL (R302): A work item enters the Relay pool or its source waits for free items. -/
  | workItemArrival (src : ItemSource)
  /-- RELAY_DECISION (R308): At a wedge reference RLY chooses an actuator's next item by overdue age and tier. -/
  | relayDecision (a : Lane)
  /-- SLIP (R315): RLY requeues a slipped sector at its next revolution. -/
  | slip (n : Lane)
  /-- OFFSET_REQ (R315): RLY writes an offset target and sends 0xFE when it takes effect. -/
  | offsetReq (n : Lane)
  /-- TRACK_DONE (R315): A DONE event ends the item's track, and the item ends and is charged when all outcomes are in. -/
  | trackDone (n : Lane)
  /-- LADDER (R315): RLY passes a LADDER event to BND. -/
  | ladder (n : Lane)
  /-- REWRITE (R315): RLY passes a REWRITE event to BND with its cost in the item's charge. -/
  | rewrite (n : Lane)
  /-- RELOCATE (R315): RLY passes a RELOCATE event to BND. -/
  | relocate (n : Lane)
  /-- SQUELCH (R315): RLY passes a SQUELCH event to BND. -/
  | squelch (n : Lane)
  /-- VFY_MISS (R315): RLY passes a VFY_MISS event to BND. -/
  | vfyMiss (n : Lane)
  /-- PREAMP_FAULT (R237): A PREAMP_FAULT event is acted on by the Relay scheduler and BND. -/
  | preampFault (n : Lane)
  /-- CAL_RANGE (R237): A CAL_RANGE event reports an out-of-range calibration. -/
  | calRange (n : Lane)
  /-- LANE_LOST (R315): Items of a lost lane's actuator end with outcome LANE_LOST. -/
  | laneLost (n : Lane)
  /-- CONTROLLER_ENABLE (R332): A host sets CC.EN and the controller reports ready as its mode permits. -/
  | controllerEnable (fn : Fin 128) (wrr : Bool) (asqSize acqSize : Nat) (asq acq : BitVec 64)
  /-- FLR (R331): A Function Level Reset stops fetching, discards unfetched commands and deletes the function's queues. -/
  | flr (fn : Fin 128)
  /-- CONTROLLER_RESET (R331): CC.EN going 1 to 0 resets the controller as an FLR does. -/
  | controllerReset (fn : Fin 128)
  /-- HOT_RESET (R331): A port hot reset resets every function of the port. -/
  | hotReset (port : Fin 2)
  /-- LINK_DOWN (R331): A port link-down resets every function of the port and retrains. -/
  | linkDown (port : Fin 2)
  /-- SQ_TAIL_DOORBELL (R354): A host writes an SQ tail doorbell, accepted or ignored as invalid. -/
  | sqTailDoorbell (fn : Fin 128) (sq value : Nat)
  /-- CQ_HEAD_DOORBELL (R373): A host writes a CQ head doorbell, freeing entries for held completions. -/
  | cqHeadDoorbell (fn : Fin 128) (cq value : Nat)
  /-- FETCH_VISIT (R357): QE visits the next eligible function and fetches admin and I/O entries. -/
  | fetchVisit (read : List (Nat × Sqe))
  /-- ENTRY_DECODE (R361): A fetched entry is decoded into a command-table slot with a FON and hazard runs. -/
  | entryDecode
  /-- WRITE_ADMISSION (R364): A write whose data and earlier overlapping writes are ready is admitted to the write cache. -/
  | writeAdmission (slot : Nat)
  /-- READ_SNAPSHOT (R365): A read whose earlier overlapping writes are admitted takes references to current versions. -/
  | readSnapshot (slot : Nat)
  /-- COMPLETION_POST (R371): QE writes data, then the completion entry, then any MSI-X message, or holds it if the CQ is full. -/
  | completionPost (slot : Nat)
  /-- COALESCE_TIMER (R374): The coalescing time expires and the vector is sent. -/
  | coalesceTimer (fn : Fin 128) (cq : Nat)
  /-- POISONED_TLP (R342): Write data in a poisoned TLP fails the command and is reported under AER. -/
  | poisonedTlp (slot : Nat)
  /-- CREATE_IO_SQ (R352): Create I/O SQ creates a submission queue bound to a CQ. -/
  | createIoSq (slot : Nat)
  /-- CREATE_IO_CQ (R352): Create I/O CQ creates a completion queue. -/
  | createIoCq (slot : Nat)
  /-- DELETE_IO_SQ (R353): Delete I/O SQ stops fetching and completes after the queue's commands end. -/
  | deleteIoSq (slot : Nat)
  /-- DELETE_IO_CQ (R353): Delete I/O CQ deletes a CQ or fails while SQs are bound. -/
  | deleteIoCq (slot : Nat)
  /-- ABORT (R377): Abort aborts a target whose data has not moved, or reports it not aborted. -/
  | abort (slot : Nat)
  /-- ASYNC_EVENT_REQUEST (R336): An Asynchronous Event Request is held outstanding for later events. -/
  | asyncEventRequest (slot : Nat)
  /-- IDENTIFY (R334): Identify returns the data structure selected by CNS or fails. -/
  | identify (slot : Nat)
  /-- GET_LOG_PAGE (R339): Get Log Page returns a supported page scoped to the function. -/
  | getLogPage (slot : Nat)
  /-- GET_FEATURES (R338): Get Features returns a supported feature's value. -/
  | getFeatures (slot : Nat)
  /-- SET_FEATURES (R338): Set Features sets a supported feature within its scope. -/
  | setFeatures (slot : Nat)
  /-- NAMESPACE_CREATE (R345): Namespace Management create validates, checks capacity and journals a new namespace. -/
  | namespaceCreate (slot : Nat) (mram : Bool)
  /-- NAMESPACE_DELETE (R346): Namespace Management delete fails new commands, destroys the key and frees the bands. -/
  | namespaceDelete (slot : Nat) (mram : Bool)
  /-- NAMESPACE_ATTACH (R346): Namespace Attachment attach records controllers in the attachment map in MRAM. -/
  | namespaceAttach (slot : Nat)
  /-- NAMESPACE_DETACH (R346): Namespace Attachment detach removes controllers and their rotation permission. -/
  | namespaceDetach (slot : Nat)
  /-- SECONDARY_OFFLINE (R330): Virtualization Management takes a VF controller offline. -/
  | secondaryOffline (slot : Nat)
  /-- SECONDARY_ASSIGN (R330): Virtualization Management assigns flexible resources to an offline VF. -/
  | secondaryAssign (slot : Nat)
  /-- SECONDARY_ONLINE (R330): Virtualization Management brings a VF online if it holds enough resources. -/
  | secondaryOnline (slot : Nat)
  /-- PRIMARY_FLEXIBLE_ALLOCATION (R330): Primary Flexible Allocation is refused with Invalid Field in Command. -/
  | primaryFlexibleAllocation (slot : Nat)
  /-- FORMAT_NVM (R393): Format NVM formats attached namespaces, with cryptographic erase if selected. -/
  | formatNvm (slot : Nat) (mram : Bool)
  /-- SANITIZE_CRYPTO_ERASE (R393): Sanitize crypto erase erases every namespace of the drive. -/
  | sanitizeCryptoErase (slot : Nat) (mram : Bool)
  /-- SANITIZE_OVERWRITE (R336): Sanitize overwrite runs as an activity. -/
  | sanitizeOverwrite (slot : Nat)
  /-- SANITIZE_BLOCK_ERASE (R336): Sanitize block erase fails with Invalid Field in Command. -/
  | sanitizeBlockErase (slot : Nat)
  /-- FIRMWARE_IMAGE_DOWNLOAD (R4): Firmware Image Download from a host is always refused. -/
  | firmwareImageDownload (slot : Nat)
  /-- FIRMWARE_COMMIT (R4): Firmware Commit from a host is always refused. -/
  | firmwareCommit (slot : Nat)
  /-- INVALID_OPCODE (R336): An unimplemented or forbidden opcode fails with Invalid Command Opcode. -/
  | invalidOpcode (slot : Nat)
  /-- SECURITY_PROTOCOL_LIST (R390): Security Receive protocol 0x00 returns the list of supported protocols. -/
  | securityProtocolList (slot : Nat)
  /-- INFO (R390): Keyring INFO returns version, slots and supported operations. -/
  | info (slot : Nat)
  /-- STATE (R390): Keyring STATE returns a namespace's GEN, CREATED and key state. -/
  | state (slot : Nat)
  /-- ROTATE (R392): Keyring ROTATE crypto-erases a namespace when permission and GEN match. -/
  | rotate (slot : Nat) (buffer : List Byte) (mram : Bool)
  /-- PERMIT (R391): Keyring PERMIT sets a controller's rotation permission for a namespace. -/
  | permit (slot : Nat) (buffer : List Byte)
  /-- STANDINGS_ADMIN (R578): The vendor admin command 0xC2 writes a Standings summary to host memory. -/
  | standingsAdmin (slot : Nat)
  /-- READ (R363): Read returns the current versions of its blocks as of its fetch order. -/
  | read (slot : Nat) (pi_ : Option (NvStatus × Nat))
  /-- WRITE (R369): Write fetches data, is admitted and completes on admission, mirror or placement. -/
  | write (slot : Nat) (data : List (List Byte)) (pi_ : Option (NvStatus × Nat))
  /-- FLUSH (R370): Flush completes once earlier writes are placed and a checkpoint reaches the media. -/
  | flush (slot : Nat)
  /-- COMPARE (R362): Compare reads its range and fails on mismatch. -/
  | compare (slot : Nat) (data : List (List Byte))
  /-- WRITE_UNCORRECTABLE (R362): Write Uncorrectable marks its range so reads fail. -/
  | writeUncorrectable (slot : Nat)
  /-- WRITE_ZEROES (R362): Write Zeroes writes or deallocates its range. -/
  | writeZeroes (slot : Nat)
  /-- DATASET_MANAGEMENT (R362): Dataset Management deallocates its ranges after fetching the range list. -/
  | datasetManagement (slot : Nat) (ranges : List (Nat × Nat))
  /-- VERIFY (R362): Verify reads its range without transferring data. -/
  | verify (slot : Nat)
  /-- COPY (R362): Copy reads source ranges and writes the destination within one namespace. -/
  | copy (slot : Nat) (ranges : List (Nat × Nat))
  /-- ZONE_OPEN (R289): Zone Management Send open allocates a physical band or fails when bands are short. -/
  | zoneOpen (slot : Nat)
  /-- ZONE_CLOSE (R362): Zone Management Send close closes a zone. -/
  | zoneClose (slot : Nat)
  /-- ZONE_FINISH (R362): Zone Management Send finish writes the whole zone as finished. -/
  | zoneFinish (slot : Nat)
  /-- ZONE_RESET (R253): Zone Management Send reset frees the zone's physical band. -/
  | zoneReset (slot : Nat)
  /-- ZONE_OFFLINE (R362): Zone Management Send offline takes the zone offline. -/
  | zoneOffline (slot : Nat)
  /-- ZONE_MANAGEMENT_RECEIVE (R337): Zone Management Receive returns zone descriptors. -/
  | zoneManagementReceive (slot : Nat)
  /-- ZONE_APPEND (R369): Zone Append is given its LBA at admission and returns it in the completion. -/
  | zoneAppend (slot : Nat) (data : List (List Byte)) (pi_ : Option (NvStatus × Nat))
  /-- QUOTA_WINDOW (R398): At each window start RLY refills balances, clears window charges and checks floor oversubscription. -/
  | quotaWindow
  /-- KEY_UNWRAP (R387): At start-up KEY unwraps every key record and repairs interrupted record changes. -/
  | keyUnwrap (mram : Bool)
  /-- DRAM_READ (R409): A DMC decodes a read code word as clean, corrected, poisoned or uncorrectable. -/
  | dramRead (ch : Fin 2) (line : Nat) (burst : Vector (BitVec 64) 10) (who : DramReader)
  /-- NARROW_WRITE (R412): A partial-line write enters or merges into the merge buffer. -/
  | narrowWrite (line : Nat) (enables : BitVec 64) (data : List Byte)
  /-- MERGE_AGE_EXPIRY (R412): A merge entry reaching AGE is written by read-modify-write. -/
  | mergeAgeExpiry
  /-- SCRUB_READ (R418): The scrubber reads the next line of its paced pass. -/
  | scrubRead (ch : Fin 2) (burst : Vector (BitVec 64) 10)
  /-- QUARANTINE_TEST (R425): BUF tests a quarantined page and frees or retains it. -/
  | quarantineTest (page : Nat) (bad : Option Nat)
  /-- ARBITER_EPOCH (R428): At each 1 µs epoch start every class allowance is reset and deferrals are counted. -/
  | arbiterEpoch (ch : Fin 2)
  /-- ARBITER_GRANT (R428): With room in the command FIFO the arbiter grants one request by class and allowance. -/
  | arbiterGrant (ch : Fin 2) (requests : List (Nat × Nat)) (move : Option LaneMove)
  /-- PAGE_ALLOCATE (R424): BUF allocates a free page to an owner class below the initialisation pointer. -/
  | pageAllocate (owner : Nat)
  /-- PAGE_RELEASE (R425): An owner releases a page, which becomes free or quarantined. -/
  | pageRelease (page : Nat)
  /-- FLIP_WRITE (R417): A write of the flip registers is accepted in permitted situations or discarded with FLIP_REJ. -/
  | flipWrite (ch : Fin 2) (ctl : Bool) (data : Word)
  /-- CE_TABLE_CLEAR (R414): A write of BUF_CE_SEL.CLEAR clears the correctable-error table. -/
  | ceTableClear
  /-- MARK_CLEAR (R410): Writing 1 to DMCn_ECC_STAT.MARKED clears the mark and its MRAM record. -/
  | markClear (ch : Fin 2)
  /-- DMC_LOST (R426): DMC1 is lost, its pages leave the ledger and its dirty blocks are handled as poisoned. -/
  | dmcLost
  /-- SCC_FILL (R448): A core miss fills a line into SCC and sends it to L1 critical quarter first. -/
  | sccFill (hart : Fin 8) (line : Nat)
  /-- WAY_DISABLE (R452): Firmware writes SCC_WAY_DIS to disable a cache or band-manager way. -/
  | wayDisable (data : Word)
  /-- CORE_ACCESS (R438): A core load, store, fetch or AMO reaches register space or buffer memory or takes an exception. -/
  | coreAccess (a : CoreAccess)
  /-- INTERRUPT_CLAIM (R442): A read of CCX_CLAIMk returns and clears the highest-priority pending source. -/
  | interruptClaim (hart : Fin 8) (sup again : Bool)
  /-- TIMER_INTERRUPT (R443): Ring time reaching CCX_TCMPk raises hart k's machine timer interrupt. -/
  | timerInterrupt (hart : Fin 8)
  /-- WATCHDOG_KICK (R444): A write of CCX_WDOG_KICK restarts harts' watchdogs. -/
  | watchdogKick (data : Word)
  /-- WATCHDOG_EXPIRY (R444): A hart's watchdog expires, warning first and then holding the hart and rerouting its sources. -/
  | watchdogExpiry (hart : Fin 8)
  /-- CHANNEL_START (R462): A write of DMAc_CTL.START starts a channel from the beginning or is refused. -/
  | channelStart (c : Fin 64)
  /-- CHANNEL_RESUME (R474): RESUME continues a FAULTED channel at the faulted instruction or element. -/
  | channelResume (c : Fin 64)
  /-- CHANNEL_ABORT (R475): ABORT stops a channel abruptly, returning its credits and setting ABORTED. -/
  | channelAbort (c : Fin 64)
  /-- DMA_DISABLE (R475): DMA_CTL.DISABLE stops every channel and refuses START. -/
  | dmaDisable (data : Word)
  /-- INSTRUCTION_FETCH (R469): A program-mode channel fetches its next instruction line through SCC or faults FETCH. -/
  | instructionFetch (c : Fin 64)
  /-- MOVE (R470): A DMA MOVE checks and moves one element in bursts. -/
  | move (c : Fin 64)
  /-- DMA_LOOP (R471): A DMA LOOP advances its loop index and branches or falls through. -/
  | dmaLoop (c : Fin 64)
  /-- WAIT (R472): A DMA WAIT holds the channel on a flag or for a delay. -/
  | wait (c : Fin 64)
  /-- SIGNAL (R470): A DMA SIGNAL sets a flag, raises SIG_EVT or ends the program. -/
  | signal (c : Fin 64)
  /-- WAIT_DELAY_END (R472): A delay WAIT's DELAY elapses and the channel continues. -/
  | waitDelayEnd (c : Fin 64)
  /-- FLAG_SET (R472): A write of DMA_FLAG_SET sets flags and releases the lowest waiting channel. -/
  | flagSet (data : Word)
  /-- FLAG_CLEAR (R472): A write of 1 to DMA_FLAGS clears flags. -/
  | flagClear (data : Word)
  /-- BURST_DONE (R465): A burst's write is accepted by SCC and its credit returns, advancing the element. -/
  | burstDone (c : Fin 64)
  /-- OWN_TOGGLE (R482): Every 4 µs BAT toggles BAT_OWN for each claimed actuator while permitted. -/
  | ownToggle
  /-- OWN_ACK_CHANGE (R483): A change of BAT_OWN_ACK gives or takes ownership of an actuator. -/
  | ownAckChange (ack : BitVec 4)
  /-- FAILOVER_DONE (R498): The scan ends and a forced flush reaches the media, so groups report Optimized. -/
  | failoverDone
  /-- BATON_LINK_UP (R495): The Baton link comes up and each chip sends HELLO. -/
  | batonLinkUp
  /-- HELLO (R495): A received HELLO is matched against pair set, role and tested combinations. -/
  | hello (h : BatHdr) (set role stepping image fw : Nat) (manifest : BitVec 128)
  /-- HEARTBEAT (R497): A received HEARTBEAT updates partner mode, ownership, credits and SEQ ceilings. -/
  | heartbeat (h : BatHdr) (mode : Nat) (owned lost : BitVec 4) (ke pcache resynced : Bool) (offer ack : Nat)
  /-- RELEASE (R501): A received RELEASE lets the partner claim the freed actuators and make the shadow map live. -/
  | release (h : BatHdr) (acts : BitVec 4)
  /-- CMD (R488): A forwarded command received at its home is given a FON and run. -/
  | cmd (h : BatHdr) (fn ns cls : Nat) (e : Sqe)
  /-- DATA (R488): A DATA message carries blocks of a forwarded command. -/
  | data (h : BatHdr) (first count : Nat) (blocks : List (List Byte))
  /-- DONE (R488): A DONE message completes a forwarded command at the fetching chip. -/
  | done (h : BatHdr) (status : NvStatus) (dnr : Bool) (dw0 dw1 : Nat)
  /-- EXTENT (R318): A forwarded extent is entered as a class 1 or 2 item with its age. -/
  | extent (h : BatHdr) (req : WorkReq) (age : Nat)
  /-- OUTCOME (R318): A returned OUTCOME adds its charge to the originating function. -/
  | outcome (h : BatHdr) (ended charge : Nat)
  /-- MIRROR (R490): Mirror blocks are held by the partner in write-cache pages. -/
  | mirror (h : BatHdr) (ns first count : Nat) (blocks : List (List Byte))
  /-- COMMIT (R490): COMMIT completes a mirrored write at the partner, which answers MACK. -/
  | commit (h : BatHdr) (ns first count : Nat) (transfer : Bool)
  /-- MACK (R490): MACK lets the home complete the mirrored write. -/
  | mack (h : BatHdr)
  /-- MFREE (R490): MFREE frees the partner's mirror copy of placed blocks. -/
  | mfree (h : BatHdr) (ns first count : Nat)
  /-- MREQ (R494): MREQ asks the partner for a clean mirror copy of a poisoned block. -/
  | mreq (h : BatHdr) (ns lba : Nat)
  /-- JNL (R491): JNL entries are applied to the partner's shadow map and answered with JACK. -/
  | jnl (h : BatHdr) (pos : Nat) (entries : List JEntry)
  /-- JACK (R491): JACK acknowledges journal entries held by the partner. -/
  | jack (h : BatHdr) (pos : Nat)
  /-- KEYREC (R389): KEYREC stores a changed key record at the partner. -/
  | keyrec (h : BatHdr) (ns : Nat) (rec_ : List Byte)
  /-- NSREC (R491): NSREC stores a changed namespace entry and attachment map at the partner. -/
  | nsrec (h : BatHdr) (ns : Nat) (entry : Option NsEntry)
  /-- RACK (R491): RACK acknowledges a record change and lets the waiting command complete. -/
  | rack (h : BatHdr)
  /-- LWLREC (R492): LWLREC applies a lost-write entry change to the partner's list. -/
  | lwlrec (h : BatHdr) (base ns fn : Nat) (map : BitVec 256)
  /-- RESYNC (R501): RESYNC moves a returning chip through the resynchronisation phases. -/
  | resync (h : BatHdr) (phase : Nat) (image : Option MapImage)
  /-- MESSAGE_REPLAY (R484): A bad or out-of-order message is discarded and the sender replays from ACKSEQ. -/
  | messageReplay (cause : ReplayCause)
  /-- PARTNER_SUSPECT (R497): No valid message for MISS periods sets SUSPECT and claims the partner's actuators. -/
  | partnerSuspect
  /-- CLAIM_TIMEOUT (R497): Claimed ACKs not arriving within 1 ms withdraw claims and lose the link. -/
  | claimTimeout
  /-- IDLE_TICK (R511): Each 1 ms PWR applies the deepest idle state allowed by timers and lookahead. -/
  | idleTick
  /-- PRE_WAKE (R513): EXLAT before a known event PWR applies HOST_OP. -/
  | preWake
  /-- LANE_ROTATION (R506): Every ROT ms PWR chooses which lanes are in service under the lane limit. -/
  | laneRotation
  /-- CADENCE_WINDOW (R516): At each window end PWR decides whether to request another cadence. -/
  | cadenceWindow
  /-- TEMPERATURE_SAMPLE (R517): Every 10 ms PWR samples TJ and applies thermal reactions. -/
  | temperatureSample (tj : BitVec 8)
  /-- RAIL_LOW (R518): A rail below its limit for 2 µs sets RAIL_LOW and POWER_FAIL. -/
  | railLow
  /-- TRUST_BOOT (R537): The trust core runs the measured boot chain and releases the harts. -/
  | trustBoot (rec1 rec2 : Bool)
  /-- BAD_FRAME (R546): A Cuhar frame failing CRC or length is discarded and answered BAD_FRAME. -/
  | badFrame
  /-- UNKNOWN_COMMAND (R547): An undefined Cuhar CMD is answered UNKNOWN. -/
  | unknownCommand (cmd : BitVec 8) (tag : BitVec 16)
  /-- IDENT (R547): IDENT returns stepping, role, ROM version, identity and certificate. -/
  | ident (tag : BitVec 16)
  /-- CHALLENGE (R547): CHALLENGE returns a fresh nonce. -/
  | challenge (tag : BitVec 16)
  /-- AUTH (R547): AUTH raises the session to SERVICE or PROVISION on a valid signature. -/
  | auth (tag : BitVec 16) (keyId : BitVec 32) (r sg : BitVec 384)
  /-- CLOSE (R547): CLOSE returns the session to open. -/
  | close (tag : BitVec 16)
  /-- RESULT (R548): RESULT returns SVC_RESULT_STAT and SVC_RESULT_DATA. -/
  | result (tag : BitVec 16)
  /-- REG_READ (R547): REG_READ reads a register from the service port. -/
  | regRead (tag : BitVec 16) (addr : BitVec 32)
  /-- REG_WRITE (R547): REG_WRITE writes a register from the service port. -/
  | regWrite (tag : BitVec 16) (addr : BitVec 32) (data : Word)
  /-- STAGE_BEGIN (R550): STAGE_BEGIN verifies a manifest and starts staging. -/
  | stageBegin (tag : BitVec 16) (man : List Byte)
  /-- STAGE_DATA (R550): STAGE_DATA writes bytes into the inactive bank. -/
  | stageData (tag : BitVec 16) (off : BitVec 32) (data : List Byte)
  /-- STAGE_END (R551): STAGE_END starts the read-back checks and answers PENDING. -/
  | stageEnd (tag : BitVec 16)
  /-- STAGE_CHECK_DONE (R551): Staging checks finish and the state becomes STAGED or IDLE. -/
  | stageCheckDone (flashError : Option (BitVec 8))
  /-- ARM (R550): ARM schedules activation of the staged manifest at T with window W. -/
  | arm (tag : BitVec 16) (t : Dword) (w : BitVec 32) (digest : BitVec 128)
  /-- DISARM (R550): DISARM returns an armed activation to STAGED. -/
  | disarm (tag : BitVec 16)
  /-- REVERT (R554): REVERT boots the previous bank as a trial and resets. -/
  | revert (tag : BitVec 16)
  /-- HOLD (R547): HOLD sets SERVICE_HOLD. -/
  | hold (tag : BitVec 16)
  /-- PROVISION (R525): PROVISION records the drive secret when none is recorded. -/
  | provision (tag : BitVec 16) (ds : BitVec 384)
  /-- RECORD_READ (R547): RECORD_READ returns a boot record slot. -/
  | recordRead (tag slot : BitVec 16)
  /-- QUOTE (R543): QUOTE starts a signed quote over a nonce and answers PENDING. -/
  | quote (tag : BitVec 16) (nonce : BitVec 384)
  /-- QUOTE_DONE (R543): The quote signature completes and the result is posted. -/
  | quoteDone
  /-- QUOTE_READ (R547): QUOTE_READ returns the 208-byte quote. -/
  | quoteRead (tag : BitVec 16)
  /-- FIRMWARE_FRAME (R549): A Cuhar firmware command is passed to firmware through the SVC receive FIFO. -/
  | firmwareFrame (cmd : BitVec 8) (tag : BitVec 16) (payload : List Byte)
  /-- FIRMWARE_FRAME_TIMEOUT (R549): Firmware not answering within 1 s makes TRC answer STATE. -/
  | firmwareFrameTimeout
  /-- SESSION_TIMEOUT (R547): 600 s without a frame returns the session to open. -/
  | sessionTimeout
  /-- ALIGNMENT_LOSS (R544): Loss of character alignment for 10 µs ends the session. -/
  | alignmentLoss
  /-- ACTIVATION_DUE (R552): Ring time reaches T and TRC posts DUE. -/
  | activationDue
  /-- WINDOW_MISSED (R550): Ring time reaches T + W without GO and the state returns to STAGED with MISSED. -/
  | windowMissed
  /-- GO (R552): GO commits the staged set as a trial and resets, or is rejected. -/
  | go
  /-- CONFIRM (R554): CONFIRM makes the trial confirmed, raises MIN_SVN and installs a key table. -/
  | confirm
  /-- TRNG_HEALTH_FAIL (R527): A noise-source continuous test fails and the start-up test repeats or draws are refused. -/
  | trngHealthFail (repeatPassed : Bool)
  /-- EVENT_ACCEPT (R560): EVR accepts a flag, system or firmware event into its queue or drops it. -/
  | eventAccept
  /-- FIRMWARE_RECORD (R559): A write of EVR_FW_CODE posts a firmware record. -/
  | firmwareRecord (code : Word)
  /-- RECORD_WRITE (R565): EVR writes and reads back a record in the log or epitaph area. -/
  | recordWrite (first second epitaph : Bool)
  /-- FREEZE_TIMEOUT (R562): A freeze hold lasting FRZ_MAX is released with THAW_TO. -/
  | freezeTimeout (hold : FreezeHold)
  /-- HEADER_WRITE (R564): EVR writes the recorder header on a clear, sticky change, slot multiple or each second. -/
  | headerWrite (second : Bool)
  /-- TALLY_COMMIT (R571): Every COMMIT_MS TLY commits staged deltas. -/
  | tallyCommit (bad : List Nat)
  /-- TALLY_COMMIT_COMMAND (R571): A write of TLY_CMD.COMMIT commits every staged delta. -/
  | tallyCommitCommand (bad : List Nat)
  /-- TALLY_WINDOW_CLOSE (R572): At a multiple of WIN hours TLY commits, counts the window and clears window counts. -/
  | tallyWindowClose (bad : List Nat)
  /-- TALLY_INC (R575): A write of TLY_INC stages a delta for a firmware counter. -/
  | tallyInc (data : Word)
  /-- TALLY_HIST (R575): A write of TLY_HIST adds 1 to a firmware histogram bin. -/
  | tallyHist (data : Word)
  /-- STANDINGS_REQUEST (R578): Firmware writes EVR_STD_REQ to request a Standings summary. -/
  | standingsRequest (data : Word)
  /-- STANDINGS_COMPLETE (R576): The ledgers are latched and the summary is complete with its GENERATION. -/
  | standingsComplete
  /-- STANDINGS (R585): Cuhar STANDINGS returns a 256-byte summary. -/
  | standings (tag : BitVec 16)
  /-- EVR_STATUS (R585): EVR_STATUS returns recorder state and drop counts. -/
  | evrStatus (tag : BitVec 16)
  /-- EVR_READ (R585): EVR_READ returns up to 64 log records. -/
  | evrRead (tag first count : BitVec 16)
  /-- EVR_FREEZE (R562): EVR_FREEZE sets or releases the service-port freeze hold. -/
  | evrFreeze (tag : BitVec 16) (hold : BitVec 8)
  /-- EPITAPH_READ (R585): EPITAPH_READ returns the epitaph slots and used count. -/
  | epitaphRead (tag : BitVec 16)
  /-- EVR_CLEAR (R563): EVR_CLEAR starts a new epoch while frozen. -/
  | evrClear (tag : BitVec 16)
  /-- STICKY_CLEAR (R567): STICKY_CLEAR clears GLB_STICKY bits as a service-port W1C write. -/
  | stickyClear (tag : BitVec 16) (mask hwSet : Word)
  /-- TALLY_READ (R585): TALLY_READ returns Tally entries with validity. -/
  | tallyRead (tag first count : BitVec 16)
  /-- HIST_READ (R585): HIST_READ returns one histogram's bins. -/
  | histRead (tag : BitVec 16) (hist : BitVec 8)
  /-- TALLY_INFO (R585): TALLY_INFO returns Tally configuration and counts. -/
  | tallyInfo (tag : BitVec 16)
  /-- RING_STATUS (R585): RING_STATUS returns Mocel state and ring time. -/
  | ringStatus (tag : BitVec 16)
  /-- TIME (R583): A received TIME frame corrects ring time by slewing or stepping. -/
  | time (frame : MocFrame)
  /-- ENUM (R582): A received ENUM frame sets the node ID from HOPS. -/
  | enumFrame (frame : MocFrame)
  /-- MSG (R581): A received MSG for this node is delivered to the receive FIFO. -/
  | msg (frame : MocFrame)
  /-- FRAME_FORWARD (R581): A node forwards a frame with HOPS incremented or removes it. -/
  | frameForward (frame : MocFrame)
  /-- TIME_SEND (R580): The master sends TIME every PERIOD µs. -/
  | timeSend
  /-- ENUM_COMMAND (R580): A write of MOC_CMD.ENUM makes the master send ENUM. -/
  | enumCommand (data : Word)
  /-- MSG_SEND (R589): MOC sends a MSG once firmware has written its header and payload words. -/
  | msgSend
  /-- SYNC_LOSS (R583): 4 periods without TIME clear SYNC and ring time runs free. -/
  | syncLoss
  /-- POWER_ON_RESET (R590): A low VDD_AON or SYS_RST_N asserts power-on reset of every domain. -/
  | powerOnReset (source : PorSource)
  /-- POR_RELEASE (R595): POR is released, straps and sticky bits are restored, the note is read and armed, and the ROM starts. -/
  | porRelease (pairId testEn noteCrcOk : Bool) (scan : RecorderScan)
  /-- CONFIG_RESET (R592): A configuration reset request is accepted, records lost blocks, squelches lanes and retracts heads. -/
  | configReset (who : Req) (data : Word)
  /-- CONFIG_RESET_RELEASE (R592): After heads park GLB writes the note, holds reset 10 µs and releases it. -/
  | configResetRelease (timeout : Bool) (scan : RecorderScan)
  /-- LANE_RESET (R593): A lane reset request is accepted and the lane island is reset. -/
  | laneReset (data : Word)
  /-- LANE_RESET_COMPLETE (R593): The lane reset completes with relock and LANE_BUSY clears. -/
  | laneResetComplete (n : Lane)
  /-- CLEAN (R598): A write of GLB_RST_CMD.CLEAN writes the power-loss note CLEAN or is refused. -/
  | clean (data : Word)
  /-- POWER_FAIL (R597): A qualified power-fail input sets POWER_FAIL, starts the power-loss sequence and takes T16. -/
  | powerFail (cause : PowerCause) (note : NoteWrite)
  /-- BROWN_OUT (R599): 100 ms of good supplies after T16 bring a POR with source BROWN_OUT. -/
  | brownOut
  /-- UNIT_SELF_TEST_DONE (R41): An included unit's start-up self-test ends and the unit is marked present or counted lost. -/
  | unitSelfTestDone (unit : UnitId) (passed : Bool)
  /-- UNIT_FAILURE (R42): A present unit such as a host port, DMA, EVR, TLY, PWR or MOC fails and its presence bit clears, setting UNIT_LOST or SET_LOST. -/
  | unitFailure (unit : UnitId)
  /-- HEARTBEAT_SEND (R497): Every BAT_HB_CFG.PERIOD µs BAT sends a HEARTBEAT carrying mode, ownership, credits and the offered SEQ ceiling. -/
  | heartbeatSend
  /-- CHECKPOINT_OVERDUE (R263): A checkpoint not on the media within INTERVAL + 200 ms of the previous one makes BND hold every new media write other than the flush's own. -/
  | checkpointOverdue
  /-- COMPLETION_TIMEOUT (R375): A request to host memory gets no completion within the Completion Timeout, setting HIFn_ERR.CPL_TO and failing the command with Data Transfer Error. -/
  | completionTimeout (slot : Nat)
  /-- TLP_ERROR_RECEIVED (R351): A host port receives a bad TLP or DLLP, a malformed TLP or an unsupported request, or its replay number rolls over, setting its HIFn_ERR bit and reporting under AER. -/
  | tlpErrorReceived (port : Fin 2) (kind : TlpError)
  /-- LINK_UP (R332): A host port's link completes training after PEn_RST_N release with TRAIN_EN set and reaches DL_Active at a negotiated speed and width. -/
  | linkUp (port : Fin 2) (speed width : Nat)
  /-- CONFIGURATION_REQUEST (R327): A host reads or writes PCI Express configuration space, for example writing NumVFs and VF Enable in the PF's SR-IOV capability. -/
  | configurationRequest (fn : Fin 128) (req : CfgReq)
  /-- ALIGNMENT_ACQUIRED (R544): The service-port receiver gains 8b/10b character alignment, setting SVC_STAT.SYNC, and an open session can begin. -/
  | alignmentAcquired
  /-- CUHAR_FLOW_CONTROL (R545): The service port receives K28.3 or K28.1 from the equipment and stops or resumes sending data characters, shown in SVC_STAT.PEER_HOLD. -/
  | cuharFlowControl (hold : Bool)
  /-- RECEIVE_WORD_POP (R549): A read of SVC_RX_DATA or MOC_RX_DATA pops the next received word from its receive FIFO, returning zero when empty. -/
  | receiveWordPop (port : RxPort)
  /-- INDEX_PORT_READ (R587): A read of EVR_RD_DATA, EVR_STD_DATA, MSn_US_DATA or SVn_COEF_DATA returns the selected word and, with AUTOINC, advances the selection. -/
  | indexPortRead (port : IndexPort)
  /-- TALLY_TEMPERATURE_SAMPLE (R574): Every 60 s while the chip is not OFF, TLY adds the junction-temperature bin to histogram 12. -/
  | tallyTemperatureSample
deriving DecidableEq, Repr

end Sys2Proof
end

