-- ==== Sys2Proof/Machine/Registers.lean ====
section
/-! DEFINITION. The register space of the chip as data: every block of the Register Index (R629 to R632), every register
of every block with its offset, its reset value and the access code of each of its fields (R8, R10, R14, and the
register rule of the owning chapter), and a name for every register address (R.<register>) and every field
(F.<register>_<field>). An n, c or k in a register's name is an argument here. -/

namespace Sys2Proof.Machine

/-- The access codes of R10. -/
inductive Acc where
  | ro | rw | rwl | w1c | w1s | rc | wo
deriving DecidableEq, Repr

/-- One field of a register as its field table lists it: bits [hi:lo] and the access code (R10). Reserved fields are not
listed (R14: they read as zero and ignore writes). -/
structure FieldDesc where
  hi : Nat
  lo : Nat
  acc : Acc
deriving DecidableEq, Repr

/-- One register: offset from its block's base, reset value (R17), fields. -/
structure RegDesc where
  off : Nat
  reset : Nat
  fields : List FieldDesc
deriving DecidableEq, Repr

/-- A field by absolute register address and bit range [hi:lo]. -/
structure Fld where
  addr : Nat
  hi : Nat
  lo : Nat
deriving DecidableEq, Repr

/-- Bit `k` of a field, as the field tables number a field's bits from its lowest. -/
def Fld.bit (f : Fld) (k : Nat) : Fld := ⟨f.addr, f.lo + k, f.lo + k⟩

/-- Number of bits of a field. -/
def Fld.width (f : Fld) : Nat := f.hi + 1 - f.lo

/-- The blocks of the block base map (R629). -/
inductive Blk where
  | glb | cfg | trc | hif | qe | rly | buf | dmc | scc | dma | ln | sv | spm | ms | ldp | bnd | key | pwr | evr | tly | bat | moc | svc | mot
deriving DecidableEq, Repr

/-- A row of the block base map (R629): instance n stands at base + n × stride. -/
structure BlockDesc where
  blk : Blk
  base : Nat
  stride : Nat
  count : Nat
deriving DecidableEq, Repr

/-- The block base map (R629). -/
def blockTable : List BlockDesc :=
  [⟨.glb, 0x00000000, 0x0, 1⟩,
   ⟨.cfg, 0x00010000, 0x0, 1⟩,
   ⟨.trc, 0x00020000, 0x0, 1⟩,
   ⟨.hif, 0x00100000, 0x10000, 2⟩,
   ⟨.qe, 0x00200000, 0x0, 1⟩,
   ⟨.rly, 0x00300000, 0x0, 1⟩,
   ⟨.buf, 0x00400000, 0x0, 1⟩,
   ⟨.dmc, 0x00410000, 0x10000, 2⟩,
   ⟨.scc, 0x00500000, 0x0, 1⟩,
   ⟨.dma, 0x00600000, 0x0, 1⟩,
   ⟨.ln, 0x01000000, 0x100000, 4⟩,
   ⟨.sv, 0x02000000, 0x100000, 4⟩,
   ⟨.spm, 0x02800000, 0x0, 1⟩,
   ⟨.ms, 0x03000000, 0x40000, 4⟩,
   ⟨.ldp, 0x03800000, 0x0, 1⟩,
   ⟨.bnd, 0x04000000, 0x0, 1⟩,
   ⟨.key, 0x05000000, 0x0, 1⟩,
   ⟨.pwr, 0x06000000, 0x0, 1⟩,
   ⟨.evr, 0x07000000, 0x0, 1⟩,
   ⟨.tly, 0x07100000, 0x0, 1⟩,
   ⟨.bat, 0x08000000, 0x0, 1⟩,
   ⟨.moc, 0x09000000, 0x0, 1⟩,
   ⟨.svc, 0x09100000, 0x0, 1⟩,
   ⟨.mot, 0x0A000000, 0x0, 1⟩]

/-- Every block instance occupies the 64 KiB from its base (R629). -/
def blockSize : Nat := 0x10000

/-- Instances of one block tried against an address: `n` counts down from the block's count. -/
def locateIn (d : BlockDesc) (a : Nat) : Nat → Option (Blk × Nat × Nat)
  | 0 => none
  | n + 1 =>
    let b := d.base + n * d.stride
    if b ≤ a ∧ a < b + blockSize then some (d.blk, n, a - b) else locateIn d a n

/-- The block, instance and offset an address lies in, if any (R629, R631). -/
def locateAmong (a : Nat) : List BlockDesc → Option (Blk × Nat × Nat)
  | [] => none
  | d :: ds => match locateIn d a d.count with
    | some r => some r
    | none => locateAmong a ds

/-- The block, instance and offset of an address (R629, R631). -/
def locate (a : Nat) : Option (Blk × Nat × Nat) := locateAmong a blockTable

/-- The registers of GLB (R43 of 01_planes_and_fabric.md, R603 of 23_startup_reset_faults.md, R628 of 24_balls_and_electrical.md). -/
def glbRegs : List RegDesc :=
  [⟨0x000, 0x1, [⟨19, 16, .ro⟩, ⟨9, 8, .ro⟩, ⟨6, 4, .ro⟩, ⟨3, 0, .ro⟩]⟩,
   ⟨0x004, 0x0, [⟨3, 0, .wo⟩]⟩,
   ⟨0x008, 0x100, [⟨31, 31, .ro⟩, ⟨27, 24, .ro⟩, ⟨16, 16, .w1c⟩, ⟨15, 8, .ro⟩, ⟨3, 0, .ro⟩]⟩,
   ⟨0x00C, 0x0, [⟨7, 7, .ro⟩, ⟨6, 6, .ro⟩, ⟨5, 5, .ro⟩, ⟨4, 4, .ro⟩, ⟨3, 3, .ro⟩, ⟨2, 2, .ro⟩, ⟨1, 1, .ro⟩, ⟨0, 0, .ro⟩]⟩,
   ⟨0x010, 0x0, [⟨31, 31, .ro⟩, ⟨30, 30, .ro⟩, ⟨29, 29, .ro⟩, ⟨28, 28, .ro⟩, ⟨27, 16, .ro⟩, ⟨15, 12, .ro⟩, ⟨11, 11, .ro⟩, ⟨10, 10, .ro⟩, ⟨9, 9, .ro⟩, ⟨8, 8, .ro⟩, ⟨7, 0, .ro⟩]⟩,
   ⟨0x014, 0x0, [⟨11, 11, .ro⟩, ⟨10, 10, .ro⟩, ⟨9, 9, .ro⟩, ⟨8, 8, .ro⟩, ⟨7, 7, .ro⟩, ⟨6, 6, .ro⟩, ⟨5, 5, .ro⟩, ⟨4, 4, .ro⟩, ⟨3, 3, .ro⟩, ⟨2, 2, .ro⟩, ⟨1, 1, .ro⟩, ⟨0, 0, .ro⟩]⟩,
   ⟨0x018, 0x0, [⟨15, 0, .ro⟩]⟩,
   ⟨0x01C, 0x0, [⟨15, 12, .w1c⟩, ⟨11, 8, .w1c⟩, ⟨7, 4, .w1c⟩, ⟨0, 0, .w1c⟩]⟩,
   ⟨0x020, 0x0, [⟨4, 4, .w1c⟩, ⟨3, 3, .w1c⟩, ⟨2, 2, .w1c⟩, ⟨1, 1, .w1c⟩, ⟨0, 0, .w1c⟩]⟩,
   ⟨0x024, 0x0, [⟨7, 4, .wo⟩, ⟨2, 2, .wo⟩, ⟨1, 1, .wo⟩, ⟨0, 0, .wo⟩]⟩,
   ⟨0x028, 0x0, [⟨31, 28, .ro⟩, ⟨27, 24, .ro⟩, ⟨23, 20, .ro⟩]⟩,
   ⟨0x02C, 0x0, [⟨31, 29, .ro⟩, ⟨28, 26, .ro⟩, ⟨25, 25, .w1c⟩, ⟨24, 24, .ro⟩, ⟨23, 23, .w1c⟩, ⟨21, 18, .ro⟩]⟩,
   ⟨0x030, 0x0, [⟨8, 8, .ro⟩, ⟨7, 4, .ro⟩, ⟨3, 0, .ro⟩]⟩,
   ⟨0x034, 0x0, [⟨23, 0, .rw⟩]⟩,
   ⟨0x038, 0x0, [⟨23, 0, .rw⟩]⟩,
   ⟨0x03C, 0x0, [⟨23, 0, .ro⟩]⟩,
   ⟨0x040, 0x0, [⟨1, 1, .ro⟩, ⟨0, 0, .ro⟩]⟩]

/-- The registers of CFG (R62 of 02_structure_image.md). -/
def cfgRegs : List RegDesc :=
  [⟨0x000, 0x0, [⟨31, 31, .ro⟩, ⟨30, 30, .ro⟩, ⟨29, 29, .w1c⟩, ⟨15, 8, .ro⟩, ⟨3, 0, .ro⟩]⟩,
   ⟨0x004, 0x0, [⟨31, 24, .ro⟩, ⟨15, 0, .ro⟩]⟩,
   ⟨0x008, 0x0, [⟨31, 0, .ro⟩]⟩,
   ⟨0x00C, 0x0, [⟨31, 0, .ro⟩]⟩,
   ⟨0x010, 0x0, [⟨31, 0, .ro⟩]⟩,
   ⟨0x014, 0x0, [⟨31, 30, .ro⟩, ⟨29, 28, .ro⟩, ⟨27, 24, .ro⟩, ⟨23, 18, .ro⟩, ⟨17, 12, .ro⟩]⟩,
   ⟨0x018, 0x0, [⟨31, 24, .ro⟩, ⟨23, 16, .ro⟩, ⟨15, 8, .ro⟩, ⟨7, 0, .ro⟩]⟩,
   ⟨0x01C, 0x0, [⟨11, 8, .ro⟩, ⟨7, 4, .ro⟩, ⟨3, 0, .ro⟩]⟩,
   ⟨0x020, 0x0, [⟨31, 16, .ro⟩, ⟨15, 0, .ro⟩]⟩,
   ⟨0x024, 0x0, [⟨23, 13, .ro⟩, ⟨12, 0, .ro⟩]⟩,
   ⟨0x028, 0x0, [⟨31, 16, .ro⟩, ⟨15, 0, .ro⟩]⟩]

/-- The registers of TRC (R556 of 21_trust_boot_update.md). -/
def trcRegs : List RegDesc :=
  [⟨0x000, 0x0, [⟨31, 24, .ro⟩, ⟨23, 16, .ro⟩, ⟨1, 0, .ro⟩]⟩,
   ⟨0x004, 0x0, [⟨31, 28, .ro⟩, ⟨27, 27, .ro⟩, ⟨26, 26, .ro⟩, ⟨25, 25, .ro⟩, ⟨24, 24, .ro⟩, ⟨23, 16, .ro⟩, ⟨15, 8, .ro⟩]⟩,
   ⟨0x008, 0x0, [⟨31, 0, .ro⟩]⟩,
   ⟨0x00C, 0x0, [⟨31, 16, .ro⟩, ⟨15, 0, .ro⟩]⟩,
   ⟨0x010, 0x0, [⟨31, 0, .ro⟩]⟩,
   ⟨0x014, 0x0, [⟨31, 0, .ro⟩]⟩,
   ⟨0x018, 0x0, [⟨1, 1, .wo⟩, ⟨0, 0, .wo⟩]⟩,
   ⟨0x01C, 0x0, [⟨31, 28, .ro⟩, ⟨2, 2, .w1c⟩, ⟨1, 1, .w1c⟩, ⟨0, 0, .w1c⟩]⟩,
   ⟨0x020, 0x2, [⟨3, 0, .rw⟩]⟩,
   ⟨0x024, 0x0, [⟨31, 0, .ro⟩]⟩,
   ⟨0x028, 0x0, [⟨31, 0, .ro⟩]⟩,
   ⟨0x02C, 0x0, [⟨31, 0, .ro⟩]⟩,
   ⟨0x030, 0x0, [⟨15, 8, .rc⟩, ⟨7, 0, .rc⟩]⟩,
   ⟨0x034, 0x0, [⟨4, 4, .w1c⟩, ⟨3, 3, .w1c⟩, ⟨2, 2, .w1c⟩, ⟨1, 1, .w1c⟩, ⟨0, 0, .w1c⟩]⟩]

/-- The registers of HIFn (R351 of 13_host_ports_and_functions.md). -/
def hifRegs : List RegDesc :=
  [⟨0x000, 0xA, [⟨3, 1, .rw⟩, ⟨0, 0, .rw⟩]⟩,
   ⟨0x004, 0x0, [⟨31, 31, .ro⟩, ⟨30, 28, .ro⟩, ⟨27, 24, .ro⟩, ⟨5, 0, .ro⟩]⟩,
   ⟨0x008, 0x0, [⟨7, 7, .ro⟩, ⟨6, 0, .ro⟩]⟩,
   ⟨0x00C, 0x0, [⟨8, 8, .w1c⟩, ⟨7, 7, .w1c⟩, ⟨6, 6, .w1c⟩, ⟨5, 5, .w1c⟩, ⟨4, 4, .w1c⟩, ⟨3, 3, .w1c⟩, ⟨2, 2, .w1c⟩, ⟨1, 1, .w1c⟩, ⟨0, 0, .w1c⟩]⟩,
   ⟨0x010, 0x0, [⟨31, 16, .rc⟩, ⟨15, 0, .rc⟩]⟩]

/-- The registers of QE (R381 of 14_queues_ordering_completion.md). -/
def qeRegs : List RegDesc :=
  [⟨0x000, 0x2, [⟨1, 1, .rw⟩, ⟨0, 0, .rw⟩]⟩,
   ⟨0x004, 0x408, [⟨11, 8, .rw⟩, ⟨7, 0, .rw⟩]⟩,
   ⟨0x008, 0x1000, [⟨14, 0, .rw⟩]⟩,
   ⟨0x00C, 0x4000, [⟨31, 31, .ro⟩, ⟨30, 16, .ro⟩, ⟨14, 0, .ro⟩]⟩,
   ⟨0x010, 0x0, [⟨31, 16, .ro⟩, ⟨14, 0, .ro⟩]⟩,
   ⟨0x014, 0x0, [⟨31, 0, .ro⟩]⟩,
   ⟨0x018, 0x0, [⟨31, 0, .ro⟩]⟩,
   ⟨0x01C, 0x0, [⟨31, 31, .ro⟩, ⟨16, 0, .ro⟩]⟩,
   ⟨0x020, 0x0, [⟨6, 0, .rw⟩]⟩,
   ⟨0x024, 0x0, [⟨31, 31, .ro⟩, ⟨30, 16, .ro⟩, ⟨15, 0, .ro⟩]⟩,
   ⟨0x028, 0x0, [⟨3, 3, .w1c⟩, ⟨2, 2, .w1c⟩, ⟨1, 1, .w1c⟩, ⟨0, 0, .w1c⟩]⟩,
   ⟨0x02C, 0x0, [⟨31, 16, .rc⟩, ⟨15, 0, .rc⟩]⟩]

/-- The registers of RLY (R323 of 12_relay_scheduler.md, R404 of 15_tenant_isolation_and_keys.md). -/
def rlyRegs : List RegDesc :=
  [⟨0x000, 0x113210, [⟨31, 31, .rw⟩, ⟨20, 20, .rw⟩, ⟨19, 16, .rw⟩, ⟨15, 8, .rw⟩, ⟨7, 0, .rw⟩]⟩,
   ⟨0x004, 0x0, [⟨31, 16, .ro⟩, ⟨15, 15, .ro⟩, ⟨3, 0, .ro⟩]⟩,
   ⟨0x008, 0x12C0C80A, [⟨29, 20, .rw⟩, ⟨19, 10, .rw⟩, ⟨9, 0, .rw⟩]⟩,
   ⟨0x00C, 0x3E80400, [⟨31, 16, .rw⟩, ⟨13, 8, .rw⟩]⟩,
   ⟨0x010, 0x12C, [⟨15, 0, .rw⟩]⟩,
   ⟨0x014, 0x0, [⟨31, 31, .rw⟩, ⟨25, 24, .rw⟩, ⟨4, 0, .rw⟩]⟩,
   ⟨0x018, 0x0, [⟨15, 0, .rw⟩]⟩,
   ⟨0x01C, 0x0, [⟨1, 0, .rw⟩]⟩,
   ⟨0x020, 0x0, [⟨31, 20, .ro⟩, ⟨19, 19, .ro⟩, ⟨18, 16, .ro⟩, ⟨15, 0, .ro⟩]⟩,
   ⟨0x024, 0x0, [⟨31, 16, .ro⟩, ⟨15, 0, .ro⟩]⟩,
   ⟨0x028, 0x0, [⟨9, 8, .rw⟩, ⟨7, 0, .rw⟩]⟩,
   ⟨0x02C, 0x0, [⟨31, 0, .ro⟩]⟩,
   ⟨0x030, 0x0, [⟨31, 0, .ro⟩]⟩,
   ⟨0x034, 0x0, [⟨3, 3, .w1c⟩, ⟨2, 2, .w1c⟩, ⟨1, 1, .w1c⟩, ⟨0, 0, .w1c⟩]⟩,
   ⟨0x038, 0x0, [⟨31, 16, .rc⟩, ⟨15, 0, .rc⟩]⟩,
   ⟨0x03C, 0x0, [⟨31, 16, .rc⟩, ⟨15, 0, .rc⟩]⟩,
   ⟨0x100, 0x64, [⟨15, 0, .rw⟩]⟩,
   ⟨0x104, 0x0, [⟨6, 0, .rw⟩]⟩,
   ⟨0x108, 0x0, [⟨15, 8, .rw⟩, ⟨7, 0, .rw⟩]⟩,
   ⟨0x10C, 0x0, [⟨31, 0, .ro⟩]⟩,
   ⟨0x110, 0x0, [⟨31, 0, .ro⟩]⟩,
   ⟨0x114, 0x0, [⟨31, 31, .ro⟩, ⟨30, 30, .ro⟩, ⟨23, 16, .ro⟩, ⟨15, 0, .ro⟩]⟩,
   ⟨0x118, 0x0, [⟨1, 1, .w1c⟩, ⟨0, 0, .w1c⟩]⟩]

/-- The registers of BUF (R431 of 16_buffer_memory.md). -/
def bufRegs : List RegDesc :=
  [⟨0x000, 0x6, [⟨2, 2, .rw⟩, ⟨1, 1, .rw⟩]⟩,
   ⟨0x004, 0x0, [⟨18, 0, .ro⟩]⟩,
   ⟨0x008, 0x0, [⟨18, 0, .ro⟩]⟩,
   ⟨0x00C, 0x0, [⟨18, 0, .ro⟩]⟩,
   ⟨0x010, 0x0, [⟨18, 0, .ro⟩]⟩,
   ⟨0x014, 0x0, [⟨31, 31, .ro⟩, ⟨4, 0, .ro⟩]⟩,
   ⟨0x018, 0x0, [⟨22, 0, .ro⟩]⟩,
   ⟨0x01C, 0x0, [⟨22, 0, .ro⟩]⟩,
   ⟨0x020, 0x4, [⟨7, 0, .rw⟩]⟩,
   ⟨0x024, 0x1, [⟨2, 0, .rw⟩]⟩,
   ⟨0x028, 0x0, [⟨31, 16, .ro⟩, ⟨15, 0, .ro⟩]⟩,
   ⟨0x02C, 0x0, [⟨31, 16, .rc⟩, ⟨15, 0, .rc⟩]⟩,
   ⟨0x030, 0x0, [⟨31, 16, .rc⟩, ⟨15, 0, .rc⟩]⟩,
   ⟨0x034, 0x0, [⟨31, 31, .w1s⟩, ⟨5, 0, .rw⟩]⟩,
   ⟨0x038, 0x0, [⟨27, 0, .ro⟩]⟩,
   ⟨0x03C, 0x0, [⟨31, 31, .ro⟩, ⟨30, 30, .ro⟩, ⟨29, 29, .ro⟩, ⟨27, 24, .ro⟩, ⟨23, 16, .ro⟩]⟩,
   ⟨0x040, 0x0, [⟨31, 16, .rc⟩, ⟨6, 0, .ro⟩]⟩,
   ⟨0x044, 0x0, [⟨4, 0, .rw⟩]⟩,
   ⟨0x048, 0x0, [⟨27, 0, .ro⟩]⟩,
   ⟨0x04C, 0x0, [⟨31, 31, .ro⟩, ⟨30, 30, .ro⟩, ⟨29, 26, .ro⟩, ⟨25, 24, .ro⟩, ⟨15, 0, .ro⟩]⟩,
   ⟨0x050, 0x0, [⟨31, 31, .ro⟩, ⟨12, 0, .ro⟩]⟩,
   ⟨0x054, 0x2, [⟨7, 0, .rw⟩]⟩,
   ⟨0x058, 0x0, [⟨5, 0, .ro⟩]⟩,
   ⟨0x05C, 0x0, [⟨6, 6, .w1c⟩, ⟨5, 5, .w1c⟩, ⟨4, 4, .w1c⟩, ⟨3, 3, .w1c⟩, ⟨2, 2, .w1c⟩, ⟨1, 1, .w1c⟩, ⟨0, 0, .w1c⟩]⟩,
   ⟨0x060, 0x0, [⟨31, 16, .rc⟩, ⟨15, 0, .rc⟩]⟩]

/-- The registers of DMCn (R432 of 16_buffer_memory.md). -/
def dmcRegs : List RegDesc :=
  [⟨0x000, 0x100, [⟨8, 8, .rw⟩, ⟨1, 0, .rw⟩]⟩,
   ⟨0x004, 0x0, [⟨31, 31, .ro⟩, ⟨30, 30, .ro⟩, ⟨29, 29, .ro⟩, ⟨3, 0, .ro⟩]⟩,
   ⟨0x008, 0x0, [⟨17, 0, .ro⟩]⟩,
   ⟨0x00C, 0x801, [⟨15, 8, .rw⟩, ⟨0, 0, .rw⟩]⟩,
   ⟨0x010, 0x0, [⟨31, 31, .w1c⟩, ⟨30, 30, .ro⟩, ⟨29, 29, .w1c⟩, ⟨27, 24, .ro⟩]⟩,
   ⟨0x014, 0x0, [⟨31, 0, .rw⟩]⟩,
   ⟨0x018, 0x0, [⟨31, 31, .rw⟩, ⟨30, 30, .w1c⟩, ⟨23, 8, .rw⟩, ⟨7, 0, .rw⟩]⟩,
   ⟨0x01C, 0x80000018, [⟨31, 31, .rw⟩, ⟨15, 0, .rw⟩]⟩,
   ⟨0x020, 0x0, [⟨27, 0, .ro⟩]⟩,
   ⟨0x024, 0x0, [⟨31, 16, .rc⟩, ⟨15, 0, .rc⟩]⟩]

/-- The registers of SCC (R458 of 17_cores_and_cache.md, R459 of 17_cores_and_cache.md). -/
def sccRegs : List RegDesc :=
  [⟨0x000, 0x7, [⟨2, 2, .rw⟩, ⟨1, 1, .rw⟩, ⟨0, 0, .rw⟩]⟩,
   ⟨0x004, 0x0, [⟨15, 0, .ro⟩]⟩,
   ⟨0x008, 0x0, [⟨15, 0, .w1s⟩]⟩,
   ⟨0x00C, 0x0, [⟨3, 0, .rw⟩]⟩,
   ⟨0x010, 0x0, [⟨31, 16, .ro⟩, ⟨7, 0, .ro⟩]⟩,
   ⟨0x014, 0x204, [⟨11, 8, .rw⟩, ⟨3, 0, .rw⟩]⟩,
   ⟨0x018, 0x0, [⟨4, 4, .w1c⟩, ⟨3, 3, .w1c⟩, ⟨2, 2, .w1c⟩, ⟨1, 1, .w1c⟩, ⟨0, 0, .w1c⟩]⟩,
   ⟨0x01C, 0x0, [⟨31, 16, .rc⟩, ⟨15, 0, .rc⟩]⟩,
   ⟨0x020, 0x0, [⟨31, 16, .rc⟩, ⟨15, 0, .rc⟩]⟩,
   ⟨0x800, 0x0, [⟨15, 8, .ro⟩, ⟨7, 0, .ro⟩]⟩,
   ⟨0x804, 0x0, [⟨17, 0, .ro⟩]⟩,
   ⟨0x808, 0x0, [⟨7, 0, .rw⟩]⟩,
   ⟨0x80C, 0x0, [⟨15, 0, .rw⟩]⟩,
   ⟨0x810, 0x0, [⟨7, 0, .wo⟩]⟩,
   ⟨0x814, 0x0, [⟨7, 0, .rw⟩]⟩,
   ⟨0x818, 0x0, [⟨31, 31, .ro⟩, ⟨8, 8, .rw⟩, ⟨7, 7, .rw⟩, ⟨6, 4, .rw⟩, ⟨2, 0, .rw⟩]⟩,
   ⟨0x81C, 0x0, [⟨16, 16, .w1c⟩, ⟨15, 8, .w1c⟩, ⟨7, 0, .w1c⟩]⟩,
   ⟨0x820, 0x0, [⟨15, 0, .rc⟩]⟩]

/-- The registers of DMA (R477 of 18_dma.md). -/
def dmaRegs : List RegDesc :=
  [⟨0x000, 0x0, [⟨0, 0, .rw⟩]⟩,
   ⟨0x004, 0x0, [⟨31, 0, .ro⟩]⟩,
   ⟨0x008, 0x0, [⟨31, 0, .ro⟩]⟩,
   ⟨0x00C, 0x100, [⟨31, 31, .ro⟩, ⟨24, 16, .ro⟩, ⟨8, 0, .ro⟩]⟩,
   ⟨0x010, 0x0, [⟨31, 0, .w1c⟩]⟩,
   ⟨0x014, 0x0, [⟨31, 0, .w1s⟩]⟩,
   ⟨0x018, 0x0, [⟨31, 16, .rc⟩, ⟨15, 0, .rc⟩]⟩]

/-- The registers of LNn (R126 of 04_detection_and_recovery.md, R153 of 05_write_path.md, R98 of 03_head_link_and_front_end.md). -/
def lnRegs : List RegDesc :=
  [⟨0x000, 0x3, [⟨7, 6, .rw⟩, ⟨5, 4, .rw⟩, ⟨3, 2, .rw⟩, ⟨1, 1, .rw⟩, ⟨0, 0, .rw⟩]⟩,
   ⟨0x004, 0x0, [⟨31, 31, .ro⟩, ⟨30, 30, .ro⟩, ⟨29, 29, .ro⟩, ⟨28, 24, .ro⟩, ⟨23, 21, .ro⟩]⟩,
   ⟨0x008, 0x0, [⟨31, 0, .ro⟩]⟩,
   ⟨0x00C, 0x0, [⟨16, 0, .ro⟩]⟩,
   ⟨0x010, 0x0, [⟨31, 31, .rw⟩, ⟨27, 24, .rw⟩, ⟨23, 21, .rw⟩, ⟨20, 16, .rw⟩, ⟨7, 0, .rw⟩]⟩,
   ⟨0x014, 0x0, [⟨31, 0, .rw⟩]⟩,
   ⟨0x018, 0x0, [⟨9, 0, .rwl⟩]⟩,
   ⟨0x01C, 0x64, [⟨15, 0, .rw⟩]⟩,
   ⟨0x020, 0x4, [⟨2, 2, .rw⟩, ⟨1, 1, .rw⟩]⟩,
   ⟨0x024, 0x0, [⟨31, 31, .wo⟩, ⟨30, 30, .wo⟩, ⟨29, 27, .wo⟩, ⟨26, 21, .wo⟩, ⟨15, 0, .wo⟩]⟩,
   ⟨0x028, 0x0, [⟨31, 31, .ro⟩, ⟨30, 30, .ro⟩, ⟨29, 29, .ro⟩, ⟨28, 28, .ro⟩, ⟨27, 27, .ro⟩, ⟨26, 26, .ro⟩, ⟨15, 0, .ro⟩]⟩,
   ⟨0x02C, 0x0, [⟨3, 3, .w1c⟩, ⟨2, 2, .w1c⟩, ⟨1, 1, .w1c⟩, ⟨0, 0, .w1c⟩]⟩,
   ⟨0x030, 0x0, [⟨31, 16, .rc⟩, ⟨15, 0, .rc⟩]⟩,
   ⟨0x034, 0x0, [⟨7, 0, .rw⟩]⟩,
   ⟨0x100, 0x1007, [⟨15, 8, .rw⟩, ⟨2, 2, .rw⟩, ⟨1, 1, .rw⟩, ⟨0, 0, .rw⟩]⟩,
   ⟨0x104, 0x0, [⟨31, 24, .rw⟩, ⟨23, 16, .rw⟩, ⟨15, 8, .rw⟩, ⟨7, 0, .rw⟩]⟩,
   ⟨0x108, 0x0, [⟨31, 24, .rw⟩, ⟨23, 16, .rw⟩, ⟨15, 8, .rw⟩, ⟨7, 0, .rw⟩]⟩,
   ⟨0x10C, 0x0, [⟨31, 24, .rw⟩, ⟨23, 16, .rw⟩, ⟨15, 8, .rw⟩, ⟨7, 0, .rw⟩]⟩,
   ⟨0x110, 0x0, [⟨31, 24, .rw⟩, ⟨23, 16, .rw⟩, ⟨15, 8, .rw⟩, ⟨7, 0, .rw⟩]⟩,
   ⟨0x114, 0x1433422, [⟨27, 24, .rw⟩, ⟨23, 20, .rw⟩, ⟨19, 16, .rw⟩, ⟨15, 12, .rw⟩, ⟨11, 8, .rw⟩, ⟨7, 4, .rw⟩, ⟨3, 0, .rw⟩]⟩,
   ⟨0x118, 0x18050C10, [⟨31, 24, .rw⟩, ⟨19, 16, .rw⟩, ⟨11, 10, .rw⟩, ⟨9, 0, .rw⟩]⟩,
   ⟨0x11C, 0x0, [⟨31, 31, .ro⟩, ⟨30, 27, .ro⟩, ⟨26, 23, .ro⟩, ⟨15, 8, .ro⟩, ⟨7, 0, .ro⟩]⟩,
   ⟨0x120, 0x0, [⟨31, 16, .rc⟩, ⟨15, 0, .rc⟩]⟩,
   ⟨0x124, 0x0, [⟨31, 16, .rc⟩, ⟨15, 0, .rc⟩]⟩,
   ⟨0x128, 0x0, [⟨31, 16, .rc⟩, ⟨15, 0, .rc⟩]⟩,
   ⟨0x200, 0x3407, [⟨15, 12, .rw⟩, ⟨11, 8, .rw⟩, ⟨3, 3, .rw⟩, ⟨2, 2, .rw⟩, ⟨1, 1, .rw⟩, ⟨0, 0, .rw⟩]⟩,
   ⟨0x204, 0x0, [⟨31, 31, .ro⟩, ⟨30, 30, .ro⟩, ⟨21, 16, .ro⟩]⟩,
   ⟨0x208, 0x0, [⟨5, 0, .w1c⟩]⟩,
   ⟨0x20C, 0x0, [⟨7, 0, .w1c⟩]⟩,
   ⟨0x210, 0x0, [⟨7, 0, .rwl⟩]⟩,
   ⟨0x214, 0x3420000, [⟨25, 24, .rw⟩, ⟨23, 20, .rw⟩, ⟨19, 16, .rw⟩, ⟨0, 0, .rw⟩]⟩,
   ⟨0x218, 0x0, [⟨15, 8, .ro⟩, ⟨7, 0, .ro⟩]⟩,
   ⟨0x21C, 0x0, [⟨31, 31, .rw⟩, ⟨27, 24, .rw⟩, ⟨23, 21, .rw⟩, ⟨20, 16, .rw⟩, ⟨7, 0, .rw⟩]⟩,
   ⟨0x220, 0x0, [⟨31, 0, .rw⟩]⟩,
   ⟨0x224, 0x0, [⟨31, 16, .rc⟩, ⟨15, 0, .rc⟩]⟩,
   ⟨0x228, 0x0, [⟨31, 16, .rc⟩, ⟨15, 0, .rc⟩]⟩,
   ⟨0x22C, 0x0, [⟨31, 16, .rc⟩, ⟨15, 0, .rc⟩]⟩]

/-- The registers of SVn (R179 of 06_servo_engine.md, R199 of 07_pacer_and_seeks.md). -/
def svRegs : List RegDesc :=
  [⟨0x000, 0xE, [⟨3, 3, .rw⟩, ⟨2, 2, .rw⟩, ⟨1, 1, .rw⟩, ⟨0, 0, .rw⟩]⟩,
   ⟨0x004, 0x0, [⟨31, 28, .ro⟩, ⟨27, 27, .ro⟩, ⟨26, 25, .ro⟩, ⟨24, 24, .ro⟩, ⟨23, 21, .ro⟩]⟩,
   ⟨0x008, 0x0, [⟨31, 10, .ro⟩, ⟨9, 0, .ro⟩]⟩,
   ⟨0x00C, 0x0, [⟨21, 0, .ro⟩]⟩,
   ⟨0x010, 0x0, [⟨31, 31, .ro⟩, ⟨15, 0, .ro⟩]⟩,
   ⟨0x014, 0xC80064, [⟨31, 16, .rw⟩, ⟨15, 0, .rw⟩]⟩,
   ⟨0x018, 0x0, [⟨15, 0, .ro⟩]⟩,
   ⟨0x01C, 0x44010, [⟨23, 16, .rw⟩, ⟨15, 12, .rw⟩, ⟨7, 0, .rw⟩]⟩,
   ⟨0x020, 0x0, [⟨23, 0, .ro⟩]⟩,
   ⟨0x024, 0x0, [⟨9, 0, .w1c⟩]⟩,
   ⟨0x028, 0x0, [⟨31, 16, .rc⟩, ⟨15, 0, .rc⟩]⟩,
   ⟨0x02C, 0x0, [⟨31, 16, .rc⟩, ⟨15, 0, .rc⟩]⟩,
   ⟨0x030, 0x800064, [⟨23, 20, .rw⟩, ⟨19, 0, .rw⟩]⟩,
   ⟨0x034, 0x0, [⟨31, 31, .rw⟩, ⟨25, 24, .rw⟩, ⟨11, 0, .rw⟩]⟩,
   ⟨0x038, 0x0, [⟨29, 24, .ro⟩, ⟨23, 0, .ro⟩]⟩,
   ⟨0x100, 0x1, [⟨1, 1, .rw⟩, ⟨0, 0, .rw⟩]⟩,
   ⟨0x104, 0x0, [⟨2, 0, .wo⟩]⟩,
   ⟨0x108, 0x0, [⟨31, 24, .ro⟩, ⟨15, 15, .w1c⟩, ⟨14, 14, .w1c⟩, ⟨13, 13, .w1c⟩, ⟨12, 12, .w1c⟩, ⟨11, 11, .w1c⟩, ⟨10, 10, .w1c⟩]⟩,
   ⟨0x10C, 0x0, [⟨31, 16, .ro⟩, ⟨15, 0, .rw⟩]⟩,
   ⟨0x110, 0x0, [⟨31, 16, .ro⟩, ⟨15, 0, .rw⟩]⟩,
   ⟨0x114, 0x0, [⟨31, 16, .ro⟩, ⟨15, 0, .rw⟩]⟩,
   ⟨0x118, 0x0, [⟨31, 0, .wo⟩]⟩,
   ⟨0x11C, 0x0, [⟨31, 0, .wo⟩]⟩,
   ⟨0x120, 0x330040, [⟨23, 20, .rw⟩, ⟨19, 16, .rw⟩, ⟨15, 0, .rw⟩]⟩,
   ⟨0x124, 0xC8400032, [⟨31, 24, .rw⟩, ⟨23, 20, .rw⟩, ⟨15, 0, .rw⟩]⟩,
   ⟨0x128, 0x322800C8, [⟨31, 24, .rw⟩, ⟨23, 20, .rw⟩, ⟨19, 16, .rw⟩, ⟨15, 0, .rw⟩]⟩,
   ⟨0x12C, 0xBB80000, [⟨31, 16, .rw⟩, ⟨15, 0, .rw⟩]⟩,
   ⟨0x130, 0x0, [⟨31, 0, .ro⟩]⟩,
   ⟨0x134, 0x0, [⟨15, 0, .ro⟩]⟩,
   ⟨0x138, 0x0, [⟨31, 24, .rc⟩, ⟨23, 16, .rc⟩, ⟨15, 8, .rc⟩, ⟨7, 0, .rc⟩]⟩]

/-- The registers of SPM (R221 of 08_spindle.md). -/
def spmRegs : List RegDesc :=
  [⟨0x000, 0x0, [⟨1, 0, .wo⟩]⟩,
   ⟨0x004, 0x0, [⟨31, 28, .ro⟩, ⟨27, 27, .ro⟩, ⟨26, 25, .ro⟩, ⟨24, 22, .ro⟩]⟩,
   ⟨0x008, 0x0, [⟨7, 7, .w1c⟩, ⟨6, 6, .w1c⟩, ⟨5, 5, .w1c⟩, ⟨4, 4, .w1c⟩, ⟨3, 3, .w1c⟩, ⟨2, 2, .w1c⟩, ⟨1, 1, .w1c⟩, ⟨0, 0, .w1c⟩]⟩,
   ⟨0x00C, 0x1E52EE28, [⟨31, 24, .rw⟩, ⟨22, 20, .rw⟩, ⟨19, 8, .rw⟩, ⟨7, 0, .rw⟩]⟩,
   ⟨0x010, 0x141E05DC, [⟨31, 24, .rw⟩, ⟨23, 16, .rw⟩, ⟨15, 0, .rw⟩]⟩,
   ⟨0x014, 0x0, [⟨31, 16, .ro⟩, ⟨15, 0, .ro⟩]⟩,
   ⟨0x018, 0x0, [⟨16, 0, .ro⟩]⟩,
   ⟨0x01C, 0x3, [⟨1, 0, .rw⟩]⟩,
   ⟨0x020, 0x8960BB8, [⟨27, 24, .rw⟩, ⟨23, 16, .rw⟩, ⟨15, 0, .rw⟩]⟩,
   ⟨0x024, 0x0, [⟨23, 0, .ro⟩]⟩,
   ⟨0x028, 0x10320A, [⟨23, 16, .rw⟩, ⟨15, 8, .rw⟩, ⟨7, 0, .rw⟩]⟩,
   ⟨0x02C, 0x1464, [⟨19, 8, .rw⟩, ⟨7, 0, .rw⟩]⟩,
   ⟨0x030, 0x50, [⟨15, 0, .rw⟩]⟩,
   ⟨0x034, 0x0, [⟨31, 24, .rc⟩, ⟨23, 16, .rc⟩, ⟨15, 8, .rc⟩, ⟨7, 0, .rc⟩]⟩]

/-- The registers of MSn (R247 of 09_lane_microcode.md). -/
def msRegs : List RegDesc :=
  [⟨0x000, 0x7F, [⟨31, 31, .rw⟩, ⟨30, 30, .w1s⟩, ⟨29, 29, .rw⟩, ⟨6, 0, .rw⟩]⟩,
   ⟨0x004, 0x0, [⟨31, 28, .ro⟩, ⟨27, 27, .ro⟩, ⟨26, 25, .ro⟩, ⟨24, 22, .ro⟩, ⟨21, 19, .ro⟩, ⟨18, 18, .ro⟩, ⟨11, 0, .ro⟩]⟩,
   ⟨0x008, 0x0, [⟨31, 24, .ro⟩, ⟨23, 12, .ro⟩, ⟨11, 0, .ro⟩]⟩,
   ⟨0x00C, 0x0, [⟨31, 16, .ro⟩, ⟨15, 0, .ro⟩]⟩,
   ⟨0x010, 0x0, [⟨31, 30, .ro⟩, ⟨29, 23, .ro⟩]⟩,
   ⟨0x014, 0x0, [⟨6, 6, .w1s⟩, ⟨5, 0, .ro⟩]⟩,
   ⟨0x018, 0x0, [⟨31, 0, .ro⟩]⟩,
   ⟨0x01C, 0x0, [⟨31, 0, .ro⟩]⟩,
   ⟨0x020, 0x0, [⟨31, 31, .rw⟩, ⟨18, 16, .rw⟩, ⟨11, 0, .rw⟩]⟩,
   ⟨0x024, 0x0, [⟨31, 0, .ro⟩]⟩,
   ⟨0x028, 0x0, [⟨3, 0, .rw⟩]⟩,
   ⟨0x02C, 0x0, [⟨23, 0, .ro⟩]⟩,
   ⟨0x030, 0x0, [⟨31, 16, .rc⟩, ⟨15, 8, .rc⟩, ⟨7, 0, .rc⟩]⟩]

/-- The registers of LDP (R127 of 04_detection_and_recovery.md). -/
def ldpRegs : List RegDesc :=
  [⟨0x000, 0x2808, [⟨13, 8, .rw⟩, ⟨3, 0, .rw⟩]⟩,
   ⟨0x004, 0x2, [⟨3, 0, .rw⟩]⟩,
   ⟨0x008, 0x0, [⟨31, 31, .ro⟩, ⟨23, 20, .ro⟩, ⟨19, 16, .ro⟩, ⟨15, 12, .ro⟩, ⟨11, 8, .ro⟩, ⟨7, 4, .ro⟩, ⟨3, 0, .ro⟩]⟩,
   ⟨0x00C, 0x0, [⟨11, 0, .ro⟩]⟩,
   ⟨0x010, 0x0, [⟨31, 16, .rc⟩, ⟨15, 0, .rc⟩]⟩,
   ⟨0x014, 0x0, [⟨31, 16, .rc⟩, ⟨15, 0, .rc⟩]⟩]

/-- The registers of BND (R277 of 10_band_map_and_journal.md, R301 of 11_band_upkeep.md). -/
def bndRegs : List RegDesc :=
  [⟨0x000, 0x482, [⟨11, 8, .rw⟩, ⟨7, 4, .rw⟩, ⟨1, 1, .rw⟩, ⟨0, 0, .rwl⟩]⟩,
   ⟨0x004, 0x0, [⟨31, 28, .ro⟩, ⟨27, 24, .ro⟩, ⟨15, 0, .ro⟩]⟩,
   ⟨0x008, 0x2007D0, [⟨31, 16, .rw⟩, ⟨15, 0, .rw⟩]⟩,
   ⟨0x00C, 0x0, [⟨31, 31, .ro⟩, ⟨30, 30, .ro⟩, ⟨15, 0, .ro⟩]⟩,
   ⟨0x010, 0x0, [⟨31, 0, .ro⟩]⟩,
   ⟨0x014, 0x0, [⟨31, 0, .ro⟩]⟩,
   ⟨0x018, 0x0, [⟨15, 0, .ro⟩]⟩,
   ⟨0x01C, 0x30, [⟨5, 4, .rw⟩, ⟨3, 2, .rw⟩]⟩,
   ⟨0x020, 0x100, [⟨15, 0, .rw⟩]⟩,
   ⟨0x024, 0x0, [⟨1, 1, .wo⟩, ⟨0, 0, .wo⟩]⟩,
   ⟨0x028, 0x0, [⟨31, 16, .ro⟩, ⟨15, 0, .ro⟩]⟩,
   ⟨0x02C, 0x0, [⟨31, 16, .ro⟩, ⟨15, 0, .ro⟩]⟩,
   ⟨0x030, 0x0, [⟨4, 4, .w1c⟩, ⟨3, 3, .w1c⟩, ⟨2, 2, .w1c⟩, ⟨1, 1, .w1c⟩, ⟨0, 0, .w1c⟩]⟩,
   ⟨0x034, 0x0, [⟨31, 16, .rc⟩, ⟨15, 0, .rc⟩]⟩,
   ⟨0x100, 0x1001, [⟨15, 8, .rw⟩, ⟨7, 0, .rw⟩]⟩,
   ⟨0x104, 0x640941E, [⟨31, 16, .rw⟩, ⟨15, 15, .rw⟩, ⟨14, 8, .rw⟩, ⟨5, 0, .rw⟩]⟩,
   ⟨0x108, 0x42152000, [⟨31, 28, .rw⟩, ⟨27, 24, .rw⟩, ⟨23, 20, .rw⟩, ⟨19, 14, .rw⟩, ⟨13, 8, .rw⟩]⟩,
   ⟨0x10C, 0x80200500, [⟨31, 24, .rw⟩, ⟨23, 16, .rw⟩, ⟨15, 8, .rw⟩]⟩,
   ⟨0x110, 0x201004, [⟨23, 16, .rw⟩, ⟨15, 8, .rw⟩, ⟨7, 0, .rw⟩]⟩,
   ⟨0x114, 0x0, [⟨31, 28, .ro⟩, ⟨27, 24, .ro⟩, ⟨7, 0, .ro⟩]⟩,
   ⟨0x118, 0x1504018, [⟨31, 16, .rw⟩, ⟨15, 8, .rw⟩, ⟨7, 0, .rw⟩]⟩,
   ⟨0x11C, 0x4010, [⟨15, 8, .rw⟩, ⟨7, 0, .rw⟩]⟩,
   ⟨0x120, 0x0, [⟨1, 0, .rw⟩]⟩,
   ⟨0x124, 0x0, [⟨31, 16, .ro⟩, ⟨15, 8, .ro⟩]⟩,
   ⟨0x128, 0x0, [⟨31, 16, .ro⟩, ⟨15, 0, .ro⟩]⟩,
   ⟨0x12C, 0x0, [⟨31, 16, .ro⟩, ⟨15, 0, .ro⟩]⟩,
   ⟨0x130, 0x0, [⟨24, 16, .ro⟩, ⟨15, 0, .ro⟩]⟩,
   ⟨0x134, 0x0, [⟨31, 16, .ro⟩, ⟨15, 0, .ro⟩]⟩,
   ⟨0x138, 0x0, [⟨31, 16, .rc⟩, ⟨15, 8, .rc⟩, ⟨7, 0, .rc⟩]⟩,
   ⟨0x13C, 0x0, [⟨19, 16, .w1c⟩, ⟨15, 12, .w1c⟩, ⟨11, 8, .w1c⟩, ⟨7, 4, .w1c⟩, ⟨3, 0, .w1c⟩]⟩]

/-- The registers of KEY (R403 of 15_tenant_isolation_and_keys.md). -/
def keyRegs : List RegDesc :=
  [⟨0x000, 0x0, [⟨31, 31, .ro⟩, ⟨30, 30, .ro⟩, ⟨10, 0, .ro⟩]⟩,
   ⟨0x004, 0x0, [⟨9, 0, .rw⟩]⟩,
   ⟨0x008, 0x0, [⟨31, 31, .ro⟩, ⟨30, 30, .ro⟩, ⟨29, 29, .ro⟩, ⟨23, 0, .ro⟩]⟩,
   ⟨0x00C, 0x0, [⟨2, 2, .w1c⟩, ⟨1, 1, .w1c⟩, ⟨0, 0, .w1c⟩]⟩,
   ⟨0x010, 0x0, [⟨31, 16, .rc⟩, ⟨15, 0, .rc⟩]⟩]

/-- The registers of PWR (R520 of 20_power_and_cadence.md). -/
def pwrRegs : List RegDesc :=
  [⟨0x000, 0x30F, [⟨9, 8, .rw⟩, ⟨3, 3, .rw⟩, ⟨2, 2, .rw⟩, ⟨1, 1, .rw⟩, ⟨0, 0, .rw⟩]⟩,
   ⟨0x004, 0x0, [⟨30, 28, .ro⟩, ⟨26, 24, .ro⟩, ⟨23, 20, .ro⟩, ⟨19, 17, .ro⟩, ⟨16, 15, .ro⟩, ⟨14, 13, .ro⟩]⟩,
   ⟨0x008, 0xA0064, [⟨31, 16, .rw⟩, ⟨15, 0, .rw⟩]⟩,
   ⟨0x00C, 0x258003C, [⟨31, 16, .rw⟩, ⟨15, 0, .rw⟩]⟩,
   ⟨0x010, 0x5503C0A, [⟨31, 24, .rw⟩, ⟨23, 16, .rw⟩, ⟨15, 8, .rw⟩, ⟨7, 0, .rw⟩]⟩,
   ⟨0x014, 0x3C00FA, [⟨31, 16, .rw⟩, ⟨15, 0, .rw⟩]⟩,
   ⟨0x018, 0x0, [⟨31, 29, .ro⟩, ⟨28, 0, .ro⟩]⟩,
   ⟨0x01C, 0x0, [⟨31, 0, .rw⟩]⟩,
   ⟨0x020, 0x0, [⟨31, 0, .rw⟩]⟩,
   ⟨0x024, 0x0, [⟨23, 16, .ro⟩, ⟨7, 0, .ro⟩]⟩,
   ⟨0x028, 0x70695F, [⟨23, 16, .rwl⟩, ⟨15, 8, .rw⟩, ⟨7, 0, .rw⟩]⟩,
   ⟨0x02C, 0x0, [⟨5, 5, .w1c⟩, ⟨4, 4, .w1c⟩, ⟨3, 3, .w1c⟩, ⟨2, 2, .w1c⟩, ⟨1, 1, .w1c⟩, ⟨0, 0, .w1c⟩]⟩,
   ⟨0x030, 0x0, [⟨31, 16, .rc⟩, ⟨15, 0, .rc⟩]⟩,
   ⟨0x040, 0x10001, [⟨31, 16, .rwl⟩, ⟨15, 0, .rwl⟩]⟩,
   ⟨0x044, 0x2270001, [⟨31, 16, .rwl⟩, ⟨15, 0, .rwl⟩]⟩,
   ⟨0x048, 0x3B70001, [⟨31, 16, .rwl⟩, ⟨15, 0, .rwl⟩]⟩,
   ⟨0x04C, 0x10001, [⟨31, 16, .rwl⟩, ⟨15, 0, .rwl⟩]⟩,
   ⟨0x050, 0x5470002, [⟨31, 16, .rwl⟩, ⟨15, 0, .rwl⟩]⟩,
   ⟨0x054, 0x5AB00D2, [⟨31, 16, .rwl⟩, ⟨15, 0, .rwl⟩]⟩,
   ⟨0x058, 0x2EE00FA0, [⟨31, 16, .rwl⟩, ⟨15, 0, .rwl⟩]⟩,
   ⟨0x060, 0x578, [⟨15, 0, .rwl⟩]⟩,
   ⟨0x064, 0x3E8, [⟨15, 0, .rwl⟩]⟩,
   ⟨0x068, 0x2BC, [⟨15, 0, .rwl⟩]⟩,
   ⟨0x06C, 0xF0, [⟨15, 0, .rwl⟩]⟩,
   ⟨0x070, 0xC8, [⟨15, 0, .rwl⟩]⟩,
   ⟨0x074, 0x8C, [⟨15, 0, .rwl⟩]⟩,
   ⟨0x078, 0x14, [⟨15, 0, .rwl⟩]⟩]

/-- The registers of EVR (R587 of 22_recorder_tally_standings.md). -/
def evrRegs : List RegDesc :=
  [⟨0x000, 0x2, [⟨1, 1, .rw⟩, ⟨0, 0, .rw⟩]⟩,
   ⟨0x004, 0x3C0002, [⟨31, 16, .rw⟩, ⟨1, 0, .rw⟩]⟩,
   ⟨0x008, 0x0, [⟨31, 31, .ro⟩, ⟨30, 30, .ro⟩, ⟨29, 29, .ro⟩, ⟨28, 28, .ro⟩, ⟨27, 22, .ro⟩, ⟨15, 0, .ro⟩]⟩,
   ⟨0x00C, 0x0, [⟨16, 0, .ro⟩]⟩,
   ⟨0x010, 0x0, [⟨31, 0, .ro⟩]⟩,
   ⟨0x014, 0x0, [⟨31, 0, .ro⟩]⟩,
   ⟨0x018, 0x0, [⟨31, 0, .ro⟩]⟩,
   ⟨0x01C, 0x0, [⟨31, 31, .rw⟩, ⟨30, 30, .rw⟩, ⟨19, 16, .rw⟩, ⟨15, 0, .rw⟩]⟩,
   ⟨0x020, 0x0, [⟨31, 0, .ro⟩]⟩,
   ⟨0x024, 0x0, [⟨31, 16, .wo⟩, ⟨15, 14, .wo⟩, ⟨13, 0, .wo⟩]⟩,
   ⟨0x028, 0x0, [⟨31, 0, .rw⟩]⟩,
   ⟨0x02C, 0x0, [⟨31, 0, .rw⟩]⟩,
   ⟨0x030, 0x0, [⟨31, 0, .rw⟩]⟩,
   ⟨0x034, 0x0, [⟨31, 0, .rw⟩]⟩,
   ⟨0x038, 0x0, [⟨31, 0, .rw⟩]⟩,
   ⟨0x03C, 0x0, [⟨31, 0, .rw⟩]⟩,
   ⟨0x040, 0x0, [⟨31, 0, .rw⟩]⟩,
   ⟨0x044, 0x0, [⟨31, 0, .rw⟩]⟩,
   ⟨0x048, 0x0, [⟨31, 0, .rw⟩]⟩,
   ⟨0x04C, 0x0, [⟨0, 0, .wo⟩]⟩,
   ⟨0x050, 0x0, [⟨31, 31, .ro⟩, ⟨30, 30, .ro⟩]⟩,
   ⟨0x054, 0x0, [⟨31, 31, .rw⟩, ⟨5, 0, .rw⟩]⟩,
   ⟨0x058, 0x0, [⟨31, 0, .ro⟩]⟩,
   ⟨0x05C, 0x0, [⟨3, 3, .w1c⟩, ⟨2, 2, .w1c⟩, ⟨1, 1, .w1c⟩, ⟨0, 0, .w1c⟩]⟩]

/-- The registers of TLY (R588 of 22_recorder_tally_standings.md). -/
def tlyRegs : List RegDesc :=
  [⟨0x000, 0x1803E8, [⟨23, 16, .rw⟩, ⟨15, 0, .rw⟩]⟩,
   ⟨0x004, 0x0, [⟨31, 31, .ro⟩, ⟨12, 0, .ro⟩]⟩,
   ⟨0x008, 0x0, [⟨31, 0, .ro⟩]⟩,
   ⟨0x00C, 0x0, [⟨31, 0, .ro⟩]⟩,
   ⟨0x010, 0x0, [⟨25, 16, .wo⟩, ⟨15, 0, .wo⟩]⟩,
   ⟨0x014, 0x0, [⟨22, 16, .wo⟩, ⟨4, 0, .wo⟩]⟩,
   ⟨0x018, 0x0, [⟨12, 0, .rw⟩]⟩,
   ⟨0x01C, 0x0, [⟨31, 0, .ro⟩]⟩,
   ⟨0x020, 0x0, [⟨31, 0, .ro⟩]⟩,
   ⟨0x024, 0x0, [⟨31, 31, .ro⟩, ⟨30, 30, .ro⟩, ⟨15, 0, .ro⟩]⟩,
   ⟨0x028, 0x0, [⟨0, 0, .wo⟩]⟩,
   ⟨0x02C, 0x0, [⟨2, 2, .w1c⟩, ⟨1, 1, .w1c⟩, ⟨0, 0, .w1c⟩]⟩,
   ⟨0x030, 0x0, [⟨31, 16, .rc⟩, ⟨15, 0, .rc⟩]⟩]

/-- The registers of BAT (R503 of 19_partner_pair.md). -/
def batRegs : List RegDesc :=
  [⟨0x000, 0xE, [⟨3, 3, .rw⟩, ⟨2, 2, .rwl⟩, ⟨1, 1, .rw⟩, ⟨0, 0, .rw⟩]⟩,
   ⟨0x004, 0x0, [⟨31, 31, .ro⟩, ⟨30, 30, .ro⟩, ⟨29, 29, .ro⟩, ⟨28, 28, .ro⟩, ⟨27, 26, .ro⟩, ⟨25, 22, .ro⟩, ⟨21, 21, .ro⟩]⟩,
   ⟨0x008, 0x0, [⟨3, 0, .rw⟩]⟩,
   ⟨0x00C, 0x0, [⟨11, 8, .ro⟩, ⟨7, 4, .ro⟩, ⟨3, 0, .ro⟩]⟩,
   ⟨0x010, 0x30064, [⟨19, 16, .rw⟩, ⟨15, 0, .rw⟩]⟩,
   ⟨0x014, 0x0, [⟨31, 31, .ro⟩, ⟨24, 16, .ro⟩, ⟨8, 0, .ro⟩]⟩,
   ⟨0x018, 0x0, [⟨31, 0, .ro⟩]⟩,
   ⟨0x01C, 0x0, [⟨31, 16, .ro⟩, ⟨15, 14, .ro⟩, ⟨7, 0, .ro⟩]⟩,
   ⟨0x020, 0x0, [⟨31, 0, .ro⟩]⟩,
   ⟨0x024, 0x0, [⟨15, 0, .ro⟩]⟩,
   ⟨0x028, 0x0, [⟨5, 5, .w1c⟩, ⟨4, 4, .w1c⟩, ⟨3, 3, .w1c⟩, ⟨2, 2, .w1c⟩, ⟨1, 1, .w1c⟩, ⟨0, 0, .w1c⟩]⟩,
   ⟨0x02C, 0x0, [⟨31, 16, .rc⟩, ⟨15, 0, .rc⟩]⟩,
   ⟨0x030, 0x0, [⟨31, 16, .rc⟩, ⟨15, 0, .rc⟩]⟩]

/-- The registers of MOC (R589 of 22_recorder_tally_standings.md). -/
def mocRegs : List RegDesc :=
  [⟨0x000, 0x8, [⟨3, 3, .rw⟩, ⟨2, 2, .rw⟩, ⟨0, 0, .rw⟩]⟩,
   ⟨0x004, 0x0, [⟨31, 31, .ro⟩, ⟨30, 30, .ro⟩, ⟨29, 29, .ro⟩, ⟨12, 0, .ro⟩]⟩,
   ⟨0x008, 0x0, [⟨12, 0, .rw⟩]⟩,
   ⟨0x00C, 0x3E8, [⟨15, 0, .rw⟩]⟩,
   ⟨0x010, 0x0, [⟨31, 0, .ro⟩]⟩,
   ⟨0x014, 0x0, [⟨31, 0, .ro⟩]⟩,
   ⟨0x018, 0x0, [⟨31, 0, .ro⟩]⟩,
   ⟨0x01C, 0x0, [⟨28, 16, .ro⟩, ⟨12, 0, .ro⟩]⟩,
   ⟨0x020, 0x0, [⟨31, 0, .wo⟩]⟩,
   ⟨0x024, 0x0, [⟨31, 0, .ro⟩]⟩,
   ⟨0x028, 0x0, [⟨0, 0, .wo⟩]⟩,
   ⟨0x02C, 0x0, [⟨4, 4, .w1c⟩, ⟨3, 3, .w1c⟩, ⟨2, 2, .w1c⟩, ⟨1, 1, .w1c⟩, ⟨0, 0, .w1c⟩]⟩,
   ⟨0x030, 0x0, [⟨31, 16, .rc⟩, ⟨15, 0, .rc⟩]⟩]

/-- The registers of SVC (R557 of 21_trust_boot_update.md). -/
def svcRegs : List RegDesc :=
  [⟨0x000, 0x0, [⟨31, 31, .ro⟩, ⟨30, 30, .ro⟩, ⟨29, 28, .ro⟩]⟩,
   ⟨0x004, 0x0, [⟨31, 31, .ro⟩, ⟨23, 16, .ro⟩, ⟨15, 0, .ro⟩]⟩,
   ⟨0x008, 0x0, [⟨31, 0, .ro⟩]⟩,
   ⟨0x00C, 0x0, [⟨31, 0, .ro⟩]⟩,
   ⟨0x010, 0x0, [⟨31, 0, .wo⟩]⟩,
   ⟨0x014, 0x0, [⟨31, 16, .rc⟩, ⟨15, 0, .rc⟩]⟩]

/-- The registers of MOT (R180 of 06_servo_engine.md, R222 of 08_spindle.md). -/
def motRegs : List RegDesc :=
  [⟨0x000, 0x2, [⟨1, 1, .rwl⟩, ⟨0, 0, .rw⟩]⟩,
   ⟨0x004, 0x0, [⟨31, 31, .ro⟩, ⟨30, 27, .ro⟩, ⟨26, 23, .ro⟩, ⟨22, 22, .ro⟩, ⟨21, 18, .ro⟩]⟩,
   ⟨0x008, 0x0, [⟨12, 9, .w1c⟩, ⟨8, 5, .w1c⟩, ⟨4, 4, .w1c⟩, ⟨3, 3, .w1c⟩]⟩,
   ⟨0x00C, 0x0, [⟨31, 16, .rc⟩, ⟨15, 0, .rc⟩]⟩,
   ⟨0x010, 0x0, [⟨31, 20, .ro⟩, ⟨19, 19, .ro⟩, ⟨18, 8, .ro⟩, ⟨7, 7, .ro⟩, ⟨6, 6, .ro⟩, ⟨5, 4, .ro⟩]⟩,
   ⟨0x014, 0x0, [⟨31, 20, .ro⟩, ⟨19, 8, .ro⟩, ⟨2, 0, .ro⟩]⟩]

/-- The per-hart claim registers (offset within the 8-byte slot of hart k from 0x840) and compare registers (from 0x880)
of CCX (R459). -/
def ccxClaimRegs : List RegDesc :=
  [⟨0x000, 0x0, [⟨7, 0, .rc⟩]⟩,
   ⟨0x004, 0x0, [⟨7, 0, .rc⟩]⟩]

/-- The timer compare pair of a hart (R459). -/
def ccxTcmpRegs : List RegDesc :=
  [⟨0x000, 0xFFFFFFFF, [⟨31, 0, .rw⟩]⟩,
   ⟨0x004, 0xFFFFFFFF, [⟨31, 0, .rw⟩]⟩]

/-- The registers of one DMA channel, at 0x100 + c × 0x80 (R477). -/
def dmaChanRegs : List RegDesc :=
  [⟨0x000, 0x7, [⟨31, 31, .w1s⟩, ⟨30, 30, .w1s⟩, ⟨29, 29, .w1s⟩, ⟨2, 2, .rw⟩, ⟨1, 1, .rw⟩, ⟨0, 0, .rw⟩]⟩,
   ⟨0x004, 0x0, [⟨31, 29, .ro⟩, ⟨4, 4, .w1c⟩, ⟨3, 3, .w1c⟩, ⟨2, 2, .w1c⟩, ⟨1, 1, .w1c⟩, ⟨0, 0, .w1c⟩]⟩,
   ⟨0x008, 0x40, [⟨7, 4, .rw⟩, ⟨2, 2, .rw⟩, ⟨1, 1, .rw⟩, ⟨0, 0, .rw⟩]⟩,
   ⟨0x00C, 0x0, [⟨16, 0, .rw⟩]⟩,
   ⟨0x010, 0x0, [⟨31, 0, .rw⟩]⟩,
   ⟨0x014, 0x0, [⟨3, 0, .rw⟩]⟩,
   ⟨0x018, 0x0, [⟨31, 0, .rw⟩]⟩,
   ⟨0x01C, 0x0, [⟨3, 0, .rw⟩]⟩,
   ⟨0x020, 0x0, [⟨31, 16, .rw⟩, ⟨15, 0, .rw⟩]⟩,
   ⟨0x024, 0x0, [⟨15, 0, .rw⟩]⟩,
   ⟨0x028, 0x0, [⟨31, 0, .rw⟩]⟩,
   ⟨0x02C, 0x0, [⟨31, 0, .rw⟩]⟩,
   ⟨0x030, 0x0, [⟨31, 0, .rw⟩]⟩,
   ⟨0x034, 0x0, [⟨31, 0, .rw⟩]⟩,
   ⟨0x038, 0x0, [⟨31, 0, .rw⟩]⟩,
   ⟨0x03C, 0x0, [⟨31, 0, .rw⟩]⟩,
   ⟨0x040, 0x0, [⟨31, 4, .rw⟩]⟩,
   ⟨0x044, 0x0, [⟨3, 0, .rw⟩]⟩,
   ⟨0x048, 0x0, [⟨31, 16, .ro⟩, ⟨15, 0, .ro⟩]⟩,
   ⟨0x04C, 0x0, [⟨31, 20, .ro⟩, ⟨15, 0, .ro⟩]⟩,
   ⟨0x050, 0x0, [⟨31, 24, .ro⟩]⟩,
   ⟨0x054, 0x0, [⟨31, 0, .ro⟩]⟩,
   ⟨0x058, 0x0, [⟨3, 0, .ro⟩]⟩]

/-- The registers a block lists one by one. -/
def blockRegs : Blk → List RegDesc
  | .glb => glbRegs
  | .cfg => cfgRegs
  | .trc => trcRegs
  | .hif => hifRegs
  | .qe => qeRegs
  | .rly => rlyRegs
  | .buf => bufRegs
  | .dmc => dmcRegs
  | .scc => sccRegs
  | .dma => dmaRegs
  | .ln => lnRegs
  | .sv => svRegs
  | .spm => spmRegs
  | .ms => msRegs
  | .ldp => ldpRegs
  | .bnd => bndRegs
  | .key => keyRegs
  | .pwr => pwrRegs
  | .evr => evrRegs
  | .tly => tlyRegs
  | .bat => batRegs
  | .moc => mocRegs
  | .svc => svcRegs
  | .mot => motRegs

/-- The register of a list at an offset. -/
def findReg (o : Nat) : List RegDesc → Option RegDesc
  | [] => none
  | r :: rs => if r.off = o then some r else findReg o rs

/-- The register at an offset of a block, the repeated ones of CCX and DMA included (R630, R631). -/
def regAt (b : Blk) (o : Nat) : Option RegDesc :=
  match b with
  | .scc =>
    if 0x840 ≤ o ∧ o < 0x880 then findReg ((o - 0x840) % 8) ccxClaimRegs
    else if 0x880 ≤ o ∧ o < 0x8C0 then findReg ((o - 0x880) % 8) ccxTcmpRegs
    else findReg o sccRegs
  | .dma =>
    if 0x100 ≤ o ∧ o < 0x100 + 64 * 0x80 then findReg ((o - 0x100) % 0x80) dmaChanRegs
    else findReg o dmaRegs
  | b => findReg o (blockRegs b)

/-- The register at an absolute address, none where no register is defined (R9, R631). -/
def descOf (a : Nat) : Option RegDesc :=
  match locate a with
  | some (b, _, o) => regAt b o
  | none => none

/-- The reset value of the register at an address (R17). -/
def resetOf (a : Nat) : Word :=
  match descOf a with
  | some r => BitVec.ofNat 32 r.reset
  | none => 0

/-- GLB_MODE (R43): Current mode, previous mode, power state, activity. -/
def R.GLB_MODE : Nat := 0x00000000
def F.GLB_MODE_PREV : Fld := ⟨R.GLB_MODE, 19, 16⟩
def F.GLB_MODE_ACTIVITY : Fld := ⟨R.GLB_MODE, 9, 8⟩
def F.GLB_MODE_PSTATE : Fld := ⟨R.GLB_MODE, 6, 4⟩
def F.GLB_MODE_MODE : Fld := ⟨R.GLB_MODE, 3, 0⟩
/-- GLB_MODE_REQ (R43): Firmware mode request. -/
def R.GLB_MODE_REQ : Nat := 0x00000004
def F.GLB_MODE_REQ_TARGET : Fld := ⟨R.GLB_MODE_REQ, 3, 0⟩
/-- GLB_MODE_STAT (R43): Transition progress, cause, rejection. -/
def R.GLB_MODE_STAT : Nat := 0x00000008
def F.GLB_MODE_STAT_BUSY : Fld := ⟨R.GLB_MODE_STAT, 31, 31⟩
def F.GLB_MODE_STAT_TARGET : Fld := ⟨R.GLB_MODE_STAT, 27, 24⟩
def F.GLB_MODE_STAT_REJ : Fld := ⟨R.GLB_MODE_STAT, 16, 16⟩
def F.GLB_MODE_STAT_CAUSE : Fld := ⟨R.GLB_MODE_STAT, 15, 8⟩
def F.GLB_MODE_STAT_REJ_TARGET : Fld := ⟨R.GLB_MODE_STAT, 3, 0⟩
/-- GLB_MODE_COND (R43): Conditions that decide the mode. -/
def R.GLB_MODE_COND : Nat := 0x0000000C
def F.GLB_MODE_COND_POWER_FAIL : Fld := ⟨R.GLB_MODE_COND, 7, 7⟩
def F.GLB_MODE_COND_SERVICE_HOLD : Fld := ⟨R.GLB_MODE_COND, 6, 6⟩
def F.GLB_MODE_COND_SET_LOST : Fld := ⟨R.GLB_MODE_COND, 5, 5⟩
def F.GLB_MODE_COND_IMAGE_FAIL : Fld := ⟨R.GLB_MODE_COND, 4, 4⟩
def F.GLB_MODE_COND_SPARES_OUT : Fld := ⟨R.GLB_MODE_COND, 3, 3⟩
def F.GLB_MODE_COND_UNIT_LOST : Fld := ⟨R.GLB_MODE_COND, 2, 2⟩
def F.GLB_MODE_COND_PARTNER_LOST : Fld := ⟨R.GLB_MODE_COND, 1, 1⟩
def F.GLB_MODE_COND_PAIR_MISMATCH : Fld := ⟨R.GLB_MODE_COND, 0, 0⟩
/-- GLB_UNIT_OK0 (R43): Presence of cores, DRAM controllers, ports, lanes, decoders and links. -/
def R.GLB_UNIT_OK0 : Nat := 0x00000010
def F.GLB_UNIT_OK0_PWR : Fld := ⟨R.GLB_UNIT_OK0, 31, 31⟩
def F.GLB_UNIT_OK0_MOC : Fld := ⟨R.GLB_UNIT_OK0, 30, 30⟩
def F.GLB_UNIT_OK0_BAT : Fld := ⟨R.GLB_UNIT_OK0, 29, 29⟩
def F.GLB_UNIT_OK0_DMA : Fld := ⟨R.GLB_UNIT_OK0, 28, 28⟩
def F.GLB_UNIT_OK0_LDP : Fld := ⟨R.GLB_UNIT_OK0, 27, 16⟩
def F.GLB_UNIT_OK0_LANE : Fld := ⟨R.GLB_UNIT_OK0, 15, 12⟩
def F.GLB_UNIT_OK0_HIF1 : Fld := ⟨R.GLB_UNIT_OK0, 11, 11⟩
def F.GLB_UNIT_OK0_HIF0 : Fld := ⟨R.GLB_UNIT_OK0, 10, 10⟩
def F.GLB_UNIT_OK0_DMC1 : Fld := ⟨R.GLB_UNIT_OK0, 9, 9⟩
def F.GLB_UNIT_OK0_DMC0 : Fld := ⟨R.GLB_UNIT_OK0, 8, 8⟩
def F.GLB_UNIT_OK0_CCX : Fld := ⟨R.GLB_UNIT_OK0, 7, 0⟩
/-- GLB_UNIT_OK1 (R43): Presence of single-instance blocks. -/
def R.GLB_UNIT_OK1 : Nat := 0x00000014
def F.GLB_UNIT_OK1_SVC : Fld := ⟨R.GLB_UNIT_OK1, 11, 11⟩
def F.GLB_UNIT_OK1_TRC : Fld := ⟨R.GLB_UNIT_OK1, 10, 10⟩
def F.GLB_UNIT_OK1_TLY : Fld := ⟨R.GLB_UNIT_OK1, 9, 9⟩
def F.GLB_UNIT_OK1_EVR : Fld := ⟨R.GLB_UNIT_OK1, 8, 8⟩
def F.GLB_UNIT_OK1_MOT : Fld := ⟨R.GLB_UNIT_OK1, 7, 7⟩
def F.GLB_UNIT_OK1_SPM : Fld := ⟨R.GLB_UNIT_OK1, 6, 6⟩
def F.GLB_UNIT_OK1_KEY : Fld := ⟨R.GLB_UNIT_OK1, 5, 5⟩
def F.GLB_UNIT_OK1_BND : Fld := ⟨R.GLB_UNIT_OK1, 4, 4⟩
def F.GLB_UNIT_OK1_RLY : Fld := ⟨R.GLB_UNIT_OK1, 3, 3⟩
def F.GLB_UNIT_OK1_SCC : Fld := ⟨R.GLB_UNIT_OK1, 2, 2⟩
def F.GLB_UNIT_OK1_BUF : Fld := ⟨R.GLB_UNIT_OK1, 1, 1⟩
def F.GLB_UNIT_OK1_QE : Fld := ⟨R.GLB_UNIT_OK1, 0, 0⟩
/-- GLB_FABRIC_PACE (R43): Fabric speed relative to worst corner. -/
def R.GLB_FABRIC_PACE : Nat := 0x00000018
def F.GLB_FABRIC_PACE_PACE : Fld := ⟨R.GLB_FABRIC_PACE, 15, 0⟩
/-- GLB_FIFO_OVF (R43): FIFO overflow and underrun flags. -/
def R.GLB_FIFO_OVF : Nat := 0x0000001C
def F.GLB_FIFO_OVF_SV_STAT_LOST : Fld := ⟨R.GLB_FIFO_OVF, 15, 12⟩
def F.GLB_FIFO_OVF_LN_WR_UNDER : Fld := ⟨R.GLB_FIFO_OVF, 11, 8⟩
def F.GLB_FIFO_OVF_LN_SOFT_OVF : Fld := ⟨R.GLB_FIFO_OVF, 7, 4⟩
def F.GLB_FIFO_OVF_MOC_RX_OVF : Fld := ⟨R.GLB_FIFO_OVF, 0, 0⟩
/-- GLB_STICKY (R43): Always-on sticky failure bits; fields in Event Recorder, Tally and Standings. -/
def R.GLB_STICKY : Nat := 0x00000020
def F.GLB_STICKY_STICKY_LOST : Fld := ⟨R.GLB_STICKY, 4, 4⟩
def F.GLB_STICKY_TALLY_FAIL : Fld := ⟨R.GLB_STICKY, 3, 3⟩
def F.GLB_STICKY_EPITAPH_FULL : Fld := ⟨R.GLB_STICKY, 2, 2⟩
def F.GLB_STICKY_EPITAPH_FAIL : Fld := ⟨R.GLB_STICKY, 1, 1⟩
def F.GLB_STICKY_LOG_FAIL : Fld := ⟨R.GLB_STICKY, 0, 0⟩
/-- CFG_LOAD_STAT (R62): Load progress and outcome. -/
def R.CFG_LOAD_STAT : Nat := 0x00010000
def F.CFG_LOAD_STAT_DONE : Fld := ⟨R.CFG_LOAD_STAT, 31, 31⟩
def F.CFG_LOAD_STAT_FAIL : Fld := ⟨R.CFG_LOAD_STAT, 30, 30⟩
def F.CFG_LOAD_STAT_EARLY_WR : Fld := ⟨R.CFG_LOAD_STAT, 29, 29⟩
def F.CFG_LOAD_STAT_SECTION : Fld := ⟨R.CFG_LOAD_STAT, 15, 8⟩
def F.CFG_LOAD_STAT_PHASE : Fld := ⟨R.CFG_LOAD_STAT, 3, 0⟩
/-- CFG_LOAD_ERR (R62): First failed check. -/
def R.CFG_LOAD_ERR : Nat := 0x00010004
def F.CFG_LOAD_ERR_SECTION : Fld := ⟨R.CFG_LOAD_ERR, 31, 24⟩
def F.CFG_LOAD_ERR_CODE : Fld := ⟨R.CFG_LOAD_ERR, 15, 0⟩
/-- CFG_IMAGE_VER (R62): IMAGE_VER of the loaded image. -/
def R.CFG_IMAGE_VER : Nat := 0x00010008
def F.CFG_IMAGE_VER_VALUE : Fld := ⟨R.CFG_IMAGE_VER, 31, 0⟩
/-- CFG_BUILD_LO (R62): BUILD_ID bits [31:0]. -/
def R.CFG_BUILD_LO : Nat := 0x0001000C
def F.CFG_BUILD_LO_VALUE : Fld := ⟨R.CFG_BUILD_LO, 31, 0⟩
/-- CFG_BUILD_HI (R62): BUILD_ID bits [63:32]. -/
def R.CFG_BUILD_HI : Nat := 0x00010010
def F.CFG_BUILD_HI_VALUE : Fld := ⟨R.CFG_BUILD_HI, 31, 0⟩
/-- CFG_ROLE (R62): Role, ports, cadences, VF counts. -/
def R.CFG_ROLE : Nat := 0x00010014
def F.CFG_ROLE_ROLE : Fld := ⟨R.CFG_ROLE, 31, 30⟩
def F.CFG_ROLE_PORTS : Fld := ⟨R.CFG_ROLE, 29, 28⟩
def F.CFG_ROLE_CADENCES : Fld := ⟨R.CFG_ROLE, 27, 24⟩
def F.CFG_ROLE_VF0 : Fld := ⟨R.CFG_ROLE, 23, 18⟩
def F.CFG_ROLE_VF1 : Fld := ⟨R.CFG_ROLE, 17, 12⟩
/-- CFG_LANE_MAP (R62): Lane wiring. -/
def R.CFG_LANE_MAP : Nat := 0x00010018
def F.CFG_LANE_MAP_LANE3 : Fld := ⟨R.CFG_LANE_MAP, 31, 24⟩
def F.CFG_LANE_MAP_LANE2 : Fld := ⟨R.CFG_LANE_MAP, 23, 16⟩
def F.CFG_LANE_MAP_LANE1 : Fld := ⟨R.CFG_LANE_MAP, 15, 8⟩
def F.CFG_LANE_MAP_LANE0 : Fld := ⟨R.CFG_LANE_MAP, 7, 0⟩
/-- CFG_SRAM_PART (R62): Way partition. -/
def R.CFG_SRAM_PART : Nat := 0x0001001C
def F.CFG_SRAM_PART_CACHE_WAYS : Fld := ⟨R.CFG_SRAM_PART, 11, 8⟩
def F.CFG_SRAM_PART_BND_WAYS : Fld := ⟨R.CFG_SRAM_PART, 7, 4⟩
def F.CFG_SRAM_PART_QE_WAYS : Fld := ⟨R.CFG_SRAM_PART, 3, 0⟩
/-- CFG_BW_RESV (R62): Reservation sum and limit. -/
def R.CFG_BW_RESV : Nat := 0x00010020
def F.CFG_BW_RESV_LIMIT : Fld := ⟨R.CFG_BW_RESV, 31, 16⟩
def F.CFG_BW_RESV_RESV : Fld := ⟨R.CFG_BW_RESV, 15, 0⟩
/-- CFG_COUNTS (R62): Queue-pair and namespace limits. -/
def R.CFG_COUNTS : Nat := 0x00010024
def F.CFG_COUNTS_NS_MAX : Fld := ⟨R.CFG_COUNTS, 23, 13⟩
def F.CFG_COUNTS_QP_MAX : Fld := ⟨R.CFG_COUNTS, 12, 0⟩
/-- CFG_MEDIA_FMT (R62): Pair set and media format. -/
def R.CFG_MEDIA_FMT : Nat := 0x00010028
def F.CFG_MEDIA_FMT_PAIR_SET : Fld := ⟨R.CFG_MEDIA_FMT, 31, 16⟩
def F.CFG_MEDIA_FMT_FORMAT : Fld := ⟨R.CFG_MEDIA_FMT, 15, 0⟩
/-- LNn_CTL (R98): Equaliser mode, set, adaptation, gain loop. -/
def R.LNn_CTL (n : Nat) : Nat := 0x01000000 + n * 0x100000
def F.LNn_CTL_ONE_D_SEL (n : Nat) : Fld := ⟨R.LNn_CTL n, 7, 6⟩
def F.LNn_CTL_EQ_MODE (n : Nat) : Fld := ⟨R.LNn_CTL n, 5, 4⟩
def F.LNn_CTL_EQ_SET (n : Nat) : Fld := ⟨R.LNn_CTL n, 3, 2⟩
def F.LNn_CTL_ADAPT (n : Nat) : Fld := ⟨R.LNn_CTL n, 1, 1⟩
def F.LNn_CTL_AGC_EN (n : Nat) : Fld := ⟨R.LNn_CTL n, 0, 0⟩
/-- LNn_STAT (R98): Lock, gates, zone, head. -/
def R.LNn_STAT (n : Nat) : Nat := 0x01000004 + n * 0x100000
def F.LNn_STAT_PLL_LOCK (n : Nat) : Fld := ⟨R.LNn_STAT n, 31, 31⟩
def F.LNn_STAT_RD_GATE (n : Nat) : Fld := ⟨R.LNn_STAT n, 30, 30⟩
def F.LNn_STAT_WR_GATE (n : Nat) : Fld := ⟨R.LNn_STAT n, 29, 29⟩
def F.LNn_STAT_ZONE (n : Nat) : Fld := ⟨R.LNn_STAT n, 28, 24⟩
def F.LNn_STAT_HEAD (n : Nat) : Fld := ⟨R.LNn_STAT n, 23, 21⟩
/-- LNn_BAUD_M (R98): Synthesiser multiplier in use. -/
def R.LNn_BAUD_M (n : Nat) : Nat := 0x01000008 + n * 0x100000
def F.LNn_BAUD_M_M (n : Nat) : Fld := ⟨R.LNn_BAUD_M n, 31, 0⟩
/-- LNn_BPW (R98): BPW in use. -/
def R.LNn_BPW (n : Nat) : Nat := 0x0100000C + n * 0x100000
def F.LNn_BPW_BPW (n : Nat) : Fld := ⟨R.LNn_BPW n, 16, 0⟩
/-- LNn_TBL_SEL (R98): Table index port selection. -/
def R.LNn_TBL_SEL (n : Nat) : Nat := 0x01000010 + n * 0x100000
def F.LNn_TBL_SEL_AUTOINC (n : Nat) : Fld := ⟨R.LNn_TBL_SEL n, 31, 31⟩
def F.LNn_TBL_SEL_TABLE (n : Nat) : Fld := ⟨R.LNn_TBL_SEL n, 27, 24⟩
def F.LNn_TBL_SEL_HEAD (n : Nat) : Fld := ⟨R.LNn_TBL_SEL n, 23, 21⟩
def F.LNn_TBL_SEL_ZONE (n : Nat) : Fld := ⟨R.LNn_TBL_SEL n, 20, 16⟩
def F.LNn_TBL_SEL_INDEX (n : Nat) : Fld := ⟨R.LNn_TBL_SEL n, 7, 0⟩
/-- LNn_TBL_DATA (R98): Table entry data. -/
def R.LNn_TBL_DATA (n : Nat) : Nat := 0x01000014 + n * 0x100000
def F.LNn_TBL_DATA_ENTRY (n : Nat) : Fld := ⟨R.LNn_TBL_DATA n, 31, 0⟩
/-- LNn_HTR_MAX (R98): Heater ceiling. -/
def R.LNn_HTR_MAX (n : Nat) : Nat := 0x01000018 + n * 0x100000
def F.LNn_HTR_MAX_MAX (n : Nat) : Fld := ⟨R.LNn_HTR_MAX n, 9, 0⟩
/-- LNn_HTR_LEAD (R98): Heater lead time. -/
def R.LNn_HTR_LEAD (n : Nat) : Nat := 0x0100001C + n * 0x100000
def F.LNn_HTR_LEAD_LEAD (n : Nat) : Fld := ⟨R.LNn_HTR_LEAD n, 15, 0⟩
/-- LNn_PBUS_CTL (R98): Preamp bus retry and verify. -/
def R.LNn_PBUS_CTL (n : Nat) : Nat := 0x01000020 + n * 0x100000
def F.LNn_PBUS_CTL_AUTO_RETRY (n : Nat) : Fld := ⟨R.LNn_PBUS_CTL n, 2, 2⟩
def F.LNn_PBUS_CTL_VERIFY (n : Nat) : Fld := ⟨R.LNn_PBUS_CTL n, 1, 1⟩
/-- LNn_PBUS_CMD (R98): Firmware preamp frame. -/
def R.LNn_PBUS_CMD (n : Nat) : Nat := 0x01000024 + n * 0x100000
def F.LNn_PBUS_CMD_WR (n : Nat) : Fld := ⟨R.LNn_PBUS_CMD n, 31, 31⟩
def F.LNn_PBUS_CMD_BC (n : Nat) : Fld := ⟨R.LNn_PBUS_CMD n, 30, 30⟩
def F.LNn_PBUS_CMD_HEAD (n : Nat) : Fld := ⟨R.LNn_PBUS_CMD n, 29, 27⟩
def F.LNn_PBUS_CMD_ADDR (n : Nat) : Fld := ⟨R.LNn_PBUS_CMD n, 26, 21⟩
def F.LNn_PBUS_CMD_DATA (n : Nat) : Fld := ⟨R.LNn_PBUS_CMD n, 15, 0⟩
/-- LNn_PBUS_RES (R98): Firmware frame outcome. -/
def R.LNn_PBUS_RES (n : Nat) : Nat := 0x01000028 + n * 0x100000
def F.LNn_PBUS_RES_VALID (n : Nat) : Fld := ⟨R.LNn_PBUS_RES n, 31, 31⟩
def F.LNn_PBUS_RES_BUSY (n : Nat) : Fld := ⟨R.LNn_PBUS_RES n, 30, 30⟩
def F.LNn_PBUS_RES_CRC_ERR (n : Nat) : Fld := ⟨R.LNn_PBUS_RES n, 29, 29⟩
def F.LNn_PBUS_RES_REJECT (n : Nat) : Fld := ⟨R.LNn_PBUS_RES n, 28, 28⟩
def F.LNn_PBUS_RES_MISMATCH (n : Nat) : Fld := ⟨R.LNn_PBUS_RES n, 27, 27⟩
def F.LNn_PBUS_RES_DROPPED (n : Nat) : Fld := ⟨R.LNn_PBUS_RES n, 26, 26⟩
def F.LNn_PBUS_RES_DATA (n : Nat) : Fld := ⟨R.LNn_PBUS_RES n, 15, 0⟩
/-- LNn_HL_STAT (R98): Head-link status flags. -/
def R.LNn_HL_STAT (n : Nat) : Nat := 0x0100002C + n * 0x100000
def F.LNn_HL_STAT_FAULT_SEEN (n : Nat) : Fld := ⟨R.LNn_HL_STAT n, 3, 3⟩
def F.LNn_HL_STAT_CAL_RANGE (n : Nat) : Fld := ⟨R.LNn_HL_STAT n, 2, 2⟩
def F.LNn_HL_STAT_PLL_UNLOCK (n : Nat) : Fld := ⟨R.LNn_HL_STAT n, 1, 1⟩
def F.LNn_HL_STAT_BUS_CHECK (n : Nat) : Fld := ⟨R.LNn_HL_STAT n, 0, 0⟩
/-- LNn_HL_CNT (R98): Fault and check-error counts. -/
def R.LNn_HL_CNT (n : Nat) : Nat := 0x01000030 + n * 0x100000
def F.LNn_HL_CNT_FAULT_CNT (n : Nat) : Fld := ⟨R.LNn_HL_CNT n, 31, 16⟩
def F.LNn_HL_CNT_CHECK_CNT (n : Nat) : Fld := ⟨R.LNn_HL_CNT n, 15, 0⟩
/-- LNn_HEAD_EN (R98): Head enable mask; CFG writes the image mask at load. -/
def R.LNn_HEAD_EN (n : Nat) : Nat := 0x01000034 + n * 0x100000
def F.LNn_HEAD_EN_EN (n : Nat) : Fld := ⟨R.LNn_HEAD_EN n, 7, 0⟩
/-- LNn_DET_CTL (R126): LLR scale, spill, on-the-fly parity, tag check. -/
def R.LNn_DET_CTL (n : Nat) : Nat := 0x01000100 + n * 0x100000
def F.LNn_DET_CTL_LLR_SCALE (n : Nat) : Fld := ⟨R.LNn_DET_CTL n, 15, 8⟩
def F.LNn_DET_CTL_SPILL_EN (n : Nat) : Fld := ⟨R.LNn_DET_CTL n, 2, 2⟩
def F.LNn_DET_CTL_OTF_PARITY (n : Nat) : Fld := ⟨R.LNn_DET_CTL n, 1, 1⟩
def F.LNn_DET_CTL_TAG_CHECK (n : Nat) : Fld := ⟨R.LNn_DET_CTL n, 0, 0⟩
/-- LNn_DET_TGT0 (R126): Target taps for equaliser set 0. -/
def R.LNn_DET_TGT0 (n : Nat) : Nat := 0x01000104 + n * 0x100000
def F.LNn_DET_TGT0_G4 (n : Nat) : Fld := ⟨R.LNn_DET_TGT0 n, 31, 24⟩
def F.LNn_DET_TGT0_G3 (n : Nat) : Fld := ⟨R.LNn_DET_TGT0 n, 23, 16⟩
def F.LNn_DET_TGT0_G2 (n : Nat) : Fld := ⟨R.LNn_DET_TGT0 n, 15, 8⟩
def F.LNn_DET_TGT0_G1 (n : Nat) : Fld := ⟨R.LNn_DET_TGT0 n, 7, 0⟩
/-- LNn_DET_TGT1 (R126): Target taps for equaliser set 1. -/
def R.LNn_DET_TGT1 (n : Nat) : Nat := 0x01000108 + n * 0x100000
def F.LNn_DET_TGT1_G4 (n : Nat) : Fld := ⟨R.LNn_DET_TGT1 n, 31, 24⟩
def F.LNn_DET_TGT1_G3 (n : Nat) : Fld := ⟨R.LNn_DET_TGT1 n, 23, 16⟩
def F.LNn_DET_TGT1_G2 (n : Nat) : Fld := ⟨R.LNn_DET_TGT1 n, 15, 8⟩
def F.LNn_DET_TGT1_G1 (n : Nat) : Fld := ⟨R.LNn_DET_TGT1 n, 7, 0⟩
/-- LNn_DET_TGT2 (R126): Target taps for equaliser set 2. -/
def R.LNn_DET_TGT2 (n : Nat) : Nat := 0x0100010C + n * 0x100000
def F.LNn_DET_TGT2_G4 (n : Nat) : Fld := ⟨R.LNn_DET_TGT2 n, 31, 24⟩
def F.LNn_DET_TGT2_G3 (n : Nat) : Fld := ⟨R.LNn_DET_TGT2 n, 23, 16⟩
def F.LNn_DET_TGT2_G2 (n : Nat) : Fld := ⟨R.LNn_DET_TGT2 n, 15, 8⟩
def F.LNn_DET_TGT2_G1 (n : Nat) : Fld := ⟨R.LNn_DET_TGT2 n, 7, 0⟩
/-- LNn_DET_TGT3 (R126): Target taps for equaliser set 3. -/
def R.LNn_DET_TGT3 (n : Nat) : Nat := 0x01000110 + n * 0x100000
def F.LNn_DET_TGT3_G4 (n : Nat) : Fld := ⟨R.LNn_DET_TGT3 n, 31, 24⟩
def F.LNn_DET_TGT3_G3 (n : Nat) : Fld := ⟨R.LNn_DET_TGT3 n, 23, 16⟩
def F.LNn_DET_TGT3_G2 (n : Nat) : Fld := ⟨R.LNn_DET_TGT3 n, 15, 8⟩
def F.LNn_DET_TGT3_G1 (n : Nat) : Fld := ⟨R.LNn_DET_TGT3 n, 7, 0⟩
/-- LNn_RTY_BUDGET (R126): Attempts per rung. -/
def R.LNn_RTY_BUDGET (n : Nat) : Nat := 0x01000114 + n * 0x100000
def F.LNn_RTY_BUDGET_RUNG7 (n : Nat) : Fld := ⟨R.LNn_RTY_BUDGET n, 27, 24⟩
def F.LNn_RTY_BUDGET_RUNG6 (n : Nat) : Fld := ⟨R.LNn_RTY_BUDGET n, 23, 20⟩
def F.LNn_RTY_BUDGET_RUNG5 (n : Nat) : Fld := ⟨R.LNn_RTY_BUDGET n, 19, 16⟩
def F.LNn_RTY_BUDGET_RUNG4 (n : Nat) : Fld := ⟨R.LNn_RTY_BUDGET n, 15, 12⟩
def F.LNn_RTY_BUDGET_RUNG3 (n : Nat) : Fld := ⟨R.LNn_RTY_BUDGET n, 11, 8⟩
def F.LNn_RTY_BUDGET_RUNG2 (n : Nat) : Fld := ⟨R.LNn_RTY_BUDGET n, 7, 4⟩
def F.LNn_RTY_BUDGET_RUNG1 (n : Nat) : Fld := ⟨R.LNn_RTY_BUDGET n, 3, 0⟩
/-- LNn_RTY_CFG (R126): Revolution limit, rewrite rung, one-dimensional set, heater step. -/
def R.LNn_RTY_CFG (n : Nat) : Nat := 0x01000118 + n * 0x100000
def F.LNn_RTY_CFG_LIMIT (n : Nat) : Fld := ⟨R.LNn_RTY_CFG n, 31, 24⟩
def F.LNn_RTY_CFG_RELOC_RUNG (n : Nat) : Fld := ⟨R.LNn_RTY_CFG n, 19, 16⟩
def F.LNn_RTY_CFG_ONE_D_SET (n : Nat) : Fld := ⟨R.LNn_RTY_CFG n, 11, 10⟩
def F.LNn_RTY_CFG_HTR_STEP (n : Nat) : Fld := ⟨R.LNn_RTY_CFG n, 9, 0⟩
/-- LNn_RTY_STAT (R126): Ladder progress. -/
def R.LNn_RTY_STAT (n : Nat) : Nat := 0x0100011C + n * 0x100000
def F.LNn_RTY_STAT_ACTIVE (n : Nat) : Fld := ⟨R.LNn_RTY_STAT n, 31, 31⟩
def F.LNn_RTY_STAT_RUNG (n : Nat) : Fld := ⟨R.LNn_RTY_STAT n, 30, 27⟩
def F.LNn_RTY_STAT_ATTEMPT (n : Nat) : Fld := ⟨R.LNn_RTY_STAT n, 26, 23⟩
def F.LNn_RTY_STAT_FAILING (n : Nat) : Fld := ⟨R.LNn_RTY_STAT n, 15, 8⟩
def F.LNn_RTY_STAT_REVS (n : Nat) : Fld := ⟨R.LNn_RTY_STAT n, 7, 0⟩
/-- LNn_RCV_CNT0 (R126): On-the-fly failures and parity recoveries. -/
def R.LNn_RCV_CNT0 (n : Nat) : Nat := 0x01000120 + n * 0x100000
def F.LNn_RCV_CNT0_OTF_FAIL (n : Nat) : Fld := ⟨R.LNn_RCV_CNT0 n, 31, 16⟩
def F.LNn_RCV_CNT0_PARITY_OTF (n : Nat) : Fld := ⟨R.LNn_RCV_CNT0 n, 15, 0⟩
/-- LNn_RCV_CNT1 (R126): Unrecovered sectors and miscorrections. -/
def R.LNn_RCV_CNT1 (n : Nat) : Nat := 0x01000124 + n * 0x100000
def F.LNn_RCV_CNT1_UNRECOVERED (n : Nat) : Fld := ⟨R.LNn_RCV_CNT1 n, 31, 16⟩
def F.LNn_RCV_CNT1_MISCORRECT (n : Nat) : Fld := ⟨R.LNn_RCV_CNT1 n, 15, 0⟩
/-- LNn_RCV_CNT2 (R126): Tag mismatches and rewrite reports. -/
def R.LNn_RCV_CNT2 (n : Nat) : Nat := 0x01000128 + n * 0x100000
def F.LNn_RCV_CNT2_TAG_MISMATCH (n : Nat) : Fld := ⟨R.LNn_RCV_CNT2 n, 31, 16⟩
def F.LNn_RCV_CNT2_RELOC_FLAGGED (n : Nat) : Fld := ⟨R.LNn_RCV_CNT2 n, 15, 0⟩
/-- LDP_ITER (R127): Iteration budgets. -/
def R.LDP_ITER : Nat := 0x03800000
def F.LDP_ITER_RTY : Fld := ⟨R.LDP_ITER, 13, 8⟩
def F.LDP_ITER_OTF : Fld := ⟨R.LDP_ITER, 3, 0⟩
/-- LDP_TOK_CFG (R127): Retry token limit per lane. -/
def R.LDP_TOK_CFG : Nat := 0x03800004
def F.LDP_TOK_CFG_RTY_MAX : Fld := ⟨R.LDP_TOK_CFG, 3, 0⟩
/-- LDP_TOK_STAT (R127): Token ledger. -/
def R.LDP_TOK_STAT : Nat := 0x03800008
def F.LDP_TOK_STAT_INFLIGHT : Fld := ⟨R.LDP_TOK_STAT, 31, 31⟩
def F.LDP_TOK_STAT_LOST : Fld := ⟨R.LDP_TOK_STAT, 23, 20⟩
def F.LDP_TOK_STAT_FREE : Fld := ⟨R.LDP_TOK_STAT, 19, 16⟩
def F.LDP_TOK_STAT_LANE3 : Fld := ⟨R.LDP_TOK_STAT, 15, 12⟩
def F.LDP_TOK_STAT_LANE2 : Fld := ⟨R.LDP_TOK_STAT, 11, 8⟩
def F.LDP_TOK_STAT_LANE1 : Fld := ⟨R.LDP_TOK_STAT, 7, 4⟩
def F.LDP_TOK_STAT_LANE0 : Fld := ⟨R.LDP_TOK_STAT, 3, 0⟩
/-- LDP_ENG_BUSY (R127): Engines decoding. -/
def R.LDP_ENG_BUSY : Nat := 0x0380000C
def F.LDP_ENG_BUSY_BUSY : Fld := ⟨R.LDP_ENG_BUSY, 11, 0⟩
/-- LDP_CNT0 (R127): Grant waits and engine faults. -/
def R.LDP_CNT0 : Nat := 0x03800010
def F.LDP_CNT0_GRANT_WAIT : Fld := ⟨R.LDP_CNT0, 31, 16⟩
def F.LDP_CNT0_ENG_FAULT : Fld := ⟨R.LDP_CNT0, 15, 0⟩
/-- LDP_CNT1 (R127): Rung 7 outcomes. -/
def R.LDP_CNT1 : Nat := 0x03800014
def F.LDP_CNT1_PAR_FAIL : Fld := ⟨R.LDP_CNT1, 31, 16⟩
def F.LDP_CNT1_PAR_RECOVER : Fld := ⟨R.LDP_CNT1, 15, 0⟩
/-- LNn_WR_CTL (R153): Cancellation, precompensation, inhibit, retries. -/
def R.LNn_WR_CTL (n : Nat) : Nat := 0x01000200 + n * 0x100000
def F.LNn_WR_CTL_RESUME_WEDGES (n : Nat) : Fld := ⟨R.LNn_WR_CTL n, 15, 12⟩
def F.LNn_WR_CTL_WR_RETRY (n : Nat) : Fld := ⟨R.LNn_WR_CTL n, 11, 8⟩
def F.LNn_WR_CTL_INHIBIT (n : Nat) : Fld := ⟨R.LNn_WR_CTL n, 3, 3⟩
def F.LNn_WR_CTL_PRECOMP_EN (n : Nat) : Fld := ⟨R.LNn_WR_CTL n, 2, 2⟩
def F.LNn_WR_CTL_CANCEL_ADAPT (n : Nat) : Fld := ⟨R.LNn_WR_CTL n, 1, 1⟩
def F.LNn_WR_CTL_CANCEL_EN (n : Nat) : Fld := ⟨R.LNn_WR_CTL n, 0, 0⟩
/-- LNn_WR_STAT (R153): Squelch, verify gate, inhibit sources now. -/
def R.LNn_WR_STAT (n : Nat) : Nat := 0x01000204 + n * 0x100000
def F.LNn_WR_STAT_SQUELCH (n : Nat) : Fld := ⟨R.LNn_WR_STAT n, 31, 31⟩
def F.LNn_WR_STAT_VFY_GATE (n : Nat) : Fld := ⟨R.LNn_WR_STAT n, 30, 30⟩
def F.LNn_WR_STAT_INH_NOW (n : Nat) : Fld := ⟨R.LNn_WR_STAT n, 21, 16⟩
/-- LNn_WFLT_STAT (R153): Inhibit sources seen. -/
def R.LNn_WFLT_STAT (n : Nat) : Nat := 0x01000208 + n * 0x100000
def F.LNn_WFLT_STAT_INH_SEEN (n : Nat) : Fld := ⟨R.LNn_WFLT_STAT n, 5, 0⟩
/-- LNn_WR_HEAD_DIS (R153): Heads refused for writing. -/
def R.LNn_WR_HEAD_DIS (n : Nat) : Nat := 0x0100020C + n * 0x100000
def F.LNn_WR_HEAD_DIS_DIS (n : Nat) : Fld := ⟨R.LNn_WR_HEAD_DIS n, 7, 0⟩
/-- LNn_ASSIST_TYPE (R153): Assist type per head. -/
def R.LNn_ASSIST_TYPE (n : Nat) : Nat := 0x01000210 + n * 0x100000
def F.LNn_ASSIST_TYPE_TYPE (n : Nat) : Fld := ⟨R.LNn_ASSIST_TYPE n, 7, 0⟩
/-- LNn_VFY_CFG (R153): Verify set, iterations, rewrites, action. -/
def R.LNn_VFY_CFG (n : Nat) : Nat := 0x01000214 + n * 0x100000
def F.LNn_VFY_CFG_SET (n : Nat) : Fld := ⟨R.LNn_VFY_CFG n, 25, 24⟩
def F.LNn_VFY_CFG_ITER (n : Nat) : Fld := ⟨R.LNn_VFY_CFG n, 23, 20⟩
def F.LNn_VFY_CFG_REWRITES (n : Nat) : Fld := ⟨R.LNn_VFY_CFG n, 19, 16⟩
def F.LNn_VFY_CFG_ACTION (n : Nat) : Fld := ⟨R.LNn_VFY_CFG n, 0, 0⟩
/-- LNn_VFY_STAT (R153): Verify progress. -/
def R.LNn_VFY_STAT (n : Nat) : Nat := 0x01000218 + n * 0x100000
def F.LNn_VFY_STAT_PENDING (n : Nat) : Fld := ⟨R.LNn_VFY_STAT n, 15, 8⟩
def F.LNn_VFY_STAT_SAMPLE_CNT (n : Nat) : Fld := ⟨R.LNn_VFY_STAT n, 7, 0⟩
/-- LNn_WTBL_SEL (R153): Write-table index port selection. -/
def R.LNn_WTBL_SEL (n : Nat) : Nat := 0x0100021C + n * 0x100000
def F.LNn_WTBL_SEL_AUTOINC (n : Nat) : Fld := ⟨R.LNn_WTBL_SEL n, 31, 31⟩
def F.LNn_WTBL_SEL_TABLE (n : Nat) : Fld := ⟨R.LNn_WTBL_SEL n, 27, 24⟩
def F.LNn_WTBL_SEL_HEAD (n : Nat) : Fld := ⟨R.LNn_WTBL_SEL n, 23, 21⟩
def F.LNn_WTBL_SEL_ZONE (n : Nat) : Fld := ⟨R.LNn_WTBL_SEL n, 20, 16⟩
def F.LNn_WTBL_SEL_INDEX (n : Nat) : Fld := ⟨R.LNn_WTBL_SEL n, 7, 0⟩
/-- LNn_WTBL_DATA (R153): Write-table entry data. -/
def R.LNn_WTBL_DATA (n : Nat) : Nat := 0x01000220 + n * 0x100000
def F.LNn_WTBL_DATA_ENTRY (n : Nat) : Fld := ⟨R.LNn_WTBL_DATA n, 31, 0⟩
/-- LNn_WR_CNT (R153): Interrupted and relocated sectors. -/
def R.LNn_WR_CNT (n : Nat) : Nat := 0x01000224 + n * 0x100000
def F.LNn_WR_CNT_INTERRUPTED (n : Nat) : Fld := ⟨R.LNn_WR_CNT n, 31, 16⟩
def F.LNn_WR_CNT_RELOCATED (n : Nat) : Fld := ⟨R.LNn_WR_CNT n, 15, 0⟩
/-- LNn_VFY_CNT0 (R153): Verified sectors and misses. -/
def R.LNn_VFY_CNT0 (n : Nat) : Nat := 0x01000228 + n * 0x100000
def F.LNn_VFY_CNT0_VERIFIED (n : Nat) : Fld := ⟨R.LNn_VFY_CNT0 n, 31, 16⟩
def F.LNn_VFY_CNT0_MISSES (n : Nat) : Fld := ⟨R.LNn_VFY_CNT0 n, 15, 0⟩
/-- LNn_VFY_CNT1 (R153): Rewrites and skipped verifies. -/
def R.LNn_VFY_CNT1 (n : Nat) : Nat := 0x0100022C + n * 0x100000
def F.LNn_VFY_CNT1_REWRITTEN (n : Nat) : Fld := ⟨R.LNn_VFY_CNT1 n, 31, 16⟩
def F.LNn_VFY_CNT1_SKIPPED (n : Nat) : Fld := ⟨R.LNn_VFY_CNT1 n, 15, 0⟩
/-- SVn_CTL (R179): Engine and stage enables. -/
def R.SVn_CTL (n : Nat) : Nat := 0x02000000 + n * 0x100000
def F.SVn_CTL_MICRO_EN (n : Nat) : Fld := ⟨R.SVn_CTL n, 3, 3⟩
def F.SVn_CTL_MILLI_EN (n : Nat) : Fld := ⟨R.SVn_CTL n, 2, 2⟩
def F.SVn_CTL_CUR_LOOP_EN (n : Nat) : Fld := ⟨R.SVn_CTL n, 1, 1⟩
def F.SVn_CTL_ENABLE (n : Nat) : Fld := ⟨R.SVn_CTL n, 0, 0⟩
/-- SVn_STAT (R179): State, lock, cadence set, head. -/
def R.SVn_STAT (n : Nat) : Nat := 0x02000004 + n * 0x100000
def F.SVn_STAT_STATE (n : Nat) : Fld := ⟨R.SVn_STAT n, 31, 28⟩
def F.SVn_STAT_SYNC_LOCK (n : Nat) : Fld := ⟨R.SVn_STAT n, 27, 27⟩
def F.SVn_STAT_CAD_SET (n : Nat) : Fld := ⟨R.SVn_STAT n, 26, 25⟩
def F.SVn_STAT_CAD_CHANGE (n : Nat) : Fld := ⟨R.SVn_STAT n, 24, 24⟩
def F.SVn_STAT_HEAD (n : Nat) : Fld := ⟨R.SVn_STAT n, 23, 21⟩
/-- SVn_LAP (R179): Lap counter. -/
def R.SVn_LAP (n : Nat) : Nat := 0x02000008 + n * 0x100000
def F.SVn_LAP_LAP (n : Nat) : Fld := ⟨R.SVn_LAP n, 31, 10⟩
def F.SVn_LAP_WEDGE (n : Nat) : Fld := ⟨R.SVn_LAP n, 9, 0⟩
/-- SVn_TRACK (R179): Track at the last sample. -/
def R.SVn_TRACK (n : Nat) : Nat := 0x0200000C + n * 0x100000
def F.SVn_TRACK_TRACK (n : Nat) : Fld := ⟨R.SVn_TRACK n, 21, 0⟩
/-- SVn_PES (R179): Position error at the last sample. -/
def R.SVn_PES (n : Nat) : Nat := 0x02000010 + n * 0x100000
def F.SVn_PES_COAST (n : Nat) : Fld := ⟨R.SVn_PES n, 31, 31⟩
def F.SVn_PES_PES (n : Nat) : Fld := ⟨R.SVn_PES n, 15, 0⟩
/-- SVn_SAFE (R179): Read-safe and write-safe limits. -/
def R.SVn_SAFE (n : Nat) : Nat := 0x02000014 + n * 0x100000
def F.SVn_SAFE_RD_LIM (n : Nat) : Fld := ⟨R.SVn_SAFE n, 31, 16⟩
def F.SVn_SAFE_WR_LIM (n : Nat) : Fld := ⟨R.SVn_SAFE n, 15, 0⟩
/-- SVn_OFS (R179): Off-track offset in effect. -/
def R.SVn_OFS (n : Nat) : Nat := 0x02000018 + n * 0x100000
def F.SVn_OFS_OFS (n : Nat) : Fld := ⟨R.SVn_OFS n, 15, 0⟩
/-- SVn_SYNC_CFG (R179): Window, miss limit, track tolerance. -/
def R.SVn_SYNC_CFG (n : Nat) : Nat := 0x0200001C + n * 0x100000
def F.SVn_SYNC_CFG_TID_TOL (n : Nat) : Fld := ⟨R.SVn_SYNC_CFG n, 23, 16⟩
def F.SVn_SYNC_CFG_MISS_MAX (n : Nat) : Fld := ⟨R.SVn_SYNC_CFG n, 15, 12⟩
def F.SVn_SYNC_CFG_WIN (n : Nat) : Fld := ⟨R.SVn_SYNC_CFG n, 7, 0⟩
/-- SVn_PERIOD (R179): Measured wedge period. -/
def R.SVn_PERIOD (n : Nat) : Nat := 0x02000020 + n * 0x100000
def F.SVn_PERIOD_PERIOD (n : Nat) : Fld := ⟨R.SVn_PERIOD n, 23, 0⟩
/-- SVn_FLT_STAT (R179): Fault conditions seen. -/
def R.SVn_FLT_STAT (n : Nat) : Nat := 0x02000024 + n * 0x100000
def F.SVn_FLT_STAT_FLT (n : Nat) : Fld := ⟨R.SVn_FLT_STAT n, 9, 0⟩
/-- SVn_FLT_CNT (R179): Missed syncs and bad track numbers. -/
def R.SVn_FLT_CNT (n : Nat) : Nat := 0x02000028 + n * 0x100000
def F.SVn_FLT_CNT_SYNC_MISS (n : Nat) : Fld := ⟨R.SVn_FLT_CNT n, 31, 16⟩
def F.SVn_FLT_CNT_TID_BAD (n : Nat) : Fld := ⟨R.SVn_FLT_CNT n, 15, 0⟩
/-- SVn_ABA_CNT (R179): Saturated outputs and exponent underflows. -/
def R.SVn_ABA_CNT (n : Nat) : Nat := 0x0200002C + n * 0x100000
def F.SVn_ABA_CNT_OUT_SAT (n : Nat) : Fld := ⟨R.SVn_ABA_CNT n, 31, 16⟩
def F.SVn_ABA_CNT_EXP_UFL (n : Nat) : Fld := ⟨R.SVn_ABA_CNT n, 15, 0⟩
/-- SVn_CUR_CFG (R179): Current divergence limit. -/
def R.SVn_CUR_CFG (n : Nat) : Nat := 0x02000030 + n * 0x100000
def F.SVn_CUR_CFG_DIV_TICKS (n : Nat) : Fld := ⟨R.SVn_CUR_CFG n, 23, 20⟩
def F.SVn_CUR_CFG_DIV_LIM (n : Nat) : Fld := ⟨R.SVn_CUR_CFG n, 19, 0⟩
/-- SVn_COEF_SEL (R179): Coefficient index port selection. -/
def R.SVn_COEF_SEL (n : Nat) : Nat := 0x02000034 + n * 0x100000
def F.SVn_COEF_SEL_AUTOINC (n : Nat) : Fld := ⟨R.SVn_COEF_SEL n, 31, 31⟩
def F.SVn_COEF_SEL_CAD (n : Nat) : Fld := ⟨R.SVn_COEF_SEL n, 25, 24⟩
def F.SVn_COEF_SEL_INDEX (n : Nat) : Fld := ⟨R.SVn_COEF_SEL n, 11, 0⟩
/-- SVn_COEF_DATA (R179): Selected coefficient word. -/
def R.SVn_COEF_DATA (n : Nat) : Nat := 0x02000038 + n * 0x100000
def F.SVn_COEF_DATA_EXP (n : Nat) : Fld := ⟨R.SVn_COEF_DATA n, 29, 24⟩
def F.SVn_COEF_DATA_MANT (n : Nat) : Fld := ⟨R.SVn_COEF_DATA n, 23, 0⟩
/-- MOT_CTL (R180): Link enable, supply-flag policy. -/
def R.MOT_CTL : Nat := 0x0A000000
def F.MOT_CTL_SUPPLY_PF : Fld := ⟨R.MOT_CTL, 1, 1⟩
def F.MOT_CTL_ENABLE : Fld := ⟨R.MOT_CTL, 0, 0⟩
/-- MOT_STAT (R180): Link state and current flags. -/
def R.MOT_STAT : Nat := 0x0A000004
def F.MOT_STAT_LINK_UP : Fld := ⟨R.MOT_STAT, 31, 31⟩
def F.MOT_STAT_SHOCK : Fld := ⟨R.MOT_STAT, 30, 27⟩
def F.MOT_STAT_SUPPLY_LOW : Fld := ⟨R.MOT_STAT, 26, 23⟩
def F.MOT_STAT_OVERTEMP : Fld := ⟨R.MOT_STAT, 22, 22⟩
def F.MOT_STAT_RETRACTING : Fld := ⟨R.MOT_STAT, 21, 18⟩
/-- MOT_FLAGS (R180): Sticky flags. -/
def R.MOT_FLAGS : Nat := 0x0A000008
def F.MOT_FLAGS_SHOCK : Fld := ⟨R.MOT_FLAGS, 12, 9⟩
def F.MOT_FLAGS_SUPPLY_LOW : Fld := ⟨R.MOT_FLAGS, 8, 5⟩
def F.MOT_FLAGS_OVERTEMP : Fld := ⟨R.MOT_FLAGS, 4, 4⟩
def F.MOT_FLAGS_LINK_LOST : Fld := ⟨R.MOT_FLAGS, 3, 3⟩
/-- MOT_CNT (R180): Inbound check errors and gaps. -/
def R.MOT_CNT : Nat := 0x0A00000C
def F.MOT_CNT_RX_CRC : Fld := ⟨R.MOT_CNT, 31, 16⟩
def F.MOT_CNT_RX_GAP : Fld := ⟨R.MOT_CNT, 15, 0⟩
/-- SVn_PACE_CTL (R199): Replanning and mailbox source. -/
def R.SVn_PACE_CTL (n : Nat) : Nat := 0x02000100 + n * 0x100000
def F.SVn_PACE_CTL_SRC (n : Nat) : Fld := ⟨R.SVn_PACE_CTL n, 1, 1⟩
def F.SVn_PACE_CTL_REPLAN (n : Nat) : Fld := ⟨R.SVn_PACE_CTL n, 0, 0⟩
/-- SVn_PACE_CMD (R199): Load, unload, retract, clear fault. -/
def R.SVn_PACE_CMD (n : Nat) : Nat := 0x02000104 + n * 0x100000
def F.SVn_PACE_CMD_CMD (n : Nat) : Fld := ⟨R.SVn_PACE_CMD n, 2, 0⟩
/-- SVn_PACE_STAT (R199): Rejections, trips, last completed tag. -/
def R.SVn_PACE_STAT (n : Nat) : Nat := 0x02000108 + n * 0x100000
def F.SVn_PACE_STAT_TAG (n : Nat) : Fld := ⟨R.SVn_PACE_STAT n, 31, 24⟩
def F.SVn_PACE_STAT_CMD_REJ (n : Nat) : Fld := ⟨R.SVn_PACE_STAT n, 15, 15⟩
def F.SVn_PACE_STAT_SRC_REJ (n : Nat) : Fld := ⟨R.SVn_PACE_STAT n, 14, 14⟩
def F.SVn_PACE_STAT_FE_TRIP (n : Nat) : Fld := ⟨R.SVn_PACE_STAT n, 13, 13⟩
def F.SVn_PACE_STAT_FE_RETRACT (n : Nat) : Fld := ⟨R.SVn_PACE_STAT n, 12, 12⟩
def F.SVn_PACE_STAT_SETTLE_TO (n : Nat) : Fld := ⟨R.SVn_PACE_STAT n, 11, 11⟩
def F.SVn_PACE_STAT_LOAD_FAIL (n : Nat) : Fld := ⟨R.SVn_PACE_STAT n, 10, 10⟩
/-- SVn_PACE_VMAX (R199): Velocity limit and ceiling. -/
def R.SVn_PACE_VMAX (n : Nat) : Nat := 0x0200010C + n * 0x100000
def F.SVn_PACE_VMAX_CEIL (n : Nat) : Fld := ⟨R.SVn_PACE_VMAX n, 31, 16⟩
def F.SVn_PACE_VMAX_VMAX (n : Nat) : Fld := ⟨R.SVn_PACE_VMAX n, 15, 0⟩
/-- SVn_PACE_AMAX (R199): Acceleration limit and ceiling. -/
def R.SVn_PACE_AMAX (n : Nat) : Nat := 0x02000110 + n * 0x100000
def F.SVn_PACE_AMAX_CEIL (n : Nat) : Fld := ⟨R.SVn_PACE_AMAX n, 31, 16⟩
def F.SVn_PACE_AMAX_AMAX (n : Nat) : Fld := ⟨R.SVn_PACE_AMAX n, 15, 0⟩
/-- SVn_PACE_JMAX (R199): Jerk limit and ceiling. -/
def R.SVn_PACE_JMAX (n : Nat) : Nat := 0x02000114 + n * 0x100000
def F.SVn_PACE_JMAX_CEIL (n : Nat) : Fld := ⟨R.SVn_PACE_JMAX n, 31, 16⟩
def F.SVn_PACE_JMAX_JMAX (n : Nat) : Fld := ⟨R.SVn_PACE_JMAX n, 15, 0⟩
/-- SVn_PACE_TGT_LO (R199): Mailbox entry bits [31:0]; commits the entry (R16). -/
def R.SVn_PACE_TGT_LO (n : Nat) : Nat := 0x02000118 + n * 0x100000
def F.SVn_PACE_TGT_LO_ENTRY_LO (n : Nat) : Fld := ⟨R.SVn_PACE_TGT_LO n, 31, 0⟩
/-- SVn_PACE_TGT_HI (R199): Mailbox entry bits [63:32]. -/
def R.SVn_PACE_TGT_HI (n : Nat) : Nat := 0x0200011C + n * 0x100000
def F.SVn_PACE_TGT_HI_ENTRY_HI (n : Nat) : Fld := ⟨R.SVn_PACE_TGT_HI n, 31, 0⟩
/-- SVn_PACE_FE (R199): Following-error limit, wedges, retries. -/
def R.SVn_PACE_FE (n : Nat) : Nat := 0x02000120 + n * 0x100000
def F.SVn_PACE_FE_RETRY (n : Nat) : Fld := ⟨R.SVn_PACE_FE n, 23, 20⟩
def F.SVn_PACE_FE_WEDGES (n : Nat) : Fld := ⟨R.SVn_PACE_FE n, 19, 16⟩
def F.SVn_PACE_FE_LIM (n : Nat) : Fld := ⟨R.SVn_PACE_FE n, 15, 0⟩
/-- SVn_PACE_SETTLE (R199): Settle limit, wedges, timeout. -/
def R.SVn_PACE_SETTLE (n : Nat) : Nat := 0x02000124 + n * 0x100000
def F.SVn_PACE_SETTLE_MAX (n : Nat) : Fld := ⟨R.SVn_PACE_SETTLE n, 31, 24⟩
def F.SVn_PACE_SETTLE_WEDGES (n : Nat) : Fld := ⟨R.SVn_PACE_SETTLE n, 23, 20⟩
def F.SVn_PACE_SETTLE_LIM (n : Nat) : Fld := ⟨R.SVn_PACE_SETTLE n, 15, 0⟩
/-- SVn_PACE_LOAD (R199): Retract time, load retries, acquisition, load timeout. -/
def R.SVn_PACE_LOAD (n : Nat) : Nat := 0x02000128 + n * 0x100000
def F.SVn_PACE_LOAD_RET_TIME (n : Nat) : Fld := ⟨R.SVn_PACE_LOAD n, 31, 24⟩
def F.SVn_PACE_LOAD_RETRY (n : Nat) : Fld := ⟨R.SVn_PACE_LOAD n, 23, 20⟩
def F.SVn_PACE_LOAD_ACQ_WEDGES (n : Nat) : Fld := ⟨R.SVn_PACE_LOAD n, 19, 16⟩
def F.SVn_PACE_LOAD_MAX (n : Nat) : Fld := ⟨R.SVn_PACE_LOAD n, 15, 0⟩
/-- SVn_PACE_RET (R199): Unload and emergency retract voltages. -/
def R.SVn_PACE_RET (n : Nat) : Nat := 0x0200012C + n * 0x100000
def F.SVn_PACE_RET_ULD_V (n : Nat) : Fld := ⟨R.SVn_PACE_RET n, 31, 16⟩
def F.SVn_PACE_RET_EMER_V (n : Nat) : Fld := ⟨R.SVn_PACE_RET n, 15, 0⟩
/-- SVn_PACE_POS (R199): Reference position at the last wedge. -/
def R.SVn_PACE_POS (n : Nat) : Nat := 0x02000130 + n * 0x100000
def F.SVn_PACE_POS_POS (n : Nat) : Fld := ⟨R.SVn_PACE_POS n, 31, 0⟩
/-- SVn_PACE_ERR (R199): Last following error. -/
def R.SVn_PACE_ERR (n : Nat) : Nat := 0x02000134 + n * 0x100000
def F.SVn_PACE_ERR_FE (n : Nat) : Fld := ⟨R.SVn_PACE_ERR n, 15, 0⟩
/-- SVn_PACE_CNT (R199): Trips, settle timeouts, dropped and overwritten targets. -/
def R.SVn_PACE_CNT (n : Nat) : Nat := 0x02000138 + n * 0x100000
def F.SVn_PACE_CNT_FE_TRIPS (n : Nat) : Fld := ⟨R.SVn_PACE_CNT n, 31, 24⟩
def F.SVn_PACE_CNT_SETTLE_TO (n : Nat) : Fld := ⟨R.SVn_PACE_CNT n, 23, 16⟩
def F.SVn_PACE_CNT_DROP (n : Nat) : Fld := ⟨R.SVn_PACE_CNT n, 15, 8⟩
def F.SVn_PACE_CNT_OVERWRITE (n : Nat) : Fld := ⟨R.SVn_PACE_CNT n, 7, 0⟩
/-- SPM_CMD (R221): Start, brake, clear fault. -/
def R.SPM_CMD : Nat := 0x02800000
def F.SPM_CMD_CMD : Fld := ⟨R.SPM_CMD, 1, 0⟩
/-- SPM_STAT (R221): State, cadence, attempt. -/
def R.SPM_STAT : Nat := 0x02800004
def F.SPM_STAT_STATE : Fld := ⟨R.SPM_STAT, 31, 28⟩
def F.SPM_STAT_AT_SPEED : Fld := ⟨R.SPM_STAT, 27, 27⟩
def F.SPM_STAT_CAD : Fld := ⟨R.SPM_STAT, 26, 25⟩
def F.SPM_STAT_ATTEMPT : Fld := ⟨R.SPM_STAT, 24, 22⟩
/-- SPM_FLT (R221): Failure flags. -/
def R.SPM_FLT : Nat := 0x02800008
def F.SPM_FLT_SPIN_TIMEOUT : Fld := ⟨R.SPM_FLT, 7, 7⟩
def F.SPM_FLT_REQ_REJ : Fld := ⟨R.SPM_FLT, 6, 6⟩
def F.SPM_FLT_CAD_TIMEOUT : Fld := ⟨R.SPM_FLT, 5, 5⟩
def F.SPM_FLT_REG_LOST : Fld := ⟨R.SPM_FLT, 4, 4⟩
def F.SPM_FLT_KE_REFUSED : Fld := ⟨R.SPM_FLT, 3, 3⟩
def F.SPM_FLT_START_FAIL : Fld := ⟨R.SPM_FLT, 2, 2⟩
def F.SPM_FLT_NO_HANDOVER : Fld := ⟨R.SPM_FLT, 1, 1⟩
def F.SPM_FLT_REVERSE : Fld := ⟨R.SPM_FLT, 0, 0⟩
/-- SPM_START_CFG (R221): Handover, retries, current limit, pulse. -/
def R.SPM_START_CFG : Nat := 0x0280000C
def F.SPM_START_CFG_HANDOVER : Fld := ⟨R.SPM_START_CFG, 31, 24⟩
def F.SPM_START_CFG_RETRY : Fld := ⟨R.SPM_START_CFG, 22, 20⟩
def F.SPM_START_CFG_ILIM : Fld := ⟨R.SPM_START_CFG, 19, 8⟩
def F.SPM_START_CFG_PULSE : Fld := ⟨R.SPM_START_CFG, 7, 0⟩
/-- SPM_START_TIME (R221): Retry wait, spin-up and open-loop limits. -/
def R.SPM_START_TIME : Nat := 0x02800010
def F.SPM_START_TIME_RETRY_WAIT : Fld := ⟨R.SPM_START_TIME, 31, 24⟩
def F.SPM_START_TIME_SPIN_MAX : Fld := ⟨R.SPM_START_TIME, 23, 16⟩
def F.SPM_START_TIME_OPEN_MAX : Fld := ⟨R.SPM_START_TIME, 15, 0⟩
/-- SPM_KE (R221): Image and measured back-EMF constant. -/
def R.SPM_KE : Nat := 0x02800014
def F.SPM_KE_KE_IMG : Fld := ⟨R.SPM_KE, 31, 16⟩
def F.SPM_KE_KE_MEAS : Fld := ⟨R.SPM_KE, 15, 0⟩
/-- SPM_SPEED (R221): Measured speed. -/
def R.SPM_SPEED : Nat := 0x02800018
def F.SPM_SPEED_SPEED : Fld := ⟨R.SPM_SPEED, 16, 0⟩
/-- SPM_CAD_REQ (R221): Requested cadence. -/
def R.SPM_CAD_REQ : Nat := 0x0280001C
def F.SPM_CAD_REQ_CAD : Fld := ⟨R.SPM_CAD_REQ, 1, 0⟩
/-- SPM_CAD_CFG (R221): Lock revolutions, settle limit, ramp rate. -/
def R.SPM_CAD_CFG : Nat := 0x02800020
def F.SPM_CAD_CFG_LOCK_REVS : Fld := ⟨R.SPM_CAD_CFG, 27, 24⟩
def F.SPM_CAD_CFG_SETTLE_MAX : Fld := ⟨R.SPM_CAD_CFG, 23, 16⟩
def F.SPM_CAD_CFG_RATE : Fld := ⟨R.SPM_CAD_CFG, 15, 0⟩
/-- SPM_CAD_STAT (R221): Last lane pause. -/
def R.SPM_CAD_STAT : Nat := 0x02800024
def F.SPM_CAD_STAT_LAST_PAUSE : Fld := ⟨R.SPM_CAD_STAT, 23, 0⟩
/-- SPM_REG_CFG (R221): Regulation tolerances. -/
def R.SPM_REG_CFG : Nat := 0x02800028
def F.SPM_REG_CFG_FAULT_REVS : Fld := ⟨R.SPM_REG_CFG, 23, 16⟩
def F.SPM_REG_CFG_FAULT_TOL : Fld := ⟨R.SPM_REG_CFG, 15, 8⟩
def F.SPM_REG_CFG_LOCK_TOL : Fld := ⟨R.SPM_REG_CFG, 7, 0⟩
/-- SPM_BRAKE_CFG (R221): Stop threshold, probe period. -/
def R.SPM_BRAKE_CFG : Nat := 0x0280002C
def F.SPM_BRAKE_CFG_STOP_MV : Fld := ⟨R.SPM_BRAKE_CFG, 19, 8⟩
def F.SPM_BRAKE_CFG_PROBE_MS : Fld := ⟨R.SPM_BRAKE_CFG, 7, 0⟩
/-- SPM_PF_CFG (R221): Power-fail coast time. -/
def R.SPM_PF_CFG : Nat := 0x02800030
def F.SPM_PF_CFG_COAST_MS : Fld := ⟨R.SPM_PF_CFG, 15, 0⟩
/-- SPM_CNT (R221): Starts, failures, tolerated reversals, late commutations. -/
def R.SPM_CNT : Nat := 0x02800034
def F.SPM_CNT_STARTS : Fld := ⟨R.SPM_CNT, 31, 24⟩
def F.SPM_CNT_FAILED : Fld := ⟨R.SPM_CNT, 23, 16⟩
def F.SPM_CNT_REV_TOL : Fld := ⟨R.SPM_CNT, 15, 8⟩
def F.SPM_CNT_LATE_COMM : Fld := ⟨R.SPM_CNT, 7, 0⟩
/-- MOT_SPN_BEMF (R222): Last valid BEMF frame. -/
def R.MOT_SPN_BEMF : Nat := 0x0A000010
def F.MOT_SPN_BEMF_I_MEAS : Fld := ⟨R.MOT_SPN_BEMF, 31, 20⟩
def F.MOT_SPN_BEMF_PULSE_END : Fld := ⟨R.MOT_SPN_BEMF, 19, 19⟩
def F.MOT_SPN_BEMF_V_FLOAT : Fld := ⟨R.MOT_SPN_BEMF, 18, 8⟩
def F.MOT_SPN_BEMF_ZC_RISE : Fld := ⟨R.MOT_SPN_BEMF, 7, 7⟩
def F.MOT_SPN_BEMF_ZC : Fld := ⟨R.MOT_SPN_BEMF, 6, 6⟩
def F.MOT_SPN_BEMF_FLOAT : Fld := ⟨R.MOT_SPN_BEMF, 5, 4⟩
/-- MOT_SPN_CMD (R222): Last SPINDLE frame sent. -/
def R.MOT_SPN_CMD : Nat := 0x0A000014
def F.MOT_SPN_CMD_ILIM : Fld := ⟨R.MOT_SPN_CMD, 31, 20⟩
def F.MOT_SPN_CMD_DRIVE : Fld := ⟨R.MOT_SPN_CMD, 19, 8⟩
def F.MOT_SPN_CMD_STATE : Fld := ⟨R.MOT_SPN_CMD, 2, 0⟩
/-- MSn_CTL (R247): Run, resume, breakpoints, interrupt enables. -/
def R.MSn_CTL (n : Nat) : Nat := 0x03000000 + n * 0x40000
def F.MSn_CTL_RUN (n : Nat) : Fld := ⟨R.MSn_CTL n, 31, 31⟩
def F.MSn_CTL_RESUME (n : Nat) : Fld := ⟨R.MSn_CTL n, 30, 30⟩
def F.MSn_CTL_BKPT_EN (n : Nat) : Fld := ⟨R.MSn_CTL n, 29, 29⟩
def F.MSn_CTL_INT_EN (n : Nat) : Fld := ⟨R.MSn_CTL n, 6, 0⟩
/-- MSn_STAT (R247): State, mask, gate, stack, head, address. -/
def R.MSn_STAT (n : Nat) : Nat := 0x03000004 + n * 0x40000
def F.MSn_STAT_STATE (n : Nat) : Fld := ⟨R.MSn_STAT n, 31, 28⟩
def F.MSn_STAT_MASK (n : Nat) : Fld := ⟨R.MSn_STAT n, 27, 27⟩
def F.MSn_STAT_GATE (n : Nat) : Fld := ⟨R.MSn_STAT n, 26, 25⟩
def F.MSn_STAT_DEPTH (n : Nat) : Fld := ⟨R.MSn_STAT n, 24, 22⟩
def F.MSn_STAT_HD (n : Nat) : Fld := ⟨R.MSn_STAT n, 21, 19⟩
def F.MSn_STAT_MODE_HALT (n : Nat) : Fld := ⟨R.MSn_STAT n, 18, 18⟩
def F.MSn_STAT_PC (n : Nat) : Fld := ⟨R.MSn_STAT n, 11, 0⟩
/-- MSn_TRAP (R247): Cause and addresses of the last trap or halt. -/
def R.MSn_TRAP (n : Nat) : Nat := 0x03000008 + n * 0x40000
def F.MSn_TRAP_CAUSE (n : Nat) : Fld := ⟨R.MSn_TRAP n, 31, 24⟩
def F.MSn_TRAP_RET (n : Nat) : Fld := ⟨R.MSn_TRAP n, 23, 12⟩
def F.MSn_TRAP_PC (n : Nat) : Fld := ⟨R.MSn_TRAP n, 11, 0⟩
/-- MSn_TRAP_LC (R247): Loop counters at the last trap. -/
def R.MSn_TRAP_LC (n : Nat) : Nat := 0x0300000C + n * 0x40000
def F.MSn_TRAP_LC_LC1 (n : Nat) : Fld := ⟨R.MSn_TRAP_LC n, 31, 16⟩
def F.MSn_TRAP_LC_LC0 (n : Nat) : Fld := ⟨R.MSn_TRAP_LC n, 15, 0⟩
/-- MSn_TRAP_AUX (R247): Gate mode and pending interrupts at the last trap. -/
def R.MSn_TRAP_AUX (n : Nat) : Nat := 0x03000010 + n * 0x40000
def F.MSn_TRAP_AUX_GATE_AT (n : Nat) : Fld := ⟨R.MSn_TRAP_AUX n, 31, 30⟩
def F.MSn_TRAP_AUX_PENDING (n : Nat) : Fld := ⟨R.MSn_TRAP_AUX n, 29, 23⟩
/-- MSn_INT (R247): Pending interrupts. -/
def R.MSn_INT (n : Nat) : Nat := 0x03000014 + n * 0x40000
def F.MSn_INT_FW (n : Nat) : Fld := ⟨R.MSn_INT n, 6, 6⟩
def F.MSn_INT_PEND (n : Nat) : Fld := ⟨R.MSn_INT n, 5, 0⟩
/-- MSn_UCODE_VER (R247): VERSION of the loaded store. -/
def R.MSn_UCODE_VER (n : Nat) : Nat := 0x03000018 + n * 0x40000
def F.MSn_UCODE_VER_VERSION (n : Nat) : Fld := ⟨R.MSn_UCODE_VER n, 31, 0⟩
/-- MSn_UCODE_DIG (R247): First four digest bytes. -/
def R.MSn_UCODE_DIG (n : Nat) : Nat := 0x0300001C + n * 0x40000
def F.MSn_UCODE_DIG_DIG (n : Nat) : Fld := ⟨R.MSn_UCODE_DIG n, 31, 0⟩
/-- MSn_US_SEL (R247): Store read-port selection. -/
def R.MSn_US_SEL (n : Nat) : Nat := 0x03000020 + n * 0x40000
def F.MSn_US_SEL_AUTOINC (n : Nat) : Fld := ⟨R.MSn_US_SEL n, 31, 31⟩
def F.MSn_US_SEL_CHUNK (n : Nat) : Fld := ⟨R.MSn_US_SEL n, 18, 16⟩
def F.MSn_US_SEL_ADDR (n : Nat) : Fld := ⟨R.MSn_US_SEL n, 11, 0⟩
/-- MSn_US_DATA (R247): Selected store chunk. -/
def R.MSn_US_DATA (n : Nat) : Nat := 0x03000024 + n * 0x40000
def F.MSn_US_DATA_DATA (n : Nat) : Fld := ⟨R.MSn_US_DATA n, 31, 0⟩
/-- MSn_WREG_SEL (R247): Sequencer register selection. -/
def R.MSn_WREG_SEL (n : Nat) : Nat := 0x03000028 + n * 0x40000
def F.MSn_WREG_SEL_SEL (n : Nat) : Fld := ⟨R.MSn_WREG_SEL n, 3, 0⟩
/-- MSn_WREG_DATA (R247): Selected sequencer register. -/
def R.MSn_WREG_DATA (n : Nat) : Nat := 0x0300002C + n * 0x40000
def F.MSn_WREG_DATA_VALUE (n : Nat) : Fld := ⟨R.MSn_WREG_DATA n, 23, 0⟩
/-- MSn_CNT (R247): Slips, word faults, forced halts. -/
def R.MSn_CNT (n : Nat) : Nat := 0x03000030 + n * 0x40000
def F.MSn_CNT_SLIPS (n : Nat) : Fld := ⟨R.MSn_CNT n, 31, 16⟩
def F.MSn_CNT_FAULTS (n : Nat) : Fld := ⟨R.MSn_CNT n, 15, 8⟩
def F.MSn_CNT_FORCED (n : Nat) : Fld := ⟨R.MSn_CNT n, 7, 0⟩
/-- BND_CTL (R277): Regions per lane, journal copies, power-loss note. -/
def R.BND_CTL : Nat := 0x04000000
def F.BND_CTL_PRELIST : Fld := ⟨R.BND_CTL, 11, 8⟩
def F.BND_CTL_OPEN_MAX : Fld := ⟨R.BND_CTL, 7, 4⟩
def F.BND_CTL_USE_NOTE : Fld := ⟨R.BND_CTL, 1, 1⟩
def F.BND_CTL_ONE_COPY : Fld := ⟨R.BND_CTL, 0, 0⟩
/-- BND_STAT (R277): Map state. -/
def R.BND_STAT : Nat := 0x04000004
def F.BND_STAT_STATE : Fld := ⟨R.BND_STAT, 31, 28⟩
def F.BND_STAT_SCANNING : Fld := ⟨R.BND_STAT, 27, 24⟩
def F.BND_STAT_REGIONS_LEFT : Fld := ⟨R.BND_STAT, 15, 0⟩
/-- BND_JNL_CFG (R277): Flush triggers. -/
def R.BND_JNL_CFG : Nat := 0x04000008
def F.BND_JNL_CFG_ENTRIES : Fld := ⟨R.BND_JNL_CFG, 31, 16⟩
def F.BND_JNL_CFG_INTERVAL : Fld := ⟨R.BND_JNL_CFG, 15, 0⟩
/-- BND_JNL_STAT (R277): Pending entries, flush in progress. -/
def R.BND_JNL_STAT : Nat := 0x0400000C
def F.BND_JNL_STAT_FLUSHING : Fld := ⟨R.BND_JNL_STAT, 31, 31⟩
def F.BND_JNL_STAT_HELD : Fld := ⟨R.BND_JNL_STAT, 30, 30⟩
def F.BND_JNL_STAT_PENDING : Fld := ⟨R.BND_JNL_STAT, 15, 0⟩
/-- BND_CKPT_NUM (R277): Last checkpoint on the media. -/
def R.BND_CKPT_NUM : Nat := 0x04000010
def F.BND_CKPT_NUM_NUM : Fld := ⟨R.BND_CKPT_NUM, 31, 0⟩
/-- BND_SEQ_LO (R277): Counter bits [31:0] (R16). -/
def R.BND_SEQ_LO : Nat := 0x04000014
def F.BND_SEQ_LO_SEQ_LO : Fld := ⟨R.BND_SEQ_LO, 31, 0⟩
/-- BND_SEQ_HI (R277): Counter bits [47:32]. -/
def R.BND_SEQ_HI : Nat := 0x04000018
def F.BND_SEQ_HI_SEQ_HI : Fld := ⟨R.BND_SEQ_HI, 15, 0⟩
/-- BND_VFY_CFG (R277): Band overrides supplied. -/
def R.BND_VFY_CFG : Nat := 0x0400001C
def F.BND_VFY_CFG_MC : Fld := ⟨R.BND_VFY_CFG, 5, 4⟩
def F.BND_VFY_CFG_NEW : Fld := ⟨R.BND_VFY_CFG, 3, 2⟩
/-- BND_IMG_CFG (R277): Map-image trigger. -/
def R.BND_IMG_CFG : Nat := 0x04000020
def F.BND_IMG_CFG_ENTRIES : Fld := ⟨R.BND_IMG_CFG, 15, 0⟩
/-- BND_CMD (R277): Forced flush and image. -/
def R.BND_CMD : Nat := 0x04000024
def F.BND_CMD_IMAGE : Fld := ⟨R.BND_CMD, 1, 1⟩
def F.BND_CMD_FLUSH : Fld := ⟨R.BND_CMD, 0, 0⟩
/-- BND_MC_STAT (R277): Media-cache and MCI fill. -/
def R.BND_MC_STAT : Nat := 0x04000028
def F.BND_MC_STAT_MC_FILL : Fld := ⟨R.BND_MC_STAT, 31, 16⟩
def F.BND_MC_STAT_MCI_USE : Fld := ⟨R.BND_MC_STAT, 15, 0⟩
/-- BND_REBUILD (R277): Last scan. -/
def R.BND_REBUILD : Nat := 0x0400002C
def F.BND_REBUILD_SCAN_MS : Fld := ⟨R.BND_REBUILD, 31, 16⟩
def F.BND_REBUILD_REGIONS : Fld := ⟨R.BND_REBUILD, 15, 0⟩
/-- BND_FLT (R277): Map events. -/
def R.BND_FLT : Nat := 0x04000030
def F.BND_FLT_NOTE_BAD : Fld := ⟨R.BND_FLT, 4, 4⟩
def F.BND_FLT_JNL_COPY : Fld := ⟨R.BND_FLT, 3, 3⟩
def F.BND_FLT_RANGE_RB : Fld := ⟨R.BND_FLT, 2, 2⟩
def F.BND_FLT_REWRITE_DISCARD : Fld := ⟨R.BND_FLT, 1, 1⟩
def F.BND_FLT_LOST : Fld := ⟨R.BND_FLT, 0, 0⟩
/-- BND_CNT (R277): Relocations. -/
def R.BND_CNT : Nat := 0x04000034
def F.BND_CNT_RELOC_PLACED : Fld := ⟨R.BND_CNT, 31, 16⟩
def F.BND_CNT_RELOC_DROPPED : Fld := ⟨R.BND_CNT, 15, 0⟩
/-- BND_WEAR_CFG (R301): Wear weights. -/
def R.BND_WEAR_CFG : Nat := 0x04000100
def F.BND_WEAR_CFG_WR : Fld := ⟨R.BND_WEAR_CFG, 15, 8⟩
def F.BND_WEAR_CFG_WD : Fld := ⟨R.BND_WEAR_CFG, 7, 0⟩
/-- BND_MIG_CFG (R301): Migration spread, hysteresis, coldness. -/
def R.BND_MIG_CFG : Nat := 0x04000104
def F.BND_MIG_CFG_SPREAD : Fld := ⟨R.BND_MIG_CFG, 31, 16⟩
def F.BND_MIG_CFG_EN : Fld := ⟨R.BND_MIG_CFG, 15, 15⟩
def F.BND_MIG_CFG_HYST : Fld := ⟨R.BND_MIG_CFG, 14, 8⟩
def F.BND_MIG_CFG_COLD_SHIFT : Fld := ⟨R.BND_MIG_CFG, 5, 0⟩
/-- BND_GC_CFG (R301): Score weights, age scale, foreground share. -/
def R.BND_GC_CFG : Nat := 0x04000108
def F.BND_GC_CFG_KV : Fld := ⟨R.BND_GC_CFG, 31, 28⟩
def F.BND_GC_CFG_KA : Fld := ⟨R.BND_GC_CFG, 27, 24⟩
def F.BND_GC_CFG_KW : Fld := ⟨R.BND_GC_CFG, 23, 20⟩
def F.BND_GC_CFG_AGE_SHIFT : Fld := ⟨R.BND_GC_CFG, 19, 14⟩
def F.BND_GC_CFG_FG_SHARE : Fld := ⟨R.BND_GC_CFG, 13, 8⟩
/-- BND_GC_THR (R301): Media-cache thresholds. -/
def R.BND_GC_THR : Nat := 0x0400010C
def F.BND_GC_THR_BG_MC : Fld := ⟨R.BND_GC_THR, 31, 24⟩
def F.BND_GC_THR_FG_MC : Fld := ⟨R.BND_GC_THR, 23, 16⟩
def F.BND_GC_THR_HARD_MC : Fld := ⟨R.BND_GC_THR, 15, 8⟩
/-- BND_GC_BANDS (R301): Free-band thresholds. -/
def R.BND_GC_BANDS : Nat := 0x04000110
def F.BND_GC_BANDS_BG_FB : Fld := ⟨R.BND_GC_BANDS, 23, 16⟩
def F.BND_GC_BANDS_FG_FB : Fld := ⟨R.BND_GC_BANDS, 15, 8⟩
def F.BND_GC_BANDS_HARD_FB : Fld := ⟨R.BND_GC_BANDS, 7, 0⟩
/-- BND_GC_STAT (R301): Levels, rewrites and migrations in progress. -/
def R.BND_GC_STAT : Nat := 0x04000114
def F.BND_GC_STAT_REWRITING : Fld := ⟨R.BND_GC_STAT, 31, 28⟩
def F.BND_GC_STAT_MIGRATING : Fld := ⟨R.BND_GC_STAT, 27, 24⟩
def F.BND_GC_STAT_LEVEL : Fld := ⟨R.BND_GC_STAT, 7, 0⟩
/-- BND_PATROL_CFG (R301): Patrol period, disturbance trigger, urgency. -/
def R.BND_PATROL_CFG : Nat := 0x04000118
def F.BND_PATROL_CFG_PERIOD : Fld := ⟨R.BND_PATROL_CFG, 31, 16⟩
def F.BND_PATROL_CFG_DIST_PATROL : Fld := ⟨R.BND_PATROL_CFG, 15, 8⟩
def F.BND_PATROL_CFG_URGENT : Fld := ⟨R.BND_PATROL_CFG, 7, 0⟩
/-- BND_WEAK_CFG (R301): Weak-count triggers. -/
def R.BND_WEAK_CFG : Nat := 0x0400011C
def F.BND_WEAK_CFG_WEAK_RETIRE : Fld := ⟨R.BND_WEAK_CFG, 15, 8⟩
def F.BND_WEAK_CFG_WEAK_REWRITE : Fld := ⟨R.BND_WEAK_CFG, 7, 0⟩
/-- BND_ACT_SEL (R301): Actuator shown at 0x124 to 0x130. -/
def R.BND_ACT_SEL : Nat := 0x04000120
def F.BND_ACT_SEL_ACT : Fld := ⟨R.BND_ACT_SEL, 1, 0⟩
/-- BND_ACT_FREE (R301): Free bands and media-cache space. -/
def R.BND_ACT_FREE : Nat := 0x04000124
def F.BND_ACT_FREE_FB : Fld := ⟨R.BND_ACT_FREE, 31, 16⟩
def F.BND_ACT_FREE_MC_FREE : Fld := ⟨R.BND_ACT_FREE, 15, 8⟩
/-- BND_ACT_WEAR (R301): Wear extremes. -/
def R.BND_ACT_WEAR : Nat := 0x04000128
def F.BND_ACT_WEAR_WEAR_MAX : Fld := ⟨R.BND_ACT_WEAR, 31, 16⟩
def F.BND_ACT_WEAR_WEAR_MIN : Fld := ⟨R.BND_ACT_WEAR, 15, 0⟩
/-- BND_ACT_SPARE (R301): Spare bands. -/
def R.BND_ACT_SPARE : Nat := 0x0400012C
def F.BND_ACT_SPARE_INITIAL : Fld := ⟨R.BND_ACT_SPARE, 31, 16⟩
def F.BND_ACT_SPARE_REMAINING : Fld := ⟨R.BND_ACT_SPARE, 15, 0⟩
/-- BND_ACT_CREDIT (R301): Throttle factor and host credit. -/
def R.BND_ACT_CREDIT : Nat := 0x04000130
def F.BND_ACT_CREDIT_H : Fld := ⟨R.BND_ACT_CREDIT, 24, 16⟩
def F.BND_ACT_CREDIT_CREDIT : Fld := ⟨R.BND_ACT_CREDIT, 15, 0⟩
/-- BND_PATROL_STAT (R301): Worst lane debt, priority queue. -/
def R.BND_PATROL_STAT : Nat := 0x04000134
def F.BND_PATROL_STAT_DEBT : Fld := ⟨R.BND_PATROL_STAT, 31, 16⟩
def F.BND_PATROL_STAT_QUEUED : Fld := ⟨R.BND_PATROL_STAT, 15, 0⟩
/-- BND_UPKEEP_CNT (R301): Collection rewrites, migrations, retirements. -/
def R.BND_UPKEEP_CNT : Nat := 0x04000138
def F.BND_UPKEEP_CNT_REWRITES : Fld := ⟨R.BND_UPKEEP_CNT, 31, 16⟩
def F.BND_UPKEEP_CNT_MIGRATIONS : Fld := ⟨R.BND_UPKEEP_CNT, 15, 8⟩
def F.BND_UPKEEP_CNT_RETIRED : Fld := ⟨R.BND_UPKEEP_CNT, 7, 0⟩
/-- BND_SPARE_EVT (R301): Spare warnings. -/
def R.BND_SPARE_EVT : Nat := 0x0400013C
def F.BND_SPARE_EVT_SECT_EMPTY : Fld := ⟨R.BND_SPARE_EVT, 19, 16⟩
def F.BND_SPARE_EVT_EMPTY : Fld := ⟨R.BND_SPARE_EVT, 15, 12⟩
def F.BND_SPARE_EVT_W10 : Fld := ⟨R.BND_SPARE_EVT, 11, 8⟩
def F.BND_SPARE_EVT_W25 : Fld := ⟨R.BND_SPARE_EVT, 7, 4⟩
def F.BND_SPARE_EVT_W50 : Fld := ⟨R.BND_SPARE_EVT, 3, 0⟩
/-- RLY_CTL (R323): Enable, coalescing, reissues, guard, age gain. -/
def R.RLY_CTL : Nat := 0x00300000
def F.RLY_CTL_ENABLE : Fld := ⟨R.RLY_CTL, 31, 31⟩
def F.RLY_CTL_COALESCE : Fld := ⟨R.RLY_CTL, 20, 20⟩
def F.RLY_CTL_FE_REISSUE : Fld := ⟨R.RLY_CTL, 19, 16⟩
def F.RLY_CTL_GUARD : Fld := ⟨R.RLY_CTL, 15, 8⟩
def F.RLY_CTL_AGE_GAIN : Fld := ⟨R.RLY_CTL, 7, 0⟩
/-- RLY_STAT (R323): Pool use, dispatch stop, busy actuators. -/
def R.RLY_STAT : Nat := 0x00300004
def F.RLY_STAT_POOL_USED : Fld := ⟨R.RLY_STAT, 31, 16⟩
def F.RLY_STAT_DISPATCH_STOP : Fld := ⟨R.RLY_STAT, 15, 15⟩
def F.RLY_STAT_BUSY : Fld := ⟨R.RLY_STAT, 3, 0⟩
/-- RLY_AGE_CFG (R323): Age limits of classes 0 to 2. -/
def R.RLY_AGE_CFG : Nat := 0x00300008
def F.RLY_AGE_CFG_AGE2 : Fld := ⟨R.RLY_AGE_CFG, 29, 20⟩
def F.RLY_AGE_CFG_AGE1 : Fld := ⟨R.RLY_AGE_CFG, 19, 10⟩
def F.RLY_AGE_CFG_AGE0 : Fld := ⟨R.RLY_AGE_CFG, 9, 0⟩
/-- RLY_SHARE_CFG (R323): Share window, patrol share. -/
def R.RLY_SHARE_CFG : Nat := 0x0030000C
def F.RLY_SHARE_CFG_SHARE_WIN : Fld := ⟨R.RLY_SHARE_CFG, 31, 16⟩
def F.RLY_SHARE_CFG_PATROL_SHARE : Fld := ⟨R.RLY_SHARE_CFG, 13, 8⟩
/-- RLY_HSW (R323): Head-switch time. -/
def R.RLY_HSW : Nat := 0x00300010
def F.RLY_HSW_HSW : Fld := ⟨R.RLY_HSW, 15, 0⟩
/-- RLY_SEEK_SEL (R323): Seek-table selection. -/
def R.RLY_SEEK_SEL : Nat := 0x00300014
def F.RLY_SEEK_SEL_AUTOINC : Fld := ⟨R.RLY_SEEK_SEL, 31, 31⟩
def F.RLY_SEEK_SEL_ACT : Fld := ⟨R.RLY_SEEK_SEL, 25, 24⟩
def F.RLY_SEEK_SEL_INDEX : Fld := ⟨R.RLY_SEEK_SEL, 4, 0⟩
/-- RLY_SEEK_DATA (R323): Seek-table entry. -/
def R.RLY_SEEK_DATA : Nat := 0x00300018
def F.RLY_SEEK_DATA_TIME : Fld := ⟨R.RLY_SEEK_DATA, 15, 0⟩
/-- RLY_ACT_SEL (R323): Actuator shown at 0x020 and 0x024. -/
def R.RLY_ACT_SEL : Nat := 0x0030001C
def F.RLY_ACT_SEL_ACT : Fld := ⟨R.RLY_ACT_SEL, 1, 0⟩
/-- RLY_ACT_STAT (R323): Queue, class in service, oldest age. -/
def R.RLY_ACT_STAT : Nat := 0x00300020
def F.RLY_ACT_STAT_OLDEST : Fld := ⟨R.RLY_ACT_STAT, 31, 20⟩
def F.RLY_ACT_STAT_IN_SERVICE : Fld := ⟨R.RLY_ACT_STAT, 19, 19⟩
def F.RLY_ACT_STAT_CLASS : Fld := ⟨R.RLY_ACT_STAT, 18, 16⟩
def F.RLY_ACT_STAT_QUEUED : Fld := ⟨R.RLY_ACT_STAT, 15, 0⟩
/-- RLY_ACT_CREDIT (R323): Share credits. -/
def R.RLY_ACT_CREDIT : Nat := 0x00300024
def F.RLY_ACT_CREDIT_C4 : Fld := ⟨R.RLY_ACT_CREDIT, 31, 16⟩
def F.RLY_ACT_CREDIT_C3 : Fld := ⟨R.RLY_ACT_CREDIT, 15, 0⟩
/-- RLY_ACCT_SEL (R323): Account selection. -/
def R.RLY_ACCT_SEL : Nat := 0x00300028
def F.RLY_ACCT_SEL_KIND : Fld := ⟨R.RLY_ACCT_SEL, 9, 8⟩
def F.RLY_ACCT_SEL_INDEX : Fld := ⟨R.RLY_ACCT_SEL, 7, 0⟩
/-- RLY_ACCT_LO (R323): Account bits [31:0] (R16). -/
def R.RLY_ACCT_LO : Nat := 0x0030002C
def F.RLY_ACCT_LO_VALUE_LO : Fld := ⟨R.RLY_ACCT_LO, 31, 0⟩
/-- RLY_ACCT_HI (R323): Account bits [63:32]. -/
def R.RLY_ACCT_HI : Nat := 0x00300030
def F.RLY_ACCT_HI_VALUE_HI : Fld := ⟨R.RLY_ACCT_HI, 31, 0⟩
/-- RLY_FLT (R323): Scheduler events. -/
def R.RLY_FLT : Nat := 0x00300034
def F.RLY_FLT_POOL_FULL : Fld := ⟨R.RLY_FLT, 3, 3⟩
def F.RLY_FLT_FWD_FAIL : Fld := ⟨R.RLY_FLT, 2, 2⟩
def F.RLY_FLT_OVERDUE : Fld := ⟨R.RLY_FLT, 1, 1⟩
def F.RLY_FLT_POS_FAIL : Fld := ⟨R.RLY_FLT, 0, 0⟩
/-- RLY_CNT (R323): Overdue dispatches, positioning failures. -/
def R.RLY_CNT : Nat := 0x00300038
def F.RLY_CNT_OVERDUE : Fld := ⟨R.RLY_CNT, 31, 16⟩
def F.RLY_CNT_POS_FAIL : Fld := ⟨R.RLY_CNT, 15, 0⟩
/-- RLY_CNT1 (R323): Forwarded extents. -/
def R.RLY_CNT1 : Nat := 0x0030003C
def F.RLY_CNT1_FWD_OUT : Fld := ⟨R.RLY_CNT1, 31, 16⟩
def F.RLY_CNT1_FWD_IN : Fld := ⟨R.RLY_CNT1, 15, 0⟩
/-- HIFn_CTL (R351): Training enable, speed limit. -/
def R.HIFn_CTL (n : Nat) : Nat := 0x00100000 + n * 0x10000
def F.HIFn_CTL_MAX_SPEED (n : Nat) : Fld := ⟨R.HIFn_CTL n, 3, 1⟩
def F.HIFn_CTL_TRAIN_EN (n : Nat) : Fld := ⟨R.HIFn_CTL n, 0, 0⟩
/-- HIFn_LINK_STAT (R351): Link state, speed, width. -/
def R.HIFn_LINK_STAT (n : Nat) : Nat := 0x00100004 + n * 0x10000
def F.HIFn_LINK_STAT_DL_UP (n : Nat) : Fld := ⟨R.HIFn_LINK_STAT n, 31, 31⟩
def F.HIFn_LINK_STAT_SPEED (n : Nat) : Fld := ⟨R.HIFn_LINK_STAT n, 30, 28⟩
def F.HIFn_LINK_STAT_WIDTH (n : Nat) : Fld := ⟨R.HIFn_LINK_STAT n, 27, 24⟩
def F.HIFn_LINK_STAT_LTSSM (n : Nat) : Fld := ⟨R.HIFn_LINK_STAT n, 5, 0⟩
/-- HIFn_FN_STAT (R351): VFs enabled by the host. -/
def R.HIFn_FN_STAT (n : Nat) : Nat := 0x00100008 + n * 0x10000
def F.HIFn_FN_STAT_VF_EN (n : Nat) : Fld := ⟨R.HIFn_FN_STAT n, 7, 7⟩
def F.HIFn_FN_STAT_NUMVF (n : Nat) : Fld := ⟨R.HIFn_FN_STAT n, 6, 0⟩
/-- HIFn_ERR (R351): Link and transaction errors seen. -/
def R.HIFn_ERR (n : Nat) : Nat := 0x0010000C + n * 0x10000
def F.HIFn_ERR_LINK_DOWN (n : Nat) : Fld := ⟨R.HIFn_ERR n, 8, 8⟩
def F.HIFn_ERR_FLR_SEEN (n : Nat) : Fld := ⟨R.HIFn_ERR n, 7, 7⟩
def F.HIFn_ERR_REPLAY_ROLL (n : Nat) : Fld := ⟨R.HIFn_ERR n, 6, 6⟩
def F.HIFn_ERR_BAD_DLLP (n : Nat) : Fld := ⟨R.HIFn_ERR n, 5, 5⟩
def F.HIFn_ERR_BAD_TLP (n : Nat) : Fld := ⟨R.HIFn_ERR n, 4, 4⟩
def F.HIFn_ERR_MALFORMED (n : Nat) : Fld := ⟨R.HIFn_ERR n, 3, 3⟩
def F.HIFn_ERR_UR_RX (n : Nat) : Fld := ⟨R.HIFn_ERR n, 2, 2⟩
def F.HIFn_ERR_CPL_TO (n : Nat) : Fld := ⟨R.HIFn_ERR n, 1, 1⟩
def F.HIFn_ERR_PTLP_RX (n : Nat) : Fld := ⟨R.HIFn_ERR n, 0, 0⟩
/-- HIFn_ERR_CNT (R351): Error counts. -/
def R.HIFn_ERR_CNT (n : Nat) : Nat := 0x00100010 + n * 0x10000
def F.HIFn_ERR_CNT_CORR (n : Nat) : Fld := ⟨R.HIFn_ERR_CNT n, 31, 16⟩
def F.HIFn_ERR_CNT_UNCORR (n : Nat) : Fld := ⟨R.HIFn_ERR_CNT n, 15, 0⟩
/-- QE_CTL (R381): Enable, Sprint path. -/
def R.QE_CTL : Nat := 0x00200000
def F.QE_CTL_SPRINT_EN : Fld := ⟨R.QE_CTL, 1, 1⟩
def F.QE_CTL_ENABLE : Fld := ⟨R.QE_CTL, 0, 0⟩
/-- QE_ARB_CFG (R381): Admin burst, visit limit. -/
def R.QE_ARB_CFG : Nat := 0x00200004
def F.QE_ARB_CFG_ADMIN_BURST : Fld := ⟨R.QE_ARB_CFG, 11, 8⟩
def F.QE_ARB_CFG_VISIT_MAX : Fld := ⟨R.QE_ARB_CFG, 7, 0⟩
/-- QE_SLOT_CFG (R381): Slots per function. -/
def R.QE_SLOT_CFG : Nat := 0x00200008
def F.QE_SLOT_CFG_FN_MAX : Fld := ⟨R.QE_SLOT_CFG, 14, 0⟩
/-- QE_SLOT_FREE (R381): Free and active slots. -/
def R.QE_SLOT_FREE : Nat := 0x0020000C
def F.QE_SLOT_FREE_INFLIGHT : Fld := ⟨R.QE_SLOT_FREE, 31, 31⟩
def F.QE_SLOT_FREE_ACTIVE : Fld := ⟨R.QE_SLOT_FREE, 30, 16⟩
def F.QE_SLOT_FREE_FREE : Fld := ⟨R.QE_SLOT_FREE, 14, 0⟩
/-- QE_SLOT_HELD (R381): Held slots, full CQs. -/
def R.QE_SLOT_HELD : Nat := 0x00200010
def F.QE_SLOT_HELD_CQ_FULL : Fld := ⟨R.QE_SLOT_HELD, 31, 16⟩
def F.QE_SLOT_HELD_HELD : Fld := ⟨R.QE_SLOT_HELD, 14, 0⟩
/-- QE_FON_LO (R381): Next FON bits [31:0] (R16). -/
def R.QE_FON_LO : Nat := 0x00200014
def F.QE_FON_LO_FON_LO : Fld := ⟨R.QE_FON_LO, 31, 0⟩
/-- QE_FON_HI (R381): Next FON bits [63:32]. -/
def R.QE_FON_HI : Nat := 0x00200018
def F.QE_FON_HI_FON_HI : Fld := ⟨R.QE_FON_HI, 31, 0⟩
/-- QE_HAZ_STAT (R381): Tracker runs in use. -/
def R.QE_HAZ_STAT : Nat := 0x0020001C
def F.QE_HAZ_STAT_FULL : Fld := ⟨R.QE_HAZ_STAT, 31, 31⟩
def F.QE_HAZ_STAT_RUNS : Fld := ⟨R.QE_HAZ_STAT, 16, 0⟩
/-- QE_FN_SEL (R381): Function shown at 0x024. -/
def R.QE_FN_SEL : Nat := 0x00200020
def F.QE_FN_SEL_FN : Fld := ⟨R.QE_FN_SEL, 6, 0⟩
/-- QE_FN_STAT (R381): Slots and held completions of the function. -/
def R.QE_FN_STAT : Nat := 0x00200024
def F.QE_FN_STAT_CAPPED : Fld := ⟨R.QE_FN_STAT, 31, 31⟩
def F.QE_FN_STAT_SLOTS : Fld := ⟨R.QE_FN_STAT, 30, 16⟩
def F.QE_FN_STAT_HELD : Fld := ⟨R.QE_FN_STAT, 15, 0⟩
/-- QE_FLT (R381): Queue events. -/
def R.QE_FLT : Nat := 0x00200028
def F.QE_FLT_CQ_FULL : Fld := ⟨R.QE_FLT, 3, 3⟩
def F.QE_FLT_DB_INVALID : Fld := ⟨R.QE_FLT, 2, 2⟩
def F.QE_FLT_SLOT_CAP : Fld := ⟨R.QE_FLT, 1, 1⟩
def F.QE_FLT_HAZ_FULL : Fld := ⟨R.QE_FLT, 0, 0⟩
/-- QE_CNT (R381): Sprint reads, hazard waits. -/
def R.QE_CNT : Nat := 0x0020002C
def F.QE_CNT_SPRINT : Fld := ⟨R.QE_CNT, 31, 16⟩
def F.QE_CNT_HAZ_WAIT : Fld := ⟨R.QE_CNT, 15, 0⟩
/-- KEY_STAT (R403): Store readiness, pair agreement, pending erases. -/
def R.KEY_STAT : Nat := 0x05000000
def F.KEY_STAT_READY : Fld := ⟨R.KEY_STAT, 31, 31⟩
def F.KEY_STAT_PAIR_SYNC : Fld := ⟨R.KEY_STAT, 30, 30⟩
def F.KEY_STAT_PENDING : Fld := ⟨R.KEY_STAT, 10, 0⟩
/-- KEY_SEL (R403): Namespace shown at 0x008. -/
def R.KEY_SEL : Nat := 0x05000004
def F.KEY_SEL_NS : Fld := ⟨R.KEY_SEL, 9, 0⟩
/-- KEY_SLOT (R403): Record state of the selected namespace. -/
def R.KEY_SLOT : Nat := 0x05000008
def F.KEY_SLOT_VALID : Fld := ⟨R.KEY_SLOT, 31, 31⟩
def F.KEY_SLOT_ERASE_PENDING : Fld := ⟨R.KEY_SLOT, 30, 30⟩
def F.KEY_SLOT_LOST : Fld := ⟨R.KEY_SLOT, 29, 29⟩
def F.KEY_SLOT_GEN : Fld := ⟨R.KEY_SLOT, 23, 0⟩
/-- KEY_FLT (R403): Key-store events. -/
def R.KEY_FLT : Nat := 0x0500000C
def F.KEY_FLT_UNWRAP : Fld := ⟨R.KEY_FLT, 2, 2⟩
def F.KEY_FLT_MRAM_WR : Fld := ⟨R.KEY_FLT, 1, 1⟩
def F.KEY_FLT_TRNG : Fld := ⟨R.KEY_FLT, 0, 0⟩
/-- KEY_CNT (R403): Erases and failed unwraps. -/
def R.KEY_CNT : Nat := 0x05000010
def F.KEY_CNT_ERASES : Fld := ⟨R.KEY_CNT, 31, 16⟩
def F.KEY_CNT_UNWRAP_FAIL : Fld := ⟨R.KEY_CNT, 15, 0⟩
/-- RLY_QOS_CFG (R404): Window length. -/
def R.RLY_QOS_CFG : Nat := 0x00300100
def F.RLY_QOS_CFG_WIN : Fld := ⟨R.RLY_QOS_CFG, 15, 0⟩
/-- RLY_QOS_SEL (R404): Function shown. -/
def R.RLY_QOS_SEL : Nat := 0x00300104
def F.RLY_QOS_SEL_FN : Fld := ⟨R.RLY_QOS_SEL, 6, 0⟩
/-- RLY_QOS_FN (R404): Cap and floor. -/
def R.RLY_QOS_FN : Nat := 0x00300108
def F.RLY_QOS_FN_CAP : Fld := ⟨R.RLY_QOS_FN, 15, 8⟩
def F.RLY_QOS_FN_FLOOR : Fld := ⟨R.RLY_QOS_FN, 7, 0⟩
/-- RLY_QOS_BAL (R404): BAL(f). -/
def R.RLY_QOS_BAL : Nat := 0x0030010C
def F.RLY_QOS_BAL_BAL : Fld := ⟨R.RLY_QOS_BAL, 31, 0⟩
/-- RLY_QOS_USED (R404): USED(f). -/
def R.RLY_QOS_USED : Nat := 0x00300110
def F.RLY_QOS_USED_USED : Fld := ⟨R.RLY_QOS_USED, 31, 0⟩
/-- RLY_QOS_STAT (R404): Hold and floor state. -/
def R.RLY_QOS_STAT : Nat := 0x00300114
def F.RLY_QOS_STAT_HELD : Fld := ⟨R.RLY_QOS_STAT, 31, 31⟩
def F.RLY_QOS_STAT_BELOW_FLOOR : Fld := ⟨R.RLY_QOS_STAT, 30, 30⟩
def F.RLY_QOS_STAT_HELD_CNT : Fld := ⟨R.RLY_QOS_STAT, 23, 16⟩
def F.RLY_QOS_STAT_FLOOR_SUM : Fld := ⟨R.RLY_QOS_STAT, 15, 0⟩
/-- RLY_QOS_FLT (R404): Quota events. -/
def R.RLY_QOS_FLT : Nat := 0x00300118
def F.RLY_QOS_FLT_FLOOR_OVERSUB : Fld := ⟨R.RLY_QOS_FLT, 1, 1⟩
def F.RLY_QOS_FLT_HELD : Fld := ⟨R.RLY_QOS_FLT, 0, 0⟩
/-- BUF_CTL (R431): Mirror recovery, quarantine tests. -/
def R.BUF_CTL : Nat := 0x00400000
def F.BUF_CTL_QUAR_TEST : Fld := ⟨R.BUF_CTL, 2, 2⟩
def F.BUF_CTL_MIRROR_RECOVER : Fld := ⟨R.BUF_CTL, 1, 1⟩
/-- BUF_PAGE_TOTAL (R431): Pages on present channels. -/
def R.BUF_PAGE_TOTAL : Nat := 0x00400004
def F.BUF_PAGE_TOTAL_COUNT : Fld := ⟨R.BUF_PAGE_TOTAL, 18, 0⟩
/-- BUF_PAGE_FREE (R431): Free pages. -/
def R.BUF_PAGE_FREE : Nat := 0x00400008
def F.BUF_PAGE_FREE_COUNT : Fld := ⟨R.BUF_PAGE_FREE, 18, 0⟩
/-- BUF_PAGE_OWNED (R431): Owned pages. -/
def R.BUF_PAGE_OWNED : Nat := 0x0040000C
def F.BUF_PAGE_OWNED_COUNT : Fld := ⟨R.BUF_PAGE_OWNED, 18, 0⟩
/-- BUF_PAGE_QUAR (R431): Quarantined pages. -/
def R.BUF_PAGE_QUAR : Nat := 0x00400010
def F.BUF_PAGE_QUAR_COUNT : Fld := ⟨R.BUF_PAGE_QUAR, 18, 0⟩
/-- BUF_PAGE_INFLIGHT (R431): Page handshakes in progress. -/
def R.BUF_PAGE_INFLIGHT : Nat := 0x00400014
def F.BUF_PAGE_INFLIGHT_INFLIGHT : Fld := ⟨R.BUF_PAGE_INFLIGHT, 31, 31⟩
def F.BUF_PAGE_INFLIGHT_COUNT : Fld := ⟨R.BUF_PAGE_INFLIGHT, 4, 0⟩
/-- BUF_WC_DIRTY (R431): Dirty write-cache blocks; latches BUF_WC_MIRR. -/
def R.BUF_WC_DIRTY : Nat := 0x00400018
def F.BUF_WC_DIRTY_BLOCKS : Fld := ⟨R.BUF_WC_DIRTY, 22, 0⟩
/-- BUF_WC_MIRR (R431): Mirrored dirty blocks. -/
def R.BUF_WC_MIRR : Nat := 0x0040001C
def F.BUF_WC_MIRR_BLOCKS : Fld := ⟨R.BUF_WC_MIRR, 22, 0⟩
/-- BUF_ARB_CFG (R431): Scrub minimum. -/
def R.BUF_ARB_CFG : Nat := 0x00400020
def F.BUF_ARB_CFG_SCRUB_MIN : Fld := ⟨R.BUF_ARB_CFG, 7, 0⟩
/-- BUF_ARB_SEL (R431): Class shown at 0x028 and 0x02C. -/
def R.BUF_ARB_SEL : Nat := 0x00400024
def F.BUF_ARB_SEL_CLASS : Fld := ⟨R.BUF_ARB_SEL, 2, 0⟩
/-- BUF_ARB_RESV (R431): Reservation of the selected class. -/
def R.BUF_ARB_RESV : Nat := 0x00400028
def F.BUF_ARB_RESV_DMC1 : Fld := ⟨R.BUF_ARB_RESV, 31, 16⟩
def F.BUF_ARB_RESV_DMC0 : Fld := ⟨R.BUF_ARB_RESV, 15, 0⟩
/-- BUF_ARB_DEFER (R431): Deferred epochs of the selected class. -/
def R.BUF_ARB_DEFER : Nat := 0x0040002C
def F.BUF_ARB_DEFER_DMC1 : Fld := ⟨R.BUF_ARB_DEFER, 31, 16⟩
def F.BUF_ARB_DEFER_DMC0 : Fld := ⟨R.BUF_ARB_DEFER, 15, 0⟩
/-- BUF_ARB_CNT (R431): Lane starvation, late scrub passes. -/
def R.BUF_ARB_CNT : Nat := 0x00400030
def F.BUF_ARB_CNT_LANE_STARVE : Fld := ⟨R.BUF_ARB_CNT, 31, 16⟩
def F.BUF_ARB_CNT_SCRUB_LATE : Fld := ⟨R.BUF_ARB_CNT, 15, 0⟩
/-- BUF_CE_SEL (R431): Correctable-error table index, clear. -/
def R.BUF_CE_SEL : Nat := 0x00400034
def F.BUF_CE_SEL_CLEAR : Fld := ⟨R.BUF_CE_SEL, 31, 31⟩
def F.BUF_CE_SEL_INDEX : Fld := ⟨R.BUF_CE_SEL, 5, 0⟩
/-- BUF_CE_ADDR (R431): Selected entry's line; latches BUF_CE_INFO. -/
def R.BUF_CE_ADDR : Nat := 0x00400038
def F.BUF_CE_ADDR_LINE : Fld := ⟨R.BUF_CE_ADDR, 27, 0⟩
/-- BUF_CE_INFO (R431): Selected entry's details. -/
def R.BUF_CE_INFO : Nat := 0x0040003C
def F.BUF_CE_INFO_VALID : Fld := ⟨R.BUF_CE_INFO, 31, 31⟩
def F.BUF_CE_INFO_MULTI : Fld := ⟨R.BUF_CE_INFO, 30, 30⟩
def F.BUF_CE_INFO_CH : Fld := ⟨R.BUF_CE_INFO, 29, 29⟩
def F.BUF_CE_INFO_SYM : Fld := ⟨R.BUF_CE_INFO, 27, 24⟩
def F.BUF_CE_INFO_COUNT : Fld := ⟨R.BUF_CE_INFO, 23, 16⟩
/-- BUF_CE_STAT (R431): Entries in use, replacements. -/
def R.BUF_CE_STAT : Nat := 0x00400040
def F.BUF_CE_STAT_DROPPED : Fld := ⟨R.BUF_CE_STAT, 31, 16⟩
def F.BUF_CE_STAT_USED : Fld := ⟨R.BUF_CE_STAT, 6, 0⟩
/-- BUF_PSN_SEL (R431): Poison-log index. -/
def R.BUF_PSN_SEL : Nat := 0x00400044
def F.BUF_PSN_SEL_INDEX : Fld := ⟨R.BUF_PSN_SEL, 4, 0⟩
/-- BUF_PSN_ADDR (R431): Selected entry's line; latches BUF_PSN_INFO. -/
def R.BUF_PSN_ADDR : Nat := 0x00400048
def F.BUF_PSN_ADDR_LINE : Fld := ⟨R.BUF_PSN_ADDR, 27, 0⟩
/-- BUF_PSN_INFO (R431): Selected entry's details. -/
def R.BUF_PSN_INFO : Nat := 0x0040004C
def F.BUF_PSN_INFO_VALID : Fld := ⟨R.BUF_PSN_INFO, 31, 31⟩
def F.BUF_PSN_INFO_CH : Fld := ⟨R.BUF_PSN_INFO, 30, 30⟩
def F.BUF_PSN_INFO_OWNER : Fld := ⟨R.BUF_PSN_INFO, 29, 26⟩
def F.BUF_PSN_INFO_SOURCE : Fld := ⟨R.BUF_PSN_INFO, 25, 24⟩
def F.BUF_PSN_INFO_NUM : Fld := ⟨R.BUF_PSN_INFO, 15, 0⟩
/-- BUF_LWL_STAT (R431): Lost-write entries. -/
def R.BUF_LWL_STAT : Nat := 0x00400050
def F.BUF_LWL_STAT_FULL : Fld := ⟨R.BUF_LWL_STAT, 31, 31⟩
def F.BUF_LWL_STAT_ENTRIES : Fld := ⟨R.BUF_LWL_STAT, 12, 0⟩
/-- BUF_MERGE_CFG (R431): Merge age. -/
def R.BUF_MERGE_CFG : Nat := 0x00400054
def F.BUF_MERGE_CFG_AGE : Fld := ⟨R.BUF_MERGE_CFG, 7, 0⟩
/-- BUF_MERGE_STAT (R431): Merge entries in use. -/
def R.BUF_MERGE_STAT : Nat := 0x00400058
def F.BUF_MERGE_STAT_USED : Fld := ⟨R.BUF_MERGE_STAT, 5, 0⟩
/-- BUF_FLT (R431): Buffer events. -/
def R.BUF_FLT : Nat := 0x0040005C
def F.BUF_FLT_LWL_CRC : Fld := ⟨R.BUF_FLT, 6, 6⟩
def F.BUF_FLT_LWL_FULL : Fld := ⟨R.BUF_FLT, 5, 5⟩
def F.BUF_FLT_QUAR_RETAIN : Fld := ⟨R.BUF_FLT, 4, 4⟩
def F.BUF_FLT_LOST_WRITE : Fld := ⟨R.BUF_FLT, 3, 3⟩
def F.BUF_FLT_POISON : Fld := ⟨R.BUF_FLT, 2, 2⟩
def F.BUF_FLT_LANE_STARVE : Fld := ⟨R.BUF_FLT, 1, 1⟩
def F.BUF_FLT_MIRROR_RECOVERED : Fld := ⟨R.BUF_FLT, 0, 0⟩
/-- BUF_CNT (R431): Read–modify–writes, poison consumed. -/
def R.BUF_CNT : Nat := 0x00400060
def F.BUF_CNT_RMW : Fld := ⟨R.BUF_CNT, 31, 16⟩
def F.BUF_CNT_PSN_USED : Fld := ⟨R.BUF_CNT, 15, 0⟩
/-- DMCn_CTL (R432): Write-back, refresh rate. -/
def R.DMCn_CTL (n : Nat) : Nat := 0x00410000 + n * 0x10000
def F.DMCn_CTL_WB_EN (n : Nat) : Fld := ⟨R.DMCn_CTL n, 8, 8⟩
def F.DMCn_CTL_REF_RATE (n : Nat) : Fld := ⟨R.DMCn_CTL n, 1, 0⟩
/-- DMCn_STAT (R432): Training, self-test, initialisation. -/
def R.DMCn_STAT (n : Nat) : Nat := 0x00410004 + n * 0x10000
def F.DMCn_STAT_TRAINED (n : Nat) : Fld := ⟨R.DMCn_STAT n, 31, 31⟩
def F.DMCn_STAT_ST_OK (n : Nat) : Fld := ⟨R.DMCn_STAT n, 30, 30⟩
def F.DMCn_STAT_INIT_DONE (n : Nat) : Fld := ⟨R.DMCn_STAT n, 29, 29⟩
def F.DMCn_STAT_ST_FAIL (n : Nat) : Fld := ⟨R.DMCn_STAT n, 3, 0⟩
/-- DMCn_INIT_PTR (R432): Pages initialised. -/
def R.DMCn_INIT_PTR (n : Nat) : Nat := 0x00410008 + n * 0x10000
def F.DMCn_INIT_PTR_PAGES (n : Nat) : Fld := ⟨R.DMCn_INIT_PTR n, 17, 0⟩
/-- DMCn_ECC_CFG (R432): Symbol marking. -/
def R.DMCn_ECC_CFG (n : Nat) : Nat := 0x0041000C + n * 0x10000
def F.DMCn_ECC_CFG_MARK_THR (n : Nat) : Fld := ⟨R.DMCn_ECC_CFG n, 15, 8⟩
def F.DMCn_ECC_CFG_MARK_EN (n : Nat) : Fld := ⟨R.DMCn_ECC_CFG n, 0, 0⟩
/-- DMCn_ECC_STAT (R432): Mark, recovery window. -/
def R.DMCn_ECC_STAT (n : Nat) : Nat := 0x00410010 + n * 0x10000
def F.DMCn_ECC_STAT_MARKED (n : Nat) : Fld := ⟨R.DMCn_ECC_STAT n, 31, 31⟩
def F.DMCn_ECC_STAT_RECOVERY (n : Nat) : Fld := ⟨R.DMCn_ECC_STAT n, 30, 30⟩
def F.DMCn_ECC_STAT_SECOND (n : Nat) : Fld := ⟨R.DMCn_ECC_STAT n, 29, 29⟩
def F.DMCn_ECC_STAT_MARK_SYM (n : Nat) : Fld := ⟨R.DMCn_ECC_STAT n, 27, 24⟩
/-- DMCn_FLIP_DQ (R432): Flip mask, DQ 0 to 31. -/
def R.DMCn_FLIP_DQ (n : Nat) : Nat := 0x00410014 + n * 0x10000
def F.DMCn_FLIP_DQ_DQ (n : Nat) : Fld := ⟨R.DMCn_FLIP_DQ n, 31, 0⟩
/-- DMCn_FLIP_CTL (R432): Flip arm, beats, check DQs. -/
def R.DMCn_FLIP_CTL (n : Nat) : Nat := 0x00410018 + n * 0x10000
def F.DMCn_FLIP_CTL_ARM (n : Nat) : Fld := ⟨R.DMCn_FLIP_CTL n, 31, 31⟩
def F.DMCn_FLIP_CTL_FLIP_REJ (n : Nat) : Fld := ⟨R.DMCn_FLIP_CTL n, 30, 30⟩
def F.DMCn_FLIP_CTL_BEATS (n : Nat) : Fld := ⟨R.DMCn_FLIP_CTL n, 23, 8⟩
def F.DMCn_FLIP_CTL_CHECK_DQ (n : Nat) : Fld := ⟨R.DMCn_FLIP_CTL n, 7, 0⟩
/-- DMCn_SCRUB_CFG (R432): Scrub enable and period. -/
def R.DMCn_SCRUB_CFG (n : Nat) : Nat := 0x0041001C + n * 0x10000
def F.DMCn_SCRUB_CFG_EN (n : Nat) : Fld := ⟨R.DMCn_SCRUB_CFG n, 31, 31⟩
def F.DMCn_SCRUB_CFG_HOURS (n : Nat) : Fld := ⟨R.DMCn_SCRUB_CFG n, 15, 0⟩
/-- DMCn_SCRUB_STAT (R432): Scrub cursor. -/
def R.DMCn_SCRUB_STAT (n : Nat) : Nat := 0x00410020 + n * 0x10000
def F.DMCn_SCRUB_STAT_CURSOR (n : Nat) : Fld := ⟨R.DMCn_SCRUB_STAT n, 27, 0⟩
/-- DMCn_ECC_CNT (R432): Corrected and uncorrectable reads. -/
def R.DMCn_ECC_CNT (n : Nat) : Nat := 0x00410024 + n * 0x10000
def F.DMCn_ECC_CNT_CE (n : Nat) : Fld := ⟨R.DMCn_ECC_CNT n, 31, 16⟩
def F.DMCn_ECC_CNT_UE (n : Nat) : Fld := ⟨R.DMCn_ECC_CNT n, 15, 0⟩
/-- SCC_CTL (R458): Prefetch, stream insertion, automatic disable. -/
def R.SCC_CTL : Nat := 0x00500000
def F.SCC_CTL_AUTO_DIS : Fld := ⟨R.SCC_CTL, 2, 2⟩
def F.SCC_CTL_PF_EN : Fld := ⟨R.SCC_CTL, 1, 1⟩
def F.SCC_CTL_STREAM_INS : Fld := ⟨R.SCC_CTL, 0, 0⟩
/-- SCC_WAY_EN (R458): Enabled ways. -/
def R.SCC_WAY_EN : Nat := 0x00500004
def F.SCC_WAY_EN_EN : Fld := ⟨R.SCC_WAY_EN, 15, 0⟩
/-- SCC_WAY_DIS (R458): Firmware way disable. -/
def R.SCC_WAY_DIS : Nat := 0x00500008
def F.SCC_WAY_DIS_DIS : Fld := ⟨R.SCC_WAY_DIS, 15, 0⟩
/-- SCC_WAY_SEL (R458): Way shown at 0x010. -/
def R.SCC_WAY_SEL : Nat := 0x0050000C
def F.SCC_WAY_SEL_WAY : Fld := ⟨R.SCC_WAY_SEL, 3, 0⟩
/-- SCC_WAY_CE (R458): Correctable errors of the selected way. -/
def R.SCC_WAY_CE : Nat := 0x00500010
def F.SCC_WAY_CE_TOTAL : Fld := ⟨R.SCC_WAY_CE, 31, 16⟩
def F.SCC_WAY_CE_WINDOW : Fld := ⟨R.SCC_WAY_CE, 7, 0⟩
/-- SCC_PF_CFG (R458): Prefetch confidence and depth. -/
def R.SCC_PF_CFG : Nat := 0x00500014
def F.SCC_PF_CFG_CONF : Fld := ⟨R.SCC_PF_CFG, 11, 8⟩
def F.SCC_PF_CFG_DEPTH : Fld := ⟨R.SCC_PF_CFG, 3, 0⟩
/-- SCC_FLT (R458): Cache events. -/
def R.SCC_FLT : Nat := 0x00500018
def F.SCC_FLT_QE_UE : Fld := ⟨R.SCC_FLT, 4, 4⟩
def F.SCC_FLT_UE_DIRTY : Fld := ⟨R.SCC_FLT, 3, 3⟩
def F.SCC_FLT_UE_CLEAN : Fld := ⟨R.SCC_FLT, 2, 2⟩
def F.SCC_FLT_LAST_WAY : Fld := ⟨R.SCC_FLT, 1, 1⟩
def F.SCC_FLT_WAY_DIS : Fld := ⟨R.SCC_FLT, 0, 0⟩
/-- SCC_CNT (R458): Hits and misses. -/
def R.SCC_CNT : Nat := 0x0050001C
def F.SCC_CNT_HITS : Fld := ⟨R.SCC_CNT, 31, 16⟩
def F.SCC_CNT_MISSES : Fld := ⟨R.SCC_CNT, 15, 0⟩
/-- SCC_CNT1 (R458): Prefetches issued and used. -/
def R.SCC_CNT1 : Nat := 0x00500020
def F.SCC_CNT1_PF_ISSUED : Fld := ⟨R.SCC_CNT1, 31, 16⟩
def F.SCC_CNT1_PF_USED : Fld := ⟨R.SCC_CNT1, 15, 0⟩
/-- CCX_HART_STAT (R459): Released and lost harts. -/
def R.CCX_HART_STAT : Nat := 0x00500800
def F.CCX_HART_STAT_LOST : Fld := ⟨R.CCX_HART_STAT, 15, 8⟩
def F.CCX_HART_STAT_RELEASED : Fld := ⟨R.CCX_HART_STAT, 7, 0⟩
/-- CCX_RESET_PAGE (R459): Buffer page of the reset vector. -/
def R.CCX_RESET_PAGE : Nat := 0x00500804
def F.CCX_RESET_PAGE_PAGE : Fld := ⟨R.CCX_RESET_PAGE, 17, 0⟩
/-- CCX_IPI (R459): Machine software interrupts. -/
def R.CCX_IPI : Nat := 0x00500808
def F.CCX_IPI_MSIP : Fld := ⟨R.CCX_IPI, 7, 0⟩
/-- CCX_WDOG_CFG (R459): Watchdog timeout. -/
def R.CCX_WDOG_CFG : Nat := 0x0050080C
def F.CCX_WDOG_CFG_TIMEOUT : Fld := ⟨R.CCX_WDOG_CFG, 15, 0⟩
/-- CCX_WDOG_KICK (R459): Watchdog kicks. -/
def R.CCX_WDOG_KICK : Nat := 0x00500810
def F.CCX_WDOG_KICK_KICK : Fld := ⟨R.CCX_WDOG_KICK, 7, 0⟩
/-- CCX_IRQ_SEL (R459): Source shown at 0x818. -/
def R.CCX_IRQ_SEL : Nat := 0x00500814
def F.CCX_IRQ_SEL_SRC : Fld := ⟨R.CCX_IRQ_SEL, 7, 0⟩
/-- CCX_IRQ_ROUTE (R459): Routing of the selected source. -/
def R.CCX_IRQ_ROUTE : Nat := 0x00500818
def F.CCX_IRQ_ROUTE_PEND : Fld := ⟨R.CCX_IRQ_ROUTE, 31, 31⟩
def F.CCX_IRQ_ROUTE_EN : Fld := ⟨R.CCX_IRQ_ROUTE, 8, 8⟩
def F.CCX_IRQ_ROUTE_LEVEL : Fld := ⟨R.CCX_IRQ_ROUTE, 7, 7⟩
def F.CCX_IRQ_ROUTE_PRIO : Fld := ⟨R.CCX_IRQ_ROUTE, 6, 4⟩
def F.CCX_IRQ_ROUTE_HART : Fld := ⟨R.CCX_IRQ_ROUTE, 2, 0⟩
/-- CCX_FLT (R459): Watchdog and routing events. -/
def R.CCX_FLT : Nat := 0x0050081C
def F.CCX_FLT_REROUTE : Fld := ⟨R.CCX_FLT, 16, 16⟩
def F.CCX_FLT_LOST : Fld := ⟨R.CCX_FLT, 15, 8⟩
def F.CCX_FLT_WARN : Fld := ⟨R.CCX_FLT, 7, 0⟩
/-- CCX_CNT (R459): L1 parity errors. -/
def R.CCX_CNT : Nat := 0x00500820
def F.CCX_CNT_L1_PAR : Fld := ⟨R.CCX_CNT, 15, 0⟩
/-- CCX_CLAIMk_M (R459): Machine-level claim for hart k (R442). -/
def R.CCX_CLAIMk_M (k : Nat) : Nat := 0x00500840 + k * 0x8
def F.CCX_CLAIMk_M_SRC (k : Nat) : Fld := ⟨R.CCX_CLAIMk_M k, 7, 0⟩
/-- CCX_CLAIMk_S (R459): Supervisor-level claim for hart k. -/
def R.CCX_CLAIMk_S (k : Nat) : Nat := 0x00500844 + k * 0x8
def F.CCX_CLAIMk_S_SRC (k : Nat) : Fld := ⟨R.CCX_CLAIMk_S k, 7, 0⟩
/-- CCX_TCMPk_LO (R459): Timer compare bits [31:0] for hart k (R16). -/
def R.CCX_TCMPk_LO (k : Nat) : Nat := 0x00500880 + k * 0x8
def F.CCX_TCMPk_LO_TCMP (k : Nat) : Fld := ⟨R.CCX_TCMPk_LO k, 31, 0⟩
/-- CCX_TCMPk_HI (R459): Timer compare bits [63:32]. -/
def R.CCX_TCMPk_HI (k : Nat) : Nat := 0x00500884 + k * 0x8
def F.CCX_TCMPk_HI_TCMP (k : Nat) : Fld := ⟨R.CCX_TCMPk_HI k, 31, 0⟩
/-- DMA_CTL (R477): Engine disable. -/
def R.DMA_CTL : Nat := 0x00600000
def F.DMA_CTL_DISABLE : Fld := ⟨R.DMA_CTL, 0, 0⟩
/-- DMA_MODE_LO (R477): Modes of channels 0 to 31. -/
def R.DMA_MODE_LO : Nat := 0x00600004
def F.DMA_MODE_LO_PROG : Fld := ⟨R.DMA_MODE_LO, 31, 0⟩
/-- DMA_MODE_HI (R477): Modes of channels 32 to 63. -/
def R.DMA_MODE_HI : Nat := 0x00600008
def F.DMA_MODE_HI_PROG : Fld := ⟨R.DMA_MODE_HI, 31, 0⟩
/-- DMA_CRED (R477): Descriptor credit ledger. -/
def R.DMA_CRED : Nat := 0x0060000C
def F.DMA_CRED_INFLIGHT : Fld := ⟨R.DMA_CRED, 31, 31⟩
def F.DMA_CRED_HELD : Fld := ⟨R.DMA_CRED, 24, 16⟩
def F.DMA_CRED_FREE : Fld := ⟨R.DMA_CRED, 8, 0⟩
/-- DMA_FLAGS (R477): Flags. -/
def R.DMA_FLAGS : Nat := 0x00600010
def F.DMA_FLAGS_FLAG : Fld := ⟨R.DMA_FLAGS, 31, 0⟩
/-- DMA_FLAG_SET (R477): Flag setting. -/
def R.DMA_FLAG_SET : Nat := 0x00600014
def F.DMA_FLAG_SET_SET : Fld := ⟨R.DMA_FLAG_SET, 31, 0⟩
/-- DMA_CNT (R477): Faults and aborts. -/
def R.DMA_CNT : Nat := 0x00600018
def F.DMA_CNT_FAULTS : Fld := ⟨R.DMA_CNT, 31, 16⟩
def F.DMA_CNT_ABORTS : Fld := ⟨R.DMA_CNT, 15, 0⟩
/-- DMAc_CTL (R477): Start, resume, abort, interrupt enables. -/
def R.DMAc_CTL (c : Nat) : Nat := 0x00600100 + c * 0x80
def F.DMAc_CTL_START (c : Nat) : Fld := ⟨R.DMAc_CTL c, 31, 31⟩
def F.DMAc_CTL_RESUME (c : Nat) : Fld := ⟨R.DMAc_CTL c, 30, 30⟩
def F.DMAc_CTL_ABORT (c : Nat) : Fld := ⟨R.DMAc_CTL c, 29, 29⟩
def F.DMAc_CTL_IEN_SIG (c : Nat) : Fld := ⟨R.DMAc_CTL c, 2, 2⟩
def F.DMAc_CTL_IEN_FLT (c : Nat) : Fld := ⟨R.DMAc_CTL c, 1, 1⟩
def F.DMAc_CTL_IEN_DONE (c : Nat) : Fld := ⟨R.DMAc_CTL c, 0, 0⟩
/-- DMAc_STAT (R477): State and events. -/
def R.DMAc_STAT (c : Nat) : Nat := 0x00600104 + c * 0x80
def F.DMAc_STAT_STATE (c : Nat) : Fld := ⟨R.DMAc_STAT c, 31, 29⟩
def F.DMAc_STAT_DONE_EVT (c : Nat) : Fld := ⟨R.DMAc_STAT c, 4, 4⟩
def F.DMAc_STAT_FLT_EVT (c : Nat) : Fld := ⟨R.DMAc_STAT c, 3, 3⟩
def F.DMAc_STAT_SIG_EVT (c : Nat) : Fld := ⟨R.DMAc_STAT c, 2, 2⟩
def F.DMAc_STAT_ABORTED (c : Nat) : Fld := ⟨R.DMAc_STAT c, 1, 1⟩
def F.DMAc_STAT_REJ (c : Nat) : Fld := ⟨R.DMAc_STAT c, 0, 0⟩
/-- DMAc_CFG (R477): Class, hints, credits. -/
def R.DMAc_CFG (c : Nat) : Nat := 0x00600108 + c * 0x80
def F.DMAc_CFG_CREDITS (c : Nat) : Fld := ⟨R.DMAc_CFG c, 7, 4⟩
def F.DMAc_CFG_ALLOC (c : Nat) : Fld := ⟨R.DMAc_CFG c, 2, 2⟩
def F.DMAc_CFG_STREAM (c : Nat) : Fld := ⟨R.DMAc_CFG c, 1, 1⟩
def F.DMAc_CFG_HOST (c : Nat) : Fld := ⟨R.DMAc_CFG c, 0, 0⟩
/-- DMAc_ELEM (R477): Element length, register mode. -/
def R.DMAc_ELEM (c : Nat) : Nat := 0x0060010C + c * 0x80
def F.DMAc_ELEM_LEN (c : Nat) : Fld := ⟨R.DMAc_ELEM c, 16, 0⟩
/-- DMAc_SRC_LO (R477): Source base (R16). -/
def R.DMAc_SRC_LO (c : Nat) : Nat := 0x00600110 + c * 0x80
def F.DMAc_SRC_LO_ADDR_LO (c : Nat) : Fld := ⟨R.DMAc_SRC_LO c, 31, 0⟩
/-- DMAc_SRC_HI (R477): Source base (R16). -/
def R.DMAc_SRC_HI (c : Nat) : Nat := 0x00600114 + c * 0x80
def F.DMAc_SRC_HI_ADDR_HI (c : Nat) : Fld := ⟨R.DMAc_SRC_HI c, 3, 0⟩
/-- DMAc_DST_LO (R477): Destination base. -/
def R.DMAc_DST_LO (c : Nat) : Nat := 0x00600118 + c * 0x80
def F.DMAc_DST_LO_ADDR_LO (c : Nat) : Fld := ⟨R.DMAc_DST_LO c, 31, 0⟩
/-- DMAc_DST_HI (R477): Destination base. -/
def R.DMAc_DST_HI (c : Nat) : Nat := 0x0060011C + c * 0x80
def F.DMAc_DST_HI_ADDR_HI (c : Nat) : Fld := ⟨R.DMAc_DST_HI c, 3, 0⟩
/-- DMAc_CNT01 (R477): Counts of loops 0 and 1. -/
def R.DMAc_CNT01 (c : Nat) : Nat := 0x00600120 + c * 0x80
def F.DMAc_CNT01_CNT1 (c : Nat) : Fld := ⟨R.DMAc_CNT01 c, 31, 16⟩
def F.DMAc_CNT01_CNT0 (c : Nat) : Fld := ⟨R.DMAc_CNT01 c, 15, 0⟩
/-- DMAc_CNT2 (R477): Count of loop 2. -/
def R.DMAc_CNT2 (c : Nat) : Nat := 0x00600124 + c * 0x80
def F.DMAc_CNT2_CNT2 (c : Nat) : Fld := ⟨R.DMAc_CNT2 c, 15, 0⟩
/-- DMAc_SSTEP0 (R477): Source steps. -/
def R.DMAc_SSTEP0 (c : Nat) : Nat := 0x00600128 + c * 0x80
def F.DMAc_SSTEP0_STEP (c : Nat) : Fld := ⟨R.DMAc_SSTEP0 c, 31, 0⟩
/-- DMAc_SSTEP1 (R477): Source steps. -/
def R.DMAc_SSTEP1 (c : Nat) : Nat := 0x0060012C + c * 0x80
def F.DMAc_SSTEP1_STEP (c : Nat) : Fld := ⟨R.DMAc_SSTEP1 c, 31, 0⟩
/-- DMAc_SSTEP2 (R477): Source steps. -/
def R.DMAc_SSTEP2 (c : Nat) : Nat := 0x00600130 + c * 0x80
def F.DMAc_SSTEP2_STEP (c : Nat) : Fld := ⟨R.DMAc_SSTEP2 c, 31, 0⟩
/-- DMAc_DSTEP0 (R477): Destination steps. -/
def R.DMAc_DSTEP0 (c : Nat) : Nat := 0x00600134 + c * 0x80
def F.DMAc_DSTEP0_STEP (c : Nat) : Fld := ⟨R.DMAc_DSTEP0 c, 31, 0⟩
/-- DMAc_DSTEP1 (R477): Destination steps. -/
def R.DMAc_DSTEP1 (c : Nat) : Nat := 0x00600138 + c * 0x80
def F.DMAc_DSTEP1_STEP (c : Nat) : Fld := ⟨R.DMAc_DSTEP1 c, 31, 0⟩
/-- DMAc_DSTEP2 (R477): Destination steps. -/
def R.DMAc_DSTEP2 (c : Nat) : Nat := 0x0060013C + c * 0x80
def F.DMAc_DSTEP2_STEP (c : Nat) : Fld := ⟨R.DMAc_DSTEP2 c, 31, 0⟩
/-- DMAc_PROG_LO (R477): Program base. -/
def R.DMAc_PROG_LO (c : Nat) : Nat := 0x00600140 + c * 0x80
def F.DMAc_PROG_LO_BASE_LO (c : Nat) : Fld := ⟨R.DMAc_PROG_LO c, 31, 4⟩
/-- DMAc_PROG_HI (R477): Program base. -/
def R.DMAc_PROG_HI (c : Nat) : Nat := 0x00600144 + c * 0x80
def F.DMAc_PROG_HI_BASE_HI (c : Nat) : Fld := ⟨R.DMAc_PROG_HI c, 3, 0⟩
/-- DMAc_IDX01 (R477): Indices of loops 0 and 1. -/
def R.DMAc_IDX01 (c : Nat) : Nat := 0x00600148 + c * 0x80
def F.DMAc_IDX01_I1 (c : Nat) : Fld := ⟨R.DMAc_IDX01 c, 31, 16⟩
def F.DMAc_IDX01_I0 (c : Nat) : Fld := ⟨R.DMAc_IDX01 c, 15, 0⟩
/-- DMAc_IDX2 (R477): PC and index of loop 2. -/
def R.DMAc_IDX2 (c : Nat) : Nat := 0x0060014C + c * 0x80
def F.DMAc_IDX2_PC (c : Nat) : Fld := ⟨R.DMAc_IDX2 c, 31, 20⟩
def F.DMAc_IDX2_I2 (c : Nat) : Fld := ⟨R.DMAc_IDX2 c, 15, 0⟩
/-- DMAc_FLT (R477): Fault cause. -/
def R.DMAc_FLT (c : Nat) : Nat := 0x00600150 + c * 0x80
def F.DMAc_FLT_CAUSE (c : Nat) : Fld := ⟨R.DMAc_FLT c, 31, 24⟩
/-- DMAc_FLT_ADDR_LO (R477): Fault address. -/
def R.DMAc_FLT_ADDR_LO (c : Nat) : Nat := 0x00600154 + c * 0x80
def F.DMAc_FLT_ADDR_LO_ADDR_LO (c : Nat) : Fld := ⟨R.DMAc_FLT_ADDR_LO c, 31, 0⟩
/-- DMAc_FLT_ADDR_HI (R477): Fault address. -/
def R.DMAc_FLT_ADDR_HI (c : Nat) : Nat := 0x00600158 + c * 0x80
def F.DMAc_FLT_ADDR_HI_ADDR_HI (c : Nat) : Fld := ⟨R.DMAc_FLT_ADDR_HI c, 3, 0⟩
/-- BAT_CTL (R503): Enable, forwarding, protected cache, automatic takeover. -/
def R.BAT_CTL : Nat := 0x08000000
def F.BAT_CTL_AUTO_TAKE : Fld := ⟨R.BAT_CTL, 3, 3⟩
def F.BAT_CTL_PCACHE : Fld := ⟨R.BAT_CTL, 2, 2⟩
def F.BAT_CTL_FWD_EN : Fld := ⟨R.BAT_CTL, 1, 1⟩
def F.BAT_CTL_ENABLE : Fld := ⟨R.BAT_CTL, 0, 0⟩
/-- BAT_STAT (R503): Link, match, suspicion, failover, partner mode. -/
def R.BAT_STAT : Nat := 0x08000004
def F.BAT_STAT_LINK_UP : Fld := ⟨R.BAT_STAT, 31, 31⟩
def F.BAT_STAT_PEER_OK : Fld := ⟨R.BAT_STAT, 30, 30⟩
def F.BAT_STAT_MISMATCH : Fld := ⟨R.BAT_STAT, 29, 29⟩
def F.BAT_STAT_SUSPECT : Fld := ⟨R.BAT_STAT, 28, 28⟩
def F.BAT_STAT_FAILOVER : Fld := ⟨R.BAT_STAT, 27, 26⟩
def F.BAT_STAT_PEER_MODE : Fld := ⟨R.BAT_STAT, 25, 22⟩
def F.BAT_STAT_MIRRORING : Fld := ⟨R.BAT_STAT, 21, 21⟩
/-- BAT_OWN_CTL (R503): Claims. -/
def R.BAT_OWN_CTL : Nat := 0x08000008
def F.BAT_OWN_CTL_CLAIM : Fld := ⟨R.BAT_OWN_CTL, 3, 0⟩
/-- BAT_OWN_STAT (R503): Acknowledgements, toggling, partner's ownership. -/
def R.BAT_OWN_STAT : Nat := 0x0800000C
def F.BAT_OWN_STAT_PEER_OWNS : Fld := ⟨R.BAT_OWN_STAT, 11, 8⟩
def F.BAT_OWN_STAT_TOGGLING : Fld := ⟨R.BAT_OWN_STAT, 7, 4⟩
def F.BAT_OWN_STAT_ACK : Fld := ⟨R.BAT_OWN_STAT, 3, 0⟩
/-- BAT_HB_CFG (R503): Heartbeat period and misses. -/
def R.BAT_HB_CFG : Nat := 0x08000010
def F.BAT_HB_CFG_MISS : Fld := ⟨R.BAT_HB_CFG, 19, 16⟩
def F.BAT_HB_CFG_PERIOD : Fld := ⟨R.BAT_HB_CFG, 15, 0⟩
/-- BAT_CRED (R503): Credit ledger. -/
def R.BAT_CRED : Nat := 0x08000014
def F.BAT_CRED_INFLIGHT : Fld := ⟨R.BAT_CRED, 31, 31⟩
def F.BAT_CRED_RX_HELD : Fld := ⟨R.BAT_CRED, 24, 16⟩
def F.BAT_CRED_AVAIL : Fld := ⟨R.BAT_CRED, 8, 0⟩
/-- BAT_PEER_VER (R503): Partner's core firmware version. -/
def R.BAT_PEER_VER : Nat := 0x08000018
def F.BAT_PEER_VER_VERSION : Fld := ⟨R.BAT_PEER_VER, 31, 0⟩
/-- BAT_PEER_SET (R503): Partner's pair set, role, stepping. -/
def R.BAT_PEER_SET : Nat := 0x0800001C
def F.BAT_PEER_SET_PAIR_SET : Fld := ⟨R.BAT_PEER_SET, 31, 16⟩
def F.BAT_PEER_SET_ROLE : Fld := ⟨R.BAT_PEER_SET, 15, 14⟩
def F.BAT_PEER_SET_STEPPING : Fld := ⟨R.BAT_PEER_SET, 7, 0⟩
/-- BAT_SEQ_CEIL_LO (R503): Partner's acknowledged ceiling bits [31:0] (R16). -/
def R.BAT_SEQ_CEIL_LO : Nat := 0x08000020
def F.BAT_SEQ_CEIL_LO_CEIL_LO : Fld := ⟨R.BAT_SEQ_CEIL_LO, 31, 0⟩
/-- BAT_SEQ_CEIL_HI (R503): Bits [47:32]. -/
def R.BAT_SEQ_CEIL_HI : Nat := 0x08000024
def F.BAT_SEQ_CEIL_HI_CEIL_HI : Fld := ⟨R.BAT_SEQ_CEIL_HI, 15, 0⟩
/-- BAT_FLT (R503): Pair events. -/
def R.BAT_FLT : Nat := 0x08000028
def F.BAT_FLT_OWN_LOST : Fld := ⟨R.BAT_FLT, 5, 5⟩
def F.BAT_FLT_LINK_LOST : Fld := ⟨R.BAT_FLT, 4, 4⟩
def F.BAT_FLT_MISMATCH : Fld := ⟨R.BAT_FLT, 3, 3⟩
def F.BAT_FLT_FAILOVER : Fld := ⟨R.BAT_FLT, 2, 2⟩
def F.BAT_FLT_MIRROR_DISCARD : Fld := ⟨R.BAT_FLT, 1, 1⟩
def F.BAT_FLT_REPLAY : Fld := ⟨R.BAT_FLT, 0, 0⟩
/-- BAT_CNT (R503): Check errors, replays. -/
def R.BAT_CNT : Nat := 0x0800002C
def F.BAT_CNT_CRC_ERR : Fld := ⟨R.BAT_CNT, 31, 16⟩
def F.BAT_CNT_REPLAYS : Fld := ⟨R.BAT_CNT, 15, 0⟩
/-- BAT_CNT1 (R503): Adopted blocks, reissued commands. -/
def R.BAT_CNT1 : Nat := 0x08000030
def F.BAT_CNT1_ADOPTED : Fld := ⟨R.BAT_CNT1, 31, 16⟩
def F.BAT_CNT1_REISSUED : Fld := ⟨R.BAT_CNT1, 15, 0⟩
/-- PWR_CTL (R520): Idle, lookahead, cadence policy. -/
def R.PWR_CTL : Nat := 0x06000000
def F.PWR_CTL_FIXED_CAD : Fld := ⟨R.PWR_CTL, 9, 8⟩
def F.PWR_CTL_FAST_WAKE : Fld := ⟨R.PWR_CTL, 3, 3⟩
def F.PWR_CTL_CAD_AUTO : Fld := ⟨R.PWR_CTL, 2, 2⟩
def F.PWR_CTL_LOOK_EN : Fld := ⟨R.PWR_CTL, 1, 1⟩
def F.PWR_CTL_IDLE_EN : Fld := ⟨R.PWR_CTL, 0, 0⟩
/-- PWR_STAT (R520): Host requests, lane limit, thermal state. -/
def R.PWR_STAT : Nat := 0x06000004
def F.PWR_STAT_HOST_OP : Fld := ⟨R.PWR_STAT, 30, 28⟩
def F.PWR_STAT_HOST_PS : Fld := ⟨R.PWR_STAT, 26, 24⟩
def F.PWR_STAT_IN_SVC : Fld := ⟨R.PWR_STAT, 23, 20⟩
def F.PWR_STAT_LANE_LIMIT : Fld := ⟨R.PWR_STAT, 19, 17⟩
def F.PWR_STAT_CAD_CEIL : Fld := ⟨R.PWR_STAT, 16, 15⟩
def F.PWR_STAT_THERM : Fld := ⟨R.PWR_STAT, 14, 13⟩
/-- PWR_IDLE_T0 (R520): Idle timers for PS3 and PS4. -/
def R.PWR_IDLE_T0 : Nat := 0x06000008
def F.PWR_IDLE_T0_T4 : Fld := ⟨R.PWR_IDLE_T0, 31, 16⟩
def F.PWR_IDLE_T0_T3 : Fld := ⟨R.PWR_IDLE_T0, 15, 0⟩
/-- PWR_IDLE_T1 (R520): Idle timers for PS5 and PS6. -/
def R.PWR_IDLE_T1 : Nat := 0x0600000C
def F.PWR_IDLE_T1_T6 : Fld := ⟨R.PWR_IDLE_T1, 31, 16⟩
def F.PWR_IDLE_T1_T5 : Fld := ⟨R.PWR_IDLE_T1, 15, 0⟩
/-- PWR_CAD_CFG (R520): Demand window and thresholds. -/
def R.PWR_CAD_CFG : Nat := 0x06000010
def F.PWR_CAD_CFG_HOLD : Fld := ⟨R.PWR_CAD_CFG, 31, 24⟩
def F.PWR_CAD_CFG_UP : Fld := ⟨R.PWR_CAD_CFG, 23, 16⟩
def F.PWR_CAD_CFG_DOWN : Fld := ⟨R.PWR_CAD_CFG, 15, 8⟩
def F.PWR_CAD_CFG_WIN : Fld := ⟨R.PWR_CAD_CFG, 7, 0⟩
/-- PWR_CAD_DWELL (R520): Dwell, rotation period. -/
def R.PWR_CAD_DWELL : Nat := 0x06000014
def F.PWR_CAD_DWELL_DWELL : Fld := ⟨R.PWR_CAD_DWELL, 31, 16⟩
def F.PWR_CAD_DWELL_ROT : Fld := ⟨R.PWR_CAD_DWELL, 15, 0⟩
/-- PWR_NEXT_EVT (R520): Earliest known event. -/
def R.PWR_NEXT_EVT : Nat := 0x06000018
def F.PWR_NEXT_EVT_SOURCE : Fld := ⟨R.PWR_NEXT_EVT, 31, 29⟩
def F.PWR_NEXT_EVT_MS : Fld := ⟨R.PWR_NEXT_EVT, 28, 0⟩
/-- PWR_HINT_LO (R520): Hint ring time bits [31:0] (R16). -/
def R.PWR_HINT_LO : Nat := 0x0600001C
def F.PWR_HINT_LO_TIME : Fld := ⟨R.PWR_HINT_LO, 31, 0⟩
/-- PWR_HINT_HI (R520): Hint ring time bits [63:32]. -/
def R.PWR_HINT_HI : Nat := 0x06000020
def F.PWR_HINT_HI_TIME : Fld := ⟨R.PWR_HINT_HI, 31, 0⟩
/-- PWR_TEMP (R520): Junction temperature. -/
def R.PWR_TEMP : Nat := 0x06000024
def F.PWR_TEMP_TJ_MAX : Fld := ⟨R.PWR_TEMP, 23, 16⟩
def F.PWR_TEMP_TJ : Fld := ⟨R.PWR_TEMP, 7, 0⟩
/-- PWR_TEMP_CFG (R520): Thermal thresholds. -/
def R.PWR_TEMP_CFG : Nat := 0x06000028
def F.PWR_TEMP_CFG_TRIP : Fld := ⟨R.PWR_TEMP_CFG, 23, 16⟩
def F.PWR_TEMP_CFG_CRIT : Fld := ⟨R.PWR_TEMP_CFG, 15, 8⟩
def F.PWR_TEMP_CFG_WARN : Fld := ⟨R.PWR_TEMP_CFG, 7, 0⟩
/-- PWR_FLT (R520): Power events. -/
def R.PWR_FLT : Nat := 0x0600002C
def F.PWR_FLT_LATE_WAKE : Fld := ⟨R.PWR_FLT, 5, 5⟩
def F.PWR_FLT_OVERTEMP : Fld := ⟨R.PWR_FLT, 4, 4⟩
def F.PWR_FLT_TRIP : Fld := ⟨R.PWR_FLT, 3, 3⟩
def F.PWR_FLT_CRIT : Fld := ⟨R.PWR_FLT, 2, 2⟩
def F.PWR_FLT_WARN : Fld := ⟨R.PWR_FLT, 1, 1⟩
def F.PWR_FLT_RAIL_LOW : Fld := ⟨R.PWR_FLT, 0, 0⟩
/-- PWR_CNT (R520): Cadence changes, late wakes. -/
def R.PWR_CNT : Nat := 0x06000030
def F.PWR_CNT_CAD_CHG : Fld := ⟨R.PWR_CNT, 31, 16⟩
def F.PWR_CNT_LATE_WAKE : Fld := ⟨R.PWR_CNT, 15, 0⟩
/-- PWR_PSD_LAT0 (R520): ENLAT and EXLAT of PSk, k = 0 to 6. -/
def R.PWR_PSD_LAT0 : Nat := 0x06000040
def F.PWR_PSD_LAT0_ENLAT : Fld := ⟨R.PWR_PSD_LAT0, 31, 16⟩
def F.PWR_PSD_LAT0_EXLAT : Fld := ⟨R.PWR_PSD_LAT0, 15, 0⟩
/-- PWR_PSD_LAT1 (R520): ENLAT and EXLAT of PSk, k = 0 to 6. -/
def R.PWR_PSD_LAT1 : Nat := 0x06000044
def F.PWR_PSD_LAT1_ENLAT : Fld := ⟨R.PWR_PSD_LAT1, 31, 16⟩
def F.PWR_PSD_LAT1_EXLAT : Fld := ⟨R.PWR_PSD_LAT1, 15, 0⟩
/-- PWR_PSD_LAT2 (R520): ENLAT and EXLAT of PSk, k = 0 to 6. -/
def R.PWR_PSD_LAT2 : Nat := 0x06000048
def F.PWR_PSD_LAT2_ENLAT : Fld := ⟨R.PWR_PSD_LAT2, 31, 16⟩
def F.PWR_PSD_LAT2_EXLAT : Fld := ⟨R.PWR_PSD_LAT2, 15, 0⟩
/-- PWR_PSD_LAT3 (R520): ENLAT and EXLAT of PSk, k = 0 to 6. -/
def R.PWR_PSD_LAT3 : Nat := 0x0600004C
def F.PWR_PSD_LAT3_ENLAT : Fld := ⟨R.PWR_PSD_LAT3, 31, 16⟩
def F.PWR_PSD_LAT3_EXLAT : Fld := ⟨R.PWR_PSD_LAT3, 15, 0⟩
/-- PWR_PSD_LAT4 (R520): ENLAT and EXLAT of PSk, k = 0 to 6. -/
def R.PWR_PSD_LAT4 : Nat := 0x06000050
def F.PWR_PSD_LAT4_ENLAT : Fld := ⟨R.PWR_PSD_LAT4, 31, 16⟩
def F.PWR_PSD_LAT4_EXLAT : Fld := ⟨R.PWR_PSD_LAT4, 15, 0⟩
/-- PWR_PSD_LAT5 (R520): ENLAT and EXLAT of PSk, k = 0 to 6. -/
def R.PWR_PSD_LAT5 : Nat := 0x06000054
def F.PWR_PSD_LAT5_ENLAT : Fld := ⟨R.PWR_PSD_LAT5, 31, 16⟩
def F.PWR_PSD_LAT5_EXLAT : Fld := ⟨R.PWR_PSD_LAT5, 15, 0⟩
/-- PWR_PSD_LAT6 (R520): ENLAT and EXLAT of PSk, k = 0 to 6. -/
def R.PWR_PSD_LAT6 : Nat := 0x06000058
def F.PWR_PSD_LAT6_ENLAT : Fld := ⟨R.PWR_PSD_LAT6, 31, 16⟩
def F.PWR_PSD_LAT6_EXLAT : Fld := ⟨R.PWR_PSD_LAT6, 15, 0⟩
/-- PWR_PSD_MP0 (R520): MP of PSk. -/
def R.PWR_PSD_MP0 : Nat := 0x06000060
def F.PWR_PSD_MP0_MP : Fld := ⟨R.PWR_PSD_MP0, 15, 0⟩
/-- PWR_PSD_MP1 (R520): MP of PSk. -/
def R.PWR_PSD_MP1 : Nat := 0x06000064
def F.PWR_PSD_MP1_MP : Fld := ⟨R.PWR_PSD_MP1, 15, 0⟩
/-- PWR_PSD_MP2 (R520): MP of PSk. -/
def R.PWR_PSD_MP2 : Nat := 0x06000068
def F.PWR_PSD_MP2_MP : Fld := ⟨R.PWR_PSD_MP2, 15, 0⟩
/-- PWR_PSD_MP3 (R520): MP of PSk. -/
def R.PWR_PSD_MP3 : Nat := 0x0600006C
def F.PWR_PSD_MP3_MP : Fld := ⟨R.PWR_PSD_MP3, 15, 0⟩
/-- PWR_PSD_MP4 (R520): MP of PSk. -/
def R.PWR_PSD_MP4 : Nat := 0x06000070
def F.PWR_PSD_MP4_MP : Fld := ⟨R.PWR_PSD_MP4, 15, 0⟩
/-- PWR_PSD_MP5 (R520): MP of PSk. -/
def R.PWR_PSD_MP5 : Nat := 0x06000074
def F.PWR_PSD_MP5_MP : Fld := ⟨R.PWR_PSD_MP5, 15, 0⟩
/-- PWR_PSD_MP6 (R520): MP of PSk. -/
def R.PWR_PSD_MP6 : Nat := 0x06000078
def F.PWR_PSD_MP6_MP : Fld := ⟨R.PWR_PSD_MP6, 15, 0⟩
/-- TRC_ID (R556): Stepping, ROM version, drive-secret state. -/
def R.TRC_ID : Nat := 0x00020000
def F.TRC_ID_STEPPING : Fld := ⟨R.TRC_ID, 31, 24⟩
def F.TRC_ID_ROM_VER : Fld := ⟨R.TRC_ID, 23, 16⟩
def F.TRC_ID_DS_STATE : Fld := ⟨R.TRC_ID, 1, 0⟩
/-- TRC_BOOT_STAT (R556): Boot phase, bank, trial, failure. -/
def R.TRC_BOOT_STAT : Nat := 0x00020004
def F.TRC_BOOT_STAT_PHASE : Fld := ⟨R.TRC_BOOT_STAT, 31, 28⟩
def F.TRC_BOOT_STAT_BANK : Fld := ⟨R.TRC_BOOT_STAT, 27, 27⟩
def F.TRC_BOOT_STAT_TRIAL : Fld := ⟨R.TRC_BOOT_STAT, 26, 26⟩
def F.TRC_BOOT_STAT_REVERTED : Fld := ⟨R.TRC_BOOT_STAT, 25, 25⟩
def F.TRC_BOOT_STAT_REC_FAIL : Fld := ⟨R.TRC_BOOT_STAT, 24, 24⟩
def F.TRC_BOOT_STAT_TRIES : Fld := ⟨R.TRC_BOOT_STAT, 23, 16⟩
def F.TRC_BOOT_STAT_FAIL_CODE : Fld := ⟨R.TRC_BOOT_STAT, 15, 8⟩
/-- TRC_BOOT_NUM (R556): Boot number of this boot. -/
def R.TRC_BOOT_NUM : Nat := 0x00020008
def F.TRC_BOOT_NUM_NUM : Fld := ⟨R.TRC_BOOT_NUM, 31, 0⟩
/-- TRC_SVN (R556): Manifest SVN and MIN_SVN. -/
def R.TRC_SVN : Nat := 0x0002000C
def F.TRC_SVN_MIN_SVN : Fld := ⟨R.TRC_SVN, 31, 16⟩
def F.TRC_SVN_SVN : Fld := ⟨R.TRC_SVN, 15, 0⟩
/-- TRC_CFW_VER (R556): Core firmware version. -/
def R.TRC_CFW_VER : Nat := 0x00020010
def F.TRC_CFW_VER_VERSION : Fld := ⟨R.TRC_CFW_VER, 31, 0⟩
/-- TRC_MAN_DIG (R556): Active manifest digest bytes 0 to 3. -/
def R.TRC_MAN_DIG : Nat := 0x00020014
def F.TRC_MAN_DIG_DIG : Fld := ⟨R.TRC_MAN_DIG, 31, 0⟩
/-- TRC_UPD_CMD (R556): GO and CONFIRM. -/
def R.TRC_UPD_CMD : Nat := 0x00020018
def F.TRC_UPD_CMD_CONFIRM : Fld := ⟨R.TRC_UPD_CMD, 1, 1⟩
def F.TRC_UPD_CMD_GO : Fld := ⟨R.TRC_UPD_CMD, 0, 0⟩
/-- TRC_UPD_STAT (R556): Update state and events. -/
def R.TRC_UPD_STAT : Nat := 0x0002001C
def F.TRC_UPD_STAT_STATE : Fld := ⟨R.TRC_UPD_STAT, 31, 28⟩
def F.TRC_UPD_STAT_GO_REJ : Fld := ⟨R.TRC_UPD_STAT, 2, 2⟩
def F.TRC_UPD_STAT_MISSED : Fld := ⟨R.TRC_UPD_STAT, 1, 1⟩
def F.TRC_UPD_STAT_STAGE_FAIL : Fld := ⟨R.TRC_UPD_STAT, 0, 0⟩
/-- TRC_UPD_CFG (R556): Trial limit. -/
def R.TRC_UPD_CFG : Nat := 0x00020020
def F.TRC_UPD_CFG_TRIAL_MAX : Fld := ⟨R.TRC_UPD_CFG, 3, 0⟩
/-- TRC_ARM_LO (R556): Armed ring time bits [31:0] (R16). -/
def R.TRC_ARM_LO : Nat := 0x00020024
def F.TRC_ARM_LO_TIME : Fld := ⟨R.TRC_ARM_LO, 31, 0⟩
/-- TRC_ARM_HI (R556): Bits [63:32]. -/
def R.TRC_ARM_HI : Nat := 0x00020028
def F.TRC_ARM_HI_TIME : Fld := ⟨R.TRC_ARM_HI, 31, 0⟩
/-- TRC_ARM_WIN (R556): Window, ms. -/
def R.TRC_ARM_WIN : Nat := 0x0002002C
def F.TRC_ARM_WIN_WIN : Fld := ⟨R.TRC_ARM_WIN, 31, 0⟩
/-- TRC_MBOX (R556): Event to the control cores. -/
def R.TRC_MBOX : Nat := 0x00020030
def F.TRC_MBOX_COUNT : Fld := ⟨R.TRC_MBOX, 15, 8⟩
def F.TRC_MBOX_EVENT : Fld := ⟨R.TRC_MBOX, 7, 0⟩
/-- TRC_FLT (R556): Trust events. -/
def R.TRC_FLT : Nat := 0x00020034
def F.TRC_FLT_TRNG : Fld := ⟨R.TRC_FLT, 4, 4⟩
def F.TRC_FLT_REC_WRITE : Fld := ⟨R.TRC_FLT, 3, 3⟩
def F.TRC_FLT_DIGEST : Fld := ⟨R.TRC_FLT, 2, 2⟩
def F.TRC_FLT_AUTH_FAIL : Fld := ⟨R.TRC_FLT, 1, 1⟩
def F.TRC_FLT_KEYTAB : Fld := ⟨R.TRC_FLT, 0, 0⟩
/-- SVC_STAT (R557): Alignment, hold, session. -/
def R.SVC_STAT : Nat := 0x09100000
def F.SVC_STAT_SYNC : Fld := ⟨R.SVC_STAT, 31, 31⟩
def F.SVC_STAT_PEER_HOLD : Fld := ⟨R.SVC_STAT, 30, 30⟩
def F.SVC_STAT_SESSION : Fld := ⟨R.SVC_STAT, 29, 28⟩
/-- SVC_RESULT_STAT (R557): Outcome of the last long command. -/
def R.SVC_RESULT_STAT : Nat := 0x09100004
def F.SVC_RESULT_STAT_VALID : Fld := ⟨R.SVC_RESULT_STAT, 31, 31⟩
def F.SVC_RESULT_STAT_CMD : Fld := ⟨R.SVC_RESULT_STAT, 23, 16⟩
def F.SVC_RESULT_STAT_STATUS : Fld := ⟨R.SVC_RESULT_STAT, 15, 0⟩
/-- SVC_RESULT_DATA (R557): Outcome data. -/
def R.SVC_RESULT_DATA : Nat := 0x09100008
def F.SVC_RESULT_DATA_DATA : Fld := ⟨R.SVC_RESULT_DATA, 31, 0⟩
/-- SVC_RX_DATA (R557): Pops a firmware-frame word. -/
def R.SVC_RX_DATA : Nat := 0x0910000C
def F.SVC_RX_DATA_WORD : Fld := ⟨R.SVC_RX_DATA, 31, 0⟩
/-- SVC_TX_DATA (R557): Pushes an answer word. -/
def R.SVC_TX_DATA : Nat := 0x09100010
def F.SVC_TX_DATA_WORD : Fld := ⟨R.SVC_TX_DATA, 31, 0⟩
/-- SVC_CNT (R557): Line errors. -/
def R.SVC_CNT : Nat := 0x09100014
def F.SVC_CNT_CRC_ERR : Fld := ⟨R.SVC_CNT, 31, 16⟩
def F.SVC_CNT_CODE_ERR : Fld := ⟨R.SVC_CNT, 15, 0⟩
/-- EVR_CTL (R587): Firmware freeze, flag records. -/
def R.EVR_CTL : Nat := 0x07000000
def F.EVR_CTL_FLAG_EN : Fld := ⟨R.EVR_CTL, 1, 1⟩
def F.EVR_CTL_FREEZE : Fld := ⟨R.EVR_CTL, 0, 0⟩
/-- EVR_CFG (R587): Freeze limit, interrupt severity. -/
def R.EVR_CFG : Nat := 0x07000004
def F.EVR_CFG_FRZ_MAX : Fld := ⟨R.EVR_CFG, 31, 16⟩
def F.EVR_CFG_IRQ_SEV : Fld := ⟨R.EVR_CFG, 1, 0⟩
/-- EVR_STAT (R587): Full, holds, failure, epitaphs, epoch. -/
def R.EVR_STAT : Nat := 0x07000008
def F.EVR_STAT_FULL : Fld := ⟨R.EVR_STAT, 31, 31⟩
def F.EVR_STAT_FRZ_FW : Fld := ⟨R.EVR_STAT, 30, 30⟩
def F.EVR_STAT_FRZ_SVC : Fld := ⟨R.EVR_STAT, 29, 29⟩
def F.EVR_STAT_LOG_FAILED : Fld := ⟨R.EVR_STAT, 28, 28⟩
def F.EVR_STAT_EPI_USED : Fld := ⟨R.EVR_STAT, 27, 22⟩
def F.EVR_STAT_EPOCH : Fld := ⟨R.EVR_STAT, 15, 0⟩
/-- EVR_NEXT (R587): Next log slot. -/
def R.EVR_NEXT : Nat := 0x0700000C
def F.EVR_NEXT_NEXT : Fld := ⟨R.EVR_NEXT, 16, 0⟩
/-- EVR_DROP_FULL (R587): Events dropped with the log full. -/
def R.EVR_DROP_FULL : Nat := 0x07000010
def F.EVR_DROP_FULL_COUNT : Fld := ⟨R.EVR_DROP_FULL, 31, 0⟩
/-- EVR_DROP_FRZ (R587): Events dropped while frozen. -/
def R.EVR_DROP_FRZ : Nat := 0x07000014
def F.EVR_DROP_FRZ_COUNT : Fld := ⟨R.EVR_DROP_FRZ, 31, 0⟩
/-- EVR_DROP_OTHER (R587): Events dropped otherwise. -/
def R.EVR_DROP_OTHER : Nat := 0x07000018
def F.EVR_DROP_OTHER_COUNT : Fld := ⟨R.EVR_DROP_OTHER, 31, 0⟩
/-- EVR_RD_SEL (R587): Record read selection. -/
def R.EVR_RD_SEL : Nat := 0x0700001C
def F.EVR_RD_SEL_AREA : Fld := ⟨R.EVR_RD_SEL, 31, 31⟩
def F.EVR_RD_SEL_AUTOINC : Fld := ⟨R.EVR_RD_SEL, 30, 30⟩
def F.EVR_RD_SEL_WORD : Fld := ⟨R.EVR_RD_SEL, 19, 16⟩
def F.EVR_RD_SEL_SLOT : Fld := ⟨R.EVR_RD_SEL, 15, 0⟩
/-- EVR_RD_DATA (R587): Selected record word. -/
def R.EVR_RD_DATA : Nat := 0x07000020
def F.EVR_RD_DATA_WORD : Fld := ⟨R.EVR_RD_DATA, 31, 0⟩
/-- EVR_FW_CODE (R587): Posts a firmware record. -/
def R.EVR_FW_CODE : Nat := 0x07000024
def F.EVR_FW_CODE_UNIT : Fld := ⟨R.EVR_FW_CODE, 31, 16⟩
def F.EVR_FW_CODE_SEV : Fld := ⟨R.EVR_FW_CODE, 15, 14⟩
def F.EVR_FW_CODE_CODE : Fld := ⟨R.EVR_FW_CODE, 13, 0⟩
/-- EVR_FW_DATA0 (R587): DATA bytes 4k to 4k + 3, k = 0 to 8. -/
def R.EVR_FW_DATA0 : Nat := 0x07000028
def F.EVR_FW_DATA0_DATA : Fld := ⟨R.EVR_FW_DATA0, 31, 0⟩
/-- EVR_FW_DATA1 (R587): DATA bytes 4k to 4k + 3, k = 0 to 8. -/
def R.EVR_FW_DATA1 : Nat := 0x0700002C
def F.EVR_FW_DATA1_DATA : Fld := ⟨R.EVR_FW_DATA1, 31, 0⟩
/-- EVR_FW_DATA2 (R587): DATA bytes 4k to 4k + 3, k = 0 to 8. -/
def R.EVR_FW_DATA2 : Nat := 0x07000030
def F.EVR_FW_DATA2_DATA : Fld := ⟨R.EVR_FW_DATA2, 31, 0⟩
/-- EVR_FW_DATA3 (R587): DATA bytes 4k to 4k + 3, k = 0 to 8. -/
def R.EVR_FW_DATA3 : Nat := 0x07000034
def F.EVR_FW_DATA3_DATA : Fld := ⟨R.EVR_FW_DATA3, 31, 0⟩
/-- EVR_FW_DATA4 (R587): DATA bytes 4k to 4k + 3, k = 0 to 8. -/
def R.EVR_FW_DATA4 : Nat := 0x07000038
def F.EVR_FW_DATA4_DATA : Fld := ⟨R.EVR_FW_DATA4, 31, 0⟩
/-- EVR_FW_DATA5 (R587): DATA bytes 4k to 4k + 3, k = 0 to 8. -/
def R.EVR_FW_DATA5 : Nat := 0x0700003C
def F.EVR_FW_DATA5_DATA : Fld := ⟨R.EVR_FW_DATA5, 31, 0⟩
/-- EVR_FW_DATA6 (R587): DATA bytes 4k to 4k + 3, k = 0 to 8. -/
def R.EVR_FW_DATA6 : Nat := 0x07000040
def F.EVR_FW_DATA6_DATA : Fld := ⟨R.EVR_FW_DATA6, 31, 0⟩
/-- EVR_FW_DATA7 (R587): DATA bytes 4k to 4k + 3, k = 0 to 8. -/
def R.EVR_FW_DATA7 : Nat := 0x07000044
def F.EVR_FW_DATA7_DATA : Fld := ⟨R.EVR_FW_DATA7, 31, 0⟩
/-- EVR_FW_DATA8 (R587): DATA bytes 4k to 4k + 3, k = 0 to 8. -/
def R.EVR_FW_DATA8 : Nat := 0x07000048
def F.EVR_FW_DATA8_DATA : Fld := ⟨R.EVR_FW_DATA8, 31, 0⟩
/-- EVR_STD_REQ (R587): Standings request. -/
def R.EVR_STD_REQ : Nat := 0x0700004C
def F.EVR_STD_REQ_REQ : Fld := ⟨R.EVR_STD_REQ, 0, 0⟩
/-- EVR_STD_STAT (R587): Standings progress. -/
def R.EVR_STD_STAT : Nat := 0x07000050
def F.EVR_STD_STAT_VALID : Fld := ⟨R.EVR_STD_STAT, 31, 31⟩
def F.EVR_STD_STAT_BUSY : Fld := ⟨R.EVR_STD_STAT, 30, 30⟩
/-- EVR_STD_SEL (R587): Summary word selection. -/
def R.EVR_STD_SEL : Nat := 0x07000054
def F.EVR_STD_SEL_AUTOINC : Fld := ⟨R.EVR_STD_SEL, 31, 31⟩
def F.EVR_STD_SEL_WORD : Fld := ⟨R.EVR_STD_SEL, 5, 0⟩
/-- EVR_STD_DATA (R587): Selected summary word. -/
def R.EVR_STD_DATA : Nat := 0x07000058
def F.EVR_STD_DATA_WORD : Fld := ⟨R.EVR_STD_DATA, 31, 0⟩
/-- EVR_FLT (R587): Recorder events. -/
def R.EVR_FLT : Nat := 0x0700005C
def F.EVR_FLT_HDR_BAD : Fld := ⟨R.EVR_FLT, 3, 3⟩
def F.EVR_FLT_THAW_TO : Fld := ⟨R.EVR_FLT, 2, 2⟩
def F.EVR_FLT_FULL_EVT : Fld := ⟨R.EVR_FLT, 1, 1⟩
def F.EVR_FLT_QUEUE_OVF : Fld := ⟨R.EVR_FLT, 0, 0⟩
/-- TLY_CFG (R588): Window, commit period. -/
def R.TLY_CFG : Nat := 0x07100000
def F.TLY_CFG_WIN : Fld := ⟨R.TLY_CFG, 23, 16⟩
def F.TLY_CFG_COMMIT_MS : Fld := ⟨R.TLY_CFG, 15, 0⟩
/-- TLY_STAT (R588): Commit in progress, staged entries. -/
def R.TLY_STAT : Nat := 0x07100004
def F.TLY_STAT_COMMITTING : Fld := ⟨R.TLY_STAT, 31, 31⟩
def F.TLY_STAT_STAGED : Fld := ⟨R.TLY_STAT, 12, 0⟩
/-- TLY_WIN_END_LO (R588): Next close, bits [31:0] (R16). -/
def R.TLY_WIN_END_LO : Nat := 0x07100008
def F.TLY_WIN_END_LO_TIME : Fld := ⟨R.TLY_WIN_END_LO, 31, 0⟩
/-- TLY_WIN_END_HI (R588): Bits [63:32]. -/
def R.TLY_WIN_END_HI : Nat := 0x0710000C
def F.TLY_WIN_END_HI_TIME : Fld := ⟨R.TLY_WIN_END_HI, 31, 0⟩
/-- TLY_INC (R588): Firmware counter increment. -/
def R.TLY_INC : Nat := 0x07100010
def F.TLY_INC_INDEX : Fld := ⟨R.TLY_INC, 25, 16⟩
def F.TLY_INC_DELTA : Fld := ⟨R.TLY_INC, 15, 0⟩
/-- TLY_HIST (R588): Firmware histogram addition. -/
def R.TLY_HIST : Nat := 0x07100014
def F.TLY_HIST_HIST : Fld := ⟨R.TLY_HIST, 22, 16⟩
def F.TLY_HIST_BIN : Fld := ⟨R.TLY_HIST, 4, 0⟩
/-- TLY_RD_SEL (R588): Entry to read. -/
def R.TLY_RD_SEL : Nat := 0x07100018
def F.TLY_RD_SEL_ENTRY : Fld := ⟨R.TLY_RD_SEL, 12, 0⟩
/-- TLY_RD_LO (R588): Value bits [31:0]; latches TLY_RD_HI and TLY_RD_STAT. -/
def R.TLY_RD_LO : Nat := 0x0710001C
def F.TLY_RD_LO_VALUE : Fld := ⟨R.TLY_RD_LO, 31, 0⟩
/-- TLY_RD_HI (R588): Value bits [63:32]. -/
def R.TLY_RD_HI : Nat := 0x07100020
def F.TLY_RD_HI_VALUE : Fld := ⟨R.TLY_RD_HI, 31, 0⟩
/-- TLY_RD_STAT (R588): Validity of the latched value. -/
def R.TLY_RD_STAT : Nat := 0x07100024
def F.TLY_RD_STAT_VALID : Fld := ⟨R.TLY_RD_STAT, 31, 31⟩
def F.TLY_RD_STAT_PEND : Fld := ⟨R.TLY_RD_STAT, 30, 30⟩
def F.TLY_RD_STAT_SEQ : Fld := ⟨R.TLY_RD_STAT, 15, 0⟩
/-- TLY_CMD (R588): Commit now. -/
def R.TLY_CMD : Nat := 0x07100028
def F.TLY_CMD_COMMIT : Fld := ⟨R.TLY_CMD, 0, 0⟩
/-- TLY_FLT (R588): Tally events. -/
def R.TLY_FLT : Nat := 0x0710002C
def F.TLY_FLT_FW_REJ : Fld := ⟨R.TLY_FLT, 2, 2⟩
def F.TLY_FLT_WRITE_FAIL : Fld := ⟨R.TLY_FLT, 1, 1⟩
def F.TLY_FLT_SLOT_BAD : Fld := ⟨R.TLY_FLT, 0, 0⟩
/-- TLY_CNT (R588): Bad slots, failed writes. -/
def R.TLY_CNT : Nat := 0x07100030
def F.TLY_CNT_SLOT_BAD : Fld := ⟨R.TLY_CNT, 31, 16⟩
def F.TLY_CNT_WRITE_FAIL : Fld := ⟨R.TLY_CNT, 15, 0⟩
/-- MOC_CTL (R589): Enable, mastering, ID source. -/
def R.MOC_CTL : Nat := 0x09000000
def F.MOC_CTL_AUTO_ID : Fld := ⟨R.MOC_CTL, 3, 3⟩
def F.MOC_CTL_MASTER : Fld := ⟨R.MOC_CTL, 2, 2⟩
def F.MOC_CTL_ENABLE : Fld := ⟨R.MOC_CTL, 0, 0⟩
/-- MOC_STAT (R589): Sync, mastering, input, node ID. -/
def R.MOC_STAT : Nat := 0x09000004
def F.MOC_STAT_SYNC : Fld := ⟨R.MOC_STAT, 31, 31⟩
def F.MOC_STAT_MASTER_ACT : Fld := ⟨R.MOC_STAT, 30, 30⟩
def F.MOC_STAT_IN_ACTIVE : Fld := ⟨R.MOC_STAT, 29, 29⟩
def F.MOC_STAT_NODE : Fld := ⟨R.MOC_STAT, 12, 0⟩
/-- MOC_NODE (R589): Node ID when AUTO_ID = 0. -/
def R.MOC_NODE : Nat := 0x09000008
def F.MOC_NODE_ID : Fld := ⟨R.MOC_NODE, 12, 0⟩
/-- MOC_CFG (R589): TIME period. -/
def R.MOC_CFG : Nat := 0x0900000C
def F.MOC_CFG_PERIOD : Fld := ⟨R.MOC_CFG, 15, 0⟩
/-- MOC_TIME_LO (R589): Ring time bits [31:0] (R16). -/
def R.MOC_TIME_LO : Nat := 0x09000010
def F.MOC_TIME_LO_TIME : Fld := ⟨R.MOC_TIME_LO, 31, 0⟩
/-- MOC_TIME_HI (R589): Bits [63:32]. -/
def R.MOC_TIME_HI : Nat := 0x09000014
def F.MOC_TIME_HI_TIME : Fld := ⟨R.MOC_TIME_HI, 31, 0⟩
/-- MOC_LOOP (R589): L. -/
def R.MOC_LOOP : Nat := 0x09000018
def F.MOC_LOOP_L : Fld := ⟨R.MOC_LOOP, 31, 0⟩
/-- MOC_MASTER (R589): N and the master's ID. -/
def R.MOC_MASTER : Nat := 0x0900001C
def F.MOC_MASTER_N : Fld := ⟨R.MOC_MASTER, 28, 16⟩
def F.MOC_MASTER_ID : Fld := ⟨R.MOC_MASTER, 12, 0⟩
/-- MOC_TX_DATA (R589): Transmit word. -/
def R.MOC_TX_DATA : Nat := 0x09000020
def F.MOC_TX_DATA_WORD : Fld := ⟨R.MOC_TX_DATA, 31, 0⟩
/-- MOC_RX_DATA (R589): Receive word. -/
def R.MOC_RX_DATA : Nat := 0x09000024
def F.MOC_RX_DATA_WORD : Fld := ⟨R.MOC_RX_DATA, 31, 0⟩
/-- MOC_CMD (R589): ENUM. -/
def R.MOC_CMD : Nat := 0x09000028
def F.MOC_CMD_ENUM : Fld := ⟨R.MOC_CMD, 0, 0⟩
/-- MOC_FLT (R589): Ring events. -/
def R.MOC_FLT : Nat := 0x0900002C
def F.MOC_FLT_HOP_LIMIT : Fld := ⟨R.MOC_FLT, 4, 4⟩
def F.MOC_FLT_SYNC_LOST : Fld := ⟨R.MOC_FLT, 3, 3⟩
def F.MOC_FLT_MULTI : Fld := ⟨R.MOC_FLT, 2, 2⟩
def F.MOC_FLT_STEP : Fld := ⟨R.MOC_FLT, 1, 1⟩
def F.MOC_FLT_CRC : Fld := ⟨R.MOC_FLT, 0, 0⟩
/-- MOC_CNT (R589): Check errors, steps. -/
def R.MOC_CNT : Nat := 0x09000030
def F.MOC_CNT_CRC_ERR : Fld := ⟨R.MOC_CNT, 31, 16⟩
def F.MOC_CNT_STEPS : Fld := ⟨R.MOC_CNT, 15, 0⟩
/-- GLB_RST_CMD (R603): Configuration and lane resets; clean mark. -/
def R.GLB_RST_CMD : Nat := 0x00000024
def F.GLB_RST_CMD_LANE : Fld := ⟨R.GLB_RST_CMD, 7, 4⟩
def F.GLB_RST_CMD_CLEAN : Fld := ⟨R.GLB_RST_CMD, 2, 2⟩
def F.GLB_RST_CMD_FORCE : Fld := ⟨R.GLB_RST_CMD, 1, 1⟩
def F.GLB_RST_CMD_CONFIG : Fld := ⟨R.GLB_RST_CMD, 0, 0⟩
/-- GLB_RST_CAUSE (R603): Kind and source of the last chip reset. -/
def R.GLB_RST_CAUSE : Nat := 0x00000028
def F.GLB_RST_CAUSE_KIND : Fld := ⟨R.GLB_RST_CAUSE, 31, 28⟩
def F.GLB_RST_CAUSE_SOURCE : Fld := ⟨R.GLB_RST_CAUSE, 27, 24⟩
def F.GLB_RST_CAUSE_LANES : Fld := ⟨R.GLB_RST_CAUSE, 23, 20⟩
/-- GLB_RST_STAT (R603): Note states, Ke result, refusals, lane resets in progress. -/
def R.GLB_RST_STAT : Nat := 0x0000002C
def F.GLB_RST_STAT_NOTE : Fld := ⟨R.GLB_RST_STAT, 31, 29⟩
def F.GLB_RST_STAT_PREV_NOTE : Fld := ⟨R.GLB_RST_STAT, 28, 26⟩
def F.GLB_RST_STAT_NOTE_BAD : Fld := ⟨R.GLB_RST_STAT, 25, 25⟩
def F.GLB_RST_STAT_KE_OK : Fld := ⟨R.GLB_RST_STAT, 24, 24⟩
def F.GLB_RST_STAT_REJ : Fld := ⟨R.GLB_RST_STAT, 23, 23⟩
def F.GLB_RST_STAT_LANE_BUSY : Fld := ⟨R.GLB_RST_STAT, 21, 18⟩
/-- GLB_BALL_SEL (R628): Multiplexed group selections. -/
def R.GLB_BALL_SEL : Nat := 0x00000030
def F.GLB_BALL_SEL_APPLIED : Fld := ⟨R.GLB_BALL_SEL, 8, 8⟩
def F.GLB_BALL_SEL_MXB : Fld := ⟨R.GLB_BALL_SEL, 7, 4⟩
def F.GLB_BALL_SEL_MXA : Fld := ⟨R.GLB_BALL_SEL, 3, 0⟩
/-- GLB_GPIO_OUT (R628): GPIO output levels. -/
def R.GLB_GPIO_OUT : Nat := 0x00000034
def F.GLB_GPIO_OUT_OUT : Fld := ⟨R.GLB_GPIO_OUT, 23, 0⟩
/-- GLB_GPIO_OE (R628): GPIO output enables. -/
def R.GLB_GPIO_OE : Nat := 0x00000038
def F.GLB_GPIO_OE_OE : Fld := ⟨R.GLB_GPIO_OE, 23, 0⟩
/-- GLB_GPIO_IN (R628): Levels at the multiplexed balls. -/
def R.GLB_GPIO_IN : Nat := 0x0000003C
def F.GLB_GPIO_IN_IN : Fld := ⟨R.GLB_GPIO_IN, 23, 0⟩
/-- GLB_STRAP (R628): Strap values sampled at POR release. -/
def R.GLB_STRAP : Nat := 0x00000040
def F.GLB_STRAP_TESTEN : Fld := ⟨R.GLB_STRAP, 1, 1⟩
def F.GLB_STRAP_PAIR_ID : Fld := ⟨R.GLB_STRAP, 0, 0⟩

end Sys2Proof.Machine
end

