-- ==== Sys2Proof/Machine/State.lean ====
section
/-! DEFINITION. The state of the chip as plain data: every register (through the register space of Registers.lean),
every FIFO, buffer, table, counter and internal condition the spec names, the queue of waiting commands, and the
state after reset. Each field's docstring names the rule that gives it and its value after reset; where that value is the
model's choice, the log entry is named. -/

namespace Sys2Proof.Machine

/-- A sparse map in canonical form: keys strictly rising. -/
abbrev SMap (β : Type) := List (Nat × β)

/-- Why the machine stops with a fault. -/
inductive Fault where
  /-- Raised by no command: every row of the table has an effect, on every operand. It stands for behaviour of which the spec promises nothing
  and to which it gives no effect; R612 (TESTEN at 1), the one place that promises nothing, does give one (GLB_STRAP shows the strap, log 31). Safe. -/
  | nothingPromised
deriving DecidableEq, Repr

/-- Why a command is refused. -/
inductive Refusal where
  /-- Raised by an arm of `exec` for a row that has no meaning yet. Safe. -/
  | notModelled (mnemonic : String)
deriving DecidableEq, Repr

/-- What a register access returned (R9): nothing yet, a read value, a write done, a precise access fault of a hart at an
address, the address-error status of the service port, held until a lane reset ends (R633),
an exception of a hart with its cause and mtval (R438), or the bytes of a core access. -/
inductive BusAnswer where
  | none
  | value (w : Word)
  | done
  | accessFault (hart : Fin 8) (addr : Nat)
  | addressError
  | waiting
  | exception (hart : Fin 8) (cause tval : Nat)
  | data (v : Dword)
deriving DecidableEq, Repr


/-! ## Mode controller, resets and straps (01_planes_and_fabric.md, 23_startup_reset_faults.md, 24_balls_and_electrical.md) -/

/-- STATE of the power-loss note (R598). -/
inductive NoteState where
  | armed
  | clean
  | lost
  | forced
deriving DecidableEq, Repr

/-- The power-loss note's header (R598), with the CRC that stands in its last bytes. -/
structure Note where
  state : NoteState
  cause : BitVec 8
  mode : BitVec 8
  bootNum : BitVec 32
  dirty : BitVec 32
  time : Dword
  cond : BitVec 32
  motion : BitVec 32
  crc : BitVec 32
deriving DecidableEq, Repr

/-- Where a configuration reset stands (R592): none, waiting for every SVn to be in OFF, PARKED or FAULT, with whether dirty
blocks remained. -/
inductive CfgResetPhase where
  | none
  | waiting (dirty : Bool)
deriving DecidableEq, Repr

/-- A register access that waits for a lane reset to end (R633): the lane, the requester, the address, the data of a write (none: a read), and the
TAG of the service-port command that asked (R547). -/
structure LaneAccess where
  lane : Lane
  who : Req
  addr : Nat
  data : Option Word
  tag : Option (BitVec 16)
deriving DecidableEq, Repr

/-- The states of the test port's controller (R626, IEEE 1149.1). -/
inductive TapState where
  | testLogicReset
  | runTestIdle
  | selectDr
  | captureDr
  | shiftDr
  | exit1Dr
  | pauseDr
  | exit2Dr
  | updateDr
  | selectIr
  | captureIr
  | shiftIr
  | exit1Ir
  | pauseIr
  | exit2Ir
  | updateIr
deriving DecidableEq, Repr

/-- One cycle of TCK with the levels of TRST_N, TMS and TDI (R605, R626). -/
structure TckCycle where
  trstN : Bool
  tms : Bool
  tdi : Bool
deriving DecidableEq, Repr

/-- The test port (R626). -/
structure Tap where
  /-- The controller's state. Reset: Test-Logic-Reset. -/
  state : TapState
  /-- The instruction in force. Reset: IDCODE. -/
  ir : BitVec 8
  /-- The instruction shift register. Reset: 0. -/
  shiftIr : BitVec 8
  /-- The data register being shifted, the bit nearest TDO first. Reset: empty. -/
  shiftDr : List Bool
  /-- The levels held by the boundary-scan cells. Reset: empty, none held yet. -/
  cells : List Bool
  /-- Cycles of TCK that the board drives and the port has still to take, oldest first (log 44). Reset: empty. -/
  clocks : List TckCycle
deriving DecidableEq, Repr

/-- The global block beyond its registers. -/
structure Glb where
  /-- Units of GLB_UNIT_OK0 that are counted lost since the last chip reset, by their bits (R41, R42). Reset: 0. -/
  lost0 : Word
  /-- Units of GLB_UNIT_OK1 counted lost (R41, R42). Reset: 0. -/
  lost1 : Word
  /-- Row of the transition in progress while GLB_MODE_STAT.BUSY is 1 (R38, R635). Reset: 0. -/
  row : Nat
  /-- GLB_FABRIC_PACE.PACE is below 256 in the present excursion (R28). Reset: false. -/
  paceLow : Bool
  /-- Power-on reset is held (R595). Reset: false. -/
  porHeld : Bool
  /-- Configuration reset in progress (R592). Reset: none. -/
  cfgReset : CfgResetPhase
  /-- The power-loss note of boot MRAM (R598); kept over every reset. Reset: ARMED, as GLB writes it at release (R595). -/
  note : Note
  /-- The chip reached OFF through T16 (R599). Reset: false. -/
  offByT16 : Bool
  /-- Register accesses that wait for a lane reset to end (R633), oldest first. Reset: empty. -/
  waiting : List LaneAccess
  /-- The test port (R626); no chip reset touches it. Reset: Test-Logic-Reset with IDCODE, as TRST_N low holds it. -/
  tap : Tap
deriving DecidableEq, Repr



/-- What one write gate writes (R99, R131, R132): the bauds of preamble, then the bits from the sync mark to the end of the gate, and for
each transition among them its position and its shift in 1/64 baud, positive later. -/
structure WriteGate where
  preamble : Nat
  bits : List Bool
  shifts : List (Nat × Int)
deriving DecidableEq, Repr

/-- What the chip sends out, in order of sending: the model's own record of its pins and links (log 2). -/
inductive Out where
  /-- A Cuhar response frame (R544, R546): CMD, TAG, STATUS, whether FLAGS bit 1 marks a firmware frame, payload, and the bytes that the line
  carries between K27.7 and K29.7. -/
  | cuhar (cmd : BitVec 8) (tag status : BitVec 16) (fw : Bool) (payload bytes : List Byte)
  /-- K28.3 (true) or K28.1 (false) to the service equipment (R545). -/
  | cuharHold (hold : Bool)
  /-- A Mocel frame out of the out port (R579). -/
  | mocel (frame : MocFrame)
  /-- A block of data written to the host (R371, R578). -/
  | hostData (data : List Byte)
  /-- The bits of a preamp frame that the RH4480 drives, first bit highest, and their number (R68). -/
  | preamp (lane len bits : Nat)
  /-- A sector on the write pair (R99, R128): lane, head, track, position, information part, parity blocks, and what of it the gate that
  opens writes. -/
  | sector (lane head track index : Nat) (info : List Byte) (parity : List Dword) (gate : WriteGate)
  /-- The write pair is squelched: no differential signal reaches the preamp (R136, R147). -/
  | squelched (lane : Nat)
  /-- A frame on the motion link, bit 0 sent first (R171). -/
  | motion (frame : BitVec 64)
  /-- A completion entry written to host memory (R372): function, CQ, tail, DW0, DW1, SQHD, SQID, CID, phase, status, DNR, M. -/
  | completion (fn cq tail dw0 dw1 sqhd sqid cid : Nat) (phase : Bool) (status : NvStatus) (dnr more : Bool)
  /-- A read of entries of a queue in host memory (R360): function, SQ, the first entry and how many. -/
  | entryRead (fn sq first count : Nat)
  /-- An MSI-X message (R371, R374): function and vector. -/
  | msix (fn vector : Nat)
  /-- What a read of configuration space or of a controller register returns (R325, R327, R333): function and value. -/
  | cfgData (fn value : Nat)
  /-- An error message of Advanced Error Reporting (R342, R351): function, and whether the error is correctable. -/
  | aerMessage (fn : Nat) (correctable : Bool)
  /-- A write burst to a DRAM channel (R407): channel, line, the ten symbols. -/
  | dram (ch line : Nat) (burst : Vector (BitVec 64) 10)
  /-- A Baton message (R484, R485): LSEQ, ACKSEQ, CREDIT, TAG and its contents, and the bytes that the link carries. -/
  | baton (lseq ackseq credit : BitVec 16) (tag : BitVec 32) (m : BatMsg) (bytes : List Byte)
  /-- An edge of a BAT_OWN pin (R482). -/
  | own (act : Nat)
  /-- The level of TDO while a register is shifted (R626). -/
  | tdo (level : Bool)
  /-- The levels that the boundary-scan cells drive under EXTEST or CLAMP; none under HIGHZ (R626). -/
  | boundary (levels : Option (List Bool))
deriving DecidableEq, Repr

/-! ## Structure-image loader (02_structure_image.md) -/

/-- CFG beyond its registers. -/
structure Cfg where
  /-- Where in flash the structure image lies, once the trust core has handed CFG its slot (R57, R537 step 5). Reset: none. -/
  handed : Option Nat
  /-- The image being read into staging memory (R57). Reset: none. -/
  staging : Option Image
  /-- The applied image, the image-owned quantities of R44. Reset: none. -/
  image : Option Image
  /-- The media-format identifier recorded in boot MRAM (check 0x000E); kept over every reset. Reset: none, DESIGN CHOICE (log 5). -/
  mediaFormat : Option (BitVec 16)
deriving DecidableEq, Repr



/-! ## Lanes and decoders (03_head_link_and_front_end.md, 04_detection_and_recovery.md, 05_write_path.md) -/

/-- Who issued a preamp frame (R74): MSn gate frames, MSn setting frames and register reads, firmware. -/
inductive PbSource where
  | gate
  | setting
  | firmware
deriving DecidableEq, Repr

/-- A frame kind of R68. -/
inductive PbKind where
  | gate
  | read
  | write
deriving DecidableEq, Repr

/-- A preamp frame waiting or on the bus (R68). `expect` is the value that a read-back compares with (R79); `into` says that the
read's data lands in W8 (R234); `final` marks the last frame of a firmware command (R134); `asap` a gate frame that starts as soon as
the bus is free (R76, R95, R147), the others starting `start` cycles after the next reference (R75, R234); `heats` are the heads whose HEAT
the frame on the bus changes (R94). -/
structure PbFrame where
  source : PbSource
  kind : PbKind
  mode : BitVec 2
  bc : Bool
  head : BitVec 3
  addr : BitVec 6
  data : BitVec 16
  start : Nat
  expect : Option (BitVec 16)
  retried : Bool
  into : Bool
  final : Bool
  asap : Bool
  heats : List Nat
deriving DecidableEq, Repr

/-- The preamp as the lane left it (R69): MODE and HEAD of the last gate frame. -/
structure PreampMode where
  mode : BitVec 2
  head : BitVec 3
deriving DecidableEq, Repr

/-- A read override of OVR (R235). -/
structure ReadOver where
  set : Nat
  oneD : Bool
  oneDSel : Nat
  rty : Bool
deriving DecidableEq, Repr

/-- The settings of the front end and the detector that a gate latches when it opens (R82, R87 to R90, R105, R106, R137, R140, R235): the
equaliser set, the one reader that serves where a single one does, the ladder's iteration budget, ADAPT and AGC_EN, for the inner, centre
and outer reader the alignment delay in 1/16 baud and the gain trim in 0.05 dB, the filter's cutoff and boost, the 48 taps with those of a
reader that does not serve zero, the target taps in 1/64 with the leading 1, LLR_SCALE, the cancellation taps (none where nothing is
subtracted), the bauds by which the verify reader follows the writer, the preamble, and whether the loops track. -/
structure Front where
  set : Nat
  only : Option Nat
  rty : Bool
  adapt : Bool
  agc : Bool
  delays : List Int
  gains : List Int
  cutoff : Nat
  boost : Nat
  taps : List Int
  target : List Int
  scale : Nat
  cancel : List Int
  gap : Nat
  preamble : Nat
  tracking : Bool
deriving DecidableEq, Repr

/-- A sector descriptor (R235, R314) as LNn holds it: position fields of its transfer, the tag's fields, and for a write the
verify choice (R138, R139) with SAMPLE_CNT as it stood before it; `badWedge` marks a sector read in a wedge that SVn reported read-unsafe
(R177); `front` the settings its gate latched; `part` is 1 for the continuation of a sector that a servo field splits (R99). -/
structure Sector where
  write : Bool
  forced : Bool
  spillSum : Bool
  head : BitVec 3
  zone : Nat
  track : Nat
  index : Nat
  lba : Nat
  lbaValid : Bool
  meta_ : Nat
  seq : Nat
  band : Nat
  over_ : Nat
  gpos : Nat
  limited : Bool
  slot : Option Nat
  verify : Bool
  sampled : Bool
  misses : Nat
  revs : Nat
  source : Nat
  badWedge : Bool
  data : List Byte
  cnt : Nat
  front : Option Front
  part : Nat
deriving DecidableEq, Repr

/-- The track-parity group that a lane writes or reads (R117, R120, R129): its head, track and first position, the accumulators P
and Q as 16-bit symbols over the sectors in hand (positions within the group), SEQ of data sector 0 as those sectors give it, the
sectors that failed, whether two sectors disagreed on SEQ (R118), and BAND and PLACE of P's tag, or of Q's where only Q was read (R119). -/
structure ParityGroup where
  head : BitVec 3
  track : Nat
  first : Nat
  p : List Nat
  q : List Nat
  inHand : List Nat
  seq0 : Option Int
  failed : List Sector
  stale : Bool
  place : Option (Nat × Nat)
deriving DecidableEq, Repr

/-- The retry ladder of a lane (R121): the still-failing sectors, whether Limited Retry is set (R122), and
whether the present attempt is abandoned (R124), beside what
LNn_RTY_STAT shows. -/
structure Ladder where
  failing : List Sector
  limited : Bool
  spoiled : Bool
deriving DecidableEq, Repr

/-- One spill slot (R116): the sector whose LLRs it holds, its order of writing, whether its read returned poison, and the LLRs, eight to an
entry. -/
structure Spill where
  head : BitVec 3
  track : Nat
  index : Nat
  order : Nat
  poisoned : Bool
  llrs : List (BitVec 40)
deriving DecidableEq, Repr

/-- One lane beyond its registers. -/
structure Ln where
  /-- The frame on the preamp bus (R74). Reset: none. -/
  bus : Option PbFrame
  /-- Waiting gate frames, oldest first (R75). Reset: empty. -/
  gateQ : List PbFrame
  /-- Waiting MSn setting frames and register reads (R74). Reset: empty. -/
  setQ : List PbFrame
  /-- Waiting firmware frames (R74); one per declared head for a broadcast of ASSIST (R134). Reset: empty. -/
  fwQ : List PbFrame
  /-- A CHECK failed in the firmware command in progress (R78, R79). Reset: false. -/
  fwCrc : Bool
  /-- A read-back differed in the firmware command in progress (R134). Reset: false. -/
  fwMis : Bool
  /-- The firmware command's latest data (R78). Reset: 0. -/
  fwData : BitVec 16
  /-- The preamp's MODE and HEAD as last set by a gate frame (R69). Reset: sleep, head 0, DESIGN CHOICE (log 7). -/
  pre : PreampMode
  /-- Ring time at which the last gate frame ended (R69, R73, R133). Reset: 0, DESIGN CHOICE (log 7). -/
  preAt : Dword
  /-- The value last sent to a head's register, by 64 × head + ADDR (R133). Reset: empty (never sent). -/
  lastSent : SMap (BitVec 16)
  /-- Ring time at which the last write frame that changed a head's HEAT ended, by head (R94). Reset: empty. -/
  heatAt : SMap Dword
  /-- The sleep frame of R76 has been sent or waits; no other frame follows it. Reset: false. -/
  slept : Bool
  /-- Head-enable bits cleared while a gate is open on the head, in force until it closes (R77). Reset: 0. -/
  enHeld : BitVec 8
  /-- Table entries by (((cadence × 8 + table) × 8 + head) × 32 + zone) × 256 + index; tables 0 to 3 are R96's, 4 to 7 the write tables of R153. Reset: empty (zero), DESIGN CHOICE (log 7). -/
  tables : SMap Word
  /-- A held write of LNn_TBL_DATA: entry key and word (R97). Reset: none. -/
  held : Option (Nat × Word)
  /-- A held write of LNn_WTBL_DATA (R97, R153). Reset: none. -/
  wheld : Option (Nat × Word)
  /-- Writes of the table registers that wait for a held write (R97): address and word, oldest first. Reset: empty. -/
  waitT : List (Nat × Word)
  /-- LNn_CTL in force since the last gate opening (R90). Reset: 3, LNn_CTL's reset value. -/
  ctl : Word
  /-- LNn_DET_CTL in force since the last gate opening (R106). Reset: 0x1007, its register's reset value. -/
  det : Word
  /-- LNn_DET_TGT0 to 3 in force since the last gate opening (R106). Reset: 0. -/
  tgt : Vector Word 4
  /-- The read override in force for following read gates (R235). Reset: none. -/
  ovr : Option ReadOver
  /-- The sector descriptor passed by SECT and not yet used by a gate (R235). Reset: none. -/
  desc : Option Sector
  /-- The sector of the open read or write gate (R233). Reset: none. -/
  gate : Option Sector
  /-- The sector whose first gate a servo field has ended, and whose continuation has not opened (R99, R233). Reset: none. -/
  cont : Option Sector
  /-- The sector of the open verify gate (R140). Reset: none. -/
  vgate : Option Sector
  /-- The sectors for which a verify gate is still to open, VFY_GAP bauds after the write gate of each (R140), oldest first. Reset: empty. -/
  vdue : List Sector
  /-- The write-data FIFO: complete data and metadata of whole sectors, oldest first (R128, R130). Reset: empty. -/
  wfifo : List (List Byte)
  /-- Sectors written that await a verify outcome, oldest first (R143, LNn_VFY_STAT.PENDING). Reset: empty. -/
  awaiting : List Sector
  /-- Verify decodes that ended and await their comparison (R141): the sector, whether the decode succeeded, the information part as
  decoded. Reset: empty. -/
  compared : List (Sector × Bool × List Byte)
  /-- Sectors to be verified whose verify gate was abandoned or whose LLRs were lost, so that they have no outcome (R142). Reset: empty. -/
  lost : List Sector
  /-- Sectors that missed verify and are to be rewritten on the next revolution (R144). Reset: empty. -/
  rewrites : List Sector
  /-- Sectors cut off by a squelch and to be written again (R149). Reset: empty. -/
  cut : List Sector
  /-- Consecutive wedges in which SVn reported write-safe since source 0 last asserted (R146). Reset: 0. -/
  safeWedges : Nat
  /-- Inhibit source 0 has not resumed: RESUME_WEDGES write-safe wedges have not passed since it asserted (R146). Reset: false. -/
  inh0 : Bool
  /-- Head, track and position of the last write gate opened (R272). Reset: none. -/
  lastW : Option (Nat × Nat × Nat)
  /-- MSn has read FAULT_STAT since the last preamp fault inside a write gate (R146, source 1). Reset: false. -/
  faultRead : Bool
  /-- The write path's parity group (R129). Reset: none. -/
  wgroup : Option ParityGroup
  /-- The groups whose sectors are being read (R119, R120). Reset: empty. -/
  rgroups : List ParityGroup
  /-- The ladder in progress (R121). Reset: none. -/
  ladder : Option Ladder
  /-- Spill slots 0 to 63 (R116). Reset: empty. -/
  spill : SMap Spill
  /-- Reads written to spill slots so far (R116, the order of slots). Reset: 0. -/
  spillNo : Nat
  /-- Sectors read whose codewords have not yet asked for an engine, oldest first (R113). Reset: empty. -/
  reads : List Sector
  /-- A cadence drain is in force (R216). Reset: false. -/
  drain : Bool
  /-- SVn signals read-unsafe for the current wedge (R177, R231). Reset: false. -/
  rdUnsafe : Bool
deriving DecidableEq, Repr

/-- What an engine decodes (R107, R113, R114): the lane, the purpose, the sector, the LLR of each codeword bit, and the ring time at which
the engine was asked for. -/
structure DecodeJob where
  lane : Lane
  kind : DecodeFor
  sector : Sector
  llrs : List Int
  asked : Dword
deriving DecidableEq, Repr

/-- Where an engine's token is (R111). -/
inductive Token where
  | free
  | lane (n : Lane)
  | lost
deriving DecidableEq, Repr

/-- One decoder engine: its token and its codeword buffers, the decoding one first (R107). -/
structure Engine where
  token : Token
  jobs : List DecodeJob
deriving DecidableEq, Repr

/-- A decoded or recovered sector handed to BUF as one lane media stream transfer (R110, R119): the lane, the sector, the LBA where it is known, whether it
is a parity sector, and the whole information part. -/
structure Handed where
  lane : Nat
  sector : Sector
  lba : Option Nat
  parity : Bool
  info : List Byte
deriving DecidableEq, Repr

/-- The decoder pool beyond its registers. -/
structure Ldp where
  /-- The twelve engines (R111). Reset: every token lost until its engine passes its self-test (R41, R126). -/
  engines : Vector Engine 12
  /-- Requests that wait for the floating pool, oldest first (R113). Reset: empty. -/
  waiting : List DecodeJob
  /-- Information parts handed to BUF as lane media stream transfers, oldest first (R110). Reset: empty. -/
  handed : List Handed
  /-- The lane after the last one served among requests of one handshake (R113). Reset: 0, DESIGN CHOICE (log 7). -/
  pointer : Nat
deriving DecidableEq, Repr


/-! ## Lane sequencers (09_lane_microcode.md) -/

/-- The sequencer's own state (R227): work registers, head, wedge compare, loop counters, flags, stack, gate mode (0 idle, 1 read,
2 write), OP of the last popped command (R236), the present transfer's XFER operands W0 to W4 and the sector descriptors passed since that
XFER (R314). -/
structure SeqRegs where
  w : Vector (BitVec 24) 12
  hd : BitVec 3
  wcmp : BitVec 10
  lc0 : BitVec 16
  lc1 : BitVec 16
  zf : Bool
  nf : Bool
  stack : List (BitVec 12)
  gate : Nat
  op : BitVec 8
  xfer : Vector (BitVec 24) 5
  sectNo : Nat
deriving DecidableEq, Repr

/-- One sequencer beyond its registers. -/
structure Ms where
  /-- The store by address (R223); an unlisted word is zero. Reset: empty. -/
  store : SMap (BitVec 176)
  /-- The state as it stood when the word began (R228). Reset: zero. -/
  cur : SeqRegs
  /-- The changes the word has made, in force at the start of the next word (R228). Reset: zero. -/
  nxt : SeqRegs
  /-- The fields of the present word that have acted: bit 0 GATE, 1 PB_OP, 2 OVR, 3 SECT, 4 CMD, 5 EVT, 6 ALU, 7 CLK. Reset: 0. -/
  acted : BitVec 8
  /-- The conditions of R231 by code, as sampled at the start of the word. Reset: 0. -/
  conds : BitVec 16
  /-- The word holds on its TMODE (R232). Reset: false. -/
  holding : Bool
  /-- The command FIFO, oldest first, and behind its 32 entries those whose senders wait (R30). Reset: empty. -/
  cmd : List (BitVec 128)
  /-- The event FIFO, oldest first, and behind its 256 entries those that wait for a place (R30, R237). Reset: empty. -/
  events : List (BitVec 64)
  /-- RUN was written to 0 and the next safe point is awaited (R245). Reset: false. -/
  stopping : Bool
  /-- Halted by STORE_ERR (R224). Reset: false. -/
  storeErr : Bool
  /-- The halted word runs again without halting at its own breakpoint, after RESUME (R244, R245). Reset: false. -/
  passBkpt : Bool
  /-- RUN was set outside the running modes; the sequencer starts at the next entry to one (R244). Reset: false. -/
  startDue : Bool
  /-- Data of a register read that has ended, in W8 from the start of the next word (R228, R234). Reset: none. -/
  landed : Option (BitVec 24)
  /-- The present word's deferral for the heater lead has been counted as a slip (R94). Reset: false. -/
  slipped : Bool
deriving DecidableEq, Repr


/-! ## Servo engines, Pacer, motion link (06_servo_engine.md, 07_pacer_and_seeks.md) -/

/-- A state of the reference (R182): position in tracks, velocity in tracks/ms, acceleration in tracks/ms². -/
structure Motion where
  p : Rat
  v : Rat
  a : Rat
deriving DecidableEq, Repr

/-- A Pacer plan (R186 to R189): its start, its constant-jerk segments (jerk in tracks/ms³, duration in ms), its target position,
the plan time in ms, whether plan time starts at the next reference, the TAG of the accepted target it serves, and whether it is the
unload plan (R195). -/
structure Plan where
  start : Motion
  segs : List (Rat × Rat)
  target : Rat
  time : Rat
  fresh : Bool
  tag : Option (BitVec 8)
  unload : Bool
deriving DecidableEq, Repr

/-- One servo engine beyond its registers. -/
structure Sv where
  /-- Wedges counted since reset, coasted ones included (R304). Reset: 0. -/
  wedges : Nat
  /-- Head changes in the parameter FIFO, oldest first (R30, R165); beyond 64 the sender waits. Reset: empty. -/
  params : List (BitVec 3)
  /-- A head change took effect at this wedge's reference (R165). Reset: false. -/
  headChanged : Bool
  /-- This wedge's SYNC was found (R159). Reset: false. -/
  found : Bool
  /-- The previous wedge's SYNC was found, so that the next interval can be measured (R157). Reset: false. -/
  lastFound : Bool
  /-- The last four measured intervals, newest first, in 1/64 cycle (R157). Reset: empty. -/
  intervals : List Nat
  /-- The interval that ends at this wedge's reference, kept until the wedge's sample is taken (R157). Reset: none. -/
  interval : Option Nat
  /-- A reference has been found since ENABLE, the start of LOADING or SYNC_LOST, so that the search window applies (R158, log 39). Reset: false. -/
  ranged : Bool
  /-- Consecutive wedges without a found SYNC (R159). Reset: 0. -/
  miss : Nat
  /-- The wedge number has a prediction (R160). Reset: false. -/
  havePred : Bool
  /-- Decoded numbers of consecutive wedges that follow on and differ from their predictions, newest first (R160). Reset: empty. -/
  widHist : List Nat
  /-- The measured position of the last sample, in 1/8,192 track (R156). Reset: 0. -/
  x : Int
  /-- The estimator's velocity, in 1/1,024 track/ms, as the program gave it last (log 11). Reset: 0. -/
  estV : Int
  /-- This wedge's sample was taken and not discarded (R178). Reset: false. -/
  sampled : Bool
  /-- The target mailbox (R183, R185). Reset: empty. -/
  mailbox : Option Dword
  /-- The accepted target in progress (R185). Reset: none. -/
  target : Option Dword
  /-- Track of the position that PES refers to (R156). Reset: 0. -/
  aim : Nat
  /-- The plan in progress (R186). Reset: none. -/
  plan : Option Plan
  /-- The Pacer's reference sample of this wedge (R186). Reset: 0. -/
  ref : Motion
  /-- The latched limits VMAX, AMAX and JMAX (R181). Reset: 0. -/
  vmax : Nat
  /-- See vmax. Reset: 0. -/
  amax : Nat
  /-- See vmax. Reset: 0. -/
  jmax : Nat
  /-- Wedges over the following-error limit (R190). Reset: 0. -/
  feCount : Nat
  /-- A restart plan is due at the next Pacer tick: after acquisition (R193) or a following-error trip (R191). Reset: false. -/
  restartDue : Bool
  /-- The unload plan is due at the next Pacer tick (R195). Reset: false. -/
  unloadDue : Bool
  /-- Following-error trips with no FOLLOW between them (R191). Reset: 0. -/
  trips : Nat
  /-- Wedges within the settle limit in a row (R193). Reset: 0. -/
  settleCount : Nat
  /-- Wedges spent in SETTLE (R193). Reset: 0. -/
  settleWedges : Nat
  /-- Valid wedges in a row in ACQUIRE (R192). Reset: 0. -/
  acqCount : Nat
  /-- The unload plan has ended and RETRACT frames carry ULD_V (R195). Reset: false. -/
  uldEnded : Bool
  /-- RETRACT frames are sent in OFF until RET_TIME (R192). Reset: false. -/
  offRetract : Bool
  /-- Attempt of the load command in progress, 0 where there is none (R194). Reset: 0. -/
  attempt : Nat
  /-- The retract in progress ends a load attempt that timed out, with another to follow (R194). Reset: false. -/
  again : Bool
  /-- Ring time at which the load attempt began (R194). Reset: 0. -/
  loadAt : Nat
  /-- The program's outputs (R643): VCM demand in A, milli-actuator code, head micro-actuator code. Reset: 0. -/
  out0 : Rat
  /-- See out0. Reset: 0. -/
  out1 : Rat
  /-- See out0. Reset: 0. -/
  out2 : Rat
  /-- The VCM demand in its frame code, as cycle 1,280 converted it last (R162, R169). Reset: 0. -/
  demand : Int
  /-- Integral of the current loop's error, in A × ticks (R164). Reset: 0. -/
  integ : Rat
  /-- The VCM command last sent, in 4 µA units (R164). Reset: 0. -/
  commanded : Int
  /-- The latest measured VCM current, in 4 µA units (R172). Reset: 0. -/
  measured : Int
  /-- Consecutive current ticks beyond the divergence limit (R177). Reset: 0. -/
  divTicks : Nat
  /-- The status FIFO, oldest first, at most 128 reports (R176). Reset: empty. -/
  status : List (BitVec 128)
  /-- The next program slot (R643). Reset: 0. -/
  slot : Nat
  /-- The accumulation: exact products and the sums of their exponents (R167). Reset: empty. -/
  acc : List (Int × Nat)
  /-- Abacus words that differ from the image's, by 4,096 × cadence + index (R643). Reset: empty. -/
  words : SMap Int
  /-- Block exponents that differ from the image's, by 256 × cadence + block (R166). Reset: empty. -/
  exps : SMap Nat
  /-- The coefficient set to switch to at the next reference, and whether CAD_CHANGE then clears (R170). Reset: none. -/
  switch : Option (Nat × Bool)
deriving DecidableEq, Repr

/-- The motion link beyond its registers. -/
structure Mot where
  /-- The spindle command FIFO, oldest first, at most 16 entries (R30, R202). Reset: empty. -/
  spindle : List (BitVec 64)
  /-- The status FIFO, newest first, at most 32 entries (R30). Reset: empty. -/
  status : List (BitVec 64)
  /-- Time until the outbound frames sent so far have left the link, in units of 2 ns: a beat is 4 of them, a tick of ring time 5 (R171, R173, R583).
  Reset: 0. -/
  ahead : Nat
deriving DecidableEq, Repr

/-! ## Spindle (08_spindle.md) -/

/-- What follows once BRAKING has stopped the spindle (R214): STOPPED, FAULT, another attempt after RETRY_WAIT, or a start that R211
braked for. -/
inductive AfterBrake where
  | stopped
  | fault
  | retry
  | start
deriving DecidableEq, Repr

/-- The spindle controller beyond its registers. -/
structure Spm where
  /-- A start command waits for the check of R206 that the rotor is at rest. Reset: false. -/
  restCheck : Bool
  /-- |V_FLOAT| in mV of the BEMF frames of the last 2 ms since LINK_UP became 1, newest first, at most 2,000 (R206, R213). Reset: empty. -/
  volts : List Nat
  /-- I_MEAS of the sensing pulses ended, oldest first (R206). Reset: empty. -/
  sense : List Nat
  /-- Sensing pulses sent in this attempt (R206). Reset: 0. -/
  pulses : Nat
  /-- The commutation step last put into the command FIFO (R202). Reset: 0. -/
  step : Nat
  /-- The commutation step in force: that of the last frame released (R201, R207). Reset: 0. -/
  inForce : Nat
  /-- SPM takes its step from the next zero crossing (R211). Reset: false. -/
  resync : Bool
  /-- The coast of a brake probe has begun, and `volts` holds its frames alone (R213). Reset: false. -/
  probing : Bool
  /-- Entries of the open-loop profile used in this attempt (R206). Reset: 0. -/
  profileAt : Nat
  /-- Sampling instants of the zero crossings, newest first, in ns, at most 97 (R204). Reset: empty. -/
  crossings : List Nat
  /-- Forward crossings in a row (R208). Reset: 0. -/
  forward : Nat
  /-- Reverse crossings of the attempt (R207). Reset: 0. -/
  reverse : Nat
  /-- DRIVE of ordinary frames (R204). Reset: 0. -/
  drive : Nat
  /-- Integral of the speed error, rpm × revolutions (R204). Reset: 0. -/
  integ : Rat
  /-- The speed reference in rpm (R208, R216). Reset: 0. -/
  ref : Rat
  /-- The target cadence code (R215). Reset: 3, SPM_CAD_REQ's reset value. -/
  goal : Nat
  /-- Revolutions in regulation in a row (R214). Reset: 0. -/
  lockRevs : Nat
  /-- Revolutions beyond FAULT_TOL in a row (R205). Reset: 0. -/
  faultRevs : Nat
  /-- The Ke check of this spin-up has passed or is in progress (R210). Reset: false. -/
  keDone : Bool
  /-- Peak |V_FLOAT| in mV of the Ke window (R210). Reset: 0. -/
  kePeak : Nat
  /-- Where BRAKING leads once stopped (R214). Reset: stopped. -/
  after : AfterBrake
  /-- A brake is held until every actuator is parked (R213). Reset: none. -/
  brakeDue : Option AfterBrake
  /-- The present BRAKING follows PF_COAST, without the condition of R213 (R220). Reset: false. -/
  unparked : Bool
  /-- GLB_UNIT_OK1.SPM was cleared by a fault of R212 and a clear-fault command has been given since: 0 not cleared, 1 cleared, 2 cleared and
  fault cleared. Reset: 0. -/
  okState : Nat
  /-- The loop asks for deceleration, which STATE 7 alone gives (R203). Reset: false. -/
  decel : Bool
  /-- The speed reference of a cadence change is ramping (R216). Reset: false. -/
  ramping : Bool
  /-- The drain of a cadence change is awaited (R216). Reset: false. -/
  draining : Bool
  /-- Ring time at which the drain was signalled (R217). Reset: 0. -/
  drainAt : Nat
deriving DecidableEq, Repr


/-! ## Band manager (10_band_map_and_journal.md, 11_band_upkeep.md) -/

/-- What a lane reports to BND through the Relay scheduler (R123, R144, R145, R150, R315); `due` is a sector that RLY has passed on and that
BND is to relocate (R260). -/
inductive ReportKind where
  | unrecovered
  | rewrite
  | relocate
  | disturbed
  | aborted
  | placed
  | due
deriving DecidableEq, Repr

/-- One report (R315): actuator (R20), head, track, first sector position and count, and the sector's tag fields where they are known. -/
structure Report where
  kind : ReportKind
  lane : Nat
  head : Nat
  track : Nat
  index : Nat
  count : Nat
  lba : Nat
  seq : Nat
  band : Nat
deriving DecidableEq, Repr

/-- One media-cache log (R249, R258): monotone sector counters of its head and tail, and the CREDIT of R288. -/
structure McLog where
  head : Nat
  tail : Nat
  credit : Int
deriving DecidableEq, Repr

/-- A band rewrite in progress (R267): its kind (0 collection, 1 migration, 2 retirement, 3 the write cache's), logical band, old band,
new band, SEQ_R0, its sectors, those placed, whether REWRITE_BEGIN has reached the media, and the next position to write. -/
structure Rewrite where
  kind : Nat
  logical : Nat
  old : Option Nat
  new : Nat
  seq0 : Nat
  size : Nat
  placed : Nat
  begun : Bool
  at_ : Nat
deriving DecidableEq, Repr

/-- A flush in progress (R264): its checkpoint number, its entries in order, the bands whose freeing it records, its journal sectors
still to be placed in all copies, the rewrites whose REWRITE_BEGIN it carries, the Flush commands that it serves (R268), and where the tails of the
logs may stand by its entries (R265). -/
structure FlushRun where
  num : Nat
  entries : List JEntry
  freed : List Nat
  left : Nat
  begins : List Nat
  slots : List Nat
  tails : List Nat
deriving DecidableEq, Repr

/-- A region still to be scanned (R271): its actuator, its band or the media-cache log, its first position and its floor. -/
structure Region where
  lane : Nat
  band : Option Nat
  pos : Nat
  floor : Nat
deriving DecidableEq, Repr

/-- A band's health-table entry (R294): disturbance, weak count, and the flags patrol queued, rewrite queued, retirement pending. -/
structure Health where
  disturb : Nat
  weak : Nat
  patrolQ : Bool
  rewriteQ : Bool
  retire : Bool
deriving DecidableEq, Repr

/-- A lane's patrol (R290 to R293): cursor, pass start in seconds, W, sectors read, the priority queue; the warnings raised (50, 25, 10 %)
lie in the MRAM record with the first three. -/
structure Patrol where
  cursor : Nat
  start : Nat
  written : Nat
  read : Nat
  queue : List Nat
  warned : BitVec 3
deriving DecidableEq, Repr

/-- The band manager beyond its registers. -/
structure Bnd where
  /-- The namespace table by index 0 to 1,023 (R251, R346). Reset: empty. -/
  ns : SMap NsEntry
  /-- What boot MRAM keeps of each namespace beside the map (R346, R391): its protection information type, the controllers attached, and those that
  hold rotation permission; kept over every reset. Reset: empty, DESIGN CHOICE (log 5). -/
  attach : SMap (Nat × List Nat × List Nat)
  /-- The logical band table (R256); an unlisted band has no physical band. Reset: empty. -/
  lbt : SMap LBand
  /-- The physical band table (R257); an unlisted band is as the BANDS section's run has it. Reset: empty. -/
  pbt : SMap Band
  /-- The media-cache index (R258). Reset: empty. -/
  mci : List Extent
  /-- The media-cache logs of the actuators (R249). Reset: empty logs. -/
  mc : Vector McLog 4
  /-- Journal entries pending, oldest first (R262, R263). Reset: empty. -/
  jnl : List JEntry
  /-- Bands whose freeing lies among the pending entries (R265). Reset: empty. -/
  freed : List Nat
  /-- The flush in progress (R264). Reset: none. -/
  flush : Option FlushRun
  /-- A flush is forced and waits for the one in progress (R263). Reset: false. -/
  flushDue : Bool
  /-- The bands of each lane's pre-list, in allocation order (R266). Reset: empty. -/
  prelist : Vector (List Nat) 4
  /-- Journal sectors written so far, the next journal position (R264). Reset: 0. -/
  jnlPos : Nat
  /-- Entries journaled since the last map image (R269). Reset: 0. -/
  sinceImage : Nat
  /-- The oldest journal position that replay still needs (R269). Reset: 0. -/
  jnlFrom : Nat
  /-- Journal position at which the present image's checkpoint stood (R269). Reset: 0. -/
  imgPos : Nat
  /-- The map slot of the newest placed image (R269). Reset: 1. -/
  imgSlot : Nat
  /-- Firmware asked for an image while one was being written (R269). Reset: false. -/
  imageDue : Bool
  /-- Actuators whose migrations continue under the hysteresis of R283. Reset: 0. -/
  migrate : BitVec 4
  /-- The checkpoint C of the map image being written, and its sectors still to be placed (R269). Reset: none. -/
  image : Option (Nat × Nat)
  /-- Rewrites in progress (R267). Reset: empty. -/
  rewrites : List Rewrite
  /-- Blocks that a Write Uncorrectable command or R422 marks, by device LBA (R362). Reset: empty. -/
  uncorr : List Nat
  /-- Logical bands queued by the weak-count rule (R286, R294). Reset: empty. -/
  weakQ : List Nat
  /-- The band health table by physical band (R294). Reset: empty (zero). -/
  health : SMap Health
  /-- The lanes' patrols (R290); the record is MRAM. Reset: no pass, DESIGN CHOICE (log 14). -/
  patrol : Vector Patrol 4
  /-- Sectors taken from the spare-sector pool of each actuator (R260). Reset: 0. -/
  poolUsed : Vector Nat 4
  /-- Regions not yet scanned (R271). Reset: empty. -/
  scan : List Region
  /-- Sectors that the scan accepted (R271): band or log, position, LBA, SEQ. Reset: empty. -/
  accepted : List (Option Nat × Nat × Nat × Nat)
  /-- REWRITE_BEGIN entries without a BAND_SWITCH that replay left: new band, logical band, old band, SEQ_R0, size (R273). Reset: empty. -/
  open_ : List (Nat × Nat × Option Nat × Nat × Nat)
  /-- The greatest counter value that replay and scan found (R270). Reset: 0. -/
  seqFound : Nat
  /-- Logical bands of the range being rebuilt (R276). Reset: empty. -/
  lostRange : List Nat
  /-- Where the READONLY sequence of R298 stands: 0 not begun, 1 destaging, 2 flushing, 3 writing the image, 4 finished. Reset: 0. -/
  readonlyAt : Nat
  /-- The BND record of the power-loss note (R272): for each lane the region and position of the last write gate opened; MRAM. Reset: none,
  DESIGN CHOICE (log 14). -/
  noteRec : Vector (Option (Option Nat × Nat)) 4
  /-- The note record's CRC holds (R272); MRAM. Reset: true, DESIGN CHOICE (log 14). -/
  noteOk : Bool
  /-- The map has been built since CONFIGURE (R270). Reset: false. -/
  built : Bool
deriving DecidableEq, Repr


/-! ## Relay scheduler (12_relay_scheduler.md, 15_tenant_isolation_and_keys.md) -/

/-- A work item (R302, R303, R314): its request, the wedge count of its actuator at which it arrived (R304), and whether it was forwarded
to the partner (R318). -/
structure Item where
  idx : Nat
  req : WorkReq
  arrived : Int
  forwarded : Bool
deriving DecidableEq, Repr

/-- A dispatch chosen while the last outcomes of the one before it are still awaited (R307): its items, its tracks, the wedge counts at
which its plan starts and SVn enters FOLLOW for it (R320). -/
structure Ahead where
  items : List Item
  tracksAll : Nat
  start : Option Nat
  follow : Option Nat
deriving DecidableEq, Repr

/-- What the Relay scheduler keeps of one actuator. -/
structure Act where
  /-- The items in service, the chosen one first (R310). Reset: empty. -/
  busy : List Item
  /-- Tracks of the dispatch still to be sent: track, position, count, data sectors before it (R313). Reset: empty. -/
  tracks : List (Nat × Nat × Nat × Nat)
  /-- The last target written: TRACK, OFS, LAUNCH and TAG as one entry (R313, R316). Reset: none. -/
  target : Option Dword
  /-- Reissues of the item's target so far (R316). Reset: 0. -/
  reissues : Nat
  /-- Wedge count at which the charged interval starts (R320). Reset: 0. -/
  startW : Nat
  /-- Wedge count at which SVn entered FOLLOW for the item (R320). Reset: none. -/
  followW : Option Nat
  /-- Wedge count at which the previous item ended (R320). Reset: 0. -/
  endW : Nat
  /-- Wedges of lane pauses inside the interval, not charged (R317). Reset: 0. -/
  pauseW : Nat
  /-- Wedge count at which a lane pause began (R317). Reset: none. -/
  pausedAt : Option Nat
  /-- Sectors of the dispatch that have an outcome (R315). Reset: 0. -/
  outcomes : Nat
  /-- Tracks of the dispatch that are DONE (R315). Reset: 0. -/
  tracksDone : Nat
  /-- Tracks of the dispatch. Reset: 0. -/
  tracksAll : Nat
  /-- Revolutions of ladders inside the item (R320). Reset: 0. -/
  revs : Nat
  /-- Share credit of class 3, 0.1 ms (R309). Reset: 0. -/
  c3 : Int
  /-- Share credit of class 4, 0.1 ms (R309). Reset: 0. -/
  c4 : Int
  /-- Track and head of the last dispatch, where the heads are (R306, R313). Reset: none. -/
  place : Option (Nat × Nat)
  /-- An OFFSET_REQ whose offset is awaited in SVn_OFS (R315). Reset: none. -/
  offset : Option (BitVec 16)
  /-- Data sectors of the dispatch that have entered the write-data FIFO (R128, R130). Reset: 0. -/
  fed : Nat
  /-- Tracks of the entries sent that are not yet DONE, in order, with the pool index of their items (R313). Reset: empty. -/
  steps : List (Nat × Nat)
  /-- Track and position of the dispatch's last gate, from when its entries are sent until it opens (R307). Reset: none. -/
  last : Option (Nat × Nat)
  /-- The last gate of the items in service has opened: the next item may be chosen (R307). Reset: false. -/
  ready : Bool
  /-- The dispatch chosen behind the one in service (R307). Reset: none. -/
  ahead : Option Ahead
deriving DecidableEq, Repr

/-- A function's quota (R398): CAP and FLOOR as written, those in force, BAL and USED. -/
structure Qos where
  cap : Nat
  floor : Nat
  capNow : Nat
  floorNow : Nat
  bal : Int
  used : Nat
deriving DecidableEq, Repr

/-- The Relay scheduler beyond its registers. -/
structure Rly where
  /-- The queued items of the pool in order of arrival (R302). Reset: empty. -/
  pool : List Item
  /-- Requests of QE and BND that wait to enter the pool, oldest first (R302). Reset: empty. -/
  requests : List WorkReq
  /-- Next pool index to give. Reset: 0. -/
  next : Nat
  /-- Per actuator. Reset: idle. -/
  acts : Vector Act 4
  /-- Seek-table entries by 24 × actuator + index (R305). Reset: empty (zero). -/
  seek : SMap (BitVec 16)
  /-- Accounts in µs by 256 × KIND + INDEX (R321); kept over every reset but power-on. Reset: empty (zero). -/
  acct : SMap Dword
  /-- FG_SHARE of the newest class 3 request (R309). Reset: 0, DESIGN CHOICE (log 9). -/
  fgShare : Nat
  /-- The functions' quotas (R398); an unlisted function has no cap, no floor and zero balances. Reset: empty. -/
  qos : SMap Qos
deriving DecidableEq, Repr


/-! ## Host ports and queue engine (13_host_ports_and_functions.md, 14_queues_ordering_completion.md) -/

/-- A submission queue (R352): size, base address, tail as the host wrote it, head (entries consumed), its CQ, priority, whether Delete has
stopped it (R353), and whether it was empty before the last doorbell (R379). -/
structure Sq where
  size : Nat
  base : Dword
  tail : Nat
  head : Nat
  cq : Nat
  prio : Nat
  stopped : Bool
  fresh : Bool
deriving DecidableEq, Repr

/-- A completion queue (R352, R372 to R374): size, base address, head as the host wrote it, tail, phase, vector, interrupts enabled, the
entries posted since the last message, and the completions held, oldest first. -/
structure Cq where
  size : Nat
  base : Dword
  head : Nat
  tail : Nat
  phase : Bool
  vector : Nat
  ien : Bool
  unsignalled : Nat
  held : List Nat
deriving DecidableEq, Repr

/-- An entry of a function's Error Information log (R376), numbered from 1. -/
structure ErrEntry where
  num : Nat
  nsid : Nat
  sqid : Nat
  cid : Nat
  status : NvStatus
  lba : Nat
deriving DecidableEq, Repr

/-- One controller (R328): CC.EN, CSTS.RDY, CC.AMS, whether it is online and its flexible resources (R330), its queues and the numbers of them
granted, WCE and the features set (R338), outstanding asynchronous event requests and the event types masked until their page is read, its error
log (R376), the SQ served last and the weight left in each class (R358: 0 urgent, 1 high, 2 medium, 3 low, 4 round robin), coalescing (R374), and
the namespaces changed (R339). -/
structure Ctrl where
  en : Bool
  rdy : Bool
  wrr : Bool
  online : Bool
  vq : Nat
  vi : Nat
  sqs : SMap Sq
  cqs : SMap Cq
  nsq : Nat
  ncq : Nat
  wce : Bool
  feats : SMap Nat
  aer : List Nat
  masked : Nat
  errs : List ErrEntry
  rr : SMap Nat
  weights : SMap Nat
  coalThr : Nat
  coalTime : Nat
  coalOff : List Nat
  changed : List Nat
deriving DecidableEq, Repr

/-- A function's configuration space beyond its SR-IOV fields (R325, R326, log 41): Max Payload Size and Max Read Request Size as PCI Express codes
them, 10-bit tags, the completion timeout's code, ASPM L1, D3hot, MSI-X Enable and Function Mask, the vectors whose mask the host has cleared, those
pending, and status and mask of uncorrectable and correctable errors. -/
structure PciFn where
  mps : Nat
  mrrs : Nat
  tag10 : Bool
  timeout : Nat
  aspmL1 : Bool
  d3hot : Bool
  msixEn : Bool
  msixMask : Bool
  unmasked : List Nat
  pend : List Nat
  unc : Word
  uncMask : Word
  cor : Word
  corMask : Word
deriving DecidableEq, Repr

/-- The state of a command-table slot (R355 and the slot states). -/
inductive SlotState where
  | decode
  | waiting
  | running
  | held
deriving DecidableEq, Repr

/-- A block's current version as a snapshot references it (R365): the cache's bytes, a media place, deallocated, or unreadable. -/
inductive BlockRef where
  | cached (data : List Byte)
  | media (lba : Nat)
  | zeros
  | bad
deriving DecidableEq, Repr

/-- A command-table slot (R361 to R366): function, queues, entry, FON, the runs it reads and writes (namespace index, first device LBA,
count), its data from the host, whether it has been fetched and whether data has begun to move (R377), whether the command has been admitted (R364), how its
lowest failing block ended while others are still being read (R376), its snapshot, its result, whether its completion is dropped (R331), whether it waits for a flush to start (R268), whether it completes on the
partner's MACK (R490), its lowest failing LBA (R376), the ring time at which it was fetched (R574), whether the conditions of R379 held at its fetch,
and whether it has been counted as waiting (R381). -/
structure Slot where
  fn : Nat
  sq : Nat
  cq : Nat
  cmd : Sqe
  state : SlotState
  fon : Option Nat
  reads : List (Nat × Nat × Nat)
  writes : List (Nat × Nat × Nat)
  data : List (List Byte)
  fetched : Bool
  moved : Bool
  admitted : Bool
  failed : Option Result
  snap : Option (List (Nat × BlockRef))
  result : Option Result
  dropped : Bool
  waits : Bool
  mirror : Bool
  failLba : Option Nat
  at_ : Nat
  sprint : Bool
  hazWait : Bool
deriving DecidableEq, Repr

/-- What a function has done to a namespace (R339): blocks read and written, read and write commands, errors. -/
structure IoCount where
  blocksRead : Nat
  blocksWritten : Nat
  readCmds : Nat
  writeCmds : Nat
  errors : Nat
deriving DecidableEq, Repr

/-- An entry fetched and not yet decoded (R360): its function and SQ, the ring time, and whether the conditions of R379 on queues held. -/
structure Fetched where
  fn : Nat
  sq : Nat
  cmd : Sqe
  at_ : Nat
  sprint : Bool
deriving DecidableEq, Repr

/-- The queue engine and the host ports beyond their registers. -/
structure Qe where
  /-- The controllers by function index modulo 128 (R328); an unlisted one is disabled. Reset: empty. -/
  ctrls : SMap Ctrl
  /-- Entries fetched and not yet decoded, oldest first (R360). Reset: empty. -/
  fetched : List Fetched
  /-- Counts by 1,024 × function + namespace index (R339). Reset: empty (zero). -/
  counts : SMap IoCount
  /-- The command table by slot 0 to 16,383 (R355). Reset: empty. -/
  slots : SMap Slot
  /-- The function visited last (R357). Reset: 127. -/
  lastFn : Nat
  /-- TrackS that a full tracker stopped: the slot whose runs are not entered (R367). Reset: none. -/
  stuck : Option Nat
  /-- The NVMe Timestamp: the value set and the ring time at which it was set (R338). Reset: none. -/
  stamp : Option (Dword × Nat)
  /-- ANA states of the groups 1 to 15 as last reported (R348, R350), and the change count. Reset: empty, 0. -/
  ana : SMap Nat
  /-- See ana. Reset: 0. -/
  anaChanges : Nat
  /-- The Temperature Threshold feature, in kelvins (R338). Reset: none set, DESIGN CHOICE (log 16). -/
  tempThr : Option Nat
  /-- The under-temperature threshold of the same feature, in kelvins. Reset: none set, DESIGN CHOICE (log 16). -/
  tempLow : Option Nat
  /-- The drive's Sanitize (R336, R339): 0 never done, 1 crypto erase in progress, 2 overwrite in progress, 3 completed, 4 failed. Reset: 0. -/
  sanitize : Nat
  /-- Configuration space by function index; an unlisted function's is as reset leaves it (R325). Reset: empty. -/
  pci : SMap PciFn
deriving DecidableEq, Repr


/-! ## Key store (15_tenant_isolation_and_keys.md) -/

/-- An erase in progress (R394): its namespace index, whether it deletes, whether the key stays (an overwrite or a format without cryptographic
erase), the slot of its command (none: repeated at start-up, R396), and the checkpoint that it awaits in step 5. -/
structure Erase where
  ns : Nat
  delete : Bool
  keep : Bool
  slot : Option Nat
  ckpt : Nat
deriving DecidableEq, Repr

/-- Keys beyond their registers. -/
structure KeyS where
  /-- The device key-encryption key, once the trust core has passed it over the key path (R387, R524, R537). Reset: none. -/
  kek : Option (List Byte)
  /-- The two copies of each namespace's record in boot MRAM, 96 bytes each (R385, R386), those of an unlisted namespace zeros; kept over every
  reset. Reset: empty, DESIGN CHOICE (log 5). -/
  recs : SMap (List Byte × List Byte)
  /-- The plaintext store: the namespace keys unwrapped (R387). Reset: empty. -/
  keys : SMap (BitVec 512)
  /-- Crypto erases in progress (R394). Reset: empty. -/
  erases : List Erase
deriving DecidableEq, Repr


/-! ## Buffer memory (16_buffer_memory.md) -/

/-- Owner classes of a buffer page (R424). -/
inductive Owner where
  | firmware
  | bandMap
  | journal
  | spill
  | writeCache
  | readCache
  | transfer
  | dma
deriving DecidableEq, Repr

/-- A page that is not free (R424, R425): owned, or quarantined with whether its test failed. -/
inductive Page where
  | owned (o : Owner)
  | quarantined (retained : Bool)
deriving DecidableEq, Repr

/-- A cached block (R364, R365): data and metadata, whether it is dirty and mirrored (R490), its writer, its namespace index, the FON of the
write that made it, the SEQ under which it is being destaged, and its place in the buffer, in 4 KiB blocks. -/
structure CBlock where
  data : List Byte
  dirty : Bool
  mirrored : Bool
  fn : Nat
  ns : Nat
  fon : Nat
  seq : Option Nat
  loc : Nat
deriving DecidableEq, Repr

/-- A merge-buffer entry (R412): line address, byte enables, bytes, and whether it has waited AGE. -/
structure MergeEntry where
  line : Nat
  enables : BitVec 64
  data : List Byte
deriving DecidableEq, Repr

/-- A correctable-error table entry (R414); `order` tells the older of two. -/
structure CeEntry where
  line : Nat
  ch : Nat
  sym : Nat
  multi : Bool
  count : Nat
  order : Nat
deriving DecidableEq, Repr

/-- A poison-log entry (R419). -/
structure PsnEntry where
  line : Nat
  ch : Nat
  owner : Nat
  source : Nat
  num : Nat
deriving DecidableEq, Repr

/-- A lost-write entry (R421). -/
structure LwlEntry where
  base : Nat
  ns : Nat
  fn : Nat
  map : BitVec 256
  crcOk : Bool
deriving DecidableEq, Repr

/-- The buffer beyond its registers. -/
structure Buf where
  /-- Pages that are not free, by page number (R424). Reset: empty. -/
  pages : SMap Page
  /-- The write cache and the blocks already placed, by device LBA (R364). Reset: empty. -/
  cache : SMap CBlock
  /-- Block places free within pages that caches own. Reset: empty. -/
  room : List Nat
  /-- The bytes of buffer memory by buffer address (R406); an unlisted byte reads 0, as initialisation wrote it (R416). Reset: empty,
  DESIGN CHOICE (log 15) below DMCn_INIT_PTR's first advance. -/
  mem : SMap Byte
  /-- The merge buffer, oldest entry first, at most 32 (R412). Reset: empty. -/
  merge : List MergeEntry
  /-- The correctable-error table by index 0 to 63 (R414). Reset: empty. -/
  ce : SMap CeEntry
  /-- Next order number of the correctable-error table. Reset: 0. -/
  ceNext : Nat
  /-- The poison log by index 0 to 31 (R419). Reset: empty. -/
  psn : SMap PsnEntry
  /-- Entries made in the poison log, the next NUM (R419). Reset: 0. -/
  psnNext : Nat
  /-- Lines that carry the poison syndrome, by 2²⁸ × channel + line (R408, R418). Reset: empty. -/
  poisoned : SMap Unit
  /-- The lost-write list (R421); MRAM. Reset: empty, DESIGN CHOICE (log 5). -/
  lwl : List LwlEntry
  /-- The symbol marked on each channel, as boot MRAM records it (R410). Reset: none, DESIGN CHOICE (log 5). -/
  marks : Vector (Option (Fin 10)) 2
  /-- The allowances of classes 1 to 6 on each channel, in code words (R428). Reset: 0. -/
  allow : Vector (Vector Int 6) 2
  /-- Classes with a request pending since before the epoch's end, by channel (R428). Reset: none. -/
  waiting : Vector (Vector Bool 6) 2
  /-- Deferred epochs of classes 1 to 6 on each channel (R428, BUF_ARB_DEFER). Reset: 0. -/
  defer : Vector (Vector Nat 6) 2
  /-- The scrub pass in progress is the first after a mark, by channel (R417). Reset: false. -/
  recoveryPass : Vector Bool 2
  /-- Ring time at which the present scrub pass began, by channel (R418). Reset: 0. -/
  scrubAt : Vector Nat 2
  /-- Blocks of 4 KiB written to BUF by lane streams for work that no host command awaits, by device LBA (R267, R291). Reset: empty. -/
  copies : SMap (List Byte)
deriving DecidableEq, Repr


/-! ## Control cores and shared cache (17_cores_and_cache.md) -/

/-- A line of the shared cache (R446): its line address, dirty and poison bits, age, whether a prefetch brought it and no hit used it
yet, and the L1 data caches that hold it (R454). -/
structure SccLine where
  line : Nat
  dirty : Bool
  poison : Bool
  age : Nat
  prefetched : Bool
  holders : BitVec 8
deriving DecidableEq, Repr

/-- A stride-stream entry (R450): its requester (hart 0 to 7, or 8 + DMA channel), last line, stride and confidence. -/
structure Stride where
  who : Nat
  last : Nat
  stride : Int
  conf : Nat
deriving DecidableEq, Repr

/-- The control cores and the shared cache beyond their registers. -/
structure Ccx where
  /-- The pending bit of each interrupt source 0 to 255 (R441, R442). Reset: 0. -/
  irq : BitVec 256
  /-- Routing of each source: EN, LEVEL, PRIO, HART as CCX_IRQ_ROUTE bits [8:0] (R440). Reset: empty (zero). -/
  routes : SMap Word
  /-- Bit k: hart k's machine timer interrupt is asserted (R443). Reset: 0. -/
  mtip : BitVec 8
  /-- Bit k: hart k's watchdog expired once and no kick came since (R444). Reset: 0. -/
  warned : BitVec 8
  /-- LR reservations by hart: the line reserved (R437). Reset: none. -/
  reserve : Vector (Option Nat) 8
  /-- The store buffers of the harts, oldest entry first: buffer address and bytes, at most 8 (R445). Reset: empty. -/
  sb : Vector (List (Nat × List Byte)) 8
  /-- The L1 instruction caches of the harts: the lines held, by line, as they were when filled (R445, R454). Reset: empty. -/
  icache : Vector (SMap (List Byte)) 8
  /-- The shared cache's valid lines by 16 × set + way (R446). Reset: empty. -/
  lines : SMap SccLine
  /-- The stride-stream entries, the least recently trained first, at most 32 (R450). Reset: empty. -/
  streams : List Stride
  /-- Corrected-error counts of each shared-cache way: this window and total (R452). Reset: empty (zero). -/
  wayCe : SMap (Nat × Nat)
deriving DecidableEq, Repr



/-! ## DMA engine (18_dma.md) -/

/-- A burst in flight (R465): its source and destination, and the bytes read. -/
structure Burst where
  src : Nat
  dst : Nat
  data : List Byte
deriving DecidableEq, Repr

/-- One DMA channel beyond its registers: the instruction fetched and not yet executed, whether the PC has passed 4,095, the line of instructions
fetched last by its number (R469), whether an element is in progress, its bytes already issued, its bursts in flight, oldest first, and the WAIT it holds at: a flag, or a delay (R472). -/
structure DmaCh where
  instr : Option (BitVec 128)
  past : Bool
  line : Option (Nat × List Byte)
  moving : Bool
  issued : Nat
  bursts : List Burst
  waitFlag : Option Nat
  waitDelay : Bool
deriving DecidableEq, Repr

/-- The DMA engine beyond its registers. -/
structure Dma where
  /-- Channels by number 0 to 63; an unlisted one holds nothing. Reset: empty. -/
  chs : SMap DmaCh
deriving DecidableEq, Repr



/-! ## Partner pair and the Baton link (19_partner_pair.md) -/

/-- A write mirrored for the partner (R490, R499): its TAG, namespace, whether its COMMIT came and its MACK went, and its blocks: device LBA,
place in the buffer (none while no page is free), data. -/
structure Mirror where
  tag : Nat
  ns : Nat
  committed : Bool
  acked : Bool
  blocks : List (Nat × Option Nat × List Byte)
deriving DecidableEq, Repr

/-- A forwarded command whose DONE has not come (R488, R500): its TAG and its slot here. -/
structure Forward where
  tag : Nat
  slot : Nat
deriving DecidableEq, Repr

/-- The pair logic beyond its registers. -/
structure Bat where
  /-- The levels of BAT_OWN[3:0] (R482). Reset: 0. -/
  pins : BitVec 4
  /-- LSEQ of the next message sent (R484). Reset: 0. -/
  txNext : BitVec 16
  /-- LSEQ expected of the next message received (R484). Reset: 0. -/
  rxNext : BitVec 16
  /-- Messages sent and not covered by ACKSEQ, oldest first: LSEQ, TAG, message (R484). Reset: empty. -/
  unacked : List (BitVec 16 × BitVec 32 × BatMsg)
  /-- Messages that wait for credits, oldest first (R487). Reset: empty. -/
  waitTx : List (BitVec 32 × BatMsg)
  /-- Receive-FIFO entries freed and not yet returned (R487). Reset: 0. -/
  freed : Nat
  /-- The link was lost; no takeover before the next reset that restarts configuration (R497). Reset: false. -/
  linkLost : Bool
  /-- Actuators claimed on suspicion whose ACK is awaited (R497). Reset: 0. -/
  claimed : BitVec 4
  /-- The partner reported a passed Ke check (R483). Reset: false. -/
  peerKe : Bool
  /-- Owned lanes that the partner reports lost (R486). Reset: 0. -/
  peerLost : BitVec 4
  /-- Actuators that the partner's RELEASE frees (R501). Reset: 0. -/
  releasing : BitVec 4
  /-- Own SEQ ceiling offered, and the one the partner acknowledged (R493). Reset: 0. -/
  offered : Nat
  /-- See offered. Reset: 0. -/
  ceiling : Nat
  /-- Next TAG of commands, extents, writes and records (R485). Reset: 0. -/
  nextTag : Nat
  /-- Commands forwarded and not yet DONE (R488). Reset: empty. -/
  forwards : List Forward
  /-- Commands run here for the partner: TAG and slot (R488). Reset: empty. -/
  guests : List Forward
  /-- Extents sent to the partner: TAG and item (R318). Reset: empty. -/
  extents : List (Nat × Item)
  /-- Writes that wait for MACK: TAG and slot (R490). Reset: empty. -/
  macks : List Forward
  /-- Record and journal changes that wait for RACK or JACK: TAG and the slot that waits (R491). Reset: empty. -/
  racks : List Forward
  /-- Journal positions whose JACK a slot's command awaits (R491): position and slot. Reset: empty. -/
  jacks : List Forward
  /-- Device LBAs asked of the partner under MREQ (R494). Reset: empty. -/
  asked : List Nat
  /-- The partner's mirrored writes in admission order (R490). Reset: empty. -/
  mirrors : List Mirror
  /-- The shadow of the partner's map: logical bands, physical bands, media-cache extents (R491). Reset: empty. -/
  shadowLbt : SMap LBand
  /-- See shadowLbt. Reset: empty. -/
  shadowPbt : SMap Band
  /-- See shadowLbt. Reset: empty. -/
  shadowMci : List Extent
  /-- Mirrored journal entries since the partner's last CHECKPOINT (R491). Reset: empty. -/
  unflushed : List JEntry
  /-- Journal entries sent so far, the position of the next (R491). Reset: 0. -/
  jnlPos : Nat
  /-- Journal position acknowledged by JACK (R491). Reset: 0. -/
  jnlAcked : Nat
  /-- The phase of resynchronisation reached (R501). Reset: 0. -/
  phase : Nat
  /-- This chip reported resynchronisation complete (R501). Reset: false. -/
  resynced : Bool
  /-- The partner's last heartbeat reports it (R501). Reset: false. -/
  peerResynced : Bool
  /-- A failover has taken the results of its scans and awaits its forced flush (R498). Reset: false. -/
  adopted : Bool
deriving DecidableEq, Repr



/-! ## Power and cadence (20_power_and_cadence.md) -/

/-- The power and cadence manager beyond its registers. -/
structure Pwr where
  /-- Ring time at which the chip last became idle; none while it works (R510, R511). Reset: none. -/
  idleAt : Option Nat
  /-- Windows in a row that count towards a step down (R516). Reset: 0. -/
  downs : Nat
  /-- Ring time of the last completed cadence change (R516). Reset: none. -/
  changedAt : Option Nat
  /-- In-service wedges of each lane in the window, those of lane pauses left out (R515). Reset: 0. -/
  svcW : Vector Nat 4
  /-- Those of them in which an item was in service (R515). Reset: 0. -/
  busyW : Vector Nat 4
  /-- Ring time of the known event for which PWR woke the chip, while it is still to come (R513). Reset: none. -/
  wakeFor : Option Nat
  /-- For a lane entering service, the lane that it replaces and whose item in service has still to end (R506). Reset: none. -/
  replaces : Vector (Option (Fin 4)) 4
  /-- The WARN reaction stands (R517). Reset: false. -/
  warm : Bool
  /-- Lanes that PWR has asked to load and that have not yet taken the command (R192, R504, log 22). Reset: 0. -/
  heads : BitVec 4
deriving DecidableEq, Repr


/-! ## Trust core and service port (21_trust_boot_update.md) -/

/-- The boot state record of boot MRAM (R536); `trial` is STATE, true for TRIAL. -/
structure BootState where
  active : Bool
  previous : Bool
  trial : Bool
  tries : Nat
  trialMax : Nat
  reverted : Bool
  minSvn : BitVec 16
  ktVer : BitVec 16
  bootNum : BitVec 32
  armed : Option (Dword × BitVec 32 × BitVec 128)
  staged : Bool
deriving DecidableEq, Repr

/-- One of the two copies of the boot state (R536): its SEQ and contents; a copy with a bad CRC is none. -/
structure BootCopy where
  seq : Nat
  state : BootState
deriving DecidableEq, Repr

/-- A 512-byte boot record (R539) by its fields; the signature is by the DIK over bytes 0 to 415. -/
structure BootRecord where
  trial : Bool
  reverted : Bool
  failed : Bool
  romWritten : Bool
  bootNum : BitVec 32
  slot : Nat
  ringTime : Dword
  stepping : BitVec 8
  role : BitVec 8
  pairSet : BitVec 16
  bank : Bool
  failCode : BitVec 8
  ktVer : BitVec 16
  prev : BitVec 384
  manifest : BitVec 384
  tcf : BitVec 384
  cfw : BitVec 384
  str : BitVec 384
  tcfVer : BitVec 32
  cfwVer : BitVec 32
  imageVer : BitVec 32
  ucodeVer : List (BitVec 32)
  svn : BitVec 16
  minSvn : BitVec 16
  romVer : BitVec 32
  devId : BitVec 384
  sig : BitVec 768
deriving DecidableEq, Repr

/-- The trust core beyond its registers. -/
structure Trc where
  /-- The two copies of the boot state (R536); MRAM. Reset: copy 0 CONFIRMED on bank 0, SEQ 0, DESIGN CHOICE (log 5). -/
  boot0 : Option BootCopy
  /-- See boot0. Reset: none. -/
  boot1 : Option BootCopy
  /-- The boot flash by byte address, an unlisted byte being 0xFF as erased flash reads: the directory, both banks (R531); outside the chip, kept over
  every reset. Reset: erased, DESIGN CHOICE (log 5). -/
  flash : SMap Byte
  /-- The bytes of the installed key table (R528), at most 1,984; MRAM. Reset: empty, DESIGN CHOICE (log 5). -/
  keyTab : List Byte
  /-- The unique device secret of the fuses (R523). Reset: 0, DESIGN CHOICE (log 5). -/
  uds : BitVec 384
  /-- The root digest in the ROM (R528). Reset: 0, DESIGN CHOICE (log 5). -/
  rootDigest : BitVec 384
  /-- The attestation area by slot, 2,048 slots (R541); MRAM. Reset: empty, DESIGN CHOICE (log 5). -/
  attest : SMap BootRecord
  /-- The drive secret DS recorded in boot MRAM, and whether it was provisioned (true) or drawn (R525). Reset: none, DESIGN CHOICE (log 5). -/
  driveSecret : Option (Bool × BitVec 384)
  /-- The UDS-derived values of R524 are formed; kept in the retained store over a configuration reset (R591). Reset: false. -/
  derived : Bool
  /-- The fuse read port is locked (R523). Reset: false. -/
  fuseLocked : Bool
  /-- The DIK certificate of boot MRAM, at most 2 KiB (R526). Reset: empty, DESIGN CHOICE (log 5). -/
  certificate : List Byte
  /-- Every present hart is held by the trust core until the record is written (R537, R540). Reset: true. -/
  hartsHeld : Bool
  /-- The record of this boot, once written (R540, R542). Reset: none. -/
  bootRecord : Option BootRecord
  /-- The outstanding nonce of CHALLENGE; each serves one AUTH (R547). Reset: none. -/
  nonce : Option (BitVec 384)
  /-- CMD of the long command in progress, answered PENDING (R546, R548). Reset: none. -/
  longCmd : Option (BitVec 8)
  /-- The nonce of the QUOTE in progress (R543). Reset: none. -/
  quoteNonce : Option (BitVec 384)
  /-- The completed quote, 208 bytes (R543). Reset: none. -/
  quote : Option (List Byte)
  /-- Noise-source start-up tests failed in a row after a continuous failure (R527). Reset: 0. -/
  trngFails : Nat
  /-- Draws are refused until the next power-on reset (R527). Reset: false. -/
  trngRefused : Bool
deriving DecidableEq, Repr

/-- The service port beyond its registers. -/
structure Svc where
  /-- A session is open to commands: alignment was gained and not lost since (R544). Reset: false. -/
  open_ : Bool
  /-- The SVC receive FIFO's words, oldest first, at most 64 (R30, R549). Reset: empty. -/
  rx : List Word
  /-- The words of an answer frame that firmware has pushed (R549); the SVC transmit FIFO. Reset: empty. -/
  tx : List Word
  /-- A firmware frame passed on and not yet answered: its CMD and TAG (R549). Reset: none. -/
  fwFrame : Option (BitVec 8 × BitVec 16)
  /-- Responses that wait while the equipment holds with K28.3 (R545), oldest first. Reset: empty. -/
  held : List Out
  /-- The RH4480 holds the equipment with K28.3 (R545). Reset: false. -/
  holding : Bool
deriving DecidableEq, Repr


/-! ## Event recorder, Tally and Mocel ring (22_recorder_tally_standings.md) -/

/-- An event raised towards EVR and not yet accepted (R560): bits that rose in a register's W1C fields, a system event, or a
firmware record. -/
inductive Raised where
  | flag (addr : Nat) (bits : Word)
  | system (code sev unit source : Nat) (data : List Byte)
  | firmware (code sev unit : Nat) (data : List Byte)
deriving DecidableEq, Repr

/-- An accepted event, waiting in EVR's queue (R560): the fields of R558 but for NUM and CRC. -/
structure Accepted where
  time : Dword
  boot : Word
  source : Nat
  code : Nat
  sev : Nat
  mode : Nat
  unit : Nat
  data : List Byte
deriving DecidableEq, Repr

/-- One copy of the recorder header in the epitaph macro (R564). -/
structure RecHeader where
  seq : Nat
  epoch : Nat
  next : Nat
  dropFull : Nat
  dropFrz : Nat
  dropOther : Nat
  epiUsed : Nat
  sticky : Nat
deriving DecidableEq, Repr

/-- The event recorder beyond its registers. -/
structure Evr where
  /-- Events raised and not yet accepted, in the order raised (R560). Reset: empty. -/
  raised : List Raised
  /-- The queue of accepted events, at most 64 (R560). Reset: empty. -/
  queue : List Accepted
  /-- The log macro's slots, 65,536 of 64 bytes (R558, R561); MRAM, kept over every reset; an unlisted slot reads zeros. Reset: empty, DESIGN CHOICE (log 4). -/
  log : SMap (List Byte)
  /-- The epitaph area's 32 slots of 64 bytes (R565); MRAM. Reset: empty, DESIGN CHOICE (log 4). -/
  epitaphs : SMap (List Byte)
  /-- The two copies of the recorder header (R564); MRAM. Reset: none written, DESIGN CHOICE (log 4). -/
  header0 : Option RecHeader
  /-- See header0. Reset: none written, DESIGN CHOICE (log 4). -/
  header1 : Option RecHeader
  /-- The header is to be written: a clear, a sticky change or a multiple of 64 (R564). Reset: false. -/
  headerDue : Bool
  /-- A drop count changed since the header was last written (R564). Reset: false. -/
  dropChanged : Bool
  /-- Ring time at which the present freeze began (R562, the THAW record). Reset: 0. -/
  frozenAt : Dword
  /-- Records dropped in the present freeze (R559, THAW). Reset: 0. -/
  frozenDrops : Nat
  /-- Slot of the log whose record failed (R565). Reset: none. -/
  failedSlot : Option Nat
  /-- The last complete Standings summary that firmware requested, 256 bytes (R577, R578). Reset: empty, read as zeros, DESIGN CHOICE (log 4). -/
  summary : List Byte
  /-- GENERATION of the last summary (R576): starts at 1 with the first summary after power-on reset. Reset: 0. -/
  generation : Dword
deriving DecidableEq, Repr

/-- One of the two 16-byte slots of a Tally entry (R568); good says that its CRC holds and its INDEX is the entry's. -/
structure TSlot where
  value : Dword
  seq : BitVec 32
  good : Bool
deriving DecidableEq, Repr

/-- Tally beyond its registers. -/
structure Tly where
  /-- Slot 0 of each entry 0 to 5,119 (R568); MRAM. An unlisted one holds VALUE 0, SEQ 0 and is good. Reset: empty, DESIGN CHOICE (log 4). -/
  slot0 : SMap TSlot
  /-- Slot 1 of each entry; an unlisted one is not good. Reset: empty, DESIGN CHOICE (log 4). -/
  slot1 : SMap TSlot
  /-- Staged deltas by entry (R571). Reset: empty. -/
  staged : SMap Nat
  /-- The window length in hours in force: a new WIN takes effect at the first close after it is written (R572). Reset: 24. -/
  winHours : Nat
deriving DecidableEq, Repr

/-- The Mocel ring node beyond its registers. -/
structure Moc where
  /-- Slewing still to do, in ring-time units: positive adds, negative omits (R583). Reset: 0. -/
  slew : Int
  /-- Ticks since the last slewed tick, 0 to 15 (R583). Reset: 0. -/
  tickMod : Nat
  /-- The sources of TIME frames seen, each with its latest ring time (R584). Reset: empty. -/
  seen : SMap Dword
  /-- Ring time at which this node last sent TIME (R583, the measure of L). Reset: none. -/
  sentAt : Option Dword
  /-- Words written to MOC_TX_DATA and not yet sent (R589). Reset: empty. -/
  tx : List Word
  /-- Entries of the MOC receive FIFO, oldest first, at most 64 (R30, R581). Reset: empty. -/
  rx : List (BitVec 128)
  /-- Words of the first receive entry already popped, 0 to 3 (R589). Reset: 0. -/
  rxWord : Nat
  /-- Ticks of 10 ns until IN_ACTIVE clears, 10 µs after the last entry that arrived (R589). Reset: 0. -/
  inTicks : Nat
deriving DecidableEq, Repr



/-- The state of the chip. -/
structure State where
  regs : SMap Word
  shadow : SMap Word
  hold : SMap Word
  bus : BusAnswer
  glb : Glb
  cfg : Cfg
  trc : Trc
  svc : Svc
  evr : Evr
  tly : Tly
  moc : Moc
  ccx : Ccx
  key : KeyS
  lns : Vector Ln 4
  mss : Vector Ms 4
  svs : Vector Sv 4
  ldp : Ldp
  mot : Mot
  spm : Spm
  rly : Rly
  bnd : Bnd
  buf : Buf
  dma : Dma
  bat : Bat
  pwr : Pwr
  qe : Qe
  reports : List Report
  sent : List Out
  freeN : Nat
  pending : List Instr
deriving DecidableEq, Repr

/-! ## Reset -/

/-- Glb as reset leaves it, field by field as its docstrings say. -/
def Glb.reset : Glb :=
  { lost0 := 0, lost1 := 0, row := 0, paceLow := false, porHeld := false, cfgReset := .none,
    note := ⟨.armed, 0, 1, 0, 0, 0, 0, 0, 0xB8722880⟩, offByT16 := false, waiting := [],
    tap := ⟨.testLogicReset, 0x01, 0, [], [], []⟩ }

/-- Cfg as reset leaves it, field by field as its docstrings say. -/
def Cfg.reset : Cfg :=
  { handed := none, staging := none, image := none, mediaFormat := none }

/-- Trc as reset leaves it, field by field as its docstrings say. -/
def Trc.reset : Trc :=
  { boot0 := some ⟨0, ⟨false, false, false, 0, 2, false, 0, 0, 0, none, false⟩⟩, boot1 := none, flash := [], keyTab := [], uds := 0, rootDigest := 0, attest := [], driveSecret := none, derived := false,
    fuseLocked := false, certificate := [], hartsHeld := true, bootRecord := none, nonce := none, longCmd := none, quoteNonce := none,
    quote := none, trngFails := 0, trngRefused := false }

/-- Svc as reset leaves it, field by field as its docstrings say. -/
def Svc.reset : Svc :=
  { open_ := false, rx := [], tx := [], fwFrame := none, held := [], holding := false }

/-- Evr as reset leaves it, field by field as its docstrings say. -/
def Evr.reset : Evr :=
  { raised := [], queue := [], log := [], epitaphs := [], header0 := none, header1 := none, headerDue := false, dropChanged := false,
    frozenAt := 0, frozenDrops := 0, failedSlot := none, summary := [], generation := 0 }

/-- Tly as reset leaves it, field by field as its docstrings say. -/
def Tly.reset : Tly :=
  { slot0 := [], slot1 := [], staged := [], winHours := 24 }

/-- Moc as reset leaves it, field by field as its docstrings say. -/
def Moc.reset : Moc :=
  { slew := 0, tickMod := 0, seen := [], sentAt := none, tx := [], rx := [], rxWord := 0, inTicks := 0 }

/-- Ccx as reset leaves it, field by field as its docstrings say. -/
def Ccx.reset : Ccx :=
  { irq := 0, routes := [], mtip := 0, warned := 0, reserve := Vector.replicate 8 none, sb := Vector.replicate 8 [],
    icache := Vector.replicate 8 [], lines := [], streams := [], wayCe := [] }

/-- KeyS as reset leaves it, field by field as its docstrings say. -/
def KeyS.reset : KeyS :=
  { kek := none, recs := [], keys := [], erases := [] }

/-- Ln as reset leaves it, field by field as its docstrings say. -/
def Ln.reset : Ln :=
  { bus := none, gateQ := [], setQ := [], fwQ := [], fwCrc := false, fwMis := false, fwData := 0, pre := ⟨3, 0⟩, preAt := 0, lastSent := [],
    heatAt := [], slept := false, enHeld := 0, tables := [], held := none, wheld := none, waitT := [], ctl := 3, det := 0x1007,
    tgt := Vector.replicate 4 0, ovr := none, desc := none, gate := none, cont := none, vgate := none, vdue := [], wfifo := [], awaiting := [],
    compared := [], lost := [], rewrites := [], cut := [], safeWedges := 0, inh0 := false, lastW := none, faultRead := false, wgroup := none,
    rgroups := [], ladder := none, spill := [], spillNo := 0, reads := [], drain := false, rdUnsafe := false }

/-- SeqRegs as reset leaves it, field by field as its docstrings say. -/
def SeqRegs.reset : SeqRegs :=
  { w := Vector.replicate 12 0, hd := 0, wcmp := 0, lc0 := 0, lc1 := 0, zf := false, nf := false, stack := [], gate := 0, op := 0,
    xfer := Vector.replicate 5 0, sectNo := 0 }

/-- Ms as reset leaves it, field by field as its docstrings say. -/
def Ms.reset : Ms :=
  { store := [], cur := SeqRegs.reset, nxt := SeqRegs.reset, acted := 0, conds := 0, holding := false, cmd := [], events := [],
    stopping := false, storeErr := false, passBkpt := false, startDue := false, landed := none, slipped := false }

/-- Motion as reset leaves it, field by field as its docstrings say. -/
def Motion.reset : Motion :=
  { p := 0, v := 0, a := 0 }

/-- Sv as reset leaves it, field by field as its docstrings say. -/
def Sv.reset : Sv :=
  { wedges := 0, params := [], headChanged := false, found := false, lastFound := false, intervals := [],
    interval := none, ranged := false, miss := 0, havePred := false,
    widHist := [], x := 0, estV := 0, sampled := false, mailbox := none, target := none, aim := 0, plan := none, ref := Motion.reset,
    vmax := 0, amax := 0, jmax := 0, feCount := 0, restartDue := false, unloadDue := false, trips := 0, settleCount := 0,
    settleWedges := 0, acqCount := 0, uldEnded := false, offRetract := false, attempt := 0, again := false, loadAt := 0, out0 := 0,
    out1 := 0, out2 := 0, demand := 0, integ := 0, commanded := 0, measured := 0, divTicks := 0, status := [], slot := 0, acc := [], words := [],
    exps := [], switch := none }

/-- Ldp as reset leaves it, field by field as its docstrings say. -/
def Ldp.reset : Ldp :=
  { engines := Vector.replicate 12 ⟨.lost, []⟩, waiting := [], handed := [], pointer := 0 }

/-- Mot as reset leaves it, field by field as its docstrings say. -/
def Mot.reset : Mot :=
  { spindle := [], status := [], ahead := 0 }

/-- Spm as reset leaves it, field by field as its docstrings say. -/
def Spm.reset : Spm :=
  { restCheck := false, volts := [], sense := [], pulses := 0, step := 0, inForce := 0, resync := false, probing := false, profileAt := 0, crossings := [], forward := 0, reverse := 0,
    drive := 0, integ := 0, ref := 0, goal := 3, lockRevs := 0, faultRevs := 0, keDone := false, kePeak := 0, after := .stopped,
    brakeDue := none, unparked := false, okState := 0, decel := false, ramping := false, draining := false, drainAt := 0 }

/-- Act as reset leaves it, field by field as its docstrings say. -/
def Act.reset : Act :=
  { busy := [], tracks := [], target := none, reissues := 0, startW := 0, followW := none, endW := 0, pauseW := 0, pausedAt := none,
    outcomes := 0, tracksDone := 0, tracksAll := 0, revs := 0, c3 := 0, c4 := 0, place := none, offset := none, fed := 0,
    steps := [], last := none, ready := false, ahead := none }

/-- Rly as reset leaves it, field by field as its docstrings say. -/
def Rly.reset : Rly :=
  { pool := [], requests := [], next := 0, acts := Vector.replicate 4 Act.reset, seek := [], acct := [], fgShare := 0, qos := [] }

/-- McLog as reset leaves it, field by field as its docstrings say. -/
def McLog.reset : McLog :=
  { head := 0, tail := 0, credit := 0 }

/-- Patrol as reset leaves it, field by field as its docstrings say. -/
def Patrol.reset : Patrol :=
  { cursor := 0, start := 0, written := 0, read := 0, queue := [], warned := 0 }

/-- Bnd as reset leaves it, field by field as its docstrings say. -/
def Bnd.reset : Bnd :=
  { ns := [], attach := [], lbt := [], pbt := [], mci := [], mc := Vector.replicate 4 McLog.reset, jnl := [], freed := [],
    flush := none, flushDue := false, prelist := Vector.replicate 4 [], jnlPos := 0, sinceImage := 0, jnlFrom := 0, imgPos := 0,
    imgSlot := 1, imageDue := false, migrate := 0, image := none, rewrites := [], uncorr := [], weakQ := [], health := [],
    patrol := Vector.replicate 4 Patrol.reset, poolUsed := Vector.replicate 4 0, scan := [], accepted := [], open_ := [],
    seqFound := 0, lostRange := [], readonlyAt := 0, noteRec := Vector.replicate 4 none, noteOk := true, built := false }

/-- Buf as reset leaves it, field by field as its docstrings say. -/
def Buf.reset : Buf :=
  { pages := [], cache := [], room := [], mem := [], merge := [], ce := [], ceNext := 0, psn := [], psnNext := 0, poisoned := [],
    lwl := [], marks := Vector.replicate 2 none, allow := Vector.replicate 2 (Vector.replicate 6 0),
    waiting := Vector.replicate 2 (Vector.replicate 6 false), defer := Vector.replicate 2 (Vector.replicate 6 0),
    recoveryPass := Vector.replicate 2 false, scrubAt := Vector.replicate 2 0, copies := [] }

/-- Dma as reset leaves it, field by field as its docstrings say. -/
def Dma.reset : Dma :=
  { chs := [] }

/-- Bat as reset leaves it, field by field as its docstrings say. -/
def Bat.reset : Bat :=
  { pins := 0, txNext := 0, rxNext := 0, unacked := [], waitTx := [], freed := 0, linkLost := false, claimed := 0, peerKe := false,
    peerLost := 0, releasing := 0, offered := 0, ceiling := 0, nextTag := 0, forwards := [], guests := [], extents := [], macks := [],
    racks := [], jacks := [], asked := [], mirrors := [], shadowLbt := [], shadowPbt := [], shadowMci := [], unflushed := [],
    jnlPos := 0, jnlAcked := 0, phase := 0, resynced := false, peerResynced := false, adopted := false }

/-- Pwr as reset leaves it, field by field as its docstrings say. -/
def Pwr.reset : Pwr :=
  { idleAt := none, downs := 0, changedAt := none, svcW := Vector.replicate 4 0, busyW := Vector.replicate 4 0, wakeFor := none, replaces := Vector.replicate 4 none,
    warm := false, heads := 0 }

/-- Qe as reset leaves it, field by field as its docstrings say. -/
def Qe.reset : Qe :=
  { ctrls := [], fetched := [], counts := [], slots := [], lastFn := 127, stuck := none, stamp := none, ana := [], anaChanges := 0,
    tempThr := none, tempLow := none, sanitize := 0, pci := [] }

/-- The state of the chip right after power-on reset (R591, R595, R603): every register at its reset value but the note that GLB writes ARMED at release (GLB_RST_STAT.NOTE = 1), every piece beyond the registers as its docstring says. -/
def State.reset : State :=
  { regs := [(0x2C, 0x20000000)], shadow := [], hold := [], bus := .none, glb := Glb.reset, cfg := Cfg.reset, trc := Trc.reset,
    svc := Svc.reset, evr := Evr.reset, tly := Tly.reset, moc := Moc.reset, ccx := Ccx.reset, key := KeyS.reset,
    lns := Vector.replicate 4 Ln.reset, mss := Vector.replicate 4 Ms.reset, svs := Vector.replicate 4 Sv.reset, ldp := Ldp.reset,
    mot := Mot.reset, spm := Spm.reset, rly := Rly.reset, bnd := Bnd.reset, buf := Buf.reset, dma := Dma.reset, bat := Bat.reset,
    pwr := Pwr.reset, qe := Qe.reset, reports := [], sent := [], freeN := 0, pending := [] }

end Sys2Proof.Machine
end

