-- ==== Sys2Proof/Machine/Ops.lean ====
section
/-! DEFINITION. The named operations over the state that every meaning is written with: sparse maps, reading and writing a
field of a register, saturating counters, little-endian bytes, bit fields of wide entries, checks (CRC), free values and the
list of what the chip sent. -/

namespace Sys2Proof.Machine

/-! ### Sparse maps -/

/-- The value at a key, if listed. -/
def smGet {β : Type} (k : Nat) : SMap β → Option β
  | [] => none
  | (j, v) :: t => if j = k then some v else smGet k t

/-- The map without a key. -/
def smErase {β : Type} (k : Nat) : SMap β → SMap β
  | [] => []
  | (j, v) :: t => if j = k then smErase k t else (j, v) :: smErase k t

/-- The map with an entry put at its place among rising keys. -/
def smInsert {β : Type} (k : Nat) (v : β) : SMap β → SMap β
  | [] => [(k, v)]
  | (j, w) :: t => if k < j then (k, v) :: (j, w) :: t else (j, w) :: smInsert k v t

/-- The map with key `k` holding `v`. -/
def smSet {β : Type} (k : Nat) (v : β) (m : SMap β) : SMap β := smInsert k v (smErase k m)

/-- The map with key `k` holding `v`, in canonical form: an entry equal to what an unlisted key reads as (`d`) is not listed. -/
def smPut {β : Type} [DecidableEq β] (d : β) (k : Nat) (v : β) (m : SMap β) : SMap β :=
  if v = d then smErase k m else smSet k v m

/-- The value at a key, `d` where it is unlisted. -/
def smGetD {β : Type} (d : β) (k : Nat) (m : SMap β) : β := (smGet k m).getD d

/-- The canonical form of a map: keys strictly rising. -/
def smSorted {β : Type} : SMap β → Bool
  | [] => true
  | [_] => true
  | (j, _) :: (k, w) :: t => decide (j < k) && smSorted ((k, w) :: t)

/-! ### Numbers and bytes -/

/-- Bits [hi:lo] of a number. -/
def bitsOf (v hi lo : Nat) : Nat := v / 2 ^ lo % 2 ^ (hi + 1 - lo)

/-- A flag as 0 or 1. -/
def b2n (b : Bool) : Nat := if b then 1 else 0

/-- The `n` little-endian bytes of a number (R18). -/
def le : Nat → Nat → List Byte
  | 0, _ => []
  | n + 1, v => BitVec.ofNat 8 v :: le n (v / 256)

/-- The number that little-endian bytes spell (R18). -/
def unle : List Byte → Nat
  | [] => 0
  | b :: t => b.toNat + 256 * unle t

/-- `n` zero bytes. -/
def zeros (n : Nat) : List Byte := List.replicate n 0

/-- A list cut or padded with zero bytes to exactly `n`. -/
def fit (n : Nat) (l : List Byte) : List Byte := (l ++ zeros n).take n

/-- A number as a two's-complement integer of `w` bits. -/
def signed (w v : Nat) : Int := if v % 2 ^ w < 2 ^ (w - 1) then (v % 2 ^ w : Nat) else (v % 2 ^ w : Nat) - (2 ^ w : Nat)

/-- An integer as `w` bits in two's complement. -/
def unsigned (w : Nat) (i : Int) : Nat := (i % (2 ^ w : Nat)).toNat

/-- An integer held within [lo, hi]. -/
def clampI (lo hi i : Int) : Int := if i < lo then lo else if hi < i then hi else i

/-! ### Checks -/

/-- One step of a reflected CRC of `poly` on a bit already exclusive-ored into bit 0. -/
def crcShiftR (poly c : Nat) : Nat := if c % 2 = 1 then (c / 2) ^^^ poly else c / 2

/-- A byte into CRC-32C (Castagnoli, reflected polynomial 0x82F63B78). -/
def crc32cByte (c : Nat) (b : Byte) : Nat :=
  let s := crcShiftR 0x82F63B78
  s (s (s (s (s (s (s (s (c ^^^ b.toNat))))))))

/-- CRC-32C with seed 0xFFFF_FFFF and final inversion (R558, R598, R544). -/
def crc32c (l : List Byte) : Nat := (l.foldl crc32cByte 0xFFFFFFFF) ^^^ 0xFFFFFFFF

/-- A bit into a CRC-16 of x¹⁶ + x¹² + x⁵ + 1 that shifts left (R568). -/
def crc16Bit (c : Nat) (b : Bool) : Nat :=
  let top := (c / 2 ^ 15 % 2 = 1) != b
  let c' := c * 2 % 2 ^ 16
  if top then c' ^^^ 0x1021 else c'

/-- CRC-16 of a ring frame's bits, bit 0 of each entry first, initial value 0xFFFF, no final inversion (R579). -/
def crc16Bits (c : Nat) (v : Nat) : Nat → Nat
  | 0 => c
  | n + 1 => crc16Bits (crc16Bit c (v % 2 = 1)) (v / 2) n

/-- A byte into the CRC-8 of polynomial x⁸ + x² + x + 1 (0x07), most significant bit first (R69). -/
def crc8Byte (c : Nat) (v : Nat) : Nat :=
  let s := fun x => if x / 128 % 2 = 1 then (x * 2 % 256) ^^^ 0x07 else x * 2 % 256
  s (s (s (s (s (s (s (s (c ^^^ v % 256))))))))

/-! ### Registers -/

/-- The word a register holds. -/
def State.reg (s : State) (a : Nat) : Word := smGetD (resetOf a) a s.regs

/-- The state with a register's word set. -/
def State.setReg (s : State) (a : Nat) (w : Word) : State := { s with regs := smPut (resetOf a) a w s.regs }

/-- The value of a field. -/
def State.get (s : State) (f : Fld) : Nat := ((s.reg f.addr).extractLsb' f.lo f.width).toNat

/-- A word with bits [hi:lo] of a field replaced. -/
def insertBits (f : Fld) (v : Nat) (w : Word) : Word :=
  let m : Word := (BitVec.allOnes 32 >>> (32 - f.width)) <<< f.lo
  (w &&& ~~~m) ||| ((BitVec.ofNat 32 v <<< f.lo) &&& m)

/-- The state with a field set, its value cut to the field's width. -/
def State.put (s : State) (f : Fld) (v : Nat) : State := s.setReg f.addr (insertBits f v (s.reg f.addr))

/-- A field that is not zero. -/
def State.on (s : State) (f : Fld) : Bool := s.get f != 0

/-- A field set to 1 or 0. -/
def State.putB (s : State) (f : Fld) (b : Bool) : State := s.put f (b2n b)

/-- A saturating counter field raised by `n` (R15). -/
def State.count (s : State) (f : Fld) (n : Nat := 1) : State := s.put f (min (s.get f + n) (2 ^ f.width - 1))

/-- Two registers of a pair as one 64-bit value: LO then HI (R16). -/
def State.pair (s : State) (lo hi : Nat) : Dword := (s.reg hi) ++ (s.reg lo)

/-- A register pair set as one 64-bit value (R16). -/
def State.setPair (s : State) (lo hi : Nat) (v : Dword) : State :=
  (s.setReg lo (v.extractLsb' 0 32)).setReg hi (v.extractLsb' 32 32)

/-! ### Free values and outputs -/

/-- A fresh free value of `w` bits, and the state with the counter of free values advanced. -/
def State.free (s : State) (w : Nat) : BitVec w × State := (Config.freeValue w s.freeN, { s with freeN := s.freeN + 1 })

/-- The state after sending one thing out of the chip. -/
def State.emit (s : State) (o : Out) : State := { s with sent := s.sent ++ [o] }

/-- The state after sending several. -/
def State.emitAll (s : State) (os : List Out) : State := { s with sent := s.sent ++ os }

/-- The answer of a register access left for its requester. -/
def State.answer (s : State) (b : BusAnswer) : State := { s with bus := b }

/-- Apply an update for each element of a list, in order. -/
def forEach {α : Type} (l : List α) (f : α → State → State) (s : State) : State := l.foldl (fun t a => f a t) s

/-- An update applied only where a condition holds. -/
def State.iff (s : State) (c : Bool) (f : State → State) : State := if c then f s else s

/-- The four lanes, in order. -/
def lanes : List Lane := [0, 1, 2, 3]

end Sys2Proof.Machine
end

