-- ==== Sys2Proof/Machine/Messages.lean ====
section
/-! DEFINITION. The Baton messages as bytes (R484 to R486): the header, the ARGS and the payload of each type, the CRC; with the journal entry (R262) and
the lost-write entry (R421) that messages and media share. -/

namespace Sys2Proof.Config

/-- The payload bytes to which the spec gives no place: the submission entry of CMD, the fields of EXTENT, the namespace-table entry of NSREC, and the
status of DONE, which the NVMe standard codes (R486) (log 30). -/
opaque batonByte : BatMsg → Nat → BitVec 8

end Sys2Proof.Config

namespace Sys2Proof.Machine

/-- A journal entry's 32 bytes (R262). -/
def jentryBytes (e : JEntry) : List Byte :=
  le 1 e.type_ ++ le 1 e.act ++ le 2 e.count ++ le 6 e.seq ++ le 4 e.band ++ le 2 e.ns ++ le 8 e.x ++ le 4 e.arg0 ++ le 4 e.arg1

/-- A lost-write entry's 48 bytes (R421). -/
def lostEntryBytes (base ns fn : Nat) (map : BitVec 256) : List Byte :=
  let b := le 6 base ++ le 2 ns ++ le 2 fn ++ zeros 2 ++ le 32 map.toNat
  b ++ le 4 (crc32c b)

/-- Controllers as a map of 256 bits: bit i for CNTLID i + 1 (R328, R486). -/
def controllerMap (l : List Nat) : Nat := ((List.range 256).map (fun i => b2n (l.contains (i + 1)) * 2 ^ i)).sum

/-- Blocks one after another, filled up to whole entries (R486). -/
def payloadBlocks (blocks : List (List Byte)) : List Byte :=
  let b := blocks.flatten
  b ++ zeros ((32 - b.length % 32) % 32)

/-- TYPE of a message (R486). -/
def msgType : BatMsg → Nat
  | .hello .. => 0x01
  | .heartbeat .. => 0x02
  | .release .. => 0x03
  | .cmd .. => 0x10
  | .data .. => 0x11
  | .done .. => 0x12
  | .extent .. => 0x20
  | .outcome .. => 0x21
  | .mirror .. => 0x30
  | .commit .. => 0x31
  | .mack => 0x32
  | .mfree .. => 0x33
  | .mreq .. => 0x34
  | .jnl .. => 0x40
  | .jack .. => 0x41
  | .keyrec .. => 0x50
  | .nsrec .. => 0x51
  | .rack => 0x52
  | .lwlrec .. => 0x53
  | .resync .. => 0x60

/-- The 16 bytes of ARGS (R486); bytes not named are zero. -/
def msgArgs (m : BatMsg) : List Byte :=
  fit 16 (match m with
    | .heartbeat mode owned lost ke pcache resynced offer ack =>
      le 1 mode ++ le 1 (owned.toNat + 16 * lost.toNat) ++ le 1 (b2n ke + 2 * b2n pcache + 4 * b2n resynced) ++ zeros 1 ++ le 6 offer ++ le 6 ack
    | .release acts => le 1 acts.toNat
    | .cmd fn ns cls _ => le 2 fn ++ le 2 ns ++ le 1 cls
    | .data first count _ => le 4 first ++ le 2 count
    | .done _ _ dw0 dw1 => (List.range 2).map (Config.batonByte m) ++ zeros 2 ++ le 4 dw0 ++ le 4 dw1
    | .outcome o charge => le 1 o ++ zeros 3 ++ le 4 charge
    | .mirror ns first count _ => le 2 ns ++ le 8 first ++ le 2 count
    | .commit ns first count transfer => le 2 ns ++ le 8 first ++ le 2 count ++ le 1 (b2n transfer)
    | .mfree ns first count => le 2 ns ++ le 8 first ++ le 2 count
    | .mreq ns lba => le 2 ns ++ le 8 lba
    | .jnl pos _ => le 8 pos
    | .jack pos => le 8 pos
    | .nsrec ns _ => le 2 ns
    | .resync phase => le 1 phase
    | .hello .. => []
    | .extent .. => []
    | .mack => []
    | .keyrec .. => []
    | .rack => []
    | .lwlrec .. => [])

/-- The payload in whole 32-byte entries (R486). -/
def msgPayload (m : BatMsg) : List Byte :=
  match m with
  | .hello set role stepping image fw digest =>
    le 2 set ++ le 1 role ++ le 1 stepping ++ le 4 image ++ le 4 fw ++ (le 16 digest.toNat).reverse ++ zeros 4
  | .cmd .. => (List.range 64).map (Config.batonByte m)
  | .data _ _ b => payloadBlocks b
  | .extent .. => (List.range 32).map (Config.batonByte m)
  | .mirror _ _ _ b => payloadBlocks b
  | .jnl _ e => e.flatMap jentryBytes
  | .keyrec _ r => fit 96 r
  | .nsrec _ entry =>
    (List.range 64).map (Config.batonByte m) ++ le 32 (controllerMap ((entry.map (fun e => e.attached)).getD [])) ++
      le 32 (controllerMap ((entry.map (fun e => e.permits)).getD []))
  | .lwlrec base ns fn map => fit 64 (lostEntryBytes base ns fn map)
  | .heartbeat .. => []
  | .release .. => []
  | .done .. => []
  | .outcome .. => []
  | .commit .. => []
  | .mack => []
  | .mfree .. => []
  | .mreq .. => []
  | .jack .. => []
  | .rack => []
  | .resync .. => []

/-- LEN of a message: its payload entries, at most 128 (R485, R486). -/
def msgLen : BatMsg → Nat
  | .hello .. => 1
  | .cmd .. => 2
  | .data _ _ b => min 128 (((b.map (fun x => x.length)).sum + 31) / 32)
  | .extent .. => 1
  | .mirror _ _ _ b => min 128 (((b.map (fun x => x.length)).sum + 31) / 32)
  | .jnl _ e => min 8 e.length
  | .keyrec .. => 3
  | .nsrec .. => 4
  | .lwlrec .. => 2
  | _ => 0

/-- A message as the link carries it (R484, R485): the header with its CRC-32C over header bytes 0 to 27 and the payload, then the payload. -/
def msgBytes (lseq ackseq credit : BitVec 16) (tag : BitVec 32) (m : BatMsg) : List Byte :=
  let head := le 1 (msgType m) ++ le 1 (msgLen m) ++ le 2 lseq.toNat ++ le 2 ackseq.toNat ++ le 2 credit.toNat ++ le 4 tag.toNat ++ msgArgs m
  head ++ le 4 (crc32c (head ++ msgPayload m)) ++ msgPayload m

end Sys2Proof.Machine
end

