-- ==== Sys2Proof/Machine/Flags.lean ====
section
/-! DEFINITION. Every flag the spec's registers hold is set through this file: interrupt sources (R441), W1C flags with the
event they raise (R11, R560), system events (R559), and Tally's counts (R569 to R573). -/

namespace Sys2Proof.Machine

/-- Interrupt source `n` becomes pending (R441). -/
def State.irq (s : State) (n : Nat) : State :=
  { s with ccx := { s.ccx with irq := s.ccx.irq ||| (BitVec.ofNat 256 1 <<< n) } }

/-- A bit of GLB_MODE_COND set; a change makes source 19 pending (R441). -/
def State.cond (s : State) (f : Fld) : State := if s.on f then s else (s.put f 1).irq 19

/-- A bit of GLB_MODE_COND cleared. -/
def State.uncond (s : State) (f : Fld) : State := if s.on f then (s.put f 0).irq 19 else s

/-- An event raised towards EVR (R560). -/
def State.raiseEvent (s : State) (e : Raised) : State := { s with evr := { s.evr with raised := s.evr.raised ++ [e] } }

/-- Offset of an address in its block instance, and bits [31:16] of the base (R558, SOURCE). -/
def sourceOf (addr : Nat) : Nat := addr / 0x10000

/-- The interrupt source that a register's flags make pending (R441), none for a register it does not name. -/
def flagSource (addr : Nat) : Option Nat :=
  match locate addr with
  | some (.sv, n, 0x024) => some (5 + n)
  | some (.ln, n, 0x02C) => some (13 + n)
  | some (.ln, n, 0x208) => some (13 + n)
  | some (.spm, _, 0x008) => some 17
  | some (.mot, _, 0x008) => some 18
  | some (.glb, _, 0x01C) => some 20
  | some (.bnd, _, 0x030) => some 22
  | some (.rly, _, 0x034) => some 24
  | some (.rly, _, 0x118) => some 25
  | some (.qe, _, 0x028) => some 26
  | some (.hif, n, 0x00C) => some (28 + n)
  | some (.buf, _, 0x05C) => some 30
  | some (.dmc, n, 0x010) => some (31 + n)
  | some (.scc, _, 0x018) => some 33
  | some (.scc, _, 0x81C) => some 43
  | some (.key, _, 0x00C) => some 34
  | some (.pwr, _, 0x02C) => some 36
  | some (.bat, _, 0x028) => some 39
  | _ => none

/-- The registers whose rising W1C bits make a flag record (R560): those R441 names, and BND_SPARE_EVT. -/
def flagRecorded (addr : Nat) : Bool :=
  (flagSource addr).isSome || addr == R.BND_SPARE_EVT || addr == R.CFG_LOAD_STAT ||
  [0, 1, 2, 3].any (fun n => addr == R.SVn_PACE_STAT n)

/-- Hardware sets a W1C flag (R11): the bits of the field that rise make the register's interrupt source pending (R441) and
raise a flag event (R560). -/
def State.flag (s : State) (f : Fld) : State :=
  let s' := s.put f (2 ^ f.width - 1)
  let rose := s'.reg f.addr &&& ~~~(s.reg f.addr)
  if rose = 0 then s' else
    let s' := match flagSource f.addr with
      | some n => s'.irq n
      | none => s'
    if flagRecorded f.addr then s'.raiseEvent (.flag f.addr rose) else s'

/-- A system event of the code table (R559). -/
def State.sysEvent (s : State) (code sev unit source : Nat) (data : List Byte) : State :=
  s.raiseEvent (.system code sev unit source data)

/-! ### Tally (R568 to R573) -/

/-- What an unlisted slot 0 holds (log 4). -/
def tslotInit : TSlot := ⟨0, 0, true⟩

/-- What an unlisted slot 1 holds (log 4). -/
def tslotNone : TSlot := ⟨0, 0, false⟩

/-- The current slot of a Tally entry (R570): `some (true, slot)` for slot 1. -/
def tlyCurrent (t : Tly) (e : Nat) : Option (Bool × TSlot) :=
  let a := smGetD tslotInit e t.slot0
  let b := smGetD tslotNone e t.slot1
  match a.good, b.good with
  | true, true =>
    if a.seq = b.seq + 1 then some (false, a)
    else if b.seq = a.seq + 1 then some (true, b)
    else if b.seq.toNat < a.seq.toNat then some (false, a) else some (true, b)
  | true, false => some (false, a)
  | false, true => some (true, b)
  | false, false => none

/-- A slot of an entry written. -/
def tlyWrite (t : Tly) (e : Nat) (one : Bool) (v : TSlot) : Tly :=
  if one then { t with slot1 := smPut tslotNone e v t.slot1 } else { t with slot0 := smPut tslotInit e v t.slot0 }

/-- A sticky bit set by hardware (R567), so that the recorder header is due (R564). -/
def State.sticky (s : State) (f : Fld) : State :=
  let s := s.put f 1
  { s with evr := { s.evr with headerDue := true } }

/-- One update of Tally: entry, delta, and whether both the write and its one rewrite read back wrong (R569). -/
def State.tlyUpdate (s : State) (e d : Nat) (bad : Bool) : State :=
  let failed := fun (s : State) (slot : Bool) =>
    (((s.flag F.TLY_FLT_WRITE_FAIL).sticky F.GLB_STICKY_TALLY_FAIL).count F.TLY_CNT_WRITE_FAIL).sysEvent 0x400A 2 0xFFFF
      (sourceOf R.TLY_CFG) (le 2 e ++ [if slot then 1 else 0, 1])
  match tlyCurrent s.tly e with
  | some (one, cur) =>
    if bad then
      failed { s with tly := tlyWrite s.tly e (!one) ⟨cur.value, cur.seq, false⟩ } (!one)
    else { s with tly := tlyWrite s.tly e (!one) ⟨cur.value + BitVec.ofNat 64 d, cur.seq + 1, true⟩ }
  | none =>
    let s := (((s.flag F.TLY_FLT_SLOT_BAD).count F.TLY_CNT_SLOT_BAD).sticky F.GLB_STICKY_TALLY_FAIL).sysEvent 0x400A 2 0xFFFF
      (sourceOf R.TLY_CFG) (le 2 e ++ [0, 0])
    if bad then failed s false else { s with tly := tlyWrite s.tly e false ⟨BitVec.ofNat 64 d, 1, true⟩ }

/-- The entries that the counter table marks "at once" (R573). -/
def tlyAtOnce (e : Nat) : Bool :=
  (1 ≤ e && e ≤ 5) || (8 ≤ e && e ≤ 19) || e == 65 || e == 67 || (72 ≤ e && e ≤ 74)

/-- An increment passed to Tally (R571): committed at once or staged. Nothing is committed after POWER_FAIL. -/
def State.tally (s : State) (e : Nat) (d : Nat := 1) : State :=
  if tlyAtOnce e && !s.on F.GLB_MODE_COND_POWER_FAIL then s.tlyUpdate e d false
  else
    let staged := smPut 0 e (smGetD 0 e s.tly.staged + d) s.tly.staged
    ({ s with tly := { s.tly with staged := staged } }).put F.TLY_STAT_STAGED staged.length

/-- An addition to bin `b` of histogram `h` (R574). -/
def State.histo (s : State) (h b : Nat) : State := s.tally (1024 + 32 * h + min b 31)

/-! ### GLB's FIFO flags (R30) -/

/-- A bit of GLB_FIFO_OVF set for instance `n` (R30, R43). -/
def State.fifoFlag (s : State) (f : Fld) (n : Nat) : State := s.flag (f.bit n)

end Sys2Proof.Machine
end

