-- ==== Sys2Proof/Machine/Operands.lean ====
section
/-! DEFINITION. The operand forms: a Cuhar command with its session level and response (R546, R547), a register access with
the checks of R9, R59 and R632, a ring frame's header fields (R579). -/

namespace Sys2Proof.Machine

/-! ### Cuhar (R546, R547) -/

def Status.ok : BitVec 16 := 0x0000
def Status.pending : BitVec 16 := 0x0001
def Status.badFrame : BitVec 16 := 0x0010
def Status.unknown : BitVec 16 := 0x0011
def Status.notAuth : BitVec 16 := 0x0012
def Status.badArg : BitVec 16 := 0x0013
def Status.state : BitVec 16 := 0x0014
def Status.verifyFail : BitVec 16 := 0x0015
def Status.address : BitVec 16 := 0x0016

/-- A frame to the service equipment: sent, or kept while the equipment holds with K28.3 (R545). -/
def State.svcSend (s : State) (o : Out) : State :=
  if s.on F.SVC_STAT_PEER_HOLD then { s with svc := { s.svc with held := s.svc.held ++ [o] } } else s.emit o

/-- A response frame as the line carries it (R544): header, payload, and the CRC-32C over both. -/
def cuharFrame (cmd : BitVec 8) (tag status : BitVec 16) (fw : Bool) (payload : List Byte) : Out :=
  let b := [cmd] ++ le 1 (1 + 2 * b2n fw) ++ le 2 tag.toNat ++ le 2 payload.length ++ le 2 status.toNat ++ payload
  .cuhar cmd tag status fw payload (b ++ le 4 (crc32c b))

/-- A response frame carrying the command's CMD and TAG (R546). -/
def State.reply (s : State) (cmd : BitVec 8) (tag status : BitVec 16) (payload : List Byte := []) : State :=
  s.svcSend (cuharFrame cmd tag status false payload)

/-- The session level: 0 open, 1 SERVICE, 2 PROVISION (R547, SVC_STAT.SESSION). -/
def State.session (s : State) : Nat := s.get F.SVC_STAT_SESSION

/-- A Cuhar command of a session level: above the session's level it is answered NOT_AUTH (R547), else it runs. -/
def State.cuhar (s : State) (level : Nat) (cmd : BitVec 8) (tag : BitVec 16) (run : State → State) : State :=
  if s.session < level then s.reply cmd tag Status.notAuth else run s

/-! ### Ring frames (R579) -/

/-- A field of a frame's header entry. -/
def mocField (f : MocFrame) (hi lo : Nat) : Nat := bitsOf f.hdr.toNat hi lo

def mocType (f : MocFrame) : Nat := mocField f 3 0
def mocLen (f : MocFrame) : Nat := mocField f 7 4
def mocDst (f : MocFrame) : Nat := mocField f 20 8
def mocSrc (f : MocFrame) : Nat := mocField f 33 21
def mocHops (f : MocFrame) : Nat := mocField f 46 34
def mocBcast (f : MocFrame) : Bool := mocField f 47 47 = 1
def mocArg (f : MocFrame) : Nat := mocField f 111 48

/-- The CRC-16 over header bits [111:0] and then every payload entry (R579). -/
def mocCrc (hdr : BitVec 128) (payload : List (BitVec 128)) : Nat :=
  payload.foldl (fun c e => crc16Bits c e.toNat 128) (crc16Bits 0xFFFF hdr.toNat 112)

/-- The frame's CRC field is right (R579, R581). -/
def mocCrcOk (f : MocFrame) : Bool := mocField f 127 112 == mocCrc f.hdr f.payload

/-- A frame built from its fields, with its CRC (R579). -/
def mocBuild (type dst src hops : Nat) (bcast : Bool) (arg : Nat) (payload : List (BitVec 128)) : MocFrame :=
  let h := type % 16 + payload.length % 16 * 2 ^ 4 + dst % 2 ^ 13 * 2 ^ 8 + src % 2 ^ 13 * 2 ^ 21 + hops % 2 ^ 13 * 2 ^ 34 +
    b2n bcast * 2 ^ 47 + arg % 2 ^ 64 * 2 ^ 48
  let c := mocCrc (BitVec.ofNat 128 h) payload
  ⟨BitVec.ofNat 128 (h + c * 2 ^ 112), payload⟩

/-! ### Ring time -/

/-- Ring time, in units of 10 ns (R583). -/
def State.now (s : State) : Dword := s.pair R.MOC_TIME_LO R.MOC_TIME_HI

/-- The state with ring time set. -/
def State.setNow (s : State) (t : Dword) : State := s.setPair R.MOC_TIME_LO R.MOC_TIME_HI t

/-- The current mode code (R33). -/
def State.mode (s : State) : Nat := s.get F.GLB_MODE_MODE

/-! ### Modes by name (R33) -/

def Mode.off : Nat := 0x0
def Mode.configure : Nat := 0x1
def Mode.service : Nat := 0x2
def Mode.spinup : Nat := 0x3
def Mode.active : Nat := 0x4
def Mode.idleReady : Nat := 0x5
def Mode.idleSlow : Nat := 0x6
def Mode.idleParked : Nat := 0x7
def Mode.standby : Nat := 0x8
def Mode.degraded : Nat := 0x9
def Mode.readonly : Nat := 0xA
def Mode.partnerStandby : Nat := 0xB

/-- The idle modes (R34): IDLE_READY, IDLE_SLOW, IDLE_PARKED and STANDBY. -/
def Mode.isIdle (m : Nat) : Bool := m == Mode.idleReady || m == Mode.idleSlow || m == Mode.idleParked || m == Mode.standby

end Sys2Proof.Machine
end

