-- ==== Sys2Proof/Machine/Recorder.lean ====
section
/-! DEFINITION. The event recorder (22_recorder_tally_standings.md, R558 to R567, R585): accepting, writing and reading
records, freezes, clears, the header and the sticky bits. -/

namespace Sys2Proof.Machine

/-- The log is frozen (R562). -/
def State.frozen (s : State) : Bool := s.on F.EVR_STAT_FRZ_FW || s.on F.EVR_STAT_FRZ_SVC

/-- A drop counted in one of the three drop registers, and in Tally counter 7 (R573). -/
def State.evrDrop (s : State) (f : Fld) : State :=
  let s := (s.count f).tally 7
  { s with evr := { s.evr with dropChanged := true } }

/-- The event as accepted, with the ring time, boot number and mode of its acceptance (R558, R559). -/
def acceptedOf (s : State) (e : Raised) : Accepted :=
  let base := fun (source code sev unit : Nat) (data : List Byte) =>
    (⟨s.now, s.reg R.TRC_BOOT_NUM, source, code, sev, s.get F.GLB_MODE_MODE + 16 * s.get F.GLB_MODE_PSTATE, unit, fit 36 data⟩ : Accepted)
  match e with
  | .flag a bits =>
    let unit := match locate a with
      | some (b, n, _) => if b = .ln ∨ b = .sv ∨ b = .ms ∨ b = .hif ∨ b = .dmc then n else 0xFFFF
      | none => 0xFFFF
    base (sourceOf a) (a % 0x10000 / 4) 1 unit (le 4 bits.toNat ++ le 4 (s.reg a).toNat)
  | .system code sev unit source data => base source code sev unit data
  | .firmware code sev unit data => base 0xFFFF (0x8000 + code) sev unit data

/-- One event offered to EVR (R560 to R562, R565, R566): dropped while frozen, while the log is full, or where the queue is
full, else queued. -/
def evrOffer (e : Accepted) (s : State) : State :=
  if s.frozen then
    let s := s.evrDrop F.EVR_DROP_FRZ_COUNT
    { s with evr := { s.evr with frozenDrops := s.evr.frozenDrops + 1 } }
  else if !s.on F.EVR_STAT_LOG_FAILED && s.on F.EVR_STAT_FULL then s.evrDrop F.EVR_DROP_FULL_COUNT
  else if 64 ≤ s.evr.queue.length then (s.evrDrop F.EVR_DROP_OTHER_COUNT).flag F.EVR_FLT_QUEUE_OVF
  else { s with evr := { s.evr with queue := s.evr.queue ++ [e] } }

/-- An event put among those of one handshake, in order of SOURCE and then CODE (R560). -/
def evrSortIn (e : Accepted) : List Accepted → List Accepted
  | [] => [e]
  | x :: t => if e.source < x.source ∨ (e.source = x.source ∧ e.code < x.code) then e :: x :: t else x :: evrSortIn e t

/-- Bits that rose in one register, joined into one event (R560). -/
def evrJoin (l : List Raised) : List Raised :=
  let add := fun (acc : List Raised) (e : Raised) =>
    match e with
    | .flag a bits =>
      if acc.any (fun x => match x with | .flag b _ => a == b | _ => false) then
        acc.map (fun x => match x with | .flag b bb => if a = b then .flag b (bb ||| bits) else x | x => x)
      else acc ++ [e]
    | e => acc ++ [e]
  l.foldl add []

/-- EVR takes the events raised since it last did, as the events of one handshake (R560). A flag event is taken only with
EVR_CTL.FLAG_EN = 1. -/
def evrAcceptAll (s : State) : State :=
  let wanted := s.evr.raised.filter (fun e => match e with | .flag _ _ => s.on F.EVR_CTL_FLAG_EN | _ => true)
  let events := (evrJoin wanted).foldl (fun acc e => evrSortIn (acceptedOf s e) acc) []
  forEach events evrOffer { s with evr := { s.evr with raised := [] } }

/-- EVENT_ACCEPT (R560). -/
def execEventAccept (s : State) : Host.Outcome State Fault Refusal := .next (evrAcceptAll s)

/-- A write of EVR_FW_CODE (R559, kind 2): UNIT, SEV and CODE from the word, DATA from EVR_FW_DATA0 to EVR_FW_DATA8. -/
def firmwareRecordEff (w : Word) (s : State) : State :=
  let v := w.toNat
  let data := [R.EVR_FW_DATA0, R.EVR_FW_DATA1, R.EVR_FW_DATA2, R.EVR_FW_DATA3, R.EVR_FW_DATA4, R.EVR_FW_DATA5, R.EVR_FW_DATA6,
    R.EVR_FW_DATA7, R.EVR_FW_DATA8].flatMap (fun a => le 4 (s.reg a).toNat)
  evrAcceptAll (s.raiseEvent (.firmware (bitsOf v 13 0) (bitsOf v 15 14) (bitsOf v 31 16) data))

/-- The 64 bytes of a record (R558) in a slot (0xFFFF in the epitaph area) of an epoch. -/
def recordBytes (slot epoch : Nat) (e : Accepted) : List Byte :=
  let body := le 2 slot ++ le 2 epoch ++ le 8 e.time.toNat ++ le 4 e.boot.toNat ++ le 2 e.source ++ le 2 e.code ++ le 1 e.sev ++
    le 1 e.mode ++ le 2 e.unit ++ fit 36 e.data
  body ++ le 4 (crc32c body)

/-- An event that EVR makes itself and writes at once (R563, R565). -/
def systemNow (s : State) (code sev : Nat) (data : List Byte) : Accepted :=
  acceptedOf s (.system code sev 0xFFFF (sourceOf R.EVR_CTL) data)

/-- A record into the next slot of the epitaph area, which keeps the first 32 (R565, R566); `good` is its read-back. -/
def epitaphWrite (e : Accepted) (good : Bool) (s : State) : State :=
  if s.on F.GLB_STICKY_EPITAPH_FAIL || s.on F.GLB_STICKY_EPITAPH_FULL then s.evrDrop F.EVR_DROP_OTHER_COUNT
  else if !good then ((s.sticky F.GLB_STICKY_EPITAPH_FAIL).irq 37).evrDrop F.EVR_DROP_OTHER_COUNT
  else
    let n := s.get F.EVR_STAT_EPI_USED
    let s := { s with evr := { s.evr with epitaphs := smPut (zeros 64) n (recordBytes 0xFFFF (s.get F.EVR_STAT_EPOCH) e) s.evr.epitaphs } }
    let s := s.put F.EVR_STAT_EPI_USED (n + 1)
    let s := s.iff (s.get F.EVR_CFG_IRQ_SEV ≤ e.sev) (fun s => s.irq 37)
    s.iff (n + 1 == 32) (fun s => s.sticky F.GLB_STICKY_EPITAPH_FULL)

/-- A record read back right in log slot EVR_NEXT: the next slot, FULL at 65,536 (R561), the header at a multiple of 64 (R564). -/
def logWritten (e : Accepted) (s : State) : State :=
  let n := s.get F.EVR_NEXT_NEXT
  let s := { s with evr := { s.evr with log := smPut (zeros 64) n (recordBytes n (s.get F.EVR_STAT_EPOCH) e) s.evr.log } }
  let s := s.put F.EVR_NEXT_NEXT (n + 1)
  let s := s.iff (s.get F.EVR_CFG_IRQ_SEV ≤ e.sev) (fun s => s.irq 37)
  let s := s.iff ((n + 1) % 64 == 0) (fun s => { s with evr := { s.evr with headerDue := true } })
  s.iff (n + 1 == 65536) (fun s => ((s.put F.EVR_STAT_FULL 1).flag F.EVR_FLT_FULL_EVT).irq 37)

/-- A record written, with the read-backs of the first write and of the second (R561, R562, R565). -/
def writeRecord (e : Accepted) (first second epi : Bool) (s : State) : State :=
  if s.on F.EVR_STAT_LOG_FAILED then epitaphWrite e epi s
  else if s.on F.EVR_STAT_FULL then s.evrDrop F.EVR_DROP_FULL_COUNT
  else if first || second then logWritten e s
  else
    let n := s.get F.EVR_NEXT_NEXT
    let s := ((s.sticky F.GLB_STICKY_LOG_FAIL).put F.EVR_STAT_LOG_FAILED 1).irq 37
    let s := { s with evr := { s.evr with failedSlot := some n } }
    let s := epitaphWrite (systemNow s 0x4007 3 (le 2 n ++ zeros 2 ++ le 4 n)) epi s
    epitaphWrite e epi s

/-- RECORD_WRITE (R560 to R566): the oldest waiting event is written; while the log is frozen nothing is written. -/
def execRecordWrite (first second epitaph : Bool) (s : State) : Host.Outcome State Fault Refusal :=
  if s.frozen then .next s else
  match s.evr.queue with
  | [] => .next s
  | e :: t => .next (writeRecord e first second epitaph { s with evr := { s.evr with queue := t } })

/-- A hold of the log begins or ends (R562): the first begins the freeze, the last ends it with a THAW event. -/
def freezeSet (f : Fld) (hold : Bool) (s : State) : State :=
  let was := s.frozen
  let s' := s.putB f hold
  if !was && s'.frozen then { s' with evr := { s'.evr with frozenAt := s'.now, frozenDrops := 0 } }
  else if was && !s'.frozen then
    s'.sysEvent 0x4009 1 0xFFFF (sourceOf R.EVR_CTL)
      (le 4 ((s'.now - s'.evr.frozenAt).toNat / 100000) ++ le 4 s'.evr.frozenDrops)
  else s'

/-- FREEZE_TIMEOUT (R562): a hold of FRZ_MAX s is released by EVR. -/
def execFreezeTimeout (hold : FreezeHold) (s : State) : Host.Outcome State Fault Refusal :=
  match hold with
  | .firmware =>
    if s.on F.EVR_STAT_FRZ_FW then
      .next (freezeSet F.EVR_STAT_FRZ_FW false ((s.put F.EVR_CTL_FREEZE 0).flag F.EVR_FLT_THAW_TO))
    else .next s
  | .service =>
    if s.on F.EVR_STAT_FRZ_SVC then .next (freezeSet F.EVR_STAT_FRZ_SVC false (s.flag F.EVR_FLT_THAW_TO)) else .next s

/-- The header written to the copy of lower SEQ (R564, as R536). -/
def headerWrite (s : State) : State :=
  let seq := fun (h : Option RecHeader) => match h with | some r => r.seq + 1 | none => 0
  let top := max (seq s.evr.header0) (seq s.evr.header1)
  let h : RecHeader := ⟨top, s.get F.EVR_STAT_EPOCH, s.get F.EVR_NEXT_NEXT, s.get F.EVR_DROP_FULL_COUNT, s.get F.EVR_DROP_FRZ_COUNT,
    s.get F.EVR_DROP_OTHER_COUNT, s.get F.EVR_STAT_EPI_USED, (s.reg R.GLB_STICKY).toNat⟩
  let e := { s.evr with headerDue := false, dropChanged := false }
  if seq s.evr.header0 ≤ seq s.evr.header1 then { s with evr := { e with header0 := some h } }
  else { s with evr := { e with header1 := some h } }

/-- HEADER_WRITE (R564): at a clear, a sticky change or a multiple of 64, and once a second while a drop count has changed. -/
def execHeaderWrite (second : Bool) (s : State) : Host.Outcome State Fault Refusal :=
  if s.evr.headerDue || (second && s.evr.dropChanged) then
    if s.on F.GLB_STICKY_EPITAPH_FAIL then .next s else .next (headerWrite s)
  else .next s

/-- A record stands in its slot (R564): its CRC holds, its EPOCH is current and its slot number matches. -/
def recordWhole (epoch slot : Nat) (b : List Byte) : Bool :=
  unle (b.take 2) == slot && unle ((b.drop 2).take 2) == epoch && unle ((b.drop 60).take 4) == crc32c (b.take 60)

/-- The slot after the last of the whole records that follow one another from `next` on (R564): EVR's scan of the log. -/
def logScan (epoch : Nat) : SMap (List Byte) → Nat → Nat
  | [], next => next
  | (k, b) :: t, next =>
    if k < next then logScan epoch t next
    else if k = next && recordWhole epoch k b then logScan epoch t (next + 1)
    else next

/-- At a reset EVR reads the header and scans the log forward (R564, R566). `por` says whether the sticky bits are
restored from the copies. -/
def recorderRestore (por : Bool) (scan : RecorderScan) (s : State) : State :=
  let h0 := if scan.good0 then s.evr.header0 else none
  let h1 := if scan.good1 then s.evr.header1 else none
  let best := match h0, h1 with
    | some a, some b => some (if b.seq < a.seq then a else b)
    | some a, none => some a
    | none, b => b
  let s := { s with evr := { s.evr with raised := [], queue := [], headerDue := false, dropChanged := false, frozenAt := 0, frozenDrops := 0 } }
  match best with
  | some h =>
    let next := min 65536 (logScan h.epoch s.evr.log h.next)
    let sticky := if por then BitVec.ofNat 32 (h.sticky % 32) ||| s.reg R.GLB_STICKY else s.reg R.GLB_STICKY
    let s := s.setReg R.GLB_STICKY sticky
    let s := (((s.put F.EVR_STAT_EPOCH h.epoch).put F.EVR_NEXT_NEXT next).put F.EVR_DROP_FULL_COUNT h.dropFull).put F.EVR_DROP_FRZ_COUNT h.dropFrz
    let s := (s.put F.EVR_DROP_OTHER_COUNT h.dropOther).put F.EVR_STAT_EPI_USED h.epiUsed
    (s.putB F.EVR_STAT_FULL (next == 65536)).putB F.EVR_STAT_LOG_FAILED (s.on F.GLB_STICKY_LOG_FAIL)
  | none =>
    let slot0 := smGetD (zeros 64) 0 s.evr.log
    let next := min 65536 (logScan (unle ((slot0.drop 2).take 2)) s.evr.log 0)
    let s := s.flag F.EVR_FLT_HDR_BAD
    let s := if por then s.put F.GLB_STICKY_STICKY_LOST 1 else s
    let s := (((s.put F.EVR_STAT_EPOCH (unle ((slot0.drop 2).take 2))).put F.EVR_NEXT_NEXT next).put F.EVR_DROP_FULL_COUNT 0).put F.EVR_DROP_FRZ_COUNT 0
    let s := (s.put F.EVR_DROP_OTHER_COUNT 0).put F.EVR_STAT_EPI_USED 0
    (s.putB F.EVR_STAT_FULL (next == 65536)).putB F.EVR_STAT_LOG_FAILED (s.on F.GLB_STICKY_LOG_FAIL)

/-- A service-port W1C write of GLB_STICKY, with what hardware sets in the same handshake (R11, R567). Clearing LOG_FAIL
resumes the log at the slot after the failed one (R565); clearing EPITAPH_FULL empties the epitaph area. -/
def stickyClearEff (mask hwSet : Word) (s : State) : State :=
  let old := s.reg R.GLB_STICKY
  let new := (old &&& ~~~(mask &&& ~~~hwSet)) ||| (hwSet &&& 0x1F)
  let s := s.setReg R.GLB_STICKY new
  let gone := fun (f : Fld) => bitsOf old.toNat f.hi f.lo == 1 && bitsOf new.toNat f.hi f.lo == 0
  let s := s.iff (gone F.GLB_STICKY_EPITAPH_FULL) (fun s =>
    { s.put F.EVR_STAT_EPI_USED 0 with evr := { s.evr with epitaphs := [] } })
  let s := s.iff (gone F.GLB_STICKY_LOG_FAIL) (fun s =>
    let s := s.put F.EVR_STAT_LOG_FAILED 0
    match s.evr.failedSlot with
    | some n =>
      let s := (s.put F.EVR_NEXT_NEXT (n + 1)).iff (n + 1 == 65536) (fun s => (s.put F.EVR_STAT_FULL 1).flag F.EVR_FLT_FULL_EVT)
      { s with evr := { s.evr with failedSlot := none } }
    | none => s)
  if old = new then s else { s with evr := { s.evr with headerDue := true } }

/-! ### Cuhar recorder commands (R585) -/

/-- A register's four bytes in a response. -/
def State.regBytes (s : State) (a : Nat) : List Byte := le 4 (s.reg a).toNat

/-- EVR_STATUS (R585). -/
def execEvrStatus (tag : BitVec 16) (s : State) : Host.Outcome State Fault Refusal :=
  .next (s.cuhar 0 0x41 tag (fun s => s.reply 0x41 tag Status.ok ([R.EVR_STAT, R.EVR_NEXT, R.EVR_DROP_FULL, R.EVR_DROP_FRZ,
    R.EVR_DROP_OTHER].flatMap s.regBytes)))

/-- The stored records of `n` slots from `k` on. -/
def logSlots (m : SMap (List Byte)) (k : Nat) : Nat → List Byte
  | 0 => []
  | n + 1 => smGetD (zeros 64) k m ++ logSlots m (k + 1) n

/-- EVR_READ (R585): the records as stored; arguments out of range are answered BAD_ARG. -/
def execEvrRead (tag first count : BitVec 16) (s : State) : Host.Outcome State Fault Refusal :=
  .next (s.cuhar 0 0x42 tag (fun s =>
    if count.toNat = 0 ∨ 64 < count.toNat ∨ 65536 < first.toNat + count.toNat then s.reply 0x42 tag Status.badArg
    else s.reply 0x42 tag Status.ok (logSlots s.evr.log first.toNat count.toNat)))

/-- EVR_FREEZE (R562, R585): 1 holds the log, 0 releases the service port's hold. -/
def execEvrFreeze (tag : BitVec 16) (hold : BitVec 8) (s : State) : Host.Outcome State Fault Refusal :=
  .next (s.cuhar 1 0x43 tag (fun s =>
    if 1 < hold.toNat then s.reply 0x43 tag Status.badArg
    else (freezeSet F.EVR_STAT_FRZ_SVC (hold.toNat == 1) s).reply 0x43 tag Status.ok))

/-- EPITAPH_READ (R585): 32 slots, then the used count. -/
def execEpitaphRead (tag : BitVec 16) (s : State) : Host.Outcome State Fault Refusal :=
  .next (s.cuhar 0 0x44 tag (fun s => s.reply 0x44 tag Status.ok (logSlots s.evr.epitaphs 0 32 ++ le 1 (s.get F.EVR_STAT_EPI_USED))))

/-- The outcome of a long command (R548): CMD, STATUS and DATA written and VALID set in one update. -/
def State.resultPost (s : State) (cmd : BitVec 8) (status : BitVec 16) (data : Word) : State :=
  let s := ((s.put F.SVC_RESULT_STAT_CMD cmd.toNat).put F.SVC_RESULT_STAT_STATUS status.toNat).setReg R.SVC_RESULT_DATA data
  s.put F.SVC_RESULT_STAT_VALID 1

/-- A clear of the log (R563): the epoch, the counts, then LOG_CLEARED into slot 0. -/
def evrClearEff (s : State) : State :=
  let old := s.get F.EVR_STAT_EPOCH
  let data := le 2 old ++ zeros 2 ++ le 4 (s.get F.EVR_NEXT_NEXT) ++ [R.EVR_DROP_FULL, R.EVR_DROP_FRZ, R.EVR_DROP_OTHER].flatMap s.regBytes
  let s := if old = 0xFFFF then { s with evr := { s.evr with log := [] } } else s
  let s := (((s.put F.EVR_STAT_EPOCH (old + 1)).put F.EVR_NEXT_NEXT 0).put F.EVR_DROP_FULL_COUNT 0).put F.EVR_DROP_FRZ_COUNT 0
  let s := (s.put F.EVR_DROP_OTHER_COUNT 0).put F.EVR_STAT_FULL 0
  let s := logWritten (systemNow s 0x4008 0 data) s
  { s with evr := { s.evr with headerDue := true } }

/-- EVR_CLEAR (R563): only while the service port's freeze holds, else STATE. Where EPOCH wraps, every slot is zeroed first
and the clear is answered PENDING, its outcome left under R548. -/
def execEvrClear (tag : BitVec 16) (s : State) : Host.Outcome State Fault Refusal :=
  .next (s.cuhar 1 0x45 tag (fun s =>
    if !s.on F.EVR_STAT_FRZ_SVC then s.reply 0x45 tag Status.state
    else if s.get F.EVR_STAT_EPOCH = 0xFFFF then
      (evrClearEff ((s.put F.SVC_RESULT_STAT_VALID 0).reply 0x45 tag Status.pending)).resultPost 0x45 Status.ok 0
    else (evrClearEff s).reply 0x45 tag Status.ok))

/-- STICKY_CLEAR (R567, R585). -/
def execStickyClear (tag : BitVec 16) (mask hwSet : Word) (s : State) : Host.Outcome State Fault Refusal :=
  .next (s.cuhar 1 0x46 tag (fun s => (stickyClearEff mask hwSet s).reply 0x46 tag Status.ok))

/-! ### The record read port (R587) -/

/-- The word of EVR_RD_DATA: WORD of SLOT of AREA, as stored; a slot above 31 of the epitaph area reads zero. -/
def evrRdWord (s : State) : Word :=
  let slot := s.get F.EVR_RD_SEL_SLOT
  let bytes := if s.on F.EVR_RD_SEL_AREA then (if slot < 32 then smGetD (zeros 64) slot s.evr.epitaphs else zeros 64)
    else smGetD (zeros 64) slot s.evr.log
  BitVec.ofNat 32 (unle ((bytes.drop (4 * s.get F.EVR_RD_SEL_WORD)).take 4))

/-- AUTOINC of EVR_RD_SEL (R587): WORD advances after each read, and SLOT after word 15. -/
def evrRdAdvance (s : State) : State :=
  if !s.on F.EVR_RD_SEL_AUTOINC then s
  else if s.get F.EVR_RD_SEL_WORD = 15 then (s.put F.EVR_RD_SEL_WORD 0).put F.EVR_RD_SEL_SLOT (s.get F.EVR_RD_SEL_SLOT + 1)
  else s.put F.EVR_RD_SEL_WORD (s.get F.EVR_RD_SEL_WORD + 1)

/-- The word of EVR_STD_DATA: summary bytes 4 × WORD to 4 × WORD + 3 (R578, R587). -/
def evrStdWord (s : State) : Word :=
  BitVec.ofNat 32 (unle (((fit 256 s.evr.summary).drop (4 * s.get F.EVR_STD_SEL_WORD)).take 4))

/-- AUTOINC of EVR_STD_SEL (R587). -/
def evrStdAdvance (s : State) : State :=
  if s.on F.EVR_STD_SEL_AUTOINC then s.put F.EVR_STD_SEL_WORD (s.get F.EVR_STD_SEL_WORD + 1) else s

end Sys2Proof.Machine
end

