-- ==== Sys2Proof/Machine/Tally.lean ====
section
/-! DEFINITION. Tally (22_recorder_tally_standings.md, R568 to R575, R585): commits, window closes, firmware entries and the
service-port reads. -/

namespace Sys2Proof.Machine

/-- Every staged delta committed, the entries of `bad` failing both of their writes (R569, R571). Nothing is committed after
POWER_FAIL. -/
def tlyCommitAll (bad : List Nat) (s : State) : State :=
  if s.on F.GLB_MODE_COND_POWER_FAIL then s
  else
    let staged := s.tly.staged
    let s := forEach staged (fun p t => t.tlyUpdate p.1 p.2 (bad.contains p.1)) s
    ({ s with tly := { s.tly with staged := [] } }).put F.TLY_STAT_STAGED 0

/-- TALLY_COMMIT (R571). -/
def execTallyCommit (bad : List Nat) (s : State) : Host.Outcome State Fault Refusal := .next (tlyCommitAll bad s)

/-- WIN as it acts (R588): 0 acts as 1, above 168 as 168. -/
def tlyWin (s : State) : Nat := max 1 (min 168 (s.get F.TLY_CFG_WIN))

/-- Ring-time units in an hour (R572). -/
def hourUnits : Nat := 360000000000

/-- TALLY_WINDOW_CLOSE (R572), once ring time has reached TLY_WIN_END, in its order: commit, counter 2, the per-window counts (SCC_WAY_CE.WINDOW),
source 38, the next close. -/
def execTallyWindowClose (bad : List Nat) (s : State) : Host.Outcome State Fault Refusal :=
  if s.now.toNat < (s.pair R.TLY_WIN_END_LO R.TLY_WIN_END_HI).toNat then .next s else
  let s := tlyCommitAll bad s
  let s := s.tally 2
  let s := { s with ccx := { s.ccx with wayCe := s.ccx.wayCe.map (fun (p : Nat × Nat × Nat) => (p.1, 0, p.2.2)) } }
  let s := s.irq 38
  let w := tlyWin s
  let s := { s with tly := { s.tly with winHours := w } }
  let unit := w * hourUnits
  .next (s.setPair R.TLY_WIN_END_LO R.TLY_WIN_END_HI (BitVec.ofNat 64 ((s.now.toNat / unit + 1) * unit)))

/-- A write of TLY_INC (R575): a firmware counter 256 to 1,023, DELTA 0 acting as 1; a hardware entry is refused. -/
def tallyIncEff (w : Word) (s : State) : State :=
  let i := bitsOf w.toNat 25 16
  let d := bitsOf w.toNat 15 0
  if i < 256 then s.flag F.TLY_FLT_FW_REJ else s.tally i (max 1 d)

/-- A write of TLY_HIST (R575): a firmware histogram 32 to 127. -/
def tallyHistEff (w : Word) (s : State) : State :=
  let h := bitsOf w.toNat 22 16
  if h < 32 then s.flag F.TLY_FLT_FW_REJ else s.histo h (bitsOf w.toNat 4 0)

/-- TALLY_TEMPERATURE_SAMPLE (R574): histogram 12, bin max(0, ⌊TJ ÷ 4⌋) up to 31, while the chip is not OFF. -/
def execTallyTemperatureSample (s : State) : Host.Outcome State Fault Refusal :=
  if s.mode = Mode.off then .next s
  else .next (s.histo 12 (signed 8 (s.get F.PWR_TEMP_TJ) / 4).toNat)

/-- The value of an entry as read: validity, current slot plus staged delta, whether a staged part is included, SEQ (R570, R571). -/
def tlyRead (s : State) (e : Nat) : Bool × Dword × Bool × BitVec 32 :=
  let d := smGetD 0 e s.tly.staged
  if 5120 ≤ e then (false, 0, false, 0) else
  match tlyCurrent s.tly e with
  | some (_, c) => (true, c.value + BitVec.ofNat 64 d, d != 0, c.seq)
  | none => (false, BitVec.ofNat 64 d, d != 0, 0)

/-- A read of TLY_RD_LO (R571, R588): the value's low half, with the high half and TLY_RD_STAT latched. -/
def tlyReadLo (s : State) : Word × State :=
  let (valid, v, pend, seq) := tlyRead s (s.get F.TLY_RD_SEL_ENTRY)
  let s := s.setPair R.TLY_RD_LO R.TLY_RD_HI v
  let s := ((s.putB F.TLY_RD_STAT_VALID valid).putB F.TLY_RD_STAT_PEND pend).put F.TLY_RD_STAT_SEQ seq.toNat
  (v.extractLsb' 0 32, s)

/-- Validity bits of `n` entries from `e` on, the first at the least significant bit. -/
def tlyValidity (s : State) (e : Nat) : Nat → Nat
  | 0 => 0
  | n + 1 => b2n (tlyRead s e).1 + 2 * tlyValidity s (e + 1) n

/-- The 8-byte values of `n` entries from `e` on. -/
def tlyValues (s : State) (e : Nat) : Nat → List Byte
  | 0 => []
  | n + 1 => le 8 (tlyRead s e).2.1.toNat ++ tlyValues s (e + 1) n

/-- TALLY_READ (R585): a 32-byte validity bitmap, then 8 bytes an entry. -/
def execTallyRead (tag first count : BitVec 16) (s : State) : Host.Outcome State Fault Refusal :=
  .next (s.cuhar 0 0x48 tag (fun s =>
    if count.toNat = 0 ∨ 256 < count.toNat ∨ 5120 < first.toNat + count.toNat then s.reply 0x48 tag Status.badArg
    else s.reply 0x48 tag Status.ok (le 32 (tlyValidity s first.toNat count.toNat) ++ tlyValues s first.toNat count.toNat)))

/-- HIST_READ (R585): a 4-byte validity mask, then 32 values. -/
def execHistRead (tag : BitVec 16) (hist : BitVec 8) (s : State) : Host.Outcome State Fault Refusal :=
  .next (s.cuhar 0 0x49 tag (fun s =>
    if 128 ≤ hist.toNat then s.reply 0x49 tag Status.badArg
    else
      let e := 1024 + 32 * hist.toNat
      s.reply 0x49 tag Status.ok (le 4 (tlyValidity s e 32) ++ tlyValues s e 32)))

/-- TALLY_INFO (R585): TLY_CFG, TLY_WIN_END, counter 2, TLY_CNT. -/
def execTallyInfo (tag : BitVec 16) (s : State) : Host.Outcome State Fault Refusal :=
  .next (s.cuhar 0 0x4A tag (fun s => s.reply 0x4A tag Status.ok (s.regBytes R.TLY_CFG ++ s.regBytes R.TLY_WIN_END_LO ++
    s.regBytes R.TLY_WIN_END_HI ++ le 8 (tlyRead s 2).2.1.toNat ++ s.regBytes R.TLY_CNT)))

end Sys2Proof.Machine
end

