-- ==== Sys2Proof/Machine/Mocel.lean ====
section
/-! DEFINITION. The Mocel ring node (22_recorder_tally_standings.md, R579 to R585): frames sent, forwarded, removed and
delivered; ring time; node IDs. -/

namespace Sys2Proof.Machine

def State.onMoc (s : State) (f : Moc → Moc) : State := { s with moc := f s.moc }

/-- The node's ID (R582). -/
def mocNode (s : State) : Nat := s.get F.MOC_STAT_NODE

/-- MOC_CFG.PERIOD as it acts, in ring-time units (R589: below 100 µs acts as 100 µs). -/
def mocPeriod (s : State) : Nat := max 100 (s.get F.MOC_CFG_PERIOD) * 100

/-- The frame as forwarded: HOPS one higher and the CRC over the new header (R579, R581). -/
def mocForwarded (f : MocFrame) : MocFrame :=
  mocBuild (mocType f) (mocDst f) (mocSrc f) (mocHops f + 1) (mocBcast f) (mocArg f) f.payload

/-- FRAME_FORWARD (R581, R584): a frame arriving at the in port is forwarded with HOPS one higher, or removed: its CRC fails,
SRC is this node, it is addressed to this node, HOPS would pass 8,191, or a master receives TIME from a higher SRC. -/
def execFrameForward (frame : MocFrame) (s : State) : Host.Outcome State Fault Refusal :=
  let s := (s.put F.MOC_STAT_IN_ACTIVE 1).onMoc (fun m => { m with inTicks := 1000 })
  if !mocCrcOk frame then .next ((s.count F.MOC_CNT_CRC_ERR).flag F.MOC_FLT_CRC)
  else if mocSrc frame = mocNode s then .next s
  else if !mocBcast frame && mocDst frame == mocNode s then .next s
  else if mocHops frame = 8191 then .next (s.flag F.MOC_FLT_HOP_LIMIT)
  else if mocType frame = 1 ∧ s.on F.MOC_CTL_MASTER ∧ mocNode s < mocSrc frame then .next s
  else .next (s.emit (.mocel (mocForwarded frame)))

/-- ENUM (R580, R582): with AUTO_ID = 1 the node takes ID HOPS + 1, the master keeping 0. -/
def execEnumFrame (frame : MocFrame) (s : State) : Host.Outcome State Fault Refusal :=
  if mocCrcOk frame && s.on F.MOC_CTL_ENABLE && s.on F.MOC_CTL_AUTO_ID && !s.on F.MOC_CTL_MASTER then
    .next (s.put F.MOC_STAT_NODE (mocHops frame + 1))
  else .next s

/-- MSG (R581, R30): a MSG for this node, or broadcast, goes to the receive FIFO as its header and payload entries, or is
dropped with MOC_RX_OVF where the 64 entries have no room. -/
def execMsg (frame : MocFrame) (s : State) : Host.Outcome State Fault Refusal :=
  if mocCrcOk frame && s.on F.MOC_CTL_ENABLE && (mocBcast frame || mocDst frame == mocNode s) && mocSrc frame != mocNode s then
    if s.moc.rx.length + 1 + frame.payload.length ≤ 64 then
      .next (({ s with moc := { s.moc with rx := s.moc.rx ++ frame.hdr :: frame.payload } }).iff s.moc.rx.isEmpty (fun s => s.irq 40))
    else .next (s.flag F.GLB_FIFO_OVF_MOC_RX_OVF)
  else .next s

/-- Ring time corrected towards `correct` (R583): slewed up to 100 units, else stepped. -/
def mocCorrect (correct : Nat) (s : State) : State :=
  let err : Int := (correct % 2 ^ 64 : Nat) - (s.now.toNat : Int)
  if err.natAbs ≤ 100 then { s with moc := { s.moc with slew := err } }
  else
    let before := s.now
    let s := (s.setNow (BitVec.ofNat 64 correct)).flag F.MOC_FLT_STEP
    let s := { s with moc := { s.moc with slew := 0 } }
    (s.count F.MOC_CNT_STEPS).sysEvent 0x400B 1 0xFFFF (sourceOf R.MOC_CTL) (le 8 before.toNat ++ le 8 s.now.toNat)

/-- The sources of TIME still within the last 4 periods (R584). -/
def mocSeenNow (s : State) : SMap Dword :=
  s.moc.seen.filter (fun p => s.now.toNat ≤ p.2.toNat + 4 * mocPeriod s)

/-- TIME (R583, R584): a returned frame gives the master L and N; a lower SRC stops a master, which keeps its own time; any other node corrects its
ring time from the lowest SRC seen in the last 4 periods. -/
def execTime (frame : MocFrame) (s : State) : Host.Outcome State Fault Refusal :=
  if !mocCrcOk frame || !s.on F.MOC_CTL_ENABLE then .next s else
  let src := mocSrc frame
  if src = mocNode s ∧ s.on F.MOC_CTL_MASTER then
    match s.moc.sentAt with
    | some t => .next ((s.put F.MOC_LOOP_L (s.now - t).toNat).put F.MOC_MASTER_N (mocHops frame + 1))
    | none => .next s
  else
    let seen := smSet src s.now (mocSeenNow s)
    let s := { s with moc := { s.moc with seen := seen } }
    if s.on F.MOC_CTL_MASTER then .next (if src < mocNode s then (s.put F.MOC_STAT_MASTER_ACT 0).flag F.MOC_FLT_MULTI else s)
    else
      match seen with
      | [] => .next s
      | (low, _) :: _ =>
        if src ≠ low then .next s
        else
          let p := (frame.payload.headD 0).toNat
          let l := bitsOf p 31 0
          let n := bitsOf p 44 32
          let s := ((s.put F.MOC_LOOP_L l).put F.MOC_MASTER_N n).put F.MOC_MASTER_ID src
          let s := s.put F.MOC_STAT_SYNC 1
          if l = 0 then .next (mocCorrect (mocArg frame) s)
          else if n = 0 then
            let (v, s) := s.free 64
            .next (mocCorrect v.toNat s)
          else .next (mocCorrect (mocArg frame + (mocHops frame + 1) * l / n) s)

/-- TIME_SEND (R580, R583, R584): the master sends TIME with its ring time, L and N, unless a lower SRC was seen in the last
4 periods. -/
def execTimeSend (s : State) : Host.Outcome State Fault Refusal :=
  let lower := (mocSeenNow s).any (fun p => p.1 < mocNode s)
  if s.on F.MOC_CTL_ENABLE && s.on F.MOC_CTL_MASTER && !lower then
    let s := s.put F.MOC_STAT_MASTER_ACT 1
    let s := { s with moc := { s.moc with sentAt := some s.now } }
    let e := BitVec.ofNat 128 (s.get F.MOC_LOOP_L + s.get F.MOC_MASTER_N * 2 ^ 32)
    .next (s.emit (.mocel (mocBuild 1 0 (mocNode s) 0 true s.now.toNat [e])))
  else .next s

/-- A write of MOC_CMD (R580, R589): ENUM is sent by the master only. -/
def enumCommandEff (w : Word) (s : State) : State :=
  if w.getLsbD 0 && s.on F.MOC_CTL_MASTER && s.on F.MOC_CTL_ENABLE then s.emit (.mocel (mocBuild 2 0 (mocNode s) 0 true 0 [])) else s

/-- Four words as one entry, bits [31:0] first (R589). -/
def mocEntry : List Word → BitVec 128
  | [a, b, c, d] => d ++ c ++ b ++ a
  | _ => 0

/-- The entries that a list of words spells, four words each. -/
def mocEntries : List Word → List (BitVec 128)
  | a :: b :: c :: d :: t => mocEntry [a, b, c, d] :: mocEntries t
  | _ => []

/-- MSG_SEND (R589): once the header and LEN payload entries are complete the frame is sent, MOC supplying SRC, HOPS and CRC. -/
def execMsgSend (s : State) : Host.Outcome State Fault Refusal :=
  if !s.on F.MOC_CTL_ENABLE then .next s else
  let words := s.moc.tx
  if words.length < 4 then .next s
  else
    let h : MocFrame := ⟨mocEntry (words.take 4), []⟩
    let need := 4 + 4 * mocLen h
    if words.length < need then .next s
    else
      let f := mocBuild (mocType h) (mocDst h) (mocNode s) 0 (mocBcast h) (mocArg h) (mocEntries ((words.take need).drop 4))
      .next (({ s with moc := { s.moc with tx := words.drop need } }).emit (.mocel f))

/-- SYNC_LOSS (R583): 4 periods without TIME clear SYNC, and ring time runs free. -/
def execSyncLoss (s : State) : Host.Outcome State Fault Refusal :=
  if s.on F.MOC_STAT_SYNC then
    .next ({ (s.put F.MOC_STAT_SYNC 0).flag F.MOC_FLT_SYNC_LOST with moc := { s.moc with slew := 0 } })
  else .next s

/-- RING_STATUS (R585): MOC_STAT, ring time, MOC_LOOP, MOC_MASTER. -/
def execRingStatus (tag : BitVec 16) (s : State) : Host.Outcome State Fault Refusal :=
  .next (s.cuhar 0 0x50 tag (fun s => s.reply 0x50 tag Status.ok (s.regBytes R.MOC_STAT ++ le 8 s.now.toNat ++ s.regBytes R.MOC_LOOP ++
    s.regBytes R.MOC_MASTER)))

/-- The next received word of MOC_RX_DATA, zero when empty (R589), entries in the order received, bits [31:0] first. -/
def mocPop (s : State) : Word × State :=
  match s.moc.rx with
  | [] => (0, s)
  | e :: t =>
    let w := e.extractLsb' (32 * s.moc.rxWord) 32
    if s.moc.rxWord = 3 then (w, { s with moc := { s.moc with rx := t, rxWord := 0 } })
    else (w, { s with moc := { s.moc with rxWord := s.moc.rxWord + 1 } })

/-- IN_ACTIVE lasts 10 µs from the last entry (R589). -/
def inputTick (s : State) : State :=
  if s.moc.inTicks = 1 then (s.onMoc (fun m => { m with inTicks := 0 })).put F.MOC_STAT_IN_ACTIVE 0
  else s.onMoc (fun m => { m with inTicks := m.inTicks - 1 })

/-- A crystal tick of ring time (R583): one unit, or 0 or 2 in place of 1 at one tick in 16 while slewing. Frames on the motion link
move on by the same 10 ns (R173). -/
def ringTick (s : State) : State :=
  let s := inputTick s
  let m := (s.moc.tickMod + 1) % 16
  let s := { s with moc := { s.moc with tickMod := m } }
  let s := { s with mot := { s.mot with ahead := s.mot.ahead - 5 } }
  if m = 0 ∧ 0 < s.moc.slew then { s.setNow (s.now + 2) with moc := { s.moc with slew := s.moc.slew - 1 } }
  else if m = 0 ∧ s.moc.slew < 0 then { s with moc := { s.moc with slew := s.moc.slew + 1 } }
  else s.setNow (s.now + 1)

end Sys2Proof.Machine
end

