-- ==== Sys2Proof/Machine/Lane.lean ====
section
/-! DEFINITION. Shared operations of the lanes: preamp frames and their checks (R68 to R79), zone tables (R96, R97, R218),
zone formats of the image (R84, R639), sector tags (R101), the LDPC code (R103, R104), track parity (R117, R119), write
inhibit (R146), and interrupts and events of a lane's sequencer (R237, R240). -/

namespace Sys2Proof.Machine

/-- A vector with one element replaced. -/
def setV {α : Type} {k : Nat} (v : Vector α k) (i : Fin k) (x : α) : Vector α k := v.set i.val x i.isLt

def State.ln (s : State) (n : Lane) : Ln := s.lns.get n
def State.setLn (s : State) (n : Lane) (l : Ln) : State := { s with lns := setV s.lns n l }
def State.onLn (s : State) (n : Lane) (f : Ln → Ln) : State := s.setLn n (f (s.ln n))
def State.ms (s : State) (n : Lane) : Ms := s.mss.get n
def State.setMs (s : State) (n : Lane) (m : Ms) : State := { s with mss := setV s.mss n m }
def State.onMs (s : State) (n : Lane) (f : Ms → Ms) : State := s.setMs n (f (s.ms n))
def State.sv (s : State) (n : Lane) : Sv := s.svs.get n
def State.setSv (s : State) (n : Lane) (v : Sv) : State := { s with svs := setV s.svs n v }
def State.onSv (s : State) (n : Lane) (f : Sv → Sv) : State := s.setSv n (f (s.sv n))
/-- The items dispatched on an actuator: those in service and those chosen behind them (R307). -/
def Act.items (t : Act) : List Item := t.busy ++ (match t.ahead with | some x => x.items | none => [])

/-- The items dispatched on an actuator changed one by one. -/
def Act.mapItems (f : Item → Item) (t : Act) : Act :=
  { t with busy := t.busy.map f, ahead := t.ahead.map (fun x => { x with items := x.items.map f }) }

/-- What the Relay scheduler keeps of an actuator, by the actuator's number. -/
def State.act (s : State) (a : Lane) : Act := s.rly.acts.get a
def State.onAct (s : State) (a : Lane) (f : Act → Act) : State := { s with rly := { s.rly with acts := setV s.rly.acts a (f (s.act a)) } }

/-- The lane is present and not lost (R41). -/
def lanePresent (s : State) (n : Lane) : Bool := s.get ((F.GLB_UNIT_OK0_LANE).bit n) = 1

/-- The modes in which HLn_PCK runs (R67). -/
def linkMode (m : Nat) : Bool :=
  m == Mode.spinup || m == Mode.active || m == Mode.idleReady || m == Mode.idleSlow || m == Mode.idleParked || m == Mode.degraded ||
  m == Mode.readonly

/-- HLn_PCK runs (R67). -/
def pckRuns (s : State) (n : Lane) : Bool := linkMode s.mode && lanePresent s n

/-- The cadence in force, 0 to 3 for 3,600 to 7,200 rpm (R215). -/
def cadence (s : State) : Nat := s.get F.SPM_STAT_CAD

/-! ### The image's zones (R639) -/

/-- The first section of the image that a selector accepts. -/
def findSection {α : Type} (img : Option Image) (f : DirEntry → Option α) : Option α :=
  match img with
  | none => none
  | some i => i.dir.findSome? f

/-- The ZONES instance of a cadence. -/
def zonesOf (s : State) (c : Nat) : Option ZonesSec :=
  findSection s.cfg.image (fun d => match d.body with | .zones z => if d.inst = c then some z else none | _ => none)

/-- The format of a zone, from the 3,600 rpm instance (R84). -/
def zoneFmt (s : State) (z : Nat) : Option ZoneFmt := (zonesOf s 0).bind (fun zs => zs.fmts[z]?)

/-- The lane record of a lane (R637). -/
def laneRec (s : State) (n : Nat) : Option LaneRec :=
  (findSection s.cfg.image (fun d => match d.body with | .lanes l => some l | _ => none)).bind (fun l => l[n]?)

/-- The loaded image includes the lane (R41, R637). -/
def laneIncluded (s : State) (n : Nat) : Bool := match laneRec s n with | some r => r.present | none => false

/-- The actuator that a lane drives (R20): lane Ln drives An unless the loaded image maps it otherwise. -/
def actOf (s : State) (n : Lane) : Lane :=
  match laneRec s n with
  | some r => if h : r.present = true ∧ r.actuator < 4 then ⟨r.actuator, h.2⟩ else n
  | none => n

/-- The number of a lane's actuator. -/
def actNo (s : State) (n : Nat) : Nat := if h : n < 4 then (actOf s ⟨n, h⟩).val else n

/-- The lane that the loaded image gives an actuator (R20). -/
def laneFor (s : State) (a : Nat) : Option Lane := lanes.find? (fun n => laneIncluded s n && (actOf s n).val == a)

/-- The lane of an actuator; its own number where no present lane drives it. -/
def laneOf (s : State) (a : Lane) : Lane := (laneFor s a).getD a

/-- The number of an actuator's lane. -/
def laneNo (s : State) (a : Nat) : Nat := match laneFor s a with | some n => n.val | none => a

/-- A present lane drives the actuator (R20). -/
def actIncluded (s : State) (a : Nat) : Bool := (laneFor s a).isSome

/-- Heads declared for the lane. -/
def headsOf (s : State) (n : Nat) : Nat := match laneRec s n with | some r => r.heads | none => 0

/-- The zone of a track on a head of a lane (R639, the first track of each zone). -/
def zoneOfTrack (s : State) (n head track : Nat) : Nat :=
  match (zonesOf s 0).bind (fun zs => zs.bounds.find? (fun b => b.1 = 8 * n + head)) with
  | some (_, firsts, _) => (firsts.filter (fun f => f ≤ track)).length - 1
  | none => 0

/-- The last track of a head of a lane (R639). -/
def lastTrack (s : State) (n head : Nat) : Nat :=
  match (zonesOf s 0).bind (fun zs => zs.bounds.find? (fun b => b.1 = 8 * n + head)) with
  | some (_, _, l) => l
  | none => 0

/-- Multiplier M of the synthesiser: round(BPW × 12 × c × 2²² ÷ 25,000,000) (R85); `c` the cadence code. -/
def baudM (bpw c : Nat) : Nat := (bpw * 12 * (3600 + 1200 * c) * 2 ^ 22 + 12500000) / 25000000

/-! ### The image's bands (R642, R250) -/

/-- The BANDS section. -/
def bandsSec (s : State) : Option BandsSec := findSection s.cfg.image (fun d => match d.body with | .bands b => some b | _ => none)

/-- The runs of the BANDS section. -/
def bandRuns (s : State) : List BandRun := match bandsSec s with | some b => b.runs | none => []

/-- The run of a physical band. -/
def runOf (s : State) (b : Nat) : Option BandRun :=
  (bandRuns s).find? (fun r => decide (r.firstBand ≤ b) && decide (b < r.firstBand + r.bands))

/-- A band of a conventional area, which carries no track parity (R250). -/
def conventional (s : State) (b : Nat) : Bool := match runOf s b with | some r => decide (2 ≤ r.kind) | none => false

/-- A shingled band (R143, R248). -/
def shingled (s : State) (b : Nat) : Bool := match runOf s b with | some r => decide (r.kind < 2) | none => false

/-! ### Preamp frames (R68, R69) -/

/-- A bit into a CRC-8 of polynomial 0x07, most significant bit first. -/
def crc8Bit (c : Nat) (b : Bool) : Nat :=
  let top := (c / 128 % 2 = 1) != b
  let c' := c * 2 % 256
  if top then c' ^^^ 0x07 else c'

/-- The CRC-8 of the `n` bits of `v`, the highest first. -/
def crc8Bits (c v : Nat) : Nat → Nat
  | 0 => c
  | n + 1 => crc8Bits (crc8Bit c (v / 2 ^ n % 2 = 1)) v n

/-- Even parity bit of a number of `n` bits: 1 where an odd number of ones stands in it. -/
def parityBit (v : Nat) : Nat → Nat
  | 0 => 0
  | n + 1 => (v / 2 ^ n % 2 + parityBit v n) % 2

/-- The 7 bits of a gate frame before P. -/
def gateHeader (f : PbFrame) : Nat := f.mode.toNat * 8 + f.head.toNat

/-- The 12 header bits of a read frame: KIND 0b01, 0, HEAD, ADDR. -/
def readHeader (f : PbFrame) : Nat := 1 * 2 ^ 10 + f.head.toNat * 2 ^ 6 + f.addr.toNat

/-- The 28 bits of a write frame before CHECK: KIND 0b10, BC, HEAD, ADDR, DATA. -/
def writeHeader (f : PbFrame) : Nat :=
  2 * 2 ^ 26 + b2n f.bc * 2 ^ 25 + f.head.toNat * 2 ^ 22 + f.addr.toNat * 2 ^ 16 + f.data.toNat

/-- The bits that the RH4480 drives in a frame, and how many (R68). -/
def frameBits (f : PbFrame) : Nat × Nat :=
  match f.kind with
  | .gate => (8, gateHeader f * 2 + parityBit (gateHeader f) 7)
  | .read => (12, readHeader f)
  | .write => (36, writeHeader f * 256 + crc8Bits 0xFF (writeHeader f) 28)

/-- Length of a frame on the bus in HLn_PCK cycles, including the gap (R68). -/
def frameLength (f : PbFrame) : Nat :=
  match f.kind with
  | .gate => 10
  | .read => 40
  | .write => 38

/-- The CHECK that the preamp sends with the data of a read frame (R69). -/
def readCheck (f : PbFrame) (data : BitVec 16) : Nat := crc8Bits (crc8Bits 0xFF (readHeader f) 12) data.toNat 16

/-- A gate frame of MSn (R75, R234). -/
def gateFrameOf (mode : BitVec 2) (head : BitVec 3) (start : Nat) (asap : Bool) : PbFrame :=
  ⟨.gate, .gate, mode, false, head, 0, 0, start, none, false, false, false, asap, []⟩

/-- A setting frame of MSn. -/
def settingFrameOf (head : BitVec 3) (addr : BitVec 6) (data : BitVec 16) : PbFrame :=
  ⟨.setting, .write, 0, false, head, addr, data, 0, none, false, false, false, false, []⟩

/-- A register read of MSn, whose data lands in W8. -/
def msReadOf (head : BitVec 3) (addr : BitVec 6) : PbFrame :=
  ⟨.setting, .read, 0, false, head, addr, 0, 0, none, false, true, false, false, []⟩

/-- The head is enabled: its LNn_HEAD_EN bit, or a clear of it still waits for its gate to close (R77). -/
def headEnabled (s : State) (n : Lane) (h : Nat) : Bool :=
  s.get ((F.LNn_HEAD_EN_EN n).bit h) = 1 || (s.ln n).enHeld.getLsbD h

/-- The value a write frame carries: HEAT clamped to the ceiling (R93), bit 15 of ASSIST taken from the head's type (R134). -/
def frameData (s : State) (n : Lane) (f : PbFrame) : BitVec 16 :=
  if f.addr = 0x08 then
    let level := min (f.data.toNat % 1024) (s.get (F.LNn_HTR_MAX_MAX n))
    BitVec.ofNat 16 (f.data.toNat / 1024 * 1024 + level)
  else if f.addr = 0x04 then
    BitVec.ofNat 16 (f.data.toNat % 2 ^ 15 + 2 ^ 15 * s.get ((F.LNn_ASSIST_TYPE_TYPE n).bit f.head.toNat))
  else f.data

/-! ### Zone tables (R96, R97, R153, R218) -/

/-- The key of a table entry. Tables 0, 2 and 3 of R96 have a copy for each cadence (R218); every other table one. -/
def tableKey (c tbl head zone index : Nat) : Nat :=
  let c := if tbl = 0 ∨ tbl = 2 ∨ tbl = 3 then c else 0
  let zone := if tbl = 6 then 0 else zone
  (((c * 8 + tbl) * 8 + head) * 32 + zone) * 256 + index

/-- The bits that a table's entries hold; the others read 0 (R14). -/
def tableMask (tbl index : Nat) : Word :=
  match tbl with
  | 0 => 0x03FF03FF
  | 1 => 0x003F00FF
  | 2 => 0x0000FFFF
  | 3 => 0x000003FF
  | 4 => if index = 0 then 0x03FFFFFF else 0x000003FF
  | 5 => 0x0003FFFF
  | 6 => 0x00000FFF
  | 7 => 0x0003FFFF
  | _ => 0

/-- Number of entries of a table (R96, R153). -/
def tableLen (tbl : Nat) : Nat :=
  match tbl with
  | 0 => 1
  | 1 => 3
  | 2 => 1
  | 3 => 192
  | 4 => 2
  | 5 => 1
  | 6 => 32
  | 7 => 1
  | _ => 0

/-- An entry of a table of the lane. -/
def tableGet (s : State) (n : Lane) (tbl head zone index : Nat) : Word :=
  if index < tableLen tbl then smGetD 0 (tableKey (cadence s) tbl head zone index) (s.ln n).tables else 0

/-- An entry of the lane's tables set by its key. -/
def putEntry (n : Lane) (key : Nat) (w : Word) (s : State) : State := s.onLn n (fun l => { l with tables := smPut 0 key w l.tables })

/-- An entry set in the copy of the cadence in force. -/
def tablePut (n : Lane) (tbl head zone index : Nat) (w : Word) (s : State) : State :=
  if index < tableLen tbl then putEntry n (tableKey (cadence s) tbl head zone index) (w &&& tableMask tbl index) s else s

/-! ### Sector tags (R101) -/

/-- Tag bytes 0 to 27 of a sector (R101); `parity` 0 data, 1 P, 2 Q. -/
def tagHead (n : Nat) (d : Sector) (parity : Nat) : List Byte :=
  le 8 d.lba ++ le 6 d.seq ++ le 4 d.band ++ le 1 (n + d.head.toNat * 4) ++
  le 1 (b2n (parity != 0) + b2n (parity == 2) * 2 + d.meta_ * 4) ++ le 2 d.gpos ++ zeros 6

/-- Metadata bytes by META. -/
def metaLen (m : Nat) : Nat := if m = 1 then 8 else if m = 2 then 64 else 0

/-- The information part: data and metadata, then the tag with its CRC-32C (R101, R102, R128). -/
def infoPart (n : Nat) (d : Sector) (parity : Nat) (data : List Byte) : List Byte :=
  let body := fit (4096 + metaLen d.meta_) data
  let head := tagHead n d parity
  body ++ head ++ le 4 (crc32c (body ++ head))

/-- The tag of an information part as decoded: its CRC matches, and its LBA and SEQ (R108). -/
def infoTag (info : List Byte) : Bool × Nat × Nat :=
  let head := info.take (info.length - 4)
  let tag := info.drop (info.length - 32)
  (32 ≤ info.length && unle (info.drop (info.length - 4)) == crc32c head, unle (tag.take 8), unle ((tag.drop 8).take 6))

/-! ### The LDPC code (R103, R104) -/

/-- Block columns C of a rate class (R103). -/
def ldpcColumns (cls : Nat) : Nat := 564 + 12 * cls

/-- The 64-bit information blocks of an information part, byte 8j + i in bits 8i to 8i + 7 of block j (R102). -/
def infoBlocks : List Byte → List Dword
  | a :: b :: c :: d :: e :: f :: g :: h :: t => (h ++ g ++ f ++ e ++ d ++ c ++ b ++ a) :: infoBlocks t
  | _ => []

/-- The circulant P^s on a block: bit t of the product is bit (t + s) mod 64 (R104). -/
def circulant (s : Nat) (x : Dword) : Dword := x.rotateRight (s % 64)

/-- u_r: the sum of the information circulant products in block row r (R104). -/
def ldpcRow (rows r : Nat) : Nat → List Dword → Dword
  | _, [] => 0
  | j, x :: t =>
    let term := fun k => if (j + k * (rows / 4)) % rows = r then circulant ((7 * j + 19 * k * (j % 11) + 3 * k) % 64) x else 0
    term 0 ^^^ term 1 ^^^ term 2 ^^^ term 3 ^^^ ldpcRow rows r (j + 1) t

/-- The parity blocks from block row r on: p_r = u_r + p_{r−1} (R104). -/
def ldpcParityFrom (rows : Nat) (info : List Dword) (r : Nat) (prev : Dword) : Nat → List Dword
  | 0 => []
  | n + 1 =>
    let p := ldpcRow rows r 0 info ^^^ prev
    p :: ldpcParityFrom rows info (r + 1) p n

/-- The parity blocks of an information part in a rate class (R102 to R104). -/
def ldpcParity (cls : Nat) (info : List Byte) : List Dword :=
  let blocks := infoBlocks info
  let rows := ldpcColumns cls - blocks.length
  ldpcParityFrom rows blocks 0 0 rows

/-! ### Track parity (R117 to R120) -/

/-- Product by α = x in GF(2¹⁶) of x¹⁶ + x¹² + x³ + x + 1 (R117). -/
def gfX (v : Nat) : Nat := if v / 2 ^ 15 % 2 = 1 then (v * 2 % 2 ^ 16) ^^^ 0x100B else v * 2

/-- Product in GF(2¹⁶): the low `n` bits of `b` times `a`. -/
def gfMulN (a b : Nat) : Nat → Nat
  | 0 => 0
  | n + 1 => (if b % 2 = 1 then a else 0) ^^^ gfMulN (gfX a) (b / 2) n

/-- Product in GF(2¹⁶). -/
def gfMul (a b : Nat) : Nat := gfMulN a b 16

/-- α^i (R117). -/
def gfPow : Nat → Nat
  | 0 => 1
  | i + 1 => gfX (gfPow i)

/-- The inverse in GF(2¹⁶), v^(2¹⁶ − 2), by 15 squarings. -/
def gfInv (v : Nat) : Nat :=
  ((List.range 15).foldl (fun (acc : Nat × Nat) _ => let q := gfMul acc.2 acc.2; (gfMul acc.1 q, q)) (1, v)).1

/-- The 16-bit symbols of data and metadata bytes (R117). -/
def symbols : List Byte → List Nat
  | a :: b :: t => (a.toNat + 256 * b.toNat) :: symbols t
  | _ => []

/-- The bytes of 16-bit symbols. -/
def unsymbols (l : List Nat) : List Byte := l.flatMap (fun v => le 2 v)

/-- Sum of two symbol lists, the shorter padded with zeros. -/
def xorSyms : List Nat → List Nat → List Nat
  | [], b => b
  | a, [] => a
  | a :: s, b :: t => (a ^^^ b) :: xorSyms s t

/-- A data sector added to a group's accumulators (R117): P += D, Q += α^i · D. -/
def ParityGroup.addData (g : ParityGroup) (i : Nat) (data : List Byte) : ParityGroup :=
  let d := symbols data
  let a := gfPow i
  { g with p := xorSyms g.p d, q := xorSyms g.q (d.map (gfMul a)) }

/-- R119: the data of one or two failed data sectors from P′ and Q′ (the sums over the surviving sectors with the parity sectors
that were read), `x < y` the failed positions, and whether P and Q were read. -/
def recoverData (p' q' : List Nat) (pOk qOk : Bool) : List Nat → Option (List (Nat × List Nat))
  | [] => some []
  | [x] =>
    if pOk then some [(x, p')]
    else if qOk then let c := gfInv (gfPow x); some [(x, q'.map (gfMul c))]
    else none
  | [x, y] =>
    if pOk && qOk then
      let c := gfInv (gfPow x ^^^ gfPow y)
      let dy := (xorSyms q' (p'.map (gfMul (gfPow x)))).map (gfMul c)
      some [(x, xorSyms p' dy), (y, dy)]
    else none
  | _ => none

/-- The group of a position on a track (R639): first position, data sectors, parity sectors. The last group is shorter. -/
def groupOf (f : ZoneFmt) (pos : Nat) : Nat × Nat × Nat :=
  let whole := f.g + f.p
  let first := pos / whole * whole
  let m := min whole (f.spt - first)
  (first, m - f.p, f.p)

/-- The zone format of a sector. -/
def sectorFmt (s : State) (d : Sector) : Option ZoneFmt := zoneFmt s d.zone

/-- The group a sector lies in: first position, data sectors, parity sectors; none in a zone without track parity, and none in a conventional
area, whatever the ZONES section holds (R250). -/
def sectorGroup (s : State) (d : Sector) : Option (Nat × Nat × Nat) :=
  if conventional s d.band then none else (sectorFmt s d).bind (fun f => if f.p = 0 then none else some (groupOf f d.index))

/-- A position of a group: data sector, P or Q (R129). -/
def parityKind (s : State) (d : Sector) : Nat :=
  match sectorGroup s d with
  | some (first, m, _) => let i := d.index - first; if i < m then 0 else if i = m then 1 else 2
  | none => 0

/-! ### MSn: interrupts, commands, events (R30, R236, R237, R240) -/

/-- Sequencer interrupt source `b` sets its bit in MSn_INT (R240). -/
def msInt (n : Lane) (b : Nat) (s : State) : State := s.put ((⟨R.MSn_INT n, 6, 0⟩ : Fld).bit b) 1

/-- An entry sent to the command FIFO of MSn (R236); beyond 32 the sender waits (R30), which this list holds as well. -/
def msSend (n : Lane) (e : BitVec 128) (s : State) : State := s.onMs n (fun m => { m with cmd := m.cmd ++ [e] })

/-- A command entry from its operands (R314). -/
def msEntry (op w0 w1 w2 w3 w4 : Nat) : BitVec 128 :=
  BitVec.ofNat 128 (op % 256 + w0 % 2 ^ 24 * 2 ^ 8 + w1 % 2 ^ 24 * 2 ^ 32 + w2 % 2 ^ 24 * 2 ^ 56 + w3 % 2 ^ 24 * 2 ^ 80 + w4 % 2 ^ 24 * 2 ^ 104)

/-- An event entry (R237). -/
def msEvent (code lane hd w5 w6 : Nat) : BitVec 64 :=
  BitVec.ofNat 64 (code % 256 + lane % 4 * 2 ^ 8 + hd % 8 * 2 ^ 10 + w5 % 2 ^ 24 * 2 ^ 16 + w6 % 2 ^ 24 * 2 ^ 40)

/-- An entry posted to the event FIFO (R237): the interrupt of the lane's FIFO is raised where it was empty (R441); with 256 entries before
it the entry waits, which the list holds as well (R30). -/
def msPost (n : Lane) (code hd w5 w6 : Nat) (s : State) : State :=
  let s := if (s.ms n).events.isEmpty then s.irq (1 + n) else s
  s.onMs n (fun m => { m with events := m.events ++ [msEvent code n hd w5 w6] })

/-- A hardware event, lost where the FIFO is full (R237). -/
def msHwEvent (n : Lane) (code w5 w6 : Nat) (s : State) : State :=
  if 256 ≤ (s.ms n).events.length then s else msPost n code (s.ms n).cur.hd.toNat w5 w6 s

/-- A sector slips to the next revolution (R30, R115): a SLIP event names it to the Relay scheduler (R315), and the slip is counted. -/
def slipSector (n : Lane) (d : Sector) (s : State) : State :=
  msPost n 0x07 d.head.toNat d.track d.index ((s.count (F.MSn_CNT_SLIPS n)).tally (28 + n))

/-! ### Outcomes and reports (R123, R144, R145, R315) -/

/-- A report to the Relay scheduler and BND, by the lane's actuator (R20, R315). -/
def report (k : ReportKind) (n : Lane) (d : Sector) (s : State) : State :=
  { s with reports := s.reports ++ [⟨k, (actOf s n).val, d.head.toNat, d.track, d.index, 1, d.lba, d.seq, d.band⟩] }

/-- A sector of the item in service on the lane's actuator has an outcome (R315). -/
def sectorOutcome (n : Lane) (s : State) : State := s.onAct (actOf s n) (fun a => { a with outcomes := a.outcomes + 1 })

/-- A gate opens for a sector: where it is the last of the items in service, the next item may be chosen (R307). -/
def gateOpened (n : Lane) (d : Sector) (s : State) : State :=
  s.onAct (actOf s n) (fun a => if a.last = some (d.track, d.index) then { a with last := none, ready := true } else a)

/-- A sector is placed on media (R145). -/
def sectorPlaced (n : Lane) (d : Sector) (s : State) : State := sectorOutcome n (report .placed n d (s.tally (20 + n)))

/-- W5 of a SQUELCH or RELOCATE event: the low 16 bits of the track, with a source or a count in the high byte (R237). DESIGN CHOICE: the
spec gives the byte no room beside a track of 22 bits (log 38). -/
def highByte (b track : Nat) : Nat := b % 256 * 2 ^ 16 + track % 2 ^ 16

/-- A sector is reported to BND for relocation (R144, R149): the RELOCATE event carries the track with the sector count in its high byte,
and the first sector (R152, R237). -/
def relocateSector (n : Lane) (d : Sector) (s : State) : State :=
  let s := msPost n 0x04 d.head.toNat (highByte 1 d.track) d.index s
  sectorOutcome n (report .relocate n d ((s.count (F.LNn_WR_CNT_RELOCATED n)).tally (44 + n)))

/-- LNn_VFY_STAT.PENDING shows the sectors that await an outcome (R153). -/
def showPending (n : Lane) (s : State) : State := s.put (F.LNn_VFY_STAT_PENDING n) (min 255 (s.ln n).awaiting.length)

/-- LNn_RTY_STAT.FAILING shows the sectors that still fail (R126). -/
def showFailing (n : Lane) (s : State) : State :=
  s.put (F.LNn_RTY_STAT_FAILING n) (match (s.ln n).ladder with | some l => min 255 l.failing.length | none => 0)

/-- The same sector: its track and position. -/
def Sector.same (a b : Sector) : Bool := a.track == b.track && a.index == b.index && a.head == b.head

end Sys2Proof.Machine
end

