-- ==== Sys2Proof/Machine/Access.lean ====
section
/-! DEFINITION. Units and their registers: which units the image includes (R41), which are present or lost, and the checks that a
write to a command register meets (R59, R632, R633). -/

namespace Sys2Proof.Machine

/-- The HOST section of the image. -/
def hostSec (s : State) : Option HostSec := findSection s.cfg.image (fun d => match d.body with | .host h => some h | _ => none)

/-- The DRAM section of the image. -/
def dramSec (s : State) : Option (DramRec × DramRec) :=
  findSection s.cfg.image (fun d => match d.body with | .dram a b => some (a, b) | _ => none)

/-- ROLE of the PAIR section: 0 SINGLE, 1 PAIR_A, 2 PAIR_B (R41, R62). -/
def imageRole (s : State) : Nat :=
  (findSection s.cfg.image (fun d => match d.body with | .pair r _ _ _ => some r | _ => none)).getD 0

/-- The units of GLB_UNIT_OK0 that the loaded image includes, by their bits (R41). -/
def included0 (s : State) : Nat :=
  if s.cfg.image.isNone then 0
  else
    0xFF + 2 ^ 8 + (match dramSec s with | some (_, c1) => b2n c1.configured * 2 ^ 9 | none => 0) + 2 ^ 10 +
    (match hostSec s with | some h => b2n (h.ports == 1) * 2 ^ 11 | none => 0) +
    b2n (laneIncluded s 0) * 2 ^ 12 + b2n (laneIncluded s 1) * 2 ^ 13 + b2n (laneIncluded s 2) * 2 ^ 14 + b2n (laneIncluded s 3) * 2 ^ 15 +
    0xFFF * 2 ^ 16 + 2 ^ 28 + b2n (imageRole s != 0) * 2 ^ 29 + 2 ^ 30 + 2 ^ 31

/-- The units of GLB_UNIT_OK1 that the loaded image includes (R41). -/
def included1 (s : State) : Nat := if s.cfg.image.isNone then 0 else 0xFFF

/-- The units that a register address belongs to, as bits of GLB_UNIT_OK0 and GLB_UNIT_OK1. -/
def unitOf (addr : Nat) : Nat × Nat :=
  match locate addr with
  | some (.ln, n, _) => (2 ^ (12 + n), 0)
  | some (.sv, n, _) => (2 ^ (12 + n), 0)
  | some (.ms, n, _) => (2 ^ (12 + n), 0)
  | some (.hif, n, _) => (2 ^ (10 + n), 0)
  | some (.dmc, n, _) => (2 ^ (8 + n), 0)
  | some (.dma, _, _) => (2 ^ 28, 0)
  | some (.bat, _, _) => (2 ^ 29, 0)
  | some (.moc, _, _) => (2 ^ 30, 0)
  | some (.pwr, _, _) => (2 ^ 31, 0)
  | some (.qe, _, _) => (0, 2 ^ 0)
  | some (.buf, _, _) => (0, 2 ^ 1)
  | some (.scc, _, _) => (0, 2 ^ 2)
  | some (.rly, _, _) => (0, 2 ^ 3)
  | some (.bnd, _, _) => (0, 2 ^ 4)
  | some (.key, _, _) => (0, 2 ^ 5)
  | some (.mot, _, _) => (0, 2 ^ 7)
  | some (.evr, _, _) => (0, 2 ^ 8)
  | some (.tly, _, _) => (0, 2 ^ 9)
  | _ => (0, 0)

/-- The unit that a register belongs to is left out by the loaded image (R632). -/
def unitAbsent (s : State) (addr : Nat) : Bool :=
  let (u0, u1) := unitOf addr
  s.on F.CFG_LOAD_STAT_DONE && ((u0 != 0 && (included0 s &&& u0) == 0) || (u1 != 0 && (included1 s &&& u1) == 0))

/-- The unit that a register belongs to is lost (R42, R632). SPM alone may pass its self-test again, so its commands are not
withheld here (R212). -/
def unitLost (s : State) (addr : Nat) : Bool :=
  let (u0, u1) := unitOf addr
  (s.glb.lost0.toNat &&& u0) != 0 || (s.glb.lost1.toNat &&& u1) != 0

/-- A write before DONE to a block other than GLB, TRC, SVC and CFG, which CFG discards (R59). -/
def earlyWrite (s : State) (addr : Nat) : Bool :=
  !s.on F.CFG_LOAD_STAT_DONE &&
  match locate addr with
  | some (.glb, _, _) => false
  | some (.trc, _, _) => false
  | some (.svc, _, _) => false
  | some (.cfg, _, _) => false
  | _ => true

/-- The lane of an LNn or MSn address. -/
def laneOfAddr (addr : Nat) : Option Lane :=
  match locate addr with
  | some (.ln, n, _) => if h : n < 4 then some ⟨n, h⟩ else none
  | some (.ms, n, _) => if h : n < 4 then some ⟨n, h⟩ else none
  | _ => none

/-- The lane is in a lane reset, so that accesses to LNn and MSn wait (R593, R633). -/
def laneBusy (s : State) (addr : Nat) : Bool :=
  match laneOfAddr addr with
  | some n => s.get ((F.GLB_RST_STAT_LANE_BUSY).bit n) = 1
  | none => false

/-- An access to a lane's registers waits for the lane's reset to end (R633). -/
def State.hold_ (s : State) (who : Req) (addr : Nat) (data : Option Word) (tag : Option (BitVec 16)) : State :=
  match laneOfAddr addr with
  | some n => { s with glb := { s.glb with waiting := s.glb.waiting ++ [⟨n, who, addr, data, tag⟩] }, bus := .waiting }
  | none => s

/-- A write of `w` at `addr` that acts by `eff`: discarded with EARLY_WR before DONE (R59), waiting during a lane reset (R633). -/
def State.write (s : State) (who : Req) (addr : Nat) (w : Word) (eff : State → State) : State :=
  if earlyWrite s addr then (s.flag F.CFG_LOAD_STAT_EARLY_WR).answer .done
  else if laneBusy s addr then s.hold_ who addr (some w) none
  else (eff s).answer .done

/-- A write to a command register, which has no effect on a unit that is left out or lost (R632). -/
def State.command (s : State) (addr : Nat) (w : Word) (eff : State → State) : State :=
  s.write (.core 0) addr w (fun s => if unitAbsent s addr || unitLost s addr then s else eff s)

end Sys2Proof.Machine
end

