-- ==== Sys2Proof/Machine/FrontEnd.lean ====
section
/-! DEFINITION. The signal path of a lane (03, 04 and 05): what a gate latches when it opens (R82, R87 to R91, R106, R140), the samples
after cancellation, alignment and equalisation (R82, R89, R137), the detector's LLRs (R105), the sync mark (R100), and the bits and
transition shifts that a write gate sends (R99, R131, R132). -/

namespace Sys2Proof.Machine

/-! ### Settings that a gate latches -/

/-- A field of a word as a signed number. -/
def signedField (w : Word) (lo len : Nat) : Int := (w.extractLsb' lo len).toInt

/-- The image's zone record of a lane's head and zone (R640). -/
def readerZone (s : State) (n h z : Nat) : Option ReaderZone :=
  let sec := findSection s.cfg.image (fun d => match d.body with | .readers x => if d.inst = n then some x else none | _ => none)
  (sec.bind (fun x => x.zn.find? (fun p => p.1 = 32 * h + z))).map (fun p => p.2)

/-- The delay of a reader in 1/16 baud (R82): the image's alignment delay and DELAY_TRIM of read table 1. Both are whole sixteenths, so
that their sum needs no rounding. -/
def readerDelay (s : State) (n : Lane) (h z r : Nat) : Int :=
  (match readerZone s n h z with | some x => x.delays.getD r 0 | none => 0) + signedField (tableGet s n 1 h z r) 16 6

/-- The 48 taps of an equaliser set of a head and zone (R89), those of a reader that does not serve taken as zero. -/
def tapsInForce (s : State) (n : Lane) (h z set : Nat) (only : Option Nat) : List Int :=
  (List.range 48).map (fun i => if only.all (fun r => decide (i / 16 = r)) then signedField (tableGet s n 3 h z (48 * set + i)) 0 10 else 0)

/-- The target of an equaliser set in 1/64, its leading tap 1 (R105, R106). -/
def targetOf (t : Vector Word 4) (set : Nat) : List Int :=
  let w := t.toArray.getD set 0
  [64, signedField w 0 8, signedField w 8 8, signedField w 16 8, signedField w 24 8]

/-- The preamble of a zone in bauds (R88). -/
def preambleOf (s : State) (z : Nat) : Nat := match zoneFmt s z with | some f => f.preamble | none => 0

/-- LLR_SCALE as it acts: 0 as 1 (R126). -/
def llrScale (det : Word) : Nat := max 1 (det.extractLsb' 8 8).toNat

/-- What a gate of a head and zone latches with an equaliser set and one reader or all (R90, R106). The loops begin at their acquisition
gains (R88). -/
def frontOf (s : State) (n : Lane) (h z set : Nat) (only : Option Nat) (rty : Bool) : Front :=
  let l := s.ln n
  let afe := tableGet s n 2 h z 0
  { set := set, only := only, rty := rty, adapt := l.ctl.getLsbD 1, agc := l.ctl.getLsbD 0,
    delays := [0, 1, 2].map (readerDelay s n h z), gains := [0, 1, 2].map (fun r => signedField (tableGet s n 1 h z r) 0 8),
    cutoff := (afe.extractLsb' 0 8).toNat, boost := (afe.extractLsb' 8 8).toNat, taps := tapsInForce s n h z set only,
    target := targetOf l.tgt set, scale := llrScale l.det, cancel := [], gap := 0, preamble := preambleOf s z, tracking := false }

/-- The settings of a read gate: those of LNn_CTL, or of the read override (R89, R235). A reserved EQ_MODE acts as 0, DESIGN CHOICE
(log 38). -/
def readFront (s : State) (n : Lane) (h z : Nat) : Front :=
  let l := s.ln n
  match l.ovr with
  | some o => frontOf s n h z o.set (if o.oneD then some o.oneDSel else none) o.rty
  | none => frontOf s n h z (l.ctl.extractLsb' 2 2).toNat (if l.ctl.extractLsb' 4 2 = 1 then some (l.ctl.extractLsb' 6 2).toNat else none) false

/-- The settings of a verify gate (R140): the verify reader of write table 3 alone, set LNn_VFY_CFG.SET with its target, and with CANCEL_EN
the taps of write table 2 (R137). -/
def verifyFront (s : State) (n : Lane) (h z : Nat) : Front :=
  let geo := tableGet s n 7 h z 0
  { frontOf s n h z (s.get (F.LNn_VFY_CFG_SET n)) (some (geo.extractLsb' 16 2).toNat) false with
    cancel := if s.on (F.LNn_WR_CTL_CANCEL_EN n) then (List.range 32).map (fun i => signedField (tableGet s n 6 h 0 i) 0 12) else [],
    gap := (geo.extractLsb' 0 16).toNat }

/-- The gains of the loops over a gate (R88): acquisition to the end of the preamble, tracking after it. -/
def loopsTrack (f : Front) (baud : Nat) : Bool := decide (f.preamble ≤ baud)

/-! ### The bits of a sector on the media (R99, R100) -/

/-- The sync mark (R99). -/
def syncMark : BitVec 48 := 0xB4F30E5AC927

/-- The bits of a word, the most significant first. -/
def bitsDown {w : Nat} (v : BitVec w) : List Bool := (List.range w).map (fun i => v.getMsbD i)

/-- The bits of a byte, bit 0 first (R102). -/
def bitsUp {w : Nat} (v : BitVec w) : List Bool := (List.range w).map (fun i => v.getLsbD i)

/-- The codeword bits of a sector, bit 0 first (R102, R104). -/
def codewordBits (info : List Byte) (parity : List Dword) : List Bool := info.flatMap bitsUp ++ parity.flatMap bitsUp

/-- The pad: 32 bauds of alternating ones and zeros (R99). -/
def padBits : List Bool := (List.range 32).map (fun i => i % 2 == 0)

/-- Bits of 48 that differ from the sync mark. -/
def syncErrors (w : BitVec 48) : Nat := ((bitsDown (w ^^^ syncMark)).filter id).length

/-- The sync mark is found (R100): at most 4 of its 48 bits wrong, at its nominal position or up to 64 bauds later. `heard` holds the bits
heard from the nominal position on, the first the most significant. -/
def markFound (heard : BitVec 112) : Bool := (List.range 65).any (fun k => decide (syncErrors (heard.extractLsb' (64 - k) 48) ≤ 4))

/-- A sync mark heard without an error at its nominal position. -/
def syncHeard : BitVec 112 := syncMark ++ (0 : BitVec 64)

/-- The entry of a zone's sector map for a position (R639). -/
def sectorPos (s : State) (z index : Nat) : Option SectorPos := (zoneFmt s z).bind (fun f => f.map[index]?)

/-- The codeword bit at which a servo field splits a sector, 0 where none does (R99). -/
def splitOf (s : State) (d : Sector) : Nat := match sectorPos s d.zone d.index with | some p => p.split | none => 0

/-! ### Writing (R99, R131, R132) -/

/-- The transitions of a bit stream: the position of each and its distance back to the one before, none for the first. -/
def transitionsFrom : Nat → Option Nat → List Bool → List (Nat × Option Nat)
  | i, last, a :: b :: t =>
    if a != b then (i + 1, last.map (fun k => i + 1 - k)) :: transitionsFrom (i + 1) (some (i + 1)) (b :: t)
    else transitionsFrom (i + 1) last (b :: t)
  | _, _, _ => []

/-- The shift of a transition in 1/64 baud by the distance back to the one before (R132). -/
def precompShift (w : Word) (dist : Option Nat) : Int :=
  match dist with
  | some 1 => signedField w 0 6
  | some 2 => signedField w 6 6
  | some 3 => signedField w 12 6
  | _ => 0

/-- The shift of each transition of a gate with write table 1 of the head and zone (R132). The transitions are those after the preamble,
whose pattern the spec does not give (log 38). -/
def transitionShifts (s : State) (n : Lane) (h z : Nat) (bits : List Bool) : List (Nat × Int) :=
  let w := tableGet s n 5 h z 0
  (transitionsFrom 0 none bits).map (fun t => (t.1, if s.on (F.LNn_WR_CTL_PRECOMP_EN n) then precompShift w t.2 else 0))

/-- What the gate of a sector's part writes (R99, R131): the first with the zone's preamble, to the split where there is one, the
continuation with 256 bauds of preamble and the sync mark again; the pad ends the sector. -/
def writeGate (s : State) (n : Lane) (d : Sector) (info : List Byte) (parity : List Dword) : WriteGate :=
  let word := codewordBits info parity
  let k := splitOf s d
  let bits := bitsDown syncMark ++
    (if d.part = 1 then word.drop k ++ padBits else if k = 0 then word ++ padBits else word.take k)
  { preamble := if d.part = 1 then 256 else preambleOf s d.zone, bits := bits, shifts := transitionShifts s n d.head.toNat d.zone bits }

/-! ### Reading (R82, R89, R105, R137) -/

/-- A value of the 6-bit ADC. -/
def adc (v : Int) : Int := clampI (-32) 31 v

/-- The NRZ symbol of a bit: 1 or −1. -/
def nrz (b : Bool) : Int := if b then 1 else -1

/-- The symbol sent `i` bauds after codeword bit 0, zero outside the codeword. -/
def symbolAt (sent : List Bool) (i : Int) : Int := if i < 0 then 0 else match sent[i.toNat]? with | some b => nrz b | none => 0

/-- The cancellation filter's output at a baud of the verify reader (R137): the symbols that the writer, `gap` bauds ahead, sends, through the
taps in 1/1,024. -/
def cancelAt (f : Front) (sent : List Bool) (t : Int) : Int :=
  (((List.range f.cancel.length).map (fun k => f.cancel.getD k 0 * symbolAt sent (t + f.gap - k))).sum).fdiv 1024

/-- A reader's sample on the grid of 1/16 baud, with the cancellation filter's output subtracted (R137). -/
def sampleAt (f : Front) (sent : List Bool) (w : Wave) (r : Nat) (i : Int) : Int :=
  let k := i + 16 * w.lead
  let v := if k < 0 then 0 else adc ((w.readers.getD r []).getD k.toNat 0)
  if f.cancel.isEmpty then v else v - cancelAt f sent (i.fdiv 16)

/-- A reader's sample of a baud after its delay (R82). -/
def alignedAt (f : Front) (sent : List Bool) (w : Wave) (r : Nat) (t : Int) : Int := sampleAt f sent w r (16 * t - f.delays.getD r 0)

/-- The equaliser's output for a baud at 8 bits (R89): the sum of the three readers' 16-tap filters, taps in 1/256. The rounding and the
saturation are DESIGN CHOICE (log 38). -/
def equalisedAt (f : Front) (sent : List Bool) (w : Wave) (t : Nat) : Int :=
  clampI (-128) 127 ((((List.range 48).map (fun i => f.taps.getD i 0 * alignedAt f sent w (i / 16) ((t : Int) - (i % 16 : Nat)))).sum).fdiv 256)

/-- An LLR: the detector's output scaled by LLR_SCALE ÷ 16 and saturated at ±15 (R105). The rounding is DESIGN CHOICE (log 38). -/
def llrOf (scale : Nat) (raw : Int) : Int := clampI (-15) 15 ((raw * scale).fdiv 16)

/-- The LLRs of a codeword of `len` bits (R105). -/
def codewordLlrs (f : Front) (sent : List Bool) (w : Wave) (len : Nat) : List Int :=
  let soft := Config.detect f.target ((List.range len).map (equalisedAt f sent w))
  (List.range len).map (fun i => llrOf f.scale (soft.getD i 0))

/-- Eight LLRs to an entry of the soft-output FIFO, the first in the lowest bits (R105); a shorter rest is filled with zeros. -/
def packLlrs : List Int → List (BitVec 40)
  | a :: b :: c :: d :: e :: f :: g :: h :: t =>
    BitVec.ofNat 40 (([a, b, c, d, e, f, g, h].zipIdx).foldl (fun v p => v + unsigned 5 p.1 * 2 ^ (5 * p.2)) 0) :: packLlrs t
  | [] => []
  | rest => [BitVec.ofNat 40 ((rest.zipIdx).foldl (fun v p => v + unsigned 5 p.1 * 2 ^ (5 * p.2)) 0)]

/-- The LLRs of packed entries. -/
def unpackLlrs (l : List (BitVec 40)) : List Int := l.flatMap (fun e => (List.range 8).map (fun i => (e.extractLsb' (5 * i) 5).toInt))

/-- The sum of several reads of a codeword, as 8-bit values that saturate at ±127 (R121, rung 2). -/
def sumLlrs (reads : List (List Int)) : List Int :=
  (reads.foldl (fun acc r => (List.range (max acc.length r.length)).map (fun i => acc.getD i 0 + r.getD i 0)) []).map (clampI (-127) 127)

end Sys2Proof.Machine
end

