-- ==== Sys2Proof/Machine/Inhibit.lean ====
section
/-! DEFINITION. The zone-table ports of a lane (R96, R97, R153), the closing of its gates (R77, R91, R97, R136, R137, R145, R216, R233), write
inhibit (R146 to R150), the synthesiser (R85, R86) and the stop of the head link (R67, R76, R95). -/

namespace Sys2Proof.Machine

/-! ### Zone tables (R96, R97, R153) -/

/-- The table port of an address: lane, whether it is the write-table port, whether it is DATA. -/
def tablePort (addr : Nat) : Option (Lane × Bool × Bool) :=
  match laneOfAddr addr with
  | some n =>
    if addr = R.LNn_TBL_DATA n then some (n, false, true)
    else if addr = R.LNn_WTBL_DATA n then some (n, true, true)
    else if addr = R.LNn_TBL_SEL n then some (n, false, false)
    else if addr = R.LNn_WTBL_SEL n then some (n, true, false)
    else none
  | none => none

/-- The selection registers' fields of a port: AUTOINC, TABLE, HEAD, ZONE, INDEX. -/
def tableSel (s : State) (n : Lane) (wr : Bool) : Nat × Nat × Nat × Nat × Nat :=
  if wr then
    (s.get (F.LNn_WTBL_SEL_AUTOINC n), s.get (F.LNn_WTBL_SEL_TABLE n), s.get (F.LNn_WTBL_SEL_HEAD n), s.get (F.LNn_WTBL_SEL_ZONE n),
      s.get (F.LNn_WTBL_SEL_INDEX n))
  else
    (s.get (F.LNn_TBL_SEL_AUTOINC n), s.get (F.LNn_TBL_SEL_TABLE n), s.get (F.LNn_TBL_SEL_HEAD n), s.get (F.LNn_TBL_SEL_ZONE n),
      s.get (F.LNn_TBL_SEL_INDEX n))

/-- INDEX advanced by one with AUTOINC (R96). -/
def tableStep (n : Lane) (wr : Bool) (s : State) : State :=
  let (auto, _, _, _, i) := tableSel s n wr
  if auto = 0 then s else if wr then s.put (F.LNn_WTBL_SEL_INDEX n) (i + 1) else s.put (F.LNn_TBL_SEL_INDEX n) (i + 1)

/-- The gates that hold a write of the port: read and write for the read tables, write and verify for the write tables. -/
def portGate (s : State) (n : Lane) (wr : Bool) : Bool :=
  if wr then s.on (F.LNn_STAT_WR_GATE n) || s.on (F.LNn_WR_STAT_VFY_GATE n)
  else s.on (F.LNn_STAT_RD_GATE n) || s.on (F.LNn_STAT_WR_GATE n)

/-- A write of LNn_TBL_DATA or LNn_WTBL_DATA that need not wait (R97): applied at once, or held while a gate is open. -/
def tableWriteNow (n : Lane) (wr : Bool) (w : Word) (s : State) : State :=
  let (_, tbl, head, zone, index) := tableSel s n wr
  let t := if wr then tbl + 4 else tbl
  let valid := decide (tbl < 4) && !(wr && tbl == 3) && decide (index < tableLen t)
  let s' :=
    if !valid then s
    else
      let key := tableKey (cadence s) t head zone index
      let v := w &&& tableMask t index
      if portGate s n wr then
        if wr then s.onLn n (fun l => { l with wheld := some (key, v) }) else s.onLn n (fun l => { l with held := some (key, v) })
      else putEntry n key v s
  tableStep n wr s'

/-- A write of a table port's register: it waits while a write of the same port is held (R97). -/
def tablePortWrite (n : Lane) (wr isData : Bool) (addr : Nat) (w : Word) (s : State) : State :=
  let l := s.ln n
  if (if wr then l.wheld.isSome else l.held.isSome) then
    s.onLn n (fun l => { l with waitT := l.waitT ++ [(addr, w)] })
  else if isData then tableWriteNow n wr w s
  else s.setReg addr (w &&& 0x8FFF00FF)

/-- A held write applied, and the accesses that waited for it (R97). -/
def releaseHeld (n : Lane) (wr : Bool) (s : State) : State :=
  if portGate s n wr then s
  else
    let l := s.ln n
    let s := match if wr then l.wheld else l.held with
      | some (key, v) => putEntry n key v s
      | none => s
    let s := s.onLn n (fun l => if wr then { l with wheld := none, waitT := [] } else { l with held := none, waitT := [] })
    forEach l.waitT (fun p s => match tablePort p.1 with | some (n, wr, d) => tablePortWrite n wr d p.1 p.2 s | none => s) s

/-- The entry that a read of a table port returns, zero beyond the table's last entry (R96), and the state after it. -/
def tableRead (n : Lane) (wr : Bool) (s : State) : Word × State :=
  let (_, tbl, head, zone, index) := tableSel s n wr
  let v := if tbl < 4 then tableGet s n (if wr then tbl + 4 else tbl) head zone index else 0
  (v, tableStep n wr s)

/-! ### Closing a gate (R77, R91, R97, R137, R145, R233) -/

/-- The sequencer's view of the gate mode becomes idle at the start of the next word (R228). -/
def seqGateIdle (n : Lane) (s : State) : State := s.onMs n (fun m => { m with nxt := { m.nxt with gate := 0 } })

/-- With the last gate closed under a cadence drain, the unread entries of the write-data FIFO are discarded (R216). -/
def drainFifo (n : Lane) (s : State) : State :=
  if (s.ln n).drain && !s.on (F.LNn_STAT_RD_GATE n) && !s.on (F.LNn_STAT_WR_GATE n) then
    let k := (s.ln n).wfifo.length
    ((s.onLn n (fun l => { l with wfifo := [] })).onAct (actOf s n) (fun a => { a with fed := a.fed - k })).tally (28 + n) k
  else s

/-- What the closing of any gate of the lane lets happen: with no gate open the head-enable bits that were held clear (R77), a held table
write is applied with the accesses that wait for it (R97), and a cadence drain goes on (R216). -/
def afterClose (n : Lane) (s : State) : State :=
  let s := s.onLn n (fun l => if l.gate.isNone && l.vgate.isNone then { l with enHeld := 0 } else l)
  drainFifo n (releaseHeld n true (releaseHeld n false s))

/-- The coefficients of a working copy that a loop adapted (R91, R137): what the row brings, else free values of `bits` bits, since the spec
gives the loop no step. -/
def adaptedTaps (k bits : Nat) (taps : Option (List Word)) (s : State) : List Word × State :=
  match taps with
  | some l => (l, s)
  | none => let (v, s) := s.free (k * bits); ((List.range k).map (fun i => (v.extractLsb' (bits * i) bits).zeroExtend 32), s)

/-- Entries written back to a table, by index. -/
def writeBack (n : Lane) (tbl head zone : Nat) (entries : List (Nat × Word)) (s : State) : State :=
  forEach entries (fun e s => tablePut n tbl head zone e.1 e.2 s) s

/-- The taps that a read gate adapted go back to the entries of its set, for the readers that served (R89, R91). -/
def writeBackRead (n : Lane) (d : Sector) (taps : Option (List Word)) (s : State) : State :=
  match d.front with
  | some f =>
    if !f.adapt then s
    else
      let (l, s) := adaptedTaps 48 10 taps s
      let idx := ((List.range 48).filter (fun i => f.only.all (fun r => decide (i / 16 = r)))).filter (fun i => decide (i < l.length))
      writeBack n 3 d.head.toNat d.zone (idx.map (fun i => (48 * f.set + i, l.getD i 0))) s
  | none => s

/-- The cancellation taps that the write gates adapted go back to write table 2 (R137). DESIGN CHOICE: with CANCEL_EN = 0 nothing is written
back, whatever CANCEL_ADAPT holds, since no loop runs. -/
def writeBackCancel (n : Lane) (d : Sector) (taps : Option (List Word)) (s : State) : State :=
  if s.on (F.LNn_WR_CTL_CANCEL_EN n) && s.on (F.LNn_WR_CTL_CANCEL_ADAPT n) then
    let (l, s) := adaptedTaps 32 12 taps s
    writeBack n 6 d.head.toNat 0 ((List.range (min 32 l.length)).map (fun i => (i, l.getD i 0))) s
  else s

/-- The gate closes at the split of R99, and the continuation of its sector is still to come. -/
def closesAtSplit (s : State) (d : Sector) : Bool := d.part == 0 && splitOf s d != 0

/-- The open write gate closes without an inhibit: the pair is squelched (R136), and at the sector's end one not selected for verify is placed
(R145). -/
def closeWrite (n : Lane) (s : State) : State :=
  match (s.ln n).gate with
  | some d =>
    let s := (seqGateIdle n (s.put (F.LNn_STAT_WR_GATE n) 0)).emit (.squelched n)
    let split := closesAtSplit s d
    let s := s.onLn n (fun l => { l with gate := none, cont := if split then some { d with part := 1 } else none })
    let s := afterClose n s
    if split || d.verify then s else sectorPlaced n d s
  | none => s

/-- The open read gate closes: the adapted coefficients are written back (R91). -/
def closeRead (n : Lane) (taps : Option (List Word)) (s : State) : State :=
  match (s.ln n).gate with
  | some d =>
    let s := seqGateIdle n (s.put (F.LNn_STAT_RD_GATE n) 0)
    let split := closesAtSplit s d
    let s := s.onLn n (fun l => { l with gate := none, cont := if split then some { d with part := 1 } else none })
    afterClose n (writeBackRead n d taps s)
  | none => s

/-- The verify gate closes: the adapted cancellation taps are written back (R137). -/
def closeVerify (n : Lane) (taps : Option (List Word)) (s : State) : State :=
  match (s.ln n).vgate with
  | some d =>
    let s := (s.put (F.LNn_WR_STAT_VFY_GATE n) 0).onLn n (fun l => { l with vgate := none })
    afterClose n (writeBackCancel n d taps s)
  | none => s

/-! ### Write inhibit (R146 to R150) -/

/-- The verify gate of a lane is abandoned (R146): it closes, and the sectors whose verify gate was open or still to open have no outcome,
which VERIFY_OUTCOME then decides (R142). -/
def abandonVerify (n : Lane) (s : State) : State :=
  let l := s.ln n
  let s := s.setLn n { l with vdue := [], lost := l.lost ++ l.vgate.toList ++ l.vdue }
  closeVerify n none s

/-- The open write gate is squelched by a source (R146, R147, R149): the gate closes, the sector counts as unwritten, and the next
gate frame is MODE idle. SAMPLE_CNT stands again as before the sector, and a sampled verify of it counts as skipped (R139, R142). With no
revolutions of retry left (none where WR_RETRY is 0) it is relocated. -/
def squelchGate (n : Lane) (src : Nat) (s : State) : State :=
  match (s.ln n).gate with
  | some d =>
    if s.get (F.LNn_STAT_WR_GATE n) = 0 then s else
    let s := ((s.put (F.LNn_STAT_WR_GATE n) 0).count (F.LNn_WR_CNT_INTERRUPTED n)).tally (48 + n)
    let s := if d.sampled then s.put (F.LNn_VFY_STAT_SAMPLE_CNT n) d.cnt else s
    let s := if d.sampled && d.verify then s.count (F.LNn_VFY_CNT1_SKIPPED n) else s
    let verified := match (s.ln n).vgate with | some e => e.same d | none => false
    let s := s.onLn n (fun l => { l with gate := none, vdue := l.vdue.filter (fun e => !e.same d), awaiting := l.awaiting.filter (fun e => !e.same d), gateQ := gateFrameOf 0 d.head 0 true :: l.gateQ })
    let s := showPending n ((seqGateIdle n s).emit (.squelched n))
    let s := if verified then closeVerify n none s else s
    let s := afterClose n s
    let s := if src = 0 then report .disturbed n d s else s
    if s.get (F.LNn_WR_CTL_WR_RETRY n) ≤ d.revs then relocateSector n d s
    else s.onLn n (fun l => { l with cut := l.cut ++ [{ d with source := src, part := 0 }] })
  | none => s

/-- A write-inhibit source asserts (R146). LNn_WR_STAT.SQUELCH shows the squelch of an inhibit alone. DESIGN CHOICE: its reset value 0 stands
against R136, by which the pair is squelched whenever no write gate is open; that idle squelch is `writePairSquelched`. -/
def inhibit (n : Lane) (src : Nat) (s : State) : State :=
  let s := s.put ((F.LNn_WR_STAT_INH_NOW n).bit src) 1
  let s := (s.put (F.LNn_WR_STAT_SQUELCH n) 1).flag ((F.LNn_WFLT_STAT_INH_SEEN n).bit src)
  let s := s.onLn n (fun l => if src = 0 then { l with safeWedges := 0, inh0 := true } else if src = 1 then { l with faultRead := false } else l)
  let s := if s.get (F.LNn_STAT_WR_GATE n) = 1 then squelchGate n src (msInt n 3 s) else s
  if src = 2 ∨ src = 5 then s else abandonVerify n s

/-- The write pair carries no differential signal (R136, R146): no write gate of the lane is open, or an inhibit squelches it. -/
def writePairSquelched (s : State) (n : Lane) : Bool := !s.on (F.LNn_STAT_WR_GATE n) || s.on (F.LNn_WR_STAT_SQUELCH n)

/-- The settings of the head are to be sent again (R133). -/
def forgetSettings (n : Lane) (h : Nat) (s : State) : State :=
  s.onLn n (fun l => { l with lastSent := smErase (64 * h + 2) (smErase (64 * h + 3) (smErase (64 * h + 4) l.lastSent)) })

/-- The ladder attempt in progress is abandoned (R124). -/
def spoilAttempt (n : Lane) (s : State) : State := s.onLn n (fun l => { l with ladder := l.ladder.map (fun x => { x with spoiled := true }) })

/-- A source-0, 1, 3, 4 or 5 source, or a lane still waiting to resume after source 0, keeps the write data squelched (R146). -/
def inhibited (s : State) (n : Lane) : Bool := s.on (F.LNn_WR_STAT_INH_NOW n) || (s.ln n).inh0

/-- A source no longer asserts (R146): its INH_NOW bit clears, and SQUELCH with the last of them. -/
def resumeSource (n : Lane) (source : Nat) (s : State) : State :=
  let s := (s.put ((F.LNn_WR_STAT_INH_NOW n).bit source) 0).onLn n (fun l => if source = 0 then { l with inh0 := false } else l)
  if !inhibited s n then s.put (F.LNn_WR_STAT_SQUELCH n) 0 else s

/-- The synthesiser loses lock (R85): PLL_LOCK clears, PLL_UNLOCK is set, and inhibit source 3 asserts (R146). -/
def pllUnlock (n : Lane) (s : State) : State :=
  spoilAttempt n (inhibit n 3 ((s.put (F.LNn_STAT_PLL_LOCK n) 0).flag (F.LNn_HL_STAT_PLL_UNLOCK n)))

/-- BPW and M of a zone at the cadence in force are loaded and the synthesiser relocks (R85, R86, R239). -/
def loadZone (n : Lane) (zone : Nat) (s : State) : State :=
  let bpw := match zoneFmt s zone with | some f => f.bpw | none => 0
  let m := baudM bpw (cadence s)
  let s := (s.put (F.LNn_BPW_BPW n) bpw).put (F.LNn_STAT_ZONE n) zone
  if m = s.get (F.LNn_BAUD_M_M n) then s
  else
    let s := (s.put (F.LNn_BAUD_M_M n) m).put (F.LNn_STAT_PLL_LOCK n) 0
    inhibit n 3 s

/-- The sleep frame of R95 when SVn begins a retract or unload: queued MSn frames are dropped, firmware frames kept. -/
def retractSleep (n : Lane) (s : State) : State :=
  s.onLn n (fun l => if l.slept then l else { l with setQ := [], gateQ := [gateFrameOf 3 l.pre.head 0 true] })

/-- LNn_PBUS_RES cleared for an outcome (R78): REJECT stands until the next accepted command (R98). -/
def clearResult (n : Lane) (s : State) : State :=
  let rej := s.get (F.LNn_PBUS_RES_REJECT n)
  (s.setReg (R.LNn_PBUS_RES n) 0).put (F.LNn_PBUS_RES_REJECT n) rej

/-- A firmware preamp command completes as dropped (R67). -/
def dropFirmware (n : Lane) (s : State) : State :=
  ((clearResult n s).put (F.LNn_PBUS_RES_VALID n) 1).put (F.LNn_PBUS_RES_DROPPED n) 1

/-- HEAD_LINK_STOP (R67): the queued frames of MSn are dropped, and a queued firmware command completes as dropped. The frame on
the bus, if any, completes, and a sleep frame that POWER_FAIL asked for is still sent (R76). -/
def headLinkStop (n : Lane) (s : State) : State :=
  let l := s.ln n
  let s := s.setLn n { l with gateQ := if l.slept then l.gateQ else [], setQ := [], fwQ := [] }
  let onBus := match l.bus with | some f => f.source == .firmware | none => false
  if !l.fwQ.isEmpty && !onBus then dropFirmware n s else s

/-- The sleep frame of POWER_FAIL (R76): it follows the frame on the bus, and no other frame is sent. -/
def sleepFrame (n : Lane) (s : State) : State :=
  if lanePresent s n then
    let s := headLinkStop n s
    s.onLn n (fun l => { l with gateQ := [gateFrameOf 3 l.pre.head 0 true], slept := true })
  else s

end Sys2Proof.Machine
end

