-- ==== Sys2Proof/Machine/HeadLink.lean ====
section
/-! DEFINITION. The head link and front end of each lane (03_head_link_and_front_end.md, R65 to R98): firmware frames, the bus
master, the fault input, the synthesiser's relock, the rows of the zone tables, the closing of gates. -/

namespace Sys2Proof.Machine

/-! ### The preamp control bus (R67 to R80) -/

/-- The frames of a firmware command word (R78, R134): one frame, or for a broadcast of ASSIST one per declared head. -/
def firmwareFrames (s : State) (n : Lane) (w : Word) : List PbFrame :=
  let wr := w.getLsbD 31
  let bc := wr && w.getLsbD 30
  let head : BitVec 3 := w.extractLsb' 27 3
  let addr : BitVec 6 := w.extractLsb' 21 6
  let data : BitVec 16 := w.extractLsb' 0 16
  let frame := fun (bc : Bool) (h : BitVec 3) (last : Bool) =>
    (⟨.firmware, if wr then .write else .read, 0, bc, h, addr, data, 0, none, false, false, last, false, []⟩ : PbFrame)
  if bc && addr == 0x04 then
    let k := headsOf s n
    (List.range k).map (fun h => frame false (BitVec.ofNat 3 h) (h + 1 == k))
  else [frame bc head true]

/-- A write of LNn_PBUS_CMD (R67, R78): refused while busy, completed at once as dropped while HLn_PCK is held, else queued. -/
def pbusCommandEff (n : Lane) (w : Word) (s : State) : State :=
  if s.on (F.LNn_PBUS_RES_BUSY n) then s.put (F.LNn_PBUS_RES_REJECT n) 1
  else if !pckRuns s n then dropFirmware n (s.put (F.LNn_PBUS_RES_REJECT n) 0)
  else
    let frames := firmwareFrames s n w
    if frames.isEmpty then
      -- a broadcast of ASSIST on a lane without declared heads has no frame to send, so that it completes at once
      (s.setReg (R.LNn_PBUS_RES n) 0).put (F.LNn_PBUS_RES_VALID n) 1
    else
      let s := s.onLn n (fun l => { l with fwQ := l.fwQ ++ frames, fwCrc := false, fwMis := false, fwData := 0 })
      ((s.put (F.LNn_PBUS_RES_BUSY n) 1).put (F.LNn_PBUS_RES_VALID n) 0).put (F.LNn_PBUS_RES_REJECT n) 0

/-- PBUS_COMMAND_WRITE (R78). -/
def execPbusCommandWrite (n : Lane) (data : Word) (s : State) : Host.Outcome State Fault Refusal :=
  .next (s.write (.core 0) (R.LNn_PBUS_CMD n) data (pbusCommandEff n data))

/-- A frame put on the bus (R68): the value it carries is fixed, its bits leave the chip, and the value sent to the head's register
is recorded (R133). -/
def startFrame (n : Lane) (f : PbFrame) (s : State) : State :=
  let f := { f with data := frameData s n f }
  let (len, bits) := frameBits f
  let s := s.emit (.preamp n len bits)
  let keep := fun (l : Ln) =>
    if f.kind ≠ .write then l
    else if f.bc then { l with lastSent := (List.range 8).foldl (fun m h => smSet (64 * h + f.addr.toNat) f.data m) l.lastSent }
    else { l with lastSent := smSet (64 * f.head.toNat + f.addr.toNat) f.data l.lastSent }
  let heads := if f.kind = .write ∧ f.addr = 0x08 then (if f.bc then List.range 8 else [f.head.toNat]) else []
  let heats := heads.filter (fun h => decide (smGet (64 * h + 8) (s.ln n).lastSent ≠ some f.data))
  let f := { f with heats := heats }
  s.onLn n (fun l => { keep l with bus := some f, heatAt := heats.foldl (fun m h => smSet h s.now m) l.heatAt })

/-- A gate frame is never sent for a head whose LNn_HEAD_EN bit is 0 (R77), but for the sleep frames of R76 and R95, which are sent in any
case. -/
def gateAllowed (s : State) (n : Lane) (f : PbFrame) : Bool := f.mode == 3 || headEnabled s n f.head.toNat

/-- PBUS_FRAME_START (R74, R75): with the bus free, the first waiting frame in the order gate, setting, firmware starts if it may.
`room` is the number of HLn_PCK cycles to the scheduled start of the next gate frame, none where no gate frame is scheduled. -/
def execPbusFrameStart (n : Lane) (room : Option Nat) (s : State) : Host.Outcome State Fault Refusal :=
  let l := s.ln n
  if l.bus.isSome || !(pckRuns s n || l.slept) then .next s
  else
    let fits := fun (f : PbFrame) => match room with | some r => decide (frameLength f ≤ r) | none => true
    match l.gateQ, l.setQ, l.fwQ with
    | g :: rest, setQ, fwQ =>
      if g.asap || room == some 0 then
        let s := s.setLn n { l with gateQ := rest }
        .next (if gateAllowed s n g then startFrame n g s else s)
      else
        match setQ, fwQ with
        | f :: r, _ => .next (if fits f then startFrame n f (s.setLn n { l with setQ := r }) else s)
        | [], f :: r => .next (if fits f then startFrame n f (s.setLn n { l with fwQ := r }) else s)
        | [], [] => .next s
    | [], f :: r, _ => .next (if fits f then startFrame n f (s.setLn n { l with setQ := r }) else s)
    | [], [], f :: r => .next (if fits f then startFrame n f (s.setLn n { l with fwQ := r }) else s)
    | [], [], [] => .next s

/-- LNn_PBUS_RES completes in one update (R78). -/
def completeFirmware (n : Lane) (s : State) : State :=
  let l := s.ln n
  let s := ((clearResult n s).put (F.LNn_PBUS_RES_VALID n) 1).put (F.LNn_PBUS_RES_DATA n) l.fwData.toNat
  (s.putB (F.LNn_PBUS_RES_CRC_ERR n) l.fwCrc).putB (F.LNn_PBUS_RES_MISMATCH n) l.fwMis

/-- A CHECK error or a read-back mismatch on any frame (R79, LNn_HL_STAT.BUS_CHECK). -/
def busCheck (n : Lane) (s : State) : State := (s.flag (F.LNn_HL_STAT_BUS_CHECK n)).count (F.LNn_HL_CNT_CHECK_CNT n)

/-- A frame put back at the head of its source's queue. -/
def resend (n : Lane) (f : PbFrame) (s : State) : State :=
  s.onLn n (fun l => if f.source = .firmware then { l with fwQ := f :: l.fwQ } else { l with setQ := f :: l.setQ })

/-- A read of FAULT_STAT by MSn (R151, R234): bit 2 cleared in W8; bit 0, 1 or 8 disables the head for writing. -/
def faultStatRead (n : Lane) (head : Nat) (data : BitVec 16) (s : State) : State :=
  if data.getLsbD 0 || data.getLsbD 1 || data.getLsbD 8 then s.put ((F.LNn_WR_HEAD_DIS_DIS n).bit head) 1 else s

/-- Data of a register read lands in W8 (R234), which the next word sees (R228). -/
def landW8 (n : Lane) (f : PbFrame) (data : BitVec 16) (s : State) : State :=
  let v : BitVec 24 := (if f.addr = 0x0A then data &&& ~~~4 else data).zeroExtend 24
  let s := s.onMs n (fun m => { m with landed := some v })
  if f.addr = 0x0A then faultStatRead n f.head.toNat data (s.onLn n (fun l => { l with faultRead := true })) else s

/-- The end of a read frame: a failed CHECK is retried once with AUTO_RETRY, else the data, the mismatch of a read-back and the
CHECK error are taken (R79). With the head link stopped nothing is sent again, and the CHECK error is reported (R67). -/
def readEnd (n : Lane) (f : PbFrame) (data : BitVec 16) (check : BitVec 8) (s : State) : State :=
  let ok := check.toNat == readCheck f data
  let s := if ok then s else busCheck n s
  if !ok && !f.retried && s.on (F.LNn_PBUS_CTL_AUTO_RETRY n) && pckRuns s n then resend n { f with retried := true } s
  else
    let mis := match f.expect with | some v => ok && v != data | none => false
    let s := if mis then busCheck n s else s
    if f.source = .firmware then
      let s := s.onLn n (fun l => { l with fwCrc := l.fwCrc || !ok, fwMis := l.fwMis || mis, fwData := data })
      if f.final then completeFirmware n s else s
    else if f.into then landW8 n f data s else s

/-- The end of a write frame: with VERIFY the register is read back (R79), but not once the head link has stopped (R67). DESIGN CHOICE: a
firmware write whose read-back cannot be sent any more completes with neither MISMATCH nor DROPPED, since its own frame was sent. -/
def writeEnd (n : Lane) (f : PbFrame) (s : State) : State :=
  let s := s.onLn n (fun l => { l with heatAt := f.heats.foldl (fun m h => smSet h s.now m) l.heatAt })
  if s.on (F.LNn_PBUS_CTL_VERIFY n) && pckRuns s n then
    resend n { f with kind := .read, bc := false, head := if f.bc then 0 else f.head, expect := some f.data, retried := false } s
  else if f.source = .firmware ∧ f.final then completeFirmware n s else s

/-- PBUS_FRAME_END (R69, R78, R79): a gate frame takes effect, a write is read back with VERIFY, a read is checked. -/
def execPbusFrameEnd (n : Lane) (data : BitVec 16) (check : BitVec 8) (s : State) : Host.Outcome State Fault Refusal :=
  match (s.ln n).bus with
  | none => .next s
  | some f =>
    let s := s.onLn n (fun l => { l with bus := none })
    let s := match f.kind with
      | .gate => s.onLn n (fun l => { l with pre := ⟨f.mode, f.head⟩, preAt := s.now })
      | .write => writeEnd n f s
      | .read => readEnd n f data check s
    -- the head link has stopped: nothing more of a firmware command is sent (R67)
    if !pckRuns s n && s.on (F.LNn_PBUS_RES_BUSY n) then .next (dropFirmware n (s.onLn n (fun l => { l with fwQ := [] })))
    else .next s

/-! ### The fault input and the synthesiser (R81, R85, R86) -/

/-- FAULT_QUALIFIED (R81, R67, R133, R146): ignored while the head link is stopped. -/
def execFaultQualified (n : Lane) (s : State) : Host.Outcome State Fault Refusal :=
  if !pckRuns s n then .next s
  else
    let s := msInt n 2 ((s.flag (F.LNn_HL_STAT_FAULT_SEEN n)).count (F.LNn_HL_CNT_FAULT_CNT n))
    let s := forgetSettings n (s.get (F.LNn_STAT_HEAD n)) s
    if s.get (F.LNn_STAT_WR_GATE n) = 1 then .next (inhibit n 1 s) else .next s

/-- PLL_RELOCK (R86): lock after a change of M, at which inhibit source 3 no longer asserts (R146). -/
def execPllRelock (n : Lane) (s : State) : Host.Outcome State Fault Refusal :=
  if s.get (F.LNn_BAUD_M_M n) = 0 then .next s else .next (resumeSource n 3 (s.put (F.LNn_STAT_PLL_LOCK n) 1))

/-! ### Rows of the zone tables (R96, R97) -/

/-- TABLE_DATA_WRITE (R97). -/
def execTableDataWrite (who : Req) (addr : Nat) (data : Word) (s : State) : Host.Outcome State Fault Refusal :=
  match tablePort addr with
  | some (n, wr, true) => .next (s.write who addr data (tablePortWrite n wr true addr data))
  | _ => .next s

/-- TABLE_DATA_READ (R96). -/
def execTableDataRead (_who : Req) (addr : Nat) (s : State) : Host.Outcome State Fault Refusal :=
  match tablePort addr with
  | some (n, wr, true) => let (v, s) := tableRead n wr s; .next (s.answer (.value v))
  | _ => .next s

/-! ### GATE_CLOSE (R233) -/

/-- GATE_CLOSE (R233): `taps` are the coefficients that the loops adapted (R91, R137). -/
def gateCloseEff (n : Lane) (gate : GateKind) (taps : List Word) (s : State) : State :=
  match gate with
  | .read => if s.on (F.LNn_STAT_RD_GATE n) then closeRead n (some taps) s else s
  | .write => if s.on (F.LNn_STAT_WR_GATE n) then closeWrite n s else s
  | .verify => closeVerify n (some taps) s

end Sys2Proof.Machine
end

