-- ==== Sys2Proof/Machine/Decoding.lean ====
section
/-! DEFINITION. Detection, decoding and read recovery (04_detection_and_recovery.md, R99 to R127): the decoder pool's tokens, the
outcomes of a decode, spilling, track parity and the retry ladder. -/

namespace Sys2Proof.Machine

/-! ### Tokens (R111 to R115) -/

/-- The lane is in service (R112, R506). -/
def inService (s : State) (n : Lane) : Bool := lanePresent s n && s.get ((F.PWR_STAT_IN_SVC).bit n) = 1

def State.engine (s : State) (k : Fin 12) : Engine := s.ldp.engines.get k
def State.setEngine (s : State) (k : Fin 12) (e : Engine) : State := { s with ldp := { s.ldp with engines := setV s.ldp.engines k e } }

/-- The engines in order. -/
def engineIds : List (Fin 12) := [0, 1, 2, 3, 4, 5, 6, 7, 8, 9, 10, 11]

/-- Tokens in a place (R111). -/
def tokensIn (s : State) (t : Token) : Nat := (s.ldp.engines.toList.filter (fun e => decide (e.token = t))).length

/-- LDP_TOK_STAT and LDP_ENG_BUSY show the ledger (R111, R127). -/
def showTokens (s : State) : State :=
  let s := (s.put F.LDP_TOK_STAT_LOST (tokensIn s .lost)).put F.LDP_TOK_STAT_FREE (tokensIn s .free)
  let s := (s.put F.LDP_TOK_STAT_LANE0 (tokensIn s (.lane 0))).put F.LDP_TOK_STAT_LANE1 (tokensIn s (.lane 1))
  let s := (s.put F.LDP_TOK_STAT_LANE2 (tokensIn s (.lane 2))).put F.LDP_TOK_STAT_LANE3 (tokensIn s (.lane 3))
  forEach engineIds (fun k s => s.putB ((F.LDP_ENG_BUSY_BUSY).bit k) (!(s.engine k).jobs.isEmpty)) s

/-- The floor of tokens of each lane in service: min(2, ⌊E ÷ L⌋) (R112). -/
def tokenFloor (s : State) : Nat :=
  let e := 12 - tokensIn s .lost
  let l := (lanes.filter (inService s)).length
  if l = 0 then 0 else min 2 (e / l)

/-- A token held above the floor, its engine idle, returns to the pool; a lane out of service holds none (R112). -/
def returnToken (k : Fin 12) (s : State) : State :=
  let e := s.engine k
  match e.token with
  | .lane n =>
    let floor := if inService s n then tokenFloor s else 0
    if e.jobs.isEmpty ∧ floor < tokensIn s (.lane n) then s.setEngine k { e with token := .free } else s
  | _ => s

/-- A free token given to a lane in service that holds fewer than its floor (R112). -/
def raiseToFloor (n : Lane) (k : Fin 12) (s : State) : State :=
  let e := s.engine k
  if inService s n && e.token == .free && decide (tokensIn s (.lane n) < tokenFloor s) then s.setEngine k { e with token := .lane n } else s

/-- Tokens levelled to the floors after a change of engines or lanes (R112, R115). -/
def levelTokens (s : State) : State :=
  let s := forEach engineIds returnToken s
  showTokens (forEach lanes (fun n s => forEach engineIds (raiseToFloor n) s) s)

/-- The lane's engines in retry decodes (R114). -/
def retryCount (s : State) (n : Lane) : Nat :=
  (s.ldp.engines.toList.filter (fun e => e.jobs.any (fun j => decide (j.lane = n) && decide (j.kind = .retry)))).length

/-- RTY_MAX as it acts: 0 as 1, above 4 as 4 (R114). -/
def retryMax (s : State) : Nat := min 4 (max 1 (s.get F.LDP_TOK_CFG_RTY_MAX))

/-- A job may start now: a retry only below the lane's limit (R114). -/
def mayDecode (s : State) (j : DecodeJob) : Bool := j.kind != .retry || decide (retryCount s j.lane < retryMax s)

/-- The held engine that takes a job: the emptiest of the lane's engines with a free codeword buffer, then the lowest (R113). -/
def heldEngine (s : State) (n : Lane) : Option (Fin 12) :=
  match engineIds.find? (fun k => decide ((s.engine k).token = .lane n) && (s.engine k).jobs.isEmpty) with
  | some k => some k
  | none => engineIds.find? (fun k => decide ((s.engine k).token = .lane n) && decide ((s.engine k).jobs.length < 2))

/-- A codeword asks for an engine (R113): a held engine with a free buffer takes it, else it waits for the floating pool. -/
def requestEngine (j : DecodeJob) (s : State) : State :=
  match if mayDecode s j then heldEngine s j.lane else none with
  | some k => let e := s.engine k; showTokens (s.setEngine k { e with jobs := e.jobs ++ [j] })
  | none => ({ s with ldp := { s.ldp with waiting := s.ldp.waiting ++ [j] } }).count F.LDP_CNT0_GRANT_WAIT

/-- The sector whose first LLR entered the soft-output FIFO, and the state without it among those that have not asked. -/
def nextCodeword (n : Lane) (kind : DecodeFor) (s : State) : Option (Sector × State) :=
  let l := s.ln n
  match kind with
  | .verify =>
    let busy := s.ldp.waiting ++ s.ldp.engines.toList.flatMap (fun e => e.jobs)
    let asked := fun (d : Sector) => busy.any (fun j => decide (j.kind = .verify) && decide (j.lane = n) && j.sector.same d) || l.compared.any (fun c => c.1.same d)
    (l.awaiting.find? (fun d => d.front.isSome && !asked d && !l.lost.any (fun e => e.same d))).map (fun d => (d, s))
  | _ =>
    match l.reads with
    | d :: rest => some (d, s.setLn n { l with reads := rest })
    | [] => none

/-- The spilled reads that a combination takes for a sector (R116, R121): the four most recent, without those whose slot returned poison. -/
def combinedReads (s : State) (n : Lane) (d : Sector) : List (List Int) :=
  let mine := ((s.ln n).spill.map (fun p => p.2)).filter (fun p => p.head == d.head && p.track == d.track && p.index == d.index)
  let newest := (mine.mergeSort (fun a b => decide (b.order ≤ a.order))).take 4
  (newest.filter (fun p => !p.poisoned)).map (fun p => unpackLlrs p.llrs)

/-- The LLRs are written to a free spill slot, or to that of a sector since recovered or reported; with none, they are not (R116). -/
def spillRead (n : Lane) (d : Sector) (llrs : List Int) (s : State) : State :=
  let l := s.ln n
  if !l.det.getLsbD 2 then s else
  let open_ := (match l.ladder with | some x => x.failing | none => []) ++ l.rgroups.flatMap (fun g => g.failed)
  let live := fun (p : Spill) => open_.any (fun e => e.head == p.head && e.track == p.track && e.index == p.index)
  let slot := match (List.range 64).find? (fun k => (smGet k l.spill).isNone) with
    | some k => some k
    | none => (l.spill.find? (fun p => !live p.2)).map (fun p => p.1)
  match slot with
  | some k => s.setLn n { l with spill := smSet k ⟨d.head, d.track, d.index, l.spillNo, false, packLlrs llrs⟩ l.spill, spillNo := l.spillNo + 1 }
  | none => s

/-- The loops of the lane's gates track (R88): the first LLR of a codeword comes after the end of the preamble. -/
def loopsTracking (n : Lane) (s : State) : State :=
  let up := fun (d : Sector) => { d with front := d.front.map (fun f => { f with tracking := true }) }
  s.onLn n (fun l => { l with gate := l.gate.map up, vgate := l.vgate.map up })

/-- Codeword bits of a sector: 64 times the block columns of its zone's rate class (R103). -/
def codewordLen (s : State) (d : Sector) : Nat := 64 * ldpcColumns (match zoneFmt s d.zone with | some f => f.cls | none => 0)

/-- The codeword bits that a write sent (R128). -/
def sentBits (s : State) (n : Lane) (d : Sector) : List Bool :=
  let info := infoPart n d (parityKind s d) d.data
  codewordBits info (ldpcParity (match zoneFmt s d.zone with | some f => f.cls | none => 0) info)

/-- The LLRs of a codeword as the settings of its gate give them (R82, R89, R105, R137). -/
def llrsOf (s : State) (n : Lane) (kind : DecodeFor) (d : Sector) (w : Wave) : List Int :=
  match d.front with
  | some f => codewordLlrs f (if kind = .verify then sentBits s n d else []) w (codewordLen s d)
  | none => []

/-- A codeword lost to an overflow of the soft-output FIFO (R30): a verified sector has no outcome (R142), a read one slips to the next
revolution, and a reread of the ladder leaves its sector failing. -/
def softOverflow (n : Lane) (kind : DecodeFor) (d : Sector) (s : State) : State :=
  let s := s.fifoFlag F.GLB_FIFO_OVF_LN_SOFT_OVF n
  match kind with
  | .otf => slipSector n d s
  | .retry => s.tally (28 + n)
  | .verify => (s.tally (28 + n)).onLn n (fun l => { l with lost := l.lost ++ [d] })

/-- TOKEN_REQUEST (R113, R30, R105, R116, R121): `fifo` is the number of entries that the lane's soft-output FIFO holds while the codeword is
taken in, `wave` what its readers deliver. Beyond 9,600 entries it overflows. A reread of the ladder is spilled, and combined with
the spilled reads of its sector where its descriptor asks for that. -/
def execTokenRequest (n : Lane) (kind : DecodeFor) (fifo : Nat) (wave : Wave) (s : State) : Host.Outcome State Fault Refusal :=
  match nextCodeword n kind s with
  | none => .next s
  | some (d, s) =>
    let s := loopsTracking n s
    if 9600 < fifo then .next (softOverflow n kind d s)
    else
      let llrs := llrsOf s n kind d wave
      let s := if kind = .retry then spillRead n d llrs s else s
      let sums := if kind = .retry ∧ d.spillSum then combinedReads s n d else []
      .next (requestEngine ⟨n, kind, d, if sums.isEmpty then llrs else sumLlrs sums, s.now⟩ s)

/-- Lanes from the rotating pointer to a lane (R113). -/
def pointerDistance (s : State) (n : Lane) : Nat := (n.val + 4 - s.ldp.pointer) % 4

/-- The request that a floating token serves (R113): the oldest of those that may start; of requests of one handshake, the first in lane
order from the rotating pointer. -/
def nextGranted (s : State) : Option DecodeJob :=
  (s.ldp.waiting.filter (mayDecode s)).foldl (fun best j =>
    match best with
    | none => some j
    | some b => if j.asked < b.asked ∨ (j.asked = b.asked ∧ pointerDistance s j.lane < pointerDistance s b.lane) then some j else some b) none

/-- TOKEN_GRANT (R113): a free token goes to the oldest waiting request that may start, and the pointer advances past its lane. -/
def execTokenGrant (s : State) : Host.Outcome State Fault Refusal :=
  match engineIds.find? (fun k => decide ((s.engine k).token = .free)), nextGranted s with
  | some k, some j =>
    let s := { s with ldp := { s.ldp with waiting := s.ldp.waiting.erase j } }
    let s := s.setEngine k ⟨.lane j.lane, [j]⟩
    .next (showTokens { s with ldp := { s.ldp with pointer := (j.lane.val + 1) % 4 } })
  | _, _ => .next s

/-! ### Outcomes (R108, R110, R236) -/

/-- Sector index within the transfer (R236): the position counted from the XFER's first. -/
def indexInTransfer (s : State) (n : Lane) (d : Sector) : Nat := d.index - bitsOf ((s.ms n).cur.xfer.get 1).toNat 11 0

/-- A decode outcome for the sequencer: OP 0xFF in the command FIFO (R236). -/
def sendOutcome (n : Lane) (d : Sector) (code iters : Nat) (s : State) : State :=
  msSend n (msEntry 0xFF (indexInTransfer s n d) code iters 0 0) s

/-- The information part of a recovered or decoded sector handed to BUF as one lane media stream transfer (R110, R119). -/
def handOver (n : Lane) (d : Sector) (lba : Option Nat) (parity : Bool) (info : List Byte) (s : State) : State :=
  { s with ldp := { s.ldp with handed := s.ldp.handed ++ [⟨n.val, d, lba, parity, info⟩] } }

/-- The outcome code of a decode (R108, R236): 0 success, 1 failure, 2 miscorrection, 3 tag mismatch. -/
def outcomeOf (s : State) (j : DecodeJob) (budget : Nat) (r : Decoded) : Nat :=
  let (crc, lba, _) := infoTag r.info
  let check := j.kind = .verify || (s.ln j.lane).det.getLsbD 0
  if !r.parity || decide (budget < r.iters) || (j.kind != .verify && j.sector.badWedge) then 1
  else if !crc then 2
  else if check && j.sector.lbaValid && lba != j.sector.lba then 3
  else 0

/-- The iteration budget of a decode (R109, R141): a rung 1 or 7 attempt uses the on-the-fly budget, and a read on the fly that of the
override its gate latched (R235). -/
def decodeBudget (s : State) (j : DecodeJob) : Nat :=
  let rung := s.get (F.LNn_RTY_STAT_RUNG j.lane)
  match j.kind with
  | .verify => min 12 (max 1 (s.get (F.LNn_VFY_CFG_ITER j.lane)))
  | .retry => if rung = 1 ∨ rung = 7 then s.get F.LDP_ITER_OTF else s.get F.LDP_ITER_RTY
  | .otf => if j.sector.front.any (fun f => f.rty) then s.get F.LDP_ITER_RTY else s.get F.LDP_ITER_OTF

/-- The counts of a failed decode by its outcome (R108). -/
def countFailure (n : Lane) (code : Nat) (s : State) : State :=
  if code = 2 then s.count (F.LNn_RCV_CNT1_MISCORRECT n)
  else if code = 3 then s.count (F.LNn_RCV_CNT2_TAG_MISMATCH n)
  else s

/-- A successful decode delivered: the whole information part to BUF, a data sector's under the LBA of its tag, its outcome to MSn, its
histogram (R110, R123, R574). -/
def deliver (n : Lane) (d : Sector) (r : Decoded) (s : State) : State :=
  let s := (s.tally (24 + n)).histo (4 + n) (r.iters - 1)
  let tag := r.info.drop (r.info.length - 32)
  sendOutcome n d 0 r.iters (handOver n d (some (unle (tag.take 8))) ((tag.getD 19 0).getLsbD 0) r.info s)

/-! ### Track parity groups (R118 to R120) -/

/-- The group of a head and track that begins at a position. -/
def ParityGroup.isAt (g : ParityGroup) (d : Sector) (first : Nat) : Bool := g.head == d.head && g.track == d.track && g.first == first

/-- A group of which nothing has been read or written. -/
def ParityGroup.new (d : Sector) (first : Nat) : ParityGroup := ⟨d.head, d.track, first, [], [], [], none, [], false, none⟩

/-- The lane's group of decoded sectors for a sector. -/
def groupFor (s : State) (n : Lane) (d : Sector) (first : Nat) : ParityGroup :=
  ((s.ln n).rgroups.find? (fun g => g.isAt d first)).getD (ParityGroup.new d first)

/-- A group of decoded sectors kept in place of the one at its position. -/
def putGroup (n : Lane) (g : ParityGroup) (s : State) : State :=
  s.onLn n (fun l => { l with rgroups := l.rgroups.filter (fun h => !(h.head == g.head && h.track == g.track && h.first == g.first)) ++ [g] })

/-- BAND and PLACE of an information part's tag (R101). -/
def infoPlace (info : List Byte) : Nat × Nat :=
  let tag := info.drop (info.length - 32)
  (unle ((tag.drop 14).take 4), unle ((tag.drop 18).take 1))

/-- A decoded sector taken into its group (R117, R118): position i carries SEQ(P) − G + i, which SEQ of data sector 0 says. -/
def groupDecoded (s : State) (n : Lane) (d : Sector) (r : Decoded) : State :=
  match sectorGroup s d with
  | none => s
  | some (first, m, _) =>
    let g := groupFor s n d first
    let i := d.index - first
    if g.inHand.contains i then s
    else
      let body := r.info.take (r.info.length - 32)
      let (_, _, seq) := infoTag r.info
      let base : Int := (seq : Int) - i
      let stale := g.stale || (match g.seq0 with | some b => b != base | none => false)
      let g := if i < m then g.addData i body
        else if i = m then { g with p := xorSyms g.p (symbols body), place := some (infoPlace r.info) }
        else { g with q := xorSyms g.q (symbols body), place := g.place.or (some (infoPlace r.info)) }
      putGroup n { g with inHand := g.inHand ++ [i], seq0 := some base, stale := stale, failed := g.failed.filter (fun e => !e.same d) } s

/-- A sector that failed noted in its group. -/
def groupFailed (s : State) (n : Lane) (d : Sector) : State :=
  match sectorGroup s d with
  | none => s
  | some (first, _, _) =>
    let g := groupFor s n d first
    if g.failed.any (fun e => e.same d) then s else putGroup n { g with failed := g.failed ++ [d] } s

/-- The tag and data of a recovered sector (R119): LBA from the command, SEQ under R118, BAND and PLACE from P or Q, FLAGS and GPOS from the
format, the CRC computed. -/
def recoveredInfo (g : ParityGroup) (d : Sector) (i : Nat) (data : List Byte) : List Byte :=
  let (band, place) := g.place.getD (d.band, 0)
  let body := fit (4096 + metaLen d.meta_) data
  let head := le 8 (if d.lbaValid then d.lba else 0) ++ le 6 ((g.seq0.getD 0) + i).toNat ++ le 4 band ++ le 1 place ++ le 1 (d.meta_ * 4) ++ le 2 i ++ zeros 6
  body ++ head ++ le 4 (crc32c (body ++ head))

/-- R119: the information parts of the group's failed data sectors, where the group's parity recovers them: every position accounted for, at
most p failed, and no SEQ that disagrees (R118). DESIGN CHOICE: R118 calls a group stale whose P or Q cannot be read, and R119 recovers a
data sector with P also failed; the model follows R119, so that a P or Q sector that was read and failed is one of the p failures
(log 38). -/
def groupRecovered (s : State) (g : ParityGroup) (d : Sector) : Option (List (Sector × List Byte)) :=
  match sectorGroup s d with
  | none => none
  | some (first, m, p) =>
    let pos := g.failed.map (fun e => e.index - first)
    let data := pos.filter (fun i => decide (i < m))
    if g.stale || p < pos.length || g.inHand.length + pos.length != m + p then none
    else
      let data := data.mergeSort (fun a b => decide (a ≤ b))
      (recoverData g.p g.q (!pos.contains m) (p = 2 && !pos.contains (m + 1)) data).map (fun l =>
        l.filterMap (fun x => (g.failed.find? (fun e => e.index - first == x.1)).map (fun e => (e, recoveredInfo g e x.1 (unsymbols x.2)))))

/-- A recovered sector handed to BUF and its outcome, parity recovery, to MSn (R119, R236); without an expected LBA its LBA stays unknown. -/
def deliverRecovered (n : Lane) (d : Sector) (info : List Byte) (s : State) : State :=
  sendOutcome n d 4 0 (handOver n d (if d.lbaValid then some d.lba else none) false info s)

/-- A new read of a group starts its accumulators anew (R120): the position about to be read was already decided. A read of the ladder goes on
with what is in hand. -/
def restartGroup (n : Lane) (d : Sector) (s : State) : State :=
  match sectorGroup s d with
  | none => s
  | some (first, _, _) =>
    let g := groupFor s n d first
    let l := s.ln n
    if l.ladder.isSome then s
    else
      let again := g.inHand.contains (d.index - first) || g.failed.any (fun e => e.same d)
      s.onLn n (fun l => { l with rgroups := l.rgroups.filter (fun h => h.head == d.head && h.track == d.track && !(again && h.isAt d first)) })

/-! ### The retry ladder (R121 to R125) -/

/-- Attempts that a rung makes (R121, R122): its budget field, capped by the settings the table lists; one for rungs 1 and 2, and
none for rungs 3 to 6, under Limited Retry; none for rung 7 where the zone has no track parity. -/
def rungAttempts (s : State) (n : Lane) (limited : Bool) (parity : Bool) (rung : Nat) : Nat :=
  let b := s.get ⟨R.LNn_RTY_BUDGET n, 4 * rung - 1, 4 * rung - 4⟩
  let b := if rung = 3 ∨ rung = 6 then min 4 b else if rung = 4 ∨ rung = 5 then min 3 b else b
  if rung = 7 then (if parity then b else 0)
  else if limited then (if rung ≤ 2 then min 1 b else 0)
  else b

/-- The next rung after `rung` that makes an attempt, 8 where none does. -/
def nextRung (s : State) (n : Lane) (limited parity : Bool) (rung : Nat) : Nat :=
  ([1, 2, 3, 4, 5, 6, 7].find? (fun r => decide (rung < r) && decide (0 < rungAttempts s n limited parity r))).getD 8

/-- The settings that a rung changes are restored (R121). -/
def restoreSettings (n : Lane) (rung : Nat) (s : State) : State :=
  let s := s.onLn n (fun l => { l with ovr := none })
  let h := s.get (F.LNn_STAT_HEAD n)
  let z := s.get (F.LNn_STAT_ZONE n)
  if rung = 6 then
    let base := (tableGet s n 0 h z 0).extractLsb' 0 10
    s.onLn n (fun l => { l with setQ := l.setQ ++ [settingFrameOf (BitVec.ofNat 3 h) 0x08 (base.zeroExtend 16)] })
  else if rung = 3 then msPost n 0x09 h 0 0 s
  else s

/-- The settings that attempt `k` of a rung applies (R121): the off-track shift as an OFFSET_REQ event, the equaliser sets as the read
override, the heater as a setting frame. -/
def applySettings (n : Lane) (rung k : Nat) (s : State) : State :=
  let h := s.get (F.LNn_STAT_HEAD n)
  let z := s.get (F.LNn_STAT_ZONE n)
  let inUse := s.get (F.LNn_CTL_EQ_SET n)
  let one := s.on (F.LNn_CTL_EQ_MODE n)
  let sel := s.get (F.LNn_CTL_ONE_D_SEL n)
  match rung with
  | 2 => s.onLn n (fun l => { l with ovr := some ⟨inUse, one, sel, true⟩ })
  | 3 =>
    let shift : Int := if k = 1 then 60 else if k = 2 then -60 else if k = 3 then 120 else -120
    let s := s.onLn n (fun l => { l with ovr := some ⟨inUse, one, sel, true⟩ })
    msPost n 0x09 h (unsigned 24 shift) 0 s
  | 4 =>
    let others := ([0, 1, 2, 3] : List Nat).filter (fun x => x != inUse)
    s.onLn n (fun l => { l with ovr := some ⟨others.getD (k - 1) 0, one, sel, true⟩ })
  | 5 => s.onLn n (fun l => { l with ovr := some ⟨s.get (F.LNn_RTY_CFG_ONE_D_SET n), true, if k = 1 then 1 else if k = 2 then 0 else 2, true⟩ })
  | 6 =>
    let step : Int := s.get (F.LNn_RTY_CFG_HTR_STEP n)
    let base : Int := ((tableGet s n 0 h z 0).extractLsb' 0 10).toNat
    let level := base + step * (if k = 1 then 1 else if k = 2 then -1 else if k = 3 then 2 else -2)
    let v := (clampI 0 1023 level).toNat
    s.onLn n (fun l => { l with ovr := some ⟨inUse, one, sel, true⟩, setQ := l.setQ ++ [settingFrameOf (BitVec.ofNat 3 h) 0x08 (BitVec.ofNat 16 v)] })
  | _ => s

/-- The ladder ends (R121): its settings restored, ACTIVE cleared, its revolutions recorded (R574) and charged (R320). -/
def endLadder (n : Lane) (s : State) : State :=
  let s := restoreSettings n (s.get (F.LNn_RTY_STAT_RUNG n)) s
  let revs := s.get (F.LNn_RTY_STAT_REVS n)
  let s := s.histo (8 + n) revs
  let s := s.onAct (actOf s n) (fun a => { a with revs := a.revs + revs })
  let s := s.onLn n (fun l => { l with ladder := none })
  showFailing n (((s.put (F.LNn_RTY_STAT_ACTIVE n) 0).put (F.LNn_RTY_STAT_RUNG n) 0).put (F.LNn_RTY_STAT_ATTEMPT n) 0)

/-- A sector reported unrecovered at rung 8 (R123). -/
def unrecovered (n : Lane) (d : Sector) (s : State) : State :=
  let s := ((s.count (F.LNn_RCV_CNT1_UNRECOVERED n)).tally (36 + n)).histo n 8
  sectorOutcome n (report .unrecovered n d s)

/-- Rung 8 (R121, R123): the remaining sectors are reported unrecovered and the ladder ends. -/
def rung8 (n : Lane) (s : State) : State :=
  match (s.ln n).ladder with
  | some l => endLadder n (forEach l.failing (unrecovered n) s)
  | none => s

/-- The zone of the ladder's sectors has track parity. -/
def ladderParity (s : State) (l : Ladder) : Bool := match l.failing with | d :: _ => (sectorGroup s d).isSome | [] => false

/-- The ladder stands at a rung and attempt (R121), or at rung 8. -/
def enterRung (n : Lane) (rung k : Nat) (s : State) : State :=
  if rung = 8 then rung8 n s
  else applySettings n rung k ((s.put (F.LNn_RTY_STAT_RUNG n) rung).put (F.LNn_RTY_STAT_ATTEMPT n) k)

/-- A sector enters the ladder (R121): at the first rung with a budget, or joining the climb of its extent. -/
def enterLadder (n : Lane) (d : Sector) (s : State) : State :=
  match (s.ln n).ladder with
  | some l =>
    if l.failing.any (fun e => e.same d) then s
    else showFailing n (s.onLn n (fun x => { x with ladder := some { l with failing := l.failing ++ [d] } }))
  | none =>
    let l : Ladder := ⟨[d], d.limited, false⟩
    let s := s.onLn n (fun x => { x with ladder := some l })
    let s := showFailing n ((s.put (F.LNn_RTY_STAT_ACTIVE n) 1).put (F.LNn_RTY_STAT_REVS n) 0)
    if s.get (F.LNn_RTY_CFG_LIMIT n) = 0 then rung8 n s
    else enterRung n (nextRung s n l.limited (ladderParity s l) 0) 1 s

/-- RELOC_RUNG as it acts: 0 and values above 7 as 7 (R126). -/
def relocRung (s : State) (n : Lane) : Nat :=
  let r := s.get (F.LNn_RTY_CFG_RELOC_RUNG n)
  if r = 0 ∨ 7 < r then 7 else r

/-- A sector leaves the ladder by success at a rung (R121, R123); from RELOC_RUNG on it is reported for rewriting, with the REWRITE event
(R152, R237). -/
def ladderSuccess (n : Lane) (d : Sector) (rung : Nat) (s : State) : State :=
  let s := s.onLn n (fun l => { l with ladder := l.ladder.map (fun x => { x with failing := x.failing.filter (fun e => !e.same d) }) })
  let s := sectorOutcome n (showFailing n (s.histo n rung))
  if relocRung s n ≤ rung then report .rewrite n d (msPost n 0x03 d.head.toNat d.track d.index (s.count (F.LNn_RCV_CNT2_RELOC_FLAGGED n))) else s

/-! ### The end of a decode (R108) -/

/-- The read of the lane's transfer covers a whole group (R120). -/
def coversGroup (s : State) (n : Lane) (first whole : Nat) : Bool :=
  let w1 := ((s.ms n).cur.xfer.get 1).toNat
  let p0 := bitsOf w1 11 0
  decide (p0 ≤ first) && decide (first + whole ≤ p0 + bitsOf w1 23 12)

/-- Recovery on the fly applies to a sector's group (R120): OTF_PARITY, and a read that covers the whole group. -/
def otfGroup (s : State) (n : Lane) (d : Sector) : Bool :=
  match sectorGroup s d with
  | some (first, m, p) => (s.ln n).det.getLsbD 1 && coversGroup s n first (m + p)
  | none => false

/-- The group of a whole read has every position decided: on-the-fly recovery (R120), or its failed sectors enter the ladder. -/
def groupEnd (n : Lane) (d : Sector) (s : State) : State :=
  match sectorGroup s d with
  | some (first, m, p) =>
    let g := groupFor s n d first
    if !otfGroup s n d || g.failed.isEmpty || g.inHand.length + g.failed.length != m + p then s
    else
      match groupRecovered s g d with
      | some l =>
        let s := forEach l (fun x s => sectorOutcome n (deliverRecovered n x.1 x.2 ((s.count (F.LNn_RCV_CNT0_PARITY_OTF n)).histo n 0))) s
        putGroup n { g with failed := [] } s
      | none => forEach g.failed (enterLadder n) s
  | none => s

/-- A sector has failed on the fly (R100, R108, R120, R121): it waits for its group's recovery, or enters the ladder. -/
def otfFailed (n : Lane) (d : Sector) (code iters : Nat) (s : State) : State :=
  let s := groupFailed (sendOutcome n d code iters ((s.count (F.LNn_RCV_CNT0_OTF_FAIL n)).tally (32 + n))) n d
  if otfGroup s n d then groupEnd n d s else enterLadder n d s

/-- A decode on the fly ended. -/
def otfEnd (n : Lane) (d : Sector) (llrs : List Int) (code : Nat) (r : Decoded) (s : State) : State :=
  if code = 0 then groupEnd n d (groupDecoded (sectorOutcome n (deliver n d r s)) n d r)
  else otfFailed n d code r.iters (spillRead n d llrs (countFailure n code s))

/-- A decode of the ladder ended: a success leaves the ladder, a failure stays. -/
def retryEnd (n : Lane) (d : Sector) (code : Nat) (r : Decoded) (s : State) : State :=
  if code = 0 then groupDecoded (ladderSuccess n d (s.get (F.LNn_RTY_STAT_RUNG n)) (deliver n d r s)) n d r
  else groupFailed (sendOutcome n d code r.iters (countFailure n code s)) n d

/-- A verify decode ended: its comparison follows (R141), unless the sector has no outcome any more (R142). -/
def verifyEnd (n : Lane) (d : Sector) (code : Nat) (r : Decoded) (s : State) : State :=
  let s := if code = 0 then s.tally (24 + n) else countFailure n code s
  if (s.ln n).lost.any (fun e => e.same d) then s
  else s.onLn n (fun l => { l with compared := l.compared ++ [(d, decide (code = 0), r.info)] })

/-- The engine's decode has ended (R112, R113): a token above the lane's floor, its engine idle, returns to the pool, where a lane below its
floor takes it at once; else the lane's oldest waiting codeword takes the free buffer. -/
def freeBuffer (k : Fin 12) (n : Lane) (s : State) : State :=
  let e := s.engine k
  let floor := if inService s n then tokenFloor s else 0
  if e.jobs.isEmpty && decide (floor < tokensIn s (.lane n)) then levelTokens s
  else
    match s.ldp.waiting.find? (fun j => decide (j.lane = n) && mayDecode s j) with
    | some j => showTokens (({ s with ldp := { s.ldp with waiting := s.ldp.waiting.erase j } }).setEngine k { e with jobs := e.jobs ++ [j] })
    | none => showTokens s

/-- The lane's codewords leave the pool: its requests are withdrawn, and its engines drop them (R32, R593). -/
def dropCodewords (n : Lane) (s : State) : State :=
  let keep := fun (j : DecodeJob) => decide (j.lane ≠ n)
  levelTokens { s with ldp := { s.ldp with waiting := s.ldp.waiting.filter keep, engines := s.ldp.engines.map (fun e => { e with jobs := e.jobs.filter keep }) } }

/-- DECODE_DONE (R108 to R110, R113, R116, R120, R121). -/
def decodeDoneEff (engine : Fin 12) (result : Decoded) (s : State) : State :=
  match (s.engine engine).jobs with
  | [] => s
  | j :: rest =>
    let e := s.engine engine
    let code := outcomeOf s j (decodeBudget s j) result
    let s := freeBuffer engine j.lane (s.setEngine engine { e with jobs := rest })
    match j.kind with
    | .otf => otfEnd j.lane j.sector j.llrs code result s
    | .retry => retryEnd j.lane j.sector code result s
    | .verify => verifyEnd j.lane j.sector code result s

/-- The first position of a sector's group. -/
def groupStart (s : State) (d : Sector) : Nat := match sectorGroup s d with | some (first, _, _) => first | none => 0

/-- Rung 7 applies R119 to each group with a failing sector, with what was read of it (R121). -/
def rung7 (n : Lane) (failing : List Sector) (s : State) : State :=
  let firsts := (failing.map (fun d => (d.head, d.track, groupStart s d))).eraseDups
  forEach firsts (fun k s =>
    let mine := failing.filter (fun d => decide ((d.head, d.track, groupStart s d) = k))
    match mine with
    | [] => s
    | d :: _ =>
      let g := groupFor s n d k.2.2
      let others := g.failed.filter (fun e => !mine.any (fun x => x.same e))
      match groupRecovered s { g with failed := mine ++ others } d with
      | some l => forEach (l.filter (fun x => mine.any (fun e => e.same x.1))) (fun x s => ladderSuccess n x.1 7 (deliverRecovered n x.1 x.2 (s.count F.LDP_CNT1_PAR_RECOVER))) s
      | none => s.count F.LDP_CNT1_PAR_FAIL) s

/-- The same attempt is made again (R124). -/
def freshAttempt (n : Lane) (s : State) : State := s.onLn n (fun l => { l with ladder := l.ladder.map (fun x => { x with spoiled := false }) })

/-- LADDER_ATTEMPT_END (R121, R122, R124): a counted attempt advances the revolutions, then the attempt, the rung or the report; an
abandoned one is made again. -/
def ladderAttemptEndEff (n : Lane) (ended : LadderEnd) (s : State) : State :=
  match (s.ln n).ladder, ended with
  | none, _ => s
  | some _, .abandoned => (freshAttempt n s)
  | some l, .done =>
    if l.spoiled then (freshAttempt n s) else
    let rung := s.get (F.LNn_RTY_STAT_RUNG n)
    let k := s.get (F.LNn_RTY_STAT_ATTEMPT n)
    let s := s.count (F.LNn_RTY_STAT_REVS n)
    let s := if rung = 7 then rung7 n l.failing s else s
    match (s.ln n).ladder with
    | none => s
    | some l =>
      let parity := ladderParity s l
      if l.failing.isEmpty then (endLadder n s)
      else if s.get (F.LNn_RTY_CFG_LIMIT n) ≤ s.get (F.LNn_RTY_STAT_REVS n) then (rung8 n s)
      else if k < rungAttempts s n l.limited parity rung then (enterRung n rung (k + 1) (restoreSettings n rung s))
      else (enterRung n (nextRung s n l.limited parity rung) 1 (restoreSettings n rung s))

/-- The ladder ends without rung 8 when GLB_MODE leaves the modes in which lanes serve (R124): its sectors are aborted, and the sequencer's
ABORT interrupt arises (R240). -/
def abortLadder (n : Lane) (s : State) : State :=
  match (s.ln n).ladder with
  | some l => endLadder n (forEach l.failing (fun d s => sectorOutcome n (report .aborted n d s)) (msInt n 5 s))
  | none => s

end Sys2Proof.Machine
end

