-- ==== Sys2Proof/Machine/WritePath.lean ====
section
/-! DEFINITION. The write path, concurrent verify and write inhibit of each lane (05_write_path.md, R128 to R153). -/

namespace Sys2Proof.Machine

/-! ### Opening a gate (R90, R106, R128 to R131, R138, R139) -/

/-- The settings latched at the opening of a gate (R90, R106). -/
def latchSettings (n : Lane) (s : State) : State :=
  s.onLn n (fun l => { l with ctl := s.reg (R.LNn_CTL n), det := s.reg (R.LNn_DET_CTL n), tgt := #v[s.reg (R.LNn_DET_TGT0 n), s.reg (R.LNn_DET_TGT1 n), s.reg (R.LNn_DET_TGT2 n), s.reg (R.LNn_DET_TGT3 n)] })

/-- The effective verify mode of a sector: 0 off, 1 sampled, 2 full (R138). -/
def verifyMode (s : State) (n : Lane) (d : Sector) : Nat :=
  let e := tableGet s n 4 d.head.toNat d.zone 1
  match d.over_ with
  | 0 => min 2 (e.extractLsb' 8 2).toNat
  | 1 => 0
  | 2 => 1
  | _ => 2

/-- VFY_N as it acts: 0 means 256, 1 acts as 2 (R153). -/
def verifyN (s : State) (n : Lane) (d : Sector) : Nat :=
  let v := ((tableGet s n 4 d.head.toNat d.zone 1).extractLsb' 0 8).toNat
  if v = 0 then 256 else max 2 v

/-- The verify choice of a sector (R139): a forced sector always, without moving the counter; in sampled mode the counter as it stood is kept
with the sector, and moves. -/
def chooseVerify (n : Lane) (d : Sector) (s : State) : Sector × State :=
  let d := { d with verify := false, sampled := false }
  if d.forced then ({ d with verify := true }, s)
  else
    match verifyMode s n d with
    | 0 => (d, s)
    | 1 =>
      let c := s.get (F.LNn_VFY_STAT_SAMPLE_CNT n)
      if verifyN s n d - 1 ≤ c then ({ d with verify := true, sampled := true, cnt := c }, s.put (F.LNn_VFY_STAT_SAMPLE_CNT n) 0)
      else ({ d with sampled := true, cnt := c }, s.put (F.LNn_VFY_STAT_SAMPLE_CNT n) (c + 1))
    | _ => ({ d with verify := true }, s)

/-- A write gate that opens while a source still asserts is squelched (R146). -/
def openInhibited (n : Lane) (s : State) : State :=
  let inh := s.get (F.LNn_WR_STAT_INH_NOW n)
  match ([0, 1, 2, 3, 4, 5] : List Nat).find? (fun k => inh / 2 ^ k % 2 = 1 || (k == 0 && (s.ln n).inh0)) with
  | some k => squelchGate n k (msInt n 3 s)
  | none => s

/-- A write gate opens for a sector whose bytes are in hand, or for its continuation (R128, R131, R233): its bits leave on the write pair. -/
def driveGate (n : Lane) (d : Sector) (info : List Byte) (parity : List Dword) (s : State) : State :=
  let s := s.emit (.sector n d.head.toNat d.track d.index info parity (writeGate s n d info parity))
  let s := ((s.put (F.LNn_STAT_WR_GATE n) 1).put (F.LNn_STAT_ZONE n) d.zone).put (F.LNn_STAT_HEAD n) d.head.toNat
  let s := s.onLn n (fun l => { l with gate := some d, cont := none, lastW := some (d.head.toNat, d.track, d.index) })
  s.onMs n (fun m => { m with nxt := { m.nxt with gate := 2 } })

/-- The parity blocks of a sector's information part in its zone's rate class (R128). -/
def sectorParity (s : State) (d : Sector) (info : List Byte) : List Dword :=
  ldpcParity (match sectorFmt s d with | some f => f.cls | none => 0) info

/-- The first write gate of a sector opens (R128, R131): a verify gate follows where it is to be verified (R140). An inhibit in force squelches
it at once (R146). -/
def openWriteGate (n : Lane) (d : Sector) (parity : Nat) (s : State) : State :=
  let (d, s) := chooseVerify n { d with part := 0, front := none } s
  let s := latchSettings n s
  let info := infoPart n d parity d.data
  let s := driveGate n d info (sectorParity s d info) s
  let s := s.onLn n (fun l => if d.verify then { l with vdue := l.vdue ++ [d], awaiting := l.awaiting ++ [d] } else l)
  openInhibited n (showPending n s)

/-- The continuation gate of a split sector opens for writing (R99, R131). -/
def continueWrite (n : Lane) (d : Sector) (s : State) : State :=
  let s := latchSettings n s
  let info := infoPart n d (parityKind s d) d.data
  openInhibited n (driveGate n d info (sectorParity s d info) s)

/-- The next sector's bytes are complete (R130): in the write-data FIFO, or in the parity accumulators for a parity position. -/
def writeReadyFor (s : State) (n : Lane) (d : Option Sector) : Bool :=
  match d with
  | some d => parityKind s d != 0 || !(s.ln n).wfifo.isEmpty
  | none => !(s.ln n).wfifo.isEmpty

/-- The next sector's bytes are complete, by the descriptor in hand (R130, R231). -/
def writeReady (s : State) (n : Lane) : Bool := writeReadyFor s n (s.ln n).desc

/-- A described sector written (R128, R129): a data sector takes its bytes from the FIFO and enters the accumulators, a parity sector
takes them from the accumulators with the group's SEQ and count. -/
def writeSector (n : Lane) (d : Sector) (s : State) : State :=
  let l := s.ln n
  let g : ParityGroup := l.wgroup.getD (ParityGroup.new d d.index)
  match parityKind s d with
  | 0 =>
    let data := l.wfifo.headD []
    let i := g.inHand.length
    let d := { d with data := data, gpos := i }
    let g' := { g.addData i data with inHand := g.inHand ++ [i], seq0 := some ((d.seq : Int) - i) }
    openWriteGate n d 0 (s.setLn n { l with wfifo := l.wfifo.drop 1, wgroup := some g' })
  | k =>
    let m := g.inHand.length
    let seq := ((g.seq0.getD 0) + m + (k - 1 : Nat)).toNat
    let d := { d with lba := 0, seq := seq, gpos := m, data := unsymbols (if k = 1 then g.p else g.q) }
    openWriteGate n d k s

/-! ### Concurrent verify (R140 to R145) -/

/-- VERIFY_GATE_OPEN (R140): VFY_GAP bauds after the write gate opened, the next of the sectors to be verified. The gate latches the settings
of the verify reader. -/
def execVerifyGateOpen (n : Lane) (s : State) : Host.Outcome State Fault Refusal :=
  match (s.ln n).vdue, (s.ln n).vgate with
  | d :: rest, none =>
    let d := { d with front := some (verifyFront s n d.head.toNat d.zone) }
    let s := s.onLn n (fun l => { l with vdue := rest, vgate := some d, awaiting := l.awaiting.map (fun e => if e.same d then d else e) })
    .next (s.put (F.LNn_WR_STAT_VFY_GATE n) 1)
  | _, _ => .next s

/-- A verify miss (R144): rewritten at the same position, or reported for relocation. The VFY_MISS event names it (R152, R237). -/
def verifyMiss (n : Lane) (d : Sector) (s : State) : State :=
  let s := msPost n 0x02 d.head.toNat d.track d.index ((s.count (F.LNn_VFY_CNT0_MISSES n)).tally (40 + n))
  if s.on (F.LNn_VFY_CFG_ACTION n) || decide (s.get (F.LNn_VFY_CFG_REWRITES n) ≤ d.misses) then relocateSector n d s
  else s.onLn n (fun l => { l with rewrites := l.rewrites ++ [{ d with misses := d.misses + 1, forced := true }] })

/-- The sector no longer awaits an outcome. -/
def settleSector (n : Lane) (d : Sector) (s : State) : State :=
  showPending n (s.onLn n (fun l => { l with awaiting := l.awaiting.filter (fun e => !e.same d), lost := l.lost.filter (fun e => !e.same d) }))

/-- The information part as written (R141): that of the second fetch with the tag of the write command. DESIGN CHOICE: a parity sector, which
the buffer does not hold, is compared with what its accumulators gave (log 38). -/
def expectedInfo (s : State) (n : Lane) (d : Sector) (second : List Byte) : List Byte :=
  let k := parityKind s d
  infoPart n d k (if k = 0 then second else d.data)

/-- VERIFY_OUTCOME (R141, R142, R144, R145): the decoded information part is compared with the one as written, and a pass places the
sector. Without an outcome a fully verified or rewritten sector misses; a sampled one is skipped, and the next sampled sector is verified in
its place. DESIGN CHOICE: a sampled sector that was selected and has no outcome counts as placed at that moment, as one not selected
does (log 38). -/
def verifyOutcomeEff (n : Lane) (ended : VerifyEnd) (s : State) : State :=
  match ended with
  | .compared second =>
    match (s.ln n).compared with
    | [] => s
    | (d, ok, info) :: rest =>
      let s := s.onLn n (fun l => { l with compared := rest })
      if !(s.ln n).awaiting.any (fun e => e.same d) then s
      else
        let s := settleSector n d s
        if ok && info == expectedInfo s n d second then sectorPlaced n d (s.count (F.LNn_VFY_CNT0_VERIFIED n))
        else verifyMiss n d s
  | .noOutcome =>
    match (s.ln n).lost with
    | [] => s
    | d :: _ =>
      let s := settleSector n d s
      if d.sampled then
        sectorPlaced n d ((s.count (F.LNn_VFY_CNT1_SKIPPED n)).put (F.LNn_VFY_STAT_SAMPLE_CNT n) (verifyN s n d - 1))
      else verifyMiss n d s

/-- The setting values that a write on a head and zone needs (R133): WCUR, WOVS, ASSIST and WRITE_HEAT, by register. -/
def writeSettings (s : State) (n : Lane) (d : Sector) : List (BitVec 6 × BitVec 16) :=
  let lev := tableGet s n 4 d.head.toNat d.zone 0
  let heat := tableGet s n 0 d.head.toNat d.zone 0
  let value := fun (a : BitVec 6) (v : BitVec 16) => (a, frameData s n (settingFrameOf d.head a v))
  [value 0x02 ((lev.extractLsb' 0 8).zeroExtend 16), value 0x03 ((lev.extractLsb' 8 8).zeroExtend 16),
   value 0x04 ((lev.extractLsb' 16 10).zeroExtend 16), value 0x08 ((heat.extractLsb' 16 10).zeroExtend 16)]

/-- The preamp is ready for a write of a sector (R133, R73): the head last received each setting, no write frame is on the bus or waits, and
its gate frame with MODE = write ended at least 20 ns ago, two periods of the ring time. -/
def writePrepared (s : State) (n : Lane) (d : Sector) : Bool :=
  let l := s.ln n
  let sent := (writeSettings s n d).all (fun v => smGet (64 * d.head.toNat + v.1.toNat) l.lastSent == some v.2)
  let quiet := !(l.setQ ++ l.bus.toList).any (fun f => f.kind == .write && f.source == .setting && f.head == d.head)
  sent && quiet && l.pre.mode == 2 && l.pre.head == d.head && decide (l.preAt.toNat + 2 ≤ s.now.toNat)

/-- The overlapping track of a shingled band waits until every sector of the head's current track has a verify outcome or is relocated
(R143). -/
def trackHeld (s : State) (n : Lane) (d : Sector) : Bool :=
  let l := s.ln n
  shingled s d.band && (l.awaiting ++ l.rewrites ++ l.cut).any (fun e => e.head == d.head && e.band == d.band && e.track != d.track)

/-- HTR_LEAD has passed since the last frame that changed a head's HEAT (R94, R231). -/
def heaterReady (s : State) (n : Lane) (h : Nat) : Bool :=
  match smGet h (s.ln n).heatAt with
  | some t => decide (t.toNat + s.get (F.LNn_HTR_LEAD_LEAD n) * 100 ≤ s.now.toNat)
  | none => true

/-- A write gate may open now for a sector written again: lock, no gate of the lane, no continuation due, no drain, no POWER_FAIL (R233), no
ladder (R125), the preamp ready (R133) and its heater settled (R94). -/
def writeMayOpen (s : State) (n : Lane) (d : Sector) : Bool :=
  s.on (F.LNn_STAT_PLL_LOCK n) && (s.ln n).gate.isNone && (s.ln n).cont.isNone && !(s.ln n).drain && !s.on F.GLB_MODE_COND_POWER_FAIL &&
  (s.ln n).ladder.isNone && writePrepared s n d && heaterReady s n d.head.toNat

/-- A sector written again, with the REWRITE event that names it (R152, R237). -/
def writeAgain (n : Lane) (d : Sector) (s : State) : State := openWriteGate n d (parityKind s d) (msPost n 0x03 d.head.toNat d.track d.index s)

/-- SECTOR_REWRITE (R144): the missed sector is written again with the same data and tag. -/
def execSectorRewrite (n : Lane) (s : State) : Host.Outcome State Fault Refusal :=
  match (s.ln n).rewrites with
  | [] => .next s
  | d :: rest =>
    if !writeMayOpen s n d then .next s
    else .next (writeAgain n d ((s.onLn n (fun l => { l with rewrites := rest })).count (F.LNn_VFY_CNT1_REWRITTEN n)))

/-! ### Write inhibit (R146 to R149) -/

/-- WRITE_INHIBIT (R146): a source asserts. Sources 1 and 2 assert inside a write gate, 3 while lock is lost, 4 and 5 by their bits. -/
def execWriteInhibit (n : Lane) (source : Fin 6) (s : State) : Host.Outcome State Fault Refusal :=
  let may := match source with
    | 0 => true
    | 1 => s.on (F.LNn_STAT_WR_GATE n)
    | 2 => s.on (F.LNn_STAT_WR_GATE n)
    | 3 => !s.on (F.LNn_STAT_PLL_LOCK n)
    | 4 => s.on F.GLB_MODE_COND_POWER_FAIL
    | _ => s.on (F.LNn_WR_CTL_INHIBIT n)
  if may then .next (inhibit n source s) else .next s

/-- A source's resume condition holds (R146). -/
def mayResume (s : State) (n : Lane) (source : Nat) : Bool :=
  let h := s.get (F.LNn_STAT_HEAD n)
  let sent := fun a => (smGet (64 * h + a) (s.ln n).lastSent).isSome
  match source with
  | 0 => decide (max 1 (s.get (F.LNn_WR_CTL_RESUME_WEDGES n)) ≤ (s.ln n).safeWedges)
  | 1 => (s.ln n).faultRead && s.get ((F.LNn_WR_HEAD_DIS_DIS n).bit h) == 0 && sent 2 && sent 3 && sent 4
  | 2 => writeReady s n
  | 3 => s.on (F.LNn_STAT_PLL_LOCK n)
  | 4 => false
  | _ => !s.on (F.LNn_WR_CTL_INHIBIT n)

/-- INHIBIT_RESUME (R146). -/
def execInhibitResume (n : Lane) (source : Fin 6) (s : State) : Host.Outcome State Fault Refusal :=
  if mayResume s n source then .next (resumeSource n source s) else .next s

/-- INTERRUPTED_REWRITE (R149): one revolution of retry of the oldest sector cut off, written whole with the same tag once its source
has cleared, or relocated after WR_RETRY revolutions. DESIGN CHOICE: what is written again is chosen for verify anew, by the counter that the
cut sector left as it found it (R139) (log 38). -/
def interruptedRewriteEff (n : Lane) (s : State) : State :=
  match (s.ln n).cut with
  | [] => s
  | d :: rest =>
    let d := { d with revs := d.revs + 1 }
    let cleared := s.get ((F.LNn_WR_STAT_INH_NOW n).bit d.source) = 0 && !(d.source == 0 && (s.ln n).inh0)
    if cleared ∧ writeMayOpen s n d then writeAgain n d (s.onLn n (fun l => { l with cut := rest }))
    else if s.get (F.LNn_WR_CTL_WR_RETRY n) ≤ d.revs then relocateSector n d (s.onLn n (fun l => { l with cut := rest }))
    else s.onLn n (fun l => { l with cut := d :: rest })

/-- WRITE_FIFO_UNDERRUN (R30, R146, R429): the sector in progress is not written this revolution; where the lane streams of a DRAM channel
still waited for a grant, the arbiter starved them. -/
def execWriteFifoUnderrun (n : Lane) (s : State) : Host.Outcome State Fault Refusal :=
  if s.on (F.LNn_STAT_WR_GATE n) then
    let starved := (s.buf.waiting.get 0).get 1 || (s.buf.waiting.get 1).get 1
    let s := s.iff starved (fun s => (s.count F.BUF_ARB_CNT_LANE_STARVE).flag F.BUF_FLT_LANE_STARVE)
    .next (inhibit n 2 (s.fifoFlag F.GLB_FIFO_OVF_LN_WR_UNDER n))
  else .next s

end Sys2Proof.Machine
end

