-- ==== Sys2Proof/Machine/Servo.lean ====
section
/-! DEFINITION. Shared operations of the servo engines (06_servo_engine.md, 07_pacer_and_seeks.md): coefficient sets and the Abacus
unit (R166 to R170, R643), wedges and the Lap counter (R157 to R161), the motion link's frames (R171 to R175), plans (R186 to R188)
and motion states (R192 to R198). -/

namespace Sys2Proof.Machine

/-! ### Motion states by name (R192, SVn_STAT.STATE) -/

def Mo.off : Nat := 0
def Mo.parked : Nat := 1
def Mo.loading : Nat := 2
def Mo.acquire : Nat := 3
def Mo.seek : Nat := 4
def Mo.settle : Nat := 5
def Mo.follow : Nat := 6
def Mo.unloading : Nat := 7
def Mo.retract : Nat := 8
def Mo.fault : Nat := 9

/-- SVn_STAT.STATE. -/
def motionState (s : State) (n : Lane) : Nat := s.get (F.SVn_STAT_STATE n)

/-- SVn is in OFF, PARKED or FAULT. -/
def motionQuiet (s : State) (n : Lane) : Bool :=
  motionState s n == Mo.off || motionState s n == Mo.parked || motionState s n == Mo.fault

/-- Every SVn is in OFF, PARKED or FAULT (R206, R213, R592). -/
def allQuiet (s : State) : Bool := lanes.all (motionQuiet s)

/-- Condition `k` of the servo fault table seen (R177). -/
def servoFault (n : Lane) (k : Nat) (s : State) : State := s.flag ((F.SVn_FLT_STAT_FLT n).bit k)

/-- Write inhibit source 0 asserts, or stands and its count of write-safe wedges starts anew (R177, R178). -/
def inhibitWrites (n : Lane) (s : State) : State :=
  if s.get ((F.LNn_WR_STAT_INH_NOW n).bit 0) = 0 then inhibit n 0 s else s.onLn n (fun l => { l with safeWedges := 0 })

/-- WR_UNSAFE (R177 bit 4) with its write inhibit. -/
def writeUnsafe (n : Lane) (s : State) : State := inhibitWrites n (servoFault n 4 s)

/-- STATE set; every state other than FOLLOW holds write inhibit (R177, R193). -/
def setMotion (n : Lane) (st : Nat) (s : State) : State :=
  let s := s.put (F.SVn_STAT_STATE n) st
  if st = Mo.follow then s else writeUnsafe n s

/-! ### Coefficient sets (R170, R641) -/

/-- The SERVO instance of a cadence. -/
def servoSec (s : State) (c : Nat) : Option ServoSec :=
  findSection s.cfg.image (fun d => match d.body with | .servo v => if d.inst = c then some v else none | _ => none)

/-- The set in use. -/
def setInUse (s : State) (n : Lane) : Nat := s.get (F.SVn_STAT_CAD_SET n)

/-- The block of an Abacus word in a cadence's block table (R643). -/
def blockOf (s : State) (c w : Nat) : Option Nat :=
  match servoSec s c with
  | some v => v.blocks.findIdx? (fun b => decide (b.1 ≤ w) && decide (w < b.1 + b.2.1))
  | none => none

/-- A block's exponent (R166). -/
def blockExp (s : State) (n : Lane) (c b : Nat) : Nat :=
  match smGet (256 * c + b) (s.sv n).exps with
  | some e => e
  | none => match servoSec s c with | some v => (v.blocks.getD b (0, 0, 0)).2.2 | none => 0

/-- The exponent that applies to a word; a word outside every block has exponent 0. -/
def wordExp (s : State) (n : Lane) (c w : Nat) : Nat := match blockOf s c w with | some b => blockExp s n c b | none => 0

/-- A word's mantissa. -/
def wordMant (s : State) (n : Lane) (c w : Nat) : Int :=
  match smGet (4096 * c + w) (s.sv n).words with
  | some m => m
  | none => match servoSec s c with | some v => signed 24 (v.words.getD w 0).toNat | none => 0

/-- A word's mantissa set. -/
def putMant (n : Lane) (c w : Nat) (m : Int) (s : State) : State := s.onSv n (fun v => { v with words := smSet (4096 * c + w) m v.words })

/-- A block's exponent set. -/
def putExp (n : Lane) (c b e : Nat) (s : State) : State := s.onSv n (fun v => { v with exps := smSet (256 * c + b) e v.exps })

/-- The words of a block. -/
def blockWords (s : State) (c b : Nat) : List Nat :=
  match servoSec s c with
  | some v => let k := v.blocks.getD b (0, 0, 0); (List.range k.2.1).map (fun i => k.1 + i)
  | none => []

/-- 2^i for an integer i. -/
def pow2 (i : Int) : Rat := if i < 0 then 1 / ((2 ^ (-i).toNat : Nat) : Rat) else ((2 ^ i.toNat : Nat) : Rat)

/-- The value of a mantissa at an exponent: m ÷ 2²³ × 2^(e − 32) (R166). -/
def absValue (m : Int) (e : Nat) : Rat := (m : Rat) * pow2 ((e : Int) - 55)

/-- The value of an Abacus word. -/
def wordValue (s : State) (n : Lane) (c w : Nat) : Rat := absValue (wordMant s n c w) (wordExp s n c w)

/-- A gain of the SERVO section as a value. -/
def gainValue (g : BitVec 24 × Nat) : Rat := absValue (signed 24 g.1.toNat) g.2

/-- Round to nearest, ties to even (R167). -/
def roundEven (x : Rat) : Int :=
  let q := x.floor
  let r := x - (q : Rat)
  if r < 1 / 2 then q else if 1 / 2 < r then q + 1 else if q % 2 = 0 then q else q + 1

/-- A mantissa shifted right by one with rounding (R168). -/
def halve (m : Int) : Int := let q := m / 2; if m % 2 = 0 then q else if q % 2 = 0 then q else q + 1

/-- A mantissa saturated at ±(2²³ − 1) (R169). -/
def saturate (m : Int) : Int := if m < 0 then -(2 ^ 23 - 1) else if 0 < m then 2 ^ 23 - 1 else 0

/-- Every mantissa of a block changed, and its exponent set. -/
def mapBlock (n : Lane) (c b e : Nat) (f : Int → Int) (s : State) : State :=
  putExp n c b e (forEach (blockWords s c b) (fun w s => putMant n c w (f (wordMant s n c w)) s) s)

/-- Largest mantissa magnitude of a block (R168). -/
def blockPeak (s : State) (n : Lane) (c b : Nat) : Nat := ((blockWords s c b).map (fun w => (wordMant s n c w).natAbs)).foldl max 0

/-- Renormalisation upwards (R168, R169): the block is shifted right until M < 2²²; `true` where the exponent would pass 63. -/
def renormUp (n : Lane) (c b : Nat) : Nat → State → Bool × State
  | 0, s => (false, s)
  | k + 1, s =>
    if blockPeak s n c b < 2 ^ 22 then (false, s)
    else
      let e := blockExp s n c b
      if 63 ≤ e then (true, mapBlock n c b 63 saturate s) else renormUp n c b k (mapBlock n c b (e + 1) halve s)

/-- Renormalisation downwards (R168, R169): shifted left until 2²¹ ≤ M; at exponent 0 the underflow is counted. -/
def renormDown (n : Lane) (c b : Nat) : Nat → State → State
  | 0, s => s
  | k + 1, s =>
    let m := blockPeak s n c b
    if m = 0 ∨ 2 ^ 21 ≤ m then s
    else
      let e := blockExp s n c b
      if e = 0 then s.count (F.SVn_ABA_CNT_EXP_UFL n) else renormDown n c b k (mapBlock n c b (e - 1) (fun m => m * 2) s)

/-- A block renormalised (R168); `true` where its exponent overflowed (R169). -/
def renormBlock (n : Lane) (c b : Nat) (s : State) : Bool × State :=
  let (ovf, s) := renormUp n c b 64 s
  if ovf then (true, s) else (false, renormDown n c b 64 s)

/-- STORE (R643): a value rounded into a word at its block's exponent, which rises while the mantissa cannot hold it; `true` where
the exponent would pass 63 (R169). -/
def storeWord (n : Lane) (c w : Nat) (x : Rat) : Nat → State → Bool × State
  | 0, s => (false, s)
  | k + 1, s =>
    let e := wordExp s n c w
    let m := roundEven (x * pow2 (55 - (e : Int)))
    if decide (-(2 ^ 23) ≤ m) && decide (m < 2 ^ 23) then (false, putMant n c w m s)
    else
      match blockOf s c w with
      | some b =>
        if 63 ≤ e then (true, putMant n c w (saturate m) (mapBlock n c b 63 saturate s))
        else storeWord n c w x k (mapBlock n c b (e + 1) halve s)
      | none => (false, putMant n c w (saturate m) s)

/-- The slot of the program that executes next (R643): OP, D, A, B. -/
def slotNow (s : State) (n : Lane) : Nat × Nat × Nat × Nat :=
  let w := match servoSec s (setInUse s n) with | some v => (v.program.getD (s.sv n).slot 0).toNat | none => 0
  (bitsOf w 3 0, bitsOf w 15 4, bitsOf w 27 16, bitsOf w 39 28)

/-- A program slot executes (R643): it is the slot's turn, SVn is enabled, and the slot's OP is the row's. -/
def slotRuns (s : State) (n : Lane) (op : Nat) : Bool :=
  s.on (F.SVn_CTL_ENABLE n) && decide ((s.sv n).slot < 1024) && decide ((slotNow s n).1 = op)

/-- The next slot's turn. -/
def nextSlot (n : Lane) (s : State) : State := s.onSv n (fun v => { v with slot := v.slot + 1 })

/-- The accumulation's value (R167): every product aligned to the greatest exponent by a right shift that drops the bits below. -/
def accValue (acc : List (Int × Nat)) : Rat :=
  let top := (acc.map (fun t => t.2)).foldl max 0
  let total : Int := acc.foldl (fun t x => t + x.1 / (2 ^ (top - x.2) : Nat)) 0
  (total : Rat) * pow2 ((top : Int) - 110)

/-- The words that a program writes, which hold the state carried over a switch of sets (R170). -/
def stateWords (v : ServoSec) : List Nat :=
  (v.program.filter (fun p => decide (3 ≤ p.toNat % 16) && decide (p.toNat % 16 ≤ 5))).map (fun p => bitsOf p.toNat 15 4)

/-- SVn switches its coefficient set (R170): the state values are carried over unchanged. -/
def switchSet (n : Lane) (c : Nat) (s : State) : State :=
  let old := setInUse s n
  if old = c then s else
  let s := match servoSec s c with
    | some v => forEach (stateWords v) (fun w s =>
        let e := wordExp s n old w
        let s := putMant n c w (wordMant s n old w) s
        match blockOf s c w with | some b => putExp n c b e s | none => s) s
    | none => s
  s.put (F.SVn_STAT_CAD_SET n) c

/-! ### Frames of the motion link (R171 to R175, R200) -/

/-- CRC-8 over bits [55:8] of a frame, bit 8 first (R171). -/
def motionCrc (c v : Nat) : Nat → Nat
  | 0 => c
  | k + 1 => motionCrc (crc8Bit c (v % 2 = 1)) (v / 2) k

/-- CHECK of a frame (R171). -/
def motionCheck (f : Nat) : Nat := motionCrc 0xFF (f / 2 ^ 8) 48

/-- An outbound frame (R171): `payload` holds bits [55:20] from bit 0. -/
def motionFrame (type ch wait payload : Nat) : BitVec 64 :=
  let f := 0xD5 + type % 16 * 2 ^ 8 + ch % 4 * 2 ^ 12 + wait % 64 * 2 ^ 14 + payload % 2 ^ 36 * 2 ^ 20
  BitVec.ofNat 64 (f + motionCheck f * 2 ^ 56)

/-- WAIT of an output word that arrives now (R173): the beats behind earlier frames, 39 at the most. -/
def waitBeats (s : State) : Nat := min 39 ((s.mot.ahead + 3) / 4)

/-- A frame leaves on the motion link, while MOT_CTL.ENABLE is 1 (R172), behind the frames sent before it (R173). -/
def sendMotion (type ch payload : Nat) (s : State) : State :=
  if s.on F.MOT_CTL_ENABLE then
    let w := waitBeats s
    { s with mot := { s.mot with ahead := 4 * w + 16 } }.emit (.motion (motionFrame type ch w payload))
  else s

/-- Beats of the motion link that have passed, beyond those that ticks of ring time have counted (R173, log 39). -/
def beatsPass (k : Nat) (s : State) : State := { s with mot := { s.mot with ahead := s.mot.ahead - 4 * k } }

/-- The motion-port channel of a lane (R637). -/
def channelOf (s : State) (n : Nat) : Nat := match laneRec s n with | some r => r.motionCh | none => n

/-- The lane of a motion-port channel. -/
def laneOfChannel (s : State) (ch : Nat) : Option Lane := lanes.find? (fun n => laneIncluded s n && channelOf s n == ch)

/-- A bit of a frame's field. -/
def frameField (f : BitVec 64) (hi lo : Nat) : Nat := bitsOf f.toNat hi lo

/-- An inbound frame's arrival (R174): one that fails CHECK is discarded and counted, a valid one of TYPE `type` acts by `eff`. -/
def inbound (type : Nat) (f : BitVec 64) (eff : State → State) (s : State) : State :=
  if frameField f 63 56 ≠ motionCheck (frameField f 55 0) then s.count F.MOT_CNT_RX_CRC
  else
    let s := if s.on F.MOT_STAT_LINK_UP then s else { s.put F.MOT_STAT_LINK_UP 1 with spm := { s.spm with volts := [] } }
    let s := { s with mot := { s.mot with status := (f :: s.mot.status).take 32 } }
    if frameField f 11 8 = type then eff s else s

/-- The SHOCK bit of the engine's channel stands (R175). -/
def shockStands (s : State) (n : Lane) : Bool := bitsOf (s.get F.MOT_STAT_SHOCK) (channelOf s n) (channelOf s n) = 1

/-! ### Plans (R186 to R188) -/

/-- Absolute value. -/
def ratAbs (x : Rat) : Rat := if x < 0 then -x else x

/-- Square root rounded down to a multiple of 2⁻³² (log 10). -/
def ratSqrt (x : Rat) : Rat :=
  if x ≤ 0 then 0 else ((Nat.sqrt (x * ((2 ^ 64 : Nat) : Rat)).floor.toNat : Nat) : Rat) / ((2 ^ 32 : Nat) : Rat)

/-- A state after `t` ms of constant jerk. -/
def moveOn (m : Motion) (j t : Rat) : Motion :=
  ⟨m.p + m.v * t + m.a * t * t / 2 + j * t * t * t / 6, m.v + m.a * t + j * t * t / 2, m.a + j * t⟩

/-- The reach segment from (v, a) to (v1, 0) (R187): jerks and durations. -/
def reach (amax jmax v a v1 : Rat) : List (Rat × Rat) :=
  if jmax ≤ 0 ∨ amax ≤ 0 then [] else
  let d := v1 - v
  let sg : Rat := if d - a * ratAbs a / (2 * jmax) ≥ 0 then 1 else -1
  let root := ratSqrt (sg * jmax * d + a * a / 2)
  let ap := sg * (if amax < root then amax else root)
  let th := if ap = 0 then 0 else (d - sg * (2 * ap * ap - a * a) / (2 * jmax)) / ap
  [(sg * jmax, ratAbs (ap - a) / jmax), (0, if th < 0 then 0 else th), (-sg * jmax, ratAbs ap / jmax)]

/-- The state at the end of segments. -/
def runSegs (m : Motion) (l : List (Rat × Rat)) : Motion := l.foldl (fun m x => moveOn m x.1 x.2) m

/-- dist_reach (R187): the signed distance of a reach segment. -/
def distReach (amax jmax v a v1 : Rat) : Rat := (runSegs ⟨0, v, a⟩ (reach amax jmax v a v1)).p

/-- The bisection of R188 for the cruise velocity. -/
def bisect (amax jmax vs as_ e : Rat) : Nat → Rat → Rat → Rat
  | 0, lo, _ => lo
  | k + 1, lo, hi =>
    let mid := (lo + hi) / 2
    if distReach amax jmax vs as_ mid + distReach amax jmax mid 0 0 ≤ e then bisect amax jmax vs as_ e k mid hi
    else bisect amax jmax vs as_ e k lo mid

/-- The plan of R188 from a state to a target position, under limits. -/
def planSegs (vmax amax jmax : Rat) (m : Motion) (t : Rat) : List (Rat × Rat) :=
  let d := distReach amax jmax m.v m.a 0
  let sg : Rat := if m.p + d ≤ t then 1 else -1
  let e := sg * (t - m.p)
  let vs := sg * m.v
  let as_ := sg * m.a
  let vc := bisect amax jmax vs as_ e 24 0 vmax
  let cruise := if 0 < vc then (e - distReach amax jmax vs as_ vc - distReach amax jmax vc 0 0) / vc else 0
  (reach amax jmax vs as_ vc ++ (0, cruise) :: reach amax jmax vc 0 0).map (fun x => (sg * x.1, x.2))

/-- Length of a plan in ms. -/
def planLength (p : Plan) : Rat := p.segs.foldl (fun t x => t + x.2) 0

/-- The state along segments after `t` ms. -/
def alongSegs (m : Motion) : List (Rat × Rat) → Rat → Motion
  | [], _ => m
  | (j, d) :: rest, t => if t ≤ d then moveOn m j t else alongSegs (moveOn m j d) rest (t - d)

/-- The reference of a plan at a plan time (R186, R189): past the end, the target at rest. -/
def planAt (p : Plan) (t : Rat) : Motion := if planLength p < t then ⟨p.target, 0, 0⟩ else alongSegs p.start p.segs t

/-- One wedge of plan time: SVn_PERIOD × 2.5 ÷ 64 ns (R186), in ms. -/
def wedgeMs (s : State) (n : Lane) : Rat := ((s.get (F.SVn_PERIOD_PERIOD n) : Nat) : Rat) / 25600000

/-- The reference at the next wedge's reference (R186). -/
def refAhead (s : State) (n : Lane) : Motion :=
  let v := s.sv n
  match v.plan with
  | some p => planAt p (if p.fresh then 0 else p.time + wedgeMs s n)
  | none => v.ref

/-- A new plan to a target position from a state, under the latched limits (R186, R188). -/
def newPlan (n : Lane) (m : Motion) (target : Rat) (tag : Option (BitVec 8)) (unload : Bool) (s : State) : State :=
  s.onSv n (fun v => { v with plan := some ⟨m, planSegs v.vmax v.amax (16 * v.jmax) m target, target, 0, true, tag, unload⟩ })

/-- The limits latched (R181): a limit of 0 acts as 1. -/
def latchLimits (n : Lane) (s : State) : State :=
  s.onSv n (fun v => { v with vmax := max 1 (s.get (F.SVn_PACE_VMAX_VMAX n)), amax := max 1 (s.get (F.SVn_PACE_AMAX_AMAX n)), jmax := max 1 (s.get (F.SVn_PACE_JMAX_JMAX n)) })

/-- The limits stored as R181 says: at most the ceiling, 0 as 1. -/
def storeLimit (ceil v : Nat) : Nat := max 1 (min ceil v)

/-- Fields of a mailbox entry (R183). -/
def tgtTag (e : Dword) : BitVec 8 := e.extractLsb' 48 8
def tgtOfs (e : Dword) : Int := signed 16 (e.extractLsb' 32 16).toNat
def tgtTrack (e : Dword) : Nat := (e.extractLsb' 0 22).toNat

/-- The target position: TRACK + OFS ÷ 1,000 tracks (R183). -/
def tgtPosition (e : Dword) : Rat := (tgtTrack e : Rat) + (tgtOfs e : Rat) / 1000

/-! ### Motion states (R192 to R198) -/

/-- A target that the engine gives up on the way to it makes source 9 + n pending (R441). -/
def abandonTarget (n : Lane) (s : State) : State :=
  s.iff ((motionState s n == Mo.seek || motionState s n == Mo.settle) && (s.sv n).target.isSome) (fun s => s.irq (9 + n))

/-- An emergency retract begins (R195): heaters off (R95), Tally (R573). Nothing happens in OFF, PARKED or FAULT; in RETRACT it ends the load
command whose next attempt was to follow (R194, R197). -/
def svRetract (n : Lane) (s : State) : State :=
  if motionQuiet s n then s
  else if motionState s n = Mo.retract then s.onSv n (fun v => { v with attempt := 0, again := false })
  else
    let s := (retractSleep n (setMotion n Mo.retract (abandonTarget n s))).tally (16 + actOf s n)
    s.onSv n (fun v => { v with plan := none, restartDue := false, unloadDue := false, uldEnded := false, attempt := 0, again := false, offRetract := false })

/-- The state FAULT: every motion of the engine ends (R192, LINK_DOWN). -/
def svFault (n : Lane) (s : State) : State :=
  (setMotion n Mo.fault (abandonTarget n s)).onSv n (fun v => { v with plan := none, restartDue := false, unloadDue := false, uldEnded := false, attempt := 0, again := false, offRetract := false })

/-- An unload begins (R195, R181): the limits are latched from SETTLE and FOLLOW, kept from SEEK. -/
def svUnload (n : Lane) (s : State) : State :=
  let st := motionState s n
  if st = Mo.follow ∨ st = Mo.seek ∨ st = Mo.settle then
    let s := if st = Mo.seek then s else latchLimits n s
    (retractSleep n (setMotion n Mo.unloading (abandonTarget n s))).onSv n (fun v => { v with target := none, unloadDue := true, uldEnded := false, attempt := 0 })
  else s.flag (F.SVn_PACE_STAT_CMD_REJ n)

/-- A load attempt begins (R194). Trips with no FOLLOW between them go on counting (R191). -/
def svLoad (n : Lane) (attempt : Nat) (s : State) : State :=
  (setMotion n Mo.loading s).onSv n (fun v => { v with attempt := attempt, again := false, loadAt := s.now.toNat, havePred := false, ranged := false, acqCount := 0, miss := 0, feCount := 0, plan := none, target := none })

/-- Servo bits per second of a servo field at the cadence in force (R154): SBPW of the instance for 3,600 rpm, in its 12 × c wedges. -/
def servoBitRate (s : State) : Nat := match servoSec s 0 with | some v => v.sbpw * (12 * (3600 + 1200 * cadence s)) | none => 0

/-- P(c) of the cadence in force, in 1/64 cycle (R157). DESIGN CHOICE: the fraction below 1/64 is dropped (log 39). -/
def nominalPeriod (s : State) : Nat := (400000000 * 64) / (12 * (3600 + 1200 * cadence s))

/-- SVn_PERIOD holds P(c) of the cadence in force until four intervals have been measured after ENABLE (R157). -/
def holdPeriod (n : Lane) (s : State) : State :=
  if motionState s n = Mo.off ∨ 4 ≤ (s.sv n).intervals.length then s else s.put (F.SVn_PERIOD_PERIOD n) (nominalPeriod s)

/-- SVn_CTL.ENABLE becomes 1 (R192). -/
def svEnable (n : Lane) (s : State) : State :=
  let s := s.put (F.SVn_CTL_ENABLE n) 1
  if motionState s n ≠ Mo.off then s
  else
    holdPeriod n ((setMotion n Mo.parked s).onSv n (fun v => { v with intervals := [], interval := none, lastFound := false, havePred := false, ranged := false, widHist := [], offRetract := false }))

/-- SVn_CTL.ENABLE becomes 0 (R192): RETRACT frames with EMER_V for RET_TIME unless the state was OFF. -/
def svDisable (n : Lane) (s : State) : State :=
  let s := s.put (F.SVn_CTL_ENABLE n) 0
  if motionState s n = Mo.off then s
  else
    (retractSleep n (setMotion n Mo.off (abandonTarget n s))).onSv n (fun v => { v with plan := none, restartDue := false, unloadDue := false, uldEnded := false, attempt := 0, again := false, offRetract := true })

/-- The spindle is at speed for a load (R192): SPM is AT_SPEED, or the partner's SPM drives the spindle and this one measures it within LOCK_TOL
of the target (R200, log 23). -/
def speedReady (s : State) : Bool :=
  let target := 10 * (3600 + 1200 * s.spm.goal)
  let v := s.get F.SPM_SPEED_SPEED
  s.on F.SPM_STAT_AT_SPEED || (s.get F.SPM_STAT_STATE == 12 && decide ((if v < target then target - v else v - target) * 10000 ≤ s.get F.SPM_REG_CFG_LOCK_TOL * target))

/-- A command of SVn_PACE_CMD (R192): to a lost lane only clear-fault has an effect. -/
def paceCommand (n : Lane) (code : Nat) (s : State) : State :=
  let st := motionState s n
  if code ≠ 4 ∧ s.glb.lost0.getLsbD (12 + n) then s
  else
    match code with
    | 1 => if st = Mo.parked ∧ speedReady s then svLoad n 1 s else s.flag (F.SVn_PACE_STAT_CMD_REJ n)
    | 2 => svUnload n s
    | 3 => if motionQuiet s n then s.flag (F.SVn_PACE_STAT_CMD_REJ n) else svRetract n s
    | 4 => if st = Mo.fault ∧ s.on F.MOT_STAT_LINK_UP then setMotion n Mo.parked s else s.flag (F.SVn_PACE_STAT_CMD_REJ n)
    | _ => s.flag (F.SVn_PACE_STAT_CMD_REJ n)

/-! ### Wedges (R157 to R165) -/

/-- The Lap counter advances to the next wedge (R160). -/
def lapAdvance (n : Lane) (s : State) : State :=
  let w := s.get (F.SVn_LAP_WEDGE n)
  let s := s.onSv n (fun v => { v with wedges := v.wedges + 1 })
  if w = 719 then (s.put (F.SVn_LAP_WEDGE n) 0).put (F.SVn_LAP_LAP n) (s.get (F.SVn_LAP_LAP n) + 1)
  else s.put (F.SVn_LAP_WEDGE n) (w + 1)

/-- Parameter entries take effect at a reference, in FIFO order (R165): the last head stands. -/
def applyParams (n : Lane) (s : State) : State :=
  match (s.sv n).params.getLast? with
  | none => s.onSv n (fun v => { v with headChanged := false })
  | some h => (s.put (F.SVn_STAT_HEAD n) h.toNat).onSv n (fun v => { v with params := [], headChanged := true })

/-- The switch of sets that waits takes effect at a reference (R170). -/
def applySwitch (n : Lane) (s : State) : State :=
  match (s.sv n).switch with
  | none => s
  | some (c, ends) =>
    let s := (switchSet n c s).onSv n (fun v => { v with switch := none })
    if ends then s.put (F.SVn_STAT_CAD_CHANGE n) 0 else s

/-- Plan time advances and the reference sample of the wedge stands (R186), shown in SVn_PACE_POS. -/
def advancePlan (n : Lane) (s : State) : State :=
  let r := refAhead s n
  let dt := wedgeMs s n
  let s := s.onSv n (fun v => { v with ref := r, plan := v.plan.map (fun p => { p with time := if p.fresh then 0 else p.time + dt, fresh := false }) })
  s.put (F.SVn_PACE_POS_POS n) (unsigned 32 (r.p * 1024).floor)

/-- What every reference brings, found or predicted: parameter entries, the switch of sets, the Lap counter, the reference sample,
and the program from its first slot. -/
def wedgeStart (n : Lane) (s : State) : State :=
  let s := advancePlan n (applySwitch n (applyParams n (lapAdvance n s)))
  let s := s.onSv n (fun v => { v with slot := 0, acc := [], sampled := false, settleWedges := if motionState s n = Mo.settle then v.settleWedges + 1 else v.settleWedges })
  s.onLn n (fun l => { l with rdUnsafe := false })

/-- The interval that ends at this wedge's reference enters the mean once the wedge's sample is taken (R157): the wedge before it did not coast, and
this one does not. DESIGN CHOICE: the mean's fraction below 1/64 cycle is dropped (log 39). -/
def measureInterval (n : Lane) (s : State) : State :=
  match (s.sv n).interval with
  | none => s
  | some i =>
    let l := (i :: (s.sv n).intervals).take 4
    let s := s.onSv n (fun v => { v with intervals := l, interval := none })
    if l.length = 4 then s.put (F.SVn_PERIOD_PERIOD n) ((l.foldl (· + ·) 0) / 4) else s

/-- A SYNC falls inside the search window (R158): within WIN cycles of the last reference plus SVn_PERIOD, eight times that during a cadence change.
DESIGN CHOICE: the window applies once a reference has been found (log 39). -/
def inWindow (s : State) (n : Lane) (interval : Nat) : Bool :=
  let half := 64 * max 1 (s.get (F.SVn_SYNC_CFG_WIN n)) * (if s.on (F.SVn_STAT_CAD_CHANGE n) then 8 else 1)
  let p := s.get (F.SVn_PERIOD_PERIOD n)
  !(s.sv n).ranged || decide ((if interval < p then p - interval else interval - p) ≤ half)

/-- The predicted wedge number, which R160 has already put in SVn_LAP, judged against the decoded number. -/
def judgeWedge (n : Lane) (dec : Option Nat) (s : State) : State :=
  let v := s.sv n
  let pred := s.get (F.SVn_LAP_WEDGE n)
  match dec with
  | none => s.onSv n (fun v => { v with widHist := [] })
  | some d =>
    if !v.havePred then (s.put (F.SVn_LAP_WEDGE n) d).onSv n (fun v => { v with havePred := true, widHist := [] })
    else if d = pred then s.onSv n (fun v => { v with widHist := [] })
    else
      let follows := match v.widHist with | p :: _ => decide ((p + 1) % 720 = d) | [] => false
      let hist := if follows then d :: v.widHist else [d]
      if hist.length < 3 then s.onSv n (fun v => { v with widHist := hist })
      else
        let diff : Int := ((d : Int) - pred + 360) % 720 - 360
        let lap := s.get (F.SVn_LAP_LAP n)
        let s := if 720 ≤ (pred : Int) + diff then s.put (F.SVn_LAP_LAP n) (lap + 1)
          else if (pred : Int) + diff < 0 then s.put (F.SVn_LAP_LAP n) (lap + 2 ^ 22 - 1) else s
        servoFault n 2 ((s.put (F.SVn_LAP_WEDGE n) d).onSv n (fun v => { v with widHist := [] }))

/-- The bits that dibits code, most significant first: 0 as 01, 1 as 10; none where a dibit is neither (R154). -/
def undibit (v : Nat) : Nat → Option Nat
  | 0 => some 0
  | k + 1 =>
    match undibit (v / 4) k with
    | none => none
    | some r => if v % 4 = 1 then some (r * 2) else if v % 4 = 2 then some (r * 2 + 1) else none

/-- The servo address mark and the servo sync mark, first bit leftmost (R154). -/
def servoSam : BitVec 16 := 0b1110010000110101
def servoSync : BitVec 8 := 0b10110001

/-- SAM, WEDGE and TRACK as a servo field carries them, first bit leftmost (R154). -/
def fieldSam (f : BitVec 82) : BitVec 16 := f.extractLsb' 66 16
def fieldWedge (f : BitVec 82) : BitVec 22 := f.extractLsb' 44 22
def fieldTrack (f : BitVec 82) : BitVec 44 := f.extractLsb' 0 44

/-- The wedge number of a servo field, none where its parity fails (R154, R160). DESIGN CHOICE: a number of 720 or more, which no wedge has, counts as
one that fails parity, and so does a dibit that is neither 01 nor 10 (log 39). -/
def decodeWedge (f : BitVec 22) : Option Nat :=
  match undibit f.toNat 11 with
  | some v => if parityBit v 11 = 0 ∧ v / 2 < 720 then some (v / 2) else none
  | none => none

/-- The number that Gray code of `k` bits spells. -/
def ungray (g : Nat) : Nat → Nat
  | 0 => g
  | k + 1 => ungray g k ^^^ (g / 2 ^ (k + 1))

/-- The arc tangents of 2⁻ⁱ, in 2⁻²⁰ of a turn. -/
def cordicTable : List Nat := [131072, 77376, 40884, 20753, 10417, 5213, 2607, 1304, 652, 326, 163, 81, 41, 20]

/-- The vectoring steps of the CORDIC (R156): (x, y) is turned onto the positive x axis and the angle turned through is summed. -/
def cordicSteps : List Nat → Nat → Int → Int → Int → Int
  | [], _, _, _, z => z
  | t :: rest, i, x, y, z =>
    if y = 0 then z
    else if 0 < y then cordicSteps rest (i + 1) (x + y / 2 ^ i) (y - x / 2 ^ i) (z + t)
    else cordicSteps rest (i + 1) (x - y / 2 ^ i) (y + x / 2 ^ i) (z - t)

/-- θ = atan2(a, b) ÷ 2π in 2⁻¹⁴ of a turn (R156), of amplitudes that are not both 0. DESIGN CHOICE: 14 steps with guard bits, rounded to nearest
(log 39). -/
def phaseOf (a b : Int) : BitVec 14 :=
  let z := if b < 0 then cordicSteps cordicTable 0 (-b * 65536) (-a * 65536) 524288 else cordicSteps cordicTable 0 (b * 65536) (a * 65536) 0
  BitVec.ofInt 14 ((z + 32) / 64)

/-- The track number of a servo field: Gray-coded and dibit-coded (R154); none where a dibit is neither. -/
def decodeTrack (f : BitVec 44) : Option Nat := (undibit f.toNat 22).map (fun g => ungray g 21)

/-- The measured position in 1/8,192 track (R156): x = 2θ + 2k nearest to the decoded track, the smaller k at a tie. -/
def measuredPosition (theta track : Nat) : Int :=
  let t : Int := 8192 * track
  let k := (t - theta) / 16384
  let lo := (theta : Int) + 16384 * k
  if t - lo ≤ lo + 16384 - t then lo else lo + 16384

/-- The off-track offset in effect, in 0.1 % of track pitch. -/
def offsetNow (s : State) (n : Lane) : Int := signed 16 (s.get (F.SVn_OFS_OFS n))

/-- The position error in tracks (R156). -/
def pesOf (s : State) (n : Lane) : Rat := ((s.sv n).x : Rat) / 8192 - ((s.sv n).aim : Rat) - (offsetNow s n : Rat) / 1000

/-- The following error in tracks (R190). -/
def feOf (s : State) (n : Lane) : Rat := ((s.sv n).x : Rat) / 8192 - (s.sv n).ref.p

/-- The wedge coasts (R159): COAST shown with the predicted track, write inhibit asserted, the acquisition and settle counts cleared. -/
def coastWedge (n : Lane) (estTrack : Nat) (s : State) : State :=
  let s := (s.put (F.SVn_PES_COAST n) 1).put (F.SVn_TRACK_TRACK n) estTrack
  writeUnsafe n (s.onSv n (fun v => { v with sampled := false, interval := none, acqCount := 0, settleCount := 0 }))

/-- The sector of the open read gate, and its decode jobs, carry the bad wedge (R177). -/
def markUnsafe (n : Lane) (s : State) : State :=
  match (s.ln n).gate with
  | none => s
  | some d =>
    if s.get (F.LNn_STAT_RD_GATE n) = 0 then s else
    let mark := fun (e : Sector) => if e.same d then { e with badWedge := true } else e
    let job := fun (j : DecodeJob) => if j.lane = n ∧ j.kind ≠ .verify then { j with sector := mark j.sector } else j
    let s := s.onLn n (fun l => { l with reads := l.reads.map mark, gate := some { d with badWedge := true } })
    { s with ldp := { s.ldp with waiting := s.ldp.waiting.map job, engines := s.ldp.engines.map (fun e => { e with jobs := e.jobs.map job }) } }

/-- The sectors that the lane is reading count as failed on the fly, and a ladder attempt is abandoned (R177, R124). -/
def readUnsafe (n : Lane) (s : State) : State :=
  markUnsafe n (spoilAttempt n ((servoFault n 3 s).onLn n (fun l => { l with rdUnsafe := true })))

/-- A wedge without a found SYNC counts towards SYNC_LOST only while the heads fly over the pattern (R159). -/
def missCounts (s : State) (n : Lane) : Bool :=
  let st := motionState s n
  st == Mo.acquire || st == Mo.seek || st == Mo.settle || st == Mo.follow || (st == Mo.unloading && !(s.sv n).uldEnded)

/-- The wedge's sample is judged (R156, R177, R178, R190, R193). DESIGN CHOICE: SVn_PES and SVn_PACE_ERR show their value rounded towards minus
infinity and held within 16 bits (log 39). -/
def judgeSample (n : Lane) (s : State) : State :=
  let s := measureInterval n s
  let st := motionState s n
  let pes := pesOf s n
  let code := clampI (-32768) 32767 (pes * 10000).floor
  let s := (s.put (F.SVn_PES_COAST n) 0).put (F.SVn_PES_PES n) (unsigned 16 code)
  let s := s.onSv n (fun v => { v with sampled := true })
  let over_ := fun (lim : Nat) => decide ((lim : Rat) / 1000 < ratAbs pes)
  let s := if over_ (s.get (F.SVn_SAFE_RD_LIM n)) then readUnsafe n s else s
  let s :=
    if over_ (s.get (F.SVn_SAFE_WR_LIM n)) || st != Mo.follow then writeUnsafe n s
    else if shockStands s n then inhibitWrites n s
    else (s.put ((F.LNn_WR_STAT_INH_NOW n).bit 0) 0).onLn n (fun l => { l with safeWedges := l.safeWedges + 1 })
  if st = Mo.acquire then s.onSv n (fun v => { v with acqCount := v.acqCount + 1 })
  else if st = Mo.seek ∨ st = Mo.settle then
    let fe := feOf s n
    let s := s.put (F.SVn_PACE_ERR_FE n) (unsigned 16 (clampI (-32768) 32767 (fe * 16).floor))
    let beyond := decide (((s.get (F.SVn_PACE_FE_LIM n) : Nat) : Rat) / 16 < ratAbs fe)
    let s := if (s.sv n).restartDue then s else s.onSv n (fun v => { v with feCount := if beyond then v.feCount + 1 else 0 })
    if st = Mo.settle then
      let within := !over_ (s.get (F.SVn_PACE_SETTLE_LIM n))
      s.onSv n (fun v => { v with settleCount := if within then v.settleCount + 1 else 0 })
    else s
  else s

/-- The head change of the Relay scheduler enters the parameter FIFO (R165). -/
def sendHead (n : Lane) (h : BitVec 3) (s : State) : State := s.onSv n (fun v => { v with params := v.params ++ [h] })

/-- An entry for the target mailbox (R184, R185): discarded with SRC_REJ from the unselected source; it overwrites an unread one. -/
def mailboxWrite (n : Lane) (firmware : Bool) (e : Dword) (s : State) : State :=
  if s.on (F.SVn_PACE_CTL_SRC n) != firmware then s.flag (F.SVn_PACE_STAT_SRC_REJ n)
  else
    let s := if (s.sv n).mailbox.isSome then s.count (F.SVn_PACE_CNT_OVERWRITE n) else s
    s.onSv n (fun v => { v with mailbox := some e })

end Sys2Proof.Machine
end

