-- ==== Sys2Proof/Machine/Spindle.lean ====
section
/-! DEFINITION. Shared operations of the spindle controller (08_spindle.md): spindle frames (R200 to R203), starts (R206 to R211),
braking (R213), the spin states (R214) and cadence changes (R215 to R219). -/

namespace Sys2Proof.Machine

/-! ### Spin states by name (R214, SPM_STAT.STATE) -/

def Sp.stopped : Nat := 0
def Sp.sense : Nat := 1
def Sp.openLoop : Nat := 2
def Sp.runup : Nat := 3
def Sp.keCheck : Nat := 4
def Sp.locking : Nat := 5
def Sp.atSpeed : Nat := 6
def Sp.changing : Nat := 7
def Sp.braking : Nat := 8
def Sp.retryWait : Nat := 9
def Sp.pfCoast : Nat := 10
def Sp.fault : Nat := 11
def Sp.partner : Nat := 12

/-- SPM_STAT.STATE. -/
def spinState (s : State) : Nat := s.get F.SPM_STAT_STATE

/-- STATE set, with AT_SPEED beside it; a change makes source 17 pending (R441). -/
def setSpin (st : Nat) (s : State) : State :=
  let s := if spinState s = st then s else s.irq 17
  (s.put F.SPM_STAT_STATE st).putB F.SPM_STAT_AT_SPEED (st == Sp.atSpeed)

/-- SPM's own state changed. -/
def State.onSpm (s : State) (f : Spm → Spm) : State := { s with spm := f s.spm }

/-- The SPINDLE section of the image (R638). -/
def spindleSec (s : State) : Option SpindleSec := findSection s.cfg.image (fun d => match d.body with | .spindle p => some p | _ => none)

/-- Pole pairs of the motor; 1 without an image. -/
def polePairs (s : State) : Nat := match spindleSec s with | some p => max 1 p.poles | none => 1

/-- A cadence is declared (R55). -/
def cadenceDeclared (s : State) (c : Nat) : Bool := match spindleSec s with | some p => p.cadences.getLsbD c | none => false

/-- The speed of a cadence code in rpm. -/
def rpmOf (c : Nat) : Nat := 3600 + 1200 * c

/-! ### Frames (R200 to R203, R222) -/

/-- A SPINDLE frame (R200), shown in MOT_SPN_CMD (R222). In PARTNER, SPM sends none. -/
def sendSpindle (step drive ilim pulse : Nat) (s : State) : State :=
  if spinState s = Sp.partner ∨ !s.on F.MOT_CTL_ENABLE then s
  else
    let s := sendMotion 3 0 (step % 8 + drive % 4096 * 2 ^ 3 + ilim % 4096 * 2 ^ 15 + pulse % 256 * 2 ^ 27) s
    ((s.put F.MOT_SPN_CMD_STATE step).put F.MOT_SPN_CMD_DRIVE drive).put F.MOT_SPN_CMD_ILIM ilim

/-- Coast: STATE 6 (R200). -/
def spinCoast (s : State) : State := sendSpindle 6 0 0 0 s

/-- Brake: STATE 7 (R200, R213). -/
def spinBrake (s : State) : State := sendSpindle 7 0 0 0 s

/-- A frame for the spindle command FIFO: STATE, DRIVE, ILIM, PULSE as they stand in the payload (R30, R202). -/
def spindleWord (step drive ilim pulse : Nat) : BitVec 64 :=
  BitVec.ofNat 64 (step % 8 + drive % 4096 * 2 ^ 3 + ilim % 4096 * 2 ^ 15 + pulse % 256 * 2 ^ 27)

/-- An entry put into the spindle command FIFO (R30): beyond 16 the sender waits. -/
def queueSpindle (w : BitVec 64) (s : State) : State := { s with mot := { s.mot with spindle := s.mot.spindle ++ [w] } }

/-- The current limit of ordinary frames (R206, SPM_START_CFG.ILIM). -/
def startIlim (s : State) : Nat := s.get F.SPM_START_CFG_ILIM

/-- The DRIVE of the open-loop profile's present entry (R638): past the last, the last repeats. -/
def profileDrive (s : State) : Nat :=
  match spindleSec s with
  | some p => (p.profile.getD (min s.spm.profileAt (p.profile.length - 1)) (0, 0)).2
  | none => 0

/-- The next commutation (R203): the following step, or STATE 7 while the loop decelerates. -/
def nextCommutation (s : State) : BitVec 64 × State :=
  let st := spinState s
  if st = Sp.openLoop then
    let k := (s.spm.step + 1) % 6
    let w := spindleWord k (profileDrive s) (startIlim s) 0
    (w, s.onSpm (fun m => { m with step := k, profileAt := m.profileAt + 1 }))
  else if s.spm.decel then (spindleWord 7 0 0 0, s)
  else
    let k := (s.spm.step + 1) % 6
    (spindleWord k s.spm.drive (startIlim s) 0, s.onSpm (fun m => { m with step := k }))

/-- The states in which SPM commutates: OPEN, RUNUP, LOCKING, AT_SPEED, CHANGING. -/
def commutates (s : State) : Bool :=
  let st := spinState s
  st == Sp.openLoop || st == Sp.runup || st == Sp.locking || st == Sp.atSpeed || st == Sp.changing

/-- Closed-loop commutation. -/
def closedLoop (s : State) : Bool := commutates s && spinState s != Sp.openLoop

/-- A frame of the FIFO released into the motion-link island (R202): its step is then in force. -/
def releaseSpindle (w : BitVec 64) (s : State) : State :=
  let k := bitsOf w.toNat 2 0
  let s := sendSpindle k (bitsOf w.toNat 14 3) (bitsOf w.toNat 26 15) (bitsOf w.toNat 34 27) s
  if k < 6 then s.onSpm (fun m => { m with inForce := k }) else s

/-! ### Starting (R206, R209, R211) -/

/-- A start attempt begins (R206): SENSE, with the six sensing pulses in the command FIFO. The Ke check belongs to the spin-up, not to the attempt
(R210). -/
def beginAttempt (k : Nat) (s : State) : State :=
  let s := (setSpin Sp.sense s).put F.SPM_STAT_ATTEMPT k
  let pulse := max 1 (s.get F.SPM_START_CFG_PULSE)
  let s := { s with mot := { s.mot with spindle := (List.range 6).map (fun i => spindleWord i 0 0 pulse) } }
  s.onSpm (fun m => { m with restCheck := false, sense := [], pulses := 0, forward := 0, reverse := 0, profileAt := 0, keDone := m.keDone && k != 1, resync := false, probing := false, crossings := [], integ := 0, drive := 0, decel := false, goal := s.get F.SPM_CAD_REQ_CAD, lockRevs := 0, faultRevs := 0, ramping := false, draining := false, brakeDue := none, unparked := false })

/-- The handover speed in 0.1 rpm (R208). -/
def handoverSpeed (s : State) : Nat := 100 * s.get F.SPM_START_CFG_HANDOVER

/-- SPM resynchronises to the zero crossings and enters RUNUP without sensing (R211): a brake ends, and the next crossing gives the step. -/
def resyncRunup (s : State) : State :=
  let s := if spinState s = Sp.braking then spinCoast s else s
  let s := (setSpin Sp.runup s).put F.SPM_STAT_ATTEMPT 1
  let s := { s with mot := { s.mot with spindle := [] } }
  let now : Rat := ((s.get F.SPM_SPEED_SPEED : Nat) : Rat) / 10
  s.onSpm (fun m => { m with restCheck := false, resync := true, probing := false, ref := now, keDone := false, integ := 0, decel := false, goal := s.get F.SPM_CAD_REQ_CAD, lockRevs := 0, faultRevs := 0, brakeDue := none, unparked := false })

/-- A lane's pause ends: its wedges are not charged (R317), and the longest pause shows in SPM_CAD_STAT (R217). -/
def endPause (n : Lane) (s : State) : State :=
  match (s.act (actOf s n)).pausedAt with
  | none => s.onLn n (fun l => { l with drain := false })
  | some w =>
    let t := (s.sv n).wedges - w
    let s := (s.onLn n (fun l => { l with drain := false })).onAct (actOf s n) (fun a => { a with pausedAt := none, pauseW := a.pauseW + t })
    s.put F.SPM_CAD_STAT_LAST_PAUSE (max (s.get F.SPM_CAD_STAT_LAST_PAUSE) (min (2 ^ 24 - 1) ((s.now.toNat - s.spm.drainAt) / 100)))

/-- The lanes' drain is released when a change ends in BRAKING (R216). -/
def releaseDrain (s : State) : State :=
  forEach lanes endPause (s.onSpm (fun m => { m with ramping := false, draining := false }))

/-- BRAKING begins (R213, R214). -/
def enterBraking (after : AfterBrake) (s : State) : State :=
  let s := if spinState s = Sp.changing then releaseDrain s else s
  let s := { s with mot := { s.mot with spindle := [] } }
  spinBrake ((setSpin Sp.braking s).onSpm (fun m => { m with after := after, brakeDue := none, restCheck := false, decel := false, probing := false }))

/-- Where a brake leads that another one already waits for (R205, R214): a fault flag's FAULT stands, and a brake command ends the attempts. -/
def brakeEnd : Option AfterBrake → AfterBrake → AfterBrake
  | some .fault, _ => .fault
  | some .stopped, .retry => .stopped
  | _, after => after

/-- A brake (R213): held until every SVn is in OFF, PARKED or FAULT. -/
def requestBrake (next : AfterBrake) (s : State) : State :=
  let after := brakeEnd s.spm.brakeDue next
  if allQuiet s then enterBraking after s else s.onSpm (fun m => { m with brakeDue := some after })

/-- A held brake begins once every actuator is parked (R213). -/
def brakeIfQuiet (s : State) : State :=
  match s.spm.brakeDue with
  | some a => if allQuiet s then enterBraking a s else s
  | none => s

/-- A turning rotor under R211: resynchronisation at handover speed after a passed Ke check, else a brake before the start. -/
def startTurning (s : State) : State :=
  if decide (handoverSpeed s ≤ s.get F.SPM_SPEED_SPEED) && (s.on F.GLB_RST_STAT_KE_OK || s.bat.peerKe) then resyncRunup s else enterBraking .start s

/-- A start command (R206, R211, R214). -/
def spinStart (s : State) : State :=
  let st := spinState s
  if !allQuiet s then s.flag F.SPM_FLT_REQ_REJ
  else if st = Sp.stopped then s.onSpm (fun m => { m with restCheck := true })
  else if st = Sp.braking ∨ st = Sp.pfCoast ∨ st = Sp.partner then startTurning s
  else s.flag F.SPM_FLT_REQ_REJ

/-- A brake command (R213, R214): in any spinning state. -/
def spinBrakeCommand (s : State) : State :=
  let st := spinState s
  if Sp.sense ≤ st ∧ st ≤ Sp.changing then requestBrake .stopped s else s.flag F.SPM_FLT_REQ_REJ

/-- A clear-fault command (R212, R214): with the spindle stopped. -/
def spinClearFault (s : State) : State :=
  if spinState s = Sp.fault then (setSpin Sp.stopped s).onSpm (fun m => { m with okState := if m.okState = 1 then 2 else m.okState })
  else s.flag F.SPM_FLT_REQ_REJ

/-- A write of SPM_CMD.CMD. -/
def spinCommand (code : Nat) (s : State) : State :=
  match code with
  | 1 => spinStart s
  | 2 => spinBrakeCommand s
  | 3 => spinClearFault s
  | _ => s

/-- POWER_FAIL becomes 1 (R219, R220). -/
def spinPowerFail (s : State) : State :=
  if spinState s = Sp.stopped ∨ spinState s = Sp.pfCoast then s
  else
    let s := spinCoast s
    let s := { s with mot := { s.mot with spindle := [] } }
    (setSpin Sp.pfCoast s).onSpm (fun m => { m with brakeDue := none, restCheck := false, decel := false })

/-- The spindle has stopped while braking (R213, R214). -/
def brakeStopped (s : State) : State :=
  let s := (spinCoast s).put F.SPM_SPEED_SPEED 0
  match s.spm.after with
  | .stopped => setSpin Sp.stopped s
  | .fault => setSpin Sp.fault s
  | .retry => setSpin Sp.retryWait s
  | .start => beginAttempt 1 (setSpin Sp.stopped s)

/-! ### Cadence changes (R170, R215 to R219) -/

/-- SPM signals every SVn (R170): the set to switch to at the next reference. -/
def signalSets (c : Nat) (ends : Bool) (s : State) : State :=
  forEach lanes (fun n s => s.onSv n (fun v => { v with switch := some (c, ends) })) s

/-- The drain of every present lane (R216), signalled to its MSn (R240), by which a ladder attempt is abandoned (R124). -/
def startDrain (s : State) : State :=
  forEach lanes (fun n s => if lanePresent s n then spoilAttempt n ((msInt n 4 (s.onLn n (fun l => { l with drain := true }))).onAct (actOf s n) (fun a => { a with pausedAt := some (s.sv n).wedges })) else s) s

/-- A cadence change begins in AT_SPEED (R216). -/
def startChange (c : Nat) (s : State) : State :=
  let s := startDrain (setSpin Sp.changing s)
  let s := forEach lanes (fun n s => s.put (F.SVn_STAT_CAD_CHANGE n) 1) s
  let s := signalSets (min c (cadence s)) false s
  let s := s.put F.SPM_CAD_STAT_LAST_PAUSE 0
  s.onSpm (fun m => { m with goal := c, draining := true, ramping := false, drainAt := s.now.toNat, lockRevs := 0, faultRevs := 0, ref := (rpmOf (cadence s) : Rat) })

/-- A write of SPM_CAD_REQ (R215, R216, R219). -/
def cadenceRequest (c : Nat) (s : State) : State :=
  let st := spinState s
  if !cadenceDeclared s c then s.flag F.SPM_FLT_REQ_REJ
  else if st = Sp.atSpeed then
    let s := s.put F.SPM_CAD_REQ_CAD c
    if c = cadence s then s else startChange c s
  else if st = Sp.changing then
    let s := s.put F.SPM_CAD_REQ_CAD c
    if c = s.spm.goal then s
    else s.onSpm (fun m => { m with goal := c, ramping := !m.draining, lockRevs := 0 })
  else (s.put F.SPM_CAD_REQ_CAD c).onSpm (fun m => { m with goal := c })

/-- A lane follows the cadence in force (R85, R216): M for its zone, and the heater level of the head that was last sent one. -/
def followCadence (n : Lane) (old : Nat) (s : State) : State :=
  let z := s.get (F.LNn_STAT_ZONE n)
  let h := s.get (F.LNn_STAT_HEAD n)
  if s.get (F.LNn_BPW_BPW n) = 0 then s
  else
    let s' := loadZone n z s
    let was := smGetD 0 (tableKey old 0 h z 0) (s.ln n).tables
    let e := tableGet s' n 0 h z 0
    let level := if smGet (64 * h + 8) (s.ln n).lastSent = some ((was.extractLsb' 16 10).zeroExtend 16) then e.extractLsb' 16 10 else e.extractLsb' 0 10
    s'.onLn n (fun l => { l with setQ := l.setQ ++ [settingFrameOf (BitVec.ofNat 3 h) 0x08 (level.zeroExtend 16)] })

/-- AT_SPEED is reached (R214): from LOCKING a spin-up ends, from CHANGING a cadence change completes and is reported (R216). -/
def reachSpeed (s : State) : State :=
  let changed := spinState s == Sp.changing
  let old := cadence s
  let s := (setSpin Sp.atSpeed s).put F.SPM_STAT_CAD s.spm.goal
  let s := if changed then { s.tally 6 with pwr := { s.pwr with changedAt := some s.now.toNat } } else (s.count F.SPM_CNT_STARTS).tally 4
  let s := signalSets s.spm.goal true s
  let s := forEach lanes (fun n s => if lanePresent s n then followCadence n old (holdPeriod n s) else holdPeriod n s) s
  s.onSpm (fun m => { m with faultRevs := 0, ramping := false, draining := false })

/-- The measured speed is within a tolerance of the target, in units of 100 ppm (R205). -/
def inRegulation (s : State) (tol : Nat) : Bool :=
  let target := 10 * rpmOf s.spm.goal
  let v := s.get F.SPM_SPEED_SPEED
  decide ((if v < target then target - v else v - target) * 10000 ≤ tol * target)

/-- A count in regulation of one revolution (R214): AT_SPEED after LOCK_REVS in a row. -/
def countLock (s : State) : State :=
  if !inRegulation s (s.get F.SPM_REG_CFG_LOCK_TOL) then s.onSpm (fun m => { m with lockRevs := 0 })
  else
    let s := s.onSpm (fun m => { m with lockRevs := m.lockRevs + 1 })
    if max 1 (s.get F.SPM_CAD_CFG_LOCK_REVS) ≤ s.spm.lockRevs then reachSpeed s else s

/-- The speed reference moved towards the target by at most `d` rpm (R208, R215, R216); `true` where it stands at the target. -/
def moveRef (d : Rat) (s : State) : Bool × State :=
  let goal : Rat := (rpmOf s.spm.goal : Rat)
  let r := s.spm.ref
  let r' := if r < goal then (if goal < r + d then goal else r + d) else (if r - d < goal then goal else r - d)
  (decide (r' = goal), s.onSpm (fun m => { m with ref := r' }))

/-- The speed loop (R204): DRIVE by proportional-integral action, with the gains of the target cadence; below zero it decelerates. -/
def speedLoop (s : State) : State :=
  match spindleSec s with
  | none => s
  | some p =>
    let (kp, ki) := p.gains.getD s.spm.goal (0, 0)
    let err : Rat := s.spm.ref - ((s.get F.SPM_SPEED_SPEED : Nat) : Rat) / 10
    let integ := s.spm.integ + err
    let out := (((kp : Rat) * err + (ki : Rat) * integ) / 65536).floor
    s.onSpm (fun m => { m with integ := integ, drive := (clampI 0 4095 out).toNat, decel := decide (out < 0) })

/-- The floating phase and the polarity of the crossing that belongs to a step (PRESUMED, the usual six-step order, log 12). -/
def stepCrossing (k : Nat) : Nat × Bool :=
  match k % 6 with
  | 0 => (2, false)
  | 1 => (1, true)
  | 2 => (0, false)
  | 3 => (2, true)
  | 4 => (1, false)
  | _ => (0, true)

/-- The step in which a crossing falls (R211); in coast, phase 3 is the line voltage U to V, which crosses where U's own step begins (PRESUMED,
log 12). -/
def crossingStep (phase : Nat) (rise : Bool) : Nat :=
  if phase = 3 then (if rise then 4 else 1) else ((List.range 6).find? (fun k => stepCrossing k == (phase, rise))).getD 0

/-- The peak |V_FLOAT| of the last 2 ms, in mV (R206, R213). -/
def peakVolts (s : State) : Nat := s.spm.volts.foldl max 0

/-- The time of the last mechanical revolution in ns, from its 6 × pole-pairs crossing intervals (R204). -/
def revolution (s : State) : Option Nat :=
  match s.spm.crossings, s.spm.crossings[6 * polePairs s]? with
  | a :: _, some b => if b < a then some (a - b) else none
  | _, _ => none

end Sys2Proof.Machine
end

