-- ==== Sys2Proof/Machine/Pair.lean ====
section
/-! DEFINITION. Shared operations of the partner pair (19_partner_pair.md): ownership of actuators (R478), the Baton link's credits,
sending and receiving (R484 to R487), protected-cache mode (R489), and the SEQ counter under its ceiling (R254, R493). -/

namespace Sys2Proof.Machine

/-- This chip owns actuator `a` (R478): every actuator in a SINGLE image. -/
def owns (s : State) (a : Nat) : Bool := imageRole s == 0 || s.get ((F.BAT_OWN_STAT_ACK).bit a) == 1

/-- The lane is present, its actuator owned by this chip, and it is not lost. -/
def ownLane (s : State) (n : Lane) : Bool := lanePresent s n && owns s (actOf s n)

/-- An actuator that this chip owns and whose lane is present (R20, R478). -/
def ownAct (s : State) (a : Lane) : Bool := match laneFor s a with | some n => ownLane s n | none => false

/-- A field of BAT_STAT set; a change makes source 39 pending (R503). -/
def State.batStat (s : State) (f : Fld) (v : Nat) : State :=
  let s' := s.put f v
  if s'.reg R.BAT_STAT = s.reg R.BAT_STAT then s' else s'.irq 39

/-- The conditions of protected-cache mode (R489). -/
def protectedCache (s : State) : Bool :=
  s.on F.BAT_CTL_PCACHE && s.on F.BAT_STAT_LINK_UP && s.on F.BAT_STAT_PEER_OK && !s.on F.GLB_MODE_COND_PARTNER_LOST &&
  !s.on F.GLB_MODE_COND_PAIR_MISMATCH

/-- BAT_STAT.MIRRORING shows protected-cache mode (R489). -/
def showMirroring (s : State) : State := s.batStat F.BAT_STAT_MIRRORING (b2n (protectedCache s))

/-- Protected-cache mode is in force. -/
def mirroring (s : State) : Bool := s.on F.BAT_STAT_MIRRORING

/-- Journal entries go to the partner (R491, R501): in protected-cache mode, and while a partner in PARTNER_STANDBY follows the map image that
resynchronises it. -/
def feedsPartner (s : State) : Bool := mirroring s || (s.bat.phase != 0 && s.on F.BAT_STAT_LINK_UP && s.mode != Mode.partnerStandby)

/-- Writes and records are mirrored (R490, R491, R501): in protected-cache mode, and from phase 3 of a resynchronisation on. -/
def mirrorsWrites (s : State) : Bool := mirroring s || (decide (3 ≤ s.bat.phase) && s.on F.BAT_STAT_LINK_UP && s.mode != Mode.partnerStandby)

/-- The link may run: BAT is present in the image and not lost, and no link loss stands (R497, R503). -/
def batonUp (s : State) : Bool := s.on F.BAT_STAT_LINK_UP

/-! ### Messages (R485 to R487) -/

/-- The message may be sent with PAIR_MISMATCH = 1 (R496). -/
def msgAlways : BatMsg → Bool
  | .hello .. => true
  | .heartbeat .. => true
  | _ => false

/-- Credits freed here and not yet carried back, shown by INFLIGHT (R487, R503). -/
def setFreed (n : Nat) (s : State) : State :=
  let s := s.put F.BAT_CRED_INFLIGHT (b2n (n != 0))
  { s with bat := { s.bat with freed := n } }

/-- Entries of the transmit FIFO: of the messages sent that ACKSEQ does not cover (R484). -/
def txHeld (s : State) : Nat := s.bat.unacked.foldl (fun k e => k + msgLen e.2.2 + 1) 0

/-- The message may go now: the transmit FIFO of 256 entries has room (R30), and the credits suffice (R487). -/
def mayPut (s : State) (m : BatMsg) : Bool := decide (txHeld s + msgLen m + 1 ≤ 256) && decide (msgLen m + 1 ≤ s.get F.BAT_CRED_AVAIL)

/-- Nothing may be sent: the link is down, or POWER_FAIL stands (R502). -/
def sendBarred (s : State) : Bool := !batonUp s || s.on F.GLB_MODE_COND_POWER_FAIL

/-- One message put on the link (R484, R487): it spends LEN + 1 credits, carries ACKSEQ and the credits freed, and stays until ACKSEQ covers
it. -/
def batPut (tag : BitVec 32) (m : BatMsg) (s : State) : State :=
  let b := s.bat
  let credit := BitVec.ofNat 16 b.freed
  let s := s.emit (.baton b.txNext b.rxNext credit tag m (msgBytes b.txNext b.rxNext credit tag m))
  let s := setFreed 0 (s.put F.BAT_CRED_AVAIL (s.get F.BAT_CRED_AVAIL - (msgLen m + 1)))
  { s with bat := { s.bat with txNext := b.txNext + 1, unacked := b.unacked ++ [(b.txNext, tag, m)] } }

/-- A message to the partner: sent, or kept until the credits suffice (R487); nothing is sent while the link is down, and only HELLO and
HEARTBEAT under a mismatch (R496). -/
def batSend (tag : BitVec 32) (m : BatMsg) (s : State) : State :=
  if sendBarred s || (s.on F.GLB_MODE_COND_PAIR_MISMATCH && !msgAlways m) then s
  else if s.bat.waitTx.isEmpty && mayPut s m then batPut tag m s
  else { s with bat := { s.bat with waitTx := s.bat.waitTx ++ [(tag, m)] } }

/-- The messages of a list that the credits now let go, in order (R487); none after POWER_FAIL (R502), and under a mismatch those that may not be sent
are given up (R496). -/
def batDrain : List (BitVec 32 × BatMsg) → State → State
  | [], s => { s with bat := { s.bat with waitTx := [] } }
  | (tag, m) :: rest, s =>
    if s.on F.GLB_MODE_COND_PAIR_MISMATCH && !msgAlways m then batDrain rest s
    else if !sendBarred s && mayPut s m then batDrain rest (batPut tag m s)
    else { s with bat := { s.bat with waitTx := (tag, m) :: rest } }

/-- A fresh TAG (R485). -/
def newTag (s : State) : BitVec 32 × State :=
  (BitVec.ofNat 32 s.bat.nextTag, { s with bat := { s.bat with nextTag := (s.bat.nextTag + 1) % (2 ^ 32 - 1) } })

/-- Next SEQ of BND's counter (R254). -/
def seqNext (s : State) : Nat := (s.pair R.BND_SEQ_LO R.BND_SEQ_HI).toNat

/-- BND's counter set. -/
def putSeq (v : Nat) (s : State) : State := s.setPair R.BND_SEQ_LO R.BND_SEQ_HI (BitVec.ofNat 64 v)

/-- `k` further values may be assigned (R493): below the ceiling that the partner acknowledged, while the partner is met. -/
def seqRoom (s : State) (k : Nat) : Bool :=
  imageRole s == 0 || !s.on F.BAT_STAT_PEER_OK || decide (seqNext s + k ≤ s.bat.ceiling)

/-- Actuators whose owned lanes are lost, as bits (R486, HEARTBEAT): the two chips share actuator numbers, not lane numbers (R20, log 30). -/
def ownedLost (s : State) : BitVec 4 :=
  BitVec.ofNat 4 ((lanes.map (fun (a : Lane) => b2n (owns s a && s.glb.lost0.getLsbD (12 + laneNo s a)) * 2 ^ a.val)).sum)

/-- The heartbeat of this chip (R486, R493). -/
def heartbeatMsg (s : State) : BatMsg :=
  .heartbeat s.mode (BitVec.ofNat 4 (s.get F.BAT_OWN_STAT_ACK)) (ownedLost s) (s.on F.GLB_RST_STAT_KE_OK) (mirroring s) s.bat.resynced s.bat.offered
    (s.pair R.BAT_SEQ_CEIL_LO R.BAT_SEQ_CEIL_HI).toNat

/-- Toggling, and with it heartbeats, is permitted (R482, R497). -/
def mayToggle (s : State) : Bool :=
  s.mode != Mode.off && s.mode != Mode.service && !s.on F.GLB_MODE_COND_SET_LOST && s.glb.cfgReset == .none && !s.glb.porHeld

/-- A HEARTBEAT sent (R497), with a new SEQ ceiling when the counter comes within 2²³ of the acknowledged one (R493); an offer not yet acknowledged is
repeated as it stands (log 30). -/
def sendHeartbeat (s : State) : State :=
  if !mayToggle s then s
  else
    let s := if s.bat.ceiling < seqNext s + 2 ^ 23 ∧ s.bat.offered ≤ s.bat.ceiling then { s with bat := { s.bat with offered := seqNext s + 2 ^ 24 } } else s
    batSend 0 (heartbeatMsg s) s

/-- LSEQ `a` lies before `b` on the wrapping count. -/
def lseqBefore (a b : BitVec 16) : Bool := a != b && decide ((b - a).toNat < 2 ^ 15)

/-- A received message (R484, R487): one out of order is discarded and counted, its entries returned as credit; one in order is taken,
what its ACKSEQ covers leaves the transmit FIFO, its CREDIT is added, and the messages that waited go. With nothing else to carry
the credits a HEARTBEAT goes early, but not in answer to one. A valid message ends a suspicion (R497). -/
def batReceive (h : BatHdr) (m : BatMsg) (eff : State → State) (s : State) : State :=
  if !batonUp s then s
  else
    let s := setFreed (s.bat.freed + msgLen m + 1) s
    if h.lseq ≠ s.bat.rxNext then s.count F.BAT_CNT_CRC_ERR
    else
      let s := { s with bat := { s.bat with rxNext := s.bat.rxNext + 1, unacked := s.bat.unacked.filter (fun e => !lseqBefore e.1 h.ackseq) } }
      let s := s.put F.BAT_CRED_AVAIL (min 256 (s.get F.BAT_CRED_AVAIL + h.credit.toNat))
      let s := batDrain s.bat.waitTx (s.batStat F.BAT_STAT_SUSPECT 0)
      let s := eff s
      match m with
      | .heartbeat .. => s
      | _ => if s.bat.freed = 0 then s else sendHeartbeat s

/-- A record change sent to the partner while records are mirrored, and the slot that waits for its RACK (R491, R492). -/
def batRecord (m : BatMsg) (slot : Option Nat) (s : State) : State :=
  if !mirrorsWrites s then s
  else
    let (tag, s) := newTag s
    let s := match slot with
      | some k => { s with bat := { s.bat with racks := s.bat.racks ++ [⟨tag.toNat, k⟩] } }
      | none => s
    batSend tag m s

end Sys2Proof.Machine
end

