-- ==== Sys2Proof/Machine/HostOps.lean ====
section
/-! DEFINITION. Shared operations of the host side (13_host_ports_and_functions.md, 14_queues_ordering_completion.md): controllers and their
resources (R328 to R330), namespaces and their actuator sets (R251, R337, R479), the command-table ledger (R355), results,
asynchronous events (R341), and ANA states (R348, R350). -/

namespace Sys2Proof.Machine

/-! ### Functions (R327 to R329) -/

/-- The port of a function index modulo 128 (R328). -/
def portOf (fn : Nat) : Nat := fn % 128 / 64

/-- The function is a PF (R327). -/
def isPf (fn : Nat) : Bool := fn % 64 == 0

/-- The chip number in indexes and controller IDs (R328): 1 for chip B. -/
def chipNo (s : State) : Nat := if imageRole s = 2 then 1 else 0

/-- CNTLID of a function of this chip (R328). -/
def cntlidOf (s : State) (fn : Nat) : Nat := chipNo s * 128 + fn + 1

/-- The function exists: its port is configured and the host has enabled it among the VFs declared (R324, R327). -/
def functionExists (s : State) (fn : Nat) : Bool :=
  match hostSec s with
  | some h =>
    let p := portOf fn
    (p == 0 || h.ports == 1) && (isPf fn || (s.get (F.HIFn_FN_STAT_VF_EN p) == 1 && decide (fn % 64 ≤ s.get (F.HIFn_FN_STAT_NUMVF p))))
  | none => false

/-- Qp = ⌊QP_MAX ÷ ports⌋ (R329). -/
def qpOf (s : State) : Nat := match hostSec s with | some h => h.qpMax / (if h.ports = 1 then 2 else 1) | none => 0

/-- TotalVFs of a port (R327). -/
def totalVfs (s : State) (port : Nat) : Nat := match hostSec s with | some h => if port = 0 then h.vf0 else h.vf1 | none => 0

/-- Private VQ and VI resources of a PF (R329). -/
def privateVq (s : State) : Nat := min 64 (qpOf s) + 1

/-- Flexible resources of a port's pool (R329). -/
def flexibleTotal (s : State) (port : Nat) : Nat := qpOf s - min 64 (qpOf s) + totalVfs s port

/-- A controller as it stands before a host enables it (logs 17, 18). -/
def ctrlNew (pf : Bool) : Ctrl := ⟨false, false, false, pf, 0, 0, [], [], 0, 0, true, [], [], 0, [], [], [], 0, 0, [], []⟩

def State.ctrl (s : State) (fn : Nat) : Ctrl := smGetD (ctrlNew (isPf fn)) fn s.qe.ctrls
def State.setCtrl (s : State) (fn : Nat) (c : Ctrl) : State := { s with qe := { s.qe with ctrls := smPut (ctrlNew (isPf fn)) fn c s.qe.ctrls } }
def State.onCtrl (s : State) (fn : Nat) (f : Ctrl → Ctrl) : State := s.setCtrl fn (f (s.ctrl fn))

/-- VQ resources that a controller holds (R329, R330). -/
def vqOf (s : State) (fn : Nat) : Nat := if isPf fn then privateVq s else (s.ctrl fn).vq

/-- VI resources that a controller holds, its MSI-X table size (R329). -/
def viOf (s : State) (fn : Nat) : Nat := if isPf fn then privateVq s else (s.ctrl fn).vi

/-- The functions of this chip. -/
def functions : List Nat := List.range 128

/-! ### Namespaces (R251, R328, R337, R347, R479) -/

/-- BAND_SECTORS (R248, R642). -/
def bandSectors (s : State) : Nat :=
  match findSection s.cfg.image (fun d => match d.body with | .bands b => some b.code | _ => none) with
  | some 0 => 32768
  | some 1 => 65536
  | some 2 => 131072
  | _ => 65536

/-- The namespace of an NSID: its index is one less (log 19). -/
def nsIndex (nsid : Nat) : Nat := nsid - 1

/-- A namespace's table entry. -/
def nsEntry (s : State) (k : Nat) : Option NsEntry := smGet k s.bnd.ns

/-- The namespace of an NSID, where it is attached to the controller of a function (R337). -/
def attachedNs (s : State) (fn nsid : Nat) : Option (Nat × NsEntry) :=
  if nsid = 0 then none
  else match nsEntry s (nsIndex nsid) with
    | some e => if e.attached.contains (cntlidOf s fn) then some (nsIndex nsid, e) else none
    | none => none

/-- Blocks of a namespace: NSZE = NCAP (R344). -/
def nsSize (s : State) (e : NsEntry) : Nat := e.count * bandSectors s

/-- First device LBA of a namespace (R251). -/
def nsBase (s : State) (e : NsEntry) : Nat := e.base * bandSectors s

/-- The namespace that a device LBA belongs to. -/
def nsOfLba (s : State) (lba : Nat) : Option (Nat × NsEntry) :=
  s.bnd.ns.find? (fun p => decide (nsBase s p.2 ≤ lba) && decide (lba < nsBase s p.2 + nsSize s p.2))

/-- Metadata code of an LBA format (R343): the tag's META. -/
def metaCode (lbaf : Nat) : Nat := lbaf

/-- An actuator set as a list (R347). -/
def actsOf (m : BitVec 4) : List Lane := lanes.filter (fun a => m.getLsbD a)

/-- This chip is the home of a namespace (R479). -/
def isHome (s : State) (e : NsEntry) : Bool :=
  lanes.all (fun a => owns s a) || (match actsOf e.set_ with | a :: _ => owns s a | [] => true)

/-! ### The command table (R355, R356, R361) -/

/-- A slot of the command table. -/
def State.slot (s : State) (k : Nat) : Option Slot := smGet k s.qe.slots

/-- Runs of a command (R361). -/
def runCount (x : Slot) : Nat := x.reads.length + x.writes.length

/-- Runs in the tracker: those of every command but one that waits for room (R367). -/
def runsIn (s : State) : Nat := (s.qe.slots.map (fun p => if p.2.fon.isSome && s.qe.stuck != some p.1 then runCount p.2 else 0)).sum

/-- A CQ is full (R373). -/
def cqFull (c : Cq) : Bool := (c.tail + 1) % max 1 c.size == c.head

/-- QE_SLOT_FREE and QE_SLOT_HELD show the ledger, QE_HAZ_STAT the runs (R355, R361, R381). -/
def showSlots (s : State) : State :=
  let all := s.qe.slots.map (fun p => p.2)
  let held := (all.filter (fun x => x.state == .held)).length
  let full := (s.qe.ctrls.map (fun c => (c.2.cqs.filter (fun q => cqFull q.2)).length)).sum
  let s := (s.put F.QE_SLOT_FREE_FREE (16384 - all.length)).put F.QE_SLOT_FREE_ACTIVE (all.length - held)
  (((s.put F.QE_SLOT_HELD_HELD held).put F.QE_SLOT_HELD_CQ_FULL (min 65535 full)).put F.QE_HAZ_STAT_RUNS (runsIn s)).putB F.QE_HAZ_STAT_FULL s.qe.stuck.isSome

/-- A command that waited for the tracker enters it once its runs fit in 65,536 (R367). -/
def unstick (s : State) : State :=
  match s.qe.stuck with
  | some k =>
    match smGet k s.qe.slots with
    | some x =>
      if runsIn s + runCount x ≤ 65536 then { s with qe := { s.qe with stuck := none, slots := smSet k { x with state := .waiting } s.qe.slots } } else s
    | none => { s with qe := { s.qe with stuck := none } }
  | none => s

/-- The work that a slot asked for is forgotten: nothing of it is left in the pool, and what an actuator does runs to its end for no command
(R331, R377). -/
def dropWork (k : Nat) (s : State) : State :=
  let mine := fun (r : WorkReq) => r.for_ == .host k
  let gone := fun (i : Item) => if mine i.req then { i with req := { i.req with for_ := .host 16384 } } else i
  let r := s.rly
  { s with rly := { r with requests := r.requests.filter (fun q => !mine q), pool := r.pool.filter (fun i => !mine i.req || i.forwarded), acts := r.acts.map (Act.mapItems gone) } }

def State.setSlot (s : State) (k : Nat) (x : Slot) : State := showSlots { s with qe := { s.qe with slots := smSet k x s.qe.slots } }

/-- The slot becomes FREE (R355). -/
def freeSlot (k : Nat) (s : State) : State := let s := dropWork k s; showSlots (unstick { s with qe := { s.qe with slots := smErase k s.qe.slots } })

def State.onSlot (s : State) (k : Nat) (f : Slot → Slot) : State := match s.slot k with | some x => s.setSlot k (f x) | none => s

/-- Slots that a function holds, HELD included (R356). -/
def slotsOf (s : State) (fn : Nat) : Nat := (s.qe.slots.filter (fun p => p.2.fn == fn)).length

/-- A successful result. -/
def okResult : Result := ⟨.success, false, 0, 0, []⟩

/-- A failure, DNR = 1 (R372). -/
def failResult (st : NvStatus) : Result := ⟨st, true, 0, 0, []⟩

/-- A failure that may be retried, DNR = 0 (R375). -/
def retryResult (st : NvStatus) : Result := ⟨st, false, 0, 0, []⟩

/-- A command's result is ready: its completion may be posted. A command whose completion is dropped leaves its slot (R331, R378). -/
def finish (k : Nat) (r : Result) (s : State) : State :=
  match s.slot k with
  | some x => if x.result.isSome then s else if x.dropped then freeSlot k s else s.setSlot k { x with result := some r }
  | none => s

/-- A command fails on a block (R376): the lowest failing LBA is kept. -/
def failBlock (k lba : Nat) (r : Result) (s : State) : State :=
  finish k r (s.onSlot k (fun x => { x with failLba := some (match x.failLba with | some b => min b lba | none => lba) }))

/-- Writes go through a controller with WCE = 0, or carry FUA (R338, R369). -/
def writesThrough (s : State) (x : Slot) : Bool := x.cmd.fua || !(s.ctrl x.fn).wce

/-- Some block of the command's snapshot is still on its way from the media. -/
def mediaLeft (x : Slot) : Bool := match x.snap with | some l => l.any (fun e => match e.2 with | .media _ => true | _ => false) | none => false

/-- The snapshot with the blocks of a run unreadable. -/
def Slot.lose (x : Slot) (lba n : Nat) : Slot :=
  { x with snap := x.snap.map (fun l => l.map (fun e => if lba ≤ e.1 ∧ e.1 < lba + n then (e.1, .bad) else e)) }

/-- Blocks from `lba` on that a command reads have failed with a result (R376): the command ends with the result of its lowest failing block, once no
block of it is still being read. -/
def failRead (k lba n : Nat) (r : Result) (s : State) : State :=
  match s.slot k with
  | some x =>
    let y := x.lose lba n
    let lower := match x.failLba with | some b => decide (lba < b) | none => true
    let y : Slot := if lower then { y with failLba := some lba, failed := some r } else y
    if mediaLeft y then s.setSlot k y else finish k (y.failed.getD r) (s.setSlot k y)
  | none => s

/-- Slots in order whose command satisfies a test. -/
def slotsWhere (s : State) (p : Slot → Bool) : List Nat := (s.qe.slots.filter (fun e => p e.2)).map (fun e => e.1)

/-- The runs touch a device LBA of a namespace. -/
def runsTouch (runs : List (Nat × Nat × Nat)) (lba : Nat) : Bool := runs.any (fun r => decide (r.2.1 ≤ lba) && decide (lba < r.2.1 + r.2.2))

/-- Commands that read a device LBA whose data has not been moved. -/
def readersOf (s : State) (lba : Nat) : List Nat := slotsWhere s (fun x => runsTouch x.reads lba && x.result.isNone)

/-- A sanitize or a format, the activities of R40. -/
def isActivity : HostOp → Bool
  | .sanitize _ => true
  | .format .. => true
  | _ => false

/-! ### Readiness by mode (R332) -/

/-- The modes in which a controller reports RDY and admin commands are served (R332). -/
def readyMode (m : Nat) : Bool := decide (Mode.spinup ≤ m) && decide (m ≤ Mode.partnerStandby)

/-- The port of a function is present (R41). -/
def portPresent (s : State) (port : Nat) : Bool := if port = 0 then s.on F.GLB_UNIT_OK0_HIF0 else s.on F.GLB_UNIT_OK0_HIF1

/-- CSTS.RDY of every enabled controller that has its admin queues, where the mode lets it report ready (R332). -/
def readyControllers (s : State) : State :=
  if !readyMode s.mode then s
  else
    forEach functions (fun fn s =>
      let c := s.ctrl fn
      if c.en && !c.rdy && c.online && (smGet 0 c.sqs).isSome then s.setCtrl fn { c with rdy := true } else s) s

/-! ### Asynchronous events (R336, R338, R341) -/

/-- The mask bit of an event (feature 0x0B): SMART by information, namespace attribute, ANA change, zone descriptor; the others
have none. -/
def aenMaskBit (type info : Nat) : Option Nat :=
  match type, info with
  | 1, 0 => some 2
  | 1, 1 => some 1
  | 1, 2 => some 0
  | 2, 0 => some 8
  | 2, 3 => some 11
  | 2, 0xEF => some 27
  | _, _ => none

/-- The event is enabled at a controller; feature 0x0B enables every event until it is set (log 17). -/
def aenEnabled (c : Ctrl) (type info : Nat) : Bool :=
  match aenMaskBit type info, smGet 0x0B c.feats with
  | some b, some v => decide (v / 2 ^ b % 2 = 1)
  | _, _ => true

/-- Key of an event type and its log page among the types masked until the page is read. -/
def aenKey (type lid : Nat) : Nat := 16 * type + lid % 16

/-- An asynchronous event at one controller: the oldest outstanding request completes with it; a type already reported and not yet read, a
masked event, and one with no request outstanding raise nothing. -/
def asyncEvent (fn type info lid : Nat) (s : State) : State :=
  let c := s.ctrl fn
  if !aenEnabled c type info || decide (c.masked / 2 ^ aenKey type lid % 2 = 1) then s
  else
    match c.aer with
    | [] => s
    | k :: rest =>
      let s := s.setCtrl fn { c with aer := rest, masked := c.masked ||| 2 ^ aenKey type lid }
      finish k ⟨.success, false, type + info * 256 + lid * 65536, 0, []⟩ s

/-- An event at every controller of this chip that is enabled. -/
def asyncEventAll (type info lid : Nat) (s : State) : State :=
  forEach (functions.filter (fun fn => (s.ctrl fn).rdy)) (fun fn s => asyncEvent fn type info lid s) s

/-- A namespace's attributes changed (R346): it enters the changed list of the controllers concerned, which are told. -/
def nsChanged (k : Nat) (ctrls : List Nat) (s : State) : State :=
  forEach (functions.filter (fun fn => ctrls.contains (cntlidOf s fn))) (fun fn s =>
    asyncEvent fn 2 0 0x04 (s.onCtrl fn (fun c => { c with changed := c.changed.filter (fun x => x != k + 1) ++ [k + 1] }))) s

/-! ### Asymmetric namespace access (R347 to R350) -/

/-- A lane is lost on the chip that owns its actuator (R348). -/
def laneLostOnOwner (s : State) (a : Lane) : Bool :=
  if owns s a then s.glb.lost0.getLsbD (12 + laneNo s a) else s.bat.peerLost.getLsbD a

/-- Ownership of an actuator is moving between the chips (R348, R498, R501). -/
def ownershipMoving (s : State) (a : Lane) : Bool :=
  s.bat.releasing.getLsbD a || (s.bat.claimed.getLsbD a && (s.get F.BAT_STAT_FAILOVER == 1 || s.get F.BAT_STAT_FAILOVER == 2))

/-- Commands and extents may be forwarded to the partner (R496, R503). -/
def forwarding (s : State) : Bool :=
  s.on F.BAT_CTL_FWD_EN && batonUp s && s.on F.BAT_STAT_PEER_OK && !s.on F.GLB_MODE_COND_PAIR_MISMATCH && !s.on F.GLB_MODE_COND_PARTNER_LOST

/-- The ANA state of a group through this chip's controllers (R348): 1 Optimized, 2 Non-optimized, 3 Inaccessible, 4 Persistent Loss,
15 Change. -/
def anaState (s : State) (g : Nat) : Nat :=
  let set := actsOf (BitVec.ofNat 4 g)
  if set.any (fun a => !actIncluded s a) then 4
  else if set.any (ownershipMoving s) then 15
  else if set.any (fun a => laneLostOnOwner s a || (!owns s a && !forwarding s)) then 3
  else if set.all (fun a => owns s a) then 1
  else 2

/-- The status of a command refused for its group's state (R349). -/
def anaRefusal (st : Nat) : Option NvStatus :=
  match st with
  | 3 => some .anaInaccessible
  | 4 => some .anaPersistentLoss
  | 15 => some .anaTransition
  | _ => none

/-- The ANA states evaluated again: a change of a group raises a notice to the controllers that have a namespace of it attached (R350). -/
def anaUpdate (s : State) : State :=
  if s.cfg.image.isNone then s
  else
    forEach ((List.range 16).drop 1) (fun g s =>
      let st := anaState s g
      if smGetD 0 g s.qe.ana = st then s
      else
        let s := { s with qe := { s.qe with ana := smPut 0 g st s.qe.ana, anaChanges := s.qe.anaChanges + 1 } }
        let in_ := fun fn => s.bnd.ns.any (fun p => p.2.set_.toNat == g && p.2.attached.contains (cntlidOf s fn))
        forEach (functions.filter in_) (fun fn s => asyncEvent fn 2 3 0x0C s) s) s

end Sys2Proof.Machine
end

