-- ==== Sys2Proof/Machine/Buffer.lean ====
section
/-! DEFINITION. Buffer memory (16_buffer_memory.md, R405 to R432): the code word, poison, the page ledger, cached blocks, the lost-write list,
the merge buffer, the correctable-error table, scrubbing and the bandwidth arbiter's epochs. -/

namespace Sys2Proof.Machine

def State.onBuf (s : State) (f : Buf → Buf) : State := { s with buf := f s.buf }

/-! ### The code word (R407 to R409) -/

/-- Product by α = x in GF(2⁶⁴) of x⁶⁴ + x⁴ + x³ + x + 1. -/
def gx (v : BitVec 64) : BitVec 64 := if v.msb then (v <<< 1) ^^^ 0x1B else v <<< 1

/-- Product by α^i. -/
def gxPow : Nat → BitVec 64 → BitVec 64
  | 0, v => v
  | i + 1, v => gxPow i (gx v)

/-- Product in GF(2⁶⁴), the `n` low bits of `b` taken. -/
def gmulN (a : BitVec 64) (b : Nat) : Nat → BitVec 64
  | 0 => 0
  | n + 1 => (if b % 2 = 1 then a else 0) ^^^ gmulN (gx a) (b / 2) n

def gmul (a b : BitVec 64) : BitVec 64 := gmulN a b.toNat 64

/-- 1 ÷ (α⁸ + α⁹), the δ of R408 (its product with α⁸ + α⁹ is 1, test_gdelta). -/
def gdelta : BitVec 64 := 0x42FFFFFFFFFFFFF9

/-- Symbol d of a line of 64 bytes, for a data lane d = 0 to 7 (R407): its bit 4b + q is line bit 32b + 4d + q. -/
def symbolOf (line : List Byte) (d : Nat) : BitVec 64 :=
  let v := unle (fit 64 line)
  BitVec.ofNat 64 ((List.range 16).foldl (fun acc b => acc + v / 2 ^ (32 * b + 4 * d) % 16 * 2 ^ (4 * b)) 0)

/-- The line that the eight data symbols carry. -/
def lineOf (sym : Nat → BitVec 64) : List Byte :=
  le 64 ((List.range 16).foldl (fun acc b =>
    acc + (List.range 8).foldl (fun a d => a + (sym d).toNat / 2 ^ (4 * b) % 16 * 2 ^ (32 * b + 4 * d)) 0) 0)

/-- The burst of a line, its check symbols raised by `e` (R407, R408). -/
def encodeLine (line : List Byte) (e : BitVec 64) : Vector (BitVec 64) 10 :=
  let s := symbolOf line
  let a := (List.range 8).foldl (fun acc d => acc ^^^ s d) 0
  let b := (List.range 8).foldl (fun acc d => acc ^^^ gxPow d (s d)) 0
  let s9 := gmul (b ^^^ gxPow 8 a) gdelta
  let s8 := a ^^^ s9
  #v[s 0, s 1, s 2, s 3, s 4, s 5, s 6, s 7, s8 ^^^ e, s9 ^^^ e]

/-- The syndrome of a burst (R407). -/
def syndrome (r : Vector (BitVec 64) 10) : BitVec 64 × BitVec 64 :=
  ((List.range 10).foldl (fun acc d => acc ^^^ r.getD d 0) 0, (List.range 10).foldl (fun acc d => acc ^^^ gxPow d (r.getD d 0)) 0)

/-- The outcomes of R409. -/
inductive Decode where
  | clean
  | poisoned
  | corrected (j : Nat) (byMark : Bool)
  | uncorrectable
deriving DecidableEq, Repr

/-- R409: the outcome of a read by its syndrome and the marked symbol. -/
def decodeLine (mark : Option (Fin 10)) (r : Vector (BitVec 64) 10) : Decode :=
  let (s0, s1) := syndrome r
  if s0 = 0 ∧ s1 = 0 then .clean
  else if s0 = 0 ∧ s1 = 1 then .poisoned
  else
    match mark with
    | some m => if s1 = gxPow m s0 then .corrected m true else .uncorrectable
    | none =>
      match if s0 = 0 then none else (List.range 10).find? (fun j => s1 == gxPow j s0) with
      | some j => .corrected j false
      | none => .uncorrectable

/-- The data that a read delivers (R409): symbol j corrected by S₀, zero where the line is poisoned or uncorrectable. -/
def delivered (r : Vector (BitVec 64) 10) : Decode → List Byte
  | .clean => lineOf (fun d => r.getD d 0)
  | .corrected j _ => let s0 := (syndrome r).1; lineOf (fun d => if d = j then r.getD d 0 ^^^ s0 else r.getD d 0)
  | _ => zeros 64

/-! ### The checker self-test (R415) -/

/-- The line written in a case of the self-test, 1 to 14. -/
def selfTestLine (c : Nat) : List Byte :=
  if c = 1 ∨ c = 14 then zeros 64 else if c = 2 then List.replicate 64 0xFF else List.replicate 64 0x5A

/-- The symbols inverted in a case of the self-test. -/
def selfTestFlips (c : Nat) : List Nat := if 3 ≤ c ∧ c ≤ 12 then [c - 3] else if c = 13 then [2, 7] else []

/-- The burst that a case drives through the internal flip path. -/
def selfTestBurst (c : Nat) : Vector (BitVec 64) 10 :=
  let r := encodeLine (selfTestLine c) (if c = 14 then gdelta else 0)
  Vector.ofFn (fun d => if (selfTestFlips c).contains d.val then ~~~r.get d else r.get d)

/-- The outcome that a case must yield. -/
def selfTestExpects (c : Nat) : Decode :=
  if c ≤ 2 then .clean else if c ≤ 12 then .corrected (c - 3) false else if c = 13 then .uncorrectable else .poisoned

/-- What a case has read back yields the outcome of its row and, where data is delivered, the written data. The marked symbol of R410 plays no part:
DEDUCED, since the ten single-symbol cases must each be corrected (log 42). -/
def selfTestPasses (c : Nat) (r : Vector (BitVec 64) 10) : Bool :=
  decide (decodeLine none r = selfTestExpects c) && (decide (13 ≤ c) || delivered r (selfTestExpects c) == selfTestLine c)

/-- The first case that fails among bursts read back in order, 0 where all 14 pass. -/
def selfTestFailure (read : List (Vector (BitVec 64) 10)) : Nat :=
  (((List.range 14).map (fun i => i + 1)).find? (fun c => match read[c - 1]? with | some r => !selfTestPasses c r | none => true)).getD 0

/-- Number of ones of a word. -/
def onesOf (v : BitVec 64) : Nat := ((List.range 64).filter (fun i => v.getLsbD i)).length

/-! ### Addresses (R405, R406, R424) -/

/-- Data capacity of a channel's geometry in 64 KiB pages (R405). -/
def dramPages (r : DramRec) : Nat :=
  if !r.configured || r.width = 0 then 0 else r.ranks * (32 / r.width) * r.density / 8 * 16384

/-- Pages of a channel by the image. -/
def chPages (s : State) (ch : Nat) : Nat := match dramSec s with | some (a, b) => if ch = 0 then dramPages a else dramPages b | none => 0

/-- The channel is present. -/
def chPresent (s : State) (ch : Nat) : Bool := if ch = 0 then s.on F.GLB_UNIT_OK0_DMC0 else s.on F.GLB_UNIT_OK0_DMC1

/-- Buffer line (buffer address ÷ 64) of a channel's line. -/
def lineGl (s : State) (ch line : Nat) : Nat := if ch = 0 then line else chPages s 0 * 1024 + line

/-- Channel and line of a buffer line. -/
def glLine (s : State) (gl : Nat) : Nat × Nat := if gl < chPages s 0 * 1024 then (0, gl) else (1, gl - chPages s 0 * 1024)

/-- Capacity of the buffer in bytes (R424). -/
def bufBytes (s : State) : Nat := s.get F.BUF_PAGE_TOTAL_COUNT * 65536

/-- A byte of buffer memory. -/
def memByte (s : State) (a : Nat) : Byte := smGetD 0 a s.buf.mem

/-- `n` bytes of buffer memory. -/
def memRead (s : State) (a n : Nat) : List Byte := (List.range n).map (fun i => memByte s (a + i))

/-- Bytes put into a memory map, in canonical form. -/
def putBytes : List Byte → Nat → SMap Byte → SMap Byte
  | [], _, m => m
  | b :: t, a, m => putBytes t (a + 1) (smPut 0 a b m)

/-- Bytes written to buffer memory. -/
def memWrite (a : Nat) (l : List Byte) (s : State) : State := s.onBuf (fun b => { b with mem := putBytes l a b.mem })

/-! ### Poisoned lines (R408, R418) -/

def psnKey (ch line : Nat) : Nat := 2 ^ 28 * ch + line

def linePoisoned (s : State) (gl : Nat) : Bool := let (ch, l) := glLine s gl; (smGet (psnKey ch l) s.buf.poisoned).isSome

def setPoison (gl : Nat) (on : Bool) (s : State) : State :=
  let (ch, l) := glLine s gl
  s.onBuf (fun b => { b with poisoned := if on then smSet (psnKey ch l) () b.poisoned else smErase (psnKey ch l) b.poisoned })

/-- The flip mask on symbol d (R417). -/
def flipSymbol (s : State) (ch d : Nat) : BitVec 64 :=
  let beats := s.get (F.DMCn_FLIP_CTL_BEATS ch)
  let dq := s.get (F.DMCn_FLIP_DQ_DQ ch) + s.get (F.DMCn_FLIP_CTL_CHECK_DQ ch) * 2 ^ 32
  BitVec.ofNat 64 ((List.range 16).foldl (fun acc b => if beats / 2 ^ b % 2 = 1 then acc + dq / 2 ^ (4 * d) % 16 * 2 ^ (4 * b) else acc) 0)

/-- A write burst issued by DMCn: with ARM = 1 it carries the flip mask, and ARM clears (R417). -/
def sendBurst (ch line : Nat) (r : Vector (BitVec 64) 10) (s : State) : State :=
  if s.on (F.DMCn_FLIP_CTL_ARM ch) then
    (s.emit (.dram ch line (Vector.ofFn (fun d => r.get d ^^^ flipSymbol s ch d)))).put (F.DMCn_FLIP_CTL_ARM ch) 0
  else s.emit (.dram ch line r)

/-- A buffer line written to DRAM as one full line (R407). -/
def dramWrite (gl : Nat) (s : State) : State :=
  let (ch, l) := glLine s gl
  sendBurst ch l (encodeLine (memRead s (64 * gl) 64) 0) (setPoison gl false s)

/-! ### The page ledger (R424, R425) -/

/-- Codes of the owner classes in BUF_PSN_INFO.OWNER (R431). -/
def ownerCode : Owner → Nat
  | .firmware => 1
  | .bandMap => 2
  | .journal => 3
  | .spill => 4
  | .writeCache => 5
  | .readCache => 6
  | .transfer => 7
  | .dma => 8

def ownerOf : Nat → Option Owner
  | 1 => some .firmware
  | 2 => some .bandMap
  | 3 => some .journal
  | 4 => some .spill
  | 5 => some .writeCache
  | 6 => some .readCache
  | 7 => some .transfer
  | 8 => some .dma
  | _ => none

/-- The page is owned. -/
def pageOwned : Page → Bool
  | .owned _ => true
  | .quarantined _ => false

/-- The page registers show the ledger (R424). -/
def showPages (s : State) : State :=
  let total := (if chPresent s 0 then chPages s 0 else 0) + (if chPresent s 1 then chPages s 1 else 0)
  let owned := (s.buf.pages.filter (fun p => pageOwned p.2)).length
  let quar := s.buf.pages.length - owned
  (((s.put F.BUF_PAGE_TOTAL_COUNT total).put F.BUF_PAGE_OWNED_COUNT owned).put F.BUF_PAGE_QUAR_COUNT quar).put F.BUF_PAGE_FREE_COUNT
    (total - owned - quar)

def setPage (p : Nat) (v : Option Page) (s : State) : State :=
  showPages (s.onBuf (fun b => { b with pages := match v with | some x => smSet p x b.pages | none => smErase p b.pages }))

/-- Classes whose pages lie on DMC0 alone (R406); the cache, transfer and DMA classes take pages of both channels. -/
def dmc0Only : Owner → Bool
  | .firmware => true
  | .bandMap => true
  | .journal => true
  | .spill => true
  | _ => false

/-- The page lies below its channel's initialisation pointer on a present channel (R416). -/
def pageReady (s : State) (p : Nat) : Bool :=
  if p < chPages s 0 then chPresent s 0 && decide (p < s.get (F.DMCn_INIT_PTR_PAGES 0))
  else chPresent s 1 && decide (p - chPages s 0 < s.get (F.DMCn_INIT_PTR_PAGES 1))

/-- The lowest page from `p` on that is neither owned nor quarantined, among `fuel` pages (log 20). -/
def freePageFrom (s : State) (o : Owner) : Nat → Nat → Option Nat
  | _, 0 => none
  | p, n + 1 =>
    if pageReady s p && (smGet p s.buf.pages).isNone && (!dmc0Only o || decide (p < chPages s 0)) then some p
    else freePageFrom s o (p + 1) n

/-- A page given to an owner class, below the initialisation pointer (R416, R424). -/
def allocPage (o : Owner) (s : State) : Option (Nat × State) :=
  -- at most one more page than are listed need be looked at below each pointer
  let n := s.buf.pages.length + 1
  match freePageFrom s o 0 n with
  | some p => some (p, setPage p (some (.owned o)) s)
  | none => (freePageFrom s o (chPages s 0) n).map (fun p => (p, setPage p (some (.owned o)) s))

/-- The page holds a poisoned line. -/
def pagePoisoned (s : State) (p : Nat) : Bool :=
  s.buf.poisoned.any (fun e => lineGl s (e.1 / 2 ^ 28) (e.1 % 2 ^ 28) / 1024 == p)

/-- A page released by its owner (R425): quarantined while it holds a poisoned line, else free. -/
def releasePage (p : Nat) (s : State) : State :=
  match smGet p s.buf.pages with
  | some (.owned _) => if pagePoisoned s p then setPage p (some (.quarantined false)) s else setPage p none s
  | _ => s

/-! ### Cached blocks (R364, R365, R424) -/

/-- BUF_WC_DIRTY and BUF_WC_MIRR show the ledger of dirty and mirrored blocks. -/
def showDirty (s : State) : State :=
  let d := s.buf.cache.filter (fun e => e.2.dirty)
  (s.put F.BUF_WC_DIRTY_BLOCKS d.length).put F.BUF_WC_MIRR_BLOCKS (d.filter (fun e => e.2.mirrored)).length

def cacheGet (s : State) (lba : Nat) : Option CBlock := smGet lba s.buf.cache

def cacheSet (lba : Nat) (c : CBlock) (s : State) : State := showDirty (s.onBuf (fun b => { b with cache := smSet lba c b.cache }))

/-- A cached block dropped; its place is free again while its page is still owned. -/
def cacheDrop (lba : Nat) (s : State) : State :=
  match cacheGet s lba with
  | some c =>
    let kept := match smGet (c.loc / 16) s.buf.pages with | some (.owned _) => true | _ => false
    showDirty (s.onBuf (fun b => { b with cache := smErase lba b.cache, room := if kept then b.room ++ [c.loc] else b.room }))
  | none => s

/-- The owner class of the page of a place. -/
def placeOwner (s : State) (loc : Nat) : Option Owner := match smGet (loc / 16) s.buf.pages with | some (.owned o) => some o | _ => none

/-- A 4 KiB place for a cached block of a class: a free one, one of a new page, or that of the clean block of lowest LBA (log 20). -/
def takePlace (o : Owner) (s : State) : Option (Nat × State) :=
  match s.buf.room.find? (fun l => decide (placeOwner s l = some o)) with
  | some l => some (l, s.onBuf (fun b => { b with room := b.room.erase l }))
  | none =>
    match allocPage o s with
    | some (p, s) => some (16 * p, s.onBuf (fun b => { b with room := b.room ++ (List.range 15).map (fun i => 16 * p + 1 + i) }))
    | none =>
      match s.buf.cache.find? (fun e => !e.2.dirty && decide (placeOwner s e.2.loc = some o)) with
      | some (lba, c) => some (c.loc, s.onBuf (fun b => { b with cache := smErase lba b.cache }))
      | none => none

/-! ### The lost-write list (R420 to R422, R492) -/

def showLwl (s : State) : State :=
  (s.put F.BUF_LWL_STAT_ENTRIES s.buf.lwl.length).putB F.BUF_LWL_STAT_FULL (decide (4096 ≤ s.buf.lwl.length))

/-- A block is on the lost-write list; an entry whose CRC failed marks all its blocks (R421). -/
def lwlHas (s : State) (lba : Nat) : Bool :=
  s.buf.lwl.any (fun e => e.base == lba / 256 * 256 && (!e.crcOk || e.map.getLsbD (lba % 256)))

/-- An entry's new map, sent to the partner (R492); a zero map frees the entry. -/
def lwlPut (e : LwlEntry) (slot : Option Nat) (s : State) : State :=
  let rest := s.buf.lwl.filter (fun x => !(x.base == e.base && x.ns == e.ns))
  let s := showLwl (s.onBuf (fun b => { b with lwl := if e.map = 0 then rest else rest ++ [e] }))
  batRecord (.lwlrec e.base e.ns e.fn e.map) slot s

/-- A block added to the list (R421), or handed to BND where all 4,096 entries are in use (R422). -/
def lwlAdd (lba fn ns : Nat) (s : State) : State :=
  let base := lba / 256 * 256
  let bit : BitVec 256 := BitVec.ofNat 256 1 <<< (lba % 256)
  match s.buf.lwl.find? (fun e => e.base == base && e.ns == ns) with
  | some e => if e.crcOk then lwlPut { e with map := e.map ||| bit } none s else s
  | none =>
    if 4096 ≤ s.buf.lwl.length then
      let s := s.flag F.BUF_FLT_LWL_FULL
      { s with bnd := { s.bnd with uncorr := if s.bnd.uncorr.contains lba then s.bnd.uncorr else s.bnd.uncorr ++ [lba] } }
    else lwlPut ⟨base, ns, fn, bit, true⟩ none s

/-- A block's bit cleared by a write admitted or a deallocation (R421); the slot's command waits for the partner's RACK (R492). -/
def lwlClear (lba : Nat) (slot : Option Nat) (s : State) : State :=
  let base := lba / 256 * 256
  match s.buf.lwl.find? (fun e => e.base == base) with
  | some e =>
    let map := if e.crcOk then e.map else BitVec.allOnes 256
    if map.getLsbD (lba % 256) then lwlPut { e with map := map &&& ~~~(BitVec.ofNat 256 1 <<< (lba % 256)), crcOk := true } slot s else s
  | none => s

/-- A block is lost (R420): its cache entry goes, it enters the list, and the home raises SMART / Health Status, Reliability, to the owning
function only. -/
def lostBlock (lba fn : Nat) (s : State) : State :=
  let ns := match nsOfLba s lba with | some (k, _) => k | none => 0
  let s := lwlAdd lba fn ns (cacheDrop lba s)
  let s := s.flag F.BUF_FLT_LOST_WRITE
  let home := match nsOfLba s lba with | some (_, e) => isHome s e | none => true
  if home then asyncEvent fn 1 0 0x02 s else s

/-- A dirty block meets poison (R420, R494): in protected-cache mode the partner's copy is asked for first. -/
def dirtyPoison (lba : Nat) (s : State) : State :=
  match cacheGet s lba with
  | some c =>
    if mirroring s && s.on F.BUF_CTL_MIRROR_RECOVER then
      if s.bat.asked.contains lba then s
      else
        let (tag, s) := newTag s
        batSend tag (.mreq c.ns lba) { s with bat := { s.bat with asked := s.bat.asked ++ [lba] } }
    else lostBlock lba c.fn s
  | none => s

/-- The line is dirty in the shared cache (R419). -/
def sccDirty (s : State) (gl : Nat) : Bool := s.ccx.lines.any (fun e => e.2.line == gl && e.2.dirty)

/-- A poisoned mirror copy is discarded, and its home asked for the block again (R494, log 30). -/
def mirrorPoison (place : Nat) (s : State) : State :=
  let hit := s.bat.mirrors.flatMap (fun m => (m.blocks.filter (fun b => b.2.1 == some place)).map (fun b => (m.ns, b.1)))
  let s := { s with bat := { s.bat with mirrors := s.bat.mirrors.map (fun m => { m with blocks := m.blocks.map (fun b => if b.2.1 = some place then (b.1, none, []) else b) }) } }
  forEach hit (fun p s => let (tag, s) := newTag s; batSend tag (.mreq p.1 p.2) s) s

/-- The owner's action on a poisoned line (R420). -/
def ownerAction (gl : Nat) (s : State) : State :=
  match smGet (gl / 1024) s.buf.pages with
  | none => setPage (gl / 1024) (some (.quarantined false)) s
  | some (.owned .writeCache) | some (.owned .readCache) =>
    forEach (s.buf.cache.filter (fun e => e.2.loc == gl / 64)) (fun e s => if e.2.dirty then dirtyPoison e.1 s else cacheDrop e.1 s) (mirrorPoison (gl / 64) s)
  | _ => s

/-- Owner code of a line's page for the poison log (R431). -/
def glOwner (s : State) (gl : Nat) : Nat := match smGet (gl / 1024) s.buf.pages with | some (.owned o) => ownerCode o | _ => 0

/-- An entry in the poison log (R419): 32 entries, the oldest overwritten. -/
def psnLog (ch line owner source : Nat) (s : State) : State :=
  let n := s.buf.psnNext
  let s := s.onBuf (fun b => { b with psn := smSet (n % 32) ⟨line, ch, owner, source, n % 65536⟩ b.psn, psnNext := n + 1 })
  (s.flag F.BUF_FLT_POISON).sysEvent 0x4005 2 0xFFFF (sourceOf R.BUF_CTL) ([BitVec.ofNat 8 ch, 0, 0, 0] ++ le 4 line ++ [BitVec.ofNat 8 owner, BitVec.ofNat 8 source])

/-- An uncorrectable outcome on a line (R419), once however many reads meet it. -/
def poisonLine (ch line source : Nat) (s : State) : State :=
  let gl := lineGl s ch line
  if linePoisoned s gl then s
  else
    let s := sendBurst ch line (encodeLine (zeros 64) gdelta) (setPoison gl true s)
    let s := psnLog ch line (glOwner s gl) source (s.count (F.DMCn_ECC_CNT_UE ch))
    if sccDirty s gl then s else ownerAction gl (memWrite (64 * gl) (zeros 64) s)

/-- Poison consumed (R423): counted, and the consumer told. Control cores and DMA channels meet it at their own access. -/
def consumePoison (who : DramReader) (s : State) : State :=
  match who with
  | .host lba =>
    let s := (s.count F.BUF_CNT_PSN_USED)
    let s := forEach (readersOf s lba) (fun k s => failRead k lba 1 (retryResult .unrecoveredRead) s) s
    match cacheGet s lba with
    | some c => if c.dirty then dirtyPoison lba s else cacheDrop lba s
    | none => s
  | .destage lba =>
    let s := s.count F.BUF_CNT_PSN_USED
    match cacheGet s lba with
    | some c => if c.dirty then dirtyPoison lba s else cacheDrop lba s
    | none => s
  | .verify n =>
    let s := s.count F.BUF_CNT_PSN_USED
    match (s.ln n).compared with
    | (d, _) :: rest => verifyMiss n d (settleSector n d (s.onLn n (fun l => { l with compared := rest })))
    | [] => s
  | .spill n k => s.onLn n (fun l => { l with spill := l.spill.map (fun e => if e.1 = k then (e.1, { e.2 with poisoned := true }) else e) })
  | _ => s

/-! ### Correctable errors (R410, R411, R414) -/

/-- Entries that name a channel and a symbol. -/
def ceNaming (s : State) (ch j : Nat) : Nat := (s.buf.ce.filter (fun e => e.2.ch == ch && e.2.sym == j)).length

/-- The table entry to be replaced: the lowest COUNT, the oldest among ties (R414). -/
def ceVictim (l : SMap CeEntry) : Option Nat :=
  (l.foldl (fun (best : Option (Nat × CeEntry)) e =>
    match best with
    | none => some e
    | some b => if e.2.count < b.2.count ∨ (e.2.count = b.2.count ∧ e.2.order < b.2.order) then some e else some b) none).map (fun b => b.1)

/-- A correction entered in the table (R414). -/
def ceEnter (ch line j : Nat) (multi : Bool) (s : State) : State :=
  let s := s.count (F.DMCn_ECC_CNT_CE ch)
  match s.buf.ce.find? (fun e => e.2.line == line && e.2.ch == ch) with
  | some (i, e) =>
    s.onBuf (fun b => { b with ce := smSet i { e with count := min 255 (e.count + 1), multi := e.multi || multi } b.ce })
  | none =>
    let new : CeEntry := ⟨line, ch, j, multi, 1, s.buf.ceNext⟩
    match (List.range 64).find? (fun i => (smGet i s.buf.ce).isNone) with
    | some i =>
      let s := s.onBuf (fun b => { b with ce := smSet i new b.ce, ceNext := b.ceNext + 1 })
      s.put F.BUF_CE_STAT_USED s.buf.ce.length
    | none =>
      match ceVictim s.buf.ce with
      | some i => (s.onBuf (fun b => { b with ce := smSet i new b.ce, ceNext := b.ceNext + 1 })).count F.BUF_CE_STAT_DROPPED
      | none => s

/-- The marking rule after a correction (R410, R417). -/
def markRule (ch : Fin 2) (j : Fin 10) (s : State) : State :=
  if ceNaming s ch j < max 1 (s.get (F.DMCn_ECC_CFG_MARK_THR ch)) then s
  else
    match s.buf.marks.get ch with
    | some m => if m = j then s else s.flag (F.DMCn_ECC_STAT_SECOND ch)
    | none =>
      if !s.on (F.DMCn_ECC_CFG_MARK_EN ch) then s
      else
        let s := s.onBuf (fun b => { b with marks := setV b.marks ch (some j), recoveryPass := setV b.recoveryPass ch false })
        ((s.put (F.DMCn_ECC_STAT_MARK_SYM ch) j).put (F.DMCn_ECC_STAT_RECOVERY ch) 1).flag (F.DMCn_ECC_STAT_MARKED ch)

/-- A read decoded by DMCn: its outcome on the memory, the table, the mark and the poison (R409 to R414, R419). -/
def dramReadEff (ch : Fin 2) (line : Nat) (burst : Vector (BitVec 64) 10) (source : Nat) (s : State) : State × Bool :=
  let gl := lineGl s ch line
  let o := decodeLine (s.buf.marks.get ch) burst
  let merged := s.buf.merge.find? (fun e => e.line == gl)
  let take := fun (s : State) =>
    if sccDirty s gl then s
    else
      let l := delivered burst o
      let l := match merged with
        | some e => (List.range 64).map (fun i => if e.enables.getLsbD i then e.data.getD i 0 else l.getD i 0)
        | none => l
      memWrite (64 * gl) l (setPoison gl false s)
  match o with
  | .clean => (take s, false)
  | .poisoned => (setPoison gl true s, true)
  | .uncorrectable => (poisonLine ch line source s, true)
  | .corrected j byMark =>
    let s := take s
    if byMark then (s, false)
    else
      let s := ceEnter ch line j (decide (1 < onesOf (syndrome burst).1)) s
      let s := if h : j < 10 then markRule ch ⟨j, h⟩ s else s
      (if s.on (F.DMCn_CTL_WB_EN ch) && merged.isNone then sendBurst ch line (encodeLine (delivered burst o) 0) s else s, false)

/-- DRAM_READ (R409, R423). -/
def execDramRead (ch : Fin 2) (line : Nat) (burst : Vector (BitVec 64) 10) (who : DramReader) (s : State) : Host.Outcome State Fault Refusal :=
  let (s, bad) := dramReadEff ch line burst 1 s
  .next (if bad then consumePoison who s else s)

/-- SCRUB_READ (R418): the next line of the paced pass; a line that carries the poison syndrome is skipped. -/
def execScrubRead (ch : Fin 2) (burst : Vector (BitVec 64) 10) (s : State) : Host.Outcome State Fault Refusal :=
  if !s.on (F.DMCn_SCRUB_CFG_EN ch) || !chPresent s ch then .next s
  else
    let line := s.get (F.DMCn_SCRUB_STAT_CURSOR ch)
    let s := if linePoisoned s (lineGl s ch line) then s else (dramReadEff ch line burst 0 s).1
    if line + 1 < chPages s ch * 1024 then .next (s.put (F.DMCn_SCRUB_STAT_CURSOR ch) (line + 1))
    else
      let hours := max 1 (s.get (F.DMCn_SCRUB_CFG_HOURS ch))
      let now := s.now.toNat
      let s := if s.buf.scrubAt.get ch + hours * 3600 * 10 ^ 8 < now then s.count F.BUF_ARB_CNT_SCRUB_LATE else s
      let first := s.buf.recoveryPass.get ch
      let s := if first then s.put (F.DMCn_ECC_STAT_RECOVERY ch) 0 else s
      let open_ := s.on (F.DMCn_ECC_STAT_RECOVERY ch)
      .next ((s.onBuf (fun b => { b with scrubAt := setV b.scrubAt ch now, recoveryPass := setV b.recoveryPass ch open_ })).put
        (F.DMCn_SCRUB_STAT_CURSOR ch) 0)

/-! ### Narrow writes (R412, R413) -/

def showMerge (s : State) : State := s.put F.BUF_MERGE_STAT_USED s.buf.merge.length

/-- A merge entry written by read–modify–write (R412, R413): over a poisoned line the bytes are lost and the line stays poisoned. -/
def mergeFlush (e : MergeEntry) (s : State) : State :=
  let s := showMerge ((s.onBuf (fun b => { b with merge := b.merge.filter (fun x => x.line != e.line) })).count F.BUF_CNT_RMW)
  if linePoisoned s e.line then
    let (ch, l) := glLine s e.line
    let s := sendBurst ch l (encodeLine (zeros 64) gdelta) s
    psnLog ch l (glOwner s e.line) 2 (memWrite (64 * e.line) (zeros 64) (s.count F.BUF_CNT_PSN_USED))
  else dramWrite e.line s

/-- A full line written to DRAM with its merge entry (R412): an entry that the line covers is discarded, as every full line covers it. -/
def fullWrite (gl : Nat) (l : List Byte) (s : State) : State :=
  let s := showMerge (s.onBuf (fun b => { b with merge := b.merge.filter (fun x => x.line != gl) }))
  dramWrite gl (memWrite (64 * gl) (fit 64 l) s)

/-- Bytes laid over memory where their enables are set. -/
def layBytes (gl : Nat) (enables : BitVec 64) (data : List Byte) (s : State) : State :=
  forEach ((List.range 64).filter (fun i => enables.getLsbD i)) (fun i s => memWrite (64 * gl + i) [data.getD i 0] s) s

/-- A partial-line write (R412). -/
def narrowWrite (gl : Nat) (enables : BitVec 64) (data : List Byte) (s : State) : State :=
  let s := if linePoisoned s gl then s else layBytes gl enables data s
  let pick := fun (e : MergeEntry) => (List.range 64).map (fun i => if enables.getLsbD i then data.getD i 0 else e.data.getD i 0)
  match s.buf.merge.find? (fun e => e.line == gl) with
  | some e =>
    let e' : MergeEntry := { e with enables := e.enables ||| enables, data := pick e }
    if e'.enables = BitVec.allOnes 64 then fullWrite gl e'.data s
    else s.onBuf (fun b => { b with merge := b.merge.map (fun x => if x.line = gl then e' else x) })
  | none =>
    let s := match s.buf.merge with
      | e :: rest => if 31 ≤ rest.length then mergeFlush e s else s
      | [] => s
    showMerge (s.onBuf (fun b => { b with merge := b.merge ++ [⟨gl, enables, pick ⟨gl, 0, zeros 64⟩⟩] }))

/-- NARROW_WRITE (R412). With all 64 enables set the write is a full line. -/
def execNarrowWrite (line : Nat) (enables : BitVec 64) (data : List Byte) (s : State) : Host.Outcome State Fault Refusal :=
  if enables = BitVec.allOnes 64 then .next (fullWrite line data s) else .next (narrowWrite line enables data s)

/-- MERGE_AGE_EXPIRY (R412): the oldest entry has waited AGE. -/
def execMergeAgeExpiry (s : State) : Host.Outcome State Fault Refusal :=
  match s.buf.merge with
  | e :: _ => .next (mergeFlush e s)
  | [] => .next s

/-! ### Pages (R424, R425) -/

/-- PAGE_ALLOCATE (R416, R424): with no free page below the pointers the allocation waits. -/
def execPageAllocate (owner : Nat) (s : State) : Host.Outcome State Fault Refusal :=
  match (ownerOf owner).bind (fun o => allocPage o s) with
  | some (_, s) => .next s
  | none => .next s

/-- PAGE_RELEASE (R425): a cache page goes with its clean blocks, and stays while it holds a dirty one. -/
def execPageRelease (page : Nat) (s : State) : Host.Outcome State Fault Refusal :=
  let on_ := s.buf.cache.filter (fun e => e.2.loc / 16 == page)
  if on_.any (fun e => e.2.dirty) then .next s
  else
    let s := s.onBuf (fun b => { b with cache := b.cache.filter (fun e => e.2.loc / 16 != page), room := b.room.filter (fun l => l / 16 != page) })
    .next (releasePage page s)

/-- Zeros with valid check bits over the 1,024 lines of a page (R416, R425). -/
def zeroPage (page : Nat) (s : State) : State :=
  s.onBuf (fun b => { b with poisoned := b.poisoned.filter (fun e => lineGl s (e.1 / 2 ^ 28) (e.1 % 2 ^ 28) / 1024 != page), mem := b.mem.filter (fun e => e.1 / 65536 != page) })

/-- QUARANTINE_TEST (R425): zeros written to all 1,024 lines and read back; `bad` is the line that is uncorrectable again. -/
def execQuarantineTest (page : Nat) (bad : Option Nat) (s : State) : Host.Outcome State Fault Refusal :=
  match smGet page s.buf.pages with
  | some (.quarantined false) =>
    if !s.on F.BUF_CTL_QUAR_TEST then .next s
    else
      let s := zeroPage page s
      match bad with
      | some i =>
        let (ch, l) := glLine s (1024 * page + i % 1024)
        .next ((poisonLine ch l 3 (setPage page (some (.quarantined true)) s)).flag F.BUF_FLT_QUAR_RETAIN)
      | none => .next (setPage page none s)
  | _ => .next s

/-! ### Commands on the correctable-error table, the mark and the flip mask (R410, R414, R417) -/

/-- CE_TABLE_CLEAR (R414). -/
def execCeTableClear (s : State) : Host.Outcome State Fault Refusal :=
  .next (s.command R.BUF_CE_SEL 0x80000000 (fun s => (s.onBuf (fun b => { b with ce := [] })).put F.BUF_CE_STAT_USED 0))

/-- The mark and its MRAM record cleared (R410). -/
def clearMark (ch : Fin 2) (s : State) : State :=
  (s.onBuf (fun b => { b with marks := setV b.marks ch none })).put (F.DMCn_ECC_STAT_MARKED ch) 0

/-- MARK_CLEAR (R410). -/
def execMarkClear (ch : Fin 2) (s : State) : Host.Outcome State Fault Refusal :=
  .next (s.command (R.DMCn_ECC_STAT ch) 0x80000000 (clearMark ch))

/-- The flip registers accept writes now (R417). -/
def flipAllowed (s : State) (ch : Fin 2) : Bool :=
  s.mode == Mode.configure || s.mode == Mode.service || s.on (F.DMCn_ECC_STAT_RECOVERY ch)

/-- A write of DMCn_FLIP_DQ or DMCn_FLIP_CTL (R417); FLIP_REJ is W1C in any situation. -/
def flipEff (ch : Fin 2) (ctl : Bool) (w : Word) (s : State) : State :=
  let s := if ctl && w.getLsbD 30 then s.put (F.DMCn_FLIP_CTL_FLIP_REJ ch) 0 else s
  if !flipAllowed s ch then
    -- a write that only clears FLIP_REJ changes no flip setting and is not discarded
    if ctl && w = 0x40000000 then s else s.flag (F.DMCn_FLIP_CTL_FLIP_REJ ch)
  else if ctl then
    ((s.putB (F.DMCn_FLIP_CTL_ARM ch) (w.getLsbD 31)).put (F.DMCn_FLIP_CTL_BEATS ch) (bitsOf w.toNat 23 8)).put (F.DMCn_FLIP_CTL_CHECK_DQ ch)
      (bitsOf w.toNat 7 0)
  else s.setReg (R.DMCn_FLIP_DQ ch) w

/-- FLIP_WRITE (R417). -/
def execFlipWrite (ch : Fin 2) (ctl : Bool) (data : Word) (s : State) : Host.Outcome State Fault Refusal :=
  .next (s.command (if ctl then R.DMCn_FLIP_CTL ch else R.DMCn_FLIP_DQ ch) data (flipEff ch ctl data))

/-! ### The bandwidth arbiter (R427, R428) -/

/-- The BANDWIDTH section in units of 10 MB/s: journal, mirror, host. -/
def bandwidthSec (s : State) : Nat × Nat × Nat :=
  (findSection s.cfg.image (fun d => match d.body with | .bandwidth j m h => some (j, m, h) | _ => none)).getD (0, 0, 0)

/-- The SPINDLE section's greatest declared cadence in rpm (R55). -/
def topCadence (s : State) : Nat :=
  match spindleSec s with
  | some p => match ([3, 2, 1, 0] : List Nat).find? (fun c => p.cadences.getLsbD c) with | some c => 3600 + 1200 * c | none => 0
  | none => 0

/-- The reservation of all lane media streams in bytes per second (R56). -/
def laneReservation (s : State) : Nat :=
  let bpw := match zonesOf s 0 with | some z => z.fmts.foldl (fun m f => max m f.bpw) 0 | none => 0
  (lanes.filter (fun (n : Lane) => laneIncluded s n)).length * (bpw * 12 * topCadence s * 2 / 8)

/-- The reservation of a class on a channel in code words per epoch (R427). -/
def reservation (s : State) (ch cls : Nat) : Nat :=
  let both := chPresent s 1
  let words := fun b => (b + 63999999) / 64000000
  let halved := fun b => if !both then (if ch = 0 then words b else 0) else (b + 127999999) / 128000000
  let (j, m, h) := bandwidthSec s
  if !chPresent s ch then 0
  else
    match cls with
    | 1 => 53
    | 2 => halved (laneReservation s)
    | 3 => if ch = 0 then words (j * 10 ^ 7) else 0
    | 4 => halved (m * 10 ^ 7)
    | 5 => halved (h * 10 ^ 7)
    | 6 => s.get F.BUF_ARB_CFG_SCRUB_MIN
    | _ => 0

def arbClasses : List (Fin 6) := [0, 1, 2, 3, 4, 5]

/-- ARBITER_EPOCH (R428): a class with a request still pending counts a deferral, and every allowance is reset to its reservation. -/
def execArbiterEpoch (ch : Fin 2) (s : State) : Host.Outcome State Fault Refusal :=
  let b := s.buf
  let w := b.waiting.get ch
  let defer := Vector.ofFn (fun (c : Fin 6) => if w.get c then min 65535 ((b.defer.get ch).get c + 1) else (b.defer.get ch).get c)
  let allow := Vector.ofFn (fun (c : Fin 6) => (reservation s ch (c.val + 1) : Int))
  .next (s.onBuf (fun b => { b with defer := setV b.defer ch defer, allow := setV b.allow ch allow }))

/-- The class granted (R428): the lowest with a pending request and allowance left, else the lowest with a pending request. -/
def grantClass (s : State) (ch : Fin 2) (requests : List (Nat × Nat)) : Option (Fin 6) :=
  let pending := fun (c : Fin 6) => requests.any (fun r => r.1 == c.val + 1)
  match arbClasses.find? (fun c => pending c && decide (0 < (s.buf.allow.get ch).get c)) with
  | some c => some c
  | none => arbClasses.find? pending

/-- A grant of 1 to 8 code words charged to its class (R428), and the classes that still wait: those of the requests left. -/
def chargeGrant (ch : Fin 2) (c : Fin 6) (requests : List (Nat × Nat)) (s : State) : State :=
  match requests.find? (fun r => r.1 == c.val + 1) with
  | none => s
  | some r =>
    let left := requests.erase r
    let a := s.buf.allow.get ch
    let waits := Vector.ofFn (fun (k : Fin 6) => left.any (fun q => q.1 == k.val + 1))
    s.onBuf (fun b => { b with allow := setV b.allow ch (setV a c (a.get c - (min 8 (max 1 r.2) : Nat))), waiting := setV b.waiting ch waits })

end Sys2Proof.Machine
end

