-- ==== Sys2Proof/Machine/Crypto.lean ====
section
/-! DEFINITION. The published algorithms that the spec takes by name (R7, table of standards): SHA-384 of FIPS 180-4 with HMAC, AES-256 of FIPS 197 with
XTS of IEEE 1619 and the key wrap of RFC 3394, ECDSA over P-384 of FIPS 186-5. Their texts are not the spec's: they are taken from those standards
(PRESUMED, log 6). -/

namespace Sys2Proof.Machine

/-! ### SHA-384 (FIPS 180-4) -/

/-- Round constants 0 to 39. -/
def shaK0 : List Dword := [
  0x428A2F98D728AE22, 0x7137449123EF65CD, 0xB5C0FBCFEC4D3B2F, 0xE9B5DBA58189DBBC, 0x3956C25BF348B538,
  0x59F111F1B605D019, 0x923F82A4AF194F9B, 0xAB1C5ED5DA6D8118, 0xD807AA98A3030242, 0x12835B0145706FBE,
  0x243185BE4EE4B28C, 0x550C7DC3D5FFB4E2, 0x72BE5D74F27B896F, 0x80DEB1FE3B1696B1, 0x9BDC06A725C71235,
  0xC19BF174CF692694, 0xE49B69C19EF14AD2, 0xEFBE4786384F25E3, 0x0FC19DC68B8CD5B5, 0x240CA1CC77AC9C65,
  0x2DE92C6F592B0275, 0x4A7484AA6EA6E483, 0x5CB0A9DCBD41FBD4, 0x76F988DA831153B5, 0x983E5152EE66DFAB,
  0xA831C66D2DB43210, 0xB00327C898FB213F, 0xBF597FC7BEEF0EE4, 0xC6E00BF33DA88FC2, 0xD5A79147930AA725,
  0x06CA6351E003826F, 0x142929670A0E6E70, 0x27B70A8546D22FFC, 0x2E1B21385C26C926, 0x4D2C6DFC5AC42AED,
  0x53380D139D95B3DF, 0x650A73548BAF63DE, 0x766A0ABB3C77B2A8, 0x81C2C92E47EDAEE6, 0x92722C851482353B]

/-- Round constants 40 to 79. -/
def shaK1 : List Dword := [
  0xA2BFE8A14CF10364, 0xA81A664BBC423001, 0xC24B8B70D0F89791, 0xC76C51A30654BE30, 0xD192E819D6EF5218,
  0xD69906245565A910, 0xF40E35855771202A, 0x106AA07032BBD1B8, 0x19A4C116B8D2D0C8, 0x1E376C085141AB53,
  0x2748774CDF8EEB99, 0x34B0BCB5E19B48A8, 0x391C0CB3C5C95A63, 0x4ED8AA4AE3418ACB, 0x5B9CCA4F7763E373,
  0x682E6FF3D6B2B8A3, 0x748F82EE5DEFB2FC, 0x78A5636F43172F60, 0x84C87814A1F0AB72, 0x8CC702081A6439EC,
  0x90BEFFFA23631E28, 0xA4506CEBDE82BDE9, 0xBEF9A3F7B2C67915, 0xC67178F2E372532B, 0xCA273ECEEA26619C,
  0xD186B8C721C0C207, 0xEADA7DD6CDE0EB1E, 0xF57D4F7FEE6ED178, 0x06F067AA72176FBA, 0x0A637DC5A2C898A6,
  0x113F9804BEF90DAE, 0x1B710B35131C471B, 0x28DB77F523047D84, 0x32CAAB7B40C72493, 0x3C9EBE0A15C9BEBC,
  0x431D67C49C100D4C, 0x4CC5D4BECB3E42B6, 0x597F299CFC657E2A, 0x5FCB6FAB3AD6FAEC, 0x6C44198C4A475817]

/-- The initial hash value of SHA-384. -/
def sha384Init : List Dword := [
  0xCBBB9D5DC1059ED8, 0x629A292A367CD507, 0x9159015A3070DD17, 0x152FECD8F70E5939,
  0x67332667FFC00B31, 0x8EB44A8768581511, 0xDB0C2E0D64F98FA7, 0x47B5481DBEFA4FA4]

/-- Big-endian bytes to a number. -/
def unbe (l : List Byte) : Nat := unle l.reverse

/-- A number as big-endian bytes. -/
def be (n v : Nat) : List Byte := (le n v).reverse

/-- The eight working variables of SHA-384. -/
structure ShaVars where
  a : Dword
  b : Dword
  c : Dword
  d : Dword
  e : Dword
  f : Dword
  g : Dword
  h : Dword

def ShaVars.ofList (l : List Dword) : ShaVars :=
  ⟨l.getD 0 0, l.getD 1 0, l.getD 2 0, l.getD 3 0, l.getD 4 0, l.getD 5 0, l.getD 6 0, l.getD 7 0⟩

def ShaVars.toList (v : ShaVars) : List Dword := [v.a, v.b, v.c, v.d, v.e, v.f, v.g, v.h]

/-- One round, with its constant and its word of the message schedule. -/
def shaRound (k w : Dword) (v : ShaVars) : ShaVars :=
  let s1 := v.e.rotateRight 14 ^^^ v.e.rotateRight 18 ^^^ v.e.rotateRight 41
  let ch := (v.e &&& v.f) ^^^ (~~~v.e &&& v.g)
  let t1 := v.h + s1 + ch + k + w
  let s0 := v.a.rotateRight 28 ^^^ v.a.rotateRight 34 ^^^ v.a.rotateRight 39
  let maj := (v.a &&& v.b) ^^^ (v.a &&& v.c) ^^^ (v.b &&& v.c)
  ⟨t1 + (s0 + maj), v.a, v.b, v.c, v.d + t1, v.e, v.f, v.g⟩

/-- The schedule's next word from the sixteen before it. -/
def shaNext (w : List Dword) : Dword :=
  let x := w.getD 14 0
  let y := w.getD 1 0
  (x.rotateRight 19 ^^^ x.rotateRight 61 ^^^ (x >>> 6)) + w.getD 9 0 + (y.rotateRight 1 ^^^ y.rotateRight 8 ^^^ (y >>> 7)) + w.getD 0 0

/-- The rounds of one block: `w` is the window of sixteen schedule words that begins at this round's. -/
def shaRounds : List Dword → List Dword → ShaVars → ShaVars
  | [], _, v => v
  | k :: ks, w, v => shaRounds ks (w.drop 1 ++ [shaNext w]) (shaRound k (w.getD 0 0) v)

/-- The words of a block of 128 bytes. -/
def shaWords (b : List Byte) : List Dword := (List.range 16).map (fun i => BitVec.ofNat 64 (unbe ((b.drop (8 * i)).take 8)))

/-- The hash value after one block. -/
def shaBlock (h : List Dword) (b : List Byte) : List Dword :=
  List.zipWith (fun (x y : Dword) => x + y) h (shaRounds (shaK0 ++ shaK1) (shaWords b) (ShaVars.ofList h)).toList

/-- The padded message. -/
def shaPad (m : List Byte) : List Byte := m ++ [0x80] ++ List.replicate ((239 - m.length % 128) % 128) 0 ++ be 16 (8 * m.length)

/-- The hash value after `n` blocks. -/
def shaBlocks : Nat → List Byte → List Dword → List Dword
  | 0, _, h => h
  | n + 1, m, h => shaBlocks n (m.drop 128) (shaBlock h (m.take 128))

/-- SHA-384 of a byte string, as the digest's 384 bits with its first byte highest (FIPS 180-4). -/
@[irreducible] def sha384 (m : List Byte) : BitVec 384 :=
  let p := shaPad m
  BitVec.ofNat 384 (unbe (((shaBlocks (p.length / 128) p sha384Init).take 6).flatMap (fun w => be 8 w.toNat)))

/-- A digest's 48 bytes in FIPS 180-4 order. -/
def digestBytes (d : BitVec 384) : List Byte := be 48 d.toNat

/-- HMAC with SHA-384 (R524), for keys of at most 128 bytes. -/
def hmac384 (key m : List Byte) : BitVec 384 :=
  let k := fit 128 key
  sha384 (k.map (fun b => b ^^^ 0x5C) ++ digestBytes (sha384 (k.map (fun b => b ^^^ 0x36) ++ m)))

/-! ### AES-256 (FIPS 197) -/

/-- The S-box, 0x00 to 0x7F. -/
def aesS0 : List Byte := [
  0x63, 0x7C, 0x77, 0x7B, 0xF2, 0x6B, 0x6F, 0xC5, 0x30, 0x01, 0x67, 0x2B, 0xFE, 0xD7, 0xAB, 0x76,
  0xCA, 0x82, 0xC9, 0x7D, 0xFA, 0x59, 0x47, 0xF0, 0xAD, 0xD4, 0xA2, 0xAF, 0x9C, 0xA4, 0x72, 0xC0,
  0xB7, 0xFD, 0x93, 0x26, 0x36, 0x3F, 0xF7, 0xCC, 0x34, 0xA5, 0xE5, 0xF1, 0x71, 0xD8, 0x31, 0x15,
  0x04, 0xC7, 0x23, 0xC3, 0x18, 0x96, 0x05, 0x9A, 0x07, 0x12, 0x80, 0xE2, 0xEB, 0x27, 0xB2, 0x75,
  0x09, 0x83, 0x2C, 0x1A, 0x1B, 0x6E, 0x5A, 0xA0, 0x52, 0x3B, 0xD6, 0xB3, 0x29, 0xE3, 0x2F, 0x84,
  0x53, 0xD1, 0x00, 0xED, 0x20, 0xFC, 0xB1, 0x5B, 0x6A, 0xCB, 0xBE, 0x39, 0x4A, 0x4C, 0x58, 0xCF,
  0xD0, 0xEF, 0xAA, 0xFB, 0x43, 0x4D, 0x33, 0x85, 0x45, 0xF9, 0x02, 0x7F, 0x50, 0x3C, 0x9F, 0xA8,
  0x51, 0xA3, 0x40, 0x8F, 0x92, 0x9D, 0x38, 0xF5, 0xBC, 0xB6, 0xDA, 0x21, 0x10, 0xFF, 0xF3, 0xD2]

/-- The S-box, 0x80 to 0xFF. -/
def aesS1 : List Byte := [
  0xCD, 0x0C, 0x13, 0xEC, 0x5F, 0x97, 0x44, 0x17, 0xC4, 0xA7, 0x7E, 0x3D, 0x64, 0x5D, 0x19, 0x73,
  0x60, 0x81, 0x4F, 0xDC, 0x22, 0x2A, 0x90, 0x88, 0x46, 0xEE, 0xB8, 0x14, 0xDE, 0x5E, 0x0B, 0xDB,
  0xE0, 0x32, 0x3A, 0x0A, 0x49, 0x06, 0x24, 0x5C, 0xC2, 0xD3, 0xAC, 0x62, 0x91, 0x95, 0xE4, 0x79,
  0xE7, 0xC8, 0x37, 0x6D, 0x8D, 0xD5, 0x4E, 0xA9, 0x6C, 0x56, 0xF4, 0xEA, 0x65, 0x7A, 0xAE, 0x08,
  0xBA, 0x78, 0x25, 0x2E, 0x1C, 0xA6, 0xB4, 0xC6, 0xE8, 0xDD, 0x74, 0x1F, 0x4B, 0xBD, 0x8B, 0x8A,
  0x70, 0x3E, 0xB5, 0x66, 0x48, 0x03, 0xF6, 0x0E, 0x61, 0x35, 0x57, 0xB9, 0x86, 0xC1, 0x1D, 0x9E,
  0xE1, 0xF8, 0x98, 0x11, 0x69, 0xD9, 0x8E, 0x94, 0x9B, 0x1E, 0x87, 0xE9, 0xCE, 0x55, 0x28, 0xDF,
  0x8C, 0xA1, 0x89, 0x0D, 0xBF, 0xE6, 0x42, 0x68, 0x41, 0x99, 0x2D, 0x0F, 0xB0, 0x54, 0xBB, 0x16]

def subByte (b : Byte) : Byte := (aesS0 ++ aesS1).getD b.toNat 0

def invSubByte (b : Byte) : Byte := BitVec.ofNat 8 ((aesS0 ++ aesS1).idxOf b)

/-- Multiplication by x in GF(2⁸). -/
def xtime (b : Byte) : Byte := if b.msb then (b <<< 1) ^^^ 0x1B else b <<< 1

/-- Multiplication in GF(2⁸) by a constant below 16. -/
def aesMul (c : Nat) (b : Byte) : Byte :=
  let p := fun (i : Nat) (x : Byte) => if c / 2 ^ i % 2 = 1 then x else 0
  p 0 b ^^^ p 1 (xtime b) ^^^ p 2 (xtime (xtime b)) ^^^ p 3 (xtime (xtime (xtime b)))

/-- Bytes added in GF(2⁸). -/
def xorBytes (a b : List Byte) : List Byte := List.zipWith (fun (x y : Byte) => x ^^^ y) a b

/-- The key schedule's words from the eighth on: `w` holds the words so far. -/
def aesExpand : Nat → Byte → List (List Byte) → List (List Byte)
  | 0, _, w => w
  | n + 1, rcon, w =>
    let i := w.length
    let t := w.getD (i - 1) []
    let t := if i % 8 = 0 then xorBytes ((t.drop 1 ++ t.take 1).map subByte) [rcon, 0, 0, 0] else if i % 8 = 4 then t.map subByte else t
    aesExpand n (if i % 8 = 0 then xtime rcon else rcon) (w ++ [xorBytes (w.getD (i - 8) []) t])

/-- The fifteen round keys of a 32-byte key. -/
def aesKeys (key : List Byte) : List (List Byte) :=
  let w := aesExpand 52 1 ((List.range 8).map (fun i => (key.drop (4 * i)).take 4))
  (List.range 15).map (fun r => ((w.drop (4 * r)).take 4).flatten)

/-- ShiftRows with a row's turn, the state column by column. -/
def shiftRows (turn : Nat) (s : List Byte) : List Byte := (List.range 16).map (fun i => s.getD ((i + 4 * turn * (i % 4)) % 16) 0)

/-- MixColumns with the first row of its matrix. -/
def mixColumns (m : List Nat) (s : List Byte) : List Byte :=
  (List.range 16).map (fun i =>
    let b := fun j => aesMul (m.getD ((j + 4 - i % 4) % 4) 0) (s.getD (i / 4 * 4 + j) 0)
    b 0 ^^^ b 1 ^^^ b 2 ^^^ b 3)

/-- One block enciphered. -/
def aesEncrypt (key block : List Byte) : List Byte :=
  let ks := aesKeys key
  let s := xorBytes block (ks.getD 0 [])
  let s := ((ks.drop 1).take 13).foldl (fun s k => xorBytes (mixColumns [2, 3, 1, 1] (shiftRows 1 (s.map subByte))) k) s
  xorBytes (shiftRows 1 (s.map subByte)) (ks.getD 14 [])

/-- One block deciphered. -/
def aesDecrypt (key block : List Byte) : List Byte :=
  let ks := aesKeys key
  let s := (shiftRows 3 (xorBytes block (ks.getD 14 []))).map invSubByte
  let s := ((ks.drop 1).take 13).reverse.foldl (fun s k => (shiftRows 3 (mixColumns [14, 11, 13, 9] (xorBytes s k))).map invSubByte) s
  xorBytes s (ks.getD 0 [])

/-! ### XTS (IEEE 1619) -/

/-- The tweak of block `j` of a data unit: the enciphered unit number times αʲ, as a little-endian number. -/
def xtsTweak (key2 : List Byte) (unit : Nat) (j : Nat) : Nat :=
  (List.range j).foldl (fun t _ => if t < 2 ^ 127 then 2 * t else (2 * t % 2 ^ 128) ^^^ 0x87) (unle (aesEncrypt key2 (le 16 unit)))

/-- A block between two additions of a tweak. -/
def xtsBlock (cipher : List Byte → List Byte) (t : Nat) (b : List Byte) : List Byte := xorBytes (cipher (xorBytes b (le 16 t))) (le 16 t)

/-- Key1 and Key2 of a namespace key, which are its first and second 256 bits (R382). -/
def key1 (k : BitVec 512) : List Byte := le 32 (k.extractLsb' 0 256).toNat
def key2 (k : BitVec 512) : List Byte := le 32 (k.extractLsb' 256 256).toNat

/-- A data unit in XTS, the last two blocks exchanged where the last is partial (ciphertext stealing): `a` and `b` are the tweaks that the two stolen
blocks take in turn, which encryption and decryption use in opposite order. -/
def xtsUnit (cipher : List Byte → List Byte) (tweak : Nat → Nat) (encrypting : Bool) (data : List Byte) : List Byte :=
  let m := data.length / 16
  let r := data.length % 16
  let at_ := fun i => (data.drop (16 * i)).take 16
  if r = 0 ∨ m = 0 then (List.range m).flatMap (fun i => xtsBlock cipher (tweak i) (at_ i)) ++ at_ m
  else
    let a := if encrypting then m - 1 else m
    let b := if encrypting then m else m - 1
    let x := xtsBlock cipher (tweak a) (at_ (m - 1))
    (List.range (m - 1)).flatMap (fun i => xtsBlock cipher (tweak i) (at_ i)) ++ xtsBlock cipher (tweak b) (at_ m ++ x.drop r) ++ x.take r

/-- XTS-AES-256 encryption of a data unit under a namespace key, the tweak being the unit's number (R382). -/
@[irreducible] def xtsEncrypt (k : BitVec 512) (unit : Nat) (data : List Byte) : List Byte :=
  xtsUnit (aesEncrypt (key1 k)) (xtsTweak (key2 k) unit) true data

/-- Its decryption (R382). -/
@[irreducible] def xtsDecrypt (k : BitVec 512) (unit : Nat) (data : List Byte) : List Byte :=
  xtsUnit (aesDecrypt (key1 k)) (xtsTweak (key2 k) unit) false data

/-! ### Key wrap (RFC 3394) -/

/-- The integrity check register's initial value. -/
def wrapIv : List Byte := List.replicate 8 0xA6

/-- Steps of the wrap: the register with the blocks. -/
def wrapStep (kek : List Byte) (n : Nat) (t : Nat) (x : List Byte × List (List Byte)) : List Byte × List (List Byte) :=
  let i := t % n
  let b := aesEncrypt kek (x.1 ++ x.2.getD i [])
  (xorBytes (b.take 8) (be 8 (t + 1)), x.2.set i (b.drop 8))

def unwrapStep (kek : List Byte) (n : Nat) (t : Nat) (x : List Byte × List (List Byte)) : List Byte × List (List Byte) :=
  let i := t % n
  let b := aesDecrypt kek (xorBytes x.1 (be 8 (t + 1)) ++ x.2.getD i [])
  (b.take 8, x.2.set i (b.drop 8))

/-- Blocks of 8 bytes. -/
def blocks8 (l : List Byte) : List (List Byte) := (List.range (l.length / 8)).map (fun i => (l.drop (8 * i)).take 8)

/-- AES key wrap of key data of whole 8-byte blocks. -/
@[irreducible] def keyWrap (kek data : List Byte) : List Byte :=
  let n := data.length / 8
  let x := (List.range (6 * n)).foldl (fun x t => wrapStep kek n t x) (wrapIv, blocks8 data)
  x.1 ++ x.2.flatten

/-- The key data unwrapped, none where the integrity check fails. -/
@[irreducible] def keyUnwrap (kek wrapped : List Byte) : Option (List Byte) :=
  let n := wrapped.length / 8 - 1
  let x := (List.range (6 * n)).reverse.foldl (fun x t => unwrapStep kek n t x) (wrapped.take 8, blocks8 (wrapped.drop 8))
  if x.1 = wrapIv then some x.2.flatten else none

/-! ### P-384 (FIPS 186-5) -/

/-- The prime of the field. -/
def p384P : Nat := 2 ^ 384 - 2 ^ 128 - 2 ^ 96 + 2 ^ 32 - 1

/-- The order of the base point. -/
def p384N : Nat := 0xFFFFFFFFFFFFFFFFFFFFFFFFFFFFFFFFFFFFFFFFFFFFFFFFC7634D81F4372DDF581A0DB248B0A77AECEC196ACCC52973

/-- The coefficient b; a is −3. -/
def p384B : Nat := 0xB3312FA7E23EE7E4988E056BE3F82D19181D9C6EFE8141120314088F5013875AC656398D8A2ED19D2A85C8EDD3EC2AEF

/-- The base point. -/
def p384G : Nat × Nat :=
  (0xAA87CA22BE8B05378EB1C71EF320AD746E1D3B628BA79B9859F741E082542A385502F25DBF55296C3A545E3872760AB7,
   0x3617DE4A96262C6F5D9E98BF9292DC29F8F41DBD289A147CE9DA3113B5F0B8C00A60B1CE1D7E819D7A431D7C90EA0E5F)

/-- Powers modulo m, by the exponent's bits, `bits` of them from the lowest. -/
def powMod (m : Nat) : Nat → Nat → Nat → Nat
  | 0, _, _ => 1 % m
  | bits + 1, b, e => (if e % 2 = 1 then b else 1) * powMod m bits (b * b % m) (e / 2) % m

/-- The inverse modulo a prime of 384 bits. -/
def invMod (m a : Nat) : Nat := powMod m 384 (a % m) (m - 2)

/-- A point in Jacobian coordinates: x = X ÷ Z², y = Y ÷ Z³; Z = 0 is the point at infinity. -/
structure JPoint where
  x : Nat
  y : Nat
  z : Nat

/-- Subtraction in the field. -/
def fsub (a b : Nat) : Nat := (a + p384P - b) % p384P

/-- Multiplication in the field. -/
def fmul (a b : Nat) : Nat := a * b % p384P

/-- A point doubled. -/
def jdouble (q : JPoint) : JPoint :=
  let d := fmul q.z q.z
  let g := fmul q.y q.y
  let b := fmul q.x g
  let a := 3 * fmul (fsub q.x d) (q.x + d) % p384P
  let x := fsub (fmul a a) (8 * b % p384P)
  ⟨x, fsub (fmul a (fsub (4 * b % p384P) x)) (8 * fmul g g % p384P), 2 * fmul q.y q.z % p384P⟩

/-- The sum of two points. -/
def jadd (q r : JPoint) : JPoint :=
  if q.z = 0 then r
  else if r.z = 0 then q
  else
    let z1 := fmul q.z q.z
    let z2 := fmul r.z r.z
    let u1 := fmul q.x z2
    let u2 := fmul r.x z1
    let s1 := fmul q.y (fmul r.z z2)
    let s2 := fmul r.y (fmul q.z z1)
    if u1 = u2 then (if s1 = s2 then jdouble q else ⟨1, 1, 0⟩)
    else
      let h := fsub u2 u1
      let k := fsub s2 s1
      let hh := fmul h h
      let v := fmul u1 hh
      let c := fmul h hh
      let x := fsub (fsub (fmul k k) c) (2 * v % p384P)
      ⟨x, fsub (fmul k (fsub v x)) (fmul s1 c), fmul h (fmul q.z r.z)⟩

/-- A multiple of a point, by the factor's bits, `bits` of them from the lowest. -/
def jmul : Nat → Nat → JPoint → JPoint
  | 0, _, _ => ⟨1, 1, 0⟩
  | bits + 1, k, q => if k % 2 = 1 then jadd q (jmul bits (k / 2) (jdouble q)) else jmul bits (k / 2) (jdouble q)

/-- The affine coordinates of a point, none at infinity. -/
def affine (q : JPoint) : Option (Nat × Nat) :=
  if q.z = 0 then none
  else
    let i := invMod p384P q.z
    some (fmul q.x (fmul i i), fmul q.y (fmul i (fmul i i)))

def ofAffine (q : Nat × Nat) : JPoint := ⟨q.1, q.2, 1⟩

/-- A point of the curve. -/
def onCurve (q : Nat × Nat) : Bool :=
  decide (q.1 < p384P) && decide (q.2 < p384P) && q.2 * q.2 % p384P == (q.1 * q.1 * q.1 + (p384P - 3) * q.1 + p384B) % p384P

/-- ECDSA verification of r and s by a public key over a digest (FIPS 186-5). -/
@[irreducible] def ecdsaVerify (q : Nat × Nat) (digest : BitVec 384) (r s : Nat) : Bool :=
  onCurve q && decide (0 < r) && decide (r < p384N) && decide (0 < s) && decide (s < p384N) &&
  let w := invMod p384N s
  match affine (jadd (jmul 384 (digest.toNat * w % p384N) (ofAffine p384G)) (jmul 384 (r * w % p384N) (ofAffine q))) with
  | some (x, _) => x % p384N == r
  | none => false

/-- The public key of a private scalar. -/
@[irreducible] def publicKey (d : Nat) : Nat × Nat := (affine (jmul 384 d (ofAffine p384G))).getD (0, 0)

/-- The ECDSA components r and s by a private scalar over a digest with a per-message number. -/
@[irreducible] def ecdsaSign (d k : Nat) (digest : BitVec 384) : Nat × Nat :=
  let r := ((affine (jmul 384 k (ofAffine p384G))).getD (0, 0)).1 % p384N
  (r, invMod p384N k * (digest.toNat + r * d) % p384N)

/-! ### What the device secrets give (R524, R526) -/

/-- The ASCII bytes of a label. -/
def label (s : String) : List Byte := s.toList.map (fun c => BitVec.ofNat 8 c.toNat)

/-- The device identity key's private scalar (R524). -/
def dikScalar (uds : BitVec 384) : Nat := (hmac384 (digestBytes uds) (label "RH4480 DIK")).toNat % (p384N - 1) + 1

/-- The device key-encryption key from the drive secret (R524). -/
def kekOf (ds : BitVec 384) : List Byte := (digestBytes (hmac384 (digestBytes ds) (label "RH4480 KEK"))).take 32

/-- The drive UUID from the drive secret (R524), with the version 8 and variant fields of RFC 9562. -/
def driveUuid (ds : BitVec 384) : List Byte :=
  let u := (digestBytes (hmac384 (digestBytes ds) (label "RH4480 UUID"))).take 16
  (u.set 6 ((u.getD 6 0 &&& 0x0F) ||| 0x80)).set 8 ((u.getD 8 0 &&& 0x3F) ||| 0x80)

/-- NGUID of a namespace from the drive secret (R524). -/
def nguidOf (ds : BitVec 384) (k : Nat) : List Byte := (digestBytes (hmac384 (digestBytes ds) (label "RH4480 NS" ++ le 2 k))).take 16

/-- The DIK public key as the 97-byte uncompressed point (R526). -/
def dikPoint (uds : BitVec 384) : List Byte := let q := publicKey (dikScalar uds); [0x04] ++ be 48 q.1 ++ be 48 q.2

/-- The device identity digest (R526). -/
def deviceId (uds : BitVec 384) : BitVec 384 := sha384 (dikPoint uds)

/-- A signature r, s by the device identity key over a digest (R539, R543). -/
def dikSign (uds digest : BitVec 384) : BitVec 768 :=
  let x := ecdsaSign (dikScalar uds) ((Config.signNumber digest).toNat % (p384N - 1) + 1) digest
  BitVec.ofNat 768 (x.1 * 2 ^ 384 + x.2)

/-- A signature verifies under the device identity key (R542). -/
def dikVerifies (uds digest : BitVec 384) (sig : BitVec 768) : Bool :=
  ecdsaVerify (publicKey (dikScalar uds)) digest (sig.toNat / 2 ^ 384) (sig.toNat % 2 ^ 384)

end Sys2Proof.Machine
end

