-- ==== Sys2Proof/Machine/Keys.lean ====
section
/-! DEFINITION. The media keys (15_tenant_isolation_and_keys.md, R382 to R389): key records and their changes, the draw of a key, and media
encryption. -/

namespace Sys2Proof.Machine

/-- What a key record says (R385): GEN, CREATED, its flags, and the namespace key that WRAPPED wraps. -/
structure KeyRec where
  gen : BitVec 32
  created : Dword
  erasePending : Bool
  key : BitVec 512
deriving DecidableEq, Repr

/-- Bytes 0 to 91 of the record of a namespace (R385): NS, GEN, CREATED, FLAGS with VALID set, and Key1 then Key2 wrapped by RFC 3394. -/
def keyRecordBody (kek : List Byte) (k : Nat) (r : KeyRec) : List Byte :=
  le 4 k ++ le 4 r.gen.toNat ++ le 8 r.created.toNat ++ [BitVec.ofNat 8 (1 + 2 * b2n r.erasePending)] ++ zeros 3 ++ keyWrap kek (key1 r.key ++ key2 r.key)

/-- The 96 bytes of a namespace's record (R385), its CRC-32C last. -/
def keyRecordBytes (kek : List Byte) (k : Nat) (r : KeyRec) : List Byte := let b := keyRecordBody kek k r; b ++ le 4 (crc32c b)

/-- GEN of a record's bytes, whatever they are worth. -/
def recordGen (l : List Byte) : BitVec 32 := BitVec.ofNat 32 (unle ((l.drop 4).take 4))

/-- A record read from its bytes where it is good (R386): its CRC holds, VALID = 1, and WRAPPED passes the integrity check of RFC 3394. -/
def readKeyRecord (kek : List Byte) (l : List Byte) : Option KeyRec :=
  let flags := unle ((l.drop 16).take 1)
  if l.length = 96 ∧ crc32c (l.take 92) = unle (l.drop 92) ∧ flags % 2 = 1 then
    (keyUnwrap kek ((l.drop 20).take 72)).map (fun d => ⟨recordGen l, BitVec.ofNat 64 (unle ((l.drop 8).take 8)), flags / 2 % 2 == 1, BitVec.ofNat 512 (unle d)⟩)
  else none

/-- A copy of a record as KEY finds it once it has the key-encryption key (R386, R387). -/
def goodCopy (s : State) (l : List Byte) : Option KeyRec := s.key.kek.bind (fun kek => readKeyRecord kek l)

/-- The record of a namespace that KEY uses (R386): the good copy of higher GEN. -/
def keySelected (s : State) (k : Nat) : Option KeyRec :=
  match smGet k s.key.recs with
  | some (a, b) =>
    match goodCopy s a, goodCopy s b with
    | some x, some y => if x.gen.toNat < y.gen.toNat then some y else some x
    | some x, none => some x
    | none, y => y
  | none => none

/-- KEY_STAT shows the pending erases and, in a pair, that the partner holds every record change (R389, R403). -/
def showKeys (s : State) : State :=
  let pending := (s.key.recs.filter (fun e => match keySelected s e.1 with | some r => r.erasePending | none => false)).length
  (s.put F.KEY_STAT_PENDING pending).putB F.KEY_STAT_PAIR_SYNC (imageRole s != 0 && mirroring s && s.bat.racks.isEmpty)

/-- The NVMe Timestamp now, in ms; 0 if none was set (R338, R385). -/
def timestampNow (s : State) : Dword :=
  match s.qe.stamp with
  | some (v, at_) => v + BitVec.ofNat 64 ((s.now.toNat - at_) / 100000)
  | none => 0

/-- A new namespace key (R387): drawn again where Key1 equals Key2. -/
def drawKey (s : State) : BitVec 512 × State :=
  let (k, s) := s.free 512
  if k.extractLsb' 0 256 = k.extractLsb' 256 256 then s.free 512 else (k, s)

/-- A change of record (R386, R389): both copies written and read back, the plaintext store kept in step, the partner told. `ok` says that the
read-back agrees; where it differs the old key is kept. -/
def writeKeyRecord (k : Nat) (r : KeyRec) (ok : Bool) (slot : Option Nat) (s : State) : Bool × State :=
  if !ok then (false, s.flag F.KEY_FLT_MRAM_WR)
  else
    let l := keyRecordBytes (s.key.kek.getD []) k r
    let s := { s with key := { s.key with recs := smSet k (l, l) s.key.recs, keys := smSet k r.key s.key.keys } }
    (true, showKeys (batRecord (.keyrec k l) slot s))

/-- Every copy of a deleted namespace's record made zero (R394), written and read back as any change of a record is. -/
def dropKeyRecord (k : Nat) (ok : Bool) (slot : Option Nat) (s : State) : Bool × State :=
  if !ok then (false, s.flag F.KEY_FLT_MRAM_WR)
  else
    let s := { s with key := { s.key with recs := smErase k s.key.recs, keys := smErase k s.key.keys } }
    (true, showKeys (batRecord (.keyrec k (zeros 96)) slot s))

/-- A new key for a namespace with a GEN (R385, R387, R394): refused while the noise source refuses draws. -/
def newKey (k : Nat) (gen : BitVec 32) (pending ok : Bool) (slot : Option Nat) (s : State) : Bool × State :=
  if s.trc.trngRefused then (false, s.flag F.KEY_FLT_TRNG)
  else
    let (key, s) := drawKey s
    writeKeyRecord k ⟨gen, timestampNow s, pending, key⟩ ok slot s

/-- The namespace has lost its key (R387). -/
def keyLost (s : State) (k : Nat) : Bool := s.on F.KEY_STAT_READY && (smGet k s.key.keys).isNone

/-- Data and metadata as they lie on the media (R382, R383): encrypted where the LBA belongs to a namespace whose key is held. -/
def toMedia (s : State) (lba : Nat) (data : List Byte) : List Byte :=
  match (nsOfLba s lba).bind (fun p => smGet p.1 s.key.keys) with
  | some key => xtsEncrypt key lba data
  | none => data

/-- Data and metadata as the buffer holds them (R383). -/
def fromMedia (s : State) (lba : Nat) (data : List Byte) : List Byte :=
  match (nsOfLba s lba).bind (fun p => smGet p.1 s.key.keys) with
  | some key => xtsDecrypt key lba data
  | none => data

/-- The records of one namespace unwrapped (R386, R387): a copy that is not good is counted and flagged, and one that is not the selected record is
written again. -/
def unwrapOne (ok : Bool) (k : Nat) (s : State) : State :=
  match smGet k s.key.recs with
  | none => s
  | some (a, b) =>
    let bad := fun (l : List Byte) => (goodCopy s l).isNone
    let (badA, badB) := (bad a, bad b)
    let s := if badA then s.count F.KEY_CNT_UNWRAP_FAIL else s
    let s := if badB then s.count F.KEY_CNT_UNWRAP_FAIL else s
    let s := if badA || badB then s.flag F.KEY_FLT_UNWRAP else s
    match keySelected s k with
    | some r =>
      let s := { s with key := { s.key with keys := smSet k r.key s.key.keys } }
      let l := if goodCopy s a = some r then a else b
      if l = a ∧ l = b then s
      else if ok then { s with key := { s.key with recs := smSet k (l, l) s.key.recs } }
      else s.flag F.KEY_FLT_MRAM_WR
    | none => s

/-- KEY_UNWRAP (R386, R387): once the key-encryption key has been passed over. -/
def execKeyUnwrap (mram : Bool) (s : State) : Host.Outcome State Fault Refusal :=
  if s.key.kek.isNone then .next s
  else .next (showKeys ((forEach (s.key.recs.map (fun e => e.1)) (unwrapOne mram) s).put F.KEY_STAT_READY 1))

end Sys2Proof.Machine
end

