-- ==== Sys2Proof/Machine/BandMap.lean ====
section
/-! DEFINITION. The band map (10_band_map_and_journal.md, R248 to R277): the geometry of bands and conventional areas, the physical and
logical band tables, the media-cache index, the journal, the SEQ counter, and allocation. -/

namespace Sys2Proof.Machine

def State.onBnd (s : State) (f : Bnd → Bnd) : State := { s with bnd := f s.bnd }

/-! ### Geometry (R248 to R250, R642) -/

/-- Physical bands of the drive (R248). -/
def nbands (s : State) : Nat := match bandsSec s with | some b => b.nbands | none => 0

/-- First track of a band. -/
def bandTrack (s : State) (b : Nat) : Nat := match runOf s b with | some r => r.firstTrack + (b - r.firstBand) * r.tpb | none => 0

/-- The zone of a band: each run lies within one zone. -/
def bandZone (s : State) (b : Nat) : Nat := match runOf s b with | some r => zoneOfTrack s (laneNo s r.actuator) r.head r.firstTrack | none => 0

/-- Positions per track, group size and parity sectors of a band: conventional areas carry no track parity (R250). -/
def bandShape (s : State) (b : Nat) : Nat × Nat × Nat :=
  match runOf s b, zoneFmt s (bandZone s b) with
  | some r, some f => (f.spt, f.g, if r.kind < 2 then f.p else 0)
  | _, _ => (0, 1, 0)

/-- Data sectors of one track. -/
def dataPerTrack (spt g p : Nat) : Nat := if p = 0 then spt else spt / (g + p) * g + (spt % (g + p) - p)

/-- Position on its track of data sector `d` of the track. -/
def dataPos (spt g p d : Nat) : Nat :=
  if p = 0 then d
  else
    let q := spt / (g + p)
    if d < q * g then d / g * (g + p) + d % g else q * (g + p) + (d - q * g)

/-- Positions that `d` data sectors of one track take, their parity sectors with them. -/
def positionsFor (g p d : Nat) : Nat := if p = 0 then d else d + ((d + g - 1) / g) * p

/-- Track and position of a band's data sector. -/
def bandPlace (s : State) (b d : Nat) : Nat × Nat :=
  let (spt, g, p) := bandShape s b
  let n := max 1 (dataPerTrack spt g p)
  (bandTrack s b + d / n, dataPos spt g p (d % n))

/-- Sectors of a band including parity, the S of R254. -/
def bandSize (s : State) (b : Nat) : Nat :=
  let (spt, g, p) := bandShape s b
  let n := max 1 (dataPerTrack spt g p)
  bandSectors s / n * spt + positionsFor g p (bandSectors s % n)

/-- Position of a band's data sector counted over all positions from the band's start. -/
def bandPosition (s : State) (b d : Nat) : Nat := let (t, i) := bandPlace s b d; (t - bandTrack s b) * (bandShape s b).1 + i

/-- The data sector at a position of a track, none at a parity position. -/
def dataAt (spt g p i : Nat) : Option Nat :=
  if p = 0 then some i
  else
    let q := spt / (g + p)
    if i < q * (g + p) then (if i % (g + p) < g then some (i / (g + p) * g + i % (g + p)) else none)
    else if i + p < spt then some (q * g + (i - q * (g + p))) else none

/-- The data sector of a band at a track and position. -/
def bandDataAt (s : State) (b track i : Nat) : Option Nat :=
  let (spt, g, p) := bandShape s b
  (dataAt spt g p i).map (fun d => (track - bandTrack s b) * dataPerTrack spt g p + d)

/-- The band that a track of a head of an actuator belongs to. -/
def bandOfTrack (s : State) (act head track : Nat) : Option Nat :=
  ((bandRuns s).find? (fun r => r.actuator == act && r.head == head && decide (r.firstTrack ≤ track) && decide (track < r.firstTrack + r.bands * r.tpb))).map
    (fun r => r.firstBand + (track - r.firstTrack) / max 1 r.tpb)

/-- The bands of a kind on an actuator, in the order of the runs. -/
def bandsOfKind (s : State) (a kind : Nat) : List Nat :=
  ((bandRuns s).filter (fun r => r.actuator == a && r.kind == kind)).flatMap (fun r => (List.range r.bands).map (fun i => r.firstBand + i))

/-- Sectors of an actuator's media-cache log (R249). -/
def logSectors (s : State) (a : Nat) : Nat := (bandsOfKind s a 5).length * bandSectors s

/-- Band and data sector of a log index. -/
def logPlace (s : State) (a idx : Nat) : Nat × Nat := ((bandsOfKind s a 5).getD (idx / bandSectors s) 0, idx % bandSectors s)

/-- The log index of a data sector of a media-cache band. -/
def logIndex (s : State) (a b d : Nat) : Nat := (bandsOfKind s a 5).findIdx (fun x => x == b) * bandSectors s + d

/-- Spare bands declared for an actuator, INITIAL (R296). -/
def initialSpares (s : State) (a : Nat) : Nat := (bandsOfKind s a 1).length

/-! ### Tables (R256, R257) -/

/-- A band as its run has it before anything is recorded: FREE, SPARE or CONVENTIONAL. -/
def bandInit (s : State) (b : Nat) : Band :=
  match runOf s b with
  | some r => ⟨if r.kind = 0 then 0 else if r.kind = 1 then 5 else 4, r.actuator, r.head, none, 0, 0, 0, 0, 0, 0, 0⟩
  | none => ⟨4, 0, 0, none, 0, 0, 0, 0, 0, 0, 0⟩

def State.band (s : State) (b : Nat) : Band := smGetD (bandInit s b) b s.bnd.pbt
def State.setBand (s : State) (b : Nat) (x : Band) : State := s.onBnd (fun n => { n with pbt := smSet b x n.pbt })

/-- A logical band that nothing is recorded of. -/
def lbandNew : LBand := ⟨none, .empty, 0, 0⟩

def State.lband (s : State) (l : Nat) : LBand := smGetD lbandNew l s.bnd.lbt
def State.setLband (s : State) (l : Nat) (x : LBand) : State := s.onBnd (fun n => { n with lbt := smPut lbandNew l x n.lbt })

/-- The logical band of a device LBA (R251). -/
def lbandOf (s : State) (lba : Nat) : Nat := lba / bandSectors s

/-- WEAR (R278), in 32 bits; conventional, spare and retired bands have none. -/
def wearOf (s : State) (b : Nat) : Nat :=
  let x := s.band b
  if 4 ≤ x.state then 0 else (s.get F.BND_WEAR_CFG_WR * x.rewrites + s.get F.BND_WEAR_CFG_WD * x.disturb) % 2 ^ 32

/-- Data and spare bands of an actuator. -/
def dataBands (s : State) (a : Nat) : List Nat := bandsOfKind s a 0 ++ bandsOfKind s a 1

/-- Reads that host commands wait for: their places are referenced (R365). -/
def hostReads (s : State) : List WorkReq :=
  let all := s.rly.requests ++ s.rly.pool.map (fun i => i.req) ++ lanes.flatMap (fun (a : Lane) => (s.act a).items.map (fun i => i.req))
  all.filter (fun r => r.kind == 0 && (match r.for_ with | .host _ => true | _ => false))

/-- Bands whose freeing no checkpoint on the media records yet (R265), or that an unfinished command references (R365). -/
def heldBands (s : State) : List Nat := s.bnd.freed ++ (match s.bnd.flush with | some f => f.freed | none => []) ++ (hostReads s).map (fun r => r.band)

/-- FREE bands of an actuator that may be written (R265). -/
def freeBands (s : State) (a : Nat) : List Nat := (dataBands s a).filter (fun b => (s.band b).state == 0 && !(heldBands s).contains b)

/-- FB(a) (R284). -/
def fbOf (s : State) (a : Nat) : Nat := ((dataBands s a).filter (fun b => (s.band b).state == 0)).length

/-- SPARE bands left, REMAINING(a) (R296). -/
def sparesLeft (s : State) (a : Nat) : Nat := ((dataBands s a).filter (fun b => (s.band b).state == 5)).length

/-! ### The media-cache index (R258, R259) -/

/-- SEQ of an LBA that an extent covers (R258): it rises by one per sector, but in a deallocation, whose DEALLOC entry carries one SEQ for all its
blocks (R262, log 40). -/
def extentSeq (e : Extent) (lba : Nat) : Nat := match e.loc with | some _ => e.seq + (lba - e.first) | none => e.seq

/-- The parts of an extent outside [first, first + len). -/
def extentMinus (first len : Nat) (e : Extent) : List Extent :=
  if e.first + e.len ≤ first ∨ first + len ≤ e.first then [e]
  else
    let left := if e.first < first then [{ e with len := first - e.first }] else []
    let n := first + len - e.first
    let right := if first + len < e.first + e.len then
      [⟨first + len, e.first + e.len - (first + len), e.loc.map (fun p => (p.1, p.2 + n)), extentSeq e (first + len)⟩] else []
    left ++ right

/-- LBAs of [lo, hi) that extents cover. -/
def coveredIn (s : State) (lo hi : Nat) : Nat := s.bnd.mci.foldl (fun m e => m + (min hi (e.first + e.len) - max lo e.first)) 0

/-- The sectors of physical bands that lose their place to a range newly covered no longer count as valid (R257). -/
def shadowBands (first len : Nat) (s : State) : State :=
  let bs := max 1 (bandSectors s)
  let l0 := first / bs
  forEach ((List.range ((first + len - 1) / bs + 1 - l0)).map (fun i => l0 + i)) (fun l s =>
    let lo := max first (l * bs)
    let hi := min (first + len) ((l + 1) * bs)
    let k := (hi - lo) - coveredIn s lo hi
    match (s.lband l).phys with
    | some b => if k = 0 then s else (let x := s.band b; s.setBand b { x with valid := x.valid - k })
    | none => s) s

/-- LBAs from `first` on marked as deallocated under one SEQ, in extents of up to 256 (R258). -/
def deallocExtents (first len seq : Nat) : List Extent :=
  (List.range ((len + 255) / 256)).map (fun i => ⟨first + 256 * i, min 256 (len - 256 * i), none, seq⟩)

/-- A range taken out of the index and `l` put in its place: what stood there is covered (R255). -/
def mciPut (first len : Nat) (l : List Extent) (s : State) : State :=
  (shadowBands first len s).onBnd (fun b => { b with mci := b.mci.flatMap (extentMinus first len) ++ l })

/-- An extent entered: it covers what stood there (R255). -/
def mciAdd (e : Extent) (s : State) : State := mciPut e.first e.len [e] s

/-- The parts of an extent that no extent of the index with an equal or higher SEQ covers (R255, R269). -/
def newParts (s : State) (e : Extent) : List Extent :=
  (s.bnd.mci.filter (fun x =>
    let lo := max x.first e.first
    decide (lo < min (x.first + x.len) (e.first + e.len)) && decide (extentSeq e lo ≤ extentSeq x lo))).foldl (fun l x => l.flatMap (extentMinus x.first x.len)) [e]

/-- An extent entered where it is newer than what stands there (R255, R269). -/
def mciMerge (e : Extent) (s : State) : State := forEach (newParts s e) mciAdd s

/-- The extents of a range removed where their SEQ lies below a bound (R267). -/
def mciRemove (first len below : Nat) (s : State) : State :=
  s.onBnd (fun b => { b with mci := b.mci.flatMap (fun e => if e.seq < below then extentMinus first len e else [e]) })

/-- The extent that covers an LBA (R259). -/
def mciFind (s : State) (lba : Nat) : Option Extent := s.bnd.mci.find? (fun e => decide (e.first ≤ lba) && decide (lba < e.first + e.len))

/-- Media-cache extents of a logical band, the LBT's extent count (R256). -/
def extentsOf (s : State) (l : Nat) : List Extent :=
  s.bnd.mci.filter (fun e => decide (lbandOf s e.first ≤ l) && decide (l ≤ lbandOf s (e.first + e.len - 1)))

/-- Where the current copy of a device LBA lies (R255, R259). -/
inductive Copy where
  | none
  | log (act idx : Nat)
  | band (b d : Nat)
deriving DecidableEq, Repr

/-- BND's answer for a device LBA (R259): a covering extent wins; a zone is written up to its write pointer; nothing else is deallocated. -/
def resolve (s : State) (lba : Nat) : Copy :=
  match mciFind s lba with
  | some e => match e.loc with | some (a, i) => .log a (i + (lba - e.first)) | none => .none
  | none =>
    let l := s.lband (lbandOf s lba)
    match l.phys with
    | some b =>
      let d := lba % bandSectors s
      match nsOfLba s lba with
      | some (_, e) => if e.kind = 2 ∧ l.wp ≤ d then .none else .band b d
      | none => .band b d
    | none => .none

/-- Actuator, head, track and position of a copy. -/
def copyPlace (s : State) : Copy → Option (Nat × Nat × Nat × Nat × Nat)
  | .none => none
  | .log a i => let (b, d) := logPlace s a i; let (t, p) := bandPlace s b d; some (a, (s.band b).head, t, p, b)
  | .band b d => let (t, p) := bandPlace s b d; some ((s.band b).act, (s.band b).head, t, p, b)

/-- BND_MC_STAT shows the fill of the fullest log and of the index (R277). -/
def showMc (s : State) : State :=
  let fill := fun (a : Lane) => let m := s.bnd.mc.get a; if logSectors s a = 0 then 0 else (m.head - m.tail) * 1024 / logSectors s a
  (s.put F.BND_MC_STAT_MC_FILL (lanes.foldl (fun m a => max m (fill a)) 0)).put F.BND_MC_STAT_MCI_USE (s.bnd.mci.length * 1024 / 16777216)

/-! ### The SEQ counter (R254) -/

/-- `k` consecutive values taken from the counter, its first; none where the ceiling stalls it (R493). -/
def takeSeq (k : Nat) (s : State) : Option (Nat × State) :=
  if seqRoom s k then let v := seqNext s; some (v, putSeq (v + k) s) else none

/-! ### Collection measures (R284, R288) -/

/-- Free sectors of a media-cache log. -/
def logFree (s : State) (a : Lane) : Nat := logSectors s a - ((s.bnd.mc.get a).head - (s.bnd.mc.get a).tail)

/-- MC_FREE(a) (R284). -/
def mcFree (s : State) (a : Lane) : Nat := if logSectors s a = 0 then 0 else logFree s a * 256 / logSectors s a

/-- The thresholds as they act (R284): BG_MC, FG_MC, HARD_MC. -/
def mcThr (s : State) : Nat × Nat × Nat :=
  let hard := s.get F.BND_GC_THR_HARD_MC
  let fg := if s.get F.BND_GC_THR_FG_MC ≤ hard then hard + 1 else s.get F.BND_GC_THR_FG_MC
  (max fg (s.get F.BND_GC_THR_BG_MC), fg, hard)

/-- The thresholds as they act (R284): BG_FB, FG_FB, HARD_FB. -/
def fbThr (s : State) : Nat × Nat × Nat :=
  let hard := s.get F.BND_GC_BANDS_HARD_FB
  let fg := if s.get F.BND_GC_BANDS_FG_FB ≤ hard then hard + 1 else s.get F.BND_GC_BANDS_FG_FB
  (max fg (s.get F.BND_GC_BANDS_BG_FB), fg, hard)

/-- The collection level of an actuator (R284). -/
def levelFor (s : State) (a : Lane) : Nat :=
  let (bgM, fgM, hardM) := mcThr s
  let (bgF, fgF, hardF) := fbThr s
  let m := mcFree s a
  let f := fbOf s a
  let i := s.bnd.mci.length * 1024 / 16777216
  if m ≤ hardM ∨ f ≤ hardF ∨ 992 ≤ i then 3
  else if m < fgM ∨ f < fgF ∨ 960 ≤ i then 2
  else if m < bgM ∨ f < bgF then 1
  else 0

/-- The level that BND_GC_STAT shows. -/
def levelOf (s : State) (a : Lane) : Nat := s.get ⟨R.BND_GC_STAT, 2 * a + 1, 2 * a⟩

/-- The throttle factor H of R288, 256 at levels 0 and 1. -/
def throttle (s : State) (a : Lane) : Nat :=
  if levelOf s a < 2 then 256
  else
    let (_, fgM, hardM) := mcThr s
    let (_, fgF, hardF) := fbThr s
    let term := fun (v hard fg : Nat) => clampI 0 256 ((256 * ((v : Int) - hard)) / ((fg : Int) - hard))
    let i : Int := (s.bnd.mci.length * 1024 / 16777216 : Nat)
    (min (min (term (mcFree s a) hardM fgM) (term (fbOf s a) hardF fgF)) (clampI 0 256 (256 * (992 - i) / 32))).toNat

/-- CREDIT(a) changed (R288). -/
def setCredit (a : Lane) (v : Int) (s : State) : State :=
  s.onBnd (fun b => { b with mc := setV b.mc a { b.mc.get a with credit := min (2 * bandSectors s : Nat) v } })

/-- The level of an actuator evaluated again (R284, R288): on its rise to 2 or 3 CREDIT starts at BAND_SECTORS ÷ 4. -/
def evalLevel (a : Lane) (s : State) : State :=
  let old := levelOf s a
  let new := levelFor s a
  let s := showMc (s.put ⟨R.BND_GC_STAT, 2 * a + 1, 2 * a⟩ new)
  if old < 2 ∧ 2 ≤ new then setCredit a (bandSectors s / 4 : Nat) s else s

/-! ### The journal (R262 to R265) -/

/-- An entry with every field zero but its TYPE. -/
def jentry (t : Nat) : JEntry := ⟨t, 0, 0, 0, 0, 0xFFFF, 0, 0, 0⟩

/-- Both journal buffers of 4,096 entries are full: map changes wait (R256, R264). A flush in progress keeps its buffer, and entries created meanwhile
go to the other. -/
def journalFull (s : State) : Bool := decide ((if s.bnd.flush.isSome then 4096 else 8192) ≤ s.bnd.jnl.length)

/-- BND_JNL_STAT shows the pending entries and the flush (R277). -/
def showJournal (s : State) : State :=
  (s.put F.BND_JNL_STAT_PENDING (min 65535 s.bnd.jnl.length)).putB F.BND_JNL_STAT_FLUSHING s.bnd.flush.isSome

/-- A journal entry mirrored to the partner (R491). -/
def jnlSend (e : JEntry) (s : State) : State :=
  if !feedsPartner s then s
  else
    let pos := s.bat.jnlPos
    batSend 0 (.jnl pos [e]) { s with bat := { s.bat with jnlPos := pos + 1 } }

/-- A map change appended to the journal buffer (R262) and mirrored to the partner in creation order (R491). -/
def journal (e : JEntry) (s : State) : State :=
  let s := showJournal (s.onBnd (fun b => { b with jnl := b.jnl ++ [e], sinceImage := b.sinceImage + 1 }))
  jnlSend e s

/-- A flush is forced (R263): it starts with the next JOURNAL_FLUSH. -/
def forceFlush (s : State) : State := s.onBnd (fun b => { b with flushDue := true })

/-- The level of the actuator that a band lies on is evaluated again (R284). -/
def evalBand (b : Nat) (s : State) : State := let a := (s.band b).act; if h : a < 4 then evalLevel ⟨a, h⟩ s else s

/-- A band's state changed and journaled as BAND_STATE (R257, R262, R279, R295). -/
def bandState (b state : Nat) (s : State) : State :=
  let x := s.band b
  let s := s.setBand b { x with state := state, seq := max x.seq (seqNext s) }
  evalBand b (journal { jentry 0x05 with band := b, seq := seqNext s, arg0 := state, arg1 := x.vfy + x.rewrites * 65536 } s)

/-- Patrol reads of a band that is freed are given up (R292). -/
def skipPatrol (b : Nat) (s : State) : State :=
  let keep := fun (r : WorkReq) => !(r.for_ == .patrol && r.band == b)
  { s with rly := { s.rly with requests := s.rly.requests.filter keep, pool := s.rly.pool.filter (fun i => keep i.req) } }

/-- A band returns to FREE (R265, R279): REWRITES rises where it had been written, and it is held until a checkpoint records it. -/
def freeBand (b : Nat) (s : State) : State :=
  let x := s.band b
  let s := s.setBand b { x with logical := none, valid := 0, pos := 0, rewrites := x.rewrites + b2n (x.pos != 0 || x.valid != 0 || x.state == 2) }
  let s := skipPatrol b (bandState b 0 s)
  s.onBnd (fun n => { n with freed := n.freed ++ [b] })

/-! ### Allocation (R266, R281) -/

/-- Bands on a pre-list. -/
def preListed (s : State) : List Nat := lanes.flatMap (fun n => s.bnd.prelist.get n)

/-- The head of a band is disabled for writing (R281). -/
def headDisabled (s : State) (b : Nat) : Bool := let x := s.band b; s.get ((F.LNn_WR_HEAD_DIS_DIS (laneNo s x.act)).bit x.head) == 1

/-- The band of least WEAR, the lowest number among ties. -/
def leastWorn (s : State) (l : List Nat) : Option Nat :=
  l.foldl (fun (best : Option Nat) b =>
    match best with
    | none => some b
    | some c => if wearOf s b < wearOf s c ∨ (wearOf s b = wearOf s c ∧ b < c) then some b else some c) none

/-- The band of greatest WEAR, the lowest number among ties. -/
def mostWorn (s : State) (l : List Nat) : Option Nat :=
  l.foldl (fun (best : Option Nat) b =>
    match best with
    | none => some b
    | some c => if wearOf s c < wearOf s b ∨ (wearOf s b = wearOf s c ∧ b < c) then some b else some c) none

/-- FREE bands that an allocation on an actuator may take (R281); `collection` marks a collection rewrite whose old band is freed by it. -/
def allocatable (s : State) (a : Nat) (collection : Bool) : List Nat :=
  let l := (freeBands s a).filter (fun b => !(preListed s).contains b && !headDisabled s b)
  if collection || decide (s.get F.BND_GC_BANDS_HARD_FB < fbOf s a) then l else []

/-- A band taken for use: its state, logical band and VFY (R257). -/
def openBand (b state l : Nat) (s : State) : State :=
  let x := s.band b
  let s := s.setBand b { x with logical := some l, vfy := s.get F.BND_VFY_CFG_NEW, valid := 0, pos := 0 }
  bandState b state s

/-- Where the tail of a log may stand (R284, R288): at the oldest sector that is still current or that an unfinished command references (R365), at the
head where there is none. -/
def tailTarget (s : State) (a : Lane) : Nat :=
  let n := max 1 (logSectors s a)
  let m := s.bnd.mc.get a
  let at_ := fun i => (i + n - m.tail % n) % n
  let live := s.bnd.mci.filterMap (fun e => match e.loc with | some (x, i) => if x = a.val then some (at_ i) else none | none => none)
  let held := (hostReads s).filterMap (fun r =>
    if r.act = a.val ∧ (bandsOfKind s a 5).contains r.band then some (at_ (logIndex s a r.band ((bandDataAt s r.band r.track r.pos).getD 0))) else none)
  m.tail + (live ++ held).foldl min (m.head - m.tail)

/-- The tail of a log advances to where the entries of a checkpoint on the media let it stand (R265, R288): CREDIT grows by ⌊H × F ÷ 256⌋, with the H in
force before. -/
def advanceTail (a : Lane) (target : Nat) (s : State) : State :=
  let m := s.bnd.mc.get a
  let t := min target (tailTarget s a)
  if logSectors s a = 0 ∨ t ≤ m.tail then s
  else
    let h := throttle s a
    let s := s.onBnd (fun b => { b with mc := setV b.mc a { m with tail := t } })
    evalLevel a (setCredit a (m.credit + (h * (t - m.tail) / 256 : Nat)) s)

/-! ### Deallocation (R252, R262, R300) -/

/-- One DEALLOC entry per 65,535 blocks of a range, as (first, count). -/
def deallocParts : Nat → Nat → Nat → List (Nat × Nat)
  | 0, _, _ => []
  | n + 1, first, count =>
    if count = 0 then [] else if count ≤ 65535 then [(first, count)] else (first, 65535) :: deallocParts n (first + 65535) (count - 65535)

/-- A whole logical band no longer holds data: its band is freed under R265 (R300). -/
def dropWhole (l : Nat) (s : State) : State :=
  let x := s.lband l
  if s.bnd.rewrites.any (fun r => r.logical == l) then s
  else
    match x.phys with
    | some b => (freeBand b (s.setLband l { x with phys := none, seq := max x.seq (seqNext s) })).onBnd (fun n => { n with weakQ := n.weakQ.filter (fun y => y != l) })
    | none => s.onBnd (fun n => { n with weakQ := n.weakQ.filter (fun y => y != l) })

/-- The part [lo, hi) of a logical band deallocated under a SEQ (R256, R258, R300): a whole one that is not being rewritten loses its extents and its
band, of any other the blocks are marked. -/
def deallocBand (l lo hi seq : Nat) (s : State) : State :=
  let bs := bandSectors s
  let y := s.lband l
  let s := s.setLband l { y with seq := max y.seq seq }
  if lo = l * bs ∧ hi = (l + 1) * bs ∧ !s.bnd.rewrites.any (fun r => r.logical == l) then
    dropWhole l (s.onBnd (fun b => { b with mci := b.mci.flatMap (extentMinus lo (hi - lo)) }))
  else mciPut lo (hi - lo) (deallocExtents lo (hi - lo) seq) s

/-- A range of device LBAs deallocated in the map (R258, R262): journaled under one SEQ, then band by band. -/
def dealloc (first count : Nat) (s : State) : State :=
  if count = 0 then s else
  let seq := seqNext s
  let s := forEach (deallocParts (count / 65535 + 1) first count) (fun p s => journal { jentry 0x02 with x := p.1, count := p.2, seq := seq } s) (putSeq (seq + 1) s)
  let bs := max 1 (bandSectors s)
  let l0 := first / bs
  forEach ((List.range ((first + count - 1) / bs + 1 - l0)).map (fun i => l0 + i)) (fun l s =>
    deallocBand l (max first (l * bs)) (min (first + count) ((l + 1) * bs)) seq s) s

/-- A band rewrite abandoned (R300): its target returns to FREE, its REWRITES increased (R273). -/
def abandonRewrite (l : Nat) (s : State) : State :=
  match s.bnd.rewrites.find? (fun r => r.logical == l) with
  | some r =>
    let x := s.band r.new
    freeBand r.new (({ s with bnd := { s.bnd with rewrites := s.bnd.rewrites.filter (fun q => q.logical != l) } }).setBand r.new { x with pos := max 1 x.pos })
  | none => s

/-- Every band of a namespace freed, its extents gone (R253, R346, R394). -/
def deallocNamespace (e : NsEntry) (s : State) : State :=
  let s := forEach ((List.range e.count).map (fun i => e.base + i)) abandonRewrite s
  let s := dealloc (nsBase s e) (nsSize s e) s
  forEach ((List.range e.count).map (fun i => e.base + i)) (fun l s =>
    s.onBnd (fun b => { b with lbt := smErase l b.lbt, uncorr := b.uncorr.filter (fun x => x / bandSectors s != l) })) s

/-! ### Spares (R295 to R297) -/

/-- A spare warning raised once in the life of the part (R296, R341). -/
def warnSpare (a : Lane) (k : Fin 3) (s : State) : State :=
  let left := sparesLeft s a
  let p : Nat := match k with | 0 => 50 | 1 => 25 | 2 => 10
  let rec_ := s.bnd.patrol.get a
  if p * initialSpares s a < left * 100 ∨ rec_.warned.getLsbD k then s
  else
    let s := s.onBnd (fun b => { b with patrol := setV b.patrol a { rec_ with warned := rec_.warned ||| (1#3 <<< k.val) } })
    match k with
    | 0 => asyncEventAll 7 0x80 0x02 (s.flag ((F.BND_SPARE_EVT_W50).bit a))
    | 1 => asyncEventAll 7 0x81 0x02 (s.flag ((F.BND_SPARE_EVT_W25).bit a))
    | 2 => asyncEventAll 1 2 0x02 (s.flag ((F.BND_SPARE_EVT_W10).bit a))

/-- The spare bands of an actuator judged (R296, R297). -/
def judgeSpares (a : Lane) (s : State) : State :=
  if !ownAct s a then s
  else
    let s := warnSpare a 2 (warnSpare a 1 (warnSpare a 0 s))
    if sparesLeft s a = 0 then (s.flag ((F.BND_SPARE_EVT_EMPTY).bit a)).cond F.GLB_MODE_COND_SPARES_OUT else s

/-- A band RETIRED, and the lowest-numbered SPARE band of its actuator turned FREE (R295). -/
def retireBand (b : Nat) (s : State) : State :=
  let x := s.band b
  let s := (bandState b 6 (s.setBand b { x with logical := none, valid := 0 })).count F.BND_UPKEEP_CNT_RETIRED
  let s := match (dataBands s x.act).find? (fun c => (s.band c).state == 5) with
    | some c => bandState c 0 s
    | none => s
  if h : x.act < 4 then judgeSpares ⟨x.act, h⟩ s else s

/-- A band made pending retirement (R294, R295): a FREE band is RETIRED at once, and none in READONLY (R299) or once spares are out. -/
def pendRetire (b : Nat) (s : State) : State :=
  if s.mode == Mode.readonly || s.on F.GLB_MODE_COND_SPARES_OUT then s
  else if (s.band b).state == 0 then retireBand b s
  else
    let h := smGetD ⟨0, 0, false, false, false⟩ b s.bnd.health
    s.onBnd (fun n => { n with health := smSet b { h with retire := true } n.health })

/-- The weak count of a band rises (R294). -/
def weaken (b : Nat) (s : State) : State :=
  let h := smGetD ⟨0, 0, false, false, false⟩ b s.bnd.health
  let w := min 255 (h.weak + 1)
  let queue := decide (max 1 (s.get F.BND_WEAK_CFG_WEAK_REWRITE) ≤ w)
  let s := s.onBnd (fun n => { n with health := smSet b { h with weak := w, rewriteQ := h.rewriteQ || queue } n.health })
  let s := match (s.band b).logical with
    | some l => if queue && !s.bnd.weakQ.contains l then s.onBnd (fun n => { n with weakQ := n.weakQ ++ [l] }) else s
    | none => s
  if max 1 (s.get F.BND_WEAK_CFG_WEAK_RETIRE) ≤ w then pendRetire b s else s

/-- BND_STAT.STATE set; a change makes source 23 pending (R441). -/
def putBndState (v : Nat) (s : State) : State := if s.get F.BND_STAT_STATE = v then s else (s.put F.BND_STAT_STATE v).irq 23

/-! ### Lost LBAs (R261) -/

/-- An LBA that cannot be read or placed goes onto the lost-write list (R261): journaled as LOST, with its event. -/
def loseLba (lba fn : Nat) (s : State) : State :=
  (journal { jentry 0x0A with x := lba, count := 1 } (lostBlock lba fn s)).flag F.BND_FLT_LOST

end Sys2Proof.Machine
end

