-- ==== Sys2Proof/Machine/BandWork.lean ====
section
/-! DEFINITION. What the band manager does over time (10_band_map_and_journal.md, 11_band_upkeep.md): its requests for actuator work, the
journal's flushes, map images, placements, rewrites, relocation, the rebuild, collection, migration and patrol. -/

namespace Sys2Proof.Machine

/-! ### Requests for actuator work (R302, R303) -/

/-- The accounts beyond the functions (R321). -/
def upkeepAcct : Nat := 128
def systemAcct : Nat := 129
def forwardedAcct : Nat := 130

/-- A request waits to enter the Relay pool. -/
def request (r : WorkReq) (s : State) : State := { s with rly := { s.rly with requests := s.rly.requests ++ [r] } }

/-- A request for `count` positions of a band from a position on, counted from the band's start. -/
def bandReq (s : State) (for_ : WorkFor) (cls kind fn b pos count : Nat) : WorkReq :=
  let spt := max 1 (bandShape s b).1
  let x := s.band b
  ⟨for_, cls, kind, fn, x.act, x.head, bandTrack s b + pos / spt, pos % spt, count, 0, false, 0, 0, b, 0, false, []⟩

/-- Positions from data sector `d` of a band to the last of `k` data sectors, both inclusive. -/
def spanOf (s : State) (b d k : Nat) : Nat := bandPosition s b (d + k - 1) - bandPosition s b d + 1

/-- Metadata code of the namespace that an LBA belongs to (R101, R343). -/
def metaOf (s : State) (lba : Nat) : Nat := match nsOfLba s lba with | some (_, e) => metaCode e.lbaf | none => 0

/-- A request to read `k` consecutive data sectors of a band, expected to carry LBAs from `lba` on. -/
def readReq (s : State) (for_ : WorkFor) (cls fn b d k lba : Nat) (limited : Bool) : WorkReq :=
  { bandReq s for_ cls 0 fn b (bandPosition s b d) (spanOf s b d k) with lba := lba, lbaValid := true, meta_ := metaOf s lba, limited := limited }

/-- A request to write positions of a band with LBAs and SEQ from the first data sector on; conventional areas are verified in full (R250). -/
def writeReq (s : State) (for_ : WorkFor) (cls fn b pos count lba seq : Nat) : WorkReq :=
  let conventional := match runOf s b with | some r => decide (2 ≤ r.kind) | none => false
  { bandReq s for_ cls 1 fn b pos count with
    lba := lba, lbaValid := true, meta_ := metaOf s lba, seq := seq,
    over_ := if conventional then (match runOf s b with | some r => if r.kind = 5 then s.get F.BND_VFY_CFG_MC else 3 | none => 3) else (s.band b).vfy }

/-- Work of a kind waits or is in service for a purpose. -/
def workFor (s : State) (p : WorkReq → Bool) : Bool :=
  s.rly.requests.any p || s.rly.pool.any (fun i => p i.req) || lanes.any (fun (a : Lane) => (s.act a).items.any (fun i => p i.req))

/-! ### The media-cache log (R249, R260) -/

/-- `k` sectors at the head of a log: they must be free and writable (R265); the indexes run on without wrapping. -/
def takeLog (a : Lane) (k : Nat) (s : State) : Option (Nat × State) :=
  let n := logSectors s a
  let m := s.bnd.mc.get a
  let idx := m.head % max 1 n
  if n = 0 ∨ logFree s a < k ∨ n < idx + k then none
  else some (idx, s.onBnd (fun b => { b with mc := setV b.mc a { m with head := m.head + k } }))

/-- Sectors of a log that lie beyond the head until it wraps or its band ends, so that one write stays within one band; none while the index is full
(R256, R259). -/
def logRun (s : State) (a : Lane) : Nat :=
  let n := logSectors s a
  let idx := (s.bnd.mc.get a).head % max 1 n
  if 16777216 ≤ s.bnd.mci.length then 0 else min (logFree s a) (bandSectors s - idx % bandSectors s)

/-- A write of `k` consecutive LBAs to the head of an actuator's log (R252, R254, R260). -/
def logWrite (for_ : WorkFor) (cls fn : Nat) (a : Lane) (lba k : Nat) (shares : List (Nat × Nat)) (s : State) : Option (Nat × State) :=
  if k = 0 ∨ logRun s a < k then none
  else
    match takeSeq k s with
    | some (seq, s) =>
      match takeLog a k s with
      | some (idx, s) =>
        let (b, d) := logPlace s a idx
        some (seq, evalLevel a (request { writeReq s for_ cls fn b d k lba seq with shares := shares } s))
      | none => none
    | none => none

/-! ### The journal on the media (R262 to R266) -/

/-- The journal areas that a flush writes (R264): those of two actuators that this chip owns, or of two heads of the one there is. -/
def journalAreas (s : State) : List (List Nat) :=
  let own := (lanes.filter (ownAct s)).map (fun (a : Lane) => bandsOfKind s a 4)
  let own := own.filter (fun l => !l.isEmpty)
  let areas := match own with
    | [l] =>
      let h := match l with | b :: _ => (s.band b).head | [] => 0
      let other := l.filter (fun b => (s.band b).head != h)
      if other.isEmpty then [l] else [l.filter (fun b => (s.band b).head == h), other]
    | l => l.take 2
  if s.on F.BND_CTL_ONE_COPY then areas.take 1 else areas

/-- Journal sectors that the areas hold. -/
def journalRoom (s : State) : Nat :=
  (journalAreas s).foldl (fun m l => min m (l.length * bandSectors s)) (if (journalAreas s).isEmpty then 0 else 2 ^ 48)

/-- A ring's run of `k` sectors from an index on, cut at the ends of bands: band index, data sector, count, offset in the run. -/
def ringRuns (bands bs : Nat) : Nat → Nat → Nat → Nat → List (Nat × Nat × Nat × Nat)
  | 0, _, _, _ => []
  | fuel + 1, idx, k, done =>
    if k = 0 then []
    else
      let i := idx % (bands * bs)
      let c := min k (bs - i % bs)
      (i / bs, i % bs, c, done) :: ringRuns bands bs fuel (i + c) (k - c) (done + c)

/-- PRELIST and OPEN_MAX as they act (R277). -/
def prelistLen (s : State) : Nat := max 1 (min 8 (s.get F.BND_CTL_PRELIST))
def openMax (s : State) : Nat := max 1 (min 8 (s.get F.BND_CTL_OPEN_MAX))

/-- The `k` least-worn bands of a list, in order. -/
def leastList (s : State) : Nat → List Nat → List Nat
  | 0, _ => []
  | k + 1, l => match leastWorn s l with | some b => b :: leastList s k (l.erase b) | none => []

/-- The pre-list that a flush writes for a lane (R266). -/
def newPrelist (s : State) (a : Lane) : List Nat :=
  if !ownAct s a then []
  else leastList s (prelistLen s) ((freeBands s a).filter (fun b => !headDisabled s b))

/-- ALLOC entries of a pre-list, three bands each (R262, R264). -/
def allocEntries (a : Nat) : Nat → List Nat → List JEntry
  | 0, _ => []
  | _, [] => []
  | fuel + 1, l =>
    { jentry 0x07 with act := a, count := min 3 l.length, band := l.getD 0 0, arg0 := l.getD 1 0, arg1 := l.getD 2 0 } :: allocEntries a fuel (l.drop 3)

/-- The lowest SEQ of the writes of a band that have not been placed, else the counter's next value (R264). -/
def floorSeq (s : State) (b : Nat) : Nat :=
  let all := s.rly.requests ++ s.rly.pool.map (fun i => i.req) ++ lanes.flatMap (fun (a : Lane) => (s.act a).items.map (fun i => i.req))
  (all.filter (fun r => r.kind == 1 && r.band == b)).foldl (fun m r => min m r.seq) (seqNext s)

/-- REGION entries (R264): the OPEN and REWRITE_TARGET bands of a lane, and the head of its log. -/
def regionEntries (s : State) (a : Lane) : List JEntry :=
  if !ownAct s a then []
  else
    let open_ := s.bnd.pbt.filter (fun e => e.2.act == a.val && (e.2.state == 1 || e.2.state == 3))
    let n := logSectors s a
    let m := s.bnd.mc.get a
    let (b, _) := logPlace s a (m.head % max 1 n)
    open_.map (fun e =>
      let floor := match s.bnd.rewrites.find? (fun r => r.new == e.1) with | some r => r.seq0 + e.2.pos | none => floorSeq s e.1
      { jentry 0x08 with act := a.val, band := e.1, arg0 := e.2.pos, seq := floor }) ++
    (if n = 0 then [] else [{ jentry 0x08 with act := a.val, band := b, arg0 := m.head % n, arg1 := 1, seq := floorSeq s b }])

/-- A flush may start now: the map is built and none is in progress. -/
def flushReady (s : State) : Bool := s.bnd.flush.isNone && (s.get F.BND_STAT_STATE == 4 || s.get F.BND_STAT_STATE == 5)

/-- Flush commands that wait for a flush to start (R268). -/
def flushWaiters (s : State) : List Nat := slotsWhere s (fun x => x.cmd.op == .flush && x.waits && x.result.isNone)

/-- A flush starts (R263, R264, R266): its entries, its new pre-lists, and the requests for its sectors. -/
def startFlush (s : State) : State :=
  if !flushReady s then s
  else
    let s := s.onBnd (fun b => { b with prelist := Vector.ofFn (fun (a : Fin 4) => newPrelist s a) })
    let regions := lanes.flatMap (regionEntries s)
    let allocs := lanes.flatMap (fun (a : Lane) => allocEntries a.val 8 (s.bnd.prelist.get a))
    let body := s.bnd.jnl ++ regions ++ allocs
    let n := (body.length + 1 + 127) / 128
    let areas := journalAreas s
    if !areas.isEmpty && decide (journalRoom s < s.bnd.jnlPos + n - s.bnd.jnlFrom) then
      -- no journal space is free until an image frees it (R265, R269)
      s.onBnd (fun b => { b with imageDue := true, flushDue := true })
    else
      match takeSeq (n * areas.length) s with
      | none => s.onBnd (fun b => { b with flushDue := true })
      | some (seq, s) =>
        let num := (s.get F.BND_CKPT_NUM_NUM + 1) % 2 ^ 32
        let ckpt : JEntry := { jentry 0x0F with arg0 := num, seq := seqNext s, count := regions.length }
        let entries := body ++ [ckpt]
        let entries := entries ++ List.replicate (n * 128 - entries.length) (jentry 0x00)
        let pos := s.bnd.jnlPos
        let begins := (s.bnd.jnl.filter (fun e => e.type_ == 0x03)).map (fun e => e.band)
        let run : FlushRun := ⟨num, entries, s.bnd.freed, n * areas.length, begins, flushWaiters s, lanes.map (tailTarget s)⟩
        let s := showJournal (s.onBnd (fun b => { b with jnl := [], freed := [], flushDue := false, flush := some run, jnlPos := pos + n }))
        let s := forEach (regions ++ allocs ++ [ckpt]) jnlSend s
        forEach (List.range areas.length) (fun c s =>
          let bands := areas.getD c []
          forEach (ringRuns bands.length (bandSectors s) (n + 1) pos n 0) (fun r s =>
            request (writeReq s .journal 0 systemAcct (bands.getD r.1 0) r.2.1 r.2.2.1 (pos + r.2.2.2) (seq + c * n + r.2.2.2)) s) s) s

/-- A flush is due (R263): forced, or ENTRIES × 128 entries are pending. -/
def flushWanted (s : State) : Bool :=
  s.bnd.flushDue || decide (128 * max 1 (min 32 (s.get F.BND_JNL_CFG_ENTRIES)) ≤ s.bnd.jnl.length)

/-- The checkpoint reaches the media (R264, R265): its number shows, what it freed is writable, its rewrites may write, held writes go, the
tails of the logs advance, and the Flush commands it served complete (R268). -/
def checkpointPlaced (s : State) : State :=
  match s.bnd.flush with
  | some f =>
    if f.left ≠ 0 then s
    else
      let s := (s.put F.BND_CKPT_NUM_NUM f.num).put F.BND_JNL_STAT_HELD 0
      let rw := s.bnd.rewrites.map (fun r => if f.begins.contains r.new then { r with begun := true } else r)
      let s := showJournal (s.onBnd (fun b => { b with flush := none, rewrites := rw }))
      let s := forEach f.slots (finish · okResult) s
      forEach (lanes.filter (ownAct s)) (fun a s => advanceTail a (f.tails.getD a 0) s) s
  | none => s

/-! ### Map images (R269) -/

/-- Sectors of a map image: its header, the namespace table, LBT, PBT and MCI extents (R256). -/
def imageSectors (s : State) : Nat :=
  let data := ((bandRuns s).filter (fun r => r.kind == 0)).foldl (fun m r => m + r.bands) 0
  1 + 16 + (data + 255) / 256 + (nbands s + 127) / 128 + (s.bnd.mci.length + 255) / 256

/-- The map slots of a kind (2 slot 0, 3 slot 1) on the actuators that hold an image copy. -/
def imageSlots (s : State) (slot : Nat) : List (List Nat) :=
  (((lanes.filter (ownAct s)).map (fun (a : Lane) => bandsOfKind s a (2 + slot))).filter (fun l => !l.isEmpty)).take 2

/-- A map image starts (R269), into the older slot of each copy's actuator. -/
def startImage (s : State) : State :=
  if s.bnd.image.isSome || s.get F.BND_STAT_STATE != 4 then s.onBnd (fun b => { b with imageDue := true })
  else
    let slots := imageSlots s (1 - s.bnd.imgSlot)
    let n := imageSectors s
    match takeSeq (n * slots.length) s with
    | none => s.onBnd (fun b => { b with imageDue := true })
    | some (seq, s) =>
      let c := s.get F.BND_CKPT_NUM_NUM
      let s := s.onBnd (fun b => { b with image := some (c, n * slots.length), imageDue := false, sinceImage := 0, imgPos := (match b.flush with | some f => b.jnlPos - f.entries.length / 128 | none => b.jnlPos) })
      forEach (List.range slots.length) (fun i s =>
        let bands := slots.getD i []
        forEach (ringRuns bands.length (bandSectors s) (n + 1) 0 n 0) (fun r s =>
          request (writeReq s .image 4 upkeepAcct (bands.getD r.1 0) r.2.1 r.2.2.1 r.2.2.2 (seq + i * n + r.2.2.2)) s) s) s

/-- An image is due (R269). -/
def imageWanted (s : State) : Bool :=
  s.bnd.imageDue || decide (4096 * max 1 (s.get F.BND_IMG_CFG_ENTRIES) ≤ s.bnd.sinceImage)

/-- Both copies of the image are placed (R269): older journal space is free, and a returning partner is told to load it (R501, phase 2). -/
def imagePlaced (s : State) : State :=
  match s.bnd.image with
  | some (_, 0) =>
    let s := s.onBnd (fun b => { b with image := none, imgSlot := 1 - b.imgSlot, jnlFrom := b.imgPos })
    if s.bat.phase = 1 ∧ s.mode ≠ Mode.partnerStandby then batSend 0 (.resync 2) { s with bat := { s.bat with phase := 2 } } else s
  | _ => s

/-! ### Placement (R145, R255, R258) -/

/-- A cached block has been placed under a SEQ: it is clean unless a newer version has taken its place, and the partner's copy goes (R490). -/
def markClean (lba seq : Nat) (s : State) : State :=
  match cacheGet s lba with
  | some c =>
    if c.dirty && c.seq == some seq then
      let s := cacheSet lba { c with dirty := false, mirrored := false, seq := none } s
      if c.mirrored then batSend 0 (.mfree c.ns lba 1) s else s
    else s
  | none => s

/-- An extent of one sector entered, joined to one that it continues (R258). -/
def mciPlace (lba act idx seq : Nat) (s : State) : State :=
  match s.bnd.mci.find? (fun e => e.first + e.len == lba && e.loc == some (act, idx - e.len) && decide (e.len ≤ idx) && extentSeq e lba == seq && decide (e.len < 256)) with
  | some e =>
    let s := mciAdd ⟨lba, 1, some (act, idx), seq⟩ s
    s.onBnd (fun b => { b with mci := (b.mci.filter (fun x => x != e && x != ⟨lba, 1, some (act, idx), seq⟩)) ++ [{ e with len := e.len + 1 }] })
  | none => mciAdd ⟨lba, 1, some (act, idx), seq⟩ s

/-- LOC of an extent (R258). -/
def locOf (act idx : Nat) : Nat := act * 2 ^ 30 + idx

/-- A band's health entry, where it has none. -/
def healthNew : Health := ⟨0, 0, false, false, false⟩

/-- A band joins its lane's priority queue of patrol (R291). -/
def queuePatrol (b : Nat) (s : State) : State :=
  let x := s.band b
  if h : x.act < 4 then
    let a : Lane := ⟨x.act, h⟩
    let p := s.bnd.patrol.get a
    if p.queue.contains b then s
    else
      let s := s.onBnd (fun n => { n with patrol := setV n.patrol a { p with queue := p.queue ++ [b] } })
      s.put F.BND_PATROL_STAT_QUEUED (min 65535 ((lanes.map (fun (n : Lane) => (s.bnd.patrol.get n).queue.length)).sum))
  else s

/-- A band may have been disturbed (R279, R291): conventional tracks are queued, other bands counted. -/
def disturb (b : Nat) (s : State) : State :=
  match runOf s b with
  | some r =>
    if 2 ≤ r.kind then queuePatrol b s
    else
      let x := s.band b
      let h := smGetD healthNew b s.bnd.health
      let s := s.setBand b { x with disturb := x.disturb + 1 }
      let d := min 65535 (h.disturb + 1)
      let due := decide (max 1 (s.get F.BND_PATROL_CFG_DIST_PATROL) ≤ d)
      let s := s.onBnd (fun n => { n with health := smSet b { h with disturb := d, patrolQ := h.patrolQ || due } n.health })
      if due then queuePatrol b s else s
  | none => s

/-- Each element of a list once. -/
def eachOnce (l : List Nat) : List Nat := l.foldl (fun (m : List Nat) x => if m.contains x then m else m ++ [x]) []

/-- The neighbours of a track on the same head may have been disturbed (R150, R279): each band that holds one of them, once. -/
def disturbTrack (act head track : Nat) (s : State) : State :=
  let near := (if track = 0 then [] else [track - 1]) ++ [track + 1]
  forEach (eachOnce (near.filterMap (fun t => bandOfTrack s act head t))) disturb s

/-- The bands adjacent on the same head to a band whose last track has been written (R279). -/
def disturbNeighbours (b : Nat) (s : State) : State :=
  let x := s.band b
  let t := bandTrack s b
  let last := t + (match runOf s b with | some r => r.tpb | none => 1)
  let near := (if t = 0 then [] else [t - 1]) ++ [last]
  forEach (near.filterMap (fun t => bandOfTrack s x.act x.head t)) disturb s

/-- A sector of a data band placed: its write position, its rewrite's count, the zone's write pointer (R253, R257, R267). -/
def placedInBand (r : Report) (s : State) : State :=
  let b := r.band
  let x := s.band b
  let pos := (r.track - bandTrack s b) * (bandShape s b).1 + r.index + 1
  let data := bandDataAt s b r.track r.index
  let s := s.setBand b { x with pos := max x.pos pos, seq := max x.seq r.seq, valid := x.valid + (if x.state = 1 ∧ data.isSome then 1 else 0) }
  let s := s.onBnd (fun n => { n with rewrites := n.rewrites.map (fun w => if w.new = b then { w with placed := w.placed + 1 } else w) })
  let s := if x.state = 3 ∧ data.isSome then s.onBuf (fun u => { u with copies := smErase r.lba u.copies }) else s
  let s := match x.state, x.logical, data with
    | 1, some l, some d =>
      let y := s.lband l
      let s := markClean r.lba r.seq (s.setLband l { y with wp := max y.wp (d + 1), seq := max y.seq r.seq })
      if d + 1 = bandSectors s then bandState b 2 s else s
    | _, _, _ => s
  if pos = bandSize s b then disturbNeighbours b s else s

/-- A sector of a media-cache log placed (R255, R258, R262). -/
def placedInLog (r : Report) (s : State) : State :=
  let a := (s.band r.band).act
  match bandDataAt s r.band r.track r.index with
  | some d =>
    let idx := logIndex s a r.band d
    let newer := match mciFind s r.lba with | some e => decide (r.seq < extentSeq e r.lba) | none => false
    let s := journal { jentry 0x01 with act := a, count := 1, seq := r.seq, x := r.lba, arg0 := locOf a idx } s
    let s := if newer then s else mciPlace r.lba a idx r.seq s
    let l := lbandOf s r.lba
    let y := s.lband l
    let s := s.setLband l { y with seq := max y.seq r.seq }
    evalBand r.band (markClean r.lba r.seq (s.onBuf (fun u => { u with copies := smErase r.lba u.copies })))
  | none => s

/-- A sector reported placed (R145), by the kind of its band: data or spare band, media cache, journal, map slot. -/
def bndPlaced (r : Report) (s : State) : State :=
  match (runOf s r.band).map (fun x => x.kind) with
  | some 5 =>
    let relocated := if h : r.lane < 4 then (s.act ⟨r.lane, h⟩).items.any (fun i => i.req.for_ == .relocate && i.req.kind == 1) else false
    let s := placedInLog r s
    if relocated then s.count F.BND_CNT_RELOC_PLACED else s
  | some 4 => s.onBnd (fun b => { b with flush := b.flush.map (fun f => { f with left := f.left - 1 }) })
  | some 2 => s.onBnd (fun b => { b with image := b.image.map (fun p => (p.1, p.2 - 1)) })
  | some 3 => s.onBnd (fun b => { b with image := b.image.map (fun p => (p.1, p.2 - 1)) })
  | some 6 =>
    -- a replaced sector of the journal or of a map image (R260)
    let journalled := if h : r.lane < 4 then (s.act ⟨r.lane, h⟩).items.any (fun i => i.req.for_ == .journal && i.req.band == r.band) else false
    if journalled then s.onBnd (fun b => { b with flush := b.flush.map (fun f => { f with left := f.left - 1 }) })
    else s.onBnd (fun b => { b with image := b.image.map (fun p => (p.1, p.2 - 1)) })
  | _ => placedInBand r s

/-! ### Relocation (R260, R261) -/

/-- Actuators of a namespace's set in order (R261, R311). -/
def setOf (s : State) (lba : Nat) : List Lane := match nsOfLba s lba with | some (_, e) => actsOf e.set_ | none => []

/-- A conventional sector that fails for good is replaced from the pool of its actuator (R260, R297). -/
def poolReplace (a : Lane) (s : State) : State :=
  let used := s.bnd.poolUsed.get a + 1
  let have_ := match bandsSec s with | some b => b.sectPool.getD a.val 0 | none => 0
  let s := s.onBnd (fun b => { b with poolUsed := setV b.poolUsed a used })
  if have_ ≤ used then (s.flag ((F.BND_SPARE_EVT_SECT_EMPTY).bit a)).cond F.GLB_MODE_COND_SPARES_OUT else s

/-- SEQ of the current copy of an LBA that lies in a rewritten band (R254, R259): its band's SEQ_R0 and its position. -/
def bandSeq (s : State) (lba : Nat) : Option Nat :=
  match resolve s lba with
  | .band b d => if (s.band b).state = 2 ∧ (s.band b).seq0 ≠ 0 then some ((s.band b).seq0 + bandPosition s b d) else none
  | _ => none

/-- A newer version of an LBA is in the write cache or placed on the media (R260). -/
def newerThan (s : State) (lba seq : Nat) : Bool :=
  (match cacheGet s lba with | some c => c.dirty && c.seq != some seq | none => false) ||
  (match mciFind s lba with | some e => decide (seq < extentSeq e lba) | none => (match bandSeq s lba with | some q => decide (seq < q) | none => false))

/-- The LBA at a data sector of a band or of a log, as the map has it (R273, R292). -/
def lbaAt (s : State) (b d : Nat) : Option Nat :=
  match (runOf s b).map (fun r => r.kind) with
  | some 5 =>
    let a := (s.band b).act
    let i := logIndex s a b d
    (s.bnd.mci.find? (fun e => match e.loc with | some (x, j) => x == a && decide (j ≤ i) && decide (i < j + e.len) | none => false)).map
      (fun e => match e.loc with | some (_, j) => e.first + (i - j) | none => 0)
  | some 0 => (s.band b).logical.map (fun l => l * bandSectors s + d)
  | some 1 => (s.band b).logical.map (fun l => l * bandSectors s + d)
  | _ => none

/-- The report with the band, LBA and SEQ that its place says, where the sector's own descriptor gave none. -/
def resolveReport (r : Report) (s : State) : Report :=
  match bandOfTrack s r.lane r.head r.track with
  | some b =>
    let lba := if r.lba = 0 then ((bandDataAt s b r.track r.index).bind (lbaAt s b)).getD 0 else r.lba
    let seq := if r.seq ≠ 0 then r.seq
      else match mciFind s lba with | some e => extentSeq e lba | none => (bandSeq s lba).getD (s.lband (lbandOf s lba)).seq
    { r with band := b, lba := lba, seq := seq }
  | none => r

/-- A journal or map-image sector written again in a sector of its actuator's spare-sector pool (R260). DESIGN CHOICE: with the pool used up, that copy
is given up and the other one stands (log 40). `none`: it waits, for a free counter value. -/
def relocateFixed (for_ : WorkFor) (cls fn : Nat) (r : Report) (s : State) : Option State :=
  if h : r.lane < 4 then
    let a : Lane := ⟨r.lane, h⟩
    let used := s.bnd.poolUsed.get a
    match (bandsOfKind s r.lane 6)[used / max 1 (bandSectors s)]?, (match bandsSec s with | some b => decide (used < b.sectPool.getD r.lane 0) | none => false) with
    | some b, true =>
      match takeSeq 1 s with
      | some (seq, s) => some (request (writeReq s for_ cls fn b (used % bandSectors s) 1 r.lba seq) (poolReplace a s))
      | none => none
    | _, _ => some (bndPlaced r (poolReplace a s))
  else some (bndPlaced r s)

/-- Commands admitted and not completed whose version of an LBA stands in the write cache and waits to be placed (R366, R369). -/
def throughSlots (s : State) (lba : Nat) : List Nat :=
  match cacheGet s lba with
  | some c => slotsWhere s (fun x => x.admitted && x.result.isNone && writesThrough s x && x.fon == some c.fon && runsTouch x.writes lba)
  | none => []

/-- A sector handed to BND for relocation (R260, R261): dropped where a newer version exists, written to a media cache of its actuator or
of another of the set, or lost. `none`: it waits, for a free counter value. -/
def relocate (r : Report) (s : State) : Option State :=
  if s.mode == Mode.readonly then
    -- nothing is relocated (R299); a completed write that cannot be placed is lost (R298)
    match cacheGet s r.lba with
    | some c => if c.dirty && c.seq == some r.seq then some (loseLba r.lba c.fn s) else some s
    | none => some s
  else
    match (runOf s r.band).map (fun x => x.kind) with
    | some 4 => match relocateFixed .journal 0 systemAcct r (s.flag F.BND_FLT_JNL_COPY) with | some t => some t | none => none
    | some 2 => match relocateFixed .image 4 upkeepAcct r s with | some t => some t | none => none
    | some 3 => match relocateFixed .image 4 upkeepAcct r s with | some t => some t | none => none
    | some 6 => some s
    | _ =>
      if newerThan s r.lba r.seq then some (s.count F.BND_CNT_RELOC_DROPPED)
      else if !seqRoom s 1 then none
      else if (cacheGet s r.lba).isNone && (smGet r.lba s.buf.copies).isNone && resolve s r.lba != .none then
        -- its bytes are still on their way to the buffer
        none
      else
        let s := if (s.bnd.rewrites.any (fun w => w.new == r.band)) then s.onBnd (fun b => { b with rewrites := b.rewrites.map (fun w => if w.new = r.band then { w with placed := w.placed + 1 } else w) }) else s
        let first := lanes.filter (fun (a : Lane) => a.val == r.lane)
        let rest := (setOf s r.lba).filter (fun a => a.val != r.lane)
        let order := (first ++ rest).filter (ownAct s)
        match order.findSome? (fun a => logWrite .relocate 0 systemAcct a r.lba 1 [] s) with
        | some (seq, s) =>
          match cacheGet s r.lba with
          | some c => if c.dirty then some (cacheSet r.lba { c with seq := some seq } s) else some s
          | none => some s
        | none =>
          -- a write that has not completed keeps its data as the current version and fails with Write Fault (R261, R366)
          match throughSlots s r.lba, cacheGet s r.lba with
          | k :: l, some c => some (forEach (k :: l) (fun k s => failBlock k r.lba (failResult .writeFault) s) (cacheSet r.lba { c with seq := none } s))
          | _, _ => some (loseLba r.lba (match cacheGet s r.lba with | some c => c.fn | none => 0) s)

/-! ### Band rewrites (R252, R254, R267, R281) -/

/-- The actuator whose media cache holds the most current sectors of a logical band (R281), the lower number among ties. -/
def logHolder (s : State) (l : Nat) : Option Lane :=
  let held := fun (a : Lane) => ((extentsOf s l).filter (fun e => match e.loc with | some (x, _) => x == a.val | none => false)).foldl (fun m e => m + e.len) 0
  let best := lanes.foldl (fun (b : Lane) a => if held b < held a then a else b) 0
  if held best = 0 then none else some best

/-- The actuator of a rewrite (R281). -/
def rewriteActuator (s : State) (l : Nat) : Option Lane :=
  match (s.lband l).phys with
  | some b => let x := s.band b; if h : x.act < 4 then some ⟨x.act, h⟩ else none
  | none =>
    match logHolder s l with
    | some a => some a
    | none => (setOf s (l * bandSectors s)).find? (fun a => owns s a)

/-- BND_GC_STAT shows the rewrites and migrations in progress (R301). -/
def showRewrites (s : State) : State :=
  forEach lanes (fun a s =>
    let on_ := fun k => s.bnd.rewrites.any (fun r => r.kind == k && (s.band r.new).act == a.val)
    (s.putB ((F.BND_GC_STAT_REWRITING).bit a) (on_ 0 || on_ 2)).putB ((F.BND_GC_STAT_MIGRATING).bit a) (on_ 1)) s

/-- A band rewrite begins (R254, R267): kinds 0 collection, 1 migration, 2 retirement, 3 of a band that the write cache holds dirty in full. -/
def beginRewrite (kind l : Nat) (s : State) : State :=
  if s.bnd.rewrites.any (fun r => r.logical == l) || s.get F.BND_STAT_STATE != 4 || s.mode == Mode.readonly || journalFull s then s
  else
    match rewriteActuator s l with
    | none => s
    | some a =>
      if !ownAct s a then s
      else
        let old := (s.lband l).phys
        let free := allocatable s a (kind == 0 && old.isSome)
        match (if kind = 1 then mostWorn s free else leastWorn s free) with
        | none => s
        | some b =>
          let size := bandSize s b
          match takeSeq size s with
          | none => s
          | some (seq, s) =>
            let x := s.band b
            let s := s.setBand b { x with state := 3, logical := some l, vfy := s.get F.BND_VFY_CFG_NEW, valid := 0, pos := 0, seq0 := seq, seq := seq }
            let s := journal { jentry 0x03 with band := b, arg0 := l, arg1 := old.getD 0xFFFFFFFF, seq := seq, x := size } s
            let s := s.onBnd (fun n => { n with rewrites := n.rewrites ++ [⟨kind, l, old, b, seq, size, 0, false, 0⟩] })
            showRewrites (forceFlush s)

/-- A block of a logical band whose bytes a rewrite has at hand: cached, read already, deallocated, or marked uncorrectable. -/
def sourceAt (s : State) (lba : Nat) : Bool :=
  (cacheGet s lba).isSome || (smGet lba s.buf.copies).isSome || resolve s lba == .none || s.bnd.uncorr.contains lba

/-- Where one copy is continued by another of the next LBA on the same place. -/
def copyNext : Copy → Copy
  | .none => .none
  | .log a i => .log a (i + 1)
  | .band b d => .band b (d + 1)

/-- LBAs from `lba` on whose copies lie one after the other, at most `n`. -/
def copyRun (s : State) (lba : Nat) (c : Copy) : Nat → Nat
  | 0 => 0
  | n + 1 => if c ≠ .none ∧ resolve s lba = c then 1 + copyRun s (lba + 1) (copyNext c) n else 0

/-- A read of the copies of LBAs from `lba` on that lie one after the other in one band. -/
def readCopies (s : State) (for_ : WorkFor) (cls fn lba n : Nat) (limited : Bool) : Option (Nat × WorkReq) :=
  let c := resolve s lba
  let k := copyRun s lba c n
  match c with
  | .none => none
  | .log a i =>
    let (b, d) := logPlace s a i
    let k := min k (bandSectors s - d)
    some (k, readReq s for_ cls fn b d k lba limited)
  | .band b d => some (k, readReq s for_ cls fn b d k lba limited)

/-- The class of a rewrite's items (R303): a rewrite of the write cache is destage, collection and retirement at levels 2 and 3 class 3. -/
def rewriteClass (s : State) (r : Rewrite) : Nat :=
  let a := (s.band r.new).act
  match r.kind with
  | 3 => 2
  | 2 => 3
  | 1 => 5
  | _ => if h : a < 4 then (if 2 ≤ levelOf s ⟨a, h⟩ then 3 else 5) else 5

/-- A write of an LBA to a media cache waits or is in service. -/
def logCopyComing (s : State) (lba : Nat) : Bool :=
  workFor s (fun q => q.kind == 1 && decide (q.lba ≤ lba) && decide (lba < q.lba + q.count) && (match runOf s q.band with | some x => x.kind == 5 | none => false))

/-- The next part of a rewrite (R252, R267): reads of the sources of its next track that are not at hand, or the write of that track. -/
def rewriteNext (r : Rewrite) (s : State) : State :=
  let mine := workFor s (fun q => q.for_ == .rewriteRead r.new || q.for_ == .rewriteWrite r.new)
  if !r.begun || mine || decide (r.size ≤ r.at_) || decide (r.placed < r.at_) then s
  else
    let (spt, g, p) := bandShape s r.new
    let perTrack := max 1 (dataPerTrack spt g p)
    let d0 := r.at_ / max 1 spt * perTrack
    let n := min perTrack (bandSectors s - d0)
    let lba0 := r.logical * bandSectors s + d0
    let cls := rewriteClass s r
    let s := if cls = 3 then { s with rly := { s.rly with fgShare := s.get F.BND_GC_CFG_FG_SHARE } } else s
    match (List.range n).find? (fun i => !sourceAt s (lba0 + i)) with
    | some i =>
      match readCopies s (.rewriteRead r.new) cls upkeepAcct (lba0 + i) (n - i) false with
      | some (_, q) => request q s
      | none => s
    | none =>
      let count := min spt (r.size - r.at_)
      let seq := r.seq0 + r.at_
      -- a block of which a copy with a higher SEQ is placed or on its way is destaged on its own, so that SEQ order stays write order (R255)
      let dirty := s.buf.cache.filter (fun e => e.2.dirty && e.2.seq.isNone && decide (lba0 ≤ e.1) && decide (e.1 < lba0 + n) &&
        !logCopyComing s e.1 && (match mciFind s e.1 with | some x => decide (extentSeq x e.1 < r.seq0) | none => true))
      let s := forEach dirty (fun e s => cacheSet e.1 { e.2 with seq := some (seq + bandPosition s r.new (d0 + (e.1 - lba0)) - r.at_) } s) s
      let shares := dirty.foldl (fun (l : List (Nat × Nat)) e => smSet e.2.fn (smGetD 0 e.2.fn l + 1) l) []
      let s := s.onBnd (fun b => { b with rewrites := b.rewrites.map (fun w => if w.new = r.new then { w with at_ := r.at_ + count } else w) })
      let fn := if r.kind = 3 then (match shares with | (f, _) :: _ => f | [] => upkeepAcct) else upkeepAcct
      request { writeReq s (.rewriteWrite r.new) cls fn r.new r.at_ count lba0 seq with shares := if r.kind = 3 then shares else [] } s

/-- The switch of a logical band to its new band (R267, R295): what was current of it stays, the old band is freed or RETIRED. -/
def switchBand (r : Rewrite) (s : State) : State :=
  let l := r.logical
  let bs := bandSectors s
  let s := journal { jentry 0x04 with band := r.new, arg0 := l, arg1 := r.old.getD 0xFFFFFFFF, seq := r.seq0 } s
  let y := s.lband l
  let s := s.setLband l { y with phys := some r.new, seq := max y.seq r.seq0 }
  let s := mciRemove (l * bs) bs r.seq0 s
  let over_ := (extentsOf s l).foldl (fun m e => m + (min (e.first + e.len) ((l + 1) * bs) - max e.first (l * bs))) 0
  let x := s.band r.new
  let s := s.setBand r.new { x with state := 2, logical := some l, valid := bs - over_, seq0 := r.seq0 }
  let s := s.onBnd (fun n => { n with rewrites := n.rewrites.filter (fun w => w.new != r.new), weakQ := n.weakQ.filter (fun w => w != l) })
  let clean := s.buf.cache.filter (fun e => e.2.dirty && lbandOf s e.1 == l && (match e.2.seq with | some q => decide (r.seq0 ≤ q) && decide (q < r.seq0 + r.size) | none => false))
  let s := forEach clean (fun e s => markClean e.1 (e.2.seq.getD 0) s) s
  let s := s.onBuf (fun u => { u with copies := u.copies.filter (fun e => e.1 / bs != l) })
  let s := match r.old with
    | some b =>
      let retire := (smGetD healthNew b s.bnd.health).retire && !s.on F.GLB_MODE_COND_SPARES_OUT
      let s := s.onBnd (fun n => { n with health := smErase b n.health })
      if retire then retireBand b s else freeBand b s
    | none => s
  let s := if r.kind = 0 ∨ r.kind = 2 then s.count F.BND_UPKEEP_CNT_REWRITES
    else if r.kind = 1 then s.count F.BND_UPKEEP_CNT_MIGRATIONS else s
  let a := (s.band r.new).act
  let s := if h : a < 4 then (let s := evalLevel ⟨a, h⟩ s; if 2 ≤ levelOf s ⟨a, h⟩ then forceFlush s else s) else s
  showRewrites s

/-! ### Rebuild (R270 to R274) -/

/-- A namespace's entry with what boot MRAM keeps of it (R346, R391). -/
def nsKept (b : Bnd) (k : Nat) (e : NsEntry) : NsEntry :=
  let (p, a, q) := smGetD (e.pi_, [], []) k b.attach
  { e with pi_ := p, attached := a, permits := q }

/-- The map tables as an image holds them. -/
def loadImage (m : MapImage) (s : State) : State :=
  s.onBnd (fun b => { b with ns := m.ns.map (fun e => (e.1, nsKept b e.1 e.2)), lbt := m.lbt, pbt := m.pbt, mci := m.mci })

/-- One journal entry replayed onto the map: it changes a record only if its SEQ exceeds the SEQ held there (R269). -/
def replayEntry (e : JEntry) (s : State) : State :=
  match e.type_ with
  | 0x01 =>
    let a := e.arg0 / 2 ^ 30
    let i := e.arg0 % 2 ^ 30
    let n := logSectors s a
    let y := s.lband (lbandOf s e.x)
    let s := mciMerge ⟨e.x, e.count, some (a, i), e.seq⟩ (s.setLband (lbandOf s e.x) { y with seq := max y.seq e.seq })
    if h : a < 4 then
      s.onBnd (fun b =>
        let m := b.mc.get ⟨a, h⟩
        let ahead := (i + e.count + n - m.head % max 1 n) % max 1 n
        { b with mc := setV b.mc ⟨a, h⟩ { m with head := if n = 0 then m.head else m.head + ahead } })
    else s
  | 0x02 => forEach (deallocExtents e.x e.count e.seq) mciMerge s
  | 0x03 =>
    let x := s.band e.band
    if e.seq < x.seq then s
    else
      let s := s.setBand e.band { x with state := 3, logical := some e.arg0, pos := 0, valid := 0, seq0 := e.seq, seq := e.seq }
      s.onBnd (fun b => { b with open_ := b.open_ ++ [(e.band, e.arg0, if e.arg1 = 0xFFFFFFFF then none else some e.arg1, e.seq, e.x)] })
  | 0x04 =>
    let y := s.lband e.arg0
    if e.seq < y.seq ∧ y.phys = some e.band then s
    else
      let bs := bandSectors s
      let s := mciRemove (e.arg0 * bs) bs e.seq (s.setLband e.arg0 { y with phys := some e.band, seq := max y.seq e.seq })
      let x := s.band e.band
      let s := s.setBand e.band { x with state := 2, logical := some e.arg0, valid := bs, seq0 := e.seq, seq := e.seq }
      s.onBnd (fun b => { b with open_ := b.open_.filter (fun o => o.1 != e.band) })
  | 0x05 =>
    let x := s.band e.band
    if e.seq < x.seq then s
    else
      let free := e.arg0 % 16 = 0
      -- a logical band whose band was freed has none (R267, R300)
      let s := match x.logical with
        | some l => if free ∧ (s.lband l).phys = some e.band then s.setLband l { s.lband l with phys := none } else s
        | none => s
      s.setBand e.band { x with state := e.arg0 % 16, vfy := e.arg1 % 4, rewrites := e.arg1 / 65536, logical := if free then none else x.logical, seq := e.seq }
  | 0x06 =>
    let y := s.lband e.arg0
    let z : ZoneState := match e.arg1 % 16 with | 1 => .explicitOpen | 2 => .closed | 3 => .full | 4 => .empty | _ => .offline
    let s := s.setLband e.arg0 { y with zone := z, wp := e.x, phys := if e.band = 0xFFFFFFFF then none else some e.band, seq := max y.seq e.seq }
    if e.band = 0xFFFFFFFF then s else s.setBand e.band { s.band e.band with logical := some e.arg0 }
  | 0x07 =>
    if h : e.act < 4 then
      let l := ([e.band, e.arg0, e.arg1] : List Nat).take e.count
      s.onBnd (fun b => { b with prelist := setV b.prelist ⟨e.act, h⟩ (b.prelist.get ⟨e.act, h⟩ ++ l) })
    else s
  | 0x09 =>
    if e.count % 4 = 0 then s.onBnd (fun b => { b with ns := smErase e.ns b.ns })
    else
      let entry : NsEntry := ⟨e.count % 4, e.count / 4 % 4, 0, e.arg0, e.arg1, BitVec.ofNat 4 e.x, [], []⟩
      s.onBnd (fun b => { b with ns := smSet e.ns (nsKept b e.ns entry) b.ns })
  | _ => s

/-- The checkpoint number of a flush that was read whole: its CHECKPOINT entry's. -/
def flushNumber (l : List JEntry) : Option JEntry := l.find? (fun e => e.type_ == 0x0F)

/-- The flushes replayed from C + 1 on (R270), the last one replayed being returned: replay ends before one that lacks its CHECKPOINT. -/
def replay : List (List JEntry) → Nat → Option (List JEntry) → State → Option (List JEntry) × State
  | [], _, last, s => (last, s)
  | f :: rest, num, last, s =>
    match flushNumber f with
    | some c =>
      if c.arg0 = (num + 1) % 2 ^ 32 then
        let s := s.onBnd (fun b => { b with prelist := Vector.replicate 4 [] })
        let s := forEach f replayEntry s
        let s := s.onBnd (fun b => { b with seqFound := max b.seqFound c.seq })
        replay rest c.arg0 (some f) (s.put F.BND_CKPT_NUM_NUM c.arg0)
      else (last, s)
    | none => (last, s)

/-- The regions to scan (R270, R271): those of the last checkpoint, and the pre-listed bands from position 0, for the lanes this chip owns. -/
def regionsOf (s : State) (f : List JEntry) : List Region :=
  let own := fun (a : Nat) => if h : a < 4 then ownAct s ⟨a, h⟩ else false
  ((f.filter (fun e => e.type_ == 0x08 && own e.act)).map (fun e => (⟨e.act, if e.arg1 % 2 = 1 then none else some e.band, e.arg0, e.seq⟩ : Region))) ++
  (lanes.filter (ownAct s)).flatMap (fun (a : Lane) => (s.bnd.prelist.get a).map (fun b => (⟨a.val, some b, 0, 0⟩ : Region)))

/-- BND_STAT shows the scan (R277). -/
def showScan (s : State) : State :=
  let s := s.put F.BND_STAT_REGIONS_LEFT (min 65535 s.bnd.scan.length)
  forEach lanes (fun n s => s.putB ((F.BND_STAT_SCANNING).bit n) (s.bnd.scan.any (fun r => r.lane == n.val))) s

/-- The rebuild begins (R270): the newest image, the replay, and the regions to scan. -/
def beginRebuild (images : List MapImage) (flushes : List (List JEntry)) (s : State) : State :=
  let best := images.foldl (fun (b : Option MapImage) m => match b with | some x => if x.ckpt < m.ckpt then some m else b | none => some m) none
  let s := match best with
    | some m => (loadImage m s).put F.BND_CKPT_NUM_NUM m.ckpt
    | none => s
  let (last, s) := replay flushes (match best with | some m => m.ckpt | none => 0) none s
  let s := s.onBnd (fun b => { b with scan := (match last with | some f => regionsOf s f | none => []), accepted := [] })
  let regions := s.bnd.scan
  let s := forEach regions (fun r s => match r.band with | some b => s.setBand b { s.band b with pos := r.pos } | none => s) s
  let s := if s.bnd.noteOk then s else s.flag F.BND_FLT_NOTE_BAD
  showScan (((putBndState 3 s).put F.BND_REBUILD_REGIONS 0).put F.BND_REBUILD_SCAN_MS 0)

/-- The track of a region's position, counted along the region; a position of a log is its log index. -/
def regionTrack (s : State) (r : Region) (pos : Nat) : Nat :=
  match r.band with
  | some b => pos / max 1 (bandShape s b).1
  | none =>
    let (spt, g, p) := bandShape s (logPlace s r.lane pos).1
    let n := max 1 (dataPerTrack spt g p)
    let bs := max 1 (bandSectors s)
    pos / bs * ((bs + n - 1) / n) + pos % bs / n

/-- A position of a region is accepted (R271): its decode succeeded, its BAND is the region's and its SEQ at least the floor. -/
def acceptsAt (s : State) (r : Region) (p : Scanned) : Bool :=
  let band := match r.band with | some b => b | none => (logPlace s r.lane p.pos).1
  p.good && p.band == band && decide (r.floor ≤ p.seq) && decide (r.pos ≤ p.pos)

/-- The accepted positions of a scan (R271, R272): none beyond the first track that holds none, nor beyond the note's position. -/
def accepted (s : State) (r : Region) (read : List Scanned) : List Scanned :=
  let good := read.filter (acceptsAt s r)
  let t0 := regionTrack s r r.pos
  let n := (read.map (fun p => regionTrack s r p.pos + 1)).foldl max 0
  let stop := ((List.range (n - t0)).map (fun i => t0 + i)).find? (fun t => !good.any (fun p => regionTrack s r p.pos == t))
  let note : Option Nat :=
    if s.bnd.noteOk && s.on F.BND_CTL_USE_NOTE then
      match (if h : r.lane < 4 then s.bnd.noteRec.get ⟨r.lane, h⟩ else none) with
      | some (b, p) => if b = r.band then some p else none
      | none => none
    else none
  good.filter (fun p => (match stop with | some t => decide (regionTrack s r p.pos < t) | none => true) && (match note with | some q => decide (p.pos ≤ q) | none => true))

/-- An accepted sector enters the map (R271). -/
def acceptSector (r : Region) (p : Scanned) (s : State) : State :=
  let s := s.onBnd (fun b => { b with accepted := b.accepted ++ [(r.band, p.pos, p.lba, p.seq)], seqFound := max b.seqFound (p.seq + 1) })
  match r.band with
  | none =>
    let n := logSectors s r.lane
    let newer := match mciFind s p.lba with | some e => decide (p.seq < extentSeq e p.lba) | none => false
    let s := journal { jentry 0x01 with act := r.lane, count := 1, seq := p.seq, x := p.lba, arg0 := locOf r.lane p.pos } s
    let s := if newer then s else mciPlace p.lba r.lane p.pos p.seq s
    if h : r.lane < 4 then
      s.onBnd (fun b =>
        let m := b.mc.get ⟨r.lane, h⟩
        let ahead := (p.pos + 1 + n - m.head % max 1 n) % max 1 n
        { b with mc := setV b.mc ⟨r.lane, h⟩ { m with head := m.head + ahead } })
    else s
  | some b =>
    let x := s.band b
    let (spt, g, q) := bandShape s b
    let data := (dataAt spt g q (p.pos % max 1 spt)).isSome
    let logical := match x.logical with | some l => some l | none => some (lbandOf s p.lba)
    s.setBand b { x with pos := max x.pos (p.pos + 1), valid := x.valid + b2n data, seq := max x.seq p.seq, logical := logical, state := if x.state = 0 then 1 else x.state }

/-- A lane completes the scan of its next region (R271). -/
def scanRegion (n : Lane) (read : List Scanned) (ms : Nat) (s : State) : State :=
  match s.bnd.scan.find? (fun r => r.lane == n.val) with
  | some r =>
    let s := forEach (accepted s r read) (acceptSector r) (s.onBnd (fun b => { b with scan := b.scan.erase r }))
    let s := s.count F.BND_REBUILD_REGIONS
    showScan (s.put F.BND_REBUILD_SCAN_MS (max (s.get F.BND_REBUILD_SCAN_MS) (min 65535 ms)))
  | none => s

/-- Every data position of an open rewrite's new band is there (R273). -/
def rewriteComplete (s : State) (new l seq0 size : Nat) (from_ : Nat) : Bool :=
  (List.range (bandSectors s)).all (fun d =>
    let p := bandPosition s new d
    decide (p < from_) || s.bnd.accepted.contains (some new, p, l * bandSectors s + d, seq0 + p) ||
    (match mciFind s (l * bandSectors s + d) with
      | some e => e.loc.isSome && decide (seq0 + size ≤ extentSeq e (l * bandSectors s + d))
      | none => false))

/-- The lowest position of a band that its last checkpoint did not record as placed: below it every position was placed. -/
def scannedFrom (s : State) (b : Nat) : Nat :=
  (s.bnd.accepted.filter (fun a => a.1 == some b)).foldl (fun m a => min m a.2.1) (s.band b).pos

/-- An open rewrite resolved (R273): switched if complete, else discarded. -/
def resolveRewrite (o : Nat × Nat × Option Nat × Nat × Nat) (s : State) : State :=
  let (new, l, old, seq0, size) := o
  if rewriteComplete s new l seq0 size (scannedFrom s new) then switchBand ⟨0, l, old, new, seq0, size, size, true, size⟩ s
  else
    let x := s.band new
    (freeBand new (s.setBand new { x with pos := max 1 x.pos })).flag F.BND_FLT_REWRITE_DISCARD

/-- ARG1 of a ZONE entry (R262). -/
def zoneArg : ZoneState → Nat
  | .implicitOpen => 1
  | .explicitOpen => 1
  | .closed => 2
  | .full => 3
  | .empty => 4
  | .offline => 5

/-- A zoned band resolved (R274): the pointer stands after its last accepted data sector, and holes below it are lost. -/
def resolveZone (b : Nat) (s : State) : State :=
  let x := s.band b
  match x.logical with
  | none => s
  | some l =>
    let bs := bandSectors s
    match nsOfLba s (l * bs) with
    | some (_, e) =>
      if e.kind ≠ 2 then s
      else
        let y := s.lband l
        let got := (s.bnd.accepted.filter (fun a => a.1 == some b)).map (fun a => a.2.2.1 - l * bs)
        let wp := got.foldl (fun m d => max m (d + 1)) y.wp
        let from_ := scannedFrom s b
        let holes := (List.range wp).filter (fun d => decide (from_ ≤ bandPosition s b d) && !got.contains d)
        let zone := match y.zone with | .empty => ZoneState.closed | z => z
        let s := s.setLband l { y with phys := some b, wp := wp, zone := zone, seq := max y.seq x.seq }
        let s := journal { jentry 0x06 with arg0 := l, band := b, arg1 := zoneArg zone, x := wp, seq := seqNext s } s
        forEach holes (fun d s => loseLba (l * bs + d) 0 s) s
    | none => s

/-- Rewrites and zones are resolved, the counter set, a flush forced, and STATE becomes READY (R270, R297). -/
def finishRebuild (s : State) : State :=
  let rewrites := s.bnd.open_
  let s := forEach rewrites resolveRewrite (s.onBnd (fun b => { b with open_ := [] }))
  let zones := (s.bnd.pbt.filter (fun e => e.2.state == 1)).map (fun e => e.1)
  let s := putSeq (max (seqNext s) s.bnd.seqFound) s
  let s := forEach zones (fun b s => resolveZone b (bandState b 1 s)) s
  let s := forceFlush (s.onBnd (fun b => { b with accepted := [], built := true }))
  let s := putBndState 4 s
  forEach (lanes.filter (ownAct s)) (fun a s => evalLevel a (judgeSpares a s)) s

/-! ### Collection (R284 to R287) -/

/-- The Relay scheduler reports host work for the lane (R286). -/
def hostWork (s : State) (a : Lane) : Bool := workFor s (fun r => r.act == a.val && decide (r.cls ≤ 2) && decide (r.fn < 128))

/-- A collection or migration rewrite, or one of retirement, runs on the lane (R286). -/
def upkeepRewrite (s : State) (a : Lane) : Bool := s.bnd.rewrites.any (fun r => r.kind != 3 && (s.band r.new).act == a.val)

/-- The score of a logical band (R285). -/
def scoreOf (s : State) (l : Nat) : Nat :=
  let y := s.lband l
  let u := match y.phys with | some b => (s.band b).valid * 1024 / bandSectors s | none => 0
  let oldest := (extentsOf s l).foldl (fun m e => min m e.seq) (seqNext s)
  let age := min 1023 ((seqNext s - oldest) / 2 ^ s.get F.BND_GC_CFG_AGE_SHIFT)
  let wn := match y.phys with | some b => min 1023 (wearOf s b / 64) | none => 0
  s.get F.BND_GC_CFG_KV * (1024 - u) + s.get F.BND_GC_CFG_KA * age + s.get F.BND_GC_CFG_KW * wn

/-- Logical bands of device-managed namespaces with current media-cache sectors, which an actuator's collection may choose. -/
def candidates (s : State) (a : Lane) : List Nat :=
  let bs := bandSectors s
  let ls := (s.bnd.mci.filter (fun e => e.loc.isSome)).map (fun e => lbandOf s e.first)
  (ls.foldl (fun (l : List Nat) x => if l.contains x then l else l ++ [x]) []).filter (fun l =>
    (match nsOfLba s (l * bs) with | some (_, e) => e.kind == 1 | none => false) && !s.bnd.rewrites.any (fun r => r.logical == l) &&
    rewriteActuator s l == some a && ((s.lband l).phys.isSome || decide (s.get F.BND_GC_BANDS_HARD_FB < fbOf s a)))

/-- The candidate of highest score, the lower logical band among ties (R285). -/
def bestCandidate (s : State) (a : Lane) : Option Nat :=
  (candidates s a).foldl (fun (b : Option Nat) l =>
    match b with
    | none => some l
    | some c => if scoreOf s c < scoreOf s l ∨ (scoreOf s c = scoreOf s l ∧ l < c) then some l else some c) none

/-- A band of the actuator pends retirement and its logical band can be rewritten (R295). -/
def retiring (s : State) (a : Lane) : Option Nat :=
  (s.bnd.health.filter (fun e => e.2.retire && (s.band e.1).act == a.val)).findSome? (fun e =>
    match (s.band e.1).logical with
    | some l => (match nsOfLba s (l * bandSectors s) with
      | some (_, n) => if n.kind = 1 ∧ (s.lband l).phys = some e.1 ∧ !s.bnd.rewrites.any (fun r => r.logical == l) then some l else none
      | none => none)
    | none => none)

/-- The sector at the tail of a log (R286): its LBA and the current sectors of its extent from there, where it is current. -/
def tailSector (s : State) (a : Lane) : Option (Nat × Nat) :=
  let n := logSectors s a
  let m := s.bnd.mc.get a
  if n = 0 ∨ m.head ≤ m.tail then none
  else
    let i := m.tail % n
    (s.bnd.mci.find? (fun e => match e.loc with | some (x, j) => x == a.val && decide (j ≤ i) && decide (i < j + e.len) | none => false)).map
      (fun e => match e.loc with | some (_, j) => (e.first + (i - j), e.len - (i - j)) | none => (0, 0))

/-- One step of collection on an actuator (R286, R287, R295): a pending retirement, the tail, the weak-count queue, the highest score. -/
def collect (a : Lane) (s : State) : State :=
  if !ownAct s a || s.mode == Mode.readonly || s.get F.BND_STAT_STATE != 4 then s
  else
    let s := evalLevel a s
    let lvl := levelOf s a
    if upkeepRewrite s a then s
    else
      match retiring s a with
      | some l => beginRewrite 2 l s
      | none =>
        if decide (lvl < 2) && hostWork s a then s else
        let weak := s.bnd.weakQ.find? (fun l => rewriteActuator s l == some a)
        let after := fun (s : State) =>
          match weak with
          | some l => beginRewrite 0 l s
          | none => if lvl = 0 then s else (match bestCandidate s a with | some l => beginRewrite 0 l s | none => s)
        if lvl = 0 then after s
        else
          match tailSector s a with
          | some (lba, k) =>
            match nsOfLba s lba with
            | some (_, e) =>
              if e.kind = 1 then beginRewrite 0 (lbandOf s lba) s
              else if workFor s (fun r => r.for_ == .relocate) then s
              else
                match readCopies s .relocate (if 2 ≤ lvl then 3 else 5) upkeepAcct lba k false with
                | some (_, q) => request q (if 2 ≤ lvl then { s with rly := { s.rly with fgShare := s.get F.BND_GC_CFG_FG_SHARE } } else s)
                | none => s
            | none => after s
          | none => after s

/-! ### Migration (R282, R283) -/

/-- The bands whose WEAR counts in the spread (R282). -/
def wearBands (s : State) (a : Nat) : List Nat := (dataBands s a).filter (fun b => (s.band b).state ≤ 3)

/-- Greatest and least WEAR of those bands. -/
def wearRange (s : State) (a : Nat) : Nat × Nat :=
  match (wearBands s a).map (wearOf s) with
  | [] => (0, 0)
  | w :: l => (l.foldl max w, l.foldl min w)

/-- A cold logical band (R282). -/
def coldBand (s : State) (l : Nat) : Bool := decide (2 ^ s.get F.BND_MIG_CFG_COLD_SHIFT ≤ seqNext s - (s.lband l).seq)

/-- Static migration on an actuator (R282, R283). -/
def migrate (a : Lane) (s : State) : State :=
  let (hi, lo) := wearRange s a
  let spread := hi - lo
  let limit := s.get F.BND_MIG_CFG_SPREAD
  let on_ := decide (limit < spread) || (s.bnd.migrate.getLsbD a && decide (limit < spread + 16 * s.get F.BND_MIG_CFG_HYST))
  let s := s.onBnd (fun b => { b with migrate := if on_ then b.migrate ||| (1#4 <<< a.val) else b.migrate &&& ~~~(1#4 <<< a.val) })
  if !on_ || !s.on F.BND_MIG_CFG_EN || !ownAct s a || decide (2 ≤ levelOf s a) || upkeepRewrite s a || s.mode == Mode.readonly then s
  else
    let victims := (dataBands s a).filter (fun b =>
      (s.band b).state == 2 && (match (s.band b).logical with
        | some l => coldBand s l && (match nsOfLba s (l * bandSectors s) with | some (_, e) => e.kind == 1 | none => false)
        | none => false))
    match (leastWorn s victims).bind (fun b => (s.band b).logical) with
    | some l => beginRewrite 1 l s
    | none => s

/-! ### Patrol (R290 to R293) -/

/-- The parts of a ring's live range that lie in one band: data sector and count. -/
def liveIn (tail head n j bs : Nat) : List (Nat × Nat) :=
  if n = 0 then []
  else
    ([tail / n, tail / n + 1] : List Nat).filterMap (fun k =>
      let lo := max tail (k * n + j * bs)
      let hi := min head (k * n + (j + 1) * bs)
      if lo < hi then some (lo - (k * n + j * bs), hi - lo) else none)

/-- The written positions of a band as runs (R290). -/
def writtenRuns (s : State) (b : Nat) : List (Nat × Nat) :=
  let x := s.band b
  let bs := bandSectors s
  match (runOf s b).map (fun r => r.kind) with
  | some 2 => [(0, bs)]
  | some 3 => [(0, bs)]
  | some 4 =>
    let bands := (journalAreas s).find? (fun l => l.contains b)
    (match bands with | some l => liveIn s.bnd.jnlFrom s.bnd.jnlPos (l.length * bs) (l.findIdx (fun y => y == b)) bs | none => [])
  | some 5 =>
    if h : x.act < 4 then
      let m := s.bnd.mc.get ⟨x.act, h⟩
      let l := bandsOfKind s x.act 5
      liveIn m.tail m.head (l.length * bs) (l.findIdx (fun y => y == b)) bs
    else []
  | some 6 => []
  | _ => if x.state = 2 then [(0, bandSize s b)] else if (x.state = 1 ∨ x.state = 3) ∧ x.pos ≠ 0 then [(0, x.pos)] else []

/-- Written positions of an actuator, W (R290). -/
def writtenOf (s : State) (a : Nat) : Nat :=
  ((List.range (nbands s)).filter (fun b => (s.band b).act == a)).foldl (fun m b => m + ((writtenRuns s b).map (fun r => r.2)).sum) 0

/-- Ring time in seconds. -/
def seconds (s : State) : Nat := s.now.toNat / 10 ^ 8

/-- PERIOD in hours as it acts. -/
def patrolPeriod (s : State) : Nat := max 1 (s.get F.BND_PATROL_CFG_PERIOD)

/-- DEBT of a lane in hours (R291). -/
def patrolDebt (s : State) (n : Lane) : Nat :=
  let p := s.bnd.patrol.get n
  if p.written = 0 then 0
  else
    let due := seconds s - p.start
    let done := p.read * 3600 * patrolPeriod s / p.written
    (due - done) / 3600

/-- BND_PATROL_STAT shows the worst lane and the queues (R301). -/
def showPatrol (s : State) : State :=
  (s.put F.BND_PATROL_STAT_DEBT (min 65535 (lanes.foldl (fun m n => max m (patrolDebt s n)) 0))).put F.BND_PATROL_STAT_QUEUED
    (min 65535 ((lanes.map (fun (n : Lane) => (s.bnd.patrol.get n).queue.length)).sum))

/-- A pass has been read to its end. -/
def passOver (s : State) (n : Lane) : Bool := let p := s.bnd.patrol.get n; p.written == 0 || decide (nbands s ≤ p.cursor)

/-- A pass begins (R290). -/
def beginPass (n : Lane) (s : State) : State :=
  if !ownAct s n || s.get F.BND_STAT_STATE != 4 || !passOver s n then s
  else
    let p := s.bnd.patrol.get n
    showPatrol (s.onBnd (fun b => { b with patrol := setV b.patrol n { p with cursor := 0, start := seconds s, written := writtenOf s n, read := 0 } }))

/-- Runs of positions cut at track ends. -/
def trackRuns (spt : Nat) : Nat → Nat → Nat → List (Nat × Nat)
  | 0, _, _ => []
  | fuel + 1, pos, count =>
    if count = 0 then []
    else
      let c := min count (spt - pos % spt)
      (pos, c) :: trackRuns spt fuel (pos + c) (count - c)

/-- The next band of the pass that holds written positions and lies on the lane. -/
def nextPatrolBand (s : State) (n : Lane) (from_ : Nat) : Option Nat :=
  ((List.range (nbands s - from_)).map (fun i => from_ + i)).find? (fun b => (s.band b).act == n.val && !(writtenRuns s b).isEmpty)

/-- Patrol reads of a band requested (R291, R292), one item for each track; reading a band clears its disturbance. -/
def patrolBand (n : Lane) (b : Nat) (s : State) : State :=
  let cls := if s.get F.BND_PATROL_CFG_URGENT < patrolDebt s n then 4 else 5
  let spt := max 1 (bandShape s b).1
  let h := smGetD healthNew b s.bnd.health
  let s := s.onBnd (fun m => { m with health := smPut healthNew b { h with disturb := 0, patrolQ := false } m.health })
  forEach ((writtenRuns s b).flatMap (fun r => trackRuns spt (r.2 + 1) r.1 r.2)) (fun r s => request (bandReq s .patrol cls 0 upkeepAcct b r.1 r.2) s) s

/-- Patrol reads requested for a lane: the priority queue before the pass goes on (R291). -/
def patrolNext (n : Lane) (s : State) : State :=
  if !ownAct s n || s.get F.BND_STAT_STATE != 4 || workFor s (fun r => r.for_ == .patrol && r.act == n.val) then s
  else
    let p := s.bnd.patrol.get n
    match p.queue with
    | b :: rest => showPatrol (patrolBand n b (s.onBnd (fun m => { m with patrol := setV m.patrol n { p with queue := rest } })))
    | [] =>
      match nextPatrolBand s n p.cursor with
      | some b => showPatrol (patrolBand n b (s.onBnd (fun m => { m with patrol := setV m.patrol n { p with cursor := b + 1 } })))
      | none => showPatrol (s.onBnd (fun m => { m with patrol := setV m.patrol n { p with cursor := nbands s } }))

end Sys2Proof.Machine
end

