-- ==== Sys2Proof/Machine/Sequencer.lean ====
section
/-! DEFINITION. The lane sequencers (09_lane_microcode.md, R223 to R246): the fields of a microword, its holds and faults, what
each field does, traps and halts. The rows of the sequencer are in SequencerRows.lean. -/

namespace Sys2Proof.Machine

/-! ### The word (R223, R227, R231) -/

/-- Bits [hi:lo] of a microword. -/
def mw (w : BitVec 176) (hi lo : Nat) : Nat := (w.extractLsb' lo (hi + 1 - lo)).toNat

/-- The modes in which a sequencer runs (R244). -/
def seqMode (m : Nat) : Bool :=
  m == Mode.spinup || m == Mode.active || m == Mode.idleReady || m == Mode.idleSlow || m == Mode.degraded || m == Mode.readonly

def seqState (s : State) (n : Lane) : Nat := s.get (F.MSn_STAT_STATE n)

/-- MSn_STAT.STATE by name (R247). -/
def Seq.empty : Nat := 0
def Seq.halted : Nat := 1
def Seq.running : Nat := 2
def Seq.holding : Nat := 3
def Seq.faulted : Nat := 4

/-- The sequencer executes words. -/
def seqRuns (s : State) (n : Lane) : Bool := seqState s n == Seq.running || seqState s n == Seq.holding

/-- The word at PC (R223); an unlisted word is zero. -/
def seqWord (s : State) (n : Lane) : BitVec 176 := smGetD 0 (s.get (F.MSn_STAT_PC n)) (s.ms n).store

/-- A read or write gate of the lane is open. -/
def gateOpen (s : State) (n : Lane) : Bool := s.on (F.LNn_STAT_RD_GATE n) || s.on (F.LNn_STAT_WR_GATE n)

/-- No frame from MSn is queued or on the bus (R231). -/
def pbusIdle (s : State) (n : Lane) : Bool :=
  let l := s.ln n
  l.gateQ.isEmpty && l.setQ.isEmpty && (match l.bus with | some f => f.source == .firmware | none => true)

/-- A condition of R231 as it stands now. -/
def condNow (s : State) (n : Lane) (code : Nat) : Bool :=
  let m := s.ms n
  match code with
  | 0 => true
  | 1 => !m.cmd.isEmpty
  | 2 => s.on (F.LNn_STAT_PLL_LOCK n)
  | 3 => writeReady s n
  | 4 => gateOpen s n
  | 5 => s.get (F.LNn_VFY_STAT_PENDING n) == 0
  | 6 => s.get (F.LNn_WR_STAT_INH_NOW n) != 0
  | 7 => (s.ln n).rdUnsafe
  | 8 => heaterReady s n m.cur.hd.toNat
  | 9 => pbusIdle s n
  | 10 => s.get (F.SVn_LAP_WEDGE n) == m.cur.wcmp.toNat
  | 11 => m.cur.zf
  | 12 => m.cur.nf
  | _ => false

/-- The conditions of R231 by code. -/
def sampleConds (s : State) (n : Lane) : BitVec 16 :=
  BitVec.ofNat 16 ((List.range 13).foldl (fun v k => v + b2n (condNow s n k) * 2 ^ k) 0)

/-- MSn_STAT shows the gate mode, the stack depth and the head register (R247). -/
def showSeq (n : Lane) (s : State) : State :=
  let c := (s.ms n).cur
  ((s.put (F.MSn_STAT_GATE n) c.gate).put (F.MSn_STAT_DEPTH n) c.stack.length).put (F.MSn_STAT_HD n) c.hd.toNat

/-- A word whose timer hold does not end at once (R232, R242): a baud target, a cycle count above 0, or a condition that does not hold as the word
begins. -/
def holdsAtStart (s : State) (n : Lane) : Bool :=
  let w := seqWord s n
  match mw w 140 139 with
  | 0 => false
  | 1 => true
  | 2 => mw w 138 122 != 0
  | _ => condNow s n (mw w 151 146) == (mw w 145 145 = 1)

/-- The sequencer's state at the start of the next word (R228): the last word's changes, with data that has landed in W8 (R234). -/
def Ms.nextRegs (m : Ms) : SeqRegs := match m.landed with | some v => { m.nxt with w := m.nxt.w.set 8 v } | none => m.nxt

/-- The word at `pc` begins (R228): the last word's changes are in force, the conditions are sampled, its hold starts. -/
def beginWord (n : Lane) (pc : Nat) (s : State) : State :=
  let s := (s.put (F.MSn_STAT_PC n) pc).onMs n (fun m =>
    { m with cur := m.nextRegs, nxt := m.nextRegs, landed := none, acted := 0, passBkpt := false, slipped := false })
  let hold := holdsAtStart s n
  let s := showSeq n (s.put (F.MSn_STAT_STATE n) (if hold then Seq.holding else Seq.running))
  s.onMs n (fun m => { m with conds := sampleConds s n, holding := hold })

/-- The sequencer's own state cleared (R244, R246). -/
def SeqRegs.clear : SeqRegs :=
  { w := Vector.replicate 12 0, hd := 0, wcmp := 0, lc0 := 0, lc1 := 0, zf := false, nf := false, stack := [], gate := 0, op := 0, xfer := Vector.replicate 5 0, sectNo := 0 }

/-- The sequencer starts at 0x000 with the state that R244 names cleared (R244, R246). -/
def startSeq (n : Lane) (s : State) : State :=
  let s := (s.put (F.MSn_STAT_MASK n) 0).put (F.MSn_STAT_MODE_HALT n) 0
  let s := s.onMs n (fun m =>
    { m with nxt := { SeqRegs.clear with gate := m.nxt.gate, op := m.nxt.op, xfer := m.nxt.xfer, sectNo := m.nxt.sectNo }, landed := none, stopping := false, startDue := false })
  beginWord n 0 s

/-! ### Halts (R245, R246) -/

/-- On every halt an open read gate closes and an open write gate is squelched as source 5 does (R245). -/
def haltGates (n : Lane) (s : State) : State :=
  let s := if s.on (F.LNn_STAT_RD_GATE n) then closeRead n none s else s
  let s := if s.on (F.LNn_STAT_WR_GATE n) then squelchGate n 5 (msInt n 3 (s.flag ((F.LNn_WFLT_STAT_INH_SEEN n).bit 5))) else s
  s.onMs n (fun m => { m with cur := { m.nxt with gate := 0 }, nxt := { m.nxt with gate := 0 }, acted := 0, holding := false, stopping := false })

/-- The sequencer halts in a state, at PC (R245). Outside the running modes the halt is a mode halt (R246) where it came from a HALT
word or a forced halt. -/
def haltSeq (n : Lane) (st : Nat) (modeHalt : Bool) (s : State) : State :=
  let s := showSeq n ((haltGates n s).put (F.MSn_STAT_STATE n) st)
  if modeHalt && !seqMode s.mode then s.put (F.MSn_STAT_MODE_HALT n) 1 else s

/-- The record of a halt in MSn_TRAP (R241, R247): its cause and the word at which it was taken. The return address of the last trap stands,
to which TRAP_RETURN goes (R243). -/
def recordHalt (n : Lane) (cause : Nat) (s : State) : State :=
  (s.put (F.MSn_TRAP_CAUSE n) cause).put (F.MSn_TRAP_PC n) (s.get (F.MSn_STAT_PC n))

/-- The record of a trap in MSn_TRAP, MSn_TRAP_LC and MSn_TRAP_AUX (R242, R247). -/
def recordTrap (n : Lane) (cause ret : Nat) (s : State) : State :=
  let c := (s.ms n).cur
  let x := (s.ms n).nxt
  let s := (recordHalt n cause s).put (F.MSn_TRAP_RET n) ret
  let s := (s.put (F.MSn_TRAP_LC_LC0 n) x.lc0.toNat).put (F.MSn_TRAP_LC_LC1 n) x.lc1.toNat
  (s.put (F.MSn_TRAP_AUX_GATE_AT n) c.gate).put (F.MSn_TRAP_AUX_PENDING n) (s.get ⟨R.MSn_INT n, 6, 0⟩)

/-- A word faults (R242, R243): suppressed, and the trap is taken at 0x001; while a handler runs the sequencer halts with
DOUBLE_FAULT. -/
def takeFault (n : Lane) (cause : Nat) (s : State) : State :=
  let s := (s.onMs n (fun m => { m with nxt := { m.cur with gate := m.nxt.gate } })).count (F.MSn_CNT_FAULTS n)
  let pc := s.get (F.MSn_STAT_PC n)
  if s.on (F.MSn_STAT_MASK n) then
    haltSeq n Seq.faulted false (msHwEvent n 0xF0 cause pc (recordHalt n 0x20 s))
  else beginWord n 0x001 ((recordTrap n cause pc s).put (F.MSn_STAT_MASK n) 1)

/-- The highest-priority pending interrupt that is enabled, with MASK clear (R240, R242). -/
def pendingInt (s : State) (n : Lane) : Option Nat :=
  if s.on (F.MSn_STAT_MASK n) then none
  else
    let p := s.get ⟨R.MSn_INT n, 6, 0⟩
    let e := s.get (F.MSn_CTL_INT_EN n)
    ([0, 1, 2, 3, 4, 5, 6] : List Nat).find? (fun b => p / 2 ^ b % 2 = 1 && (decide (b < 2) || e / 2 ^ b % 2 = 1))

/-- An interrupt trap with its return address (R242). -/
def takeInt (n : Lane) (b ret : Nat) (s : State) : State :=
  let s := recordTrap n (0x10 + b) ret s
  let s := (s.put ((⟨R.MSn_INT n, 6, 0⟩ : Fld).bit b) 0).put (F.MSn_STAT_MASK n) 1
  beginWord n 0x002 s

/-- STORE_ERR (R224): the sequencer halts FAULTED at the word and does not recover before the next pass through CONFIGURE. -/
def storeErrHalt (n : Lane) (s : State) : State :=
  let pc := s.get (F.MSn_STAT_PC n)
  let s := msHwEvent n 0xF1 pc 0 (recordHalt n 0x21 s)
  (haltSeq n Seq.faulted false s).onMs n (fun m => { m with storeErr := true })

/-! ### Sector descriptors (R235, R314) -/

/-- The descriptor that SECT builds from W0 to W4, HD and the transfer's operands. Within a ladder it names the failing sector of the
same LBA; else positions follow on from the transfer's first. -/
def sectorOf (s : State) (n : Lane) (code : Nat) : Sector :=
  let m := s.ms n
  let w := fun (i : Fin 12) => (m.cur.w.get i).toNat
  let x := fun (i : Fin 5) => (m.cur.xfer.get i).toNat
  let lba := w 0 + bitsOf (w 1) 10 0 * 2 ^ 24
  let track := bitsOf (x 0) 21 0
  let pos := bitsOf (x 1) 11 0 + m.cur.sectNo
  let index := match (s.ln n).ladder with
    | some l => (match l.failing.find? (fun e => e.lba == lba && e.track == track) with | some e => e.index | none => pos)
    | none => pos
  let wr := code = 2 ∨ code = 3
  { write := wr, forced := code = 3, spillSum := code = 5, head := m.cur.hd, zone := bitsOf (x 2) 4 0, track := track, index := index, lba := lba, lbaValid := if wr then true else bitsOf (w 1) 11 11 = 1, meta_ := bitsOf (w 1) 13 12, seq := w 2 + w 3 * 2 ^ 24, band := bitsOf (w 4) 19 0, over_ := bitsOf (w 1) 15 14, gpos := 0, limited := bitsOf (x 2) 9 9 = 1, slot := if bitsOf (x 3) 10 10 = 1 then none else some (bitsOf (x 2) 23 10), verify := false, sampled := false, misses := 0, revs := 0, source := 0, badWedge := false, data := [], cnt := 0, front := none, part := 0 }

/-- The descriptor in hand for the word's gate: its own SECT, or one passed before. -/
def gateSector (s : State) (n : Lane) : Option Sector :=
  let sect := mw (seqWord s n) 85 83
  if (s.ms n).acted.getLsbD 3 then (s.ln n).desc
  else if sect = 1 ∨ sect = 2 ∨ sect = 3 ∨ sect = 5 then some (sectorOf s n sect)
  else (s.ln n).desc

/-! ### Holds and faults of a word (R229, R231 to R239, R241) -/

/-- The code of an open gate (1 read, 2 write) that the word carries and has not acted on, 0 where it has none. -/
def openCode (s : State) (n : Lane) : Nat :=
  let g := mw (seqWord s n) 121 120
  if (g = 1 ∨ g = 2) ∧ !(s.ms n).acted.getLsbD 0 then g else 0

/-- The continuation that an open of this kind takes up (R99): a sector split by a servo field is read or written as two gates. DESIGN CHOICE:
the next open of its kind opens it, without a descriptor of its own (log 38). -/
def contFor (s : State) (n : Lane) (g : Nat) : Option Sector := (s.ln n).cont.filter (fun d => d.write == (g == 2))

/-- A sector of another transfer while a ladder is in progress (R125): at rung 7 the other sectors of a failing sector's group are read too. -/
def ladderBars (s : State) (n : Lane) : Bool :=
  match (s.ln n).ladder, gateSector s n with
  | some l, some d =>
    let group := fun (e : Sector) => !d.write && e.head == d.head && e.track == d.track && sectorGroup s e == sectorGroup s d && (sectorGroup s d).isSome
    !l.failing.any (fun e => e.same d || (s.get (F.LNn_RTY_STAT_RUNG n) == 7 && group e))
  | _, _ => false

/-- The word waits on its timer, on an empty command FIFO, on a full event FIFO, on a cadence drain or a ladder (R125, R232, R233, R236,
R237). -/
def wordWaits (s : State) (n : Lane) : Bool :=
  let w := seqWord s n
  let m := s.ms n
  m.holding || (mw w 82 80 = 1 && m.cmd.isEmpty && !m.acted.getLsbD 4) ||
  (mw w 79 72 != 0 && decide (256 ≤ m.events.length) && !m.acted.getLsbD 5) ||
  (openCode s n != 0 && !s.on F.GLB_MODE_COND_POWER_FAIL && ((s.ln n).drain || ladderBars s n))

/-- The baud target of TMODE 1: TVAL + W10[16:0] (R232). -/
def baudTarget (s : State) (n : Lane) : Nat := mw (seqWord s n) 138 122 + bitsOf ((s.ms n).cur.w.get 10).toNat 16 0

/-- The condition under which CLK may act (R32, R239): both LNn FIFOs empty and no gate open. -/
def clockFree (s : State) (n : Lane) : Bool :=
  (s.ln n).wfifo.isEmpty && !s.ldp.waiting.any (fun j => decide (j.lane = n)) && (s.ln n).reads.isEmpty && !gateOpen s n

/-- The fault of a GATE open (R233), judged when the word's hold has ended. -/
def gateFault (s : State) (n : Lane) : Option Nat :=
  let g := openCode s n
  if g = 0 ∨ s.on F.GLB_MODE_COND_POWER_FAIL then none
  else if !s.on (F.LNn_STAT_PLL_LOCK n) then some 0x06
  else if gateOpen s n then some 0x0A
  else if g = 1 ∧ s.on (F.LNn_WR_STAT_VFY_GATE n) then some 0x0A
  else if (contFor s n g).isSome then none
  else if (gateSector s n).isNone then some 0x08
  else if g = 2 ∧ !writeReadyFor s n (gateSector s n) then some 0x07
  else none

/-- A gate that would open is put off for its head's heater (R94): the transfer waits for the next wedge in which it fits. -/
def heaterDefers (s : State) (n : Lane) : Bool :=
  openCode s n != 0 && !s.on F.GLB_MODE_COND_POWER_FAIL && (gateFault s n).isNone && !heaterReady s n (s.ms n).cur.hd.toNat

/-- A write gate that would open is put off for the preamp's settings and mode (R133), or for the outcomes of the track it overlaps (R143). -/
def writeDefers (s : State) (n : Lane) : Bool :=
  openCode s n == 2 && !s.on F.GLB_MODE_COND_POWER_FAIL && (gateFault s n).isNone &&
  match contFor s n 2, gateSector s n with
  | some d, _ => !writePrepared s n d
  | none, some d => !writePrepared s n d || trackHeld s n d
  | none, none => false

/-- The word holds (R94, R125, R133, R143, R232, R233, R236, R237). -/
def wordHolds (s : State) (n : Lane) : Bool := wordWaits s n || heaterDefers s n || writeDefers s n

/-- A deferral for the heater lead counts as a slip, once for a word, and a word with a baud target waits for it in the next wedge (R94, R232). -/
def deferHeater (n : Lane) (s : State) : State :=
  if !wordWaits s n && heaterDefers s n then
    let s := if (s.ms n).slipped then s else (s.count (F.MSn_CNT_SLIPS n)).tally (28 + n)
    s.onMs n (fun m => { m with slipped := true, holding := mw (seqWord s n) 140 139 == 1 })
  else s

/-- A reserved code in a field (R227, R231): fault ILLEGAL. -/
def reservedCode (w : BitVec 176) : Bool :=
  decide (12 < mw w 151 146) || decide (4 < mw w 119 117) || (mw w 119 117 = 2 && decide (5 < mw w 108 106)) || mw w 93 92 = 3 ||
  decide (5 < mw w 85 83) || decide (2 < mw w 82 80) || decide (11 < mw w 71 68) || decide (1 < mw w 35 33)

/-- The fault of the word at PC, if it faults (R241). A word some of whose fields have acted no longer faults. -/
def wordFault (s : State) (n : Lane) : Option Nat :=
  let w := seqWord s n
  let m := s.ms n
  let h := m.cur.hd.toNat
  let sect := mw w 85 83
  let seq := mw w 144 142
  if m.acted ≠ 0 then none
  else if s.get (F.MSn_STAT_PC n) = 0xFFF ∨ reservedCode w then some 0x08
  else if mw w 140 139 = 1 ∧ s.get (F.LNn_BPW_BPW n) ≤ baudTarget s n then some 0x09
  else if mw w 119 117 = 1 ∧ !headEnabled s n h then some 0x01
  else if (sect = 1 ∨ sect = 2 ∨ sect = 3 ∨ sect = 5) ∧ !headEnabled s n h then some 0x01
  else if (sect = 2 ∨ sect = 3) ∧ s.get ((F.LNn_WR_HEAD_DIS_DIS n).bit h) = 1 then some 0x02
  else if mw w 119 117 = 1 ∧ s.on (F.LNn_WR_STAT_VFY_GATE n) ∧ (s.ln n).pre.head ≠ m.cur.hd then some 0x0A
  else if seq = 3 ∧ 4 ≤ m.cur.stack.length then some 0x04
  else if (seq = 4 ∧ m.cur.stack.isEmpty) ∨ (seq = 7 ∧ !s.on (F.MSn_STAT_MASK n)) then some 0x05
  else if wordWaits s n then none
  else
    match gateFault s n with
    | some c => some c
    | none => if mw w 35 33 = 1 ∧ !clockFree s n then some 0x03 else none

/-! ### What each field does (R233 to R239) -/

/-- An open under POWER_FAIL: its word completes without effect (R233). -/
def mutedWord (s : State) (n : Lane) : Bool :=
  let g := mw (seqWord s n) 121 120
  (g == 1 || g == 2) && s.on F.GLB_MODE_COND_POWER_FAIL

/-- A field of the word acts once: `bit` its mark, `on` whether the word carries it. -/
def once (n : Lane) (bit : Nat) (on : Bool) (f : State → State) (s : State) : State :=
  if on && !(s.ms n).acted.getLsbD bit && !mutedWord s n then f (s.onMs n (fun m => { m with acted := m.acted ||| (1 <<< bit) })) else s

/-- An XFER popped by this word starts the count of its sectors anew (R228, R236, R314). -/
def xferPopped (m : Ms) : Bool := m.acted.getLsbD 4 && m.nxt.op == 0x01 && m.nxt.sectNo == 0

/-- SECT (R235). -/
def sectEff (n : Lane) (s : State) : State :=
  let c := mw (seqWord s n) 85 83
  once n 3 (c != 0) (fun s =>
    if c = 4 then s.onLn n (fun l => { l with wgroup := none })
    else
      let d := sectorOf s n c
      let popped := mw (seqWord s n) 82 80 = 1 && xferPopped (s.ms n)
      (s.onLn n (fun l => { l with desc := some d })).onMs n (fun m => { m with nxt := { m.nxt with sectNo := if popped then 0 else m.cur.sectNo + 1 } })) s

/-- OVR (R235). -/
def ovrEff (n : Lane) (s : State) : State :=
  let o := mw (seqWord s n) 93 86
  let a := bitsOf o 7 6
  once n 2 (a != 0) (fun s =>
    s.onLn n (fun l => { l with ovr := if a = 1 then some ⟨bitsOf o 5 4, bitsOf o 3 3 = 1, bitsOf o 2 1, bitsOf o 0 0 = 1⟩ else none })) s

/-- A codeword of the lane that is read no further leaves the decoders' queues. -/
def dropRead (n : Lane) (d : Sector) (s : State) : State :=
  let keep := fun (j : DecodeJob) => !(decide (j.lane = n) && j.kind != .verify && j.sector.same d)
  let s := s.onLn n (fun l => { l with reads := l.reads.filter (fun e => !e.same d) })
  { s with ldp := { s.ldp with waiting := s.ldp.waiting.filter keep, engines := s.ldp.engines.map (fun e => { e with jobs := e.jobs.filter keep }) } }

/-- A read gate opens for a sector or for its continuation (R90, R233): it latches its settings. With no sync mark found the sector yields no
codeword (R100), and where it is not read for the ladder it has failed on the fly. -/
def openReadGate (n : Lane) (d : Sector) (heard : BitVec 112) (s : State) : State :=
  let s := latchSettings n s
  let first := d.part == 0
  let s := if first then restartGroup n d s else s
  let d := if first then { d with badWedge := (s.ln n).rdUnsafe, front := some (readFront s n d.head.toNat d.zone) } else d
  let s := ((s.put (F.LNn_STAT_RD_GATE n) 1).put (F.LNn_STAT_ZONE n) d.zone).put (F.LNn_STAT_HEAD n) d.head.toNat
  let s := s.onLn n (fun l => if first then { l with gate := some d, desc := none, reads := l.reads ++ [d] } else { l with gate := some d, cont := none })
  let s := s.onMs n (fun m => { m with nxt := { m.nxt with gate := 1 } })
  let inLadder := match (s.ln n).ladder with | some l => l.failing.any (fun e => e.same d) | none => false
  if markFound heard then s
  else
    let s := showTokens (dropRead n d s)
    if inLadder then s else otfFailed n d 1 0 s

/-- GATE close now (R233): a read closed early is a slip, a write leaves a partially written sector under R149. -/
def closeNowEff (n : Lane) (s : State) : State :=
  if s.on (F.LNn_STAT_RD_GATE n) then
    let s := match (s.ln n).gate with | some d => showTokens (dropRead n d s) | none => s
    ((closeRead n none s).onLn n (fun l => { l with cont := l.cont.filter (fun d => d.write) })).tally (28 + n)
  else if s.on (F.LNn_STAT_WR_GATE n) then
    let q := (s.ln n).gateQ
    (squelchGate n 6 s).onLn n (fun l => { l with gateQ := q })
  else s

/-- GATE (R233): an open takes up the continuation of a split sector, or opens the gate of the descriptor in hand. -/
def gateEff (n : Lane) (heard : BitVec 112) (s : State) : State :=
  let g := mw (seqWord s n) 121 120
  once n 0 (g != 0) (fun s =>
    if g = 3 then closeNowEff n s
    else
      match contFor s n g, (s.ln n).desc with
      | some d, _ => if g = 1 then openReadGate n d heard s else continueWrite n d s
      | none, some d => gateOpened n d (if g = 1 then openReadGate n d heard s else writeSector n d (s.onLn n (fun l => { l with desc := none })))
      | none, none => s) s

/-- The value and register of a setting frame (R234): from the tables for PB_SRC 0 to 4, W7 for 5. -/
def settingValue (s : State) (n : Lane) (w : BitVec 176) : BitVec 6 × BitVec 16 :=
  let h := (s.ms n).cur.hd.toNat
  let z := s.get (F.LNn_STAT_ZONE n)
  let heat := tableGet s n 0 h z 0
  let lev := tableGet s n 4 h z 0
  match mw w 108 106 with
  | 0 => (0x08, (heat.extractLsb' 0 10).zeroExtend 16)
  | 1 => (0x08, (heat.extractLsb' 16 10).zeroExtend 16)
  | 2 => (0x02, (lev.extractLsb' 0 8).zeroExtend 16)
  | 3 => (0x03, (lev.extractLsb' 8 8).zeroExtend 16)
  | 4 => (0x04, (lev.extractLsb' 16 10).zeroExtend 16)
  | _ => (BitVec.ofNat 6 (mw w 114 109), ((s.ms n).cur.w.get 7).truncate 16)

/-- PB_OP (R133, R234): a gate frame scheduled, a setting frame queued unless the head already holds its value, a register read. -/
def pbEff (n : Lane) (s : State) : State :=
  let w := seqWord s n
  let op := mw w 119 117
  let hd := (s.ms n).cur.hd
  once n 1 (op != 0) (fun s =>
    match op with
    | 1 => s.onLn n (fun l => if l.slept then l else { l with gateQ := l.gateQ ++ [gateFrameOf (BitVec.ofNat 2 (mw w 116 115)) hd (mw w 105 94) false] })
    | 2 =>
      let (a, v) := settingValue s n w
      let f := settingFrameOf hd a v
      let same := mw w 108 106 != 5 && smGet (64 * hd.toNat + a.toNat) (s.ln n).lastSent == some (frameData s n f)
      s.onLn n (fun l => if l.slept || same then l else { l with setQ := l.setQ ++ [f] })
    | 3 => s.onLn n (fun l => if l.slept then l else { l with setQ := l.setQ ++ [msReadOf hd 0x0A] })
    | _ => s.onLn n (fun l => if l.slept then l else { l with setQ := l.setQ ++ [msReadOf hd (BitVec.ofNat 6 (mw w 114 109))] })) s

/-- A register of the sequencer by its ALU code (R227), as 24 bits. -/
def seqReg (c : SeqRegs) (k : Nat) : BitVec 24 :=
  if h : k < 12 then c.w.get ⟨k, h⟩
  else match k with
    | 12 => c.hd.zeroExtend 24
    | 13 => c.wcmp.zeroExtend 24
    | 14 => c.lc0.zeroExtend 24
    | _ => c.lc1.zeroExtend 24

/-- A register of the sequencer set from a 24-bit result (R238). -/
def setSeqReg (c : SeqRegs) (k : Nat) (v : BitVec 24) : SeqRegs :=
  if h : k < 12 then { c with w := c.w.set k v h }
  else match k with
    | 12 => { c with hd := v.truncate 3 }
    | 13 => { c with wcmp := v.truncate 10 }
    | 14 => { c with lc0 := v.truncate 16 }
    | _ => { c with lc1 := v.truncate 16 }

/-- The lane field that ALU operation 11 reads (R238). -/
def laneField (s : State) (n : Lane) (k : Nat) : BitVec 24 :=
  BitVec.ofNat 24 (match k with
    | 0 => s.get (F.SVn_LAP_WEDGE n)
    | 1 => s.get (F.SVn_LAP_LAP n)
    | 2 => s.get (F.LNn_STAT_ZONE n)
    | 3 => s.get (F.LNn_WR_STAT_INH_NOW n)
    | 4 => s.get (F.LNn_VFY_STAT_PENDING n)
    | 5 => s.get (F.MSn_TRAP_CAUSE n)
    | _ => 0)

/-- The result of an ALU operation, whether it writes dst and whether it sets the flags (R238). -/
def aluResult (s : State) (n : Lane) (op : Nat) (dst src imm : BitVec 24) : BitVec 24 × Bool × Bool :=
  match op with
  | 1 => (src, true, false)
  | 2 => (imm, true, false)
  | 3 => (dst + src, true, true)
  | 4 => (dst + imm, true, true)
  | 5 => (dst - src, true, true)
  | 6 => (dst &&& imm, true, true)
  | 7 => (dst ||| imm, true, true)
  | 8 => (src >>> (imm.toNat % 32), true, true)
  | 9 => (dst - src, false, true)
  | 10 => (dst - imm, false, true)
  | 11 => (laneField s n (imm.toNat % 8), true, false)
  | _ => (0, false, false)

/-- The ALU field's write into the next word's registers (R228, R238). -/
def aluWrite (n : Lane) (s : State) : State :=
  let w := seqWord s n
  let c := (s.ms n).cur
  let d := mw w 67 64
  let (v, wr, fl) := aluResult s n (mw w 71 68) (seqReg c d) (seqReg c (mw w 63 60)) (BitVec.ofNat 24 (mw w 59 36))
  s.onMs n (fun m =>
    let x := if wr then setSeqReg m.nxt d v else m.nxt
    { m with nxt := if fl then { x with zf := v == 0, nf := v.getLsbD 23 } else x })

/-- ALU_OP (R238). -/
def aluEff (n : Lane) (s : State) : State := once n 6 (mw (seqWord s n) 71 68 != 0) (aluWrite n) s

/-! #### Calibration (R83) -/

/-- A value between two calibration zones, linear in zone index and rounded towards zero. -/
def calBetween (z0 z1 z : Nat) (v0 v1 : Int) : Int :=
  if z1 = z0 then v0 else Int.tdiv (v0 * ((z1 : Int) - z) + v1 * ((z : Int) - z0)) ((z1 : Int) - z0)

/-- A measured trim for a zone of a head: from the calibration zones first, middle and last. -/
def calTrim (ms : List CalMeasure) (r : Fin 3) (nz z : Nat) (f : CalMeasure → Int) : Int :=
  let mid := (nz - 1) / 2
  let last := nz - 1
  let at_ := fun k => match ms.find? (fun m => m.reader == r && m.zone == k) with | some m => f m | none => 0
  if z ≤ mid then calBetween 0 mid z (at_ 0) (at_ mid) else calBetween mid last z (at_ mid) (at_ last)

/-- The image's effective cross-track offset of a reader for a head and zone (R640). -/
def readerOffset (s : State) (n h z : Nat) (r : Fin 3) : Int := match readerZone s n h z with | some x => x.xts.getD r.val 0 | none => 0

/-- The calibration of a head (R83): table 1 of every zone is written from the measured zones, clipped to its fields, and a value out
of range sets CAL_RANGE and is reported in an event. DESIGN CHOICE: the other zones' trims are interpolated from the values as measured, and
the result is clipped (log 38). -/
def calibrate (n : Lane) (h : Nat) (ms : List CalMeasure) (s : State) : State :=
  if ms.isEmpty then s else
  let nz := match zonesOf s 0 with | some z => z.z | none => 1
  let s := forEach (List.range nz) (fun z s => forEach ([0, 1, 2] : List (Fin 3)) (fun r s =>
    let d := clampI (-32) 31 (calTrim ms r nz z (fun m => m.delay))
    let g := clampI (-128) 127 (calTrim ms r nz z (fun m => m.gain))
    tablePut n 1 h z r (BitVec.ofNat 32 (unsigned 6 d * 2 ^ 16 + unsigned 8 g)) s) s) s
  forEach ms (fun m s =>
    let off := readerOffset s n h m.zone m.reader
    let event := fun (v : Int) (s : State) =>
      msPost n 0x06 h (m.reader.val * 32 + m.zone) (unsigned 24 v) (s.flag (F.LNn_HL_STAT_CAL_RANGE n))
    let s := if 31 < m.delay.natAbs then event m.delay s else s
    let s := if 120 < m.gain.natAbs then event m.gain s else s
    if 80 < (m.cross - off).natAbs then event m.cross s else s) s

/-- CMD (R236): POP copies the head entry, DISCARD removes it. An ALU write of the same word to W0 to W4 stands over the copy. -/
def cmdEff (n : Lane) (measured : List CalMeasure) (s : State) : State :=
  let c := mw (seqWord s n) 82 80
  once n 4 (c != 0) (fun s =>
    match (s.ms n).cmd with
    | [] => s
    | e :: rest =>
      if c = 2 then s.onMs n (fun m => { m with cmd := rest })
      else
        let op : BitVec 8 := e.extractLsb' 0 8
        let w := fun i => e.extractLsb' (8 + 24 * i) 24
        let s := s.onMs n (fun m =>
          let x := if op = 0x01 then #v[w 0, w 1, w 2, w 3, w 4] else m.nxt.xfer
          let r := ((((m.nxt.w.set 0 (w 0)).set 1 (w 1)).set 2 (w 2)).set 3 (w 3)).set 4 (w 4)
          { m with cmd := rest, nxt := { m.nxt with op := op, w := r, xfer := x, sectNo := if op = 0x01 then 0 else m.nxt.sectNo } })
        let s := if (s.ms n).acted.getLsbD 6 then aluWrite n s else s
        if op = 0x05 then calibrate n ((w 0).toNat % 8) measured s else s) s

/-- EVT (R237): an event entry from W5 and W6; a SLIP counts. -/
def evtEff (n : Lane) (s : State) : State :=
  let c := mw (seqWord s n) 79 72
  let r := (s.ms n).cur
  once n 5 (c != 0) (fun s =>
    let s := msPost n c r.hd.toNat (r.w.get 5).toNat (r.w.get 6).toNat s
    if c = 7 then (s.count (F.MSn_CNT_SLIPS n)).tally (28 + n) else s) s

/-- CLK (R239): the zone in W2[4:0]; one beyond the ZONES section is taken as the last zone. -/
def clkEff (n : Lane) (s : State) : State :=
  once n 7 (mw (seqWord s n) 35 33 = 1) (fun s =>
    let nz := match zonesOf s 0 with | some z => z.z | none => 1
    loadZone n (min (nz - 1) (bitsOf ((s.ms n).cur.w.get 2).toNat 4 0)) s) s

/-- Every field of the word that has not acted yet acts; a read gate whose row has not come hears its sync mark. -/
def fieldsEff (n : Lane) (heard : BitVec 112) (s : State) : State :=
  clkEff n (aluEff n (evtEff n (cmdEff n [] (pbEff n (gateEff n heard (ovrEff n (sectEff n s)))))))

/-! ### Sequence control (R229, R230, R242) -/

/-- The ALU of the word writes loop counter `k` (R228: the ALU write stands and the loop update is lost). -/
def aluWritesLc (w : BitVec 176) (k : Nat) : Bool :=
  let op := mw w 71 68
  mw w 67 64 = 14 + k && ((1 ≤ op && op ≤ 8) || op = 11)

/-- A LOOPk word (R230): the next address and the state with the counter updated. -/
def loopNext (n : Lane) (k : Nat) (w : BitVec 176) (s : State) : Nat × State :=
  let c := (s.ms n).cur
  let v := max 1 (if k = 0 then c.lc0.toNat else c.lc1.toNat)
  let upd := fun (x : Nat) (s : State) =>
    if aluWritesLc w k then s
    else s.onMs n (fun m => { m with nxt := if k = 0 then { m.nxt with lc0 := BitVec.ofNat 16 x } else { m.nxt with lc1 := BitVec.ofNat 16 x } })
  if 1 < v then (mw w 163 152, upd (v - 1) s) else (mw w 175 164, upd 0 s)

/-- The next address by SEQ_OP and the state after its own effect (R229); none for HALT. -/
def chooseNext (n : Lane) (s : State) : Option (Nat × State) :=
  let w := seqWord s n
  let m := s.ms n
  let br := mw w 163 152
  let nx := mw w 175 164
  match mw w 144 142 with
  | 0 =>
    let taken := mw w 140 139 = 3 || (m.conds.getLsbD (mw w 151 146) != (mw w 145 145 = 1))
    some (if taken then br else nx, s)
  | 1 => some (loopNext n 0 w s)
  | 2 => some (loopNext n 1 w s)
  | 3 => some (br, s.onMs n (fun m => { m with nxt := { m.nxt with stack := BitVec.ofNat 12 nx :: m.nxt.stack } }))
  | 4 =>
    match m.cur.stack with
    | a :: rest => some (a.toNat, s.onMs n (fun m => { m with nxt := { m.nxt with stack := rest } }))
    | [] => some (nx, s)
  | 5 => some ((br + m.cur.op.toNat) % 4096, s)
  | 6 => none
  | _ => some (s.get (F.MSn_TRAP_RET n), s.put (F.MSn_STAT_MASK n) 0)

/-- The word executes: its fields act, its next address is chosen, and an enabled interrupt pending at a safe point is taken with that
return address (R242). MASK is judged as it stood when the word began. -/
def finishWord (n : Lane) (s : State) : State :=
  let safe := mw (seqWord s n) 141 141 = 1
  let int := pendingInt s n
  let s := fieldsEff n syncHeard s
  match chooseNext n s with
  | none => haltSeq n Seq.halted true s
  | some (next, s) =>
    match int with
    | some b =>
      if safe then
        -- the record is of this word; the word's changes are in force in the handler
        takeInt n b next s
      else beginWord n next s
    | none => beginWord n next s

/-- What happens at the word at PC before its fields may act: a store error (R224), a stop (R245), a breakpoint (R245), a fault
(R242), a hold and an interrupt during it (R242). Else `act` is done. -/
def atWord (n : Lane) (storeOk : Bool) (s : State) (act : State → State) : State :=
  let w := seqWord s n
  let m := s.ms n
  let safe := mw w 141 141 = 1
  if !seqRuns s n then s
  else if !storeOk then storeErrHalt n s
  else if m.stopping && safe && m.acted == 0 then haltSeq n Seq.halted false s
  else if mw w 32 32 = 1 && s.on (F.MSn_CTL_BKPT_EN n) && !m.passBkpt && m.acted == 0 then
    haltSeq n Seq.halted false (recordHalt n 0x23 s)
  else
    match wordFault s n with
    | some c => takeFault n c s
    | none =>
      if wordHolds s n then
        let s := (deferHeater n s).put (F.MSn_STAT_STATE n) Seq.holding
        match pendingInt s n with
        | some b => if safe then takeInt n b (s.get (F.MSn_STAT_PC n)) (s.onMs n (fun m => { m with nxt := { m.cur with gate := m.nxt.gate } })) else s
        | none => s
      else act (s.put (F.MSn_STAT_STATE n) Seq.running)

end Sys2Proof.Machine
end

