-- ==== Sys2Proof/Machine/Relay.lean ====
section
/-! DEFINITION. The Relay scheduler (12_relay_scheduler.md, R302 to R323): the pool of work items, the access estimate, the choice and the
dispatch of items, their outcomes, and the charging of actuator time with the quotas of R398 to R401. -/

namespace Sys2Proof.Machine

/-! ### The pool (R302 to R304) -/

/-- The wedge numbers of an actuator counted across wraps (R306). -/
def wedgeNow (s : State) (a : Lane) : Nat := s.get (F.SVn_LAP_LAP (laneOf s a)) * 720 + s.get (F.SVn_LAP_WEDGE (laneOf s a))

/-- The wedge count of an actuator's engine. -/
def wedgeCount (s : State) (a : Lane) : Nat := (s.sv (laneOf s a)).wedges

/-- SVn_PERIOD of an actuator's engine. -/
def periodOf (s : State) (a : Nat) : Nat := s.get (F.SVn_PERIOD_PERIOD (laneNo s a))

/-- The age of an item in wedges of its actuator (R304). -/
def ageOf (s : State) (i : Item) : Nat :=
  if h : i.req.act < 4 then ((wedgeCount s ⟨i.req.act, h⟩ : Int) - i.arrived).toNat else 0

/-- Wedges of an actuator as a time in µs (R306, R320): T_w = SVn_PERIOD × 2.5 ÷ 64 ns. -/
def wedgesUs (s : State) (a w : Nat) : Nat := w * periodOf s a / 25600

/-- Items queued for an actuator, those forwarded left out. -/
def queuedOf (s : State) (a : Nat) : List Item := s.rly.pool.filter (fun i => i.req.act == a && !i.forwarded)

/-- RLY_ACT_STAT.OLDEST (R312): the age of an actuator's oldest queued item in ms, saturating at 4,095. -/
def oldestMs (s : State) (a : Nat) : Nat := min 4095 (((queuedOf s a).map (fun i => wedgesUs s a (ageOf s i) / 1000)).foldl max 0)

/-- The age limit of a class in ms (R303), none for classes 3 to 5. -/
def ageLimit (s : State) (cls : Nat) : Option Nat :=
  match cls with
  | 0 => some (max 1 (s.get F.RLY_AGE_CFG_AGE0))
  | 1 => some (max 1 (s.get F.RLY_AGE_CFG_AGE1))
  | 2 => some (max 1 (s.get F.RLY_AGE_CFG_AGE2))
  | _ => none

/-- The modes in which lanes serve (R33). -/
def servingMode (m : Nat) : Bool := m == Mode.active || m == Mode.degraded || m == Mode.readonly || m == Mode.spinup

/-- Work items in use (R302). -/
def poolUsed (s : State) : Nat := s.rly.pool.length + (lanes.map (fun (a : Lane) => (s.act a).items.length)).sum

/-- RLY_STAT shows the pool, the dispatch stop and the actuators in service (R323). -/
def showRelay (s : State) : State :=
  let busy := fun (a : Lane) => !(s.act a).busy.isEmpty
  let used := poolUsed s
  let s := (s.put F.RLY_STAT_POOL_USED (min 65535 used)).putB F.RLY_STAT_DISPATCH_STOP (s.on F.GLB_MODE_COND_POWER_FAIL || !servingMode s.mode)
  forEach lanes (fun a s => s.putB ((F.RLY_STAT_BUSY).bit a) (busy a)) s

/-- A pool index that no item of the pool holds, of 32,768. -/
def poolIndex (s : State) : Nat :=
  let used := fun k => s.rly.pool.any (fun i => i.idx == k) || lanes.any (fun (a : Lane) => (s.act a).items.any (fun i => i.idx == k))
  ((List.range 32768).find? (fun k => !used ((s.rly.next + k) % 32768))).map (fun k => (s.rly.next + k) % 32768) |>.getD 0

/-- The pool can take a number of items of a class (R302): the last 4,096 are reserved for class 0. -/
def poolRoom (s : State) (cls n : Nat) : Bool := decide (poolUsed s + n + (if cls = 0 then 0 else 4096) ≤ 32768)

/-- An item enters the pool with an age in wedges already spent (R302, R304, R318). -/
def enterPool (r : WorkReq) (age : Nat) (forwarded : Bool) (s : State) : State :=
  let idx := poolIndex s
  let now : Int := if h : r.act < 4 then (wedgeCount s ⟨r.act, h⟩ : Int) else 0
  showRelay { s with rly := { s.rly with pool := s.rly.pool ++ [⟨idx, r, now - age, forwarded⟩], next := (idx + 1) % 32768 } }

/-! ### Quotas (R398 to R401) -/

def qosNew : Qos := ⟨0, 0, 0, 0, 0, 0⟩
def State.qosOf (s : State) (fn : Nat) : Qos := smGetD qosNew fn s.rly.qos
def State.setQos (s : State) (fn : Nat) (q : Qos) : State := { s with rly := { s.rly with qos := smPut qosNew fn q s.rly.qos } }

/-- A_cap and A_floor of a setting (R398), in µs; a window below 10 ms acts as 10 (R404). -/
def allowance (s : State) (v : Nat) : Nat := v * max 10 (s.get F.RLY_QOS_CFG_WIN) * 1000 / 64

/-- A function is held (R399). -/
def fnHeld (s : State) (fn : Nat) : Bool := let q := s.qosOf fn; decide (fn < 128) && q.capNow != 0 && decide (q.bal ≤ 0)

/-- A function is below its floor (R400). -/
def belowFloor (s : State) (fn : Nat) : Bool := let q := s.qosOf fn; decide (fn < 128) && decide (q.used < allowance s q.floorNow)

/-- RLY_QOS_STAT shows the functions held and the floors in force (R403). -/
def showQos (s : State) : State :=
  let held := (functions.filter (fnHeld s)).length
  let sum := (s.rly.qos.map (fun e => e.2.floorNow)).sum
  (s.put F.RLY_QOS_STAT_HELD_CNT held).put F.RLY_QOS_STAT_FLOOR_SUM (min 65535 sum)

/-- A charge subtracted from a function's balance (R398); a function that it makes held sets RLY_QOS_FLT.HELD. -/
def chargeQos (fn us : Nat) (s : State) : State :=
  if 128 ≤ fn then s
  else
    let was := fnHeld s fn
    let q := s.qosOf fn
    let s := showQos (s.setQos fn { q with bal := q.bal - us, used := q.used + us })
    if !was && fnHeld s fn then s.flag F.RLY_QOS_FLT_HELD else s

/-- A window starts (R398, R400): the settings written take effect, balances refill, the charges of the window clear, floors are judged. -/
def quotaWindow (s : State) : State :=
  if !s.on F.RLY_CTL_ENABLE then s
  else
    let s := forEach (s.rly.qos.map (fun e => e.1)) (fun fn s =>
      let q := s.qosOf fn
      let cap := allowance s q.cap
      let was := fnHeld s fn
      let s := s.setQos fn { q with capNow := q.cap, floorNow := q.floor, bal := min (cap : Int) (q.bal + cap), used := 0 }
      if !was && fnHeld s fn then s.flag F.RLY_QOS_FLT_HELD else s) s
    let s := showQos s
    let sum := (s.rly.qos.map (fun e => e.2.floorNow)).sum
    if 64 * (lanes.filter (inService s)).length < sum then s.flag F.RLY_QOS_FLT_FLOOR_OVERSUB else s

/-! ### The access estimate (R305, R306) -/

/-- An entry of the seek table. -/
def seekEntry (s : State) (a k : Nat) : Nat := (smGetD 0 (24 * a + k) s.rly.seek).toNat

/-- T_seek(d) in µs (R305): entry 0 for the current track, entry k for 2^(k−1) tracks, between them in proportion. -/
def seekTime (s : State) (a d : Nat) : Nat :=
  if d = 0 then seekEntry s a 0
  else if 2 ^ 22 ≤ d then seekEntry s a 23
  else
    let k := Nat.log2 d
    let lo : Int := seekEntry s a (k + 1)
    let hi : Int := seekEntry s a (k + 2)
    (lo + (hi - lo) * ((d - 2 ^ k : Nat) : Int) / ((2 ^ k : Nat) : Int)).toNat

/-- Wedge and offset of the first gate of a position of a track (R306, R314). -/
def gateWedge (s : State) (a head track pos : Nat) : Nat × Nat :=
  match (zoneFmt s (zoneOfTrack s (laneNo s a) head track)).bind (fun f => f.map[pos]?) with
  | some p => (p.wedge, p.gateOfs)
  | none => (0, 0)

/-- Positions per track where an item lies. -/
def itemSpt (s : State) (r : WorkReq) : Nat := match zoneFmt s (zoneOfTrack s (laneNo s r.act) r.head r.track) with | some f => max 1 f.spt | none => 1

/-- Track and head from which a dispatch chosen now seeks: where the items in service end, else where the last dispatch ended (R306). -/
def seekFrom (s : State) (a : Lane) : Option (Nat × Nat) :=
  match (s.act a).busy.getLast? with
  | some i => some ((i.req.track * itemSpt s i.req + i.req.pos + i.req.count - 1) / itemSpt s i.req, i.req.head)
  | none => (s.act a).place

/-- The positioning time T_pos in µs (R305, R306); the head-switch time counts where the head changes or is not known. -/
def positionTime (s : State) (a : Lane) (r : WorkReq) : Nat :=
  match seekFrom s a with
  | some (track, head) =>
    let t := seekTime s a (max track r.track - min track r.track)
    if head = r.head then t else max t (s.get F.RLY_HSW_HSW)
  | none => max (seekTime s a (max (s.sv (laneOf s a)).aim r.track - min (s.sv (laneOf s a)).aim r.track)) (s.get F.RLY_HSW_HSW)

/-- w_e: the wedge in which the item in service is estimated to end, w₀ if none is in service (R306). DESIGN CHOICE: the spec gives no
estimate; its worked example has the wedge after the last gate's, which the model takes (log 26). -/
def endEstimate (s : State) (a : Lane) (w0 : Nat) : Nat := if (s.act a).busy.isEmpty then w0 else w0 + 1

/-- The access estimate A of a request, in wedges (R306). -/
def accessEstimate (s : State) (a : Lane) (r : WorkReq) : Nat :=
  let w0 := wedgeNow s a
  let wt := (gateWedge s a r.head r.track r.pos).1
  let p := max 1 (periodOf s a)
  let wa :=
    if (s.act a).busy.isEmpty && (s.act a).place == some (r.track, r.head) then w0 + 1
    else
      let ws := (endEstimate s a w0 + 3) / 4 * 4 + 1
      ws + ((positionTime s a r + s.get F.RLY_CTL_GUARD) * 25600 + p - 1) / p
  (wa - w0) + (((wt : Int) - (wa : Int)) % 720).toNat

/-- The effective cost E (R308). -/
def effectiveCost (s : State) (a : Lane) (i : Item) : Int :=
  (accessEstimate s a i.req : Int) - (ageOf s i * s.get F.RLY_CTL_AGE_GAIN / 256 : Nat)

/-! ### The choice (R307 to R310, R312, R317) -/

/-- A write to the media may start (R263, R298): the flush's own always, others unless BND holds them or READONLY has closed. -/
def mediaWriteAllowed (s : State) (r : WorkReq) : Bool :=
  r.kind != 1 || r.for_ == .journal || (!s.on F.BND_JNL_STAT_HELD && !(s.mode == Mode.readonly && decide (4 ≤ s.bnd.readonlyAt)))

/-- A lane entering service has its first dispatch only after the lane it replaces has ended its item (R506). -/
def mayServe (s : State) (n : Lane) : Bool :=
  match s.pwr.replaces.get n with
  | some m => (s.act (actOf s m)).items.isEmpty
  | none => true

/-- An item is eligible (R307): its lane in service, its function not held but for destage (R399), its write allowed. -/
def eligible (s : State) (i : Item) : Bool :=
  let r := i.req
  let lane := if h : r.act < 4 then inService s (laneOf s ⟨r.act, h⟩) && mayServe s (laneOf s ⟨r.act, h⟩) && ownAct s ⟨r.act, h⟩ else false
  let cal := s.mode != Mode.spinup || r.kind == 2 || r.for_ == .scan
  !i.forwarded && lane && cal && mediaWriteAllowed s r && !((r.cls == 1 || r.cls == 2) && r.for_ != .destage && fnHeld s r.fn)

/-- The 256 oldest eligible items of an actuator (R307), in pool order where ages are equal. -/
def insertOldest (s : State) (i : Item) : List Item → List Item
  | [] => [i]
  | x :: t => if x.arrived ≤ i.arrived then x :: insertOldest s i t else i :: x :: t

def considered (s : State) (a : Lane) : List Item :=
  (((queuedOf s a.val).filter (eligible s)).foldl (fun l i => insertOldest s i l) []).take 256

/-- The best of a list by a strict order; the earlier among equals. -/
def bestBy {α : Type} (better : α → α → Bool) : List α → Option α
  | [] => none
  | x :: t => some (t.foldl (fun b y => if better y b then y else b) x)

/-- Excess of an item's age over its class limit (R308), scaled by 25,600 per µs; none where it is not overdue. -/
def excessOf (s : State) (a : Lane) (i : Item) : Option Nat :=
  match ageLimit s i.req.cls with
  | some l =>
    let age := ageOf s i * periodOf s a
    let lim := l * 25600000
    if lim ≤ age then some (age - lim) else none
  | none => none

/-- The tier of an item (R308): 0 A, 1 B, 2 C, 3 D, 4 E. -/
def tierOf (s : State) (a : Lane) (i : Item) : Nat :=
  match i.req.cls with
  | 0 => 0
  | 1 => 1
  | 2 => 2
  | 3 => if 0 ≤ (s.act a).c3 then 2 else 3
  | 4 => if 0 ≤ (s.act a).c4 then 2 else 3
  | _ => 4

/-- The next item of an actuator (R308), and whether it is overdue. -/
def chooseItem (s : State) (a : Lane) : Option (Item × Bool) :=
  let cand := considered s a
  let over_ := cand.filterMap (fun i => (excessOf s a i).map (fun x => (x, i)))
  match bestBy (fun (x y : Nat × Item) => decide (y.1 < x.1) || (x.1 == y.1 && (decide (x.2.req.cls < y.2.req.cls) || (x.2.req.cls == y.2.req.cls && decide (x.2.idx < y.2.idx))))) over_ with
  | some (_, i) => some (i, true)
  | none =>
    let cost := fun (x y : Item) => decide (effectiveCost s a x < effectiveCost s a y) || (effectiveCost s a x == effectiveCost s a y && decide (x.idx < y.idx))
    (([0, 1, 2, 3, 4] : List Nat).findSome? (fun t =>
      let set_ := cand.filter (fun i => tierOf s a i == t)
      let favoured := set_.filter (fun i => t == 2 && i.req.cls == 2 && belowFloor s i.req.fn)
      bestBy cost (if favoured.isEmpty then set_ else favoured))).map (fun i => (i, false))

/-- The items that follow on from a position without a gap (R310), oldest first among equals. -/
def followers (s : State) (first : WorkReq) : Nat → Nat → List Item → List Item
  | 0, _, _ => []
  | n + 1, at_, l =>
    let spt := itemSpt s first
    match l.find? (fun i => i.req.cls == first.cls && i.req.head == first.head && i.req.kind == first.kind && i.req.track * spt + i.req.pos == at_) with
    | some i => i :: followers s first n (at_ + i.req.count) (l.erase i)
    | none => []

/-- The items of one dispatch (R310). -/
def dispatchOf (s : State) (a : Lane) (i : Item) : List Item :=
  if !s.on F.RLY_CTL_COALESCE || i.req.kind == 2 then [i]
  else
    let others := ((queuedOf s a.val).filter (eligible s)).filter (fun x => x.idx != i.idx)
    i :: followers s i.req others.length (i.req.track * itemSpt s i.req + i.req.pos + i.req.count) others

/-! ### Dispatch (R313, R314) -/

/-- The tracks of an item: track, position, count (at most 4,095), data sectors before it. -/
def itemTracks (s : State) (r : WorkReq) : List (Nat × Nat × Nat × Nat) :=
  let spt := itemSpt s r
  let data := fun (track pos n : Nat) => ((List.range n).filter (fun i => match bandOfTrack s r.act r.head track with | some b => (bandDataAt s b track (pos + i)).isSome | none => true)).length
  let runs := trackRuns (min spt 4095) (r.count + 1) (r.track * spt + r.pos) r.count
  (runs.foldl (fun (acc : List (Nat × Nat × Nat × Nat) × Nat) p =>
    let t := p.1 / spt
    let pos := p.1 % spt
    (acc.1 ++ [(t, pos, p.2, acc.2)], acc.2 + data t pos p.2)) ([], 0)).1

/-- The item of the dispatch that a position lies in. -/
def itemAt (s : State) (a : Lane) (track pos : Nat) : Option Item :=
  (s.act a).items.find? (fun i =>
    let spt := itemSpt s i.req
    let start := i.req.track * spt + i.req.pos
    decide (start ≤ track * spt + pos) && decide (track * spt + pos < start + i.req.count))

/-- The command-table slot of an item. -/
def slotOfWork : WorkFor → Option Nat
  | .host k => some k
  | _ => none

/-- XFER and RDESC or WDESC of one track sent to MSn (R314); a calibration sends CAL. -/
def sendTrack (a : Lane) (x : Nat × Nat × Nat × Nat) (s : State) : State :=
  let (track, pos, count, before) := x
  match itemAt s a track pos with
  | none => s
  | some i =>
    let r := i.req
    let n := laneOf s a
    let s := s.onAct a (fun t => { t with steps := t.steps ++ [(track, i.idx)] })
    if r.kind = 2 then msSend n (msEntry 0x05 r.head 0 0 0 0) s
    else
      let zone := zoneOfTrack s n r.head track
      let (wedge, ofs) := gateWedge s a r.head track pos
      let slot := slotOfWork r.for_
      let w2 := zone + r.head * 32 + r.kind * 256 + b2n r.limited * 512 + (slot.getD 0) * 1024
      let s := msSend n (msEntry 0x01 track (pos + count * 4096) w2 (wedge + b2n slot.isNone * 1024) ofs) s
      let lba := r.lba + before
      let spt := itemSpt s r
      let seq := r.seq + ((track * spt + pos) - (r.track * spt + r.pos))
      if r.kind = 0 then
        msSend n (msEntry 0x02 lba (lba / 2 ^ 24 % 2048 + b2n r.lbaValid * 2048 + r.meta_ * 4096) 0 0 0) s
      else
        msSend n (msEntry 0x03 lba (lba / 2 ^ 24 % 2048 + r.meta_ * 4096 + r.over_ * 16384) seq (seq / 2 ^ 24) r.band) s

/-- The next track of the dispatch sent, once the entries of the previous one have been popped (R313); the last gate of the
dispatch is then known (R307). -/
def sendNext (a : Lane) (s : State) : State :=
  if s.on F.GLB_MODE_COND_POWER_FAIL || (s.ms (laneOf s a)).cmd.any (fun e => e.extractLsb' 0 8 != 0xFF) then s
  else
    match (s.act a).tracks with
    | x :: rest =>
      let last := if rest.isEmpty then some (x.1, x.2.1 + x.2.2.1 - 1) else none
      sendTrack a x (s.onAct a (fun t => { t with tracks := rest, last := last }))
    | [] => s

/-- A target entry (R183). -/
def targetEntry (track : Nat) (ofs : BitVec 16) (tag : Nat) : Dword :=
  BitVec.ofNat 64 (track % 2 ^ 22 + ofs.toNat * 2 ^ 32 + tag % 256 * 2 ^ 48)

/-- RLY writes a target (R313): only with SRC = 0 and without POWER_FAIL (R317). -/
def writeTarget (a : Lane) (e : Dword) (s : State) : State :=
  if s.on F.GLB_MODE_COND_POWER_FAIL then s
  else
    let s := s.onAct a (fun t => { t with target := some e })
    if s.on (F.SVn_PACE_CTL_SRC (laneOf s a)) then s else mailboxWrite (laneOf s a) false e s

/-- The state of an actuator with a new dispatch: in service at once where nothing is, else behind what is (R307, R313, R320). -/
def Act.take (t : Act) (l : List Item) (tracks : List (Nat × Nat × Nat × Nat)) (start : Nat) : Act :=
  let t := { t with tracks := tracks, target := none, reissues := 0, offset := none, last := none, ready := false }
  if t.busy.isEmpty then
    { t with busy := l, startW := start, followW := none, pauseW := 0, outcomes := 0, tracksDone := 0, tracksAll := tracks.length, revs := 0, fed := 0, steps := [], ahead := none }
  else { t with ahead := some ⟨l, tracks.length, none, none⟩ }

/-- The items of a dispatch leave the pool for the actuator: a new track or head takes a target, a new head a HEAD command too (R310, R313, R320). -/
def dispatchItems (a : Lane) (l : List Item) (s : State) : State :=
  match l with
  | [] => s
  | i :: _ =>
    let r := i.req
    let n := laneOf s a
    let tracks := l.flatMap (fun j => if j.req.kind = 2 then [(j.req.track, j.req.pos, 1, 0)] else itemTracks s j.req)
    let from_ := seekFrom s a
    let here := decide (from_ = some (r.track, r.head))
    let newHead := match from_ with | some (_, h) => h != r.head | none => true
    let w0 := wedgeNow s a
    let start := if here then (s.act a).endW + 1 else wedgeCount s a + ((w0 + 3) / 4 * 4 + 1 - w0)
    let s := { s with rly := { s.rly with pool := s.rly.pool.filter (fun x => !l.any (fun y => y.idx == x.idx)) } }
    let s := s.onAct a (fun t => t.take l tracks start)
    let s := if here then s else writeTarget a (targetEntry r.track 0 i.idx) s
    let s := if newHead then msSend n (msEntry 0x04 r.head (zoneOfTrack s n r.head r.track) 0 0 0) (sendHead n (BitVec.ofNat 3 r.head) s) else s
    showRelay (sendNext a s)

/-- As many lanes hold an item as the lane limit allows (R506): a lane entering service waits for the one it replaces. -/
def laneLimitReached (s : State) : Bool := decide (s.get F.PWR_STAT_LANE_LIMIT ≤ (lanes.filter (fun a => !(s.act a).busy.isEmpty)).length)

/-- A decision may be made for an actuator (R307): nothing is in service there, or its last gate has opened and nothing is chosen behind it;
no ladder runs on the lane and no drain (R317), and RLY is enabled. -/
def mayDecide (s : State) (a : Lane) : Bool :=
  let t := s.act a
  let n := laneOf s a
  let free := if t.busy.isEmpty then !laneLimitReached s else t.ready && t.ahead.isNone && t.tracks.isEmpty
  s.on F.RLY_CTL_ENABLE && free && servingMode s.mode && !s.on F.GLB_MODE_COND_POWER_FAIL && (s.ln n).ladder.isNone && !(s.ln n).drain

/-- One decision for an actuator (R307, R308, R310). -/
def decide_ (a : Lane) (s : State) : State :=
  if !mayDecide s a then s
  else
    match chooseItem s a with
    | none => s
    | some (i, over_) =>
      let s := if over_ then (s.count F.RLY_CNT_OVERDUE).flag F.RLY_FLT_OVERDUE else s
      dispatchItems a (dispatchOf s a i) s

/-! ### Charging (R309, R320, R321) -/

/-- An amount added to an account (R321), which wraps. -/
def addAccount (kind idx us : Nat) (s : State) : State :=
  let k := 256 * kind + idx
  { s with rly := { s.rly with acct := smPut 0 k (smGetD 0 k s.rly.acct + BitVec.ofNat 64 us) s.rly.acct } }

/-- A charge in an account, with its seek and ladder parts, and in the function's balance (R320, R321, R398). -/
def chargeAccount (idx total seek ladder : Nat) (s : State) : State :=
  chargeQos idx total (addAccount 2 idx ladder (addAccount 1 idx seek (addAccount 0 idx total s)))

/-- A charge divided in proportion to weights, the remainder to the first (R320). -/
def divideCharge (total : Nat) (l : List (Nat × Nat)) : List (Nat × Nat) :=
  let sum := max 1 (l.map (fun p => p.2)).sum
  let parts := l.map (fun p => (p.1, total * p.2 / sum))
  let rest := total - (parts.map (fun p => p.2)).sum
  match parts with
  | (f, v) :: t => (f, v + rest) :: t
  | [] => []

/-- An item of a list that holds it. -/
def itemAtD (l : List Item) (k : Nat) : Item := l.getD k ⟨0, ⟨.patrol, 0, 0, systemAcct, 0, 0, 0, 0, 0, 0, false, 0, 0, 0, 0, false, []⟩, 0, false⟩

/-- Accounts of an item with their weights: the functions of a destage extent, else the one it is charged to. -/
def itemShares (r : WorkReq) : List (Nat × Nat) := if r.shares.isEmpty then [(r.fn, r.count)] else r.shares

/-- The share of class 3 or 4 in 1/64 (R309). -/
def shareOf (s : State) (cls : Nat) : Nat := if cls = 3 then s.rly.fgShare else s.get F.RLY_SHARE_CFG_PATROL_SHARE

/-- The actuator holds an item of a class, queued or in service. -/
def holdsClass (s : State) (a : Lane) (cls : Nat) : Bool :=
  (queuedOf s a.val).any (fun i => i.req.cls == cls) || (s.act a).items.any (fun i => i.req.cls == cls)

/-- The share credits after an item ends with a charge in µs (R309), in 0.1 ms. -/
def updateCredits (a : Lane) (cls us : Nat) (s : State) : State :=
  let d := us / 100
  let next := fun (c : Int) (k : Nat) =>
    let sh := shareOf s k
    let c := min ((s.get F.RLY_SHARE_CFG_SHARE_WIN * 10 * sh / 64 : Nat) : Int) (c + (d * sh / 64 : Nat))
    let c := if cls = k then c - d else c
    if holdsClass s a k then c else 0
  s.onAct a (fun t => { t with c3 := next t.c3 3, c4 := next t.c4 4 })

/-- The charge of the dispatch that ends now, with its seek and ladder parts, in µs (R320): the inclusive interval less what is not charged. -/
def chargeOf (s : State) (a : Lane) : Nat × Nat × Nat :=
  let t := s.act a
  let total := wedgesUs s a (wedgeCount s a + 1 - t.startW - t.pauseW)
  let seek := match t.followW with | some f => wedgesUs s a (f + 1 - t.startW) | none => 0
  (total, min total seek, wedgesUs s a (720 * t.revs))

/-- The charge so far of the dispatch chosen behind the one in service (R316, R320). -/
def chargeAhead (s : State) (a : Lane) (x : Ahead) : Nat × Nat × Nat :=
  match x.start with
  | some w => (wedgesUs s a (wedgeCount s a + 1 - w), (match x.follow with | some f => wedgesUs s a (f + 1 - w) | none => 0), 0)
  | none => (0, 0, 0)

/-- Outcomes of a forwarded extent as OUTCOME carries them (log 21): done, unrecovered, LANE_LOST, POS_FAIL, ABORTED. -/
def Outcome.done : Nat := 0
def Outcome.unrecovered : Nat := 1
def Outcome.laneLost : Nat := 2
def Outcome.posFail : Nat := 3
def Outcome.aborted : Nat := 4

/-- A dispatch's charge divided among its items and their functions (R320); forwarded items return their charge (R318), patrol counts what it
read (R290), and the credits change as each item ends (R309). -/
def chargeItems (a : Lane) (outcome : Nat) (l : List Item) (charge : Nat × Nat × Nat) (s : State) : State :=
  let weights := (List.range l.length).map (fun k => (k, (itemAtD l k).req.count))
  let totals := divideCharge charge.1 weights
  let seeks := divideCharge charge.2.1 weights
  let ladders := divideCharge charge.2.2 weights
  let part := fun (p : List (Nat × Nat)) k => (p.getD k (0, 0)).2
  forEach (List.range l.length) (fun k s =>
    let r := (itemAtD l k).req
    let sh := itemShares r
    let ts := divideCharge (part totals k) sh
    let ss := divideCharge (part seeks k) sh
    let ls := divideCharge (part ladders k) sh
    let s := forEach (List.range sh.length) (fun j s => chargeAccount (sh.getD j (0, 0)).1 (part ts j) (part ss j) (part ls j) s) s
    let s :=
      match r.for_ with
      | .forwarded tag => batSend (BitVec.ofNat 32 tag) (.outcome outcome (part totals k)) s
      | .patrol => s.onBnd (fun b => { b with patrol := setV b.patrol a { b.patrol.get a with read := (b.patrol.get a).read + r.count } })
      | _ => s
    updateCredits a r.cls (part totals k) s) s

/-- Outcomes that the dispatch awaits (R315): one for each position, none of a calibration. -/
def outcomesDue (s : State) (a : Lane) : Nat := ((s.act a).busy.map (fun i => if i.req.kind = 2 then 0 else i.req.count)).sum

/-- Data sectors that the writes of a dispatch put into the write-data FIFO (R128). -/
def itemData (s : State) (i : Item) : Nat :=
  if i.req.kind ≠ 1 then 0
  else (itemTracks s i.req).foldl (fun m x => m + ((List.range x.2.2.1).filter (fun k => match bandOfTrack s i.req.act i.req.head x.1 with | some b => (bandDataAt s b x.1 (x.2.1 + k)).isSome | none => true)).length) 0

/-- The actuator after its dispatch in service has ended at a wedge: the one chosen behind it goes into service, its interval from the start of
its plan or from the wedge after this end (R320). -/
def Act.advance (t : Act) (w due data : Nat) (place : Option (Nat × Nat)) : Act :=
  let t := { t with endW := w, place := place }
  match t.ahead with
  | some x =>
    { t with busy := x.items, ahead := none, startW := x.start.getD (w + 1), followW := x.follow, pauseW := 0, revs := 0, outcomes := t.outcomes - due,
             tracksDone := t.tracksDone - t.tracksAll, tracksAll := x.tracksAll, fed := t.fed - data }
  | none => { t with busy := [], tracks := [], target := none, offset := none, steps := [], last := none, ready := false }

/-- Where the heads are once a dispatch has ended: the track of its last position, and its head. -/
def endPlace (s : State) (l : List Item) : Option (Nat × Nat) :=
  l.getLast?.map (fun i => ((i.req.track * itemSpt s i.req + i.req.pos + i.req.count - 1) / itemSpt s i.req, i.req.head))

/-- The dispatch in service leaves the actuator, charged (R309, R315, R320). -/
def endDispatch (a : Lane) (outcome : Nat) (s : State) : State :=
  let l := (s.act a).busy
  if l.isEmpty then s
  else
    let charge := chargeOf s a
    let w := wedgeCount s a
    let due := outcomesDue s a
    let data := (l.map (itemData s)).sum
    let place := endPlace s l
    showRelay (chargeItems a outcome l charge (s.onAct a (fun t => t.advance w due data place)))

/-- Every dispatch of an actuator leaves it. -/
def endDispatches (a : Lane) (outcome : Nat) (s : State) : State := endDispatch a outcome (endDispatch a outcome s)

/-- The dispatch has ended (R315): its last track is DONE and every sector has an outcome. -/
def dispatchOver (s : State) (a : Lane) : Bool :=
  let t := s.act a
  !t.busy.isEmpty && decide (t.tracksAll ≤ t.tracksDone) && decide (outcomesDue s a ≤ t.outcomes)

/-! ### Items that end without success (R315 to R317, R319) -/

/-- Dirty blocks that were being destaged under a request await another destage. -/
def undoDestage (r : WorkReq) (s : State) : State :=
  forEach (s.buf.cache.filter (fun e => e.2.dirty && (match e.2.seq with | some q => decide (r.seq ≤ q) && decide (q < r.seq + r.count) | none => false)))
    (fun e s => cacheSet e.1 { e.2 with seq := none } s) s

/-- Sectors of a write item as reports for relocation (R260, R316). -/
def itemReports (s : State) (r : WorkReq) : List Report :=
  let spt := itemSpt s r
  ((List.range r.count).filterMap (fun i =>
    let p := r.track * spt + r.pos + i
    match bandDataAt s r.band (p / spt) (p % spt) with
    | some _ => some (p, i)
    | none => none)).foldl (fun (acc : List Report) p =>
      acc ++ [⟨.due, r.act, r.head, p.1 / spt, p.1 % spt, 1, r.lba + acc.length, r.seq + p.2, r.band⟩]) []

/-- An item ends with outcome LANE_LOST or POS_FAIL (R315, R316): its command fails, its blocks stay dirty or are relocated, a journal copy
counts as handled, a rewrite whose band cannot be written is abandoned. -/
def failItem (i : Item) (outcome : Nat) (s : State) : State :=
  let r := i.req
  match r.for_ with
  | .host k => failRead k r.lba r.count (retryResult (if outcome = Outcome.laneLost then .anaInaccessible else .unrecoveredRead)) s
  | .destage => if outcome = Outcome.posFail then { s with reports := s.reports ++ itemReports s r } else undoDestage r s
  | .journal => (s.onBnd (fun b => { b with flush := b.flush.map (fun f => { f with left := f.left - r.count }) })).flag F.BND_FLT_JNL_COPY
  | .image => s.onBnd (fun b => { b with image := b.image.map (fun p => (p.1, p.2 - r.count)) })
  | .rewriteWrite b => if outcome = Outcome.posFail then { s with reports := s.reports ++ itemReports s r } else
      (match s.bnd.rewrites.find? (fun w => w.new == b) with | some w => abandonRewrite w.logical (undoDestage r s) | none => s)
  | .rewriteRead b => (match s.bnd.rewrites.find? (fun w => w.new == b) with | some w => abandonRewrite w.logical s | none => s)
  | .relocate => if r.kind = 1 then { s with reports := s.reports ++ itemReports s r } else s
  | .forwarded tag => batSend (BitVec.ofNat 32 tag) (.outcome outcome 0) s
  | _ => s

/-- Every item of an actuator ends with outcome LANE_LOST (R315). -/
def laneLostItems (a : Lane) (s : State) : State :=
  let inSvc := (s.act a).items
  let queued := queuedOf s a.val
  let s := endDispatches a Outcome.laneLost s
  let s := { s with rly := { s.rly with pool := s.rly.pool.filter (fun i => i.req.act != a.val || i.forwarded) } }
  showRelay (forEach (inSvc ++ queued) (fun i s => failItem i Outcome.laneLost s) s)

/-- The dispatch whose target has failed leaves the actuator with POS_FAIL: the one chosen last (R307, R316). -/
def endFailed (a : Lane) (s : State) : State :=
  match (s.act a).ahead with
  | some x =>
    let charge := chargeAhead s a x
    showRelay (chargeItems a Outcome.posFail x.items charge (s.onAct a (fun t => { t with ahead := none, tracks := [], target := none, offset := none, last := none, ready := true })))
  | none => endDispatch a Outcome.posFail s

/-- The items whose target has failed. -/
def failingItems (t : Act) : List Item := match t.ahead with | some x => x.items | none => t.busy

/-- The items whose target has failed end with POS_FAIL (R316), and the sequencer's ABORT interrupt arises (R240). -/
def posFail (a : Lane) (s : State) : State :=
  let l := failingItems (s.act a)
  if l.isEmpty then s
  else
    let s := (endFailed a s).flag F.RLY_FLT_POS_FAIL
    let s := s.count F.RLY_CNT_POS_FAIL l.length
    let s := s.onAct a (fun t => { t with place := none })
    let n := laneOf s a
    forEach l (fun i s => failItem i Outcome.posFail s) (msInt n 5 (s.onMs n (fun m => { m with cmd := [] })))

/-- A target failed by a following-error trip, reported with its TAG (R191, R316): written again up to FE_REISSUE times, then POS_FAIL. -/
def reissueTarget (a : Lane) (tag : BitVec 8) (s : State) : State :=
  match (s.act a).target with
  | some e =>
    if tgtTag e ≠ tag then s
    else if (s.act a).reissues < s.get F.RLY_CTL_FE_REISSUE then
      writeTarget a e (s.onAct a (fun t => { t with reissues := t.reissues + 1 }))
    else posFail a s
  | none => s

/-- Items in service end with ABORTED and are done again with their original age (R317, R378); what their sectors were about is forgotten, and the
sequencer's ABORT interrupt arises (R240). -/
def abortItems (a : Lane) (s : State) : State :=
  let l := (s.act a).items
  if l.isEmpty then s
  else
    let n := laneOf s a
    let s := msInt n 5 (s.onMs n (fun m => { m with cmd := [] }))
    let s := s.onLn n (fun n => { n with wfifo := [], desc := none, cont := none, reads := [] })
    let s := endDispatches a Outcome.aborted (s.onAct a (fun t => { t with revs := 0 }))
    let s := s.onAct a (fun t => { t with place := none })
    let back := l.filter (fun i => match i.req.for_ with | .forwarded _ => false | _ => true)
    showRelay { s with rly := { s.rly with pool := s.rly.pool ++ back } }

/-! ### Outcomes of sectors (R123, R145, R292, R294) -/

/-- A sector that no rung recovered (R123): the host command fails, the band pends retirement, a current copy that upkeep read is lost. -/
def sectorLost (r : Report) (s : State) : State :=
  let r := resolveReport r s
  let item := if h : r.lane < 4 then itemAt s ⟨r.lane, h⟩ r.track r.index else none
  let current := match copyPlace s (resolve s r.lba) with | some (_, hd, t, p, b) => b == r.band && hd == r.head && t == r.track && p == r.index | none => false
  let for_ := (item.map (fun i => i.req.for_)).getD .patrol
  match for_ with
  | .host k => pendRetire r.band (failRead k r.lba 1 (failResult .unrecoveredRead) s)
  | .patrol => let s := if current then loseLba r.lba 0 s else s; pendRetire r.band s
  | .rewriteRead _ => (loseLba r.lba 0 s).onBuf (fun u => { u with copies := smSet r.lba (zeros 4096) u.copies })
  | .relocate => if current then loseLba r.lba 0 s else s
  | .forwarded tag => batSend (BitVec.ofNat 32 tag) (.outcome Outcome.unrecovered 0) s
  | _ => s

/-- The sector belongs to an extent that runs here for the partner: its map is the partner's (R318, R479). -/
def forPartner (s : State) (r : Report) : Bool :=
  match (if h : r.lane < 4 then itemAt s ⟨r.lane, h⟩ r.track r.index else none) with
  | some i => (match i.req.for_ with | .forwarded _ => true | _ => false)
  | none => false

/-- The reports that BND takes at once: sectors placed and sectors lost; those aborted with their lane are forgotten. -/
def takeOutcomes (s : State) : State :=
  let l := s.reports
  let keep := l.filter (fun r => r.kind != .placed && r.kind != .unrecovered && r.kind != .aborted)
  forEach l (fun r s =>
    match r.kind with
    | .placed => if forPartner s r then s else bndPlaced (resolveReport r s) s
    | .unrecovered => sectorLost r s
    | _ => s) { s with reports := keep }

/-- Sectors of an upkeep read whose copies are still current are handed to BND for placing anew (R286). -/
def tailReports (i : Item) (s : State) : State :=
  if i.req.for_ == .relocate && i.req.kind == 0 then { s with reports := s.reports ++ (itemReports s i.req).map (fun r => { r with seq := 0 }) } else s

/-- Dispatches that have ended leave their actuators (R315). -/
def endOver (a : Lane) (s : State) : State :=
  if dispatchOver s a then
    let l := (s.act a).busy
    forEach l tailReports (endDispatch a Outcome.done s)
  else s

/-- Every outcome so far acted on (R315). -/
def gatherOutcomes (s : State) : State := forEach lanes endOver (takeOutcomes s)

/-- The oldest report of a kind from an actuator, at the event's sector where it names one. -/
def firstReport (s : State) (k : ReportKind) (a : Lane) (here : Report → Bool) : Option Report :=
  s.reports.find? (fun r => r.kind == k && r.lane == a.val && here r)

/-- A sector reported for rewriting or relocation reaches BND (R294): its band weakens, and the sector is due for relocation (R260). -/
def passReport (k : ReportKind) (a : Lane) (here : Report → Bool) (s : State) : State :=
  match firstReport s k a here with
  | some r =>
    let r' := { resolveReport r s with kind := .due }
    weaken r'.band { s with reports := s.reports.map (fun x => if x == r then r' else x) }
  | none => s

/-- The sectors that a RELOCATE event names (R151, R237): its track by the low 16 bits, its first sector and its count, of the items dispatched. -/
def eventReports (s : State) (a : Lane) (w5 w6 : Nat) : List Report :=
  let track := w5 % 65536
  let n := w5 / 65536 % 256
  ((s.act a).items.flatMap (fun i => itemReports s i.req)).filter (fun r => r.track % 65536 == track && decide (w6 ≤ r.index) && decide (r.index < w6 + n))

/-- Sectors reported for relocation by a RELOCATE event (R144, R151, R294): the lane's own report of the sector, else the sectors that the event
names, a refused write command's among them. -/
def passRelocate (a : Lane) (w5 w6 : Nat) (s : State) : State :=
  let here := fun (r : Report) => r.track % 65536 == w5 % 65536 && r.index == w6
  match firstReport s .relocate a here with
  | some _ => passReport .relocate a here s
  | none =>
    let l := eventReports s a w5 w6
    forEach l (fun r s => weaken r.band s) { s with reports := s.reports ++ l }

/-! ### Events of the sequencer (R237, R315) -/

/-- Event codes (R237). -/
def Ev.squelch : Nat := 0x01
def Ev.vfyMiss : Nat := 0x02
def Ev.rewrite : Nat := 0x03
def Ev.relocate : Nat := 0x04
def Ev.preampFault : Nat := 0x05
def Ev.calRange : Nat := 0x06
def Ev.slip : Nat := 0x07
def Ev.done : Nat := 0x08
def Ev.offsetReq : Nat := 0x09
def Ev.ladder : Nat := 0x0A

/-- Codes that the Relay scheduler acts on (R237, R315); it passes over the others, those free for firmware and those of hardware (log 24). -/
def Ev.known (e : BitVec 64) : Bool := let c := bitsOf e.toNat 7 0; decide (1 ≤ c) && decide (c ≤ 0x0A)

/-- The first event of a lane's FIFO on which the Relay scheduler acts, where it has a code: W5 and W6, and the state without it and those
passed over. -/
def takeEvent (n : Lane) (code : Nat) (s : State) : Option (Nat × Nat × State) :=
  match (s.ms n).events.dropWhile (fun e => !Ev.known e) with
  | e :: rest =>
    if bitsOf e.toNat 7 0 = code then some (bitsOf e.toNat 39 16, bitsOf e.toNat 63 40, s.onMs n (fun m => { m with events := rest })) else none
  | [] => none

/-- An event acted on by `f` with its W5 and W6; nothing where the FIFO's head is another. -/
def onEvent (n : Lane) (code : Nat) (f : Nat → Nat → State → State) (s : State) : State :=
  match takeEvent n code s with
  | some (w5, w6, s) => f w5 w6 s
  | none => s

/-- A slipped sector requeued in the same item at its next revolution (R315). -/
def requeueSlip (a : Lane) (track sector : Nat) (s : State) : State :=
  match itemAt s a track sector with
  | some i =>
    let before := match (itemTracks s i.req).find? (fun x => x.1 == track && decide (x.2.1 ≤ sector) && decide (sector < x.2.1 + x.2.2.1)) with
      | some x => x.2.2.2 + ((List.range (sector - x.2.1)).filter (fun k => match bandOfTrack s i.req.act i.req.head track with | some b => (bandDataAt s b track (x.2.1 + k)).isSome | none => true)).length
      | none => 0
    s.onAct a (fun t => { t with tracks := t.tracks ++ [(track, sector, 1, before)], tracksAll := t.tracksAll + 1, last := none, ready := false })
  | none => s

/-- The track of a dispatch is DONE (R313, R315): the next one is sent, and where the same dispatch goes on at another track the heads are sent
there. DEDUCED: R313 speaks of one target for an item that needs a new track; an item that spans tracks needs one more at each (log 26). -/
def trackDone (a : Lane) (s : State) : State :=
  let old := (s.act a).steps.head?
  let more := decide ((s.act a).tracksDone + 1 < (s.act a).tracksAll)
  let s := sendNext a (s.onAct a (fun t => { t with tracksDone := t.tracksDone + 1, steps := t.steps.drop 1 }))
  match old, (s.act a).steps.head? with
  | some (t0, _), some (t1, idx) => if more && t0 != t1 then writeTarget a (targetEntry t1 0 idx) (s.onAct a (fun t => { t with reissues := 0 })) else s
  | _, _ => s

/-- An offset asked for (R315): a target with the same TRACK and that OFS. -/
def offsetTarget (a : Lane) (ofs : BitVec 16) (s : State) : State :=
  match (s.act a).busy with
  | i :: _ =>
    let track := match (s.act a).target with | some e => tgtTrack e | none => i.req.track
    writeTarget a (targetEntry track ofs i.idx) (s.onAct a (fun t => { t with offset := some ofs }))
  | [] => s

/-- The offset asked for shows in SVn_OFS (R315): OP 0xFE tells MSn. -/
def offsetReached (n : Lane) (s : State) : State :=
  let a := actOf s n
  match (s.act a).offset with
  | some o => if s.get (F.SVn_OFS_OFS n) = o.toNat then msSend n (msEntry 0xFE o.toNat 0 0 0 0) (s.onAct a (fun t => { t with offset := none })) else s
  | none => s

/-! ### Arrival of items (R302, R303, R311, R318) -/

/-- Sector positions of queued items of classes 0 to 2 on an actuator, its backlog (R311). -/
def backlog (s : State) (a : Lane) : Nat := ((queuedOf s a.val).filter (fun i => i.req.cls ≤ 2)).foldl (fun m i => m + i.req.count) 0

/-- The actuator of a destage extent (R289, R311): among those of the set that are present and owned, the lowest level, the least backlog,
the lower number; only with none of these the partner's, by the same rules, the extent then being forwarded. -/
def destageActuator (s : State) (set_ : List Lane) : Option Lane :=
  bestBy (fun (x y : Lane) => decide (levelOf s x < levelOf s y) || (levelOf s x == levelOf s y && (decide (backlog s x < backlog s y) || (backlog s x == backlog s y && decide (x.val < y.val)))))
    (let own := set_.filter (ownAct s)
     if own.isEmpty then set_.filter (fun a => actIncluded s a && !owns s a && forwarding s) else own)

/-- Consecutive dirty blocks of one namespace that await destage. -/
def dirtyRun (s : State) (lba : Nat) : Nat → Nat
  | 0 => 0
  | n + 1 =>
    match cacheGet s lba with
    | some c => if c.dirty && c.seq.isNone then 1 + dirtyRun s (lba + 1) n else 0
    | none => 0

/-- The functions whose writes a run of blocks holds, with their counts (R320). -/
def runShares (s : State) (lba n : Nat) : List (Nat × Nat) :=
  (List.range n).foldl (fun (l : List (Nat × Nat)) i => match cacheGet s (lba + i) with | some c => smSet c.fn (smGetD 0 c.fn l + 1) l | none => l) []

/-- The blocks of a run are being destaged, with consecutive SEQ from the first. -/
def claimRun (lba n seq : Nat) (seqOf : Nat → Nat) (s : State) : State :=
  forEach (List.range n) (fun i s => match cacheGet s (lba + i) with | some c => cacheSet (lba + i) { c with seq := some (seq + seqOf i) } s | none => s) s

/-- Dirty blocks destaged to a media cache (R252, R311): the extent is whole on one actuator. -/
def destageLog (lba n : Nat) (set_ : List Lane) (s : State) : State :=
  match destageActuator s set_ with
  | none => s
  | some a =>
    let n := min n (min 256 (logRun s a))
    let shares := runShares s lba n
    let fn := match shares with | (f, _) :: _ => f | [] => systemAcct
    match logWrite .destage 2 fn a lba n shares s with
    | some (seq, s) => claimRun lba n seq (fun i => i) s
    | none => s

/-- Dirty blocks destaged to a zone at its write pointer (R253, R129): whole track-parity groups, one at a time. -/
def destageZone (lba n : Nat) (s : State) : State :=
  let l := lbandOf s lba
  let y := s.lband l
  match y.phys with
  | none => s
  | some b =>
    let d := lba % bandSectors s
    if d ≠ y.wp ∨ workFor s (fun r => r.kind == 1 && r.band == b) then s
    else
      let (track, pos) := bandPlace s b d
      match zoneFmt s (bandZone s b) with
      | none => s
      | some f =>
        let (_, m, p) := groupOf f pos
        let m := if f.p = 0 then min n (f.spt - pos) else min m (bandSectors s - d)
        if n < m ∨ m = 0 then s
        else
          match takeSeq (m + p) s with
          | none => s
          | some (seq, s) =>
            let shares := runShares s lba m
            let fn := match shares with | (x, _) :: _ => x | [] => systemAcct
            let start := (track - bandTrack s b) * f.spt + pos
            let r := { writeReq s .destage 2 fn b start (m + (if f.p = 0 then 0 else p)) lba seq with shares := shares }
            claimRun lba m seq (fun i => i) (request r s)

/-- A destage of the dirty blocks from an LBA on (R302, R303). -/
def destage (lba count : Nat) (s : State) : State :=
  let n := dirtyRun s lba count
  if n = 0 ∨ s.get F.BND_STAT_STATE ≠ 4 then s
  else
    match nsOfLba s lba with
    | some (_, e) =>
      let left := nsBase s e + nsSize s e - lba
      if e.kind = 2 then destageZone lba (min n (min left (bandSectors s - lba % bandSectors s))) s
      else destageLog lba (min n left) (actsOf e.set_) s
    | none => s

/-- Head calibration as firmware asks for it (R83, R303). -/
def calRequest (n : Lane) (head : BitVec 3) : WorkReq := ⟨.calibrate, 0, 2, systemAcct, n.val, head.toNat, 0, 0, 1, 0, false, 0, 0, 0, 0, false, []⟩

/-- A block's data as the buffer holds it for the media: a version on its way there stands beside a newer one. -/
def plainBlock (s : State) (lba : Nat) : List Byte :=
  match cacheGet s lba with
  | some c => if c.seq.isSome then c.data else smGetD c.data lba s.buf.copies
  | none => (smGet lba s.buf.copies).getD []

/-- The extent of a request on an actuator of the partner's is forwarded (R318), unless its function is held (R399); a write's blocks follow in
DATA under the extent's TAG (log 30). -/
def forwardExtent (r : WorkReq) (s : State) : State :=
  if !forwarding s || fnHeld s r.fn then s
  else
    let (tag, s) := newTag s
    let s := { s with rly := { s.rly with requests := s.rly.requests.erase r } }
    let s := enterPool r 0 true s
    match s.rly.pool.getLast? with
    | some i =>
      let s := { s with bat := { s.bat with extents := s.bat.extents ++ [(tag.toNat, i)] } }
      let s := batSend tag (.extent r 0) (s.count F.RLY_CNT1_FWD_OUT)
      if r.kind = 1 then forEach (itemReports s r) (fun p s => batSend tag (.data p.lba 1 [plainBlock s p.lba]) s) s else s
    | none => s

/-- A request can go on: its actuator is this chip's, or the partner takes extents (R318). -/
def canArrive (s : State) (r : WorkReq) : Bool :=
  match lanes.find? (fun (a : Lane) => a.val == r.act) with
  | some a => owns s a || forwarding s
  | none => false

/-- A request enters the pool, or is forwarded to the partner that owns its actuator (R302, R318). -/
def arriveOne (r : WorkReq) (s : State) : State :=
  let mine := match lanes.find? (fun (a : Lane) => a.val == r.act) with | some a => owns s a | none => true
  if mine then enterPool r 0 false { s with rly := { s.rly with requests := s.rly.requests.erase r } }
  else forwardExtent r s

/-- The requests that arrive together: every item of a host command's resolution, or one request of another source (R302). -/
def arrivalGroup (s : State) (r : WorkReq) : List WorkReq :=
  match r.for_ with
  | .host _ => s.rly.requests.filter (fun x => x.for_ == r.for_ && canArrive s x)
  | _ => [r]

/-- The oldest waiting request enters the pool with the rest of its command's items, or they wait until items free (R302). -/
def arriveWaiting (s : State) : State :=
  match s.rly.requests.find? (canArrive s) with
  | none => s
  | some r =>
    let l := arrivalGroup s r
    if !poolRoom s r.cls l.length then s.flag F.RLY_FLT_POOL_FULL else forEach l arriveOne s

/-! ### Lane media streams (R110, R130, R428) -/

/-- Bytes of a journal or image sector at its LBA field (R264, R269): the entries of the flush in progress; an image's layout is left open. -/
def recordSector (r : WorkReq) (lba : Nat) (s : State) : List Byte × State :=
  match r.for_ with
  | .journal =>
    match s.bnd.flush with
    | some f =>
      let start := s.bnd.jnlPos - f.entries.length / 128
      (fit 4096 (((f.entries.drop (128 * (lba - start))).take 128).flatMap jentryBytes), s)
    | none => (zeros 4096, s)
  | _ => let (v, s) := s.free 32768; (le 4096 v.toNat, s)

/-- The bytes that a write puts on the media for an LBA (R128, R382). -/
def writeBytes (r : WorkReq) (lba : Nat) (s : State) : List Byte × State :=
  match r.for_ with
  | .journal => recordSector r lba s
  | .image => recordSector r lba s
  | _ =>
    (toMedia s lba (fit (4096 + metaLen r.meta_) (plainBlock s lba)), s)

/-- A block's place in the buffer holds poison. -/
def blockPoisoned (s : State) (lba : Nat) : Bool :=
  match cacheGet s lba with
  | some c => (List.range 64).any (fun i => linePoisoned s (64 * c.loc + i))
  | none => false

/-- The data sector of the dispatches that is to enter the FIFO next: its item and its number in the item. -/
def nextFed (s : State) (a : Lane) : Option (Item × Nat) :=
  ((s.act a).items.foldl (fun (acc : Option (Item × Nat) × Nat) i =>
    match acc with
    | (some x, n) => (some x, n)
    | (none, n) => if n < itemData s i then (some (i, n), 0) else (none, n - itemData s i)) (none, (s.act a).fed)).1

/-- 256-bit entries of a lane's write-data FIFO that hold complete sectors (R30). -/
def fifoEntries (l : Ln) : Nat := (l.wfifo.map (fun d => (d.length + 31) / 32)).sum

/-- A sector's data moved into a lane's write-data FIFO (R128, R130), where its 512 entries have room for the whole sector (R30); a poisoned block
is not written, and is lost (R423). -/
def feedLane (n : Lane) (s : State) : State :=
  let a := actOf s n
  match nextFed s a with
  | none => s
  | some (i, k) =>
    if i.req.kind ≠ 1 ∨ (s.ln n).drain ∨ 512 < fifoEntries (s.ln n) + (4096 + metaLen i.req.meta_ + 31) / 32 then s
    else
      let lba := i.req.lba + k
      let s := s.onAct a (fun t => { t with fed := t.fed + 1 })
      if blockPoisoned s lba then sectorOutcome n (dirtyPoison lba (s.count F.BUF_CNT_PSN_USED))
      else
        let (data, s) := writeBytes i.req lba s
        s.onLn n (fun l => { l with wfifo := l.wfifo ++ [data] })

/-- A block read from the media reaches the commands whose snapshots reference it there (R365). -/
def fillSnapshots (lba : Nat) (data : List Byte) (s : State) : State :=
  forEach (slotsWhere s (fun x => match x.snap with | some l => l.contains (lba, .media lba) | none => false)) (fun k s =>
    s.onSlot k (fun x => { x with snap := x.snap.map (fun l => l.map (fun e => if e = (lba, .media lba) then (lba, BlockRef.cached data) else e)) })) s

/-- The block kept in the read cache, where a place can be had (R424). -/
def readCacheFill (lba : Nat) (data : List Byte) (s : State) : State :=
  if (cacheGet s lba).isSome then s
  else
    match takePlace .readCache s with
    | some (loc, s) =>
      let ns := match nsOfLba s lba with | some (k, _) => k | none => 0
      cacheSet lba ⟨data, false, false, 0, ns, 0, none, loc⟩ (memWrite (4096 * loc) (fit 4096 data) s)
    | none => s

/-- A block read from the media, here or by the partner, reaches the commands and the upkeep that asked for it (R110, R318). -/
def blockArrived (lba : Nat) (data : List Byte) (s : State) : State :=
  let waited := !(slotsWhere s (fun x => match x.snap with | some l => l.contains (lba, .media lba) | none => false)).isEmpty
  let s := fillSnapshots lba data s
  let s := if waited then readCacheFill lba data s else s
  let upkeep := s.reports.any (fun r => (resolveReport r s).lba == lba && (r.kind == .rewrite || r.kind == .due || r.kind == .relocate)) ||
    s.bnd.rewrites.any (fun r => r.logical == lbandOf s lba) ||
    workFor s (fun r => r.for_ == .relocate && r.kind == 0 && decide (r.lba ≤ lba) && decide (lba < r.lba + r.count))
  if upkeep then s.onBuf (fun u => { u with copies := smSet lba data u.copies }) else s

/-- A decoded sector's information part written to the buffer (R110): its data goes to the commands that read it, to the upkeep that asked for
it, to the partner. No command asks for a parity sector or for one whose LBA is unknown (R119). -/
def takeDecoded (s : State) : State :=
  match s.ldp.handed with
  | [] => s
  | h :: rest =>
    let s := { s with ldp := { s.ldp with handed := rest } }
    match if h.parity then none else h.lba with
    | none => s
    | some lba =>
      let data := fromMedia s lba (h.info.take (h.info.length - 32))
      let s := blockArrived lba data s
      let forwarded : Option Item := if x : h.lane < 4 then (s.act (actOf s ⟨h.lane, x⟩)).items.find? (fun i => (match i.req.for_ with | .forwarded _ => true | _ => false) && decide (i.req.lba ≤ lba) && decide (lba < i.req.lba + i.req.count)) else none
      match forwarded.map (fun i => i.req.for_) with
      | some (WorkFor.forwarded tag) => batSend (BitVec.ofNat 32 tag) (.data lba 1 [data]) s
      | _ => s

/-- What a granted lane stream moves (R110, R130, R428). -/
def laneMove (m : LaneMove) (s : State) : State :=
  match m with
  | .decoded => takeDecoded s
  | .writeData n => feedLane n s
  | _ => s

/-- A slip caused by arbitration counted (R429). -/
def starved (s : State) : State := (s.count F.BUF_ARB_CNT_LANE_STARVE).flag F.BUF_FLT_LANE_STARVE

/-- A lane stream that was not granted in time (R429): the oldest decoded sector handed over is lost to the buffer and slips to the next revolution; a
write sector's slip is counted where its gate is due (R130). -/
def laneLate (m : LaneMove) (s : State) : State :=
  match m with
  | .decodedLate =>
    match s.ldp.handed with
    | h :: rest =>
      let s := starved { s with ldp := { s.ldp with handed := rest } }
      if x : h.lane < 4 then slipSector ⟨h.lane, x⟩ h.sector s else s
    | [] => s
  | .writeLate _ => starved s
  | _ => s

end Sys2Proof.Machine
end

