-- ==== Sys2Proof/Machine/Erase.lean ====
section
/-! DEFINITION. The namespace table as it is changed and recorded (13_host_ports_and_functions.md, R345, R346, R391) and the erase sequence
(15_tenant_isolation_and_keys.md, R393 to R397), over the map and the keys. -/

namespace Sys2Proof.Machine

/-! ### The namespace table (R251, R346, R391, R491) -/

/-- A namespace's entry set: in the table, in boot MRAM, and at the partner; the slot's command waits for its RACK (R491). -/
def setNs (k : Nat) (e : NsEntry) (slot : Option Nat) (s : State) : State :=
  batRecord (.nsrec k (some e)) slot (s.onBnd (fun b => { b with ns := smSet k e b.ns, attach := smSet k (e.pi_, e.attached, e.permits) b.attach }))

/-- A namespace's entry removed. -/
def dropNs (k : Nat) (slot : Option Nat) (s : State) : State :=
  batRecord (.nsrec k none) slot (s.onBnd (fun b => { b with ns := smErase k b.ns, attach := smErase k b.attach }))

/-- An NS entry in the journal (R262): kind 0 records a deletion. -/
def journalNs (k kind : Nat) (e : NsEntry) (s : State) : State :=
  journal { jentry 0x09 with ns := k, count := kind + 4 * e.lbaf, arg0 := e.base, arg1 := e.count, x := e.set_.toNat, seq := seqNext s } s

/-- The slot's command waits for the JACK of what has been journaled so far (R491). -/
def awaitJack (slot : Option Nat) (s : State) : State :=
  match slot with
  | some k => if mirrorsWrites s && decide (s.bat.jnlAcked < s.bat.jnlPos) then { s with bat := { s.bat with jacks := s.bat.jacks ++ [⟨s.bat.jnlPos - 1, k⟩] } } else s
  | none => s

/-! ### Erases (R393 to R397) -/

/-- An LBA belongs to a namespace. -/
def inNs (s : State) (e : NsEntry) (lba : Nat) : Bool := decide (nsBase s e ≤ lba) && decide (lba < nsBase s e + nsSize s e)

/-- Step 2 of R394: every cached block of the namespace discarded, its bytes overwritten with zeros, the partner's mirrors of them freed. -/
def eraseCache (k : Nat) (e : NsEntry) (s : State) : State :=
  forEach (s.buf.cache.filter (fun c => inNs s e c.1)) (fun c s =>
    let s := memWrite (4096 * c.2.loc) (zeros 4096) (cacheDrop c.1 s)
    if c.2.mirrored then batSend 0 (.mfree k c.1 1) s else s) s

/-- Step 3: the namespace's entries leave the lost-write list. -/
def eraseLost (k : Nat) (slot : Option Nat) (s : State) : State :=
  forEach (s.buf.lwl.filter (fun e => e.ns == k)) (fun e s => lwlPut { e with map := 0 } slot s) s

/-- Step 4: the map forgets the namespace's data, and a flush is forced; in READONLY the map alone changes (R396). -/
def eraseMap (e : NsEntry) (slot : Option Nat) (s : State) : State :=
  if s.mode == Mode.readonly then
    let jnl := s.bnd.jnl
    let n := s.bnd.sinceImage
    showJournal ((deallocNamespace e s).onBnd (fun b => { b with jnl := jnl, sinceImage := n }))
  else awaitJack slot (forceFlush (deallocNamespace e s))

/-- The checkpoint that will record what has just been journaled (R264). -/
def coveringCkpt (s : State) : Nat := (s.get F.BND_CKPT_NUM_NUM + (if s.bnd.flush.isSome then 2 else 1)) % 2 ^ 32

/-- ACTIVITY cleared once no sanitize or format runs (R40), and the drive's Sanitize recorded as completed. -/
def activityOver (s : State) : State :=
  let running := s.key.erases.any (fun x => match x.slot.bind s.slot with | some y => isActivity y.cmd.op | none => false)
  if running || !s.on F.GLB_MODE_ACTIVITY then s
  else
    let s := if s.qe.sanitize = 1 ∨ s.qe.sanitize = 2 then { s with qe := { s.qe with sanitize := 3 } } else s
    (s.put F.GLB_MODE_ACTIVITY 0).irq 19

/-- An erase leaves the list: counted where it destroyed a key, and its command completes with the last one of it (step 6). -/
def eraseDone (x : Erase) (s : State) : State :=
  let s := { s with key := { s.key with erases := s.key.erases.erase x } }
  let s := if x.keep then s else (s.count F.KEY_CNT_ERASES).tally 73
  let s := activityOver s
  match x.slot with
  | some k => if s.key.erases.any (fun y => y.slot == some k) then s else finish k okResult s
  | none => s

/-- Step 5: the record is rewritten without ERASE_PENDING. -/
def eraseClear (x : Erase) (s : State) : State :=
  if x.keep || x.delete then s
  else
    match keySelected s x.ns with
    | some r => (writeKeyRecord x.ns { r with erasePending := false } true x.slot s).2
    | none => s

/-- A checkpoint has reached the media: the erases that it records go on to their end (R394 steps 5 and 6). -/
def erasesPlaced (s : State) : State :=
  let n := s.get F.BND_CKPT_NUM_NUM
  forEach (s.key.erases.filter (fun x => decide ((n + 2 ^ 32 - x.ckpt) % 2 ^ 32 < 2 ^ 31))) (fun x s => eraseDone x (eraseClear x s)) s

/-- Steps 2 to 4 of R394 for one namespace, and the wait for the checkpoint. A deleted namespace leaves
the table (R346). -/
def eraseData (k : Nat) (delete keep : Bool) (slot : Option Nat) (s : State) : State :=
  match nsEntry s k with
  | some e =>
    let s := eraseMap e slot (eraseLost k slot (eraseCache k e s))
    let s := if delete then dropNs k slot (if s.mode == Mode.readonly then s else awaitJack slot (journalNs k 0 e s)) else s
    let x : Erase := ⟨k, delete, keep, slot, coveringCkpt s⟩
    { s with key := { s.key with erases := s.key.erases ++ [x] } }
  | none => s

/-- The generation of a namespace's key (R385): that of its selected record, or the higher of two copies neither of which is good (log 28). -/
def keyGen (s : State) (k : Nat) : BitVec 32 :=
  match keySelected s k with
  | some r => r.gen
  | none =>
    match smGet k s.key.recs with
    | some (a, b) =>
      if (recordGen a).toNat < (recordGen b).toNat then recordGen b else recordGen a
    | none => 0

/-- An erase of one namespace from step 1 on (R394): `ok` is the read-back of the record. False: the draw or the write failed, and the old key is kept. -/
def eraseNs (k : Nat) (delete keep ok : Bool) (slot : Option Nat) (s : State) : Bool × State :=
  let (done, s) :=
    if keep then (true, s)
    else if delete then dropKeyRecord k ok slot s
    else newKey k (keyGen s k + 1) true ok slot s
  if done then (true, eraseData k delete keep slot s) else (false, s)

/-- Erases of several namespaces in order, until one fails. -/
def eraseAll (delete keep ok : Bool) (slot : Option Nat) : List Nat → State → Bool × State
  | [], s => (true, s)
  | k :: rest, s =>
    let (done, s) := eraseNs k delete keep ok slot s
    if done then eraseAll delete keep ok slot rest s else (false, s)

/-- In READONLY an erase ends without step 5 (R396). -/
def eraseReadonly (slot : Option Nat) (s : State) : State :=
  if s.mode == Mode.readonly then forEach (s.key.erases.filter (fun x => x.slot == slot)) eraseDone s else s

/-- A command that erases namespaces: it completes with the last of them, at once where it names none, and with Internal Error where a draw or a
write failed; what it has begun then runs to its end. -/
def eraseCommand (k : Nat) (l : List Nat) (delete keep ok : Bool) (s : State) : State :=
  let (done, s) := eraseAll delete keep ok (some k) l s
  if done then
    let s := eraseReadonly (some k) s
    if s.key.erases.any (fun x => x.slot == some k) then s else finish k okResult (activityOver s)
  else
    let s := { s with key := { s.key with erases := s.key.erases.map (fun x => if x.slot = some k then { x with slot := none } else x) } }
    finish k (failResult .internalError) (activityOver s)

/-- Erases that a power loss interrupted are repeated before BND reaches READY (R396). -/
def eraseResume (s : State) : State :=
  let pending := (s.bnd.ns.map (fun e => e.1)).filter (fun k => match keySelected s k with | some r => r.erasePending | none => false)
  eraseReadonly none (forEach (pending.filter (fun k => !s.key.erases.any (fun x => x.ns == k))) (eraseData · false false none) s)

end Sys2Proof.Machine
end

