-- ==== Sys2Proof/Machine/PowerOps.lean ====
section
/-! DEFINITION. Shared operations of the power and cadence manager (20_power_and_cadence.md): the worst-corner power model and the lane
limit (R504 to R506), what hosts request (R509, R510), known events (R512), and the cadence requests (R515, R516). -/

namespace Sys2Proof.Machine

def State.onPwr (s : State) (f : Pwr → Pwr) : State := { s with pwr := f s.pwr }

/-- The applied power state (GLB_MODE.PSTATE). -/
def State.ps (s : State) : Nat := s.get F.GLB_MODE_PSTATE

/-! ### The power model (R505) -/

/-- P_max(c, N) at a cadence code, in 1/720,000 W so that it is exact. -/
def powerMax (c n : Nat) : Nat := 240 * 7200 + n * (60 * 7200 + 230 * rpmOf c)

/-- Lanes that are present, owned by this chip and not lost: L. -/
def servableLanes (s : State) : List Lane := lanes.filter (ownLane s)

/-- The cap of an operational state in 0.01 W, lowered by the thermal reactions (R504, R517). -/
def capOf (s : State) (ps : Nat) : Nat :=
  let step := fun k => if k = 0 then 1400 else if k = 1 then 1000 else 700
  match s.get F.PWR_STAT_THERM with
  | 0 => step ps
  | 1 => step (min 2 (ps + 1))
  | _ => 700

/-- N_cap(c) under a cap: the largest N ≤ L that keeps it. -/
def laneCap (l cap c : Nat) : Nat := ((List.range (l + 1)).filter (fun n => decide (powerMax c n ≤ cap * 7200))).foldl max 0

/-- Declared cadences, the lowest first. -/
def declaredCadences (s : State) : List Nat := ([0, 1, 2, 3] : List Nat).filter (cadenceDeclared s)

/-- c* of an operational state (R505): the declared cadence that maximises min(L, N_cap(c)) × c, a tie going to the lower. -/
def cadenceCeiling (s : State) (ps : Nat) : Nat :=
  let l := (servableLanes s).length
  let value := fun c => min l (laneCap l (capOf s ps) c) * rpmOf c
  match declaredCadences s with
  | [] => 0
  | c :: t => t.foldl (fun b x => if value b < value x then x else b) c

/-- HOST_OP (R509, PWR_STAT). -/
def hostOp (s : State) : Nat := s.get F.PWR_STAT_HOST_OP

/-- The operational state whose cap holds: the applied one, or HOST_OP while the applied one is non-operational. -/
def capState (s : State) : Nat := if s.ps ≤ 2 then s.ps else hostOp s

/-- The modes in which lanes can be in service. -/
def laneMode (m : Nat) : Bool := servingMode m || m == Mode.idleReady || m == Mode.idleSlow || m == Mode.idleParked

/-- The lane limit at the cadence in force (R505). -/
def laneLimit (s : State) : Nat :=
  if s.ps ≤ 2 && laneMode s.mode then laneCap (servableLanes s).length (capOf s (capState s)) (cadence s) else 0

/-- The rank of a lane in the choice of R506: RLY_ACT_STAT.OLDEST, with nothing queued last. -/
def oldestOf (s : State) (n : Lane) : Nat := if (queuedOf s (actOf s n)).isEmpty then 0 else oldestMs s (actOf s n) + 1

/-- The lanes that R506 chooses: the greatest OLDEST first, ties to the lower lane. -/
def chooseLanes (s : State) : Nat → List Lane → List Lane
  | 0, _ => []
  | k + 1, l =>
    match bestBy (fun (x y : Lane) => decide (oldestOf s y < oldestOf s x)) l with
    | some n => n :: chooseLanes s k (l.erase n)
    | none => []

/-- Each lane entering service put against a lane leaving it whose item in service has still to end (R506). -/
def replacing (l : List Lane) (s : State) : Vector (Option (Fin 4)) 4 :=
  let leaving := (lanes.filter (fun (n : Lane) => s.get ((F.PWR_STAT_IN_SVC).bit n) == 1 && !l.contains n)).filter (fun n => !(s.act (actOf s n)).items.isEmpty)
  let entering := l.filter (fun (n : Lane) => s.get ((F.PWR_STAT_IN_SVC).bit n) == 0)
  Vector.ofFn (fun (n : Lane) => if l.contains n then (if entering.contains n then leaving[entering.idxOf n]? else s.pwr.replaces.get n) else none)

/-- IN_SVC set to a list of lanes (R506), the tokens levelled to their floors (R112). -/
def setInService (l : List Lane) (s : State) : State :=
  let r := replacing l s
  let s := s.onPwr (fun p => { p with replaces := r })
  levelTokens (forEach lanes (fun n s => s.putB ((F.PWR_STAT_IN_SVC).bit n) (l.contains n)) s)

/-- The lanes in service chosen anew (R506). -/
def rotateLanes (s : State) : State := setInService (chooseLanes s (laneLimit s) (servableLanes s)) s

/-- PWR_STAT shows the limit, the ceiling and the lanes in service (R506, R520): the lanes in service stay while the limit lets as many
serve as before, else they are chosen anew. -/
def showPwr (s : State) : State :=
  let s := (s.put F.PWR_STAT_LANE_LIMIT (laneLimit s)).put F.PWR_STAT_CAD_CEIL (cadenceCeiling s (capState s))
  let able := servableLanes s
  let now := able.filter (inService s)
  if now.length = min (laneLimit s) able.length && lanes.all (fun n => !(s.get ((F.PWR_STAT_IN_SVC).bit n) == 1) || able.contains n) then s
  else rotateLanes s

/-! ### Host requests (R509, R510) -/

/-- The states requested by the controllers that are ready. -/
def requestedStates (s : State) : List Nat :=
  (functions.filter (fun fn => (s.ctrl fn).rdy)).map (fun fn => smGetD 0 2 (s.ctrl fn).feats)

/-- The least of a list. -/
def leastOf : List Nat → Option Nat
  | [] => none
  | x :: t => some (t.foldl min x)

/-- HOST_PS and HOST_OP formed anew (R509). -/
def showHostRequests (s : State) : State :=
  let l := requestedStates s
  let ps := (leastOf l).getD 0
  let op := (leastOf (l.filter (fun k => decide (k ≤ 2)))).getD (if l.isEmpty then 0 else hostOp s)
  (s.put F.PWR_STAT_HOST_PS ps).put F.PWR_STAT_HOST_OP op

/-- A command of the table needs the media (R510, R40): an I/O command, a sanitize or a format, without a result. -/
def mediaCommand (x : Slot) : Bool := (x.sq != 0 || isActivity x.cmd.op) && x.result.isNone && x.state != .held

/-- The chip is working (R510). -/
def working (s : State) : Bool :=
  s.qe.slots.any (fun p => mediaCommand p.2) || s.on F.GLB_MODE_ACTIVITY ||
  s.rly.pool.any (fun i => decide (i.req.cls ≤ 4) && owns s i.req.act) ||
  lanes.any (fun n => owns s n && (s.act n).items.any (fun i => decide (i.req.cls ≤ 4)))

/-! ### Known events (R512) -/

/-- ENLAT and EXLAT of a state in ms (R508, PWR_PSD_LATk). -/
def enLat (s : State) (k : Nat) : Nat := ((s.reg (R.PWR_PSD_LAT0 + 4 * k)).extractLsb' 16 16).toNat
def exLat (s : State) (k : Nat) : Nat := ((s.reg (R.PWR_PSD_LAT0 + 4 * k)).extractLsb' 0 16).toNat

/-- Ring time at which the patrol DEBT of a lane's actuator passes URGENT (R291). -/
def patrolEvent (s : State) (n : Lane) : Option Nat :=
  let p := s.bnd.patrol.get (actOf s n)
  if !ownLane s n || p.written = 0 then none
  else some ((p.start + p.read * 3600 * patrolPeriod s / p.written + 3600 * (s.get F.BND_PATROL_CFG_URGENT + 1)) * 10 ^ 8)

/-- The scheduled activation, held in the current copy of the boot state (R536, R551). -/
def armedTime (s : State) : Option Nat :=
  let cur := match s.trc.boot0, s.trc.boot1 with
    | some a, some b => some (if b.seq < a.seq then a.state else b.state)
    | some a, none => some a.state
    | none, some b => some b.state
    | none, none => none
  (cur.bind (fun b => b.armed)).map (fun a => a.1.toNat)

/-- The known events: their source code and ring time. -/
def knownEvents (s : State) : List (Nat × Nat) :=
  let hint := (s.pair R.PWR_HINT_LO R.PWR_HINT_HI).toNat
  lanes.filterMap (fun n => (patrolEvent s n).map (fun t => (1, t))) ++
  (match armedTime s with | some t => [(2, t)] | none => []) ++
  (if hint = 0 then [] else [(3, hint)]) ++ [(4, (s.pair R.TLY_WIN_END_LO R.TLY_WIN_END_HI).toNat)]

/-- The earliest known event still to come, and the ms to it (R512). -/
def nextEvent (s : State) : Option (Nat × Nat) :=
  let now := s.now.toNat
  (bestBy (fun (x y : Nat × Nat) => decide (x.2 < y.2)) ((knownEvents s).filter (fun e => decide (now < e.2)))).map (fun e => (e.1, (e.2 - now) / 100000))

/-- PWR_NEXT_EVT shows it; MS saturates. -/
def showNextEvent (s : State) : State :=
  match nextEvent s with
  | some (k, ms) => (s.put F.PWR_NEXT_EVT_SOURCE k).put F.PWR_NEXT_EVT_MS (min ms (2 ^ 29 - 1))
  | none => (s.put F.PWR_NEXT_EVT_SOURCE 0).put F.PWR_NEXT_EVT_MS 0

/-! ### Pairs and cadence (R514 to R516) -/

/-- Both chips of a pair serve (R514). -/
def bothServe (s : State) : Bool :=
  imageRole s != 0 && s.on F.BAT_STAT_PEER_OK && !s.on F.GLB_MODE_COND_PARTNER_LOST && !lanes.all (fun n => owns s n)

/-- The deepest state that may be applied (R514). -/
def pairLimit (s : State) (k : Nat) : Nat := if bothServe s then min k 3 else k

/-- PWR writes SPM_CAD_REQ (R215, R516): counted, and source 36 becomes pending. -/
def pwrCadence (c : Nat) (s : State) : State := ((cadenceRequest c s).count F.PWR_CNT_CAD_CHG).irq 36

/-- A request for a cadence that is not the one already requested. -/
def wantCadence (c : Nat) (s : State) : State := if s.get F.SPM_CAD_REQ_CAD = c then s else pwrCadence c s

/-- The lowest declared cadence, which the idle states ask for; 3,600 rpm where every image declares it (R55, R504). -/
def lowestCadence (s : State) : Nat := (declaredCadences s).headD 0

/-- The demand U of a window in 1/10,000 (R515): the greatest share of in-service wedges with an item in service; 1 where an owned lane's OLDEST has
reached half of AGE2 or an owned actuator collects. -/
def demandOf (s : State) : Nat :=
  let share := fun (n : Lane) => let w := s.pwr.svcW.get n; if w = 0 then 0 else (s.pwr.busyW.get n) * 10000 / w
  let old := fun (a : Lane) =>
    match ageLimit s 2 with
    | some l => !(queuedOf s a).isEmpty && decide (l ≤ 2 * oldestMs s a)
    | none => false
  if lanes.any (fun a => owns s a && (old a || decide (2 ≤ levelOf s a))) then 10000 else (lanes.map share).foldl max 0

/-- The cadence decision of a window end (R516); while both chips of a pair serve, the highest declared cadence (R514). -/
def decideCadence (s : State) : State :=
  let u := demandOf s
  let s := s.onPwr (fun p => { p with svcW := Vector.replicate 4 0, busyW := Vector.replicate 4 0 })
  if 2 < s.ps || spinState s != Sp.atSpeed then s
  else if bothServe s then wantCadence ((declaredCadences s).getLast?.getD 0) s
  else
    let c := cadence s
    let top := cadenceCeiling s s.ps
    if !s.on F.PWR_CTL_CAD_AUTO then
      let fixed := s.get F.PWR_CTL_FIXED_CAD
      let fixed := if cadenceDeclared s fixed then fixed else (declaredCadences s).getLast?.getD 0
      wantCadence (min fixed top) s
    else
      let up := s.get F.PWR_CAD_CFG_UP
      let down := min (s.get F.PWR_CAD_CFG_DOWN) up
      let lower := ((declaredCadences s).filter (fun x => decide (x < c))).getLast?
      let higher := (declaredCadences s).find? (fun x => decide (c < x))
      let low := match lower with | some l => decide (u * rpmOf c ≤ down * 100 * rpmOf l) | none => false
      let s := s.onPwr (fun p => { p with downs := if low then p.downs + 1 else 0 })
      if top < c then pwrCadence top (s.onPwr (fun p => { p with downs := 0 }))
      else if up * 100 ≤ u ∧ c < top then (match higher with | some h => pwrCadence h (s.onPwr (fun p => { p with downs := 0 })) | none => s)
      else
        let rested := match s.pwr.changedAt with | some t => decide (t + s.get F.PWR_CAD_DWELL_DWELL * 10 ^ 8 ≤ s.now.toNat) | none => true
        match lower with
        | some l => if low && rested && decide (max 1 (s.get F.PWR_CAD_CFG_HOLD) ≤ s.pwr.downs) then pwrCadence l (s.onPwr (fun p => { p with downs := 0 })) else s
        | none => s

end Sys2Proof.Machine
end

