-- ==== Sys2Proof/Machine/Ports.lean ====
section
/-! DEFINITION. Shared operations of the host ports (13_host_ports_and_functions.md): configuration space (R325 to R327), MSI-X messages, errors of a
port under AER (R342, R351), the registers of a controller that the spec fixes (R332, R333), and the resets of a function and of a port (R331). The
layouts that PCI Express and NVMe fix are taken from them (log 41). -/

namespace Sys2Proof.Machine

/-! ### Configuration space (R325, R326) -/

/-- A function's configuration space as reset leaves it. PRESUMED: PCI Express's own reset values, the spec giving none (log 41). -/
def pciNew : PciFn := ⟨0, 2, false, 0, false, false, false, false, [], [], 0, 0, 0, 0x2000⟩

def State.pci (s : State) (fn : Nat) : PciFn := smGetD pciNew fn s.qe.pci
def State.onPci (s : State) (fn : Nat) (f : PciFn → PciFn) : State := { s with qe := { s.qe with pci := smPut pciNew fn (f (s.pci fn)) s.qe.pci } }

/-- The capability is present in a function (R325). -/
def capPresent (fn : Nat) : PciCap → Bool
  | .pciExpress => true
  | .msix => true
  | .aer => true
  | .ari => true
  | .flr => true
  | .powerManagement => isPf fn
  | .sriov => isPf fn
  | .serialNumber => isPf fn
  | .secondaryPcie => isPf fn
  | .dataLinkFeature => isPf fn
  | .physical16 => isPf fn
  | .physical32 => isPf fn
  | .laneMargining => isPf fn
  | _ => false

/-- The capability to which a field belongs, where it stands in one. -/
def fieldCap : CfgField → Option PciCap
  | .maxPayloadSupported => some .pciExpress
  | .maxPayload => some .pciExpress
  | .maxReadRequest => some .pciExpress
  | .tag10Supported => some .pciExpress
  | .tag10Enable => some .pciExpress
  | .timeoutRanges => some .pciExpress
  | .timeoutValue => some .pciExpress
  | .aspmL1 => some .pciExpress
  | .powerState => some .powerManagement
  | .msixSize => some .msix
  | .msixEnable => some .msix
  | .msixFunctionMask => some .msix
  | .totalVfs => some .sriov
  | .initialVfs => some .sriov
  | .numVfs => some .sriov
  | .vfEnable => some .sriov
  | .vfOffset => some .sriov
  | .vfStride => some .sriov
  | .vfDeviceId => some .sriov
  | .serialNumber => some .serialNumber
  | .aerUncStatus => some .aer
  | .aerUncMask => some .aer
  | .aerCorStatus => some .aer
  | .aerCorMask => some .aer
  | _ => none

/-- The function carries the field. -/
def hasField (fn : Nat) (f : CfgField) : Bool := match fieldCap f with | some c => capPresent fn c | none => true

/-- The Device Serial Number (R325, R526): the last 8 bytes of the device identity digest. -/
def deviceSerial (s : State) : Nat := (deviceId s.trc.uds).toNat % 2 ^ 64

/-- A field of a function's configuration space (R325 to R329); one that the function does not carry reads as zero. -/
def cfgRead (s : State) (fn : Nat) (f : CfgField) : Nat :=
  let p := s.pci fn
  let port := portOf fn
  let host := fun (g : HostSec → Nat) => (((hostSec s).map g).getD 0 : Nat)
  if !hasField fn f then 0
  else
    match f with
    | .vendorId => host (fun h => h.vid.toNat)
    | .deviceId => host (fun h => if isPf fn then h.pfDid.toNat else h.vfDid.toNat)
    | .classCode => 0x010802
    | .subsystemVendorId => host (fun h => h.ssvid.toNat)
    | .barSize => if isPf fn then 65536 else 16384
    | .maxPayloadSupported => 2
    | .maxPayload => p.mps
    | .maxReadRequest => p.mrrs
    | .tag10Supported => 1
    | .tag10Enable => b2n p.tag10
    | .timeoutRanges => 0x0E
    | .timeoutValue => p.timeout
    | .aspmL1 => b2n p.aspmL1
    | .powerState => if p.d3hot then 3 else 0
    | .msixSize => viOf s fn
    | .msixEnable => b2n p.msixEn
    | .msixFunctionMask => b2n p.msixMask
    | .totalVfs => totalVfs s port
    | .initialVfs => totalVfs s port
    | .numVfs => s.get (F.HIFn_FN_STAT_NUMVF port)
    | .vfEnable => s.get (F.HIFn_FN_STAT_VF_EN port)
    | .vfOffset => 1
    | .vfStride => 1
    | .vfDeviceId => host (fun h => h.vfDid.toNat)
    | .serialNumber => deviceSerial s
    | .aerUncStatus => p.unc.toNat
    | .aerUncMask => p.uncMask.toNat
    | .aerCorStatus => p.cor.toNat
    | .aerCorMask => p.corMask.toNat

/-! ### MSI-X (R325, R331, R371) -/

/-- A vector's message may leave: MSI-X is enabled and neither the function nor the vector is masked. -/
def vectorOpen (p : PciFn) (v : Nat) : Bool := p.msixEn && !p.msixMask && p.unmasked.contains v

/-- An MSI-X message of a function: it leaves, or its pending bit stands while a mask holds it; with MSI-X disabled there is none. -/
def msixSend (fn v : Nat) (s : State) : State :=
  let p := s.pci fn
  if vectorOpen p v then s.emit (.msix fn v)
  else if p.msixEn && !p.pend.contains v then s.onPci fn (fun p => { p with pend := p.pend ++ [v] })
  else s

/-- Messages that no mask holds any longer leave. -/
def msixRelease (fn : Nat) (s : State) : State :=
  let go := (s.pci fn).pend.filter (vectorOpen (s.pci fn))
  forEach go (fun v s => s.emit (.msix fn v)) (s.onPci fn (fun p => { p with pend := p.pend.filter (fun v => !go.contains v) }))

/-! ### Errors of a port (R342, R351) -/

/-- A correctable error of a function under AER: its status bit, and a message where the host has not masked it. -/
def aerCor (fn bit : Nat) (s : State) : State :=
  let s := s.onPci fn (fun p => { p with cor := p.cor ||| BitVec.ofNat 32 (2 ^ bit) })
  if (s.pci fn).corMask.getLsbD bit then s else s.emit (.aerMessage fn true)

/-- An uncorrectable error of a function under AER. -/
def aerUnc (fn bit : Nat) (s : State) : State :=
  let s := s.onPci fn (fun p => { p with unc := p.unc ||| BitVec.ofNat 32 (2 ^ bit) })
  if (s.pci fn).uncMask.getLsbD bit then s else s.emit (.aerMessage fn false)

/-- A correctable error of a function's port: its bit of HIFn_ERR, its count, and its report under AER. -/
def portCorrectable (fn : Nat) (f : Fld) (bit : Nat) (s : State) : State := aerCor fn bit ((s.flag f).count (F.HIFn_ERR_CNT_CORR (portOf fn)))

/-- An uncorrectable error of a function's port. -/
def portUncorrectable (fn : Nat) (f : Fld) (bit : Nat) (s : State) : State := aerUnc fn bit ((s.flag f).count (F.HIFn_ERR_CNT_UNCORR (portOf fn)))

/-- A poisoned TLP received for a function (R342): an advisory non-fatal error, whose kind shows among the uncorrectable statuses. -/
def portPoison (fn : Nat) (s : State) : State :=
  portCorrectable fn (F.HIFn_ERR_PTLP_RX (portOf fn)) 13 (s.onPci fn (fun p => { p with unc := p.unc ||| 0x1000#32 }))

/-! ### Registers of a controller (R332, R333) -/

/-- CAP (R333), in the fields' places of NVMe Base 2.0. -/
def capReg (s : State) : Nat :=
  let mqe := match hostSec s with | some h => h.mqe | none => 1
  (mqe - 1) % 65536 + 2 ^ 16 + 2 ^ 17 + 0x78 * 2 ^ 24 + 2 ^ 37 + 2 ^ 43

/-- CSTS (R332): RDY, and CFS of an enabled controller in SERVICE. -/
def cstsReg (s : State) (fn : Nat) : Nat :=
  let c := s.ctrl fn
  b2n c.rdy + 2 * b2n (c.en && s.mode == Mode.service)

/-- A controller register in BAR0 (R332, R333). -/
def bar0Read (s : State) (fn : Nat) : Bar0Reg → Nat
  | .cap => capReg s
  | .vs => 0x00020000
  | .csts => cstsReg s fn

/-! ### Resets of a function (R331) -/

/-- Work of a slot is under way on an actuator, at the partner, or in the write cache (R331). -/
def slotUnderWay (s : State) (k : Nat) (x : Slot) : Bool :=
  x.admitted || x.fetched || workFor s (fun r => r.for_ == .host k) || s.bat.forwards.any (fun f => f.slot == k) || s.key.erases.any (fun e => e.slot == some k)

/-- A reset of a function (R331): its fetched entries and unstarted commands are discarded, its held completions freed, what is under way runs on
with its completion dropped, and its queues and MSI-X state go. Its resources, whether it is online, its error log and its changed list stay. -/
def resetFunction (fn : Nat) (s : State) : State :=
  let s := { s with qe := { s.qe with fetched := s.qe.fetched.filter (fun e => e.fn != fn) } }
  let mine := s.qe.slots.filter (fun p => p.2.fn == fn)
  let s := forEach mine (fun p s =>
    if p.2.result.isNone && slotUnderWay s p.1 p.2 then s.setSlot p.1 { p.2 with dropped := true } else freeSlot p.1 s) s
  let c := s.ctrl fn
  let s := s.onPci fn (fun p => { p with msixEn := false, msixMask := false, unmasked := [], pend := [] })
  showSlots (s.setCtrl fn { ctrlNew (isPf fn) with online := c.online, vq := c.vq, vi := c.vi, errs := c.errs, changed := c.changed })

/-- The functions of a port. -/
def portFns (port : Nat) : List Nat := (List.range 64).map (fun i => 64 * port + i)

/-- A port's link goes down (R331, R351): the link's status is that of no link. -/
def linkGone (port : Nat) (s : State) : State :=
  let s := ((s.put (F.HIFn_LINK_STAT_DL_UP port) 0).put (F.HIFn_LINK_STAT_SPEED port) 0).put (F.HIFn_LINK_STAT_WIDTH port) 0
  forEach (portFns port) resetFunction (s.flag (F.HIFn_ERR_LINK_DOWN port))

/-- The mode OFF has no link (R33, R332). -/
def linksOff (s : State) : State := forEach [0, 1] (fun p s => if s.on (F.HIFn_LINK_STAT_DL_UP p) then linkGone p s else s) s

end Sys2Proof.Machine
end

