-- ==== Sys2Proof/Machine/Mode.lean ====
section
/-! DEFINITION. The mode controller (01_planes_and_fabric.md, R33 to R43, R635) with what each mode starts and ends in the other blocks, the
power states that PWR applies (R504, R510, R514), the loss of units (R41, R42, R315, R348), the power-loss sequence (R597, R598) and the
start of a configuration reset (R592). -/

namespace Sys2Proof.Machine

/-! ### Conditions and units (R36, R41, R42) -/

/-- Every included lane is lost (R42, R600: the last of its kind). -/
def lanesLost (s : State) : Bool := lanes.all (fun n => !laneIncluded s n || s.glb.lost0.getLsbD (12 + n))

/-- The loss of some units, as bits of GLB_UNIT_OK0 and GLB_UNIT_OK1, leaves a line of the data-service column of R42 unmet: each unit is judged on
the line that it belongs to, the control cores, host ports, lanes and LDPC engines by whether one of them is left. -/
def dataSetLost (l0 l1 : Nat) (s : State) : Bool :=
  let gone := s.glb.lost0.toNat
  let none_ := fun (hi lo : Nat) => bitsOf l0 hi lo != 0 && bitsOf (included0 s) hi lo == bitsOf (gone &&& included0 s) hi lo
  none_ 7 0 || bitsOf l0 8 8 != 0 || none_ 11 10 || (bitsOf l0 15 12 != 0 && lanesLost s) || none_ 27 16 || bitsOf l1 7 0 != 0 || bitsOf l1 11 10 != 0

/-- Every unit of the data-service set is present (R42, T02). -/
def dataSetPresent (s : State) : Bool :=
  let k0 := (s.reg R.GLB_UNIT_OK0).toNat
  let k1 := (s.reg R.GLB_UNIT_OK1).toNat
  bitsOf k0 7 0 != 0 && bitsOf k0 8 8 == 1 && bitsOf k0 11 10 != 0 && bitsOf k0 15 12 != 0 && bitsOf k0 27 16 != 0 && bitsOf k1 7 0 == 0xFF && bitsOf k1 11 10 == 3

/-! ### Motion that the modes ask for (R33, R504, R635) -/

/-- BAT_OWN_STAT.TOGGLING shows the pins that toggle (R482). -/
def showToggling (s : State) : State :=
  s.put F.BAT_OWN_STAT_TOGGLING (if mayToggle s && imageRole s != 0 then s.get F.BAT_OWN_CTL_CLAIM else 0)

/-- The heads of the owned lanes go to the ramp by an unload where they can (R195), by a retract from LOADING and ACQUIRE. -/
def parkHeads (s : State) : State :=
  forEach lanes (fun n s =>
    let st := motionState s n
    if st = Mo.follow ∨ st = Mo.seek ∨ st = Mo.settle then svUnload n s
    else if st = Mo.loading ∨ st = Mo.acquire then svRetract n s else s) (s.onPwr (fun p => { p with heads := 0 }))

/-- Heads that PWR has asked for load as soon as they are parked with the spindle at speed (R192, log 22). -/
def loadHeads (s : State) : State :=
  if s.glb.cfgReset != .none then s else forEach lanes (fun n s =>
    if !s.pwr.heads.getLsbD n then s
    else if !ownLane s n || motionState s n = Mo.follow then s.onPwr (fun p => { p with heads := p.heads &&& ~~~(1#4 <<< n.val) })
    else if motionState s n = Mo.parked ∧ speedReady s then svLoad n 1 (s.onPwr (fun p => { p with heads := p.heads &&& ~~~(1#4 <<< n.val) }))
    else s) s

/-- The heads of the owned lanes are asked for. -/
def wantHeads (s : State) : State :=
  loadHeads (s.onPwr (fun p => { p with heads := BitVec.ofNat 4 ((lanes.map (fun (n : Lane) => b2n (ownLane s n && motionState s n != Mo.follow && motionState s n != Mo.seek && motionState s n != Mo.settle) * 2 ^ n.val)).sum) }))

/-- The spindle is to turn again (T09): a held brake, but one that a fault flag asked for, is withdrawn, a stopping or stopped spindle starts. -/
def wantSpin (s : State) : State :=
  let s := s.onSpm (fun m => { m with brakeDue := if m.brakeDue = some .fault then some .fault else none })
  let st := spinState s
  if (st = Sp.stopped ∨ st = Sp.braking) ∧ allQuiet s then spinStart s else s

/-- The spindle is to stop (R504): a brake, held until the heads are parked (R213). -/
def stopSpin (s : State) : State := let st := spinState s; if Sp.sense ≤ st ∧ st ≤ Sp.changing then requestBrake .stopped s else s

/-! ### Entering a mode (R33, R67, R124, R244, R246, R317) -/

/-- A load that CONFIGURE leaves unfinished is dropped (R61, R63). -/
def dropLoad (s : State) : State := { s with cfg := { s.cfg with handed := none, staging := none } }

/-- What a change of mode starts and ends. -/
def onMode (old new : Nat) (s : State) : State :=
  let s := if old = Mode.configure then dropLoad s else s
  let s := if linkMode old && !linkMode new then forEach lanes headLinkStop s else s
  let s := if seqMode old && !seqMode new then forEach lanes (fun n s => if lanePresent s n then msInt n 1 s else s) s else s
  let s := if !seqMode old && seqMode new then
      forEach lanes (fun n s =>
        if lanePresent s n && s.on (F.MSn_CTL_RUN n) && !(s.ms n).storeErr && (s.on (F.MSn_STAT_MODE_HALT n) || (s.ms n).startDue) then startSeq n s else s) s
    else s
  let s := if servingMode old && !servingMode new then forEach lanes (fun n s => abortItems (actOf s n) (abortLadder n s)) s else s
  let s := if new = Mode.service then stopSpin (parkHeads s) else s
  let s := if new = Mode.partnerStandby then setSpin Sp.partner s else s
  let s := if new = Mode.off then linksOff s else s
  showToggling (showRelay (showPwr (readyControllers s)))

/-- A transition completes (R34, R38, R635): MODE, PREV and CAUSE, the MODE record (R559), source 19 (R441). -/
def complete (row new : Nat) (s : State) : State :=
  let old := s.mode
  let s := ((s.put F.GLB_MODE_MODE new).put F.GLB_MODE_PREV old).put F.GLB_MODE_STAT_CAUSE row
  let s := (s.put F.GLB_MODE_STAT_BUSY 0).put F.GLB_MODE_STAT_TARGET 0
  let s := { s with glb := { s.glb with row := 0, offByT16 := s.glb.offByT16 || row == 16 } }
  let sev := if new = Mode.degraded ∨ new = Mode.readonly ∨ new = Mode.service then 2 else 0
  let s := (s.irq 19).sysEvent 0x4002 sev 0xFFFF (sourceOf R.GLB_MODE) [BitVec.ofNat 8 old, BitVec.ofNat 8 new, BitVec.ofNat 8 row, BitVec.ofNat 8 s.ps]
  onMode old new s

/-- A transition begins that does not complete at once (R38). -/
def begin_ (row target : Nat) (s : State) : State :=
  if s.on F.GLB_MODE_STAT_BUSY && s.get F.GLB_MODE_STAT_TARGET == target then s
  else { (s.put F.GLB_MODE_STAT_BUSY 1).put F.GLB_MODE_STAT_TARGET target with glb := { s.glb with row := row } }

/-- The transition in progress is withdrawn (R38). -/
def withdraw (s : State) : State :=
  if s.on F.GLB_MODE_STAT_BUSY then { (s.put F.GLB_MODE_STAT_BUSY 0).put F.GLB_MODE_STAT_TARGET 0 with glb := { s.glb with row := 0 } } else s

/-- Every owned present lane satisfies a condition (R635). -/
def allOwned (s : State) (p : Lane → Bool) : Bool := lanes.all (fun n => !ownLane s n || p n)

/-- A transition that waits for lanes, spindle or heads may complete (R635). -/
def mayComplete (s : State) (row target : Nat) : Bool :=
  let quiet := allOwned s (fun n => (s.act (actOf s n)).busy.isEmpty && !gateOpen s n)
  let slow := spinState s == Sp.atSpeed && cadence s == lowestCadence s
  let parked := allOwned s (fun n => motionState s n == Mo.parked)
  if row = 7 then
    if target = Mode.idleReady then quiet
    else if target = Mode.idleSlow then quiet && slow
    else if target = Mode.idleParked then quiet && slow && parked
    else parked && spinState s == Sp.stopped
  else allOwned s (fun n => motionState s n == Mo.follow)

/-- The mode that corresponds to a power state (R504). -/
def modeOfState (ps : Nat) : Nat := if ps ≤ 2 then Mode.active else ps + 2

/-- The transitions of power states, T07 to T09 (R34, R37): the mode follows the applied state. -/
def powerTransition (s : State) : State :=
  let m := s.mode
  if m = Mode.standby then (if s.ps < 6 then complete 9 Mode.spinup s else s)
  else if m = Mode.active ∨ m = Mode.idleReady ∨ m = Mode.idleSlow ∨ m = Mode.idleParked then
    let want := modeOfState s.ps
    if want = m then withdraw s
    else
      let row := if m < want then 7 else 8
      let s := begin_ row want s
      if mayComplete s row want then complete row want s else s
  else s

/-- One transition taken, in the order of R37; none where no trigger stands. -/
def transition (s : State) : Option State :=
  let m := s.mode
  let idle := Mode.isIdle m
  let c := fun f => s.on f
  let owned : List Lane := lanes.filter (fun (n : Lane) => laneIncluded s n.val && owns s (actOf s n))
  if c F.GLB_MODE_COND_POWER_FAIL then (if m = Mode.off then none else some (complete 16 Mode.off s))
  else if m = Mode.off ∨ m = Mode.service then none
  else if c F.GLB_MODE_COND_SET_LOST || c F.GLB_MODE_COND_IMAGE_FAIL || c F.GLB_MODE_COND_SERVICE_HOLD then
    some (complete (if m = Mode.configure then 3 else 13) Mode.service s)
  else if c F.GLB_MODE_COND_SPARES_OUT && (m == Mode.active || m == Mode.degraded || idle) then some (complete 12 Mode.readonly s)
  else if (c F.GLB_MODE_COND_UNIT_LOST || c F.GLB_MODE_COND_PARTNER_LOST || c F.GLB_MODE_COND_PAIR_MISMATCH) && (m == Mode.active || m == Mode.spinup || idle) then
    some (complete 10 Mode.degraded s)
  else if m = Mode.degraded ∧ !c F.GLB_MODE_COND_UNIT_LOST ∧ !c F.GLB_MODE_COND_PARTNER_LOST ∧ !c F.GLB_MODE_COND_PAIR_MISMATCH then some (complete 11 Mode.active s)
  else if m = Mode.spinup ∧ speedReady s ∧ !owned.isEmpty then
    let following := fun (n : Lane) => lanePresent s n && motionState s n == Mo.follow
    if owned.all following then some (complete 5 Mode.active s)
    else if owned.any following && owned.any (fun n => s.glb.lost0.getLsbD (12 + n)) then some (complete 6 Mode.degraded s)
    else none
  else if m = Mode.partnerStandby ∧ s.bat.resynced ∧ !c F.GLB_MODE_COND_PAIR_MISMATCH ∧
      lanes.all (fun n => match laneRec s n with | some r => !r.home || owns s (actOf s n) | none => true) then some (complete 15 Mode.active s)
  else none

/-- Transitions taken until none stands. -/
def transitions : Nat → State → State
  | 0, s => s
  | k + 1, s => match transition s with | some s => transitions k s | none => s

/-! ### Power states applied (R504, R509 to R511, R514, R516) -/

/-- PWR applies a power state (R504, R39): PSTATE, source 36, the cadence, the heads and the spindle that it asks for. -/
def applyState (k : Nat) (s : State) : State :=
  let k := pairLimit s k
  let was := s.ps
  if k = was then s
  else
    let s := ((s.put F.GLB_MODE_PSTATE k).irq 36).irq 19
    let s := if was = 6 ∧ s.on F.PWR_CTL_FAST_WAKE then wantCadence (lowestCadence s) s else s
    let s := if was = 6 then wantSpin s else s
    let s := if 5 ≤ was ∧ k ≤ 4 then wantHeads s else s
    let s := if 4 ≤ k ∧ k ≤ 5 then wantCadence (lowestCadence s) s else s
    let s := if 5 ≤ k then parkHeads s else s
    let s := if k = 6 then stopSpin s else s
    showRelay (showPwr s)

/-- The modes in which PWR applies power states (R34, R39). -/
def powerMode (m : Nat) : Bool := m == Mode.active || m == Mode.degraded || m == Mode.readonly || Mode.isIdle m

/-- PWR follows the chip's work and what hosts request (R509, R510). -/
def pwrSettle (s : State) : State :=
  let s := showHostRequests s
  if working s then
    let s := s.onPwr (fun p => { p with idleAt := none })
    if powerMode s.mode then applyState (hostOp s) s else s
  else
    let s := if s.pwr.idleAt.isSome then s else s.onPwr (fun p => { p with idleAt := some s.now.toNat })
    let host := s.get F.PWR_STAT_HOST_PS
    if !powerMode s.mode || s.pwr.wakeFor.isSome then s
    else if pairLimit s s.ps < s.ps then applyState (pairLimit s s.ps) s
    else if 3 ≤ host then (if s.ps < host then applyState host s else s)
    else if s.ps ≤ 2 then applyState (hostOp s) s else s

/-- The chip settles after an event: transitions by conditions, then the power states and their transitions (R36, R37). -/
def State.settle (s : State) : State :=
  let s := brakeIfQuiet (loadHeads (transitions 6 s))
  if !s.on F.GLB_UNIT_OK0_PWR || s.on F.GLB_MODE_COND_POWER_FAIL then s
  else transitions 2 (powerTransition (pwrSettle s))

/-! ### Loss of units (R41, R42) -/

/-- What follows the loss of a lane (R42, R67, R112, R315, R348). DESIGN CHOICE: where a retract or an unload comes with the loss of the lane, or
with the entry to SERVICE, the stopped head link of R67 wins over the sleep frame of R95, which is dropped or never starts (log 38). -/
def laneGone (n : Lane) (s : State) : State :=
  anaUpdate (showPwr (levelTokens (laneLostItems (actOf s n) (abortLadder n (headLinkStop n s)))))

/-- A unit is lost (R42, R559): its bit clears, SET_LOST or UNIT_LOST stands, and the mode follows. A lane whose actuator the partner owns does
not count (R478). -/
def State.lose (s : State) (l0 l1 : Nat) (counts : Bool) : State :=
  let s := { s with glb := { s.glb with lost0 := s.glb.lost0 ||| BitVec.ofNat 32 l0, lost1 := s.glb.lost1 ||| BitVec.ofNat 32 l1 } }
  let s := (s.setReg R.GLB_UNIT_OK0 (s.reg R.GLB_UNIT_OK0 &&& ~~~(BitVec.ofNat 32 l0))).setReg R.GLB_UNIT_OK1 (s.reg R.GLB_UNIT_OK1 &&& ~~~(BitVec.ofNat 32 l1))
  let s := s.sysEvent 0x4003 2 0xFFFF (sourceOf R.GLB_MODE) (s.regBytes R.GLB_UNIT_OK0 ++ s.regBytes R.GLB_UNIT_OK1 ++ le 4 l0 ++ le 4 l1)
  let s := if !counts then s else if dataSetLost l0 l1 s then s.cond F.GLB_MODE_COND_SET_LOST else s.cond F.GLB_MODE_COND_UNIT_LOST
  showToggling s

/-- A unit of GLB_UNIT_OK0 is lost, by its bit. -/
def State.loseUnit0 (s : State) (bit : Nat) : State :=
  if !s.glb.lost0.getLsbD bit && (included0 s).testBit bit then
    let s := s.lose (2 ^ bit) 0 (!(12 ≤ bit && bit ≤ 15) || owns s (actNo s (bit - 12)))
    let s := if h : 12 ≤ bit ∧ bit < 16 then laneGone ⟨bit - 12, by omega⟩ s else s
    s.settle
  else s

/-- A unit of GLB_UNIT_OK1 is lost, by its bit. -/
def State.loseUnit1 (s : State) (bit : Nat) : State :=
  if !s.glb.lost1.getLsbD bit && (included1 s).testBit bit then (s.lose 0 (2 ^ bit) true).settle else s

/-! ### The power-loss note and sequence (R597 to R599) -/

/-- STATE of the note as R598 codes it. -/
def noteCode : NoteState → Nat
  | .armed => 1
  | .clean => 2
  | .lost => 3
  | .forced => 4

/-- Bytes 0 to 59 of the note's header (R598). -/
def noteHeader (n : Note) : List Byte :=
  le 4 0x4E504852 ++ le 1 (noteCode n.state) ++ [n.cause, n.mode, 0] ++ le 4 n.bootNum.toNat ++ le 4 n.dirty.toNat ++ le 8 n.time.toNat ++
    le 4 n.cond.toNat ++ le 4 n.motion.toNat ++ zeros 28

/-- The CRC-32C of the header (R598). -/
def noteCrc (n : Note) : BitVec 32 := BitVec.ofNat 32 (crc32c (noteHeader n))

/-- The header's CRC holds (R598). -/
def Note.crcOk (n : Note) : Bool := n.crc == noteCrc n

/-- The header with its CRC, or with one that fails where the write is cut off (R602). -/
def sealNote (good : Bool) (n : Note) : Note := { n with crc := if good then noteCrc n else ~~~noteCrc n }

/-- The note written in a state, with what it records at the time (R598). -/
def writeNote (st : NoteState) (cause : Nat) (good : Bool) (s : State) : State :=
  let n := sealNote good ⟨st, BitVec.ofNat 8 cause, BitVec.ofNat 8 (s.mode + 16 * s.ps), s.reg R.TRC_BOOT_NUM, BitVec.ofNat 32 (s.get F.BUF_WC_DIRTY_BLOCKS), s.now, s.reg R.GLB_MODE_COND, s.reg R.MOT_STAT, 0⟩
  ({ s with glb := { s.glb with note := n } }).put F.GLB_RST_STAT_NOTE (noteCode st)

/-- The note at power loss (R598): LOST, but a CLEAN note stays CLEAN with COND and RING_TIME updated; a write not begun leaves it as it is (R627). -/
def noteLost (cause : Nat) (w : NoteWrite) (s : State) : State :=
  if w = .notBegun then s
  else
    let good := w == .made
    match s.glb.note.state with
    | .clean => { s with glb := { s.glb with note := sealNote good { s.glb.note with cond := s.reg R.GLB_MODE_COND, time := s.now } } }
    | _ => writeNote .lost cause good s

/-- Region and position of the last write gate that a lane opened (R272). -/
def lastRegion (s : State) (n : Lane) : Option (Option Nat × Nat) :=
  match (s.ln n).lastW with
  | some (h, t, i) =>
    match bandOfTrack s (actOf s n) h t with
    | some b =>
      match runOf s b with
      | some r => if r.kind = 5 then some (none, logIndex s (actOf s n) b ((bandDataAt s b t i).getD 0)) else some (some b, (t - bandTrack s b) * (bandShape s b).1 + i)
      | none => none
    | none => none
  | none => none

/-- POWER_FAIL becomes 1 (R597): every lane squelches and sleeps (R147, R76), every SVn retracts (R198), the spindle coasts (R220), the note is
written, the POWER_FAIL record is raised (R559), and T16 takes the chip to OFF. -/
def powerFail (cause : Nat) (written : NoteWrite) (s : State) : State :=
  if s.on F.GLB_MODE_COND_POWER_FAIL then s
  else
    let s := s.cond F.GLB_MODE_COND_POWER_FAIL
    let s := forEach lanes (fun n s => if lanePresent s n then msInt n 0 (inhibit n 4 s) else s) s
    let s := forEach lanes svRetract s
    let s := forEach lanes sleepFrame s
    let s := spinPowerFail s
    let s := noteLost cause written s
    let s := if written = .notBegun then s else s.onBnd (fun b => { b with noteRec := Vector.ofFn (fun n => lastRegion s n), noteOk := written == .made })
    let s := s.sysEvent 0x4006 3 0xFFFF (sourceOf R.GLB_MODE) (s.regBytes R.GLB_MODE_COND ++ s.regBytes R.MOT_STAT)
    let s := { s with glb := { s.glb with cfgReset := .none } }
    s.settle

/-! ### Configuration reset (R592) -/

/-- Nothing is dirty or unflushed (R592). -/
def cleanNow (s : State) : Bool := s.get F.BUF_WC_DIRTY_BLOCKS == 0 && !s.on F.BND_JNL_STAT_PENDING && !s.on F.BND_JNL_STAT_FLUSHING

/-- An accepted configuration reset, steps 1 and 2 (R592); the release follows once the heads are quiet. Refused while POWER_FAIL is 1 or another
is in progress (R602). `src` is SOURCE of GLB_RST_CAUSE. -/
def startConfigReset (src : Nat) (s : State) : State :=
  if s.on F.GLB_MODE_COND_POWER_FAIL || s.glb.cfgReset != .none then s.put F.GLB_RST_STAT_REJ 1
  else
    let dirty := s.buf.cache.filter (fun e => e.2.dirty)
    let s := forEach dirty (fun e s => lwlAdd e.1 e.2.fn e.2.ns s) s
    let s := { s with glb := { s.glb with cfgReset := .waiting (!dirty.isEmpty) } }
    let s := (s.put F.GLB_RST_CAUSE_KIND 1).put F.GLB_RST_CAUSE_SOURCE src
    let s := forEach lanes (fun n s => if lanePresent s n then inhibit n 5 s else s) s
    let s := forEach lanes svRetract s
    showToggling (forEach lanes sleepFrame s)

end Sys2Proof.Machine
end

