-- ==== Sys2Proof/Machine/Queue.lean ====
section
/-! DEFINITION. Shared operations of the queue engine (14_queues_ordering_completion.md, R352 to R379): the resets of a function, fetch
arbitration, decoding, fetch order and overlaps, admission to the write cache, snapshots, and the posting of completions. -/

namespace Sys2Proof.Machine

/-! ### Running (R332, R378, R381) -/

/-- QE fetches and posts: enabled, present, and in a mode that serves (R332, R378). -/
def qeRuns (s : State) : Bool :=
  s.on F.GLB_UNIT_OK1_QE && s.on F.QE_CTL_ENABLE && readyMode s.mode && !s.on F.GLB_MODE_COND_POWER_FAIL

/-- Media commands are served (R332): the mode and the map allow it. -/
def mediaServed (s : State) : Bool :=
  let m := s.mode
  (m == Mode.active || m == Mode.degraded || m == Mode.readonly || m == Mode.partnerStandby) && (s.get F.BND_STAT_STATE == 4 || s.get F.BND_STAT_STATE == 5)

/-- Entries of a queue that wait to be fetched. -/
def sqDepth (q : Sq) : Nat := (q.tail + q.size - q.head) % max 1 q.size

/-- A queue of a controller changed. -/
def State.setSq (s : State) (fn k : Nat) (q : Sq) : State := s.onCtrl fn (fun c => { c with sqs := smSet k q c.sqs })
def State.setCq (s : State) (fn k : Nat) (q : Cq) : State := s.onCtrl fn (fun c => { c with cqs := smSet k q c.cqs })

/-! ### Doorbells (R354, R373) -/

/-- An invalid doorbell write (R354): ignored, flagged, and an Error event, Invalid Doorbell Write Value, raised. -/
def badDoorbell (fn : Nat) (s : State) : State := asyncEvent fn 0 1 0x01 (s.flag F.QE_FLT_DB_INVALID)

/-! ### Fetch arbitration (R356 to R360) -/

/-- Commands fetched for a CQ and not yet posted (R359). -/
def openFor (s : State) (fn cq : Nat) : Nat :=
  let c := s.ctrl fn
  (s.qe.slots.filter (fun p => p.2.fn == fn && p.2.cq == cq)).length +
  (s.qe.fetched.filter (fun e => e.fn == fn && (match smGet e.sq c.sqs with | some q => q.cq == cq | none => false))).length

/-- FN_MAX as it acts (R356). -/
def fnMax (s : State) : Nat := max 1 (min 16128 (s.get F.QE_SLOT_CFG_FN_MAX))

/-- The limits of R356 and R359 let QE fetch from a queue of a function. -/
def mayFetch (s : State) (fn k : Nat) (q : Sq) : Bool :=
  let c := s.ctrl fn
  let free := 16384 - s.qe.slots.length - s.qe.fetched.length
  let mine := slotsOf s fn + (s.qe.fetched.filter (fun e => e.fn == fn)).length
  !q.stopped && sqDepth q != 0 && (match smGet q.cq c.cqs with | some d => decide (openFor s fn q.cq < d.size - 1) | none => false) &&
  (if k = 0 then free != 0 else decide (256 < free) && decide (mine < fnMax s))

/-- Queues of a function that may be fetched from, by number. -/
def readyQueues (s : State) (fn : Nat) : List (Nat × Sq) := (s.ctrl fn).sqs.filter (fun e => mayFetch s fn e.1 e.2)

/-- A function is eligible (R357). -/
def fnEligible (s : State) (fn : Nat) : Bool := (s.ctrl fn).rdy && portPresent s (portOf fn) && !(s.pci fn).d3hot && !(readyQueues s fn).isEmpty

/-- The next function of the round robin (R357). -/
def nextFn (s : State) : Option Nat := ((List.range 128).map (fun i => (s.qe.lastFn + 1 + i) % 128)).find? (fnEligible s)

/-- The class that serves an I/O queue (R358): 0 urgent, 1 high, 2 medium, 3 low by QPRIO, 4 under round robin. -/
def sqClass (c : Ctrl) (q : Sq) : Nat := if c.wrr then q.prio % 4 else 4

/-- The Arbitration feature: AB, and the weights of the high, medium and low classes (R358). -/
def arbBurst (c : Ctrl) : Nat := smGetD 0 0x01 c.feats % 8
def classWeight (c : Ctrl) (k : Nat) : Nat :=
  let v := smGetD 0 0x01 c.feats
  if k = 1 then bitsOf v 31 24 + 1 else if k = 2 then bitsOf v 23 16 + 1 else bitsOf v 15 8 + 1

/-- The next queue in turn after the one served last in its class. -/
def inTurn (last : Nat) (l : List Nat) : Option Nat := match l.find? (fun k => decide (last < k)) with | some k => some k | none => l.head?

/-- The I/O queue that the function's arbitration serves next (R358), and its class with the weights as they then stand. -/
def nextIo (s : State) (fn : Nat) : Option (Nat × Nat × SMap Nat) :=
  let c := s.ctrl fn
  let of_ := fun k => ((readyQueues s fn).filter (fun e => e.1 != 0 && sqClass c e.2 == k)).map (fun e => e.1)
  let pick := fun k => inTurn (smGetD 0 k c.rr) (of_ k)
  if !c.wrr then (pick 4).map (fun q => (q, 4, c.weights))
  else
    match pick 0 with
    | some q => some (q, 0, c.weights)
    | none =>
      let live := ([1, 2, 3] : List Nat).filter (fun k => !(of_ k).isEmpty)
      let try_ := fun (w : SMap Nat) => (live.find? (fun k => smGetD 0 k w != 0)).bind (fun k => (pick k).map (fun q => (q, k, smPut 0 k (smGetD 0 k w - 1) w)))
      match try_ c.weights with
      | some x => some x
      | none => try_ [(1, classWeight c 1), (2, classWeight c 2), (3, classWeight c 3)]

/-- The first entry of a queue among those that its reads returned, and the rest. -/
def takeRead (k : Nat) : List (Nat × Sqe) → Option (Sqe × List (Nat × Sqe))
  | [] => none
  | (j, e) :: t => if j = k then some (e, t) else (takeRead k t).map (fun p => (p.1, (j, e) :: p.2))

/-- One entry fetched from a queue (R360). -/
def fetchEntry (fn k : Nat) (e : Sqe) (s : State) : State :=
  match smGet k (s.ctrl fn).sqs with
  | some q =>
    let alone := (functions.filter (fun g => g != fn && fnEligible s g)).isEmpty
    let s := s.setSq fn k { q with head := (q.head + 1) % max 1 q.size }
    { s with qe := { s.qe with fetched := s.qe.fetched ++ [⟨fn, k, e, s.now.toNat, q.fresh && alone⟩] } }
  | none => s

/-- Up to `n` admin entries of a visit (R357). -/
def fetchAdmin (fn : Nat) : Nat → List (Nat × Sqe) → State → List (Nat × Sqe) × State
  | 0, l, s => (l, s)
  | n + 1, l, s =>
    match (readyQueues s fn).find? (fun e => e.1 == 0), takeRead 0 l with
    | some _, some (e, l) => fetchAdmin fn n l (fetchEntry fn 0 e s)
    | _, _ => (l, s)

/-- Up to `n` I/O entries of a visit (R357, R358). -/
def fetchIo (fn : Nat) : Nat → List (Nat × Sqe) → State → State
  | 0, _, s => s
  | n + 1, l, s =>
    match nextIo s fn with
    | some (k, cls, w) =>
      match takeRead k l with
      | some (e, l) => fetchIo fn n l ((fetchEntry fn k e s).onCtrl fn (fun c => { c with rr := smPut 0 cls k c.rr, weights := w }))
      | none => s
    | none => s

/-- The requests that read `n` entries from `first` on of a queue of `size` (R360): at most 8 consecutive entries each, and none across the end of the
queue. -/
def entryReads (size : Nat) : Nat → Nat → Nat → List (Nat × Nat)
  | 0, _, _ => []
  | fuel + 1, first, n =>
    if n = 0 then []
    else
      let m := max 1 (min (min 8 n) (size - first))
      (first, m) :: entryReads size fuel ((first + m) % max 1 size) (n - m)

/-- The requests of a visit for the entries that it has taken from each queue, whose heads stood at `before` (R360). -/
def sendReads (fn : Nat) (before : SMap Sq) (s : State) : State :=
  forEach before (fun e s =>
    match smGet e.1 (s.ctrl fn).sqs with
    | some q =>
      let n := (q.head + q.size - e.2.head) % max 1 q.size
      forEach (entryReads q.size n e.2.head n) (fun r s => s.emit (.entryRead fn e.1 r.1 r.2)) s
    | none => s) s

/-- A visit to a function (R357): admin entries, then I/O entries. -/
def visit (fn : Nat) (read : List (Nat × Sqe)) (s : State) : State :=
  let before := (s.ctrl fn).sqs
  let s := { s with qe := { s.qe with lastFn := fn } }
  let (l, s) := fetchAdmin fn (max 1 (s.get F.QE_ARB_CFG_ADMIN_BURST)) read s
  let ab := arbBurst (s.ctrl fn)
  let most := max 1 (s.get F.QE_ARB_CFG_VISIT_MAX)
  sendReads fn before (fetchIo fn (if ab = 7 then most else min most (2 ^ ab)) l s)

/-! ### Overlaps (R361 to R367) -/

/-- Two runs share a block of one namespace. -/
def runMeets (a b : Nat × Nat × Nat) : Bool := a.1 == b.1 && decide (a.2.1 < b.2.1 + b.2.2) && decide (b.2.1 < a.2.1 + a.2.2)

/-- Some runs of two lists share a block. -/
def runsMeet (a b : List (Nat × Nat × Nat)) : Bool := a.any (fun x => b.any (runMeets x))

/-- A write that is neither admitted nor has failed before admission (R363). -/
def writePending (x : Slot) : Bool := !x.writes.isEmpty && !x.admitted && x.result.isNone

/-- The first number is the lower of two FONs. -/
def fonBefore (a b : Option Nat) : Bool := match a, b with | some x, some y => decide (x < y) | _, _ => false

/-- A write of lower FON that overlaps a command is neither admitted nor failed (R363, R364). -/
def overlapWaits (s : State) (x : Slot) : Bool :=
  s.qe.slots.any (fun p => fonBefore p.2.fon x.fon && writePending p.2 && runsMeet p.2.writes (x.reads ++ x.writes))

/-- A retry ladder is reading a block of the runs (R125). -/
def ladderReads (s : State) (runs : List (Nat × Nat × Nat)) : Bool :=
  lanes.any (fun n => match (s.ln n).ladder with | some l => l.failing.any (fun d => runsTouch runs d.lba) | none => false)

/-- A command counted once as having waited under R363 or R364. -/
def countWait (k : Nat) (s : State) : State :=
  match s.slot k with
  | some x => if x.hazWait then s else (s.setSlot k { x with hazWait := true }).count F.QE_CNT_HAZ_WAIT
  | none => s

/-- The next FON (R361), shown in QE_FON. -/
def nextFon (s : State) : Nat := (s.pair R.QE_FON_LO R.QE_FON_HI).toNat

/-- A command receives its FON and its runs (R361, R367): a tracker without room for them stops decoding and fetching. -/
def enterRuns (k : Nat) (reads writes : List (Nat × Nat × Nat)) (s : State) : State :=
  match s.slot k with
  | some x =>
    let fon := nextFon s
    let s := s.setPair R.QE_FON_LO R.QE_FON_HI (BitVec.ofNat 64 (fon + 1))
    let room := decide (runsIn s + reads.length + writes.length ≤ 65536)
    let x : Slot := { x with fon := some fon, reads := reads, writes := writes }
    if room then
      let s := s.setSlot k x
      if !reads.isEmpty && overlapWaits s x then countWait k s else s
    else
      let s := { s with qe := { s.qe with stuck := some k } }
      (s.setSlot k { x with state := .decode }).flag F.QE_FLT_HAZ_FULL
  | none => s

/-- The slot's runs stand in the tracker. -/
def slotEntered (s : State) (k : Nat) : Bool := s.qe.stuck != some k

/-! ### Who serves a command (R337, R346, R349, R479, R488) -/

/-- A delete of a namespace is under way (R346). -/
def nsDeleting (s : State) (k : Nat) : Bool :=
  s.qe.slots.any (fun p => p.2.cmd.op == .nsDelete && p.2.result.isNone && nsIndex p.2.cmd.nsid == k && p.2.sq == 0) || s.key.erases.any (fun e => e.ns == k && e.delete)

/-- The home of the namespace is the partner, to whom its commands are forwarded (R479, R488). -/
def homeElsewhere (s : State) (e : NsEntry) : Bool := imageRole s != 0 && !isHome s e && forwarding s

/-- The command goes to the partner (R488). -/
def isForeign (s : State) (k : Nat) : Bool := s.bat.forwards.any (fun f => f.slot == k)

/-- The command came from the partner (R488): its TAG. -/
def guestTag (s : State) (k : Nat) : Option Nat := (s.bat.guests.find? (fun f => f.slot == k)).map (fun f => f.tag)

/-- The function that a slot's work is charged to (R321, R401): a guest's charge goes to the account of forwarded work. -/
def chargedFn (s : State) (k : Nat) (x : Slot) : Nat := if (guestTag s k).isSome then forwardedAcct else x.fn

/-- CMD for a command, its writes marked FUA where the issuing controller has WCE = 0 (R338, R488). -/
def forwardCmd (k : Nat) (s : State) : State :=
  match s.slot k with
  | some x =>
    let (tag, s) := newTag s
    let c := s.ctrl x.fn
    let urgent := match smGet x.sq c.sqs with | some q => c.wrr && q.prio == 0 | none => false
    let s := { s with bat := { s.bat with forwards := s.bat.forwards ++ [⟨tag.toNat, k⟩] } }
    batSend tag (.cmd (128 * chipNo s + x.fn) (nsIndex x.cmd.nsid) (if urgent then 1 else 2) { x.cmd with fua := x.cmd.fua || !c.wce }) s
  | none => s

/-- DATA for a forwarded command (R488): at most as many blocks a message as its LEN lets it carry, here one. -/
def forwardData (tag : Nat) (data : List (List Byte)) (s : State) : State :=
  forEach (List.range data.length) (fun i s => batSend (BitVec.ofNat 32 tag) (.data i 1 [data.getD i []]) s) s

/-! ### Blocks of a command -/

/-- First device LBA of a command's range. -/
def cmdLba (s : State) (x : Slot) : Nat := match nsEntry s (nsIndex x.cmd.nsid) with | some e => nsBase s e + x.cmd.slba | none => x.cmd.slba

/-- The range of a command as a run. -/
def cmdRun (s : State) (x : Slot) : Nat × Nat × Nat := (nsIndex x.cmd.nsid, cmdLba s x, x.cmd.nlb)

/-- The LBAs of runs, in order. -/
def runLbas (l : List (Nat × Nat × Nat)) : List Nat := l.flatMap (fun r => (List.range r.2.2).map (fun i => r.2.1 + i))

/-- The write pointer of a zone as writes are admitted at it (R369): past what is placed and what the write cache holds for it. -/
def zoneWp (s : State) (l : Nat) : Nat :=
  let bs := bandSectors s
  (s.buf.cache.filter (fun e => e.2.dirty && lbandOf s e.1 == l)).foldl (fun m e => max m (e.1 % bs + 1)) (s.lband l).wp

/-- A function's counts for a namespace changed (R339). -/
def countIo (fn ns : Nat) (f : IoCount → IoCount) (s : State) : State :=
  { s with qe := { s.qe with counts := smPut ⟨0, 0, 0, 0, 0⟩ (1024 * fn + ns) (f (smGetD ⟨0, 0, 0, 0, 0⟩ (1024 * fn + ns) s.qe.counts)) s.qe.counts } }

/-! ### Zones (R253, R281, R289, R369) -/

/-- A zone's state changed and journaled (R262). -/
def setZone (l : Nat) (z : ZoneState) (code : Nat) (s : State) : State :=
  let y := s.lband l
  let s := s.setLband l { y with zone := z, seq := max y.seq (seqNext s) }
  journal { jentry 0x06 with arg0 := l, band := y.phys.getD 0xFFFFFFFF, arg1 := code, x := y.wp, seq := seqNext s } s

/-- Open bands of an actuator (R264). -/
def openBands (s : State) (a : Nat) : Nat := (s.bnd.pbt.filter (fun e => e.2.act == a && e.2.state == 1)).length

/-- A zone without a band opens on the actuator of its set that has an open slot and the least-worn pre-listed band (R266, R281, R289): the first
of the pre-list. `none`: Too Many Active Zones. A used-up pre-list forces a flush (R266). -/
def openZone (l : Nat) (z : ZoneState) (s : State) : Option State :=
  let y := s.lband l
  match y.phys with
  | some _ => some (setZone l z 1 s)
  | none =>
    let able := (setOf s (l * bandSectors s)).filter (fun a => ownAct s a && decide (openBands s a.val < openMax s) && decide (s.get F.BND_GC_BANDS_HARD_FB < fbOf s a.val))
    match able.findSome? (fun a => ((s.bnd.prelist.get a).find? (fun b => !headDisabled s b)).map (fun b => (a, b))) with
    | some (a, b) =>
      let rest := (s.bnd.prelist.get a).erase b
      let s := s.onBnd (fun n => { n with prelist := setV n.prelist a rest })
      let s := openBand b 1 l s
      let s := s.setLband l { y with phys := some b, wp := 0 }
      let s := setZone l z 1 s
      some (if rest.isEmpty then forceFlush s else s)
    | none => none

/-- The zone may be written: it is open, or opens (R289). -/
def zoneForWrite (l : Nat) (s : State) : Except NvStatus State :=
  match (s.lband l).zone with
  | .full => .error .zoneFull
  | .offline => .error .zoneOffline
  | .implicitOpen => .ok s
  | .explicitOpen => .ok s
  | _ => match openZone l .implicitOpen s with | some s => .ok s | none => .error .tooManyActiveZones

/-! ### Admission (R288, R289, R364, R365, R369, R490) -/

/-- The actuator whose media cache a device-managed write is destined for (R289). -/
def writeTargetAct (s : State) (set_ : List Lane) : Option Lane := destageActuator s set_

/-- Throttle credit for a write (R288): at levels 2 and 3 CREDIT(a) ≥ 1. -/
def creditFor (s : State) (e : NsEntry) : Bool :=
  e.kind == 2 ||
  match writeTargetAct s (actsOf e.set_) with
  | some a => decide (levelOf s a < 2) || decide (1 ≤ (s.bnd.mc.get a).credit)
  | none => true

/-- The credit that an admitted write takes (R288). -/
def takeCredit (e : NsEntry) (n : Nat) (s : State) : State :=
  if e.kind = 2 then s
  else
    match writeTargetAct s (actsOf e.set_) with
    | some a => if levelOf s a < 2 then s else setCredit a ((s.bnd.mc.get a).credit - (n : Nat)) s
    | none => s

/-- One block becomes the current version in the write cache (R364, R365): in another place than the version it follows, whose bytes are kept
while they are on their way to the media. `none`: no place is free. -/
def admitBlock (fn ns fon lba : Nat) (data : List Byte) (slot : Option Nat) (s : State) : Option State :=
  match takePlace .writeCache s with
  | none => none
  | some (loc, s) =>
    let old := cacheGet s lba
    let s := match old with
      | some c => if c.dirty && c.seq.isSome then s.onBuf (fun b => { b with copies := smSet lba c.data b.copies }) else s
      | none => s
    let s := cacheSet lba ⟨data, true, false, fn, ns, fon, none, loc⟩ (memWrite (4096 * loc) (fit 4096 data) (cacheDrop lba s))
    let s := s.onBnd (fun b => { b with uncorr := b.uncorr.filter (fun x => x != lba) })
    some (lwlClear lba slot s)

/-- The blocks of one write admitted together (R364). -/
def admitBlocks (fn ns fon : Nat) (slot : Option Nat) : List (Nat × List Byte) → State → Option State
  | [], s => some s
  | (lba, d) :: rest, s => (admitBlock fn ns fon lba d slot s).bind (admitBlocks fn ns fon slot rest)

/-- Consecutive blocks of a list, at most `n` a part. -/
def inParts {α : Type} (n : Nat) : Nat → List α → List (List α)
  | 0, _ => []
  | fuel + 1, l => if l.isEmpty then [] else l.take (max 1 n) :: inParts n fuel (l.drop (max 1 n))

/-- The dirty blocks of an admitted write mirrored (R490): MIRROR with one block a message (LEN has room for one block of 4 KiB), then COMMIT; for a
write that the partner forwarded COMMIT alone. -/
def mirrorWrite (k ns lba : Nat) (data : List (List Byte)) (s : State) : State :=
  let (tag, s) := match guestTag s k with
    | some t => (BitVec.ofNat 32 t, s)
    | none => newTag s
  let transfer := (guestTag s k).isSome
  let n := data.length
  let mark := fun (m : Bool) (s : State) => forEach (List.range n) (fun i s => match cacheGet s (lba + i) with | some c => cacheSet (lba + i) { c with mirrored := m } s | none => s) s
  let s := if transfer then s else forEach (List.range n) (fun i s => batSend tag (.mirror ns (lba + i) 1 [data.getD i []]) s) s
  let s := batSend tag (.commit ns lba n transfer) (mark true s)
  { s with bat := { s.bat with macks := s.bat.macks ++ [⟨tag.toNat, k⟩] } }

/-- A write's data is admitted (R364, R369): an ordinary write completes, or waits for its MACK; one that carries FUA waits to be placed. `lba` is
the first device LBA, `r` the result of a completion on admission. -/
def admitWrite (k lba : Nat) (e : NsEntry) (data : List (List Byte)) (r : Result) (s : State) : State :=
  match s.slot k with
  | none => s
  | some x =>
    let ns := nsIndex x.cmd.nsid
    let n := data.length
    match admitBlocks (chargedFn s k x) ns (x.fon.getD 0) (some k) ((List.range n).map (fun i => (lba + i, data.getD i []))) s with
    | none => s
    | some s =>
      -- a CLEAN note is written ARMED first (R598)
      let s := if s.glb.note.state = .clean then writeNote .armed 0 true s else s
      let s := takeCredit e n (s.tally 69 n)
      let s := if x.fn < 128 then countIo x.fn ns (fun c => { c with blocksWritten := c.blocksWritten + n, writeCmds := c.writeCmds + 1 }) s else s
      let s := s.onSlot k (fun x => { x with admitted := true, state := .running, writes := if x.cmd.op == .zoneAppend then [(ns, lba, n)] else x.writes })
      let s := if mirrorsWrites s then mirrorWrite k ns lba data s else s
      if writesThrough s x then s
      else if mirrorsWrites s then s.onSlot k (fun x => { x with mirror := true })
      else finish k r s

/-- The result of a write that has done what it waited for (R369, R372): a Zone Append returns its LBA within the namespace. -/
def writeResult (s : State) (x : Slot) : Result :=
  match x.cmd.op, x.writes with
  | .zoneAppend, (ns, lba, _) :: _ =>
    let v := lba - (match nsEntry s ns with | some e => nsBase s e | none => 0)
    ⟨.success, false, v % 2 ^ 32, v / 2 ^ 32, []⟩
  | _, _ => okResult

/-- A write that waits to be placed (R366, R369): it completes once no block of it is dirty, and fails with Write Fault where one was lost. -/
def placedResult (s : State) (x : Slot) : Option Result :=
  if x.admitted && !x.mirror && x.result.isNone && writesThrough s x && !x.writes.isEmpty && !x.data.isEmpty then
    let l := runLbas x.writes
    if l.any (fun b => lwlHas s b) then some (failResult .writeFault)
    else if l.any (fun b => match cacheGet s b with | some c => c.dirty | none => false) then none
    else some (writeResult s x)
  else none

/-! ### Snapshots (R364, R365, R375, R387) -/

/-- A block as a read finds it (R365): lost, marked uncorrectable or without its key it cannot be read; the cache before the media; deallocated
blocks read as zeros. -/
def blockRef (s : State) (lba : Nat) : BlockRef :=
  let lost := match nsOfLba s lba with | some (k, _) => keyLost s k | none => false
  if lwlHas s lba || s.bnd.uncorr.contains lba then .bad
  else
    match cacheGet s lba with
    | some c => .cached c.data
    | none => if resolve s lba == .none then .zeros else if lost then .bad else .media lba

/-- A map range being rebuilt covers a block (R276). -/
def rangeWaits (s : State) (lbas : List Nat) : Bool := lbas.any (fun b => s.bnd.lostRange.contains (lbandOf s b))

/-- Requests for the blocks of a snapshot that lie on the media, one for each run of copies. -/
def requestMedia (k cls fn : Nat) (limited : Bool) : Nat → List (Nat × BlockRef) → State → State
  | 0, _, s => s
  | _, [], s => s
  | fuel + 1, (lba, .media _) :: rest, s =>
    let more := (rest.takeWhile (fun e => e.2 == .media e.1)).length
    match readCopies s (.host k) cls fn lba (min 256 (1 + more)) limited with
    | some (n, q) => requestMedia k cls fn limited fuel (rest.drop (n - 1)) (request q s)
    | none => requestMedia k cls fn limited fuel rest s
  | fuel + 1, _ :: rest, s => requestMedia k cls fn limited fuel rest s

/-- The urgent class of a slot's queue (R358): class 1, else class 2 (R303). A command of the partner brings its class (R486), in the place of its
queue. -/
def slotClass (s : State) (x : Slot) : Nat :=
  let c := s.ctrl x.fn
  if 256 ≤ x.fn then x.sq else match smGet x.sq c.sqs with | some q => if c.wrr && q.prio == 0 then 1 else 2 | none => 2

/-- The conditions of R379 that are known at the snapshot. -/
def sprintNow (s : State) (x : Slot) (refs : List (Nat × BlockRef)) : Bool :=
  x.sprint && s.on F.QE_CTL_SPRINT_EN && x.cmd.op == .read && x.cmd.nlb == 1 && x.cmd.aligned && !x.hazWait &&
  (match refs with | [(_, .cached _)] => true | _ => false) &&
  (match nsEntry s (nsIndex x.cmd.nsid) with | some e => e.lbaf == 0 && e.pi_ == 0 && anaState s e.set_.toNat == 1 | none => false)

/-- A command takes its snapshot (R365), and asks for the blocks that lie on the media. -/
def takeSnapshot (k : Nat) (s : State) : State :=
  match s.slot k with
  | some x =>
    let refs := (runLbas x.reads).map (fun b => (b, blockRef s b))
    let s := if sprintNow s x refs then s.count F.QE_CNT_SPRINT else s
    let bad := (refs.filter (fun e => e.2 == .bad)).map (fun e => e.1)
    let y : Slot := { x with snap := some refs, state := .running }
    let y : Slot := match bad with | b :: l => { y with failLba := some (l.foldl min b), failed := some (failResult .unrecoveredRead) } | [] => y
    let s := s.setSlot k y
    requestMedia k (slotClass s x) (chargedFn s k x) x.cmd.limited (refs.length + 1) refs s
  | none => s

/-- Every block of a snapshot is at hand: its blocks in order, or the lowest that cannot be read (R376). -/
def snapBlocks (s : State) (l : List (Nat × BlockRef)) : Option (Except Nat (List (List Byte))) :=
  if l.any (fun e => match e.2 with | .media _ => true | _ => false) then none
  else
    match l.find? (fun e => e.2 == .bad) with
    | some e => some (.error ((l.filter (fun x => x.2 == .bad)).foldl (fun m x => min m x.1) e.1))
    | none =>
      let size := fun (b : Nat) => 4096 + metaLen (metaOf s b)
      some (.ok (l.map (fun e => match e.2 with | .cached d => d | _ => zeros (size e.1))))

/-! ### Posting (R371 to R376) -/

/-- floor(log₂ n), 0 for 0. -/
def log2 (n : Nat) : Nat := Nat.log2 n

/-- The MSI-X message of a vector (R371). -/
def sendVector (fn v : Nat) (s : State) : State :=
  let s := s.onCtrl fn (fun c => { c with cqs := c.cqs.map (fun q => if q.2.vector = v then (q.1, { q.2 with unsignalled := 0 }) else q) })
  msixSend fn v s

/-- What an entry posted to a CQ does to its vector (R374): the admin CQ's goes at once; an I/O CQ's is coalesced where THR and TIME ask for it. -/
def signal (fn k : Nat) (s : State) : State :=
  let c := s.ctrl fn
  match smGet k c.cqs with
  | some q =>
    if k = 0 then sendVector fn q.vector s
    else if !q.ien then s
    else
      let s := s.setCq fn k { q with unsignalled := q.unsignalled + 1 }
      let waiting := ((s.ctrl fn).cqs.map (fun e => if e.2.vector = q.vector then e.2.unsignalled else 0)).sum
      if c.coalTime = 0 ∨ c.coalOff.contains q.vector ∨ c.coalThr + 1 ≤ waiting then sendVector fn q.vector s else s
  | none => s

/-- A completion put at the tail of its CQ (R371, R372, R376), its data before it; the slot becomes FREE. -/
def putCompletion (k : Nat) (s : State) : State :=
  match s.slot k with
  | some x =>
    match x.result, smGet x.cq (s.ctrl x.fn).cqs with
    | some r, some q =>
      let bad := r.status != .success
      let c := s.ctrl x.fn
      let log := bad && x.failLba.isSome
      let s := if log then s.setCtrl x.fn { c with errs := (⟨(match c.errs with | e :: _ => e.num | [] => 0) + 1, x.cmd.nsid, x.sq, x.cmd.cid, r.status, x.failLba.getD 0⟩ :: c.errs).take 64 } else s
      let s := if x.sq ≠ 0 ∧ bad then countIo x.fn (nsIndex x.cmd.nsid) (fun n => { n with errors := n.errors + 1 }) s else s
      let s := if bad then s else forEach r.data (fun d s => s.emit (.hostData d)) s
      let sqhd := match smGet x.sq c.sqs with | some h => h.head | none => 0
      let s := s.emit (.completion x.fn x.cq q.tail r.dw0 r.dw1 sqhd x.sq x.cmd.cid q.phase r.status r.dnr log)
      let last := q.tail + 1 = q.size
      let s := s.setCq x.fn x.cq { q with tail := (q.tail + 1) % max 1 q.size, phase := if last then !q.phase else q.phase }
      let s := if x.sq = 0 then s else s.histo 13 (log2 ((s.now.toNat - x.at_) / 100))
      freeSlot k (signal x.fn x.cq s)
    | _, _ => freeSlot k s
  | none => s

/-- A Delete I/O SQ completes once every command of its queue has posted (R353). -/
def finishDeletes (s : State) : State :=
  forEach (slotsWhere s (fun x => (match x.cmd.op with | .deleteSq _ => true | _ => false) && x.sq == 0 && x.result.isNone)) (fun k s =>
    match s.slot k with
    | some x =>
      match x.cmd.op with
      | .deleteSq q =>
        let stopped := match smGet q (s.ctrl x.fn).sqs with | some e => e.stopped | none => false
        let left := s.qe.slots.any (fun p => p.2.fn == x.fn && p.2.sq == q) || s.qe.fetched.any (fun e => e.fn == x.fn && e.sq == q)
        if stopped && !left then finish k okResult (s.onCtrl x.fn (fun c => { c with sqs := smErase q c.sqs })) else s
      | _ => s
    | none => s) s

/-- Held completions of a CQ posted while it has room, in the order in which they became ready (R373). -/
def postHeld (fn k : Nat) : Nat → State → State
  | 0, s => s
  | n + 1, s =>
    match smGet k (s.ctrl fn).cqs with
    | some q =>
      match q.held with
      | h :: rest => if cqFull q then s else postHeld fn k n (putCompletion h (s.setCq fn k { q with held := rest }))
      | [] => s
    | none => s

/-- A guest's command ended (R488): DATA for what it read, then DONE; its slot becomes FREE. -/
def sendDone (k tag : Nat) (r : Result) (s : State) : State :=
  let s := if r.status = .success then forwardData tag r.data s else s
  let s := batSend (BitVec.ofNat 32 tag) (.done r.status r.dnr r.dw0 r.dw1) s
  freeSlot k { s with bat := { s.bat with guests := s.bat.guests.filter (fun f => f.slot != k) } }

/-- A record or journal change of the command awaits its RACK or JACK (R491, R492). -/
def ackWaits (s : State) (k : Nat) : Bool := s.bat.racks.any (fun f => f.slot == k) || s.bat.jacks.any (fun f => f.slot == k)

/-- A command's completion posted, or held where its CQ is full or others are held before it (R371, R373). One of whose parts the partner still
works waits (R488); one that waits to be placed or lost first takes its result (R369); those to be posted in SERVICE or under POWER_FAIL are not
(R378). -/
def postCompletion (k : Nat) (s : State) : State :=
  match s.slot k with
  | none => s
  | some x =>
    let s := match placedResult s x with | some r => finish k r s | none => s
    match s.slot k with
    | none => s
    | some x =>
      match x.result with
      | none => s
      | some r =>
        if x.state == .held || isForeign s k || ackWaits s k then s
        else
          match guestTag s k with
          | some tag => sendDone k tag r s
          | none =>
            if !qeRuns s then s
            else
              match smGet x.cq (s.ctrl x.fn).cqs with
              | some q =>
                if cqFull q || !q.held.isEmpty then
                  let s := s.setCq x.fn x.cq { q with held := q.held ++ [k] }
                  (s.setSlot k { x with state := .held }).flag F.QE_FLT_CQ_FULL
                else finishDeletes (putCompletion k s)
              | none => freeSlot k s

end Sys2Proof.Machine
end

