-- ==== Sys2Proof/Machine/QueueRows.lean ====
section
/-! DEFINITION. The rows of the host ports and the queue engine (13_host_ports_and_functions.md, 14_queues_ordering_completion.md): controllers and
their resets, link events, doorbells, fetching, decoding, admission, snapshots and completions. -/

namespace Sys2Proof.Machine

/-! ### Controllers and links (R327, R331, R332, R351) -/

/-- A host reaches a port: it is present and its data link is up. -/
def portReached (s : State) (port : Nat) : Bool := portPresent s port && s.on (F.HIFn_LINK_STAT_DL_UP port)

/-- A host's memory requests reach a function's BAR0: it exists, its link is up, and it is not in D3hot (R325, log 41). -/
def memReached (s : State) (fn : Nat) : Bool := portReached s (portOf fn) && functionExists s fn && !(s.pci fn).d3hot

/-- CC.EN set by a host (R332, R352): the admin queues are created, and the controller reports ready where the mode lets it. An offline VF's
controller ignores it (R330). Admin queues outside R352 are not created, and the controller does not report ready. -/
def enableController (fn : Nat) (wrr : Bool) (asqSize acqSize asq acq : Nat) (s : State) : State :=
  let c := s.ctrl fn
  if !memReached s fn || !c.online || c.en then s
  else
    let good := decide (2 ≤ asqSize) && decide (asqSize ≤ 4096) && decide (2 ≤ acqSize) && decide (acqSize ≤ 4096) && asq % 4096 == 0 && acq % 4096 == 0
    let c : Ctrl := { c with en := true, wrr := wrr }
    let c : Ctrl := if good then
        { c with sqs := [(0, ⟨asqSize, BitVec.ofNat 64 asq, 0, 0, 0, 0, false, false⟩)], cqs := [(0, ⟨acqSize, BitVec.ofNat 64 acq, 0, 0, true, 0, true, 0, []⟩)] }
      else c
    readyControllers (s.setCtrl fn c)

/-- CONTROLLER_ENABLE (R332). -/
def execControllerEnable (fn : Fin 128) (wrr : Bool) (asqSize acqSize : Nat) (asq acq : BitVec 64) (s : State) : Host.Outcome State Fault Refusal :=
  .next (enableController fn wrr asqSize acqSize asq.toNat acq.toNat s).settle

/-- FLR (R331). -/
def execFlr (fn : Fin 128) (s : State) : Host.Outcome State Fault Refusal :=
  .next (if portReached s (portOf fn) then (resetFunction fn (s.flag (F.HIFn_ERR_FLR_SEEN (portOf fn)))).settle else s)

/-- CONTROLLER_RESET (R331): CC.EN from 1 to 0. -/
def execControllerReset (fn : Fin 128) (s : State) : Host.Outcome State Fault Refusal :=
  .next (if memReached s fn && (s.ctrl fn).en then (resetFunction fn s).settle else s)

/-- HOT_RESET (R331). -/
def execHotReset (port : Fin 2) (s : State) : Host.Outcome State Fault Refusal :=
  .next (if portReached s port then (forEach (portFns port) resetFunction s).settle else s)

/-- LINK_DOWN (R331). -/
def execLinkDown (port : Fin 2) (s : State) : Host.Outcome State Fault Refusal :=
  .next (if s.on (F.HIFn_LINK_STAT_DL_UP port) then (linkGone port s).settle else s)

/-- Lanes of a port's configuration (R324): 0 where it is held down. -/
def portWidth (s : State) (port : Nat) : Nat :=
  match hostSec s with
  | some h => if port = 0 then (if h.ports = 2 then 4 else 2) else if h.ports = 1 then 2 else 0
  | none => 0

/-- LINK_UP (R324, R332): training ends at a speed up to MAX_SPEED and a width up to the configuration's. -/
def execLinkUp (port : Fin 2) (speed width : Nat) (s : State) : Host.Outcome State Fault Refusal :=
  let most := max 1 (min 5 (s.get (F.HIFn_CTL_MAX_SPEED port)))
  let ok := portPresent s port && s.on (F.HIFn_CTL_TRAIN_EN port) && s.mode != Mode.off && !s.on (F.HIFn_LINK_STAT_DL_UP port) &&
    decide (1 ≤ speed) && decide (speed ≤ most) && ([1, 2, 4] : List Nat).contains width && decide (width ≤ portWidth s port)
  .next (if ok then (((s.put (F.HIFn_LINK_STAT_DL_UP port) 1).put (F.HIFn_LINK_STAT_SPEED port) speed).put (F.HIFn_LINK_STAT_WIDTH port) width) else s)

/-- A write of a field of configuration space (R325 to R327): NumVFs does not change while VFs are enabled, VFs that are no longer enabled are reset,
and a field that only reads discards it. -/
def cfgWrite (fn : Nat) (f : CfgField) (v : Nat) (s : State) : State :=
  let port := portOf fn
  let w := BitVec.ofNat 32 v
  if !hasField fn f then s
  else
    match f with
    | .maxPayload => s.onPci fn (fun p => { p with mps := min 2 (v % 8) })
    | .maxReadRequest => s.onPci fn (fun p => { p with mrrs := min 5 (v % 8) })
    | .tag10Enable => s.onPci fn (fun p => { p with tag10 := v % 2 = 1 })
    | .timeoutValue => s.onPci fn (fun p => { p with timeout := v % 16 })
    | .aspmL1 => s.onPci fn (fun p => { p with aspmL1 := v % 2 = 1 })
    | .powerState => if v % 4 = 0 ∨ v % 4 = 3 then s.onPci fn (fun p => { p with d3hot := v % 4 = 3 }) else s
    | .msixEnable => msixRelease fn (s.onPci fn (fun p => { p with msixEn := v % 2 = 1 }))
    | .msixFunctionMask => msixRelease fn (s.onPci fn (fun p => { p with msixMask := v % 2 = 1 }))
    | .numVfs => if s.on (F.HIFn_FN_STAT_VF_EN port) || decide (totalVfs s port < v) then s else s.put (F.HIFn_FN_STAT_NUMVF port) v
    | .vfEnable =>
      let s := s.putB (F.HIFn_FN_STAT_VF_EN port) (v % 2 == 1)
      if v % 2 = 1 then s else forEach ((portFns port).filter (fun f => !isPf f)) resetFunction s
    | .aerUncStatus => s.onPci fn (fun p => { p with unc := p.unc &&& ~~~w })
    | .aerUncMask => s.onPci fn (fun p => { p with uncMask := w })
    | .aerCorStatus => s.onPci fn (fun p => { p with cor := p.cor &&& ~~~w })
    | .aerCorMask => s.onPci fn (fun p => { p with corMask := w })
    | _ => s

/-- What a host's configuration request does (R325, R327, R333). -/
def cfgEff (fn : Nat) (req : CfgReq) (s : State) : State :=
  match req with
  | .capability c => s.emit (.cfgData fn (b2n (capPresent fn c)))
  | .read f => s.emit (.cfgData fn (cfgRead s fn f))
  | .write f v => cfgWrite fn f v s
  | .register r => s.emit (.cfgData fn (bar0Read s fn r))
  | .vectorMask v masked =>
    if viOf s fn ≤ v then s
    else msixRelease fn (s.onPci fn (fun p => { p with unmasked := p.unmasked.filter (fun k => k != v) ++ (if masked then [] else [v]) }))

/-- CONFIGURATION_REQUEST (R325, R327, R332): configuration space and BAR0 are readable from CONFIGURE on, through a port whose link is up. -/
def execConfigurationRequest (fn : Fin 128) (req : CfgReq) (s : State) : Host.Outcome State Fault Refusal :=
  .next (if portReached s (portOf fn) && functionExists s fn then (cfgEff fn req s).settle else s)

/-- A command whose data moves between the host and the chip fails with Data Transfer Error (R366, R375); one admitted already keeps its data. -/
def transferError (slot : Nat) (s : State) : State :=
  match s.slot slot with
  | some x => if x.admitted || x.result.isSome || x.fetched then s else finish slot (retryResult .dataTransfer) (s.onSlot slot (fun x => { x with moved := true }))
  | none => s

/-- TLP_ERROR_RECEIVED (R351): bad TLPs and DLLPs and a replay rollover are correctable, the others uncorrectable; the port's PF reports them. A
completion with status Unsupported Request ends the command that asked (R375). -/
def execTlpErrorReceived (port : Fin 2) (kind : TlpError) (s : State) : Host.Outcome State Fault Refusal :=
  let pf := 64 * port.val
  .next (if !portReached s port then s else
    match kind with
    | .badTlp => portCorrectable pf (F.HIFn_ERR_BAD_TLP port) 6 s
    | .badDllp => portCorrectable pf (F.HIFn_ERR_BAD_DLLP port) 7 s
    | .replayRoll => portCorrectable pf (F.HIFn_ERR_REPLAY_ROLL port) 8 s
    | .malformed => portUncorrectable pf (F.HIFn_ERR_MALFORMED port) 18 s
    | .unsupported => portUncorrectable pf (F.HIFn_ERR_UR_RX port) 20 s
    | .unsupportedCompletion slot => (transferError slot s).settle)

/-! ### Doorbells (R354, R373) -/

/-- The controller of a function has queues that a host can reach. -/
def doorbellFor (s : State) (fn : Nat) : Bool := memReached s fn

/-- SQ_TAIL_DOORBELL (R354, R381): recorded, with whether the queue was empty before it (R379). -/
def execSqTailDoorbell (fn : Fin 128) (sq value : Nat) (s : State) : Host.Outcome State Fault Refusal :=
  if !doorbellFor s fn then .next s
  else
    match smGet sq (s.ctrl fn).sqs with
    | some q => .next (if value < q.size then s.setSq fn sq { q with tail := value, fresh := sqDepth q == 0 } else badDoorbell fn s)
    | none => .next (badDoorbell fn s)

/-- CQ_HEAD_DOORBELL (R354, R373): a head past what has been posted is ignored; held completions follow as it frees entries. -/
def execCqHeadDoorbell (fn : Fin 128) (cq value : Nat) (s : State) : Host.Outcome State Fault Refusal :=
  if !doorbellFor s fn then .next s
  else
    match smGet cq (s.ctrl fn).cqs with
    | some q =>
      let posted := (q.tail + q.size - q.head) % max 1 q.size
      let freed := (value + q.size - q.head) % max 1 q.size
      if value < q.size ∧ freed ≤ posted then
        let s := showSlots (s.setCq fn cq { q with head := value })
        .next (if qeRuns s then finishDeletes (postHeld fn cq q.held.length s) else s).settle
      else .next (badDoorbell fn s)
    | none => .next (badDoorbell fn s)

/-! ### Fetching and decoding (R335 to R337, R355 to R367) -/

/-- FETCH_VISIT (R357 to R360, R367): `read` holds what the reads of host memory return, by queue. -/
def execFetchVisit (read : List (Nat × Sqe)) (s : State) : Host.Outcome State Fault Refusal :=
  if !qeRuns s || s.qe.stuck.isSome then .next s
  else
    match nextFn s with
    | some fn => .next (visit fn read s)
    | none => .next s

/-- Admin commands of R336. -/
def isAdminOp : HostOp → Bool
  | .createSq .. => true
  | .createCq .. => true
  | .deleteSq .. => true
  | .deleteCq .. => true
  | .abort .. => true
  | .asyncEvent => true
  | .identify .. => true
  | .getLog .. => true
  | .getFeatures .. => true
  | .setFeatures .. => true
  | .nsCreate .. => true
  | .nsDelete => true
  | .nsAttach .. => true
  | .nsDetach .. => true
  | .virt .. => true
  | .format .. => true
  | .sanitize .. => true
  | .secReceive .. => true
  | .secSend .. => true
  | .standings .. => true
  | .fwDownload => true
  | .fwCommit => true
  | _ => false

/-- Admin commands of a PF only (R336). -/
def pfOnly : HostOp → Bool
  | .nsCreate .. => true
  | .nsDelete => true
  | .nsAttach .. => true
  | .nsDetach .. => true
  | .virt .. => true
  | .format .. => true
  | .sanitize .. => true
  | .standings .. => true
  | _ => false

/-- Commands of the Zoned Namespace command set alone (R337). -/
def zonedOp : HostOp → Bool
  | .zoneSend _ => true
  | .zoneReceive .. => true
  | .zoneAppend => true
  | _ => false

/-- The function may use the command's opcode on that queue (R336, R337); Firmware Image Download and Firmware Commit are always refused (R4). -/
def opAllowed (fn sq : Nat) (op : HostOp) : Bool :=
  match op with
  | .other => false
  | .fwDownload => false
  | .fwCommit => false
  | _ => if isAdminOp op then sq == 0 && (!pfOnly op || isPf fn) else sq != 0

/-- Commands that READONLY refuses (R299). -/
def writesMedia : HostOp → Bool
  | .write => true
  | .writeZeroes _ => true
  | .writeUncorrectable => true
  | .copy => true
  | .zoneAppend => true
  | .dsm d => d
  | .zoneSend _ => true
  | _ => false

/-- Commands with a range of their own. -/
def hasRange : HostOp → Bool
  | .read => true
  | .write => true
  | .compare => true
  | .verify => true
  | .writeZeroes _ => true
  | .writeUncorrectable => true
  | .zoneAppend => true
  | _ => false

/-- Commands that move their range to or from the host, up to MDTS or ZASL (R334, R337). -/
def movesRange : HostOp → Bool
  | .read => true
  | .write => true
  | .compare => true
  | .zoneAppend => true
  | _ => false

/-- Commands for the namespace wait in WAITING (R498): its home was the partner that a failover replaces, which has not ended. -/
def failoverWaits (s : State) (e : NsEntry) : Bool :=
  (s.get F.BAT_STAT_FAILOVER == 1 || s.get F.BAT_STAT_FAILOVER == 2) && (match actsOf e.set_ with | a :: _ => s.bat.claimed.getLsbD a | [] => false)

/-- No writes are admitted to a namespace that will return to the partner (R501, phase 4). -/
def returning (s : State) (e : NsEntry) : Bool :=
  s.bat.peerResynced && s.get F.BAT_STAT_PEER_MODE == Mode.partnerStandby && s.on F.GLB_MODE_COND_PARTNER_LOST &&
  (match actsOf e.set_ with | a :: _ => (match laneFor s a with | some n => (match laneRec s n with | some r => !r.home | none => false) | none => false) | [] => false)

/-- Why an I/O command fails at its decode (R299, R337, R346, R349, R375). -/
def ioFault (s : State) (fn : Nat) (e : Sqe) : Option NvStatus :=
  if e.op == .flush && e.nsid == 0xFFFFFFFF then none
  else
    match attachedNs s fn e.nsid with
    | none => some .invalidNamespace
    | some (k, n) =>
      if nsDeleting s k then some .invalidNamespace
      else if zonedOp e.op && n.kind != 2 then some .invalidOpcode
      else
        match (if failoverWaits s n then none else anaRefusal (anaState s n.set_.toNat)) with
        | some st => some st
        | none =>
          if s.mode == Mode.readonly && writesMedia e.op then some .writeProtected
          else if !e.prpOk then some .prpOffset
          else if movesRange e.op && decide (512 < e.nlb) then some .invalidField
          else if hasRange e.op && decide (nsSize s n < e.slba + e.nlb) then some .lbaRange
          else if writesMedia e.op && keyLost s k then some .writeFault
          else none

/-- The whole of a namespace as a run. -/
def nsRun (s : State) (k : Nat) : List (Nat × Nat × Nat) := match nsEntry s k with | some e => [(k, nsBase s e, nsSize s e)] | none => []

/-- Namespaces that a command erases (R393). -/
def erasedNs (s : State) (fn : Nat) (e : Sqe) : List Nat :=
  let attached := (s.bnd.ns.filter (fun p => p.2.attached.contains (cntlidOf s fn))).map (fun p => p.1)
  match e.op with
  | .nsDelete => if (nsEntry s (nsIndex e.nsid)).isSome && e.nsid != 0 then [nsIndex e.nsid] else []
  | .format .. => if e.nsid = 0xFFFFFFFF then attached else match attachedNs s fn e.nsid with | some (k, _) => [k] | none => []
  | .sanitize _ => s.bnd.ns.map (fun p => p.1)
  | .secSend p q _ => if p = 0xF0 ∧ q = 0x10 then (match attachedNs s fn e.nsid with | some (k, _) => [k] | none => []) else []
  | _ => []

/-- The blocks that a command reads and writes, as its decode knows them (R362, R369, R395). -/
def runsOf (s : State) (x : Slot) : List (Nat × Nat × Nat) × List (Nat × Nat × Nat) :=
  let r := cmdRun s x
  let bs := bandSectors s
  let zone := r.2.1 / bs * bs
  match x.cmd.op with
  | .read => ([r], [])
  | .compare => ([r], [])
  | .verify => ([r], [])
  | .write => ([], [r])
  | .writeZeroes _ => ([], [r])
  | .writeUncorrectable => ([], [r])
  | .zoneAppend => let w := zoneWp s (lbandOf s r.2.1); ([], [(r.1, zone + w, bs - w)])
  | .zoneSend .reset => ([], [(r.1, zone, bs)])
  | .zoneSend .finish => ([], [(r.1, zone, bs)])
  | .zoneSend .offline => ([], [(r.1, zone, bs)])
  | op => if isAdminOp op then ([], (erasedNs s x.fn x.cmd).flatMap (nsRun s)) else ([], [])

/-- A command decoded into a slot (R355, R361, R367): one that fails at once takes its status, one whose home is the partner is forwarded when its data
is there, Dataset Management and Copy wait for their range lists, and every other receives its FON and runs. -/
def enterCommand (k : Nat) (x : Slot) (s : State) : State :=
  let s := s.setSlot k x
  let s := if fnMax s ≤ slotsOf s x.fn then s.flag F.QE_FLT_SLOT_CAP else s
  if !opAllowed x.fn x.sq x.cmd.op then enterRuns k [] [] s
  else if x.sq = 0 then let (r, w) := runsOf s x; (enterRuns k r w s).irq 27
  else
    match ioFault s x.fn x.cmd with
    | some st => finish k (failResult st) (enterRuns k [] [] s)
    | none =>
      let all := x.cmd.op == .flush && x.cmd.nsid == 0xFFFFFFFF
      let away := match nsEntry s (nsIndex x.cmd.nsid) with | some e => homeElsewhere s e | none => false
      let waits := match nsEntry s (nsIndex x.cmd.nsid) with | some e => failoverWaits s e | none => false
      if waits && !all then s.onSlot k (fun y => { y with state := match y.state with | .decode => .decode | _ => .waiting })
      else if all then
        let other := s.bnd.ns.any (fun p => p.2.attached.contains (cntlidOf s x.fn) && homeElsewhere s p.2)
        let s := enterRuns k [] [] s
        if other then forwardCmd k s else s
      else if away then
        -- a command without data from the host goes at once (R488)
        match x.cmd.op with
        | .write => s
        | .compare => s
        | .zoneAppend => s
        | .dsm _ => s
        | .copy => s
        | _ => forwardCmd k s
      else
        match x.cmd.op with
        | .dsm _ => s
        | .copy => s
        | _ => let (r, w) := runsOf s x; enterRuns k r w s

/-- The lowest free slot (log 20). -/
def freeSlotNo (s : State) : Nat := ((List.range (s.qe.slots.length + 1)).find? (fun k => (s.slot k).isNone)).getD 0

/-- A slot as its entry is decoded. -/
def newSlot (s : State) (e : Fetched) : Slot :=
  let cq := match smGet e.sq (s.ctrl e.fn).sqs with | some q => q.cq | none => 0
  let st := match e.cmd.op with | .dsm _ => SlotState.decode | .copy => .decode | .read => .waiting | _ => .running
  ⟨e.fn, e.sq, cq, e.cmd, st, none, [], [], [], false, false, false, none, none, none, false, false, false, none, e.at_, e.sprint, false⟩

/-- ENTRY_DECODE (R361): the oldest fetched entry takes a slot; none is decoded while the tracker is full (R367). An entry of a queue being deleted
is aborted (R353). -/
def execEntryDecode (s : State) : Host.Outcome State Fault Refusal :=
  match s.qe.fetched with
  | [] => .next s
  | e :: rest =>
    if s.qe.stuck.isSome || decide (16384 ≤ s.qe.slots.length) then .next s
    else
      let k := freeSlotNo s
      let stopped := match smGet e.sq (s.ctrl e.fn).sqs with | some q => q.stopped | none => false
      let s := { s with qe := { s.qe with fetched := rest } }
      .next (if stopped then finish k (retryResult .sqDeleted) (enterRuns k [] [] (s.setSlot k (newSlot s e))) else enterCommand k (newSlot s e) s).settle

/-! ### Admission, snapshots, completion (R364, R365, R369 to R375) -/

/-- A zoned write meets its zone (R369, R375): it lies within one zone, starts at the write pointer, and the zone is or becomes open. -/
def zoneAdmit (lba n : Nat) (s : State) : Except NvStatus State :=
  let bs := bandSectors s
  let l := lbandOf s lba
  if bs < lba % bs + n then .error .zoneBoundary
  else if lba % bs ≠ zoneWp s l then (match (s.lband l).zone with | .full => .error .zoneFull | .offline => .error .zoneOffline | _ => .error .zoneInvalidWrite)
  else zoneForWrite l s

/-- A write is admitted (R364, R369): its data is there, every overlapping write of lower FON is admitted or has failed, no ladder reads its blocks
(R125), and the throttle lets it. -/
def admitSlot (k : Nat) (s : State) : State :=
  match s.slot k with
  | none => s
  | some x =>
    if !x.fetched || x.admitted || x.result.isSome || x.fon.isNone || isForeign s k || !slotEntered s k || !mediaServed s then s
    else if s.mode == Mode.readonly then finish k (failResult .writeProtected) s
    else if overlapWaits s x then countWait k s
    else if ladderReads s x.writes then s
    else
      match nsEntry s (nsIndex x.cmd.nsid) with
      | none => finish k (failResult .invalidNamespace) s
      | some e =>
        let bs := bandSectors s
        let n := x.data.length
        let first := match x.cmd.op, x.writes with | .copy, (_, b, _) :: _ => b | _, _ => cmdLba s x
        let lba := if x.cmd.op == .zoneAppend then first / bs * bs + zoneWp s (lbandOf s first) else first
        if journalFull s || !creditFor s e || returning s e then s
        else if e.kind = 2 then
          match zoneAdmit lba n s with
          | .error st => failBlock k lba (failResult st) s
          | .ok s' =>
            let t := admitWrite k lba e x.data (writeResult s' { x with writes := [(nsIndex x.cmd.nsid, lba, n)] }) s'
            let l := lbandOf s lba
            -- no place in the write cache: the write waits, and the zone is as it was
            if !((t.slot k).map (fun y => y.admitted)).getD true then s
            else if lba % bs + n = bs then setZone l .full 3 t else t
        else admitWrite k lba e x.data okResult s

/-- WRITE_ADMISSION (R364, R366, R369). -/
def execWriteAdmission (slot : Nat) (s : State) : Host.Outcome State Fault Refusal := .next (admitSlot slot s).settle

/-- READ_SNAPSHOT (R363, R365): once every overlapping write of lower FON is admitted or has failed. -/
def execReadSnapshot (slot : Nat) (s : State) : Host.Outcome State Fault Refusal :=
  match s.slot slot with
  | none => .next s
  | some x =>
    if x.reads.isEmpty || x.snap.isSome || x.result.isSome || x.fon.isNone || isForeign s slot || !slotEntered s slot || !mediaServed s then .next s
    else if overlapWaits s x then .next (countWait slot s)
    else if rangeWaits s (runLbas x.reads) then .next s
    else .next (takeSnapshot slot s).settle

/-- COMPLETION_POST (R371 to R376). -/
def execCompletionPost (slot : Nat) (s : State) : Host.Outcome State Fault Refusal := .next (postCompletion slot s).settle

/-- COALESCE_TIMER (R374): TIME × 100 µs have passed since the first entry that the CQ's vector has not signalled. -/
def execCoalesceTimer (fn : Fin 128) (cq : Nat) (s : State) : Host.Outcome State Fault Refusal :=
  match smGet cq (s.ctrl fn).cqs with
  | some q => .next (if q.unsignalled ≠ 0 ∧ q.ien ∧ qeRuns s then sendVector fn q.vector s else s)
  | none => .next s

/-- POISONED_TLP (R342): write data in a poisoned TLP; none of the command's data is admitted. -/
def execPoisonedTlp (slot : Nat) (s : State) : Host.Outcome State Fault Refusal :=
  match s.slot slot with
  | some x =>
    if x.fetched || x.result.isSome then .next s
    else .next (transferError slot (portPoison x.fn s)).settle
  | none => .next s

/-- COMPLETION_TIMEOUT (R351, R375): a request to host memory for a command got no completion. -/
def execCompletionTimeout (slot : Nat) (s : State) : Host.Outcome State Fault Refusal :=
  match s.slot slot with
  | some x =>
    if x.result.isSome then .next s
    else .next (transferError slot (portUncorrectable x.fn (F.HIFn_ERR_CPL_TO (portOf x.fn)) 14 s)).settle
  | none => .next s

end Sys2Proof.Machine
end

