-- ==== Sys2Proof/Machine/Images.lean ====
section
/-! DEFINITION. What lies in boot flash and boot MRAM as bytes: the structure image with its sections (02_structure_image.md, R45 to R47, R636 to R642,
R223), the manifest (21_trust_boot_update.md, R532 to R534) and the key table (R528). Every field is little-endian (R18); digests, signature
components and key coordinates keep their standards' order. Each reader also says whether the fields marked zero are zero. -/

namespace Sys2Proof.Machine

/-! ### Fields of bytes -/

/-- `n` bytes from an offset; bytes past the end read 0. -/
def bytesAt (l : List Byte) (off n : Nat) : List Byte := fit n (l.drop off)

/-- The field of `n` bytes at an offset. -/
def fieldAt (l : List Byte) (off n : Nat) : Nat := unle (bytesAt l off n)

/-- The signed field of `n` bytes at an offset. -/
def signedAt (l : List Byte) (off n : Nat) : Int := signed (8 * n) (fieldAt l off n)

/-- The field of `n` bytes at an offset in a standard's own order, most significant byte first. -/
def bigAt (l : List Byte) (off n : Nat) : Nat := unbe (bytesAt l off n)

/-- `n` bytes from an offset are zero. -/
def zeroAt (l : List Byte) (off n : Nat) : Bool := (bytesAt l off n).all (fun b => b == 0)

/-- `k` records of `n` bytes each from the head of a list. -/
def records (n : Nat) : Nat → List Byte → List (List Byte)
  | 0, _ => []
  | k + 1, l => fit n l :: records n k (l.drop n)

/-- The words of four bytes of a list. -/
def words4 (k : Nat) (l : List Byte) : List Word := (records 4 k l).map (fun b => BitVec.ofNat 32 (unle b))

/-! ### Small sections (R637) -/

def laneRecAt (b : List Byte) : LaneRec :=
  let f := fieldAt b 0 1
  let st := fieldAt b 6 1
  ⟨f % 2 = 1, f / 2 % 2 = 1, fieldAt b 1 1, fieldAt b 2 1, fieldAt b 3 1, fieldAt b 4 1, BitVec.ofNat 8 (fieldAt b 5 1), st % 2 = 1, st / 2 % 2 = 1⟩

/-- The zero fields of a lane's record, every byte of an absent lane's. -/
def laneRecZero (b : List Byte) : Bool :=
  if fieldAt b 0 1 % 2 = 1 then decide (fieldAt b 0 1 < 4) && decide (fieldAt b 6 1 < 4) && zeroAt b 7 25 else zeroAt b 0 32

def dramRecAt (b : List Byte) : DramRec := ⟨fieldAt b 0 1 % 2 = 1, fieldAt b 1 1, fieldAt b 2 1, fieldAt b 3 1⟩

/-- The zero fields of a channel's record, all four bytes of an unconfigured channel's. -/
def dramRecZero (b : List Byte) : Bool := if fieldAt b 0 1 % 2 = 1 then fieldAt b 0 1 == 1 else zeroAt b 0 4

def hostAt (b : List Byte) : HostSec :=
  let h := fun (n : Nat) => BitVec.ofNat 16 n
  { ports := fieldAt b 0 1, vf0 := fieldAt b 1 1, vf1 := fieldAt b 2 1, qpMax := fieldAt b 4 2, nsMax := fieldAt b 6 2, mqe := fieldAt b 8 4,
    vid := h (fieldAt b 12 2), ssvid := h (fieldAt b 14 2), pfDid := h (fieldAt b 16 2), vfDid := h (fieldAt b 18 2),
    ieee := BitVec.ofNat 24 (fieldAt b 20 3), rated := BitVec.ofNat 64 (fieldAt b 24 8), mn := bytesAt b 32 40 }

def presetsAt (b : List Byte) : List (BitVec 32 × Word) :=
  (records 8 (b.length / 8) b).map (fun e => (BitVec.ofNat 32 (fieldAt e 0 4), BitVec.ofNat 32 (fieldAt e 4 4)))

/-! ### SPINDLE (R638) -/

def spindleAt (b : List Byte) : SpindleSec :=
  { cadences := BitVec.ofNat 4 (fieldAt b 0 1), poles := fieldAt b 1 1, keImg := fieldAt b 2 2, ilimCeil := fieldAt b 4 2, rateCeil := fieldAt b 6 2,
    runupRate := fieldAt b 8 2, advance := (records 2 4 (b.drop 12)).map unle,
    gains := (records 8 4 (b.drop 20)).map (fun e => (signedAt e 0 4, signedAt e 4 4)),
    profile := (records 4 (fieldAt b 10 2) (b.drop 56)).map (fun e => (fieldAt e 0 2, fieldAt e 2 2)) }

def spindleZero (b : List Byte) : Bool := decide (fieldAt b 0 1 < 16) && zeroAt b 52 4

/-! ### ZONES (R639) -/

/-- The heads that a ZONES section's presets cover: every declared head of every present lane, by 8 l + h (R639, part 5). -/
def presetHeads (l : List LaneRec) : List Nat :=
  ([0, 1, 2, 3] : List Nat).flatMap (fun n => match l[n]? with | some r => if r.present then (List.range (min 8 r.heads)).map (fun h => 8 * n + h) else [] | none => [])

/-- An entry of a sector map. -/
def sectorPosAt (b : List Byte) : SectorPos :=
  let v := unle b
  ⟨bitsOf v 9 0, bitsOf v 26 10, bitsOf v 43 27, bitsOf v 60 44⟩

/-- A zone format of 32 bytes, its sector map taken at MAP within the section. -/
def zoneFmtAt (sec b : List Byte) : ZoneFmt :=
  let spt := fieldAt b 8 2
  let ofs := fieldAt b 12 4
  { bpw := fieldAt b 0 4, cls := fieldAt b 4 1, p := fieldAt b 5 1, g := fieldAt b 6 2, spt := spt, preamble := fieldAt b 10 2, mapOfs := ofs,
    map := (records 8 spt (sec.drop ofs)).map sectorPosAt }

def zoneFmtZero (sec b : List Byte) : Bool :=
  zeroAt b 16 16 && (records 8 (fieldAt b 8 2) (sec.drop (fieldAt b 12 4))).all (fun e => bitsOf (unle e) 63 61 == 0)

/-- The presets of one lane, head and zone, 800 bytes. -/
def zonePresetAt (b : List Byte) : ZonePreset :=
  let w := fun (o : Nat) => BitVec.ofNat 32 (fieldAt b o 4)
  { heater := w 0, afe := w 4, eq := words4 192 (b.drop 8), write := w 776, verify := w 780, precomp := w 784 }

/-- Where the presets begin in an instance. -/
def presetsFrom (inst : Nat) (fmts : List ZoneFmt) : Nat :=
  if inst = 0 then 16 + 1152 + 32 * fmts.length + (fmts.map (fun f => 8 * f.spt)).sum else 16

/-- The zone formats, which the 3,600 rpm instance alone carries. -/
def zoneFmtsAt (inst : Nat) (b : List Byte) : List ZoneFmt :=
  if inst = 0 then (records 32 (min 32 (fieldAt b 0 1)) (b.drop 1168)).map (zoneFmtAt b) else []

/-- The records of part 5, with their keys. -/
def zonePresetRecords (l : List LaneRec) (inst : Nat) (b : List Byte) : List (Nat × List Byte) :=
  let z := min 32 (fieldAt b 0 1)
  let keys := (presetHeads l).flatMap (fun h => (List.range z).map (fun k => 32 * h + k))
  keys.zip (records 800 keys.length (b.drop (presetsFrom inst (zoneFmtsAt inst b))))

def zonesAt (l : List LaneRec) (inst : Nat) (b : List Byte) : ZonesSec :=
  let z := fieldAt b 0 1
  { z := z, smax := fieldAt b 2 2,
    bounds := if inst = 0 then ((List.range 32).zip (records 36 32 (b.drop 16))).map (fun e => (e.1, ((records 4 32 e.2).map unle).take z, fieldAt e.2 128 4)) else [],
    fmts := zoneFmtsAt inst b, presets := (zonePresetRecords l inst b).map (fun e => (e.1, zonePresetAt e.2)) }

def zonesZero (l : List LaneRec) (inst : Nat) (b : List Byte) : Bool :=
  let z := fieldAt b 0 1
  zeroAt b 1 1 && zeroAt b 4 12 && (zonePresetRecords l inst b).all (fun e => zeroAt e.2 788 12) &&
  (inst != 0 || ((records 36 32 (b.drop 16)).all (fun e => zeroAt e (4 * min 32 z) (128 - 4 * min 32 z)) &&
    (records 32 (min 32 z) (b.drop 1168)).all (zoneFmtZero b)))

/-! ### READERS (R640) -/

def readerHeadAt (b : List Byte) : ReaderHead :=
  { innerXt := signedAt b 0 2, outerXt := signedAt b 2 2, dt := (records 2 3 (b.drop 4)).map unle, trail := fieldAt b 10 1, taps := words4 32 (b.drop 16) }

def readerZoneAt (b : List Byte) : ReaderZone :=
  { delays := (records 2 3 b).map (fun e => signedAt e 0 2), xts := (records 2 3 (b.drop 6)).map (fun e => signedAt e 0 2),
    wtbl3 := BitVec.ofNat 32 (fieldAt b 12 4) }

def readersAt (b : List Byte) : ReadersSec :=
  let heads := fieldAt b 0 1
  let z := fieldAt b 1 1
  let keys := (List.range heads).flatMap (fun h => (List.range z).map (fun k => 32 * h + k))
  { heads := heads, z := z, hd := (records 144 heads (b.drop 8)).map readerHeadAt,
    zn := (keys.zip (records 16 keys.length (b.drop (8 + 144 * heads)))).map (fun e => (e.1, readerZoneAt e.2)) }

def readersZero (b : List Byte) : Bool := zeroAt b 2 6 && (records 144 (fieldAt b 0 1) (b.drop 8)).all (fun e => zeroAt e 11 5)

/-! ### SERVO (R641) -/

/-- An Abacus value: mantissa and exponent. -/
def abacusAt (b : List Byte) (off : Nat) : BitVec 24 × Nat := (BitVec.ofNat 24 (fieldAt b off 4), bitsOf (fieldAt b off 4) 29 24)

def servoAt (b : List Byte) : ServoSec :=
  let steps := fieldAt b 20 2
  let nblocks := fieldAt b 22 2
  let at_ := 64 + 4 * steps
  let w := at_ + 4 * nblocks
  { sbpw := fieldAt b 0 2, ceil := (records 2 3 (b.drop 4)).map unle, limit := (records 2 3 (b.drop 10)).map unle,
    unloadTrack := fieldAt b 16 4 % 2 ^ 22,
    load := (records 4 steps (b.drop 64)).map (fun e => (signed 20 (unle e % 2 ^ 20), bitsOf (unle e) 31 20)),
    blocks := (records 4 nblocks (b.drop at_)).map (fun e => (bitsOf (unle e) 11 0, bitsOf (unle e) 23 12, bitsOf (unle e) 29 24)),
    words := (records 4 4096 (b.drop w)).map (fun e => BitVec.ofNat 24 (unle e)),
    program := (records 8 1024 (b.drop (w + 16384))).map (fun e => BitVec.ofNat 64 (unle e)), kp := abacusAt b 24, ki := abacusAt b 28 }

/-- The zero fields of a SERVO section; UNLOAD_TRACK's belong to the fields that are ignored outside the 3,600 rpm instance. -/
def servoZero (inst : Nat) (b : List Byte) : Bool :=
  let at_ := 64 + 4 * fieldAt b 20 2
  let w := at_ + 4 * fieldAt b 22 2
  zeroAt b 2 2 && zeroAt b 32 32 && (inst != 0 || decide (fieldAt b 16 4 < 2 ^ 22)) &&
  (records 4 (fieldAt b 22 2) (b.drop at_)).all (fun e => decide (unle e < 2 ^ 30)) && (records 4 4096 (b.drop w)).all (fun e => decide (unle e < 2 ^ 24))

/-! ### BANDS (R642) -/

def bandRunAt (b : List Byte) : BandRun :=
  let p := fieldAt b 1 1
  { kind := fieldAt b 0 1, actuator := bitsOf p 1 0, head := bitsOf p 4 2, bands := fieldAt b 2 2, firstTrack := fieldAt b 4 4, tpb := fieldAt b 8 4,
    firstBand := fieldAt b 12 4 }

def bandsAt (b : List Byte) : BandsSec :=
  { code := fieldAt b 0 1, mcFraction := fieldAt b 1 1, format := BitVec.ofNat 16 (fieldAt b 2 2), nbands := fieldAt b 4 4,
    sectPool := (records 4 4 (b.drop 16)).map unle, runs := (records 24 (min 8193 (fieldAt b 8 4)) (b.drop 32)).map bandRunAt }

def bandsZero (b : List Byte) : Bool :=
  zeroAt b 12 4 && (records 24 (min 8193 (fieldAt b 8 4)) (b.drop 32)).all (fun e => decide (fieldAt e 1 1 < 32) && zeroAt e 16 8)

/-! ### The image -/

/-- A section of a type and instance read from its bytes (R48, R636); `l` are the lane records of the same image. -/
def sectionAt (l : List LaneRec) (type inst : Nat) (b : List Byte) : Section :=
  match type with
  | 0x1 => .lanes ((records 32 4 b).map laneRecAt)
  | 0x2 => .readers (readersAt b)
  | 0x3 => .zones (zonesAt l inst b)
  | 0x4 => .ustore ((records 22 4096 b).map (fun e => BitVec.ofNat 176 (unle e)))
  | 0x5 => .sram (fieldAt b 0 1) (fieldAt b 1 1) (BitVec.ofNat 64 (fieldAt b 8 8))
  | 0x6 => .dram (dramRecAt b) (dramRecAt (b.drop 4))
  | 0x7 => .host (hostAt b)
  | 0x8 => .balls (fieldAt b 0 1) (fieldAt b 1 1)
  | 0x9 => .pair (fieldAt b 0 1) (BitVec.ofNat 16 (fieldAt b 2 2)) (fieldAt b 4 2) (fieldAt b 6 2)
  | 0xA => .bandwidth (fieldAt b 0 4) (fieldAt b 4 4) (fieldAt b 8 4)
  | 0xB => .presets (presetsAt b)
  | 0xC => .servo (servoAt b)
  | 0xD => .spindle (spindleAt b)
  | 0xE => .bands (bandsAt b)
  | t => .unknown t

/-- The fields of a section that its layout marks zero or reserved are zero (R636). -/
def sectionZero (l : List LaneRec) (type inst : Nat) (b : List Byte) : Bool :=
  match type with
  | 0x1 => (records 32 4 b).all laneRecZero
  | 0x2 => readersZero b
  | 0x3 => zonesZero l inst b
  | 0x5 => zeroAt b 2 6
  | 0x6 => dramRecZero b && dramRecZero (b.drop 4)
  | 0x7 => zeroAt b 3 1 && zeroAt b 23 1 && zeroAt b 72 56
  | 0x8 => zeroAt b 2 2
  | 0x9 => zeroAt b 1 1
  | 0xA => zeroAt b 12 4
  | 0xC => servoZero inst b
  | 0xD => spindleZero b
  | 0xE => bandsZero b
  | _ => true

/-- The bytes of directory entry `i` (R46). -/
def entryBytes (img : List Byte) (i : Nat) : List Byte := bytesAt img (128 + 64 * i) 64

/-- The lane records of an image: those of its first LANES section. -/
def lanesOfBytes (img : List Byte) : List LaneRec :=
  match (List.range (min 64 (fieldAt img 6 2))).find? (fun i => fieldAt (entryBytes img i) 0 2 == 1) with
  | some i => (records 32 4 (img.drop (fieldAt (entryBytes img i) 4 4))).map laneRecAt
  | none => []

/-- A directory entry with its section (R46). -/
def dirEntryAt (img : List Byte) (l : List LaneRec) (i : Nat) : DirEntry :=
  let e := entryBytes img i
  let type := fieldAt e 0 2
  let inst := fieldAt e 2 1
  let b := (img.drop (fieldAt e 4 4)).take (fieldAt e 8 4)
  { inst := inst, flags := BitVec.ofNat 8 (fieldAt e 3 1), offset := fieldAt e 4 4, length := fieldAt e 8 4, crc := BitVec.ofNat 32 (fieldAt e 12 4),
    crcOk := crc32c b == fieldAt e 12 4, digestOk := sha384 b == BitVec.ofNat 384 (bigAt e 16 48), reservedOk := sectionZero l type inst b,
    digest := BitVec.ofNat 384 (bigAt e 16 48), body := sectionAt l type inst b }

/-- The structure image that its bytes spell (R45 to R48). -/
def readImage (b : List Byte) : Image :=
  let sig := fieldAt b 44 4
  let l := lanesOfBytes b
  { magic := BitVec.ofNat 32 (fieldAt b 0 4), format := BitVec.ofNat 16 (fieldAt b 4 2), sections := fieldAt b 6 2, length := fieldAt b 8 4,
    imageVer := BitVec.ofNat 32 (fieldAt b 12 4), steppings := BitVec.ofNat 32 (fieldAt b 16 4), buildId := BitVec.ofNat 64 (fieldAt b 24 8),
    buildTime := BitVec.ofNat 64 (fieldAt b 32 8), dirOffset := fieldAt b 40 4, sigOffset := sig, reservedOk := zeroAt b 20 4 && zeroAt b 48 80,
    digest := sha384 (b.take sig), keyId := BitVec.ofNat 32 (fieldAt b sig 4), sigZero := zeroAt b (sig + 4) 12 && zeroAt b (sig + 112) 16,
    sigR := bigAt b (sig + 16) 48, sigS := bigAt b (sig + 64) 48, dir := (List.range (min 64 (fieldAt b 6 2))).map (dirEntryAt b l) }

/-! ### The manifest (R532 to R534) -/

def componentAt (b : List Byte) : Component :=
  { type := fieldAt b 0 1, inst := fieldAt b 1 1, roles := BitVec.ofNat 8 (fieldAt b 2 1), version := BitVec.ofNat 32 (fieldAt b 4 4),
    flashOff := BitVec.ofNat 32 (fieldAt b 8 4), length := BitVec.ofNat 32 (fieldAt b 12 4), param := BitVec.ofNat 32 (fieldAt b 16 4),
    revision := bytesAt b 20 8, digest := BitVec.ofNat 384 (bigAt b 32 48) }

/-- The fields that an entry's TYPE leaves zero are zero (R533). -/
def componentZero (b : List Byte) : Bool :=
  let t := fieldAt b 0 1
  zeroAt b 3 1 && zeroAt b 28 4 && zeroAt b 80 16 && (t == 4 || zeroAt b 1 1) && (t != 4 || zeroAt b 8 8) && (t == 2 || zeroAt b 16 12)

def comboAt (b : List Byte) : Combo :=
  let w := fun (o : Nat) => BitVec.ofNat 32 (fieldAt b o 4)
  { steppings := w 0, roles := BitVec.ofNat 8 (fieldAt b 4 1), tcfVer := w 8, cfwVer := w 12, imageVer := w 16, ucode := words4 4 (b.drop 20),
    peerSteppings := w 36, peerImageVer := w 40, peerCfwVer := w 44 }

/-- The manifest that its bytes spell. Its digest is the one its signature covers: SHA-384 of the bytes before the signature block, as R47 has it of an
image (DEDUCED, log 37). -/
def readManifest (b : List Byte) : Manifest :=
  let nc := min 16 (fieldAt b 6 2)
  let nk := min 32 (fieldAt b 8 2)
  let len := fieldAt b 16 4
  let sig := len - 128
  let comps := records 96 nc (b.drop 64)
  let combos := records 48 nk (b.drop (64 + 96 * nc))
  { magic := BitVec.ofNat 32 (fieldAt b 0 4), format := BitVec.ofNat 16 (fieldAt b 4 2), ncomp := fieldAt b 6 2, ncombo := fieldAt b 8 2,
    components := comps.map componentAt, combos := combos.map comboAt, svn := BitVec.ofNat 16 (fieldAt b 10 2),
    svnFloor := BitVec.ofNat 16 (fieldAt b 12 2), pairSet := BitVec.ofNat 16 (fieldAt b 14 2), length := len, id := BitVec.ofNat 64 (fieldAt b 24 8),
    buildTime := BitVec.ofNat 64 (fieldAt b 32 8),
    reservedOk := zeroAt b 20 4 && zeroAt b 40 24 && comps.all componentZero && combos.all (fun e => zeroAt e 5 3) && zeroAt b (sig + 4) 12 &&
      zeroAt b (sig + 112) 16,
    digest := sha384 (b.take sig), sigKey := BitVec.ofNat 32 (fieldAt b sig 4), sigR := bigAt b (sig + 16) 48, sigS := bigAt b (sig + 64) 48 }

/-! ### The key table (R528) -/

def keyEntryAt (b : List Byte) : KeyEntry :=
  ⟨BitVec.ofNat 32 (fieldAt b 0 4), BitVec.ofNat 32 (fieldAt b 4 4), bigAt b 8 48, bigAt b 56 48⟩

/-- The key table that its bytes spell. -/
def readKeyTable (b : List Byte) : KeyTable :=
  let n := min 16 (fieldAt b 6 2)
  let e := records 112 n (b.drop 64)
  let sig := 64 + 112 * n
  { version := BitVec.ofNat 16 (fieldAt b 8 2), entries := e.map keyEntryAt,
    formed := fieldAt b 0 4 == 0x544B4852 && fieldAt b 4 2 == 1 && decide (1 ≤ fieldAt b 6 2) && decide (fieldAt b 6 2 ≤ 16) && zeroAt b 10 54 &&
      e.all (fun x => zeroAt x 104 8) && zeroAt b (sig + 4) 12 && zeroAt b (sig + 112) 16,
    root := sha384 (bytesAt b 72 96), digest := sha384 (b.take sig), sigR := bigAt b (sig + 16) 48, sigS := bigAt b (sig + 64) 48 }

/-- A table whose entry 0 passes the root-digest check and whose signature verifies under a key (R528, R530). -/
def keyTableGood (rootDigest : BitVec 384) (signer : Option KeyEntry) (t : KeyTable) : Bool :=
  t.formed && t.root == rootDigest &&
  match signer with
  | some k => ecdsaVerify (k.x, k.y) t.digest t.sigR t.sigS
  | none => false

end Sys2Proof.Machine
end

