-- ==== Sys2Proof/Machine/Trust.lean ====
section
/-! DEFINITION. The trust core (21_trust_boot_update.md): the measured boot chain (R537 to R542), staging and activation
(R550 to R555), quotes (R543) and the noise source (R527). -/

namespace Sys2Proof.Machine

/-! ### The boot state (R536) -/

/-- The boot state read: the good copy of higher SEQ (R536). -/
def bootState (s : State) : BootState :=
  match s.trc.boot0, s.trc.boot1 with
  | some a, some b => if a.seq < b.seq then b.state else a.state
  | some a, none => a.state
  | none, some b => b.state
  | none, none => ⟨false, false, false, 0, 2, false, 0, 0, 0, none, false⟩

/-- The boot state written: into the copy of lower SEQ (R536). -/
def putBootState (b : BootState) (s : State) : State :=
  let seq := fun (c : Option BootCopy) => match c with | some x => x.seq + 1 | none => 0
  let top := max (seq s.trc.boot0) (seq s.trc.boot1)
  if seq s.trc.boot0 ≤ seq s.trc.boot1 then { s with trc := { s.trc with boot0 := some ⟨top, b⟩ } }
  else { s with trc := { s.trc with boot1 := some ⟨top, b⟩ } }

/-! ### Flash (R531) -/

/-- `n` bytes of boot flash. -/
def flashRead (s : State) (off n : Nat) : List Byte := (List.range n).map (fun i => smGetD 0xFF (off + i) s.trc.flash)

/-- A power of two of at least 8 MiB and at most 2 GiB. -/
def bankSizeOk (n : Nat) : Bool := (List.range 9).any (fun k => n == 2 ^ (23 + k))

/-- The flash directory: the offsets of bank 0 and bank 1 and the bank size (R531); none where its MAGIC, its CRC-32C or the size is wrong. -/
def flashDir (s : State) : Option (Nat × Nat × Nat) :=
  let d := flashRead s 0 20
  if fieldAt d 0 4 == 0x44464852 && crc32c (d.take 16) == fieldAt d 16 4 && bankSizeOk (fieldAt d 12 4) then some (fieldAt d 4 4, fieldAt d 8 4, fieldAt d 12 4)
  else none

/-- The flash offset at which a bank begins. -/
def bankBase (s : State) (bank : Bool) : Option Nat := (flashDir s).map (fun d => if bank then d.2.1 else d.1)

/-- The size of a bank. -/
def bankSize (s : State) : Nat := match flashDir s with | some d => d.2.2 | none => 0

/-- Bytes of a bank. -/
def bankRead (s : State) (bank : Bool) (off n : Nat) : List Byte := match bankBase s bank with | some b => flashRead s (b + off) n | none => []

/-- The manifest at the start of a flash bank (R531); none where no manifest stands there. -/
def bankManifest (s : State) (bank : Bool) : Option Manifest :=
  match bankBase s bank with
  | some b => let m := readManifest (flashRead s b 3264); if m.magic == 0x464D4852 then some m else none
  | none => none

/-! ### Keys and manifest checks (R528 to R534) -/

/-- The chip's role bit as ROLES numbers it (R533): SINGLE, PAIR_A, PAIR_B. -/
def roleBit (s : State) : Nat := s.get F.CFG_ROLE_ROLE

/-- The installed key table (R528). -/
def keyTable (s : State) : KeyTable := readKeyTable s.trc.keyTab

/-- The key that a KEY_ID names in the installed table. -/
def keyNamed (s : State) (keyId : BitVec 32) : Option KeyEntry := (keyTable s).entries.find? (fun k => k.keyId == keyId)

/-- A key of the installed table allows a use (R529). -/
def keyAllows (s : State) (keyId : BitVec 32) (bit : Nat) : Bool := match keyNamed s keyId with | some k => k.usage.getLsbD bit | none => false

/-- A signature over a digest verifies under the key that KEY_ID names (R47, R529). -/
def signatureGood (s : State) (keyId : BitVec 32) (digest : BitVec 384) (r g : Nat) : Bool :=
  match keyNamed s keyId with
  | some k => ecdsaVerify (k.x, k.y) digest r g
  | none => false

/-- The installed key table passes the ROM's check: its own entry 0 signs it (R528). -/
def installedGood (s : State) : Bool := keyTableGood s.trc.rootDigest ((keyTable s).entries[0]?) (keyTable s)

/-- A component of the manifest carried for a role, by TYPE and INSTANCE (R533). -/
def component (m : Manifest) (role type inst : Nat) : Option Component :=
  m.components.find? (fun c => c.type == type && c.inst == inst && c.roles.getLsbD role)

/-- The version of a component, 0 where it is absent (R534). -/
def componentVersion (m : Manifest) (role type inst : Nat) : BitVec 32 :=
  match component m role type inst with
  | some c => c.version
  | none => 0

/-- A chip of a stepping and role matches a combination entry of the manifest (R534). -/
def comboMatches (m : Manifest) (role : Nat) (c : Combo) : Bool :=
  c.steppings.getLsbD Config.stepping.toNat && c.roles.getLsbD role && c.tcfVer == componentVersion m role 1 0 &&
  c.cfwVer == componentVersion m role 2 0 && c.imageVer == componentVersion m role 3 0 &&
  c.ucode == [0, 1, 2, 3].map (componentVersion m role 4)

/-- The roles a manifest has a structure image for, and in which this chip matches some combination (R534). -/
def chipMatches (m : Manifest) (role : Nat) : Bool := m.combos.any (comboMatches m role)

/-- The header of a manifest is formed as R532 states. -/
def manifestFormed (m : Manifest) : Bool :=
  m.magic == 0x464D4852 && m.format == 1 && decide (1 ≤ m.ncomp ∧ m.ncomp ≤ 16) && decide (1 ≤ m.ncombo ∧ m.ncombo ≤ 32) &&
  decide (m.svnFloor.toNat ≤ m.svn.toNat) && decide (m.length ≤ 3264) && m.length == 192 + 96 * m.ncomp + 48 * m.ncombo && m.reservedOk

/-- A manifest's signature verifies under a key that may sign manifests (R529, R532). -/
def manifestSigned (s : State) (m : Manifest) : Bool := keyAllows s m.sigKey 1 && signatureGood s m.sigKey m.digest m.sigR m.sigS

/-- The bytes of a component as its bank holds them (R533). -/
def componentBytes (s : State) (bank : Bool) (c : Component) : List Byte := bankRead s bank c.flashOff.toNat c.length.toNat

/-- The role a boot takes before the structure image is loaded: the only role the manifest's combinations allow this chip
with its PAIR_ID strap (R21, R533). -/
def bootRole (s : State) (m : Manifest) : Nat :=
  let r := if s.on F.GLB_STRAP_PAIR_ID then 2 else 1
  if chipMatches m 0 && !chipMatches m r then 0 else if chipMatches m r then r else 0

/-! ### Events to the control cores -/

/-- An event posted in TRC_MBOX (R552, R555): the latest is kept and both are counted; source 42 (R441). -/
def mailbox (e : Nat) (s : State) : State :=
  ((s.put F.TRC_MBOX_EVENT e).count F.TRC_MBOX_COUNT).irq 42

/-- The update state shown (R550). -/
def updState (s : State) : Nat := s.get F.TRC_UPD_STAT_STATE

def setUpd (n : Nat) (s : State) : State := s.put F.TRC_UPD_STAT_STATE n

/-! ### Boot records (R539 to R542) -/

/-- The bytes of a record that are signed, 0 to 415 (R539). -/
def recordBody (r : BootRecord) : List Byte :=
  let flags := b2n r.trial + 2 * b2n r.reverted + 4 * b2n r.failed + 8 * b2n r.romWritten
  le 4 0x43524252 ++ le 2 1 ++ le 2 flags ++ le 4 r.bootNum.toNat ++ le 4 r.slot ++ le 8 r.ringTime.toNat ++ le 1 r.stepping.toNat ++
  le 1 r.role.toNat ++ le 2 r.pairSet.toNat ++ le 1 (b2n r.bank) ++ le 1 r.failCode.toNat ++ le 2 r.ktVer.toNat ++
  (le 48 r.prev.toNat).reverse ++ (le 48 r.manifest.toNat).reverse ++ (le 48 r.tcf.toNat).reverse ++ (le 48 r.cfw.toNat).reverse ++
  (le 48 r.str.toNat).reverse ++ le 4 r.tcfVer.toNat ++ le 4 r.cfwVer.toNat ++ le 4 r.imageVer.toNat ++
  fit 16 (r.ucodeVer.flatMap (fun v => le 4 v.toNat)) ++ le 2 r.svn.toNat ++ le 2 r.minSvn.toNat ++ le 4 r.romVer.toNat ++ zeros 12 ++
  (le 48 r.devId.toNat).reverse ++ zeros 48

/-- The 512 bytes of a record (R539). -/
def bootRecordBytes (r : BootRecord) : List Byte := recordBody r ++ (le 96 r.sig.toNat).reverse

/-- The attestation slot of boot n (R541): n − 1 up to 64, then 64 + ((n − 65) mod 1,984). -/
def attestSlot (n : Nat) : Nat := if n ≤ 64 then n - 1 else 64 + (n - 65) % 1984

/-- The record of this boot (R539): `code` is FAIL_CODE, and the digests of steps not reached are zero. -/
def makeRecord (s : State) (m : Option Manifest) (code step : Nat) : BootRecord :=
  let b := bootState s
  let n := b.bootNum + 1
  let role := match m with | some x => bootRole s x | none => 0
  let dig := fun (st type : Nat) => match m with
    | some x => if st ≤ step then (match component x role type 0 with | some c => c.digest | none => 0) else 0
    | none => 0
  let ver := fun (type inst : Nat) => match m with | some x => componentVersion x role type inst | none => 0
  let prev := match smGet (attestSlot b.bootNum.toNat) s.trc.attest with
    | some p => if b.bootNum = 0 then 0 else sha384 (bootRecordBytes p)
    | none => 0
  let r : BootRecord := {
    trial := b.trial, reverted := b.reverted, failed := code != 0, romWritten := code == 2, bootNum := n,
    slot := attestSlot n.toNat, ringTime := s.now, stepping := Config.stepping.setWidth 8, role := BitVec.ofNat 8 role,
    pairSet := match m with | some x => x.pairSet | none => 0, bank := b.active, failCode := BitVec.ofNat 8 code, ktVer := b.ktVer,
    prev := prev, manifest := match m with | some x => if 4 ≤ step then x.digest else 0 | none => 0,
    tcf := dig 4 1, cfw := dig 7 2, str := dig 6 3, tcfVer := ver 1 0, cfwVer := ver 2 0, imageVer := ver 3 0,
    ucodeVer := [0, 1, 2, 3].map (ver 4), svn := match m with | some x => x.svn | none => 0, minSvn := b.minSvn,
    romVer := Config.romVersion.setWidth 32, devId := deviceId s.trc.uds, sig := 0 }
  { r with sig := dikSign s.trc.uds (sha384 (recordBody r)) }

/-- A slot's record carries the next boot's number and verifies under the DIK: it is taken as already written (R542). -/
def recordStands (s : State) (slot : Nat) (n : BitVec 32) : Bool :=
  match smGet slot s.trc.attest with
  | some p => p.bootNum == n && dikVerifies s.trc.uds (sha384 (recordBody p)) p.sig
  | none => false

/-- The record written in the order of R542: slot, read back, BOOT_NUM. `good` says that one of two writes reads back right. -/
def writeBootRecord (r : BootRecord) (good : Bool) (s : State) : State :=
  let done := recordStands s r.slot r.bootNum
  if done || good then
    let s := if done then s else { s with trc := { s.trc with attest := smSet r.slot r s.trc.attest, bootRecord := some r } }
    let s := if done then { s with trc := { s.trc with bootRecord := smGet r.slot s.trc.attest } } else s
    let b := bootState s
    let s := putBootState { b with bootNum := r.bootNum, reverted := false } s
    let s := s.setReg R.TRC_BOOT_NUM r.bootNum
    (s.tally 1).sysEvent 0x4001 0 0xFFFF (sourceOf R.TRC_ID) ((le 48 r.manifest.toNat).reverse.take 16 ++ s.regBytes R.TRC_BOOT_STAT)
  else
    (((s.flag F.TRC_FLT_REC_WRITE).put F.TRC_BOOT_STAT_REC_FAIL 1).cond F.GLB_MODE_COND_SERVICE_HOLD).settle

/-! ### The boot chain (R537, R538) -/

/-- The boot reverts to the previous bank (R538). -/
def revertBoot (s : State) : State :=
  let b := bootState s
  putBootState { b with active := b.previous, trial := false, reverted := true } s

/-- A failure of the chain (R538): in a trial boot at steps 3 to 6 it reverts and resets; else a record with FAILED = 1 is
written, IMAGE_FAIL is set and the harts stay held. -/
def bootFail (code step : Nat) (good : Bool) (m : Option Manifest) (s : State) : State :=
  let s := (s.put F.TRC_BOOT_STAT_FAIL_CODE code).put F.TRC_BOOT_STAT_PHASE 0xF
  if (bootState s).trial && decide (3 ≤ step) then startConfigReset 4 (revertBoot s)
  else
    let s := if step = 1 then s else writeBootRecord (makeRecord s m code step) good s
    (s.cond F.GLB_MODE_COND_IMAGE_FAIL).settle

/-- Step 2 of the chain (R537, R538): the trial rule, the bank, and what an armed or staged set becomes (R555). -/
def bootBank (s : State) : State :=
  let b := bootState s
  let tries := b.tries + 1
  let tooMany := b.trial && decide (max 1 b.trialMax < tries)
  let s := if tooMany then revertBoot (putBootState { b with tries := tries } s)
    else if b.trial then putBootState { b with tries := tries } s else s
  let b := bootState s
  let s := (((s.putB F.TRC_BOOT_STAT_BANK b.active).putB F.TRC_BOOT_STAT_TRIAL b.trial).putB F.TRC_BOOT_STAT_REVERTED b.reverted).put
    F.TRC_BOOT_STAT_TRIES b.tries
  match b.armed with
  | some (t, w, _) =>
    if s.now.toNat < t.toNat + w.toNat * 100000 then
      mailbox 1 (setUpd 4 ((s.setPair R.TRC_ARM_LO R.TRC_ARM_HI t).setReg R.TRC_ARM_WIN w))
    else mailbox 6 ((setUpd 2 (putBootState { b with armed := none } s)).put F.TRC_UPD_STAT_MISSED 1)
  | none => setUpd (if b.trial then 6 else if b.staged then 2 else 0) s

/-- Step 3 (R537): the trust-core firmware that the bank's manifest lists, of at most 192 KiB, verifies under a key with usage bit 0. Its signature block
is its last 128 bytes, laid out as R47's, and covers the bytes before it (DEDUCED, log 37). -/
def firmwareSigned (s : State) (b : List Byte) : Bool :=
  let k := BitVec.ofNat 32 (fieldAt b (b.length - 128) 4)
  decide (128 < b.length) && decide (b.length ≤ 196608) && zeroAt b (b.length - 124) 12 && zeroAt b (b.length - 16) 16 && keyAllows s k 0 &&
  signatureGood s k (sha384 (b.take (b.length - 128))) (bigAt b (b.length - 112) 48) (bigAt b (b.length - 64) 48)

/-- The trust-core firmware of the bank that is booted. -/
def tcfBytes (s : State) (m : Manifest) : List Byte :=
  match component m (bootRole s m) 1 0 with
  | some c => componentBytes s (bootState s).active c
  | none => []

/-- Where the structure image of the bank lies in flash (R531). -/
def imageOffset (s : State) (m : Manifest) : Option Nat :=
  match bankBase s (bootState s).active, component m (bootRole s m) 3 0 with
  | some b, some c => some (b + c.flashOff.toNat)
  | _, _ => none

/-- Step 4 (R537): the manifest, its SVN, the trust-core firmware's own digest, the combination; then the structure image is handed to CFG (step 5). -/
def bootStep4 (m : Manifest) (good : Bool) (s : State) : State :=
  let role := bootRole s m
  if !(manifestFormed m && manifestSigned s m) then bootFail 3 4 good none s
  else if m.svn.toNat < (bootState s).minSvn.toNat then bootFail 4 4 good (some m) s
  else if (component m role 1 0).map (fun c => c.digest) != some (sha384 (tcfBytes s m)) then bootFail 2 4 good (some m) (s.flag F.TRC_FLT_DIGEST)
  else if !chipMatches m role then bootFail 5 4 good (some m) s
  else
    let s := ((s.put F.TRC_SVN_SVN m.svn.toNat).put F.TRC_SVN_MIN_SVN (bootState s).minSvn.toNat).setReg R.TRC_MAN_DIG
      (BitVec.ofNat 32 (unle ((digestBytes m.digest).take 4)))
    let s := s.setReg R.TRC_CFW_VER (componentVersion m role 2 0)
    ({ s with cfg := { s.cfg with handed := imageOffset s m } }).put F.TRC_BOOT_STAT_PHASE 5

/-- Steps 1 to 4 (R537): secrets and key table, bank, trust-core firmware, manifest. -/
def bootToImage (good : Bool) (s : State) : State :=
  let ds := match s.trc.driveSecret with | some (true, _) => 2 | some (false, _) => 1 | none => 0
  let s := { s with trc := { s.trc with derived := true, fuseLocked := true } }
  let s := ((s.put F.TRC_ID_STEPPING Config.stepping.toNat).put F.TRC_ID_ROM_VER Config.romVersion.toNat).put F.TRC_ID_DS_STATE ds
  if !installedGood s then bootFail 1 1 good none (s.put F.TRC_BOOT_STAT_PHASE 1)
  else
    let s := (bootBank (s.put F.TRC_BOOT_STAT_PHASE 2)).put F.TRC_BOOT_STAT_PHASE 3
    match bankManifest s (bootState s).active with
    | none => bootFail 2 3 good none s
    | some m =>
      if !firmwareSigned s (tcfBytes s m) then bootFail 2 3 good none s
      else bootStep4 m good (s.put F.TRC_BOOT_STAT_PHASE 4)

/-- The drive secret and the KEK (R524, R525): a SINGLE chip with none draws one; a PAIR chip without one passes no KEK. -/
def passKek (s : State) : State :=
  let s := match s.trc.driveSecret with
    | some _ => s
    | none =>
      if roleBit s = 0 ∧ !s.trc.trngRefused then
        let (v, s) := s.free 384
        { s with trc := { s.trc with driveSecret := some (false, v) } }.put F.TRC_ID_DS_STATE 1
      else s
  { s with key := { s.key with kek := s.trc.driveSecret.map (fun d => kekOf d.2) } }

/-- Step 6 is ready (R537): DMC0 is present and initialised beyond the last page of the core firmware. -/
def cfwReady (s : State) (c : Component) : Bool :=
  s.on (F.GLB_UNIT_OK0_DMC0) && decide (c.param.toNat + (c.length.toNat + 65535) / 65536 - 1 < s.get (F.DMCn_INIT_PTR_PAGES 0))

/-- Step 6 (R537): the core firmware's bytes copied into firmware-owned buffer pages from PARAM. -/
def loadFirmware (c : Component) (bytes : List Byte) (s : State) : State :=
  let first := c.param.toNat
  let s := forEach (List.range ((c.length.toNat + 65535) / 65536)) (fun i s => setPage (first + i) (some (.owned .firmware)) s) s
  memWrite (65536 * first) (bytes.take c.length.toNat) s

/-- Steps 5 to 7 (R537): the image, the core firmware, the record; the harts are released only with the record written. -/
def bootFromImage (good : Bool) (m : Manifest) (s : State) : State :=
  if s.on F.CFG_LOAD_STAT_FAIL then bootFail 6 5 good (some m) s
  else if !s.on F.CFG_LOAD_STAT_DONE then s
  else
    let s := s.put F.TRC_BOOT_STAT_PHASE 6
    match component m (bootRole s m) 2 0 with
    | none => bootFail 7 6 good (some m) s
    | some cf =>
      if !cfwReady s cf then s
      else
      let bytes := componentBytes s (bootState s).active cf
      let s := loadFirmware cf bytes s
      if sha384 bytes != cf.digest then bootFail 7 6 good (some m) (s.flag F.TRC_FLT_DIGEST)
      else
        let s := passKek (s.put F.TRC_BOOT_STAT_PHASE 7)
        let s := writeBootRecord (makeRecord s (some m) 0 7) good s
        if s.on F.TRC_BOOT_STAT_REC_FAIL then s
        else
          let s := s.setReg R.CCX_RESET_PAGE cf.param
          let s := s.put F.CCX_HART_STAT_RELEASED (s.get F.GLB_UNIT_OK0_CCX)
          { s with trc := { s.trc with hartsHeld := false } }

/-- TRUST_BOOT (R537): the chain goes on from the step it stands at, as far as its next step's condition allows. `rec1` and `rec2` say whether the boot
record reads back right at the first and at the second write (R542). -/
def execTrustBoot (rec1 rec2 : Bool) (s : State) : Host.Outcome State Fault Refusal :=
  let phase := s.get F.TRC_BOOT_STAT_PHASE
  if phase = 0xF ∨ phase = 7 then .next s
  else
    let s := if phase < 5 then bootToImage (rec1 || rec2) s else s
    if s.get F.TRC_BOOT_STAT_PHASE = 5 ∨ s.get F.TRC_BOOT_STAT_PHASE = 6 then
      match bankManifest s (bootState s).active with
      | some m => .next (bootFromImage (rec1 || rec2) m s)
      | none => .next s
    else .next s

/-! ### The service port's own commands (R544 to R549) -/

/-- BAD_FRAME (R546): discarded, counted and answered with CMD 0, TAG 0. -/
def execBadFrame (s : State) : Host.Outcome State Fault Refusal :=
  .next ((s.count F.SVC_CNT_CRC_ERR).reply 0 0 Status.badFrame)

/-- UNKNOWN_COMMAND (R547, R585). -/
def execUnknownCommand (cmd : BitVec 8) (tag : BitVec 16) (s : State) : Host.Outcome State Fault Refusal :=
  .next (s.reply cmd tag Status.unknown)

/-- IDENT (R547): stepping, role, ROM_VER, DEVID, DIK public key, DIK certificate. -/
def execIdent (tag : BitVec 16) (s : State) : Host.Outcome State Fault Refusal :=
  .next (s.cuhar 0 0x01 tag (fun s => s.reply 0x01 tag Status.ok (le 1 Config.stepping.toNat ++ le 1 (roleBit s) ++
    le 4 Config.romVersion.toNat ++ digestBytes (deviceId s.trc.uds) ++ dikPoint s.trc.uds ++ s.trc.certificate)))

/-- CHALLENGE (R547): a fresh nonce from the noise source, refused while draws are refused (R527). -/
def execChallenge (tag : BitVec 16) (s : State) : Host.Outcome State Fault Refusal :=
  .next (s.cuhar 0 0x02 tag (fun s =>
    if s.trc.trngRefused then s.reply 0x02 tag Status.state
    else
      let (v, s) := s.free 384
      ({ s with trc := { s.trc with nonce := some v } }).reply 0x02 tag Status.ok (le 48 v.toNat).reverse))

/-- The signature of an AUTH verifies: over SHA-384 of the nonce followed by the device identity digest (R547). -/
def authGood (s : State) (keyId : BitVec 32) (r g : BitVec 384) : Bool :=
  match s.trc.nonce with
  | some n => signatureGood s keyId (sha384 (digestBytes n ++ digestBytes (deviceId s.trc.uds))) r.toNat g.toNat
  | none => false

/-- AUTH (R547): each nonce serves one AUTH; usage bit 3 gives SERVICE, bit 4 PROVISION; with the key table refused, open commands only (R528). -/
def execAuth (tag : BitVec 16) (keyId : BitVec 32) (r sg : BitVec 384) (s : State) : Host.Outcome State Fault Refusal :=
  .next (s.cuhar 0 0x03 tag (fun s =>
    let good := authGood s keyId r sg && s.get F.TRC_BOOT_STAT_FAIL_CODE != 1 && (keyAllows s keyId 3 || keyAllows s keyId 4)
    let s := { s with trc := { s.trc with nonce := none } }
    if good then (s.put F.SVC_STAT_SESSION (if keyAllows s keyId 4 then 2 else 1)).reply 0x03 tag Status.ok
    else (s.flag F.TRC_FLT_AUTH_FAIL).reply 0x03 tag Status.verifyFail))

/-- The session returns to open (R547): its level and any outstanding nonce. -/
def sessionEnd (s : State) : State :=
  ({ s with trc := { s.trc with nonce := none } }).put F.SVC_STAT_SESSION 0

/-- CLOSE (R547). -/
def execClose (tag : BitVec 16) (s : State) : Host.Outcome State Fault Refusal :=
  .next ((sessionEnd s).reply 0x04 tag Status.ok)

/-- RESULT (R547, R548): SVC_RESULT_STAT and SVC_RESULT_DATA. -/
def execResult (tag : BitVec 16) (s : State) : Host.Outcome State Fault Refusal :=
  .next (s.cuhar 0 0x05 tag (fun s => s.reply 0x05 tag Status.ok (s.regBytes R.SVC_RESULT_STAT ++ s.regBytes R.SVC_RESULT_DATA)))

/-- SESSION_TIMEOUT (R547). -/
def execSessionTimeout (s : State) : Host.Outcome State Fault Refusal := .next (sessionEnd s)

/-- ALIGNMENT_LOSS (R544, R547). -/
def execAlignmentLoss (s : State) : Host.Outcome State Fault Refusal :=
  let s := (sessionEnd s).put F.SVC_STAT_SYNC 0
  .next { s with svc := { s.svc with open_ := false } }

/-- ALIGNMENT_ACQUIRED (R544, SVC_STAT.SYNC). -/
def execAlignmentAcquired (s : State) : Host.Outcome State Fault Refusal :=
  let s := s.put F.SVC_STAT_SYNC 1
  .next { s with svc := { s.svc with open_ := true } }

/-- CUHAR_FLOW_CONTROL (R545): the equipment's K28.3 stops the sending of data characters, its K28.1 lets it go on. -/
def execCuharFlowControl (hold : Bool) (s : State) : Host.Outcome State Fault Refusal :=
  if hold then .next (s.put F.SVC_STAT_PEER_HOLD 1)
  else
    let s := (s.put F.SVC_STAT_PEER_HOLD 0).emitAll s.svc.held
    .next { s with svc := { s.svc with held := [] } }

/-! ### Firmware frames (R549) -/

/-- The words of a byte list, zero-padded (R549). -/
def wordsOf : List Byte → List Word
  | a :: b :: c :: d :: t => (d ++ c ++ b ++ a) :: wordsOf t
  | [a, b, c] => [(0 : Byte) ++ c ++ b ++ a]
  | [a, b] => [(0 : Byte) ++ (0 : Byte) ++ b ++ a]
  | [a] => [(0 : Byte) ++ (0 : Byte) ++ (0 : Byte) ++ a]
  | [] => []

/-- K28.3 at 16 free entries or fewer, K28.1 at 48 or more (R545). -/
def svcHoldUpdate (s : State) : State :=
  let n := s.svc.rx.length
  if !s.svc.holding && decide (48 ≤ n) then { s with svc := { s.svc with holding := true } }.emit (.cuharHold true)
  else if s.svc.holding && decide (n ≤ 16) then { s with svc := { s.svc with holding := false } }.emit (.cuharHold false)
  else s

/-- FIRMWARE_FRAME (R547, R549): a command 0x80 to 0xBF enters the SVC receive FIFO as a header word and the payload words;
words beyond the FIFO's 64 entries wait behind it under the flow control of R545. -/
def execFirmwareFrame (cmd : BitVec 8) (tag : BitVec 16) (payload : List Byte) (s : State) : Host.Outcome State Fault Refusal :=
  .next (s.cuhar 1 cmd tag (fun s =>
    let h : Word := (tag.extractLsb' 0 8) ++ (BitVec.ofNat 16 payload.length) ++ cmd
    svcHoldUpdate (({ s with svc := { s.svc with rx := s.svc.rx ++ h :: wordsOf payload, fwFrame := some (cmd, tag) } }).iff s.svc.rx.isEmpty (fun s => s.irq 41))))

/-- FIRMWARE_FRAME_TIMEOUT (R549): unanswered for 1 s, TRC answers STATE. -/
def execFirmwareFrameTimeout (s : State) : Host.Outcome State Fault Refusal :=
  match s.svc.fwFrame with
  | some (cmd, tag) => .next (({ s with svc := { s.svc with fwFrame := none, tx := [] } }).reply cmd tag Status.state)
  | none => .next s

/-- A read of SVC_RX_DATA pops the next word, zero when empty (R549, R557). -/
def svcPop (s : State) : Word × State :=
  match s.svc.rx with
  | [] => (0, s)
  | w :: t => (w, svcHoldUpdate { s with svc := { s.svc with rx := t } })

/-- A write of SVC_TX_DATA (R549): once the header's LEN bytes have come, TRC frames the answer with FLAGS bit 1 set. -/
def svcPush (w : Word) (s : State) : State :=
  let tx := s.svc.tx ++ [w]
  match tx with
  | [] => s
  | h :: body =>
    let len := (h.extractLsb' 8 16).toNat
    if (len + 3) / 4 ≤ body.length then
      let payload := (body.flatMap (fun x => le 4 x.toNat)).take len
      match s.svc.fwFrame with
      | some (cmd, tag) => ({ s with svc := { s.svc with tx := [], fwFrame := none } }).svcSend (cuharFrame cmd tag Status.ok true payload)
      | none => { s with svc := { s.svc with tx := [] } }
    else { s with svc := { s.svc with tx := tx } }

/-! ### Records and quotes (R541, R543) -/

/-- RECORD_READ (R547): the 512 bytes of an attestation slot. -/
def execRecordRead (tag slot : BitVec 16) (s : State) : Host.Outcome State Fault Refusal :=
  .next (s.cuhar 0 0x30 tag (fun s =>
    if 2048 ≤ slot.toNat then s.reply 0x30 tag Status.badArg
    else s.reply 0x30 tag Status.ok (match smGet slot.toNat s.trc.attest with | some r => bootRecordBytes r | none => zeros 512)))

/-- QUOTE (R543, R548): answered PENDING; VALID is cleared and the rest of the last result kept. -/
def execQuote (tag : BitVec 16) (nonce : BitVec 384) (s : State) : Host.Outcome State Fault Refusal :=
  .next (s.cuhar 0 0x31 tag (fun s =>
    ({ s.put F.SVC_RESULT_STAT_VALID 0 with trc := { s.trc with longCmd := some 0x31, quoteNonce := some nonce } }).reply 0x31 tag Status.pending))

/-- QUOTE_DONE (R543): the 208 bytes are formed and the result posted (R548). -/
def execQuoteDone (s : State) : Host.Outcome State Fault Refusal :=
  match s.trc.quoteNonce with
  | none => .next s
  | some nonce =>
    let rec_ := match s.trc.bootRecord with | some r => bootRecordBytes r | none => zeros 512
    let body := (le 48 nonce.toNat).reverse ++ digestBytes (sha384 rec_) ++ le 8 s.now.toNat ++ le 4 (s.reg R.TRC_BOOT_NUM).toNat ++
      zeros 4
    let q := body ++ (le 96 (dikSign s.trc.uds (sha384 body)).toNat).reverse
    let s := { s with trc := { s.trc with longCmd := none, quoteNonce := none, quote := some q } }
    .next (s.resultPost 0x31 Status.ok 0)

/-- QUOTE_READ (R547): the 208 bytes of the last quote, STATE where there is none. -/
def execQuoteRead (tag : BitVec 16) (s : State) : Host.Outcome State Fault Refusal :=
  .next (s.cuhar 0 0x32 tag (fun s =>
    match s.trc.quote with
    | some q => s.reply 0x32 tag Status.ok q
    | none => s.reply 0x32 tag Status.state))

/-! ### Staging and activation (R550 to R555) -/

/-- The manifest of the bank that is not active, which staging writes. -/
def stagedManifest (s : State) : Option Manifest := bankManifest s (!(bootState s).active)

/-- Bytes put at rising offsets. -/
def stagePut (off : Nat) : List Byte → SMap Byte → SMap Byte
  | [], m => m
  | b :: t, m => stagePut (off + 1) t (smPut 0xFF off b m)

/-- Bytes written into the bank that is not active. -/
def stageWrite (off : Nat) (l : List Byte) (s : State) : State :=
  match bankBase s (!(bootState s).active) with
  | some b => { s with trc := { s.trc with flash := stagePut (b + off) l s.trc.flash } }
  | none => s

/-- STAGE_BEGIN (R550, R532, R535): from IDLE, STAGED or STAGING (R555), with a manifest that verifies and is not below MIN_SVN; it is written at the
start of the bank. -/
def execStageBegin (tag : BitVec 16) (man : List Byte) (s : State) : Host.Outcome State Fault Refusal :=
  .next (s.cuhar 1 0x20 tag (fun s =>
    let m := readManifest man
    if 2 < updState s then s.reply 0x20 tag Status.state
    else if !(decide (man.length = m.length) && manifestFormed m && manifestSigned s m) || decide (m.svn.toNat < (bootState s).minSvn.toNat) then
      s.reply 0x20 tag Status.verifyFail
    else (setUpd 1 (putBootState { bootState s with staged := false } (stageWrite 0 man s))).reply 0x20 tag Status.ok))

/-- STAGE_DATA (R547, R550): 1 to 4,096 bytes at a bank offset, in STAGING. -/
def execStageData (tag : BitVec 16) (off : BitVec 32) (data : List Byte) (s : State) : Host.Outcome State Fault Refusal :=
  .next (s.cuhar 1 0x21 tag (fun s =>
    if updState s ≠ 1 then s.reply 0x21 tag Status.state
    else if data.length = 0 ∨ 4096 < data.length ∨ bankSize s < off.toNat + data.length then s.reply 0x21 tag Status.badArg
    else (stageWrite off.toNat data s).reply 0x21 tag Status.ok))

/-- STAGE_END (R551, R548): answered PENDING. -/
def execStageEnd (tag : BitVec 16) (s : State) : Host.Outcome State Fault Refusal :=
  .next (s.cuhar 1 0x22 tag (fun s =>
    if updState s ≠ 1 then s.reply 0x22 tag Status.state
    else ({ s.put F.SVC_RESULT_STAT_VALID 0 with trc := { s.trc with longCmd := some 0x22 } }).reply 0x22 tag Status.pending))

/-- The USTORE digests of a structure image (R46), by instance. -/
def storeDigest (img : Image) (inst : Nat) : Option (BitVec 384) :=
  (img.dir.find? (fun d => d.inst == inst && match d.body with | .ustore _ => true | _ => false)).map (fun d => d.digest)

/-- What a stored component fails of STAGE_END's checks (R551): that it lies within the bank, its digest against the manifest (a microcode store's is
judged in the image that carries it), and the signature with its key's usage of trust-core firmware and of the structure image. -/
def componentFault (s : State) (m : Manifest) (c : Component) : Option (BitVec 8) :=
  let bank := !(bootState s).active
  let b := componentBytes s bank c
  let img := readImage b
  if bankSize s < c.flashOff.toNat + c.length.toNat then some 0x07
  else if c.type = 1 then
    if sha384 b != c.digest then some 0x05
    else if !keyAllows s (BitVec.ofNat 32 (fieldAt b (b.length - 128) 4)) 0 then some 0x06
    else if firmwareSigned s b then none else some 0x01
  else if c.type = 3 then
    if img.digest != c.digest then some 0x05
    else if !keyAllows s img.keyId 2 then some 0x06
    else if img.sigZero && signatureGood s img.keyId img.digest img.sigR img.sigS then none else some 0x01
  else if c.type = 4 then
    match component m (bootRole s m) 3 0 with
    | some i => if storeDigest (readImage (componentBytes s bank i)) c.inst == some c.digest then none else some 0x05
    | none => some 0x05
  else if sha384 b != c.digest then some 0x05
  else none

/-- The components of this chip's role with their indexes in the manifest; the others are listed for the combination check alone (R533). -/
def ownComponents (s : State) (m : Manifest) : List (Nat × Component) :=
  ((List.range m.components.length).zip m.components).filter (fun e => e.2.roles.getLsbD (bootRole s m))

/-- What STAGE_END's checks come to (R551): the flash read, then each stored component in the manifest's order, then the combination (the order is
DESIGN CHOICE, log 37). -/
def stageOutcome (s : State) (flashError : Option (BitVec 8)) : Option (BitVec 8 × BitVec 8) :=
  match flashError, stagedManifest s with
  | some i, _ => some (i, 0x08)
  | none, none => some (0xFF, 0x02)
  | none, some m =>
    match (ownComponents s m).findSome? (fun e => (componentFault s m e.2).map (fun c => (BitVec.ofNat 8 e.1, c))) with
    | some f => some f
    | none => if chipMatches m (bootRole s m) then none else some (0xFF, 0x04)

/-- STAGE_CHECK_DONE (R550, R551): `flashError` is the component, 0xFF for the manifest, that the flash could not read back. -/
def execStageCheckDone (flashError : Option (BitVec 8)) (s : State) : Host.Outcome State Fault Refusal :=
  if updState s ≠ 1 ∨ s.trc.longCmd ≠ some 0x22 then .next s
  else
    let s := { s with trc := { s.trc with longCmd := none } }
    match stageOutcome s flashError with
    | none =>
      let s := putBootState { bootState s with staged := true } s
      .next ((mailbox 2 (setUpd 2 s)).resultPost 0x22 Status.ok 0)
    | some (i, c) =>
      .next ((mailbox 3 ((setUpd 0 s).put F.TRC_UPD_STAT_STAGE_FAIL 1)).resultPost 0x22 Status.verifyFail (i ++ (0 : BitVec 16) ++ c))

/-- ARM (R550): names the staged manifest, with T at least 1 s ahead and W from 1,000 to 3,600,000 ms. -/
def execArm (tag : BitVec 16) (t : Dword) (w : BitVec 32) (digest : BitVec 128) (s : State) : Host.Outcome State Fault Refusal :=
  .next (s.cuhar 1 0x23 tag (fun s =>
    if updState s ≠ 2 then s.reply 0x23 tag Status.state
    else
      let named := match stagedManifest s with | some m => m.digest.extractLsb' 256 128 == digest | none => false
      if !named || decide (t.toNat < s.now.toNat + 100000000) || decide (w.toNat < 1000) || decide (3600000 < w.toNat) then
        s.reply 0x23 tag Status.badArg
      else
        let s := putBootState { bootState s with armed := some (t, w, digest) } s
        let s := (s.setPair R.TRC_ARM_LO R.TRC_ARM_HI t).setReg R.TRC_ARM_WIN w
        (mailbox 4 (setUpd 3 s)).reply 0x23 tag Status.ok))

/-- The armed activation cleared: the boot state and the registers that show it (R550, R556). -/
def disarmed (s : State) : State :=
  let s := putBootState { bootState s with armed := none } s
  (s.setPair R.TRC_ARM_LO R.TRC_ARM_HI 0).setReg R.TRC_ARM_WIN 0

/-- DISARM (R550): from ARMED or DUE. -/
def execDisarm (tag : BitVec 16) (s : State) : Host.Outcome State Fault Refusal :=
  .next (s.cuhar 1 0x24 tag (fun s =>
    if updState s = 3 ∨ updState s = 4 then (mailbox 5 (setUpd 2 (disarmed s))).reply 0x24 tag Status.ok
    else s.reply 0x24 tag Status.state))

/-- REVERT (R554): in CONFIGURE or SERVICE, while CONFIRMED, with a previous bank whose manifest passes R535 and R534. -/
def execRevert (tag : BitVec 16) (s : State) : Host.Outcome State Fault Refusal :=
  .next (s.cuhar 1 0x25 tag (fun s =>
    let b := bootState s
    let ok := match bankManifest s b.previous with
      | some m => decide (b.minSvn.toNat ≤ m.svn.toNat) && chipMatches m (bootRole s m)
      | none => false
    if (s.mode = Mode.configure ∨ s.mode = Mode.service) ∧ (!b.trial && ok) then
      startConfigReset 3 ((putBootState { b with active := b.previous, trial := true, tries := 0 } s).reply 0x25 tag Status.ok)
    else s.reply 0x25 tag Status.state))

/-- HOLD (R547): SERVICE_HOLD. -/
def execHold (tag : BitVec 16) (s : State) : Host.Outcome State Fault Refusal :=
  .next (s.cuhar 1 0x26 tag (fun s => ((s.cond F.GLB_MODE_COND_SERVICE_HOLD).settle).reply 0x26 tag Status.ok))

/-- PROVISION (R525, R547): only while no DS is recorded; a boot that waited for it then passes the KEK. -/
def execProvision (tag : BitVec 16) (ds : BitVec 384) (s : State) : Host.Outcome State Fault Refusal :=
  .next (s.cuhar 2 0x27 tag (fun s =>
    if s.trc.driveSecret.isSome then s.reply 0x27 tag Status.state
    else
      let s := { s with trc := { s.trc with driveSecret := some (true, ds) } }.put F.TRC_ID_DS_STATE 2
      let s := if s.get F.TRC_BOOT_STAT_PHASE = 7 then { s with key := { s.key with kek := some (kekOf ds) } } else s
      s.reply 0x27 tag Status.ok))

/-- ACTIVATION_DUE (R550, R552): ring time reaches T while ARMED. -/
def execActivationDue (s : State) : Host.Outcome State Fault Refusal :=
  if updState s = 3 ∧ (s.pair R.TRC_ARM_LO R.TRC_ARM_HI).toNat ≤ s.now.toNat then .next (mailbox 1 (setUpd 4 s)) else .next s

/-- Ring time has reached T + W (R550). -/
def windowOver (s : State) : Bool :=
  decide ((s.pair R.TRC_ARM_LO R.TRC_ARM_HI).toNat + (s.reg R.TRC_ARM_WIN).toNat * 100000 ≤ s.now.toNat)

/-- The window ended without GO (R550). -/
def windowMissedEff (s : State) : State := mailbox 6 ((setUpd 2 (disarmed s)).put F.TRC_UPD_STAT_MISSED 1)

/-- WINDOW_MISSED (R550). -/
def execWindowMissed (s : State) : Host.Outcome State Fault Refusal :=
  if (updState s = 3 ∨ updState s = 4) ∧ windowOver s then .next (windowMissedEff s) else .next s

/-- GO is accepted (R552): DUE, no dirty block, no journal entry pending or being flushed, every SVn in OFF, PARKED or FAULT. -/
def goAccepted (s : State) : Bool :=
  updState s == 4 && s.get F.BUF_WC_DIRTY_BLOCKS == 0 && s.get F.BND_JNL_STAT_PENDING == 0 && !s.on F.BND_JNL_STAT_FLUSHING &&
  lanes.all (fun n => let st := s.get (F.SVn_STAT_STATE n); st == 0 || st == 1 || st == 9)

/-- A write of TRC_UPD_CMD.GO (R552, R553, R555). -/
def goEff (s : State) : State :=
  if (updState s = 3 ∨ updState s = 4) ∧ windowOver s then windowMissedEff s
  else if goAccepted s then
    let b := bootState s
    let s := disarmed (setUpd 5 s)
    let s := putBootState { bootState s with previous := b.active, active := !b.active, trial := true, tries := 0, trialMax := max 1 (s.get F.TRC_UPD_CFG_TRIAL_MAX), staged := false } s
    startConfigReset 2 s
  else s.put F.TRC_UPD_STAT_GO_REJ 1

/-- GO (R552). -/
def execGo (s : State) : Host.Outcome State Fault Refusal := .next (goEff s)

/-- A key table installed at confirmation if it passes R530, else KEYTAB. -/
def installKeyTable (bytes : List Byte) (s : State) : State :=
  let t := readKeyTable bytes
  if (keyTable s).version.toNat < t.version.toNat ∧ keyTableGood s.trc.rootDigest ((keyTable s).entries[0]?) t then
    putBootState { bootState s with ktVer := t.version } { s with trc := { s.trc with keyTab := bytes } }
  else s.flag F.TRC_FLT_KEYTAB

/-- A write of TRC_UPD_CMD.CONFIRM (R554): ignored outside TRIAL. -/
def confirmEff (s : State) : State :=
  if updState s ≠ 6 then s
  else
    let b := bootState s
    let m := bankManifest s b.active
    let floor := match m with | some m => m.svnFloor | none => 0
    let newMin := if b.minSvn.toNat < floor.toNat then floor else b.minSvn
    let s := putBootState { b with trial := false, minSvn := newMin } s
    let s := (setUpd 0 s).put F.TRC_SVN_MIN_SVN newMin.toNat
    match m.bind (fun m => component m (bootRole s m) 5 0) with
    | some c => installKeyTable (componentBytes s b.active c) s
    | none => s

/-- CONFIRM (R554). -/
def execConfirm (s : State) : Host.Outcome State Fault Refusal := .next (confirmEff s)

/-- TRNG_HEALTH_FAIL (R527): a continuous test fails and the start-up test is repeated; after three failed repeats in a row
draws are refused. -/
def execTrngHealthFail (repeatPassed : Bool) (s : State) : Host.Outcome State Fault Refusal :=
  if repeatPassed then .next { s with trc := { s.trc with trngFails := 0 } }
  else
    let n := s.trc.trngFails + 1
    let s := { s with trc := { s.trc with trngFails := n } }
    if 3 ≤ n then .next (({ s with trc := { s.trc with trngRefused := true } }.flag F.TRC_FLT_TRNG).flag F.KEY_FLT_TRNG) else .next s

end Sys2Proof.Machine
end

