-- ==== Sys2Proof/Machine/Standings.lean ====
section
/-! DEFINITION. The Standings summary (22_recorder_tally_standings.md, R576 to R578): the latched ledgers in their 256 bytes, and the rows by
which firmware and the service port ask for one. -/

namespace Sys2Proof.Machine

/-- Balance of each ledger (R576): pages (R424), slots (R355), tokens (R111), the Baton link's never, DMA credits (R465), mirroring. -/
def balancedBits (s : State) : Nat :=
  let pages := s.get F.BUF_PAGE_TOTAL_COUNT == s.get F.BUF_PAGE_FREE_COUNT + s.get F.BUF_PAGE_OWNED_COUNT + s.get F.BUF_PAGE_QUAR_COUNT
  let slots := s.get F.QE_SLOT_FREE_FREE + s.get F.QE_SLOT_FREE_ACTIVE + s.get F.QE_SLOT_HELD_HELD == 16384
  let tokens := s.get F.LDP_TOK_STAT_LOST + s.get F.LDP_TOK_STAT_FREE + s.get F.LDP_TOK_STAT_LANE0 + s.get F.LDP_TOK_STAT_LANE1 + s.get F.LDP_TOK_STAT_LANE2 +
    s.get F.LDP_TOK_STAT_LANE3 == 12
  let credits := s.get F.DMA_CRED_FREE + s.get F.DMA_CRED_HELD == 256
  let mirrors := s.bat.macks.isEmpty && (!mirroring s || s.get F.BUF_WC_DIRTY_BLOCKS == s.get F.BUF_WC_MIRR_BLOCKS)
  b2n pages + 2 * b2n slots + 4 * b2n tokens + 16 * b2n credits + 32 * b2n mirrors

/-- The ledgers latched inside a movement (R576, R577): every step being whole, only Baton credits still to be carried back (R487) and mirrors that
await MACK. -/
def inflightBits (s : State) : Nat := 8 * s.get F.BAT_CRED_INFLIGHT + 32 * b2n (!s.bat.macks.isEmpty)

/-- The lane entry of a summary (R577). -/
def standingsLane (s : State) (n : Lane) : List Byte :=
  let flags := b2n (lanePresent s n) + 2 * b2n (owns s (actOf s n)) + 4 * b2n (inService s n) + 8 * b2n (s.glb.lost0.getLsbD (12 + n)) + 16 * s.get (F.LNn_RTY_STAT_ACTIVE n) +
    32 * b2n (s.on (F.LNn_VFY_STAT_PENDING n))
  let queued := (queuedOf s (actOf s n)).length
  [BitVec.ofNat 8 flags, BitVec.ofNat 8 (s.get (F.SVn_STAT_STATE n) + 16 * s.get (F.MSn_STAT_STATE n)), BitVec.ofNat 8 (s.get (F.LNn_STAT_ZONE n)),
    BitVec.ofNat 8 (s.get (F.LNn_STAT_HEAD n) + 16 * (actOf s n).val)] ++ le 2 (min 65535 queued) ++ [BitVec.ofNat 8 (levelOf s (actOf s n)), 0]

/-- Bytes 156 to 191 of a summary: the pending activation (R577, R550). -/
def standingsUpdate (s : State) : List Byte :=
  let b := bootState s
  let m := stagedManifest s
  let flags := b2n b.trial + 2 * b2n b.reverted + 4 * s.get F.TRC_UPD_STAT_MISSED + 8 * b2n b.staged
  let (t, w) := match b.armed with | some (t, w, _) => (t.toNat, w.toNat) | none => (0, 0)
  let digest := match m with | some x => if b.staged then (le 48 x.digest.toNat).reverse.take 16 else zeros 16 | none => zeros 16
  let svn := match m with | some x => if b.staged then x.svn.toNat else 0 | none => 0
  [BitVec.ofNat 8 (updState s), BitVec.ofNat 8 flags, 0, 0] ++ le 8 t ++ le 4 w ++ digest ++ le 2 svn ++ le 2 b.minSvn.toNat

/-- Bytes 0 to 251 of a summary with its GENERATION, its requester (0 firmware, 1 host, 2 service port) (R577). -/
def standingsBody (gen who : Nat) (s : State) : List Byte :=
  let f := fun (x : Fld) (n : Nat) => le n (s.get x)
  let drops := min 0xFFFFFFFF (s.get F.EVR_DROP_FULL_COUNT + s.get F.EVR_DROP_FRZ_COUNT + s.get F.EVR_DROP_OTHER_COUNT)
  let head := le 4 0x54534852 ++ le 2 1 ++ le 2 256 ++ le 8 gen ++ le 8 s.now.toNat ++ s.regBytes R.TRC_BOOT_NUM ++
    le 4 (b2n (inflightBits s != 0) + who * 2 + 8 * s.get F.MOC_STAT_SYNC)
  let modes := s.regBytes R.GLB_MODE ++ s.regBytes R.GLB_MODE_COND ++ s.regBytes R.GLB_UNIT_OK0 ++ s.regBytes R.GLB_UNIT_OK1 ++ s.regBytes R.GLB_STICKY ++
    s.regBytes R.GLB_FIFO_OVF
  let pages := f F.BUF_PAGE_TOTAL_COUNT 4 ++ f F.BUF_PAGE_FREE_COUNT 4 ++ f F.BUF_PAGE_OWNED_COUNT 4 ++ f F.BUF_PAGE_QUAR_COUNT 4 ++ f F.BUF_WC_DIRTY_BLOCKS 4 ++
    f F.BUF_WC_MIRR_BLOCKS 4
  let slots := f F.QE_SLOT_FREE_FREE 2 ++ f F.QE_SLOT_FREE_ACTIVE 2 ++ f F.QE_SLOT_HELD_HELD 2 ++ f F.QE_SLOT_HELD_CQ_FULL 2
  let tokens := f F.LDP_TOK_STAT_LOST 1 ++ f F.LDP_TOK_STAT_FREE 1 ++ f F.LDP_TOK_STAT_LANE0 1 ++ f F.LDP_TOK_STAT_LANE1 1 ++ f F.LDP_TOK_STAT_LANE2 1 ++
    f F.LDP_TOK_STAT_LANE3 1
  let credits := f F.BAT_CRED_AVAIL 2 ++ f F.BAT_CRED_RX_HELD 2 ++ f F.DMA_CRED_FREE 2 ++ f F.DMA_CRED_HELD 2
  let bits := [BitVec.ofNat 8 (inflightBits s), BitVec.ofNat 8 (balancedBits s)]
  let lanes_ := lanes.flatMap (standingsLane s)
  let spindle := f F.SPM_STAT_STATE 1 ++ f F.SPM_STAT_CAD 1 ++ f F.PWR_TEMP_TJ 1 ++ f F.PWR_STAT_THERM 1 ++ s.regBytes R.SPM_SPEED
  let evr := f F.EVR_NEXT_NEXT 4 ++ le 4 drops ++ [BitVec.ofNat 8 (s.get F.EVR_STAT_FULL + 2 * b2n s.frozen + 4 * s.get F.EVR_STAT_LOG_FAILED)] ++
    f F.EVR_STAT_EPI_USED 1 ++ f F.EVR_STAT_EPOCH 2
  let tail := s.regBytes R.BND_STAT ++ s.regBytes R.BND_CKPT_NUM ++ le 6 (seqNext s) ++ le 2 s.buf.lwl.length ++ s.regBytes R.BAT_STAT ++ s.regBytes R.BAT_OWN_STAT ++
    s.regBytes R.TLY_STAT
  fit 252 (head ++ modes ++ pages ++ slots ++ tokens ++ credits ++ bits ++ lanes_ ++ spindle ++ evr ++ standingsUpdate s ++ tail)

/-- A summary with its CRC, and the state with its GENERATION counted (R576, R577). -/
def standingsTake (who : Nat) (s : State) : List Byte × State :=
  let gen := s.evr.generation.toNat + 1
  let body := standingsBody gen who s
  (body ++ le 4 (crc32c body), { s with evr := { s.evr with generation := BitVec.ofNat 64 gen } })

/-- A write of EVR_STD_REQ (R578): VALID clears, BUSY is set. -/
def standingsRequestEff (s : State) : State := (s.put F.EVR_STD_STAT_VALID 0).put F.EVR_STD_STAT_BUSY 1

/-! ### The command registers of EVR, Tally and MOC -/

/-- FIRMWARE_RECORD (R559): a write of EVR_FW_CODE. -/
def execFirmwareRecord (code : Word) (s : State) : Host.Outcome State Fault Refusal := .next (s.command R.EVR_FW_CODE code (firmwareRecordEff code))

/-- TALLY_COMMIT_COMMAND (R571): TLY_CMD.COMMIT written 1. -/
def execTallyCommitCommand (bad : List Nat) (s : State) : Host.Outcome State Fault Refusal := .next (s.command R.TLY_CMD 1 (tlyCommitAll bad))

/-- TALLY_INC (R575): a write of TLY_INC. -/
def execTallyInc (data : Word) (s : State) : Host.Outcome State Fault Refusal := .next (s.command R.TLY_INC data (tallyIncEff data))

/-- TALLY_HIST (R575): a write of TLY_HIST. -/
def execTallyHist (data : Word) (s : State) : Host.Outcome State Fault Refusal := .next (s.command R.TLY_HIST data (tallyHistEff data))

/-- ENUM_COMMAND (R580): a write of MOC_CMD. -/
def execEnumCommand (data : Word) (s : State) : Host.Outcome State Fault Refusal := .next (s.command R.MOC_CMD data (enumCommandEff data))

/-- STANDINGS_REQUEST (R578): REQ written 1. -/
def execStandingsRequest (data : Word) (s : State) : Host.Outcome State Fault Refusal :=
  .next (s.command R.EVR_STD_REQ data (fun s => if data.getLsbD 0 then standingsRequestEff s else s))

/-- STANDINGS_COMPLETE (R576, R578): the summary that firmware asked for is complete. -/
def execStandingsComplete (s : State) : Host.Outcome State Fault Refusal :=
  if !s.on F.EVR_STD_STAT_BUSY then .next s
  else
    let (l, s) := standingsTake 0 s
    .next (({ s with evr := { s.evr with summary := l } }.put F.EVR_STD_STAT_VALID 1).put F.EVR_STD_STAT_BUSY 0)

/-- STANDINGS (R578, R585): the response carries the summary. -/
def execStandings (tag : BitVec 16) (s : State) : Host.Outcome State Fault Refusal :=
  .next (s.cuhar 0 0x40 tag (fun s => let (l, s) := standingsTake 2 s; s.reply 0x40 tag Status.ok l))

end Sys2Proof.Machine
end

