-- ==== Sys2Proof/Machine/Identify.lean ====
section
/-! DEFINITION. What controllers return to hosts (13_host_ports_and_functions.md, R333 to R341, R344, R508): the Identify data structures and the log
pages as bytes. The places of the fields that the spec names without giving are those of NVMe Base 2.0 and its command sets (log 28). -/

namespace Sys2Proof.Machine

/-- `n` bytes, zero but for fields laid at their offsets. -/
def layOut (n : Nat) (fields : List (Nat × List Byte)) : List Byte :=
  fields.foldl (fun l f => l.take f.1 ++ f.2 ++ l.drop (f.1 + f.2.length)) (zeros n)

/-- SCT and SC of a status (R375, NVMe Base 2.0) (log 28). -/
def statusCode : NvStatus → Nat
  | .success => 0x000
  | .invalidOpcode => 0x001
  | .invalidField => 0x002
  | .dataTransfer => 0x004
  | .internalError => 0x006
  | .abortedByRequest => 0x007
  | .sqDeleted => 0x008
  | .invalidNamespace => 0x00B
  | .sequenceError => 0x00C
  | .prpOffset => 0x013
  | .writeProtected => 0x020
  | .lbaRange => 0x080
  | .sizeLimit => 0x183
  | .invalidCq => 0x100
  | .invalidQueueId => 0x101
  | .invalidQueueSize => 0x102
  | .abortLimit => 0x103
  | .asyncLimit => 0x105
  | .invalidVector => 0x108
  | .invalidLogPage => 0x109
  | .invalidQueueDeletion => 0x10C
  | .featureNotSaveable => 0x10D
  | .insufficientCapacity => 0x115
  | .nsIdUnavailable => 0x116
  | .nsAttached => 0x118
  | .nsNotAttached => 0x11A
  | .controllerListInvalid => 0x11C
  | .invalidControllerId => 0x11F
  | .invalidControllerResources => 0x121
  | .invalidResourceId => 0x122
  | .zoneBoundary => 0x1B8
  | .zoneFull => 0x1B9
  | .zoneOffline => 0x1BB
  | .zoneInvalidWrite => 0x1BC
  | .tooManyActiveZones => 0x1BD
  | .zoneTransition => 0x1BF
  | .writeFault => 0x280
  | .unrecoveredRead => 0x281
  | .guardCheck => 0x282
  | .appTagCheck => 0x283
  | .refTagCheck => 0x284
  | .compareFailure => 0x285
  | .accessDenied => 0x286
  | .anaPersistentLoss => 0x301
  | .anaInaccessible => 0x302
  | .anaTransition => 0x303

/-! ### Identify Controller (R334, R508) -/

/-- FR: the core firmware revision of the active manifest entry (R334). -/
def frText (s : State) : List Byte :=
  match (bankManifest s (bootState s).active).bind (fun m => component m (roleBit s) 2 0) with
  | some c => c.revision
  | none => zeros 8

/-- A UUID's text of 36 characters (R334). -/
def uuidText (u : List Byte) : List Byte :=
  let hex := fun (b : Byte) => [Nat.digitChar (b.toNat / 16), Nat.digitChar (b.toNat % 16)].map (fun c => BitVec.ofNat 8 c.toNat)
  let part := fun (i n : Nat) => ((u.drop i).take n).flatMap hex
  part 0 4 ++ label "-" ++ part 4 2 ++ label "-" ++ part 6 2 ++ label "-" ++ part 8 2 ++ label "-" ++ part 10 6

/-- SUBNQN: the NVMe UUID form, with the drive UUID of the drive secret (R334, R524). -/
def subnqn (s : State) : List Byte :=
  label "nqn.2014-08.org.nvmexpress:uuid:" ++ (match s.trc.driveSecret with | some d => uuidText (driveUuid d.2) | none => zeros 36)

/-- NGUID of a namespace (R344, R524). -/
def nguid (s : State) (k : Nat) : List Byte := match s.trc.driveSecret with | some d => nguidOf d.2 k | none => zeros 16

/-- A power-state descriptor (R508). -/
def psd (s : State) (k : Nat) : List Byte :=
  let mp := ((s.reg (R.PWR_PSD_MP0 + 4 * k)).extractLsb' 0 16).toNat
  let nops : Nat := if 3 ≤ k then 2 else 0
  le 2 mp ++ [0, BitVec.ofNat 8 nops] ++ le 4 (enLat s k * 1000) ++ le 4 (exLat s k * 1000) ++ List.replicate 4 (BitVec.ofNat 8 k) ++ zeros 16

/-- Data bands of the actuators of a set (R334, R345). -/
def setBands (s : State) (set_ : List Lane) : Nat := (set_.map (fun a => (bandsOfKind s a.val 0).length)).sum

/-- TNVMCAP (R334): the data bands of present actuators, in bytes. -/
def totalCap (s : State) : Nat := setBands s (lanes.filter (fun a => actIncluded s a)) * bandSectors s * 4096

/-- The capacity assigned to namespaces. -/
def usedCap (s : State) : Nat := (s.bnd.ns.map (fun e => e.2.count)).sum * bandSectors s * 4096

/-- CMIC (R334). -/
def cmicOf (s : State) (fn : Nat) : Nat :=
  let two := imageRole s != 0 || (match hostSec s with | some h => h.ports == 1 | none => false)
  b2n two + 2 + 4 * b2n (!isPf fn) + 8

/-- NS_MAX (R334). -/
def nsMax (s : State) : Nat := match hostSec s with | some h => h.nsMax | none => 0

/-- Identify Controller, CNS 0x01 (R334). -/
def identifyController (s : State) (fn : Nat) : List Byte :=
  let host := hostSec s
  let h16 := fun (f : HostSec → BitVec 16) => le 2 ((host.map (fun h => (f h).toNat)).getD 0)
  let mn := match host with | some h => h.mn | none => []
  let ieee := match host with | some h => h.ieee.toNat | none => 0
  layOut 4096 [
    (0, h16 (fun h => h.vid)), (2, h16 (fun h => h.ssvid)), (4, fit 20 Config.serialNumber), (24, fit 40 mn), (64, frText s), (72, [3]), (73, le 3 ieee),
    (76, [BitVec.ofNat 8 (cmicOf s fn)]), (77, [9]), (78, le 2 (cntlidOf s fn)), (80, le 4 0x00020000), (84, le 4 (exLat s 6 * 1000)),
    (88, le 4 (enLat s 6 * 1000)), (92, le 4 0x08000900), (96, le 4 1), (111, [1]), (256, le 2 (if isPf fn then 0x008B else 0x0001)), (258, [3]), (259, [7]),
    (260, [3]), (261, [6]), (262, [63]), (263, [6]), (264, [1]), (266, le 2 (s.get F.PWR_TEMP_CFG_WARN + 273)), (268, le 2 (s.get F.PWR_TEMP_CFG_CRIT + 273)),
    (280, le 16 (totalCap s)), (296, le 16 (totalCap s - usedCap s)), (328, le 4 5), (342, [10]), (343, [0xDF]), (344, le 4 15), (348, le 4 15), (512, [0x66]),
    (513, [0x44]), (514, le 2 16384), (516, le 4 (nsMax s)), (520, le 2 0x01CF), (524, [4]), (525, [7]), (530, [1]), (540, le 4 (nsMax s)),
    (768, subnqn s),
    (2048, psd s 0 ++ psd s 1 ++ psd s 2 ++ psd s 3 ++ psd s 4 ++ psd s 5 ++ psd s 6), (3072, [BitVec.ofNat 8 (b2n (mirroring s))])]

/-! ### Identify Namespace (R343, R344) -/

/-- NUSE: blocks of the namespace that are not deallocated (R344). -/
def nuseOf (s : State) (e : NsEntry) : Nat :=
  ((List.range (nsSize s e)).filter (fun i => resolve s (nsBase s e + i) != .none || (cacheGet s (nsBase s e + i)).isSome)).length

/-- FPI (R344): 0x80 plus progress; a format that runs has all of it before it until it ends. -/
def fpiOf (s : State) (k : Nat) : Nat :=
  let formats := s.key.erases.any (fun x => x.ns == k && (match x.slot.bind s.slot with | some y => (match y.cmd.op with | .format .. => true | _ => false) | none => false))
  0x80 + if formats then 100 else 0

/-- The LBA formats (R343): metadata bytes, LBADS 12, relative performance 0. -/
def lbaFormats : List Byte := le 2 0 ++ [12, 0] ++ le 2 8 ++ [12, 0] ++ le 2 64 ++ [12, 0]

/-- Identify Namespace, CNS 0x00 (R344). -/
def identifyNs (s : State) (k : Nat) (e : NsEntry) : List Byte :=
  layOut 4096 [(0, le 8 (nsSize s e)), (8, le 8 (nsSize s e)), (16, le 8 (nuseOf s e)), (24, [1]), (25, [2]), (26, [BitVec.ofNat 8 e.lbaf]), (27, [3]), (28, [0x15]),
    (29, [BitVec.ofNat 8 e.pi_]), (30, [1]), (32, [BitVec.ofNat 8 (fpiOf s k)]), (33, [9]), (92, le 4 e.set_.toNat), (104, nguid s k),
    (128, lbaFormats)]

/-- Identify Namespace of the Zoned Namespace command set, CNS 0x05, CSI 0x02 (R344). -/
def identifyZoned (s : State) (e : NsEntry) : List Byte :=
  let mar := openMax s * (actsOf e.set_).length - 1
  let ext := le 8 (bandSectors s) ++ zeros 8
  layOut 4096 [(2, le 2 1), (4, le 4 mar), (8, le 4 mar), (2816, ext ++ ext ++ ext)]

/-- A list of namespace identifiers above one, at most 1,024. -/
def nsidList (l : List Nat) (above : Nat) : List Byte := fit 4096 (((l.filter (fun n => decide (above < n))).take 1024).flatMap (le 4))

/-- NSIDs attached to a function's controller, of a kind where one is asked for (R335). -/
def attachedIds (s : State) (fn : Nat) (kind : Option Nat) : List Nat :=
  (s.bnd.ns.filter (fun p => p.2.attached.contains (cntlidOf s fn) && (match kind with | some k => p.2.kind == k | none => true))).map (fun p => p.1 + 1)

/-- A controller list from an identifier on. -/
def controllerList (l : List Nat) (from_ : Nat) : List Byte :=
  let l := (l.filter (fun c => decide (from_ ≤ c))).take 2047
  fit 4096 (le 2 l.length ++ l.flatMap (le 2))

/-- Controllers of this chip. -/
def controllers (s : State) : List Nat := (functions.filter (functionExists s)).map (cntlidOf s)

/-- The VFs of a port that the host has enabled or may enable. -/
def portVfs (s : State) (port : Nat) : List Nat := (portFns port).filter (fun f => !isPf f && decide (f % 64 ≤ totalVfs s port))

/-- Flexible resources that the VFs of a port hold. -/
def assigned (s : State) (port : Nat) (vectors : Bool) : Nat := ((portVfs s port).map (fun f => if vectors then (s.ctrl f).vi else (s.ctrl f).vq)).sum

/-- Primary Controller Capabilities, CNS 0x14 (R329). -/
def primaryCaps (s : State) (fn : Nat) : List Byte :=
  let p := portOf fn
  let part := fun (v : Bool) => le 4 (flexibleTotal s p) ++ le 4 (assigned s p v) ++ le 2 0 ++ le 2 (privateVq s) ++ le 2 257 ++ le 2 1
  layOut 4096 [(0, le 2 (cntlidOf s fn)), (2, le 2 p), (4, [3]), (32, part false), (64, part true)]

/-- Secondary Controller List, CNS 0x15 (R330). -/
def secondaryList (s : State) (fn from_ : Nat) : List Byte :=
  let l := ((portVfs s (portOf fn)).filter (fun f => decide (from_ ≤ cntlidOf s f))).take 127
  let one := fun (f : Nat) =>
    let c := s.ctrl f
    le 2 (cntlidOf s f) ++ le 2 (cntlidOf s fn) ++ [BitVec.ofNat 8 (b2n c.online)] ++ zeros 3 ++ le 2 (f % 64) ++ le 2 c.vq ++ le 2 c.vi ++ zeros 18
  fit 4096 ([BitVec.ofNat 8 l.length] ++ zeros 31 ++ l.flatMap one)

/-- The command set of a namespace as CSI numbers it. -/
def csiOf (e : NsEntry) : Nat := if e.kind = 2 then 2 else 0

/-- Identify (R335): the structure that CNS selects, or the status. -/
def identifyData (s : State) (fn nsid cns csi cntid : Nat) : Except NvStatus (List Byte) :=
  let pf := isPf fn
  let mine := attachedNs s fn nsid
  let allocated := if nsid = 0 then none else (nsEntry s (nsIndex nsid)).map (fun e => (nsIndex nsid, e))
  let structure_ := fun (x : Option (Nat × NsEntry)) (f : Nat → NsEntry → List Byte) => match x with | some (k, e) => f k e | none => zeros 4096
  match cns with
  | 0x00 => if nsid = 0xFFFFFFFF then .ok (layOut 4096 [(25, [2]), (27, [3]), (28, [0x15]), (33, [9]), (128, lbaFormats)]) else .ok (structure_ mine (identifyNs s))
  | 0x01 => .ok (identifyController s fn)
  | 0x02 => .ok (nsidList (attachedIds s fn none) nsid)
  | 0x03 =>
    match mine with
    | some (k, e) => .ok (fit 4096 ([2, 16, 0, 0] ++ nguid s k ++ [4, 1, 0, 0] ++ [BitVec.ofNat 8 (csiOf e)]))
    | none => .error .invalidNamespace
  | 0x05 =>
    match mine with
    | some (_, e) => if csi ≠ csiOf e then .error .invalidField else if csi = 2 then .ok (identifyZoned s e) else .ok (zeros 4096)
    | none => if csi = 0 ∨ csi = 2 then .ok (zeros 4096) else .error .invalidField
  | 0x06 => if csi = 2 then .ok (layOut 4096 [(0, [9])]) else if csi = 0 then .ok (zeros 4096) else .error .invalidField
  | 0x07 => if csi = 2 then .ok (nsidList (attachedIds s fn (some 2)) nsid) else if csi = 0 then .ok (nsidList (attachedIds s fn (some 1)) nsid) else .error .invalidField
  | 0x08 => .ok (structure_ mine (fun k e => layOut 4096 [(1, [1]), (3, [BitVec.ofNat 8 (fpiOf s k)]), (4, le 4 e.set_.toNat), (14, [1])]))
  | 0x1C => .ok (layOut 4096 [(0, le 8 5)])
  | 0x10 => if pf then .ok (nsidList (s.bnd.ns.map (fun p => p.1 + 1)) nsid) else .error .invalidField
  | 0x11 => if pf then .ok (structure_ allocated (identifyNs s)) else .error .invalidField
  | 0x12 =>
    if !pf then .error .invalidField
    else match allocated with | some (_, e) => .ok (controllerList e.attached cntid) | none => .error .invalidNamespace
  | 0x13 => if pf then .ok (controllerList (controllers s) cntid) else .error .invalidField
  | 0x14 => if pf then .ok (primaryCaps s fn) else .error .invalidField
  | 0x15 => if pf then .ok (secondaryList s fn cntid) else .error .invalidField
  | _ => .error .invalidField

/-! ### Log pages (R339, R340) -/

/-- Available Spare (R296): the least REMAINING × 100 ÷ INITIAL over the owned actuators. -/
def availableSpare (s : State) : Nat :=
  ((lanes.filter (fun a => ownAct s a && initialSpares s a.val != 0)).map (fun a => sparesLeft s a.val * 100 / initialSpares s a.val)).foldl min 100

/-- Percentage Used (R340): lifetime sectors over rated sectors, saturating at 255. -/
def percentageUsed (s : State) : Nat :=
  let sectors := (lanes.map (fun n => (tlyRead s (20 + n.val)).2.1.toNat)).sum
  match hostSec s with
  | some h => if h.rated = 0 then 255 else min 255 (100 * sectors / h.rated.toNat)
  | none => 255

/-- The composite temperature in kelvins (R517). -/
def compositeTemp (s : State) : Nat := (signed 8 (s.get F.PWR_TEMP_TJ) + 273).toNat

/-- Critical warning (R340, R517). -/
def criticalWarning (s : State) : Nat :=
  let t := compositeTemp s
  let hot := (match s.qe.tempThr with | some v => decide (v ≤ t) | none => false) || (match s.qe.tempLow with | some v => decide (t ≤ v) | none => false)
  b2n (decide (availableSpare s < 11)) + 2 * b2n (hot || s.on F.PWR_STAT_THERM) + 4 * b2n (s.mode == Mode.degraded || !s.buf.lwl.isEmpty) +
    8 * b2n (s.mode == Mode.readonly)

/-- A function's counts, of one namespace or of all (R339). -/
def ioCounts (s : State) (fn : Nat) (ns : Option Nat) : IoCount :=
  (s.qe.counts.filter (fun e => e.1 / 1024 == fn && (match ns with | some k => e.1 % 1024 == k | none => true))).foldl (fun c e =>
    ⟨c.blocksRead + e.2.blocksRead, c.blocksWritten + e.2.blocksWritten, c.readCmds + e.2.readCmds, c.writeCmds + e.2.writeCmds, c.errors + e.2.errors⟩) ⟨0, 0, 0, 0, 0⟩

/-- SMART / Health Information, LID 0x02 (R339, R340): busy time is not defined by the spec and is a free value (log 1). -/
def smartLog (s : State) (fn : Nat) (ns : Option Nat) (busy : BitVec 128) : List Byte :=
  let c := ioCounts s fn ns
  let units := fun (blocks : Nat) => (blocks * 8 + 999) / 1000
  let entries := match (s.ctrl fn).errs with | e :: _ => e.num | [] => 0
  layOut 512 [(0, [BitVec.ofNat 8 (criticalWarning s)]), (1, le 2 (compositeTemp s)), (3, [BitVec.ofNat 8 (availableSpare s)]), (4, [11]),
    (5, [BitVec.ofNat 8 (percentageUsed s)]), (32, le 16 (units c.blocksRead)), (48, le 16 (units c.blocksWritten)), (64, le 16 c.readCmds), (80, le 16 c.writeCmds),
    (96, le 16 busy.toNat), (160, le 16 c.errors), (176, le 16 entries)]

/-- Error Information, LID 0x01 (R339, R376). -/
def errorLog (c : Ctrl) : List Byte :=
  fit 4096 (c.errs.flatMap (fun e =>
    layOut 64 [(0, le 8 e.num), (8, le 2 e.sqid), (10, le 2 e.cid), (12, le 2 (2 * statusCode e.status)), (16, le 8 e.lba), (24, le 4 e.nsid)]))

/-- A bit set of opcodes as entries of the Commands Supported and Effects log: CSUPP for each. -/
def effectsOf (ops : List Nat) : List Byte := (List.range 256).flatMap (fun k => if ops.contains k then [1, 0, 0, 0] else [0, 0, 0, 0])

/-- Commands Supported and Effects, LID 0x05 (R336, R337, R339). -/
def effectsLog (fn csi : Nat) : List Byte :=
  let admin : List Nat := [0x00, 0x01, 0x02, 0x04, 0x05, 0x06, 0x08, 0x09, 0x0A, 0x0C, 0x81, 0x82]
  let pf : List Nat := if isPf fn then [0x0D, 0x15, 0x1C, 0x80, 0x84, 0xC2] else []
  let io : List Nat := [0x00, 0x01, 0x02, 0x04, 0x05, 0x08, 0x09, 0x0C, 0x19]
  let zoned : List Nat := if csi = 2 then [0x79, 0x7A, 0x7D] else []
  fit 4096 (effectsOf (admin ++ pf) ++ effectsOf (io ++ zoned))

/-- Asymmetric Namespace Access, LID 0x0C (R339, R350): the groups that contain namespaces attached to the controller. -/
def anaLog (s : State) (fn : Nat) : List Byte :=
  let mine := s.bnd.ns.filter (fun p => p.2.attached.contains (cntlidOf s fn))
  let groups := ((List.range 16).drop 1).filter (fun g => mine.any (fun p => p.2.set_.toNat == g))
  let one := fun (g : Nat) =>
    let l := (mine.filter (fun p => p.2.set_.toNat == g)).map (fun p => p.1 + 1)
    le 4 g ++ le 4 l.length ++ le 8 s.qe.anaChanges ++ [BitVec.ofNat 8 (anaState s g)] ++ zeros 15 ++ l.flatMap (le 4)
  le 8 s.qe.anaChanges ++ le 2 groups.length ++ zeros 6 ++ groups.flatMap one

/-- Sanitize Status, LID 0x81 (R336, R339): progress is shown as begun or over. -/
def sanitizeLog (s : State) : List Byte :=
  let (prog, stat) : Nat × Nat := match s.qe.sanitize with | 0 => (0xFFFF, 0) | 3 => (0xFFFF, 1) | 4 => (0xFFFF, 3) | _ => (0, 2)
  layOut 512 [(0, le 2 prog), (2, le 2 stat)]

/-- Supported Log Pages, LID 0x00 (R339). -/
def supportedLog (fn : Nat) : List Byte :=
  let l : List Nat := [0x00, 0x01, 0x02, 0x03, 0x04, 0x05, 0x0C] ++ (if isPf fn then [0x81] else [])
  effectsOf l

/-- Get Log Page (R339): the whole page, or the status. `busy` is what the busy time reads as. -/
def logPage (s : State) (fn nsid lid csi : Nat) (busy : BitVec 128) : Except NvStatus (List Byte) :=
  match lid with
  | 0x00 => .ok (supportedLog fn)
  | 0x01 => .ok (errorLog (s.ctrl fn))
  | 0x02 =>
    if nsid = 0 ∨ nsid = 0xFFFFFFFF then .ok (smartLog s fn none busy)
    else match attachedNs s fn nsid with | some (k, _) => .ok (smartLog s fn (some k) busy) | none => .error .invalidNamespace
  | 0x03 => .ok (layOut 512 [(0, [1]), (8, frText s)])
  | 0x04 => .ok (fit 4096 ((s.ctrl fn).changed.flatMap (le 4)))
  | 0x05 => .ok (effectsLog fn csi)
  | 0x0C => .ok (anaLog s fn)
  | 0x81 => if isPf fn then .ok (sanitizeLog s) else .error .invalidLogPage
  | _ => .error .invalidLogPage

end Sys2Proof.Machine
end

