-- ==== Sys2Proof/Machine/AdminRows.lean ====
section
/-! DEFINITION. The admin commands (13_host_ports_and_functions.md, R328 to R346; 14_queues_ordering_completion.md, R352, R353, R377;
15_tenant_isolation_and_keys.md, R390 to R397; 22_recorder_tally_standings.md, R578), each as it acts on a slot of the command table that holds it. -/

namespace Sys2Proof.Machine

/-- An effect on a decoded command without a result, while QE serves (R332, R367). -/
def onDecoded (k : Nat) (s : State) (f : Slot → State → State) : Host.Outcome State Fault Refusal :=
  match s.slot k with
  | some x => .next (if x.result.isSome || x.fon.isNone || !slotEntered s k || !qeRuns s then s else (f x s).settle)
  | none => .next s

/-- An effect on an admin command that its function may use; its data pointer is checked first (R375). -/
def adminRow (k : Nat) (s : State) (f : Slot → State → State) : Host.Outcome State Fault Refusal :=
  onDecoded k s (fun x s => if x.sq ≠ 0 || !opAllowed x.fn 0 x.cmd.op then s else if !x.cmd.prpOk then finish k (failResult .prpOffset) s else f x s)

/-- The command fails. -/
def refuse (k : Nat) (st : NvStatus) (s : State) : State := finish k (failResult st) s

/-- The command completes with data and DW0. -/
def answerData (k dw0 : Nat) (data : List Byte) (s : State) : State :=
  finish k ⟨.success, false, dw0, 0, [data]⟩ (s.onSlot k (fun x => { x with moved := true }))

/-- The command completes with DW0. -/
def answerDw0 (k dw0 : Nat) (s : State) : State := finish k ⟨.success, false, dw0, 0, []⟩ s

/-! ### Queues (R352, R353) -/

/-- I/O queues granted to a controller, submission (false) or completion (true) (R338, R352): all its resources but one until the feature is set (log
17). -/
def granted (s : State) (fn : Nat) (cq : Bool) : Nat :=
  let n := if cq then (s.ctrl fn).ncq else (s.ctrl fn).nsq
  if n = 0 then vqOf s fn - 1 else n

/-- Entries of an I/O queue as R352 limits them. -/
def sizeOk (s : State) (n : Nat) : Bool := decide (2 ≤ n) && decide (n ≤ match hostSec s with | some h => h.mqe | none => 0)

/-- CREATE_IO_SQ (R352). -/
def execCreateIoSq (slot : Nat) (s : State) : Host.Outcome State Fault Refusal :=
  adminRow slot s (fun x s =>
    match x.cmd.op with
    | .createSq qid size cqid prio base pc =>
      let c := s.ctrl x.fn
      if cqid = 0 ∨ (smGet cqid c.cqs).isNone then refuse slot .invalidCq s
      else if qid = 0 ∨ granted s x.fn false < qid ∨ (smGet qid c.sqs).isSome then refuse slot .invalidQueueId s
      else if !sizeOk s size then refuse slot .invalidQueueSize s
      else if !pc || base.toNat % 4096 != 0 then refuse slot .invalidField s
      else finish slot okResult (s.setSq x.fn qid ⟨size, base, 0, 0, cqid, prio % 4, false, false⟩)
    | _ => s)

/-- CREATE_IO_CQ (R352). -/
def execCreateIoCq (slot : Nat) (s : State) : Host.Outcome State Fault Refusal :=
  adminRow slot s (fun x s =>
    match x.cmd.op with
    | .createCq qid size vector base pc ien =>
      if qid = 0 ∨ granted s x.fn true < qid ∨ (smGet qid (s.ctrl x.fn).cqs).isSome then refuse slot .invalidQueueId s
      else if !sizeOk s size then refuse slot .invalidQueueSize s
      else if !pc || base.toNat % 4096 != 0 then refuse slot .invalidField s
      else if viOf s x.fn ≤ vector then refuse slot .invalidVector s
      else finish slot okResult (s.setCq x.fn qid ⟨size, base, 0, 0, true, vector, ien, 0, []⟩)
    | _ => s)

/-- Commands whose data has not begun to move and that nothing has admitted (R353, R377): they can end without having been. -/
def unmoved (s : State) (k : Nat) (x : Slot) : Bool :=
  x.result.isNone && !x.moved && !x.admitted && !isForeign s k && !s.key.erases.any (fun e => e.slot == some k)

/-- DELETE_IO_SQ (R353): it completes once the queue's commands have posted. -/
def execDeleteIoSq (slot : Nat) (s : State) : Host.Outcome State Fault Refusal :=
  adminRow slot s (fun x s =>
    match x.cmd.op with
    | .deleteSq qid =>
      match (if qid = 0 then none else smGet qid (s.ctrl x.fn).sqs) with
      | none => refuse slot .invalidQueueId s
      | some q =>
        let s := s.setSq x.fn qid { q with stopped := true }
        let mine := s.qe.slots.filter (fun p => p.2.fn == x.fn && p.2.sq == qid && unmoved s p.1 p.2)
        finishDeletes (forEach mine (fun p s => finish p.1 (retryResult .sqDeleted) s) s)
    | _ => s)

/-- DELETE_IO_CQ (R353). -/
def execDeleteIoCq (slot : Nat) (s : State) : Host.Outcome State Fault Refusal :=
  adminRow slot s (fun x s =>
    match x.cmd.op with
    | .deleteCq qid =>
      let c := s.ctrl x.fn
      if qid = 0 ∨ (smGet qid c.cqs).isNone then refuse slot .invalidQueueId s
      else if c.sqs.any (fun q => q.2.cq == qid) then refuse slot .invalidQueueDeletion s
      else finish slot okResult (showSlots (s.setCtrl x.fn { c with cqs := smErase qid c.cqs }))
    | _ => s)

/-- ABORT (R377). -/
def execAbort (slot : Nat) (s : State) : Host.Outcome State Fault Refusal :=
  adminRow slot s (fun x s =>
    match x.cmd.op with
    | .abort sqid cid =>
      let open_ := slotsWhere s (fun y => y.fn == x.fn && y.sq == 0 && y.result.isNone && (match y.cmd.op with | .abort .. => true | _ => false))
      if 4 < open_.length then refuse slot .abortLimit s
      else
        match s.qe.slots.find? (fun p => p.1 != slot && p.2.fn == x.fn && p.2.sq == sqid && p.2.cmd.cid == cid && unmoved s p.1 p.2 && (guestTag s p.1).isNone) with
        | some (k, _) =>
          let s := s.onCtrl x.fn (fun c => { c with aer := c.aer.filter (fun j => j != k) })
          finish slot okResult (finish k (retryResult .abortedByRequest) s)
        | none => answerDw0 slot 1 s
    | _ => s)

/-- ASYNC_EVENT_REQUEST (R336, R334: AERL). -/
def execAsyncEventRequest (slot : Nat) (s : State) : Host.Outcome State Fault Refusal :=
  adminRow slot s (fun x s =>
    match x.cmd.op with
    | .asyncEvent =>
      let c := s.ctrl x.fn
      if c.aer.contains slot then s
      else if 8 ≤ c.aer.length then refuse slot .asyncLimit s
      else s.setCtrl x.fn { c with aer := c.aer ++ [slot] }
    | _ => s)

/-! ### Identify, log pages, features (R334 to R340) -/

/-- IDENTIFY (R334, R335). -/
def execIdentify (slot : Nat) (s : State) : Host.Outcome State Fault Refusal :=
  adminRow slot s (fun x s =>
    match x.cmd.op with
    | .identify cns csi cntid =>
      match identifyData s x.fn x.cmd.nsid cns csi cntid with
      | .ok l => answerData slot 0 l s
      | .error st => refuse slot st s
    | _ => s)

/-- Reading a page lets its events be reported again (R341), and clears the changed list (R339). -/
def pageRead (fn lid : Nat) (s : State) : State :=
  s.onCtrl fn (fun c =>
    let mask := (List.range 8).foldl (fun m t => if m / 2 ^ aenKey t lid % 2 = 1 then m - 2 ^ aenKey t lid else m) c.masked
    { c with masked := mask, changed := if lid = 4 then [] else c.changed })

/-- GET_LOG_PAGE (R339). -/
def execGetLogPage (slot : Nat) (s : State) : Host.Outcome State Fault Refusal :=
  adminRow slot s (fun x s =>
    match x.cmd.op with
    | .getLog lid csi bytes offset =>
      let (busy, s) : BitVec 128 × State := if lid = 2 then s.free 128 else (0, s)
      match logPage s x.fn x.cmd.nsid lid csi busy with
      | .ok l =>
        if l.length ≤ offset ∨ 2 ^ 21 < bytes then refuse slot .invalidField s
        else answerData slot 0 (fit bytes (l.drop offset)) (pageRead x.fn lid s)
      | .error st => refuse slot st s
    | _ => s)

/-- GET_FEATURES (R338). -/
def execGetFeatures (slot : Nat) (s : State) : Host.Outcome State Fault Refusal :=
  adminRow slot s (fun x s =>
    match x.cmd.op with
    | .getFeatures fid arg =>
      let c := s.ctrl x.fn
      match fid with
      | 0x01 => answerDw0 slot (smGetD 0 1 c.feats) s
      | 0x02 => answerDw0 slot (smGetD 0 2 c.feats) s
      | 0x04 =>
        if bitsOf arg 19 16 ≠ 0 ∨ 1 < bitsOf arg 21 20 then refuse slot .invalidField s
        else
          -- with no threshold set the value is not stated (log 16)
          match (if bitsOf arg 21 20 = 0 then s.qe.tempThr else s.qe.tempLow) with
          | some v => answerDw0 slot v s
          | none => let (v, s) := s.free 16; answerDw0 slot v.toNat s
      | 0x06 => answerDw0 slot (b2n c.wce) s
      | 0x07 => answerDw0 slot ((granted s x.fn false - 1) + (granted s x.fn true - 1) * 65536) s
      | 0x08 => answerDw0 slot (c.coalThr + c.coalTime * 256) s
      | 0x09 => if viOf s x.fn ≤ arg % 65536 then refuse slot .invalidField s else answerDw0 slot (arg % 65536 + b2n (c.coalOff.contains (arg % 65536)) * 65536) s
      | 0x0A => answerDw0 slot 0 s
      | 0x0B => answerDw0 slot (smGetD 0 0x0B c.feats) s
      | 0x0E => answerData slot 0 (le 6 (timestampNow s).toNat ++ [if s.qe.stamp.isSome then 2 else 0, 0]) s
      | 0x81 => if arg % 2 = 1 then answerData slot 0 (le 16 (smGetD 0 0x81 c.feats)) s else refuse slot .invalidField s
      | _ => refuse slot .invalidField s
    | _ => s)

/-- The effect of a supported feature set (R338), with DW0; the status where it is not accepted. -/
def setFeature (s : State) (fn fid arg data : Nat) : Except NvStatus (Nat × State) :=
  let c := s.ctrl fn
  let put := fun (k v : Nat) => (.ok (0, s.setCtrl fn { c with feats := smPut 0 k v c.feats }) : Except NvStatus (Nat × State))
  match fid with
  | 0x01 => put 1 arg
  | 0x02 => if 6 < bitsOf arg 4 0 then .error .invalidField else put 2 (bitsOf arg 4 0)
  | 0x04 =>
    if !isPf fn || (bitsOf arg 19 16 != 0 && bitsOf arg 19 16 != 15) || decide (1 < bitsOf arg 21 20) then .error .invalidField
    else if bitsOf arg 21 20 = 0 then .ok (0, { s with qe := { s.qe with tempThr := some (arg % 65536) } })
    else .ok (0, { s with qe := { s.qe with tempLow := some (arg % 65536) } })
  | 0x06 => .ok (0, s.setCtrl fn { c with wce := arg % 2 = 1 })
  | 0x07 =>
    let most := vqOf s fn - 1
    let a := min (bitsOf arg 15 0 + 1) most
    let b := min (bitsOf arg 31 16 + 1) most
    if bitsOf arg 15 0 = 65535 ∨ bitsOf arg 31 16 = 65535 then .error .invalidField
    else if c.sqs.any (fun q => q.1 != 0) || c.cqs.any (fun q => q.1 != 0) then .error .sequenceError
    else .ok ((a - 1) + (b - 1) * 65536, s.setCtrl fn { c with nsq := a, ncq := b })
  | 0x08 => .ok (0, s.setCtrl fn { c with coalThr := bitsOf arg 7 0, coalTime := bitsOf arg 15 8 })
  | 0x09 =>
    let v := arg % 65536
    if viOf s fn ≤ v then .error .invalidField
    else .ok (0, s.setCtrl fn { c with coalOff := c.coalOff.filter (fun j => j != v) ++ (if bitsOf arg 16 16 = 1 then [v] else []) })
  | 0x0A => if arg = 0 then .ok (0, s) else .error .invalidField
  | 0x0B => put 0x0B arg
  | 0x0E => if isPf fn then .ok (0, { s with qe := { s.qe with stamp := some (BitVec.ofNat 64 (data % 2 ^ 48), s.now.toNat) } }) else .error .invalidField
  | 0x81 => if arg % 2 = 1 then put 0x81 (data % 2 ^ 128) else .error .invalidField
  | _ => .error .invalidField

/-- SET_FEATURES (R338). -/
def execSetFeatures (slot : Nat) (s : State) : Host.Outcome State Fault Refusal :=
  adminRow slot s (fun x s =>
    match x.cmd.op with
    | .setFeatures fid arg data save =>
      if save then refuse slot .featureNotSaveable s
      else
        match setFeature s x.fn fid arg data with
        | .ok (dw0, s) => answerDw0 slot dw0 s
        | .error st => refuse slot st s
    | _ => s)

/-! ### Namespaces (R343, R345, R346) -/

/-- The map is built, so that changes of it can be journaled. -/
def mapReady (s : State) : Bool := (s.get F.BND_STAT_STATE == 4 || s.get F.BND_STAT_STATE == 5) && !journalFull s

/-- LBA format and protection information as R343 allows them: DPS bits [2:0] the type, bit 3 set for the first 8 bytes. -/
def formatOk (lbaf dps : Nat) : Bool := decide (lbaf ≤ 2) && (dps == 0 || ((dps == 1 || dps == 3) && lbaf != 0))

/-- The set that ANAGRPID chooses (R345, R347). -/
def groupSet (s : State) (group : BitVec 4) : BitVec 4 :=
  if group = 0 then BitVec.ofNat 4 ((lanes.map (fun (a : Lane) => b2n (actIncluded s a) * 2 ^ a.val)).sum) else group

/-- Capacity (R345): over every non-empty set of actuators, the logical bands of the namespaces within it do not exceed its data bands outside the
reserve. -/
def capacityOk (s : State) (set_ : BitVec 4) (count : Nat) : Bool :=
  ((List.range 16).drop 1).all (fun m =>
    let b := BitVec.ofNat 4 m
    let inside := fun (x : BitVec 4) => x &&& b == x
    let n := ((s.bnd.ns.filter (fun p => inside p.2.set_)).map (fun p => p.2.count)).sum + if inside set_ then count else 0
    let d := ((actsOf b).map (fun a => (bandsOfKind s a.val 0).length - s.get F.BND_GC_BANDS_HARD_FB)).sum
    decide (n ≤ d))

/-- A logical band belongs to no namespace. -/
def lbandFree (s : State) (l : Nat) : Bool := s.bnd.ns.all (fun p => decide (l < p.2.base) || decide (p.2.base + p.2.count ≤ l))

/-- The lowest start of a run of free logical bands long enough (R345). -/
def lowestRun (s : State) (count : Nat) : Option Nat :=
  let total := setBands s lanes
  (List.range (total + 1 - count)).find? (fun l => (List.range count).all (fun i => lbandFree s (l + i)))

/-- The lowest namespace index not in use (log 20). -/
def freeNs (s : State) : Option Nat := (List.range 1024).find? (fun k => (nsEntry s k).isNone)

/-- NAMESPACE_CREATE (R345): its key record is the first of the namespace (R385); `mram` is the read-back of the record. While a deletion awaits its
checkpoint, its logical bands are not free yet and the command waits (R265). -/
def execNamespaceCreate (slot : Nat) (mram : Bool) (s : State) : Host.Outcome State Fault Refusal :=
  adminRow slot s (fun x s =>
    match x.cmd.op with
    | .nsCreate nsze ncap zoned known lbaf pi_ group =>
      let bs := bandSectors s
      let set_ := groupSet s group
      let count := nsze / bs
      if nsze ≠ ncap ∨ nsze = 0 ∨ nsze % bs ≠ 0 ∨ !known ∨ !formatOk lbaf pi_ then refuse slot .invalidField s
      else if s.mode = Mode.readonly then refuse slot .writeProtected s
      else if nsMax s ≤ s.bnd.ns.length then refuse slot .nsIdUnavailable s
      else if !mapReady s || s.key.erases.any (fun e => e.delete) then s
      else
        match (if capacityOk s set_ count then lowestRun s count else none), freeNs s with
        | some base, some k =>
          let e : NsEntry := ⟨if zoned then 2 else 1, lbaf, pi_, base, count, set_, [], []⟩
          let (done, s) := newKey k 1 false mram (some slot) s
          if done then answerDw0 slot (k + 1) (awaitJack (some slot) (journalNs k e.kind e (setNs k e (some slot) s))) else refuse slot .internalError s
        | none, _ => refuse slot .insufficientCapacity s
        | _, none => refuse slot .nsIdUnavailable s
    | _ => s)

/-- Another command of the namespace has not ended (R346). -/
def nsBusy (s : State) (k slot : Nat) : Bool :=
  s.qe.slots.any (fun p => p.1 != slot && p.2.sq != 0 && p.2.result.isNone && p.2.cmd.nsid != 0 && nsIndex p.2.cmd.nsid == k)

/-- A read of the namespace holds references to its media (R365, R395): what it reads is still under the old key. -/
def mediaHeld (s : State) (e : NsEntry) : Bool :=
  s.qe.slots.any (fun p => p.2.result.isNone && (match p.2.snap with | some l => l.any (fun b => match b.2 with | .media a => inNs s e a | _ => false) | none => false))

/-- An erase is refused in a mismatched pair where the partner owns an actuator of the set (R397). -/
def eraseApart (s : State) (k : Nat) : Bool :=
  s.on F.GLB_MODE_COND_PAIR_MISMATCH && (match nsEntry s k with | some e => (actsOf e.set_).any (fun a => !owns s a) | none => false)

/-- An erase must wait for earlier commands (R395): overlapping writes of lower FON, references of earlier reads, an erase of the same namespace. -/
def eraseWaits (s : State) (x : Slot) (l : List Nat) : Bool :=
  overlapWaits s x || !mapReady s || l.any (fun k => s.key.erases.any (fun e => e.ns == k) || (match nsEntry s k with | some e => mediaHeld s e | none => false))

/-- The command has its erases under way. -/
def erasing (s : State) (slot : Nat) : Bool := s.key.erases.any (fun e => e.slot == some slot)

/-- NAMESPACE_DELETE (R346, R394): it waits for the namespace's earlier commands; no new key is drawn. -/
def execNamespaceDelete (slot : Nat) (mram : Bool) (s : State) : Host.Outcome State Fault Refusal :=
  adminRow slot s (fun x s =>
    match x.cmd.op with
    | .nsDelete =>
      let k := nsIndex x.cmd.nsid
      match (if x.cmd.nsid = 0 then none else nsEntry s k) with
      | none => if erasing s slot then s else refuse slot .invalidNamespace s
      | some e =>
        if erasing s slot then s
        else if s.mode = Mode.readonly then refuse slot .writeProtected s
        else if eraseApart s k then refuse slot .anaInaccessible s
        else if eraseWaits s x [k] || nsBusy s k slot then s
        else
          let s := eraseCommand slot [k] true false mram s
          if (nsEntry s k).isNone then nsChanged k e.attached s else s
    | _ => s)

/-- A controller identifier that the subsystem has (R327, R328): a function of a port of this chip, or of either chip in a pair. -/
def validCntlid (s : State) (c : Nat) : Bool :=
  let i := c - 1
  decide (1 ≤ c) && decide (c ≤ 256) && (decide (i < 128) || imageRole s != 0) &&
  (portOf i == 0 || (match hostSec s with | some h => h.ports == 1 | none => false)) && decide (i % 64 ≤ totalVfs s (portOf i))

/-- An identifier put at its place among rising ones. -/
def insertId (c : Nat) : List Nat → List Nat
  | [] => [c]
  | d :: t => if c < d then c :: d :: t else d :: insertId c t

/-- NAMESPACE_ATTACH (R346, R391): a PF receives rotation permission, a VF none. -/
def execNamespaceAttach (slot : Nat) (s : State) : Host.Outcome State Fault Refusal :=
  adminRow slot s (fun x s =>
    match x.cmd.op with
    | .nsAttach ctrls =>
      let k := nsIndex x.cmd.nsid
      match (if x.cmd.nsid = 0 then none else nsEntry s k) with
      | none => refuse slot .invalidNamespace s
      | some e =>
        if nsDeleting s k then refuse slot .invalidNamespace s
        else if ctrls.isEmpty || ctrls.any (fun c => !validCntlid s c) then refuse slot .controllerListInvalid s
        else if ctrls.any (fun c => e.attached.contains c) then refuse slot .nsAttached s
        else
          let l := ctrls.eraseDups
          let e := { e with attached := l.foldl (fun a c => insertId c a) e.attached, permits := (l.filter (fun c => isPf (c - 1))).foldl (fun a c => insertId c a) e.permits }
          finish slot okResult (nsChanged k l (setNs k e (some slot) s))
    | _ => s)

/-- NAMESPACE_DETACH (R346, R391). -/
def execNamespaceDetach (slot : Nat) (s : State) : Host.Outcome State Fault Refusal :=
  adminRow slot s (fun x s =>
    match x.cmd.op with
    | .nsDetach ctrls =>
      let k := nsIndex x.cmd.nsid
      match (if x.cmd.nsid = 0 then none else nsEntry s k) with
      | none => refuse slot .invalidNamespace s
      | some e =>
        if ctrls.isEmpty || ctrls.any (fun c => !validCntlid s c) then refuse slot .controllerListInvalid s
        else if ctrls.any (fun c => !e.attached.contains c) then refuse slot .nsNotAttached s
        else
          let e := { e with attached := e.attached.filter (fun c => !ctrls.contains c), permits := e.permits.filter (fun c => !ctrls.contains c) }
          finish slot okResult (nsChanged k ctrls (setNs k e (some slot) s))
    | _ => s)

/-! ### Virtualization Management (R330) -/

/-- The function index of a VF of a PF's port, by its controller identifier. -/
def vfOf (s : State) (pf cntlid : Nat) : Option Nat := (portVfs s (portOf pf)).find? (fun f => cntlidOf s f == cntlid)

/-- SECONDARY_OFFLINE (R330). -/
def execSecondaryOffline (slot : Nat) (s : State) : Host.Outcome State Fault Refusal :=
  adminRow slot s (fun x s =>
    match x.cmd.op with
    | .virt 7 cntlid _ _ =>
      match vfOf s x.fn cntlid with
      | some f => finish slot okResult ((resetFunction f s).onCtrl f (fun c => { c with online := false }))
      | none => refuse slot .invalidControllerId s
    | _ => s)

/-- SECONDARY_ASSIGN (R330). -/
def execSecondaryAssign (slot : Nat) (s : State) : Host.Outcome State Fault Refusal :=
  adminRow slot s (fun x s =>
    match x.cmd.op with
    | .virt 8 cntlid vectors count =>
      match vfOf s x.fn cntlid with
      | some f =>
        let c := s.ctrl f
        let p := portOf x.fn
        let others := assigned s p vectors - (if vectors then c.vi else c.vq)
        if c.online || decide (257 < count) || decide (flexibleTotal s p < others + count) then refuse slot .invalidControllerResources s
        else answerDw0 slot count (s.setCtrl f (if vectors then { c with vi := count } else { c with vq := count }))
      | none => refuse slot .invalidControllerId s
    | _ => s)

/-- SECONDARY_ONLINE (R330). -/
def execSecondaryOnline (slot : Nat) (s : State) : Host.Outcome State Fault Refusal :=
  adminRow slot s (fun x s =>
    match x.cmd.op with
    | .virt 9 cntlid _ _ =>
      match vfOf s x.fn cntlid with
      | some f =>
        let c := s.ctrl f
        if c.vq < 2 ∨ c.vi < 1 then refuse slot .invalidResourceId s else finish slot okResult (s.setCtrl f { c with online := true })
      | none => refuse slot .invalidControllerId s
    | _ => s)

/-- PRIMARY_FLEXIBLE_ALLOCATION (R330): refused, as is any action that R330 does not name. -/
def execPrimaryFlexibleAllocation (slot : Nat) (s : State) : Host.Outcome State Fault Refusal :=
  adminRow slot s (fun x s =>
    match x.cmd.op with
    | .virt a _ _ _ => if a = 7 ∨ a = 8 ∨ a = 9 then s else refuse slot .invalidField s
    | _ => s)

/-! ### Format and Sanitize (R40, R299, R393 to R397) -/

/-- The modes in which an activity starts (R40). -/
def activityMode (s : State) : Bool := s.mode == Mode.active || s.mode == Mode.degraded || s.mode == Mode.readonly

/-- GLB_MODE.ACTIVITY set (R40): 1 sanitize, 2 format. -/
def beginActivity (v : Nat) (s : State) : State := (s.put F.GLB_MODE_ACTIVITY v).irq 19

/-- FORMAT_NVM (R336, R343, R393): the blocks are deallocated, under a new key with Secure Erase Settings 2. In READONLY only the cryptographic erase
is accepted (R299), and not a new format (log 28). -/
def execFormatNvm (slot : Nat) (mram : Bool) (s : State) : Host.Outcome State Fault Refusal :=
  adminRow slot s (fun x s =>
    match x.cmd.op with
    | .format lbaf ses pi_ =>
      let l := erasedNs s x.fn x.cmd
      let all := x.cmd.nsid == 0xFFFFFFFF
      let changes := l.any (fun k => match nsEntry s k with | some e => e.lbaf != lbaf || e.pi_ != pi_ | none => false)
      if erasing s slot then s
      else if !all && l.isEmpty then refuse slot .invalidNamespace s
      else if !formatOk lbaf pi_ || decide (2 < ses) then refuse slot .invalidField s
      else if s.mode == Mode.readonly && (ses != 2 || changes) then refuse slot .writeProtected s
      else if l.any (eraseApart s) then refuse slot .anaInaccessible s
      else if !activityMode s || s.on F.GLB_MODE_ACTIVITY || eraseWaits s x l then s
      else
        let s := eraseCommand slot l false (ses != 2) mram (beginActivity 2 s)
        if !changes then s
        else
          forEach (l.filter (fun k => s.key.erases.any (fun e => e.ns == k))) (fun k s =>
            match nsEntry s k with
            | some e =>
              let e := { e with lbaf := lbaf, pi_ := pi_ }
              nsChanged k e.attached (awaitJack (some slot) (journalNs k e.kind e (setNs k e (some slot) s)))
            | none => s) s
    | _ => s)

/-- A sanitize of the drive: every namespace, the keys kept for an overwrite. -/
def sanitize (slot : Nat) (overwrite mram : Bool) (x : Slot) (s : State) : State :=
  let l := s.bnd.ns.map (fun p => p.1)
  if erasing s slot then s
  else if s.mode == Mode.readonly && overwrite then refuse slot .writeProtected s
  else if imageRole s != 0 && s.on F.GLB_MODE_COND_PAIR_MISMATCH then refuse slot .anaInaccessible s
  else if !activityMode s || s.on F.GLB_MODE_ACTIVITY || eraseWaits s x l then s
  else
    let s := { s with qe := { s.qe with sanitize := if overwrite then 2 else 1 } }
    let s := eraseCommand slot l false overwrite mram (beginActivity 1 s)
    match s.slot slot with
    | some y => match y.result with | some r => if r.status = .success then s else { s with qe := { s.qe with sanitize := 4 } } | none => s
    | none => s

/-- SANITIZE_CRYPTO_ERASE (R393, R397). -/
def execSanitizeCryptoErase (slot : Nat) (mram : Bool) (s : State) : Host.Outcome State Fault Refusal :=
  adminRow slot s (fun x s => match x.cmd.op with | .sanitize 4 => sanitize slot false mram x s | _ => s)

/-- SANITIZE_OVERWRITE (R336): an activity that ends with every block of every namespace deallocated; the spec gives no step of the overwriting itself
(log 28). -/
def execSanitizeOverwrite (slot : Nat) (s : State) : Host.Outcome State Fault Refusal :=
  adminRow slot s (fun x s => match x.cmd.op with | .sanitize 3 => sanitize slot true true x s | _ => s)

/-- SANITIZE_BLOCK_ERASE (R336), and any action but the two that are supported. -/
def execSanitizeBlockErase (slot : Nat) (s : State) : Host.Outcome State Fault Refusal :=
  adminRow slot s (fun x s => match x.cmd.op with | .sanitize a => if a = 3 ∨ a = 4 then s else refuse slot .invalidField s | _ => s)

/-! ### Refused commands (R4, R336) -/

/-- FIRMWARE_IMAGE_DOWNLOAD (R4). -/
def execFirmwareImageDownload (slot : Nat) (s : State) : Host.Outcome State Fault Refusal :=
  onDecoded slot s (fun x s => match x.cmd.op with | .fwDownload => refuse slot .invalidOpcode s | _ => s)

/-- FIRMWARE_COMMIT (R4). -/
def execFirmwareCommit (slot : Nat) (s : State) : Host.Outcome State Fault Refusal :=
  onDecoded slot s (fun x s => match x.cmd.op with | .fwCommit => refuse slot .invalidOpcode s | _ => s)

/-- INVALID_OPCODE (R336, R337). -/
def execInvalidOpcode (slot : Nat) (s : State) : Host.Outcome State Fault Refusal :=
  onDecoded slot s (fun x s => if opAllowed x.fn x.sq x.cmd.op then s else refuse slot .invalidOpcode s)

/-! ### Security protocols and Keyring (R390 to R392) -/

/-- A security command that no protocol of R390 carries (R336, R392). -/
def securityUnknown (op : HostOp) : Bool :=
  match op with
  | .secReceive p q _ => !(p == 0 && q == 0) && !(p == 0xF0 && (q == 1 || q == 2))
  | .secSend p q _ => !(p == 0xF0 && (q == 0x10 || q == 0x11))
  | _ => false

/-- A row of the security commands: one that no protocol carries fails whichever row takes it. -/
def securityRow (slot : Nat) (s : State) (f : Slot → State → State) : Host.Outcome State Fault Refusal :=
  adminRow slot s (fun x s => if securityUnknown x.cmd.op then refuse slot .invalidField s else f x s)

/-- SECURITY_PROTOCOL_LIST (R390). -/
def execSecurityProtocolList (slot : Nat) (s : State) : Host.Outcome State Fault Refusal :=
  securityRow slot s (fun x s =>
    match x.cmd.op with
    | .secReceive 0 0 len => answerData slot 0 (fit len ([0, 0, 0, 0, 0, 0, 0, 2, 0x00, 0xF0])) s
    | _ => s)

/-- INFO (R390). -/
def execInfo (slot : Nat) (s : State) : Host.Outcome State Fault Refusal :=
  securityRow slot s (fun x s =>
    match x.cmd.op with
    | .secReceive 0xF0 1 len =>
      if len ≠ 32 then refuse slot .invalidField s
      else answerData slot 0 (fit 32 (le 2 1 ++ le 2 1024 ++ le 2 (attachedIds s x.fn none).length ++ [0x0F])) s
    | _ => s)

/-- The key state that STATE returns (R390): 0 active, 1 erase pending, 2 key lost. -/
def keyState (s : State) (k : Nat) : Nat :=
  match keySelected s k with
  | some r => if r.erasePending then 1 else 0
  | none => 2

/-- STATE (R390). -/
def execState (slot : Nat) (s : State) : Host.Outcome State Fault Refusal :=
  securityRow slot s (fun x s =>
    match x.cmd.op with
    | .secReceive 0xF0 2 len =>
      if len ≠ 32 then refuse slot .invalidField s
      else
        match attachedNs s x.fn x.cmd.nsid with
        | some (k, e) =>
          let created := match keySelected s k with | some r => r.created.toNat | none => 0
          let permit := b2n (e.permits.contains (cntlidOf s x.fn))
          answerData slot 0 (fit 32 (le 4 x.cmd.nsid ++ le 4 (keyGen s k).toNat ++ le 8 created ++ [BitVec.ofNat 8 (keyState s k), BitVec.ofNat 8 permit])) s
        | none => refuse slot .invalidNamespace s
    | _ => s)

/-- A 16-byte buffer whose bytes from `used` on are zero (R390, R392). -/
def bufferOk (len used : Nat) (l : List Byte) : Bool := len == 16 && l.length == 16 && (l.drop used).all (fun b => b == 0)

/-- ROTATE (R390 to R397). -/
def execRotate (slot : Nat) (buffer : List Byte) (mram : Bool) (s : State) : Host.Outcome State Fault Refusal :=
  securityRow slot s (fun x s =>
    match x.cmd.op with
    | .secSend 0xF0 0x10 len =>
      if erasing s slot then s
      else if !bufferOk len 4 buffer then refuse slot .invalidField s
      else
        match attachedNs s x.fn x.cmd.nsid with
        | none => refuse slot .invalidNamespace s
        | some (k, e) =>
          if !e.permits.contains (cntlidOf s x.fn) then refuse slot .accessDenied s
          else if keyState s k = 1 ∨ s.key.erases.any (fun y => y.ns == k) ∨ (keyGen s k).toNat ≠ unle (buffer.take 4) then refuse slot .sequenceError s
          else if eraseApart s k then refuse slot .anaInaccessible s
          else if eraseWaits s x [k] then s
          else eraseCommand slot [k] false false mram (s.onSlot slot (fun y => { y with moved := true }))
    | _ => s)

/-- PERMIT (R390 to R392). -/
def execPermit (slot : Nat) (buffer : List Byte) (s : State) : Host.Outcome State Fault Refusal :=
  securityRow slot s (fun x s =>
    match x.cmd.op with
    | .secSend 0xF0 0x11 len =>
      let cntlid := unle (buffer.take 2)
      let grant := unle ((buffer.drop 2).take 1)
      if !isPf x.fn then refuse slot .accessDenied s
      else if !bufferOk len 3 buffer || decide (1 < grant) then refuse slot .invalidField s
      else
        match attachedNs s x.fn x.cmd.nsid with
        | none => refuse slot .invalidNamespace s
        | some (k, e) =>
          if !e.attached.contains cntlid then refuse slot .invalidNamespace s
          else
            let rest := e.permits.filter (fun c => c != cntlid)
            finish slot okResult (setNs k { e with permits := if grant = 1 then insertId cntlid rest else rest } (some slot) (s.onSlot slot (fun y => { y with moved := true })))
    | _ => s)

/-- STANDINGS_ADMIN (R578). -/
def execStandingsAdmin (slot : Nat) (s : State) : Host.Outcome State Fault Refusal :=
  adminRow slot s (fun x s =>
    match x.cmd.op with
    | .standings numd =>
      if numd ≠ 63 then refuse slot .invalidField s
      else
        let (l, s) := standingsTake 1 s
        answerData slot (s.evr.generation.toNat % 2 ^ 32) l s
    | _ => s)

end Sys2Proof.Machine
end

