-- ==== Sys2Proof/Machine/Outcomes.lean ====
section
/-! DEFINITION. The rows of the lanes that end sectors (R108, R115, R121, R141, R149, R233): their effects are those of HeadLink, Decoding and
WritePath, after which the Relay scheduler gathers the outcomes (R315) and the chip settles. -/

namespace Sys2Proof.Machine

/-- The outcomes gathered (R315) and the mode settled (R34 to R37). -/
def afterOutcomes (s : State) : State := (gatherOutcomes s).settle

/-- GATE_CLOSE (R233). -/
def execGateClose (n : Lane) (gate : GateKind) (taps : List Word) (s : State) : Host.Outcome State Fault Refusal :=
  .next (afterOutcomes (gateCloseEff n gate taps s))

/-- DECODE_DONE (R108). -/
def execDecodeDone (engine : Fin 12) (result : Decoded) (s : State) : Host.Outcome State Fault Refusal :=
  .next (afterOutcomes (decodeDoneEff engine result s))

/-- LADDER_ATTEMPT_END (R121). -/
def execLadderAttemptEnd (n : Lane) (ended : LadderEnd) (s : State) : Host.Outcome State Fault Refusal :=
  .next (afterOutcomes (ladderAttemptEndEff n ended s))

/-- VERIFY_OUTCOME (R141). -/
def execVerifyOutcome (n : Lane) (ended : VerifyEnd) (s : State) : Host.Outcome State Fault Refusal :=
  .next (afterOutcomes (verifyOutcomeEff n ended s))

/-- INTERRUPTED_REWRITE (R149). -/
def execInterruptedRewrite (n : Lane) (s : State) : Host.Outcome State Fault Refusal := .next (afterOutcomes (interruptedRewriteEff n s))

/-- A codeword in the buffers of an engine that faults (R115): a retry is reissued and its ladder attempt is not counted, a sector read on the fly
slips to the next revolution. A verified sector has no outcome then (R142): DESIGN CHOICE, since its write gate does not come again (log 38). -/
def faultedJob (j : DecodeJob) (s : State) : State :=
  match j.kind with
  | .retry => requestEngine j (spoilAttempt j.lane s)
  | .otf => slipSector j.lane j.sector s
  | .verify => (s.tally (28 + j.lane)).onLn j.lane (fun l => { l with lost := l.lost ++ [j.sector] })

/-- ENGINE_FAULT (R115, R42, R124): the engine's token is lost; a retry is reissued on another engine, any other codeword slips. Source 35
becomes pending (R441). -/
def execEngineFault (engine : Fin 12) (s : State) : Host.Outcome State Fault Refusal :=
  let e := s.engine engine
  if e.token = .lost then .next s
  else
    let s := ((s.setEngine engine ⟨.lost, []⟩).count F.LDP_CNT0_ENG_FAULT).irq 35
    let s := forEach e.jobs (fun j s => faultedJob j s) s
    .next ((levelTokens s).loseUnit0 (16 + engine))

end Sys2Proof.Machine
end

