-- ==== Sys2Proof/Machine/BandRows.lean ====
section
/-! DEFINITION. The rows of the band manager (10_band_map_and_journal.md, 11_band_upkeep.md): flushes, images, rewrites, the rebuild, collection,
migration, patrol and the READONLY sequence, over the operations of BandMap and BandWork. -/

namespace Sys2Proof.Machine

/-- BND is present and neither left out nor lost (R632). -/
def bndRuns (s : State) : Bool := s.get F.GLB_UNIT_OK1_BND == 1 && !s.on F.GLB_MODE_COND_POWER_FAIL

/-- An effect of BND, after which the mode settles. -/
def bndRow (eff : State → State) (s : State) : Host.Outcome State Fault Refusal := .next (if bndRuns s then (eff s).settle else s)

/-- JOURNAL_FLUSH (R264, R263): INTERVAL ms have passed since the previous flush started (`intervalOver`), or one is forced or due by its
entries. -/
def execJournalFlush (intervalOver : Bool) (s : State) : Host.Outcome State Fault Refusal :=
  bndRow (fun s => if intervalOver || flushWanted s then startFlush s else s) s

/-- CHECKPOINT_PLACED (R264, R265, R394). -/
def execCheckpointPlaced (s : State) : Host.Outcome State Fault Refusal := bndRow (fun s => erasesPlaced (checkpointPlaced s)) s

/-- A write of BND_CMD.FLUSH (R263): a flush starts, or follows the one in progress. -/
def bndFlushCommand (s : State) : State := if flushReady s then startFlush s else s.onBnd (fun b => { b with flushDue := true })

/-- FLUSH_COMMAND (R263). -/
def execFlushCommand (s : State) : Host.Outcome State Fault Refusal := .next (s.command R.BND_CMD 1 (fun s => if bndRuns s then bndFlushCommand s else s))

/-- IMAGE_COMMAND (R269): a write of BND_CMD.IMAGE. -/
def execImageCommand (s : State) : Host.Outcome State Fault Refusal := .next (s.command R.BND_CMD 2 (fun s => if bndRuns s then startImage s else s))

/-- MAP_IMAGE (R269): as many entries as BND_IMG_CFG says have been journaled. -/
def execMapImage (s : State) : Host.Outcome State Fault Refusal := bndRow (fun s => if imageWanted s then startImage s else s) s

/-- MAP_IMAGE_PLACED (R269). -/
def execMapImagePlaced (s : State) : Host.Outcome State Fault Refusal := bndRow imagePlaced s

/-- Every block of a logical band is dirty in the write cache (R252). -/
def bandDirty (s : State) (l : Nat) : Bool :=
  (List.range (bandSectors s)).all (fun i => match cacheGet s (l * bandSectors s + i) with | some c => c.dirty | none => false)

/-- Why BND rewrites a logical band on its own (R267, R281): its band pends retirement, the write cache holds it dirty in full, or its weak
count asks for it. -/
def rewriteReason (s : State) (l : Nat) : Option Nat :=
  let retire := match (s.lband l).phys with | some b => (smGetD healthNew b s.bnd.health).retire | none => false
  if retire && !s.on F.GLB_MODE_COND_SPARES_OUT then some 2 else if bandDirty s l then some 3 else if s.bnd.weakQ.contains l then some 0 else none

/-- BAND_REWRITE_BEGIN (R267, R281). -/
def execBandRewriteBegin (logical : Nat) (s : State) : Host.Outcome State Fault Refusal :=
  bndRow (fun s =>
    match rewriteReason s logical with
    | some k => (beginRewrite k logical s).onBnd (fun b => { b with weakQ := if k = 0 then b.weakQ.erase logical else b.weakQ })
    | none => s) s

/-- BAND_SWITCH (R267): every sector of the new band is placed. -/
def execBandSwitch (band : Nat) (s : State) : Host.Outcome State Fault Refusal :=
  bndRow (fun s =>
    match s.bnd.rewrites.find? (fun r => r.new == band) with
    | some r => if r.begun && decide (r.size ≤ r.placed) then showRewrites (switchBand r s) else s
    | none => s) s

/-- RELOCATION (R260, R261): the oldest sector that RLY has passed on. -/
def execRelocation (s : State) : Host.Outcome State Fault Refusal :=
  bndRow (fun s =>
    match s.reports.find? (fun r => r.kind == .due) with
    | some r => match relocate r { s with reports := s.reports.erase r } with | some t => t | none => s
    | none => s) s

/-! ### The rebuild (R270 to R276) -/

/-- A lane has its heads loaded. -/
def headsLoaded (s : State) (n : Lane) : Bool := ownLane s n && motionState s n == Mo.follow

/-- MAP_REBUILD (R270): when the heads first load after CONFIGURE, BND loads the newest image and replays the journal; `images` are those that
decode whole, `flushes` those that can be read whole, in journal order. -/
def execMapRebuild (images : List MapImage) (flushes : List (List JEntry)) (s : State) : Host.Outcome State Fault Refusal :=
  bndRow (fun s => if s.get F.BND_STAT_STATE = 0 ∧ !s.bnd.built ∧ lanes.any (headsLoaded s) then beginRebuild images flushes s else s) s

/-- REGION_SCAN (R271, R272, R498): a lane's next region, what its positions hold, and the time that the scan has taken. -/
def execRegionScan (n : Lane) (read : List Scanned) (ms : Nat) (s : State) : Host.Outcome State Fault Refusal :=
  bndRow (fun s => if s.get F.BND_STAT_STATE = 3 ∨ s.get F.BAT_STAT_FAILOVER = 2 then scanRegion n read ms s else s) s

/-- REBUILD_READY (R270, R273, R274): the scans are done. -/
def execRebuildReady (s : State) : Host.Outcome State Fault Refusal :=
  bndRow (fun s => if s.get F.BND_STAT_STATE = 3 ∧ s.bnd.scan.isEmpty then eraseResume (finishRebuild s) else s) s

/-- RANGE_REBUILD (R276): logical bands whose map lines are poisoned join the range; with none, the range's rebuild ends. -/
def execRangeRebuild (logicals : List Nat) (s : State) : Host.Outcome State Fault Refusal :=
  bndRow (fun s =>
    let st := s.get F.BND_STAT_STATE
    if st ≠ 4 ∧ st ≠ 5 then s
    else if logicals.isEmpty then (if st = 5 then putBndState 4 (s.onBnd (fun b => { b with lostRange := [] })) else s)
    else (putBndState 5 (s.onBnd (fun b => { b with lostRange := b.lostRange ++ logicals.filter (fun l => !b.lostRange.contains l) }))).flag F.BND_FLT_RANGE_RB) s

/-- CHECKPOINT_OVERDUE (R263): no checkpoint within INTERVAL + 200 ms of the previous one; only the flush's own media writes start until one
reaches the media. -/
def execCheckpointOverdue (s : State) : Host.Outcome State Fault Refusal := bndRow (fun s => if s.bnd.built then s.put F.BND_JNL_STAT_HELD 1 else s) s

/-! ### Upkeep (R279 to R298) -/

/-- Upkeep runs: the map is ready and the mode is not READONLY (R299). -/
def upkeepRuns (s : State) : Bool := s.get F.BND_STAT_STATE == 4 && s.mode != Mode.readonly

/-- COLLECTION_LEVEL (R284): the actuator's level is evaluated. -/
def execCollectionLevel (a : Lane) (s : State) : Host.Outcome State Fault Refusal := bndRow (fun s => if upkeepRuns s then evalLevel a s else s) s

/-- COLLECTION_WORK (R286). -/
def execCollectionWork (a : Lane) (s : State) : Host.Outcome State Fault Refusal := bndRow (fun s => if upkeepRuns s then collect a s else s) s

/-- MIGRATION (R282, R283). -/
def execMigration (a : Lane) (s : State) : Host.Outcome State Fault Refusal := bndRow (fun s => if upkeepRuns s then migrate a s else s) s

/-- PATROL_PASS (R290, R293). -/
def execPatrolPass (n : Lane) (s : State) : Host.Outcome State Fault Refusal := bndRow (beginPass n) s

/-- PATROL_REQUEST (R291, R292). -/
def execPatrolRequest (n : Lane) (s : State) : Host.Outcome State Fault Refusal := bndRow (patrolNext n) s

/-- Dirty blocks that no destage carries yet. -/
def undestaged (s : State) : List Nat := (s.buf.cache.filter (fun e => e.2.dirty && e.2.seq.isNone)).map (fun e => e.1)

/-- One step of the READONLY sequence (R298): destage, flush, image, done. -/
def readonlyStep (s : State) : State :=
  match s.bnd.readonlyAt with
  | 0 => (forEach (undestaged s) (fun lba s => destage lba 1 s) s).onBnd (fun b => { b with readonlyAt := 1 })
  | 1 =>
    if s.buf.cache.any (fun e => e.2.dirty) then forEach (undestaged s) (fun lba s => destage lba 1 s) s
    else (forceFlush s).onBnd (fun b => { b with readonlyAt := 2 })
  | 2 => if s.bnd.flush.isNone ∧ !s.bnd.flushDue then (startImage s).onBnd (fun b => { b with readonlyAt := 3 }) else s
  | 3 => if s.bnd.image.isNone ∧ !s.bnd.imageDue then s.onBnd (fun b => { b with readonlyAt := 4 }) else s
  | _ => s

/-- READONLY_ENTRY (R298): the sequence's next step. -/
def execReadonlyEntry (s : State) : Host.Outcome State Fault Refusal :=
  bndRow (fun s => if s.mode = Mode.readonly ∧ s.get F.BND_STAT_STATE = 4 then readonlyStep s else s) s

end Sys2Proof.Machine
end

