-- ==== Sys2Proof/Machine/IoRows.lean ====
section
/-! DEFINITION. The I/O commands (13_host_ports_and_functions.md, R337; 14_queues_ordering_completion.md, R361 to R370; 10_band_map_and_journal.md, R253,
R268), each as it acts on a slot of the command table that holds it: data moved, blocks changed, the result made ready. -/

namespace Sys2Proof.Machine

/-- The slot's command waits for a failover to end (R498). -/
def slotWaits (s : State) (x : Slot) : Bool := match nsEntry s (nsIndex x.cmd.nsid) with | some e => failoverWaits s e | none => false

/-- An effect on an I/O command of an operation, its own or the partner's (R488), without a result while the map serves (R332). -/
def ioRow (k : Nat) (s : State) (p : HostOp → Bool) (f : Slot → State → State) : Host.Outcome State Fault Refusal :=
  match s.slot k with
  | some x => .next (if !p x.cmd.op || x.result.isSome || x.sq = 0 || !slotEntered s k || !mediaServed s || slotWaits s x || !opAllowed x.fn x.sq x.cmd.op then s else (f x s).settle)
  | none => .next s

/-- The namespace of a slot's command. -/
def slotNs (s : State) (x : Slot) : Option (Nat × NsEntry) := (nsEntry s (nsIndex x.cmd.nsid)).map (fun e => (nsIndex x.cmd.nsid, e))

/-- Bytes of a block of the namespace with its metadata (R343). -/
def blockBytes (s : State) (x : Slot) : Nat := 4096 + match slotNs s x with | some (_, e) => metaLen (metaCode e.lbaf) | none => 0

/-- A check of protection information that failed, where the namespace has it (R375): the status and the block of the command. -/
def piFailure (s : State) (x : Slot) (pi_ : Option (NvStatus × Nat)) : Option (NvStatus × Nat) :=
  let has := match slotNs s x with | some (_, e) => e.pi_ != 0 | none => false
  pi_.filter (fun p => has && (p.1 == .guardCheck || p.1 == .appTagCheck || p.1 == .refTagCheck))

/-! ### Reads (R362, R363, R365, R375, R376) -/

/-- The blocks of a command's snapshot once all are at hand: a block that cannot be read fails the command. -/
def withBlocks (k : Nat) (x : Slot) (f : List (List Byte) → State → State) (s : State) : State :=
  match x.snap with
  | some l =>
    match snapBlocks s l with
    | some (.error lba) => failBlock k lba (failResult .unrecoveredRead) s
    | some (.ok data) => f data s
    | none => s
  | none => s

/-- READ (R362, R363, R371): `pi_` is how the protection information checks of its blocks end. -/
def execRead (slot : Nat) (pi_ : Option (NvStatus × Nat)) (s : State) : Host.Outcome State Fault Refusal :=
  ioRow slot s (fun op => op == .read) (fun x s =>
    withBlocks slot x (fun data s =>
      match piFailure s x pi_ with
      | some (st, i) => failBlock slot (cmdLba s x + i) (failResult st) s
      | none =>
        let n := data.length
        let s := if x.fn < 128 then countIo x.fn (nsIndex x.cmd.nsid) (fun c => { c with blocksRead := c.blocksRead + n, readCmds := c.readCmds + 1 }) s else s
        finish slot ⟨.success, false, 0, 0, data⟩ ((s.tally 68 n).onSlot slot (fun y => { y with moved := true }))) s)

/-- VERIFY (R362). -/
def execVerify (slot : Nat) (s : State) : Host.Outcome State Fault Refusal :=
  ioRow slot s (fun op => op == .verify) (fun x s => withBlocks slot x (fun _ s => finish slot okResult s) s)

/-- A command goes to the partner with its data (R488), which is kept here until DONE (R500). -/
def sendAway (k : Nat) (data : List (List Byte)) (s : State) : State :=
  let s := forwardCmd k (s.onSlot k (fun y => { y with moved := true, data := data }))
  match s.bat.forwards.find? (fun f => f.slot == k) with
  | some f => forwardData f.tag data s
  | none => s

/-- The home of the command's namespace is the partner (R488); a command of the partner itself never is. -/
def goesAway (s : State) (x : Slot) : Bool := decide (x.fn < 128) && match slotNs s x with | some (_, e) => homeElsewhere s e | none => false

/-- The first block at which two lists of blocks differ. -/
def firstDiff (a b : List (List Byte)) : Option Nat := (List.range (max a.length b.length)).find? (fun i => a[i]? != b[i]?)

/-- COMPARE (R362, R375): `data` is what the host sends, or what came with the partner's command. -/
def execCompare (slot : Nat) (data : List (List Byte)) (s : State) : Host.Outcome State Fault Refusal :=
  ioRow slot s (fun op => op == .compare) (fun x s =>
    let d := if x.fetched then x.data else data.map (fit (blockBytes s x))
    if isForeign s slot || d.length != x.cmd.nlb then s
    else if goesAway s x then sendAway slot d s
    else
      withBlocks slot x (fun blocks s =>
        let s := s.onSlot slot (fun y => { y with moved := true })
        match firstDiff d blocks with
        | some i => failBlock slot (cmdLba s x + i) (failResult .compareFailure) s
        | none => finish slot okResult s) s)

/-! ### Writes (R342, R364, R369) -/

/-- The host's data fetched (R364): a write that may not be admitted for want of throttle credit leaves its data with the host (R288). -/
def fetchWrite (k : Nat) (data : List (List Byte)) (pi_ : Option (NvStatus × Nat)) (x : Slot) (s : State) : State :=
  let d := data.map (fit (blockBytes s x))
  if x.fetched || isForeign s k || d.length != x.cmd.nlb then s
  else
    match slotNs s x with
    | none => refuse k .invalidNamespace s
    | some (_, e) =>
      let away := goesAway s x
      if !away && !creditFor s e then s
      else
        match piFailure s x pi_ with
        | some (st, i) => failBlock k (cmdLba s x + i) (failResult st) (s.onSlot k (fun y => { y with moved := true }))
        | none =>
          if away then sendAway k d s
          else
            let s := s.onSlot k (fun y => { y with data := d, fetched := true, moved := true })
            if overlapWaits s x then countWait k (s.onSlot k (fun y => { y with state := .waiting })) else s

/-- WRITE (R364, R369): its data arrives from the host; WRITE_ADMISSION follows. -/
def execWrite (slot : Nat) (data : List (List Byte)) (pi_ : Option (NvStatus × Nat)) (s : State) : Host.Outcome State Fault Refusal :=
  ioRow slot s (fun op => op == .write) (fetchWrite slot data pi_)

/-- ZONE_APPEND (R337, R369): addressed to the start of a zone; its LBA is given at admission. -/
def execZoneAppend (slot : Nat) (data : List (List Byte)) (pi_ : Option (NvStatus × Nat)) (s : State) : Host.Outcome State Fault Refusal :=
  ioRow slot s (fun op => op == .zoneAppend) (fun x s =>
    if x.cmd.slba % bandSectors s ≠ 0 then refuse slot .invalidField s else fetchWrite slot data pi_ x s)

/-- Blocks of device LBAs lose their contents: cached versions and marks go, and the lost-write list forgets them (R421). -/
def forgetBlocks (ns first count slot : Nat) (s : State) : State :=
  let within := fun (b : Nat) => decide (first ≤ b) && decide (b < first + count)
  let s := forEach (s.buf.cache.filter (fun c => within c.1)) (fun c s => let s := cacheDrop c.1 s; if c.2.mirrored then batSend 0 (.mfree ns c.1 1) s else s) s
  let lost := s.buf.lwl.flatMap (fun e => ((List.range 256).filter (fun i => within (e.base + i) && (!e.crcOk || e.map.getLsbD i))).map (fun i => e.base + i))
  let s := forEach lost (lwlClear · (some slot)) s
  s.onBnd (fun b => { b with uncorr := b.uncorr.filter (fun x => !within x) })

/-- A deallocation of a range within a namespace (R252, R369): the map changes, journaled. -/
def deallocRange (ns first count slot : Nat) (s : State) : State := if count = 0 then s else dealloc first count (forgetBlocks ns first count slot s)

/-- WRITE_ZEROES (R362, R344): deallocates where it asks for it, else zero blocks are admitted by WRITE_ADMISSION as a write. -/
def execWriteZeroes (slot : Nat) (s : State) : Host.Outcome State Fault Refusal :=
  ioRow slot s (fun op => match op with | .writeZeroes _ => true | _ => false) (fun x s =>
    match slotNs s x with
    | none => s
    | some (k, e) =>
      if isForeign s slot || x.admitted || x.fetched then s
      else if overlapWaits s x then countWait slot s
      else if x.cmd.op == .writeZeroes true && e.kind != 2 then
        if journalFull s then s
        else
          let s := s.onSlot slot (fun y => { y with admitted := true })
          finish slot okResult (awaitJack (some slot) (deallocRange k (cmdLba s x) x.cmd.nlb slot s))
      else if !creditFor s e then s
      else s.onSlot slot (fun y => { y with data := List.replicate x.cmd.nlb (zeros (blockBytes s x)), fetched := true }))

/-- WRITE_UNCORRECTABLE (R362): reads of its range fail until it is written again. -/
def execWriteUncorrectable (slot : Nat) (s : State) : Host.Outcome State Fault Refusal :=
  ioRow slot s (fun op => op == .writeUncorrectable) (fun x s =>
    match slotNs s x with
    | none => s
    | some (k, _) =>
      if isForeign s slot || x.admitted then s
      else if overlapWaits s x then countWait slot s
      else
        let first := cmdLba s x
        let s := forgetBlocks k first x.cmd.nlb slot (s.onSlot slot (fun y => { y with admitted := true }))
        finish slot okResult (s.onBnd (fun b => { b with uncorr := b.uncorr ++ (List.range x.cmd.nlb).map (fun i => first + i) })))

/-! ### Dataset Management and Copy (R337, R361, R362) -/

/-- A range list as the bytes of its entries (attributes, length, first LBA), the data of a forwarded command. -/
def rangeBytes (l : List (Nat × Nat)) : List Byte := l.flatMap (fun r => zeros 4 ++ le 4 r.2 ++ le 8 r.1)

/-- The entries of a range list. -/
def rangesOf : Nat → List Byte → List (Nat × Nat)
  | 0, _ => []
  | n + 1, l => if l.length < 16 then [] else (unle ((l.drop 8).take 8), unle ((l.drop 4).take 4)) :: rangesOf n (l.drop 16)

/-- The ranges of a command: the host's list, or the one that came with the partner's command. -/
def commandRanges (x : Slot) (ranges : List (Nat × Nat)) : List (Nat × Nat) :=
  if x.fetched then let l := x.data.flatten; rangesOf (l.length / 16) l else ranges

/-- Ranges within the namespace as runs of device LBAs. -/
def rangeRuns (s : State) (k : Nat) (e : NsEntry) (l : List (Nat × Nat)) : List (Nat × Nat × Nat) := (l.filter (fun r => r.2 != 0)).map (fun r => (k, nsBase s e + r.1, r.2))

/-- DATASET_MANAGEMENT (R361, R362): its FON follows its range list; it deallocates once overlapping writes of lower FON are admitted (R363). -/
def execDatasetManagement (slot : Nat) (ranges : List (Nat × Nat)) (s : State) : Host.Outcome State Fault Refusal :=
  ioRow slot s (fun op => match op with | .dsm _ => true | _ => false) (fun x s =>
    match slotNs s x with
    | none => s
    | some (k, e) =>
      let l := commandRanges x ranges
      let runs := rangeRuns s k e l
      if isForeign s slot then s
      else if l.any (fun r => decide (nsSize s e < r.1 + r.2)) then refuse slot .lbaRange s
      else if goesAway s x then sendAway slot [rangeBytes (ranges.take 256)] s
      else
        let s := if x.fon.isSome then s else enterRuns slot [] (if x.cmd.op == .dsm true then runs.take 256 else []) (s.onSlot slot (fun y => { y with state := .waiting, moved := true }))
        match s.slot slot with
        | some y =>
          if !slotEntered s slot || journalFull s then s
          else if overlapWaits s y then countWait slot s
          else
            let s := s.onSlot slot (fun z => { z with admitted := true })
            let s := forEach y.writes (fun r s => if e.kind = 2 then s else deallocRange k r.2.1 r.2.2 slot s) s
            finish slot okResult (if y.writes.isEmpty then s else awaitJack (some slot) s)
        | none => s)

/-- COPY (R337, R361, R362): its FON follows its range list, its sources are read under its snapshot, and the destination is admitted by
WRITE_ADMISSION. -/
def execCopy (slot : Nat) (ranges : List (Nat × Nat)) (s : State) : Host.Outcome State Fault Refusal :=
  ioRow slot s (fun op => op == .copy) (fun x s =>
    match slotNs s x with
    | none => s
    | some (k, e) =>
      if isForeign s slot then s
      else if x.fon.isSome then
        if x.snap.isNone || x.admitted || !creditFor s e then s
        else withBlocks slot x (fun data s => s.onSlot slot (fun y => { y with data := data, fetched := true })) s
      else
        let l := commandRanges x ranges
        let total := (l.map (fun r => r.2)).sum
        if l.isEmpty then finish slot okResult s
        else if 128 < l.length ∨ l.any (fun r => decide (256 < r.2)) ∨ 4096 < total then refuse slot .sizeLimit s
        else if l.any (fun r => decide (nsSize s e < r.1 + r.2)) ∨ nsSize s e < x.cmd.slba + total then refuse slot .lbaRange s
        else if goesAway s x then sendAway slot [rangeBytes l] s
        else enterRuns slot (rangeRuns s k e l) [(k, cmdLba s x, total)] (s.onSlot slot (fun y => { y with state := .waiting, fetched := false })))

/-! ### Flush (R268, R298, R370) -/

/-- CNTLID of the controller that a slot's command came through: one of the partner's for a command of the partner (R328, R488). -/
def slotCntlid (s : State) (x : Slot) : Nat := if 256 ≤ x.fn then (1 - chipNo s) * 128 + (x.fn - 256) + 1 else cntlidOf s x.fn

/-- A block of a namespace that the Flush names. -/
def flushNames (s : State) (x : Slot) (ns : Nat) : Bool :=
  if x.cmd.nsid = 0xFFFFFFFF then (match nsEntry s ns with | some e => e.attached.contains (slotCntlid s x) | none => false) else ns == nsIndex x.cmd.nsid

/-- An earlier write of the named namespaces is not yet placed (R268). -/
def flushHeld (s : State) (x : Slot) : Bool :=
  s.buf.cache.any (fun c => c.2.dirty && flushNames s x c.2.ns && (match x.fon with | some f => decide (c.2.fon < f) | none => false))

/-- FLUSH (R268, R370): once earlier writes are placed a flush is forced, and the command ends with the checkpoint of one started from then on; in READONLY
it ends once the sequence of R298 has flushed (R299). -/
def execFlush (slot : Nat) (s : State) : Host.Outcome State Fault Refusal :=
  ioRow slot s (fun op => op == .flush) (fun x s =>
    let all := x.cmd.nsid == 0xFFFFFFFF
    if x.waits || x.fon.isNone || (isForeign s slot && !all) then s
    else if s.mode = Mode.readonly then (if 3 ≤ s.bnd.readonlyAt then finish slot okResult s else s)
    else if flushHeld s x then s
    else forceFlush (s.onSlot slot (fun y => { y with waits := true })))

/-! ### Zones (R253, R262, R289, R362) -/

/-- A zone command of an action, at the start of a zone. -/
def zoneRow (slot : Nat) (a : ZoneAction) (s : State) (f : Slot → Nat → State → State) : Host.Outcome State Fault Refusal :=
  ioRow slot s (fun op => op == .zoneSend a) (fun x s =>
    if isForeign s slot || x.admitted then s
    else if x.cmd.slba % bandSectors s ≠ 0 then refuse slot .invalidField s
    else if overlapWaits s x then countWait slot s
    else if journalFull s then s
    else f x (lbandOf s (cmdLba s x)) s)

/-- A zone command done: it completes with the partner's acknowledgement of the journal (R491). -/
def zoneDone (slot : Nat) (s : State) : State := finish slot okResult (awaitJack (some slot) (s.onSlot slot (fun y => { y with admitted := true })))

/-- ZONE_OPEN (R253, R289). -/
def execZoneOpen (slot : Nat) (s : State) : Host.Outcome State Fault Refusal :=
  zoneRow slot .open_ s (fun _ l s =>
    match (s.lband l).zone with
    | .explicitOpen => finish slot okResult s
    | .full => refuse slot .zoneTransition s
    | .offline => refuse slot .zoneTransition s
    | _ => match openZone l .explicitOpen s with | some s => zoneDone slot s | none => refuse slot .tooManyActiveZones s)

/-- ZONE_CLOSE (R262). -/
def execZoneClose (slot : Nat) (s : State) : Host.Outcome State Fault Refusal :=
  zoneRow slot .close s (fun _ l s =>
    match (s.lband l).zone with
    | .implicitOpen => zoneDone slot (setZone l .closed 2 s)
    | .explicitOpen => zoneDone slot (setZone l .closed 2 s)
    | .closed => finish slot okResult s
    | _ => refuse slot .zoneTransition s)

/-- Zero blocks complete the track-parity group that a zone's write pointer stands in, so that what the write cache holds of it can be placed (R129,
R253). -/
def padZone (l : Nat) (x : Slot) (k : Nat) (s : State) : Option State :=
  let bs := bandSectors s
  let w := zoneWp s l
  match (s.lband l).phys with
  | some b =>
    if w = (s.lband l).wp then some s
    else
      match zoneFmt s (bandZone s b) with
      | some f =>
        let pos := (bandPlace s b w).2
        let (first, m, _) := groupOf f pos
        let n := if f.p = 0 ∨ pos ≤ first then 0 else min (m - (pos - first)) (bs - w)
        admitBlocks (chargedFn s k x) (nsIndex x.cmd.nsid) (x.fon.getD 0) (some k) ((List.range n).map (fun i => (l * bs + w + i, zeros (blockBytes s x)))) s
      | none => some s
  | none => some s

/-- ZONE_FINISH (R262, R362): no more of the zone is written, and its band is no longer open. -/
def execZoneFinish (slot : Nat) (s : State) : Host.Outcome State Fault Refusal :=
  zoneRow slot .finish s (fun x l s =>
    match (s.lband l).zone with
    | .full => finish slot okResult s
    | .offline => refuse slot .zoneTransition s
    | _ =>
      match padZone l x slot s with
      | some s =>
        let s := setZone l .full 3 s
        zoneDone slot (match (s.lband l).phys with | some b => bandState b 2 s | none => s)
      | none => s)

/-- A zone gives up its data and its band (R253, R265), which is RETIRED where it pends retirement (R295). -/
def emptyZone (l : Nat) (z : ZoneState) (code ns slot : Nat) (s : State) : State :=
  let bs := bandSectors s
  let s := abandonRewrite l (forgetBlocks ns (l * bs) bs slot s)
  let s := s.onBnd (fun b => { b with mci := b.mci.flatMap (extentMinus (l * bs) bs) })
  let y := s.lband l
  let s := setZone l z code (s.setLband l { y with phys := none, wp := 0 })
  match y.phys with
  | some b => if (smGetD healthNew b s.bnd.health).retire && !s.on F.GLB_MODE_COND_SPARES_OUT then retireBand b s else freeBand b s
  | none => s

/-- ZONE_RESET (R253). -/
def execZoneReset (slot : Nat) (s : State) : Host.Outcome State Fault Refusal :=
  zoneRow slot .reset s (fun x l s =>
    match (s.lband l).zone with
    | .offline => refuse slot .zoneTransition s
    | .empty => finish slot okResult s
    | _ => zoneDone slot (emptyZone l .empty 4 (nsIndex x.cmd.nsid) slot s))

/-- ZONE_OFFLINE (R262, R362). -/
def execZoneOffline (slot : Nat) (s : State) : Host.Outcome State Fault Refusal :=
  zoneRow slot .offline s (fun x l s =>
    match (s.lband l).zone with
    | .offline => finish slot okResult s
    | _ => zoneDone slot (emptyZone l .offline 5 (nsIndex x.cmd.nsid) slot s))

/-- Zone State of a descriptor (log 28). -/
def zoneCode : ZoneState → Nat
  | .empty => 1
  | .implicitOpen => 2
  | .explicitOpen => 3
  | .closed => 4
  | .full => 0xE
  | .offline => 0xF

/-- A zone matches a reporting option (log 28). -/
def zoneReported (report : Nat) (z : ZoneState) : Bool :=
  match report with
  | 0 => true
  | 1 => z == .empty
  | 2 => z == .implicitOpen
  | 3 => z == .explicitOpen
  | 4 => z == .closed
  | 5 => z == .full
  | 7 => z == .offline
  | _ => false

/-- The descriptor of the zone at a logical band (R253, R344): type, state, capacity, start, write pointer; none in a full or offline zone. -/
def zoneDescriptor (s : State) (e : NsEntry) (l : Nat) : List Byte :=
  let bs := bandSectors s
  let z := (s.lband l).zone
  let start := l * bs - nsBase s e
  let wp := if z = .full ∨ z = .offline then 2 ^ 64 - 1 else start + zoneWp s l
  [2, BitVec.ofNat 8 (16 * zoneCode z)] ++ zeros 6 ++ le 8 bs ++ le 8 start ++ le 8 wp ++ zeros 32

/-- ZONE_MANAGEMENT_RECEIVE (R337): the report of zones from the one that holds the command's LBA on. -/
def execZoneManagementReceive (slot : Nat) (s : State) : Host.Outcome State Fault Refusal :=
  ioRow slot s (fun op => match op with | .zoneReceive .. => true | _ => false) (fun x s =>
    match x.cmd.op, slotNs s x with
    | .zoneReceive report bytes part, some (_, e) =>
      if isForeign s slot then s
      else if nsSize s e ≤ x.cmd.slba then refuse slot .lbaRange s
      else if 2 ^ 21 < bytes ∨ report = 6 ∨ 7 < report then refuse slot .invalidField s
      else
        let first := x.cmd.slba / bandSectors s
        let zones := ((List.range (e.count - first)).map (fun i => e.base + first + i)).filter (fun l => zoneReported report (s.lband l).zone)
        let shown := zones.take ((bytes - 64) / 64)
        let n := if part then shown.length else zones.length
        answerData slot 0 (fit bytes (le 8 n ++ zeros 56 ++ shown.flatMap (zoneDescriptor s e))) s
    | _, _ => s)

end Sys2Proof.Machine
end

