-- ==== Sys2Proof/Machine/ServoRows.lean ====
section
/-! DEFINITION. The rows of the servo engines, the Abacus unit, the motion link and the Pacer (06_servo_engine.md, 07_pacer_and_seeks.md,
R154 to R199, R643). -/

namespace Sys2Proof.Machine

/-- The lane is lost by a servo fault that calls for a retract (R177). -/
def servoLoses (n : Lane) (k : Nat) (s : State) : State := (svRetract n (servoFault n k s)).loseUnit0 (12 + n)

/-! ### Enabling and commands (R192, R195) -/

/-- A command of SVn_PACE_CMD as its row gives it (R192): a lane left out takes none (R632). -/
def paceRow (n : Lane) (code : Nat) (s : State) : State :=
  s.write (.core 0) (R.SVn_PACE_CMD n) (BitVec.ofNat 32 code) (fun s =>
    if unitAbsent s (R.SVn_PACE_CMD n) then s else (paceCommand n code s).settle)

/-- A write of SVn_CTL.ENABLE (R192). -/
def enableRow (n : Lane) (on : Bool) (s : State) : State :=
  s.write (.core 0) (R.SVn_CTL n) (BitVec.ofNat 32 (b2n on)) (fun s =>
    if unitAbsent s (R.SVn_CTL n) then s else (if on then svEnable n s else svDisable n s).settle)

/-- SERVO_ENABLE (R192). -/
def execServoEnable (n : Lane) (s : State) : Host.Outcome State Fault Refusal := .next (enableRow n true s)

/-- SERVO_DISABLE (R192). -/
def execServoDisable (n : Lane) (s : State) : Host.Outcome State Fault Refusal := .next (enableRow n false s)

/-- LOAD (R192, R194). -/
def execLoad (n : Lane) (s : State) : Host.Outcome State Fault Refusal := .next (paceRow n 1 s)

/-- UNLOAD (R192, R195). -/
def execUnload (n : Lane) (s : State) : Host.Outcome State Fault Refusal := .next (paceRow n 2 s)

/-- RETRACT (R192, R195). -/
def execRetract (n : Lane) (s : State) : Host.Outcome State Fault Refusal := .next (paceRow n 3 s)

/-- CLEAR_FAULT (R192). -/
def execClearFault (n : Lane) (s : State) : Host.Outcome State Fault Refusal := .next (paceRow n 4 s)

/-! ### Wedges (R155 to R161, R177, R178) -/

/-- The engine demodulates: it is enabled and not in OFF. -/
def servoRuns (s : State) (n : Lane) : Bool := s.on (F.SVn_CTL_ENABLE n) && motionState s n != Mo.off

/-- The demand window counts a wedge of a lane in service, and whether an item was in service there (R515). -/
def countWindow (n : Lane) (s : State) : State :=
  if !inService s n || (s.ln n).drain then s
  else
    let busy := !(s.act (actOf s n)).busy.isEmpty
    s.onPwr (fun p => { p with svcW := setV p.svcW n (p.svcW.get n + 1), busyW := setV p.busyW n (p.busyW.get n + b2n busy) })

/-- The count of bauds between successive sync marks judged after lock (R85), but in a drain (R216). -/
def steerBauds (n : Lane) (bauds : Nat) (s : State) : State :=
  let bpw := s.get (F.LNn_BPW_BPW n)
  let off := if bauds < bpw then bpw - bauds else bauds - bpw
  if (s.sv n).lastFound && s.on (F.LNn_STAT_PLL_LOCK n) && !(s.ln n).drain && decide (8 < off) then pllUnlock n s else s

/-- A wedge's SYNC is found (R155, R157, R159, R192): `interval` since the previous reference, found or predicted, in 1/64 cycle, `bauds` the lane's
baud periods since the previous sync mark. -/
def syncFound (n : Lane) (interval bauds : Nat) (s : State) : State :=
  let s := steerBauds n bauds s
  let s := s.onSv n (fun v => { v with interval := if v.sampled then some interval else none })
  let s := wedgeStart n (s.onSv n (fun v => { v with found := true, lastFound := true, ranged := true, miss := 0 }))
  let s := s.put (F.SVn_STAT_SYNC_LOCK n) 1
  let s := if motionState s n = Mo.loading then (setMotion n Mo.acquire s).onSv n (fun v => { v with havePred := false, acqCount := 0 }) else s
  countWindow n s

/-- SYNC_REFERENCE (R155, R157 to R159, R165): eight servo bits that are the sync mark, ended inside the search window; a SYNC outside it is
ignored. -/
def execSyncReference (n : Lane) (mark : BitVec 8) (interval bauds : Nat) (s : State) : Host.Outcome State Fault Refusal :=
  .next (if servoRuns s n && decide (mark = servoSync) && inWindow s n interval then (syncFound n interval bauds s).settle else s)

/-- A wedge without a found SYNC counts towards SYNC_LOST, which retracts the heads (R159, R177). -/
def countMiss (n : Lane) (s : State) : State :=
  if !missCounts s n then s
  else
    let m := (s.sv n).miss + 1
    let s := ((servoFault n 0 s).count (F.SVn_FLT_CNT_SYNC_MISS n)).onSv n (fun v => { v with miss := m })
    if m < max 1 (s.get (F.SVn_SYNC_CFG_MISS_MAX n)) then s
    else svRetract n (((servoFault n 9 s).tally (60 + actOf s n)).onSv n (fun v => { v with miss := 0, havePred := false, ranged := false }))

/-- SYNC_WINDOW_END (R159): the wedge coasts from the predicted reference, the estimator running on. -/
def execSyncWindowEnd (n : Lane) (estTrack : Nat) (estV : Int) (s : State) : Host.Outcome State Fault Refusal :=
  if !servoRuns s n then .next s
  else
    let s := wedgeStart n (s.onSv n (fun v => { v with found := false, lastFound := false, widHist := [], estV := estV }))
    let s := coastWedge n estTrack (countMiss n (s.put (F.SVn_STAT_SYNC_LOCK n) 0))
    .next (countWindow n s).settle

/-- A sample is discarded for its track number (R161). -/
def discardSample (n : Lane) (estTrack : Nat) (s : State) : State :=
  coastWedge n estTrack ((servoFault n 1 s).count (F.SVn_FLT_CNT_TID_BAD n))

/-- θ of the burst amplitudes (R156). The spec states no atan2(0, 0): that phase is a free value. -/
def burstPhase (a b : Int) (s : State) : BitVec 14 × State := if a = 0 ∧ b = 0 then s.free 14 else (phaseOf a b, s)

/-- The sample at cycle 256 (R155, R156, R160, R161, R165): SAM, WEDGE and TRACK of the field, and the signed amplitudes of N1 and N2. DESIGN CHOICE: a
field without its address mark, or with a TRACK dibit that is neither 01 nor 10, is discarded as a track number out of tolerance (log 39). -/
def takeSample (n : Lane) (field : BitVec 82) (a b : Int) (estTrack : Nat) (s : State) : State :=
  if (s.sv n).headChanged then coastWedge n estTrack (s.onSv n (fun v => { v with widHist := [] }))
  else
    let marked := decide (fieldSam field = servoSam)
    let s := judgeWedge n (if marked then decodeWedge (fieldWedge field) else none) s
    match (if marked then decodeTrack (fieldTrack field) else none) with
    | none => discardSample n estTrack s
    | some t =>
      if s.get (F.SVn_SYNC_CFG_TID_TOL n) < (if t < estTrack then estTrack - t else t - estTrack) then discardSample n estTrack s
      else
        let (theta, s) := burstPhase a b s
        judgeSample n ((s.put (F.SVn_TRACK_TRACK n) t).onSv n (fun v => { v with x := measuredPosition theta.toNat t }))

/-- SERVO_SAMPLE (R155): after a found SYNC the sample is judged; `estTrack` and `estV` are the estimator's prediction (log 11). -/
def execServoSample (n : Lane) (field : BitVec 82) (a b : Int) (estTrack : Nat) (estV : Int) (s : State) : Host.Outcome State Fault Refusal :=
  .next (if servoRuns s n && (s.sv n).found then afterOutcomes (takeSample n field a b estTrack (s.onSv n (fun v => { v with estV := estV }))) else s)

/-! ### Outputs (R162 to R164, R172, R173, R176, R194, R195) -/

/-- A value converted to a signed code of `w` bits, saturating at its range (R169): the code, and whether it saturated. -/
def toCode (w : Nat) (x : Rat) : Int × Bool :=
  let c := roundEven x
  let k := clampI (-(2 ^ (w - 1) : Nat)) ((2 ^ (w - 1) : Nat) - 1) c
  (k, decide (k ≠ c))

/-- A converted output, its saturation counted (R169). -/
def convert (n : Lane) (w : Nat) (x : Rat) (s : State) : Int × State :=
  let (k, sat) := toCode w x
  (k, if sat then s.count (F.SVn_ABA_CNT_OUT_SAT n) else s)

/-- A RETRACT frame with a voltage in mV (R195). -/
def retractFrame (n : Lane) (mv : Nat) (s : State) : State := sendMotion 4 (channelOf s n) (mv % 2 ^ 16) s

/-- A VCM frame with a current in 4 µA units (R172). -/
def vcmFrame (n : Lane) (i : Int) (s : State) : State :=
  sendMotion 1 (channelOf s n) (unsigned 20 i) (s.onSv n (fun v => { v with commanded := i }))

/-- The current of the load profile after a time in 10 µs units (R194, R641): the last entry's current holds. -/
def loadCurrent : List (Int × Nat) → Nat → Int
  | [], _ => 0
  | [(i, _)], _ => i
  | (i, d) :: e :: t, k => if k < d then i else loadCurrent (e :: t) (k - d)

/-- The measured and the commanded current are compared at a tick (R177 bit 7). -/
def currentDiverges (n : Lane) (s : State) : State :=
  let v := s.sv n
  let beyond := decide (s.get (F.SVn_CUR_CFG_DIV_LIM n) * 1000 < (v.measured - v.commanded).natAbs * 4)
  s.onSv n (fun v => { v with divTicks := if beyond then v.divTicks + 1 else 0 })

/-- The VCM command of a tick (R164): the demand of cycle 1,280, with the proportional-integral correction while CUR_LOOP_EN is 1. DESIGN CHOICE: the
command is rounded and held within the frame's 20 bits, which counts nothing: R169 counts the output's own conversion (log 39). -/
def currentCommand (n : Lane) (s : State) : Int × State :=
  let v := s.sv n
  let err := ((v.demand - v.measured : Int) : Rat) / 250000
  match servoSec s (setInUse s n) with
  | some sec =>
    if s.on (F.SVn_CTL_CUR_LOOP_EN n) then
      let integ := v.integ + err
      ((toCode 20 ((v.demand : Rat) + (gainValue sec.kp * err + gainValue sec.ki * integ) * 250000)).1, s.onSv n (fun v => { v with integ := integ }))
    else (v.demand, s)
  | none => (v.demand, s)

/-- A current tick (R164, R192, R194, R195). At the tick that trips CUR_DIV the RETRACT frame takes the VCM frame's place at once. -/
def currentTick (n : Lane) (s : State) : State :=
  let st := motionState s n
  let v := s.sv n
  if st = Mo.off then (if v.offRetract then retractFrame n (s.get (F.SVn_PACE_RET_EMER_V n)) s else s)
  else if st = Mo.retract then retractFrame n (s.get (F.SVn_PACE_RET_EMER_V n)) s
  else if st = Mo.unloading ∧ v.uldEnded then retractFrame n (s.get (F.SVn_PACE_RET_ULD_V n)) s
  else
    let s := currentDiverges n s
    if max 1 (s.get (F.SVn_CUR_CFG_DIV_TICKS n)) ≤ (s.sv n).divTicks then
      retractFrame n (s.get (F.SVn_PACE_RET_EMER_V n)) (servoLoses n 7 (s.onSv n (fun v => { v with divTicks := 0 })))
    else if st = Mo.loading then
      let profile := match servoSec s 0 with | some sec => sec.load | none => []
      vcmFrame n (loadCurrent profile ((s.now.toNat - v.loadAt) / 1000)) s
    else
      let (i, s) := currentCommand n s
      vcmFrame n i s

/-- CURRENT_TICK (R164): `beats` of the motion link have passed since the row or tick before (R173, log 39). -/
def execCurrentTick (n : Lane) (beats : Nat) (s : State) : Host.Outcome State Fault Refusal := .next (currentTick n (beatsPass beats s))

/-- The stages of a lane that the image declares: milli-actuator, head micro-actuator (R637). -/
def stagesOf (s : State) (n : Lane) : Bool × Bool := match laneRec s n with | some r => (r.milli, r.micro) | none => (false, false)

/-- The MICRO frame of cycle 1,280 (R172): zero codes in LOADING and retracts (R194, R195) and for a stage that is not driven. -/
def microFrame (n : Lane) (s : State) : State :=
  let st := motionState s n
  let v := s.sv n
  let still := st == Mo.loading || st == Mo.retract || (st == Mo.unloading && v.uldEnded)
  let (milli, micro) := stagesOf s n
  if !milli && !micro then s
  else
    let (a, s) := if milli && s.on (F.SVn_CTL_MILLI_EN n) && !still then convert n 16 v.out1 s else (0, s)
    let (b, s) := if micro && s.on (F.SVn_CTL_MICRO_EN n) && !still then convert n 16 v.out2 s else (0, s)
    sendMotion 2 (channelOf s n) (unsigned 16 a + unsigned 16 b * 2 ^ 16 + s.get (F.SVn_STAT_HEAD n) * 2 ^ 32) s

/-- The status report of a wedge (R176). -/
def statusReport (s : State) (n : Lane) : BitVec 128 :=
  BitVec.ofNat 128 ((s.reg (R.SVn_LAP n)).toNat + s.get (F.SVn_TRACK_TRACK n) * 2 ^ 32 + s.get (F.SVn_PES_PES n) * 2 ^ 64 +
    s.get (F.SVn_PES_COAST n) * 2 ^ 80 + motionState s n * 2 ^ 81 + s.get (F.SVn_FLT_STAT_FLT n) * 2 ^ 85 + unsigned 20 (s.sv n).demand * 2 ^ 96)

/-- A status report enters the status FIFO, or is lost where it is full (R30, R176). -/
def pushStatus (n : Lane) (s : State) : State :=
  if 128 ≤ (s.sv n).status.length then s.fifoFlag F.GLB_FIFO_OVF_SV_STAT_LOST n
  else s.onSv n (fun v => { v with status := v.status ++ [statusReport s n] })

/-- The VCM demand converted to its frame code at cycle 1,280, in 4 µA units (R169, R643). -/
def convertDemand (n : Lane) (s : State) : State :=
  let (d, s) := convert n 20 ((s.sv n).out0 * 250000) s
  s.onSv n (fun v => { v with demand := d })

/-- SERVO_OUTPUT (R162, R169, R172, R176): the outputs' conversion, the MICRO frame and the status report of cycle 1,280. -/
def execServoOutput (n : Lane) (beats : Nat) (s : State) : Host.Outcome State Fault Refusal :=
  .next (if servoRuns s n then pushStatus n (microFrame n (convertDemand n (beatsPass beats s))) else beatsPass beats s)

/-! ### The Abacus unit (R166 to R169, R643) -/

/-- A value that a slot puts into a word, with the fault of an exponent overflow (R169, R177 bit 6). -/
def storeSlot (n : Lane) (w : Nat) (x : Rat) (s : State) : State :=
  let (ovf, s) := storeWord n (setInUse s n) w x 64 (nextSlot n s)
  if ovf then servoLoses n 6 s else s

/-- NOP (R643): the reserved operations execute as NOP. -/
def execNop (n : Lane) (s : State) : Host.Outcome State Fault Refusal :=
  .next (if slotRuns s n 0 || ([8, 9, 10, 11, 12, 13, 14, 15] : List Nat).any (fun op => slotRuns s n op) then nextSlot n s else s)

/-- The exact product of the words that a slot names, with the sum of their exponents (R167). -/
def slotProduct (s : State) (n : Lane) : Int × Nat :=
  let c := setInUse s n
  let (_, _, a, b) := slotNow s n
  (wordMant s n c a * wordMant s n c b, wordExp s n c a + wordExp s n c b)

/-- MUL (R643, R167). -/
def execMul (n : Lane) (s : State) : Host.Outcome State Fault Refusal :=
  .next (if slotRuns s n 1 then (let p := slotProduct s n; nextSlot n (s.onSv n (fun v => { v with acc := [p] }))) else s)

/-- MAC (R643, R167). -/
def execMac (n : Lane) (s : State) : Host.Outcome State Fault Refusal :=
  .next (if slotRuns s n 2 then (let p := slotProduct s n; nextSlot n (s.onSv n (fun v => { v with acc := v.acc ++ [p] }))) else s)

/-- STORE (R643, R167, R169). -/
def execStore (n : Lane) (s : State) : Host.Outcome State Fault Refusal :=
  .next (if slotRuns s n 3 then storeSlot n (slotNow s n).2.1 (accValue (s.sv n).acc) s else s)

/-- ABACUS_MOVE (R643). -/
def execAbacusMove (n : Lane) (s : State) : Host.Outcome State Fault Refusal :=
  .next (if slotRuns s n 4 then storeSlot n (slotNow s n).2.1 (wordValue s n (setInUse s n) (slotNow s n).2.2.1) s else s)

/-- The inputs of a program by number (R643); others read zero. -/
def abacusInput (s : State) (n : Lane) (k : Nat) : Rat :=
  let v := s.sv n
  let coast := !v.sampled
  match k with
  | 0 => if coast then 0 else pesOf s n
  | 1 => if coast then 0 else feOf s n
  | 2 => v.ref.v
  | 3 => v.ref.a
  | 4 => if coast then 1 else 0
  | 5 => (v.measured : Rat) / 250000
  | 6 => (offsetNow s n : Rat) / 1000
  | 7 => (motionState s n : Rat)
  | _ => 0

/-- IN (R643). -/
def execIn (n : Lane) (s : State) : Host.Outcome State Fault Refusal :=
  .next (if slotRuns s n 5 then storeSlot n (slotNow s n).2.1 (abacusInput s n (slotNow s n).2.2.1) s else s)

/-- The outputs of a program by number (R643); others are ignored. -/
def abacusOutput (n : Lane) (k : Nat) (x : Rat) (s : State) : State :=
  s.onSv n (fun v => match k with
    | 0 => { v with out0 := x }
    | 1 => { v with out1 := x }
    | 2 => { v with out2 := x }
    | _ => v)

/-- OUT (R643). -/
def execOut (n : Lane) (s : State) : Host.Outcome State Fault Refusal :=
  .next (if slotRuns s n 6 then nextSlot n (abacusOutput n (slotNow s n).2.1 (wordValue s n (setInUse s n) (slotNow s n).2.2.1) s) else s)

/-- RENORM (R643, R168, R169). -/
def execRenorm (n : Lane) (s : State) : Host.Outcome State Fault Refusal :=
  if slotRuns s n 7 then
    let (ovf, t) := renormBlock n (setInUse s n) ((slotNow s n).2.1 % 256) (nextSlot n s)
    .next (if ovf then servoLoses n 6 t else t)
  else .next s

/-! ### Frames of the motion link (R171 to R175) -/

/-- NOP_FRAME (R172): 4 µs, or 500 beats, have passed without another outbound frame. -/
def execNopFrame (s : State) : Host.Outcome State Fault Refusal := .next (sendMotion 0 0 0 (beatsPass 500 s))

/-- CURRENT_FRAME (R172): the measured current of a channel. -/
def execCurrentFrame (frame : BitVec 64) (s : State) : Host.Outcome State Fault Refusal :=
  .next (inbound 8 frame (fun s =>
    match laneOfChannel s (frameField frame 13 12) with
    | some n => s.onSv n (fun v => { v with measured := signed 20 (frameField frame 39 20) })
    | none => s) s)

/-- The flags of a STATUS frame (R175): shown, held sticky, SHOCK inhibiting writes of its channel (R177). -/
def statusFlags (frame : BitVec 64) (s : State) : State :=
  let old := s.get F.MOT_STAT_SHOCK
  let shock := frameField frame 23 20
  let s := (s.put F.MOT_STAT_SHOCK shock).put F.MOT_STAT_SUPPLY_LOW (frameField frame 27 24)
  let s := (s.put F.MOT_STAT_OVERTEMP (frameField frame 28 28)).put F.MOT_STAT_RETRACTING (frameField frame 32 29)
  let s := forEach [0, 1, 2, 3] (fun k s =>
    let s := if shock.testBit k then s.flag ((F.MOT_FLAGS_SHOCK).bit k) else s
    if (frameField frame 27 24).testBit k then s.flag ((F.MOT_FLAGS_SUPPLY_LOW).bit k) else s) s
  let s := if frameField frame 28 28 = 1 then s.flag F.MOT_FLAGS_OVERTEMP else s
  forEach lanes (fun n s =>
    let k := channelOf s n
    if !laneIncluded s n || !shock.testBit k then s
    else
      let s := if old.testBit k then s else s.tally (52 + actOf s n)
      inhibitWrites n (servoFault n 5 s)) s

/-- STATUS_FRAME (R175). -/
def execStatusFrame (frame : BitVec 64) (s : State) : Host.Outcome State Fault Refusal :=
  .next (inbound 0xA frame (fun s =>
    let s := statusFlags frame s
    if frameField frame 27 24 ≠ 0 ∧ s.on F.MOT_CTL_SUPPLY_PF then powerFail 4 .made s else s) s)

/-- INBOUND_FRAME_GAP (R174). -/
def execInboundFrameGap (s : State) : Host.Outcome State Fault Refusal := .next (s.count F.MOT_CNT_RX_GAP)

/-- MOTION_LINK_LOST (R174, R177 bit 8): every SVn in FAULT, MOT lost. -/
def execMotionLinkLost (s : State) : Host.Outcome State Fault Refusal :=
  if !s.on F.MOT_STAT_LINK_UP then .next s
  else
    let s := (s.put F.MOT_STAT_LINK_UP 0).flag F.MOT_FLAGS_LINK_LOST
    let s := forEach lanes (fun n s => if laneIncluded s n then svFault n (servoFault n 8 s) else s) s
    .next ((s.loseUnit1 7).settle)

/-! ### The Pacer (R181 to R191) -/

/-- TARGET_MAILBOX_WRITE (R183, R184). -/
def execTargetMailboxWrite (n : Lane) (firmware : Bool) (entry : BitVec 64) (s : State) : Host.Outcome State Fault Refusal :=
  .next (s.command (R.SVn_PACE_TGT_LO n) (entry.extractLsb' 0 32) (mailboxWrite n firmware entry))

/-- The Pacer's reading of the mailbox at a tick (R185, R193): the entry accepted, if any. -/
def readMailbox (n : Lane) (s : State) : Option Dword × State :=
  match (s.sv n).mailbox with
  | none => (none, s)
  | some e =>
    let st := motionState s n
    let empty := s.onSv n (fun v => { v with mailbox := none })
    let first := (s.sv n).restartDue && (s.sv n).plan.isNone
    if st = Mo.acquire then (none, s)
    else if st = Mo.seek ∨ st = Mo.settle ∨ st = Mo.follow then
      if st ≠ Mo.follow ∧ !s.on (F.SVn_PACE_CTL_REPLAN n) ∧ !first then (none, s) else (some e, empty)
    else (none, empty.count (F.SVn_PACE_CNT_DROP n))

/-- The nearest whole track to the stopping point of a state (R191, R193); halfway takes the higher track (log 26). -/
def nearestTrack (s : State) (n : Lane) (m : Motion) : Nat :=
  let v := s.sv n
  let stop := m.p + distReach v.amax (16 * v.jmax) m.v m.a 0
  min (2 ^ 22 - 1) (stop + 1 / 2).floor.toNat

/-- The state from which a restart plan starts (R191, R193): the measured position and the estimator's velocity. -/
def restartState (s : State) (n : Lane) : Motion := ⟨((s.sv n).x : Rat) / 8192, ((s.sv n).estV : Rat) / 1024, 0⟩

/-- The charged interval of a dispatch starts with the plan to its first target (R320). -/
def planCharged (a : Lane) (e : Dword) (w : Nat) (s : State) : State :=
  s.onAct a (fun t =>
    if t.target ≠ some e ∨ t.reissues ≠ 0 ∨ t.offset ≠ none then t
    else match t.ahead with
      | some x => if x.follow = none then { t with ahead := some { x with start := some w } } else t
      | none => if t.followW = none then { t with startW := w } else t)

/-- SVn enters FOLLOW for the dispatch chosen last (R320). -/
def followCharged (a : Lane) (w : Nat) (s : State) : State :=
  s.onAct a (fun t =>
    match t.ahead with
    | some x => if x.follow = none then { t with ahead := some { x with follow := some w } } else t
    | none => if t.followW.isNone && !t.busy.isEmpty then { t with followW := some w } else t)

/-- A target accepted (R185, R186): OFS shows in SVn_OFS, and the plan to it starts from `m`; the Relay scheduler's charged interval starts
with the plan (R320). -/
def acceptTarget (n : Lane) (m : Motion) (e : Dword) (s : State) : State :=
  let s := (s.put (F.SVn_OFS_OFS n) (unsigned 16 (tgtOfs e))).onSv n (fun v => { v with target := some e, aim := tgtTrack e, restartDue := false })
  let s := newPlan n m (tgtPosition e) (some (tgtTag e)) false s
  let w := (s.sv n).wedges + 1
  offsetReached n (planCharged (actOf s n) e w s)

/-- SETTLE or FOLLOW becomes SEEK (R181, R190, R192): the limits are latched and the counts cleared. -/
def enterSeek (n : Lane) (s : State) : State :=
  if motionState s n = Mo.seek then s
  else (latchLimits n (setMotion n Mo.seek s)).onSv n (fun v => { v with feCount := 0, settleCount := 0, settleWedges := 0 })

/-- The Pacer step of a tick (R185, R186, R191, R193, R195, R197). An unload plan starts from the reference in progress, or, where a restart plan was
due, from the state that it would have started from. -/
def pacerTick (n : Lane) (s : State) : State :=
  let (got, s) := readMailbox n s
  let v := s.sv n
  if v.unloadDue then
    let t : Nat := match servoSec s 0 with | some sec => sec.unloadTrack | none => 0
    newPlan n (if v.restartDue then restartState s n else refAhead s n) t none true (s.onSv n (fun v => { v with unloadDue := false, restartDue := false, aim := t }))
  else if v.restartDue then
    let m := restartState s n
    match got with
    | some e =>
      -- SEEK by the accepted target, with no new latch (R191, R192)
      acceptTarget n m e (if motionState s n = Mo.settle then (setMotion n Mo.seek s).onSv n (fun v => { v with settleCount := 0, settleWedges := 0 }) else s)
    | none => let t := nearestTrack s n m; newPlan n m t none false (s.onSv n (fun v => { v with restartDue := false, aim := t }))
  else
    match got with
    | some e => let m := refAhead s n; acceptTarget n m e (enterSeek n s)
    | none => s

/-- PACER_STEP (R162, R185): on wedges whose number is a multiple of 4. In OFF, where no wedge is counted, a tick only empties the mailbox. -/
def execPacerStep (n : Lane) (s : State) : Host.Outcome State Fault Refusal :=
  .next (if motionState s n = Mo.off then (readMailbox n s).2
    else if servoRuns s n && s.get (F.SVn_LAP_WEDGE n) % 4 == 0 then (pacerTick n s).settle else s)

/-- PLAN_END (R189, R195). -/
def execPlanEnd (n : Lane) (s : State) : Host.Outcome State Fault Refusal :=
  match (s.sv n).plan with
  | none => .next s
  | some p =>
    if p.fresh || (s.sv n).restartDue || decide (p.time < planLength p) then .next s
    else if motionState s n = Mo.seek then
      .next ((setMotion n Mo.settle s).onSv n (fun v => { v with settleCount := 0, settleWedges := 0 })).settle
    else if motionState s n = Mo.unloading ∧ p.unload then .next (s.onSv n (fun v => { v with uldEnded := true, plan := none }))
    else .next s

/-- An abandoned target reported to the Relay scheduler with its TAG (R191, R316). -/
def reportTrip (n : Lane) (t : Option Dword) (s : State) : State := match t with | some e => reissueTarget (actOf s n) (tgtTag e) s | none => s

/-- FE_TRIP (R191): the target is abandoned and reported to the Relay scheduler with its TAG (R316); after RETRY trips the heads retract. A trip in
SETTLE leaves the state there, since R192 has no row for it but an accepted target. -/
def execFeTrip (n : Lane) (s : State) : Host.Outcome State Fault Refusal :=
  let st := motionState s n
  let v := s.sv n
  if (st ≠ Mo.seek ∧ st ≠ Mo.settle) ∨ v.restartDue ∨ v.feCount < max 1 (s.get (F.SVn_PACE_FE_WEDGES n)) then .next s
  else
    let s := ((s.flag (F.SVn_PACE_STAT_FE_TRIP n)).count (F.SVn_PACE_CNT_FE_TRIPS n)).tally (56 + actOf s n)
    let s := abandonTarget n s
    let s := s.onSv n (fun v => { v with feCount := 0, trips := v.trips + 1, target := none, restartDue := true, settleCount := 0 })
    let s := reportTrip n v.target s
    if (s.sv n).trips < max 1 (s.get (F.SVn_PACE_FE_RETRY n)) then .next s.settle
    else .next (svRetract n (s.flag (F.SVn_PACE_STAT_FE_RETRACT n))).settle

/-- SETTLE_DONE (R193): FOLLOW; TAG takes the tag of the accepted target that the plan serves; a load that reaches FOLLOW is counted (R573). -/
def execSettleDone (n : Lane) (s : State) : Host.Outcome State Fault Refusal :=
  let v := s.sv n
  if motionState s n ≠ Mo.settle ∨ v.restartDue ∨ v.settleCount < max 1 (s.get (F.SVn_PACE_SETTLE_WEDGES n)) then .next s
  else
    let s := setMotion n Mo.follow s
    let s := match v.plan.bind (fun p => p.tag) with | some t => (s.put (F.SVn_PACE_STAT_TAG n) t.toNat).irq (9 + n) | none => s
    let s := if 0 < v.attempt then s.tally (8 + actOf s n) else s
    let s := s.onSv n (fun v => { v with attempt := 0, trips := 0 })
    .next (followCharged (actOf s n) v.wedges s).settle

/-- SETTLE_TIMEOUT (R193). -/
def execSettleTimeout (n : Lane) (s : State) : Host.Outcome State Fault Refusal :=
  let max_ := s.get (F.SVn_PACE_SETTLE_MAX n)
  if motionState s n ≠ Mo.settle ∨ max_ = 0 ∨ (s.sv n).settleWedges < max_ then .next s
  else .next ((s.flag (F.SVn_PACE_STAT_SETTLE_TO n)).count (F.SVn_PACE_CNT_SETTLE_TO n))

/-- ACQUIRE_DONE (R192, R193): SEEK, the limits latched; the first plan is built at the next Pacer tick. -/
def execAcquireDone (n : Lane) (s : State) : Host.Outcome State Fault Refusal :=
  if motionState s n ≠ Mo.acquire ∨ (s.sv n).acqCount < max 1 (s.get (F.SVn_PACE_LOAD_ACQ_WEDGES n)) then .next s
  else .next ((enterSeek n s).onSv n (fun v => { v with acqCount := 0, restartDue := true, plan := none, target := none })).settle

/-- LOAD_TIMEOUT (R194): retract and try again, or LOAD_FAIL with the lane lost. -/
def execLoadTimeout (n : Lane) (s : State) : Host.Outcome State Fault Refusal :=
  let st := motionState s n
  let k := (s.sv n).attempt
  if k = 0 ∨ (st ≠ Mo.loading ∧ st ≠ Mo.acquire ∧ st ≠ Mo.seek ∧ st ≠ Mo.settle) then .next s
  else if s.get (F.SVn_PACE_LOAD_RETRY n) + 1 ≤ k then
    .next ((svRetract n (s.flag (F.SVn_PACE_STAT_LOAD_FAIL n))).loseUnit0 (12 + n))
  else .next ((svRetract n s).onSv n (fun v => { v with attempt := k, again := true })).settle

/-- RETRACT_TIME_END (R192, R194, R195, R198). -/
def execRetractTimeEnd (n : Lane) (s : State) : Host.Outcome State Fault Refusal :=
  let st := motionState s n
  let v := s.sv n
  if st = Mo.unloading ∧ v.uldEnded then
    .next (((setMotion n Mo.parked s).tally (12 + actOf s n)).onSv n (fun v => { v with uldEnded := false })).settle
  else if st = Mo.retract ∧ !s.on F.GLB_MODE_COND_POWER_FAIL then
    let lost := s.glb.lost0.getLsbD (12 + n) || !s.on F.MOT_STAT_LINK_UP
    if lost then .next (setMotion n Mo.fault s).settle
    else if v.again then
      -- the rows RETRACT to PARKED and PARKED to LOADING in turn (R192, R194)
      let s := (setMotion n Mo.parked s).onSv n (fun w => { w with attempt := 0, again := false })
      .next (if speedReady s then svLoad n (v.attempt + 1) s else s).settle
    else .next (setMotion n Mo.parked s).settle
  else .next (s.onSv n (fun v => { v with offRetract := false }))

end Sys2Proof.Machine
end

