-- ==== Sys2Proof/Machine/SpindleRows.lean ====
section
/-! DEFINITION. The rows of the spindle controller (08_spindle.md, R200 to R221). -/

namespace Sys2Proof.Machine

/-! ### Failures (R205, R207, R209, R210, R212, R217) -/

/-- GLB_UNIT_OK1.SPM is cleared by a fault of R212. -/
def spinLost (s : State) : State := (s.onSpm (fun m => { m with okState := 1 })).loseUnit1 6

/-- An attempt fails (R207, R209): a brake, then another attempt or, after the last permitted one, START_FAIL and FAULT. -/
def failAttempt (f : Fld) (s : State) : State :=
  let s := ((s.flag f).count F.SPM_CNT_FAILED).tally 5
  if s.get F.SPM_STAT_ATTEMPT ≤ min 5 (s.get F.SPM_START_CFG_RETRY) then (requestBrake .retry s).settle
  else spinLost (requestBrake .fault (s.flag F.SPM_FLT_START_FAIL))

/-- Regulation lost, or a cadence change out of time (R205, R217): every loaded actuator retracts, then a brake that ends in FAULT. -/
def spinFails (f : Fld) (s : State) : State := spinLost (requestBrake .fault (forEach lanes svRetract (s.flag f)))

/-- GLB_UNIT_OK1.SPM is set again when the spindle reaches AT_SPEED after a clear-fault command (R212); SET_LOST stands. -/
def spinRestored (s : State) : State :=
  if spinState s = Sp.atSpeed ∧ s.spm.okState = 2 then
    let s := s.onSpm (fun m => { m with okState := 0 })
    ({ s with glb := { s.glb with lost1 := s.glb.lost1 &&& ~~~(1#32 <<< 6) } }).setReg R.GLB_UNIT_OK1 (s.reg R.GLB_UNIT_OK1 ||| (1#32 <<< 6))
  else s

/-! ### Commands (R206, R213, R214, R215) -/

/-- A command of SPM_CMD as its row gives it. -/
def spinRow (code : Nat) (s : State) : State := s.command R.SPM_CMD (BitVec.ofNat 32 code) (fun s => (spinCommand code s).settle)

/-- SPINDLE_START (R206, R211). -/
def execSpindleStart (s : State) : Host.Outcome State Fault Refusal := .next (spinRow 1 s)

/-- SPINDLE_BRAKE (R213). -/
def execSpindleBrake (s : State) : Host.Outcome State Fault Refusal := .next (spinRow 2 s)

/-- SPINDLE_CLEAR_FAULT (R214). -/
def execSpindleClearFault (s : State) : Host.Outcome State Fault Refusal := .next (spinRow 3 s)

/-- CADENCE_REQUEST (R215, R216, R219): a write of SPM_CAD_REQ. -/
def execCadenceRequest (cad : BitVec 2) (s : State) : Host.Outcome State Fault Refusal :=
  .next (s.write (.core 0) R.SPM_CAD_REQ (cad.zeroExtend 32) (fun s => (cadenceRequest cad.toNat s).settle))

/-- SPM_SELF_TEST (R212, R41, R42): after DONE the bit is set, or SPM counts as lost. -/
def execSpmSelfTest (passed : Bool) (s : State) : Host.Outcome State Fault Refusal :=
  if !s.on F.CFG_LOAD_STAT_DONE || s.glb.lost1.getLsbD 6 then .next s
  else if passed then .next (s.setReg R.GLB_UNIT_OK1 (s.reg R.GLB_UNIT_OK1 ||| (1#32 <<< 6))).settle
  else .next (s.loseUnit1 6)

/-! ### Starting (R206 to R210) -/

/-- ROTOR_REST_CHECK (R206, R211): judged from the 2 ms of BEMF frames before. -/
def execRotorRestCheck (s : State) : Host.Outcome State Fault Refusal :=
  if !s.spm.restCheck || spinState s ≠ Sp.stopped || s.spm.volts.length < 2000 then .next s
  else if peakVolts s < s.get F.SPM_BRAKE_CFG_STOP_MV then .next (beginAttempt 1 s)
  else .next (startTurning (s.onSpm (fun m => { m with restCheck := false }))).settle

/-- The step with the largest I_MEAS, the lower step at a tie (R206). -/
def sensedSector (l : List Nat) : Nat :=
  ((List.range l.length).foldl (fun b i => if l.getD b 0 < l.getD i 0 then i else b) 0)

/-- SENSE_DONE (R206): open-loop commutation begins two steps past the rotor's sector. -/
def execSenseDone (s : State) : Host.Outcome State Fault Refusal :=
  if spinState s ≠ Sp.sense ∨ s.spm.sense.length < 6 then .next s
  else
    let k := sensedSector (s.spm.sense.take 6)
    let s := (setSpin Sp.openLoop s).onSpm (fun m => { m with step := (k + 1) % 6, profileAt := 0, forward := 0, reverse := 0 })
    let (w, s) := nextCommutation s
    .next { s with mot := { s.mot with spindle := [w] } }

/-- COMMUTATION (R202): the frame at the front of the command FIFO is released; in open loop the next follows by the profile. -/
def execCommutation (beats : Nat) (s : State) : Host.Outcome State Fault Refusal :=
  let s := beatsPass beats s
  match s.mot.spindle with
  | w :: rest =>
    let s := releaseSpindle w { s with mot := { s.mot with spindle := rest } }
    if spinState s = Sp.sense then .next (s.onSpm (fun m => { m with pulses := m.pulses + 1 }))
    else if spinState s = Sp.openLoop then (let (w, s) := nextCommutation s; .next (queueSpindle w s))
    else .next s
  | [] =>
    if commutates s then (let (w, s) := nextCommutation (s.count F.SPM_CNT_LATE_COMM); .next (releaseSpindle w s)) else .next s

/-- Handover to closed-loop commutation (R208). -/
def handover (s : State) : State :=
  if spinState s = Sp.openLoop ∧ handoverSpeed s ≤ s.get F.SPM_SPEED_SPEED ∧ 6 ≤ s.spm.forward then
    let now : Rat := ((s.get F.SPM_SPEED_SPEED : Nat) : Rat) / 10
    let drive := profileDrive s
    (setSpin Sp.runup s).onSpm (fun m => { m with ref := now, integ := 0, drive := drive, decel := false })
  else s

/-- A zero crossing at an instant in ns (R204, R207, R208, R211): in open loop, against the step in force, forward crossings are measured, a reverse one
is tolerated once, and a crossing of neither step ends the run of forward ones; in closed loop the next commutation is placed after it. -/
def crossing (phase : Nat) (rise : Bool) (t : Nat) (s : State) : State :=
  let push := fun (m : Spm) => { m with crossings := (t :: m.crossings).take 97 }
  if spinState s = Sp.openLoop then
    if stepCrossing (s.spm.inForce + 5) = (phase, rise) then
      let s := s.onSpm (fun m => { m with forward := 0, reverse := m.reverse + 1 })
      if s.spm.reverse = 1 then s.count F.SPM_CNT_REV_TOL else failAttempt F.SPM_FLT_REVERSE s
    else if stepCrossing s.spm.inForce = (phase, rise) then handover (s.onSpm (fun m => { push m with forward := m.forward + 1 }))
    else s.onSpm (fun m => { m with forward := 0 })
  else
    let s := s.onSpm push
    let s := if s.spm.resync && closedLoop s then s.onSpm (fun m => { m with step := crossingStep phase rise, resync := false }) else s
    if closedLoop s && decide (s.mot.spindle.length < 16) then (let (w, s) := nextCommutation s; queueSpindle w s) else s

/-- BEMF_FRAME (R200, R204, R206, R210): `at_` is the frame's sampling instant in ns. -/
def execBemfFrame (frame : BitVec 64) (at_ : Nat) (s : State) : Host.Outcome State Fault Refusal :=
  .next (inbound 9 frame (fun s =>
    let v := signed 11 (frameField frame 42 32)
    let ended := frameField frame 43 43 = 1
    let s := ((s.put F.MOT_SPN_BEMF_FLOAT (frameField frame 21 20)).put F.MOT_SPN_BEMF_ZC (frameField frame 22 22)).put F.MOT_SPN_BEMF_ZC_RISE (frameField frame 23 23)
    let s := ((s.put F.MOT_SPN_BEMF_V_FLOAT (frameField frame 42 32)).put F.MOT_SPN_BEMF_PULSE_END (frameField frame 43 43)).put F.MOT_SPN_BEMF_I_MEAS (frameField frame 55 44)
    let mv := 16 * v.natAbs
    let s := s.onSpm (fun m => { m with volts := (mv :: m.volts).take 2000 })
    let s := if spinState s = Sp.keCheck then s.onSpm (fun m => { m with kePeak := max m.kePeak mv }) else s
    let s := if ended ∧ spinState s = Sp.sense then s.onSpm (fun m => { m with sense := m.sense ++ [frameField frame 55 44] }) else s
    if frameField frame 22 22 = 1 then crossing (frameField frame 21 20) (frameField frame 23 23 == 1) (at_ - 4 * frameField frame 31 24) s else s) s)

/-! ### The speed loop (R204, R205, R208, R210, R214 to R216) -/

/-- An update of the speed loop in the present state: `ms` since the last one. -/
def runSpeed (ms : Rat) (s : State) : State :=
  let st := spinState s
  let sec := spindleSec s
  if st = Sp.runup then
    if 18000 ≤ s.get F.SPM_SPEED_SPEED ∧ !s.spm.keDone then
      let s := setSpin Sp.keCheck s
      let s := { s with mot := { s.mot with spindle := [] } }
      spinCoast (s.onSpm (fun m => { m with keDone := true, kePeak := 0 }))
    else
      let (there, s) := moveRef ((match sec with | some p => (p.runupRate : Rat) | none => 0) * ms / 1000) s
      let s := speedLoop s
      if there then (setSpin Sp.locking s).onSpm (fun m => { m with lockRevs := 0 }) else s
  else if st = Sp.locking then
    let (there, s) := moveRef ((match sec with | some p => (p.runupRate : Rat) | none => 0) * ms / 1000) s
    let s := speedLoop s
    if there then countLock s else s.onSpm (fun m => { m with lockRevs := 0 })
  else if st = Sp.atSpeed then
    let s := speedLoop s
    if inRegulation s (s.get F.SPM_REG_CFG_FAULT_TOL) then s.onSpm (fun m => { m with faultRevs := 0 })
    else
      let s := s.onSpm (fun m => { m with faultRevs := m.faultRevs + 1 })
      if max 1 (s.get F.SPM_REG_CFG_FAULT_REVS) ≤ s.spm.faultRevs then spinFails F.SPM_FLT_REG_LOST s else s
  else if st = Sp.changing then
    let s := if s.spm.ramping then (moveRef (((max 1 (s.get F.SPM_CAD_CFG_RATE) : Nat) : Rat) * ms / 1000) s).2 else s
    let s := speedLoop s
    if s.spm.ramping || s.spm.draining then s else countLock s
  else s

/-- SPEED_UPDATE (R204): the speed over the last mechanical revolution, and the speed loop. -/
def execSpeedUpdate (s : State) : Host.Outcome State Fault Refusal :=
  match revolution s with
  | none => .next s
  | some t =>
    let s := s.put F.SPM_SPEED_SPEED (min (2 ^ 17 - 1) (600000000000 / t))
    .next (spinRestored (runSpeed ((t : Rat) / 1000000) s)).settle

/-- ZC_TIMEOUT (R205). -/
def execZcTimeout (s : State) : Host.Outcome State Fault Refusal :=
  .next (if spinState s = Sp.atSpeed ∨ spinState s = Sp.changing then spinFails F.SPM_FLT_REG_LOST s else s)

/-- NO_HANDOVER (R207). -/
def execNoHandover (s : State) : Host.Outcome State Fault Refusal :=
  .next (if spinState s = Sp.openLoop then failAttempt F.SPM_FLT_NO_HANDOVER s else s)

/-- SPIN_TIMEOUT (R207, R214). -/
def execSpinTimeout (s : State) : Host.Outcome State Fault Refusal :=
  let st := spinState s
  .next (if st = Sp.openLoop ∨ st = Sp.runup ∨ st = Sp.locking then failAttempt F.SPM_FLT_SPIN_TIMEOUT s else s)

/-- KE_CHECK_END (R210): `meanSpeed` over the window in 0.1 rpm; without a speed the value measured is left open and the check fails. -/
def execKeCheckEnd (meanSpeed : Nat) (s : State) : Host.Outcome State Fault Refusal :=
  if spinState s ≠ Sp.keCheck then .next s
  else
    let img := s.get F.SPM_KE_KE_IMG
    let top := 10000 * s.spm.kePeak
    let near := (if top < img * meanSpeed then img * meanSpeed - top else top - img * meanSpeed) * 100 ≤ 12 * img * meanSpeed
    let s := if meanSpeed = 0 then (let (v, s) := s.free 16; s.put F.SPM_KE_KE_MEAS v.toNat) else s.put F.SPM_KE_KE_MEAS (min 65535 (top / meanSpeed))
    if near ∧ meanSpeed ≠ 0 then
      -- the run-up goes on from the next crossing
      .next (((setSpin Sp.runup s).put F.GLB_RST_STAT_KE_OK 1).onSpm (fun m => { m with resync := true }))
    else
      let s := ((s.flag F.SPM_FLT_KE_REFUSED).count F.SPM_CNT_FAILED).tally 5
      .next (spinLost (requestBrake .fault s))

/-! ### Braking and power loss (R209, R213, R220) -/

/-- BRAKE_PROBE (R213): the coast of a probe begins, or, once it has brought 2 ms of BEMF frames, is judged. -/
def execBrakeProbe (s : State) : Host.Outcome State Fault Refusal :=
  if spinState s ≠ Sp.braking then .next s
  else if !s.spm.probing then .next (spinCoast (s.onSpm (fun m => { m with probing := true, volts := [] })))
  else if s.spm.volts.length < 2000 then .next s
  else
    let s := s.onSpm (fun m => { m with probing := false })
    .next (if peakVolts s < s.get F.SPM_BRAKE_CFG_STOP_MV then (brakeStopped s).settle else spinBrake s)

/-- RETRY_WAIT_END (R209). -/
def execRetryWaitEnd (s : State) : Host.Outcome State Fault Refusal :=
  .next (if spinState s = Sp.retryWait then beginAttempt (s.get F.SPM_STAT_ATTEMPT + 1) s else s)

/-- PF_COAST_END (R220): a brake without the condition of R213. -/
def execPfCoastEnd (s : State) : Host.Outcome State Fault Refusal :=
  .next (if spinState s = Sp.pfCoast then (enterBraking .stopped s).onSpm (fun m => { m with unparked := true }) else s)

/-! ### Cadence changes (R216, R217) -/

/-- A drained lane discards the write data not yet read: those sectors slip (R216). -/
def discardWrites (n : Lane) (s : State) : State :=
  let k := (s.ln n).wfifo.length
  if k = 0 then s
  else ((s.onLn n (fun l => { l with wfifo := [] })).onAct (actOf s n) (fun a => { a with fed := a.fed - k })).tally (28 + n) k

/-- DRAIN_COMPLETE (R216): every lane has closed its gates, and the ramp begins. -/
def execDrainComplete (s : State) : Host.Outcome State Fault Refusal :=
  if !s.spm.draining || spinState s ≠ Sp.changing || lanes.any (fun n => lanePresent s n && gateOpen s n) then .next s
  else .next ((forEach lanes discardWrites s).onSpm (fun m => { m with draining := false, ramping := true }))

/-- CADENCE_RAMP_END (R216): the speed reference stands at the new cadence. -/
def execCadenceRampEnd (s : State) : Host.Outcome State Fault Refusal :=
  if spinState s = Sp.changing ∧ s.spm.ramping ∧ s.spm.ref = (rpmOf s.spm.goal : Rat) then
    .next (s.onSpm (fun m => { m with ramping := false, lockRevs := 0 }))
  else .next s

/-- CAD_TIMEOUT (R217). -/
def execCadTimeout (s : State) : Host.Outcome State Fault Refusal :=
  .next (if spinState s = Sp.changing ∧ !s.spm.ramping ∧ !s.spm.draining then spinFails F.SPM_FLT_CAD_TIMEOUT s else s)

/-- LANE_RESUME (R216, R217): the synthesiser relocked and the heater lead past, the lane's gates are permitted again. -/
def execLaneResume (n : Lane) (s : State) : Host.Outcome State Fault Refusal :=
  if (s.ln n).drain && spinState s == Sp.atSpeed && (s.on (F.LNn_STAT_PLL_LOCK n) || s.get (F.LNn_BPW_BPW n) == 0) then .next (endPause n s).settle
  else .next s

end Sys2Proof.Machine
end

