-- ==== Sys2Proof/Machine/Baton.lean ====
section
/-! DEFINITION. Shared operations of the Baton link beyond Pair (19_partner_pair.md): the meeting of the partner (R495, R496), the spindle's port
(R481, R483), mirrors and the shadow map (R490 to R494), resynchronisation and return (R501), and failover (R498 to R500). -/

namespace Sys2Proof.Machine

def State.onBat (s : State) (f : Bat → Bat) : State := { s with bat := f s.bat }

/-- A flag of BAT_FLT; any bit of it makes source 39 pending (R503). -/
def batFlag (f : Fld) (s : State) : State := (s.flag f).irq 39

/-- Actuators as bits. -/
def ackBits (s : State) : BitVec 4 := BitVec.ofNat 4 (s.get F.BAT_OWN_STAT_ACK)
def claimBits (s : State) : BitVec 4 := BitVec.ofNat 4 (s.get F.BAT_OWN_CTL_CLAIM)
def peerOwns (s : State) : BitVec 4 := BitVec.ofNat 4 (s.get F.BAT_OWN_STAT_PEER_OWNS)

/-- Actuators whose lanes the image marks HOME, the partner's (R478). -/
def homeBits (s : State) : BitVec 4 := BitVec.ofNat 4 ((lanes.map (fun (n : Lane) => b2n (match laneRec s n with | some r => r.home | none => false) * 2 ^ (actOf s n).val)).sum)
def partnerHomes (s : State) : BitVec 4 := BitVec.ofNat 4 ((lanes.map (fun (n : Lane) => b2n (actIncluded s n && !(homeBits s).getLsbD n) * 2 ^ n.val)).sum)

/-- CLAIM changed by the pair logic, with what toggles (R482). -/
def setClaim (b : BitVec 4) (s : State) : State := showToggling (s.put F.BAT_OWN_CTL_CLAIM b.toNat)

/-- The partner is met (R495): the link is up and its HELLO matched. -/
def partnerMet (s : State) : Bool := batonUp s && s.on F.BAT_STAT_PEER_OK

/-! ### The spindle's port (R481, R483) -/

/-- The power stage obeys this chip's port for the spindle (R481): chip A's while any cell is A, else chip B's while any cell is B. -/
def spindleMine (s : State) : Bool :=
  let own := ackBits s
  imageRole s == 0 || (if imageRole s = 1 then own != 0 else own != 0 && (own == 0xF || peerOwns s == 0))

/-- SPM shows PARTNER while the partner's port carries the spindle (R483), and takes a turning spindle over when this chip's port does (R211). -/
def spinPort (s : State) : State :=
  if imageRole s = 0 ∨ s.mode = Mode.off then s
  else if spindleMine s then (if spinState s = Sp.partner then startTurning s else s)
  else if ackBits s ||| peerOwns s = 0 ∨ spinState s = Sp.partner then s
  else setSpin Sp.partner s

/-! ### HELLO (R495, R496) -/

/-- The active manifest (R531). -/
def activeManifest (s : State) : Option Manifest := bankManifest s (bootState s).active

/-- The PAIR section: role, pair set, and the bounds of PERIOD (R51). -/
def pairSec (s : State) : Option (Nat × Nat × Nat × Nat) :=
  findSection s.cfg.image (fun d => match d.body with | .pair r p lo hi => some (r, p.toNat, lo, hi) | _ => none)

/-- This chip's HELLO (R486): its core firmware version is that of the active manifest. -/
def helloMsg (s : State) : BatMsg :=
  let (role, set_, _) := (pairSec s).getD (0, 0, 0, 0)
  let m := activeManifest s
  .hello set_ role Config.stepping.toNat (s.get F.CFG_IMAGE_VER_VALUE) ((m.map (fun m => (componentVersion m (roleBit s) 2 0).toNat)).getD 0)
    ((m.map (fun m => m.digest.extractLsb' 256 128)).getD 0)

/-- The active manifest lists the partner's stepping, IMAGE_VER and firmware version as a tested combination with this chip's own (R495, R534). -/
def testedPeer (s : State) (stepping image fw : Nat) : Bool :=
  match activeManifest s with
  | some m => m.combos.any (fun c => comboMatches m (roleBit s) c && c.peerSteppings.getLsbD stepping && c.peerImageVer.toNat == image && c.peerCfwVer.toNat == fw)
  | none => false

/-- What follows a change of the partner's standing: protected-cache mode, the ANA states, the mode. -/
def pairSettle (s : State) : State := (anaUpdate (showMirroring (showToggling s))).settle

/-- A matching HELLO, or one that does not match (R495). -/
def meet (ok : Bool) (s : State) : State :=
  if ok then
    let s := (s.batStat F.BAT_STAT_PEER_OK 1).batStat F.BAT_STAT_MISMATCH 0
    let s := s.uncond F.GLB_MODE_COND_PAIR_MISMATCH
    if s.mode = Mode.partnerStandby then batSend 0 (.resync 1) s else s
  else
    let s := (s.batStat F.BAT_STAT_PEER_OK 0).batStat F.BAT_STAT_MISMATCH 1
    batFlag F.BAT_FLT_MISMATCH (s.cond F.GLB_MODE_COND_PAIR_MISMATCH)

/-! ### Mirrors (R490, R494, R499) -/

/-- A place of a mirror block given back. -/
def freePlace (loc : Nat) (s : State) : State :=
  s.onBuf (fun b => { b with room := if (match smGet (loc / 16) b.pages with | some (.owned _) => true | _ => false) then b.room ++ [loc] else b.room })

/-- The blocks of mirrors that a test names freed (R490). -/
def dropMirrored (p : Mirror → Nat → Bool) (s : State) : State :=
  let gone := s.bat.mirrors.flatMap (fun m => m.blocks.filter (fun b => p m b.1))
  let s := s.onBat (fun t => { t with mirrors := (t.mirrors.map (fun m => { m with blocks := m.blocks.filter (fun b => !p m b.1) })).filter (fun m => !m.blocks.isEmpty || !m.committed) })
  forEach gone (fun b s => match b.2.1 with | some l => freePlace l s | none => s) s

/-- Blocks of one mirror placed in write-cache pages while there are any (R490); a block without bytes is one that the home has still to send again
(R494). -/
def placeBlocks : List (Nat × Option Nat × List Byte) → State → List (Nat × Option Nat × List Byte) × State
  | [], s => ([], s)
  | (lba, some l, d) :: rest, s => let (r, s) := placeBlocks rest s; ((lba, some l, d) :: r, s)
  | (lba, none, []) :: rest, s => let (r, s) := placeBlocks rest s; ((lba, none, []) :: r, s)
  | (lba, none, d) :: rest, s =>
    match takePlace .writeCache s with
    | some (l, s) => let (r, s) := placeBlocks rest (memWrite (4096 * l) (fit 4096 d) s); ((lba, some l, d) :: r, s)
    | none => let (r, s) := placeBlocks rest s; ((lba, none, d) :: r, s)

/-- MACK once a committed write is whole in this chip's DRAM (R490). -/
def ackMirror (m : Mirror) (s : State) : Mirror × State :=
  let (bl, s) := placeBlocks m.blocks s
  let m : Mirror := { m with blocks := bl }
  if m.committed && !m.acked && bl.all (fun b => b.2.1.isSome) then ({ m with acked := true }, batSend (BitVec.ofNat 32 m.tag) .mack s) else (m, s)

/-- Every mirror seen to in order: blocks that waited for a page, and the MACKs that follow. -/
def ackMirrors (s : State) : State :=
  let (l, s) := s.bat.mirrors.foldl (fun (acc : List Mirror × State) m => let (m, t) := ackMirror m acc.2; (acc.1 ++ [m], t)) ([], s)
  s.onBat (fun t => { t with mirrors := l })

/-- Blocks of a MIRROR kept under their write (R490). -/
def mirrorBlocks (tag ns first : Nat) (blocks : List (List Byte)) (s : State) : State :=
  let new : List (Nat × Option Nat × List Byte) := (List.range blocks.length).map (fun i => (first + i, none, blocks.getD i []))
  let s := if s.bat.mirrors.any (fun m => m.tag == tag && !m.committed) then
      s.onBat (fun t => { t with mirrors := t.mirrors.map (fun m => if m.tag = tag ∧ !m.committed then { m with blocks := m.blocks ++ new } else m) })
    else s.onBat (fun t => { t with mirrors := t.mirrors ++ [⟨tag, ns, false, false, new⟩] })
  ackMirrors s

/-- COMMIT (R490): the write's mirror is whole; with the transfer-copy flag it is this chip's own transfer copy. Older copies of its blocks go. -/
def commitMirror (tag ns first count : Nat) (transfer : Bool) (s : State) : State :=
  let s :=
    if transfer then
      match (s.bat.forwards.find? (fun f => f.tag == tag)).bind (fun f => s.slot f.slot) with
      | some x => s.onBat (fun t => { t with mirrors := t.mirrors ++ [⟨tag, ns, false, false, (List.range count).map (fun i => (first + i, none, x.data.getD i []))⟩] })
      | none => s
    else s
  let s := dropMirrored (fun m b => m.committed && decide (first ≤ b) && decide (b < first + count)) s
  ackMirrors (s.onBat (fun t => { t with mirrors := t.mirrors.map (fun m => if m.tag = tag then { m with committed := true } else m) }))

/-- MFREE (R490): the copies of placed blocks are freed, and mirrors that waited for a page may have one. -/
def freeMirrored (first count : Nat) (s : State) : State := ackMirrors (dropMirrored (fun m b => m.committed && decide (first ≤ b) && decide (b < first + count)) s)

/-- The newest clean copy of a block (R494): one that is poisoned in this chip's DRAM is discarded. -/
def mirrorCopy (s : State) (lba : Nat) : Option (List Byte) :=
  let l := s.bat.mirrors.flatMap (fun m => m.blocks.filter (fun b => b.1 == lba))
  match l.getLast? with
  | some (_, some p, d) => if (List.range 64).any (fun i => linePoisoned s (64 * p + i)) then none else some d
  | some (_, none, d) => if d.isEmpty then none else some d
  | none => none

/-- A write whose MACK has come completes (R490). -/
def mirrored (tag : Nat) (s : State) : State :=
  let mine := s.bat.macks.filter (fun f => f.tag == tag)
  let s := s.onBat (fun t => { t with macks := t.macks.filter (fun f => f.tag != tag) })
  forEach mine (fun f s =>
    match s.slot f.slot with
    | some x => if x.mirror then (let r := writeResult s x; finish f.slot r (s.setSlot f.slot { x with mirror := false })) else s
    | none => s) s

/-- A mirror block whose copy was discarded as poisoned comes again from its home (R494); the write's MACK stands. -/
def mirrorAgain (lba : Nat) (blocks : List (List Byte)) (s : State) : State :=
  match blocks with
  | d :: _ =>
    ackMirrors (s.onBat (fun t => { t with mirrors := t.mirrors.map (fun m =>
      { m with blocks := m.blocks.map (fun b => if b.1 = lba ∧ b.2.1.isNone ∧ b.2.2.isEmpty then (lba, none, d) else b) }) }))
  | [] => s

/-- A MIRROR in reply to MREQ (R420, R494): the partner's copy of a poisoned dirty block restores it, or the block is lost, every write's MACK
standing; or it is a mirror block sent again. -/
def mirrorReply (lba : Nat) (blocks : List (List Byte)) (s : State) : State :=
  if !s.bat.asked.contains lba then mirrorAgain lba blocks s
  else
    let s := s.onBat (fun t => { t with asked := t.asked.erase lba })
    match cacheGet s lba with
    | none => s
    | some c =>
      match blocks with
      | d :: _ =>
        let s := forEach ((List.range 64).map (fun i => 64 * c.loc + i)) (fun gl s => setPoison gl false s) s
        (cacheSet lba { c with data := d } (memWrite (4096 * c.loc) (fit 4096 d) s)).flag F.BUF_FLT_MIRROR_RECOVERED
      | [] => lostBlock lba c.fn s

/-! ### The shadow map (R491, R501) -/

/-- A logical band belongs to a namespace whose home this chip is. -/
def lbandMine (s : State) (l : Nat) : Bool := match nsOfLba s (l * bandSectors s) with | some (_, e) => isHome s e | none => false

/-- An effect of the map's operations carried out on the shadow: its tables in the places of the map's. -/
def onShadow (f : State → State) (s : State) : State :=
  let live := s.bnd
  let t := f (s.onBnd (fun b => { b with lbt := s.bat.shadowLbt, pbt := s.bat.shadowPbt, mci := s.bat.shadowMci }))
  let sh := t.bnd
  { s with bnd := live, bat := { s.bat with shadowLbt := sh.lbt, shadowPbt := sh.pbt, shadowMci := sh.mci } }

/-- The unflushed entries after one more (R491): a CHECKPOINT leaves of those before it only its own REGION and ALLOC entries. -/
def keepUnflushed (l : List JEntry) (e : JEntry) : List JEntry :=
  if e.type_ = 0x0F then (l.reverse.takeWhile (fun x => x.type_ == 0x07 || x.type_ == 0x08)).reverse ++ [e] else l ++ [e]

/-- A mirrored journal entry applied to the shadow and kept while unflushed (R491). -/
def shadowEntry (e : JEntry) (s : State) : State :=
  (onShadow (replayEntry e) s).onBat (fun t => { t with unflushed := keepUnflushed t.unflushed e })

/-- The shadow of what the partner becomes home of starts as this chip's own map of it (R501). -/
def shadowOwn (s : State) : State :=
  let lbt := s.bnd.lbt.filter (fun p => !lbandMine s p.1)
  let pbt := s.bnd.pbt.filter (fun p => !owns s p.2.act)
  let mci := s.bnd.mci.filter (fun e => !lbandMine s (lbandOf s e.first))
  s.onBat (fun t => { t with shadowLbt := lbt, shadowPbt := pbt, shadowMci := mci, unflushed := [] })

/-- The pre-list and the log's head and tail of an actuator from the unflushed entries of the last mirrored CHECKPOINT (R491, R498). -/
def adoptLane (a : Lane) (l : List JEntry) (s : State) : State :=
  let pre := (l.filter (fun e => e.type_ == 0x07 && e.act == a.val)).flatMap (fun e => ([e.band, e.arg0, e.arg1] : List Nat).take e.count)
  let s := s.onBnd (fun b => { b with prelist := setV b.prelist a pre })
  let n := logSectors s a
  if n = 0 then s
  else
    let at_ := match (l.filter (fun e => e.type_ == 0x08 && e.act == a.val && e.arg1 % 2 == 1)).getLast? with | some e => e.arg0 % n | none => 0
    let added := (l.filter (fun e => e.type_ == 0x01 && e.arg0 / 2 ^ 30 == a.val)).foldl (fun m e => max m ((e.arg0 % 2 ^ 30 + e.count + n - at_) % n)) 0
    let h := at_ + added
    let offs := s.bnd.mci.filterMap (fun e => match e.loc with | some (x, i) => if x = a.val then some ((i + n - h % n) % n) else none | none => none)
    s.onBnd (fun b => { b with mc := setV b.mc a { b.mc.get a with head := n + h, tail := h + offs.foldl min n } })

/-- The shadow made live for what this chip is now the home of (R498, R501): its tables enter the map, its unflushed changes the journal. -/
def shadowLive (acquired : BitVec 4) (s : State) : State :=
  let t := s.bat
  let lb := t.shadowLbt.filter (fun p => lbandMine s p.1)
  let pb := t.shadowPbt.filter (fun p => owns s p.2.act)
  let ex := t.shadowMci.filter (fun e => lbandMine s (lbandOf s e.first))
  let s := s.onBnd (fun b => { b with lbt := lb.foldl (fun m p => smSet p.1 p.2 m) b.lbt, pbt := pb.foldl (fun m p => smSet p.1 p.2 m) b.pbt })
  let s := forEach ex mciAdd s
  let s := forEach (lanes.filter (fun (a : Lane) => acquired.getLsbD a)) (fun a s => adoptLane a t.unflushed s) s
  let changes := t.unflushed.filter (fun e => e.type_ != 0x07 && e.type_ != 0x08 && e.type_ != 0x0F && e.type_ != 0)
  let s := showJournal (s.onBnd (fun b => { b with jnl := b.jnl ++ changes }))
  s.onBat (fun t => { t with shadowLbt := t.shadowLbt.filter (fun p => !lbandMine s p.1), shadowPbt := t.shadowPbt.filter (fun p => !owns s p.2.act), shadowMci := t.shadowMci.filter (fun e => !lbandMine s (lbandOf s e.first)) })

/-- Lanes newly owned start their servo and load their heads (R498 step 3, R501). -/
def startLanes (acquired : BitVec 4) (s : State) : State := wantHeads (forEach (lanes.filter (fun (n : Lane) => acquired.getLsbD (actOf s n) && lanePresent s n)) svEnable s)

/-! ### Failover (R498 to R500) -/

/-- A committed mirror adopted as this chip's own dirty data (R499). Blocks that find no page wait in the list. -/
def adoptMirror (m : Mirror) (s : State) : State :=
  let (bl, s) := placeBlocks (m.blocks.filter (fun b => b.2.1.isSome || !b.2.2.isEmpty)) s
  let put := bl.filter (fun b => b.2.1.isSome)
  let left := bl.filter (fun b => b.2.1.isNone)
  let s := forEach put (fun b s =>
    match b.2.1 with
    | some l => (cacheSet b.1 ⟨b.2.2, true, false, forwardedAcct, m.ns, 0, none, l⟩ (cacheDrop b.1 s)).count F.BAT_CNT1_ADOPTED
    | none => s) s
  if left.isEmpty then s else s.onBat (fun t => { t with mirrors := t.mirrors ++ [{ m with blocks := left }] })

/-- The committed mirrors adopted in admission order, the uncommitted discarded (R499). -/
def adoptMirrors (s : State) : State :=
  let all := s.bat.mirrors
  let s := s.onBat (fun t => { t with mirrors := [] })
  let (yes, no) := all.partition (fun m => m.committed)
  let s := forEach no (fun m s => forEach m.blocks (fun b s => match b.2.1 with | some l => freePlace l s | none => s) (batFlag F.BAT_FLT_MIRROR_DISCARD s)) s
  forEach yes adoptMirror s

/-- Extents sent to the partner without an outcome end with ABORTED and are done again (R319, R498): their requests wait anew. -/
def endForwarded (s : State) : State :=
  let l := s.bat.extents
  if l.isEmpty then s
  else
    let idx := l.map (fun e => e.2.idx)
    let s := s.onBat (fun t => { t with extents := [] })
    let s := (forEach l (fun e s => request e.2.req s) { s with rly := { s.rly with pool := s.rly.pool.filter (fun i => !(i.forwarded && idx.contains i.idx)) } }).flag F.RLY_FLT_FWD_FAIL
    showRelay s

/-- Extents received from the partner are ended and their charges dropped (R498): what an actuator does for one runs to its end for nobody. -/
def endReceived (s : State) : State :=
  let theirs := fun (r : WorkReq) => match r.for_ with | .forwarded _ => true | _ => false
  let gone := fun (i : Item) => if theirs i.req then { i with req := { i.req with for_ := .host 16384 } } else i
  let r := s.rly
  showRelay { s with rly := { r with requests := r.requests.filter (fun q => !theirs q), pool := r.pool.filter (fun i => !theirs i.req), acts := r.acts.map (Act.mapItems gone) } }

/-- Commands of the partner run to their end here and their DONE is discarded (R498). -/
def endGuests (s : State) : State :=
  let l := s.bat.guests
  forEach l (fun g s => match s.slot g.slot with | some x => if x.result.isSome then freeSlot g.slot s else s.setSlot g.slot { x with dropped := true } | none => s) (s.onBat (fun t => { t with guests := [] }))

/-- A command entered as one of this chip's own (R488, R498, R500): it takes its FON; a range list of Dataset Management or Copy is still to be taken. -/
def enterOwn (k : Nat) (s : State) : State :=
  match s.slot k with
  | some x =>
    match x.cmd.op with
    | .dsm _ => s.setSlot k { x with state := .decode }
    | .copy => s.setSlot k { x with state := .decode }
    | _ => let (r, w) := runsOf s x; enterRuns k r w s
  | none => s

/-- A command that was forwarded and has had no DONE runs here (R500): a write's data comes from this chip's own copy. -/
def reissue (k : Nat) (s : State) : State :=
  match s.slot k with
  | some x =>
    if x.result.isSome then s
    else
      let s := s.count F.BAT_CNT1_REISSUED
      if x.fon.isSome then s -- a Flush of all namespaces has entered already
      else
        let sends := match x.cmd.op with | .write => true | .compare => true | .zoneAppend => true | .dsm _ => true | .copy => true | _ => false
        enterOwn k (s.setSlot k { x with data := if sends then x.data else [], fetched := sends })
  | none => s

/-- Slots whose command waited for the failover to end (R498). -/
def waitingSlots (s : State) : List Nat :=
  slotsWhere s (fun x => x.sq != 0 && decide (x.fn < 128) && x.fon.isNone && x.result.isNone && x.state == .waiting && slotWaits s x)

/-- Failover after every claimed ACK (R498): steps 1 to 4, the scans of step 3 then running. -/
def failover (s : State) : State :=
  let got := s.bat.claimed
  let s := s.cond F.GLB_MODE_COND_PARTNER_LOST
  let s := (batFlag F.BAT_FLT_FAILOVER s).batStat F.BAT_STAT_FAILOVER 1
  let s := endGuests (endReceived (endForwarded (showMirroring s)))
  let s := adoptMirrors (s.batStat F.BAT_STAT_FAILOVER 2)
  let unflushed := s.bat.unflushed
  let s := shadowLive got s
  let regions := (regionsOf (s.onBnd (fun b => { b with prelist := Vector.ofFn (fun (a : Fin 4) => if got.getLsbD a then b.prelist.get a else []) })) unflushed).filter (fun r => got.getLsbD r.lane)
  let s := showScan (s.onBnd (fun b => { b with scan := regions, accepted := [], seqFound := 0 }))
  let s := spinPort (startLanes got s)
  let again := s.bat.forwards.map (fun f => f.slot)
  let s := forEach again reissue (s.onBat (fun t => { t with unacked := [], waitTx := [], forwards := [], unflushed := [], macks := [], racks := [], jacks := [], asked := [], adopted := false, phase := 0, peerResynced := false }))
  -- writes that waited for a MACK complete: the cache is now unprotected (R500)
  let s := forEach (slotsWhere s (fun x => x.mirror)) (fun k s => match s.slot k with | some x => finish k (writeResult s x) (s.setSlot k { x with mirror := false }) | none => s) s
  pairSettle s

/-- Step 3 ends when the regions are scanned: rewrites and zones are resolved, the counter set, a flush forced (R498, R273, R274). -/
def adoptScans (s : State) : State :=
  let rewrites := s.bnd.open_
  let s := forEach rewrites resolveRewrite (s.onBnd (fun b => { b with open_ := [] }))
  let zones := (s.bnd.pbt.filter (fun e => e.2.state == 1)).map (fun e => e.1)
  let s := forEach (zones.filter (fun b => s.bnd.accepted.any (fun a => a.1 == some b))) resolveZone s
  let ceil := (s.pair R.BAT_SEQ_CEIL_LO R.BAT_SEQ_CEIL_HI).toNat
  let s := putSeq (max (seqNext s) (max ceil s.bnd.seqFound)) s
  (forceFlush (s.onBnd (fun b => { b with accepted := [] }))).onBat (fun t => { t with adopted := true })

/-- Step 5 (R498): the groups report Optimized, and the commands that waited run. -/
def failoverEnds (s : State) : State :=
  let wait := waitingSlots s
  let s := (s.batStat F.BAT_STAT_FAILOVER 3).onBat (fun t => { t with claimed := 0, adopted := false })
  pairSettle (forEach wait enterOwn s)

/-! ### The link lost (R497) -/

/-- The partner holds its cells and answers nothing (R497): the claims go, BAT is lost, mirrors and shadow are discarded, and the commands that the
partner had end as its groups stand, Inaccessible. -/
def loseLink (s : State) : State :=
  let s := setClaim (claimBits s &&& ~~~s.bat.claimed) s
  let mine := s.bat.forwards.map (fun f => f.slot)
  let s := batFlag F.BAT_FLT_LINK_LOST (s.batStat F.BAT_STAT_LINK_UP 0)
  let s := (s.put F.BAT_CRED_AVAIL 0).batStat F.BAT_STAT_PEER_OK 0
  let s := endGuests (endReceived (endForwarded (dropMirrored (fun _ _ => true) s)))
  let s := s.onBat (fun t => { t with claimed := 0, linkLost := true, mirrors := [], shadowLbt := [], shadowPbt := [], shadowMci := [], unflushed := [], unacked := [], waitTx := [], forwards := [], macks := [], racks := [], jacks := [], asked := [], phase := 0 })
  let s := forEach mine (fun k s => finish k (retryResult .anaInaccessible) s) s
  let s := forEach (slotsWhere s (fun x => x.mirror)) (fun k s => match s.slot k with | some x => finish k (writeResult s x) (s.setSlot k { x with mirror := false }) | none => s) s
  pairSettle ((showMirroring s).loseUnit0 29)

/-! ### Changes of ownership (R483, R501) -/

/-- An owned actuator's cell is lost without a release (R483). -/
def ownLost (n : Lane) (s : State) : State := (batFlag F.BAT_FLT_OWN_LOST (svRetract n s)).loseUnit0 (12 + n)

/-- A lane given up: its servo stops, its sequencer halts, and what waited for its actuator will be forwarded (R478, R501). -/
def giveUpLane (n : Lane) (s : State) : State :=
  let s := haltSeq n 0 false (headLinkStop n (svDisable n s))
  let a := actOf s n
  let s := abortItems a (abortLadder n s)
  let mine := fun (i : Item) => i.req.act == a.val && !i.forwarded
  let back := (s.rly.pool.filter mine).map (fun i => i.req)
  showRelay { s with rly := { s.rly with requests := back ++ s.rly.requests, pool := s.rly.pool.filter (fun i => !mine i) } }

/-- RELEASE of actuators (R501): sent when their CLAIM is cleared. -/
def sendRelease (acts : BitVec 4) (s : State) : State :=
  let (tag, s) := newTag s
  batSend tag (.release acts) s

/-- CLAIM as firmware writes it (R482): clearing the bits of actuators that this chip owns, with the partner met, releases them (R501, log 30). -/
def ownCtlEff (v : BitVec 4) (s : State) : State :=
  let drop := ackBits s &&& claimBits s &&& ~~~v
  let s := setClaim v s
  if drop ≠ 0 ∧ partnerMet s then anaUpdate (sendRelease drop (s.onBat (fun t => { t with releasing := t.releasing ||| drop }))) else s

/-- BAT_OWN_ACK has changed (R483, R498, R501). -/
def ackChange (ack : BitVec 4) (s : State) : State :=
  let was := ackBits s
  let fell := was &&& ~~~ack
  let rose := ack &&& ~~~was
  let lost := fell &&& claimBits s
  let gave := fell &&& ~~~claimBits s
  let s := forEach (lanes.filter (fun (n : Lane) => lost.getLsbD (actOf s n))) ownLost s
  let s := forEach (lanes.filter (fun (n : Lane) => gave.getLsbD (actOf s n))) giveUpLane s
  let s := s.put F.BAT_OWN_STAT_ACK ack.toNat
  let s := if gave = 0 then s else shadowOwn s
  let took := rose &&& s.bat.releasing
  let s := if took = 0 then s
    else (startLanes took (shadowLive took s)).onBat (fun t => { t with releasing := t.releasing &&& ~~~took, unflushed := [], phase := 0, resynced := false })
  let s := spinPort (showToggling s)
  if s.bat.claimed ≠ 0 ∧ s.bat.claimed &&& ~~~ack = 0 ∧ s.get F.BAT_STAT_FAILOVER = 0 then failover s else pairSettle s

/-! ### Resynchronisation (R501) -/

/-- Phase 3: every dirty block mirrored as a write of its own, and every lost-write entry, key record and namespace entry sent. -/
def sendAllDirty (s : State) : State :=
  let s := s.onBat (fun t => { t with phase := 3 })
  let s := forEach (s.buf.cache.filter (fun e => e.2.dirty)) (fun e s =>
    let (tag, s) := newTag s
    let s := batSend tag (.mirror e.2.ns e.1 1 [e.2.data]) (cacheSet e.1 { e.2 with mirrored := true } s)
    (batSend tag (.commit e.2.ns e.1 1 false) s).onBat (fun t => { t with macks := t.macks ++ [⟨tag.toNat, 16384⟩] })) s
  let s := forEach s.buf.lwl (fun e s => batRecord (.lwlrec e.base e.ns e.fn e.map) none s) s
  let s := forEach s.bnd.ns (fun p s => batRecord (.nsrec p.1 (some p.2)) none s) s
  let s := forEach s.key.recs (fun p s => match keySelected s p.1 with | some r => batRecord (.keyrec p.1 (keyRecordBytes (s.key.kek.getD []) p.1 r)) none s | none => s) s
  batSend 0 (.resync 4) s

/-- A RESYNC message (R501): the returning chip asks with 1, the owner answers 2 once its image is placed, the returning chip 3 once it has loaded
the image, the owner 4 once all is sent (log 30). -/
def resyncPhase (phase : Nat) (image : Option MapImage) (s : State) : State :=
  let back := s.mode == Mode.partnerStandby
  match phase with
  | 1 => if back then s else startImage (s.onBat (fun t => { t with phase := 1 }))
  | 2 =>
    if !back then s
    else
      match image with
      | some m =>
        let late := s.bat.unflushed
        let s := s.onBat (fun t => { t with shadowLbt := m.lbt, shadowPbt := m.pbt, shadowMci := m.mci, phase := 3 })
        let s := forEach late (fun e s => onShadow (replayEntry e) s) (s.onBnd (fun b => { b with ns := m.ns.map (fun e => (e.1, nsKept b e.1 e.2)) }))
        batSend 0 (.resync 3) (showLwl (s.onBuf (fun b => { b with lwl := [] })))
      | none => batSend 0 (.resync 1) s
  | 3 => if back then s else sendAllDirty s
  | 4 => if back then sendHeartbeat (s.onBat (fun t => { t with phase := 4, resynced := true })) else s
  | _ => s

end Sys2Proof.Machine
end

