-- ==== Sys2Proof/Machine/BatonRows.lean ====
section
/-! DEFINITION. The rows of the partner pair (19_partner_pair.md): ownership, the link, the messages received, suspicion and failover. -/

namespace Sys2Proof.Machine

/-! ### Ownership and the link (R482, R487, R495, R497) -/

/-- OWN_TOGGLE (R482): BAT_OWN[a] changes its level for every claimed actuator while toggling is permitted. -/
def execOwnToggle (s : State) : Host.Outcome State Fault Refusal :=
  let s := showToggling s
  let t := BitVec.ofNat 4 (s.get F.BAT_OWN_STAT_TOGGLING)
  .next (if t = 0 then s else forEach (lanes.filter (fun (a : Lane) => t.getLsbD a)) (fun a s => s.emit (.own a.val)) (s.onBat (fun b => { b with pins := b.pins ^^^ t })))

/-- OWN_ACK_CHANGE (R480, R483, R498, R501). -/
def execOwnAckChange (ack : BitVec 4) (s : State) : Host.Outcome State Fault Refusal :=
  .next (if imageRole s = 0 ∨ s.mode = Mode.off then s else ackChange ack s)

/-- FAILOVER_DONE (R498): the scans end, then the forced flush. -/
def execFailoverDone (s : State) : Host.Outcome State Fault Refusal :=
  .next (
    if s.get F.BAT_STAT_FAILOVER ≠ 2 then s
    else if !s.bat.mirrors.isEmpty then (adoptMirrors s).settle
    else if !s.bat.adopted then (if s.bnd.scan.isEmpty then (adoptScans s).settle else s)
    else if s.bnd.flushDue ∨ s.bnd.flush.isSome then s
    else failoverEnds s)

/-- BATON_LINK_UP (R487, R495): the credits and sequence numbers start anew, and HELLO goes. -/
def execBatonLinkUp (s : State) : Host.Outcome State Fault Refusal :=
  .next (
    if !s.on F.BAT_CTL_ENABLE || imageRole s == 0 || !s.on F.GLB_UNIT_OK0_BAT || s.bat.linkLost || batonUp s then s
    else
      let s := (s.batStat F.BAT_STAT_LINK_UP 1).put F.BAT_CRED_AVAIL 256
      let s := (setFreed 0 s).onBat (fun b => { b with txNext := 0, rxNext := 0, unacked := [], waitTx := [] })
      batSend 0 (helloMsg s) s)

/-- HELLO (R495, R496). -/
def execHello (h : BatHdr) (set role stepping image fw : Nat) (manifest : BitVec 128) (s : State) : Host.Outcome State Fault Refusal :=
  .next (batReceive h (.hello set role stepping image fw manifest) (fun s =>
    let s := (((s.put F.BAT_PEER_VER_VERSION fw).put F.BAT_PEER_SET_PAIR_SET set).put F.BAT_PEER_SET_ROLE role).put F.BAT_PEER_SET_STEPPING stepping
    let same := match pairSec s with | some (r, p, _) => p == set && ((r == 1 && role == 2) || (r == 2 && role == 1)) | none => false
    pairSettle (meet (same && testedPeer s stepping image fw) s)) s)

/-- The owner of every actuator hands the partner's homes back (R501, phase 4): once the partner has resynchronised and every MACK is there. -/
def handBack (s : State) : State :=
  let give := ackBits s &&& partnerHomes s
  if s.on F.GLB_MODE_COND_PARTNER_LOST && s.bat.peerResynced && s.get F.BAT_STAT_PEER_MODE == Mode.partnerStandby && s.bat.macks.isEmpty && give != 0 && s.bat.releasing == 0 then
    ownCtlEff (claimBits s &&& ~~~give) s
  else s

/-- The partner owns actuators again (R501): PARTNER_LOST clears, and T11 follows. -/
def partnerBack (s : State) : State :=
  if s.on F.GLB_MODE_COND_PARTNER_LOST && partnerMet s && peerOwns s != 0 then
    ((s.uncond F.GLB_MODE_COND_PARTNER_LOST).batStat F.BAT_STAT_FAILOVER 0).onBat (fun b => { b with phase := 0, releasing := b.releasing &&& ~~~peerOwns s })
  else s.onBat (fun b => { b with releasing := if partnerMet s then b.releasing &&& ~~~(peerOwns s &&& ~~~ackBits s) else b.releasing })

/-- HEARTBEAT (R486, R493, R497, R501). -/
def execHeartbeat (h : BatHdr) (mode : Nat) (owned lost : BitVec 4) (ke pcache resynced : Bool) (offer ack : Nat) (s : State) :
    Host.Outcome State Fault Refusal :=
  .next (batReceive h (.heartbeat mode owned lost ke pcache resynced offer ack) (fun s =>
    let s := (s.batStat F.BAT_STAT_PEER_MODE mode).put F.BAT_OWN_STAT_PEER_OWNS owned.toNat
    let s := s.setPair R.BAT_SEQ_CEIL_LO R.BAT_SEQ_CEIL_HI (BitVec.ofNat 64 (offer % 2 ^ 48))
    let s := s.onBat (fun b => { b with peerLost := lost, peerKe := ke, peerResynced := resynced, ceiling := ack })
    pairSettle (spinPort (handBack (partnerBack s)))) s)

/-- HEARTBEAT_SEND (R497): PERIOD has passed. -/
def execHeartbeatSend (s : State) : Host.Outcome State Fault Refusal := .next (if batonUp s then sendHeartbeat s else s)

/-- RELEASE (R501): the partner is about to release actuators, which this chip claims. -/
def execRelease (h : BatHdr) (acts : BitVec 4) (s : State) : Host.Outcome State Fault Refusal :=
  .next (batReceive h (.release acts) (fun s =>
    pairSettle (setClaim (claimBits s ||| acts) (s.onBat (fun b => { b with releasing := b.releasing ||| acts })))) s)

/-- MESSAGE_REPLAY (R484, R487): a received message whose CRC fails is discarded and counted, its entries returned as credit; a message of the partner
names the LSEQ from which to replay, and replayed entries spend credits again. -/
def execMessageReplay (cause : ReplayCause) (s : State) : Host.Outcome State Fault Refusal :=
  .next (
    if !batonUp s then s
    else
      match cause with
      | .crcFailed len => sendHeartbeat (setFreed (s.bat.freed + len + 1) (s.count F.BAT_CNT_CRC_ERR))
      | .named l =>
        let again := s.bat.unacked.filter (fun e => !lseqBefore e.1 l)
        if again.isEmpty || s.on F.GLB_MODE_COND_POWER_FAIL then s
        else
          let s := batFlag F.BAT_FLT_REPLAY (s.count F.BAT_CNT_REPLAYS)
          (again.foldl (fun (acc : Bool × State) e =>
            let (go, s) := acc
            let n := msgLen e.2.2 + 1
            if go && decide (n ≤ s.get F.BAT_CRED_AVAIL) then
              (true, (s.emit (.baton e.1 s.bat.rxNext 0 e.2.1 e.2.2 (msgBytes e.1 s.bat.rxNext 0 e.2.1 e.2.2))).put F.BAT_CRED_AVAIL (s.get F.BAT_CRED_AVAIL - n))
            else (false, s)) (true, s)).2)

/-- PARTNER_SUSPECT (R497, R501): no valid message for MISS × PERIOD. -/
def execPartnerSuspect (s : State) : Host.Outcome State Fault Refusal :=
  .next (
    if imageRole s = 0 ∨ s.mode = Mode.off ∨ s.mode = Mode.service ∨ s.on F.BAT_STAT_SUSPECT ∨ s.on F.GLB_MODE_COND_PARTNER_LOST then s
    else
      let s := s.batStat F.BAT_STAT_SUSPECT 1
      let may := s.on F.BAT_CTL_AUTO_TAKE && !s.bat.linkLost && (s.mode != Mode.partnerStandby || s.bat.resynced) && peerOwns s != 0
      if may then setClaim (claimBits s ||| peerOwns s) (s.onBat (fun b => { b with claimed := peerOwns s })) else s)

/-- CLAIM_TIMEOUT (R497): 1 ms after the claim some ACK is still missing. -/
def execClaimTimeout (s : State) : Host.Outcome State Fault Refusal :=
  .next (if s.bat.claimed ≠ 0 ∧ s.get F.BAT_STAT_FAILOVER = 0 then loseLink s else s)

/-! ### Forwarded commands and extents (R318, R488) -/

/-- Why a forwarded command fails at its home. -/
def guestFault (s : State) (ns : Nat) (e : Sqe) : Option NvStatus :=
  match nsEntry s ns with
  | none => if e.op == .flush then none else some .invalidNamespace
  | some n =>
    if e.op == .flush && e.nsid == 0xFFFFFFFF then none
    else if nsDeleting s ns then some .invalidNamespace
    else
      match anaRefusal (anaState s n.set_.toNat) with
      | some st => some st
      | none =>
        if s.mode == Mode.readonly && writesMedia e.op then some .writeProtected
        else if hasRange e.op && decide (nsSize s n < e.slba + e.nlb) then some .lbaRange
        else if writesMedia e.op && keyLost s ns then some .writeFault
        else none

/-- CMD (R488): the home assigns a FON and runs the command as its own; with no slot free the message is not accepted. -/
def execCmd (h : BatHdr) (fn ns cls : Nat) (e : Sqe) (s : State) : Host.Outcome State Fault Refusal :=
  if 16384 ≤ s.qe.slots.length ∨ s.qe.stuck.isSome then .next s
  else
    .next (batReceive h (.cmd fn ns cls e) (fun s =>
      let k := freeSlotNo s
      let st := match e.op with | .dsm _ => SlotState.decode | .copy => .decode | .read => .waiting | _ => .running
      let x : Slot := ⟨256 + fn % 128, if cls = 1 then 1 else 2, 0, e, st, none, [], [], [], false, false, false, none, none, none, false, false, false, none, s.now.toNat, false, false⟩
      let s := (s.setSlot k x).onBat (fun b => { b with guests := b.guests ++ [⟨h.tag.toNat, k⟩] })
      match guestFault s ns e with
      | some err => (finish k (failResult err) (enterRuns k [] [] s)).settle
      | none =>
        match e.op with
        | .dsm _ => s
        | .copy => s
        | _ => let (r, w) := runsOf s x; (enterRuns k r w s).settle) s)

/-- Blocks of DATA added to a slot; a guest's write has its data once all are there. -/
def addData (k : Nat) (blocks : List (List Byte)) (guest : Bool) (s : State) : State :=
  match s.slot k with
  | some x =>
    let d := x.data ++ blocks
    let need := match x.cmd.op with | .dsm _ => 1 | .copy => 1 | _ => x.cmd.nlb
    s.setSlot k { x with data := d, fetched := x.fetched || (guest && decide (need ≤ d.length)) }
  | none => s

/-- DATA (R488, R318): of a command of the partner, of a command that it runs for this chip, of an extent that it reads for this chip or that it has
this chip write. -/
def execData (h : BatHdr) (first count : Nat) (blocks : List (List Byte)) (s : State) : Host.Outcome State Fault Refusal :=
  let tag := h.tag.toNat
  .next (batReceive h (.data first count blocks) (fun s =>
    match s.bat.guests.find? (fun f => f.tag == tag) with
    | some g => addData g.slot blocks true s
    | none =>
      match s.bat.forwards.find? (fun f => f.tag == tag) with
      | some f => addData f.slot blocks false s
      | none =>
        let each := fun (f : Nat → List Byte → State → State) (s : State) => forEach (List.range blocks.length) (fun i s => f (first + i) (blocks.getD i []) s) s
        if s.bat.extents.any (fun e => e.1 == tag) then (each blockArrived s).settle
        else each (fun lba d s => s.onBuf (fun b => { b with copies := smSet lba d b.copies })) s) s)

/-- A command's result from the partner counts for its function as its own does (R339). -/
def countDone (x : Slot) (status : NvStatus) (s : State) : State :=
  let ns := nsIndex x.cmd.nsid
  if status != .success then s
  else
    match x.cmd.op with
    | .read => countIo x.fn ns (fun c => { c with blocksRead := c.blocksRead + x.cmd.nlb, readCmds := c.readCmds + 1 }) s
    | .write => countIo x.fn ns (fun c => { c with blocksWritten := c.blocksWritten + x.cmd.nlb, writeCmds := c.writeCmds + 1 }) s
    | .zoneAppend => countIo x.fn ns (fun c => { c with blocksWritten := c.blocksWritten + x.cmd.nlb, writeCmds := c.writeCmds + 1 }) s
    | _ => s

/-- DONE (R488): the command's result at its home is its completion here. -/
def execDone (h : BatHdr) (status : NvStatus) (dnr : Bool) (dw0 dw1 : Nat) (s : State) : Host.Outcome State Fault Refusal :=
  let tag := h.tag.toNat
  .next (batReceive h (.done status dnr dw0 dw1) (fun s =>
    match s.bat.forwards.find? (fun f => f.tag == tag) with
    | none => s
    | some f =>
      let s := s.onBat (fun b => { b with forwards := b.forwards.filter (fun x => x.tag != tag) })
      match s.slot f.slot with
      | none => s
      | some x =>
        -- a Flush of every namespace also waits for this chip's own part (R488)
        if x.fon.isSome && status == .success then s.settle
        else
          let data := match x.cmd.op with | .read => x.data | .zoneReceive .. => x.data | _ => []
          (finish f.slot ⟨status, dnr, dw0, dw1, data⟩ (countDone x status s)).settle) s)

/-- EXTENT (R318, R304): it enters the pool with the age already spent, under the account of forwarded work. -/
def execExtent (h : BatHdr) (req : WorkReq) (age : Nat) (s : State) : Host.Outcome State Fault Refusal :=
  .next (batReceive h (.extent req age) (fun s =>
    let r : WorkReq := { req with for_ := .forwarded h.tag.toNat, fn := forwardedAcct, shares := [] }
    let mine := match lanes.find? (fun (a : Lane) => a.val == r.act) with | some a => ownAct s a | none => false
    if !mine then batSend h.tag (.outcome Outcome.laneLost 0) s
    else
      let p := s.get (F.SVn_PERIOD_PERIOD (laneNo s r.act))
      (enterPool r (if p = 0 then 0 else age * 25600000 / p) false (s.count F.RLY_CNT1_FWD_IN)).settle) s)

/-- OUTCOME (R318, R319): the extent ends here as it ended there, its charge taken. -/
def execOutcome (h : BatHdr) (ended charge : Nat) (s : State) : Host.Outcome State Fault Refusal :=
  let tag := h.tag.toNat
  .next (batReceive h (.outcome ended charge) (fun s =>
    match s.bat.extents.find? (fun e => e.1 == tag) with
    | none => s
    | some (_, i) =>
      let r := i.req
      let sh := itemShares r
      let parts := divideCharge charge sh
      let s := s.onBat (fun b => { b with extents := b.extents.filter (fun e => e.1 != tag) })
      let s := { s with rly := { s.rly with pool := s.rly.pool.filter (fun x => !(x.forwarded && x.idx == i.idx)) } }
      let s := showRelay (forEach (List.range sh.length) (fun j s => chargeAccount (sh.getD j (0, 0)).1 (parts.getD j (0, 0)).2 0 0 s) s)
      let s :=
        if ended = Outcome.done then
          (if r.kind = 1 then forEach (itemReports s r) (fun p s => bndPlaced { p with kind := .placed } s) s else tailReports i s)
        else if ended = Outcome.aborted then request r s
        else
          match r.for_, ended with
          | .host k, 1 => pendRetire r.band (failRead k r.lba r.count (failResult .unrecoveredRead) s)
          | .patrol, 1 => pendRetire r.band s
          | _, _ => failItem i (if ended = Outcome.unrecovered then Outcome.posFail else ended) s
      s.settle) s)

/-! ### Mirroring (R490 to R494) -/

/-- MIRROR (R490, R494). -/
def execMirror (h : BatHdr) (ns first count : Nat) (blocks : List (List Byte)) (s : State) : Host.Outcome State Fault Refusal :=
  .next (batReceive h (.mirror ns first count blocks) (fun s =>
    if h.tag = 0xFFFFFFFF then (mirrorReply first blocks s).settle else mirrorBlocks h.tag.toNat ns first blocks s) s)

/-- COMMIT (R490). -/
def execCommit (h : BatHdr) (ns first count : Nat) (transfer : Bool) (s : State) : Host.Outcome State Fault Refusal :=
  .next (batReceive h (.commit ns first count transfer) (commitMirror h.tag.toNat ns first count transfer) s)

/-- MACK (R490): the write completes. -/
def execMack (h : BatHdr) (s : State) : Host.Outcome State Fault Refusal :=
  .next (batReceive h .mack (fun s => (handBack (mirrored h.tag.toNat s)).settle) s)

/-- MFREE (R490). -/
def execMfree (h : BatHdr) (ns first count : Nat) (s : State) : Host.Outcome State Fault Refusal :=
  .next (batReceive h (.mfree ns first count) (freeMirrored first count) s)

/-- MREQ (R494): a home that asks is answered with the clean copy, or with an empty MIRROR, a poisoned copy being discarded; to a partner whose mirror
copy was poisoned the home sends the block again from its own cache (log 30). -/
def execMreq (h : BatHdr) (ns lba : Nat) (s : State) : Host.Outcome State Fault Refusal :=
  .next (batReceive h (.mreq ns lba) (fun s =>
    match mirrorCopy s lba with
    | some d => batSend 0xFFFFFFFF (.mirror ns lba 1 [d]) s
    | none =>
      match (cacheGet s lba).filter (fun c => c.dirty) with
      | some c => batSend 0xFFFFFFFF (.mirror ns lba 1 [c.data]) s
      | none => batSend 0xFFFFFFFF (.mirror ns lba 0 []) (dropMirrored (fun _ b => b == lba) s)) s)

/-- JNL (R491): applied to the shadow, and acknowledged. -/
def execJnl (h : BatHdr) (pos : Nat) (entries : List JEntry) (s : State) : Host.Outcome State Fault Refusal :=
  .next (batReceive h (.jnl pos entries) (fun s => batSend h.tag (.jack (pos + entries.length - 1)) (forEach entries shadowEntry s)) s)

/-- JACK (R491): the commands that awaited it may complete. -/
def execJack (h : BatHdr) (pos : Nat) (s : State) : Host.Outcome State Fault Refusal :=
  .next (batReceive h (.jack pos) (fun s =>
    s.onBat (fun b => { b with jnlAcked := max b.jnlAcked (pos + 1), jacks := b.jacks.filter (fun f => decide (pos < f.tag)) })) s)

/-- KEYREC (R389, R491): both copies take the record, which fails to unwrap where the partner has another drive secret (R525); the home of a namespace that another chip's command erases carries the erase on. -/
def execKeyrec (h : BatHdr) (ns : Nat) (rec_ : List Byte) (s : State) : Host.Outcome State Fault Refusal :=
  .next (batReceive h (.keyrec ns rec_) (fun s =>
    let got := goodCopy s rec_
    let deleted := rec_ == zeros 96
    let recs := if deleted then smErase ns s.key.recs else smSet ns (rec_, rec_) s.key.recs
    let keys := match got with | some r => smSet ns r.key s.key.keys | none => smErase ns s.key.keys
    let s := if !deleted && got.isNone then ((s.count F.KEY_CNT_UNWRAP_FAIL).count F.KEY_CNT_UNWRAP_FAIL).flag F.KEY_FLT_UNWRAP else s
    let s := showKeys { s with key := { s.key with recs := recs, keys := keys } }
    let home := match nsEntry s ns with | some e => isHome s e | none => false
    let pending := match got with | some r => r.erasePending | none => false
    let s := if home && pending && !s.key.erases.any (fun x => x.ns == ns) then eraseData ns false false none s else s
    (batSend h.tag .rack s).settle) s)

/-- NSREC (R346, R491): the namespace table and the attachment maps follow the partner's change. -/
def execNsrec (h : BatHdr) (ns : Nat) (entry : Option NsEntry) (s : State) : Host.Outcome State Fault Refusal :=
  .next (batReceive h (.nsrec ns entry) (fun s =>
    let old := nsEntry s ns
    let told := ((old.map (fun e => e.attached)).getD []) ++ ((entry.map (fun e => e.attached)).getD [])
    let s := match entry with
      | some e => s.onBnd (fun b => { b with ns := smSet ns e b.ns, attach := smSet ns (e.pi_, e.attached, e.permits) b.attach })
      | none =>
        match old with
        | some o =>
          let s := if isHome s o then eraseMap o none (eraseLost ns none (eraseCache ns o s)) else s
          s.onBnd (fun b => { b with ns := smErase ns b.ns, attach := smErase ns b.attach })
        | none => s
    let s := if old == entry then s else nsChanged ns told s
    (batSend h.tag .rack (anaUpdate s)).settle) s)

/-- RACK (R491): the change's command may complete. -/
def execRack (h : BatHdr) (s : State) : Host.Outcome State Fault Refusal :=
  .next (batReceive h .rack (fun s => showKeys (s.onBat (fun b => { b with racks := b.racks.filter (fun f => f.tag != h.tag.toNat) }))) s)

/-- LWLREC (R492): the entry as it now stands; a zero map frees it. -/
def execLwlrec (h : BatHdr) (base ns fn : Nat) (map : BitVec 256) (s : State) : Host.Outcome State Fault Refusal :=
  .next (batReceive h (.lwlrec base ns fn map) (fun s =>
    let rest := s.buf.lwl.filter (fun x => !(x.base == base && x.ns == ns))
    batSend h.tag .rack (showLwl (s.onBuf (fun b => { b with lwl := if map = 0 then rest else rest ++ [⟨base, ns, fn, map, true⟩] })))) s)

/-- RESYNC (R501): `image` is the map image that the returning chip reads in phase 2. -/
def execResync (h : BatHdr) (phase : Nat) (image : Option MapImage) (s : State) : Host.Outcome State Fault Refusal :=
  .next (batReceive h (.resync phase) (fun s => (resyncPhase phase image s).settle) s)

end Sys2Proof.Machine
end

