-- ==== Sys2Proof/Machine/Scc.lean ====
section
/-! DEFINITION. The shared cache SCC, the interrupt router and the watchdogs (17_cores_and_cache.md, R440 to R454), and the loss of a DRAM
channel (R426). Buffer memory (`Buf.mem`) is the coherent view of R454: SCC's lines record where a line lies, whether it is dirty or poisoned
and which L1 caches hold it. -/

namespace Sys2Proof.Machine

def State.onCcx (s : State) (f : Ccx → Ccx) : State := { s with ccx := f s.ccx }

/-! ### Ways (R53, R446, R452, R453) -/

/-- QE_WAYS and BND_WAYS of the SRAM section (R53). -/
def waySec (s : State) : Nat × Nat :=
  (findSection s.cfg.image (fun d => match d.body with | .sram q b _ => some (q, b) | _ => none)).getD (0, 0)

/-- Cache ways: the queue structures take the highest ways, the band-manager tables those just below (R53). -/
def cacheWays (s : State) : Nat := 16 - (waySec s).1 - (waySec s).2

/-- A queue-structure way (R453). -/
def isQeWay (s : State) (w : Nat) : Bool := decide (16 - (waySec s).1 ≤ w)

/-- The cache ways enabled, lowest first. -/
def enabledWays (s : State) : List Nat := (List.range (cacheWays s)).filter (fun w => (s.reg R.SCC_WAY_EN).getLsbD w)

/-- The line in SCC, with its key 16 × set + way. -/
def sccFind (s : State) (gl : Nat) : Option (Nat × SccLine) := s.ccx.lines.find? (fun e => e.2.line == gl)

def sccPut (key : Nat) (l : SccLine) (s : State) : State := s.onCcx (fun c => { c with lines := smSet key l c.lines })
def sccDrop (key : Nat) (s : State) : State := s.onCcx (fun c => { c with lines := smErase key c.lines })

/-- The line's poison as a requester meets it: that of SCC's copy, else that of DRAM (R446, R448). -/
def glPoisoned (s : State) (gl : Nat) : Bool := match sccFind s gl with | some (_, l) => l.poison | none => linePoisoned s gl

/-- A line leaves SCC (R449): a dirty one is written first, with the poison mark where it is poisoned. -/
def sccEvict (key : Nat) (s : State) : State :=
  match smGet key s.ccx.lines with
  | none => s
  | some l =>
    let s := sccDrop key s
    if !l.dirty then s
    else if l.poison then (let (ch, n) := glLine s l.line; sendBurst ch n (encodeLine (zeros 64) gdelta) (setPoison l.line true s))
    else fullWrite l.line (memRead s (64 * l.line) 64) s

/-- A key's age. -/
def ageAt (s : State) (key : Nat) : Nat := match smGet key s.ccx.lines with | some l => l.age | none => 0

/-- The victim of a fill in a set (R447, rule 2), and the state with its ages raised where no line had age 3. -/
def sccVictim (set : Nat) (s : State) : Option Nat × State :=
  let keys := (enabledWays s).map (fun w => 16 * set + w)
  match keys.find? (fun k => (smGet k s.ccx.lines).isNone) with
  | some k => (some k, s)
  | none =>
    let top := (keys.map (ageAt s)).foldl max 0
    let s := s.onCcx (fun c => { c with lines := c.lines.map (fun e => if keys.contains e.1 then (e.1, { e.2 with age := e.2.age + (3 - top) }) else e) })
    (keys.find? (fun k => ageAt s k == 3), s)

/-- A line filled from DRAM (R447 rule 3, R448): a poisoned one with its poison bit. -/
def sccFillLine (gl : Nat) (streaming prefetched : Bool) (s : State) : State :=
  match sccVictim (gl % 8192) s with
  | (some k, s) =>
    let s := sccEvict k s
    sccPut k ⟨gl, false, linePoisoned s gl, (if streaming && !s.on F.SCC_CTL_STREAM_INS then 3 else 1), prefetched, 0⟩ s
  | (none, s) => s

/-- A hit (R447 rule 1): the age becomes 0 but for a streaming request, and a prefetched line counts as used. -/
def sccTouch (key : Nat) (l : SccLine) (streaming : Bool) (s : State) : State :=
  let s := if l.prefetched then s.count F.SCC_CNT1_PF_USED else s
  sccPut key { l with age := (if streaming then l.age else 0), prefetched := false } s

/-! ### Prefetch (R450) -/

/-- Prefetches of the next DEPTH lines along a stride, within the buffer page of `line`. -/
def prefetchFrom (line : Nat) (stride : Int) : Nat → Nat → State → State
  | _, 0, s => s
  | k, n + 1, s =>
    let l : Int := line + (k : Int) * stride
    let s := if l < 0 ∨ l.toNat / 1024 ≠ line / 1024 ∨ (sccFind s l.toNat).isSome then s
      else (sccFillLine l.toNat true true s).count F.SCC_CNT1_PF_ISSUED
    prefetchFrom line stride (k + 1) n s

/-- A training step has left this entry: it becomes the most recently trained, and prefetches go where its confidence suffices. -/
def trained (old : Option Stride) (e : Stride) (s : State) : State :=
  let keep := match old with
    | some o => s.ccx.streams.erase o
    | none => if 32 ≤ s.ccx.streams.length then s.ccx.streams.drop 1 else s.ccx.streams
  let s := s.onCcx (fun c => { c with streams := keep ++ [e] })
  if s.on F.SCC_CTL_PF_EN && decide (min 3 (s.get F.SCC_PF_CFG_CONF) ≤ e.conf) then prefetchFrom e.last e.stride 1 (max 1 (s.get F.SCC_PF_CFG_DEPTH)) s else s

/-- A miss, or a hit on a prefetched line, of a requester (R450): a hart 0 to 7, or 8 + a DMA channel reading with the allocate hint. -/
def trainStream (who line : Nat) (miss : Bool) (s : State) : State :=
  let mine := s.ccx.streams.filter (fun e => e.who == who)
  match mine.find? (fun e => (e.last : Int) + e.stride == (line : Int)) with
  | some e => trained (some e) { e with last := line, conf := min 3 (e.conf + 1) } s
  | none =>
    if !miss then s
    else
      let d := fun (e : Stride) => (line : Int) - (e.last : Int)
      match mine.find? (fun e => decide (-64 ≤ d e) && decide (d e ≤ 64)) with
      | some e => trained (some e) { e with last := line, stride := d e, conf := 0 } s
      | none => trained none ⟨who, line, 0, 0⟩ s

/-! ### Requests (R446, R454) -/

/-- A write by a requester invalidates every other L1 copy of the line, and ends every other hart's reservation on it (R437, R454). -/
def sccExclusive (gl : Nat) (writer : Option (Fin 8)) (s : State) : State :=
  let s := match sccFind s gl with
    | some (k, l) => sccPut k { l with holders := (match writer with | some h => l.holders &&& (1#8 <<< h.val) | none => 0) } s
    | none => s
  s.onCcx (fun c => { c with reserve := Vector.ofFn (fun (h : Fin 8) => if c.reserve.get h = some gl ∧ writer ≠ some h then none else c.reserve.get h) })

/-- A core's lookup of a line: a hit, or a miss that fills it and trains (R446, R450). The line is in SCC afterwards wherever a cache way is
enabled. -/
def coreLookup (h : Fin 8) (gl : Nat) (s : State) : State :=
  match sccFind s gl with
  | some (k, l) =>
    let s := (sccTouch k l false s).count F.SCC_CNT_HITS
    if l.prefetched then trainStream h gl false s else s
  | none => trainStream h gl true (sccFillLine gl false false (s.count F.SCC_CNT_MISSES))

/-- The L1 data cache of a hart holds the line from now on (R454). -/
def l1Hold (h : Fin 8) (gl : Nat) (s : State) : State :=
  match sccFind s gl with
  | some (k, l) => if l.poison then s else sccPut k { l with holders := l.holders ||| (1#8 <<< h.val) } s
  | none => s

/-- A device read of a line by a DMA channel (R446, R467): a hit reads there; a miss goes to BUF, or fills with the allocate hint. Answers
whether the line is poisoned. -/
def deviceRead (ch gl : Nat) (stream alloc : Bool) (s : State) : Bool × State :=
  let bad := glPoisoned s gl
  match sccFind s gl with
  | some (k, l) =>
    let s := sccTouch k l stream s
    (bad, if l.prefetched && alloc then trainStream (8 + ch) gl false s else s)
  | none => (bad, if alloc then trainStream (8 + ch) gl true (sccFillLine gl stream false s) else s)

/-- A device write of bytes within one line (R446, R412, R465): a hit updates the line and sets dirty; a miss goes to BUF, through the merge
buffer where it does not cover the line. -/
def deviceWrite (addr : Nat) (data : List Byte) (stream : Bool) (s : State) : State :=
  let gl := addr / 64
  let s := sccExclusive gl none s
  let full := data.length == 64
  match sccFind s gl with
  | some (k, l) =>
    let s := if l.prefetched then s.count F.SCC_CNT1_PF_USED else s
    memWrite addr data (sccPut k { l with dirty := true, poison := l.poison && !full, age := (if stream then l.age else 0), prefetched := false } s)
  | none =>
    if full then fullWrite gl data s
    else narrowWrite gl (((BitVec.allOnes 64) >>> (64 - data.length)) <<< (addr % 64)) (zeros (addr % 64) ++ data) s

/-! ### Errors in the arrays (R451, R452) -/

/-- A way disabled under R452: its dirty lines are written back, every line invalidated, its bit cleared. The last enabled cache way is kept. -/
def disableWay (w : Nat) (s : State) : State :=
  if isQeWay s w || !(s.reg R.SCC_WAY_EN).getLsbD w then s
  else if enabledWays s == [w] then s.flag F.SCC_FLT_LAST_WAY
  else
    let s := forEach (s.ccx.lines.filter (fun e => e.1 % 16 == w)) (fun e s => sccEvict e.1 s) s
    (s.put (F.SCC_WAY_EN_EN.bit w) 0).flag F.SCC_FLT_WAY_DIS

/-- A correctable error of a way (R451, R452). -/
def wayCorrected (w : Nat) (s : State) : State :=
  let (n, t) := smGetD (0, 0) w s.ccx.wayCe
  let s := s.onCcx (fun c => { c with wayCe := smPut (0, 0) w (min 255 (n + 1), min 65535 (t + 1)) c.wayCe })
  if 4 ≤ n + 1 ∧ s.on F.SCC_CTL_AUTO_DIS then disableWay w s else s

/-- What SECDED found on an access to a line (R451). -/
def sccArray (gl : Nat) (r : ArrayResult) (s : State) : State :=
  match sccFind s gl, r with
  | some (k, _), .correctable => wayCorrected (k % 16) s
  | some (k, l), .uncorrectable =>
    let s := sccDrop k s
    if !l.dirty then s.flag F.SCC_FLT_UE_CLEAN
    else
      let (ch, n) := glLine s gl
      let s := sendBurst ch n (encodeLine (zeros 64) gdelta) (setPoison gl true s)
      let s := psnLog ch n (glOwner s gl) 1 s
      (ownerAction gl (memWrite (64 * gl) (zeros 64) s)).flag F.SCC_FLT_UE_DIRTY
  | _, _ => s

/-- The line lies in the buffer (R436, R424). -/
def lineInBuf (s : State) (gl : Nat) : Bool := decide (64 * gl + 64 ≤ bufBytes s)

/-! ### Rows -/

/-- SCC_FILL (R446 to R450). -/
def execSccFill (hart : Fin 8) (line : Nat) (s : State) : Host.Outcome State Fault Refusal :=
  if !lineInBuf s line then .next s else .next (l1Hold hart line (coreLookup hart line s))

/-- Firmware disables a way (R452, R458): its bit of SCC_WAY_DIS is set, but the write is ignored for a queue-structure way and for the last cache
way, which only sets LAST_WAY. -/
def firmwareDisable (w : Nat) (s : State) : State :=
  let s := disableWay w s
  if isQeWay s w || (s.reg R.SCC_WAY_EN).getLsbD w then s else s.put (F.SCC_WAY_DIS_DIS.bit w) 1

/-- Firmware disables ways (R452). -/
def wayDisEff (w : Word) (s : State) : State := forEach ((List.range 16).filter (fun i => w.getLsbD i)) firmwareDisable s

/-- WAY_DISABLE (R452). -/
def execWayDisable (data : Word) (s : State) : Host.Outcome State Fault Refusal := .next (s.command R.SCC_WAY_DIS data (wayDisEff data))

/-! ### Interrupts (R440 to R443) -/

/-- Routing of a source: EN, LEVEL, PRIO, HART as CCX_IRQ_ROUTE bits [8:0]. -/
def routeOf (s : State) (n : Nat) : Nat := (smGetD 0 n s.ccx.routes).toNat

/-- The source is delivered to a hart at a level: pending, enabled, of a priority that is not 0. -/
def deliveredTo (s : State) (hart : Nat) (sup : Bool) (n : Nat) : Bool :=
  let r := routeOf s n
  s.ccx.irq.getLsbD n && bitsOf r 8 8 == 1 && bitsOf r 7 7 == b2n sup && bitsOf r 6 4 != 0 && bitsOf r 2 0 == hart

/-- The source that a claim takes (R442): the highest priority, the lower number among equals. -/
def claimChoice (s : State) (hart : Nat) (sup : Bool) : Option Nat :=
  ((List.range 256).filter (deliveredTo s hart sup)).foldl (fun (b : Option Nat) n =>
    match b with
    | some m => if bitsOf (routeOf s m) 6 4 < bitsOf (routeOf s n) 6 4 then some n else some m
    | none => some n) none

/-- A claim (R442): the number read, the pending bit cleared unless the event recurs in the same handshake. -/
def claimEff (hart : Nat) (sup again : Bool) (s : State) : Nat × State :=
  match claimChoice s hart sup with
  | some n => (n, if again then s else s.onCcx (fun c => { c with irq := c.irq &&& ~~~(BitVec.ofNat 256 1 <<< n) }))
  | none => (0, s)

/-- INTERRUPT_CLAIM (R442). -/
def execInterruptClaim (hart : Fin 8) (sup again : Bool) (s : State) : Host.Outcome State Fault Refusal :=
  let (n, s) := claimEff hart sup again s
  .next (s.answer (.value (BitVec.ofNat 32 n)))

/-- Hart k's machine timer interrupt follows the ring time and CCX_TCMPk (R443). -/
def showTimer (k : Nat) (s : State) : State :=
  let due := decide ((s.pair (R.CCX_TCMPk_LO k) (R.CCX_TCMPk_HI k)).toNat ≤ s.now.toNat)
  s.onCcx (fun c => { c with mtip := if due then c.mtip ||| (1#8 <<< k) else c.mtip &&& ~~~(1#8 <<< k) })

/-- TIMER_INTERRUPT (R443). -/
def execTimerInterrupt (hart : Fin 8) (s : State) : Host.Outcome State Fault Refusal := .next (showTimer hart s)

/-! ### Watchdogs (R444) -/

/-- A hart is held in reset (R444): its store buffer, its caches and its reservation are gone. -/
def hartHeld (h : Fin 8) (s : State) : State :=
  s.onCcx (fun c => { c with reserve := setV c.reserve h none, sb := setV c.sb h [], icache := setV c.icache h [], lines := c.lines.map (fun e => (e.1, { e.2 with holders := e.2.holders &&& ~~~(1#8 <<< h.val) })) })

/-- The lowest-numbered present hart. -/
def lowestHart (s : State) : Option Nat := (List.range 8).find? (fun k => (s.reg R.GLB_UNIT_OK0).getLsbD k)

/-- Every source routed to a lost hart goes to the lowest-numbered present one at the same level (R444). -/
def reroute (h : Nat) (s : State) : State :=
  match lowestHart s with
  | none => s
  | some k =>
    (s.onCcx (fun c => { c with routes := c.routes.map (fun e => if bitsOf e.2.toNat 2 0 = h then (e.1, BitVec.ofNat 32 (e.2.toNat / 8 * 8 + k)) else e) })).flag F.CCX_FLT_REROUTE

/-- A hart is lost (R444): held in reset, its unit lost, its sources rerouted. -/
def loseHart (h : Fin 8) (s : State) : State :=
  let s := ((hartHeld h s).put (F.CCX_HART_STAT_LOST.bit h) 1).flag (F.CCX_FLT_LOST.bit h)
  reroute h (s.loseUnit0 h)

/-- WATCHDOG_KICK (R444). -/
def execWatchdogKick (data : Word) (s : State) : Host.Outcome State Fault Refusal :=
  .next (s.command R.CCX_WDOG_KICK data (fun s => s.onCcx (fun c => { c with warned := c.warned &&& ~~~(data.extractLsb' 0 8) })))

/-- WATCHDOG_EXPIRY (R444): a warning first, then the hart is lost. -/
def execWatchdogExpiry (hart : Fin 8) (s : State) : Host.Outcome State Fault Refusal :=
  let k := hart.val
  if !s.on F.CCX_WDOG_CFG_TIMEOUT || s.get (F.CCX_HART_STAT_RELEASED.bit k) = 0 || s.get (F.CCX_HART_STAT_LOST.bit k) = 1 then .next s
  else if s.ccx.warned.getLsbD k then .next (loseHart hart s)
  else .next ((s.onCcx (fun c => { c with warned := c.warned ||| (1#8 <<< k) })).flag (F.CCX_FLT_WARN.bit k))

/-! ### Loss of a DRAM channel (R426) -/

/-- The line lies on DMC1 by the image's geometry. -/
def onDmc1 (s : State) (gl : Nat) : Bool := decide (chPages s 0 * 1024 ≤ gl)

/-- What follows the loss of DMC1 (R426): its pages leave the ledger, dirty blocks are handled as poisoned, clean ones dropped. -/
def dmc1Gone (s : State) : State :=
  let first := chPages s 0
  let there := s.buf.cache.filter (fun e => onDmc1 s (64 * e.2.loc))
  let s := s.onCcx (fun c => { c with lines := c.lines.filter (fun e => !onDmc1 s e.2.line) })
  let s := s.onBuf (fun b => { b with pages := b.pages.filter (fun p => decide (p.1 < first)), room := b.room.filter (fun l => decide (l / 16 < first)), merge := b.merge.filter (fun e => !onDmc1 s e.line), mem := b.mem.filter (fun e => decide (e.1 < 65536 * first)), poisoned := b.poisoned.filter (fun e => decide (e.1 < 2 ^ 28)) })
  showPages (forEach there (fun e s => if e.2.dirty then dirtyPoison e.1 s else cacheDrop e.1 s) s)

/-- DMC_LOST (R426): the channel that a drive can lose and go on is DMC1; R42 gives the mode. -/
def execDmcLost (s : State) : Host.Outcome State Fault Refusal :=
  if !chPresent s 1 then .next s
  else .next (dmc1Gone (s.loseUnit0 9))

end Sys2Proof.Machine
end

