-- ==== Sys2Proof/Machine/Dma.lean ====
section
/-! DEFINITION. The DMA engine (18_dma.md, R460 to R476): the address pattern, bursts and their credits, the program's instructions, flags, faults,
resume, and abrupt stops. A burst reads when it is issued and is accepted by SCC at BURST_DONE. -/

namespace Sys2Proof.Machine

/-! ### Channels -/

/-- A channel that holds nothing. -/
def dmaNone : DmaCh := ⟨none, false, none, false, 0, [], none, false⟩

def State.dmaCh (s : State) (c : Nat) : DmaCh := smGetD dmaNone c s.dma.chs
def State.onDma (s : State) (c : Nat) (f : DmaCh → DmaCh) : State := { s with dma := { s.dma with chs := smPut dmaNone c (f (s.dmaCh c)) s.dma.chs } }

/-- STATE (R461): 0 IDLE, 1 RUNNING, 2 WAITING, 3 FAULTED, 4 DONE. -/
def dmaState (s : State) (c : Nat) : Nat := s.get (F.DMAc_STAT_STATE c)

/-- The channel is RUNNING or WAITING. -/
def dmaBusy (s : State) (c : Nat) : Bool := dmaState s c == 1 || dmaState s c == 2

/-- The channel is in program mode (R460). -/
def dmaProgram (s : State) (c : Nat) : Bool :=
  if c < 32 then (s.reg R.DMA_MODE_LO).getLsbD c else (s.reg R.DMA_MODE_HI).getLsbD (c - 32)

/-- An event of the channel (R441, R477): its flag rises, and source 64 + c becomes pending where `ien` enables it. -/
def dmaEvent (c : Nat) (f ien : Fld) (s : State) : State :=
  if s.on f then s else (s.put f 1).iff (s.on ien) (fun s => s.irq (64 + c))

/-! ### Address patterns (R463) -/

/-- Loop k's count; 0 acts as 1. -/
def dmaCnt (s : State) (c k : Nat) : Nat :=
  max 1 (if k = 0 then s.get (F.DMAc_CNT01_CNT0 c) else if k = 1 then s.get (F.DMAc_CNT01_CNT1 c) else s.get (F.DMAc_CNT2_CNT2 c))

/-- Loop k's index register. -/
def dmaIdx (c k : Nat) : Fld := if k = 0 then F.DMAc_IDX01_I0 c else if k = 1 then F.DMAc_IDX01_I1 c else F.DMAc_IDX2_I2 c

/-- A base plus the three steps times their indices, modulo 2³⁶. -/
def dmaAddr (s : State) (c base step0 step1 step2 : Nat) : Nat :=
  let st := fun (a : Nat) => signed 32 (s.reg a).toNat
  let i := fun k => (s.get (dmaIdx c k) : Int)
  unsigned 36 ((base : Int) + i 0 * st step0 + i 1 * st step1 + i 2 * st step2)

def dmaLo (lo hi : Nat) : Nat := lo + hi * 2 ^ 32

/-- One element: its length, source, destination, stream and allocate hints. -/
structure DmaElem where
  len : Nat
  sa : Nat
  da : Nat
  stream : Bool
  alloc : Bool
deriving DecidableEq, Repr

/-- The element of the channel's present indices, in program mode of the MOVE at hand (R463, R467, R470). -/
def dmaElem (s : State) (c : Nat) : DmaElem :=
  let sa := fun base => dmaAddr s c base (R.DMAc_SSTEP0 c) (R.DMAc_SSTEP1 c) (R.DMAc_SSTEP2 c)
  let da := fun base => dmaAddr s c base (R.DMAc_DSTEP0 c) (R.DMAc_DSTEP1 c) (R.DMAc_DSTEP2 c)
  match dmaProgram s c, (s.dmaCh c).instr with
  | true, some i =>
    let v := i.toNat
    ⟨bitsOf v 33 18 + 1, sa (bitsOf v 71 36), da (bitsOf v 107 72), bitsOf v 34 34 == 1 || s.on (F.DMAc_CFG_STREAM c), bitsOf v 35 35 == 1 || s.on (F.DMAc_CFG_ALLOC c)⟩
  | _, _ =>
    ⟨min 65536 (max 1 (s.get (F.DMAc_ELEM_LEN c))), sa (dmaLo (s.get (F.DMAc_SRC_LO_ADDR_LO c)) (s.get (F.DMAc_SRC_HI_ADDR_HI c))),
     da (dmaLo (s.get (F.DMAc_DST_LO_ADDR_LO c)) (s.get (F.DMAc_DST_HI_ADDR_HI c))), s.on (F.DMAc_CFG_STREAM c), s.on (F.DMAc_CFG_ALLOC c)⟩

/-! ### Credits (R465) -/

def dmaTake (s : State) : State := (s.put F.DMA_CRED_FREE (s.get F.DMA_CRED_FREE - 1)).put F.DMA_CRED_HELD (s.get F.DMA_CRED_HELD + 1)
def dmaGive (n : Nat) (s : State) : State := (s.put F.DMA_CRED_FREE (s.get F.DMA_CRED_FREE + n)).put F.DMA_CRED_HELD (s.get F.DMA_CRED_HELD - n)

/-- Bytes cut into pieces that lie within one line each, with their addresses. -/
def linePieces : Nat → Nat → List Byte → List (Nat × List Byte)
  | 0, _, _ => []
  | n + 1, a, l => if l.isEmpty then [] else (a, l.take (64 - a % 64)) :: linePieces n (a / 64 * 64 + 64) (l.drop (64 - a % 64))

/-- A burst's write accepted by SCC (R454, R465). -/
def burstWrite (b : Burst) (stream : Bool) (s : State) : State := forEach (linePieces 9 b.dst b.data) (fun p s => deviceWrite p.1 p.2 stream s) s

/-! ### Faults (R473, R474) -/

/-- The channel stops in FAULTED. Bursts in flight write or not as SCC accepts them, which the spec leaves open (R476), and their credits return
to FREE. PC and the indices hold. -/
def dmaFault (c cause addr : Nat) (s : State) : State :=
  let ch := s.dmaCh c
  let stream := (dmaElem s c).stream
  let s := forEach ch.bursts (fun b s => let (f, s) := s.free 1; if f = 1 then burstWrite b stream s else s) s
  let s := dmaGive ch.bursts.length s
  let s := s.onDma c (fun x => { x with instr := none, line := none, moving := false, issued := 0, bursts := [] })
  let s := ((s.put (F.DMAc_STAT_STATE c) 3).put (F.DMAc_FLT_CAUSE c) cause).count F.DMA_CNT_FAULTS
  let s := (s.put (F.DMAc_FLT_ADDR_LO_ADDR_LO c) (addr % 2 ^ 32)).put (F.DMAc_FLT_ADDR_HI_ADDR_HI c) (addr / 2 ^ 32)
  dmaEvent c (F.DMAc_STAT_FLT_EVT c) (F.DMAc_CTL_IEN_FLT c) s

/-! ### The program (R469 to R471) -/

/-- DMAc_PROG. -/
def dmaBase (s : State) (c : Nat) : Nat := s.get (F.DMAc_PROG_LO_BASE_LO c) * 16 + s.get (F.DMAc_PROG_HI_BASE_HI c) * 2 ^ 32

/-- Address of the instruction at PC. -/
def dmaInstrAt (s : State) (c : Nat) : Nat := dmaBase s c + 16 * s.get (F.DMAc_IDX2_PC c)

/-- The instruction is one that R470 encodes: a known OP, its unlisted bits zero, K of LOOP not 0. -/
def dmaLegal (v : Nat) : Bool :=
  match bitsOf v 3 0 with
  | 1 => bitsOf v 127 108 == 0
  | 2 => bitsOf v 127 18 == 0 && bitsOf v 5 4 != 0
  | 3 => bitsOf v 31 10 == 0 && bitsOf v 127 64 == 0
  | 4 => bitsOf v 127 12 == 0
  | _ => false

/-- The instruction at PC taken from the line held, if it lies there; an illegal one is fault ILLEGAL (R470). -/
def dmaLoad (c : Nat) (s : State) : State :=
  let a := dmaInstrAt s c
  match (s.dmaCh c).line with
  | some (gl, bytes) =>
    if (s.dmaCh c).past || a / 64 != gl then s
    else
      let v := unle ((bytes.drop (a % 64)).take 16)
      if dmaLegal v then s.onDma c (fun x => { x with instr := some (BitVec.ofNat 128 v) }) else dmaFault c 3 a s
  | none => s

/-- The channel goes on at a PC; 4,096 is beyond the last instruction. -/
def dmaGoto (c pc : Nat) (s : State) : State :=
  let s := s.put (F.DMAc_IDX2_PC c) (pc % 4096)
  dmaLoad c (s.onDma c (fun x => { x with instr := none, past := decide (4096 ≤ pc), moving := false, issued := 0, waitFlag := none, waitDelay := false }))

/-- PC + 1. -/
def dmaNext (c : Nat) (s : State) : State := dmaGoto c (s.get (F.DMAc_IDX2_PC c) + 1) s

/-- A loop action for loop k (R471): whether it branches, and the state with the index stepped. -/
def loopAction (c k : Nat) (s : State) : Bool × State :=
  if s.get (dmaIdx c k) + 1 < dmaCnt s c k then (true, s.put (dmaIdx c k) (s.get (dmaIdx c k) + 1)) else (false, s.put (dmaIdx c k) 0)

/-- The transfer or the program has ended (R461, R466). -/
def dmaDone (c : Nat) (s : State) : State :=
  dmaEvent c (F.DMAc_STAT_DONE_EVT c) (F.DMAc_CTL_IEN_DONE c) ((s.onDma c (fun _ => dmaNone)).put (F.DMAc_STAT_STATE c) 4)

/-- Register mode after an element (R463): loop 0 advances, a wrap carries, and the transfer ends when loop 2 wraps. -/
def registerStep (c : Nat) (s : State) : State :=
  let s := s.onDma c (fun x => { x with moving := false, issued := 0 })
  let (more0, s) := loopAction c 0 s
  if more0 then s
  else
    let (more1, s) := loopAction c 1 s
    if more1 then s
    else
      let (more2, s) := loopAction c 2 s
      if more2 then s else dmaDone c s

/-- Every burst of the element has been accepted (R471). -/
def elementEnd (c : Nat) (s : State) : State :=
  match dmaProgram s c, (s.dmaCh c).instr with
  | true, some i =>
    let v := i.toNat
    let lend := bitsOf v 5 4
    if lend = 0 then dmaNext c s
    else
      let (more, s) := loopAction c (lend - 1) s
      if more then dmaGoto c (bitsOf v 17 6) s else dmaNext c s
  | _, _ => registerStep c s

/-! ### Moving an element (R464 to R467) -/

/-- Length of a burst of at most `left` bytes: it crosses no 512-byte boundary of source or destination. -/
def burstLen (sa da left : Nat) : Nat := min left (min (512 - sa % 512) (512 - da % 512))

/-- The lines of a range of bytes. -/
def linesOf (a n : Nat) : List Nat := (List.range ((a + n - 1) / 64 + 1 - a / 64)).map (fun i => a / 64 + i)

/-- The lines read through SCC; the first poisoned one. -/
def readLines (c : Nat) (e : DmaElem) : List Nat → State → Option Nat × State
  | [], s => (none, s)
  | gl :: t, s =>
    let (bad, s) := deviceRead c gl e.stream e.alloc s
    if bad then (some gl, s) else readLines c e t s

/-- The element's destination overlaps its own source (R466). -/
def selfOverlap (e : DmaElem) : Bool := decide (e.sa < e.da + e.len) && decide (e.da < e.sa + e.len)

/-- Bursts issued while credits last (R465); a read waits for an earlier write of the channel to the same line (R466). -/
def issueBursts (c : Nat) : Nat → State → State
  | 0, s => s
  | n + 1, s =>
    let ch := s.dmaCh c
    let e := dmaElem s c
    let src := e.sa + ch.issued
    let dst := e.da + ch.issued
    let len := burstLen src dst (e.len - ch.issued)
    let behind := ch.bursts.any (fun b => (linesOf b.dst b.data.length).any (fun l => (linesOf src len).contains l))
    if !ch.moving || dmaState s c != 1 || e.len ≤ ch.issued || max 1 (s.get (F.DMAc_CFG_CREDITS c)) ≤ ch.bursts.length || s.get F.DMA_CRED_FREE = 0 || behind then s
    else
      match readLines c e (linesOf src len) s with
      | (some gl, s) => dmaFault c 2 (64 * gl) (s.count F.BUF_CNT_PSN_USED)
      | (none, s) =>
        let (f, s) := if selfOverlap e then s.free (8 * len) else (BitVec.ofNat (8 * len) (unle (memRead s src len)), s)
        issueBursts c n (dmaTake (s.onDma c (fun x => { x with issued := x.issued + len, bursts := x.bursts ++ [⟨src, dst, le len f.toNat⟩] })))

/-- MOVE (R464, R465): the element's two ranges are checked before any request, then its bursts go. -/
def moveStart (c : Nat) (s : State) : State :=
  let e := dmaElem s c
  if bufBytes s < e.sa + e.len then dmaFault c 1 e.sa s
  else if bufBytes s < e.da + e.len then dmaFault c 1 e.da s
  else issueBursts c 16 (s.onDma c (fun x => { x with moving := true, issued := 0 }))

/-- The oldest burst's write is accepted (R465). -/
def burstAccepted (c : Nat) (s : State) : State :=
  match (s.dmaCh c).bursts with
  | [] => s
  | b :: rest =>
    let e := dmaElem s c
    let s := dmaGive 1 ((burstWrite b e.stream s).onDma c (fun x => { x with bursts := rest }))
    if rest.isEmpty ∧ e.len ≤ (s.dmaCh c).issued then elementEnd c s else issueBursts c 16 s

/-! ### Flags (R472) -/

/-- A setting of a flag: the lowest-numbered channel that waits on it takes it, else the flag is 1. -/
def setFlag (f : Nat) (s : State) : State :=
  match (List.range 64).find? (fun c => (s.dmaCh c).waitFlag == some f) with
  | some c => dmaNext c ((s.put (F.DMA_FLAGS_FLAG.bit f) 0).put (F.DMAc_STAT_STATE c) 1)
  | none => s.put (F.DMA_FLAGS_FLAG.bit f) 1

/-- Flags set by a word, the lowest first. -/
def flagSetEff (w : Word) (s : State) : State := forEach ((List.range 32).filter (fun f => w.getLsbD f)) setFlag s

/-- Flags cleared by writing ones (R11). -/
def flagClearEff (w : Word) (s : State) : State := s.setReg R.DMA_FLAGS (s.reg R.DMA_FLAGS &&& ~~~w)

/-! ### Start, resume, abort, disable (R462, R474, R475) -/

def dmaReject (c : Nat) (s : State) : State := s.put (F.DMAc_STAT_REJ c) 1

def dmaStartEff (c : Nat) (s : State) : State :=
  if dmaBusy s c || s.on F.DMA_CTL_DISABLE then dmaReject c s
  else
    let s := ((s.setReg (R.DMAc_IDX01 c) 0).setReg (R.DMAc_IDX2 c) 0).setReg (R.DMAc_FLT c) 0
    let s := (s.setReg (R.DMAc_FLT_ADDR_LO c) 0).setReg (R.DMAc_FLT_ADDR_HI c) 0
    (s.onDma c (fun _ => dmaNone)).put (F.DMAc_STAT_STATE c) 1

def dmaResumeEff (c : Nat) (s : State) : State :=
  if dmaState s c ≠ 3 then dmaReject c s
  else (s.onDma c (fun x => { dmaNone with past := x.past })).put (F.DMAc_STAT_STATE c) 1

/-- The bytes of an element in progress that SCC has not accepted are old or new (R475), as free values tell. -/
def tornElement (c : Nat) (s : State) : State :=
  let ch := s.dmaCh c
  let e := dmaElem s c
  let done := ch.issued - (ch.bursts.map (fun b => b.data.length)).sum
  let new := (ch.bursts.map (fun b => b.data)).flatten ++ memRead s (e.sa + ch.issued) (e.len - ch.issued)
  if !ch.moving then s
  else
    forEach (List.range (e.len - done)) (fun i s =>
      let (f, s) := s.free 1
      if f = 1 then deviceWrite (e.da + done + i) [new.getD i 0] e.stream s else s) s

/-- An abrupt stop (R475): credits FREE, IDLE, ABORTED, PC and indices undefined. -/
def stopChannel (c : Nat) (s : State) : State :=
  if dmaState s c = 0 ∨ dmaState s c = 4 then s
  else
    let s := dmaGive (s.dmaCh c).bursts.length (tornElement c s)
    let s := (s.onDma c (fun _ => dmaNone)).put (F.DMAc_STAT_STATE c) 0
    let (i01, s) := s.free 32
    let (i2, s) := s.free 16
    let (pc, s) := s.free 12
    let s := ((s.setReg (R.DMAc_IDX01 c) i01).put (F.DMAc_IDX2_I2 c) i2.toNat).put (F.DMAc_IDX2_PC c) pc.toNat
    (s.put (F.DMAc_STAT_ABORTED c) 1).count F.DMA_CNT_ABORTS

/-- Every channel stopped, by DISABLE or with the unit (R475, R476). -/
def stopAll (s : State) : State := forEach (List.range 64) stopChannel s

def disableEff (w : Word) (s : State) : State :=
  let s := s.putB F.DMA_CTL_DISABLE (w.getLsbD 0)
  if w.getLsbD 0 then stopAll s else s

/-- The command bits of DMAc_CTL written with the interrupt enables as they stand. -/
def ctlWord (s : State) (c bit : Nat) : Word := (s.reg (R.DMAc_CTL c) &&& 7) ||| (1#32 <<< bit)

/-! ### Rows -/

/-- CHANNEL_START (R462). -/
def execChannelStart (c : Fin 64) (s : State) : Host.Outcome State Fault Refusal := .next (s.command (R.DMAc_CTL c) (ctlWord s c 31) (dmaStartEff c))

/-- CHANNEL_RESUME (R474). -/
def execChannelResume (c : Fin 64) (s : State) : Host.Outcome State Fault Refusal := .next (s.command (R.DMAc_CTL c) (ctlWord s c 30) (dmaResumeEff c))

/-- CHANNEL_ABORT (R475). -/
def execChannelAbort (c : Fin 64) (s : State) : Host.Outcome State Fault Refusal := .next (s.command (R.DMAc_CTL c) (ctlWord s c 29) (stopChannel c))

/-- DMA_DISABLE (R475): a write of DMA_CTL. -/
def execDmaDisable (data : Word) (s : State) : Host.Outcome State Fault Refusal := .next (s.command R.DMA_CTL data (disableEff data))

/-- The next instruction line fetched (R469). -/
def fetchLine (c : Nat) (s : State) : State :=
  let a := dmaInstrAt s c
  if (s.dmaCh c).past then dmaFault c 4 (dmaBase s c) s
  else if bufBytes s < a + 16 then dmaFault c 4 a s
  else
    let (bad, s) := deviceRead c (a / 64) false false s
    if bad then dmaFault c 4 a (s.count F.BUF_CNT_PSN_USED)
    else dmaLoad c (s.onDma c (fun x => { x with line := some (a / 64, memRead s (a / 64 * 64) 64) }))

/-- The channel runs its program and has an instruction of an OP at hand, none in progress. -/
def dmaAt (s : State) (c op : Nat) : Option Nat :=
  match (s.dmaCh c).instr with
  | some i => if dmaState s c == 1 && dmaProgram s c && !(s.dmaCh c).moving && bitsOf i.toNat 3 0 == op then some i.toNat else none
  | none => none

/-- INSTRUCTION_FETCH (R469). -/
def execInstructionFetch (c : Fin 64) (s : State) : Host.Outcome State Fault Refusal :=
  .next (if dmaState s c == 1 && dmaProgram s c && (s.dmaCh c).instr.isNone then fetchLine c s else s)

/-- MOVE (R464, R465, R470): the next element of a RUNNING channel; one that found no credit free goes on. -/
def execMove (c : Fin 64) (s : State) : Host.Outcome State Fault Refusal :=
  if dmaState s c ≠ 1 then .next s
  else if (s.dmaCh c).moving then .next (issueBursts c 16 s)
  else if dmaProgram s c then .next (if (dmaAt s c 1).isSome then moveStart c s else s)
  else .next (moveStart c s)

/-- DMA_LOOP (R471). -/
def execDmaLoop (c : Fin 64) (s : State) : Host.Outcome State Fault Refusal :=
  match dmaAt s c 2 with
  | some v =>
    let (more, s) := loopAction c (bitsOf v 5 4 - 1) s
    .next (if more then dmaGoto c (bitsOf v 17 6) s else dmaNext c s)
  | none => .next s

/-- WAIT (R472): a flag that is 1 is taken at once. -/
def execWait (c : Fin 64) (s : State) : Host.Outcome State Fault Refusal :=
  match dmaAt s c 3 with
  | some v =>
    let f := bitsOf v 9 5
    if bitsOf v 4 4 = 1 then .next ((s.onDma c (fun x => { x with waitDelay := true })).put (F.DMAc_STAT_STATE c) 2)
    else if s.on (F.DMA_FLAGS_FLAG.bit f) then .next (dmaNext c (s.put (F.DMA_FLAGS_FLAG.bit f) 0))
    else .next ((s.onDma c (fun x => { x with waitFlag := some f })).put (F.DMAc_STAT_STATE c) 2)
  | none => .next s

/-- SIGNAL (R466, R470): executed once all earlier writes have completed. -/
def execSignal (c : Fin 64) (s : State) : Host.Outcome State Fault Refusal :=
  match dmaAt s c 4 with
  | some v =>
    let s := if bitsOf v 4 4 = 1 then setFlag (bitsOf v 9 5) s else s
    let s := if bitsOf v 10 10 = 1 then dmaEvent c (F.DMAc_STAT_SIG_EVT c) (F.DMAc_CTL_IEN_SIG c) s else s
    .next (if bitsOf v 11 11 = 1 then dmaDone c s else dmaNext c s)
  | none => .next s

/-- WAIT_DELAY_END (R472). -/
def execWaitDelayEnd (c : Fin 64) (s : State) : Host.Outcome State Fault Refusal :=
  .next (if dmaState s c == 2 && (s.dmaCh c).waitDelay then dmaNext c (s.put (F.DMAc_STAT_STATE c) 1) else s)

/-- FLAG_SET (R472). -/
def execFlagSet (data : Word) (s : State) : Host.Outcome State Fault Refusal := .next (s.command R.DMA_FLAG_SET data (flagSetEff data))

/-- FLAG_CLEAR (R472). -/
def execFlagClear (data : Word) (s : State) : Host.Outcome State Fault Refusal := .next (s.command R.DMA_FLAGS data (flagClearEff data))

/-- BURST_DONE (R465, R471). -/
def execBurstDone (c : Fin 64) (s : State) : Host.Outcome State Fault Refusal := .next (burstAccepted c s)

end Sys2Proof.Machine
end

