-- ==== Sys2Proof/Machine/ModeRows.lean ====
section
/-! DEFINITION. Firmware's requests to GLB (01_planes_and_fabric.md, R34 to R38, R635; 23_startup_reset_faults.md, R592, R593, R598): mode
requests, and what a write of GLB_RST_CMD asks for; with the rows of the mode controller. -/

namespace Sys2Proof.Machine

/-- A mode request (R34, R35): T02, T04, T13 and T14 where their conditions hold, else REJ and REJ_TARGET. A chip that T14 took to PARTNER_STANDBY
starts resynchronised, one that T04 took asks for resynchronisation (R501, log 30). -/
def modeRequestEff (target : Nat) (s : State) : State :=
  let m := s.mode
  let pair := imageRole s != 0
  if target = Mode.spinup ∧ m = Mode.configure ∧ s.on F.CFG_LOAD_STAT_DONE ∧ dataSetPresent s then complete 2 Mode.spinup s
  else if target = Mode.partnerStandby ∧ m = Mode.configure ∧ pair ∧ homeBits s &&& ackBits s = 0 ∧ s.on F.CFG_LOAD_STAT_DONE ∧ dataSetPresent s then
    let s := complete 4 Mode.partnerStandby s
    if s.on F.BAT_STAT_PEER_OK then batSend 0 (.resync 1) s else s
  else if target = Mode.service ∧ m ≠ Mode.off ∧ m ≠ Mode.configure ∧ m ≠ Mode.service then complete 13 Mode.service s
  else if target = Mode.partnerStandby ∧ (m = Mode.active ∨ m = Mode.degraded) ∧ pair ∧ ackBits s = 0 then
    (complete 14 Mode.partnerStandby s).onBat (fun b => { b with resynced := true })
  else (s.put F.GLB_MODE_STAT_REJ 1).put F.GLB_MODE_STAT_REJ_TARGET target

/-- MODE_REQUEST (R35). -/
def execModeRequest (target : BitVec 4) (s : State) : Host.Outcome State Fault Refusal :=
  .next (s.write (.core 0) R.GLB_MODE_REQ (target.zeroExtend 32) (fun s => (modeRequestEff target.toNat s).settle))

/-- TRANSITION_COMPLETE (R635, R38): a transition that waited completes once the chip is where the table of R635 wants it. -/
def execTransitionComplete (s : State) : Host.Outcome State Fault Refusal := .next s.settle

/-- FABRIC_PACE_UPDATE (R28): PACE, and one PACE_LOW record for each excursion below 256. -/
def execFabricPaceUpdate (pace : BitVec 16) (s : State) : Host.Outcome State Fault Refusal :=
  let s := s.put F.GLB_FABRIC_PACE_PACE pace.toNat
  let low := decide (pace.toNat < 256)
  let s := if low && !s.glb.paceLow then s.sysEvent 0x4004 2 0xFFFF (sourceOf R.GLB_FABRIC_PACE) (le 2 pace.toNat) else s
  .next { s with glb := { s.glb with paceLow := low } }

/-! ### Requests of GLB_RST_CMD (R592, R593, R598, R602) -/

/-- A request of GLB_RST_CMD is refused. -/
def rstRefuse (s : State) : State := s.put F.GLB_RST_STAT_REJ 1

/-- The lane island's sequencer and FIFOs as a lane reset leaves them: its codewords leave the decoder pool (R593, R32). -/
def clearLane (n : Lane) (s : State) : State :=
  let pre := fun (l : Ln) => match l.bus with | some f => if f.kind = .gate then ⟨f.mode, f.head⟩ else l.pre | none => l.pre
  let s := s.onLn n (fun l => { l with pre := pre l, bus := none, gateQ := [], setQ := [], fwQ := [], fwCrc := false, fwMis := false, fwData := 0, lastSent := [] })
  let s := s.onLn n (fun l => { l with desc := none, ovr := none, gate := none, cont := none, vgate := none, vdue := [], wfifo := [], reads := [], awaiting := [], compared := [], lost := [], rewrites := [], cut := [] })
  let s := s.onLn n (fun l => { l with enHeld := 0, wgroup := none, rgroups := [], ladder := none, faultRead := false })
  let s := s.onMs n (fun m => { m with cur := SeqRegs.clear, nxt := SeqRegs.clear, acted := 0, conds := 0, holding := false, cmd := [], events := [], stopping := false, passBkpt := false })
  let s := dropCodewords n (s.onMs n (fun m => { m with landed := none, slipped := false }))
  let s := ((s.setReg (R.LNn_STAT n) (resetOf (R.LNn_STAT n))).setReg (R.LNn_PBUS_RES n) (resetOf (R.LNn_PBUS_RES n))).setReg (R.LNn_VFY_STAT n) (resetOf (R.LNn_VFY_STAT n))
  let s := ((s.setReg (R.MSn_TRAP n) 0).setReg (R.MSn_TRAP_LC n) 0).setReg (R.MSn_TRAP_AUX n) 0
  let s := showSeq n ((s.setReg (R.MSn_INT n) 0).put (F.MSn_STAT_PC n) 0)
  (s.put (F.MSn_STAT_STATE n) Seq.halted).put (F.MSn_STAT_MASK n) 0

/-- A lane reset begins (R593): the frame on the bus completes within it, items in service and the ladder end aborted (R317, R124), and the
synthesiser loses lock until the reset ends (R86, R146). -/
def startLaneReset (n : Lane) (s : State) : State :=
  let s := abortItems (actOf s n) (abortLadder n s)
  let s := clearLane n s
  let s := inhibit n 3 s
  (s.put ((F.GLB_RST_STAT_LANE_BUSY).bit n) 1).put ((F.GLB_RST_CAUSE_LANES).bit n) 1

/-- A request for the reset of one lane (R593, R602). -/
def laneResetRequest (n : Lane) (s : State) : State :=
  let st := seqState s n
  if s.glb.cfgReset != .none then rstRefuse s
  else if !laneIncluded s n then s
  else if (st = Seq.halted ∨ st = Seq.faulted) ∧ !gateOpen s n ∧ (s.ln n).vgate = none ∧ s.get ((F.GLB_RST_STAT_LANE_BUSY).bit n) = 0 then startLaneReset n s
  else rstRefuse s

/-- A write of GLB_RST_CMD.CLEAN (R598). -/
def cleanEff (s : State) : State :=
  if s.on F.GLB_MODE_COND_POWER_FAIL || !cleanNow s then rstRefuse s else writeNote .clean 0 true s

/-- A write of GLB_RST_CMD.CONFIG (R592). -/
def configResetEff (src : Nat) (force : Bool) (s : State) : State := if force || cleanNow s then startConfigReset src s else rstRefuse s

/-- A write of GLB_RST_CMD: its lane resets, then CLEAN, then CONFIG (log 7). -/
def rstCmdEff (who : Req) (w : Word) (s : State) : State :=
  let s := forEach (lanes.filter (fun (n : Lane) => w.getLsbD (4 + n))) laneResetRequest s
  let s := if w.getLsbD 2 then cleanEff s else s
  let s := if w.getLsbD 0 then configResetEff (match who with | .service => 1 | .core _ => 0) (w.getLsbD 1) s else s
  s.settle

end Sys2Proof.Machine
end

