-- ==== Sys2Proof/Machine/SequencerRows.lean ====
section
/-! DEFINITION. The rows of the lane sequencers (R224, R229 to R246): one definition per row. A row that names a field of the
microword has its effect while the word at PC carries that field; `storeOk` is the parity of the fetched word (R224). -/

namespace Sys2Proof.Machine

/-- A sequence-control row: the word at PC has the SEQ_OP, its remaining fields act and its next address follows. A store error loses
the lane (R224, R42). -/
def seqRow (n : Lane) (ops : List Nat) (storeOk : Bool) (s : State) : State :=
  if !seqRuns s n || !ops.contains (mw (seqWord s n) 144 142) then s
  else
    let s := atWord n storeOk s (finishWord n)
    if storeOk then s else s.loseUnit0 (12 + n)

/-- BRANCH (R229). -/
def execBranch (n : Lane) (storeOk : Bool) (s : State) : Host.Outcome State Fault Refusal := .next (seqRow n [0] storeOk s)

/-- LOOP (R230): LOOP0 and LOOP1. -/
def execLoop (n : Lane) (storeOk : Bool) (s : State) : Host.Outcome State Fault Refusal := .next (seqRow n [1, 2] storeOk s)

/-- CALL (R229). -/
def execCall (n : Lane) (storeOk : Bool) (s : State) : Host.Outcome State Fault Refusal := .next (seqRow n [3] storeOk s)

/-- RETURN (R229). -/
def execReturn (n : Lane) (storeOk : Bool) (s : State) : Host.Outcome State Fault Refusal := .next (seqRow n [4] storeOk s)

/-- DISPATCH (R229). -/
def execDispatch (n : Lane) (storeOk : Bool) (s : State) : Host.Outcome State Fault Refusal := .next (seqRow n [5] storeOk s)

/-- HALT (R229, R245, R246). -/
def execHalt (n : Lane) (storeOk : Bool) (s : State) : Host.Outcome State Fault Refusal := .next (seqRow n [6] storeOk s)

/-- TRAP_RETURN (R243). -/
def execTrapReturn (n : Lane) (storeOk : Bool) (s : State) : Host.Outcome State Fault Refusal := .next (seqRow n [7] storeOk s)

/-- TRAP (R242): the word at PC faults, or an enabled interrupt is pending at a safe point: a holding word is abandoned, any other
executes in full first. -/
def execTrap (n : Lane) (s : State) : Host.Outcome State Fault Refusal :=
  .next (atWord n true s (fun s' => if (pendingInt s' n).isSome && mw (seqWord s' n) 141 141 == 1 then finishWord n s' else s))

/-- TIMER_HOLD_END (R232): the word's timer hold ends and its fields act. A baud target is never reached without lock; a condition
hold ends only while the condition is true. -/
def execTimerHoldEnd (n : Lane) (s : State) : Host.Outcome State Fault Refusal :=
  let w := seqWord s n
  let ends := match mw w 140 139 with
    | 0 => false
    | 1 => s.on (F.LNn_STAT_PLL_LOCK n)
    | 2 => true
    | _ => condNow s n (mw w 151 146) != (mw w 145 145 = 1)
  if !seqRuns s n || !(s.ms n).holding || !ends then .next s
  else
    .next (atWord n true (s.onMs n (fun m => { m with holding := false })) (fun s => s))

/-- A field row: the field's effect at the word at PC. -/
def fieldRow (n : Lane) (has : BitVec 176 → Bool) (eff : State → State) (s : State) : State :=
  if seqRuns s n && has (seqWord s n) then atWord n true s eff else s

/-- OPEN_READ (R233, R235): the word's descriptor, then its read gate; `heard` holds the bits that the detector hears from the sync mark's
nominal position on (R100). -/
def execOpenRead (n : Lane) (heard : BitVec 112) (s : State) : Host.Outcome State Fault Refusal :=
  .next (fieldRow n (fun w => mw w 121 120 = 1) (fun s => gateEff n heard (sectEff n s)) s)

/-- OPEN_WRITE (R233, R130). -/
def execOpenWrite (n : Lane) (s : State) : Host.Outcome State Fault Refusal :=
  .next (fieldRow n (fun w => mw w 121 120 = 2) (fun s => gateEff n syncHeard (sectEff n s)) s)

/-- CLOSE_NOW (R233). -/
def execCloseNow (n : Lane) (s : State) : Host.Outcome State Fault Refusal :=
  .next (fieldRow n (fun w => mw w 121 120 = 3) (gateEff n syncHeard) s)

/-- GATE_FRAME (R234, R75). -/
def execGateFrame (n : Lane) (s : State) : Host.Outcome State Fault Refusal :=
  .next (fieldRow n (fun w => mw w 119 117 = 1) (pbEff n) s)

/-- SETTING_FRAME (R133, R234). -/
def execSettingFrame (n : Lane) (s : State) : Host.Outcome State Fault Refusal :=
  .next (fieldRow n (fun w => mw w 119 117 = 2) (pbEff n) s)

/-- READ_FAULT_STAT (R234, R151). -/
def execReadFaultStat (n : Lane) (s : State) : Host.Outcome State Fault Refusal :=
  .next (fieldRow n (fun w => mw w 119 117 = 3) (pbEff n) s)

/-- READ_REGISTER (R234). -/
def execReadRegister (n : Lane) (s : State) : Host.Outcome State Fault Refusal :=
  .next (fieldRow n (fun w => mw w 119 117 = 4) (pbEff n) s)

/-- READ_OVERRIDE (R235). -/
def execReadOverride (n : Lane) (s : State) : Host.Outcome State Fault Refusal :=
  .next (fieldRow n (fun w => mw w 93 92 ≠ 0) (ovrEff n) s)

/-- SECT_READ (R235). -/
def execSectRead (n : Lane) (s : State) : Host.Outcome State Fault Refusal :=
  .next (fieldRow n (fun w => mw w 85 83 = 1) (sectEff n) s)

/-- SECT_WRITE (R235). -/
def execSectWrite (n : Lane) (s : State) : Host.Outcome State Fault Refusal :=
  .next (fieldRow n (fun w => mw w 85 83 = 2) (sectEff n) s)

/-- SECT_WRITE_VERIFY (R235, R139). -/
def execSectWriteVerify (n : Lane) (s : State) : Host.Outcome State Fault Refusal :=
  .next (fieldRow n (fun w => mw w 85 83 = 3) (sectEff n) s)

/-- START_PARITY_GROUP (R235, R129). -/
def execStartParityGroup (n : Lane) (s : State) : Host.Outcome State Fault Refusal :=
  .next (fieldRow n (fun w => mw w 85 83 = 4) (sectEff n) s)

/-- SECT_READ_SPILL (R235, R121). -/
def execSectReadSpill (n : Lane) (s : State) : Host.Outcome State Fault Refusal :=
  .next (fieldRow n (fun w => mw w 85 83 = 5) (sectEff n) s)

/-- POP (R236): `measured` is what the calibration that a CAL command starts measures (R83). -/
def execPop (n : Lane) (measured : List CalMeasure) (s : State) : Host.Outcome State Fault Refusal :=
  .next (fieldRow n (fun w => mw w 82 80 = 1) (cmdEff n measured) s)

/-- DISCARD (R236). -/
def execDiscard (n : Lane) (s : State) : Host.Outcome State Fault Refusal :=
  .next (fieldRow n (fun w => mw w 82 80 = 2) (cmdEff n []) s)

/-- EVENT_POST (R237, R30). -/
def execEventPost (n : Lane) (s : State) : Host.Outcome State Fault Refusal :=
  .next (fieldRow n (fun w => mw w 79 72 ≠ 0) (evtEff n) s)

/-- ALU (R238). -/
def execAlu (n : Lane) (s : State) : Host.Outcome State Fault Refusal :=
  .next (fieldRow n (fun w => mw w 71 68 ≠ 0) (aluEff n) s)

/-- CLK_ZONE (R239, R85). -/
def execClkZone (n : Lane) (s : State) : Host.Outcome State Fault Refusal :=
  .next (fieldRow n (fun w => mw w 35 33 = 1) (clkEff n) s)

/-! ### Running and halting (R240, R244, R245) -/

/-- RUN written to 1 (R244): a halted or faulted sequencer starts, at once in a running mode, else at the next entry to one. -/
def runEff (n : Lane) (s : State) : State :=
  let was := s.on (F.MSn_CTL_RUN n)
  let s := s.put (F.MSn_STAT_MODE_HALT n) 0
  if was then s
  else
    let s := s.put (F.MSn_CTL_RUN n) 1
    let st := seqState s n
    let s := s.onMs n (fun m => { m with stopping := false })
    if (st = Seq.halted ∨ st = Seq.faulted) ∧ !(s.ms n).storeErr then
      if seqMode s.mode then startSeq n s else s.onMs n (fun m => { m with startDue := true })
    else s

/-- RUN (R244). -/
def execRun (n : Lane) (s : State) : Host.Outcome State Fault Refusal := .next (s.command (R.MSn_CTL n) (s.reg (R.MSn_CTL n) ||| 0x80000000) (runEff n))

/-- RUN written to 0 (R245): halts at the next safe point, the word at PC if it is one and has not begun to act. -/
def runStopEff (n : Lane) (s : State) : State :=
  let was := s.on (F.MSn_CTL_RUN n)
  let s := s.put (F.MSn_STAT_MODE_HALT n) 0
  if !was then s
  else
    let s := (s.put (F.MSn_CTL_RUN n) 0).onMs n (fun m => { m with startDue := false })
    if !seqRuns s n then s
    else if mw (seqWord s n) 141 141 = 1 ∧ (s.ms n).acted = 0 then haltSeq n Seq.halted false s
    else s.onMs n (fun m => { m with stopping := true })

/-- RUN_STOP (R245). -/
def execRunStop (n : Lane) (s : State) : Host.Outcome State Fault Refusal := .next (s.command (R.MSn_CTL n) (s.reg (R.MSn_CTL n) &&& 0x7FFFFFFF) (runStopEff n))

/-- RESUME (R244): a halted sequencer with RUN = 1 continues at PC without clearing anything; the halted word executes again. -/
def resumeEff (n : Lane) (s : State) : State :=
  let s := s.put (F.MSn_STAT_MODE_HALT n) 0
  if seqState s n = Seq.halted ∧ s.on (F.MSn_CTL_RUN n) ∧ seqMode s.mode ∧ !(s.ms n).storeErr then
    (beginWord n (s.get (F.MSn_STAT_PC n)) s).onMs n (fun m => { m with passBkpt := true })
  else s

/-- SEQUENCER_RESUME (R244). -/
def execSequencerResume (n : Lane) (s : State) : Host.Outcome State Fault Refusal := .next (s.command (R.MSn_CTL n) (s.reg (R.MSn_CTL n) ||| 0x40000000) (resumeEff n))

/-- FIRMWARE_INTERRUPT (R240): a write of 1 to MSn_INT.FW. -/
def execFirmwareInterrupt (n : Lane) (s : State) : Host.Outcome State Fault Refusal := .next (s.command (R.MSn_INT n) 0x40 (msInt n 6))

/-- FORCED_HALT (R245, R246): no HALT word within 100 µs of MODE_EXIT or of RUN written to 0. -/
def execForcedHalt (n : Lane) (s : State) : Host.Outcome State Fault Refusal :=
  if seqRuns s n && (!seqMode s.mode || (s.ms n).stopping) then
    let pc := s.get (F.MSn_STAT_PC n)
    let s := msHwEvent n 0xF2 pc 0 ((recordHalt n 0x22 s).count (F.MSn_CNT_FORCED n))
    .next (haltSeq n Seq.halted (s.on (F.MSn_CTL_RUN n)) s)
  else .next s

end Sys2Proof.Machine
end

