-- ==== Sys2Proof/Machine/Bus.lean ====
section
/-! DEFINITION. The register network (00_scope.md, R8 to R18; 02_structure_image.md, R59; 25_register_index.md, R629 to R633): what a whole access of
32 bits does to the register it names, under the access codes of its fields and what its owning chapter states, for the control cores and the
service port alike. -/

namespace Sys2Proof.Machine

/-! ### Register pairs (R16) -/

/-- A _LO register of a pair whose _HI register follows it. -/
def pairLo (addr : Nat) : Bool :=
  match locate addr with
  | some (.cfg, _, o) => o == 0x00C
  | some (.trc, _, o) => o == 0x024
  | some (.sv, _, o) => o == 0x118
  | some (.bnd, _, o) => o == 0x014
  | some (.rly, _, o) => o == 0x02C
  | some (.qe, _, o) => o == 0x014
  | some (.scc, _, o) => decide (0x880 ≤ o) && decide (o < 0x8C0) && o % 8 == 0
  | some (.dma, _, o) => o == 0x004 || (decide (0x100 ≤ o) && [0x10, 0x18, 0x40, 0x54].contains (o % 0x80))
  | some (.bat, _, o) => o == 0x020
  | some (.pwr, _, o) => o == 0x01C
  | some (.tly, _, o) => o == 0x008 || o == 0x01C
  | some (.moc, _, o) => o == 0x010
  | _ => false

/-- A _HI register of a pair. -/
def pairHi (addr : Nat) : Bool := decide (4 ≤ addr) && pairLo (addr - 4)

/-- A register whose read latches the next one, as a pair's _LO register does: BUF_WC_DIRTY, BUF_CE_ADDR, BUF_PSN_ADDR (R414, R419, R424). -/
def latchesNext (addr : Nat) : Bool := pairLo addr || addr == R.BUF_WC_DIRTY || addr == R.BUF_CE_ADDR || addr == R.BUF_PSN_ADDR

/-! ### Access codes (R10, R11, R13, R14) -/

/-- The mask of a field. -/
def fieldMask (f : FieldDesc) : Word := (BitVec.allOnes 32 >>> (31 - (f.hi - f.lo))) <<< f.lo

/-- The mask of the fields of a register that carry one of some access codes. -/
def accMask (addr : Nat) (codes : List Acc) : Word :=
  match descOf addr with
  | some r => (r.fields.filter (fun f => codes.contains f.acc)).foldl (fun m f => m ||| fieldMask f) 0
  | none => 0

/-- The word of a register after a software write (R10): RW fields take the data, RWL fields while GLB_MODE is CONFIGURE, W1C bits clear and W1S bits
set on a written 1; RO, RC, WO and reserved bits keep theirs. -/
def mergeWrite (s : State) (addr : Nat) (data : Word) : Word :=
  let old := s.reg addr
  let rw := accMask addr (if s.mode = Mode.configure then [.rw, .rwl] else [.rw])
  let w1c := accMask addr [.w1c]
  let w1s := accMask addr [.w1s]
  ((old &&& ~~~rw) ||| (data &&& rw)) &&& ~~~(data &&& w1c) ||| (data &&& w1s)

/-- Flags that hardware sets by a mask: those that rise make their source pending and raise their event (R11, R441, R560). -/
def hwFlags (addr : Nat) (bits : Word) (s : State) : State :=
  if bits = 0 then s
  else
    let rose := bits &&& ~~~(s.reg addr)
    let s := s.setReg addr (s.reg addr ||| bits)
    if rose = 0 then s
    else
      let s := match flagSource addr with | some n => s.irq n | none => s
      if flagRecorded addr then s.raiseEvent (.flag addr rose) else s

/-- A word with the RW bits that hardware updates in the same handshake (R13). -/
def hwData (addr : Nat) (hw : HwEdit) (w : Word) : Word :=
  let m := hw.mask &&& accMask addr [.rw, .rwl]
  (w &&& ~~~m) ||| (hw.val &&& m)

/-- What hardware does to a register in the handshake of a write, after the write: RW bits that it updates take its value (R13), W1C bits that it
sets end set (R11). -/
def hwUpdate (addr : Nat) (hw : HwEdit) (s : State) : State :=
  let s := if hw.mask &&& accMask addr [.rw, .rwl] = 0 then s else s.setReg addr (hwData addr hw (s.reg addr))
  hwFlags addr (hw.set &&& accMask addr [.w1c]) s

/-- A plain write: the access codes, then what hardware does in the same handshake. -/
def plainWrite (addr : Nat) (data : Word) (hw : HwEdit) (s : State) : State := hwUpdate addr hw (s.setReg addr (mergeWrite s addr data))

/-! ### Registers whose write acts (by block) -/

/-- GLB (R35, R567, R592, R593, R598): a control core's write of GLB_STICKY is discarded. -/
def glbWrite (who : Req) (addr : Nat) (data : Word) (hw : HwEdit) (s : State) : State :=
  if addr = R.GLB_MODE_REQ then (modeRequestEff (data.toNat % 16) s).settle
  else if addr = R.GLB_STICKY then stickyClearEff (match who with | .service => data &&& 0x1F | .core _ => 0) hw.set s
  else if addr = R.GLB_RST_CMD then rstCmdEff who data s
  else plainWrite addr data hw s

/-- TRC and SVC (R549, R552, R554). -/
def trcWrite (addr : Nat) (data : Word) (hw : HwEdit) (s : State) : State :=
  if addr = R.TRC_UPD_CMD then
    let s := if data.getLsbD 0 then goEff s else s
    if data.getLsbD 1 then confirmEff s else s
  else if addr = R.SVC_TX_DATA then svcPush data s
  else plainWrite addr data hw s

/-- HIFn (R324): TRAIN_EN of a port that the configuration holds down reads 0. -/
def hifWrite (n : Nat) (addr : Nat) (data : Word) (hw : HwEdit) (s : State) : State :=
  let s := plainWrite addr data hw s
  if addr = R.HIFn_CTL n ∧ portWidth s n = 0 then s.put (F.HIFn_CTL_TRAIN_EN n) 0 else s

/-- AUTOINC of RLY_SEEK_SEL (R305). -/
def seekStep (s : State) : State := if s.on F.RLY_SEEK_SEL_AUTOINC then s.put F.RLY_SEEK_SEL_INDEX (s.get F.RLY_SEEK_SEL_INDEX + 1) else s

/-- RLY (R305, R398): the seek table's port, and the quota of the function shown; entries above 23 discard writes. -/
def rlyWrite (addr : Nat) (data : Word) (hw : HwEdit) (s : State) : State :=
  if addr = R.RLY_SEEK_DATA then
    let k := s.get F.RLY_SEEK_SEL_INDEX
    let key := 24 * s.get F.RLY_SEEK_SEL_ACT + k
    seekStep (if k ≤ 23 then { s with rly := { s.rly with seek := smPut 0 key ((hwData addr hw data).extractLsb' 0 16) s.rly.seek } } else s)
  else if addr = R.RLY_QOS_FN then
    let fn := s.get F.RLY_QOS_SEL_FN
    let w := (hwData addr hw data).toNat
    s.setQos fn { s.qosOf fn with cap := bitsOf w 15 8, floor := bitsOf w 7 0 }
  else plainWrite addr data hw s

/-- BUF (R414): CLEAR empties the correctable-error table and reads 0. -/
def bufWrite (addr : Nat) (data : Word) (hw : HwEdit) (s : State) : State :=
  if addr = R.BUF_CE_SEL then
    let s := (plainWrite addr data hw s).put F.BUF_CE_SEL_CLEAR 0
    if data.getLsbD 31 then (s.onBuf (fun b => { b with ce := [] })).put F.BUF_CE_STAT_USED 0 else s
  else plainWrite addr data hw s

/-- DMCn (R410, R417): clearing MARKED clears the mark's record; the flip registers. -/
def dmcWrite (n : Nat) (addr : Nat) (data : Word) (hw : HwEdit) (s : State) : State :=
  if h : n < 2 then
    let ch : Fin 2 := ⟨n, h⟩
    if addr = R.DMCn_ECC_STAT n then plainWrite addr (data &&& 0x7FFFFFFF) hw (if data.getLsbD 31 then clearMark ch s else s)
    else if addr = R.DMCn_FLIP_DQ n then hwUpdate addr hw (flipEff ch false data s)
    else if addr = R.DMCn_FLIP_CTL n then hwUpdate addr hw (flipEff ch true data s)
    else plainWrite addr data hw s
  else s

/-- SCC and CCX (R440, R444, R452, R458). -/
def sccWrite (addr : Nat) (data : Word) (hw : HwEdit) (s : State) : State :=
  if addr = R.SCC_WAY_DIS then hwUpdate addr hw (wayDisEff (data &&& 0xFFFF) s)
  else if addr = R.CCX_WDOG_KICK then s.onCcx (fun c => { c with warned := c.warned &&& ~~~(data.extractLsb' 0 8) })
  else if addr = R.CCX_IRQ_ROUTE then s.onCcx (fun c => { c with routes := smPut 0 (s.get F.CCX_IRQ_SEL_SRC) (hwData addr hw data &&& 0x1F7) c.routes })
  else plainWrite addr data hw s

/-- The channel of a DMA channel's register, and its offset among the channel's. -/
def dmaChannelOf (addr : Nat) : Option (Nat × Nat) :=
  match locate addr with
  | some (.dma, _, o) => if 0x100 ≤ o then some ((o - 0x100) / 0x80, (o - 0x100) % 0x80) else none
  | _ => none

/-- DMA (R460, R462, R472, R474, R475): the channel's registers but DMAc_CTL and DMAc_STAT refuse writes while the channel runs. -/
def dmaWrite (addr : Nat) (data : Word) (hw : HwEdit) (s : State) : State :=
  match dmaChannelOf addr with
  | some (c, o) =>
    if o = 0x00 then
      let s := hwUpdate addr hw (s.setReg addr (data &&& 7))
      let s := if data.getLsbD 31 then dmaStartEff c s else s
      let s := if data.getLsbD 30 then dmaResumeEff c s else s
      if data.getLsbD 29 then stopChannel c s else s
    else if o = 0x04 then plainWrite addr data hw s
    else if dmaBusy s c && accMask addr [.rw] != 0 then dmaReject c s
    else plainWrite addr data hw s
  | none =>
    if addr = R.DMA_CTL then disableEff data s
    else if addr = R.DMA_FLAGS then flagSetEff hw.set (flagClearEff data s)
    else if addr = R.DMA_FLAG_SET then flagSetEff data s
    else plainWrite addr data hw s

/-- LNn (R77, R97, R146): head enables beyond the declared heads stay 0, one cleared while its gate is open stays in force until the gate closes;
INHIBIT asserts source 5. -/
def lnWrite (n : Lane) (addr : Nat) (data : Word) (hw : HwEdit) (s : State) : State :=
  match tablePort addr with
  | some (_, wr, isData) => tablePortWrite n wr isData addr (hwData addr hw data) s
  | none =>
    if addr = R.LNn_PBUS_CMD n then pbusCommandEff n data s
    else if addr = R.LNn_HEAD_EN n then
      let old := s.get (F.LNn_HEAD_EN_EN n)
      let new := data.toNat % 2 ^ headsOf s n
      let h := s.get (F.LNn_STAT_HEAD n)
      let gate := gateOpen s n || s.on (F.LNn_WR_STAT_VFY_GATE n)
      let s := if gate && old.testBit h && !new.testBit h then s.onLn n (fun l => { l with enHeld := l.enHeld ||| (1#8 <<< h) }) else s
      hwUpdate addr hw (s.put (F.LNn_HEAD_EN_EN n) new)
    else if addr = R.LNn_WR_CTL n then
      let was := s.on (F.LNn_WR_CTL_INHIBIT n)
      let s := plainWrite addr data hw s
      if !was && s.on (F.LNn_WR_CTL_INHIBIT n) then inhibit n 5 s
      else if was && !s.on (F.LNn_WR_CTL_INHIBIT n) then resumeSource n 5 s
      else s
    else plainWrite addr data hw s

/-- SVn (R181, R183, R192): the limits are held to the image's ceilings. -/
def svWrite (n : Lane) (addr : Nat) (data : Word) (hw : HwEdit) (s : State) : State :=
  let limit := fun (f c : Fld) => hwUpdate addr hw (s.put f (storeLimit (s.get c) (data.toNat % 65536)))
  if addr = R.SVn_CTL n then
    let was := s.on (F.SVn_CTL_ENABLE n)
    let on := data.getLsbD 0
    let s := hwUpdate addr hw (s.setReg addr ((data &&& 0xE) ||| (s.reg addr &&& 1)))
    let s := match laneRec s n with
      | some r => (s.iff (!r.milli) (fun s => s.put (F.SVn_CTL_MILLI_EN n) 0)).iff (!r.micro) (fun s => s.put (F.SVn_CTL_MICRO_EN n) 0)
      | none => s
    if was = on then s else (if on then svEnable n s else svDisable n s).settle
  else if addr = R.SVn_PACE_CMD n then (paceCommand n (data.toNat % 8) s).settle
  else if addr = R.SVn_PACE_VMAX n then limit (F.SVn_PACE_VMAX_VMAX n) (F.SVn_PACE_VMAX_CEIL n)
  else if addr = R.SVn_PACE_AMAX n then limit (F.SVn_PACE_AMAX_AMAX n) (F.SVn_PACE_AMAX_CEIL n)
  else if addr = R.SVn_PACE_JMAX n then limit (F.SVn_PACE_JMAX_JMAX n) (F.SVn_PACE_JMAX_CEIL n)
  else plainWrite addr data hw s

/-- LDP (R109): an iteration budget outside its range is stored as the nearer end. -/
def ldpWrite (addr : Nat) (data : Word) (hw : HwEdit) (s : State) : State :=
  let s := plainWrite addr data hw s
  if addr = R.LDP_ITER then
    (s.put F.LDP_ITER_RTY (min 60 (max 1 (s.get F.LDP_ITER_RTY)))).put F.LDP_ITER_OTF (min 12 (max 1 (s.get F.LDP_ITER_OTF)))
  else s

/-- SPM (R211, R215, R216): ILIM and RATE are stored as at most the image's ceilings. -/
def spmWrite (addr : Nat) (data : Word) (hw : HwEdit) (s : State) : State :=
  let ceil := fun (f : SpindleSec → Nat) (most : Nat) => match spindleSec s with | some p => f p | none => most
  if addr = R.SPM_CMD then (spinCommand (data.toNat % 4) s).settle
  else if addr = R.SPM_CAD_REQ then (hwUpdate addr hw (cadenceRequest (data.toNat % 4) s)).settle
  else if addr = R.SPM_START_CFG then let s := plainWrite addr data hw s; s.put F.SPM_START_CFG_ILIM (min (s.get F.SPM_START_CFG_ILIM) (ceil (fun p => p.ilimCeil) 4095))
  else if addr = R.SPM_CAD_CFG then let s := plainWrite addr data hw s; s.put F.SPM_CAD_CFG_RATE (min (s.get F.SPM_CAD_CFG_RATE) (ceil (fun p => p.rateCeil) 65535))
  else plainWrite addr data hw s

/-- MSn (R240, R244, R245): RUN, RESUME, BKPT_EN and the interrupt enables, of which bits 0 and 1 read 1. -/
def msWrite (n : Lane) (addr : Nat) (data : Word) (hw : HwEdit) (s : State) : State :=
  if addr = R.MSn_CTL n then
    let s := hwUpdate addr hw (s.setReg addr ((s.reg addr &&& 0x80000000) ||| (data &&& 0x2000007C) ||| 3))
    let s := if data.getLsbD 31 then runEff n s else runStopEff n s
    if data.getLsbD 30 then resumeEff n s else s
  else if addr = R.MSn_INT n then (if data.getLsbD 6 then msInt n 6 s else s)
  else plainWrite addr data hw s

/-- BND (R264, R269, R284): a flush or an image asked for, and the levels judged again on new thresholds. -/
def bndWrite (addr : Nat) (data : Word) (hw : HwEdit) (s : State) : State :=
  if addr = R.BND_CMD then
    if !bndRuns s then s
    else
      let s := if data.getLsbD 1 then startImage s else s
      if data.getLsbD 0 then bndFlushCommand s else s
  else
    let s := plainWrite addr data hw s
    if (addr = R.BND_GC_THR ∨ addr = R.BND_GC_BANDS) ∧ bndRuns s then forEach lanes evalLevel s else s

/-- EVR (R559, R562, R578). -/
def evrWrite (addr : Nat) (data : Word) (hw : HwEdit) (s : State) : State :=
  if addr = R.EVR_CTL then freezeSet F.EVR_STAT_FRZ_FW (data.getLsbD 0) (plainWrite addr data hw s)
  else if addr = R.EVR_FW_CODE then firmwareRecordEff data s
  else if addr = R.EVR_STD_REQ then (if data.getLsbD 0 then standingsRequestEff s else s)
  else plainWrite addr data hw s

/-- TLY (R571, R575). Every entry that a COMMIT written here updates is written well (log 4). -/
def tlyWriteReg (addr : Nat) (data : Word) (hw : HwEdit) (s : State) : State :=
  if addr = R.TLY_INC then tallyIncEff data s
  else if addr = R.TLY_HIST then tallyHistEff data s
  else if addr = R.TLY_CMD then (if data.getLsbD 0 then tlyCommitAll [] s else s)
  else plainWrite addr data hw s

/-- BAT (R481, R482, R484, R490, R497): ENABLE reads 0 in a SINGLE image, and clearing it takes the link down; PERIOD keeps the image's bounds. -/
def batWrite (addr : Nat) (data : Word) (hw : HwEdit) (s : State) : State :=
  if addr = R.BAT_CTL then
    let s := plainWrite addr data hw s
    let s := if imageRole s = 0 then s.put F.BAT_CTL_ENABLE 0 else s
    if !s.on F.BAT_CTL_ENABLE && batonUp s then loseLink s else pairSettle s
  else if addr = R.BAT_OWN_CTL then pairSettle (hwUpdate addr hw (ownCtlEff (data.extractLsb' 0 4) s))
  else if addr = R.BAT_HB_CFG then
    let s := plainWrite addr data hw s
    match pairSec s with
    | some (_, _, lo, hi) => s.put F.BAT_HB_CFG_PERIOD (max lo (min hi (s.get F.BAT_HB_CFG_PERIOD)))
    | none => s
  else plainWrite addr data hw s

/-- The node ID in use (R582): 0 for the master under AUTO_ID, MOC_NODE without AUTO_ID. A node that is no master sends no TIME. -/
def mocShow (s : State) : State :=
  let s := if !s.on F.MOC_CTL_AUTO_ID then s.put F.MOC_STAT_NODE (s.get F.MOC_NODE_ID) else if s.on F.MOC_CTL_MASTER then s.put F.MOC_STAT_NODE 0 else s
  if s.on F.MOC_CTL_MASTER && s.on F.MOC_CTL_ENABLE then s else s.put F.MOC_STAT_MASTER_ACT 0

/-- MOC (R580, R582, R589). A master sends ENUM after its reset: when it is first enabled as master (log 43). -/
def mocWrite (addr : Nat) (data : Word) (hw : HwEdit) (s : State) : State :=
  if addr = R.MOC_TX_DATA then { s with moc := { s.moc with tx := s.moc.tx ++ [data] } }
  else if addr = R.MOC_CMD then enumCommandEff data s
  else if addr = R.MOC_CTL ∨ addr = R.MOC_NODE then
    let was := s.on F.MOC_CTL_MASTER && s.on F.MOC_CTL_ENABLE
    let s := mocShow (plainWrite addr data hw s)
    if !was && s.on F.MOC_CTL_MASTER && s.on F.MOC_CTL_ENABLE then enumCommandEff 1 s else s
  else plainWrite addr data hw s

/-- A register whose write is a command and nothing else: a lost unit ignores it (R632). -/
def commandReg (addr : Nat) : Bool := accMask addr [.rw, .rwl, .w1c] == 0 && accMask addr [.wo, .w1s] != 0

/-- SVn_PACE_CMD, whose clear-fault command reaches a lost lane too (R192, R601); `paceCommand` withholds the others (R632). -/
def paceCommandReg (addr : Nat) : Bool := lanes.any (fun n => addr == R.SVn_PACE_CMD n)

/-- A register write performed (R10, R632). -/
def performWrite (who : Req) (addr : Nat) (data : Word) (hw : HwEdit) (s : State) : State :=
  if unitAbsent s addr then plainWrite addr data hw s
  else if commandReg addr && unitLost s addr && !paceCommandReg addr then s
  else
    match locate addr with
    | some (.glb, _, _) => glbWrite who addr data hw s
    | some (.trc, _, _) => trcWrite addr data hw s
    | some (.svc, _, _) => trcWrite addr data hw s
    | some (.hif, n, _) => hifWrite n addr data hw s
    | some (.rly, _, _) => rlyWrite addr data hw s
    | some (.buf, _, _) => bufWrite addr data hw s
    | some (.dmc, n, _) => dmcWrite n addr data hw s
    | some (.scc, _, _) => sccWrite addr data hw s
    | some (.dma, _, _) => dmaWrite addr data hw s
    | some (.ln, n, _) => if h : n < 4 then lnWrite ⟨n, h⟩ addr data hw s else s
    | some (.sv, n, _) => if h : n < 4 then svWrite ⟨n, h⟩ addr data hw s else s
    | some (.spm, _, _) => spmWrite addr data hw s
    | some (.ms, n, _) => if h : n < 4 then msWrite ⟨n, h⟩ addr data hw s else s
    | some (.bnd, _, _) => bndWrite addr data hw s
    | some (.pwr, _, _) => (plainWrite addr data hw s).settle
    | some (.evr, _, _) => evrWrite addr data hw s
    | some (.tly, _, _) => tlyWriteReg addr data hw s
    | some (.bat, _, _) => batWrite addr data hw s
    | some (.moc, _, _) => mocWrite addr data hw s
    | some (.cfg, _, _) => plainWrite addr data hw s
    | some (.qe, _, _) => plainWrite addr data hw s
    | some (.ldp, _, _) => ldpWrite addr data hw s
    | some (.key, _, _) => plainWrite addr data hw s
    | some (.mot, _, _) => plainWrite addr data hw s
    | none => s

/-- Both halves of a pair committed by the write of its _LO register (R16), the _HI half from the holding register. -/
def commitPair (addr : Nat) (lo : Word) (s : State) : State :=
  let hi := smGetD (resetOf (addr + 4)) (addr + 4) s.hold
  let none_ : HwEdit := ⟨0, 0, 0⟩
  let store := fun (s : State) => plainWrite addr lo none_ (plainWrite (addr + 4) hi none_ s)
  if unitAbsent s addr then store s
  else
    match locate addr with
    | some (.sv, n, _) => if h : n < 4 then (if unitLost s addr then s else mailboxWrite ⟨n, h⟩ true (hi ++ lo) s) else s
    | some (.scc, _, o) => showTimer ((o - 0x880) / 8) (store s)
    | some (.dma, _, _) =>
      match dmaChannelOf addr with
      | some (c, _) => if dmaBusy s c && accMask addr [.rw] != 0 then dmaReject c s else store s
      | none => store s
    | some (.pwr, _, _) => (store s).settle
    | _ => store s

/-- A register write by its kind (R16): a _HI register is held, a _LO register commits the pair, any other acts; what hardware does to the register
in the same handshake comes after (R11, R13). -/
def registerWriteNow (who : Req) (addr : Nat) (data : Word) (hw : HwEdit) (s : State) : State :=
  if pairHi addr then hwUpdate addr hw { s with hold := smSet addr data s.hold }
  else if pairLo addr then hwUpdate addr hw (commitPair addr data s)
  else performWrite who addr data hw s

/-- The answer of an access that names no register, is narrow or misaligned (R9): a precise access fault of a hart, the address-error status of the
service port. -/
def addressFault (who : Req) (addr : Nat) (s : State) : State :=
  s.answer (match who with | .core h => .accessFault h addr | .service => .addressError)

/-- An access of `size` bytes names a whole register (R9). -/
def accessOk (size addr : Nat) : Bool := size == 4 && addr % 4 == 0 && (descOf addr).isSome

/-- A register write from a requester (R9, R59, R633). -/
def busWrite (who : Req) (size addr : Nat) (data : Word) (hw : HwEdit) (s : State) : State :=
  if !accessOk size addr then addressFault who addr s else s.write who addr data (registerWriteNow who addr data hw)

/-! ### Reads -/

/-- A word of some fields. -/
def fieldsWord (l : List (Fld × Nat)) : Word := l.foldl (fun w p => insertBits p.1 p.2 w) 0

/-- The actuator that BND_ACT_SEL or RLY_ACT_SEL shows. -/
def laneSel (k : Nat) : Lane := ⟨k % 4, by omega⟩

/-- BND_ACT_FREE, _WEAR, _SPARE and _CREDIT of the actuator shown (R258, R282, R288, R296). -/
def bndActWord (s : State) (o : Nat) : Word :=
  let a := laneSel (s.get F.BND_ACT_SEL_ACT)
  let (most, least) := wearRange s a
  if o = 0x124 then fieldsWord [(F.BND_ACT_FREE_FB, min 65535 (fbOf s a)), (F.BND_ACT_FREE_MC_FREE, min 255 (mcFree s a))]
  else if o = 0x128 then fieldsWord [(F.BND_ACT_WEAR_WEAR_MAX, min 65535 most), (F.BND_ACT_WEAR_WEAR_MIN, min 65535 least)]
  else if o = 0x12C then fieldsWord [(F.BND_ACT_SPARE_INITIAL, min 65535 (initialSpares s a)), (F.BND_ACT_SPARE_REMAINING, min 65535 (sparesLeft s a))]
  else fieldsWord [(F.BND_ACT_CREDIT_H, throttle s a), (F.BND_ACT_CREDIT_CREDIT, unsigned 16 (clampI (-32768) 32767 ((s.bnd.mc.get a).credit / 16)))]

/-- RLY_ACT_STAT and RLY_ACT_CREDIT of the actuator shown (R309, R312). -/
def rlyActWord (s : State) (o : Nat) : Word :=
  let a := laneSel (s.get F.RLY_ACT_SEL_ACT)
  if o = 0x020 then
    fieldsWord [(F.RLY_ACT_STAT_OLDEST, oldestMs s a), (F.RLY_ACT_STAT_IN_SERVICE, b2n (!(s.act a).busy.isEmpty)),
      (F.RLY_ACT_STAT_CLASS, match (s.act a).busy with | i :: _ => i.req.cls | [] => 0), (F.RLY_ACT_STAT_QUEUED, min 65535 (queuedOf s a).length)]
  else fieldsWord [(F.RLY_ACT_CREDIT_C4, unsigned 16 (clampI (-32768) 32767 (s.act a).c4)), (F.RLY_ACT_CREDIT_C3, unsigned 16 (clampI (-32768) 32767 (s.act a).c3))]

/-- The account shown (R321): KIND 3 and indexes above 130 read zero. -/
def rlyAcct (s : State) : Dword :=
  let kind := s.get F.RLY_ACCT_SEL_KIND
  let i := s.get F.RLY_ACCT_SEL_INDEX
  if kind = 3 ∨ 130 < i then 0 else smGetD 0 (256 * kind + i) s.rly.acct

/-- The quota registers of the function shown (R398 to R400). -/
def rlyQosWord (s : State) (o : Nat) : Word :=
  let fn := s.get F.RLY_QOS_SEL_FN
  let q := s.qosOf fn
  if o = 0x108 then fieldsWord [(F.RLY_QOS_FN_CAP, q.cap), (F.RLY_QOS_FN_FLOOR, q.floor)]
  else if o = 0x10C then BitVec.ofNat 32 (unsigned 32 (clampI (-(2 ^ 31)) (2 ^ 31 - 1) q.bal))
  else if o = 0x110 then BitVec.ofNat 32 (min 0xFFFFFFFF q.used)
  else insertBits F.RLY_QOS_STAT_HELD (b2n (fnHeld s fn)) (insertBits F.RLY_QOS_STAT_BELOW_FLOOR (b2n (belowFloor s fn)) (s.reg R.RLY_QOS_STAT))

/-- QE_FN_STAT of the function shown (R355, R356, R373). -/
def qeFnWord (s : State) : Word :=
  let fn := s.get F.QE_FN_SEL_FN
  let held := (s.qe.slots.filter (fun p => p.2.fn == fn && p.2.state == .held)).length
  fieldsWord [(F.QE_FN_STAT_CAPPED, b2n (decide (fnMax s ≤ slotsOf s fn))), (F.QE_FN_STAT_SLOTS, slotsOf s fn), (F.QE_FN_STAT_HELD, min 65535 held)]

/-- KEY_SLOT of the namespace shown (R385, R387). -/
def keySlotWord (s : State) : Word :=
  let k := s.get F.KEY_SEL_NS
  match keySelected s k with
  | some r => fieldsWord [(F.KEY_SLOT_VALID, 1), (F.KEY_SLOT_ERASE_PENDING, b2n r.erasePending), (F.KEY_SLOT_GEN, r.gen.toNat % 2 ^ 24)]
  | none => fieldsWord [(F.KEY_SLOT_LOST, b2n (smGet k s.key.recs).isSome)]

/-- The selected entries of BUF's tables (R414, R419, R427, R428). -/
def bufWord (s : State) (o : Nat) : Option Word :=
  let cls := s.get F.BUF_ARB_SEL_CLASS
  let ce := smGet (s.get F.BUF_CE_SEL_INDEX) s.buf.ce
  let psn := smGet (s.get F.BUF_PSN_SEL_INDEX) s.buf.psn
  if o = 0x028 then some (fieldsWord [(F.BUF_ARB_RESV_DMC1, min 65535 (reservation s 1 cls)), (F.BUF_ARB_RESV_DMC0, min 65535 (reservation s 0 cls))])
  else if o = 0x02C then
    if h : 1 ≤ cls ∧ cls ≤ 6 then
      let i : Fin 6 := ⟨cls - 1, by omega⟩
      some (fieldsWord [(F.BUF_ARB_DEFER_DMC1, min 65535 ((s.buf.defer.get 1).get i)), (F.BUF_ARB_DEFER_DMC0, min 65535 ((s.buf.defer.get 0).get i))])
    else some 0
  else if o = 0x038 then some (match ce with | some e => fieldsWord [(F.BUF_CE_ADDR_LINE, e.line)] | none => 0)
  else if o = 0x03C then
    some (match ce with
      | some e => fieldsWord [(F.BUF_CE_INFO_VALID, 1), (F.BUF_CE_INFO_MULTI, b2n e.multi), (F.BUF_CE_INFO_CH, e.ch), (F.BUF_CE_INFO_SYM, e.sym), (F.BUF_CE_INFO_COUNT, min 255 e.count)]
      | none => 0)
  else if o = 0x048 then some (match psn with | some e => fieldsWord [(F.BUF_PSN_ADDR_LINE, e.line)] | none => 0)
  else if o = 0x04C then
    some (match psn with
      | some e => fieldsWord [(F.BUF_PSN_INFO_VALID, 1), (F.BUF_PSN_INFO_CH, e.ch), (F.BUF_PSN_INFO_OWNER, e.owner), (F.BUF_PSN_INFO_SOURCE, e.source), (F.BUF_PSN_INFO_NUM, e.num % 65536)]
      | none => 0)
  else none

/-- MSn_US_DATA (R225): the selected chunk of the selected word, zero for chunks 6 and 7. -/
def storeWordAt (n : Lane) (s : State) : Word :=
  let k := s.get (F.MSn_US_SEL_CHUNK n)
  if 6 ≤ k then 0 else (smGetD 0 (s.get (F.MSn_US_SEL_ADDR n)) (s.ms n).store).extractLsb' (32 * k) 32

/-- AUTOINC of MSn_US_SEL: CHUNK advances and wraps from 5 to 0 with the next ADDR. -/
def storeStep (n : Lane) (s : State) : State :=
  let k := s.get (F.MSn_US_SEL_CHUNK n)
  if !s.on (F.MSn_US_SEL_AUTOINC n) then s
  else if k = 5 then (s.put (F.MSn_US_SEL_CHUNK n) 0).put (F.MSn_US_SEL_ADDR n) (s.get (F.MSn_US_SEL_ADDR n) + 1)
  else s.put (F.MSn_US_SEL_CHUNK n) (k + 1)

/-- SVn_COEF_DATA (R166, R170): mantissa and block exponent of the selected word; a set that the image does not declare reads zero. -/
def coefWord (n : Lane) (s : State) : Word :=
  let c := s.get (F.SVn_COEF_SEL_CAD n)
  let w := s.get (F.SVn_COEF_SEL_INDEX n)
  if (servoSec s c).isNone then 0
  else fieldsWord [(F.SVn_COEF_DATA_EXP n, wordExp s n c w), (F.SVn_COEF_DATA_MANT n, unsigned 24 (wordMant s n c w))]

/-- AUTOINC of SVn_COEF_SEL. -/
def coefStep (n : Lane) (s : State) : State := if s.on (F.SVn_COEF_SEL_AUTOINC n) then s.put (F.SVn_COEF_SEL_INDEX n) (s.get (F.SVn_COEF_SEL_INDEX n) + 1) else s

/-- The word a register shows now, without what a read of it does (R10): WO fields read as zero. -/
def viewWord (s : State) (addr : Nat) : Word :=
  let plain := s.reg addr &&& ~~~(accMask addr [.wo])
  if unitAbsent s addr then plain
  else
    match locate addr with
    | some (.bnd, _, o) => if 0x124 ≤ o ∧ o ≤ 0x130 then bndActWord s o else plain
    | some (.rly, _, o) =>
      if o = 0x018 then BitVec.ofNat 32 (if s.get F.RLY_SEEK_SEL_INDEX ≤ 23 then seekEntry s (s.get F.RLY_SEEK_SEL_ACT) (s.get F.RLY_SEEK_SEL_INDEX) else 0)
      else if o = 0x020 ∨ o = 0x024 then rlyActWord s o
      else if o = 0x02C then (rlyAcct s).extractLsb' 0 32
      else if o = 0x030 then (rlyAcct s).extractLsb' 32 32
      else if 0x108 ≤ o ∧ o ≤ 0x114 then rlyQosWord s o
      else plain
    | some (.qe, _, _) => if addr = R.QE_FN_STAT then qeFnWord s else plain
    | some (.key, _, _) => if addr = R.KEY_SLOT then keySlotWord s else plain
    | some (.buf, _, o) => (bufWord s o).getD plain
    | some (.scc, _, _) =>
      if addr = R.SCC_WAY_CE then let (w, t) := smGetD (0, 0) (s.get F.SCC_WAY_SEL_WAY) s.ccx.wayCe; fieldsWord [(F.SCC_WAY_CE_TOTAL, t), (F.SCC_WAY_CE_WINDOW, w)]
      else if addr = R.CCX_IRQ_ROUTE then
        let n := s.get F.CCX_IRQ_SEL_SRC
        insertBits F.CCX_IRQ_ROUTE_PEND (b2n (s.ccx.irq.getLsbD n)) (smGetD 0 n s.ccx.routes)
      else plain
    | some (.ms, n, o) =>
      if h : n < 4 then
        if o = 0x024 then storeWordAt ⟨n, h⟩ s
        else if o = 0x02C then (seqReg (s.ms ⟨n, h⟩).cur (s.get (F.MSn_WREG_SEL_SEL n))).zeroExtend 32
        else plain
      else plain
    | some (.sv, n, o) => if h : n < 4 then (if o = 0x038 then coefWord ⟨n, h⟩ s else plain) else plain
    | some (.evr, _, _) => if addr = R.EVR_RD_DATA then evrRdWord s else if addr = R.EVR_STD_DATA then evrStdWord s else plain
    | _ => plain

/-- The levels at the multiplexed balls (R614, GLB_GPIO_IN): a ball that this chip drives shows what it drives, any other a free value (log 1). -/
def gpioLevels (s : State) : Word × State :=
  let mxa := s.get F.GLB_BALL_SEL_MXA
  let mxb := s.get F.GLB_BALL_SEL_MXB
  let applied := s.on F.GLB_BALL_SEL_APPLIED
  let m := s.mode
  let signals : Nat := (if mxa = 1 then b2n (m == Mode.degraded || m == Mode.readonly || m == Mode.service) * 16 + b2n (m == Mode.active) * 32 else 0) +
    (if mxb = 1 then s.get F.BAT_OWN_STAT_ACK * 65536 else 0)
  let special : Nat := (if mxa = 1 then 0x3F else 0) + (if mxb = 1 then 0xF0000 else 0)
  let driven := if applied then s.reg R.GLB_GPIO_OE &&& ~~~(BitVec.ofNat 32 special) else 0
  let fixed := if applied then (if mxa = 1 then 0x30#32 else 0) ||| (if mxb = 1 then 0xF0000#32 else 0) else 0
  let (v, s) := s.free 24
  let open_ := (v.zeroExtend 32) &&& ~~~driven &&& ~~~fixed
  (open_ ||| (s.reg R.GLB_GPIO_OUT &&& driven) ||| (BitVec.ofNat 32 signals &&& fixed), s)

/-- A read performed (R10, R12): the word, with what reading does: RC fields clear, ports advance, FIFOs pop. `event` is what hardware records into RC
fields in the same handshake, which the next read returns. -/
def performRead (addr : Nat) (event : Word) (s : State) : Word × State :=
  let plain := fun (s : State) =>
    let w := viewWord s addr
    let rc := accMask addr [.rc]
    (w, if rc = 0 then s else s.setReg addr ((s.reg addr &&& ~~~rc) ||| (event &&& rc)))
  if unitAbsent s addr then (s.reg addr &&& ~~~(accMask addr [.wo]), s)
  else
    match locate addr with
    | some (.svc, _, _) => if addr = R.SVC_RX_DATA then svcPop s else plain s
    | some (.moc, _, _) => if addr = R.MOC_RX_DATA then mocPop s else plain s
    | some (.evr, _, _) =>
      if addr = R.EVR_RD_DATA then (evrRdWord s, evrRdAdvance s) else if addr = R.EVR_STD_DATA then (evrStdWord s, evrStdAdvance s) else plain s
    | some (.ms, n, o) => if h : n < 4 then (if o = 0x024 then (storeWordAt ⟨n, h⟩ s, storeStep ⟨n, h⟩ s) else plain s) else plain s
    | some (.sv, n, o) => if h : n < 4 then (if o = 0x038 then (coefWord ⟨n, h⟩ s, coefStep ⟨n, h⟩ s) else plain s) else plain s
    | some (.ln, n, _) =>
      if h : n < 4 then
        if addr = R.LNn_TBL_DATA n then tableRead ⟨n, h⟩ false s else if addr = R.LNn_WTBL_DATA n then tableRead ⟨n, h⟩ true s else plain s
      else plain s
    | some (.tly, _, _) => if addr = R.TLY_RD_LO then tlyReadLo s else plain s
    | some (.rly, _, o) => if o = 0x018 then (viewWord s addr, seekStep s) else plain s
    | some (.buf, _, o) =>
      if o = 0x02C then
        let cls := s.get F.BUF_ARB_SEL_CLASS
        let w := viewWord s addr
        if h : 1 ≤ cls ∧ cls ≤ 6 then
          let i : Fin 6 := ⟨cls - 1, by omega⟩
          let d := setV (setV s.buf.defer 0 (setV (s.buf.defer.get 0) i (bitsOf event.toNat 15 0))) 1 (setV (s.buf.defer.get 1) i (bitsOf event.toNat 31 16))
          (w, s.onBuf (fun b => { b with defer := d }))
        else (w, s)
      else plain s
    | some (.scc, _, o) =>
      if 0x840 ≤ o ∧ o < 0x880 then let (n, s) := claimEff ((o - 0x840) / 8) ((o - 0x840) % 8 == 4) (event != 0) s; (BitVec.ofNat 32 n, s) else plain s
    | some (.glb, _, _) => if addr = R.GLB_GPIO_IN then gpioLevels s else plain s
    | some (.hif, n, _) =>
      if addr = R.HIFn_LINK_STAT n then let (v, s) := s.free 6; (insertBits (F.HIFn_LINK_STAT_LTSSM n) v.toNat (viewWord s addr), s) else plain s
    | _ => plain s

/-- A register read by its kind (R16): a _LO register latches its _HI half, a _HI register returns the shadow once one is latched. -/
def registerReadNow (addr : Nat) (event : Word) (s : State) : Word × State :=
  if 4 ≤ addr ∧ latchesNext (addr - 4) then
    match smGet addr s.shadow with
    | some w => (w, s)
    | none => performRead addr event s
  else if latchesNext addr then
    let (w, s) := performRead addr event s
    (w, { s with shadow := smSet (addr + 4) (viewWord s (addr + 4)) s.shadow })
  else performRead addr event s

/-- A register read from a requester (R9, R633): it waits while its lane is being reset. -/
def busRead (who : Req) (size addr : Nat) (event : Word) (s : State) : State :=
  if !accessOk size addr then addressFault who addr s
  else if laneBusy s addr then s.hold_ who addr none none
  else let (w, s) := registerReadNow addr event s; s.answer (.value w)

end Sys2Proof.Machine
end

