-- ==== Sys2Proof/Machine/TestPort.lean ====
section
/-! DEFINITION. The test port (24_balls_and_electrical.md, R605, R626): the controller of IEEE 1149.1, the 8-bit instruction register, IDCODE, BYPASS
and the boundary-scan cells. -/

namespace Sys2Proof.Machine

/-- The instructions of R626. -/
inductive TapInstr where
  | idcode
  | sample
  | extest
  | highz
  | clamp
  | bypass
deriving DecidableEq, Repr

/-- The instruction that a code names; any code not listed acts as BYPASS (R626). -/
def tapInstr (ir : BitVec 8) : TapInstr :=
  if ir = 0x01 then .idcode
  else if ir = 0x02 then .sample
  else if ir = 0x03 then .extest
  else if ir = 0x04 then .highz
  else if ir = 0x05 then .clamp
  else .bypass

/-- IDCODE (R626): stepping × 2²⁸ + 0x0448_01EB. -/
def idcode : BitVec 32 := (Config.stepping.zeroExtend 32 <<< 28) ||| 0x044801EB

/-- Balls that boundary-scan cells cover (R605, R626), one cell to a ball (log 44): the preamp buses, the motion link, PEn_RST_N, both DDR5 channels
without DDRn_ZQ, the ownership pins, the Mocel ring, the service port, the boot flash, the straps and control inputs, MXA and MXB. -/
def boundaryCells : Nat := 4 * 4 + 12 + 2 + 2 * 80 + 8 + 12 + 4 + 7 + 4 + 24

/-- The next state of the controller at a rising edge of TCK (IEEE 1149.1). -/
def TapState.next (st : TapState) (tms : Bool) : TapState :=
  match st with
  | .testLogicReset => if tms then .testLogicReset else .runTestIdle
  | .runTestIdle => if tms then .selectDr else .runTestIdle
  | .selectDr => if tms then .selectIr else .captureDr
  | .captureDr => if tms then .exit1Dr else .shiftDr
  | .shiftDr => if tms then .exit1Dr else .shiftDr
  | .exit1Dr => if tms then .updateDr else .pauseDr
  | .pauseDr => if tms then .exit2Dr else .pauseDr
  | .exit2Dr => if tms then .updateDr else .shiftDr
  | .updateDr => if tms then .selectDr else .runTestIdle
  | .selectIr => if tms then .testLogicReset else .captureIr
  | .captureIr => if tms then .exit1Ir else .shiftIr
  | .shiftIr => if tms then .exit1Ir else .shiftIr
  | .exit1Ir => if tms then .updateIr else .pauseIr
  | .pauseIr => if tms then .exit2Ir else .pauseIr
  | .exit2Ir => if tms then .updateIr else .shiftIr
  | .updateIr => if tms then .selectDr else .runTestIdle

def State.onTap (s : State) (f : Tap → Tap) : State := { s with glb := { s.glb with tap := f s.glb.tap } }

/-- The bits of a word, the least significant first. -/
def bitsLow {w : Nat} (v : BitVec w) : List Bool := (List.range w).map v.getLsbD

/-- What Capture-DR loads: IDCODE, the levels at the covered balls (free values), or the 0 of the bypass register (R626). -/
def captureDr (s : State) : State :=
  match tapInstr s.glb.tap.ir with
  | .idcode => s.onTap (fun t => { t with shiftDr := bitsLow idcode })
  | .sample =>
    let (v, s) := s.free boundaryCells
    s.onTap (fun t => { t with shiftDr := bitsLow v })
  | .extest =>
    let (v, s) := s.free boundaryCells
    s.onTap (fun t => { t with shiftDr := bitsLow v })
  | .highz => s.onTap (fun t => { t with shiftDr := [false] })
  | .clamp => s.onTap (fun t => { t with shiftDr := [false] })
  | .bypass => s.onTap (fun t => { t with shiftDr := [false] })

/-- What the boundary-scan cells then drive (R626). -/
def driveCells (s : State) : State :=
  match tapInstr s.glb.tap.ir with
  | .extest => s.emit (.boundary (some s.glb.tap.cells))
  | .clamp => s.emit (.boundary (some s.glb.tap.cells))
  | .highz => s.emit (.boundary none)
  | .idcode => s
  | .sample => s
  | .bypass => s

/-- What the state entered does: Test-Logic-Reset brings IDCODE back; Update-IR takes the instruction shifted in, Update-DR the cells' levels. -/
def enterTap (st : TapState) (s : State) : State :=
  let s := s.onTap (fun t => { t with state := st })
  match st with
  | .testLogicReset => s.onTap (fun t => { t with ir := 0x01 })
  | .updateIr => driveCells (s.onTap (fun t => { t with ir := t.shiftIr }))
  | .updateDr =>
    let i := tapInstr s.glb.tap.ir
    if i = .sample ∨ i = .extest then driveCells (s.onTap (fun t => { t with cells := t.shiftDr })) else s
  | _ => s

/-- One cycle of TCK (R626): the state's own action, then the next state; TRST_N low holds Test-Logic-Reset. -/
def tapCycle (c : TckCycle) (s : State) : State :=
  if !c.trstN then enterTap .testLogicReset s
  else
    let st := s.glb.tap.state
    let s :=
      match st with
      | .captureIr => s.onTap (fun t => { t with shiftIr := 0x01 })
      | .shiftIr =>
        let out := s.glb.tap.shiftIr.getLsbD 0
        (s.onTap (fun t => { t with shiftIr := (t.shiftIr >>> 1) ||| (if c.tdi then 0x80 else 0) })).emit (.tdo out)
      | .captureDr => captureDr s
      | .shiftDr =>
        let out := s.glb.tap.shiftDr.headD false
        (s.onTap (fun t => { t with shiftDr := t.shiftDr.drop 1 ++ [c.tdi] })).emit (.tdo out)
      | _ => s
    enterTap (st.next c.tms) s

/-- The port takes the next cycle that the board drives, at every fourth tick of 10 ns: TCK runs at up to 25 MHz (R626, log 44). -/
def tapTick (s : State) : State :=
  match s.glb.tap.clocks with
  | c :: rest => if s.moc.tickMod % 4 = 0 then tapCycle c (s.onTap (fun t => { t with clocks := rest })) else s
  | [] => s

end Sys2Proof.Machine
end

