-- ==== Sys2Proof/Machine/Cores.lean ====
section
/-! DEFINITION. Accesses of the control cores (17_cores_and_cache.md, R436 to R439, R445, R454, R455): register space, buffer memory through the
caches and the store buffer, and the precise exceptions that the RH4480 raises. -/

namespace Sys2Proof.Machine

/-! ### Exceptions (R438) -/

/-- A hart takes a trap (R437, R438): its cause and mtval are left as the access's answer, and its reservation is lost. -/
def coreTrap (h : Fin 8) (cause va : Nat) (s : State) : State :=
  (s.onCcx (fun c => { c with reserve := setV c.reserve h none })).answer (.exception h cause va)

/-- The access fault of an access kind: fetch 1, load 5, store, SC and AMO 7. -/
def faultCause : CoreOp → Nat
  | .fetch => 1
  | .load => 5
  | .lr => 5
  | _ => 7

/-- The access-fault cause of an access to register space that R438 always refuses: fetch 1, LR, SC and AMO 7. -/
def registerCause : CoreOp → Nat
  | .fetch => 1
  | .load => 5
  | _ => 7

/-! ### The store buffer (R445, R455) -/

/-- Bytes laid over a list that starts at an address. -/
def overlay (base : Nat) (l : List Byte) (e : Nat × List Byte) : List Byte :=
  ((List.range l.length).zip l).map (fun b => if e.1 ≤ base + b.1 ∧ base + b.1 < e.1 + e.2.length then e.2.getD (base + b.1 - e.1) 0 else b.2)

/-- The bytes at an address as a hart sees them: memory with its own buffered stores over it, oldest first. -/
def coreBytes (h : Fin 8) (off n : Nat) (s : State) : List Byte := (s.ccx.sb.get h).foldl (overlay off) (memRead s off n)

/-- The 8-byte entry of an address. -/
def sbWord (a : Nat) : Nat := a / 8

/-- Two runs of bytes of one entry touch or overlap. -/
def sbTouch (a b : Nat × List Byte) : Bool := sbWord a.1 == sbWord b.1 && decide (a.1 ≤ b.1 + b.2.length) && decide (b.1 ≤ a.1 + a.2.length)

/-- A newer run merged over an older one. -/
def sbJoin (old new : Nat × List Byte) : Nat × List Byte :=
  let lo := min old.1 new.1
  let hi := max (old.1 + old.2.length) (new.1 + new.2.length)
  (lo, overlay lo (overlay lo (zeros (hi - lo)) old) new)

/-- The shared cache's part of a write by a hart to a line (R439, R446, R454): other copies are invalidated, the line is allocated and dirty; a poisoned
line stays poisoned unless every byte is written. -/
def coreWriteLine (h : Fin 8) (gl : Nat) (runs : List (Nat × List Byte)) (s : State) : State :=
  let full := (List.range 64).all (fun i => runs.any (fun r => decide (r.1 ≤ 64 * gl + i) && decide (64 * gl + i < r.1 + r.2.length)))
  let s := coreLookup h gl (sccExclusive gl (some h) s)
  let bad := glPoisoned s gl
  let s := if bad && !full then s else forEach runs (fun r s => memWrite r.1 r.2 s) s
  match sccFind s gl with
  | some (k, l) => sccPut k { l with dirty := true, poison := bad && !full } s
  | none => if bad && !full then s else fullWrite gl (memRead s (64 * gl) 64) s

/-- The entries of the oldest entry's line leave the store buffer together (R445, R454). -/
def sbDrainLine (h : Fin 8) (s : State) : State :=
  match s.ccx.sb.get h with
  | [] => s
  | e :: t =>
    let gl := e.1 / 64
    let mine := (e :: t).filter (fun r => r.1 / 64 == gl)
    let s := s.onCcx (fun c => { c with sb := setV c.sb h ((e :: t).filter (fun r => r.1 / 64 != gl)) })
    coreWriteLine h gl mine s

/-- Lines drained in order until the store buffer is empty. -/
def sbDrain (h : Fin 8) : Nat → State → State
  | 0, s => s
  | k + 1, s => sbDrain h k (sbDrainLine h s)

/-- The whole store buffer of a hart drained. -/
def sbFlush (h : Fin 8) (s : State) : State := sbDrain h 8 s

/-- A store enters the store buffer (R439, R445): it merges with a run of the same entry, and the oldest line drains where no entry is free. -/
def sbStore (h : Fin 8) (off : Nat) (bytes : List Byte) (s : State) : State :=
  let new := (off, bytes)
  match (s.ccx.sb.get h).find? (sbTouch new) with
  | some old => s.onCcx (fun c => { c with sb := setV c.sb h ((c.sb.get h).map (fun r => if r = old then sbJoin old new else r)) })
  | none =>
    let s := if 8 ≤ (s.ccx.sb.get h).length then sbDrainLine h s else s
    s.onCcx (fun c => { c with sb := setV c.sb h (c.sb.get h ++ [new]) })

/-- Runs of a store cut at 8-byte entries (R445). -/
def sbRuns (off : Nat) (bytes : List Byte) : List (Nat × List Byte) :=
  let cut := min bytes.length (8 - off % 8)
  if cut < bytes.length then [(off, bytes.take cut), (off + cut, bytes.drop cut)] else [(off, bytes)]

/-- Every hart's store buffer drains while nothing else is commanded (R454, log 3). -/
def drainStores (s : State) : State := forEach ([0, 1, 2, 3, 4, 5, 6, 7] : List (Fin 8)) sbFlush s

/-- What happens while no command waits: ring time ticks (R583) and stores leave the store buffers (R454). -/
def idleStep (s : State) : State := tapTick (ringTick (drainStores s))

/-! ### Loads, fetches, atomics (R437, R438, R445, R454) -/

/-- The hart's L1 data cache holds the line (R454). -/
def l1Has (h : Fin 8) (gl : Nat) (s : State) : Bool := match sccFind s gl with | some (_, l) => l.holders.getLsbD h | none => false

/-- An L1 parity error (R445): the line is invalidated and refetched, and the error counted. -/
def l1Parity (h : Fin 8) (gl : Nat) (s : State) : State :=
  let s := match sccFind s gl with | some (k, l) => sccPut k { l with holders := l.holders &&& ~~~(1#8 <<< h.val) } s | none => s
  s.count F.CCX_CNT_L1_PAR

/-- A data line brought to the core: from L1, or through the shared cache with what SECDED finds there. Answers whether the line is poisoned. -/
def coreDataLine (h : Fin 8) (gl : Nat) (l1 : L1Result) (array : ArrayResult) (s : State) : Bool × State :=
  if l1Has h gl s && l1 == .hit then (false, s)
  else
    let s := if l1Has h gl s && l1 == .parity then l1Parity h gl s else s
    let s := coreLookup h gl (sccArray gl array s)
    if glPoisoned s gl then (true, s.count F.BUF_CNT_PSN_USED) else (false, l1Hold h gl s)

/-- An instruction line: from the instruction cache as it was filled, or through the shared cache (R445, R454). -/
def coreInstrLine (h : Fin 8) (gl : Nat) (l1 : L1Result) (array : ArrayResult) (s : State) : Option (List Byte) × State :=
  let held := smGet gl (s.ccx.icache.get h)
  match held, l1 with
  | some b, .hit => (some b, s)
  | _, _ =>
    let s := if held.isSome && l1 == .parity then s.count F.CCX_CNT_L1_PAR else s
    let s := coreLookup h gl (sccArray gl array s)
    if glPoisoned s gl then (none, (s.onCcx (fun c => { c with icache := setV c.icache h (smErase gl (c.icache.get h)) })).count F.BUF_CNT_PSN_USED)
    else
      let b := memRead s (64 * gl) 64
      (some b, s.onCcx (fun c => { c with icache := setV c.icache h (smSet gl b (c.icache.get h)) }))

/-- The value of bytes, as 64 bits. -/
def bytesVal (l : List Byte) : Dword := BitVec.ofNat 64 (unle l)

/-- An instruction fetch from buffer memory. -/
def coreFetch (a : CoreAccess) (off : Nat) (s : State) : State :=
  let gl := off / 64
  match coreInstrLine a.hart gl a.l1 a.array s with
  | (none, s) => coreTrap a.hart 1 a.va s
  | (some b, s) =>
    if off % 64 + a.size ≤ 64 then s.answer (.data (bytesVal ((b.drop (off % 64)).take a.size)))
    else
      match coreInstrLine a.hart (gl + 1) a.l1 a.array s with
      | (none, s) => coreTrap a.hart 1 a.va s
      | (some b2, s) => s.answer (.data (bytesVal (((b ++ b2).drop (off % 64)).take a.size)))

/-- An AMO's result (R437) on `size` bytes. -/
def amoResult (f : AmoOp) (size old src : Nat) : Nat :=
  let w := 8 * size
  let o := old % 2 ^ w
  let v := src % 2 ^ w
  match f with
  | .swap => v
  | .add => (o + v) % 2 ^ w
  | .and => o &&& v
  | .or => o ||| v
  | .xor => o ^^^ v
  | .min => if signed w o ≤ signed w v then o else v
  | .max => if signed w o ≤ signed w v then v else o
  | .minu => min o v
  | .maxu => max o v

/-- A load, LR, store, SC or AMO within one line of buffer memory. -/
def coreData (a : CoreAccess) (off : Nat) (s : State) : State :=
  let h := a.hart
  let gl := off / 64
  let va := a.va
  match a.op with
  | .load =>
    match coreDataLine h gl a.l1 a.array s with
    | (true, s) => coreTrap h 5 va s
    | (false, s) => s.answer (.data (bytesVal (coreBytes h off a.size s)))
  | .lr =>
    match coreDataLine h gl a.l1 a.array s with
    | (true, s) => coreTrap h 5 va s
    | (false, s) =>
      let s := s.onCcx (fun c => { c with reserve := setV c.reserve h (some gl) })
      s.answer (.data (bytesVal (coreBytes h off a.size s)))
  | .store => (forEach (sbRuns off (le a.size a.data.toNat)) (fun r s => sbStore h r.1 r.2 s) s).answer .done
  | .sc within =>
    match coreDataLine h gl a.l1 a.array (sbFlush h s) with
    | (true, s) => coreTrap h 7 va s
    | (false, s) =>
      let won := within && s.ccx.reserve.get h == some gl
      let s := s.onCcx (fun c => { c with reserve := setV c.reserve h none })
      if won then (coreWriteLine h gl [(off, le a.size a.data.toNat)] s).answer (.data 0) else s.answer (.data 1)
  | .amo f =>
    match coreDataLine h gl .miss a.array (sbFlush h s) with
    | (true, s) => coreTrap h 7 va s
    | (false, s) =>
      let old := unle (memRead s off a.size)
      (coreWriteLine h gl [(off, le a.size (amoResult f a.size old a.data.toNat))] s).answer (.data (BitVec.ofNat 64 old))
  | _ => s

/-- The cause of a misaligned access (R437): loads and stores only where they cross a line, LR, SC and AMO always. -/
def misaligned (a : CoreAccess) (off : Nat) : Option Nat :=
  let crosses := decide (64 < off % 64 + a.size)
  let odd := off % a.size != 0
  match a.op with
  | .load => if crosses then some 4 else none
  | .store => if crosses then some 6 else none
  | .lr => if odd then some 4 else none
  | .sc _ => if odd then some 6 else none
  | .amo _ => if odd then some 6 else none
  | _ => none

/-- An access to register space (R8, R9, R438, R439): loads and stores go to the register network and are answered precisely. -/
def coreRegister (a : CoreAccess) (s : State) : State :=
  let precise := fun (s : State) => match s.bus with | .accessFault h _ => coreTrap h (registerCause a.op) a.va s | _ => s
  match a.op with
  | .load => precise (busRead (.core a.hart) a.size a.addr 0 s)
  | .store => precise (busWrite (.core a.hart) a.size a.addr (a.data.extractLsb' 0 32) ⟨0, 0, 0⟩ s)
  | op => coreTrap a.hart (registerCause op) a.va s

/-- The first buffer address in the cores' physical map (R436). -/
def bufferBase : Nat := 0x1000000000

/-! ### Control and status registers (R433, R434, R440, R443) -/

/-- A source is pending for a hart at a level, and delivered (R440). -/
def externalDue (s : State) (h : Fin 8) (sup : Bool) : Bool := (List.range 256).any (deliveredTo s h sup)

/-- misa (R433, R434): RV64 with A, C, D, F, I and M, and the supervisor and user modes (DEDUCED: privileged specification 1.12 shows them there). -/
def misaValue : Dword := 0x800000000014112D

/-- What a hart reads of a control and status register (R433, R434): the identification registers, the ring time for both time and cycle, and in mip
the machine software (bit 3), machine timer (7), supervisor external (9) and machine external (11) interrupts; the bits of mip that a hart itself
writes are not modelled (log 32). -/
def csrValue (s : State) (h : Fin 8) : CoreCsr → Dword
  | .misa => misaValue
  | .mvendorid => 0
  | .marchid => 0
  | .mimpid => 0
  | .mhartid => BitVec.ofNat 64 h
  | .cycle => s.now
  | .time => s.now
  | .mip =>
    BitVec.ofNat 64 (2 ^ 3 * s.get (F.CCX_IPI_MSIP.bit h) + 2 ^ 7 * b2n (s.ccx.mtip.getLsbD h) + 2 ^ 9 * b2n (externalDue s h true) + 2 ^ 11 * b2n (externalDue s h false))

/-- A hart's access (R436 to R439). -/
def coreAccessEff (a : CoreAccess) (s : State) : State :=
  match a.op with
  | .fence => (sbFlush a.hart s).answer .done
  | .csrRead r => s.answer (.data (csrValue s a.hart r))
  | .csrWriteMisa => s.answer .done
  | .fenceI => ((sbFlush a.hart s).onCcx (fun c => { c with icache := setV c.icache a.hart [] })).answer .done
  | op =>
    match a.refused with
    | some cause => coreTrap a.hart cause a.va s
    | none =>
      if a.addr < 0x10000000 then coreRegister a s
      else if a.addr < bufferBase ∨ bufferBase + bufBytes s < a.addr + a.size then coreTrap a.hart (faultCause op) a.va s
      else
        let off := a.addr - bufferBase
        match misaligned a off with
        | some cause => coreTrap a.hart cause a.va s
        | none => if op = .fetch then coreFetch a off s else coreData a off s

/-- The hart executes: released by the trust core and not lost (R436, R444). -/
def hartRuns (s : State) (h : Fin 8) : Bool := s.get (F.CCX_HART_STAT_RELEASED.bit h) == 1 && s.get (F.CCX_HART_STAT_LOST.bit h) == 0

/-- CORE_ACCESS (R436 to R439, R445, R454). -/
def execCoreAccess (a : CoreAccess) (s : State) : Host.Outcome State Fault Refusal := .next (if hartRuns s a.hart then coreAccessEff a s else s)

end Sys2Proof.Machine
end

