-- ==== Sys2Proof/Machine/LoadRows.lean ====
section
/-! DEFINITION. The structure-image loader (02_structure_image.md): the admission checks of R49 and the section layouts of R636 to R642, what
applying the sections sets (R57), and the start-up of the DRAM controllers (R405, R415, R416). -/

namespace Sys2Proof.Machine

/-! ### Sections by type (R48) -/

/-- TYPE of a section. -/
def sectionType : Section → Nat
  | .lanes _ => 0x0001
  | .readers _ => 0x0002
  | .zones _ => 0x0003
  | .ustore _ => 0x0004
  | .sram _ _ _ => 0x0005
  | .dram _ _ => 0x0006
  | .host _ => 0x0007
  | .balls _ _ => 0x0008
  | .pair _ _ _ _ => 0x0009
  | .bandwidth _ _ _ => 0x000A
  | .presets _ => 0x000B
  | .servo _ => 0x000C
  | .spindle _ => 0x000D
  | .bands _ => 0x000E
  | .unknown t => t

/-- A type of the table of R48. -/
def knownType (t : Nat) : Bool := decide (1 ≤ t) && decide (t ≤ 0xE)

/-- The directory with its indexes. -/
def indexed (img : Image) : List (Nat × DirEntry) := (List.range img.dir.length).zip img.dir

/-- The first directory index whose entry meets a condition. -/
def firstWhere (img : Image) (p : DirEntry → Bool) : Option Nat := ((indexed img).find? (fun e => p e.2)).map (fun e => e.1)

/-- The first section of a kind. -/
def imgFind {α : Type} (img : Image) (f : DirEntry → Option α) : Option α := findSection (some img) f

def imgLanes (img : Image) : List LaneRec := (imgFind img (fun d => match d.body with | .lanes l => some l | _ => none)).getD []
def imgHost (img : Image) : Option HostSec := imgFind img (fun d => match d.body with | .host h => some h | _ => none)
def imgSpindle (img : Image) : Option SpindleSec := imgFind img (fun d => match d.body with | .spindle p => some p | _ => none)
def imgZones (img : Image) (c : Nat) : Option ZonesSec := imgFind img (fun d => match d.body with | .zones z => if d.inst = c then some z else none | _ => none)
def imgPair (img : Image) : Nat × BitVec 16 := (imgFind img (fun d => match d.body with | .pair r p _ _ => some (r, p) | _ => none)).getD (0, 0)
def imgDram (img : Image) : Option (DramRec × DramRec) := imgFind img (fun d => match d.body with | .dram a b => some (a, b) | _ => none)
def imgBands (img : Image) : Option BandsSec := imgFind img (fun d => match d.body with | .bands b => some b | _ => none)

/-- The index of the only section of a type, 0xFF where it is missing. -/
def indexOfType (img : Image) (t : Nat) : Nat := (firstWhere img (fun d => sectionType d.body == t)).getD 0xFF

/-- Lane l is marked present. -/
def lanePresentIn (img : Image) (l : Nat) : Bool := match (imgLanes img)[l]? with | some r => r.present | none => false

/-- Cadence c is declared (R55). -/
def declaredIn (img : Image) (c : Nat) : Bool := match imgSpindle img with | some p => p.cadences.getLsbD c | none => false

/-! ### Layouts (R636 to R642) -/

/-- A sector-map entry (R639, part 4). -/
def sectorPosOk (p : SectorPos) : Bool := decide (p.wedge ≤ 719) && decide (p.gateOfs < 2 ^ 17) && decide (p.split < 2 ^ 17) && decide (p.contOfs < 2 ^ 17)

/-- A zone format (R639, part 3) with its sector map. -/
def zoneFmtOk (f : ZoneFmt) : Bool :=
  decide (14000 ≤ f.bpw) && decide (f.bpw ≤ 74074) && decide (f.cls ≤ 3) && decide (f.p ≤ 2) && (f.p == 0 || (decide (32 ≤ f.g) && decide (f.g ≤ 256))) &&
  decide (512 ≤ f.preamble) && decide (f.preamble ≤ 4096) && decide (f.map.length = f.spt) && f.map.all sectorPosOk

/-- A zone's sector map lies in part 4 of the section, between the formats and the presets (R639). -/
def mapInside (z : ZonesSec) (f : ZoneFmt) : Bool :=
  decide (1168 + 32 * z.z ≤ f.mapOfs) && decide (f.mapOfs + 8 * f.spt ≤ presetsFrom 0 z.fmts)

/-- A ZONES section of an instance (R639). -/
def zonesOk (img : Image) (inst len : Nat) (z : ZonesSec) : Bool :=
  let heads := presetHeads (imgLanes img)
  let keys := heads.flatMap (fun h => (List.range z.z).map (fun k => 32 * h + k))
  decide (1 ≤ z.z) && decide (z.z ≤ 32) && z.presets.map (fun p => p.1) == keys && z.presets.all (fun p => decide (p.2.eq.length = 192)) &&
  if inst = 0 then
    decide (z.fmts.length = z.z) && z.fmts.all (fun f => zoneFmtOk f && mapInside z f) && z.smax == (z.fmts.map (fun f => f.spt)).foldl max 0 &&
    z.bounds.all (fun b => decide (b.2.1.length = z.z) && (heads.contains b.1 || (b.2.1.all (fun t => t == 0) && b.2.2 == 0))) &&
    len == 16 + 1152 + 32 * z.z + (z.fmts.map (fun f => 8 * f.spt)).sum + 800 * z.presets.length
  else (match imgZones img 0 with | some z0 => z.z == z0.z | none => true) && len == 16 + 800 * z.presets.length

/-- A READERS section of a lane (R640). -/
def readersOk (img : Image) (inst len : Nat) (r : ReadersSec) : Bool :=
  (match (imgLanes img)[inst]? with | some l => !l.present || r.heads == l.heads | none => true) &&
  (match imgZones img 0 with | some z => r.z == z.z | none => true) &&
  decide (r.hd.length = r.heads) && r.hd.all (fun h => decide (h.dt.length = 3) && decide (h.trail ≤ 2) && decide (h.taps.length = 32)) &&
  r.zn.map (fun e => e.1) == (List.range r.heads).flatMap (fun h => (List.range r.z).map (fun k => 32 * h + k)) &&
  r.zn.all (fun e => decide (e.2.delays.length = 3) && decide (e.2.xts.length = 3)) && len == 8 + 144 * r.heads + 16 * r.heads * r.z

/-- Blocks of a SERVO section's table do not overlap (R641, part 3). -/
def blocksApart : List (Nat × Nat × Nat) → Bool
  | [] => true
  | b :: t => t.all (fun c => decide (b.1 + b.2.1 ≤ c.1) || decide (c.1 + c.2.1 ≤ b.1) || b.2.1 == 0 || c.2.1 == 0) && blocksApart t

/-- A SERVO section of an instance (R641): SBPW counts in the 3,600 rpm instance only. -/
def servoOk (inst len : Nat) (v : ServoSec) : Bool :=
  (inst != 0 || (decide (1600 ≤ v.sbpw) && decide (v.sbpw ≤ 4000))) && decide (v.ceil.length = 3) && decide (v.limit.length = 3) && decide (v.unloadTrack < 2 ^ 22) &&
  decide (1 ≤ v.load.length) && decide (v.load.length ≤ 64) && decide (1 ≤ v.blocks.length) && decide (v.blocks.length ≤ 256) &&
  v.blocks.all (fun b => decide (b.1 < 4096) && decide (b.1 + b.2.1 ≤ 4096) && decide (b.2.2 < 64)) && blocksApart v.blocks &&
  decide (v.words.length = 4096) && decide (v.program.length = 1024) && len == 64 + 4 * v.load.length + 4 * v.blocks.length + 16384 + 8192

/-- The SPINDLE section (R638). -/
def spindleOk (len : Nat) (p : SpindleSec) : Bool :=
  decide (1 ≤ p.poles) && decide (p.poles ≤ 16) && decide (1 ≤ p.profile.length) && decide (p.profile.length ≤ 256) &&
  decide (p.advance.length = 4) && decide (p.gains.length = 4) && len == 56 + 4 * p.profile.length

/-- The BANDS section (R642). -/
def bandsOk (len : Nat) (b : BandsSec) : Bool :=
  decide (b.code ≤ 2) && decide (1 ≤ b.mcFraction) && decide (b.mcFraction ≤ 15) && decide (1 ≤ b.nbands) && decide (b.nbands ≤ 1048576) &&
  decide (1 ≤ b.runs.length) && decide (b.runs.length ≤ 8192) && decide (b.sectPool.length = 4) &&
  b.runs.all (fun r => decide (r.kind ≤ 6) && decide (r.actuator ≤ 3) && decide (r.head ≤ 7)) && len == 32 + 24 * b.runs.length

/-- The identification word at address 0xFFF (R223). -/
def storeIdOk (w : BitVec 176) : Bool := w.extractLsb' 160 16 == 0x5553 && w.extractLsb' 0 128 == 0

/-- A section's length, counts and reserved fields agree with its layout (R636). -/
def layoutOk (img : Image) (d : DirEntry) : Bool :=
  d.reservedOk &&
  match d.body with
  | .lanes l => decide (l.length = 4) && d.length == 128
  | .readers r => readersOk img d.inst d.length r
  | .zones z => zonesOk img d.inst d.length z
  | .ustore w => decide (w.length = 4096) && storeIdOk (w.getD 4095 0) && d.length == 90112
  | .sram _ _ _ => d.length == 16
  | .dram _ _ => d.length == 8
  | .host h => d.length == 128 && decide (h.mn.length = 40)
  | .balls _ _ => d.length == 4
  | .pair r p _ _ => d.length == 8 && (r != 0 || p == 0)
  | .bandwidth _ _ _ => d.length == 16
  | .presets l => decide (1 ≤ l.length) && decide (l.length ≤ 4096) && d.length == 8 * l.length
  | .servo v => servoOk d.inst d.length v
  | .spindle p => spindleOk d.length p
  | .bands b => bandsOk d.length b
  | .unknown _ => true

/-! ### The admission checks (R49) -/

/-- A failed check: its code and the directory index of the section concerned, 0xFF for the header and the signature (R58). -/
abbrev Failed := Option (Nat × Nat)

/-- A check on entries: the first offending one. -/
def onEntries (code : Nat) (img : Image) (bad : DirEntry → Bool) : Failed := (firstWhere img bad).map (fun i => (code, i))

/-- A check on one section: fails with that section's index. -/
def onSection (code t : Nat) (img : Image) (good : Bool) : Failed := if good then none else some (code, indexOfType img t)

/-- The header's part of check 0x0003 that is made before anything else is read (R57 step 1). -/
def headerSane (img : Image) : Bool := decide (img.length ≤ 4194304) && img.sigOffset + 128 == img.length

/-- Directory entries that overlap an earlier one (R46). -/
def overlapsEarlier (img : Image) (k : Nat) : Bool :=
  match img.dir[k]? with
  | some d => (img.dir.take k).any (fun e => decide (e.offset < d.offset + d.length) && decide (d.offset < e.offset + e.length))
  | none => false

/-- Check 0x0003: header, directory and layouts (R45, R46, R636). -/
def check3 (img : Image) : Failed :=
  let n := img.sections
  if !(headerSane img && img.magic == 0x49534852 && img.format == 1 && img.reservedOk && decide (1 ≤ n) && decide (n ≤ 64) && img.dirOffset == 128 && img.sigOffset % 64 == 0) then some (3, 0xFF)
  else
    let bad := fun (e : Nat × DirEntry) =>
      let d := e.2
      d.flags &&& 0xFE != 0 || d.offset % 64 != 0 || decide (d.offset < 128 + 64 * n) || decide (img.sigOffset < d.offset + d.length) || overlapsEarlier img e.1 || !layoutOk img d
    ((indexed img).find? bad).map (fun e => (3, e.1))

/-- An entry stands at an instance that R48 excludes. -/
def instanceBad (img : Image) (d : DirEntry) : Bool :=
  match d.body with
  | .readers _ => decide (3 < d.inst) || !lanePresentIn img d.inst
  | .ustore _ => decide (3 < d.inst) || !lanePresentIn img d.inst
  | .zones _ => decide (3 < d.inst) || !declaredIn img d.inst
  | .servo _ => decide (3 < d.inst) || !declaredIn img d.inst
  | .unknown _ => false
  | _ => d.inst != 0

/-- An entry repeats a type and instance already listed. -/
def repeats (img : Image) (k : Nat) (d : DirEntry) : Bool :=
  knownType (sectionType d.body) && (img.dir.take k).any (fun e => sectionType e.body == sectionType d.body && e.inst == d.inst)

/-- The types and instances that the image must carry (R48). -/
def requiredSections (img : Image) : List (Nat × Nat) :=
  ([1, 5, 6, 7, 8, 9, 0xA, 0xD, 0xE] : List Nat).map (fun t => (t, 0)) ++
  (([0, 1, 2, 3] : List Nat).filter (lanePresentIn img)).flatMap (fun l => [(2, l), (4, l)]) ++
  (([0, 1, 2, 3] : List Nat).filter (declaredIn img)).flatMap (fun c => [(3, c), (0xC, c)])

/-- Check 0x0006: completeness (R48). -/
def check6 (img : Image) : Failed :=
  match (indexed img).find? (fun e => instanceBad img e.2 || repeats img e.1 e.2) with
  | some e => some (6, e.1)
  | none => if (requiredSections img).all (fun r => img.dir.any (fun d => sectionType d.body == r.1 && d.inst == r.2)) then none else some (6, 0xFF)

/-- Check 0x0007: the role with the strap, the ports and the lanes (R51). -/
def check7 (pairStrap : Bool) (img : Image) : Failed :=
  let role := (imgPair img).1
  let ports := match imgHost img with | some h => h.ports | none => 0
  let l := imgLanes img
  onSection 7 9 img
    (if role = 0 then decide (ports ≤ 2)
     else decide (role ≤ 2) && pairStrap == (role == 2) && ports == 0 && l.all (fun r => r.present) && (l.filter (fun r => r.home)).length == 2)

/-- No two of a list are equal. -/
def apart : List Nat → Bool
  | [] => true
  | x :: t => !t.contains x && apart t

/-- Check 0x0008: the lane wiring (R50). -/
def check8 (img : Image) : Failed :=
  let l := (imgLanes img).filter (fun r => r.present)
  onSection 8 1 img
    (!l.isEmpty && l.all (fun r => decide (r.actuator ≤ 3) && decide (r.preampPort ≤ 3) && decide (r.motionCh ≤ 3) && decide (1 ≤ r.heads) && decide (r.heads ≤ 8) && decide (r.headEn.toNat < 2 ^ r.heads)) &&
     apart (l.map (fun r => r.actuator)) && apart (l.map (fun r => r.preampPort)) && apart (l.map (fun r => r.motionCh)) &&
     decide ((l.map (fun r => r.heads)).sum ≤ 24) && ((imgPair img).1 != 0 || l.all (fun r => r.home)))

/-- Check 0x0009: the SRAM partition (R53). -/
def check9 (img : Image) : Failed :=
  match imgFind img (fun d => match d.body with | .sram q b _ => some (q, b) | _ => none) with
  | some (q, b) => onSection 9 5 img (decide (4 ≤ q) && decide (q ≤ 6) && decide (1 ≤ b) && decide (b ≤ 4) && decide (q + b ≤ 10))
  | none => none

/-- Configured DRAM channels. -/
def channelsIn (img : Image) : Nat := match imgDram img with | some (a, b) => b2n a.configured + b2n b.configured | none => 0

/-- The journal, mirror and host reservations in MB/s. -/
def declaredResv (img : Image) : Nat × Nat × Nat := (imgFind img (fun d => match d.body with | .bandwidth j m h => some (j, m, h) | _ => none)).getD (0, 0, 0)

/-- The highest declared cadence, by its code. -/
def topDeclared (img : Image) : Nat := ((([0, 1, 2, 3] : List Nat).filter (declaredIn img)).getLast?).getD 0

/-- The reservation sum S in bytes per second (R56), exact: a lane's twofold media rate is BPW_max × 12 × c_max ÷ 4. -/
def reservationSum (img : Image) : Nat :=
  let bpw := match imgZones img 0 with | some z => (z.fmts.map (fun f => f.bpw)).foldl max 0 | none => 0
  let (j, m, h) := declaredResv img
  3360000000 * channelsIn img + ((imgLanes img).filter (fun r => r.present)).length * (bpw * 3 * (3600 + 1200 * topDeclared img)) + (j + m + h) * 1000000

/-- The limit in bytes per second (R56): 80 % of 22.4 GB/s for each configured channel. -/
def reservationLimit (img : Image) : Nat := 17920000000 * channelsIn img

/-- Check 0x000A: the bandwidth reservation (R56). -/
def checkA (img : Image) : Failed :=
  onSection 0xA 0xA img (decide (reservationSum img ≤ reservationLimit img) && ((imgPair img).1 != 0 || (declaredResv img).2.1 == 0))

/-- MXA and MXB codes of the BALLS section. -/
def ballsOf (img : Image) : Nat × Nat := (imgFind img (fun d => match d.body with | .balls a b => some (a, b) | _ => none)).getD (0, 0)

/-- Check 0x000B: the ball selections (R614). -/
def checkB (img : Image) : Failed :=
  let (a, b) := ballsOf img
  onSection 0xB 8 img (decide (a ≤ 1) && decide (b ≤ 1) && !(b == 1 && (imgPair img).1 == 0))

/-- Check 0x000D: the cadence set (R55). -/
def checkD (img : Image) : Failed := onSection 0xD 0xD img (declaredIn img 0 && (declaredIn img 1 || declaredIn img 2 || declaredIn img 3))

/-- Check 0x000E: the media format against boot MRAM's. -/
def checkE (recorded : Option (BitVec 16)) (img : Image) : Failed :=
  onSection 0xE 0xE img (match recorded, imgBands img with | some f, some b => b.format == f | _, _ => true)

/-- Check 0x000F: the host counts (R54). -/
def checkF (img : Image) : Failed :=
  match imgHost img with
  | some h =>
    onSection 0xF 7 img (decide (h.vf0 ≤ 63) && decide (h.vf1 ≤ 63) && (h.ports == 1 || h.vf1 == 0) && decide (1 ≤ h.qpMax) && decide (h.qpMax ≤ 4096) &&
      decide (1 ≤ h.nsMax) && decide (h.nsMax ≤ 1024) && decide (2 ≤ h.mqe) && decide (h.mqe ≤ 65536))
  | none => none

/-- Check 0x0011: every preset addresses a register with an RW or RWL field (R637). Image-owned registers are read-only (R44). -/
def check11 (img : Image) : Failed :=
  onEntries 0x11 img (fun d => match d.body with | .presets l => l.any (fun p => accMask p.1.toNat [.rw, .rwl] == 0) | _ => false)

/-- Checks 0x0003 to 0x0011 except 0x000C, in the order of their codes: the first that fails (R57 step 3, R58). -/
def admission (s : State) (img : Image) : Failed :=
  [check3 img,
   if img.steppings.getLsbD Config.stepping.toNat then none else some (4, 0xFF),
   onEntries 5 img (fun d => !(d.crcOk && d.digestOk)),
   check6 img, check7 (s.on F.GLB_STRAP_PAIR_ID) img, check8 img, check9 img, checkA img, checkB img, checkD img, checkE s.cfg.mediaFormat img, checkF img,
   onEntries 0x10 img (fun d => !knownType (sectionType d.body) && d.flags.getLsbD 0), check11 img].foldl (fun (a b : Failed) => match a with | some x => some x | none => b) none

/-! ### Outcome of a load (R58) -/

/-- A check fails (R58): its code and section, FAIL, IMAGE_FAIL; the chip takes T03. -/
def loadFail (f : Nat × Nat) (s : State) : State :=
  let s := ((s.put F.CFG_LOAD_ERR_CODE f.1).put F.CFG_LOAD_ERR_SECTION f.2).put F.CFG_LOAD_STAT_SECTION f.2
  let s := { (s.put F.CFG_LOAD_STAT_FAIL 1).irq 21 with cfg := { s.cfg with staging := none } }
  (s.cond F.GLB_MODE_COND_IMAGE_FAIL).settle

/-! ### Applying the sections (R57 step 4) -/

/-- The entry of a table put at load (R218, R639, R640). -/
def loadEntry (n : Lane) (c tbl head zone index : Nat) (w : Word) (s : State) : State :=
  putEntry n (tableKey c tbl head zone index) (w &&& tableMask tbl index) s

/-- The presets of a ZONES instance for one lane, head and zone. -/
def applyPreset (c key : Nat) (p : ZonePreset) (s : State) : State :=
  if h : key / 256 < 4 then
    let n : Lane := ⟨key / 256, h⟩
    let head := key / 32 % 8
    let zone := key % 32
    let s := loadEntry n c 2 head zone 0 p.afe (loadEntry n c 0 head zone 0 p.heater s)
    let s := forEach ((List.range p.eq.length).zip p.eq) (fun e s => loadEntry n c 3 head zone e.1 e.2 s) s
    if c = 0 then loadEntry n 0 5 head zone 0 p.precomp (loadEntry n 0 4 head zone 1 p.verify (loadEntry n 0 4 head zone 0 p.write s)) else s
  else s

/-- A READERS instance: the cancellation taps and write table 3 (R640). -/
def applyReaders (n : Lane) (r : ReadersSec) (s : State) : State :=
  let s := forEach ((List.range r.hd.length).zip r.hd) (fun e s => forEach ((List.range e.2.taps.length).zip e.2.taps) (fun t s => loadEntry n 0 6 e.1 0 t.1 t.2 s) s) s
  forEach r.zn (fun e s => loadEntry n 0 7 (e.1 / 32) (e.1 % 32) 0 e.2.wtbl3 s) s

/-- A USTORE instance lands in its store (R223, R225). -/
def applyStore (n : Lane) (words : List (BitVec 176)) (digest : BitVec 384) (s : State) : State :=
  let m : SMap (BitVec 176) := ((List.range words.length).zip words).filter (fun e => e.2 != 0)
  let s := s.onMs n (fun x => { x with store := m })
  let s := (s.setReg (R.MSn_UCODE_VER n) ((words.getD 4095 0).extractLsb' 128 32)).setReg (R.MSn_UCODE_DIG n) (BitVec.ofNat 32 (unle ((le 48 digest.toNat).reverse.take 4)))
  (s.put (F.MSn_STAT_STATE n) Seq.halted).put (F.MSn_STAT_PC n) 0

/-- The servo limits of the 3,600 rpm instance (R641, R181). -/
def applyServo (n : Lane) (v : ServoSec) (s : State) : State :=
  let c := fun i => v.ceil.getD i 0
  let l := fun i => storeLimit (c i) (v.limit.getD i 0)
  let s := ((s.put (F.SVn_PACE_VMAX_CEIL n) (c 0)).put (F.SVn_PACE_AMAX_CEIL n) (c 1)).put (F.SVn_PACE_JMAX_CEIL n) (c 2)
  ((s.put (F.SVn_PACE_VMAX_VMAX n) (l 0)).put (F.SVn_PACE_AMAX_AMAX n) (l 1)).put (F.SVn_PACE_JMAX_JMAX n) (l 2)

/-- The enables that the LANES section decides: the heads' (R77), and those of actuators that the image does not declare, which read 0 (SVn_CTL). -/
def laneEnables (n : Lane) (r : LaneRec) (s : State) : State :=
  ((s.put (F.LNn_HEAD_EN_EN n) r.headEn.toNat).put (F.SVn_CTL_MILLI_EN n) (min (b2n r.milli) (s.get (F.SVn_CTL_MILLI_EN n)))).put (F.SVn_CTL_MICRO_EN n)
    (min (b2n r.micro) (s.get (F.SVn_CTL_MICRO_EN n)))

/-- One section applied to its block. -/
def applySection (img : Image) (d : DirEntry) (s : State) : State :=
  let lane := fun (f : Lane → State → State) (s : State) => if h : d.inst < 4 then f ⟨d.inst, h⟩ s else s
  match d.body with
  | .lanes l =>
    let byte := fun (r : LaneRec) => b2n r.present * 128 + b2n r.home * 64 + r.actuator % 4 * 16 + r.preampPort % 4 * 4 + r.motionCh % 4
    let at_ := fun k => match l[k]? with | some r => if r.present then byte r else 0 | none => 0
    let s := s.setReg R.CFG_LANE_MAP (BitVec.ofNat 32 (at_ 0 + 256 * at_ 1 + 65536 * at_ 2 + 16777216 * at_ 3))
    forEach lanes (fun n s => match l[n.val]? with | some r => if r.present then laneEnables n r s else s | none => s) s
  | .readers r => lane (fun n => applyReaders n r) s
  | .zones z => forEach z.presets (fun p s => applyPreset d.inst p.1 p.2 s) s
  | .ustore w => lane (fun n => applyStore n w d.digest) s
  | .sram q b m =>
    let s := ((s.put F.CFG_SRAM_PART_QE_WAYS q).put F.CFG_SRAM_PART_BND_WAYS b).put F.CFG_SRAM_PART_CACHE_WAYS (16 - q - b)
    (s.put F.SCC_WAY_EN_EN 0xFFFF).setPair R.DMA_MODE_LO R.DMA_MODE_HI m
  | .dram _ _ => s
  | .host h =>
    let s := ((s.put F.CFG_ROLE_PORTS h.ports).put F.CFG_ROLE_VF0 h.vf0).put F.CFG_ROLE_VF1 h.vf1
    (s.put F.CFG_COUNTS_QP_MAX h.qpMax).put F.CFG_COUNTS_NS_MAX h.nsMax
  | .balls a b => ((s.put F.GLB_BALL_SEL_MXA a).put F.GLB_BALL_SEL_MXB b).put F.GLB_BALL_SEL_APPLIED 1
  | .pair r p lo hi =>
    let s := (s.put F.CFG_ROLE_ROLE r).put F.CFG_MEDIA_FMT_PAIR_SET p.toNat
    if r = 0 then s else s.put F.BAT_HB_CFG_PERIOD (max lo (min hi (s.get F.BAT_HB_CFG_PERIOD)))
  | .bandwidth _ _ _ =>
    (s.put F.CFG_BW_RESV_RESV ((reservationSum img + 9999999) / 10000000)).put F.CFG_BW_RESV_LIMIT (reservationLimit img / 10000000)
  | .presets _ => s
  | .servo v => if d.inst = 0 then forEach (lanes.filter (fun (n : Lane) => lanePresentIn img n)) (fun n s => applyServo n v s) s else s
  | .spindle p =>
    let top := topDeclared img
    let s := ((s.put F.CFG_ROLE_CADENCES p.cadences.toNat).put F.SPM_KE_KE_IMG p.keImg).put F.SPM_CAD_REQ_CAD top
    let s := (s.put F.SPM_START_CFG_ILIM (min (s.get F.SPM_START_CFG_ILIM) p.ilimCeil)).put F.SPM_CAD_CFG_RATE (min (s.get F.SPM_CAD_CFG_RATE) p.rateCeil)
    let s := s.onSpm (fun m => { m with goal := top })
    forEach (lanes.filter (fun (n : Lane) => lanePresentIn img n)) (fun n s => s.put (F.SVn_STAT_CAD_SET n) top) s
  | .bands b => s.put F.CFG_MEDIA_FMT_FORMAT b.format.toNat
  | .unknown _ => s

/-- Every section applied (R57 step 4). -/
def applyImage (img : Image) (s : State) : State :=
  let s := forEach img.dir (applySection img) s
  { s with cfg := { s.cfg with image := some img } }

/-- The load is complete (R57 step 6): DONE, and the header's IMAGE_VER and BUILD_ID, which read zero until then (R45, R62). -/
def loadDone (img : Image) (s : State) : State :=
  let s := (s.setReg R.CFG_IMAGE_VER img.imageVer).setPair R.CFG_BUILD_LO R.CFG_BUILD_HI img.buildId
  (s.put F.CFG_LOAD_STAT_DONE 1).put F.CFG_LOAD_STAT_SECTION (img.dir.length - 1)

/-- The presets written in image order, each as one register-network write (R57 step 5, R637). -/
def applyPresets (img : Image) (s : State) : State :=
  let l := (imgFind img (fun d => match d.body with | .presets l => some l | _ => none)).getD []
  forEach l (fun p s => registerWriteNow (.core 0) p.1.toNat p.2 ⟨0, 0, 0⟩ s) s

/-- TRC compares the image's digest with TYPE 3's and each store's directory digest with its TYPE 4's (R537 step 5). -/
def manifestDigests (s : State) (img : Image) : Bool :=
  match bankManifest s (bootState s).active with
  | none => false
  | some m =>
    let role := bootRole s m
    (match component m role 3 0 with | some c => c.digest == img.digest | none => false) &&
    img.dir.all (fun d => match d.body with | .ustore _ => (match component m role 4 d.inst with | some c => c.digest == d.digest | none => false) | _ => true)

/-! ### Rows of the loader -/

/-- The image's bytes in flash from an offset, as many as its header's LENGTH says, its header at least. -/
def imageBytes (s : State) (off : Nat) : List Byte := flashRead s off (max 128 (min 4194304 (fieldAt (flashRead s off 128) 8 4)))

/-- The image of a load that stands at a phase, in CONFIGURE (R63). -/
def loading (s : State) (phase : Nat) : Option Image :=
  if s.mode = Mode.configure ∧ s.get F.CFG_LOAD_STAT_PHASE = phase then s.cfg.staging else none

/-- IMAGE_LOAD_START (R57 step 1): the header first; an unusable LENGTH or SIG_OFFSET refuses at once. -/
def execImageLoadStart (s : State) : Host.Outcome State Fault Refusal :=
  match s.cfg.handed with
  | none => .next s
  | some off =>
    if s.mode ≠ Mode.configure ∨ s.get F.CFG_LOAD_STAT_PHASE ≠ 0 ∨ s.on F.CFG_LOAD_STAT_FAIL then .next s
    else
      let img := readImage (imageBytes s off)
      let s := ({ s with cfg := { s.cfg with handed := none, staging := some img } }).put F.CFG_LOAD_STAT_PHASE 1
      .next (if headerSane img then s else loadFail (3, 0xFF) s)

/-- IMAGE_READ_DONE (R57, check 0x0001): `failedAt` is the first byte that could not be read. -/
def execImageReadDone (failedAt : Option Nat) (s : State) : Host.Outcome State Fault Refusal :=
  match loading s 1 with
  | none => .next s
  | some img =>
    match failedAt.filter (fun b => decide (b < img.length)) with
    | some b => .next (loadFail (1, (firstWhere img (fun d => decide (d.offset ≤ b) && decide (b < d.offset + d.length))).getD 0xFF) s)
    | none => .next (s.put F.CFG_LOAD_STAT_PHASE 2)

/-- The image's signature under the key that KEY_ID names, which must be of structure-image use (R47, R529); a block whose zero bytes are not zero is no
signature. -/
def imageSigned (s : State) (img : Image) : Bool :=
  img.sigZero && keyAllows s img.keyId 2 && signatureGood s img.keyId img.digest img.sigR img.sigS

/-- Steps 2 to 6 (R57, R58): the manifest's digests, the signature, the admission checks; then the sections, the stores (each digest compared again:
`badStore` is one that differs), the presets, DONE. -/
def judgeImage (badStore : Option Lane) (img : Image) (s : State) : State :=
  if !manifestDigests s img then loadFail (2, 0xFF) (s.flag F.TRC_FLT_DIGEST)
  else if !imageSigned s img then loadFail (2, 0xFF) s
  else
    let s := s.put F.CFG_LOAD_STAT_PHASE 4
    match admission s img with
    | some f => loadFail f s
    | none =>
      let s := (applyImage img (s.put F.CFG_LOAD_STAT_PHASE 5)).put F.CFG_LOAD_STAT_PHASE 6
      match badStore.bind (fun n => firstWhere img (fun d => match d.body with | .ustore _ => d.inst == n.val | _ => false)) with
      | some k => loadFail (5, k) s
      | none =>
        let s := ((loadDone img (applyPresets img s)).put F.CFG_LOAD_STAT_PHASE 8).irq 21
        ({ s with cfg := { s.cfg with staging := none } }).settle

/-- SIGNATURE_VERIFIED (R47, R57 steps 2 to 6). -/
def execSignatureVerified (badStore : Option Lane) (s : State) : Host.Outcome State Fault Refusal :=
  match loading s 2 with
  | none => .next s
  | some img => .next (judgeImage badStore img s)

/-! ### DRAM start-up (R405, R415, R416) -/

/-- A geometry of the table of R405. -/
def geometryOk (d : DramRec) : Bool :=
  (d.width == 4 && d.density == 8 && d.ranks == 1) || (d.width == 8 && d.density == 8 && (d.ranks == 1 || d.ranks == 2)) || (d.width == 8 && d.density == 16 && d.ranks == 1)

/-- A channel's record of the image. -/
def channelRec (s : State) (ch : Nat) : Option DramRec := (dramSec s).map (fun p => if ch = 0 then p.1 else p.2)

/-- The channel becomes present (R416), with the mark that boot MRAM records (R410). -/
def channelPresent (ch : Fin 2) (s : State) : State :=
  let s := (s.put (F.DMCn_STAT_ST_OK ch) 1).setReg R.GLB_UNIT_OK0 (s.reg R.GLB_UNIT_OK0 ||| (1#32 <<< (8 + ch.val)))
  let s := match s.buf.marks.get ch with | some j => (s.put (F.DMCn_ECC_STAT_MARK_SYM ch) j).put (F.DMCn_ECC_STAT_MARKED ch) 1 | none => s
  (showPages s).settle

/-- The bursts of the first cases of the self-test written to the channel's highest line (R415). -/
def selfTest (ch cases : Nat) (s : State) : State :=
  forEach (List.range cases) (fun i s => s.emit (.dram ch (chPages s ch * 1024 - 1) (selfTestBurst (i + 1)))) s

/-- DRAM_TRAINING_DONE (R405, R415, R58): check 0x000C on what training found and on channel 0's being configured, then the self-test: `read` holds the
bursts that its cases read back from the channel's highest line. A failed case stops the test. -/
def execDramTrainingDone (channel : Fin 2) (found : DramRec) (trained binOk : Bool) (read : List (Vector (BitVec 64) 10)) (s : State) : Host.Outcome State Fault Refusal :=
  let ch := channel.val
  match channelRec s ch with
  | none => .next s
  | some r =>
    if !s.on F.CFG_LOAD_STAT_DONE || s.on (F.DMCn_STAT_TRAINED ch) || s.glb.lost0.getLsbD (8 + ch) then .next s
    else if ch = 0 ∧ !r.configured then .next (loadFail (0xC, match s.cfg.image with | some i => indexOfType i 6 | none => 0xFF) s)
    else if !r.configured then .next s
    else if !trained then .next (s.loseUnit0 (8 + ch))
    else
      let s := s.put (F.DMCn_STAT_TRAINED ch) 1
      if !(geometryOk r && binOk && found == r) then .next (loadFail (0xC, match s.cfg.image with | some i => indexOfType i 6 | none => 0xFF) s)
      else
        let failed := selfTestFailure read
        let s := selfTest ch (if failed = 0 then 14 else failed) s
        if failed ≠ 0 then .next ((s.put (F.DMCn_STAT_ST_FAIL ch) failed).loseUnit0 (8 + ch)) else .next (channelPresent channel s)

/-- DRAM_INIT_CHUNK (R416): 64 KiB of zeros more with valid check bits, and INIT_DONE at the channel's end. The 1,024
lines' bursts are not listed among the outputs (log 42). -/
def execDramInitChunk (channel : Fin 2) (s : State) : Host.Outcome State Fault Refusal :=
  let ch := channel.val
  if !chPresent s ch || s.on (F.DMCn_STAT_INIT_DONE ch) then .next s
  else
    let p := s.get (F.DMCn_INIT_PTR_PAGES ch) + 1
    let s := zeroPage (lineGl s ch (1024 * (p - 1)) / 1024) s
    let s := s.put (F.DMCn_INIT_PTR_PAGES ch) p
    .next (if chPages s ch ≤ p then s.put (F.DMCn_STAT_INIT_DONE ch) 1 else s)

end Sys2Proof.Machine
end

