-- ==== Sys2Proof/Machine/PowerRows.lean ====
section
/-! DEFINITION. The rows of the power and cadence manager (20_power_and_cadence.md): idle timers and lookahead (R511), the wake before a known
event (R513), the rotation of lanes (R506), the cadence windows (R516), the temperature (R517) and the rails (R518). -/

namespace Sys2Proof.Machine

/-- IDLE_T of a non-operational state in ring-time units (R511, PWR_IDLE_T0 and PWR_IDLE_T1); none where 0 disables it. -/
def idleTime (s : State) (k : Nat) : Option Nat :=
  match k with
  | 3 => some (max 1 (s.get F.PWR_IDLE_T0_T3) * 100000)
  | 4 => some (s.get F.PWR_IDLE_T0_T4 * 10 ^ 8)
  | 5 => let t := s.get F.PWR_IDLE_T1_T5; if t = 0 then none else some (t * 10 ^ 8)
  | _ => let t := s.get F.PWR_IDLE_T1_T6; if t = 0 then none else some (t * 10 ^ 8)

/-- The idle timers and the lookahead allow a state (R511). -/
def idleAdmits (s : State) (since k : Nat) : Bool :=
  let timer := match idleTime s k with | some t => decide (since + t ≤ s.now.toNat) | none => false
  let look := !s.on F.PWR_CTL_LOOK_EN || (match nextEvent s with | some (_, ms) => decide (enLat s k + exLat s k ≤ ms) | none => true)
  decide (s.ps ≤ k) && timer && look

/-- A wake for a known event ends when the event comes, late where lanes do not serve yet, or when it is withdrawn (R513). -/
def wakeEnds (s : State) : State :=
  match s.pwr.wakeFor with
  | none => s
  | some t =>
    if t ≤ s.now.toNat then
      let s := s.onPwr (fun p => { p with wakeFor := none })
      if Mode.isIdle s.mode || s.mode == Mode.spinup || !allOwned s (fun n => motionState s n == Mo.follow) then (s.flag F.PWR_FLT_LATE_WAKE).count F.PWR_CNT_LATE_WAKE else s
    else if (knownEvents s).any (fun e => e.2 == t) then s
    else s.onPwr (fun p => { p with wakeFor := none, idleAt := if p.idleAt.isSome then some s.now.toNat else none })

/-- IDLE_TICK (R511): the deepest state that the timers and the lookahead allow is applied. -/
def execIdleTick (s : State) : Host.Outcome State Fault Refusal :=
  let s := wakeEnds (showNextEvent s)
  match s.pwr.idleAt with
  | none => .next s.settle
  | some since =>
    if !s.on F.PWR_CTL_IDLE_EN || s.pwr.wakeFor.isSome || !powerMode s.mode || working s then .next s.settle
    else
      match ([6, 5, 4, 3] : List Nat).find? (idleAdmits s since) with
      | some k => .next (applyState k s).settle
      | none => .next s.settle

/-- PRE_WAKE (R513): the earliest known event is EXLAT of the applied state away, and HOST_OP is applied. -/
def execPreWake (s : State) : Host.Outcome State Fault Refusal :=
  let s := showNextEvent s
  if !s.on F.PWR_CTL_LOOK_EN || s.ps < 3 || s.pwr.wakeFor.isSome || !powerMode s.mode then .next s
  else
    match bestBy (fun (x y : Nat × Nat) => decide (x.2 < y.2)) ((knownEvents s).filter (fun e => decide (s.now.toNat < e.2))) with
    | some (_, t) =>
      if t ≤ s.now.toNat + exLat s s.ps * 100000 then .next (applyState (hostOp s) (s.onPwr (fun p => { p with wakeFor := some t }))).settle
      else .next s
    | none => .next s

/-- LANE_ROTATION (R506). -/
def execLaneRotation (s : State) : Host.Outcome State Fault Refusal :=
  .next (if laneLimit s < (servableLanes s).length then rotateLanes s else showPwr s)

/-- CADENCE_WINDOW (R515, R516). -/
def execCadenceWindow (s : State) : Host.Outcome State Fault Refusal := .next (decideCadence s).settle

/-- The thermal reactions at a sample (R517): WARN, CRIT and OVERTEMP with their 5 °C of hysteresis, and TRIP. -/
def thermal (tj : Int) (s : State) : State :=
  let warn : Int := s.get F.PWR_TEMP_CFG_WARN
  let crit : Int := s.get F.PWR_TEMP_CFG_CRIT
  let hot := s.on F.MOT_STAT_OVERTEMP
  let s := if warn ≤ tj then (s.flag F.PWR_FLT_WARN).onPwr (fun p => { p with warm := true })
    else if tj ≤ warn - 5 then s.onPwr (fun p => { p with warm := false }) else s
  let s := if crit ≤ tj then s.flag F.PWR_FLT_CRIT else s
  let s := if hot then s.flag F.PWR_FLT_OVERTEMP else s
  let stays := s.get F.PWR_STAT_THERM == 2 && !(decide (tj ≤ crit - 5) && !hot)
  let level := if crit ≤ tj || hot || stays then 2 else if s.pwr.warm then 1 else 0
  let s := s.put F.PWR_STAT_THERM level
  if (s.get F.PWR_TEMP_CFG_TRIP : Int) ≤ tj then (s.flag F.PWR_FLT_TRIP).cond F.GLB_MODE_COND_SERVICE_HOLD else s

/-- TEMPERATURE_SAMPLE (R517): TJ and its maximum shown, the reactions taken, the lane limit following the cap (R506). -/
def execTemperatureSample (tj : BitVec 8) (s : State) : Host.Outcome State Fault Refusal :=
  let s := s.put F.PWR_TEMP_TJ tj.toNat
  let s := if signed 8 (s.get F.PWR_TEMP_TJ_MAX) < tj.toInt then s.put F.PWR_TEMP_TJ_MAX tj.toNat else s
  .next (showPwr (thermal tj.toInt s)).settle

/-- RAIL_LOW (R518): the flag, and the power-loss sequence (T16). -/
def execRailLow (s : State) : Host.Outcome State Fault Refusal := .next (powerFail 2 .made (s.flag F.PWR_FLT_RAIL_LOW))

end Sys2Proof.Machine
end

