-- ==== Sys2Proof/Machine/RelayRows.lean ====
section
/-! DEFINITION. The rows of the Relay scheduler (12_relay_scheduler.md, R302 to R322), the quota windows of R398 and the grants of the buffer's
arbiter that move lane data (R428, R110, R130). -/

namespace Sys2Proof.Machine

/-- What asks for a place in the pool (R302, R303). -/
def arriveFrom (src : ItemSource) (s : State) : State :=
  match src with
  | .waiting => arriveWaiting s
  | .destage lba count => destage lba count s
  | .rewrite band => match s.bnd.rewrites.find? (fun r => r.new == band) with | some r => rewriteNext r s | none => s
  | .calibrate n head => request (calRequest n head) s

/-- WORK_ITEM_ARRIVAL (R302, R303, R311, R318). -/
def execWorkItemArrival (src : ItemSource) (s : State) : Host.Outcome State Fault Refusal := .next (arriveFrom src s).settle

/-- RELAY_DECISION (R306 to R310, R313): the engine's status reports are taken (R30, log 26), what has ended leaves the actuator, then the next item
is chosen and dispatched. -/
def execRelayDecision (a : Lane) (s : State) : Host.Outcome State Fault Refusal :=
  .next (decide_ a (gatherOutcomes (s.onSv (laneOf s a) (fun v => { v with status := [] })))).settle

/-- SLIP (R315). -/
def execSlip (n : Lane) (s : State) : Host.Outcome State Fault Refusal := .next (onEvent n Ev.slip (fun w5 w6 s => requeueSlip (actOf s n) w5 w6 s) s)

/-- OFFSET_REQ (R315). -/
def execOffsetReq (n : Lane) (s : State) : Host.Outcome State Fault Refusal :=
  .next (onEvent n Ev.offsetReq (fun w5 _ s => offsetTarget (actOf s n) (BitVec.ofNat 16 w5) s) s)

/-- TRACK_DONE (R315, R313): the item's track ends and the next one is sent; the item ends when every sector has an outcome. -/
def execTrackDone (n : Lane) (s : State) : Host.Outcome State Fault Refusal :=
  .next (afterOutcomes (onEvent n Ev.done (fun _ _ s => trackDone (actOf s n) s) s))

/-- LADDER (R315): the ladder's work is reported sector by sector (R123), and its revolutions stay in the item's charge (R320). -/
def execLadder (n : Lane) (s : State) : Host.Outcome State Fault Refusal := .next (onEvent n Ev.ladder (fun _ _ s => s) s)

/-- REWRITE (R315, R294). -/
def execRewrite (n : Lane) (s : State) : Host.Outcome State Fault Refusal :=
  .next (onEvent n Ev.rewrite (fun w5 w6 s => passReport .rewrite (actOf s n) (fun r => r.track == w5 && r.index == w6) s) s)

/-- RELOCATE (R315, R144, R294). -/
def execRelocate (n : Lane) (s : State) : Host.Outcome State Fault Refusal :=
  .next (onEvent n Ev.relocate (fun w5 w6 s => passRelocate (actOf s n) w5 w6 s) s)

/-- A squelch reaches BND, whose neighbouring tracks may be disturbed (R150, R279). -/
def passSquelch (n : Lane) (s : State) : State :=
  match firstReport s .disturbed (actOf s n) (fun _ => true) with
  | some r => disturbTrack r.lane r.head r.track { s with reports := s.reports.erase r }
  | none => s

/-- SQUELCH (R315, R150). -/
def execSquelch (n : Lane) (s : State) : Host.Outcome State Fault Refusal := .next (onEvent n Ev.squelch (fun _ _ s => passSquelch n s) s)

/-- VFY_MISS (R315): BND is told; the rewrite itself is the lane's (R144). -/
def execVfyMiss (n : Lane) (s : State) : Host.Outcome State Fault Refusal := .next (onEvent n Ev.vfyMiss (fun _ _ s => s) s)

/-- PREAMP_FAULT (R237): the event leaves the FIFO; what the fault ended, R146 has ended. -/
def execPreampFault (n : Lane) (s : State) : Host.Outcome State Fault Refusal := .next (onEvent n Ev.preampFault (fun _ _ s => s) s)

/-- CAL_RANGE (R237, R83): the event leaves the FIFO; the trims were clamped when it was posted. -/
def execCalRange (n : Lane) (s : State) : Host.Outcome State Fault Refusal := .next (onEvent n Ev.calRange (fun _ _ s => s) s)

/-- LANE_LOST (R315): the items of a lost lane's actuator end. -/
def execLaneLost (n : Lane) (s : State) : Host.Outcome State Fault Refusal :=
  .next (if s.glb.lost0.getLsbD (12 + n) then (laneLostItems (actOf s n) s).settle else s)

/-- QUOTA_WINDOW (R398, R400). -/
def execQuotaWindow (s : State) : Host.Outcome State Fault Refusal := .next (quotaWindow s)

/-- ARBITER_GRANT (R428): one request is granted and charged; a granted lane media stream moves its data (R110, R130), and one
whose request another class's grant passes over may come too late (R429). -/
def execArbiterGrant (ch : Fin 2) (requests : List (Nat × Nat)) (move : Option LaneMove) (s : State) : Host.Outcome State Fault Refusal :=
  match grantClass s ch requests with
  | none => .next s
  | some c =>
    let s := chargeGrant ch c requests s
    match move with
    | some m => .next (if c.val = 1 then afterOutcomes (laneMove m s) else if requests.any (fun r => r.1 == 2) then afterOutcomes (laneLate m s) else s)
    | none => .next s

end Sys2Proof.Machine
end

