-- ==== Sys2Proof/Machine/ResetRows.lean ====
section
/-! DEFINITION. The rows of the register network (25_register_index.md, R10, R12, R16, R587; 21_trust_boot_update.md, R547), and of the resets and
units (01_planes_and_fabric.md, R41, R42; 23_startup_reset_faults.md, R590 to R603). -/

namespace Sys2Proof.Machine

/-! ### Register accesses -/

/-- No event of hardware in the same handshake. -/
def noEdit : HwEdit := ⟨0, 0, 0⟩

/-- REGISTER_WRITE (R9 to R11, R13, R14). -/
def execRegisterWrite (who : Req) (size addr : Nat) (data : Word) (hw : HwEdit) (s : State) : Host.Outcome State Fault Refusal :=
  .next (busWrite who size addr data hw s)

/-- PAIR_LO_READ (R16): the value, and the _HI half latched. -/
def execPairLoRead (who : Req) (addr : Nat) (s : State) : Host.Outcome State Fault Refusal := .next (busRead who 4 addr 0 s)

/-- PAIR_HI_WRITE (R16): held without taking effect. -/
def execPairHiWrite (who : Req) (addr : Nat) (data : Word) (s : State) : Host.Outcome State Fault Refusal := .next (busWrite who 4 addr data noEdit s)

/-- PAIR_LO_WRITE (R16): the 64-bit value commits. -/
def execPairLoWrite (who : Req) (addr : Nat) (data : Word) (s : State) : Host.Outcome State Fault Refusal := .next (busWrite who 4 addr data noEdit s)

/-- COUNTER_READ_CLEAR (R10, R12): the value returned and cleared, an event of the same handshake left for the next read. -/
def execCounterReadClear (who : Req) (addr : Nat) (event : Word) (s : State) : Host.Outcome State Fault Refusal := .next (busRead who 4 addr event s)

/-- RECEIVE_WORD_POP (R549, R589). -/
def execReceiveWordPop (port : RxPort) (s : State) : Host.Outcome State Fault Refusal :=
  .next (busRead (.core 0) 4 (match port with | .svc => R.SVC_RX_DATA | .moc => R.MOC_RX_DATA) 0 s)

/-- INDEX_PORT_READ (R587, R230, R170). -/
def execIndexPortRead (port : IndexPort) (s : State) : Host.Outcome State Fault Refusal :=
  .next (busRead (.core 0) 4 (match port with | .evrRd => R.EVR_RD_DATA | .evrStd => R.EVR_STD_DATA | .msStore n => R.MSn_US_DATA n | .svCoef n => R.SVn_COEF_DATA n) 0 s)

/-- A configuration reset is held (R592 step 5, R633): every SVn is quiet, so that GLB goes on to the note and the hold (log 7). -/
def resetIsHeld (s : State) : Bool := s.glb.cfgReset != .none && allQuiet s

/-- A read of the service port performed and answered (R547, R633). -/
def serviceRead (tag : BitVec 16) (a : Nat) (s : State) : State :=
  let (w, s) := registerReadNow a 0 s
  (s.answer (.value w)).reply 0x10 tag Status.ok (le 4 w.toNat)

/-- A write of the service port performed and answered (R547). -/
def serviceWrite (tag : BitVec 16) (a : Nat) (data : Word) (s : State) : State := ((registerWriteNow .service a data noEdit s).answer .done).reply 0x11 tag Status.ok

/-- REG_READ (R547, R633): SERVICE; ADDRESS where no register lies, STATE while a configuration reset is held. -/
def execRegRead (tag : BitVec 16) (addr : BitVec 32) (s : State) : Host.Outcome State Fault Refusal :=
  let a := addr.toNat
  .next (s.cuhar 1 0x10 tag (fun s =>
    if resetIsHeld s then s.reply 0x10 tag Status.state
    else if !accessOk 4 a then (addressFault .service a s).reply 0x10 tag Status.address
    else if laneBusy s a then s.hold_ .service a none (some tag)
    else serviceRead tag a s))

/-- REG_WRITE (R547, R59, R633). -/
def execRegWrite (tag : BitVec 16) (addr : BitVec 32) (data : Word) (s : State) : Host.Outcome State Fault Refusal :=
  let a := addr.toNat
  .next (s.cuhar 1 0x11 tag (fun s =>
    if resetIsHeld s then s.reply 0x11 tag Status.state
    else if !accessOk 4 a then (addressFault .service a s).reply 0x11 tag Status.address
    else if earlyWrite s a then ((s.flag F.CFG_LOAD_STAT_EARLY_WR).answer .done).reply 0x11 tag Status.ok
    else if laneBusy s a then s.hold_ .service a (some data) (some tag)
    else serviceWrite tag a data s))

/-! ### What resets keep (R591) -/

/-- The registers that lie in the always-on domain or the ring island, or that the table of R591 keeps over a configuration reset. -/
def keptRegister (a : Nat) : Bool :=
  a == R.GLB_STICKY || a == R.GLB_STRAP || a == R.GLB_RST_CAUSE || a == R.GLB_RST_STAT ||
  match locate a with
  | some (.moc, _, _) => true
  | _ => false

/-- What boot MRAM, flash and the MRAM macros keep over every reset, in a state otherwise as after power-on (R591, R594). -/
def overReset (s : State) : State :=
  let r := State.reset
  let r := { r with sent := s.sent, freeN := s.freeN, pending := s.pending }
  let r := { r with glb := { r.glb with note := s.glb.note, tap := s.glb.tap }, cfg := { r.cfg with mediaFormat := s.cfg.mediaFormat } }
  let r := { r with trc := { r.trc with boot0 := s.trc.boot0, boot1 := s.trc.boot1, flash := s.trc.flash, uds := s.trc.uds, rootDigest := s.trc.rootDigest } }
  let r := { r with trc := { r.trc with keyTab := s.trc.keyTab, attest := s.trc.attest, driveSecret := s.trc.driveSecret, certificate := s.trc.certificate } }
  let r := { r with evr := { r.evr with log := s.evr.log, epitaphs := s.evr.epitaphs, header0 := s.evr.header0, header1 := s.evr.header1, failedSlot := s.evr.failedSlot } }
  let r := { r with tly := { r.tly with slot0 := s.tly.slot0, slot1 := s.tly.slot1 }, key := { r.key with recs := s.key.recs } }
  let r := { r with bnd := { r.bnd with attach := s.bnd.attach, patrol := s.bnd.patrol.map (fun (p : Patrol) => { p with queue := [] }), noteRec := s.bnd.noteRec, noteOk := s.bnd.noteOk } }
  { r with buf := { r.buf with lwl := s.buf.lwl, marks := s.buf.marks } }

/-- A power-on reset is asserted (R590, R591): `src` is SOURCE of GLB_RST_CAUSE. -/
def porAssert (src : Nat) (s : State) : State :=
  let r := overReset s
  ({ r with regs := [], glb := { r.glb with porHeld := true } }).put F.GLB_RST_CAUSE_SOURCE src

/-- What a configuration reset keeps beyond that (R591): the always-on and ring registers, ring time, RLY's accounts, TJ_MAX, the shared cache's
totals, and what the trust core retains. -/
def configClears (s : State) : State :=
  let r := overReset s
  let regs := s.regs.filter (fun e => keptRegister e.1)
  let r := { r with regs := regs, shadow := s.shadow.filter (fun e => keptRegister e.1), hold := s.hold.filter (fun e => keptRegister e.1), moc := s.moc }
  let r := { r with rly := { r.rly with acct := s.rly.acct }, ccx := { r.ccx with wayCe := (s.ccx.wayCe.filter (fun (e : Nat × Nat × Nat) => e.2.2 != 0)).map (fun (e : Nat × Nat × Nat) => (e.1, (0, e.2.2))) } }
  let r := { r with trc := { r.trc with derived := s.trc.derived, fuseLocked := s.trc.fuseLocked, trngRefused := s.trc.trngRefused } }
  let r := { r with evr := { r.evr with generation := s.evr.generation } }
  let r := r.put F.PWR_TEMP_TJ_MAX (s.get F.PWR_TEMP_TJ_MAX)
  (r.put F.GLB_RST_CAUSE_LANES 0).put F.GLB_RST_STAT_LANE_BUSY 0

/-- What start-up finds in the lost-write list (R421): BUF_FLT.LWL_CRC where an entry fails its CRC. -/
def lwlRestore (s : State) : State := showLwl (if s.buf.lwl.any (fun e => !e.crcOk) then s.flag F.BUF_FLT_LWL_CRC else s)

/-- The note as a release finds it (R598): PREV_NOTE, NOTE_BAD, one power loss counted where it stands LOST or ARMED; then it is written ARMED. -/
def noteRelease (good : Bool) (s : State) : State :=
  let st : NoteState := if good then s.glb.note.state else .lost
  let s := s.put F.GLB_RST_STAT_PREV_NOTE (noteCode st)
  let s := if good then s else s.flag F.GLB_RST_STAT_NOTE_BAD
  let s := if st = .lost ∨ st = .armed then s.tally 3 else s
  writeNote .armed 0 true s

/-- Each lane resumes its patrol from its upkeep record; where the record's CRC fails a new pass begins from band 0 (R293). -/
def upkeepRestore (good : BitVec 4) (s : State) : State :=
  s.onBnd (fun b => { b with patrol := Vector.ofFn (fun (n : Lane) => if good.getLsbD n then b.patrol.get n else Patrol.reset) })

/-! ### Rows of the chip's resets -/

/-- POWER_ON_RESET (R590, R595, R602). -/
def execPowerOnReset (source : PorSource) (s : State) : Host.Outcome State Fault Refusal :=
  .next (porAssert (match source with | .supply => 0 | .sysRst => 1) s)

/-- POR_RELEASE (R595, R566, R598, R612). GLB_STRAP shows both straps; with TESTEN at 1 the chip does nothing else of its own (R612, log 31). -/
def execPorRelease (pairId testEn noteCrcOk : Bool) (scan : RecorderScan) (s : State) : Host.Outcome State Fault Refusal :=
  if !s.glb.porHeld then .next s
  else
    let s := (({ s with glb := { s.glb with porHeld := false } }).putB F.GLB_STRAP_PAIR_ID pairId).putB F.GLB_STRAP_TESTEN testEn
    let s := upkeepRestore scan.upkeep (recorderRestore true scan s)
    .next (lwlRestore (noteRelease (noteCrcOk && s.glb.note.crcOk) s))

/-- CONFIG_RESET (R592, R602): a write of GLB_RST_CMD. -/
def execConfigReset (who : Req) (data : Word) (s : State) : Host.Outcome State Fault Refusal := .next (s.write who R.GLB_RST_CMD data (rstCmdEff who data))

/-- CONFIG_RESET_RELEASE (R592 steps 3 to 5): once every SVn is in OFF, PARKED or FAULT, or at the time limit, the note is written, the reset is held
and released. -/
def execConfigResetRelease (timeout : Bool) (scan : RecorderScan) (s : State) : Host.Outcome State Fault Refusal :=
  match s.glb.cfgReset with
  | .none => .next s
  | .waiting dirty =>
    if !(allQuiet s || timeout) then .next s
    else
      let s := configClears (writeNote (if dirty then .forced else .clean) 0 true s)
      let s := upkeepRestore scan.upkeep (recorderRestore false scan s)
      .next (lwlRestore (noteRelease s.glb.note.crcOk s))

/-- CLEAN (R598). -/
def execClean (data : Word) (s : State) : Host.Outcome State Fault Refusal := .next (s.write (.core 0) R.GLB_RST_CMD data (rstCmdEff (.core 0) data))

/-- POWER_FAIL (R597, R598): `note` says how far the note's write came before power was lost or a POR took effect (R602, R627). -/
def execPowerFail (cause : PowerCause) (note : NoteWrite) (s : State) : Host.Outcome State Fault Refusal :=
  if cause.pin || cause.rail || cause.supply then .next (powerFail (b2n cause.pin + 2 * b2n cause.rail + 4 * b2n cause.supply) note s) else .next s

/-- BROWN_OUT (R599): a POR of source BROWN_OUT for a chip that reached OFF through T16. -/
def execBrownOut (s : State) : Host.Outcome State Fault Refusal := if s.glb.offByT16 then .next (porAssert 2 s) else .next s

/-! ### Lane resets (R593, R633) -/

/-- LANE_RESET (R593, R602): a write of GLB_RST_CMD. -/
def execLaneReset (data : Word) (s : State) : Host.Outcome State Fault Refusal := .next (s.write (.core 0) R.GLB_RST_CMD data (rstCmdEff (.core 0) data))

/-- A register access that waited for the lane's reset is performed (R633). -/
def performWaiting (a : LaneAccess) (s : State) : State :=
  match a.data, a.tag with
  | some w, some tag => serviceWrite tag a.addr w s
  | some w, none => (registerWriteNow a.who a.addr w noEdit s).answer .done
  | none, some tag => serviceRead tag a.addr s
  | none, none => let (w, s) := registerReadNow a.addr 0 s; s.answer (.value w)

/-- LANE_RESET_COMPLETE (R593, R86): the synthesiser has relocked and LANE_BUSY clears; accesses that waited are performed in their order. -/
def execLaneResetComplete (n : Lane) (s : State) : Host.Outcome State Fault Refusal :=
  if s.get ((F.GLB_RST_STAT_LANE_BUSY).bit n) = 0 then .next s
  else
    let s := s.put ((F.GLB_RST_STAT_LANE_BUSY).bit n) 0
    let s := if s.get (F.LNn_BAUD_M_M n) = 0 then s else s.put (F.LNn_STAT_PLL_LOCK n) 1
    let mine := s.glb.waiting.filter (fun a => decide (a.lane = n))
    let s := { s with glb := { s.glb with waiting := s.glb.waiting.filter (fun a => !decide (a.lane = n)) } }
    .next (forEach mine performWaiting s)

/-! ### Units (R41, R42) -/

/-- A decoder engine by the bit of GLB_UNIT_OK0 that shows it. -/
def engineOf (bit : Nat) : Option (Fin 12) := if h : 16 ≤ bit ∧ bit < 28 then some ⟨bit - 16, by omega⟩ else none

/-- UNIT_SELF_TEST_DONE (R41, R42): an included unit becomes present, or counts as lost. DMCn ends its self-test in DRAM_TRAINING_DONE (R415). -/
def execUnitSelfTestDone (unit : UnitId) (passed : Bool) (s : State) : Host.Outcome State Fault Refusal :=
  let b := unit.bit.val
  if !s.on F.CFG_LOAD_STAT_DONE then .next s
  else if unit.reg1 then
    if !(included1 s).testBit b || s.glb.lost1.getLsbD b then .next s
    else if passed then .next (s.setReg R.GLB_UNIT_OK1 (s.reg R.GLB_UNIT_OK1 ||| (1#32 <<< b))).settle
    else .next (s.loseUnit1 b)
  else if !(included0 s).testBit b || s.glb.lost0.getLsbD b || b == 8 || b == 9 then .next s
  else if passed then
    let s := s.setReg R.GLB_UNIT_OK0 (s.reg R.GLB_UNIT_OK0 ||| (1#32 <<< b))
    let s := match engineOf b with | some k => if (s.engine k).token = .lost then levelTokens (s.setEngine k ⟨.free, []⟩) else s | none => s
    let s := if 12 ≤ b ∧ b ≤ 15 then anaUpdate (showPwr s) else s
    .next s.settle
  else
    let s := match engineOf b with | some k => levelTokens (s.setEngine k ⟨.lost, []⟩) | none => s
    .next (s.loseUnit0 b)

/-- What a lost decoder engine leaves behind (R115). -/
def engineGone (k : Fin 12) (s : State) : State :=
  let e := s.engine k
  let s := s.setEngine k ⟨.lost, []⟩
  let s := forEach e.jobs (fun j s => if j.kind = .retry then requestEngine j (spoilAttempt j.lane s) else s.tally (28 + j.lane)) s
  levelTokens s

/-- A present unit of GLB_UNIT_OK0 fails (R42), with what its own chapter makes follow; without MOC ring time runs free (R586). -/
def unit0Fails (b : Nat) (s : State) : State :=
  if h : b < 8 then loseHart ⟨b, h⟩ s
  else if b = 9 then dmc1Gone (s.loseUnit0 9)
  else if b = 10 ∨ b = 11 then (if s.on (F.HIFn_LINK_STAT_DL_UP (b - 10)) then linkGone (b - 10) s else s).loseUnit0 b
  else if b = 28 then (stopAll s).loseUnit0 b
  else if b = 29 then (if batonUp s then loseLink s else s.loseUnit0 29)
  else if b = 30 then (({ s with moc := { s.moc with slew := 0 } }).put F.MOC_STAT_SYNC 0).loseUnit0 30
  else
    match engineOf b with
    | some k => (engineGone k s).loseUnit0 b
    | none => s.loseUnit0 b

/-- A present unit of GLB_UNIT_OK1 fails (R42): QE by a queue-structure way (R453), MOT with every SVn in FAULT (R174). -/
def unit1Fails (b : Nat) (qeWay : Bool) (s : State) : State :=
  if b = 0 then (if qeWay then s.flag F.SCC_FLT_QE_UE else s).loseUnit1 0
  else if b = 6 then (spinLost s).settle
  else if b = 7 then
    let s := s.put F.MOT_STAT_LINK_UP 0
    (forEach lanes (fun n s => if laneIncluded s n then svFault n (servoFault n 8 s) else s) s).loseUnit1 7
  else s.loseUnit1 b

/-- UNIT_FAILURE (R42, R600). -/
def execUnitFailure (unit : UnitId) (s : State) : Host.Outcome State Fault Refusal :=
  let b := unit.bit.val
  if unit.reg1 then
    if (s.reg R.GLB_UNIT_OK1).getLsbD b then .next (unit1Fails b unit.qeWay s) else .next s
  else if (s.reg R.GLB_UNIT_OK0).getLsbD b then .next (unit0Fails b s) else .next s

end Sys2Proof.Machine
end

