-- ==== Sys2Proof/Machine/Dispatch.lean ====
section
/-! DEFINITION. The meaning of each command: one arm per row of the table, each one direct call (95_what_each_step_holds.md). -/

namespace Sys2Proof.Machine

/-- The effect of a command on everything but the queue. -/
def exec (i : Instr) (s : State) : Host.Outcome State Fault Refusal :=
  match i with
  | .registerWrite who size addr data hw => Sys2Proof.Machine.execRegisterWrite who size addr data hw s
  | .pairLoRead who addr => Sys2Proof.Machine.execPairLoRead who addr s
  | .pairHiWrite who addr data => Sys2Proof.Machine.execPairHiWrite who addr data s
  | .pairLoWrite who addr data => Sys2Proof.Machine.execPairLoWrite who addr data s
  | .counterReadClear who addr event => Sys2Proof.Machine.execCounterReadClear who addr event s
  | .modeRequest target => Sys2Proof.Machine.execModeRequest target s
  | .transitionComplete => Sys2Proof.Machine.execTransitionComplete s
  | .fabricPaceUpdate pace => Sys2Proof.Machine.execFabricPaceUpdate pace s
  | .imageLoadStart => Sys2Proof.Machine.execImageLoadStart s
  | .imageReadDone failedAt => Sys2Proof.Machine.execImageReadDone failedAt s
  | .signatureVerified badStore => Sys2Proof.Machine.execSignatureVerified badStore s
  | .dramTrainingDone channel found trained binOk read => Sys2Proof.Machine.execDramTrainingDone channel found trained binOk read s
  | .dramInitChunk channel => Sys2Proof.Machine.execDramInitChunk channel s
  | .pbusCommandWrite n data => Sys2Proof.Machine.execPbusCommandWrite n data s
  | .pbusFrameStart n room => Sys2Proof.Machine.execPbusFrameStart n room s
  | .pbusFrameEnd n data check => Sys2Proof.Machine.execPbusFrameEnd n data check s
  | .faultQualified n => Sys2Proof.Machine.execFaultQualified n s
  | .pllRelock n => Sys2Proof.Machine.execPllRelock n s
  | .tableDataWrite who addr data => Sys2Proof.Machine.execTableDataWrite who addr data s
  | .tableDataRead who addr => Sys2Proof.Machine.execTableDataRead who addr s
  | .gateClose n gate taps => Sys2Proof.Machine.execGateClose n gate taps s
  | .tokenRequest n kind fifo wave => Sys2Proof.Machine.execTokenRequest n kind fifo wave s
  | .tokenGrant => Sys2Proof.Machine.execTokenGrant s
  | .decodeDone engine result => Sys2Proof.Machine.execDecodeDone engine result s
  | .engineFault engine => Sys2Proof.Machine.execEngineFault engine s
  | .ladderAttemptEnd n ended => Sys2Proof.Machine.execLadderAttemptEnd n ended s
  | .verifyGateOpen n => Sys2Proof.Machine.execVerifyGateOpen n s
  | .verifyOutcome n ended => Sys2Proof.Machine.execVerifyOutcome n ended s
  | .sectorRewrite n => Sys2Proof.Machine.execSectorRewrite n s
  | .writeInhibit n source => Sys2Proof.Machine.execWriteInhibit n source s
  | .inhibitResume n source => Sys2Proof.Machine.execInhibitResume n source s
  | .interruptedRewrite n => Sys2Proof.Machine.execInterruptedRewrite n s
  | .writeFifoUnderrun n => Sys2Proof.Machine.execWriteFifoUnderrun n s
  | .servoEnable n => Sys2Proof.Machine.execServoEnable n s
  | .servoDisable n => Sys2Proof.Machine.execServoDisable n s
  | .syncReference n mark interval bauds => Sys2Proof.Machine.execSyncReference n mark interval bauds s
  | .syncWindowEnd n estTrack estV => Sys2Proof.Machine.execSyncWindowEnd n estTrack estV s
  | .servoSample n field a b estTrack estV => Sys2Proof.Machine.execServoSample n field a b estTrack estV s
  | .currentTick n beats => Sys2Proof.Machine.execCurrentTick n beats s
  | .servoOutput n beats => Sys2Proof.Machine.execServoOutput n beats s
  | .nop n => Sys2Proof.Machine.execNop n s
  | .mul n => Sys2Proof.Machine.execMul n s
  | .mac n => Sys2Proof.Machine.execMac n s
  | .store n => Sys2Proof.Machine.execStore n s
  | .abacusMove n => Sys2Proof.Machine.execAbacusMove n s
  | .in_ n => Sys2Proof.Machine.execIn n s
  | .out_ n => Sys2Proof.Machine.execOut n s
  | .renorm n => Sys2Proof.Machine.execRenorm n s
  | .nopFrame => Sys2Proof.Machine.execNopFrame s
  | .currentFrame frame => Sys2Proof.Machine.execCurrentFrame frame s
  | .bemfFrame frame at_ => Sys2Proof.Machine.execBemfFrame frame at_ s
  | .statusFrame frame => Sys2Proof.Machine.execStatusFrame frame s
  | .inboundFrameGap => Sys2Proof.Machine.execInboundFrameGap s
  | .motionLinkLost => Sys2Proof.Machine.execMotionLinkLost s
  | .targetMailboxWrite n firmware entry => Sys2Proof.Machine.execTargetMailboxWrite n firmware entry s
  | .pacerStep n => Sys2Proof.Machine.execPacerStep n s
  | .planEnd n => Sys2Proof.Machine.execPlanEnd n s
  | .feTrip n => Sys2Proof.Machine.execFeTrip n s
  | .settleDone n => Sys2Proof.Machine.execSettleDone n s
  | .settleTimeout n => Sys2Proof.Machine.execSettleTimeout n s
  | .load n => Sys2Proof.Machine.execLoad n s
  | .unload n => Sys2Proof.Machine.execUnload n s
  | .retract n => Sys2Proof.Machine.execRetract n s
  | .clearFault n => Sys2Proof.Machine.execClearFault n s
  | .acquireDone n => Sys2Proof.Machine.execAcquireDone n s
  | .loadTimeout n => Sys2Proof.Machine.execLoadTimeout n s
  | .retractTimeEnd n => Sys2Proof.Machine.execRetractTimeEnd n s
  | .spindleStart => Sys2Proof.Machine.execSpindleStart s
  | .rotorRestCheck => Sys2Proof.Machine.execRotorRestCheck s
  | .senseDone => Sys2Proof.Machine.execSenseDone s
  | .commutation beats => Sys2Proof.Machine.execCommutation beats s
  | .speedUpdate => Sys2Proof.Machine.execSpeedUpdate s
  | .zcTimeout => Sys2Proof.Machine.execZcTimeout s
  | .noHandover => Sys2Proof.Machine.execNoHandover s
  | .spinTimeout => Sys2Proof.Machine.execSpinTimeout s
  | .keCheckEnd meanSpeed => Sys2Proof.Machine.execKeCheckEnd meanSpeed s
  | .spindleBrake => Sys2Proof.Machine.execSpindleBrake s
  | .brakeProbe => Sys2Proof.Machine.execBrakeProbe s
  | .retryWaitEnd => Sys2Proof.Machine.execRetryWaitEnd s
  | .spindleClearFault => Sys2Proof.Machine.execSpindleClearFault s
  | .spmSelfTest passed => Sys2Proof.Machine.execSpmSelfTest passed s
  | .cadenceRequest cad => Sys2Proof.Machine.execCadenceRequest cad s
  | .drainComplete => Sys2Proof.Machine.execDrainComplete s
  | .cadenceRampEnd => Sys2Proof.Machine.execCadenceRampEnd s
  | .cadTimeout => Sys2Proof.Machine.execCadTimeout s
  | .laneResume n => Sys2Proof.Machine.execLaneResume n s
  | .pfCoastEnd => Sys2Proof.Machine.execPfCoastEnd s
  | .run n => Sys2Proof.Machine.execRun n s
  | .runStop n => Sys2Proof.Machine.execRunStop n s
  | .sequencerResume n => Sys2Proof.Machine.execSequencerResume n s
  | .firmwareInterrupt n => Sys2Proof.Machine.execFirmwareInterrupt n s
  | .trap n => Sys2Proof.Machine.execTrap n s
  | .forcedHalt n => Sys2Proof.Machine.execForcedHalt n s
  | .timerHoldEnd n => Sys2Proof.Machine.execTimerHoldEnd n s
  | .branch n storeOk => Sys2Proof.Machine.execBranch n storeOk s
  | .loop n storeOk => Sys2Proof.Machine.execLoop n storeOk s
  | .call n storeOk => Sys2Proof.Machine.execCall n storeOk s
  | .return_ n storeOk => Sys2Proof.Machine.execReturn n storeOk s
  | .dispatch n storeOk => Sys2Proof.Machine.execDispatch n storeOk s
  | .halt n storeOk => Sys2Proof.Machine.execHalt n storeOk s
  | .trapReturn n storeOk => Sys2Proof.Machine.execTrapReturn n storeOk s
  | .openRead n heard => Sys2Proof.Machine.execOpenRead n heard s
  | .openWrite n => Sys2Proof.Machine.execOpenWrite n s
  | .closeNow n => Sys2Proof.Machine.execCloseNow n s
  | .gateFrame n => Sys2Proof.Machine.execGateFrame n s
  | .settingFrame n => Sys2Proof.Machine.execSettingFrame n s
  | .readFaultStat n => Sys2Proof.Machine.execReadFaultStat n s
  | .readRegister n => Sys2Proof.Machine.execReadRegister n s
  | .readOverride n => Sys2Proof.Machine.execReadOverride n s
  | .sectRead n => Sys2Proof.Machine.execSectRead n s
  | .sectWrite n => Sys2Proof.Machine.execSectWrite n s
  | .sectWriteVerify n => Sys2Proof.Machine.execSectWriteVerify n s
  | .startParityGroup n => Sys2Proof.Machine.execStartParityGroup n s
  | .sectReadSpill n => Sys2Proof.Machine.execSectReadSpill n s
  | .pop n measured => Sys2Proof.Machine.execPop n measured s
  | .discard n => Sys2Proof.Machine.execDiscard n s
  | .eventPost n => Sys2Proof.Machine.execEventPost n s
  | .alu n => Sys2Proof.Machine.execAlu n s
  | .clkZone n => Sys2Proof.Machine.execClkZone n s
  | .journalFlush intervalOver => Sys2Proof.Machine.execJournalFlush intervalOver s
  | .checkpointPlaced => Sys2Proof.Machine.execCheckpointPlaced s
  | .flushCommand => Sys2Proof.Machine.execFlushCommand s
  | .imageCommand => Sys2Proof.Machine.execImageCommand s
  | .mapImage => Sys2Proof.Machine.execMapImage s
  | .mapImagePlaced => Sys2Proof.Machine.execMapImagePlaced s
  | .bandRewriteBegin logical => Sys2Proof.Machine.execBandRewriteBegin logical s
  | .bandSwitch band => Sys2Proof.Machine.execBandSwitch band s
  | .relocation => Sys2Proof.Machine.execRelocation s
  | .mapRebuild images flushes => Sys2Proof.Machine.execMapRebuild images flushes s
  | .regionScan n read ms => Sys2Proof.Machine.execRegionScan n read ms s
  | .rebuildReady => Sys2Proof.Machine.execRebuildReady s
  | .rangeRebuild logicals => Sys2Proof.Machine.execRangeRebuild logicals s
  | .collectionLevel a => Sys2Proof.Machine.execCollectionLevel a s
  | .collectionWork a => Sys2Proof.Machine.execCollectionWork a s
  | .migration a => Sys2Proof.Machine.execMigration a s
  | .patrolPass n => Sys2Proof.Machine.execPatrolPass n s
  | .patrolRequest n => Sys2Proof.Machine.execPatrolRequest n s
  | .readonlyEntry => Sys2Proof.Machine.execReadonlyEntry s
  | .workItemArrival src => Sys2Proof.Machine.execWorkItemArrival src s
  | .relayDecision a => Sys2Proof.Machine.execRelayDecision a s
  | .slip n => Sys2Proof.Machine.execSlip n s
  | .offsetReq n => Sys2Proof.Machine.execOffsetReq n s
  | .trackDone n => Sys2Proof.Machine.execTrackDone n s
  | .ladder n => Sys2Proof.Machine.execLadder n s
  | .rewrite n => Sys2Proof.Machine.execRewrite n s
  | .relocate n => Sys2Proof.Machine.execRelocate n s
  | .squelch n => Sys2Proof.Machine.execSquelch n s
  | .vfyMiss n => Sys2Proof.Machine.execVfyMiss n s
  | .preampFault n => Sys2Proof.Machine.execPreampFault n s
  | .calRange n => Sys2Proof.Machine.execCalRange n s
  | .laneLost n => Sys2Proof.Machine.execLaneLost n s
  | .controllerEnable fn wrr asqSize acqSize asq acq => Sys2Proof.Machine.execControllerEnable fn wrr asqSize acqSize asq acq s
  | .flr fn => Sys2Proof.Machine.execFlr fn s
  | .controllerReset fn => Sys2Proof.Machine.execControllerReset fn s
  | .hotReset port => Sys2Proof.Machine.execHotReset port s
  | .linkDown port => Sys2Proof.Machine.execLinkDown port s
  | .sqTailDoorbell fn sq value => Sys2Proof.Machine.execSqTailDoorbell fn sq value s
  | .cqHeadDoorbell fn cq value => Sys2Proof.Machine.execCqHeadDoorbell fn cq value s
  | .fetchVisit read => Sys2Proof.Machine.execFetchVisit read s
  | .entryDecode => Sys2Proof.Machine.execEntryDecode s
  | .writeAdmission slot => Sys2Proof.Machine.execWriteAdmission slot s
  | .readSnapshot slot => Sys2Proof.Machine.execReadSnapshot slot s
  | .completionPost slot => Sys2Proof.Machine.execCompletionPost slot s
  | .coalesceTimer fn cq => Sys2Proof.Machine.execCoalesceTimer fn cq s
  | .poisonedTlp slot => Sys2Proof.Machine.execPoisonedTlp slot s
  | .createIoSq slot => Sys2Proof.Machine.execCreateIoSq slot s
  | .createIoCq slot => Sys2Proof.Machine.execCreateIoCq slot s
  | .deleteIoSq slot => Sys2Proof.Machine.execDeleteIoSq slot s
  | .deleteIoCq slot => Sys2Proof.Machine.execDeleteIoCq slot s
  | .abort slot => Sys2Proof.Machine.execAbort slot s
  | .asyncEventRequest slot => Sys2Proof.Machine.execAsyncEventRequest slot s
  | .identify slot => Sys2Proof.Machine.execIdentify slot s
  | .getLogPage slot => Sys2Proof.Machine.execGetLogPage slot s
  | .getFeatures slot => Sys2Proof.Machine.execGetFeatures slot s
  | .setFeatures slot => Sys2Proof.Machine.execSetFeatures slot s
  | .namespaceCreate slot mram => Sys2Proof.Machine.execNamespaceCreate slot mram s
  | .namespaceDelete slot mram => Sys2Proof.Machine.execNamespaceDelete slot mram s
  | .namespaceAttach slot => Sys2Proof.Machine.execNamespaceAttach slot s
  | .namespaceDetach slot => Sys2Proof.Machine.execNamespaceDetach slot s
  | .secondaryOffline slot => Sys2Proof.Machine.execSecondaryOffline slot s
  | .secondaryAssign slot => Sys2Proof.Machine.execSecondaryAssign slot s
  | .secondaryOnline slot => Sys2Proof.Machine.execSecondaryOnline slot s
  | .primaryFlexibleAllocation slot => Sys2Proof.Machine.execPrimaryFlexibleAllocation slot s
  | .formatNvm slot mram => Sys2Proof.Machine.execFormatNvm slot mram s
  | .sanitizeCryptoErase slot mram => Sys2Proof.Machine.execSanitizeCryptoErase slot mram s
  | .sanitizeOverwrite slot => Sys2Proof.Machine.execSanitizeOverwrite slot s
  | .sanitizeBlockErase slot => Sys2Proof.Machine.execSanitizeBlockErase slot s
  | .firmwareImageDownload slot => Sys2Proof.Machine.execFirmwareImageDownload slot s
  | .firmwareCommit slot => Sys2Proof.Machine.execFirmwareCommit slot s
  | .invalidOpcode slot => Sys2Proof.Machine.execInvalidOpcode slot s
  | .securityProtocolList slot => Sys2Proof.Machine.execSecurityProtocolList slot s
  | .info slot => Sys2Proof.Machine.execInfo slot s
  | .state slot => Sys2Proof.Machine.execState slot s
  | .rotate slot buffer mram => Sys2Proof.Machine.execRotate slot buffer mram s
  | .permit slot buffer => Sys2Proof.Machine.execPermit slot buffer s
  | .standingsAdmin slot => Sys2Proof.Machine.execStandingsAdmin slot s
  | .read slot pi_ => Sys2Proof.Machine.execRead slot pi_ s
  | .write slot data pi_ => Sys2Proof.Machine.execWrite slot data pi_ s
  | .flush slot => Sys2Proof.Machine.execFlush slot s
  | .compare slot data => Sys2Proof.Machine.execCompare slot data s
  | .writeUncorrectable slot => Sys2Proof.Machine.execWriteUncorrectable slot s
  | .writeZeroes slot => Sys2Proof.Machine.execWriteZeroes slot s
  | .datasetManagement slot ranges => Sys2Proof.Machine.execDatasetManagement slot ranges s
  | .verify slot => Sys2Proof.Machine.execVerify slot s
  | .copy slot ranges => Sys2Proof.Machine.execCopy slot ranges s
  | .zoneOpen slot => Sys2Proof.Machine.execZoneOpen slot s
  | .zoneClose slot => Sys2Proof.Machine.execZoneClose slot s
  | .zoneFinish slot => Sys2Proof.Machine.execZoneFinish slot s
  | .zoneReset slot => Sys2Proof.Machine.execZoneReset slot s
  | .zoneOffline slot => Sys2Proof.Machine.execZoneOffline slot s
  | .zoneManagementReceive slot => Sys2Proof.Machine.execZoneManagementReceive slot s
  | .zoneAppend slot data pi_ => Sys2Proof.Machine.execZoneAppend slot data pi_ s
  | .quotaWindow => Sys2Proof.Machine.execQuotaWindow s
  | .keyUnwrap mram => Sys2Proof.Machine.execKeyUnwrap mram s
  | .dramRead ch line burst who => Sys2Proof.Machine.execDramRead ch line burst who s
  | .narrowWrite line enables data => Sys2Proof.Machine.execNarrowWrite line enables data s
  | .mergeAgeExpiry => Sys2Proof.Machine.execMergeAgeExpiry s
  | .scrubRead ch burst => Sys2Proof.Machine.execScrubRead ch burst s
  | .quarantineTest page bad => Sys2Proof.Machine.execQuarantineTest page bad s
  | .arbiterEpoch ch => Sys2Proof.Machine.execArbiterEpoch ch s
  | .arbiterGrant ch requests move => Sys2Proof.Machine.execArbiterGrant ch requests move s
  | .pageAllocate owner => Sys2Proof.Machine.execPageAllocate owner s
  | .pageRelease page => Sys2Proof.Machine.execPageRelease page s
  | .flipWrite ch ctl data => Sys2Proof.Machine.execFlipWrite ch ctl data s
  | .ceTableClear => Sys2Proof.Machine.execCeTableClear s
  | .markClear ch => Sys2Proof.Machine.execMarkClear ch s
  | .dmcLost => Sys2Proof.Machine.execDmcLost s
  | .sccFill hart line => Sys2Proof.Machine.execSccFill hart line s
  | .wayDisable data => Sys2Proof.Machine.execWayDisable data s
  | .coreAccess a => Sys2Proof.Machine.execCoreAccess a s
  | .interruptClaim hart sup again => Sys2Proof.Machine.execInterruptClaim hart sup again s
  | .timerInterrupt hart => Sys2Proof.Machine.execTimerInterrupt hart s
  | .watchdogKick data => Sys2Proof.Machine.execWatchdogKick data s
  | .watchdogExpiry hart => Sys2Proof.Machine.execWatchdogExpiry hart s
  | .channelStart c => Sys2Proof.Machine.execChannelStart c s
  | .channelResume c => Sys2Proof.Machine.execChannelResume c s
  | .channelAbort c => Sys2Proof.Machine.execChannelAbort c s
  | .dmaDisable data => Sys2Proof.Machine.execDmaDisable data s
  | .instructionFetch c => Sys2Proof.Machine.execInstructionFetch c s
  | .move c => Sys2Proof.Machine.execMove c s
  | .dmaLoop c => Sys2Proof.Machine.execDmaLoop c s
  | .wait c => Sys2Proof.Machine.execWait c s
  | .signal c => Sys2Proof.Machine.execSignal c s
  | .waitDelayEnd c => Sys2Proof.Machine.execWaitDelayEnd c s
  | .flagSet data => Sys2Proof.Machine.execFlagSet data s
  | .flagClear data => Sys2Proof.Machine.execFlagClear data s
  | .burstDone c => Sys2Proof.Machine.execBurstDone c s
  | .ownToggle => Sys2Proof.Machine.execOwnToggle s
  | .ownAckChange ack => Sys2Proof.Machine.execOwnAckChange ack s
  | .failoverDone => Sys2Proof.Machine.execFailoverDone s
  | .batonLinkUp => Sys2Proof.Machine.execBatonLinkUp s
  | .hello h set role stepping image fw manifest => Sys2Proof.Machine.execHello h set role stepping image fw manifest s
  | .heartbeat h mode owned lost ke pcache resynced offer ack => Sys2Proof.Machine.execHeartbeat h mode owned lost ke pcache resynced offer ack s
  | .release h acts => Sys2Proof.Machine.execRelease h acts s
  | .cmd h fn ns cls e => Sys2Proof.Machine.execCmd h fn ns cls e s
  | .data h first count blocks => Sys2Proof.Machine.execData h first count blocks s
  | .done h status dnr dw0 dw1 => Sys2Proof.Machine.execDone h status dnr dw0 dw1 s
  | .extent h req age => Sys2Proof.Machine.execExtent h req age s
  | .outcome h ended charge => Sys2Proof.Machine.execOutcome h ended charge s
  | .mirror h ns first count blocks => Sys2Proof.Machine.execMirror h ns first count blocks s
  | .commit h ns first count transfer => Sys2Proof.Machine.execCommit h ns first count transfer s
  | .mack h => Sys2Proof.Machine.execMack h s
  | .mfree h ns first count => Sys2Proof.Machine.execMfree h ns first count s
  | .mreq h ns lba => Sys2Proof.Machine.execMreq h ns lba s
  | .jnl h pos entries => Sys2Proof.Machine.execJnl h pos entries s
  | .jack h pos => Sys2Proof.Machine.execJack h pos s
  | .keyrec h ns rec_ => Sys2Proof.Machine.execKeyrec h ns rec_ s
  | .nsrec h ns entry => Sys2Proof.Machine.execNsrec h ns entry s
  | .rack h => Sys2Proof.Machine.execRack h s
  | .lwlrec h base ns fn map => Sys2Proof.Machine.execLwlrec h base ns fn map s
  | .resync h phase image => Sys2Proof.Machine.execResync h phase image s
  | .messageReplay from_ => Sys2Proof.Machine.execMessageReplay from_ s
  | .partnerSuspect => Sys2Proof.Machine.execPartnerSuspect s
  | .claimTimeout => Sys2Proof.Machine.execClaimTimeout s
  | .idleTick => Sys2Proof.Machine.execIdleTick s
  | .preWake => Sys2Proof.Machine.execPreWake s
  | .laneRotation => Sys2Proof.Machine.execLaneRotation s
  | .cadenceWindow => Sys2Proof.Machine.execCadenceWindow s
  | .temperatureSample tj => Sys2Proof.Machine.execTemperatureSample tj s
  | .railLow => Sys2Proof.Machine.execRailLow s
  | .trustBoot rec1 rec2 => Sys2Proof.Machine.execTrustBoot rec1 rec2 s
  | .badFrame => Sys2Proof.Machine.execBadFrame s
  | .unknownCommand cmd tag => Sys2Proof.Machine.execUnknownCommand cmd tag s
  | .ident tag => Sys2Proof.Machine.execIdent tag s
  | .challenge tag => Sys2Proof.Machine.execChallenge tag s
  | .auth tag keyId r sg => Sys2Proof.Machine.execAuth tag keyId r sg s
  | .close tag => Sys2Proof.Machine.execClose tag s
  | .result tag => Sys2Proof.Machine.execResult tag s
  | .regRead tag addr => Sys2Proof.Machine.execRegRead tag addr s
  | .regWrite tag addr data => Sys2Proof.Machine.execRegWrite tag addr data s
  | .stageBegin tag man => Sys2Proof.Machine.execStageBegin tag man s
  | .stageData tag off data => Sys2Proof.Machine.execStageData tag off data s
  | .stageEnd tag => Sys2Proof.Machine.execStageEnd tag s
  | .stageCheckDone flashError => Sys2Proof.Machine.execStageCheckDone flashError s
  | .arm tag t w digest => Sys2Proof.Machine.execArm tag t w digest s
  | .disarm tag => Sys2Proof.Machine.execDisarm tag s
  | .revert tag => Sys2Proof.Machine.execRevert tag s
  | .hold tag => Sys2Proof.Machine.execHold tag s
  | .provision tag ds => Sys2Proof.Machine.execProvision tag ds s
  | .recordRead tag slot => Sys2Proof.Machine.execRecordRead tag slot s
  | .quote tag nonce => Sys2Proof.Machine.execQuote tag nonce s
  | .quoteDone => Sys2Proof.Machine.execQuoteDone s
  | .quoteRead tag => Sys2Proof.Machine.execQuoteRead tag s
  | .firmwareFrame cmd tag payload => Sys2Proof.Machine.execFirmwareFrame cmd tag payload s
  | .firmwareFrameTimeout => Sys2Proof.Machine.execFirmwareFrameTimeout s
  | .sessionTimeout => Sys2Proof.Machine.execSessionTimeout s
  | .alignmentLoss => Sys2Proof.Machine.execAlignmentLoss s
  | .activationDue => Sys2Proof.Machine.execActivationDue s
  | .windowMissed => Sys2Proof.Machine.execWindowMissed s
  | .go => Sys2Proof.Machine.execGo s
  | .confirm => Sys2Proof.Machine.execConfirm s
  | .trngHealthFail repeatPassed => Sys2Proof.Machine.execTrngHealthFail repeatPassed s
  | .eventAccept => Sys2Proof.Machine.execEventAccept s
  | .firmwareRecord code => Sys2Proof.Machine.execFirmwareRecord code s
  | .recordWrite first second epitaph => Sys2Proof.Machine.execRecordWrite first second epitaph s
  | .freezeTimeout hold => Sys2Proof.Machine.execFreezeTimeout hold s
  | .headerWrite second => Sys2Proof.Machine.execHeaderWrite second s
  | .tallyCommit bad => Sys2Proof.Machine.execTallyCommit bad s
  | .tallyCommitCommand bad => Sys2Proof.Machine.execTallyCommitCommand bad s
  | .tallyWindowClose bad => Sys2Proof.Machine.execTallyWindowClose bad s
  | .tallyInc data => Sys2Proof.Machine.execTallyInc data s
  | .tallyHist data => Sys2Proof.Machine.execTallyHist data s
  | .standingsRequest data => Sys2Proof.Machine.execStandingsRequest data s
  | .standingsComplete => Sys2Proof.Machine.execStandingsComplete s
  | .standings tag => Sys2Proof.Machine.execStandings tag s
  | .evrStatus tag => Sys2Proof.Machine.execEvrStatus tag s
  | .evrRead tag first count => Sys2Proof.Machine.execEvrRead tag first count s
  | .evrFreeze tag hold => Sys2Proof.Machine.execEvrFreeze tag hold s
  | .epitaphRead tag => Sys2Proof.Machine.execEpitaphRead tag s
  | .evrClear tag => Sys2Proof.Machine.execEvrClear tag s
  | .stickyClear tag mask hwSet => Sys2Proof.Machine.execStickyClear tag mask hwSet s
  | .tallyRead tag first count => Sys2Proof.Machine.execTallyRead tag first count s
  | .histRead tag hist => Sys2Proof.Machine.execHistRead tag hist s
  | .tallyInfo tag => Sys2Proof.Machine.execTallyInfo tag s
  | .ringStatus tag => Sys2Proof.Machine.execRingStatus tag s
  | .time frame => Sys2Proof.Machine.execTime frame s
  | .enumFrame frame => Sys2Proof.Machine.execEnumFrame frame s
  | .msg frame => Sys2Proof.Machine.execMsg frame s
  | .frameForward frame => Sys2Proof.Machine.execFrameForward frame s
  | .timeSend => Sys2Proof.Machine.execTimeSend s
  | .enumCommand data => Sys2Proof.Machine.execEnumCommand data s
  | .msgSend => Sys2Proof.Machine.execMsgSend s
  | .syncLoss => Sys2Proof.Machine.execSyncLoss s
  | .powerOnReset source => Sys2Proof.Machine.execPowerOnReset source s
  | .porRelease pairId testEn noteCrcOk scan => Sys2Proof.Machine.execPorRelease pairId testEn noteCrcOk scan s
  | .configReset who data => Sys2Proof.Machine.execConfigReset who data s
  | .configResetRelease timeout scan => Sys2Proof.Machine.execConfigResetRelease timeout scan s
  | .laneReset data => Sys2Proof.Machine.execLaneReset data s
  | .laneResetComplete n => Sys2Proof.Machine.execLaneResetComplete n s
  | .clean data => Sys2Proof.Machine.execClean data s
  | .powerFail cause note => Sys2Proof.Machine.execPowerFail cause note s
  | .brownOut => Sys2Proof.Machine.execBrownOut s
  | .unitSelfTestDone unit passed => Sys2Proof.Machine.execUnitSelfTestDone unit passed s
  | .unitFailure unit => Sys2Proof.Machine.execUnitFailure unit s
  | .heartbeatSend => Sys2Proof.Machine.execHeartbeatSend s
  | .checkpointOverdue => Sys2Proof.Machine.execCheckpointOverdue s
  | .completionTimeout slot => Sys2Proof.Machine.execCompletionTimeout slot s
  | .tlpErrorReceived port kind => Sys2Proof.Machine.execTlpErrorReceived port kind s
  | .linkUp port speed width => Sys2Proof.Machine.execLinkUp port speed width s
  | .configurationRequest fn req => Sys2Proof.Machine.execConfigurationRequest fn req s
  | .alignmentAcquired => Sys2Proof.Machine.execAlignmentAcquired s
  | .cuharFlowControl hold => Sys2Proof.Machine.execCuharFlowControl hold s
  | .receiveWordPop port => Sys2Proof.Machine.execReceiveWordPop port s
  | .indexPortRead port => Sys2Proof.Machine.execIndexPortRead port s
  | .tallyTemperatureSample => Sys2Proof.Machine.execTallyTemperatureSample s

end Sys2Proof.Machine
end

