-- ==== Sys2Proof/Safety.lean ====
section
/-! DEFINITION. The terms in which claims speak of a run: the canonical form of the register map and of buffer memory, what a step may do to
the outputs, and what it leaves alone. -/

namespace Sys2Proof.Machine

/-- The canonical form of a sparse map whose unlisted keys read as `d`: keys strictly rising, and no entry equal to what its key reads as
unlisted. Equal contents are then equal data. -/
def canonical {β : Type} [DecidableEq β] (d : Nat → β) (m : SMap β) : Bool := smSorted m && m.all (fun e => decide (e.2 ≠ d e.1))

/-- The register map in canonical form: a register is listed only where it differs from its reset value (R17). -/
def Registers.wf (m : SMap Word) : Bool := canonical resetOf m

/-- Buffer memory in canonical form: a byte is listed only where it is not zero (log 15). -/
def Memory.wf (m : SMap Byte) : Bool := canonical (fun _ => 0) m

/-- The invariant of every step: both maps are in canonical form. -/
def State.wf (s : State) : Bool := Registers.wf s.regs && Memory.wf s.buf.mem

/-- What a refused load leaves recorded (R58): the code and the section, FAIL, IMAGE_FAIL and interrupt line 21. -/
abbrev refusedAs (code sec : Nat) (u : State) : Prop :=
  u.get F.CFG_LOAD_ERR_CODE = code % 2 ^ F.CFG_LOAD_ERR_CODE.width ∧ u.get F.CFG_LOAD_ERR_SECTION = sec % 2 ^ F.CFG_LOAD_ERR_SECTION.width ∧
  u.get F.CFG_LOAD_STAT_SECTION = sec % 2 ^ F.CFG_LOAD_STAT_SECTION.width ∧ u.get F.CFG_LOAD_STAT_FAIL = 1 ∧ u.get F.GLB_MODE_COND_IMAGE_FAIL = 1 ∧
  u.ccx.irq.getLsbD 21 = true

/-- Every register outside `l` reads as before. -/
def regsKept (l : List Nat) (s t : State) : Prop := ∀ a, a ∉ l → t.reg a = s.reg a

/-- Every byte of buffer memory outside `n` bytes from `a` reads as before. -/
def memKept (a n : Nat) (s t : State) : Prop := ∀ b, ¬ (a ≤ b ∧ b < a + n) → memByte t b = memByte s b

/-- The parts of the state. -/
inductive Part where
  | regs
  | shadow
  | hold
  | bus
  | glb
  | cfg
  | trc
  | svc
  | evr
  | tly
  | moc
  | ccx
  | key
  | lns
  | mss
  | svs
  | ldp
  | mot
  | spm
  | rly
  | bnd
  | buf
  | dma
  | bat
  | pwr
  | qe
  | reports
  | sent
  | freeN
  | pending
deriving DecidableEq, Repr

/-- A part is the same in both states. -/
def Part.same (p : Part) (s t : State) : Prop :=
  match p with
  | .regs => t.regs = s.regs
  | .shadow => t.shadow = s.shadow
  | .hold => t.hold = s.hold
  | .bus => t.bus = s.bus
  | .glb => t.glb = s.glb
  | .cfg => t.cfg = s.cfg
  | .trc => t.trc = s.trc
  | .svc => t.svc = s.svc
  | .evr => t.evr = s.evr
  | .tly => t.tly = s.tly
  | .moc => t.moc = s.moc
  | .ccx => t.ccx = s.ccx
  | .key => t.key = s.key
  | .lns => t.lns = s.lns
  | .mss => t.mss = s.mss
  | .svs => t.svs = s.svs
  | .ldp => t.ldp = s.ldp
  | .mot => t.mot = s.mot
  | .spm => t.spm = s.spm
  | .rly => t.rly = s.rly
  | .bnd => t.bnd = s.bnd
  | .buf => t.buf = s.buf
  | .dma => t.dma = s.dma
  | .bat => t.bat = s.bat
  | .pwr => t.pwr = s.pwr
  | .qe => t.qe = s.qe
  | .reports => t.reports = s.reports
  | .sent => t.sent = s.sent
  | .freeN => t.freeN = s.freeN
  | .pending => t.pending = s.pending

/-- Every part of the state but those of `l` is the same in both: the frame of an operation. -/
def onlyParts (l : List Part) (s t : State) : Prop := ∀ p, p ∉ l → p.same s t

/-- A write to the command register at `addr` takes effect (R59, R632, R633): the image is loaded, or the block is one that CFG lets be written
before; the lane is not in a reset; the unit is included and not lost. -/
def State.accepts (s : State) (addr : Nat) : Bool := !earlyWrite s addr && !laneBusy s addr && !unitAbsent s addr && !unitLost s addr

/-- The parts of the state that a command may change, command by command: what a chapter gives its own engine and the registers, event recorder,
interrupt sources and outputs it reports through. Where a command can lead to a mode transition or a completion its engine's failures do, the
parts those act on stand here too. A command changes no other part. -/
def changedBy : Instr → List Part
  | .registerWrite .. | .pairHiWrite .. | .pairLoWrite .. | .regWrite .. =>
    [.regs, .hold, .bus, .glb, .cfg, .trc, .svc, .evr, .tly, .moc, .ccx, .lns, .mss, .svs, .ldp, .mot, .spm, .rly, .bnd, .buf, .dma, .bat, .pwr, .qe, .reports, .sent, .freeN]
  | .pairLoRead .. | .counterReadClear .. | .regRead .. | .receiveWordPop .. | .indexPortRead .. =>
    [.regs, .shadow, .bus, .glb, .svc, .moc, .ccx, .buf, .sent, .freeN]
  | .modeRequest .. | .servoEnable .. | .servoDisable .. | .load .. | .unload .. | .retract .. | .clearFault .. | .spindleStart ..
  | .spindleBrake .. | .spindleClearFault .. | .cadenceRequest .. =>
    [.regs, .bus, .glb, .cfg, .evr, .tly, .ccx, .lns, .mss, .svs, .ldp, .mot, .spm, .rly, .bnd, .bat, .pwr, .qe, .reports, .sent, .freeN]
  | .transitionComplete .. | .imageLoadStart .. | .imageReadDone .. | .syncReference .. | .syncWindowEnd .. | .bemfFrame ..
  | .statusFrame .. | .motionLinkLost .. | .pacerStep .. | .planEnd .. | .settleDone .. | .acquireDone .. | .retractTimeEnd ..
  | .rotorRestCheck .. | .speedUpdate .. | .zcTimeout .. | .noHandover .. | .spinTimeout .. | .keCheckEnd .. | .brakeProbe ..
  | .spmSelfTest .. | .cadTimeout .. | .laneResume .. | .journalFlush .. | .mapImage .. | .mapImagePlaced .. | .bandRewriteBegin ..
  | .mapRebuild .. | .regionScan .. | .rangeRebuild .. | .collectionLevel .. | .collectionWork .. | .migration .. | .patrolPass ..
  | .patrolRequest .. | .controllerEnable .. | .flr .. | .controllerReset .. | .hotReset .. | .linkDown .. | .cqHeadDoorbell ..
  | .entryDecode .. | .readSnapshot .. | .completionPost .. | .poisonedTlp .. | .createIoSq .. | .createIoCq .. | .deleteIoSq ..
  | .deleteIoCq .. | .abort .. | .asyncEventRequest .. | .identify .. | .getLogPage .. | .getFeatures .. | .setFeatures ..
  | .namespaceAttach .. | .namespaceDetach .. | .secondaryOffline .. | .secondaryAssign .. | .secondaryOnline ..
  | .primaryFlexibleAllocation .. | .sanitizeBlockErase .. | .firmwareImageDownload .. | .firmwareCommit .. | .invalidOpcode ..
  | .securityProtocolList .. | .info .. | .state .. | .permit .. | .standingsAdmin .. | .read .. | .write .. | .flush .. | .compare ..
  | .verify .. | .copy .. | .zoneOpen .. | .zoneClose .. | .zoneManagementReceive .. | .zoneAppend .. | .hello .. | .heartbeat ..
  | .release .. | .cmd .. | .done .. | .extent .. | .mack .. | .idleTick .. | .preWake .. | .cadenceWindow .. | .temperatureSample ..
  | .railLow .. | .powerFail .. | .checkpointOverdue .. | .completionTimeout .. | .tlpErrorReceived .. | .configurationRequest .. =>
    [.regs, .glb, .cfg, .evr, .tly, .ccx, .lns, .mss, .svs, .ldp, .mot, .spm, .rly, .bnd, .bat, .pwr, .qe, .reports, .sent, .freeN]
  | .fabricPaceUpdate .. =>
    [.regs, .glb, .evr]
  | .signatureVerified .. =>
    [.regs, .hold, .glb, .cfg, .trc, .svc, .evr, .tly, .moc, .ccx, .lns, .mss, .svs, .ldp, .mot, .spm, .rly, .bnd, .buf, .dma, .bat, .pwr, .qe, .reports, .sent, .freeN]
  | .dramTrainingDone .. | .gateClose .. | .decodeDone .. | .engineFault .. | .ladderAttemptEnd .. | .verifyOutcome ..
  | .interruptedRewrite .. | .servoSample .. | .currentTick .. | .store .. | .abacusMove .. | .in_ .. | .renorm .. | .feTrip ..
  | .loadTimeout .. | .bandSwitch .. | .relocation .. | .readonlyEntry .. | .workItemArrival .. | .relayDecision .. | .trackDone ..
  | .laneLost .. | .writeAdmission .. | .writeUncorrectable .. | .writeZeroes .. | .datasetManagement .. | .zoneFinish .. | .zoneReset ..
  | .zoneOffline .. | .arbiterGrant .. | .dmcLost .. | .watchdogExpiry .. | .ownAckChange .. | .failoverDone .. | .data .. | .outcome ..
  | .mirror .. | .nsrec .. | .resync .. | .claimTimeout .. | .unitSelfTestDone .. =>
    [.regs, .glb, .cfg, .evr, .tly, .ccx, .lns, .mss, .svs, .ldp, .mot, .spm, .rly, .bnd, .buf, .bat, .pwr, .qe, .reports, .sent, .freeN]
  | .dramInitChunk .. | .pageAllocate .. | .pageRelease .. =>
    [.regs, .buf]
  | .pbusCommandWrite .. | .tableDataWrite .. =>
    [.regs, .bus, .glb, .evr, .ccx, .lns]
  | .pbusFrameStart .. =>
    [.lns, .sent]
  | .pbusFrameEnd .. =>
    [.regs, .evr, .ccx, .lns, .mss]
  | .faultQualified .. | .sectorRewrite .. | .writeInhibit .. | .writeFifoUnderrun .. | .forcedHalt .. | .timerHoldEnd .. | .gateFrame ..
  | .settingFrame .. | .readFaultStat .. | .readRegister .. | .readOverride .. | .sectRead .. | .sectWrite .. | .sectWriteVerify ..
  | .startParityGroup .. | .sectReadSpill .. | .pop .. | .discard .. | .eventPost .. | .alu .. | .clkZone .. =>
    [.regs, .evr, .tly, .ccx, .lns, .mss, .rly, .reports, .sent, .freeN]
  | .pllRelock .. | .verifyGateOpen .. | .inhibitResume .. =>
    [.regs, .lns]
  | .tableDataRead .. =>
    [.regs, .bus]
  | .tokenRequest .. =>
    [.regs, .evr, .tly, .ccx, .lns, .mss, .ldp]
  | .tokenGrant .. =>
    [.regs, .ldp]
  | .servoOutput .. =>
    [.regs, .evr, .ccx, .svs, .mot, .sent]
  | .nop .. | .mul .. | .mac .. | .out_ .. =>
    [.svs]
  | .nopFrame .. =>
    [.mot, .sent]
  | .currentFrame .. =>
    [.regs, .svs, .mot, .spm]
  | .inboundFrameGap .. | .enumFrame .. | .linkUp .. =>
    [.regs]
  | .targetMailboxWrite .. =>
    [.regs, .bus, .glb, .evr, .ccx, .svs]
  | .settleTimeout .. | .freezeTimeout .. =>
    [.regs, .evr, .ccx]
  | .senseDone .. | .retryWaitEnd .. =>
    [.regs, .ccx, .mot, .spm]
  | .commutation .. =>
    [.regs, .mot, .spm, .sent]
  | .drainComplete .. =>
    [.regs, .evr, .tly, .ccx, .lns, .spm, .rly]
  | .cadenceRampEnd .. =>
    [.spm]
  | .pfCoastEnd .. =>
    [.regs, .ccx, .lns, .mot, .spm, .rly, .sent]
  | .run .. | .sequencerResume .. =>
    [.regs, .bus, .glb, .evr, .ccx, .mss]
  | .runStop .. =>
    [.regs, .bus, .glb, .evr, .tly, .ccx, .lns, .mss, .rly, .reports, .sent, .freeN]
  | .firmwareInterrupt .. | .flipWrite .. | .watchdogKick .. | .flagClear .. | .standingsRequest .. =>
    [.regs, .bus, .glb, .evr, .ccx]
  | .trap .. | .openRead .. | .openWrite .. | .closeNow .. =>
    [.regs, .bus, .glb, .evr, .tly, .ccx, .lns, .mss, .ldp, .rly, .reports, .sent, .freeN]
  | .branch .. | .loop .. | .call .. | .return_ .. | .dispatch .. | .halt .. | .trapReturn .. | .configReset .. | .laneReset ..
  | .clean .. =>
    [.regs, .bus, .glb, .cfg, .evr, .tly, .ccx, .lns, .mss, .svs, .ldp, .mot, .spm, .rly, .bnd, .buf, .bat, .pwr, .qe, .reports, .sent, .freeN]
  | .checkpointPlaced .. | .namespaceCreate .. =>
    [.regs, .glb, .cfg, .evr, .tly, .ccx, .key, .lns, .mss, .svs, .ldp, .mot, .spm, .rly, .bnd, .bat, .pwr, .qe, .reports, .sent, .freeN]
  | .flushCommand .. =>
    [.regs, .bus, .glb, .evr, .ccx, .rly, .bnd, .bat, .sent]
  | .imageCommand .. =>
    [.regs, .bus, .glb, .evr, .ccx, .rly, .bnd]
  | .rebuildReady .. | .namespaceDelete .. | .formatNvm .. | .sanitizeCryptoErase .. | .sanitizeOverwrite .. | .rotate .. | .keyrec .. =>
    [.regs, .glb, .cfg, .evr, .tly, .ccx, .key, .lns, .mss, .svs, .ldp, .mot, .spm, .rly, .bnd, .buf, .bat, .pwr, .qe, .reports, .sent, .freeN]
  | .slip .. =>
    [.mss, .rly]
  | .offsetReq .. =>
    [.regs, .evr, .ccx, .mss, .svs, .rly]
  | .ladder .. | .vfyMiss .. | .preampFault .. | .calRange .. =>
    [.mss]
  | .rewrite .. | .relocate .. =>
    [.regs, .evr, .ccx, .mss, .rly, .bnd, .bat, .qe, .reports, .sent]
  | .squelch .. =>
    [.regs, .mss, .bnd, .reports]
  | .sqTailDoorbell .. =>
    [.regs, .evr, .ccx, .rly, .qe]
  | .fetchVisit .. | .coalesceTimer .. =>
    [.qe, .sent]
  | .quotaWindow .. =>
    [.regs, .evr, .ccx, .rly]
  | .keyUnwrap .. =>
    [.regs, .evr, .ccx, .key]
  | .dramRead .. =>
    [.regs, .glb, .evr, .tly, .ccx, .lns, .mss, .rly, .bnd, .buf, .bat, .qe, .reports, .sent]
  | .narrowWrite .. | .mergeAgeExpiry .. =>
    [.regs, .evr, .ccx, .buf, .sent]
  | .scrubRead .. | .quarantineTest .. =>
    [.regs, .evr, .ccx, .rly, .bnd, .buf, .bat, .qe, .sent]
  | .arbiterEpoch .. =>
    [.buf]
  | .ceTableClear .. | .markClear .. =>
    [.regs, .bus, .glb, .evr, .ccx, .buf]
  | .sccFill .. =>
    [.regs, .ccx, .buf, .sent]
  | .wayDisable .. =>
    [.regs, .bus, .glb, .evr, .ccx, .buf, .sent]
  | .coreAccess .. | .laneResetComplete .. =>
    [.regs, .shadow, .hold, .bus, .glb, .cfg, .trc, .svc, .evr, .tly, .moc, .ccx, .lns, .mss, .svs, .ldp, .mot, .spm, .rly, .bnd, .buf, .dma, .bat, .pwr, .qe, .reports, .sent, .freeN]
  | .interruptClaim .. =>
    [.bus, .ccx]
  | .timerInterrupt .. =>
    [.ccx]
  | .channelStart .. | .channelResume .. =>
    [.regs, .bus, .glb, .evr, .ccx, .dma]
  | .channelAbort .. | .dmaDisable .. | .flagSet .. =>
    [.regs, .bus, .glb, .evr, .ccx, .buf, .dma, .sent, .freeN]
  | .instructionFetch .. | .move .. | .dmaLoop .. | .wait .. | .signal .. | .waitDelayEnd .. | .burstDone .. =>
    [.regs, .evr, .ccx, .buf, .dma, .sent, .freeN]
  | .ownToggle .. | .heartbeatSend .. =>
    [.regs, .bat, .sent]
  | .batonLinkUp .. | .jack .. | .rack .. =>
    [.regs, .ccx, .bat, .sent]
  | .commit .. | .mfree .. | .mreq .. | .lwlrec .. =>
    [.regs, .ccx, .buf, .bat, .sent]
  | .jnl .. =>
    [.regs, .ccx, .bnd, .bat, .sent]
  | .messageReplay .. =>
    [.regs, .evr, .ccx, .bat, .sent]
  | .partnerSuspect .. =>
    [.regs, .ccx, .bat]
  | .laneRotation .. =>
    [.regs, .ldp, .pwr]
  | .trustBoot .. =>
    [.regs, .glb, .cfg, .trc, .evr, .tly, .ccx, .key, .lns, .mss, .svs, .ldp, .mot, .spm, .rly, .bnd, .buf, .bat, .pwr, .qe, .reports, .sent, .freeN]
  | .badFrame .. | .cuharFlowControl .. =>
    [.regs, .svc, .sent]
  | .unknownCommand .. | .ident .. | .result .. | .recordRead .. | .quoteRead .. | .firmwareFrameTimeout .. | .evrStatus .. | .evrRead ..
  | .epitaphRead .. | .tallyRead .. | .histRead .. | .tallyInfo .. | .ringStatus .. =>
    [.svc, .sent]
  | .challenge .. =>
    [.trc, .svc, .sent, .freeN]
  | .auth .. =>
    [.regs, .trc, .svc, .evr, .ccx, .sent]
  | .close .. | .stageBegin .. | .stageEnd .. | .quote .. =>
    [.regs, .trc, .svc, .sent]
  | .stageData .. =>
    [.trc, .svc, .sent]
  | .stageCheckDone .. | .windowMissed .. =>
    [.regs, .trc, .ccx]
  | .arm .. | .disarm .. =>
    [.regs, .trc, .svc, .ccx, .sent]
  | .revert .. =>
    [.regs, .glb, .trc, .svc, .evr, .tly, .ccx, .lns, .mss, .svs, .rly, .bnd, .buf, .bat, .reports, .sent, .freeN]
  | .hold .. =>
    [.regs, .glb, .cfg, .svc, .evr, .tly, .ccx, .lns, .mss, .svs, .ldp, .mot, .spm, .rly, .bnd, .bat, .pwr, .qe, .reports, .sent, .freeN]
  | .provision .. =>
    [.regs, .trc, .svc, .key, .sent]
  | .quoteDone .. | .sessionTimeout .. =>
    [.regs, .trc]
  | .firmwareFrame .. =>
    [.svc, .ccx, .sent]
  | .alignmentLoss .. =>
    [.regs, .trc, .svc]
  | .activationDue .. =>
    [.regs, .ccx]
  | .go .. =>
    [.regs, .glb, .trc, .evr, .tly, .ccx, .lns, .mss, .svs, .rly, .bnd, .buf, .bat, .reports, .sent, .freeN]
  | .confirm .. | .trngHealthFail .. =>
    [.regs, .trc, .evr, .ccx]
  | .eventAccept .. | .recordWrite .. | .tallyCommit .. | .tallyWindowClose .. | .tallyTemperatureSample .. =>
    [.regs, .evr, .tly, .ccx]
  | .firmwareRecord .. | .tallyCommitCommand .. | .tallyInc .. | .tallyHist .. =>
    [.regs, .bus, .glb, .evr, .tly, .ccx]
  | .headerWrite .. =>
    [.evr]
  | .standingsComplete .. =>
    [.regs, .evr]
  | .standings .. =>
    [.svc, .evr, .sent]
  | .evrFreeze .. =>
    [.regs, .svc, .evr, .sent]
  | .evrClear .. | .stickyClear .. =>
    [.regs, .svc, .evr, .ccx, .sent]
  | .time .. =>
    [.regs, .evr, .moc, .ccx, .freeN]
  | .msg .. | .syncLoss .. =>
    [.regs, .evr, .moc, .ccx]
  | .frameForward .. =>
    [.regs, .evr, .moc, .ccx, .sent]
  | .timeSend .. =>
    [.regs, .moc, .sent]
  | .enumCommand .. =>
    [.regs, .bus, .glb, .evr, .ccx, .sent]
  | .msgSend .. =>
    [.moc, .sent]
  | .powerOnReset .. | .configResetRelease .. | .brownOut .. =>
    [.regs, .shadow, .hold, .bus, .glb, .cfg, .trc, .svc, .evr, .tly, .moc, .ccx, .key, .lns, .mss, .svs, .ldp, .mot, .spm, .rly, .bnd, .buf, .dma, .bat, .pwr, .qe, .reports, .sent, .freeN]
  | .porRelease .. =>
    [.regs, .glb, .evr, .tly, .ccx, .bnd]
  | .unitFailure .. =>
    [.regs, .glb, .cfg, .evr, .tly, .moc, .ccx, .lns, .mss, .svs, .ldp, .mot, .spm, .rly, .bnd, .buf, .dma, .bat, .pwr, .qe, .reports, .sent, .freeN]
  | .alignmentAcquired .. =>
    [.regs, .svc]

/-- The word at PC executes now: the sequencer runs, it is not to stop here, the word does not fault and it does not hold (R231, R241,
R244, R245). -/
def State.wordReady (s : State) (n : Lane) : Bool :=
  let w := seqWord s n
  seqRuns s n && !((s.ms n).stopping && mw w 141 141 = 1 && (s.ms n).acted == 0) &&
  !(mw w 32 32 = 1 && s.on (F.MSn_CTL_BKPT_EN n) && !(s.ms n).passBkpt && (s.ms n).acted == 0) &&
  (wordFault s n).isNone && !wordHolds s n

/-- A decoded command in a slot, without a result, which the queue engine serves (R332, R361, R367). -/
def State.decoded (s : State) (k : Nat) (x : Slot) : Bool :=
  s.slot k == some x && x.result.isNone && x.fon.isSome && slotEntered s k && qeRuns s && !x.dropped

/-- A decoded admin command that its function may use, its data pointer valid (R336, R375). -/
def State.adminReady (s : State) (k : Nat) (x : Slot) : Bool := s.decoded k x && x.sq == 0 && opAllowed x.fn 0 x.cmd.op && x.cmd.prpOk

/-- The result of the command in a slot. -/
def State.resultOf (s : State) (k : Nat) : Option Result := (s.slot k).bind (fun x => x.result)

/-- An I/O command in a slot, without a result, that its function may use while the media serve (R332, R337, R367, R498). -/
def State.ioReady (s : State) (k : Nat) (x : Slot) : Bool :=
  s.slot k == some x && x.result.isNone && x.sq != 0 && slotEntered s k && mediaServed s && !slotWaits s x && opAllowed x.fn x.sq x.cmd.op && !x.dropped

/-- A received message answered (R487): with receive-FIFO entries still to be returned a HEARTBEAT carries them back. -/
def State.replied (s : State) : State := if s.bat.freed = 0 then s else sendHeartbeat s

/-- The message with this header is the next one expected on a link that is up (R484). -/
def State.expects (s : State) (h : BatHdr) : Bool := batonUp s && h.lseq == s.bat.rxNext

/-- The link is up and a message of this length goes at once (R487, R496). -/
def State.maySend (s : State) (len : Nat) : Bool :=
  batonUp s && s.bat.waitTx.isEmpty && !s.on F.GLB_MODE_COND_PAIR_MISMATCH && !s.on F.GLB_MODE_COND_POWER_FAIL &&
  decide (len + 1 ≤ s.get F.BAT_CRED_AVAIL) && decide (txHeld s + len + 1 ≤ 256)

/-- The TAGs and messages sent and not yet acknowledged. -/
def State.inFlight (s : State) : List (BitVec 32 × BatMsg) := s.bat.unacked.map (fun e => e.2)

end Sys2Proof.Machine
end

