-- ==== Sys2Proof/Certificates/Slice0/Obligations.lean ====
section
/-! DEFINITION. The statements about the model: what each command does, where it completes and what it leaves alone, taken from the spec's
numbered rules; what every step keeps; what reset leaves. Each docstring names the rules it formalises. -/

open Sys2Proof Sys2Proof.Machine

/-- R9: a register access that is narrower than 32 bits, misaligned, or names no register answers a precise access fault to a hart and the
address-error status to the service port, and changes nothing else. The last clause says which accesses name a whole register. -/
def Obligations.BadRegisterAccessAnswersAddressFault : Prop :=
  (∀ (h : Fin 8) (size : Nat) (addr : Nat) (data : Word) (hw : HwEdit) (s : State),
     accessOk size addr = false →
     exec (.registerWrite (.core h) size addr data hw) s = .next (s.answer (.accessFault h addr))) ∧
  (∀ (size : Nat) (addr : Nat) (data : Word) (hw : HwEdit) (s : State),
     accessOk size addr = false →
     exec (.registerWrite .service size addr data hw) s = .next (s.answer .addressError)) ∧
  (∀ (h : Fin 8) (addr : Nat) (event : Word) (s : State),
     accessOk 4 addr = false →
     exec (.counterReadClear (.core h) addr event) s = .next (s.answer (.accessFault h addr))) ∧
  (∀ (size : Nat) (addr : Nat),
     (accessOk size addr = true ↔ size = 4) ∧
       addr % 4 = 0 ∧
       ∃ r, descOf addr = some r)

/-- R10, R11, R13, R109: a write of a plain register. Bit by bit: an RW bit (an RWL bit in CONFIGURE) takes the data, a W1C bit clears and a W1S bit
sets on a written 1, any other keeps its value; then what hardware does in the same handshake is applied: an RW or RWL bit it updates ends with
its value, a W1C bit it sets ends set. A write of LDP_ITER stores each budget held to its range. R59, R632, R633: the rows that are writes of a
command register are discarded with EARLY_WR before the image is loaded, wait where their lane is in a reset, and have no effect on a unit that
is left out or lost. -/
def Obligations.RegisterWriteFollowsAccessCodes : Prop :=
  (∀ (who : Req) (addr : Nat) (data : Word) (hw : HwEdit) (s : State) (b : Blk) (n : Nat) (o : Nat),
     accessOk 4 addr = true → locate addr = some (b, n, o) → b ∈ [Blk.cfg, .qe, .ldp, .key, .mot] → addr ≠ R.LDP_ITER → pairHi addr = false →
     pairLo addr = false → earlyWrite s addr = false → (commandReg addr && unitLost s addr) = false →
     ∃ t : State, exec (.registerWrite who 4 addr data hw) s = .next t ∧
       t.bus = .done ∧
       (∀ i : Fin 32, (t.reg addr).getLsbD i = ((if hw.mask.getLsbD i && (accMask addr [.rw, .rwl]).getLsbD i then hw.val.getLsbD i else
               ((if (accMask addr (if s.mode = Mode.configure then [.rw, .rwl] else [.rw])).getLsbD i then data.getLsbD i else (s.reg addr).getLsbD
                   i) && !(data.getLsbD i && (accMask addr [.w1c]).getLsbD i)) || (data.getLsbD i && (accMask addr [.w1s]).getLsbD i)) ||
             (hw.set.getLsbD i && (accMask addr [.w1c]).getLsbD i))) ∧
       regsKept [addr] s t ∧
       onlyParts [.regs, .bus, .ccx, .evr] s t) ∧
  (∀ (who : Req) (data : Word) (s : State),
     earlyWrite s R.LDP_ITER = false →
     ∃ t : State, exec (.registerWrite who 4 R.LDP_ITER data noEdit) s = .next t ∧
       t.bus = .done ∧
       t.get F.LDP_ITER_RTY = min 60 (max 1 (data.toNat / 256 % 64)) ∧
       t.get F.LDP_ITER_OTF = min 12 (max 1 (data.toNat % 16)) ∧
       regsKept [R.LDP_ITER] s t ∧
       onlyParts [.regs, .bus, .ccx, .evr] s t) ∧
  (∀ (p : Instr × Nat × Word) (c : Fin 64) (n : Lane) (h : Fin 2) (w : Word) (s : State),
     p ∈ ([(.flushCommand, R.BND_CMD, 1), (.imageCommand, R.BND_CMD, 2), (.channelStart c, R.DMAc_CTL c, ctlWord s c 31),
           (.channelResume c, R.DMAc_CTL c, ctlWord s c 30), (.channelAbort c, R.DMAc_CTL c, ctlWord s c 29), (.dmaDisable w, R.DMA_CTL, w),
           (.flagSet w, R.DMA_FLAG_SET, w), (.flagClear w, R.DMA_FLAGS, w), (.wayDisable w, R.SCC_WAY_DIS, w),
           (.watchdogKick w, R.CCX_WDOG_KICK, w), (.run n, R.MSn_CTL n, s.reg (R.MSn_CTL n) ||| 0x80000000),
           (.runStop n, R.MSn_CTL n, s.reg (R.MSn_CTL n) &&& 0x7FFFFFFF), (.sequencerResume n, R.MSn_CTL n, s.reg (R.MSn_CTL n) ||| 0x40000000),
           (.firmwareInterrupt n, R.MSn_INT n, 0x40), (.spindleStart, R.SPM_CMD, 1), (.spindleBrake, R.SPM_CMD, 2),
           (.spindleClearFault, R.SPM_CMD, 3), (.firmwareRecord w, R.EVR_FW_CODE, w), (.tallyCommitCommand [], R.TLY_CMD, 1),
           (.tallyInc w, R.TLY_INC, w), (.tallyHist w, R.TLY_HIST, w), (.enumCommand w, R.MOC_CMD, w), (.standingsRequest w, R.EVR_STD_REQ, w),
           (.ceTableClear, R.BUF_CE_SEL, 0x80000000), (.markClear h, R.DMCn_ECC_STAT h, 0x80000000), (.flipWrite h true w, R.DMCn_FLIP_CTL h, w),
           (.flipWrite h false w, R.DMCn_FLIP_DQ h, w)] : List (Instr × Nat × Word)) → earlyWrite s p.2.1 = true →
     exec p.1 s = .next ((s.flag F.CFG_LOAD_STAT_EARLY_WR).answer .done)) ∧
  (∀ (p : Instr × Nat × Word) (c : Fin 64) (n : Lane) (h : Fin 2) (w : Word) (s : State),
     p ∈ ([(.flushCommand, R.BND_CMD, 1), (.imageCommand, R.BND_CMD, 2), (.channelStart c, R.DMAc_CTL c, ctlWord s c 31),
           (.channelResume c, R.DMAc_CTL c, ctlWord s c 30), (.channelAbort c, R.DMAc_CTL c, ctlWord s c 29), (.dmaDisable w, R.DMA_CTL, w),
           (.flagSet w, R.DMA_FLAG_SET, w), (.flagClear w, R.DMA_FLAGS, w), (.wayDisable w, R.SCC_WAY_DIS, w),
           (.watchdogKick w, R.CCX_WDOG_KICK, w), (.run n, R.MSn_CTL n, s.reg (R.MSn_CTL n) ||| 0x80000000),
           (.runStop n, R.MSn_CTL n, s.reg (R.MSn_CTL n) &&& 0x7FFFFFFF), (.sequencerResume n, R.MSn_CTL n, s.reg (R.MSn_CTL n) ||| 0x40000000),
           (.firmwareInterrupt n, R.MSn_INT n, 0x40), (.spindleStart, R.SPM_CMD, 1), (.spindleBrake, R.SPM_CMD, 2),
           (.spindleClearFault, R.SPM_CMD, 3), (.firmwareRecord w, R.EVR_FW_CODE, w), (.tallyCommitCommand [], R.TLY_CMD, 1),
           (.tallyInc w, R.TLY_INC, w), (.tallyHist w, R.TLY_HIST, w), (.enumCommand w, R.MOC_CMD, w), (.standingsRequest w, R.EVR_STD_REQ, w),
           (.ceTableClear, R.BUF_CE_SEL, 0x80000000), (.markClear h, R.DMCn_ECC_STAT h, 0x80000000), (.flipWrite h true w, R.DMCn_FLIP_CTL h, w),
           (.flipWrite h false w, R.DMCn_FLIP_DQ h, w)] : List (Instr × Nat × Word)) → earlyWrite s p.2.1 = false → laneBusy s p.2.1 = true →
     exec p.1 s = .next (s.hold_ (.core 0) p.2.1 (some p.2.2) none)) ∧
  (∀ (p : Instr × Nat × Word) (c : Fin 64) (n : Lane) (h : Fin 2) (w : Word) (s : State),
     p ∈ ([(.flushCommand, R.BND_CMD, 1), (.imageCommand, R.BND_CMD, 2), (.channelStart c, R.DMAc_CTL c, ctlWord s c 31),
           (.channelResume c, R.DMAc_CTL c, ctlWord s c 30), (.channelAbort c, R.DMAc_CTL c, ctlWord s c 29), (.dmaDisable w, R.DMA_CTL, w),
           (.flagSet w, R.DMA_FLAG_SET, w), (.flagClear w, R.DMA_FLAGS, w), (.wayDisable w, R.SCC_WAY_DIS, w),
           (.watchdogKick w, R.CCX_WDOG_KICK, w), (.run n, R.MSn_CTL n, s.reg (R.MSn_CTL n) ||| 0x80000000),
           (.runStop n, R.MSn_CTL n, s.reg (R.MSn_CTL n) &&& 0x7FFFFFFF), (.sequencerResume n, R.MSn_CTL n, s.reg (R.MSn_CTL n) ||| 0x40000000),
           (.firmwareInterrupt n, R.MSn_INT n, 0x40), (.spindleStart, R.SPM_CMD, 1), (.spindleBrake, R.SPM_CMD, 2),
           (.spindleClearFault, R.SPM_CMD, 3), (.firmwareRecord w, R.EVR_FW_CODE, w), (.tallyCommitCommand [], R.TLY_CMD, 1),
           (.tallyInc w, R.TLY_INC, w), (.tallyHist w, R.TLY_HIST, w), (.enumCommand w, R.MOC_CMD, w), (.standingsRequest w, R.EVR_STD_REQ, w),
           (.ceTableClear, R.BUF_CE_SEL, 0x80000000), (.markClear h, R.DMCn_ECC_STAT h, 0x80000000), (.flipWrite h true w, R.DMCn_FLIP_CTL h, w),
           (.flipWrite h false w, R.DMCn_FLIP_DQ h, w)] : List (Instr × Nat × Word)) → earlyWrite s p.2.1 = false → laneBusy s p.2.1 = false →
     unitAbsent s p.2.1 = true ∨ unitLost s p.2.1 = true →
     exec p.1 s = .next (s.answer .done))

/-- R16: the halves of a register pair, for every pair. A write of _HI is held and changes no register. A write of _LO commits both halves by their
access codes, _HI from the holding register or, where none was written since reset, from _HI's reset value; the holding register keeps its value.
So it is for the pairs of CFG, TRC, BND, RLY, QE, TLY, MOC and BAT, for those of DMA while the channel does not run (a channel that runs refuses
the write), for the timer compares, whose interrupt line is judged on the new value, and for PWR, which settles after it; the pair of SVn's
mailbox hands both halves over as one entry, or marks SRC_REJ where firmware is not the source. A read of _LO returns it and latches _HI into the
shadow (TLY_RD_LO takes the selected entry's value first); every read of _HI returns the shadow; reads of other registers leave the shadow alone;
before the first read of _LO a read of _HI returns what the register shows, and after reset nothing is latched. -/
def Obligations.RegisterPairsHoldCommitAndLatch : Prop :=
  (∀ (who : Req) (addr : Nat) (data : Word) (s : State),
     accessOk 4 addr = true → pairHi addr = true → earlyWrite s addr = false → laneBusy s addr = false →
     exec (.pairHiWrite who addr data) s = .next ({ s with hold := smSet addr data s.hold }.answer .done)) ∧
  (∀ (who : Req) (addr : Nat) (data : Word) (s : State) (b : Blk) (n : Nat) (o : Nat),
     accessOk 4 addr = true → pairLo addr = true → pairHi addr = false → locate addr = some (b, n, o) →
     b ∈ [Blk.cfg, .trc, .bnd, .rly, .qe, .tly, .moc, .bat] → earlyWrite s addr = false →
     ∃ t : State, exec (.pairLoWrite who addr data) s = .next t ∧
       t.bus = .done ∧
       t.reg addr = mergeWrite s addr data ∧
       t.reg (addr + 4) = mergeWrite s (addr + 4) (smGetD (resetOf (addr + 4)) (addr + 4) s.hold) ∧
       t.hold = s.hold ∧
       regsKept [addr, addr + 4] s t ∧
       onlyParts [.regs, .bus] s t) ∧
  (∀ (who : Req) (addr : Nat) (data : Word) (s : State) (n : Nat) (o : Nat),
     accessOk 4 addr = true → pairLo addr = true → pairHi addr = false → locate addr = some (.dma, n, o) →
     (∀ p, dmaChannelOf addr = some p → dmaBusy s p.1 = false) → earlyWrite s addr = false →
     ∃ t : State, exec (.pairLoWrite who addr data) s = .next t ∧
       t.bus = .done ∧
       t.reg addr = mergeWrite s addr data ∧
       t.reg (addr + 4) = mergeWrite s (addr + 4) (smGetD (resetOf (addr + 4)) (addr + 4) s.hold) ∧
       t.hold = s.hold ∧
       regsKept [addr, addr + 4] s t ∧
       onlyParts [.regs, .bus] s t) ∧
  (∀ (who : Req) (addr : Nat) (data : Word) (s : State) (c : Nat) (o : Nat),
     accessOk 4 addr = true → pairLo addr = true → pairHi addr = false → dmaChannelOf addr = some (c, o) → dmaBusy s c = true →
     accMask addr [.rw] ≠ 0 → unitAbsent s addr = false → earlyWrite s addr = false →
     exec (.pairLoWrite who addr data) s = .next ((s.put (F.DMAc_STAT_REJ c) 1).answer .done)) ∧
  (∀ (who : Req) (k : Fin 8) (data : Word) (s : State),
     earlyWrite s (R.CCX_TCMPk_LO k.val) = false → unitAbsent s (R.CCX_TCMPk_LO k.val) = false →
     ∃ t : State, exec (.pairLoWrite who (R.CCX_TCMPk_LO k.val) data) s = .next t ∧
       t.bus = .done ∧
       t.reg (R.CCX_TCMPk_LO k.val) = data ∧
       t.reg (R.CCX_TCMPk_HI k.val) = smGetD 0xFFFFFFFF (R.CCX_TCMPk_HI k.val) s.hold ∧
       t.ccx.mtip.getLsbD k.val = decide ((smGetD 0xFFFFFFFF (R.CCX_TCMPk_HI k.val) s.hold ++ data).toNat ≤ s.now.toNat) ∧
       (∀ j : Fin 8, j ≠ k → t.ccx.mtip.getLsbD j.val = s.ccx.mtip.getLsbD j.val) ∧
       t.ccx = { s.ccx with mtip := t.ccx.mtip } ∧
       t.hold = s.hold ∧
       regsKept [R.CCX_TCMPk_LO k.val, R.CCX_TCMPk_HI k.val] s t ∧
       onlyParts [.regs, .bus, .ccx] s t) ∧
  (∀ (who : Req) (addr : Nat) (data : Word) (s : State) (n : Nat) (o : Nat),
     accessOk 4 addr = true → pairLo addr = true → pairHi addr = false → locate addr = some (.pwr, n, o) → unitAbsent s addr = false →
     earlyWrite s addr = false →
     ∃ u : State, exec (.pairLoWrite who addr data) s = .next (u.settle.answer .done) ∧
       u.reg addr = mergeWrite s addr data ∧
       u.reg (addr + 4) = mergeWrite s (addr + 4) (smGetD (resetOf (addr + 4)) (addr + 4) s.hold) ∧
       regsKept [addr, addr + 4] s u ∧
       onlyParts [.regs] s u) ∧
  (∀ (who : Req) (n : Lane) (addr : Nat) (o : Nat) (data : Word) (s : State),
     accessOk 4 addr = true → pairLo addr = true → pairHi addr = false → locate addr = some (.sv, n.val, o) → unitAbsent s addr = false →
     unitLost s addr = false → earlyWrite s addr = false → s.on (F.SVn_PACE_CTL_SRC n) = true →
     ∃ t : State, exec (.pairLoWrite who addr data) s = .next t ∧
       t.bus = .done ∧
       t.sv n = { s.sv n with mailbox := some (smGetD (resetOf (addr + 4)) (addr + 4) s.hold ++ data) } ∧
       ((s.sv n).mailbox = none → t.regs = s.regs) ∧
       ((s.sv n).mailbox.isSome = true → t.get (F.SVn_PACE_CNT_OVERWRITE n) = min (s.get (F.SVn_PACE_CNT_OVERWRITE n) + 1)
           (2 ^ (F.SVn_PACE_CNT_OVERWRITE n).width - 1)) ∧
       (∀ m, m ≠ n → t.sv m = s.sv m) ∧
       regsKept [R.SVn_PACE_CNT n] s t ∧
       onlyParts [.regs, .svs, .bus] s t) ∧
  (∀ (who : Req) (n : Lane) (addr : Nat) (o : Nat) (data : Word) (s : State),
     accessOk 4 addr = true → pairLo addr = true → pairHi addr = false → locate addr = some (.sv, n.val, o) → unitAbsent s addr = false →
     unitLost s addr = false → earlyWrite s addr = false → s.on (F.SVn_PACE_CTL_SRC n) = false →
     ∃ t : State, exec (.pairLoWrite who addr data) s = .next t ∧
       t.bus = .done ∧
       t.get (F.SVn_PACE_STAT_SRC_REJ n) = 1 ∧
       t.svs = s.svs ∧
       regsKept [R.SVn_PACE_STAT n] s t ∧
       onlyParts [.regs, .bus, .ccx, .evr] s t) ∧
  (∀ (who : Req) (addr : Nat) (s : State),
     accessOk 4 addr = true → pairLo addr = true → pairHi addr = false → addr ≠ R.TLY_RD_LO → accMask addr [.rc] = 0 → laneBusy s addr = false →
     exec (.pairLoRead who addr) s = .next
       ({ s with shadow := smSet (addr + 4) (viewWord s (addr + 4)) s.shadow }.answer (.value (viewWord s addr)))) ∧
  (∀ (who : Req) (s : State),
     unitAbsent s R.TLY_RD_LO = false →
     ∃ t : State, exec (.pairLoRead who R.TLY_RD_LO) s = .next t ∧
       t.bus = .value ((tlyRead s (s.get F.TLY_RD_SEL_ENTRY)).2.1.extractLsb' 0 32) ∧
       smGet R.TLY_RD_HI t.shadow = some ((tlyRead s (s.get F.TLY_RD_SEL_ENTRY)).2.1.extractLsb' 32 32) ∧
       t.get F.TLY_RD_STAT_VALID = b2n (tlyRead s (s.get F.TLY_RD_SEL_ENTRY)).1 ∧
       regsKept [R.TLY_RD_LO, R.TLY_RD_HI, R.TLY_RD_STAT] s t ∧
       onlyParts [.regs, .shadow, .bus] s t) ∧
  (∀ (who : Req) (addr : Nat) (event : Word) (s : State) (w : Word),
     accessOk 4 addr = true → 4 ≤ addr → latchesNext (addr - 4) = true → laneBusy s addr = false → smGet addr s.shadow = some w →
     exec (.counterReadClear who addr event) s = .next (s.answer (.value w))) ∧
  (∀ (who : Req) (addr : Nat) (s : State),
     accessOk 4 addr = true → pairHi addr = true → laneBusy s addr = false → smGet addr s.shadow = none → accMask addr [.rc] = 0 →
     exec (.counterReadClear who addr 0) s = .next (s.answer (.value (viewWord s addr)))) ∧
  (∀ (who : Req) (a : Nat) (event : Word) (addr : Nat) (s : State) (t : State),
     exec (.counterReadClear who a event) s = .next t → a + 4 ≠ addr →
     smGet addr t.shadow = smGet addr s.shadow) ∧
  (State.reset.shadow = [] ∧
     State.reset.hold = [])

/-- R10, R12: a read of a register with read-clear fields returns the value and clears those fields; what hardware records into them in the same
handshake is left for the next read. The last clause is the one such register that shows a selected counter: BUF_ARB_DEFER of the class selected.
(The claim registers, whose read claims an interrupt, are INTERRUPT_CLAIM's.) -/
def Obligations.CounterReadReturnsThenClears : Prop :=
  (∀ (who : Req) (addr : Nat) (event : Word) (s : State) (b : Blk) (n : Nat) (o : Nat),
     accessOk 4 addr = true → locate addr = some (b, n, o) → accMask addr [.rc] ≠ 0 → (b = .buf → o ≠ 0x02C) → (b = .scc → o < 0x840) →
     (b = .ms → o ≠ 0x024) → (b = .sv → o ≠ 0x038) → (b = .rly → o ≠ 0x018) →
     addr ∉ [R.SVC_RX_DATA, R.MOC_RX_DATA, R.EVR_RD_DATA, R.EVR_STD_DATA, R.TLY_RD_LO, R.GLB_GPIO_IN, R.HIFn_LINK_STAT 0, R.HIFn_LINK_STAT 1] →
     (∀ m : Lane, addr ≠ R.LNn_TBL_DATA m ∧ addr ≠ R.LNn_WTBL_DATA m) → unitAbsent s addr = false → laneBusy s addr = false →
     latchesNext addr = false → (4 ≤ addr → latchesNext (addr - 4) = false) →
     ∃ t : State, exec (.counterReadClear who addr event) s = .next t ∧
       t.bus = .value (viewWord s addr) ∧
       t.reg addr = (s.reg addr &&& ~~~(accMask addr [.rc])) ||| (event &&& accMask addr [.rc]) ∧
       regsKept [addr] s t ∧
       onlyParts [.regs, .bus] s t) ∧
  (∀ (who : Req) (event : Word) (s : State) (i : Fin 6),
     unitAbsent s R.BUF_ARB_DEFER = false → s.get F.BUF_ARB_SEL_CLASS = i.val + 1 →
     ∃ t : State, exec (.counterReadClear who R.BUF_ARB_DEFER event) s = .next t ∧
       t.bus = .value (viewWord s R.BUF_ARB_DEFER) ∧
       (t.buf.defer.get 0).get i = bitsOf event.toNat 15 0 ∧
       (t.buf.defer.get 1).get i = bitsOf event.toNat 31 16 ∧
       (∀ j, j ≠ i → (t.buf.defer.get 0).get j = (s.buf.defer.get 0).get j ∧ (t.buf.defer.get 1).get j = (s.buf.defer.get 1).get j) ∧
       t.buf = { s.buf with defer := t.buf.defer } ∧
       onlyParts [.buf, .bus] s t)

/-- R28, R34, R35, R38, R635: a mode request that matches a row is taken at once (T13 here, from any mode but OFF, CONFIGURE and SERVICE); one that
matches none is rejected and leaves the mode. A transition that waited completes once the chip is where R635 wants it: MODE, PREV and CAUSE are
written, BUSY and TARGET clear. `onMode` is what a change of mode starts and ends in the blocks. The pace monitor shows PACE and records one
event for each excursion below 256. -/
def Obligations.ModeControllerTakesAndCompletesTransitions : Prop :=
  (∀ (s : State),
     s.mode ≠ Mode.off → s.mode ≠ Mode.configure → s.mode ≠ Mode.service →
     ∃ u : State, exec (.modeRequest 2) s = .next (((onMode s.mode Mode.service u).settle.answer .done)) ∧
       u.get F.GLB_MODE_MODE = Mode.service ∧
       u.get F.GLB_MODE_PREV = s.mode ∧
       u.get F.GLB_MODE_STAT_CAUSE = 13 ∧
       u.get F.GLB_MODE_STAT_BUSY = 0 ∧
       u.get F.GLB_MODE_STAT_TARGET = 0 ∧
       u.ccx.irq.getLsbD 19 = true ∧
       regsKept [R.GLB_MODE, R.GLB_MODE_STAT] s u ∧
       onlyParts [.regs, .glb, .ccx, .evr] s u) ∧
  (∀ (target : BitVec 4) (s : State),
     s.mode = Mode.off ∨ s.mode = Mode.service →
     exec (.modeRequest target) s = .next (((s.put F.GLB_MODE_STAT_REJ 1).put F.GLB_MODE_STAT_REJ_TARGET target.toNat).settle.answer .done)) ∧
  (∀ (s : State),
     brakeIfQuiet (loadHeads s) = s → transition s = none → s.on F.GLB_UNIT_OK0_PWR = true → s.on F.GLB_MODE_COND_POWER_FAIL = false →
     pwrSettle s = s → s.mode = Mode.active → s.ps = 3 → s.on F.GLB_MODE_STAT_BUSY = true → s.get F.GLB_MODE_STAT_TARGET = Mode.idleReady →
     mayComplete s 7 Mode.idleReady = true →
     ∃ u : State, exec .transitionComplete s = .next ((transitions 2 (onMode Mode.active Mode.idleReady u))) ∧
       u.get F.GLB_MODE_MODE = Mode.idleReady ∧
       u.get F.GLB_MODE_PREV = Mode.active ∧
       u.get F.GLB_MODE_STAT_CAUSE = 7 ∧
       u.get F.GLB_MODE_STAT_BUSY = 0 ∧
       u.get F.GLB_MODE_STAT_TARGET = 0 ∧
       regsKept [R.GLB_MODE, R.GLB_MODE_STAT] s u ∧
       onlyParts [.regs, .glb, .ccx, .evr] s u) ∧
  (∀ (pace : BitVec 16) (s : State),
     256 ≤ pace.toNat ∨ s.glb.paceLow = true →
     exec (.fabricPaceUpdate pace) s = .next
       ({ s.put F.GLB_FABRIC_PACE_PACE pace.toNat with glb := { s.glb with paceLow := decide (pace.toNat < 256) } })) ∧
  (∀ (pace : BitVec 16) (s : State),
     pace.toNat < 256 → s.glb.paceLow = false →
     ∃ t : State, exec (.fabricPaceUpdate pace) s = .next t ∧
       t.get F.GLB_FABRIC_PACE_PACE = pace.toNat ∧
       t.glb = { s.glb with paceLow := true } ∧
       t.evr.raised = s.evr.raised ++ [.system 0x4004 2 0xFFFF (sourceOf R.GLB_FABRIC_PACE) (le 2 pace.toNat)] ∧
       regsKept [R.GLB_FABRIC_PACE] s t ∧
       onlyParts [.regs, .glb, .evr] s t)

/-- R47, R57, R58, in CONFIGURE. The start of a load takes the bytes that TRC handed over, reads the header first and refuses an unusable LENGTH or
SIG_OFFSET at once (code 3, section 0xFF); else the phase is 1. The read's end makes the phase 2, or refuses with code 1 and the section that
holds the byte that could not be read. The digests and the signature are judged next: a digest that differs refuses with code 2 and sets TRC's
DIGEST flag, a signature that does not verify or a key of another use refuses with code 2; then the admission checks, of which a failed one
refuses with its code and section, a store whose digest differs refuses with code 5; else DONE is set in phase 8, the image version and build are
shown, interrupt line 21 is raised and, where the image has no presets, the image in use is this one. Every refusal sets LOAD_ERR, LOAD_STAT.FAIL
and SECTION, IMAGE_FAIL and interrupt line 21 and drops the image. -/
def Obligations.ImageLoadRunsInOrder : Prop :=
  (∀ (off : Nat) (img : Image) (s : State),
     s.cfg.handed = some off → s.mode = Mode.configure → s.get F.CFG_LOAD_STAT_PHASE = 0 → s.on F.CFG_LOAD_STAT_FAIL = false →
     readImage (imageBytes s off) = img → img.length ≤ 4194304 → img.sigOffset + 128 = img.length →
     exec .imageLoadStart s = .next ({ s with cfg := { s.cfg with handed := none, staging := some img } }.put F.CFG_LOAD_STAT_PHASE 1)) ∧
  (∀ (off : Nat) (img : Image) (s : State),
     s.cfg.handed = some off → s.mode = Mode.configure → s.get F.CFG_LOAD_STAT_PHASE = 0 → s.on F.CFG_LOAD_STAT_FAIL = false →
     readImage (imageBytes s off) = img → 4194304 < img.length ∨ img.sigOffset + 128 ≠ img.length →
     ∃ u : State, exec .imageLoadStart s = .next u.settle ∧
       refusedAs 3 0xFF u ∧
       u.cfg = { s.cfg with handed := none, staging := none } ∧
       regsKept [R.CFG_LOAD_ERR, R.CFG_LOAD_STAT, R.GLB_MODE_COND] s u ∧
       onlyParts [.regs, .cfg, .ccx] s u) ∧
  (∀ (failedAt : Option Nat) (img : Image) (s : State),
     s.mode = Mode.configure → s.cfg.staging = some img → s.get F.CFG_LOAD_STAT_PHASE = 1 → (∀ b, failedAt = some b → img.length ≤ b) →
     exec (.imageReadDone failedAt) s = .next (s.put F.CFG_LOAD_STAT_PHASE 2)) ∧
  (∀ (b : Nat) (img : Image) (s : State),
     s.mode = Mode.configure → s.cfg.staging = some img → s.get F.CFG_LOAD_STAT_PHASE = 1 → b < img.length →
     ∃ u : State, exec (.imageReadDone (some b)) s = .next u.settle ∧
       refusedAs 1 ((firstWhere img (fun d => decide (d.offset ≤ b) && decide (b < d.offset + d.length))).getD 0xFF) u ∧
       u.cfg = { s.cfg with staging := none } ∧
       regsKept [R.CFG_LOAD_ERR, R.CFG_LOAD_STAT, R.GLB_MODE_COND] s u ∧
       onlyParts [.regs, .cfg, .ccx] s u) ∧
  (∀ (badStore : Option Lane) (img : Image) (s : State),
     s.mode = Mode.configure → s.cfg.staging = some img → s.get F.CFG_LOAD_STAT_PHASE = 2 → manifestDigests s img = false →
     ∃ u : State, exec (.signatureVerified badStore) s = .next u.settle ∧
       refusedAs 2 0xFF u ∧
       u.on F.TRC_FLT_DIGEST = true ∧
       u.cfg = { s.cfg with staging := none } ∧
       regsKept [R.CFG_LOAD_ERR, R.CFG_LOAD_STAT, R.GLB_MODE_COND, R.TRC_FLT] s u) ∧
  (∀ (badStore : Option Lane) (img : Image) (s : State),
     s.mode = Mode.configure → s.cfg.staging = some img → s.get F.CFG_LOAD_STAT_PHASE = 2 → manifestDigests s img = true →
     imageSigned s img = false →
     ∃ u : State, exec (.signatureVerified badStore) s = .next u.settle ∧
       refusedAs 2 0xFF u ∧
       u.cfg = { s.cfg with staging := none } ∧
       regsKept [R.CFG_LOAD_ERR, R.CFG_LOAD_STAT, R.GLB_MODE_COND] s u ∧
       onlyParts [.regs, .cfg, .ccx] s u) ∧
  (∀ (badStore : Option Lane) (img : Image) (f : Nat × Nat) (s : State),
     s.mode = Mode.configure → s.cfg.staging = some img → s.get F.CFG_LOAD_STAT_PHASE = 2 → manifestDigests s img = true →
     imageSigned s img = true → admission (s.put F.CFG_LOAD_STAT_PHASE 4) img = some f →
     ∃ u : State, exec (.signatureVerified badStore) s = .next u.settle ∧
       refusedAs f.1 f.2 u ∧
       u.cfg = { s.cfg with staging := none } ∧
       regsKept [R.CFG_LOAD_ERR, R.CFG_LOAD_STAT, R.GLB_MODE_COND] s u ∧
       onlyParts [.regs, .cfg, .ccx] s u) ∧
  (∀ (badStore : Option Lane) (img : Image) (s : State),
     s.mode = Mode.configure → s.cfg.staging = some img → s.get F.CFG_LOAD_STAT_PHASE = 2 → manifestDigests s img = true →
     imageSigned s img = true → admission (s.put F.CFG_LOAD_STAT_PHASE 4) img = none →
     badStore.bind (fun n => firstWhere img (fun d => match d.body with | .ustore _ => d.inst == n.val | _ => false)) = none →
     ∃ u : State, exec (.signatureVerified badStore) s = .next u.settle ∧
       u.get F.CFG_LOAD_STAT_DONE = 1 ∧
       u.get F.CFG_LOAD_STAT_PHASE = 8 ∧
       u.reg R.CFG_IMAGE_VER = img.imageVer ∧
       u.reg R.CFG_BUILD_HI ++ u.reg R.CFG_BUILD_LO = img.buildId ∧
       u.ccx.irq.getLsbD 21 = true ∧
       u.cfg.staging = none ∧
       (imgFind img (fun d => match d.body with | .presets l => some l | _ => none) = none → u.cfg.image = some img)) ∧
  (∀ (n : Lane) (img : Image) (k : Nat) (s : State),
     s.mode = Mode.configure → s.cfg.staging = some img → s.get F.CFG_LOAD_STAT_PHASE = 2 → manifestDigests s img = true →
     imageSigned s img = true → admission (s.put F.CFG_LOAD_STAT_PHASE 4) img = none →
     firstWhere img (fun d => match d.body with | .ustore _ => d.inst == n.val | _ => false) = some k →
     ∃ u : State, exec (.signatureVerified (some n)) s = .next u.settle ∧
       refusedAs 5 k u ∧
       u.get F.CFG_LOAD_STAT_DONE = s.get F.CFG_LOAD_STAT_DONE ∧
       u.cfg.staging = none)

/-- R405, R415, R416, after DONE, for a channel that is neither trained nor lost. A configured channel that trains, whose geometry is one of R405's
and as training found it and whose bins fit, sets TRAINED and writes the self-test's cases to its highest line. Where all 14 read back as they
must, it sets ST_OK and is marked present in GLB_UNIT_OK0. Where a case fails, only the cases up to it are written, its number stands in ST_FAIL
and the unit is lost. A channel that does not train is lost. A geometry or bin that differs, or a channel 0 that is not configured, refuses with
code 0x000C; a channel 1 that is not configured changes nothing. A present channel is then zeroed 64 KiB at a time: every byte of the page at
INIT_PTR reads 0 and no line of it is poisoned, the other bytes are as before, INIT_PTR advances, and INIT_DONE is set at the channel's end. -/
def Obligations.DramChannelStartsUp : Prop :=
  (∀ (ch : Fin 2) (r : DramRec) (read : List (Vector (BitVec 64) 10)) (s : State),
     channelRec s ch.val = some r → s.on F.CFG_LOAD_STAT_DONE = true → s.on (F.DMCn_STAT_TRAINED ch.val) = false →
     s.glb.lost0.getLsbD (8 + ch.val) = false → r.configured = true → geometryOk r = true → selfTestFailure read = 0 →
     ∃ u : State, exec (.dramTrainingDone ch r true true read) s = .next u.settle ∧
       u.get (F.DMCn_STAT_TRAINED ch.val) = 1 ∧
       u.get (F.DMCn_STAT_ST_OK ch.val) = 1 ∧
       u.reg R.GLB_UNIT_OK0 = s.reg R.GLB_UNIT_OK0 ||| (1#32 <<< (8 + ch.val)) ∧
       u.sent = s.sent ++ (List.range 14).map (fun i => .dram ch (chPages s ch * 1024 - 1) (selfTestBurst (i + 1))) ∧
       regsKept [R.DMCn_STAT ch.val, R.DMCn_ECC_STAT ch.val, R.GLB_UNIT_OK0, R.BUF_PAGE_TOTAL, R.BUF_PAGE_OWNED, R.BUF_PAGE_QUAR, R.BUF_PAGE_FREE] s
         u ∧
       onlyParts [.regs, .sent] s u) ∧
  (∀ (ch : Fin 2) (r : DramRec) (read : List (Vector (BitVec 64) 10)) (k : Nat) (s : State),
     channelRec s ch.val = some r → s.on F.CFG_LOAD_STAT_DONE = true → s.on (F.DMCn_STAT_TRAINED ch.val) = false →
     s.glb.lost0.getLsbD (8 + ch.val) = false → r.configured = true → geometryOk r = true → selfTestFailure read = k → k ≠ 0 →
     ∃ u : State, exec (.dramTrainingDone ch r true true read) s = .next (u.loseUnit0 (8 + ch.val)) ∧
       u.get (F.DMCn_STAT_TRAINED ch.val) = 1 ∧
       u.get (F.DMCn_STAT_ST_FAIL ch.val) = k ∧
       u.sent = s.sent ++ (List.range k).map (fun i => .dram ch (chPages s ch * 1024 - 1) (selfTestBurst (i + 1))) ∧
       regsKept [R.DMCn_STAT ch.val] s u ∧
       onlyParts [.regs, .sent] s u) ∧
  (∀ (ch : Fin 2) (r found : DramRec) (binOk : Bool) (read : List (Vector (BitVec 64) 10)) (s : State),
     channelRec s ch.val = some r → s.on F.CFG_LOAD_STAT_DONE = true → s.on (F.DMCn_STAT_TRAINED ch.val) = false →
     s.glb.lost0.getLsbD (8 + ch.val) = false → r.configured = true →
     exec (.dramTrainingDone ch found false binOk read) s = .next (s.loseUnit0 (8 + ch.val))) ∧
  (∀ (ch : Fin 2) (r found : DramRec) (binOk : Bool) (read : List (Vector (BitVec 64) 10)) (s : State),
     channelRec s ch.val = some r → s.on F.CFG_LOAD_STAT_DONE = true → s.on (F.DMCn_STAT_TRAINED ch.val) = false →
     s.glb.lost0.getLsbD (8 + ch.val) = false → r.configured = true → (geometryOk r && binOk && found == r) = false →
     ∃ u : State, exec (.dramTrainingDone ch found true binOk read) s = .next u.settle ∧
       u.get (F.DMCn_STAT_TRAINED ch.val) = 1 ∧
       refusedAs 0xC (match s.cfg.image with | some i => indexOfType i 6 | none => 0xFF) u ∧
       regsKept [R.DMCn_STAT ch.val, R.CFG_LOAD_ERR, R.CFG_LOAD_STAT, R.GLB_MODE_COND] s u) ∧
  (∀ (r found : DramRec) (trained binOk : Bool) (read : List (Vector (BitVec 64) 10)) (s : State),
     channelRec s 0 = some r → s.on F.CFG_LOAD_STAT_DONE = true → s.on (F.DMCn_STAT_TRAINED 0) = false → s.glb.lost0.getLsbD 8 = false →
     r.configured = false →
     ∃ u : State, exec (.dramTrainingDone 0 found trained binOk read) s = .next u.settle ∧
       refusedAs 0xC (match s.cfg.image with | some i => indexOfType i 6 | none => 0xFF) u ∧
       regsKept [R.CFG_LOAD_ERR, R.CFG_LOAD_STAT, R.GLB_MODE_COND] s u) ∧
  (∀ (r found : DramRec) (trained binOk : Bool) (read : List (Vector (BitVec 64) 10)) (s : State),
     channelRec s 1 = some r → r.configured = false →
     exec (.dramTrainingDone 1 found trained binOk read) s = .next s) ∧
  (∀ (ch : Fin 2) (p g : Nat) (s : State),
     chPresent s ch.val = true → s.on (F.DMCn_STAT_INIT_DONE ch.val) = false → s.get (F.DMCn_INIT_PTR_PAGES ch.val) = p → p < chPages s ch.val →
     g = (if ch = 0 then p else chPages s 0 + p) →
     ∃ t : State, exec (.dramInitChunk ch) s = .next t ∧
       t.get (F.DMCn_INIT_PTR_PAGES ch.val) = (p + 1) % 2 ^ 18 ∧
       t.on (F.DMCn_STAT_INIT_DONE ch.val) = decide (chPages s ch.val = p + 1) ∧
       (∀ a, memByte t a = if a / 65536 = g then 0 else memByte s a) ∧
       (∀ l, l / 1024 = g → linePoisoned t l = false) ∧
       (∀ l, (glLine s l).2 < 2 ^ 28 → l / 1024 ≠ g → linePoisoned t l = linePoisoned s l) ∧
       regsKept [R.DMCn_INIT_PTR ch.val, R.DMCn_STAT ch.val] s t ∧
       t.buf = { s.buf with mem := t.buf.mem, poisoned := t.buf.poisoned } ∧
       onlyParts [.regs, .buf] s t)

/-- R67, R74, R75, R78, R79, R81, R86, R133, R146: the preamp bus of a lane. A firmware command sets BUSY, clears VALID and REJECT and queues its
frame, a broadcast of ASSIST one frame for each declared head; while the result is busy it only sets REJECT; while the head link is stopped it
completes at once as dropped. With the bus free and the link running a gate frame that is due starts first (one for a disabled head is taken away
and not sent), then a setting frame, then a firmware frame, each only if it fits before the next gate frame; its bits leave the chip, and the
value of a register write is recorded for its head. At its end a gate frame gives the preamp's mode and head. A firmware read whose CHECK is
right completes with its data; a wrong CHECK sets BUS_CHECK and is counted, and the frame is sent once more with AUTO_RETRY, else the command
completes with CRC_ERR. A firmware write without VERIFY completes at its end, and with VERIFY it is read back. A fault input sets FAULT_SEEN, is
counted, signals the sequencer and forgets the head's settings, and inhibits an open write gate (source 1); it is ignored while the link is
stopped. The relock after a change of M sets PLL_LOCK and ends inhibit source 3. -/
def Obligations.PreampBusFramesQueueStartAndEnd : Prop :=
  (∀ (n : Lane) (w : Word) (s : State),
     earlyWrite s (R.LNn_PBUS_CMD n) = false → laneBusy s (R.LNn_PBUS_CMD n) = false → pckRuns s n = true → s.on (F.LNn_PBUS_RES_BUSY n) = false →
     ¬ (w.getLsbD 31 = true ∧ w.getLsbD 30 = true ∧ w.extractLsb' 21 6 = 4) →
     ∃ t : State, exec (.pbusCommandWrite n w) s = .next t ∧
       t.bus = .done ∧
       t.get (F.LNn_PBUS_RES_BUSY n) = 1 ∧
       t.get (F.LNn_PBUS_RES_VALID n) = 0 ∧
       t.get (F.LNn_PBUS_RES_REJECT n) = 0 ∧
       t.ln n = { s.ln n with
           fwQ := (s.ln n).fwQ ++ [⟨.firmware, if w.getLsbD 31 then .write else .read, 0, w.getLsbD 31 && w.getLsbD 30, w.extractLsb' 27 3,
                 w.extractLsb' 21 6, w.extractLsb' 0 16, 0, none, false, false, true, false, []⟩], fwCrc := false, fwMis := false, fwData := 0 } ∧
       (∀ m, m ≠ n → t.ln m = s.ln m) ∧
       regsKept [R.LNn_PBUS_RES n] s t ∧
       onlyParts [.regs, .lns, .bus] s t) ∧
  (∀ (n : Lane) (w : Word) (k : Nat) (s : State),
     earlyWrite s (R.LNn_PBUS_CMD n) = false → laneBusy s (R.LNn_PBUS_CMD n) = false → pckRuns s n = true → s.on (F.LNn_PBUS_RES_BUSY n) = false →
     w.getLsbD 31 = true → w.getLsbD 30 = true → w.extractLsb' 21 6 = 4 → headsOf s n = k → 0 < k →
     ∃ t : State, exec (.pbusCommandWrite n w) s = .next t ∧
       t.bus = .done ∧
       t.get (F.LNn_PBUS_RES_BUSY n) = 1 ∧
       t.get (F.LNn_PBUS_RES_VALID n) = 0 ∧
       t.get (F.LNn_PBUS_RES_REJECT n) = 0 ∧
       t.ln n = { s.ln n with
           fwQ := (s.ln n).fwQ ++ (List.range k).map
             (fun h => ⟨.firmware, .write, 0, false, BitVec.ofNat 3 h, 4, w.extractLsb' 0 16, 0, none, false, false, h + 1 == k, false, []⟩),
           fwCrc := false, fwMis := false, fwData := 0 } ∧
       (∀ m, m ≠ n → t.ln m = s.ln m) ∧
       regsKept [R.LNn_PBUS_RES n] s t ∧
       onlyParts [.regs, .lns, .bus] s t) ∧
  (∀ (n : Lane) (w : Word) (s : State),
     earlyWrite s (R.LNn_PBUS_CMD n) = false → laneBusy s (R.LNn_PBUS_CMD n) = false → s.on (F.LNn_PBUS_RES_BUSY n) = true →
     exec (.pbusCommandWrite n w) s = .next ((s.put (F.LNn_PBUS_RES_REJECT n) 1).answer .done)) ∧
  (∀ (n : Lane) (w : Word) (s : State),
     earlyWrite s (R.LNn_PBUS_CMD n) = false → laneBusy s (R.LNn_PBUS_CMD n) = false → s.on (F.LNn_PBUS_RES_BUSY n) = false → pckRuns s n = false →
     ∃ t : State, exec (.pbusCommandWrite n w) s = .next t ∧
       t.bus = .done ∧
       t.reg (R.LNn_PBUS_RES n) =
         ((((s.setReg (R.LNn_PBUS_RES n) 0).put (F.LNn_PBUS_RES_VALID n) 1).put (F.LNn_PBUS_RES_DROPPED n) 1).reg (R.LNn_PBUS_RES n)) ∧
       regsKept [R.LNn_PBUS_RES n] s t ∧
       onlyParts [.regs, .bus] s t) ∧
  (∀ (n : Lane) (room : Option Nat) (g : PbFrame) (rest : List PbFrame) (s : State),
     (s.ln n).bus = none → pckRuns s n = true → (s.ln n).gateQ = g :: rest → g.kind = .gate → g.asap = true ∨ room = some 0 →
     gateAllowed s n g = true →
     ∃ t : State, exec (.pbusFrameStart n room) s = .next t ∧
       t.ln n = { s.ln n with gateQ := rest, bus := some { g with data := frameData s n g, heats := [] } } ∧
       (∀ m, m ≠ n → t.ln m = s.ln m) ∧
       t.sent = s.sent ++ [.preamp n 8 (gateHeader g * 2 + parityBit (gateHeader g) 7)] ∧
       onlyParts [.lns, .sent] s t) ∧
  (∀ (n : Lane) (room : Option Nat) (g : PbFrame) (rest : List PbFrame) (s : State),
     (s.ln n).bus = none → pckRuns s n = true → (s.ln n).gateQ = g :: rest → g.asap = true ∨ room = some 0 → gateAllowed s n g = false →
     exec (.pbusFrameStart n room) s = .next (s.setLn n { s.ln n with gateQ := rest })) ∧
  (∀ (n : Lane) (room : Option Nat) (f : PbFrame) (rest : List PbFrame) (s : State),
     (s.ln n).bus = none → pckRuns s n = true → (∀ g, (s.ln n).gateQ.head? = some g → g.asap = false ∧ room ≠ some 0) →
     (s.ln n).setQ = f :: rest ∨ ((s.ln n).setQ = [] ∧ (s.ln n).fwQ = f :: rest) → (∀ r, room = some r → frameLength f ≤ r) →
     ∃ t : State, exec (.pbusFrameStart n room) s = .next t ∧
       (t.ln n).bus.map (fun g => { g with heats := [] }) = some { f with data := frameData s n f, heats := [] } ∧
       (t.ln n).gateQ = (s.ln n).gateQ ∧
       ((s.ln n).setQ = [] → (t.ln n).setQ = [] ∧ (t.ln n).fwQ = rest) ∧
       ((s.ln n).setQ ≠ [] → (t.ln n).setQ = rest ∧ (t.ln n).fwQ = (s.ln n).fwQ) ∧
       (f.kind = .write → f.bc = false → smGet (64 * f.head.toNat + f.addr.toNat) (t.ln n).lastSent = some (frameData s n f)) ∧
       (f.kind ≠ .write → (t.ln n).lastSent = (s.ln n).lastSent) ∧
       t.sent = s.sent ++ [.preamp n (frameBits { f with data := frameData s n f }).1 (frameBits { f with data := frameData s n f }).2] ∧
       (∀ m, m ≠ n → t.ln m = s.ln m) ∧
       onlyParts [.lns, .sent] s t) ∧
  (∀ (n : Lane) (f : PbFrame) (data : BitVec 16) (check : BitVec 8) (s : State),
     (s.ln n).bus = some f → f.kind = .gate → pckRuns s n = true ∨ s.on (F.LNn_PBUS_RES_BUSY n) = false →
     exec (.pbusFrameEnd n data check) s = .next (s.setLn n { s.ln n with bus := none, pre := ⟨f.mode, f.head⟩, preAt := s.now })) ∧
  (∀ (n : Lane) (f : PbFrame) (data : BitVec 16) (check : BitVec 8) (s : State),
     (s.ln n).bus = some f → f.kind = .read → f.source = .firmware → f.final = true → f.expect = none → pckRuns s n = true →
     check.toNat = readCheck f data →
     ∃ t : State, exec (.pbusFrameEnd n data check) s = .next t ∧
       t.ln n = { s.ln n with bus := none, fwData := data } ∧
       (∀ m, m ≠ n → t.ln m = s.ln m) ∧
       t.get (F.LNn_PBUS_RES_VALID n) = 1 ∧
       t.get (F.LNn_PBUS_RES_BUSY n) = 0 ∧
       t.get (F.LNn_PBUS_RES_DATA n) = data.toNat ∧
       t.get (F.LNn_PBUS_RES_CRC_ERR n) = b2n (s.ln n).fwCrc ∧
       t.get (F.LNn_PBUS_RES_MISMATCH n) = b2n (s.ln n).fwMis ∧
       t.get (F.LNn_PBUS_RES_REJECT n) = s.get (F.LNn_PBUS_RES_REJECT n) ∧
       regsKept [R.LNn_PBUS_RES n] s t ∧
       onlyParts [.regs, .lns] s t) ∧
  (∀ (n : Lane) (f : PbFrame) (data : BitVec 16) (check : BitVec 8) (s : State),
     (s.ln n).bus = some f → f.kind = .read → f.source = .firmware → f.final = true → f.expect = none → pckRuns s n = true →
     check.toNat ≠ readCheck f data →
     ∃ t : State, exec (.pbusFrameEnd n data check) s = .next t ∧
       t.get (F.LNn_HL_STAT_BUS_CHECK n) = 1 ∧
       t.get (F.LNn_HL_CNT_CHECK_CNT n) = min (s.get (F.LNn_HL_CNT_CHECK_CNT n) + 1) (2 ^ (F.LNn_HL_CNT_CHECK_CNT n).width - 1) ∧
       (f.retried = false → s.on (F.LNn_PBUS_CTL_AUTO_RETRY n) = true → t.ln n =
           { s.ln n with bus := none, fwQ := { f with retried := true } :: (s.ln n).fwQ } ∧ t.reg (R.LNn_PBUS_RES n) = s.reg (R.LNn_PBUS_RES n)) ∧
       (f.retried = true ∨ s.on (F.LNn_PBUS_CTL_AUTO_RETRY n) = false → t.ln n = { s.ln n with bus := none, fwCrc := true, fwData := data } ∧ t.get
           (F.LNn_PBUS_RES_VALID n) = 1 ∧ t.get (F.LNn_PBUS_RES_CRC_ERR n) = 1 ∧ t.get (F.LNn_PBUS_RES_BUSY n) = 0) ∧
       (∀ m, m ≠ n → t.ln m = s.ln m) ∧
       regsKept [R.LNn_PBUS_RES n, R.LNn_HL_STAT n, R.LNn_HL_CNT n] s t ∧
       onlyParts [.regs, .lns, .ccx, .evr] s t) ∧
  (∀ (n : Lane) (f : PbFrame) (data : BitVec 16) (check : BitVec 8) (s : State),
     (s.ln n).bus = some f → f.kind = .write → f.source = .firmware → f.final = true → f.heats = [] → pckRuns s n = true →
     ∃ t : State, exec (.pbusFrameEnd n data check) s = .next t ∧
       (s.on (F.LNn_PBUS_CTL_VERIFY n) = true → t = s.setLn n { s.ln n with
             bus := none,
             fwQ := { f with kind := .read, bc := false, head := if f.bc then 0 else f.head, expect := some f.data, retried := false } ::
               (s.ln n).fwQ }) ∧
       (s.on (F.LNn_PBUS_CTL_VERIFY n) = false → t.ln n = { s.ln n with bus := none } ∧ t.get (F.LNn_PBUS_RES_VALID n) = 1 ∧ t.get
           (F.LNn_PBUS_RES_BUSY n) = 0) ∧
       (∀ m, m ≠ n → t.ln m = s.ln m) ∧
       regsKept [R.LNn_PBUS_RES n] s t ∧
       onlyParts [.regs, .lns] s t) ∧
  (∀ (n : Lane) (s : State),
     pckRuns s n = true →
     ∃ u : State, exec (.faultQualified n) s = .next (if s.get (F.LNn_STAT_WR_GATE n) = 1 then inhibit n 1 u else u) ∧
       u.get (F.LNn_HL_STAT_FAULT_SEEN n) = 1 ∧
       u.get (F.LNn_HL_CNT_FAULT_CNT n) = min (s.get (F.LNn_HL_CNT_FAULT_CNT n) + 1) (2 ^ (F.LNn_HL_CNT_FAULT_CNT n).width - 1) ∧
       u.get ((⟨R.MSn_INT n, 6, 0⟩ : Fld).bit 2) = 1 ∧
       u.ln n = { s.ln n with lastSent := [2, 3, 4].foldr (fun a m => smErase (64 * s.get (F.LNn_STAT_HEAD n) + a) m) (s.ln n).lastSent } ∧
       (∀ m, m ≠ n → u.ln m = s.ln m) ∧
       regsKept [R.LNn_HL_STAT n, R.LNn_HL_CNT n, R.MSn_INT n] s u ∧
       onlyParts [.regs, .lns, .ccx, .evr] s u) ∧
  (∀ (n : Lane) (s : State),
     pckRuns s n = false →
     exec (.faultQualified n) s = .next s) ∧
  (∀ (n : Lane) (s : State),
     s.get (F.LNn_BAUD_M_M n) ≠ 0 →
     ∃ t : State, exec (.pllRelock n) s = .next t ∧
       t.get (F.LNn_STAT_PLL_LOCK n) = 1 ∧
       t.get ((F.LNn_WR_STAT_INH_NOW n).bit 3) = 0 ∧
       (∀ b : Fin 6, b ≠ 3 → t.get ((F.LNn_WR_STAT_INH_NOW n).bit b.val) = s.get ((F.LNn_WR_STAT_INH_NOW n).bit b.val)) ∧
       t.on (F.LNn_WR_STAT_SQUELCH n) =
         (s.on (F.LNn_WR_STAT_SQUELCH n) && ((s.ln n).inh0 || (List.range 6).any (fun b => b != 3 && s.on ((F.LNn_WR_STAT_INH_NOW n).bit b)))) ∧
       regsKept [R.LNn_STAT n, R.LNn_WR_STAT n] s t ∧
       onlyParts [.regs] s t) ∧
  (∀ (n : Lane) (s : State),
     s.get (F.LNn_BAUD_M_M n) = 0 →
     exec (.pllRelock n) s = .next s)

/-- R91, R96, R97, R136, R145, R233, for the read-table and the write-table port of a lane. A write of DATA at an entry of the table applies at once
while none of the port's gates is open, and is held while one is; a write beyond the table's last entry changes no entry; a write while one is
held waits. A read returns the selected entry, zero beyond the last. Each access of DATA but one that waits advances INDEX with AUTOINC. When a
gate closes with no table write held and no drain, its bit clears, the gate's sector leaves it (one split by a servo field waits for its
continuation), head-enable bits held back clear once no gate is open, and the sequencer's view of a read or write gate becomes idle from its next
word. A read gate with ADAPT writes back the adapted taps of its set and else no table entry. A write gate's pair is squelched, and a sector not
selected for verify is placed then. A verify gate writes back the 32 cancellation taps where CANCEL_EN and CANCEL_ADAPT are set. A close of a
gate that is not open closes nothing. After each the outcomes are gathered and the chip settles (`afterOutcomes`). -/
def Obligations.TablePortsHoldWhileGateOpen : Prop :=
  (∀ (who : Req) (n : Lane) (addr : Nat) (w : Word) (wr : Bool) (auto tbl head zone index : Nat) (s : State),
     tablePort addr = some (n, wr, true) → earlyWrite s addr = false → laneBusy s addr = false →
     (if wr then (s.ln n).wheld else (s.ln n).held) = none → portGate s n wr = false → tableSel s n wr = (auto, tbl, head, zone, index) →
     tbl < (if wr then 3 else 4) → index < tableLen (if wr then tbl + 4 else tbl) →
     exec (.tableDataWrite who addr w) s = .next ((tableStep n wr
           (putEntry n (tableKey (cadence s) (if wr then tbl + 4 else tbl) head zone index) (w &&& tableMask (if wr then tbl + 4 else tbl) index) s)).answer
         .done)) ∧
  (∀ (who : Req) (n : Lane) (addr : Nat) (w : Word) (wr : Bool) (auto tbl head zone index : Nat) (s : State),
     tablePort addr = some (n, wr, true) → earlyWrite s addr = false → laneBusy s addr = false →
     (if wr then (s.ln n).wheld else (s.ln n).held) = none → portGate s n wr = true → tableSel s n wr = (auto, tbl, head, zone, index) →
     tbl < (if wr then 3 else 4) → index < tableLen (if wr then tbl + 4 else tbl) →
     ∃ t : State, exec (.tableDataWrite who addr w) s = .next (t.answer .done) ∧
       t = tableStep n wr (s.onLn n (fun l => if wr then
             { l with wheld := some (tableKey (cadence s) (tbl + 4) head zone index, w &&& tableMask (tbl + 4) index) } else
             { l with held := some (tableKey (cadence s) tbl head zone index, w &&& tableMask tbl index) })) ∧
       (t.ln n).tables = (s.ln n).tables ∧
       regsKept [if wr then R.LNn_WTBL_SEL n else R.LNn_TBL_SEL n] s t ∧
       onlyParts [.regs, .lns] s t) ∧
  (∀ (who : Req) (n : Lane) (addr : Nat) (w : Word) (wr : Bool) (auto tbl head zone index : Nat) (s : State),
     tablePort addr = some (n, wr, true) → earlyWrite s addr = false → laneBusy s addr = false →
     (if wr then (s.ln n).wheld else (s.ln n).held) = none → tableSel s n wr = (auto, tbl, head, zone, index) →
     (if wr then 3 else 4) ≤ tbl ∨ tableLen (if wr then tbl + 4 else tbl) ≤ index →
     exec (.tableDataWrite who addr w) s = .next ((tableStep n wr s).answer .done)) ∧
  (∀ (who : Req) (n : Lane) (addr : Nat) (w : Word) (wr : Bool) (s : State),
     tablePort addr = some (n, wr, true) → earlyWrite s addr = false → laneBusy s addr = false →
     (if wr then (s.ln n).wheld else (s.ln n).held).isSome = true →
     exec (.tableDataWrite who addr w) s = .next ((s.onLn n (fun l => { l with waitT := l.waitT ++ [(addr, w)] })).answer .done)) ∧
  (∀ (who : Req) (n : Lane) (addr : Nat) (wr : Bool) (auto tbl head zone index : Nat) (s : State),
     tablePort addr = some (n, wr, true) → tableSel s n wr = (auto, tbl, head, zone, index) →
     exec (.tableDataRead who addr) s = .next
       ((tableStep n wr s).answer (.value (if tbl < 4 then tableGet s n (if wr then tbl + 4 else tbl) head zone index else 0)))) ∧
  (∀ (n : Lane) (s : State),
     (tableStep n false s).get (F.LNn_TBL_SEL_INDEX n) = (s.get (F.LNn_TBL_SEL_INDEX n) + s.get (F.LNn_TBL_SEL_AUTOINC n)) % 2 ^
       (F.LNn_TBL_SEL_INDEX n).width ∧
     (tableStep n true s).get (F.LNn_WTBL_SEL_INDEX n) = (s.get (F.LNn_WTBL_SEL_INDEX n) + s.get (F.LNn_WTBL_SEL_AUTOINC n)) % 2 ^
       (F.LNn_WTBL_SEL_INDEX n).width ∧
     regsKept [R.LNn_TBL_SEL n] s (tableStep n false s) ∧
     regsKept [R.LNn_WTBL_SEL n] s (tableStep n true s) ∧
     onlyParts [.regs] s (tableStep n false s) ∧
     onlyParts [.regs] s (tableStep n true s)) ∧
  (∀ (n : Lane) (d : Sector) (taps : List Word) (s : State),
     (s.ln n).vgate = some d → (s.ln n).held = none → (s.ln n).wheld = none → (s.ln n).waitT = [] → (s.ln n).drain = false →
     ∃ u : State, exec (.gateClose n .verify taps) s = .next (afterOutcomes u) ∧
       u.get (F.LNn_WR_STAT_VFY_GATE n) = 0 ∧
       ((s.on (F.LNn_WR_CTL_CANCEL_EN n) && s.on (F.LNn_WR_CTL_CANCEL_ADAPT n)) = false → u.ln n =
           { s.ln n with vgate := none, enHeld := if (s.ln n).gate.isNone then 0 else (s.ln n).enHeld }) ∧
       (s.on (F.LNn_WR_CTL_CANCEL_EN n) = true → s.on (F.LNn_WR_CTL_CANCEL_ADAPT n) = true → u.ln n = {
             (writeBack n 6 d.head.toNat 0 ((List.range (min 32 taps.length)).map (fun i => (i, taps.getD i 0))) s).ln n with
             vgate := none, enHeld := if (s.ln n).gate.isNone then 0 else (s.ln n).enHeld }) ∧
       (∀ m, m ≠ n → u.ln m = s.ln m) ∧
       regsKept [R.LNn_WR_STAT n] s u ∧
       onlyParts [.regs, .lns] s u) ∧
  (∀ (n : Lane) (d : Sector) (taps : List Word) (s : State),
     (s.ln n).gate = some d → s.get (F.LNn_STAT_RD_GATE n) = 1 → (s.ln n).held = none → (s.ln n).wheld = none → (s.ln n).waitT = [] →
     (s.ln n).drain = false →
     ∃ u : State, exec (.gateClose n .read taps) s = .next (afterOutcomes u) ∧
       u.get (F.LNn_STAT_RD_GATE n) = 0 ∧
       ((∀ f, d.front = some f → f.adapt = false) → u.ln n = { s.ln n with
             gate := none, cont := if closesAtSplit s d then some { d with part := 1 } else none,
             enHeld := if (s.ln n).vgate.isNone then 0 else (s.ln n).enHeld }) ∧
       (∀ f, d.front = some f → f.adapt = true → f.only = none → 48 ≤ taps.length → (u.ln n).tables =
           ((writeBack n 3 d.head.toNat d.zone ((List.range 48).map (fun i => (48 * f.set + i, taps.getD i 0))) s).ln n).tables) ∧
       u.ms n = { s.ms n with nxt := { (s.ms n).nxt with gate := 0 } } ∧
       (∀ m, m ≠ n → u.ln m = s.ln m ∧ u.ms m = s.ms m) ∧
       regsKept [R.LNn_STAT n] s u ∧
       onlyParts [.regs, .lns, .mss] s u) ∧
  (∀ (n : Lane) (d : Sector) (taps : List Word) (s : State),
     (s.ln n).gate = some d → s.get (F.LNn_STAT_WR_GATE n) = 1 → (s.ln n).held = none → (s.ln n).wheld = none → (s.ln n).waitT = [] →
     (s.ln n).drain = false →
     ∃ u : State, exec (.gateClose n .write taps) s = .next (afterOutcomes (if closesAtSplit s d || d.verify then u else sectorPlaced n d u)) ∧
       u.get (F.LNn_STAT_WR_GATE n) = 0 ∧
       u.sent = s.sent ++ [.squelched n] ∧
       u.ln n = { s.ln n with
           gate := none, cont := if closesAtSplit s d then some { d with part := 1 } else none,
           enHeld := if (s.ln n).vgate.isNone then 0 else (s.ln n).enHeld } ∧
       u.ms n = { s.ms n with nxt := { (s.ms n).nxt with gate := 0 } } ∧
       (∀ m, m ≠ n → u.ln m = s.ln m ∧ u.ms m = s.ms m) ∧
       regsKept [R.LNn_STAT n] s u ∧
       onlyParts [.regs, .lns, .mss, .sent] s u) ∧
  (∀ (n : Lane) (taps : List Word) (s : State),
     (s.get (F.LNn_STAT_RD_GATE n) = 0 → exec (.gateClose n .read taps) s = .next (afterOutcomes s)) ∧
     (s.get (F.LNn_STAT_WR_GATE n) = 0 → exec (.gateClose n .write taps) s = .next (afterOutcomes s)) ∧
     ((s.ln n).vgate = none → exec (.gateClose n .verify taps) s = .next (afterOutcomes s)))

/-- R30, R105, R108, R110, R113, R115, R121, R124, R236: a codeword asks for an engine with the LLRs that the wave gives under its gate's settings
(here without a spill or a combination of spilled reads). A held engine with a free buffer takes it; else it waits and GRANT_WAIT counts. With
more than 9,600 entries in the soft FIFO it overflows and asks nothing. With a free engine a token goes to the oldest request that may start, and
the pointer moves past its lane. Where an engine's decode ends, its codeword leaves it, and the engine's buffer is freed. A verify decode leaves
its outcome and information part for the comparison; a read decoded on the fly outside a parity group is handed to BUF under the LBA of its tag
and its outcome goes to the sequencer. An idle engine with a memory fault loses its token, is counted, raises interrupt line 35 and is a lost
unit; a lost engine stays. A counted ladder attempt that leaves a sector failing within the budget moves to the next attempt of rung 1; an
abandoned or spoiled attempt is made again without a count. -/
def Obligations.DecoderPoolGrantsAndDelivers : Prop :=
  (∀ (n : Lane) (kind : DecodeFor) (d : Sector) (rest : List Sector) (fifo : Nat) (wave : Wave) (s : State),
     kind ≠ .verify → (s.ln n).reads = d :: rest → fifo ≤ 9600 → (kind = .retry → (s.ln n).det.getLsbD 2 = false ∧ d.spillSum = false) →
     heldEngine s n = none ∨ mayDecode s ⟨n, kind, d, [], 0⟩ = false →
     ∃ t : State, exec (.tokenRequest n kind fifo wave) s = .next t ∧
       (t.ln n).reads = rest ∧
       t.ldp = { s.ldp with waiting := s.ldp.waiting ++ [⟨n, kind, d, llrsOf s n kind d wave, s.now⟩] } ∧
       t.get F.LDP_CNT0_GRANT_WAIT = min (s.get F.LDP_CNT0_GRANT_WAIT + 1) (2 ^ F.LDP_CNT0_GRANT_WAIT.width - 1) ∧
       (∀ m, m ≠ n → t.ln m = s.ln m) ∧
       regsKept [R.LDP_CNT0] s t ∧
       onlyParts [.regs, .lns, .ldp] s t) ∧
  (∀ (n : Lane) (d : Sector) (fifo : Nat) (wave : Wave) (s : State),
     nextCodeword n .verify s = some (d, s) → fifo ≤ 9600 → heldEngine s n = none →
     ∃ t : State, exec (.tokenRequest n .verify fifo wave) s = .next t ∧
       t.ldp = { s.ldp with waiting := s.ldp.waiting ++ [⟨n, .verify, d, llrsOf s n .verify d wave, s.now⟩] } ∧
       t.get F.LDP_CNT0_GRANT_WAIT = min (s.get F.LDP_CNT0_GRANT_WAIT + 1) (2 ^ F.LDP_CNT0_GRANT_WAIT.width - 1) ∧
       (t.ln n).awaiting = (s.ln n).awaiting ∧
       regsKept [R.LDP_CNT0] s t ∧
       onlyParts [.regs, .lns, .ldp] s t) ∧
  (∀ (n : Lane) (k : Fin 12) (kind : DecodeFor) (d : Sector) (rest : List Sector) (fifo : Nat) (wave : Wave) (s : State),
     kind ≠ .verify → (s.ln n).reads = d :: rest → fifo ≤ 9600 → (kind = .retry → (s.ln n).det.getLsbD 2 = false ∧ d.spillSum = false) →
     heldEngine s n = some k → mayDecode s ⟨n, kind, d, [], 0⟩ = true →
     ∃ t : State, exec (.tokenRequest n kind fifo wave) s = .next t ∧
       (t.ln n).reads = rest ∧
       t.engine k = { s.engine k with jobs := (s.engine k).jobs ++ [⟨n, kind, d, llrsOf s n kind d wave, s.now⟩] } ∧
       (∀ i, i ≠ k → t.engine i = s.engine i) ∧
       t.ldp.waiting = s.ldp.waiting ∧
       t.get (F.LDP_ENG_BUSY_BUSY.bit k) = 1 ∧
       regsKept [R.LDP_TOK_STAT, R.LDP_ENG_BUSY] s t ∧
       onlyParts [.regs, .lns, .ldp] s t) ∧
  (∀ (n : Lane) (d : Sector) (rest : List Sector) (fifo : Nat) (wave : Wave) (s : State),
     (s.ln n).reads = d :: rest → 9600 < fifo →
     ∃ t : State, exec (.tokenRequest n .otf fifo wave) s = .next t ∧
       (t.ln n).reads = rest ∧
       t.get (F.GLB_FIFO_OVF_LN_SOFT_OVF.bit n) = 1 ∧
       t.get (F.MSn_CNT_SLIPS n) = min (s.get (F.MSn_CNT_SLIPS n) + 1) (2 ^ (F.MSn_CNT_SLIPS n).width - 1) ∧
       (t.ms n).events = (s.ms n).events ++ [msEvent 0x07 n d.head.toNat d.track d.index] ∧
       t.ldp = s.ldp) ∧
  (∀ (k : Fin 12) (j : DecodeJob) (s : State),
     engineIds.find? (fun k => decide ((s.engine k).token = .free)) = some k → nextGranted s = some j →
     ∃ t : State, exec .tokenGrant s = .next t ∧
       t.engine k = ⟨.lane j.lane, [j]⟩ ∧
       t.ldp.waiting = s.ldp.waiting.erase j ∧
       t.ldp.pointer = (j.lane.val + 1) % 4 ∧
       (∀ i, i ≠ k → t.engine i = s.engine i) ∧
       regsKept [R.LDP_TOK_STAT, R.LDP_ENG_BUSY] s t ∧
       onlyParts [.regs, .ldp] s t) ∧
  (∀ (j : DecodeJob) (s : State),
     (∀ i ∈ s.ldp.waiting, mayDecode s i = true) → nextGranted s = some j →
     j ∈ s.ldp.waiting ∧
     (∀ i ∈ s.ldp.waiting, j.asked ≤ i.asked)) ∧
  (∀ (k : Fin 12) (j : DecodeJob) (rest : List DecodeJob) (r : Decoded) (s : State),
     (s.engine k).jobs = j :: rest →
     exec (.decodeDone k r) s = .next (afterOutcomes (
           (match j.kind with | .otf => otfEnd j.lane j.sector j.llrs | .retry => retryEnd j.lane j.sector | .verify => verifyEnd j.lane j.sector)
           (outcomeOf s j (decodeBudget s j) r) r (freeBuffer k j.lane (s.setEngine k { s.engine k with jobs := rest }))))) ∧
  (∀ (k : Fin 12) (n : Lane) (d : Sector) (llrs : List Int) (asked : Dword) (r : Decoded) (s : State),
     (s.engine k).jobs = [⟨n, .verify, d, llrs, asked⟩] → s.ldp.waiting = [] → (s.ln n).lost.any (fun e => e.same d) = false →
     ∃ u : State, exec (.decodeDone k r) s = .next (afterOutcomes u) ∧
       (u.ln n).compared = (s.ln n).compared ++
         [(d, decide (outcomeOf s ⟨n, .verify, d, llrs, asked⟩ (decodeBudget s ⟨n, .verify, d, llrs, asked⟩) r = 0), r.info)] ∧
       (u.engine k).jobs = [] ∧
       (∀ m, m ≠ n → u.ln m = s.ln m) ∧
       onlyParts [.regs, .lns, .ldp, .tly] s u) ∧
  (∀ (k : Fin 12) (n : Lane) (d : Sector) (llrs : List Int) (asked : Dword) (rest : List DecodeJob) (r : Decoded) (s : State),
     (s.engine k).jobs = ⟨n, .otf, d, llrs, asked⟩ :: rest →
     outcomeOf s ⟨n, .otf, d, llrs, asked⟩ (decodeBudget s ⟨n, .otf, d, llrs, asked⟩) r = 0 → sectorGroup s d = none →
     ∃ u : State, exec (.decodeDone k r) s = .next (afterOutcomes u) ∧
       u.ldp.handed = s.ldp.handed ++
         [⟨n.val, d, some (unle ((r.info.drop (r.info.length - 32)).take 8)), ((r.info.drop (r.info.length - 32)).getD 19 0).getLsbD 0, r.info⟩] ∧
       (u.ms n).cmd = (s.ms n).cmd ++ [msEntry 0xFF (indexInTransfer s n d) 0 r.iters 0 0] ∧
       (∀ m, m ≠ n → u.ms m = s.ms m) ∧
       u.lns = s.lns ∧
       onlyParts [.regs, .ldp, .tly, .mss, .rly] s u) ∧
  (∀ (k : Fin 12) (r : Decoded) (s : State),
     (s.engine k).jobs = [] →
     exec (.decodeDone k r) s = .next (afterOutcomes s)) ∧
  (∀ (k : Fin 12) (s : State),
     (s.engine k).token ≠ .lost → (s.engine k).jobs = [] →
     ∃ u : State, exec (.engineFault k) s = .next ((levelTokens u).loseUnit0 (16 + k)) ∧
       u.engine k = ⟨.lost, []⟩ ∧
       u.get F.LDP_CNT0_ENG_FAULT = min (s.get F.LDP_CNT0_ENG_FAULT + 1) (2 ^ F.LDP_CNT0_ENG_FAULT.width - 1) ∧
       u.ccx.irq.getLsbD 35 = true ∧
       (∀ i, i ≠ k → u.engine i = s.engine i) ∧
       regsKept [R.LDP_CNT0] s u ∧
       onlyParts [.regs, .ldp, .ccx] s u) ∧
  (∀ (k : Fin 12) (s : State),
     (s.engine k).token = .lost →
     exec (.engineFault k) s = .next s) ∧
  (∀ (n : Lane) (l : Ladder) (d : Sector) (rest : List Sector) (s : State),
     (s.ln n).ladder = some l → l.failing = d :: rest → l.spoiled = false → s.get (F.LNn_RTY_STAT_RUNG n) = 1 →
     s.get (F.LNn_RTY_STAT_REVS n) < 255 → s.get (F.LNn_RTY_STAT_REVS n) + 1 < s.get (F.LNn_RTY_CFG_LIMIT n) →
     s.get (F.LNn_RTY_STAT_ATTEMPT n) < rungAttempts s n l.limited (ladderParity s l) 1 →
     ∃ u : State, exec (.ladderAttemptEnd n .done) s = .next (afterOutcomes u) ∧
       u.get (F.LNn_RTY_STAT_REVS n) = s.get (F.LNn_RTY_STAT_REVS n) + 1 ∧
       u.get (F.LNn_RTY_STAT_RUNG n) = 1 ∧
       u.get (F.LNn_RTY_STAT_ATTEMPT n) = (s.get (F.LNn_RTY_STAT_ATTEMPT n) + 1) % 2 ^ (F.LNn_RTY_STAT_ATTEMPT n).width ∧
       u.ln n = { s.ln n with ovr := none } ∧
       (∀ m, m ≠ n → u.ln m = s.ln m) ∧
       regsKept [R.LNn_RTY_STAT n] s u ∧
       onlyParts [.regs, .lns] s u) ∧
  (∀ (n : Lane) (l : Ladder) (ended : LadderEnd) (s : State),
     (s.ln n).ladder = some l → ended = .abandoned ∨ l.spoiled = true →
     exec (.ladderAttemptEnd n ended) s = .next (afterOutcomes (s.setLn n { s.ln n with ladder := some { l with spoiled := false } })))

/-- R30, R133, R140 to R146, R149, R429. The verify gate opens for the next sector due, with the settings of the verify reader. A decoded sector that
compares equal with what was written (the second fetch under the tag of the write, the accumulators' bytes for parity) is counted and placed; one
that differs misses. Without an outcome a sampled sector is skipped, is placed and leaves SAMPLE_CNT at N - 1, and another misses. A missed
sector, and an interrupted one whose source has cleared, is written again with the same data and tag where a write gate may open
(`writeMayOpen`): the gate opens, the bits leave and the sequencer is told; an interrupted one without revolutions of retry left is relocated. An
inhibit source that may assert sets its INH_NOW and INH_SEEN bits and SQUELCH, and inside a write gate closes the gate and counts it; one that
may not changes nothing. It ends when its resume condition holds, and SQUELCH with the last of them; source 4 does not end. An underrun of the
write-data FIFO inhibits an open write gate by source 2, and where lane streams still waited for a grant it is recorded as starvation. -/
def Obligations.WritePathVerifiesInhibitsAndRewrites : Prop :=
  (∀ (n : Lane) (d : Sector) (rest : List Sector) (s : State),
     (s.ln n).vdue = d :: rest → (s.ln n).vgate = none →
     ∃ t : State, exec (.verifyGateOpen n) s = .next t ∧
       t.get (F.LNn_WR_STAT_VFY_GATE n) = 1 ∧
       (t.ln n).vgate = some { d with front := some (verifyFront s n d.head.toNat d.zone) } ∧
       (t.ln n).vdue = rest ∧
       (∀ m, m ≠ n → t.ln m = s.ln m) ∧
       regsKept [R.LNn_WR_STAT n] s t ∧
       onlyParts [.regs, .lns] s t) ∧
  (∀ (n : Lane) (s : State),
     (s.ln n).vdue = [] ∨ (s.ln n).vgate.isSome = true →
     exec (.verifyGateOpen n) s = .next s) ∧
  (∀ (n : Lane) (d : Sector) (info second : List Byte) (rest : List (Sector × Bool × List Byte)) (s : State),
     (s.ln n).compared = (d, true, info) :: rest → (s.ln n).awaiting.any (fun e => e.same d) = true →
     info = infoPart n d (parityKind s d) (if parityKind s d = 0 then second else d.data) →
     ∃ u : State, exec (.verifyOutcome n (.compared second)) s = .next (afterOutcomes (sectorPlaced n d u)) ∧
       u.ln n = { s.ln n with
           compared := rest, awaiting := (s.ln n).awaiting.filter (fun e => !e.same d), lost := (s.ln n).lost.filter (fun e => !e.same d) } ∧
       (∀ m, m ≠ n → u.ln m = s.ln m) ∧
       u.get (F.LNn_VFY_CNT0_VERIFIED n) = min (s.get (F.LNn_VFY_CNT0_VERIFIED n) + 1) (2 ^ (F.LNn_VFY_CNT0_VERIFIED n).width - 1) ∧
       regsKept [R.LNn_VFY_CNT0 n, R.LNn_VFY_STAT n] s u ∧
       onlyParts [.regs, .lns] s u) ∧
  (∀ (n : Lane) (d : Sector) (ok : Bool) (info second : List Byte) (rest : List (Sector × Bool × List Byte)) (s : State),
     (s.ln n).compared = (d, ok, info) :: rest → (s.ln n).awaiting.any (fun e => e.same d) = true →
     ok = false ∨ info ≠ infoPart n d (parityKind s d) (if parityKind s d = 0 then second else d.data) →
     ∃ u : State, exec (.verifyOutcome n (.compared second)) s = .next (afterOutcomes (verifyMiss n d u)) ∧
       u.ln n = { s.ln n with
           compared := rest, awaiting := (s.ln n).awaiting.filter (fun e => !e.same d), lost := (s.ln n).lost.filter (fun e => !e.same d) } ∧
       (∀ m, m ≠ n → u.ln m = s.ln m) ∧
       regsKept [R.LNn_VFY_STAT n] s u ∧
       onlyParts [.regs, .lns] s u) ∧
  (∀ (n : Lane) (d : Sector) (rest : List Sector) (s : State),
     (s.ln n).lost = d :: rest →
     ∃ u : State, exec (.verifyOutcome n .noOutcome) s = .next (afterOutcomes (if d.sampled then sectorPlaced n d u else verifyMiss n d u)) ∧
       u.ln n = { s.ln n with awaiting := (s.ln n).awaiting.filter (fun e => !e.same d), lost := (s.ln n).lost.filter (fun e => !e.same d) } ∧
       (d.sampled = true → u.get (F.LNn_VFY_CNT1_SKIPPED n) = min (s.get (F.LNn_VFY_CNT1_SKIPPED n) + 1) (2 ^ (F.LNn_VFY_CNT1_SKIPPED n).width - 1)
           ∧ u.get (F.LNn_VFY_STAT_SAMPLE_CNT n) = (verifyN s n d - 1) % 2 ^ (F.LNn_VFY_STAT_SAMPLE_CNT n).width) ∧
       (∀ m, m ≠ n → u.ln m = s.ln m) ∧
       regsKept (if d.sampled then [R.LNn_VFY_STAT n, R.LNn_VFY_CNT1 n] else [R.LNn_VFY_STAT n]) s u ∧
       onlyParts [.regs, .lns] s u) ∧
  (∀ (n : Lane) (d : Sector) (rest : List Sector) (s : State),
     (s.ln n).rewrites = d :: rest → writeMayOpen s n d = true → s.get (F.LNn_WR_STAT_INH_NOW n) = 0 → (s.ln n).inh0 = false →
     ∃ t : State, exec (.sectorRewrite n) s = .next t ∧
       (t.ln n).rewrites = rest ∧
       t.get (F.LNn_VFY_CNT1_REWRITTEN n) = min (s.get (F.LNn_VFY_CNT1_REWRITTEN n) + 1) (2 ^ (F.LNn_VFY_CNT1_REWRITTEN n).width - 1) ∧
       t.get (F.LNn_STAT_WR_GATE n) = 1 ∧
       (t.ln n).gate.map (fun g => { g with verify := false, sampled := false, cnt := 0, front := none, part := 0 }) = some
         { d with verify := false, sampled := false, cnt := 0, front := none, part := 0 } ∧
       (t.ms n).events = (s.ms n).events ++ [msEvent 0x03 n d.head.toNat d.track d.index] ∧
       (∃ p w, t.sent = s.sent ++ [.sector n d.head.toNat d.track d.index (infoPart n d (parityKind s d) d.data) p w]) ∧
       (∀ m, m ≠ n → t.ln m = s.ln m ∧ t.ms m = s.ms m) ∧
       regsKept [R.LNn_VFY_CNT1 n, R.LNn_VFY_STAT n, R.LNn_STAT n] s t ∧
       onlyParts [.regs, .lns, .mss, .ccx, .sent] s t) ∧
  (∀ (n : Lane) (d : Sector) (rest : List Sector) (s : State),
     (s.ln n).cut = d :: rest → s.get (F.LNn_WR_STAT_INH_NOW n) = 0 → (s.ln n).inh0 = false →
     writeMayOpen s n { d with revs := d.revs + 1 } = true →
     ∃ u : State, exec (.interruptedRewrite n) s = .next (afterOutcomes u) ∧
       (u.ln n).cut = rest ∧
       u.get (F.LNn_STAT_WR_GATE n) = 1 ∧
       (u.ln n).gate.map (fun g => { g with verify := false, sampled := false, cnt := 0, front := none, part := 0 }) = some
         { d with revs := d.revs + 1, verify := false, sampled := false, cnt := 0, front := none, part := 0 } ∧
       (u.ms n).events = (s.ms n).events ++ [msEvent 0x03 n d.head.toNat d.track d.index] ∧
       (∃ p w, u.sent = s.sent ++ [.sector n d.head.toNat d.track d.index (infoPart n d (parityKind s d) d.data) p w]) ∧
       (∀ m, m ≠ n → u.ln m = s.ln m ∧ u.ms m = s.ms m) ∧
       regsKept [R.LNn_VFY_STAT n, R.LNn_STAT n] s u ∧
       onlyParts [.regs, .lns, .mss, .ccx, .sent] s u) ∧
  (∀ (n : Lane) (d : Sector) (rest : List Sector) (s : State),
     (s.ln n).cut = d :: rest → s.get ((F.LNn_WR_STAT_INH_NOW n).bit d.source) = 1 →
     exec (.interruptedRewrite n) s = .next (afterOutcomes (if s.get (F.LNn_WR_CTL_WR_RETRY n) ≤ d.revs + 1 then relocateSector n
           { d with revs := d.revs + 1 } (s.setLn n { s.ln n with cut := rest }) else s.setLn n
           { s.ln n with cut := { d with revs := d.revs + 1 } :: rest }))) ∧
  (∀ (n : Lane) (src : Fin 6) (s : State),
     s.get (F.LNn_STAT_WR_GATE n) = 0 → (s.ln n).vgate = none →
     (src = 0) ∨ (src = 3 ∧ s.on (F.LNn_STAT_PLL_LOCK n) = false) ∨ (src = 4 ∧ s.on F.GLB_MODE_COND_POWER_FAIL = true) ∨
       (src = 5 ∧ s.on (F.LNn_WR_CTL_INHIBIT n) = true) →
     ∃ t : State, exec (.writeInhibit n src) s = .next t ∧
       t.get ((F.LNn_WR_STAT_INH_NOW n).bit src) = 1 ∧
       t.get (F.LNn_WR_STAT_SQUELCH n) = 1 ∧
       t.get ((F.LNn_WFLT_STAT_INH_SEEN n).bit src) = 1 ∧
       (src = 5 → t.lns = s.lns) ∧
       (src = 0 → (t.ln n).inh0 = true ∧ (t.ln n).safeWedges = 0) ∧
       (src ≠ 5 → (t.ln n).vdue = [] ∧ (t.ln n).lost = (s.ln n).lost ++ (s.ln n).vdue) ∧
       (∀ m, m ≠ n → t.ln m = s.ln m) ∧
       regsKept [R.LNn_WR_STAT n, R.LNn_WFLT_STAT n] s t ∧
       onlyParts [.regs, .lns, .ccx, .evr] s t) ∧
  (∀ (n : Lane) (src : Fin 6) (d : Sector) (s : State),
     s.get (F.LNn_STAT_WR_GATE n) = 1 → (s.ln n).gate = some d →
     (src ≤ 2) ∨ (src = 3 ∧ s.on (F.LNn_STAT_PLL_LOCK n) = false) ∨ (src = 4 ∧ s.on F.GLB_MODE_COND_POWER_FAIL = true) ∨
       (src = 5 ∧ s.on (F.LNn_WR_CTL_INHIBIT n) = true) →
     ∃ t : State, exec (.writeInhibit n src) s = .next t ∧
       t.get (F.LNn_STAT_WR_GATE n) = 0 ∧
       (t.ln n).gate = none ∧
       t.get ((F.LNn_WR_STAT_INH_NOW n).bit src) = 1 ∧
       t.get (F.LNn_WR_STAT_SQUELCH n) = 1 ∧
       t.get ((F.LNn_WFLT_STAT_INH_SEEN n).bit src) = 1 ∧
       t.get (F.LNn_WR_CNT_INTERRUPTED n) = min (s.get (F.LNn_WR_CNT_INTERRUPTED n) + 1) (2 ^ (F.LNn_WR_CNT_INTERRUPTED n).width - 1) ∧
       t.get ((⟨R.MSn_INT n, 6, 0⟩ : Fld).bit 3) = 1 ∧
       t.sent = s.sent ++ [.squelched n]) ∧
  (∀ (n : Lane) (src : Fin 6) (s : State),
     ((src = 1 ∨ src = 2) ∧ s.on (F.LNn_STAT_WR_GATE n) = false) ∨ (src = 3 ∧ s.on (F.LNn_STAT_PLL_LOCK n) = true) ∨
       (src = 4 ∧ s.on F.GLB_MODE_COND_POWER_FAIL = false) ∨ (src = 5 ∧ s.on (F.LNn_WR_CTL_INHIBIT n) = false) →
     exec (.writeInhibit n src) s = .next s) ∧
  (∀ (n : Lane) (src : Fin 6) (s : State),
     mayResume s n src = true →
     ∃ t : State, exec (.inhibitResume n src) s = .next t ∧
       t.get ((F.LNn_WR_STAT_INH_NOW n).bit src) = 0 ∧
       (∀ b : Fin 6, b ≠ src → t.get ((F.LNn_WR_STAT_INH_NOW n).bit b.val) = s.get ((F.LNn_WR_STAT_INH_NOW n).bit b.val)) ∧
       t.ln n = { s.ln n with inh0 := if src = 0 then false else (s.ln n).inh0 } ∧
       t.on (F.LNn_WR_STAT_SQUELCH n) = (s.on (F.LNn_WR_STAT_SQUELCH n) && ((t.ln n).inh0 || t.on (F.LNn_WR_STAT_INH_NOW n))) ∧
       (∀ m, m ≠ n → t.ln m = s.ln m) ∧
       regsKept [R.LNn_WR_STAT n] s t ∧
       onlyParts [.regs, .lns] s t) ∧
  (∀ (n : Lane) (src : Fin 6) (s : State),
     mayResume s n src = false →
     exec (.inhibitResume n src) s = .next s) ∧
  (∀ (n : Lane) (s : State),
     s.on (F.LNn_STAT_WR_GATE n) = true →
     ∃ u : State, exec (.writeFifoUnderrun n) s = .next (inhibit n 2 u) ∧
       u.get (F.GLB_FIFO_OVF_LN_WR_UNDER.bit n) = 1 ∧
       (((s.buf.waiting.get 0).get 1 || (s.buf.waiting.get 1).get 1) = false → regsKept [R.GLB_FIFO_OVF] s u) ∧
       (((s.buf.waiting.get 0).get 1 || (s.buf.waiting.get 1).get 1) = true → u.get F.BUF_FLT_LANE_STARVE = 1 ∧ u.get F.BUF_ARB_CNT_LANE_STARVE =
           min (s.get F.BUF_ARB_CNT_LANE_STARVE + 1) (2 ^ F.BUF_ARB_CNT_LANE_STARVE.width - 1)) ∧
       onlyParts [.regs, .ccx, .evr] s u) ∧
  (∀ (n : Lane) (s : State),
     s.on (F.LNn_STAT_WR_GATE n) = false →
     exec (.writeFifoUnderrun n) s = .next s)

/-- R181, R192, R194, R195, R632, for an engine whose registers accept the write. Enabling sets ENABLE and takes an engine from OFF to PARKED, its
measured intervals dropped; disabling clears ENABLE and takes an engine from every other state to OFF, where retract frames with EMER_V begin. A
load begins in PARKED with the spindle at speed; an unload in SEEK, SETTLE or FOLLOW, with the limits latched anew but from SEEK; a retract in
every state but OFF, PARKED and FAULT; a clear-fault takes FAULT to PARKED with the motion link up, of a lost lane too. Each command is refused
with CMD_REJ elsewhere. The chip then settles. The other engines stay in their states. -/
def Obligations.ServoCommandsMoveTheEngine : Prop :=
  (∀ (n : Lane) (s : State),
     s.accepts (R.SVn_CTL n) = true → motionState s n = Mo.off →
     ∃ u : State, exec (.servoEnable n) s = .next (u.settle.answer .done) ∧
       u.get (F.SVn_CTL_ENABLE n) = 1 ∧
       motionState u n = Mo.parked ∧
       (u.sv n).intervals = [] ∧
       (u.sv n).offRetract = false ∧
       (∀ m, m ≠ n → motionState u m = motionState s m) ∧
       onlyParts [.regs, .evr, .tly, .ccx, .lns, .mss, .svs, .rly, .reports, .sent, .freeN] s u) ∧
  (∀ (n : Lane) (s : State),
     s.accepts (R.SVn_CTL n) = true → motionState s n ≠ Mo.off →
     exec (.servoEnable n) s = .next ((s.put (F.SVn_CTL_ENABLE n) 1).settle.answer .done)) ∧
  (∀ (n : Lane) (s : State),
     s.accepts (R.SVn_CTL n) = true → motionState s n = Mo.off →
     exec (.servoDisable n) s = .next ((s.put (F.SVn_CTL_ENABLE n) 0).settle.answer .done)) ∧
  (∀ (n : Lane) (s : State),
     s.accepts (R.SVn_CTL n) = true → motionState s n ≠ Mo.off →
     ∃ u : State, exec (.servoDisable n) s = .next (u.settle.answer .done) ∧
       u.get (F.SVn_CTL_ENABLE n) = 0 ∧
       motionState u n = Mo.off ∧
       (u.sv n).plan = none ∧
       (u.sv n).offRetract = true ∧
       (∀ m, m ≠ n → motionState u m = motionState s m) ∧
       onlyParts [.regs, .evr, .tly, .ccx, .lns, .mss, .svs, .rly, .reports, .sent, .freeN] s u) ∧
  (∀ (n : Lane) (s : State),
     earlyWrite s (R.SVn_PACE_CMD n) = false → laneBusy s (R.SVn_PACE_CMD n) = false → unitAbsent s (R.SVn_PACE_CMD n) = false →
     s.glb.lost0.getLsbD (12 + n) = false → motionState s n = Mo.parked → speedReady s = true →
     ∃ u : State, exec (.load n) s = .next (u.settle.answer .done) ∧
       motionState u n = Mo.loading ∧
       (u.sv n).attempt = 1 ∧
       (u.sv n).loadAt = s.now.toNat ∧
       (u.sv n).plan = none ∧
       (∀ m, m ≠ n → motionState u m = motionState s m) ∧
       onlyParts [.regs, .evr, .tly, .ccx, .lns, .mss, .svs, .rly, .reports, .sent, .freeN] s u) ∧
  (∀ (n : Lane) (s : State),
     earlyWrite s (R.SVn_PACE_CMD n) = false → laneBusy s (R.SVn_PACE_CMD n) = false → unitAbsent s (R.SVn_PACE_CMD n) = false →
     s.glb.lost0.getLsbD (12 + n) = false → motionState s n ≠ Mo.parked ∨ speedReady s = false →
     exec (.load n) s = .next ((s.flag (F.SVn_PACE_STAT_CMD_REJ n)).settle.answer .done)) ∧
  (∀ (n : Lane) (s : State),
     earlyWrite s (R.SVn_PACE_CMD n) = false → laneBusy s (R.SVn_PACE_CMD n) = false → unitAbsent s (R.SVn_PACE_CMD n) = false →
     s.glb.lost0.getLsbD (12 + n) = false → motionState s n = Mo.follow ∨ motionState s n = Mo.settle ∨ motionState s n = Mo.seek →
     ∃ u : State, exec (.unload n) s = .next (u.settle.answer .done) ∧
       motionState u n = Mo.unloading ∧
       (u.sv n).unloadDue = true ∧
       (u.sv n).uldEnded = false ∧
       (u.sv n).target = none ∧
       (motionState s n ≠ Mo.seek → (u.sv n).vmax = max 1 (s.get (F.SVn_PACE_VMAX_VMAX n)) ∧ (u.sv n).amax = max 1 (s.get (F.SVn_PACE_AMAX_AMAX n))
           ∧ (u.sv n).jmax = max 1 (s.get (F.SVn_PACE_JMAX_JMAX n))) ∧
       (motionState s n = Mo.seek → (u.sv n).vmax = (s.sv n).vmax ∧ (u.sv n).amax = (s.sv n).amax ∧ (u.sv n).jmax = (s.sv n).jmax) ∧
       (∀ m, m ≠ n → motionState u m = motionState s m) ∧
       onlyParts [.regs, .evr, .tly, .ccx, .lns, .mss, .svs, .rly, .reports, .sent, .freeN] s u) ∧
  (∀ (n : Lane) (s : State),
     earlyWrite s (R.SVn_PACE_CMD n) = false → laneBusy s (R.SVn_PACE_CMD n) = false → unitAbsent s (R.SVn_PACE_CMD n) = false →
     s.glb.lost0.getLsbD (12 + n) = false → motionState s n ∉ [Mo.seek, Mo.settle, Mo.follow] →
     exec (.unload n) s = .next ((s.flag (F.SVn_PACE_STAT_CMD_REJ n)).settle.answer .done)) ∧
  (∀ (n : Lane) (s : State),
     earlyWrite s (R.SVn_PACE_CMD n) = false → laneBusy s (R.SVn_PACE_CMD n) = false → unitAbsent s (R.SVn_PACE_CMD n) = false →
     s.glb.lost0.getLsbD (12 + n) = false → motionState s n ∉ [Mo.off, Mo.parked, Mo.fault] →
     ∃ u : State, exec (.retract n) s = .next (u.settle.answer .done) ∧
       motionState u n = Mo.retract ∧
       (u.sv n).attempt = 0 ∧
       (u.sv n).again = false ∧
       (motionState s n ≠ Mo.retract → (u.sv n).plan = none) ∧
       (∀ m, m ≠ n → motionState u m = motionState s m) ∧
       onlyParts [.regs, .evr, .tly, .ccx, .lns, .mss, .svs, .rly, .reports, .sent, .freeN] s u) ∧
  (∀ (n : Lane) (s : State),
     earlyWrite s (R.SVn_PACE_CMD n) = false → laneBusy s (R.SVn_PACE_CMD n) = false → unitAbsent s (R.SVn_PACE_CMD n) = false →
     s.glb.lost0.getLsbD (12 + n) = false → motionState s n ∈ [Mo.off, Mo.parked, Mo.fault] →
     exec (.retract n) s = .next ((s.flag (F.SVn_PACE_STAT_CMD_REJ n)).settle.answer .done)) ∧
  (∀ (n : Lane) (s : State),
     earlyWrite s (R.SVn_PACE_CMD n) = false → laneBusy s (R.SVn_PACE_CMD n) = false → unitAbsent s (R.SVn_PACE_CMD n) = false →
     motionState s n = Mo.fault → s.on F.MOT_STAT_LINK_UP = true →
     ∃ u : State, exec (.clearFault n) s = .next (u.settle.answer .done) ∧
       motionState u n = Mo.parked ∧
       (∀ m, m ≠ n → motionState u m = motionState s m) ∧
       onlyParts [.regs, .evr, .tly, .ccx, .lns, .mss, .svs, .rly, .reports, .sent, .freeN] s u) ∧
  (∀ (n : Lane) (s : State),
     earlyWrite s (R.SVn_PACE_CMD n) = false → laneBusy s (R.SVn_PACE_CMD n) = false → unitAbsent s (R.SVn_PACE_CMD n) = false →
     motionState s n ≠ Mo.fault ∨ s.on F.MOT_STAT_LINK_UP = false →
     exec (.clearFault n) s = .next ((s.flag (F.SVn_PACE_STAT_CMD_REJ n)).settle.answer .done)) ∧
  (∀ (n : Lane) (s : State),
     earlyWrite s (R.SVn_PACE_CMD n) = false → laneBusy s (R.SVn_PACE_CMD n) = false → unitAbsent s (R.SVn_PACE_CMD n) = false →
     s.glb.lost0.getLsbD (12 + n) = true →
     exec (.load n) s = .next (s.settle.answer .done) ∧
     exec (.unload n) s = .next (s.settle.answer .done) ∧
     exec (.retract n) s = .next (s.settle.answer .done))

/-- R155 to R176, for an engine that runs (ENABLE set, not in OFF). A sync mark that ends in the search window, its baud count steady and no
parameter entry or switch of sets due, locks, advances the Lap counter (719 wraps to 0 and counts a lap), starts the program from its first slot,
moves the reference along the plan, clears the count of misses and takes LOADING to ACQUIRE; any other mark, or one outside the window, is
ignored. A window without SYNC unlocks and coasts with the predicted track; a miss counts where the heads fly over the pattern, and one that
reaches MISS_MAX retracts. After a found SYNC a sample after a head change coasts; one whose SAM or track number is bad or beyond TID_TOL is
discarded and counted; else the track is shown, the position is measured from the burst phase and the sample is judged. A current tick sends one
frame: RETRACT with EMER_V in RETRACT and in OFF after a disable, with ULD_V at the end of an unload, the load profile's current in LOADING, and
else the demand with the current loop off; it leaves behind the frames ahead of it. At cycle 1,280 the demand is converted to its code (a
saturation counts), a MICRO frame goes to a lane with stages, and a status report enters the status FIFO. An engine that does not run takes no
reference, window, sample or output. -/
def Obligations.ServoWedgeFromSyncToOutput : Prop :=
  (∀ (n : Lane) (interval bauds : Nat) (s : State),
     servoRuns s n = true → inWindow s n interval = true →
     (s.sv n).lastFound = false ∨ (s.get (F.LNn_BPW_BPW n) ≤ bauds + 8 ∧ bauds ≤ s.get (F.LNn_BPW_BPW n) + 8) → (s.sv n).params = [] →
     (s.sv n).switch = none →
     ∃ u : State, exec (.syncReference n 0b10110001 interval bauds) s = .next ((countWindow n u).settle) ∧
       u.get (F.SVn_STAT_SYNC_LOCK n) = 1 ∧
       u.get (F.SVn_LAP_WEDGE n) = (if s.get (F.SVn_LAP_WEDGE n) = 719 then 0 else (s.get (F.SVn_LAP_WEDGE n) + 1) % 2 ^ (F.SVn_LAP_WEDGE n).width)
         ∧
       u.get (F.SVn_LAP_LAP n) =
         (if s.get (F.SVn_LAP_WEDGE n) = 719 then (s.get (F.SVn_LAP_LAP n) + 1) % 2 ^ (F.SVn_LAP_LAP n).width else s.get (F.SVn_LAP_LAP n)) ∧
       (u.sv n).found = true ∧
       (u.sv n).lastFound = true ∧
       (u.sv n).ranged = true ∧
       (u.sv n).miss = 0 ∧
       (u.sv n).slot = 0 ∧
       (u.sv n).interval = (if (s.sv n).sampled then some interval else none) ∧
       (u.sv n).ref = refAhead s n ∧
       (u.sv n).wedges = (s.sv n).wedges + 1 ∧
       motionState u n = (if motionState s n = Mo.loading then Mo.acquire else motionState s n) ∧
       (∀ m, m ≠ n → u.sv m = s.sv m) ∧
       (motionState s n ≠ Mo.loading → regsKept [R.SVn_STAT n, R.SVn_LAP n, R.SVn_PACE_POS n] s u) ∧
       (motionState s n ≠ Mo.loading → onlyParts [.regs, .lns, .svs] s u)) ∧
  (∀ (n : Lane) (mark : BitVec 8) (interval bauds : Nat) (s : State),
     servoRuns s n = false ∨ mark ≠ 0b10110001 ∨ inWindow s n interval = false →
     exec (.syncReference n mark interval bauds) s = .next s) ∧
  (∀ (n : Lane) (interval : Nat) (s : State),
     (s.sv n).ranged = true →
     inWindow s n interval = decide (
         (if interval < s.get (F.SVn_PERIOD_PERIOD n) then s.get (F.SVn_PERIOD_PERIOD n) - interval else interval - s.get (F.SVn_PERIOD_PERIOD n)) ≤
         64 * max 1 (s.get (F.SVn_SYNC_CFG_WIN n)) * (if s.on (F.SVn_STAT_CAD_CHANGE n) then 8 else 1))) ∧
  (∀ (n : Lane) (estTrack : Nat) (estV : Int) (s : State),
     servoRuns s n = true → missCounts s n = false ∨ (s.sv n).miss + 1 < max 1 (s.get (F.SVn_SYNC_CFG_MISS_MAX n)) → (s.sv n).params = [] →
     (s.sv n).switch = none →
     ∃ u : State, exec (.syncWindowEnd n estTrack estV) s = .next ((countWindow n u).settle) ∧
       u.get (F.SVn_STAT_SYNC_LOCK n) = 0 ∧
       u.get (F.SVn_PES_COAST n) = 1 ∧
       u.get (F.SVn_TRACK_TRACK n) = estTrack % 2 ^ (F.SVn_TRACK_TRACK n).width ∧
       u.get (F.SVn_LAP_WEDGE n) = (if s.get (F.SVn_LAP_WEDGE n) = 719 then 0 else (s.get (F.SVn_LAP_WEDGE n) + 1) % 2 ^ (F.SVn_LAP_WEDGE n).width)
         ∧
       u.get (F.SVn_FLT_CNT_SYNC_MISS n) = (if missCounts s n then min (s.get (F.SVn_FLT_CNT_SYNC_MISS n) + 1)
           (2 ^ (F.SVn_FLT_CNT_SYNC_MISS n).width - 1) else s.get (F.SVn_FLT_CNT_SYNC_MISS n)) ∧
       (u.sv n).miss = (if missCounts s n then (s.sv n).miss + 1 else (s.sv n).miss) ∧
       (u.sv n).found = false ∧
       (u.sv n).lastFound = false ∧
       (u.sv n).estV = estV ∧
       (u.sv n).sampled = false ∧
       motionState u n = motionState s n ∧
       onlyParts [.regs, .evr, .tly, .ccx, .lns, .mss, .svs, .rly, .reports, .sent, .freeN] s u) ∧
  (∀ (n : Lane) (estTrack : Nat) (estV : Int) (s : State),
     servoRuns s n = true → missCounts s n = true → max 1 (s.get (F.SVn_SYNC_CFG_MISS_MAX n)) ≤ (s.sv n).miss + 1 → (s.sv n).params = [] →
     (s.sv n).switch = none →
     ∃ u : State, exec (.syncWindowEnd n estTrack estV) s = .next ((countWindow n u).settle) ∧
       motionState u n = Mo.retract ∧
       u.get ((F.SVn_FLT_STAT_FLT n).bit 9) = 1 ∧
       u.get (F.SVn_STAT_SYNC_LOCK n) = 0 ∧
       (u.sv n).miss = 0 ∧
       (u.sv n).plan = none) ∧
  (∀ (n : Lane) (field : BitVec 82) (a b : Int) (estTrack : Nat) (estV : Int) (s : State),
     servoRuns s n = true → (s.sv n).found = true → (s.sv n).headChanged = true →
     ∃ u : State, exec (.servoSample n field a b estTrack estV) s = .next (afterOutcomes u) ∧
       u.get (F.SVn_PES_COAST n) = 1 ∧
       u.get (F.SVn_TRACK_TRACK n) = estTrack % 2 ^ (F.SVn_TRACK_TRACK n).width ∧
       (u.sv n).sampled = false ∧
       onlyParts [.regs, .evr, .tly, .ccx, .lns, .mss, .svs, .rly, .reports, .sent, .freeN] s u) ∧
  (∀ (n : Lane) (field : BitVec 82) (a b : Int) (tr estTrack : Nat) (estV : Int) (s : State),
     servoRuns s n = true → (s.sv n).found = true → (s.sv n).headChanged = false → fieldSam field = 0b1110010000110101 →
     decodeTrack (fieldTrack field) = some tr → (if tr < estTrack then estTrack - tr else tr - estTrack) ≤ s.get (F.SVn_SYNC_CFG_TID_TOL n) →
     ¬ (a = 0 ∧ b = 0) →
     exec (.servoSample n field a b estTrack estV) s = .next (afterOutcomes (judgeSample n (
             ((judgeWedge n (decodeWedge (fieldWedge field)) (s.onSv n (fun v => { v with estV := estV }))).put (F.SVn_TRACK_TRACK n) tr).onSv n
             (fun v => { v with x := measuredPosition (phaseOf a b).toNat tr }))))) ∧
  (∀ (n : Lane) (field : BitVec 82) (a b : Int) (estTrack : Nat) (estV : Int) (s : State),
     servoRuns s n = true → (s.sv n).found = true → (s.sv n).headChanged = false →
     fieldSam field ≠ 0b1110010000110101 ∨ decodeTrack (fieldTrack field) = none →
     ∃ u : State, exec (.servoSample n field a b estTrack estV) s = .next (afterOutcomes u) ∧
       u.get (F.SVn_PES_COAST n) = 1 ∧
       u.get (F.SVn_TRACK_TRACK n) = estTrack % 2 ^ (F.SVn_TRACK_TRACK n).width ∧
       u.get (F.SVn_FLT_CNT_TID_BAD n) = min (s.get (F.SVn_FLT_CNT_TID_BAD n) + 1) (2 ^ (F.SVn_FLT_CNT_TID_BAD n).width - 1) ∧
       u.get ((F.SVn_FLT_STAT_FLT n).bit 1) = 1 ∧
       (u.sv n).sampled = false) ∧
  (∀ (n : Lane) (beats mv : Nat) (s : State),
     s.on F.MOT_CTL_ENABLE = true →
     (motionState s n = Mo.retract ∧ mv = s.get (F.SVn_PACE_RET_EMER_V n)) ∨
       (motionState s n = Mo.off ∧ (s.sv n).offRetract = true ∧ mv = s.get (F.SVn_PACE_RET_EMER_V n)) ∨
       (motionState s n = Mo.unloading ∧ (s.sv n).uldEnded = true ∧ mv = s.get (F.SVn_PACE_RET_ULD_V n)) →
     ∃ t : State, exec (.currentTick n beats) s = .next t ∧
       t.sent = s.sent ++ [.motion (motionFrame 4 (channelOf s n) (min 39 ((s.mot.ahead - 4 * beats + 3) / 4)) (mv % 2 ^ 16))] ∧
       t.mot = { s.mot with ahead := 4 * min 39 ((s.mot.ahead - 4 * beats + 3) / 4) + 16 } ∧
       t.regs = s.regs ∧
       onlyParts [.mot, .sent] s t) ∧
  (∀ (n : Lane) (beats : Nat) (s : State),
     s.on F.MOT_CTL_ENABLE = true → motionState s n ∉ [Mo.off, Mo.retract] ∧ ¬ (motionState s n = Mo.unloading ∧ (s.sv n).uldEnded = true) →
     (motionState s n = Mo.loading) ∨ s.on (F.SVn_CTL_CUR_LOOP_EN n) = false →
     ((s.sv n).measured - (s.sv n).commanded).natAbs * 4 ≤ s.get (F.SVn_CUR_CFG_DIV_LIM n) * 1000 →
     ∃ t : State, exec (.currentTick n beats) s = .next t ∧
       (t.sv n).commanded = (if motionState s n = Mo.loading then loadCurrent (match servoSec s 0 with | some sec => sec.load | none => [])
           ((s.now.toNat - (s.sv n).loadAt) / 1000) else (s.sv n).demand) ∧
       t.sent = s.sent ++ [.motion (motionFrame 1 (channelOf s n) (min 39 ((s.mot.ahead - 4 * beats + 3) / 4)) (unsigned 20 (t.sv n).commanded))] ∧
       t.sv n = { s.sv n with divTicks := 0, commanded := (t.sv n).commanded } ∧
       (∀ m, m ≠ n → t.sv m = s.sv m) ∧
       onlyParts [.svs, .mot, .sent] s t) ∧
  (∀ (n : Lane) (beats : Nat) (s : State),
     motionState s n = Mo.off → (s.sv n).offRetract = false →
     exec (.currentTick n beats) s = .next (beatsPass beats s)) ∧
  (∀ (n : Lane) (beats : Nat) (s : State),
     servoRuns s n = true → stagesOf s n = (false, false) → (s.sv n).status.length < 128 →
     ∃ t : State, exec (.servoOutput n beats) s = .next t ∧
       (t.sv n).demand = (toCode 20 ((s.sv n).out0 * 250000)).1 ∧
       t.get (F.SVn_ABA_CNT_OUT_SAT n) = (if (toCode 20 ((s.sv n).out0 * 250000)).2 then min (s.get (F.SVn_ABA_CNT_OUT_SAT n) + 1)
           (2 ^ (F.SVn_ABA_CNT_OUT_SAT n).width - 1) else s.get (F.SVn_ABA_CNT_OUT_SAT n)) ∧
       (t.sv n).status = (s.sv n).status ++ [statusReport t n] ∧
       t.sent = s.sent ∧
       (∀ m, m ≠ n → t.sv m = s.sv m) ∧
       regsKept [R.SVn_ABA_CNT n] s t ∧
       onlyParts [.regs, .svs, .mot] s t) ∧
  (∀ (n : Lane) (beats : Nat) (s : State),
     servoRuns s n = true → stagesOf s n = (true, true) → motionState s n ∈ [Mo.acquire, Mo.seek, Mo.settle, Mo.follow] →
     s.on (F.SVn_CTL_MILLI_EN n) = true → s.on (F.SVn_CTL_MICRO_EN n) = true → s.on F.MOT_CTL_ENABLE = true → (s.sv n).status.length < 128 →
     ∃ t : State, exec (.servoOutput n beats) s = .next t ∧
       t.sent = s.sent ++ [.motion (motionFrame 2 (channelOf s n) (min 39 ((s.mot.ahead - 4 * beats + 3) / 4))
             (unsigned 16 (toCode 16 (s.sv n).out1).1 + unsigned 16 (toCode 16 (s.sv n).out2).1 * 2 ^ 16 + s.get (F.SVn_STAT_HEAD n) * 2 ^ 32))] ∧
       (t.sv n).demand = (toCode 20 ((s.sv n).out0 * 250000)).1 ∧
       (t.sv n).status = (s.sv n).status ++ [statusReport t n] ∧
       regsKept [R.SVn_ABA_CNT n] s t ∧
       onlyParts [.regs, .svs, .mot, .sent] s t) ∧
  (∀ (n : Lane) (beats : Nat) (estTrack : Nat) (estV : Int) (field : BitVec 82) (a b : Int) (s : State),
     servoRuns s n = false →
     exec (.syncWindowEnd n estTrack estV) s = .next s ∧
     exec (.servoSample n field a b estTrack estV) s = .next s ∧
     exec (.servoOutput n beats) s = .next (beatsPass beats s))

/-- R643, R167 to R169: a slot runs when SVn is enabled, the slot is within the program and its OP is the row's (`slotRuns`); a row whose turn it is
not does nothing. NOP, and the reserved operations 8 to 15, pass. MUL starts an accumulation and MAC adds to it, both with the exact product of
the two words. STORE rounds the accumulation, MOVE a word, IN an input into a word: as the word's exponent lets it, or, where the mantissa does
not fit in 24 bits, with the block's exponent raised and its words halved until it does; at exponent 63 the words saturate, the overflow is a
servo fault of bit 6 and the lane is lost. OUT sets one of three numbered outputs. RENORM leaves a block whose greatest mantissa is 0, or from
2^21 to below 2^22, as it is, and an overflow of its exponent is that same fault. Each passes the turn to the next slot. -/
def Obligations.AbacusSlotsComputeExactly : Prop :=
  (∀ (n : Lane) (op : Nat) (s : State),
     op ∈ [0, 8, 9, 10, 11, 12, 13, 14, 15] → slotRuns s n op = true →
     exec (.nop n) s = .next (nextSlot n s)) ∧
  (∀ (n : Lane) (s : State),
     slotRuns s n 1 = true →
     ∃ t : State, exec (.mul n) s = .next t ∧
       t.sv n = { s.sv n with acc := [slotProduct s n], slot := (s.sv n).slot + 1 } ∧
       (∀ m, m ≠ n → t.sv m = s.sv m) ∧
       onlyParts [.svs] s t) ∧
  (∀ (n : Lane) (s : State),
     slotRuns s n 2 = true →
     ∃ t : State, exec (.mac n) s = .next t ∧
       t.sv n = { s.sv n with acc := (s.sv n).acc ++ [slotProduct s n], slot := (s.sv n).slot + 1 } ∧
       (∀ m, m ≠ n → t.sv m = s.sv m) ∧
       onlyParts [.svs] s t) ∧
  (∀ (n : Lane) (s : State),
     slotProduct s n = (wordMant s n (setInUse s n) (slotNow s n).2.2.1 * wordMant s n (setInUse s n) (slotNow s n).2.2.2, wordExp s n
         (setInUse s n) (slotNow s n).2.2.1 + wordExp s n (setInUse s n) (slotNow s n).2.2.2)) ∧
  (∀ (n : Lane) (c : Instr) (op : Nat) (x : Rat) (s : State) (w : Nat) (e : Nat),
     (c = .store n ∧ op = 3 ∧ x = accValue (s.sv n).acc) ∨ (c = .abacusMove n ∧ op = 4 ∧ x = wordValue s n (setInUse s n) (slotNow s n).2.2.1) ∨
       (c = .in_ n ∧ op = 5 ∧ x = abacusInput s n (slotNow s n).2.2.1) → slotRuns s n op = true → w = (slotNow s n).2.1 →
     e = wordExp s n (setInUse s n) w → -(2 ^ 23) ≤ roundEven (x * pow2 (55 - (e : Int))) → roundEven (x * pow2 (55 - (e : Int))) < 2 ^ 23 →
     exec c s = .next (putMant n (setInUse s n) w (roundEven (x * pow2 (55 - (e : Int)))) (nextSlot n s))) ∧
  (∀ (n : Lane) (c : Instr) (op : Nat) (x : Rat) (s : State) (w : Nat),
     (c = .store n ∧ op = 3 ∧ x = accValue (s.sv n).acc) ∨ (c = .abacusMove n ∧ op = 4 ∧ x = wordValue s n (setInUse s n) (slotNow s n).2.2.1) ∨
       (c = .in_ n ∧ op = 5 ∧ x = abacusInput s n (slotNow s n).2.2.1) → slotRuns s n op = true → w = (slotNow s n).2.1 →
     exec c s = .next (if (storeWord n (setInUse s n) w x 64 (nextSlot n s)).1 then servoLoses n 6
         (storeWord n (setInUse s n) w x 64 (nextSlot n s)).2 else (storeWord n (setInUse s n) w x 64 (nextSlot n s)).2)) ∧
  (∀ (n : Lane) (c w b k : Nat) (x : Rat) (s : State),
     blockOf s c w = some b →
     ¬ (-(2 ^ 23) ≤ roundEven (x * pow2 (55 - (wordExp s n c w : Int))) ∧ roundEven (x * pow2 (55 - (wordExp s n c w : Int))) < 2 ^ 23) →
     (wordExp s n c w < 63 → storeWord n c w x (k + 1) s = storeWord n c w x k (mapBlock n c b (wordExp s n c w + 1) halve s)) ∧
     (63 ≤ wordExp s n c w → storeWord n c w x (k + 1) s =
         (true, putMant n c w (saturate (roundEven (x * pow2 (55 - (wordExp s n c w : Int))))) (mapBlock n c b 63 saturate s)))) ∧
  (∀ (n : Lane) (s : State),
     slotRuns s n 6 = true →
     exec (.out_ n) s = .next (nextSlot n (abacusOutput n (slotNow s n).2.1 (wordValue s n (setInUse s n) (slotNow s n).2.2.1) s))) ∧
  (∀ (n : Lane) (k : Nat) (x : Rat) (s : State),
     ((abacusOutput n k x s).sv n).out0 = (if k = 0 then x else (s.sv n).out0) ∧
     ((abacusOutput n k x s).sv n).out1 = (if k = 1 then x else (s.sv n).out1) ∧
     ((abacusOutput n k x s).sv n).out2 = (if k = 2 then x else (s.sv n).out2) ∧
     onlyParts [.svs] s (abacusOutput n k x s)) ∧
  (∀ (n : Lane) (s : State),
     slotRuns s n 7 = true →
     exec (.renorm n) s = .next (if (renormBlock n (setInUse s n) ((slotNow s n).2.1 % 256) (nextSlot n s)).1 then servoLoses n 6
         (renormBlock n (setInUse s n) ((slotNow s n).2.1 % 256) (nextSlot n s)).2 else
         (renormBlock n (setInUse s n) ((slotNow s n).2.1 % 256) (nextSlot n s)).2)) ∧
  (∀ (n : Lane) (c : Nat) (b : Nat) (s : State),
     blockPeak s n c b = 0 ∨ (2 ^ 21 ≤ blockPeak s n c b ∧ blockPeak s n c b < 2 ^ 22) →
     renormBlock n c b s = (false, s)) ∧
  (∀ (n : Lane) (s : State),
     (slotRuns s n 1 = false → exec (.mul n) s = .next s) ∧
     (slotRuns s n 2 = false → exec (.mac n) s = .next s) ∧
     (slotRuns s n 3 = false → exec (.store n) s = .next s) ∧
     (slotRuns s n 4 = false → exec (.abacusMove n) s = .next s) ∧
     (slotRuns s n 5 = false → exec (.in_ n) s = .next s) ∧
     (slotRuns s n 6 = false → exec (.out_ n) s = .next s) ∧
     (slotRuns s n 7 = false → exec (.renorm n) s = .next s) ∧
     ((∀ op ∈ [0, 8, 9, 10, 11, 12, 13, 14, 15], slotRuns s n op = false) → exec (.nop n) s = .next s))

/-- R171, R172, R174, R175, R200: a NOP frame leaves 500 beats after the frame before it while MOT_CTL.ENABLE is 1, and else none. An inbound frame
that fails CHECK is only counted. A valid one brings the link up, enters the status FIFO of 32 and acts where its TYPE is the row's: CURRENT
gives its channel's engine the measured current, BEMF (here without a zero crossing, outside KE_CHECK and SENSE) shows its fields and keeps the
floating voltage, STATUS shows its flags (`statusFlags`), and a low supply with SUPPLY_PF is a power failure; with no flag set it only shows them
clear. A gap is counted. The loss of a link that is up clears LINK_UP, sets LINK_LOST, puts every included engine in FAULT and loses MOT; with
the link down it changes nothing. -/
def Obligations.MotionLinkFramesActOnceChecked : Prop :=
  (∀ (s : State),
     s.on F.MOT_CTL_ENABLE = true →
     ∃ t : State, exec .nopFrame s = .next t ∧
       t.sent = s.sent ++ [.motion (motionFrame 0 0 (min 39 ((s.mot.ahead - 2000 + 3) / 4)) 0)] ∧
       t.mot = { s.mot with ahead := 4 * min 39 ((s.mot.ahead - 2000 + 3) / 4) + 16 } ∧
       onlyParts [.mot, .sent] s t) ∧
  (∀ (s : State),
     s.on F.MOT_CTL_ENABLE = false →
     exec .nopFrame s = .next { s with mot := { s.mot with ahead := s.mot.ahead - 2000 } }) ∧
  (∀ (f : BitVec 64) (at_ : Nat) (s : State),
     frameField f 63 56 ≠ motionCheck (frameField f 55 0) →
     exec (.currentFrame f) s = .next (s.count F.MOT_CNT_RX_CRC) ∧
     exec (.bemfFrame f at_) s = .next (s.count F.MOT_CNT_RX_CRC) ∧
     exec (.statusFrame f) s = .next (s.count F.MOT_CNT_RX_CRC)) ∧
  (∀ (f : BitVec 64) (s : State),
     frameField f 63 56 = motionCheck (frameField f 55 0) → frameField f 11 8 = 8 →
     ∃ t : State, exec (.currentFrame f) s = .next t ∧
       t.get F.MOT_STAT_LINK_UP = 1 ∧
       (∀ n, laneOfChannel s (frameField f 13 12) = some n → t.sv n = { s.sv n with measured := signed 20 (frameField f 39 20) }) ∧
       (∀ m, laneOfChannel s (frameField f 13 12) ≠ some m → t.sv m = s.sv m) ∧
       t.mot = { s.mot with status := (f :: s.mot.status).take 32 } ∧
       (s.on F.MOT_STAT_LINK_UP = true → t.regs = s.regs ∧ t.spm = s.spm) ∧
       regsKept [R.MOT_STAT] s t ∧
       onlyParts [.regs, .mot, .svs, .spm] s t) ∧
  (∀ (f : BitVec 64) (at_ : Nat) (s : State),
     frameField f 63 56 = motionCheck (frameField f 55 0) → frameField f 11 8 = 9 → frameField f 22 22 = 0 → s.on F.MOT_STAT_LINK_UP = true →
     spinState s ≠ Sp.keCheck → spinState s ≠ Sp.sense ∨ frameField f 43 43 = 0 →
     ∃ t : State, exec (.bemfFrame f at_) s = .next t ∧
       t.get F.MOT_SPN_BEMF_V_FLOAT = frameField f 42 32 ∧
       t.get F.MOT_SPN_BEMF_FLOAT = frameField f 21 20 ∧
       t.get F.MOT_SPN_BEMF_ZC = 0 ∧
       t.get F.MOT_SPN_BEMF_ZC_RISE = frameField f 23 23 ∧
       t.get F.MOT_SPN_BEMF_PULSE_END = frameField f 43 43 ∧
       t.get F.MOT_SPN_BEMF_I_MEAS = frameField f 55 44 ∧
       t.spm = { s.spm with volts := ((16 * (signed 11 (frameField f 42 32)).natAbs) :: s.spm.volts).take 2000 } ∧
       t.mot = { s.mot with status := (f :: s.mot.status).take 32 } ∧
       regsKept [R.MOT_SPN_BEMF] s t ∧
       onlyParts [.regs, .mot, .spm] s t) ∧
  (∀ (f : BitVec 64) (s : State),
     frameField f 63 56 = motionCheck (frameField f 55 0) → frameField f 11 8 = 10 → frameField f 27 24 = 0 → frameField f 23 20 = 0 →
     frameField f 28 28 = 0 → s.on F.MOT_STAT_LINK_UP = true →
     ∃ t : State, exec (.statusFrame f) s = .next t ∧
       t.get F.MOT_STAT_SHOCK = 0 ∧
       t.get F.MOT_STAT_SUPPLY_LOW = 0 ∧
       t.get F.MOT_STAT_OVERTEMP = 0 ∧
       t.get F.MOT_STAT_RETRACTING = frameField f 32 29 ∧
       t.mot = { s.mot with status := (f :: s.mot.status).take 32 } ∧
       regsKept [R.MOT_STAT] s t ∧
       onlyParts [.regs, .mot] s t) ∧
  (∀ (f : BitVec 64) (s : State),
     frameField f 63 56 = motionCheck (frameField f 55 0) → frameField f 11 8 = 10 → s.on F.MOT_STAT_LINK_UP = true →
     exec (.statusFrame f) s = .next (if frameField f 27 24 ≠ 0 ∧ s.on F.MOT_CTL_SUPPLY_PF = true then powerFail 4 .made
         (statusFlags f { s with mot := { s.mot with status := (f :: s.mot.status).take 32 } }) else statusFlags f
         { s with mot := { s.mot with status := (f :: s.mot.status).take 32 } })) ∧
  (∀ (f : BitVec 64) (at_ : Nat) (s : State),
     frameField f 63 56 = motionCheck (frameField f 55 0) → s.on F.MOT_STAT_LINK_UP = true →
     (frameField f 11 8 ≠ 8 → exec (.currentFrame f) s = .next { s with mot := { s.mot with status := (f :: s.mot.status).take 32 } }) ∧
     (frameField f 11 8 ≠ 9 → exec (.bemfFrame f at_) s = .next { s with mot := { s.mot with status := (f :: s.mot.status).take 32 } }) ∧
     (frameField f 11 8 ≠ 10 → exec (.statusFrame f) s = .next { s with mot := { s.mot with status := (f :: s.mot.status).take 32 } })) ∧
  (∀ (s : State),
     ∃ t : State, exec .inboundFrameGap s = .next t ∧
       t.get F.MOT_CNT_RX_GAP = min (s.get F.MOT_CNT_RX_GAP + 1) (2 ^ F.MOT_CNT_RX_GAP.width - 1) ∧
       regsKept [R.MOT_CNT] s t ∧
       onlyParts [.regs] s t) ∧
  (∀ (s : State),
     s.on F.MOT_STAT_LINK_UP = true →
     ∃ u : State, exec .motionLinkLost s = .next (u.loseUnit1 7).settle ∧
       u.get F.MOT_STAT_LINK_UP = 0 ∧
       u.get F.MOT_FLAGS_LINK_LOST = 1 ∧
       (∀ n : Lane, laneIncluded s n = true → motionState u n = Mo.fault) ∧
       onlyParts [.regs, .evr, .tly, .ccx, .lns, .mss, .svs, .rly, .reports, .sent, .freeN] s u) ∧
  (∀ (s : State),
     s.on F.MOT_STAT_LINK_UP = false →
     exec .motionLinkLost s = .next s)

/-- R181 to R197. A target entry from the selected source fills the mailbox, an entry already there is overwritten and counted, and one from the
other source is refused. At a Pacer tick the entry is taken in FOLLOW, which goes to SEEK with a plan from the reference in progress; it stays in
ACQUIRE; in OFF, PARKED, FAULT, RETRACT and UNLOADING it is dropped and counted; an unload that is due plans to the unload track; a restart
without an entry plans to the nearest track. The plan's end turns SEEK to SETTLE and ends an unload's motion. Enough settled wedges turn SETTLE
to FOLLOW, copy the plan's TAG, raise the engine's interrupt line and clear the trips. A settle that lasts too long is flagged and counted. A
following-error trip abandons the target and lets a restart plan follow; the last allowed one retracts. Acquisition ends in SEEK with a restart
due. A load that times out retracts and will try again, or after the last retry fails with the lane lost. The end of RET_TIME parks an engine
that retracted, begins the next attempt of a load, leads to FAULT with the lane lost or the link down, and parks at the end of an unload. Where
its condition does not hold a row changes nothing. -/
def Obligations.PacerPlansSettlesAndLoads : Prop :=
  (∀ (n : Lane) (fw : Bool) (e : BitVec 64) (s : State),
     s.accepts (R.SVn_PACE_TGT_LO n) = true → s.on (F.SVn_PACE_CTL_SRC n) = fw →
     ∃ t : State, exec (.targetMailboxWrite n fw e) s = .next (t.answer .done) ∧
       t.sv n = { s.sv n with mailbox := some e } ∧
       (∀ m, m ≠ n → t.sv m = s.sv m) ∧
       t.get (F.SVn_PACE_CNT_OVERWRITE n) = (if (s.sv n).mailbox.isSome then min (s.get (F.SVn_PACE_CNT_OVERWRITE n) + 1)
           (2 ^ (F.SVn_PACE_CNT_OVERWRITE n).width - 1) else s.get (F.SVn_PACE_CNT_OVERWRITE n)) ∧
       regsKept [R.SVn_PACE_CNT n] s t ∧
       onlyParts [.regs, .svs] s t) ∧
  (∀ (n : Lane) (fw : Bool) (e : BitVec 64) (s : State),
     s.accepts (R.SVn_PACE_TGT_LO n) = true → s.on (F.SVn_PACE_CTL_SRC n) ≠ fw →
     exec (.targetMailboxWrite n fw e) s = .next ((s.flag (F.SVn_PACE_STAT_SRC_REJ n)).answer .done)) ∧
  (∀ (n : Lane) (e : Dword) (s : State),
     servoRuns s n = true → s.get (F.SVn_LAP_WEDGE n) % 4 = 0 → motionState s n = Mo.follow → (s.sv n).mailbox = some e →
     (s.sv n).unloadDue = false → (s.sv n).restartDue = false → (s.act (actOf s n)).offset = none →
     ∃ u : State, exec (.pacerStep n) s = .next u.settle ∧
       motionState u n = Mo.seek ∧
       (u.sv n).mailbox = none ∧
       (u.sv n).target = some e ∧
       (u.sv n).aim = (e.extractLsb' 0 22).toNat ∧
       (u.sv n).plan.map (fun p => (p.start, p.time, p.fresh, p.tag)) = some (refAhead s n, 0, true, some (e.extractLsb' 48 8)) ∧
       (u.sv n).plan.map (fun p => (p.target, p.unload)) = some
         (((e.extractLsb' 0 22).toNat : Rat) + (signed 16 (e.extractLsb' 32 16).toNat : Rat) / 1000, false) ∧
       (u.sv n).vmax = max 1 (s.get (F.SVn_PACE_VMAX_VMAX n)) ∧
       u.get (F.SVn_OFS_OFS n) = (e.extractLsb' 32 16).toNat) ∧
  (∀ (n : Lane) (e : Dword) (s : State),
     motionState s n = Mo.off ∨ (servoRuns s n = true ∧ s.get (F.SVn_LAP_WEDGE n) % 4 = 0 ∧ motionState s n ∈
         [Mo.parked, Mo.fault, Mo.retract, Mo.unloading, Mo.loading] ∧ (s.sv n).unloadDue = false ∧ (s.sv n).restartDue = false) →
     (s.sv n).mailbox = some e →
     ∃ u : State, exec (.pacerStep n) s = .next (if motionState s n = Mo.off then u else u.settle) ∧
       u.sv n = { s.sv n with mailbox := none } ∧
       (∀ m, m ≠ n → u.sv m = s.sv m) ∧
       u.get (F.SVn_PACE_CNT_DROP n) = min (s.get (F.SVn_PACE_CNT_DROP n) + 1) (2 ^ (F.SVn_PACE_CNT_DROP n).width - 1) ∧
       regsKept [R.SVn_PACE_CNT n] s u ∧
       onlyParts [.regs, .svs] s u) ∧
  (∀ (n : Lane) (s : State),
     servoRuns s n = true → s.get (F.SVn_LAP_WEDGE n) % 4 = 0 → motionState s n = Mo.acquire → (s.sv n).unloadDue = false →
     (s.sv n).restartDue = false →
     exec (.pacerStep n) s = .next s.settle) ∧
  (∀ (n : Lane) (s : State),
     servoRuns s n = true → s.get (F.SVn_LAP_WEDGE n) % 4 = 0 → (s.sv n).mailbox = none → (s.sv n).unloadDue = true ∨ (s.sv n).restartDue = true →
     ∃ u : State, exec (.pacerStep n) s = .next u.settle ∧
       (u.sv n).restartDue = false ∧
       (u.sv n).unloadDue = false ∧
       ((s.sv n).unloadDue = true → (u.sv n).plan.map (fun p => (p.target, p.unload)) = some
           ((((match servoSec s 0 with | some sec => sec.unloadTrack | none => 0) : Nat) : Rat), true)) ∧
       ((s.sv n).unloadDue = false → (u.sv n).plan.map (fun p => (p.target, p.unload)) = some
           (((nearestTrack s n (restartState s n) : Nat) : Rat), false)) ∧
       (u.sv n).plan.map (fun p => p.start) = some (if (s.sv n).restartDue then restartState s n else refAhead s n) ∧
       u.regs = s.regs ∧
       (∀ m, m ≠ n → u.sv m = s.sv m) ∧
       onlyParts [.svs] s u) ∧
  (∀ (n : Lane) (p : Plan) (s : State),
     (s.sv n).plan = some p → p.fresh = false → (s.sv n).restartDue = false → planLength p ≤ p.time → motionState s n = Mo.seek →
     ∃ u : State, exec (.planEnd n) s = .next u.settle ∧
       motionState u n = Mo.settle ∧
       (u.sv n).settleCount = 0 ∧
       (u.sv n).settleWedges = 0 ∧
       (∀ m, m ≠ n → motionState u m = motionState s m) ∧
       onlyParts [.regs, .evr, .tly, .ccx, .lns, .mss, .svs, .rly, .reports, .sent, .freeN] s u) ∧
  (∀ (n : Lane) (p : Plan) (s : State),
     (s.sv n).plan = some p → p.fresh = false → (s.sv n).restartDue = false → planLength p ≤ p.time → motionState s n = Mo.unloading →
     p.unload = true →
     exec (.planEnd n) s = .next (s.setSv n { s.sv n with uldEnded := true, plan := none })) ∧
  (∀ (n : Lane) (s : State),
     motionState s n = Mo.seek ∨ motionState s n = Mo.settle → (s.sv n).restartDue = false →
     max 1 (s.get (F.SVn_PACE_FE_WEDGES n)) ≤ (s.sv n).feCount →
     ∃ u : State, exec (.feTrip n) s = .next ((if (s.sv n).trips + 1 < max 1 (s.get (F.SVn_PACE_FE_RETRY n)) then reportTrip n (s.sv n).target u
           else svRetract n ((reportTrip n (s.sv n).target u).flag (F.SVn_PACE_STAT_FE_RETRACT n))).settle) ∧
       u.get (F.SVn_PACE_STAT_FE_TRIP n) = 1 ∧
       u.get (F.SVn_PACE_CNT_FE_TRIPS n) = min (s.get (F.SVn_PACE_CNT_FE_TRIPS n) + 1) (2 ^ (F.SVn_PACE_CNT_FE_TRIPS n).width - 1) ∧
       u.sv n = { s.sv n with feCount := 0, trips := (s.sv n).trips + 1, target := none, restartDue := true, settleCount := 0 } ∧
       (∀ m, m ≠ n → u.sv m = s.sv m) ∧
       motionState u n = motionState s n ∧
       ((s.sv n).target.isSome = true → u.ccx.irq.getLsbD (9 + n) = true) ∧
       onlyParts [.regs, .evr, .tly, .ccx, .svs] s u) ∧
  (∀ (n : Lane) (p : Plan) (tag : BitVec 8) (s : State),
     motionState s n = Mo.settle → (s.sv n).restartDue = false → max 1 (s.get (F.SVn_PACE_SETTLE_WEDGES n)) ≤ (s.sv n).settleCount →
     (s.sv n).plan = some p → p.tag = some tag →
     ∃ u : State, exec (.settleDone n) s = .next u.settle ∧
       motionState u n = Mo.follow ∧
       u.get (F.SVn_PACE_STAT_TAG n) = tag.toNat ∧
       u.ccx.irq.getLsbD (9 + n) = true ∧
       u.sv n = { s.sv n with attempt := 0, trips := 0 } ∧
       (∀ m, m ≠ n → u.sv m = s.sv m) ∧
       ((s.sv n).attempt = 0 → regsKept [R.SVn_STAT n, R.SVn_PACE_STAT n] s u ∧ u.tly = s.tly) ∧
       onlyParts [.regs, .ccx, .svs, .rly, .tly, .evr] s u) ∧
  (∀ (n : Lane) (s : State),
     motionState s n = Mo.settle → s.get (F.SVn_PACE_SETTLE_MAX n) ≠ 0 → s.get (F.SVn_PACE_SETTLE_MAX n) ≤ (s.sv n).settleWedges →
     ∃ t : State, exec (.settleTimeout n) s = .next t ∧
       t.get (F.SVn_PACE_STAT_SETTLE_TO n) = 1 ∧
       t.get (F.SVn_PACE_CNT_SETTLE_TO n) = min (s.get (F.SVn_PACE_CNT_SETTLE_TO n) + 1) (2 ^ (F.SVn_PACE_CNT_SETTLE_TO n).width - 1) ∧
       regsKept [R.SVn_PACE_STAT n, R.SVn_PACE_CNT n] s t ∧
       onlyParts [.regs, .ccx, .evr] s t) ∧
  (∀ (n : Lane) (s : State),
     motionState s n = Mo.acquire → max 1 (s.get (F.SVn_PACE_LOAD_ACQ_WEDGES n)) ≤ (s.sv n).acqCount →
     ∃ u : State, exec (.acquireDone n) s = .next u.settle ∧
       motionState u n = Mo.seek ∧
       (u.sv n).restartDue = true ∧
       (u.sv n).plan = none ∧
       (u.sv n).target = none ∧
       (u.sv n).vmax = max 1 (s.get (F.SVn_PACE_VMAX_VMAX n)) ∧
       (u.sv n).amax = max 1 (s.get (F.SVn_PACE_AMAX_AMAX n)) ∧
       (u.sv n).jmax = max 1 (s.get (F.SVn_PACE_JMAX_JMAX n)) ∧
       (u.sv n).acqCount = 0 ∧
       onlyParts [.regs, .evr, .tly, .ccx, .lns, .mss, .svs, .rly, .reports, .sent, .freeN] s u) ∧
  (∀ (n : Lane) (s : State),
     motionState s n ∈ [Mo.loading, Mo.acquire, Mo.seek, Mo.settle] → 1 ≤ (s.sv n).attempt → (s.sv n).attempt ≤ s.get (F.SVn_PACE_LOAD_RETRY n) →
     ∃ u : State, exec (.loadTimeout n) s = .next u.settle ∧
       motionState u n = Mo.retract ∧
       (u.sv n).attempt = (s.sv n).attempt ∧
       (u.sv n).again = true ∧
       (u.sv n).plan = none ∧
       onlyParts [.regs, .evr, .tly, .ccx, .lns, .mss, .svs, .rly, .reports, .sent, .freeN] s u) ∧
  (∀ (n : Lane) (s : State),
     motionState s n ∈ [Mo.loading, Mo.acquire, Mo.seek, Mo.settle] → s.get (F.SVn_PACE_LOAD_RETRY n) < (s.sv n).attempt →
     ∃ u : State, exec (.loadTimeout n) s = .next (u.loseUnit0 (12 + n)) ∧
       motionState u n = Mo.retract ∧
       (u.sv n).attempt = 0 ∧
       u.get (F.SVn_PACE_STAT_LOAD_FAIL n) = 1) ∧
  (∀ (n : Lane) (s : State),
     motionState s n = Mo.retract → s.on F.GLB_MODE_COND_POWER_FAIL = false →
     ∃ u : State, exec (.retractTimeEnd n) s = .next u.settle ∧
       (s.glb.lost0.getLsbD (12 + n) = true ∨ s.on F.MOT_STAT_LINK_UP = false → motionState u n = Mo.fault) ∧
       (s.glb.lost0.getLsbD (12 + n) = false → s.on F.MOT_STAT_LINK_UP = true → motionState u n =
           (if (s.sv n).again && speedReady s then Mo.loading else Mo.parked)) ∧
       (s.glb.lost0.getLsbD (12 + n) = false → s.on F.MOT_STAT_LINK_UP = true → (s.sv n).again = true → speedReady s = true → (u.sv n).attempt =
           (s.sv n).attempt + 1) ∧
       (∀ m, m ≠ n → motionState u m = motionState s m) ∧
       onlyParts [.regs, .evr, .tly, .ccx, .lns, .mss, .svs, .rly, .reports, .sent, .freeN] s u) ∧
  (∀ (n : Lane) (s : State),
     motionState s n = Mo.unloading → (s.sv n).uldEnded = true →
     ∃ u : State, exec (.retractTimeEnd n) s = .next u.settle ∧
       motionState u n = Mo.parked ∧
       (u.sv n).uldEnded = false ∧
       (∀ m, m ≠ n → motionState u m = motionState s m)) ∧
  (∀ (n : Lane) (s : State),
     ((s.sv n).plan = none → exec (.planEnd n) s = .next s) ∧
     (motionState s n ∉ [Mo.seek, Mo.settle] → exec (.feTrip n) s = .next s) ∧
     (motionState s n ≠ Mo.settle → exec (.settleDone n) s = .next s ∧ exec (.settleTimeout n) s = .next s) ∧
     (motionState s n ≠ Mo.acquire → exec (.acquireDone n) s = .next s) ∧
     (motionState s n ∉ [Mo.loading, Mo.acquire, Mo.seek, Mo.settle] → exec (.loadTimeout n) s = .next s) ∧
     (motionState s n ∉ [Mo.retract, Mo.unloading] → exec (.retractTimeEnd n) s = .next (s.setSv n { s.sv n with offRetract := false })))

/-- R202 to R214. A start command with every actuator quiet waits for the rest check in STOPPED, judges a turning rotor in BRAKING, PF_COAST and
PARTNER (`startTurning`), and is refused elsewhere and with an actuator not quiet. After 2,000 BEMF samples a rotor at rest begins attempt 1 in
SENSE with six sensing pulses in the command FIFO; one that turns is judged as turning. Six measurements lead to OPEN: commutation begins two
steps past the sensed sector. A commutation releases the frame at the front of the FIFO, shown in MOT_SPN_CMD; SENSE counts its pulses, OPEN
queues the next step; with the FIFO empty the next frame of a commutating state is counted late and released. A Ke check within 12 % records
KE_MEAS and KE_OK and returns to RUNUP; one beyond, or without a speed (a free value is recorded), sets KE_REFUSED and brakes to FAULT with SPM
lost. An open loop without handover, or a start that lasts too long, fails its attempt: it brakes to another attempt, or after the last sets
START_FAIL and brakes to FAULT with SPM lost. The retry wait begins the next attempt. SPM's self-test after DONE sets its unit bit or loses it.
Where its state does not stand a row changes nothing, but for the beats that pass. -/
def Obligations.SpindleStartsUnderControl : Prop :=
  (∀ (s : State),
     s.accepts R.SPM_CMD = true →
     exec .spindleStart s = .next ((if allQuiet s = false then s.flag F.SPM_FLT_REQ_REJ else if spinState s = Sp.stopped then s.onSpm
           (fun m => { m with restCheck := true }) else if spinState s ∈ [Sp.braking, Sp.pfCoast, Sp.partner] then startTurning s else s.flag
           F.SPM_FLT_REQ_REJ).settle.answer .done)) ∧
  (∀ (s : State),
     s.spm.restCheck = true → spinState s = Sp.stopped → 2000 ≤ s.spm.volts.length → peakVolts s < s.get F.SPM_BRAKE_CFG_STOP_MV →
     ∃ t : State, exec .rotorRestCheck s = .next t ∧
       spinState t = Sp.sense ∧
       t.get F.SPM_STAT_ATTEMPT = 1 ∧
       t.get F.SPM_STAT_AT_SPEED = 0 ∧
       t.mot = { s.mot with spindle := (List.range 6).map (fun i => spindleWord i 0 0 (max 1 (s.get F.SPM_START_CFG_PULSE))) } ∧
       t.spm.restCheck = false ∧
       t.spm.sense = [] ∧
       t.spm.pulses = 0 ∧
       t.spm.keDone = false ∧
       t.spm.goal = s.get F.SPM_CAD_REQ_CAD ∧
       t.ccx.irq.getLsbD 17 = true ∧
       regsKept [R.SPM_STAT] s t ∧
       onlyParts [.regs, .ccx, .mot, .spm] s t) ∧
  (∀ (s : State),
     s.spm.restCheck = true → spinState s = Sp.stopped → 2000 ≤ s.spm.volts.length → s.get F.SPM_BRAKE_CFG_STOP_MV ≤ peakVolts s →
     exec .rotorRestCheck s = .next (startTurning (s.onSpm (fun m => { m with restCheck := false }))).settle) ∧
  (∀ (s : State),
     spinState s = Sp.sense → 6 ≤ s.spm.sense.length →
     ∃ t : State, exec .senseDone s = .next t ∧
       spinState t = Sp.openLoop ∧
       t.spm = { s.spm with step := (sensedSector (s.spm.sense.take 6) + 2) % 6, profileAt := 1, forward := 0, reverse := 0 } ∧
       t.mot = { s.mot with
           spindle := [spindleWord ((sensedSector (s.spm.sense.take 6) + 2) % 6)
               (match spindleSec s with | some p => (p.profile.getD (min 0 (p.profile.length - 1)) (0, 0)).2 | none => 0)
               (s.get F.SPM_START_CFG_ILIM) 0] } ∧
       t.ccx.irq.getLsbD 17 = true ∧
       regsKept [R.SPM_STAT] s t ∧
       onlyParts [.regs, .ccx, .mot, .spm] s t) ∧
  (∀ (beats : Nat) (w : BitVec 64) (rest : List (BitVec 64)) (s : State),
     s.mot.spindle = w :: rest → spinState s ∉ [Sp.sense, Sp.openLoop, Sp.partner] → s.on F.MOT_CTL_ENABLE = true →
     ∃ t : State, exec (.commutation beats) s = .next t ∧
       t.mot.spindle = rest ∧
       t.sent = s.sent ++ [.motion (motionFrame 3 0 (min 39 ((s.mot.ahead - 4 * beats + 3) / 4))
             (bitsOf w.toNat 2 0 + bitsOf w.toNat 14 3 * 2 ^ 3 + bitsOf w.toNat 26 15 * 2 ^ 15 + bitsOf w.toNat 34 27 * 2 ^ 27))] ∧
       t.get F.MOT_SPN_CMD_STATE = bitsOf w.toNat 2 0 ∧
       t.get F.MOT_SPN_CMD_DRIVE = bitsOf w.toNat 14 3 ∧
       t.get F.MOT_SPN_CMD_ILIM = bitsOf w.toNat 26 15 ∧
       t.spm = { s.spm with inForce := if bitsOf w.toNat 2 0 < 6 then bitsOf w.toNat 2 0 else s.spm.inForce } ∧
       regsKept [R.MOT_SPN_CMD] s t ∧
       onlyParts [.regs, .mot, .sent, .spm] s t) ∧
  (∀ (beats : Nat) (w : BitVec 64) (rest : List (BitVec 64)) (s : State),
     s.mot.spindle = w :: rest → spinState s = Sp.sense ∨ spinState s = Sp.openLoop →
     ∃ u : State, exec (.commutation beats) s = .next (if spinState s = Sp.sense then u.onSpm (fun m => { m with pulses := m.pulses + 1 }) else
         queueSpindle (nextCommutation u).1 (nextCommutation u).2) ∧
       u.mot.spindle = rest ∧
       spinState u = spinState s ∧
       u.spm.step = s.spm.step ∧
       (s.on F.MOT_CTL_ENABLE = true → u.sent.length = s.sent.length + 1) ∧
       regsKept [R.MOT_SPN_CMD] s u ∧
       onlyParts [.regs, .mot, .sent, .spm] s u) ∧
  (∀ (beats : Nat) (s : State),
     s.mot.spindle = [] → commutates s = true →
     ∃ u : State, exec (.commutation beats) s = .next (releaseSpindle (nextCommutation u).1 (nextCommutation u).2) ∧
       u.get F.SPM_CNT_LATE_COMM = min (s.get F.SPM_CNT_LATE_COMM + 1) (2 ^ F.SPM_CNT_LATE_COMM.width - 1) ∧
       u.spm = s.spm ∧
       regsKept [R.SPM_CNT] s u ∧
       onlyParts [.regs, .mot] s u) ∧
  (∀ (beats : Nat) (s : State),
     s.mot.spindle = [] → commutates s = false →
     exec (.commutation beats) s = .next { s with mot := { s.mot with ahead := s.mot.ahead - 4 * beats } }) ∧
  (∀ (mean : Nat) (s : State),
     spinState s = Sp.keCheck → mean ≠ 0 →
     (if 10000 * s.spm.kePeak < s.get F.SPM_KE_KE_IMG * mean then s.get F.SPM_KE_KE_IMG * mean - 10000 * s.spm.kePeak else 10000 * s.spm.kePeak -
         s.get F.SPM_KE_KE_IMG * mean) * 100 ≤ 12 * (s.get F.SPM_KE_KE_IMG * mean) →
     ∃ t : State, exec (.keCheckEnd mean) s = .next t ∧
       spinState t = Sp.runup ∧
       t.get F.SPM_KE_KE_MEAS = min 65535 (10000 * s.spm.kePeak / mean) ∧
       t.get F.GLB_RST_STAT_KE_OK = 1 ∧
       t.spm = { s.spm with resync := true } ∧
       regsKept [R.SPM_STAT, R.SPM_KE, R.GLB_RST_STAT] s t ∧
       onlyParts [.regs, .ccx, .spm] s t) ∧
  (∀ (mean : Nat) (s : State),
     spinState s = Sp.keCheck →
     mean = 0 ∨ 12 * (s.get F.SPM_KE_KE_IMG * mean) < (if 10000 * s.spm.kePeak < s.get F.SPM_KE_KE_IMG * mean then s.get F.SPM_KE_KE_IMG * mean -
         10000 * s.spm.kePeak else 10000 * s.spm.kePeak - s.get F.SPM_KE_KE_IMG * mean) * 100 →
     ∃ u : State, exec (.keCheckEnd mean) s = .next (spinLost (requestBrake .fault u)) ∧
       u.get F.SPM_FLT_KE_REFUSED = 1 ∧
       u.get F.SPM_CNT_FAILED = min (s.get F.SPM_CNT_FAILED + 1) (2 ^ F.SPM_CNT_FAILED.width - 1) ∧
       (mean ≠ 0 → u.get F.SPM_KE_KE_MEAS = min 65535 (10000 * s.spm.kePeak / mean) ∧ u.freeN = s.freeN) ∧
       onlyParts [.regs, .evr, .tly, .ccx, .freeN] s u) ∧
  (∀ (c : Instr) (f : Fld) (s : State),
     (c = .noHandover ∧ f = F.SPM_FLT_NO_HANDOVER ∧ spinState s = Sp.openLoop) ∨
       (c = .spinTimeout ∧ f = F.SPM_FLT_SPIN_TIMEOUT ∧ spinState s ∈ [Sp.openLoop, Sp.runup, Sp.locking]) →
     ∃ u : State, exec c s = .next (if s.get F.SPM_STAT_ATTEMPT ≤ min 5 (s.get F.SPM_START_CFG_RETRY) then (requestBrake .retry u).settle else
         spinLost (requestBrake .fault (u.flag F.SPM_FLT_START_FAIL))) ∧
       u.get f = 1 ∧
       u.get F.SPM_CNT_FAILED = min (s.get F.SPM_CNT_FAILED + 1) (2 ^ F.SPM_CNT_FAILED.width - 1) ∧
       u.spm = s.spm ∧
       onlyParts [.regs, .evr, .tly, .ccx] s u) ∧
  (∀ (s : State),
     spinState s = Sp.retryWait →
     ∃ t : State, exec .retryWaitEnd s = .next t ∧
       spinState t = Sp.sense ∧
       t.get F.SPM_STAT_ATTEMPT = (s.get F.SPM_STAT_ATTEMPT + 1) % 2 ^ F.SPM_STAT_ATTEMPT.width ∧
       t.mot = { s.mot with spindle := (List.range 6).map (fun i => spindleWord i 0 0 (max 1 (s.get F.SPM_START_CFG_PULSE))) } ∧
       t.spm.sense = [] ∧
       (s.get F.SPM_STAT_ATTEMPT ≠ 0 → t.spm.keDone = s.spm.keDone) ∧
       regsKept [R.SPM_STAT] s t ∧
       onlyParts [.regs, .ccx, .mot, .spm] s t) ∧
  (∀ (s : State),
     (s.on F.CFG_LOAD_STAT_DONE = true → s.glb.lost1.getLsbD 6 = false → exec (.spmSelfTest true) s = .next
         (s.setReg R.GLB_UNIT_OK1 (s.reg R.GLB_UNIT_OK1 ||| (1#32 <<< 6))).settle ∧ exec (.spmSelfTest false) s = .next (s.loseUnit1 6)) ∧
     (s.on F.CFG_LOAD_STAT_DONE = false ∨ s.glb.lost1.getLsbD 6 = true → exec (.spmSelfTest true) s = .next s ∧ exec (.spmSelfTest false) s = .next
         s) ∧
     (spinState s ≠ Sp.stopped → exec .rotorRestCheck s = .next s) ∧
     (spinState s ≠ Sp.sense → exec .senseDone s = .next s) ∧
     (spinState s ≠ Sp.keCheck → ∀ mean, exec (.keCheckEnd mean) s = .next s) ∧
     (spinState s ≠ Sp.openLoop → exec .noHandover s = .next s) ∧
     (spinState s ∉ [Sp.openLoop, Sp.runup, Sp.locking] → exec .spinTimeout s = .next s) ∧
     (spinState s ≠ Sp.retryWait → exec .retryWaitEnd s = .next s))

/-- R204 to R220. A revolution's crossings give the speed shown, and the loop acts on it (`runSpeed`); without a revolution nothing changes. A
missing crossing in AT_SPEED or CHANGING, and a change out of time, set their flag, retract every actuator and brake to FAULT with SPM lost. A
brake command in a spinning state with every actuator quiet brakes at once, and else waits; in another state it is refused. A probe of the brake
begins a coast; with 2,000 samples it is judged: below STOP_MV the brake has ended where it leads, else it goes on. The end of a power-fail coast
brakes without the condition on the actuators. A clear-fault leads from FAULT to STOPPED and is refused elsewhere. A cadence request for an
undeclared cadence is refused; for a declared one in AT_SPEED it begins a change with every present lane draining, in CHANGING it moves the goal,
elsewhere it is noted. The drain's end discards write data not yet read and starts the ramp; the ramp's end is noted; a resumed lane's pause
ends. -/
def Obligations.SpindleRegulatesBrakesAndChangesCadence : Prop :=
  (∀ (ns : Nat) (s : State),
     revolution s = some ns →
     exec .speedUpdate s = .next
       (spinRestored (runSpeed ((ns : Rat) / 1000000) (s.put F.SPM_SPEED_SPEED (min (2 ^ 17 - 1) (600000000000 / ns))))).settle ∧
     (spinState s ∈ [Sp.stopped, Sp.openLoop, Sp.braking, Sp.fault, Sp.partner] → exec .speedUpdate s = .next
         (s.put F.SPM_SPEED_SPEED (min (2 ^ 17 - 1) (600000000000 / ns))).settle)) ∧
  (∀ (ns : Nat) (s : State),
     revolution s = some ns → spinState s = Sp.atSpeed → s.spm.okState ≠ 2 →
     inRegulation (s.put F.SPM_SPEED_SPEED (min (2 ^ 17 - 1) (600000000000 / ns))) (s.get F.SPM_REG_CFG_FAULT_TOL) = true →
     ∃ u : State, exec .speedUpdate s = .next u.settle ∧
       u.get F.SPM_SPEED_SPEED = min (2 ^ 17 - 1) (600000000000 / ns) ∧
       u.spm.faultRevs = 0 ∧
       spinState u = Sp.atSpeed ∧
       regsKept [R.SPM_SPEED] s u ∧
       onlyParts [.regs, .spm] s u) ∧
  (∀ (s : State),
     revolution s = none →
     exec .speedUpdate s = .next s) ∧
  (∀ (c : Instr) (f : Fld) (s : State),
     (c = .zcTimeout ∧ f = F.SPM_FLT_REG_LOST ∧ spinState s ∈ [Sp.atSpeed, Sp.changing]) ∨
       (c = .cadTimeout ∧ f = F.SPM_FLT_CAD_TIMEOUT ∧ spinState s = Sp.changing ∧ s.spm.ramping = false ∧ s.spm.draining = false) →
     ∃ u : State, exec c s = .next (spinLost (requestBrake .fault u)) ∧
       u.get f = 1 ∧
       (∀ n : Lane, motionQuiet s n = false → motionState u n = Mo.retract) ∧
       (∀ n : Lane, motionQuiet s n = true → motionState u n = motionState s n) ∧
       u.spm = s.spm ∧
       onlyParts [.regs, .evr, .tly, .ccx, .lns, .mss, .svs, .rly, .reports, .sent, .freeN] s u) ∧
  (∀ (s : State),
     s.accepts R.SPM_CMD = true → Sp.sense ≤ spinState s ∧ spinState s ≤ Sp.locking ∨ spinState s = Sp.atSpeed → allQuiet s = true →
     s.spm.brakeDue ≠ some .fault →
     ∃ u : State, exec .spindleBrake s = .next (u.settle.answer .done) ∧
       spinState u = Sp.braking ∧
       u.get F.SPM_STAT_AT_SPEED = 0 ∧
       u.mot.spindle = [] ∧
       u.spm = { s.spm with after := .stopped, brakeDue := none, restCheck := false, decel := false, probing := false } ∧
       regsKept [R.SPM_STAT, R.MOT_SPN_CMD] s u ∧
       onlyParts [.regs, .ccx, .mot, .spm, .sent] s u) ∧
  (∀ (s : State),
     s.accepts R.SPM_CMD = true → Sp.sense ≤ spinState s → spinState s ≤ Sp.changing → allQuiet s = false →
     exec .spindleBrake s = .next
       ((s.onSpm (fun m => { m with brakeDue := some (if m.brakeDue = some .fault then .fault else .stopped) })).settle.answer .done)) ∧
  (∀ (s : State),
     s.accepts R.SPM_CMD = true → spinState s = Sp.stopped ∨ Sp.braking ≤ spinState s →
     exec .spindleBrake s = .next ((s.flag F.SPM_FLT_REQ_REJ).settle.answer .done)) ∧
  (∀ (s : State),
     spinState s = Sp.braking → s.spm.probing = false →
     exec .brakeProbe s = .next (spinCoast (s.onSpm (fun m => { m with probing := true, volts := [] })))) ∧
  (∀ (s : State),
     spinState s = Sp.braking → s.spm.probing = true → 2000 ≤ s.spm.volts.length → peakVolts s < s.get F.SPM_BRAKE_CFG_STOP_MV →
     s.spm.after ≠ .start →
     ∃ u : State, exec .brakeProbe s = .next u.settle ∧
       spinState u = (match s.spm.after with | .fault => Sp.fault | .retry => Sp.retryWait | _ => Sp.stopped) ∧
       u.get F.SPM_SPEED_SPEED = 0 ∧
       u.spm = { s.spm with probing := false } ∧
       regsKept [R.SPM_STAT, R.SPM_SPEED, R.MOT_SPN_CMD] s u ∧
       onlyParts [.regs, .ccx, .mot, .spm, .sent] s u) ∧
  (∀ (s : State),
     spinState s = Sp.braking → s.spm.probing = true → 2000 ≤ s.spm.volts.length → s.get F.SPM_BRAKE_CFG_STOP_MV ≤ peakVolts s →
     exec .brakeProbe s = .next (spinBrake (s.onSpm (fun m => { m with probing := false })))) ∧
  (∀ (s : State),
     spinState s = Sp.pfCoast →
     ∃ t : State, exec .pfCoastEnd s = .next t ∧
       spinState t = Sp.braking ∧
       t.spm = { s.spm with unparked := true, after := .stopped, brakeDue := none, restCheck := false, decel := false, probing := false } ∧
       t.mot.spindle = [] ∧
       regsKept [R.SPM_STAT, R.MOT_SPN_CMD] s t ∧
       onlyParts [.regs, .ccx, .mot, .spm, .sent] s t) ∧
  (∀ (s : State),
     s.accepts R.SPM_CMD = true → spinState s = Sp.fault →
     ∃ u : State, exec .spindleClearFault s = .next (u.settle.answer .done) ∧
       spinState u = Sp.stopped ∧
       u.spm = { s.spm with okState := if s.spm.okState = 1 then 2 else s.spm.okState } ∧
       regsKept [R.SPM_STAT] s u ∧
       onlyParts [.regs, .ccx, .spm] s u) ∧
  (∀ (s : State),
     s.accepts R.SPM_CMD = true → spinState s ≠ Sp.fault →
     exec .spindleClearFault s = .next ((s.flag F.SPM_FLT_REQ_REJ).settle.answer .done)) ∧
  (∀ (c : BitVec 2) (s : State),
     earlyWrite s R.SPM_CAD_REQ = false → cadenceDeclared s c.toNat = true → spinState s = Sp.atSpeed → c.toNat ≠ cadence s →
     ∃ u : State, exec (.cadenceRequest c) s = .next (u.settle.answer .done) ∧
       spinState u = Sp.changing ∧
       u.get F.SPM_CAD_REQ_CAD = c.toNat ∧
       u.spm.goal = c.toNat ∧
       u.spm.draining = true ∧
       (∀ n : Lane, lanePresent s n = true → (u.ln n).drain = true ∧ u.get ((⟨R.MSn_INT n, 6, 0⟩ : Fld).bit 4) = 1) ∧
       (∀ n : Lane, u.get (F.SVn_STAT_CAD_CHANGE n) = 1) ∧
       (∀ n : Lane, (u.sv n).switch = some (min c.toNat (cadence s), false)) ∧
       onlyParts [.regs, .ccx, .lns, .svs, .spm, .rly] s u) ∧
  (∀ (c : BitVec 2) (s : State),
     earlyWrite s R.SPM_CAD_REQ = false →
     (cadenceDeclared s c.toNat = false → exec (.cadenceRequest c) s = .next ((s.flag F.SPM_FLT_REQ_REJ).settle.answer .done)) ∧
     (cadenceDeclared s c.toNat = true → spinState s = Sp.atSpeed → c.toNat = cadence s → exec (.cadenceRequest c) s = .next
         ((s.put F.SPM_CAD_REQ_CAD c.toNat).settle.answer .done)) ∧
     (cadenceDeclared s c.toNat = true → spinState s ∉ [Sp.atSpeed, Sp.changing] → exec (.cadenceRequest c) s = .next
         (((s.put F.SPM_CAD_REQ_CAD c.toNat).onSpm (fun m => { m with goal := c.toNat })).settle.answer .done)) ∧
     (cadenceDeclared s c.toNat = true → spinState s = Sp.changing → c.toNat ≠ s.spm.goal → exec (.cadenceRequest c) s = .next (
           ((s.put F.SPM_CAD_REQ_CAD c.toNat).onSpm (fun m => { m with goal := c.toNat, ramping := !m.draining, lockRevs := 0 })).settle.answer
           .done))) ∧
  (∀ (s : State),
     s.spm.draining = true → spinState s = Sp.changing → lanes.any (fun n => lanePresent s n && gateOpen s n) = false →
     ∃ t : State, exec .drainComplete s = .next t ∧
       t.spm = { s.spm with draining := false, ramping := true } ∧
       (∀ n : Lane, t.ln n = { s.ln n with wfifo := [] }) ∧
       ((∀ n : Lane, (s.ln n).wfifo = []) → t = s.onSpm (fun m => { m with draining := false, ramping := true })) ∧
       onlyParts [.regs, .evr, .tly, .ccx, .lns, .spm, .rly] s t) ∧
  (∀ (s : State),
     spinState s = Sp.changing → s.spm.ramping = true → s.spm.ref = (rpmOf s.spm.goal : Rat) →
     exec .cadenceRampEnd s = .next (s.onSpm (fun m => { m with ramping := false, lockRevs := 0 }))) ∧
  (∀ (n : Lane) (s : State),
     (s.ln n).drain = true → spinState s = Sp.atSpeed → s.on (F.LNn_STAT_PLL_LOCK n) = true ∨ s.get (F.LNn_BPW_BPW n) = 0 →
     ∃ u : State, exec (.laneResume n) s = .next u.settle ∧
       u.ln n = { s.ln n with drain := false } ∧
       (u.act (actOf s n)).pausedAt = none ∧
       (∀ w, (s.act (actOf s n)).pausedAt = some w → (u.act (actOf s n)).pauseW = (s.act (actOf s n)).pauseW + ((s.sv n).wedges - w) ∧ u.get
           F.SPM_CAD_STAT_LAST_PAUSE = max (s.get F.SPM_CAD_STAT_LAST_PAUSE) (min (2 ^ 24 - 1) ((s.now.toNat - s.spm.drainAt) / 100))) ∧
       (∀ m, m ≠ n → u.ln m = s.ln m) ∧
       regsKept [R.SPM_CAD_STAT] s u ∧
       onlyParts [.regs, .lns, .rly] s u) ∧
  (∀ (n : Lane) (s : State),
     (spinState s ≠ Sp.braking → exec .brakeProbe s = .next s) ∧
     (spinState s ≠ Sp.pfCoast → exec .pfCoastEnd s = .next s) ∧
     (spinState s ≠ Sp.changing → exec .drainComplete s = .next s ∧ exec .cadenceRampEnd s = .next s ∧ exec .cadTimeout s = .next s) ∧
     (spinState s ∉ [Sp.atSpeed, Sp.changing] → exec .zcTimeout s = .next s) ∧
     ((s.ln n).drain = false → exec (.laneResume n) s = .next s))

/-- R232, R240 to R246: RUN from 0 to 1 in a running mode starts the sequencer at 0x000 with its registers, counters, flags, stack and MASK cleared,
and outside them waits for one; RUN to 0 halts it at once at a safe point that has not begun to act, and else is noted; RESUME goes on at PC with
nothing cleared; FW raises interrupt 6. A word's fault suppresses its changes and traps to 0x001 with the record of R242; an enabled interrupt
traps to 0x002, from a waiting safe point with the word's address as the return address, else after the whole word; a fault in a handler halts it
FAULTED with DOUBLE_FAULT and keeps the return address. A forced halt records itself, counts, and is a mode halt where RUN stands outside the
running modes. A cycle hold's end sets a ready word running (R232); a baud target's never comes without lock. -/
def Obligations.SequencerRunsTrapsAndHalts : Prop :=
  (∀ (n : Lane) (s : State),
     s.accepts (R.MSn_CTL n) = true → s.on (F.MSn_CTL_RUN n) = false → seqState s n = Seq.halted ∨ seqState s n = Seq.faulted →
     (s.ms n).storeErr = false → seqMode s.mode = true →
     ∃ t : State, exec (.run n) s = .next t ∧
       t.bus = .done ∧
       t.get (F.MSn_CTL_RUN n) = 1 ∧
       t.get (F.MSn_STAT_PC n) = 0 ∧
       t.get (F.MSn_STAT_MASK n) = 0 ∧
       t.get (F.MSn_STAT_MODE_HALT n) = 0 ∧
       seqRuns t n = true ∧
       (t.ms n).cur =
         { SeqRegs.clear with gate := (s.ms n).nxt.gate, op := (s.ms n).nxt.op, xfer := (s.ms n).nxt.xfer, sectNo := (s.ms n).nxt.sectNo } ∧
       regsKept [R.MSn_CTL n, R.MSn_STAT n] s t ∧
       onlyParts [.regs, .mss, .bus] s t) ∧
  (∀ (n : Lane) (s : State),
     s.accepts (R.MSn_CTL n) = true → s.on (F.MSn_CTL_RUN n) = false → seqState s n = Seq.halted → (s.ms n).storeErr = false →
     seqMode s.mode = false →
     ∃ t : State, exec (.run n) s = .next t ∧
       (t.ms n).startDue = true ∧
       t.get (F.MSn_CTL_RUN n) = 1 ∧
       seqState t n = Seq.halted ∧
       t.bus = .done ∧
       regsKept [R.MSn_CTL n, R.MSn_STAT n] s t ∧
       onlyParts [.regs, .mss, .bus] s t) ∧
  (∀ (n : Lane) (s : State),
     s.accepts (R.MSn_CTL n) = true → s.on (F.MSn_CTL_RUN n) = true → seqRuns s n = true → mw (seqWord s n) 141 141 = 1 → (s.ms n).acted = 0 →
     ∃ t : State, exec (.runStop n) s = .next t ∧
       seqState t n = Seq.halted ∧
       t.get (F.MSn_CTL_RUN n) = 0 ∧
       t.get (F.MSn_STAT_PC n) = s.get (F.MSn_STAT_PC n) ∧
       (t.ms n).cur = { (s.ms n).nxt with gate := 0 } ∧
       t.bus = .done ∧
       onlyParts [.regs, .evr, .tly, .ccx, .lns, .mss, .rly, .reports, .sent, .freeN, .bus] s t) ∧
  (∀ (n : Lane) (s : State),
     s.accepts (R.MSn_CTL n) = true → s.on (F.MSn_CTL_RUN n) = true → seqRuns s n = true → mw (seqWord s n) 141 141 = 0 →
     ∃ t : State, exec (.runStop n) s = .next t ∧
       (t.ms n).stopping = true ∧
       seqState t n = seqState s n ∧
       t.get (F.MSn_CTL_RUN n) = 0 ∧
       t.bus = .done ∧
       regsKept [R.MSn_CTL n, R.MSn_STAT n] s t ∧
       onlyParts [.regs, .mss, .bus] s t) ∧
  (∀ (n : Lane) (s : State),
     s.accepts (R.MSn_CTL n) = true → s.on (F.MSn_CTL_RUN n) = true → seqState s n = Seq.halted → seqMode s.mode = true →
     (s.ms n).storeErr = false →
     ∃ t : State, exec (.sequencerResume n) s = .next t ∧
       seqRuns t n = true ∧
       t.get (F.MSn_STAT_PC n) = s.get (F.MSn_STAT_PC n) ∧
       (t.ms n).cur = (s.ms n).nextRegs ∧
       (t.ms n).nxt = (s.ms n).nextRegs ∧
       t.get (F.MSn_STAT_MASK n) = s.get (F.MSn_STAT_MASK n) ∧
       t.get (F.MSn_STAT_MODE_HALT n) = 0 ∧
       t.bus = .done ∧
       regsKept [R.MSn_STAT n] s t ∧
       onlyParts [.regs, .mss, .bus] s t) ∧
  (∀ (n : Lane) (s : State),
     s.accepts (R.MSn_INT n) = true →
     exec (.firmwareInterrupt n) s = .next ((s.put (F.MSn_INT_FW n) 1).answer .done)) ∧
  (∀ (n : Lane) (c : Nat) (s : State),
     seqRuns s n = true → (s.ms n).stopping = false → mw (seqWord s n) 32 32 = 0 → wordFault s n = some c → s.on (F.MSn_STAT_MASK n) = false →
     ∃ t : State, exec (.trap n) s = .next t ∧
       t.get (F.MSn_STAT_PC n) = 1 ∧
       t.get (F.MSn_STAT_MASK n) = 1 ∧
       t.get (F.MSn_TRAP_CAUSE n) = c ∧
       t.get (F.MSn_TRAP_PC n) = s.get (F.MSn_STAT_PC n) ∧
       t.get (F.MSn_TRAP_RET n) = s.get (F.MSn_STAT_PC n) ∧
       t.get (F.MSn_TRAP_LC_LC0 n) = (s.ms n).cur.lc0.toNat ∧
       t.get (F.MSn_TRAP_LC_LC1 n) = (s.ms n).cur.lc1.toNat ∧
       t.get (F.MSn_TRAP_AUX_PENDING n) = s.get ⟨R.MSn_INT n, 6, 0⟩ ∧
       (t.ms n).cur = ({ s.ms n with nxt := { (s.ms n).cur with gate := (s.ms n).nxt.gate } } : Ms).nextRegs ∧
       t.get (F.MSn_CNT_FAULTS n) = min (s.get (F.MSn_CNT_FAULTS n) + 1) 255 ∧
       regsKept [R.MSn_STAT n, R.MSn_TRAP n, R.MSn_TRAP_LC n, R.MSn_TRAP_AUX n, R.MSn_CNT n] s t ∧
       onlyParts [.regs, .mss] s t) ∧
  (∀ (n : Lane) (b : Nat) (s : State),
     seqRuns s n = true → (s.ms n).stopping = false → mw (seqWord s n) 32 32 = 0 → wordFault s n = none → wordWaits s n = true →
     mw (seqWord s n) 141 141 = 1 → pendingInt s n = some b →
     ∃ t : State, exec (.trap n) s = .next t ∧
       t.get (F.MSn_STAT_PC n) = 2 ∧
       t.get (F.MSn_STAT_MASK n) = 1 ∧
       t.get (F.MSn_TRAP_CAUSE n) = 0x10 + b ∧
       t.get (F.MSn_TRAP_RET n) = s.get (F.MSn_STAT_PC n) ∧
       t.get ((⟨R.MSn_INT n, 6, 0⟩ : Fld).bit b) = 0 ∧
       (t.ms n).cur = ({ s.ms n with nxt := { (s.ms n).cur with gate := (s.ms n).nxt.gate } } : Ms).nextRegs ∧
       regsKept [R.MSn_STAT n, R.MSn_TRAP n, R.MSn_TRAP_LC n, R.MSn_TRAP_AUX n, R.MSn_INT n] s t ∧
       onlyParts [.regs, .mss] s t) ∧
  (∀ (n : Lane) (c : Nat) (s : State),
     seqRuns s n = true → (s.ms n).stopping = false → mw (seqWord s n) 32 32 = 0 → wordFault s n = some c → s.on (F.MSn_STAT_MASK n) = true →
     ∃ t : State, exec (.trap n) s = .next t ∧
       seqState t n = Seq.faulted ∧
       t.get (F.MSn_TRAP_CAUSE n) = 0x20 ∧
       t.get (F.MSn_STAT_PC n) = s.get (F.MSn_STAT_PC n) ∧
       t.get (F.MSn_TRAP_RET n) = s.get (F.MSn_TRAP_RET n) ∧
       t.get (F.MSn_CNT_FAULTS n) = min (s.get (F.MSn_CNT_FAULTS n) + 1) 255 ∧
       onlyParts [.regs, .evr, .tly, .ccx, .lns, .mss, .rly, .reports, .sent, .freeN] s t) ∧
  (∀ (n : Lane) (s : State),
     seqRuns s n = true → seqMode s.mode = false ∨ (s.ms n).stopping = true →
     ∃ t : State, exec (.forcedHalt n) s = .next t ∧
       seqState t n = Seq.halted ∧
       t.get (F.MSn_TRAP_CAUSE n) = 0x22 ∧
       t.get (F.MSn_STAT_PC n) = s.get (F.MSn_STAT_PC n) ∧
       t.get (F.MSn_CNT_FORCED n) = min (s.get (F.MSn_CNT_FORCED n) + 1) 255 ∧
       (s.on (F.MSn_CTL_RUN n) = true → seqMode s.mode = false → t.get (F.MSn_STAT_MODE_HALT n) = 1) ∧
       onlyParts [.regs, .evr, .tly, .ccx, .lns, .mss, .rly, .reports, .sent, .freeN] s t) ∧
  (∀ (n : Lane) (s : State),
     mw (seqWord s n) 140 139 = 2 → seqRuns s n = true → (s.ms n).holding = true →
     (s.onMs n (fun m => { m with holding := false })).wordReady n = true →
     exec (.timerHoldEnd n) s = .next ((s.onMs n (fun m => { m with holding := false })).put (F.MSn_STAT_STATE n) Seq.running)) ∧
  (∀ (n : Lane) (s : State),
     mw (seqWord s n) 140 139 = 1 → s.on (F.LNn_STAT_PLL_LOCK n) = false →
     exec (.timerHoldEnd n) s = .next (s)) ∧
  (∀ (n : Lane) (b : Nat) (s : State),
     seqRuns s n = true → (s.ms n).stopping = false → mw (seqWord s n) 32 32 = 0 → wordFault s n = none → wordHolds s n = false →
     mw (seqWord s n) 141 141 = 1 → pendingInt s n = some b →
     exec (.trap n) s = .next (finishWord n (s.put (F.MSn_STAT_STATE n) Seq.running)))

/-- R229 and R230, word by word: BRANCH goes to BR_ADDR where COND, inverted by CPOL, is true or TMODE is 3, otherwise to NEXT; LOOPk counts LCk
down, a value of 0 taken as 1 (unless the word's ALU writes LCk); CALL pushes NEXT; RETURN pops; DISPATCH adds the last popped opcode modulo
4,096; HALT stops at the word; TRAP_RETURN clears MASK and goes to the recorded address; a push onto a full stack and a pop of an empty one
fault. An interrupt pending at a CALL that is a safe point is taken with the chosen address as its return address (R242). These hold whatever
other fields the word carries; a word that carries none changes nothing outside its sequencer. A store error halts the sequencer and loses the
lane (R224). -/
def Obligations.MicrowordChoosesNextAddress : Prop :=
  (∀ (n : Lane) (s : State),
     s.wordReady n = true → pendingInt s n = none → mw (seqWord s n) 144 142 = 0 →
     ∃ t : State, exec (.branch n true) s = .next t ∧
       t.get (F.MSn_STAT_PC n) = (if mw (seqWord s n) 140 139 = 3 ∨ (s.ms n).conds.getLsbD (mw (seqWord s n) 151 146) ≠
           (mw (seqWord s n) 145 145 == 1) then mw (seqWord s n) 163 152 else mw (seqWord s n) 175 164) ∧
       (t.ms n).cur = (t.ms n).nxt) ∧
  (∀ (n : Lane) (b : Nat) (s : State),
     s.wordReady n = true → pendingInt s n = some b → mw (seqWord s n) 141 141 = 1 → mw (seqWord s n) 144 142 = 3 →
     ∃ t : State, exec (.call n true) s = .next t ∧
       t.get (F.MSn_STAT_PC n) = 2 ∧
       t.get (F.MSn_TRAP_RET n) = mw (seqWord s n) 163 152 ∧
       t.get (F.MSn_TRAP_PC n) = s.get (F.MSn_STAT_PC n) ∧
       t.get (F.MSn_TRAP_CAUSE n) = 0x10 + b ∧
       t.get (F.MSn_STAT_MASK n) = 1) ∧
  (∀ (n : Lane) (s : State),
     s.wordReady n = true → pendingInt s n = none → mw (seqWord s n) 144 142 = 1 → aluWritesLc (seqWord s n) 0 = false →
     ∃ t : State, exec (.loop n true) s = .next t ∧
       t.get (F.MSn_STAT_PC n) = (if 1 < (s.ms n).cur.lc0.toNat then mw (seqWord s n) 163 152 else mw (seqWord s n) 175 164) ∧
       (t.ms n).cur.lc0 = (if 1 < (s.ms n).cur.lc0.toNat then (s.ms n).cur.lc0 - 1 else 0)) ∧
  (∀ (n : Lane) (s : State),
     s.wordReady n = true → pendingInt s n = none → mw (seqWord s n) 144 142 = 2 → aluWritesLc (seqWord s n) 1 = false →
     ∃ t : State, exec (.loop n true) s = .next t ∧
       t.get (F.MSn_STAT_PC n) = (if 1 < (s.ms n).cur.lc1.toNat then mw (seqWord s n) 163 152 else mw (seqWord s n) 175 164) ∧
       (t.ms n).cur.lc1 = (if 1 < (s.ms n).cur.lc1.toNat then (s.ms n).cur.lc1 - 1 else 0)) ∧
  (∀ (n : Lane) (s : State),
     s.wordReady n = true → pendingInt s n = none → mw (seqWord s n) 144 142 = 3 →
     ∃ t : State, exec (.call n true) s = .next t ∧
       t.get (F.MSn_STAT_PC n) = mw (seqWord s n) 163 152 ∧
       (t.ms n).cur.stack = BitVec.ofNat 12 (mw (seqWord s n) 175 164) :: (s.ms n).nxt.stack) ∧
  (∀ (n : Lane) (a : BitVec 12) (rest : List (BitVec 12)) (s : State),
     s.wordReady n = true → pendingInt s n = none → mw (seqWord s n) 144 142 = 4 → (s.ms n).cur.stack = a :: rest →
     ∃ t : State, exec (.return_ n true) s = .next t ∧
       t.get (F.MSn_STAT_PC n) = a.toNat ∧
       (t.ms n).cur.stack = rest) ∧
  (∀ (n : Lane) (s : State),
     s.wordReady n = true → pendingInt s n = none → mw (seqWord s n) 144 142 = 5 →
     ∃ t : State, exec (.dispatch n true) s = .next t ∧
       t.get (F.MSn_STAT_PC n) = (mw (seqWord s n) 163 152 + (s.ms n).cur.op.toNat) % 4096) ∧
  (∀ (n : Lane) (s : State),
     s.wordReady n = true → mw (seqWord s n) 144 142 = 6 →
     ∃ t : State, exec (.halt n true) s = .next t ∧
       seqState t n = Seq.halted ∧
       t.get (F.MSn_STAT_PC n) = s.get (F.MSn_STAT_PC n) ∧
       (seqMode s.mode = false → t.get (F.MSn_STAT_MODE_HALT n) = 1)) ∧
  (∀ (n : Lane) (s : State),
     s.wordReady n = true → pendingInt s n = none → mw (seqWord s n) 144 142 = 7 →
     ∃ t : State, exec (.trapReturn n true) s = .next t ∧
       t.get (F.MSn_STAT_PC n) = s.get (F.MSn_TRAP_RET n) ∧
       t.get (F.MSn_STAT_MASK n) = 0) ∧
  (∀ (n : Lane) (s : State),
     (s.ms n).acted = 0 → s.get (F.MSn_STAT_PC n) ≠ 0xFFF → reservedCode (seqWord s n) = false → mw (seqWord s n) 140 139 = 0 →
     mw (seqWord s n) 119 117 = 0 → mw (seqWord s n) 85 83 = 0 →
     (mw (seqWord s n) 144 142 = 3 → 4 ≤ (s.ms n).cur.stack.length → wordFault s n = some 0x04) ∧
     (mw (seqWord s n) 144 142 = 4 → (s.ms n).cur.stack = [] → wordFault s n = some 0x05) ∧
     (mw (seqWord s n) 144 142 = 7 → s.on (F.MSn_STAT_MASK n) = false → wordFault s n = some 0x05)) ∧
  (∀ (n : Lane) (c : Instr) (k : Nat) (s : State),
     (k, c) ∈ [(0, Instr.branch n false), (1, .loop n false), (2, .loop n false), (3, .call n false), (4, .return_ n false), (5, .dispatch n false),
         (6, .halt n false), (7, .trapReturn n false)] → seqRuns s n = true → mw (seqWord s n) 144 142 = k →
     exec c s = .next ((storeErrHalt n s).loseUnit0 (12 + n)) ∧
     ((storeErrHalt n s).ms n).storeErr = true ∧
     seqState (storeErrHalt n s) n = Seq.faulted ∧
     (storeErrHalt n s).get (F.MSn_TRAP_CAUSE n) = 0x21) ∧
  (∀ (n : Lane) (c : Instr) (k : Nat) (s : State),
     (k, c) ∈ [(0, Instr.branch n true), (1, .loop n true), (2, .loop n true), (3, .call n true), (4, .return_ n true), (5, .dispatch n true),
         (7, .trapReturn n true)] → s.wordReady n = true → pendingInt s n = none → mw (seqWord s n) 144 142 = k → mw (seqWord s n) 121 117 = 0 →
     mw (seqWord s n) 93 92 = 0 → mw (seqWord s n) 85 68 = 0 → mw (seqWord s n) 35 33 = 0 →
     ∃ t : State, exec c s = .next t ∧
       (∀ m : Lane, m ≠ n → t.ms m = s.ms m) ∧
       (t.ms n).cmd = (s.ms n).cmd ∧
       (t.ms n).events = (s.ms n).events ∧
       (t.ms n).store = (s.ms n).store ∧
       regsKept [R.MSn_STAT n] s t ∧
       onlyParts [.regs, .mss] s t)

/-- R233 to R235, for a word that executes and whose field has not acted: an open starts a read gate for the described sector with the settings
latched, or its continuation, or yields no codeword where no sync mark is heard; a write open takes the sector's data from the FIFO, or its
parity from the accumulators, and drives it; an early close ends a gate, of a write leaving a sector to be written again while revolutions are
left. A gate frame is scheduled; a setting frame carries W7 or its table's value and a table's is suppressed where the head already holds it; a
register read is queued; OVR sets and clears the read override; SECT builds the descriptor from W0 to W4 and HD, code 4 clears the track-parity
accumulators. A word with an open under POWER_FAIL completes without effect. -/
def Obligations.MicrowordGatesAndBusFieldsAct : Prop :=
  (∀ (n : Lane) (heard : BitVec 112) (d : Sector) (s : State),
     s.wordReady n = true → mw (seqWord s n) 121 120 = 1 → (s.ms n).acted = 0 → contFor s n 1 = none → gateSector s n = some d → d.part = 0 →
     s.on F.GLB_MODE_COND_POWER_FAIL = false → markFound heard = true →
     ∃ t : State, exec (.openRead n heard) s = .next t ∧
       t.get (F.LNn_STAT_RD_GATE n) = 1 ∧
       t.get (F.LNn_STAT_ZONE n) = d.zone % 32 ∧
       t.get (F.LNn_STAT_HEAD n) = d.head.toNat ∧
       (t.ln n).gate = some { d with badWedge := (s.ln n).rdUnsafe, front := some (readFront (latchSettings n s) n d.head.toNat d.zone) } ∧
       (t.ln n).reads = (s.ln n).reads ++
         [{ d with badWedge := (s.ln n).rdUnsafe, front := some (readFront (latchSettings n s) n d.head.toNat d.zone) }] ∧
       (t.ln n).ctl = s.reg (R.LNn_CTL n) ∧
       (t.ln n).det = s.reg (R.LNn_DET_CTL n) ∧
       (t.ms n).nxt.gate = 1 ∧
       regsKept [R.MSn_STAT n, R.LNn_STAT n] s t ∧
       onlyParts [.regs, .lns, .mss, .rly] s t) ∧
  (∀ (n : Lane) (heard : BitVec 112) (d : Sector) (s : State),
     s.wordReady n = true → mw (seqWord s n) 121 120 = 1 → (s.ms n).acted = 0 → contFor s n 1 = none → gateSector s n = some d → d.part = 0 →
     s.on F.GLB_MODE_COND_POWER_FAIL = false → markFound heard = false → (s.ln n).ladder = none → sectorGroup s d = none →
     ∃ t : State, exec (.openRead n heard) s = .next t ∧
       (∀ e : Sector, e ∈ (t.ln n).reads → e.same d = false) ∧
       (∀ j : DecodeJob, j ∈ t.ldp.waiting → j.lane = n → j.kind ≠ .verify → j.sector.same d = false) ∧
       onlyParts [.regs, .evr, .tly, .ccx, .lns, .mss, .ldp, .rly, .reports] s t) ∧
  (∀ (n : Lane) (d : Sector) (heard : BitVec 112) (s : State),
     s.wordReady n = true → mw (seqWord s n) 121 120 = 1 → mw (seqWord s n) 85 83 = 0 → (s.ms n).acted = 0 → contFor s n 1 = some d → d.part ≠ 0 →
     s.on F.GLB_MODE_COND_POWER_FAIL = false → markFound heard = true →
     ∃ t : State, exec (.openRead n heard) s = .next t ∧
       t.get (F.LNn_STAT_RD_GATE n) = 1 ∧
       (t.ln n).gate = some d ∧
       (t.ln n).cont = none ∧
       (t.ln n).desc = (s.ln n).desc ∧
       (t.ln n).reads = (s.ln n).reads ∧
       regsKept [R.MSn_STAT n, R.LNn_STAT n] s t ∧
       onlyParts [.regs, .lns, .mss] s t) ∧
  (∀ (n : Lane) (d : Sector) (s : State),
     s.wordReady n = true → mw (seqWord s n) 121 120 = 2 → (s.ms n).acted = 0 → contFor s n 2 = none → gateSector s n = some d →
     s.on F.GLB_MODE_COND_POWER_FAIL = false → s.get (F.LNn_WR_STAT_INH_NOW n) = 0 → (s.ln n).inh0 = false →
     ∃ t : State, exec (.openWrite n) s = .next t ∧
       t.get (F.LNn_STAT_WR_GATE n) = 1 ∧
       t.get (F.LNn_STAT_ZONE n) = d.zone % 32 ∧
       t.get (F.LNn_STAT_HEAD n) = d.head.toNat ∧
       (t.ln n).desc = none ∧
       (t.ln n).gate.map (fun e => (e.track, e.index, e.lba, e.part)) = some (d.track, d.index, (if parityKind s d = 0 then d.lba else 0), 0) ∧
       (t.ms n).nxt.gate = 2 ∧
       t.sent.length = s.sent.length + 1 ∧
       (parityKind s d = 0 → (t.ln n).wfifo = (s.ln n).wfifo.drop 1 ∧ (t.ln n).gate.map (fun e => e.data) = some ((s.ln n).wfifo.headD [])) ∧
       (parityKind s d ≠ 0 → (t.ln n).wfifo = (s.ln n).wfifo) ∧
       regsKept [R.MSn_STAT n, R.LNn_STAT n, R.LNn_VFY_STAT n] s t ∧
       onlyParts [.regs, .lns, .mss, .rly, .sent] s t) ∧
  (∀ (n : Lane) (d : Sector) (s : State),
     s.wordReady n = true → mw (seqWord s n) 121 120 = 3 → (s.ms n).acted = 0 → s.on (F.LNn_STAT_RD_GATE n) = true → (s.ln n).gate = some d →
     ∃ t : State, exec (.closeNow n) s = .next t ∧
       t.get (F.LNn_STAT_RD_GATE n) = 0 ∧
       (t.ln n).gate = none ∧
       (t.ln n).reads = (s.ln n).reads.filter (fun e => !e.same d) ∧
       (t.ms n).nxt.gate = 0 ∧
       onlyParts [.regs, .bus, .glb, .evr, .tly, .ccx, .lns, .mss, .ldp, .rly, .freeN] s t) ∧
  (∀ (n : Lane) (d : Sector) (s : State),
     s.wordReady n = true → mw (seqWord s n) 121 120 = 3 → (s.ms n).acted = 0 → s.get (F.LNn_STAT_RD_GATE n) = 0 →
     s.get (F.LNn_STAT_WR_GATE n) = 1 → (s.ln n).gate = some d → d.revs < s.get (F.LNn_WR_CTL_WR_RETRY n) →
     ∃ t : State, exec (.closeNow n) s = .next t ∧
       t.get (F.LNn_STAT_WR_GATE n) = 0 ∧
       (t.ln n).gate = none ∧
       (t.ln n).cut = (s.ln n).cut ++ [{ d with source := 6, part := 0 }] ∧
       (t.ln n).gateQ = (s.ln n).gateQ ∧
       t.get (F.LNn_WR_CNT_INTERRUPTED n) = min (s.get (F.LNn_WR_CNT_INTERRUPTED n) + 1) (2 ^ (F.LNn_WR_CNT_INTERRUPTED n).width - 1) ∧
       (d.sampled = true → t.get (F.LNn_VFY_STAT_SAMPLE_CNT n) = d.cnt % 2 ^ (F.LNn_VFY_STAT_SAMPLE_CNT n).width) ∧
       onlyParts [.regs, .evr, .tly, .ccx, .lns, .mss, .rly, .reports, .sent, .freeN] s t) ∧
  (∀ (n : Lane) (s : State),
     s.wordReady n = true → mw (seqWord s n) 119 117 = 1 → mutedWord s n = false → (s.ms n).acted.getLsbD 1 = false → (s.ln n).slept = false →
     ∃ t : State, exec (.gateFrame n) s = .next t ∧
       (t.ln n).gateQ = (s.ln n).gateQ ++ [gateFrameOf (BitVec.ofNat 2 (mw (seqWord s n) 116 115)) (s.ms n).cur.hd (mw (seqWord s n) 105 94) false]
         ∧
       (t.ln n).setQ = (s.ln n).setQ ∧
       regsKept [R.MSn_STAT n] s t ∧
       onlyParts [.regs, .lns, .mss] s t) ∧
  (∀ (n : Lane) (s : State),
     s.wordReady n = true → mw (seqWord s n) 119 117 = 2 → mw (seqWord s n) 108 106 = 5 → mutedWord s n = false → (s.ms n).acted.getLsbD 1 = false →
     (s.ln n).slept = false →
     ∃ t : State, exec (.settingFrame n) s = .next t ∧
       (t.ln n).setQ = (s.ln n).setQ ++
         [settingFrameOf (s.ms n).cur.hd (BitVec.ofNat 6 (mw (seqWord s n) 114 109)) (((s.ms n).cur.w.get 7).truncate 16)] ∧
       regsKept [R.MSn_STAT n] s t ∧
       onlyParts [.regs, .lns, .mss] s t) ∧
  (∀ (n : Lane) (f : PbFrame) (s : State),
     s.wordReady n = true → mw (seqWord s n) 119 117 = 2 → mw (seqWord s n) 108 106 = 2 → mutedWord s n = false → (s.ms n).acted.getLsbD 1 = false →
     (s.ln n).slept = false →
     f = settingFrameOf (s.ms n).cur.hd 0x02 (((tableGet s n 4 (s.ms n).cur.hd.toNat (s.get (F.LNn_STAT_ZONE n)) 0).extractLsb' 0 8).zeroExtend 16)
       →
     ∃ t : State, exec (.settingFrame n) s = .next t ∧
       (t.ln n).setQ =
         (if smGet (64 * (s.ms n).cur.hd.toNat + 2) (s.ln n).lastSent = some (frameData s n f) then (s.ln n).setQ else (s.ln n).setQ ++ [f]) ∧
       regsKept [R.MSn_STAT n] s t ∧
       onlyParts [.regs, .lns, .mss] s t) ∧
  (∀ (n : Lane) (s : State),
     s.wordReady n = true → mw (seqWord s n) 119 117 = 3 → mutedWord s n = false → (s.ms n).acted.getLsbD 1 = false → (s.ln n).slept = false →
     ∃ t : State, exec (.readFaultStat n) s = .next t ∧
       (t.ln n).setQ = (s.ln n).setQ ++ [msReadOf (s.ms n).cur.hd 0x0A] ∧
       regsKept [R.MSn_STAT n] s t ∧
       onlyParts [.regs, .lns, .mss] s t) ∧
  (∀ (n : Lane) (s : State),
     s.wordReady n = true → mw (seqWord s n) 119 117 = 4 → mutedWord s n = false → (s.ms n).acted.getLsbD 1 = false → (s.ln n).slept = false →
     ∃ t : State, exec (.readRegister n) s = .next t ∧
       (t.ln n).setQ = (s.ln n).setQ ++ [msReadOf (s.ms n).cur.hd (BitVec.ofNat 6 (mw (seqWord s n) 114 109))] ∧
       regsKept [R.MSn_STAT n] s t ∧
       onlyParts [.regs, .lns, .mss] s t) ∧
  (∀ (n : Lane) (s : State),
     s.wordReady n = true → mw (seqWord s n) 93 92 = 1 → mutedWord s n = false → (s.ms n).acted.getLsbD 2 = false →
     ∃ t : State, exec (.readOverride n) s = .next t ∧
       (t.ln n).ovr = some ⟨mw (seqWord s n) 91 90, mw (seqWord s n) 89 89 == 1, mw (seqWord s n) 88 87, mw (seqWord s n) 86 86 == 1⟩ ∧
       regsKept [R.MSn_STAT n] s t ∧
       onlyParts [.regs, .lns, .mss] s t) ∧
  (∀ (n : Lane) (s : State),
     s.wordReady n = true → mw (seqWord s n) 93 92 = 2 → mutedWord s n = false → (s.ms n).acted.getLsbD 2 = false →
     ∃ t : State, exec (.readOverride n) s = .next t ∧
       (t.ln n).ovr = none ∧
       regsKept [R.MSn_STAT n] s t ∧
       onlyParts [.regs, .lns, .mss] s t) ∧
  (∀ (n : Lane) (k : Nat) (c : Instr) (s : State),
     s.wordReady n = true → mw (seqWord s n) 85 83 = k →
     (k, c) ∈ [(1, Instr.sectRead n), (2, .sectWrite n), (3, .sectWriteVerify n), (5, .sectReadSpill n)] → mutedWord s n = false →
     (s.ms n).acted.getLsbD 3 = false →
     ∃ t : State, exec c s = .next t ∧
       (t.ln n).desc.map (fun d => (d.write, d.forced, d.spillSum)) = some (k == 2 || k == 3, k == 3, k == 5) ∧
       (t.ln n).desc.map (fun d => (d.head, d.lba, d.band)) = some ((s.ms n).cur.hd, ((s.ms n).cur.w.get 0).toNat + bitsOf
           ((s.ms n).cur.w.get 1).toNat 10 0 * 2 ^ 24, bitsOf ((s.ms n).cur.w.get 4).toNat 19 0) ∧
       (t.ln n).desc.map (fun d => (d.meta_, d.seq)) = some
         (bitsOf ((s.ms n).cur.w.get 1).toNat 13 12, ((s.ms n).cur.w.get 2).toNat + ((s.ms n).cur.w.get 3).toNat * 2 ^ 24) ∧
       (t.ms n).nxt.sectNo = (s.ms n).cur.sectNo + 1 ∧
       regsKept [R.MSn_STAT n] s t ∧
       onlyParts [.regs, .lns, .mss] s t) ∧
  (∀ (n : Lane) (s : State),
     s.wordReady n = true → mw (seqWord s n) 85 83 = 4 → mutedWord s n = false → (s.ms n).acted.getLsbD 3 = false →
     ∃ t : State, exec (.startParityGroup n) s = .next t ∧
       (t.ln n).wgroup = none ∧
       regsKept [R.MSn_STAT n] s t ∧
       onlyParts [.regs, .lns, .mss] s t) ∧
  (∀ (n : Lane) (hi : Nat) (lo : Nat) (c : Instr) (s : State),
     (hi, lo, c) ∈ [(121, 120, Instr.openRead n 0), (121, 120, .openWrite n), (119, 117, .gateFrame n), (119, 117, .settingFrame n),
         (119, 117, .readFaultStat n), (119, 117, .readRegister n), (93, 92, .readOverride n), (85, 83, .sectRead n), (85, 83, .sectWrite n),
         (85, 83, .sectWriteVerify n), (85, 83, .startParityGroup n), (85, 83, .sectReadSpill n), (82, 80, .pop n []), (82, 80, .discard n),
         (79, 72, .eventPost n), (71, 68, .alu n), (35, 33, .clkZone n)] → s.wordReady n = true → mutedWord s n = true →
     (exec c s = .next s ∨ exec c s = .next (s.put (F.MSn_STAT_STATE n) Seq.running)) ∧
     (mw (seqWord s n) hi lo = 0 → exec c s = .next s))

/-- R236 to R239, for a word that executes and whose field has not acted: POP copies OP and W0 to W4 of the first command entry and removes it,
DISCARD only removes it; EVT posts its entry and counts a SLIP; each ALU operation writes its 24-bit result to the next word's registers,
counters and HD taking the low bits, and operations 3 to 10 set ZF and NF; CLK loads BPW of the zone in W2 (a zone beyond the ZONES section is
taken as the last: log 8). -/
def Obligations.MicrowordDataFieldsAct : Prop :=
  (∀ (n : Lane) (m : List CalMeasure) (e : BitVec 128) (rest : List (BitVec 128)) (s : State),
     s.wordReady n = true → mutedWord s n = false → mw (seqWord s n) 82 80 = 1 → (s.ms n).acted.getLsbD 4 = false →
     (s.ms n).acted.getLsbD 6 = false → (s.ms n).cmd = e :: rest →
     ∃ t : State, exec (.pop n m) s = .next t ∧
       (t.ms n).cmd = rest ∧
       (t.ms n).nxt.op = e.extractLsb' 0 8 ∧
       ((t.ms n).nxt.w.get 0, (t.ms n).nxt.w.get 1, (t.ms n).nxt.w.get 2) = (e.extractLsb' 8 24, e.extractLsb' 32 24, e.extractLsb' 56 24) ∧
       ((t.ms n).nxt.w.get 3, (t.ms n).nxt.w.get 4) = (e.extractLsb' 80 24, e.extractLsb' 104 24) ∧
       (t.ms n).nxt.xfer = (if e.extractLsb' 0 8 = 0x01 then
           #v[e.extractLsb' 8 24, e.extractLsb' 32 24, e.extractLsb' 56 24, e.extractLsb' 80 24, e.extractLsb' 104 24] else (s.ms n).nxt.xfer) ∧
       (t.ms n).nxt.sectNo = (if e.extractLsb' 0 8 = 0x01 then 0 else (s.ms n).nxt.sectNo) ∧
       (t.ms n).cur = (s.ms n).cur ∧
       (e.extractLsb' 0 8 ≠ 0x05 → regsKept [R.MSn_STAT n] s t ∧ onlyParts [.regs, .mss] s t)) ∧
  (∀ (n : Lane) (e : BitVec 128) (rest : List (BitVec 128)) (s : State),
     s.wordReady n = true → mutedWord s n = false → mw (seqWord s n) 82 80 = 2 → (s.ms n).acted.getLsbD 4 = false → (s.ms n).cmd = e :: rest →
     ∃ t : State, exec (.discard n) s = .next t ∧
       (t.ms n).cmd = rest ∧
       (t.ms n).nxt = (s.ms n).nxt ∧
       regsKept [R.MSn_STAT n] s t ∧
       onlyParts [.regs, .mss] s t) ∧
  (∀ (n : Lane) (s : State),
     s.wordReady n = true → mutedWord s n = false → mw (seqWord s n) 79 72 ≠ 0 → (s.ms n).acted.getLsbD 5 = false →
     ∃ t : State, exec (.eventPost n) s = .next t ∧
       (t.ms n).events = (s.ms n).events ++
         [msEvent (mw (seqWord s n) 79 72) n (s.ms n).cur.hd.toNat ((s.ms n).cur.w.get 5).toNat ((s.ms n).cur.w.get 6).toNat] ∧
       t.get (F.MSn_CNT_SLIPS n) = (if mw (seqWord s n) 79 72 = 7 then min (s.get (F.MSn_CNT_SLIPS n) + 1) 65535 else s.get (F.MSn_CNT_SLIPS n)) ∧
       (t.ms n).nxt = (s.ms n).nxt ∧
       onlyParts [.regs, .evr, .tly, .ccx, .mss] s t) ∧
  (∀ (n : Lane) (op : Nat) (dst : BitVec 24) (src : BitVec 24) (imm : BitVec 24) (v : BitVec 24) (s : State),
     s.wordReady n = true → mutedWord s n = false → mw (seqWord s n) 71 68 = op → 1 ≤ op → (s.ms n).acted.getLsbD 6 = false →
     dst = seqReg (s.ms n).cur (mw (seqWord s n) 67 64) → src = seqReg (s.ms n).cur (mw (seqWord s n) 63 60) →
     imm = BitVec.ofNat 24 (mw (seqWord s n) 59 36) →
     (op, v) ∈ [(1, src), (2, imm), (3, dst + src), (4, dst + imm), (5, dst - src), (6, dst &&& imm), (7, dst ||| imm),
         (8, src >>> (imm.toNat % 32)), (9, dst - src), (10, dst - imm), (11, BitVec.ofNat 24 ([s.get (F.SVn_LAP_WEDGE n), s.get (F.SVn_LAP_LAP n),
               s.get (F.LNn_STAT_ZONE n), s.get (F.LNn_WR_STAT_INH_NOW n), s.get (F.LNn_VFY_STAT_PENDING n), s.get (F.MSn_TRAP_CAUSE n), 0, 0].getD
             (imm.toNat % 8) 0))] →
     ∃ t : State, exec (.alu n) s = .next t ∧
       (3 ≤ op ∧ op ≤ 10 → (t.ms n).nxt.zf = (v == 0) ∧ (t.ms n).nxt.nf = v.getLsbD 23) ∧
       (¬ (3 ≤ op ∧ op ≤ 10) → (t.ms n).nxt.zf = (s.ms n).nxt.zf ∧ (t.ms n).nxt.nf = (s.ms n).nxt.nf) ∧
       ((op = 9 ∨ op = 10) → (t.ms n).nxt.w = (s.ms n).nxt.w) ∧
       (op ≠ 9 → op ≠ 10 → mw (seqWord s n) 67 64 < 12 → seqReg (t.ms n).nxt (mw (seqWord s n) 67 64) = v) ∧
       (op ≠ 9 → op ≠ 10 → mw (seqWord s n) 67 64 = 12 → (t.ms n).nxt.hd = v.truncate 3) ∧
       (op ≠ 9 → op ≠ 10 → mw (seqWord s n) 67 64 = 13 → (t.ms n).nxt.wcmp = v.truncate 10) ∧
       (op ≠ 9 → op ≠ 10 → mw (seqWord s n) 67 64 = 14 → (t.ms n).nxt.lc0 = v.truncate 16) ∧
       (op ≠ 9 → op ≠ 10 → mw (seqWord s n) 67 64 = 15 → (t.ms n).nxt.lc1 = v.truncate 16) ∧
       (t.ms n).cur = (s.ms n).cur ∧
       regsKept [R.MSn_STAT n] s t ∧
       onlyParts [.regs, .mss] s t) ∧
  (∀ (n : Lane) (f : ZoneFmt) (s : State),
     s.wordReady n = true → mutedWord s n = false → mw (seqWord s n) 35 33 = 1 → (s.ms n).acted.getLsbD 7 = false →
     zoneFmt s (bitsOf ((s.ms n).cur.w.get 2).toNat 4 0) = some f →
     (zonesOf s 0).map (fun z => decide (bitsOf ((s.ms n).cur.w.get 2).toNat 4 0 < z.z)) = some true →
     ∃ t : State, exec (.clkZone n) s = .next t ∧
       t.get (F.LNn_BPW_BPW n) = f.bpw % 2 ^ (F.LNn_BPW_BPW n).width ∧
       t.get (F.LNn_STAT_ZONE n) = bitsOf ((s.ms n).cur.w.get 2).toNat 4 0 ∧
       onlyParts [.regs, .evr, .tly, .ccx, .lns, .mss, .rly, .reports, .sent, .freeN] s t ∧
       (baudM f.bpw (cadence s) ≠ s.get (F.LNn_BAUD_M_M n) → t.get (F.LNn_STAT_PLL_LOCK n) = 0))

/-- R263 to R269: a flush that its interval, its entries or a command makes due, with the map built and none in progress, takes every pending entry,
in order, into whole sectors of 128 entries under the next checkpoint number, or, without space or counter values, stays due. Its placement shows
that number, lets the rewrites whose beginning it carries write, and finishes the Flush commands it served. A flush command starts a flush, or
leaves it due; an image command or a due image starts an image of the checkpoint shown, or leaves it due. A placed image makes the other slot the
newest, frees older journal space, and in phase 1 of a resync tells the partner. -/
def Obligations.BandJournalAndImagesReachTheMedia : Prop :=
  (∀ (b : Bool) (s : State),
     bndRuns s = true → flushReady s = true → (b || flushWanted s) = true →
     ∃ u : State, exec (.journalFlush b) s = .next u.settle ∧
       (u.bnd.flush = none → u.bnd.flushDue = true ∧ u.bnd.jnl = s.bnd.jnl) ∧
       (u.bnd.flush.isSome = true → u.bnd.jnl = [] ∧ u.bnd.freed = [] ∧ u.bnd.flushDue = false) ∧
       (u.bnd.flush.isSome = true → u.bnd.flush.map (fun f => (f.num, f.freed, f.entries.take s.bnd.jnl.length, f.entries.length % 128)) = some
           ((s.get F.BND_CKPT_NUM_NUM + 1) % 2 ^ 32, s.bnd.freed, s.bnd.jnl, 0)) ∧
       u.get F.BND_CKPT_NUM_NUM = s.get F.BND_CKPT_NUM_NUM ∧
       onlyParts [.regs, .rly, .bnd, .bat, .sent] s u) ∧
  (∀ (b : Bool) (s : State),
     bndRuns s = true → (b || flushWanted s) = false ∨ flushReady s = false →
     exec (.journalFlush b) s = .next s.settle) ∧
  (∀ (f : FlushRun) (s : State),
     bndRuns s = true → s.bnd.flush = some f → f.left = 0 →
     ∃ u : State, exec .checkpointPlaced s = .next (erasesPlaced u).settle ∧
       u.get F.BND_CKPT_NUM_NUM = f.num % 2 ^ 32 ∧
       u.get F.BND_JNL_STAT_HELD = 0 ∧
       u.bnd.flush = none ∧
       u.bnd.rewrites = s.bnd.rewrites.map (fun r => if r.new ∈ f.begins then { r with begun := true } else r) ∧
       (f.slots = [] → onlyParts [.regs, .bnd] s u) ∧
       onlyParts [.regs, .rly, .bnd, .qe] s u) ∧
  (∀ (k : Nat) (x : Slot) (f : FlushRun) (s : State),
     bndRuns s = true → s.bnd.flush = some f → f.left = 0 → k ∈ f.slots → s.slot k = some x → x.result = none → x.dropped = false →
     ∃ u : State, exec .checkpointPlaced s = .next (erasesPlaced u).settle ∧
       (u.slot k).bind Slot.result = some okResult) ∧
  (∀ (s : State),
     s.accepts R.BND_CMD = true → bndRuns s = true → flushReady s = false →
     exec .flushCommand s = .next ((s.onBnd (fun b => { b with flushDue := true })).answer .done)) ∧
  (∀ (s : State),
     s.accepts R.BND_CMD = true → bndRuns s = true → flushReady s = true →
     exec .flushCommand s = .next ((startFlush s).answer .done)) ∧
  (∀ (s : State),
     s.accepts R.BND_CMD = true → bndRuns s = true → s.bnd.image = none → s.get F.BND_STAT_STATE = 4 →
     ∃ t : State, exec .imageCommand s = .next t ∧
       (t.bnd.image = none → t.bnd.imageDue = true) ∧
       (t.bnd.image.isSome = true → t.bnd.image.map Prod.fst = some (s.get F.BND_CKPT_NUM_NUM) ∧ t.bnd.imageDue = false ∧ t.bnd.sinceImage = 0) ∧
       t.bus = .done ∧
       onlyParts [.regs, .rly, .bnd, .bus] s t) ∧
  (∀ (s : State),
     s.accepts R.BND_CMD = true → bndRuns s = true → s.bnd.image.isSome = true →
     exec .imageCommand s = .next ((s.onBnd (fun b => { b with imageDue := true })).answer .done)) ∧
  (∀ (s : State),
     bndRuns s = true → s.bnd.imageDue = true ∨ 4096 * max 1 (s.get F.BND_IMG_CFG_ENTRIES) ≤ s.bnd.sinceImage → s.bnd.image = none →
     s.get F.BND_STAT_STATE = 4 →
     ∃ u : State, exec .mapImage s = .next u.settle ∧
       (u.bnd.image = none → u.bnd.imageDue = true) ∧
       (u.bnd.image.isSome = true → u.bnd.image.map Prod.fst = some (s.get F.BND_CKPT_NUM_NUM) ∧ u.bnd.imageDue = false ∧ u.bnd.sinceImage = 0) ∧
       onlyParts [.regs, .rly, .bnd] s u) ∧
  (∀ (s : State),
     bndRuns s = true → s.bnd.imageDue = false → s.bnd.sinceImage < 4096 * max 1 (s.get F.BND_IMG_CFG_ENTRIES) →
     exec .mapImage s = .next s.settle) ∧
  (∀ (c : Nat) (s : State),
     bndRuns s = true → s.bnd.image = some (c, 0) →
     ∃ u : State, exec .mapImagePlaced s = .next u.settle ∧
       u.bnd = { s.bnd with image := none, imgSlot := 1 - s.bnd.imgSlot, jnlFrom := s.bnd.imgPos } ∧
       (s.bat.phase ≠ 1 → onlyParts [.bnd] s u) ∧
       (s.bat.phase = 1 → s.mode ≠ Mode.partnerStandby → u.bat.phase = 2) ∧
       onlyParts [.regs, .bnd, .bat, .sent] s u)

/-- R254, R260, R267, R270 to R276: a rewrite that has a reason and a free band takes SEQ values for the whole band, makes it a REWRITE_TARGET,
journals its beginning and forces a flush; without a reason none begins. The switch of a rewrite whose band is placed makes it the logical band's
and journals it. A data-band sector reported for relocation that a newer version supersedes is dropped and counted. When the heads first load the
rebuild starts scanning; a region's scan accepts what it found; with no region left the map is built and READY. Logical bands of a poisoned range
join it, and with none left it ends. -/
def Obligations.BandRewritesAndRebuildMoveTheMap : Prop :=
  (∀ (l : Nat) (k : Nat) (b : Nat) (a : Lane) (s : State),
     bndRuns s = true → rewriteReason s l = some k → s.bnd.rewrites.any (fun r => r.logical == l) = false → s.get F.BND_STAT_STATE = 4 →
     s.mode ≠ Mode.readonly → journalFull s = false → rewriteActuator s l = some a → ownLane s a = true →
     leastWorn s (allocatable s a (k == 0 && (s.lband l).phys.isSome)) = some b → (takeSeq (bandSize s b) s).map Prod.fst = some (seqNext s) →
     ∃ u : State, exec (.bandRewriteBegin l) s = .next u.settle ∧
       u.bnd.rewrites = s.bnd.rewrites ++ [⟨k, l, (s.lband l).phys, b, seqNext s, bandSize s b, 0, false, 0⟩] ∧
       ((u.band b).state, (u.band b).logical, (u.band b).pos) = (3, some l, 0) ∧
       ((u.band b).seq0, (u.band b).seq, (u.band b).valid) = (seqNext s, seqNext s, 0) ∧
       seqNext u = seqNext s + bandSize s b ∧
       u.bnd.jnl = s.bnd.jnl ++
         [{ jentry 0x03 with band := b, arg0 := l, arg1 := (s.lband l).phys.getD 0xFFFFFFFF, seq := seqNext s, x := bandSize s b }] ∧
       u.bnd.flushDue = true ∧
       onlyParts [.regs, .bnd, .bat, .sent] s u) ∧
  (∀ (l : Nat) (s : State),
     bndRuns s = true → rewriteReason s l = none →
     exec (.bandRewriteBegin l) s = .next s.settle) ∧
  (∀ (b : Nat) (r : Rewrite) (s : State),
     bndRuns s = true → s.bnd.rewrites.find? (fun r => r.new == b) = some r → r.begun = true → r.size ≤ r.placed →
     ∃ u : State, exec (.bandSwitch b) s = .next u.settle ∧
       (u.lband r.logical).phys = some r.new ∧
       u.bnd.rewrites = s.bnd.rewrites.filter (fun w => w.new != r.new) ∧
       s.bnd.jnl.length < u.bnd.jnl.length ∧
       onlyParts [.regs, .evr, .ccx, .rly, .bnd, .buf, .bat, .qe, .sent] s u) ∧
  (∀ (r : Report) (s : State),
     bndRuns s = true → s.reports.find? (fun r => r.kind == .due) = some r → s.mode ≠ Mode.readonly →
     (runOf s r.band).map (fun x => x.kind) ∈ [some 0, some 1, some 5] → newerThan s r.lba r.seq = true →
     exec .relocation s = .next ((({ s with reports := s.reports.erase r }).count F.BND_CNT_RELOC_DROPPED).settle)) ∧
  (∀ (images : List MapImage) (flushes : List (List JEntry)) (s : State),
     bndRuns s = true → s.get F.BND_STAT_STATE = 0 → s.bnd.built = false → lanes.any (headsLoaded s) = true →
     ∃ u : State, exec (.mapRebuild images flushes) s = .next u.settle ∧
       u.get F.BND_STAT_STATE = 3 ∧
       u.get F.BND_REBUILD_REGIONS = 0 ∧
       u.get F.BND_REBUILD_SCAN_MS = 0 ∧
       u.get F.BND_STAT_REGIONS_LEFT = min 65535 u.bnd.scan.length ∧
       u.bnd.accepted = [] ∧
       u.ccx.irq.getLsbD 23 = true ∧
       onlyParts [.regs, .evr, .ccx, .bnd] s u) ∧
  (∀ (n : Lane) (r : Region) (read : List Scanned) (ms : Nat) (s : State),
     bndRuns s = true → s.get F.BND_STAT_STATE = 3 → s.bnd.scan.find? (fun r => r.lane == n.val) = some r →
     ∃ u : State, exec (.regionScan n read ms) s = .next u.settle ∧
       u.bnd.scan = s.bnd.scan.erase r ∧
       u.get F.BND_REBUILD_REGIONS = min (s.get F.BND_REBUILD_REGIONS + 1) 65535 ∧
       u.get F.BND_REBUILD_SCAN_MS = max (s.get F.BND_REBUILD_SCAN_MS) (min 65535 ms) ∧
       onlyParts [.regs, .bnd, .bat, .sent] s u ∧
       u.bnd.accepted = s.bnd.accepted ++ (accepted s r read).map (fun p => (r.band, p.pos, p.lba, p.seq))) ∧
  (∀ (s : State),
     bndRuns s = true → s.get F.BND_STAT_STATE = 3 → s.bnd.scan = [] →
     ∃ u : State, exec .rebuildReady s = .next (eraseResume u).settle ∧
       u.get F.BND_STAT_STATE = 4 ∧
       u.bnd.built = true ∧
       u.bnd.accepted = [] ∧
       u.bnd.open_ = [] ∧
       u.ccx.irq.getLsbD 23 = true ∧
       onlyParts [.regs, .evr, .ccx, .rly, .bnd, .buf, .bat, .qe, .sent] s u) ∧
  (∀ (l : Nat) (ls : List Nat) (s : State),
     bndRuns s = true → s.get F.BND_STAT_STATE = 4 →
     ∃ u : State, exec (.rangeRebuild (l :: ls)) s = .next u.settle ∧
       u.get F.BND_STAT_STATE = 5 ∧
       u.on F.BND_FLT_RANGE_RB = true ∧
       u.bnd.lostRange = s.bnd.lostRange ++ (l :: ls).filter (fun l => !s.bnd.lostRange.contains l) ∧
       u.ccx.irq.getLsbD 23 = true ∧
       regsKept [R.BND_STAT, R.BND_FLT] s u ∧
       onlyParts [.regs, .evr, .ccx, .bnd] s u) ∧
  (∀ (s : State),
     bndRuns s = true → s.get F.BND_STAT_STATE = 5 →
     exec (.rangeRebuild []) s = .next ((((s.onBnd (fun b => { b with lostRange := [] })).put F.BND_STAT_STATE 4).irq 23).settle))

/-- R282 to R299: with the map ready and outside READONLY, a level is evaluated; a band that pends retirement is rewritten before other collection;
migration follows the wear spread, beginning with the least worn cold band; otherwise nothing. A patrol pass begins with W counted, and a band of
the priority queue is read before the pass goes on, which clears its disturbance. READONLY, with nothing dirty, flushes and then writes an image. -/
def Obligations.BandUpkeepCollectsMigratesPatrols : Prop :=
  (∀ (a : Lane) (s : State),
     bndRuns s = true → upkeepRuns s = true →
     ∃ u : State, exec (.collectionLevel a) s = .next u.settle ∧
       levelOf u a = levelFor s a % 4 ∧
       onlyParts [.regs, .bnd] s u) ∧
  (∀ (a : Lane) (l : Nat) (s : State),
     bndRuns s = true → upkeepRuns s = true → ownAct s a = true → retiring (evalLevel a s) a = some l → upkeepRewrite (evalLevel a s) a = false →
     exec (.collectionWork a) s = .next ((beginRewrite 2 l (evalLevel a s)).settle)) ∧
  (∀ (a : Lane) (s : State),
     bndRuns s = true → upkeepRuns s = true → (wearRange s a).1 - (wearRange s a).2 ≤ s.get F.BND_MIG_CFG_SPREAD → s.bnd.migrate.getLsbD a = false →
     exec (.migration a) s = .next s.settle) ∧
  (∀ (a : Lane) (b : Nat) (l : Nat) (s : State),
     bndRuns s = true → upkeepRuns s = true → s.get F.BND_MIG_CFG_SPREAD < (wearRange s a).1 - (wearRange s a).2 → s.on F.BND_MIG_CFG_EN = true →
     ownAct s a = true → levelOf s a < 2 → upkeepRewrite s a = false →
     leastWorn s ((dataBands s a).filter (fun b => (s.band b).state == 2 && (match (s.band b).logical with
             | some l => coldBand s l && (match nsOfLba s (l * bandSectors s) with | some (_, e) => e.kind == 1 | none => false)
             | none => false))) = some b → (s.band b).logical = some l →
     exec (.migration a) s = .next ((beginRewrite 1 l (s.onBnd (fun n => { n with migrate := n.migrate ||| (1#4 <<< a.val) }))).settle)) ∧
  (∀ (n : Lane) (s : State),
     bndRuns s = true → s.get F.BND_STAT_STATE = 4 → ownAct s n = true → passOver s n = true →
     ∃ u : State, exec (.patrolPass n) s = .next u.settle ∧
       u.bnd.patrol.get n = { s.bnd.patrol.get n with cursor := 0, start := seconds s, written := writtenOf s n, read := 0 } ∧
       regsKept [R.BND_PATROL_STAT] s u ∧
       onlyParts [.regs, .bnd] s u) ∧
  (∀ (n : Lane) (b : Nat) (rest : List Nat) (s : State),
     bndRuns s = true → s.get F.BND_STAT_STATE = 4 → ownAct s n = true → workFor s (fun r => r.for_ == .patrol && r.act == n.val) = false →
     (s.bnd.patrol.get n).queue = b :: rest →
     ∃ u : State, exec (.patrolRequest n) s = .next u.settle ∧
       (u.bnd.patrol.get n).queue = rest ∧
       (smGetD healthNew b u.bnd.health).disturb = 0 ∧
       s.rly.requests <+: u.rly.requests ∧
       (∀ q ∈ u.rly.requests.drop s.rly.requests.length, q.for_ = .patrol ∧ q.kind = 0 ∧ q.band = b) ∧
       regsKept [R.BND_PATROL_STAT] s u ∧
       onlyParts [.regs, .bnd, .rly] s u) ∧
  (∀ (s : State),
     bndRuns s = true → s.mode = Mode.readonly → s.get F.BND_STAT_STATE = 4 → s.bnd.readonlyAt = 1 → s.buf.cache.any (fun e => e.2.dirty) = false →
     exec .readonlyEntry s = .next ((s.onBnd (fun b => { b with flushDue := true, readonlyAt := 2 })).settle)) ∧
  (∀ (s : State),
     bndRuns s = true → s.mode = Mode.readonly → s.get F.BND_STAT_STATE = 4 → s.bnd.readonlyAt = 2 → s.bnd.flush = none → s.bnd.flushDue = false →
     exec .readonlyEntry s = .next (((startImage s).onBnd (fun b => { b with readonlyAt := 3 })).settle)) ∧
  (∀ (c : Instr) (a : Lane) (s : State),
     c = .collectionLevel a ∨ c = .collectionWork a ∨ c = .migration a → bndRuns s = true → upkeepRuns s = false →
     exec c s = .next s.settle)

/-- R302 to R318: the oldest request that can go on enters the pool with the rest of its command's items where its class has room, else POOL_FULL is
set; one of an actuator of the partner's is forwarded. A calibration is asked for; dirty blocks of a namespace that is not zoned are destaged to
a log. A decision puts the chosen item and those that follow on from it into service, or behind what is in service, and out of the pool, counting
one that is overdue. A slip adds a track, an offset request writes a target with the same track, DONE ends a track and sends the heads on where
the next lies elsewhere. A report of the lane's, or for RELOCATE the sectors the event names, falls due at BND and weakens the band; a squelch
disturbs the neighbouring tracks; the other events only leave the FIFO. Every item of a lost lane ends. A quota window starts. -/
def Obligations.RelayPoolDecisionsAndEvents : Prop :=
  (∀ (r : WorkReq) (s : State),
     s.rly.requests.find? (canArrive s) = some r → (∀ x ∈ arrivalGroup s r, owns s x.act = true) →
     poolRoom s r.cls (arrivalGroup s r).length = true →
     ∃ u : State, exec (.workItemArrival .waiting) s = .next u.settle ∧
       u.rly.requests = (arrivalGroup s r).foldl (fun l x => l.erase x) s.rly.requests ∧
       u.rly.pool.map Item.req = s.rly.pool.map Item.req ++ arrivalGroup s r ∧
       s.rly.pool <+: u.rly.pool ∧
       (∀ i ∈ u.rly.pool.drop s.rly.pool.length, i.forwarded = false) ∧
       regsKept [R.RLY_STAT] s u ∧
       onlyParts [.regs, .rly] s u) ∧
  (∀ (r : WorkReq) (s : State),
     s.rly.requests.find? (canArrive s) = some r → poolRoom s r.cls (arrivalGroup s r).length = false →
     exec (.workItemArrival .waiting) s = .next (s.flag F.RLY_FLT_POOL_FULL).settle) ∧
  (∀ (r : WorkReq) (s : State),
     s.rly.requests.find? (canArrive s) = some r → arrivalGroup s r = [r] → r.act < 4 → owns s r.act = false → forwarding s = true →
     fnHeld s r.fn = false → poolRoom s r.cls 1 = true →
     ∃ u : State, exec (.workItemArrival .waiting) s = .next u.settle ∧
       u.rly.requests = s.rly.requests.erase r ∧
       u.rly.pool.map (fun i => (i.req, i.forwarded)) = s.rly.pool.map (fun i => (i.req, i.forwarded)) ++ [(r, true)] ∧
       u.bat.extents.map (fun e => (e.1, e.2.req)) = s.bat.extents.map (fun e => (e.1, e.2.req)) ++ [((newTag s).1.toNat, r)] ∧
       u.get F.RLY_CNT1_FWD_OUT = min (s.get F.RLY_CNT1_FWD_OUT + 1) (2 ^ F.RLY_CNT1_FWD_OUT.width - 1) ∧
       onlyParts [.regs, .rly, .bat, .sent] s u) ∧
  (∀ (n : Lane) (head : BitVec 3) (s : State),
     ∃ u : State, exec (.workItemArrival (.calibrate n head)) s = .next u.settle ∧
       u.rly.requests = s.rly.requests ++ [calRequest n head] ∧
       u.rly.pool = s.rly.pool ∧
       onlyParts [.rly] s u) ∧
  (∀ (lba : Nat) (count : Nat) (k : Nat) (e : NsEntry) (s : State),
     s.get F.BND_STAT_STATE = 4 → 0 < dirtyRun s lba count → nsOfLba s lba = some (k, e) → e.kind ≠ 2 →
     exec (.workItemArrival (.destage lba count)) s = .next
       (destageLog lba (min (dirtyRun s lba count) (nsBase s e + nsSize s e - lba)) (actsOf e.set_) s).settle) ∧
  (∀ (a : Lane) (i : Item) (over_ : Bool) (s : State),
     s.reports = [] → (∀ b : Lane, dispatchOver s b = false) → mayDecide s a = true → (s.act a).busy = [] → chooseItem s a = some (i, over_) →
     ∃ u : State, exec (.relayDecision a) s = .next u.settle ∧
       (u.act a).busy = dispatchOf s a i ∧
       (u.act a).busy.head? = some i ∧
       u.rly.pool = s.rly.pool.filter (fun x => !(dispatchOf s a i).any (fun y => y.idx == x.idx)) ∧
       u.get ((F.RLY_STAT_BUSY).bit a) = 1 ∧
       (over_ = true → u.get F.RLY_CNT_OVERDUE = min (s.get F.RLY_CNT_OVERDUE + 1) (2 ^ F.RLY_CNT_OVERDUE.width - 1) ∧ u.on F.RLY_FLT_OVERDUE = true)
         ∧
       (u.sv (laneOf s a)).status = [] ∧
       onlyParts [.regs, .evr, .ccx, .mss, .svs, .rly] s u) ∧
  (∀ (a : Lane) (i : Item) (over_ : Bool) (s : State),
     s.reports = [] → (∀ b : Lane, dispatchOver s b = false) → mayDecide s a = true → (s.act a).busy ≠ [] → chooseItem s a = some (i, over_) →
     ∃ u : State, exec (.relayDecision a) s = .next u.settle ∧
       (u.act a).busy = (s.act a).busy ∧
       (u.act a).ahead.map (fun x => x.items) = some (dispatchOf s a i) ∧
       u.rly.pool = s.rly.pool.filter (fun x => !(dispatchOf s a i).any (fun y => y.idx == x.idx)) ∧
       (u.sv (laneOf s a)).status = [] ∧
       onlyParts [.regs, .evr, .ccx, .mss, .svs, .rly] s u) ∧
  (∀ (n : Lane) (e : BitVec 64) (rest : List (BitVec 64)) (i : Item) (s : State),
     (s.ms n).events.dropWhile (fun e => !Ev.known e) = e :: rest → bitsOf e.toNat 7 0 = 7 →
     itemAt s (actOf s n) (bitsOf e.toNat 39 16) (bitsOf e.toNat 63 40) = some i →
     ∃ t : State, exec (.slip n) s = .next t ∧
       (t.act (actOf s n)).tracksAll = (s.act (actOf s n)).tracksAll + 1 ∧
       (t.act (actOf s n)).tracks.getLast?.map (fun x => (x.1, x.2.1, x.2.2.1)) = some (bitsOf e.toNat 39 16, bitsOf e.toNat 63 40, 1) ∧
       (t.act (actOf s n)).ready = false ∧
       (t.ms n).events = rest ∧
       onlyParts [.mss, .rly] s t) ∧
  (∀ (n : Lane) (a : Lane) (e : BitVec 64) (rest : List (BitVec 64)) (i : Item) (more : List Item) (s : State),
     actOf s n = a → (s.ms n).events.dropWhile (fun e => !Ev.known e) = e :: rest → bitsOf e.toNat 7 0 = 9 → (s.act a).busy = i :: more →
     s.on F.GLB_MODE_COND_POWER_FAIL = false → s.on (F.SVn_PACE_CTL_SRC (laneOf s a)) = false →
     ∃ t : State, exec (.offsetReq n) s = .next t ∧
       (t.act a).offset = some (BitVec.ofNat 16 (bitsOf e.toNat 39 16)) ∧
       (t.sv (laneOf s a)).mailbox = some
         (targetEntry (match (s.act a).target with | some g => tgtTrack g | none => i.req.track) (BitVec.ofNat 16 (bitsOf e.toNat 39 16)) i.idx) ∧
       (t.ms n).events = rest ∧
       regsKept [R.SVn_PACE_CNT (laneOf s a)] s t ∧
       onlyParts [.regs, .mss, .rly, .svs] s t) ∧
  (∀ (n : Lane) (a : Lane) (e : BitVec 64) (rest : List (BitVec 64)) (s : State),
     actOf s n = a → (s.ms n).events.dropWhile (fun e => !Ev.known e) = e :: rest → bitsOf e.toNat 7 0 = 8 →
     ∃ u : State, exec (.trackDone n) s = .next (afterOutcomes u) ∧
       (u.act a).tracksDone = (s.act a).tracksDone + 1 ∧
       (u.ms n).events = rest ∧
       (s.on F.GLB_MODE_COND_POWER_FAIL = false → (s.ms (laneOf s a)).cmd = [] → (u.act a).tracks = (s.act a).tracks.drop 1) ∧
       onlyParts [.regs, .evr, .ccx, .mss, .svs, .rly] s u) ∧
  (∀ (n : Lane) (a : Lane) (e : BitVec 64) (rest : List (BitVec 64)) (t0 : Nat) (k0 : Nat) (t1 : Nat) (k1 : Nat) (more : List (Nat × Nat))
        (s : State),
     actOf s n = a → (s.ms n).events.dropWhile (fun e => !Ev.known e) = e :: rest → bitsOf e.toNat 7 0 = 8 →
     (s.act a).steps = (t0, k0) :: (t1, k1) :: more → t0 ≠ t1 → (s.act a).tracksDone + 1 < (s.act a).tracksAll →
     s.on F.GLB_MODE_COND_POWER_FAIL = false →
     ∃ u : State, exec (.trackDone n) s = .next (afterOutcomes u) ∧
       (u.act a).target = some (targetEntry t1 0 k1) ∧
       (s.on (F.SVn_PACE_CTL_SRC (laneOf s a)) = false → (u.sv (laneOf s a)).mailbox = some (targetEntry t1 0 k1))) ∧
  (∀ (n : Lane) (k : Nat) (c : Instr) (e : BitVec 64) (rest : List (BitVec 64)) (s : State),
     (k, c) ∈ [(0x0A, Instr.ladder n), (0x02, .vfyMiss n), (0x05, .preampFault n), (0x06, .calRange n)] →
     (s.ms n).events.dropWhile (fun e => !Ev.known e) = e :: rest → bitsOf e.toNat 7 0 = k →
     exec c s = .next (s.onMs n (fun m => { m with events := rest }))) ∧
  (∀ (n : Lane) (e : BitVec 64) (rest : List (BitVec 64)) (r : Report) (s : State),
     (s.ms n).events.dropWhile (fun e => !Ev.known e) = e :: rest → bitsOf e.toNat 7 0 = 3 →
     firstReport s .rewrite (actOf s n) (fun x => x.track == bitsOf e.toNat 39 16 && x.index == bitsOf e.toNat 63 40) = some r →
     ∃ t : State, exec (.rewrite n) s = .next t ∧
       t.reports = s.reports.map (fun x => if x == r then { resolveReport r s with kind := .due } else x) ∧
       (smGetD healthNew (resolveReport r s).band t.bnd.health).weak = min 255 ((smGetD healthNew (resolveReport r s).band s.bnd.health).weak + 1) ∧
       (t.ms n).events = rest ∧
       onlyParts [.regs, .evr, .ccx, .mss, .rly, .bnd, .bat, .qe, .reports, .sent] s t) ∧
  (∀ (n : Lane) (e : BitVec 64) (rest : List (BitVec 64)) (r : Report) (s : State),
     (s.ms n).events.dropWhile (fun e => !Ev.known e) = e :: rest → bitsOf e.toNat 7 0 = 4 →
     firstReport s .relocate (actOf s n) (fun x => x.track % 65536 == bitsOf e.toNat 39 16 % 65536 && x.index == bitsOf e.toNat 63 40) = some r →
     ∃ t : State, exec (.relocate n) s = .next t ∧
       t.reports = s.reports.map (fun x => if x == r then { resolveReport r s with kind := .due } else x) ∧
       (smGetD healthNew (resolveReport r s).band t.bnd.health).weak = min 255 ((smGetD healthNew (resolveReport r s).band s.bnd.health).weak + 1) ∧
       (t.ms n).events = rest ∧
       onlyParts [.regs, .evr, .ccx, .mss, .rly, .bnd, .bat, .qe, .reports, .sent] s t) ∧
  (∀ (n : Lane) (e : BitVec 64) (rest : List (BitVec 64)) (s : State),
     (s.ms n).events.dropWhile (fun e => !Ev.known e) = e :: rest → bitsOf e.toNat 7 0 = 4 →
     firstReport s .relocate (actOf s n) (fun x => x.track % 65536 == bitsOf e.toNat 39 16 % 65536 && x.index == bitsOf e.toNat 63 40) = none →
     ∃ t : State, exec (.relocate n) s = .next t ∧
       t.reports = s.reports ++ eventReports s (actOf s n) (bitsOf e.toNat 39 16) (bitsOf e.toNat 63 40) ∧
       (t.ms n).events = rest ∧
       onlyParts [.regs, .evr, .ccx, .mss, .rly, .bnd, .bat, .qe, .reports, .sent] s t) ∧
  (∀ (n : Lane) (e : BitVec 64) (rest : List (BitVec 64)) (r : Report) (s : State),
     (s.ms n).events.dropWhile (fun e => !Ev.known e) = e :: rest → bitsOf e.toNat 7 0 = 1 →
     firstReport s .disturbed (actOf s n) (fun _ => true) = some r →
     exec (.squelch n) s = .next
       (disturbTrack r.lane r.head r.track { (s.onMs n (fun m => { m with events := rest })) with reports := s.reports.erase r })) ∧
  (∀ (n : Lane) (a : Lane) (s : State),
     s.glb.lost0.getLsbD (12 + n) = true → actOf s n = a →
     ∃ u : State, exec (.laneLost n) s = .next u.settle ∧
       (u.act a).items = [] ∧
       (∀ i ∈ u.rly.pool, i.req.act = a.val → i.forwarded = true) ∧
       onlyParts [.regs, .glb, .evr, .ccx, .rly, .bnd, .buf, .bat, .qe, .reports, .sent] s u) ∧
  (∀ (s : State),
     s.on F.RLY_CTL_ENABLE = true → smSorted s.rly.qos = true →
     ∃ t : State, exec .quotaWindow s = .next t ∧
       (∀ e ∈ s.rly.qos, t.qosOf e.1 = { e.2 with
             capNow := e.2.cap, floorNow := e.2.floor, bal := min ((allowance s e.2.cap : Nat) : Int) (e.2.bal + (allowance s e.2.cap : Nat)),
             used := 0 }) ∧
       regsKept [R.RLY_QOS_STAT, R.RLY_QOS_FLT] s t ∧
       onlyParts [.regs, .rly, .ccx, .evr] s t)

/-- R331, R332, R342, R351, R352, R354, R373, R374: enabling creates the admin queues at their bases and sizes, or, outside R352, none; a function
that is not reached, offline or enabled ignores it. A Function Level Reset, a controller reset, a hot reset and a link down take every queue of
the functions they reset and every entry fetched for them. A doorbell within its queue is recorded and any other ignored, flagged and reported. A
coalescing time that ends sends its vector, or leaves it pending where a mask holds it. Write data in a poisoned TLP fails its command with Data
Transfer Error and is reported under AER. -/
def Obligations.HostControllersResetAndRing : Prop :=
  (∀ (fn : Fin 128) (wrr : Bool) (a : Nat) (b : Nat) (asq : BitVec 64) (acq : BitVec 64) (s : State),
     memReached s fn = true → (s.ctrl fn).online = true → (s.ctrl fn).en = false → 2 ≤ a ∧ a ≤ 4096 ∧ 2 ≤ b ∧ b ≤ 4096 →
     asq.toNat % 4096 = 0 ∧ acq.toNat % 4096 = 0 →
     ∃ u : State, exec (.controllerEnable fn wrr a b asq acq) s = .next (readyControllers u).settle ∧
       (u.ctrl fn).en = true ∧
       (u.ctrl fn).wrr = wrr ∧
       (u.ctrl fn).sqs = [(0, ⟨a, asq, 0, 0, 0, 0, false, false⟩)] ∧
       (u.ctrl fn).cqs = [(0, ⟨b, acq, 0, 0, true, 0, true, 0, []⟩)] ∧
       onlyParts [.qe] s u) ∧
  (∀ (fn : Fin 128) (wrr : Bool) (a : Nat) (b : Nat) (asq : BitVec 64) (acq : BitVec 64) (s : State),
     memReached s fn = true → (s.ctrl fn).online = true → (s.ctrl fn).en = false →
     ¬ (2 ≤ a ∧ a ≤ 4096 ∧ 2 ≤ b ∧ b ≤ 4096 ∧ asq.toNat % 4096 = 0 ∧ acq.toNat % 4096 = 0) →
     exec (.controllerEnable fn wrr a b asq acq) s = .next (readyControllers (s.setCtrl fn { s.ctrl fn with en := true, wrr := wrr })).settle) ∧
  (∀ (fn : Fin 128) (wrr : Bool) (a : Nat) (b : Nat) (asq : BitVec 64) (acq : BitVec 64) (s : State),
     memReached s fn = false ∨ (s.ctrl fn).online = false ∨ (s.ctrl fn).en = true →
     exec (.controllerEnable fn wrr a b asq acq) s = .next s.settle) ∧
  (∀ (fn : Fin 128) (s : State),
     portReached s (portOf fn) = true →
     ∃ u : State, exec (.flr fn) s = .next u.settle ∧
       ((u.ctrl fn).en, (u.ctrl fn).rdy, (u.ctrl fn).sqs, (u.ctrl fn).cqs) = (false, false, [], []) ∧
       ((u.ctrl fn).online, (u.ctrl fn).errs) = ((s.ctrl fn).online, (s.ctrl fn).errs) ∧
       u.qe.fetched = s.qe.fetched.filter (fun e => e.fn != fn.val) ∧
       ((u.pci fn).msixEn, (u.pci fn).unmasked, (u.pci fn).pend) = (false, [], []) ∧
       u.on (F.HIFn_ERR_FLR_SEEN (portOf fn)) = true ∧
       onlyParts [.regs, .evr, .ccx, .rly, .qe] s u) ∧
  (∀ (fn : Fin 128) (s : State),
     memReached s fn = true → (s.ctrl fn).en = true →
     ∃ u : State, exec (.controllerReset fn) s = .next u.settle ∧
       ((u.ctrl fn).en, (u.ctrl fn).rdy, (u.ctrl fn).sqs, (u.ctrl fn).cqs) = (false, false, [], []) ∧
       u.qe.fetched = s.qe.fetched.filter (fun e => e.fn != fn.val) ∧
       onlyParts [.regs, .rly, .qe] s u) ∧
  (∀ (port : Fin 2) (s : State),
     portReached s port = true →
     ∃ u : State, exec (.hotReset port) s = .next u.settle ∧
       (∀ i : Fin 64, (u.ctrl (64 * port + i)).en = false ∧ (u.ctrl (64 * port + i)).sqs = []) ∧
       onlyParts [.regs, .rly, .qe] s u) ∧
  (∀ (port : Fin 2) (s : State),
     s.on (F.HIFn_LINK_STAT_DL_UP port) = true →
     ∃ u : State, exec (.linkDown port) s = .next u.settle ∧
       (u.get (F.HIFn_LINK_STAT_DL_UP port), u.get (F.HIFn_LINK_STAT_SPEED port), u.get (F.HIFn_LINK_STAT_WIDTH port)) = (0, 0, 0) ∧
       u.on (F.HIFn_ERR_LINK_DOWN port) = true ∧
       (∀ i : Fin 64, (u.ctrl (64 * port + i)).en = false ∧ (u.ctrl (64 * port + i)).sqs = []) ∧
       onlyParts [.regs, .evr, .ccx, .rly, .qe] s u) ∧
  (∀ (fn : Fin 128) (sq : Nat) (v : Nat) (q : Sq) (s : State),
     doorbellFor s fn = true → smGet sq (s.ctrl fn).sqs = some q → v < q.size →
     exec (.sqTailDoorbell fn sq v) s = .next (s.setSq fn sq { q with tail := v, fresh := sqDepth q == 0 })) ∧
  (∀ (fn : Fin 128) (sq : Nat) (v : Nat) (s : State),
     doorbellFor s fn = true → (smGet sq (s.ctrl fn).sqs).map (fun q => decide (v < q.size)) ≠ some true →
     exec (.sqTailDoorbell fn sq v) s = .next (asyncEvent fn 0 1 0x01 (s.flag F.QE_FLT_DB_INVALID))) ∧
  (∀ (fn : Fin 128) (cq : Nat) (v : Nat) (q : Cq) (s : State),
     doorbellFor s fn = true → smGet cq (s.ctrl fn).cqs = some q → v < q.size →
     (v + q.size - q.head) % max 1 q.size ≤ (q.tail + q.size - q.head) % max 1 q.size → q.held = [] →
     ∃ u : State, exec (.cqHeadDoorbell fn cq v) s = .next u.settle ∧
       smGet cq (u.ctrl fn).cqs = some { q with head := v } ∧
       onlyParts [.regs, .rly, .qe] s u) ∧
  (∀ (fn : Fin 128) (cq : Nat) (v : Nat) (q : Cq) (s : State),
     doorbellFor s fn = true → smGet cq (s.ctrl fn).cqs = some q →
     q.size ≤ v ∨ (q.tail + q.size - q.head) % max 1 q.size < (v + q.size - q.head) % max 1 q.size →
     exec (.cqHeadDoorbell fn cq v) s = .next (asyncEvent fn 0 1 0x01 (s.flag F.QE_FLT_DB_INVALID))) ∧
  (∀ (fn : Fin 128) (cq : Nat) (q : Cq) (s : State),
     smGet cq (s.ctrl fn).cqs = some q → q.unsignalled ≠ 0 → q.ien = true → qeRuns s = true →
     ∃ t : State, exec (.coalesceTimer fn cq) s = .next t ∧
       t.sent = (if vectorOpen (s.pci fn) q.vector then s.sent ++ [.msix fn q.vector] else s.sent) ∧
       ((s.pci fn).msixEn = true → vectorOpen (s.pci fn) q.vector = false → q.vector ∈ (t.pci fn).pend) ∧
       (smGet cq (t.ctrl fn).cqs).map (fun q => q.unsignalled) = some 0 ∧
       onlyParts [.qe, .sent] s t) ∧
  (∀ (k : Nat) (x : Slot) (s : State),
     s.slot k = some x → x.fetched = false → x.result = none → x.admitted = false → x.dropped = false →
     ∃ u : State, exec (.poisonedTlp k) s = .next u.settle ∧
       (u.slot k).map (fun y => (y.result, y.moved)) = some (some (retryResult .dataTransfer), true) ∧
       u.on (F.HIFn_ERR_PTLP_RX (portOf x.fn)) = true ∧
       (u.pci x.fn).unc = (s.pci x.fn).unc ||| 0x1000 ∧
       (u.pci x.fn).cor = (s.pci x.fn).cor ||| 0x2000 ∧
       onlyParts [.regs, .evr, .ccx, .qe, .sent] s u)

/-- R299, R355 to R375: a visit is to the next eligible function and fetches only its entries, after those fetched before, in reads of at most 8; the
oldest entry takes the lowest free slot and, of an admin queue, its FON. A write whose data is there is refused in READONLY, waits behind an
overlapping write of lower FON and is counted once, or, one block to a namespace that is not zoned, is admitted as the cache's current version;
one that does not meet its zone fails. A read takes the current version of each of its blocks. A completion goes out at its queue's tail with its
phase and frees its slot, or is held where the queue is full. -/
def Obligations.QueueFetchesAdmitsAndCompletes : Prop :=
  (∀ (read : List (Nat × Sqe)) (fn : Nat) (s : State),
     qeRuns s = true → s.qe.stuck = none → nextFn s = some fn →
     ∃ t : State, exec (.fetchVisit read) s = .next t ∧
       t.qe.lastFn = fn ∧
       s.qe.fetched <+: t.qe.fetched ∧
       (∀ e ∈ t.qe.fetched.drop s.qe.fetched.length, e.fn = fn ∧ (e.sq, e.cmd) ∈ read) ∧
       t.qe.slots = s.qe.slots ∧
       s.sent <+: t.sent ∧
       (∀ o ∈ t.sent.drop s.sent.length, (match o with | .entryRead f _ _ n => decide (f = fn ∧ 1 ≤ n ∧ n ≤ 8) | _ => false) = true) ∧
       onlyParts [.qe, .sent] s t) ∧
  (∀ (read : List (Nat × Sqe)) (s : State),
     qeRuns s = false ∨ s.qe.stuck.isSome = true ∨ nextFn s = none →
     exec (.fetchVisit read) s = .next s) ∧
  (∀ (e : Fetched) (rest : List Fetched) (s : State),
     s.qe.fetched = e :: rest → s.qe.stuck = none → s.qe.slots.length < 16384 → e.sq = 0 →
     ∃ u : State, exec .entryDecode s = .next u.settle ∧
       u.qe.fetched = rest ∧
       (u.slot (freeSlotNo s)).map (fun x => (x.fn, x.sq, x.cmd, x.at_)) = some (e.fn, e.sq, e.cmd, e.at_) ∧
       ((s.pair R.QE_FON_LO R.QE_FON_HI).toNat < 2 ^ 64 - 1 → (u.pair R.QE_FON_LO R.QE_FON_HI).toNat = (s.pair R.QE_FON_LO R.QE_FON_HI).toNat + 1)) ∧
  (∀ (e : Fetched) (rest : List Fetched) (s : State),
     s.qe.fetched = e :: rest → s.qe.stuck = none → s.qe.slots.length < 16384 →
     ∃ u : State, exec .entryDecode s = .next u.settle ∧
       u.qe.fetched = rest ∧
       (u.slot (freeSlotNo s)).map (fun x => (x.fn, x.sq, x.cmd, x.at_)) = some (e.fn, e.sq, e.cmd, e.at_)) ∧
  (∀ (k : Nat) (x : Slot) (s : State),
     s.slot k = some x → x.fetched = true ∧ x.admitted = false ∧ x.result = none ∧ x.fon.isSome = true ∧ x.dropped = false →
     isForeign s k = false ∧ slotEntered s k = true ∧ mediaServed s = true → s.mode = Mode.readonly →
     ∃ u : State, exec (.writeAdmission k) s = .next u.settle ∧
       (u.slot k).bind (fun y => y.result) = some (failResult .writeProtected) ∧
       (u.slot k).map (fun y => y.admitted) = some false ∧
       onlyParts [.regs, .qe] s u) ∧
  (∀ (k : Nat) (x : Slot) (s : State),
     s.slot k = some x → x.fetched = true ∧ x.admitted = false ∧ x.result = none ∧ x.fon.isSome = true ∧ x.hazWait = false →
     isForeign s k = false ∧ slotEntered s k = true ∧ mediaServed s = true → s.mode ≠ Mode.readonly → overlapWaits s x = true →
     ∃ u : State, exec (.writeAdmission k) s = .next u.settle ∧
       (u.slot k).map (fun y => (y.admitted, y.hazWait)) = some (false, true) ∧
       u.get F.QE_CNT_HAZ_WAIT = min (s.get F.QE_CNT_HAZ_WAIT + 1) (2 ^ F.QE_CNT_HAZ_WAIT.width - 1) ∧
       onlyParts [.regs, .qe] s u) ∧
  (∀ (k : Nat) (x : Slot) (e : NsEntry) (d : List Byte) (s : State),
     s.slot k = some x → x.fetched = true ∧ x.admitted = false ∧ x.result = none ∧ x.fon.isSome = true ∧ x.dropped = false →
     isForeign s k = false ∧ slotEntered s k = true ∧ mediaServed s = true → s.mode ≠ Mode.readonly →
     overlapWaits s x = false ∧ ladderReads s x.writes = false → x.cmd.op = .write → x.data = [d] → nsEntry s (nsIndex x.cmd.nsid) = some e →
     journalFull s = false ∧ creditFor s e = true ∧ returning s e = false → e.kind ≠ 2 → (takePlace .writeCache s).isSome = true →
     ∃ u : State, exec (.writeAdmission k) s = .next u.settle ∧
       (u.slot k).map (fun y => y.admitted) = some true ∧
       (cacheGet u (nsBase s e + x.cmd.slba)).map (fun c => (c.data, c.dirty, c.fon)) = some (d, true, x.fon.getD 0) ∧
       (writesThrough s x = false → mirrorsWrites s = false → (u.slot k).bind (fun y => y.result) = some okResult)) ∧
  (∀ (k : Nat) (x : Slot) (e : NsEntry) (st : NvStatus) (s : State),
     s.slot k = some x → x.fetched = true ∧ x.admitted = false ∧ x.result = none ∧ x.fon.isSome = true →
     isForeign s k = false ∧ slotEntered s k = true ∧ mediaServed s = true → s.mode ≠ Mode.readonly →
     overlapWaits s x = false ∧ ladderReads s x.writes = false → x.cmd.op = .write → nsEntry s (nsIndex x.cmd.nsid) = some e →
     journalFull s = false ∧ returning s e = false → e.kind = 2 →
     (match zoneAdmit (nsBase s e + x.cmd.slba) x.data.length s with | .error y => some y | .ok _ => none) = some st →
     exec (.writeAdmission k) s = .next (failBlock k (nsBase s e + x.cmd.slba) (failResult st) s).settle) ∧
  (∀ (k : Nat) (x : Slot) (s : State),
     s.slot k = some x → x.reads ≠ [] ∧ x.snap = none ∧ x.result = none ∧ x.fon.isSome = true →
     isForeign s k = false ∧ slotEntered s k = true ∧ mediaServed s = true → overlapWaits s x = false → rangeWaits s (runLbas x.reads) = false →
     ∃ u : State, exec (.readSnapshot k) s = .next u.settle ∧
       (u.slot k).map (fun y => (y.state, y.snap)) = some (.running, some ((runLbas x.reads).map (fun b => (b, blockRef s b)))) ∧
       s.rly.requests <+: u.rly.requests ∧
       onlyParts [.regs, .rly, .qe] s u) ∧
  (∀ (k : Nat) (x : Slot) (r : Result) (q : Cq) (s : State),
     s.slot k = some x → x.result = some r → x.state ≠ .held → isForeign s k = false ∧ ackWaits s k = false → guestTag s k = none →
     qeRuns s = true → smGet x.cq (s.ctrl x.fn).cqs = some q → cqFull q = false → q.held = [] →
     ∃ u : State, exec (.completionPost k) s = .next u.settle ∧
       u.slot k = none ∧
       (smGet x.cq (u.ctrl x.fn).cqs).map (fun c => (c.tail, c.phase, c.held)) = some
         ((q.tail + 1) % max 1 q.size, (if q.tail + 1 = q.size then !q.phase else q.phase), []) ∧
       (u.sent.any (fun o => match o with
             | .completion fn cq tail _ _ _ sqid cid phase status dnr _ => fn == x.fn && cq == x.cq && tail == q.tail && sqid == x.sq && cid ==
                 x.cmd.cid && phase == q.phase && status == r.status && dnr == r.dnr
             | _ => false) = true)) ∧
  (∀ (k : Nat) (x : Slot) (r : Result) (q : Cq) (s : State),
     s.slot k = some x → x.result = some r → x.state ≠ .held → isForeign s k = false ∧ ackWaits s k = false → guestTag s k = none →
     qeRuns s = true → smGet x.cq (s.ctrl x.fn).cqs = some q → cqFull q = true →
     ∃ u : State, exec (.completionPost k) s = .next u.settle ∧
       (u.slot k).map (fun y => y.state) = some .held ∧
       (smGet x.cq (u.ctrl x.fn).cqs).map (fun c => c.held) = some (q.held ++ [k]) ∧
       u.on F.QE_FLT_CQ_FULL = true ∧
       u.sent = s.sent ∧
       onlyParts [.regs, .evr, .ccx, .qe] s u)

/-- R330, R336, R352, R353, R377, for a decoded admin command that its function may use: a queue within its limits is created; one for a CQ that does
not exist, or with a size outside them, is refused with R352's status. A deleted SQ stops, is gone with none of its commands left, and else waits
for those that have moved; a CQ is gone unless an SQ uses it. An abort of a command that has not moved ends both, and one that finds none answers
DW0 = 1; the ninth asynchronous event request is refused. A secondary controller goes offline, takes resources and goes online; another action is
refused. (Status names are NVMe's: log 28.) -/
def Obligations.AdminQueueCommandsComplete : Prop :=
  (∀ (k : Nat) (x : Slot) (q : Nat) (n : Nat) (c : Nat) (p : Nat) (base : BitVec 64) (pc : Bool) (s : State),
     s.adminReady k x = true → x.cmd.op = .createSq q n c p base pc → 0 < c ∧ (smGet c (s.ctrl x.fn).cqs).isSome = true →
     0 < q ∧ q ≤ granted s x.fn false ∧ smGet q (s.ctrl x.fn).sqs = none → Sys2Proof.Machine.sizeOk s n = true → pc = true ∧ base.toNat % 4096 = 0 →
     ∃ u : State, exec (.createIoSq k) s = .next u.settle ∧
       smGet q (u.ctrl x.fn).sqs = some ⟨n, base, 0, 0, c, p % 4, false, false⟩ ∧
       u.resultOf k = some okResult ∧
       onlyParts [.regs, .qe] s u) ∧
  (∀ (k : Nat) (x : Slot) (q : Nat) (n : Nat) (c : Nat) (p : Nat) (base : BitVec 64) (pc : Bool) (s : State),
     s.adminReady k x = true → x.cmd.op = .createSq q n c p base pc → c = 0 ∨ smGet c (s.ctrl x.fn).cqs = none →
     exec (.createIoSq k) s = .next ((finish k (failResult .invalidCq) s).settle)) ∧
  (∀ (k : Nat) (x : Slot) (q : Nat) (n : Nat) (v : Nat) (base : BitVec 64) (pc : Bool) (ien : Bool) (s : State),
     s.adminReady k x = true → x.cmd.op = .createCq q n v base pc ien → 0 < q ∧ q ≤ granted s x.fn true ∧ smGet q (s.ctrl x.fn).cqs = none →
     Sys2Proof.Machine.sizeOk s n = true → pc = true ∧ base.toNat % 4096 = 0 → v < viOf s x.fn →
     ∃ u : State, exec (.createIoCq k) s = .next u.settle ∧
       smGet q (u.ctrl x.fn).cqs = some ⟨n, base, 0, 0, true, v, ien, 0, []⟩ ∧
       u.resultOf k = some okResult ∧
       onlyParts [.regs, .qe] s u) ∧
  (∀ (k : Nat) (x : Slot) (q : Nat) (n : Nat) (v : Nat) (base : BitVec 64) (pc : Bool) (ien : Bool) (s : State),
     s.adminReady k x = true → x.cmd.op = .createCq q n v base pc ien → 0 < q ∧ q ≤ granted s x.fn true ∧ smGet q (s.ctrl x.fn).cqs = none →
     Sys2Proof.Machine.sizeOk s n = false →
     exec (.createIoCq k) s = .next ((finish k (failResult .invalidQueueSize) s).settle)) ∧
  (∀ (k : Nat) (x : Slot) (q : Nat) (s : State),
     s.adminReady k x = true → x.cmd.op = .deleteSq q → q ≠ 0 → (smGet q (s.ctrl x.fn).sqs).isSome = true →
     s.qe.slots.any (fun p => p.2.fn == x.fn && p.2.sq == q) = false → s.qe.fetched.any (fun e => e.fn == x.fn && e.sq == q) = false →
     ∃ u : State, exec (.deleteIoSq k) s = .next u.settle ∧
       smGet q (u.ctrl x.fn).sqs = none ∧
       u.resultOf k = some okResult ∧
       onlyParts [.regs, .rly, .qe] s u) ∧
  (∀ (k : Nat) (x : Slot) (q : Nat) (s : State),
     s.adminReady k x = true → x.cmd.op = .deleteSq q → q ≠ 0 → (smGet q (s.ctrl x.fn).sqs).isSome = true →
     s.qe.slots.any (fun p => p.2.fn == x.fn && p.2.sq == q && !unmoved s p.1 p.2) = true →
     ∃ u : State, exec (.deleteIoSq k) s = .next u.settle ∧
       (smGet q (u.ctrl x.fn).sqs).map (fun e => e.stopped) = some true ∧
       u.resultOf k = none) ∧
  (∀ (k : Nat) (x : Slot) (q : Nat) (s : State),
     s.adminReady k x = true → x.cmd.op = .deleteSq q → q = 0 ∨ smGet q (s.ctrl x.fn).sqs = none →
     exec (.deleteIoSq k) s = .next ((finish k (failResult .invalidQueueId) s).settle)) ∧
  (∀ (k : Nat) (x : Slot) (q : Nat) (s : State),
     s.adminReady k x = true → x.cmd.op = .deleteCq q → q ≠ 0 → (smGet q (s.ctrl x.fn).cqs).isSome = true →
     (s.ctrl x.fn).sqs.any (fun e => e.2.cq == q) = false →
     ∃ u : State, exec (.deleteIoCq k) s = .next u.settle ∧
       smGet q (u.ctrl x.fn).cqs = none ∧
       u.resultOf k = some okResult ∧
       onlyParts [.regs, .qe] s u) ∧
  (∀ (k : Nat) (x : Slot) (q : Nat) (s : State),
     s.adminReady k x = true → x.cmd.op = .deleteCq q → q ≠ 0 → (smGet q (s.ctrl x.fn).cqs).isSome = true →
     (s.ctrl x.fn).sqs.any (fun e => e.2.cq == q) = true →
     exec (.deleteIoCq k) s = .next ((finish k (failResult .invalidQueueDeletion) s).settle)) ∧
  (∀ (k : Nat) (x : Slot) (sq : Nat) (cid : Nat) (s : State),
     s.adminReady k x = true → x.cmd.op = .abort sq cid →
     (slotsWhere s (fun y => y.fn == x.fn && y.sq == 0 && y.result.isNone && (match y.cmd.op with | .abort .. => true | _ => false))).length ≤ 4 →
     s.qe.slots.find? (fun p => p.1 != k && p.2.fn == x.fn && p.2.sq == sq && p.2.cmd.cid == cid && unmoved s p.1 p.2 && (guestTag s p.1).isNone) =
       none →
     exec (.abort k) s = .next ((finish k ⟨.success, false, 1, 0, []⟩ s).settle)) ∧
  (∀ (k : Nat) (x : Slot) (sq : Nat) (cid : Nat) (j : Nat) (y : Slot) (s : State),
     s.adminReady k x = true → x.cmd.op = .abort sq cid →
     (slotsWhere s (fun y => y.fn == x.fn && y.sq == 0 && y.result.isNone && (match y.cmd.op with | .abort .. => true | _ => false))).length ≤ 4 →
     s.qe.slots.find? (fun p => p.1 != k && p.2.fn == x.fn && p.2.sq == sq && p.2.cmd.cid == cid && unmoved s p.1 p.2 && (guestTag s p.1).isNone) =
       some (j, y) → s.slot j = some y ∧ y.dropped = false →
     ∃ u : State, exec (.abort k) s = .next u.settle ∧
       u.resultOf j = some (retryResult .abortedByRequest) ∧
       u.resultOf k = some okResult ∧
       onlyParts [.regs, .qe] s u) ∧
  (∀ (k : Nat) (x : Slot) (s : State),
     s.adminReady k x = true → x.cmd.op = .asyncEvent → (s.ctrl x.fn).aer.contains k = false → (s.ctrl x.fn).aer.length < 8 →
     ∃ u : State, exec (.asyncEventRequest k) s = .next u.settle ∧
       (u.ctrl x.fn).aer = (s.ctrl x.fn).aer ++ [k] ∧
       u.resultOf k = none ∧
       onlyParts [.regs, .qe] s u) ∧
  (∀ (k : Nat) (x : Slot) (s : State),
     s.adminReady k x = true → x.cmd.op = .asyncEvent → (s.ctrl x.fn).aer.contains k = false → 8 ≤ (s.ctrl x.fn).aer.length →
     exec (.asyncEventRequest k) s = .next ((finish k (failResult .asyncLimit) s).settle)) ∧
  (∀ (k : Nat) (x : Slot) (c : Nat) (f : Nat) (n : Nat) (v : Bool) (s : State),
     s.adminReady k x = true → x.cmd.op = .virt 7 c v n → vfOf s x.fn c = some f →
     ∃ u : State, exec (.secondaryOffline k) s = .next u.settle ∧
       ((u.ctrl f).online, (u.ctrl f).en, (u.ctrl f).sqs) = (false, false, []) ∧
       u.resultOf k = some okResult ∧
       onlyParts [.regs, .rly, .qe] s u) ∧
  (∀ (k : Nat) (x : Slot) (c : Nat) (f : Nat) (n : Nat) (v : Bool) (s : State),
     s.adminReady k x = true → x.cmd.op = .virt 8 c v n → vfOf s x.fn c = some f → (s.ctrl f).online = false → n ≤ 257 →
     assigned s (portOf x.fn) v - (if v then (s.ctrl f).vi else (s.ctrl f).vq) + n ≤ flexibleTotal s (portOf x.fn) →
     ∃ u : State, exec (.secondaryAssign k) s = .next u.settle ∧
       (if v then (u.ctrl f).vi else (u.ctrl f).vq) = n ∧
       u.resultOf k = some ⟨.success, false, n, 0, []⟩ ∧
       onlyParts [.regs, .qe] s u) ∧
  (∀ (k : Nat) (x : Slot) (c : Nat) (f : Nat) (n : Nat) (v : Bool) (s : State),
     s.adminReady k x = true → x.cmd.op = .virt 9 c v n → vfOf s x.fn c = some f → 2 ≤ (s.ctrl f).vq ∧ 1 ≤ (s.ctrl f).vi →
     ∃ u : State, exec (.secondaryOnline k) s = .next u.settle ∧
       (u.ctrl f).online = true ∧
       u.resultOf k = some okResult ∧
       onlyParts [.regs, .qe] s u) ∧
  (∀ (k : Nat) (x : Slot) (a : Nat) (c : Nat) (n : Nat) (v : Bool) (s : State),
     s.adminReady k x = true → x.cmd.op = .virt a c v n → a ≠ 7 ∧ a ≠ 8 ∧ a ≠ 9 →
     exec (.primaryFlexibleAllocation k) s = .next ((finish k (failResult .invalidField) s).settle))

/-- R4, R335, R336, R338, R339, R341, R390, R578, for a decoded admin command that its function may use: Identify and Get Log Page return the
selected structure or fail with its status, and a read of the changed list clears it; the SMART page takes one free value (log 16). Features read
as they were set, a temperature threshold never set as a free value, and one not listed is refused; write cache, number of queues, arbitration,
event and host identifier settings are kept, the number of queues granted up to the function's resources; a save is refused. The security
protocol list, INFO and STATE have the layouts of R390; the standings answer carries GENERATION; commands that R4 and R336 refuse end with
Invalid Command Opcode. -/
def Obligations.AdminDataAndFeatureCommandsComplete : Prop :=
  (∀ (k : Nat) (x : Slot) (c : Nat) (a : Nat) (b : Nat) (l : List Byte) (s : State),
     s.adminReady k x = true → x.cmd.op = .identify c a b → identifyData s x.fn x.cmd.nsid c a b = .ok l →
     ∃ u : State, exec (.identify k) s = .next u.settle ∧
       u.resultOf k = some ⟨.success, false, 0, 0, [l]⟩ ∧
       onlyParts [.regs, .qe] s u) ∧
  (∀ (k : Nat) (x : Slot) (c : Nat) (a : Nat) (b : Nat) (st : NvStatus) (s : State),
     s.adminReady k x = true → x.cmd.op = .identify c a b → identifyData s x.fn x.cmd.nsid c a b = .error st →
     ∃ u : State, exec (.identify k) s = .next u.settle ∧
       u.resultOf k = some (failResult st) ∧
       onlyParts [.regs, .qe] s u) ∧
  (∀ (k : Nat) (x : Slot) (i : Nat) (c : Nat) (n : Nat) (o : Nat) (l : List Byte) (s : State),
     s.adminReady k x = true → x.cmd.op = .getLog i c n o → i ≠ 2 → logPage s x.fn x.cmd.nsid i c 0 = .ok l → o < l.length ∧ n ≤ 2 ^ 21 →
     ∃ u : State, exec (.getLogPage k) s = .next u.settle ∧
       u.resultOf k = some ⟨.success, false, 0, 0, [fit n (l.drop o)]⟩ ∧
       (i = 4 → (u.ctrl x.fn).changed = []) ∧
       onlyParts [.regs, .qe] s u) ∧
  (∀ (k : Nat) (x : Slot) (i : Nat) (c : Nat) (n : Nat) (o : Nat) (st : NvStatus) (s : State),
     s.adminReady k x = true → x.cmd.op = .getLog i c n o → i ≠ 2 → logPage s x.fn x.cmd.nsid i c 0 = .error st →
     ∃ u : State, exec (.getLogPage k) s = .next u.settle ∧
       u.resultOf k = some (failResult st) ∧
       onlyParts [.regs, .qe] s u) ∧
  (∀ (k : Nat) (x : Slot) (c : Nat) (n : Nat) (o : Nat) (s : State),
     s.adminReady k x = true → x.cmd.op = .getLog 2 c n o →
     x.cmd.nsid = 0 ∨ x.cmd.nsid = 0xFFFFFFFF ∨ (attachedNs s x.fn x.cmd.nsid).isSome = true → o < 512 ∧ n ≤ 2 ^ 21 →
     ∃ u : State, exec (.getLogPage k) s = .next u.settle ∧
       u.freeN = s.freeN + 1 ∧
       (u.resultOf k).map (fun r => (r.status, r.dw0, r.data.map List.length)) = some (.success, 0, [n]) ∧
       onlyParts [.regs, .qe, .freeN] s u) ∧
  (∀ (k : Nat) (x : Slot) (f : Nat) (arg : Nat) (v : Nat) (s : State),
     s.adminReady k x = true → x.cmd.op = .getFeatures f arg →
     (f, v) ∈ [(0x01, smGetD 0 1 (s.ctrl x.fn).feats), (0x02, smGetD 0 2 (s.ctrl x.fn).feats), (0x06, b2n (s.ctrl x.fn).wce),
         (0x07, (granted s x.fn false - 1) + (granted s x.fn true - 1) * 65536), (0x08, (s.ctrl x.fn).coalThr + (s.ctrl x.fn).coalTime * 256),
         (0x0A, 0), (0x0B, smGetD 0 0x0B (s.ctrl x.fn).feats)] →
     exec (.getFeatures k) s = .next ((finish k ⟨.success, false, v, 0, []⟩ s).settle)) ∧
  (∀ (k : Nat) (x : Slot) (s : State),
     s.adminReady k x = true → x.cmd.op = .getFeatures 0x04 0 → s.qe.tempThr = none →
     ∃ u : State, exec (.getFeatures k) s = .next u.settle ∧
       u.freeN = s.freeN + 1 ∧
       (u.resultOf k).map (fun r => r.status) = some .success ∧
       onlyParts [.regs, .qe, .freeN] s u) ∧
  (∀ (k : Nat) (x : Slot) (arg : Nat) (v : Nat) (s : State),
     s.adminReady k x = true →
     (x.cmd.op = .getFeatures 0x04 arg ∧ bitsOf arg 19 16 = 0 ∧
         (bitsOf arg 21 20 = 0 ∧ s.qe.tempThr = some v ∨ bitsOf arg 21 20 = 1 ∧ s.qe.tempLow = some v)) ∨
       (x.cmd.op = .getFeatures 0x09 arg ∧ arg % 65536 < viOf s x.fn ∧ v = arg % 65536 + b2n ((s.ctrl x.fn).coalOff.contains (arg % 65536)) * 65536)
       →
     exec (.getFeatures k) s = .next (finish k ⟨.success, false, v, 0, []⟩ s).settle) ∧
  (∀ (k : Nat) (x : Slot) (f : Nat) (arg : Nat) (d : List Byte) (s : State),
     s.adminReady k x = true → x.cmd.op = .getFeatures f arg →
     (f = 0x0E ∧ d = le 6 (timestampNow s).toNat ++ [if s.qe.stamp.isSome then 2 else 0, 0]) ∨
       (f = 0x81 ∧ arg % 2 = 1 ∧ d = le 16 (smGetD 0 0x81 (s.ctrl x.fn).feats)) →
     exec (.getFeatures k) s = .next (answerData k 0 d s).settle) ∧
  (∀ (k : Nat) (x : Slot) (f : Nat) (arg : Nat) (s : State),
     s.adminReady k x = true → x.cmd.op = .getFeatures f arg → f ∉ [0x01, 0x02, 0x04, 0x06, 0x07, 0x08, 0x09, 0x0A, 0x0B, 0x0E, 0x81] →
     exec (.getFeatures k) s = .next (finish k (failResult .invalidField) s).settle) ∧
  (∀ (k : Nat) (x : Slot) (f : Nat) (arg : Nat) (data : Nat) (s : State),
     s.adminReady k x = true → x.cmd.op = .setFeatures f arg data true →
     exec (.setFeatures k) s = .next ((finish k (failResult .featureNotSaveable) s).settle)) ∧
  (∀ (k : Nat) (x : Slot) (arg : Nat) (data : Nat) (s : State),
     s.adminReady k x = true → x.cmd.op = .setFeatures 0x06 arg data false →
     ∃ u : State, exec (.setFeatures k) s = .next u.settle ∧
       (u.ctrl x.fn).wce = (arg % 2 == 1) ∧
       u.resultOf k = some okResult ∧
       onlyParts [.regs, .qe] s u) ∧
  (∀ (k : Nat) (x : Slot) (arg : Nat) (data : Nat) (s : State),
     s.adminReady k x = true → x.cmd.op = .setFeatures 0x07 arg data false → bitsOf arg 15 0 ≠ 65535 ∧ bitsOf arg 31 16 ≠ 65535 →
     (s.ctrl x.fn).sqs.any (fun q => q.1 != 0) = false ∧ (s.ctrl x.fn).cqs.any (fun q => q.1 != 0) = false → 2 ≤ vqOf s x.fn →
     ∃ u : State, exec (.setFeatures k) s = .next u.settle ∧
       ((u.ctrl x.fn).nsq, (u.ctrl x.fn).ncq) = (min (bitsOf arg 15 0 + 1) (vqOf s x.fn - 1), min (bitsOf arg 31 16 + 1) (vqOf s x.fn - 1)) ∧
       (u.resultOf k).map (fun r => r.dw0) = some
         ((min (bitsOf arg 15 0 + 1) (vqOf s x.fn - 1) - 1) + (min (bitsOf arg 31 16 + 1) (vqOf s x.fn - 1) - 1) * 65536) ∧
       onlyParts [.regs, .qe] s u) ∧
  (∀ (k : Nat) (x : Slot) (f : Nat) (v : Nat) (arg : Nat) (data : Nat) (s : State),
     s.adminReady k x = true → x.cmd.op = .setFeatures f arg data false → (f, v) ∈ [(0x01, arg), (0x0B, arg), (0x81, data % 2 ^ 128)] →
     (f = 0x81 → arg % 2 = 1) →
     ∃ u : State, exec (.setFeatures k) s = .next u.settle ∧
       smGetD 0 f (u.ctrl x.fn).feats = v ∧
       u.resultOf k = some okResult ∧
       onlyParts [.regs, .qe] s u) ∧
  (∀ (k : Nat) (x : Slot) (f : Nat) (arg : Nat) (data : Nat) (st : NvStatus) (s : State),
     s.adminReady k x = true → x.cmd.op = .setFeatures f arg data false → setFeature s x.fn f arg data = .error st →
     ∃ u : State, exec (.setFeatures k) s = .next u.settle ∧
       u.resultOf k = some (failResult st) ∧
       onlyParts [.regs, .qe] s u) ∧
  (∀ (k : Nat) (x : Slot) (s : State),
     s.decoded k x = true → x.cmd.op = .fwDownload →
     exec (.firmwareImageDownload k) s = .next ((finish k (failResult .invalidOpcode) s).settle)) ∧
  (∀ (k : Nat) (x : Slot) (s : State),
     s.decoded k x = true → x.cmd.op = .fwCommit →
     exec (.firmwareCommit k) s = .next ((finish k (failResult .invalidOpcode) s).settle)) ∧
  (∀ (k : Nat) (x : Slot) (s : State),
     s.decoded k x = true → opAllowed x.fn x.sq x.cmd.op = false →
     exec (.invalidOpcode k) s = .next ((finish k (failResult .invalidOpcode) s).settle)) ∧
  (∀ (k : Nat) (x : Slot) (n : Nat) (s : State),
     s.adminReady k x = true → x.cmd.op = .secReceive 0 0 n →
     ∃ u : State, exec (.securityProtocolList k) s = .next u.settle ∧
       u.resultOf k = some ⟨.success, false, 0, 0, [fit n [0, 0, 0, 0, 0, 0, 0, 2, 0x00, 0xF0]]⟩ ∧
       onlyParts [.regs, .qe] s u) ∧
  (∀ (k : Nat) (x : Slot) (s : State),
     s.adminReady k x = true → x.cmd.op = .secReceive 0xF0 1 32 →
     ∃ u : State, exec (.info k) s = .next u.settle ∧
       u.resultOf k = some ⟨.success, false, 0, 0, [fit 32 (le 2 1 ++ le 2 1024 ++ le 2 (attachedIds s x.fn none).length ++ [0x0F])]⟩ ∧
       onlyParts [.regs, .qe] s u) ∧
  (∀ (k : Nat) (x : Slot) (j : Nat) (e : NsEntry) (s : State),
     s.adminReady k x = true → x.cmd.op = .secReceive 0xF0 2 32 → attachedNs s x.fn x.cmd.nsid = some (j, e) →
     ∃ u : State, exec (.state k) s = .next u.settle ∧
       u.resultOf k = some ⟨.success, false, 0, 0, [fit 32 (le 4 x.cmd.nsid ++ le 4 (keyGen s j).toNat ++ le 8
               (((keySelected s j).map (fun r => r.created.toNat)).getD 0) ++
               [BitVec.ofNat 8 (keyState s j), BitVec.ofNat 8 (b2n (e.permits.contains (cntlidOf s x.fn)))])]⟩ ∧
       onlyParts [.regs, .qe] s u) ∧
  (∀ (k : Nat) (x : Slot) (c : Nat) (n : Nat) (s : State),
     s.adminReady k x = true → x.cmd.op = .secReceive 0xF0 c n → c = 1 ∧ n ≠ 32 →
     exec (.info k) s = .next ((finish k (failResult .invalidField) s).settle)) ∧
  (∀ (k : Nat) (x : Slot) (n : Nat) (s : State),
     s.adminReady k x = true → x.cmd.op = .standings n → n = 63 →
     ∃ u : State, exec (.standingsAdmin k) s = .next u.settle ∧
       u.evr.generation = s.evr.generation + 1 ∧
       (u.resultOf k).map (fun r => (r.status, r.dw0)) = some (.success, (s.evr.generation + 1).toNat % 2 ^ 32) ∧
       onlyParts [.regs, .evr, .qe] s u) ∧
  (∀ (k : Nat) (x : Slot) (n : Nat) (s : State),
     s.adminReady k x = true → x.cmd.op = .standings n → n ≠ 63 →
     exec (.standingsAdmin k) s = .next ((finish k (failResult .invalidField) s).settle))

/-- R345, R346, R385, R390 to R397, for a decoded admin command that its function may use and that need not wait: a namespace is created in the
lowest free run of logical bands, its index the lowest free one and its NSID the index plus one (log 19), under a new key whose record, of GEN 1,
both copies hold; a size that is not a whole number of logical bands or differs from its capacity is refused. An attachment adds controllers and
removes none, a detachment takes them off the list. Format sets ACTIVITY 2, Sanitize 1, and each begins the erase of its namespaces: crypto erase
(and Format with Secure Erase Settings 2) under a new key, the others under the old. A deletion removes the entry and begins an erase. ROTATE
writes both copies of a record of the next generation, ERASE_PENDING set, under a new key and begins an erase; from a function without permission
it is refused. None of these erasing commands has a result yet. PERMIT grants or withdraws permission. The parts of the state that each may
change are named. -/
def Obligations.NamespaceAndEraseCommandsComplete : Prop :=
  (∀ (k : Nat) (x : Slot) (a : Nat) (b : Nat) (z : Bool) (kn : Bool) (lf : Nat) (pi : Nat) (g : BitVec 4) (m : Bool) (s : State),
     s.adminReady k x = true → x.cmd.op = .nsCreate a b z kn lf pi g → a ≠ b ∨ a = 0 ∨ a % bandSectors s ≠ 0 ∨ kn = false ∨ formatOk lf pi = false →
     exec (.namespaceCreate k m) s = .next ((finish k (failResult .invalidField) s).settle)) ∧
  (∀ (k : Nat) (x : Slot) (a : Nat) (b : Nat) (j : Nat) (z : Bool) (lf : Nat) (pi : Nat) (g : BitVec 4) (s : State),
     s.adminReady k x = true → x.cmd.op = .nsCreate a a z true lf pi g → 0 < a ∧ a % bandSectors s = 0 ∧ formatOk lf pi = true →
     s.mode ≠ Mode.readonly → s.bnd.ns.length < nsMax s → Sys2Proof.Machine.mapReady s = true ∧ s.key.erases.any (fun e => e.delete) = false →
     capacityOk s (groupSet s g) (a / bandSectors s) = true → lowestRun s (a / bandSectors s) = some b → freeNs s = some j →
     s.trc.trngRefused = false →
     ∃ u : State, exec (.namespaceCreate k true) s = .next (u.settle) ∧
       nsEntry u j = some ⟨if z then 2 else 1, lf, pi, b, a / bandSectors s, groupSet s g, [], []⟩ ∧
       u.resultOf k = some ⟨.success, false, j + 1, 0, []⟩ ∧
       smGet j u.key.keys = some (drawKey s).1 ∧
       smGet j u.key.recs = some (keyRecordBytes (s.key.kek.getD []) j ⟨1, timestampNow s, false, (drawKey s).1⟩, keyRecordBytes (s.key.kek.getD [])
           j ⟨1, timestampNow s, false, (drawKey s).1⟩) ∧
       onlyParts [.regs, .evr, .ccx, .key, .rly, .bnd, .bat, .qe, .sent, .freeN] s u) ∧
  (∀ (k : Nat) (x : Slot) (j : Nat) (e : NsEntry) (s : State),
     s.adminReady k x = true → x.cmd.op = .nsDelete → x.cmd.nsid = j + 1 → nsEntry s j = some e → erasing s k = false → s.mode ≠ Mode.readonly →
     eraseApart s j = false ∧ eraseWaits s x [j] = false ∧ nsBusy s j k = false →
     ∃ u : State, exec (.namespaceDelete k true) s = .next (u.settle) ∧
       nsEntry u j = none ∧
       u.key.erases.any (fun y => y.ns == j && y.delete && y.slot == some k) = true ∧
       u.resultOf k = none ∧
       onlyParts [.regs, .evr, .tly, .ccx, .key, .rly, .bnd, .buf, .bat, .qe, .sent, .freeN] s u) ∧
  (∀ (k : Nat) (x : Slot) (s : State),
     s.adminReady k x = true → x.cmd.op = .nsDelete → x.cmd.nsid = 0 → erasing s k = false →
     exec (.namespaceDelete k true) s = .next ((finish k (failResult .invalidNamespace) s).settle)) ∧
  (∀ (k : Nat) (x : Slot) (j : Nat) (e : NsEntry) (l : List Nat) (s : State),
     s.adminReady k x = true → x.cmd.op = .nsAttach l → x.cmd.nsid = j + 1 → nsEntry s j = some e → nsDeleting s j = false → l ≠ [] →
     l.any (fun c => !validCntlid s c) = false → l.any (fun c => e.attached.contains c) = false →
     ∃ u : State, exec (.namespaceAttach k) s = .next (u.settle) ∧
       (∀ c ∈ l, (nsEntry u j).map (fun e => e.attached.contains c) = some true) ∧
       (∀ c ∈ e.attached, (nsEntry u j).map (fun e => e.attached.contains c) = some true) ∧
       u.resultOf k = some okResult ∧
       onlyParts [.regs, .rly, .bnd, .bat, .qe, .sent] s u) ∧
  (∀ (k : Nat) (x : Slot) (j : Nat) (e : NsEntry) (l : List Nat) (s : State),
     s.adminReady k x = true → x.cmd.op = .nsDetach l → x.cmd.nsid = j + 1 → nsEntry s j = some e → l ≠ [] →
     l.any (fun c => !validCntlid s c) = false → l.any (fun c => !e.attached.contains c) = false →
     ∃ u : State, exec (.namespaceDetach k) s = .next (u.settle) ∧
       (nsEntry u j).map (fun e => e.attached) = some (e.attached.filter (fun c => !l.contains c)) ∧
       u.resultOf k = some okResult ∧
       onlyParts [.regs, .rly, .bnd, .bat, .qe, .sent] s u) ∧
  (∀ (k : Nat) (x : Slot) (lf : Nat) (ses : Nat) (pi : Nat) (j : Nat) (e : NsEntry) (s : State),
     s.adminReady k x = true → x.cmd.op = .format lf ses pi → erasing s k = false → x.cmd.nsid ≠ 0xFFFFFFFF → erasedNs s x.fn x.cmd = [j] →
     nsEntry s j = some e → (e.lbaf, e.pi_) = (lf, pi) → formatOk lf pi = true ∧ ses ≤ 2 → s.mode ≠ Mode.readonly → eraseApart s j = false →
     activityMode s = true → s.on F.GLB_MODE_ACTIVITY = false → eraseWaits s x [j] = false → s.trc.trngRefused = false →
     ∃ u : State, exec (.formatNvm k true) s = .next u.settle ∧
       u.get F.GLB_MODE_ACTIVITY = 2 ∧
       u.key.erases.any (fun y => y.ns == j && !y.delete && y.keep == (ses != 2) && y.slot == some k) = true ∧
       (if ses = 2 then smGet j u.key.keys = some (drawKey s).1 else smGet j u.key.keys = smGet j s.key.keys) ∧
       u.resultOf k = none ∧
       onlyParts [.regs, .evr, .tly, .ccx, .key, .rly, .bnd, .buf, .bat, .qe, .sent, .freeN] s u) ∧
  (∀ (k : Nat) (x : Slot) (lf : Nat) (ses : Nat) (pi : Nat) (m : Bool) (s : State),
     s.adminReady k x = true → x.cmd.op = .format lf ses pi → erasing s k = false → (erasedNs s x.fn x.cmd).length = 1 →
     formatOk lf pi = false ∨ 2 < ses →
     exec (.formatNvm k m) s = .next ((finish k (failResult .invalidField) s).settle)) ∧
  (∀ (k : Nat) (x : Slot) (s : State),
     s.adminReady k x = true → x.cmd.op = .sanitize 4 → erasing s k = false → s.mode = Mode.active → imageRole s = 0 →
     s.on F.GLB_MODE_ACTIVITY = false → eraseWaits s x (s.bnd.ns.map (fun p => p.1)) = false → s.bnd.ns ≠ [] → s.trc.trngRefused = false →
     ∃ u : State, exec (.sanitizeCryptoErase k true) s = .next (u.settle) ∧
       u.get F.GLB_MODE_ACTIVITY = 1 ∧
       u.qe.sanitize = 1 ∧
       u.resultOf k = none ∧
       onlyParts [.regs, .evr, .tly, .ccx, .key, .rly, .bnd, .buf, .bat, .qe, .sent, .freeN] s u ∧
       u.key.erases.length = s.key.erases.length + s.bnd.ns.length) ∧
  (∀ (k : Nat) (x : Slot) (s : State),
     s.adminReady k x = true → x.cmd.op = .sanitize 3 → erasing s k = false → s.mode = Mode.active → imageRole s = 0 →
     s.on F.GLB_MODE_ACTIVITY = false → eraseWaits s x (s.bnd.ns.map (fun p => p.1)) = false → s.bnd.ns ≠ [] → s.trc.trngRefused = false →
     ∃ u : State, exec (.sanitizeOverwrite k) s = .next (u.settle) ∧
       u.get F.GLB_MODE_ACTIVITY = 1 ∧
       u.qe.sanitize = 2 ∧
       u.resultOf k = none ∧
       onlyParts [.regs, .evr, .tly, .ccx, .key, .rly, .bnd, .buf, .bat, .qe, .sent, .freeN] s u ∧
       u.key.erases.length = s.key.erases.length + s.bnd.ns.length) ∧
  (∀ (k : Nat) (x : Slot) (a : Nat) (s : State),
     s.adminReady k x = true → x.cmd.op = .sanitize a → a ≠ 3 ∧ a ≠ 4 →
     exec (.sanitizeBlockErase k) s = .next ((finish k (failResult .invalidField) s).settle)) ∧
  (∀ (k : Nat) (x : Slot) (l : List Byte) (j : Nat) (e : NsEntry) (s : State),
     s.adminReady k x = true → x.cmd.op = .secSend 0xF0 0x10 16 → erasing s k = false → bufferOk 16 4 l = true →
     attachedNs s x.fn x.cmd.nsid = some (j, e) → e.permits.contains (cntlidOf s x.fn) = true → keyState s j ≠ 1 →
     s.key.erases.any (fun y => y.ns == j) = false → (keyGen s j).toNat = unle (l.take 4) → eraseApart s j = false → eraseWaits s x [j] = false →
     s.trc.trngRefused = false → s.mode ≠ Mode.readonly →
     ∃ u : State, exec (.rotate k l true) s = .next (u.settle) ∧
       smGet j u.key.keys = some (drawKey s).1 ∧
       smGet j u.key.recs = some (keyRecordBytes (s.key.kek.getD []) j ⟨keyGen s j + 1, timestampNow s, true, (drawKey s).1⟩, keyRecordBytes
           (s.key.kek.getD []) j ⟨keyGen s j + 1, timestampNow s, true, (drawKey s).1⟩) ∧
       onlyParts [.regs, .evr, .tly, .ccx, .key, .rly, .bnd, .buf, .bat, .qe, .sent, .freeN] s u ∧
       u.key.erases.any (fun y => y.ns == j && !y.delete && y.slot == some k) = true ∧
       u.resultOf k = none) ∧
  (∀ (k : Nat) (x : Slot) (l : List Byte) (j : Nat) (e : NsEntry) (s : State),
     s.adminReady k x = true → x.cmd.op = .secSend 0xF0 0x10 16 → erasing s k = false → bufferOk 16 4 l = true →
     attachedNs s x.fn x.cmd.nsid = some (j, e) → e.permits.contains (cntlidOf s x.fn) = false →
     exec (.rotate k l true) s = .next ((finish k (failResult .accessDenied) s).settle)) ∧
  (∀ (k : Nat) (x : Slot) (l : List Byte) (j : Nat) (e : NsEntry) (s : State),
     s.adminReady k x = true → x.cmd.op = .secSend 0xF0 0x11 16 → isPf x.fn = true → bufferOk 16 3 l = true → unle ((l.drop 2).take 1) ≤ 1 →
     attachedNs s x.fn x.cmd.nsid = some (j, e) → e.attached.contains (unle (l.take 2)) = true →
     ∃ u : State, exec (.permit k l) s = .next (u.settle) ∧
       (nsEntry u j).map (fun e => e.permits.contains (unle (l.take 2))) = some (unle ((l.drop 2).take 1) == 1) ∧
       u.resultOf k = some okResult ∧
       onlyParts [.regs, .rly, .bnd, .bat, .qe, .sent] s u)

/-- R268, R337, R361 to R370, for a command in a slot that its function may use while the media serve: once every block of the snapshot is at hand
READ returns them and VERIFY succeeds, and READ fails with Unrecovered Read Error, its lowest failing LBA kept, where one cannot be read; WRITE
takes its blocks from the host, has no result yet, and waits to be admitted; COMPARE succeeds where every block agrees and fails with Compare
Failure where one does not; WRITE UNCORRECTABLE marks every block of its range; WRITE ZEROES with Deallocate ends at once in a namespace that is
not zoned, else stages zero blocks; DATASET MANAGEMENT ends once its ranges are deallocated, and a range outside the namespace fails with LBA Out
of Range; COPY refuses more than 128 ranges, a range of more than 256 blocks or more than 4,096 in all, takes its FON with its range list, and
stages the blocks of its sources once they are read; FLUSH forces a flush once earlier writes are placed, and ends at once in READONLY when the
sequence of R298 has flushed. (Status names: log 28.) The parts of the state that each may change are named. -/
def Obligations.MediaCommandsReadWriteAndDeallocate : Prop :=
  (∀ (k : Nat) (x : Slot) (pi : Option (NvStatus × Nat)) (l : List (Nat × BlockRef)) (d : List (List Byte)) (s : State),
     s.ioReady k x = true → x.cmd.op = .read → x.snap = some l → snapBlocks s l = some (.ok d) → piFailure s x pi = none →
     ∃ u : State, exec (.read k pi) s = .next (u.settle) ∧
       u.resultOf k = some ⟨.success, false, 0, 0, d⟩ ∧
       onlyParts [.regs, .evr, .tly, .ccx, .rly, .qe] s u ∧
       (u.slot k).map (fun y => y.moved) = some true) ∧
  (∀ (k : Nat) (x : Slot) (pi : Option (NvStatus × Nat)) (l : List (Nat × BlockRef)) (b : Nat) (s : State),
     s.ioReady k x = true → x.cmd.op = .read → x.snap = some l → snapBlocks s l = some (.error b) → x.failLba = none →
     ∃ u : State, exec (.read k pi) s = .next (u.settle) ∧
       u.resultOf k = some (failResult .unrecoveredRead) ∧
       (u.slot k).map (fun y => y.failLba) = some (some b) ∧
       onlyParts [.regs, .rly, .qe] s u) ∧
  (∀ (k : Nat) (x : Slot) (l : List (Nat × BlockRef)) (d : List (List Byte)) (s : State),
     s.ioReady k x = true → x.cmd.op = .verify → x.snap = some l → snapBlocks s l = some (.ok d) →
     ∃ u : State, exec (.verify k) s = .next (u.settle) ∧
       u.resultOf k = some okResult ∧
       onlyParts [.regs, .rly, .qe] s u) ∧
  (∀ (k : Nat) (x : Slot) (data : List (List Byte)) (l : List (Nat × BlockRef)) (s : State),
     s.ioReady k x = true → x.cmd.op = .compare → isForeign s k = false → goesAway s x = false → x.fetched = false → data.length = x.cmd.nlb →
     x.snap = some l → snapBlocks s l = some (.ok (data.map (fit (blockBytes s x)))) →
     ∃ u : State, exec (.compare k data) s = .next (u.settle) ∧
       u.resultOf k = some okResult ∧
       onlyParts [.regs, .rly, .qe] s u) ∧
  (∀ (k : Nat) (x : Slot) (data : List (List Byte)) (d : List (List Byte)) (l : List (Nat × BlockRef)) (i : Nat) (s : State),
     s.ioReady k x = true → x.cmd.op = .compare → isForeign s k = false → goesAway s x = false → x.fetched = false → data.length = x.cmd.nlb →
     x.snap = some l → snapBlocks s l = some (.ok d) → firstDiff (data.map (fit (blockBytes s x))) d = some i →
     ∃ u : State, exec (.compare k data) s = .next (u.settle) ∧
       u.resultOf k = some (failResult .compareFailure) ∧
       onlyParts [.regs, .rly, .qe] s u) ∧
  (∀ (k : Nat) (x : Slot) (data : List (List Byte)) (pi : Option (NvStatus × Nat)) (j : Nat) (e : NsEntry) (s : State),
     s.ioReady k x = true → x.cmd.op = .write → x.fetched = false → isForeign s k = false → data.length = x.cmd.nlb → slotNs s x = some (j, e) →
     goesAway s x = false → creditFor s e = true → piFailure s x pi = none →
     ∃ u : State, exec (.write k data pi) s = .next (u.settle) ∧
       (u.slot k).map (fun y => (y.fetched, y.data)) = some (true, data.map (fit (blockBytes s x))) ∧
       u.resultOf k = none ∧
       onlyParts [.regs, .qe] s u) ∧
  (∀ (k : Nat) (x : Slot) (j : Nat) (e : NsEntry) (s : State),
     s.ioReady k x = true → x.cmd.op = .writeUncorrectable → slotNs s x = some (j, e) → isForeign s k = false → x.admitted = false →
     overlapWaits s x = false →
     ∃ u : State, exec (.writeUncorrectable k) s = .next (u.settle) ∧
       ((List.range x.cmd.nlb).all (fun i => u.bnd.uncorr.contains (cmdLba s x + i)) = true) ∧
       u.resultOf k = some okResult ∧
       onlyParts [.regs, .rly, .bnd, .buf, .bat, .qe, .sent] s u) ∧
  (∀ (k : Nat) (x : Slot) (j : Nat) (e : NsEntry) (s : State),
     s.ioReady k x = true → x.cmd.op = .writeZeroes true → slotNs s x = some (j, e) → isForeign s k = false → x.admitted = false →
     x.fetched = false → overlapWaits s x = false → e.kind = 1 → journalFull s = false →
     ∃ u : State, exec (.writeZeroes k) s = .next (u.settle) ∧
       u.resultOf k = some okResult ∧
       onlyParts [.regs, .rly, .bnd, .buf, .bat, .qe, .sent] s u ∧
       (u.slot k).map (fun y => y.admitted) = some true) ∧
  (∀ (k : Nat) (x : Slot) (j : Nat) (e : NsEntry) (s : State),
     s.ioReady k x = true → x.cmd.op = .writeZeroes false → slotNs s x = some (j, e) → isForeign s k = false → x.admitted = false →
     x.fetched = false → overlapWaits s x = false → creditFor s e = true →
     ∃ u : State, exec (.writeZeroes k) s = .next (u.settle) ∧
       onlyParts [.regs, .qe] s u ∧
       (u.slot k).map (fun y => (y.fetched, y.data)) = some (true, List.replicate x.cmd.nlb (zeros (blockBytes s x)))) ∧
  (∀ (k : Nat) (x : Slot) (l : List (Nat × Nat)) (j : Nat) (e : NsEntry) (s : State),
     s.ioReady k x = true → x.cmd.op = .dsm true → slotNs s x = some (j, e) → isForeign s k = false → x.fetched = false →
     l.any (fun r => decide (nsSize s e < r.1 + r.2)) = true →
     exec (.datasetManagement k l) s = .next ((finish k (failResult .lbaRange) s).settle)) ∧
  (∀ (k : Nat) (x : Slot) (l : List (Nat × Nat)) (j : Nat) (e : NsEntry) (s : State),
     s.ioReady k x = true → x.cmd.op = .dsm true → slotNs s x = some (j, e) → isForeign s k = false → x.fon.isSome = true →
     l.any (fun r => decide (nsSize s e < r.1 + r.2)) = false → x.fetched = false → goesAway s x = false → journalFull s = false →
     overlapWaits s x = false →
     ∃ u : State, exec (.datasetManagement k l) s = .next (u.settle) ∧
       u.resultOf k = some okResult ∧
       (u.slot k).map (fun y => y.admitted) = some true ∧
       onlyParts [.regs, .rly, .bnd, .buf, .bat, .qe, .sent] s u) ∧
  (∀ (k : Nat) (x : Slot) (l : List (Nat × Nat)) (j : Nat) (e : NsEntry) (s : State),
     s.ioReady k x = true → x.cmd.op = .copy → slotNs s x = some (j, e) → isForeign s k = false → x.fon = none → x.fetched = false →
     128 < l.length ∨ l.any (fun r => decide (256 < r.2)) = true ∨ 4096 < (l.map (fun r => r.2)).sum →
     exec (.copy k l) s = .next ((finish k (failResult .sizeLimit) s).settle)) ∧
  (∀ (k : Nat) (x : Slot) (l : List (Nat × Nat)) (j : Nat) (e : NsEntry) (s : State),
     s.ioReady k x = true → x.cmd.op = .copy → slotNs s x = some (j, e) → isForeign s k = false → x.fon = none → x.fetched = false →
     l ≠ [] ∧ l.length ≤ 128 ∧ l.any (fun r => decide (256 < r.2)) = false ∧ (l.map (fun r => r.2)).sum ≤ 4096 →
     l.any (fun r => decide (nsSize s e < r.1 + r.2)) = false ∧ x.cmd.slba + (l.map (fun r => r.2)).sum ≤ nsSize s e → goesAway s x = false →
     ∃ u : State, exec (.copy k l) s = .next (u.settle) ∧
       onlyParts [.regs, .evr, .ccx, .qe] s u ∧
       (u.slot k).map (fun y => (y.fon, y.reads, y.writes)) = some
         (some (nextFon s), rangeRuns s j e l, [(j, cmdLba s x, (l.map (fun r => r.2)).sum)])) ∧
  (∀ (k : Nat) (x : Slot) (r : List (Nat × Nat)) (l : List (Nat × BlockRef)) (d : List (List Byte)) (j : Nat) (e : NsEntry) (s : State),
     s.ioReady k x = true → x.cmd.op = .copy → slotNs s x = some (j, e) → isForeign s k = false → x.fon.isSome = true → x.admitted = false →
     x.snap = some l → snapBlocks s l = some (.ok d) → creditFor s e = true →
     ∃ u : State, exec (.copy k r) s = .next (u.settle) ∧
       (u.slot k).map (fun y => (y.fetched, y.data)) = some (true, d) ∧
       onlyParts [.regs, .qe] s u) ∧
  (∀ (k : Nat) (x : Slot) (s : State),
     s.ioReady k x = true → x.cmd.op = .flush → x.waits = false → x.fon.isSome = true → isForeign s k = false → s.mode ≠ Mode.readonly →
     flushHeld s x = false →
     ∃ u : State, exec (.flush k) s = .next (u.settle) ∧
       (u.slot k).map (fun y => y.waits) = some true ∧
       u.bnd.flushDue = true ∧
       u.resultOf k = none ∧
       onlyParts [.bnd, .qe] s u) ∧
  (∀ (k : Nat) (x : Slot) (s : State),
     s.ioReady k x = true → x.cmd.op = .flush → x.waits = false → x.fon.isSome = true → isForeign s k = false → s.mode = Mode.readonly →
     3 ≤ s.bnd.readonlyAt →
     ∃ u : State, exec (.flush k) s = .next (u.settle) ∧
       u.resultOf k = some okResult ∧
       onlyParts [.regs, .rly, .qe] s u)

/-- R253, R262, R289, R337, R369, for a zone command at the start of its zone that waits for no earlier write and has room in the journal: Open makes
an empty, closed or implicitly open zone explicitly open where a band and an open slot are left (else Too Many Active Zones), Close closes an
open one, Finish makes a zone full, Reset empties one and gives up its band and write pointer, Offline ends it and gives them up too; a zone
already in the state asked for is left alone with success, and each refuses the states it cannot leave. Zone Append must name the start of a
zone, and takes its blocks from the host. The report carries the number of zones from the command's LBA on that match its option, of those shown
with the partial bit, and their descriptors, as many as fit; it refuses a start outside the namespace, more than 2 MiB and an option not listed
(codes: log 28). The parts of the state that each may change are named. -/
def Obligations.ZoneCommandsChangeZoneStates : Prop :=
  (∀ (k : Nat) (x : Slot) (v : State) (s : State),
     s.ioReady k x = true → x.cmd.op = .zoneSend .open_ → isForeign s k = false ∧ x.admitted = false ∧ x.cmd.slba % bandSectors s = 0 →
     overlapWaits s x = false ∧ journalFull s = false → (s.lband (lbandOf s (cmdLba s x))).zone ∉ [.explicitOpen, .full, .offline] →
     openZone (lbandOf s (cmdLba s x)) .explicitOpen s = some v →
     ∃ u : State, exec (.zoneOpen k) s = .next (u.settle) ∧
       (u.lband (lbandOf s (cmdLba s x))).zone = .explicitOpen ∧
       u.resultOf k = some okResult ∧
       onlyParts [.regs, .rly, .bnd, .bat, .qe, .sent] s u) ∧
  (∀ (k : Nat) (x : Slot) (s : State),
     s.ioReady k x = true → x.cmd.op = .zoneSend .open_ → isForeign s k = false ∧ x.admitted = false ∧ x.cmd.slba % bandSectors s = 0 →
     overlapWaits s x = false ∧ journalFull s = false → (s.lband (lbandOf s (cmdLba s x))).zone ∉ [.explicitOpen, .full, .offline] →
     (openZone (lbandOf s (cmdLba s x)) .explicitOpen s).isNone = true →
     exec (.zoneOpen k) s = .next ((finish k (failResult .tooManyActiveZones) s).settle)) ∧
  (∀ (k : Nat) (x : Slot) (s : State),
     s.ioReady k x = true → x.cmd.op = .zoneSend .open_ → isForeign s k = false ∧ x.admitted = false ∧ x.cmd.slba % bandSectors s = 0 →
     overlapWaits s x = false ∧ journalFull s = false →
     (s.lband (lbandOf s (cmdLba s x))).zone = .full ∨ (s.lband (lbandOf s (cmdLba s x))).zone = .offline →
     exec (.zoneOpen k) s = .next ((finish k (failResult .zoneTransition) s).settle)) ∧
  (∀ (k : Nat) (x : Slot) (s : State),
     s.ioReady k x = true → x.cmd.op = .zoneSend .open_ → isForeign s k = false ∧ x.admitted = false ∧ x.cmd.slba % bandSectors s = 0 →
     overlapWaits s x = false ∧ journalFull s = false → (s.lband (lbandOf s (cmdLba s x))).zone = .explicitOpen →
     exec (.zoneOpen k) s = .next ((finish k okResult s).settle)) ∧
  (∀ (k : Nat) (x : Slot) (s : State),
     s.ioReady k x = true → x.cmd.op = .zoneSend .close → isForeign s k = false ∧ x.admitted = false ∧ x.cmd.slba % bandSectors s = 0 →
     overlapWaits s x = false ∧ journalFull s = false →
     (s.lband (lbandOf s (cmdLba s x))).zone = .explicitOpen ∨ (s.lband (lbandOf s (cmdLba s x))).zone = .implicitOpen →
     ∃ u : State, exec (.zoneClose k) s = .next (u.settle) ∧
       (u.lband (lbandOf s (cmdLba s x))).zone = .closed ∧
       u.resultOf k = some okResult ∧
       onlyParts [.regs, .rly, .bnd, .bat, .qe, .sent] s u) ∧
  (∀ (k : Nat) (x : Slot) (s : State),
     s.ioReady k x = true → x.cmd.op = .zoneSend .close → isForeign s k = false ∧ x.admitted = false ∧ x.cmd.slba % bandSectors s = 0 →
     overlapWaits s x = false ∧ journalFull s = false → (s.lband (lbandOf s (cmdLba s x))).zone = .closed →
     exec (.zoneClose k) s = .next ((finish k okResult s).settle)) ∧
  (∀ (k : Nat) (x : Slot) (s : State),
     s.ioReady k x = true → x.cmd.op = .zoneSend .close → isForeign s k = false ∧ x.admitted = false ∧ x.cmd.slba % bandSectors s = 0 →
     overlapWaits s x = false ∧ journalFull s = false → (s.lband (lbandOf s (cmdLba s x))).zone ∈ [.empty, .full, .offline] →
     exec (.zoneClose k) s = .next ((finish k (failResult .zoneTransition) s).settle)) ∧
  (∀ (k : Nat) (x : Slot) (v : State) (s : State),
     s.ioReady k x = true → x.cmd.op = .zoneSend .finish → isForeign s k = false ∧ x.admitted = false ∧ x.cmd.slba % bandSectors s = 0 →
     overlapWaits s x = false ∧ journalFull s = false →
     (s.lband (lbandOf s (cmdLba s x))).zone ≠ .full ∧ (s.lband (lbandOf s (cmdLba s x))).zone ≠ .offline →
     padZone (lbandOf s (cmdLba s x)) x k s = some v →
     ∃ u : State, exec (.zoneFinish k) s = .next (u.settle) ∧
       (u.lband (lbandOf s (cmdLba s x))).zone = .full ∧
       u.resultOf k = some okResult ∧
       onlyParts [.regs, .rly, .bnd, .buf, .bat, .qe, .sent] s u) ∧
  (∀ (k : Nat) (x : Slot) (s : State),
     s.ioReady k x = true → x.cmd.op = .zoneSend .finish → isForeign s k = false ∧ x.admitted = false ∧ x.cmd.slba % bandSectors s = 0 →
     overlapWaits s x = false ∧ journalFull s = false → (s.lband (lbandOf s (cmdLba s x))).zone = .full →
     exec (.zoneFinish k) s = .next ((finish k okResult s).settle)) ∧
  (∀ (k : Nat) (x : Slot) (s : State),
     s.ioReady k x = true → x.cmd.op = .zoneSend .finish → isForeign s k = false ∧ x.admitted = false ∧ x.cmd.slba % bandSectors s = 0 →
     overlapWaits s x = false ∧ journalFull s = false → (s.lband (lbandOf s (cmdLba s x))).zone = .offline →
     exec (.zoneFinish k) s = .next ((finish k (failResult .zoneTransition) s).settle)) ∧
  (∀ (k : Nat) (x : Slot) (s : State),
     s.ioReady k x = true → x.cmd.op = .zoneSend .reset → isForeign s k = false ∧ x.admitted = false ∧ x.cmd.slba % bandSectors s = 0 →
     overlapWaits s x = false ∧ journalFull s = false →
     (s.lband (lbandOf s (cmdLba s x))).zone ≠ .offline ∧ (s.lband (lbandOf s (cmdLba s x))).zone ≠ .empty →
     ∃ u : State, exec (.zoneReset k) s = .next (u.settle) ∧
       (u.lband (lbandOf s (cmdLba s x))).zone = .empty ∧
       ((u.lband (lbandOf s (cmdLba s x))).phys, (u.lband (lbandOf s (cmdLba s x))).wp) = (none, 0) ∧
       u.resultOf k = some okResult ∧
       onlyParts [.regs, .evr, .ccx, .rly, .bnd, .buf, .bat, .qe, .sent] s u) ∧
  (∀ (k : Nat) (x : Slot) (s : State),
     s.ioReady k x = true → x.cmd.op = .zoneSend .reset → isForeign s k = false ∧ x.admitted = false ∧ x.cmd.slba % bandSectors s = 0 →
     overlapWaits s x = false ∧ journalFull s = false → (s.lband (lbandOf s (cmdLba s x))).zone = .offline →
     exec (.zoneReset k) s = .next ((finish k (failResult .zoneTransition) s).settle)) ∧
  (∀ (k : Nat) (x : Slot) (s : State),
     s.ioReady k x = true → x.cmd.op = .zoneSend .reset → isForeign s k = false ∧ x.admitted = false ∧ x.cmd.slba % bandSectors s = 0 →
     overlapWaits s x = false ∧ journalFull s = false → (s.lband (lbandOf s (cmdLba s x))).zone = .empty →
     exec (.zoneReset k) s = .next ((finish k okResult s).settle)) ∧
  (∀ (k : Nat) (x : Slot) (s : State),
     s.ioReady k x = true → x.cmd.op = .zoneSend .offline → isForeign s k = false ∧ x.admitted = false ∧ x.cmd.slba % bandSectors s = 0 →
     overlapWaits s x = false ∧ journalFull s = false → (s.lband (lbandOf s (cmdLba s x))).zone ≠ .offline →
     ∃ u : State, exec (.zoneOffline k) s = .next (u.settle) ∧
       (u.lband (lbandOf s (cmdLba s x))).zone = .offline ∧
       ((u.lband (lbandOf s (cmdLba s x))).phys, (u.lband (lbandOf s (cmdLba s x))).wp) = (none, 0) ∧
       u.resultOf k = some okResult ∧
       onlyParts [.regs, .evr, .ccx, .rly, .bnd, .buf, .bat, .qe, .sent] s u) ∧
  (∀ (k : Nat) (x : Slot) (s : State),
     s.ioReady k x = true → x.cmd.op = .zoneSend .offline → isForeign s k = false ∧ x.admitted = false ∧ x.cmd.slba % bandSectors s = 0 →
     overlapWaits s x = false ∧ journalFull s = false → (s.lband (lbandOf s (cmdLba s x))).zone = .offline →
     exec (.zoneOffline k) s = .next ((finish k okResult s).settle)) ∧
  (∀ (k : Nat) (x : Slot) (data : List (List Byte)) (pi : Option (NvStatus × Nat)) (s : State),
     s.ioReady k x = true → x.cmd.op = .zoneAppend → x.cmd.slba % bandSectors s ≠ 0 →
     exec (.zoneAppend k data pi) s = .next ((finish k (failResult .invalidField) s).settle)) ∧
  (∀ (k : Nat) (x : Slot) (data : List (List Byte)) (pi : Option (NvStatus × Nat)) (j : Nat) (e : NsEntry) (s : State),
     s.ioReady k x = true → x.cmd.op = .zoneAppend → x.cmd.slba % bandSectors s = 0 → x.fetched = false → isForeign s k = false →
     data.length = x.cmd.nlb → slotNs s x = some (j, e) → goesAway s x = false → creditFor s e = true → piFailure s x pi = none →
     ∃ u : State, exec (.zoneAppend k data pi) s = .next (u.settle) ∧
       (u.slot k).map (fun y => (y.fetched, y.data)) = some (true, data.map (fit (blockBytes s x))) ∧
       u.resultOf k = none ∧
       onlyParts [.regs, .qe] s u) ∧
  (∀ (k : Nat) (x : Slot) (rep : Nat) (n : Nat) (part : Bool) (j : Nat) (e : NsEntry) (z : List Nat) (s : State),
     s.ioReady k x = true → x.cmd.op = .zoneReceive rep n part → slotNs s x = some (j, e) → isForeign s k = false → x.cmd.slba < nsSize s e →
     z = ((List.range (e.count - x.cmd.slba / bandSectors s)).map (fun i => e.base + x.cmd.slba / bandSectors s + i)).filter
       (fun l => zoneReported rep (s.lband l).zone) → n ≤ 2 ^ 21 ∧ rep ≠ 6 ∧ rep ≤ 7 →
     ∃ u : State, exec (.zoneManagementReceive k) s = .next (u.settle) ∧
       u.resultOf k = some ⟨.success, false, 0, 0, [fit n
             (le 8 (if part then min ((n - 64) / 64) z.length else z.length) ++ zeros 56 ++ (z.take ((n - 64) / 64)).flatMap (zoneDescriptor s e))]⟩
         ∧
       onlyParts [.regs, .qe] s u) ∧
  (∀ (k : Nat) (x : Slot) (rep : Nat) (n : Nat) (part : Bool) (j : Nat) (e : NsEntry) (s : State),
     s.ioReady k x = true → x.cmd.op = .zoneReceive rep n part → slotNs s x = some (j, e) → isForeign s k = false → x.cmd.slba < nsSize s e →
     2 ^ 21 < n ∨ rep = 6 ∨ 7 < rep →
     exec (.zoneManagementReceive k) s = .next ((finish k (failResult .invalidField) s).settle)) ∧
  (∀ (k : Nat) (x : Slot) (rep : Nat) (n : Nat) (part : Bool) (j : Nat) (e : NsEntry) (s : State),
     s.ioReady k x = true → x.cmd.op = .zoneReceive rep n part → slotNs s x = some (j, e) → isForeign s k = false → nsSize s e ≤ x.cmd.slba →
     exec (.zoneManagementReceive k) s = .next ((finish k (failResult .lbaRange) s).settle))

/-- R407 to R419, R426: a DRAM read whose syndrome is clean, or that one symbol's correction explains, delivers its line into the buffer with the
bytes of a waiting narrow write laid over it and takes the line's poison away, unless the shared cache holds a newer copy; a correction not by
the mark counts in DMCn_ECC_CNT.CE and has an entry in the table; one with the poison syndrome marks the line poisoned and its consumer acts; an
uncorrectable one on a line not yet poisoned is logged, counts in DMCn_ECC_CNT.UE and leaves the line poisoned. A scrub read does nothing while
it is disabled, does the same for the line at the cursor, skips a poisoned one, moves the cursor on and returns it to 0 at the end of the pass.
CLEAR empties the table, W1C of MARKED clears the mark of its channel, the flip settings are taken only where R417 allows them and else rejected,
and the loss of DMC1 sets UNIT_LOST, takes its pages from the ledger and its lines from the merge buffer and the shared cache. -/
def Obligations.BufferReadsDecodePoisonAndScrub : Prop :=
  (∀ (ch : Fin 2) (line : Nat) (burst : Vector (BitVec 64) 10) (who : DramReader) (s : State),
     decodeLine (s.buf.marks.get ch) burst = .clean → sccDirty s (lineGl s ch line) = false →
     s.buf.merge.find? (fun e => e.line == lineGl s ch line) = none →
     ∃ t : State, exec (.dramRead ch line burst who) s = .next t ∧
       (∀ i : Fin 64, memByte t (64 * lineGl s ch line + i) = (delivered burst .clean).getD i 0) ∧
       memKept (64 * lineGl s ch line) 64 s t ∧
       linePoisoned t (lineGl s ch line) = false ∧
       onlyParts [.buf] s t) ∧
  (∀ (ch : Fin 2) (line : Nat) (burst : Vector (BitVec 64) 10) (who : DramReader) (e : MergeEntry) (s : State),
     decodeLine (s.buf.marks.get ch) burst = .clean → sccDirty s (lineGl s ch line) = false →
     s.buf.merge.find? (fun e => e.line == lineGl s ch line) = some e →
     ∃ t : State, exec (.dramRead ch line burst who) s = .next t ∧
       (∀ i : Fin 64, memByte t (64 * lineGl s ch line + i) = if e.enables.getLsbD i then e.data.getD i 0 else (delivered burst .clean).getD i 0) ∧
       memKept (64 * lineGl s ch line) 64 s t ∧
       linePoisoned t (lineGl s ch line) = false ∧
       onlyParts [.buf] s t) ∧
  (∀ (ch : Fin 2) (line : Nat) (burst : Vector (BitVec 64) 10) (who : DramReader) (s : State),
     decodeLine (s.buf.marks.get ch) burst = .clean → sccDirty s (lineGl s ch line) = true →
     exec (.dramRead ch line burst who) s = .next (s)) ∧
  (∀ (ch : Fin 2) (line : Nat) (burst : Vector (BitVec 64) 10) (who : DramReader) (j : Nat) (s : State),
     decodeLine (s.buf.marks.get ch) burst = .corrected j true → sccDirty s (lineGl s ch line) = false →
     s.buf.merge.find? (fun e => e.line == lineGl s ch line) = none →
     ∃ t : State, exec (.dramRead ch line burst who) s = .next t ∧
       (∀ i : Fin 64, memByte t (64 * lineGl s ch line + i) = (delivered burst (.corrected j true)).getD i 0) ∧
       memKept (64 * lineGl s ch line) 64 s t ∧
       linePoisoned t (lineGl s ch line) = false ∧
       onlyParts [.buf] s t) ∧
  (∀ (ch : Fin 2) (line : Nat) (burst : Vector (BitVec 64) 10) (who : DramReader) (j : Nat) (s : State),
     decodeLine (s.buf.marks.get ch) burst = .corrected j false → sccDirty s (lineGl s ch line) = false →
     s.buf.merge.find? (fun e => e.line == lineGl s ch line) = none →
     ∃ t : State, exec (.dramRead ch line burst who) s = .next t ∧
       (∀ i : Fin 64, memByte t (64 * lineGl s ch line + i) = (delivered burst (.corrected j false)).getD i 0) ∧
       memKept (64 * lineGl s ch line) 64 s t ∧
       linePoisoned t (lineGl s ch line) = false ∧
       t.get (F.DMCn_ECC_CNT_CE ch) = min (s.get (F.DMCn_ECC_CNT_CE ch) + 1) (2 ^ (F.DMCn_ECC_CNT_CE ch).width - 1) ∧
       (s.buf.ce.length < 64 → t.buf.ce.any (fun e => e.2.line == line && e.2.ch == ch.val) = true) ∧
       onlyParts [.regs, .evr, .ccx, .buf, .sent] s t) ∧
  (∀ (ch : Fin 2) (line : Nat) (burst : Vector (BitVec 64) 10) (who : DramReader) (s : State),
     decodeLine (s.buf.marks.get ch) burst = .poisoned →
     ∃ u : State, exec (.dramRead ch line burst who) s = .next (consumePoison who u) ∧
       linePoisoned u (lineGl s ch line) = true ∧
       u.buf.mem = s.buf.mem ∧
       onlyParts [.buf] s u) ∧
  (∀ (ch : Fin 2) (line : Nat) (h : Fin 8) (burst : Vector (BitVec 64) 10) (s : State),
     decodeLine (s.buf.marks.get ch) burst = .uncorrectable → linePoisoned s (lineGl s ch line) = false →
     ∃ t : State, exec (.dramRead ch line burst (.core h)) s = .next t ∧
       linePoisoned t (lineGl s ch line) = true ∧
       t.get (F.DMCn_ECC_CNT_UE ch) = min (s.get (F.DMCn_ECC_CNT_UE ch) + 1) (2 ^ (F.DMCn_ECC_CNT_UE ch).width - 1) ∧
       t.on F.BUF_FLT_POISON = true ∧
       (smGet (s.buf.psnNext % 32) t.buf.psn).map (fun e => (e.line, e.ch, e.source)) = some (line, ch.val, 1)) ∧
  (∀ (ch : Fin 2) (burst : Vector (BitVec 64) 10) (s : State),
     s.on (F.DMCn_SCRUB_CFG_EN ch) = false →
     exec (.scrubRead ch burst) s = .next (s)) ∧
  (∀ (ch : Fin 2) (burst : Vector (BitVec 64) 10) (s : State),
     s.on (F.DMCn_SCRUB_CFG_EN ch) = true → chPresent s ch = true → linePoisoned s (lineGl s ch (s.get (F.DMCn_SCRUB_STAT_CURSOR ch))) = true →
     s.get (F.DMCn_SCRUB_STAT_CURSOR ch) + 1 < chPages s ch * 1024 →
     exec (.scrubRead ch burst) s = .next (s.put (F.DMCn_SCRUB_STAT_CURSOR ch) (s.get (F.DMCn_SCRUB_STAT_CURSOR ch) + 1))) ∧
  (∀ (ch : Fin 2) (burst : Vector (BitVec 64) 10) (s : State),
     s.on (F.DMCn_SCRUB_CFG_EN ch) = true → chPresent s ch = true → linePoisoned s (lineGl s ch (s.get (F.DMCn_SCRUB_STAT_CURSOR ch))) = false →
     s.get (F.DMCn_SCRUB_STAT_CURSOR ch) + 1 < chPages s ch * 1024 → decodeLine (s.buf.marks.get ch) burst = .uncorrectable →
     ∃ t : State, exec (.scrubRead ch burst) s = .next t ∧
       linePoisoned t (lineGl s ch (s.get (F.DMCn_SCRUB_STAT_CURSOR ch))) = true ∧
       t.get (F.DMCn_ECC_CNT_UE ch) = min (s.get (F.DMCn_ECC_CNT_UE ch) + 1) (2 ^ (F.DMCn_ECC_CNT_UE ch).width - 1) ∧
       t.get (F.DMCn_SCRUB_STAT_CURSOR ch) = (s.get (F.DMCn_SCRUB_STAT_CURSOR ch) + 1) % 2 ^ (F.DMCn_SCRUB_STAT_CURSOR ch).width ∧
       (smGet (s.buf.psnNext % 32) t.buf.psn).map (fun e => e.source) = some 0) ∧
  (∀ (ch : Fin 2) (burst : Vector (BitVec 64) 10) (s : State),
     s.on (F.DMCn_SCRUB_CFG_EN ch) = true → chPresent s ch = true → linePoisoned s (lineGl s ch (s.get (F.DMCn_SCRUB_STAT_CURSOR ch))) = true →
     chPages s ch * 1024 ≤ s.get (F.DMCn_SCRUB_STAT_CURSOR ch) + 1 →
     ∃ t : State, exec (.scrubRead ch burst) s = .next t ∧
       t.get (F.DMCn_SCRUB_STAT_CURSOR ch) = 0 ∧
       t.buf.scrubAt.get ch = s.now.toNat ∧
       t.buf.mem = s.buf.mem ∧
       onlyParts [.regs, .buf] s t) ∧
  (∀ (s : State),
     s.accepts R.BUF_CE_SEL = true →
     ∃ t : State, exec .ceTableClear s = .next t ∧
       t.buf.ce = [] ∧
       t.get F.BUF_CE_STAT_USED = 0 ∧
       onlyParts [.regs, .bus, .buf] s t) ∧
  (∀ (ch : Fin 2) (s : State),
     s.accepts (R.DMCn_ECC_STAT ch) = true →
     ∃ t : State, exec (.markClear ch) s = .next t ∧
       t.buf.marks.get ch = none ∧
       t.get (F.DMCn_ECC_STAT_MARKED ch) = 0 ∧
       regsKept [R.DMCn_ECC_STAT ch] s t ∧
       onlyParts [.regs, .bus, .buf] s t ∧
       (∀ c : Fin 2, c ≠ ch → t.buf.marks.get c = s.buf.marks.get c)) ∧
  (∀ (ch : Fin 2) (w : Word) (s : State),
     s.accepts (R.DMCn_FLIP_CTL ch) = true → flipAllowed s ch = true →
     ∃ t : State, exec (.flipWrite ch true w) s = .next t ∧
       t.on (F.DMCn_FLIP_CTL_ARM ch) = w.getLsbD 31 ∧
       t.get (F.DMCn_FLIP_CTL_BEATS ch) = bitsOf w.toNat 23 8 ∧
       t.get (F.DMCn_FLIP_CTL_CHECK_DQ ch) = bitsOf w.toNat 7 0 ∧
       regsKept [R.DMCn_FLIP_CTL ch] s t ∧
       onlyParts [.regs, .bus] s t) ∧
  (∀ (ch : Fin 2) (w : Word) (s : State),
     s.accepts (R.DMCn_FLIP_DQ ch) = true → flipAllowed s ch = true →
     ∃ t : State, exec (.flipWrite ch false w) s = .next t ∧
       t.reg (R.DMCn_FLIP_DQ ch) = w ∧
       regsKept [R.DMCn_FLIP_DQ ch] s t ∧
       onlyParts [.regs, .bus] s t) ∧
  (∀ (ch : Fin 2) (w : Word) (s : State),
     s.accepts (R.DMCn_FLIP_CTL ch) = true → flipAllowed s ch = false → w ≠ 0x40000000 →
     ∃ t : State, exec (.flipWrite ch true w) s = .next t ∧
       t.on (F.DMCn_FLIP_CTL_FLIP_REJ ch) = true ∧
       t.on (F.DMCn_FLIP_CTL_ARM ch) = s.on (F.DMCn_FLIP_CTL_ARM ch) ∧
       t.get (F.DMCn_FLIP_CTL_BEATS ch) = s.get (F.DMCn_FLIP_CTL_BEATS ch) ∧
       t.get (F.DMCn_FLIP_CTL_CHECK_DQ ch) = s.get (F.DMCn_FLIP_CTL_CHECK_DQ ch) ∧
       onlyParts [.regs, .bus, .evr, .ccx] s t) ∧
  (∀ (s : State),
     chPresent s 1 = false →
     exec .dmcLost s = .next (s)) ∧
  (∀ (s : State),
     chPresent s 1 = true → s.glb.lost0.getLsbD 9 = false → (included0 s).testBit 9 = true →
     ∃ u : State, exec .dmcLost s = .next ((dmc1Gone u.settle)) ∧
       chPresent u 1 = false ∧
       u.glb.lost0.getLsbD 9 = true ∧
       ((dmc1Gone u.settle).buf.pages.all (fun p => decide (p.1 < chPages (dmc1Gone u.settle) 0))) = true ∧
       ((dmc1Gone u.settle).buf.merge.all (fun e => !onDmc1 (dmc1Gone u.settle) e.line)) = true ∧
       ((dmc1Gone u.settle).ccx.lines.all (fun e => !onDmc1 (dmc1Gone u.settle) e.2.line)) = true)

/-- R412, R424, R425, R428, R429: a write with all enables set is a full line, which discards a merge entry of its line and takes the poison away; a
narrow one merges into the line's entry or takes a new one, its bytes lying over a clean line and lost over a poisoned one, and the oldest entry
leaves where all 32 are in use; AGE expiry writes the oldest entry by read-modify-write, a poisoned line staying poisoned and its loss logged. An
allocation takes a ready page that nothing owns, and waits without one; a release frees a page with its clean blocks or quarantines it where it
holds a poisoned line, and does nothing while the page holds a dirty block; a quarantine test makes a page zero and frees it, or retains it. Each
epoch counts deferrals and resets allowances to the reservations; a grant goes to the lowest class with a request and allowance left and is
charged 1 to 8 code words; it moves lane data only where its class is 2, and a lane stream passed over that comes too late for its write gate is
counted and flagged. -/
def Obligations.BufferPagesMergesAndArbiter : Prop :=
  (∀ (line : Nat) (data : List Byte) (s : State),
     ∃ t : State, exec (.narrowWrite line (BitVec.allOnes 64) data) s = .next t ∧
       t.buf.merge = s.buf.merge.filter (fun x => x.line != line) ∧
       (∀ i : Fin 64, memByte t (64 * line + i) = (fit 64 data).getD i 0) ∧
       memKept (64 * line) 64 s t ∧
       linePoisoned t line = false ∧
       onlyParts [.regs, .buf, .sent] s t) ∧
  (∀ (line : Nat) (enables : BitVec 64) (data : List Byte) (s : State),
     enables ≠ BitVec.allOnes 64 → linePoisoned s line = true → s.buf.merge.find? (fun e => e.line == line) = none → s.buf.merge.length < 32 →
     ∃ t : State, exec (.narrowWrite line enables data) s = .next t ∧
       (t.buf.merge.map (fun e => (e.line, e.enables))) = s.buf.merge.map (fun e => (e.line, e.enables)) ++ [(line, enables)] ∧
       t.buf.mem = s.buf.mem ∧
       linePoisoned t line = true ∧
       regsKept [R.BUF_MERGE_STAT] s t ∧
       onlyParts [.regs, .buf] s t) ∧
  (∀ (line : Nat) (enables : BitVec 64) (data : List Byte) (s : State),
     enables ≠ BitVec.allOnes 64 → linePoisoned s line = false → s.buf.merge.find? (fun e => e.line == line) = none → s.buf.merge.length < 32 →
     ∃ t : State, exec (.narrowWrite line enables data) s = .next t ∧
       (t.buf.merge.map (fun e => (e.line, e.enables))) = s.buf.merge.map (fun e => (e.line, e.enables)) ++ [(line, enables)] ∧
       (∀ i : Fin 64, memByte t (64 * line + i) = if enables.getLsbD i then data.getD i 0 else memByte s (64 * line + i)) ∧
       memKept (64 * line) 64 s t ∧
       t.get F.BUF_MERGE_STAT_USED = s.buf.merge.length + 1 ∧
       regsKept [R.BUF_MERGE_STAT] s t ∧
       onlyParts [.regs, .buf] s t) ∧
  (∀ (line : Nat) (enables : BitVec 64) (data : List Byte) (e : MergeEntry) (rest : List MergeEntry) (s : State),
     enables ≠ BitVec.allOnes 64 → s.buf.merge.find? (fun e => e.line == line) = none → s.buf.merge = e :: rest ∧ rest.length = 31 →
     rest.all (fun x => x.line != e.line) = true →
     ∃ t : State, exec (.narrowWrite line enables data) s = .next t ∧
       (t.buf.merge.map (fun e => (e.line, e.enables))) = rest.map (fun e => (e.line, e.enables)) ++ [(line, enables)] ∧
       t.get F.BUF_CNT_RMW = min (s.get F.BUF_CNT_RMW + 1) (2 ^ F.BUF_CNT_RMW.width - 1) ∧
       s.sent.length < t.sent.length ∧
       onlyParts [.regs, .evr, .ccx, .buf, .sent] s t) ∧
  (∀ (line : Nat) (enables : BitVec 64) (data : List Byte) (e : MergeEntry) (s : State),
     enables ≠ BitVec.allOnes 64 → linePoisoned s line = false → s.buf.merge.find? (fun e => e.line == line) = some e →
     e.enables ||| enables ≠ BitVec.allOnes 64 →
     ∃ t : State, exec (.narrowWrite line enables data) s = .next t ∧
       (t.buf.merge.map (fun x => (x.line, x.enables))) = s.buf.merge.map
         (fun x => (x.line, if x.line = line then e.enables ||| enables else x.enables)) ∧
       (∀ i : Fin 64, memByte t (64 * line + i) = if enables.getLsbD i then data.getD i 0 else memByte s (64 * line + i)) ∧
       memKept (64 * line) 64 s t ∧
       onlyParts [.buf] s t) ∧
  (∀ (e : MergeEntry) (rest : List MergeEntry) (s : State),
     s.buf.merge = e :: rest → rest.all (fun x => x.line != e.line) = true → linePoisoned s e.line = false →
     ∃ t : State, exec .mergeAgeExpiry s = .next t ∧
       t.buf.merge = rest ∧
       t.buf.mem = s.buf.mem ∧
       t.get F.BUF_MERGE_STAT_USED = rest.length % 2 ^ F.BUF_MERGE_STAT_USED.width ∧
       t.get F.BUF_CNT_RMW = min (s.get F.BUF_CNT_RMW + 1) (2 ^ F.BUF_CNT_RMW.width - 1) ∧
       s.sent.length < t.sent.length ∧
       onlyParts [.regs, .buf, .sent] s t) ∧
  (∀ (e : MergeEntry) (rest : List MergeEntry) (s : State),
     s.buf.merge = e :: rest → rest.all (fun x => x.line != e.line) = true → linePoisoned s e.line = true →
     ∃ t : State, exec .mergeAgeExpiry s = .next t ∧
       t.buf.merge = rest ∧
       linePoisoned t e.line = true ∧
       (∀ i : Fin 64, memByte t (64 * e.line + i) = 0) ∧
       memKept (64 * e.line) 64 s t ∧
       (smGet (s.buf.psnNext % 32) t.buf.psn).map (fun e => e.source) = some 2 ∧
       onlyParts [.regs, .evr, .ccx, .buf, .sent] s t) ∧
  (∀ (s : State),
     s.buf.merge = [] →
     exec .mergeAgeExpiry s = .next (s)) ∧
  (∀ (n : Nat) (p : Nat) (o : Owner) (v : State) (s : State),
     ownerOf n = some o → allocPage o s = some (p, v) →
     ∃ t : State, exec (.pageAllocate n) s = .next t ∧
       smGet p s.buf.pages = none ∧
       pageReady s p = true ∧
       smGet p t.buf.pages = some (.owned o) ∧
       (∀ q : Nat, q ≠ p → smGet q t.buf.pages = smGet q s.buf.pages) ∧
       regsKept [R.BUF_PAGE_TOTAL, R.BUF_PAGE_OWNED, R.BUF_PAGE_QUAR, R.BUF_PAGE_FREE] s t ∧
       onlyParts [.regs, .buf] s t) ∧
  (∀ (n : Nat) (o : Owner) (s : State),
     ownerOf n = some o → (allocPage o s).isNone = true →
     exec (.pageAllocate n) s = .next (s)) ∧
  (∀ (p : Nat) (o : Owner) (s : State),
     smGet p s.buf.pages = some (.owned o) → s.buf.cache.any (fun e => e.2.loc / 16 == p && e.2.dirty) = false → pagePoisoned s p = false →
     ∃ t : State, exec (.pageRelease p) s = .next t ∧
       smGet p t.buf.pages = none ∧
       (∀ q : Nat, q ≠ p → smGet q t.buf.pages = smGet q s.buf.pages) ∧
       regsKept [R.BUF_PAGE_TOTAL, R.BUF_PAGE_OWNED, R.BUF_PAGE_QUAR, R.BUF_PAGE_FREE] s t ∧
       t.buf.cache = s.buf.cache.filter (fun e => e.2.loc / 16 != p) ∧
       onlyParts [.regs, .buf] s t) ∧
  (∀ (p : Nat) (o : Owner) (s : State),
     smGet p s.buf.pages = some (.owned o) → s.buf.cache.any (fun e => e.2.loc / 16 == p && e.2.dirty) = false → pagePoisoned s p = true →
     ∃ t : State, exec (.pageRelease p) s = .next t ∧
       smGet p t.buf.pages = some (.quarantined false) ∧
       (∀ q : Nat, q ≠ p → smGet q t.buf.pages = smGet q s.buf.pages) ∧
       t.buf.cache = s.buf.cache.filter (fun e => e.2.loc / 16 != p) ∧
       onlyParts [.regs, .buf] s t) ∧
  (∀ (p : Nat) (s : State),
     s.buf.cache.any (fun e => e.2.loc / 16 == p && e.2.dirty) = true →
     exec (.pageRelease p) s = .next (s)) ∧
  (∀ (p : Nat) (s : State),
     smGet p s.buf.pages = some (.quarantined false) → s.on F.BUF_CTL_QUAR_TEST = true →
     ∃ t : State, exec (.quarantineTest p none) s = .next t ∧
       smGet p t.buf.pages = none ∧
       (∀ a : Nat, a / 65536 = p → memByte t a = 0) ∧
       (∀ a : Nat, a / 65536 ≠ p → memByte t a = memByte s a) ∧
       pagePoisoned t p = false ∧
       onlyParts [.regs, .buf] s t) ∧
  (∀ (p : Nat) (i : Nat) (s : State),
     p < 2 ^ 18 → smGet p s.buf.pages = some (.quarantined false) → s.on F.BUF_CTL_QUAR_TEST = true →
     ∃ t : State, exec (.quarantineTest p (some i)) s = .next t ∧
       smGet p t.buf.pages = some (.quarantined true) ∧
       t.on F.BUF_FLT_QUAR_RETAIN = true ∧
       t.on F.BUF_FLT_POISON = true) ∧
  (∀ (ch : Fin 2) (s : State),
     ∃ t : State, exec (.arbiterEpoch ch) s = .next t ∧
       (∀ c : Fin 6, (t.buf.allow.get ch).get c = (reservation s ch (c.val + 1) : Int)) ∧
       (∀ c : Fin 6, (t.buf.defer.get ch).get c = if (s.buf.waiting.get ch).get c then min 65535 ((s.buf.defer.get ch).get c + 1) else
           (s.buf.defer.get ch).get c) ∧
       t.buf.mem = s.buf.mem ∧
       onlyParts [.buf] s t) ∧
  (∀ (ch : Fin 2) (requests : List (Nat × Nat)) (move : Option LaneMove) (s : State),
     grantClass s ch requests = none →
     exec (.arbiterGrant ch requests move) s = .next (s)) ∧
  (∀ (ch : Fin 2) (requests : List (Nat × Nat)) (c : Fin 6) (r : Nat × Nat) (s : State),
     grantClass s ch requests = some c → requests.find? (fun r => r.1 == c.val + 1) = some r →
     ∃ t : State, exec (.arbiterGrant ch requests none) s = .next t ∧
       (t.buf.allow.get ch).get c = (s.buf.allow.get ch).get c - (min 8 (max 1 r.2) : Nat) ∧
       (∀ k : Fin 6, k ≠ c → (t.buf.allow.get ch).get k = (s.buf.allow.get ch).get k) ∧
       (∀ k : Fin 6, (t.buf.waiting.get ch).get k = (requests.erase r).any (fun q => q.1 == k.val + 1)) ∧
       (∀ k : Fin 6, k.val < c.val → (0 < (s.buf.allow.get ch).get k) → requests.any (fun q => q.1 == k.val + 1) = false) ∧
       onlyParts [.buf] s t) ∧
  (∀ (ch : Fin 2) (requests : List (Nat × Nat)) (m : LaneMove) (c : Fin 6) (r : Nat × Nat) (s : State),
     grantClass s ch requests = some c → requests.find? (fun r => r.1 == c.val + 1) = some r →
     c.val ≠ 1 ∧ requests.any (fun r => r.1 == 2) = false →
     exec (.arbiterGrant ch requests (some m)) s = .next (chargeGrant ch c requests s)) ∧
  (∀ (ch : Fin 2) (requests : List (Nat × Nat)) (c : Fin 6) (n : Lane) (s : State),
     grantClass s ch requests = some c → c.val ≠ 1 ∧ requests.any (fun r => r.1 == 2) = true →
     ∃ u : State, exec (.arbiterGrant ch requests (some (.writeLate n))) s = .next (afterOutcomes u) ∧
       u.get F.BUF_ARB_CNT_LANE_STARVE = min (s.get F.BUF_ARB_CNT_LANE_STARVE + 1) (2 ^ F.BUF_ARB_CNT_LANE_STARVE.width - 1) ∧
       u.on F.BUF_FLT_LANE_STARVE = true ∧
       onlyParts [.regs, .evr, .ccx, .buf] s u)

/-- R433 to R454: a hart that does not run makes no access; a refused, unmapped or misaligned one traps with its cause (1, 5 or 7 outside the map). A
load answers the bytes as the hart sees them, its own buffered stores over memory; a fetch answers what its instruction cache holds; a store
enters the store buffer and leaves memory alone until it drains; FENCE and FENCE.I end with it empty, FENCE.I with the instruction cache empty
too; LR answers the bytes and takes the reservation, an AMO answers the old value and writes its result, SC within a held reservation writes and
answers 0, else answers 1 and writes nothing; the identification registers, misa, ring time and mip read as R433 fixes them. A load miss counts a
miss; a fill of a line that SCC holds counts a hit and adds the hart to its holders. A claim answers and clears the highest pending source of the
hart, or 0; the timer interrupt follows ring time and CCX_TCMP; a kick clears warnings, a first expiry warns and a second loses the hart;
disabling a way takes it out of WAY_EN, but never the last one. -/
def Obligations.CoresAndSccServeRequests : Prop :=
  (∀ (a : CoreAccess) (s : State),
     hartRuns s a.hart = false →
     exec (.coreAccess a) s = .next (s)) ∧
  (∀ (a : CoreAccess) (s : State),
     hartRuns s a.hart = true → a.refused = none → (match a.op with | .fence | .fenceI | .csrWriteMisa | .csrRead _ => false | _ => true) = true →
     0x10000000 ≤ a.addr → a.addr < bufferBase ∨ bufferBase + bufBytes s < a.addr + a.size →
     exec (.coreAccess a) s = .next (coreTrap a.hart (faultCause a.op) a.va s)) ∧
  (∀ (a : CoreAccess) (n : Nat) (s : State),
     hartRuns s a.hart = true → (match a.op with | .fence | .fenceI | .csrWriteMisa | .csrRead _ => false | _ => true) = true → a.refused = some n →
     exec (.coreAccess a) s = .next (coreTrap a.hart n a.va s)) ∧
  (∀ (a : CoreAccess) (n : Nat) (s : State),
     hartRuns s a.hart = true → a.refused = none → (match a.op with | .fence | .fenceI | .csrWriteMisa | .csrRead _ => false | _ => true) = true →
     bufferBase ≤ a.addr → a.addr + a.size ≤ bufferBase + bufBytes s → misaligned a (a.addr - bufferBase) = some n →
     exec (.coreAccess a) s = .next (coreTrap a.hart n a.va s)) ∧
  (∀ (a : CoreAccess) (s : State),
     hartRuns s a.hart = true → a.refused = none → a.op = .load → bufferBase ≤ a.addr → a.addr + a.size ≤ bufferBase + bufBytes s →
     misaligned a (a.addr - bufferBase) = none → l1Has a.hart ((a.addr - bufferBase) / 64) s = true → a.l1 = .hit →
     exec (.coreAccess a) s = .next (s.answer (.data (bytesVal (coreBytes a.hart (a.addr - bufferBase) a.size s))))) ∧
  (∀ (a : CoreAccess) (s : State),
     hartRuns s a.hart = true → a.refused = none → a.op = .load → bufferBase ≤ a.addr → a.addr + a.size ≤ bufferBase + bufBytes s →
     misaligned a (a.addr - bufferBase) = none → l1Has a.hart ((a.addr - bufferBase) / 64) s = false →
     glPoisoned s ((a.addr - bufferBase) / 64) = false → sccFind s ((a.addr - bufferBase) / 64) = none → a.array = .ok → chPages s 0 ≤ 2 ^ 18 →
     s.on F.SCC_CTL_PF_EN = false →
     ∃ t : State, exec (.coreAccess a) s = .next t ∧
       t.bus = .data (bytesVal (coreBytes a.hart (a.addr - bufferBase) a.size t)) ∧
       t.get F.SCC_CNT_MISSES = min (s.get F.SCC_CNT_MISSES + 1) (2 ^ F.SCC_CNT_MISSES.width - 1)) ∧
  (∀ (a : CoreAccess) (s : State),
     hartRuns s a.hart = true → a.refused = none → a.op = .store → bufferBase ≤ a.addr → a.addr + a.size ≤ bufferBase + bufBytes s →
     misaligned a (a.addr - bufferBase) = none →
     sbRuns (a.addr - bufferBase) (le a.size a.data.toNat) = [((a.addr - bufferBase), le a.size a.data.toNat)] →
     (s.ccx.sb.get a.hart).find? (sbTouch (a.addr - bufferBase, le a.size a.data.toNat)) = none ∧ (s.ccx.sb.get a.hart).length < 8 →
     exec (.coreAccess a) s = .next
       ((s.onCcx (fun c => { c with sb := setV c.sb a.hart (c.sb.get a.hart ++ [((a.addr - bufferBase), le a.size a.data.toNat)]) })).answer .done)) ∧
  (∀ (a : CoreAccess) (s : State),
     hartRuns s a.hart = true → a.op = .fence → s.ccx.sb.get a.hart = [] →
     exec (.coreAccess a) s = .next (s.answer .done)) ∧
  (∀ (a : CoreAccess) (r : CoreCsr) (s : State),
     hartRuns s a.hart = true → a.op = .csrRead r →
     exec (.coreAccess a) s = .next (s.answer (.data (csrValue s a.hart r)))) ∧
  (∀ (a : CoreAccess) (s : State),
     hartRuns s a.hart = true → a.op = .csrWriteMisa →
     exec (.coreAccess a) s = .next (s.answer .done)) ∧
  (∀ (a : CoreAccess) (s : State),
     hartRuns s a.hart = true → a.op = .fenceI → s.ccx.sb.get a.hart = [] →
     exec (.coreAccess a) s = .next ((s.onCcx (fun c => { c with icache := setV c.icache a.hart [] })).answer .done)) ∧
  (∀ (a : CoreAccess) (b : List Byte) (s : State),
     hartRuns s a.hart = true → a.refused = none → a.op = .fetch → bufferBase ≤ a.addr → a.addr + a.size ≤ bufferBase + bufBytes s →
     smGet ((a.addr - bufferBase) / 64) (s.ccx.icache.get a.hart) = some b → a.l1 = .hit → (a.addr - bufferBase) % 64 + a.size ≤ 64 →
     exec (.coreAccess a) s = .next (s.answer (.data (bytesVal ((b.drop ((a.addr - bufferBase) % 64)).take a.size))))) ∧
  (∀ (a : CoreAccess) (s : State),
     hartRuns s a.hart = true → a.refused = none → a.op = .lr → bufferBase ≤ a.addr → a.addr + a.size ≤ bufferBase + bufBytes s →
     misaligned a (a.addr - bufferBase) = none → l1Has a.hart ((a.addr - bufferBase) / 64) s = true → a.l1 = .hit →
     exec (.coreAccess a) s = .next ((s.onCcx (fun c => { c with reserve := setV c.reserve a.hart (some ((a.addr - bufferBase) / 64)) })).answer
         (.data (bytesVal (coreBytes a.hart (a.addr - bufferBase) a.size s))))) ∧
  (∀ (a : CoreAccess) (f : AmoOp) (s : State),
     hartRuns s a.hart = true → a.refused = none → a.op = .amo f → bufferBase ≤ a.addr → a.addr + a.size ≤ bufferBase + bufBytes s →
     misaligned a (a.addr - bufferBase) = none → a.size = 4 ∨ a.size = 8 → l1Has a.hart ((a.addr - bufferBase) / 64) s = true → a.array = .ok →
     s.ccx.sb.get a.hart = [] → glPoisoned s ((a.addr - bufferBase) / 64) = false → s.on F.SCC_CTL_PF_EN = false →
     ∃ t : State, exec (.coreAccess a) s = .next t ∧
       t.bus = .data (BitVec.ofNat 64 (unle (memRead s (a.addr - bufferBase) a.size))) ∧
       (∀ i : Fin a.size, memByte t ((a.addr - bufferBase) + i) =
           (le a.size (amoResult f a.size (unle (memRead s (a.addr - bufferBase) a.size)) a.data.toNat)).getD i 0) ∧
       memKept (a.addr - bufferBase) a.size s t) ∧
  (∀ (w : Bool) (a : CoreAccess) (s : State),
     hartRuns s a.hart = true → a.refused = none → a.op = .sc w → bufferBase ≤ a.addr → a.addr + a.size ≤ bufferBase + bufBytes s →
     misaligned a (a.addr - bufferBase) = none → l1Has a.hart ((a.addr - bufferBase) / 64) s = true → a.l1 = .hit → s.ccx.sb.get a.hart = [] →
     w = false ∨ s.ccx.reserve.get a.hart ≠ some ((a.addr - bufferBase) / 64) →
     exec (.coreAccess a) s = .next ((s.onCcx (fun c => { c with reserve := setV c.reserve a.hart none })).answer (.data 1))) ∧
  (∀ (a : CoreAccess) (s : State),
     hartRuns s a.hart = true → a.refused = none → a.op = .sc true → bufferBase ≤ a.addr → a.addr + a.size ≤ bufferBase + bufBytes s →
     misaligned a (a.addr - bufferBase) = none → l1Has a.hart ((a.addr - bufferBase) / 64) s = true → a.l1 = .hit → s.ccx.sb.get a.hart = [] →
     s.ccx.reserve.get a.hart = some ((a.addr - bufferBase) / 64) → glPoisoned s ((a.addr - bufferBase) / 64) = false →
     s.on F.SCC_CTL_PF_EN = false →
     ∃ t : State, exec (.coreAccess a) s = .next t ∧
       t.bus = .data 0 ∧
       t.ccx.reserve.get a.hart = none ∧
       (∀ i : Fin a.size, memByte t ((a.addr - bufferBase) + i) = (le a.size a.data.toNat).getD i 0) ∧
       memKept (a.addr - bufferBase) a.size s t) ∧
  (∀ (h : Fin 8) (line : Nat) (s : State),
     lineInBuf s line = false →
     exec (.sccFill h line) s = .next (s)) ∧
  (∀ (h : Fin 8) (line : Nat) (k : Nat) (l : SccLine) (s : State),
     lineInBuf s line = true → sccFind s line = some (k, l) → l.prefetched = false → l.poison = false →
     ∃ t : State, exec (.sccFill h line) s = .next t ∧
       smGet k t.ccx.lines = some { l with age := 0, holders := l.holders ||| (1#8 <<< h.val) } ∧
       t.get F.SCC_CNT_HITS = min (s.get F.SCC_CNT_HITS + 1) (2 ^ F.SCC_CNT_HITS.width - 1) ∧
       regsKept [R.SCC_CNT] s t ∧
       onlyParts [.regs, .ccx] s t) ∧
  (∀ (h : Fin 8) (sup : Bool) (again : Bool) (s : State),
     claimChoice s h sup = none →
     exec (.interruptClaim h sup again) s = .next (s.answer (.value 0))) ∧
  (∀ (h : Fin 8) (sup : Bool) (n : Nat) (s : State),
     claimChoice s h sup = some n →
     exec (.interruptClaim h sup true) s = .next (s.answer (.value (BitVec.ofNat 32 n)))) ∧
  (∀ (h : Fin 8) (sup : Bool) (n : Nat) (s : State),
     claimChoice s h sup = some n →
     ∃ t : State, exec (.interruptClaim h sup false) s = .next t ∧
       t.bus = .value (BitVec.ofNat 32 n) ∧
       (∀ m : Fin 256, t.ccx.irq.getLsbD m = (s.ccx.irq.getLsbD m && decide (m.val ≠ n))) ∧
       deliveredTo s h sup n = true ∧
       (∀ m : Fin 256, deliveredTo s h sup m = true → bitsOf (routeOf s m) 6 4 ≤ bitsOf (routeOf s n) 6 4) ∧
       onlyParts [.ccx, .bus] s t) ∧
  (∀ (h : Fin 8) (s : State),
     ∃ t : State, exec (.timerInterrupt h) s = .next t ∧
       t.ccx.mtip.getLsbD h = decide ((s.pair (R.CCX_TCMPk_LO h) (R.CCX_TCMPk_HI h)).toNat ≤ s.now.toNat) ∧
       (∀ k : Fin 8, k ≠ h → t.ccx.mtip.getLsbD k = s.ccx.mtip.getLsbD k) ∧
       onlyParts [.ccx] s t) ∧
  (∀ (w : Word) (s : State),
     s.accepts R.CCX_WDOG_KICK = true →
     ∃ t : State, exec (.watchdogKick w) s = .next t ∧
       (∀ k : Fin 8, t.ccx.warned.getLsbD k = (s.ccx.warned.getLsbD k && !w.getLsbD k)) ∧
       onlyParts [.regs, .bus, .ccx] s t) ∧
  (∀ (h : Fin 8) (s : State),
     s.on F.CCX_WDOG_CFG_TIMEOUT = false →
     exec (.watchdogExpiry h) s = .next (s)) ∧
  (∀ (h : Fin 8) (s : State),
     s.on F.CCX_WDOG_CFG_TIMEOUT = true → s.get (F.CCX_HART_STAT_RELEASED.bit h.val) = 1 → s.get (F.CCX_HART_STAT_LOST.bit h.val) = 0 →
     s.ccx.warned.getLsbD h.val = false →
     ∃ t : State, exec (.watchdogExpiry h) s = .next t ∧
       t.ccx.warned.getLsbD h.val = true ∧
       t.get (F.CCX_FLT_WARN.bit h.val) = 1 ∧
       onlyParts [.regs, .evr, .ccx] s t) ∧
  (∀ (h : Fin 8) (s : State),
     s.on F.CCX_WDOG_CFG_TIMEOUT = true → s.get (F.CCX_HART_STAT_RELEASED.bit h.val) = 1 → s.get (F.CCX_HART_STAT_LOST.bit h.val) = 0 →
     s.ccx.warned.getLsbD h.val = true →
     ∃ u : State, exec (.watchdogExpiry h) s = .next (reroute h (u.loseUnit0 h)) ∧
       u.get (F.CCX_HART_STAT_LOST.bit h.val) = 1 ∧
       u.get (F.CCX_FLT_LOST.bit h.val) = 1 ∧
       onlyParts [.regs, .evr, .ccx] s u) ∧
  (∀ (w : Nat) (s : State),
     s.accepts R.SCC_WAY_DIS = true → w < 16 → isQeWay s w = false → enabledWays s = [w] → (s.reg R.SCC_WAY_EN).getLsbD w = true →
     ∃ t : State, exec (.wayDisable (1#32 <<< w)) s = .next t ∧
       t.on F.SCC_FLT_LAST_WAY = true ∧
       t.reg R.SCC_WAY_EN = s.reg R.SCC_WAY_EN ∧
       t.ccx.lines = s.ccx.lines ∧
       onlyParts (changedBy (.wayDisable 0)) s t) ∧
  (∀ (w : Nat) (s : State),
     s.accepts R.SCC_WAY_DIS = true → w < 16 → isQeWay s w = false → enabledWays s ≠ [w] → (s.reg R.SCC_WAY_EN).getLsbD w = true →
     s.ccx.lines = [] →
     ∃ t : State, exec (.wayDisable (1#32 <<< w)) s = .next t ∧
       t.on F.SCC_FLT_WAY_DIS = true ∧
       (∀ i : Fin 16, (t.reg R.SCC_WAY_EN).getLsbD i = ((s.reg R.SCC_WAY_EN).getLsbD i && decide (i.val ≠ w))) ∧
       onlyParts (changedBy (.wayDisable 0)) s t)

/-- R386, R387: without the key-encryption key the unwrap does nothing. With it, KEY_STAT.READY is set; every namespace that has a good copy of its
record (one that reads and unwraps) gets the key of the good copy of higher GEN, and where the MRAM write reads back both copies are that one
from then on; the key store keeps what it had for a namespace without a good copy, and its record stays. Only registers, event log, interrupt
sources and the keys may change. -/
def Obligations.KeysUnwrapIntoTheKeyStore : Prop :=
  (∀ (m : Bool) (s : State),
     s.key.kek = none →
     exec (.keyUnwrap m) s = .next (s)) ∧
  (∀ (m : Bool) (k : Nat) (a b : List Byte) (s : State),
     s.key.kek.isSome = true → smGet k s.key.recs = some (a, b) →
     ∃ t : State, exec (.keyUnwrap m) s = .next t ∧
       smGet k t.key.keys = (match keySelected s k with | some r => some r.key | none => smGet k s.key.keys) ∧
       (m = true → smGet k t.key.recs =
           (match keySelected s k with | some r => if goodCopy s a = some r then some (a, a) else some (b, b) | none => some (a, b))) ∧
       t.get F.KEY_STAT_READY = 1 ∧
       onlyParts [.regs, .evr, .ccx, .key] s t)

/-- R461 to R475: START clears the indices, PC and fault registers of a channel that is neither RUNNING nor WAITING and runs it, RESUME runs a
FAULTED one where it stopped, ABORT stops a running one in IDLE with ABORTED set, DISABLE with no channel running sets its bit; a START or RESUME
out of place only sets REJ. A fetch past the last instruction or outside the buffer faults with code 4; an instruction of the line read is taken.
A move outside the buffer faults RANGE with the address; one of a single burst takes a credit for it; a burst accepted writes its bytes and gives
its credit back, and the last one of a register-mode element advances loop 0 or ends the transfer. LOOP branches while its index is below its
count, WAIT waits for a delay or a flag or takes a set flag at once, SIGNAL sets its flag and reports, and the end of a delay goes on; the next
instruction is then taken from the line held, if it lies there. A flag set wakes the lowest waiting channel, and W1C clears flags. The parts of
the state that each may change are named. -/
def Obligations.DmaChannelsMoveAndRunPrograms : Prop :=
  (∀ (c : Fin 64) (s : State),
     s.accepts (R.DMAc_CTL c) = true → dmaBusy s c = false → s.on F.DMA_CTL_DISABLE = false →
     ∃ t : State, exec (.channelStart c) s = .next t ∧
       dmaState t c = 1 ∧
       t.dmaCh c = dmaNone ∧
       (t.reg (R.DMAc_IDX01 c), t.reg (R.DMAc_IDX2 c)) = (0, 0) ∧
       (t.reg (R.DMAc_FLT c), t.reg (R.DMAc_FLT_ADDR_LO c), t.reg (R.DMAc_FLT_ADDR_HI c)) = (0, 0, 0) ∧
       onlyParts [.regs, .bus, .dma] s t) ∧
  (∀ (c : Fin 64) (s : State),
     s.accepts (R.DMAc_CTL c) = true → dmaBusy s c = true ∨ s.on F.DMA_CTL_DISABLE = true →
     ∃ t : State, exec (.channelStart c) s = .next t ∧
       t.on (F.DMAc_STAT_REJ c) = true ∧
       dmaState t c = dmaState s c ∧
       t.dma = s.dma ∧
       onlyParts [.regs, .bus, .dma] s t) ∧
  (∀ (c : Fin 64) (s : State),
     s.accepts (R.DMAc_CTL c) = true → dmaState s c = 3 →
     ∃ t : State, exec (.channelResume c) s = .next t ∧
       dmaState t c = 1 ∧
       t.reg (R.DMAc_IDX01 c) = s.reg (R.DMAc_IDX01 c) ∧
       t.reg (R.DMAc_IDX2 c) = s.reg (R.DMAc_IDX2 c) ∧
       onlyParts [.regs, .bus, .dma] s t) ∧
  (∀ (c : Fin 64) (s : State),
     s.accepts (R.DMAc_CTL c) = true → dmaState s c ≠ 3 →
     ∃ t : State, exec (.channelResume c) s = .next t ∧
       t.on (F.DMAc_STAT_REJ c) = true ∧
       dmaState t c = dmaState s c ∧
       t.dma = s.dma ∧
       onlyParts [.regs, .bus, .dma] s t) ∧
  (∀ (c : Fin 64) (s : State),
     s.accepts (R.DMAc_CTL c) = true → dmaState s c ≠ 0 → dmaState s c ≠ 4 →
     ∃ t : State, exec (.channelAbort c) s = .next t ∧
       dmaState t c = 0 ∧
       t.on (F.DMAc_STAT_ABORTED c) = true ∧
       t.dmaCh c = dmaNone ∧
       t.get F.DMA_CNT_ABORTS = min (s.get F.DMA_CNT_ABORTS + 1) (2 ^ F.DMA_CNT_ABORTS.width - 1) ∧
       ((s.dmaCh c).moving = false → t.buf.mem = s.buf.mem) ∧
       onlyParts [.regs, .bus, .evr, .ccx, .buf, .dma, .sent, .freeN] s t) ∧
  (∀ (c : Fin 64) (s : State),
     s.accepts (R.DMAc_CTL c) = true → dmaState s c = 0 ∨ dmaState s c = 4 →
     ∃ t : State, exec (.channelAbort c) s = .next t ∧
       dmaState t c = dmaState s c ∧
       t.dma = s.dma ∧
       t.on (F.DMAc_STAT_ABORTED c) = s.on (F.DMAc_STAT_ABORTED c) ∧
       onlyParts [.regs, .bus, .dma] s t) ∧
  (∀ (w : Word) (s : State),
     s.accepts R.DMA_CTL = true → w.getLsbD 0 = true → (∀ c : Fin 64, dmaState s c = 0 ∨ dmaState s c = 4) →
     ∃ t : State, exec (.dmaDisable w) s = .next t ∧
       t.on F.DMA_CTL_DISABLE = true ∧
       t.dma = s.dma ∧
       onlyParts [.regs, .bus] s t) ∧
  (∀ (w : Word) (s : State),
     s.accepts R.DMA_CTL = true → w.getLsbD 0 = false →
     ∃ t : State, exec (.dmaDisable w) s = .next t ∧
       t.on F.DMA_CTL_DISABLE = false ∧
       t.dma = s.dma ∧
       onlyParts [.regs, .bus] s t) ∧
  (∀ (c : Fin 64) (s : State),
     dmaState s c = 1 → dmaProgram s c = true → (s.dmaCh c).instr = none → (s.dmaCh c).past = true →
     exec (.instructionFetch c) s = .next (dmaFault c 4 (dmaBase s c) s)) ∧
  (∀ (c : Fin 64) (s : State),
     dmaState s c = 1 → dmaProgram s c = true → (s.dmaCh c).instr = none → (s.dmaCh c).past = false → bufBytes s < dmaInstrAt s c + 16 →
     exec (.instructionFetch c) s = .next (dmaFault c 4 (dmaInstrAt s c) s)) ∧
  (∀ (c : Fin 64) (s : State),
     dmaState s c = 1 → dmaProgram s c = true → (s.dmaCh c).instr = none → (s.dmaCh c).past = false → dmaInstrAt s c + 16 ≤ bufBytes s →
     glPoisoned s (dmaInstrAt s c / 64) = false → sccFind s (dmaInstrAt s c / 64) = none → dmaLegal (unle (memRead s (dmaInstrAt s c) 16)) = true →
     ∃ t : State, exec (.instructionFetch c) s = .next t ∧
       (t.dmaCh c).instr = some (BitVec.ofNat 128 (unle (memRead s (dmaInstrAt s c) 16))) ∧
       (t.dmaCh c).line.map Prod.fst = some (dmaInstrAt s c / 64) ∧
       regsKept [] s t ∧
       onlyParts [.dma] s t) ∧
  (∀ (c : Fin 64) (s : State),
     dmaState s c = 1 → (s.dmaCh c).moving = false → dmaProgram s c = false → bufBytes s < (dmaElem s c).sa + (dmaElem s c).len →
     exec (.move c) s = .next (dmaFault c 1 (dmaElem s c).sa s)) ∧
  (∀ (c : Fin 64) (s : State),
     dmaState s c = 1 → (s.dmaCh c).moving = false → dmaProgram s c = false → (dmaElem s c).sa + (dmaElem s c).len ≤ bufBytes s →
     bufBytes s < (dmaElem s c).da + (dmaElem s c).len →
     exec (.move c) s = .next (dmaFault c 1 (dmaElem s c).da s)) ∧
  (∀ (c : Fin 64) (s : State),
     dmaState s c = 1 → (s.dmaCh c).moving = false → (s.dmaCh c).bursts = [] → dmaProgram s c = false →
     (dmaElem s c).sa + (dmaElem s c).len ≤ bufBytes s → (dmaElem s c).da + (dmaElem s c).len ≤ bufBytes s → selfOverlap (dmaElem s c) = false →
     (dmaElem s c).len ≤ burstLen (dmaElem s c).sa (dmaElem s c).da (dmaElem s c).len →
     (linesOf (dmaElem s c).sa (dmaElem s c).len).all (fun l => (sccFind s l).isNone && !linePoisoned s l) = true → (dmaElem s c).alloc = false →
     0 < s.get F.DMA_CRED_FREE →
     ∃ t : State, exec (.move c) s = .next t ∧
       (t.dmaCh c).bursts = [⟨(dmaElem s c).sa, (dmaElem s c).da, memRead s (dmaElem s c).sa (dmaElem s c).len⟩] ∧
       (t.dmaCh c).issued = (dmaElem s c).len ∧
       t.get F.DMA_CRED_FREE = s.get F.DMA_CRED_FREE - 1 ∧
       t.buf.mem = s.buf.mem ∧
       onlyParts [.regs, .ccx, .buf, .dma, .sent] s t) ∧
  (∀ (c : Fin 64) (b : Burst) (s : State),
     dmaState s c = 1 → dmaProgram s c = false → (s.dmaCh c).bursts = [b] → (dmaElem s c).len ≤ (s.dmaCh c).issued → b.data.length = 64 →
     b.dst % 64 = 0 → sccFind s (b.dst / 64) = none → s.get (dmaIdx c 0) + 1 < dmaCnt s c 0 →
     ∃ t : State, exec (.burstDone c) s = .next t ∧
       (∀ i : Fin 64, memByte t (b.dst + i) = b.data.getD i 0) ∧
       memKept b.dst 64 s t ∧
       (t.dmaCh c).bursts = [] ∧
       t.get (dmaIdx c 0) = s.get (dmaIdx c 0) + 1 ∧
       t.get F.DMA_CRED_FREE = (s.get F.DMA_CRED_FREE + 1) % 2 ^ F.DMA_CRED_FREE.width ∧
       onlyParts [.regs, .evr, .ccx, .buf, .dma, .sent] s t) ∧
  (∀ (c : Fin 64) (b : Burst) (s : State),
     dmaState s c = 1 → dmaProgram s c = false → (s.dmaCh c).bursts = [b] → (dmaElem s c).len ≤ (s.dmaCh c).issued → b.data.length = 64 →
     b.dst % 64 = 0 → sccFind s (b.dst / 64) = none → ((∀ k : Fin 3, dmaCnt s c k ≤ s.get (dmaIdx c k) + 1)) →
     ∃ t : State, exec (.burstDone c) s = .next t ∧
       dmaState t c = 4 ∧
       t.on (F.DMAc_STAT_DONE_EVT c) = true ∧
       t.dmaCh c = dmaNone ∧
       (∀ i : Fin 64, memByte t (b.dst + i) = b.data.getD i 0) ∧
       memKept b.dst 64 s t ∧
       onlyParts [.regs, .evr, .ccx, .buf, .dma, .sent] s t) ∧
  (∀ (c : Fin 64) (v : Nat) (s : State),
     dmaAt s c 2 = some v → s.get (dmaIdx c (bitsOf v 5 4 - 1)) + 1 < dmaCnt s c (bitsOf v 5 4 - 1) →
     ∃ u : State, exec (.dmaLoop c) s = .next (dmaLoad c u) ∧
       u.get (F.DMAc_IDX2_PC c) = bitsOf v 17 6 ∧
       u.get (dmaIdx c (bitsOf v 5 4 - 1)) = s.get (dmaIdx c (bitsOf v 5 4 - 1)) + 1 ∧
       (u.dmaCh c).instr = none ∧
       regsKept [R.DMAc_IDX01 c, R.DMAc_IDX2 c] s u ∧
       onlyParts [.regs, .dma] s u) ∧
  (∀ (c : Fin 64) (v : Nat) (s : State),
     dmaAt s c 2 = some v → dmaCnt s c (bitsOf v 5 4 - 1) ≤ s.get (dmaIdx c (bitsOf v 5 4 - 1)) + 1 →
     ∃ u : State, exec (.dmaLoop c) s = .next (dmaLoad c u) ∧
       u.get (F.DMAc_IDX2_PC c) = (s.get (F.DMAc_IDX2_PC c) + 1) % 4096 ∧
       u.get (dmaIdx c (bitsOf v 5 4 - 1)) = 0 ∧
       regsKept [R.DMAc_IDX01 c, R.DMAc_IDX2 c] s u ∧
       onlyParts [.regs, .dma] s u) ∧
  (∀ (c : Fin 64) (v : Nat) (s : State),
     dmaAt s c 3 = some v → bitsOf v 4 4 = 1 →
     ∃ t : State, exec (.wait c) s = .next t ∧
       dmaState t c = 2 ∧
       (t.dmaCh c).waitDelay = true ∧
       regsKept [R.DMAc_STAT c] s t ∧
       onlyParts [.regs, .dma] s t) ∧
  (∀ (c : Fin 64) (v : Nat) (s : State),
     dmaAt s c 3 = some v → bitsOf v 4 4 = 0 → s.on (F.DMA_FLAGS_FLAG.bit (bitsOf v 9 5)) = false →
     ∃ t : State, exec (.wait c) s = .next t ∧
       dmaState t c = 2 ∧
       (t.dmaCh c).waitFlag = some (bitsOf v 9 5) ∧
       regsKept [R.DMAc_STAT c] s t ∧
       onlyParts [.regs, .dma] s t) ∧
  (∀ (c : Fin 64) (v : Nat) (s : State),
     dmaAt s c 3 = some v → bitsOf v 4 4 = 0 → s.on (F.DMA_FLAGS_FLAG.bit (bitsOf v 9 5)) = true →
     ∃ u : State, exec (.wait c) s = .next (dmaLoad c u) ∧
       dmaState u c = 1 ∧
       u.on (F.DMA_FLAGS_FLAG.bit (bitsOf v 9 5)) = false ∧
       u.get (F.DMAc_IDX2_PC c) = (s.get (F.DMAc_IDX2_PC c) + 1) % 4096 ∧
       regsKept [R.DMA_FLAGS, R.DMAc_IDX2 c] s u ∧
       onlyParts [.regs, .dma] s u) ∧
  (∀ (c : Fin 64) (v : Nat) (s : State),
     dmaAt s c 4 = some v → bitsOf v 4 4 = 1 → bitsOf v 11 11 = 0 → ((∀ k : Fin 64, (s.dmaCh k).waitFlag ≠ some (bitsOf v 9 5))) →
     ∃ u : State, exec (.signal c) s = .next (dmaLoad c u) ∧
       u.on (F.DMA_FLAGS_FLAG.bit (bitsOf v 9 5)) = true ∧
       u.get (F.DMAc_IDX2_PC c) = (s.get (F.DMAc_IDX2_PC c) + 1) % 4096 ∧
       (bitsOf v 10 10 = 1 → u.on (F.DMAc_STAT_SIG_EVT c) = true) ∧
       (bitsOf v 10 10 = 0 → regsKept [R.DMA_FLAGS, R.DMAc_IDX2 c] s u) ∧
       onlyParts [.regs, .evr, .ccx, .dma] s u) ∧
  (∀ (c : Fin 64) (v : Nat) (s : State),
     dmaAt s c 4 = some v → bitsOf v 4 4 = 0 → bitsOf v 11 11 = 1 →
     ∃ t : State, exec (.signal c) s = .next t ∧
       dmaState t c = 4 ∧
       t.on (F.DMAc_STAT_DONE_EVT c) = true ∧
       t.dmaCh c = dmaNone ∧
       (bitsOf v 10 10 = 1 → t.on (F.DMAc_STAT_SIG_EVT c) = true) ∧
       onlyParts [.regs, .evr, .ccx, .dma] s t) ∧
  (∀ (c : Fin 64) (s : State),
     dmaState s c = 2 → (s.dmaCh c).waitDelay = true →
     ∃ u : State, exec (.waitDelayEnd c) s = .next (dmaLoad c u) ∧
       dmaState u c = 1 ∧
       u.get (F.DMAc_IDX2_PC c) = (s.get (F.DMAc_IDX2_PC c) + 1) % 4096 ∧
       (u.dmaCh c).waitDelay = false ∧
       regsKept [R.DMAc_STAT c, R.DMAc_IDX2 c] s u ∧
       onlyParts [.regs, .dma] s u) ∧
  (∀ (f : Fin 32) (s : State),
     s.accepts R.DMA_FLAG_SET = true → ((∀ k : Fin 64, (s.dmaCh k).waitFlag ≠ some f.val)) →
     ∃ t : State, exec (.flagSet (1#32 <<< f.val)) s = .next t ∧
       t.on (F.DMA_FLAGS_FLAG.bit f.val) = true ∧
       t.dma = s.dma ∧
       onlyParts [.regs, .bus] s t) ∧
  (∀ (f : Fin 32) (k : Nat) (s : State),
     s.accepts R.DMA_FLAG_SET = true → (List.range 64).find? (fun c => (s.dmaCh c).waitFlag == some f.val) = some k →
     ∃ t : State, exec (.flagSet (1#32 <<< f.val)) s = .next t ∧
       t.on (F.DMA_FLAGS_FLAG.bit f.val) = false ∧
       (t.dmaCh k).waitFlag = none ∧
       onlyParts [.regs, .bus, .evr, .ccx, .buf, .dma, .sent, .freeN] s t) ∧
  (∀ (w : Word) (s : State),
     s.accepts R.DMA_FLAGS = true →
     ∃ t : State, exec (.flagClear w) s = .next t ∧
       t.reg R.DMA_FLAGS = s.reg R.DMA_FLAGS &&& ~~~w ∧
       t.dma = s.dma ∧
       onlyParts [.regs, .bus] s t) ∧
  (∀ (c : Fin 64) (gl : Nat) (l : List Byte) (s : State),
     (s.dmaCh c).line = some (gl, l) → (s.dmaCh c).past = false ∧ dmaInstrAt s c / 64 = gl →
     dmaLegal (unle ((l.drop (dmaInstrAt s c % 64)).take 16)) = true →
     ((dmaLoad c s).dmaCh c).instr = some (BitVec.ofNat 128 (unle ((l.drop (dmaInstrAt s c % 64)).take 16))) ∧
     onlyParts [.dma] s (dmaLoad c s) ∧
     dmaLoad c (s.onDma c (fun x => { x with line := none })) = s.onDma c (fun x => { x with line := none }))

/-- R482 to R501: every permitted, claimed BAT_OWN pin changes its level at a toggle; BAT_OWN_STAT.ACK follows the cells: a fall of a claimed
actuator's cell raises OWN_LOST, and the last cell of a claim acknowledged begins the failover; a link that comes up starts with 256 credits (two
spent on its HELLO) and new sequence numbers; on suspicion SUSPECT is set and, where a takeover is allowed, the partner's actuators are claimed;
a claim not acknowledged loses the link for good and discards mirrors and shadow; a failover whose mirrors are adopted and whose flush is done
ends. A received message whose CRC fails is counted and its entries returned as credit; a replay that the partner asks for counts, sends a
message from the named LSEQ again and spends credits for it, and does nothing where ACKSEQ has covered all. A heartbeat carries the offered SEQ
ceiling, raised when the counter comes within 2^23 of the acknowledged one. -/
def Obligations.OwnershipAndLinkFollowTheCells : Prop :=
  (∀ (s : State),
     ∃ t : State, exec .ownToggle s = .next t ∧
       t.get F.BAT_OWN_STAT_TOGGLING = (if mayToggle s ∧ imageRole s ≠ 0 then s.get F.BAT_OWN_CTL_CLAIM else 0) ∧
       t.bat.pins = s.bat.pins ^^^ BitVec.ofNat 4 (t.get F.BAT_OWN_STAT_TOGGLING) ∧
       regsKept [R.BAT_OWN_STAT] s t ∧
       onlyParts [.regs, .bat, .sent] s t) ∧
  (∀ (a : BitVec 4) (s : State),
     imageRole s = 0 ∨ s.mode = Mode.off →
     exec (.ownAckChange a) s = .next (s)) ∧
  (∀ (a : BitVec 4) (s : State),
     imageRole s ≠ 0 → s.mode ≠ Mode.off → ackBits s &&& ~~~a = 0 → s.bat.releasing = 0 → s.bat.claimed = 0 →
     ∃ u : State, exec (.ownAckChange a) s = .next ((pairSettle u)) ∧
       u.get F.BAT_OWN_STAT_ACK = a.toNat ∧
       u.bat.releasing = 0) ∧
  (∀ (a : BitVec 4) (s : State),
     imageRole s ≠ 0 → s.mode ≠ Mode.off → ackBits s &&& ~~~a = 0 → s.bat.releasing = 0 →
     s.bat.claimed ≠ 0 ∧ s.bat.claimed &&& ~~~a = 0 ∧ s.get F.BAT_STAT_FAILOVER = 0 →
     ∃ u : State, exec (.ownAckChange a) s = .next (failover u) ∧
       u.get F.BAT_OWN_STAT_ACK = a.toNat ∧
       u.bat.claimed = s.bat.claimed) ∧
  (∀ (a : BitVec 4) (s : State),
     imageRole s ≠ 0 → s.mode ≠ Mode.off → ackBits s &&& ~~~a &&& ~~~claimBits s = 0 → s.bat.releasing = 0 → s.bat.claimed = 0 →
     lanes.any (fun (n : Lane) => (ackBits s &&& ~~~a).getLsbD (actOf s n)) = true →
     ∃ u : State, exec (.ownAckChange a) s = .next (pairSettle u) ∧
       u.get F.BAT_OWN_STAT_ACK = a.toNat ∧
       u.on F.BAT_FLT_OWN_LOST = true) ∧
  (∀ (s : State),
     s.get F.BAT_STAT_FAILOVER ≠ 2 →
     exec .failoverDone s = .next (s)) ∧
  (∀ (s : State),
     s.get F.BAT_STAT_FAILOVER = 2 → s.bat.mirrors = [] → s.bat.adopted = true → s.bnd.flushDue = false → s.bnd.flush = none →
     ∃ u : State, exec .failoverDone s = .next ((pairSettle u)) ∧
       u.get F.BAT_STAT_FAILOVER = 3 ∧
       u.bat.claimed = 0) ∧
  (∀ (s : State),
     s.bat.linkLost = true →
     exec .batonLinkUp s = .next (s)) ∧
  (∀ (s : State),
     s.on F.BAT_CTL_ENABLE = true → imageRole s ≠ 0 → s.on F.GLB_UNIT_OK0_BAT = true → s.bat.linkLost = false → batonUp s = false →
     s.on F.GLB_MODE_COND_POWER_FAIL = false →
     ∃ t : State, exec .batonLinkUp s = .next t ∧
       batonUp t = true ∧
       t.get F.BAT_CRED_AVAIL = 254 ∧
       t.inFlight = [(0, helloMsg s)] ∧
       (t.bat.txNext, t.bat.rxNext, t.bat.waitTx) = (1, 0, [])) ∧
  (∀ (s : State),
     imageRole s ≠ 0 → s.mode ≠ Mode.off ∧ s.mode ≠ Mode.service → s.on F.BAT_STAT_SUSPECT = false → s.on F.GLB_MODE_COND_PARTNER_LOST = false →
     s.on F.BAT_CTL_AUTO_TAKE = true → s.bat.linkLost = false → s.mode ≠ Mode.partnerStandby ∨ s.bat.resynced = true → peerOwns s ≠ 0 →
     ∃ t : State, exec .partnerSuspect s = .next t ∧
       t.on F.BAT_STAT_SUSPECT = true ∧
       claimBits t = claimBits s ||| peerOwns s ∧
       t.bat.claimed = peerOwns s) ∧
  (∀ (s : State),
     imageRole s ≠ 0 → s.mode ≠ Mode.off ∧ s.mode ≠ Mode.service → s.on F.BAT_STAT_SUSPECT = false → s.on F.GLB_MODE_COND_PARTNER_LOST = false →
     s.on F.BAT_CTL_AUTO_TAKE = false ∨ s.bat.linkLost = true →
     ∃ t : State, exec .partnerSuspect s = .next t ∧
       t.on F.BAT_STAT_SUSPECT = true ∧
       claimBits t = claimBits s ∧
       t.bat = s.bat) ∧
  (∀ (s : State),
     s.bat.claimed = 0 ∨ s.get F.BAT_STAT_FAILOVER ≠ 0 →
     exec .claimTimeout s = .next (s)) ∧
  (∀ (s : State),
     s.bat.claimed ≠ 0 → s.get F.BAT_STAT_FAILOVER = 0 →
     ∃ u : State, exec .claimTimeout s = .next ((pairSettle (u.loseUnit0 29))) ∧
       batonUp u = false ∧
       u.bat.linkLost = true ∧
       u.bat.claimed = 0 ∧
       u.bat.mirrors = [] ∧
       u.bat.shadowLbt = [] ∧
       u.on F.BAT_FLT_LINK_LOST = true) ∧
  (∀ (l : Nat) (s : State),
     batonUp s = true →
     ∃ u : State, exec (.messageReplay (.crcFailed l)) s = .next (sendHeartbeat u) ∧
       u.get F.BAT_CNT_CRC_ERR = min (s.get F.BAT_CNT_CRC_ERR + 1) (2 ^ F.BAT_CNT_CRC_ERR.width - 1) ∧
       u.bat = { s.bat with freed := s.bat.freed + l + 1 } ∧
       onlyParts [.regs, .bat] s u) ∧
  (∀ (f : ReplayCause) (s : State),
     batonUp s = false →
     exec (.messageReplay f) s = .next (s)) ∧
  (∀ (l : BitVec 16) (s : State),
     batonUp s = true → s.bat.unacked.any (fun e => !lseqBefore e.1 l) = false →
     exec (.messageReplay (.named l)) s = .next (s)) ∧
  (∀ (l : BitVec 16) (e : BitVec 16 × BitVec 32 × BatMsg) (s : State),
     batonUp s = true → s.bat.unacked.filter (fun e => !lseqBefore e.1 l) = [e] → s.on F.GLB_MODE_COND_POWER_FAIL = false →
     msgLen e.2.2 + 1 ≤ s.get F.BAT_CRED_AVAIL →
     ∃ t : State, exec (.messageReplay (.named l)) s = .next t ∧
       t.on F.BAT_FLT_REPLAY = true ∧
       t.get F.BAT_CNT_REPLAYS = min (s.get F.BAT_CNT_REPLAYS + 1) (2 ^ F.BAT_CNT_REPLAYS.width - 1) ∧
       t.get F.BAT_CRED_AVAIL = s.get F.BAT_CRED_AVAIL - (msgLen e.2.2 + 1) ∧
       t.sent = s.sent ++ [.baton e.1 s.bat.rxNext 0 e.2.1 e.2.2 (msgBytes e.1 s.bat.rxNext 0 e.2.1 e.2.2)] ∧
       t.bat = s.bat ∧
       onlyParts [.regs, .evr, .ccx, .sent] s t) ∧
  (∀ (s : State),
     batonUp s = false ∨ mayToggle s = false →
     exec .heartbeatSend s = .next (s)) ∧
  (∀ (s : State),
     s.maySend 0 = true → mayToggle s = true →
     ∃ t : State, exec .heartbeatSend s = .next t ∧
       t.bat.offered = (if s.bat.ceiling < seqNext s + 2 ^ 23 ∧ s.bat.offered ≤ s.bat.ceiling then seqNext s + 2 ^ 24 else s.bat.offered) ∧
       t.inFlight = s.inFlight ++ [(0, heartbeatMsg t)] ∧
       t.get F.BAT_CRED_AVAIL = s.get F.BAT_CRED_AVAIL - 1 ∧
       t.bat.freed = 0 ∧
       regsKept [R.BAT_CRED] s t ∧
       onlyParts [.regs, .bat, .sent] s t)

/-- R484: a message whose LSEQ is not the next expected is discarded whatever it carries: it counts in BAT_CNT.CRC_ERR, and besides that only the
credits of its entries are to be returned (BAT_CRED.INFLIGHT). With the link down no message arrives (R497). A CMD that finds no slot free is not
accepted and changes nothing (the model's choice, log 30). -/
def Obligations.MessageOutOfOrderIsDiscarded : Prop :=
  (∀ (h : BatHdr) (a : Nat) (b : Nat) (c : Nat) (d : Nat) (v : Nat) (x : BitVec 128) (m : BitVec 4) (n : BitVec 4) (p : Bool) (q : Bool) (r : Bool)
        (bl : List (List Byte)) (st : NvStatus) (rq : WorkReq) (es : List JEntry) (kr : List Byte) (en : Option NsEntry) (mp : BitVec 256)
        (im : Option MapImage) (i : Instr) (s : State),
     i ∈ ([.hello h a b c d v x, .heartbeat h a m n p q r b c, .release h m, .data h a b bl, .done h st p a b, .extent h rq a, .outcome h a b,
           .mirror h a b c bl, .commit h a b c p, .mack h, .mfree h a b c, .mreq h a b, .jnl h a es, .jack h a, .keyrec h a kr, .nsrec h a en, .rack
           h, .lwlrec h a b c mp, .resync h a im] : List Instr) → batonUp s = true → h.lseq ≠ s.bat.rxNext →
     ∃ t : State, exec i s = .next t ∧
       t.get F.BAT_CNT_CRC_ERR = min (s.get F.BAT_CNT_CRC_ERR + 1) (2 ^ F.BAT_CNT_CRC_ERR.width - 1) ∧
       s.bat.freed < t.bat.freed ∧ t.bat = { s.bat with freed := t.bat.freed } ∧
       t.get F.BAT_CRED_INFLIGHT = 1 ∧
       regsKept [R.BAT_CNT, R.BAT_CRED] s t ∧
       onlyParts [.regs, .bat] s t) ∧
  (∀ (h : BatHdr) (a : Nat) (b : Nat) (c : Nat) (d : Nat) (v : Nat) (x : BitVec 128) (m : BitVec 4) (n : BitVec 4) (p : Bool) (q : Bool) (r : Bool)
        (bl : List (List Byte)) (st : NvStatus) (rq : WorkReq) (es : List JEntry) (kr : List Byte) (en : Option NsEntry) (mp : BitVec 256)
        (im : Option MapImage) (i : Instr) (s : State),
     i ∈ ([.hello h a b c d v x, .heartbeat h a m n p q r b c, .release h m, .data h a b bl, .done h st p a b, .extent h rq a, .outcome h a b,
           .mirror h a b c bl, .commit h a b c p, .mack h, .mfree h a b c, .mreq h a b, .jnl h a es, .jack h a, .keyrec h a kr, .nsrec h a en, .rack
           h, .lwlrec h a b c mp, .resync h a im] : List Instr) → batonUp s = false →
     exec i s = .next s) ∧
  (∀ (h : BatHdr) (f ns cl : Nat) (e : Sqe) (s : State),
     s.qe.slots.length < 16384 ∧ s.qe.stuck = none → batonUp s = true → h.lseq ≠ s.bat.rxNext →
     ∃ t : State, exec (.cmd h f ns cl e) s = .next t ∧
       t.get F.BAT_CNT_CRC_ERR = min (s.get F.BAT_CNT_CRC_ERR + 1) (2 ^ F.BAT_CNT_CRC_ERR.width - 1) ∧
       s.bat.freed < t.bat.freed ∧ t.bat = { s.bat with freed := t.bat.freed } ∧
       t.get F.BAT_CRED_INFLIGHT = 1 ∧
       regsKept [R.BAT_CNT, R.BAT_CRED] s t ∧
       onlyParts [.regs, .bat] s t) ∧
  (∀ (h : BatHdr) (f ns cl : Nat) (e : Sqe) (s : State),
     16384 ≤ s.qe.slots.length ∨ s.qe.stuck.isSome = true ∨ batonUp s = false →
     exec (.cmd h f ns cl e) s = .next s)

/-- R486, R491 to R501, for the next message expected: HELLO of the same pair set, the opposite role and a tested combination sets PEER_OK, one of an
untested combination MISMATCH with its flag and condition; HEARTBEAT takes over the partner's mode, ownership, lost lanes and SEQ ceilings and
ends a suspicion, and with an owned actuator it ends PARTNER_LOST; RELEASE claims the released actuators; RESYNC 1 and 3 make the owner start an
image and mirror every dirty block, 2 and 4 make the returning chip take the image and count as resynchronised; KEYREC puts its record in both
copies with the key it unwraps to, or removes them where it is zero, NSREC enters or removes the namespace, LWLREC replaces its entry, and each
is answered with RACK; RACK and JACK release what waited; JNL enters its change among the unflushed ones and is answered with JACK (where a
single entry is shown). -/
def Obligations.MessagesOfTheLinkAct : Prop :=
  (∀ (h : BatHdr) (set : Nat) (role : Nat) (stepping : Nat) (image : Nat) (fw : Nat) (r : Nat) (lo : Nat) (hi : Nat) (man : BitVec 128) (s : State),
     s.expects h = true → pairSec s = some (r, set, lo, hi) → (r = 1 ∧ role = 2) ∨ (r = 2 ∧ role = 1) → testedPeer s stepping image fw = true →
     ∃ u : State, exec (.hello h set role stepping image fw man) s = .next ((pairSettle u).replied) ∧
       u.on F.BAT_STAT_PEER_OK = true ∧
       u.on F.BAT_STAT_MISMATCH = false ∧
       u.on F.GLB_MODE_COND_PAIR_MISMATCH = false) ∧
  (∀ (h : BatHdr) (set : Nat) (role : Nat) (stepping : Nat) (image : Nat) (fw : Nat) (man : BitVec 128) (s : State),
     s.expects h = true → testedPeer s stepping image fw = false →
     ∃ u : State, exec (.hello h set role stepping image fw man) s = .next ((pairSettle u).replied) ∧
       u.on F.BAT_STAT_PEER_OK = false ∧
       u.on F.BAT_STAT_MISMATCH = true ∧
       u.on F.GLB_MODE_COND_PAIR_MISMATCH = true ∧
       u.on F.BAT_FLT_MISMATCH = true ∧
       u.get F.BAT_PEER_SET_PAIR_SET = set % 2 ^ F.BAT_PEER_SET_PAIR_SET.width) ∧
  (∀ (h : BatHdr) (mode : Nat) (owned : BitVec 4) (lost : BitVec 4) (ke : Bool) (pcache : Bool) (resynced : Bool) (offer : Nat) (ack : Nat)
        (s : State),
     s.expects h = true →
     ∃ u : State, exec (.heartbeat h mode owned lost ke pcache resynced offer ack) s = .next ((pairSettle u)) ∧
       u.get F.BAT_STAT_PEER_MODE = mode % 2 ^ F.BAT_STAT_PEER_MODE.width ∧
       u.get F.BAT_OWN_STAT_PEER_OWNS = owned.toNat ∧
       (s.on F.GLB_MODE_COND_PARTNER_LOST = true → owned ≠ 0 → s.on F.BAT_STAT_PEER_OK = true → u.on F.GLB_MODE_COND_PARTNER_LOST = false) ∧
       (u.pair R.BAT_SEQ_CEIL_LO R.BAT_SEQ_CEIL_HI) = BitVec.ofNat 64 (offer % 2 ^ 48) ∧
       (u.bat.peerLost, u.bat.peerKe, u.bat.ceiling) = (lost, ke, ack) ∧
       u.on F.BAT_STAT_SUSPECT = false) ∧
  (∀ (h : BatHdr) (a : BitVec 4) (s : State),
     s.expects h = true →
     ∃ u : State, exec (.release h a) s = .next ((pairSettle u).replied) ∧
       claimBits u = claimBits s ||| a ∧
       u.bat.releasing = s.bat.releasing ||| a) ∧
  (∀ (h : BatHdr) (image : Option MapImage) (s : State),
     s.expects h = true → s.mode ≠ Mode.partnerStandby →
     ∃ u : State, exec (.resync h 1 image) s = .next (u.settle).replied ∧
       u.bat.phase = 1 ∧
       (u.bnd.image.isSome = true ∨ u.bnd.imageDue = true)) ∧
  (∀ (h : BatHdr) (image : Option MapImage) (s : State),
     s.expects h = true → s.mode = Mode.partnerStandby →
     ∃ u : State, exec (.resync h 4 image) s = .next (u.settle).replied ∧
       u.bat.phase = 4 ∧
       u.bat.resynced = true) ∧
  (∀ (h : BatHdr) (m : MapImage) (s : State),
     s.expects h = true → s.mode = Mode.partnerStandby → s.bat.unflushed = [] →
     ∃ u : State, exec (.resync h 2 (some m)) s = .next (u.settle).replied ∧
       u.bat.phase = 3 ∧
       (u.bat.shadowLbt, u.bat.shadowPbt, u.bat.shadowMci) = (m.lbt, m.pbt, m.mci) ∧
       u.buf.lwl = []) ∧
  (∀ (h : BatHdr) (image : Option MapImage) (s : State),
     s.expects h = true → s.mode ≠ Mode.partnerStandby →
     ∃ u : State, exec (.resync h 3 image) s = .next (u.settle).replied ∧
       u.bat.phase = 3 ∧
       u.buf.cache.all (fun e => !e.2.dirty || e.2.mirrored) = true) ∧
  (∀ (h : BatHdr) (ns : Nat) (l : List Byte) (s : State),
     s.expects h = true → s.maySend 0 = true → l ≠ zeros 96 → (match goodCopy s l with | some r => r.erasePending | none => false) = false →
     ∃ u : State, exec (.keyrec h ns l) s = .next (u.settle).replied ∧
       smGet ns u.key.recs = some (l, l) ∧
       smGet ns u.key.keys = (match goodCopy s l with | some r => some r.key | none => none) ∧
       (goodCopy s l = none → u.on F.KEY_FLT_UNWRAP = true) ∧
       u.inFlight.getLast? = some (h.tag, .rack)) ∧
  (∀ (h : BatHdr) (ns : Nat) (s : State),
     s.expects h = true → s.maySend 0 = true →
     ∃ u : State, exec (.keyrec h ns (zeros 96)) s = .next (u.settle).replied ∧
       smGet ns u.key.recs = none ∧
       smGet ns u.key.keys = none ∧
       u.inFlight.getLast? = some (h.tag, .rack)) ∧
  (∀ (h : BatHdr) (ns : Nat) (e : NsEntry) (s : State),
     s.expects h = true → s.maySend 0 = true →
     ∃ u : State, exec (.nsrec h ns (some e)) s = .next (u.settle).replied ∧
       smGet ns u.bnd.ns = some e ∧
       smGet ns u.bnd.attach = some (e.pi_, e.attached, e.permits) ∧
       u.inFlight.getLast? = some (h.tag, .rack)) ∧
  (∀ (h : BatHdr) (ns : Nat) (s : State),
     s.expects h = true →
     ∃ u : State, exec (.nsrec h ns none) s = .next (u.settle).replied ∧
       smGet ns u.bnd.ns = none) ∧
  (∀ (h : BatHdr) (base : Nat) (ns : Nat) (fn : Nat) (map : BitVec 256) (s : State),
     s.expects h = true → s.maySend 0 = true →
     ∃ t : State, exec (.lwlrec h base ns fn map) s = .next t ∧
       t.buf.lwl = s.buf.lwl.filter (fun x => !(x.base == base && x.ns == ns)) ++ (if map = 0 then [] else [⟨base, ns, fn, map, true⟩]) ∧
       t.get F.BUF_LWL_STAT_ENTRIES = t.buf.lwl.length % 2 ^ F.BUF_LWL_STAT_ENTRIES.width ∧
       t.inFlight.getLast? = some (h.tag, .rack)) ∧
  (∀ (h : BatHdr) (s : State),
     s.expects h = true →
     ∃ t : State, exec (.rack h) s = .next t ∧
       t.bnd = s.bnd ∧
       t.qe = s.qe ∧
       t.bat.racks = s.bat.racks.filter (fun f => f.tag != h.tag.toNat)) ∧
  (∀ (h : BatHdr) (pos : Nat) (s : State),
     s.expects h = true →
     ∃ t : State, exec (.jack h pos) s = .next t ∧
       t.bat.jnlAcked = max s.bat.jnlAcked (pos + 1) ∧
       t.bnd = s.bnd ∧
       t.qe = s.qe ∧
       t.bat.jacks = s.bat.jacks.filter (fun f => decide (pos < f.tag))) ∧
  (∀ (h : BatHdr) (pos : Nat) (e : JEntry) (s : State),
     s.expects h = true → s.maySend 0 = true →
     ∃ t : State, exec (.jnl h pos [e]) s = .next t ∧
       t.bat.unflushed = keepUnflushed s.bat.unflushed e ∧
       t.inFlight.getLast? = some (h.tag, .jack pos) ∧
       t.bnd = s.bnd)

/-- R318, R319, R488, R490, R494, for the next message expected: a CMD takes the lowest free slot here, is remembered by its TAG and has its FON
(Dataset Management and Copy take theirs with their ranges), ends with the status by which its namespace refuses it, and changes nothing while no
slot is free; DATA adds its blocks to the command's data; DONE ends the forwarded command with its status; an EXTENT of an owned actuator enters
the pool under the account of forwarded work, one of another is answered LANE_LOST; an OUTCOME ends its extent and one of no extent changes no
work; MIRROR keeps blocks, not committed, until COMMIT, and with TAG 0xFFFFFFFF brings a block that was asked for; MFREE drops committed ones,
MACK lets the write complete, and MREQ is answered with the newest clean copy, the home's own dirty block, or with none. -/
def Obligations.ForwardedWorkAndMirrorsAct : Prop :=
  (∀ (h : BatHdr) (fn : Nat) (ns : Nat) (cls : Nat) (e : Sqe) (s : State),
     16384 ≤ s.qe.slots.length ∨ s.qe.stuck.isSome = true →
     exec (.cmd h fn ns cls e) s = .next (s)) ∧
  (∀ (h : BatHdr) (fn : Nat) (ns : Nat) (cls : Nat) (e : Sqe) (s : State),
     s.expects h = true → s.qe.slots.length < 16384 → s.qe.stuck = none → guestFault s ns e = none → e.op ≠ .copy → (∀ k, e.op ≠ .dsm k) →
     ∃ u : State, exec (.cmd h fn ns cls e) s = .next (u.settle).replied ∧
       u.bat.guests = s.bat.guests ++ [⟨h.tag.toNat, freeSlotNo s⟩] ∧
       (u.slot (freeSlotNo s)).map (fun x => (x.fn, x.sq, x.cmd, x.fon.isSome)) = some (256 + fn % 128, (if cls = 1 then 1 else 2), e, true)) ∧
  (∀ (h : BatHdr) (fn : Nat) (ns : Nat) (cls : Nat) (e : Sqe) (s : State),
     s.expects h = true → s.qe.slots.length < 16384 → s.qe.stuck = none → guestFault s ns e = none →
     ∃ u : State, exec (.cmd h fn ns cls e) s = .next (u.settle).replied ∧
       u.bat.guests = s.bat.guests ++ [⟨h.tag.toNat, freeSlotNo s⟩] ∧
       (u.slot (freeSlotNo s)).map (fun x => (x.fn, x.sq, x.cmd)) = some (256 + fn % 128, (if cls = 1 then 1 else 2), e)) ∧
  (∀ (h : BatHdr) (fn : Nat) (ns : Nat) (cls : Nat) (e : Sqe) (st : NvStatus) (s : State),
     s.expects h = true → s.qe.slots.length < 16384 → s.qe.stuck = none → guestFault s ns e = some st →
     ∃ u : State, exec (.cmd h fn ns cls e) s = .next (u.settle).replied ∧
       u.resultOf (freeSlotNo s) = some (failResult st)) ∧
  (∀ (h : BatHdr) (first : Nat) (n : Nat) (b : List (List Byte)) (g : Forward) (x : Slot) (s : State),
     s.expects h = true → s.bat.guests.find? (fun f => f.tag == h.tag.toNat) = some g → s.slot g.slot = some x →
     ∃ t : State, exec (.data h first n b) s = .next t ∧
       (t.slot g.slot).map (fun y => y.data) = some (x.data ++ b)) ∧
  (∀ (h : BatHdr) (st : NvStatus) (dnr : Bool) (d0 : Nat) (d1 : Nat) (f : Forward) (x : Slot) (s : State),
     s.expects h = true → s.bat.forwards.find? (fun f => f.tag == h.tag.toNat) = some f → s.slot f.slot = some x → x.result = none →
     x.dropped = false → x.fon = none →
     ∃ u : State, exec (.done h st dnr d0 d1) s = .next (u.settle).replied ∧
       u.bat.forwards = s.bat.forwards.filter (fun x => x.tag != h.tag.toNat) ∧
       (u.resultOf f.slot).map (fun r => (r.status, r.dnr, r.dw0, r.dw1)) = some (st, dnr, d0, d1)) ∧
  (∀ (h : BatHdr) (r : WorkReq) (age : Nat) (a : Lane) (s : State),
     s.expects h = true → r.act = a.val → ownLane s a = true →
     ∃ u : State, exec (.extent h r age) s = .next (u.settle).replied ∧
       u.rly.pool.map (fun i => i.req) = s.rly.pool.map (fun i => i.req) ++
         [{ r with for_ := .forwarded h.tag.toNat, fn := forwardedAcct, shares := [] }] ∧
       u.get F.RLY_CNT1_FWD_IN = min (s.get F.RLY_CNT1_FWD_IN + 1) (2 ^ F.RLY_CNT1_FWD_IN.width - 1)) ∧
  (∀ (h : BatHdr) (r : WorkReq) (age : Nat) (s : State),
     s.expects h = true → s.maySend 0 = true → (∀ a : Lane, r.act = a.val → ownLane s a = false) →
     ∃ t : State, exec (.extent h r age) s = .next t ∧
       t.rly = s.rly ∧
       t.inFlight.getLast? = some (h.tag, .outcome Outcome.laneLost 0)) ∧
  (∀ (h : BatHdr) (en : Nat) (ch : Nat) (s : State),
     s.expects h = true → s.bat.extents.find? (fun e => e.1 == h.tag.toNat) = none →
     ∃ t : State, exec (.outcome h en ch) s = .next t ∧
       t.rly = s.rly ∧
       t.bat.extents = s.bat.extents) ∧
  (∀ (h : BatHdr) (en : Nat) (ch : Nat) (i : Item) (s : State),
     s.expects h = true → s.bat.extents.find? (fun e => e.1 == h.tag.toNat) = some (h.tag.toNat, i) →
     ∃ u : State, exec (.outcome h en ch) s = .next (u.settle).replied ∧
       u.bat.extents = s.bat.extents.filter (fun e => e.1 != h.tag.toNat)) ∧
  (∀ (h : BatHdr) (ns : Nat) (first : Nat) (d : List Byte) (s : State),
     s.expects h = true → h.tag ≠ 0xFFFFFFFF → s.bat.mirrors.all (fun m => m.tag != h.tag.toNat) = true →
     ∃ t : State, exec (.mirror h ns first 1 [d]) s = .next t ∧
       t.bat.mirrors.map (fun m => (m.tag, m.ns, m.committed)) = s.bat.mirrors.map (fun m => (m.tag, m.ns, m.committed)) ++
         [(h.tag.toNat, ns, false)] ∧
       t.bat.mirrors.map (fun m => m.blocks.map (fun b => b.1)) = s.bat.mirrors.map (fun m => m.blocks.map (fun b => b.1)) ++ [[first]] ∧
       t.bat.mirrors.map (fun m => m.blocks.map (fun b => b.2.2)) = s.bat.mirrors.map (fun m => m.blocks.map (fun b => b.2.2)) ++ [[d]]) ∧
  (∀ (h : BatHdr) (ns : Nat) (lba : Nat) (d : List (List Byte)) (s : State),
     s.expects h = true → h.tag = 0xFFFFFFFF → s.bat.asked.contains lba = false →
     ∃ u : State, exec (.mirror h ns lba 1 d) s = .next (u.settle).replied ∧
       u.buf = s.buf ∧
       u.bat.mirrors = s.bat.mirrors) ∧
  (∀ (h : BatHdr) (ns : Nat) (lba : Nat) (c : CBlock) (d : List Byte) (s : State),
     s.expects h = true → h.tag = 0xFFFFFFFF → s.bat.asked.contains lba = true → cacheGet s lba = some c →
     ∃ u : State, exec (.mirror h ns lba 1 [d]) s = .next (u.settle).replied ∧
       (cacheGet u lba).map (fun x => x.data) = some d ∧
       u.bat.asked = s.bat.asked.erase lba ∧
       u.on F.BUF_FLT_MIRROR_RECOVERED = true) ∧
  (∀ (h : BatHdr) (ns : Nat) (first : Nat) (n : Nat) (s : State),
     s.expects h = true →
     ∃ t : State, exec (.commit h ns first n false) s = .next t ∧
       t.bat.mirrors.all (fun m => m.tag != h.tag.toNat || m.committed) = true ∧
       t.bat.mirrors.all (fun m => s.bat.mirrors.any (fun x => x.tag == m.tag)) = true) ∧
  (∀ (h : BatHdr) (ns : Nat) (first : Nat) (n : Nat) (s : State),
     s.expects h = true →
     ∃ t : State, exec (.mfree h ns first n) s = .next t ∧
       t.bat.mirrors.all (fun m => !m.committed || m.blocks.all (fun b => decide (b.1 < first) || decide (first + n ≤ b.1))) = true) ∧
  (∀ (h : BatHdr) (s : State),
     s.expects h = true →
     ∃ u : State, exec (.mack h) s = .next (u.settle).replied ∧
       u.bat.macks = s.bat.macks.filter (fun f => f.tag != h.tag.toNat)) ∧
  (∀ (h : BatHdr) (f : Forward) (x : Slot) (s : State),
     s.expects h = true → s.bat.macks = [f] → f.tag = h.tag.toNat → s.slot f.slot = some x → x.mirror = true → x.result = none → x.dropped = false →
     ∃ u : State, exec (.mack h) s = .next (u.settle).replied ∧
       (u.slot f.slot).map (fun y => (y.mirror, y.result)) = some (false, some (writeResult s x))) ∧
  (∀ (h : BatHdr) (ns : Nat) (lba : Nat) (d : List Byte) (s : State),
     s.expects h = true → mirrorCopy s lba = some d → s.maySend (msgLen (.mirror ns lba 1 [d])) = true →
     ∃ t : State, exec (.mreq h ns lba) s = .next t ∧
       t.inFlight.getLast? = some (0xFFFFFFFF, .mirror ns lba 1 [d])) ∧
  (∀ (h : BatHdr) (ns : Nat) (lba : Nat) (s : State),
     s.expects h = true → mirrorCopy s lba = none → (cacheGet s lba).filter (fun c => c.dirty) = none → s.maySend 0 = true →
     ∃ t : State, exec (.mreq h ns lba) s = .next t ∧
       t.inFlight.getLast? = some (0xFFFFFFFF, .mirror ns lba 0 [])) ∧
  (∀ (h : BatHdr) (ns : Nat) (lba : Nat) (c : CBlock) (s : State),
     s.expects h = true → mirrorCopy s lba = none → (cacheGet s lba).filter (fun c => c.dirty) = some c →
     s.maySend (msgLen (.mirror ns lba 1 [c.data])) = true →
     ∃ t : State, exec (.mreq h ns lba) s = .next t ∧
       t.inFlight.getLast? = some (0xFFFFFFFF, .mirror ns lba 1 [c.data]) ∧
       t.buf = s.buf)

/-- R505 to R518: an idle tick applies the deepest state that timers and lookahead allow (limited in a pair by R514), and none while the chip works,
is woken or idling is disabled; EXLAT before the earliest known event HOST_OP is applied; a rotation serves with the lanes that R506 chooses; a
window end clears the window's counts, and while the spindle is at speed and the state is 2 or less asks for the highest declared cadence where
both chips of a pair serve, for the fixed cadence under the ceiling with automatic cadence off, and for the ceiling where the cadence lies above
it; a temperature sample shows TJ and its maximum and takes the reactions of R517; a low rail sets RAIL_LOW and POWER_FAIL, a reset held for
configuration ends, and with POWER_FAIL standing only the flag is set. -/
def Obligations.PowerRowsApplyStatesAndLimits : Prop :=
  (∀ (v : State) (s : State),
     v = wakeEnds (showNextEvent s) →
     v.pwr.idleAt = none ∨ v.on F.PWR_CTL_IDLE_EN = false ∨ v.pwr.wakeFor.isSome = true ∨ powerMode v.mode = false ∨ working v = true →
     exec .idleTick s = .next (v.settle)) ∧
  (∀ (v : State) (s : State) (since : Nat),
     v = wakeEnds (showNextEvent s) → v.pwr.idleAt = some since → ([6, 5, 4, 3] : List Nat).find? (idleAdmits v since) = none →
     exec .idleTick s = .next (v.settle)) ∧
  (∀ (v : State) (s : State) (since : Nat) (k : Nat),
     v = wakeEnds (showNextEvent s) → v.pwr.idleAt = some since → v.on F.PWR_CTL_IDLE_EN = true → v.pwr.wakeFor = none → powerMode v.mode = true →
     working v = false → ([6, 5, 4, 3] : List Nat).find? (idleAdmits v since) = some k →
     ∃ u : State, exec .idleTick s = .next u.settle ∧
       u.ps = pairLimit v k) ∧
  (∀ (s : State),
     s.on F.PWR_CTL_LOOK_EN = false ∨ s.ps < 3 ∨ s.pwr.wakeFor.isSome = true ∨ powerMode s.mode = false →
     exec .preWake s = .next (showNextEvent s)) ∧
  (∀ (src : Nat) (at_ : Nat) (s : State),
     s.on F.PWR_CTL_LOOK_EN = true → 3 ≤ s.ps → s.pwr.wakeFor = none → powerMode s.mode = true →
     bestBy (fun (x y : Nat × Nat) => decide (x.2 < y.2)) ((knownEvents s).filter (fun e => decide (s.now.toNat < e.2))) = some (src, at_) →
     at_ ≤ s.now.toNat + exLat s s.ps * 100000 →
     ∃ u : State, exec .preWake s = .next u.settle ∧
       u.pwr.wakeFor = some at_ ∧
       u.ps = pairLimit s (hostOp s)) ∧
  (∀ (s : State),
     laneLimit s < (servableLanes s).length →
     ∃ t : State, exec .laneRotation s = .next t ∧
       (∀ n : Lane, t.get ((F.PWR_STAT_IN_SVC).bit n) = b2n ((chooseLanes s (laneLimit s) (servableLanes s)).contains n))) ∧
  (∀ (s : State),
     (servableLanes s).length ≤ laneLimit s →
     ∃ t : State, exec .laneRotation s = .next t ∧
       t.get F.PWR_STAT_LANE_LIMIT = laneLimit s % 2 ^ F.PWR_STAT_LANE_LIMIT.width ∧
       t.get F.PWR_STAT_CAD_CEIL = cadenceCeiling s (capState s) % 2 ^ F.PWR_STAT_CAD_CEIL.width) ∧
  (∀ (s : State),
     2 < s.ps ∨ spinState s ≠ Sp.atSpeed →
     exec .cadenceWindow s = .next ((s.onPwr (fun p => { p with svcW := Vector.replicate 4 0, busyW := Vector.replicate 4 0 })).settle)) ∧
  (∀ (s : State),
     s.ps ≤ 2 → spinState s = Sp.atSpeed → bothServe s = true →
     exec .cadenceWindow s = .next ((wantCadence ((declaredCadences s).getLast?.getD 0)
           (s.onPwr (fun p => { p with svcW := Vector.replicate 4 0, busyW := Vector.replicate 4 0 }))).settle)) ∧
  (∀ (v : State) (s : State),
     s.ps ≤ 2 → spinState s = Sp.atSpeed → bothServe s = false → s.on F.PWR_CTL_CAD_AUTO = false →
     cadenceDeclared s (s.get F.PWR_CTL_FIXED_CAD) = true →
     v = s.onPwr (fun p => { p with svcW := Vector.replicate 4 0, busyW := Vector.replicate 4 0 }) →
     exec .cadenceWindow s = .next ((wantCadence (min (s.get F.PWR_CTL_FIXED_CAD) (cadenceCeiling s s.ps)) v).settle)) ∧
  (∀ (s : State),
     s.ps ≤ 2 → spinState s = Sp.atSpeed → bothServe s = false → s.on F.PWR_CTL_CAD_AUTO = true → cadenceCeiling s s.ps < cadence s →
     ∃ u : State, exec .cadenceWindow s = .next (pwrCadence (cadenceCeiling s s.ps) u).settle ∧
       u.pwr.downs = 0 ∧
       onlyParts [.pwr] s u) ∧
  (∀ (tj : BitVec 8) (s : State),
     ∃ u : State, exec (.temperatureSample tj) s = .next u.settle ∧
       u.get F.PWR_TEMP_TJ = tj.toNat ∧
       u.get F.PWR_TEMP_TJ_MAX = (if signed 8 (s.get F.PWR_TEMP_TJ_MAX) < tj.toInt then tj.toNat else s.get F.PWR_TEMP_TJ_MAX) ∧
       ((s.get F.PWR_TEMP_CFG_WARN : Int) ≤ tj.toInt → u.on F.PWR_FLT_WARN = true ∧ u.pwr.warm = true) ∧
       (tj.toInt ≤ (s.get F.PWR_TEMP_CFG_WARN : Int) - 5 → u.pwr.warm = false) ∧
       ((s.get F.PWR_TEMP_CFG_CRIT : Int) ≤ tj.toInt → u.on F.PWR_FLT_CRIT = true ∧ u.get F.PWR_STAT_THERM = 2) ∧
       (s.on F.MOT_STAT_OVERTEMP = true → u.on F.PWR_FLT_OVERTEMP = true ∧ u.get F.PWR_STAT_THERM = 2) ∧
       ((s.get F.PWR_TEMP_CFG_TRIP : Int) ≤ tj.toInt → u.on F.PWR_FLT_TRIP = true ∧ u.on F.GLB_MODE_COND_SERVICE_HOLD = true)) ∧
  (∀ (s : State),
     s.on F.GLB_MODE_COND_POWER_FAIL = true →
     exec .railLow s = .next (s.flag F.PWR_FLT_RAIL_LOW)) ∧
  (∀ (s : State),
     s.on F.GLB_MODE_COND_POWER_FAIL = false →
     ∃ u : State, exec .railLow s = .next u.settle ∧
       u.on F.GLB_MODE_COND_POWER_FAIL = true ∧
       u.on F.PWR_FLT_RAIL_LOW = true ∧
       u.glb.cfgReset = .none ∧
       u.bnd.noteOk = true)

/-- R537, R540: a key table that does not pass the ROM's check ends the chain with code 1; with every check of steps 1 to 4 passed (key table,
trust-core firmware, manifest, SVN, digest, combination) the chain reaches step 5, shows SVN, the manifest's digest and the core firmware's
version, and hands the structure image over; while the image loads it waits; once it is loaded and the firmware's pages are initialised, the
firmware, whose digest must agree, is copied to its pages, the key-encryption key of the drive secret is passed on, the boot number advances with
a record that reads back, and the present harts are released at the firmware's page; after that, or after a failure, nothing more happens. R547:
REG_READ and REG_WRITE, from SERVICE on, access one whole register and answer STATE while a configuration reset is held and ADDRESS where no
register lies; a write before the image is loaded sets EARLY_WR. -/
def Obligations.TrustBootReleasesTheHarts : Prop :=
  (∀ (a b : Bool) (s : State),
     s.get F.TRC_BOOT_STAT_PHASE = 7 ∨ s.get F.TRC_BOOT_STAT_PHASE = 15 →
     exec (.trustBoot a b) s = .next (s)) ∧
  (∀ (a b : Bool) (s : State),
     s.get F.TRC_BOOT_STAT_PHASE < 5 → installedGood s = false →
     ∃ u : State, exec (.trustBoot a b) s = .next (u.cond F.GLB_MODE_COND_IMAGE_FAIL).settle ∧
       u.get F.TRC_BOOT_STAT_PHASE = 15 ∧
       u.get F.TRC_BOOT_STAT_FAIL_CODE = 1 ∧
       u.trc = { s.trc with derived := true, fuseLocked := true } ∧
       onlyParts [.regs, .trc] s u) ∧
  (∀ (a b : Bool) (m : Manifest) (s : State),
     s.get F.TRC_BOOT_STAT_PHASE < 5 → installedGood s = true → (bootState s).trial = false ∧ (bootState s).armed = none →
     bankManifest s (bootState s).active = some m → firmwareSigned s (tcfBytes s m) = true → manifestFormed m = true ∧ manifestSigned s m = true →
     (bootState s).minSvn.toNat ≤ m.svn.toNat → (component m (bootRole s m) 1 0).map (fun c => c.digest) = some (sha384 (tcfBytes s m)) →
     chipMatches m (bootRole s m) = true → s.on F.CFG_LOAD_STAT_FAIL = false → s.on F.CFG_LOAD_STAT_DONE = false →
     ∃ t : State, exec (.trustBoot a b) s = .next t ∧
       t.get F.TRC_BOOT_STAT_PHASE = 5 ∧
       t.cfg.handed = imageOffset s m ∧
       (t.get F.TRC_SVN_SVN, t.get F.TRC_SVN_MIN_SVN) = (m.svn.toNat, (bootState s).minSvn.toNat) ∧
       t.reg R.TRC_MAN_DIG = BitVec.ofNat 32 (unle ((digestBytes m.digest).take 4)) ∧
       t.reg R.TRC_CFW_VER = componentVersion m (bootRole s m) 2 0 ∧
       t.get F.TRC_UPD_STAT_STATE = (if (bootState s).staged then 2 else 0) ∧
       t.trc.hartsHeld = s.trc.hartsHeld ∧
       (t.trc.derived, t.trc.fuseLocked) = (true, true) ∧
       onlyParts [.regs, .cfg, .trc] s t) ∧
  (∀ (a b : Bool) (s : State),
     s.get F.TRC_BOOT_STAT_PHASE = 5 ∨ s.get F.TRC_BOOT_STAT_PHASE = 6 → s.on F.CFG_LOAD_STAT_FAIL = false → s.on F.CFG_LOAD_STAT_DONE = false →
     exec (.trustBoot a b) s = .next (s)) ∧
  (∀ (a b : Bool) (m : Manifest) (f : Component) (s : State),
     s.get F.TRC_BOOT_STAT_PHASE = 5 ∨ s.get F.TRC_BOOT_STAT_PHASE = 6 → bankManifest s (bootState s).active = some m →
     s.on F.CFG_LOAD_STAT_FAIL = false → s.on F.CFG_LOAD_STAT_DONE = true → component m (bootRole s m) 2 0 = some f → cfwReady s f = true →
     sha384 (componentBytes s (bootState s).active f) = f.digest → a = true ∨ b = true → s.on F.TRC_BOOT_STAT_REC_FAIL = false →
     s.trc.driveSecret.isSome = true ∨ roleBit s ≠ 0 →
     ∃ t : State, exec (.trustBoot a b) s = .next t ∧
       t.get F.TRC_BOOT_STAT_PHASE = 7 ∧
       t.reg R.CCX_RESET_PAGE = f.param ∧
       t.get F.CCX_HART_STAT_RELEASED = s.get F.GLB_UNIT_OK0_CCX ∧
       t.trc.hartsHeld = false ∧
       t.key.kek = s.trc.driveSecret.map (fun d => kekOf d.2) ∧
       t.reg R.TRC_BOOT_NUM = (bootState s).bootNum + 1 ∧
       (∀ i : Nat, i < f.length.toNat → memByte t (65536 * f.param.toNat + i) = (componentBytes s (bootState s).active f).getD i 0)) ∧
  (∀ (tag : BitVec 16) (a : BitVec 32) (s : State),
     1 ≤ s.session → resetIsHeld s = true →
     exec (.regRead tag a) s = .next (s.reply 0x10 tag Status.state)) ∧
  (∀ (tag : BitVec 16) (a : BitVec 32) (s : State),
     1 ≤ s.session → resetIsHeld s = false → accessOk 4 a.toNat = false →
     exec (.regRead tag a) s = .next ((s.answer .addressError).reply 0x10 tag Status.address)) ∧
  (∀ (tag : BitVec 16) (a : BitVec 32) (s : State),
     1 ≤ s.session → resetIsHeld s = false → accessOk 4 a.toNat = true → laneBusy s a.toNat = false →
     exec (.regRead tag a) s = .next (((registerReadNow a.toNat 0 s).2.answer (.value (registerReadNow a.toNat 0 s).1)).reply 0x10 tag Status.ok
         (le 4 (registerReadNow a.toNat 0 s).1.toNat))) ∧
  (∀ (tag : BitVec 16) (a : BitVec 32) (w : Word) (s : State),
     1 ≤ s.session → resetIsHeld s = true →
     exec (.regWrite tag a w) s = .next (s.reply 0x11 tag Status.state)) ∧
  (∀ (tag : BitVec 16) (a : BitVec 32) (w : Word) (s : State),
     1 ≤ s.session → resetIsHeld s = false → accessOk 4 a.toNat = false →
     exec (.regWrite tag a w) s = .next ((s.answer .addressError).reply 0x11 tag Status.address)) ∧
  (∀ (tag : BitVec 16) (a : BitVec 32) (w : Word) (s : State),
     1 ≤ s.session → resetIsHeld s = false → accessOk 4 a.toNat = true → earlyWrite s a.toNat = false → laneBusy s a.toNat = false →
     exec (.regWrite tag a w) s = .next (((registerWriteNow .service a.toNat w noEdit s).answer .done).reply 0x11 tag Status.ok)) ∧
  (∀ (tag : BitVec 16) (a : BitVec 32) (w : Word) (s : State),
     1 ≤ s.session → resetIsHeld s = false → accessOk 4 a.toNat = true → earlyWrite s a.toNat = true →
     exec (.regWrite tag a w) s = .next (((s.flag F.CFG_LOAD_STAT_EARLY_WR).answer .done).reply 0x11 tag Status.ok))

/-- R545, R546: while the equipment does not hold, an answer frame goes out as its bytes with their CRC-32C; while it holds, the frame waits, and is
sent when the hold ends; a frame that fails its check counts and is answered BAD_FRAME with CMD 0 and TAG 0, an undefined command UNKNOWN. R547:
a command above the session's level is answered NOT_AUTH with no other effect. IDENT gives the stepping, the role, the ROM version, the device
identity digest, the public key and the certificate. CHALLENGE, unless draws are refused, holds a fresh nonce (a free value) and sends it. AUTH
whose signature verifies over SHA-384 of the nonce and the identity digest, under a key that allows it, sets the session to PROVISION (usage bit
4) or SERVICE (bit 3); otherwise AUTH_FAIL is set and the session stays; both spend the nonce. CLOSE, the timeout and the loss of alignment
return the session to open and drop the nonce. RESULT, RECORD_READ and QUOTE_READ answer what is held, or BAD_ARG and STATE. QUOTE is answered
PENDING, and its end holds the 208 bytes and posts the result. R549: a firmware frame enters the receive FIFO as a header word and its payload,
raises source 41 where the FIFO was empty, and sends K28.3 where 48 entries are reached; unanswered, it is answered STATE. R527: the third failed
repeat in a row refuses draws and sets the TRNG faults. -/
def Obligations.ServicePortSessionsAndAnswers : Prop :=
  (∀ (c : BitVec 8) (tag : BitVec 16) (s : State),
     s.on F.SVC_STAT_PEER_HOLD = false →
     ∃ t : State, exec (.unknownCommand c tag) s = .next t ∧
       t.sent = s.sent ++ [cuharFrame c tag Status.unknown false []] ∧
       onlyParts [.sent] s t) ∧
  (∀ (c : BitVec 8) (tag : BitVec 16) (s : State),
     s.on F.SVC_STAT_PEER_HOLD = true →
     ∃ t : State, exec (.unknownCommand c tag) s = .next t ∧
       t.svc.held = s.svc.held ++ [cuharFrame c tag Status.unknown false []] ∧
       onlyParts [.svc] s t) ∧
  (∀ (tag : BitVec 16) (a : BitVec 32) (w : Word) (man : List Byte) (d : List Byte) (g : BitVec 128) (e : Dword) (c : BitVec 8)
        (p : Instr × BitVec 8) (s : State),
     p ∈ ([(.regRead tag a, 0x10), (.regWrite tag a w, 0x11), (.stageBegin tag man, 0x20), (.stageData tag a d, 0x21), (.stageEnd tag, 0x22),
           (.arm tag e a g, 0x23), (.disarm tag, 0x24), (.revert tag, 0x25), (.hold tag, 0x26), (.firmwareFrame c tag d, c)] : List
         (Instr × BitVec 8)) → s.session = 0 →
     exec p.1 s = .next (s.reply p.2 tag Status.notAuth)) ∧
  (∀ (tag : BitVec 16) (n : BitVec 384) (s : State),
     s.session ≤ 1 →
     exec (.provision tag n) s = .next (s.reply 0x27 tag Status.notAuth)) ∧
  (∀ (s : State),
     exec .badFrame s = .next ((s.count F.SVC_CNT_CRC_ERR).reply 0 0 Status.badFrame)) ∧
  (∀ (tag : BitVec 16) (s : State),
     exec (.ident tag) s = .next (s.reply 0x01 tag Status.ok (le 1 Config.stepping.toNat ++ le 1 (roleBit s) ++ le 4 Config.romVersion.toNat ++
           digestBytes (deviceId s.trc.uds) ++ dikPoint s.trc.uds ++ s.trc.certificate))) ∧
  (∀ (tag : BitVec 16) (s : State),
     s.trc.trngRefused = true →
     exec (.challenge tag) s = .next (s.reply 0x02 tag Status.state)) ∧
  (∀ (tag : BitVec 16) (s : State),
     s.trc.trngRefused = false → s.on F.SVC_STAT_PEER_HOLD = false →
     ∃ t : State, exec (.challenge tag) s = .next t ∧
       t.trc = { s.trc with nonce := some (s.free 384).1 } ∧
       t.sent = s.sent ++ [cuharFrame 0x02 tag Status.ok false (le 48 (s.free 384).1.toNat).reverse] ∧
       s.freeN < t.freeN ∧
       onlyParts [.trc, .sent, .freeN] s t) ∧
  (∀ (tag : BitVec 16) (k : BitVec 32) (r : BitVec 384) (g : BitVec 384) (s : State),
     authGood s k r g = true → s.get F.TRC_BOOT_STAT_FAIL_CODE ≠ 1 → keyAllows s k 4 = true →
     exec (.auth tag k r g) s = .next ((({ s with trc := { s.trc with nonce := none } } : State).put F.SVC_STAT_SESSION 2).reply 0x03 tag Status.ok)) ∧
  (∀ (tag : BitVec 16) (k : BitVec 32) (r : BitVec 384) (g : BitVec 384) (s : State),
     authGood s k r g = true → s.get F.TRC_BOOT_STAT_FAIL_CODE ≠ 1 → keyAllows s k 3 = true ∧ keyAllows s k 4 = false →
     exec (.auth tag k r g) s = .next ((({ s with trc := { s.trc with nonce := none } } : State).put F.SVC_STAT_SESSION 1).reply 0x03 tag Status.ok)) ∧
  (∀ (tag : BitVec 16) (k : BitVec 32) (r : BitVec 384) (g : BitVec 384) (s : State),
     authGood s k r g = false ∨ s.get F.TRC_BOOT_STAT_FAIL_CODE = 1 ∨ (keyAllows s k 3 = false ∧ keyAllows s k 4 = false) →
     exec (.auth tag k r g) s = .next
       ((({ s with trc := { s.trc with nonce := none } } : State).flag F.TRC_FLT_AUTH_FAIL).reply 0x03 tag Status.verifyFail)) ∧
  (∀ (tag : BitVec 16) (s : State),
     exec (.close tag) s = .next ((sessionEnd s).reply 0x04 tag Status.ok)) ∧
  (∀ (s : State),
     ∃ t : State, exec .sessionTimeout s = .next t ∧
       t.session = 0 ∧
       t.trc = { s.trc with nonce := none } ∧
       regsKept [R.SVC_STAT] s t ∧
       onlyParts [.regs, .trc] s t) ∧
  (∀ (s : State),
     ∃ t : State, exec .alignmentLoss s = .next t ∧
       t.session = 0 ∧
       t.trc = { s.trc with nonce := none } ∧
       t.on F.SVC_STAT_SYNC = false ∧
       t.svc = { s.svc with open_ := false } ∧
       regsKept [R.SVC_STAT] s t ∧
       onlyParts [.regs, .trc, .svc] s t) ∧
  (∀ (s : State),
     ∃ t : State, exec .alignmentAcquired s = .next t ∧
       t.on F.SVC_STAT_SYNC = true ∧
       t.svc = { s.svc with open_ := true } ∧
       t.session = s.session ∧
       regsKept [R.SVC_STAT] s t ∧
       onlyParts [.regs, .svc] s t) ∧
  (∀ (r : Nat) (g : BitVec 384) (k : BitVec 32) (n : BitVec 384) (s : State),
     s.trc.nonce = some n → r < 2 ^ 384 →
     authGood s k (BitVec.ofNat 384 r) g = signatureGood s k (sha384 (digestBytes n ++ digestBytes (deviceId s.trc.uds))) r g.toNat) ∧
  (∀ (s : State),
     exec (.cuharFlowControl true) s = .next (s.put F.SVC_STAT_PEER_HOLD 1)) ∧
  (∀ (s : State),
     ∃ t : State, exec (.cuharFlowControl false) s = .next t ∧
       t.on F.SVC_STAT_PEER_HOLD = false ∧
       t.sent = s.sent ++ s.svc.held ∧
       t.svc = { s.svc with held := [] } ∧
       regsKept [R.SVC_STAT] s t ∧
       onlyParts [.regs, .svc, .sent] s t) ∧
  (∀ (tag : BitVec 16) (s : State),
     exec (.result tag) s = .next (s.reply 0x05 tag Status.ok (s.regBytes R.SVC_RESULT_STAT ++ s.regBytes R.SVC_RESULT_DATA))) ∧
  (∀ (tag : BitVec 16) (k : BitVec 16) (s : State),
     2048 ≤ k.toNat →
     exec (.recordRead tag k) s = .next (s.reply 0x30 tag Status.badArg)) ∧
  (∀ (tag : BitVec 16) (k : BitVec 16) (s : State),
     k.toNat < 2048 → smGet k.toNat s.trc.attest = none →
     exec (.recordRead tag k) s = .next (s.reply 0x30 tag Status.ok (zeros 512))) ∧
  (∀ (tag : BitVec 16) (k : BitVec 16) (r : BootRecord) (s : State),
     k.toNat < 2048 → smGet k.toNat s.trc.attest = some r →
     exec (.recordRead tag k) s = .next (s.reply 0x30 tag Status.ok (bootRecordBytes r)) ∧
     (bootRecordBytes r).length = 512) ∧
  (∀ (tag : BitVec 16) (n : BitVec 384) (s : State),
     exec (.quote tag n) s = .next (
         ({ s.put F.SVC_RESULT_STAT_VALID 0 with trc := { s.trc with longCmd := some 0x31, quoteNonce := some n } } : State).reply 0x31 tag
         Status.pending)) ∧
  (∀ (s : State),
     s.trc.quoteNonce = none →
     exec .quoteDone s = .next (s)) ∧
  (∀ (n : BitVec 384) (s : State),
     s.trc.quoteNonce = some n →
     ∃ t : State, exec .quoteDone s = .next t ∧
       t.on F.SVC_RESULT_STAT_VALID = true ∧
       (t.get F.SVC_RESULT_STAT_CMD, t.get F.SVC_RESULT_STAT_STATUS) = (0x31, 0) ∧
       t.reg R.SVC_RESULT_DATA = 0 ∧
       (t.trc.quoteNonce, t.trc.longCmd) = (none, none) ∧
       (t.trc.quote.map List.length) = some 208 ∧
       (t.trc.quote.map (fun q => q.take 96)) = some
         ((le 48 n.toNat).reverse ++ digestBytes (sha384 (match s.trc.bootRecord with | some r => bootRecordBytes r | none => zeros 512))) ∧
       (t.trc.quote.map (fun q => (q.drop 96).take 16)) = some (le 8 s.now.toNat ++ le 4 (s.reg R.TRC_BOOT_NUM).toNat ++ zeros 4) ∧
       (t.trc.quote.map (fun q => q.drop 112)) = (t.trc.quote.map (fun q => (le 96 (dikSign s.trc.uds (sha384 (q.take 112))).toNat).reverse)) ∧
       regsKept [R.SVC_RESULT_STAT, R.SVC_RESULT_DATA] s t ∧
       onlyParts [.regs, .trc] s t) ∧
  (∀ (tag : BitVec 16) (s : State),
     s.trc.quote = none →
     exec (.quoteRead tag) s = .next (s.reply 0x32 tag Status.state)) ∧
  (∀ (tag : BitVec 16) (q : List Byte) (s : State),
     s.trc.quote = some q →
     exec (.quoteRead tag) s = .next (s.reply 0x32 tag Status.ok q)) ∧
  (∀ (c : BitVec 8) (tag : BitVec 16) (p : List Byte) (s : State),
     1 ≤ s.session →
     ∃ t : State, exec (.firmwareFrame c tag p) s = .next t ∧
       t.svc.rx = s.svc.rx ++ ((tag.extractLsb' 0 8) ++ (BitVec.ofNat 16 p.length) ++ c) :: wordsOf p ∧
       t.svc.fwFrame = some (c, tag) ∧
       (s.svc.rx = [] → t.ccx.irq.getLsbD 41 = true) ∧
       (s.svc.holding = false ∧ 48 ≤ s.svc.rx.length + 1 + (p.length + 3) / 4 → t.svc.holding = true ∧ t.sent = s.sent ++ [.cuharHold true]) ∧
       (s.svc.rx.length + 1 + (p.length + 3) / 4 < 48 → s.svc.holding = false → t.sent = s.sent ∧ t.svc.holding = false) ∧
       onlyParts [.svc, .ccx, .sent] s t) ∧
  (∀ (s : State),
     s.svc.fwFrame = none →
     exec .firmwareFrameTimeout s = .next (s)) ∧
  (∀ (c : BitVec 8) (tag : BitVec 16) (s : State),
     s.svc.fwFrame = some (c, tag) →
     exec .firmwareFrameTimeout s = .next (({ s with svc := { s.svc with fwFrame := none, tx := [] } }).reply c tag Status.state)) ∧
  (∀ (s : State),
     exec (.trngHealthFail true) s = .next ({ s with trc := { s.trc with trngFails := 0 } })) ∧
  (∀ (s : State),
     s.trc.trngFails + 1 < 3 →
     exec (.trngHealthFail false) s = .next ({ s with trc := { s.trc with trngFails := s.trc.trngFails + 1 } })) ∧
  (∀ (s : State),
     2 ≤ s.trc.trngFails →
     ∃ t : State, exec (.trngHealthFail false) s = .next t ∧
       t.on F.TRC_FLT_TRNG = true ∧
       t.on F.KEY_FLT_TRNG = true ∧
       t.trc = { s.trc with trngFails := s.trc.trngFails + 1, trngRefused := true } ∧
       onlyParts [.regs, .trc, .evr, .ccx] s t)

/-- R550, R555: STAGE_BEGIN, in IDLE, STAGING or STAGED, writes a manifest of the stated form that verifies and is not below MIN_SVN at the start of
the bank that is not active and starts STAGING, else it answers VERIFY_FAIL; STAGE_DATA writes its 1 to 4,096 bytes at their offset of that bank
and no others. R551: STAGE_END is answered PENDING; its checks end in STAGED with event 2, or in IDLE with STAGE_FAIL, event 3 and the failing
component with its reason. ARM, in STAGED, holds T, W and the digest of the staged manifest within the stated bounds, else BAD_ARG; DISARM and a
missed window return to STAGED and clear the armed activation; at T it becomes DUE with event 1. R552: GO, in DUE and quiet, makes the staged
bank the active one as a trial and starts a configuration reset, else GO_REJ; a GO after the window counts as the missed window. R554: CONFIRM,
in TRIAL, ends the trial, raises MIN_SVN to the manifest's floor and installs a listed key table that is newer and passes its check, else KEYTAB
is set; REVERT, in CONFIGURE or SERVICE while confirmed, boots the previous bank as a trial, else it answers STATE. HOLD sets SERVICE_HOLD. R525:
PROVISION holds the drive secret once, and passes its key on where the boot has ended. A command in another state answers STATE. -/
def Obligations.StagingArmingAndTrialsFollowTheUpdateStates : Prop :=
  (∀ (tag : BitVec 16) (b : List Byte) (s : State),
     1 ≤ s.session → 2 < updState s →
     exec (.stageBegin tag b) s = .next (s.reply 0x20 tag Status.state)) ∧
  (∀ (tag : BitVec 16) (b : List Byte) (s : State),
     1 ≤ s.session → updState s ≤ 2 →
     b.length ≠ (readManifest b).length ∨ manifestFormed (readManifest b) = false ∨ manifestSigned s (readManifest b) = false ∨
       (readManifest b).svn.toNat < (bootState s).minSvn.toNat →
     exec (.stageBegin tag b) s = .next (s.reply 0x20 tag Status.verifyFail)) ∧
  (∀ (tag : BitVec 16) (b : List Byte) (n : Nat) (s : State),
     1 ≤ s.session → updState s ≤ 2 →
     b.length = (readManifest b).length ∧ manifestFormed (readManifest b) = true ∧ manifestSigned s (readManifest b) = true →
     (bootState s).minSvn.toNat ≤ (readManifest b).svn.toNat → bankBase s (!(bootState s).active) = some n →
     ∃ t : State, exec (.stageBegin tag b) s = .next t ∧
       updState t = 1 ∧
       t.trc.flash = stagePut n b s.trc.flash ∧
       bootState t = { bootState s with staged := false } ∧
       regsKept [R.TRC_UPD_STAT] s t ∧
       onlyParts [.regs, .trc, .svc, .sent] s t) ∧
  (∀ (tag : BitVec 16) (a : BitVec 32) (d : List Byte) (s : State),
     1 ≤ s.session → updState s ≠ 1 →
     exec (.stageData tag a d) s = .next (s.reply 0x21 tag Status.state)) ∧
  (∀ (tag : BitVec 16) (a : BitVec 32) (d : List Byte) (n : Nat) (s : State),
     1 ≤ s.session → updState s = 1 → 1 ≤ d.length ∧ d.length ≤ 4096 ∧ a.toNat + d.length ≤ bankSize s →
     bankBase s (!(bootState s).active) = some n →
     ∃ t : State, exec (.stageData tag a d) s = .next t ∧
       t.trc = { s.trc with flash := stagePut (n + a.toNat) d s.trc.flash } ∧
       (∀ i : Nat, i < d.length → smGetD 0xFF (n + a.toNat + i) t.trc.flash = d.getD i 0) ∧
       (∀ j : Nat, (j < n + a.toNat ∨ n + a.toNat + d.length ≤ j) → smGetD 0xFF j t.trc.flash = smGetD 0xFF j s.trc.flash) ∧
       onlyParts [.trc, .svc, .sent] s t) ∧
  (∀ (tag : BitVec 16) (a : BitVec 32) (d : List Byte) (s : State),
     1 ≤ s.session → updState s = 1 → d.length = 0 ∨ 4096 < d.length ∨ bankSize s < a.toNat + d.length →
     exec (.stageData tag a d) s = .next (s.reply 0x21 tag Status.badArg)) ∧
  (∀ (tag : BitVec 16) (s : State),
     1 ≤ s.session → updState s ≠ 1 →
     exec (.stageEnd tag) s = .next (s.reply 0x22 tag Status.state)) ∧
  (∀ (tag : BitVec 16) (s : State),
     1 ≤ s.session → updState s = 1 →
     exec (.stageEnd tag) s = .next
       (({ s.put F.SVC_RESULT_STAT_VALID 0 with trc := { s.trc with longCmd := some 0x22 } } : State).reply 0x22 tag Status.pending)) ∧
  (∀ (f : Option (BitVec 8)) (s : State),
     updState s ≠ 1 ∨ s.trc.longCmd ≠ some 0x22 →
     exec (.stageCheckDone f) s = .next (s)) ∧
  (∀ (f : Option (BitVec 8)) (s : State),
     updState s = 1 → s.trc.longCmd = some 0x22 → stageOutcome s f = none →
     ∃ t : State, exec (.stageCheckDone f) s = .next t ∧
       (updState t, t.get F.TRC_MBOX_EVENT) = (2, 2) ∧
       bootState t = { bootState s with staged := true } ∧
       (t.get F.SVC_RESULT_STAT_CMD, t.get F.SVC_RESULT_STAT_STATUS, t.reg R.SVC_RESULT_DATA) = (0x22, 0, 0) ∧
       (t.on F.SVC_RESULT_STAT_VALID, t.trc.longCmd) = (true, none) ∧
       t.trc.flash = s.trc.flash ∧
       regsKept [R.TRC_UPD_STAT, R.TRC_MBOX, R.SVC_RESULT_STAT, R.SVC_RESULT_DATA] s t ∧
       onlyParts [.regs, .trc, .ccx] s t) ∧
  (∀ (f : Option (BitVec 8)) (i : BitVec 8) (c : BitVec 8) (s : State),
     updState s = 1 → s.trc.longCmd = some 0x22 → stageOutcome s f = some (i, c) →
     ∃ t : State, exec (.stageCheckDone f) s = .next t ∧
       (updState t, t.on F.TRC_UPD_STAT_STAGE_FAIL, t.get F.TRC_MBOX_EVENT) = (0, true, 3) ∧
       (t.get F.SVC_RESULT_STAT_CMD, t.get F.SVC_RESULT_STAT_STATUS, t.reg R.SVC_RESULT_DATA) = (0x22, 0x15, i ++ (0 : BitVec 16) ++ c) ∧
       t.on F.SVC_RESULT_STAT_VALID = true ∧
       t.trc = { s.trc with longCmd := none } ∧
       regsKept [R.TRC_UPD_STAT, R.TRC_MBOX, R.SVC_RESULT_STAT, R.SVC_RESULT_DATA] s t ∧
       onlyParts [.regs, .trc, .ccx] s t) ∧
  (∀ (i : BitVec 8) (s : State),
     stageOutcome s (some i) = some (i, 0x08) ∧
     (stagedManifest s = none → stageOutcome s none = some (0xFF, 0x02))) ∧
  (∀ (m : Manifest) (s : State),
     stagedManifest s = some m → (ownComponents s m).all (fun e => componentFault s m e.2 == none) = true →
     stageOutcome s none = (if chipMatches m (bootRole s m) then none else some (0xFF, 0x04))) ∧
  (∀ (tag : BitVec 16) (at_ : Dword) (w : BitVec 32) (g : BitVec 128) (m : Manifest) (s : State),
     1 ≤ s.session → updState s = 2 → stagedManifest s = some m → m.digest.extractLsb' 256 128 = g → s.now.toNat + 100000000 ≤ at_.toNat →
     1000 ≤ w.toNat ∧ w.toNat ≤ 3600000 →
     ∃ t : State, exec (.arm tag at_ w g) s = .next t ∧
       (updState t, t.get F.TRC_MBOX_EVENT) = (3, 4) ∧
       bootState t = { bootState s with armed := some (at_, w, g) } ∧
       (t.pair R.TRC_ARM_LO R.TRC_ARM_HI, t.reg R.TRC_ARM_WIN) = (at_, w) ∧
       regsKept [R.TRC_UPD_STAT, R.TRC_MBOX, R.TRC_ARM_LO, R.TRC_ARM_HI, R.TRC_ARM_WIN] s t ∧
       onlyParts [.regs, .trc, .svc, .ccx, .sent] s t) ∧
  (∀ (tag : BitVec 16) (at_ : Dword) (w : BitVec 32) (g : BitVec 128) (s : State),
     1 ≤ s.session → updState s ≠ 2 →
     exec (.arm tag at_ w g) s = .next (s.reply 0x23 tag Status.state)) ∧
  (∀ (tag : BitVec 16) (at_ : Dword) (w : BitVec 32) (g : BitVec 128) (s : State),
     1 ≤ s.session → updState s = 2 →
     at_.toNat < s.now.toNat + 100000000 ∨ w.toNat < 1000 ∨ 3600000 < w.toNat ∨ (∀ m, stagedManifest s = some m → m.digest.extractLsb' 256 128 ≠ g)
       →
     exec (.arm tag at_ w g) s = .next (s.reply 0x23 tag Status.badArg)) ∧
  (∀ (tag : BitVec 16) (s : State),
     1 ≤ s.session → updState s = 3 ∨ updState s = 4 →
     ∃ t : State, exec (.disarm tag) s = .next t ∧
       (updState t, t.get F.TRC_MBOX_EVENT) = (2, 5) ∧
       bootState t = { bootState s with armed := none } ∧
       (t.pair R.TRC_ARM_LO R.TRC_ARM_HI, t.reg R.TRC_ARM_WIN) = (0, 0) ∧
       regsKept [R.TRC_UPD_STAT, R.TRC_MBOX, R.TRC_ARM_LO, R.TRC_ARM_HI, R.TRC_ARM_WIN] s t ∧
       onlyParts [.regs, .trc, .svc, .ccx, .sent] s t) ∧
  (∀ (tag : BitVec 16) (s : State),
     1 ≤ s.session → updState s ≠ 3 → updState s ≠ 4 →
     exec (.disarm tag) s = .next (s.reply 0x24 tag Status.state)) ∧
  (∀ (s : State),
     updState s = 3 → (s.pair R.TRC_ARM_LO R.TRC_ARM_HI).toNat ≤ s.now.toNat →
     exec .activationDue s = .next (mailbox 1 (setUpd 4 s))) ∧
  (∀ (s : State),
     updState s ≠ 3 ∨ s.now.toNat < (s.pair R.TRC_ARM_LO R.TRC_ARM_HI).toNat →
     exec .activationDue s = .next (s)) ∧
  (∀ (s : State),
     updState s = 3 ∨ updState s = 4 → windowOver s = true →
     ∃ t : State, exec .windowMissed s = .next t ∧
       (updState t, t.on F.TRC_UPD_STAT_MISSED, t.get F.TRC_MBOX_EVENT) = (2, true, 6) ∧
       bootState t = { bootState s with armed := none } ∧
       (t.pair R.TRC_ARM_LO R.TRC_ARM_HI, t.reg R.TRC_ARM_WIN) = (0, 0) ∧
       exec .go s = .next t ∧
       regsKept [R.TRC_UPD_STAT, R.TRC_MBOX, R.TRC_ARM_LO, R.TRC_ARM_HI, R.TRC_ARM_WIN] s t ∧
       onlyParts [.regs, .trc, .ccx] s t) ∧
  (∀ (s : State),
     (updState s ≠ 3 ∧ updState s ≠ 4) ∨ windowOver s = false →
     exec .windowMissed s = .next (s)) ∧
  (∀ (s : State),
     windowOver s = false ∨ (updState s ≠ 3 ∧ updState s ≠ 4) → goAccepted s = false →
     exec .go s = .next (s.put F.TRC_UPD_STAT_GO_REJ 1)) ∧
  (∀ (s : State),
     goAccepted s = true → windowOver s = false →
     ∃ t : State, exec .go s = .next t ∧
       updState t = 5 ∧
       bootState t = { bootState s with
           active := !(bootState s).active, previous := (bootState s).active, trial := true, tries := 0,
           trialMax := max 1 (s.get F.TRC_UPD_CFG_TRIAL_MAX), staged := false, armed := none } ∧
       (s.on F.GLB_MODE_COND_POWER_FAIL = false → (t.glb.cfgReset != .none) = true)) ∧
  (∀ (s : State),
     updState s ≠ 6 →
     exec .confirm s = .next (s)) ∧
  (∀ (m : Manifest) (s : State),
     updState s = 6 → bankManifest s (bootState s).active = some m → component m (bootRole s m) 5 0 = none →
     ∃ t : State, exec .confirm s = .next t ∧
       updState t = 0 ∧
       bootState t =
         { bootState s with trial := false, minSvn := (if (bootState s).minSvn.toNat < m.svnFloor.toNat then m.svnFloor else (bootState s).minSvn) }
         ∧
       t.get F.TRC_SVN_MIN_SVN = (bootState t).minSvn.toNat ∧
       t.trc.keyTab = s.trc.keyTab ∧
       regsKept [R.TRC_UPD_STAT, R.TRC_SVN] s t ∧
       onlyParts [.regs, .trc] s t) ∧
  (∀ (m : Manifest) (c : Component) (s : State),
     updState s = 6 → bankManifest s (bootState s).active = some m → component m (bootRole s m) 5 0 = some c →
     ∃ u : State, exec .confirm s = .next (installKeyTable (componentBytes s (bootState s).active c) u) ∧
       (updState u, (bootState u).trial) = (0, false) ∧
       (keyTable u, u.trc.rootDigest) = (keyTable s, s.trc.rootDigest)) ∧
  (∀ (b : List Byte) (s : State),
     (keyTable s).version.toNat < (readKeyTable b).version.toNat ∧ keyTableGood s.trc.rootDigest ((keyTable s).entries[0]?) (readKeyTable b) = true
       →
     keyTable (installKeyTable b s) = readKeyTable b ∧
     (bootState (installKeyTable b s)).ktVer = (readKeyTable b).version) ∧
  (∀ (b : List Byte) (s : State),
     (readKeyTable b).version.toNat ≤ (keyTable s).version.toNat ∨ keyTableGood s.trc.rootDigest ((keyTable s).entries[0]?) (readKeyTable b) = false
       →
     installKeyTable b s = s.flag F.TRC_FLT_KEYTAB) ∧
  (∀ (tag : BitVec 16) (m : Manifest) (s : State),
     1 ≤ s.session → s.mode = Mode.configure ∨ s.mode = Mode.service → (bootState s).trial = false →
     bankManifest s (bootState s).previous = some m → (bootState s).minSvn.toNat ≤ m.svn.toNat → chipMatches m (bootRole s m) = true →
     ∃ t : State, exec (.revert tag) s = .next t ∧
       bootState t = { bootState s with active := (bootState s).previous, trial := true, tries := 0 } ∧
       (s.on F.GLB_MODE_COND_POWER_FAIL = false → (t.glb.cfgReset != .none) = true)) ∧
  (∀ (tag : BitVec 16) (s : State),
     1 ≤ s.session →
     (s.mode ≠ Mode.configure ∧ s.mode ≠ Mode.service) ∨ (bootState s).trial = true ∨
       (∀ m, bankManifest s (bootState s).previous = some m → m.svn.toNat < (bootState s).minSvn.toNat ∨ chipMatches m (bootRole s m) = false) →
     exec (.revert tag) s = .next (s.reply 0x25 tag Status.state)) ∧
  (∀ (tag : BitVec 16) (s : State),
     1 ≤ s.session →
     ∃ u : State, exec (.hold tag) s = .next (((u.settle).reply 0x26 tag Status.ok)) ∧
       u.on F.GLB_MODE_COND_SERVICE_HOLD = true) ∧
  (∀ (tag : BitVec 16) (n : BitVec 384) (s : State),
     2 ≤ s.session → s.trc.driveSecret = none →
     ∃ t : State, exec (.provision tag n) s = .next t ∧
       t.trc = { s.trc with driveSecret := some (true, n) } ∧
       t.get F.TRC_ID_DS_STATE = 2 ∧
       t.key = (if s.get F.TRC_BOOT_STAT_PHASE = 7 then { s.key with kek := some (kekOf n) } else s.key) ∧
       regsKept [R.TRC_ID] s t ∧
       onlyParts [.regs, .trc, .svc, .key, .sent] s t) ∧
  (∀ (tag : BitVec 16) (n : BitVec 384) (s : State),
     2 ≤ s.session → s.trc.driveSecret.isSome = true →
     exec (.provision tag n) s = .next (s.reply 0x27 tag Status.state))

/-- R560 to R562: an event raised joins the queue with the ring time, boot number and mode of its acceptance, or is dropped and counted while the log
is frozen, full or 64 wait; a flag event needs FLAG_EN; firmware records carry UNIT, SEV, CODE and DATA of their registers. R561, R565: the
oldest event is written into slot NEXT unless the log is frozen; a slot that fails twice sets LOG_FAIL and LOG_FAILED, and events then go to the
epitaphs, of which there are 32. R562: a hold begins or ends a freeze, its timeout sets THAW_TO, and the end of the last raises THAW. R563: a
clear, taken only under the service port's hold, starts the next epoch with zero counts and LOG_CLEARED in slot 0; where the epoch wraps every
other slot reads zero and the clear is answered PENDING with its result posted. R564: the header is written when due, or each second while drops
changed, to the copy of lower SEQ, and not after EPITAPH_FAIL. R567: sticky bits clear where written 1 and not set by hardware at once. R585: the
service port's reads answer as stored and check their arguments. R587, R549, R589: the data ports answer the selected word and advance, or the
oldest received word, zero when empty. -/
def Obligations.RecorderKeepsItsEvents : Prop :=
  (∀ (s : State),
     s.evr.raised = [] →
     exec .eventAccept s = .next (s)) ∧
  (∀ (code : Nat) (sev : Nat) (unit : Nat) (src : Nat) (d : List Byte) (s : State),
     s.evr.raised = [.system code sev unit src d] → s.frozen = false → s.on F.EVR_STAT_FULL = false → s.evr.queue.length < 64 →
     ∃ t : State, exec .eventAccept s = .next t ∧
       t.evr = { s.evr with
           raised := [],
           queue := s.evr.queue ++
             [⟨s.now, s.reg R.TRC_BOOT_NUM, src, code, sev, s.get F.GLB_MODE_MODE + 16 * s.get F.GLB_MODE_PSTATE, unit, fit 36 d⟩] } ∧
       onlyParts [.evr] s t) ∧
  (∀ (code : Nat) (sev : Nat) (unit : Nat) (src : Nat) (d : List Byte) (s : State),
     s.evr.raised = [.system code sev unit src d] → s.frozen = true →
     ∃ t : State, exec .eventAccept s = .next t ∧
       t.get F.EVR_DROP_FRZ_COUNT = min (s.get F.EVR_DROP_FRZ_COUNT + 1) (2 ^ F.EVR_DROP_FRZ_COUNT.width - 1) ∧
       t.evr = { s.evr with raised := [], frozenDrops := s.evr.frozenDrops + 1, dropChanged := true } ∧
       regsKept [R.EVR_DROP_FRZ, R.TLY_STAT] s t ∧
       onlyParts [.regs, .evr, .tly] s t) ∧
  (∀ (code : Nat) (sev : Nat) (unit : Nat) (src : Nat) (d : List Byte) (s : State),
     s.evr.raised = [.system code sev unit src d] → s.frozen = false → s.on F.EVR_STAT_LOG_FAILED = false → s.on F.EVR_STAT_FULL = true →
     ∃ t : State, exec .eventAccept s = .next t ∧
       t.get F.EVR_DROP_FULL_COUNT = min (s.get F.EVR_DROP_FULL_COUNT + 1) (2 ^ F.EVR_DROP_FULL_COUNT.width - 1) ∧
       t.evr = { s.evr with raised := [], dropChanged := true } ∧
       regsKept [R.EVR_DROP_FULL, R.TLY_STAT] s t ∧
       onlyParts [.regs, .evr, .tly] s t) ∧
  (∀ (code : Nat) (sev : Nat) (unit : Nat) (src : Nat) (d : List Byte) (s : State),
     s.evr.raised = [.system code sev unit src d] → s.frozen = false → s.on F.EVR_STAT_LOG_FAILED = true ∨ s.on F.EVR_STAT_FULL = false →
     64 ≤ s.evr.queue.length →
     ∃ t : State, exec .eventAccept s = .next t ∧
       t.get F.EVR_DROP_OTHER_COUNT = min (s.get F.EVR_DROP_OTHER_COUNT + 1) (2 ^ F.EVR_DROP_OTHER_COUNT.width - 1) ∧
       t.on F.EVR_FLT_QUEUE_OVF = true ∧
       t.evr.queue = s.evr.queue ∧
       onlyParts [.regs, .evr, .tly, .ccx] s t) ∧
  (∀ (a : Nat) (b : Word) (s : State),
     s.evr.raised = [.flag a b] → s.on F.EVR_CTL_FLAG_EN = false →
     exec .eventAccept s = .next ({ s with evr := { s.evr with raised := [] } })) ∧
  (∀ (w : Word) (s : State),
     s.accepts R.EVR_FW_CODE = true → s.evr.raised = [] → s.frozen = false → s.on F.EVR_STAT_FULL = false → s.evr.queue.length < 64 →
     ∃ t : State, exec (.firmwareRecord w) s = .next t ∧
       t.evr = { s.evr with
           queue := s.evr.queue ++ [⟨s.now, s.reg R.TRC_BOOT_NUM, 0xFFFF, 0x8000 + bitsOf w.toNat 13 0, bitsOf w.toNat 15 14, s.get F.GLB_MODE_MODE
                 + 16 * s.get F.GLB_MODE_PSTATE, bitsOf w.toNat 31 16, fit 36 ([R.EVR_FW_DATA0, R.EVR_FW_DATA1, R.EVR_FW_DATA2, R.EVR_FW_DATA3,
                     R.EVR_FW_DATA4, R.EVR_FW_DATA5, R.EVR_FW_DATA6, R.EVR_FW_DATA7, R.EVR_FW_DATA8].flatMap s.regBytes)⟩] } ∧
       t.bus = .done ∧
       onlyParts [.evr, .bus] s t) ∧
  (∀ (a : Bool) (b : Bool) (c : Bool) (s : State),
     s.frozen = true ∨ s.evr.queue = [] →
     exec (.recordWrite a b c) s = .next (s)) ∧
  (∀ (a : Bool) (b : Bool) (c : Bool) (e : Accepted) (q : List Accepted) (s : State),
     s.evr.queue = e :: q → s.frozen = false → s.on F.EVR_STAT_LOG_FAILED = false → s.on F.EVR_STAT_FULL = false → a = true ∨ b = true →
     ∃ t : State, exec (.recordWrite a b c) s = .next t ∧
       t.evr.queue = q ∧
       smGetD (zeros 64) (s.get F.EVR_NEXT_NEXT) t.evr.log = recordBytes (s.get F.EVR_NEXT_NEXT) (s.get F.EVR_STAT_EPOCH) e ∧
       t.get F.EVR_NEXT_NEXT = (s.get F.EVR_NEXT_NEXT + 1) % 2 ^ F.EVR_NEXT_NEXT.width ∧
       t.evr.headerDue = (s.evr.headerDue || (s.get F.EVR_NEXT_NEXT + 1) % 64 == 0) ∧
       (t.on F.EVR_STAT_FULL = true ↔ s.get F.EVR_NEXT_NEXT + 1 = 65536) ∧
       regsKept [R.EVR_NEXT, R.EVR_STAT, R.EVR_FLT] s t ∧
       onlyParts [.regs, .evr, .ccx] s t ∧
       (∀ k : Nat, k ≠ s.get F.EVR_NEXT_NEXT → smGetD (zeros 64) k t.evr.log = smGetD (zeros 64) k s.evr.log)) ∧
  (∀ (c : Bool) (e : Accepted) (q : List Accepted) (s : State),
     s.evr.queue = e :: q → s.frozen = false → s.on F.EVR_STAT_LOG_FAILED = false → s.on F.EVR_STAT_FULL = false →
     ∃ t : State, exec (.recordWrite false false c) s = .next t ∧
       t.evr.queue = q ∧
       t.on F.EVR_STAT_LOG_FAILED = true ∧
       t.on F.GLB_STICKY_LOG_FAIL = true ∧
       t.evr.failedSlot = some (s.get F.EVR_NEXT_NEXT) ∧
       t.evr.log = s.evr.log ∧
       t.evr.headerDue = true ∧
       onlyParts [.regs, .evr, .tly, .ccx] s t) ∧
  (∀ (a : Bool) (b : Bool) (e : Accepted) (q : List Accepted) (s : State),
     s.evr.queue = e :: q → s.frozen = false → s.on F.EVR_STAT_LOG_FAILED = true → s.on F.GLB_STICKY_EPITAPH_FAIL = false →
     s.on F.GLB_STICKY_EPITAPH_FULL = false →
     ∃ t : State, exec (.recordWrite a b true) s = .next t ∧
       t.evr.queue = q ∧
       smGetD (zeros 64) (s.get F.EVR_STAT_EPI_USED) t.evr.epitaphs = recordBytes 0xFFFF (s.get F.EVR_STAT_EPOCH) e ∧
       t.get F.EVR_STAT_EPI_USED = (s.get F.EVR_STAT_EPI_USED + 1) % 2 ^ F.EVR_STAT_EPI_USED.width ∧
       t.evr.log = s.evr.log ∧
       (t.on F.GLB_STICKY_EPITAPH_FULL = true ↔ s.get F.EVR_STAT_EPI_USED + 1 = 32) ∧
       onlyParts [.regs, .evr, .ccx] s t) ∧
  (∀ (s : State),
     s.on F.EVR_STAT_FRZ_FW = false →
     exec (.freezeTimeout .firmware) s = .next (s)) ∧
  (∀ (s : State),
     s.on F.EVR_STAT_FRZ_FW = true →
     ∃ t : State, exec (.freezeTimeout .firmware) s = .next t ∧
       t.on F.EVR_STAT_FRZ_FW = false ∧
       t.on F.EVR_CTL_FREEZE = false ∧
       t.on F.EVR_FLT_THAW_TO = true ∧
       t.on F.EVR_STAT_FRZ_SVC = s.on F.EVR_STAT_FRZ_SVC ∧
       onlyParts [.regs, .evr, .ccx] s t) ∧
  (∀ (s : State),
     s.on F.EVR_STAT_FRZ_SVC = true →
     ∃ t : State, exec (.freezeTimeout .service) s = .next t ∧
       t.on F.EVR_STAT_FRZ_SVC = false ∧
       t.on F.EVR_FLT_THAW_TO = true ∧
       t.on F.EVR_STAT_FRZ_FW = s.on F.EVR_STAT_FRZ_FW ∧
       t.on F.EVR_CTL_FREEZE = s.on F.EVR_CTL_FREEZE ∧
       onlyParts [.regs, .evr, .ccx] s t) ∧
  (∀ (s : State),
     s.on F.EVR_STAT_FRZ_SVC = false →
     exec (.freezeTimeout .service) s = .next (s)) ∧
  (∀ (b : Bool) (s : State),
     s.evr.headerDue = false → b = false ∨ s.evr.dropChanged = false →
     exec (.headerWrite b) s = .next (s)) ∧
  (∀ (b : Bool) (s : State),
     s.evr.headerDue = true ∨ (b = true ∧ s.evr.dropChanged = true) → s.on F.GLB_STICKY_EPITAPH_FAIL = false → s.evr.header0 = none →
     s.evr.header1 = none →
     ∃ t : State, exec (.headerWrite b) s = .next t ∧
       t.evr.header0.map (fun h => (h.epoch, h.next, h.epiUsed, h.sticky)) = some
         (s.get F.EVR_STAT_EPOCH, s.get F.EVR_NEXT_NEXT, s.get F.EVR_STAT_EPI_USED, (s.reg R.GLB_STICKY).toNat) ∧
       t.evr.header0.map (fun h => (h.dropFull, h.dropFrz, h.dropOther)) = some
         (s.get F.EVR_DROP_FULL_COUNT, s.get F.EVR_DROP_FRZ_COUNT, s.get F.EVR_DROP_OTHER_COUNT) ∧
       t.evr.header1 = none ∧
       (t.evr.headerDue, t.evr.dropChanged) = (false, false) ∧
       onlyParts [.evr] s t) ∧
  (∀ (b : Bool) (h : RecHeader) (g : RecHeader) (s : State),
     s.evr.headerDue = true ∨ (b = true ∧ s.evr.dropChanged = true) → s.on F.GLB_STICKY_EPITAPH_FAIL = false →
     s.evr.header0 = some h ∧ s.evr.header1 = some g →
     ∃ t : State, exec (.headerWrite b) s = .next t ∧
       (h.seq ≤ g.seq → t.evr.header1 = some g ∧ (t.evr.header0.map (fun x => (x.seq, x.next))) = some (g.seq + 1, s.get F.EVR_NEXT_NEXT)) ∧
       (g.seq < h.seq → t.evr.header0 = some h ∧ (t.evr.header1.map (fun x => (x.seq, x.next))) = some (h.seq + 1, s.get F.EVR_NEXT_NEXT)) ∧
       onlyParts [.evr] s t) ∧
  (∀ (b : Bool) (s : State),
     s.on F.GLB_STICKY_EPITAPH_FAIL = true →
     exec (.headerWrite b) s = .next s) ∧
  (∀ (tag : BitVec 16) (s : State),
     exec (.evrStatus tag) s = .next
       (s.reply 0x41 tag Status.ok ([R.EVR_STAT, R.EVR_NEXT, R.EVR_DROP_FULL, R.EVR_DROP_FRZ, R.EVR_DROP_OTHER].flatMap s.regBytes))) ∧
  (∀ (tag : BitVec 16) (f : BitVec 16) (n : BitVec 16) (s : State),
     n.toNat = 0 ∨ 64 < n.toNat ∨ 65536 < f.toNat + n.toNat →
     exec (.evrRead tag f n) s = .next (s.reply 0x42 tag Status.badArg)) ∧
  (∀ (tag : BitVec 16) (f : BitVec 16) (n : BitVec 16) (s : State),
     1 ≤ n.toNat ∧ n.toNat ≤ 64 ∧ f.toNat + n.toNat ≤ 65536 →
     exec (.evrRead tag f n) s = .next (s.reply 0x42 tag Status.ok (logSlots s.evr.log f.toNat n.toNat))) ∧
  (∀ (tag : BitVec 16) (h : BitVec 8) (s : State),
     1 ≤ s.session → 1 < h.toNat →
     exec (.evrFreeze tag h) s = .next (s.reply 0x43 tag Status.badArg)) ∧
  (∀ (tag : BitVec 16) (s : State),
     1 ≤ s.session → s.frozen = false →
     ∃ t : State, exec (.evrFreeze tag 1) s = .next t ∧
       t.on F.EVR_STAT_FRZ_SVC = true ∧
       t.evr = { s.evr with frozenAt := s.now, frozenDrops := 0 } ∧
       regsKept [R.EVR_STAT] s t ∧
       onlyParts [.regs, .evr, .svc, .sent] s t) ∧
  (∀ (tag : BitVec 16) (s : State),
     1 ≤ s.session → s.frozen = true →
     exec (.evrFreeze tag 1) s = .next ((s.put F.EVR_STAT_FRZ_SVC 1).reply 0x43 tag Status.ok)) ∧
  (∀ (tag : BitVec 16) (s : State),
     1 ≤ s.session →
     ∃ t : State, exec (.evrFreeze tag 0) s = .next t ∧
       t.on F.EVR_STAT_FRZ_SVC = false ∧
       t.on F.EVR_STAT_FRZ_FW = s.on F.EVR_STAT_FRZ_FW ∧
       (s.frozen = true → s.on F.EVR_STAT_FRZ_FW = false → t.evr = { s.evr with
             raised := s.evr.raised ++
               [.system 0x4009 1 0xFFFF (sourceOf R.EVR_CTL) (le 4 ((s.now - s.evr.frozenAt).toNat / 100000) ++ le 4 s.evr.frozenDrops)] }) ∧
       (s.frozen = false ∨ s.on F.EVR_STAT_FRZ_FW = true → t.evr = s.evr) ∧
       regsKept [R.EVR_STAT] s t ∧
       onlyParts [.regs, .evr, .svc, .sent] s t) ∧
  (∀ (tag : BitVec 16) (s : State),
     exec (.epitaphRead tag) s = .next (s.reply 0x44 tag Status.ok (logSlots s.evr.epitaphs 0 32 ++ le 1 (s.get F.EVR_STAT_EPI_USED)))) ∧
  (∀ (tag : BitVec 16) (s : State),
     1 ≤ s.session → s.on F.EVR_STAT_FRZ_SVC = false →
     exec (.evrClear tag) s = .next (s.reply 0x45 tag Status.state)) ∧
  (∀ (tag : BitVec 16) (s : State),
     1 ≤ s.session → s.on F.EVR_STAT_FRZ_SVC = true → s.get F.EVR_STAT_EPOCH ≠ 0xFFFF →
     ∃ t : State, exec (.evrClear tag) s = .next t ∧
       t.get F.EVR_STAT_EPOCH = s.get F.EVR_STAT_EPOCH + 1 ∧
       t.get F.EVR_NEXT_NEXT = 1 ∧
       (t.get F.EVR_DROP_FULL_COUNT, t.get F.EVR_DROP_FRZ_COUNT, t.get F.EVR_DROP_OTHER_COUNT) = (0, 0, 0) ∧
       t.evr.headerDue = true ∧
       t.on F.EVR_STAT_FULL = false ∧
       smGetD (zeros 64) 0 t.evr.log = recordBytes 0 (s.get F.EVR_STAT_EPOCH + 1) ⟨s.now, s.reg R.TRC_BOOT_NUM, sourceOf R.EVR_CTL, 0x4008, 0, s.get
           F.GLB_MODE_MODE + 16 * s.get F.GLB_MODE_PSTATE, 0xFFFF, fit 36 (le 2 (s.get F.EVR_STAT_EPOCH) ++ zeros 2 ++ le 4 (s.get F.EVR_NEXT_NEXT)
             ++ [R.EVR_DROP_FULL, R.EVR_DROP_FRZ, R.EVR_DROP_OTHER].flatMap s.regBytes)⟩ ∧
       regsKept [R.EVR_STAT, R.EVR_NEXT, R.EVR_DROP_FULL, R.EVR_DROP_FRZ, R.EVR_DROP_OTHER] s t ∧
       onlyParts [.regs, .evr, .ccx, .svc, .sent] s t ∧
       (∀ k : Nat, k ≠ 0 → smGetD (zeros 64) k t.evr.log = smGetD (zeros 64) k s.evr.log)) ∧
  (∀ (tag : BitVec 16) (s : State),
     1 ≤ s.session → s.on F.EVR_STAT_FRZ_SVC = true → s.get F.EVR_STAT_EPOCH = 0xFFFF →
     ∃ t : State, exec (.evrClear tag) s = .next t ∧
       (t.get F.EVR_STAT_EPOCH, t.get F.EVR_NEXT_NEXT) = (0, 1) ∧
       (t.get F.SVC_RESULT_STAT_CMD, t.get F.SVC_RESULT_STAT_STATUS, t.on F.SVC_RESULT_STAT_VALID) = (0x45, 0, true) ∧
       (s.on F.SVC_STAT_PEER_HOLD = false → t.sent = s.sent ++ [cuharFrame 0x45 tag Status.pending false []]) ∧
       t.evr.headerDue = true ∧
       (∀ k : Nat, k ≠ 0 → smGetD (zeros 64) k t.evr.log = zeros 64)) ∧
  (∀ (tag : BitVec 16) (m : Word) (h : Word) (s : State),
     1 ≤ s.session →
     ∃ t : State, exec (.stickyClear tag m h) s = .next t ∧
       t.reg R.GLB_STICKY = (s.reg R.GLB_STICKY &&& ~~~(m &&& ~~~h)) ||| (h &&& 0x1F) ∧
       (t.reg R.GLB_STICKY ≠ s.reg R.GLB_STICKY → t.evr.headerDue = true) ∧
       (t.reg R.GLB_STICKY = s.reg R.GLB_STICKY → t.evr = s.evr) ∧
       (s.on F.GLB_STICKY_LOG_FAIL = true → t.on F.GLB_STICKY_LOG_FAIL = false → t.on F.EVR_STAT_LOG_FAILED = false) ∧
       (s.on F.GLB_STICKY_EPITAPH_FULL = true → t.on F.GLB_STICKY_EPITAPH_FULL = false → t.evr.epitaphs = [] ∧ t.get F.EVR_STAT_EPI_USED = 0) ∧
       regsKept [R.GLB_STICKY, R.EVR_STAT, R.EVR_NEXT, R.EVR_FLT] s t ∧
       onlyParts [.regs, .evr, .ccx, .svc, .sent] s t) ∧
  (∀ (s : State),
     unitLost s R.EVR_RD_DATA = false → unitAbsent s R.EVR_RD_DATA = false →
     exec (.indexPortRead .evrRd) s = .next ((evrRdAdvance s).answer (.value (evrRdWord s))) ∧
     (s.on F.EVR_RD_SEL_AUTOINC = true → s.get F.EVR_RD_SEL_WORD ≠ 15 →
         ((evrRdAdvance s).get F.EVR_RD_SEL_SLOT, (evrRdAdvance s).get F.EVR_RD_SEL_WORD) = (s.get F.EVR_RD_SEL_SLOT, s.get F.EVR_RD_SEL_WORD + 1))
       ∧
     (s.on F.EVR_RD_SEL_AUTOINC = true → s.get F.EVR_RD_SEL_WORD = 15 →
         ((evrRdAdvance s).get F.EVR_RD_SEL_SLOT, (evrRdAdvance s).get F.EVR_RD_SEL_WORD) = ((s.get F.EVR_RD_SEL_SLOT + 1) % 65536, 0)) ∧
     (s.on F.EVR_RD_SEL_AUTOINC = false → evrRdAdvance s = s) ∧
     regsKept [R.EVR_RD_SEL] s (evrRdAdvance s) ∧
     onlyParts [.regs] s (evrRdAdvance s)) ∧
  (∀ (s : State),
     unitLost s R.EVR_STD_DATA = false → unitAbsent s R.EVR_STD_DATA = false →
     exec (.indexPortRead .evrStd) s = .next ((evrStdAdvance s).answer (.value (evrStdWord s))) ∧
     (s.on F.EVR_STD_SEL_AUTOINC = true → (evrStdAdvance s).get F.EVR_STD_SEL_WORD = (s.get F.EVR_STD_SEL_WORD + 1) % 64) ∧
     (s.on F.EVR_STD_SEL_AUTOINC = false → evrStdAdvance s = s) ∧
     regsKept [R.EVR_STD_SEL] s (evrStdAdvance s) ∧
     onlyParts [.regs] s (evrStdAdvance s)) ∧
  (∀ (n : Lane) (s : State),
     unitLost s (R.MSn_US_DATA n) = false → unitAbsent s (R.MSn_US_DATA n) = false → laneBusy s (R.MSn_US_DATA n) = false →
     ∃ t : State, exec (.indexPortRead (.msStore n)) s = .next t ∧
       t.bus = .value (storeWordAt n s)) ∧
  (∀ (n : Lane) (s : State),
     unitLost s (R.SVn_COEF_DATA n) = false → unitAbsent s (R.SVn_COEF_DATA n) = false →
     ∃ t : State, exec (.indexPortRead (.svCoef n)) s = .next t ∧
       t.bus = .value (coefWord n s)) ∧
  (∀ (w : Word) (l : List Word) (s : State),
     s.svc.rx = w :: l →
     ∃ t : State, exec (.receiveWordPop .svc) s = .next t ∧
       t.bus = .value w ∧
       t.svc.rx = l ∧
       regsKept [] s t ∧
       onlyParts [.bus, .svc, .sent] s t) ∧
  (∀ (s : State),
     s.svc.rx = [] →
     exec (.receiveWordPop .svc) s = .next (s.answer (.value 0))) ∧
  (∀ (e : BitVec 128) (l : List (BitVec 128)) (s : State),
     s.accepts R.MOC_RX_DATA = true → s.moc.rx = e :: l →
     ∃ t : State, exec (.receiveWordPop .moc) s = .next t ∧
       t.bus = .value (e.extractLsb' (32 * s.moc.rxWord) 32) ∧
       (t.moc.rx, t.moc.rxWord) = (if s.moc.rxWord = 3 then (l, 0) else (e :: l, s.moc.rxWord + 1)) ∧
       regsKept [] s t ∧
       onlyParts [.bus, .moc] s t) ∧
  (∀ (s : State),
     s.accepts R.MOC_RX_DATA = true → s.moc.rx = [] →
     exec (.receiveWordPop .moc) s = .next (s.answer (.value 0)))

/-- R569, R571: a commit writes a staged delta into the entry's other slot, which becomes its value, and leaves none staged; a write that fails twice
sets WRITE_FAIL and TALLY_FAIL and the entry keeps its value; after POWER_FAIL nothing is committed; the firmware's commit does the same. R572: a
window closes once its end has come: it commits, starts new per-window counts, makes source 38 pending and sets the next end. R574, R575:
firmware raises counters from 256 and histograms from 32 by staged deltas, others are refused with FW_REJ; a temperature sample raises its bin
unless the chip is OFF. R576 to R578: a summary is its 252 bytes under the next GENERATION and their CRC-32C, for firmware, with BUSY and VALID,
or for the service port. R585: the service port's reads answer validity and values and check their arguments. -/
def Obligations.TallyAndStandingsAccount : Prop :=
  (∀ (bad : List Nat) (s : State),
     s.on F.GLB_MODE_COND_POWER_FAIL = true →
     exec (.tallyCommit bad) s = .next (s)) ∧
  (∀ (k : Nat) (d : Nat) (v : Bool × TSlot) (s : State),
     s.on F.GLB_MODE_COND_POWER_FAIL = false → s.tly.staged = [(k, d)] → tlyCurrent s.tly k = some v →
     ∃ t : State, exec (.tallyCommit []) s = .next t ∧
       (t.tly.staged, t.get F.TLY_STAT_STAGED) = ([], 0) ∧
       (v.1 = false → smGetD tslotNone k t.tly.slot1 = ⟨v.2.value + BitVec.ofNat 64 d, v.2.seq + 1, true⟩ ∧ t.tly.slot0 = s.tly.slot0) ∧
       (v.1 = true → smGetD tslotInit k t.tly.slot0 = ⟨v.2.value + BitVec.ofNat 64 d, v.2.seq + 1, true⟩ ∧ t.tly.slot1 = s.tly.slot1) ∧
       (∀ j : Nat, j ≠ k → tlyCurrent t.tly j = tlyCurrent s.tly j) ∧
       regsKept [R.TLY_STAT] s t ∧
       onlyParts [.regs, .tly] s t) ∧
  (∀ (k : Nat) (d : Nat) (v : Bool × TSlot) (s : State),
     s.on F.GLB_MODE_COND_POWER_FAIL = false → s.tly.staged = [(k, d)] → tlyCurrent s.tly k = some v →
     ∃ t : State, exec (.tallyCommit [k]) s = .next t ∧
       (t.tly.staged, t.get F.TLY_STAT_STAGED) = ([], 0) ∧
       (t.on F.TLY_FLT_WRITE_FAIL, t.on F.GLB_STICKY_TALLY_FAIL) = (true, true) ∧
       t.get F.TLY_CNT_WRITE_FAIL = min (s.get F.TLY_CNT_WRITE_FAIL + 1) (2 ^ F.TLY_CNT_WRITE_FAIL.width - 1) ∧
       tlyCurrent t.tly k = some v ∧
       onlyParts [.regs, .tly, .evr] s t) ∧
  (∀ (bad : List Nat) (t : State) (s : State),
     s.accepts R.TLY_CMD = true → exec (.tallyCommit bad) s = .next t →
     exec (.tallyCommitCommand bad) s = .next (t.answer .done)) ∧
  (∀ (bad : List Nat) (s : State),
     (s.pair R.TLY_WIN_END_LO R.TLY_WIN_END_HI).toNat ≤ s.now.toNat →
     ∃ t : State, exec (.tallyWindowClose bad) s = .next t ∧
       t.ccx.irq.getLsbD 38 = true ∧
       t.ccx.wayCe = s.ccx.wayCe.map (fun p => (p.1, 0, p.2.2)) ∧
       t.tly.winHours = tlyWin s ∧
       (t.pair R.TLY_WIN_END_LO R.TLY_WIN_END_HI) = BitVec.ofNat 64 ((s.now.toNat / (tlyWin s * hourUnits) + 1) * (tlyWin s * hourUnits)) ∧
       (s.on F.GLB_MODE_COND_POWER_FAIL = false → t.tly.staged = []) ∧
       onlyParts [.regs, .tly, .evr, .ccx] s t) ∧
  (∀ (bad : List Nat) (s : State),
     s.now.toNat < (s.pair R.TLY_WIN_END_LO R.TLY_WIN_END_HI).toNat →
     exec (.tallyWindowClose bad) s = .next s) ∧
  (∀ (w : Word) (s : State),
     s.accepts R.TLY_INC = true → 256 ≤ bitsOf w.toNat 25 16 →
     ∃ t : State, exec (.tallyInc w) s = .next (t.answer .done) ∧
       smGetD 0 (bitsOf w.toNat 25 16) t.tly.staged = smGetD 0 (bitsOf w.toNat 25 16) s.tly.staged + max 1 (bitsOf w.toNat 15 0) ∧
       (∀ j : Nat, j ≠ bitsOf w.toNat 25 16 → smGetD 0 j t.tly.staged = smGetD 0 j s.tly.staged) ∧
       regsKept [R.TLY_STAT] s t ∧
       onlyParts [.regs, .tly, .bus] s t) ∧
  (∀ (w : Word) (s : State),
     s.accepts R.TLY_INC = true → bitsOf w.toNat 25 16 < 256 →
     exec (.tallyInc w) s = .next ((s.flag F.TLY_FLT_FW_REJ).answer .done)) ∧
  (∀ (w : Word) (s : State),
     s.accepts R.TLY_HIST = true → 32 ≤ bitsOf w.toNat 22 16 →
     ∃ t : State, exec (.tallyHist w) s = .next (t.answer .done) ∧
       smGetD 0 (1024 + 32 * bitsOf w.toNat 22 16 + bitsOf w.toNat 4 0) t.tly.staged = smGetD 0
         (1024 + 32 * bitsOf w.toNat 22 16 + bitsOf w.toNat 4 0) s.tly.staged + 1 ∧
       (∀ j : Nat, j ≠ 1024 + 32 * bitsOf w.toNat 22 16 + bitsOf w.toNat 4 0 → smGetD 0 j t.tly.staged = smGetD 0 j s.tly.staged) ∧
       regsKept [R.TLY_STAT] s t ∧
       onlyParts [.regs, .tly, .bus] s t) ∧
  (∀ (w : Word) (s : State),
     s.accepts R.TLY_HIST = true → bitsOf w.toNat 22 16 < 32 →
     exec (.tallyHist w) s = .next ((s.flag F.TLY_FLT_FW_REJ).answer .done)) ∧
  (∀ (s : State),
     s.mode = Mode.off →
     exec .tallyTemperatureSample s = .next (s)) ∧
  (∀ (s : State),
     s.mode ≠ Mode.off →
     ∃ t : State, exec .tallyTemperatureSample s = .next t ∧
       smGetD 0 (1408 + min 31 (signed 8 (s.get F.PWR_TEMP_TJ) / 4).toNat) t.tly.staged = smGetD 0
         (1408 + min 31 (signed 8 (s.get F.PWR_TEMP_TJ) / 4).toNat) s.tly.staged + 1 ∧
       (∀ j : Nat, j ≠ 1408 + min 31 (signed 8 (s.get F.PWR_TEMP_TJ) / 4).toNat → smGetD 0 j t.tly.staged = smGetD 0 j s.tly.staged) ∧
       regsKept [R.TLY_STAT] s t ∧
       onlyParts [.regs, .tly] s t) ∧
  (∀ (w : Word) (s : State),
     s.accepts R.EVR_STD_REQ = true → w.getLsbD 0 = true →
     exec (.standingsRequest w) s = .next (((s.put F.EVR_STD_STAT_VALID 0).put F.EVR_STD_STAT_BUSY 1).answer .done)) ∧
  (∀ (w : Word) (s : State),
     s.accepts R.EVR_STD_REQ = true → w.getLsbD 0 = false →
     exec (.standingsRequest w) s = .next (s.answer .done)) ∧
  (∀ (s : State),
     s.on F.EVR_STD_STAT_BUSY = false →
     exec .standingsComplete s = .next (s)) ∧
  (∀ (s : State),
     s.on F.EVR_STD_STAT_BUSY = true →
     ∃ t : State, exec .standingsComplete s = .next t ∧
       t.on F.EVR_STD_STAT_BUSY = false ∧
       t.on F.EVR_STD_STAT_VALID = true ∧
       t.evr.generation = s.evr.generation + 1 ∧
       t.evr.summary.length = 256 ∧
       t.evr.summary = standingsBody (s.evr.generation.toNat + 1) 0 s ++ le 4 (crc32c (standingsBody (s.evr.generation.toNat + 1) 0 s)) ∧
       regsKept [R.EVR_STD_STAT] s t ∧
       onlyParts [.regs, .evr] s t) ∧
  (∀ (tag : BitVec 16) (s : State),
     exec (.standings tag) s = .next (({ s with evr := { s.evr with generation := BitVec.ofNat 64 (s.evr.generation.toNat + 1) } } : State).reply
         0x40 tag Status.ok (standingsBody (s.evr.generation.toNat + 1) 2 s ++ le 4 (crc32c (standingsBody (s.evr.generation.toNat + 1) 2 s)))) ∧
     (standingsBody (s.evr.generation.toNat + 1) 2 s).length = 252 ∧
     (standingsBody (s.evr.generation.toNat + 1) 2 s).take 8 = le 4 0x54534852 ++ le 2 1 ++ le 2 256) ∧
  (∀ (tag : BitVec 16) (f : BitVec 16) (n : BitVec 16) (s : State),
     n.toNat = 0 ∨ 256 < n.toNat ∨ 5120 < f.toNat + n.toNat →
     exec (.tallyRead tag f n) s = .next (s.reply 0x48 tag Status.badArg)) ∧
  (∀ (tag : BitVec 16) (f : BitVec 16) (n : BitVec 16) (s : State),
     1 ≤ n.toNat ∧ n.toNat ≤ 256 ∧ f.toNat + n.toNat ≤ 5120 →
     exec (.tallyRead tag f n) s = .next (s.reply 0x48 tag Status.ok (le 32 (tlyValidity s f.toNat n.toNat) ++ tlyValues s f.toNat n.toNat))) ∧
  (∀ (tag : BitVec 16) (h : BitVec 8) (s : State),
     128 ≤ h.toNat →
     exec (.histRead tag h) s = .next (s.reply 0x49 tag Status.badArg)) ∧
  (∀ (tag : BitVec 16) (h : BitVec 8) (s : State),
     h.toNat < 128 →
     exec (.histRead tag h) s = .next
       (s.reply 0x49 tag Status.ok (le 4 (tlyValidity s (1024 + 32 * h.toNat) 32) ++ tlyValues s (1024 + 32 * h.toNat) 32))) ∧
  (∀ (tag : BitVec 16) (s : State),
     exec (.tallyInfo tag) s = .next (s.reply 0x4A tag Status.ok (s.regBytes R.TLY_CFG ++ s.regBytes R.TLY_WIN_END_LO ++ s.regBytes R.TLY_WIN_END_HI
           ++ le 8 (tlyRead s 2).2.1.toNat ++ s.regBytes R.TLY_CNT)))

/-- R580, R581: a good frame is forwarded with HOPS one higher, its other fields and payload as they came and a right CRC, unless it is this node's
own, addressed to it, at the hop limit, or TIME from a higher SRC at a master; a bad one is counted and removed; any frame shows IN_ACTIVE, for
the 1,000 ticks held with it. R582: ENUM gives the node HOPS + 1 under AUTO_ID, but not the master. A MSG for the node enters the receive FIFO
with source 40 where it was empty, or is dropped with MOC_RX_OVF. R583, R584: TIME from the lowest SRC seen in the last 4 periods corrects ring
time by its time, its HOPS and the loop delay: by a slew of up to 100 units, else by a step; the master's own returned TIME gives it the loop
delay and node count; a lower SRC stops a master; the master sends TIME; the loss of TIME clears SYNC and ends the slew. A stopped or
higher-numbered master keeps its own time, which is the model's choice (log 43). R589: a message goes out once its header and the payload it
announces are complete, with this node as SRC. R585: RING_STATUS answers its registers. -/
def Obligations.MocelRingForwardsAndKeepsTime : Prop :=
  (∀ (f : MocFrame) (s : State),
     mocCrcOk f = false →
     exec (.frameForward f) s = .next
       (((((s.put F.MOC_STAT_IN_ACTIVE 1).onMoc (fun m => { m with inTicks := 1000 })).count F.MOC_CNT_CRC_ERR)).flag F.MOC_FLT_CRC)) ∧
  (∀ (f : MocFrame) (s : State),
     mocCrcOk f = true → mocSrc f = mocNode s ∨ (mocBcast f = false ∧ mocDst f = mocNode s) →
     exec (.frameForward f) s = .next ((s.put F.MOC_STAT_IN_ACTIVE 1).onMoc (fun m => { m with inTicks := 1000 }))) ∧
  (∀ (f : MocFrame) (s : State),
     mocCrcOk f = true → mocSrc f ≠ mocNode s → mocBcast f = true ∨ mocDst f ≠ mocNode s → mocHops f = 8191 →
     exec (.frameForward f) s = .next (((s.put F.MOC_STAT_IN_ACTIVE 1).onMoc (fun m => { m with inTicks := 1000 })).flag F.MOC_FLT_HOP_LIMIT)) ∧
  (∀ (f : MocFrame) (s : State),
     mocCrcOk f = true → mocSrc f ≠ mocNode s → mocBcast f = true ∨ mocDst f ≠ mocNode s → mocHops f ≠ 8191 →
     mocType f ≠ 1 ∨ s.on F.MOC_CTL_MASTER = false ∨ mocSrc f ≤ mocNode s →
     exec (.frameForward f) s = .next (((s.put F.MOC_STAT_IN_ACTIVE 1).onMoc (fun m => { m with inTicks := 1000 })).emit (.mocel (mocForwarded f)))
       ∧
     mocHops (mocForwarded f) = mocHops f + 1 ∧
     mocCrcOk (mocForwarded f) = true ∧
     (mocType (mocForwarded f), mocDst (mocForwarded f), mocSrc (mocForwarded f), mocBcast (mocForwarded f), mocArg (mocForwarded f)) =
       (mocType f, mocDst f, mocSrc f, mocBcast f, mocArg f) ∧
     (mocForwarded f).payload = f.payload) ∧
  (∀ (f : MocFrame) (s : State),
     mocCrcOk f = true → mocSrc f ≠ mocNode s → mocBcast f = true ∨ mocDst f ≠ mocNode s → mocHops f ≠ 8191 →
     mocType f = 1 ∧ s.on F.MOC_CTL_MASTER = true ∧ mocNode s < mocSrc f →
     exec (.frameForward f) s = .next ((s.put F.MOC_STAT_IN_ACTIVE 1).onMoc (fun m => { m with inTicks := 1000 }))) ∧
  (∀ (f : MocFrame) (s : State),
     mocCrcOk f = true → s.on F.MOC_CTL_ENABLE = true → s.on F.MOC_CTL_AUTO_ID = true → s.on F.MOC_CTL_MASTER = false →
     exec (.enumFrame f) s = .next (s.put F.MOC_STAT_NODE (mocHops f + 1))) ∧
  (∀ (f : MocFrame) (s : State),
     mocCrcOk f = false ∨ s.on F.MOC_CTL_ENABLE = false ∨ s.on F.MOC_CTL_AUTO_ID = false ∨ s.on F.MOC_CTL_MASTER = true →
     exec (.enumFrame f) s = .next (s)) ∧
  (∀ (f : MocFrame) (s : State),
     mocCrcOk f = true → s.on F.MOC_CTL_ENABLE = true → mocBcast f = true ∨ mocDst f = mocNode s → mocSrc f ≠ mocNode s →
     s.moc.rx.length + 1 + f.payload.length ≤ 64 →
     ∃ t : State, exec (.msg f) s = .next t ∧
       t.moc = { s.moc with rx := s.moc.rx ++ f.hdr :: f.payload } ∧
       (s.moc.rx = [] → t.ccx.irq.getLsbD 40 = true) ∧
       (s.moc.rx ≠ [] → t.ccx = s.ccx) ∧
       onlyParts [.moc, .ccx] s t) ∧
  (∀ (f : MocFrame) (s : State),
     mocCrcOk f = true → s.on F.MOC_CTL_ENABLE = true → mocBcast f = true ∨ mocDst f = mocNode s → mocSrc f ≠ mocNode s →
     64 < s.moc.rx.length + 1 + f.payload.length →
     exec (.msg f) s = .next (s.flag F.GLB_FIFO_OVF_MOC_RX_OVF)) ∧
  (∀ (f : MocFrame) (s : State),
     mocCrcOk f = false ∨ s.on F.MOC_CTL_ENABLE = false ∨ (mocBcast f = false ∧ mocDst f ≠ mocNode s) ∨ mocSrc f = mocNode s →
     exec (.msg f) s = .next s) ∧
  (∀ (f : MocFrame) (s : State),
     mocCrcOk f = false ∨ s.on F.MOC_CTL_ENABLE = false →
     exec (.time f) s = .next (s)) ∧
  (∀ (f : MocFrame) (t0 : Dword) (s : State),
     mocCrcOk f = true → s.on F.MOC_CTL_ENABLE = true → mocSrc f = mocNode s → s.on F.MOC_CTL_MASTER = true → s.moc.sentAt = some t0 →
     exec (.time f) s = .next ((s.put F.MOC_LOOP_L (s.now - t0).toNat).put F.MOC_MASTER_N (mocHops f + 1))) ∧
  (∀ (f : MocFrame) (s : State),
     mocCrcOk f = true → s.on F.MOC_CTL_ENABLE = true → s.on F.MOC_CTL_MASTER = true → mocSrc f < mocNode s →
     exec (.time f) s = .next
       ((({ s with moc := { s.moc with seen := smSet (mocSrc f) s.now (mocSeenNow s) } } : State).put F.MOC_STAT_MASTER_ACT 0).flag F.MOC_FLT_MULTI)) ∧
  (∀ (f : MocFrame) (s : State),
     mocCrcOk f = true → s.on F.MOC_CTL_ENABLE = true → s.on F.MOC_CTL_MASTER = true →
     mocNode s < mocSrc f ∨ (mocSrc f = mocNode s ∧ s.moc.sentAt = none) →
     ∃ t : State, exec (.time f) s = .next t ∧
       t.now = s.now ∧
       t.regs = s.regs ∧
       onlyParts [.moc] s t) ∧
  (∀ (f : MocFrame) (s : State),
     mocCrcOk f = true → s.on F.MOC_CTL_ENABLE = true → s.on F.MOC_CTL_MASTER = false → mocSeenNow s = [] →
     bitsOf (f.payload.headD 0).toNat 31 0 = 0 → (((mocArg f % 2 ^ 64 : Nat) : Int) - (s.now.toNat : Int)).natAbs ≤ 100 →
     ∃ t : State, exec (.time f) s = .next t ∧
       t.now = s.now ∧
       t.moc.slew = ((mocArg f % 2 ^ 64 : Nat) : Int) - (s.now.toNat : Int) ∧
       t.on F.MOC_STAT_SYNC = true ∧
       (t.get F.MOC_LOOP_L, t.get F.MOC_MASTER_N) = (0, bitsOf (f.payload.headD 0).toNat 44 32) ∧
       t.get F.MOC_MASTER_ID = mocSrc f % 2 ^ F.MOC_MASTER_ID.width ∧
       t.moc.seen = [(mocSrc f, s.now)] ∧
       regsKept [R.MOC_LOOP, R.MOC_MASTER, R.MOC_STAT] s t ∧
       onlyParts [.regs, .moc] s t) ∧
  (∀ (f : MocFrame) (s : State),
     mocCrcOk f = true → s.on F.MOC_CTL_ENABLE = true → s.on F.MOC_CTL_MASTER = false → mocSeenNow s = [] →
     bitsOf (f.payload.headD 0).toNat 31 0 = 0 → 100 < (((mocArg f % 2 ^ 64 : Nat) : Int) - (s.now.toNat : Int)).natAbs →
     ∃ t : State, exec (.time f) s = .next t ∧
       t.now = BitVec.ofNat 64 (mocArg f) ∧
       t.moc.slew = 0 ∧
       t.on F.MOC_FLT_STEP = true ∧
       t.on F.MOC_STAT_SYNC = true ∧
       t.get F.MOC_CNT_STEPS = min (s.get F.MOC_CNT_STEPS + 1) (2 ^ F.MOC_CNT_STEPS.width - 1) ∧
       onlyParts [.regs, .moc, .evr, .ccx] s t) ∧
  (∀ (f : MocFrame) (e : Nat) (s : State),
     mocCrcOk f = true → s.on F.MOC_CTL_ENABLE = true → s.on F.MOC_CTL_MASTER = false → mocSeenNow s = [] →
     bitsOf (f.payload.headD 0).toNat 31 0 ≠ 0 → bitsOf (f.payload.headD 0).toNat 44 32 ≠ 0 →
     e = mocArg f + (mocHops f + 1) * bitsOf (f.payload.headD 0).toNat 31 0 / bitsOf (f.payload.headD 0).toNat 44 32 →
     ∃ u : State, exec (.time f) s = .next (mocCorrect e u) ∧
       (u.now, u.on F.MOC_STAT_SYNC, u.moc.seen) = (s.now, true, [(mocSrc f, s.now)]) ∧
       (u.get F.MOC_LOOP_L, u.get F.MOC_MASTER_N) = (bitsOf (f.payload.headD 0).toNat 31 0, bitsOf (f.payload.headD 0).toNat 44 32) ∧
       onlyParts [.regs, .moc] s u) ∧
  (∀ (f : MocFrame) (l : Nat) (d : Dword) (r : SMap Dword) (s : State),
     mocCrcOk f = true → s.on F.MOC_CTL_ENABLE = true → s.on F.MOC_CTL_MASTER = false → mocSeenNow s = (l, d) :: r →
     l < mocSrc f ∧ smSorted ((l, d) :: r) = true →
     exec (.time f) s = .next ({ s with moc := { s.moc with seen := smSet (mocSrc f) s.now (mocSeenNow s) } })) ∧
  (∀ (e : Nat) (s : State),
     ((((e % 2 ^ 64 : Nat) : Int) - (s.now.toNat : Int)).natAbs ≤ 100 → mocCorrect e s =
         { s with moc := { s.moc with slew := ((e % 2 ^ 64 : Nat) : Int) - (s.now.toNat : Int) } }) ∧
     (100 < (((e % 2 ^ 64 : Nat) : Int) - (s.now.toNat : Int)).natAbs → (mocCorrect e s).now = BitVec.ofNat 64 e ∧ (mocCorrect e s).moc.slew = 0 ∧
         (mocCorrect e s).on F.MOC_FLT_STEP = true)) ∧
  (∀ (s : State),
     s.on F.MOC_CTL_ENABLE = true → s.on F.MOC_CTL_MASTER = true → (mocSeenNow s).all (fun p => decide (mocNode s ≤ p.1)) = true →
     ∃ t : State, exec .timeSend s = .next t ∧
       t.moc = { s.moc with sentAt := some s.now } ∧
       t.on F.MOC_STAT_MASTER_ACT = true ∧
       t.sent = s.sent ++
         [.mocel (mocBuild 1 0 (mocNode s) 0 true s.now.toNat [BitVec.ofNat 128 (s.get F.MOC_LOOP_L + s.get F.MOC_MASTER_N * 2 ^ 32)])] ∧
       regsKept [R.MOC_STAT] s t ∧
       onlyParts [.regs, .moc, .sent] s t) ∧
  (∀ (s : State),
     s.on F.MOC_CTL_ENABLE = false ∨ s.on F.MOC_CTL_MASTER = false ∨ (mocSeenNow s).any (fun p => decide (p.1 < mocNode s)) = true →
     exec .timeSend s = .next (s)) ∧
  (∀ (w : Word) (s : State),
     s.accepts R.MOC_CMD = true → w.getLsbD 0 = true → s.on F.MOC_CTL_MASTER = true → s.on F.MOC_CTL_ENABLE = true →
     exec (.enumCommand w) s = .next ((s.emit (.mocel (mocBuild 2 0 (mocNode s) 0 true 0 []))).answer .done)) ∧
  (∀ (w : Word) (s : State),
     s.accepts R.MOC_CMD = true → w.getLsbD 0 = false ∨ s.on F.MOC_CTL_MASTER = false ∨ s.on F.MOC_CTL_ENABLE = false →
     exec (.enumCommand w) s = .next (s.answer .done)) ∧
  (∀ (s : State),
     s.on F.MOC_CTL_ENABLE = false ∨ s.moc.tx.length < 4 →
     exec .msgSend s = .next (s)) ∧
  (∀ (a : Word) (b : Word) (c : Word) (d : Word) (l : List Word) (r : List Word) (f : MocFrame) (s : State),
     s.on F.MOC_CTL_ENABLE = true → s.moc.tx = a :: b :: c :: d :: (l ++ r) → f = ⟨mocEntry [a, b, c, d], []⟩ → l.length = 4 * mocLen f →
     ∃ t : State, exec .msgSend s = .next t ∧
       t.moc = { s.moc with tx := r } ∧
       t.sent = s.sent ++ [.mocel (mocBuild (mocType f) (mocDst f) (mocNode s) 0 (mocBcast f) (mocArg f) (mocEntries l))] ∧
       onlyParts [.moc, .sent] s t) ∧
  (∀ (a : Word) (b : Word) (c : Word) (d : Word) (l : List Word) (f : MocFrame) (s : State),
     s.moc.tx = a :: b :: c :: d :: l → f = ⟨mocEntry [a, b, c, d], []⟩ → l.length < 4 * mocLen f →
     exec .msgSend s = .next s) ∧
  (∀ (s : State),
     s.on F.MOC_STAT_SYNC = false →
     exec .syncLoss s = .next (s)) ∧
  (∀ (s : State),
     s.on F.MOC_STAT_SYNC = true →
     exec .syncLoss s = .next ({ (s.put F.MOC_STAT_SYNC 0).flag F.MOC_FLT_SYNC_LOST with moc := { s.moc with slew := 0 } })) ∧
  (∀ (tag : BitVec 16) (s : State),
     exec (.ringStatus tag) s = .next
       (s.reply 0x50 tag Status.ok (s.regBytes R.MOC_STAT ++ le 8 s.now.toNat ++ s.regBytes R.MOC_LOOP ++ s.regBytes R.MOC_MASTER)))

/-- R590, R591: a power-on reset puts every register at its reset value but the cause, holds the reset, and keeps what MRAM, flash and fuses keep;
its release shows the straps and the previous note, writes the note ARMED, and resumes each lane's patrol whose record stood. R592, R602: a
configuration reset is refused while POWER_FAIL is 1, while one is in progress, or unforced with dirty data, otherwise it is in progress with its
source until the heads are quiet or time ends; then the note is written and everything is cleared but what R591 keeps. R593, R633: a lane reset
is refused while one is in progress, the sequencer runs or a gate is open; an accepted one empties the lane and shows LANE_BUSY until it
completes and the accesses that waited are performed; a lane left out takes none. R598: CLEAN writes the note or is refused. R597, R627:
POWER_FAIL is set with the note written as far as the operand says, LOST or kept CLEAN. R599: BROWN_OUT brings a power-on reset after T16. -/
def Obligations.ResetsClearAndKeep : Prop :=
  (∀ (p : PorSource) (s : State),
     ∃ t : State, exec (.powerOnReset p) s = .next t ∧
       t.glb.porHeld = true ∧
       t.get F.GLB_RST_CAUSE_SOURCE = (if p = .supply then 0 else 1) ∧
       (∀ a : Nat, a ≠ R.GLB_RST_CAUSE → t.reg a = resetOf a) ∧
       t.buf.mem = [] ∧
       t.glb.note = s.glb.note ∧
       (t.trc.boot0, t.trc.boot1, t.trc.flash, t.trc.keyTab) = (s.trc.boot0, s.trc.boot1, s.trc.flash, s.trc.keyTab) ∧
       (t.trc.attest, t.trc.driveSecret, t.trc.certificate, t.trc.uds, t.trc.rootDigest) =
         (s.trc.attest, s.trc.driveSecret, s.trc.certificate, s.trc.uds, s.trc.rootDigest) ∧
       (t.tly.slot0, t.tly.slot1) = (s.tly.slot0, s.tly.slot1) ∧
       (t.evr.log, t.evr.epitaphs) = (s.evr.log, s.evr.epitaphs) ∧
       t.buf.lwl = s.buf.lwl ∧
       t.key.recs = s.key.recs) ∧
  (∀ (a : Bool) (b : Bool) (c : Bool) (r : RecorderScan) (s : State),
     s.glb.porHeld = false →
     exec (.porRelease a b c r) s = .next (s)) ∧
  (∀ (a : Bool) (b : Bool) (c : Bool) (r : RecorderScan) (s : State),
     s.glb.porHeld = true →
     ∃ t : State, exec (.porRelease a b c r) s = .next t ∧
       t.glb.porHeld = false ∧
       t.glb.note.crcOk = true ∧
       t.on F.GLB_STRAP_PAIR_ID = a ∧
       t.on F.GLB_STRAP_TESTEN = b ∧
       t.glb.note.state = .armed ∧
       t.get F.GLB_RST_STAT_NOTE = 1 ∧
       t.get F.GLB_RST_STAT_PREV_NOTE = noteCode (if c = true ∧ s.glb.note.crcOk = true then s.glb.note.state else .lost) ∧
       t.bnd.patrol = Vector.ofFn (fun (n : Lane) => if r.upkeep.getLsbD n then s.bnd.patrol.get n else Patrol.reset) ∧
       (t.evr.log, t.evr.epitaphs, t.evr.queue, t.evr.header0, t.evr.header1) = (s.evr.log, s.evr.epitaphs, [], s.evr.header0, s.evr.header1) ∧
       onlyParts [.regs, .glb, .evr, .tly, .ccx, .bnd] s t) ∧
  (∀ (w : Req) (d : Word) (s : State),
     d.getLsbD 0 = true → d.getLsbD 2 = false → ((∀ n : Lane, d.getLsbD (4 + n) = false)) →
     s.on F.GLB_MODE_COND_POWER_FAIL = true ∨ s.glb.cfgReset ≠ .none ∨ (d.getLsbD 1 = false ∧ cleanNow s = false) →
     ∃ u : State, exec (.configReset w d) s = .next (((u.settle).answer .done)) ∧
       u.on F.GLB_RST_STAT_REJ = true ∧
       u.glb.cfgReset = s.glb.cfgReset) ∧
  (∀ (w : Req) (d : Word) (s : State),
     d.getLsbD 0 = true → d.getLsbD 2 = false → ((∀ n : Lane, d.getLsbD (4 + n) = false)) → s.on F.GLB_MODE_COND_POWER_FAIL = false →
     s.glb.cfgReset = .none → d.getLsbD 1 = true ∨ cleanNow s = true →
     ∃ u : State, exec (.configReset w d) s = .next (((u.settle).answer .done)) ∧
       u.glb.cfgReset = .waiting (s.buf.cache.any (fun e => e.2.dirty)) ∧
       u.get F.GLB_RST_CAUSE_KIND = 1 ∧
       u.get F.GLB_RST_CAUSE_SOURCE = (if w = .service then 1 else 0)) ∧
  (∀ (b : Bool) (r : RecorderScan) (s : State),
     s.glb.cfgReset = .none →
     exec (.configResetRelease b r) s = .next (s)) ∧
  (∀ (r : RecorderScan) (s : State),
     s.glb.cfgReset ≠ .none → allQuiet s = false →
     exec (.configResetRelease false r) s = .next (s)) ∧
  (∀ (b : Bool) (d : Bool) (r : RecorderScan) (s : State),
     s.glb.cfgReset = .waiting d → allQuiet s = true ∨ b = true →
     ∃ t : State, exec (.configResetRelease b r) s = .next t ∧
       t.glb.cfgReset = .none ∧
       t.glb.note.state = .armed ∧
       t.get F.GLB_RST_STAT_PREV_NOTE = (if d then 4 else 2) ∧
       t.moc = s.moc ∧
       t.now = s.now ∧
       t.reg R.GLB_STRAP = s.reg R.GLB_STRAP ∧
       t.get F.PWR_TEMP_TJ_MAX = s.get F.PWR_TEMP_TJ_MAX ∧
       t.rly.acct = s.rly.acct ∧
       (t.buf.cache, t.buf.mem, t.qe.slots) = ([], [], []) ∧
       (t.trc.derived, t.trc.fuseLocked, t.trc.trngRefused) = (s.trc.derived, s.trc.fuseLocked, s.trc.trngRefused) ∧
       (t.trc.boot0, t.trc.boot1, t.trc.flash, t.trc.keyTab) = (s.trc.boot0, s.trc.boot1, s.trc.flash, s.trc.keyTab) ∧
       (t.trc.attest, t.trc.driveSecret, t.trc.certificate, t.trc.uds, t.trc.rootDigest) =
         (s.trc.attest, s.trc.driveSecret, s.trc.certificate, s.trc.uds, s.trc.rootDigest) ∧
       (t.evr.log, t.evr.epitaphs) = (s.evr.log, s.evr.epitaphs) ∧
       (t.tly.slot0, t.tly.slot1) = (s.tly.slot0, s.tly.slot1) ∧
       t.bnd.patrol = Vector.ofFn (fun (n : Lane) => if r.upkeep.getLsbD n then { s.bnd.patrol.get n with queue := [] } else Patrol.reset) ∧
       t.buf.lwl = s.buf.lwl ∧
       t.key.recs = s.key.recs) ∧
  (∀ (n : Lane) (s : State),
     s.glb.cfgReset = .none → laneIncluded s n = true → seqState s n = Seq.halted ∨ seqState s n = Seq.faulted → gateOpen s n = false →
     (s.ln n).vgate = none → s.get ((F.GLB_RST_STAT_LANE_BUSY).bit n) = 0 →
     ∃ u : State, exec (.laneReset (1#32 <<< (4 + n.val))) s = .next (((u.settle).answer .done)) ∧
       u.get ((F.GLB_RST_STAT_LANE_BUSY).bit n) = 1 ∧
       u.get ((F.GLB_RST_CAUSE_LANES).bit n) = 1 ∧
       seqState u n = Seq.halted ∧
       ((u.ms n).cmd, (u.ms n).events) = ([], []) ∧
       ((u.ln n).gateQ, (u.ln n).setQ, (u.ln n).wfifo, (u.ln n).ladder) = ([], [], [], none)) ∧
  (∀ (n : Lane) (s : State),
     s.glb.cfgReset = .none → laneIncluded s n = true →
     (seqState s n ≠ Seq.halted ∧ seqState s n ≠ Seq.faulted) ∨ gateOpen s n = true ∨ (s.ln n).vgate ≠ none ∨ s.get
       ((F.GLB_RST_STAT_LANE_BUSY).bit n) = 1 →
     ∃ u : State, exec (.laneReset (1#32 <<< (4 + n.val))) s = .next (((u.settle).answer .done)) ∧
       u.on F.GLB_RST_STAT_REJ = true ∧
       regsKept [R.GLB_RST_STAT] s u ∧
       onlyParts [.regs] s u) ∧
  (∀ (n : Lane) (s : State),
     s.glb.cfgReset ≠ .none →
     ∃ u : State, exec (.laneReset (1#32 <<< (4 + n.val))) s = .next (((u.settle).answer .done)) ∧
       u.on F.GLB_RST_STAT_REJ = true ∧
       regsKept [R.GLB_RST_STAT] s u ∧
       onlyParts [.regs] s u) ∧
  (∀ (n : Lane) (s : State),
     s.glb.cfgReset = .none → laneIncluded s n = false →
     exec (.laneReset (1#32 <<< (4 + n.val))) s = .next ((s.settle).answer .done)) ∧
  (∀ (n : Lane) (s : State),
     s.get ((F.GLB_RST_STAT_LANE_BUSY).bit n) = 0 →
     exec (.laneResetComplete n) s = .next (s)) ∧
  (∀ (n : Lane) (s : State),
     s.get ((F.GLB_RST_STAT_LANE_BUSY).bit n) = 1 → s.glb.waiting.all (fun a => decide (a.lane ≠ n)) = true →
     ∃ t : State, exec (.laneResetComplete n) s = .next t ∧
       t.get ((F.GLB_RST_STAT_LANE_BUSY).bit n) = 0 ∧
       t.glb.waiting = s.glb.waiting ∧
       (s.get (F.LNn_BAUD_M_M n) ≠ 0 → t.get (F.LNn_STAT_PLL_LOCK n) = 1) ∧
       regsKept [R.GLB_RST_STAT, R.LNn_STAT n] s t) ∧
  (∀ (n : Lane) (l : List LaneAccess) (s : State),
     s.get ((F.GLB_RST_STAT_LANE_BUSY).bit n) = 1 → s.glb.waiting.filter (fun a => decide (a.lane = n)) = l →
     ∃ u : State, exec (.laneResetComplete n) s = .next (forEach l performWaiting u) ∧
       u.get ((F.GLB_RST_STAT_LANE_BUSY).bit n) = 0 ∧
       u.glb.waiting = s.glb.waiting.filter (fun a => !decide (a.lane = n)) ∧
       regsKept [R.GLB_RST_STAT, R.LNn_STAT n] s u ∧
       onlyParts [.regs, .glb] s u) ∧
  (∀ (s : State),
     s.on F.GLB_MODE_COND_POWER_FAIL = false → cleanNow s = true →
     ∃ u : State, exec (.clean 4) s = .next (((u.settle).answer .done)) ∧
       u.glb.note.state = .clean ∧
       u.get F.GLB_RST_STAT_NOTE = 2) ∧
  (∀ (s : State),
     s.on F.GLB_MODE_COND_POWER_FAIL = true ∨ cleanNow s = false →
     ∃ u : State, exec (.clean 4) s = .next (((u.settle).answer .done)) ∧
       u.on F.GLB_RST_STAT_REJ = true ∧
       u.glb.note = s.glb.note) ∧
  (∀ (c : PowerCause) (b : NoteWrite) (s : State),
     c = ⟨false, false, false⟩ ∨ s.on F.GLB_MODE_COND_POWER_FAIL = true →
     exec (.powerFail c b) s = .next (s)) ∧
  (∀ (c : PowerCause) (b : NoteWrite) (s : State),
     c ≠ ⟨false, false, false⟩ → s.on F.GLB_MODE_COND_POWER_FAIL = false →
     ∃ u : State, exec (.powerFail c b) s = .next u.settle ∧
       u.on F.GLB_MODE_COND_POWER_FAIL = true ∧
       u.glb.cfgReset = .none ∧
       (b = .notBegun → u.glb.note = s.glb.note ∧ u.bnd.noteOk = s.bnd.noteOk) ∧
       (b ≠ .notBegun → u.bnd.noteOk = (b == .made)) ∧
       (b = .made → u.glb.note.crcOk = true) ∧
       (b ≠ .notBegun → s.glb.note.state ≠ .clean → u.glb.note.state = .lost) ∧
       (s.glb.note.state = .clean → u.glb.note.state = .clean) ∧
       (b ≠ .notBegun → s.glb.note.state ≠ .clean → u.glb.note.cause = BitVec.ofNat 8 (b2n c.pin + 2 * b2n c.rail + 4 * b2n c.supply)) ∧
       (u.trc, u.tly.slot0, u.qe.slots, u.buf.lwl, u.key) = (s.trc, s.tly.slot0, s.qe.slots, s.buf.lwl, s.key)) ∧
  (∀ (s : State),
     s.glb.offByT16 = false →
     exec .brownOut s = .next (s)) ∧
  (∀ (s : State),
     s.glb.offByT16 = true →
     ∃ t : State, exec .brownOut s = .next t ∧
       t.glb.porHeld = true ∧
       t.get F.GLB_RST_CAUSE_SOURCE = 2 ∧
       t.glb.note = s.glb.note ∧
       (t.trc.boot0, t.trc.boot1, t.trc.flash, t.trc.keyTab) = (s.trc.boot0, s.trc.boot1, s.trc.flash, s.trc.keyTab) ∧
       (t.trc.attest, t.trc.driveSecret, t.trc.certificate, t.trc.uds, t.trc.rootDigest) =
         (s.trc.attest, s.trc.driveSecret, s.trc.certificate, s.trc.uds, s.trc.rootDigest) ∧
       (t.tly.slot0, t.tly.slot1) = (s.tly.slot0, s.tly.slot1) ∧
       (t.evr.log, t.evr.epitaphs) = (s.evr.log, s.evr.epitaphs) ∧
       t.buf.lwl = s.buf.lwl ∧
       t.key.recs = s.key.recs)

/-- R41, R42: an included unit that passes its self-test becomes present, one that fails or fails later is lost, with SET_LOST or UNIT_LOST; a unit
left out of the image, or lost before, stays as it is. R263: an overdue checkpoint holds media writes. R332: a trained link, within the port's
speed and width, shows them; otherwise nothing changes. R351: an error of a reached port sets its bit of HIFn_ERR, is counted, and is reported
under AER unless masked. R366, R375: a completion timeout and an Unsupported Request completion fail the command with Data Transfer Error where
its data has not been admitted or fetched. R325 to R327, R333: a request of a host to a function that exists, through a port whose link is up,
reads its configuration space, capabilities and registers, which a function that does not carry a field reads as zero, and writes what it may:
NumVFs only while VFs are not enabled and up to TotalVFs, with the VFs reset when they are no longer enabled; pending MSI-X messages leave once
no mask holds them. The layout that PCI Express fixes is presumed (log 41). -/
def Obligations.UnitsLinksAndPortsReport : Prop :=
  (∀ (x : UnitId) (b : Bool) (s : State),
     s.on F.CFG_LOAD_STAT_DONE = false →
     exec (.unitSelfTestDone x b) s = .next (s)) ∧
  (∀ (x : UnitId) (s : State),
     s.on F.CFG_LOAD_STAT_DONE = true → x.reg1 = true → (included1 s).testBit x.bit = true → s.glb.lost1.getLsbD x.bit = false →
     exec (.unitSelfTestDone x true) s = .next ((s.setReg R.GLB_UNIT_OK1 (s.reg R.GLB_UNIT_OK1 ||| (1#32 <<< x.bit.val))).settle)) ∧
  (∀ (x : UnitId) (s : State),
     s.on F.CFG_LOAD_STAT_DONE = true → x.reg1 = false → (included0 s).testBit x.bit = true → s.glb.lost0.getLsbD x.bit = false →
     x.bit < 8 ∨ 28 ≤ x.bit →
     exec (.unitSelfTestDone x true) s = .next ((s.setReg R.GLB_UNIT_OK0 (s.reg R.GLB_UNIT_OK0 ||| (1#32 <<< x.bit.val))).settle)) ∧
  (∀ (x : UnitId) (s : State),
     s.on F.CFG_LOAD_STAT_DONE = true → x.reg1 = true → (included1 s).testBit x.bit = true → s.glb.lost1.getLsbD x.bit = false →
     exec (.unitSelfTestDone x false) s = .next (s.loseUnit1 x.bit)) ∧
  (∀ (x : UnitId) (s : State),
     s.on F.CFG_LOAD_STAT_DONE = true → x.reg1 = false → (included0 s).testBit x.bit = true → s.glb.lost0.getLsbD x.bit = false →
     x.bit < 8 ∨ x.bit = 10 ∨ x.bit = 11 ∨ 28 ≤ x.bit →
     exec (.unitSelfTestDone x false) s = .next (s.loseUnit0 x.bit)) ∧
  (∀ (b : Nat) (s : State),
     (included0 s).testBit b = true → s.glb.lost0.getLsbD b = false → b < 8 ∨ 28 ≤ b → b < 32 →
     ∃ u : State, s.loseUnit0 b = u.settle ∧
       u.glb = { s.glb with lost0 := s.glb.lost0 ||| BitVec.ofNat 32 (2 ^ b) } ∧
       (u.reg R.GLB_UNIT_OK0) = s.reg R.GLB_UNIT_OK0 &&& ~~~(BitVec.ofNat 32 (2 ^ b)) ∧
       (dataSetLost (2 ^ b) 0 s = true → u.on F.GLB_MODE_COND_SET_LOST = true) ∧
       (dataSetLost (2 ^ b) 0 s = false → u.on F.GLB_MODE_COND_UNIT_LOST = true) ∧
       onlyParts [.regs, .glb, .evr, .ccx] s u) ∧
  (∀ (x : UnitId) (b : Bool) (s : State),
     s.on F.CFG_LOAD_STAT_DONE = true → x.reg1 = false → (included0 s).testBit x.bit = false ∨ s.glb.lost0.getLsbD x.bit = true →
     exec (.unitSelfTestDone x b) s = .next (s)) ∧
  (∀ (x : UnitId) (s : State),
     x.reg1 = false → (s.reg R.GLB_UNIT_OK0).getLsbD x.bit = false →
     exec (.unitFailure x) s = .next (s)) ∧
  (∀ (x : UnitId) (s : State),
     x.reg1 = false → (s.reg R.GLB_UNIT_OK0).getLsbD x.bit = true → x.bit = 8 ∨ x.bit = 30 ∨ x.bit = 31 → s.glb.lost0.getLsbD x.bit = false →
     (included0 s).testBit x.bit = true →
     ∃ u : State, exec (.unitFailure x) s = .next u.settle ∧
       (u.reg R.GLB_UNIT_OK0).getLsbD x.bit = false ∧
       u.glb.lost0.getLsbD x.bit = true ∧
       (u.on F.GLB_MODE_COND_SET_LOST = true ∨ u.on F.GLB_MODE_COND_UNIT_LOST = true)) ∧
  (∀ (x : UnitId) (s : State),
     x.reg1 = true → (s.reg R.GLB_UNIT_OK1).getLsbD x.bit = true → x.bit ≠ 0 → x.bit ≠ 6 → x.bit ≠ 7 →
     exec (.unitFailure x) s = .next (s.loseUnit1 x.bit)) ∧
  (∀ (s : State),
     bndRuns s = true → s.bnd.built = true →
     ∃ u : State, exec .checkpointOverdue s = .next (u.settle) ∧
       u.on F.BND_JNL_STAT_HELD = true) ∧
  (∀ (k : Nat) (x : Slot) (s : State),
     s.slot k = some x → x.result = none → x.dropped = false → x.admitted = false → x.fetched = false →
     ∃ u : State, exec (.completionTimeout k) s = .next u.settle ∧
       (u.resultOf k).map (fun r => r.status) = some .dataTransfer ∧
       u.on (F.HIFn_ERR_CPL_TO (portOf x.fn)) = true ∧
       (u.pci x.fn).unc = (s.pci x.fn).unc ||| 0x4000 ∧
       u.get (F.HIFn_ERR_CNT_UNCORR (portOf x.fn)) = min (s.get (F.HIFn_ERR_CNT_UNCORR (portOf x.fn)) + 1)
         (2 ^ (F.HIFn_ERR_CNT_UNCORR (portOf x.fn)).width - 1)) ∧
  (∀ (k : Nat) (x : Slot) (s : State),
     s.slot k = some x → x.result.isSome = true →
     exec (.completionTimeout k) s = .next s) ∧
  (∀ (k : Nat) (s : State),
     s.slot k = none →
     exec (.completionTimeout k) s = .next (s)) ∧
  (∀ (p : Fin 2) (e : TlpError) (s : State),
     portReached s p = false →
     exec (.tlpErrorReceived p e) s = .next (s)) ∧
  (∀ (p : Fin 2) (s : State),
     portReached s p = true →
     ∃ t : State, exec (.tlpErrorReceived p .badTlp) s = .next t ∧
       t.on (F.HIFn_ERR_BAD_TLP p) = true ∧
       t.get (F.HIFn_ERR_CNT_CORR p) = min (s.get (F.HIFn_ERR_CNT_CORR p) + 1) (2 ^ (F.HIFn_ERR_CNT_CORR p).width - 1) ∧
       (t.pci (64 * p.val)).cor = (s.pci (64 * p.val)).cor ||| 0x40 ∧
       t.sent = s.sent ++ (if ((s.pci (64 * p.val)).corMask &&& 0x40) = 0 then [.aerMessage (64 * p.val) true] else []) ∧
       onlyParts [.regs, .evr, .ccx, .qe, .sent] s t) ∧
  (∀ (p : Fin 2) (s : State),
     portReached s p = true →
     ∃ t : State, exec (.tlpErrorReceived p .badDllp) s = .next t ∧
       t.on (F.HIFn_ERR_BAD_DLLP p) = true ∧
       t.get (F.HIFn_ERR_CNT_CORR p) = min (s.get (F.HIFn_ERR_CNT_CORR p) + 1) (2 ^ (F.HIFn_ERR_CNT_CORR p).width - 1) ∧
       (t.pci (64 * p.val)).cor = (s.pci (64 * p.val)).cor ||| 0x80 ∧
       t.sent = s.sent ++ (if ((s.pci (64 * p.val)).corMask &&& 0x80) = 0 then [.aerMessage (64 * p.val) true] else []) ∧
       onlyParts [.regs, .evr, .ccx, .qe, .sent] s t) ∧
  (∀ (p : Fin 2) (s : State),
     portReached s p = true →
     ∃ t : State, exec (.tlpErrorReceived p .replayRoll) s = .next t ∧
       t.on (F.HIFn_ERR_REPLAY_ROLL p) = true ∧
       t.get (F.HIFn_ERR_CNT_CORR p) = min (s.get (F.HIFn_ERR_CNT_CORR p) + 1) (2 ^ (F.HIFn_ERR_CNT_CORR p).width - 1) ∧
       (t.pci (64 * p.val)).cor = (s.pci (64 * p.val)).cor ||| 0x100 ∧
       t.sent = s.sent ++ (if ((s.pci (64 * p.val)).corMask &&& 0x100) = 0 then [.aerMessage (64 * p.val) true] else []) ∧
       onlyParts [.regs, .evr, .ccx, .qe, .sent] s t) ∧
  (∀ (p : Fin 2) (s : State),
     portReached s p = true →
     ∃ t : State, exec (.tlpErrorReceived p .malformed) s = .next t ∧
       t.on (F.HIFn_ERR_MALFORMED p) = true ∧
       t.get (F.HIFn_ERR_CNT_UNCORR p) = min (s.get (F.HIFn_ERR_CNT_UNCORR p) + 1) (2 ^ (F.HIFn_ERR_CNT_UNCORR p).width - 1) ∧
       (t.pci (64 * p.val)).unc = (s.pci (64 * p.val)).unc ||| 0x40000 ∧
       t.sent = s.sent ++ (if ((s.pci (64 * p.val)).uncMask &&& 0x40000) = 0 then [.aerMessage (64 * p.val) false] else []) ∧
       onlyParts [.regs, .evr, .ccx, .qe, .sent] s t) ∧
  (∀ (p : Fin 2) (s : State),
     portReached s p = true →
     ∃ t : State, exec (.tlpErrorReceived p .unsupported) s = .next t ∧
       t.on (F.HIFn_ERR_UR_RX p) = true ∧
       t.get (F.HIFn_ERR_CNT_UNCORR p) = min (s.get (F.HIFn_ERR_CNT_UNCORR p) + 1) (2 ^ (F.HIFn_ERR_CNT_UNCORR p).width - 1) ∧
       (t.pci (64 * p.val)).unc = (s.pci (64 * p.val)).unc ||| 0x100000 ∧
       t.sent = s.sent ++ (if ((s.pci (64 * p.val)).uncMask &&& 0x100000) = 0 then [.aerMessage (64 * p.val) false] else []) ∧
       onlyParts [.regs, .evr, .ccx, .qe, .sent] s t) ∧
  (∀ (p : Fin 2) (k : Nat) (x : Slot) (s : State),
     portReached s p = true → s.slot k = some x → x.result = none ∧ x.dropped = false ∧ x.admitted = false ∧ x.fetched = false →
     ∃ u : State, exec (.tlpErrorReceived p (.unsupportedCompletion k)) s = .next u.settle ∧
       (u.resultOf k).map (fun r => r.status) = some .dataTransfer) ∧
  (∀ (p : Fin 2) (k : Nat) (s : State),
     portReached s p = true → s.slot k = none →
     exec (.tlpErrorReceived p (.unsupportedCompletion k)) s = .next s.settle) ∧
  (∀ (p : Fin 2) (v : Nat) (w : Nat) (s : State),
     portPresent s p = true → s.on (F.HIFn_CTL_TRAIN_EN p) = true → s.mode ≠ Mode.off → s.on (F.HIFn_LINK_STAT_DL_UP p) = false →
     1 ≤ v ∧ v ≤ max 1 (min 5 (s.get (F.HIFn_CTL_MAX_SPEED p))) → w = 1 ∨ w = 2 ∨ w = 4 → w ≤ portWidth s p →
     ∃ t : State, exec (.linkUp p v w) s = .next t ∧
       t.on (F.HIFn_LINK_STAT_DL_UP p) = true ∧
       t.get (F.HIFn_LINK_STAT_SPEED p) = v ∧
       t.get (F.HIFn_LINK_STAT_WIDTH p) = w ∧
       regsKept [R.HIFn_LINK_STAT p] s t ∧
       onlyParts [.regs] s t) ∧
  (∀ (p : Fin 2) (v : Nat) (w : Nat) (s : State),
     portPresent s p = false ∨ s.on (F.HIFn_CTL_TRAIN_EN p) = false ∨ s.mode = Mode.off ∨ s.on (F.HIFn_LINK_STAT_DL_UP p) = true →
     exec (.linkUp p v w) s = .next (s)) ∧
  (∀ (p : Fin 2) (v : Nat) (w : Nat) (s : State),
     v = 0 ∨ max 1 (min 5 (s.get (F.HIFn_CTL_MAX_SPEED p))) < v ∨ (w ≠ 1 ∧ w ≠ 2 ∧ w ≠ 4) ∨ portWidth s p < w →
     exec (.linkUp p v w) s = .next (s)) ∧
  (∀ (fn : Fin 128) (r : CfgReq) (s : State),
     (portReached s (portOf fn) && functionExists s fn) = false →
     exec (.configurationRequest fn r) s = .next (s)) ∧
  (∀ (fn : Fin 128) (f : CfgField) (c : PciCap) (r : Bar0Reg) (s : State),
     (portReached s (portOf fn) && functionExists s fn) = true →
     exec (.configurationRequest fn (.read f)) s = .next (s.emit (.cfgData fn (cfgRead s fn f))).settle ∧
     exec (.configurationRequest fn (.capability c)) s = .next (s.emit (.cfgData fn (b2n (capPresent fn c)))).settle ∧
     exec (.configurationRequest fn (.register r)) s = .next (s.emit (.cfgData fn (bar0Read s fn r))).settle) ∧
  (∀ (fn : Nat) (f : CfgField) (v : Nat) (s : State),
     (hasField fn f = false → cfgRead s fn f = 0 ∧ cfgWrite fn f v s = s) ∧
     (cfgRead s fn .classCode, cfgRead s fn .barSize) = (0x010802, if isPf fn then 65536 else 16384) ∧
     (cfgRead s fn .msixSize, cfgRead s fn .maxPayloadSupported, cfgRead s fn .tag10Supported, cfgRead s fn .timeoutRanges) =
       (viOf s fn, 2, 1, 0x0E) ∧
     (isPf fn = true → (cfgRead s fn .totalVfs, cfgRead s fn .vfOffset, cfgRead s fn .vfStride, cfgRead s fn .serialNumber) =
         (totalVfs s (portOf fn), 1, 1, (deviceId s.trc.uds).toNat % 2 ^ 64))) ∧
  (∀ (fn : Fin 128) (v : Nat) (s : State),
     (portReached s (portOf fn) && functionExists s fn) = true →
     exec (.configurationRequest fn (.write .maxPayload v)) s = .next (s.onPci fn (fun p => { p with mps := min 2 (v % 8) })).settle ∧
     exec (.configurationRequest fn (.write .maxReadRequest v)) s = .next (s.onPci fn (fun p => { p with mrrs := min 5 (v % 8) })).settle ∧
     exec (.configurationRequest fn (.write .tag10Enable v)) s = .next (s.onPci fn (fun p => { p with tag10 := v % 2 = 1 })).settle ∧
     exec (.configurationRequest fn (.write .timeoutValue v)) s = .next (s.onPci fn (fun p => { p with timeout := v % 16 })).settle ∧
     exec (.configurationRequest fn (.write .msixEnable v)) s = .next (msixRelease fn (s.onPci fn (fun p => { p with msixEn := v % 2 = 1 }))).settle
       ∧
     exec (.configurationRequest fn (.write .msixFunctionMask v)) s = .next
       (msixRelease fn (s.onPci fn (fun p => { p with msixMask := v % 2 = 1 }))).settle ∧
     exec (.configurationRequest fn (.write .aerUncStatus v)) s = .next
       (s.onPci fn (fun p => { p with unc := p.unc &&& ~~~(BitVec.ofNat 32 v) })).settle ∧
     exec (.configurationRequest fn (.write .aerCorStatus v)) s = .next
       (s.onPci fn (fun p => { p with cor := p.cor &&& ~~~(BitVec.ofNat 32 v) })).settle) ∧
  (∀ (fn : Fin 128) (v : Nat) (s : State),
     (portReached s (portOf fn) && functionExists s fn) = true → isPf fn = true → v % 4 = 0 ∨ v % 4 = 3 →
     exec (.configurationRequest fn (.write .powerState v)) s = .next (s.onPci fn (fun p => { p with d3hot := v % 4 = 3 })).settle) ∧
  (∀ (fn : Fin 128) (v : Nat) (s : State),
     (portReached s (portOf fn) && functionExists s fn) = true → isPf fn = true → v % 4 = 1 ∨ v % 4 = 2 →
     exec (.configurationRequest fn (.write .powerState v)) s = .next s.settle) ∧
  (∀ (fn : Fin 128) (v : Nat) (s : State),
     (portReached s (portOf fn) && functionExists s fn) = true → isPf fn = true → s.on (F.HIFn_FN_STAT_VF_EN (portOf fn)) = false →
     v ≤ totalVfs s (portOf fn) →
     exec (.configurationRequest fn (.write .numVfs v)) s = .next (s.put (F.HIFn_FN_STAT_NUMVF (portOf fn)) v).settle) ∧
  (∀ (fn : Fin 128) (v : Nat) (s : State),
     (portReached s (portOf fn) && functionExists s fn) = true → isPf fn = true →
     s.on (F.HIFn_FN_STAT_VF_EN (portOf fn)) = true ∨ totalVfs s (portOf fn) < v →
     exec (.configurationRequest fn (.write .numVfs v)) s = .next s.settle) ∧
  (∀ (fn : Fin 128) (v : Nat) (s : State),
     (portReached s (portOf fn) && functionExists s fn) = true → isPf fn = true → v % 2 = 1 →
     exec (.configurationRequest fn (.write .vfEnable v)) s = .next (s.put (F.HIFn_FN_STAT_VF_EN (portOf fn)) 1).settle) ∧
  (∀ (fn : Fin 128) (v : Nat) (s : State),
     (portReached s (portOf fn) && functionExists s fn) = true → isPf fn = true → v % 2 = 0 →
     exec (.configurationRequest fn (.write .vfEnable v)) s = .next
       (forEach ((portFns (portOf fn)).filter (fun f => !isPf f)) resetFunction (s.put (F.HIFn_FN_STAT_VF_EN (portOf fn)) 0)).settle) ∧
  (∀ (fn : Fin 128) (k : Nat) (m : Bool) (s : State),
     (portReached s (portOf fn) && functionExists s fn) = true → viOf s fn ≤ k →
     exec (.configurationRequest fn (.vectorMask k m)) s = .next s.settle) ∧
  (∀ (fn : Fin 128) (k : Nat) (m : Bool) (s : State),
     (portReached s (portOf fn) && functionExists s fn) = true → k < viOf s fn →
     exec (.configurationRequest fn (.vectorMask k m)) s = .next
       (msixRelease fn (s.onPci fn (fun p => { p with unmasked := p.unmasked.filter (fun j => j != k) ++ (if m then [] else [k]) }))).settle) ∧
  (∀ (fn : Nat) (s : State),
     (msixRelease fn s).sent = s.sent ++ ((s.pci fn).pend.filter (vectorOpen (s.pci fn))).map (fun v => .msix fn v) ∧
     ((msixRelease fn s).pci fn).pend.all (fun v => !vectorOpen (s.pci fn) v) = true ∧
     onlyParts [.qe, .sent] s (msixRelease fn s))

/-- A step with a command at the front of the queue is that command's effect on the state with the queue's rest. The first in, first out queue is the
model's own way of saying that the block takes one command after another; the spec's commands reach a run only through this. -/
def Obligations.StepRunsFrontCommand : Prop :=
  ∀ (c : Instr) (l : List Instr) (s : State),
    s.pending = c :: l →
    step s = exec c { s with pending := l }

/-- The model's choices of logs 3 and 44, resting on R583 (ring time runs from the crystal), R454 (stores leave the store buffers) and R626: a step
on an empty queue drains every hart's store buffer, ticks ring time (by one unit while nothing is slewed), and at every fourth tick takes the
next waiting cycle of TCK. R626, by one such cycle: TRST_N low and Test-Logic-Reset bring IDCODE into force; five cycles of TMS high reach it
from any state; a shift moves the code by one bit towards TDO, and Update-IR puts the shifted code into force; any code that is not listed acts
as BYPASS; Capture-DR loads the IDCODE of the stepping, a zero for BYPASS, HIGHZ and CLAMP, and one free bit a cell for SAMPLE and EXTEST; under
EXTEST and CLAMP the cells drive what they hold and under HIGHZ nothing. -/
def Obligations.EmptyQueueIdles : Prop :=
  (∀ (s : State),
     s.pending = [] →
     step s = .next (tapTick (ringTick (drainStores s)))) ∧
  (∀ (s : State),
     s.moc.slew = 0 →
     (ringTick s).now = s.now + 1 ∧
     (ringTick s).glb = s.glb ∧
     onlyParts [.regs, .moc, .mot] s (ringTick s)) ∧
  (∀ (c : TckCycle) (r : List TckCycle) (s : State),
     s.glb.tap.clocks = c :: r →
     (s.moc.tickMod % 4 = 0 → tapTick s = tapCycle c (s.onTap (fun t => { t with clocks := r }))) ∧
     (s.moc.tickMod % 4 ≠ 0 → tapTick s = s)) ∧
  (∀ (c : TckCycle) (s : State),
     c.trstN = false →
     (tapCycle c s).glb.tap.state = .testLogicReset ∧
     tapInstr (tapCycle c s).glb.tap.ir = .idcode ∧
     onlyParts [.glb] s (tapCycle c s)) ∧
  (∀ (c : TckCycle) (s : State),
     c.trstN = true ∧ c.tms = true →
     (tapCycle c (tapCycle c (tapCycle c (tapCycle c (tapCycle c s))))).glb.tap.state = .testLogicReset ∧
     tapInstr (tapCycle c (tapCycle c (tapCycle c (tapCycle c (tapCycle c s))))).glb.tap.ir = .idcode) ∧
  (∀ (c : TckCycle) (s : State),
     c.trstN = true → s.glb.tap.state = .shiftIr →
     (tapCycle c s).sent = s.sent ++ [.tdo (s.glb.tap.shiftIr.getLsbD 0)] ∧
     (tapCycle c s).glb.tap.shiftIr = (s.glb.tap.shiftIr >>> 1) ||| (if c.tdi then 0x80 else 0) ∧
     (tapCycle c s).glb.tap.ir = s.glb.tap.ir ∧
     (tapCycle c s).glb.tap.state = (if c.tms then .exit1Ir else .shiftIr) ∧
     onlyParts [.glb, .sent] s (tapCycle c s)) ∧
  (∀ (c : TckCycle) (s : State),
     c.trstN = true ∧ c.tms = true → s.glb.tap.state = .exit1Ir ∨ s.glb.tap.state = .exit2Ir →
     (tapCycle c s).glb.tap.state = .updateIr ∧
     (tapCycle c s).glb.tap.ir = s.glb.tap.shiftIr ∧
     (tapInstr s.glb.tap.shiftIr = .extest ∨ tapInstr s.glb.tap.shiftIr = .clamp → (tapCycle c s).sent = s.sent ++
         [.boundary (some s.glb.tap.cells)]) ∧
     (tapInstr s.glb.tap.shiftIr = .highz → (tapCycle c s).sent = s.sent ++ [.boundary none]) ∧
     (tapInstr s.glb.tap.shiftIr = .idcode ∨ tapInstr s.glb.tap.shiftIr = .sample ∨ tapInstr s.glb.tap.shiftIr = .bypass → (tapCycle c s).sent =
         s.sent)) ∧
  (∀ (b : BitVec 8),
     b ≠ 1 ∧ b ≠ 2 ∧ b ≠ 3 ∧ b ≠ 4 ∧ b ≠ 5 →
     tapInstr b = .bypass) ∧
  (∀ (c : TckCycle) (s : State),
     c.trstN = true → s.glb.tap.state = .captureDr →
     (tapInstr s.glb.tap.ir = .idcode → (tapCycle c s).glb.tap.shiftDr = bitsLow idcode) ∧
     (tapInstr s.glb.tap.ir = .bypass ∨ tapInstr s.glb.tap.ir = .highz ∨ tapInstr s.glb.tap.ir = .clamp → (tapCycle c s).glb.tap.shiftDr = [false])
       ∧
     (tapInstr s.glb.tap.ir = .sample ∨ tapInstr s.glb.tap.ir = .extest → (tapCycle c s).glb.tap.shiftDr.length = boundaryCells ∧ s.freeN <
         (tapCycle c s).freeN) ∧
     (tapCycle c s).sent = s.sent) ∧
  (∀ (c : TckCycle) (s : State),
     c.trstN = true → s.glb.tap.state = .shiftDr →
     (tapCycle c s).sent = s.sent ++ [.tdo (s.glb.tap.shiftDr.headD false)] ∧
     (tapCycle c s).glb.tap.shiftDr = s.glb.tap.shiftDr.drop 1 ++ [c.tdi] ∧
     (tapCycle c s).glb.tap.cells = s.glb.tap.cells ∧
     onlyParts [.glb, .sent] s (tapCycle c s))

/-- For every state whose register map lists exactly the registers that differ from their reset value, in address order, and whose buffer memory lists
exactly the bytes that are not zero, in address order, a step that answers a next state answers one of the same form: equal contents stay equal
data, whatever command was at the front of the queue. The form is the model's. -/
def Obligations.StepKeepsWellFormed : Prop :=
  ∀ (s t : State),
    s.wf = true → step s = .next t →
    t.wf = true

/-- The state after reset has the form that every step keeps. -/
def Obligations.ResetWellFormed : Prop :=
  State.reset.wf = true

/-- Over every command: when it answers a next state the queue of waiting commands is unchanged, everything sent out of the chip before is still there
in order with the command's own outputs after it, and the counter of free values does not fall. -/
def Obligations.CommandKeepsQueueAndOutputs : Prop :=
  ∀ (c : Instr) (s t : State),
    exec c s = .next t →
    t.pending = s.pending ∧ s.sent <+: t.sent ∧ s.freeN ≤ t.freeN

/-- No command stops the chip: on every operand and in every state each row of the table answers a next state, and so does a step, whatever waits in
the queue. What a command asks for out of turn is answered as its rule says (a refusal flag, an error status, an address fault to the requester,
or nothing). -/
def Obligations.EveryCommandAnswersANextState : Prop :=
  (∀ (c : Instr) (s : State),
     ∃ t : State, exec c s = .next t) ∧
  (∀ (s : State),
     ∃ t : State, step s = .next t)

/-- The frame of every command: when it answers a next state, every part of the state other than those listed for it in changedBy (register file,
holding and shadow registers, register bus, each engine's own state, the outputs, the counter of free values) is unchanged. -/
def Obligations.CommandChangesOnlyItsParts : Prop :=
  ∀ (c : Instr) (s t : State),
    exec c s = .next t →
    onlyParts (changedBy c) s t

/-- A command for which changedBy lists no register file writes no register: the Abacus slots without a store, the end of a cadence ramp, the arbiter's
epoch, a timer interrupt, a claim, ring messages sent, and the answers of the service port that only read. Every register reads as before, through
the model's one register read. -/
def Obligations.CommandsLeaveOtherRegisters : Prop :=
  ∀ (c : Instr) (s t : State) (a : Nat),
    exec c s = .next t → Part.regs ∉ changedBy c →
    t.reg a = s.reg a

/-- R17: the reset values of the register tables are those after power-on reset. Every register whose table gives a reset value other than zero is
named with it, for every one of its copies; then every register but GLB_RST_STAT reads as its table says, zero where it says zero; GLB_RST_STAT
shows the note ARMED, which GLB writes at the release (R595), and no previous note; no command waits. -/
def Obligations.ResetValues : Prop :=
  ((∀ p ∈ ([(R.GLB_MODE, 0x00000001), (R.GLB_MODE_STAT, 0x00000100), (R.TRC_UPD_CFG, 0x00000002), (R.QE_CTL, 0x00000002), (R.QE_ARB_CFG, 0x00000408),
     (R.QE_SLOT_CFG, 0x00001000), (R.QE_SLOT_FREE, 0x00004000), (R.RLY_CTL, 0x00113210), (R.RLY_AGE_CFG, 0x12C0C80A), (R.RLY_SHARE_CFG, 0x03E80400),
     (R.RLY_HSW, 0x0000012C), (R.RLY_QOS_CFG, 0x00000064), (R.BUF_CTL, 0x00000006), (R.BUF_ARB_CFG, 0x00000004), (R.BUF_ARB_SEL, 0x00000001),
     (R.BUF_MERGE_CFG, 0x00000002), (R.SCC_CTL, 0x00000007), (R.SCC_PF_CFG, 0x00000204), (R.DMA_CRED, 0x00000100), (R.SPM_START_CFG, 0x1E52EE28),
     (R.SPM_START_TIME, 0x141E05DC), (R.SPM_CAD_REQ, 0x00000003), (R.SPM_CAD_CFG, 0x08960BB8), (R.SPM_REG_CFG, 0x0010320A), (R.SPM_BRAKE_CFG,
     0x00001464), (R.SPM_PF_CFG, 0x00000050), (R.LDP_ITER, 0x00002808), (R.LDP_TOK_CFG, 0x00000002), (R.BND_CTL, 0x00000482), (R.BND_JNL_CFG,
     0x002007D0), (R.BND_VFY_CFG, 0x00000030), (R.BND_IMG_CFG, 0x00000100), (R.BND_WEAR_CFG, 0x00001001), (R.BND_MIG_CFG, 0x0640941E), (R.BND_GC_CFG,
     0x42152000), (R.BND_GC_THR, 0x80200500), (R.BND_GC_BANDS, 0x00201004), (R.BND_PATROL_CFG, 0x01504018), (R.BND_WEAK_CFG, 0x00004010), (R.PWR_CTL,
     0x0000030F), (R.PWR_IDLE_T0, 0x000A0064), (R.PWR_IDLE_T1, 0x0258003C), (R.PWR_CAD_CFG, 0x05503C0A), (R.PWR_CAD_DWELL, 0x003C00FA),
     (R.PWR_TEMP_CFG, 0x0070695F), (R.PWR_PSD_LAT0, 0x00010001), (R.PWR_PSD_LAT1, 0x02270001), (R.PWR_PSD_LAT2, 0x03B70001), (R.PWR_PSD_LAT3,
     0x00010001), (R.PWR_PSD_LAT4, 0x05470002), (R.PWR_PSD_LAT5, 0x05AB00D2), (R.PWR_PSD_LAT6, 0x2EE00FA0), (R.PWR_PSD_MP0, 0x00000578),
     (R.PWR_PSD_MP1, 0x000003E8), (R.PWR_PSD_MP2, 0x000002BC), (R.PWR_PSD_MP3, 0x000000F0), (R.PWR_PSD_MP4, 0x000000C8), (R.PWR_PSD_MP5, 0x0000008C),
     (R.PWR_PSD_MP6, 0x00000014), (R.EVR_CTL, 0x00000002), (R.EVR_CFG, 0x003C0002), (R.TLY_CFG, 0x001803E8), (R.BAT_CTL, 0x0000000E), (R.BAT_HB_CFG,
     0x00030064), (R.MOC_CTL, 0x00000008), (R.MOC_CFG, 0x000003E8), (R.MOT_CTL, 0x00000002)] : List (Nat × Word)), State.reset.reg p.1 = p.2)) ∧
  ((∀ n < 4, ∀ p ∈ ([(R.LNn_CTL n, 0x00000003), (R.LNn_HTR_LEAD n, 0x00000064), (R.LNn_PBUS_CTL n, 0x00000004), (R.LNn_DET_CTL n, 0x00001007),
     (R.LNn_RTY_BUDGET n, 0x01433422), (R.LNn_RTY_CFG n, 0x18050C10), (R.LNn_WR_CTL n, 0x00003407), (R.LNn_VFY_CFG n, 0x03420000), (R.SVn_CTL n,
     0x0000000E), (R.SVn_SAFE n, 0x00C80064), (R.SVn_SYNC_CFG n, 0x00044010), (R.SVn_CUR_CFG n, 0x00800064), (R.SVn_PACE_CTL n, 0x00000001),
     (R.SVn_PACE_FE n, 0x00330040), (R.SVn_PACE_SETTLE n, 0xC8400032), (R.SVn_PACE_LOAD n, 0x322800C8), (R.SVn_PACE_RET n, 0x0BB80000), (R.MSn_CTL n,
     0x0000007F)] : List (Nat × Word)), State.reset.reg p.1 = p.2)) ∧
  ((∀ n < 2, ∀ p ∈ ([(R.HIFn_CTL n, 0x0000000A), (R.DMCn_CTL n, 0x00000100), (R.DMCn_ECC_CFG n, 0x00000801), (R.DMCn_SCRUB_CFG n, 0x80000018)] : List
     (Nat × Word)), State.reset.reg p.1 = p.2)) ∧
  ((∀ n < 64, ∀ p ∈ ([(R.DMAc_CTL n, 0x00000007), (R.DMAc_CFG n, 0x00000040)] : List (Nat × Word)), State.reset.reg p.1 = p.2)) ∧
  ((∀ n < 8, ∀ p ∈ ([(R.CCX_TCMPk_LO n, 0xFFFFFFFF), (R.CCX_TCMPk_HI n, 0xFFFFFFFF)] : List (Nat × Word)), State.reset.reg p.1 = p.2)) ∧
  (∀ (a : Nat) (r : RegDesc),
     descOf a = some r → a ≠ R.GLB_RST_STAT →
     State.reset.reg a = BitVec.ofNat 32 r.reset) ∧
  (State.reset.get F.GLB_RST_STAT_NOTE = 1 ∧ State.reset.get F.GLB_RST_STAT_PREV_NOTE = 0 ∧ State.reset.pending = [])
end

