-- ==== Sys2Proof/Laws/Maps.lean ====
section
/-! SUPPORT. Laws of the sparse maps: a read after a write, and the canonical form that every update keeps. -/

namespace Sys2Proof.Machine

variable {β : Type}

theorem smGet_smErase_same (k : Nat) (m : SMap β) : smGet k (smErase k m) = none := by
  induction m with
  | nil => rfl
  | cons e t ih =>
    obtain ⟨j, v⟩ := e
    by_cases h : j = k <;> simp [smErase, smGet, h, ih]

theorem smGet_smErase_other {k j : Nat} (h : j ≠ k) (m : SMap β) : smGet j (smErase k m) = smGet j m := by
  induction m with
  | nil => rfl
  | cons e t ih =>
    obtain ⟨i, v⟩ := e
    by_cases hi : i = k
    · subst hi; simp [smErase, smGet, ih, Ne.symm h]
    · by_cases hj : i = j
      · subst hj; simp [smErase, smGet, hi]
      · simp [smErase, smGet, hi, hj, ih]

theorem smGet_smInsert_other {k j : Nat} (h : j ≠ k) (v : β) (m : SMap β) : smGet j (smInsert k v m) = smGet j m := by
  induction m with
  | nil => simp [smInsert, smGet, Ne.symm h]
  | cons e t ih =>
    obtain ⟨i, w⟩ := e
    by_cases hi : k < i
    · simp [smInsert, hi, smGet, Ne.symm h]
    · by_cases hj : i = j
      · subst hj; simp [smInsert, hi, smGet]
      · simp [smInsert, hi, smGet, hj, ih]

theorem smGet_smInsert_same (k : Nat) (v : β) (m : SMap β) (h : smGet k m = none) : smGet k (smInsert k v m) = some v := by
  induction m with
  | nil => simp [smInsert, smGet]
  | cons e t ih =>
    obtain ⟨i, w⟩ := e
    by_cases hk : i = k
    · simp [smGet, hk] at h
    · by_cases hi : k < i
      · simp [smInsert, hi, smGet]
      · simp [smInsert, hi, smGet, hk]; exact ih (by simpa [smGet, hk] using h)

@[simp] theorem smGet_smSet_same (k : Nat) (v : β) (m : SMap β) : smGet k (smSet k v m) = some v :=
  smGet_smInsert_same k v _ (smGet_smErase_same k m)

theorem smGet_smSet_other {k j : Nat} (h : j ≠ k) (v : β) (m : SMap β) : smGet j (smSet k v m) = smGet j m := by
  rw [smSet, smGet_smInsert_other h, smGet_smErase_other h]

@[simp] theorem smGetD_smPut_same [DecidableEq β] (d : β) (k : Nat) (v : β) (m : SMap β) : smGetD d k (smPut d k v m) = v := by
  unfold smGetD smPut
  split
  · next h => rw [smGet_smErase_same]; simp [h]
  · simp

theorem smGetD_smPut_other [DecidableEq β] (d e : β) {k j : Nat} (h : j ≠ k) (v : β) (m : SMap β) :
    smGetD d j (smPut e k v m) = smGetD d j m := by
  unfold smGetD smPut
  split
  · rw [smGet_smErase_other h]
  · rw [smGet_smSet_other h]

/-! ### Canonical form -/

/-- Every key of a sorted map's tail is above its head's. -/
theorem smSorted_tail_lt {j : Nat} {v : β} {t : SMap β} (h : smSorted ((j, v) :: t) = true) : ∀ e ∈ t, j < e.1 := by
  induction t generalizing j v with
  | nil => simp
  | cons e t ih =>
    obtain ⟨k, w⟩ := e
    simp only [smSorted, Bool.and_eq_true, decide_eq_true_eq] at h
    intro e he
    rcases List.mem_cons.mp he with rfl | he
    · exact h.1
    · exact Nat.lt_trans h.1 (ih h.2 e he)

theorem smSorted_cons {j : Nat} {v : β} {t : SMap β} (h : smSorted t = true) (hj : ∀ e ∈ t, j < e.1) : smSorted ((j, v) :: t) = true := by
  cases t with
  | nil => rfl
  | cons e t => obtain ⟨k, w⟩ := e; simp [smSorted, h, hj (k, w) (by simp)]

theorem smSorted_of_cons {j : Nat} {v : β} {t : SMap β} (h : smSorted ((j, v) :: t) = true) : smSorted t = true := by
  cases t with
  | nil => rfl
  | cons e t => obtain ⟨k, w⟩ := e; simp only [smSorted, Bool.and_eq_true] at h; exact h.2

theorem mem_smErase {k : Nat} {m : SMap β} {e : Nat × β} (h : e ∈ smErase k m) : e ∈ m ∧ e.1 ≠ k := by
  induction m with
  | nil => simp [smErase] at h
  | cons d t ih =>
    obtain ⟨j, v⟩ := d
    by_cases hj : j = k
    · simp only [smErase, hj, if_true] at h; exact ⟨List.mem_cons_of_mem _ (ih h).1, (ih h).2⟩
    · simp only [smErase, hj, if_false] at h
      rcases List.mem_cons.mp h with rfl | h
      · exact ⟨by simp, hj⟩
      · exact ⟨List.mem_cons_of_mem _ (ih h).1, (ih h).2⟩

theorem mem_smInsert {k : Nat} {v : β} {m : SMap β} {e : Nat × β} (h : e ∈ smInsert k v m) : e = (k, v) ∨ e ∈ m := by
  induction m with
  | nil => simpa [smInsert] using h
  | cons d t ih =>
    obtain ⟨j, w⟩ := d
    by_cases hj : k < j
    · simp only [smInsert, hj, if_true] at h; exact List.mem_cons.mp h
    · simp only [smInsert, hj, if_false] at h
      rcases List.mem_cons.mp h with rfl | h
      · exact .inr (by simp)
      · rcases ih h with h | h
        · exact .inl h
        · exact .inr (List.mem_cons_of_mem _ h)

theorem smSorted_smErase {k : Nat} {m : SMap β} (h : smSorted m = true) : smSorted (smErase k m) = true := by
  induction m with
  | nil => rfl
  | cons d t ih =>
    obtain ⟨j, v⟩ := d
    have ht := ih (smSorted_of_cons h)
    by_cases hj : j = k
    · simpa [smErase, hj] using ht
    · simp only [smErase, hj, if_false]
      exact smSorted_cons ht (fun e he => smSorted_tail_lt h e (mem_smErase he).1)

theorem smSorted_smInsert {k : Nat} {v : β} {m : SMap β} (h : smSorted m = true) (hk : ∀ e ∈ m, e.1 ≠ k) : smSorted (smInsert k v m) = true := by
  induction m with
  | nil => rfl
  | cons d t ih =>
    obtain ⟨j, w⟩ := d
    by_cases hj : k < j
    · simp only [smInsert, hj, if_true, smSorted, decide_true, Bool.true_and]; exact h
    · simp only [smInsert, hj, if_false]
      refine smSorted_cons (ih (smSorted_of_cons h) (fun e he => hk e (List.mem_cons_of_mem _ he))) (fun e he => ?_)
      rcases mem_smInsert he with rfl | he
      · have := hk (j, w) (by simp); simp at this ⊢; omega
      · exact smSorted_tail_lt h e he

/-- The canonical form of a map whose unlisted keys read as `d`: keys rising, no entry equal to what its key reads as unlisted. -/
def smCanon (d : Nat → β) (m : SMap β) : Prop := smSorted m = true ∧ ∀ e ∈ m, e.2 ≠ d e.1

/-- A write keeps the canonical form. -/
theorem smCanon_smPut [DecidableEq β] {d : Nat → β} {m : SMap β} (h : smCanon d m) (k : Nat) (v : β) : smCanon d (smPut (d k) k v m) := by
  unfold smPut
  split
  · exact ⟨smSorted_smErase h.1, fun e he => h.2 e (mem_smErase he).1⟩
  · next hv =>
    refine ⟨smSorted_smInsert (smSorted_smErase h.1) (fun e he => (mem_smErase he).2), fun e he => ?_⟩
    rcases mem_smInsert he with rfl | he
    · exact hv
    · exact h.2 e (mem_smErase he).1

/-- `n` values of a map from a key on, in one walk of a map whose keys all lie from there on. -/
def smSlice (d : β) : Nat → Nat → SMap β → List β
  | 0, _, _ => []
  | n + 1, k, [] => d :: smSlice d n (k + 1) []
  | n + 1, k, (j, v) :: t => if j = k then v :: smSlice d n (k + 1) t else d :: smSlice d n (k + 1) ((j, v) :: t)

theorem smGet_below {k : Nat} {m : SMap β} (h : ∀ e ∈ m, k < e.1) : smGet k m = none := by
  induction m with
  | nil => rfl
  | cons e t ih =>
    have := h e (by simp)
    simp only [smGet]
    rw [if_neg (by omega)]
    exact ih (fun x hx => h x (by simp [hx]))

theorem smGet_dropWhile {k off : Nat} (h : off ≤ k) (m : SMap β) : smGet k (m.dropWhile (fun e => decide (e.1 < off))) = smGet k m := by
  induction m with
  | nil => rfl
  | cons e t ih =>
    by_cases c : e.1 < off
    · rw [List.dropWhile_cons_of_pos (by simpa using c), ih]
      simp only [smGet]
      rw [if_neg (by omega)]
    · rw [List.dropWhile_cons_of_neg (by simpa using c)]

theorem smSorted_dropWhile {p : Nat × β → Bool} {m : SMap β} (h : smSorted m = true) : smSorted (m.dropWhile p) = true := by
  induction m with
  | nil => rfl
  | cons e t ih =>
    by_cases c : p e = true
    · rw [List.dropWhile_cons_of_pos c]
      exact ih (smSorted_of_cons h)
    · rw [List.dropWhile_cons_of_neg c]
      exact h

theorem dropWhile_from {off : Nat} {m : SMap β} (h : smSorted m = true) : ∀ e ∈ m.dropWhile (fun e => decide (e.1 < off)), off ≤ e.1 := by
  induction m with
  | nil => simp
  | cons e t ih =>
    by_cases c : e.1 < off
    · rw [List.dropWhile_cons_of_pos (by simpa using c)]
      exact ih (smSorted_of_cons h)
    · rw [List.dropWhile_cons_of_neg (by simpa using c)]
      intro x hx
      rcases List.mem_cons.1 hx with rfl | hx
      · omega
      · have := smSorted_tail_lt h x hx
        omega

/-- A sorted map read key by key is its slice. -/
theorem smSlice_eq (d : β) (n off : Nat) (m : SMap β) (h : smSorted m = true) (hm : ∀ e ∈ m, off ≤ e.1) :
    (List.range n).map (fun i => smGetD d (off + i) m) = smSlice d n off m := by
  induction n generalizing off m with
  | zero => rfl
  | succ n ih =>
    rw [List.range_succ_eq_map, List.map_cons, List.map_map]
    have shift : ∀ (x : SMap β), (List.range n).map ((fun i => smGetD d (off + i) x) ∘ Nat.succ) = (List.range n).map (fun i => smGetD d (off + 1 + i) x) := by
      intro x
      apply List.map_congr_left
      intro i _
      simp only [Function.comp_apply]
      congr 1
      omega
    rw [shift]
    match m, h, hm with
    | [], _, _ =>
      simp only [smSlice]
      rw [← ih (off + 1) [] rfl (by simp)]
      rfl
    | (j, v) :: t, h, hm =>
      have hj : off ≤ j := hm (j, v) (by simp)
      have ht := smSorted_tail_lt h
      simp only [smSlice]
      split
      next e =>
        subst e
        rw [← ih (j + 1) t (smSorted_of_cons h) (fun x hx => ht x hx)]
        congr 1
        · simp [smGetD, smGet]
        · apply List.map_congr_left
          intro i _
          simp only [smGetD, smGet]
          rw [if_neg (by omega)]
      next e =>
        have all : ∀ x ∈ (j, v) :: t, off < x.1 := by
          intro x hx
          rcases List.mem_cons.1 hx with rfl | hx
          · exact Nat.lt_of_le_of_ne hj (fun c => e c.symm)
          · have := ht x hx
            exact Nat.lt_of_le_of_lt hj this
        rw [← ih (off + 1) ((j, v) :: t) h (fun x hx => all x hx)]
        congr 1
        simp only [Nat.add_zero, smGetD]
        rw [smGet_below all]
        rfl

end Sys2Proof.Machine
end

