-- ==== Sys2Proof/Laws/Moves.lean ====
section
/-! SUPPORT. What an operation may do, said once for each: `Moves m s t` says that `t` follows from `s` by changing only the parts of the state
whose bits `m` has, keeping the canonical forms, only adding outputs, and never turning back the counter of free values. The files
Laws/Moves*.lean hold one lemma for each operation of the machine. -/

namespace Sys2Proof.Machine

/-- Part `i` of the state is the same in both. -/
def samePart (i : Nat) (s t : State) : Prop :=
  match i with
  | 0 => t.regs = s.regs
  | 1 => t.shadow = s.shadow
  | 2 => t.hold = s.hold
  | 3 => t.bus = s.bus
  | 4 => t.glb = s.glb
  | 5 => t.cfg = s.cfg
  | 6 => t.trc = s.trc
  | 7 => t.svc = s.svc
  | 8 => t.evr = s.evr
  | 9 => t.tly = s.tly
  | 10 => t.moc = s.moc
  | 11 => t.ccx = s.ccx
  | 12 => t.key = s.key
  | 13 => t.lns = s.lns
  | 14 => t.mss = s.mss
  | 15 => t.svs = s.svs
  | 16 => t.ldp = s.ldp
  | 17 => t.mot = s.mot
  | 18 => t.spm = s.spm
  | 19 => t.rly = s.rly
  | 20 => t.bnd = s.bnd
  | 21 => t.buf = s.buf
  | 22 => t.dma = s.dma
  | 23 => t.bat = s.bat
  | 24 => t.pwr = s.pwr
  | 25 => t.qe = s.qe
  | 26 => t.reports = s.reports
  | 27 => t.sent = s.sent
  | 28 => t.freeN = s.freeN
  | 29 => t.pending = s.pending
  | _ => True

/-- What an operation that changes only the parts of `m` may do. -/
structure Moves (m : Nat) (s t : State) : Prop where
  parts : ∀ i, m.testBit i = false → samePart i s t
  regs : Registers.wf s.regs = true → Registers.wf t.regs = true
  mem : Memory.wf s.buf.mem = true → Memory.wf t.buf.mem = true
  sent : s.sent <+: t.sent
  free : s.freeN ≤ t.freeN

theorem samePart.refl (i : Nat) (s : State) : samePart i s s := by
  unfold samePart; split <;> trivial

theorem samePart.trans {i : Nat} {s t u : State} (h : samePart i s t) (g : samePart i t u) : samePart i s u := by
  unfold samePart at *; split at h <;> first | exact g.trans h | trivial

theorem Moves.refl {m : Nat} {s : State} : Moves m s s :=
  ⟨fun i _ => samePart.refl i s, id, id, List.prefix_refl _, Nat.le_refl _⟩

/-- An operation within the parts of `m` follows. -/
theorem Moves.on {k m : Nat} {s t u : State} (g : Moves k t u) (h : Moves m s t) (sub : k ||| m = m) : Moves m s u where
  parts := fun i hi => (h.parts i hi).trans (g.parts i (by
    rw [← sub, Nat.testBit_or, Bool.or_eq_false_iff] at hi; exact hi.1))
  regs := fun w => g.regs (h.regs w)
  mem := fun w => g.mem (h.mem w)
  sent := h.sent.trans g.sent
  free := Nat.le_trans h.free g.free

theorem Moves.step {m : Nat} {s t u : State} (g : Moves m t u) (h : Moves m s t) : Moves m s u := g.on h (Nat.or_self m)

theorem Moves.cut {m : Nat} {s t x : State} (k : Moves m s x → Moves m s t) (h : Moves m s x) : Moves m s t := k h

theorem Moves.wide {k m : Nat} {s t : State} (g : Moves k s t) (sub : k ||| m = m) : Moves m s t := g.on .refl sub

theorem sub_of {k l m : Nat} (g : l ||| m = m) (h : k ||| l = l) : k ||| m = m := by
  rw [← g, ← Nat.or_assoc, h]

theorem Moves.get {m : Nat} {α : Type} {s t : State} {a : α} {p : α × State} (h : Moves m s p.2) (e : p = (a, t)) : Moves m s t := by
  rw [e] at h; exact h

theorem Moves.get1 {m : Nat} {α : Type} {s t : State} {a : α} {p : State × α} (h : Moves m s p.1) (e : p = (t, a)) : Moves m s t := by
  rw [e] at h; exact h

theorem Moves.get3 {m : Nat} {α β : Type} {s t : State} {a : α} {b : β} {p : α × β × State} (h : Moves m s p.2.2) (e : p = (a, b, t)) :
    Moves m s t := by
  rw [e] at h; exact h

theorem Moves.iteSnd {m : Nat} {α : Type} {s : State} {c : Prop} [Decidable c] {a b : α × State} (h : Moves m s a.2) (g : Moves m s b.2) :
    Moves m s (if c then a else b).2 := by
  split
  · exact h
  · exact g

/-- The same of an operation that may answer nothing. -/
def MovesO (m : Nat) (s : State) (o : Option State) : Prop := ∀ t, o = some t → Moves m s t

/-- The same of an operation that may answer nothing, or a value and a state. -/
def MovesV {α : Type} (m : Nat) (s : State) (o : Option (α × State)) : Prop := ∀ a t, o = some (a, t) → Moves m s t

/-- The same with two values. -/
def MovesU {α β : Type} (m : Nat) (s : State) (o : Option (α × β × State)) : Prop := ∀ a b t, o = some (a, b, t) → Moves m s t

/-- The same of an operation that may fail. -/
def MovesE {ε : Type} (m : Nat) (s : State) (o : Except ε State) : Prop := ∀ t, o = .ok t → Moves m s t

/-- The same of an operation that may fail, or answer a value and a state. -/
def MovesW {ε α : Type} (m : Nat) (s : State) (o : Except ε (α × State)) : Prop := ∀ a t, o = .ok (a, t) → Moves m s t

/-- The same of a command's outcome. -/
def MovesR (m : Nat) (s : State) (o : Host.Outcome State Fault Refusal) : Prop := ∀ t, o = .next t → Moves m s t

theorem MovesO.some {m : Nat} {s t : State} (h : Moves m s t) : MovesO m s (Option.some t) := fun _ e => by cases e; exact h
theorem MovesO.none {m : Nat} {s : State} : MovesO m s Option.none := fun _ e => by cases e
theorem MovesV.some {α : Type} {m : Nat} {s t : State} {a : α} (h : Moves m s t) : MovesV m s (Option.some (a, t)) := fun _ _ e => by cases e; exact h
theorem MovesV.none {α : Type} {m : Nat} {s : State} : MovesV (α := α) m s Option.none := fun _ _ e => by cases e
theorem MovesV.map {α β : Type} {m : Nat} {s : State} {o : Option β} {f : β → α × State} (h : ∀ b, Moves m s (f b).2) : MovesV m s (o.map f) := by
  intro a t e
  cases o with
  | none => cases e
  | some b => have g := h b; simp only [Option.map, Option.some.injEq] at e; rw [e] at g; exact g
theorem MovesO.bind {m : Nat} {s : State} {o : Option State} {f : State → Option State} (h : MovesO m s o) (k : ∀ t, Moves m s t → MovesO m s (f t)) :
    MovesO m s (o.bind f) := by
  cases o with
  | none => exact .none
  | some t => exact k t (h t rfl)
theorem MovesV.findSome {α β : Type} {m : Nat} {s : State} {l : List β} {f : β → Option (α × State)} (h : ∀ b, MovesV m s (f b)) :
    MovesV m s (l.findSome? f) := by
  intro a t e
  obtain ⟨b, _, hb⟩ := List.exists_of_findSome?_eq_some e
  exact h b a t hb
theorem MovesU.some {α β : Type} {m : Nat} {s t : State} {a : α} {b : β} (h : Moves m s t) : MovesU m s (Option.some (a, b, t)) :=
  fun _ _ _ e => by cases e; exact h
theorem MovesU.none {α β : Type} {m : Nat} {s : State} : MovesU (α := α) (β := β) m s Option.none := fun _ _ _ e => by cases e
theorem MovesU.get {α β : Type} {m : Nat} {s t : State} {a : α} {b : β} {o : Option (α × β × State)} (h : MovesU m s o)
    (e : o = Option.some (a, b, t)) : Moves m s t := h a b t e
theorem MovesU.cut {α β : Type} {m : Nat} {s x : State} {o : Option (α × β × State)} (k : Moves m s x → MovesU m s o) (h : Moves m s x) :
    MovesU m s o := k h
theorem MovesE.ok {ε : Type} {m : Nat} {s t : State} (h : Moves m s t) : MovesE (ε := ε) m s (.ok t) := fun _ e => by cases e; exact h
theorem MovesE.error {ε : Type} {m : Nat} {s : State} {e : ε} : MovesE m s (.error e) := fun _ h => by cases h
theorem MovesW.ok {ε α : Type} {m : Nat} {s t : State} {a : α} (h : Moves m s t) : MovesW (ε := ε) m s (.ok (a, t)) :=
  fun _ _ e => by cases e; exact h
theorem MovesW.error {ε α : Type} {m : Nat} {s : State} {e : ε} : MovesW (α := α) m s (.error e) := fun _ _ h => by cases h
theorem MovesR.next {m : Nat} {s t : State} (h : Moves m s t) : MovesR m s (.next t) := fun _ e => by cases e; exact h
theorem MovesR.fault {m : Nat} {s : State} {f : Fault} : MovesR m s (.fault f) := fun _ e => by cases e
theorem MovesO.cut {m : Nat} {s x : State} {o : Option State} (k : Moves m s x → MovesO m s o) (h : Moves m s x) : MovesO m s o := k h
theorem MovesV.cut {α : Type} {m : Nat} {s x : State} {o : Option (α × State)} (k : Moves m s x → MovesV m s o) (h : Moves m s x) : MovesV m s o := k h
theorem MovesE.cut {ε : Type} {m : Nat} {s x : State} {o : Except ε State} (k : Moves m s x → MovesE m s o) (h : Moves m s x) : MovesE m s o := k h
theorem MovesW.cut {ε α : Type} {m : Nat} {s x : State} {o : Except ε (α × State)} (k : Moves m s x → MovesW m s o) (h : Moves m s x) :
    MovesW m s o := k h
theorem MovesR.cut {m : Nat} {s x : State} {o : Host.Outcome State Fault Refusal} (k : Moves m s x → MovesR m s o) (h : Moves m s x) :
    MovesR m s o := k h
theorem MovesO.on {k m : Nat} {s t : State} {o : Option State} (g : MovesO k t o) (h : Moves m s t) (sub : k ||| m = m) : MovesO m s o :=
  fun u e => (g u e).on h sub
theorem MovesV.on {α : Type} {k m : Nat} {s t : State} {o : Option (α × State)} (g : MovesV k t o) (h : Moves m s t) (sub : k ||| m = m) :
    MovesV m s o := fun a u e => (g a u e).on h sub
theorem MovesE.on {ε : Type} {k m : Nat} {s t : State} {o : Except ε State} (g : MovesE k t o) (h : Moves m s t) (sub : k ||| m = m) :
    MovesE m s o := fun u e => (g u e).on h sub
theorem MovesW.on {ε α : Type} {k m : Nat} {s t : State} {o : Except ε (α × State)} (g : MovesW k t o) (h : Moves m s t) (sub : k ||| m = m) :
    MovesW m s o := fun a u e => (g a u e).on h sub
theorem MovesR.on {k m : Nat} {s t : State} {o : Host.Outcome State Fault Refusal} (g : MovesR k t o) (h : Moves m s t) (sub : k ||| m = m) :
    MovesR m s o := fun u e => (g u e).on h sub
theorem MovesO.get {m : Nat} {s t : State} {o : Option State} (h : MovesO m s o) (e : o = Option.some t) : Moves m s t := h t e
theorem MovesV.get {α : Type} {m : Nat} {s t : State} {a : α} {o : Option (α × State)} (h : MovesV m s o) (e : o = Option.some (a, t)) : Moves m s t := h a t e
theorem MovesE.get {ε : Type} {m : Nat} {s t : State} {o : Except ε State} (h : MovesE m s o) (e : o = .ok t) : Moves m s t := h t e
theorem MovesW.get {ε α : Type} {m : Nat} {s t : State} {a : α} {o : Except ε (α × State)} (h : MovesW m s o) (e : o = .ok (a, t)) : Moves m s t := h a t e

/-! ### One field -/

theorem mk_shadow {s : State} {x} : Moves 0x2 s { s with shadow := x } where
  parts := fun i h => by
    unfold samePart; split <;> trivial
  regs := id
  mem := id
  sent := List.prefix_refl _
  free := Nat.le_refl _

theorem mk_hold {s : State} {x} : Moves 0x4 s { s with hold := x } where
  parts := fun i h => by
    unfold samePart; split <;> trivial
  regs := id
  mem := id
  sent := List.prefix_refl _
  free := Nat.le_refl _

theorem mk_bus {s : State} {x} : Moves 0x8 s { s with bus := x } where
  parts := fun i h => by
    unfold samePart; split <;> trivial
  regs := id
  mem := id
  sent := List.prefix_refl _
  free := Nat.le_refl _

theorem mk_glb {s : State} {x} : Moves 0x10 s { s with glb := x } where
  parts := fun i h => by
    unfold samePart; split <;> trivial
  regs := id
  mem := id
  sent := List.prefix_refl _
  free := Nat.le_refl _

theorem mk_cfg {s : State} {x} : Moves 0x20 s { s with cfg := x } where
  parts := fun i h => by
    unfold samePart; split <;> trivial
  regs := id
  mem := id
  sent := List.prefix_refl _
  free := Nat.le_refl _

theorem mk_trc {s : State} {x} : Moves 0x40 s { s with trc := x } where
  parts := fun i h => by
    unfold samePart; split <;> trivial
  regs := id
  mem := id
  sent := List.prefix_refl _
  free := Nat.le_refl _

theorem mk_svc {s : State} {x} : Moves 0x80 s { s with svc := x } where
  parts := fun i h => by
    unfold samePart; split <;> trivial
  regs := id
  mem := id
  sent := List.prefix_refl _
  free := Nat.le_refl _

theorem mk_evr {s : State} {x} : Moves 0x100 s { s with evr := x } where
  parts := fun i h => by
    unfold samePart; split <;> trivial
  regs := id
  mem := id
  sent := List.prefix_refl _
  free := Nat.le_refl _

theorem mk_tly {s : State} {x} : Moves 0x200 s { s with tly := x } where
  parts := fun i h => by
    unfold samePart; split <;> trivial
  regs := id
  mem := id
  sent := List.prefix_refl _
  free := Nat.le_refl _

theorem mk_moc {s : State} {x} : Moves 0x400 s { s with moc := x } where
  parts := fun i h => by
    unfold samePart; split <;> trivial
  regs := id
  mem := id
  sent := List.prefix_refl _
  free := Nat.le_refl _

theorem mk_ccx {s : State} {x} : Moves 0x800 s { s with ccx := x } where
  parts := fun i h => by
    unfold samePart; split <;> trivial
  regs := id
  mem := id
  sent := List.prefix_refl _
  free := Nat.le_refl _

theorem mk_key {s : State} {x} : Moves 0x1000 s { s with key := x } where
  parts := fun i h => by
    unfold samePart; split <;> trivial
  regs := id
  mem := id
  sent := List.prefix_refl _
  free := Nat.le_refl _

theorem mk_lns {s : State} {x} : Moves 0x2000 s { s with lns := x } where
  parts := fun i h => by
    unfold samePart; split <;> trivial
  regs := id
  mem := id
  sent := List.prefix_refl _
  free := Nat.le_refl _

theorem mk_mss {s : State} {x} : Moves 0x4000 s { s with mss := x } where
  parts := fun i h => by
    unfold samePart; split <;> trivial
  regs := id
  mem := id
  sent := List.prefix_refl _
  free := Nat.le_refl _

theorem mk_svs {s : State} {x} : Moves 0x8000 s { s with svs := x } where
  parts := fun i h => by
    unfold samePart; split <;> trivial
  regs := id
  mem := id
  sent := List.prefix_refl _
  free := Nat.le_refl _

theorem mk_ldp {s : State} {x} : Moves 0x10000 s { s with ldp := x } where
  parts := fun i h => by
    unfold samePart; split <;> trivial
  regs := id
  mem := id
  sent := List.prefix_refl _
  free := Nat.le_refl _

theorem mk_mot {s : State} {x} : Moves 0x20000 s { s with mot := x } where
  parts := fun i h => by
    unfold samePart; split <;> trivial
  regs := id
  mem := id
  sent := List.prefix_refl _
  free := Nat.le_refl _

theorem mk_spm {s : State} {x} : Moves 0x40000 s { s with spm := x } where
  parts := fun i h => by
    unfold samePart; split <;> trivial
  regs := id
  mem := id
  sent := List.prefix_refl _
  free := Nat.le_refl _

theorem mk_rly {s : State} {x} : Moves 0x80000 s { s with rly := x } where
  parts := fun i h => by
    unfold samePart; split <;> trivial
  regs := id
  mem := id
  sent := List.prefix_refl _
  free := Nat.le_refl _

theorem mk_bnd {s : State} {x} : Moves 0x100000 s { s with bnd := x } where
  parts := fun i h => by
    unfold samePart; split <;> trivial
  regs := id
  mem := id
  sent := List.prefix_refl _
  free := Nat.le_refl _

theorem mk_dma {s : State} {x} : Moves 0x400000 s { s with dma := x } where
  parts := fun i h => by
    unfold samePart; split <;> trivial
  regs := id
  mem := id
  sent := List.prefix_refl _
  free := Nat.le_refl _

theorem mk_bat {s : State} {x} : Moves 0x800000 s { s with bat := x } where
  parts := fun i h => by
    unfold samePart; split <;> trivial
  regs := id
  mem := id
  sent := List.prefix_refl _
  free := Nat.le_refl _

theorem mk_pwr {s : State} {x} : Moves 0x1000000 s { s with pwr := x } where
  parts := fun i h => by
    unfold samePart; split <;> trivial
  regs := id
  mem := id
  sent := List.prefix_refl _
  free := Nat.le_refl _

theorem mk_qe {s : State} {x} : Moves 0x2000000 s { s with qe := x } where
  parts := fun i h => by
    unfold samePart; split <;> trivial
  regs := id
  mem := id
  sent := List.prefix_refl _
  free := Nat.le_refl _

theorem mk_reports {s : State} {x} : Moves 0x4000000 s { s with reports := x } where
  parts := fun i h => by
    unfold samePart; split <;> trivial
  regs := id
  mem := id
  sent := List.prefix_refl _
  free := Nat.le_refl _

theorem mk_bus_glb {s : State} {x y} : Moves 0x18 s { s with bus := x, glb := y } :=
  (mk_glb (s := { s with bus := x })).on (mk_bus.wide (by decide)) (by decide)

theorem mk_buf {s : State} {x : Buf} (h : Memory.wf s.buf.mem = true → Memory.wf x.mem = true) : Moves 0x200000 s { s with buf := x } where
  parts := fun i h => by
    unfold samePart; split <;> trivial
  regs := id
  mem := h
  sent := List.prefix_refl _
  free := Nat.le_refl _

theorem emit_moves {o : Out} {s : State} : Moves 0x8000000 s (s.emit o) where
  parts := fun i h => by
    unfold samePart; split <;> trivial
  regs := id
  mem := id
  sent := List.prefix_append _ _
  free := Nat.le_refl _

theorem emitAll_moves {o : List Out} {s : State} : Moves 0x8000000 s (s.emitAll o) where
  parts := fun i h => by
    unfold samePart; split <;> trivial
  regs := id
  mem := id
  sent := List.prefix_append _ _
  free := Nat.le_refl _

theorem free_moves {w : Nat} {s : State} : Moves 0x10000000 s (s.free w).2 where
  parts := fun i h => by
    unfold samePart; split <;> trivial
  regs := id
  mem := id
  sent := List.prefix_refl _
  free := Nat.le_succ _

/-- The Bool of the canonical form as the proposition of Laws/Maps.lean. -/
theorem canonical_iff {β : Type} [DecidableEq β] {d : Nat → β} {m : SMap β} : canonical d m = true ↔ smCanon d m := by
  simp [canonical, smCanon]

theorem smSorted_filter {β : Type} (p : Nat × β → Bool) {m : SMap β} (h : smSorted m = true) : smSorted (m.filter p) = true := by
  induction m with
  | nil => rfl
  | cons e t ih =>
    obtain ⟨j, v⟩ := e
    have ht := ih (smSorted_of_cons h)
    rw [List.filter_cons]
    split
    · exact smSorted_cons ht (fun e he => smSorted_tail_lt h e (List.mem_filter.mp he).1)
    · exact ht

/-- Dropping entries keeps the canonical form. -/
theorem Memory.wf_filter {m : SMap Byte} (p : Nat × Byte → Bool) (h : Memory.wf m = true) : Memory.wf (m.filter p) = true :=
  have h := canonical_iff.mp h
  canonical_iff.mpr ⟨smSorted_filter p h.1, fun e he => h.2 e (List.mem_filter.mp he).1⟩

theorem setReg_moves {a : Nat} {w : Word} {s : State} : Moves 0x1 s (s.setReg a w) where
  parts := fun i h => by
    unfold samePart; split <;> trivial
  regs := fun h => canonical_iff.mpr (smCanon_smPut (canonical_iff.mp h) a w)
  mem := id
  sent := List.prefix_refl _
  free := Nat.le_refl _

theorem put_moves {f : Fld} {v : Nat} {s : State} : Moves 0x1 s (s.put f v) := setReg_moves
theorem putB_moves {f : Fld} {b : Bool} {s : State} : Moves 0x1 s (s.putB f b) := setReg_moves
theorem count_moves {f : Fld} {n : Nat} {s : State} : Moves 0x1 s (s.count f n) := setReg_moves
theorem setPair_moves {l h : Nat} {v : Dword} {s : State} : Moves 0x1 s (s.setPair l h v) := setReg_moves.step setReg_moves

theorem forEach_moves {α : Type} {m : Nat} {l : List α} {f : α → State → State} {s : State} (hf : ∀ a t, Moves m t (f a t)) :
    Moves m s (forEach l f s) := by
  induction l generalizing s with
  | nil => exact .refl
  | cons a l ih => exact (ih (s := f a s)).step (hf a s)

theorem foldl_moves {α : Type} {m : Nat} {l : List α} {f : State → α → State} {s : State} (hf : ∀ t a, Moves m t (f t a)) :
    Moves m s (l.foldl f s) := by
  induction l generalizing s with
  | nil => exact .refl
  | cons a l ih => exact (ih (s := f s a)).step (hf s a)

theorem foldlSnd_moves {α β : Type} {m : Nat} {s : State} {l : List α} {f : β × State → α → β × State} {b : β}
    (hf : ∀ p a, Moves m p.2 (f p a).2) : Moves m s (l.foldl f (b, s)).2 := by
  have g : ∀ (l : List α) (p : β × State), Moves m p.2 (l.foldl f p).2 := by
    intro l
    induction l with
    | nil => exact fun _ => .refl
    | cons a l ih => exact fun p => (ih (f p a)).step (hf p a)
  exact g l (b, s)

theorem iff_moves {m : Nat} {c : Bool} {f : State → State} {s : State} (hf : ∀ t, Moves m t (f t)) : Moves m s (s.iff c f) := by
  unfold State.iff; split
  · exact hf s
  · exact .refl

/-- The bit of a part in a mask. -/
def Part.bit (p : Part) : Nat :=
  match p with
  | .regs => 0
  | .shadow => 1
  | .hold => 2
  | .bus => 3
  | .glb => 4
  | .cfg => 5
  | .trc => 6
  | .svc => 7
  | .evr => 8
  | .tly => 9
  | .moc => 10
  | .ccx => 11
  | .key => 12
  | .lns => 13
  | .mss => 14
  | .svs => 15
  | .ldp => 16
  | .mot => 17
  | .spm => 18
  | .rly => 19
  | .bnd => 20
  | .buf => 21
  | .dma => 22
  | .bat => 23
  | .pwr => 24
  | .qe => 25
  | .reports => 26
  | .sent => 27
  | .freeN => 28
  | .pending => 29

/-- The frame that a mask gives. -/
theorem Moves.only {m : Nat} {s t : State} (h : Moves m s t) (l : List Part) (c : ∀ p : Part, p ∉ l → m.testBit p.bit = false) : onlyParts l s t := by
  intro p hp
  have g := h.parts p.bit (c p hp)
  cases p <;> exact g

theorem onlyParts.refl {l : List Part} {s : State} : onlyParts l s s := by intro p _; cases p <;> rfl

theorem onlyParts.trans {l : List Part} {s t u : State} (h : onlyParts l s t) (g : onlyParts l t u) : onlyParts l s u := by
  intro p hp
  have a := h p hp
  have b := g p hp
  cases p <;> exact b.trans a

end Sys2Proof.Machine
end

