-- ==== Sys2Proof/Laws/MovesFlags.lean ====
section
/-! SUPPORT. One lemma for each operation of Ops.lean, Flags.lean, Operands.lean, Recorder.lean, Tally.lean, Mocel.lean, Lane.lean, Access.lean: what it may change (Moves). -/

namespace Sys2Proof.Machine

set_option linter.all false
set_option Elab.async false

theorem answer_moves {a1} {s : State} : Moves 0x8 s (State.answer s a1) := by
  unfold State.answer
  with_reducible
    repeat' first
      | exact .refl | assumption
      | (extract_lets +onlyGivenNames x; first | (refine .cut (x := x) ?_ ?_; (on_goal 1 => intro _; clear_value x); (on_goal 2 => subst x)) | subst x)
      | fail_if_no_progress refine mk_bus.on ?_ rfl

theorem irq_moves {a1} {s : State} : Moves 0x800 s (State.irq s a1) := by
  unfold State.irq
  with_reducible
    repeat' first
      | exact .refl | assumption
      | (extract_lets +onlyGivenNames x; first | (refine .cut (x := x) ?_ ?_; (on_goal 1 => intro _; clear_value x); (on_goal 2 => subst x)) | subst x)
      | fail_if_no_progress refine mk_ccx.on ?_ rfl

theorem cond_moves {a1} {s : State} : Moves 0x801 s (State.cond s a1) := by
  unfold State.cond
  with_reducible
    repeat' first
      | exact .refl | assumption | refine irq_moves.on ?_ rfl | refine put_moves.on ?_ rfl | split

theorem uncond_moves {a1} {s : State} : Moves 0x801 s (State.uncond s a1) := by
  unfold State.uncond
  with_reducible
    repeat' first
      | exact .refl | assumption | refine irq_moves.on ?_ rfl | refine put_moves.on ?_ rfl | split

theorem raiseEvent_moves {a1} {s : State} : Moves 0x100 s (State.raiseEvent s a1) := by
  unfold State.raiseEvent
  with_reducible
    repeat' first
      | exact .refl | assumption
      | (extract_lets +onlyGivenNames x; first | (refine .cut (x := x) ?_ ?_; (on_goal 1 => intro _; clear_value x); (on_goal 2 => subst x)) | subst x)
      | fail_if_no_progress refine mk_evr.on ?_ rfl

theorem flag_moves {a1} {s : State} : Moves 0x901 s (State.flag s a1) := by
  unfold State.flag
  with_reducible
    repeat' first
      | exact .refl | assumption
      | (extract_lets +onlyGivenNames x; first | (refine .cut (x := x) ?_ ?_; (on_goal 1 => intro _; clear_value x); (on_goal 2 => subst x)) | subst x)
      | refine put_moves.on ?_ rfl | refine irq_moves.on ?_ rfl | refine raiseEvent_moves.on ?_ rfl | split

theorem sysEvent_moves {a1 a2 a3 a4 a5} {s : State} : Moves 0x100 s (State.sysEvent s a1 a2 a3 a4 a5) := by
  unfold State.sysEvent
  with_reducible
    repeat' first
      | exact .refl | assumption | refine raiseEvent_moves.on ?_ rfl

theorem sticky_moves {a1} {s : State} : Moves 0x101 s (State.sticky s a1) := by
  unfold State.sticky
  with_reducible
    repeat' first
      | exact .refl | assumption
      | (extract_lets +onlyGivenNames x; first | (refine .cut (x := x) ?_ ?_; (on_goal 1 => intro _; clear_value x); (on_goal 2 => subst x)) | subst x)
      | refine put_moves.on ?_ rfl | fail_if_no_progress refine mk_evr.on ?_ rfl

theorem tlyUpdate_moves {a1 a2 a3} {s : State} : Moves 0xB01 s (State.tlyUpdate s a1 a2 a3) := by
  unfold State.tlyUpdate
  with_reducible
    repeat' first
      | exact .refl | assumption
      | (extract_lets +onlyGivenNames x; first | (refine .cut (x := x) ?_ ?_; (on_goal 1 => intro _; clear_value x); (on_goal 2 => subst x)) | subst x)
      | refine sysEvent_moves.on ?_ rfl | refine count_moves.on ?_ rfl | refine sticky_moves.on ?_ rfl | refine flag_moves.on ?_ rfl
      | fail_if_no_progress refine mk_tly.on ?_ rfl | split | dsimp only

theorem tally_moves {a1 a2} {s : State} : Moves 0xB01 s (State.tally s a1 a2) := by
  unfold State.tally
  with_reducible
    repeat' first
      | exact .refl | assumption
      | (extract_lets +onlyGivenNames x; first | (refine .cut (x := x) ?_ ?_; (on_goal 1 => intro _; clear_value x); (on_goal 2 => subst x)) | subst x)
      | refine tlyUpdate_moves.on ?_ rfl | refine put_moves.on ?_ rfl | fail_if_no_progress refine mk_tly.on ?_ rfl | split

theorem histo_moves {a1 a2} {s : State} : Moves 0xB01 s (State.histo s a1 a2) := by
  unfold State.histo
  with_reducible
    repeat' first
      | exact .refl | assumption | refine tally_moves.on ?_ rfl

theorem fifoFlag_moves {a1 a2} {s : State} : Moves 0x901 s (State.fifoFlag s a1 a2) := by
  unfold State.fifoFlag
  with_reducible
    repeat' first
      | exact .refl | assumption | refine flag_moves.on ?_ rfl

theorem svcSend_moves {a1} {s : State} : Moves 0x8000080 s (State.svcSend s a1) := by
  unfold State.svcSend
  with_reducible
    repeat' first
      | exact .refl | assumption
      | (extract_lets +onlyGivenNames x; first | (refine .cut (x := x) ?_ ?_; (on_goal 1 => intro _; clear_value x); (on_goal 2 => subst x)) | subst x)
      | refine emit_moves.on ?_ rfl | fail_if_no_progress refine mk_svc.on ?_ rfl | split

theorem reply_moves {a1 a2 a3 a4} {s : State} : Moves 0x8000080 s (State.reply s a1 a2 a3 a4) := by
  unfold State.reply
  with_reducible
    repeat' first
      | exact .refl | assumption | refine svcSend_moves.on ?_ rfl

theorem cuhar_moves {m : Nat} {a1 a2 a3 f4} {s : State} (hm : 0x8000080 ||| m = m) (hf4 : ∀  t, Moves m t (f4  t)) : Moves m s (State.cuhar s a1 a2 a3 f4) := by
  unfold State.cuhar
  with_reducible
    repeat' first
      | exact .refl | assumption | exact hf4 .. | refine (hf4 ..).step ?_ | refine reply_moves.on ?_ (sub_of hm rfl) | split

theorem setNow_moves {a1} {s : State} : Moves 0x1 s (State.setNow s a1) := by
  unfold State.setNow
  with_reducible
    repeat' first
      | exact .refl | assumption
      | (extract_lets +onlyGivenNames x; first | (refine .cut (x := x) ?_ ?_; (on_goal 1 => intro _; clear_value x); (on_goal 2 => subst x)) | subst x)
      | refine setPair_moves.on ?_ rfl

theorem evrDrop_moves {a1} {s : State} : Moves 0xB01 s (State.evrDrop s a1) := by
  unfold State.evrDrop
  with_reducible
    repeat' first
      | exact .refl | assumption
      | (extract_lets +onlyGivenNames x; first | (refine .cut (x := x) ?_ ?_; (on_goal 1 => intro _; clear_value x); (on_goal 2 => subst x)) | subst x)
      | refine tally_moves.on ?_ rfl | refine count_moves.on ?_ rfl | fail_if_no_progress refine mk_evr.on ?_ rfl

theorem evrOffer_moves {a0} {s : State} : Moves 0xB01 s (evrOffer a0 s) := by
  unfold evrOffer
  with_reducible
    repeat' first
      | exact .refl | assumption
      | (extract_lets +onlyGivenNames x; first | (refine .cut (x := x) ?_ ?_; (on_goal 1 => intro _; clear_value x); (on_goal 2 => subst x)) | subst x)
      | refine evrDrop_moves.on ?_ rfl | refine flag_moves.on ?_ rfl | fail_if_no_progress refine mk_evr.on ?_ rfl | split

theorem evrAcceptAll_moves {s : State} : Moves 0xB01 s (evrAcceptAll s) := by
  unfold evrAcceptAll
  with_reducible
    repeat' first
      | exact .refl | assumption
      | (extract_lets +onlyGivenNames x; first | (refine .cut (x := x) ?_ ?_; (on_goal 1 => intro _; clear_value x); (on_goal 2 => subst x)) | subst x)
      | refine (forEach_moves (m := 0xB01) (fun _ _ => ?_)).step ?_ | refine evrOffer_moves.on ?_ rfl | refine flag_moves.on ?_ rfl
      | fail_if_no_progress refine mk_evr.on ?_ rfl | refine (foldl_moves (m := 0xB01) (fun _ _ => ?_)).step ?_ | split

theorem execEventAccept_moves {s : State} : MovesR 0xB01 s (execEventAccept s) := by
  unfold execEventAccept
  with_reducible
    repeat' first
      | exact .refl | assumption | exact .fault | refine .next ?_ | refine evrAcceptAll_moves.on ?_ rfl

theorem firmwareRecordEff_moves {a0} {s : State} : Moves 0xB01 s (firmwareRecordEff a0 s) := by
  unfold firmwareRecordEff
  with_reducible
    repeat' first
      | exact .refl | assumption
      | (extract_lets +onlyGivenNames x; first | (refine .cut (x := x) ?_ ?_; (on_goal 1 => intro _; clear_value x); (on_goal 2 => subst x)) | subst x)
      | refine evrAcceptAll_moves.on ?_ rfl | refine raiseEvent_moves.on ?_ rfl

theorem epitaphWrite_moves {a0 a1} {s : State} : Moves 0xB01 s (epitaphWrite a0 a1 s) := by
  unfold epitaphWrite
  with_reducible
    repeat' first
      | exact .refl | assumption
      | (extract_lets +onlyGivenNames x; first | (refine .cut (x := x) ?_ ?_; (on_goal 1 => intro _; clear_value x); (on_goal 2 => subst x)) | subst x)
      | refine evrDrop_moves.on ?_ rfl | refine irq_moves.on ?_ rfl | refine sticky_moves.on ?_ rfl | refine put_moves.on ?_ rfl
      | refine (iff_moves (m := 0xB01) (fun _ => ?_)).step ?_ | fail_if_no_progress refine mk_evr.on ?_ rfl | split

theorem logWritten_moves {a0} {s : State} : Moves 0x901 s (logWritten a0 s) := by
  unfold logWritten
  with_reducible
    repeat' first
      | exact .refl | assumption
      | (extract_lets +onlyGivenNames x; first | (refine .cut (x := x) ?_ ?_; (on_goal 1 => intro _; clear_value x); (on_goal 2 => subst x)) | subst x)
      | refine put_moves.on ?_ rfl | refine (iff_moves (m := 0x901) (fun _ => ?_)).step ?_ | refine irq_moves.on ?_ rfl | refine flag_moves.on ?_ rfl
      | fail_if_no_progress refine mk_evr.on ?_ rfl | split

theorem writeRecord_moves {a0 a1 a2 a3} {s : State} : Moves 0xB01 s (writeRecord a0 a1 a2 a3 s) := by
  unfold writeRecord
  with_reducible
    repeat' first
      | exact .refl | assumption
      | (extract_lets +onlyGivenNames x; first | (refine .cut (x := x) ?_ ?_; (on_goal 1 => intro _; clear_value x); (on_goal 2 => subst x)) | subst x)
      | refine epitaphWrite_moves.on ?_ rfl | refine evrDrop_moves.on ?_ rfl | refine logWritten_moves.on ?_ rfl | refine irq_moves.on ?_ rfl
      | refine put_moves.on ?_ rfl | refine sticky_moves.on ?_ rfl | fail_if_no_progress refine mk_evr.on ?_ rfl | split

theorem execRecordWrite_moves {a0 a1 a2} {s : State} : MovesR 0xB01 s (execRecordWrite a0 a1 a2 s) := by
  unfold execRecordWrite
  with_reducible
    repeat' first
      | exact .refl | assumption | exact .fault | refine .next ?_
      | (extract_lets +onlyGivenNames x; first | (refine .cut (x := x) ?_ ?_; (on_goal 1 => intro _; clear_value x); (on_goal 2 => subst x)) | subst x)
      | refine writeRecord_moves.on ?_ rfl | fail_if_no_progress refine mk_evr.on ?_ rfl | split

theorem freezeSet_moves {a0 a1} {s : State} : Moves 0x101 s (freezeSet a0 a1 s) := by
  unfold freezeSet
  with_reducible
    repeat' first
      | exact .refl | assumption
      | (extract_lets +onlyGivenNames x; first | (refine .cut (x := x) ?_ ?_; (on_goal 1 => intro _; clear_value x); (on_goal 2 => subst x)) | subst x)
      | refine putB_moves.on ?_ rfl | refine sysEvent_moves.on ?_ rfl | fail_if_no_progress refine mk_evr.on ?_ rfl | split

theorem execFreezeTimeout_moves {a0} {s : State} : MovesR 0x901 s (execFreezeTimeout a0 s) := by
  unfold execFreezeTimeout
  with_reducible
    repeat' first
      | exact .refl | assumption | exact .fault | refine .next ?_
      | (extract_lets +onlyGivenNames x; first | (refine .cut (x := x) ?_ ?_; (on_goal 1 => intro _; clear_value x); (on_goal 2 => subst x)) | subst x)
      | refine freezeSet_moves.on ?_ rfl | refine flag_moves.on ?_ rfl | refine put_moves.on ?_ rfl | split

theorem headerWrite_moves {s : State} : Moves 0x100 s (headerWrite s) := by
  unfold headerWrite
  with_reducible
    repeat' first
      | exact .refl | assumption
      | (extract_lets +onlyGivenNames x; first | (refine .cut (x := x) ?_ ?_; (on_goal 1 => intro _; clear_value x); (on_goal 2 => subst x)) | subst x)
      | fail_if_no_progress refine mk_evr.on ?_ rfl | split | dsimp only

theorem execHeaderWrite_moves {a0} {s : State} : MovesR 0x100 s (execHeaderWrite a0 s) := by
  unfold execHeaderWrite
  with_reducible
    repeat' first
      | exact .refl | assumption | exact .fault | refine .next ?_ | refine headerWrite_moves.on ?_ rfl | split

theorem recorderRestore_moves {a0 a1} {s : State} : Moves 0x901 s (recorderRestore a0 a1 s) := by
  unfold recorderRestore
  with_reducible
    repeat' first
      | exact .refl | assumption
      | (extract_lets +onlyGivenNames x; first | (refine .cut (x := x) ?_ ?_; (on_goal 1 => intro _; clear_value x); (on_goal 2 => subst x)) | subst x)
      | refine setReg_moves.on ?_ rfl | refine put_moves.on ?_ rfl | refine putB_moves.on ?_ rfl | refine flag_moves.on ?_ rfl
      | refine sticky_moves.on ?_ rfl | fail_if_no_progress refine mk_evr.on ?_ rfl | split

theorem stickyClearEff_moves {a0 a1} {s : State} : Moves 0x901 s (stickyClearEff a0 a1 s) := by
  unfold stickyClearEff
  with_reducible
    repeat' first
      | exact .refl | assumption
      | (extract_lets +onlyGivenNames x; first | (refine .cut (x := x) ?_ ?_; (on_goal 1 => intro _; clear_value x); (on_goal 2 => subst x)) | subst x)
      | refine setReg_moves.on ?_ rfl | refine (iff_moves (m := 0x901) (fun _ => ?_)).step ?_ | refine put_moves.on ?_ rfl
      | refine flag_moves.on ?_ rfl | fail_if_no_progress refine mk_evr.on ?_ rfl | split | dsimp only

theorem execEvrStatus_moves {a0} {s : State} : MovesR 0x8000080 s (execEvrStatus a0 s) := by
  unfold execEvrStatus
  with_reducible
    repeat' first
      | exact .refl | assumption | exact .fault | refine .next ?_ | refine (cuhar_moves (m := 0x8000080) rfl (fun _ => ?_)).step ?_
      | refine reply_moves.on ?_ rfl

theorem execEvrRead_moves {a0 a1 a2} {s : State} : MovesR 0x8000080 s (execEvrRead a0 a1 a2 s) := by
  unfold execEvrRead
  with_reducible
    repeat' first
      | exact .refl | assumption | exact .fault | refine .next ?_ | refine (cuhar_moves (m := 0x8000080) rfl (fun _ => ?_)).step ?_
      | refine reply_moves.on ?_ rfl | refine count_moves.on ?_ rfl | split

theorem execEvrFreeze_moves {a0 a1} {s : State} : MovesR 0x8000181 s (execEvrFreeze a0 a1 s) := by
  unfold execEvrFreeze
  with_reducible
    repeat' first
      | exact .refl | assumption | exact .fault | refine .next ?_ | refine (cuhar_moves (m := 0x8000181) rfl (fun _ => ?_)).step ?_
      | refine reply_moves.on ?_ rfl | refine freezeSet_moves.on ?_ rfl | split

theorem execEpitaphRead_moves {a0} {s : State} : MovesR 0x8000080 s (execEpitaphRead a0 s) := by
  unfold execEpitaphRead
  with_reducible
    repeat' first
      | exact .refl | assumption | exact .fault | refine .next ?_ | refine (cuhar_moves (m := 0x8000080) rfl (fun _ => ?_)).step ?_
      | refine reply_moves.on ?_ rfl

theorem resultPost_moves {a1 a2 a3} {s : State} : Moves 0x1 s (State.resultPost s a1 a2 a3) := by
  unfold State.resultPost
  with_reducible
    repeat' first
      | exact .refl | assumption
      | (extract_lets +onlyGivenNames x; first | (refine .cut (x := x) ?_ ?_; (on_goal 1 => intro _; clear_value x); (on_goal 2 => subst x)) | subst x)
      | refine setReg_moves.on ?_ rfl | refine put_moves.on ?_ rfl

theorem evrClearEff_moves {s : State} : Moves 0x901 s (evrClearEff s) := by
  unfold evrClearEff
  with_reducible
    repeat' first
      | exact .refl | assumption
      | (extract_lets +onlyGivenNames x; first | (refine .cut (x := x) ?_ ?_; (on_goal 1 => intro _; clear_value x); (on_goal 2 => subst x)) | subst x)
      | refine put_moves.on ?_ rfl | refine logWritten_moves.on ?_ rfl | fail_if_no_progress refine mk_evr.on ?_ rfl | split

theorem execEvrClear_moves {a0} {s : State} : MovesR 0x8000981 s (execEvrClear a0 s) := by
  unfold execEvrClear
  with_reducible
    repeat' first
      | exact .refl | assumption | exact .fault | refine .next ?_ | refine (cuhar_moves (m := 0x8000981) rfl (fun _ => ?_)).step ?_
      | refine reply_moves.on ?_ rfl | refine resultPost_moves.on ?_ rfl | refine evrClearEff_moves.on ?_ rfl | refine put_moves.on ?_ rfl | split

theorem execStickyClear_moves {a0 a1 a2} {s : State} : MovesR 0x8000981 s (execStickyClear a0 a1 a2 s) := by
  unfold execStickyClear
  with_reducible
    repeat' first
      | exact .refl | assumption | exact .fault | refine .next ?_ | refine (cuhar_moves (m := 0x8000981) rfl (fun _ => ?_)).step ?_
      | refine reply_moves.on ?_ rfl | refine stickyClearEff_moves.on ?_ rfl

theorem evrRdAdvance_moves {s : State} : Moves 0x1 s (evrRdAdvance s) := by
  unfold evrRdAdvance
  with_reducible
    repeat' first
      | exact .refl | assumption | refine put_moves.on ?_ rfl | split

theorem evrStdAdvance_moves {s : State} : Moves 0x1 s (evrStdAdvance s) := by
  unfold evrStdAdvance
  with_reducible
    repeat' first
      | exact .refl | assumption | refine put_moves.on ?_ rfl | split

theorem tlyCommitAll_moves {a0} {s : State} : Moves 0xB01 s (tlyCommitAll a0 s) := by
  unfold tlyCommitAll
  with_reducible
    repeat' first
      | exact .refl | assumption
      | (extract_lets +onlyGivenNames x; first | (refine .cut (x := x) ?_ ?_; (on_goal 1 => intro _; clear_value x); (on_goal 2 => subst x)) | subst x)
      | refine (forEach_moves (m := 0xB01) (fun _ _ => ?_)).step ?_ | refine tlyUpdate_moves.on ?_ rfl | refine put_moves.on ?_ rfl
      | fail_if_no_progress refine mk_tly.on ?_ rfl | split

theorem execTallyCommit_moves {a0} {s : State} : MovesR 0xB01 s (execTallyCommit a0 s) := by
  unfold execTallyCommit
  with_reducible
    repeat' first
      | exact .refl | assumption | exact .fault | refine .next ?_ | refine tlyCommitAll_moves.on ?_ rfl

theorem execTallyWindowClose_moves {a0} {s : State} : MovesR 0xB01 s (execTallyWindowClose a0 s) := by
  unfold execTallyWindowClose
  with_reducible
    repeat' first
      | exact .refl | assumption | exact .fault | refine .next ?_
      | (extract_lets +onlyGivenNames x; first | (refine .cut (x := x) ?_ ?_; (on_goal 1 => intro _; clear_value x); (on_goal 2 => subst x)) | subst x)
      | refine tlyCommitAll_moves.on ?_ rfl | refine tally_moves.on ?_ rfl | refine irq_moves.on ?_ rfl | refine setPair_moves.on ?_ rfl
      | fail_if_no_progress refine mk_tly.on ?_ rfl | fail_if_no_progress refine mk_ccx.on ?_ rfl | split | dsimp only

theorem tallyIncEff_moves {a0} {s : State} : Moves 0xB01 s (tallyIncEff a0 s) := by
  unfold tallyIncEff
  with_reducible
    repeat' first
      | exact .refl | assumption
      | (extract_lets +onlyGivenNames x; first | (refine .cut (x := x) ?_ ?_; (on_goal 1 => intro _; clear_value x); (on_goal 2 => subst x)) | subst x)
      | refine flag_moves.on ?_ rfl | refine tally_moves.on ?_ rfl | split

theorem tallyHistEff_moves {a0} {s : State} : Moves 0xB01 s (tallyHistEff a0 s) := by
  unfold tallyHistEff
  with_reducible
    repeat' first
      | exact .refl | assumption
      | (extract_lets +onlyGivenNames x; first | (refine .cut (x := x) ?_ ?_; (on_goal 1 => intro _; clear_value x); (on_goal 2 => subst x)) | subst x)
      | refine flag_moves.on ?_ rfl | refine histo_moves.on ?_ rfl | split

theorem execTallyTemperatureSample_moves {s : State} : MovesR 0xB01 s (execTallyTemperatureSample s) := by
  unfold execTallyTemperatureSample
  with_reducible
    repeat' first
      | exact .refl | assumption | exact .fault | refine .next ?_ | refine histo_moves.on ?_ rfl | split

theorem tlyReadLo_moves {s : State} : Moves 0x1 s (tlyReadLo s).2 := by
  unfold tlyReadLo
  with_reducible
    repeat' first
      | exact .refl | assumption
      | (extract_lets +onlyGivenNames x; first | (refine .cut (x := x) ?_ ?_; (on_goal 1 => intro _; clear_value x); (on_goal 2 => subst x)) | subst x)
      | refine setPair_moves.on ?_ rfl | refine put_moves.on ?_ rfl | refine putB_moves.on ?_ rfl | split | dsimp only

theorem execTallyRead_moves {a0 a1 a2} {s : State} : MovesR 0x8000080 s (execTallyRead a0 a1 a2 s) := by
  unfold execTallyRead
  with_reducible
    repeat' first
      | exact .refl | assumption | exact .fault | refine .next ?_ | refine (cuhar_moves (m := 0x8000080) rfl (fun _ => ?_)).step ?_
      | refine reply_moves.on ?_ rfl | refine count_moves.on ?_ rfl | split

theorem execHistRead_moves {a0 a1} {s : State} : MovesR 0x8000080 s (execHistRead a0 a1 s) := by
  unfold execHistRead
  with_reducible
    repeat' first
      | exact .refl | assumption | exact .fault | refine .next ?_
      | (extract_lets +onlyGivenNames x; first | (refine .cut (x := x) ?_ ?_; (on_goal 1 => intro _; clear_value x); (on_goal 2 => subst x)) | subst x)
      | refine (cuhar_moves (m := 0x8000080) rfl (fun _ => ?_)).step ?_ | refine reply_moves.on ?_ rfl | split

theorem execTallyInfo_moves {a0} {s : State} : MovesR 0x8000080 s (execTallyInfo a0 s) := by
  unfold execTallyInfo
  with_reducible
    repeat' first
      | exact .refl | assumption | exact .fault | refine .next ?_ | refine (cuhar_moves (m := 0x8000080) rfl (fun _ => ?_)).step ?_
      | refine reply_moves.on ?_ rfl

theorem onMoc_moves {a1} {s : State} : Moves 0x400 s (State.onMoc s a1) := by
  unfold State.onMoc
  with_reducible
    repeat' first
      | exact .refl | assumption | fail_if_no_progress refine mk_moc.on ?_ rfl

theorem execFrameForward_moves {a0} {s : State} : MovesR 0x8000D01 s (execFrameForward a0 s) := by
  unfold execFrameForward
  with_reducible
    repeat' first
      | exact .refl | assumption | exact .fault | refine .next ?_
      | (extract_lets +onlyGivenNames x; first | (refine .cut (x := x) ?_ ?_; (on_goal 1 => intro _; clear_value x); (on_goal 2 => subst x)) | subst x)
      | refine put_moves.on ?_ rfl | refine flag_moves.on ?_ rfl | refine count_moves.on ?_ rfl | refine emit_moves.on ?_ rfl
      | refine onMoc_moves.on ?_ rfl | split | dsimp only

theorem execEnumFrame_moves {a0} {s : State} : MovesR 0x1 s (execEnumFrame a0 s) := by
  unfold execEnumFrame
  with_reducible
    repeat' first
      | exact .refl | assumption | exact .fault | refine .next ?_
      | (extract_lets +onlyGivenNames x; first | (refine .cut (x := x) ?_ ?_; (on_goal 1 => intro _; clear_value x); (on_goal 2 => subst x)) | subst x)
      | refine put_moves.on ?_ rfl | split

theorem execMsg_moves {a0} {s : State} : MovesR 0xD01 s (execMsg a0 s) := by
  unfold execMsg
  with_reducible
    repeat' first
      | exact .refl | assumption | exact .fault | refine .next ?_
      | (extract_lets +onlyGivenNames x; first | (refine .cut (x := x) ?_ ?_; (on_goal 1 => intro _; clear_value x); (on_goal 2 => subst x)) | subst x)
      | refine (iff_moves (m := 0xD01) (fun _ => ?_)).step ?_ | refine irq_moves.on ?_ rfl | refine flag_moves.on ?_ rfl
      | fail_if_no_progress refine mk_moc.on ?_ rfl | split

theorem mocCorrect_moves {a0} {s : State} : Moves 0xD01 s (mocCorrect a0 s) := by
  unfold mocCorrect
  with_reducible
    repeat' first
      | exact .refl | assumption
      | (extract_lets +onlyGivenNames x; first | (refine .cut (x := x) ?_ ?_; (on_goal 1 => intro _; clear_value x); (on_goal 2 => subst x)) | subst x)
      | refine flag_moves.on ?_ rfl | refine setNow_moves.on ?_ rfl | refine sysEvent_moves.on ?_ rfl | refine count_moves.on ?_ rfl
      | fail_if_no_progress refine mk_moc.on ?_ rfl | split

theorem execTime_moves {a0} {s : State} : MovesR 0x10000D01 s (execTime a0 s) := by
  unfold execTime
  with_reducible
    repeat' first
      | exact .refl | assumption | exact .fault | refine .next ?_
      | (extract_lets +onlyGivenNames x; first | (refine .cut (x := x) ?_ ?_; (on_goal 1 => intro _; clear_value x); (on_goal 2 => subst x)) | subst x)
      | refine put_moves.on ?_ rfl | refine flag_moves.on ?_ rfl | refine mocCorrect_moves.on ?_ rfl | refine free_moves.on ?_ rfl
      | refine (free_moves.get (by assumption)).on ?_ rfl | fail_if_no_progress refine mk_moc.on ?_ rfl | split

theorem execTimeSend_moves {s : State} : MovesR 0x8000401 s (execTimeSend s) := by
  unfold execTimeSend
  with_reducible
    repeat' first
      | exact .refl | assumption | exact .fault | refine .next ?_
      | (extract_lets +onlyGivenNames x; first | (refine .cut (x := x) ?_ ?_; (on_goal 1 => intro _; clear_value x); (on_goal 2 => subst x)) | subst x)
      | refine put_moves.on ?_ rfl | refine emit_moves.on ?_ rfl | fail_if_no_progress refine mk_moc.on ?_ rfl | split

theorem enumCommandEff_moves {a0} {s : State} : Moves 0x8000000 s (enumCommandEff a0 s) := by
  unfold enumCommandEff
  with_reducible
    repeat' first
      | exact .refl | assumption | refine emit_moves.on ?_ rfl | split

theorem execMsgSend_moves {s : State} : MovesR 0x8000400 s (execMsgSend s) := by
  unfold execMsgSend
  with_reducible
    repeat' first
      | exact .refl | assumption | exact .fault | refine .next ?_
      | (extract_lets +onlyGivenNames x; first | (refine .cut (x := x) ?_ ?_; (on_goal 1 => intro _; clear_value x); (on_goal 2 => subst x)) | subst x)
      | refine emit_moves.on ?_ rfl | fail_if_no_progress refine mk_moc.on ?_ rfl | split

theorem execSyncLoss_moves {s : State} : MovesR 0xD01 s (execSyncLoss s) := by
  unfold execSyncLoss
  with_reducible
    repeat' first
      | exact .refl | assumption | exact .fault | refine .next ?_
      | (extract_lets +onlyGivenNames x; first | (refine .cut (x := x) ?_ ?_; (on_goal 1 => intro _; clear_value x); (on_goal 2 => subst x)) | subst x)
      | refine flag_moves.on ?_ rfl | refine put_moves.on ?_ rfl | fail_if_no_progress refine mk_moc.on ?_ rfl | split

theorem execRingStatus_moves {a0} {s : State} : MovesR 0x8000080 s (execRingStatus a0 s) := by
  unfold execRingStatus
  with_reducible
    repeat' first
      | exact .refl | assumption | exact .fault | refine .next ?_ | refine (cuhar_moves (m := 0x8000080) rfl (fun _ => ?_)).step ?_
      | refine reply_moves.on ?_ rfl

theorem mocPop_moves {s : State} : Moves 0x400 s (mocPop s).2 := by
  unfold mocPop
  with_reducible
    repeat' first
      | exact .refl | assumption
      | (extract_lets +onlyGivenNames x; first | (refine .cut (x := x) ?_ ?_; (on_goal 1 => intro _; clear_value x); (on_goal 2 => subst x)) | subst x)
      | fail_if_no_progress refine mk_moc.on ?_ rfl | split | dsimp only

theorem inputTick_moves {s : State} : Moves 0x401 s (inputTick s) := by
  unfold inputTick
  with_reducible
    repeat' first
      | exact .refl | assumption | refine onMoc_moves.on ?_ rfl | refine put_moves.on ?_ rfl | split | dsimp only

theorem ringTick_moves {s : State} : Moves 0x20401 s (ringTick s) := by
  unfold ringTick
  with_reducible
    repeat' first
      | exact .refl | assumption
      | (extract_lets +onlyGivenNames x; first | (refine .cut (x := x) ?_ ?_; (on_goal 1 => intro _; clear_value x); (on_goal 2 => subst x)) | subst x)
      | refine setNow_moves.on ?_ rfl | fail_if_no_progress refine mk_moc.on ?_ rfl | fail_if_no_progress refine mk_mot.on ?_ rfl
      | refine inputTick_moves.on ?_ rfl | split

theorem onTap_moves {a1} {s : State} : Moves 0x10 s (State.onTap s a1) := by
  unfold State.onTap
  with_reducible
    repeat' first
      | exact .refl | assumption | fail_if_no_progress refine mk_glb.on ?_ rfl

theorem captureDr_moves {s : State} : Moves 0x10000010 s (captureDr s) := by
  unfold captureDr
  with_reducible
    repeat' first
      | exact .refl | assumption
      | (extract_lets +onlyGivenNames x; first | (refine .cut (x := x) ?_ ?_; (on_goal 1 => intro _; clear_value x); (on_goal 2 => subst x)) | subst x)
      | refine onTap_moves.on ?_ rfl | refine free_moves.on ?_ rfl | refine (free_moves.get (by assumption)).on ?_ rfl | split | dsimp only

theorem driveCells_moves {s : State} : Moves 0x8000000 s (driveCells s) := by
  unfold driveCells
  with_reducible
    repeat' first
      | exact .refl | assumption | refine emit_moves.on ?_ rfl | split

theorem enterTap_moves {a0} {s : State} : Moves 0x8000010 s (enterTap a0 s) := by
  unfold enterTap
  with_reducible
    repeat' first
      | exact .refl | assumption
      | (extract_lets +onlyGivenNames x; first | (refine .cut (x := x) ?_ ?_; (on_goal 1 => intro _; clear_value x); (on_goal 2 => subst x)) | subst x)
      | refine driveCells_moves.on ?_ rfl | refine onTap_moves.on ?_ rfl | split | dsimp only

theorem tapCycle_moves {a0} {s : State} : Moves 0x18000010 s (tapCycle a0 s) := by
  unfold tapCycle
  with_reducible
    repeat' first
      | exact .refl | assumption
      | (extract_lets +onlyGivenNames x; first | (refine .cut (x := x) ?_ ?_; (on_goal 1 => intro _; clear_value x); (on_goal 2 => subst x)) | subst x)
      | refine captureDr_moves.on ?_ rfl | refine emit_moves.on ?_ rfl | refine enterTap_moves.on ?_ rfl | refine onTap_moves.on ?_ rfl | split
      | dsimp only

theorem tapTick_moves {s : State} : Moves 0x18000010 s (tapTick s) := by
  unfold tapTick
  with_reducible
    repeat' first
      | exact .refl | assumption | refine onTap_moves.on ?_ rfl | refine tapCycle_moves.on ?_ rfl | split | dsimp only

theorem setLn_moves {a1 a2} {s : State} : Moves 0x2000 s (State.setLn s a1 a2) := by
  unfold State.setLn
  with_reducible
    repeat' first
      | exact .refl | assumption
      | (extract_lets +onlyGivenNames x; first | (refine .cut (x := x) ?_ ?_; (on_goal 1 => intro _; clear_value x); (on_goal 2 => subst x)) | subst x)
      | fail_if_no_progress refine mk_lns.on ?_ rfl

theorem onLn_moves {a1 a2} {s : State} : Moves 0x2000 s (State.onLn s a1 a2) := by
  unfold State.onLn
  with_reducible
    repeat' first
      | exact .refl | assumption | refine setLn_moves.on ?_ rfl

theorem setMs_moves {a1 a2} {s : State} : Moves 0x4000 s (State.setMs s a1 a2) := by
  unfold State.setMs
  with_reducible
    repeat' first
      | exact .refl | assumption
      | (extract_lets +onlyGivenNames x; first | (refine .cut (x := x) ?_ ?_; (on_goal 1 => intro _; clear_value x); (on_goal 2 => subst x)) | subst x)
      | fail_if_no_progress refine mk_mss.on ?_ rfl

theorem onMs_moves {a1 a2} {s : State} : Moves 0x4000 s (State.onMs s a1 a2) := by
  unfold State.onMs
  with_reducible
    repeat' first
      | exact .refl | assumption | refine setMs_moves.on ?_ rfl

theorem setSv_moves {a1 a2} {s : State} : Moves 0x8000 s (State.setSv s a1 a2) := by
  unfold State.setSv
  with_reducible
    repeat' first
      | exact .refl | assumption
      | (extract_lets +onlyGivenNames x; first | (refine .cut (x := x) ?_ ?_; (on_goal 1 => intro _; clear_value x); (on_goal 2 => subst x)) | subst x)
      | fail_if_no_progress refine mk_svs.on ?_ rfl

theorem onSv_moves {a1 a2} {s : State} : Moves 0x8000 s (State.onSv s a1 a2) := by
  unfold State.onSv
  with_reducible
    repeat' first
      | exact .refl | assumption | refine setSv_moves.on ?_ rfl

theorem onAct_moves {a1 a2} {s : State} : Moves 0x80000 s (State.onAct s a1 a2) := by
  unfold State.onAct
  with_reducible
    repeat' first
      | exact .refl | assumption
      | (extract_lets +onlyGivenNames x; first | (refine .cut (x := x) ?_ ?_; (on_goal 1 => intro _; clear_value x); (on_goal 2 => subst x)) | subst x)
      | fail_if_no_progress refine mk_rly.on ?_ rfl

theorem putEntry_moves {a0 a1 a2} {s : State} : Moves 0x2000 s (putEntry a0 a1 a2 s) := by
  unfold putEntry
  with_reducible
    repeat' first
      | exact .refl | assumption
      | (extract_lets +onlyGivenNames x; first | (refine .cut (x := x) ?_ ?_; (on_goal 1 => intro _; clear_value x); (on_goal 2 => subst x)) | subst x)
      | refine onLn_moves.on ?_ rfl

theorem tablePut_moves {a0 a1 a2 a3 a4 a5} {s : State} : Moves 0x2000 s (tablePut a0 a1 a2 a3 a4 a5 s) := by
  unfold tablePut
  with_reducible
    repeat' first
      | exact .refl | assumption | refine putEntry_moves.on ?_ rfl | split

theorem msInt_moves {a0 a1} {s : State} : Moves 0x1 s (msInt a0 a1 s) := by
  unfold msInt
  with_reducible
    repeat' first
      | exact .refl | assumption | refine put_moves.on ?_ rfl

theorem msSend_moves {a0 a1} {s : State} : Moves 0x4000 s (msSend a0 a1 s) := by
  unfold msSend
  with_reducible
    repeat' first
      | exact .refl | assumption
      | (extract_lets +onlyGivenNames x; first | (refine .cut (x := x) ?_ ?_; (on_goal 1 => intro _; clear_value x); (on_goal 2 => subst x)) | subst x)
      | refine onMs_moves.on ?_ rfl

theorem msPost_moves {a0 a1 a2 a3 a4} {s : State} : Moves 0x4800 s (msPost a0 a1 a2 a3 a4 s) := by
  unfold msPost
  with_reducible
    repeat' first
      | exact .refl | assumption
      | (extract_lets +onlyGivenNames x; first | (refine .cut (x := x) ?_ ?_; (on_goal 1 => intro _; clear_value x); (on_goal 2 => subst x)) | subst x)
      | refine irq_moves.on ?_ rfl | refine onMs_moves.on ?_ rfl | split | dsimp only

theorem msHwEvent_moves {a0 a1 a2 a3} {s : State} : Moves 0x4800 s (msHwEvent a0 a1 a2 a3 s) := by
  unfold msHwEvent
  with_reducible
    repeat' first
      | exact .refl | assumption
      | (extract_lets +onlyGivenNames x; first | (refine .cut (x := x) ?_ ?_; (on_goal 1 => intro _; clear_value x); (on_goal 2 => subst x)) | subst x)
      | refine msPost_moves.on ?_ rfl | split

theorem slipSector_moves {a0 a1} {s : State} : Moves 0x4B01 s (slipSector a0 a1 s) := by
  unfold slipSector
  with_reducible
    repeat' first
      | exact .refl | assumption | refine count_moves.on ?_ rfl | refine msPost_moves.on ?_ rfl | refine tally_moves.on ?_ rfl

theorem report_moves {a0 a1 a2} {s : State} : Moves 0x4000000 s (report a0 a1 a2 s) := by
  unfold report
  with_reducible
    repeat' first
      | exact .refl | assumption
      | (extract_lets +onlyGivenNames x; first | (refine .cut (x := x) ?_ ?_; (on_goal 1 => intro _; clear_value x); (on_goal 2 => subst x)) | subst x)
      | fail_if_no_progress refine mk_reports.on ?_ rfl

theorem sectorOutcome_moves {a0} {s : State} : Moves 0x80000 s (sectorOutcome a0 s) := by
  unfold sectorOutcome
  with_reducible
    repeat' first
      | exact .refl | assumption
      | (extract_lets +onlyGivenNames x; first | (refine .cut (x := x) ?_ ?_; (on_goal 1 => intro _; clear_value x); (on_goal 2 => subst x)) | subst x)
      | refine onAct_moves.on ?_ rfl | dsimp only

theorem gateOpened_moves {a0 a1} {s : State} : Moves 0x80000 s (gateOpened a0 a1 s) := by
  unfold gateOpened
  with_reducible
    repeat' first
      | exact .refl | assumption | refine onAct_moves.on ?_ rfl | split | dsimp only

theorem sectorPlaced_moves {a0 a1} {s : State} : Moves 0x4080B01 s (sectorPlaced a0 a1 s) := by
  unfold sectorPlaced
  with_reducible
    repeat' first
      | exact .refl | assumption | refine sectorOutcome_moves.on ?_ rfl | refine report_moves.on ?_ rfl | refine tally_moves.on ?_ rfl

theorem relocateSector_moves {a0 a1} {s : State} : Moves 0x4084B01 s (relocateSector a0 a1 s) := by
  unfold relocateSector
  with_reducible
    repeat' first
      | exact .refl | assumption
      | (extract_lets +onlyGivenNames x; first | (refine .cut (x := x) ?_ ?_; (on_goal 1 => intro _; clear_value x); (on_goal 2 => subst x)) | subst x)
      | refine sectorOutcome_moves.on ?_ rfl | refine report_moves.on ?_ rfl | refine tally_moves.on ?_ rfl | refine count_moves.on ?_ rfl
      | refine msPost_moves.on ?_ rfl

theorem showPending_moves {a0} {s : State} : Moves 0x1 s (showPending a0 s) := by
  unfold showPending
  with_reducible
    repeat' first
      | exact .refl | assumption | refine put_moves.on ?_ rfl

theorem showFailing_moves {a0} {s : State} : Moves 0x1 s (showFailing a0 s) := by
  unfold showFailing
  with_reducible
    repeat' first
      | exact .refl | assumption
      | (extract_lets +onlyGivenNames x; first | (refine .cut (x := x) ?_ ?_; (on_goal 1 => intro _; clear_value x); (on_goal 2 => subst x)) | subst x)
      | refine put_moves.on ?_ rfl | split

theorem writeBack_moves {a0 a1 a2 a3 a4} {s : State} : Moves 0x2000 s (writeBack a0 a1 a2 a3 a4 s) := by
  unfold writeBack
  with_reducible
    repeat' first
      | exact .refl | assumption | refine (forEach_moves (m := 0x2000) (fun _ _ => ?_)).step ?_ | refine tablePut_moves.on ?_ rfl | dsimp only

theorem adaptedTaps_moves {a0 a1 a2} {s : State} : Moves 0x10000000 s (adaptedTaps a0 a1 a2 s).2 := by
  unfold adaptedTaps
  with_reducible
    repeat' first
      | exact .refl | assumption
      | (extract_lets +onlyGivenNames x; first | (refine .cut (x := x) ?_ ?_; (on_goal 1 => intro _; clear_value x); (on_goal 2 => subst x)) | subst x)
      | refine free_moves.on ?_ rfl | refine (free_moves.get (by assumption)).on ?_ rfl | split | dsimp only

theorem writeBackCancel_moves {a0 a1 a2} {s : State} : Moves 0x10002000 s (writeBackCancel a0 a1 a2 s) := by
  unfold writeBackCancel
  with_reducible
    repeat' first
      | exact .refl | assumption
      | (extract_lets +onlyGivenNames x; first | (refine .cut (x := x) ?_ ?_; (on_goal 1 => intro _; clear_value x); (on_goal 2 => subst x)) | subst x)
      | refine (adaptedTaps_moves.get (by assumption)).on ?_ rfl | refine adaptedTaps_moves.on ?_ rfl | refine writeBack_moves.on ?_ rfl | split
      | dsimp only

theorem tableStep_moves {a0 a1} {s : State} : Moves 0x1 s (tableStep a0 a1 s) := by
  unfold tableStep
  with_reducible
    repeat' first
      | exact .refl | assumption
      | (extract_lets +onlyGivenNames x; first | (refine .cut (x := x) ?_ ?_; (on_goal 1 => intro _; clear_value x); (on_goal 2 => subst x)) | subst x)
      | refine put_moves.on ?_ rfl | split

theorem tableWriteNow_moves {a0 a1 a2} {s : State} : Moves 0x2001 s (tableWriteNow a0 a1 a2 s) := by
  unfold tableWriteNow
  with_reducible
    repeat' first
      | exact .refl | assumption
      | (extract_lets +onlyGivenNames x; first | (refine .cut (x := x) ?_ ?_; (on_goal 1 => intro _; clear_value x); (on_goal 2 => subst x)) | subst x)
      | refine onLn_moves.on ?_ rfl | refine putEntry_moves.on ?_ rfl | refine tableStep_moves.on ?_ rfl | split

theorem tablePortWrite_moves {a0 a1 a2 a3 a4} {s : State} : Moves 0x2001 s (tablePortWrite a0 a1 a2 a3 a4 s) := by
  unfold tablePortWrite
  with_reducible
    repeat' first
      | exact .refl | assumption
      | (extract_lets +onlyGivenNames x; first | (refine .cut (x := x) ?_ ?_; (on_goal 1 => intro _; clear_value x); (on_goal 2 => subst x)) | subst x)
      | refine onLn_moves.on ?_ rfl | refine tableWriteNow_moves.on ?_ rfl | refine setReg_moves.on ?_ rfl | split

theorem releaseHeld_moves {a0 a1} {s : State} : Moves 0x2001 s (releaseHeld a0 a1 s) := by
  unfold releaseHeld
  with_reducible
    repeat' first
      | exact .refl | assumption
      | (extract_lets +onlyGivenNames x; first | (refine .cut (x := x) ?_ ?_; (on_goal 1 => intro _; clear_value x); (on_goal 2 => subst x)) | subst x)
      | refine putEntry_moves.on ?_ rfl | refine onLn_moves.on ?_ rfl | refine (forEach_moves (m := 0x2001) (fun _ _ => ?_)).step ?_
      | refine tablePortWrite_moves.on ?_ rfl | split

theorem drainFifo_moves {a0} {s : State} : Moves 0x82B01 s (drainFifo a0 s) := by
  unfold drainFifo
  with_reducible
    repeat' first
      | exact .refl | assumption
      | (extract_lets +onlyGivenNames x; first | (refine .cut (x := x) ?_ ?_; (on_goal 1 => intro _; clear_value x); (on_goal 2 => subst x)) | subst x)
      | refine tally_moves.on ?_ rfl | refine onAct_moves.on ?_ rfl | refine onLn_moves.on ?_ rfl | split | dsimp only

theorem afterClose_moves {a0} {s : State} : Moves 0x82B01 s (afterClose a0 s) := by
  unfold afterClose
  with_reducible
    repeat' first
      | exact .refl | assumption
      | (extract_lets +onlyGivenNames x; first | (refine .cut (x := x) ?_ ?_; (on_goal 1 => intro _; clear_value x); (on_goal 2 => subst x)) | subst x)
      | refine drainFifo_moves.on ?_ rfl | refine onLn_moves.on ?_ rfl | refine releaseHeld_moves.on ?_ rfl | split | dsimp only

theorem closeVerify_moves {a0 a1} {s : State} : Moves 0x10082B01 s (closeVerify a0 a1 s) := by
  unfold closeVerify
  with_reducible
    repeat' first
      | exact .refl | assumption
      | (extract_lets +onlyGivenNames x; first | (refine .cut (x := x) ?_ ?_; (on_goal 1 => intro _; clear_value x); (on_goal 2 => subst x)) | subst x)
      | refine onLn_moves.on ?_ rfl | refine put_moves.on ?_ rfl | refine afterClose_moves.on ?_ rfl | refine writeBackCancel_moves.on ?_ rfl | split
      | dsimp only

theorem abandonVerify_moves {a0} {s : State} : Moves 0x10082B01 s (abandonVerify a0 s) := by
  unfold abandonVerify
  with_reducible
    repeat' first
      | exact .refl | assumption
      | (extract_lets +onlyGivenNames x; first | (refine .cut (x := x) ?_ ?_; (on_goal 1 => intro _; clear_value x); (on_goal 2 => subst x)) | subst x)
      | refine closeVerify_moves.on ?_ rfl | refine setLn_moves.on ?_ rfl

theorem seqGateIdle_moves {a0} {s : State} : Moves 0x4000 s (seqGateIdle a0 s) := by
  unfold seqGateIdle
  with_reducible
    repeat' first
      | exact .refl | assumption
      | (extract_lets +onlyGivenNames x; first | (refine .cut (x := x) ?_ ?_; (on_goal 1 => intro _; clear_value x); (on_goal 2 => subst x)) | subst x)
      | refine onMs_moves.on ?_ rfl

theorem squelchGate_moves {a0 a1} {s : State} : Moves 0x1C086B01 s (squelchGate a0 a1 s) := by
  unfold squelchGate
  with_reducible
    repeat' first
      | exact .refl | assumption
      | (extract_lets +onlyGivenNames x; first | (refine .cut (x := x) ?_ ?_; (on_goal 1 => intro _; clear_value x); (on_goal 2 => subst x)) | subst x)
      | refine tally_moves.on ?_ rfl | refine count_moves.on ?_ rfl | refine put_moves.on ?_ rfl | refine onLn_moves.on ?_ rfl
      | refine showPending_moves.on ?_ rfl | refine report_moves.on ?_ rfl | refine relocateSector_moves.on ?_ rfl
      | refine closeVerify_moves.on ?_ rfl | refine emit_moves.on ?_ rfl | refine seqGateIdle_moves.on ?_ rfl | refine afterClose_moves.on ?_ rfl
      | split | dsimp only

theorem inhibit_moves {a0 a1} {s : State} : Moves 0x1C086B01 s (inhibit a0 a1 s) := by
  unfold inhibit
  with_reducible
    repeat' first
      | exact .refl | assumption
      | (extract_lets +onlyGivenNames x; first | (refine .cut (x := x) ?_ ?_; (on_goal 1 => intro _; clear_value x); (on_goal 2 => subst x)) | subst x)
      | refine put_moves.on ?_ rfl | refine flag_moves.on ?_ rfl | refine onLn_moves.on ?_ rfl | refine squelchGate_moves.on ?_ rfl
      | refine msInt_moves.on ?_ rfl | refine abandonVerify_moves.on ?_ rfl | split

theorem forgetSettings_moves {a0 a1} {s : State} : Moves 0x2000 s (forgetSettings a0 a1 s) := by
  unfold forgetSettings
  with_reducible
    repeat' first
      | exact .refl | assumption
      | (extract_lets +onlyGivenNames x; first | (refine .cut (x := x) ?_ ?_; (on_goal 1 => intro _; clear_value x); (on_goal 2 => subst x)) | subst x)
      | refine onLn_moves.on ?_ rfl

theorem spoilAttempt_moves {a0} {s : State} : Moves 0x2000 s (spoilAttempt a0 s) := by
  unfold spoilAttempt
  with_reducible
    repeat' first
      | exact .refl | assumption
      | (extract_lets +onlyGivenNames x; first | (refine .cut (x := x) ?_ ?_; (on_goal 1 => intro _; clear_value x); (on_goal 2 => subst x)) | subst x)
      | refine onLn_moves.on ?_ rfl

theorem pllUnlock_moves {a0} {s : State} : Moves 0x1C086B01 s (pllUnlock a0 s) := by
  unfold pllUnlock
  with_reducible
    repeat' first
      | exact .refl | assumption | refine spoilAttempt_moves.on ?_ rfl | refine inhibit_moves.on ?_ rfl | refine flag_moves.on ?_ rfl
      | refine put_moves.on ?_ rfl

theorem loadZone_moves {a0 a1} {s : State} : Moves 0x1C086B01 s (loadZone a0 a1 s) := by
  unfold loadZone
  with_reducible
    repeat' first
      | exact .refl | assumption
      | (extract_lets +onlyGivenNames x; first | (refine .cut (x := x) ?_ ?_; (on_goal 1 => intro _; clear_value x); (on_goal 2 => subst x)) | subst x)
      | refine put_moves.on ?_ rfl | refine inhibit_moves.on ?_ rfl | split

theorem retractSleep_moves {a0} {s : State} : Moves 0x2000 s (retractSleep a0 s) := by
  unfold retractSleep
  with_reducible
    repeat' first
      | exact .refl | assumption
      | (extract_lets +onlyGivenNames x; first | (refine .cut (x := x) ?_ ?_; (on_goal 1 => intro _; clear_value x); (on_goal 2 => subst x)) | subst x)
      | refine onLn_moves.on ?_ rfl | split

theorem clearResult_moves {a0} {s : State} : Moves 0x1 s (clearResult a0 s) := by
  unfold clearResult
  with_reducible
    repeat' first
      | exact .refl | assumption
      | (extract_lets +onlyGivenNames x; first | (refine .cut (x := x) ?_ ?_; (on_goal 1 => intro _; clear_value x); (on_goal 2 => subst x)) | subst x)
      | refine put_moves.on ?_ rfl | refine setReg_moves.on ?_ rfl

theorem dropFirmware_moves {a0} {s : State} : Moves 0x1 s (dropFirmware a0 s) := by
  unfold dropFirmware
  with_reducible
    repeat' first
      | exact .refl | assumption | refine put_moves.on ?_ rfl | refine clearResult_moves.on ?_ rfl

theorem headLinkStop_moves {a0} {s : State} : Moves 0x2001 s (headLinkStop a0 s) := by
  unfold headLinkStop
  with_reducible
    repeat' first
      | exact .refl | assumption
      | (extract_lets +onlyGivenNames x; first | (refine .cut (x := x) ?_ ?_; (on_goal 1 => intro _; clear_value x); (on_goal 2 => subst x)) | subst x)
      | refine setLn_moves.on ?_ rfl | refine dropFirmware_moves.on ?_ rfl | split

theorem sleepFrame_moves {a0} {s : State} : Moves 0x2001 s (sleepFrame a0 s) := by
  unfold sleepFrame
  with_reducible
    repeat' first
      | exact .refl | assumption
      | (extract_lets +onlyGivenNames x; first | (refine .cut (x := x) ?_ ?_; (on_goal 1 => intro _; clear_value x); (on_goal 2 => subst x)) | subst x)
      | refine headLinkStop_moves.on ?_ rfl | refine onLn_moves.on ?_ rfl | split

theorem hold__moves {a1 a2 a3 a4} {s : State} : Moves 0x18 s (State.hold_ s a1 a2 a3 a4) := by
  unfold State.hold_
  with_reducible
    repeat' first
      | exact .refl | assumption
      | (extract_lets +onlyGivenNames x; first | (refine .cut (x := x) ?_ ?_; (on_goal 1 => intro _; clear_value x); (on_goal 2 => subst x)) | subst x)
      | fail_if_no_progress refine mk_bus_glb.on ?_ rfl | fail_if_no_progress refine mk_bus.on ?_ rfl | fail_if_no_progress refine mk_glb.on ?_ rfl
      | split

theorem write_moves {m : Nat} {a1 a2 a3 f4} {s : State} (hm : 0x919 ||| m = m) (hf4 : ∀  t, Moves m t (f4  t)) : Moves m s (State.write s a1 a2 a3 f4) := by
  unfold State.write
  with_reducible
    repeat' first
      | exact .refl | assumption | exact hf4 .. | refine (hf4 ..).step ?_
      | (extract_lets +onlyGivenNames x; first | (refine .cut (x := x) ?_ ?_; (on_goal 1 => intro _; clear_value x); (on_goal 2 => subst x)) | subst x)
      | refine answer_moves.on ?_ (sub_of hm rfl) | refine flag_moves.on ?_ (sub_of hm rfl) | refine hold__moves.on ?_ (sub_of hm rfl) | split

theorem command_moves {m : Nat} {a1 a2 f3} {s : State} (hm : 0x919 ||| m = m) (hf3 : ∀  t, Moves m t (f3  t)) : Moves m s (State.command s a1 a2 f3) := by
  unfold State.command
  with_reducible
    repeat' first
      | exact .refl | assumption | exact hf3 .. | refine (hf3 ..).step ?_ | refine (write_moves (m := m) (sub_of hm rfl) (fun _ => ?_)).step ?_
      | split

end Sys2Proof.Machine
end

