-- ==== Sys2Proof/Laws/MovesLane.lean ====
section
/-! SUPPORT. One lemma for each operation of HeadLink.lean, Decoding.lean, WritePath.lean, Servo.lean, Spindle.lean, Pair.lean, HostOps.lean, Buffer.lean: what it may change (Moves). -/

namespace Sys2Proof.Machine

set_option linter.all false
set_option Elab.async false

theorem pbusCommandEff_moves {a0 a1} {s : State} : Moves 0x2001 s (pbusCommandEff a0 a1 s) := by
  unfold pbusCommandEff
  with_reducible
    repeat' first
      | exact .refl | assumption
      | (extract_lets +onlyGivenNames x; first | (refine .cut (x := x) ?_ ?_; (on_goal 1 => intro _; clear_value x); (on_goal 2 => subst x)) | subst x)
      | refine put_moves.on ?_ rfl | refine dropFirmware_moves.on ?_ rfl | refine setReg_moves.on ?_ rfl | refine onLn_moves.on ?_ rfl | split
      | dsimp only

theorem execPbusCommandWrite_moves {a0 a1} {s : State} : MovesR 0x2919 s (execPbusCommandWrite a0 a1 s) := by
  unfold execPbusCommandWrite
  with_reducible
    repeat' first
      | exact .refl | assumption | exact .fault | refine .next ?_ | refine (write_moves (m := 0x2919) rfl (fun _ => ?_)).step ?_
      | refine pbusCommandEff_moves.on ?_ rfl

theorem startFrame_moves {a0 a1} {s : State} : Moves 0x8002000 s (startFrame a0 a1 s) := by
  unfold startFrame
  with_reducible
    repeat' first
      | exact .refl | assumption
      | (extract_lets +onlyGivenNames x; first | (refine .cut (x := x) ?_ ?_; (on_goal 1 => intro _; clear_value x); (on_goal 2 => subst x)) | subst x)
      | refine emit_moves.on ?_ rfl | refine onLn_moves.on ?_ rfl | fail_if_no_progress refine mk_bus.on ?_ rfl | split | dsimp only

theorem execPbusFrameStart_moves {a0 a1} {s : State} : MovesR 0x8002000 s (execPbusFrameStart a0 a1 s) := by
  unfold execPbusFrameStart
  with_reducible
    repeat' first
      | exact .refl | assumption | exact .fault | refine .next ?_
      | (extract_lets +onlyGivenNames x; first | (refine .cut (x := x) ?_ ?_; (on_goal 1 => intro _; clear_value x); (on_goal 2 => subst x)) | subst x)
      | refine setLn_moves.on ?_ rfl | refine startFrame_moves.on ?_ rfl | split | dsimp only

theorem completeFirmware_moves {a0} {s : State} : Moves 0x1 s (completeFirmware a0 s) := by
  unfold completeFirmware
  with_reducible
    repeat' first
      | exact .refl | assumption
      | (extract_lets +onlyGivenNames x; first | (refine .cut (x := x) ?_ ?_; (on_goal 1 => intro _; clear_value x); (on_goal 2 => subst x)) | subst x)
      | refine put_moves.on ?_ rfl | refine putB_moves.on ?_ rfl | refine clearResult_moves.on ?_ rfl

theorem busCheck_moves {a0} {s : State} : Moves 0x901 s (busCheck a0 s) := by
  unfold busCheck
  with_reducible
    repeat' first
      | exact .refl | assumption | refine count_moves.on ?_ rfl | refine flag_moves.on ?_ rfl

theorem resend_moves {a0 a1} {s : State} : Moves 0x2000 s (resend a0 a1 s) := by
  unfold resend
  with_reducible
    repeat' first
      | exact .refl | assumption
      | (extract_lets +onlyGivenNames x; first | (refine .cut (x := x) ?_ ?_; (on_goal 1 => intro _; clear_value x); (on_goal 2 => subst x)) | subst x)
      | refine onLn_moves.on ?_ rfl | split

theorem faultStatRead_moves {a0 a1 a2} {s : State} : Moves 0x1 s (faultStatRead a0 a1 a2 s) := by
  unfold faultStatRead
  with_reducible
    repeat' first
      | exact .refl | assumption | refine put_moves.on ?_ rfl | split

theorem landW8_moves {a0 a1 a2} {s : State} : Moves 0x6001 s (landW8 a0 a1 a2 s) := by
  unfold landW8
  with_reducible
    repeat' first
      | exact .refl | assumption
      | (extract_lets +onlyGivenNames x; first | (refine .cut (x := x) ?_ ?_; (on_goal 1 => intro _; clear_value x); (on_goal 2 => subst x)) | subst x)
      | refine onMs_moves.on ?_ rfl | refine faultStatRead_moves.on ?_ rfl | refine onLn_moves.on ?_ rfl | split | dsimp only

theorem readEnd_moves {a0 a1 a2 a3} {s : State} : Moves 0x6901 s (readEnd a0 a1 a2 a3 s) := by
  unfold readEnd
  with_reducible
    repeat' first
      | exact .refl | assumption
      | (extract_lets +onlyGivenNames x; first | (refine .cut (x := x) ?_ ?_; (on_goal 1 => intro _; clear_value x); (on_goal 2 => subst x)) | subst x)
      | refine busCheck_moves.on ?_ rfl | refine resend_moves.on ?_ rfl | refine onLn_moves.on ?_ rfl | refine completeFirmware_moves.on ?_ rfl
      | refine landW8_moves.on ?_ rfl | split | dsimp only

theorem writeEnd_moves {a0 a1} {s : State} : Moves 0x2001 s (writeEnd a0 a1 s) := by
  unfold writeEnd
  with_reducible
    repeat' first
      | exact .refl | assumption
      | (extract_lets +onlyGivenNames x; first | (refine .cut (x := x) ?_ ?_; (on_goal 1 => intro _; clear_value x); (on_goal 2 => subst x)) | subst x)
      | refine onLn_moves.on ?_ rfl | refine resend_moves.on ?_ rfl | refine completeFirmware_moves.on ?_ rfl | split | dsimp only

theorem execPbusFrameEnd_moves {a0 a1 a2} {s : State} : MovesR 0x6901 s (execPbusFrameEnd a0 a1 a2 s) := by
  unfold execPbusFrameEnd
  with_reducible
    repeat' first
      | exact .refl | assumption | exact .fault | refine .next ?_
      | (extract_lets +onlyGivenNames x; first | (refine .cut (x := x) ?_ ?_; (on_goal 1 => intro _; clear_value x); (on_goal 2 => subst x)) | subst x)
      | refine onLn_moves.on ?_ rfl | refine writeEnd_moves.on ?_ rfl | refine readEnd_moves.on ?_ rfl | fail_if_no_progress refine mk_bus.on ?_ rfl
      | refine dropFirmware_moves.on ?_ rfl | split | dsimp only

theorem execFaultQualified_moves {a0} {s : State} : MovesR 0x1C086B01 s (execFaultQualified a0 s) := by
  unfold execFaultQualified
  with_reducible
    repeat' first
      | exact .refl | assumption | exact .fault | refine .next ?_
      | (extract_lets +onlyGivenNames x; first | (refine .cut (x := x) ?_ ?_; (on_goal 1 => intro _; clear_value x); (on_goal 2 => subst x)) | subst x)
      | refine msInt_moves.on ?_ rfl | refine count_moves.on ?_ rfl | refine flag_moves.on ?_ rfl | refine forgetSettings_moves.on ?_ rfl
      | refine inhibit_moves.on ?_ rfl | split

theorem resumeSource_moves {a0 a1} {s : State} : Moves 0x2001 s (resumeSource a0 a1 s) := by
  unfold resumeSource
  with_reducible
    repeat' first
      | exact .refl | assumption
      | (extract_lets +onlyGivenNames x; first | (refine .cut (x := x) ?_ ?_; (on_goal 1 => intro _; clear_value x); (on_goal 2 => subst x)) | subst x)
      | refine onLn_moves.on ?_ rfl | refine put_moves.on ?_ rfl | split

theorem execPllRelock_moves {a0} {s : State} : MovesR 0x2001 s (execPllRelock a0 s) := by
  unfold execPllRelock
  with_reducible
    repeat' first
      | exact .refl | assumption | exact .fault | refine .next ?_ | refine put_moves.on ?_ rfl | refine resumeSource_moves.on ?_ rfl | split

theorem execTableDataWrite_moves {a0 a1 a2} {s : State} : MovesR 0x2919 s (execTableDataWrite a0 a1 a2 s) := by
  unfold execTableDataWrite
  with_reducible
    repeat' first
      | exact .refl | assumption | exact .fault | refine .next ?_
      | (extract_lets +onlyGivenNames x; first | (refine .cut (x := x) ?_ ?_; (on_goal 1 => intro _; clear_value x); (on_goal 2 => subst x)) | subst x)
      | refine (write_moves (m := 0x2919) rfl (fun _ => ?_)).step ?_ | refine tablePortWrite_moves.on ?_ rfl | split

theorem tableRead_moves {a0 a1} {s : State} : Moves 0x1 s (tableRead a0 a1 s).2 := by
  unfold tableRead
  with_reducible
    repeat' first
      | exact .refl | assumption
      | (extract_lets +onlyGivenNames x; first | (refine .cut (x := x) ?_ ?_; (on_goal 1 => intro _; clear_value x); (on_goal 2 => subst x)) | subst x)
      | refine tableStep_moves.on ?_ rfl | split | dsimp only

theorem execTableDataRead_moves {a0 a1} {s : State} : MovesR 0x9 s (execTableDataRead a0 a1 s) := by
  unfold execTableDataRead
  with_reducible
    repeat' first
      | exact .refl | assumption | exact .fault | refine .next ?_
      | (extract_lets +onlyGivenNames x; first | (refine .cut (x := x) ?_ ?_; (on_goal 1 => intro _; clear_value x); (on_goal 2 => subst x)) | subst x)
      | refine tableRead_moves.on ?_ rfl | refine (tableRead_moves.get (by assumption)).on ?_ rfl | refine answer_moves.on ?_ rfl | split

theorem writeBackRead_moves {a0 a1 a2} {s : State} : Moves 0x10002000 s (writeBackRead a0 a1 a2 s) := by
  unfold writeBackRead
  with_reducible
    repeat' first
      | exact .refl | assumption
      | (extract_lets +onlyGivenNames x; first | (refine .cut (x := x) ?_ ?_; (on_goal 1 => intro _; clear_value x); (on_goal 2 => subst x)) | subst x)
      | refine (adaptedTaps_moves.get (by assumption)).on ?_ rfl | refine adaptedTaps_moves.on ?_ rfl | refine writeBack_moves.on ?_ rfl | split
      | dsimp only

theorem closeWrite_moves {a0} {s : State} : Moves 0xC086B01 s (closeWrite a0 s) := by
  unfold closeWrite
  with_reducible
    repeat' first
      | exact .refl | assumption
      | (extract_lets +onlyGivenNames x; first | (refine .cut (x := x) ?_ ?_; (on_goal 1 => intro _; clear_value x); (on_goal 2 => subst x)) | subst x)
      | refine seqGateIdle_moves.on ?_ rfl | refine put_moves.on ?_ rfl | refine onLn_moves.on ?_ rfl | refine sectorPlaced_moves.on ?_ rfl
      | refine emit_moves.on ?_ rfl | refine afterClose_moves.on ?_ rfl | split | dsimp only

theorem closeRead_moves {a0 a1} {s : State} : Moves 0x10086B01 s (closeRead a0 a1 s) := by
  unfold closeRead
  with_reducible
    repeat' first
      | exact .refl | assumption
      | (extract_lets +onlyGivenNames x; first | (refine .cut (x := x) ?_ ?_; (on_goal 1 => intro _; clear_value x); (on_goal 2 => subst x)) | subst x)
      | refine seqGateIdle_moves.on ?_ rfl | refine put_moves.on ?_ rfl | refine onLn_moves.on ?_ rfl | refine afterClose_moves.on ?_ rfl
      | refine writeBackRead_moves.on ?_ rfl | split | dsimp only

theorem gateCloseEff_moves {a0 a1 a2} {s : State} : Moves 0x1C086B01 s (gateCloseEff a0 a1 a2 s) := by
  unfold gateCloseEff
  with_reducible
    repeat' first
      | exact .refl | assumption
      | (extract_lets +onlyGivenNames x; first | (refine .cut (x := x) ?_ ?_; (on_goal 1 => intro _; clear_value x); (on_goal 2 => subst x)) | subst x)
      | refine closeRead_moves.on ?_ rfl | refine closeWrite_moves.on ?_ rfl | refine closeVerify_moves.on ?_ rfl | split

theorem setEngine_moves {a1 a2} {s : State} : Moves 0x10000 s (State.setEngine s a1 a2) := by
  unfold State.setEngine
  with_reducible
    repeat' first
      | exact .refl | assumption
      | (extract_lets +onlyGivenNames x; first | (refine .cut (x := x) ?_ ?_; (on_goal 1 => intro _; clear_value x); (on_goal 2 => subst x)) | subst x)
      | fail_if_no_progress refine mk_ldp.on ?_ rfl

theorem showTokens_moves {s : State} : Moves 0x1 s (showTokens s) := by
  unfold showTokens
  with_reducible
    repeat' first
      | exact .refl | assumption
      | (extract_lets +onlyGivenNames x; first | (refine .cut (x := x) ?_ ?_; (on_goal 1 => intro _; clear_value x); (on_goal 2 => subst x)) | subst x)
      | refine put_moves.on ?_ rfl | refine (forEach_moves (m := 0x1) (fun _ _ => ?_)).step ?_ | refine putB_moves.on ?_ rfl
      | refine free_moves.on ?_ rfl | refine (free_moves.get (by assumption)).on ?_ rfl

theorem returnToken_moves {a0} {s : State} : Moves 0x10000 s (returnToken a0 s) := by
  unfold returnToken
  with_reducible
    repeat' first
      | exact .refl | assumption
      | (extract_lets +onlyGivenNames x; first | (refine .cut (x := x) ?_ ?_; (on_goal 1 => intro _; clear_value x); (on_goal 2 => subst x)) | subst x)
      | refine setEngine_moves.on ?_ rfl | refine free_moves.on ?_ rfl | refine (free_moves.get (by assumption)).on ?_ rfl | split

theorem raiseToFloor_moves {a0 a1} {s : State} : Moves 0x10000 s (raiseToFloor a0 a1 s) := by
  unfold raiseToFloor
  with_reducible
    repeat' first
      | exact .refl | assumption
      | (extract_lets +onlyGivenNames x; first | (refine .cut (x := x) ?_ ?_; (on_goal 1 => intro _; clear_value x); (on_goal 2 => subst x)) | subst x)
      | refine setEngine_moves.on ?_ rfl | refine free_moves.on ?_ rfl | refine (free_moves.get (by assumption)).on ?_ rfl | split

theorem levelTokens_moves {s : State} : Moves 0x10001 s (levelTokens s) := by
  unfold levelTokens
  with_reducible
    repeat' first
      | exact .refl | assumption
      | (extract_lets +onlyGivenNames x; first | (refine .cut (x := x) ?_ ?_; (on_goal 1 => intro _; clear_value x); (on_goal 2 => subst x)) | subst x)
      | refine (forEach_moves (m := 0x10001) (fun _ _ => ?_)).step ?_ | refine returnToken_moves.on ?_ rfl | refine showTokens_moves.on ?_ rfl
      | refine raiseToFloor_moves.on ?_ rfl

theorem requestEngine_moves {a0} {s : State} : Moves 0x10001 s (requestEngine a0 s) := by
  unfold requestEngine
  with_reducible
    repeat' first
      | exact .refl | assumption
      | (extract_lets +onlyGivenNames x; first | (refine .cut (x := x) ?_ ?_; (on_goal 1 => intro _; clear_value x); (on_goal 2 => subst x)) | subst x)
      | refine showTokens_moves.on ?_ rfl | refine setEngine_moves.on ?_ rfl | refine count_moves.on ?_ rfl
      | fail_if_no_progress refine mk_ldp.on ?_ rfl | split

theorem nextCodeword_moves {a0 a1} {s : State} : MovesV 0x2000 s (nextCodeword a0 a1 s) := by
  unfold nextCodeword
  with_reducible
    repeat' first
      | exact .refl | assumption | exact .none | refine .some ?_
      | (extract_lets +onlyGivenNames x; first | (refine .cut (x := x) ?_ ?_; (on_goal 1 => intro _; clear_value x); (on_goal 2 => subst x)) | subst x)
      | refine setLn_moves.on ?_ rfl | refine MovesV.map (fun _ => ?_) | split | dsimp only

theorem loopsTracking_moves {a0} {s : State} : Moves 0x2000 s (loopsTracking a0 s) := by
  unfold loopsTracking
  with_reducible
    repeat' first
      | exact .refl | assumption
      | (extract_lets +onlyGivenNames x; first | (refine .cut (x := x) ?_ ?_; (on_goal 1 => intro _; clear_value x); (on_goal 2 => subst x)) | subst x)
      | refine onLn_moves.on ?_ rfl | dsimp only

theorem softOverflow_moves {a0 a1 a2} {s : State} : Moves 0x6B01 s (softOverflow a0 a1 a2 s) := by
  unfold softOverflow
  with_reducible
    repeat' first
      | exact .refl | assumption
      | (extract_lets +onlyGivenNames x; first | (refine .cut (x := x) ?_ ?_; (on_goal 1 => intro _; clear_value x); (on_goal 2 => subst x)) | subst x)
      | refine fifoFlag_moves.on ?_ rfl | refine onLn_moves.on ?_ rfl | refine slipSector_moves.on ?_ rfl | refine tally_moves.on ?_ rfl | split
      | dsimp only

theorem spillRead_moves {a0 a1 a2} {s : State} : Moves 0x2000 s (spillRead a0 a1 a2 s) := by
  unfold spillRead
  with_reducible
    repeat' first
      | exact .refl | assumption
      | (extract_lets +onlyGivenNames x; first | (refine .cut (x := x) ?_ ?_; (on_goal 1 => intro _; clear_value x); (on_goal 2 => subst x)) | subst x)
      | refine setLn_moves.on ?_ rfl | split | dsimp only

theorem execTokenRequest_moves {a0 a1 a2 a3} {s : State} : MovesR 0x16B01 s (execTokenRequest a0 a1 a2 a3 s) := by
  unfold execTokenRequest
  with_reducible
    repeat' first
      | exact .refl | assumption | exact .fault | refine .next ?_
      | (extract_lets +onlyGivenNames x; first | (refine .cut (x := x) ?_ ?_; (on_goal 1 => intro _; clear_value x); (on_goal 2 => subst x)) | subst x)
      | refine (nextCodeword_moves.get (by assumption)).on ?_ rfl | refine nextCodeword_moves.on ?_ rfl | refine requestEngine_moves.on ?_ rfl
      | refine spillRead_moves.on ?_ rfl | refine loopsTracking_moves.on ?_ rfl | refine softOverflow_moves.on ?_ rfl | split

theorem execTokenGrant_moves {s : State} : MovesR 0x10001 s (execTokenGrant s) := by
  unfold execTokenGrant
  with_reducible
    repeat' first
      | exact .refl | assumption | exact .fault | refine .next ?_
      | (extract_lets +onlyGivenNames x; first | (refine .cut (x := x) ?_ ?_; (on_goal 1 => intro _; clear_value x); (on_goal 2 => subst x)) | subst x)
      | refine setEngine_moves.on ?_ rfl | refine showTokens_moves.on ?_ rfl | fail_if_no_progress refine mk_ldp.on ?_ rfl | split | dsimp only

theorem sendOutcome_moves {a0 a1 a2 a3} {s : State} : Moves 0x4000 s (sendOutcome a0 a1 a2 a3 s) := by
  unfold sendOutcome
  with_reducible
    repeat' first
      | exact .refl | assumption | refine msSend_moves.on ?_ rfl

theorem handOver_moves {a0 a1 a2 a3 a4} {s : State} : Moves 0x10000 s (handOver a0 a1 a2 a3 a4 s) := by
  unfold handOver
  with_reducible
    repeat' first
      | exact .refl | assumption
      | (extract_lets +onlyGivenNames x; first | (refine .cut (x := x) ?_ ?_; (on_goal 1 => intro _; clear_value x); (on_goal 2 => subst x)) | subst x)
      | fail_if_no_progress refine mk_ldp.on ?_ rfl

theorem countFailure_moves {a0 a1} {s : State} : Moves 0x1 s (countFailure a0 a1 s) := by
  unfold countFailure
  with_reducible
    repeat' first
      | exact .refl | assumption | refine count_moves.on ?_ rfl | split

theorem deliver_moves {a0 a1 a2} {s : State} : Moves 0x14B01 s (deliver a0 a1 a2 s) := by
  unfold deliver
  with_reducible
    repeat' first
      | exact .refl | assumption
      | (extract_lets +onlyGivenNames x; first | (refine .cut (x := x) ?_ ?_; (on_goal 1 => intro _; clear_value x); (on_goal 2 => subst x)) | subst x)
      | refine histo_moves.on ?_ rfl | refine tally_moves.on ?_ rfl | refine handOver_moves.on ?_ rfl | refine sendOutcome_moves.on ?_ rfl | split

theorem putGroup_moves {a0 a1} {s : State} : Moves 0x2000 s (putGroup a0 a1 s) := by
  unfold putGroup
  with_reducible
    repeat' first
      | exact .refl | assumption | refine onLn_moves.on ?_ rfl | dsimp only

theorem groupDecoded_moves {a1 a2 a3} {s : State} : Moves 0x2000 s (groupDecoded s a1 a2 a3) := by
  unfold groupDecoded
  with_reducible
    repeat' first
      | exact .refl | assumption
      | (extract_lets +onlyGivenNames x; first | (refine .cut (x := x) ?_ ?_; (on_goal 1 => intro _; clear_value x); (on_goal 2 => subst x)) | subst x)
      | refine putGroup_moves.on ?_ rfl | split | dsimp only

theorem groupFailed_moves {a1 a2} {s : State} : Moves 0x2000 s (groupFailed s a1 a2) := by
  unfold groupFailed
  with_reducible
    repeat' first
      | exact .refl | assumption
      | (extract_lets +onlyGivenNames x; first | (refine .cut (x := x) ?_ ?_; (on_goal 1 => intro _; clear_value x); (on_goal 2 => subst x)) | subst x)
      | refine putGroup_moves.on ?_ rfl | split | dsimp only

theorem deliverRecovered_moves {a0 a1 a2} {s : State} : Moves 0x14000 s (deliverRecovered a0 a1 a2 s) := by
  unfold deliverRecovered
  with_reducible
    repeat' first
      | exact .refl | assumption | refine handOver_moves.on ?_ rfl | refine sendOutcome_moves.on ?_ rfl | split

theorem restartGroup_moves {a0 a1} {s : State} : Moves 0x2000 s (restartGroup a0 a1 s) := by
  unfold restartGroup
  with_reducible
    repeat' first
      | exact .refl | assumption
      | (extract_lets +onlyGivenNames x; first | (refine .cut (x := x) ?_ ?_; (on_goal 1 => intro _; clear_value x); (on_goal 2 => subst x)) | subst x)
      | refine onLn_moves.on ?_ rfl | split | dsimp only

theorem restoreSettings_moves {a0 a1} {s : State} : Moves 0x6800 s (restoreSettings a0 a1 s) := by
  unfold restoreSettings
  with_reducible
    repeat' first
      | exact .refl | assumption
      | (extract_lets +onlyGivenNames x; first | (refine .cut (x := x) ?_ ?_; (on_goal 1 => intro _; clear_value x); (on_goal 2 => subst x)) | subst x)
      | refine onLn_moves.on ?_ rfl | refine msPost_moves.on ?_ rfl | split | dsimp only

theorem applySettings_moves {a0 a1 a2} {s : State} : Moves 0x6800 s (applySettings a0 a1 a2 s) := by
  unfold applySettings
  with_reducible
    repeat' first
      | exact .refl | assumption
      | (extract_lets +onlyGivenNames x; first | (refine .cut (x := x) ?_ ?_; (on_goal 1 => intro _; clear_value x); (on_goal 2 => subst x)) | subst x)
      | refine onLn_moves.on ?_ rfl | refine msPost_moves.on ?_ rfl | split | dsimp only

theorem endLadder_moves {a0} {s : State} : Moves 0x86B01 s (endLadder a0 s) := by
  unfold endLadder
  with_reducible
    repeat' first
      | exact .refl | assumption
      | (extract_lets +onlyGivenNames x; first | (refine .cut (x := x) ?_ ?_; (on_goal 1 => intro _; clear_value x); (on_goal 2 => subst x)) | subst x)
      | refine restoreSettings_moves.on ?_ rfl | refine histo_moves.on ?_ rfl | refine onAct_moves.on ?_ rfl | refine onLn_moves.on ?_ rfl
      | refine showFailing_moves.on ?_ rfl | refine put_moves.on ?_ rfl | dsimp only

theorem unrecovered_moves {a0 a1} {s : State} : Moves 0x4080B01 s (unrecovered a0 a1 s) := by
  unfold unrecovered
  with_reducible
    repeat' first
      | exact .refl | assumption
      | (extract_lets +onlyGivenNames x; first | (refine .cut (x := x) ?_ ?_; (on_goal 1 => intro _; clear_value x); (on_goal 2 => subst x)) | subst x)
      | refine histo_moves.on ?_ rfl | refine tally_moves.on ?_ rfl | refine count_moves.on ?_ rfl | refine sectorOutcome_moves.on ?_ rfl
      | refine report_moves.on ?_ rfl

theorem rung8_moves {a0} {s : State} : Moves 0x4086B01 s (rung8 a0 s) := by
  unfold rung8
  with_reducible
    repeat' first
      | exact .refl | assumption
      | (extract_lets +onlyGivenNames x; first | (refine .cut (x := x) ?_ ?_; (on_goal 1 => intro _; clear_value x); (on_goal 2 => subst x)) | subst x)
      | refine endLadder_moves.on ?_ rfl | refine (forEach_moves (m := 0x4086B01) (fun _ _ => ?_)).step ?_ | refine unrecovered_moves.on ?_ rfl
      | split

theorem enterRung_moves {a0 a1 a2} {s : State} : Moves 0x4086B01 s (enterRung a0 a1 a2 s) := by
  unfold enterRung
  with_reducible
    repeat' first
      | exact .refl | assumption | refine rung8_moves.on ?_ rfl | refine applySettings_moves.on ?_ rfl | refine put_moves.on ?_ rfl | split

theorem enterLadder_moves {a0 a1} {s : State} : Moves 0x4086B01 s (enterLadder a0 a1 s) := by
  unfold enterLadder
  with_reducible
    repeat' first
      | exact .refl | assumption
      | (extract_lets +onlyGivenNames x; first | (refine .cut (x := x) ?_ ?_; (on_goal 1 => intro _; clear_value x); (on_goal 2 => subst x)) | subst x)
      | refine showFailing_moves.on ?_ rfl | refine onLn_moves.on ?_ rfl | refine put_moves.on ?_ rfl | refine rung8_moves.on ?_ rfl
      | refine enterRung_moves.on ?_ rfl | split | dsimp only

theorem ladderSuccess_moves {a0 a1 a2} {s : State} : Moves 0x4086B01 s (ladderSuccess a0 a1 a2 s) := by
  unfold ladderSuccess
  with_reducible
    repeat' first
      | exact .refl | assumption
      | (extract_lets +onlyGivenNames x; first | (refine .cut (x := x) ?_ ?_; (on_goal 1 => intro _; clear_value x); (on_goal 2 => subst x)) | subst x)
      | refine onLn_moves.on ?_ rfl | refine sectorOutcome_moves.on ?_ rfl | refine showFailing_moves.on ?_ rfl | refine histo_moves.on ?_ rfl
      | refine report_moves.on ?_ rfl | refine count_moves.on ?_ rfl | refine msPost_moves.on ?_ rfl | split | dsimp only

theorem groupEnd_moves {a0 a1} {s : State} : Moves 0x4096B01 s (groupEnd a0 a1 s) := by
  unfold groupEnd
  with_reducible
    repeat' first
      | exact .refl | assumption
      | (extract_lets +onlyGivenNames x; first | (refine .cut (x := x) ?_ ?_; (on_goal 1 => intro _; clear_value x); (on_goal 2 => subst x)) | subst x)
      | refine (forEach_moves (m := 0x4096B01) (fun _ _ => ?_)).step ?_ | refine sectorOutcome_moves.on ?_ rfl | refine histo_moves.on ?_ rfl
      | refine count_moves.on ?_ rfl | refine enterLadder_moves.on ?_ rfl | refine putGroup_moves.on ?_ rfl | refine deliverRecovered_moves.on ?_ rfl
      | split | dsimp only

theorem otfFailed_moves {a0 a1 a2 a3} {s : State} : Moves 0x4096B01 s (otfFailed a0 a1 a2 a3 s) := by
  unfold otfFailed
  with_reducible
    repeat' first
      | exact .refl | assumption
      | (extract_lets +onlyGivenNames x; first | (refine .cut (x := x) ?_ ?_; (on_goal 1 => intro _; clear_value x); (on_goal 2 => subst x)) | subst x)
      | refine count_moves.on ?_ rfl | refine enterLadder_moves.on ?_ rfl | refine groupEnd_moves.on ?_ rfl | refine groupFailed_moves.on ?_ rfl
      | refine sendOutcome_moves.on ?_ rfl | refine tally_moves.on ?_ rfl | split

theorem otfEnd_moves {a0 a1 a2 a3 a4} {s : State} : Moves 0x4096B01 s (otfEnd a0 a1 a2 a3 a4 s) := by
  unfold otfEnd
  with_reducible
    repeat' first
      | exact .refl | assumption
      | (extract_lets +onlyGivenNames x; first | (refine .cut (x := x) ?_ ?_; (on_goal 1 => intro _; clear_value x); (on_goal 2 => subst x)) | subst x)
      | refine groupEnd_moves.on ?_ rfl | refine groupDecoded_moves.on ?_ rfl | refine sectorOutcome_moves.on ?_ rfl | refine deliver_moves.on ?_ rfl
      | refine countFailure_moves.on ?_ rfl | refine spillRead_moves.on ?_ rfl | refine otfFailed_moves.on ?_ rfl | split

theorem retryEnd_moves {a0 a1 a2 a3} {s : State} : Moves 0x4096B01 s (retryEnd a0 a1 a2 a3 s) := by
  unfold retryEnd
  with_reducible
    repeat' first
      | exact .refl | assumption
      | (extract_lets +onlyGivenNames x; first | (refine .cut (x := x) ?_ ?_; (on_goal 1 => intro _; clear_value x); (on_goal 2 => subst x)) | subst x)
      | refine groupDecoded_moves.on ?_ rfl | refine ladderSuccess_moves.on ?_ rfl | refine deliver_moves.on ?_ rfl
      | refine sendOutcome_moves.on ?_ rfl | refine countFailure_moves.on ?_ rfl | refine groupFailed_moves.on ?_ rfl | split

theorem verifyEnd_moves {a0 a1 a2 a3} {s : State} : Moves 0x2B01 s (verifyEnd a0 a1 a2 a3 s) := by
  unfold verifyEnd
  with_reducible
    repeat' first
      | exact .refl | assumption
      | (extract_lets +onlyGivenNames x; first | (refine .cut (x := x) ?_ ?_; (on_goal 1 => intro _; clear_value x); (on_goal 2 => subst x)) | subst x)
      | refine tally_moves.on ?_ rfl | refine countFailure_moves.on ?_ rfl | refine onLn_moves.on ?_ rfl | split | dsimp only

theorem freeBuffer_moves {a0 a1} {s : State} : Moves 0x10001 s (freeBuffer a0 a1 s) := by
  unfold freeBuffer
  with_reducible
    repeat' first
      | exact .refl | assumption
      | (extract_lets +onlyGivenNames x; first | (refine .cut (x := x) ?_ ?_; (on_goal 1 => intro _; clear_value x); (on_goal 2 => subst x)) | subst x)
      | refine showTokens_moves.on ?_ rfl | refine setEngine_moves.on ?_ rfl | fail_if_no_progress refine mk_ldp.on ?_ rfl
      | refine levelTokens_moves.on ?_ rfl | split | dsimp only

theorem dropCodewords_moves {a0} {s : State} : Moves 0x10001 s (dropCodewords a0 s) := by
  unfold dropCodewords
  with_reducible
    repeat' first
      | exact .refl | assumption
      | (extract_lets +onlyGivenNames x; first | (refine .cut (x := x) ?_ ?_; (on_goal 1 => intro _; clear_value x); (on_goal 2 => subst x)) | subst x)
      | refine levelTokens_moves.on ?_ rfl | fail_if_no_progress refine mk_ldp.on ?_ rfl | dsimp only

theorem decodeDoneEff_moves {a0 a1} {s : State} : Moves 0x4096B01 s (decodeDoneEff a0 a1 s) := by
  unfold decodeDoneEff
  with_reducible
    repeat' first
      | exact .refl | assumption
      | (extract_lets +onlyGivenNames x; first | (refine .cut (x := x) ?_ ?_; (on_goal 1 => intro _; clear_value x); (on_goal 2 => subst x)) | subst x)
      | refine freeBuffer_moves.on ?_ rfl | refine setEngine_moves.on ?_ rfl | refine otfEnd_moves.on ?_ rfl | refine retryEnd_moves.on ?_ rfl
      | refine verifyEnd_moves.on ?_ rfl | split

theorem rung7_moves {a0 a1} {s : State} : Moves 0x4096B01 s (rung7 a0 a1 s) := by
  unfold rung7
  with_reducible
    repeat' first
      | exact .refl | assumption
      | (extract_lets +onlyGivenNames x; first | (refine .cut (x := x) ?_ ?_; (on_goal 1 => intro _; clear_value x); (on_goal 2 => subst x)) | subst x)
      | refine count_moves.on ?_ rfl | refine deliverRecovered_moves.on ?_ rfl | refine (forEach_moves (m := 0x4096B01) (fun _ _ => ?_)).step ?_
      | refine ladderSuccess_moves.on ?_ rfl | split | dsimp only

theorem freshAttempt_moves {a0} {s : State} : Moves 0x2000 s (freshAttempt a0 s) := by
  unfold freshAttempt
  with_reducible
    repeat' first
      | exact .refl | assumption
      | (extract_lets +onlyGivenNames x; first | (refine .cut (x := x) ?_ ?_; (on_goal 1 => intro _; clear_value x); (on_goal 2 => subst x)) | subst x)
      | refine onLn_moves.on ?_ rfl

theorem ladderAttemptEndEff_moves {a0 a1} {s : State} : Moves 0x4096B01 s (ladderAttemptEndEff a0 a1 s) := by
  unfold ladderAttemptEndEff
  with_reducible
    repeat' first
      | exact .refl | assumption
      | (extract_lets +onlyGivenNames x; first | (refine .cut (x := x) ?_ ?_; (on_goal 1 => intro _; clear_value x); (on_goal 2 => subst x)) | subst x)
      | refine freshAttempt_moves.on ?_ rfl | refine count_moves.on ?_ rfl | refine endLadder_moves.on ?_ rfl | refine rung8_moves.on ?_ rfl
      | refine enterRung_moves.on ?_ rfl | refine restoreSettings_moves.on ?_ rfl | refine rung7_moves.on ?_ rfl | split

theorem abortLadder_moves {a0} {s : State} : Moves 0x4086B01 s (abortLadder a0 s) := by
  unfold abortLadder
  with_reducible
    repeat' first
      | exact .refl | assumption
      | (extract_lets +onlyGivenNames x; first | (refine .cut (x := x) ?_ ?_; (on_goal 1 => intro _; clear_value x); (on_goal 2 => subst x)) | subst x)
      | refine endLadder_moves.on ?_ rfl | refine (forEach_moves (m := 0x4086B01) (fun _ _ => ?_)).step ?_ | refine sectorOutcome_moves.on ?_ rfl
      | refine report_moves.on ?_ rfl | refine msInt_moves.on ?_ rfl | split | dsimp only

theorem latchSettings_moves {a0} {s : State} : Moves 0x2000 s (latchSettings a0 s) := by
  unfold latchSettings
  with_reducible
    repeat' first
      | exact .refl | assumption
      | (extract_lets +onlyGivenNames x; first | (refine .cut (x := x) ?_ ?_; (on_goal 1 => intro _; clear_value x); (on_goal 2 => subst x)) | subst x)
      | refine onLn_moves.on ?_ rfl

theorem chooseVerify_moves {a0 a1} {s : State} : Moves 0x1 s (chooseVerify a0 a1 s).2 := by
  unfold chooseVerify
  with_reducible
    repeat' first
      | exact .refl | assumption
      | (extract_lets +onlyGivenNames x; first | (refine .cut (x := x) ?_ ?_; (on_goal 1 => intro _; clear_value x); (on_goal 2 => subst x)) | subst x)
      | refine put_moves.on ?_ rfl | split | dsimp only

theorem openInhibited_moves {a0} {s : State} : Moves 0x1C086B01 s (openInhibited a0 s) := by
  unfold openInhibited
  with_reducible
    repeat' first
      | exact .refl | assumption
      | (extract_lets +onlyGivenNames x; first | (refine .cut (x := x) ?_ ?_; (on_goal 1 => intro _; clear_value x); (on_goal 2 => subst x)) | subst x)
      | refine squelchGate_moves.on ?_ rfl | refine msInt_moves.on ?_ rfl | split

theorem driveGate_moves {a0 a1 a2 a3} {s : State} : Moves 0x8006001 s (driveGate a0 a1 a2 a3 s) := by
  unfold driveGate
  with_reducible
    repeat' first
      | exact .refl | assumption
      | (extract_lets +onlyGivenNames x; first | (refine .cut (x := x) ?_ ?_; (on_goal 1 => intro _; clear_value x); (on_goal 2 => subst x)) | subst x)
      | refine emit_moves.on ?_ rfl | refine onLn_moves.on ?_ rfl | refine onMs_moves.on ?_ rfl | refine put_moves.on ?_ rfl | dsimp only

theorem openWriteGate_moves {a0 a1 a2} {s : State} : Moves 0x1C086B01 s (openWriteGate a0 a1 a2 s) := by
  unfold openWriteGate
  with_reducible
    repeat' first
      | exact .refl | assumption
      | (extract_lets +onlyGivenNames x; first | (refine .cut (x := x) ?_ ?_; (on_goal 1 => intro _; clear_value x); (on_goal 2 => subst x)) | subst x)
      | refine chooseVerify_moves.on ?_ rfl | refine (chooseVerify_moves.get3 (by assumption)).on ?_ rfl | refine latchSettings_moves.on ?_ rfl
      | refine onLn_moves.on ?_ rfl | refine openInhibited_moves.on ?_ rfl | refine showPending_moves.on ?_ rfl | refine driveGate_moves.on ?_ rfl
      | split | dsimp only

theorem continueWrite_moves {a0 a1} {s : State} : Moves 0x1C086B01 s (continueWrite a0 a1 s) := by
  unfold continueWrite
  with_reducible
    repeat' first
      | exact .refl | assumption
      | (extract_lets +onlyGivenNames x; first | (refine .cut (x := x) ?_ ?_; (on_goal 1 => intro _; clear_value x); (on_goal 2 => subst x)) | subst x)
      | refine driveGate_moves.on ?_ rfl | refine latchSettings_moves.on ?_ rfl | refine openInhibited_moves.on ?_ rfl

theorem writeSector_moves {a0 a1} {s : State} : Moves 0x1C086B01 s (writeSector a0 a1 s) := by
  unfold writeSector
  with_reducible
    repeat' first
      | exact .refl | assumption
      | (extract_lets +onlyGivenNames x; first | (refine .cut (x := x) ?_ ?_; (on_goal 1 => intro _; clear_value x); (on_goal 2 => subst x)) | subst x)
      | refine openWriteGate_moves.on ?_ rfl | refine setLn_moves.on ?_ rfl | split

theorem execVerifyGateOpen_moves {a0} {s : State} : MovesR 0x2001 s (execVerifyGateOpen a0 s) := by
  unfold execVerifyGateOpen
  with_reducible
    repeat' first
      | exact .refl | assumption | exact .fault | refine .next ?_
      | (extract_lets +onlyGivenNames x; first | (refine .cut (x := x) ?_ ?_; (on_goal 1 => intro _; clear_value x); (on_goal 2 => subst x)) | subst x)
      | refine put_moves.on ?_ rfl | refine onLn_moves.on ?_ rfl | split | dsimp only

theorem verifyMiss_moves {a0 a1} {s : State} : Moves 0x4086B01 s (verifyMiss a0 a1 s) := by
  unfold verifyMiss
  with_reducible
    repeat' first
      | exact .refl | assumption
      | (extract_lets +onlyGivenNames x; first | (refine .cut (x := x) ?_ ?_; (on_goal 1 => intro _; clear_value x); (on_goal 2 => subst x)) | subst x)
      | refine tally_moves.on ?_ rfl | refine count_moves.on ?_ rfl | refine relocateSector_moves.on ?_ rfl | refine onLn_moves.on ?_ rfl
      | refine msPost_moves.on ?_ rfl | split | dsimp only

theorem settleSector_moves {a0 a1} {s : State} : Moves 0x2001 s (settleSector a0 a1 s) := by
  unfold settleSector
  with_reducible
    repeat' first
      | exact .refl | assumption
      | (extract_lets +onlyGivenNames x; first | (refine .cut (x := x) ?_ ?_; (on_goal 1 => intro _; clear_value x); (on_goal 2 => subst x)) | subst x)
      | refine showPending_moves.on ?_ rfl | refine onLn_moves.on ?_ rfl | dsimp only

theorem verifyOutcomeEff_moves {a0 a1} {s : State} : Moves 0x4086B01 s (verifyOutcomeEff a0 a1 s) := by
  unfold verifyOutcomeEff
  with_reducible
    repeat' first
      | exact .refl | assumption
      | (extract_lets +onlyGivenNames x; first | (refine .cut (x := x) ?_ ?_; (on_goal 1 => intro _; clear_value x); (on_goal 2 => subst x)) | subst x)
      | refine onLn_moves.on ?_ rfl | refine settleSector_moves.on ?_ rfl | refine sectorPlaced_moves.on ?_ rfl | refine count_moves.on ?_ rfl
      | refine verifyMiss_moves.on ?_ rfl | refine put_moves.on ?_ rfl | split | dsimp only

theorem writeAgain_moves {a0 a1} {s : State} : Moves 0x1C086B01 s (writeAgain a0 a1 s) := by
  unfold writeAgain
  with_reducible
    repeat' first
      | exact .refl | assumption | refine msPost_moves.on ?_ rfl | refine openWriteGate_moves.on ?_ rfl

theorem execSectorRewrite_moves {a0} {s : State} : MovesR 0x1C086B01 s (execSectorRewrite a0 s) := by
  unfold execSectorRewrite
  with_reducible
    repeat' first
      | exact .refl | assumption | exact .fault | refine .next ?_
      | (extract_lets +onlyGivenNames x; first | (refine .cut (x := x) ?_ ?_; (on_goal 1 => intro _; clear_value x); (on_goal 2 => subst x)) | subst x)
      | refine count_moves.on ?_ rfl | refine onLn_moves.on ?_ rfl | refine writeAgain_moves.on ?_ rfl | split | dsimp only

theorem execWriteInhibit_moves {a0 a1} {s : State} : MovesR 0x1C086B01 s (execWriteInhibit a0 a1 s) := by
  unfold execWriteInhibit
  with_reducible
    repeat' first
      | exact .refl | assumption | exact .fault | refine .next ?_
      | (extract_lets +onlyGivenNames x; first | (refine .cut (x := x) ?_ ?_; (on_goal 1 => intro _; clear_value x); (on_goal 2 => subst x)) | subst x)
      | refine inhibit_moves.on ?_ rfl | split

theorem execInhibitResume_moves {a0 a1} {s : State} : MovesR 0x2001 s (execInhibitResume a0 a1 s) := by
  unfold execInhibitResume
  with_reducible
    repeat' first
      | exact .refl | assumption | exact .fault | refine .next ?_ | refine resumeSource_moves.on ?_ rfl | split

theorem interruptedRewriteEff_moves {a0} {s : State} : Moves 0x1C086B01 s (interruptedRewriteEff a0 s) := by
  unfold interruptedRewriteEff
  with_reducible
    repeat' first
      | exact .refl | assumption
      | (extract_lets +onlyGivenNames x; first | (refine .cut (x := x) ?_ ?_; (on_goal 1 => intro _; clear_value x); (on_goal 2 => subst x)) | subst x)
      | refine onLn_moves.on ?_ rfl | refine relocateSector_moves.on ?_ rfl | refine writeAgain_moves.on ?_ rfl | split | dsimp only

theorem execWriteFifoUnderrun_moves {a0} {s : State} : MovesR 0x1C086B01 s (execWriteFifoUnderrun a0 s) := by
  unfold execWriteFifoUnderrun
  with_reducible
    repeat' first
      | exact .refl | assumption | exact .fault | refine .next ?_
      | (extract_lets +onlyGivenNames x; first | (refine .cut (x := x) ?_ ?_; (on_goal 1 => intro _; clear_value x); (on_goal 2 => subst x)) | subst x)
      | refine (iff_moves (m := 0x1C086B01) (fun _ => ?_)).step ?_ | refine flag_moves.on ?_ rfl | refine count_moves.on ?_ rfl
      | refine inhibit_moves.on ?_ rfl | refine fifoFlag_moves.on ?_ rfl | split

theorem servoFault_moves {a0 a1} {s : State} : Moves 0x901 s (servoFault a0 a1 s) := by
  unfold servoFault
  with_reducible
    repeat' first
      | exact .refl | assumption | refine flag_moves.on ?_ rfl

theorem inhibitWrites_moves {a0} {s : State} : Moves 0x1C086B01 s (inhibitWrites a0 s) := by
  unfold inhibitWrites
  with_reducible
    repeat' first
      | exact .refl | assumption | refine inhibit_moves.on ?_ rfl | refine onLn_moves.on ?_ rfl | split | dsimp only

theorem writeUnsafe_moves {a0} {s : State} : Moves 0x1C086B01 s (writeUnsafe a0 s) := by
  unfold writeUnsafe
  with_reducible
    repeat' first
      | exact .refl | assumption
      | (extract_lets +onlyGivenNames x; first | (refine .cut (x := x) ?_ ?_; (on_goal 1 => intro _; clear_value x); (on_goal 2 => subst x)) | subst x)
      | refine servoFault_moves.on ?_ rfl | refine inhibitWrites_moves.on ?_ rfl | split

theorem setMotion_moves {a0 a1} {s : State} : Moves 0x1C086B01 s (setMotion a0 a1 s) := by
  unfold setMotion
  with_reducible
    repeat' first
      | exact .refl | assumption
      | (extract_lets +onlyGivenNames x; first | (refine .cut (x := x) ?_ ?_; (on_goal 1 => intro _; clear_value x); (on_goal 2 => subst x)) | subst x)
      | refine put_moves.on ?_ rfl | refine writeUnsafe_moves.on ?_ rfl | split

theorem putMant_moves {a0 a1 a2 a3} {s : State} : Moves 0x8000 s (putMant a0 a1 a2 a3 s) := by
  unfold putMant
  with_reducible
    repeat' first
      | exact .refl | assumption
      | (extract_lets +onlyGivenNames x; first | (refine .cut (x := x) ?_ ?_; (on_goal 1 => intro _; clear_value x); (on_goal 2 => subst x)) | subst x)
      | refine onSv_moves.on ?_ rfl

theorem putExp_moves {a0 a1 a2 a3} {s : State} : Moves 0x8000 s (putExp a0 a1 a2 a3 s) := by
  unfold putExp
  with_reducible
    repeat' first
      | exact .refl | assumption
      | (extract_lets +onlyGivenNames x; first | (refine .cut (x := x) ?_ ?_; (on_goal 1 => intro _; clear_value x); (on_goal 2 => subst x)) | subst x)
      | refine onSv_moves.on ?_ rfl

theorem mapBlock_moves {a0 a1 a2 a3 a4} {s : State} : Moves 0x8000 s (mapBlock a0 a1 a2 a3 a4 s) := by
  unfold mapBlock
  with_reducible
    repeat' first
      | exact .refl | assumption | refine putExp_moves.on ?_ rfl | refine (forEach_moves (m := 0x8000) (fun _ _ => ?_)).step ?_
      | refine putMant_moves.on ?_ rfl

theorem renormUp_moves {a0 a1 a2 a3} {s : State} : Moves 0x8000 s (renormUp a0 a1 a2 a3 s).2 := by
  induction a3 generalizing a0 a1 a2 s with
  | zero =>
    unfold renormUp
    with_reducible
      repeat' first
       | exact .refl | assumption
       | (extract_lets +onlyGivenNames x; first | (refine .cut (x := x) ?_ ?_; (on_goal 1 => intro _; clear_value x); (on_goal 2 => subst x)) | subst x)
       | refine mapBlock_moves.on ?_ rfl | split | dsimp only
  | succ k ih =>
    unfold renormUp
    with_reducible
      repeat' first
       | exact .refl | assumption
       | (extract_lets +onlyGivenNames x; first | (refine .cut (x := x) ?_ ?_; (on_goal 1 => intro _; clear_value x); (on_goal 2 => subst x)) | subst x)
       | refine mapBlock_moves.on ?_ rfl | split | dsimp only | refine ih.on ?_ rfl | refine (ih.get (by assumption)).on ?_ rfl


theorem renormDown_moves {a0 a1 a2 a3} {s : State} : Moves 0x8001 s (renormDown a0 a1 a2 a3 s) := by
  induction a3 generalizing a0 a1 a2 s with
  | zero =>
    unfold renormDown
    with_reducible
      repeat' first
       | exact .refl | assumption
       | (extract_lets +onlyGivenNames x; first | (refine .cut (x := x) ?_ ?_; (on_goal 1 => intro _; clear_value x); (on_goal 2 => subst x)) | subst x)
       | refine count_moves.on ?_ rfl | refine mapBlock_moves.on ?_ rfl | split
  | succ k ih =>
    unfold renormDown
    with_reducible
      repeat' first
       | exact .refl | assumption
       | (extract_lets +onlyGivenNames x; first | (refine .cut (x := x) ?_ ?_; (on_goal 1 => intro _; clear_value x); (on_goal 2 => subst x)) | subst x)
       | refine count_moves.on ?_ rfl | refine mapBlock_moves.on ?_ rfl | split | refine ih.on ?_ rfl


theorem renormBlock_moves {a0 a1 a2} {s : State} : Moves 0x8001 s (renormBlock a0 a1 a2 s).2 := by
  unfold renormBlock
  with_reducible
    repeat' first
      | exact .refl | assumption
      | (extract_lets +onlyGivenNames x; first | (refine .cut (x := x) ?_ ?_; (on_goal 1 => intro _; clear_value x); (on_goal 2 => subst x)) | subst x)
      | refine renormUp_moves.on ?_ rfl | refine (renormUp_moves.get (by assumption)).on ?_ rfl | refine renormDown_moves.on ?_ rfl | split
      | dsimp only

theorem storeWord_moves {a0 a1 a2 a3 a4} {s : State} : Moves 0x8000 s (storeWord a0 a1 a2 a3 a4 s).2 := by
  induction a4 generalizing a0 a1 a2 a3 s with
  | zero =>
    unfold storeWord
    with_reducible
      repeat' first
       | exact .refl | assumption
       | (extract_lets +onlyGivenNames x; first | (refine .cut (x := x) ?_ ?_; (on_goal 1 => intro _; clear_value x); (on_goal 2 => subst x)) | subst x)
       | refine putMant_moves.on ?_ rfl | refine mapBlock_moves.on ?_ rfl | split | dsimp only
  | succ k ih =>
    unfold storeWord
    with_reducible
      repeat' first
       | exact .refl | assumption
       | (extract_lets +onlyGivenNames x; first | (refine .cut (x := x) ?_ ?_; (on_goal 1 => intro _; clear_value x); (on_goal 2 => subst x)) | subst x)
       | refine putMant_moves.on ?_ rfl | refine mapBlock_moves.on ?_ rfl | split | dsimp only | refine ih.on ?_ rfl
       | refine (ih.get (by assumption)).on ?_ rfl


theorem nextSlot_moves {a0} {s : State} : Moves 0x8000 s (nextSlot a0 s) := by
  unfold nextSlot
  with_reducible
    repeat' first
      | exact .refl | assumption
      | (extract_lets +onlyGivenNames x; first | (refine .cut (x := x) ?_ ?_; (on_goal 1 => intro _; clear_value x); (on_goal 2 => subst x)) | subst x)
      | refine onSv_moves.on ?_ rfl

theorem switchSet_moves {a0 a1} {s : State} : Moves 0x8001 s (switchSet a0 a1 s) := by
  unfold switchSet
  with_reducible
    repeat' first
      | exact .refl | assumption
      | (extract_lets +onlyGivenNames x; first | (refine .cut (x := x) ?_ ?_; (on_goal 1 => intro _; clear_value x); (on_goal 2 => subst x)) | subst x)
      | refine (forEach_moves (m := 0x8001) (fun _ _ => ?_)).step ?_ | refine putMant_moves.on ?_ rfl | refine putExp_moves.on ?_ rfl
      | refine put_moves.on ?_ rfl | split

theorem sendMotion_moves {a0 a1 a2} {s : State} : Moves 0x8020000 s (sendMotion a0 a1 a2 s) := by
  unfold sendMotion
  with_reducible
    repeat' first
      | exact .refl | assumption
      | (extract_lets +onlyGivenNames x; first | (refine .cut (x := x) ?_ ?_; (on_goal 1 => intro _; clear_value x); (on_goal 2 => subst x)) | subst x)
      | refine emit_moves.on ?_ rfl | fail_if_no_progress refine mk_mot.on ?_ rfl | split

theorem beatsPass_moves {a0} {s : State} : Moves 0x20000 s (beatsPass a0 s) := by
  unfold beatsPass
  with_reducible
    repeat' first
      | exact .refl | assumption | fail_if_no_progress refine mk_mot.on ?_ rfl

theorem inbound_moves {m : Nat} {a0 a1 f2} {s : State} (hm : 0x60001 ||| m = m) (hf2 : ∀  t, Moves m t (f2  t)) : Moves m s (inbound a0 a1 f2 s) := by
  unfold inbound
  with_reducible
    repeat' first
      | exact .refl | assumption | exact hf2 .. | refine (hf2 ..).step ?_
      | (extract_lets +onlyGivenNames x; first | (refine .cut (x := x) ?_ ?_; (on_goal 1 => intro _; clear_value x); (on_goal 2 => subst x)) | subst x)
      | refine count_moves.on ?_ (sub_of hm rfl) | refine put_moves.on ?_ (sub_of hm rfl) | fail_if_no_progress refine mk_mot.on ?_ (sub_of hm rfl)
      | fail_if_no_progress refine mk_spm.on ?_ (sub_of hm rfl) | split

theorem newPlan_moves {a0 a1 a2 a3 a4} {s : State} : Moves 0x8000 s (newPlan a0 a1 a2 a3 a4 s) := by
  unfold newPlan
  with_reducible
    repeat' first
      | exact .refl | assumption
      | (extract_lets +onlyGivenNames x; first | (refine .cut (x := x) ?_ ?_; (on_goal 1 => intro _; clear_value x); (on_goal 2 => subst x)) | subst x)
      | refine onSv_moves.on ?_ rfl

theorem latchLimits_moves {a0} {s : State} : Moves 0x8000 s (latchLimits a0 s) := by
  unfold latchLimits
  with_reducible
    repeat' first
      | exact .refl | assumption
      | (extract_lets +onlyGivenNames x; first | (refine .cut (x := x) ?_ ?_; (on_goal 1 => intro _; clear_value x); (on_goal 2 => subst x)) | subst x)
      | refine onSv_moves.on ?_ rfl

theorem abandonTarget_moves {a0} {s : State} : Moves 0x800 s (abandonTarget a0 s) := by
  unfold abandonTarget
  with_reducible
    repeat' first
      | exact .refl | assumption | refine (iff_moves (m := 0x800) (fun _ => ?_)).step ?_ | refine irq_moves.on ?_ rfl | refine settle_moves.on ?_ rfl
      | split

theorem svRetract_moves {a0} {s : State} : Moves 0x1C08EB01 s (svRetract a0 s) := by
  unfold svRetract
  with_reducible
    repeat' first
      | exact .refl | assumption
      | (extract_lets +onlyGivenNames x; first | (refine .cut (x := x) ?_ ?_; (on_goal 1 => intro _; clear_value x); (on_goal 2 => subst x)) | subst x)
      | refine tally_moves.on ?_ rfl | refine retractSleep_moves.on ?_ rfl | refine setMotion_moves.on ?_ rfl | refine abandonTarget_moves.on ?_ rfl
      | refine onSv_moves.on ?_ rfl | split | dsimp only

theorem svFault_moves {a0} {s : State} : Moves 0x1C08EB01 s (svFault a0 s) := by
  unfold svFault
  with_reducible
    repeat' first
      | exact .refl | assumption
      | (extract_lets +onlyGivenNames x; first | (refine .cut (x := x) ?_ ?_; (on_goal 1 => intro _; clear_value x); (on_goal 2 => subst x)) | subst x)
      | refine onSv_moves.on ?_ rfl | refine setMotion_moves.on ?_ rfl | refine abandonTarget_moves.on ?_ rfl

theorem svUnload_moves {a0} {s : State} : Moves 0x1C08EB01 s (svUnload a0 s) := by
  unfold svUnload
  with_reducible
    repeat' first
      | exact .refl | assumption
      | (extract_lets +onlyGivenNames x; first | (refine .cut (x := x) ?_ ?_; (on_goal 1 => intro _; clear_value x); (on_goal 2 => subst x)) | subst x)
      | refine latchLimits_moves.on ?_ rfl | refine onSv_moves.on ?_ rfl | refine retractSleep_moves.on ?_ rfl | refine setMotion_moves.on ?_ rfl
      | refine abandonTarget_moves.on ?_ rfl | refine flag_moves.on ?_ rfl | split | dsimp only

theorem svLoad_moves {a0 a1} {s : State} : Moves 0x1C08EB01 s (svLoad a0 a1 s) := by
  unfold svLoad
  with_reducible
    repeat' first
      | exact .refl | assumption
      | (extract_lets +onlyGivenNames x; first | (refine .cut (x := x) ?_ ?_; (on_goal 1 => intro _; clear_value x); (on_goal 2 => subst x)) | subst x)
      | refine onSv_moves.on ?_ rfl | refine setMotion_moves.on ?_ rfl | dsimp only

theorem holdPeriod_moves {a0} {s : State} : Moves 0x1 s (holdPeriod a0 s) := by
  unfold holdPeriod
  with_reducible
    repeat' first
      | exact .refl | assumption | refine put_moves.on ?_ rfl | split

theorem svEnable_moves {a0} {s : State} : Moves 0x1C08EB01 s (svEnable a0 s) := by
  unfold svEnable
  with_reducible
    repeat' first
      | exact .refl | assumption
      | (extract_lets +onlyGivenNames x; first | (refine .cut (x := x) ?_ ?_; (on_goal 1 => intro _; clear_value x); (on_goal 2 => subst x)) | subst x)
      | refine put_moves.on ?_ rfl | refine onSv_moves.on ?_ rfl | refine setMotion_moves.on ?_ rfl | refine holdPeriod_moves.on ?_ rfl | split
      | dsimp only

theorem svDisable_moves {a0} {s : State} : Moves 0x1C08EB01 s (svDisable a0 s) := by
  unfold svDisable
  with_reducible
    repeat' first
      | exact .refl | assumption
      | (extract_lets +onlyGivenNames x; first | (refine .cut (x := x) ?_ ?_; (on_goal 1 => intro _; clear_value x); (on_goal 2 => subst x)) | subst x)
      | refine put_moves.on ?_ rfl | refine onSv_moves.on ?_ rfl | refine retractSleep_moves.on ?_ rfl | refine setMotion_moves.on ?_ rfl
      | refine abandonTarget_moves.on ?_ rfl | split

theorem paceCommand_moves {a0 a1} {s : State} : Moves 0x1C08EB01 s (paceCommand a0 a1 s) := by
  unfold paceCommand
  with_reducible
    repeat' first
      | exact .refl | assumption
      | (extract_lets +onlyGivenNames x; first | (refine .cut (x := x) ?_ ?_; (on_goal 1 => intro _; clear_value x); (on_goal 2 => subst x)) | subst x)
      | refine svLoad_moves.on ?_ rfl | refine flag_moves.on ?_ rfl | refine svUnload_moves.on ?_ rfl | refine svRetract_moves.on ?_ rfl
      | refine setMotion_moves.on ?_ rfl | split

theorem lapAdvance_moves {a0} {s : State} : Moves 0x8001 s (lapAdvance a0 s) := by
  unfold lapAdvance
  with_reducible
    repeat' first
      | exact .refl | assumption
      | (extract_lets +onlyGivenNames x; first | (refine .cut (x := x) ?_ ?_; (on_goal 1 => intro _; clear_value x); (on_goal 2 => subst x)) | subst x)
      | refine onSv_moves.on ?_ rfl | refine put_moves.on ?_ rfl | split

theorem applyParams_moves {a0} {s : State} : Moves 0x8001 s (applyParams a0 s) := by
  unfold applyParams
  with_reducible
    repeat' first
      | exact .refl | assumption
      | (extract_lets +onlyGivenNames x; first | (refine .cut (x := x) ?_ ?_; (on_goal 1 => intro _; clear_value x); (on_goal 2 => subst x)) | subst x)
      | refine onSv_moves.on ?_ rfl | refine put_moves.on ?_ rfl | split

theorem applySwitch_moves {a0} {s : State} : Moves 0x8001 s (applySwitch a0 s) := by
  unfold applySwitch
  with_reducible
    repeat' first
      | exact .refl | assumption
      | (extract_lets +onlyGivenNames x; first | (refine .cut (x := x) ?_ ?_; (on_goal 1 => intro _; clear_value x); (on_goal 2 => subst x)) | subst x)
      | refine onSv_moves.on ?_ rfl | refine switchSet_moves.on ?_ rfl | refine put_moves.on ?_ rfl | split

theorem advancePlan_moves {a0} {s : State} : Moves 0x8001 s (advancePlan a0 s) := by
  unfold advancePlan
  with_reducible
    repeat' first
      | exact .refl | assumption
      | (extract_lets +onlyGivenNames x; first | (refine .cut (x := x) ?_ ?_; (on_goal 1 => intro _; clear_value x); (on_goal 2 => subst x)) | subst x)
      | refine onSv_moves.on ?_ rfl | refine put_moves.on ?_ rfl | split

theorem wedgeStart_moves {a0} {s : State} : Moves 0xA001 s (wedgeStart a0 s) := by
  unfold wedgeStart
  with_reducible
    repeat' first
      | exact .refl | assumption
      | (extract_lets +onlyGivenNames x; first | (refine .cut (x := x) ?_ ?_; (on_goal 1 => intro _; clear_value x); (on_goal 2 => subst x)) | subst x)
      | refine advancePlan_moves.on ?_ rfl | refine applySwitch_moves.on ?_ rfl | refine applyParams_moves.on ?_ rfl
      | refine lapAdvance_moves.on ?_ rfl | refine onSv_moves.on ?_ rfl | refine onLn_moves.on ?_ rfl | refine settle_moves.on ?_ rfl | split

theorem measureInterval_moves {a0} {s : State} : Moves 0x8001 s (measureInterval a0 s) := by
  unfold measureInterval
  with_reducible
    repeat' first
      | exact .refl | assumption
      | (extract_lets +onlyGivenNames x; first | (refine .cut (x := x) ?_ ?_; (on_goal 1 => intro _; clear_value x); (on_goal 2 => subst x)) | subst x)
      | refine onSv_moves.on ?_ rfl | refine put_moves.on ?_ rfl | split | dsimp only

theorem judgeWedge_moves {a0 a1} {s : State} : Moves 0x8901 s (judgeWedge a0 a1 s) := by
  unfold judgeWedge
  with_reducible
    repeat' first
      | exact .refl | assumption
      | (extract_lets +onlyGivenNames x; first | (refine .cut (x := x) ?_ ?_; (on_goal 1 => intro _; clear_value x); (on_goal 2 => subst x)) | subst x)
      | refine onSv_moves.on ?_ rfl | refine put_moves.on ?_ rfl | refine servoFault_moves.on ?_ rfl | split

theorem coastWedge_moves {a0 a1} {s : State} : Moves 0x1C08EB01 s (coastWedge a0 a1 s) := by
  unfold coastWedge
  with_reducible
    repeat' first
      | exact .refl | assumption
      | (extract_lets +onlyGivenNames x; first | (refine .cut (x := x) ?_ ?_; (on_goal 1 => intro _; clear_value x); (on_goal 2 => subst x)) | subst x)
      | refine put_moves.on ?_ rfl | refine writeUnsafe_moves.on ?_ rfl | refine onSv_moves.on ?_ rfl | dsimp only

theorem markUnsafe_moves {a0} {s : State} : Moves 0x12000 s (markUnsafe a0 s) := by
  unfold markUnsafe
  with_reducible
    repeat' first
      | exact .refl | assumption
      | (extract_lets +onlyGivenNames x; first | (refine .cut (x := x) ?_ ?_; (on_goal 1 => intro _; clear_value x); (on_goal 2 => subst x)) | subst x)
      | refine onLn_moves.on ?_ rfl | fail_if_no_progress refine mk_ldp.on ?_ rfl | split | dsimp only

theorem readUnsafe_moves {a0} {s : State} : Moves 0x12901 s (readUnsafe a0 s) := by
  unfold readUnsafe
  with_reducible
    repeat' first
      | exact .refl | assumption
      | (extract_lets +onlyGivenNames x; first | (refine .cut (x := x) ?_ ?_; (on_goal 1 => intro _; clear_value x); (on_goal 2 => subst x)) | subst x)
      | refine markUnsafe_moves.on ?_ rfl | refine spoilAttempt_moves.on ?_ rfl | refine onLn_moves.on ?_ rfl | refine servoFault_moves.on ?_ rfl

theorem judgeSample_moves {a0} {s : State} : Moves 0x1C09EB01 s (judgeSample a0 s) := by
  unfold judgeSample
  with_reducible
    repeat' first
      | exact .refl | assumption
      | (extract_lets +onlyGivenNames x; first | (refine .cut (x := x) ?_ ?_; (on_goal 1 => intro _; clear_value x); (on_goal 2 => subst x)) | subst x)
      | refine put_moves.on ?_ rfl | refine onSv_moves.on ?_ rfl | refine readUnsafe_moves.on ?_ rfl | refine writeUnsafe_moves.on ?_ rfl
      | refine onLn_moves.on ?_ rfl | refine measureInterval_moves.on ?_ rfl | refine inhibitWrites_moves.on ?_ rfl | split | dsimp only

theorem sendHead_moves {a0 a1} {s : State} : Moves 0x8000 s (sendHead a0 a1 s) := by
  unfold sendHead
  with_reducible
    repeat' first
      | exact .refl | assumption
      | (extract_lets +onlyGivenNames x; first | (refine .cut (x := x) ?_ ?_; (on_goal 1 => intro _; clear_value x); (on_goal 2 => subst x)) | subst x)
      | refine onSv_moves.on ?_ rfl

theorem mailboxWrite_moves {a0 a1 a2} {s : State} : Moves 0x8901 s (mailboxWrite a0 a1 a2 s) := by
  unfold mailboxWrite
  with_reducible
    repeat' first
      | exact .refl | assumption
      | (extract_lets +onlyGivenNames x; first | (refine .cut (x := x) ?_ ?_; (on_goal 1 => intro _; clear_value x); (on_goal 2 => subst x)) | subst x)
      | refine flag_moves.on ?_ rfl | refine count_moves.on ?_ rfl | refine onSv_moves.on ?_ rfl | refine mailbox_moves.on ?_ rfl | split

theorem setSpin_moves {a0} {s : State} : Moves 0x801 s (setSpin a0 s) := by
  unfold setSpin
  with_reducible
    repeat' first
      | exact .refl | assumption
      | (extract_lets +onlyGivenNames x; first | (refine .cut (x := x) ?_ ?_; (on_goal 1 => intro _; clear_value x); (on_goal 2 => subst x)) | subst x)
      | refine irq_moves.on ?_ rfl | refine putB_moves.on ?_ rfl | refine put_moves.on ?_ rfl | split

theorem onSpm_moves {a1} {s : State} : Moves 0x40000 s (State.onSpm s a1) := by
  unfold State.onSpm
  with_reducible
    repeat' first
      | exact .refl | assumption
      | (extract_lets +onlyGivenNames x; first | (refine .cut (x := x) ?_ ?_; (on_goal 1 => intro _; clear_value x); (on_goal 2 => subst x)) | subst x)
      | fail_if_no_progress refine mk_spm.on ?_ rfl

theorem sendSpindle_moves {a0 a1 a2 a3} {s : State} : Moves 0x8020001 s (sendSpindle a0 a1 a2 a3 s) := by
  unfold sendSpindle
  with_reducible
    repeat' first
      | exact .refl | assumption
      | (extract_lets +onlyGivenNames x; first | (refine .cut (x := x) ?_ ?_; (on_goal 1 => intro _; clear_value x); (on_goal 2 => subst x)) | subst x)
      | refine sendMotion_moves.on ?_ rfl | refine put_moves.on ?_ rfl | split

theorem spinCoast_moves {s : State} : Moves 0x8020001 s (spinCoast s) := by
  unfold spinCoast
  with_reducible
    repeat' first
      | exact .refl | assumption | refine sendSpindle_moves.on ?_ rfl

theorem spinBrake_moves {s : State} : Moves 0x8020001 s (spinBrake s) := by
  unfold spinBrake
  with_reducible
    repeat' first
      | exact .refl | assumption | refine sendSpindle_moves.on ?_ rfl

theorem queueSpindle_moves {a0} {s : State} : Moves 0x20000 s (queueSpindle a0 s) := by
  unfold queueSpindle
  with_reducible
    repeat' first
      | exact .refl | assumption
      | (extract_lets +onlyGivenNames x; first | (refine .cut (x := x) ?_ ?_; (on_goal 1 => intro _; clear_value x); (on_goal 2 => subst x)) | subst x)
      | fail_if_no_progress refine mk_mot.on ?_ rfl

theorem nextCommutation_moves {s : State} : Moves 0x40000 s (nextCommutation s).2 := by
  unfold nextCommutation
  with_reducible
    repeat' first
      | exact .refl | assumption
      | (extract_lets +onlyGivenNames x; first | (refine .cut (x := x) ?_ ?_; (on_goal 1 => intro _; clear_value x); (on_goal 2 => subst x)) | subst x)
      | refine onSpm_moves.on ?_ rfl | split | dsimp only

theorem releaseSpindle_moves {a0} {s : State} : Moves 0x8060001 s (releaseSpindle a0 s) := by
  unfold releaseSpindle
  with_reducible
    repeat' first
      | exact .refl | assumption
      | (extract_lets +onlyGivenNames x; first | (refine .cut (x := x) ?_ ?_; (on_goal 1 => intro _; clear_value x); (on_goal 2 => subst x)) | subst x)
      | refine sendSpindle_moves.on ?_ rfl | refine onSpm_moves.on ?_ rfl | split | dsimp only

theorem beginAttempt_moves {a0} {s : State} : Moves 0x60801 s (beginAttempt a0 s) := by
  unfold beginAttempt
  with_reducible
    repeat' first
      | exact .refl | assumption
      | (extract_lets +onlyGivenNames x; first | (refine .cut (x := x) ?_ ?_; (on_goal 1 => intro _; clear_value x); (on_goal 2 => subst x)) | subst x)
      | refine put_moves.on ?_ rfl | refine setSpin_moves.on ?_ rfl | refine onSpm_moves.on ?_ rfl | fail_if_no_progress refine mk_mot.on ?_ rfl
      | dsimp only

theorem resyncRunup_moves {s : State} : Moves 0x8060801 s (resyncRunup s) := by
  unfold resyncRunup
  with_reducible
    repeat' first
      | exact .refl | assumption
      | (extract_lets +onlyGivenNames x; first | (refine .cut (x := x) ?_ ?_; (on_goal 1 => intro _; clear_value x); (on_goal 2 => subst x)) | subst x)
      | refine put_moves.on ?_ rfl | refine setSpin_moves.on ?_ rfl | refine onSpm_moves.on ?_ rfl | refine spinCoast_moves.on ?_ rfl
      | fail_if_no_progress refine mk_mot.on ?_ rfl | split | dsimp only

theorem endPause_moves {a0} {s : State} : Moves 0x82001 s (endPause a0 s) := by
  unfold endPause
  with_reducible
    repeat' first
      | exact .refl | assumption
      | (extract_lets +onlyGivenNames x; first | (refine .cut (x := x) ?_ ?_; (on_goal 1 => intro _; clear_value x); (on_goal 2 => subst x)) | subst x)
      | refine onLn_moves.on ?_ rfl | refine onAct_moves.on ?_ rfl | refine put_moves.on ?_ rfl | split | dsimp only

theorem releaseDrain_moves {s : State} : Moves 0xC2001 s (releaseDrain s) := by
  unfold releaseDrain
  with_reducible
    repeat' first
      | exact .refl | assumption
      | (extract_lets +onlyGivenNames x; first | (refine .cut (x := x) ?_ ?_; (on_goal 1 => intro _; clear_value x); (on_goal 2 => subst x)) | subst x)
      | refine (forEach_moves (m := 0xC2001) (fun _ _ => ?_)).step ?_ | refine endPause_moves.on ?_ rfl | refine onSpm_moves.on ?_ rfl

theorem enterBraking_moves {a0} {s : State} : Moves 0x80E2801 s (enterBraking a0 s) := by
  unfold enterBraking
  with_reducible
    repeat' first
      | exact .refl | assumption
      | (extract_lets +onlyGivenNames x; first | (refine .cut (x := x) ?_ ?_; (on_goal 1 => intro _; clear_value x); (on_goal 2 => subst x)) | subst x)
      | refine releaseDrain_moves.on ?_ rfl | refine spinBrake_moves.on ?_ rfl | refine onSpm_moves.on ?_ rfl | refine setSpin_moves.on ?_ rfl
      | fail_if_no_progress refine mk_mot.on ?_ rfl | split | dsimp only

theorem requestBrake_moves {a0} {s : State} : Moves 0x80E2801 s (requestBrake a0 s) := by
  unfold requestBrake
  with_reducible
    repeat' first
      | exact .refl | assumption
      | (extract_lets +onlyGivenNames x; first | (refine .cut (x := x) ?_ ?_; (on_goal 1 => intro _; clear_value x); (on_goal 2 => subst x)) | subst x)
      | refine enterBraking_moves.on ?_ rfl | refine onSpm_moves.on ?_ rfl | split | dsimp only

theorem brakeIfQuiet_moves {s : State} : Moves 0x80E2801 s (brakeIfQuiet s) := by
  unfold brakeIfQuiet
  with_reducible
    repeat' first
      | exact .refl | assumption
      | (extract_lets +onlyGivenNames x; first | (refine .cut (x := x) ?_ ?_; (on_goal 1 => intro _; clear_value x); (on_goal 2 => subst x)) | subst x)
      | refine enterBraking_moves.on ?_ rfl | split

theorem startTurning_moves {s : State} : Moves 0x80E2801 s (startTurning s) := by
  unfold startTurning
  with_reducible
    repeat' first
      | exact .refl | assumption | refine resyncRunup_moves.on ?_ rfl | refine enterBraking_moves.on ?_ rfl | split

theorem spinStart_moves {s : State} : Moves 0x80E2901 s (spinStart s) := by
  unfold spinStart
  with_reducible
    repeat' first
      | exact .refl | assumption
      | (extract_lets +onlyGivenNames x; first | (refine .cut (x := x) ?_ ?_; (on_goal 1 => intro _; clear_value x); (on_goal 2 => subst x)) | subst x)
      | refine flag_moves.on ?_ rfl | refine onSpm_moves.on ?_ rfl | refine startTurning_moves.on ?_ rfl | split

theorem spinBrakeCommand_moves {s : State} : Moves 0x80E2901 s (spinBrakeCommand s) := by
  unfold spinBrakeCommand
  with_reducible
    repeat' first
      | exact .refl | assumption
      | (extract_lets +onlyGivenNames x; first | (refine .cut (x := x) ?_ ?_; (on_goal 1 => intro _; clear_value x); (on_goal 2 => subst x)) | subst x)
      | refine requestBrake_moves.on ?_ rfl | refine flag_moves.on ?_ rfl | split

theorem spinClearFault_moves {s : State} : Moves 0x40901 s (spinClearFault s) := by
  unfold spinClearFault
  with_reducible
    repeat' first
      | exact .refl | assumption
      | (extract_lets +onlyGivenNames x; first | (refine .cut (x := x) ?_ ?_; (on_goal 1 => intro _; clear_value x); (on_goal 2 => subst x)) | subst x)
      | refine onSpm_moves.on ?_ rfl | refine setSpin_moves.on ?_ rfl | refine flag_moves.on ?_ rfl | split

theorem spinCommand_moves {a0} {s : State} : Moves 0x80E2901 s (spinCommand a0 s) := by
  unfold spinCommand
  with_reducible
    repeat' first
      | exact .refl | assumption
      | (extract_lets +onlyGivenNames x; first | (refine .cut (x := x) ?_ ?_; (on_goal 1 => intro _; clear_value x); (on_goal 2 => subst x)) | subst x)
      | refine spinStart_moves.on ?_ rfl | refine spinBrakeCommand_moves.on ?_ rfl | refine spinClearFault_moves.on ?_ rfl | split

theorem spinPowerFail_moves {s : State} : Moves 0x8060801 s (spinPowerFail s) := by
  unfold spinPowerFail
  with_reducible
    repeat' first
      | exact .refl | assumption
      | (extract_lets +onlyGivenNames x; first | (refine .cut (x := x) ?_ ?_; (on_goal 1 => intro _; clear_value x); (on_goal 2 => subst x)) | subst x)
      | refine spinCoast_moves.on ?_ rfl | refine onSpm_moves.on ?_ rfl | refine setSpin_moves.on ?_ rfl | fail_if_no_progress refine mk_mot.on ?_ rfl
      | split

theorem brakeStopped_moves {s : State} : Moves 0x8060801 s (brakeStopped s) := by
  unfold brakeStopped
  with_reducible
    repeat' first
      | exact .refl | assumption
      | (extract_lets +onlyGivenNames x; first | (refine .cut (x := x) ?_ ?_; (on_goal 1 => intro _; clear_value x); (on_goal 2 => subst x)) | subst x)
      | refine put_moves.on ?_ rfl | refine spinCoast_moves.on ?_ rfl | refine setSpin_moves.on ?_ rfl | refine beginAttempt_moves.on ?_ rfl | split

theorem signalSets_moves {a0 a1} {s : State} : Moves 0x8000 s (signalSets a0 a1 s) := by
  unfold signalSets
  with_reducible
    repeat' first
      | exact .refl | assumption
      | (extract_lets +onlyGivenNames x; first | (refine .cut (x := x) ?_ ?_; (on_goal 1 => intro _; clear_value x); (on_goal 2 => subst x)) | subst x)
      | refine (forEach_moves (m := 0x8000) (fun _ _ => ?_)).step ?_ | refine onSv_moves.on ?_ rfl

theorem startDrain_moves {s : State} : Moves 0x82001 s (startDrain s) := by
  unfold startDrain
  with_reducible
    repeat' first
      | exact .refl | assumption
      | (extract_lets +onlyGivenNames x; first | (refine .cut (x := x) ?_ ?_; (on_goal 1 => intro _; clear_value x); (on_goal 2 => subst x)) | subst x)
      | refine (forEach_moves (m := 0x82001) (fun _ _ => ?_)).step ?_ | refine spoilAttempt_moves.on ?_ rfl | refine onAct_moves.on ?_ rfl
      | refine onLn_moves.on ?_ rfl | refine msInt_moves.on ?_ rfl | split | dsimp only

theorem startChange_moves {a0} {s : State} : Moves 0xCA801 s (startChange a0 s) := by
  unfold startChange
  with_reducible
    repeat' first
      | exact .refl | assumption
      | (extract_lets +onlyGivenNames x; first | (refine .cut (x := x) ?_ ?_; (on_goal 1 => intro _; clear_value x); (on_goal 2 => subst x)) | subst x)
      | refine startDrain_moves.on ?_ rfl | refine setSpin_moves.on ?_ rfl | refine (forEach_moves (m := 0xCA801) (fun _ _ => ?_)).step ?_
      | refine put_moves.on ?_ rfl | refine signalSets_moves.on ?_ rfl | refine onSpm_moves.on ?_ rfl

theorem cadenceRequest_moves {a0} {s : State} : Moves 0xCA901 s (cadenceRequest a0 s) := by
  unfold cadenceRequest
  with_reducible
    repeat' first
      | exact .refl | assumption
      | (extract_lets +onlyGivenNames x; first | (refine .cut (x := x) ?_ ?_; (on_goal 1 => intro _; clear_value x); (on_goal 2 => subst x)) | subst x)
      | refine flag_moves.on ?_ rfl | refine put_moves.on ?_ rfl | refine startChange_moves.on ?_ rfl | refine onSpm_moves.on ?_ rfl | split

theorem followCadence_moves {a0 a1} {s : State} : Moves 0x1C086B01 s (followCadence a0 a1 s) := by
  unfold followCadence
  with_reducible
    repeat' first
      | exact .refl | assumption
      | (extract_lets +onlyGivenNames x; first | (refine .cut (x := x) ?_ ?_; (on_goal 1 => intro _; clear_value x); (on_goal 2 => subst x)) | subst x)
      | refine loadZone_moves.on ?_ rfl | refine onLn_moves.on ?_ rfl | split

theorem reachSpeed_moves {s : State} : Moves 0x1D0CEB01 s (reachSpeed s) := by
  unfold reachSpeed
  with_reducible
    repeat' first
      | exact .refl | assumption
      | (extract_lets +onlyGivenNames x; first | (refine .cut (x := x) ?_ ?_; (on_goal 1 => intro _; clear_value x); (on_goal 2 => subst x)) | subst x)
      | refine put_moves.on ?_ rfl | refine setSpin_moves.on ?_ rfl | refine tally_moves.on ?_ rfl | refine count_moves.on ?_ rfl
      | refine signalSets_moves.on ?_ rfl | refine (forEach_moves (m := 0x1D0CEB01) (fun _ _ => ?_)).step ?_ | refine followCadence_moves.on ?_ rfl
      | refine onSpm_moves.on ?_ rfl | fail_if_no_progress refine mk_pwr.on ?_ rfl | refine holdPeriod_moves.on ?_ rfl | split | dsimp only

theorem countLock_moves {s : State} : Moves 0x1D0CEB01 s (countLock s) := by
  unfold countLock
  with_reducible
    repeat' first
      | exact .refl | assumption
      | (extract_lets +onlyGivenNames x; first | (refine .cut (x := x) ?_ ?_; (on_goal 1 => intro _; clear_value x); (on_goal 2 => subst x)) | subst x)
      | refine onSpm_moves.on ?_ rfl | refine reachSpeed_moves.on ?_ rfl | split

theorem moveRef_moves {a0} {s : State} : Moves 0x40000 s (moveRef a0 s).2 := by
  unfold moveRef
  with_reducible
    repeat' first
      | exact .refl | assumption
      | (extract_lets +onlyGivenNames x; first | (refine .cut (x := x) ?_ ?_; (on_goal 1 => intro _; clear_value x); (on_goal 2 => subst x)) | subst x)
      | refine onSpm_moves.on ?_ rfl | split | dsimp only

theorem speedLoop_moves {s : State} : Moves 0x40000 s (speedLoop s) := by
  unfold speedLoop
  with_reducible
    repeat' first
      | exact .refl | assumption
      | (extract_lets +onlyGivenNames x; first | (refine .cut (x := x) ?_ ?_; (on_goal 1 => intro _; clear_value x); (on_goal 2 => subst x)) | subst x)
      | refine onSpm_moves.on ?_ rfl | split

theorem batStat_moves {a1 a2} {s : State} : Moves 0x801 s (State.batStat s a1 a2) := by
  unfold State.batStat
  with_reducible
    repeat' first
      | exact .refl | assumption
      | (extract_lets +onlyGivenNames x; first | (refine .cut (x := x) ?_ ?_; (on_goal 1 => intro _; clear_value x); (on_goal 2 => subst x)) | subst x)
      | refine put_moves.on ?_ rfl | refine irq_moves.on ?_ rfl | split

theorem showMirroring_moves {s : State} : Moves 0x801 s (showMirroring s) := by
  unfold showMirroring
  with_reducible
    repeat' first
      | exact .refl | assumption | refine batStat_moves.on ?_ rfl

theorem setFreed_moves {a0} {s : State} : Moves 0x800001 s (setFreed a0 s) := by
  unfold setFreed
  with_reducible
    repeat' first
      | exact .refl | assumption
      | (extract_lets +onlyGivenNames x; first | (refine .cut (x := x) ?_ ?_; (on_goal 1 => intro _; clear_value x); (on_goal 2 => subst x)) | subst x)
      | refine put_moves.on ?_ rfl | fail_if_no_progress refine mk_bat.on ?_ rfl

theorem batPut_moves {a0 a1} {s : State} : Moves 0x8800001 s (batPut a0 a1 s) := by
  unfold batPut
  with_reducible
    repeat' first
      | exact .refl | assumption
      | (extract_lets +onlyGivenNames x; first | (refine .cut (x := x) ?_ ?_; (on_goal 1 => intro _; clear_value x); (on_goal 2 => subst x)) | subst x)
      | refine emit_moves.on ?_ rfl | refine put_moves.on ?_ rfl | fail_if_no_progress refine mk_bat.on ?_ rfl | refine setFreed_moves.on ?_ rfl

theorem batSend_moves {a0 a1} {s : State} : Moves 0x8800001 s (batSend a0 a1 s) := by
  unfold batSend
  with_reducible
    repeat' first
      | exact .refl | assumption
      | (extract_lets +onlyGivenNames x; first | (refine .cut (x := x) ?_ ?_; (on_goal 1 => intro _; clear_value x); (on_goal 2 => subst x)) | subst x)
      | refine batPut_moves.on ?_ rfl | fail_if_no_progress refine mk_bat.on ?_ rfl | split

theorem batDrain_moves {a0} {s : State} : Moves 0x8800001 s (batDrain a0 s) := by
  induction a0 generalizing s with
  | nil =>
    unfold batDrain
    with_reducible
      repeat' first
        | exact .refl | assumption | fail_if_no_progress refine mk_bat.on ?_ rfl
  | cons b l ih =>
    unfold batDrain
    with_reducible
      repeat' first
        | exact .refl | assumption
        | refine ih.on ?_ rfl | refine batPut_moves.on ?_ rfl | fail_if_no_progress refine mk_bat.on ?_ rfl | split | dsimp only

theorem newTag_moves {s : State} : Moves 0x800000 s (newTag s).2 := by
  unfold newTag
  with_reducible
    repeat' first
      | exact .refl | assumption
      | (extract_lets +onlyGivenNames x; first | (refine .cut (x := x) ?_ ?_; (on_goal 1 => intro _; clear_value x); (on_goal 2 => subst x)) | subst x)
      | fail_if_no_progress refine mk_bat.on ?_ rfl | dsimp only

theorem putSeq_moves {a0} {s : State} : Moves 0x1 s (putSeq a0 s) := by
  unfold putSeq
  with_reducible
    repeat' first
      | exact .refl | assumption | refine setPair_moves.on ?_ rfl

theorem sendHeartbeat_moves {s : State} : Moves 0x8800001 s (sendHeartbeat s) := by
  unfold sendHeartbeat
  with_reducible
    repeat' first
      | exact .refl | assumption
      | (extract_lets +onlyGivenNames x; first | (refine .cut (x := x) ?_ ?_; (on_goal 1 => intro _; clear_value x); (on_goal 2 => subst x)) | subst x)
      | refine batSend_moves.on ?_ rfl | fail_if_no_progress refine mk_bat.on ?_ rfl | split

theorem batReceive_moves {m : Nat} {a0 a1 f2} {s : State} (hm : 0x8800801 ||| m = m) (hf2 : ∀  t, Moves m t (f2  t)) : Moves m s (batReceive a0 a1 f2 s) := by
  unfold batReceive
  with_reducible
    repeat' first
      | exact .refl | assumption | exact hf2 .. | refine (hf2 ..).step ?_
      | (extract_lets +onlyGivenNames x; first | (refine .cut (x := x) ?_ ?_; (on_goal 1 => intro _; clear_value x); (on_goal 2 => subst x)) | subst x)
      | refine count_moves.on ?_ (sub_of hm rfl) | refine put_moves.on ?_ (sub_of hm rfl) | refine batDrain_moves.on ?_ (sub_of hm rfl)
      | refine batStat_moves.on ?_ (sub_of hm rfl) | refine sendHeartbeat_moves.on ?_ (sub_of hm rfl)
      | fail_if_no_progress refine mk_bat.on ?_ (sub_of hm rfl) | refine setFreed_moves.on ?_ (sub_of hm rfl) | split | dsimp only

theorem batRecord_moves {a0 a1} {s : State} : Moves 0x8800001 s (batRecord a0 a1 s) := by
  unfold batRecord
  with_reducible
    repeat' first
      | exact .refl | assumption
      | (extract_lets +onlyGivenNames x; first | (refine .cut (x := x) ?_ ?_; (on_goal 1 => intro _; clear_value x); (on_goal 2 => subst x)) | subst x)
      | refine newTag_moves.on ?_ rfl | refine (newTag_moves.get (by assumption)).on ?_ rfl | refine batSend_moves.on ?_ rfl
      | fail_if_no_progress refine mk_bat.on ?_ rfl | split

theorem setCtrl_moves {a1 a2} {s : State} : Moves 0x2000000 s (State.setCtrl s a1 a2) := by
  unfold State.setCtrl
  with_reducible
    repeat' first
      | exact .refl | assumption
      | (extract_lets +onlyGivenNames x; first | (refine .cut (x := x) ?_ ?_; (on_goal 1 => intro _; clear_value x); (on_goal 2 => subst x)) | subst x)
      | fail_if_no_progress refine mk_qe.on ?_ rfl

theorem onCtrl_moves {a1 a2} {s : State} : Moves 0x2000000 s (State.onCtrl s a1 a2) := by
  unfold State.onCtrl
  with_reducible
    repeat' first
      | exact .refl | assumption | refine setCtrl_moves.on ?_ rfl

theorem showSlots_moves {s : State} : Moves 0x1 s (showSlots s) := by
  unfold showSlots
  with_reducible
    repeat' first
      | exact .refl | assumption
      | (extract_lets +onlyGivenNames x; first | (refine .cut (x := x) ?_ ?_; (on_goal 1 => intro _; clear_value x); (on_goal 2 => subst x)) | subst x)
      | refine put_moves.on ?_ rfl | refine putB_moves.on ?_ rfl

theorem unstick_moves {s : State} : Moves 0x2000000 s (unstick s) := by
  unfold unstick
  with_reducible
    repeat' first
      | exact .refl | assumption
      | (extract_lets +onlyGivenNames x; first | (refine .cut (x := x) ?_ ?_; (on_goal 1 => intro _; clear_value x); (on_goal 2 => subst x)) | subst x)
      | fail_if_no_progress refine mk_qe.on ?_ rfl | split

theorem dropWork_moves {a0} {s : State} : Moves 0x80000 s (dropWork a0 s) := by
  unfold dropWork
  with_reducible
    repeat' first
      | exact .refl | assumption
      | (extract_lets +onlyGivenNames x; first | (refine .cut (x := x) ?_ ?_; (on_goal 1 => intro _; clear_value x); (on_goal 2 => subst x)) | subst x)
      | fail_if_no_progress refine mk_rly.on ?_ rfl | split | dsimp only

theorem setSlot_moves {a1 a2} {s : State} : Moves 0x2000001 s (State.setSlot s a1 a2) := by
  unfold State.setSlot
  with_reducible
    repeat' first
      | exact .refl | assumption
      | (extract_lets +onlyGivenNames x; first | (refine .cut (x := x) ?_ ?_; (on_goal 1 => intro _; clear_value x); (on_goal 2 => subst x)) | subst x)
      | refine showSlots_moves.on ?_ rfl | fail_if_no_progress refine mk_qe.on ?_ rfl

theorem freeSlot_moves {a0} {s : State} : Moves 0x2080001 s (freeSlot a0 s) := by
  unfold freeSlot
  with_reducible
    repeat' first
      | exact .refl | assumption
      | (extract_lets +onlyGivenNames x; first | (refine .cut (x := x) ?_ ?_; (on_goal 1 => intro _; clear_value x); (on_goal 2 => subst x)) | subst x)
      | refine dropWork_moves.on ?_ rfl | refine showSlots_moves.on ?_ rfl | refine unstick_moves.on ?_ rfl
      | fail_if_no_progress refine mk_qe.on ?_ rfl

theorem onSlot_moves {a1 a2} {s : State} : Moves 0x2000001 s (State.onSlot s a1 a2) := by
  unfold State.onSlot
  with_reducible
    repeat' first
      | exact .refl | assumption
      | (extract_lets +onlyGivenNames x; first | (refine .cut (x := x) ?_ ?_; (on_goal 1 => intro _; clear_value x); (on_goal 2 => subst x)) | subst x)
      | refine setSlot_moves.on ?_ rfl | split

theorem finish_moves {a0 a1} {s : State} : Moves 0x2080001 s (finish a0 a1 s) := by
  unfold finish
  with_reducible
    repeat' first
      | exact .refl | assumption
      | (extract_lets +onlyGivenNames x; first | (refine .cut (x := x) ?_ ?_; (on_goal 1 => intro _; clear_value x); (on_goal 2 => subst x)) | subst x)
      | refine freeSlot_moves.on ?_ rfl | refine setSlot_moves.on ?_ rfl | split

theorem failBlock_moves {a0 a1 a2} {s : State} : Moves 0x2080001 s (failBlock a0 a1 a2 s) := by
  unfold failBlock
  with_reducible
    repeat' first
      | exact .refl | assumption
      | (extract_lets +onlyGivenNames x; first | (refine .cut (x := x) ?_ ?_; (on_goal 1 => intro _; clear_value x); (on_goal 2 => subst x)) | subst x)
      | refine finish_moves.on ?_ rfl | refine onSlot_moves.on ?_ rfl | split

theorem readyControllers_moves {s : State} : Moves 0x2000000 s (readyControllers s) := by
  unfold readyControllers
  with_reducible
    repeat' first
      | exact .refl | assumption
      | (extract_lets +onlyGivenNames x; first | (refine .cut (x := x) ?_ ?_; (on_goal 1 => intro _; clear_value x); (on_goal 2 => subst x)) | subst x)
      | refine (forEach_moves (m := 0x2000000) (fun _ _ => ?_)).step ?_ | refine setCtrl_moves.on ?_ rfl | split

theorem asyncEvent_moves {a0 a1 a2 a3} {s : State} : Moves 0x2080001 s (asyncEvent a0 a1 a2 a3 s) := by
  unfold asyncEvent
  with_reducible
    repeat' first
      | exact .refl | assumption
      | (extract_lets +onlyGivenNames x; first | (refine .cut (x := x) ?_ ?_; (on_goal 1 => intro _; clear_value x); (on_goal 2 => subst x)) | subst x)
      | refine setCtrl_moves.on ?_ rfl | refine finish_moves.on ?_ rfl | split

theorem asyncEventAll_moves {a0 a1 a2} {s : State} : Moves 0x2080001 s (asyncEventAll a0 a1 a2 s) := by
  unfold asyncEventAll
  with_reducible
    repeat' first
      | exact .refl | assumption | refine (forEach_moves (m := 0x2080001) (fun _ _ => ?_)).step ?_ | refine asyncEvent_moves.on ?_ rfl

theorem nsChanged_moves {a0 a1} {s : State} : Moves 0x2080001 s (nsChanged a0 a1 s) := by
  unfold nsChanged
  with_reducible
    repeat' first
      | exact .refl | assumption
      | (extract_lets +onlyGivenNames x; first | (refine .cut (x := x) ?_ ?_; (on_goal 1 => intro _; clear_value x); (on_goal 2 => subst x)) | subst x)
      | refine (forEach_moves (m := 0x2080001) (fun _ _ => ?_)).step ?_ | refine asyncEvent_moves.on ?_ rfl | refine onCtrl_moves.on ?_ rfl

theorem anaUpdate_moves {s : State} : Moves 0x2080001 s (anaUpdate s) := by
  unfold anaUpdate
  with_reducible
    repeat' first
      | exact .refl | assumption
      | (extract_lets +onlyGivenNames x; first | (refine .cut (x := x) ?_ ?_; (on_goal 1 => intro _; clear_value x); (on_goal 2 => subst x)) | subst x)
      | refine (forEach_moves (m := 0x2080001) (fun _ _ => ?_)).step ?_ | refine asyncEvent_moves.on ?_ rfl
      | fail_if_no_progress refine mk_qe.on ?_ rfl | split | dsimp only

theorem onBuf_moves {f : Buf → Buf} {s : State} (h : ∀ b, (f b).mem = b.mem) : Moves 0x200000 s (State.onBuf s f) := by
  unfold State.onBuf
  exact mk_buf (fun w => by rw [h]; exact w)

/-- Bytes put into memory keep its canonical form. -/
theorem putBytes_wf (l : List Byte) (a : Nat) (m : SMap Byte) (h : Memory.wf m = true) : Memory.wf (putBytes l a m) = true := by
  induction l generalizing a m with
  | nil => exact h
  | cons b t ih => exact ih _ _ (canonical_iff.mpr (smCanon_smPut (canonical_iff.mp h) a b))

theorem memWrite_moves {a0 a1} {s : State} : Moves 0x200000 s (memWrite a0 a1 s) := by
  unfold memWrite State.onBuf
  exact mk_buf (putBytes_wf _ _ _)

theorem setPoison_moves {a0 a1} {s : State} : Moves 0x200000 s (setPoison a0 a1 s) := by
  unfold setPoison
  with_reducible
    repeat' first
      | exact .refl | assumption
      | (extract_lets +onlyGivenNames x; first | (refine .cut (x := x) ?_ ?_; (on_goal 1 => intro _; clear_value x); (on_goal 2 => subst x)) | subst x)
      | refine (onBuf_moves ?_).on ?_ rfl | exact fun _ => rfl | split

theorem sendBurst_moves {a0 a1 a2} {s : State} : Moves 0x8000001 s (sendBurst a0 a1 a2 s) := by
  unfold sendBurst
  with_reducible
    repeat' first
      | exact .refl | assumption
      | (extract_lets +onlyGivenNames x; first | (refine .cut (x := x) ?_ ?_; (on_goal 1 => intro _; clear_value x); (on_goal 2 => subst x)) | subst x)
      | refine put_moves.on ?_ rfl | refine emit_moves.on ?_ rfl | split

theorem dramWrite_moves {a0} {s : State} : Moves 0x8200001 s (dramWrite a0 s) := by
  unfold dramWrite
  with_reducible
    repeat' first
      | exact .refl | assumption
      | (extract_lets +onlyGivenNames x; first | (refine .cut (x := x) ?_ ?_; (on_goal 1 => intro _; clear_value x); (on_goal 2 => subst x)) | subst x)
      | refine sendBurst_moves.on ?_ rfl | refine setPoison_moves.on ?_ rfl | split

theorem showPages_moves {s : State} : Moves 0x1 s (showPages s) := by
  unfold showPages
  with_reducible
    repeat' first
      | exact .refl | assumption
      | (extract_lets +onlyGivenNames x; first | (refine .cut (x := x) ?_ ?_; (on_goal 1 => intro _; clear_value x); (on_goal 2 => subst x)) | subst x)
      | refine put_moves.on ?_ rfl | split

theorem setPage_moves {a0 a1} {s : State} : Moves 0x200001 s (setPage a0 a1 s) := by
  unfold setPage
  with_reducible
    repeat' first
      | exact .refl | assumption
      | (extract_lets +onlyGivenNames x; first | (refine .cut (x := x) ?_ ?_; (on_goal 1 => intro _; clear_value x); (on_goal 2 => subst x)) | subst x)
      | refine showPages_moves.on ?_ rfl | refine (onBuf_moves ?_).on ?_ rfl | exact fun _ => rfl | split

theorem allocPage_moves {a0} {s : State} : MovesV 0x200001 s (allocPage a0 s) := by
  unfold allocPage
  with_reducible
    repeat' first
      | exact .refl | assumption | exact .none | refine .some ?_
      | (extract_lets +onlyGivenNames x; first | (refine .cut (x := x) ?_ ?_; (on_goal 1 => intro _; clear_value x); (on_goal 2 => subst x)) | subst x)
      | refine setPage_moves.on ?_ rfl | split | refine MovesV.map (fun _ => ?_) | dsimp only

theorem releasePage_moves {a0} {s : State} : Moves 0x200001 s (releasePage a0 s) := by
  unfold releasePage
  with_reducible
    repeat' first
      | exact .refl | assumption
      | (extract_lets +onlyGivenNames x; first | (refine .cut (x := x) ?_ ?_; (on_goal 1 => intro _; clear_value x); (on_goal 2 => subst x)) | subst x)
      | refine setPage_moves.on ?_ rfl | split

theorem showDirty_moves {s : State} : Moves 0x1 s (showDirty s) := by
  unfold showDirty
  with_reducible
    repeat' first
      | exact .refl | assumption
      | (extract_lets +onlyGivenNames x; first | (refine .cut (x := x) ?_ ?_; (on_goal 1 => intro _; clear_value x); (on_goal 2 => subst x)) | subst x)
      | refine put_moves.on ?_ rfl | refine mirrored_moves.on ?_ rfl

theorem cacheSet_moves {a0 a1} {s : State} : Moves 0x200001 s (cacheSet a0 a1 s) := by
  unfold cacheSet
  with_reducible
    repeat' first
      | exact .refl | assumption
      | (extract_lets +onlyGivenNames x; first | (refine .cut (x := x) ?_ ?_; (on_goal 1 => intro _; clear_value x); (on_goal 2 => subst x)) | subst x)
      | refine showDirty_moves.on ?_ rfl | refine (onBuf_moves ?_).on ?_ rfl | exact fun _ => rfl

theorem cacheDrop_moves {a0} {s : State} : Moves 0x200001 s (cacheDrop a0 s) := by
  unfold cacheDrop
  with_reducible
    repeat' first
      | exact .refl | assumption
      | (extract_lets +onlyGivenNames x; first | (refine .cut (x := x) ?_ ?_; (on_goal 1 => intro _; clear_value x); (on_goal 2 => subst x)) | subst x)
      | refine showDirty_moves.on ?_ rfl | refine (onBuf_moves ?_).on ?_ rfl | exact fun _ => rfl | split

theorem takePlace_moves {a0} {s : State} : MovesV 0x200001 s (takePlace a0 s) := by
  unfold takePlace
  with_reducible
    repeat' first
      | exact .refl | assumption | exact .none | refine .some ?_
      | (extract_lets +onlyGivenNames x; first | (refine .cut (x := x) ?_ ?_; (on_goal 1 => intro _; clear_value x); (on_goal 2 => subst x)) | subst x)
      | refine (onBuf_moves ?_).on ?_ rfl | exact fun _ => rfl | refine (allocPage_moves.get (by assumption)).on ?_ rfl
      | refine allocPage_moves.on ?_ rfl | refine (write_moves (m := 0x200001) rfl (fun _ => ?_)).step ?_ | split | refine MovesV.map (fun _ => ?_)
      | dsimp only

theorem showLwl_moves {s : State} : Moves 0x1 s (showLwl s) := by
  unfold showLwl
  with_reducible
    repeat' first
      | exact .refl | assumption | refine putB_moves.on ?_ rfl | refine put_moves.on ?_ rfl

theorem lwlPut_moves {a0 a1} {s : State} : Moves 0x8A00001 s (lwlPut a0 a1 s) := by
  unfold lwlPut
  with_reducible
    repeat' first
      | exact .refl | assumption
      | (extract_lets +onlyGivenNames x; first | (refine .cut (x := x) ?_ ?_; (on_goal 1 => intro _; clear_value x); (on_goal 2 => subst x)) | subst x)
      | refine showLwl_moves.on ?_ rfl | refine (onBuf_moves ?_).on ?_ rfl | exact fun _ => rfl | refine batRecord_moves.on ?_ rfl | split

theorem lwlAdd_moves {a0 a1 a2} {s : State} : Moves 0x8B00901 s (lwlAdd a0 a1 a2 s) := by
  unfold lwlAdd
  with_reducible
    repeat' first
      | exact .refl | assumption
      | (extract_lets +onlyGivenNames x; first | (refine .cut (x := x) ?_ ?_; (on_goal 1 => intro _; clear_value x); (on_goal 2 => subst x)) | subst x)
      | refine lwlPut_moves.on ?_ rfl | refine flag_moves.on ?_ rfl | fail_if_no_progress refine mk_bnd.on ?_ rfl | split

theorem lwlClear_moves {a0 a1} {s : State} : Moves 0x8A00001 s (lwlClear a0 a1 s) := by
  unfold lwlClear
  with_reducible
    repeat' first
      | exact .refl | assumption
      | (extract_lets +onlyGivenNames x; first | (refine .cut (x := x) ?_ ?_; (on_goal 1 => intro _; clear_value x); (on_goal 2 => subst x)) | subst x)
      | refine lwlPut_moves.on ?_ rfl | split

theorem lostBlock_moves {a0 a1} {s : State} : Moves 0xAB80901 s (lostBlock a0 a1 s) := by
  unfold lostBlock
  with_reducible
    repeat' first
      | exact .refl | assumption
      | (extract_lets +onlyGivenNames x; first | (refine .cut (x := x) ?_ ?_; (on_goal 1 => intro _; clear_value x); (on_goal 2 => subst x)) | subst x)
      | refine lwlAdd_moves.on ?_ rfl | refine cacheDrop_moves.on ?_ rfl | refine flag_moves.on ?_ rfl | refine asyncEvent_moves.on ?_ rfl | split

theorem dirtyPoison_moves {a0} {s : State} : Moves 0xAB80901 s (dirtyPoison a0 s) := by
  unfold dirtyPoison
  with_reducible
    repeat' first
      | exact .refl | assumption
      | (extract_lets +onlyGivenNames x; first | (refine .cut (x := x) ?_ ?_; (on_goal 1 => intro _; clear_value x); (on_goal 2 => subst x)) | subst x)
      | refine newTag_moves.on ?_ rfl | refine (newTag_moves.get (by assumption)).on ?_ rfl | refine batSend_moves.on ?_ rfl
      | refine lostBlock_moves.on ?_ rfl | fail_if_no_progress refine mk_bat.on ?_ rfl | split

theorem mirrorPoison_moves {a0} {s : State} : Moves 0x8800001 s (mirrorPoison a0 s) := by
  unfold mirrorPoison
  with_reducible
    repeat' first
      | exact .refl | assumption
      | (extract_lets +onlyGivenNames x; first | (refine .cut (x := x) ?_ ?_; (on_goal 1 => intro _; clear_value x); (on_goal 2 => subst x)) | subst x)
      | refine batSend_moves.on ?_ rfl | refine (forEach_moves (m := 0x8800001) (fun _ _ => ?_)).step ?_ | refine newTag_moves.on ?_ rfl
      | refine (newTag_moves.get (by assumption)).on ?_ rfl | fail_if_no_progress refine mk_bat.on ?_ rfl | split | dsimp only

theorem ownerAction_moves {a0} {s : State} : Moves 0xAB80901 s (ownerAction a0 s) := by
  unfold ownerAction
  with_reducible
    repeat' first
      | exact .refl | assumption
      | (extract_lets +onlyGivenNames x; first | (refine .cut (x := x) ?_ ?_; (on_goal 1 => intro _; clear_value x); (on_goal 2 => subst x)) | subst x)
      | refine setPage_moves.on ?_ rfl | refine (forEach_moves (m := 0xAB80901) (fun _ _ => ?_)).step ?_ | refine dirtyPoison_moves.on ?_ rfl
      | refine cacheDrop_moves.on ?_ rfl | refine mirrorPoison_moves.on ?_ rfl | split | dsimp only

theorem psnLog_moves {a0 a1 a2 a3} {s : State} : Moves 0x200901 s (psnLog a0 a1 a2 a3 s) := by
  unfold psnLog
  with_reducible
    repeat' first
      | exact .refl | assumption
      | (extract_lets +onlyGivenNames x; first | (refine .cut (x := x) ?_ ?_; (on_goal 1 => intro _; clear_value x); (on_goal 2 => subst x)) | subst x)
      | refine (onBuf_moves ?_).on ?_ rfl | exact fun _ => rfl | refine sysEvent_moves.on ?_ rfl | refine flag_moves.on ?_ rfl

theorem poisonLine_moves {a0 a1 a2} {s : State} : Moves 0xAB80901 s (poisonLine a0 a1 a2 s) := by
  unfold poisonLine
  with_reducible
    repeat' first
      | exact .refl | assumption
      | (extract_lets +onlyGivenNames x; first | (refine .cut (x := x) ?_ ?_; (on_goal 1 => intro _; clear_value x); (on_goal 2 => subst x)) | subst x)
      | refine sendBurst_moves.on ?_ rfl | refine setPoison_moves.on ?_ rfl | refine psnLog_moves.on ?_ rfl | refine count_moves.on ?_ rfl
      | refine ownerAction_moves.on ?_ rfl | refine memWrite_moves.on ?_ rfl | split

theorem failRead_moves {a0 a1 a2 a3} {s : State} : Moves 0x2080911 s (failRead a0 a1 a2 a3 s) := by
  unfold failRead
  with_reducible
    repeat' first
      | exact .refl | assumption
      | (extract_lets +onlyGivenNames x; first | (refine .cut (x := x) ?_ ?_; (on_goal 1 => intro _; clear_value x); (on_goal 2 => subst x)) | subst x)
      | refine finish_moves.on ?_ rfl | refine lose_moves.on ?_ rfl | refine setSlot_moves.on ?_ rfl | split

theorem consumePoison_moves {a0} {s : State} : Moves 0xEB86B11 s (consumePoison a0 s) := by
  unfold consumePoison
  with_reducible
    repeat' first
      | exact .refl | assumption
      | (extract_lets +onlyGivenNames x; first | (refine .cut (x := x) ?_ ?_; (on_goal 1 => intro _; clear_value x); (on_goal 2 => subst x)) | subst x)
      | refine count_moves.on ?_ rfl | refine (forEach_moves (m := 0xEB86B11) (fun _ _ => ?_)).step ?_ | refine dirtyPoison_moves.on ?_ rfl
      | refine cacheDrop_moves.on ?_ rfl | refine verifyMiss_moves.on ?_ rfl | refine settleSector_moves.on ?_ rfl | refine onLn_moves.on ?_ rfl
      | refine failRead_moves.on ?_ rfl | split | dsimp only

theorem ceEnter_moves {a0 a1 a2 a3} {s : State} : Moves 0x200001 s (ceEnter a0 a1 a2 a3 s) := by
  unfold ceEnter
  with_reducible
    repeat' first
      | exact .refl | assumption
      | (extract_lets +onlyGivenNames x; first | (refine .cut (x := x) ?_ ?_; (on_goal 1 => intro _; clear_value x); (on_goal 2 => subst x)) | subst x)
      | refine count_moves.on ?_ rfl | refine (onBuf_moves ?_).on ?_ rfl | exact fun _ => rfl | refine put_moves.on ?_ rfl | split

theorem markRule_moves {a0 a1} {s : State} : Moves 0x200901 s (markRule a0 a1 s) := by
  unfold markRule
  with_reducible
    repeat' first
      | exact .refl | assumption
      | (extract_lets +onlyGivenNames x; first | (refine .cut (x := x) ?_ ?_; (on_goal 1 => intro _; clear_value x); (on_goal 2 => subst x)) | subst x)
      | refine flag_moves.on ?_ rfl | refine (onBuf_moves ?_).on ?_ rfl | exact fun _ => rfl | refine put_moves.on ?_ rfl | split

theorem dramReadEff_moves {a0 a1 a2 a3} {s : State} : Moves 0xAB80901 s (dramReadEff a0 a1 a2 a3 s).1 := by
  unfold dramReadEff
  with_reducible
    repeat' first
      | exact .refl | assumption
      | (extract_lets +onlyGivenNames x; first | (refine .cut (x := x) ?_ ?_; (on_goal 1 => intro _; clear_value x); (on_goal 2 => subst x)) | subst x)
      | refine memWrite_moves.on ?_ rfl | refine setPoison_moves.on ?_ rfl | refine poisonLine_moves.on ?_ rfl | refine ceEnter_moves.on ?_ rfl
      | refine markRule_moves.on ?_ rfl | refine sendBurst_moves.on ?_ rfl | split | dsimp only | dsimp only

theorem execDramRead_moves {a0 a1 a2 a3} {s : State} : MovesR 0xEB86B11 s (execDramRead a0 a1 a2 a3 s) := by
  unfold execDramRead
  with_reducible
    repeat' first
      | exact .refl | assumption | exact .fault | refine .next ?_
      | (extract_lets +onlyGivenNames x; first | (refine .cut (x := x) ?_ ?_; (on_goal 1 => intro _; clear_value x); (on_goal 2 => subst x)) | subst x)
      | refine dramReadEff_moves.on ?_ rfl | refine (dramReadEff_moves.get1 (by assumption)).on ?_ rfl | refine consumePoison_moves.on ?_ rfl | split

theorem execScrubRead_moves {a0 a1} {s : State} : MovesR 0xAB80901 s (execScrubRead a0 a1 s) := by
  unfold execScrubRead
  with_reducible
    repeat' first
      | exact .refl | assumption | exact .fault | refine .next ?_
      | (extract_lets +onlyGivenNames x; first | (refine .cut (x := x) ?_ ?_; (on_goal 1 => intro _; clear_value x); (on_goal 2 => subst x)) | subst x)
      | refine dramReadEff_moves.on ?_ rfl | refine (dramReadEff_moves.get1 (by assumption)).on ?_ rfl | refine put_moves.on ?_ rfl
      | refine count_moves.on ?_ rfl | refine (onBuf_moves ?_).on ?_ rfl | exact fun _ => rfl | split

theorem showMerge_moves {s : State} : Moves 0x1 s (showMerge s) := by
  unfold showMerge
  with_reducible
    repeat' first
      | exact .refl | assumption | refine put_moves.on ?_ rfl

theorem mergeFlush_moves {a0} {s : State} : Moves 0x8200901 s (mergeFlush a0 s) := by
  unfold mergeFlush
  with_reducible
    repeat' first
      | exact .refl | assumption
      | (extract_lets +onlyGivenNames x; first | (refine .cut (x := x) ?_ ?_; (on_goal 1 => intro _; clear_value x); (on_goal 2 => subst x)) | subst x)
      | refine showMerge_moves.on ?_ rfl | refine count_moves.on ?_ rfl | refine (onBuf_moves ?_).on ?_ rfl | exact fun _ => rfl
      | refine sendBurst_moves.on ?_ rfl | refine psnLog_moves.on ?_ rfl | refine memWrite_moves.on ?_ rfl | refine dramWrite_moves.on ?_ rfl | split

theorem fullWrite_moves {a0 a1} {s : State} : Moves 0x8200001 s (fullWrite a0 a1 s) := by
  unfold fullWrite
  with_reducible
    repeat' first
      | exact .refl | assumption
      | (extract_lets +onlyGivenNames x; first | (refine .cut (x := x) ?_ ?_; (on_goal 1 => intro _; clear_value x); (on_goal 2 => subst x)) | subst x)
      | refine showMerge_moves.on ?_ rfl | refine (onBuf_moves ?_).on ?_ rfl | exact fun _ => rfl | refine dramWrite_moves.on ?_ rfl
      | refine memWrite_moves.on ?_ rfl

theorem layBytes_moves {a0 a1 a2} {s : State} : Moves 0x200000 s (layBytes a0 a1 a2 s) := by
  unfold layBytes
  with_reducible
    repeat' first
      | exact .refl | assumption | refine (forEach_moves (m := 0x200000) (fun _ _ => ?_)).step ?_ | refine memWrite_moves.on ?_ rfl

theorem narrowWrite_moves {a0 a1 a2} {s : State} : Moves 0x8200901 s (narrowWrite a0 a1 a2 s) := by
  unfold narrowWrite
  with_reducible
    repeat' first
      | exact .refl | assumption
      | (extract_lets +onlyGivenNames x; first | (refine .cut (x := x) ?_ ?_; (on_goal 1 => intro _; clear_value x); (on_goal 2 => subst x)) | subst x)
      | refine layBytes_moves.on ?_ rfl | refine fullWrite_moves.on ?_ rfl | refine (onBuf_moves ?_).on ?_ rfl | exact fun _ => rfl
      | refine mergeFlush_moves.on ?_ rfl | refine showMerge_moves.on ?_ rfl | split | dsimp only

theorem execNarrowWrite_moves {a0 a1 a2} {s : State} : MovesR 0x8200901 s (execNarrowWrite a0 a1 a2 s) := by
  unfold execNarrowWrite
  with_reducible
    repeat' first
      | exact .refl | assumption | exact .fault | refine .next ?_ | refine fullWrite_moves.on ?_ rfl | refine narrowWrite_moves.on ?_ rfl | split

theorem execMergeAgeExpiry_moves {s : State} : MovesR 0x8200901 s (execMergeAgeExpiry s) := by
  unfold execMergeAgeExpiry
  with_reducible
    repeat' first
      | exact .refl | assumption | exact .fault | refine .next ?_
      | (extract_lets +onlyGivenNames x; first | (refine .cut (x := x) ?_ ?_; (on_goal 1 => intro _; clear_value x); (on_goal 2 => subst x)) | subst x)
      | refine mergeFlush_moves.on ?_ rfl | split

theorem execPageAllocate_moves {a0} {s : State} : MovesR 0x200001 s (execPageAllocate a0 s) := by
  unfold execPageAllocate
  cases ownerOf a0 with
  | none => exact .next .refl
  | some o =>
    simp only [Option.bind_some]
    split
    · exact .next (allocPage_moves.get (by assumption))
    · exact .next .refl

theorem execPageRelease_moves {a0} {s : State} : MovesR 0x200001 s (execPageRelease a0 s) := by
  unfold execPageRelease
  with_reducible
    repeat' first
      | exact .refl | assumption | exact .fault | refine .next ?_
      | (extract_lets +onlyGivenNames x; first | (refine .cut (x := x) ?_ ?_; (on_goal 1 => intro _; clear_value x); (on_goal 2 => subst x)) | subst x)
      | refine (onBuf_moves ?_).on ?_ rfl | exact fun _ => rfl | refine releasePage_moves.on ?_ rfl | split

/-- Dropping registers keeps the canonical form. -/
theorem Registers.wf_filter {m : SMap Word} (p : Nat × Word → Bool) (h : Registers.wf m = true) : Registers.wf (m.filter p) = true :=
  have h := canonical_iff.mp h
  canonical_iff.mpr ⟨smSorted_filter p h.1, fun e he => h.2 e (List.mem_filter.mp he).1⟩

theorem zeroPage_moves {a0} {s : State} : Moves 0x200000 s (zeroPage a0 s) :=
  mk_buf (Memory.wf_filter _)

theorem execQuarantineTest_moves {a0 a1} {s : State} : MovesR 0xAB80901 s (execQuarantineTest a0 a1 s) := by
  unfold execQuarantineTest
  with_reducible
    repeat' first
      | exact .refl | assumption | exact .fault | refine .next ?_
      | (extract_lets +onlyGivenNames x; first | (refine .cut (x := x) ?_ ?_; (on_goal 1 => intro _; clear_value x); (on_goal 2 => subst x)) | subst x)
      | refine setPage_moves.on ?_ rfl | refine flag_moves.on ?_ rfl | refine poisonLine_moves.on ?_ rfl
      | (unfold State.onBuf; refine (mk_buf ?_).on ?_ rfl) | exact Memory.wf_filter _ | refine zeroPage_moves.on ?_ rfl | split

theorem execCeTableClear_moves {s : State} : MovesR 0x200919 s (execCeTableClear s) := by
  unfold execCeTableClear
  with_reducible
    repeat' first
      | exact .refl | assumption | exact .fault | refine .next ?_
      | (extract_lets +onlyGivenNames x; first | (refine .cut (x := x) ?_ ?_; (on_goal 1 => intro _; clear_value x); (on_goal 2 => subst x)) | subst x)
      | refine (command_moves (m := 0x200919) rfl (fun _ => ?_)).step ?_ | refine put_moves.on ?_ rfl | refine (onBuf_moves ?_).on ?_ rfl
      | exact fun _ => rfl

theorem clearMark_moves {a0} {s : State} : Moves 0x200001 s (clearMark a0 s) := by
  unfold clearMark
  with_reducible
    repeat' first
      | exact .refl | assumption
      | (extract_lets +onlyGivenNames x; first | (refine .cut (x := x) ?_ ?_; (on_goal 1 => intro _; clear_value x); (on_goal 2 => subst x)) | subst x)
      | refine put_moves.on ?_ rfl | refine (onBuf_moves ?_).on ?_ rfl | exact fun _ => rfl

theorem execMarkClear_moves {a0} {s : State} : MovesR 0x200919 s (execMarkClear a0 s) := by
  unfold execMarkClear
  with_reducible
    repeat' first
      | exact .refl | assumption | exact .fault | refine .next ?_ | refine (command_moves (m := 0x200919) rfl (fun _ => ?_)).step ?_
      | refine clearMark_moves.on ?_ rfl

theorem flipEff_moves {a0 a1 a2} {s : State} : Moves 0x901 s (flipEff a0 a1 a2 s) := by
  unfold flipEff
  with_reducible
    repeat' first
      | exact .refl | assumption
      | (extract_lets +onlyGivenNames x; first | (refine .cut (x := x) ?_ ?_; (on_goal 1 => intro _; clear_value x); (on_goal 2 => subst x)) | subst x)
      | refine put_moves.on ?_ rfl | refine flag_moves.on ?_ rfl | refine putB_moves.on ?_ rfl | refine setReg_moves.on ?_ rfl
      | refine (write_moves (m := 0x901) rfl (fun _ => ?_)).step ?_ | split

theorem execFlipWrite_moves {a0 a1 a2} {s : State} : MovesR 0x919 s (execFlipWrite a0 a1 a2 s) := by
  unfold execFlipWrite
  with_reducible
    repeat' first
      | exact .refl | assumption | exact .fault | refine .next ?_ | refine (command_moves (m := 0x919) rfl (fun _ => ?_)).step ?_
      | refine flipEff_moves.on ?_ rfl | split

theorem execArbiterEpoch_moves {a0} {s : State} : MovesR 0x200000 s (execArbiterEpoch a0 s) := by
  unfold execArbiterEpoch
  with_reducible
    repeat' first
      | exact .refl | assumption | exact .fault | refine .next ?_
      | (extract_lets +onlyGivenNames x; first | (refine .cut (x := x) ?_ ?_; (on_goal 1 => intro _; clear_value x); (on_goal 2 => subst x)) | subst x)
      | refine (onBuf_moves ?_).on ?_ rfl | exact fun _ => rfl | split

theorem chargeGrant_moves {a0 a1 a2} {s : State} : Moves 0x200000 s (chargeGrant a0 a1 a2 s) := by
  unfold chargeGrant
  with_reducible
    repeat' first
      | exact .refl | assumption
      | (extract_lets +onlyGivenNames x; first | (refine .cut (x := x) ?_ ?_; (on_goal 1 => intro _; clear_value x); (on_goal 2 => subst x)) | subst x)
      | refine (onBuf_moves ?_).on ?_ rfl | exact fun _ => rfl | split

end Sys2Proof.Machine
end

