-- ==== Sys2Proof/Laws/MovesBand.lean ====
section
/-! SUPPORT. One lemma for each operation of Keys.lean, BandMap.lean, BandWork.lean, Sequencer.lean, Relay.lean: what it may change (Moves). -/

namespace Sys2Proof.Machine

set_option linter.all false
set_option Elab.async false

theorem showKeys_moves {s : State} : Moves 0x1 s (showKeys s) := by
  unfold showKeys
  with_reducible
    repeat' first
      | exact .refl | assumption
      | (extract_lets +onlyGivenNames x; first | (refine .cut (x := x) ?_ ?_; (on_goal 1 => intro _; clear_value x); (on_goal 2 => subst x)) | subst x)
      | refine putB_moves.on ?_ rfl | refine put_moves.on ?_ rfl | split

theorem drawKey_moves {s : State} : Moves 0x10000000 s (drawKey s).2 := by
  unfold drawKey
  with_reducible
    repeat' first
      | exact .refl | assumption
      | (extract_lets +onlyGivenNames x; first | (refine .cut (x := x) ?_ ?_; (on_goal 1 => intro _; clear_value x); (on_goal 2 => subst x)) | subst x)
      | refine free_moves.on ?_ rfl | refine (free_moves.get (by assumption)).on ?_ rfl | split | dsimp only

theorem writeKeyRecord_moves {a0 a1 a2 a3} {s : State} : Moves 0x8801901 s (writeKeyRecord a0 a1 a2 a3 s).2 := by
  unfold writeKeyRecord
  with_reducible
    repeat' first
      | exact .refl | assumption
      | (extract_lets +onlyGivenNames x; first | (refine .cut (x := x) ?_ ?_; (on_goal 1 => intro _; clear_value x); (on_goal 2 => subst x)) | subst x)
      | refine flag_moves.on ?_ rfl | refine showKeys_moves.on ?_ rfl | refine batRecord_moves.on ?_ rfl | fail_if_no_progress refine mk_key.on ?_ rfl
      | split | dsimp only

theorem dropKeyRecord_moves {a0 a1 a2} {s : State} : Moves 0x8801901 s (dropKeyRecord a0 a1 a2 s).2 := by
  unfold dropKeyRecord
  with_reducible
    repeat' first
      | exact .refl | assumption
      | (extract_lets +onlyGivenNames x; first | (refine .cut (x := x) ?_ ?_; (on_goal 1 => intro _; clear_value x); (on_goal 2 => subst x)) | subst x)
      | refine batRecord_moves.on ?_ rfl | refine flag_moves.on ?_ rfl | refine showKeys_moves.on ?_ rfl | fail_if_no_progress refine mk_key.on ?_ rfl
      | split

theorem newKey_moves {a0 a1 a2 a3 a4} {s : State} : Moves 0x18801901 s (newKey a0 a1 a2 a3 a4 s).2 := by
  unfold newKey
  with_reducible
    repeat' first
      | exact .refl | assumption
      | (extract_lets +onlyGivenNames x; first | (refine .cut (x := x) ?_ ?_; (on_goal 1 => intro _; clear_value x); (on_goal 2 => subst x)) | subst x)
      | refine flag_moves.on ?_ rfl | refine drawKey_moves.on ?_ rfl | refine (drawKey_moves.get (by assumption)).on ?_ rfl
      | refine writeKeyRecord_moves.on ?_ rfl | refine (writeKeyRecord_moves.get (by assumption)).on ?_ rfl | split | dsimp only

theorem unwrapOne_moves {a0 a1} {s : State} : Moves 0x1901 s (unwrapOne a0 a1 s) := by
  unfold unwrapOne
  with_reducible
    repeat' first
      | exact .refl | assumption
      | (extract_lets +onlyGivenNames x; first | (refine .cut (x := x) ?_ ?_; (on_goal 1 => intro _; clear_value x); (on_goal 2 => subst x)) | subst x)
      | refine count_moves.on ?_ rfl | refine flag_moves.on ?_ rfl | fail_if_no_progress refine mk_key.on ?_ rfl | split | dsimp only

theorem execKeyUnwrap_moves {a0} {s : State} : MovesR 0x1901 s (execKeyUnwrap a0 s) := by
  unfold execKeyUnwrap
  with_reducible
    repeat' first
      | exact .refl | assumption | exact .fault | refine .next ?_ | refine showKeys_moves.on ?_ rfl | refine put_moves.on ?_ rfl
      | refine (forEach_moves (m := 0x1901) (fun _ _ => ?_)).step ?_ | refine unwrapOne_moves.on ?_ rfl | split | dsimp only

theorem onBnd_moves {a1} {s : State} : Moves 0x100000 s (State.onBnd s a1) := by
  unfold State.onBnd
  with_reducible
    repeat' first
      | exact .refl | assumption
      | (extract_lets +onlyGivenNames x; first | (refine .cut (x := x) ?_ ?_; (on_goal 1 => intro _; clear_value x); (on_goal 2 => subst x)) | subst x)
      | fail_if_no_progress refine mk_bnd.on ?_ rfl

theorem setBand_moves {a1 a2} {s : State} : Moves 0x100000 s (State.setBand s a1 a2) := by
  unfold State.setBand
  with_reducible
    repeat' first
      | exact .refl | assumption
      | (extract_lets +onlyGivenNames x; first | (refine .cut (x := x) ?_ ?_; (on_goal 1 => intro _; clear_value x); (on_goal 2 => subst x)) | subst x)
      | refine onBnd_moves.on ?_ rfl

theorem setLband_moves {a1 a2} {s : State} : Moves 0x100000 s (State.setLband s a1 a2) := by
  unfold State.setLband
  with_reducible
    repeat' first
      | exact .refl | assumption
      | (extract_lets +onlyGivenNames x; first | (refine .cut (x := x) ?_ ?_; (on_goal 1 => intro _; clear_value x); (on_goal 2 => subst x)) | subst x)
      | refine onBnd_moves.on ?_ rfl

theorem shadowBands_moves {a0 a1} {s : State} : Moves 0x100000 s (shadowBands a0 a1 s) := by
  unfold shadowBands
  with_reducible
    repeat' first
      | exact .refl | assumption
      | (extract_lets +onlyGivenNames x; first | (refine .cut (x := x) ?_ ?_; (on_goal 1 => intro _; clear_value x); (on_goal 2 => subst x)) | subst x)
      | refine (forEach_moves (m := 0x100000) (fun _ _ => ?_)).step ?_ | refine setBand_moves.on ?_ rfl | split | dsimp only

theorem mciPut_moves {a0 a1 a2} {s : State} : Moves 0x100000 s (mciPut a0 a1 a2 s) := by
  unfold mciPut
  with_reducible
    repeat' first
      | exact .refl | assumption | refine onBnd_moves.on ?_ rfl | refine shadowBands_moves.on ?_ rfl | dsimp only

theorem mciAdd_moves {a0} {s : State} : Moves 0x100000 s (mciAdd a0 s) := by
  unfold mciAdd
  with_reducible
    repeat' first
      | exact .refl | assumption
      | (extract_lets +onlyGivenNames x; first | (refine .cut (x := x) ?_ ?_; (on_goal 1 => intro _; clear_value x); (on_goal 2 => subst x)) | subst x)
      | refine mciPut_moves.on ?_ rfl

theorem mciMerge_moves {a0} {s : State} : Moves 0x100000 s (mciMerge a0 s) := by
  unfold mciMerge
  with_reducible
    repeat' first
      | exact .refl | assumption | refine (forEach_moves (m := 0x100000) (fun _ _ => ?_)).step ?_ | refine mciAdd_moves.on ?_ rfl

theorem mciRemove_moves {a0 a1 a2} {s : State} : Moves 0x100000 s (mciRemove a0 a1 a2 s) := by
  unfold mciRemove
  with_reducible
    repeat' first
      | exact .refl | assumption
      | (extract_lets +onlyGivenNames x; first | (refine .cut (x := x) ?_ ?_; (on_goal 1 => intro _; clear_value x); (on_goal 2 => subst x)) | subst x)
      | refine onBnd_moves.on ?_ rfl | split

theorem showMc_moves {s : State} : Moves 0x1 s (showMc s) := by
  unfold showMc
  with_reducible
    repeat' first
      | exact .refl | assumption
      | (extract_lets +onlyGivenNames x; first | (refine .cut (x := x) ?_ ?_; (on_goal 1 => intro _; clear_value x); (on_goal 2 => subst x)) | subst x)
      | refine put_moves.on ?_ rfl | refine (foldl_moves (m := 0x1) (fun _ _ => ?_)).step ?_ | split | dsimp only

theorem takeSeq_moves {a0} {s : State} : MovesV 0x1 s (takeSeq a0 s) := by
  unfold takeSeq
  with_reducible
    repeat' first
      | exact .refl | assumption | exact .none | refine .some ?_
      | (extract_lets +onlyGivenNames x; first | (refine .cut (x := x) ?_ ?_; (on_goal 1 => intro _; clear_value x); (on_goal 2 => subst x)) | subst x)
      | refine putSeq_moves.on ?_ rfl | refine journal_moves.on ?_ rfl | split

theorem showJournal_moves {s : State} : Moves 0x1 s (showJournal s) := by
  unfold showJournal
  with_reducible
    repeat' first
      | exact .refl | assumption | refine putB_moves.on ?_ rfl | refine put_moves.on ?_ rfl

theorem jnlSend_moves {a0} {s : State} : Moves 0x8800001 s (jnlSend a0 s) := by
  unfold jnlSend
  with_reducible
    repeat' first
      | exact .refl | assumption
      | (extract_lets +onlyGivenNames x; first | (refine .cut (x := x) ?_ ?_; (on_goal 1 => intro _; clear_value x); (on_goal 2 => subst x)) | subst x)
      | refine batSend_moves.on ?_ rfl | fail_if_no_progress refine mk_bat.on ?_ rfl | split

theorem journal_moves {a0} {s : State} : Moves 0x8900001 s (journal a0 s) := by
  unfold journal
  with_reducible
    repeat' first
      | exact .refl | assumption
      | (extract_lets +onlyGivenNames x; first | (refine .cut (x := x) ?_ ?_; (on_goal 1 => intro _; clear_value x); (on_goal 2 => subst x)) | subst x)
      | refine showJournal_moves.on ?_ rfl | refine onBnd_moves.on ?_ rfl | refine jnlSend_moves.on ?_ rfl

theorem forceFlush_moves {s : State} : Moves 0x100000 s (forceFlush s) := by
  unfold forceFlush
  with_reducible
    repeat' first
      | exact .refl | assumption
      | (extract_lets +onlyGivenNames x; first | (refine .cut (x := x) ?_ ?_; (on_goal 1 => intro _; clear_value x); (on_goal 2 => subst x)) | subst x)
      | refine onBnd_moves.on ?_ rfl

theorem setCredit_moves {a0 a1} {s : State} : Moves 0x100000 s (setCredit a0 a1 s) := by
  unfold setCredit
  with_reducible
    repeat' first
      | exact .refl | assumption
      | (extract_lets +onlyGivenNames x; first | (refine .cut (x := x) ?_ ?_; (on_goal 1 => intro _; clear_value x); (on_goal 2 => subst x)) | subst x)
      | refine onBnd_moves.on ?_ rfl

theorem evalLevel_moves {a0} {s : State} : Moves 0x100001 s (evalLevel a0 s) := by
  unfold evalLevel
  with_reducible
    repeat' first
      | exact .refl | assumption
      | (extract_lets +onlyGivenNames x; first | (refine .cut (x := x) ?_ ?_; (on_goal 1 => intro _; clear_value x); (on_goal 2 => subst x)) | subst x)
      | refine showMc_moves.on ?_ rfl | refine put_moves.on ?_ rfl | refine setCredit_moves.on ?_ rfl | split

theorem evalBand_moves {a0} {s : State} : Moves 0x100001 s (evalBand a0 s) := by
  unfold evalBand
  with_reducible
    repeat' first
      | exact .refl | assumption
      | (extract_lets +onlyGivenNames x; first | (refine .cut (x := x) ?_ ?_; (on_goal 1 => intro _; clear_value x); (on_goal 2 => subst x)) | subst x)
      | refine evalLevel_moves.on ?_ rfl | split

theorem bandState_moves {a0 a1} {s : State} : Moves 0x8900001 s (bandState a0 a1 s) := by
  unfold bandState
  with_reducible
    repeat' first
      | exact .refl | assumption
      | (extract_lets +onlyGivenNames x; first | (refine .cut (x := x) ?_ ?_; (on_goal 1 => intro _; clear_value x); (on_goal 2 => subst x)) | subst x)
      | refine setBand_moves.on ?_ rfl | refine journal_moves.on ?_ rfl | refine evalBand_moves.on ?_ rfl

theorem skipPatrol_moves {a0} {s : State} : Moves 0x80000 s (skipPatrol a0 s) := by
  unfold skipPatrol
  with_reducible
    repeat' first
      | exact .refl | assumption
      | (extract_lets +onlyGivenNames x; first | (refine .cut (x := x) ?_ ?_; (on_goal 1 => intro _; clear_value x); (on_goal 2 => subst x)) | subst x)
      | fail_if_no_progress refine mk_rly.on ?_ rfl | dsimp only

theorem freeBand_moves {a0} {s : State} : Moves 0x8980001 s (freeBand a0 s) := by
  unfold freeBand
  with_reducible
    repeat' first
      | exact .refl | assumption
      | (extract_lets +onlyGivenNames x; first | (refine .cut (x := x) ?_ ?_; (on_goal 1 => intro _; clear_value x); (on_goal 2 => subst x)) | subst x)
      | refine setBand_moves.on ?_ rfl | refine bandState_moves.on ?_ rfl | refine onBnd_moves.on ?_ rfl | refine skipPatrol_moves.on ?_ rfl
      | dsimp only

theorem openBand_moves {a0 a1 a2} {s : State} : Moves 0x8900001 s (openBand a0 a1 a2 s) := by
  unfold openBand
  with_reducible
    repeat' first
      | exact .refl | assumption
      | (extract_lets +onlyGivenNames x; first | (refine .cut (x := x) ?_ ?_; (on_goal 1 => intro _; clear_value x); (on_goal 2 => subst x)) | subst x)
      | refine setBand_moves.on ?_ rfl | refine bandState_moves.on ?_ rfl

theorem advanceTail_moves {a0 a1} {s : State} : Moves 0x100001 s (advanceTail a0 a1 s) := by
  unfold advanceTail
  with_reducible
    repeat' first
      | exact .refl | assumption
      | (extract_lets +onlyGivenNames x; first | (refine .cut (x := x) ?_ ?_; (on_goal 1 => intro _; clear_value x); (on_goal 2 => subst x)) | subst x)
      | refine onBnd_moves.on ?_ rfl | refine setCredit_moves.on ?_ rfl | refine evalLevel_moves.on ?_ rfl | split | dsimp only

theorem dropWhole_moves {a0} {s : State} : Moves 0x8980001 s (dropWhole a0 s) := by
  unfold dropWhole
  with_reducible
    repeat' first
      | exact .refl | assumption
      | (extract_lets +onlyGivenNames x; first | (refine .cut (x := x) ?_ ?_; (on_goal 1 => intro _; clear_value x); (on_goal 2 => subst x)) | subst x)
      | refine onBnd_moves.on ?_ rfl | refine freeBand_moves.on ?_ rfl | refine setLband_moves.on ?_ rfl | split | dsimp only

theorem deallocBand_moves {a0 a1 a2 a3} {s : State} : Moves 0x8980001 s (deallocBand a0 a1 a2 a3 s) := by
  unfold deallocBand
  with_reducible
    repeat' first
      | exact .refl | assumption
      | (extract_lets +onlyGivenNames x; first | (refine .cut (x := x) ?_ ?_; (on_goal 1 => intro _; clear_value x); (on_goal 2 => subst x)) | subst x)
      | refine dropWhole_moves.on ?_ rfl | refine mciPut_moves.on ?_ rfl | refine onBnd_moves.on ?_ rfl | refine setLband_moves.on ?_ rfl | split
      | dsimp only

theorem dealloc_moves {a0 a1} {s : State} : Moves 0x8980001 s (dealloc a0 a1 s) := by
  unfold dealloc
  with_reducible
    repeat' first
      | exact .refl | assumption
      | (extract_lets +onlyGivenNames x; first | (refine .cut (x := x) ?_ ?_; (on_goal 1 => intro _; clear_value x); (on_goal 2 => subst x)) | subst x)
      | refine (forEach_moves (m := 0x8980001) (fun _ _ => ?_)).step ?_ | refine putSeq_moves.on ?_ rfl | refine journal_moves.on ?_ rfl
      | refine deallocBand_moves.on ?_ rfl | split | dsimp only

theorem abandonRewrite_moves {a0} {s : State} : Moves 0x8980001 s (abandonRewrite a0 s) := by
  unfold abandonRewrite
  with_reducible
    repeat' first
      | exact .refl | assumption
      | (extract_lets +onlyGivenNames x; first | (refine .cut (x := x) ?_ ?_; (on_goal 1 => intro _; clear_value x); (on_goal 2 => subst x)) | subst x)
      | refine freeBand_moves.on ?_ rfl | refine setBand_moves.on ?_ rfl | fail_if_no_progress refine mk_bnd.on ?_ rfl | split

theorem deallocNamespace_moves {a0} {s : State} : Moves 0x8980001 s (deallocNamespace a0 s) := by
  unfold deallocNamespace
  with_reducible
    repeat' first
      | exact .refl | assumption
      | (extract_lets +onlyGivenNames x; first | (refine .cut (x := x) ?_ ?_; (on_goal 1 => intro _; clear_value x); (on_goal 2 => subst x)) | subst x)
      | refine (forEach_moves (m := 0x8980001) (fun _ _ => ?_)).step ?_ | refine abandonRewrite_moves.on ?_ rfl | refine dealloc_moves.on ?_ rfl
      | refine onBnd_moves.on ?_ rfl | refine count_moves.on ?_ rfl

theorem warnSpare_moves {a0 a1} {s : State} : Moves 0x2180901 s (warnSpare a0 a1 s) := by
  unfold warnSpare
  with_reducible
    repeat' first
      | exact .refl | assumption
      | (extract_lets +onlyGivenNames x; first | (refine .cut (x := x) ?_ ?_; (on_goal 1 => intro _; clear_value x); (on_goal 2 => subst x)) | subst x)
      | refine onBnd_moves.on ?_ rfl | refine asyncEventAll_moves.on ?_ rfl | refine flag_moves.on ?_ rfl | split

theorem judgeSpares_moves {a0} {s : State} : Moves 0x2180901 s (judgeSpares a0 s) := by
  unfold judgeSpares
  with_reducible
    repeat' first
      | exact .refl | assumption
      | (extract_lets +onlyGivenNames x; first | (refine .cut (x := x) ?_ ?_; (on_goal 1 => intro _; clear_value x); (on_goal 2 => subst x)) | subst x)
      | refine warnSpare_moves.on ?_ rfl | refine cond_moves.on ?_ rfl | refine flag_moves.on ?_ rfl | split

theorem retireBand_moves {a0} {s : State} : Moves 0xA980901 s (retireBand a0 s) := by
  unfold retireBand
  with_reducible
    repeat' first
      | exact .refl | assumption
      | (extract_lets +onlyGivenNames x; first | (refine .cut (x := x) ?_ ?_; (on_goal 1 => intro _; clear_value x); (on_goal 2 => subst x)) | subst x)
      | refine count_moves.on ?_ rfl | refine bandState_moves.on ?_ rfl | refine setBand_moves.on ?_ rfl | refine judgeSpares_moves.on ?_ rfl | split

theorem pendRetire_moves {a0} {s : State} : Moves 0xA980901 s (pendRetire a0 s) := by
  unfold pendRetire
  with_reducible
    repeat' first
      | exact .refl | assumption
      | (extract_lets +onlyGivenNames x; first | (refine .cut (x := x) ?_ ?_; (on_goal 1 => intro _; clear_value x); (on_goal 2 => subst x)) | subst x)
      | refine retireBand_moves.on ?_ rfl | refine onBnd_moves.on ?_ rfl | split

theorem weaken_moves {a0} {s : State} : Moves 0xA980901 s (weaken a0 s) := by
  unfold weaken
  with_reducible
    repeat' first
      | exact .refl | assumption
      | (extract_lets +onlyGivenNames x; first | (refine .cut (x := x) ?_ ?_; (on_goal 1 => intro _; clear_value x); (on_goal 2 => subst x)) | subst x)
      | refine onBnd_moves.on ?_ rfl | refine pendRetire_moves.on ?_ rfl | split

theorem putBndState_moves {a0} {s : State} : Moves 0x801 s (putBndState a0 s) := by
  unfold putBndState
  with_reducible
    repeat' first
      | exact .refl | assumption | refine irq_moves.on ?_ rfl | refine put_moves.on ?_ rfl | split

theorem loseLba_moves {a0 a1} {s : State} : Moves 0xAB80901 s (loseLba a0 a1 s) := by
  unfold loseLba
  with_reducible
    repeat' first
      | exact .refl | assumption
      | (extract_lets +onlyGivenNames x; first | (refine .cut (x := x) ?_ ?_; (on_goal 1 => intro _; clear_value x); (on_goal 2 => subst x)) | subst x)
      | refine flag_moves.on ?_ rfl | refine journal_moves.on ?_ rfl | refine lostBlock_moves.on ?_ rfl | refine count_moves.on ?_ rfl

theorem request_moves {a0} {s : State} : Moves 0x80000 s (request a0 s) := by
  unfold request
  with_reducible
    repeat' first
      | exact .refl | assumption
      | (extract_lets +onlyGivenNames x; first | (refine .cut (x := x) ?_ ?_; (on_goal 1 => intro _; clear_value x); (on_goal 2 => subst x)) | subst x)
      | fail_if_no_progress refine mk_rly.on ?_ rfl

theorem takeLog_moves {a0 a1} {s : State} : MovesV 0x100000 s (takeLog a0 a1 s) := by
  unfold takeLog
  with_reducible
    repeat' first
      | exact .refl | assumption | exact .none | refine .some ?_
      | (extract_lets +onlyGivenNames x; first | (refine .cut (x := x) ?_ ?_; (on_goal 1 => intro _; clear_value x); (on_goal 2 => subst x)) | subst x)
      | refine onBnd_moves.on ?_ rfl | split

theorem logWrite_moves {a0 a1 a2 a3 a4 a5 a6} {s : State} : MovesV 0x180001 s (logWrite a0 a1 a2 a3 a4 a5 a6 s) := by
  unfold logWrite
  with_reducible
    repeat' first
      | exact .refl | assumption | exact .none | refine .some ?_
      | (extract_lets +onlyGivenNames x; first | (refine .cut (x := x) ?_ ?_; (on_goal 1 => intro _; clear_value x); (on_goal 2 => subst x)) | subst x)
      | refine (takeSeq_moves.get (by assumption)).on ?_ rfl | refine takeSeq_moves.on ?_ rfl | refine (takeLog_moves.get (by assumption)).on ?_ rfl
      | refine takeLog_moves.on ?_ rfl | refine request_moves.on ?_ rfl | refine evalLevel_moves.on ?_ rfl | split

theorem startFlush_moves {s : State} : Moves 0x8980001 s (startFlush s) := by
  unfold startFlush
  with_reducible
    repeat' first
      | exact .refl | assumption
      | (extract_lets +onlyGivenNames x; first | (refine .cut (x := x) ?_ ?_; (on_goal 1 => intro _; clear_value x); (on_goal 2 => subst x)) | subst x)
      | refine onBnd_moves.on ?_ rfl | refine (takeSeq_moves.get (by assumption)).on ?_ rfl | refine takeSeq_moves.on ?_ rfl
      | refine showJournal_moves.on ?_ rfl | refine (forEach_moves (m := 0x8980001) (fun _ _ => ?_)).step ?_ | refine jnlSend_moves.on ?_ rfl
      | refine request_moves.on ?_ rfl | split | dsimp only

theorem checkpointPlaced_moves {s : State} : Moves 0x2180001 s (checkpointPlaced s) := by
  unfold checkpointPlaced
  with_reducible
    repeat' first
      | exact .refl | assumption
      | (extract_lets +onlyGivenNames x; first | (refine .cut (x := x) ?_ ?_; (on_goal 1 => intro _; clear_value x); (on_goal 2 => subst x)) | subst x)
      | refine put_moves.on ?_ rfl | refine showJournal_moves.on ?_ rfl | refine onBnd_moves.on ?_ rfl
      | refine (forEach_moves (m := 0x2180001) (fun _ _ => ?_)).step ?_ | refine finish_moves.on ?_ rfl | refine advanceTail_moves.on ?_ rfl | split
      | dsimp only

theorem startImage_moves {s : State} : Moves 0x180001 s (startImage s) := by
  unfold startImage
  with_reducible
    repeat' first
      | exact .refl | assumption
      | (extract_lets +onlyGivenNames x; first | (refine .cut (x := x) ?_ ?_; (on_goal 1 => intro _; clear_value x); (on_goal 2 => subst x)) | subst x)
      | refine onBnd_moves.on ?_ rfl | refine (takeSeq_moves.get (by assumption)).on ?_ rfl | refine takeSeq_moves.on ?_ rfl
      | refine (forEach_moves (m := 0x180001) (fun _ _ => ?_)).step ?_ | refine request_moves.on ?_ rfl | split

theorem imagePlaced_moves {s : State} : Moves 0x8900001 s (imagePlaced s) := by
  unfold imagePlaced
  with_reducible
    repeat' first
      | exact .refl | assumption
      | (extract_lets +onlyGivenNames x; first | (refine .cut (x := x) ?_ ?_; (on_goal 1 => intro _; clear_value x); (on_goal 2 => subst x)) | subst x)
      | refine onBnd_moves.on ?_ rfl | refine batSend_moves.on ?_ rfl | fail_if_no_progress refine mk_bat.on ?_ rfl | split

theorem markClean_moves {a0 a1} {s : State} : Moves 0x8A00001 s (markClean a0 a1 s) := by
  unfold markClean
  with_reducible
    repeat' first
      | exact .refl | assumption
      | (extract_lets +onlyGivenNames x; first | (refine .cut (x := x) ?_ ?_; (on_goal 1 => intro _; clear_value x); (on_goal 2 => subst x)) | subst x)
      | refine cacheSet_moves.on ?_ rfl | refine batSend_moves.on ?_ rfl | refine mirrored_moves.on ?_ rfl | split

theorem mciPlace_moves {a0 a1 a2 a3} {s : State} : Moves 0x100000 s (mciPlace a0 a1 a2 a3 s) := by
  unfold mciPlace
  with_reducible
    repeat' first
      | exact .refl | assumption
      | (extract_lets +onlyGivenNames x; first | (refine .cut (x := x) ?_ ?_; (on_goal 1 => intro _; clear_value x); (on_goal 2 => subst x)) | subst x)
      | refine mciAdd_moves.on ?_ rfl | refine onBnd_moves.on ?_ rfl | split | dsimp only

theorem queuePatrol_moves {a0} {s : State} : Moves 0x100001 s (queuePatrol a0 s) := by
  unfold queuePatrol
  with_reducible
    repeat' first
      | exact .refl | assumption
      | (extract_lets +onlyGivenNames x; first | (refine .cut (x := x) ?_ ?_; (on_goal 1 => intro _; clear_value x); (on_goal 2 => subst x)) | subst x)
      | refine onBnd_moves.on ?_ rfl | refine put_moves.on ?_ rfl | split

theorem disturb_moves {a0} {s : State} : Moves 0x100001 s (disturb a0 s) := by
  unfold disturb
  with_reducible
    repeat' first
      | exact .refl | assumption
      | (extract_lets +onlyGivenNames x; first | (refine .cut (x := x) ?_ ?_; (on_goal 1 => intro _; clear_value x); (on_goal 2 => subst x)) | subst x)
      | refine queuePatrol_moves.on ?_ rfl | refine setBand_moves.on ?_ rfl | refine onBnd_moves.on ?_ rfl | split

theorem disturbTrack_moves {a0 a1 a2} {s : State} : Moves 0x100001 s (disturbTrack a0 a1 a2 s) := by
  unfold disturbTrack
  with_reducible
    repeat' first
      | exact .refl | assumption
      | (extract_lets +onlyGivenNames x; first | (refine .cut (x := x) ?_ ?_; (on_goal 1 => intro _; clear_value x); (on_goal 2 => subst x)) | subst x)
      | refine (forEach_moves (m := 0x100001) (fun _ _ => ?_)).step ?_ | refine disturb_moves.on ?_ rfl | split | dsimp only

theorem disturbNeighbours_moves {a0} {s : State} : Moves 0x100001 s (disturbNeighbours a0 s) := by
  unfold disturbNeighbours
  with_reducible
    repeat' first
      | exact .refl | assumption
      | (extract_lets +onlyGivenNames x; first | (refine .cut (x := x) ?_ ?_; (on_goal 1 => intro _; clear_value x); (on_goal 2 => subst x)) | subst x)
      | refine (forEach_moves (m := 0x100001) (fun _ _ => ?_)).step ?_ | refine disturb_moves.on ?_ rfl | split

theorem placedInBand_moves {a0} {s : State} : Moves 0x8B00001 s (placedInBand a0 s) := by
  unfold placedInBand
  with_reducible
    repeat' first
      | exact .refl | assumption
      | (extract_lets +onlyGivenNames x; first | (refine .cut (x := x) ?_ ?_; (on_goal 1 => intro _; clear_value x); (on_goal 2 => subst x)) | subst x)
      | refine setBand_moves.on ?_ rfl | refine onBnd_moves.on ?_ rfl | refine (onBuf_moves ?_).on ?_ rfl | exact fun _ => rfl
      | refine markClean_moves.on ?_ rfl | refine setLband_moves.on ?_ rfl | refine bandState_moves.on ?_ rfl
      | refine disturbNeighbours_moves.on ?_ rfl | split

theorem placedInLog_moves {a0} {s : State} : Moves 0x8B00001 s (placedInLog a0 s) := by
  unfold placedInLog
  with_reducible
    repeat' first
      | exact .refl | assumption
      | (extract_lets +onlyGivenNames x; first | (refine .cut (x := x) ?_ ?_; (on_goal 1 => intro _; clear_value x); (on_goal 2 => subst x)) | subst x)
      | refine journal_moves.on ?_ rfl | refine mciPlace_moves.on ?_ rfl | refine setLband_moves.on ?_ rfl | refine markClean_moves.on ?_ rfl
      | refine (onBuf_moves ?_).on ?_ rfl | exact fun _ => rfl | refine evalBand_moves.on ?_ rfl | split | dsimp only

theorem bndPlaced_moves {a0} {s : State} : Moves 0x8B00001 s (bndPlaced a0 s) := by
  unfold bndPlaced
  with_reducible
    repeat' first
      | exact .refl | assumption
      | (extract_lets +onlyGivenNames x; first | (refine .cut (x := x) ?_ ?_; (on_goal 1 => intro _; clear_value x); (on_goal 2 => subst x)) | subst x)
      | refine placedInLog_moves.on ?_ rfl | refine count_moves.on ?_ rfl | refine onBnd_moves.on ?_ rfl | refine placedInBand_moves.on ?_ rfl | split
      | dsimp only

theorem poolReplace_moves {a0} {s : State} : Moves 0x100901 s (poolReplace a0 s) := by
  unfold poolReplace
  with_reducible
    repeat' first
      | exact .refl | assumption
      | (extract_lets +onlyGivenNames x; first | (refine .cut (x := x) ?_ ?_; (on_goal 1 => intro _; clear_value x); (on_goal 2 => subst x)) | subst x)
      | refine onBnd_moves.on ?_ rfl | refine cond_moves.on ?_ rfl | refine flag_moves.on ?_ rfl | split

theorem relocateFixed_moves {a0 a1 a2 a3} {s : State} : MovesO 0x8B80901 s (relocateFixed a0 a1 a2 a3 s) := by
  unfold relocateFixed
  with_reducible
    repeat' first
      | exact .refl | assumption | exact .none | refine .some ?_
      | (extract_lets +onlyGivenNames x; first | (refine .cut (x := x) ?_ ?_; (on_goal 1 => intro _; clear_value x); (on_goal 2 => subst x)) | subst x)
      | refine bndPlaced_moves.on ?_ rfl | refine poolReplace_moves.on ?_ rfl | refine request_moves.on ?_ rfl
      | refine (takeSeq_moves.get (by assumption)).on ?_ rfl | refine takeSeq_moves.on ?_ rfl | split

theorem relocate_moves {a0} {s : State} : MovesO 0xAB80901 s (relocate a0 s) := by
  unfold relocate
  with_reducible
    repeat' first
      | exact .refl | assumption | exact .none | refine .some ?_
      | (extract_lets +onlyGivenNames x; first | (refine .cut (x := x) ?_ ?_; (on_goal 1 => intro _; clear_value x); (on_goal 2 => subst x)) | subst x)
      | refine loseLba_moves.on ?_ rfl | refine flag_moves.on ?_ rfl | refine count_moves.on ?_ rfl | refine onBnd_moves.on ?_ rfl
      | refine (logWrite_moves.get (by assumption)).on ?_ rfl | refine logWrite_moves.on ?_ rfl | refine cacheSet_moves.on ?_ rfl
      | refine ((MovesV.findSome (fun _ => logWrite_moves)).get (by assumption)).on ?_ rfl
      | refine (relocateFixed_moves.get (by assumption)).on ?_ rfl | refine failBlock_moves.on ?_ rfl
      | refine (forEach_moves (m := 0xAB80901) (fun _ _ => ?_)).step ?_ | split | dsimp only

theorem showRewrites_moves {s : State} : Moves 0x1 s (showRewrites s) := by
  unfold showRewrites
  with_reducible
    repeat' first
      | exact .refl | assumption
      | (extract_lets +onlyGivenNames x; first | (refine .cut (x := x) ?_ ?_; (on_goal 1 => intro _; clear_value x); (on_goal 2 => subst x)) | subst x)
      | refine (forEach_moves (m := 0x1) (fun _ _ => ?_)).step ?_ | refine putB_moves.on ?_ rfl | dsimp only

theorem beginRewrite_moves {a0 a1} {s : State} : Moves 0x8900001 s (beginRewrite a0 a1 s) := by
  unfold beginRewrite
  with_reducible
    repeat' first
      | exact .refl | assumption
      | (extract_lets +onlyGivenNames x; first | (refine .cut (x := x) ?_ ?_; (on_goal 1 => intro _; clear_value x); (on_goal 2 => subst x)) | subst x)
      | refine (takeSeq_moves.get (by assumption)).on ?_ rfl | refine takeSeq_moves.on ?_ rfl | refine setBand_moves.on ?_ rfl
      | refine journal_moves.on ?_ rfl | refine onBnd_moves.on ?_ rfl | refine showRewrites_moves.on ?_ rfl | refine forceFlush_moves.on ?_ rfl
      | split | dsimp only

theorem rewriteNext_moves {a0} {s : State} : Moves 0x380001 s (rewriteNext a0 s) := by
  unfold rewriteNext
  with_reducible
    repeat' first
      | exact .refl | assumption
      | (extract_lets +onlyGivenNames x; first | (refine .cut (x := x) ?_ ?_; (on_goal 1 => intro _; clear_value x); (on_goal 2 => subst x)) | subst x)
      | refine request_moves.on ?_ rfl | refine (forEach_moves (m := 0x380001) (fun _ _ => ?_)).step ?_ | refine cacheSet_moves.on ?_ rfl
      | refine onBnd_moves.on ?_ rfl | fail_if_no_progress refine mk_rly.on ?_ rfl | split | dsimp only

theorem switchBand_moves {a0} {s : State} : Moves 0xAB80901 s (switchBand a0 s) := by
  unfold switchBand
  with_reducible
    repeat' first
      | exact .refl | assumption
      | (extract_lets +onlyGivenNames x; first | (refine .cut (x := x) ?_ ?_; (on_goal 1 => intro _; clear_value x); (on_goal 2 => subst x)) | subst x)
      | refine journal_moves.on ?_ rfl | refine setLband_moves.on ?_ rfl | refine mciRemove_moves.on ?_ rfl | refine setBand_moves.on ?_ rfl
      | refine onBnd_moves.on ?_ rfl | refine (forEach_moves (m := 0xAB80901) (fun _ _ => ?_)).step ?_ | refine markClean_moves.on ?_ rfl
      | refine (onBuf_moves ?_).on ?_ rfl | exact fun _ => rfl | refine retireBand_moves.on ?_ rfl | refine freeBand_moves.on ?_ rfl
      | refine count_moves.on ?_ rfl | refine evalLevel_moves.on ?_ rfl | refine forceFlush_moves.on ?_ rfl | refine showRewrites_moves.on ?_ rfl
      | refine (foldl_moves (m := 0xAB80901) (fun _ _ => ?_)).step ?_ | split

theorem loadImage_moves {a0} {s : State} : Moves 0x100000 s (loadImage a0 s) := by
  unfold loadImage
  with_reducible
    repeat' first
      | exact .refl | assumption
      | (extract_lets +onlyGivenNames x; first | (refine .cut (x := x) ?_ ?_; (on_goal 1 => intro _; clear_value x); (on_goal 2 => subst x)) | subst x)
      | refine onBnd_moves.on ?_ rfl

theorem replayEntry_moves {a0} {s : State} : Moves 0x100000 s (replayEntry a0 s) := by
  unfold replayEntry
  with_reducible
    repeat' first
      | exact .refl | assumption
      | (extract_lets +onlyGivenNames x; first | (refine .cut (x := x) ?_ ?_; (on_goal 1 => intro _; clear_value x); (on_goal 2 => subst x)) | subst x)
      | refine onBnd_moves.on ?_ rfl | refine setBand_moves.on ?_ rfl | refine mciRemove_moves.on ?_ rfl | refine setLband_moves.on ?_ rfl
      | refine count_moves.on ?_ rfl | refine (forEach_moves (m := 0x100000) (fun _ _ => ?_)).step ?_ | refine mciMerge_moves.on ?_ rfl | split
      | dsimp only

theorem replay_moves {a0 a1 a2} {s : State} : Moves 0x100001 s (replay a0 a1 a2 s).2 := by
  induction a0 generalizing a1 a2 s with
  | nil =>
    unfold replay
    with_reducible
      repeat' first
       | exact .refl | assumption
       | (extract_lets +onlyGivenNames x; first | (refine .cut (x := x) ?_ ?_; (on_goal 1 => intro _; clear_value x); (on_goal 2 => subst x)) | subst x)
       | refine onBnd_moves.on ?_ rfl | refine (forEach_moves (m := 0x100001) (fun _ _ => ?_)).step ?_ | refine replayEntry_moves.on ?_ rfl
       | refine put_moves.on ?_ rfl | split | dsimp only
  | cons b l ih =>
    unfold replay
    with_reducible
      repeat' first
       | exact .refl | assumption
       | (extract_lets +onlyGivenNames x; first | (refine .cut (x := x) ?_ ?_; (on_goal 1 => intro _; clear_value x); (on_goal 2 => subst x)) | subst x)
       | refine onBnd_moves.on ?_ rfl | refine (forEach_moves (m := 0x100001) (fun _ _ => ?_)).step ?_ | refine replayEntry_moves.on ?_ rfl
       | refine put_moves.on ?_ rfl | split | dsimp only | refine ih.on ?_ rfl | refine (ih.get (by assumption)).on ?_ rfl


theorem showScan_moves {s : State} : Moves 0x1 s (showScan s) := by
  unfold showScan
  with_reducible
    repeat' first
      | exact .refl | assumption
      | (extract_lets +onlyGivenNames x; first | (refine .cut (x := x) ?_ ?_; (on_goal 1 => intro _; clear_value x); (on_goal 2 => subst x)) | subst x)
      | refine put_moves.on ?_ rfl | refine (forEach_moves (m := 0x1) (fun _ _ => ?_)).step ?_ | refine putB_moves.on ?_ rfl

theorem beginRebuild_moves {a0 a1} {s : State} : Moves 0x100901 s (beginRebuild a0 a1 s) := by
  unfold beginRebuild
  with_reducible
    repeat' first
      | exact .refl | assumption
      | (extract_lets +onlyGivenNames x; first | (refine .cut (x := x) ?_ ?_; (on_goal 1 => intro _; clear_value x); (on_goal 2 => subst x)) | subst x)
      | refine put_moves.on ?_ rfl | refine loadImage_moves.on ?_ rfl | refine replay_moves.on ?_ rfl
      | refine (replay_moves.get (by assumption)).on ?_ rfl | refine onBnd_moves.on ?_ rfl
      | refine (forEach_moves (m := 0x100901) (fun _ _ => ?_)).step ?_ | refine setBand_moves.on ?_ rfl | refine flag_moves.on ?_ rfl
      | refine showScan_moves.on ?_ rfl | refine putBndState_moves.on ?_ rfl | refine (foldl_moves (m := 0x100901) (fun _ _ => ?_)).step ?_ | split

theorem acceptSector_moves {a0 a1} {s : State} : Moves 0x8900001 s (acceptSector a0 a1 s) := by
  unfold acceptSector
  with_reducible
    repeat' first
      | exact .refl | assumption
      | (extract_lets +onlyGivenNames x; first | (refine .cut (x := x) ?_ ?_; (on_goal 1 => intro _; clear_value x); (on_goal 2 => subst x)) | subst x)
      | refine onBnd_moves.on ?_ rfl | refine journal_moves.on ?_ rfl | refine mciPlace_moves.on ?_ rfl | refine setBand_moves.on ?_ rfl | split
      | dsimp only

theorem scanRegion_moves {a0 a1 a2} {s : State} : Moves 0x8900001 s (scanRegion a0 a1 a2 s) := by
  unfold scanRegion
  with_reducible
    repeat' first
      | exact .refl | assumption
      | (extract_lets +onlyGivenNames x; first | (refine .cut (x := x) ?_ ?_; (on_goal 1 => intro _; clear_value x); (on_goal 2 => subst x)) | subst x)
      | refine (forEach_moves (m := 0x8900001) (fun _ _ => ?_)).step ?_ | refine acceptSector_moves.on ?_ rfl | refine onBnd_moves.on ?_ rfl
      | refine count_moves.on ?_ rfl | refine showScan_moves.on ?_ rfl | refine put_moves.on ?_ rfl | split

theorem resolveRewrite_moves {a0} {s : State} : Moves 0xAB80901 s (resolveRewrite a0 s) := by
  unfold resolveRewrite
  with_reducible
    repeat' first
      | exact .refl | assumption
      | (extract_lets +onlyGivenNames x; first | (refine .cut (x := x) ?_ ?_; (on_goal 1 => intro _; clear_value x); (on_goal 2 => subst x)) | subst x)
      | refine switchBand_moves.on ?_ rfl | refine flag_moves.on ?_ rfl | refine freeBand_moves.on ?_ rfl | refine setBand_moves.on ?_ rfl | split

theorem resolveZone_moves {a0} {s : State} : Moves 0xAB80901 s (resolveZone a0 s) := by
  unfold resolveZone
  with_reducible
    repeat' first
      | exact .refl | assumption
      | (extract_lets +onlyGivenNames x; first | (refine .cut (x := x) ?_ ?_; (on_goal 1 => intro _; clear_value x); (on_goal 2 => subst x)) | subst x)
      | refine setLband_moves.on ?_ rfl | refine (forEach_moves (m := 0xAB80901) (fun _ _ => ?_)).step ?_ | refine loseLba_moves.on ?_ rfl
      | refine journal_moves.on ?_ rfl | split | dsimp only

theorem finishRebuild_moves {s : State} : Moves 0xAB80901 s (finishRebuild s) := by
  unfold finishRebuild
  with_reducible
    repeat' first
      | exact .refl | assumption
      | (extract_lets +onlyGivenNames x; first | (refine .cut (x := x) ?_ ?_; (on_goal 1 => intro _; clear_value x); (on_goal 2 => subst x)) | subst x)
      | refine (forEach_moves (m := 0xAB80901) (fun _ _ => ?_)).step ?_ | refine resolveRewrite_moves.on ?_ rfl | refine onBnd_moves.on ?_ rfl
      | refine resolveZone_moves.on ?_ rfl | refine putSeq_moves.on ?_ rfl | refine forceFlush_moves.on ?_ rfl | refine putBndState_moves.on ?_ rfl
      | refine evalLevel_moves.on ?_ rfl | refine judgeSpares_moves.on ?_ rfl | refine bandState_moves.on ?_ rfl | dsimp only

theorem collect_moves {a0} {s : State} : Moves 0x8980001 s (collect a0 s) := by
  unfold collect
  with_reducible
    repeat' first
      | exact .refl | assumption
      | (extract_lets +onlyGivenNames x; first | (refine .cut (x := x) ?_ ?_; (on_goal 1 => intro _; clear_value x); (on_goal 2 => subst x)) | subst x)
      | refine evalLevel_moves.on ?_ rfl | refine beginRewrite_moves.on ?_ rfl | refine request_moves.on ?_ rfl
      | fail_if_no_progress refine mk_rly.on ?_ rfl | split | dsimp only

theorem migrate_moves {a0} {s : State} : Moves 0x8900001 s (migrate a0 s) := by
  unfold migrate
  with_reducible
    repeat' first
      | exact .refl | assumption
      | (extract_lets +onlyGivenNames x; first | (refine .cut (x := x) ?_ ?_; (on_goal 1 => intro _; clear_value x); (on_goal 2 => subst x)) | subst x)
      | refine onBnd_moves.on ?_ rfl | refine beginRewrite_moves.on ?_ rfl | split | dsimp only

theorem showPatrol_moves {s : State} : Moves 0x1 s (showPatrol s) := by
  unfold showPatrol
  with_reducible
    repeat' first
      | exact .refl | assumption | refine put_moves.on ?_ rfl | refine (foldl_moves (m := 0x1) (fun _ _ => ?_)).step ?_

theorem beginPass_moves {a0} {s : State} : Moves 0x100001 s (beginPass a0 s) := by
  unfold beginPass
  with_reducible
    repeat' first
      | exact .refl | assumption
      | (extract_lets +onlyGivenNames x; first | (refine .cut (x := x) ?_ ?_; (on_goal 1 => intro _; clear_value x); (on_goal 2 => subst x)) | subst x)
      | refine showPatrol_moves.on ?_ rfl | refine onBnd_moves.on ?_ rfl | split | dsimp only

theorem patrolBand_moves {a0 a1} {s : State} : Moves 0x180000 s (patrolBand a0 a1 s) := by
  unfold patrolBand
  with_reducible
    repeat' first
      | exact .refl | assumption
      | (extract_lets +onlyGivenNames x; first | (refine .cut (x := x) ?_ ?_; (on_goal 1 => intro _; clear_value x); (on_goal 2 => subst x)) | subst x)
      | refine onBnd_moves.on ?_ rfl | refine (forEach_moves (m := 0x180000) (fun _ _ => ?_)).step ?_ | refine request_moves.on ?_ rfl
      | refine disturb_moves.on ?_ rfl | split

theorem patrolNext_moves {a0} {s : State} : Moves 0x180001 s (patrolNext a0 s) := by
  unfold patrolNext
  with_reducible
    repeat' first
      | exact .refl | assumption
      | (extract_lets +onlyGivenNames x; first | (refine .cut (x := x) ?_ ?_; (on_goal 1 => intro _; clear_value x); (on_goal 2 => subst x)) | subst x)
      | refine showPatrol_moves.on ?_ rfl | refine patrolBand_moves.on ?_ rfl | refine onBnd_moves.on ?_ rfl | split | dsimp only

theorem showSeq_moves {a0} {s : State} : Moves 0x1 s (showSeq a0 s) := by
  unfold showSeq
  with_reducible
    repeat' first
      | exact .refl | assumption
      | (extract_lets +onlyGivenNames x; first | (refine .cut (x := x) ?_ ?_; (on_goal 1 => intro _; clear_value x); (on_goal 2 => subst x)) | subst x)
      | refine put_moves.on ?_ rfl

theorem beginWord_moves {a0 a1} {s : State} : Moves 0x4001 s (beginWord a0 a1 s) := by
  unfold beginWord
  with_reducible
    repeat' first
      | exact .refl | assumption
      | (extract_lets +onlyGivenNames x; first | (refine .cut (x := x) ?_ ?_; (on_goal 1 => intro _; clear_value x); (on_goal 2 => subst x)) | subst x)
      | refine onMs_moves.on ?_ rfl | refine put_moves.on ?_ rfl | refine showSeq_moves.on ?_ rfl | split | dsimp only

theorem startSeq_moves {a0} {s : State} : Moves 0x4001 s (startSeq a0 s) := by
  unfold startSeq
  with_reducible
    repeat' first
      | exact .refl | assumption
      | (extract_lets +onlyGivenNames x; first | (refine .cut (x := x) ?_ ?_; (on_goal 1 => intro _; clear_value x); (on_goal 2 => subst x)) | subst x)
      | refine put_moves.on ?_ rfl | refine onMs_moves.on ?_ rfl | refine beginWord_moves.on ?_ rfl | dsimp only

theorem haltGates_moves {a0} {s : State} : Moves 0x1C086B01 s (haltGates a0 s) := by
  unfold haltGates
  with_reducible
    repeat' first
      | exact .refl | assumption
      | (extract_lets +onlyGivenNames x; first | (refine .cut (x := x) ?_ ?_; (on_goal 1 => intro _; clear_value x); (on_goal 2 => subst x)) | subst x)
      | refine closeRead_moves.on ?_ rfl | refine squelchGate_moves.on ?_ rfl | refine msInt_moves.on ?_ rfl | refine flag_moves.on ?_ rfl
      | refine onMs_moves.on ?_ rfl | split | dsimp only

theorem haltSeq_moves {a0 a1 a2} {s : State} : Moves 0x1C086B01 s (haltSeq a0 a1 a2 s) := by
  unfold haltSeq
  with_reducible
    repeat' first
      | exact .refl | assumption
      | (extract_lets +onlyGivenNames x; first | (refine .cut (x := x) ?_ ?_; (on_goal 1 => intro _; clear_value x); (on_goal 2 => subst x)) | subst x)
      | refine showSeq_moves.on ?_ rfl | refine put_moves.on ?_ rfl | refine haltGates_moves.on ?_ rfl | split

theorem recordHalt_moves {a0 a1} {s : State} : Moves 0x1 s (recordHalt a0 a1 s) := by
  unfold recordHalt
  with_reducible
    repeat' first
      | exact .refl | assumption | refine put_moves.on ?_ rfl

theorem recordTrap_moves {a0 a1 a2} {s : State} : Moves 0x1 s (recordTrap a0 a1 a2 s) := by
  unfold recordTrap
  with_reducible
    repeat' first
      | exact .refl | assumption
      | (extract_lets +onlyGivenNames x; first | (refine .cut (x := x) ?_ ?_; (on_goal 1 => intro _; clear_value x); (on_goal 2 => subst x)) | subst x)
      | refine put_moves.on ?_ rfl | refine recordHalt_moves.on ?_ rfl

theorem takeFault_moves {a0 a1} {s : State} : Moves 0x1C086B01 s (takeFault a0 a1 s) := by
  unfold takeFault
  with_reducible
    repeat' first
      | exact .refl | assumption
      | (extract_lets +onlyGivenNames x; first | (refine .cut (x := x) ?_ ?_; (on_goal 1 => intro _; clear_value x); (on_goal 2 => subst x)) | subst x)
      | refine count_moves.on ?_ rfl | refine onMs_moves.on ?_ rfl | refine haltSeq_moves.on ?_ rfl | refine msHwEvent_moves.on ?_ rfl
      | refine recordTrap_moves.on ?_ rfl | refine beginWord_moves.on ?_ rfl | refine put_moves.on ?_ rfl | refine recordHalt_moves.on ?_ rfl | split
      | dsimp only

theorem takeInt_moves {a0 a1 a2} {s : State} : Moves 0x4001 s (takeInt a0 a1 a2 s) := by
  unfold takeInt
  with_reducible
    repeat' first
      | exact .refl | assumption
      | (extract_lets +onlyGivenNames x; first | (refine .cut (x := x) ?_ ?_; (on_goal 1 => intro _; clear_value x); (on_goal 2 => subst x)) | subst x)
      | refine recordTrap_moves.on ?_ rfl | refine put_moves.on ?_ rfl | refine beginWord_moves.on ?_ rfl

theorem storeErrHalt_moves {a0} {s : State} : Moves 0x1C086B01 s (storeErrHalt a0 s) := by
  unfold storeErrHalt
  with_reducible
    repeat' first
      | exact .refl | assumption
      | (extract_lets +onlyGivenNames x; first | (refine .cut (x := x) ?_ ?_; (on_goal 1 => intro _; clear_value x); (on_goal 2 => subst x)) | subst x)
      | refine msHwEvent_moves.on ?_ rfl | refine onMs_moves.on ?_ rfl | refine haltSeq_moves.on ?_ rfl | refine recordHalt_moves.on ?_ rfl
      | dsimp only

theorem deferHeater_moves {a0} {s : State} : Moves 0x4B01 s (deferHeater a0 s) := by
  unfold deferHeater
  with_reducible
    repeat' first
      | exact .refl | assumption
      | (extract_lets +onlyGivenNames x; first | (refine .cut (x := x) ?_ ?_; (on_goal 1 => intro _; clear_value x); (on_goal 2 => subst x)) | subst x)
      | refine count_moves.on ?_ rfl | refine onMs_moves.on ?_ rfl | refine tally_moves.on ?_ rfl | split | dsimp only

theorem once_moves {m : Nat} {a0 a1 a2 f3} {s : State} (hm : 0x4000 ||| m = m) (hf3 : ∀  t, Moves m t (f3  t)) : Moves m s (once a0 a1 a2 f3 s) := by
  unfold once
  with_reducible
    repeat' first
      | exact .refl | assumption | exact hf3 .. | refine (hf3 ..).step ?_
      | (extract_lets +onlyGivenNames x; first | (refine .cut (x := x) ?_ ?_; (on_goal 1 => intro _; clear_value x); (on_goal 2 => subst x)) | subst x)
      | refine onMs_moves.on ?_ (sub_of hm rfl) | split | dsimp only

theorem sectEff_moves {a0} {s : State} : Moves 0x6000 s (sectEff a0 s) := by
  unfold sectEff
  with_reducible
    repeat' first
      | exact .refl | assumption
      | (extract_lets +onlyGivenNames x; first | (refine .cut (x := x) ?_ ?_; (on_goal 1 => intro _; clear_value x); (on_goal 2 => subst x)) | subst x)
      | refine (once_moves (m := 0x6000) rfl (fun _ => ?_)).step ?_ | refine onLn_moves.on ?_ rfl | refine onMs_moves.on ?_ rfl | split | dsimp only

theorem ovrEff_moves {a0} {s : State} : Moves 0x6000 s (ovrEff a0 s) := by
  unfold ovrEff
  with_reducible
    repeat' first
      | exact .refl | assumption
      | (extract_lets +onlyGivenNames x; first | (refine .cut (x := x) ?_ ?_; (on_goal 1 => intro _; clear_value x); (on_goal 2 => subst x)) | subst x)
      | refine (once_moves (m := 0x6000) rfl (fun _ => ?_)).step ?_ | refine onLn_moves.on ?_ rfl | split

theorem dropRead_moves {a0 a1} {s : State} : Moves 0x12000 s (dropRead a0 a1 s) := by
  unfold dropRead
  with_reducible
    repeat' first
      | exact .refl | assumption
      | (extract_lets +onlyGivenNames x; first | (refine .cut (x := x) ?_ ?_; (on_goal 1 => intro _; clear_value x); (on_goal 2 => subst x)) | subst x)
      | refine onLn_moves.on ?_ rfl | fail_if_no_progress refine mk_ldp.on ?_ rfl | dsimp only

theorem openReadGate_moves {a0 a1 a2} {s : State} : Moves 0x4096B01 s (openReadGate a0 a1 a2 s) := by
  unfold openReadGate
  with_reducible
    repeat' first
      | exact .refl | assumption
      | (extract_lets +onlyGivenNames x; first | (refine .cut (x := x) ?_ ?_; (on_goal 1 => intro _; clear_value x); (on_goal 2 => subst x)) | subst x)
      | refine latchSettings_moves.on ?_ rfl | refine put_moves.on ?_ rfl | refine onLn_moves.on ?_ rfl | refine onMs_moves.on ?_ rfl
      | refine showTokens_moves.on ?_ rfl | refine restartGroup_moves.on ?_ rfl | refine otfFailed_moves.on ?_ rfl | refine dropRead_moves.on ?_ rfl
      | split | dsimp only

theorem closeNowEff_moves {a0} {s : State} : Moves 0x1C096B19 s (closeNowEff a0 s) := by
  unfold closeNowEff
  with_reducible
    repeat' first
      | exact .refl | assumption
      | (extract_lets +onlyGivenNames x; first | (refine .cut (x := x) ?_ ?_; (on_goal 1 => intro _; clear_value x); (on_goal 2 => subst x)) | subst x)
      | refine onLn_moves.on ?_ rfl | refine tally_moves.on ?_ rfl | refine closeRead_moves.on ?_ rfl | refine squelchGate_moves.on ?_ rfl
      | refine showTokens_moves.on ?_ rfl | refine (write_moves (m := 0x1C096B19) rfl (fun _ => ?_)).step ?_ | refine dropRead_moves.on ?_ rfl | split
      | dsimp only

theorem gateEff_moves {a0 a1} {s : State} : Moves 0x1C096B19 s (gateEff a0 a1 s) := by
  unfold gateEff
  with_reducible
    repeat' first
      | exact .refl | assumption
      | (extract_lets +onlyGivenNames x; first | (refine .cut (x := x) ?_ ?_; (on_goal 1 => intro _; clear_value x); (on_goal 2 => subst x)) | subst x)
      | refine (once_moves (m := 0x1C096B19) rfl (fun _ => ?_)).step ?_ | refine closeNowEff_moves.on ?_ rfl | refine openReadGate_moves.on ?_ rfl
      | refine writeSector_moves.on ?_ rfl | refine onLn_moves.on ?_ rfl | refine continueWrite_moves.on ?_ rfl | refine gateOpened_moves.on ?_ rfl
      | split | dsimp only

theorem pbEff_moves {a0} {s : State} : Moves 0x6000 s (pbEff a0 s) := by
  unfold pbEff
  with_reducible
    repeat' first
      | exact .refl | assumption
      | (extract_lets +onlyGivenNames x; first | (refine .cut (x := x) ?_ ?_; (on_goal 1 => intro _; clear_value x); (on_goal 2 => subst x)) | subst x)
      | refine (once_moves (m := 0x6000) rfl (fun _ => ?_)).step ?_ | refine onLn_moves.on ?_ rfl | split

theorem aluWrite_moves {a0} {s : State} : Moves 0x4000 s (aluWrite a0 s) := by
  unfold aluWrite
  with_reducible
    repeat' first
      | exact .refl | assumption
      | (extract_lets +onlyGivenNames x; first | (refine .cut (x := x) ?_ ?_; (on_goal 1 => intro _; clear_value x); (on_goal 2 => subst x)) | subst x)
      | refine onMs_moves.on ?_ rfl | split

theorem aluEff_moves {a0} {s : State} : Moves 0x4000 s (aluEff a0 s) := by
  unfold aluEff
  with_reducible
    repeat' first
      | exact .refl | assumption | refine (once_moves (m := 0x4000) rfl (fun _ => ?_)).step ?_ | refine aluWrite_moves.on ?_ rfl

theorem calibrate_moves {a0 a1 a2} {s : State} : Moves 0x6901 s (calibrate a0 a1 a2 s) := by
  unfold calibrate
  with_reducible
    repeat' first
      | exact .refl | assumption
      | (extract_lets +onlyGivenNames x; first | (refine .cut (x := x) ?_ ?_; (on_goal 1 => intro _; clear_value x); (on_goal 2 => subst x)) | subst x)
      | refine (forEach_moves (m := 0x6901) (fun _ _ => ?_)).step ?_ | refine tablePut_moves.on ?_ rfl | refine flag_moves.on ?_ rfl
      | refine msPost_moves.on ?_ rfl | split | dsimp only

theorem cmdEff_moves {a0 a1} {s : State} : Moves 0x6901 s (cmdEff a0 a1 s) := by
  unfold cmdEff
  with_reducible
    repeat' first
      | exact .refl | assumption
      | (extract_lets +onlyGivenNames x; first | (refine .cut (x := x) ?_ ?_; (on_goal 1 => intro _; clear_value x); (on_goal 2 => subst x)) | subst x)
      | refine (once_moves (m := 0x6901) rfl (fun _ => ?_)).step ?_ | refine onMs_moves.on ?_ rfl | refine aluWrite_moves.on ?_ rfl
      | refine calibrate_moves.on ?_ rfl | split | dsimp only

theorem evtEff_moves {a0} {s : State} : Moves 0x4B01 s (evtEff a0 s) := by
  unfold evtEff
  with_reducible
    repeat' first
      | exact .refl | assumption
      | (extract_lets +onlyGivenNames x; first | (refine .cut (x := x) ?_ ?_; (on_goal 1 => intro _; clear_value x); (on_goal 2 => subst x)) | subst x)
      | refine (once_moves (m := 0x4B01) rfl (fun _ => ?_)).step ?_ | refine tally_moves.on ?_ rfl | refine count_moves.on ?_ rfl
      | refine msPost_moves.on ?_ rfl | split | dsimp only

theorem clkEff_moves {a0} {s : State} : Moves 0x1C086B01 s (clkEff a0 s) := by
  unfold clkEff
  with_reducible
    repeat' first
      | exact .refl | assumption
      | (extract_lets +onlyGivenNames x; first | (refine .cut (x := x) ?_ ?_; (on_goal 1 => intro _; clear_value x); (on_goal 2 => subst x)) | subst x)
      | refine (once_moves (m := 0x1C086B01) rfl (fun _ => ?_)).step ?_ | refine loadZone_moves.on ?_ rfl | split

theorem fieldsEff_moves {a0 a1} {s : State} : Moves 0x1C096B19 s (fieldsEff a0 a1 s) := by
  unfold fieldsEff
  with_reducible
    repeat' first
      | exact .refl | assumption | refine clkEff_moves.on ?_ rfl | refine aluEff_moves.on ?_ rfl | refine evtEff_moves.on ?_ rfl
      | refine cmdEff_moves.on ?_ rfl | refine pbEff_moves.on ?_ rfl | refine gateEff_moves.on ?_ rfl | refine ovrEff_moves.on ?_ rfl
      | refine sectEff_moves.on ?_ rfl

theorem loopNext_moves {a0 a1 a2} {s : State} : Moves 0x4000 s (loopNext a0 a1 a2 s).2 := by
  unfold loopNext
  with_reducible
    repeat' first
      | exact .refl | assumption
      | (extract_lets +onlyGivenNames x; first | (refine .cut (x := x) ?_ ?_; (on_goal 1 => intro _; clear_value x); (on_goal 2 => subst x)) | subst x)
      | refine onMs_moves.on ?_ rfl | split | dsimp only | dsimp only

theorem chooseNext_moves {a0} {s : State} : MovesV 0x4001 s (chooseNext a0 s) := by
  unfold chooseNext
  with_reducible
    repeat' first
      | exact .refl | assumption | exact .none | refine .some ?_
      | (extract_lets +onlyGivenNames x; first | (refine .cut (x := x) ?_ ?_; (on_goal 1 => intro _; clear_value x); (on_goal 2 => subst x)) | subst x)
      | refine loopNext_moves.on ?_ rfl | refine (loopNext_moves.get (by assumption)).on ?_ rfl | refine onMs_moves.on ?_ rfl
      | refine put_moves.on ?_ rfl | split

theorem finishWord_moves {a0} {s : State} : Moves 0x1C096B19 s (finishWord a0 s) := by
  unfold finishWord
  with_reducible
    repeat' first
      | exact .refl | assumption
      | (extract_lets +onlyGivenNames x; first | (refine .cut (x := x) ?_ ?_; (on_goal 1 => intro _; clear_value x); (on_goal 2 => subst x)) | subst x)
      | refine fieldsEff_moves.on ?_ rfl | refine (chooseNext_moves.get (by assumption)).on ?_ rfl | refine chooseNext_moves.on ?_ rfl
      | refine haltSeq_moves.on ?_ rfl | refine takeInt_moves.on ?_ rfl | refine beginWord_moves.on ?_ rfl | split

theorem atWord_base {m : Nat} {a0 a1 f3} {s : State} (hm : 0x1C086B01 ||| m = m) (hf : ∀ t, Moves m s t → Moves m s (f3 t)) :
    Moves m s (atWord a0 a1 s f3) := by
  unfold atWord
  with_reducible
    repeat' first
      | exact .refl | assumption | refine hf _ ?_
      | (extract_lets +onlyGivenNames x; first | (refine .cut (x := x) ?_ ?_; (on_goal 1 => intro _; clear_value x); (on_goal 2 => subst x)) | subst x)
      | refine put_moves.on ?_ (sub_of hm rfl) | refine onMs_moves.on ?_ (sub_of hm rfl) | refine storeErrHalt_moves.on ?_ (sub_of hm rfl)
      | refine haltSeq_moves.on ?_ (sub_of hm rfl) | refine recordHalt_moves.on ?_ (sub_of hm rfl) | refine deferHeater_moves.on ?_ (sub_of hm rfl) | refine takeFault_moves.on ?_ (sub_of hm rfl)
      | refine takeInt_moves.on ?_ (sub_of hm rfl) | split

theorem atWord_moves {m : Nat} {a0 a1 f3} {s : State} (hm : 0x1C086B01 ||| m = m) (hf3 : ∀ t, Moves m t (f3 t)) : Moves m s (atWord a0 a1 s f3) :=
  atWord_base hm (fun t h => (hf3 t).step h)

theorem showRelay_moves {s : State} : Moves 0x1 s (showRelay s) := by
  unfold showRelay
  with_reducible
    repeat' first
      | exact .refl | assumption
      | (extract_lets +onlyGivenNames x; first | (refine .cut (x := x) ?_ ?_; (on_goal 1 => intro _; clear_value x); (on_goal 2 => subst x)) | subst x)
      | refine putB_moves.on ?_ rfl | refine put_moves.on ?_ rfl | refine (forEach_moves (m := 0x1) (fun _ _ => ?_)).step ?_ | dsimp only

theorem enterPool_moves {a0 a1 a2} {s : State} : Moves 0x80001 s (enterPool a0 a1 a2 s) := by
  unfold enterPool
  with_reducible
    repeat' first
      | exact .refl | assumption
      | (extract_lets +onlyGivenNames x; first | (refine .cut (x := x) ?_ ?_; (on_goal 1 => intro _; clear_value x); (on_goal 2 => subst x)) | subst x)
      | refine showRelay_moves.on ?_ rfl | fail_if_no_progress refine mk_rly.on ?_ rfl | split

theorem setQos_moves {a1 a2} {s : State} : Moves 0x80000 s (State.setQos s a1 a2) := by
  unfold State.setQos
  with_reducible
    repeat' first
      | exact .refl | assumption
      | (extract_lets +onlyGivenNames x; first | (refine .cut (x := x) ?_ ?_; (on_goal 1 => intro _; clear_value x); (on_goal 2 => subst x)) | subst x)
      | fail_if_no_progress refine mk_rly.on ?_ rfl

theorem showQos_moves {s : State} : Moves 0x1 s (showQos s) := by
  unfold showQos
  with_reducible
    repeat' first
      | exact .refl | assumption
      | (extract_lets +onlyGivenNames x; first | (refine .cut (x := x) ?_ ?_; (on_goal 1 => intro _; clear_value x); (on_goal 2 => subst x)) | subst x)
      | refine put_moves.on ?_ rfl

theorem chargeQos_moves {a0 a1} {s : State} : Moves 0x80901 s (chargeQos a0 a1 s) := by
  unfold chargeQos
  with_reducible
    repeat' first
      | exact .refl | assumption
      | (extract_lets +onlyGivenNames x; first | (refine .cut (x := x) ?_ ?_; (on_goal 1 => intro _; clear_value x); (on_goal 2 => subst x)) | subst x)
      | refine showQos_moves.on ?_ rfl | refine setQos_moves.on ?_ rfl | refine flag_moves.on ?_ rfl | split

theorem quotaWindow_moves {s : State} : Moves 0x80901 s (quotaWindow s) := by
  unfold quotaWindow
  with_reducible
    repeat' first
      | exact .refl | assumption
      | (extract_lets +onlyGivenNames x; first | (refine .cut (x := x) ?_ ?_; (on_goal 1 => intro _; clear_value x); (on_goal 2 => subst x)) | subst x)
      | refine (forEach_moves (m := 0x80901) (fun _ _ => ?_)).step ?_ | refine setQos_moves.on ?_ rfl | refine showQos_moves.on ?_ rfl
      | refine flag_moves.on ?_ rfl | split | dsimp only

theorem sendTrack_moves {a0 a1} {s : State} : Moves 0x84000 s (sendTrack a0 a1 s) := by
  unfold sendTrack
  with_reducible
    repeat' first
      | exact .refl | assumption
      | (extract_lets +onlyGivenNames x; first | (refine .cut (x := x) ?_ ?_; (on_goal 1 => intro _; clear_value x); (on_goal 2 => subst x)) | subst x)
      | refine msSend_moves.on ?_ rfl | refine onAct_moves.on ?_ rfl | split | dsimp only

theorem sendNext_moves {a0} {s : State} : Moves 0x84000 s (sendNext a0 s) := by
  unfold sendNext
  with_reducible
    repeat' first
      | exact .refl | assumption
      | (extract_lets +onlyGivenNames x; first | (refine .cut (x := x) ?_ ?_; (on_goal 1 => intro _; clear_value x); (on_goal 2 => subst x)) | subst x)
      | refine sendTrack_moves.on ?_ rfl | refine onAct_moves.on ?_ rfl | split | dsimp only

theorem writeTarget_moves {a0 a1} {s : State} : Moves 0x88901 s (writeTarget a0 a1 s) := by
  unfold writeTarget
  with_reducible
    repeat' first
      | exact .refl | assumption
      | (extract_lets +onlyGivenNames x; first | (refine .cut (x := x) ?_ ?_; (on_goal 1 => intro _; clear_value x); (on_goal 2 => subst x)) | subst x)
      | refine onAct_moves.on ?_ rfl | refine mailboxWrite_moves.on ?_ rfl | split | dsimp only

theorem dispatchItems_moves {a0 a1} {s : State} : Moves 0x8C901 s (dispatchItems a0 a1 s) := by
  unfold dispatchItems
  with_reducible
    repeat' first
      | exact .refl | assumption
      | (extract_lets +onlyGivenNames x; first | (refine .cut (x := x) ?_ ?_; (on_goal 1 => intro _; clear_value x); (on_goal 2 => subst x)) | subst x)
      | refine onAct_moves.on ?_ rfl | refine writeTarget_moves.on ?_ rfl | refine msSend_moves.on ?_ rfl | refine sendHead_moves.on ?_ rfl
      | refine showRelay_moves.on ?_ rfl | refine sendNext_moves.on ?_ rfl | fail_if_no_progress refine mk_rly.on ?_ rfl | split | dsimp only

theorem decide__moves {a0} {s : State} : Moves 0x8C901 s (decide_ a0 s) := by
  unfold decide_
  with_reducible
    repeat' first
      | exact .refl | assumption
      | (extract_lets +onlyGivenNames x; first | (refine .cut (x := x) ?_ ?_; (on_goal 1 => intro _; clear_value x); (on_goal 2 => subst x)) | subst x)
      | refine flag_moves.on ?_ rfl | refine count_moves.on ?_ rfl | refine dispatchItems_moves.on ?_ rfl | split

theorem addAccount_moves {a0 a1 a2} {s : State} : Moves 0x80000 s (addAccount a0 a1 a2 s) := by
  unfold addAccount
  with_reducible
    repeat' first
      | exact .refl | assumption
      | (extract_lets +onlyGivenNames x; first | (refine .cut (x := x) ?_ ?_; (on_goal 1 => intro _; clear_value x); (on_goal 2 => subst x)) | subst x)
      | fail_if_no_progress refine mk_rly.on ?_ rfl

theorem chargeAccount_moves {a0 a1 a2 a3} {s : State} : Moves 0x80901 s (chargeAccount a0 a1 a2 a3 s) := by
  unfold chargeAccount
  with_reducible
    repeat' first
      | exact .refl | assumption
      | (extract_lets +onlyGivenNames x; first | (refine .cut (x := x) ?_ ?_; (on_goal 1 => intro _; clear_value x); (on_goal 2 => subst x)) | subst x)
      | refine chargeQos_moves.on ?_ rfl | refine addAccount_moves.on ?_ rfl

theorem updateCredits_moves {a0 a1 a2} {s : State} : Moves 0x80000 s (updateCredits a0 a1 a2 s) := by
  unfold updateCredits
  with_reducible
    repeat' first
      | exact .refl | assumption
      | (extract_lets +onlyGivenNames x; first | (refine .cut (x := x) ?_ ?_; (on_goal 1 => intro _; clear_value x); (on_goal 2 => subst x)) | subst x)
      | refine onAct_moves.on ?_ rfl | split | dsimp only

theorem chargeItems_moves {a0 a1 a2 a3} {s : State} : Moves 0x8980901 s (chargeItems a0 a1 a2 a3 s) := by
  unfold chargeItems
  with_reducible
    repeat' first
      | exact .refl | assumption
      | (extract_lets +onlyGivenNames x; first | (refine .cut (x := x) ?_ ?_; (on_goal 1 => intro _; clear_value x); (on_goal 2 => subst x)) | subst x)
      | refine batSend_moves.on ?_ rfl | refine chargeAccount_moves.on ?_ rfl | refine count_moves.on ?_ rfl
      | refine (forEach_moves (m := 0x8980901) (fun _ _ => ?_)).step ?_ | refine onBnd_moves.on ?_ rfl | refine updateCredits_moves.on ?_ rfl | split
      | dsimp only

theorem endDispatch_moves {a0 a1} {s : State} : Moves 0x8980901 s (endDispatch a0 a1 s) := by
  unfold endDispatch
  with_reducible
    repeat' first
      | exact .refl | assumption
      | (extract_lets +onlyGivenNames x; first | (refine .cut (x := x) ?_ ?_; (on_goal 1 => intro _; clear_value x); (on_goal 2 => subst x)) | subst x)
      | refine onAct_moves.on ?_ rfl | refine showRelay_moves.on ?_ rfl | refine chargeItems_moves.on ?_ rfl | split | dsimp only

theorem endDispatches_moves {a0 a1} {s : State} : Moves 0x8980901 s (endDispatches a0 a1 s) := by
  unfold endDispatches
  with_reducible
    repeat' first
      | exact .refl | assumption | refine endDispatch_moves.on ?_ rfl

theorem undoDestage_moves {a0} {s : State} : Moves 0x200001 s (undoDestage a0 s) := by
  unfold undoDestage
  with_reducible
    repeat' first
      | exact .refl | assumption
      | (extract_lets +onlyGivenNames x; first | (refine .cut (x := x) ?_ ?_; (on_goal 1 => intro _; clear_value x); (on_goal 2 => subst x)) | subst x)
      | refine (forEach_moves (m := 0x200001) (fun _ _ => ?_)).step ?_ | refine cacheSet_moves.on ?_ rfl | refine count_moves.on ?_ rfl | split

theorem failItem_moves {a0 a1} {s : State} : Moves 0xEB80911 s (failItem a0 a1 s) := by
  unfold failItem
  with_reducible
    repeat' first
      | exact .refl | assumption
      | (extract_lets +onlyGivenNames x; first | (refine .cut (x := x) ?_ ?_; (on_goal 1 => intro _; clear_value x); (on_goal 2 => subst x)) | subst x)
      | refine undoDestage_moves.on ?_ rfl | refine flag_moves.on ?_ rfl | refine onBnd_moves.on ?_ rfl | refine abandonRewrite_moves.on ?_ rfl
      | refine batSend_moves.on ?_ rfl | refine count_moves.on ?_ rfl | fail_if_no_progress refine mk_reports.on ?_ rfl
      | refine failRead_moves.on ?_ rfl | split | dsimp only

theorem laneLostItems_moves {a0} {s : State} : Moves 0xEB80911 s (laneLostItems a0 s) := by
  unfold laneLostItems
  with_reducible
    repeat' first
      | exact .refl | assumption
      | (extract_lets +onlyGivenNames x; first | (refine .cut (x := x) ?_ ?_; (on_goal 1 => intro _; clear_value x); (on_goal 2 => subst x)) | subst x)
      | refine showRelay_moves.on ?_ rfl | refine (forEach_moves (m := 0xEB80911) (fun _ _ => ?_)).step ?_ | refine failItem_moves.on ?_ rfl
      | fail_if_no_progress refine mk_rly.on ?_ rfl | refine endDispatches_moves.on ?_ rfl | dsimp only

theorem endFailed_moves {a0} {s : State} : Moves 0x8980901 s (endFailed a0 s) := by
  unfold endFailed
  with_reducible
    repeat' first
      | exact .refl | assumption
      | (extract_lets +onlyGivenNames x; first | (refine .cut (x := x) ?_ ?_; (on_goal 1 => intro _; clear_value x); (on_goal 2 => subst x)) | subst x)
      | refine chargeItems_moves.on ?_ rfl | refine endDispatch_moves.on ?_ rfl | refine onAct_moves.on ?_ rfl | refine showRelay_moves.on ?_ rfl
      | split | dsimp only

theorem posFail_moves {a0} {s : State} : Moves 0xEB84911 s (posFail a0 s) := by
  unfold posFail
  with_reducible
    repeat' first
      | exact .refl | assumption
      | (extract_lets +onlyGivenNames x; first | (refine .cut (x := x) ?_ ?_; (on_goal 1 => intro _; clear_value x); (on_goal 2 => subst x)) | subst x)
      | refine flag_moves.on ?_ rfl | refine count_moves.on ?_ rfl | refine onAct_moves.on ?_ rfl
      | refine (forEach_moves (m := 0xEB84911) (fun _ _ => ?_)).step ?_ | refine failItem_moves.on ?_ rfl | refine onMs_moves.on ?_ rfl
      | refine msInt_moves.on ?_ rfl | refine endFailed_moves.on ?_ rfl | split | dsimp only

theorem reissueTarget_moves {a0 a1} {s : State} : Moves 0xEB8C911 s (reissueTarget a0 a1 s) := by
  unfold reissueTarget
  with_reducible
    repeat' first
      | exact .refl | assumption
      | (extract_lets +onlyGivenNames x; first | (refine .cut (x := x) ?_ ?_; (on_goal 1 => intro _; clear_value x); (on_goal 2 => subst x)) | subst x)
      | refine writeTarget_moves.on ?_ rfl | refine onAct_moves.on ?_ rfl | refine posFail_moves.on ?_ rfl | split | dsimp only

theorem abortItems_moves {a0} {s : State} : Moves 0x8986901 s (abortItems a0 s) := by
  unfold abortItems
  with_reducible
    repeat' first
      | exact .refl | assumption
      | (extract_lets +onlyGivenNames x; first | (refine .cut (x := x) ?_ ?_; (on_goal 1 => intro _; clear_value x); (on_goal 2 => subst x)) | subst x)
      | refine onMs_moves.on ?_ rfl | refine onLn_moves.on ?_ rfl | refine onAct_moves.on ?_ rfl | refine showRelay_moves.on ?_ rfl
      | fail_if_no_progress refine mk_rly.on ?_ rfl | refine msInt_moves.on ?_ rfl | refine endDispatches_moves.on ?_ rfl | split | dsimp only

theorem sectorLost_moves {a0} {s : State} : Moves 0xAB80911 s (sectorLost a0 s) := by
  unfold sectorLost
  with_reducible
    repeat' first
      | exact .refl | assumption
      | (extract_lets +onlyGivenNames x; first | (refine .cut (x := x) ?_ ?_; (on_goal 1 => intro _; clear_value x); (on_goal 2 => subst x)) | subst x)
      | refine pendRetire_moves.on ?_ rfl | refine loseLba_moves.on ?_ rfl | refine (onBuf_moves ?_).on ?_ rfl | exact fun _ => rfl
      | refine batSend_moves.on ?_ rfl | refine failRead_moves.on ?_ rfl | split | dsimp only

theorem takeOutcomes_moves {s : State} : Moves 0xEB80911 s (takeOutcomes s) := by
  unfold takeOutcomes
  with_reducible
    repeat' first
      | exact .refl | assumption
      | (extract_lets +onlyGivenNames x; first | (refine .cut (x := x) ?_ ?_; (on_goal 1 => intro _; clear_value x); (on_goal 2 => subst x)) | subst x)
      | refine (forEach_moves (m := 0xEB80911) (fun _ _ => ?_)).step ?_ | refine bndPlaced_moves.on ?_ rfl | refine sectorLost_moves.on ?_ rfl
      | refine unrecovered_moves.on ?_ rfl | fail_if_no_progress refine mk_reports.on ?_ rfl | split

theorem tailReports_moves {a0} {s : State} : Moves 0x4000000 s (tailReports a0 s) := by
  unfold tailReports
  with_reducible
    repeat' first
      | exact .refl | assumption
      | (extract_lets +onlyGivenNames x; first | (refine .cut (x := x) ?_ ?_; (on_goal 1 => intro _; clear_value x); (on_goal 2 => subst x)) | subst x)
      | refine (relocate_moves.get (by assumption)).on ?_ rfl | refine relocate_moves.on ?_ rfl | fail_if_no_progress refine mk_reports.on ?_ rfl
      | split

theorem endOver_moves {a0} {s : State} : Moves 0xC980901 s (endOver a0 s) := by
  unfold endOver
  with_reducible
    repeat' first
      | exact .refl | assumption
      | (extract_lets +onlyGivenNames x; first | (refine .cut (x := x) ?_ ?_; (on_goal 1 => intro _; clear_value x); (on_goal 2 => subst x)) | subst x)
      | refine (forEach_moves (m := 0xC980901) (fun _ _ => ?_)).step ?_ | refine tailReports_moves.on ?_ rfl | refine endDispatch_moves.on ?_ rfl
      | split

theorem gatherOutcomes_moves {s : State} : Moves 0xEB80911 s (gatherOutcomes s) := by
  unfold gatherOutcomes
  with_reducible
    repeat' first
      | exact .refl | assumption | refine (forEach_moves (m := 0xEB80911) (fun _ _ => ?_)).step ?_ | refine endOver_moves.on ?_ rfl
      | refine takeOutcomes_moves.on ?_ rfl

theorem passReport_moves {a0 a1 a2} {s : State} : Moves 0xE980901 s (passReport a0 a1 a2 s) := by
  unfold passReport
  with_reducible
    repeat' first
      | exact .refl | assumption
      | (extract_lets +onlyGivenNames x; first | (refine .cut (x := x) ?_ ?_; (on_goal 1 => intro _; clear_value x); (on_goal 2 => subst x)) | subst x)
      | refine weaken_moves.on ?_ rfl | fail_if_no_progress refine mk_reports.on ?_ rfl | split | dsimp only

theorem passRelocate_moves {a0 a1 a2} {s : State} : Moves 0xE980901 s (passRelocate a0 a1 a2 s) := by
  unfold passRelocate
  with_reducible
    repeat' first
      | exact .refl | assumption
      | (extract_lets +onlyGivenNames x; first | (refine .cut (x := x) ?_ ?_; (on_goal 1 => intro _; clear_value x); (on_goal 2 => subst x)) | subst x)
      | refine (forEach_moves (m := 0xE980901) (fun _ _ => ?_)).step ?_ | refine passReport_moves.on ?_ rfl | refine weaken_moves.on ?_ rfl
      | fail_if_no_progress refine mk_reports.on ?_ rfl | split | dsimp only

theorem takeEvent_moves {a0 a1} {s : State} : MovesU 0x4000 s (takeEvent a0 a1 s) := by
  unfold takeEvent
  with_reducible
    repeat' first
      | exact .refl | assumption | exact .none | refine .some ?_
      | (extract_lets +onlyGivenNames x; first | (refine .cut (x := x) ?_ ?_; (on_goal 1 => intro _; clear_value x); (on_goal 2 => subst x)) | subst x)
      | refine onMs_moves.on ?_ rfl | split

theorem onEvent_moves {m : Nat} {a0 a1 f2} {s : State} (hm : 0x4000 ||| m = m) (hf2 : ∀ x0 x1 t, Moves m t (f2 x0 x1 t)) : Moves m s (onEvent a0 a1 f2 s) := by
  unfold onEvent
  with_reducible
    repeat' first
      | exact .refl | assumption | exact hf2 .. | refine (hf2 ..).step ?_
      | (extract_lets +onlyGivenNames x; first | (refine .cut (x := x) ?_ ?_; (on_goal 1 => intro _; clear_value x); (on_goal 2 => subst x)) | subst x)
      | refine (takeEvent_moves.get (by assumption)).on ?_ (sub_of hm rfl) | refine takeEvent_moves.on ?_ (sub_of hm rfl) | split

theorem requeueSlip_moves {a0 a1 a2} {s : State} : Moves 0x80000 s (requeueSlip a0 a1 a2 s) := by
  unfold requeueSlip
  with_reducible
    repeat' first
      | exact .refl | assumption
      | (extract_lets +onlyGivenNames x; first | (refine .cut (x := x) ?_ ?_; (on_goal 1 => intro _; clear_value x); (on_goal 2 => subst x)) | subst x)
      | refine onAct_moves.on ?_ rfl | split | dsimp only

theorem trackDone_moves {a0} {s : State} : Moves 0x8C901 s (trackDone a0 s) := by
  unfold trackDone
  with_reducible
    repeat' first
      | exact .refl | assumption
      | (extract_lets +onlyGivenNames x; first | (refine .cut (x := x) ?_ ?_; (on_goal 1 => intro _; clear_value x); (on_goal 2 => subst x)) | subst x)
      | refine onAct_moves.on ?_ rfl | refine sendNext_moves.on ?_ rfl | refine writeTarget_moves.on ?_ rfl | split | dsimp only

theorem offsetTarget_moves {a0 a1} {s : State} : Moves 0x88901 s (offsetTarget a0 a1 s) := by
  unfold offsetTarget
  with_reducible
    repeat' first
      | exact .refl | assumption
      | (extract_lets +onlyGivenNames x; first | (refine .cut (x := x) ?_ ?_; (on_goal 1 => intro _; clear_value x); (on_goal 2 => subst x)) | subst x)
      | refine writeTarget_moves.on ?_ rfl | refine onAct_moves.on ?_ rfl | split | dsimp only

theorem offsetReached_moves {a0} {s : State} : Moves 0x84000 s (offsetReached a0 s) := by
  unfold offsetReached
  with_reducible
    repeat' first
      | exact .refl | assumption
      | (extract_lets +onlyGivenNames x; first | (refine .cut (x := x) ?_ ?_; (on_goal 1 => intro _; clear_value x); (on_goal 2 => subst x)) | subst x)
      | refine msSend_moves.on ?_ rfl | refine onAct_moves.on ?_ rfl | split | dsimp only

theorem claimRun_moves {a0 a1 a2 a3} {s : State} : Moves 0x200001 s (claimRun a0 a1 a2 a3 s) := by
  unfold claimRun
  with_reducible
    repeat' first
      | exact .refl | assumption
      | (extract_lets +onlyGivenNames x; first | (refine .cut (x := x) ?_ ?_; (on_goal 1 => intro _; clear_value x); (on_goal 2 => subst x)) | subst x)
      | refine (forEach_moves (m := 0x200001) (fun _ _ => ?_)).step ?_ | refine cacheSet_moves.on ?_ rfl | split

theorem destageLog_moves {a0 a1 a2} {s : State} : Moves 0x380001 s (destageLog a0 a1 a2 s) := by
  unfold destageLog
  with_reducible
    repeat' first
      | exact .refl | assumption
      | (extract_lets +onlyGivenNames x; first | (refine .cut (x := x) ?_ ?_; (on_goal 1 => intro _; clear_value x); (on_goal 2 => subst x)) | subst x)
      | refine (logWrite_moves.get (by assumption)).on ?_ rfl | refine logWrite_moves.on ?_ rfl | refine claimRun_moves.on ?_ rfl
      | refine destage_moves.on ?_ rfl | split

theorem destageZone_moves {a0 a1} {s : State} : Moves 0x280001 s (destageZone a0 a1 s) := by
  unfold destageZone
  with_reducible
    repeat' first
      | exact .refl | assumption
      | (extract_lets +onlyGivenNames x; first | (refine .cut (x := x) ?_ ?_; (on_goal 1 => intro _; clear_value x); (on_goal 2 => subst x)) | subst x)
      | refine (takeSeq_moves.get (by assumption)).on ?_ rfl | refine takeSeq_moves.on ?_ rfl | refine claimRun_moves.on ?_ rfl
      | refine request_moves.on ?_ rfl | refine destage_moves.on ?_ rfl | split

theorem destage_moves {a0 a1} {s : State} : Moves 0x380001 s (destage a0 a1 s) := by
  unfold destage
  with_reducible
    repeat' first
      | exact .refl | assumption
      | (extract_lets +onlyGivenNames x; first | (refine .cut (x := x) ?_ ?_; (on_goal 1 => intro _; clear_value x); (on_goal 2 => subst x)) | subst x)
      | refine destageZone_moves.on ?_ rfl | refine destageLog_moves.on ?_ rfl | refine count_moves.on ?_ rfl | split

theorem forwardExtent_moves {a0} {s : State} : Moves 0x8880001 s (forwardExtent a0 s) := by
  unfold forwardExtent
  with_reducible
    repeat' first
      | exact .refl | assumption
      | (extract_lets +onlyGivenNames x; first | (refine .cut (x := x) ?_ ?_; (on_goal 1 => intro _; clear_value x); (on_goal 2 => subst x)) | subst x)
      | refine newTag_moves.on ?_ rfl | refine (newTag_moves.get (by assumption)).on ?_ rfl | refine enterPool_moves.on ?_ rfl
      | refine batSend_moves.on ?_ rfl | refine count_moves.on ?_ rfl | refine (forEach_moves (m := 0x8880001) (fun _ _ => ?_)).step ?_
      | fail_if_no_progress refine mk_rly.on ?_ rfl | fail_if_no_progress refine mk_bat.on ?_ rfl | split

theorem arriveOne_moves {a0} {s : State} : Moves 0x8880001 s (arriveOne a0 s) := by
  unfold arriveOne
  with_reducible
    repeat' first
      | exact .refl | assumption
      | (extract_lets +onlyGivenNames x; first | (refine .cut (x := x) ?_ ?_; (on_goal 1 => intro _; clear_value x); (on_goal 2 => subst x)) | subst x)
      | refine enterPool_moves.on ?_ rfl | refine forwardExtent_moves.on ?_ rfl | fail_if_no_progress refine mk_rly.on ?_ rfl | split | dsimp only

theorem arriveWaiting_moves {s : State} : Moves 0x8880901 s (arriveWaiting s) := by
  unfold arriveWaiting
  with_reducible
    repeat' first
      | exact .refl | assumption
      | (extract_lets +onlyGivenNames x; first | (refine .cut (x := x) ?_ ?_; (on_goal 1 => intro _; clear_value x); (on_goal 2 => subst x)) | subst x)
      | refine flag_moves.on ?_ rfl | fail_if_no_progress refine mk_rly.on ?_ rfl | refine (forEach_moves (m := 0x8880901) (fun _ _ => ?_)).step ?_
      | refine arriveOne_moves.on ?_ rfl | split

theorem recordSector_moves {a0 a1} {s : State} : Moves 0x10000000 s (recordSector a0 a1 s).2 := by
  unfold recordSector
  with_reducible
    repeat' first
      | exact .refl | assumption
      | (extract_lets +onlyGivenNames x; first | (refine .cut (x := x) ?_ ?_; (on_goal 1 => intro _; clear_value x); (on_goal 2 => subst x)) | subst x)
      | refine free_moves.on ?_ rfl | refine (free_moves.get (by assumption)).on ?_ rfl | refine journal_moves.on ?_ rfl | split | dsimp only

theorem writeBytes_moves {a0 a1} {s : State} : Moves 0x10000000 s (writeBytes a0 a1 s).2 := by
  unfold writeBytes
  with_reducible
    repeat' first
      | exact .refl | assumption
      | (extract_lets +onlyGivenNames x; first | (refine .cut (x := x) ?_ ?_; (on_goal 1 => intro _; clear_value x); (on_goal 2 => subst x)) | subst x)
      | refine recordSector_moves.on ?_ rfl | refine (recordSector_moves.get (by assumption)).on ?_ rfl | refine journal_moves.on ?_ rfl | split
      | dsimp only

theorem feedLane_moves {a0} {s : State} : Moves 0x1AB82901 s (feedLane a0 s) := by
  unfold feedLane
  with_reducible
    repeat' first
      | exact .refl | assumption
      | (extract_lets +onlyGivenNames x; first | (refine .cut (x := x) ?_ ?_; (on_goal 1 => intro _; clear_value x); (on_goal 2 => subst x)) | subst x)
      | refine onAct_moves.on ?_ rfl | refine sectorOutcome_moves.on ?_ rfl | refine dirtyPoison_moves.on ?_ rfl | refine count_moves.on ?_ rfl
      | refine writeBytes_moves.on ?_ rfl | refine (writeBytes_moves.get (by assumption)).on ?_ rfl | refine onLn_moves.on ?_ rfl | split | dsimp only

theorem fillSnapshots_moves {a0 a1} {s : State} : Moves 0x2000001 s (fillSnapshots a0 a1 s) := by
  unfold fillSnapshots
  with_reducible
    repeat' first
      | exact .refl | assumption
      | (extract_lets +onlyGivenNames x; first | (refine .cut (x := x) ?_ ?_; (on_goal 1 => intro _; clear_value x); (on_goal 2 => subst x)) | subst x)
      | refine (forEach_moves (m := 0x2000001) (fun _ _ => ?_)).step ?_ | refine onSlot_moves.on ?_ rfl | split

theorem readCacheFill_moves {a0 a1} {s : State} : Moves 0x200001 s (readCacheFill a0 a1 s) := by
  unfold readCacheFill
  with_reducible
    repeat' first
      | exact .refl | assumption
      | (extract_lets +onlyGivenNames x; first | (refine .cut (x := x) ?_ ?_; (on_goal 1 => intro _; clear_value x); (on_goal 2 => subst x)) | subst x)
      | refine (takePlace_moves.get (by assumption)).on ?_ rfl | refine takePlace_moves.on ?_ rfl | refine cacheSet_moves.on ?_ rfl
      | refine memWrite_moves.on ?_ rfl | split

theorem blockArrived_moves {a0 a1} {s : State} : Moves 0x2200001 s (blockArrived a0 a1 s) := by
  unfold blockArrived
  with_reducible
    repeat' first
      | exact .refl | assumption
      | (extract_lets +onlyGivenNames x; first | (refine .cut (x := x) ?_ ?_; (on_goal 1 => intro _; clear_value x); (on_goal 2 => subst x)) | subst x)
      | refine fillSnapshots_moves.on ?_ rfl | refine readCacheFill_moves.on ?_ rfl | refine (onBuf_moves ?_).on ?_ rfl | exact fun _ => rfl
      | refine (relocate_moves.get (by assumption)).on ?_ rfl | refine relocate_moves.on ?_ rfl | refine count_moves.on ?_ rfl | split

theorem takeDecoded_moves {s : State} : Moves 0xAA10001 s (takeDecoded s) := by
  unfold takeDecoded
  with_reducible
    repeat' first
      | exact .refl | assumption
      | (extract_lets +onlyGivenNames x; first | (refine .cut (x := x) ?_ ?_; (on_goal 1 => intro _; clear_value x); (on_goal 2 => subst x)) | subst x)
      | refine blockArrived_moves.on ?_ rfl | refine batSend_moves.on ?_ rfl | refine count_moves.on ?_ rfl
      | fail_if_no_progress refine mk_ldp.on ?_ rfl | split | dsimp only

theorem laneMove_moves {a0} {s : State} : Moves 0x1AB92901 s (laneMove a0 s) := by
  unfold laneMove
  with_reducible
    repeat' first
      | exact .refl | assumption
      | (extract_lets +onlyGivenNames x; first | (refine .cut (x := x) ?_ ?_; (on_goal 1 => intro _; clear_value x); (on_goal 2 => subst x)) | subst x)
      | refine takeDecoded_moves.on ?_ rfl | refine feedLane_moves.on ?_ rfl | split

theorem starved_moves {s : State} : Moves 0x901 s (starved s) := by
  unfold starved
  with_reducible
    repeat' first
      | exact .refl | assumption | refine count_moves.on ?_ rfl | refine flag_moves.on ?_ rfl

theorem laneLate_moves {a0} {s : State} : Moves 0x14B01 s (laneLate a0 s) := by
  unfold laneLate
  with_reducible
    repeat' first
      | exact .refl | assumption
      | (extract_lets +onlyGivenNames x; first | (refine .cut (x := x) ?_ ?_; (on_goal 1 => intro _; clear_value x); (on_goal 2 => subst x)) | subst x)
      | refine slipSector_moves.on ?_ rfl | refine starved_moves.on ?_ rfl | fail_if_no_progress refine mk_ldp.on ?_ rfl | split

end Sys2Proof.Machine
end

