-- ==== Sys2Proof/Laws/MovesMode.lean ====
section
/-! SUPPORT. One lemma for each operation of Erase.lean, PowerOps.lean, Mode.lean, SequencerRows.lean, Trust.lean, Outcomes.lean, BandRows.lean, RelayRows.lean, PowerRows.lean, ServoRows.lean, SpindleRows.lean, Standings.lean: what it may change (Moves). -/

namespace Sys2Proof.Machine

set_option linter.all false
set_option Elab.async false

theorem setNs_moves {a0 a1 a2} {s : State} : Moves 0x8900001 s (setNs a0 a1 a2 s) := by
  unfold setNs
  with_reducible
    repeat' first
      | exact .refl | assumption
      | (extract_lets +onlyGivenNames x; first | (refine .cut (x := x) ?_ ?_; (on_goal 1 => intro _; clear_value x); (on_goal 2 => subst x)) | subst x)
      | refine batRecord_moves.on ?_ rfl | refine onBnd_moves.on ?_ rfl

theorem dropNs_moves {a0 a1} {s : State} : Moves 0x8900001 s (dropNs a0 a1 s) := by
  unfold dropNs
  with_reducible
    repeat' first
      | exact .refl | assumption
      | (extract_lets +onlyGivenNames x; first | (refine .cut (x := x) ?_ ?_; (on_goal 1 => intro _; clear_value x); (on_goal 2 => subst x)) | subst x)
      | refine batRecord_moves.on ?_ rfl | refine onBnd_moves.on ?_ rfl

theorem journalNs_moves {a0 a1 a2} {s : State} : Moves 0x8900001 s (journalNs a0 a1 a2 s) := by
  unfold journalNs
  with_reducible
    repeat' first
      | exact .refl | assumption
      | (extract_lets +onlyGivenNames x; first | (refine .cut (x := x) ?_ ?_; (on_goal 1 => intro _; clear_value x); (on_goal 2 => subst x)) | subst x)
      | refine journal_moves.on ?_ rfl | refine count_moves.on ?_ rfl

theorem awaitJack_moves {a0} {s : State} : Moves 0x800000 s (awaitJack a0 s) := by
  unfold awaitJack
  with_reducible
    repeat' first
      | exact .refl | assumption
      | (extract_lets +onlyGivenNames x; first | (refine .cut (x := x) ?_ ?_; (on_goal 1 => intro _; clear_value x); (on_goal 2 => subst x)) | subst x)
      | fail_if_no_progress refine mk_bat.on ?_ rfl | split

theorem eraseCache_moves {a0 a1} {s : State} : Moves 0x8A00001 s (eraseCache a0 a1 s) := by
  unfold eraseCache
  with_reducible
    repeat' first
      | exact .refl | assumption
      | (extract_lets +onlyGivenNames x; first | (refine .cut (x := x) ?_ ?_; (on_goal 1 => intro _; clear_value x); (on_goal 2 => subst x)) | subst x)
      | refine (forEach_moves (m := 0x8A00001) (fun _ _ => ?_)).step ?_ | refine memWrite_moves.on ?_ rfl | refine cacheDrop_moves.on ?_ rfl
      | refine batSend_moves.on ?_ rfl | refine mirrored_moves.on ?_ rfl | split

theorem eraseLost_moves {a0 a1} {s : State} : Moves 0x8A00001 s (eraseLost a0 a1 s) := by
  unfold eraseLost
  with_reducible
    repeat' first
      | exact .refl | assumption
      | (extract_lets +onlyGivenNames x; first | (refine .cut (x := x) ?_ ?_; (on_goal 1 => intro _; clear_value x); (on_goal 2 => subst x)) | subst x)
      | refine (forEach_moves (m := 0x8A00001) (fun _ _ => ?_)).step ?_ | refine lwlPut_moves.on ?_ rfl

theorem eraseMap_moves {a0 a1} {s : State} : Moves 0x8980001 s (eraseMap a0 a1 s) := by
  unfold eraseMap
  with_reducible
    repeat' first
      | exact .refl | assumption
      | (extract_lets +onlyGivenNames x; first | (refine .cut (x := x) ?_ ?_; (on_goal 1 => intro _; clear_value x); (on_goal 2 => subst x)) | subst x)
      | refine showJournal_moves.on ?_ rfl | refine onBnd_moves.on ?_ rfl | refine deallocNamespace_moves.on ?_ rfl | refine awaitJack_moves.on ?_ rfl
      | refine forceFlush_moves.on ?_ rfl | split

theorem activityOver_moves {s : State} : Moves 0x2000801 s (activityOver s) := by
  unfold activityOver
  with_reducible
    repeat' first
      | exact .refl | assumption
      | (extract_lets +onlyGivenNames x; first | (refine .cut (x := x) ?_ ?_; (on_goal 1 => intro _; clear_value x); (on_goal 2 => subst x)) | subst x)
      | refine irq_moves.on ?_ rfl | refine put_moves.on ?_ rfl | refine sanitize_moves.on ?_ rfl | fail_if_no_progress refine mk_qe.on ?_ rfl | split

theorem eraseDone_moves {a0} {s : State} : Moves 0x2081B01 s (eraseDone a0 s) := by
  unfold eraseDone
  with_reducible
    repeat' first
      | exact .refl | assumption
      | (extract_lets +onlyGivenNames x; first | (refine .cut (x := x) ?_ ?_; (on_goal 1 => intro _; clear_value x); (on_goal 2 => subst x)) | subst x)
      | refine tally_moves.on ?_ rfl | refine count_moves.on ?_ rfl | refine activityOver_moves.on ?_ rfl | refine finish_moves.on ?_ rfl
      | fail_if_no_progress refine mk_key.on ?_ rfl | split

theorem eraseClear_moves {a0} {s : State} : Moves 0x8801901 s (eraseClear a0 s) := by
  unfold eraseClear
  with_reducible
    repeat' first
      | exact .refl | assumption
      | (extract_lets +onlyGivenNames x; first | (refine .cut (x := x) ?_ ?_; (on_goal 1 => intro _; clear_value x); (on_goal 2 => subst x)) | subst x)
      | refine writeKeyRecord_moves.on ?_ rfl | refine (writeKeyRecord_moves.get (by assumption)).on ?_ rfl | split

theorem erasesPlaced_moves {s : State} : Moves 0xA881B01 s (erasesPlaced s) := by
  unfold erasesPlaced
  with_reducible
    repeat' first
      | exact .refl | assumption
      | (extract_lets +onlyGivenNames x; first | (refine .cut (x := x) ?_ ?_; (on_goal 1 => intro _; clear_value x); (on_goal 2 => subst x)) | subst x)
      | refine (forEach_moves (m := 0xA881B01) (fun _ _ => ?_)).step ?_ | refine eraseDone_moves.on ?_ rfl | refine eraseClear_moves.on ?_ rfl

theorem eraseData_moves {a0 a1 a2 a3} {s : State} : Moves 0x8B81001 s (eraseData a0 a1 a2 a3 s) := by
  unfold eraseData
  with_reducible
    repeat' first
      | exact .refl | assumption
      | (extract_lets +onlyGivenNames x; first | (refine .cut (x := x) ?_ ?_; (on_goal 1 => intro _; clear_value x); (on_goal 2 => subst x)) | subst x)
      | refine eraseMap_moves.on ?_ rfl | refine eraseLost_moves.on ?_ rfl | refine eraseCache_moves.on ?_ rfl | refine dropNs_moves.on ?_ rfl
      | refine awaitJack_moves.on ?_ rfl | refine journalNs_moves.on ?_ rfl | fail_if_no_progress refine mk_key.on ?_ rfl | split

theorem eraseNs_moves {a0 a1 a2 a3 a4} {s : State} : Moves 0x18B81901 s (eraseNs a0 a1 a2 a3 a4 s).2 := by
  unfold eraseNs
  with_reducible
    repeat' first
      | exact .refl | assumption
      | (extract_lets +onlyGivenNames x; first | (refine .cut (x := x) ?_ ?_; (on_goal 1 => intro _; clear_value x); (on_goal 2 => subst x)) | subst x)
      | refine newKey_moves.on ?_ rfl | refine (newKey_moves.get (by assumption)).on ?_ rfl | refine eraseData_moves.on ?_ rfl
      | refine Moves.get (Moves.iteSnd ?_ ?_) (by assumption) | refine (dropKeyRecord_moves.get (by assumption)).on ?_ rfl
      | refine dropKeyRecord_moves.on ?_ rfl | split | dsimp only

theorem eraseAll_moves {a0 a1 a2 a3 a4} {s : State} : Moves 0x18B81901 s (eraseAll a0 a1 a2 a3 a4 s).2 := by
  induction a4 generalizing a0 a1 a2 a3 s with
  | nil =>
    unfold eraseAll
    with_reducible
      repeat' first
       | exact .refl | assumption
       | (extract_lets +onlyGivenNames x; first | (refine .cut (x := x) ?_ ?_; (on_goal 1 => intro _; clear_value x); (on_goal 2 => subst x)) | subst x)
       | refine eraseNs_moves.on ?_ rfl | refine (eraseNs_moves.get (by assumption)).on ?_ rfl | split | dsimp only
  | cons b l ih =>
    unfold eraseAll
    with_reducible
      repeat' first
       | exact .refl | assumption
       | (extract_lets +onlyGivenNames x; first | (refine .cut (x := x) ?_ ?_; (on_goal 1 => intro _; clear_value x); (on_goal 2 => subst x)) | subst x)
       | refine eraseNs_moves.on ?_ rfl | refine (eraseNs_moves.get (by assumption)).on ?_ rfl | split | dsimp only | refine ih.on ?_ rfl
       | refine (ih.get (by assumption)).on ?_ rfl


theorem eraseReadonly_moves {a0} {s : State} : Moves 0x2081B01 s (eraseReadonly a0 s) := by
  unfold eraseReadonly
  with_reducible
    repeat' first
      | exact .refl | assumption | refine (forEach_moves (m := 0x2081B01) (fun _ _ => ?_)).step ?_ | refine eraseDone_moves.on ?_ rfl | split

theorem eraseCommand_moves {a0 a1 a2 a3 a4} {s : State} : Moves 0x1AB81B01 s (eraseCommand a0 a1 a2 a3 a4 s) := by
  unfold eraseCommand
  with_reducible
    repeat' first
      | exact .refl | assumption
      | (extract_lets +onlyGivenNames x; first | (refine .cut (x := x) ?_ ?_; (on_goal 1 => intro _; clear_value x); (on_goal 2 => subst x)) | subst x)
      | refine eraseAll_moves.on ?_ rfl | refine (eraseAll_moves.get (by assumption)).on ?_ rfl | refine eraseReadonly_moves.on ?_ rfl
      | refine finish_moves.on ?_ rfl | refine activityOver_moves.on ?_ rfl | fail_if_no_progress refine mk_key.on ?_ rfl | split

theorem eraseResume_moves {s : State} : Moves 0xAB81B01 s (eraseResume s) := by
  unfold eraseResume
  with_reducible
    repeat' first
      | exact .refl | assumption
      | (extract_lets +onlyGivenNames x; first | (refine .cut (x := x) ?_ ?_; (on_goal 1 => intro _; clear_value x); (on_goal 2 => subst x)) | subst x)
      | refine eraseReadonly_moves.on ?_ rfl | refine (forEach_moves (m := 0xAB81B01) (fun _ _ => ?_)).step ?_ | refine eraseData_moves.on ?_ rfl
      | split

theorem onPwr_moves {a1} {s : State} : Moves 0x1000000 s (State.onPwr s a1) := by
  unfold State.onPwr
  with_reducible
    repeat' first
      | exact .refl | assumption
      | (extract_lets +onlyGivenNames x; first | (refine .cut (x := x) ?_ ?_; (on_goal 1 => intro _; clear_value x); (on_goal 2 => subst x)) | subst x)
      | fail_if_no_progress refine mk_pwr.on ?_ rfl

theorem setInService_moves {a0} {s : State} : Moves 0x1010001 s (setInService a0 s) := by
  unfold setInService
  with_reducible
    repeat' first
      | exact .refl | assumption
      | (extract_lets +onlyGivenNames x; first | (refine .cut (x := x) ?_ ?_; (on_goal 1 => intro _; clear_value x); (on_goal 2 => subst x)) | subst x)
      | refine levelTokens_moves.on ?_ rfl | refine (forEach_moves (m := 0x1010001) (fun _ _ => ?_)).step ?_ | refine putB_moves.on ?_ rfl
      | refine onPwr_moves.on ?_ rfl | dsimp only

theorem rotateLanes_moves {s : State} : Moves 0x1010001 s (rotateLanes s) := by
  unfold rotateLanes
  with_reducible
    repeat' first
      | exact .refl | assumption | refine setInService_moves.on ?_ rfl

theorem showPwr_moves {s : State} : Moves 0x1010001 s (showPwr s) := by
  unfold showPwr
  with_reducible
    repeat' first
      | exact .refl | assumption
      | (extract_lets +onlyGivenNames x; first | (refine .cut (x := x) ?_ ?_; (on_goal 1 => intro _; clear_value x); (on_goal 2 => subst x)) | subst x)
      | refine put_moves.on ?_ rfl | refine rotateLanes_moves.on ?_ rfl | split

theorem showHostRequests_moves {s : State} : Moves 0x1 s (showHostRequests s) := by
  unfold showHostRequests
  with_reducible
    repeat' first
      | exact .refl | assumption
      | (extract_lets +onlyGivenNames x; first | (refine .cut (x := x) ?_ ?_; (on_goal 1 => intro _; clear_value x); (on_goal 2 => subst x)) | subst x)
      | refine put_moves.on ?_ rfl | split

theorem showNextEvent_moves {s : State} : Moves 0x1 s (showNextEvent s) := by
  unfold showNextEvent
  with_reducible
    repeat' first
      | exact .refl | assumption
      | (extract_lets +onlyGivenNames x; first | (refine .cut (x := x) ?_ ?_; (on_goal 1 => intro _; clear_value x); (on_goal 2 => subst x)) | subst x)
      | refine put_moves.on ?_ rfl | split

theorem pwrCadence_moves {a0} {s : State} : Moves 0xCA901 s (pwrCadence a0 s) := by
  unfold pwrCadence
  with_reducible
    repeat' first
      | exact .refl | assumption | refine irq_moves.on ?_ rfl | refine count_moves.on ?_ rfl | refine cadenceRequest_moves.on ?_ rfl

theorem wantCadence_moves {a0} {s : State} : Moves 0xCA901 s (wantCadence a0 s) := by
  unfold wantCadence
  with_reducible
    repeat' first
      | exact .refl | assumption | refine pwrCadence_moves.on ?_ rfl | split

theorem decideCadence_moves {s : State} : Moves 0x10CA901 s (decideCadence s) := by
  unfold decideCadence
  with_reducible
    repeat' first
      | exact .refl | assumption
      | (extract_lets +onlyGivenNames x; first | (refine .cut (x := x) ?_ ?_; (on_goal 1 => intro _; clear_value x); (on_goal 2 => subst x)) | subst x)
      | refine onPwr_moves.on ?_ rfl | refine wantCadence_moves.on ?_ rfl | refine pwrCadence_moves.on ?_ rfl | split | dsimp only

theorem showToggling_moves {s : State} : Moves 0x1 s (showToggling s) := by
  unfold showToggling
  with_reducible
    repeat' first
      | exact .refl | assumption | refine put_moves.on ?_ rfl | split

theorem parkHeads_moves {s : State} : Moves 0x1D08EB01 s (parkHeads s) := by
  unfold parkHeads
  with_reducible
    repeat' first
      | exact .refl | assumption
      | (extract_lets +onlyGivenNames x; first | (refine .cut (x := x) ?_ ?_; (on_goal 1 => intro _; clear_value x); (on_goal 2 => subst x)) | subst x)
      | refine (forEach_moves (m := 0x1D08EB01) (fun _ _ => ?_)).step ?_ | refine svUnload_moves.on ?_ rfl | refine svRetract_moves.on ?_ rfl
      | refine onPwr_moves.on ?_ rfl | refine settle_moves.on ?_ rfl | split

theorem loadHeads_moves {s : State} : Moves 0x1D08EB01 s (loadHeads s) := by
  unfold loadHeads
  with_reducible
    repeat' first
      | exact .refl | assumption
      | (extract_lets +onlyGivenNames x; first | (refine .cut (x := x) ?_ ?_; (on_goal 1 => intro _; clear_value x); (on_goal 2 => subst x)) | subst x)
      | refine (forEach_moves (m := 0x1D08EB01) (fun _ _ => ?_)).step ?_ | refine onPwr_moves.on ?_ rfl | refine svLoad_moves.on ?_ rfl | split

theorem wantHeads_moves {s : State} : Moves 0x1D08EB01 s (wantHeads s) := by
  unfold wantHeads
  with_reducible
    repeat' first
      | exact .refl | assumption
      | (extract_lets +onlyGivenNames x; first | (refine .cut (x := x) ?_ ?_; (on_goal 1 => intro _; clear_value x); (on_goal 2 => subst x)) | subst x)
      | refine loadHeads_moves.on ?_ rfl | refine onPwr_moves.on ?_ rfl | refine settle_moves.on ?_ rfl

theorem wantSpin_moves {s : State} : Moves 0x80E2901 s (wantSpin s) := by
  unfold wantSpin
  with_reducible
    repeat' first
      | exact .refl | assumption
      | (extract_lets +onlyGivenNames x; first | (refine .cut (x := x) ?_ ?_; (on_goal 1 => intro _; clear_value x); (on_goal 2 => subst x)) | subst x)
      | refine onSpm_moves.on ?_ rfl | refine spinStart_moves.on ?_ rfl | split | dsimp only

theorem stopSpin_moves {s : State} : Moves 0x80E2801 s (stopSpin s) := by
  unfold stopSpin
  with_reducible
    repeat' first
      | exact .refl | assumption
      | (extract_lets +onlyGivenNames x; first | (refine .cut (x := x) ?_ ?_; (on_goal 1 => intro _; clear_value x); (on_goal 2 => subst x)) | subst x)
      | refine requestBrake_moves.on ?_ rfl | split

theorem dropLoad_moves {s : State} : Moves 0x20 s (dropLoad s) := by
  unfold dropLoad
  with_reducible
    repeat' first
      | exact .refl | assumption | fail_if_no_progress refine mk_cfg.on ?_ rfl

theorem onPci_moves {a0 a1} {s : State} : Moves 0x2000000 s (State.onPci s a0 a1) := by
  unfold State.onPci
  with_reducible
    repeat' first
      | exact .refl | assumption | fail_if_no_progress refine mk_qe.on ?_ rfl

theorem resetFunction_moves {a0} {s : State} : Moves 0x2080001 s (resetFunction a0 s) := by
  unfold resetFunction
  with_reducible
    repeat' first
      | exact .refl | assumption
      | (extract_lets +onlyGivenNames x; first | (refine .cut (x := x) ?_ ?_; (on_goal 1 => intro _; clear_value x); (on_goal 2 => subst x)) | subst x)
      | refine (forEach_moves (m := 0x2080001) (fun _ _ => ?_)).step ?_ | refine setSlot_moves.on ?_ rfl | refine freeSlot_moves.on ?_ rfl
      | refine showSlots_moves.on ?_ rfl | refine setCtrl_moves.on ?_ rfl | fail_if_no_progress refine mk_qe.on ?_ rfl | refine onPci_moves.on ?_ rfl
      | split | dsimp only

theorem linkGone_moves {a0} {s : State} : Moves 0x2080901 s (linkGone a0 s) := by
  unfold linkGone
  with_reducible
    repeat' first
      | exact .refl | assumption
      | (extract_lets +onlyGivenNames x; first | (refine .cut (x := x) ?_ ?_; (on_goal 1 => intro _; clear_value x); (on_goal 2 => subst x)) | subst x)
      | refine put_moves.on ?_ rfl | refine (forEach_moves (m := 0x2080901) (fun _ _ => ?_)).step ?_ | refine resetFunction_moves.on ?_ rfl
      | refine flag_moves.on ?_ rfl

theorem linksOff_moves {s : State} : Moves 0x2080901 s (linksOff s) := by
  unfold linksOff
  with_reducible
    repeat' first
      | exact .refl | assumption | refine (forEach_moves (m := 0x2080901) (fun _ _ => ?_)).step ?_ | refine linkGone_moves.on ?_ rfl | split
      | dsimp only

theorem onMode_moves {a0 a1} {s : State} : Moves 0x1F9FEB21 s (onMode a0 a1 s) := by
  unfold onMode
  with_reducible
    repeat' first
      | exact .refl | assumption
      | (extract_lets +onlyGivenNames x; first | (refine .cut (x := x) ?_ ?_; (on_goal 1 => intro _; clear_value x); (on_goal 2 => subst x)) | subst x)
      | refine (forEach_moves (m := 0x1F9FEB21) (fun _ _ => ?_)).step ?_ | refine headLinkStop_moves.on ?_ rfl | refine msInt_moves.on ?_ rfl
      | refine startSeq_moves.on ?_ rfl | refine abortItems_moves.on ?_ rfl | refine abortLadder_moves.on ?_ rfl | refine stopSpin_moves.on ?_ rfl
      | refine parkHeads_moves.on ?_ rfl | refine setSpin_moves.on ?_ rfl | refine showToggling_moves.on ?_ rfl | refine showRelay_moves.on ?_ rfl
      | refine showPwr_moves.on ?_ rfl | refine readyControllers_moves.on ?_ rfl | refine dropLoad_moves.on ?_ rfl | refine linksOff_moves.on ?_ rfl
      | split | dsimp only

theorem complete_moves {a0 a1} {s : State} : Moves 0x1F9FEB31 s (complete a0 a1 s) := by
  unfold complete
  with_reducible
    repeat' first
      | exact .refl | assumption
      | (extract_lets +onlyGivenNames x; first | (refine .cut (x := x) ?_ ?_; (on_goal 1 => intro _; clear_value x); (on_goal 2 => subst x)) | subst x)
      | refine put_moves.on ?_ rfl | refine sysEvent_moves.on ?_ rfl | refine irq_moves.on ?_ rfl | refine onMode_moves.on ?_ rfl
      | fail_if_no_progress refine mk_glb.on ?_ rfl | split

theorem begin__moves {a0 a1} {s : State} : Moves 0x11 s (begin_ a0 a1 s) := by
  unfold begin_
  with_reducible
    repeat' first
      | exact .refl | assumption
      | (extract_lets +onlyGivenNames x; first | (refine .cut (x := x) ?_ ?_; (on_goal 1 => intro _; clear_value x); (on_goal 2 => subst x)) | subst x)
      | refine put_moves.on ?_ rfl | fail_if_no_progress refine mk_glb.on ?_ rfl | split

theorem withdraw_moves {s : State} : Moves 0x11 s (withdraw s) := by
  unfold withdraw
  with_reducible
    repeat' first
      | exact .refl | assumption
      | (extract_lets +onlyGivenNames x; first | (refine .cut (x := x) ?_ ?_; (on_goal 1 => intro _; clear_value x); (on_goal 2 => subst x)) | subst x)
      | refine put_moves.on ?_ rfl | fail_if_no_progress refine mk_glb.on ?_ rfl | split

theorem powerTransition_moves {s : State} : Moves 0x1F9FEB31 s (powerTransition s) := by
  unfold powerTransition
  with_reducible
    repeat' first
      | exact .refl | assumption
      | (extract_lets +onlyGivenNames x; first | (refine .cut (x := x) ?_ ?_; (on_goal 1 => intro _; clear_value x); (on_goal 2 => subst x)) | subst x)
      | refine complete_moves.on ?_ rfl | refine withdraw_moves.on ?_ rfl | refine begin__moves.on ?_ rfl | split

theorem transition_moves {s : State} : MovesO 0x1F9FEB31 s (transition s) := by
  unfold transition
  with_reducible
    repeat' first
      | exact .refl | assumption | exact .none | refine .some ?_
      | (extract_lets +onlyGivenNames x; first | (refine .cut (x := x) ?_ ?_; (on_goal 1 => intro _; clear_value x); (on_goal 2 => subst x)) | subst x)
      | refine complete_moves.on ?_ rfl | split | dsimp only

theorem transitions_moves {a0} {s : State} : Moves 0x1F9FEB31 s (transitions a0 s) := by
  induction a0 generalizing s with
  | zero =>
    unfold transitions
    with_reducible
      repeat' first
       | exact .refl | assumption
       | (extract_lets +onlyGivenNames x; first | (refine .cut (x := x) ?_ ?_; (on_goal 1 => intro _; clear_value x); (on_goal 2 => subst x)) | subst x)
       | refine (transition_moves.get (by assumption)).on ?_ rfl | refine transition_moves.on ?_ rfl | split
  | succ k ih =>
    unfold transitions
    with_reducible
      repeat' first
       | exact .refl | assumption
       | (extract_lets +onlyGivenNames x; first | (refine .cut (x := x) ?_ ?_; (on_goal 1 => intro _; clear_value x); (on_goal 2 => subst x)) | subst x)
       | refine (transition_moves.get (by assumption)).on ?_ rfl | refine transition_moves.on ?_ rfl | split | refine ih.on ?_ rfl


theorem applyState_moves {a0} {s : State} : Moves 0x1D0FEB01 s (applyState a0 s) := by
  unfold applyState
  with_reducible
    repeat' first
      | exact .refl | assumption
      | (extract_lets +onlyGivenNames x; first | (refine .cut (x := x) ?_ ?_; (on_goal 1 => intro _; clear_value x); (on_goal 2 => subst x)) | subst x)
      | refine irq_moves.on ?_ rfl | refine put_moves.on ?_ rfl | refine wantCadence_moves.on ?_ rfl | refine wantSpin_moves.on ?_ rfl
      | refine wantHeads_moves.on ?_ rfl | refine parkHeads_moves.on ?_ rfl | refine stopSpin_moves.on ?_ rfl | refine showRelay_moves.on ?_ rfl
      | refine showPwr_moves.on ?_ rfl | split

theorem pwrSettle_moves {s : State} : Moves 0x1D0FEB01 s (pwrSettle s) := by
  unfold pwrSettle
  with_reducible
    repeat' first
      | exact .refl | assumption
      | (extract_lets +onlyGivenNames x; first | (refine .cut (x := x) ?_ ?_; (on_goal 1 => intro _; clear_value x); (on_goal 2 => subst x)) | subst x)
      | refine showHostRequests_moves.on ?_ rfl | refine onPwr_moves.on ?_ rfl | refine applyState_moves.on ?_ rfl | split | dsimp only

theorem settle_moves {s : State} : Moves 0x1F9FEB31 s (State.settle s) := by
  unfold State.settle
  with_reducible
    repeat' first
      | exact .refl | assumption
      | (extract_lets +onlyGivenNames x; first | (refine .cut (x := x) ?_ ?_; (on_goal 1 => intro _; clear_value x); (on_goal 2 => subst x)) | subst x)
      | refine brakeIfQuiet_moves.on ?_ rfl | refine loadHeads_moves.on ?_ rfl | refine transitions_moves.on ?_ rfl
      | refine powerTransition_moves.on ?_ rfl | refine pwrSettle_moves.on ?_ rfl | split

theorem laneGone_moves {a0} {s : State} : Moves 0xFB96B11 s (laneGone a0 s) := by
  unfold laneGone
  with_reducible
    repeat' first
      | exact .refl | assumption | refine anaUpdate_moves.on ?_ rfl | refine showPwr_moves.on ?_ rfl | refine levelTokens_moves.on ?_ rfl
      | refine laneLostItems_moves.on ?_ rfl | refine abortLadder_moves.on ?_ rfl | refine headLinkStop_moves.on ?_ rfl

theorem lose_moves {a1 a2 a3} {s : State} : Moves 0x911 s (State.lose s a1 a2 a3) := by
  unfold State.lose
  with_reducible
    repeat' first
      | exact .refl | assumption
      | (extract_lets +onlyGivenNames x; first | (refine .cut (x := x) ?_ ?_; (on_goal 1 => intro _; clear_value x); (on_goal 2 => subst x)) | subst x)
      | refine setReg_moves.on ?_ rfl | refine sysEvent_moves.on ?_ rfl | refine cond_moves.on ?_ rfl | refine showToggling_moves.on ?_ rfl
      | fail_if_no_progress refine mk_glb.on ?_ rfl | split

theorem loseUnit0_moves {a1} {s : State} : Moves 0x1FBFEB31 s (State.loseUnit0 s a1) := by
  unfold State.loseUnit0
  with_reducible
    repeat' first
      | exact .refl | assumption
      | (extract_lets +onlyGivenNames x; first | (refine .cut (x := x) ?_ ?_; (on_goal 1 => intro _; clear_value x); (on_goal 2 => subst x)) | subst x)
      | refine lose_moves.on ?_ rfl | refine laneGone_moves.on ?_ rfl | refine settle_moves.on ?_ rfl | split

theorem loseUnit1_moves {a1} {s : State} : Moves 0x1F9FEB31 s (State.loseUnit1 s a1) := by
  unfold State.loseUnit1
  with_reducible
    repeat' first
      | exact .refl | assumption | refine settle_moves.on ?_ rfl | refine lose_moves.on ?_ rfl | split

theorem writeNote_moves {a0 a1 a2} {s : State} : Moves 0x11 s (writeNote a0 a1 a2 s) := by
  unfold writeNote
  with_reducible
    repeat' first
      | exact .refl | assumption
      | (extract_lets +onlyGivenNames x; first | (refine .cut (x := x) ?_ ?_; (on_goal 1 => intro _; clear_value x); (on_goal 2 => subst x)) | subst x)
      | refine put_moves.on ?_ rfl | fail_if_no_progress refine mk_glb.on ?_ rfl

theorem noteLost_moves {a0 a1} {s : State} : Moves 0x11 s (noteLost a0 a1 s) := by
  unfold noteLost
  with_reducible
    repeat' first
      | exact .refl | assumption
      | (extract_lets +onlyGivenNames x; first | (refine .cut (x := x) ?_ ?_; (on_goal 1 => intro _; clear_value x); (on_goal 2 => subst x)) | subst x)
      | refine writeNote_moves.on ?_ rfl | fail_if_no_progress refine mk_glb.on ?_ rfl | split

theorem powerFail_moves {a0 a1} {s : State} : Moves 0x1F9FEB31 s (powerFail a0 a1 s) := by
  unfold powerFail
  with_reducible
    repeat' first
      | exact .refl | assumption
      | (extract_lets +onlyGivenNames x; first | (refine .cut (x := x) ?_ ?_; (on_goal 1 => intro _; clear_value x); (on_goal 2 => subst x)) | subst x)
      | refine cond_moves.on ?_ rfl | refine (forEach_moves (m := 0x1F9FEB31) (fun _ _ => ?_)).step ?_ | refine msInt_moves.on ?_ rfl
      | refine inhibit_moves.on ?_ rfl | refine svRetract_moves.on ?_ rfl | refine sleepFrame_moves.on ?_ rfl | refine spinPowerFail_moves.on ?_ rfl
      | refine noteLost_moves.on ?_ rfl | refine onBnd_moves.on ?_ rfl | refine sysEvent_moves.on ?_ rfl | refine settle_moves.on ?_ rfl
      | fail_if_no_progress refine mk_glb.on ?_ rfl | split | dsimp only

theorem startConfigReset_moves {a0} {s : State} : Moves 0x1CB8EB11 s (startConfigReset a0 s) := by
  unfold startConfigReset
  with_reducible
    repeat' first
      | exact .refl | assumption
      | (extract_lets +onlyGivenNames x; first | (refine .cut (x := x) ?_ ?_; (on_goal 1 => intro _; clear_value x); (on_goal 2 => subst x)) | subst x)
      | refine put_moves.on ?_ rfl | refine (forEach_moves (m := 0x1CB8EB11) (fun _ _ => ?_)).step ?_ | refine lwlAdd_moves.on ?_ rfl
      | refine inhibit_moves.on ?_ rfl | refine svRetract_moves.on ?_ rfl | refine showToggling_moves.on ?_ rfl | refine sleepFrame_moves.on ?_ rfl
      | fail_if_no_progress refine mk_glb.on ?_ rfl | split

theorem seqRow_moves {a0 a1 a2} {s : State} : Moves 0x1FBFEB39 s (seqRow a0 a1 a2 s) := by
  unfold seqRow
  with_reducible
    repeat' first
      | exact .refl | assumption
      | (extract_lets +onlyGivenNames x; first | (refine .cut (x := x) ?_ ?_; (on_goal 1 => intro _; clear_value x); (on_goal 2 => subst x)) | subst x)
      | refine (atWord_moves (m := 0x1FBFEB39) rfl (fun _ => ?_)).step ?_ | refine finishWord_moves.on ?_ rfl | refine loseUnit0_moves.on ?_ rfl
      | split

theorem execBranch_moves {a0 a1} {s : State} : MovesR 0x1FBFEB39 s (execBranch a0 a1 s) := by
  unfold execBranch
  with_reducible
    repeat' first
      | exact .refl | assumption | exact .fault | refine .next ?_ | refine seqRow_moves.on ?_ rfl

theorem execLoop_moves {a0 a1} {s : State} : MovesR 0x1FBFEB39 s (execLoop a0 a1 s) := by
  unfold execLoop
  with_reducible
    repeat' first
      | exact .refl | assumption | exact .fault | refine .next ?_ | refine seqRow_moves.on ?_ rfl

theorem execCall_moves {a0 a1} {s : State} : MovesR 0x1FBFEB39 s (execCall a0 a1 s) := by
  unfold execCall
  with_reducible
    repeat' first
      | exact .refl | assumption | exact .fault | refine .next ?_ | refine seqRow_moves.on ?_ rfl

theorem execReturn_moves {a0 a1} {s : State} : MovesR 0x1FBFEB39 s (execReturn a0 a1 s) := by
  unfold execReturn
  with_reducible
    repeat' first
      | exact .refl | assumption | exact .fault | refine .next ?_ | refine seqRow_moves.on ?_ rfl

theorem execDispatch_moves {a0 a1} {s : State} : MovesR 0x1FBFEB39 s (execDispatch a0 a1 s) := by
  unfold execDispatch
  with_reducible
    repeat' first
      | exact .refl | assumption | exact .fault | refine .next ?_ | refine seqRow_moves.on ?_ rfl

theorem execHalt_moves {a0 a1} {s : State} : MovesR 0x1FBFEB39 s (execHalt a0 a1 s) := by
  unfold execHalt
  with_reducible
    repeat' first
      | exact .refl | assumption | exact .fault | refine .next ?_ | refine seqRow_moves.on ?_ rfl

theorem execTrapReturn_moves {a0 a1} {s : State} : MovesR 0x1FBFEB39 s (execTrapReturn a0 a1 s) := by
  unfold execTrapReturn
  with_reducible
    repeat' first
      | exact .refl | assumption | exact .fault | refine .next ?_ | refine seqRow_moves.on ?_ rfl

theorem execTrap_moves {a0} {s : State} : MovesR 0x1C096B19 s (execTrap a0 s) := by
  unfold execTrap
  refine .next (atWord_base rfl (fun t h => ?_))
  split
  · exact finishWord_moves.on h rfl
  · exact .refl

theorem execTimerHoldEnd_moves {a0} {s : State} : MovesR 0x1C086B01 s (execTimerHoldEnd a0 s) := by
  unfold execTimerHoldEnd
  with_reducible
    repeat' first
      | exact .refl | assumption | exact .fault | refine .next ?_
      | (extract_lets +onlyGivenNames x; first | (refine .cut (x := x) ?_ ?_; (on_goal 1 => intro _; clear_value x); (on_goal 2 => subst x)) | subst x)
      | refine (atWord_moves (m := 0x1C086B01) rfl (fun _ => ?_)).step ?_ | refine onMs_moves.on ?_ rfl | split

theorem fieldRow_moves {m : Nat} {a0 a1 f2} {s : State} (hm : 0x1C086B01 ||| m = m) (hf2 : ∀  t, Moves m t (f2  t)) : Moves m s (fieldRow a0 a1 f2 s) := by
  unfold fieldRow
  with_reducible
    repeat' first
      | exact .refl | assumption | exact hf2 .. | refine (hf2 ..).step ?_ | refine (atWord_moves (m := m) (sub_of hm rfl) (fun _ => ?_)).step ?_
      | split

theorem execOpenRead_moves {a0 a1} {s : State} : MovesR 0x1C096B19 s (execOpenRead a0 a1 s) := by
  unfold execOpenRead
  with_reducible
    repeat' first
      | exact .refl | assumption | exact .fault | refine .next ?_ | refine (fieldRow_moves (m := 0x1C096B19) rfl (fun _ => ?_)).step ?_
      | refine gateEff_moves.on ?_ rfl | refine sectEff_moves.on ?_ rfl | dsimp only

theorem execOpenWrite_moves {a0} {s : State} : MovesR 0x1C096B19 s (execOpenWrite a0 s) := by
  unfold execOpenWrite
  with_reducible
    repeat' first
      | exact .refl | assumption | exact .fault | refine .next ?_ | refine (fieldRow_moves (m := 0x1C096B19) rfl (fun _ => ?_)).step ?_
      | refine gateEff_moves.on ?_ rfl | refine sectEff_moves.on ?_ rfl | dsimp only

theorem execCloseNow_moves {a0} {s : State} : MovesR 0x1C096B19 s (execCloseNow a0 s) := by
  unfold execCloseNow
  with_reducible
    repeat' first
      | exact .refl | assumption | exact .fault | refine .next ?_ | refine (fieldRow_moves (m := 0x1C096B19) rfl (fun _ => ?_)).step ?_
      | refine gateEff_moves.on ?_ rfl | dsimp only

theorem execGateFrame_moves {a0} {s : State} : MovesR 0x1C086B01 s (execGateFrame a0 s) := by
  unfold execGateFrame
  with_reducible
    repeat' first
      | exact .refl | assumption | exact .fault | refine .next ?_ | refine (fieldRow_moves (m := 0x1C086B01) rfl (fun _ => ?_)).step ?_
      | refine pbEff_moves.on ?_ rfl

theorem execSettingFrame_moves {a0} {s : State} : MovesR 0x1C086B01 s (execSettingFrame a0 s) := by
  unfold execSettingFrame
  with_reducible
    repeat' first
      | exact .refl | assumption | exact .fault | refine .next ?_ | refine (fieldRow_moves (m := 0x1C086B01) rfl (fun _ => ?_)).step ?_
      | refine pbEff_moves.on ?_ rfl

theorem execReadFaultStat_moves {a0} {s : State} : MovesR 0x1C086B01 s (execReadFaultStat a0 s) := by
  unfold execReadFaultStat
  with_reducible
    repeat' first
      | exact .refl | assumption | exact .fault | refine .next ?_ | refine (fieldRow_moves (m := 0x1C086B01) rfl (fun _ => ?_)).step ?_
      | refine pbEff_moves.on ?_ rfl

theorem execReadRegister_moves {a0} {s : State} : MovesR 0x1C086B01 s (execReadRegister a0 s) := by
  unfold execReadRegister
  with_reducible
    repeat' first
      | exact .refl | assumption | exact .fault | refine .next ?_ | refine (fieldRow_moves (m := 0x1C086B01) rfl (fun _ => ?_)).step ?_
      | refine pbEff_moves.on ?_ rfl

theorem execReadOverride_moves {a0} {s : State} : MovesR 0x1C086B01 s (execReadOverride a0 s) := by
  unfold execReadOverride
  with_reducible
    repeat' first
      | exact .refl | assumption | exact .fault | refine .next ?_ | refine (fieldRow_moves (m := 0x1C086B01) rfl (fun _ => ?_)).step ?_
      | refine ovrEff_moves.on ?_ rfl

theorem execSectRead_moves {a0} {s : State} : MovesR 0x1C086B01 s (execSectRead a0 s) := by
  unfold execSectRead
  with_reducible
    repeat' first
      | exact .refl | assumption | exact .fault | refine .next ?_ | refine (fieldRow_moves (m := 0x1C086B01) rfl (fun _ => ?_)).step ?_
      | refine sectEff_moves.on ?_ rfl

theorem execSectWrite_moves {a0} {s : State} : MovesR 0x1C086B01 s (execSectWrite a0 s) := by
  unfold execSectWrite
  with_reducible
    repeat' first
      | exact .refl | assumption | exact .fault | refine .next ?_ | refine (fieldRow_moves (m := 0x1C086B01) rfl (fun _ => ?_)).step ?_
      | refine sectEff_moves.on ?_ rfl

theorem execSectWriteVerify_moves {a0} {s : State} : MovesR 0x1C086B01 s (execSectWriteVerify a0 s) := by
  unfold execSectWriteVerify
  with_reducible
    repeat' first
      | exact .refl | assumption | exact .fault | refine .next ?_ | refine (fieldRow_moves (m := 0x1C086B01) rfl (fun _ => ?_)).step ?_
      | refine sectEff_moves.on ?_ rfl

theorem execStartParityGroup_moves {a0} {s : State} : MovesR 0x1C086B01 s (execStartParityGroup a0 s) := by
  unfold execStartParityGroup
  with_reducible
    repeat' first
      | exact .refl | assumption | exact .fault | refine .next ?_ | refine (fieldRow_moves (m := 0x1C086B01) rfl (fun _ => ?_)).step ?_
      | refine sectEff_moves.on ?_ rfl

theorem execSectReadSpill_moves {a0} {s : State} : MovesR 0x1C086B01 s (execSectReadSpill a0 s) := by
  unfold execSectReadSpill
  with_reducible
    repeat' first
      | exact .refl | assumption | exact .fault | refine .next ?_ | refine (fieldRow_moves (m := 0x1C086B01) rfl (fun _ => ?_)).step ?_
      | refine sectEff_moves.on ?_ rfl

theorem execPop_moves {a0 a1} {s : State} : MovesR 0x1C086B01 s (execPop a0 a1 s) := by
  unfold execPop
  with_reducible
    repeat' first
      | exact .refl | assumption | exact .fault | refine .next ?_ | refine (fieldRow_moves (m := 0x1C086B01) rfl (fun _ => ?_)).step ?_
      | refine cmdEff_moves.on ?_ rfl

theorem execDiscard_moves {a0} {s : State} : MovesR 0x1C086B01 s (execDiscard a0 s) := by
  unfold execDiscard
  with_reducible
    repeat' first
      | exact .refl | assumption | exact .fault | refine .next ?_ | refine (fieldRow_moves (m := 0x1C086B01) rfl (fun _ => ?_)).step ?_
      | refine cmdEff_moves.on ?_ rfl

theorem execEventPost_moves {a0} {s : State} : MovesR 0x1C086B01 s (execEventPost a0 s) := by
  unfold execEventPost
  with_reducible
    repeat' first
      | exact .refl | assumption | exact .fault | refine .next ?_ | refine (fieldRow_moves (m := 0x1C086B01) rfl (fun _ => ?_)).step ?_
      | refine evtEff_moves.on ?_ rfl

theorem execAlu_moves {a0} {s : State} : MovesR 0x1C086B01 s (execAlu a0 s) := by
  unfold execAlu
  with_reducible
    repeat' first
      | exact .refl | assumption | exact .fault | refine .next ?_ | refine (fieldRow_moves (m := 0x1C086B01) rfl (fun _ => ?_)).step ?_
      | refine aluEff_moves.on ?_ rfl

theorem execClkZone_moves {a0} {s : State} : MovesR 0x1C086B01 s (execClkZone a0 s) := by
  unfold execClkZone
  with_reducible
    repeat' first
      | exact .refl | assumption | exact .fault | refine .next ?_ | refine (fieldRow_moves (m := 0x1C086B01) rfl (fun _ => ?_)).step ?_
      | refine clkEff_moves.on ?_ rfl

theorem runEff_moves {a0} {s : State} : Moves 0x4001 s (runEff a0 s) := by
  unfold runEff
  with_reducible
    repeat' first
      | exact .refl | assumption
      | (extract_lets +onlyGivenNames x; first | (refine .cut (x := x) ?_ ?_; (on_goal 1 => intro _; clear_value x); (on_goal 2 => subst x)) | subst x)
      | refine put_moves.on ?_ rfl | refine onMs_moves.on ?_ rfl | refine startSeq_moves.on ?_ rfl | split | dsimp only

theorem execRun_moves {a0} {s : State} : MovesR 0x4919 s (execRun a0 s) := by
  unfold execRun
  with_reducible
    repeat' first
      | exact .refl | assumption | exact .fault | refine .next ?_ | refine (command_moves (m := 0x4919) rfl (fun _ => ?_)).step ?_
      | refine runEff_moves.on ?_ rfl

theorem runStopEff_moves {a0} {s : State} : Moves 0x1C086B01 s (runStopEff a0 s) := by
  unfold runStopEff
  with_reducible
    repeat' first
      | exact .refl | assumption
      | (extract_lets +onlyGivenNames x; first | (refine .cut (x := x) ?_ ?_; (on_goal 1 => intro _; clear_value x); (on_goal 2 => subst x)) | subst x)
      | refine onMs_moves.on ?_ rfl | refine put_moves.on ?_ rfl | refine haltSeq_moves.on ?_ rfl | split | dsimp only

theorem execRunStop_moves {a0} {s : State} : MovesR 0x1C086B19 s (execRunStop a0 s) := by
  unfold execRunStop
  with_reducible
    repeat' first
      | exact .refl | assumption | exact .fault | refine .next ?_ | refine (command_moves (m := 0x1C086B19) rfl (fun _ => ?_)).step ?_
      | refine runStopEff_moves.on ?_ rfl

theorem resumeEff_moves {a0} {s : State} : Moves 0x4001 s (resumeEff a0 s) := by
  unfold resumeEff
  with_reducible
    repeat' first
      | exact .refl | assumption
      | (extract_lets +onlyGivenNames x; first | (refine .cut (x := x) ?_ ?_; (on_goal 1 => intro _; clear_value x); (on_goal 2 => subst x)) | subst x)
      | refine put_moves.on ?_ rfl | refine onMs_moves.on ?_ rfl | refine beginWord_moves.on ?_ rfl | split

theorem execSequencerResume_moves {a0} {s : State} : MovesR 0x4919 s (execSequencerResume a0 s) := by
  unfold execSequencerResume
  with_reducible
    repeat' first
      | exact .refl | assumption | exact .fault | refine .next ?_ | refine (command_moves (m := 0x4919) rfl (fun _ => ?_)).step ?_
      | refine resumeEff_moves.on ?_ rfl

theorem execFirmwareInterrupt_moves {a0} {s : State} : MovesR 0x919 s (execFirmwareInterrupt a0 s) := by
  unfold execFirmwareInterrupt
  with_reducible
    repeat' first
      | exact .refl | assumption | exact .fault | refine .next ?_ | refine (command_moves (m := 0x919) rfl (fun _ => ?_)).step ?_
      | refine msInt_moves.on ?_ rfl

theorem execForcedHalt_moves {a0} {s : State} : MovesR 0x1C086B01 s (execForcedHalt a0 s) := by
  unfold execForcedHalt
  with_reducible
    repeat' first
      | exact .refl | assumption | exact .fault | refine .next ?_
      | (extract_lets +onlyGivenNames x; first | (refine .cut (x := x) ?_ ?_; (on_goal 1 => intro _; clear_value x); (on_goal 2 => subst x)) | subst x)
      | refine msHwEvent_moves.on ?_ rfl | refine count_moves.on ?_ rfl | refine haltSeq_moves.on ?_ rfl | refine recordHalt_moves.on ?_ rfl | split

theorem putBootState_moves {a0} {s : State} : Moves 0x40 s (putBootState a0 s) := by
  unfold putBootState
  with_reducible
    repeat' first
      | exact .refl | assumption
      | (extract_lets +onlyGivenNames x; first | (refine .cut (x := x) ?_ ?_; (on_goal 1 => intro _; clear_value x); (on_goal 2 => subst x)) | subst x)
      | fail_if_no_progress refine mk_trc.on ?_ rfl | split | dsimp only

theorem mailbox_moves {a0} {s : State} : Moves 0x801 s (mailbox a0 s) := by
  unfold mailbox
  with_reducible
    repeat' first
      | exact .refl | assumption | refine irq_moves.on ?_ rfl | refine count_moves.on ?_ rfl | refine put_moves.on ?_ rfl

theorem setUpd_moves {a0} {s : State} : Moves 0x1 s (setUpd a0 s) := by
  unfold setUpd
  with_reducible
    repeat' first
      | exact .refl | assumption | refine put_moves.on ?_ rfl

theorem writeBootRecord_moves {a0 a1} {s : State} : Moves 0x1F9FEB71 s (writeBootRecord a0 a1 s) := by
  unfold writeBootRecord
  with_reducible
    repeat' first
      | exact .refl | assumption
      | (extract_lets +onlyGivenNames x; first | (refine .cut (x := x) ?_ ?_; (on_goal 1 => intro _; clear_value x); (on_goal 2 => subst x)) | subst x)
      | refine putBootState_moves.on ?_ rfl | refine setReg_moves.on ?_ rfl | refine sysEvent_moves.on ?_ rfl | refine tally_moves.on ?_ rfl
      | refine settle_moves.on ?_ rfl | refine cond_moves.on ?_ rfl | refine put_moves.on ?_ rfl | refine flag_moves.on ?_ rfl
      | fail_if_no_progress refine mk_trc.on ?_ rfl | split

theorem revertBoot_moves {s : State} : Moves 0x40 s (revertBoot s) := by
  unfold revertBoot
  with_reducible
    repeat' first
      | exact .refl | assumption
      | (extract_lets +onlyGivenNames x; first | (refine .cut (x := x) ?_ ?_; (on_goal 1 => intro _; clear_value x); (on_goal 2 => subst x)) | subst x)
      | refine putBootState_moves.on ?_ rfl

theorem bootFail_moves {a0 a1 a2 a3} {s : State} : Moves 0x1FBFEB71 s (bootFail a0 a1 a2 a3 s) := by
  unfold bootFail
  with_reducible
    repeat' first
      | exact .refl | assumption
      | (extract_lets +onlyGivenNames x; first | (refine .cut (x := x) ?_ ?_; (on_goal 1 => intro _; clear_value x); (on_goal 2 => subst x)) | subst x)
      | refine put_moves.on ?_ rfl | refine startConfigReset_moves.on ?_ rfl | refine revertBoot_moves.on ?_ rfl
      | refine writeBootRecord_moves.on ?_ rfl | refine settle_moves.on ?_ rfl | refine cond_moves.on ?_ rfl | split

theorem bootBank_moves {s : State} : Moves 0x841 s (bootBank s) := by
  unfold bootBank
  with_reducible
    repeat' first
      | exact .refl | assumption
      | (extract_lets +onlyGivenNames x; first | (refine .cut (x := x) ?_ ?_; (on_goal 1 => intro _; clear_value x); (on_goal 2 => subst x)) | subst x)
      | refine revertBoot_moves.on ?_ rfl | refine putBootState_moves.on ?_ rfl | refine put_moves.on ?_ rfl | refine putB_moves.on ?_ rfl
      | refine mailbox_moves.on ?_ rfl | refine setUpd_moves.on ?_ rfl | refine setReg_moves.on ?_ rfl | refine setPair_moves.on ?_ rfl | split

theorem bootStep4_moves {a0 a1} {s : State} : Moves 0x1FBFEB71 s (bootStep4 a0 a1 s) := by
  unfold bootStep4
  with_reducible
    repeat' first
      | exact .refl | assumption
      | (extract_lets +onlyGivenNames x; first | (refine .cut (x := x) ?_ ?_; (on_goal 1 => intro _; clear_value x); (on_goal 2 => subst x)) | subst x)
      | refine bootFail_moves.on ?_ rfl | refine flag_moves.on ?_ rfl | refine put_moves.on ?_ rfl | refine setReg_moves.on ?_ rfl
      | fail_if_no_progress refine mk_cfg.on ?_ rfl | split | dsimp only

theorem bootToImage_moves {a0} {s : State} : Moves 0x1FBFEB71 s (bootToImage a0 s) := by
  unfold bootToImage
  with_reducible
    repeat' first
      | exact .refl | assumption
      | (extract_lets +onlyGivenNames x; first | (refine .cut (x := x) ?_ ?_; (on_goal 1 => intro _; clear_value x); (on_goal 2 => subst x)) | subst x)
      | refine put_moves.on ?_ rfl | refine bootFail_moves.on ?_ rfl | refine bootBank_moves.on ?_ rfl | fail_if_no_progress refine mk_cfg.on ?_ rfl
      | fail_if_no_progress refine mk_trc.on ?_ rfl | refine bootStep4_moves.on ?_ rfl | split

theorem passKek_moves {s : State} : Moves 0x10001041 s (passKek s) := by
  unfold passKek
  with_reducible
    repeat' first
      | exact .refl | assumption
      | (extract_lets +onlyGivenNames x; first | (refine .cut (x := x) ?_ ?_; (on_goal 1 => intro _; clear_value x); (on_goal 2 => subst x)) | subst x)
      | refine free_moves.on ?_ rfl | refine (free_moves.get (by assumption)).on ?_ rfl | refine put_moves.on ?_ rfl
      | fail_if_no_progress refine mk_trc.on ?_ rfl | fail_if_no_progress refine mk_key.on ?_ rfl | split | dsimp only

theorem loadFirmware_moves {a0 a1} {s : State} : Moves 0x200001 s (loadFirmware a0 a1 s) := by
  unfold loadFirmware
  with_reducible
    repeat' first
      | exact .refl | assumption
      | (extract_lets +onlyGivenNames x; first | (refine .cut (x := x) ?_ ?_; (on_goal 1 => intro _; clear_value x); (on_goal 2 => subst x)) | subst x)
      | refine (forEach_moves (m := 0x200001) (fun _ _ => ?_)).step ?_ | refine setPage_moves.on ?_ rfl | refine memWrite_moves.on ?_ rfl

theorem bootFromImage_moves {a0 a1} {s : State} : Moves 0x1FBFFB71 s (bootFromImage a0 a1 s) := by
  unfold bootFromImage
  with_reducible
    repeat' first
      | exact .refl | assumption
      | (extract_lets +onlyGivenNames x; first | (refine .cut (x := x) ?_ ?_; (on_goal 1 => intro _; clear_value x); (on_goal 2 => subst x)) | subst x)
      | refine bootFail_moves.on ?_ rfl | refine put_moves.on ?_ rfl | refine loadFirmware_moves.on ?_ rfl | refine flag_moves.on ?_ rfl
      | refine passKek_moves.on ?_ rfl | refine writeBootRecord_moves.on ?_ rfl | refine setReg_moves.on ?_ rfl
      | fail_if_no_progress refine mk_trc.on ?_ rfl | split

theorem execTrustBoot_moves {a0 a1} {s : State} : MovesR 0x1FBFFB71 s (execTrustBoot a0 a1 s) := by
  unfold execTrustBoot
  with_reducible
    repeat' first
      | exact .refl | assumption | exact .fault | refine .next ?_
      | (extract_lets +onlyGivenNames x; first | (refine .cut (x := x) ?_ ?_; (on_goal 1 => intro _; clear_value x); (on_goal 2 => subst x)) | subst x)
      | refine bootToImage_moves.on ?_ rfl | refine bootFromImage_moves.on ?_ rfl | split

theorem execBadFrame_moves {s : State} : MovesR 0x8000081 s (execBadFrame s) := by
  unfold execBadFrame
  with_reducible
    repeat' first
      | exact .refl | assumption | exact .fault | refine .next ?_
      | (extract_lets +onlyGivenNames x; first | (refine .cut (x := x) ?_ ?_; (on_goal 1 => intro _; clear_value x); (on_goal 2 => subst x)) | subst x)
      | refine reply_moves.on ?_ rfl | refine count_moves.on ?_ rfl

theorem execUnknownCommand_moves {a0 a1} {s : State} : MovesR 0x8000080 s (execUnknownCommand a0 a1 s) := by
  unfold execUnknownCommand
  with_reducible
    repeat' first
      | exact .refl | assumption | exact .fault | refine .next ?_ | refine reply_moves.on ?_ rfl

theorem execIdent_moves {a0} {s : State} : MovesR 0x8000080 s (execIdent a0 s) := by
  unfold execIdent
  with_reducible
    repeat' first
      | exact .refl | assumption | exact .fault | refine .next ?_ | refine (cuhar_moves (m := 0x8000080) rfl (fun _ => ?_)).step ?_
      | refine reply_moves.on ?_ rfl | dsimp only

theorem execChallenge_moves {a0} {s : State} : MovesR 0x180000C0 s (execChallenge a0 s) := by
  unfold execChallenge
  with_reducible
    repeat' first
      | exact .refl | assumption | exact .fault | refine .next ?_
      | (extract_lets +onlyGivenNames x; first | (refine .cut (x := x) ?_ ?_; (on_goal 1 => intro _; clear_value x); (on_goal 2 => subst x)) | subst x)
      | refine (cuhar_moves (m := 0x180000C0) rfl (fun _ => ?_)).step ?_ | refine reply_moves.on ?_ rfl | refine free_moves.on ?_ rfl
      | refine (free_moves.get (by assumption)).on ?_ rfl | fail_if_no_progress refine mk_trc.on ?_ rfl | split

theorem execAuth_moves {a0 a1 a2 a3} {s : State} : MovesR 0x80009C1 s (execAuth a0 a1 a2 a3 s) := by
  unfold execAuth
  with_reducible
    repeat' first
      | exact .refl | assumption | exact .fault | refine .next ?_
      | (extract_lets +onlyGivenNames x; first | (refine .cut (x := x) ?_ ?_; (on_goal 1 => intro _; clear_value x); (on_goal 2 => subst x)) | subst x)
      | refine (cuhar_moves (m := 0x80009C1) rfl (fun _ => ?_)).step ?_ | refine reply_moves.on ?_ rfl | refine put_moves.on ?_ rfl
      | refine flag_moves.on ?_ rfl | fail_if_no_progress refine mk_trc.on ?_ rfl | split | dsimp only

theorem sessionEnd_moves {s : State} : Moves 0x41 s (sessionEnd s) := by
  unfold sessionEnd
  with_reducible
    repeat' first
      | exact .refl | assumption
      | (extract_lets +onlyGivenNames x; first | (refine .cut (x := x) ?_ ?_; (on_goal 1 => intro _; clear_value x); (on_goal 2 => subst x)) | subst x)
      | refine put_moves.on ?_ rfl | fail_if_no_progress refine mk_trc.on ?_ rfl

theorem execClose_moves {a0} {s : State} : MovesR 0x80000C1 s (execClose a0 s) := by
  unfold execClose
  with_reducible
    repeat' first
      | exact .refl | assumption | exact .fault | refine .next ?_ | refine reply_moves.on ?_ rfl | refine sessionEnd_moves.on ?_ rfl

theorem execResult_moves {a0} {s : State} : MovesR 0x8000080 s (execResult a0 s) := by
  unfold execResult
  with_reducible
    repeat' first
      | exact .refl | assumption | exact .fault | refine .next ?_ | refine (cuhar_moves (m := 0x8000080) rfl (fun _ => ?_)).step ?_
      | refine reply_moves.on ?_ rfl

theorem execSessionTimeout_moves {s : State} : MovesR 0x41 s (execSessionTimeout s) := by
  unfold execSessionTimeout
  with_reducible
    repeat' first
      | exact .refl | assumption | exact .fault | refine .next ?_ | refine sessionEnd_moves.on ?_ rfl

theorem execAlignmentLoss_moves {s : State} : MovesR 0xC1 s (execAlignmentLoss s) := by
  unfold execAlignmentLoss
  with_reducible
    repeat' first
      | exact .refl | assumption | exact .fault | refine .next ?_
      | (extract_lets +onlyGivenNames x; first | (refine .cut (x := x) ?_ ?_; (on_goal 1 => intro _; clear_value x); (on_goal 2 => subst x)) | subst x)
      | refine put_moves.on ?_ rfl | refine sessionEnd_moves.on ?_ rfl | fail_if_no_progress refine mk_svc.on ?_ rfl

theorem execAlignmentAcquired_moves {s : State} : MovesR 0x81 s (execAlignmentAcquired s) := by
  unfold execAlignmentAcquired
  with_reducible
    repeat' first
      | exact .refl | assumption | exact .fault | refine .next ?_
      | (extract_lets +onlyGivenNames x; first | (refine .cut (x := x) ?_ ?_; (on_goal 1 => intro _; clear_value x); (on_goal 2 => subst x)) | subst x)
      | refine put_moves.on ?_ rfl | fail_if_no_progress refine mk_svc.on ?_ rfl

theorem execCuharFlowControl_moves {a0} {s : State} : MovesR 0x8000081 s (execCuharFlowControl a0 s) := by
  unfold execCuharFlowControl
  with_reducible
    repeat' first
      | exact .refl | assumption | exact .fault | refine .next ?_
      | (extract_lets +onlyGivenNames x; first | (refine .cut (x := x) ?_ ?_; (on_goal 1 => intro _; clear_value x); (on_goal 2 => subst x)) | subst x)
      | refine put_moves.on ?_ rfl | refine emitAll_moves.on ?_ rfl | fail_if_no_progress refine mk_svc.on ?_ rfl | split

theorem svcHoldUpdate_moves {s : State} : Moves 0x8000080 s (svcHoldUpdate s) := by
  unfold svcHoldUpdate
  with_reducible
    repeat' first
      | exact .refl | assumption
      | (extract_lets +onlyGivenNames x; first | (refine .cut (x := x) ?_ ?_; (on_goal 1 => intro _; clear_value x); (on_goal 2 => subst x)) | subst x)
      | refine emit_moves.on ?_ rfl | fail_if_no_progress refine mk_svc.on ?_ rfl | split

theorem execFirmwareFrame_moves {a0 a1 a2} {s : State} : MovesR 0x8000880 s (execFirmwareFrame a0 a1 a2 s) := by
  unfold execFirmwareFrame
  with_reducible
    repeat' first
      | exact .refl | assumption | exact .fault | refine .next ?_
      | (extract_lets +onlyGivenNames x; first | (refine .cut (x := x) ?_ ?_; (on_goal 1 => intro _; clear_value x); (on_goal 2 => subst x)) | subst x)
      | refine (cuhar_moves (m := 0x8000880) rfl (fun _ => ?_)).step ?_ | refine svcHoldUpdate_moves.on ?_ rfl
      | refine (iff_moves (m := 0x8000880) (fun _ => ?_)).step ?_ | refine irq_moves.on ?_ rfl | fail_if_no_progress refine mk_svc.on ?_ rfl | split

theorem execFirmwareFrameTimeout_moves {s : State} : MovesR 0x8000080 s (execFirmwareFrameTimeout s) := by
  unfold execFirmwareFrameTimeout
  with_reducible
    repeat' first
      | exact .refl | assumption | exact .fault | refine .next ?_
      | (extract_lets +onlyGivenNames x; first | (refine .cut (x := x) ?_ ?_; (on_goal 1 => intro _; clear_value x); (on_goal 2 => subst x)) | subst x)
      | refine reply_moves.on ?_ rfl | fail_if_no_progress refine mk_svc.on ?_ rfl | split

theorem svcPop_moves {s : State} : Moves 0x8000080 s (svcPop s).2 := by
  unfold svcPop
  with_reducible
    repeat' first
      | exact .refl | assumption
      | (extract_lets +onlyGivenNames x; first | (refine .cut (x := x) ?_ ?_; (on_goal 1 => intro _; clear_value x); (on_goal 2 => subst x)) | subst x)
      | refine svcHoldUpdate_moves.on ?_ rfl | fail_if_no_progress refine mk_svc.on ?_ rfl | split | dsimp only

theorem svcPush_moves {a0} {s : State} : Moves 0x8000080 s (svcPush a0 s) := by
  unfold svcPush
  with_reducible
    repeat' first
      | exact .refl | assumption
      | (extract_lets +onlyGivenNames x; first | (refine .cut (x := x) ?_ ?_; (on_goal 1 => intro _; clear_value x); (on_goal 2 => subst x)) | subst x)
      | refine svcSend_moves.on ?_ rfl | fail_if_no_progress refine mk_svc.on ?_ rfl | split | dsimp only

theorem execRecordRead_moves {a0 a1} {s : State} : MovesR 0x8000080 s (execRecordRead a0 a1 s) := by
  unfold execRecordRead
  with_reducible
    repeat' first
      | exact .refl | assumption | exact .fault | refine .next ?_
      | (extract_lets +onlyGivenNames x; first | (refine .cut (x := x) ?_ ?_; (on_goal 1 => intro _; clear_value x); (on_goal 2 => subst x)) | subst x)
      | refine (cuhar_moves (m := 0x8000080) rfl (fun _ => ?_)).step ?_ | refine reply_moves.on ?_ rfl | split

theorem execQuote_moves {a0 a1} {s : State} : MovesR 0x80000C1 s (execQuote a0 a1 s) := by
  unfold execQuote
  with_reducible
    repeat' first
      | exact .refl | assumption | exact .fault | refine .next ?_
      | (extract_lets +onlyGivenNames x; first | (refine .cut (x := x) ?_ ?_; (on_goal 1 => intro _; clear_value x); (on_goal 2 => subst x)) | subst x)
      | refine (cuhar_moves (m := 0x80000C1) rfl (fun _ => ?_)).step ?_ | refine reply_moves.on ?_ rfl | refine put_moves.on ?_ rfl
      | fail_if_no_progress refine mk_trc.on ?_ rfl

theorem execQuoteDone_moves {s : State} : MovesR 0x41 s (execQuoteDone s) := by
  unfold execQuoteDone
  with_reducible
    repeat' first
      | exact .refl | assumption | exact .fault | refine .next ?_
      | (extract_lets +onlyGivenNames x; first | (refine .cut (x := x) ?_ ?_; (on_goal 1 => intro _; clear_value x); (on_goal 2 => subst x)) | subst x)
      | refine resultPost_moves.on ?_ rfl | fail_if_no_progress refine mk_trc.on ?_ rfl | split

theorem execQuoteRead_moves {a0} {s : State} : MovesR 0x8000080 s (execQuoteRead a0 s) := by
  unfold execQuoteRead
  with_reducible
    repeat' first
      | exact .refl | assumption | exact .fault | refine .next ?_
      | (extract_lets +onlyGivenNames x; first | (refine .cut (x := x) ?_ ?_; (on_goal 1 => intro _; clear_value x); (on_goal 2 => subst x)) | subst x)
      | refine (cuhar_moves (m := 0x8000080) rfl (fun _ => ?_)).step ?_ | refine reply_moves.on ?_ rfl | split

theorem stageWrite_moves {a0 a1} {s : State} : Moves 0x40 s (stageWrite a0 a1 s) := by
  unfold stageWrite
  with_reducible
    repeat' first
      | exact .refl | assumption | fail_if_no_progress refine mk_trc.on ?_ rfl | split

theorem execStageBegin_moves {a0 a1} {s : State} : MovesR 0x80000C1 s (execStageBegin a0 a1 s) := by
  unfold execStageBegin
  with_reducible
    repeat' first
      | exact .refl | assumption | exact .fault | refine .next ?_
      | (extract_lets +onlyGivenNames x; first | (refine .cut (x := x) ?_ ?_; (on_goal 1 => intro _; clear_value x); (on_goal 2 => subst x)) | subst x)
      | refine (cuhar_moves (m := 0x80000C1) rfl (fun _ => ?_)).step ?_ | refine reply_moves.on ?_ rfl | refine putBootState_moves.on ?_ rfl
      | refine setUpd_moves.on ?_ rfl | fail_if_no_progress refine mk_trc.on ?_ rfl | refine stageWrite_moves.on ?_ rfl | split | dsimp only

theorem execStageData_moves {a0 a1 a2} {s : State} : MovesR 0x80000C0 s (execStageData a0 a1 a2 s) := by
  unfold execStageData
  with_reducible
    repeat' first
      | exact .refl | assumption | exact .fault | refine .next ?_
      | (extract_lets +onlyGivenNames x; first | (refine .cut (x := x) ?_ ?_; (on_goal 1 => intro _; clear_value x); (on_goal 2 => subst x)) | subst x)
      | refine (cuhar_moves (m := 0x80000C0) rfl (fun _ => ?_)).step ?_ | refine reply_moves.on ?_ rfl | fail_if_no_progress refine mk_trc.on ?_ rfl
      | refine stageWrite_moves.on ?_ rfl | split | dsimp only

theorem execStageEnd_moves {a0} {s : State} : MovesR 0x80000C1 s (execStageEnd a0 s) := by
  unfold execStageEnd
  with_reducible
    repeat' first
      | exact .refl | assumption | exact .fault | refine .next ?_
      | (extract_lets +onlyGivenNames x; first | (refine .cut (x := x) ?_ ?_; (on_goal 1 => intro _; clear_value x); (on_goal 2 => subst x)) | subst x)
      | refine (cuhar_moves (m := 0x80000C1) rfl (fun _ => ?_)).step ?_ | refine reply_moves.on ?_ rfl | refine put_moves.on ?_ rfl
      | fail_if_no_progress refine mk_trc.on ?_ rfl | split

theorem execStageCheckDone_moves {a0} {s : State} : MovesR 0x841 s (execStageCheckDone a0 s) := by
  unfold execStageCheckDone
  with_reducible
    repeat' first
      | exact .refl | assumption | exact .fault | refine .next ?_
      | (extract_lets +onlyGivenNames x; first | (refine .cut (x := x) ?_ ?_; (on_goal 1 => intro _; clear_value x); (on_goal 2 => subst x)) | subst x)
      | refine putBootState_moves.on ?_ rfl | refine resultPost_moves.on ?_ rfl | refine mailbox_moves.on ?_ rfl | refine setUpd_moves.on ?_ rfl
      | refine put_moves.on ?_ rfl | fail_if_no_progress refine mk_trc.on ?_ rfl | split

theorem execArm_moves {a0 a1 a2 a3} {s : State} : MovesR 0x80008C1 s (execArm a0 a1 a2 a3 s) := by
  unfold execArm
  with_reducible
    repeat' first
      | exact .refl | assumption | exact .fault | refine .next ?_
      | (extract_lets +onlyGivenNames x; first | (refine .cut (x := x) ?_ ?_; (on_goal 1 => intro _; clear_value x); (on_goal 2 => subst x)) | subst x)
      | refine (cuhar_moves (m := 0x80008C1) rfl (fun _ => ?_)).step ?_ | refine reply_moves.on ?_ rfl | refine putBootState_moves.on ?_ rfl
      | refine setReg_moves.on ?_ rfl | refine setPair_moves.on ?_ rfl | refine mailbox_moves.on ?_ rfl | refine setUpd_moves.on ?_ rfl | split

theorem disarmed_moves {s : State} : Moves 0x41 s (disarmed s) := by
  unfold disarmed
  with_reducible
    repeat' first
      | exact .refl | assumption
      | (extract_lets +onlyGivenNames x; first | (refine .cut (x := x) ?_ ?_; (on_goal 1 => intro _; clear_value x); (on_goal 2 => subst x)) | subst x)
      | refine putBootState_moves.on ?_ rfl | refine setReg_moves.on ?_ rfl | refine setPair_moves.on ?_ rfl

theorem execDisarm_moves {a0} {s : State} : MovesR 0x80008C1 s (execDisarm a0 s) := by
  unfold execDisarm
  with_reducible
    repeat' first
      | exact .refl | assumption | exact .fault | refine .next ?_ | refine (cuhar_moves (m := 0x80008C1) rfl (fun _ => ?_)).step ?_
      | refine reply_moves.on ?_ rfl | refine mailbox_moves.on ?_ rfl | refine setUpd_moves.on ?_ rfl | refine disarmed_moves.on ?_ rfl | split

theorem execRevert_moves {a0} {s : State} : MovesR 0x1CB8EBD1 s (execRevert a0 s) := by
  unfold execRevert
  with_reducible
    repeat' first
      | exact .refl | assumption | exact .fault | refine .next ?_
      | (extract_lets +onlyGivenNames x; first | (refine .cut (x := x) ?_ ?_; (on_goal 1 => intro _; clear_value x); (on_goal 2 => subst x)) | subst x)
      | refine (cuhar_moves (m := 0x1CB8EBD1) rfl (fun _ => ?_)).step ?_ | refine startConfigReset_moves.on ?_ rfl | refine reply_moves.on ?_ rfl
      | refine putBootState_moves.on ?_ rfl | split

theorem execHold_moves {a0} {s : State} : MovesR 0x1F9FEBB1 s (execHold a0 s) := by
  unfold execHold
  with_reducible
    repeat' first
      | exact .refl | assumption | exact .fault | refine .next ?_ | refine (cuhar_moves (m := 0x1F9FEBB1) rfl (fun _ => ?_)).step ?_
      | refine reply_moves.on ?_ rfl | refine settle_moves.on ?_ rfl | refine cond_moves.on ?_ rfl

theorem execProvision_moves {a0 a1} {s : State} : MovesR 0x80010C1 s (execProvision a0 a1 s) := by
  unfold execProvision
  refine .next (cuhar_moves (m := 0x80010C1) rfl (fun t => ?_))
  split
  · exact reply_moves.wide rfl
  · refine reply_moves.on ?_ rfl
    dsimp only
    split
    · exact mk_key.on (put_moves.on (mk_trc.wide rfl) rfl) rfl
    · exact put_moves.on (mk_trc.wide rfl) rfl

theorem execActivationDue_moves {s : State} : MovesR 0x801 s (execActivationDue s) := by
  unfold execActivationDue
  with_reducible
    repeat' first
      | exact .refl | assumption | exact .fault | refine .next ?_ | refine mailbox_moves.on ?_ rfl | refine setUpd_moves.on ?_ rfl | split

theorem windowMissedEff_moves {s : State} : Moves 0x841 s (windowMissedEff s) := by
  unfold windowMissedEff
  with_reducible
    repeat' first
      | exact .refl | assumption | refine mailbox_moves.on ?_ rfl | refine put_moves.on ?_ rfl | refine setUpd_moves.on ?_ rfl
      | refine disarmed_moves.on ?_ rfl

theorem execWindowMissed_moves {s : State} : MovesR 0x841 s (execWindowMissed s) := by
  unfold execWindowMissed
  with_reducible
    repeat' first
      | exact .refl | assumption | exact .fault | refine .next ?_ | refine windowMissedEff_moves.on ?_ rfl | split

theorem goEff_moves {s : State} : Moves 0x1CB8EB51 s (goEff s) := by
  unfold goEff
  with_reducible
    repeat' first
      | exact .refl | assumption
      | (extract_lets +onlyGivenNames x; first | (refine .cut (x := x) ?_ ?_; (on_goal 1 => intro _; clear_value x); (on_goal 2 => subst x)) | subst x)
      | refine windowMissedEff_moves.on ?_ rfl | refine disarmed_moves.on ?_ rfl | refine setUpd_moves.on ?_ rfl | refine putBootState_moves.on ?_ rfl
      | refine startConfigReset_moves.on ?_ rfl | refine put_moves.on ?_ rfl | split

theorem execGo_moves {s : State} : MovesR 0x1CB8EB51 s (execGo s) := by
  unfold execGo
  with_reducible
    repeat' first
      | exact .refl | assumption | exact .fault | refine .next ?_ | refine goEff_moves.on ?_ rfl

theorem installKeyTable_moves {a0} {s : State} : Moves 0x941 s (installKeyTable a0 s) := by
  unfold installKeyTable
  with_reducible
    repeat' first
      | exact .refl | assumption
      | (extract_lets +onlyGivenNames x; first | (refine .cut (x := x) ?_ ?_; (on_goal 1 => intro _; clear_value x); (on_goal 2 => subst x)) | subst x)
      | refine putBootState_moves.on ?_ rfl | refine flag_moves.on ?_ rfl | fail_if_no_progress refine mk_trc.on ?_ rfl | split

theorem confirmEff_moves {s : State} : Moves 0x941 s (confirmEff s) := by
  unfold confirmEff
  with_reducible
    repeat' first
      | exact .refl | assumption
      | (extract_lets +onlyGivenNames x; first | (refine .cut (x := x) ?_ ?_; (on_goal 1 => intro _; clear_value x); (on_goal 2 => subst x)) | subst x)
      | refine putBootState_moves.on ?_ rfl | refine put_moves.on ?_ rfl | refine setUpd_moves.on ?_ rfl | refine installKeyTable_moves.on ?_ rfl
      | split | dsimp only

theorem execConfirm_moves {s : State} : MovesR 0x941 s (execConfirm s) := by
  unfold execConfirm
  with_reducible
    repeat' first
      | exact .refl | assumption | exact .fault | refine .next ?_ | refine confirmEff_moves.on ?_ rfl

theorem execTrngHealthFail_moves {a0} {s : State} : MovesR 0x941 s (execTrngHealthFail a0 s) := by
  unfold execTrngHealthFail
  with_reducible
    repeat' first
      | exact .refl | assumption | exact .fault | refine .next ?_
      | (extract_lets +onlyGivenNames x; first | (refine .cut (x := x) ?_ ?_; (on_goal 1 => intro _; clear_value x); (on_goal 2 => subst x)) | subst x)
      | refine flag_moves.on ?_ rfl | fail_if_no_progress refine mk_trc.on ?_ rfl | split

theorem afterOutcomes_moves {s : State} : Moves 0x1FBFEB31 s (afterOutcomes s) := by
  unfold afterOutcomes
  with_reducible
    repeat' first
      | exact .refl | assumption | refine settle_moves.on ?_ rfl | refine gatherOutcomes_moves.on ?_ rfl

theorem execGateClose_moves {a0 a1 a2} {s : State} : MovesR 0x1FBFEB31 s (execGateClose a0 a1 a2 s) := by
  unfold execGateClose
  with_reducible
    repeat' first
      | exact .refl | assumption | exact .fault | refine .next ?_ | refine afterOutcomes_moves.on ?_ rfl | refine gateCloseEff_moves.on ?_ rfl

theorem execDecodeDone_moves {a0 a1} {s : State} : MovesR 0x1FBFEB31 s (execDecodeDone a0 a1 s) := by
  unfold execDecodeDone
  with_reducible
    repeat' first
      | exact .refl | assumption | exact .fault | refine .next ?_ | refine afterOutcomes_moves.on ?_ rfl | refine decodeDoneEff_moves.on ?_ rfl

theorem execLadderAttemptEnd_moves {a0 a1} {s : State} : MovesR 0x1FBFEB31 s (execLadderAttemptEnd a0 a1 s) := by
  unfold execLadderAttemptEnd
  with_reducible
    repeat' first
      | exact .refl | assumption | exact .fault | refine .next ?_ | refine afterOutcomes_moves.on ?_ rfl | refine ladderAttemptEndEff_moves.on ?_ rfl

theorem execVerifyOutcome_moves {a0 a1} {s : State} : MovesR 0x1FBFEB31 s (execVerifyOutcome a0 a1 s) := by
  unfold execVerifyOutcome
  with_reducible
    repeat' first
      | exact .refl | assumption | exact .fault | refine .next ?_ | refine afterOutcomes_moves.on ?_ rfl | refine verifyOutcomeEff_moves.on ?_ rfl

theorem execInterruptedRewrite_moves {a0} {s : State} : MovesR 0x1FBFEB31 s (execInterruptedRewrite a0 s) := by
  unfold execInterruptedRewrite
  with_reducible
    repeat' first
      | exact .refl | assumption | exact .fault | refine .next ?_ | refine afterOutcomes_moves.on ?_ rfl
      | refine interruptedRewriteEff_moves.on ?_ rfl

theorem faultedJob_moves {a0} {s : State} : Moves 0x16B01 s (faultedJob a0 s) := by
  unfold faultedJob
  with_reducible
    repeat' first
      | exact .refl | assumption | refine onLn_moves.on ?_ rfl | refine requestEngine_moves.on ?_ rfl | refine slipSector_moves.on ?_ rfl
      | refine spoilAttempt_moves.on ?_ rfl | refine tally_moves.on ?_ rfl | split | dsimp only

theorem execEngineFault_moves {a0} {s : State} : MovesR 0x1FBFEB31 s (execEngineFault a0 s) := by
  unfold execEngineFault
  with_reducible
    repeat' first
      | exact .refl | assumption | exact .fault | refine .next ?_
      | (extract_lets +onlyGivenNames x; first | (refine .cut (x := x) ?_ ?_; (on_goal 1 => intro _; clear_value x); (on_goal 2 => subst x)) | subst x)
      | refine irq_moves.on ?_ rfl | refine count_moves.on ?_ rfl | refine setEngine_moves.on ?_ rfl
      | refine (forEach_moves (m := 0x1FBFEB31) (fun _ _ => ?_)).step ?_ | refine loseUnit0_moves.on ?_ rfl | refine levelTokens_moves.on ?_ rfl
      | refine faultedJob_moves.on ?_ rfl | split | dsimp only

theorem bndRow_moves {m : Nat} {f0} {s : State} (hm : 0x1F9FEB31 ||| m = m) (hf0 : ∀  t, Moves m t (f0  t)) : MovesR m s (bndRow f0 s) := by
  unfold bndRow
  with_reducible
    repeat' first
      | exact .refl | assumption | exact hf0 .. | refine (hf0 ..).step ?_ | exact .fault | refine .next ?_ | refine settle_moves.on ?_ (sub_of hm rfl)
      | split

theorem execJournalFlush_moves {a0} {s : State} : MovesR 0x1F9FEB31 s (execJournalFlush a0 s) := by
  unfold execJournalFlush
  with_reducible
    repeat' first
      | exact .refl | assumption | exact .fault | refine .next ?_ | refine (bndRow_moves (m := 0x1F9FEB31) rfl (fun _ => ?_)).on ?_ (Nat.or_self _)
      | refine startFlush_moves.on ?_ rfl | split

theorem execCheckpointPlaced_moves {s : State} : MovesR 0x1F9FFB31 s (execCheckpointPlaced s) := by
  unfold execCheckpointPlaced
  with_reducible
    repeat' first
      | exact .refl | assumption | exact .fault | refine .next ?_ | refine (bndRow_moves (m := 0x1F9FFB31) rfl (fun _ => ?_)).on ?_ (Nat.or_self _)
      | refine erasesPlaced_moves.on ?_ rfl | refine checkpointPlaced_moves.on ?_ rfl

theorem bndFlushCommand_moves {s : State} : Moves 0x8980001 s (bndFlushCommand s) := by
  unfold bndFlushCommand
  with_reducible
    repeat' first
      | exact .refl | assumption
      | (extract_lets +onlyGivenNames x; first | (refine .cut (x := x) ?_ ?_; (on_goal 1 => intro _; clear_value x); (on_goal 2 => subst x)) | subst x)
      | refine startFlush_moves.on ?_ rfl | refine onBnd_moves.on ?_ rfl | split

theorem execFlushCommand_moves {s : State} : MovesR 0x8980919 s (execFlushCommand s) := by
  unfold execFlushCommand
  with_reducible
    repeat' first
      | exact .refl | assumption | exact .fault | refine .next ?_ | refine (command_moves (m := 0x8980919) rfl (fun _ => ?_)).step ?_
      | refine bndFlushCommand_moves.on ?_ rfl | split

theorem execImageCommand_moves {s : State} : MovesR 0x180919 s (execImageCommand s) := by
  unfold execImageCommand
  with_reducible
    repeat' first
      | exact .refl | assumption | exact .fault | refine .next ?_ | refine (command_moves (m := 0x180919) rfl (fun _ => ?_)).step ?_
      | refine startImage_moves.on ?_ rfl | split

theorem execMapImage_moves {s : State} : MovesR 0x1F9FEB31 s (execMapImage s) := by
  unfold execMapImage
  with_reducible
    repeat' first
      | exact .refl | assumption | exact .fault | refine .next ?_ | refine (bndRow_moves (m := 0x1F9FEB31) rfl (fun _ => ?_)).on ?_ (Nat.or_self _)
      | refine startImage_moves.on ?_ rfl | split

theorem execMapImagePlaced_moves {s : State} : MovesR 0x1F9FEB31 s (execMapImagePlaced s) := by
  unfold execMapImagePlaced
  with_reducible
    repeat' first
      | exact .refl | assumption | exact .fault | refine .next ?_ | refine (bndRow_moves (m := 0x1F9FEB31) rfl (fun _ => ?_)).on ?_ (Nat.or_self _)
      | refine imagePlaced_moves.on ?_ rfl

theorem execBandRewriteBegin_moves {a0} {s : State} : MovesR 0x1F9FEB31 s (execBandRewriteBegin a0 s) := by
  unfold execBandRewriteBegin
  with_reducible
    repeat' first
      | exact .refl | assumption | exact .fault | refine .next ?_
      | (extract_lets +onlyGivenNames x; first | (refine .cut (x := x) ?_ ?_; (on_goal 1 => intro _; clear_value x); (on_goal 2 => subst x)) | subst x)
      | refine (bndRow_moves (m := 0x1F9FEB31) rfl (fun _ => ?_)).on ?_ (Nat.or_self _) | refine onBnd_moves.on ?_ rfl
      | refine beginRewrite_moves.on ?_ rfl | split

theorem execBandSwitch_moves {a0} {s : State} : MovesR 0x1FBFEB31 s (execBandSwitch a0 s) := by
  unfold execBandSwitch
  with_reducible
    repeat' first
      | exact .refl | assumption | exact .fault | refine .next ?_
      | (extract_lets +onlyGivenNames x; first | (refine .cut (x := x) ?_ ?_; (on_goal 1 => intro _; clear_value x); (on_goal 2 => subst x)) | subst x)
      | refine (bndRow_moves (m := 0x1FBFEB31) rfl (fun _ => ?_)).on ?_ (Nat.or_self _) | refine showRewrites_moves.on ?_ rfl
      | refine switchBand_moves.on ?_ rfl | split

theorem execRelocation_moves {s : State} : MovesR 0x1FBFEB31 s (execRelocation s) := by
  unfold execRelocation
  with_reducible
    repeat' first
      | exact .refl | assumption | exact .fault | refine .next ?_
      | (extract_lets +onlyGivenNames x; first | (refine .cut (x := x) ?_ ?_; (on_goal 1 => intro _; clear_value x); (on_goal 2 => subst x)) | subst x)
      | refine (bndRow_moves (m := 0x1FBFEB31) rfl (fun _ => ?_)).on ?_ (Nat.or_self _) | refine (relocate_moves.get (by assumption)).on ?_ rfl
      | refine relocate_moves.on ?_ rfl | fail_if_no_progress refine mk_reports.on ?_ rfl | split

theorem execMapRebuild_moves {a0 a1} {s : State} : MovesR 0x1F9FEB31 s (execMapRebuild a0 a1 s) := by
  unfold execMapRebuild
  with_reducible
    repeat' first
      | exact .refl | assumption | exact .fault | refine .next ?_ | refine (bndRow_moves (m := 0x1F9FEB31) rfl (fun _ => ?_)).on ?_ (Nat.or_self _)
      | refine beginRebuild_moves.on ?_ rfl | split

theorem execRegionScan_moves {a0 a1 a2} {s : State} : MovesR 0x1F9FEB31 s (execRegionScan a0 a1 a2 s) := by
  unfold execRegionScan
  with_reducible
    repeat' first
      | exact .refl | assumption | exact .fault | refine .next ?_ | refine (bndRow_moves (m := 0x1F9FEB31) rfl (fun _ => ?_)).on ?_ (Nat.or_self _)
      | refine scanRegion_moves.on ?_ rfl | split

theorem execRebuildReady_moves {s : State} : MovesR 0x1FBFFB31 s (execRebuildReady s) := by
  unfold execRebuildReady
  with_reducible
    repeat' first
      | exact .refl | assumption | exact .fault | refine .next ?_ | refine (bndRow_moves (m := 0x1FBFFB31) rfl (fun _ => ?_)).on ?_ (Nat.or_self _)
      | refine eraseResume_moves.on ?_ rfl | refine finishRebuild_moves.on ?_ rfl | split

theorem execRangeRebuild_moves {a0} {s : State} : MovesR 0x1F9FEB31 s (execRangeRebuild a0 s) := by
  unfold execRangeRebuild
  with_reducible
    repeat' first
      | exact .refl | assumption | exact .fault | refine .next ?_
      | (extract_lets +onlyGivenNames x; first | (refine .cut (x := x) ?_ ?_; (on_goal 1 => intro _; clear_value x); (on_goal 2 => subst x)) | subst x)
      | refine (bndRow_moves (m := 0x1F9FEB31) rfl (fun _ => ?_)).on ?_ (Nat.or_self _) | refine putBndState_moves.on ?_ rfl
      | refine onBnd_moves.on ?_ rfl | refine flag_moves.on ?_ rfl | split

theorem execCheckpointOverdue_moves {s : State} : MovesR 0x1F9FEB31 s (execCheckpointOverdue s) := by
  unfold execCheckpointOverdue
  with_reducible
    repeat' first
      | exact .refl | assumption | exact .fault | refine .next ?_ | refine (bndRow_moves (m := 0x1F9FEB31) rfl (fun _ => ?_)).on ?_ (Nat.or_self _)
      | refine put_moves.on ?_ rfl | split

theorem execCollectionLevel_moves {a0} {s : State} : MovesR 0x1F9FEB31 s (execCollectionLevel a0 s) := by
  unfold execCollectionLevel
  with_reducible
    repeat' first
      | exact .refl | assumption | exact .fault | refine .next ?_ | refine (bndRow_moves (m := 0x1F9FEB31) rfl (fun _ => ?_)).on ?_ (Nat.or_self _)
      | refine evalLevel_moves.on ?_ rfl | split

theorem execCollectionWork_moves {a0} {s : State} : MovesR 0x1F9FEB31 s (execCollectionWork a0 s) := by
  unfold execCollectionWork
  with_reducible
    repeat' first
      | exact .refl | assumption | exact .fault | refine .next ?_ | refine (bndRow_moves (m := 0x1F9FEB31) rfl (fun _ => ?_)).on ?_ (Nat.or_self _)
      | refine collect_moves.on ?_ rfl | split

theorem execMigration_moves {a0} {s : State} : MovesR 0x1F9FEB31 s (execMigration a0 s) := by
  unfold execMigration
  with_reducible
    repeat' first
      | exact .refl | assumption | exact .fault | refine .next ?_ | refine (bndRow_moves (m := 0x1F9FEB31) rfl (fun _ => ?_)).on ?_ (Nat.or_self _)
      | refine migrate_moves.on ?_ rfl | split

theorem execPatrolPass_moves {a0} {s : State} : MovesR 0x1F9FEB31 s (execPatrolPass a0 s) := by
  unfold execPatrolPass
  with_reducible
    repeat' first
      | exact .refl | assumption | exact .fault | refine .next ?_ | refine (bndRow_moves (m := 0x1F9FEB31) rfl (fun _ => ?_)).on ?_ (Nat.or_self _)
      | refine beginPass_moves.on ?_ rfl

theorem execPatrolRequest_moves {a0} {s : State} : MovesR 0x1F9FEB31 s (execPatrolRequest a0 s) := by
  unfold execPatrolRequest
  with_reducible
    repeat' first
      | exact .refl | assumption | exact .fault | refine .next ?_ | refine (bndRow_moves (m := 0x1F9FEB31) rfl (fun _ => ?_)).on ?_ (Nat.or_self _)
      | refine patrolNext_moves.on ?_ rfl

theorem readonlyStep_moves {s : State} : Moves 0x380001 s (readonlyStep s) := by
  unfold readonlyStep
  with_reducible
    repeat' first
      | exact .refl | assumption
      | (extract_lets +onlyGivenNames x; first | (refine .cut (x := x) ?_ ?_; (on_goal 1 => intro _; clear_value x); (on_goal 2 => subst x)) | subst x)
      | refine onBnd_moves.on ?_ rfl | refine (forEach_moves (m := 0x380001) (fun _ _ => ?_)).step ?_ | refine destage_moves.on ?_ rfl
      | refine forceFlush_moves.on ?_ rfl | refine startImage_moves.on ?_ rfl | split

theorem execReadonlyEntry_moves {s : State} : MovesR 0x1FBFEB31 s (execReadonlyEntry s) := by
  unfold execReadonlyEntry
  with_reducible
    repeat' first
      | exact .refl | assumption | exact .fault | refine .next ?_ | refine (bndRow_moves (m := 0x1FBFEB31) rfl (fun _ => ?_)).on ?_ (Nat.or_self _)
      | refine readonlyStep_moves.on ?_ rfl | split

theorem arriveFrom_moves {a0} {s : State} : Moves 0x8B80901 s (arriveFrom a0 s) := by
  unfold arriveFrom
  with_reducible
    repeat' first
      | exact .refl | assumption
      | (extract_lets +onlyGivenNames x; first | (refine .cut (x := x) ?_ ?_; (on_goal 1 => intro _; clear_value x); (on_goal 2 => subst x)) | subst x)
      | refine arriveWaiting_moves.on ?_ rfl | refine destage_moves.on ?_ rfl | refine rewriteNext_moves.on ?_ rfl | refine request_moves.on ?_ rfl
      | refine count_moves.on ?_ rfl | refine calibrate_moves.on ?_ rfl | split

theorem execWorkItemArrival_moves {a0} {s : State} : MovesR 0x1FBFEB31 s (execWorkItemArrival a0 s) := by
  unfold execWorkItemArrival
  with_reducible
    repeat' first
      | exact .refl | assumption | exact .fault | refine .next ?_ | refine settle_moves.on ?_ rfl | refine arriveFrom_moves.on ?_ rfl

theorem execRelayDecision_moves {a0} {s : State} : MovesR 0x1FBFEB31 s (execRelayDecision a0 s) := by
  unfold execRelayDecision
  with_reducible
    repeat' first
      | exact .refl | assumption | exact .fault | refine .next ?_
      | (extract_lets +onlyGivenNames x; first | (refine .cut (x := x) ?_ ?_; (on_goal 1 => intro _; clear_value x); (on_goal 2 => subst x)) | subst x)
      | refine settle_moves.on ?_ rfl | refine decide__moves.on ?_ rfl | refine gatherOutcomes_moves.on ?_ rfl | refine onSv_moves.on ?_ rfl
      | dsimp only

theorem execSlip_moves {a0} {s : State} : MovesR 0x84000 s (execSlip a0 s) := by
  unfold execSlip
  with_reducible
    repeat' first
      | exact .refl | assumption | exact .fault | refine .next ?_ | refine (onEvent_moves (m := 0x84000) rfl (fun _ _ _ => ?_)).step ?_
      | refine requeueSlip_moves.on ?_ rfl | dsimp only

theorem execOffsetReq_moves {a0} {s : State} : MovesR 0x8C901 s (execOffsetReq a0 s) := by
  unfold execOffsetReq
  with_reducible
    repeat' first
      | exact .refl | assumption | exact .fault | refine .next ?_ | refine (onEvent_moves (m := 0x8C901) rfl (fun _ _ _ => ?_)).step ?_
      | refine offsetTarget_moves.on ?_ rfl | dsimp only

theorem execTrackDone_moves {a0} {s : State} : MovesR 0x1FBFEB31 s (execTrackDone a0 s) := by
  unfold execTrackDone
  with_reducible
    repeat' first
      | exact .refl | assumption | exact .fault | refine .next ?_
      | (extract_lets +onlyGivenNames x; first | (refine .cut (x := x) ?_ ?_; (on_goal 1 => intro _; clear_value x); (on_goal 2 => subst x)) | subst x)
      | refine afterOutcomes_moves.on ?_ rfl | refine (onEvent_moves (m := 0x1FBFEB31) rfl (fun _ _ _ => ?_)).step ?_
      | refine trackDone_moves.on ?_ rfl | dsimp only

theorem execLadder_moves {a0} {s : State} : MovesR 0x4000 s (execLadder a0 s) := by
  unfold execLadder
  with_reducible
    repeat' first
      | exact .refl | assumption | exact .fault | refine .next ?_ | refine (onEvent_moves (m := 0x4000) rfl (fun _ _ _ => ?_)).step ?_

theorem execRewrite_moves {a0} {s : State} : MovesR 0xE984901 s (execRewrite a0 s) := by
  unfold execRewrite
  with_reducible
    repeat' first
      | exact .refl | assumption | exact .fault | refine .next ?_ | refine (onEvent_moves (m := 0xE984901) rfl (fun _ _ _ => ?_)).step ?_
      | refine passReport_moves.on ?_ rfl | dsimp only

theorem execRelocate_moves {a0} {s : State} : MovesR 0xE984901 s (execRelocate a0 s) := by
  unfold execRelocate
  with_reducible
    repeat' first
      | exact .refl | assumption | exact .fault | refine .next ?_ | refine (onEvent_moves (m := 0xE984901) rfl (fun _ _ _ => ?_)).step ?_
      | refine passRelocate_moves.on ?_ rfl | dsimp only

theorem passSquelch_moves {a0} {s : State} : Moves 0x4100001 s (passSquelch a0 s) := by
  unfold passSquelch
  with_reducible
    repeat' first
      | exact .refl | assumption
      | (extract_lets +onlyGivenNames x; first | (refine .cut (x := x) ?_ ?_; (on_goal 1 => intro _; clear_value x); (on_goal 2 => subst x)) | subst x)
      | refine disturbTrack_moves.on ?_ rfl | fail_if_no_progress refine mk_reports.on ?_ rfl | split | dsimp only

theorem execSquelch_moves {a0} {s : State} : MovesR 0x4104001 s (execSquelch a0 s) := by
  unfold execSquelch
  with_reducible
    repeat' first
      | exact .refl | assumption | exact .fault | refine .next ?_ | refine (onEvent_moves (m := 0x4104001) rfl (fun _ _ _ => ?_)).step ?_
      | refine passSquelch_moves.on ?_ rfl

theorem execVfyMiss_moves {a0} {s : State} : MovesR 0x4000 s (execVfyMiss a0 s) := by
  unfold execVfyMiss
  with_reducible
    repeat' first
      | exact .refl | assumption | exact .fault | refine .next ?_ | refine (onEvent_moves (m := 0x4000) rfl (fun _ _ _ => ?_)).step ?_

theorem execPreampFault_moves {a0} {s : State} : MovesR 0x4000 s (execPreampFault a0 s) := by
  unfold execPreampFault
  with_reducible
    repeat' first
      | exact .refl | assumption | exact .fault | refine .next ?_ | refine (onEvent_moves (m := 0x4000) rfl (fun _ _ _ => ?_)).step ?_

theorem execCalRange_moves {a0} {s : State} : MovesR 0x4000 s (execCalRange a0 s) := by
  unfold execCalRange
  with_reducible
    repeat' first
      | exact .refl | assumption | exact .fault | refine .next ?_ | refine (onEvent_moves (m := 0x4000) rfl (fun _ _ _ => ?_)).step ?_

theorem execLaneLost_moves {a0} {s : State} : MovesR 0x1FBFEB31 s (execLaneLost a0 s) := by
  unfold execLaneLost
  with_reducible
    repeat' first
      | exact .refl | assumption | exact .fault | refine .next ?_ | refine settle_moves.on ?_ rfl | refine laneLostItems_moves.on ?_ rfl | split

theorem execQuotaWindow_moves {s : State} : MovesR 0x80901 s (execQuotaWindow s) := by
  unfold execQuotaWindow
  with_reducible
    repeat' first
      | exact .refl | assumption | exact .fault | refine .next ?_ | refine quotaWindow_moves.on ?_ rfl

theorem execArbiterGrant_moves {a0 a1 a2} {s : State} : MovesR 0x1FBFEB31 s (execArbiterGrant a0 a1 a2 s) := by
  unfold execArbiterGrant
  with_reducible
    repeat' first
      | exact .refl | assumption | exact .fault | refine .next ?_
      | (extract_lets +onlyGivenNames x; first | (refine .cut (x := x) ?_ ?_; (on_goal 1 => intro _; clear_value x); (on_goal 2 => subst x)) | subst x)
      | refine chargeGrant_moves.on ?_ rfl | refine afterOutcomes_moves.on ?_ rfl | refine laneMove_moves.on ?_ rfl | refine laneLate_moves.on ?_ rfl
      | split | dsimp only

theorem wakeEnds_moves {s : State} : Moves 0x1000901 s (wakeEnds s) := by
  unfold wakeEnds
  with_reducible
    repeat' first
      | exact .refl | assumption
      | (extract_lets +onlyGivenNames x; first | (refine .cut (x := x) ?_ ?_; (on_goal 1 => intro _; clear_value x); (on_goal 2 => subst x)) | subst x)
      | refine onPwr_moves.on ?_ rfl | refine count_moves.on ?_ rfl | refine flag_moves.on ?_ rfl | split

theorem execIdleTick_moves {s : State} : MovesR 0x1F9FEB31 s (execIdleTick s) := by
  unfold execIdleTick
  with_reducible
    repeat' first
      | exact .refl | assumption | exact .fault | refine .next ?_
      | (extract_lets +onlyGivenNames x; first | (refine .cut (x := x) ?_ ?_; (on_goal 1 => intro _; clear_value x); (on_goal 2 => subst x)) | subst x)
      | refine wakeEnds_moves.on ?_ rfl | refine showNextEvent_moves.on ?_ rfl | refine settle_moves.on ?_ rfl | refine applyState_moves.on ?_ rfl
      | split

theorem execPreWake_moves {s : State} : MovesR 0x1F9FEB31 s (execPreWake s) := by
  unfold execPreWake
  with_reducible
    repeat' first
      | exact .refl | assumption | exact .fault | refine .next ?_
      | (extract_lets +onlyGivenNames x; first | (refine .cut (x := x) ?_ ?_; (on_goal 1 => intro _; clear_value x); (on_goal 2 => subst x)) | subst x)
      | refine showNextEvent_moves.on ?_ rfl | refine settle_moves.on ?_ rfl | refine applyState_moves.on ?_ rfl | refine onPwr_moves.on ?_ rfl
      | split

theorem execLaneRotation_moves {s : State} : MovesR 0x1010001 s (execLaneRotation s) := by
  unfold execLaneRotation
  with_reducible
    repeat' first
      | exact .refl | assumption | exact .fault | refine .next ?_ | refine rotateLanes_moves.on ?_ rfl | refine showPwr_moves.on ?_ rfl | split

theorem execCadenceWindow_moves {s : State} : MovesR 0x1F9FEB31 s (execCadenceWindow s) := by
  unfold execCadenceWindow
  with_reducible
    repeat' first
      | exact .refl | assumption | exact .fault | refine .next ?_ | refine settle_moves.on ?_ rfl | refine decideCadence_moves.on ?_ rfl

theorem thermal_moves {a0} {s : State} : Moves 0x1000901 s (thermal a0 s) := by
  unfold thermal
  with_reducible
    repeat' first
      | exact .refl | assumption
      | (extract_lets +onlyGivenNames x; first | (refine .cut (x := x) ?_ ?_; (on_goal 1 => intro _; clear_value x); (on_goal 2 => subst x)) | subst x)
      | refine onPwr_moves.on ?_ rfl | refine flag_moves.on ?_ rfl | refine put_moves.on ?_ rfl | refine cond_moves.on ?_ rfl | split

theorem execTemperatureSample_moves {a0} {s : State} : MovesR 0x1F9FEB31 s (execTemperatureSample a0 s) := by
  unfold execTemperatureSample
  with_reducible
    repeat' first
      | exact .refl | assumption | exact .fault | refine .next ?_
      | (extract_lets +onlyGivenNames x; first | (refine .cut (x := x) ?_ ?_; (on_goal 1 => intro _; clear_value x); (on_goal 2 => subst x)) | subst x)
      | refine put_moves.on ?_ rfl | refine settle_moves.on ?_ rfl | refine showPwr_moves.on ?_ rfl | refine thermal_moves.on ?_ rfl | split

theorem execRailLow_moves {s : State} : MovesR 0x1F9FEB31 s (execRailLow s) := by
  unfold execRailLow
  with_reducible
    repeat' first
      | exact .refl | assumption | exact .fault | refine .next ?_ | refine powerFail_moves.on ?_ rfl | refine flag_moves.on ?_ rfl

theorem servoLoses_moves {a0 a1} {s : State} : Moves 0x1FBFEB31 s (servoLoses a0 a1 s) := by
  unfold servoLoses
  with_reducible
    repeat' first
      | exact .refl | assumption | refine loseUnit0_moves.on ?_ rfl | refine svRetract_moves.on ?_ rfl | refine servoFault_moves.on ?_ rfl

theorem paceRow_moves {a0 a1} {s : State} : Moves 0x1F9FEB39 s (paceRow a0 a1 s) := by
  unfold paceRow
  with_reducible
    repeat' first
      | exact .refl | assumption | refine (write_moves (m := 0x1F9FEB39) rfl (fun _ => ?_)).step ?_ | refine settle_moves.on ?_ rfl
      | refine paceCommand_moves.on ?_ rfl | split

theorem enableRow_moves {a0 a1} {s : State} : Moves 0x1F9FEB39 s (enableRow a0 a1 s) := by
  unfold enableRow
  with_reducible
    repeat' first
      | exact .refl | assumption | refine (write_moves (m := 0x1F9FEB39) rfl (fun _ => ?_)).step ?_ | refine settle_moves.on ?_ rfl
      | refine svEnable_moves.on ?_ rfl | refine svDisable_moves.on ?_ rfl | split

theorem execServoEnable_moves {a0} {s : State} : MovesR 0x1F9FEB39 s (execServoEnable a0 s) := by
  unfold execServoEnable
  with_reducible
    repeat' first
      | exact .refl | assumption | exact .fault | refine .next ?_ | refine enableRow_moves.on ?_ rfl

theorem execServoDisable_moves {a0} {s : State} : MovesR 0x1F9FEB39 s (execServoDisable a0 s) := by
  unfold execServoDisable
  with_reducible
    repeat' first
      | exact .refl | assumption | exact .fault | refine .next ?_ | refine enableRow_moves.on ?_ rfl

theorem execLoad_moves {a0} {s : State} : MovesR 0x1F9FEB39 s (execLoad a0 s) := by
  unfold execLoad
  with_reducible
    repeat' first
      | exact .refl | assumption | exact .fault | refine .next ?_ | refine paceRow_moves.on ?_ rfl

theorem execUnload_moves {a0} {s : State} : MovesR 0x1F9FEB39 s (execUnload a0 s) := by
  unfold execUnload
  with_reducible
    repeat' first
      | exact .refl | assumption | exact .fault | refine .next ?_ | refine paceRow_moves.on ?_ rfl

theorem execRetract_moves {a0} {s : State} : MovesR 0x1F9FEB39 s (execRetract a0 s) := by
  unfold execRetract
  with_reducible
    repeat' first
      | exact .refl | assumption | exact .fault | refine .next ?_ | refine paceRow_moves.on ?_ rfl

theorem execClearFault_moves {a0} {s : State} : MovesR 0x1F9FEB39 s (execClearFault a0 s) := by
  unfold execClearFault
  with_reducible
    repeat' first
      | exact .refl | assumption | exact .fault | refine .next ?_ | refine paceRow_moves.on ?_ rfl

theorem countWindow_moves {a0} {s : State} : Moves 0x1000000 s (countWindow a0 s) := by
  unfold countWindow
  with_reducible
    repeat' first
      | exact .refl | assumption
      | (extract_lets +onlyGivenNames x; first | (refine .cut (x := x) ?_ ?_; (on_goal 1 => intro _; clear_value x); (on_goal 2 => subst x)) | subst x)
      | refine onPwr_moves.on ?_ rfl | split | dsimp only

theorem steerBauds_moves {a0 a1} {s : State} : Moves 0x1C086B01 s (steerBauds a0 a1 s) := by
  unfold steerBauds
  with_reducible
    repeat' first
      | exact .refl | assumption
      | (extract_lets +onlyGivenNames x; first | (refine .cut (x := x) ?_ ?_; (on_goal 1 => intro _; clear_value x); (on_goal 2 => subst x)) | subst x)
      | refine pllUnlock_moves.on ?_ rfl | split

theorem syncFound_moves {a0 a1 a2} {s : State} : Moves 0x1D08EB01 s (syncFound a0 a1 a2 s) := by
  unfold syncFound
  with_reducible
    repeat' first
      | exact .refl | assumption
      | (extract_lets +onlyGivenNames x; first | (refine .cut (x := x) ?_ ?_; (on_goal 1 => intro _; clear_value x); (on_goal 2 => subst x)) | subst x)
      | refine steerBauds_moves.on ?_ rfl | refine wedgeStart_moves.on ?_ rfl | refine onSv_moves.on ?_ rfl | refine put_moves.on ?_ rfl
      | refine setMotion_moves.on ?_ rfl | refine countWindow_moves.on ?_ rfl | split | dsimp only

theorem execSyncReference_moves {a0 a1 a2 a3} {s : State} : MovesR 0x1F9FEB31 s (execSyncReference a0 a1 a2 a3 s) := by
  unfold execSyncReference
  with_reducible
    repeat' first
      | exact .refl | assumption | exact .fault | refine .next ?_ | refine settle_moves.on ?_ rfl | refine syncFound_moves.on ?_ rfl | split

theorem countMiss_moves {a0} {s : State} : Moves 0x1C08EB01 s (countMiss a0 s) := by
  unfold countMiss
  with_reducible
    repeat' first
      | exact .refl | assumption
      | (extract_lets +onlyGivenNames x; first | (refine .cut (x := x) ?_ ?_; (on_goal 1 => intro _; clear_value x); (on_goal 2 => subst x)) | subst x)
      | refine onSv_moves.on ?_ rfl | refine count_moves.on ?_ rfl | refine servoFault_moves.on ?_ rfl | refine svRetract_moves.on ?_ rfl
      | refine tally_moves.on ?_ rfl | split | dsimp only

theorem execSyncWindowEnd_moves {a0 a1 a2} {s : State} : MovesR 0x1F9FEB31 s (execSyncWindowEnd a0 a1 a2 s) := by
  unfold execSyncWindowEnd
  with_reducible
    repeat' first
      | exact .refl | assumption | exact .fault | refine .next ?_
      | (extract_lets +onlyGivenNames x; first | (refine .cut (x := x) ?_ ?_; (on_goal 1 => intro _; clear_value x); (on_goal 2 => subst x)) | subst x)
      | refine wedgeStart_moves.on ?_ rfl | refine onSv_moves.on ?_ rfl | refine coastWedge_moves.on ?_ rfl | refine countMiss_moves.on ?_ rfl
      | refine put_moves.on ?_ rfl | refine settle_moves.on ?_ rfl | refine countWindow_moves.on ?_ rfl | split | dsimp only

theorem discardSample_moves {a0 a1} {s : State} : Moves 0x1C08EB01 s (discardSample a0 a1 s) := by
  unfold discardSample
  with_reducible
    repeat' first
      | exact .refl | assumption | refine coastWedge_moves.on ?_ rfl | refine count_moves.on ?_ rfl | refine servoFault_moves.on ?_ rfl

theorem burstPhase_moves {a0 a1} {s : State} : Moves 0x10000000 s (burstPhase a0 a1 s).2 := by
  unfold burstPhase
  with_reducible
    repeat' first
      | exact .refl | assumption | refine free_moves.on ?_ rfl | refine (free_moves.get (by assumption)).on ?_ rfl | split

theorem takeSample_moves {a0 a1 a2 a3 a4} {s : State} : Moves 0x1C09EB01 s (takeSample a0 a1 a2 a3 a4 s) := by
  unfold takeSample
  with_reducible
    repeat' first
      | exact .refl | assumption
      | (extract_lets +onlyGivenNames x; first | (refine .cut (x := x) ?_ ?_; (on_goal 1 => intro _; clear_value x); (on_goal 2 => subst x)) | subst x)
      | refine coastWedge_moves.on ?_ rfl | refine judgeWedge_moves.on ?_ rfl | refine discardSample_moves.on ?_ rfl
      | refine judgeSample_moves.on ?_ rfl | refine onSv_moves.on ?_ rfl | refine put_moves.on ?_ rfl
      | refine (burstPhase_moves.get (by assumption)).on ?_ rfl | refine burstPhase_moves.on ?_ rfl | split | dsimp only

theorem execServoSample_moves {a0 a1 a2 a3 a4 a5} {s : State} : MovesR 0x1FBFEB31 s (execServoSample a0 a1 a2 a3 a4 a5 s) := by
  unfold execServoSample
  with_reducible
    repeat' first
      | exact .refl | assumption | exact .fault | refine .next ?_
      | (extract_lets +onlyGivenNames x; first | (refine .cut (x := x) ?_ ?_; (on_goal 1 => intro _; clear_value x); (on_goal 2 => subst x)) | subst x)
      | refine afterOutcomes_moves.on ?_ rfl | refine takeSample_moves.on ?_ rfl | refine onSv_moves.on ?_ rfl | split | dsimp only

theorem convert_moves {a0 a1 a2} {s : State} : Moves 0x1 s (convert a0 a1 a2 s).2 := by
  unfold convert
  with_reducible
    repeat' first
      | exact .refl | assumption
      | (extract_lets +onlyGivenNames x; first | (refine .cut (x := x) ?_ ?_; (on_goal 1 => intro _; clear_value x); (on_goal 2 => subst x)) | subst x)
      | refine count_moves.on ?_ rfl | split | dsimp only

theorem retractFrame_moves {a0 a1} {s : State} : Moves 0x8020000 s (retractFrame a0 a1 s) := by
  unfold retractFrame
  with_reducible
    repeat' first
      | exact .refl | assumption
      | (extract_lets +onlyGivenNames x; first | (refine .cut (x := x) ?_ ?_; (on_goal 1 => intro _; clear_value x); (on_goal 2 => subst x)) | subst x)
      | refine sendMotion_moves.on ?_ rfl

theorem vcmFrame_moves {a0 a1} {s : State} : Moves 0x8028000 s (vcmFrame a0 a1 s) := by
  unfold vcmFrame
  with_reducible
    repeat' first
      | exact .refl | assumption
      | (extract_lets +onlyGivenNames x; first | (refine .cut (x := x) ?_ ?_; (on_goal 1 => intro _; clear_value x); (on_goal 2 => subst x)) | subst x)
      | refine sendMotion_moves.on ?_ rfl | refine onSv_moves.on ?_ rfl | dsimp only

theorem currentDiverges_moves {a0} {s : State} : Moves 0x8000 s (currentDiverges a0 s) := by
  unfold currentDiverges
  with_reducible
    repeat' first
      | exact .refl | assumption
      | (extract_lets +onlyGivenNames x; first | (refine .cut (x := x) ?_ ?_; (on_goal 1 => intro _; clear_value x); (on_goal 2 => subst x)) | subst x)
      | refine onSv_moves.on ?_ rfl | split

theorem currentCommand_moves {a0} {s : State} : Moves 0x8000 s (currentCommand a0 s).2 := by
  unfold currentCommand
  with_reducible
    repeat' first
      | exact .refl | assumption
      | (extract_lets +onlyGivenNames x; first | (refine .cut (x := x) ?_ ?_; (on_goal 1 => intro _; clear_value x); (on_goal 2 => subst x)) | subst x)
      | refine onSv_moves.on ?_ rfl | split | dsimp only

theorem currentTick_moves {a0} {s : State} : Moves 0x1FBFEB31 s (currentTick a0 s) := by
  unfold currentTick
  with_reducible
    repeat' first
      | exact .refl | assumption
      | (extract_lets +onlyGivenNames x; first | (refine .cut (x := x) ?_ ?_; (on_goal 1 => intro _; clear_value x); (on_goal 2 => subst x)) | subst x)
      | refine retractFrame_moves.on ?_ rfl | refine currentDiverges_moves.on ?_ rfl | refine servoLoses_moves.on ?_ rfl | refine onSv_moves.on ?_ rfl
      | refine vcmFrame_moves.on ?_ rfl | refine currentCommand_moves.on ?_ rfl | refine (currentCommand_moves.get (by assumption)).on ?_ rfl | split
      | dsimp only

theorem execCurrentTick_moves {a0 a1} {s : State} : MovesR 0x1FBFEB31 s (execCurrentTick a0 a1 s) := by
  unfold execCurrentTick
  with_reducible
    repeat' first
      | exact .refl | assumption | exact .fault | refine .next ?_ | refine currentTick_moves.on ?_ rfl | refine beatsPass_moves.on ?_ rfl

theorem microFrame_moves {a0} {s : State} : Moves 0x8020001 s (microFrame a0 s) := by
  unfold microFrame
  with_reducible
    repeat' first
      | exact .refl | assumption
      | (extract_lets +onlyGivenNames x; first | (refine .cut (x := x) ?_ ?_; (on_goal 1 => intro _; clear_value x); (on_goal 2 => subst x)) | subst x)
      | refine convert_moves.on ?_ rfl | refine (convert_moves.get (by assumption)).on ?_ rfl | refine sendMotion_moves.on ?_ rfl | split

theorem pushStatus_moves {a0} {s : State} : Moves 0x8901 s (pushStatus a0 s) := by
  unfold pushStatus
  with_reducible
    repeat' first
      | exact .refl | assumption
      | (extract_lets +onlyGivenNames x; first | (refine .cut (x := x) ?_ ?_; (on_goal 1 => intro _; clear_value x); (on_goal 2 => subst x)) | subst x)
      | refine fifoFlag_moves.on ?_ rfl | refine onSv_moves.on ?_ rfl | split

theorem convertDemand_moves {a0} {s : State} : Moves 0x8001 s (convertDemand a0 s) := by
  unfold convertDemand
  with_reducible
    repeat' first
      | exact .refl | assumption
      | (extract_lets +onlyGivenNames x; first | (refine .cut (x := x) ?_ ?_; (on_goal 1 => intro _; clear_value x); (on_goal 2 => subst x)) | subst x)
      | refine convert_moves.on ?_ rfl | refine (convert_moves.get (by assumption)).on ?_ rfl | refine onSv_moves.on ?_ rfl | dsimp only

theorem execServoOutput_moves {a0 a1} {s : State} : MovesR 0x8028901 s (execServoOutput a0 a1 s) := by
  unfold execServoOutput
  with_reducible
    repeat' first
      | exact .refl | assumption | exact .fault | refine .next ?_ | refine pushStatus_moves.on ?_ rfl | refine microFrame_moves.on ?_ rfl
      | refine beatsPass_moves.on ?_ rfl | refine convertDemand_moves.on ?_ rfl | split

theorem storeSlot_moves {a0 a1 a2} {s : State} : Moves 0x1FBFEB31 s (storeSlot a0 a1 a2 s) := by
  unfold storeSlot
  with_reducible
    repeat' first
      | exact .refl | assumption
      | (extract_lets +onlyGivenNames x; first | (refine .cut (x := x) ?_ ?_; (on_goal 1 => intro _; clear_value x); (on_goal 2 => subst x)) | subst x)
      | refine storeWord_moves.on ?_ rfl | refine (storeWord_moves.get (by assumption)).on ?_ rfl | refine nextSlot_moves.on ?_ rfl
      | refine servoLoses_moves.on ?_ rfl | split

theorem execNop_moves {a0} {s : State} : MovesR 0x8000 s (execNop a0 s) := by
  unfold execNop
  with_reducible
    repeat' first
      | exact .refl | assumption | exact .fault | refine .next ?_ | refine nextSlot_moves.on ?_ rfl | split

theorem execMul_moves {a0} {s : State} : MovesR 0x8000 s (execMul a0 s) := by
  unfold execMul
  with_reducible
    repeat' first
      | exact .refl | assumption | exact .fault | refine .next ?_
      | (extract_lets +onlyGivenNames x; first | (refine .cut (x := x) ?_ ?_; (on_goal 1 => intro _; clear_value x); (on_goal 2 => subst x)) | subst x)
      | refine nextSlot_moves.on ?_ rfl | refine onSv_moves.on ?_ rfl | split

theorem execMac_moves {a0} {s : State} : MovesR 0x8000 s (execMac a0 s) := by
  unfold execMac
  with_reducible
    repeat' first
      | exact .refl | assumption | exact .fault | refine .next ?_
      | (extract_lets +onlyGivenNames x; first | (refine .cut (x := x) ?_ ?_; (on_goal 1 => intro _; clear_value x); (on_goal 2 => subst x)) | subst x)
      | refine nextSlot_moves.on ?_ rfl | refine onSv_moves.on ?_ rfl | split

theorem execStore_moves {a0} {s : State} : MovesR 0x1FBFEB31 s (execStore a0 s) := by
  unfold execStore
  with_reducible
    repeat' first
      | exact .refl | assumption | exact .fault | refine .next ?_ | refine storeSlot_moves.on ?_ rfl | split

theorem execAbacusMove_moves {a0} {s : State} : MovesR 0x1FBFEB31 s (execAbacusMove a0 s) := by
  unfold execAbacusMove
  with_reducible
    repeat' first
      | exact .refl | assumption | exact .fault | refine .next ?_ | refine storeSlot_moves.on ?_ rfl | split

theorem execIn_moves {a0} {s : State} : MovesR 0x1FBFEB31 s (execIn a0 s) := by
  unfold execIn
  with_reducible
    repeat' first
      | exact .refl | assumption | exact .fault | refine .next ?_ | refine storeSlot_moves.on ?_ rfl | split

theorem abacusOutput_moves {a0 a1 a2} {s : State} : Moves 0x8000 s (abacusOutput a0 a1 a2 s) := by
  unfold abacusOutput
  with_reducible
    repeat' first
      | exact .refl | assumption
      | (extract_lets +onlyGivenNames x; first | (refine .cut (x := x) ?_ ?_; (on_goal 1 => intro _; clear_value x); (on_goal 2 => subst x)) | subst x)
      | refine onSv_moves.on ?_ rfl | split

theorem execOut_moves {a0} {s : State} : MovesR 0x8000 s (execOut a0 s) := by
  unfold execOut
  with_reducible
    repeat' first
      | exact .refl | assumption | exact .fault | refine .next ?_ | refine nextSlot_moves.on ?_ rfl | refine abacusOutput_moves.on ?_ rfl | split

theorem execRenorm_moves {a0} {s : State} : MovesR 0x1FBFEB31 s (execRenorm a0 s) := by
  unfold execRenorm
  with_reducible
    repeat' first
      | exact .refl | assumption | exact .fault | refine .next ?_
      | (extract_lets +onlyGivenNames x; first | (refine .cut (x := x) ?_ ?_; (on_goal 1 => intro _; clear_value x); (on_goal 2 => subst x)) | subst x)
      | refine renormBlock_moves.on ?_ rfl | refine (renormBlock_moves.get (by assumption)).on ?_ rfl | refine nextSlot_moves.on ?_ rfl
      | refine servoLoses_moves.on ?_ rfl | split

theorem execNopFrame_moves {s : State} : MovesR 0x8020000 s (execNopFrame s) := by
  unfold execNopFrame
  with_reducible
    repeat' first
      | exact .refl | assumption | exact .fault | refine .next ?_ | refine sendMotion_moves.on ?_ rfl | refine beatsPass_moves.on ?_ rfl

theorem execCurrentFrame_moves {a0} {s : State} : MovesR 0x68001 s (execCurrentFrame a0 s) := by
  unfold execCurrentFrame
  with_reducible
    repeat' first
      | exact .refl | assumption | exact .fault | refine .next ?_
      | (extract_lets +onlyGivenNames x; first | (refine .cut (x := x) ?_ ?_; (on_goal 1 => intro _; clear_value x); (on_goal 2 => subst x)) | subst x)
      | refine (inbound_moves (m := 0x68001) rfl (fun _ => ?_)).step ?_ | refine onSv_moves.on ?_ rfl | split

theorem statusFlags_moves {a0} {s : State} : Moves 0x1C086B01 s (statusFlags a0 s) := by
  unfold statusFlags
  with_reducible
    repeat' first
      | exact .refl | assumption
      | (extract_lets +onlyGivenNames x; first | (refine .cut (x := x) ?_ ?_; (on_goal 1 => intro _; clear_value x); (on_goal 2 => subst x)) | subst x)
      | refine put_moves.on ?_ rfl | refine (forEach_moves (m := 0x1C086B01) (fun _ _ => ?_)).step ?_ | refine flag_moves.on ?_ rfl
      | refine tally_moves.on ?_ rfl | refine servoFault_moves.on ?_ rfl | refine inhibitWrites_moves.on ?_ rfl | split | dsimp only

theorem execStatusFrame_moves {a0} {s : State} : MovesR 0x1F9FEB31 s (execStatusFrame a0 s) := by
  unfold execStatusFrame
  with_reducible
    repeat' first
      | exact .refl | assumption | exact .fault | refine .next ?_
      | (extract_lets +onlyGivenNames x; first | (refine .cut (x := x) ?_ ?_; (on_goal 1 => intro _; clear_value x); (on_goal 2 => subst x)) | subst x)
      | refine (inbound_moves (m := 0x1F9FEB31) rfl (fun _ => ?_)).step ?_ | refine statusFlags_moves.on ?_ rfl | refine powerFail_moves.on ?_ rfl
      | split | dsimp only

theorem execInboundFrameGap_moves {s : State} : MovesR 0x1 s (execInboundFrameGap s) := by
  unfold execInboundFrameGap
  with_reducible
    repeat' first
      | exact .refl | assumption | exact .fault | refine .next ?_ | refine count_moves.on ?_ rfl

theorem execMotionLinkLost_moves {s : State} : MovesR 0x1F9FEB31 s (execMotionLinkLost s) := by
  unfold execMotionLinkLost
  with_reducible
    repeat' first
      | exact .refl | assumption | exact .fault | refine .next ?_
      | (extract_lets +onlyGivenNames x; first | (refine .cut (x := x) ?_ ?_; (on_goal 1 => intro _; clear_value x); (on_goal 2 => subst x)) | subst x)
      | refine flag_moves.on ?_ rfl | refine put_moves.on ?_ rfl | refine (forEach_moves (m := 0x1F9FEB31) (fun _ _ => ?_)).step ?_
      | refine svFault_moves.on ?_ rfl | refine servoFault_moves.on ?_ rfl | refine settle_moves.on ?_ rfl | refine loseUnit1_moves.on ?_ rfl | split

theorem execTargetMailboxWrite_moves {a0 a1 a2} {s : State} : MovesR 0x8919 s (execTargetMailboxWrite a0 a1 a2 s) := by
  unfold execTargetMailboxWrite
  with_reducible
    repeat' first
      | exact .refl | assumption | exact .fault | refine .next ?_ | refine (command_moves (m := 0x8919) rfl (fun _ => ?_)).step ?_
      | refine mailboxWrite_moves.on ?_ rfl

theorem readMailbox_moves {a0} {s : State} : Moves 0x8001 s (readMailbox a0 s).2 := by
  unfold readMailbox
  with_reducible
    repeat' first
      | exact .refl | assumption
      | (extract_lets +onlyGivenNames x; first | (refine .cut (x := x) ?_ ?_; (on_goal 1 => intro _; clear_value x); (on_goal 2 => subst x)) | subst x)
      | refine onSv_moves.on ?_ rfl | refine count_moves.on ?_ rfl | refine mailbox_moves.on ?_ rfl | refine settle_moves.on ?_ rfl | split
      | dsimp only

theorem planCharged_moves {a0 a1 a2} {s : State} : Moves 0x80000 s (planCharged a0 a1 a2 s) := by
  unfold planCharged
  with_reducible
    repeat' first
      | exact .refl | assumption | refine onAct_moves.on ?_ rfl | split | dsimp only

theorem followCharged_moves {a0 a1} {s : State} : Moves 0x80000 s (followCharged a0 a1 s) := by
  unfold followCharged
  with_reducible
    repeat' first
      | exact .refl | assumption | refine onAct_moves.on ?_ rfl | split | dsimp only

theorem acceptTarget_moves {a0 a1 a2} {s : State} : Moves 0x8C001 s (acceptTarget a0 a1 a2 s) := by
  unfold acceptTarget
  with_reducible
    repeat' first
      | exact .refl | assumption
      | (extract_lets +onlyGivenNames x; first | (refine .cut (x := x) ?_ ?_; (on_goal 1 => intro _; clear_value x); (on_goal 2 => subst x)) | subst x)
      | refine onSv_moves.on ?_ rfl | refine put_moves.on ?_ rfl | refine newPlan_moves.on ?_ rfl | refine offsetReached_moves.on ?_ rfl
      | refine planCharged_moves.on ?_ rfl | split | dsimp only

theorem enterSeek_moves {a0} {s : State} : Moves 0x1C08EB01 s (enterSeek a0 s) := by
  unfold enterSeek
  with_reducible
    repeat' first
      | exact .refl | assumption
      | (extract_lets +onlyGivenNames x; first | (refine .cut (x := x) ?_ ?_; (on_goal 1 => intro _; clear_value x); (on_goal 2 => subst x)) | subst x)
      | refine onSv_moves.on ?_ rfl | refine latchLimits_moves.on ?_ rfl | refine setMotion_moves.on ?_ rfl | split

theorem pacerTick_moves {a0} {s : State} : Moves 0x1C08EB01 s (pacerTick a0 s) := by
  unfold pacerTick
  with_reducible
    repeat' first
      | exact .refl | assumption
      | (extract_lets +onlyGivenNames x; first | (refine .cut (x := x) ?_ ?_; (on_goal 1 => intro _; clear_value x); (on_goal 2 => subst x)) | subst x)
      | refine readMailbox_moves.on ?_ rfl | refine (readMailbox_moves.get (by assumption)).on ?_ rfl | refine newPlan_moves.on ?_ rfl
      | refine onSv_moves.on ?_ rfl | refine acceptTarget_moves.on ?_ rfl | refine enterSeek_moves.on ?_ rfl | refine setMotion_moves.on ?_ rfl
      | split | dsimp only

theorem execPacerStep_moves {a0} {s : State} : MovesR 0x1F9FEB31 s (execPacerStep a0 s) := by
  unfold execPacerStep
  with_reducible
    repeat' first
      | exact .refl | assumption | exact .fault | refine .next ?_ | refine settle_moves.on ?_ rfl | refine pacerTick_moves.on ?_ rfl
      | refine readMailbox_moves.on ?_ rfl | refine (readMailbox_moves.get (by assumption)).on ?_ rfl | split

theorem execPlanEnd_moves {a0} {s : State} : MovesR 0x1F9FEB31 s (execPlanEnd a0 s) := by
  unfold execPlanEnd
  with_reducible
    repeat' first
      | exact .refl | assumption | exact .fault | refine .next ?_
      | (extract_lets +onlyGivenNames x; first | (refine .cut (x := x) ?_ ?_; (on_goal 1 => intro _; clear_value x); (on_goal 2 => subst x)) | subst x)
      | refine settle_moves.on ?_ rfl | refine onSv_moves.on ?_ rfl | refine setMotion_moves.on ?_ rfl | split

theorem reportTrip_moves {a0 a1} {s : State} : Moves 0xEB8C911 s (reportTrip a0 a1 s) := by
  unfold reportTrip
  with_reducible
    repeat' first
      | exact .refl | assumption | refine reissueTarget_moves.on ?_ rfl | split

theorem execFeTrip_moves {a0} {s : State} : MovesR 0x1FBFEB31 s (execFeTrip a0 s) := by
  unfold execFeTrip
  with_reducible
    repeat' first
      | exact .refl | assumption | exact .fault | refine .next ?_
      | (extract_lets +onlyGivenNames x; first | (refine .cut (x := x) ?_ ?_; (on_goal 1 => intro _; clear_value x); (on_goal 2 => subst x)) | subst x)
      | refine tally_moves.on ?_ rfl | refine count_moves.on ?_ rfl | refine flag_moves.on ?_ rfl | refine abandonTarget_moves.on ?_ rfl
      | refine onSv_moves.on ?_ rfl | refine settle_moves.on ?_ rfl | refine svRetract_moves.on ?_ rfl | refine reportTrip_moves.on ?_ rfl | split
      | dsimp only

theorem execSettleDone_moves {a0} {s : State} : MovesR 0x1F9FEB31 s (execSettleDone a0 s) := by
  unfold execSettleDone
  with_reducible
    repeat' first
      | exact .refl | assumption | exact .fault | refine .next ?_
      | (extract_lets +onlyGivenNames x; first | (refine .cut (x := x) ?_ ?_; (on_goal 1 => intro _; clear_value x); (on_goal 2 => subst x)) | subst x)
      | refine setMotion_moves.on ?_ rfl | refine irq_moves.on ?_ rfl | refine put_moves.on ?_ rfl | refine tally_moves.on ?_ rfl
      | refine onSv_moves.on ?_ rfl | refine settle_moves.on ?_ rfl | refine followCharged_moves.on ?_ rfl | split | dsimp only

theorem execSettleTimeout_moves {a0} {s : State} : MovesR 0x901 s (execSettleTimeout a0 s) := by
  unfold execSettleTimeout
  with_reducible
    repeat' first
      | exact .refl | assumption | exact .fault | refine .next ?_
      | (extract_lets +onlyGivenNames x; first | (refine .cut (x := x) ?_ ?_; (on_goal 1 => intro _; clear_value x); (on_goal 2 => subst x)) | subst x)
      | refine count_moves.on ?_ rfl | refine flag_moves.on ?_ rfl | refine settle_moves.on ?_ rfl | split

theorem execAcquireDone_moves {a0} {s : State} : MovesR 0x1F9FEB31 s (execAcquireDone a0 s) := by
  unfold execAcquireDone
  with_reducible
    repeat' first
      | exact .refl | assumption | exact .fault | refine .next ?_
      | (extract_lets +onlyGivenNames x; first | (refine .cut (x := x) ?_ ?_; (on_goal 1 => intro _; clear_value x); (on_goal 2 => subst x)) | subst x)
      | refine settle_moves.on ?_ rfl | refine onSv_moves.on ?_ rfl | refine enterSeek_moves.on ?_ rfl | split

theorem execLoadTimeout_moves {a0} {s : State} : MovesR 0x1FBFEB31 s (execLoadTimeout a0 s) := by
  unfold execLoadTimeout
  with_reducible
    repeat' first
      | exact .refl | assumption | exact .fault | refine .next ?_
      | (extract_lets +onlyGivenNames x; first | (refine .cut (x := x) ?_ ?_; (on_goal 1 => intro _; clear_value x); (on_goal 2 => subst x)) | subst x)
      | refine loseUnit0_moves.on ?_ rfl | refine svRetract_moves.on ?_ rfl | refine flag_moves.on ?_ rfl | refine settle_moves.on ?_ rfl
      | refine onSv_moves.on ?_ rfl | split

theorem execRetractTimeEnd_moves {a0} {s : State} : MovesR 0x1F9FEB31 s (execRetractTimeEnd a0 s) := by
  unfold execRetractTimeEnd
  with_reducible
    repeat' first
      | exact .refl | assumption | exact .fault | refine .next ?_
      | (extract_lets +onlyGivenNames x; first | (refine .cut (x := x) ?_ ?_; (on_goal 1 => intro _; clear_value x); (on_goal 2 => subst x)) | subst x)
      | refine settle_moves.on ?_ rfl | refine onSv_moves.on ?_ rfl | refine tally_moves.on ?_ rfl | refine setMotion_moves.on ?_ rfl
      | refine svLoad_moves.on ?_ rfl | split | dsimp only

theorem spinLost_moves {s : State} : Moves 0x1F9FEB31 s (spinLost s) := by
  unfold spinLost
  with_reducible
    repeat' first
      | exact .refl | assumption
      | (extract_lets +onlyGivenNames x; first | (refine .cut (x := x) ?_ ?_; (on_goal 1 => intro _; clear_value x); (on_goal 2 => subst x)) | subst x)
      | refine loseUnit1_moves.on ?_ rfl | refine onSpm_moves.on ?_ rfl

theorem failAttempt_moves {a0} {s : State} : Moves 0x1F9FEB31 s (failAttempt a0 s) := by
  unfold failAttempt
  with_reducible
    repeat' first
      | exact .refl | assumption
      | (extract_lets +onlyGivenNames x; first | (refine .cut (x := x) ?_ ?_; (on_goal 1 => intro _; clear_value x); (on_goal 2 => subst x)) | subst x)
      | refine tally_moves.on ?_ rfl | refine count_moves.on ?_ rfl | refine flag_moves.on ?_ rfl | refine settle_moves.on ?_ rfl
      | refine requestBrake_moves.on ?_ rfl | refine spinLost_moves.on ?_ rfl | split

theorem spinFails_moves {a0} {s : State} : Moves 0x1F9FEB31 s (spinFails a0 s) := by
  unfold spinFails
  with_reducible
    repeat' first
      | exact .refl | assumption | refine spinLost_moves.on ?_ rfl | refine requestBrake_moves.on ?_ rfl
      | refine (forEach_moves (m := 0x1F9FEB31) (fun _ _ => ?_)).step ?_ | refine svRetract_moves.on ?_ rfl | refine flag_moves.on ?_ rfl

theorem spinRestored_moves {s : State} : Moves 0x40011 s (spinRestored s) := by
  unfold spinRestored
  with_reducible
    repeat' first
      | exact .refl | assumption
      | (extract_lets +onlyGivenNames x; first | (refine .cut (x := x) ?_ ?_; (on_goal 1 => intro _; clear_value x); (on_goal 2 => subst x)) | subst x)
      | refine onSpm_moves.on ?_ rfl | refine setReg_moves.on ?_ rfl | fail_if_no_progress refine mk_glb.on ?_ rfl | split

theorem spinRow_moves {a0} {s : State} : Moves 0x1F9FEB39 s (spinRow a0 s) := by
  unfold spinRow
  with_reducible
    repeat' first
      | exact .refl | assumption | refine (command_moves (m := 0x1F9FEB39) rfl (fun _ => ?_)).step ?_ | refine settle_moves.on ?_ rfl
      | refine spinCommand_moves.on ?_ rfl

theorem execSpindleStart_moves {s : State} : MovesR 0x1F9FEB39 s (execSpindleStart s) := by
  unfold execSpindleStart
  with_reducible
    repeat' first
      | exact .refl | assumption | exact .fault | refine .next ?_ | refine spinRow_moves.on ?_ rfl

theorem execSpindleBrake_moves {s : State} : MovesR 0x1F9FEB39 s (execSpindleBrake s) := by
  unfold execSpindleBrake
  with_reducible
    repeat' first
      | exact .refl | assumption | exact .fault | refine .next ?_ | refine spinRow_moves.on ?_ rfl

theorem execSpindleClearFault_moves {s : State} : MovesR 0x1F9FEB39 s (execSpindleClearFault s) := by
  unfold execSpindleClearFault
  with_reducible
    repeat' first
      | exact .refl | assumption | exact .fault | refine .next ?_ | refine spinRow_moves.on ?_ rfl

theorem execCadenceRequest_moves {a0} {s : State} : MovesR 0x1F9FEB39 s (execCadenceRequest a0 s) := by
  unfold execCadenceRequest
  with_reducible
    repeat' first
      | exact .refl | assumption | exact .fault | refine .next ?_ | refine (write_moves (m := 0x1F9FEB39) rfl (fun _ => ?_)).step ?_
      | refine settle_moves.on ?_ rfl | refine cadenceRequest_moves.on ?_ rfl

theorem execSpmSelfTest_moves {a0} {s : State} : MovesR 0x1F9FEB31 s (execSpmSelfTest a0 s) := by
  unfold execSpmSelfTest
  with_reducible
    repeat' first
      | exact .refl | assumption | exact .fault | refine .next ?_ | refine settle_moves.on ?_ rfl | refine setReg_moves.on ?_ rfl
      | refine loseUnit1_moves.on ?_ rfl | split

theorem execRotorRestCheck_moves {s : State} : MovesR 0x1F9FEB31 s (execRotorRestCheck s) := by
  unfold execRotorRestCheck
  with_reducible
    repeat' first
      | exact .refl | assumption | exact .fault | refine .next ?_
      | (extract_lets +onlyGivenNames x; first | (refine .cut (x := x) ?_ ?_; (on_goal 1 => intro _; clear_value x); (on_goal 2 => subst x)) | subst x)
      | refine beginAttempt_moves.on ?_ rfl | refine settle_moves.on ?_ rfl | refine startTurning_moves.on ?_ rfl | refine onSpm_moves.on ?_ rfl
      | split

theorem execSenseDone_moves {s : State} : MovesR 0x60801 s (execSenseDone s) := by
  unfold execSenseDone
  with_reducible
    repeat' first
      | exact .refl | assumption | exact .fault | refine .next ?_
      | (extract_lets +onlyGivenNames x; first | (refine .cut (x := x) ?_ ?_; (on_goal 1 => intro _; clear_value x); (on_goal 2 => subst x)) | subst x)
      | refine onSpm_moves.on ?_ rfl | refine setSpin_moves.on ?_ rfl | refine nextCommutation_moves.on ?_ rfl
      | refine (nextCommutation_moves.get (by assumption)).on ?_ rfl | fail_if_no_progress refine mk_mot.on ?_ rfl | split

theorem execCommutation_moves {a0} {s : State} : MovesR 0x8060001 s (execCommutation a0 s) := by
  unfold execCommutation
  with_reducible
    repeat' first
      | exact .refl | assumption | exact .fault | refine .next ?_
      | (extract_lets +onlyGivenNames x; first | (refine .cut (x := x) ?_ ?_; (on_goal 1 => intro _; clear_value x); (on_goal 2 => subst x)) | subst x)
      | refine releaseSpindle_moves.on ?_ rfl | refine onSpm_moves.on ?_ rfl | refine nextCommutation_moves.on ?_ rfl
      | refine (nextCommutation_moves.get (by assumption)).on ?_ rfl | refine queueSpindle_moves.on ?_ rfl | refine count_moves.on ?_ rfl
      | fail_if_no_progress refine mk_mot.on ?_ rfl | refine beatsPass_moves.on ?_ rfl | split | dsimp only

theorem handover_moves {s : State} : Moves 0x40801 s (handover s) := by
  unfold handover
  with_reducible
    repeat' first
      | exact .refl | assumption
      | (extract_lets +onlyGivenNames x; first | (refine .cut (x := x) ?_ ?_; (on_goal 1 => intro _; clear_value x); (on_goal 2 => subst x)) | subst x)
      | refine onSpm_moves.on ?_ rfl | refine setSpin_moves.on ?_ rfl | split

theorem crossing_moves {a0 a1 a2} {s : State} : Moves 0x1F9FEB31 s (crossing a0 a1 a2 s) := by
  unfold crossing
  with_reducible
    repeat' first
      | exact .refl | assumption
      | (extract_lets +onlyGivenNames x; first | (refine .cut (x := x) ?_ ?_; (on_goal 1 => intro _; clear_value x); (on_goal 2 => subst x)) | subst x)
      | refine onSpm_moves.on ?_ rfl | refine count_moves.on ?_ rfl | refine failAttempt_moves.on ?_ rfl | refine handover_moves.on ?_ rfl
      | refine nextCommutation_moves.on ?_ rfl | refine (nextCommutation_moves.get (by assumption)).on ?_ rfl | refine queueSpindle_moves.on ?_ rfl
      | split | dsimp only

theorem execBemfFrame_moves {a0 a1} {s : State} : MovesR 0x1F9FEB31 s (execBemfFrame a0 a1 s) := by
  unfold execBemfFrame
  with_reducible
    repeat' first
      | exact .refl | assumption | exact .fault | refine .next ?_
      | (extract_lets +onlyGivenNames x; first | (refine .cut (x := x) ?_ ?_; (on_goal 1 => intro _; clear_value x); (on_goal 2 => subst x)) | subst x)
      | refine (inbound_moves (m := 0x1F9FEB31) rfl (fun _ => ?_)).step ?_ | refine put_moves.on ?_ rfl | refine onSpm_moves.on ?_ rfl
      | refine crossing_moves.on ?_ rfl | split

theorem runSpeed_moves {a0} {s : State} : Moves 0x1F9FEB31 s (runSpeed a0 s) := by
  unfold runSpeed
  with_reducible
    repeat' first
      | exact .refl | assumption
      | (extract_lets +onlyGivenNames x; first | (refine .cut (x := x) ?_ ?_; (on_goal 1 => intro _; clear_value x); (on_goal 2 => subst x)) | subst x)
      | refine spinCoast_moves.on ?_ rfl | refine onSpm_moves.on ?_ rfl | refine setSpin_moves.on ?_ rfl | refine moveRef_moves.on ?_ rfl
      | refine (moveRef_moves.get (by assumption)).on ?_ rfl | refine speedLoop_moves.on ?_ rfl | refine countLock_moves.on ?_ rfl
      | refine spinFails_moves.on ?_ rfl | fail_if_no_progress refine mk_mot.on ?_ rfl | split | dsimp only

theorem execSpeedUpdate_moves {s : State} : MovesR 0x1F9FEB31 s (execSpeedUpdate s) := by
  unfold execSpeedUpdate
  with_reducible
    repeat' first
      | exact .refl | assumption | exact .fault | refine .next ?_
      | (extract_lets +onlyGivenNames x; first | (refine .cut (x := x) ?_ ?_; (on_goal 1 => intro _; clear_value x); (on_goal 2 => subst x)) | subst x)
      | refine put_moves.on ?_ rfl | refine settle_moves.on ?_ rfl | refine spinRestored_moves.on ?_ rfl | refine runSpeed_moves.on ?_ rfl | split

theorem execZcTimeout_moves {s : State} : MovesR 0x1F9FEB31 s (execZcTimeout s) := by
  unfold execZcTimeout
  with_reducible
    repeat' first
      | exact .refl | assumption | exact .fault | refine .next ?_ | refine spinFails_moves.on ?_ rfl | split

theorem execNoHandover_moves {s : State} : MovesR 0x1F9FEB31 s (execNoHandover s) := by
  unfold execNoHandover
  with_reducible
    repeat' first
      | exact .refl | assumption | exact .fault | refine .next ?_ | refine failAttempt_moves.on ?_ rfl | split

theorem execSpinTimeout_moves {s : State} : MovesR 0x1F9FEB31 s (execSpinTimeout s) := by
  unfold execSpinTimeout
  with_reducible
    repeat' first
      | exact .refl | assumption | exact .fault | refine .next ?_
      | (extract_lets +onlyGivenNames x; first | (refine .cut (x := x) ?_ ?_; (on_goal 1 => intro _; clear_value x); (on_goal 2 => subst x)) | subst x)
      | refine failAttempt_moves.on ?_ rfl | split

theorem execKeCheckEnd_moves {a0} {s : State} : MovesR 0x1F9FEB31 s (execKeCheckEnd a0 s) := by
  unfold execKeCheckEnd
  with_reducible
    repeat' first
      | exact .refl | assumption | exact .fault | refine .next ?_
      | (extract_lets +onlyGivenNames x; first | (refine .cut (x := x) ?_ ?_; (on_goal 1 => intro _; clear_value x); (on_goal 2 => subst x)) | subst x)
      | refine free_moves.on ?_ rfl | refine (free_moves.get (by assumption)).on ?_ rfl | refine put_moves.on ?_ rfl | refine setSpin_moves.on ?_ rfl
      | refine tally_moves.on ?_ rfl | refine count_moves.on ?_ rfl | refine flag_moves.on ?_ rfl | refine spinLost_moves.on ?_ rfl
      | refine requestBrake_moves.on ?_ rfl | refine onSpm_moves.on ?_ rfl | split | dsimp only

theorem execBrakeProbe_moves {s : State} : MovesR 0x1F9FEB31 s (execBrakeProbe s) := by
  unfold execBrakeProbe
  with_reducible
    repeat' first
      | exact .refl | assumption | exact .fault | refine .next ?_
      | (extract_lets +onlyGivenNames x; first | (refine .cut (x := x) ?_ ?_; (on_goal 1 => intro _; clear_value x); (on_goal 2 => subst x)) | subst x)
      | refine spinCoast_moves.on ?_ rfl | refine settle_moves.on ?_ rfl | refine brakeStopped_moves.on ?_ rfl | refine spinBrake_moves.on ?_ rfl
      | refine onSpm_moves.on ?_ rfl | split | dsimp only

theorem execRetryWaitEnd_moves {s : State} : MovesR 0x60801 s (execRetryWaitEnd s) := by
  unfold execRetryWaitEnd
  with_reducible
    repeat' first
      | exact .refl | assumption | exact .fault | refine .next ?_ | refine beginAttempt_moves.on ?_ rfl | split

theorem execPfCoastEnd_moves {s : State} : MovesR 0x80E2801 s (execPfCoastEnd s) := by
  unfold execPfCoastEnd
  with_reducible
    repeat' first
      | exact .refl | assumption | exact .fault | refine .next ?_
      | (extract_lets +onlyGivenNames x; first | (refine .cut (x := x) ?_ ?_; (on_goal 1 => intro _; clear_value x); (on_goal 2 => subst x)) | subst x)
      | refine onSpm_moves.on ?_ rfl | refine enterBraking_moves.on ?_ rfl | split

theorem discardWrites_moves {a0} {s : State} : Moves 0x82B01 s (discardWrites a0 s) := by
  unfold discardWrites
  with_reducible
    repeat' first
      | exact .refl | assumption
      | (extract_lets +onlyGivenNames x; first | (refine .cut (x := x) ?_ ?_; (on_goal 1 => intro _; clear_value x); (on_goal 2 => subst x)) | subst x)
      | refine tally_moves.on ?_ rfl | refine onAct_moves.on ?_ rfl | refine onLn_moves.on ?_ rfl | split | dsimp only

theorem execDrainComplete_moves {s : State} : MovesR 0xC2B01 s (execDrainComplete s) := by
  unfold execDrainComplete
  with_reducible
    repeat' first
      | exact .refl | assumption | exact .fault | refine .next ?_
      | (extract_lets +onlyGivenNames x; first | (refine .cut (x := x) ?_ ?_; (on_goal 1 => intro _; clear_value x); (on_goal 2 => subst x)) | subst x)
      | refine onSpm_moves.on ?_ rfl | refine (forEach_moves (m := 0xC2B01) (fun _ _ => ?_)).step ?_ | refine discardWrites_moves.on ?_ rfl | split

theorem execCadenceRampEnd_moves {s : State} : MovesR 0x40000 s (execCadenceRampEnd s) := by
  unfold execCadenceRampEnd
  with_reducible
    repeat' first
      | exact .refl | assumption | exact .fault | refine .next ?_
      | (extract_lets +onlyGivenNames x; first | (refine .cut (x := x) ?_ ?_; (on_goal 1 => intro _; clear_value x); (on_goal 2 => subst x)) | subst x)
      | refine onSpm_moves.on ?_ rfl | split

theorem execCadTimeout_moves {s : State} : MovesR 0x1F9FEB31 s (execCadTimeout s) := by
  unfold execCadTimeout
  with_reducible
    repeat' first
      | exact .refl | assumption | exact .fault | refine .next ?_ | refine spinFails_moves.on ?_ rfl | split

theorem execLaneResume_moves {a0} {s : State} : MovesR 0x1F9FEB31 s (execLaneResume a0 s) := by
  unfold execLaneResume
  with_reducible
    repeat' first
      | exact .refl | assumption | exact .fault | refine .next ?_ | refine settle_moves.on ?_ rfl | refine endPause_moves.on ?_ rfl | split

theorem standingsTake_moves {a0} {s : State} : Moves 0x100 s (standingsTake a0 s).2 := by
  unfold standingsTake
  with_reducible
    repeat' first
      | exact .refl | assumption
      | (extract_lets +onlyGivenNames x; first | (refine .cut (x := x) ?_ ?_; (on_goal 1 => intro _; clear_value x); (on_goal 2 => subst x)) | subst x)
      | fail_if_no_progress refine mk_evr.on ?_ rfl | dsimp only

theorem standingsRequestEff_moves {s : State} : Moves 0x1 s (standingsRequestEff s) := by
  unfold standingsRequestEff
  with_reducible
    repeat' first
      | exact .refl | assumption | refine put_moves.on ?_ rfl

theorem execFirmwareRecord_moves {a0} {s : State} : MovesR 0xB19 s (execFirmwareRecord a0 s) := by
  unfold execFirmwareRecord
  with_reducible
    repeat' first
      | exact .refl | assumption | exact .fault | refine .next ?_ | refine firmwareRecordEff_moves.on ?_ rfl
      | refine (command_moves (m := 0xB19) rfl (fun _ => ?_)).step ?_

theorem execTallyCommitCommand_moves {a0} {s : State} : MovesR 0xB19 s (execTallyCommitCommand a0 s) := by
  unfold execTallyCommitCommand
  with_reducible
    repeat' first
      | exact .refl | assumption | exact .fault | refine .next ?_ | refine tlyCommitAll_moves.on ?_ rfl
      | refine (command_moves (m := 0xB19) rfl (fun _ => ?_)).step ?_

theorem execTallyInc_moves {a0} {s : State} : MovesR 0xB19 s (execTallyInc a0 s) := by
  unfold execTallyInc
  with_reducible
    repeat' first
      | exact .refl | assumption | exact .fault | refine .next ?_ | refine tallyIncEff_moves.on ?_ rfl
      | refine (command_moves (m := 0xB19) rfl (fun _ => ?_)).step ?_

theorem execTallyHist_moves {a0} {s : State} : MovesR 0xB19 s (execTallyHist a0 s) := by
  unfold execTallyHist
  with_reducible
    repeat' first
      | exact .refl | assumption | exact .fault | refine .next ?_ | refine tallyHistEff_moves.on ?_ rfl
      | refine (command_moves (m := 0xB19) rfl (fun _ => ?_)).step ?_

theorem execEnumCommand_moves {a0} {s : State} : MovesR 0x8000919 s (execEnumCommand a0 s) := by
  unfold execEnumCommand
  with_reducible
    repeat' first
      | exact .refl | assumption | exact .fault | refine .next ?_ | refine enumCommandEff_moves.on ?_ rfl
      | refine (command_moves (m := 0x8000919) rfl (fun _ => ?_)).step ?_

theorem execStandingsRequest_moves {a0} {s : State} : MovesR 0x919 s (execStandingsRequest a0 s) := by
  unfold execStandingsRequest
  with_reducible
    repeat' first
      | exact .refl | assumption | exact .fault | refine .next ?_ | refine (command_moves (m := 0x919) rfl (fun _ => ?_)).step ?_
      | refine standingsRequestEff_moves.on ?_ rfl | split

theorem execStandingsComplete_moves {s : State} : MovesR 0x101 s (execStandingsComplete s) := by
  unfold execStandingsComplete
  with_reducible
    repeat' first
      | exact .refl | assumption | exact .fault | refine .next ?_
      | (extract_lets +onlyGivenNames x; first | (refine .cut (x := x) ?_ ?_; (on_goal 1 => intro _; clear_value x); (on_goal 2 => subst x)) | subst x)
      | refine standingsTake_moves.on ?_ rfl | refine (standingsTake_moves.get (by assumption)).on ?_ rfl | refine put_moves.on ?_ rfl
      | fail_if_no_progress refine mk_evr.on ?_ rfl | split

theorem execStandings_moves {a0} {s : State} : MovesR 0x8000180 s (execStandings a0 s) := by
  unfold execStandings
  with_reducible
    repeat' first
      | exact .refl | assumption | exact .fault | refine .next ?_
      | (extract_lets +onlyGivenNames x; first | (refine .cut (x := x) ?_ ?_; (on_goal 1 => intro _; clear_value x); (on_goal 2 => subst x)) | subst x)
      | refine (cuhar_moves (m := 0x8000180) rfl (fun _ => ?_)).step ?_ | refine standingsTake_moves.on ?_ rfl
      | refine (standingsTake_moves.get (by assumption)).on ?_ rfl | refine reply_moves.on ?_ rfl | split

end Sys2Proof.Machine
end

