-- ==== Sys2Proof/Laws/MovesHost.lean ====
section
/-! SUPPORT. One lemma for each operation of Queue.lean, QueueRows.lean, Identify.lean, AdminRows.lean, IoRows.lean, Scc.lean, Dma.lean: what it may change (Moves). -/

namespace Sys2Proof.Machine

set_option linter.all false
set_option Elab.async false

theorem setSq_moves {a1 a2 a3} {s : State} : Moves 0x2000000 s (State.setSq s a1 a2 a3) := by
  unfold State.setSq
  with_reducible
    repeat' first
      | exact .refl | assumption
      | (extract_lets +onlyGivenNames x; first | (refine .cut (x := x) ?_ ?_; (on_goal 1 => intro _; clear_value x); (on_goal 2 => subst x)) | subst x)
      | refine onCtrl_moves.on ?_ rfl

theorem setCq_moves {a1 a2 a3} {s : State} : Moves 0x2000000 s (State.setCq s a1 a2 a3) := by
  unfold State.setCq
  with_reducible
    repeat' first
      | exact .refl | assumption
      | (extract_lets +onlyGivenNames x; first | (refine .cut (x := x) ?_ ?_; (on_goal 1 => intro _; clear_value x); (on_goal 2 => subst x)) | subst x)
      | refine onCtrl_moves.on ?_ rfl

theorem msixSend_moves {a0 a1} {s : State} : Moves 0xA000000 s (msixSend a0 a1 s) := by
  unfold msixSend
  with_reducible
    repeat' first
      | exact .refl | assumption
      | (extract_lets +onlyGivenNames x; first | (refine .cut (x := x) ?_ ?_; (on_goal 1 => intro _; clear_value x); (on_goal 2 => subst x)) | subst x)
      | refine emit_moves.on ?_ rfl | refine onPci_moves.on ?_ rfl | split | dsimp only

theorem msixRelease_moves {a0} {s : State} : Moves 0xA000000 s (msixRelease a0 s) := by
  unfold msixRelease
  with_reducible
    repeat' first
      | exact .refl | assumption
      | (extract_lets +onlyGivenNames x; first | (refine .cut (x := x) ?_ ?_; (on_goal 1 => intro _; clear_value x); (on_goal 2 => subst x)) | subst x)
      | refine emit_moves.on ?_ rfl | refine (forEach_moves (m := 0xA000000) (fun _ _ => ?_)).step ?_ | refine onPci_moves.on ?_ rfl | dsimp only

theorem aerCor_moves {a0 a1} {s : State} : Moves 0xA000000 s (aerCor a0 a1 s) := by
  unfold aerCor
  with_reducible
    repeat' first
      | exact .refl | assumption
      | (extract_lets +onlyGivenNames x; first | (refine .cut (x := x) ?_ ?_; (on_goal 1 => intro _; clear_value x); (on_goal 2 => subst x)) | subst x)
      | refine emit_moves.on ?_ rfl | refine onPci_moves.on ?_ rfl | split | dsimp only

theorem aerUnc_moves {a0 a1} {s : State} : Moves 0xA000000 s (aerUnc a0 a1 s) := by
  unfold aerUnc
  with_reducible
    repeat' first
      | exact .refl | assumption
      | (extract_lets +onlyGivenNames x; first | (refine .cut (x := x) ?_ ?_; (on_goal 1 => intro _; clear_value x); (on_goal 2 => subst x)) | subst x)
      | refine emit_moves.on ?_ rfl | refine onPci_moves.on ?_ rfl | split | dsimp only

theorem portCorrectable_moves {a0 a1 a2} {s : State} : Moves 0xA000901 s (portCorrectable a0 a1 a2 s) := by
  unfold portCorrectable
  with_reducible
    repeat' first
      | exact .refl | assumption | refine aerCor_moves.on ?_ rfl | refine count_moves.on ?_ rfl | refine flag_moves.on ?_ rfl

theorem portUncorrectable_moves {a0 a1 a2} {s : State} : Moves 0xA000901 s (portUncorrectable a0 a1 a2 s) := by
  unfold portUncorrectable
  with_reducible
    repeat' first
      | exact .refl | assumption | refine aerUnc_moves.on ?_ rfl | refine count_moves.on ?_ rfl | refine flag_moves.on ?_ rfl

theorem portPoison_moves {a0} {s : State} : Moves 0xA000901 s (portPoison a0 s) := by
  unfold portPoison
  with_reducible
    repeat' first
      | exact .refl | assumption | refine portCorrectable_moves.on ?_ rfl | refine onPci_moves.on ?_ rfl | dsimp only

theorem badDoorbell_moves {a0} {s : State} : Moves 0x2080901 s (badDoorbell a0 s) := by
  unfold badDoorbell
  with_reducible
    repeat' first
      | exact .refl | assumption | refine asyncEvent_moves.on ?_ rfl | refine flag_moves.on ?_ rfl

theorem fetchEntry_moves {a0 a1 a2} {s : State} : Moves 0x2000000 s (fetchEntry a0 a1 a2 s) := by
  unfold fetchEntry
  with_reducible
    repeat' first
      | exact .refl | assumption
      | (extract_lets +onlyGivenNames x; first | (refine .cut (x := x) ?_ ?_; (on_goal 1 => intro _; clear_value x); (on_goal 2 => subst x)) | subst x)
      | refine setSq_moves.on ?_ rfl | fail_if_no_progress refine mk_qe.on ?_ rfl | split

theorem fetchAdmin_moves {a0 a1 a2} {s : State} : Moves 0x2000000 s (fetchAdmin a0 a1 a2 s).2 := by
  induction a1 generalizing a0 a2 s with
  | zero =>
    unfold fetchAdmin
    with_reducible
      repeat' first
       | exact .refl | assumption
       | (extract_lets +onlyGivenNames x; first | (refine .cut (x := x) ?_ ?_; (on_goal 1 => intro _; clear_value x); (on_goal 2 => subst x)) | subst x)
       | refine fetchEntry_moves.on ?_ rfl | split | dsimp only
  | succ k ih =>
    unfold fetchAdmin
    with_reducible
      repeat' first
       | exact .refl | assumption
       | (extract_lets +onlyGivenNames x; first | (refine .cut (x := x) ?_ ?_; (on_goal 1 => intro _; clear_value x); (on_goal 2 => subst x)) | subst x)
       | refine fetchEntry_moves.on ?_ rfl | split | dsimp only | refine ih.on ?_ rfl | refine (ih.get (by assumption)).on ?_ rfl


theorem fetchIo_moves {a0 a1 a2} {s : State} : Moves 0x2000000 s (fetchIo a0 a1 a2 s) := by
  induction a1 generalizing a0 a2 s with
  | zero =>
    unfold fetchIo
    with_reducible
      repeat' first
       | exact .refl | assumption
       | (extract_lets +onlyGivenNames x; first | (refine .cut (x := x) ?_ ?_; (on_goal 1 => intro _; clear_value x); (on_goal 2 => subst x)) | subst x)
       | refine fetchEntry_moves.on ?_ rfl | refine onCtrl_moves.on ?_ rfl | split
  | succ k ih =>
    unfold fetchIo
    with_reducible
      repeat' first
       | exact .refl | assumption
       | (extract_lets +onlyGivenNames x; first | (refine .cut (x := x) ?_ ?_; (on_goal 1 => intro _; clear_value x); (on_goal 2 => subst x)) | subst x)
       | refine fetchEntry_moves.on ?_ rfl | refine onCtrl_moves.on ?_ rfl | split | refine ih.on ?_ rfl


theorem sendReads_moves {a0 a1} {s : State} : Moves 0x8000000 s (sendReads a0 a1 s) := by
  unfold sendReads
  with_reducible
    repeat' first
      | exact .refl | assumption
      | (extract_lets +onlyGivenNames x; first | (refine .cut (x := x) ?_ ?_; (on_goal 1 => intro _; clear_value x); (on_goal 2 => subst x)) | subst x)
      | refine emit_moves.on ?_ rfl | refine (forEach_moves (m := 0x8000000) (fun _ _ => ?_)).step ?_ | split | dsimp only

theorem visit_moves {a0 a1} {s : State} : Moves 0xA000000 s (visit a0 a1 s) := by
  unfold visit
  with_reducible
    repeat' first
      | exact .refl | assumption
      | (extract_lets +onlyGivenNames x; first | (refine .cut (x := x) ?_ ?_; (on_goal 1 => intro _; clear_value x); (on_goal 2 => subst x)) | subst x)
      | refine fetchAdmin_moves.on ?_ rfl | refine (fetchAdmin_moves.get (by assumption)).on ?_ rfl | refine fetchIo_moves.on ?_ rfl
      | fail_if_no_progress refine mk_qe.on ?_ rfl | refine sendReads_moves.on ?_ rfl | split

theorem countWait_moves {a0} {s : State} : Moves 0x2000001 s (countWait a0 s) := by
  unfold countWait
  with_reducible
    repeat' first
      | exact .refl | assumption
      | (extract_lets +onlyGivenNames x; first | (refine .cut (x := x) ?_ ?_; (on_goal 1 => intro _; clear_value x); (on_goal 2 => subst x)) | subst x)
      | refine count_moves.on ?_ rfl | refine setSlot_moves.on ?_ rfl | split

theorem enterRuns_moves {a0 a1 a2} {s : State} : Moves 0x2000901 s (enterRuns a0 a1 a2 s) := by
  unfold enterRuns
  with_reducible
    repeat' first
      | exact .refl | assumption
      | (extract_lets +onlyGivenNames x; first | (refine .cut (x := x) ?_ ?_; (on_goal 1 => intro _; clear_value x); (on_goal 2 => subst x)) | subst x)
      | refine setPair_moves.on ?_ rfl | refine setSlot_moves.on ?_ rfl | refine countWait_moves.on ?_ rfl | refine flag_moves.on ?_ rfl
      | fail_if_no_progress refine mk_qe.on ?_ rfl | split

theorem forwardCmd_moves {a0} {s : State} : Moves 0x8800001 s (forwardCmd a0 s) := by
  unfold forwardCmd
  with_reducible
    repeat' first
      | exact .refl | assumption
      | (extract_lets +onlyGivenNames x; first | (refine .cut (x := x) ?_ ?_; (on_goal 1 => intro _; clear_value x); (on_goal 2 => subst x)) | subst x)
      | refine newTag_moves.on ?_ rfl | refine (newTag_moves.get (by assumption)).on ?_ rfl | refine batSend_moves.on ?_ rfl
      | fail_if_no_progress refine mk_bat.on ?_ rfl | split

theorem forwardData_moves {a0 a1} {s : State} : Moves 0x8800001 s (forwardData a0 a1 s) := by
  unfold forwardData
  with_reducible
    repeat' first
      | exact .refl | assumption | refine (forEach_moves (m := 0x8800001) (fun _ _ => ?_)).step ?_ | refine batSend_moves.on ?_ rfl
      | refine (command_moves (m := 0x8800001) rfl (fun _ => ?_)).step ?_

theorem countIo_moves {a0 a1 a2} {s : State} : Moves 0x2000000 s (countIo a0 a1 a2 s) := by
  unfold countIo
  with_reducible
    repeat' first
      | exact .refl | assumption
      | (extract_lets +onlyGivenNames x; first | (refine .cut (x := x) ?_ ?_; (on_goal 1 => intro _; clear_value x); (on_goal 2 => subst x)) | subst x)
      | fail_if_no_progress refine mk_qe.on ?_ rfl

theorem setZone_moves {a0 a1 a2} {s : State} : Moves 0x8900001 s (setZone a0 a1 a2 s) := by
  unfold setZone
  with_reducible
    repeat' first
      | exact .refl | assumption
      | (extract_lets +onlyGivenNames x; first | (refine .cut (x := x) ?_ ?_; (on_goal 1 => intro _; clear_value x); (on_goal 2 => subst x)) | subst x)
      | refine setLband_moves.on ?_ rfl | refine journal_moves.on ?_ rfl

theorem openZone_moves {a0 a1} {s : State} : MovesO 0x8900001 s (openZone a0 a1 s) := by
  unfold openZone
  with_reducible
    repeat' first
      | exact .refl | assumption | exact .none | refine .some ?_
      | (extract_lets +onlyGivenNames x; first | (refine .cut (x := x) ?_ ?_; (on_goal 1 => intro _; clear_value x); (on_goal 2 => subst x)) | subst x)
      | refine setZone_moves.on ?_ rfl | refine onBnd_moves.on ?_ rfl | refine openBand_moves.on ?_ rfl | refine setLband_moves.on ?_ rfl
      | refine forceFlush_moves.on ?_ rfl | split | dsimp only

theorem zoneForWrite_moves {a0} {s : State} : MovesE 0x8900001 s (zoneForWrite a0 s) := by
  unfold zoneForWrite
  with_reducible
    repeat' first
      | exact .refl | assumption | exact .error | refine .ok ?_
      | (extract_lets +onlyGivenNames x; first | (refine .cut (x := x) ?_ ?_; (on_goal 1 => intro _; clear_value x); (on_goal 2 => subst x)) | subst x)
      | refine (openZone_moves.get (by assumption)).on ?_ rfl | refine openZone_moves.on ?_ rfl | split

theorem takeCredit_moves {a0 a1} {s : State} : Moves 0x100000 s (takeCredit a0 a1 s) := by
  unfold takeCredit
  with_reducible
    repeat' first
      | exact .refl | assumption
      | (extract_lets +onlyGivenNames x; first | (refine .cut (x := x) ?_ ?_; (on_goal 1 => intro _; clear_value x); (on_goal 2 => subst x)) | subst x)
      | refine setCredit_moves.on ?_ rfl | split

theorem admitBlock_moves {a0 a1 a2 a3 a4 a5} {s : State} : MovesO 0x8B00001 s (admitBlock a0 a1 a2 a3 a4 a5 s) := by
  unfold admitBlock
  with_reducible
    repeat' first
      | exact .refl | assumption | exact .none | refine .some ?_
      | (extract_lets +onlyGivenNames x; first | (refine .cut (x := x) ?_ ?_; (on_goal 1 => intro _; clear_value x); (on_goal 2 => subst x)) | subst x)
      | refine (takePlace_moves.get (by assumption)).on ?_ rfl | refine takePlace_moves.on ?_ rfl | refine (onBuf_moves ?_).on ?_ rfl
      | exact fun _ => rfl | refine cacheSet_moves.on ?_ rfl | refine memWrite_moves.on ?_ rfl | refine cacheDrop_moves.on ?_ rfl
      | refine onBnd_moves.on ?_ rfl | refine lwlClear_moves.on ?_ rfl | split

theorem admitBlocks_moves {a0 a1 a2 a3 a4} {s : State} : MovesO 0x8B00001 s (admitBlocks a0 a1 a2 a3 a4 s) := by
  induction a4 generalizing a0 a1 a2 a3 s with
  | nil =>
    unfold admitBlocks
    with_reducible
      repeat' first
       | exact .refl | assumption | exact .none | refine .some ?_ | refine (admitBlock_moves.get (by assumption)).on ?_ rfl
       | refine admitBlock_moves.on ?_ rfl | refine .bind admitBlock_moves (fun _ _ => ?_) | refine ih.on ?_ rfl
  | cons b l ih =>
    unfold admitBlocks
    with_reducible
      repeat' first
       | exact .refl | assumption | exact .none | refine .some ?_ | refine (admitBlock_moves.get (by assumption)).on ?_ rfl
       | refine admitBlock_moves.on ?_ rfl | refine .bind admitBlock_moves (fun _ _ => ?_) | refine ih.on ?_ rfl
       | refine (ih.get (by assumption)).on ?_ rfl | refine ih.on ?_ rfl


theorem mirrorWrite_moves {a0 a1 a2 a3} {s : State} : Moves 0x8A00001 s (mirrorWrite a0 a1 a2 a3 s) := by
  unfold mirrorWrite
  with_reducible
    repeat' first
      | exact .refl | assumption
      | (extract_lets +onlyGivenNames x; first | (refine .cut (x := x) ?_ ?_; (on_goal 1 => intro _; clear_value x); (on_goal 2 => subst x)) | subst x)
      | refine newTag_moves.on ?_ rfl | refine (newTag_moves.get (by assumption)).on ?_ rfl
      | refine (forEach_moves (m := 0x8A00001) (fun _ _ => ?_)).step ?_ | refine cacheSet_moves.on ?_ rfl | refine batSend_moves.on ?_ rfl
      | refine mirrored_moves.on ?_ rfl | fail_if_no_progress refine mk_bat.on ?_ rfl | split | dsimp only

theorem admitWrite_moves {a0 a1 a2 a3 a4} {s : State} : Moves 0xAB80B11 s (admitWrite a0 a1 a2 a3 a4 s) := by
  unfold admitWrite
  with_reducible
    repeat' first
      | exact .refl | assumption
      | (extract_lets +onlyGivenNames x; first | (refine .cut (x := x) ?_ ?_; (on_goal 1 => intro _; clear_value x); (on_goal 2 => subst x)) | subst x)
      | refine (admitBlocks_moves.get (by assumption)).on ?_ rfl | refine admitBlocks_moves.on ?_ rfl | refine writeNote_moves.on ?_ rfl
      | refine takeCredit_moves.on ?_ rfl | refine tally_moves.on ?_ rfl | refine countIo_moves.on ?_ rfl | refine onSlot_moves.on ?_ rfl
      | refine mirrorWrite_moves.on ?_ rfl | refine finish_moves.on ?_ rfl | split

theorem requestMedia_moves {a0 a1 a2 a3 a4 a5} {s : State} : Moves 0x80000 s (requestMedia a0 a1 a2 a3 a4 a5 s) := by
  induction a4 generalizing a5 s with
  | zero => rw [requestMedia]; exact .refl
  | succ k ih =>
    cases a5 with
    | nil => rw [requestMedia]; exact .refl; intro h; cases h
    | cons e rest =>
      obtain ⟨l, r⟩ := e
      cases r <;> rw [requestMedia]
      case media =>
        split
        · exact ih.on (request_moves.wide rfl) rfl
        · exact ih
      all_goals first | exact ih | (rintro _ _ ⟨⟩) | (rintro _ ⟨⟩) | (rintro ⟨⟩)

theorem takeSnapshot_moves {a0} {s : State} : Moves 0x2080001 s (takeSnapshot a0 s) := by
  unfold takeSnapshot
  with_reducible
    repeat' first
      | exact .refl | assumption
      | (extract_lets +onlyGivenNames x; first | (refine .cut (x := x) ?_ ?_; (on_goal 1 => intro _; clear_value x); (on_goal 2 => subst x)) | subst x)
      | refine count_moves.on ?_ rfl | refine setSlot_moves.on ?_ rfl | refine requestMedia_moves.on ?_ rfl | split | dsimp only

theorem sendVector_moves {a0 a1} {s : State} : Moves 0xA000000 s (sendVector a0 a1 s) := by
  unfold sendVector
  with_reducible
    repeat' first
      | exact .refl | assumption
      | (extract_lets +onlyGivenNames x; first | (refine .cut (x := x) ?_ ?_; (on_goal 1 => intro _; clear_value x); (on_goal 2 => subst x)) | subst x)
      | refine onCtrl_moves.on ?_ rfl | refine msixSend_moves.on ?_ rfl | split | dsimp only

theorem signal_moves {a0 a1} {s : State} : Moves 0xA000000 s (signal a0 a1 s) := by
  unfold signal
  with_reducible
    repeat' first
      | exact .refl | assumption
      | (extract_lets +onlyGivenNames x; first | (refine .cut (x := x) ?_ ?_; (on_goal 1 => intro _; clear_value x); (on_goal 2 => subst x)) | subst x)
      | refine sendVector_moves.on ?_ rfl | refine setCq_moves.on ?_ rfl | split

theorem putCompletion_moves {a0} {s : State} : Moves 0xA080B01 s (putCompletion a0 s) := by
  unfold putCompletion
  with_reducible
    repeat' first
      | exact .refl | assumption
      | (extract_lets +onlyGivenNames x; first | (refine .cut (x := x) ?_ ?_; (on_goal 1 => intro _; clear_value x); (on_goal 2 => subst x)) | subst x)
      | refine setCtrl_moves.on ?_ rfl | refine countIo_moves.on ?_ rfl | refine (forEach_moves (m := 0xA080B01) (fun _ _ => ?_)).step ?_
      | refine emit_moves.on ?_ rfl | refine setCq_moves.on ?_ rfl | refine histo_moves.on ?_ rfl | refine freeSlot_moves.on ?_ rfl
      | refine signal_moves.on ?_ rfl | split

theorem finishDeletes_moves {s : State} : Moves 0x2080001 s (finishDeletes s) := by
  unfold finishDeletes
  with_reducible
    repeat' first
      | exact .refl | assumption
      | (extract_lets +onlyGivenNames x; first | (refine .cut (x := x) ?_ ?_; (on_goal 1 => intro _; clear_value x); (on_goal 2 => subst x)) | subst x)
      | refine (forEach_moves (m := 0x2080001) (fun _ _ => ?_)).step ?_ | refine finish_moves.on ?_ rfl | refine onCtrl_moves.on ?_ rfl | split

theorem postHeld_moves {a0 a1 a2} {s : State} : Moves 0xA080B01 s (postHeld a0 a1 a2 s) := by
  induction a2 generalizing a0 a1 s with
  | zero =>
    unfold postHeld
    with_reducible
      repeat' first
       | exact .refl | assumption
       | (extract_lets +onlyGivenNames x; first | (refine .cut (x := x) ?_ ?_; (on_goal 1 => intro _; clear_value x); (on_goal 2 => subst x)) | subst x)
       | refine putCompletion_moves.on ?_ rfl | refine setCq_moves.on ?_ rfl | split
  | succ k ih =>
    unfold postHeld
    with_reducible
      repeat' first
       | exact .refl | assumption
       | (extract_lets +onlyGivenNames x; first | (refine .cut (x := x) ?_ ?_; (on_goal 1 => intro _; clear_value x); (on_goal 2 => subst x)) | subst x)
       | refine putCompletion_moves.on ?_ rfl | refine setCq_moves.on ?_ rfl | split | refine ih.on ?_ rfl


theorem sendDone_moves {a0 a1 a2} {s : State} : Moves 0xA880001 s (sendDone a0 a1 a2 s) := by
  unfold sendDone
  with_reducible
    repeat' first
      | exact .refl | assumption
      | (extract_lets +onlyGivenNames x; first | (refine .cut (x := x) ?_ ?_; (on_goal 1 => intro _; clear_value x); (on_goal 2 => subst x)) | subst x)
      | refine forwardData_moves.on ?_ rfl | refine batSend_moves.on ?_ rfl | refine freeSlot_moves.on ?_ rfl
      | fail_if_no_progress refine mk_bat.on ?_ rfl | split

theorem postCompletion_moves {a0} {s : State} : Moves 0xA880B01 s (postCompletion a0 s) := by
  unfold postCompletion
  with_reducible
    repeat' first
      | exact .refl | assumption
      | (extract_lets +onlyGivenNames x; first | (refine .cut (x := x) ?_ ?_; (on_goal 1 => intro _; clear_value x); (on_goal 2 => subst x)) | subst x)
      | refine finish_moves.on ?_ rfl | refine sendDone_moves.on ?_ rfl | refine setCq_moves.on ?_ rfl | refine flag_moves.on ?_ rfl
      | refine setSlot_moves.on ?_ rfl | refine finishDeletes_moves.on ?_ rfl | refine putCompletion_moves.on ?_ rfl | refine freeSlot_moves.on ?_ rfl
      | split

theorem enableController_moves {a0 a1 a2 a3 a4 a5} {s : State} : Moves 0x2000000 s (enableController a0 a1 a2 a3 a4 a5 s) := by
  unfold enableController
  with_reducible
    repeat' first
      | exact .refl | assumption
      | (extract_lets +onlyGivenNames x; first | (refine .cut (x := x) ?_ ?_; (on_goal 1 => intro _; clear_value x); (on_goal 2 => subst x)) | subst x)
      | refine readyControllers_moves.on ?_ rfl | refine setCtrl_moves.on ?_ rfl | split

theorem execControllerEnable_moves {a0 a1 a2 a3 a4 a5} {s : State} : MovesR 0x1F9FEB31 s (execControllerEnable a0 a1 a2 a3 a4 a5 s) := by
  unfold execControllerEnable
  with_reducible
    repeat' first
      | exact .refl | assumption | exact .fault | refine .next ?_ | refine settle_moves.on ?_ rfl | refine enableController_moves.on ?_ rfl

theorem execFlr_moves {a0} {s : State} : MovesR 0x1F9FEB31 s (execFlr a0 s) := by
  unfold execFlr
  with_reducible
    repeat' first
      | exact .refl | assumption | exact .fault | refine .next ?_ | refine settle_moves.on ?_ rfl | refine resetFunction_moves.on ?_ rfl
      | refine flag_moves.on ?_ rfl | split

theorem execControllerReset_moves {a0} {s : State} : MovesR 0x1F9FEB31 s (execControllerReset a0 s) := by
  unfold execControllerReset
  with_reducible
    repeat' first
      | exact .refl | assumption | exact .fault | refine .next ?_ | refine settle_moves.on ?_ rfl | refine resetFunction_moves.on ?_ rfl | split

theorem execHotReset_moves {a0} {s : State} : MovesR 0x1F9FEB31 s (execHotReset a0 s) := by
  unfold execHotReset
  with_reducible
    repeat' first
      | exact .refl | assumption | exact .fault | refine .next ?_ | refine settle_moves.on ?_ rfl
      | refine (forEach_moves (m := 0x1F9FEB31) (fun _ _ => ?_)).step ?_ | refine resetFunction_moves.on ?_ rfl | split

theorem execLinkDown_moves {a0} {s : State} : MovesR 0x1F9FEB31 s (execLinkDown a0 s) := by
  unfold execLinkDown
  with_reducible
    repeat' first
      | exact .refl | assumption | exact .fault | refine .next ?_ | refine settle_moves.on ?_ rfl | refine linkGone_moves.on ?_ rfl | split

theorem execLinkUp_moves {a0 a1 a2} {s : State} : MovesR 0x1 s (execLinkUp a0 a1 a2 s) := by
  unfold execLinkUp
  with_reducible
    repeat' first
      | exact .refl | assumption | exact .fault | refine .next ?_
      | (extract_lets +onlyGivenNames x; first | (refine .cut (x := x) ?_ ?_; (on_goal 1 => intro _; clear_value x); (on_goal 2 => subst x)) | subst x)
      | refine put_moves.on ?_ rfl | split

theorem cfgWrite_moves {a0 a1 a2} {s : State} : Moves 0xA080001 s (cfgWrite a0 a1 a2 s) := by
  unfold cfgWrite
  with_reducible
    repeat' first
      | exact .refl | assumption
      | (extract_lets +onlyGivenNames x; first | (refine .cut (x := x) ?_ ?_; (on_goal 1 => intro _; clear_value x); (on_goal 2 => subst x)) | subst x)
      | refine (forEach_moves (m := 0xA080001) (fun _ _ => ?_)).step ?_ | refine msixRelease_moves.on ?_ rfl | refine put_moves.on ?_ rfl
      | refine putB_moves.on ?_ rfl | refine resetFunction_moves.on ?_ rfl | refine onPci_moves.on ?_ rfl | split | dsimp only

theorem cfgEff_moves {a0 a1} {s : State} : Moves 0xA080001 s (cfgEff a0 a1 s) := by
  unfold cfgEff
  with_reducible
    repeat' first
      | exact .refl | assumption | refine cfgWrite_moves.on ?_ rfl | refine emit_moves.on ?_ rfl | refine msixRelease_moves.on ?_ rfl
      | refine onPci_moves.on ?_ rfl | split | dsimp only

theorem execConfigurationRequest_moves {a0 a1} {s : State} : MovesR 0x1F9FEB31 s (execConfigurationRequest a0 a1 s) := by
  unfold execConfigurationRequest
  with_reducible
    repeat' first
      | exact .refl | assumption | exact .fault | refine .next ?_
      | (extract_lets +onlyGivenNames x; first | (refine .cut (x := x) ?_ ?_; (on_goal 1 => intro _; clear_value x); (on_goal 2 => subst x)) | subst x)
      | refine settle_moves.on ?_ rfl | refine cfgEff_moves.on ?_ rfl | split | dsimp only

theorem transferError_moves {a0} {s : State} : Moves 0x2080001 s (transferError a0 s) := by
  unfold transferError
  with_reducible
    repeat' first
      | exact .refl | assumption
      | (extract_lets +onlyGivenNames x; first | (refine .cut (x := x) ?_ ?_; (on_goal 1 => intro _; clear_value x); (on_goal 2 => subst x)) | subst x)
      | refine finish_moves.on ?_ rfl | refine onSlot_moves.on ?_ rfl | split | dsimp only

theorem execTlpErrorReceived_moves {a0 a1} {s : State} : MovesR 0x1F9FEB31 s (execTlpErrorReceived a0 a1 s) := by
  unfold execTlpErrorReceived
  with_reducible
    repeat' first
      | exact .refl | assumption | exact .fault | refine .next ?_
      | (extract_lets +onlyGivenNames x; first | (refine .cut (x := x) ?_ ?_; (on_goal 1 => intro _; clear_value x); (on_goal 2 => subst x)) | subst x)
      | refine portCorrectable_moves.on ?_ rfl | refine portUncorrectable_moves.on ?_ rfl | refine settle_moves.on ?_ rfl
      | refine transferError_moves.on ?_ rfl | split

theorem execSqTailDoorbell_moves {a0 a1 a2} {s : State} : MovesR 0x2080901 s (execSqTailDoorbell a0 a1 a2 s) := by
  unfold execSqTailDoorbell
  with_reducible
    repeat' first
      | exact .refl | assumption | exact .fault | refine .next ?_
      | (extract_lets +onlyGivenNames x; first | (refine .cut (x := x) ?_ ?_; (on_goal 1 => intro _; clear_value x); (on_goal 2 => subst x)) | subst x)
      | refine setSq_moves.on ?_ rfl | refine badDoorbell_moves.on ?_ rfl | split

theorem execCqHeadDoorbell_moves {a0 a1 a2} {s : State} : MovesR 0x1F9FEB31 s (execCqHeadDoorbell a0 a1 a2 s) := by
  unfold execCqHeadDoorbell
  with_reducible
    repeat' first
      | exact .refl | assumption | exact .fault | refine .next ?_
      | (extract_lets +onlyGivenNames x; first | (refine .cut (x := x) ?_ ?_; (on_goal 1 => intro _; clear_value x); (on_goal 2 => subst x)) | subst x)
      | refine showSlots_moves.on ?_ rfl | refine setCq_moves.on ?_ rfl | refine settle_moves.on ?_ rfl | refine finishDeletes_moves.on ?_ rfl
      | refine postHeld_moves.on ?_ rfl | refine badDoorbell_moves.on ?_ rfl | split

theorem execFetchVisit_moves {a0} {s : State} : MovesR 0xA000000 s (execFetchVisit a0 s) := by
  unfold execFetchVisit
  with_reducible
    repeat' first
      | exact .refl | assumption | exact .fault | refine .next ?_
      | (extract_lets +onlyGivenNames x; first | (refine .cut (x := x) ?_ ?_; (on_goal 1 => intro _; clear_value x); (on_goal 2 => subst x)) | subst x)
      | refine visit_moves.on ?_ rfl | split

theorem enterCommand_moves {a0 a1} {s : State} : Moves 0xA880901 s (enterCommand a0 a1 s) := by
  unfold enterCommand
  with_reducible
    repeat' first
      | exact .refl | assumption
      | (extract_lets +onlyGivenNames x; first | (refine .cut (x := x) ?_ ?_; (on_goal 1 => intro _; clear_value x); (on_goal 2 => subst x)) | subst x)
      | refine setSlot_moves.on ?_ rfl | refine flag_moves.on ?_ rfl | refine enterRuns_moves.on ?_ rfl | refine irq_moves.on ?_ rfl
      | refine finish_moves.on ?_ rfl | refine onSlot_moves.on ?_ rfl | refine forwardCmd_moves.on ?_ rfl | split | dsimp only

theorem execEntryDecode_moves {s : State} : MovesR 0x1F9FEB31 s (execEntryDecode s) := by
  unfold execEntryDecode
  with_reducible
    repeat' first
      | exact .refl | assumption | exact .fault | refine .next ?_
      | (extract_lets +onlyGivenNames x; first | (refine .cut (x := x) ?_ ?_; (on_goal 1 => intro _; clear_value x); (on_goal 2 => subst x)) | subst x)
      | refine settle_moves.on ?_ rfl | refine finish_moves.on ?_ rfl | refine enterRuns_moves.on ?_ rfl | refine setSlot_moves.on ?_ rfl
      | refine enterCommand_moves.on ?_ rfl | fail_if_no_progress refine mk_qe.on ?_ rfl | split

theorem zoneAdmit_moves {a0 a1} {s : State} : MovesE 0x8900001 s (zoneAdmit a0 a1 s) := by
  unfold zoneAdmit
  with_reducible
    repeat' first
      | exact .refl | assumption | exact .error | refine .ok ?_
      | (extract_lets +onlyGivenNames x; first | (refine .cut (x := x) ?_ ?_; (on_goal 1 => intro _; clear_value x); (on_goal 2 => subst x)) | subst x)
      | refine (zoneForWrite_moves.get (by assumption)).on ?_ rfl | refine zoneForWrite_moves.on ?_ rfl | split

theorem admitSlot_moves {a0} {s : State} : Moves 0xAB80B11 s (admitSlot a0 s) := by
  unfold admitSlot
  with_reducible
    repeat' first
      | exact .refl | assumption
      | (extract_lets +onlyGivenNames x; first | (refine .cut (x := x) ?_ ?_; (on_goal 1 => intro _; clear_value x); (on_goal 2 => subst x)) | subst x)
      | refine finish_moves.on ?_ rfl | refine countWait_moves.on ?_ rfl | refine (zoneAdmit_moves.get (by assumption)).on ?_ rfl
      | refine zoneAdmit_moves.on ?_ rfl | refine failBlock_moves.on ?_ rfl | refine admitWrite_moves.on ?_ rfl | refine setZone_moves.on ?_ rfl
      | refine (write_moves (m := 0xAB80B11) rfl (fun _ => ?_)).step ?_ | split

theorem execWriteAdmission_moves {a0} {s : State} : MovesR 0x1FBFEB31 s (execWriteAdmission a0 s) := by
  unfold execWriteAdmission
  with_reducible
    repeat' first
      | exact .refl | assumption | exact .fault | refine .next ?_ | refine settle_moves.on ?_ rfl | refine admitSlot_moves.on ?_ rfl

theorem execReadSnapshot_moves {a0} {s : State} : MovesR 0x1F9FEB31 s (execReadSnapshot a0 s) := by
  unfold execReadSnapshot
  with_reducible
    repeat' first
      | exact .refl | assumption | exact .fault | refine .next ?_
      | (extract_lets +onlyGivenNames x; first | (refine .cut (x := x) ?_ ?_; (on_goal 1 => intro _; clear_value x); (on_goal 2 => subst x)) | subst x)
      | refine countWait_moves.on ?_ rfl | refine settle_moves.on ?_ rfl | refine takeSnapshot_moves.on ?_ rfl | split

theorem execCompletionPost_moves {a0} {s : State} : MovesR 0x1F9FEB31 s (execCompletionPost a0 s) := by
  unfold execCompletionPost
  with_reducible
    repeat' first
      | exact .refl | assumption | exact .fault | refine .next ?_ | refine settle_moves.on ?_ rfl | refine postCompletion_moves.on ?_ rfl

theorem execCoalesceTimer_moves {a0 a1} {s : State} : MovesR 0xA000000 s (execCoalesceTimer a0 a1 s) := by
  unfold execCoalesceTimer
  with_reducible
    repeat' first
      | exact .refl | assumption | exact .fault | refine .next ?_
      | (extract_lets +onlyGivenNames x; first | (refine .cut (x := x) ?_ ?_; (on_goal 1 => intro _; clear_value x); (on_goal 2 => subst x)) | subst x)
      | refine sendVector_moves.on ?_ rfl | split

theorem execPoisonedTlp_moves {a0} {s : State} : MovesR 0x1F9FEB31 s (execPoisonedTlp a0 s) := by
  unfold execPoisonedTlp
  with_reducible
    repeat' first
      | exact .refl | assumption | exact .fault | refine .next ?_
      | (extract_lets +onlyGivenNames x; first | (refine .cut (x := x) ?_ ?_; (on_goal 1 => intro _; clear_value x); (on_goal 2 => subst x)) | subst x)
      | refine settle_moves.on ?_ rfl | refine transferError_moves.on ?_ rfl | refine portPoison_moves.on ?_ rfl | split

theorem execCompletionTimeout_moves {a0} {s : State} : MovesR 0x1F9FEB31 s (execCompletionTimeout a0 s) := by
  unfold execCompletionTimeout
  with_reducible
    repeat' first
      | exact .refl | assumption | exact .fault | refine .next ?_
      | (extract_lets +onlyGivenNames x; first | (refine .cut (x := x) ?_ ?_; (on_goal 1 => intro _; clear_value x); (on_goal 2 => subst x)) | subst x)
      | refine settle_moves.on ?_ rfl | refine transferError_moves.on ?_ rfl | refine portUncorrectable_moves.on ?_ rfl | split

theorem onDecoded_moves {m : Nat} {a0 f2} {s : State} (hm : 0x1F9FEB31 ||| m = m) (hf2 : ∀ x0 t, Moves m t (f2 x0 t)) : MovesR m s (onDecoded a0 s f2) := by
  unfold onDecoded
  with_reducible
    repeat' first
      | exact .refl | assumption | exact hf2 .. | refine (hf2 ..).step ?_ | exact .fault | refine .next ?_
      | (extract_lets +onlyGivenNames x; first | (refine .cut (x := x) ?_ ?_; (on_goal 1 => intro _; clear_value x); (on_goal 2 => subst x)) | subst x)
      | refine settle_moves.on ?_ (sub_of hm rfl) | split

theorem adminRow_moves {m : Nat} {a0 f2} {s : State} (hm : 0x1F9FEB31 ||| m = m) (hf2 : ∀ x0 t, Moves m t (f2 x0 t)) : MovesR m s (adminRow a0 s f2) := by
  unfold adminRow
  with_reducible
    repeat' first
      | exact .refl | assumption | exact hf2 .. | refine (hf2 ..).step ?_ | exact .fault | refine .next ?_
      | refine (onDecoded_moves (m := m) (sub_of hm rfl) (fun _ _ => ?_)).on ?_ (Nat.or_self _) | refine finish_moves.on ?_ (sub_of hm rfl) | split

theorem refuse_moves {a0 a1} {s : State} : Moves 0x2080001 s (refuse a0 a1 s) := by
  unfold refuse
  with_reducible
    repeat' first
      | exact .refl | assumption | refine finish_moves.on ?_ rfl

theorem answerData_moves {a0 a1 a2} {s : State} : Moves 0x2080001 s (answerData a0 a1 a2 s) := by
  unfold answerData
  with_reducible
    repeat' first
      | exact .refl | assumption
      | (extract_lets +onlyGivenNames x; first | (refine .cut (x := x) ?_ ?_; (on_goal 1 => intro _; clear_value x); (on_goal 2 => subst x)) | subst x)
      | refine finish_moves.on ?_ rfl | refine onSlot_moves.on ?_ rfl

theorem answerDw0_moves {a0 a1} {s : State} : Moves 0x2080001 s (answerDw0 a0 a1 s) := by
  unfold answerDw0
  with_reducible
    repeat' first
      | exact .refl | assumption
      | (extract_lets +onlyGivenNames x; first | (refine .cut (x := x) ?_ ?_; (on_goal 1 => intro _; clear_value x); (on_goal 2 => subst x)) | subst x)
      | refine finish_moves.on ?_ rfl

theorem execCreateIoSq_moves {a0} {s : State} : MovesR 0x1F9FEB31 s (execCreateIoSq a0 s) := by
  unfold execCreateIoSq
  with_reducible
    repeat' first
      | exact .refl | assumption | exact .fault | refine .next ?_
      | (extract_lets +onlyGivenNames x; first | (refine .cut (x := x) ?_ ?_; (on_goal 1 => intro _; clear_value x); (on_goal 2 => subst x)) | subst x)
      | refine (adminRow_moves (m := 0x1F9FEB31) rfl (fun _ _ => ?_)).on ?_ (Nat.or_self _) | refine refuse_moves.on ?_ rfl
      | refine finish_moves.on ?_ rfl | refine setSq_moves.on ?_ rfl | split

theorem execCreateIoCq_moves {a0} {s : State} : MovesR 0x1F9FEB31 s (execCreateIoCq a0 s) := by
  unfold execCreateIoCq
  with_reducible
    repeat' first
      | exact .refl | assumption | exact .fault | refine .next ?_
      | (extract_lets +onlyGivenNames x; first | (refine .cut (x := x) ?_ ?_; (on_goal 1 => intro _; clear_value x); (on_goal 2 => subst x)) | subst x)
      | refine (adminRow_moves (m := 0x1F9FEB31) rfl (fun _ _ => ?_)).on ?_ (Nat.or_self _) | refine refuse_moves.on ?_ rfl
      | refine finish_moves.on ?_ rfl | refine setCq_moves.on ?_ rfl | split

theorem execDeleteIoSq_moves {a0} {s : State} : MovesR 0x1F9FEB31 s (execDeleteIoSq a0 s) := by
  unfold execDeleteIoSq
  with_reducible
    repeat' first
      | exact .refl | assumption | exact .fault | refine .next ?_
      | (extract_lets +onlyGivenNames x; first | (refine .cut (x := x) ?_ ?_; (on_goal 1 => intro _; clear_value x); (on_goal 2 => subst x)) | subst x)
      | refine (adminRow_moves (m := 0x1F9FEB31) rfl (fun _ _ => ?_)).on ?_ (Nat.or_self _) | refine refuse_moves.on ?_ rfl
      | refine setSq_moves.on ?_ rfl | refine finishDeletes_moves.on ?_ rfl | refine (forEach_moves (m := 0x1F9FEB31) (fun _ _ => ?_)).step ?_
      | refine finish_moves.on ?_ rfl | split

theorem execDeleteIoCq_moves {a0} {s : State} : MovesR 0x1F9FEB31 s (execDeleteIoCq a0 s) := by
  unfold execDeleteIoCq
  with_reducible
    repeat' first
      | exact .refl | assumption | exact .fault | refine .next ?_
      | (extract_lets +onlyGivenNames x; first | (refine .cut (x := x) ?_ ?_; (on_goal 1 => intro _; clear_value x); (on_goal 2 => subst x)) | subst x)
      | refine (adminRow_moves (m := 0x1F9FEB31) rfl (fun _ _ => ?_)).on ?_ (Nat.or_self _) | refine refuse_moves.on ?_ rfl
      | refine finish_moves.on ?_ rfl | refine showSlots_moves.on ?_ rfl | refine setCtrl_moves.on ?_ rfl | split

theorem execAbort_moves {a0} {s : State} : MovesR 0x1F9FEB31 s (execAbort a0 s) := by
  unfold execAbort
  with_reducible
    repeat' first
      | exact .refl | assumption | exact .fault | refine .next ?_
      | (extract_lets +onlyGivenNames x; first | (refine .cut (x := x) ?_ ?_; (on_goal 1 => intro _; clear_value x); (on_goal 2 => subst x)) | subst x)
      | refine (adminRow_moves (m := 0x1F9FEB31) rfl (fun _ _ => ?_)).on ?_ (Nat.or_self _) | refine refuse_moves.on ?_ rfl
      | refine onCtrl_moves.on ?_ rfl | refine finish_moves.on ?_ rfl | refine answerDw0_moves.on ?_ rfl | split

theorem execAsyncEventRequest_moves {a0} {s : State} : MovesR 0x1F9FEB31 s (execAsyncEventRequest a0 s) := by
  unfold execAsyncEventRequest
  with_reducible
    repeat' first
      | exact .refl | assumption | exact .fault | refine .next ?_
      | (extract_lets +onlyGivenNames x; first | (refine .cut (x := x) ?_ ?_; (on_goal 1 => intro _; clear_value x); (on_goal 2 => subst x)) | subst x)
      | refine (adminRow_moves (m := 0x1F9FEB31) rfl (fun _ _ => ?_)).on ?_ (Nat.or_self _) | refine refuse_moves.on ?_ rfl
      | refine setCtrl_moves.on ?_ rfl | refine asyncEvent_moves.on ?_ rfl | split

theorem execIdentify_moves {a0} {s : State} : MovesR 0x1F9FEB31 s (execIdentify a0 s) := by
  unfold execIdentify
  with_reducible
    repeat' first
      | exact .refl | assumption | exact .fault | refine .next ?_
      | (extract_lets +onlyGivenNames x; first | (refine .cut (x := x) ?_ ?_; (on_goal 1 => intro _; clear_value x); (on_goal 2 => subst x)) | subst x)
      | refine (adminRow_moves (m := 0x1F9FEB31) rfl (fun _ _ => ?_)).on ?_ (Nat.or_self _) | refine answerData_moves.on ?_ rfl
      | refine refuse_moves.on ?_ rfl | split

theorem pageRead_moves {a0 a1} {s : State} : Moves 0x2000000 s (pageRead a0 a1 s) := by
  unfold pageRead
  with_reducible
    repeat' first
      | exact .refl | assumption
      | (extract_lets +onlyGivenNames x; first | (refine .cut (x := x) ?_ ?_; (on_goal 1 => intro _; clear_value x); (on_goal 2 => subst x)) | subst x)
      | refine onCtrl_moves.on ?_ rfl | refine (foldl_moves (m := 0x2000000) (fun _ _ => ?_)).step ?_ | split

theorem execGetLogPage_moves {a0} {s : State} : MovesR 0x1F9FEB31 s (execGetLogPage a0 s) := by
  unfold execGetLogPage
  with_reducible
    repeat' first
      | exact .refl | assumption | exact .fault | refine .next ?_
      | (extract_lets +onlyGivenNames x; first | (refine .cut (x := x) ?_ ?_; (on_goal 1 => intro _; clear_value x); (on_goal 2 => subst x)) | subst x)
      | refine (adminRow_moves (m := 0x1F9FEB31) rfl (fun _ _ => ?_)).on ?_ (Nat.or_self _) | refine free_moves.on ?_ rfl
      | refine (free_moves.get (by assumption)).on ?_ rfl | refine refuse_moves.on ?_ rfl | refine answerData_moves.on ?_ rfl
      | refine pageRead_moves.on ?_ rfl | split | refine Moves.get (Moves.iteSnd ?_ ?_) (by assumption) | dsimp only

theorem execGetFeatures_moves {a0} {s : State} : MovesR 0x1F9FEB31 s (execGetFeatures a0 s) := by
  unfold execGetFeatures
  with_reducible
    repeat' first
      | exact .refl | assumption | exact .fault | refine .next ?_
      | (extract_lets +onlyGivenNames x; first | (refine .cut (x := x) ?_ ?_; (on_goal 1 => intro _; clear_value x); (on_goal 2 => subst x)) | subst x)
      | refine (adminRow_moves (m := 0x1F9FEB31) rfl (fun _ _ => ?_)).on ?_ (Nat.or_self _) | refine answerDw0_moves.on ?_ rfl
      | refine refuse_moves.on ?_ rfl | refine free_moves.on ?_ rfl | refine (free_moves.get (by assumption)).on ?_ rfl
      | refine answerData_moves.on ?_ rfl | split

theorem setFeature_moves {a1 a2 a3 a4} {s : State} : MovesW 0x2000000 s (setFeature s a1 a2 a3 a4) := by
  unfold setFeature
  with_reducible
    repeat' first
      | exact .refl | assumption | exact .error | refine .ok ?_
      | (extract_lets +onlyGivenNames x; first | (refine .cut (x := x) ?_ ?_; (on_goal 1 => intro _; clear_value x); (on_goal 2 => subst x)) | subst x)
      | refine setCtrl_moves.on ?_ rfl | refine put_moves.on ?_ rfl | fail_if_no_progress refine mk_qe.on ?_ rfl | split | dsimp only

theorem execSetFeatures_moves {a0} {s : State} : MovesR 0x1F9FEB31 s (execSetFeatures a0 s) := by
  unfold execSetFeatures
  with_reducible
    repeat' first
      | exact .refl | assumption | exact .fault | refine .next ?_
      | (extract_lets +onlyGivenNames x; first | (refine .cut (x := x) ?_ ?_; (on_goal 1 => intro _; clear_value x); (on_goal 2 => subst x)) | subst x)
      | refine (adminRow_moves (m := 0x1F9FEB31) rfl (fun _ _ => ?_)).on ?_ (Nat.or_self _) | refine refuse_moves.on ?_ rfl
      | refine (setFeature_moves.get (by assumption)).on ?_ rfl | refine setFeature_moves.on ?_ rfl | refine answerDw0_moves.on ?_ rfl | split

theorem execNamespaceCreate_moves {a0 a1} {s : State} : MovesR 0x1F9FFB31 s (execNamespaceCreate a0 a1 s) := by
  unfold execNamespaceCreate
  with_reducible
    repeat' first
      | exact .refl | assumption | exact .fault | refine .next ?_
      | (extract_lets +onlyGivenNames x; first | (refine .cut (x := x) ?_ ?_; (on_goal 1 => intro _; clear_value x); (on_goal 2 => subst x)) | subst x)
      | refine (adminRow_moves (m := 0x1F9FFB31) rfl (fun _ _ => ?_)).on ?_ (Nat.or_self _) | refine refuse_moves.on ?_ rfl
      | refine newKey_moves.on ?_ rfl | refine (newKey_moves.get (by assumption)).on ?_ rfl | refine answerDw0_moves.on ?_ rfl
      | refine awaitJack_moves.on ?_ rfl | refine journalNs_moves.on ?_ rfl | refine setNs_moves.on ?_ rfl | refine count_moves.on ?_ rfl | split

theorem execNamespaceDelete_moves {a0 a1} {s : State} : MovesR 0x1FBFFB31 s (execNamespaceDelete a0 a1 s) := by
  unfold execNamespaceDelete
  with_reducible
    repeat' first
      | exact .refl | assumption | exact .fault | refine .next ?_
      | (extract_lets +onlyGivenNames x; first | (refine .cut (x := x) ?_ ?_; (on_goal 1 => intro _; clear_value x); (on_goal 2 => subst x)) | subst x)
      | refine (adminRow_moves (m := 0x1FBFFB31) rfl (fun _ _ => ?_)).on ?_ (Nat.or_self _) | refine refuse_moves.on ?_ rfl
      | refine eraseCommand_moves.on ?_ rfl | refine nsChanged_moves.on ?_ rfl | split

theorem execNamespaceAttach_moves {a0} {s : State} : MovesR 0x1F9FEB31 s (execNamespaceAttach a0 s) := by
  unfold execNamespaceAttach
  with_reducible
    repeat' first
      | exact .refl | assumption | exact .fault | refine .next ?_
      | (extract_lets +onlyGivenNames x; first | (refine .cut (x := x) ?_ ?_; (on_goal 1 => intro _; clear_value x); (on_goal 2 => subst x)) | subst x)
      | refine (adminRow_moves (m := 0x1F9FEB31) rfl (fun _ _ => ?_)).on ?_ (Nat.or_self _) | refine refuse_moves.on ?_ rfl
      | refine finish_moves.on ?_ rfl | refine nsChanged_moves.on ?_ rfl | refine setNs_moves.on ?_ rfl
      | refine (foldl_moves (m := 0x1F9FEB31) (fun _ _ => ?_)).step ?_ | split

theorem execNamespaceDetach_moves {a0} {s : State} : MovesR 0x1F9FEB31 s (execNamespaceDetach a0 s) := by
  unfold execNamespaceDetach
  with_reducible
    repeat' first
      | exact .refl | assumption | exact .fault | refine .next ?_
      | (extract_lets +onlyGivenNames x; first | (refine .cut (x := x) ?_ ?_; (on_goal 1 => intro _; clear_value x); (on_goal 2 => subst x)) | subst x)
      | refine (adminRow_moves (m := 0x1F9FEB31) rfl (fun _ _ => ?_)).on ?_ (Nat.or_self _) | refine refuse_moves.on ?_ rfl
      | refine finish_moves.on ?_ rfl | refine nsChanged_moves.on ?_ rfl | refine setNs_moves.on ?_ rfl | split

theorem execSecondaryOffline_moves {a0} {s : State} : MovesR 0x1F9FEB31 s (execSecondaryOffline a0 s) := by
  unfold execSecondaryOffline
  with_reducible
    repeat' first
      | exact .refl | assumption | exact .fault | refine .next ?_
      | (extract_lets +onlyGivenNames x; first | (refine .cut (x := x) ?_ ?_; (on_goal 1 => intro _; clear_value x); (on_goal 2 => subst x)) | subst x)
      | refine (adminRow_moves (m := 0x1F9FEB31) rfl (fun _ _ => ?_)).on ?_ (Nat.or_self _) | refine finish_moves.on ?_ rfl
      | refine onCtrl_moves.on ?_ rfl | refine resetFunction_moves.on ?_ rfl | refine refuse_moves.on ?_ rfl | split

theorem execSecondaryAssign_moves {a0} {s : State} : MovesR 0x1F9FEB31 s (execSecondaryAssign a0 s) := by
  unfold execSecondaryAssign
  with_reducible
    repeat' first
      | exact .refl | assumption | exact .fault | refine .next ?_
      | (extract_lets +onlyGivenNames x; first | (refine .cut (x := x) ?_ ?_; (on_goal 1 => intro _; clear_value x); (on_goal 2 => subst x)) | subst x)
      | refine (adminRow_moves (m := 0x1F9FEB31) rfl (fun _ _ => ?_)).on ?_ (Nat.or_self _) | refine refuse_moves.on ?_ rfl
      | refine answerDw0_moves.on ?_ rfl | refine setCtrl_moves.on ?_ rfl | refine count_moves.on ?_ rfl | split

theorem execSecondaryOnline_moves {a0} {s : State} : MovesR 0x1F9FEB31 s (execSecondaryOnline a0 s) := by
  unfold execSecondaryOnline
  with_reducible
    repeat' first
      | exact .refl | assumption | exact .fault | refine .next ?_
      | (extract_lets +onlyGivenNames x; first | (refine .cut (x := x) ?_ ?_; (on_goal 1 => intro _; clear_value x); (on_goal 2 => subst x)) | subst x)
      | refine (adminRow_moves (m := 0x1F9FEB31) rfl (fun _ _ => ?_)).on ?_ (Nat.or_self _) | refine refuse_moves.on ?_ rfl
      | refine finish_moves.on ?_ rfl | refine setCtrl_moves.on ?_ rfl | split

theorem execPrimaryFlexibleAllocation_moves {a0} {s : State} : MovesR 0x1F9FEB31 s (execPrimaryFlexibleAllocation a0 s) := by
  unfold execPrimaryFlexibleAllocation
  with_reducible
    repeat' first
      | exact .refl | assumption | exact .fault | refine .next ?_
      | (extract_lets +onlyGivenNames x; first | (refine .cut (x := x) ?_ ?_; (on_goal 1 => intro _; clear_value x); (on_goal 2 => subst x)) | subst x)
      | refine (adminRow_moves (m := 0x1F9FEB31) rfl (fun _ _ => ?_)).on ?_ (Nat.or_self _) | refine refuse_moves.on ?_ rfl | split

theorem beginActivity_moves {a0} {s : State} : Moves 0x801 s (beginActivity a0 s) := by
  unfold beginActivity
  with_reducible
    repeat' first
      | exact .refl | assumption | refine irq_moves.on ?_ rfl | refine put_moves.on ?_ rfl

theorem execFormatNvm_moves {a0 a1} {s : State} : MovesR 0x1FBFFB31 s (execFormatNvm a0 a1 s) := by
  unfold execFormatNvm
  with_reducible
    repeat' first
      | exact .refl | assumption | exact .fault | refine .next ?_
      | (extract_lets +onlyGivenNames x; first | (refine .cut (x := x) ?_ ?_; (on_goal 1 => intro _; clear_value x); (on_goal 2 => subst x)) | subst x)
      | refine (adminRow_moves (m := 0x1FBFFB31) rfl (fun _ _ => ?_)).on ?_ (Nat.or_self _) | refine refuse_moves.on ?_ rfl
      | refine eraseCommand_moves.on ?_ rfl | refine beginActivity_moves.on ?_ rfl | refine (forEach_moves (m := 0x1FBFFB31) (fun _ _ => ?_)).step ?_
      | refine nsChanged_moves.on ?_ rfl | refine awaitJack_moves.on ?_ rfl | refine journalNs_moves.on ?_ rfl | refine setNs_moves.on ?_ rfl | split

theorem sanitize_moves {a0 a1 a2 a3} {s : State} : Moves 0x1AB81B01 s (sanitize a0 a1 a2 a3 s) := by
  unfold sanitize
  with_reducible
    repeat' first
      | exact .refl | assumption
      | (extract_lets +onlyGivenNames x; first | (refine .cut (x := x) ?_ ?_; (on_goal 1 => intro _; clear_value x); (on_goal 2 => subst x)) | subst x)
      | refine refuse_moves.on ?_ rfl | refine eraseCommand_moves.on ?_ rfl | refine beginActivity_moves.on ?_ rfl
      | fail_if_no_progress refine mk_qe.on ?_ rfl | split

theorem execSanitizeCryptoErase_moves {a0 a1} {s : State} : MovesR 0x1FBFFB31 s (execSanitizeCryptoErase a0 a1 s) := by
  unfold execSanitizeCryptoErase
  with_reducible
    repeat' first
      | exact .refl | assumption | exact .fault | refine .next ?_
      | (extract_lets +onlyGivenNames x; first | (refine .cut (x := x) ?_ ?_; (on_goal 1 => intro _; clear_value x); (on_goal 2 => subst x)) | subst x)
      | refine (adminRow_moves (m := 0x1FBFFB31) rfl (fun _ _ => ?_)).on ?_ (Nat.or_self _) | refine sanitize_moves.on ?_ rfl | split

theorem execSanitizeOverwrite_moves {a0} {s : State} : MovesR 0x1FBFFB31 s (execSanitizeOverwrite a0 s) := by
  unfold execSanitizeOverwrite
  with_reducible
    repeat' first
      | exact .refl | assumption | exact .fault | refine .next ?_
      | (extract_lets +onlyGivenNames x; first | (refine .cut (x := x) ?_ ?_; (on_goal 1 => intro _; clear_value x); (on_goal 2 => subst x)) | subst x)
      | refine (adminRow_moves (m := 0x1FBFFB31) rfl (fun _ _ => ?_)).on ?_ (Nat.or_self _) | refine sanitize_moves.on ?_ rfl | split

theorem execSanitizeBlockErase_moves {a0} {s : State} : MovesR 0x1F9FEB31 s (execSanitizeBlockErase a0 s) := by
  unfold execSanitizeBlockErase
  with_reducible
    repeat' first
      | exact .refl | assumption | exact .fault | refine .next ?_
      | (extract_lets +onlyGivenNames x; first | (refine .cut (x := x) ?_ ?_; (on_goal 1 => intro _; clear_value x); (on_goal 2 => subst x)) | subst x)
      | refine (adminRow_moves (m := 0x1F9FEB31) rfl (fun _ _ => ?_)).on ?_ (Nat.or_self _) | refine refuse_moves.on ?_ rfl
      | refine sanitize_moves.on ?_ rfl | split

theorem execFirmwareImageDownload_moves {a0} {s : State} : MovesR 0x1F9FEB31 s (execFirmwareImageDownload a0 s) := by
  unfold execFirmwareImageDownload
  with_reducible
    repeat' first
      | exact .refl | assumption | exact .fault | refine .next ?_
      | (extract_lets +onlyGivenNames x; first | (refine .cut (x := x) ?_ ?_; (on_goal 1 => intro _; clear_value x); (on_goal 2 => subst x)) | subst x)
      | refine (onDecoded_moves (m := 0x1F9FEB31) rfl (fun _ _ => ?_)).on ?_ (Nat.or_self _) | refine refuse_moves.on ?_ rfl | split

theorem execFirmwareCommit_moves {a0} {s : State} : MovesR 0x1F9FEB31 s (execFirmwareCommit a0 s) := by
  unfold execFirmwareCommit
  with_reducible
    repeat' first
      | exact .refl | assumption | exact .fault | refine .next ?_
      | (extract_lets +onlyGivenNames x; first | (refine .cut (x := x) ?_ ?_; (on_goal 1 => intro _; clear_value x); (on_goal 2 => subst x)) | subst x)
      | refine (onDecoded_moves (m := 0x1F9FEB31) rfl (fun _ _ => ?_)).on ?_ (Nat.or_self _) | refine refuse_moves.on ?_ rfl | split

theorem execInvalidOpcode_moves {a0} {s : State} : MovesR 0x1F9FEB31 s (execInvalidOpcode a0 s) := by
  unfold execInvalidOpcode
  with_reducible
    repeat' first
      | exact .refl | assumption | exact .fault | refine .next ?_
      | refine (onDecoded_moves (m := 0x1F9FEB31) rfl (fun _ _ => ?_)).on ?_ (Nat.or_self _) | refine refuse_moves.on ?_ rfl | split

theorem securityRow_moves {m : Nat} {a0 f2} {s : State} (hm : 0x1F9FEB31 ||| m = m) (hf2 : ∀ x0 t, Moves m t (f2 x0 t)) : MovesR m s (securityRow a0 s f2) := by
  unfold securityRow
  with_reducible
    repeat' first
      | exact .refl | assumption | exact hf2 .. | refine (hf2 ..).step ?_ | exact .fault | refine .next ?_
      | refine (adminRow_moves (m := m) (sub_of hm rfl) (fun _ _ => ?_)).on ?_ (Nat.or_self _) | refine refuse_moves.on ?_ (sub_of hm rfl) | split

theorem execSecurityProtocolList_moves {a0} {s : State} : MovesR 0x1F9FEB31 s (execSecurityProtocolList a0 s) := by
  unfold execSecurityProtocolList
  with_reducible
    repeat' first
      | exact .refl | assumption | exact .fault | refine .next ?_
      | (extract_lets +onlyGivenNames x; first | (refine .cut (x := x) ?_ ?_; (on_goal 1 => intro _; clear_value x); (on_goal 2 => subst x)) | subst x)
      | refine (securityRow_moves (m := 0x1F9FEB31) rfl (fun _ _ => ?_)).on ?_ (Nat.or_self _) | refine answerData_moves.on ?_ rfl | split

theorem execInfo_moves {a0} {s : State} : MovesR 0x1F9FEB31 s (execInfo a0 s) := by
  unfold execInfo
  with_reducible
    repeat' first
      | exact .refl | assumption | exact .fault | refine .next ?_
      | (extract_lets +onlyGivenNames x; first | (refine .cut (x := x) ?_ ?_; (on_goal 1 => intro _; clear_value x); (on_goal 2 => subst x)) | subst x)
      | refine (securityRow_moves (m := 0x1F9FEB31) rfl (fun _ _ => ?_)).on ?_ (Nat.or_self _) | refine refuse_moves.on ?_ rfl
      | refine answerData_moves.on ?_ rfl | split

theorem execState_moves {a0} {s : State} : MovesR 0x1F9FEB31 s (execState a0 s) := by
  unfold execState
  with_reducible
    repeat' first
      | exact .refl | assumption | exact .fault | refine .next ?_
      | (extract_lets +onlyGivenNames x; first | (refine .cut (x := x) ?_ ?_; (on_goal 1 => intro _; clear_value x); (on_goal 2 => subst x)) | subst x)
      | refine (securityRow_moves (m := 0x1F9FEB31) rfl (fun _ _ => ?_)).on ?_ (Nat.or_self _) | refine refuse_moves.on ?_ rfl
      | refine answerData_moves.on ?_ rfl | split

theorem execRotate_moves {a0 a1 a2} {s : State} : MovesR 0x1FBFFB31 s (execRotate a0 a1 a2 s) := by
  unfold execRotate
  with_reducible
    repeat' first
      | exact .refl | assumption | exact .fault | refine .next ?_
      | (extract_lets +onlyGivenNames x; first | (refine .cut (x := x) ?_ ?_; (on_goal 1 => intro _; clear_value x); (on_goal 2 => subst x)) | subst x)
      | refine (securityRow_moves (m := 0x1FBFFB31) rfl (fun _ _ => ?_)).on ?_ (Nat.or_self _) | refine refuse_moves.on ?_ rfl
      | refine eraseCommand_moves.on ?_ rfl | refine onSlot_moves.on ?_ rfl | split

theorem execPermit_moves {a0 a1} {s : State} : MovesR 0x1F9FEB31 s (execPermit a0 a1 s) := by
  unfold execPermit
  with_reducible
    repeat' first
      | exact .refl | assumption | exact .fault | refine .next ?_
      | (extract_lets +onlyGivenNames x; first | (refine .cut (x := x) ?_ ?_; (on_goal 1 => intro _; clear_value x); (on_goal 2 => subst x)) | subst x)
      | refine (securityRow_moves (m := 0x1F9FEB31) rfl (fun _ _ => ?_)).on ?_ (Nat.or_self _) | refine refuse_moves.on ?_ rfl
      | refine finish_moves.on ?_ rfl | refine setNs_moves.on ?_ rfl | refine onSlot_moves.on ?_ rfl | split

theorem execStandingsAdmin_moves {a0} {s : State} : MovesR 0x1F9FEB31 s (execStandingsAdmin a0 s) := by
  unfold execStandingsAdmin
  with_reducible
    repeat' first
      | exact .refl | assumption | exact .fault | refine .next ?_
      | (extract_lets +onlyGivenNames x; first | (refine .cut (x := x) ?_ ?_; (on_goal 1 => intro _; clear_value x); (on_goal 2 => subst x)) | subst x)
      | refine (adminRow_moves (m := 0x1F9FEB31) rfl (fun _ _ => ?_)).on ?_ (Nat.or_self _) | refine refuse_moves.on ?_ rfl
      | refine standingsTake_moves.on ?_ rfl | refine (standingsTake_moves.get (by assumption)).on ?_ rfl | refine answerData_moves.on ?_ rfl | split

theorem ioRow_moves {m : Nat} {a0 a2 f3} {s : State} (hm : 0x1F9FEB31 ||| m = m) (hf3 : ∀ x0 t, Moves m t (f3 x0 t)) : MovesR m s (ioRow a0 s a2 f3) := by
  unfold ioRow
  with_reducible
    repeat' first
      | exact .refl | assumption | exact hf3 .. | refine (hf3 ..).step ?_ | exact .fault | refine .next ?_
      | (extract_lets +onlyGivenNames x; first | (refine .cut (x := x) ?_ ?_; (on_goal 1 => intro _; clear_value x); (on_goal 2 => subst x)) | subst x)
      | refine settle_moves.on ?_ (sub_of hm rfl) | split

theorem withBlocks_moves {m : Nat} {a0 a1 f2} {s : State} (hm : 0x2080001 ||| m = m) (hf2 : ∀ x0 t, Moves m t (f2 x0 t)) : Moves m s (withBlocks a0 a1 f2 s) := by
  unfold withBlocks
  with_reducible
    repeat' first
      | exact .refl | assumption | exact hf2 .. | refine (hf2 ..).step ?_
      | (extract_lets +onlyGivenNames x; first | (refine .cut (x := x) ?_ ?_; (on_goal 1 => intro _; clear_value x); (on_goal 2 => subst x)) | subst x)
      | refine failBlock_moves.on ?_ (sub_of hm rfl) | split

theorem execRead_moves {a0 a1} {s : State} : MovesR 0x1F9FEB31 s (execRead a0 a1 s) := by
  unfold execRead
  with_reducible
    repeat' first
      | exact .refl | assumption | exact .fault | refine .next ?_
      | (extract_lets +onlyGivenNames x; first | (refine .cut (x := x) ?_ ?_; (on_goal 1 => intro _; clear_value x); (on_goal 2 => subst x)) | subst x)
      | refine (ioRow_moves (m := 0x1F9FEB31) rfl (fun _ _ => ?_)).on ?_ (Nat.or_self _)
      | refine (withBlocks_moves (m := 0x1F9FEB31) rfl (fun _ _ => ?_)).step ?_ | refine failBlock_moves.on ?_ rfl | refine countIo_moves.on ?_ rfl
      | refine finish_moves.on ?_ rfl | refine onSlot_moves.on ?_ rfl | refine tally_moves.on ?_ rfl | split

theorem execVerify_moves {a0} {s : State} : MovesR 0x1F9FEB31 s (execVerify a0 s) := by
  unfold execVerify
  with_reducible
    repeat' first
      | exact .refl | assumption | exact .fault | refine .next ?_ | refine (ioRow_moves (m := 0x1F9FEB31) rfl (fun _ _ => ?_)).on ?_ (Nat.or_self _)
      | refine (withBlocks_moves (m := 0x1F9FEB31) rfl (fun _ _ => ?_)).step ?_ | refine finish_moves.on ?_ rfl

theorem sendAway_moves {a0 a1} {s : State} : Moves 0xA800001 s (sendAway a0 a1 s) := by
  unfold sendAway
  with_reducible
    repeat' first
      | exact .refl | assumption
      | (extract_lets +onlyGivenNames x; first | (refine .cut (x := x) ?_ ?_; (on_goal 1 => intro _; clear_value x); (on_goal 2 => subst x)) | subst x)
      | refine forwardCmd_moves.on ?_ rfl | refine onSlot_moves.on ?_ rfl | refine forwardData_moves.on ?_ rfl | split

theorem execCompare_moves {a0 a1} {s : State} : MovesR 0x1F9FEB31 s (execCompare a0 a1 s) := by
  unfold execCompare
  with_reducible
    repeat' first
      | exact .refl | assumption | exact .fault | refine .next ?_
      | (extract_lets +onlyGivenNames x; first | (refine .cut (x := x) ?_ ?_; (on_goal 1 => intro _; clear_value x); (on_goal 2 => subst x)) | subst x)
      | refine (ioRow_moves (m := 0x1F9FEB31) rfl (fun _ _ => ?_)).on ?_ (Nat.or_self _) | refine sendAway_moves.on ?_ rfl
      | refine (withBlocks_moves (m := 0x1F9FEB31) rfl (fun _ _ => ?_)).step ?_ | refine onSlot_moves.on ?_ rfl | refine failBlock_moves.on ?_ rfl
      | refine finish_moves.on ?_ rfl | split

theorem fetchWrite_moves {a0 a1 a2 a3} {s : State} : Moves 0xA880001 s (fetchWrite a0 a1 a2 a3 s) := by
  unfold fetchWrite
  with_reducible
    repeat' first
      | exact .refl | assumption
      | (extract_lets +onlyGivenNames x; first | (refine .cut (x := x) ?_ ?_; (on_goal 1 => intro _; clear_value x); (on_goal 2 => subst x)) | subst x)
      | refine refuse_moves.on ?_ rfl | refine failBlock_moves.on ?_ rfl | refine onSlot_moves.on ?_ rfl | refine sendAway_moves.on ?_ rfl
      | refine countWait_moves.on ?_ rfl | split

theorem execWrite_moves {a0 a1 a2} {s : State} : MovesR 0x1F9FEB31 s (execWrite a0 a1 a2 s) := by
  unfold execWrite
  with_reducible
    repeat' first
      | exact .refl | assumption | exact .fault | refine .next ?_ | refine (ioRow_moves (m := 0x1F9FEB31) rfl (fun _ _ => ?_)).on ?_ (Nat.or_self _)
      | refine fetchWrite_moves.on ?_ rfl | refine (write_moves (m := 0x1F9FEB31) rfl (fun _ => ?_)).step ?_

theorem execZoneAppend_moves {a0 a1 a2} {s : State} : MovesR 0x1F9FEB31 s (execZoneAppend a0 a1 a2 s) := by
  unfold execZoneAppend
  with_reducible
    repeat' first
      | exact .refl | assumption | exact .fault | refine .next ?_ | refine (ioRow_moves (m := 0x1F9FEB31) rfl (fun _ _ => ?_)).on ?_ (Nat.or_self _)
      | refine refuse_moves.on ?_ rfl | refine fetchWrite_moves.on ?_ rfl | split

theorem forgetBlocks_moves {a0 a1 a2 a3} {s : State} : Moves 0x8B00001 s (forgetBlocks a0 a1 a2 a3 s) := by
  unfold forgetBlocks
  with_reducible
    repeat' first
      | exact .refl | assumption
      | (extract_lets +onlyGivenNames x; first | (refine .cut (x := x) ?_ ?_; (on_goal 1 => intro _; clear_value x); (on_goal 2 => subst x)) | subst x)
      | refine (forEach_moves (m := 0x8B00001) (fun _ _ => ?_)).step ?_ | refine cacheDrop_moves.on ?_ rfl | refine batSend_moves.on ?_ rfl
      | refine lwlClear_moves.on ?_ rfl | refine onBnd_moves.on ?_ rfl | refine count_moves.on ?_ rfl | refine mirrored_moves.on ?_ rfl | split
      | dsimp only

theorem deallocRange_moves {a0 a1 a2 a3} {s : State} : Moves 0x8B80001 s (deallocRange a0 a1 a2 a3 s) := by
  unfold deallocRange
  with_reducible
    repeat' first
      | exact .refl | assumption | refine dealloc_moves.on ?_ rfl | refine forgetBlocks_moves.on ?_ rfl | refine count_moves.on ?_ rfl | split

theorem execWriteZeroes_moves {a0} {s : State} : MovesR 0x1FBFEB31 s (execWriteZeroes a0 s) := by
  unfold execWriteZeroes
  with_reducible
    repeat' first
      | exact .refl | assumption | exact .fault | refine .next ?_
      | (extract_lets +onlyGivenNames x; first | (refine .cut (x := x) ?_ ?_; (on_goal 1 => intro _; clear_value x); (on_goal 2 => subst x)) | subst x)
      | refine (ioRow_moves (m := 0x1FBFEB31) rfl (fun _ _ => ?_)).on ?_ (Nat.or_self _) | refine countWait_moves.on ?_ rfl
      | refine onSlot_moves.on ?_ rfl | refine finish_moves.on ?_ rfl | refine awaitJack_moves.on ?_ rfl | refine deallocRange_moves.on ?_ rfl | split

theorem execWriteUncorrectable_moves {a0} {s : State} : MovesR 0x1FBFEB31 s (execWriteUncorrectable a0 s) := by
  unfold execWriteUncorrectable
  with_reducible
    repeat' first
      | exact .refl | assumption | exact .fault | refine .next ?_
      | (extract_lets +onlyGivenNames x; first | (refine .cut (x := x) ?_ ?_; (on_goal 1 => intro _; clear_value x); (on_goal 2 => subst x)) | subst x)
      | refine (ioRow_moves (m := 0x1FBFEB31) rfl (fun _ _ => ?_)).on ?_ (Nat.or_self _) | refine countWait_moves.on ?_ rfl
      | refine forgetBlocks_moves.on ?_ rfl | refine onSlot_moves.on ?_ rfl | refine finish_moves.on ?_ rfl | refine onBnd_moves.on ?_ rfl | split

theorem execDatasetManagement_moves {a0 a1} {s : State} : MovesR 0x1FBFEB31 s (execDatasetManagement a0 a1 s) := by
  unfold execDatasetManagement
  with_reducible
    repeat' first
      | exact .refl | assumption | exact .fault | refine .next ?_
      | (extract_lets +onlyGivenNames x; first | (refine .cut (x := x) ?_ ?_; (on_goal 1 => intro _; clear_value x); (on_goal 2 => subst x)) | subst x)
      | refine (ioRow_moves (m := 0x1FBFEB31) rfl (fun _ _ => ?_)).on ?_ (Nat.or_self _) | refine refuse_moves.on ?_ rfl
      | refine sendAway_moves.on ?_ rfl | refine enterRuns_moves.on ?_ rfl | refine onSlot_moves.on ?_ rfl | refine countWait_moves.on ?_ rfl
      | refine (forEach_moves (m := 0x1FBFEB31) (fun _ _ => ?_)).step ?_ | refine deallocRange_moves.on ?_ rfl | refine finish_moves.on ?_ rfl
      | refine awaitJack_moves.on ?_ rfl | split

theorem execCopy_moves {a0 a1} {s : State} : MovesR 0x1F9FEB31 s (execCopy a0 a1 s) := by
  unfold execCopy
  with_reducible
    repeat' first
      | exact .refl | assumption | exact .fault | refine .next ?_
      | (extract_lets +onlyGivenNames x; first | (refine .cut (x := x) ?_ ?_; (on_goal 1 => intro _; clear_value x); (on_goal 2 => subst x)) | subst x)
      | refine (ioRow_moves (m := 0x1F9FEB31) rfl (fun _ _ => ?_)).on ?_ (Nat.or_self _)
      | refine (withBlocks_moves (m := 0x1F9FEB31) rfl (fun _ _ => ?_)).step ?_ | refine onSlot_moves.on ?_ rfl | refine finish_moves.on ?_ rfl
      | refine refuse_moves.on ?_ rfl | refine sendAway_moves.on ?_ rfl | refine enterRuns_moves.on ?_ rfl | split

theorem execFlush_moves {a0} {s : State} : MovesR 0x1F9FEB31 s (execFlush a0 s) := by
  unfold execFlush
  with_reducible
    repeat' first
      | exact .refl | assumption | exact .fault | refine .next ?_
      | (extract_lets +onlyGivenNames x; first | (refine .cut (x := x) ?_ ?_; (on_goal 1 => intro _; clear_value x); (on_goal 2 => subst x)) | subst x)
      | refine (ioRow_moves (m := 0x1F9FEB31) rfl (fun _ _ => ?_)).on ?_ (Nat.or_self _) | refine finish_moves.on ?_ rfl
      | refine forceFlush_moves.on ?_ rfl | refine onSlot_moves.on ?_ rfl | split

theorem zoneRow_moves {m : Nat} {a0 a1 f3} {s : State} (hm : 0x1F9FEB31 ||| m = m) (hf3 : ∀ x0 x1 t, Moves m t (f3 x0 x1 t)) : MovesR m s (zoneRow a0 a1 s f3) := by
  unfold zoneRow
  with_reducible
    repeat' first
      | exact .refl | assumption | exact hf3 .. | refine (hf3 ..).step ?_ | exact .fault | refine .next ?_
      | refine (ioRow_moves (m := m) (sub_of hm rfl) (fun _ _ => ?_)).on ?_ (Nat.or_self _) | refine refuse_moves.on ?_ (sub_of hm rfl)
      | refine countWait_moves.on ?_ (sub_of hm rfl) | split

theorem zoneDone_moves {a0} {s : State} : Moves 0x2880001 s (zoneDone a0 s) := by
  unfold zoneDone
  with_reducible
    repeat' first
      | exact .refl | assumption
      | (extract_lets +onlyGivenNames x; first | (refine .cut (x := x) ?_ ?_; (on_goal 1 => intro _; clear_value x); (on_goal 2 => subst x)) | subst x)
      | refine finish_moves.on ?_ rfl | refine awaitJack_moves.on ?_ rfl | refine onSlot_moves.on ?_ rfl

theorem execZoneOpen_moves {a0} {s : State} : MovesR 0x1F9FEB31 s (execZoneOpen a0 s) := by
  unfold execZoneOpen
  with_reducible
    repeat' first
      | exact .refl | assumption | exact .fault | refine .next ?_
      | (extract_lets +onlyGivenNames x; first | (refine .cut (x := x) ?_ ?_; (on_goal 1 => intro _; clear_value x); (on_goal 2 => subst x)) | subst x)
      | refine (zoneRow_moves (m := 0x1F9FEB31) rfl (fun _ _ _ => ?_)).on ?_ (Nat.or_self _) | refine finish_moves.on ?_ rfl
      | refine refuse_moves.on ?_ rfl | refine (openZone_moves.get (by assumption)).on ?_ rfl | refine openZone_moves.on ?_ rfl
      | refine zoneDone_moves.on ?_ rfl | split

theorem execZoneClose_moves {a0} {s : State} : MovesR 0x1F9FEB31 s (execZoneClose a0 s) := by
  unfold execZoneClose
  with_reducible
    repeat' first
      | exact .refl | assumption | exact .fault | refine .next ?_
      | (extract_lets +onlyGivenNames x; first | (refine .cut (x := x) ?_ ?_; (on_goal 1 => intro _; clear_value x); (on_goal 2 => subst x)) | subst x)
      | refine (zoneRow_moves (m := 0x1F9FEB31) rfl (fun _ _ _ => ?_)).on ?_ (Nat.or_self _) | refine zoneDone_moves.on ?_ rfl
      | refine setZone_moves.on ?_ rfl | refine finish_moves.on ?_ rfl | refine refuse_moves.on ?_ rfl | split

theorem padZone_moves {a0 a1 a2} {s : State} : MovesO 0x8B00001 s (padZone a0 a1 a2 s) := by
  unfold padZone
  with_reducible
    repeat' first
      | exact .refl | assumption | exact .none | refine .some ?_
      | (extract_lets +onlyGivenNames x; first | (refine .cut (x := x) ?_ ?_; (on_goal 1 => intro _; clear_value x); (on_goal 2 => subst x)) | subst x)
      | refine (admitBlocks_moves.get (by assumption)).on ?_ rfl | refine admitBlocks_moves.on ?_ rfl | split

theorem execZoneFinish_moves {a0} {s : State} : MovesR 0x1FBFEB31 s (execZoneFinish a0 s) := by
  unfold execZoneFinish
  with_reducible
    repeat' first
      | exact .refl | assumption | exact .fault | refine .next ?_
      | (extract_lets +onlyGivenNames x; first | (refine .cut (x := x) ?_ ?_; (on_goal 1 => intro _; clear_value x); (on_goal 2 => subst x)) | subst x)
      | refine (zoneRow_moves (m := 0x1FBFEB31) rfl (fun _ _ _ => ?_)).on ?_ (Nat.or_self _) | refine finish_moves.on ?_ rfl
      | refine refuse_moves.on ?_ rfl | refine (padZone_moves.get (by assumption)).on ?_ rfl | refine padZone_moves.on ?_ rfl
      | refine setZone_moves.on ?_ rfl | refine zoneDone_moves.on ?_ rfl | refine bandState_moves.on ?_ rfl | split

theorem emptyZone_moves {a0 a1 a2 a3 a4} {s : State} : Moves 0xAB80901 s (emptyZone a0 a1 a2 a3 a4 s) := by
  unfold emptyZone
  with_reducible
    repeat' first
      | exact .refl | assumption
      | (extract_lets +onlyGivenNames x; first | (refine .cut (x := x) ?_ ?_; (on_goal 1 => intro _; clear_value x); (on_goal 2 => subst x)) | subst x)
      | refine abandonRewrite_moves.on ?_ rfl | refine forgetBlocks_moves.on ?_ rfl | refine onBnd_moves.on ?_ rfl | refine setZone_moves.on ?_ rfl
      | refine setLband_moves.on ?_ rfl | refine freeBand_moves.on ?_ rfl | refine retireBand_moves.on ?_ rfl | split | dsimp only

theorem execZoneReset_moves {a0} {s : State} : MovesR 0x1FBFEB31 s (execZoneReset a0 s) := by
  unfold execZoneReset
  with_reducible
    repeat' first
      | exact .refl | assumption | exact .fault | refine .next ?_
      | (extract_lets +onlyGivenNames x; first | (refine .cut (x := x) ?_ ?_; (on_goal 1 => intro _; clear_value x); (on_goal 2 => subst x)) | subst x)
      | refine (zoneRow_moves (m := 0x1FBFEB31) rfl (fun _ _ _ => ?_)).on ?_ (Nat.or_self _) | refine refuse_moves.on ?_ rfl
      | refine finish_moves.on ?_ rfl | refine zoneDone_moves.on ?_ rfl | refine emptyZone_moves.on ?_ rfl | split

theorem execZoneOffline_moves {a0} {s : State} : MovesR 0x1FBFEB31 s (execZoneOffline a0 s) := by
  unfold execZoneOffline
  with_reducible
    repeat' first
      | exact .refl | assumption | exact .fault | refine .next ?_
      | (extract_lets +onlyGivenNames x; first | (refine .cut (x := x) ?_ ?_; (on_goal 1 => intro _; clear_value x); (on_goal 2 => subst x)) | subst x)
      | refine (zoneRow_moves (m := 0x1FBFEB31) rfl (fun _ _ _ => ?_)).on ?_ (Nat.or_self _) | refine finish_moves.on ?_ rfl
      | refine zoneDone_moves.on ?_ rfl | refine emptyZone_moves.on ?_ rfl | split

theorem execZoneManagementReceive_moves {a0} {s : State} : MovesR 0x1F9FEB31 s (execZoneManagementReceive a0 s) := by
  unfold execZoneManagementReceive
  with_reducible
    repeat' first
      | exact .refl | assumption | exact .fault | refine .next ?_
      | (extract_lets +onlyGivenNames x; first | (refine .cut (x := x) ?_ ?_; (on_goal 1 => intro _; clear_value x); (on_goal 2 => subst x)) | subst x)
      | refine (ioRow_moves (m := 0x1F9FEB31) rfl (fun _ _ => ?_)).on ?_ (Nat.or_self _) | refine refuse_moves.on ?_ rfl
      | refine answerData_moves.on ?_ rfl | refine report_moves.on ?_ rfl | refine count_moves.on ?_ rfl | split

theorem onCcx_moves {a1} {s : State} : Moves 0x800 s (State.onCcx s a1) := by
  unfold State.onCcx
  with_reducible
    repeat' first
      | exact .refl | assumption
      | (extract_lets +onlyGivenNames x; first | (refine .cut (x := x) ?_ ?_; (on_goal 1 => intro _; clear_value x); (on_goal 2 => subst x)) | subst x)
      | fail_if_no_progress refine mk_ccx.on ?_ rfl

theorem sccPut_moves {a0 a1} {s : State} : Moves 0x800 s (sccPut a0 a1 s) := by
  unfold sccPut
  with_reducible
    repeat' first
      | exact .refl | assumption
      | (extract_lets +onlyGivenNames x; first | (refine .cut (x := x) ?_ ?_; (on_goal 1 => intro _; clear_value x); (on_goal 2 => subst x)) | subst x)
      | refine onCcx_moves.on ?_ rfl

theorem sccDrop_moves {a0} {s : State} : Moves 0x800 s (sccDrop a0 s) := by
  unfold sccDrop
  with_reducible
    repeat' first
      | exact .refl | assumption
      | (extract_lets +onlyGivenNames x; first | (refine .cut (x := x) ?_ ?_; (on_goal 1 => intro _; clear_value x); (on_goal 2 => subst x)) | subst x)
      | refine onCcx_moves.on ?_ rfl

theorem sccEvict_moves {a0} {s : State} : Moves 0x8200801 s (sccEvict a0 s) := by
  unfold sccEvict
  with_reducible
    repeat' first
      | exact .refl | assumption
      | (extract_lets +onlyGivenNames x; first | (refine .cut (x := x) ?_ ?_; (on_goal 1 => intro _; clear_value x); (on_goal 2 => subst x)) | subst x)
      | refine sccDrop_moves.on ?_ rfl | refine sendBurst_moves.on ?_ rfl | refine setPoison_moves.on ?_ rfl | refine fullWrite_moves.on ?_ rfl
      | split

theorem sccVictim_moves {a0} {s : State} : Moves 0x800 s (sccVictim a0 s).2 := by
  unfold sccVictim
  with_reducible
    repeat' first
      | exact .refl | assumption
      | (extract_lets +onlyGivenNames x; first | (refine .cut (x := x) ?_ ?_; (on_goal 1 => intro _; clear_value x); (on_goal 2 => subst x)) | subst x)
      | refine onCcx_moves.on ?_ rfl | refine (foldl_moves (m := 0x800) (fun _ _ => ?_)).step ?_ | split | dsimp only

theorem sccFillLine_moves {a0 a1 a2} {s : State} : Moves 0x8200801 s (sccFillLine a0 a1 a2 s) := by
  unfold sccFillLine
  with_reducible
    repeat' first
      | exact .refl | assumption
      | (extract_lets +onlyGivenNames x; first | (refine .cut (x := x) ?_ ?_; (on_goal 1 => intro _; clear_value x); (on_goal 2 => subst x)) | subst x)
      | refine sccVictim_moves.on ?_ rfl | refine (sccVictim_moves.get (by assumption)).on ?_ rfl | refine sccEvict_moves.on ?_ rfl
      | refine sccPut_moves.on ?_ rfl | split

theorem sccTouch_moves {a0 a1 a2} {s : State} : Moves 0x801 s (sccTouch a0 a1 a2 s) := by
  unfold sccTouch
  with_reducible
    repeat' first
      | exact .refl | assumption
      | (extract_lets +onlyGivenNames x; first | (refine .cut (x := x) ?_ ?_; (on_goal 1 => intro _; clear_value x); (on_goal 2 => subst x)) | subst x)
      | refine count_moves.on ?_ rfl | refine sccPut_moves.on ?_ rfl | split

theorem prefetchFrom_moves {a0 a1 a2 a3} {s : State} : Moves 0x8200801 s (prefetchFrom a0 a1 a2 a3 s) := by
  induction a3 generalizing a0 a1 a2 s with
  | zero =>
    unfold prefetchFrom
    with_reducible
      repeat' first
       | exact .refl | assumption
       | (extract_lets +onlyGivenNames x; first | (refine .cut (x := x) ?_ ?_; (on_goal 1 => intro _; clear_value x); (on_goal 2 => subst x)) | subst x)
       | refine sccFillLine_moves.on ?_ rfl | refine count_moves.on ?_ rfl | split
  | succ k ih =>
    unfold prefetchFrom
    with_reducible
      repeat' first
       | exact .refl | assumption
       | (extract_lets +onlyGivenNames x; first | (refine .cut (x := x) ?_ ?_; (on_goal 1 => intro _; clear_value x); (on_goal 2 => subst x)) | subst x)
       | refine sccFillLine_moves.on ?_ rfl | refine count_moves.on ?_ rfl | split | refine ih.on ?_ rfl


theorem trained_moves {a0 a1} {s : State} : Moves 0x8200801 s (trained a0 a1 s) := by
  unfold trained
  with_reducible
    repeat' first
      | exact .refl | assumption
      | (extract_lets +onlyGivenNames x; first | (refine .cut (x := x) ?_ ?_; (on_goal 1 => intro _; clear_value x); (on_goal 2 => subst x)) | subst x)
      | refine onCcx_moves.on ?_ rfl | refine prefetchFrom_moves.on ?_ rfl | split

theorem trainStream_moves {a0 a1 a2} {s : State} : Moves 0x8200801 s (trainStream a0 a1 a2 s) := by
  unfold trainStream
  with_reducible
    repeat' first
      | exact .refl | assumption
      | (extract_lets +onlyGivenNames x; first | (refine .cut (x := x) ?_ ?_; (on_goal 1 => intro _; clear_value x); (on_goal 2 => subst x)) | subst x)
      | refine trained_moves.on ?_ rfl | split | dsimp only

theorem sccExclusive_moves {a0 a1} {s : State} : Moves 0x800 s (sccExclusive a0 a1 s) := by
  unfold sccExclusive
  with_reducible
    repeat' first
      | exact .refl | assumption
      | (extract_lets +onlyGivenNames x; first | (refine .cut (x := x) ?_ ?_; (on_goal 1 => intro _; clear_value x); (on_goal 2 => subst x)) | subst x)
      | refine sccPut_moves.on ?_ rfl | refine onCcx_moves.on ?_ rfl | split

theorem coreLookup_moves {a0 a1} {s : State} : Moves 0x8200801 s (coreLookup a0 a1 s) := by
  unfold coreLookup
  with_reducible
    repeat' first
      | exact .refl | assumption
      | (extract_lets +onlyGivenNames x; first | (refine .cut (x := x) ?_ ?_; (on_goal 1 => intro _; clear_value x); (on_goal 2 => subst x)) | subst x)
      | refine count_moves.on ?_ rfl | refine sccTouch_moves.on ?_ rfl | refine trainStream_moves.on ?_ rfl | refine sccFillLine_moves.on ?_ rfl
      | split

theorem l1Hold_moves {a0 a1} {s : State} : Moves 0x800 s (l1Hold a0 a1 s) := by
  unfold l1Hold
  with_reducible
    repeat' first
      | exact .refl | assumption
      | (extract_lets +onlyGivenNames x; first | (refine .cut (x := x) ?_ ?_; (on_goal 1 => intro _; clear_value x); (on_goal 2 => subst x)) | subst x)
      | refine sccPut_moves.on ?_ rfl | split

theorem deviceRead_moves {a0 a1 a2 a3} {s : State} : Moves 0x8200801 s (deviceRead a0 a1 a2 a3 s).2 := by
  unfold deviceRead
  with_reducible
    repeat' first
      | exact .refl | assumption
      | (extract_lets +onlyGivenNames x; first | (refine .cut (x := x) ?_ ?_; (on_goal 1 => intro _; clear_value x); (on_goal 2 => subst x)) | subst x)
      | refine sccTouch_moves.on ?_ rfl | refine trainStream_moves.on ?_ rfl | refine sccFillLine_moves.on ?_ rfl | split | dsimp only

theorem deviceWrite_moves {a0 a1 a2} {s : State} : Moves 0x8200901 s (deviceWrite a0 a1 a2 s) := by
  unfold deviceWrite
  with_reducible
    repeat' first
      | exact .refl | assumption
      | (extract_lets +onlyGivenNames x; first | (refine .cut (x := x) ?_ ?_; (on_goal 1 => intro _; clear_value x); (on_goal 2 => subst x)) | subst x)
      | refine sccExclusive_moves.on ?_ rfl | refine count_moves.on ?_ rfl | refine memWrite_moves.on ?_ rfl | refine sccPut_moves.on ?_ rfl
      | refine fullWrite_moves.on ?_ rfl | refine narrowWrite_moves.on ?_ rfl | split

theorem disableWay_moves {a0} {s : State} : Moves 0x8200901 s (disableWay a0 s) := by
  unfold disableWay
  with_reducible
    repeat' first
      | exact .refl | assumption
      | (extract_lets +onlyGivenNames x; first | (refine .cut (x := x) ?_ ?_; (on_goal 1 => intro _; clear_value x); (on_goal 2 => subst x)) | subst x)
      | refine flag_moves.on ?_ rfl | refine (forEach_moves (m := 0x8200901) (fun _ _ => ?_)).step ?_ | refine sccEvict_moves.on ?_ rfl
      | refine put_moves.on ?_ rfl | split

theorem wayCorrected_moves {a0} {s : State} : Moves 0x8200901 s (wayCorrected a0 s) := by
  unfold wayCorrected
  with_reducible
    repeat' first
      | exact .refl | assumption
      | (extract_lets +onlyGivenNames x; first | (refine .cut (x := x) ?_ ?_; (on_goal 1 => intro _; clear_value x); (on_goal 2 => subst x)) | subst x)
      | refine onCcx_moves.on ?_ rfl | refine disableWay_moves.on ?_ rfl | split

theorem sccArray_moves {a0 a1} {s : State} : Moves 0xAB80901 s (sccArray a0 a1 s) := by
  unfold sccArray
  with_reducible
    repeat' first
      | exact .refl | assumption
      | (extract_lets +onlyGivenNames x; first | (refine .cut (x := x) ?_ ?_; (on_goal 1 => intro _; clear_value x); (on_goal 2 => subst x)) | subst x)
      | refine wayCorrected_moves.on ?_ rfl | refine sccDrop_moves.on ?_ rfl | refine flag_moves.on ?_ rfl | refine sendBurst_moves.on ?_ rfl
      | refine setPoison_moves.on ?_ rfl | refine psnLog_moves.on ?_ rfl | refine ownerAction_moves.on ?_ rfl | refine memWrite_moves.on ?_ rfl
      | split

theorem execSccFill_moves {a0 a1} {s : State} : MovesR 0x8200801 s (execSccFill a0 a1 s) := by
  unfold execSccFill
  with_reducible
    repeat' first
      | exact .refl | assumption | exact .fault | refine .next ?_ | refine l1Hold_moves.on ?_ rfl | refine coreLookup_moves.on ?_ rfl | split

theorem firmwareDisable_moves {a0} {s : State} : Moves 0x8200901 s (firmwareDisable a0 s) := by
  unfold firmwareDisable
  with_reducible
    repeat' first
      | exact .refl | assumption
      | (extract_lets +onlyGivenNames x; first | (refine .cut (x := x) ?_ ?_; (on_goal 1 => intro _; clear_value x); (on_goal 2 => subst x)) | subst x)
      | refine disableWay_moves.on ?_ rfl | refine put_moves.on ?_ rfl | split

theorem wayDisEff_moves {a0} {s : State} : Moves 0x8200901 s (wayDisEff a0 s) := by
  unfold wayDisEff
  with_reducible
    repeat' first
      | exact .refl | assumption | refine (forEach_moves (m := 0x8200901) (fun _ _ => ?_)).step ?_ | refine firmwareDisable_moves.on ?_ rfl
      | dsimp only

theorem execWayDisable_moves {a0} {s : State} : MovesR 0x8200919 s (execWayDisable a0 s) := by
  unfold execWayDisable
  with_reducible
    repeat' first
      | exact .refl | assumption | exact .fault | refine .next ?_ | refine (command_moves (m := 0x8200919) rfl (fun _ => ?_)).step ?_
      | refine wayDisEff_moves.on ?_ rfl

theorem claimEff_moves {a0 a1 a2} {s : State} : Moves 0x800 s (claimEff a0 a1 a2 s).2 := by
  unfold claimEff
  with_reducible
    repeat' first
      | exact .refl | assumption
      | (extract_lets +onlyGivenNames x; first | (refine .cut (x := x) ?_ ?_; (on_goal 1 => intro _; clear_value x); (on_goal 2 => subst x)) | subst x)
      | refine onCcx_moves.on ?_ rfl | refine irq_moves.on ?_ rfl | split | dsimp only

theorem execInterruptClaim_moves {a0 a1 a2} {s : State} : MovesR 0x808 s (execInterruptClaim a0 a1 a2 s) := by
  unfold execInterruptClaim
  with_reducible
    repeat' first
      | exact .refl | assumption | exact .fault | refine .next ?_
      | (extract_lets +onlyGivenNames x; first | (refine .cut (x := x) ?_ ?_; (on_goal 1 => intro _; clear_value x); (on_goal 2 => subst x)) | subst x)
      | refine claimEff_moves.on ?_ rfl | refine (claimEff_moves.get (by assumption)).on ?_ rfl | refine answer_moves.on ?_ rfl | split

theorem showTimer_moves {a0} {s : State} : Moves 0x800 s (showTimer a0 s) := by
  unfold showTimer
  with_reducible
    repeat' first
      | exact .refl | assumption
      | (extract_lets +onlyGivenNames x; first | (refine .cut (x := x) ?_ ?_; (on_goal 1 => intro _; clear_value x); (on_goal 2 => subst x)) | subst x)
      | refine onCcx_moves.on ?_ rfl | split

theorem execTimerInterrupt_moves {a0} {s : State} : MovesR 0x800 s (execTimerInterrupt a0 s) := by
  unfold execTimerInterrupt
  with_reducible
    repeat' first
      | exact .refl | assumption | exact .fault | refine .next ?_ | refine showTimer_moves.on ?_ rfl

theorem hartHeld_moves {a0} {s : State} : Moves 0x800 s (hartHeld a0 s) := by
  unfold hartHeld
  with_reducible
    repeat' first
      | exact .refl | assumption
      | (extract_lets +onlyGivenNames x; first | (refine .cut (x := x) ?_ ?_; (on_goal 1 => intro _; clear_value x); (on_goal 2 => subst x)) | subst x)
      | refine onCcx_moves.on ?_ rfl

theorem reroute_moves {a0} {s : State} : Moves 0x901 s (reroute a0 s) := by
  unfold reroute
  with_reducible
    repeat' first
      | exact .refl | assumption
      | (extract_lets +onlyGivenNames x; first | (refine .cut (x := x) ?_ ?_; (on_goal 1 => intro _; clear_value x); (on_goal 2 => subst x)) | subst x)
      | refine flag_moves.on ?_ rfl | refine onCcx_moves.on ?_ rfl | split

theorem loseHart_moves {a0} {s : State} : Moves 0x1FBFEB31 s (loseHart a0 s) := by
  unfold loseHart
  with_reducible
    repeat' first
      | exact .refl | assumption
      | (extract_lets +onlyGivenNames x; first | (refine .cut (x := x) ?_ ?_; (on_goal 1 => intro _; clear_value x); (on_goal 2 => subst x)) | subst x)
      | refine flag_moves.on ?_ rfl | refine put_moves.on ?_ rfl | refine hartHeld_moves.on ?_ rfl | refine reroute_moves.on ?_ rfl
      | refine loseUnit0_moves.on ?_ rfl

theorem execWatchdogKick_moves {a0} {s : State} : MovesR 0x919 s (execWatchdogKick a0 s) := by
  unfold execWatchdogKick
  with_reducible
    repeat' first
      | exact .refl | assumption | exact .fault | refine .next ?_
      | (extract_lets +onlyGivenNames x; first | (refine .cut (x := x) ?_ ?_; (on_goal 1 => intro _; clear_value x); (on_goal 2 => subst x)) | subst x)
      | refine (command_moves (m := 0x919) rfl (fun _ => ?_)).step ?_ | refine onCcx_moves.on ?_ rfl

theorem execWatchdogExpiry_moves {a0} {s : State} : MovesR 0x1FBFEB31 s (execWatchdogExpiry a0 s) := by
  unfold execWatchdogExpiry
  with_reducible
    repeat' first
      | exact .refl | assumption | exact .fault | refine .next ?_
      | (extract_lets +onlyGivenNames x; first | (refine .cut (x := x) ?_ ?_; (on_goal 1 => intro _; clear_value x); (on_goal 2 => subst x)) | subst x)
      | refine loseHart_moves.on ?_ rfl | refine flag_moves.on ?_ rfl | refine onCcx_moves.on ?_ rfl | split

theorem dmc1Gone_moves {s : State} : Moves 0xAB80901 s (dmc1Gone s) := by
  unfold dmc1Gone
  with_reducible
    repeat' first
      | exact .refl | assumption
      | (extract_lets +onlyGivenNames x; first | (refine .cut (x := x) ?_ ?_; (on_goal 1 => intro _; clear_value x); (on_goal 2 => subst x)) | subst x)
      | refine onCcx_moves.on ?_ rfl | refine showPages_moves.on ?_ rfl | refine (forEach_moves (m := 0xAB80901) (fun _ _ => ?_)).step ?_
      | refine dirtyPoison_moves.on ?_ rfl | refine cacheDrop_moves.on ?_ rfl | split | (unfold State.onBuf; refine (mk_buf ?_).on ?_ rfl)
      | exact Memory.wf_filter _

theorem execDmcLost_moves {s : State} : MovesR 0x1FBFEB31 s (execDmcLost s) := by
  unfold execDmcLost
  with_reducible
    repeat' first
      | exact .refl | assumption | exact .fault | refine .next ?_ | refine dmc1Gone_moves.on ?_ rfl | refine loseUnit0_moves.on ?_ rfl | split

theorem onDma_moves {a1 a2} {s : State} : Moves 0x400000 s (State.onDma s a1 a2) := by
  unfold State.onDma
  with_reducible
    repeat' first
      | exact .refl | assumption
      | (extract_lets +onlyGivenNames x; first | (refine .cut (x := x) ?_ ?_; (on_goal 1 => intro _; clear_value x); (on_goal 2 => subst x)) | subst x)
      | fail_if_no_progress refine mk_dma.on ?_ rfl

theorem dmaEvent_moves {a0 a1 a2} {s : State} : Moves 0x801 s (dmaEvent a0 a1 a2 s) := by
  unfold dmaEvent
  with_reducible
    repeat' first
      | exact .refl | assumption | refine (iff_moves (m := 0x801) (fun _ => ?_)).step ?_ | refine put_moves.on ?_ rfl | refine irq_moves.on ?_ rfl
      | split

theorem dmaTake_moves {s : State} : Moves 0x1 s (dmaTake s) := by
  unfold dmaTake
  with_reducible
    repeat' first
      | exact .refl | assumption | refine put_moves.on ?_ rfl

theorem dmaGive_moves {a0} {s : State} : Moves 0x1 s (dmaGive a0 s) := by
  unfold dmaGive
  with_reducible
    repeat' first
      | exact .refl | assumption | refine put_moves.on ?_ rfl

theorem burstWrite_moves {a0 a1} {s : State} : Moves 0x8200901 s (burstWrite a0 a1 s) := by
  unfold burstWrite
  with_reducible
    repeat' first
      | exact .refl | assumption | refine (forEach_moves (m := 0x8200901) (fun _ _ => ?_)).step ?_ | refine deviceWrite_moves.on ?_ rfl

theorem dmaFault_moves {a0 a1 a2} {s : State} : Moves 0x18600901 s (dmaFault a0 a1 a2 s) := by
  unfold dmaFault
  with_reducible
    repeat' first
      | exact .refl | assumption
      | (extract_lets +onlyGivenNames x; first | (refine .cut (x := x) ?_ ?_; (on_goal 1 => intro _; clear_value x); (on_goal 2 => subst x)) | subst x)
      | refine (forEach_moves (m := 0x18600901) (fun _ _ => ?_)).step ?_ | refine free_moves.on ?_ rfl
      | refine (free_moves.get (by assumption)).on ?_ rfl | refine burstWrite_moves.on ?_ rfl | refine dmaGive_moves.on ?_ rfl
      | refine onDma_moves.on ?_ rfl | refine count_moves.on ?_ rfl | refine put_moves.on ?_ rfl | refine dmaEvent_moves.on ?_ rfl | split

theorem dmaLoad_moves {a0} {s : State} : Moves 0x18600901 s (dmaLoad a0 s) := by
  unfold dmaLoad
  with_reducible
    repeat' first
      | exact .refl | assumption
      | (extract_lets +onlyGivenNames x; first | (refine .cut (x := x) ?_ ?_; (on_goal 1 => intro _; clear_value x); (on_goal 2 => subst x)) | subst x)
      | refine onDma_moves.on ?_ rfl | refine dmaFault_moves.on ?_ rfl | split

theorem dmaGoto_moves {a0 a1} {s : State} : Moves 0x18600901 s (dmaGoto a0 a1 s) := by
  unfold dmaGoto
  with_reducible
    repeat' first
      | exact .refl | assumption
      | (extract_lets +onlyGivenNames x; first | (refine .cut (x := x) ?_ ?_; (on_goal 1 => intro _; clear_value x); (on_goal 2 => subst x)) | subst x)
      | refine put_moves.on ?_ rfl | refine dmaLoad_moves.on ?_ rfl | refine onDma_moves.on ?_ rfl

theorem dmaNext_moves {a0} {s : State} : Moves 0x18600901 s (dmaNext a0 s) := by
  unfold dmaNext
  with_reducible
    repeat' first
      | exact .refl | assumption | refine dmaGoto_moves.on ?_ rfl

theorem loopAction_moves {a0 a1} {s : State} : Moves 0x1 s (loopAction a0 a1 s).2 := by
  unfold loopAction
  with_reducible
    repeat' first
      | exact .refl | assumption
      | (extract_lets +onlyGivenNames x; first | (refine .cut (x := x) ?_ ?_; (on_goal 1 => intro _; clear_value x); (on_goal 2 => subst x)) | subst x)
      | refine put_moves.on ?_ rfl | split | dsimp only

theorem dmaDone_moves {a0} {s : State} : Moves 0x400801 s (dmaDone a0 s) := by
  unfold dmaDone
  with_reducible
    repeat' first
      | exact .refl | assumption | refine dmaEvent_moves.on ?_ rfl | refine put_moves.on ?_ rfl | refine onDma_moves.on ?_ rfl

theorem registerStep_moves {a0} {s : State} : Moves 0x400801 s (registerStep a0 s) := by
  unfold registerStep
  with_reducible
    repeat' first
      | exact .refl | assumption
      | (extract_lets +onlyGivenNames x; first | (refine .cut (x := x) ?_ ?_; (on_goal 1 => intro _; clear_value x); (on_goal 2 => subst x)) | subst x)
      | refine onDma_moves.on ?_ rfl | refine loopAction_moves.on ?_ rfl | refine (loopAction_moves.get (by assumption)).on ?_ rfl
      | refine dmaDone_moves.on ?_ rfl | split

theorem elementEnd_moves {a0} {s : State} : Moves 0x18600901 s (elementEnd a0 s) := by
  unfold elementEnd
  with_reducible
    repeat' first
      | exact .refl | assumption
      | (extract_lets +onlyGivenNames x; first | (refine .cut (x := x) ?_ ?_; (on_goal 1 => intro _; clear_value x); (on_goal 2 => subst x)) | subst x)
      | refine dmaNext_moves.on ?_ rfl | refine loopAction_moves.on ?_ rfl | refine (loopAction_moves.get (by assumption)).on ?_ rfl
      | refine dmaGoto_moves.on ?_ rfl | refine registerStep_moves.on ?_ rfl | split

theorem readLines_moves {a0 a1 a2} {s : State} : Moves 0x8200801 s (readLines a0 a1 a2 s).2 := by
  induction a2 generalizing a0 a1 s with
  | nil =>
    unfold readLines
    with_reducible
      repeat' first
       | exact .refl | assumption
       | (extract_lets +onlyGivenNames x; first | (refine .cut (x := x) ?_ ?_; (on_goal 1 => intro _; clear_value x); (on_goal 2 => subst x)) | subst x)
       | refine deviceRead_moves.on ?_ rfl | refine (deviceRead_moves.get (by assumption)).on ?_ rfl | split | dsimp only
  | cons b l ih =>
    unfold readLines
    with_reducible
      repeat' first
       | exact .refl | assumption
       | (extract_lets +onlyGivenNames x; first | (refine .cut (x := x) ?_ ?_; (on_goal 1 => intro _; clear_value x); (on_goal 2 => subst x)) | subst x)
       | refine deviceRead_moves.on ?_ rfl | refine (deviceRead_moves.get (by assumption)).on ?_ rfl | split | dsimp only | refine ih.on ?_ rfl
       | refine (ih.get (by assumption)).on ?_ rfl


theorem issueBursts_moves {a0 a1} {s : State} : Moves 0x18600901 s (issueBursts a0 a1 s) := by
  induction a1 generalizing a0 s with
  | zero =>
    unfold issueBursts
    with_reducible
      repeat' first
       | exact .refl | assumption
       | (extract_lets +onlyGivenNames x; first | (refine .cut (x := x) ?_ ?_; (on_goal 1 => intro _; clear_value x); (on_goal 2 => subst x)) | subst x)
       | refine readLines_moves.on ?_ rfl | refine (readLines_moves.get (by assumption)).on ?_ rfl | refine dmaFault_moves.on ?_ rfl
       | refine count_moves.on ?_ rfl | refine free_moves.on ?_ rfl | refine (free_moves.get (by assumption)).on ?_ rfl
       | refine dmaTake_moves.on ?_ rfl | refine onDma_moves.on ?_ rfl | split | refine Moves.get (Moves.iteSnd ?_ ?_) (by assumption) | dsimp only
  | succ k ih =>
    unfold issueBursts
    with_reducible
      repeat' first
       | exact .refl | assumption
       | (extract_lets +onlyGivenNames x; first | (refine .cut (x := x) ?_ ?_; (on_goal 1 => intro _; clear_value x); (on_goal 2 => subst x)) | subst x)
       | refine readLines_moves.on ?_ rfl | refine (readLines_moves.get (by assumption)).on ?_ rfl | refine dmaFault_moves.on ?_ rfl
       | refine count_moves.on ?_ rfl | refine free_moves.on ?_ rfl | refine (free_moves.get (by assumption)).on ?_ rfl
       | refine dmaTake_moves.on ?_ rfl | refine onDma_moves.on ?_ rfl | split | refine Moves.get (Moves.iteSnd ?_ ?_) (by assumption) | dsimp only
       | refine ih.on ?_ rfl


theorem moveStart_moves {a0} {s : State} : Moves 0x18600901 s (moveStart a0 s) := by
  unfold moveStart
  with_reducible
    repeat' first
      | exact .refl | assumption
      | (extract_lets +onlyGivenNames x; first | (refine .cut (x := x) ?_ ?_; (on_goal 1 => intro _; clear_value x); (on_goal 2 => subst x)) | subst x)
      | refine dmaFault_moves.on ?_ rfl | refine issueBursts_moves.on ?_ rfl | refine onDma_moves.on ?_ rfl | split

theorem burstAccepted_moves {a0} {s : State} : Moves 0x18600901 s (burstAccepted a0 s) := by
  unfold burstAccepted
  with_reducible
    repeat' first
      | exact .refl | assumption
      | (extract_lets +onlyGivenNames x; first | (refine .cut (x := x) ?_ ?_; (on_goal 1 => intro _; clear_value x); (on_goal 2 => subst x)) | subst x)
      | refine dmaGive_moves.on ?_ rfl | refine onDma_moves.on ?_ rfl | refine burstWrite_moves.on ?_ rfl | refine elementEnd_moves.on ?_ rfl
      | refine issueBursts_moves.on ?_ rfl | split

theorem setFlag_moves {a0} {s : State} : Moves 0x18600901 s (setFlag a0 s) := by
  unfold setFlag
  with_reducible
    repeat' first
      | exact .refl | assumption
      | (extract_lets +onlyGivenNames x; first | (refine .cut (x := x) ?_ ?_; (on_goal 1 => intro _; clear_value x); (on_goal 2 => subst x)) | subst x)
      | refine dmaNext_moves.on ?_ rfl | refine put_moves.on ?_ rfl | split

theorem flagSetEff_moves {a0} {s : State} : Moves 0x18600901 s (flagSetEff a0 s) := by
  unfold flagSetEff
  with_reducible
    repeat' first
      | exact .refl | assumption | refine (forEach_moves (m := 0x18600901) (fun _ _ => ?_)).step ?_ | refine setFlag_moves.on ?_ rfl

theorem flagClearEff_moves {a0} {s : State} : Moves 0x1 s (flagClearEff a0 s) := by
  unfold flagClearEff
  with_reducible
    repeat' first
      | exact .refl | assumption | refine setReg_moves.on ?_ rfl

theorem dmaReject_moves {a0} {s : State} : Moves 0x1 s (dmaReject a0 s) := by
  unfold dmaReject
  with_reducible
    repeat' first
      | exact .refl | assumption | refine put_moves.on ?_ rfl

theorem dmaStartEff_moves {a0} {s : State} : Moves 0x400001 s (dmaStartEff a0 s) := by
  unfold dmaStartEff
  with_reducible
    repeat' first
      | exact .refl | assumption
      | (extract_lets +onlyGivenNames x; first | (refine .cut (x := x) ?_ ?_; (on_goal 1 => intro _; clear_value x); (on_goal 2 => subst x)) | subst x)
      | refine dmaReject_moves.on ?_ rfl | refine setReg_moves.on ?_ rfl | refine put_moves.on ?_ rfl | refine onDma_moves.on ?_ rfl | split

theorem dmaResumeEff_moves {a0} {s : State} : Moves 0x400001 s (dmaResumeEff a0 s) := by
  unfold dmaResumeEff
  with_reducible
    repeat' first
      | exact .refl | assumption
      | (extract_lets +onlyGivenNames x; first | (refine .cut (x := x) ?_ ?_; (on_goal 1 => intro _; clear_value x); (on_goal 2 => subst x)) | subst x)
      | refine dmaReject_moves.on ?_ rfl | refine put_moves.on ?_ rfl | refine onDma_moves.on ?_ rfl | split

theorem tornElement_moves {a0} {s : State} : Moves 0x18200901 s (tornElement a0 s) := by
  unfold tornElement
  with_reducible
    repeat' first
      | exact .refl | assumption
      | (extract_lets +onlyGivenNames x; first | (refine .cut (x := x) ?_ ?_; (on_goal 1 => intro _; clear_value x); (on_goal 2 => subst x)) | subst x)
      | refine (forEach_moves (m := 0x18200901) (fun _ _ => ?_)).step ?_ | refine free_moves.on ?_ rfl
      | refine (free_moves.get (by assumption)).on ?_ rfl | refine deviceWrite_moves.on ?_ rfl | split

theorem stopChannel_moves {a0} {s : State} : Moves 0x18600901 s (stopChannel a0 s) := by
  unfold stopChannel
  with_reducible
    repeat' first
      | exact .refl | assumption
      | (extract_lets +onlyGivenNames x; first | (refine .cut (x := x) ?_ ?_; (on_goal 1 => intro _; clear_value x); (on_goal 2 => subst x)) | subst x)
      | refine dmaGive_moves.on ?_ rfl | refine tornElement_moves.on ?_ rfl | refine put_moves.on ?_ rfl | refine onDma_moves.on ?_ rfl
      | refine free_moves.on ?_ rfl | refine (free_moves.get (by assumption)).on ?_ rfl | refine setReg_moves.on ?_ rfl | refine count_moves.on ?_ rfl
      | split

theorem stopAll_moves {s : State} : Moves 0x18600901 s (stopAll s) := by
  unfold stopAll
  with_reducible
    repeat' first
      | exact .refl | assumption
      | (extract_lets +onlyGivenNames x; first | (refine .cut (x := x) ?_ ?_; (on_goal 1 => intro _; clear_value x); (on_goal 2 => subst x)) | subst x)
      | refine (forEach_moves (m := 0x18600901) (fun _ _ => ?_)).step ?_ | refine stopChannel_moves.on ?_ rfl

theorem disableEff_moves {a0} {s : State} : Moves 0x18600901 s (disableEff a0 s) := by
  unfold disableEff
  with_reducible
    repeat' first
      | exact .refl | assumption
      | (extract_lets +onlyGivenNames x; first | (refine .cut (x := x) ?_ ?_; (on_goal 1 => intro _; clear_value x); (on_goal 2 => subst x)) | subst x)
      | refine putB_moves.on ?_ rfl | refine stopAll_moves.on ?_ rfl | split

theorem execChannelStart_moves {a0} {s : State} : MovesR 0x400919 s (execChannelStart a0 s) := by
  unfold execChannelStart
  with_reducible
    repeat' first
      | exact .refl | assumption | exact .fault | refine .next ?_ | refine (command_moves (m := 0x400919) rfl (fun _ => ?_)).step ?_
      | refine dmaStartEff_moves.on ?_ rfl

theorem execChannelResume_moves {a0} {s : State} : MovesR 0x400919 s (execChannelResume a0 s) := by
  unfold execChannelResume
  with_reducible
    repeat' first
      | exact .refl | assumption | exact .fault | refine .next ?_ | refine (command_moves (m := 0x400919) rfl (fun _ => ?_)).step ?_
      | refine dmaResumeEff_moves.on ?_ rfl

theorem execChannelAbort_moves {a0} {s : State} : MovesR 0x18600919 s (execChannelAbort a0 s) := by
  unfold execChannelAbort
  with_reducible
    repeat' first
      | exact .refl | assumption | exact .fault | refine .next ?_ | refine (command_moves (m := 0x18600919) rfl (fun _ => ?_)).step ?_
      | refine stopChannel_moves.on ?_ rfl

theorem execDmaDisable_moves {a0} {s : State} : MovesR 0x18600919 s (execDmaDisable a0 s) := by
  unfold execDmaDisable
  with_reducible
    repeat' first
      | exact .refl | assumption | exact .fault | refine .next ?_ | refine (command_moves (m := 0x18600919) rfl (fun _ => ?_)).step ?_
      | refine disableEff_moves.on ?_ rfl

theorem fetchLine_moves {a0} {s : State} : Moves 0x18600901 s (fetchLine a0 s) := by
  unfold fetchLine
  with_reducible
    repeat' first
      | exact .refl | assumption
      | (extract_lets +onlyGivenNames x; first | (refine .cut (x := x) ?_ ?_; (on_goal 1 => intro _; clear_value x); (on_goal 2 => subst x)) | subst x)
      | refine dmaFault_moves.on ?_ rfl | refine deviceRead_moves.on ?_ rfl | refine (deviceRead_moves.get (by assumption)).on ?_ rfl
      | refine count_moves.on ?_ rfl | refine dmaLoad_moves.on ?_ rfl | refine onDma_moves.on ?_ rfl | split

theorem execInstructionFetch_moves {a0} {s : State} : MovesR 0x18600901 s (execInstructionFetch a0 s) := by
  unfold execInstructionFetch
  with_reducible
    repeat' first
      | exact .refl | assumption | exact .fault | refine .next ?_ | refine fetchLine_moves.on ?_ rfl | split

theorem execMove_moves {a0} {s : State} : MovesR 0x18600901 s (execMove a0 s) := by
  unfold execMove
  with_reducible
    repeat' first
      | exact .refl | assumption | exact .fault | refine .next ?_ | refine issueBursts_moves.on ?_ rfl | refine moveStart_moves.on ?_ rfl | split

theorem execDmaLoop_moves {a0} {s : State} : MovesR 0x18600901 s (execDmaLoop a0 s) := by
  unfold execDmaLoop
  with_reducible
    repeat' first
      | exact .refl | assumption | exact .fault | refine .next ?_
      | (extract_lets +onlyGivenNames x; first | (refine .cut (x := x) ?_ ?_; (on_goal 1 => intro _; clear_value x); (on_goal 2 => subst x)) | subst x)
      | refine loopAction_moves.on ?_ rfl | refine (loopAction_moves.get (by assumption)).on ?_ rfl | refine dmaGoto_moves.on ?_ rfl
      | refine dmaNext_moves.on ?_ rfl | split

theorem execWait_moves {a0} {s : State} : MovesR 0x18600901 s (execWait a0 s) := by
  unfold execWait
  with_reducible
    repeat' first
      | exact .refl | assumption | exact .fault | refine .next ?_
      | (extract_lets +onlyGivenNames x; first | (refine .cut (x := x) ?_ ?_; (on_goal 1 => intro _; clear_value x); (on_goal 2 => subst x)) | subst x)
      | refine put_moves.on ?_ rfl | refine onDma_moves.on ?_ rfl | refine dmaNext_moves.on ?_ rfl | split

theorem execSignal_moves {a0} {s : State} : MovesR 0x18600901 s (execSignal a0 s) := by
  unfold execSignal
  with_reducible
    repeat' first
      | exact .refl | assumption | exact .fault | refine .next ?_
      | (extract_lets +onlyGivenNames x; first | (refine .cut (x := x) ?_ ?_; (on_goal 1 => intro _; clear_value x); (on_goal 2 => subst x)) | subst x)
      | refine setFlag_moves.on ?_ rfl | refine dmaEvent_moves.on ?_ rfl | refine dmaDone_moves.on ?_ rfl | refine dmaNext_moves.on ?_ rfl | split

theorem execWaitDelayEnd_moves {a0} {s : State} : MovesR 0x18600901 s (execWaitDelayEnd a0 s) := by
  unfold execWaitDelayEnd
  with_reducible
    repeat' first
      | exact .refl | assumption | exact .fault | refine .next ?_ | refine dmaNext_moves.on ?_ rfl | refine put_moves.on ?_ rfl | split

theorem execFlagSet_moves {a0} {s : State} : MovesR 0x18600919 s (execFlagSet a0 s) := by
  unfold execFlagSet
  with_reducible
    repeat' first
      | exact .refl | assumption | exact .fault | refine .next ?_ | refine (command_moves (m := 0x18600919) rfl (fun _ => ?_)).step ?_
      | refine flagSetEff_moves.on ?_ rfl

theorem execFlagClear_moves {a0} {s : State} : MovesR 0x919 s (execFlagClear a0 s) := by
  unfold execFlagClear
  with_reducible
    repeat' first
      | exact .refl | assumption | exact .fault | refine .next ?_ | refine (command_moves (m := 0x919) rfl (fun _ => ?_)).step ?_
      | refine flagClearEff_moves.on ?_ rfl

theorem execBurstDone_moves {a0} {s : State} : MovesR 0x18600901 s (execBurstDone a0 s) := by
  unfold execBurstDone
  with_reducible
    repeat' first
      | exact .refl | assumption | exact .fault | refine .next ?_ | refine burstAccepted_moves.on ?_ rfl

end Sys2Proof.Machine
end

