-- ==== Sys2Proof/Laws/MovesPair.lean ====
section
/-! SUPPORT. One lemma for each operation of Baton.lean, BatonRows.lean, ModeRows.lean, Bus.lean, ResetRows.lean, LoadRows.lean, Cores.lean: what it may change (Moves). -/

namespace Sys2Proof.Machine

set_option linter.all false
set_option Elab.async false

theorem onBat_moves {a1} {s : State} : Moves 0x800000 s (State.onBat s a1) := by
  unfold State.onBat
  with_reducible
    repeat' first
      | exact .refl | assumption
      | (extract_lets +onlyGivenNames x; first | (refine .cut (x := x) ?_ ?_; (on_goal 1 => intro _; clear_value x); (on_goal 2 => subst x)) | subst x)
      | fail_if_no_progress refine mk_bat.on ?_ rfl

theorem batFlag_moves {a0} {s : State} : Moves 0x901 s (batFlag a0 s) := by
  unfold batFlag
  with_reducible
    repeat' first
      | exact .refl | assumption | refine irq_moves.on ?_ rfl | refine flag_moves.on ?_ rfl

theorem setClaim_moves {a0} {s : State} : Moves 0x1 s (setClaim a0 s) := by
  unfold setClaim
  with_reducible
    repeat' first
      | exact .refl | assumption
      | (extract_lets +onlyGivenNames x; first | (refine .cut (x := x) ?_ ?_; (on_goal 1 => intro _; clear_value x); (on_goal 2 => subst x)) | subst x)
      | refine showToggling_moves.on ?_ rfl | refine put_moves.on ?_ rfl

theorem spinPort_moves {s : State} : Moves 0x80E2801 s (spinPort s) := by
  unfold spinPort
  with_reducible
    repeat' first
      | exact .refl | assumption | refine startTurning_moves.on ?_ rfl | refine setSpin_moves.on ?_ rfl | split

theorem pairSettle_moves {s : State} : Moves 0x1F9FEB31 s (pairSettle s) := by
  unfold pairSettle
  with_reducible
    repeat' first
      | exact .refl | assumption | refine settle_moves.on ?_ rfl | refine anaUpdate_moves.on ?_ rfl | refine showMirroring_moves.on ?_ rfl
      | refine showToggling_moves.on ?_ rfl

theorem meet_moves {a0} {s : State} : Moves 0x8800901 s (meet a0 s) := by
  unfold meet
  with_reducible
    repeat' first
      | exact .refl | assumption
      | (extract_lets +onlyGivenNames x; first | (refine .cut (x := x) ?_ ?_; (on_goal 1 => intro _; clear_value x); (on_goal 2 => subst x)) | subst x)
      | refine batStat_moves.on ?_ rfl | refine uncond_moves.on ?_ rfl | refine batSend_moves.on ?_ rfl | refine batFlag_moves.on ?_ rfl
      | refine cond_moves.on ?_ rfl | split

theorem freePlace_moves {a0} {s : State} : Moves 0x200000 s (freePlace a0 s) := by
  unfold freePlace
  with_reducible
    repeat' first
      | exact .refl | assumption
      | (extract_lets +onlyGivenNames x; first | (refine .cut (x := x) ?_ ?_; (on_goal 1 => intro _; clear_value x); (on_goal 2 => subst x)) | subst x)
      | refine (onBuf_moves ?_).on ?_ rfl | exact fun _ => rfl | split

theorem dropMirrored_moves {a0} {s : State} : Moves 0xA00000 s (dropMirrored a0 s) := by
  unfold dropMirrored
  with_reducible
    repeat' first
      | exact .refl | assumption
      | (extract_lets +onlyGivenNames x; first | (refine .cut (x := x) ?_ ?_; (on_goal 1 => intro _; clear_value x); (on_goal 2 => subst x)) | subst x)
      | refine onBat_moves.on ?_ rfl | refine (forEach_moves (m := 0xA00000) (fun _ _ => ?_)).step ?_ | refine freePlace_moves.on ?_ rfl | split

theorem placeBlocks_moves {a0} {s : State} : Moves 0x200001 s (placeBlocks a0 s).2 := by
  induction a0 generalizing s with
  | nil => exact .refl
  | cons e l ih =>
    obtain ⟨lba, o, d⟩ := e
    cases o with
    | some _ => exact ih
    | none =>
      cases d with
      | nil => exact ih
      | cons b d =>
      unfold placeBlocks
      split
      · exact ih.step (memWrite_moves.on (takePlace_moves.get (by assumption)) rfl)
      · exact ih

theorem ackMirror_moves {a0} {s : State} : Moves 0x8A00001 s (ackMirror a0 s).2 := by
  unfold ackMirror
  with_reducible
    repeat' first
      | exact .refl | assumption
      | (extract_lets +onlyGivenNames x; first | (refine .cut (x := x) ?_ ?_; (on_goal 1 => intro _; clear_value x); (on_goal 2 => subst x)) | subst x)
      | refine placeBlocks_moves.on ?_ rfl | refine (placeBlocks_moves.get (by assumption)).on ?_ rfl | refine batSend_moves.on ?_ rfl | split
      | dsimp only

theorem ackMirrors_moves {s : State} : Moves 0x8A00001 s (ackMirrors s) := by
  unfold ackMirrors
  exact onBat_moves.on (foldlSnd_moves (fun p a => ackMirror_moves)) rfl

theorem mirrorBlocks_moves {a0 a1 a2 a3} {s : State} : Moves 0x8A00001 s (mirrorBlocks a0 a1 a2 a3 s) := by
  unfold mirrorBlocks
  with_reducible
    repeat' first
      | exact .refl | assumption
      | (extract_lets +onlyGivenNames x; first | (refine .cut (x := x) ?_ ?_; (on_goal 1 => intro _; clear_value x); (on_goal 2 => subst x)) | subst x)
      | refine onBat_moves.on ?_ rfl | refine ackMirrors_moves.on ?_ rfl | split

theorem commitMirror_moves {a0 a1 a2 a3 a4} {s : State} : Moves 0x8A00001 s (commitMirror a0 a1 a2 a3 a4 s) := by
  unfold commitMirror
  with_reducible
    repeat' first
      | exact .refl | assumption
      | (extract_lets +onlyGivenNames x; first | (refine .cut (x := x) ?_ ?_; (on_goal 1 => intro _; clear_value x); (on_goal 2 => subst x)) | subst x)
      | refine onBat_moves.on ?_ rfl | refine dropMirrored_moves.on ?_ rfl | refine ackMirrors_moves.on ?_ rfl | refine count_moves.on ?_ rfl | split

theorem freeMirrored_moves {a0 a1} {s : State} : Moves 0x8A00001 s (freeMirrored a0 a1 s) := by
  unfold freeMirrored
  with_reducible
    repeat' first
      | exact .refl | assumption | refine ackMirrors_moves.on ?_ rfl | refine dropMirrored_moves.on ?_ rfl | refine count_moves.on ?_ rfl

theorem mirrored_moves {a0} {s : State} : Moves 0x2880001 s (mirrored a0 s) := by
  unfold mirrored
  with_reducible
    repeat' first
      | exact .refl | assumption
      | (extract_lets +onlyGivenNames x; first | (refine .cut (x := x) ?_ ?_; (on_goal 1 => intro _; clear_value x); (on_goal 2 => subst x)) | subst x)
      | refine onBat_moves.on ?_ rfl | refine (forEach_moves (m := 0x2880001) (fun _ _ => ?_)).step ?_ | refine finish_moves.on ?_ rfl
      | refine setSlot_moves.on ?_ rfl | split

theorem mirrorAgain_moves {a0 a1} {s : State} : Moves 0x8A00001 s (mirrorAgain a0 a1 s) := by
  unfold mirrorAgain
  with_reducible
    repeat' first
      | exact .refl | assumption | refine ackMirrors_moves.on ?_ rfl | refine onBat_moves.on ?_ rfl | split | dsimp only

theorem mirrorReply_moves {a0 a1} {s : State} : Moves 0xAB80901 s (mirrorReply a0 a1 s) := by
  unfold mirrorReply
  with_reducible
    repeat' first
      | exact .refl | assumption
      | (extract_lets +onlyGivenNames x; first | (refine .cut (x := x) ?_ ?_; (on_goal 1 => intro _; clear_value x); (on_goal 2 => subst x)) | subst x)
      | refine onBat_moves.on ?_ rfl | refine (forEach_moves (m := 0xAB80901) (fun _ _ => ?_)).step ?_ | refine setPoison_moves.on ?_ rfl
      | refine flag_moves.on ?_ rfl | refine cacheSet_moves.on ?_ rfl | refine memWrite_moves.on ?_ rfl | refine lostBlock_moves.on ?_ rfl
      | refine mirrorAgain_moves.on ?_ rfl | split | dsimp only

theorem onShadow_moves {m : Nat} {f0} {s : State} (hm : 0x900000 ||| m = m) (hf0 : ∀  t, Moves m t (f0  t)) : Moves m s (onShadow f0 s) := by
  unfold onShadow
  with_reducible
    repeat' first
      | exact .refl | assumption | exact hf0 .. | refine (hf0 ..).step ?_
      | (extract_lets +onlyGivenNames x; first | (refine .cut (x := x) ?_ ?_; (on_goal 1 => intro _; clear_value x); (on_goal 2 => subst x)) | subst x)
      | refine onBnd_moves.on ?_ (sub_of hm rfl) | fail_if_no_progress refine mk_bnd.on ?_ (sub_of hm rfl)
      | fail_if_no_progress refine mk_bat.on ?_ (sub_of hm rfl)

theorem shadowEntry_moves {a0} {s : State} : Moves 0x900000 s (shadowEntry a0 s) := by
  unfold shadowEntry
  with_reducible
    repeat' first
      | exact .refl | assumption
      | (extract_lets +onlyGivenNames x; first | (refine .cut (x := x) ?_ ?_; (on_goal 1 => intro _; clear_value x); (on_goal 2 => subst x)) | subst x)
      | refine onBat_moves.on ?_ rfl | refine (onShadow_moves (m := 0x900000) rfl (fun _ => ?_)).step ?_ | refine replayEntry_moves.on ?_ rfl

theorem shadowOwn_moves {s : State} : Moves 0x800000 s (shadowOwn s) := by
  unfold shadowOwn
  with_reducible
    repeat' first
      | exact .refl | assumption
      | (extract_lets +onlyGivenNames x; first | (refine .cut (x := x) ?_ ?_; (on_goal 1 => intro _; clear_value x); (on_goal 2 => subst x)) | subst x)
      | refine onBat_moves.on ?_ rfl

theorem adoptLane_moves {a0 a1} {s : State} : Moves 0x100000 s (adoptLane a0 a1 s) := by
  unfold adoptLane
  with_reducible
    repeat' first
      | exact .refl | assumption
      | (extract_lets +onlyGivenNames x; first | (refine .cut (x := x) ?_ ?_; (on_goal 1 => intro _; clear_value x); (on_goal 2 => subst x)) | subst x)
      | refine onBnd_moves.on ?_ rfl | refine count_moves.on ?_ rfl | refine (foldl_moves (m := 0x100000) (fun _ _ => ?_)).step ?_ | split

theorem shadowLive_moves {a0} {s : State} : Moves 0x900001 s (shadowLive a0 s) := by
  unfold shadowLive
  with_reducible
    repeat' first
      | exact .refl | assumption
      | (extract_lets +onlyGivenNames x; first | (refine .cut (x := x) ?_ ?_; (on_goal 1 => intro _; clear_value x); (on_goal 2 => subst x)) | subst x)
      | refine onBnd_moves.on ?_ rfl | refine (forEach_moves (m := 0x900001) (fun _ _ => ?_)).step ?_ | refine mciAdd_moves.on ?_ rfl
      | refine adoptLane_moves.on ?_ rfl | refine showJournal_moves.on ?_ rfl | refine onBat_moves.on ?_ rfl
      | refine (foldl_moves (m := 0x900001) (fun _ _ => ?_)).step ?_

theorem startLanes_moves {a0} {s : State} : Moves 0x1D08EB01 s (startLanes a0 s) := by
  unfold startLanes
  with_reducible
    repeat' first
      | exact .refl | assumption | refine wantHeads_moves.on ?_ rfl | refine (forEach_moves (m := 0x1D08EB01) (fun _ _ => ?_)).step ?_
      | refine svEnable_moves.on ?_ rfl | dsimp only

theorem adoptMirror_moves {a0} {s : State} : Moves 0xA00001 s (adoptMirror a0 s) := by
  unfold adoptMirror
  with_reducible
    repeat' first
      | exact .refl | assumption
      | (extract_lets +onlyGivenNames x; first | (refine .cut (x := x) ?_ ?_; (on_goal 1 => intro _; clear_value x); (on_goal 2 => subst x)) | subst x)
      | refine placeBlocks_moves.on ?_ rfl | refine (placeBlocks_moves.get (by assumption)).on ?_ rfl
      | refine (forEach_moves (m := 0xA00001) (fun _ _ => ?_)).step ?_ | refine count_moves.on ?_ rfl | refine cacheSet_moves.on ?_ rfl
      | refine cacheDrop_moves.on ?_ rfl | refine onBat_moves.on ?_ rfl | split | dsimp only

theorem adoptMirrors_moves {s : State} : Moves 0xA00901 s (adoptMirrors s) := by
  unfold adoptMirrors
  with_reducible
    repeat' first
      | exact .refl | assumption
      | (extract_lets +onlyGivenNames x; first | (refine .cut (x := x) ?_ ?_; (on_goal 1 => intro _; clear_value x); (on_goal 2 => subst x)) | subst x)
      | refine onBat_moves.on ?_ rfl | refine (forEach_moves (m := 0xA00901) (fun _ _ => ?_)).step ?_ | refine freePlace_moves.on ?_ rfl
      | refine batFlag_moves.on ?_ rfl | refine adoptMirror_moves.on ?_ rfl | split

theorem endForwarded_moves {s : State} : Moves 0x880901 s (endForwarded s) := by
  unfold endForwarded
  with_reducible
    repeat' first
      | exact .refl | assumption
      | (extract_lets +onlyGivenNames x; first | (refine .cut (x := x) ?_ ?_; (on_goal 1 => intro _; clear_value x); (on_goal 2 => subst x)) | subst x)
      | refine onBat_moves.on ?_ rfl | refine flag_moves.on ?_ rfl | refine (forEach_moves (m := 0x880901) (fun _ _ => ?_)).step ?_
      | refine request_moves.on ?_ rfl | refine showRelay_moves.on ?_ rfl | fail_if_no_progress refine mk_rly.on ?_ rfl | split

theorem endReceived_moves {s : State} : Moves 0x80001 s (endReceived s) := by
  unfold endReceived
  with_reducible
    repeat' first
      | exact .refl | assumption
      | (extract_lets +onlyGivenNames x; first | (refine .cut (x := x) ?_ ?_; (on_goal 1 => intro _; clear_value x); (on_goal 2 => subst x)) | subst x)
      | refine showRelay_moves.on ?_ rfl | fail_if_no_progress refine mk_rly.on ?_ rfl | split | dsimp only

theorem endGuests_moves {s : State} : Moves 0x2880001 s (endGuests s) := by
  unfold endGuests
  with_reducible
    repeat' first
      | exact .refl | assumption
      | (extract_lets +onlyGivenNames x; first | (refine .cut (x := x) ?_ ?_; (on_goal 1 => intro _; clear_value x); (on_goal 2 => subst x)) | subst x)
      | refine (forEach_moves (m := 0x2880001) (fun _ _ => ?_)).step ?_ | refine freeSlot_moves.on ?_ rfl | refine setSlot_moves.on ?_ rfl
      | refine onBat_moves.on ?_ rfl | split

theorem enterOwn_moves {a0} {s : State} : Moves 0x2000901 s (enterOwn a0 s) := by
  unfold enterOwn
  with_reducible
    repeat' first
      | exact .refl | assumption
      | (extract_lets +onlyGivenNames x; first | (refine .cut (x := x) ?_ ?_; (on_goal 1 => intro _; clear_value x); (on_goal 2 => subst x)) | subst x)
      | refine setSlot_moves.on ?_ rfl | refine enterRuns_moves.on ?_ rfl | split

theorem reissue_moves {a0} {s : State} : Moves 0x2000901 s (reissue a0 s) := by
  unfold reissue
  with_reducible
    repeat' first
      | exact .refl | assumption
      | (extract_lets +onlyGivenNames x; first | (refine .cut (x := x) ?_ ?_; (on_goal 1 => intro _; clear_value x); (on_goal 2 => subst x)) | subst x)
      | refine count_moves.on ?_ rfl | refine enterOwn_moves.on ?_ rfl | refine setSlot_moves.on ?_ rfl
      | refine (write_moves (m := 0x2000901) rfl (fun _ => ?_)).step ?_ | split

theorem failover_moves {s : State} : Moves 0x1FBFEB31 s (failover s) := by
  unfold failover
  with_reducible
    repeat' first
      | exact .refl | assumption
      | (extract_lets +onlyGivenNames x; first | (refine .cut (x := x) ?_ ?_; (on_goal 1 => intro _; clear_value x); (on_goal 2 => subst x)) | subst x)
      | refine cond_moves.on ?_ rfl | refine batStat_moves.on ?_ rfl | refine batFlag_moves.on ?_ rfl | refine endGuests_moves.on ?_ rfl
      | refine endReceived_moves.on ?_ rfl | refine endForwarded_moves.on ?_ rfl | refine showMirroring_moves.on ?_ rfl
      | refine adoptMirrors_moves.on ?_ rfl | refine shadowLive_moves.on ?_ rfl | refine onBnd_moves.on ?_ rfl | refine showScan_moves.on ?_ rfl
      | refine spinPort_moves.on ?_ rfl | refine startLanes_moves.on ?_ rfl | refine (forEach_moves (m := 0x1FBFEB31) (fun _ _ => ?_)).step ?_
      | refine reissue_moves.on ?_ rfl | refine onBat_moves.on ?_ rfl | refine finish_moves.on ?_ rfl | refine setSlot_moves.on ?_ rfl
      | refine pairSettle_moves.on ?_ rfl | split | dsimp only

theorem adoptScans_moves {s : State} : Moves 0xAB80901 s (adoptScans s) := by
  unfold adoptScans
  with_reducible
    repeat' first
      | exact .refl | assumption
      | (extract_lets +onlyGivenNames x; first | (refine .cut (x := x) ?_ ?_; (on_goal 1 => intro _; clear_value x); (on_goal 2 => subst x)) | subst x)
      | refine (forEach_moves (m := 0xAB80901) (fun _ _ => ?_)).step ?_ | refine resolveRewrite_moves.on ?_ rfl | refine onBnd_moves.on ?_ rfl
      | refine resolveZone_moves.on ?_ rfl | refine putSeq_moves.on ?_ rfl | refine onBat_moves.on ?_ rfl | refine forceFlush_moves.on ?_ rfl

theorem failoverEnds_moves {s : State} : Moves 0x1F9FEB31 s (failoverEnds s) := by
  unfold failoverEnds
  with_reducible
    repeat' first
      | exact .refl | assumption
      | (extract_lets +onlyGivenNames x; first | (refine .cut (x := x) ?_ ?_; (on_goal 1 => intro _; clear_value x); (on_goal 2 => subst x)) | subst x)
      | refine onBat_moves.on ?_ rfl | refine batStat_moves.on ?_ rfl | refine pairSettle_moves.on ?_ rfl
      | refine (forEach_moves (m := 0x1F9FEB31) (fun _ _ => ?_)).step ?_ | refine enterOwn_moves.on ?_ rfl

theorem loseLink_moves {s : State} : Moves 0x1FBFEB31 s (loseLink s) := by
  unfold loseLink
  with_reducible
    repeat' first
      | exact .refl | assumption
      | (extract_lets +onlyGivenNames x; first | (refine .cut (x := x) ?_ ?_; (on_goal 1 => intro _; clear_value x); (on_goal 2 => subst x)) | subst x)
      | refine setClaim_moves.on ?_ rfl | refine batFlag_moves.on ?_ rfl | refine batStat_moves.on ?_ rfl | refine put_moves.on ?_ rfl
      | refine endGuests_moves.on ?_ rfl | refine endReceived_moves.on ?_ rfl | refine endForwarded_moves.on ?_ rfl
      | refine dropMirrored_moves.on ?_ rfl | refine onBat_moves.on ?_ rfl | refine (forEach_moves (m := 0x1FBFEB31) (fun _ _ => ?_)).step ?_
      | refine finish_moves.on ?_ rfl | refine setSlot_moves.on ?_ rfl | refine pairSettle_moves.on ?_ rfl | refine loseUnit0_moves.on ?_ rfl
      | refine showMirroring_moves.on ?_ rfl | split

theorem ownLost_moves {a0} {s : State} : Moves 0x1FBFEB31 s (ownLost a0 s) := by
  unfold ownLost
  with_reducible
    repeat' first
      | exact .refl | assumption | refine loseUnit0_moves.on ?_ rfl | refine batFlag_moves.on ?_ rfl | refine svRetract_moves.on ?_ rfl

theorem giveUpLane_moves {a0} {s : State} : Moves 0x1C98EB01 s (giveUpLane a0 s) := by
  unfold giveUpLane
  with_reducible
    repeat' first
      | exact .refl | assumption
      | (extract_lets +onlyGivenNames x; first | (refine .cut (x := x) ?_ ?_; (on_goal 1 => intro _; clear_value x); (on_goal 2 => subst x)) | subst x)
      | refine haltSeq_moves.on ?_ rfl | refine headLinkStop_moves.on ?_ rfl | refine svDisable_moves.on ?_ rfl | refine abortItems_moves.on ?_ rfl
      | refine abortLadder_moves.on ?_ rfl | refine showRelay_moves.on ?_ rfl | fail_if_no_progress refine mk_rly.on ?_ rfl | dsimp only

theorem sendRelease_moves {a0} {s : State} : Moves 0x8800001 s (sendRelease a0 s) := by
  unfold sendRelease
  with_reducible
    repeat' first
      | exact .refl | assumption
      | (extract_lets +onlyGivenNames x; first | (refine .cut (x := x) ?_ ?_; (on_goal 1 => intro _; clear_value x); (on_goal 2 => subst x)) | subst x)
      | refine newTag_moves.on ?_ rfl | refine (newTag_moves.get (by assumption)).on ?_ rfl | refine batSend_moves.on ?_ rfl | split

theorem ownCtlEff_moves {a0} {s : State} : Moves 0xA880001 s (ownCtlEff a0 s) := by
  unfold ownCtlEff
  with_reducible
    repeat' first
      | exact .refl | assumption
      | (extract_lets +onlyGivenNames x; first | (refine .cut (x := x) ?_ ?_; (on_goal 1 => intro _; clear_value x); (on_goal 2 => subst x)) | subst x)
      | refine setClaim_moves.on ?_ rfl | refine anaUpdate_moves.on ?_ rfl | refine sendRelease_moves.on ?_ rfl | refine onBat_moves.on ?_ rfl | split

theorem ackChange_moves {a0} {s : State} : Moves 0x1FBFEB31 s (ackChange a0 s) := by
  unfold ackChange
  with_reducible
    repeat' first
      | exact .refl | assumption
      | (extract_lets +onlyGivenNames x; first | (refine .cut (x := x) ?_ ?_; (on_goal 1 => intro _; clear_value x); (on_goal 2 => subst x)) | subst x)
      | refine (forEach_moves (m := 0x1FBFEB31) (fun _ _ => ?_)).step ?_ | refine ownLost_moves.on ?_ rfl | refine giveUpLane_moves.on ?_ rfl
      | refine put_moves.on ?_ rfl | refine shadowOwn_moves.on ?_ rfl | refine onBat_moves.on ?_ rfl | refine startLanes_moves.on ?_ rfl
      | refine shadowLive_moves.on ?_ rfl | refine spinPort_moves.on ?_ rfl | refine showToggling_moves.on ?_ rfl | refine failover_moves.on ?_ rfl
      | refine pairSettle_moves.on ?_ rfl | split | dsimp only

theorem sendAllDirty_moves {s : State} : Moves 0x8A00001 s (sendAllDirty s) := by
  unfold sendAllDirty
  with_reducible
    repeat' first
      | exact .refl | assumption
      | (extract_lets +onlyGivenNames x; first | (refine .cut (x := x) ?_ ?_; (on_goal 1 => intro _; clear_value x); (on_goal 2 => subst x)) | subst x)
      | refine onBat_moves.on ?_ rfl | refine (forEach_moves (m := 0x8A00001) (fun _ _ => ?_)).step ?_ | refine newTag_moves.on ?_ rfl
      | refine (newTag_moves.get (by assumption)).on ?_ rfl | refine batSend_moves.on ?_ rfl | refine cacheSet_moves.on ?_ rfl
      | refine batRecord_moves.on ?_ rfl | split | dsimp only

theorem resyncPhase_moves {a0 a1} {s : State} : Moves 0x8B80001 s (resyncPhase a0 a1 s) := by
  unfold resyncPhase
  with_reducible
    repeat' first
      | exact .refl | assumption
      | (extract_lets +onlyGivenNames x; first | (refine .cut (x := x) ?_ ?_; (on_goal 1 => intro _; clear_value x); (on_goal 2 => subst x)) | subst x)
      | refine startImage_moves.on ?_ rfl | refine onBat_moves.on ?_ rfl | refine (forEach_moves (m := 0x8B80001) (fun _ _ => ?_)).step ?_
      | refine (onShadow_moves (m := 0x8B80001) rfl (fun _ => ?_)).step ?_ | refine replayEntry_moves.on ?_ rfl | refine onBnd_moves.on ?_ rfl
      | refine batSend_moves.on ?_ rfl | refine showLwl_moves.on ?_ rfl | refine (onBuf_moves ?_).on ?_ rfl | exact fun _ => rfl
      | refine sendAllDirty_moves.on ?_ rfl | refine sendHeartbeat_moves.on ?_ rfl | split

theorem execOwnToggle_moves {s : State} : MovesR 0x8800001 s (execOwnToggle s) := by
  unfold execOwnToggle
  with_reducible
    repeat' first
      | exact .refl | assumption | exact .fault | refine .next ?_
      | (extract_lets +onlyGivenNames x; first | (refine .cut (x := x) ?_ ?_; (on_goal 1 => intro _; clear_value x); (on_goal 2 => subst x)) | subst x)
      | refine showToggling_moves.on ?_ rfl | refine (forEach_moves (m := 0x8800001) (fun _ _ => ?_)).step ?_ | refine emit_moves.on ?_ rfl
      | refine onBat_moves.on ?_ rfl | split

theorem execOwnAckChange_moves {a0} {s : State} : MovesR 0x1FBFEB31 s (execOwnAckChange a0 s) := by
  unfold execOwnAckChange
  with_reducible
    repeat' first
      | exact .refl | assumption | exact .fault | refine .next ?_ | refine ackChange_moves.on ?_ rfl | split

theorem execFailoverDone_moves {s : State} : MovesR 0x1FBFEB31 s (execFailoverDone s) := by
  unfold execFailoverDone
  with_reducible
    repeat' first
      | exact .refl | assumption | exact .fault | refine .next ?_ | refine settle_moves.on ?_ rfl | refine adoptMirrors_moves.on ?_ rfl
      | refine adoptScans_moves.on ?_ rfl | refine failoverEnds_moves.on ?_ rfl | split

theorem execBatonLinkUp_moves {s : State} : MovesR 0x8800801 s (execBatonLinkUp s) := by
  unfold execBatonLinkUp
  with_reducible
    repeat' first
      | exact .refl | assumption | exact .fault | refine .next ?_
      | (extract_lets +onlyGivenNames x; first | (refine .cut (x := x) ?_ ?_; (on_goal 1 => intro _; clear_value x); (on_goal 2 => subst x)) | subst x)
      | refine put_moves.on ?_ rfl | refine batStat_moves.on ?_ rfl | refine onBat_moves.on ?_ rfl | refine batSend_moves.on ?_ rfl
      | refine setFreed_moves.on ?_ rfl | split | dsimp only

theorem execHello_moves {a0 a1 a2 a3 a4 a5 a6} {s : State} : MovesR 0x1F9FEB31 s (execHello a0 a1 a2 a3 a4 a5 a6 s) := by
  unfold execHello
  with_reducible
    repeat' first
      | exact .refl | assumption | exact .fault | refine .next ?_
      | (extract_lets +onlyGivenNames x; first | (refine .cut (x := x) ?_ ?_; (on_goal 1 => intro _; clear_value x); (on_goal 2 => subst x)) | subst x)
      | refine (batReceive_moves (m := 0x1F9FEB31) rfl (fun _ => ?_)).step ?_ | refine put_moves.on ?_ rfl | refine pairSettle_moves.on ?_ rfl
      | refine meet_moves.on ?_ rfl | split

theorem handBack_moves {s : State} : Moves 0xA880001 s (handBack s) := by
  unfold handBack
  with_reducible
    repeat' first
      | exact .refl | assumption
      | (extract_lets +onlyGivenNames x; first | (refine .cut (x := x) ?_ ?_; (on_goal 1 => intro _; clear_value x); (on_goal 2 => subst x)) | subst x)
      | refine ownCtlEff_moves.on ?_ rfl | split

theorem partnerBack_moves {s : State} : Moves 0x800801 s (partnerBack s) := by
  unfold partnerBack
  with_reducible
    repeat' first
      | exact .refl | assumption
      | (extract_lets +onlyGivenNames x; first | (refine .cut (x := x) ?_ ?_; (on_goal 1 => intro _; clear_value x); (on_goal 2 => subst x)) | subst x)
      | refine onBat_moves.on ?_ rfl | refine batStat_moves.on ?_ rfl | refine uncond_moves.on ?_ rfl | split

theorem execHeartbeat_moves {a0 a1 a2 a3 a4 a5 a6 a7 a8} {s : State} : MovesR 0x1F9FEB31 s (execHeartbeat a0 a1 a2 a3 a4 a5 a6 a7 a8 s) := by
  unfold execHeartbeat
  with_reducible
    repeat' first
      | exact .refl | assumption | exact .fault | refine .next ?_
      | (extract_lets +onlyGivenNames x; first | (refine .cut (x := x) ?_ ?_; (on_goal 1 => intro _; clear_value x); (on_goal 2 => subst x)) | subst x)
      | refine (batReceive_moves (m := 0x1F9FEB31) rfl (fun _ => ?_)).step ?_ | refine put_moves.on ?_ rfl | refine batStat_moves.on ?_ rfl
      | refine setPair_moves.on ?_ rfl | refine onBat_moves.on ?_ rfl | refine pairSettle_moves.on ?_ rfl | refine spinPort_moves.on ?_ rfl
      | refine handBack_moves.on ?_ rfl | refine partnerBack_moves.on ?_ rfl

theorem execHeartbeatSend_moves {s : State} : MovesR 0x8800001 s (execHeartbeatSend s) := by
  unfold execHeartbeatSend
  with_reducible
    repeat' first
      | exact .refl | assumption | exact .fault | refine .next ?_ | refine sendHeartbeat_moves.on ?_ rfl | split

theorem execRelease_moves {a0 a1} {s : State} : MovesR 0x1F9FEB31 s (execRelease a0 a1 s) := by
  unfold execRelease
  with_reducible
    repeat' first
      | exact .refl | assumption | exact .fault | refine .next ?_
      | (extract_lets +onlyGivenNames x; first | (refine .cut (x := x) ?_ ?_; (on_goal 1 => intro _; clear_value x); (on_goal 2 => subst x)) | subst x)
      | refine (batReceive_moves (m := 0x1F9FEB31) rfl (fun _ => ?_)).step ?_ | refine pairSettle_moves.on ?_ rfl | refine setClaim_moves.on ?_ rfl
      | refine onBat_moves.on ?_ rfl

theorem execMessageReplay_moves {a0} {s : State} : MovesR 0x8800901 s (execMessageReplay a0 s) := by
  unfold execMessageReplay
  refine .next ?_
  split
  · exact .refl
  · split
    · exact sendHeartbeat_moves.on (setFreed_moves.on (count_moves.wide rfl) rfl) rfl
    · dsimp only
      split
      · exact .refl
      · refine Moves.step (foldlSnd_moves (fun p a => ?_)) (batFlag_moves.on (count_moves.wide rfl) rfl)
        obtain ⟨go, t⟩ := p
        dsimp only
        split
        · exact put_moves.on (emit_moves.wide rfl) rfl
        · exact .refl

theorem execPartnerSuspect_moves {s : State} : MovesR 0x800801 s (execPartnerSuspect s) := by
  unfold execPartnerSuspect
  with_reducible
    repeat' first
      | exact .refl | assumption | exact .fault | refine .next ?_
      | (extract_lets +onlyGivenNames x; first | (refine .cut (x := x) ?_ ?_; (on_goal 1 => intro _; clear_value x); (on_goal 2 => subst x)) | subst x)
      | refine batStat_moves.on ?_ rfl | refine setClaim_moves.on ?_ rfl | refine onBat_moves.on ?_ rfl | split

theorem execClaimTimeout_moves {s : State} : MovesR 0x1FBFEB31 s (execClaimTimeout s) := by
  unfold execClaimTimeout
  with_reducible
    repeat' first
      | exact .refl | assumption | exact .fault | refine .next ?_ | refine loseLink_moves.on ?_ rfl | split

theorem execCmd_moves {a0 a1 a2 a3 a4} {s : State} : MovesR 0x1F9FEB31 s (execCmd a0 a1 a2 a3 a4 s) := by
  unfold execCmd
  with_reducible
    repeat' first
      | exact .refl | assumption | exact .fault | refine .next ?_
      | (extract_lets +onlyGivenNames x; first | (refine .cut (x := x) ?_ ?_; (on_goal 1 => intro _; clear_value x); (on_goal 2 => subst x)) | subst x)
      | refine (batReceive_moves (m := 0x1F9FEB31) rfl (fun _ => ?_)).step ?_ | refine onBat_moves.on ?_ rfl | refine setSlot_moves.on ?_ rfl
      | refine settle_moves.on ?_ rfl | refine finish_moves.on ?_ rfl | refine enterRuns_moves.on ?_ rfl | split | dsimp only

theorem addData_moves {a0 a1 a2} {s : State} : Moves 0x2000001 s (addData a0 a1 a2 s) := by
  unfold addData
  with_reducible
    repeat' first
      | exact .refl | assumption
      | (extract_lets +onlyGivenNames x; first | (refine .cut (x := x) ?_ ?_; (on_goal 1 => intro _; clear_value x); (on_goal 2 => subst x)) | subst x)
      | refine setSlot_moves.on ?_ rfl | split

theorem execData_moves {a0 a1 a2 a3} {s : State} : MovesR 0x1FBFEB31 s (execData a0 a1 a2 a3 s) := by
  unfold execData
  with_reducible
    repeat' first
      | exact .refl | assumption | exact .fault | refine .next ?_
      | (extract_lets +onlyGivenNames x; first | (refine .cut (x := x) ?_ ?_; (on_goal 1 => intro _; clear_value x); (on_goal 2 => subst x)) | subst x)
      | refine (batReceive_moves (m := 0x1FBFEB31) rfl (fun _ => ?_)).step ?_ | refine addData_moves.on ?_ rfl
      | refine (forEach_moves (m := 0x1FBFEB31) (fun _ _ => ?_)).step ?_ | refine settle_moves.on ?_ rfl | refine blockArrived_moves.on ?_ rfl
      | refine (onBuf_moves ?_).on ?_ rfl | exact fun _ => rfl | refine count_moves.on ?_ rfl | split | dsimp only

theorem countDone_moves {a0 a1} {s : State} : Moves 0x2000000 s (countDone a0 a1 s) := by
  unfold countDone
  with_reducible
    repeat' first
      | exact .refl | assumption
      | (extract_lets +onlyGivenNames x; first | (refine .cut (x := x) ?_ ?_; (on_goal 1 => intro _; clear_value x); (on_goal 2 => subst x)) | subst x)
      | refine countIo_moves.on ?_ rfl | refine (write_moves (m := 0x2000000) rfl (fun _ => ?_)).step ?_ | split

theorem execDone_moves {a0 a1 a2 a3 a4} {s : State} : MovesR 0x1F9FEB31 s (execDone a0 a1 a2 a3 a4 s) := by
  unfold execDone
  with_reducible
    repeat' first
      | exact .refl | assumption | exact .fault | refine .next ?_
      | (extract_lets +onlyGivenNames x; first | (refine .cut (x := x) ?_ ?_; (on_goal 1 => intro _; clear_value x); (on_goal 2 => subst x)) | subst x)
      | refine (batReceive_moves (m := 0x1F9FEB31) rfl (fun _ => ?_)).step ?_ | refine onBat_moves.on ?_ rfl | refine settle_moves.on ?_ rfl
      | refine finish_moves.on ?_ rfl | refine countDone_moves.on ?_ rfl | split

theorem execExtent_moves {a0 a1 a2} {s : State} : MovesR 0x1F9FEB31 s (execExtent a0 a1 a2 s) := by
  unfold execExtent
  with_reducible
    repeat' first
      | exact .refl | assumption | exact .fault | refine .next ?_
      | (extract_lets +onlyGivenNames x; first | (refine .cut (x := x) ?_ ?_; (on_goal 1 => intro _; clear_value x); (on_goal 2 => subst x)) | subst x)
      | refine (batReceive_moves (m := 0x1F9FEB31) rfl (fun _ => ?_)).step ?_ | refine batSend_moves.on ?_ rfl | refine settle_moves.on ?_ rfl
      | refine enterPool_moves.on ?_ rfl | refine count_moves.on ?_ rfl | split | dsimp only

theorem execOutcome_moves {a0 a1 a2} {s : State} : MovesR 0x1FBFEB31 s (execOutcome a0 a1 a2 s) := by
  unfold execOutcome
  with_reducible
    repeat' first
      | exact .refl | assumption | exact .fault | refine .next ?_
      | (extract_lets +onlyGivenNames x; first | (refine .cut (x := x) ?_ ?_; (on_goal 1 => intro _; clear_value x); (on_goal 2 => subst x)) | subst x)
      | refine (batReceive_moves (m := 0x1FBFEB31) rfl (fun _ => ?_)).step ?_ | refine onBat_moves.on ?_ rfl | refine showRelay_moves.on ?_ rfl
      | refine (forEach_moves (m := 0x1FBFEB31) (fun _ _ => ?_)).step ?_ | refine chargeAccount_moves.on ?_ rfl | refine bndPlaced_moves.on ?_ rfl
      | refine tailReports_moves.on ?_ rfl | refine request_moves.on ?_ rfl | refine pendRetire_moves.on ?_ rfl | refine failItem_moves.on ?_ rfl
      | refine settle_moves.on ?_ rfl | fail_if_no_progress refine mk_rly.on ?_ rfl | refine count_moves.on ?_ rfl | refine failRead_moves.on ?_ rfl
      | split | dsimp only

theorem execMirror_moves {a0 a1 a2 a3 a4} {s : State} : MovesR 0x1FBFEB31 s (execMirror a0 a1 a2 a3 a4 s) := by
  unfold execMirror
  with_reducible
    repeat' first
      | exact .refl | assumption | exact .fault | refine .next ?_ | refine (batReceive_moves (m := 0x1FBFEB31) rfl (fun _ => ?_)).step ?_
      | refine settle_moves.on ?_ rfl | refine mirrorReply_moves.on ?_ rfl | refine mirrorBlocks_moves.on ?_ rfl | refine count_moves.on ?_ rfl
      | split

theorem execCommit_moves {a0 a1 a2 a3 a4} {s : State} : MovesR 0x8A00801 s (execCommit a0 a1 a2 a3 a4 s) := by
  unfold execCommit
  with_reducible
    repeat' first
      | exact .refl | assumption | exact .fault | refine .next ?_ | refine (batReceive_moves (m := 0x8A00801) rfl (fun _ => ?_)).step ?_
      | refine commitMirror_moves.on ?_ rfl | refine count_moves.on ?_ rfl

theorem execMack_moves {a0} {s : State} : MovesR 0x1F9FEB31 s (execMack a0 s) := by
  unfold execMack
  with_reducible
    repeat' first
      | exact .refl | assumption | exact .fault | refine .next ?_ | refine (batReceive_moves (m := 0x1F9FEB31) rfl (fun _ => ?_)).step ?_
      | refine settle_moves.on ?_ rfl | refine handBack_moves.on ?_ rfl | refine mirrored_moves.on ?_ rfl

theorem execMfree_moves {a0 a1 a2 a3} {s : State} : MovesR 0x8A00801 s (execMfree a0 a1 a2 a3 s) := by
  unfold execMfree
  with_reducible
    repeat' first
      | exact .refl | assumption | exact .fault | refine .next ?_ | refine (batReceive_moves (m := 0x8A00801) rfl (fun _ => ?_)).step ?_
      | refine freeMirrored_moves.on ?_ rfl | refine count_moves.on ?_ rfl

theorem execMreq_moves {a0 a1 a2} {s : State} : MovesR 0x8A00801 s (execMreq a0 a1 a2 s) := by
  unfold execMreq
  with_reducible
    repeat' first
      | exact .refl | assumption | exact .fault | refine .next ?_
      | (extract_lets +onlyGivenNames x; first | (refine .cut (x := x) ?_ ?_; (on_goal 1 => intro _; clear_value x); (on_goal 2 => subst x)) | subst x)
      | refine (batReceive_moves (m := 0x8A00801) rfl (fun _ => ?_)).step ?_ | refine batSend_moves.on ?_ rfl | refine dropMirrored_moves.on ?_ rfl
      | split | dsimp only

theorem execJnl_moves {a0 a1 a2} {s : State} : MovesR 0x8900801 s (execJnl a0 a1 a2 s) := by
  unfold execJnl
  with_reducible
    repeat' first
      | exact .refl | assumption | exact .fault | refine .next ?_ | refine (batReceive_moves (m := 0x8900801) rfl (fun _ => ?_)).step ?_
      | refine batSend_moves.on ?_ rfl | refine (forEach_moves (m := 0x8900801) (fun _ _ => ?_)).step ?_ | refine shadowEntry_moves.on ?_ rfl

theorem execJack_moves {a0 a1} {s : State} : MovesR 0x8800801 s (execJack a0 a1 s) := by
  unfold execJack
  with_reducible
    repeat' first
      | exact .refl | assumption | exact .fault | refine .next ?_
      | (extract_lets +onlyGivenNames x; first | (refine .cut (x := x) ?_ ?_; (on_goal 1 => intro _; clear_value x); (on_goal 2 => subst x)) | subst x)
      | refine (batReceive_moves (m := 0x8800801) rfl (fun _ => ?_)).step ?_ | refine onBat_moves.on ?_ rfl

theorem execKeyrec_moves {a0 a1 a2} {s : State} : MovesR 0x1FBFFB31 s (execKeyrec a0 a1 a2 s) := by
  unfold execKeyrec
  with_reducible
    repeat' first
      | exact .refl | assumption | exact .fault | refine .next ?_
      | (extract_lets +onlyGivenNames x; first | (refine .cut (x := x) ?_ ?_; (on_goal 1 => intro _; clear_value x); (on_goal 2 => subst x)) | subst x)
      | refine (batReceive_moves (m := 0x1FBFFB31) rfl (fun _ => ?_)).step ?_ | refine showKeys_moves.on ?_ rfl | refine eraseData_moves.on ?_ rfl
      | refine settle_moves.on ?_ rfl | refine batSend_moves.on ?_ rfl | fail_if_no_progress refine mk_key.on ?_ rfl | refine count_moves.on ?_ rfl
      | refine flag_moves.on ?_ rfl | split | dsimp only

theorem execNsrec_moves {a0 a1 a2} {s : State} : MovesR 0x1FBFEB31 s (execNsrec a0 a1 a2 s) := by
  unfold execNsrec
  with_reducible
    repeat' first
      | exact .refl | assumption | exact .fault | refine .next ?_
      | (extract_lets +onlyGivenNames x; first | (refine .cut (x := x) ?_ ?_; (on_goal 1 => intro _; clear_value x); (on_goal 2 => subst x)) | subst x)
      | refine (batReceive_moves (m := 0x1FBFEB31) rfl (fun _ => ?_)).step ?_ | refine onBnd_moves.on ?_ rfl | refine eraseMap_moves.on ?_ rfl
      | refine eraseLost_moves.on ?_ rfl | refine eraseCache_moves.on ?_ rfl | refine nsChanged_moves.on ?_ rfl | refine settle_moves.on ?_ rfl
      | refine batSend_moves.on ?_ rfl | refine anaUpdate_moves.on ?_ rfl | split

theorem execRack_moves {a0} {s : State} : MovesR 0x8800801 s (execRack a0 s) := by
  unfold execRack
  with_reducible
    repeat' first
      | exact .refl | assumption | exact .fault | refine .next ?_
      | (extract_lets +onlyGivenNames x; first | (refine .cut (x := x) ?_ ?_; (on_goal 1 => intro _; clear_value x); (on_goal 2 => subst x)) | subst x)
      | refine (batReceive_moves (m := 0x8800801) rfl (fun _ => ?_)).step ?_ | refine showKeys_moves.on ?_ rfl | refine onBat_moves.on ?_ rfl

theorem execLwlrec_moves {a0 a1 a2 a3 a4} {s : State} : MovesR 0x8A00801 s (execLwlrec a0 a1 a2 a3 a4 s) := by
  unfold execLwlrec
  with_reducible
    repeat' first
      | exact .refl | assumption | exact .fault | refine .next ?_
      | (extract_lets +onlyGivenNames x; first | (refine .cut (x := x) ?_ ?_; (on_goal 1 => intro _; clear_value x); (on_goal 2 => subst x)) | subst x)
      | refine (batReceive_moves (m := 0x8A00801) rfl (fun _ => ?_)).step ?_ | refine batSend_moves.on ?_ rfl | refine showLwl_moves.on ?_ rfl
      | refine (onBuf_moves ?_).on ?_ rfl | exact fun _ => rfl | split

theorem execResync_moves {a0 a1 a2} {s : State} : MovesR 0x1FBFEB31 s (execResync a0 a1 a2 s) := by
  unfold execResync
  with_reducible
    repeat' first
      | exact .refl | assumption | exact .fault | refine .next ?_ | refine (batReceive_moves (m := 0x1FBFEB31) rfl (fun _ => ?_)).step ?_
      | refine settle_moves.on ?_ rfl | refine resyncPhase_moves.on ?_ rfl

theorem modeRequestEff_moves {a0} {s : State} : Moves 0x1F9FEB31 s (modeRequestEff a0 s) := by
  unfold modeRequestEff
  with_reducible
    repeat' first
      | exact .refl | assumption
      | (extract_lets +onlyGivenNames x; first | (refine .cut (x := x) ?_ ?_; (on_goal 1 => intro _; clear_value x); (on_goal 2 => subst x)) | subst x)
      | refine complete_moves.on ?_ rfl | refine batSend_moves.on ?_ rfl | refine onBat_moves.on ?_ rfl | refine put_moves.on ?_ rfl | split
      | dsimp only

theorem execModeRequest_moves {a0} {s : State} : MovesR 0x1F9FEB39 s (execModeRequest a0 s) := by
  unfold execModeRequest
  with_reducible
    repeat' first
      | exact .refl | assumption | exact .fault | refine .next ?_ | refine (write_moves (m := 0x1F9FEB39) rfl (fun _ => ?_)).step ?_
      | refine settle_moves.on ?_ rfl | refine modeRequestEff_moves.on ?_ rfl

theorem execTransitionComplete_moves {s : State} : MovesR 0x1F9FEB31 s (execTransitionComplete s) := by
  unfold execTransitionComplete
  with_reducible
    repeat' first
      | exact .refl | assumption | exact .fault | refine .next ?_ | refine settle_moves.on ?_ rfl

theorem execFabricPaceUpdate_moves {a0} {s : State} : MovesR 0x111 s (execFabricPaceUpdate a0 s) := by
  unfold execFabricPaceUpdate
  with_reducible
    repeat' first
      | exact .refl | assumption | exact .fault | refine .next ?_
      | (extract_lets +onlyGivenNames x; first | (refine .cut (x := x) ?_ ?_; (on_goal 1 => intro _; clear_value x); (on_goal 2 => subst x)) | subst x)
      | refine put_moves.on ?_ rfl | refine sysEvent_moves.on ?_ rfl | fail_if_no_progress refine mk_glb.on ?_ rfl | split

theorem rstRefuse_moves {s : State} : Moves 0x1 s (rstRefuse s) := by
  unfold rstRefuse
  with_reducible
    repeat' first
      | exact .refl | assumption | refine put_moves.on ?_ rfl

theorem clearLane_moves {a0} {s : State} : Moves 0x16001 s (clearLane a0 s) := by
  unfold clearLane
  with_reducible
    repeat' first
      | exact .refl | assumption
      | (extract_lets +onlyGivenNames x; first | (refine .cut (x := x) ?_ ?_; (on_goal 1 => intro _; clear_value x); (on_goal 2 => subst x)) | subst x)
      | refine onLn_moves.on ?_ rfl | refine onMs_moves.on ?_ rfl | refine setReg_moves.on ?_ rfl | refine showSeq_moves.on ?_ rfl
      | refine put_moves.on ?_ rfl | fail_if_no_progress refine mk_bus.on ?_ rfl | refine dropCodewords_moves.on ?_ rfl | split | dsimp only

theorem startLaneReset_moves {a0} {s : State} : Moves 0x1C996B01 s (startLaneReset a0 s) := by
  unfold startLaneReset
  with_reducible
    repeat' first
      | exact .refl | assumption
      | (extract_lets +onlyGivenNames x; first | (refine .cut (x := x) ?_ ?_; (on_goal 1 => intro _; clear_value x); (on_goal 2 => subst x)) | subst x)
      | refine abortItems_moves.on ?_ rfl | refine abortLadder_moves.on ?_ rfl | refine clearLane_moves.on ?_ rfl | refine inhibit_moves.on ?_ rfl
      | refine put_moves.on ?_ rfl

theorem laneResetRequest_moves {a0} {s : State} : Moves 0x1C996B01 s (laneResetRequest a0 s) := by
  unfold laneResetRequest
  with_reducible
    repeat' first
      | exact .refl | assumption
      | (extract_lets +onlyGivenNames x; first | (refine .cut (x := x) ?_ ?_; (on_goal 1 => intro _; clear_value x); (on_goal 2 => subst x)) | subst x)
      | refine rstRefuse_moves.on ?_ rfl | refine startLaneReset_moves.on ?_ rfl | split

theorem cleanEff_moves {s : State} : Moves 0x11 s (cleanEff s) := by
  unfold cleanEff
  with_reducible
    repeat' first
      | exact .refl | assumption | refine rstRefuse_moves.on ?_ rfl | refine writeNote_moves.on ?_ rfl | split

theorem configResetEff_moves {a0 a1} {s : State} : Moves 0x1CB8EB11 s (configResetEff a0 a1 s) := by
  unfold configResetEff
  with_reducible
    repeat' first
      | exact .refl | assumption | refine startConfigReset_moves.on ?_ rfl | refine rstRefuse_moves.on ?_ rfl | split

theorem rstCmdEff_moves {a0 a1} {s : State} : Moves 0x1FBFEB31 s (rstCmdEff a0 a1 s) := by
  unfold rstCmdEff
  with_reducible
    repeat' first
      | exact .refl | assumption
      | (extract_lets +onlyGivenNames x; first | (refine .cut (x := x) ?_ ?_; (on_goal 1 => intro _; clear_value x); (on_goal 2 => subst x)) | subst x)
      | refine (forEach_moves (m := 0x1FBFEB31) (fun _ _ => ?_)).step ?_ | refine laneResetRequest_moves.on ?_ rfl | refine cleanEff_moves.on ?_ rfl
      | refine configResetEff_moves.on ?_ rfl | refine settle_moves.on ?_ rfl | split

theorem hwFlags_moves {a0 a1} {s : State} : Moves 0x901 s (hwFlags a0 a1 s) := by
  unfold hwFlags
  with_reducible
    repeat' first
      | exact .refl | assumption
      | (extract_lets +onlyGivenNames x; first | (refine .cut (x := x) ?_ ?_; (on_goal 1 => intro _; clear_value x); (on_goal 2 => subst x)) | subst x)
      | refine setReg_moves.on ?_ rfl | refine irq_moves.on ?_ rfl | refine raiseEvent_moves.on ?_ rfl | split

theorem hwUpdate_moves {a0 a1} {s : State} : Moves 0x901 s (hwUpdate a0 a1 s) := by
  unfold hwUpdate
  with_reducible
    repeat' first
      | exact .refl | assumption
      | (extract_lets +onlyGivenNames x; first | (refine .cut (x := x) ?_ ?_; (on_goal 1 => intro _; clear_value x); (on_goal 2 => subst x)) | subst x)
      | refine hwFlags_moves.on ?_ rfl | refine setReg_moves.on ?_ rfl | split

theorem plainWrite_moves {a0 a1 a2} {s : State} : Moves 0x901 s (plainWrite a0 a1 a2 s) := by
  unfold plainWrite
  with_reducible
    repeat' first
      | exact .refl | assumption
      | (extract_lets +onlyGivenNames x; first | (refine .cut (x := x) ?_ ?_; (on_goal 1 => intro _; clear_value x); (on_goal 2 => subst x)) | subst x)
      | refine setReg_moves.on ?_ rfl | refine hwUpdate_moves.on ?_ rfl | split

theorem glbWrite_moves {a0 a1 a2 a3} {s : State} : Moves 0x1FBFEB31 s (glbWrite a0 a1 a2 a3 s) := by
  unfold glbWrite
  with_reducible
    repeat' first
      | exact .refl | assumption
      | (extract_lets +onlyGivenNames x; first | (refine .cut (x := x) ?_ ?_; (on_goal 1 => intro _; clear_value x); (on_goal 2 => subst x)) | subst x)
      | refine settle_moves.on ?_ rfl | refine modeRequestEff_moves.on ?_ rfl | refine stickyClearEff_moves.on ?_ rfl
      | refine rstCmdEff_moves.on ?_ rfl | refine plainWrite_moves.on ?_ rfl | split

theorem trcWrite_moves {a0 a1 a2} {s : State} : Moves 0x1CB8EBD1 s (trcWrite a0 a1 a2 s) := by
  unfold trcWrite
  with_reducible
    repeat' first
      | exact .refl | assumption
      | (extract_lets +onlyGivenNames x; first | (refine .cut (x := x) ?_ ?_; (on_goal 1 => intro _; clear_value x); (on_goal 2 => subst x)) | subst x)
      | refine goEff_moves.on ?_ rfl | refine confirmEff_moves.on ?_ rfl | refine svcPush_moves.on ?_ rfl | refine plainWrite_moves.on ?_ rfl | split

theorem hifWrite_moves {a0 a1 a2 a3} {s : State} : Moves 0x901 s (hifWrite a0 a1 a2 a3 s) := by
  unfold hifWrite
  with_reducible
    repeat' first
      | exact .refl | assumption
      | (extract_lets +onlyGivenNames x; first | (refine .cut (x := x) ?_ ?_; (on_goal 1 => intro _; clear_value x); (on_goal 2 => subst x)) | subst x)
      | refine plainWrite_moves.on ?_ rfl | refine put_moves.on ?_ rfl | split

theorem seekStep_moves {s : State} : Moves 0x1 s (seekStep s) := by
  unfold seekStep
  with_reducible
    repeat' first
      | exact .refl | assumption | refine put_moves.on ?_ rfl | split

theorem rlyWrite_moves {a0 a1 a2} {s : State} : Moves 0x80901 s (rlyWrite a0 a1 a2 s) := by
  unfold rlyWrite
  with_reducible
    repeat' first
      | exact .refl | assumption
      | (extract_lets +onlyGivenNames x; first | (refine .cut (x := x) ?_ ?_; (on_goal 1 => intro _; clear_value x); (on_goal 2 => subst x)) | subst x)
      | refine seekStep_moves.on ?_ rfl | refine setQos_moves.on ?_ rfl | refine plainWrite_moves.on ?_ rfl
      | fail_if_no_progress refine mk_rly.on ?_ rfl | split

theorem bufWrite_moves {a0 a1 a2} {s : State} : Moves 0x200901 s (bufWrite a0 a1 a2 s) := by
  unfold bufWrite
  with_reducible
    repeat' first
      | exact .refl | assumption
      | (extract_lets +onlyGivenNames x; first | (refine .cut (x := x) ?_ ?_; (on_goal 1 => intro _; clear_value x); (on_goal 2 => subst x)) | subst x)
      | refine put_moves.on ?_ rfl | refine plainWrite_moves.on ?_ rfl | refine (onBuf_moves ?_).on ?_ rfl | exact fun _ => rfl | split

theorem dmcWrite_moves {a0 a1 a2 a3} {s : State} : Moves 0x200901 s (dmcWrite a0 a1 a2 a3 s) := by
  unfold dmcWrite
  with_reducible
    repeat' first
      | exact .refl | assumption
      | (extract_lets +onlyGivenNames x; first | (refine .cut (x := x) ?_ ?_; (on_goal 1 => intro _; clear_value x); (on_goal 2 => subst x)) | subst x)
      | refine plainWrite_moves.on ?_ rfl | refine clearMark_moves.on ?_ rfl | refine flipEff_moves.on ?_ rfl | refine hwUpdate_moves.on ?_ rfl
      | split

theorem sccWrite_moves {a0 a1 a2} {s : State} : Moves 0x8200901 s (sccWrite a0 a1 a2 s) := by
  unfold sccWrite
  with_reducible
    repeat' first
      | exact .refl | assumption
      | (extract_lets +onlyGivenNames x; first | (refine .cut (x := x) ?_ ?_; (on_goal 1 => intro _; clear_value x); (on_goal 2 => subst x)) | subst x)
      | refine wayDisEff_moves.on ?_ rfl | refine onCcx_moves.on ?_ rfl | refine plainWrite_moves.on ?_ rfl | refine hwUpdate_moves.on ?_ rfl | split
      | dsimp only

theorem dmaWrite_moves {a0 a1 a2} {s : State} : Moves 0x18600901 s (dmaWrite a0 a1 a2 s) := by
  unfold dmaWrite
  with_reducible
    repeat' first
      | exact .refl | assumption
      | (extract_lets +onlyGivenNames x; first | (refine .cut (x := x) ?_ ?_; (on_goal 1 => intro _; clear_value x); (on_goal 2 => subst x)) | subst x)
      | refine setReg_moves.on ?_ rfl | refine dmaStartEff_moves.on ?_ rfl | refine dmaResumeEff_moves.on ?_ rfl | refine stopChannel_moves.on ?_ rfl
      | refine plainWrite_moves.on ?_ rfl | refine dmaReject_moves.on ?_ rfl | refine disableEff_moves.on ?_ rfl | refine flagSetEff_moves.on ?_ rfl
      | refine flagClearEff_moves.on ?_ rfl | refine hwUpdate_moves.on ?_ rfl | split

theorem lnWrite_moves {a0 a1 a2 a3} {s : State} : Moves 0x1C086B01 s (lnWrite a0 a1 a2 a3 s) := by
  unfold lnWrite
  with_reducible
    repeat' first
      | exact .refl | assumption
      | (extract_lets +onlyGivenNames x; first | (refine .cut (x := x) ?_ ?_; (on_goal 1 => intro _; clear_value x); (on_goal 2 => subst x)) | subst x)
      | refine tablePortWrite_moves.on ?_ rfl | refine pbusCommandEff_moves.on ?_ rfl | refine onLn_moves.on ?_ rfl | refine put_moves.on ?_ rfl
      | refine plainWrite_moves.on ?_ rfl | refine inhibit_moves.on ?_ rfl | refine hwUpdate_moves.on ?_ rfl | refine resumeSource_moves.on ?_ rfl
      | split | dsimp only

theorem svWrite_moves {a0 a1 a2 a3} {s : State} : Moves 0x1F9FEB31 s (svWrite a0 a1 a2 a3 s) := by
  unfold svWrite
  with_reducible
    repeat' first
      | exact .refl | assumption
      | (extract_lets +onlyGivenNames x; first | (refine .cut (x := x) ?_ ?_; (on_goal 1 => intro _; clear_value x); (on_goal 2 => subst x)) | subst x)
      | refine put_moves.on ?_ rfl | refine setReg_moves.on ?_ rfl | refine (iff_moves (m := 0x1F9FEB31) (fun _ => ?_)).step ?_
      | refine settle_moves.on ?_ rfl | refine svEnable_moves.on ?_ rfl | refine svDisable_moves.on ?_ rfl | refine paceCommand_moves.on ?_ rfl
      | refine plainWrite_moves.on ?_ rfl | refine hwUpdate_moves.on ?_ rfl | split | dsimp only

theorem ldpWrite_moves {a0 a1 a2} {s : State} : Moves 0xF9FEB11 s (ldpWrite a0 a1 a2 s) := by
  unfold ldpWrite
  with_reducible
    repeat' first
      | exact .refl | assumption
      | (extract_lets +onlyGivenNames x; first | (refine .cut (x := x) ?_ ?_; (on_goal 1 => intro _; clear_value x); (on_goal 2 => subst x)) | subst x)
      | refine plainWrite_moves.on ?_ rfl | refine put_moves.on ?_ rfl | split | dsimp only

theorem spmWrite_moves {a0 a1 a2} {s : State} : Moves 0x1F9FEB31 s (spmWrite a0 a1 a2 s) := by
  unfold spmWrite
  with_reducible
    repeat' first
      | exact .refl | assumption
      | (extract_lets +onlyGivenNames x; first | (refine .cut (x := x) ?_ ?_; (on_goal 1 => intro _; clear_value x); (on_goal 2 => subst x)) | subst x)
      | refine settle_moves.on ?_ rfl | refine spinCommand_moves.on ?_ rfl | refine cadenceRequest_moves.on ?_ rfl | refine plainWrite_moves.on ?_ rfl
      | refine put_moves.on ?_ rfl | refine hwUpdate_moves.on ?_ rfl | split | dsimp only

theorem msWrite_moves {a0 a1 a2 a3} {s : State} : Moves 0x1C086B01 s (msWrite a0 a1 a2 a3 s) := by
  unfold msWrite
  with_reducible
    repeat' first
      | exact .refl | assumption
      | (extract_lets +onlyGivenNames x; first | (refine .cut (x := x) ?_ ?_; (on_goal 1 => intro _; clear_value x); (on_goal 2 => subst x)) | subst x)
      | refine setReg_moves.on ?_ rfl | refine runEff_moves.on ?_ rfl | refine runStopEff_moves.on ?_ rfl | refine resumeEff_moves.on ?_ rfl
      | refine msInt_moves.on ?_ rfl | refine plainWrite_moves.on ?_ rfl | refine hwUpdate_moves.on ?_ rfl | split

theorem bndWrite_moves {a0 a1 a2} {s : State} : Moves 0x8980901 s (bndWrite a0 a1 a2 s) := by
  unfold bndWrite
  with_reducible
    repeat' first
      | exact .refl | assumption
      | (extract_lets +onlyGivenNames x; first | (refine .cut (x := x) ?_ ?_; (on_goal 1 => intro _; clear_value x); (on_goal 2 => subst x)) | subst x)
      | refine startImage_moves.on ?_ rfl | refine bndFlushCommand_moves.on ?_ rfl | refine plainWrite_moves.on ?_ rfl
      | refine (forEach_moves (m := 0x8980901) (fun _ _ => ?_)).step ?_ | refine evalLevel_moves.on ?_ rfl | split

theorem evrWrite_moves {a0 a1 a2} {s : State} : Moves 0xB01 s (evrWrite a0 a1 a2 s) := by
  unfold evrWrite
  with_reducible
    repeat' first
      | exact .refl | assumption | refine freezeSet_moves.on ?_ rfl | refine plainWrite_moves.on ?_ rfl | refine firmwareRecordEff_moves.on ?_ rfl
      | refine standingsRequestEff_moves.on ?_ rfl | split

theorem tlyWriteReg_moves {a0 a1 a2} {s : State} : Moves 0xB01 s (tlyWriteReg a0 a1 a2 s) := by
  unfold tlyWriteReg
  with_reducible
    repeat' first
      | exact .refl | assumption | refine tallyIncEff_moves.on ?_ rfl | refine tallyHistEff_moves.on ?_ rfl | refine tlyCommitAll_moves.on ?_ rfl
      | refine plainWrite_moves.on ?_ rfl | split

theorem batWrite_moves {a0 a1 a2} {s : State} : Moves 0x1FBFEB31 s (batWrite a0 a1 a2 s) := by
  unfold batWrite
  with_reducible
    repeat' first
      | exact .refl | assumption
      | (extract_lets +onlyGivenNames x; first | (refine .cut (x := x) ?_ ?_; (on_goal 1 => intro _; clear_value x); (on_goal 2 => subst x)) | subst x)
      | refine plainWrite_moves.on ?_ rfl | refine put_moves.on ?_ rfl | refine loseLink_moves.on ?_ rfl | refine pairSettle_moves.on ?_ rfl
      | refine ownCtlEff_moves.on ?_ rfl | refine hwUpdate_moves.on ?_ rfl | split

theorem mocShow_moves {s : State} : Moves 0x1 s (mocShow s) := by
  unfold mocShow
  with_reducible
    repeat' first
      | exact .refl | assumption
      | (extract_lets +onlyGivenNames x; first | (refine .cut (x := x) ?_ ?_; (on_goal 1 => intro _; clear_value x); (on_goal 2 => subst x)) | subst x)
      | refine put_moves.on ?_ rfl | split

theorem mocWrite_moves {a0 a1 a2} {s : State} : Moves 0x8000D01 s (mocWrite a0 a1 a2 s) := by
  unfold mocWrite
  with_reducible
    repeat' first
      | exact .refl | assumption
      | (extract_lets +onlyGivenNames x; first | (refine .cut (x := x) ?_ ?_; (on_goal 1 => intro _; clear_value x); (on_goal 2 => subst x)) | subst x)
      | refine enumCommandEff_moves.on ?_ rfl | refine mocShow_moves.on ?_ rfl | refine plainWrite_moves.on ?_ rfl
      | fail_if_no_progress refine mk_moc.on ?_ rfl | split

theorem performWrite_moves {a0 a1 a2 a3} {s : State} : Moves 0x1FFFEFF1 s (performWrite a0 a1 a2 a3 s) := by
  unfold performWrite
  with_reducible
    repeat' first
      | exact .refl | assumption
      | (extract_lets +onlyGivenNames x; first | (refine .cut (x := x) ?_ ?_; (on_goal 1 => intro _; clear_value x); (on_goal 2 => subst x)) | subst x)
      | refine plainWrite_moves.on ?_ rfl | refine glbWrite_moves.on ?_ rfl | refine trcWrite_moves.on ?_ rfl | refine hifWrite_moves.on ?_ rfl
      | refine rlyWrite_moves.on ?_ rfl | refine bufWrite_moves.on ?_ rfl | refine dmcWrite_moves.on ?_ rfl | refine sccWrite_moves.on ?_ rfl
      | refine dmaWrite_moves.on ?_ rfl | refine lnWrite_moves.on ?_ rfl | refine svWrite_moves.on ?_ rfl | refine spmWrite_moves.on ?_ rfl
      | refine msWrite_moves.on ?_ rfl | refine bndWrite_moves.on ?_ rfl | refine settle_moves.on ?_ rfl | refine evrWrite_moves.on ?_ rfl
      | refine tlyWriteReg_moves.on ?_ rfl | refine batWrite_moves.on ?_ rfl | refine mocWrite_moves.on ?_ rfl | refine ldpWrite_moves.on ?_ rfl
      | split

theorem commitPair_moves {a0 a1} {s : State} : Moves 0x1F9FEB31 s (commitPair a0 a1 s) := by
  unfold commitPair
  with_reducible
    repeat' first
      | exact .refl | assumption
      | (extract_lets +onlyGivenNames x; first | (refine .cut (x := x) ?_ ?_; (on_goal 1 => intro _; clear_value x); (on_goal 2 => subst x)) | subst x)
      | refine plainWrite_moves.on ?_ rfl | refine mailboxWrite_moves.on ?_ rfl | refine showTimer_moves.on ?_ rfl | refine dmaReject_moves.on ?_ rfl
      | refine settle_moves.on ?_ rfl | split | dsimp only

theorem registerWriteNow_moves {a0 a1 a2 a3} {s : State} : Moves 0x1FFFEFF5 s (registerWriteNow a0 a1 a2 a3 s) := by
  unfold registerWriteNow
  with_reducible
    repeat' first
      | exact .refl | assumption
      | (extract_lets +onlyGivenNames x; first | (refine .cut (x := x) ?_ ?_; (on_goal 1 => intro _; clear_value x); (on_goal 2 => subst x)) | subst x)
      | refine commitPair_moves.on ?_ rfl | refine performWrite_moves.on ?_ rfl | fail_if_no_progress refine mk_hold.on ?_ rfl
      | refine hwUpdate_moves.on ?_ rfl | split

theorem addressFault_moves {a0 a1} {s : State} : Moves 0x8 s (addressFault a0 a1 s) := by
  unfold addressFault
  with_reducible
    repeat' first
      | exact .refl | assumption
      | (extract_lets +onlyGivenNames x; first | (refine .cut (x := x) ?_ ?_; (on_goal 1 => intro _; clear_value x); (on_goal 2 => subst x)) | subst x)
      | refine answer_moves.on ?_ rfl | split

theorem busWrite_moves {a0 a1 a2 a3 a4} {s : State} : Moves 0x1FFFEFFD s (busWrite a0 a1 a2 a3 a4 s) := by
  unfold busWrite
  with_reducible
    repeat' first
      | exact .refl | assumption | refine addressFault_moves.on ?_ rfl | refine (write_moves (m := 0x1FFFEFFD) rfl (fun _ => ?_)).step ?_
      | refine registerWriteNow_moves.on ?_ rfl | split

theorem storeStep_moves {a0} {s : State} : Moves 0x1 s (storeStep a0 s) := by
  unfold storeStep
  with_reducible
    repeat' first
      | exact .refl | assumption
      | (extract_lets +onlyGivenNames x; first | (refine .cut (x := x) ?_ ?_; (on_goal 1 => intro _; clear_value x); (on_goal 2 => subst x)) | subst x)
      | refine put_moves.on ?_ rfl | split

theorem coefStep_moves {a0} {s : State} : Moves 0x1 s (coefStep a0 s) := by
  unfold coefStep
  with_reducible
    repeat' first
      | exact .refl | assumption | refine put_moves.on ?_ rfl | split

theorem gpioLevels_moves {s : State} : Moves 0x10000000 s (gpioLevels s).2 := by
  unfold gpioLevels
  with_reducible
    repeat' first
      | exact .refl | assumption
      | (extract_lets +onlyGivenNames x; first | (refine .cut (x := x) ?_ ?_; (on_goal 1 => intro _; clear_value x); (on_goal 2 => subst x)) | subst x)
      | refine free_moves.on ?_ rfl | refine (free_moves.get (by assumption)).on ?_ rfl | split | dsimp only

theorem performRead_moves {a0 a1} {s : State} : Moves 0x18200C81 s (performRead a0 a1 s).2 := by
  unfold performRead
  with_reducible
    repeat' first
      | exact .refl | assumption
      | (extract_lets +onlyGivenNames x; first | (refine .cut (x := x) ?_ ?_; (on_goal 1 => intro _; clear_value x); (on_goal 2 => subst x)) | subst x)
      | refine setReg_moves.on ?_ rfl | refine svcPop_moves.on ?_ rfl | refine (svcPop_moves.get (by assumption)).on ?_ rfl
      | refine mocPop_moves.on ?_ rfl | refine (mocPop_moves.get (by assumption)).on ?_ rfl | refine evrRdAdvance_moves.on ?_ rfl
      | refine evrStdAdvance_moves.on ?_ rfl | refine storeStep_moves.on ?_ rfl | refine coefStep_moves.on ?_ rfl | refine tableRead_moves.on ?_ rfl
      | refine (tableRead_moves.get (by assumption)).on ?_ rfl | refine tlyReadLo_moves.on ?_ rfl
      | refine (tlyReadLo_moves.get (by assumption)).on ?_ rfl | refine seekStep_moves.on ?_ rfl | refine (onBuf_moves ?_).on ?_ rfl
      | exact fun _ => rfl | refine claimEff_moves.on ?_ rfl | refine (claimEff_moves.get (by assumption)).on ?_ rfl
      | refine gpioLevels_moves.on ?_ rfl | refine (gpioLevels_moves.get (by assumption)).on ?_ rfl | refine free_moves.on ?_ rfl
      | refine (free_moves.get (by assumption)).on ?_ rfl | split | dsimp only | dsimp only

theorem registerReadNow_moves {a0 a1} {s : State} : Moves 0x18200C83 s (registerReadNow a0 a1 s).2 := by
  unfold registerReadNow
  with_reducible
    repeat' first
      | exact .refl | assumption
      | (extract_lets +onlyGivenNames x; first | (refine .cut (x := x) ?_ ?_; (on_goal 1 => intro _; clear_value x); (on_goal 2 => subst x)) | subst x)
      | refine performRead_moves.on ?_ rfl | refine (performRead_moves.get (by assumption)).on ?_ rfl | fail_if_no_progress refine mk_shadow.on ?_ rfl
      | split | dsimp only

theorem busRead_moves {a0 a1 a2 a3} {s : State} : Moves 0x18200C9B s (busRead a0 a1 a2 a3 s) := by
  unfold busRead
  with_reducible
    repeat' first
      | exact .refl | assumption
      | (extract_lets +onlyGivenNames x; first | (refine .cut (x := x) ?_ ?_; (on_goal 1 => intro _; clear_value x); (on_goal 2 => subst x)) | subst x)
      | refine addressFault_moves.on ?_ rfl | refine hold__moves.on ?_ rfl | refine registerReadNow_moves.on ?_ rfl
      | refine (registerReadNow_moves.get (by assumption)).on ?_ rfl | refine answer_moves.on ?_ rfl | split

theorem execRegisterWrite_moves {a0 a1 a2 a3 a4} {s : State} : MovesR 0x1FFFEFFD s (execRegisterWrite a0 a1 a2 a3 a4 s) := by
  unfold execRegisterWrite
  with_reducible
    repeat' first
      | exact .refl | assumption | exact .fault | refine .next ?_ | refine busWrite_moves.on ?_ rfl

theorem execPairLoRead_moves {a0 a1} {s : State} : MovesR 0x18200C9B s (execPairLoRead a0 a1 s) := by
  unfold execPairLoRead
  with_reducible
    repeat' first
      | exact .refl | assumption | exact .fault | refine .next ?_ | refine busRead_moves.on ?_ rfl

theorem execPairHiWrite_moves {a0 a1 a2} {s : State} : MovesR 0x1FFFEFFD s (execPairHiWrite a0 a1 a2 s) := by
  unfold execPairHiWrite
  with_reducible
    repeat' first
      | exact .refl | assumption | exact .fault | refine .next ?_ | refine busWrite_moves.on ?_ rfl

theorem execPairLoWrite_moves {a0 a1 a2} {s : State} : MovesR 0x1FFFEFFD s (execPairLoWrite a0 a1 a2 s) := by
  unfold execPairLoWrite
  with_reducible
    repeat' first
      | exact .refl | assumption | exact .fault | refine .next ?_ | refine busWrite_moves.on ?_ rfl

theorem execCounterReadClear_moves {a0 a1 a2} {s : State} : MovesR 0x18200C9B s (execCounterReadClear a0 a1 a2 s) := by
  unfold execCounterReadClear
  with_reducible
    repeat' first
      | exact .refl | assumption | exact .fault | refine .next ?_ | refine busRead_moves.on ?_ rfl

theorem execReceiveWordPop_moves {a0} {s : State} : MovesR 0x18200C9B s (execReceiveWordPop a0 s) := by
  unfold execReceiveWordPop
  with_reducible
    repeat' first
      | exact .refl | assumption | exact .fault | refine .next ?_
      | (extract_lets +onlyGivenNames x; first | (refine .cut (x := x) ?_ ?_; (on_goal 1 => intro _; clear_value x); (on_goal 2 => subst x)) | subst x)
      | refine busRead_moves.on ?_ rfl | split

theorem execIndexPortRead_moves {a0} {s : State} : MovesR 0x18200C9B s (execIndexPortRead a0 s) := by
  unfold execIndexPortRead
  with_reducible
    repeat' first
      | exact .refl | assumption | exact .fault | refine .next ?_
      | (extract_lets +onlyGivenNames x; first | (refine .cut (x := x) ?_ ?_; (on_goal 1 => intro _; clear_value x); (on_goal 2 => subst x)) | subst x)
      | refine busRead_moves.on ?_ rfl | split

theorem serviceRead_moves {a0 a1} {s : State} : Moves 0x18200C8B s (serviceRead a0 a1 s) := by
  unfold serviceRead
  with_reducible
    repeat' first
      | exact .refl | assumption
      | (extract_lets +onlyGivenNames x; first | (refine .cut (x := x) ?_ ?_; (on_goal 1 => intro _; clear_value x); (on_goal 2 => subst x)) | subst x)
      | refine registerReadNow_moves.on ?_ rfl | refine (registerReadNow_moves.get (by assumption)).on ?_ rfl | refine reply_moves.on ?_ rfl
      | refine answer_moves.on ?_ rfl | split

theorem serviceWrite_moves {a0 a1 a2} {s : State} : Moves 0x1FFFEFFD s (serviceWrite a0 a1 a2 s) := by
  unfold serviceWrite
  with_reducible
    repeat' first
      | exact .refl | assumption | refine reply_moves.on ?_ rfl | refine answer_moves.on ?_ rfl | refine registerWriteNow_moves.on ?_ rfl

theorem execRegRead_moves {a0 a1} {s : State} : MovesR 0x18200C9B s (execRegRead a0 a1 s) := by
  unfold execRegRead
  with_reducible
    repeat' first
      | exact .refl | assumption | exact .fault | refine .next ?_
      | (extract_lets +onlyGivenNames x; first | (refine .cut (x := x) ?_ ?_; (on_goal 1 => intro _; clear_value x); (on_goal 2 => subst x)) | subst x)
      | refine (cuhar_moves (m := 0x18200C9B) rfl (fun _ => ?_)).step ?_ | refine reply_moves.on ?_ rfl | refine addressFault_moves.on ?_ rfl
      | refine hold__moves.on ?_ rfl | refine serviceRead_moves.on ?_ rfl | split

theorem execRegWrite_moves {a0 a1 a2} {s : State} : MovesR 0x1FFFEFFD s (execRegWrite a0 a1 a2 s) := by
  unfold execRegWrite
  with_reducible
    repeat' first
      | exact .refl | assumption | exact .fault | refine .next ?_
      | (extract_lets +onlyGivenNames x; first | (refine .cut (x := x) ?_ ?_; (on_goal 1 => intro _; clear_value x); (on_goal 2 => subst x)) | subst x)
      | refine (cuhar_moves (m := 0x1FFFEFFD) rfl (fun _ => ?_)).step ?_ | refine reply_moves.on ?_ rfl | refine addressFault_moves.on ?_ rfl
      | refine answer_moves.on ?_ rfl | refine flag_moves.on ?_ rfl | refine hold__moves.on ?_ rfl | refine serviceWrite_moves.on ?_ rfl | split

theorem overReset_moves {s : State} : Moves 0x1FFFFFFF s (overReset s) where
  parts := fun i h => by
    unfold samePart; split <;> first | trivial | exact absurd h (by decide)
  regs := fun _ => (by decide : Registers.wf State.reset.regs = true)
  mem := fun _ => (by decide : Memory.wf [] = true)
  sent := List.prefix_refl _
  free := Nat.le_refl _

/-- A register map put in place of another. -/
theorem mk_regs {s : State} {x : SMap Word} (h : Registers.wf s.regs = true → Registers.wf x = true) : Moves 0x1 s { s with regs := x } where
  parts := fun i h => by
    unfold samePart; split <;> trivial
  regs := h
  mem := id
  sent := List.prefix_refl _
  free := Nat.le_refl _

theorem porAssert_moves {a0} {s : State} : Moves 0x1FFFFFFF s (porAssert a0 s) := by
  unfold porAssert
  refine put_moves.on (mk_glb.on ((mk_regs (x := []) (fun _ => by decide)).on overReset_moves rfl) rfl) rfl

theorem configClears_moves {s : State} : Moves 0x1FFFFFFF s (configClears s) := by
  unfold configClears
  dsimp only
  refine put_moves.on (put_moves.on (put_moves.on ?_ rfl) rfl) rfl
  exact {
    parts := fun i h => by
      unfold samePart; split <;> first | trivial | exact absurd h (by decide)
    regs := fun h => Registers.wf_filter _ h
    mem := fun _ => (by decide : Memory.wf [] = true)
    sent := List.prefix_refl _
    free := Nat.le_refl _ }

theorem lwlRestore_moves {s : State} : Moves 0x901 s (lwlRestore s) := by
  unfold lwlRestore
  with_reducible
    repeat' first
      | exact .refl | assumption | refine showLwl_moves.on ?_ rfl | refine flag_moves.on ?_ rfl | split

theorem noteRelease_moves {a0} {s : State} : Moves 0xB11 s (noteRelease a0 s) := by
  unfold noteRelease
  with_reducible
    repeat' first
      | exact .refl | assumption
      | (extract_lets +onlyGivenNames x; first | (refine .cut (x := x) ?_ ?_; (on_goal 1 => intro _; clear_value x); (on_goal 2 => subst x)) | subst x)
      | refine put_moves.on ?_ rfl | refine flag_moves.on ?_ rfl | refine tally_moves.on ?_ rfl | refine writeNote_moves.on ?_ rfl | split

theorem upkeepRestore_moves {a0} {s : State} : Moves 0x100000 s (upkeepRestore a0 s) := by
  unfold upkeepRestore
  with_reducible
    repeat' first
      | exact .refl | assumption | refine onBnd_moves.on ?_ rfl | split | dsimp only

theorem execPowerOnReset_moves {a0} {s : State} : MovesR 0x1FFFFFFF s (execPowerOnReset a0 s) := by
  unfold execPowerOnReset
  with_reducible
    repeat' first
      | exact .refl | assumption | exact .fault | refine .next ?_
      | (extract_lets +onlyGivenNames x; first | (refine .cut (x := x) ?_ ?_; (on_goal 1 => intro _; clear_value x); (on_goal 2 => subst x)) | subst x)
      | refine porAssert_moves.on ?_ rfl | split

theorem execPorRelease_moves {a0 a1 a2 a3} {s : State} : MovesR 0x100B11 s (execPorRelease a0 a1 a2 a3 s) := by
  unfold execPorRelease
  with_reducible
    repeat' first
      | exact .refl | assumption | exact .fault | refine .next ?_
      | (extract_lets +onlyGivenNames x; first | (refine .cut (x := x) ?_ ?_; (on_goal 1 => intro _; clear_value x); (on_goal 2 => subst x)) | subst x)
      | refine putB_moves.on ?_ rfl | refine recorderRestore_moves.on ?_ rfl | refine lwlRestore_moves.on ?_ rfl | refine noteRelease_moves.on ?_ rfl
      | fail_if_no_progress refine mk_glb.on ?_ rfl | refine upkeepRestore_moves.on ?_ rfl | split

theorem execConfigReset_moves {a0 a1} {s : State} : MovesR 0x1FBFEB39 s (execConfigReset a0 a1 s) := by
  unfold execConfigReset
  with_reducible
    repeat' first
      | exact .refl | assumption | exact .fault | refine .next ?_ | refine (write_moves (m := 0x1FBFEB39) rfl (fun _ => ?_)).step ?_
      | refine rstCmdEff_moves.on ?_ rfl

theorem execConfigResetRelease_moves {a0 a1} {s : State} : MovesR 0x1FFFFFFF s (execConfigResetRelease a0 a1 s) := by
  unfold execConfigResetRelease
  with_reducible
    repeat' first
      | exact .refl | assumption | exact .fault | refine .next ?_
      | (extract_lets +onlyGivenNames x; first | (refine .cut (x := x) ?_ ?_; (on_goal 1 => intro _; clear_value x); (on_goal 2 => subst x)) | subst x)
      | refine configClears_moves.on ?_ rfl | refine writeNote_moves.on ?_ rfl | refine recorderRestore_moves.on ?_ rfl
      | refine lwlRestore_moves.on ?_ rfl | refine noteRelease_moves.on ?_ rfl | refine upkeepRestore_moves.on ?_ rfl | split

theorem execClean_moves {a0} {s : State} : MovesR 0x1FBFEB39 s (execClean a0 s) := by
  unfold execClean
  with_reducible
    repeat' first
      | exact .refl | assumption | exact .fault | refine .next ?_ | refine (write_moves (m := 0x1FBFEB39) rfl (fun _ => ?_)).step ?_
      | refine rstCmdEff_moves.on ?_ rfl

theorem execPowerFail_moves {a0 a1} {s : State} : MovesR 0x1F9FEB31 s (execPowerFail a0 a1 s) := by
  unfold execPowerFail
  with_reducible
    repeat' first
      | exact .refl | assumption | exact .fault | refine .next ?_ | refine powerFail_moves.on ?_ rfl | split

theorem execBrownOut_moves {s : State} : MovesR 0x1FFFFFFF s (execBrownOut s) := by
  unfold execBrownOut
  with_reducible
    repeat' first
      | exact .refl | assumption | exact .fault | refine .next ?_ | refine porAssert_moves.on ?_ rfl | split

theorem execLaneReset_moves {a0} {s : State} : MovesR 0x1FBFEB39 s (execLaneReset a0 s) := by
  unfold execLaneReset
  with_reducible
    repeat' first
      | exact .refl | assumption | exact .fault | refine .next ?_ | refine (write_moves (m := 0x1FBFEB39) rfl (fun _ => ?_)).step ?_
      | refine rstCmdEff_moves.on ?_ rfl

theorem performWaiting_moves {a0} {s : State} : Moves 0x1FFFEFFF s (performWaiting a0 s) := by
  unfold performWaiting
  with_reducible
    repeat' first
      | exact .refl | assumption
      | (extract_lets +onlyGivenNames x; first | (refine .cut (x := x) ?_ ?_; (on_goal 1 => intro _; clear_value x); (on_goal 2 => subst x)) | subst x)
      | refine serviceWrite_moves.on ?_ rfl | refine answer_moves.on ?_ rfl | refine registerWriteNow_moves.on ?_ rfl
      | refine serviceRead_moves.on ?_ rfl | refine registerReadNow_moves.on ?_ rfl | refine (registerReadNow_moves.get (by assumption)).on ?_ rfl
      | split

theorem execLaneResetComplete_moves {a0} {s : State} : MovesR 0x1FFFEFFF s (execLaneResetComplete a0 s) := by
  unfold execLaneResetComplete
  with_reducible
    repeat' first
      | exact .refl | assumption | exact .fault | refine .next ?_
      | (extract_lets +onlyGivenNames x; first | (refine .cut (x := x) ?_ ?_; (on_goal 1 => intro _; clear_value x); (on_goal 2 => subst x)) | subst x)
      | refine put_moves.on ?_ rfl | refine (forEach_moves (m := 0x1FFFEFFF) (fun _ _ => ?_)).step ?_ | refine performWaiting_moves.on ?_ rfl
      | fail_if_no_progress refine mk_glb.on ?_ rfl | split

theorem execUnitSelfTestDone_moves {a0 a1} {s : State} : MovesR 0x1FBFEB31 s (execUnitSelfTestDone a0 a1 s) := by
  unfold execUnitSelfTestDone
  with_reducible
    repeat' first
      | exact .refl | assumption | exact .fault | refine .next ?_
      | (extract_lets +onlyGivenNames x; first | (refine .cut (x := x) ?_ ?_; (on_goal 1 => intro _; clear_value x); (on_goal 2 => subst x)) | subst x)
      | refine settle_moves.on ?_ rfl | refine setReg_moves.on ?_ rfl | refine loseUnit1_moves.on ?_ rfl | refine levelTokens_moves.on ?_ rfl
      | refine setEngine_moves.on ?_ rfl | refine anaUpdate_moves.on ?_ rfl | refine showPwr_moves.on ?_ rfl | refine loseUnit0_moves.on ?_ rfl
      | refine free_moves.on ?_ rfl | refine (free_moves.get (by assumption)).on ?_ rfl | split

theorem engineGone_moves {a0} {s : State} : Moves 0x12B01 s (engineGone a0 s) := by
  unfold engineGone
  with_reducible
    repeat' first
      | exact .refl | assumption
      | (extract_lets +onlyGivenNames x; first | (refine .cut (x := x) ?_ ?_; (on_goal 1 => intro _; clear_value x); (on_goal 2 => subst x)) | subst x)
      | refine setEngine_moves.on ?_ rfl | refine (forEach_moves (m := 0x12B01) (fun _ _ => ?_)).step ?_ | refine requestEngine_moves.on ?_ rfl
      | refine spoilAttempt_moves.on ?_ rfl | refine tally_moves.on ?_ rfl | refine levelTokens_moves.on ?_ rfl | split

theorem unit0Fails_moves {a0} {s : State} : Moves 0x1FFFEF31 s (unit0Fails a0 s) := by
  unfold unit0Fails
  with_reducible
    repeat' first
      | exact .refl | assumption
      | (extract_lets +onlyGivenNames x; first | (refine .cut (x := x) ?_ ?_; (on_goal 1 => intro _; clear_value x); (on_goal 2 => subst x)) | subst x)
      | refine loseHart_moves.on ?_ rfl | refine dmc1Gone_moves.on ?_ rfl | refine loseUnit0_moves.on ?_ rfl | refine linkGone_moves.on ?_ rfl
      | refine stopAll_moves.on ?_ rfl | refine loseLink_moves.on ?_ rfl | refine engineGone_moves.on ?_ rfl | refine put_moves.on ?_ rfl
      | fail_if_no_progress refine mk_moc.on ?_ rfl | split

theorem unit1Fails_moves {a0 a1} {s : State} : Moves 0x1F9FEB31 s (unit1Fails a0 a1 s) := by
  unfold unit1Fails
  with_reducible
    repeat' first
      | exact .refl | assumption
      | (extract_lets +onlyGivenNames x; first | (refine .cut (x := x) ?_ ?_; (on_goal 1 => intro _; clear_value x); (on_goal 2 => subst x)) | subst x)
      | refine loseUnit1_moves.on ?_ rfl | refine flag_moves.on ?_ rfl | refine settle_moves.on ?_ rfl | refine spinLost_moves.on ?_ rfl
      | refine put_moves.on ?_ rfl | refine (forEach_moves (m := 0x1F9FEB31) (fun _ _ => ?_)).step ?_ | refine svFault_moves.on ?_ rfl
      | refine servoFault_moves.on ?_ rfl | split

theorem execUnitFailure_moves {a0} {s : State} : MovesR 0x1FFFEF31 s (execUnitFailure a0 s) := by
  unfold execUnitFailure
  with_reducible
    repeat' first
      | exact .refl | assumption | exact .fault | refine .next ?_
      | (extract_lets +onlyGivenNames x; first | (refine .cut (x := x) ?_ ?_; (on_goal 1 => intro _; clear_value x); (on_goal 2 => subst x)) | subst x)
      | refine unit1Fails_moves.on ?_ rfl | refine unit0Fails_moves.on ?_ rfl | split

theorem loadFail_moves {a0} {s : State} : Moves 0x1F9FEB31 s (loadFail a0 s) := by
  unfold loadFail
  with_reducible
    repeat' first
      | exact .refl | assumption
      | (extract_lets +onlyGivenNames x; first | (refine .cut (x := x) ?_ ?_; (on_goal 1 => intro _; clear_value x); (on_goal 2 => subst x)) | subst x)
      | refine put_moves.on ?_ rfl | refine irq_moves.on ?_ rfl | refine settle_moves.on ?_ rfl | refine cond_moves.on ?_ rfl
      | fail_if_no_progress refine mk_cfg.on ?_ rfl

theorem loadEntry_moves {a0 a1 a2 a3 a4 a5 a6} {s : State} : Moves 0x2000 s (loadEntry a0 a1 a2 a3 a4 a5 a6 s) := by
  unfold loadEntry
  with_reducible
    repeat' first
      | exact .refl | assumption | refine putEntry_moves.on ?_ rfl

theorem applyPreset_moves {a0 a1 a2} {s : State} : Moves 0x2000 s (applyPreset a0 a1 a2 s) := by
  unfold applyPreset
  with_reducible
    repeat' first
      | exact .refl | assumption
      | (extract_lets +onlyGivenNames x; first | (refine .cut (x := x) ?_ ?_; (on_goal 1 => intro _; clear_value x); (on_goal 2 => subst x)) | subst x)
      | refine loadEntry_moves.on ?_ rfl | refine (forEach_moves (m := 0x2000) (fun _ _ => ?_)).step ?_
      | refine (write_moves (m := 0x2000) rfl (fun _ => ?_)).step ?_ | split

theorem applyReaders_moves {a0 a1} {s : State} : Moves 0x2000 s (applyReaders a0 a1 s) := by
  unfold applyReaders
  with_reducible
    repeat' first
      | exact .refl | assumption
      | (extract_lets +onlyGivenNames x; first | (refine .cut (x := x) ?_ ?_; (on_goal 1 => intro _; clear_value x); (on_goal 2 => subst x)) | subst x)
      | refine (forEach_moves (m := 0x2000) (fun _ _ => ?_)).step ?_ | refine loadEntry_moves.on ?_ rfl

theorem applyStore_moves {a0 a1 a2} {s : State} : Moves 0x4001 s (applyStore a0 a1 a2 s) := by
  unfold applyStore
  with_reducible
    repeat' first
      | exact .refl | assumption
      | (extract_lets +onlyGivenNames x; first | (refine .cut (x := x) ?_ ?_; (on_goal 1 => intro _; clear_value x); (on_goal 2 => subst x)) | subst x)
      | refine onMs_moves.on ?_ rfl | refine setReg_moves.on ?_ rfl | refine put_moves.on ?_ rfl

theorem applyServo_moves {a0 a1} {s : State} : Moves 0x1 s (applyServo a0 a1 s) := by
  unfold applyServo
  with_reducible
    repeat' first
      | exact .refl | assumption
      | (extract_lets +onlyGivenNames x; first | (refine .cut (x := x) ?_ ?_; (on_goal 1 => intro _; clear_value x); (on_goal 2 => subst x)) | subst x)
      | refine put_moves.on ?_ rfl | dsimp only

theorem laneEnables_moves {a0 a1} {s : State} : Moves 0x1 s (laneEnables a0 a1 s) := by
  unfold laneEnables
  with_reducible
    repeat' first
      | exact .refl | assumption | refine put_moves.on ?_ rfl

theorem applySection_moves {a0 a1} {s : State} : Moves 0x46001 s (applySection a0 a1 s) := by
  unfold applySection
  with_reducible
    repeat' first
      | exact .refl | assumption
      | (extract_lets +onlyGivenNames x; first | (refine .cut (x := x) ?_ ?_; (on_goal 1 => intro _; clear_value x); (on_goal 2 => subst x)) | subst x)
      | refine setReg_moves.on ?_ rfl | refine (forEach_moves (m := 0x46001) (fun _ _ => ?_)).step ?_ | refine put_moves.on ?_ rfl
      | refine applyReaders_moves.on ?_ rfl | refine applyPreset_moves.on ?_ rfl | refine applyStore_moves.on ?_ rfl | refine setPair_moves.on ?_ rfl
      | refine applyServo_moves.on ?_ rfl | refine onSpm_moves.on ?_ rfl | refine laneEnables_moves.on ?_ rfl | split | dsimp only

theorem applyImage_moves {a0} {s : State} : Moves 0x46021 s (applyImage a0 s) := by
  unfold applyImage
  with_reducible
    repeat' first
      | exact .refl | assumption
      | (extract_lets +onlyGivenNames x; first | (refine .cut (x := x) ?_ ?_; (on_goal 1 => intro _; clear_value x); (on_goal 2 => subst x)) | subst x)
      | refine (forEach_moves (m := 0x46021) (fun _ _ => ?_)).step ?_ | refine applySection_moves.on ?_ rfl
      | fail_if_no_progress refine mk_cfg.on ?_ rfl

theorem loadDone_moves {a0} {s : State} : Moves 0x1 s (loadDone a0 s) := by
  unfold loadDone
  with_reducible
    repeat' first
      | exact .refl | assumption
      | (extract_lets +onlyGivenNames x; first | (refine .cut (x := x) ?_ ?_; (on_goal 1 => intro _; clear_value x); (on_goal 2 => subst x)) | subst x)
      | refine put_moves.on ?_ rfl | refine setPair_moves.on ?_ rfl | refine setReg_moves.on ?_ rfl

theorem applyPresets_moves {a0} {s : State} : Moves 0x1FFFEFF5 s (applyPresets a0 s) := by
  unfold applyPresets
  with_reducible
    repeat' first
      | exact .refl | assumption
      | (extract_lets +onlyGivenNames x; first | (refine .cut (x := x) ?_ ?_; (on_goal 1 => intro _; clear_value x); (on_goal 2 => subst x)) | subst x)
      | refine (forEach_moves (m := 0x1FFFEFF5) (fun _ _ => ?_)).step ?_ | refine registerWriteNow_moves.on ?_ rfl | split

theorem execImageLoadStart_moves {s : State} : MovesR 0x1F9FEB31 s (execImageLoadStart s) := by
  unfold execImageLoadStart
  with_reducible
    repeat' first
      | exact .refl | assumption | exact .fault | refine .next ?_
      | (extract_lets +onlyGivenNames x; first | (refine .cut (x := x) ?_ ?_; (on_goal 1 => intro _; clear_value x); (on_goal 2 => subst x)) | subst x)
      | refine put_moves.on ?_ rfl | refine loadFail_moves.on ?_ rfl | fail_if_no_progress refine mk_cfg.on ?_ rfl | split

theorem execImageReadDone_moves {a0} {s : State} : MovesR 0x1F9FEB31 s (execImageReadDone a0 s) := by
  unfold execImageReadDone
  with_reducible
    repeat' first
      | exact .refl | assumption | exact .fault | refine .next ?_
      | (extract_lets +onlyGivenNames x; first | (refine .cut (x := x) ?_ ?_; (on_goal 1 => intro _; clear_value x); (on_goal 2 => subst x)) | subst x)
      | refine loadFail_moves.on ?_ rfl | refine put_moves.on ?_ rfl | split | dsimp only

theorem judgeImage_moves {a0 a1} {s : State} : Moves 0x1FFFEFF5 s (judgeImage a0 a1 s) := by
  unfold judgeImage
  with_reducible
    repeat' first
      | exact .refl | assumption
      | (extract_lets +onlyGivenNames x; first | (refine .cut (x := x) ?_ ?_; (on_goal 1 => intro _; clear_value x); (on_goal 2 => subst x)) | subst x)
      | refine applyImage_moves.on ?_ rfl | refine applyPresets_moves.on ?_ rfl | refine flag_moves.on ?_ rfl | refine irq_moves.on ?_ rfl
      | refine loadDone_moves.on ?_ rfl | refine loadFail_moves.on ?_ rfl | refine put_moves.on ?_ rfl | refine settle_moves.on ?_ rfl
      | fail_if_no_progress refine mk_cfg.on ?_ rfl | split | dsimp only

theorem execSignatureVerified_moves {a0} {s : State} : MovesR 0x1FFFEFF5 s (execSignatureVerified a0 s) := by
  unfold execSignatureVerified
  with_reducible
    repeat' first
      | exact .refl | assumption | exact .fault | refine .next ?_
      | (extract_lets +onlyGivenNames x; first | (refine .cut (x := x) ?_ ?_; (on_goal 1 => intro _; clear_value x); (on_goal 2 => subst x)) | subst x)
      | fail_if_no_progress refine mk_cfg.on ?_ rfl | refine judgeImage_moves.on ?_ rfl | split

theorem channelPresent_moves {a0} {s : State} : Moves 0x1F9FEB31 s (channelPresent a0 s) := by
  unfold channelPresent
  with_reducible
    repeat' first
      | exact .refl | assumption
      | (extract_lets +onlyGivenNames x; first | (refine .cut (x := x) ?_ ?_; (on_goal 1 => intro _; clear_value x); (on_goal 2 => subst x)) | subst x)
      | refine setReg_moves.on ?_ rfl | refine put_moves.on ?_ rfl | refine settle_moves.on ?_ rfl | refine showPages_moves.on ?_ rfl | split

theorem selfTest_moves {a0 a1} {s : State} : Moves 0x8000000 s (selfTest a0 a1 s) := by
  unfold selfTest
  with_reducible
    repeat' first
      | exact .refl | assumption | refine emit_moves.on ?_ rfl | refine (forEach_moves (m := 0x8000000) (fun _ _ => ?_)).step ?_ | dsimp only

theorem execDramTrainingDone_moves {a0 a1 a2 a3 a4} {s : State} : MovesR 0x1FBFEB31 s (execDramTrainingDone a0 a1 a2 a3 a4 s) := by
  unfold execDramTrainingDone
  with_reducible
    repeat' first
      | exact .refl | assumption | exact .fault | refine .next ?_
      | (extract_lets +onlyGivenNames x; first | (refine .cut (x := x) ?_ ?_; (on_goal 1 => intro _; clear_value x); (on_goal 2 => subst x)) | subst x)
      | refine loadFail_moves.on ?_ rfl | refine loseUnit0_moves.on ?_ rfl | refine put_moves.on ?_ rfl | refine channelPresent_moves.on ?_ rfl
      | refine trained_moves.on ?_ rfl | refine selfTest_moves.on ?_ rfl | split

theorem execDramInitChunk_moves {a0} {s : State} : MovesR 0x200001 s (execDramInitChunk a0 s) := by
  unfold execDramInitChunk
  with_reducible
    repeat' first
      | exact .refl | assumption | exact .fault | refine .next ?_
      | (extract_lets +onlyGivenNames x; first | (refine .cut (x := x) ?_ ?_; (on_goal 1 => intro _; clear_value x); (on_goal 2 => subst x)) | subst x)
      | refine put_moves.on ?_ rfl | refine zeroPage_moves.on ?_ rfl | split

theorem coreTrap_moves {a0 a1 a2} {s : State} : Moves 0x808 s (coreTrap a0 a1 a2 s) := by
  unfold coreTrap
  with_reducible
    repeat' first
      | exact .refl | assumption
      | (extract_lets +onlyGivenNames x; first | (refine .cut (x := x) ?_ ?_; (on_goal 1 => intro _; clear_value x); (on_goal 2 => subst x)) | subst x)
      | refine answer_moves.on ?_ rfl | refine onCcx_moves.on ?_ rfl

theorem coreWriteLine_moves {a0 a1 a2} {s : State} : Moves 0x8200801 s (coreWriteLine a0 a1 a2 s) := by
  unfold coreWriteLine
  with_reducible
    repeat' first
      | exact .refl | assumption
      | (extract_lets +onlyGivenNames x; first | (refine .cut (x := x) ?_ ?_; (on_goal 1 => intro _; clear_value x); (on_goal 2 => subst x)) | subst x)
      | refine coreLookup_moves.on ?_ rfl | refine sccExclusive_moves.on ?_ rfl | refine (forEach_moves (m := 0x8200801) (fun _ _ => ?_)).step ?_
      | refine memWrite_moves.on ?_ rfl | refine sccPut_moves.on ?_ rfl | refine fullWrite_moves.on ?_ rfl | split

theorem sbDrainLine_moves {a0} {s : State} : Moves 0x8200801 s (sbDrainLine a0 s) := by
  unfold sbDrainLine
  with_reducible
    repeat' first
      | exact .refl | assumption
      | (extract_lets +onlyGivenNames x; first | (refine .cut (x := x) ?_ ?_; (on_goal 1 => intro _; clear_value x); (on_goal 2 => subst x)) | subst x)
      | refine onCcx_moves.on ?_ rfl | refine coreWriteLine_moves.on ?_ rfl | split

theorem sbDrain_moves {a0 a1} {s : State} : Moves 0x8200801 s (sbDrain a0 a1 s) := by
  induction a1 generalizing a0 s with
  | zero =>
    unfold sbDrain
    with_reducible
      repeat' first
       | exact .refl | assumption | refine sbDrainLine_moves.on ?_ rfl
  | succ k ih =>
    unfold sbDrain
    with_reducible
      repeat' first
       | exact .refl | assumption | refine sbDrainLine_moves.on ?_ rfl | refine ih.on ?_ rfl


theorem sbFlush_moves {a0} {s : State} : Moves 0x8200801 s (sbFlush a0 s) := by
  unfold sbFlush
  with_reducible
    repeat' first
      | exact .refl | assumption | refine sbDrain_moves.on ?_ rfl

theorem sbStore_moves {a0 a1 a2} {s : State} : Moves 0x8200801 s (sbStore a0 a1 a2 s) := by
  unfold sbStore
  with_reducible
    repeat' first
      | exact .refl | assumption
      | (extract_lets +onlyGivenNames x; first | (refine .cut (x := x) ?_ ?_; (on_goal 1 => intro _; clear_value x); (on_goal 2 => subst x)) | subst x)
      | refine onCcx_moves.on ?_ rfl | refine sbDrainLine_moves.on ?_ rfl | split

theorem drainStores_moves {s : State} : Moves 0x8200801 s (drainStores s) := by
  unfold drainStores
  with_reducible
    repeat' first
      | exact .refl | assumption | refine (forEach_moves (m := 0x8200801) (fun _ _ => ?_)).step ?_ | refine sbFlush_moves.on ?_ rfl

theorem idleStep_moves {s : State} : Moves 0x18220C11 s (idleStep s) := by
  unfold idleStep
  with_reducible
    repeat' first
      | exact .refl | assumption | refine ringTick_moves.on ?_ rfl | refine drainStores_moves.on ?_ rfl | refine tapTick_moves.on ?_ rfl

theorem l1Parity_moves {a0 a1} {s : State} : Moves 0x801 s (l1Parity a0 a1 s) := by
  unfold l1Parity
  with_reducible
    repeat' first
      | exact .refl | assumption
      | (extract_lets +onlyGivenNames x; first | (refine .cut (x := x) ?_ ?_; (on_goal 1 => intro _; clear_value x); (on_goal 2 => subst x)) | subst x)
      | refine sccPut_moves.on ?_ rfl | refine count_moves.on ?_ rfl | split

theorem coreDataLine_moves {a0 a1 a2 a3} {s : State} : Moves 0xAB80901 s (coreDataLine a0 a1 a2 a3 s).2 := by
  unfold coreDataLine
  with_reducible
    repeat' first
      | exact .refl | assumption
      | (extract_lets +onlyGivenNames x; first | (refine .cut (x := x) ?_ ?_; (on_goal 1 => intro _; clear_value x); (on_goal 2 => subst x)) | subst x)
      | refine l1Parity_moves.on ?_ rfl | refine coreLookup_moves.on ?_ rfl | refine sccArray_moves.on ?_ rfl | refine count_moves.on ?_ rfl
      | refine l1Hold_moves.on ?_ rfl | split | dsimp only

theorem coreInstrLine_moves {a0 a1 a2 a3} {s : State} : Moves 0xAB80901 s (coreInstrLine a0 a1 a2 a3 s).2 := by
  unfold coreInstrLine
  with_reducible
    repeat' first
      | exact .refl | assumption
      | (extract_lets +onlyGivenNames x; first | (refine .cut (x := x) ?_ ?_; (on_goal 1 => intro _; clear_value x); (on_goal 2 => subst x)) | subst x)
      | refine count_moves.on ?_ rfl | refine coreLookup_moves.on ?_ rfl | refine sccArray_moves.on ?_ rfl | refine onCcx_moves.on ?_ rfl | split
      | dsimp only

theorem coreFetch_moves {a0 a1} {s : State} : Moves 0xAB80909 s (coreFetch a0 a1 s) := by
  unfold coreFetch
  with_reducible
    repeat' first
      | exact .refl | assumption
      | (extract_lets +onlyGivenNames x; first | (refine .cut (x := x) ?_ ?_; (on_goal 1 => intro _; clear_value x); (on_goal 2 => subst x)) | subst x)
      | refine coreInstrLine_moves.on ?_ rfl | refine (coreInstrLine_moves.get (by assumption)).on ?_ rfl | refine coreTrap_moves.on ?_ rfl
      | refine answer_moves.on ?_ rfl | split

theorem coreData_moves {a0 a1} {s : State} : Moves 0xAB80909 s (coreData a0 a1 s) := by
  unfold coreData
  with_reducible
    repeat' first
      | exact .refl | assumption
      | (extract_lets +onlyGivenNames x; first | (refine .cut (x := x) ?_ ?_; (on_goal 1 => intro _; clear_value x); (on_goal 2 => subst x)) | subst x)
      | refine coreDataLine_moves.on ?_ rfl | refine (coreDataLine_moves.get (by assumption)).on ?_ rfl | refine coreTrap_moves.on ?_ rfl
      | refine answer_moves.on ?_ rfl | refine onCcx_moves.on ?_ rfl | refine (forEach_moves (m := 0xAB80909) (fun _ _ => ?_)).step ?_
      | refine sbStore_moves.on ?_ rfl | refine sbFlush_moves.on ?_ rfl | refine coreWriteLine_moves.on ?_ rfl | split

theorem coreRegister_moves {a0} {s : State} : Moves 0x1FFFEFFF s (coreRegister a0 s) := by
  unfold coreRegister
  with_reducible
    repeat' first
      | exact .refl | assumption
      | (extract_lets +onlyGivenNames x; first | (refine .cut (x := x) ?_ ?_; (on_goal 1 => intro _; clear_value x); (on_goal 2 => subst x)) | subst x)
      | refine coreTrap_moves.on ?_ rfl | refine busRead_moves.on ?_ rfl | refine busWrite_moves.on ?_ rfl | split | dsimp only

theorem coreAccessEff_moves {a0} {s : State} : Moves 0x1FFFEFFF s (coreAccessEff a0 s) := by
  unfold coreAccessEff
  with_reducible
    repeat' first
      | exact .refl | assumption
      | (extract_lets +onlyGivenNames x; first | (refine .cut (x := x) ?_ ?_; (on_goal 1 => intro _; clear_value x); (on_goal 2 => subst x)) | subst x)
      | refine answer_moves.on ?_ rfl | refine sbFlush_moves.on ?_ rfl | refine onCcx_moves.on ?_ rfl | refine coreTrap_moves.on ?_ rfl
      | refine coreRegister_moves.on ?_ rfl | refine coreFetch_moves.on ?_ rfl | refine coreData_moves.on ?_ rfl | split | dsimp only

theorem execCoreAccess_moves {a0} {s : State} : MovesR 0x1FFFEFFF s (execCoreAccess a0 s) := by
  unfold execCoreAccess
  with_reducible
    repeat' first
      | exact .refl | assumption | exact .fault | refine .next ?_ | refine coreAccessEff_moves.on ?_ rfl | split

end Sys2Proof.Machine
end

