-- ==== Sys2Proof/Laws/State.lean ====
section
/-! SUPPORT. What each update of the state leaves alone: one lemma per operation, with one equation per field that it does not touch. -/

namespace Sys2Proof.Machine

variable (s : State)

@[simp] theorem setReg_rest (a : Nat) (w : Word) :
    (s.setReg a w).shadow = s.shadow ∧ (s.setReg a w).hold = s.hold ∧ (s.setReg a w).bus = s.bus ∧ (s.setReg a w).glb = s.glb ∧
    (s.setReg a w).cfg = s.cfg ∧ (s.setReg a w).trc = s.trc ∧ (s.setReg a w).svc = s.svc ∧ (s.setReg a w).evr = s.evr ∧ (s.setReg a w).tly = s.tly ∧
    (s.setReg a w).moc = s.moc ∧ (s.setReg a w).ccx = s.ccx ∧ (s.setReg a w).key = s.key ∧ (s.setReg a w).lns = s.lns ∧ (s.setReg a w).mss = s.mss ∧
    (s.setReg a w).svs = s.svs ∧ (s.setReg a w).ldp = s.ldp ∧ (s.setReg a w).mot = s.mot ∧ (s.setReg a w).spm = s.spm ∧ (s.setReg a w).rly = s.rly ∧
    (s.setReg a w).bnd = s.bnd ∧ (s.setReg a w).buf = s.buf ∧ (s.setReg a w).dma = s.dma ∧ (s.setReg a w).bat = s.bat ∧ (s.setReg a w).pwr = s.pwr ∧
    (s.setReg a w).qe = s.qe ∧ (s.setReg a w).reports = s.reports ∧ (s.setReg a w).sent = s.sent ∧ (s.setReg a w).freeN = s.freeN ∧
    (s.setReg a w).pending = s.pending := by
  repeat' first | exact rfl | apply And.intro

@[simp] theorem put_rest (f : Fld) (v : Nat) :
    (s.put f v).shadow = s.shadow ∧ (s.put f v).hold = s.hold ∧ (s.put f v).bus = s.bus ∧ (s.put f v).glb = s.glb ∧ (s.put f v).cfg = s.cfg ∧
    (s.put f v).trc = s.trc ∧ (s.put f v).svc = s.svc ∧ (s.put f v).evr = s.evr ∧ (s.put f v).tly = s.tly ∧ (s.put f v).moc = s.moc ∧
    (s.put f v).ccx = s.ccx ∧ (s.put f v).key = s.key ∧ (s.put f v).lns = s.lns ∧ (s.put f v).mss = s.mss ∧ (s.put f v).svs = s.svs ∧
    (s.put f v).ldp = s.ldp ∧ (s.put f v).mot = s.mot ∧ (s.put f v).spm = s.spm ∧ (s.put f v).rly = s.rly ∧ (s.put f v).bnd = s.bnd ∧
    (s.put f v).buf = s.buf ∧ (s.put f v).dma = s.dma ∧ (s.put f v).bat = s.bat ∧ (s.put f v).pwr = s.pwr ∧ (s.put f v).qe = s.qe ∧
    (s.put f v).reports = s.reports ∧ (s.put f v).sent = s.sent ∧ (s.put f v).freeN = s.freeN ∧ (s.put f v).pending = s.pending := by
  repeat' first | exact rfl | apply And.intro

@[simp] theorem putB_rest (f : Fld) (b : Bool) :
    (s.putB f b).shadow = s.shadow ∧ (s.putB f b).hold = s.hold ∧ (s.putB f b).bus = s.bus ∧ (s.putB f b).glb = s.glb ∧ (s.putB f b).cfg = s.cfg ∧
    (s.putB f b).trc = s.trc ∧ (s.putB f b).svc = s.svc ∧ (s.putB f b).evr = s.evr ∧ (s.putB f b).tly = s.tly ∧ (s.putB f b).moc = s.moc ∧
    (s.putB f b).ccx = s.ccx ∧ (s.putB f b).key = s.key ∧ (s.putB f b).lns = s.lns ∧ (s.putB f b).mss = s.mss ∧ (s.putB f b).svs = s.svs ∧
    (s.putB f b).ldp = s.ldp ∧ (s.putB f b).mot = s.mot ∧ (s.putB f b).spm = s.spm ∧ (s.putB f b).rly = s.rly ∧ (s.putB f b).bnd = s.bnd ∧
    (s.putB f b).buf = s.buf ∧ (s.putB f b).dma = s.dma ∧ (s.putB f b).bat = s.bat ∧ (s.putB f b).pwr = s.pwr ∧ (s.putB f b).qe = s.qe ∧
    (s.putB f b).reports = s.reports ∧ (s.putB f b).sent = s.sent ∧ (s.putB f b).freeN = s.freeN ∧ (s.putB f b).pending = s.pending := by
  repeat' first | exact rfl | apply And.intro

@[simp] theorem count_rest (f : Fld) (n : Nat) :
    (s.count f n).shadow = s.shadow ∧ (s.count f n).hold = s.hold ∧ (s.count f n).bus = s.bus ∧ (s.count f n).glb = s.glb ∧
    (s.count f n).cfg = s.cfg ∧ (s.count f n).trc = s.trc ∧ (s.count f n).svc = s.svc ∧ (s.count f n).evr = s.evr ∧ (s.count f n).tly = s.tly ∧
    (s.count f n).moc = s.moc ∧ (s.count f n).ccx = s.ccx ∧ (s.count f n).key = s.key ∧ (s.count f n).lns = s.lns ∧ (s.count f n).mss = s.mss ∧
    (s.count f n).svs = s.svs ∧ (s.count f n).ldp = s.ldp ∧ (s.count f n).mot = s.mot ∧ (s.count f n).spm = s.spm ∧ (s.count f n).rly = s.rly ∧
    (s.count f n).bnd = s.bnd ∧ (s.count f n).buf = s.buf ∧ (s.count f n).dma = s.dma ∧ (s.count f n).bat = s.bat ∧ (s.count f n).pwr = s.pwr ∧
    (s.count f n).qe = s.qe ∧ (s.count f n).reports = s.reports ∧ (s.count f n).sent = s.sent ∧ (s.count f n).freeN = s.freeN ∧
    (s.count f n).pending = s.pending := by
  repeat' first | exact rfl | apply And.intro

@[simp] theorem setPair_rest (lo hi : Nat) (v : Dword) :
    (s.setPair lo hi v).shadow = s.shadow ∧ (s.setPair lo hi v).hold = s.hold ∧ (s.setPair lo hi v).bus = s.bus ∧ (s.setPair lo hi v).glb = s.glb ∧
    (s.setPair lo hi v).cfg = s.cfg ∧ (s.setPair lo hi v).trc = s.trc ∧ (s.setPair lo hi v).svc = s.svc ∧ (s.setPair lo hi v).evr = s.evr ∧
    (s.setPair lo hi v).tly = s.tly ∧ (s.setPair lo hi v).moc = s.moc ∧ (s.setPair lo hi v).ccx = s.ccx ∧ (s.setPair lo hi v).key = s.key ∧
    (s.setPair lo hi v).lns = s.lns ∧ (s.setPair lo hi v).mss = s.mss ∧ (s.setPair lo hi v).svs = s.svs ∧ (s.setPair lo hi v).ldp = s.ldp ∧
    (s.setPair lo hi v).mot = s.mot ∧ (s.setPair lo hi v).spm = s.spm ∧ (s.setPair lo hi v).rly = s.rly ∧ (s.setPair lo hi v).bnd = s.bnd ∧
    (s.setPair lo hi v).buf = s.buf ∧ (s.setPair lo hi v).dma = s.dma ∧ (s.setPair lo hi v).bat = s.bat ∧ (s.setPair lo hi v).pwr = s.pwr ∧
    (s.setPair lo hi v).qe = s.qe ∧ (s.setPair lo hi v).reports = s.reports ∧ (s.setPair lo hi v).sent = s.sent ∧
    (s.setPair lo hi v).freeN = s.freeN ∧ (s.setPair lo hi v).pending = s.pending := by
  repeat' first | exact rfl | apply And.intro

@[simp] theorem setNow_rest (v : Dword) :
    (s.setNow v).shadow = s.shadow ∧ (s.setNow v).hold = s.hold ∧ (s.setNow v).bus = s.bus ∧ (s.setNow v).glb = s.glb ∧ (s.setNow v).cfg = s.cfg ∧
    (s.setNow v).trc = s.trc ∧ (s.setNow v).svc = s.svc ∧ (s.setNow v).evr = s.evr ∧ (s.setNow v).tly = s.tly ∧ (s.setNow v).moc = s.moc ∧
    (s.setNow v).ccx = s.ccx ∧ (s.setNow v).key = s.key ∧ (s.setNow v).lns = s.lns ∧ (s.setNow v).mss = s.mss ∧ (s.setNow v).svs = s.svs ∧
    (s.setNow v).ldp = s.ldp ∧ (s.setNow v).mot = s.mot ∧ (s.setNow v).spm = s.spm ∧ (s.setNow v).rly = s.rly ∧ (s.setNow v).bnd = s.bnd ∧
    (s.setNow v).buf = s.buf ∧ (s.setNow v).dma = s.dma ∧ (s.setNow v).bat = s.bat ∧ (s.setNow v).pwr = s.pwr ∧ (s.setNow v).qe = s.qe ∧
    (s.setNow v).reports = s.reports ∧ (s.setNow v).sent = s.sent ∧ (s.setNow v).freeN = s.freeN ∧ (s.setNow v).pending = s.pending := by
  repeat' first | exact rfl | apply And.intro

@[simp] theorem emit_rest (o : Out) :
    (s.emit o).regs = s.regs ∧ (s.emit o).shadow = s.shadow ∧ (s.emit o).hold = s.hold ∧ (s.emit o).bus = s.bus ∧ (s.emit o).glb = s.glb ∧
    (s.emit o).cfg = s.cfg ∧ (s.emit o).trc = s.trc ∧ (s.emit o).svc = s.svc ∧ (s.emit o).evr = s.evr ∧ (s.emit o).tly = s.tly ∧
    (s.emit o).moc = s.moc ∧ (s.emit o).ccx = s.ccx ∧ (s.emit o).key = s.key ∧ (s.emit o).lns = s.lns ∧ (s.emit o).mss = s.mss ∧
    (s.emit o).svs = s.svs ∧ (s.emit o).ldp = s.ldp ∧ (s.emit o).mot = s.mot ∧ (s.emit o).spm = s.spm ∧ (s.emit o).rly = s.rly ∧
    (s.emit o).bnd = s.bnd ∧ (s.emit o).buf = s.buf ∧ (s.emit o).dma = s.dma ∧ (s.emit o).bat = s.bat ∧ (s.emit o).pwr = s.pwr ∧
    (s.emit o).qe = s.qe ∧ (s.emit o).reports = s.reports ∧ (s.emit o).freeN = s.freeN ∧ (s.emit o).pending = s.pending := by
  repeat' first | exact rfl | apply And.intro

@[simp] theorem emitAll_rest (o : List Out) :
    (s.emitAll o).regs = s.regs ∧ (s.emitAll o).shadow = s.shadow ∧ (s.emitAll o).hold = s.hold ∧ (s.emitAll o).bus = s.bus ∧
    (s.emitAll o).glb = s.glb ∧ (s.emitAll o).cfg = s.cfg ∧ (s.emitAll o).trc = s.trc ∧ (s.emitAll o).svc = s.svc ∧ (s.emitAll o).evr = s.evr ∧
    (s.emitAll o).tly = s.tly ∧ (s.emitAll o).moc = s.moc ∧ (s.emitAll o).ccx = s.ccx ∧ (s.emitAll o).key = s.key ∧ (s.emitAll o).lns = s.lns ∧
    (s.emitAll o).mss = s.mss ∧ (s.emitAll o).svs = s.svs ∧ (s.emitAll o).ldp = s.ldp ∧ (s.emitAll o).mot = s.mot ∧ (s.emitAll o).spm = s.spm ∧
    (s.emitAll o).rly = s.rly ∧ (s.emitAll o).bnd = s.bnd ∧ (s.emitAll o).buf = s.buf ∧ (s.emitAll o).dma = s.dma ∧ (s.emitAll o).bat = s.bat ∧
    (s.emitAll o).pwr = s.pwr ∧ (s.emitAll o).qe = s.qe ∧ (s.emitAll o).reports = s.reports ∧ (s.emitAll o).freeN = s.freeN ∧
    (s.emitAll o).pending = s.pending := by
  repeat' first | exact rfl | apply And.intro

@[simp] theorem answer_rest (b : BusAnswer) :
    (s.answer b).regs = s.regs ∧ (s.answer b).shadow = s.shadow ∧ (s.answer b).hold = s.hold ∧ (s.answer b).glb = s.glb ∧ (s.answer b).cfg = s.cfg ∧
    (s.answer b).trc = s.trc ∧ (s.answer b).svc = s.svc ∧ (s.answer b).evr = s.evr ∧ (s.answer b).tly = s.tly ∧ (s.answer b).moc = s.moc ∧
    (s.answer b).ccx = s.ccx ∧ (s.answer b).key = s.key ∧ (s.answer b).lns = s.lns ∧ (s.answer b).mss = s.mss ∧ (s.answer b).svs = s.svs ∧
    (s.answer b).ldp = s.ldp ∧ (s.answer b).mot = s.mot ∧ (s.answer b).spm = s.spm ∧ (s.answer b).rly = s.rly ∧ (s.answer b).bnd = s.bnd ∧
    (s.answer b).buf = s.buf ∧ (s.answer b).dma = s.dma ∧ (s.answer b).bat = s.bat ∧ (s.answer b).pwr = s.pwr ∧ (s.answer b).qe = s.qe ∧
    (s.answer b).reports = s.reports ∧ (s.answer b).sent = s.sent ∧ (s.answer b).freeN = s.freeN ∧ (s.answer b).pending = s.pending := by
  repeat' first | exact rfl | apply And.intro

@[simp] theorem free_snd_rest (w : Nat) :
    (s.free w).2.regs = s.regs ∧ (s.free w).2.shadow = s.shadow ∧ (s.free w).2.hold = s.hold ∧ (s.free w).2.bus = s.bus ∧ (s.free w).2.glb = s.glb ∧
    (s.free w).2.cfg = s.cfg ∧ (s.free w).2.trc = s.trc ∧ (s.free w).2.svc = s.svc ∧ (s.free w).2.evr = s.evr ∧ (s.free w).2.tly = s.tly ∧
    (s.free w).2.moc = s.moc ∧ (s.free w).2.ccx = s.ccx ∧ (s.free w).2.key = s.key ∧ (s.free w).2.lns = s.lns ∧ (s.free w).2.mss = s.mss ∧
    (s.free w).2.svs = s.svs ∧ (s.free w).2.ldp = s.ldp ∧ (s.free w).2.mot = s.mot ∧ (s.free w).2.spm = s.spm ∧ (s.free w).2.rly = s.rly ∧
    (s.free w).2.bnd = s.bnd ∧ (s.free w).2.buf = s.buf ∧ (s.free w).2.dma = s.dma ∧ (s.free w).2.bat = s.bat ∧ (s.free w).2.pwr = s.pwr ∧
    (s.free w).2.qe = s.qe ∧ (s.free w).2.reports = s.reports ∧ (s.free w).2.sent = s.sent ∧ (s.free w).2.pending = s.pending := by
  repeat' first | exact rfl | apply And.intro

@[simp] theorem irq_rest (n : Nat) :
    (s.irq n).regs = s.regs ∧ (s.irq n).shadow = s.shadow ∧ (s.irq n).hold = s.hold ∧ (s.irq n).bus = s.bus ∧ (s.irq n).glb = s.glb ∧
    (s.irq n).cfg = s.cfg ∧ (s.irq n).trc = s.trc ∧ (s.irq n).svc = s.svc ∧ (s.irq n).evr = s.evr ∧ (s.irq n).tly = s.tly ∧ (s.irq n).moc = s.moc ∧
    (s.irq n).key = s.key ∧ (s.irq n).lns = s.lns ∧ (s.irq n).mss = s.mss ∧ (s.irq n).svs = s.svs ∧ (s.irq n).ldp = s.ldp ∧ (s.irq n).mot = s.mot ∧
    (s.irq n).spm = s.spm ∧ (s.irq n).rly = s.rly ∧ (s.irq n).bnd = s.bnd ∧ (s.irq n).buf = s.buf ∧ (s.irq n).dma = s.dma ∧ (s.irq n).bat = s.bat ∧
    (s.irq n).pwr = s.pwr ∧ (s.irq n).qe = s.qe ∧ (s.irq n).reports = s.reports ∧ (s.irq n).sent = s.sent ∧ (s.irq n).freeN = s.freeN ∧
    (s.irq n).pending = s.pending := by
  repeat' first | exact rfl | apply And.intro

@[simp] theorem raiseEvent_rest (e : Raised) :
    (s.raiseEvent e).regs = s.regs ∧ (s.raiseEvent e).shadow = s.shadow ∧ (s.raiseEvent e).hold = s.hold ∧ (s.raiseEvent e).bus = s.bus ∧
    (s.raiseEvent e).glb = s.glb ∧ (s.raiseEvent e).cfg = s.cfg ∧ (s.raiseEvent e).trc = s.trc ∧ (s.raiseEvent e).svc = s.svc ∧
    (s.raiseEvent e).tly = s.tly ∧ (s.raiseEvent e).moc = s.moc ∧ (s.raiseEvent e).ccx = s.ccx ∧ (s.raiseEvent e).key = s.key ∧
    (s.raiseEvent e).lns = s.lns ∧ (s.raiseEvent e).mss = s.mss ∧ (s.raiseEvent e).svs = s.svs ∧ (s.raiseEvent e).ldp = s.ldp ∧
    (s.raiseEvent e).mot = s.mot ∧ (s.raiseEvent e).spm = s.spm ∧ (s.raiseEvent e).rly = s.rly ∧ (s.raiseEvent e).bnd = s.bnd ∧
    (s.raiseEvent e).buf = s.buf ∧ (s.raiseEvent e).dma = s.dma ∧ (s.raiseEvent e).bat = s.bat ∧ (s.raiseEvent e).pwr = s.pwr ∧
    (s.raiseEvent e).qe = s.qe ∧ (s.raiseEvent e).reports = s.reports ∧ (s.raiseEvent e).sent = s.sent ∧ (s.raiseEvent e).freeN = s.freeN ∧
    (s.raiseEvent e).pending = s.pending := by
  repeat' first | exact rfl | apply And.intro

@[simp] theorem sysEvent_rest (code sev unit source : Nat) (data : List Byte) :
    (s.sysEvent code sev unit source data).regs = s.regs ∧ (s.sysEvent code sev unit source data).shadow = s.shadow ∧
    (s.sysEvent code sev unit source data).hold = s.hold ∧ (s.sysEvent code sev unit source data).bus = s.bus ∧
    (s.sysEvent code sev unit source data).glb = s.glb ∧ (s.sysEvent code sev unit source data).cfg = s.cfg ∧
    (s.sysEvent code sev unit source data).trc = s.trc ∧ (s.sysEvent code sev unit source data).svc = s.svc ∧
    (s.sysEvent code sev unit source data).tly = s.tly ∧ (s.sysEvent code sev unit source data).moc = s.moc ∧
    (s.sysEvent code sev unit source data).ccx = s.ccx ∧ (s.sysEvent code sev unit source data).key = s.key ∧
    (s.sysEvent code sev unit source data).lns = s.lns ∧ (s.sysEvent code sev unit source data).mss = s.mss ∧
    (s.sysEvent code sev unit source data).svs = s.svs ∧ (s.sysEvent code sev unit source data).ldp = s.ldp ∧
    (s.sysEvent code sev unit source data).mot = s.mot ∧ (s.sysEvent code sev unit source data).spm = s.spm ∧
    (s.sysEvent code sev unit source data).rly = s.rly ∧ (s.sysEvent code sev unit source data).bnd = s.bnd ∧
    (s.sysEvent code sev unit source data).buf = s.buf ∧ (s.sysEvent code sev unit source data).dma = s.dma ∧
    (s.sysEvent code sev unit source data).bat = s.bat ∧ (s.sysEvent code sev unit source data).pwr = s.pwr ∧
    (s.sysEvent code sev unit source data).qe = s.qe ∧ (s.sysEvent code sev unit source data).reports = s.reports ∧
    (s.sysEvent code sev unit source data).sent = s.sent ∧ (s.sysEvent code sev unit source data).freeN = s.freeN ∧
    (s.sysEvent code sev unit source data).pending = s.pending := by
  repeat' first | exact rfl | apply And.intro

@[simp] theorem setLn_rest (n : Lane) (l : Ln) :
    (s.setLn n l).regs = s.regs ∧ (s.setLn n l).shadow = s.shadow ∧ (s.setLn n l).hold = s.hold ∧ (s.setLn n l).bus = s.bus ∧
    (s.setLn n l).glb = s.glb ∧ (s.setLn n l).cfg = s.cfg ∧ (s.setLn n l).trc = s.trc ∧ (s.setLn n l).svc = s.svc ∧ (s.setLn n l).evr = s.evr ∧
    (s.setLn n l).tly = s.tly ∧ (s.setLn n l).moc = s.moc ∧ (s.setLn n l).ccx = s.ccx ∧ (s.setLn n l).key = s.key ∧ (s.setLn n l).mss = s.mss ∧
    (s.setLn n l).svs = s.svs ∧ (s.setLn n l).ldp = s.ldp ∧ (s.setLn n l).mot = s.mot ∧ (s.setLn n l).spm = s.spm ∧ (s.setLn n l).rly = s.rly ∧
    (s.setLn n l).bnd = s.bnd ∧ (s.setLn n l).buf = s.buf ∧ (s.setLn n l).dma = s.dma ∧ (s.setLn n l).bat = s.bat ∧ (s.setLn n l).pwr = s.pwr ∧
    (s.setLn n l).qe = s.qe ∧ (s.setLn n l).reports = s.reports ∧ (s.setLn n l).sent = s.sent ∧ (s.setLn n l).freeN = s.freeN ∧
    (s.setLn n l).pending = s.pending := by
  repeat' first | exact rfl | apply And.intro

@[simp] theorem onLn_rest (n : Lane) (f : Ln → Ln) :
    (s.onLn n f).regs = s.regs ∧ (s.onLn n f).shadow = s.shadow ∧ (s.onLn n f).hold = s.hold ∧ (s.onLn n f).bus = s.bus ∧ (s.onLn n f).glb = s.glb ∧
    (s.onLn n f).cfg = s.cfg ∧ (s.onLn n f).trc = s.trc ∧ (s.onLn n f).svc = s.svc ∧ (s.onLn n f).evr = s.evr ∧ (s.onLn n f).tly = s.tly ∧
    (s.onLn n f).moc = s.moc ∧ (s.onLn n f).ccx = s.ccx ∧ (s.onLn n f).key = s.key ∧ (s.onLn n f).mss = s.mss ∧ (s.onLn n f).svs = s.svs ∧
    (s.onLn n f).ldp = s.ldp ∧ (s.onLn n f).mot = s.mot ∧ (s.onLn n f).spm = s.spm ∧ (s.onLn n f).rly = s.rly ∧ (s.onLn n f).bnd = s.bnd ∧
    (s.onLn n f).buf = s.buf ∧ (s.onLn n f).dma = s.dma ∧ (s.onLn n f).bat = s.bat ∧ (s.onLn n f).pwr = s.pwr ∧ (s.onLn n f).qe = s.qe ∧
    (s.onLn n f).reports = s.reports ∧ (s.onLn n f).sent = s.sent ∧ (s.onLn n f).freeN = s.freeN ∧ (s.onLn n f).pending = s.pending := by
  repeat' first | exact rfl | apply And.intro

@[simp] theorem setMs_rest (n : Lane) (m : Ms) :
    (s.setMs n m).regs = s.regs ∧ (s.setMs n m).shadow = s.shadow ∧ (s.setMs n m).hold = s.hold ∧ (s.setMs n m).bus = s.bus ∧
    (s.setMs n m).glb = s.glb ∧ (s.setMs n m).cfg = s.cfg ∧ (s.setMs n m).trc = s.trc ∧ (s.setMs n m).svc = s.svc ∧ (s.setMs n m).evr = s.evr ∧
    (s.setMs n m).tly = s.tly ∧ (s.setMs n m).moc = s.moc ∧ (s.setMs n m).ccx = s.ccx ∧ (s.setMs n m).key = s.key ∧ (s.setMs n m).lns = s.lns ∧
    (s.setMs n m).svs = s.svs ∧ (s.setMs n m).ldp = s.ldp ∧ (s.setMs n m).mot = s.mot ∧ (s.setMs n m).spm = s.spm ∧ (s.setMs n m).rly = s.rly ∧
    (s.setMs n m).bnd = s.bnd ∧ (s.setMs n m).buf = s.buf ∧ (s.setMs n m).dma = s.dma ∧ (s.setMs n m).bat = s.bat ∧ (s.setMs n m).pwr = s.pwr ∧
    (s.setMs n m).qe = s.qe ∧ (s.setMs n m).reports = s.reports ∧ (s.setMs n m).sent = s.sent ∧ (s.setMs n m).freeN = s.freeN ∧
    (s.setMs n m).pending = s.pending := by
  repeat' first | exact rfl | apply And.intro

@[simp] theorem onMs_rest (n : Lane) (f : Ms → Ms) :
    (s.onMs n f).regs = s.regs ∧ (s.onMs n f).shadow = s.shadow ∧ (s.onMs n f).hold = s.hold ∧ (s.onMs n f).bus = s.bus ∧ (s.onMs n f).glb = s.glb ∧
    (s.onMs n f).cfg = s.cfg ∧ (s.onMs n f).trc = s.trc ∧ (s.onMs n f).svc = s.svc ∧ (s.onMs n f).evr = s.evr ∧ (s.onMs n f).tly = s.tly ∧
    (s.onMs n f).moc = s.moc ∧ (s.onMs n f).ccx = s.ccx ∧ (s.onMs n f).key = s.key ∧ (s.onMs n f).lns = s.lns ∧ (s.onMs n f).svs = s.svs ∧
    (s.onMs n f).ldp = s.ldp ∧ (s.onMs n f).mot = s.mot ∧ (s.onMs n f).spm = s.spm ∧ (s.onMs n f).rly = s.rly ∧ (s.onMs n f).bnd = s.bnd ∧
    (s.onMs n f).buf = s.buf ∧ (s.onMs n f).dma = s.dma ∧ (s.onMs n f).bat = s.bat ∧ (s.onMs n f).pwr = s.pwr ∧ (s.onMs n f).qe = s.qe ∧
    (s.onMs n f).reports = s.reports ∧ (s.onMs n f).sent = s.sent ∧ (s.onMs n f).freeN = s.freeN ∧ (s.onMs n f).pending = s.pending := by
  repeat' first | exact rfl | apply And.intro

@[simp] theorem setSv_rest (n : Lane) (v : Sv) :
    (s.setSv n v).regs = s.regs ∧ (s.setSv n v).shadow = s.shadow ∧ (s.setSv n v).hold = s.hold ∧ (s.setSv n v).bus = s.bus ∧
    (s.setSv n v).glb = s.glb ∧ (s.setSv n v).cfg = s.cfg ∧ (s.setSv n v).trc = s.trc ∧ (s.setSv n v).svc = s.svc ∧ (s.setSv n v).evr = s.evr ∧
    (s.setSv n v).tly = s.tly ∧ (s.setSv n v).moc = s.moc ∧ (s.setSv n v).ccx = s.ccx ∧ (s.setSv n v).key = s.key ∧ (s.setSv n v).lns = s.lns ∧
    (s.setSv n v).mss = s.mss ∧ (s.setSv n v).ldp = s.ldp ∧ (s.setSv n v).mot = s.mot ∧ (s.setSv n v).spm = s.spm ∧ (s.setSv n v).rly = s.rly ∧
    (s.setSv n v).bnd = s.bnd ∧ (s.setSv n v).buf = s.buf ∧ (s.setSv n v).dma = s.dma ∧ (s.setSv n v).bat = s.bat ∧ (s.setSv n v).pwr = s.pwr ∧
    (s.setSv n v).qe = s.qe ∧ (s.setSv n v).reports = s.reports ∧ (s.setSv n v).sent = s.sent ∧ (s.setSv n v).freeN = s.freeN ∧
    (s.setSv n v).pending = s.pending := by
  repeat' first | exact rfl | apply And.intro

@[simp] theorem onSv_rest (n : Lane) (f : Sv → Sv) :
    (s.onSv n f).regs = s.regs ∧ (s.onSv n f).shadow = s.shadow ∧ (s.onSv n f).hold = s.hold ∧ (s.onSv n f).bus = s.bus ∧ (s.onSv n f).glb = s.glb ∧
    (s.onSv n f).cfg = s.cfg ∧ (s.onSv n f).trc = s.trc ∧ (s.onSv n f).svc = s.svc ∧ (s.onSv n f).evr = s.evr ∧ (s.onSv n f).tly = s.tly ∧
    (s.onSv n f).moc = s.moc ∧ (s.onSv n f).ccx = s.ccx ∧ (s.onSv n f).key = s.key ∧ (s.onSv n f).lns = s.lns ∧ (s.onSv n f).mss = s.mss ∧
    (s.onSv n f).ldp = s.ldp ∧ (s.onSv n f).mot = s.mot ∧ (s.onSv n f).spm = s.spm ∧ (s.onSv n f).rly = s.rly ∧ (s.onSv n f).bnd = s.bnd ∧
    (s.onSv n f).buf = s.buf ∧ (s.onSv n f).dma = s.dma ∧ (s.onSv n f).bat = s.bat ∧ (s.onSv n f).pwr = s.pwr ∧ (s.onSv n f).qe = s.qe ∧
    (s.onSv n f).reports = s.reports ∧ (s.onSv n f).sent = s.sent ∧ (s.onSv n f).freeN = s.freeN ∧ (s.onSv n f).pending = s.pending := by
  repeat' first | exact rfl | apply And.intro

@[simp] theorem onAct_rest (n : Lane) (f : Act → Act) :
    (s.onAct n f).regs = s.regs ∧ (s.onAct n f).shadow = s.shadow ∧ (s.onAct n f).hold = s.hold ∧ (s.onAct n f).bus = s.bus ∧
    (s.onAct n f).glb = s.glb ∧ (s.onAct n f).cfg = s.cfg ∧ (s.onAct n f).trc = s.trc ∧ (s.onAct n f).svc = s.svc ∧ (s.onAct n f).evr = s.evr ∧
    (s.onAct n f).tly = s.tly ∧ (s.onAct n f).moc = s.moc ∧ (s.onAct n f).ccx = s.ccx ∧ (s.onAct n f).key = s.key ∧ (s.onAct n f).lns = s.lns ∧
    (s.onAct n f).mss = s.mss ∧ (s.onAct n f).svs = s.svs ∧ (s.onAct n f).ldp = s.ldp ∧ (s.onAct n f).mot = s.mot ∧ (s.onAct n f).spm = s.spm ∧
    (s.onAct n f).bnd = s.bnd ∧ (s.onAct n f).buf = s.buf ∧ (s.onAct n f).dma = s.dma ∧ (s.onAct n f).bat = s.bat ∧ (s.onAct n f).pwr = s.pwr ∧
    (s.onAct n f).qe = s.qe ∧ (s.onAct n f).reports = s.reports ∧ (s.onAct n f).sent = s.sent ∧ (s.onAct n f).freeN = s.freeN ∧
    (s.onAct n f).pending = s.pending := by
  repeat' first | exact rfl | apply And.intro

@[simp] theorem setEngine_rest (k : Fin 12) (e : Engine) :
    (s.setEngine k e).regs = s.regs ∧ (s.setEngine k e).shadow = s.shadow ∧ (s.setEngine k e).hold = s.hold ∧ (s.setEngine k e).bus = s.bus ∧
    (s.setEngine k e).glb = s.glb ∧ (s.setEngine k e).cfg = s.cfg ∧ (s.setEngine k e).trc = s.trc ∧ (s.setEngine k e).svc = s.svc ∧
    (s.setEngine k e).evr = s.evr ∧ (s.setEngine k e).tly = s.tly ∧ (s.setEngine k e).moc = s.moc ∧ (s.setEngine k e).ccx = s.ccx ∧
    (s.setEngine k e).key = s.key ∧ (s.setEngine k e).lns = s.lns ∧ (s.setEngine k e).mss = s.mss ∧ (s.setEngine k e).svs = s.svs ∧
    (s.setEngine k e).mot = s.mot ∧ (s.setEngine k e).spm = s.spm ∧ (s.setEngine k e).rly = s.rly ∧ (s.setEngine k e).bnd = s.bnd ∧
    (s.setEngine k e).buf = s.buf ∧ (s.setEngine k e).dma = s.dma ∧ (s.setEngine k e).bat = s.bat ∧ (s.setEngine k e).pwr = s.pwr ∧
    (s.setEngine k e).qe = s.qe ∧ (s.setEngine k e).reports = s.reports ∧ (s.setEngine k e).sent = s.sent ∧ (s.setEngine k e).freeN = s.freeN ∧
    (s.setEngine k e).pending = s.pending := by
  repeat' first | exact rfl | apply And.intro

@[simp] theorem onSpm_rest (f : Spm → Spm) :
    (s.onSpm f).regs = s.regs ∧ (s.onSpm f).shadow = s.shadow ∧ (s.onSpm f).hold = s.hold ∧ (s.onSpm f).bus = s.bus ∧ (s.onSpm f).glb = s.glb ∧
    (s.onSpm f).cfg = s.cfg ∧ (s.onSpm f).trc = s.trc ∧ (s.onSpm f).svc = s.svc ∧ (s.onSpm f).evr = s.evr ∧ (s.onSpm f).tly = s.tly ∧
    (s.onSpm f).moc = s.moc ∧ (s.onSpm f).ccx = s.ccx ∧ (s.onSpm f).key = s.key ∧ (s.onSpm f).lns = s.lns ∧ (s.onSpm f).mss = s.mss ∧
    (s.onSpm f).svs = s.svs ∧ (s.onSpm f).ldp = s.ldp ∧ (s.onSpm f).mot = s.mot ∧ (s.onSpm f).rly = s.rly ∧ (s.onSpm f).bnd = s.bnd ∧
    (s.onSpm f).buf = s.buf ∧ (s.onSpm f).dma = s.dma ∧ (s.onSpm f).bat = s.bat ∧ (s.onSpm f).pwr = s.pwr ∧ (s.onSpm f).qe = s.qe ∧
    (s.onSpm f).reports = s.reports ∧ (s.onSpm f).sent = s.sent ∧ (s.onSpm f).freeN = s.freeN ∧ (s.onSpm f).pending = s.pending := by
  repeat' first | exact rfl | apply And.intro

@[simp] theorem onBnd_rest (f : Bnd → Bnd) :
    (s.onBnd f).regs = s.regs ∧ (s.onBnd f).shadow = s.shadow ∧ (s.onBnd f).hold = s.hold ∧ (s.onBnd f).bus = s.bus ∧ (s.onBnd f).glb = s.glb ∧
    (s.onBnd f).cfg = s.cfg ∧ (s.onBnd f).trc = s.trc ∧ (s.onBnd f).svc = s.svc ∧ (s.onBnd f).evr = s.evr ∧ (s.onBnd f).tly = s.tly ∧
    (s.onBnd f).moc = s.moc ∧ (s.onBnd f).ccx = s.ccx ∧ (s.onBnd f).key = s.key ∧ (s.onBnd f).lns = s.lns ∧ (s.onBnd f).mss = s.mss ∧
    (s.onBnd f).svs = s.svs ∧ (s.onBnd f).ldp = s.ldp ∧ (s.onBnd f).mot = s.mot ∧ (s.onBnd f).spm = s.spm ∧ (s.onBnd f).rly = s.rly ∧
    (s.onBnd f).buf = s.buf ∧ (s.onBnd f).dma = s.dma ∧ (s.onBnd f).bat = s.bat ∧ (s.onBnd f).pwr = s.pwr ∧ (s.onBnd f).qe = s.qe ∧
    (s.onBnd f).reports = s.reports ∧ (s.onBnd f).sent = s.sent ∧ (s.onBnd f).freeN = s.freeN ∧ (s.onBnd f).pending = s.pending := by
  repeat' first | exact rfl | apply And.intro

@[simp] theorem setBand_rest (b : Nat) (x : Band) :
    (s.setBand b x).regs = s.regs ∧ (s.setBand b x).shadow = s.shadow ∧ (s.setBand b x).hold = s.hold ∧ (s.setBand b x).bus = s.bus ∧
    (s.setBand b x).glb = s.glb ∧ (s.setBand b x).cfg = s.cfg ∧ (s.setBand b x).trc = s.trc ∧ (s.setBand b x).svc = s.svc ∧
    (s.setBand b x).evr = s.evr ∧ (s.setBand b x).tly = s.tly ∧ (s.setBand b x).moc = s.moc ∧ (s.setBand b x).ccx = s.ccx ∧
    (s.setBand b x).key = s.key ∧ (s.setBand b x).lns = s.lns ∧ (s.setBand b x).mss = s.mss ∧ (s.setBand b x).svs = s.svs ∧
    (s.setBand b x).ldp = s.ldp ∧ (s.setBand b x).mot = s.mot ∧ (s.setBand b x).spm = s.spm ∧ (s.setBand b x).rly = s.rly ∧
    (s.setBand b x).buf = s.buf ∧ (s.setBand b x).dma = s.dma ∧ (s.setBand b x).bat = s.bat ∧ (s.setBand b x).pwr = s.pwr ∧
    (s.setBand b x).qe = s.qe ∧ (s.setBand b x).reports = s.reports ∧ (s.setBand b x).sent = s.sent ∧ (s.setBand b x).freeN = s.freeN ∧
    (s.setBand b x).pending = s.pending := by
  repeat' first | exact rfl | apply And.intro

@[simp] theorem setLband_rest (l : Nat) (x : LBand) :
    (s.setLband l x).regs = s.regs ∧ (s.setLband l x).shadow = s.shadow ∧ (s.setLband l x).hold = s.hold ∧ (s.setLband l x).bus = s.bus ∧
    (s.setLband l x).glb = s.glb ∧ (s.setLband l x).cfg = s.cfg ∧ (s.setLband l x).trc = s.trc ∧ (s.setLband l x).svc = s.svc ∧
    (s.setLband l x).evr = s.evr ∧ (s.setLband l x).tly = s.tly ∧ (s.setLband l x).moc = s.moc ∧ (s.setLband l x).ccx = s.ccx ∧
    (s.setLband l x).key = s.key ∧ (s.setLband l x).lns = s.lns ∧ (s.setLband l x).mss = s.mss ∧ (s.setLband l x).svs = s.svs ∧
    (s.setLband l x).ldp = s.ldp ∧ (s.setLband l x).mot = s.mot ∧ (s.setLband l x).spm = s.spm ∧ (s.setLband l x).rly = s.rly ∧
    (s.setLband l x).buf = s.buf ∧ (s.setLband l x).dma = s.dma ∧ (s.setLband l x).bat = s.bat ∧ (s.setLband l x).pwr = s.pwr ∧
    (s.setLband l x).qe = s.qe ∧ (s.setLband l x).reports = s.reports ∧ (s.setLband l x).sent = s.sent ∧ (s.setLband l x).freeN = s.freeN ∧
    (s.setLband l x).pending = s.pending := by
  repeat' first | exact rfl | apply And.intro

@[simp] theorem setCtrl_rest (fn : Nat) (c : Ctrl) :
    (s.setCtrl fn c).regs = s.regs ∧ (s.setCtrl fn c).shadow = s.shadow ∧ (s.setCtrl fn c).hold = s.hold ∧ (s.setCtrl fn c).bus = s.bus ∧
    (s.setCtrl fn c).glb = s.glb ∧ (s.setCtrl fn c).cfg = s.cfg ∧ (s.setCtrl fn c).trc = s.trc ∧ (s.setCtrl fn c).svc = s.svc ∧
    (s.setCtrl fn c).evr = s.evr ∧ (s.setCtrl fn c).tly = s.tly ∧ (s.setCtrl fn c).moc = s.moc ∧ (s.setCtrl fn c).ccx = s.ccx ∧
    (s.setCtrl fn c).key = s.key ∧ (s.setCtrl fn c).lns = s.lns ∧ (s.setCtrl fn c).mss = s.mss ∧ (s.setCtrl fn c).svs = s.svs ∧
    (s.setCtrl fn c).ldp = s.ldp ∧ (s.setCtrl fn c).mot = s.mot ∧ (s.setCtrl fn c).spm = s.spm ∧ (s.setCtrl fn c).rly = s.rly ∧
    (s.setCtrl fn c).bnd = s.bnd ∧ (s.setCtrl fn c).buf = s.buf ∧ (s.setCtrl fn c).dma = s.dma ∧ (s.setCtrl fn c).bat = s.bat ∧
    (s.setCtrl fn c).pwr = s.pwr ∧ (s.setCtrl fn c).reports = s.reports ∧ (s.setCtrl fn c).sent = s.sent ∧ (s.setCtrl fn c).freeN = s.freeN ∧
    (s.setCtrl fn c).pending = s.pending := by
  repeat' first | exact rfl | apply And.intro

@[simp] theorem onCtrl_rest (fn : Nat) (f : Ctrl → Ctrl) :
    (s.onCtrl fn f).regs = s.regs ∧ (s.onCtrl fn f).shadow = s.shadow ∧ (s.onCtrl fn f).hold = s.hold ∧ (s.onCtrl fn f).bus = s.bus ∧
    (s.onCtrl fn f).glb = s.glb ∧ (s.onCtrl fn f).cfg = s.cfg ∧ (s.onCtrl fn f).trc = s.trc ∧ (s.onCtrl fn f).svc = s.svc ∧
    (s.onCtrl fn f).evr = s.evr ∧ (s.onCtrl fn f).tly = s.tly ∧ (s.onCtrl fn f).moc = s.moc ∧ (s.onCtrl fn f).ccx = s.ccx ∧
    (s.onCtrl fn f).key = s.key ∧ (s.onCtrl fn f).lns = s.lns ∧ (s.onCtrl fn f).mss = s.mss ∧ (s.onCtrl fn f).svs = s.svs ∧
    (s.onCtrl fn f).ldp = s.ldp ∧ (s.onCtrl fn f).mot = s.mot ∧ (s.onCtrl fn f).spm = s.spm ∧ (s.onCtrl fn f).rly = s.rly ∧
    (s.onCtrl fn f).bnd = s.bnd ∧ (s.onCtrl fn f).buf = s.buf ∧ (s.onCtrl fn f).dma = s.dma ∧ (s.onCtrl fn f).bat = s.bat ∧
    (s.onCtrl fn f).pwr = s.pwr ∧ (s.onCtrl fn f).reports = s.reports ∧ (s.onCtrl fn f).sent = s.sent ∧ (s.onCtrl fn f).freeN = s.freeN ∧
    (s.onCtrl fn f).pending = s.pending := by
  repeat' first | exact rfl | apply And.intro

@[simp] theorem setSq_rest (fn k : Nat) (q : Sq) :
    (s.setSq fn k q).regs = s.regs ∧ (s.setSq fn k q).shadow = s.shadow ∧ (s.setSq fn k q).hold = s.hold ∧ (s.setSq fn k q).bus = s.bus ∧
    (s.setSq fn k q).glb = s.glb ∧ (s.setSq fn k q).cfg = s.cfg ∧ (s.setSq fn k q).trc = s.trc ∧ (s.setSq fn k q).svc = s.svc ∧
    (s.setSq fn k q).evr = s.evr ∧ (s.setSq fn k q).tly = s.tly ∧ (s.setSq fn k q).moc = s.moc ∧ (s.setSq fn k q).ccx = s.ccx ∧
    (s.setSq fn k q).key = s.key ∧ (s.setSq fn k q).lns = s.lns ∧ (s.setSq fn k q).mss = s.mss ∧ (s.setSq fn k q).svs = s.svs ∧
    (s.setSq fn k q).ldp = s.ldp ∧ (s.setSq fn k q).mot = s.mot ∧ (s.setSq fn k q).spm = s.spm ∧ (s.setSq fn k q).rly = s.rly ∧
    (s.setSq fn k q).bnd = s.bnd ∧ (s.setSq fn k q).buf = s.buf ∧ (s.setSq fn k q).dma = s.dma ∧ (s.setSq fn k q).bat = s.bat ∧
    (s.setSq fn k q).pwr = s.pwr ∧ (s.setSq fn k q).reports = s.reports ∧ (s.setSq fn k q).sent = s.sent ∧ (s.setSq fn k q).freeN = s.freeN ∧
    (s.setSq fn k q).pending = s.pending := by
  repeat' first | exact rfl | apply And.intro

@[simp] theorem setCq_rest (fn k : Nat) (q : Cq) :
    (s.setCq fn k q).regs = s.regs ∧ (s.setCq fn k q).shadow = s.shadow ∧ (s.setCq fn k q).hold = s.hold ∧ (s.setCq fn k q).bus = s.bus ∧
    (s.setCq fn k q).glb = s.glb ∧ (s.setCq fn k q).cfg = s.cfg ∧ (s.setCq fn k q).trc = s.trc ∧ (s.setCq fn k q).svc = s.svc ∧
    (s.setCq fn k q).evr = s.evr ∧ (s.setCq fn k q).tly = s.tly ∧ (s.setCq fn k q).moc = s.moc ∧ (s.setCq fn k q).ccx = s.ccx ∧
    (s.setCq fn k q).key = s.key ∧ (s.setCq fn k q).lns = s.lns ∧ (s.setCq fn k q).mss = s.mss ∧ (s.setCq fn k q).svs = s.svs ∧
    (s.setCq fn k q).ldp = s.ldp ∧ (s.setCq fn k q).mot = s.mot ∧ (s.setCq fn k q).spm = s.spm ∧ (s.setCq fn k q).rly = s.rly ∧
    (s.setCq fn k q).bnd = s.bnd ∧ (s.setCq fn k q).buf = s.buf ∧ (s.setCq fn k q).dma = s.dma ∧ (s.setCq fn k q).bat = s.bat ∧
    (s.setCq fn k q).pwr = s.pwr ∧ (s.setCq fn k q).reports = s.reports ∧ (s.setCq fn k q).sent = s.sent ∧ (s.setCq fn k q).freeN = s.freeN ∧
    (s.setCq fn k q).pending = s.pending := by
  repeat' first | exact rfl | apply And.intro

@[simp] theorem setQos_rest (fn : Nat) (q : Qos) :
    (s.setQos fn q).regs = s.regs ∧ (s.setQos fn q).shadow = s.shadow ∧ (s.setQos fn q).hold = s.hold ∧ (s.setQos fn q).bus = s.bus ∧
    (s.setQos fn q).glb = s.glb ∧ (s.setQos fn q).cfg = s.cfg ∧ (s.setQos fn q).trc = s.trc ∧ (s.setQos fn q).svc = s.svc ∧
    (s.setQos fn q).evr = s.evr ∧ (s.setQos fn q).tly = s.tly ∧ (s.setQos fn q).moc = s.moc ∧ (s.setQos fn q).ccx = s.ccx ∧
    (s.setQos fn q).key = s.key ∧ (s.setQos fn q).lns = s.lns ∧ (s.setQos fn q).mss = s.mss ∧ (s.setQos fn q).svs = s.svs ∧
    (s.setQos fn q).ldp = s.ldp ∧ (s.setQos fn q).mot = s.mot ∧ (s.setQos fn q).spm = s.spm ∧ (s.setQos fn q).bnd = s.bnd ∧
    (s.setQos fn q).buf = s.buf ∧ (s.setQos fn q).dma = s.dma ∧ (s.setQos fn q).bat = s.bat ∧ (s.setQos fn q).pwr = s.pwr ∧
    (s.setQos fn q).qe = s.qe ∧ (s.setQos fn q).reports = s.reports ∧ (s.setQos fn q).sent = s.sent ∧ (s.setQos fn q).freeN = s.freeN ∧
    (s.setQos fn q).pending = s.pending := by
  repeat' first | exact rfl | apply And.intro

@[simp] theorem onBuf_rest (f : Buf → Buf) :
    (s.onBuf f).regs = s.regs ∧ (s.onBuf f).shadow = s.shadow ∧ (s.onBuf f).hold = s.hold ∧ (s.onBuf f).bus = s.bus ∧ (s.onBuf f).glb = s.glb ∧
    (s.onBuf f).cfg = s.cfg ∧ (s.onBuf f).trc = s.trc ∧ (s.onBuf f).svc = s.svc ∧ (s.onBuf f).evr = s.evr ∧ (s.onBuf f).tly = s.tly ∧
    (s.onBuf f).moc = s.moc ∧ (s.onBuf f).ccx = s.ccx ∧ (s.onBuf f).key = s.key ∧ (s.onBuf f).lns = s.lns ∧ (s.onBuf f).mss = s.mss ∧
    (s.onBuf f).svs = s.svs ∧ (s.onBuf f).ldp = s.ldp ∧ (s.onBuf f).mot = s.mot ∧ (s.onBuf f).spm = s.spm ∧ (s.onBuf f).rly = s.rly ∧
    (s.onBuf f).bnd = s.bnd ∧ (s.onBuf f).dma = s.dma ∧ (s.onBuf f).bat = s.bat ∧ (s.onBuf f).pwr = s.pwr ∧ (s.onBuf f).qe = s.qe ∧
    (s.onBuf f).reports = s.reports ∧ (s.onBuf f).sent = s.sent ∧ (s.onBuf f).freeN = s.freeN ∧ (s.onBuf f).pending = s.pending := by
  repeat' first | exact rfl | apply And.intro

@[simp] theorem onBat_rest (f : Bat → Bat) :
    (s.onBat f).regs = s.regs ∧ (s.onBat f).shadow = s.shadow ∧ (s.onBat f).hold = s.hold ∧ (s.onBat f).bus = s.bus ∧ (s.onBat f).glb = s.glb ∧
    (s.onBat f).cfg = s.cfg ∧ (s.onBat f).trc = s.trc ∧ (s.onBat f).svc = s.svc ∧ (s.onBat f).evr = s.evr ∧ (s.onBat f).tly = s.tly ∧
    (s.onBat f).moc = s.moc ∧ (s.onBat f).ccx = s.ccx ∧ (s.onBat f).key = s.key ∧ (s.onBat f).lns = s.lns ∧ (s.onBat f).mss = s.mss ∧
    (s.onBat f).svs = s.svs ∧ (s.onBat f).ldp = s.ldp ∧ (s.onBat f).mot = s.mot ∧ (s.onBat f).spm = s.spm ∧ (s.onBat f).rly = s.rly ∧
    (s.onBat f).bnd = s.bnd ∧ (s.onBat f).buf = s.buf ∧ (s.onBat f).dma = s.dma ∧ (s.onBat f).pwr = s.pwr ∧ (s.onBat f).qe = s.qe ∧
    (s.onBat f).reports = s.reports ∧ (s.onBat f).sent = s.sent ∧ (s.onBat f).freeN = s.freeN ∧ (s.onBat f).pending = s.pending := by
  repeat' first | exact rfl | apply And.intro

@[simp] theorem onPwr_rest (f : Pwr → Pwr) :
    (s.onPwr f).regs = s.regs ∧ (s.onPwr f).shadow = s.shadow ∧ (s.onPwr f).hold = s.hold ∧ (s.onPwr f).bus = s.bus ∧ (s.onPwr f).glb = s.glb ∧
    (s.onPwr f).cfg = s.cfg ∧ (s.onPwr f).trc = s.trc ∧ (s.onPwr f).svc = s.svc ∧ (s.onPwr f).evr = s.evr ∧ (s.onPwr f).tly = s.tly ∧
    (s.onPwr f).moc = s.moc ∧ (s.onPwr f).ccx = s.ccx ∧ (s.onPwr f).key = s.key ∧ (s.onPwr f).lns = s.lns ∧ (s.onPwr f).mss = s.mss ∧
    (s.onPwr f).svs = s.svs ∧ (s.onPwr f).ldp = s.ldp ∧ (s.onPwr f).mot = s.mot ∧ (s.onPwr f).spm = s.spm ∧ (s.onPwr f).rly = s.rly ∧
    (s.onPwr f).bnd = s.bnd ∧ (s.onPwr f).buf = s.buf ∧ (s.onPwr f).dma = s.dma ∧ (s.onPwr f).bat = s.bat ∧ (s.onPwr f).qe = s.qe ∧
    (s.onPwr f).reports = s.reports ∧ (s.onPwr f).sent = s.sent ∧ (s.onPwr f).freeN = s.freeN ∧ (s.onPwr f).pending = s.pending := by
  repeat' first | exact rfl | apply And.intro

@[simp] theorem onCcx_rest (f : Ccx → Ccx) :
    (s.onCcx f).regs = s.regs ∧ (s.onCcx f).shadow = s.shadow ∧ (s.onCcx f).hold = s.hold ∧ (s.onCcx f).bus = s.bus ∧ (s.onCcx f).glb = s.glb ∧
    (s.onCcx f).cfg = s.cfg ∧ (s.onCcx f).trc = s.trc ∧ (s.onCcx f).svc = s.svc ∧ (s.onCcx f).evr = s.evr ∧ (s.onCcx f).tly = s.tly ∧
    (s.onCcx f).moc = s.moc ∧ (s.onCcx f).key = s.key ∧ (s.onCcx f).lns = s.lns ∧ (s.onCcx f).mss = s.mss ∧ (s.onCcx f).svs = s.svs ∧
    (s.onCcx f).ldp = s.ldp ∧ (s.onCcx f).mot = s.mot ∧ (s.onCcx f).spm = s.spm ∧ (s.onCcx f).rly = s.rly ∧ (s.onCcx f).bnd = s.bnd ∧
    (s.onCcx f).buf = s.buf ∧ (s.onCcx f).dma = s.dma ∧ (s.onCcx f).bat = s.bat ∧ (s.onCcx f).pwr = s.pwr ∧ (s.onCcx f).qe = s.qe ∧
    (s.onCcx f).reports = s.reports ∧ (s.onCcx f).sent = s.sent ∧ (s.onCcx f).freeN = s.freeN ∧ (s.onCcx f).pending = s.pending := by
  repeat' first | exact rfl | apply And.intro

@[simp] theorem onDma_rest (c : Nat) (f : DmaCh → DmaCh) :
    (s.onDma c f).regs = s.regs ∧ (s.onDma c f).shadow = s.shadow ∧ (s.onDma c f).hold = s.hold ∧ (s.onDma c f).bus = s.bus ∧
    (s.onDma c f).glb = s.glb ∧ (s.onDma c f).cfg = s.cfg ∧ (s.onDma c f).trc = s.trc ∧ (s.onDma c f).svc = s.svc ∧ (s.onDma c f).evr = s.evr ∧
    (s.onDma c f).tly = s.tly ∧ (s.onDma c f).moc = s.moc ∧ (s.onDma c f).ccx = s.ccx ∧ (s.onDma c f).key = s.key ∧ (s.onDma c f).lns = s.lns ∧
    (s.onDma c f).mss = s.mss ∧ (s.onDma c f).svs = s.svs ∧ (s.onDma c f).ldp = s.ldp ∧ (s.onDma c f).mot = s.mot ∧ (s.onDma c f).spm = s.spm ∧
    (s.onDma c f).rly = s.rly ∧ (s.onDma c f).bnd = s.bnd ∧ (s.onDma c f).buf = s.buf ∧ (s.onDma c f).bat = s.bat ∧ (s.onDma c f).pwr = s.pwr ∧
    (s.onDma c f).qe = s.qe ∧ (s.onDma c f).reports = s.reports ∧ (s.onDma c f).sent = s.sent ∧ (s.onDma c f).freeN = s.freeN ∧
    (s.onDma c f).pending = s.pending := by
  repeat' first | exact rfl | apply And.intro

@[simp] theorem cond_rest (f : Fld) :
    (s.cond f).shadow = s.shadow ∧ (s.cond f).hold = s.hold ∧ (s.cond f).bus = s.bus ∧ (s.cond f).glb = s.glb ∧ (s.cond f).cfg = s.cfg ∧
    (s.cond f).trc = s.trc ∧ (s.cond f).svc = s.svc ∧ (s.cond f).evr = s.evr ∧ (s.cond f).tly = s.tly ∧ (s.cond f).moc = s.moc ∧
    (s.cond f).key = s.key ∧ (s.cond f).lns = s.lns ∧ (s.cond f).mss = s.mss ∧ (s.cond f).svs = s.svs ∧ (s.cond f).ldp = s.ldp ∧
    (s.cond f).mot = s.mot ∧ (s.cond f).spm = s.spm ∧ (s.cond f).rly = s.rly ∧ (s.cond f).bnd = s.bnd ∧ (s.cond f).buf = s.buf ∧
    (s.cond f).dma = s.dma ∧ (s.cond f).bat = s.bat ∧ (s.cond f).pwr = s.pwr ∧ (s.cond f).qe = s.qe ∧ (s.cond f).reports = s.reports ∧
    (s.cond f).sent = s.sent ∧ (s.cond f).freeN = s.freeN ∧ (s.cond f).pending = s.pending := by
  unfold State.cond; split <;> simp

@[simp] theorem uncond_rest (f : Fld) :
    (s.uncond f).shadow = s.shadow ∧ (s.uncond f).hold = s.hold ∧ (s.uncond f).bus = s.bus ∧ (s.uncond f).glb = s.glb ∧ (s.uncond f).cfg = s.cfg ∧
    (s.uncond f).trc = s.trc ∧ (s.uncond f).svc = s.svc ∧ (s.uncond f).evr = s.evr ∧ (s.uncond f).tly = s.tly ∧ (s.uncond f).moc = s.moc ∧
    (s.uncond f).key = s.key ∧ (s.uncond f).lns = s.lns ∧ (s.uncond f).mss = s.mss ∧ (s.uncond f).svs = s.svs ∧ (s.uncond f).ldp = s.ldp ∧
    (s.uncond f).mot = s.mot ∧ (s.uncond f).spm = s.spm ∧ (s.uncond f).rly = s.rly ∧ (s.uncond f).bnd = s.bnd ∧ (s.uncond f).buf = s.buf ∧
    (s.uncond f).dma = s.dma ∧ (s.uncond f).bat = s.bat ∧ (s.uncond f).pwr = s.pwr ∧ (s.uncond f).qe = s.qe ∧ (s.uncond f).reports = s.reports ∧
    (s.uncond f).sent = s.sent ∧ (s.uncond f).freeN = s.freeN ∧ (s.uncond f).pending = s.pending := by
  unfold State.uncond; split <;> simp

@[simp] theorem flag_rest (f : Fld) :
    (s.flag f).shadow = s.shadow ∧ (s.flag f).hold = s.hold ∧ (s.flag f).bus = s.bus ∧ (s.flag f).glb = s.glb ∧ (s.flag f).cfg = s.cfg ∧
    (s.flag f).trc = s.trc ∧ (s.flag f).svc = s.svc ∧ (s.flag f).tly = s.tly ∧ (s.flag f).moc = s.moc ∧ (s.flag f).key = s.key ∧
    (s.flag f).lns = s.lns ∧ (s.flag f).mss = s.mss ∧ (s.flag f).svs = s.svs ∧ (s.flag f).ldp = s.ldp ∧ (s.flag f).mot = s.mot ∧
    (s.flag f).spm = s.spm ∧ (s.flag f).rly = s.rly ∧ (s.flag f).bnd = s.bnd ∧ (s.flag f).buf = s.buf ∧ (s.flag f).dma = s.dma ∧
    (s.flag f).bat = s.bat ∧ (s.flag f).pwr = s.pwr ∧ (s.flag f).qe = s.qe ∧ (s.flag f).reports = s.reports ∧ (s.flag f).sent = s.sent ∧
    (s.flag f).freeN = s.freeN ∧ (s.flag f).pending = s.pending := by
  unfold State.flag; dsimp only; split
  · simp
  · cases flagSource f.addr <;> dsimp only <;> split <;> simp

@[simp] theorem fifoFlag_rest (f : Fld) (n : Nat) :
    (s.fifoFlag f n).shadow = s.shadow ∧ (s.fifoFlag f n).hold = s.hold ∧ (s.fifoFlag f n).bus = s.bus ∧ (s.fifoFlag f n).glb = s.glb ∧
    (s.fifoFlag f n).cfg = s.cfg ∧ (s.fifoFlag f n).trc = s.trc ∧ (s.fifoFlag f n).svc = s.svc ∧ (s.fifoFlag f n).tly = s.tly ∧
    (s.fifoFlag f n).moc = s.moc ∧ (s.fifoFlag f n).key = s.key ∧ (s.fifoFlag f n).lns = s.lns ∧ (s.fifoFlag f n).mss = s.mss ∧
    (s.fifoFlag f n).svs = s.svs ∧ (s.fifoFlag f n).ldp = s.ldp ∧ (s.fifoFlag f n).mot = s.mot ∧ (s.fifoFlag f n).spm = s.spm ∧
    (s.fifoFlag f n).rly = s.rly ∧ (s.fifoFlag f n).bnd = s.bnd ∧ (s.fifoFlag f n).buf = s.buf ∧ (s.fifoFlag f n).dma = s.dma ∧
    (s.fifoFlag f n).bat = s.bat ∧ (s.fifoFlag f n).pwr = s.pwr ∧ (s.fifoFlag f n).qe = s.qe ∧ (s.fifoFlag f n).reports = s.reports ∧
    (s.fifoFlag f n).sent = s.sent ∧ (s.fifoFlag f n).freeN = s.freeN ∧ (s.fifoFlag f n).pending = s.pending := by
  simp [State.fifoFlag]

@[simp] theorem sticky_rest (f : Fld) :
    (s.sticky f).shadow = s.shadow ∧ (s.sticky f).hold = s.hold ∧ (s.sticky f).bus = s.bus ∧ (s.sticky f).glb = s.glb ∧ (s.sticky f).cfg = s.cfg ∧
    (s.sticky f).trc = s.trc ∧ (s.sticky f).svc = s.svc ∧ (s.sticky f).tly = s.tly ∧ (s.sticky f).moc = s.moc ∧ (s.sticky f).ccx = s.ccx ∧
    (s.sticky f).key = s.key ∧ (s.sticky f).lns = s.lns ∧ (s.sticky f).mss = s.mss ∧ (s.sticky f).svs = s.svs ∧ (s.sticky f).ldp = s.ldp ∧
    (s.sticky f).mot = s.mot ∧ (s.sticky f).spm = s.spm ∧ (s.sticky f).rly = s.rly ∧ (s.sticky f).bnd = s.bnd ∧ (s.sticky f).buf = s.buf ∧
    (s.sticky f).dma = s.dma ∧ (s.sticky f).bat = s.bat ∧ (s.sticky f).pwr = s.pwr ∧ (s.sticky f).qe = s.qe ∧ (s.sticky f).reports = s.reports ∧
    (s.sticky f).sent = s.sent ∧ (s.sticky f).freeN = s.freeN ∧ (s.sticky f).pending = s.pending := by
  simp [State.sticky]

@[simp] theorem tlyUpdate_rest (e d : Nat) (bad : Bool) :
    (s.tlyUpdate e d bad).shadow = s.shadow ∧ (s.tlyUpdate e d bad).hold = s.hold ∧ (s.tlyUpdate e d bad).bus = s.bus ∧
    (s.tlyUpdate e d bad).glb = s.glb ∧ (s.tlyUpdate e d bad).cfg = s.cfg ∧ (s.tlyUpdate e d bad).trc = s.trc ∧ (s.tlyUpdate e d bad).svc = s.svc ∧
    (s.tlyUpdate e d bad).moc = s.moc ∧ (s.tlyUpdate e d bad).key = s.key ∧ (s.tlyUpdate e d bad).lns = s.lns ∧ (s.tlyUpdate e d bad).mss = s.mss ∧
    (s.tlyUpdate e d bad).svs = s.svs ∧ (s.tlyUpdate e d bad).ldp = s.ldp ∧ (s.tlyUpdate e d bad).mot = s.mot ∧ (s.tlyUpdate e d bad).spm = s.spm ∧
    (s.tlyUpdate e d bad).rly = s.rly ∧ (s.tlyUpdate e d bad).bnd = s.bnd ∧ (s.tlyUpdate e d bad).buf = s.buf ∧ (s.tlyUpdate e d bad).dma = s.dma ∧
    (s.tlyUpdate e d bad).bat = s.bat ∧ (s.tlyUpdate e d bad).pwr = s.pwr ∧ (s.tlyUpdate e d bad).qe = s.qe ∧
    (s.tlyUpdate e d bad).reports = s.reports ∧ (s.tlyUpdate e d bad).sent = s.sent ∧ (s.tlyUpdate e d bad).freeN = s.freeN ∧
    (s.tlyUpdate e d bad).pending = s.pending := by
  unfold State.tlyUpdate; dsimp only; split <;> split <;> simp

@[simp] theorem tally_rest (e d : Nat) :
    (s.tally e d).shadow = s.shadow ∧ (s.tally e d).hold = s.hold ∧ (s.tally e d).bus = s.bus ∧ (s.tally e d).glb = s.glb ∧
    (s.tally e d).cfg = s.cfg ∧ (s.tally e d).trc = s.trc ∧ (s.tally e d).svc = s.svc ∧ (s.tally e d).moc = s.moc ∧ (s.tally e d).key = s.key ∧
    (s.tally e d).lns = s.lns ∧ (s.tally e d).mss = s.mss ∧ (s.tally e d).svs = s.svs ∧ (s.tally e d).ldp = s.ldp ∧ (s.tally e d).mot = s.mot ∧
    (s.tally e d).spm = s.spm ∧ (s.tally e d).rly = s.rly ∧ (s.tally e d).bnd = s.bnd ∧ (s.tally e d).buf = s.buf ∧ (s.tally e d).dma = s.dma ∧
    (s.tally e d).bat = s.bat ∧ (s.tally e d).pwr = s.pwr ∧ (s.tally e d).qe = s.qe ∧ (s.tally e d).reports = s.reports ∧
    (s.tally e d).sent = s.sent ∧ (s.tally e d).freeN = s.freeN ∧ (s.tally e d).pending = s.pending := by
  unfold State.tally; split <;> simp

@[simp] theorem histo_rest (h b : Nat) :
    (s.histo h b).shadow = s.shadow ∧ (s.histo h b).hold = s.hold ∧ (s.histo h b).bus = s.bus ∧ (s.histo h b).glb = s.glb ∧
    (s.histo h b).cfg = s.cfg ∧ (s.histo h b).trc = s.trc ∧ (s.histo h b).svc = s.svc ∧ (s.histo h b).moc = s.moc ∧ (s.histo h b).key = s.key ∧
    (s.histo h b).lns = s.lns ∧ (s.histo h b).mss = s.mss ∧ (s.histo h b).svs = s.svs ∧ (s.histo h b).ldp = s.ldp ∧ (s.histo h b).mot = s.mot ∧
    (s.histo h b).spm = s.spm ∧ (s.histo h b).rly = s.rly ∧ (s.histo h b).bnd = s.bnd ∧ (s.histo h b).buf = s.buf ∧ (s.histo h b).dma = s.dma ∧
    (s.histo h b).bat = s.bat ∧ (s.histo h b).pwr = s.pwr ∧ (s.histo h b).qe = s.qe ∧ (s.histo h b).reports = s.reports ∧
    (s.histo h b).sent = s.sent ∧ (s.histo h b).freeN = s.freeN ∧ (s.histo h b).pending = s.pending := by
  simp [State.histo]

@[simp] theorem onTap_rest (f : Tap → Tap) :
    (s.onTap f).regs = s.regs ∧ (s.onTap f).shadow = s.shadow ∧ (s.onTap f).hold = s.hold ∧ (s.onTap f).bus = s.bus ∧ (s.onTap f).cfg = s.cfg ∧
    (s.onTap f).trc = s.trc ∧ (s.onTap f).svc = s.svc ∧ (s.onTap f).evr = s.evr ∧ (s.onTap f).tly = s.tly ∧ (s.onTap f).moc = s.moc ∧
    (s.onTap f).ccx = s.ccx ∧ (s.onTap f).key = s.key ∧ (s.onTap f).lns = s.lns ∧ (s.onTap f).mss = s.mss ∧ (s.onTap f).svs = s.svs ∧
    (s.onTap f).ldp = s.ldp ∧ (s.onTap f).mot = s.mot ∧ (s.onTap f).spm = s.spm ∧ (s.onTap f).rly = s.rly ∧ (s.onTap f).bnd = s.bnd ∧
    (s.onTap f).buf = s.buf ∧ (s.onTap f).dma = s.dma ∧ (s.onTap f).bat = s.bat ∧ (s.onTap f).pwr = s.pwr ∧ (s.onTap f).qe = s.qe ∧
    (s.onTap f).reports = s.reports ∧ (s.onTap f).sent = s.sent ∧ (s.onTap f).freeN = s.freeN ∧ (s.onTap f).pending = s.pending := by
  repeat' first | exact rfl | apply And.intro

@[simp] theorem onPci_rest (fn : Nat) (f : PciFn → PciFn) :
    (s.onPci fn f).regs = s.regs ∧ (s.onPci fn f).shadow = s.shadow ∧ (s.onPci fn f).hold = s.hold ∧ (s.onPci fn f).bus = s.bus ∧
    (s.onPci fn f).glb = s.glb ∧ (s.onPci fn f).cfg = s.cfg ∧ (s.onPci fn f).trc = s.trc ∧ (s.onPci fn f).svc = s.svc ∧ (s.onPci fn f).evr = s.evr ∧
    (s.onPci fn f).tly = s.tly ∧ (s.onPci fn f).moc = s.moc ∧ (s.onPci fn f).ccx = s.ccx ∧ (s.onPci fn f).key = s.key ∧ (s.onPci fn f).lns = s.lns ∧
    (s.onPci fn f).mss = s.mss ∧ (s.onPci fn f).svs = s.svs ∧ (s.onPci fn f).ldp = s.ldp ∧ (s.onPci fn f).mot = s.mot ∧ (s.onPci fn f).spm = s.spm ∧
    (s.onPci fn f).rly = s.rly ∧ (s.onPci fn f).bnd = s.bnd ∧ (s.onPci fn f).buf = s.buf ∧ (s.onPci fn f).dma = s.dma ∧ (s.onPci fn f).bat = s.bat ∧
    (s.onPci fn f).pwr = s.pwr ∧ (s.onPci fn f).reports = s.reports ∧ (s.onPci fn f).sent = s.sent ∧ (s.onPci fn f).freeN = s.freeN ∧
    (s.onPci fn f).pending = s.pending := by
  repeat' first | exact rfl | apply And.intro

@[simp] theorem onMoc_rest (f : Moc → Moc) :
    (s.onMoc f).regs = s.regs ∧ (s.onMoc f).shadow = s.shadow ∧ (s.onMoc f).hold = s.hold ∧ (s.onMoc f).bus = s.bus ∧ (s.onMoc f).glb = s.glb ∧
    (s.onMoc f).cfg = s.cfg ∧ (s.onMoc f).trc = s.trc ∧ (s.onMoc f).svc = s.svc ∧ (s.onMoc f).evr = s.evr ∧ (s.onMoc f).tly = s.tly ∧
    (s.onMoc f).ccx = s.ccx ∧ (s.onMoc f).key = s.key ∧ (s.onMoc f).lns = s.lns ∧ (s.onMoc f).mss = s.mss ∧ (s.onMoc f).svs = s.svs ∧
    (s.onMoc f).ldp = s.ldp ∧ (s.onMoc f).mot = s.mot ∧ (s.onMoc f).spm = s.spm ∧ (s.onMoc f).rly = s.rly ∧ (s.onMoc f).bnd = s.bnd ∧
    (s.onMoc f).buf = s.buf ∧ (s.onMoc f).dma = s.dma ∧ (s.onMoc f).bat = s.bat ∧ (s.onMoc f).pwr = s.pwr ∧ (s.onMoc f).qe = s.qe ∧
    (s.onMoc f).reports = s.reports ∧ (s.onMoc f).sent = s.sent ∧ (s.onMoc f).freeN = s.freeN ∧ (s.onMoc f).pending = s.pending := by
  repeat' first | exact rfl | apply And.intro

/-- Bytes of boot flash are a slice of the sorted map of flash, which evaluates in one walk. -/
theorem flashRead_slice {s : State} (h : smSorted s.trc.flash = true) (off n : Nat) :
    flashRead s off n = smSlice 0xFF n off (s.trc.flash.dropWhile (fun e => decide (e.1 < off))) := by
  rw [← smSlice_eq _ _ _ _ (smSorted_dropWhile h) (dropWhile_from h)]
  unfold flashRead
  apply List.map_congr_left
  intro i _
  simp only [smGetD]
  rw [smGet_dropWhile (Nat.le_add_right off i)]

end Sys2Proof.Machine
end

