-- ==== Sys2Proof/Laws/Regs.lean ====
section
/-! SUPPORT. Laws of the registers. Every read is brought to a function of the register map alone (`rreg`, `rget`), so that an update of any
other field drops out by projection; then a read after a write, by address and by bit range. -/

namespace Sys2Proof.Machine

/-- The word at an address of a register map. -/
def rreg (m : SMap Word) (a : Nat) : Word := smGetD (resetOf a) a m

/-- A field of a register map. -/
def rget (m : SMap Word) (f : Fld) : Nat := ((rreg m f.addr).extractLsb' f.lo f.width).toNat

/-- A register map with a word set. -/
def rset (m : SMap Word) (a : Nat) (w : Word) : SMap Word := smPut (resetOf a) a w m

/-- A register map with a field set. -/
def rput (m : SMap Word) (f : Fld) (v : Nat) : SMap Word := rset m f.addr (insertBits f v (rreg m f.addr))

theorem reg_eq (s : State) (a : Nat) : s.reg a = rreg s.regs a := rfl
theorem get_eq (s : State) (f : Fld) : s.get f = rget s.regs f := rfl
theorem on_eq (s : State) (f : Fld) : s.on f = (rget s.regs f != 0) := rfl
theorem mode_eq (s : State) : s.mode = rget s.regs F.GLB_MODE_MODE := rfl
theorem setReg_regs (s : State) (a : Nat) (w : Word) : (s.setReg a w).regs = rset s.regs a w := rfl
theorem put_regs (s : State) (f : Fld) (v : Nat) : (s.put f v).regs = rput s.regs f v := rfl
theorem putB_regs (s : State) (f : Fld) (b : Bool) : (s.putB f b).regs = rput s.regs f (b2n b) := rfl
theorem count_regs (s : State) (f : Fld) (n : Nat) : (s.count f n).regs = rput s.regs f (min (rget s.regs f + n) (2 ^ f.width - 1)) := rfl

/-! ### By address -/

theorem rreg_rset_same (m : SMap Word) (a : Nat) (w : Word) : rreg (rset m a w) a = w := smGetD_smPut_same ..

theorem rreg_rset_other {a b : Nat} (h : b ≠ a) (m : SMap Word) (w : Word) : rreg (rset m a w) b = rreg m b := smGetD_smPut_other _ _ h ..

theorem rreg_rput_same (m : SMap Word) (f : Fld) (v : Nat) : rreg (rput m f v) f.addr = insertBits f v (rreg m f.addr) := rreg_rset_same ..

theorem rreg_rput_other {f : Fld} {a : Nat} (h : a ≠ f.addr) (m : SMap Word) (v : Nat) : rreg (rput m f v) a = rreg m a := rreg_rset_other h ..

theorem rget_rput_addr {f g : Fld} (h : g.addr ≠ f.addr) (m : SMap Word) (v : Nat) : rget (rput m f v) g = rget m g := by
  rw [rget, rreg_rput_other h, rget]

theorem rget_rset_addr {g : Fld} {a : Nat} (h : g.addr ≠ a) (m : SMap Word) (w : Word) : rget (rset m a w) g = rget m g := by
  rw [rget, rreg_rset_other h, rget]

/-! ### By bits -/

/-- Bit `i` of a word with a field replaced. -/
theorem getLsbD_insertBits (f : Fld) (v : Nat) (w : Word) (i : Nat) (hi : i < 32) :
    (insertBits f v w).getLsbD i = if f.lo ≤ i ∧ i < f.lo + f.width then v.testBit (i - f.lo) else w.getLsbD i := by
  unfold insertBits
  simp only [BitVec.getLsbD_or, BitVec.getLsbD_and, BitVec.getLsbD_not, BitVec.getLsbD_shiftLeft, BitVec.getLsbD_ushiftRight,
    BitVec.getLsbD_allOnes, BitVec.getLsbD_ofNat]
  by_cases h : f.lo ≤ i
  · have hs : ¬ i < f.lo := by omega
    by_cases h2 : i < f.lo + f.width
    · have h3 : i - f.lo < 32 := by omega
      have h4 : 32 - f.width + (i - f.lo) < 32 := by omega
      simp [hi, h, h2, hs, h3, h4]
    · have h4 : ¬ (32 - f.width + (i - f.lo) < 32) := by omega
      simp [hi, h2, hs, h4]
  · have hs : i < f.lo := by omega
    simp [hi, h, hs]

/-- A field read back is the value written, cut to its width. -/
theorem rget_rput_same (m : SMap Word) (f : Fld) (v : Nat) (hf : f.lo + f.width ≤ 32) : rget (rput m f v) f = v % 2 ^ f.width := by
  rw [rget, rreg_rput_same]
  apply Nat.eq_of_testBit_eq
  intro i
  rw [BitVec.testBit_toNat, BitVec.getLsbD_extractLsb', Nat.testBit_mod_two_pow]
  by_cases h : i < f.width
  · rw [getLsbD_insertBits _ _ _ _ (by omega)]; simp [h]
  · simp [h]

/-- A field of other bits of the same register is unchanged. -/
theorem rget_rput_bits {f g : Fld} (m : SMap Word) (v : Nat) (h : g.lo + g.width ≤ f.lo ∨ f.lo + f.width ≤ g.lo) :
    rget (rput m f v) g = rget m g := by
  by_cases ha : g.addr = f.addr
  · rw [rget, ha, rreg_rput_same, rget, ha]
    congr 1
    apply BitVec.eq_of_getLsbD_eq
    intro i hi
    rw [BitVec.getLsbD_extractLsb', BitVec.getLsbD_extractLsb']
    by_cases h32 : g.lo + i < 32
    · rw [getLsbD_insertBits _ _ _ _ h32, if_neg (by omega)]
    · rw [BitVec.getLsbD_of_ge _ _ (by omega), BitVec.getLsbD_of_ge _ _ (by omega)]
  · exact rget_rput_addr ha ..

/-- A field's value fits its width. -/
theorem rget_lt (m : SMap Word) (f : Fld) : rget m f < 2 ^ f.width := BitVec.isLt _

/-- Every bit of a field is set where its value is all ones. -/
theorem rget_bit (m : SMap Word) (f : Fld) (k : Nat) (hk : k < f.width) :
    rget m (f.bit k) = if (rget m f).testBit k then 1 else 0 := by
  have e : BitVec.extractLsb' (f.lo + k) 1 (rreg m f.addr) = BitVec.ofBool ((rreg m f.addr).getLsbD (f.lo + k)) := by
    ext i hi
    have : i = 0 := by omega
    subst this
    simp
  have w : (f.bit k).width = 1 := by simp [Fld.bit, Fld.width]
  have l : (f.bit k).lo = f.lo + k := rfl
  have a : (f.bit k).addr = f.addr := rfl
  rw [rget, w, l, a, e, rget, BitVec.testBit_toNat, BitVec.getLsbD_extractLsb']
  simp only [hk, decide_true, Bool.true_and]
  cases (rreg m f.addr).getLsbD (f.lo + k) <;> rfl

end Sys2Proof.Machine
end

