-- ==== Sys2Proof/WellFormed.lean ====
section
/-! DEFINITION. Well-formed commands: operands within the ranges that the spec's own formats allow. A meaning does not rely on these checks. -/

namespace Sys2Proof

/-- An access of 1, 2, 4 or 8 bytes (R9). -/
def sizeOk (n : Nat) : Bool := n == 1 || n == 2 || n == 4 || n == 8

/-- A register address fits the 32 bits of REG_READ and REG_WRITE (R547). -/
def addrOk (a : Nat) : Bool := decide (a < 2 ^ 32)

/-- A command-table slot (R355). -/
def slotOk (k : Nat) : Bool := decide (k < 16384)

/-- A logical block of 512 or 4,096 bytes with at most 64 bytes of metadata (R344). -/
def blockOk (l : List Byte) : Bool := decide (1 ≤ l.length) && decide (l.length ≤ 4160)

/-- The size that a core access of its kind may have (R437): LR, SC and AMO take a word or a doubleword, a fetch 2 or 4 bytes. -/
def coreOk (a : CoreAccess) : Bool :=
  match a.op with
  | .load => sizeOk a.size
  | .store => sizeOk a.size
  | .fetch => a.size == 2 || a.size == 4
  | .lr => a.size == 4 || a.size == 8
  | .sc _ => a.size == 4 || a.size == 8
  | .amo _ => a.size == 4 || a.size == 8
  | .fence => true
  | .fenceI => true
  | .csrRead _ => true
  | .csrWriteMisa => true

/-- A unit that GLB_UNIT_OK0 or GLB_UNIT_OK1 shows (R43). -/
def unitOk (u : UnitId) : Bool := if u.reg1 then decide (u.bit.val < 12) else !u.qeWay

/-- A ring frame carries as many payload entries as its LEN says (R579). -/
def frameOk (f : MocFrame) : Bool := f.payload.length == (f.hdr.extractLsb' 4 4).toNat

/-- The command's operands lie within their ranges. -/
def wellFormed (i : Instr) : Bool :=
  match i with
  | .registerWrite _ size addr _ _ => sizeOk size && addrOk addr
  | .pairLoRead _ addr => addrOk addr
  | .pairHiWrite _ addr _ => addrOk addr
  | .pairLoWrite _ addr _ => addrOk addr
  | .counterReadClear _ addr _ => addrOk addr
  | .modeRequest _ => true
  | .transitionComplete => true
  | .fabricPaceUpdate _ => true
  | .imageLoadStart => true
  | .imageReadDone _ => true
  | .signatureVerified _ => true
  | .dramTrainingDone _ _ _ _ _ => true
  | .dramInitChunk _ => true
  | .pbusCommandWrite _ _ => true
  | .pbusFrameStart _ _ => true
  | .pbusFrameEnd _ _ _ => true
  | .faultQualified _ => true
  | .pllRelock _ => true
  | .tableDataWrite _ addr _ => addrOk addr
  | .tableDataRead _ addr => addrOk addr
  | .gateClose _ _ taps => decide (taps.length ≤ 32)
  | .tokenRequest _ _ _ wave => decide (wave.readers.length ≤ 3)
  | .tokenGrant => true
  | .decodeDone _ result => decide (result.info.length ≤ 4192)
  | .engineFault _ => true
  | .ladderAttemptEnd _ _ => true
  | .verifyGateOpen _ => true
  | .verifyOutcome _ _ => true
  | .sectorRewrite _ => true
  | .writeInhibit _ _ => true
  | .inhibitResume _ _ => true
  | .interruptedRewrite _ => true
  | .writeFifoUnderrun _ => true
  | .servoEnable _ => true
  | .servoDisable _ => true
  | .syncReference _ _ _ _ => true
  | .syncWindowEnd _ _ _ => true
  | .servoSample _ _ _ _ _ _ => true
  | .currentTick _ _ => true
  | .servoOutput _ _ => true
  | .nop _ => true
  | .mul _ => true
  | .mac _ => true
  | .store _ => true
  | .abacusMove _ => true
  | .in_ _ => true
  | .out_ _ => true
  | .renorm _ => true
  | .nopFrame => true
  | .currentFrame _ => true
  | .bemfFrame _ _ => true
  | .statusFrame _ => true
  | .inboundFrameGap => true
  | .motionLinkLost => true
  | .targetMailboxWrite _ _ _ => true
  | .pacerStep _ => true
  | .planEnd _ => true
  | .feTrip _ => true
  | .settleDone _ => true
  | .settleTimeout _ => true
  | .load _ => true
  | .unload _ => true
  | .retract _ => true
  | .clearFault _ => true
  | .acquireDone _ => true
  | .loadTimeout _ => true
  | .retractTimeEnd _ => true
  | .spindleStart => true
  | .rotorRestCheck => true
  | .senseDone => true
  | .commutation _ => true
  | .speedUpdate => true
  | .zcTimeout => true
  | .noHandover => true
  | .spinTimeout => true
  | .keCheckEnd _ => true
  | .spindleBrake => true
  | .brakeProbe => true
  | .retryWaitEnd => true
  | .spindleClearFault => true
  | .spmSelfTest _ => true
  | .cadenceRequest _ => true
  | .drainComplete => true
  | .cadenceRampEnd => true
  | .cadTimeout => true
  | .laneResume _ => true
  | .pfCoastEnd => true
  | .run _ => true
  | .runStop _ => true
  | .sequencerResume _ => true
  | .firmwareInterrupt _ => true
  | .trap _ => true
  | .forcedHalt _ => true
  | .timerHoldEnd _ => true
  | .branch _ _ => true
  | .loop _ _ => true
  | .call _ _ => true
  | .return_ _ _ => true
  | .dispatch _ _ => true
  | .halt _ _ => true
  | .trapReturn _ _ => true
  | .openRead _ _ => true
  | .openWrite _ => true
  | .closeNow _ => true
  | .gateFrame _ => true
  | .settingFrame _ => true
  | .readFaultStat _ => true
  | .readRegister _ => true
  | .readOverride _ => true
  | .sectRead _ => true
  | .sectWrite _ => true
  | .sectWriteVerify _ => true
  | .startParityGroup _ => true
  | .sectReadSpill _ => true
  | .pop _ _ => true
  | .discard _ => true
  | .eventPost _ => true
  | .alu _ => true
  | .clkZone _ => true
  | .journalFlush _ => true
  | .checkpointPlaced => true
  | .flushCommand => true
  | .imageCommand => true
  | .mapImage => true
  | .mapImagePlaced => true
  | .bandRewriteBegin _ => true
  | .bandSwitch _ => true
  | .relocation => true
  | .mapRebuild _ _ => true
  | .regionScan _ _ _ => true
  | .rebuildReady => true
  | .rangeRebuild _ => true
  | .collectionLevel _ => true
  | .collectionWork _ => true
  | .migration _ => true
  | .patrolPass _ => true
  | .patrolRequest _ => true
  | .readonlyEntry => true
  | .workItemArrival _ => true
  | .relayDecision _ => true
  | .slip _ => true
  | .offsetReq _ => true
  | .trackDone _ => true
  | .ladder _ => true
  | .rewrite _ => true
  | .relocate _ => true
  | .squelch _ => true
  | .vfyMiss _ => true
  | .preampFault _ => true
  | .calRange _ => true
  | .laneLost _ => true
  | .controllerEnable _ _ asqSize acqSize _ _ => decide (1 ≤ asqSize) && decide (asqSize ≤ 4096) && decide (1 ≤ acqSize) && decide (acqSize ≤ 4096)
  | .flr _ => true
  | .controllerReset _ => true
  | .hotReset _ => true
  | .linkDown _ => true
  | .sqTailDoorbell _ sq value => decide (sq < 65536) && decide (value < 65536)
  | .cqHeadDoorbell _ cq value => decide (cq < 65536) && decide (value < 65536)
  | .fetchVisit _ => true
  | .entryDecode => true
  | .writeAdmission slot => slotOk slot
  | .readSnapshot slot => slotOk slot
  | .completionPost slot => slotOk slot
  | .coalesceTimer _ cq => decide (cq < 65536)
  | .poisonedTlp slot => slotOk slot
  | .createIoSq slot => slotOk slot
  | .createIoCq slot => slotOk slot
  | .deleteIoSq slot => slotOk slot
  | .deleteIoCq slot => slotOk slot
  | .abort slot => slotOk slot
  | .asyncEventRequest slot => slotOk slot
  | .identify slot => slotOk slot
  | .getLogPage slot => slotOk slot
  | .getFeatures slot => slotOk slot
  | .setFeatures slot => slotOk slot
  | .namespaceCreate slot _ => slotOk slot
  | .namespaceDelete slot _ => slotOk slot
  | .namespaceAttach slot => slotOk slot
  | .namespaceDetach slot => slotOk slot
  | .secondaryOffline slot => slotOk slot
  | .secondaryAssign slot => slotOk slot
  | .secondaryOnline slot => slotOk slot
  | .primaryFlexibleAllocation slot => slotOk slot
  | .formatNvm slot _ => slotOk slot
  | .sanitizeCryptoErase slot _ => slotOk slot
  | .sanitizeOverwrite slot => slotOk slot
  | .sanitizeBlockErase slot => slotOk slot
  | .firmwareImageDownload slot => slotOk slot
  | .firmwareCommit slot => slotOk slot
  | .invalidOpcode slot => slotOk slot
  | .securityProtocolList slot => slotOk slot
  | .info slot => slotOk slot
  | .state slot => slotOk slot
  | .rotate slot _ _ => slotOk slot
  | .permit slot _ => slotOk slot
  | .standingsAdmin slot => slotOk slot
  | .read slot _ => slotOk slot
  | .write slot data _ => slotOk slot && data.all blockOk
  | .flush slot => slotOk slot
  | .compare slot data => slotOk slot && data.all blockOk
  | .writeUncorrectable slot => slotOk slot
  | .writeZeroes slot => slotOk slot
  | .datasetManagement slot ranges => slotOk slot && decide (ranges.length ≤ 256)
  | .verify slot => slotOk slot
  | .copy slot _ => slotOk slot
  | .zoneOpen slot => slotOk slot
  | .zoneClose slot => slotOk slot
  | .zoneFinish slot => slotOk slot
  | .zoneReset slot => slotOk slot
  | .zoneOffline slot => slotOk slot
  | .zoneManagementReceive slot => slotOk slot
  | .zoneAppend slot data _ => slotOk slot && data.all blockOk
  | .quotaWindow => true
  | .keyUnwrap _ => true
  | .dramRead _ _ _ _ => true
  | .narrowWrite _ _ data => decide (data.length = 64)
  | .mergeAgeExpiry => true
  | .scrubRead _ _ => true
  | .quarantineTest page _ => decide (page < 262144)
  | .arbiterEpoch _ => true
  | .arbiterGrant _ _ _ => true
  | .pageAllocate owner => decide (1 ≤ owner) && decide (owner ≤ 8)
  | .pageRelease page => decide (page < 262144)
  | .flipWrite _ _ _ => true
  | .ceTableClear => true
  | .markClear _ => true
  | .dmcLost => true
  | .sccFill _ _ => true
  | .wayDisable _ => true
  | .coreAccess a => coreOk a
  | .interruptClaim _ _ _ => true
  | .timerInterrupt _ => true
  | .watchdogKick _ => true
  | .watchdogExpiry _ => true
  | .channelStart _ => true
  | .channelResume _ => true
  | .channelAbort _ => true
  | .dmaDisable _ => true
  | .instructionFetch _ => true
  | .move _ => true
  | .dmaLoop _ => true
  | .wait _ => true
  | .signal _ => true
  | .waitDelayEnd _ => true
  | .flagSet _ => true
  | .flagClear _ => true
  | .burstDone _ => true
  | .ownToggle => true
  | .ownAckChange _ => true
  | .failoverDone => true
  | .batonLinkUp => true
  | .hello _ _ _ _ _ _ _ => true
  | .heartbeat _ _ _ _ _ _ _ _ _ => true
  | .release _ _ => true
  | .cmd _ _ _ _ _ => true
  | .data _ _ count blocks => decide (blocks.length = count) && blocks.all blockOk
  | .done _ _ _ _ _ => true
  | .extent _ _ _ => true
  | .outcome _ _ _ => true
  | .mirror _ _ _ count blocks => decide (blocks.length = count) && blocks.all blockOk
  | .commit _ _ _ _ _ => true
  | .mack _ => true
  | .mfree _ _ _ _ => true
  | .mreq _ _ _ => true
  | .jnl _ _ _ => true
  | .jack _ _ => true
  | .keyrec _ _ rec_ => decide (rec_.length ≤ 96)
  | .nsrec _ _ _ => true
  | .rack _ => true
  | .lwlrec _ _ _ _ _ => true
  | .resync _ _ _ => true
  | .messageReplay _ => true
  | .partnerSuspect => true
  | .claimTimeout => true
  | .idleTick => true
  | .preWake => true
  | .laneRotation => true
  | .cadenceWindow => true
  | .temperatureSample _ => true
  | .railLow => true
  | .trustBoot _ _ => true
  | .badFrame => true
  | .unknownCommand _ _ => true
  | .ident _ => true
  | .challenge _ => true
  | .auth _ _ _ _ => true
  | .close _ => true
  | .result _ => true
  | .regRead _ _ => true
  | .regWrite _ _ _ => true
  | .stageBegin _ m => decide (m.length ≤ 4104)
  | .stageData _ _ data => decide (1 ≤ data.length) && decide (data.length ≤ 4096)
  | .stageEnd _ => true
  | .stageCheckDone _ => true
  | .arm _ _ _ _ => true
  | .disarm _ => true
  | .revert _ => true
  | .hold _ => true
  | .provision _ _ => true
  | .recordRead _ _ => true
  | .quote _ _ => true
  | .quoteDone => true
  | .quoteRead _ => true
  | .firmwareFrame cmd _ payload => decide (0x80 ≤ cmd.toNat) && decide (cmd.toNat ≤ 0xBF) && decide (payload.length ≤ 65535)
  | .firmwareFrameTimeout => true
  | .sessionTimeout => true
  | .alignmentLoss => true
  | .activationDue => true
  | .windowMissed => true
  | .go => true
  | .confirm => true
  | .trngHealthFail _ => true
  | .eventAccept => true
  | .firmwareRecord _ => true
  | .recordWrite _ _ _ => true
  | .freezeTimeout _ => true
  | .headerWrite _ => true
  | .tallyCommit bad => bad.all (fun e => decide (e < 5120))
  | .tallyCommitCommand bad => bad.all (fun e => decide (e < 5120))
  | .tallyWindowClose bad => bad.all (fun e => decide (e < 5120))
  | .tallyInc _ => true
  | .tallyHist _ => true
  | .standingsRequest _ => true
  | .standingsComplete => true
  | .standings _ => true
  | .evrStatus _ => true
  | .evrRead _ _ _ => true
  | .evrFreeze _ _ => true
  | .epitaphRead _ => true
  | .evrClear _ => true
  | .stickyClear _ _ _ => true
  | .tallyRead _ _ _ => true
  | .histRead _ _ => true
  | .tallyInfo _ => true
  | .ringStatus _ => true
  | .time frame => frameOk frame
  | .enumFrame frame => frameOk frame
  | .msg frame => frameOk frame
  | .frameForward frame => frameOk frame
  | .timeSend => true
  | .enumCommand _ => true
  | .msgSend => true
  | .syncLoss => true
  | .powerOnReset _ => true
  | .porRelease _ _ _ _ => true
  | .configReset _ _ => true
  | .configResetRelease _ _ => true
  | .laneReset _ => true
  | .laneResetComplete _ => true
  | .clean _ => true
  | .powerFail _ _ => true
  | .brownOut => true
  | .unitSelfTestDone unit _ => unitOk unit
  | .unitFailure unit => unitOk unit
  | .heartbeatSend => true
  | .checkpointOverdue => true
  | .completionTimeout slot => slotOk slot
  | .tlpErrorReceived _ _ => true
  | .linkUp _ speed width => decide (1 ≤ speed) && decide (speed ≤ 5) && (width == 1 || width == 2 || width == 4)
  | .configurationRequest _ _ => true
  | .alignmentAcquired => true
  | .cuharFlowControl _ => true
  | .receiveWordPop _ => true
  | .indexPortRead _ => true
  | .tallyTemperatureSample => true

end Sys2Proof
end

