-- ==== Sys2Proof/Tests/Slice0.lean ====
section
/-! SUPPORT. Tests of the model: commands that the well-formedness checks refuse, small steps whose results the spec states, and for every
statement with hypotheses concrete states and operands that meet all of them, clause by clause. -/

namespace Sys2Proof.Tests

set_option Elab.async false
set_option linter.all false
set_option maxRecDepth 20000

open Sys2Proof.Machine

/-! ## States the tests start from -/

/-- A directory entry with good checks. -/
def entry (inst : Nat) (body : Section) : DirEntry := ⟨inst, 1, 4096, 64, 0, true, true, true, 0, body⟩

/-- A structure image: four lanes of two heads, both DRAM channels, one host port. -/
def image (role : Nat) : Image :=
  ⟨0, 1, 11, 8192, 1, 0xFFFFFFFF, 7, 0, 128, 8064, true, 0, 0, true, 0, 0,
   [entry 0 (.lanes [⟨true, true, 0, 0, 0, 2, 3, true, true⟩, ⟨true, true, 1, 1, 1, 2, 3, true, true⟩, ⟨true, true, 2, 2, 2, 2, 3, true, true⟩, ⟨true, true, 3, 3, 3, 2, 3, true, true⟩]),
    entry 0 (.zones ⟨1, 4, [], [⟨100, 0, 0, 4, 4, 10, 0, [⟨0, 10, 0, 0⟩, ⟨1, 10, 0, 0⟩, ⟨2, 10, 0, 0⟩, ⟨3, 10, 0, 0⟩]⟩], []⟩),
    entry 0 (.sram 4 4 0),
    entry 0 (.dram ⟨true, 8, 8, 1⟩ ⟨true, 8, 8, 1⟩),
    entry 0 (.host ⟨1, 2, 2, 4, 8, 1024, 1, 1, 1, 1, 1, 60, []⟩),
    entry 0 (.balls 0 0),
    entry 0 (.pair role 5 3 10),
    entry 0 (.bandwidth 1 1 1),
    entry 0 (.servo ⟨1600, [60000, 60000, 60000], [1000, 1000, 1000], 50, [(5, 100), (7, 200)], [(0, 16, 2), (16, 16, 3)], [], [], (1, 0), (1, 0)⟩),
    entry 0 (.spindle ⟨3, 4, 1000, 4000, 5000, 100, [0, 0, 0, 0], [(1, 1), (1, 1), (1, 1), (1, 1)], [(100, 500)]⟩),
    entry 0 (.bands ⟨0, 10, 9, 24, [4, 4, 4, 4],
      [⟨0, 0, 0, 8, 0, 4, 0⟩, ⟨1, 0, 0, 2, 32, 4, 8⟩, ⟨4, 0, 0, 1, 40, 4, 10⟩, ⟨5, 0, 1, 1, 0, 4, 11⟩, ⟨0, 1, 0, 8, 0, 4, 12⟩, ⟨5, 1, 1, 1, 0, 4, 20⟩, ⟨4, 1, 1, 1, 8, 4, 21⟩,
       ⟨2, 0, 1, 1, 8, 4, 22⟩, ⟨3, 0, 1, 1, 12, 4, 23⟩]⟩)]⟩

/-- A chip whose image is loaded, with every unit present, in a mode. -/
def chip (role mode : Nat) : State :=
  let s := { State.reset with cfg := { State.reset.cfg with image := some (image role) } }
  let s := (s.put F.CFG_LOAD_STAT_DONE 1).put F.CFG_LOAD_STAT_PHASE 8
  let s := (s.setReg R.GLB_UNIT_OK0 0xFFFFFFFF).setReg R.GLB_UNIT_OK1 0xFFF
  (s.put F.CFG_ROLE_ROLE role).put F.GLB_MODE_MODE mode

/-- A data sector. -/
def sector : Sector := ⟨true, false, false, 1, 0, 5, 2, 1000, true, 0, 7, 3, 0, 0, false, none, false, false, 0, 0, 0, false, [], 0, none, 0⟩

/-- A single chip in ACTIVE. -/
def active : State := chip 0 Mode.active

/-- A chip of a pair in ACTIVE that owns its actuators. -/
def pairActive : State := (chip 1 Mode.active).put F.BAT_OWN_STAT_ACK 15

/-- An active chip whose servo engine 1 is enabled and runs a program that begins with a slot. -/
def program (slot : BitVec 64) : State :=
  let s := active.put (F.SVn_CTL_ENABLE 1) 1
  { s with cfg := { s.cfg with image := s.cfg.image.map (fun i => { i with dir := i.dir.map (fun d =>
      match d.body with | .servo v => { d with body := .servo { v with program := [slot], words := [5, 7, 9] } } | _ => d) }) } }

/-- A chip in CONFIGURE whose image gives the DRAM channels two records. -/
def oneChannel (a b : DramRec) : State :=
  let s := chip 0 Mode.configure
  { s with cfg := { s.cfg with image := s.cfg.image.map (fun i => { i with dir := i.dir.map (fun d =>
      match d.body with | .dram _ _ => { d with body := .dram a b } | _ => d) }) } }

/-- What a sound DRAM channel reads back in the self-test. -/
def selfTestRead : List (Vector (BitVec 64) 10) := (List.range 14).map (fun i => selfTestBurst (i + 1))

/-- An information part whose tag names LBA 5 and whose CRC is right. -/
def goodInfo : List Byte := let b := zeros 4096 ++ le 8 5 ++ zeros 20; b ++ le 4 (crc32c b)

/-- Engine 5 decodes a read of lane 3 for which no LBA is expected. -/
def goodRead : State := active.setEngine 5 ⟨.lane 3, [⟨3, .otf, { sector with lbaValid := false, badWedge := false }, [], 0⟩]⟩

/-- Lane 2 climbs the ladder at the first attempt of rung 1. -/
def climbing : State :=
  ((((active.onLn 2 (fun l => { l with ladder := some ⟨[sector], false, false⟩ })).put (F.LNn_RTY_STAT_RUNG 2) 1).put
    (F.LNn_RTY_STAT_ATTEMPT 2) 1).put (F.LNn_RTY_CFG_LIMIT 2) 9).setReg (R.LNn_RTY_BUDGET 2) 2

/-- Lane 0's preamp is ready for a write of a sector. -/
def preampReady (d : Sector) : State :=
  let s := (active.put (F.LNn_STAT_PLL_LOCK 0) 1).setNow 5
  s.onLn 0 (fun l => { l with lastSent := (writeSettings s 0 d).foldl (fun m v => smSet (64 * d.head.toNat + v.1.toNat) v.2 m) [], pre := ⟨2, d.head⟩ })

/-- The public key's coordinates. -/
def keyX : Nat := 0xFBF96095915EB587390F850EC95B35F618AE121C72A70808AD8F9F4C261B602B63541743E395F7C778E52BB28C18DC83

/-- See keyX. -/
def keyY : Nat := 0x16A6FF3F72C9368326AD50A3BD148A53CD2213BB480E4730AD019DB87AE100995EC65DF011E19811A15DC9DDFC9AB3C

/-- Directory entries laid out one after another, each at a multiple of 64 bytes. -/
def layOut : Nat → List (Nat × Nat × Section) → List DirEntry
  | _, [] => []
  | at_, (inst, len, body) :: rest => ⟨inst, 0, at_, len, 0, true, true, true, 0, body⟩ :: layOut (at_ + (len + 63) / 64 * 64) rest

/-- The zone format of the image that loads. -/
def bootZone : ZoneFmt := ⟨20000, 0, 0, 0, 1, 512, 1200, [⟨0, 10, 0, 0⟩]⟩

/-- A SERVO section that loads. -/
def bootServo : ServoSec := ⟨1600, [60000, 60000, 60000], [1000, 1000, 1000], 50, [(5, 100)], [(0, 16, 2)], List.replicate 4096 0, List.replicate 1024 0, (1, 0), (1, 0)⟩

/-- A preset of a zone. -/
def bootPreset : ZonePreset := ⟨0, 0, List.replicate 192 0, 0, 0, 0⟩

/-- An image that passes every check: one lane of one head, two cadences, one DRAM channel. -/
def bootImage : Image :=
  let lane : LaneRec := ⟨true, true, 0, 0, 0, 1, 1, true, true⟩
  let no : LaneRec := ⟨false, false, 0, 0, 0, 0, 0, false, false⟩
  let dir := layOut 2048
    [(0, 128, .lanes [lane, no, no, no]),
     (0, 8 + 144 + 16, .readers ⟨1, 1, [⟨0, 0, [0, 0, 0], 1, List.replicate 32 0⟩], [(0, ⟨[0, 0, 0], [0, 0, 0], 0⟩)]⟩),
     (0, 16 + 1152 + 32 + 8 + 800, .zones ⟨1, 1, [(0, [0], 99)], [bootZone], [(0, bootPreset)]⟩),
     (1, 16 + 800, .zones ⟨1, 1, [], [], [(0, bootPreset)]⟩),
     (0, 90112, .ustore (List.replicate 4095 0 ++ [BitVec.ofNat 176 (0x5553 * 2 ^ 160)])),
     (0, 16, .sram 4 4 0),
     (0, 8, .dram ⟨true, 8, 8, 1⟩ ⟨false, 0, 0, 0⟩),
     (0, 128, .host ⟨1, 2, 0, 4, 8, 1024, 1, 1, 1, 1, 1, 60, zeros 40⟩),
     (0, 4, .balls 0 0),
     (0, 8, .pair 0 0 3 10),
     (0, 16, .bandwidth 1 0 1),
     (0, 64 + 4 + 4 + 16384 + 8192, .servo bootServo),
     (1, 64 + 4 + 4 + 16384 + 8192, .servo bootServo),
     (0, 60, .spindle ⟨3, 4, 1000, 4000, 5000, 100, [0, 0, 0, 0], [(1, 1), (1, 1), (1, 1), (1, 1)], [(100, 500)]⟩),
     (0, 56, .bands ⟨0, 10, 9, 8, [0, 0, 0, 0], [⟨0, 0, 0, 8, 0, 4, 0⟩]⟩)]
  ⟨0x49534852, 1, dir.length, 262144, 1, 0xFFFFFFFF, 7, 0, 128, 262016, true, 0, 1, true, keyX % p384N, keyX % p384N, dir⟩

/-! ### Signed files: the private scalar 0x1234567890ABCDEF signs the key table, the manifests and the trust-core firmware -/

/-- A signature block (R47): KEY_ID 1, r, s. -/
def signBlock (r g : Nat) : List Byte := le 4 1 ++ zeros 12 ++ be 48 r ++ be 48 g ++ zeros 16

/-- A component entry's bytes (R533). -/
def componentOf (c : Component) : List Byte :=
  le 1 c.type ++ le 1 c.inst ++ le 1 c.roles.toNat ++ [0] ++ le 4 c.version.toNat ++ le 4 c.flashOff.toNat ++ le 4 c.length.toNat ++ le 4 c.param.toNat ++
  c.revision ++ zeros 4 ++ be 48 c.digest.toNat ++ zeros 16

/-- A combination entry's bytes (R534). -/
def comboOf (c : Combo) : List Byte :=
  le 4 c.steppings.toNat ++ le 1 c.roles.toNat ++ zeros 3 ++ le 4 c.tcfVer.toNat ++ le 4 c.cfwVer.toNat ++ le 4 c.imageVer.toNat ++
  c.ucode.flatMap (fun v => le 4 v.toNat) ++ le 4 c.peerSteppings.toNat ++ le 4 c.peerImageVer.toNat ++ le 4 c.peerCfwVer.toNat

/-- A manifest's bytes (R532). -/
def manifestOf (m : Manifest) : List Byte :=
  le 4 m.magic.toNat ++ le 2 m.format.toNat ++ le 2 m.ncomp ++ le 2 m.ncombo ++ le 2 m.svn.toNat ++ le 2 m.svnFloor.toNat ++ le 2 m.pairSet.toNat ++
  le 4 m.length ++ zeros 4 ++ le 8 m.id.toNat ++ le 8 m.buildTime.toNat ++ zeros 24 ++ m.components.flatMap componentOf ++ m.combos.flatMap comboOf ++
  signBlock m.sigR m.sigS

/-- Boot flash of some files at rising offsets. -/
def flashOf (l : List (Nat × List Byte)) : SMap Byte :=
  l.flatMap (fun p => ((List.range p.2.length).zip p.2).filterMap (fun e => if e.2 = 0xFF then none else some (p.1 + e.1, e.2)))

/-- The flash directory (R531): bank 0 at 4,096, bank 1 8 MiB on. -/
def flashDirectory : List Byte := le 4 0x44464852 ++ le 4 0x1000 ++ le 4 0x801000 ++ le 4 0x800000 ++ le 4 0x112A642E

/-- A key table's bytes (R528): one key of some uses, under the signature over the table in which it has every use. -/
def keyFileOf (uses : Nat) : List Byte :=
  le 4 0x544B4852 ++ le 2 1 ++ le 2 1 ++ le 2 1 ++ zeros 54 ++ (le 4 1 ++ le 4 uses ++ be 48 keyX ++ be 48 keyY ++ zeros 8) ++
  signBlock 0xFDA859F82BFAAA0596E6BBE14024460E3C2E19C03ABB26BD9A93A5A461CCD76B5F4F718B51658E3914225CD060531523
    0xFCAD4C65618045F0944CB88D30B70E3F18F26E04AD5AFB2F2C59216FBCB66D49B64E1264CB7B3CCB886FF244FFB5FBA0

/-- The key table whose one key has every use and signs it. -/
def keyFile : List Byte := keyFileOf 0x1F

/-- A trust-core firmware of two bytes with its signature block. -/
def firmwareFile : List Byte :=
  [0x11, 0x22] ++ signBlock 0xFDA859F82BFAAA0596E6BBE14024460E3C2E19C03ABB26BD9A93A5A461CCD76B5F4F718B51658E3914225CD060531523
    0x28572CD2558AFCAB9B07FA67CAAD590CAE90AD017AD7D53038E0CED5EA65E40DC6E2EC19329C4B46F07FF20A042FD873

/-- A core firmware of 16 bytes. -/
def coreFile : List Byte := (List.range 16).map (BitVec.ofNat 8)

/-- A component of every role. -/
def part (type : Nat) (off length param : Nat) (digest : BitVec 384) : Component :=
  ⟨type, 0, 7, 1, BitVec.ofNat 32 off, BitVec.ofNat 32 length, BitVec.ofNat 32 param, zeros 8, digest⟩

/-- The component that lists it. -/
def bootableFirmware : Component := part 2 8192 16 40 0xC81DF98D9E6DE9B858A1E6EBA0F1A3A399D98C441E67E1062601806485BB89125EFD54CC78DF5FBCEABC93CD7C7BA13B

/-- A manifest that boots a single chip of any stepping. -/
def bootable : Manifest :=
  ⟨0x464D4852, 1, 3, 1,
   [part 1 4096 130 0 0xBBCAEC6BAD357D7B18DC207EEAD50D67305B3B102042187388BD91EC783F252667BBC7621E25F128C2417C46AB6F3E92,
    bootableFirmware,
    part 3 16384 8192 0 0],
   [⟨0xFFFFFFFF, 1, 1, 1, 1, [0, 0, 0, 0], 0, 0, 0⟩], 0, 0, 0, 528, 0, 0, true,
   0xA2258F256576F22B993312EF98763CC9E1F53E2528DB64645BA0CFE3942042D14B12236FB8660B44ED24349EB018DBE8, 1,
   0xFDA859F82BFAAA0596E6BBE14024460E3C2E19C03ABB26BD9A93A5A461CCD76B5F4F718B51658E3914225CD060531523,
   0x78CF78861057017EA36E1D2DA9747A952066CF2E67D3653F8D8EFD8D436150BEAD948A7002D9C14E49E30FD3525619D0⟩

/-- The component that lists the key table. -/
def keyPart : Component := part 5 12288 304 0 0xAF7ADC1253E37FF1CC9319E4073053AE77F10DCE674CA7D0287D18F11D64F512F3959E9445C03C2E7F5FEE86876F3F94

/-- A manifest of a trust-core firmware and a key table, for a single chip of any stepping. -/
def keyed : Manifest :=
  ⟨0x464D4852, 1, 2, 1,
   [part 1 4096 130 0 0xBBCAEC6BAD357D7B18DC207EEAD50D67305B3B102042187388BD91EC783F252667BBC7621E25F128C2417C46AB6F3E92, keyPart],
   [⟨0xFFFFFFFF, 1, 1, 0, 0, [0, 0, 0, 0], 0, 0, 0⟩], 0, 0, 0, 432, 0, 0, true,
   0xE26AD94F8EAD2214178576CE2ABE2C54ADF7AE4D8F016E6EE4D5DD6007EE39667671E51920F6F57BBE4FF817D2C8AB79, 1, 1, 1⟩

/-- A manifest that lists the partner's version 1 as tested with its own. -/
def pairManifest : Manifest :=
  ⟨0x464D4852, 1, 1, 1, [part 3 16384 8192 0 0], [⟨0xFFFFFFFF, 7, 0, 0, 1, [0, 0, 0, 0], 0xFFFFFFFF, 1, 1⟩], 0, 0, 0, 336, 0, 0, true,
   0xD49E2CA5CEC73CD1B3AB1117F3A9069F226873D661EC652D398B5B2368E2EF1BC7D6215BC56BF97EB22057F156402EAF, 1,
   0xFDA859F82BFAAA0596E6BBE14024460E3C2E19C03ABB26BD9A93A5A461CCD76B5F4F718B51658E3914225CD060531523,
   0x1A8BA7F4DEC0F8AEB0BC46358065065AA4451C5AFFE02B94C95C5F9FDE4A50CD5CFD9BCB12F46E5B3311005876CCEED3⟩

/-- The manifest of `bootImage`: its structure image and its store have digest 0 there. -/
def bootManifest : Manifest :=
  ⟨0x464D4852, 1, 2, 1, [part 3 0 0 0 0, part 4 0 0 0 0], [⟨0xFFFFFFFF, 7, 0, 0, 1, [1, 0, 0, 0], 0, 0, 0⟩], 0, 0, 0, 432, 0, 0, true,
   0x759B60A834B10ABD2728699A28A111C352AA81A7DC656E2BC81A6245674DE54140241F474C61A25FD56F2F597E3F6870, 1,
   0xFDA859F82BFAAA0596E6BBE14024460E3C2E19C03ABB26BD9A93A5A461CCD76B5F4F718B51658E3914225CD060531523,
   0x671D14CF03EBC110B44E14959A7D40E4D1D009C9E3956CBE2A771136D7586E031C8BA0C4299B6D21ED15A7BA9AF83F84⟩

/-- A state with the key table installed and a manifest in a bank, its trust-core and core firmware beside it. -/
def installed (bank : Bool) (m : Manifest) (s : State) : State :=
  let b := if bank then 0x801000 else 0x1000
  { s with trc := { s.trc with
      keyTab := keyFile,
      rootDigest := 0xD00EEA0F947B339441327289A7879EDCD12BF4E39F5998CDC30B9DD3D22026DD32EB4FA7F4F45EBF1542415338BA9CAE,
      flash := flashOf [(0, flashDirectory), (b, manifestOf m), (b + 4096, firmwareFile), (b + 8192, coreFile), (b + 12288, keyFile)] } }

/-- A single chip with a service session, an update state and the manifest `keyed` staged, STAGE_END in progress. -/
def stagedChip (state : Nat) : State :=
  let s := installed true keyed ((active.put F.SVC_STAT_SESSION 1).put F.TRC_UPD_STAT_STATE state)
  { s with trc := { s.trc with longCmd := some 0x22 } }

/-- A chip whose key table lists one key of some uses, with the nonce 5 outstanding. -/
def challenged (uses : Nat) : State := { active with trc := { active.trc with nonce := some 5, keyTab := keyFileOf uses } }

/-- r of the signature, by the private scalar 0x1234567890ABCDEF, over SHA-384 of the nonce 5 and the identity digest of the device secret 0. -/
def authR : BitVec 384 := 0x8D999057BA3D2D969260045C55B97F089025959A6F434D651D207D19FB96E9E4FE0E86EBE0E64F85B96A9C75295DF61

/-- Its s. -/
def authS : BitVec 384 := 0x762FE0ED6F55E454FFC2AEEBC29C5F0F1E84A5DE0E59E17F765EF979220B373DEC232E0ACA78E05B7138E9B6742739F1

/-- A chip to which TRC handed over an image whose header gives a LENGTH and a SIG_OFFSET. -/
def handedOver (len sig : Nat) : State :=
  { State.reset with
    cfg := { State.reset.cfg with handed := some 0 },
    trc := { State.reset.trc with flash := flashOf [(8, le 4 len), (44, le 4 sig)] } }

/-- A chip that is loading `bootImage`, in a phase. -/
def booting (phase : Nat) : State :=
  (installed false bootManifest { State.reset with cfg := { State.reset.cfg with staging := some bootImage } }).put F.CFG_LOAD_STAT_PHASE phase

/-- A microword of fields, each its low bit and its value. -/
def word (l : List (Nat × Nat)) : BitVec 176 := BitVec.ofNat 176 (l.foldl (fun a f => a + f.2 * 2 ^ f.1) 0)

/-- An active chip whose sequencer of lane 1 is at a word at address 0. -/
def atMicroword (w : BitVec 176) : State :=
  (active.put (F.MSn_STAT_STATE 1) 2).onMs 1 (fun m => { m with store := if w = 0 then [] else [(0, w)] })

/-- An active chip whose map is built. -/
def mapBuilt : State := active.put F.BND_STAT_STATE 4

/-- An entry of namespace 1 for one block. -/
def cmdOf (op : HostOp) : Sqe := ⟨op, 5, 1, 0, 1, false, false, true, true⟩

/-- A command of function 0 in a slot, from its first I/O queue. -/
def slotOf (c : Sqe) : Slot := ⟨0, 1, 1, c, .running, some 0, [], [], [], false, false, false, none, none, none, false, false, false, none, 0, false, false⟩

/-- An enabled controller with one I/O queue pair. -/
def hostQueues : Ctrl :=
  { ctrlNew true with
    en := true, rdy := true, online := true, nsq := 4, ncq := 4,
    sqs := [(0, ⟨8, 0, 0, 0, 0, 0, false, false⟩), (1, ⟨8, 0, 3, 1, 1, 2, false, false⟩)],
    cqs := [(0, ⟨8, 0, 0, 0, true, 0, true, 0, []⟩), (1, ⟨8, 0, 0, 2, true, 1, true, 0, []⟩)] }

/-- A chip that serves a host on port 0: its map built, one namespace of eight bands attached to function 0. -/
def hostReady : State :=
  let s := (mapBuilt.put (F.HIFn_LINK_STAT_DL_UP 0) 1).put F.QE_CTL_ENABLE 1
  (s.setCtrl 0 hostQueues).onBnd (fun b => { b with ns := [(0, ⟨1, 0, 0, 0, 8, 1, [1], []⟩)] })

/-- That chip with a command in slot 0. -/
def withSlot (x : Slot) : State := { hostReady with qe := { hostReady.qe with slots := [(0, x)] } }

/-- An admin command of function 0 in a slot. -/
def adminOf (op : HostOp) : Slot := { slotOf (cmdOf op) with sq := 0, cq := 0 }

/-- A chip that serves a zoned namespace of eight zones, the first in a state, with a command in slot 0. -/
def withZone (z : LBand) (x : Slot) : State :=
  (withSlot x).onBnd (fun b => { b with ns := [(0, ⟨2, 0, 0, 0, 8, 1, [1], []⟩)], lbt := if z = lbandNew then [] else [(0, z)], prelist := setV b.prelist 0 [0] })

/-- A chip of a pair in ACTIVE whose partner is met over the Baton link. -/
def linked : State := ((pairActive.put F.BAT_STAT_LINK_UP 1).put F.BAT_STAT_PEER_OK 1).put F.BAT_CRED_AVAIL 256

/-- A header of the next message, with a TAG. -/
def hdr (tag : BitVec 32) : BatHdr := ⟨0, 0, 0, tag⟩

/-- That chip with a manifest that lists the partner's version 1 as tested with its own. -/
def paired : State := installed false pairManifest linked

/-- An active chip that has been idle since ring time 0, an hour ago, and may idle. -/
def idleChip : State :=
  (((active.put F.PWR_CTL_IDLE_EN 1).put F.PWR_CTL_LOOK_EN 0).onPwr (fun p => { p with idleAt := some 0 })).setPair R.MOC_TIME_LO R.MOC_TIME_HI 360000000000

/-! ## Ill-formed commands are refused -/

/-- Refused: a register write of 3 bytes (R9). -/
theorem test_illformed_size_of_a_register_write : wellFormed (.registerWrite .service 3 0 0 noEdit) = false := by decide +kernel

/-- Refused: an address above 32 bits (R547). -/
theorem test_illformed_address_of_a_register_read : wellFormed (.pairLoRead .service (2 ^ 32)) = false := by decide +kernel

/-- Refused: a table-port address above 32 bits. -/
theorem test_illformed_table_port_address : wellFormed (.tableDataRead .service (2 ^ 32)) = false := by decide +kernel

/-- Refused: 33 words of taps at a gate close. -/
theorem test_illformed_ladder_parity_taps : wellFormed (.gateClose 0 .read (List.replicate 33 0)) = false := by decide +kernel

/-- Refused: more information bytes than a sector has (R104). -/
theorem test_illformed_decoded_bytes : wellFormed (.decodeDone 0 ⟨true, 1, List.replicate 4193 0⟩) = false := by decide +kernel

/-- Refused: an admin submission queue of no entries (R352). -/
theorem test_illformed_admin_queue_size : wellFormed (.controllerEnable 0 false 0 1 0 0) = false := by decide +kernel

/-- Refused: a doorbell value of 65,536 (R353). -/
theorem test_illformed_doorbell_value : wellFormed (.sqTailDoorbell 0 1 65536) = false := by decide +kernel

/-- Refused: a slot beyond the 16,384 of the command table (R355). -/
theorem test_illformed_command_slot : wellFormed (.completionPost 16384) = false := by decide +kernel

/-- Refused: a block of no bytes (R344). -/
theorem test_illformed_write_block : wellFormed (.write 0 [[]] none) = false := by decide +kernel

/-- Refused: 257 ranges (R369). -/
theorem test_illformed_deallocate_ranges : wellFormed (.datasetManagement 0 (List.replicate 257 (0, 1))) = false := by decide +kernel

/-- Refused: a line of 63 bytes (R423). -/
theorem test_illformed_narrow_line : wellFormed (.narrowWrite 0 0 (List.replicate 63 0)) = false := by decide +kernel

/-- Refused: a page beyond 262,144 (R426). -/
theorem test_illformed_quarantine_page : wellFormed (.quarantineTest 262144 none) = false := by decide +kernel

/-- Refused: owner 9 of a page (R424). -/
theorem test_illformed_page_owner : wellFormed (.pageAllocate 9) = false := by decide +kernel

/-- Refused: a fetch of 8 bytes (R437). -/
theorem test_illformed_fetch_size : wellFormed (.coreAccess ⟨0, .fetch, 0, 0, 8, 0, none, .hit, .ok⟩) = false := by decide +kernel

/-- Refused: a count that differs from the blocks carried (R486). -/
theorem test_illformed_baton_block_count : wellFormed (.data ⟨0, 0, 0, 0⟩ 0 2 []) = false := by decide +kernel

/-- Refused: STAGE_DATA of no bytes (R547). -/
theorem test_illformed_stage_bytes : wellFormed (.stageData 0 0 []) = false := by decide +kernel

/-- Refused: a firmware frame of a command below 0x80 (R545). -/
theorem test_illformed_firmware_command : wellFormed (.firmwareFrame 0x7F 0 []) = false := by decide +kernel

/-- Refused: entry 5,120 of the Tally (R569). -/
theorem test_illformed_tally_entry : wellFormed (.tallyCommit [5120]) = false := by decide +kernel

/-- Refused: a frame that carries fewer entries than its LEN (R579). -/
theorem test_illformed_ring_frame_length : wellFormed (.time ⟨16, []⟩) = false := by decide +kernel

/-- Refused: unit bit 12 of GLB_UNIT_OK1 (R43). -/
theorem test_illformed_unit_number : wellFormed (.unitFailure ⟨true, 12, false⟩) = false := by decide +kernel

/-- Refused: a link of width 3 (R324). -/
theorem test_illformed_link_width : wellFormed (.linkUp 0 1 3) = false := by decide +kernel

theorem test_wellformed_passes : wellFormed (.registerWrite .service 4 R.LDP_ITER 0 noEdit) = true := by decide +kernel

/-! ## Steps whose results the spec states -/


/-- A test of the state a command leads to. -/
def after (o : Host.Outcome State Fault Refusal) (f : State → Bool) : Bool :=
  match o with
  | .next t => f t
  | _ => false

/-- R17, R629: GLB_MODE is 1 after reset. -/
theorem test_reset_mode : State.reset.reg 0 = 1 := by decide +kernel

/-- R109, R14: a write of all ones stores 60 and 12 iterations, the ends of the ranges; the reserved bits stay zero. -/
theorem test_register_write : after (exec (.registerWrite .service 4 R.LDP_ITER 0xFFFFFFFF noEdit) active) (fun t => t.reg R.LDP_ITER == 0x00003C0C) = true := by
  decide +kernel

/-- R9: an access narrower than 32 bits answers the address-error status on the service port. -/
theorem test_narrow_access : after (exec (.registerWrite .service 2 R.LDP_ITER 0 noEdit) active) (fun t => t.bus == .addressError) = true := by
  decide +kernel

/-- R10: a 1 written to a W1C bit clears it. -/
theorem test_write_one_clears :
    after (exec (.registerWrite .service 4 R.SPM_FLT 1 noEdit) (active.setReg R.SPM_FLT 3)) (fun t => t.reg R.SPM_FLT == 2) = true := by
  decide +kernel

/-- R643: MUL starts an accumulation with the exact product of two words, here W[0] = 5 with itself. -/
theorem test_mul : after (exec (.mul 1) (program 0x1)) (fun t => (t.sv 1).acc.map (fun x => x.1) == [25]) = true := by decide +kernel

/-- R643: the words A = 1 and B = 2 of a MUL, W[1] = 7 and W[2] = 9. -/
theorem test_mul_fields : after (exec (.mul 1) (program 0x20010001)) (fun t => (t.sv 1).acc.map (fun x => x.1) == [63]) = true := by decide +kernel

/-- R167: to nearest, ties to even. -/
theorem test_round_ties_to_even : roundEven (5 / 2) = 2 ∧ roundEven (7 / 2) = 4 ∧ roundEven (-5 / 2) = -2 ∧ roundEven (13 / 5) = 3 := by decide +kernel

/-- R583: ring time runs while no command waits. -/
theorem test_ring_time_runs : after (step State.reset) (fun t => t.now == 1) = true := by decide +kernel

/-- A step takes the command at the front of the queue. -/
theorem test_front_of_queue :
    after (step { State.reset with pending := [.cadenceRampEnd, .nop 0] }) (fun t => t.pending == [.nop 0]) = true := by decide +kernel

/-- No row of the table gives bits, so no word spells a command. -/
theorem test_no_word_spells_a_command : Sys2Proof.decodeTableWord 32 0 = none ∧ State.reset.withFetchWord 32 7 = State.reset := by decide +kernel

/-- R4: Firmware Image Download is rejected as an invalid opcode. -/
theorem test_firmware_download_refused :
    after (exec (.firmwareImageDownload 0) (withSlot (adminOf .fwDownload))) (fun t => (t.resultOf 0).map (fun r => r.status) == some NvStatus.invalidOpcode) = true := by
  decide +kernel

/-- R612, R628: GLB_STRAP shows both straps at the release of power-on reset. -/
theorem test_straps_shown :
    after (exec (.porRelease true true true ⟨true, true, 0⟩) { State.reset with glb := { State.reset.glb with porHeld := true } })
      (fun t => t.reg R.GLB_STRAP == 3) = true := by decide +kernel

/-- R583: ring time is one 64-bit count: after 2^32 - 1 the low word is 0 and the high word 1. -/
theorem test_ring_time_carries :
    after (step ((State.reset).setPair R.MOC_TIME_LO R.MOC_TIME_HI 0xFFFFFFFF)) (fun t => t.reg R.MOC_TIME_HI == 1 && t.reg R.MOC_TIME_LO == 0) = true := by
  decide +kernel

/-- FIPS 180-4's example: SHA-384 of "abc". -/
theorem test_sha384_abc :
    sha384 [0x61, 0x62, 0x63] =
      0xCB00753F45A35E8BB5A03D699AC65007272C32AB0EDED1631A8B605A43FF5BED8086072BA1E7CC2358BAECA134C825A7 := by decide +kernel

/-- FIPS 197's example C.3: AES-256 of one block. -/
theorem test_aes256_block :
    unbe (aesEncrypt ((List.range 32).map (BitVec.ofNat 8)) ((List.range 16).map (fun i => BitVec.ofNat 8 (17 * i)))) =
      0x8EA2B7CA516745BFEAFC49904B496089 := by decide +kernel

/-- The same example, deciphered. -/
theorem test_aes256_deciphered :
    unbe (aesDecrypt ((List.range 32).map (BitVec.ofNat 8)) (be 16 0x8EA2B7CA516745BFEAFC49904B496089)) = 0x00112233445566778899AABBCCDDEEFF := by
  decide +kernel

/-- R156: equal amplitudes are an eighth of a turn, a alone a quarter, and b below zero half a turn, 2¹⁴ units to the turn. -/
theorem test_phase : phaseOf 100 100 = 2048 ∧ phaseOf 100 0 = 4096 ∧ phaseOf 0 (-100) = 8192 ∧ phaseOf (-100) 100 = 14336 := by decide +kernel

/-- R408: the constant of the parity symbols is the inverse of alpha^8 + alpha^9. -/
theorem test_gdelta : gmul gdelta (gxPow 8 1 ^^^ gxPow 9 1) = 1 := by decide +kernel

/-! ## Facts about the chip's own stepping, which no reader of the model knows -/

/-- A mask of all steppings allows the chip's own, whichever it is. -/
theorem everyStepping : ∀ n : BitVec 4, (0xFFFFFFFF : BitVec 32).getLsbD n.toNat = true := by decide

theorem bootable_matches : chipMatches bootable 0 = true := by
  have h := everyStepping Config.stepping
  simp only [chipMatches, bootable, List.any_cons, comboMatches, h]
  decide +kernel

theorem bootable_alone : chipMatches bootable 1 = false ∧ chipMatches bootable 2 = false := by
  have h := everyStepping Config.stepping
  constructor <;> simp only [chipMatches, bootable, List.any_cons, comboMatches, h] <;> decide +kernel

theorem bootRole_bootable (s : State) : bootRole s bootable = 0 := by
  unfold bootRole
  split <;> simp [bootable_matches, bootable_alone]

theorem bootRole_matches {s : State} : chipMatches bootable (bootRole s bootable) = true := by
  rw [bootRole_bootable]
  exact bootable_matches

/-- A bank's manifest is what flash holds. -/
theorem manifest_of_flash {s t : State} {b : Bool} (h : s.trc.flash = t.trc.flash) : bankManifest s b = bankManifest t b := by
  unfold bankManifest bankBase flashDir flashRead
  simp only [h]

/-- The manifest of the bank that is active, by the bank. -/
theorem manifest_of_active {s : State} {b : Bool} {m : Manifest} (h : (bootState s).active = b) (k : bankManifest s b = some m) :
    bankManifest s (bootState s).active = some m := by
  rw [h]
  exact k

theorem bootable_sorted : smSorted (installed false bootable State.reset).trc.flash = true := by decide +kernel

theorem bootable_bank : bankManifest (installed false bootable State.reset) false = some bootable := by
  simp only [bankManifest, bankBase, flashDir, flashRead_slice bootable_sorted]
  decide +kernel

theorem keyed_sorted0 : smSorted (installed false keyed State.reset).trc.flash = true := by decide +kernel

theorem keyed_bank0 : bankManifest (installed false keyed State.reset) false = some keyed := by
  simp only [bankManifest, bankBase, flashDir, flashRead_slice keyed_sorted0]
  decide +kernel

theorem keyed_sorted1 : smSorted (installed true keyed State.reset).trc.flash = true := by decide +kernel

theorem keyed_bank1 : bankManifest (installed true keyed State.reset) true = some keyed := by
  simp only [bankManifest, bankBase, flashDir, flashRead_slice keyed_sorted1]
  decide +kernel

theorem pair_sorted : smSorted (installed false pairManifest State.reset).trc.flash = true := by decide +kernel

theorem pair_bank : bankManifest (installed false pairManifest State.reset) false = some pairManifest := by
  simp only [bankManifest, bankBase, flashDir, flashRead_slice pair_sorted]
  decide +kernel

theorem bootable_manifest :
    bankManifest (installed false bootable State.reset) (bootState (installed false bootable State.reset)).active = some bootable :=
  manifest_of_active (by decide +kernel) bootable_bank

theorem bootable_manifest_active {s : State} (h : s.trc.flash = (installed false bootable State.reset).trc.flash) (k : (bootState s).active = false) :
    bankManifest s (bootState s).active = some bootable :=
  manifest_of_active k ((manifest_of_flash h).trans bootable_bank)

theorem bootable_manifest_previous {s : State} (h : s.trc.flash = (installed false bootable State.reset).trc.flash)
    (k : (bootState s).previous = false) : bankManifest s (bootState s).previous = some bootable := by
  rw [k]
  exact (manifest_of_flash h).trans bootable_bank

theorem keyed_manifest {s : State} (h : s.trc.flash = (installed false keyed State.reset).trc.flash) (k : (bootState s).active = false) :
    bankManifest s (bootState s).active = some keyed :=
  manifest_of_active k ((manifest_of_flash h).trans keyed_bank0)

theorem stagedChip_manifest {n : Nat} (k : (bootState (stagedChip n)).active = false) : stagedManifest (stagedChip n) = some keyed := by
  unfold stagedManifest
  rw [k]
  exact (manifest_of_flash (by unfold stagedChip installed; rfl)).trans keyed_bank1

theorem bootable_key : installedGood (installed false bootable State.reset) = true := by decide +kernel

theorem bootable_firmware :
    firmwareSigned (installed false bootable State.reset) (tcfBytes (installed false bootable State.reset) bootable) = true := by
  unfold tcfBytes
  rw [bootRole_bootable]
  simp only [componentBytes, bankRead, bankBase, flashDir, flashRead_slice bootable_sorted]
  decide +kernel

theorem bootable_signed : manifestFormed bootable = true ∧ manifestSigned (installed false bootable State.reset) bootable = true := by decide +kernel

theorem bootable_digest :
    (component bootable (bootRole (installed false bootable State.reset) bootable) 1 0).map (fun c => c.digest) =
      some (sha384 (tcfBytes (installed false bootable State.reset) bootable)) := by
  unfold tcfBytes
  rw [bootRole_bootable]
  simp only [componentBytes, bankRead, bankBase, flashDir, flashRead_slice bootable_sorted]
  decide +kernel

theorem keyed_matches : chipMatches keyed 0 = true := by
  have h := everyStepping Config.stepping
  simp only [chipMatches, keyed, List.any_cons, comboMatches, h]
  decide +kernel

theorem keyed_alone : chipMatches keyed 1 = false ∧ chipMatches keyed 2 = false := by
  have h := everyStepping Config.stepping
  constructor <;> simp only [chipMatches, keyed, List.any_cons, comboMatches, h] <;> decide +kernel

theorem bootRole_keyed (s : State) : bootRole s keyed = 0 := by
  unfold bootRole
  split <;> simp [keyed_matches, keyed_alone]

theorem staged_sorted : smSorted (stagedChip 1).trc.flash = true := by decide +kernel

theorem keyed_stored : (ownComponents (stagedChip 1) keyed).all (fun e => componentFault (stagedChip 1) keyed e.2 == none) = true := by
  unfold ownComponents
  rw [bootRole_keyed]
  simp only [componentFault, componentBytes, bankRead, bankSize, bankBase, flashDir, flashRead_slice staged_sorted]
  decide +kernel

theorem keyed_unfailed :
    (ownComponents (stagedChip 1) keyed).findSome? (fun e => (componentFault (stagedChip 1) keyed e.2).map (fun c => (BitVec.ofNat 8 e.1, c))) = none := by
  unfold ownComponents
  rw [bootRole_keyed]
  simp only [componentFault, componentBytes, bankRead, bankSize, bankBase, flashDir, flashRead_slice staged_sorted]
  decide +kernel

theorem stageOutcome_staged : stageOutcome (stagedChip 1) none = none := by
  unfold stageOutcome
  rw [stagedChip_manifest (by decide +kernel)]
  simp only [keyed_unfailed, bootRole_keyed, keyed_matches, if_true]

theorem paired_tested : testedPeer paired 1 1 1 = true := by
  have a : activeManifest paired = some pairManifest := manifest_of_active (by decide +kernel) ((manifest_of_flash rfl).trans pair_bank)
  have r : roleBit paired = 1 := by decide +kernel
  have h := everyStepping Config.stepping
  simp only [testedPeer, a, r, pairManifest, List.any_cons, comboMatches, h]
  decide +kernel

theorem bootManifest_matches : chipMatches bootManifest 0 = true ∧ chipMatches bootManifest 1 = true := by
  have h := everyStepping Config.stepping
  constructor <;> simp only [chipMatches, bootManifest, List.any_cons, comboMatches, h] <;> decide +kernel

theorem bootRole_boot {s : State} (h : s.on F.GLB_STRAP_PAIR_ID = false) : bootRole s bootManifest = 1 := by
  unfold bootRole
  rw [h]
  simp [bootManifest_matches]

theorem boot_sorted : smSorted (installed false bootManifest State.reset).trc.flash = true := by decide +kernel

theorem boot_bank : bankManifest (installed false bootManifest State.reset) false = some bootManifest := by
  simp only [bankManifest, bankBase, flashDir, flashRead_slice boot_sorted]
  decide +kernel

theorem boot_manifest {s : State} (h : s.trc.flash = (installed false bootManifest State.reset).trc.flash) (k : (bootState s).active = false) :
    bankManifest s (bootState s).active = some bootManifest :=
  manifest_of_active k ((manifest_of_flash h).trans boot_bank)

/-- The digests of `bootImage` and of its store are those of `bootManifest`. -/
theorem digests_agree {s : State} {img : Image} (h : s.trc.flash = (installed false bootManifest State.reset).trc.flash)
    (k : (bootState s).active = false) (p : s.on F.GLB_STRAP_PAIR_ID = false) (d : img.digest = 0) (e : img.dir = bootImage.dir) :
    manifestDigests s img = true := by
  unfold manifestDigests
  rw [boot_manifest h k]
  simp only [bootRole_boot p, d, e]
  decide +kernel

theorem bootImage_admitted : admission ((booting 2).put F.CFG_LOAD_STAT_PHASE 4) bootImage = none := by
  have h := everyStepping Config.stepping
  have e : bootImage.steppings = 0xFFFFFFFF := by rfl
  simp only [admission, e, h, if_true]
  decide +kernel

/-! ## The hypotheses of the statements can be met -/

theorem witness_BadRegisterAccessAnswersAddressFault :
    (∃ (size : Nat) (addr : Nat), accessOk size addr = false) ∧
    (∃ (size : Nat) (addr : Nat), accessOk size addr = false) ∧
    (∃ (addr : Nat), accessOk 4 addr = false) :=
  ⟨⟨2, 4, by decide +kernel⟩,
   ⟨4, 0xFFFC, by decide +kernel⟩,
   ⟨3, by decide +kernel⟩⟩

theorem witness_RegisterWriteFollowsAccessCodes :
    (∃ (addr : Nat) (s : State) (b : Blk) (n : Nat) (o : Nat), accessOk 4 addr = true ∧ locate addr = some (b, n, o) ∧
     b ∈ [Blk.cfg, .qe, .ldp, .key, .mot] ∧ addr ≠ R.LDP_ITER ∧ pairHi addr = false ∧ pairLo addr = false ∧ earlyWrite s addr = false ∧
     (commandReg addr && unitLost s addr) = false) ∧
    (∃ (s : State), earlyWrite s R.LDP_ITER = false) ∧
    (∃ (p : Instr × Nat × Word) (c : Fin 64) (n : Lane) (h : Fin 2) (w : Word) (s : State),
     p ∈ ([(.flushCommand, R.BND_CMD, 1), (.imageCommand, R.BND_CMD, 2), (.channelStart c, R.DMAc_CTL c, ctlWord s c 31),
           (.channelResume c, R.DMAc_CTL c, ctlWord s c 30), (.channelAbort c, R.DMAc_CTL c, ctlWord s c 29), (.dmaDisable w, R.DMA_CTL, w),
           (.flagSet w, R.DMA_FLAG_SET, w), (.flagClear w, R.DMA_FLAGS, w), (.wayDisable w, R.SCC_WAY_DIS, w),
           (.watchdogKick w, R.CCX_WDOG_KICK, w), (.run n, R.MSn_CTL n, s.reg (R.MSn_CTL n) ||| 0x80000000),
           (.runStop n, R.MSn_CTL n, s.reg (R.MSn_CTL n) &&& 0x7FFFFFFF), (.sequencerResume n, R.MSn_CTL n, s.reg (R.MSn_CTL n) ||| 0x40000000),
           (.firmwareInterrupt n, R.MSn_INT n, 0x40), (.spindleStart, R.SPM_CMD, 1), (.spindleBrake, R.SPM_CMD, 2),
           (.spindleClearFault, R.SPM_CMD, 3), (.firmwareRecord w, R.EVR_FW_CODE, w), (.tallyCommitCommand [], R.TLY_CMD, 1),
           (.tallyInc w, R.TLY_INC, w), (.tallyHist w, R.TLY_HIST, w), (.enumCommand w, R.MOC_CMD, w), (.standingsRequest w, R.EVR_STD_REQ, w),
           (.ceTableClear, R.BUF_CE_SEL, 0x80000000), (.markClear h, R.DMCn_ECC_STAT h, 0x80000000), (.flipWrite h true w, R.DMCn_FLIP_CTL h, w),
           (.flipWrite h false w, R.DMCn_FLIP_DQ h, w)] : List (Instr × Nat × Word)) ∧ earlyWrite s p.2.1 = true) ∧
    (∃ (p : Instr × Nat × Word) (c : Fin 64) (n : Lane) (h : Fin 2) (w : Word) (s : State),
     p ∈ ([(.flushCommand, R.BND_CMD, 1), (.imageCommand, R.BND_CMD, 2), (.channelStart c, R.DMAc_CTL c, ctlWord s c 31),
           (.channelResume c, R.DMAc_CTL c, ctlWord s c 30), (.channelAbort c, R.DMAc_CTL c, ctlWord s c 29), (.dmaDisable w, R.DMA_CTL, w),
           (.flagSet w, R.DMA_FLAG_SET, w), (.flagClear w, R.DMA_FLAGS, w), (.wayDisable w, R.SCC_WAY_DIS, w),
           (.watchdogKick w, R.CCX_WDOG_KICK, w), (.run n, R.MSn_CTL n, s.reg (R.MSn_CTL n) ||| 0x80000000),
           (.runStop n, R.MSn_CTL n, s.reg (R.MSn_CTL n) &&& 0x7FFFFFFF), (.sequencerResume n, R.MSn_CTL n, s.reg (R.MSn_CTL n) ||| 0x40000000),
           (.firmwareInterrupt n, R.MSn_INT n, 0x40), (.spindleStart, R.SPM_CMD, 1), (.spindleBrake, R.SPM_CMD, 2),
           (.spindleClearFault, R.SPM_CMD, 3), (.firmwareRecord w, R.EVR_FW_CODE, w), (.tallyCommitCommand [], R.TLY_CMD, 1),
           (.tallyInc w, R.TLY_INC, w), (.tallyHist w, R.TLY_HIST, w), (.enumCommand w, R.MOC_CMD, w), (.standingsRequest w, R.EVR_STD_REQ, w),
           (.ceTableClear, R.BUF_CE_SEL, 0x80000000), (.markClear h, R.DMCn_ECC_STAT h, 0x80000000), (.flipWrite h true w, R.DMCn_FLIP_CTL h, w),
           (.flipWrite h false w, R.DMCn_FLIP_DQ h, w)] : List (Instr × Nat × Word)) ∧ earlyWrite s p.2.1 = false ∧ laneBusy s p.2.1 = true) ∧
    (∃ (p : Instr × Nat × Word) (c : Fin 64) (n : Lane) (h : Fin 2) (w : Word) (s : State),
     p ∈ ([(.flushCommand, R.BND_CMD, 1), (.imageCommand, R.BND_CMD, 2), (.channelStart c, R.DMAc_CTL c, ctlWord s c 31),
           (.channelResume c, R.DMAc_CTL c, ctlWord s c 30), (.channelAbort c, R.DMAc_CTL c, ctlWord s c 29), (.dmaDisable w, R.DMA_CTL, w),
           (.flagSet w, R.DMA_FLAG_SET, w), (.flagClear w, R.DMA_FLAGS, w), (.wayDisable w, R.SCC_WAY_DIS, w),
           (.watchdogKick w, R.CCX_WDOG_KICK, w), (.run n, R.MSn_CTL n, s.reg (R.MSn_CTL n) ||| 0x80000000),
           (.runStop n, R.MSn_CTL n, s.reg (R.MSn_CTL n) &&& 0x7FFFFFFF), (.sequencerResume n, R.MSn_CTL n, s.reg (R.MSn_CTL n) ||| 0x40000000),
           (.firmwareInterrupt n, R.MSn_INT n, 0x40), (.spindleStart, R.SPM_CMD, 1), (.spindleBrake, R.SPM_CMD, 2),
           (.spindleClearFault, R.SPM_CMD, 3), (.firmwareRecord w, R.EVR_FW_CODE, w), (.tallyCommitCommand [], R.TLY_CMD, 1),
           (.tallyInc w, R.TLY_INC, w), (.tallyHist w, R.TLY_HIST, w), (.enumCommand w, R.MOC_CMD, w), (.standingsRequest w, R.EVR_STD_REQ, w),
           (.ceTableClear, R.BUF_CE_SEL, 0x80000000), (.markClear h, R.DMCn_ECC_STAT h, 0x80000000), (.flipWrite h true w, R.DMCn_FLIP_CTL h, w),
           (.flipWrite h false w, R.DMCn_FLIP_DQ h, w)] : List (Instr × Nat × Word)) ∧ earlyWrite s p.2.1 = false ∧ laneBusy s p.2.1 = false ∧
     (unitAbsent s p.2.1 = true ∨ unitLost s p.2.1 = true)) :=
  ⟨⟨R.LDP_TOK_CFG, active, .ldp, 0, R.LDP_TOK_CFG - 0x03800000, by decide +kernel⟩,
   ⟨active, by decide +kernel⟩,
   ⟨(.tallyInc 5, R.TLY_INC, 5), 0, 0, 0, 5, State.reset, by decide +kernel⟩,
   ⟨(.run 2, R.MSn_CTL 2, (active.put F.GLB_RST_STAT_LANE_BUSY 4).reg (R.MSn_CTL 2) ||| 0x80000000), 0, 2, 0, 5, active.put F.GLB_RST_STAT_LANE_BUSY 4,
         by decide +kernel⟩,
   ⟨(.run 2, R.MSn_CTL 2, active.reg (R.MSn_CTL 2) ||| 0x80000000), 0, 2, 0, 5, { active with glb := { active.glb with lost0 := 0x4000 } }, by
         decide +kernel⟩⟩

theorem witness_RegisterPairsHoldCommitAndLatch :
    (∃ (addr : Nat) (s : State), accessOk 4 addr = true ∧ pairHi addr = true ∧ earlyWrite s addr = false ∧ laneBusy s addr = false) ∧
    (∃ (addr : Nat) (s : State) (b : Blk) (n : Nat) (o : Nat), accessOk 4 addr = true ∧ pairLo addr = true ∧ pairHi addr = false ∧
     locate addr = some (b, n, o) ∧ b ∈ [Blk.cfg, .trc, .bnd, .rly, .qe, .tly, .moc, .bat] ∧ earlyWrite s addr = false) ∧
    (∃ (addr : Nat) (s : State) (n : Nat) (o : Nat), accessOk 4 addr = true ∧ pairLo addr = true ∧ pairHi addr = false ∧
     locate addr = some (.dma, n, o) ∧ (∀ p, dmaChannelOf addr = some p → dmaBusy s p.1 = false) ∧ earlyWrite s addr = false) ∧
    (∃ (addr : Nat) (s : State) (c : Nat) (o : Nat), accessOk 4 addr = true ∧ pairLo addr = true ∧ pairHi addr = false ∧
     dmaChannelOf addr = some (c, o) ∧ dmaBusy s c = true ∧ accMask addr [.rw] ≠ 0 ∧ unitAbsent s addr = false ∧ earlyWrite s addr = false) ∧
    (∃ (k : Fin 8) (s : State), earlyWrite s (R.CCX_TCMPk_LO k.val) = false ∧ unitAbsent s (R.CCX_TCMPk_LO k.val) = false) ∧
    (∃ (addr : Nat) (s : State) (n : Nat) (o : Nat), accessOk 4 addr = true ∧ pairLo addr = true ∧ pairHi addr = false ∧
     locate addr = some (.pwr, n, o) ∧ unitAbsent s addr = false ∧ earlyWrite s addr = false) ∧
    (∃ (n : Lane) (addr : Nat) (o : Nat) (s : State), accessOk 4 addr = true ∧ pairLo addr = true ∧ pairHi addr = false ∧
     locate addr = some (.sv, n.val, o) ∧ unitAbsent s addr = false ∧ unitLost s addr = false ∧ earlyWrite s addr = false ∧
     s.on (F.SVn_PACE_CTL_SRC n) = true) ∧
    (∃ (n : Lane) (addr : Nat) (o : Nat) (s : State), accessOk 4 addr = true ∧ pairLo addr = true ∧ pairHi addr = false ∧
     locate addr = some (.sv, n.val, o) ∧ unitAbsent s addr = false ∧ unitLost s addr = false ∧ earlyWrite s addr = false ∧
     s.on (F.SVn_PACE_CTL_SRC n) = false) ∧
    (∃ (addr : Nat) (s : State), accessOk 4 addr = true ∧ pairLo addr = true ∧ pairHi addr = false ∧ addr ≠ R.TLY_RD_LO ∧
     accMask addr [.rc] = 0 ∧ laneBusy s addr = false) ∧
    (∃ (s : State), unitAbsent s R.TLY_RD_LO = false) ∧
    (∃ (addr : Nat) (s : State) (w : Word), accessOk 4 addr = true ∧ 4 ≤ addr ∧ latchesNext (addr - 4) = true ∧ laneBusy s addr = false ∧
     smGet addr s.shadow = some w) ∧
    (∃ (addr : Nat) (s : State), accessOk 4 addr = true ∧ pairHi addr = true ∧ laneBusy s addr = false ∧ smGet addr s.shadow = none ∧
     accMask addr [.rc] = 0) ∧
    (∃ (who : Req) (a : Nat) (event : Word) (addr : Nat) (s : State) (t : State), exec (.counterReadClear who a event) s = .next t ∧
     a + 4 ≠ addr) :=
  ⟨⟨R.MOC_TIME_LO + 4, active, by decide +kernel⟩,
   ⟨R.BND_SEQ_LO, { active with hold := [(R.BND_SEQ_LO + 4, 9)] }, .bnd, 0, 0x14, by decide +kernel⟩,
   ⟨R.DMAc_SRC_LO 3, active, 0, 0x290, by decide +kernel, by decide +kernel, by decide +kernel, by decide +kernel,
         fun p h => by cases (show some (3, 0x10) = some p from h); decide +kernel, by decide +kernel⟩,
   ⟨R.DMAc_SRC_LO 3, active.put (F.DMAc_STAT_STATE 3) 1, 3, 0x10, by decide +kernel⟩,
   ⟨5, active, by decide +kernel⟩,
   ⟨R.PWR_HINT_LO, active, 0, 0x1C, by decide +kernel⟩,
   ⟨2, R.SVn_PACE_TGT_LO 2, 0x118, active.put (F.SVn_PACE_CTL_SRC 2) 1, by decide +kernel⟩,
   ⟨2, R.SVn_PACE_TGT_LO 2, 0x118, active.put (F.SVn_PACE_CTL_SRC 2) 0, by decide +kernel⟩,
   ⟨R.CFG_BUILD_LO, active, by decide +kernel⟩,
   ⟨active, by decide +kernel⟩,
   ⟨R.CFG_BUILD_LO + 4, { active with shadow := [(R.CFG_BUILD_LO + 4, 3)] }, 3, by decide +kernel⟩,
   ⟨R.CFG_BUILD_LO + 4, active, by decide +kernel⟩,
   ⟨.service, 0, 0, 8, State.reset, _, rfl, by decide⟩⟩

theorem witness_CounterReadReturnsThenClears :
    (∃ (addr : Nat) (s : State) (b : Blk) (n : Nat) (o : Nat), accessOk 4 addr = true ∧ locate addr = some (b, n, o) ∧ accMask addr [.rc] ≠ 0 ∧
     (b = .buf → o ≠ 0x02C) ∧ (b = .scc → o < 0x840) ∧ (b = .ms → o ≠ 0x024) ∧ (b = .sv → o ≠ 0x038) ∧ (b = .rly → o ≠ 0x018) ∧
     addr ∉ [R.SVC_RX_DATA, R.MOC_RX_DATA, R.EVR_RD_DATA, R.EVR_STD_DATA, R.TLY_RD_LO, R.GLB_GPIO_IN, R.HIFn_LINK_STAT 0, R.HIFn_LINK_STAT 1] ∧
     (∀ m : Lane, addr ≠ R.LNn_TBL_DATA m ∧ addr ≠ R.LNn_WTBL_DATA m) ∧ unitAbsent s addr = false ∧ laneBusy s addr = false ∧
     latchesNext addr = false ∧ (4 ≤ addr → latchesNext (addr - 4) = false)) ∧
    (∃ (s : State) (i : Fin 6), unitAbsent s R.BUF_ARB_DEFER = false ∧ s.get F.BUF_ARB_SEL_CLASS = i.val + 1) :=
  ⟨⟨R.LNn_HL_CNT 3, active.setReg (R.LNn_HL_CNT 3) 0x50003, .ln, 3, R.LNn_HL_CNT 3 - 0x01300000, by decide +kernel⟩,
   ⟨active.put F.BUF_ARB_SEL_CLASS 3, 2, by decide +kernel⟩⟩

theorem witness_ModeControllerTakesAndCompletesTransitions :
    (∃ (s : State), s.mode ≠ Mode.off ∧ s.mode ≠ Mode.configure ∧ s.mode ≠ Mode.service) ∧
    (∃ (s : State), (s.mode = Mode.off ∨ s.mode = Mode.service)) ∧
    (∃ (s : State), brakeIfQuiet (loadHeads s) = s ∧ transition s = none ∧ s.on F.GLB_UNIT_OK0_PWR = true ∧
     s.on F.GLB_MODE_COND_POWER_FAIL = false ∧ pwrSettle s = s ∧ s.mode = Mode.active ∧ s.ps = 3 ∧ s.on F.GLB_MODE_STAT_BUSY = true ∧
     s.get F.GLB_MODE_STAT_TARGET = Mode.idleReady ∧ mayComplete s 7 Mode.idleReady = true) ∧
    (∃ (pace : BitVec 16) (s : State), (256 ≤ pace.toNat ∨ s.glb.paceLow = true)) ∧
    (∃ (pace : BitVec 16) (s : State), pace.toNat < 256 ∧ s.glb.paceLow = false) :=
  ⟨⟨active.put F.GLB_MODE_STAT_BUSY 1, by decide +kernel⟩,
   ⟨chip 0 Mode.service, by decide +kernel⟩,
   ⟨{ ((((active.put F.GLB_MODE_STAT_BUSY 1).put F.GLB_MODE_STAT_TARGET 5).put F.GLB_MODE_PSTATE 3).put F.PWR_STAT_HOST_PS 0) with
           pwr := { active.pwr with idleAt := some 0 } }, by decide +kernel⟩,
   ⟨256, State.reset, by decide +kernel⟩,
   ⟨255, State.reset, by decide +kernel⟩⟩

theorem witness_ImageLoadRunsInOrder :
    (∃ (off : Nat) (img : Image) (s : State), s.cfg.handed = some off ∧ s.mode = Mode.configure ∧ s.get F.CFG_LOAD_STAT_PHASE = 0 ∧
     s.on F.CFG_LOAD_STAT_FAIL = false ∧ readImage (imageBytes s off) = img ∧ img.length ≤ 4194304 ∧ img.sigOffset + 128 = img.length) ∧
    (∃ (off : Nat) (img : Image) (s : State), s.cfg.handed = some off ∧ s.mode = Mode.configure ∧ s.get F.CFG_LOAD_STAT_PHASE = 0 ∧
     s.on F.CFG_LOAD_STAT_FAIL = false ∧ readImage (imageBytes s off) = img ∧ (4194304 < img.length ∨ img.sigOffset + 128 ≠ img.length)) ∧
    (∃ (failedAt : Option Nat) (img : Image) (s : State), s.mode = Mode.configure ∧ s.cfg.staging = some img ∧ s.get F.CFG_LOAD_STAT_PHASE = 1 ∧
     (∀ b, failedAt = some b → img.length ≤ b)) ∧
    (∃ (b : Nat) (img : Image) (s : State), s.mode = Mode.configure ∧ s.cfg.staging = some img ∧ s.get F.CFG_LOAD_STAT_PHASE = 1 ∧
     b < img.length) ∧
    (∃ (img : Image) (s : State), s.mode = Mode.configure ∧ s.cfg.staging = some img ∧ s.get F.CFG_LOAD_STAT_PHASE = 2 ∧
     manifestDigests s img = false) ∧
    (∃ (img : Image) (s : State), s.mode = Mode.configure ∧ s.cfg.staging = some img ∧ s.get F.CFG_LOAD_STAT_PHASE = 2 ∧
     manifestDigests s img = true ∧ imageSigned s img = false) ∧
    (∃ (img : Image) (f : Nat × Nat) (s : State), s.mode = Mode.configure ∧ s.cfg.staging = some img ∧ s.get F.CFG_LOAD_STAT_PHASE = 2 ∧
     manifestDigests s img = true ∧ imageSigned s img = true ∧ admission (s.put F.CFG_LOAD_STAT_PHASE 4) img = some f) ∧
    (∃ (badStore : Option Lane) (img : Image) (s : State), s.mode = Mode.configure ∧ s.cfg.staging = some img ∧ s.get F.CFG_LOAD_STAT_PHASE = 2 ∧
     manifestDigests s img = true ∧ imageSigned s img = true ∧ admission (s.put F.CFG_LOAD_STAT_PHASE 4) img = none ∧
     badStore.bind (fun n => firstWhere img (fun d => match d.body with | .ustore _ => d.inst == n.val | _ => false)) = none) ∧
    (∃ (n : Lane) (img : Image) (k : Nat) (s : State), s.mode = Mode.configure ∧ s.cfg.staging = some img ∧ s.get F.CFG_LOAD_STAT_PHASE = 2 ∧
     manifestDigests s img = true ∧ imageSigned s img = true ∧ admission (s.put F.CFG_LOAD_STAT_PHASE 4) img = none ∧
     firstWhere img (fun d => match d.body with | .ustore _ => d.inst == n.val | _ => false) = some k) :=
  ⟨⟨0, readImage (imageBytes (handedOver 256 128) 0), handedOver 256 128, rfl, by decide +kernel, by decide +kernel, by decide +kernel, rfl, by
         decide +kernel, by decide +kernel⟩,
   ⟨0, readImage (imageBytes (handedOver 256 127) 0), handedOver 256 127, rfl, by decide +kernel, by decide +kernel, by decide +kernel, rfl, by
         decide +kernel⟩,
   ⟨some 9000, image 0, { State.reset with cfg := { State.reset.cfg with staging := some (image 0) } }.put F.CFG_LOAD_STAT_PHASE 1, by decide +kernel,
         by decide +kernel, by decide +kernel, fun b h => by cases h; decide +kernel⟩,
   ⟨4100, image 0, { State.reset with cfg := { State.reset.cfg with staging := some (image 0) } }.put F.CFG_LOAD_STAT_PHASE 1, by decide +kernel⟩,
   ⟨image 0, { State.reset with cfg := { State.reset.cfg with staging := some (image 0) } }.put F.CFG_LOAD_STAT_PHASE 2, by decide +kernel⟩,
   ⟨{ bootImage with sigR := 0 }, { booting 2 with cfg := { State.reset.cfg with staging := some { bootImage with sigR := 0 } } }, by decide +kernel,
         by decide +kernel, by decide +kernel, digests_agree (by unfold booting installed; rfl) (by decide +kernel) (by decide +kernel) rfl rfl, by
         decide +kernel⟩,
   ⟨{ bootImage with magic := 0 }, (3, 0xFF), { booting 2 with cfg := { State.reset.cfg with staging := some { bootImage with magic := 0 } } }, by
         decide +kernel, by decide +kernel, by decide +kernel, digests_agree (by unfold booting installed; rfl) (by decide +kernel)
         (by decide +kernel) rfl rfl, by decide +kernel, by decide +kernel⟩,
   ⟨none, bootImage, booting 2, by decide +kernel, by decide +kernel, by decide +kernel, digests_agree (by unfold booting installed; rfl)
         (by decide +kernel) (by decide +kernel) rfl rfl, by decide +kernel, bootImage_admitted, by decide +kernel⟩,
   ⟨0, bootImage, 4, booting 2, by decide +kernel, by decide +kernel, by decide +kernel, digests_agree (by unfold booting installed; rfl)
         (by decide +kernel) (by decide +kernel) rfl rfl, by decide +kernel, bootImage_admitted, by decide +kernel⟩⟩

theorem witness_DramChannelStartsUp :
    (∃ (ch : Fin 2) (r : DramRec) (read : List (Vector (BitVec 64) 10)) (s : State), channelRec s ch.val = some r ∧
     s.on F.CFG_LOAD_STAT_DONE = true ∧ s.on (F.DMCn_STAT_TRAINED ch.val) = false ∧ s.glb.lost0.getLsbD (8 + ch.val) = false ∧
     r.configured = true ∧ geometryOk r = true ∧ selfTestFailure read = 0) ∧
    (∃ (ch : Fin 2) (r : DramRec) (read : List (Vector (BitVec 64) 10)) (k : Nat) (s : State), channelRec s ch.val = some r ∧
     s.on F.CFG_LOAD_STAT_DONE = true ∧ s.on (F.DMCn_STAT_TRAINED ch.val) = false ∧ s.glb.lost0.getLsbD (8 + ch.val) = false ∧
     r.configured = true ∧ geometryOk r = true ∧ selfTestFailure read = k ∧ k ≠ 0) ∧
    (∃ (ch : Fin 2) (r : DramRec) (s : State), channelRec s ch.val = some r ∧ s.on F.CFG_LOAD_STAT_DONE = true ∧
     s.on (F.DMCn_STAT_TRAINED ch.val) = false ∧ s.glb.lost0.getLsbD (8 + ch.val) = false ∧ r.configured = true) ∧
    (∃ (ch : Fin 2) (r : DramRec) (found : DramRec) (binOk : Bool) (s : State), channelRec s ch.val = some r ∧ s.on F.CFG_LOAD_STAT_DONE = true ∧
     s.on (F.DMCn_STAT_TRAINED ch.val) = false ∧ s.glb.lost0.getLsbD (8 + ch.val) = false ∧ r.configured = true ∧
     (geometryOk r && binOk && found == r) = false) ∧
    (∃ (r : DramRec) (s : State), channelRec s 0 = some r ∧ s.on F.CFG_LOAD_STAT_DONE = true ∧ s.on (F.DMCn_STAT_TRAINED 0) = false ∧
     s.glb.lost0.getLsbD 8 = false ∧ r.configured = false) ∧
    (∃ (r : DramRec) (s : State), channelRec s 1 = some r ∧ r.configured = false) ∧
    (∃ (ch : Fin 2) (p : Nat) (g : Nat) (s : State), chPresent s ch.val = true ∧ s.on (F.DMCn_STAT_INIT_DONE ch.val) = false ∧
     s.get (F.DMCn_INIT_PTR_PAGES ch.val) = p ∧ p < chPages s ch.val ∧ g = (if ch = 0 then p else chPages s 0 + p)) :=
  ⟨⟨1, ⟨true, 8, 8, 1⟩, selfTestRead, chip 0 Mode.configure, by decide +kernel⟩,
   ⟨1, ⟨true, 8, 8, 1⟩, selfTestRead.take 5, 6, chip 0 Mode.configure, by decide +kernel⟩,
   ⟨0, ⟨true, 8, 8, 1⟩, chip 0 Mode.configure, by decide +kernel⟩,
   ⟨1, ⟨true, 8, 8, 1⟩, ⟨true, 8, 16, 1⟩, true, chip 0 Mode.configure, by decide +kernel⟩,
   ⟨⟨false, 0, 0, 0⟩, oneChannel ⟨false, 0, 0, 0⟩ ⟨true, 8, 8, 1⟩, by decide +kernel⟩,
   ⟨⟨false, 0, 0, 0⟩, oneChannel ⟨true, 8, 8, 1⟩ ⟨false, 0, 0, 0⟩, by decide +kernel⟩,
   ⟨1, chPages active 1 - 1, chPages active 0 + chPages active 1 - 1, active.put (F.DMCn_INIT_PTR_PAGES 1) (chPages active 1 - 1), by decide +kernel⟩⟩

theorem witness_PreampBusFramesQueueStartAndEnd :
    (∃ (n : Lane) (w : Word) (s : State), earlyWrite s (R.LNn_PBUS_CMD n) = false ∧ laneBusy s (R.LNn_PBUS_CMD n) = false ∧ pckRuns s n = true ∧
     s.on (F.LNn_PBUS_RES_BUSY n) = false ∧ ¬ (w.getLsbD 31 = true ∧ w.getLsbD 30 = true ∧ w.extractLsb' 21 6 = 4)) ∧
    (∃ (n : Lane) (w : Word) (k : Nat) (s : State), earlyWrite s (R.LNn_PBUS_CMD n) = false ∧ laneBusy s (R.LNn_PBUS_CMD n) = false ∧
     pckRuns s n = true ∧ s.on (F.LNn_PBUS_RES_BUSY n) = false ∧ w.getLsbD 31 = true ∧ w.getLsbD 30 = true ∧ w.extractLsb' 21 6 = 4 ∧
     headsOf s n = k ∧ 0 < k) ∧
    (∃ (n : Lane) (s : State), earlyWrite s (R.LNn_PBUS_CMD n) = false ∧ laneBusy s (R.LNn_PBUS_CMD n) = false ∧
     s.on (F.LNn_PBUS_RES_BUSY n) = true) ∧
    (∃ (n : Lane) (s : State), earlyWrite s (R.LNn_PBUS_CMD n) = false ∧ laneBusy s (R.LNn_PBUS_CMD n) = false ∧
     s.on (F.LNn_PBUS_RES_BUSY n) = false ∧ pckRuns s n = false) ∧
    (∃ (n : Lane) (room : Option Nat) (g : PbFrame) (rest : List PbFrame) (s : State), (s.ln n).bus = none ∧ pckRuns s n = true ∧
     (s.ln n).gateQ = g :: rest ∧ g.kind = .gate ∧ (g.asap = true ∨ room = some 0) ∧ gateAllowed s n g = true) ∧
    (∃ (n : Lane) (room : Option Nat) (g : PbFrame) (rest : List PbFrame) (s : State), (s.ln n).bus = none ∧ pckRuns s n = true ∧
     (s.ln n).gateQ = g :: rest ∧ (g.asap = true ∨ room = some 0) ∧ gateAllowed s n g = false) ∧
    (∃ (n : Lane) (room : Option Nat) (f : PbFrame) (rest : List PbFrame) (s : State), (s.ln n).bus = none ∧ pckRuns s n = true ∧
     (∀ g, (s.ln n).gateQ.head? = some g → g.asap = false ∧ room ≠ some 0) ∧
     ((s.ln n).setQ = f :: rest ∨ ((s.ln n).setQ = [] ∧ (s.ln n).fwQ = f :: rest)) ∧ (∀ r, room = some r → frameLength f ≤ r)) ∧
    (∃ (n : Lane) (f : PbFrame) (s : State), (s.ln n).bus = some f ∧ f.kind = .gate ∧
     (pckRuns s n = true ∨ s.on (F.LNn_PBUS_RES_BUSY n) = false)) ∧
    (∃ (n : Lane) (f : PbFrame) (data : BitVec 16) (check : BitVec 8) (s : State), (s.ln n).bus = some f ∧ f.kind = .read ∧
     f.source = .firmware ∧ f.final = true ∧ f.expect = none ∧ pckRuns s n = true ∧ check.toNat = readCheck f data) ∧
    (∃ (n : Lane) (f : PbFrame) (data : BitVec 16) (check : BitVec 8) (s : State), (s.ln n).bus = some f ∧ f.kind = .read ∧
     f.source = .firmware ∧ f.final = true ∧ f.expect = none ∧ pckRuns s n = true ∧ check.toNat ≠ readCheck f data) ∧
    (∃ (n : Lane) (f : PbFrame) (s : State), (s.ln n).bus = some f ∧ f.kind = .write ∧ f.source = .firmware ∧ f.final = true ∧ f.heats = [] ∧
     pckRuns s n = true) ∧
    (∃ (n : Lane) (s : State), pckRuns s n = true) ∧
    (∃ (n : Lane) (s : State), pckRuns s n = false) ∧
    (∃ (n : Lane) (s : State), s.get (F.LNn_BAUD_M_M n) ≠ 0) ∧
    (∃ (n : Lane) (s : State), s.get (F.LNn_BAUD_M_M n) = 0) :=
  ⟨⟨1, 0xD2345678, active, by decide +kernel⟩,
   ⟨1, 0xC0800007, 2, active, by decide +kernel⟩,
   ⟨3, active.put (F.LNn_PBUS_RES_BUSY 3) 1, by decide +kernel⟩,
   ⟨3, chip 0 Mode.standby, by decide +kernel⟩,
   ⟨2, some 0, gateFrameOf 2 1 50 false, [], (active.put (F.LNn_HEAD_EN_EN 2) 3).onLn 2
         (fun l => { l with gateQ := [gateFrameOf 2 1 50 false], setQ := [settingFrameOf 1 8 3] }), by decide +kernel⟩,
   ⟨2, some 0, gateFrameOf 2 7 50 false, [], active.onLn 2 (fun l => { l with gateQ := [gateFrameOf 2 7 50 false] }), by decide +kernel⟩,
   ⟨2, some 38, settingFrameOf 1 8 3, [], active.onLn 2
         (fun l => { l with gateQ := [gateFrameOf 2 1 50 false], setQ := [settingFrameOf 1 8 3], fwQ := [settingFrameOf 0 8 3] }), by
         decide +kernel, by decide +kernel, fun g h => by cases (show some (gateFrameOf 2 1 50 false) = some g from h); decide +kernel, by
         decide +kernel, fun r h => by cases h; decide +kernel⟩,
   ⟨0, gateFrameOf 2 1 50 false, active.onLn 0 (fun l => { l with bus := some (gateFrameOf 2 1 50 false) }), by decide +kernel⟩,
   ⟨0, ⟨.firmware, .read, 0, false, 1, 8, 0, 0, none, false, false, true, false, []⟩, 0x1234, BitVec.ofNat 8
         (readCheck ⟨.firmware, .read, 0, false, 1, 8, 0, 0, none, false, false, true, false, []⟩ 0x1234), active.onLn 0
         (fun l => { l with bus := some ⟨.firmware, .read, 0, false, 1, 8, 0, 0, none, false, false, true, false, []⟩ }), by decide +kernel⟩,
   ⟨0, ⟨.firmware, .read, 0, false, 1, 8, 0, 0, none, true, false, true, false, []⟩, 0x1234, BitVec.ofNat 8
         (readCheck ⟨.firmware, .read, 0, false, 1, 8, 0, 0, none, true, false, true, false, []⟩ 0x1235), active.onLn 0
         (fun l => { l with bus := some ⟨.firmware, .read, 0, false, 1, 8, 0, 0, none, true, false, true, false, []⟩ }), by decide +kernel⟩,
   ⟨0, ⟨.firmware, .write, 0, true, 1, 2, 5, 0, none, false, false, true, false, []⟩, active.onLn 0
         (fun l => { l with bus := some ⟨.firmware, .write, 0, true, 1, 2, 5, 0, none, false, false, true, false, []⟩ }), by decide +kernel⟩,
   ⟨0, active, by decide +kernel⟩,
   ⟨0, chip 0 Mode.standby, by decide +kernel⟩,
   ⟨3, active.put (F.LNn_BAUD_M_M 3) 9, by decide +kernel⟩,
   ⟨3, active, by decide +kernel⟩⟩

theorem witness_TablePortsHoldWhileGateOpen :
    (∃ (n : Lane) (addr : Nat) (wr : Bool) (auto : Nat) (tbl : Nat) (head : Nat) (zone : Nat) (index : Nat) (s : State),
     tablePort addr = some (n, wr, true) ∧ earlyWrite s addr = false ∧ laneBusy s addr = false ∧
     (if wr then (s.ln n).wheld else (s.ln n).held) = none ∧ portGate s n wr = false ∧ tableSel s n wr = (auto, tbl, head, zone, index) ∧
     tbl < (if wr then 3 else 4) ∧ index < tableLen (if wr then tbl + 4 else tbl)) ∧
    (∃ (n : Lane) (addr : Nat) (wr : Bool) (auto : Nat) (tbl : Nat) (head : Nat) (zone : Nat) (index : Nat) (s : State),
     tablePort addr = some (n, wr, true) ∧ earlyWrite s addr = false ∧ laneBusy s addr = false ∧
     (if wr then (s.ln n).wheld else (s.ln n).held) = none ∧ portGate s n wr = true ∧ tableSel s n wr = (auto, tbl, head, zone, index) ∧
     tbl < (if wr then 3 else 4) ∧ index < tableLen (if wr then tbl + 4 else tbl)) ∧
    (∃ (n : Lane) (addr : Nat) (wr : Bool) (auto : Nat) (tbl : Nat) (head : Nat) (zone : Nat) (index : Nat) (s : State),
     tablePort addr = some (n, wr, true) ∧ earlyWrite s addr = false ∧ laneBusy s addr = false ∧
     (if wr then (s.ln n).wheld else (s.ln n).held) = none ∧ tableSel s n wr = (auto, tbl, head, zone, index) ∧
     ((if wr then 3 else 4) ≤ tbl ∨ tableLen (if wr then tbl + 4 else tbl) ≤ index)) ∧
    (∃ (n : Lane) (addr : Nat) (wr : Bool) (s : State), tablePort addr = some (n, wr, true) ∧ earlyWrite s addr = false ∧
     laneBusy s addr = false ∧ (if wr then (s.ln n).wheld else (s.ln n).held).isSome = true) ∧
    (∃ (n : Lane) (addr : Nat) (wr : Bool) (auto : Nat) (tbl : Nat) (head : Nat) (zone : Nat) (index : Nat) (s : State),
     tablePort addr = some (n, wr, true) ∧ tableSel s n wr = (auto, tbl, head, zone, index)) ∧
    (∃ (n : Lane) (d : Sector) (s : State), (s.ln n).vgate = some d ∧ (s.ln n).held = none ∧ (s.ln n).wheld = none ∧ (s.ln n).waitT = [] ∧
     (s.ln n).drain = false) ∧
    (∃ (n : Lane) (d : Sector) (s : State), (s.ln n).gate = some d ∧ s.get (F.LNn_STAT_RD_GATE n) = 1 ∧ (s.ln n).held = none ∧
     (s.ln n).wheld = none ∧ (s.ln n).waitT = [] ∧ (s.ln n).drain = false) ∧
    (∃ (n : Lane) (d : Sector) (s : State), (s.ln n).gate = some d ∧ s.get (F.LNn_STAT_WR_GATE n) = 1 ∧ (s.ln n).held = none ∧
     (s.ln n).wheld = none ∧ (s.ln n).waitT = [] ∧ (s.ln n).drain = false) :=
  ⟨⟨2, R.LNn_WTBL_DATA 2, true, 1, 1, 0, 0, 0, (active.put (F.LNn_WTBL_SEL_TABLE 2) 1).put (F.LNn_WTBL_SEL_AUTOINC 2) 1, by decide +kernel⟩,
   ⟨2, R.LNn_TBL_DATA 2, false, 1, 0, 0, 0, 0, (active.put (F.LNn_STAT_RD_GATE 2) 1).put (F.LNn_TBL_SEL_AUTOINC 2) 1, by decide +kernel⟩,
   ⟨2, R.LNn_TBL_DATA 2, false, 0, 1, 0, 0, 3, (active.put (F.LNn_TBL_SEL_TABLE 2) 1).put (F.LNn_TBL_SEL_INDEX 2) 3, by decide +kernel⟩,
   ⟨2, R.LNn_TBL_DATA 2, false, active.onLn 2 (fun l => { l with held := some (4, 4) }), by decide +kernel⟩,
   ⟨3, R.LNn_TBL_DATA 3, false, 1, 0, 0, 0, 255, (active.put (F.LNn_TBL_SEL_INDEX 3) 255).put (F.LNn_TBL_SEL_AUTOINC 3) 1, by decide +kernel⟩,
   ⟨3, sector, (active.put (F.LNn_WR_CTL_CANCEL_EN 3) 1).onLn 3 (fun l => { l with vgate := some sector }), by decide +kernel⟩,
   ⟨3, sector, (active.onLn 3 (fun l => { l with gate := some sector })).put (F.LNn_STAT_RD_GATE 3) 1, by decide +kernel⟩,
   ⟨3, { sector with verify := true }, (active.onLn 3 (fun l => { l with gate := some { sector with verify := true } })).put (F.LNn_STAT_WR_GATE 3) 1,
         by decide +kernel⟩⟩

theorem witness_DecoderPoolGrantsAndDelivers :
    (∃ (n : Lane) (kind : DecodeFor) (d : Sector) (rest : List Sector) (fifo : Nat) (s : State), kind ≠ .verify ∧ (s.ln n).reads = d :: rest ∧
     fifo ≤ 9600 ∧ (kind = .retry → (s.ln n).det.getLsbD 2 = false ∧ d.spillSum = false) ∧
     (heldEngine s n = none ∨ mayDecode s ⟨n, kind, d, [], 0⟩ = false)) ∧
    (∃ (n : Lane) (d : Sector) (fifo : Nat) (s : State), nextCodeword n .verify s = some (d, s) ∧ fifo ≤ 9600 ∧ heldEngine s n = none) ∧
    (∃ (n : Lane) (k : Fin 12) (kind : DecodeFor) (d : Sector) (rest : List Sector) (fifo : Nat) (s : State), kind ≠ .verify ∧
     (s.ln n).reads = d :: rest ∧ fifo ≤ 9600 ∧ (kind = .retry → (s.ln n).det.getLsbD 2 = false ∧ d.spillSum = false) ∧ heldEngine s n = some k ∧
     mayDecode s ⟨n, kind, d, [], 0⟩ = true) ∧
    (∃ (n : Lane) (d : Sector) (rest : List Sector) (fifo : Nat) (s : State), (s.ln n).reads = d :: rest ∧ 9600 < fifo) ∧
    (∃ (k : Fin 12) (j : DecodeJob) (s : State), engineIds.find? (fun k => decide ((s.engine k).token = .free)) = some k ∧
     nextGranted s = some j) ∧
    (∃ (j : DecodeJob) (s : State), (∀ i ∈ s.ldp.waiting, mayDecode s i = true) ∧ nextGranted s = some j) ∧
    (∃ (k : Fin 12) (j : DecodeJob) (rest : List DecodeJob) (s : State), (s.engine k).jobs = j :: rest) ∧
    (∃ (k : Fin 12) (n : Lane) (d : Sector) (llrs : List Int) (asked : Dword) (r : Decoded) (s : State),
     (s.engine k).jobs = [⟨n, .verify, d, llrs, asked⟩] ∧ s.ldp.waiting = [] ∧ (s.ln n).lost.any (fun e => e.same d) = false) ∧
    (∃ (k : Fin 12) (n : Lane) (d : Sector) (llrs : List Int) (asked : Dword) (rest : List DecodeJob) (r : Decoded) (s : State),
     (s.engine k).jobs = ⟨n, .otf, d, llrs, asked⟩ :: rest ∧
     outcomeOf s ⟨n, .otf, d, llrs, asked⟩ (decodeBudget s ⟨n, .otf, d, llrs, asked⟩) r = 0 ∧ sectorGroup s d = none) ∧
    (∃ (k : Fin 12) (s : State), (s.engine k).jobs = []) ∧
    (∃ (k : Fin 12) (s : State), (s.engine k).token ≠ .lost ∧ (s.engine k).jobs = []) ∧
    (∃ (k : Fin 12) (s : State), (s.engine k).token = .lost) ∧
    (∃ (n : Lane) (l : Ladder) (d : Sector) (rest : List Sector) (s : State), (s.ln n).ladder = some l ∧ l.failing = d :: rest ∧
     l.spoiled = false ∧ s.get (F.LNn_RTY_STAT_RUNG n) = 1 ∧ s.get (F.LNn_RTY_STAT_REVS n) < 255 ∧
     s.get (F.LNn_RTY_STAT_REVS n) + 1 < s.get (F.LNn_RTY_CFG_LIMIT n) ∧
     s.get (F.LNn_RTY_STAT_ATTEMPT n) < rungAttempts s n l.limited (ladderParity s l) 1) ∧
    (∃ (n : Lane) (l : Ladder) (ended : LadderEnd) (s : State), (s.ln n).ladder = some l ∧ (ended = .abandoned ∨ l.spoiled = true)) :=
  ⟨⟨1, .retry, sector, [], 9600, active.onLn 1 (fun l => { l with reads := [sector], det := 0 }), by decide +kernel⟩,
   ⟨1, { sector with front := some (verifyFront active 1 0 0) }, 0, active.onLn 1
         (fun l => { l with awaiting := [{ sector with front := some (verifyFront active 1 0 0) }] }), by decide +kernel⟩,
   ⟨1, 7, .otf, sector, [], 9600, (active.onLn 1 (fun l => { l with reads := [sector], det := 0 })).setEngine 7 ⟨.lane 1, []⟩, by decide +kernel⟩,
   ⟨1, sector, [], 9601, active.onLn 1 (fun l => { l with reads := [sector] }), by decide +kernel⟩,
   ⟨11, ⟨2, .otf, sector, [], 4⟩, { active.setEngine 11 ⟨.free, []⟩ with
           ldp := { (active.setEngine 11 ⟨.free, []⟩).ldp with waiting := [⟨1, .otf, sector, [], 5⟩, ⟨2, .otf, sector, [], 4⟩] } }, by
         decide +kernel⟩,
   ⟨⟨2, .otf, sector, [], 4⟩, { active with ldp := { active.ldp with waiting := [⟨1, .otf, sector, [], 5⟩, ⟨2, .otf, sector, [], 4⟩] } }, by
         decide +kernel⟩,
   ⟨5, ⟨3, .verify, sector, [], 0⟩, [], active.setEngine 5 ⟨.lane 3, [⟨3, .verify, sector, [], 0⟩]⟩, by decide +kernel⟩,
   ⟨5, 3, sector, [], 0, ⟨false, 3, []⟩, active.setEngine 5 ⟨.lane 3, [⟨3, .verify, sector, [], 0⟩]⟩, by decide +kernel⟩,
   ⟨5, 3, { sector with lbaValid := false, badWedge := false }, [], 0, [], ⟨true, 3, goodInfo⟩, goodRead, by decide +kernel⟩,
   ⟨5, active, by decide +kernel⟩,
   ⟨0, active.setEngine 0 ⟨.free, []⟩, by decide +kernel⟩,
   ⟨0, active.setEngine 0 ⟨.lost, []⟩, by decide +kernel⟩,
   ⟨2, ⟨[sector], false, false⟩, sector, [], climbing, by decide +kernel⟩,
   ⟨2, ⟨[sector], false, true⟩, .done, active.onLn 2 (fun l => { l with ladder := some ⟨[sector], false, true⟩ }), by decide +kernel⟩⟩

theorem witness_WritePathVerifiesInhibitsAndRewrites :
    (∃ (n : Lane) (d : Sector) (rest : List Sector) (s : State), (s.ln n).vdue = d :: rest ∧ (s.ln n).vgate = none) ∧
    (∃ (n : Lane) (s : State), ((s.ln n).vdue = [] ∨ (s.ln n).vgate.isSome = true)) ∧
    (∃ (n : Lane) (d : Sector) (info : List Byte) (second : List Byte) (rest : List (Sector × Bool × List Byte)) (s : State),
     (s.ln n).compared = (d, true, info) :: rest ∧ (s.ln n).awaiting.any (fun e => e.same d) = true ∧
     info = infoPart n d (parityKind s d) (if parityKind s d = 0 then second else d.data)) ∧
    (∃ (n : Lane) (d : Sector) (ok : Bool) (info : List Byte) (second : List Byte) (rest : List (Sector × Bool × List Byte)) (s : State),
     (s.ln n).compared = (d, ok, info) :: rest ∧ (s.ln n).awaiting.any (fun e => e.same d) = true ∧
     (ok = false ∨ info ≠ infoPart n d (parityKind s d) (if parityKind s d = 0 then second else d.data))) ∧
    (∃ (n : Lane) (d : Sector) (rest : List Sector) (s : State), (s.ln n).lost = d :: rest) ∧
    (∃ (n : Lane) (d : Sector) (rest : List Sector) (s : State), (s.ln n).rewrites = d :: rest ∧ writeMayOpen s n d = true ∧
     s.get (F.LNn_WR_STAT_INH_NOW n) = 0 ∧ (s.ln n).inh0 = false) ∧
    (∃ (n : Lane) (d : Sector) (rest : List Sector) (s : State), (s.ln n).cut = d :: rest ∧ s.get (F.LNn_WR_STAT_INH_NOW n) = 0 ∧
     (s.ln n).inh0 = false ∧ writeMayOpen s n { d with revs := d.revs + 1 } = true) ∧
    (∃ (n : Lane) (d : Sector) (rest : List Sector) (s : State), (s.ln n).cut = d :: rest ∧ s.get ((F.LNn_WR_STAT_INH_NOW n).bit d.source) = 1) ∧
    (∃ (n : Lane) (src : Fin 6) (s : State), s.get (F.LNn_STAT_WR_GATE n) = 0 ∧ (s.ln n).vgate = none ∧
     ((src = 0) ∨ (src = 3 ∧ s.on (F.LNn_STAT_PLL_LOCK n) = false) ∨ (src = 4 ∧ s.on F.GLB_MODE_COND_POWER_FAIL = true) ∨
         (src = 5 ∧ s.on (F.LNn_WR_CTL_INHIBIT n) = true))) ∧
    (∃ (n : Lane) (src : Fin 6) (d : Sector) (s : State), s.get (F.LNn_STAT_WR_GATE n) = 1 ∧ (s.ln n).gate = some d ∧
     ((src ≤ 2) ∨ (src = 3 ∧ s.on (F.LNn_STAT_PLL_LOCK n) = false) ∨ (src = 4 ∧ s.on F.GLB_MODE_COND_POWER_FAIL = true) ∨
         (src = 5 ∧ s.on (F.LNn_WR_CTL_INHIBIT n) = true))) ∧
    (∃ (n : Lane) (src : Fin 6) (s : State),
     (((src = 1 ∨ src = 2) ∧ s.on (F.LNn_STAT_WR_GATE n) = false) ∨ (src = 3 ∧ s.on (F.LNn_STAT_PLL_LOCK n) = true) ∨
         (src = 4 ∧ s.on F.GLB_MODE_COND_POWER_FAIL = false) ∨ (src = 5 ∧ s.on (F.LNn_WR_CTL_INHIBIT n) = false))) ∧
    (∃ (n : Lane) (src : Fin 6) (s : State), mayResume s n src = true) ∧
    (∃ (n : Lane) (src : Fin 6) (s : State), mayResume s n src = false) ∧
    (∃ (n : Lane) (s : State), s.on (F.LNn_STAT_WR_GATE n) = true) ∧
    (∃ (n : Lane) (s : State), s.on (F.LNn_STAT_WR_GATE n) = false) :=
  ⟨⟨0, sector, [], active.onLn 0 (fun l => { l with vdue := [sector] }), by decide +kernel⟩,
   ⟨0, active, by decide +kernel⟩,
   ⟨0, sector, infoPart 0 sector 0 [1, 2], [1, 2], [], active.onLn 0
         (fun l => { l with compared := [(sector, true, infoPart 0 sector 0 [1, 2])], awaiting := [sector] }), by decide +kernel⟩,
   ⟨0, sector, true, infoPart 0 sector 0 [1, 2], [1, 3], [], active.onLn 0
         (fun l => { l with compared := [(sector, true, infoPart 0 sector 0 [1, 2])], awaiting := [sector] }), by decide +kernel⟩,
   ⟨0, { sector with sampled := true }, [], active.onLn 0 (fun l => { l with lost := [{ sector with sampled := true }], awaiting := [sector] }), by
         decide +kernel⟩,
   ⟨0, sector, [], (preampReady sector).onLn 0 (fun l => { l with rewrites := [sector] }), by decide +kernel⟩,
   ⟨0, sector, [], (preampReady sector).onLn 0 (fun l => { l with cut := [sector] }), by decide +kernel⟩,
   ⟨0, { sector with source := 3 }, [], (active.onLn 0 (fun l => { l with cut := [{ sector with source := 3 }] })).put (F.LNn_WR_STAT_INH_NOW 0) 8, by
         decide +kernel⟩,
   ⟨1, 0, active.onLn 1 (fun l => { l with vdue := [sector] }), by decide +kernel⟩,
   ⟨1, 1, sector, (active.onLn 1 (fun l => { l with gate := some sector })).put (F.LNn_STAT_WR_GATE 1) 1, by decide +kernel⟩,
   ⟨1, 4, active, by decide +kernel⟩,
   ⟨1, 5, active.put ((F.LNn_WR_STAT_INH_NOW 1).bit 5) 1, by decide +kernel⟩,
   ⟨1, 4, active, by decide +kernel⟩,
   ⟨0, active.put (F.LNn_STAT_WR_GATE 0) 1, by decide +kernel⟩,
   ⟨0, active, by decide +kernel⟩⟩

theorem witness_ServoCommandsMoveTheEngine :
    (∃ (n : Lane) (s : State), s.accepts (R.SVn_CTL n) = true ∧ motionState s n = Mo.off) ∧
    (∃ (n : Lane) (s : State), s.accepts (R.SVn_CTL n) = true ∧ motionState s n ≠ Mo.off) ∧
    (∃ (n : Lane) (s : State), s.accepts (R.SVn_CTL n) = true ∧ motionState s n = Mo.off) ∧
    (∃ (n : Lane) (s : State), s.accepts (R.SVn_CTL n) = true ∧ motionState s n ≠ Mo.off) ∧
    (∃ (n : Lane) (s : State), earlyWrite s (R.SVn_PACE_CMD n) = false ∧ laneBusy s (R.SVn_PACE_CMD n) = false ∧
     unitAbsent s (R.SVn_PACE_CMD n) = false ∧ s.glb.lost0.getLsbD (12 + n) = false ∧ motionState s n = Mo.parked ∧ speedReady s = true) ∧
    (∃ (n : Lane) (s : State), earlyWrite s (R.SVn_PACE_CMD n) = false ∧ laneBusy s (R.SVn_PACE_CMD n) = false ∧
     unitAbsent s (R.SVn_PACE_CMD n) = false ∧ s.glb.lost0.getLsbD (12 + n) = false ∧ (motionState s n ≠ Mo.parked ∨ speedReady s = false)) ∧
    (∃ (n : Lane) (s : State), earlyWrite s (R.SVn_PACE_CMD n) = false ∧ laneBusy s (R.SVn_PACE_CMD n) = false ∧
     unitAbsent s (R.SVn_PACE_CMD n) = false ∧ s.glb.lost0.getLsbD (12 + n) = false ∧
     (motionState s n = Mo.follow ∨ motionState s n = Mo.settle ∨ motionState s n = Mo.seek)) ∧
    (∃ (n : Lane) (s : State), earlyWrite s (R.SVn_PACE_CMD n) = false ∧ laneBusy s (R.SVn_PACE_CMD n) = false ∧
     unitAbsent s (R.SVn_PACE_CMD n) = false ∧ s.glb.lost0.getLsbD (12 + n) = false ∧ motionState s n ∉ [Mo.seek, Mo.settle, Mo.follow]) ∧
    (∃ (n : Lane) (s : State), earlyWrite s (R.SVn_PACE_CMD n) = false ∧ laneBusy s (R.SVn_PACE_CMD n) = false ∧
     unitAbsent s (R.SVn_PACE_CMD n) = false ∧ s.glb.lost0.getLsbD (12 + n) = false ∧ motionState s n ∉ [Mo.off, Mo.parked, Mo.fault]) ∧
    (∃ (n : Lane) (s : State), earlyWrite s (R.SVn_PACE_CMD n) = false ∧ laneBusy s (R.SVn_PACE_CMD n) = false ∧
     unitAbsent s (R.SVn_PACE_CMD n) = false ∧ s.glb.lost0.getLsbD (12 + n) = false ∧ motionState s n ∈ [Mo.off, Mo.parked, Mo.fault]) ∧
    (∃ (n : Lane) (s : State), earlyWrite s (R.SVn_PACE_CMD n) = false ∧ laneBusy s (R.SVn_PACE_CMD n) = false ∧
     unitAbsent s (R.SVn_PACE_CMD n) = false ∧ motionState s n = Mo.fault ∧ s.on F.MOT_STAT_LINK_UP = true) ∧
    (∃ (n : Lane) (s : State), earlyWrite s (R.SVn_PACE_CMD n) = false ∧ laneBusy s (R.SVn_PACE_CMD n) = false ∧
     unitAbsent s (R.SVn_PACE_CMD n) = false ∧ (motionState s n ≠ Mo.fault ∨ s.on F.MOT_STAT_LINK_UP = false)) ∧
    (∃ (n : Lane) (s : State), earlyWrite s (R.SVn_PACE_CMD n) = false ∧ laneBusy s (R.SVn_PACE_CMD n) = false ∧
     unitAbsent s (R.SVn_PACE_CMD n) = false ∧ s.glb.lost0.getLsbD (12 + n) = true) :=
  ⟨⟨3, active, by decide +kernel⟩,
   ⟨3, active.put (F.SVn_STAT_STATE 3) 6, by decide +kernel⟩,
   ⟨3, active, by decide +kernel⟩,
   ⟨3, active.put (F.SVn_STAT_STATE 3) 6, by decide +kernel⟩,
   ⟨3, (active.put (F.SVn_STAT_STATE 3) 1).put F.SPM_STAT_AT_SPEED 1, by decide +kernel⟩,
   ⟨0, active, by decide +kernel⟩,
   ⟨3, active.put (F.SVn_STAT_STATE 3) 4, by decide +kernel⟩,
   ⟨0, active.put (F.SVn_STAT_STATE 0) 3, by decide +kernel⟩,
   ⟨3, active.put (F.SVn_STAT_STATE 3) 6, by decide +kernel⟩,
   ⟨0, active.put (F.SVn_STAT_STATE 0) 9, by decide +kernel⟩,
   ⟨3, (active.put (F.SVn_STAT_STATE 3) 9).put F.MOT_STAT_LINK_UP 1, by decide +kernel⟩,
   ⟨3, active.put (F.SVn_STAT_STATE 3) 9, by decide +kernel⟩,
   ⟨3, { active with glb := { active.glb with lost0 := 1 <<< 15 } }, by decide +kernel⟩⟩

theorem witness_ServoWedgeFromSyncToOutput :
    (∃ (n : Lane) (interval : Nat) (bauds : Nat) (s : State), servoRuns s n = true ∧ inWindow s n interval = true ∧
     ((s.sv n).lastFound = false ∨ (s.get (F.LNn_BPW_BPW n) ≤ bauds + 8 ∧ bauds ≤ s.get (F.LNn_BPW_BPW n) + 8)) ∧ (s.sv n).params = [] ∧
     (s.sv n).switch = none) ∧
    (∃ (n : Lane) (mark : BitVec 8) (interval : Nat) (s : State), (servoRuns s n = false ∨ mark ≠ 0b10110001 ∨ inWindow s n interval = false)) ∧
    (∃ (n : Lane) (s : State), (s.sv n).ranged = true) ∧
    (∃ (n : Lane) (s : State), servoRuns s n = true ∧ (missCounts s n = false ∨ (s.sv n).miss + 1 < max 1 (s.get (F.SVn_SYNC_CFG_MISS_MAX n))) ∧
     (s.sv n).params = [] ∧ (s.sv n).switch = none) ∧
    (∃ (n : Lane) (s : State), servoRuns s n = true ∧ missCounts s n = true ∧ max 1 (s.get (F.SVn_SYNC_CFG_MISS_MAX n)) ≤ (s.sv n).miss + 1 ∧
     (s.sv n).params = [] ∧ (s.sv n).switch = none) ∧
    (∃ (n : Lane) (s : State), servoRuns s n = true ∧ (s.sv n).found = true ∧ (s.sv n).headChanged = true) ∧
    (∃ (n : Lane) (field : BitVec 82) (a : Int) (b : Int) (tr : Nat) (estTrack : Nat) (s : State), servoRuns s n = true ∧ (s.sv n).found = true ∧
     (s.sv n).headChanged = false ∧ fieldSam field = 0b1110010000110101 ∧ decodeTrack (fieldTrack field) = some tr ∧
     (if tr < estTrack then estTrack - tr else tr - estTrack) ≤ s.get (F.SVn_SYNC_CFG_TID_TOL n) ∧ ¬ (a = 0 ∧ b = 0)) ∧
    (∃ (n : Lane) (field : BitVec 82) (s : State), servoRuns s n = true ∧ (s.sv n).found = true ∧ (s.sv n).headChanged = false ∧
     (fieldSam field ≠ 0b1110010000110101 ∨ decodeTrack (fieldTrack field) = none)) ∧
    (∃ (n : Lane) (beats : Nat) (mv : Nat) (s : State), s.on F.MOT_CTL_ENABLE = true ∧
     ((motionState s n = Mo.retract ∧ mv = s.get (F.SVn_PACE_RET_EMER_V n)) ∨
         (motionState s n = Mo.off ∧ (s.sv n).offRetract = true ∧ mv = s.get (F.SVn_PACE_RET_EMER_V n)) ∨
         (motionState s n = Mo.unloading ∧ (s.sv n).uldEnded = true ∧ mv = s.get (F.SVn_PACE_RET_ULD_V n)))) ∧
    (∃ (n : Lane) (beats : Nat) (s : State), s.on F.MOT_CTL_ENABLE = true ∧
     (motionState s n ∉ [Mo.off, Mo.retract] ∧ ¬ (motionState s n = Mo.unloading ∧ (s.sv n).uldEnded = true)) ∧
     ((motionState s n = Mo.loading) ∨ s.on (F.SVn_CTL_CUR_LOOP_EN n) = false) ∧
     ((s.sv n).measured - (s.sv n).commanded).natAbs * 4 ≤ s.get (F.SVn_CUR_CFG_DIV_LIM n) * 1000) ∧
    (∃ (n : Lane) (s : State), motionState s n = Mo.off ∧ (s.sv n).offRetract = false) ∧
    (∃ (n : Lane) (s : State), servoRuns s n = true ∧ stagesOf s n = (false, false) ∧ (s.sv n).status.length < 128) ∧
    (∃ (n : Lane) (beats : Nat) (s : State), servoRuns s n = true ∧ stagesOf s n = (true, true) ∧
     motionState s n ∈ [Mo.acquire, Mo.seek, Mo.settle, Mo.follow] ∧ s.on (F.SVn_CTL_MILLI_EN n) = true ∧ s.on (F.SVn_CTL_MICRO_EN n) = true ∧
     s.on F.MOT_CTL_ENABLE = true ∧ (s.sv n).status.length < 128) ∧
    (∃ (n : Lane) (s : State), servoRuns s n = false) :=
  ⟨⟨2, 4, 0, ((active.put (F.SVn_STAT_STATE 2) 6).put (F.SVn_CTL_ENABLE 2) 1).put (F.SVn_LAP_WEDGE 2) 719, by decide +kernel⟩,
   ⟨2, 0b10110001, 4, (((active.put (F.SVn_STAT_STATE 2) 6).put (F.SVn_CTL_ENABLE 2) 1).put (F.SVn_PERIOD_PERIOD 2) 8000).onSv 2
         (fun v => { v with ranged := true }), by decide +kernel⟩,
   ⟨2, active.onSv 2 (fun v => { v with ranged := true }), by decide +kernel⟩,
   ⟨2, (((active.put (F.SVn_STAT_STATE 2) 6).put (F.SVn_CTL_ENABLE 2) 1).put (F.SVn_LAP_WEDGE 2) 719).put (F.SVn_SYNC_CFG_MISS_MAX 2) 2, by
         decide +kernel⟩,
   ⟨2, ((active.put (F.SVn_STAT_STATE 2) 6).put (F.SVn_CTL_ENABLE 2) 1).put (F.SVn_SYNC_CFG_MISS_MAX 2) 1, by decide +kernel⟩,
   ⟨2, ((active.put (F.SVn_STAT_STATE 2) 6).put (F.SVn_CTL_ENABLE 2) 1).onSv 2 (fun v => { v with found := true, headChanged := true }), by
         decide +kernel⟩,
   ⟨2, 0x390D55555555555555555, 1, 0, 0, 0, ((active.put (F.SVn_STAT_STATE 2) 6).put (F.SVn_CTL_ENABLE 2) 1).onSv 2
         (fun v => { v with found := true }), by decide +kernel⟩,
   ⟨2, 5, ((active.put (F.SVn_STAT_STATE 2) 6).put (F.SVn_CTL_ENABLE 2) 1).onSv 2 (fun v => { v with found := true }), by decide +kernel⟩,
   ⟨2, 3, active.get (F.SVn_PACE_RET_EMER_V 2), let s := (active.put (F.SVn_STAT_STATE 2) 8).put F.MOT_CTL_ENABLE 1;
         { s with mot := { s.mot with ahead := 33 } }, by decide +kernel⟩,
   ⟨2, 3, (((active.put (F.SVn_STAT_STATE 2) 6).put F.MOT_CTL_ENABLE 1).put (F.SVn_CTL_CUR_LOOP_EN 2) 0).onSv 2 (fun v => { v with demand := -3 }), by
         decide +kernel⟩,
   ⟨2, active, by decide +kernel⟩,
   ⟨2, { ((chip 0 4).put (F.SVn_STAT_STATE 2) 6).put (F.SVn_CTL_ENABLE 2) 1 with cfg := State.reset.cfg }, by decide +kernel⟩,
   ⟨2, 3, ((((active.put (F.SVn_STAT_STATE 2) 6).put (F.SVn_CTL_ENABLE 2) 1).put F.MOT_CTL_ENABLE 1).put (F.SVn_CTL_MICRO_EN 2) 1 |>.put
           (F.SVn_CTL_MILLI_EN 2) 1 |>.put (F.SVn_STAT_HEAD 2) 1).onSv 2 (fun v => { v with out1 := 40000, out2 := -5/2 }), by decide +kernel⟩,
   ⟨2, active, by decide +kernel⟩⟩

theorem witness_AbacusSlotsComputeExactly :
    (∃ (n : Lane) (op : Nat) (s : State), op ∈ [0, 8, 9, 10, 11, 12, 13, 14, 15] ∧ slotRuns s n op = true) ∧
    (∃ (n : Lane) (s : State), slotRuns s n 1 = true) ∧
    (∃ (n : Lane) (s : State), slotRuns s n 2 = true) ∧
    (∃ (n : Lane) (c : Instr) (op : Nat) (x : Rat) (s : State) (w : Nat) (e : Nat),
     ((c = .store n ∧ op = 3 ∧ x = accValue (s.sv n).acc) ∨ (c = .abacusMove n ∧ op = 4 ∧ x = wordValue s n (setInUse s n) (slotNow s n).2.2.1) ∨
         (c = .in_ n ∧ op = 5 ∧ x = abacusInput s n (slotNow s n).2.2.1)) ∧ slotRuns s n op = true ∧ w = (slotNow s n).2.1 ∧
     e = wordExp s n (setInUse s n) w ∧ -(2 ^ 23) ≤ roundEven (x * pow2 (55 - (e : Int))) ∧ roundEven (x * pow2 (55 - (e : Int))) < 2 ^ 23) ∧
    (∃ (n : Lane) (c : Instr) (op : Nat) (x : Rat) (s : State) (w : Nat),
     ((c = .store n ∧ op = 3 ∧ x = accValue (s.sv n).acc) ∨ (c = .abacusMove n ∧ op = 4 ∧ x = wordValue s n (setInUse s n) (slotNow s n).2.2.1) ∨
         (c = .in_ n ∧ op = 5 ∧ x = abacusInput s n (slotNow s n).2.2.1)) ∧ slotRuns s n op = true ∧ w = (slotNow s n).2.1) ∧
    (∃ (n : Lane) (c : Nat) (w : Nat) (b : Nat) (x : Rat) (s : State), blockOf s c w = some b ∧
     ¬ (-(2 ^ 23) ≤ roundEven (x * pow2 (55 - (wordExp s n c w : Int))) ∧ roundEven (x * pow2 (55 - (wordExp s n c w : Int))) < 2 ^ 23)) ∧
    (∃ (n : Lane) (s : State), slotRuns s n 6 = true) ∧
    (∃ (n : Lane) (s : State), slotRuns s n 7 = true) ∧
    (∃ (n : Lane) (c : Nat) (b : Nat) (s : State), (blockPeak s n c b = 0 ∨ (2 ^ 21 ≤ blockPeak s n c b ∧ blockPeak s n c b < 2 ^ 22))) :=
  ⟨⟨1, 15, program 0xF, by decide +kernel⟩,
   ⟨1, program 0x1, by decide +kernel⟩,
   ⟨1, program 0x2, by decide +kernel⟩,
   ⟨1, .store 1, 3, 0, program 0x23, 2, 2, by decide +kernel⟩,
   ⟨1, .in_ 1, 5, abacusInput (program 0x0080025) 1 8, program 0x0080025, 2, by decide +kernel⟩,
   ⟨1, 0, 2, 0, 1000000000, program 0x3, by decide +kernel⟩,
   ⟨1, program 0x6, by decide +kernel⟩,
   ⟨1, program 0x7, by decide +kernel⟩,
   ⟨1, 0, 0, putMant 1 0 3 (-(2 ^ 21)) (program 0x7), by decide +kernel⟩⟩

theorem witness_MotionLinkFramesActOnceChecked :
    (∃ (s : State), s.on F.MOT_CTL_ENABLE = true) ∧
    (∃ (s : State), s.on F.MOT_CTL_ENABLE = false) ∧
    (∃ (f : BitVec 64), frameField f 63 56 ≠ motionCheck (frameField f 55 0)) ∧
    (∃ (f : BitVec 64) (s : State), frameField f 63 56 = motionCheck (frameField f 55 0) ∧ frameField f 11 8 = 8) ∧
    (∃ (f : BitVec 64) (s : State), frameField f 63 56 = motionCheck (frameField f 55 0) ∧ frameField f 11 8 = 9 ∧ frameField f 22 22 = 0 ∧
     s.on F.MOT_STAT_LINK_UP = true ∧ spinState s ≠ Sp.keCheck ∧ (spinState s ≠ Sp.sense ∨ frameField f 43 43 = 0)) ∧
    (∃ (f : BitVec 64) (s : State), frameField f 63 56 = motionCheck (frameField f 55 0) ∧ frameField f 11 8 = 10 ∧ frameField f 27 24 = 0 ∧
     frameField f 23 20 = 0 ∧ frameField f 28 28 = 0 ∧ s.on F.MOT_STAT_LINK_UP = true) ∧
    (∃ (f : BitVec 64) (s : State), frameField f 63 56 = motionCheck (frameField f 55 0) ∧ frameField f 11 8 = 10 ∧
     s.on F.MOT_STAT_LINK_UP = true) ∧
    (∃ (f : BitVec 64) (s : State), frameField f 63 56 = motionCheck (frameField f 55 0) ∧ s.on F.MOT_STAT_LINK_UP = true) ∧
    (∃ (s : State), s.on F.MOT_STAT_LINK_UP = true) ∧
    (∃ (s : State), s.on F.MOT_STAT_LINK_UP = false) :=
  ⟨⟨active.put F.MOT_CTL_ENABLE 1, by decide +kernel⟩,
   ⟨active.put F.MOT_CTL_ENABLE 0, by decide +kernel⟩,
   ⟨motionFrame 8 0 0 0 ^^^ 0x8000000000000000, by decide +kernel⟩,
   ⟨motionFrame 8 3 0 0xFFFFF, active.put F.MOT_STAT_LINK_UP 1, by decide +kernel⟩,
   ⟨motionFrame 9 0 0 0x7FF000, (active.put F.MOT_STAT_LINK_UP 1).put F.SPM_STAT_STATE 8, by decide +kernel⟩,
   ⟨motionFrame 10 0 0 0x1E00, active.put F.MOT_STAT_LINK_UP 1, by decide +kernel⟩,
   ⟨motionFrame 10 0 0 0x10, (active.put F.MOT_STAT_LINK_UP 1).put F.MOT_CTL_SUPPLY_PF 1, by decide +kernel⟩,
   ⟨motionFrame 9 0 0 0, active.put F.MOT_STAT_LINK_UP 1, by decide +kernel⟩,
   ⟨active.put F.MOT_STAT_LINK_UP 1, by decide +kernel⟩,
   ⟨active, by decide +kernel⟩⟩

theorem witness_PacerPlansSettlesAndLoads :
    (∃ (n : Lane) (fw : Bool) (s : State), s.accepts (R.SVn_PACE_TGT_LO n) = true ∧ s.on (F.SVn_PACE_CTL_SRC n) = fw) ∧
    (∃ (n : Lane) (fw : Bool) (s : State), s.accepts (R.SVn_PACE_TGT_LO n) = true ∧ s.on (F.SVn_PACE_CTL_SRC n) ≠ fw) ∧
    (∃ (n : Lane) (e : Dword) (s : State), servoRuns s n = true ∧ s.get (F.SVn_LAP_WEDGE n) % 4 = 0 ∧ motionState s n = Mo.follow ∧
     (s.sv n).mailbox = some e ∧ (s.sv n).unloadDue = false ∧ (s.sv n).restartDue = false ∧ (s.act (actOf s n)).offset = none) ∧
    (∃ (n : Lane) (e : Dword) (s : State),
     (motionState s n = Mo.off ∨ (servoRuns s n = true ∧ s.get (F.SVn_LAP_WEDGE n) % 4 = 0 ∧ motionState s n ∈
           [Mo.parked, Mo.fault, Mo.retract, Mo.unloading, Mo.loading] ∧ (s.sv n).unloadDue = false ∧ (s.sv n).restartDue = false)) ∧
     (s.sv n).mailbox = some e) ∧
    (∃ (n : Lane) (s : State), servoRuns s n = true ∧ s.get (F.SVn_LAP_WEDGE n) % 4 = 0 ∧ motionState s n = Mo.acquire ∧
     (s.sv n).unloadDue = false ∧ (s.sv n).restartDue = false) ∧
    (∃ (n : Lane) (s : State), servoRuns s n = true ∧ s.get (F.SVn_LAP_WEDGE n) % 4 = 0 ∧ (s.sv n).mailbox = none ∧
     ((s.sv n).unloadDue = true ∨ (s.sv n).restartDue = true)) ∧
    (∃ (n : Lane) (p : Plan) (s : State), (s.sv n).plan = some p ∧ p.fresh = false ∧ (s.sv n).restartDue = false ∧ planLength p ≤ p.time ∧
     motionState s n = Mo.seek) ∧
    (∃ (n : Lane) (p : Plan) (s : State), (s.sv n).plan = some p ∧ p.fresh = false ∧ (s.sv n).restartDue = false ∧ planLength p ≤ p.time ∧
     motionState s n = Mo.unloading ∧ p.unload = true) ∧
    (∃ (n : Lane) (s : State), (motionState s n = Mo.seek ∨ motionState s n = Mo.settle) ∧ (s.sv n).restartDue = false ∧
     max 1 (s.get (F.SVn_PACE_FE_WEDGES n)) ≤ (s.sv n).feCount) ∧
    (∃ (n : Lane) (p : Plan) (tag : BitVec 8) (s : State), motionState s n = Mo.settle ∧ (s.sv n).restartDue = false ∧
     max 1 (s.get (F.SVn_PACE_SETTLE_WEDGES n)) ≤ (s.sv n).settleCount ∧ (s.sv n).plan = some p ∧ p.tag = some tag) ∧
    (∃ (n : Lane) (s : State), motionState s n = Mo.settle ∧ s.get (F.SVn_PACE_SETTLE_MAX n) ≠ 0 ∧
     s.get (F.SVn_PACE_SETTLE_MAX n) ≤ (s.sv n).settleWedges) ∧
    (∃ (n : Lane) (s : State), motionState s n = Mo.acquire ∧ max 1 (s.get (F.SVn_PACE_LOAD_ACQ_WEDGES n)) ≤ (s.sv n).acqCount) ∧
    (∃ (n : Lane) (s : State), motionState s n ∈ [Mo.loading, Mo.acquire, Mo.seek, Mo.settle] ∧ 1 ≤ (s.sv n).attempt ∧
     (s.sv n).attempt ≤ s.get (F.SVn_PACE_LOAD_RETRY n)) ∧
    (∃ (n : Lane) (s : State), motionState s n ∈ [Mo.loading, Mo.acquire, Mo.seek, Mo.settle] ∧
     s.get (F.SVn_PACE_LOAD_RETRY n) < (s.sv n).attempt) ∧
    (∃ (n : Lane) (s : State), motionState s n = Mo.retract ∧ s.on F.GLB_MODE_COND_POWER_FAIL = false) ∧
    (∃ (n : Lane) (s : State), motionState s n = Mo.unloading ∧ (s.sv n).uldEnded = true) :=
  ⟨⟨2, false, active, by decide +kernel⟩,
   ⟨2, true, active, by decide +kernel⟩,
   ⟨2, 0x0001000200000300, ((active.put (F.SVn_STAT_STATE 2) 6).put (F.SVn_CTL_ENABLE 2) 1).onSv 2
         (fun v => { v with mailbox := some 0x0001000200000300 }), by decide +kernel⟩,
   ⟨2, 7, active.onSv 2 (fun v => { v with mailbox := some 7 }), by decide +kernel⟩,
   ⟨2, ((active.put (F.SVn_STAT_STATE 2) 3).put (F.SVn_CTL_ENABLE 2) 1).onSv 2 (fun v => { v with mailbox := some 7 }), by decide +kernel⟩,
   ⟨2, ((active.put (F.SVn_STAT_STATE 2) 4).put (F.SVn_CTL_ENABLE 2) 1).onSv 2 (fun v => { v with restartDue := true }), by decide +kernel⟩,
   ⟨2, ⟨⟨0, 0, 0⟩, [(0, 1)], 5, 1, false, none, false⟩, (active.put (F.SVn_STAT_STATE 2) 4).onSv 2
         (fun v => { v with plan := some ⟨⟨0, 0, 0⟩, [(0, 1)], 5, 1, false, none, false⟩ }), by decide +kernel⟩,
   ⟨2, ⟨⟨0, 0, 0⟩, [(0, 1)], 5, 1, false, none, true⟩, (active.put (F.SVn_STAT_STATE 2) 7).onSv 2
         (fun v => { v with plan := some ⟨⟨0, 0, 0⟩, [(0, 1)], 5, 1, false, none, true⟩ }), by decide +kernel⟩,
   ⟨2, ((active.put (F.SVn_STAT_STATE 2) 4).put (F.SVn_PACE_FE_RETRY 2) 3).onSv 2 (fun v => { v with feCount := 255 }), by decide +kernel⟩,
   ⟨2, ⟨⟨0, 0, 0⟩, [], 5, 1, false, some 9, false⟩, 9, (active.put (F.SVn_STAT_STATE 2) 5).onSv 2
         (fun v => { v with settleCount := 255, plan := some ⟨⟨0, 0, 0⟩, [], 5, 1, false, some 9, false⟩ }), by decide +kernel⟩,
   ⟨2, ((active.put (F.SVn_STAT_STATE 2) 5).put (F.SVn_PACE_SETTLE_MAX 2) 3).onSv 2 (fun v => { v with settleWedges := 3 }), by decide +kernel⟩,
   ⟨2, (active.put (F.SVn_STAT_STATE 2) 3).onSv 2 (fun v => { v with acqCount := 2000 }), by decide +kernel⟩,
   ⟨2, ((active.put (F.SVn_STAT_STATE 2) 2).put (F.SVn_PACE_LOAD_RETRY 2) 1).onSv 2 (fun v => { v with attempt := 1 }), by decide +kernel⟩,
   ⟨2, ((active.put (F.SVn_STAT_STATE 2) 2).put (F.SVn_PACE_LOAD_RETRY 2) 1).onSv 2 (fun v => { v with attempt := 2 }), by decide +kernel⟩,
   ⟨2, (active.put (F.SVn_STAT_STATE 2) 8).put F.MOT_STAT_LINK_UP 1, by decide +kernel⟩,
   ⟨2, (active.put (F.SVn_STAT_STATE 2) 7).onSv 2 (fun v => { v with uldEnded := true }), by decide +kernel⟩⟩

theorem witness_SpindleStartsUnderControl :
    (∃ (s : State), s.accepts R.SPM_CMD = true) ∧
    (∃ (s : State), s.spm.restCheck = true ∧ spinState s = Sp.stopped ∧ 2000 ≤ s.spm.volts.length ∧ peakVolts s < s.get F.SPM_BRAKE_CFG_STOP_MV) ∧
    (∃ (s : State), s.spm.restCheck = true ∧ spinState s = Sp.stopped ∧ 2000 ≤ s.spm.volts.length ∧ s.get F.SPM_BRAKE_CFG_STOP_MV ≤ peakVolts s) ∧
    (∃ (s : State), spinState s = Sp.sense ∧ 6 ≤ s.spm.sense.length) ∧
    (∃ (beats : Nat) (w : BitVec 64) (rest : List (BitVec 64)) (s : State), s.mot.spindle = w :: rest ∧
     spinState s ∉ [Sp.sense, Sp.openLoop, Sp.partner] ∧ s.on F.MOT_CTL_ENABLE = true) ∧
    (∃ (w : BitVec 64) (rest : List (BitVec 64)) (s : State), s.mot.spindle = w :: rest ∧ (spinState s = Sp.sense ∨ spinState s = Sp.openLoop)) ∧
    (∃ (s : State), s.mot.spindle = [] ∧ commutates s = true) ∧
    (∃ (s : State), s.mot.spindle = [] ∧ commutates s = false) ∧
    (∃ (mean : Nat) (s : State), spinState s = Sp.keCheck ∧ mean ≠ 0 ∧
     (if 10000 * s.spm.kePeak < s.get F.SPM_KE_KE_IMG * mean then s.get F.SPM_KE_KE_IMG * mean - 10000 * s.spm.kePeak else 10000 * s.spm.kePeak -
         s.get F.SPM_KE_KE_IMG * mean) * 100 ≤ 12 * (s.get F.SPM_KE_KE_IMG * mean)) ∧
    (∃ (mean : Nat) (s : State), spinState s = Sp.keCheck ∧
     (mean = 0 ∨ 12 * (s.get F.SPM_KE_KE_IMG * mean) < (if 10000 * s.spm.kePeak < s.get F.SPM_KE_KE_IMG * mean then s.get F.SPM_KE_KE_IMG * mean -
           10000 * s.spm.kePeak else 10000 * s.spm.kePeak - s.get F.SPM_KE_KE_IMG * mean) * 100)) ∧
    (∃ (c : Instr) (f : Fld) (s : State),
     ((c = .noHandover ∧ f = F.SPM_FLT_NO_HANDOVER ∧ spinState s = Sp.openLoop) ∨
         (c = .spinTimeout ∧ f = F.SPM_FLT_SPIN_TIMEOUT ∧ spinState s ∈ [Sp.openLoop, Sp.runup, Sp.locking]))) ∧
    (∃ (s : State), spinState s = Sp.retryWait) :=
  ⟨⟨active, by decide +kernel⟩,
   ⟨(active.put F.SPM_BRAKE_CFG_STOP_MV 1).onSpm (fun m => { m with restCheck := true, volts := List.replicate 2000 0 }), by decide +kernel⟩,
   ⟨(active.put F.SPM_BRAKE_CFG_STOP_MV 1).onSpm (fun m => { m with restCheck := true, volts := List.replicate 2000 16 }), by decide +kernel⟩,
   ⟨(active.put F.SPM_STAT_STATE 1).onSpm (fun m => { m with sense := [1, 2, 3, 4, 9, 1] }), by decide +kernel⟩,
   ⟨2, spindleWord 4 4095 7 1, [],
         { (active.put F.SPM_STAT_STATE 3).put F.MOT_CTL_ENABLE 1 with mot := { active.mot with spindle := [spindleWord 4 4095 7 1], ahead := 9 } },
         by decide +kernel⟩,
   ⟨spindleWord 4 4095 7 1, [],
         { (active.put F.SPM_STAT_STATE 2).put F.MOT_CTL_ENABLE 1 with mot := { active.mot with spindle := [spindleWord 4 4095 7 1], ahead := 9 } },
         by decide +kernel⟩,
   ⟨active.put F.SPM_STAT_STATE 6, by decide +kernel⟩,
   ⟨active, by decide +kernel⟩,
   ⟨10000, ((active.put F.SPM_STAT_STATE 4).put F.SPM_KE_KE_IMG 100).onSpm (fun m => { m with kePeak := 112 }), by decide +kernel⟩,
   ⟨10000, ((active.put F.SPM_STAT_STATE 4).put F.SPM_KE_KE_IMG 100).onSpm (fun m => { m with kePeak := 113 }), by decide +kernel⟩,
   ⟨.spinTimeout, F.SPM_FLT_SPIN_TIMEOUT, (active.put F.SPM_STAT_STATE 5).put F.SPM_STAT_ATTEMPT 1 |>.put F.SPM_START_CFG_RETRY 1, by decide +kernel⟩,
   ⟨active.put F.SPM_STAT_STATE 9, by decide +kernel⟩⟩

theorem witness_SpindleRegulatesBrakesAndChangesCadence :
    (∃ (ns : Nat) (s : State), revolution s = some ns) ∧
    (∃ (ns : Nat) (s : State), revolution s = some ns ∧ spinState s = Sp.atSpeed ∧ s.spm.okState ≠ 2 ∧
     inRegulation (s.put F.SPM_SPEED_SPEED (min (2 ^ 17 - 1) (600000000000 / ns))) (s.get F.SPM_REG_CFG_FAULT_TOL) = true) ∧
    (∃ (s : State), revolution s = none) ∧
    (∃ (c : Instr) (f : Fld) (s : State),
     ((c = .zcTimeout ∧ f = F.SPM_FLT_REG_LOST ∧ spinState s ∈ [Sp.atSpeed, Sp.changing]) ∨
         (c = .cadTimeout ∧ f = F.SPM_FLT_CAD_TIMEOUT ∧ spinState s = Sp.changing ∧ s.spm.ramping = false ∧ s.spm.draining = false))) ∧
    (∃ (s : State), s.accepts R.SPM_CMD = true ∧ (Sp.sense ≤ spinState s ∧ spinState s ≤ Sp.locking ∨ spinState s = Sp.atSpeed) ∧
     allQuiet s = true ∧ s.spm.brakeDue ≠ some .fault) ∧
    (∃ (s : State), s.accepts R.SPM_CMD = true ∧ Sp.sense ≤ spinState s ∧ spinState s ≤ Sp.changing ∧ allQuiet s = false) ∧
    (∃ (s : State), s.accepts R.SPM_CMD = true ∧ (spinState s = Sp.stopped ∨ Sp.braking ≤ spinState s)) ∧
    (∃ (s : State), spinState s = Sp.braking ∧ s.spm.probing = false) ∧
    (∃ (s : State), spinState s = Sp.braking ∧ s.spm.probing = true ∧ 2000 ≤ s.spm.volts.length ∧ peakVolts s < s.get F.SPM_BRAKE_CFG_STOP_MV ∧
     s.spm.after ≠ .start) ∧
    (∃ (s : State), spinState s = Sp.braking ∧ s.spm.probing = true ∧ 2000 ≤ s.spm.volts.length ∧ s.get F.SPM_BRAKE_CFG_STOP_MV ≤ peakVolts s) ∧
    (∃ (s : State), spinState s = Sp.pfCoast) ∧
    (∃ (s : State), s.accepts R.SPM_CMD = true ∧ spinState s = Sp.fault) ∧
    (∃ (s : State), s.accepts R.SPM_CMD = true ∧ spinState s ≠ Sp.fault) ∧
    (∃ (c : BitVec 2) (s : State), earlyWrite s R.SPM_CAD_REQ = false ∧ cadenceDeclared s c.toNat = true ∧ spinState s = Sp.atSpeed ∧
     c.toNat ≠ cadence s) ∧
    (∃ (s : State), earlyWrite s R.SPM_CAD_REQ = false) ∧
    (∃ (s : State), s.spm.draining = true ∧ spinState s = Sp.changing ∧ lanes.any (fun n => lanePresent s n && gateOpen s n) = false) ∧
    (∃ (s : State), spinState s = Sp.changing ∧ s.spm.ramping = true ∧ s.spm.ref = (rpmOf s.spm.goal : Rat)) ∧
    (∃ (n : Lane) (s : State), (s.ln n).drain = true ∧ spinState s = Sp.atSpeed ∧
     (s.on (F.LNn_STAT_PLL_LOCK n) = true ∨ s.get (F.LNn_BPW_BPW n) = 0)) :=
  ⟨⟨1000, (active.put F.SPM_STAT_STATE 2).onSpm (fun m => { m with crossings := 2000 :: List.replicate 30 1000 }), by decide +kernel⟩,
   ⟨16666666, ((active.put F.SPM_STAT_STATE 6).put F.SPM_REG_CFG_FAULT_TOL 100).onSpm
         (fun m => { m with goal := 0, crossings := 16667666 :: List.replicate 30 1000 }), by decide +kernel⟩,
   ⟨active, by decide +kernel⟩,
   ⟨.zcTimeout, F.SPM_FLT_REG_LOST, (active.put F.SPM_STAT_STATE 6).put (F.SVn_STAT_STATE 3) 6, by decide +kernel⟩,
   ⟨active.put F.SPM_STAT_STATE 6, by decide +kernel⟩,
   ⟨(active.put F.SPM_STAT_STATE 6).put (F.SVn_STAT_STATE 3) 6, by decide +kernel⟩,
   ⟨active.put F.SPM_STAT_STATE 8, by decide +kernel⟩,
   ⟨active.put F.SPM_STAT_STATE 8, by decide +kernel⟩,
   ⟨((active.put F.SPM_STAT_STATE 8).put F.SPM_BRAKE_CFG_STOP_MV 5).onSpm
         (fun m => { m with after := .fault, probing := true, volts := List.replicate 2000 0 }), by decide +kernel⟩,
   ⟨((active.put F.SPM_STAT_STATE 8).put F.SPM_BRAKE_CFG_STOP_MV 5).onSpm
         (fun m => { m with after := .fault, probing := true, volts := List.replicate 2000 5 }), by decide +kernel⟩,
   ⟨active.put F.SPM_STAT_STATE 10, by decide +kernel⟩,
   ⟨(active.put F.SPM_STAT_STATE 11).onSpm (fun m => { m with okState := 1 }), by decide +kernel⟩,
   ⟨active, by decide +kernel⟩,
   ⟨1, active.put F.SPM_STAT_STATE 6 |>.put F.SPM_STAT_CAD 0, by decide +kernel⟩,
   ⟨active, by decide +kernel⟩,
   ⟨(active.put F.SPM_STAT_STATE 7).onSpm (fun m => { m with draining := true }), by decide +kernel⟩,
   ⟨(active.put F.SPM_STAT_STATE 7).onSpm (fun m => { m with ramping := true, ref := 3600, goal := 0 }), by decide +kernel⟩,
   ⟨3, ((active.put F.SPM_STAT_STATE 6).put (F.LNn_STAT_PLL_LOCK 3) 1).onLn 3 (fun l => { l with drain := true }), by decide +kernel⟩⟩

theorem witness_SequencerRunsTrapsAndHalts :
    (∃ (n : Lane) (s : State), s.accepts (R.MSn_CTL n) = true ∧ s.on (F.MSn_CTL_RUN n) = false ∧
     (seqState s n = Seq.halted ∨ seqState s n = Seq.faulted) ∧ (s.ms n).storeErr = false ∧ seqMode s.mode = true) ∧
    (∃ (n : Lane) (s : State), s.accepts (R.MSn_CTL n) = true ∧ s.on (F.MSn_CTL_RUN n) = false ∧ seqState s n = Seq.halted ∧
     (s.ms n).storeErr = false ∧ seqMode s.mode = false) ∧
    (∃ (n : Lane) (s : State), s.accepts (R.MSn_CTL n) = true ∧ s.on (F.MSn_CTL_RUN n) = true ∧ seqRuns s n = true ∧
     mw (seqWord s n) 141 141 = 1 ∧ (s.ms n).acted = 0) ∧
    (∃ (n : Lane) (s : State), s.accepts (R.MSn_CTL n) = true ∧ s.on (F.MSn_CTL_RUN n) = true ∧ seqRuns s n = true ∧
     mw (seqWord s n) 141 141 = 0) ∧
    (∃ (n : Lane) (s : State), s.accepts (R.MSn_CTL n) = true ∧ s.on (F.MSn_CTL_RUN n) = true ∧ seqState s n = Seq.halted ∧
     seqMode s.mode = true ∧ (s.ms n).storeErr = false) ∧
    (∃ (n : Lane) (s : State), s.accepts (R.MSn_INT n) = true) ∧
    (∃ (n : Lane) (c : Nat) (s : State), seqRuns s n = true ∧ (s.ms n).stopping = false ∧ mw (seqWord s n) 32 32 = 0 ∧ wordFault s n = some c ∧
     s.on (F.MSn_STAT_MASK n) = false) ∧
    (∃ (n : Lane) (b : Nat) (s : State), seqRuns s n = true ∧ (s.ms n).stopping = false ∧ mw (seqWord s n) 32 32 = 0 ∧ wordFault s n = none ∧
     wordWaits s n = true ∧ mw (seqWord s n) 141 141 = 1 ∧ pendingInt s n = some b) ∧
    (∃ (n : Lane) (c : Nat) (s : State), seqRuns s n = true ∧ (s.ms n).stopping = false ∧ mw (seqWord s n) 32 32 = 0 ∧ wordFault s n = some c ∧
     s.on (F.MSn_STAT_MASK n) = true) ∧
    (∃ (n : Lane) (s : State), seqRuns s n = true ∧ (seqMode s.mode = false ∨ (s.ms n).stopping = true)) ∧
    (∃ (n : Lane) (s : State), mw (seqWord s n) 140 139 = 2 ∧ seqRuns s n = true ∧ (s.ms n).holding = true ∧
     (s.onMs n (fun m => { m with holding := false })).wordReady n = true) ∧
    (∃ (n : Lane) (s : State), mw (seqWord s n) 140 139 = 1 ∧ s.on (F.LNn_STAT_PLL_LOCK n) = false) ∧
    (∃ (n : Lane) (b : Nat) (s : State), seqRuns s n = true ∧ (s.ms n).stopping = false ∧ mw (seqWord s n) 32 32 = 0 ∧ wordFault s n = none ∧
     wordHolds s n = false ∧ mw (seqWord s n) 141 141 = 1 ∧ pendingInt s n = some b) :=
  ⟨⟨1, active.put (F.MSn_STAT_STATE 1) 1, by decide +kernel⟩,
   ⟨1, (active.put (F.MSn_STAT_STATE 1) 1).put F.GLB_MODE_MODE Mode.standby, by decide +kernel⟩,
   ⟨1, (atMicroword (word [(141, 1)])).put (F.MSn_CTL_RUN 1) 1, by decide +kernel⟩,
   ⟨1, (atMicroword 0).put (F.MSn_CTL_RUN 1) 1, by decide +kernel⟩,
   ⟨1, ((atMicroword 0).put (F.MSn_CTL_RUN 1) 1).put (F.MSn_STAT_STATE 1) 1, by decide +kernel⟩,
   ⟨2, active, by decide +kernel⟩,
   ⟨1, 8, atMicroword (word [(33, 2)]), by decide +kernel⟩,
   ⟨1, 1, ((atMicroword (word [(141, 1)])).onMs 1 (fun m => { m with holding := true })).put ⟨R.MSn_INT 1, 6, 0⟩ 2, by decide +kernel⟩,
   ⟨1, 8, (atMicroword (word [(33, 2)])).put (F.MSn_STAT_MASK 1) 1, by decide +kernel⟩,
   ⟨1, ((atMicroword 0).put (F.MSn_CTL_RUN 1) 1).put F.GLB_MODE_MODE Mode.standby, by decide +kernel⟩,
   ⟨1, (atMicroword (word [(139, 2)])).onMs 1 (fun m => { m with holding := true }), by decide +kernel⟩,
   ⟨1, atMicroword (word [(139, 1)]), by decide +kernel⟩,
   ⟨1, 1, (atMicroword (word [(141, 1)])).put ⟨R.MSn_INT 1, 6, 0⟩ 2, by decide +kernel⟩⟩

theorem witness_MicrowordChoosesNextAddress :
    (∃ (n : Lane) (s : State), s.wordReady n = true ∧ pendingInt s n = none ∧ mw (seqWord s n) 144 142 = 0) ∧
    (∃ (n : Lane) (b : Nat) (s : State), s.wordReady n = true ∧ pendingInt s n = some b ∧ mw (seqWord s n) 141 141 = 1 ∧
     mw (seqWord s n) 144 142 = 3) ∧
    (∃ (n : Lane) (s : State), s.wordReady n = true ∧ pendingInt s n = none ∧ mw (seqWord s n) 144 142 = 1 ∧ aluWritesLc (seqWord s n) 0 = false) ∧
    (∃ (n : Lane) (s : State), s.wordReady n = true ∧ pendingInt s n = none ∧ mw (seqWord s n) 144 142 = 2 ∧ aluWritesLc (seqWord s n) 1 = false) ∧
    (∃ (n : Lane) (s : State), s.wordReady n = true ∧ pendingInt s n = none ∧ mw (seqWord s n) 144 142 = 3) ∧
    (∃ (n : Lane) (a : BitVec 12) (rest : List (BitVec 12)) (s : State), s.wordReady n = true ∧ pendingInt s n = none ∧
     mw (seqWord s n) 144 142 = 4 ∧ (s.ms n).cur.stack = a :: rest) ∧
    (∃ (n : Lane) (s : State), s.wordReady n = true ∧ pendingInt s n = none ∧ mw (seqWord s n) 144 142 = 5) ∧
    (∃ (n : Lane) (s : State), s.wordReady n = true ∧ mw (seqWord s n) 144 142 = 6) ∧
    (∃ (n : Lane) (s : State), s.wordReady n = true ∧ pendingInt s n = none ∧ mw (seqWord s n) 144 142 = 7) ∧
    (∃ (n : Lane) (s : State), (s.ms n).acted = 0 ∧ s.get (F.MSn_STAT_PC n) ≠ 0xFFF ∧ reservedCode (seqWord s n) = false ∧
     mw (seqWord s n) 140 139 = 0 ∧ mw (seqWord s n) 119 117 = 0 ∧ mw (seqWord s n) 85 83 = 0) ∧
    (∃ (n : Lane) (c : Instr) (k : Nat) (s : State),
     (k, c) ∈ [(0, Instr.branch n false), (1, .loop n false), (2, .loop n false), (3, .call n false), (4, .return_ n false),
         (5, .dispatch n false), (6, .halt n false), (7, .trapReturn n false)] ∧ seqRuns s n = true ∧ mw (seqWord s n) 144 142 = k) ∧
    (∃ (n : Lane) (c : Instr) (k : Nat) (s : State),
     (k, c) ∈ [(0, Instr.branch n true), (1, .loop n true), (2, .loop n true), (3, .call n true), (4, .return_ n true), (5, .dispatch n true),
         (7, .trapReturn n true)] ∧ s.wordReady n = true ∧ pendingInt s n = none ∧ mw (seqWord s n) 144 142 = k ∧ mw (seqWord s n) 121 117 = 0 ∧
     mw (seqWord s n) 93 92 = 0 ∧ mw (seqWord s n) 85 68 = 0 ∧ mw (seqWord s n) 35 33 = 0) :=
  ⟨⟨1, (atMicroword (word [(152, 5), (164, 6), (36, 7), (68, 2)])).onMs 1 (fun m => { m with conds := 1 }), by decide +kernel⟩,
   ⟨1, 0, (atMicroword (word [(142, 3), (141, 1), (152, 5), (164, 6)])).put ⟨R.MSn_INT 1, 6, 0⟩ 1, by decide +kernel⟩,
   ⟨1, (atMicroword (word [(142, 1), (152, 5), (164, 6)])).onMs 1 (fun m => { m with cur := { m.cur with lc0 := 3 } }), by decide +kernel⟩,
   ⟨1, atMicroword (word [(142, 2), (152, 5), (164, 6)]), by decide +kernel⟩,
   ⟨1, atMicroword (word [(142, 3), (152, 5), (164, 6)]), by decide +kernel⟩,
   ⟨1, 9, [4], (atMicroword (word [(142, 4)])).onMs 1 (fun m => { m with cur := { m.cur with stack := [9, 4] } }), by decide +kernel⟩,
   ⟨1, (atMicroword (word [(142, 5), (152, 4095)])).onMs 1 (fun m => { m with cur := { m.cur with op := 3 } }), by decide +kernel⟩,
   ⟨1, atMicroword (word [(142, 6)]), by decide +kernel⟩,
   ⟨1, ((atMicroword (word [(142, 7)])).put (F.MSn_STAT_MASK 1) 1).put (F.MSn_TRAP_RET 1) 77, by decide +kernel⟩,
   ⟨1, atMicroword (word [(142, 4)]), by decide +kernel⟩,
   ⟨1, .call 1 false, 3, atMicroword (word [(142, 3)]), by decide +kernel⟩,
   ⟨1, .call 1 true, 3, atMicroword (word [(142, 3)]), by decide +kernel⟩⟩

theorem witness_MicrowordGatesAndBusFieldsAct :
    (∃ (n : Lane) (heard : BitVec 112) (d : Sector) (s : State), s.wordReady n = true ∧ mw (seqWord s n) 121 120 = 1 ∧ (s.ms n).acted = 0 ∧
     contFor s n 1 = none ∧ gateSector s n = some d ∧ d.part = 0 ∧ s.on F.GLB_MODE_COND_POWER_FAIL = false ∧ markFound heard = true) ∧
    (∃ (n : Lane) (heard : BitVec 112) (d : Sector) (s : State), s.wordReady n = true ∧ mw (seqWord s n) 121 120 = 1 ∧ (s.ms n).acted = 0 ∧
     contFor s n 1 = none ∧ gateSector s n = some d ∧ d.part = 0 ∧ s.on F.GLB_MODE_COND_POWER_FAIL = false ∧ markFound heard = false ∧
     (s.ln n).ladder = none ∧ sectorGroup s d = none) ∧
    (∃ (n : Lane) (heard : BitVec 112) (d : Sector) (s : State), s.wordReady n = true ∧ mw (seqWord s n) 121 120 = 1 ∧
     mw (seqWord s n) 85 83 = 0 ∧ (s.ms n).acted = 0 ∧ contFor s n 1 = some d ∧ d.part ≠ 0 ∧ s.on F.GLB_MODE_COND_POWER_FAIL = false ∧
     markFound heard = true) ∧
    (∃ (n : Lane) (d : Sector) (s : State), s.wordReady n = true ∧ mw (seqWord s n) 121 120 = 2 ∧ (s.ms n).acted = 0 ∧ contFor s n 2 = none ∧
     gateSector s n = some d ∧ s.on F.GLB_MODE_COND_POWER_FAIL = false ∧ s.get (F.LNn_WR_STAT_INH_NOW n) = 0 ∧ (s.ln n).inh0 = false) ∧
    (∃ (n : Lane) (d : Sector) (s : State), s.wordReady n = true ∧ mw (seqWord s n) 121 120 = 3 ∧ (s.ms n).acted = 0 ∧
     s.on (F.LNn_STAT_RD_GATE n) = true ∧ (s.ln n).gate = some d) ∧
    (∃ (n : Lane) (d : Sector) (s : State), s.wordReady n = true ∧ mw (seqWord s n) 121 120 = 3 ∧ (s.ms n).acted = 0 ∧
     s.get (F.LNn_STAT_RD_GATE n) = 0 ∧ s.get (F.LNn_STAT_WR_GATE n) = 1 ∧ (s.ln n).gate = some d ∧ d.revs < s.get (F.LNn_WR_CTL_WR_RETRY n)) ∧
    (∃ (n : Lane) (s : State), s.wordReady n = true ∧ mw (seqWord s n) 119 117 = 1 ∧ mutedWord s n = false ∧ (s.ms n).acted.getLsbD 1 = false ∧
     (s.ln n).slept = false) ∧
    (∃ (n : Lane) (s : State), s.wordReady n = true ∧ mw (seqWord s n) 119 117 = 2 ∧ mw (seqWord s n) 108 106 = 5 ∧ mutedWord s n = false ∧
     (s.ms n).acted.getLsbD 1 = false ∧ (s.ln n).slept = false) ∧
    (∃ (n : Lane) (f : PbFrame) (s : State), s.wordReady n = true ∧ mw (seqWord s n) 119 117 = 2 ∧ mw (seqWord s n) 108 106 = 2 ∧
     mutedWord s n = false ∧ (s.ms n).acted.getLsbD 1 = false ∧ (s.ln n).slept = false ∧
     f = settingFrameOf (s.ms n).cur.hd 0x02
       (((tableGet s n 4 (s.ms n).cur.hd.toNat (s.get (F.LNn_STAT_ZONE n)) 0).extractLsb' 0 8).zeroExtend 16)) ∧
    (∃ (n : Lane) (s : State), s.wordReady n = true ∧ mw (seqWord s n) 119 117 = 3 ∧ mutedWord s n = false ∧ (s.ms n).acted.getLsbD 1 = false ∧
     (s.ln n).slept = false) ∧
    (∃ (n : Lane) (s : State), s.wordReady n = true ∧ mw (seqWord s n) 119 117 = 4 ∧ mutedWord s n = false ∧ (s.ms n).acted.getLsbD 1 = false ∧
     (s.ln n).slept = false) ∧
    (∃ (n : Lane) (s : State), s.wordReady n = true ∧ mw (seqWord s n) 93 92 = 1 ∧ mutedWord s n = false ∧ (s.ms n).acted.getLsbD 2 = false) ∧
    (∃ (n : Lane) (s : State), s.wordReady n = true ∧ mw (seqWord s n) 93 92 = 2 ∧ mutedWord s n = false ∧ (s.ms n).acted.getLsbD 2 = false) ∧
    (∃ (n : Lane) (k : Nat) (c : Instr) (s : State), s.wordReady n = true ∧ mw (seqWord s n) 85 83 = k ∧
     (k, c) ∈ [(1, Instr.sectRead n), (2, .sectWrite n), (3, .sectWriteVerify n), (5, .sectReadSpill n)] ∧ mutedWord s n = false ∧
     (s.ms n).acted.getLsbD 3 = false) ∧
    (∃ (n : Lane) (s : State), s.wordReady n = true ∧ mw (seqWord s n) 85 83 = 4 ∧ mutedWord s n = false ∧ (s.ms n).acted.getLsbD 3 = false) ∧
    (∃ (n : Lane) (hi : Nat) (lo : Nat) (c : Instr) (s : State),
     (hi, lo, c) ∈ [(121, 120, Instr.openRead n 0), (121, 120, .openWrite n), (119, 117, .gateFrame n), (119, 117, .settingFrame n),
         (119, 117, .readFaultStat n), (119, 117, .readRegister n), (93, 92, .readOverride n), (85, 83, .sectRead n), (85, 83, .sectWrite n),
         (85, 83, .sectWriteVerify n), (85, 83, .startParityGroup n), (85, 83, .sectReadSpill n), (82, 80, .pop n []), (82, 80, .discard n),
         (79, 72, .eventPost n), (71, 68, .alu n), (35, 33, .clkZone n)] ∧ s.wordReady n = true ∧ mutedWord s n = true) :=
  ⟨⟨1, syncHeard, { sector with write := false }, ((atMicroword (word [(120, 1)])).put (F.LNn_STAT_PLL_LOCK 1) 1).onLn 1
         (fun l => { l with desc := some { sector with write := false } }), by decide +kernel⟩,
   ⟨1, 0, { sector with write := false }, ((atMicroword (word [(120, 1)])).put (F.LNn_STAT_PLL_LOCK 1) 1).onLn 1
         (fun l => { l with desc := some { sector with write := false } }), by decide +kernel⟩,
   ⟨1, syncHeard, { sector with write := false, part := 1 }, ((atMicroword (word [(120, 1)])).put (F.LNn_STAT_PLL_LOCK 1) 1).onLn 1
         (fun l => { l with cont := some { sector with write := false, part := 1 } }), by decide +kernel⟩,
   ⟨0, sector, (((preampReady sector).put (F.MSn_STAT_STATE 0) 2).onMs 0 (fun m => { m with store := [(0, word [(120, 2)])] })).onLn 0
         (fun l => { l with desc := some sector, wfifo := [[1, 2], [3]] }), by decide +kernel⟩,
   ⟨1, sector, ((atMicroword (word [(120, 3)])).put (F.LNn_STAT_RD_GATE 1) 1).onLn 1 (fun l => { l with gate := some sector, reads := [sector] }), by
         decide +kernel⟩,
   ⟨1, sector, (((atMicroword (word [(120, 3)])).put (F.LNn_STAT_WR_GATE 1) 1).put (F.LNn_WR_CTL_WR_RETRY 1) 3).onLn 1
         (fun l => { l with gate := some sector }), by decide +kernel⟩,
   ⟨1, (atMicroword (word [(117, 1), (94, 9)])).put ((F.LNn_HEAD_EN_EN 1).bit 0) 1, by decide +kernel⟩,
   ⟨1, atMicroword (word [(117, 2), (106, 5), (109, 3)]), by decide +kernel⟩,
   ⟨1, settingFrameOf 0 2 0, atMicroword (word [(117, 2), (106, 2)]), by decide +kernel⟩,
   ⟨1, atMicroword (word [(117, 3)]), by decide +kernel⟩,
   ⟨1, atMicroword (word [(117, 4), (109, 7)]), by decide +kernel⟩,
   ⟨1, atMicroword (word [(92, 1), (90, 2), (86, 1)]), by decide +kernel⟩,
   ⟨1, atMicroword (word [(92, 2)]), by decide +kernel⟩,
   ⟨1, 3, .sectWriteVerify 1, (atMicroword (word [(83, 3)])).put ((F.LNn_HEAD_EN_EN 1).bit 0) 1, by decide +kernel⟩,
   ⟨1, atMicroword (word [(83, 4)]), by decide +kernel⟩,
   ⟨1, 119, 117, .gateFrame 1, ((atMicroword (word [(120, 1), (117, 3)])).put (F.LNn_STAT_PLL_LOCK 1) 1).put F.GLB_MODE_COND_POWER_FAIL 1, by
         decide +kernel⟩⟩

theorem witness_MicrowordDataFieldsAct :
    (∃ (n : Lane) (e : BitVec 128) (rest : List (BitVec 128)) (s : State), s.wordReady n = true ∧ mutedWord s n = false ∧
     mw (seqWord s n) 82 80 = 1 ∧ (s.ms n).acted.getLsbD 4 = false ∧ (s.ms n).acted.getLsbD 6 = false ∧ (s.ms n).cmd = e :: rest) ∧
    (∃ (n : Lane) (e : BitVec 128) (rest : List (BitVec 128)) (s : State), s.wordReady n = true ∧ mutedWord s n = false ∧
     mw (seqWord s n) 82 80 = 2 ∧ (s.ms n).acted.getLsbD 4 = false ∧ (s.ms n).cmd = e :: rest) ∧
    (∃ (n : Lane) (s : State), s.wordReady n = true ∧ mutedWord s n = false ∧ mw (seqWord s n) 79 72 ≠ 0 ∧ (s.ms n).acted.getLsbD 5 = false) ∧
    (∃ (n : Lane) (op : Nat) (dst : BitVec 24) (src : BitVec 24) (imm : BitVec 24) (v : BitVec 24) (s : State), s.wordReady n = true ∧
     mutedWord s n = false ∧ mw (seqWord s n) 71 68 = op ∧ 1 ≤ op ∧ (s.ms n).acted.getLsbD 6 = false ∧
     dst = seqReg (s.ms n).cur (mw (seqWord s n) 67 64) ∧ src = seqReg (s.ms n).cur (mw (seqWord s n) 63 60) ∧
     imm = BitVec.ofNat 24 (mw (seqWord s n) 59 36) ∧
     (op, v) ∈ [(1, src), (2, imm), (3, dst + src), (4, dst + imm), (5, dst - src), (6, dst &&& imm), (7, dst ||| imm),
         (8, src >>> (imm.toNat % 32)), (9, dst - src), (10, dst - imm), (11, BitVec.ofNat 24 ([s.get (F.SVn_LAP_WEDGE n), s.get
               (F.SVn_LAP_LAP n), s.get (F.LNn_STAT_ZONE n), s.get (F.LNn_WR_STAT_INH_NOW n), s.get (F.LNn_VFY_STAT_PENDING n), s.get
               (F.MSn_TRAP_CAUSE n), 0, 0].getD (imm.toNat % 8) 0))]) ∧
    (∃ (n : Lane) (f : ZoneFmt) (s : State), s.wordReady n = true ∧ mutedWord s n = false ∧ mw (seqWord s n) 35 33 = 1 ∧
     (s.ms n).acted.getLsbD 7 = false ∧ zoneFmt s (bitsOf ((s.ms n).cur.w.get 2).toNat 4 0) = some f ∧
     (zonesOf s 0).map (fun z => decide (bitsOf ((s.ms n).cur.w.get 2).toNat 4 0 < z.z)) = some true) :=
  ⟨⟨1, 0x123456789ABCDEF0123456789ABCDE01, [0], (atMicroword (word [(80, 1)])).onMs 1
         (fun m => { m with cmd := [0x123456789ABCDEF0123456789ABCDE01, 0] }), by decide +kernel⟩,
   ⟨1, 5, [0], (atMicroword (word [(80, 2)])).onMs 1 (fun m => { m with cmd := [5, 0] }), by decide +kernel⟩,
   ⟨1, atMicroword (word [(72, 7)]), by decide +kernel⟩,
   ⟨1, 4, 0xFFFFFF, 0, 1, 0, (atMicroword (word [(68, 4), (64, 3), (36, 1)])).onMs 1
         (fun m => { m with cur := { m.cur with w := m.cur.w.set 3 0xFFFFFF } }), by decide +kernel⟩,
   ⟨1, ⟨100, 0, 0, 4, 4, 10, 0, [⟨0, 10, 0, 0⟩, ⟨1, 10, 0, 0⟩, ⟨2, 10, 0, 0⟩, ⟨3, 10, 0, 0⟩]⟩, atMicroword (word [(33, 1)]), by decide +kernel⟩⟩

theorem witness_BandJournalAndImagesReachTheMedia :
    (∃ (b : Bool) (s : State), bndRuns s = true ∧ flushReady s = true ∧ (b || flushWanted s) = true) ∧
    (∃ (b : Bool) (s : State), bndRuns s = true ∧ ((b || flushWanted s) = false ∨ flushReady s = false)) ∧
    (∃ (f : FlushRun) (s : State), bndRuns s = true ∧ s.bnd.flush = some f ∧ f.left = 0) ∧
    (∃ (k : Nat) (x : Slot) (f : FlushRun) (s : State), bndRuns s = true ∧ s.bnd.flush = some f ∧ f.left = 0 ∧ k ∈ f.slots ∧ s.slot k = some x ∧
     x.result = none ∧ x.dropped = false) ∧
    (∃ (s : State), s.accepts R.BND_CMD = true ∧ bndRuns s = true ∧ flushReady s = false) ∧
    (∃ (s : State), s.accepts R.BND_CMD = true ∧ bndRuns s = true ∧ flushReady s = true) ∧
    (∃ (s : State), s.accepts R.BND_CMD = true ∧ bndRuns s = true ∧ s.bnd.image = none ∧ s.get F.BND_STAT_STATE = 4) ∧
    (∃ (s : State), s.accepts R.BND_CMD = true ∧ bndRuns s = true ∧ s.bnd.image.isSome = true) ∧
    (∃ (s : State), bndRuns s = true ∧ (s.bnd.imageDue = true ∨ 4096 * max 1 (s.get F.BND_IMG_CFG_ENTRIES) ≤ s.bnd.sinceImage) ∧
     s.bnd.image = none ∧ s.get F.BND_STAT_STATE = 4) ∧
    (∃ (s : State), bndRuns s = true ∧ s.bnd.imageDue = false ∧ s.bnd.sinceImage < 4096 * max 1 (s.get F.BND_IMG_CFG_ENTRIES)) ∧
    (∃ (c : Nat) (s : State), bndRuns s = true ∧ s.bnd.image = some (c, 0)) :=
  ⟨⟨false, mapBuilt.onBnd (fun b => { b with flushDue := true, jnl := [jentry 0x03, jentry 0x05], freed := [3] }), by decide +kernel⟩,
   ⟨true, active, by decide +kernel⟩,
   ⟨⟨8, [], [], 0, [3], [], [0, 0, 0, 0]⟩, mapBuilt.onBnd
         (fun b => { b with flush := some ⟨8, [], [], 0, [3], [], [0, 0, 0, 0]⟩, rewrites := [⟨0, 1, none, 3, 9, 4, 0, false, 0⟩] }), by
         decide +kernel⟩,
   ⟨0, slotOf (cmdOf .flush), ⟨8, [], [], 0, [3], [0], [0, 0, 0, 0]⟩, (withSlot (slotOf (cmdOf .flush))).onBnd
         (fun b => { b with flush := some ⟨8, [], [], 0, [3], [0], [0, 0, 0, 0]⟩ }), by decide +kernel⟩,
   ⟨active, by decide +kernel⟩,
   ⟨mapBuilt, by decide +kernel⟩,
   ⟨mapBuilt, by decide +kernel⟩,
   ⟨mapBuilt.onBnd (fun b => { b with image := some (1, 2) }), by decide +kernel⟩,
   ⟨mapBuilt.onBnd (fun b => { b with sinceImage := 1000000000 }), by decide +kernel⟩,
   ⟨mapBuilt, by decide +kernel⟩,
   ⟨5, mapBuilt.onBnd (fun b => { b with image := some (5, 0), imgPos := 12 }), by decide +kernel⟩⟩

theorem witness_BandRewritesAndRebuildMoveTheMap :
    (∃ (l : Nat) (k : Nat) (b : Nat) (a : Lane) (s : State), bndRuns s = true ∧ rewriteReason s l = some k ∧
     s.bnd.rewrites.any (fun r => r.logical == l) = false ∧ s.get F.BND_STAT_STATE = 4 ∧ s.mode ≠ Mode.readonly ∧ journalFull s = false ∧
     rewriteActuator s l = some a ∧ ownLane s a = true ∧ leastWorn s (allocatable s a (k == 0 && (s.lband l).phys.isSome)) = some b ∧
     (takeSeq (bandSize s b) s).map Prod.fst = some (seqNext s)) ∧
    (∃ (l : Nat) (s : State), bndRuns s = true ∧ rewriteReason s l = none) ∧
    (∃ (b : Nat) (r : Rewrite) (s : State), bndRuns s = true ∧ s.bnd.rewrites.find? (fun r => r.new == b) = some r ∧ r.begun = true ∧
     r.size ≤ r.placed) ∧
    (∃ (r : Report) (s : State), bndRuns s = true ∧ s.reports.find? (fun r => r.kind == .due) = some r ∧ s.mode ≠ Mode.readonly ∧
     (runOf s r.band).map (fun x => x.kind) ∈ [some 0, some 1, some 5] ∧ newerThan s r.lba r.seq = true) ∧
    (∃ (s : State), bndRuns s = true ∧ s.get F.BND_STAT_STATE = 0 ∧ s.bnd.built = false ∧ lanes.any (headsLoaded s) = true) ∧
    (∃ (n : Lane) (r : Region) (s : State), bndRuns s = true ∧ s.get F.BND_STAT_STATE = 3 ∧ s.bnd.scan.find? (fun r => r.lane == n.val) = some r) ∧
    (∃ (s : State), bndRuns s = true ∧ s.get F.BND_STAT_STATE = 3 ∧ s.bnd.scan = []) ∧
    (∃ (s : State), bndRuns s = true ∧ s.get F.BND_STAT_STATE = 4) ∧
    (∃ (s : State), bndRuns s = true ∧ s.get F.BND_STAT_STATE = 5) :=
  ⟨⟨0, 0, 0, 0, mapBuilt.onBnd (fun b => { b with weakQ := [0], mci := [⟨0, 1, some (0, 0), 5⟩] }), by decide +kernel⟩,
   ⟨0, mapBuilt, by decide +kernel⟩,
   ⟨3, ⟨0, 1, none, 3, 9, 4, 4, true, 0⟩, mapBuilt.onBnd (fun b => { b with rewrites := [⟨0, 1, none, 3, 9, 4, 4, true, 0⟩] }), by decide +kernel⟩,
   ⟨⟨.due, 0, 0, 0, 0, 0, 5, 1, 0⟩,
         { mapBuilt.onBnd (fun b => { b with mci := [⟨5, 1, some (0, 0), 9⟩] }) with reports := [⟨.due, 0, 0, 0, 0, 0, 5, 1, 0⟩] }, by
         decide +kernel⟩,
   ⟨active.put (F.SVn_STAT_STATE 0) 6, by decide +kernel⟩,
   ⟨1, ⟨1, none, 0, 0⟩, (active.put F.BND_STAT_STATE 3).onBnd (fun b => { b with scan := [⟨1, none, 0, 0⟩] }), by decide +kernel⟩,
   ⟨active.put F.BND_STAT_STATE 3, by decide +kernel⟩,
   ⟨mapBuilt, by decide +kernel⟩,
   ⟨active.put F.BND_STAT_STATE 5, by decide +kernel⟩⟩

theorem witness_BandUpkeepCollectsMigratesPatrols :
    (∃ (s : State), bndRuns s = true ∧ upkeepRuns s = true) ∧
    (∃ (a : Lane) (l : Nat) (s : State), bndRuns s = true ∧ upkeepRuns s = true ∧ ownAct s a = true ∧ retiring (evalLevel a s) a = some l ∧
     upkeepRewrite (evalLevel a s) a = false) ∧
    (∃ (a : Lane) (s : State), bndRuns s = true ∧ upkeepRuns s = true ∧ (wearRange s a).1 - (wearRange s a).2 ≤ s.get F.BND_MIG_CFG_SPREAD ∧
     s.bnd.migrate.getLsbD a = false) ∧
    (∃ (a : Lane) (b : Nat) (l : Nat) (s : State), bndRuns s = true ∧ upkeepRuns s = true ∧
     s.get F.BND_MIG_CFG_SPREAD < (wearRange s a).1 - (wearRange s a).2 ∧ s.on F.BND_MIG_CFG_EN = true ∧ ownAct s a = true ∧ levelOf s a < 2 ∧
     upkeepRewrite s a = false ∧
     leastWorn s ((dataBands s a).filter (fun b => (s.band b).state == 2 && (match (s.band b).logical with
             | some l => coldBand s l && (match nsOfLba s (l * bandSectors s) with | some (_, e) => e.kind == 1 | none => false)
             | none => false))) = some b ∧ (s.band b).logical = some l) ∧
    (∃ (n : Lane) (s : State), bndRuns s = true ∧ s.get F.BND_STAT_STATE = 4 ∧ ownAct s n = true ∧ passOver s n = true) ∧
    (∃ (n : Lane) (b : Nat) (rest : List Nat) (s : State), bndRuns s = true ∧ s.get F.BND_STAT_STATE = 4 ∧ ownAct s n = true ∧
     workFor s (fun r => r.for_ == .patrol && r.act == n.val) = false ∧ (s.bnd.patrol.get n).queue = b :: rest) ∧
    (∃ (s : State), bndRuns s = true ∧ s.mode = Mode.readonly ∧ s.get F.BND_STAT_STATE = 4 ∧ s.bnd.readonlyAt = 1 ∧
     s.buf.cache.any (fun e => e.2.dirty) = false) ∧
    (∃ (s : State), bndRuns s = true ∧ s.mode = Mode.readonly ∧ s.get F.BND_STAT_STATE = 4 ∧ s.bnd.readonlyAt = 2 ∧ s.bnd.flush = none ∧
     s.bnd.flushDue = false) ∧
    (∃ (c : Instr) (a : Lane) (s : State), (c = .collectionLevel a ∨ c = .collectionWork a ∨ c = .migration a) ∧ bndRuns s = true ∧
     upkeepRuns s = false) :=
  ⟨⟨mapBuilt, by decide +kernel⟩,
   ⟨0, 2, mapBuilt.onBnd (fun b => { b with
             ns := [(0, ⟨1, 0, 0, 0, 8, 1, [], []⟩)], health := [(1, { healthNew with retire := true })],
             pbt := [(1, { mapBuilt.band 1 with state := 2, logical := some 2 })], lbt := [(2, { mapBuilt.lband 2 with phys := some 1 })] }), by
         decide +kernel⟩,
   ⟨1, mapBuilt, by decide +kernel⟩,
   ⟨0, 1, 2, ((((mapBuilt.put F.BND_MIG_CFG_EN 1).put F.BND_MIG_CFG_SPREAD 1).put F.BND_MIG_CFG_COLD_SHIFT 0).setPair R.BND_SEQ_LO R.BND_SEQ_HI 100).onBnd
         (fun b => { b with
             ns := [(0, ⟨1, 0, 0, 0, 8, 1, [], []⟩)],
             pbt := [(0, { mapBuilt.band 0 with rewrites := 50 }), (1, { mapBuilt.band 1 with state := 2, logical := some 2 })],
             lbt := [(2, { mapBuilt.lband 2 with phys := some 1 })] }), by decide +kernel⟩,
   ⟨1, mapBuilt, by decide +kernel⟩,
   ⟨0, 2, [7], mapBuilt.onBnd
         (fun b => { b with pbt := [(2, { mapBuilt.band 2 with state := 2 })], patrol := setV b.patrol 0 { b.patrol.get 0 with queue := [2, 7] } }),
         by decide +kernel⟩,
   ⟨(mapBuilt.put F.GLB_MODE_MODE Mode.readonly).onBnd (fun b => { b with readonlyAt := 1 }), by decide +kernel⟩,
   ⟨(mapBuilt.put F.GLB_MODE_MODE Mode.readonly).onBnd (fun b => { b with readonlyAt := 2 }), by decide +kernel⟩,
   ⟨.migration 0, 0, mapBuilt.put F.GLB_MODE_MODE Mode.readonly, by decide +kernel⟩⟩

theorem witness_RelayPoolDecisionsAndEvents :
    (∃ (r : WorkReq) (s : State), s.rly.requests.find? (canArrive s) = some r ∧ (∀ x ∈ arrivalGroup s r, owns s x.act = true) ∧
     poolRoom s r.cls (arrivalGroup s r).length = true) ∧
    (∃ (r : WorkReq) (s : State), s.rly.requests.find? (canArrive s) = some r ∧ poolRoom s r.cls (arrivalGroup s r).length = false) ∧
    (∃ (r : WorkReq) (s : State), s.rly.requests.find? (canArrive s) = some r ∧ arrivalGroup s r = [r] ∧ r.act < 4 ∧ owns s r.act = false ∧
     forwarding s = true ∧ fnHeld s r.fn = false ∧ poolRoom s r.cls 1 = true) ∧
    (∃ (lba : Nat) (count : Nat) (k : Nat) (e : NsEntry) (s : State), s.get F.BND_STAT_STATE = 4 ∧ 0 < dirtyRun s lba count ∧
     nsOfLba s lba = some (k, e) ∧ e.kind ≠ 2) ∧
    (∃ (a : Lane) (i : Item) (over_ : Bool) (s : State), s.reports = [] ∧ (∀ b : Lane, dispatchOver s b = false) ∧ mayDecide s a = true ∧
     (s.act a).busy = [] ∧ chooseItem s a = some (i, over_)) ∧
    (∃ (a : Lane) (i : Item) (over_ : Bool) (s : State), s.reports = [] ∧ (∀ b : Lane, dispatchOver s b = false) ∧ mayDecide s a = true ∧
     (s.act a).busy ≠ [] ∧ chooseItem s a = some (i, over_)) ∧
    (∃ (n : Lane) (e : BitVec 64) (rest : List (BitVec 64)) (i : Item) (s : State),
     (s.ms n).events.dropWhile (fun e => !Ev.known e) = e :: rest ∧ bitsOf e.toNat 7 0 = 7 ∧
     itemAt s (actOf s n) (bitsOf e.toNat 39 16) (bitsOf e.toNat 63 40) = some i) ∧
    (∃ (n : Lane) (a : Lane) (e : BitVec 64) (rest : List (BitVec 64)) (i : Item) (more : List Item) (s : State), actOf s n = a ∧
     (s.ms n).events.dropWhile (fun e => !Ev.known e) = e :: rest ∧ bitsOf e.toNat 7 0 = 9 ∧ (s.act a).busy = i :: more ∧
     s.on F.GLB_MODE_COND_POWER_FAIL = false ∧ s.on (F.SVn_PACE_CTL_SRC (laneOf s a)) = false) ∧
    (∃ (n : Lane) (a : Lane) (e : BitVec 64) (rest : List (BitVec 64)) (s : State), actOf s n = a ∧
     (s.ms n).events.dropWhile (fun e => !Ev.known e) = e :: rest ∧ bitsOf e.toNat 7 0 = 8) ∧
    (∃ (n : Lane) (a : Lane) (e : BitVec 64) (rest : List (BitVec 64)) (t0 : Nat) (k0 : Nat) (t1 : Nat) (k1 : Nat) (more : List (Nat × Nat))
         (s : State), actOf s n = a ∧ (s.ms n).events.dropWhile (fun e => !Ev.known e) = e :: rest ∧ bitsOf e.toNat 7 0 = 8 ∧
     (s.act a).steps = (t0, k0) :: (t1, k1) :: more ∧ t0 ≠ t1 ∧ (s.act a).tracksDone + 1 < (s.act a).tracksAll ∧
     s.on F.GLB_MODE_COND_POWER_FAIL = false) ∧
    (∃ (n : Lane) (k : Nat) (c : Instr) (e : BitVec 64) (rest : List (BitVec 64)) (s : State),
     (k, c) ∈ [(0x0A, Instr.ladder n), (0x02, .vfyMiss n), (0x05, .preampFault n), (0x06, .calRange n)] ∧
     (s.ms n).events.dropWhile (fun e => !Ev.known e) = e :: rest ∧ bitsOf e.toNat 7 0 = k) ∧
    (∃ (n : Lane) (e : BitVec 64) (rest : List (BitVec 64)) (r : Report) (s : State),
     (s.ms n).events.dropWhile (fun e => !Ev.known e) = e :: rest ∧ bitsOf e.toNat 7 0 = 3 ∧
     firstReport s .rewrite (actOf s n) (fun x => x.track == bitsOf e.toNat 39 16 && x.index == bitsOf e.toNat 63 40) = some r) ∧
    (∃ (n : Lane) (e : BitVec 64) (rest : List (BitVec 64)) (r : Report) (s : State),
     (s.ms n).events.dropWhile (fun e => !Ev.known e) = e :: rest ∧ bitsOf e.toNat 7 0 = 4 ∧
     firstReport s .relocate (actOf s n) (fun x => x.track % 65536 == bitsOf e.toNat 39 16 % 65536 && x.index == bitsOf e.toNat 63 40) = some r) ∧
    (∃ (n : Lane) (e : BitVec 64) (rest : List (BitVec 64)) (s : State), (s.ms n).events.dropWhile (fun e => !Ev.known e) = e :: rest ∧
     bitsOf e.toNat 7 0 = 4 ∧
     firstReport s .relocate (actOf s n) (fun x => x.track % 65536 == bitsOf e.toNat 39 16 % 65536 && x.index == bitsOf e.toNat 63 40) = none) ∧
    (∃ (n : Lane) (e : BitVec 64) (rest : List (BitVec 64)) (r : Report) (s : State),
     (s.ms n).events.dropWhile (fun e => !Ev.known e) = e :: rest ∧ bitsOf e.toNat 7 0 = 1 ∧
     firstReport s .disturbed (actOf s n) (fun _ => true) = some r) ∧
    (∃ (n : Lane) (a : Lane) (s : State), s.glb.lost0.getLsbD (12 + n) = true ∧ actOf s n = a) ∧
    (∃ (s : State), s.on F.RLY_CTL_ENABLE = true ∧ smSorted s.rly.qos = true) :=
  ⟨⟨calRequest 2 1, { active with rly := { active.rly with requests := [calRequest 2 1, calRequest 0 0] } }, by decide +kernel⟩,
   ⟨{ calRequest 2 1 with cls := 3 }, { active with
           rly := { active.rly with requests := [{ calRequest 2 1 with cls := 3 }], pool := List.replicate 28672 ⟨0, calRequest 2 1, 0, false⟩ } },
         by decide +kernel⟩,
   ⟨calRequest 3 0, { (linked.put F.BAT_CTL_FWD_EN 1).put F.BAT_OWN_STAT_ACK 3 with rly := { active.rly with requests := [calRequest 3 0] } }, by
         decide +kernel⟩,
   ⟨0, 3, 0, ⟨1, 0, 0, 0, 8, 1, [], []⟩, mapBuilt.onBnd (fun b => { b with ns := [(0, ⟨1, 0, 0, 0, 8, 1, [], []⟩)] }) |> cacheSet 0
         ⟨[1], true, false, 0, 0, 0, none, 0⟩, by decide +kernel⟩,
   ⟨0, ⟨0, calRequest 0 1, 0, false⟩, true, { ((((active.put F.RLY_CTL_ENABLE 1).put ((F.PWR_STAT_IN_SVC).bit 0) 1).put F.PWR_STAT_LANE_LIMIT 4).put
             (F.SVn_PERIOD_PERIOD 0) 50000).onSv 0 (fun v => { v with
           wedges := 100000 }) with rly := { active.rly with pool := [⟨0, calRequest 0 1, 0, false⟩] } }, by decide +kernel⟩,
   ⟨0, ⟨0, calRequest 0 1, 0, false⟩, true, { (((((active.put F.RLY_CTL_ENABLE 1).put ((F.PWR_STAT_IN_SVC).bit 0) 1).put F.PWR_STAT_LANE_LIMIT 4).put
               (F.SVn_PERIOD_PERIOD 0) 50000).onSv 0 (fun v => { v with
           wedges := 100000 })) with rly := { active.rly with pool := [⟨0, calRequest 0 1, 0, false⟩] } }.onAct 0
         (fun t => { t with busy := [⟨1, calRequest 0 2, 0, false⟩], tracksAll := 1, ready := true }), by decide +kernel⟩,
   ⟨1, msEvent 7 1 0 5 3, [], ⟨0, { calRequest 1 0 with kind := 0, track := 5, pos := 0, count := 4 }, 0, false⟩,
         (active.onMs 1 (fun m => { m with events := [0x40, msEvent 7 1 0 5 3] })).onAct 1
         (fun t => { t with busy := [⟨0, { calRequest 1 0 with kind := 0, track := 5, pos := 0, count := 4 }, 0, false⟩] }), by decide +kernel⟩,
   ⟨1, 1, msEvent 9 1 0 5 0, [], ⟨0, calRequest 1 0, 0, false⟩, [], (active.onMs 1 (fun m => { m with events := [msEvent 9 1 0 5 0] })).onAct 1
         (fun t => { t with busy := [⟨0, calRequest 1 0, 0, false⟩], target := some (targetEntry 77 0 0) }), by decide +kernel⟩,
   ⟨1, 1, msEvent 8 1 0 5 0, [9], (active.onMs 1 (fun m => { m with events := [msEvent 8 1 0 5 0, 9] })).onAct 1
         (fun t => { t with tracks := [(5, 0, 2, 0), (6, 0, 1, 2)] }), by decide +kernel⟩,
   ⟨1, 1, msEvent 8 1 0 5 0, [], 5, 0, 6, 0, [], (active.onMs 1 (fun m => { m with events := [msEvent 8 1 0 5 0] })).onAct 1
         (fun t => { t with steps := [(5, 0), (6, 0)], tracksAll := 3 }), by decide +kernel⟩,
   ⟨1, 5, .preampFault 1, msEvent 5 1 0 5 0, [9], active.onMs 1 (fun m => { m with events := [msEvent 5 1 0 5 0, 9] }), by decide +kernel⟩,
   ⟨1, msEvent 3 1 0 2 0, [], ⟨.rewrite, 1, 0, 2, 0, 1, 5, 1, 0⟩,
         { (active.onMs 1 (fun m => { m with events := [msEvent 3 1 0 2 0] })) with reports := [⟨.rewrite, 1, 0, 2, 0, 1, 5, 1, 0⟩] }, by
         decide +kernel⟩,
   ⟨1, msEvent 4 1 0 2 0, [], ⟨.relocate, 1, 0, 2, 0, 1, 5, 1, 0⟩,
         { (active.onMs 1 (fun m => { m with events := [msEvent 4 1 0 2 0] })) with reports := [⟨.relocate, 1, 0, 2, 0, 1, 5, 1, 0⟩] }, by
         decide +kernel⟩,
   ⟨1, msEvent 4 1 0 2 0, [], active.onMs 1 (fun m => { m with events := [msEvent 4 1 0 2 0] }), by decide +kernel⟩,
   ⟨1, msEvent 1 1 0 5 0, [], ⟨.disturbed, 1, 0, 2, 0, 1, 5, 1, 0⟩,
         { (active.onMs 1 (fun m => { m with events := [msEvent 1 1 0 5 0] })) with reports := [⟨.disturbed, 1, 0, 2, 0, 1, 5, 1, 0⟩] }, by
         decide +kernel⟩,
   ⟨1, 1, { active with glb := { active.glb with lost0 := 0x2000 }, rly := { active.rly with pool := [⟨0, calRequest 1 0, 0, false⟩] } }, by
         decide +kernel⟩,
   ⟨{ (active.put F.RLY_CTL_ENABLE 1) with rly := { active.rly with qos := [(3, ⟨32, 5, 0, 0, -7, 4⟩)] } }, by decide +kernel⟩⟩

theorem witness_HostControllersResetAndRing :
    (∃ (fn : Fin 128) (a : Nat) (b : Nat) (asq : BitVec 64) (acq : BitVec 64) (s : State), memReached s fn = true ∧ (s.ctrl fn).online = true ∧
     (s.ctrl fn).en = false ∧ (2 ≤ a ∧ a ≤ 4096 ∧ 2 ≤ b ∧ b ≤ 4096) ∧ (asq.toNat % 4096 = 0 ∧ acq.toNat % 4096 = 0)) ∧
    (∃ (fn : Fin 128) (a : Nat) (b : Nat) (asq : BitVec 64) (acq : BitVec 64) (s : State), memReached s fn = true ∧ (s.ctrl fn).online = true ∧
     (s.ctrl fn).en = false ∧ ¬ (2 ≤ a ∧ a ≤ 4096 ∧ 2 ≤ b ∧ b ≤ 4096 ∧ asq.toNat % 4096 = 0 ∧ acq.toNat % 4096 = 0)) ∧
    (∃ (fn : Fin 128) (s : State), (memReached s fn = false ∨ (s.ctrl fn).online = false ∨ (s.ctrl fn).en = true)) ∧
    (∃ (fn : Fin 128) (s : State), portReached s (portOf fn) = true) ∧
    (∃ (fn : Fin 128) (s : State), memReached s fn = true ∧ (s.ctrl fn).en = true) ∧
    (∃ (port : Fin 2) (s : State), portReached s port = true) ∧
    (∃ (port : Fin 2) (s : State), s.on (F.HIFn_LINK_STAT_DL_UP port) = true) ∧
    (∃ (fn : Fin 128) (sq : Nat) (v : Nat) (q : Sq) (s : State), doorbellFor s fn = true ∧ smGet sq (s.ctrl fn).sqs = some q ∧ v < q.size) ∧
    (∃ (fn : Fin 128) (sq : Nat) (v : Nat) (s : State), doorbellFor s fn = true ∧
     (smGet sq (s.ctrl fn).sqs).map (fun q => decide (v < q.size)) ≠ some true) ∧
    (∃ (fn : Fin 128) (cq : Nat) (v : Nat) (q : Cq) (s : State), doorbellFor s fn = true ∧ smGet cq (s.ctrl fn).cqs = some q ∧ v < q.size ∧
     (v + q.size - q.head) % max 1 q.size ≤ (q.tail + q.size - q.head) % max 1 q.size ∧ q.held = []) ∧
    (∃ (fn : Fin 128) (cq : Nat) (v : Nat) (q : Cq) (s : State), doorbellFor s fn = true ∧ smGet cq (s.ctrl fn).cqs = some q ∧
     (q.size ≤ v ∨ (q.tail + q.size - q.head) % max 1 q.size < (v + q.size - q.head) % max 1 q.size)) ∧
    (∃ (fn : Fin 128) (cq : Nat) (q : Cq) (s : State), smGet cq (s.ctrl fn).cqs = some q ∧ q.unsignalled ≠ 0 ∧ q.ien = true ∧ qeRuns s = true) ∧
    (∃ (k : Nat) (x : Slot) (s : State), s.slot k = some x ∧ x.fetched = false ∧ x.result = none ∧ x.admitted = false ∧ x.dropped = false) :=
  ⟨⟨0, 2, 4096, 0x1000, 0x2000, active.put (F.HIFn_LINK_STAT_DL_UP 0) 1, by decide +kernel⟩,
   ⟨0, 2, 4097, 0x1000, 0x2000, active.put (F.HIFn_LINK_STAT_DL_UP 0) 1, by decide +kernel⟩,
   ⟨0, active, by decide +kernel⟩,
   ⟨0, hostReady, by decide +kernel⟩,
   ⟨0, hostReady, by decide +kernel⟩,
   ⟨0, hostReady, by decide +kernel⟩,
   ⟨0, hostReady, by decide +kernel⟩,
   ⟨0, 1, 7, ⟨8, 0, 3, 1, 1, 2, false, false⟩, hostReady, by decide +kernel⟩,
   ⟨0, 1, 8, hostReady, by decide +kernel⟩,
   ⟨0, 1, 2, ⟨8, 0, 0, 2, true, 1, true, 0, []⟩, hostReady, by decide +kernel⟩,
   ⟨0, 1, 3, ⟨8, 0, 0, 2, true, 1, true, 0, []⟩, hostReady, by decide +kernel⟩,
   ⟨0, 1, ⟨8, 0, 0, 2, true, 1, true, 5, []⟩, hostReady.setCq 0 1 ⟨8, 0, 0, 2, true, 1, true, 5, []⟩, by decide +kernel⟩,
   ⟨0, slotOf (cmdOf .write), withSlot (slotOf (cmdOf .write)), by decide +kernel⟩⟩

theorem witness_QueueFetchesAdmitsAndCompletes :
    (∃ (fn : Nat) (s : State), qeRuns s = true ∧ s.qe.stuck = none ∧ nextFn s = some fn) ∧
    (∃ (s : State), (qeRuns s = false ∨ s.qe.stuck.isSome = true ∨ nextFn s = none)) ∧
    (∃ (e : Fetched) (rest : List Fetched) (s : State), s.qe.fetched = e :: rest ∧ s.qe.stuck = none ∧ s.qe.slots.length < 16384 ∧ e.sq = 0) ∧
    (∃ (e : Fetched) (rest : List Fetched) (s : State), s.qe.fetched = e :: rest ∧ s.qe.stuck = none ∧ s.qe.slots.length < 16384) ∧
    (∃ (k : Nat) (x : Slot) (s : State), s.slot k = some x ∧
     (x.fetched = true ∧ x.admitted = false ∧ x.result = none ∧ x.fon.isSome = true ∧ x.dropped = false) ∧
     (isForeign s k = false ∧ slotEntered s k = true ∧ mediaServed s = true) ∧ s.mode = Mode.readonly) ∧
    (∃ (k : Nat) (x : Slot) (s : State), s.slot k = some x ∧
     (x.fetched = true ∧ x.admitted = false ∧ x.result = none ∧ x.fon.isSome = true ∧ x.hazWait = false) ∧
     (isForeign s k = false ∧ slotEntered s k = true ∧ mediaServed s = true) ∧ s.mode ≠ Mode.readonly ∧ overlapWaits s x = true) ∧
    (∃ (k : Nat) (x : Slot) (e : NsEntry) (d : List Byte) (s : State), s.slot k = some x ∧
     (x.fetched = true ∧ x.admitted = false ∧ x.result = none ∧ x.fon.isSome = true ∧ x.dropped = false) ∧
     (isForeign s k = false ∧ slotEntered s k = true ∧ mediaServed s = true) ∧ s.mode ≠ Mode.readonly ∧
     (overlapWaits s x = false ∧ ladderReads s x.writes = false) ∧ x.cmd.op = .write ∧ x.data = [d] ∧ nsEntry s (nsIndex x.cmd.nsid) = some e ∧
     (journalFull s = false ∧ creditFor s e = true ∧ returning s e = false) ∧ e.kind ≠ 2 ∧ (takePlace .writeCache s).isSome = true) ∧
    (∃ (k : Nat) (x : Slot) (e : NsEntry) (st : NvStatus) (s : State), s.slot k = some x ∧
     (x.fetched = true ∧ x.admitted = false ∧ x.result = none ∧ x.fon.isSome = true) ∧
     (isForeign s k = false ∧ slotEntered s k = true ∧ mediaServed s = true) ∧ s.mode ≠ Mode.readonly ∧
     (overlapWaits s x = false ∧ ladderReads s x.writes = false) ∧ x.cmd.op = .write ∧ nsEntry s (nsIndex x.cmd.nsid) = some e ∧
     (journalFull s = false ∧ returning s e = false) ∧ e.kind = 2 ∧
     (match zoneAdmit (nsBase s e + x.cmd.slba) x.data.length s with | .error y => some y | .ok _ => none) = some st) ∧
    (∃ (k : Nat) (x : Slot) (s : State), s.slot k = some x ∧ (x.reads ≠ [] ∧ x.snap = none ∧ x.result = none ∧ x.fon.isSome = true) ∧
     (isForeign s k = false ∧ slotEntered s k = true ∧ mediaServed s = true) ∧ overlapWaits s x = false ∧ rangeWaits s (runLbas x.reads) = false) ∧
    (∃ (k : Nat) (x : Slot) (r : Result) (q : Cq) (s : State), s.slot k = some x ∧ x.result = some r ∧ x.state ≠ .held ∧
     (isForeign s k = false ∧ ackWaits s k = false) ∧ guestTag s k = none ∧ qeRuns s = true ∧ smGet x.cq (s.ctrl x.fn).cqs = some q ∧
     cqFull q = false ∧ q.held = []) ∧
    (∃ (k : Nat) (x : Slot) (r : Result) (q : Cq) (s : State), s.slot k = some x ∧ x.result = some r ∧ x.state ≠ .held ∧
     (isForeign s k = false ∧ ackWaits s k = false) ∧ guestTag s k = none ∧ qeRuns s = true ∧ smGet x.cq (s.ctrl x.fn).cqs = some q ∧
     cqFull q = true) :=
  ⟨⟨0, hostReady, by decide +kernel⟩,
   ⟨active, by decide +kernel⟩,
   ⟨⟨0, 0, cmdOf .asyncEvent, 5, false⟩, [], { hostReady with qe := { hostReady.qe with fetched := [⟨0, 0, cmdOf .asyncEvent, 5, false⟩] } }, by
         decide +kernel⟩,
   ⟨⟨0, 1, cmdOf .read, 5, false⟩, [], { hostReady with qe := { hostReady.qe with fetched := [⟨0, 1, cmdOf .read, 5, false⟩] } }, by decide +kernel⟩,
   ⟨0, { slotOf (cmdOf .write) with fetched := true }, (withSlot { slotOf (cmdOf .write) with fetched := true }).put F.GLB_MODE_MODE Mode.readonly, by
         decide +kernel⟩,
   ⟨0, { slotOf (cmdOf .write) with fetched := true, fon := some 5, writes := [(0, 3, 1)] }, { hostReady with
           qe := { hostReady.qe with
               slots := [(0, { slotOf (cmdOf .write) with fetched := true, fon := some 5, writes := [(0, 3, 1)] }),
                   (1, { slotOf (cmdOf .write) with fon := some 4, writes := [(0, 2, 2)] })] } }, by decide +kernel⟩,
   ⟨0, { slotOf (cmdOf .write) with fetched := true, writes := [(0, 0, 1)], data := [[1, 2]] }, ⟨1, 0, 0, 0, 8, 1, [1], []⟩, [1, 2],
         (withSlot { slotOf (cmdOf .write) with fetched := true, writes := [(0, 0, 1)], data := [[1, 2]] }).onBuf
         (fun b => { b with pages := [(1, .owned .writeCache)], room := [16] }), by decide +kernel⟩,
   ⟨0, { slotOf { cmdOf .write with slba := 3 } with fetched := true, writes := [(0, 3, 1)], data := [[1, 2]] }, ⟨2, 0, 0, 0, 8, 1, [1], []⟩,
         .zoneInvalidWrite, withZone lbandNew
         { slotOf { cmdOf .write with slba := 3 } with fetched := true, writes := [(0, 3, 1)], data := [[1, 2]] }, by decide +kernel⟩,
   ⟨0, { slotOf (cmdOf .read) with reads := [(0, 0, 2)] }, (withSlot { slotOf (cmdOf .read) with reads := [(0, 0, 2)] }).onBnd
         (fun b => { b with mci := [⟨0, 1, some (0, 0), 5⟩] }), by decide +kernel⟩,
   ⟨0, { slotOf (cmdOf .read) with result := some okResult }, okResult, ⟨8, 0, 0, 2, true, 1, true, 0, []⟩, withSlot
         { slotOf (cmdOf .read) with result := some okResult }, by decide +kernel⟩,
   ⟨0, { slotOf (cmdOf .read) with result := some okResult }, okResult, ⟨8, 0, 3, 2, true, 1, true, 0, []⟩,
         (withSlot { slotOf (cmdOf .read) with result := some okResult }).setCq 0 1 ⟨8, 0, 3, 2, true, 1, true, 0, []⟩, by decide +kernel⟩⟩

theorem witness_AdminQueueCommandsComplete :
    (∃ (k : Nat) (x : Slot) (q : Nat) (n : Nat) (c : Nat) (p : Nat) (base : BitVec 64) (pc : Bool) (s : State), s.adminReady k x = true ∧
     x.cmd.op = .createSq q n c p base pc ∧ (0 < c ∧ (smGet c (s.ctrl x.fn).cqs).isSome = true) ∧
     (0 < q ∧ q ≤ granted s x.fn false ∧ smGet q (s.ctrl x.fn).sqs = none) ∧ Sys2Proof.Machine.sizeOk s n = true ∧
     (pc = true ∧ base.toNat % 4096 = 0)) ∧
    (∃ (k : Nat) (x : Slot) (q : Nat) (n : Nat) (c : Nat) (p : Nat) (base : BitVec 64) (pc : Bool) (s : State), s.adminReady k x = true ∧
     x.cmd.op = .createSq q n c p base pc ∧ (c = 0 ∨ smGet c (s.ctrl x.fn).cqs = none)) ∧
    (∃ (k : Nat) (x : Slot) (q : Nat) (n : Nat) (v : Nat) (base : BitVec 64) (pc : Bool) (ien : Bool) (s : State), s.adminReady k x = true ∧
     x.cmd.op = .createCq q n v base pc ien ∧ (0 < q ∧ q ≤ granted s x.fn true ∧ smGet q (s.ctrl x.fn).cqs = none) ∧
     Sys2Proof.Machine.sizeOk s n = true ∧ (pc = true ∧ base.toNat % 4096 = 0) ∧ v < viOf s x.fn) ∧
    (∃ (k : Nat) (x : Slot) (q : Nat) (n : Nat) (v : Nat) (base : BitVec 64) (pc : Bool) (ien : Bool) (s : State), s.adminReady k x = true ∧
     x.cmd.op = .createCq q n v base pc ien ∧ (0 < q ∧ q ≤ granted s x.fn true ∧ smGet q (s.ctrl x.fn).cqs = none) ∧
     Sys2Proof.Machine.sizeOk s n = false) ∧
    (∃ (k : Nat) (x : Slot) (q : Nat) (s : State), s.adminReady k x = true ∧ x.cmd.op = .deleteSq q ∧ q ≠ 0 ∧
     (smGet q (s.ctrl x.fn).sqs).isSome = true ∧ s.qe.slots.any (fun p => p.2.fn == x.fn && p.2.sq == q) = false ∧
     s.qe.fetched.any (fun e => e.fn == x.fn && e.sq == q) = false) ∧
    (∃ (k : Nat) (x : Slot) (q : Nat) (s : State), s.adminReady k x = true ∧ x.cmd.op = .deleteSq q ∧ q ≠ 0 ∧
     (smGet q (s.ctrl x.fn).sqs).isSome = true ∧ s.qe.slots.any (fun p => p.2.fn == x.fn && p.2.sq == q && !unmoved s p.1 p.2) = true) ∧
    (∃ (k : Nat) (x : Slot) (q : Nat) (s : State), s.adminReady k x = true ∧ x.cmd.op = .deleteSq q ∧ (q = 0 ∨ smGet q (s.ctrl x.fn).sqs = none)) ∧
    (∃ (k : Nat) (x : Slot) (q : Nat) (s : State), s.adminReady k x = true ∧ x.cmd.op = .deleteCq q ∧ q ≠ 0 ∧
     (smGet q (s.ctrl x.fn).cqs).isSome = true ∧ (s.ctrl x.fn).sqs.any (fun e => e.2.cq == q) = false) ∧
    (∃ (k : Nat) (x : Slot) (q : Nat) (s : State), s.adminReady k x = true ∧ x.cmd.op = .deleteCq q ∧ q ≠ 0 ∧
     (smGet q (s.ctrl x.fn).cqs).isSome = true ∧ (s.ctrl x.fn).sqs.any (fun e => e.2.cq == q) = true) ∧
    (∃ (k : Nat) (x : Slot) (sq : Nat) (cid : Nat) (s : State), s.adminReady k x = true ∧ x.cmd.op = .abort sq cid ∧
     (slotsWhere s (fun y => y.fn == x.fn && y.sq == 0 && y.result.isNone && (match y.cmd.op with | .abort .. => true | _ => false))).length ≤ 4 ∧
     s.qe.slots.find? (fun p => p.1 != k && p.2.fn == x.fn && p.2.sq == sq && p.2.cmd.cid == cid && unmoved s p.1 p.2 && (guestTag s p.1).isNone)
       = none) ∧
    (∃ (k : Nat) (x : Slot) (sq : Nat) (cid : Nat) (j : Nat) (y : Slot) (s : State), s.adminReady k x = true ∧ x.cmd.op = .abort sq cid ∧
     (slotsWhere s (fun y => y.fn == x.fn && y.sq == 0 && y.result.isNone && (match y.cmd.op with | .abort .. => true | _ => false))).length ≤ 4 ∧
     s.qe.slots.find? (fun p => p.1 != k && p.2.fn == x.fn && p.2.sq == sq && p.2.cmd.cid == cid && unmoved s p.1 p.2 && (guestTag s p.1).isNone)
       = some (j, y) ∧ (s.slot j = some y ∧ y.dropped = false)) ∧
    (∃ (k : Nat) (x : Slot) (s : State), s.adminReady k x = true ∧ x.cmd.op = .asyncEvent ∧ (s.ctrl x.fn).aer.contains k = false ∧
     (s.ctrl x.fn).aer.length < 8) ∧
    (∃ (k : Nat) (x : Slot) (s : State), s.adminReady k x = true ∧ x.cmd.op = .asyncEvent ∧ (s.ctrl x.fn).aer.contains k = false ∧
     8 ≤ (s.ctrl x.fn).aer.length) ∧
    (∃ (k : Nat) (x : Slot) (c : Nat) (f : Nat) (n : Nat) (v : Bool) (s : State), s.adminReady k x = true ∧ x.cmd.op = .virt 7 c v n ∧
     vfOf s x.fn c = some f) ∧
    (∃ (k : Nat) (x : Slot) (c : Nat) (f : Nat) (n : Nat) (v : Bool) (s : State), s.adminReady k x = true ∧ x.cmd.op = .virt 8 c v n ∧
     vfOf s x.fn c = some f ∧ (s.ctrl f).online = false ∧ n ≤ 257 ∧
     assigned s (portOf x.fn) v - (if v then (s.ctrl f).vi else (s.ctrl f).vq) + n ≤ flexibleTotal s (portOf x.fn)) ∧
    (∃ (k : Nat) (x : Slot) (c : Nat) (f : Nat) (n : Nat) (v : Bool) (s : State), s.adminReady k x = true ∧ x.cmd.op = .virt 9 c v n ∧
     vfOf s x.fn c = some f ∧ (2 ≤ (s.ctrl f).vq ∧ 1 ≤ (s.ctrl f).vi)) ∧
    (∃ (k : Nat) (x : Slot) (a : Nat) (c : Nat) (n : Nat) (v : Bool) (s : State), s.adminReady k x = true ∧ x.cmd.op = .virt a c v n ∧
     (a ≠ 7 ∧ a ≠ 8 ∧ a ≠ 9)) :=
  ⟨⟨0, adminOf (.createSq 2 8 1 1 0x3000 true), 2, 8, 1, 1, 0x3000, true, withSlot (adminOf (.createSq 2 8 1 1 0x3000 true)), by decide +kernel⟩,
   ⟨0, adminOf (.createSq 2 8 9 1 0x3000 true), 2, 8, 9, 1, 0x3000, true, withSlot (adminOf (.createSq 2 8 9 1 0x3000 true)), by decide +kernel⟩,
   ⟨0, adminOf (.createCq 2 8 0 0x3000 true false), 2, 8, 0, 0x3000, true, false, withSlot (adminOf (.createCq 2 8 0 0x3000 true false)), by
         decide +kernel⟩,
   ⟨0, adminOf (.createCq 2 1 0 0x3000 true false), 2, 1, 0, 0x3000, true, false, withSlot (adminOf (.createCq 2 1 0 0x3000 true false)), by
         decide +kernel⟩,
   ⟨0, adminOf (.deleteSq 1), 1, withSlot (adminOf (.deleteSq 1)), by decide +kernel⟩,
   ⟨0, adminOf (.deleteSq 1), 1,
         { hostReady with qe := { hostReady.qe with slots := [(0, adminOf (.deleteSq 1)), (1, { slotOf (cmdOf .read) with moved := true })] } }, by
         decide +kernel⟩,
   ⟨0, adminOf (.deleteSq 3), 3, withSlot (adminOf (.deleteSq 3)), by decide +kernel⟩,
   ⟨0, adminOf (.deleteCq 1), 1, (withSlot (adminOf (.deleteCq 1))).setCtrl 0 { hostQueues with sqs := [] }, by decide +kernel⟩,
   ⟨0, adminOf (.deleteCq 1), 1, withSlot (adminOf (.deleteCq 1)), by decide +kernel⟩,
   ⟨0, adminOf (.abort 1 7), 1, 7, withSlot (adminOf (.abort 1 7)), by decide +kernel⟩,
   ⟨0, adminOf (.abort 1 5), 1, 5, 1, slotOf (cmdOf .read),
         { hostReady with qe := { hostReady.qe with slots := [(0, adminOf (.abort 1 5)), (1, slotOf (cmdOf .read))] } }, by decide +kernel⟩,
   ⟨0, adminOf (.asyncEvent), withSlot (adminOf (.asyncEvent)), by decide +kernel⟩,
   ⟨0, adminOf (.asyncEvent), (withSlot (adminOf (.asyncEvent))).setCtrl 0 { hostQueues with aer := [9, 9, 9, 9, 9, 9, 9, 9] }, by decide +kernel⟩,
   ⟨0, adminOf (.virt 7 2 false 0), 2, 1, 0, false, withSlot (adminOf (.virt 7 2 false 0)), by decide +kernel⟩,
   ⟨0, adminOf (.virt 8 2 true 2), 2, 1, 2, true, withSlot (adminOf (.virt 8 2 true 2)), by decide +kernel⟩,
   ⟨0, adminOf (.virt 9 2 false 0), 2, 1, 0, false, (withSlot (adminOf (.virt 9 2 false 0))).setCtrl 1 { ctrlNew false with vq := 2, vi := 1 }, by
         decide +kernel⟩,
   ⟨0, adminOf (.virt 1 2 true 3), 1, 2, 3, true, withSlot (adminOf (.virt 1 2 true 3)), by decide +kernel⟩⟩

theorem witness_AdminDataAndFeatureCommandsComplete :
    (∃ (k : Nat) (x : Slot) (c : Nat) (a : Nat) (b : Nat) (l : List Byte) (s : State), s.adminReady k x = true ∧ x.cmd.op = .identify c a b ∧
     identifyData s x.fn x.cmd.nsid c a b = .ok l) ∧
    (∃ (k : Nat) (x : Slot) (c : Nat) (a : Nat) (b : Nat) (st : NvStatus) (s : State), s.adminReady k x = true ∧ x.cmd.op = .identify c a b ∧
     identifyData s x.fn x.cmd.nsid c a b = .error st) ∧
    (∃ (k : Nat) (x : Slot) (i : Nat) (c : Nat) (n : Nat) (o : Nat) (l : List Byte) (s : State), s.adminReady k x = true ∧
     x.cmd.op = .getLog i c n o ∧ i ≠ 2 ∧ logPage s x.fn x.cmd.nsid i c 0 = .ok l ∧ (o < l.length ∧ n ≤ 2 ^ 21)) ∧
    (∃ (k : Nat) (x : Slot) (i : Nat) (c : Nat) (n : Nat) (o : Nat) (st : NvStatus) (s : State), s.adminReady k x = true ∧
     x.cmd.op = .getLog i c n o ∧ i ≠ 2 ∧ logPage s x.fn x.cmd.nsid i c 0 = .error st) ∧
    (∃ (k : Nat) (x : Slot) (c : Nat) (n : Nat) (o : Nat) (s : State), s.adminReady k x = true ∧ x.cmd.op = .getLog 2 c n o ∧
     (x.cmd.nsid = 0 ∨ x.cmd.nsid = 0xFFFFFFFF ∨ (attachedNs s x.fn x.cmd.nsid).isSome = true) ∧ (o < 512 ∧ n ≤ 2 ^ 21)) ∧
    (∃ (k : Nat) (x : Slot) (f : Nat) (arg : Nat) (v : Nat) (s : State), s.adminReady k x = true ∧ x.cmd.op = .getFeatures f arg ∧
     (f, v) ∈ [(0x01, smGetD 0 1 (s.ctrl x.fn).feats), (0x02, smGetD 0 2 (s.ctrl x.fn).feats), (0x06, b2n (s.ctrl x.fn).wce),
         (0x07, (granted s x.fn false - 1) + (granted s x.fn true - 1) * 65536), (0x08, (s.ctrl x.fn).coalThr + (s.ctrl x.fn).coalTime * 256),
         (0x0A, 0), (0x0B, smGetD 0 0x0B (s.ctrl x.fn).feats)]) ∧
    (∃ (k : Nat) (x : Slot) (s : State), s.adminReady k x = true ∧ x.cmd.op = .getFeatures 0x04 0 ∧ s.qe.tempThr = none) ∧
    (∃ (k : Nat) (x : Slot) (arg : Nat) (v : Nat) (s : State), s.adminReady k x = true ∧
     ((x.cmd.op = .getFeatures 0x04 arg ∧ bitsOf arg 19 16 = 0 ∧
           (bitsOf arg 21 20 = 0 ∧ s.qe.tempThr = some v ∨ bitsOf arg 21 20 = 1 ∧ s.qe.tempLow = some v)) ∨ (x.cmd.op = .getFeatures 0x09 arg ∧
           arg % 65536 < viOf s x.fn ∧ v = arg % 65536 + b2n ((s.ctrl x.fn).coalOff.contains (arg % 65536)) * 65536))) ∧
    (∃ (k : Nat) (x : Slot) (f : Nat) (arg : Nat) (d : List Byte) (s : State), s.adminReady k x = true ∧ x.cmd.op = .getFeatures f arg ∧
     ((f = 0x0E ∧ d = le 6 (timestampNow s).toNat ++ [if s.qe.stamp.isSome then 2 else 0, 0]) ∨
         (f = 0x81 ∧ arg % 2 = 1 ∧ d = le 16 (smGetD 0 0x81 (s.ctrl x.fn).feats)))) ∧
    (∃ (k : Nat) (x : Slot) (f : Nat) (arg : Nat) (s : State), s.adminReady k x = true ∧ x.cmd.op = .getFeatures f arg ∧
     f ∉ [0x01, 0x02, 0x04, 0x06, 0x07, 0x08, 0x09, 0x0A, 0x0B, 0x0E, 0x81]) ∧
    (∃ (k : Nat) (x : Slot) (f : Nat) (arg : Nat) (data : Nat) (s : State), s.adminReady k x = true ∧ x.cmd.op = .setFeatures f arg data true) ∧
    (∃ (k : Nat) (x : Slot) (arg : Nat) (data : Nat) (s : State), s.adminReady k x = true ∧ x.cmd.op = .setFeatures 0x06 arg data false) ∧
    (∃ (k : Nat) (x : Slot) (arg : Nat) (data : Nat) (s : State), s.adminReady k x = true ∧ x.cmd.op = .setFeatures 0x07 arg data false ∧
     (bitsOf arg 15 0 ≠ 65535 ∧ bitsOf arg 31 16 ≠ 65535) ∧
     ((s.ctrl x.fn).sqs.any (fun q => q.1 != 0) = false ∧ (s.ctrl x.fn).cqs.any (fun q => q.1 != 0) = false) ∧ 2 ≤ vqOf s x.fn) ∧
    (∃ (k : Nat) (x : Slot) (f : Nat) (v : Nat) (arg : Nat) (data : Nat) (s : State), s.adminReady k x = true ∧
     x.cmd.op = .setFeatures f arg data false ∧ (f, v) ∈ [(0x01, arg), (0x0B, arg), (0x81, data % 2 ^ 128)] ∧ (f = 0x81 → arg % 2 = 1)) ∧
    (∃ (k : Nat) (x : Slot) (f : Nat) (arg : Nat) (data : Nat) (st : NvStatus) (s : State), s.adminReady k x = true ∧
     x.cmd.op = .setFeatures f arg data false ∧ setFeature s x.fn f arg data = .error st) ∧
    (∃ (k : Nat) (x : Slot) (s : State), s.decoded k x = true ∧ x.cmd.op = .fwDownload) ∧
    (∃ (k : Nat) (x : Slot) (s : State), s.decoded k x = true ∧ x.cmd.op = .fwCommit) ∧
    (∃ (k : Nat) (x : Slot) (s : State), s.decoded k x = true ∧ opAllowed x.fn x.sq x.cmd.op = false) ∧
    (∃ (k : Nat) (x : Slot) (n : Nat) (s : State), s.adminReady k x = true ∧ x.cmd.op = .secReceive 0 0 n) ∧
    (∃ (k : Nat) (x : Slot) (s : State), s.adminReady k x = true ∧ x.cmd.op = .secReceive 0xF0 1 32) ∧
    (∃ (k : Nat) (x : Slot) (j : Nat) (e : NsEntry) (s : State), s.adminReady k x = true ∧ x.cmd.op = .secReceive 0xF0 2 32 ∧
     attachedNs s x.fn x.cmd.nsid = some (j, e)) ∧
    (∃ (k : Nat) (x : Slot) (c : Nat) (n : Nat) (s : State), s.adminReady k x = true ∧ x.cmd.op = .secReceive 0xF0 c n ∧ (c = 1 ∧ n ≠ 32)) ∧
    (∃ (k : Nat) (x : Slot) (n : Nat) (s : State), s.adminReady k x = true ∧ x.cmd.op = .standings n ∧ n = 63) ∧
    (∃ (k : Nat) (x : Slot) (n : Nat) (s : State), s.adminReady k x = true ∧ x.cmd.op = .standings n ∧ n ≠ 63) :=
  ⟨⟨0, adminOf (.identify 0x1C 0 0), 0x1C, 0, 0, Sys2Proof.Machine.layOut 4096 [(0, le 8 5)], withSlot (adminOf (.identify 0x1C 0 0)), by
         decide +kernel⟩,
   ⟨0, adminOf (.identify 0x77 0 0), 0x77, 0, 0, .invalidField, withSlot (adminOf (.identify 0x77 0 0)), by decide +kernel⟩,
   ⟨0, adminOf (.getLog 4 0 8 0), 4, 0, 8, 0, zeros 4096, withSlot (adminOf (.getLog 4 0 8 0)), by decide +kernel⟩,
   ⟨0, adminOf (.getLog 0x77 0 8 0), 0x77, 0, 8, 0, .invalidLogPage, withSlot (adminOf (.getLog 0x77 0 8 0)), by decide +kernel⟩,
   ⟨0, adminOf (.getLog 2 0 64 32), 0, 64, 32, withSlot (adminOf (.getLog 2 0 64 32)), by decide +kernel⟩,
   ⟨0, adminOf (.getFeatures 6 0), 6, 0, 1, withSlot (adminOf (.getFeatures 6 0)), by decide +kernel⟩,
   ⟨0, adminOf (.getFeatures 0x04 0), withSlot (adminOf (.getFeatures 0x04 0)), by decide +kernel⟩,
   ⟨0, adminOf (.getFeatures 0x04 0x100000), 0x100000, 300, let s := withSlot (adminOf (.getFeatures 0x04 0x100000));
         { s with qe := { s.qe with tempLow := some 300 } }, by decide +kernel⟩,
   ⟨0, adminOf (.getFeatures 0x81 1), 0x81, 1, zeros 16, withSlot (adminOf (.getFeatures 0x81 1)), by decide +kernel⟩,
   ⟨0, adminOf (.getFeatures 3 0), 3, 0, withSlot (adminOf (.getFeatures 3 0)), by decide +kernel⟩,
   ⟨0, adminOf (.setFeatures 6 0 0 true), 6, 0, 0, withSlot (adminOf (.setFeatures 6 0 0 true)), by decide +kernel⟩,
   ⟨0, adminOf (.setFeatures 6 2 0 false), 2, 0, withSlot (adminOf (.setFeatures 6 2 0 false)), by decide +kernel⟩,
   ⟨0, adminOf (.setFeatures 7 0x20001 0 false), 0x20001, 0, (withSlot (adminOf (.setFeatures 7 0x20001 0 false))).setCtrl 0
         { hostQueues with sqs := [(0, ⟨8, 0, 0, 0, 0, 0, false, false⟩)], cqs := [(0, ⟨8, 0, 0, 0, true, 0, true, 0, []⟩)] }, by decide +kernel⟩,
   ⟨0, adminOf (.setFeatures 0x0B 0x1FF 0 false), 0x0B, 0x1FF, 0x1FF, 0, withSlot (adminOf (.setFeatures 0x0B 0x1FF 0 false)), by decide +kernel⟩,
   ⟨0, adminOf (.setFeatures 2 7 0 false), 2, 7, 0, .invalidField, withSlot (adminOf (.setFeatures 2 7 0 false)), by decide +kernel⟩,
   ⟨0, adminOf .fwDownload, withSlot (adminOf .fwDownload), by decide +kernel⟩,
   ⟨0, adminOf .fwCommit, withSlot (adminOf .fwCommit), by decide +kernel⟩,
   ⟨0, adminOf .read, withSlot (adminOf .read), by decide +kernel⟩,
   ⟨0, adminOf (.secReceive 0 0 16), 16, withSlot (adminOf (.secReceive 0 0 16)), by decide +kernel⟩,
   ⟨0, adminOf (.secReceive 0xF0 1 32), withSlot (adminOf (.secReceive 0xF0 1 32)), by decide +kernel⟩,
   ⟨0, adminOf (.secReceive 0xF0 2 32), 0, ⟨1, 0, 0, 0, 8, 1, [1], []⟩, withSlot (adminOf (.secReceive 0xF0 2 32)), by decide +kernel⟩,
   ⟨0, adminOf (.secReceive 0xF0 1 31), 1, 31, withSlot (adminOf (.secReceive 0xF0 1 31)), by decide +kernel⟩,
   ⟨0, adminOf (.standings 63), 63, withSlot (adminOf (.standings 63)), by decide +kernel⟩,
   ⟨0, adminOf (.standings 62), 62, withSlot (adminOf (.standings 62)), by decide +kernel⟩⟩

theorem witness_NamespaceAndEraseCommandsComplete :
    (∃ (k : Nat) (x : Slot) (a : Nat) (b : Nat) (z : Bool) (kn : Bool) (lf : Nat) (pi : Nat) (g : BitVec 4) (s : State),
     s.adminReady k x = true ∧ x.cmd.op = .nsCreate a b z kn lf pi g ∧
     (a ≠ b ∨ a = 0 ∨ a % bandSectors s ≠ 0 ∨ kn = false ∨ formatOk lf pi = false)) ∧
    (∃ (k : Nat) (x : Slot) (a : Nat) (b : Nat) (j : Nat) (z : Bool) (lf : Nat) (pi : Nat) (g : BitVec 4) (s : State), s.adminReady k x = true ∧
     x.cmd.op = .nsCreate a a z true lf pi g ∧ (0 < a ∧ a % bandSectors s = 0 ∧ formatOk lf pi = true) ∧ s.mode ≠ Mode.readonly ∧
     s.bnd.ns.length < nsMax s ∧ (Sys2Proof.Machine.mapReady s = true ∧ s.key.erases.any (fun e => e.delete) = false) ∧
     capacityOk s (groupSet s g) (a / bandSectors s) = true ∧ lowestRun s (a / bandSectors s) = some b ∧ freeNs s = some j ∧
     s.trc.trngRefused = false) ∧
    (∃ (k : Nat) (x : Slot) (j : Nat) (e : NsEntry) (s : State), s.adminReady k x = true ∧ x.cmd.op = .nsDelete ∧ x.cmd.nsid = j + 1 ∧
     nsEntry s j = some e ∧ erasing s k = false ∧ s.mode ≠ Mode.readonly ∧
     (eraseApart s j = false ∧ eraseWaits s x [j] = false ∧ nsBusy s j k = false)) ∧
    (∃ (k : Nat) (x : Slot) (s : State), s.adminReady k x = true ∧ x.cmd.op = .nsDelete ∧ x.cmd.nsid = 0 ∧ erasing s k = false) ∧
    (∃ (k : Nat) (x : Slot) (j : Nat) (e : NsEntry) (l : List Nat) (s : State), s.adminReady k x = true ∧ x.cmd.op = .nsAttach l ∧
     x.cmd.nsid = j + 1 ∧ nsEntry s j = some e ∧ nsDeleting s j = false ∧ l ≠ [] ∧ l.any (fun c => !validCntlid s c) = false ∧
     l.any (fun c => e.attached.contains c) = false) ∧
    (∃ (k : Nat) (x : Slot) (j : Nat) (e : NsEntry) (l : List Nat) (s : State), s.adminReady k x = true ∧ x.cmd.op = .nsDetach l ∧
     x.cmd.nsid = j + 1 ∧ nsEntry s j = some e ∧ l ≠ [] ∧ l.any (fun c => !validCntlid s c) = false ∧
     l.any (fun c => !e.attached.contains c) = false) ∧
    (∃ (k : Nat) (x : Slot) (lf : Nat) (ses : Nat) (pi : Nat) (j : Nat) (e : NsEntry) (s : State), s.adminReady k x = true ∧
     x.cmd.op = .format lf ses pi ∧ erasing s k = false ∧ x.cmd.nsid ≠ 0xFFFFFFFF ∧ erasedNs s x.fn x.cmd = [j] ∧ nsEntry s j = some e ∧
     (e.lbaf, e.pi_) = (lf, pi) ∧ (formatOk lf pi = true ∧ ses ≤ 2) ∧ s.mode ≠ Mode.readonly ∧ eraseApart s j = false ∧ activityMode s = true ∧
     s.on F.GLB_MODE_ACTIVITY = false ∧ eraseWaits s x [j] = false ∧ s.trc.trngRefused = false) ∧
    (∃ (k : Nat) (x : Slot) (lf : Nat) (ses : Nat) (pi : Nat) (s : State), s.adminReady k x = true ∧ x.cmd.op = .format lf ses pi ∧
     erasing s k = false ∧ (erasedNs s x.fn x.cmd).length = 1 ∧ (formatOk lf pi = false ∨ 2 < ses)) ∧
    (∃ (k : Nat) (x : Slot) (s : State), s.adminReady k x = true ∧ x.cmd.op = .sanitize 4 ∧ erasing s k = false ∧ s.mode = Mode.active ∧
     imageRole s = 0 ∧ s.on F.GLB_MODE_ACTIVITY = false ∧ eraseWaits s x (s.bnd.ns.map (fun p => p.1)) = false ∧ s.bnd.ns ≠ [] ∧
     s.trc.trngRefused = false) ∧
    (∃ (k : Nat) (x : Slot) (s : State), s.adminReady k x = true ∧ x.cmd.op = .sanitize 3 ∧ erasing s k = false ∧ s.mode = Mode.active ∧
     imageRole s = 0 ∧ s.on F.GLB_MODE_ACTIVITY = false ∧ eraseWaits s x (s.bnd.ns.map (fun p => p.1)) = false ∧ s.bnd.ns ≠ [] ∧
     s.trc.trngRefused = false) ∧
    (∃ (k : Nat) (x : Slot) (a : Nat) (s : State), s.adminReady k x = true ∧ x.cmd.op = .sanitize a ∧ (a ≠ 3 ∧ a ≠ 4)) ∧
    (∃ (k : Nat) (x : Slot) (l : List Byte) (j : Nat) (e : NsEntry) (s : State), s.adminReady k x = true ∧ x.cmd.op = .secSend 0xF0 0x10 16 ∧
     erasing s k = false ∧ bufferOk 16 4 l = true ∧ attachedNs s x.fn x.cmd.nsid = some (j, e) ∧ e.permits.contains (cntlidOf s x.fn) = true ∧
     keyState s j ≠ 1 ∧ s.key.erases.any (fun y => y.ns == j) = false ∧ (keyGen s j).toNat = unle (l.take 4) ∧ eraseApart s j = false ∧
     eraseWaits s x [j] = false ∧ s.trc.trngRefused = false ∧ s.mode ≠ Mode.readonly) ∧
    (∃ (k : Nat) (x : Slot) (l : List Byte) (j : Nat) (e : NsEntry) (s : State), s.adminReady k x = true ∧ x.cmd.op = .secSend 0xF0 0x10 16 ∧
     erasing s k = false ∧ bufferOk 16 4 l = true ∧ attachedNs s x.fn x.cmd.nsid = some (j, e) ∧ e.permits.contains (cntlidOf s x.fn) = false) ∧
    (∃ (k : Nat) (x : Slot) (l : List Byte) (j : Nat) (e : NsEntry) (s : State), s.adminReady k x = true ∧ x.cmd.op = .secSend 0xF0 0x11 16 ∧
     isPf x.fn = true ∧ bufferOk 16 3 l = true ∧ unle ((l.drop 2).take 1) ≤ 1 ∧ attachedNs s x.fn x.cmd.nsid = some (j, e) ∧
     e.attached.contains (unle (l.take 2)) = true) :=
  ⟨⟨0, adminOf (.nsCreate 0 0 false true 0 0 1), 0, 0, false, true, 0, 0, 1, withSlot (adminOf (.nsCreate 0 0 false true 0 0 1)), by decide +kernel⟩,
   ⟨0, adminOf (.nsCreate (bandSectors hostReady) (bandSectors hostReady) true true 0 0 1), bandSectors hostReady, 0, 0, true, 0, 0, 1,
         (withSlot (adminOf (.nsCreate (bandSectors hostReady) (bandSectors hostReady) true true 0 0 1))).onBnd (fun b => { b with ns := [] }), by
         decide +kernel⟩,
   ⟨0, adminOf (.nsDelete), 0, ⟨1, 0, 0, 0, 8, 1, [1], []⟩, withSlot (adminOf (.nsDelete)), by decide +kernel⟩,
   ⟨0, { adminOf .nsDelete with cmd := { cmdOf .nsDelete with nsid := 0 } }, withSlot
         { adminOf .nsDelete with cmd := { cmdOf .nsDelete with nsid := 0 } }, by decide +kernel⟩,
   ⟨0, adminOf (.nsAttach [2]), 0, ⟨1, 0, 0, 0, 8, 1, [1], []⟩, [2], withSlot (adminOf (.nsAttach [2])), by decide +kernel⟩,
   ⟨0, adminOf (.nsDetach [1]), 0, ⟨1, 0, 0, 0, 8, 1, [1], []⟩, [1], withSlot (adminOf (.nsDetach [1])), by decide +kernel⟩,
   ⟨0, adminOf (.format 0 2 0), 0, 2, 0, 0, ⟨1, 0, 0, 0, 8, 1, [1], []⟩, withSlot (adminOf (.format 0 2 0)), by decide +kernel⟩,
   ⟨0, adminOf (.format 3 2 0), 3, 2, 0, withSlot (adminOf (.format 3 2 0)), by decide +kernel⟩,
   ⟨0, adminOf (.sanitize 4), withSlot (adminOf (.sanitize 4)), by decide +kernel⟩,
   ⟨0, adminOf (.sanitize 3), withSlot (adminOf (.sanitize 3)), by decide +kernel⟩,
   ⟨0, adminOf (.sanitize 2), 2, withSlot (adminOf (.sanitize 2)), by decide +kernel⟩,
   ⟨0, adminOf (.secSend 0xF0 0x10 16), zeros 16, 0, ⟨1, 0, 0, 0, 8, 1, [1], [1]⟩, (withSlot (adminOf (.secSend 0xF0 0x10 16))).onBnd
         (fun b => { b with ns := [(0, ⟨1, 0, 0, 0, 8, 1, [1], [1]⟩)] }), by decide +kernel⟩,
   ⟨0, adminOf (.secSend 0xF0 0x10 16), zeros 16, 0, ⟨1, 0, 0, 0, 8, 1, [1], []⟩, withSlot (adminOf (.secSend 0xF0 0x10 16)), by decide +kernel⟩,
   ⟨0, adminOf (.secSend 0xF0 0x11 16), [1, 0, 1] ++ zeros 13, 0, ⟨1, 0, 0, 0, 8, 1, [1], []⟩, withSlot (adminOf (.secSend 0xF0 0x11 16)), by
         decide +kernel⟩⟩

theorem witness_MediaCommandsReadWriteAndDeallocate :
    (∃ (k : Nat) (x : Slot) (pi : Option (NvStatus × Nat)) (l : List (Nat × BlockRef)) (d : List (List Byte)) (s : State), s.ioReady k x = true ∧
     x.cmd.op = .read ∧ x.snap = some l ∧ snapBlocks s l = some (.ok d) ∧ piFailure s x pi = none) ∧
    (∃ (k : Nat) (x : Slot) (l : List (Nat × BlockRef)) (b : Nat) (s : State), s.ioReady k x = true ∧ x.cmd.op = .read ∧ x.snap = some l ∧
     snapBlocks s l = some (.error b) ∧ x.failLba = none) ∧
    (∃ (k : Nat) (x : Slot) (l : List (Nat × BlockRef)) (d : List (List Byte)) (s : State), s.ioReady k x = true ∧ x.cmd.op = .verify ∧
     x.snap = some l ∧ snapBlocks s l = some (.ok d)) ∧
    (∃ (k : Nat) (x : Slot) (data : List (List Byte)) (l : List (Nat × BlockRef)) (s : State), s.ioReady k x = true ∧ x.cmd.op = .compare ∧
     isForeign s k = false ∧ goesAway s x = false ∧ x.fetched = false ∧ data.length = x.cmd.nlb ∧ x.snap = some l ∧
     snapBlocks s l = some (.ok (data.map (fit (blockBytes s x))))) ∧
    (∃ (k : Nat) (x : Slot) (data : List (List Byte)) (d : List (List Byte)) (l : List (Nat × BlockRef)) (i : Nat) (s : State),
     s.ioReady k x = true ∧ x.cmd.op = .compare ∧ isForeign s k = false ∧ goesAway s x = false ∧ x.fetched = false ∧ data.length = x.cmd.nlb ∧
     x.snap = some l ∧ snapBlocks s l = some (.ok d) ∧ firstDiff (data.map (fit (blockBytes s x))) d = some i) ∧
    (∃ (k : Nat) (x : Slot) (data : List (List Byte)) (pi : Option (NvStatus × Nat)) (j : Nat) (e : NsEntry) (s : State), s.ioReady k x = true ∧
     x.cmd.op = .write ∧ x.fetched = false ∧ isForeign s k = false ∧ data.length = x.cmd.nlb ∧ slotNs s x = some (j, e) ∧ goesAway s x = false ∧
     creditFor s e = true ∧ piFailure s x pi = none) ∧
    (∃ (k : Nat) (x : Slot) (j : Nat) (e : NsEntry) (s : State), s.ioReady k x = true ∧ x.cmd.op = .writeUncorrectable ∧
     slotNs s x = some (j, e) ∧ isForeign s k = false ∧ x.admitted = false ∧ overlapWaits s x = false) ∧
    (∃ (k : Nat) (x : Slot) (j : Nat) (e : NsEntry) (s : State), s.ioReady k x = true ∧ x.cmd.op = .writeZeroes true ∧ slotNs s x = some (j, e) ∧
     isForeign s k = false ∧ x.admitted = false ∧ x.fetched = false ∧ overlapWaits s x = false ∧ e.kind = 1 ∧ journalFull s = false) ∧
    (∃ (k : Nat) (x : Slot) (j : Nat) (e : NsEntry) (s : State), s.ioReady k x = true ∧ x.cmd.op = .writeZeroes false ∧
     slotNs s x = some (j, e) ∧ isForeign s k = false ∧ x.admitted = false ∧ x.fetched = false ∧ overlapWaits s x = false ∧ creditFor s e = true) ∧
    (∃ (k : Nat) (x : Slot) (l : List (Nat × Nat)) (j : Nat) (e : NsEntry) (s : State), s.ioReady k x = true ∧ x.cmd.op = .dsm true ∧
     slotNs s x = some (j, e) ∧ isForeign s k = false ∧ x.fetched = false ∧ l.any (fun r => decide (nsSize s e < r.1 + r.2)) = true) ∧
    (∃ (k : Nat) (x : Slot) (l : List (Nat × Nat)) (j : Nat) (e : NsEntry) (s : State), s.ioReady k x = true ∧ x.cmd.op = .dsm true ∧
     slotNs s x = some (j, e) ∧ isForeign s k = false ∧ x.fon.isSome = true ∧ l.any (fun r => decide (nsSize s e < r.1 + r.2)) = false ∧
     x.fetched = false ∧ goesAway s x = false ∧ journalFull s = false ∧ overlapWaits s x = false) ∧
    (∃ (k : Nat) (x : Slot) (l : List (Nat × Nat)) (j : Nat) (e : NsEntry) (s : State), s.ioReady k x = true ∧ x.cmd.op = .copy ∧
     slotNs s x = some (j, e) ∧ isForeign s k = false ∧ x.fon = none ∧ x.fetched = false ∧
     (128 < l.length ∨ l.any (fun r => decide (256 < r.2)) = true ∨ 4096 < (l.map (fun r => r.2)).sum)) ∧
    (∃ (k : Nat) (x : Slot) (l : List (Nat × Nat)) (j : Nat) (e : NsEntry) (s : State), s.ioReady k x = true ∧ x.cmd.op = .copy ∧
     slotNs s x = some (j, e) ∧ isForeign s k = false ∧ x.fon = none ∧ x.fetched = false ∧
     (l ≠ [] ∧ l.length ≤ 128 ∧ l.any (fun r => decide (256 < r.2)) = false ∧ (l.map (fun r => r.2)).sum ≤ 4096) ∧
     (l.any (fun r => decide (nsSize s e < r.1 + r.2)) = false ∧ x.cmd.slba + (l.map (fun r => r.2)).sum ≤ nsSize s e) ∧ goesAway s x = false) ∧
    (∃ (k : Nat) (x : Slot) (l : List (Nat × BlockRef)) (d : List (List Byte)) (j : Nat) (e : NsEntry) (s : State), s.ioReady k x = true ∧
     x.cmd.op = .copy ∧ slotNs s x = some (j, e) ∧ isForeign s k = false ∧ x.fon.isSome = true ∧ x.admitted = false ∧ x.snap = some l ∧
     snapBlocks s l = some (.ok d) ∧ creditFor s e = true) ∧
    (∃ (k : Nat) (x : Slot) (s : State), s.ioReady k x = true ∧ x.cmd.op = .flush ∧ x.waits = false ∧ x.fon.isSome = true ∧
     isForeign s k = false ∧ s.mode ≠ Mode.readonly ∧ flushHeld s x = false) ∧
    (∃ (k : Nat) (x : Slot) (s : State), s.ioReady k x = true ∧ x.cmd.op = .flush ∧ x.waits = false ∧ x.fon.isSome = true ∧
     isForeign s k = false ∧ s.mode = Mode.readonly ∧ 3 ≤ s.bnd.readonlyAt) :=
  ⟨⟨0, { slotOf (cmdOf (.read)) with snap := some [(0, .cached [7])] }, none, [(0, .cached [7])], [[7]], withSlot
         ({ slotOf (cmdOf (.read)) with snap := some [(0, .cached [7])] }), by decide +kernel⟩,
   ⟨0, { slotOf (cmdOf (.read)) with snap := some [(1, .bad), (0, .bad)] }, [(1, .bad), (0, .bad)], 0, withSlot
         ({ slotOf (cmdOf (.read)) with snap := some [(1, .bad), (0, .bad)] }), by decide +kernel⟩,
   ⟨0, { slotOf (cmdOf (.verify)) with snap := some [(0, .cached [7])] }, [(0, .cached [7])], [[7]], withSlot
         ({ slotOf (cmdOf (.verify)) with snap := some [(0, .cached [7])] }), by decide +kernel⟩,
   ⟨0, { slotOf (cmdOf (.compare)) with snap := some [(0, .cached (fit 4096 [7]))] }, [[7]], [(0, .cached (fit 4096 [7]))], withSlot
         ({ slotOf (cmdOf (.compare)) with snap := some [(0, .cached (fit 4096 [7]))] }), by decide +kernel⟩,
   ⟨0, { slotOf (cmdOf (.compare)) with snap := some [(0, .cached [8])] }, [[7]], [[8]], [(0, .cached [8])], 0, withSlot
         ({ slotOf (cmdOf (.compare)) with snap := some [(0, .cached [8])] }), by decide +kernel⟩,
   ⟨0, slotOf (cmdOf (.write)), [[7]], none, 0, ⟨1, 0, 0, 0, 8, 1, [1], []⟩, withSlot (slotOf (cmdOf (.write))), by decide +kernel⟩,
   ⟨0, slotOf (cmdOf (.writeUncorrectable)), 0, ⟨1, 0, 0, 0, 8, 1, [1], []⟩, withSlot (slotOf (cmdOf (.writeUncorrectable))), by decide +kernel⟩,
   ⟨0, slotOf (cmdOf (.writeZeroes true)), 0, ⟨1, 0, 0, 0, 8, 1, [1], []⟩, withSlot (slotOf (cmdOf (.writeZeroes true))), by decide +kernel⟩,
   ⟨0, slotOf (cmdOf (.writeZeroes false)), 0, ⟨1, 0, 0, 0, 8, 1, [1], []⟩, withSlot (slotOf (cmdOf (.writeZeroes false))), by decide +kernel⟩,
   ⟨0, slotOf (cmdOf (.dsm true)), [(0, 2 ^ 40)], 0, ⟨1, 0, 0, 0, 8, 1, [1], []⟩, withSlot (slotOf (cmdOf (.dsm true))), by decide +kernel⟩,
   ⟨0, { slotOf (cmdOf (.dsm true)) with writes := [(0, 0, 1)] }, [(0, 1)], 0, ⟨1, 0, 0, 0, 8, 1, [1], []⟩, withSlot
         ({ slotOf (cmdOf (.dsm true)) with writes := [(0, 0, 1)] }), by decide +kernel⟩,
   ⟨0, { slotOf (cmdOf (.copy)) with fon := none }, [(0, 257)], 0, ⟨1, 0, 0, 0, 8, 1, [1], []⟩, withSlot ({ slotOf (cmdOf (.copy)) with fon := none }),
         by decide +kernel⟩,
   ⟨0, { slotOf (cmdOf (.copy)) with fon := none }, [(2, 1), (4, 2)], 0, ⟨1, 0, 0, 0, 8, 1, [1], []⟩, withSlot
         ({ slotOf (cmdOf (.copy)) with fon := none }), by decide +kernel⟩,
   ⟨0, { slotOf (cmdOf (.copy)) with snap := some [(0, .cached [7])] }, [(0, .cached [7])], [[7]], 0, ⟨1, 0, 0, 0, 8, 1, [1], []⟩, withSlot
         ({ slotOf (cmdOf (.copy)) with snap := some [(0, .cached [7])] }), by decide +kernel⟩,
   ⟨0, slotOf (cmdOf (.flush)), withSlot (slotOf (cmdOf (.flush))), by decide +kernel⟩,
   ⟨0, slotOf (cmdOf (.flush)), ((withSlot (slotOf (cmdOf (.flush)))).put F.GLB_MODE_MODE Mode.readonly).onBnd (fun b => { b with readonlyAt := 3 }),
         by decide +kernel⟩⟩

theorem witness_ZoneCommandsChangeZoneStates :
    (∃ (k : Nat) (x : Slot) (v : State) (s : State), s.ioReady k x = true ∧ x.cmd.op = .zoneSend .open_ ∧
     (isForeign s k = false ∧ x.admitted = false ∧ x.cmd.slba % bandSectors s = 0) ∧ (overlapWaits s x = false ∧ journalFull s = false) ∧
     (s.lband (lbandOf s (cmdLba s x))).zone ∉ [.explicitOpen, .full, .offline] ∧ openZone (lbandOf s (cmdLba s x)) .explicitOpen s = some v) ∧
    (∃ (k : Nat) (x : Slot) (s : State), s.ioReady k x = true ∧ x.cmd.op = .zoneSend .open_ ∧
     (isForeign s k = false ∧ x.admitted = false ∧ x.cmd.slba % bandSectors s = 0) ∧ (overlapWaits s x = false ∧ journalFull s = false) ∧
     (s.lband (lbandOf s (cmdLba s x))).zone ∉ [.explicitOpen, .full, .offline] ∧
     (openZone (lbandOf s (cmdLba s x)) .explicitOpen s).isNone = true) ∧
    (∃ (k : Nat) (x : Slot) (s : State), s.ioReady k x = true ∧ x.cmd.op = .zoneSend .open_ ∧
     (isForeign s k = false ∧ x.admitted = false ∧ x.cmd.slba % bandSectors s = 0) ∧ (overlapWaits s x = false ∧ journalFull s = false) ∧
     ((s.lband (lbandOf s (cmdLba s x))).zone = .full ∨ (s.lband (lbandOf s (cmdLba s x))).zone = .offline)) ∧
    (∃ (k : Nat) (x : Slot) (s : State), s.ioReady k x = true ∧ x.cmd.op = .zoneSend .open_ ∧
     (isForeign s k = false ∧ x.admitted = false ∧ x.cmd.slba % bandSectors s = 0) ∧ (overlapWaits s x = false ∧ journalFull s = false) ∧
     (s.lband (lbandOf s (cmdLba s x))).zone = .explicitOpen) ∧
    (∃ (k : Nat) (x : Slot) (s : State), s.ioReady k x = true ∧ x.cmd.op = .zoneSend .close ∧
     (isForeign s k = false ∧ x.admitted = false ∧ x.cmd.slba % bandSectors s = 0) ∧ (overlapWaits s x = false ∧ journalFull s = false) ∧
     ((s.lband (lbandOf s (cmdLba s x))).zone = .explicitOpen ∨ (s.lband (lbandOf s (cmdLba s x))).zone = .implicitOpen)) ∧
    (∃ (k : Nat) (x : Slot) (s : State), s.ioReady k x = true ∧ x.cmd.op = .zoneSend .close ∧
     (isForeign s k = false ∧ x.admitted = false ∧ x.cmd.slba % bandSectors s = 0) ∧ (overlapWaits s x = false ∧ journalFull s = false) ∧
     (s.lband (lbandOf s (cmdLba s x))).zone = .closed) ∧
    (∃ (k : Nat) (x : Slot) (s : State), s.ioReady k x = true ∧ x.cmd.op = .zoneSend .close ∧
     (isForeign s k = false ∧ x.admitted = false ∧ x.cmd.slba % bandSectors s = 0) ∧ (overlapWaits s x = false ∧ journalFull s = false) ∧
     (s.lband (lbandOf s (cmdLba s x))).zone ∈ [.empty, .full, .offline]) ∧
    (∃ (k : Nat) (x : Slot) (v : State) (s : State), s.ioReady k x = true ∧ x.cmd.op = .zoneSend .finish ∧
     (isForeign s k = false ∧ x.admitted = false ∧ x.cmd.slba % bandSectors s = 0) ∧ (overlapWaits s x = false ∧ journalFull s = false) ∧
     ((s.lband (lbandOf s (cmdLba s x))).zone ≠ .full ∧ (s.lband (lbandOf s (cmdLba s x))).zone ≠ .offline) ∧
     padZone (lbandOf s (cmdLba s x)) x k s = some v) ∧
    (∃ (k : Nat) (x : Slot) (s : State), s.ioReady k x = true ∧ x.cmd.op = .zoneSend .finish ∧
     (isForeign s k = false ∧ x.admitted = false ∧ x.cmd.slba % bandSectors s = 0) ∧ (overlapWaits s x = false ∧ journalFull s = false) ∧
     (s.lband (lbandOf s (cmdLba s x))).zone = .full) ∧
    (∃ (k : Nat) (x : Slot) (s : State), s.ioReady k x = true ∧ x.cmd.op = .zoneSend .finish ∧
     (isForeign s k = false ∧ x.admitted = false ∧ x.cmd.slba % bandSectors s = 0) ∧ (overlapWaits s x = false ∧ journalFull s = false) ∧
     (s.lband (lbandOf s (cmdLba s x))).zone = .offline) ∧
    (∃ (k : Nat) (x : Slot) (s : State), s.ioReady k x = true ∧ x.cmd.op = .zoneSend .reset ∧
     (isForeign s k = false ∧ x.admitted = false ∧ x.cmd.slba % bandSectors s = 0) ∧ (overlapWaits s x = false ∧ journalFull s = false) ∧
     ((s.lband (lbandOf s (cmdLba s x))).zone ≠ .offline ∧ (s.lband (lbandOf s (cmdLba s x))).zone ≠ .empty)) ∧
    (∃ (k : Nat) (x : Slot) (s : State), s.ioReady k x = true ∧ x.cmd.op = .zoneSend .reset ∧
     (isForeign s k = false ∧ x.admitted = false ∧ x.cmd.slba % bandSectors s = 0) ∧ (overlapWaits s x = false ∧ journalFull s = false) ∧
     (s.lband (lbandOf s (cmdLba s x))).zone = .offline) ∧
    (∃ (k : Nat) (x : Slot) (s : State), s.ioReady k x = true ∧ x.cmd.op = .zoneSend .reset ∧
     (isForeign s k = false ∧ x.admitted = false ∧ x.cmd.slba % bandSectors s = 0) ∧ (overlapWaits s x = false ∧ journalFull s = false) ∧
     (s.lband (lbandOf s (cmdLba s x))).zone = .empty) ∧
    (∃ (k : Nat) (x : Slot) (s : State), s.ioReady k x = true ∧ x.cmd.op = .zoneSend .offline ∧
     (isForeign s k = false ∧ x.admitted = false ∧ x.cmd.slba % bandSectors s = 0) ∧ (overlapWaits s x = false ∧ journalFull s = false) ∧
     (s.lband (lbandOf s (cmdLba s x))).zone ≠ .offline) ∧
    (∃ (k : Nat) (x : Slot) (s : State), s.ioReady k x = true ∧ x.cmd.op = .zoneSend .offline ∧
     (isForeign s k = false ∧ x.admitted = false ∧ x.cmd.slba % bandSectors s = 0) ∧ (overlapWaits s x = false ∧ journalFull s = false) ∧
     (s.lband (lbandOf s (cmdLba s x))).zone = .offline) ∧
    (∃ (k : Nat) (x : Slot) (s : State), s.ioReady k x = true ∧ x.cmd.op = .zoneAppend ∧ x.cmd.slba % bandSectors s ≠ 0) ∧
    (∃ (k : Nat) (x : Slot) (data : List (List Byte)) (pi : Option (NvStatus × Nat)) (j : Nat) (e : NsEntry) (s : State), s.ioReady k x = true ∧
     x.cmd.op = .zoneAppend ∧ x.cmd.slba % bandSectors s = 0 ∧ x.fetched = false ∧ isForeign s k = false ∧ data.length = x.cmd.nlb ∧
     slotNs s x = some (j, e) ∧ goesAway s x = false ∧ creditFor s e = true ∧ piFailure s x pi = none) ∧
    (∃ (k : Nat) (x : Slot) (rep : Nat) (n : Nat) (part : Bool) (j : Nat) (z : List Nat) (e : NsEntry) (s : State), s.ioReady k x = true ∧
     x.cmd.op = .zoneReceive rep n part ∧ slotNs s x = some (j, e) ∧ isForeign s k = false ∧ x.cmd.slba < nsSize s e ∧
     z = ((List.range (e.count - x.cmd.slba / bandSectors s)).map (fun i => e.base + x.cmd.slba / bandSectors s + i)).filter
       (fun l => zoneReported rep (s.lband l).zone) ∧ (n ≤ 2 ^ 21 ∧ rep ≠ 6 ∧ rep ≤ 7)) ∧
    (∃ (k : Nat) (x : Slot) (rep : Nat) (n : Nat) (part : Bool) (j : Nat) (e : NsEntry) (s : State), s.ioReady k x = true ∧
     x.cmd.op = .zoneReceive rep n part ∧ slotNs s x = some (j, e) ∧ isForeign s k = false ∧ x.cmd.slba < nsSize s e ∧
     (2 ^ 21 < n ∨ rep = 6 ∨ 7 < rep)) ∧
    (∃ (k : Nat) (x : Slot) (rep : Nat) (n : Nat) (part : Bool) (j : Nat) (e : NsEntry) (s : State), s.ioReady k x = true ∧
     x.cmd.op = .zoneReceive rep n part ∧ slotNs s x = some (j, e) ∧ isForeign s k = false ∧ nsSize s e ≤ x.cmd.slba) :=
  ⟨⟨0, slotOf (cmdOf (.zoneSend .open_)), (openZone 0 .explicitOpen (withZone lbandNew (slotOf (cmdOf (.zoneSend .open_))))).getD hostReady, withZone
         lbandNew (slotOf (cmdOf (.zoneSend .open_))), by decide +kernel⟩,
   ⟨0, slotOf (cmdOf (.zoneSend .open_)), (withZone lbandNew (slotOf (cmdOf (.zoneSend .open_)))).onBnd
         (fun b => { b with prelist := setV b.prelist 0 [] }), by decide +kernel⟩,
   ⟨0, slotOf (cmdOf (.zoneSend .open_)), withZone { lbandNew with zone := .full } (slotOf (cmdOf (.zoneSend .open_))), by decide +kernel⟩,
   ⟨0, slotOf (cmdOf (.zoneSend .open_)), withZone { lbandNew with zone := .explicitOpen } (slotOf (cmdOf (.zoneSend .open_))), by decide +kernel⟩,
   ⟨0, slotOf (cmdOf (.zoneSend .close)), withZone { lbandNew with zone := .explicitOpen } (slotOf (cmdOf (.zoneSend .close))), by decide +kernel⟩,
   ⟨0, slotOf (cmdOf (.zoneSend .close)), withZone { lbandNew with zone := .closed } (slotOf (cmdOf (.zoneSend .close))), by decide +kernel⟩,
   ⟨0, slotOf (cmdOf (.zoneSend .close)), withZone lbandNew (slotOf (cmdOf (.zoneSend .close))), by decide +kernel⟩,
   ⟨0, slotOf (cmdOf (.zoneSend .finish)),
         (padZone 0 (slotOf (cmdOf (.zoneSend .finish))) 0 (withZone { lbandNew with zone := .closed } (slotOf (cmdOf (.zoneSend .finish))))).getD
         hostReady, withZone { lbandNew with zone := .closed } (slotOf (cmdOf (.zoneSend .finish))), by decide +kernel⟩,
   ⟨0, slotOf (cmdOf (.zoneSend .finish)), withZone { lbandNew with zone := .full } (slotOf (cmdOf (.zoneSend .finish))), by decide +kernel⟩,
   ⟨0, slotOf (cmdOf (.zoneSend .finish)), withZone { lbandNew with zone := .offline } (slotOf (cmdOf (.zoneSend .finish))), by decide +kernel⟩,
   ⟨0, slotOf (cmdOf (.zoneSend .reset)), withZone { lbandNew with zone := .full } (slotOf (cmdOf (.zoneSend .reset))), by decide +kernel⟩,
   ⟨0, slotOf (cmdOf (.zoneSend .reset)), withZone { lbandNew with zone := .offline } (slotOf (cmdOf (.zoneSend .reset))), by decide +kernel⟩,
   ⟨0, slotOf (cmdOf (.zoneSend .reset)), withZone lbandNew (slotOf (cmdOf (.zoneSend .reset))), by decide +kernel⟩,
   ⟨0, slotOf (cmdOf (.zoneSend .offline)), withZone { lbandNew with zone := .full } (slotOf (cmdOf (.zoneSend .offline))), by decide +kernel⟩,
   ⟨0, slotOf (cmdOf (.zoneSend .offline)), withZone { lbandNew with zone := .offline } (slotOf (cmdOf (.zoneSend .offline))), by decide +kernel⟩,
   ⟨0, slotOf { cmdOf .zoneAppend with slba := 1 }, withSlot (slotOf { cmdOf .zoneAppend with slba := 1 }), by decide +kernel⟩,
   ⟨0, slotOf (cmdOf (.zoneAppend)), [[7]], none, 0, ⟨2, 0, 0, 0, 8, 1, [1], []⟩, withZone lbandNew (slotOf (cmdOf (.zoneAppend))), by decide +kernel⟩,
   ⟨0, slotOf (cmdOf (.zoneReceive 0 128 true)), 0, 128, true, 0, List.range 8, ⟨2, 0, 0, 0, 8, 1, [1], []⟩, withZone lbandNew
         (slotOf (cmdOf (.zoneReceive 0 128 true))), by decide +kernel⟩,
   ⟨0, slotOf (cmdOf (.zoneReceive 6 128 true)), 6, 128, true, 0, ⟨2, 0, 0, 0, 8, 1, [1], []⟩, withZone lbandNew
         (slotOf (cmdOf (.zoneReceive 6 128 true))), by decide +kernel⟩,
   ⟨0, slotOf { cmdOf (.zoneReceive 0 128 true) with slba := 2 ^ 40 }, 0, 128, true, 0, ⟨2, 0, 0, 0, 8, 1, [1], []⟩, withZone lbandNew
         (slotOf { cmdOf (.zoneReceive 0 128 true) with slba := 2 ^ 40 }), by decide +kernel⟩⟩

theorem witness_BufferReadsDecodePoisonAndScrub :
    (∃ (ch : Fin 2) (line : Nat) (burst : Vector (BitVec 64) 10) (s : State), decodeLine (s.buf.marks.get ch) burst = .clean ∧
     sccDirty s (lineGl s ch line) = false ∧ s.buf.merge.find? (fun e => e.line == lineGl s ch line) = none) ∧
    (∃ (ch : Fin 2) (line : Nat) (burst : Vector (BitVec 64) 10) (e : MergeEntry) (s : State), decodeLine (s.buf.marks.get ch) burst = .clean ∧
     sccDirty s (lineGl s ch line) = false ∧ s.buf.merge.find? (fun e => e.line == lineGl s ch line) = some e) ∧
    (∃ (ch : Fin 2) (line : Nat) (burst : Vector (BitVec 64) 10) (s : State), decodeLine (s.buf.marks.get ch) burst = .clean ∧
     sccDirty s (lineGl s ch line) = true) ∧
    (∃ (ch : Fin 2) (line : Nat) (burst : Vector (BitVec 64) 10) (j : Nat) (s : State),
     decodeLine (s.buf.marks.get ch) burst = .corrected j true ∧ sccDirty s (lineGl s ch line) = false ∧
     s.buf.merge.find? (fun e => e.line == lineGl s ch line) = none) ∧
    (∃ (ch : Fin 2) (line : Nat) (burst : Vector (BitVec 64) 10) (j : Nat) (s : State),
     decodeLine (s.buf.marks.get ch) burst = .corrected j false ∧ sccDirty s (lineGl s ch line) = false ∧
     s.buf.merge.find? (fun e => e.line == lineGl s ch line) = none) ∧
    (∃ (ch : Fin 2) (burst : Vector (BitVec 64) 10) (s : State), decodeLine (s.buf.marks.get ch) burst = .poisoned) ∧
    (∃ (ch : Fin 2) (line : Nat) (burst : Vector (BitVec 64) 10) (s : State), decodeLine (s.buf.marks.get ch) burst = .uncorrectable ∧
     linePoisoned s (lineGl s ch line) = false) ∧
    (∃ (ch : Fin 2) (s : State), s.on (F.DMCn_SCRUB_CFG_EN ch) = false) ∧
    (∃ (ch : Fin 2) (s : State), s.on (F.DMCn_SCRUB_CFG_EN ch) = true ∧ chPresent s ch = true ∧
     linePoisoned s (lineGl s ch (s.get (F.DMCn_SCRUB_STAT_CURSOR ch))) = true ∧ s.get (F.DMCn_SCRUB_STAT_CURSOR ch) + 1 < chPages s ch * 1024) ∧
    (∃ (ch : Fin 2) (burst : Vector (BitVec 64) 10) (s : State), s.on (F.DMCn_SCRUB_CFG_EN ch) = true ∧ chPresent s ch = true ∧
     linePoisoned s (lineGl s ch (s.get (F.DMCn_SCRUB_STAT_CURSOR ch))) = false ∧ s.get (F.DMCn_SCRUB_STAT_CURSOR ch) + 1 < chPages s ch * 1024 ∧
     decodeLine (s.buf.marks.get ch) burst = .uncorrectable) ∧
    (∃ (ch : Fin 2) (s : State), s.on (F.DMCn_SCRUB_CFG_EN ch) = true ∧ chPresent s ch = true ∧
     linePoisoned s (lineGl s ch (s.get (F.DMCn_SCRUB_STAT_CURSOR ch))) = true ∧ chPages s ch * 1024 ≤ s.get (F.DMCn_SCRUB_STAT_CURSOR ch) + 1) ∧
    (∃ (s : State), s.accepts R.BUF_CE_SEL = true) ∧
    (∃ (ch : Fin 2) (s : State), s.accepts (R.DMCn_ECC_STAT ch) = true) ∧
    (∃ (ch : Fin 2) (s : State), s.accepts (R.DMCn_FLIP_CTL ch) = true ∧ flipAllowed s ch = true) ∧
    (∃ (ch : Fin 2) (s : State), s.accepts (R.DMCn_FLIP_DQ ch) = true ∧ flipAllowed s ch = true) ∧
    (∃ (ch : Fin 2) (w : Word) (s : State), s.accepts (R.DMCn_FLIP_CTL ch) = true ∧ flipAllowed s ch = false ∧ w ≠ 0x40000000) ∧
    (∃ (s : State), chPresent s 1 = false) ∧
    (∃ (s : State), chPresent s 1 = true ∧ s.glb.lost0.getLsbD 9 = false ∧ (included0 s).testBit 9 = true) :=
  ⟨⟨0, 5, encodeLine (le 64 0x1234) 0, active, by decide +kernel⟩,
   ⟨0, 5, encodeLine (le 64 0x1234) 0, ⟨5, 1, [5]⟩, active.onBuf (fun b => { b with merge := [⟨5, 1, [5]⟩] }), by decide +kernel⟩,
   ⟨0, 5, encodeLine (le 64 0x1234) 0, active.onCcx (fun c => { c with lines := [(80, ⟨5, true, false, 0, false, 0⟩)] }), by decide +kernel⟩,
   ⟨0, 5, (encodeLine (le 64 0x1234) 0).set 3 77, 3, active.onBuf (fun b => { b with marks := setV b.marks 0 (some 3) }), by decide +kernel⟩,
   ⟨0, 5, (encodeLine (le 64 0x1234) 0).set 3 77, 3, active, by decide +kernel⟩,
   ⟨0, encodeLine (zeros 64) gdelta, active, by decide +kernel⟩,
   ⟨0, 5, (encodeLine (le 64 0x1234) 0).set 0 77 |>.set 3 99, active, by decide +kernel⟩,
   ⟨0, active.put (F.DMCn_SCRUB_CFG_EN 0) 0, by decide +kernel⟩,
   ⟨0, (setPoison 0 true active).put (F.DMCn_SCRUB_CFG_EN 0) 1, by decide +kernel⟩,
   ⟨0, (encodeLine (le 64 0x1234) 0).set 0 77 |>.set 3 99, active.put (F.DMCn_SCRUB_CFG_EN 0) 1, by decide +kernel⟩,
   ⟨0, ((setPoison (chPages active 0 * 1024 - 1) true active).put (F.DMCn_SCRUB_CFG_EN 0) 1).put (F.DMCn_SCRUB_STAT_CURSOR 0)
         (chPages active 0 * 1024 - 1), by decide +kernel⟩,
   ⟨active.onBuf (fun b => { b with ce := [(0, ⟨3, 0, 2, false, 1, 0⟩)] }), by decide +kernel⟩,
   ⟨1, active.onBuf (fun b => { b with marks := setV b.marks 1 (some 3) }), by decide +kernel⟩,
   ⟨1, chip 0 Mode.service, by decide +kernel⟩,
   ⟨1, chip 0 Mode.service, by decide +kernel⟩,
   ⟨0, 0x80123456, active, by decide +kernel⟩,
   ⟨active.put F.GLB_UNIT_OK0_DMC1 0, by decide +kernel⟩,
   ⟨active.onBuf (fun b => { b with pages := [(3, .owned .dma), (200000, .owned .dma)] }), by decide +kernel⟩⟩

theorem witness_BufferPagesMergesAndArbiter :
    (∃ (line : Nat) (enables : BitVec 64) (s : State), enables ≠ BitVec.allOnes 64 ∧ linePoisoned s line = true ∧
     s.buf.merge.find? (fun e => e.line == line) = none ∧ s.buf.merge.length < 32) ∧
    (∃ (line : Nat) (enables : BitVec 64) (s : State), enables ≠ BitVec.allOnes 64 ∧ linePoisoned s line = false ∧
     s.buf.merge.find? (fun e => e.line == line) = none ∧ s.buf.merge.length < 32) ∧
    (∃ (line : Nat) (enables : BitVec 64) (e : MergeEntry) (rest : List MergeEntry) (s : State), enables ≠ BitVec.allOnes 64 ∧
     s.buf.merge.find? (fun e => e.line == line) = none ∧ (s.buf.merge = e :: rest ∧ rest.length = 31) ∧
     rest.all (fun x => x.line != e.line) = true) ∧
    (∃ (line : Nat) (enables : BitVec 64) (e : MergeEntry) (s : State), enables ≠ BitVec.allOnes 64 ∧ linePoisoned s line = false ∧
     s.buf.merge.find? (fun e => e.line == line) = some e ∧ e.enables ||| enables ≠ BitVec.allOnes 64) ∧
    (∃ (e : MergeEntry) (rest : List MergeEntry) (s : State), s.buf.merge = e :: rest ∧ rest.all (fun x => x.line != e.line) = true ∧
     linePoisoned s e.line = false) ∧
    (∃ (e : MergeEntry) (rest : List MergeEntry) (s : State), s.buf.merge = e :: rest ∧ rest.all (fun x => x.line != e.line) = true ∧
     linePoisoned s e.line = true) ∧
    (∃ (s : State), s.buf.merge = []) ∧
    (∃ (n : Nat) (p : Nat) (o : Owner) (v : State) (s : State), ownerOf n = some o ∧ allocPage o s = some (p, v)) ∧
    (∃ (n : Nat) (o : Owner) (s : State), ownerOf n = some o ∧ (allocPage o s).isNone = true) ∧
    (∃ (p : Nat) (o : Owner) (s : State), smGet p s.buf.pages = some (.owned o) ∧
     s.buf.cache.any (fun e => e.2.loc / 16 == p && e.2.dirty) = false ∧ pagePoisoned s p = false) ∧
    (∃ (p : Nat) (o : Owner) (s : State), smGet p s.buf.pages = some (.owned o) ∧
     s.buf.cache.any (fun e => e.2.loc / 16 == p && e.2.dirty) = false ∧ pagePoisoned s p = true) ∧
    (∃ (p : Nat) (s : State), s.buf.cache.any (fun e => e.2.loc / 16 == p && e.2.dirty) = true) ∧
    (∃ (p : Nat) (s : State), smGet p s.buf.pages = some (.quarantined false) ∧ s.on F.BUF_CTL_QUAR_TEST = true) ∧
    (∃ (p : Nat) (s : State), p < 2 ^ 18 ∧ smGet p s.buf.pages = some (.quarantined false) ∧ s.on F.BUF_CTL_QUAR_TEST = true) ∧
    (∃ (ch : Fin 2) (requests : List (Nat × Nat)) (s : State), grantClass s ch requests = none) ∧
    (∃ (ch : Fin 2) (requests : List (Nat × Nat)) (c : Fin 6) (r : Nat × Nat) (s : State), grantClass s ch requests = some c ∧
     requests.find? (fun r => r.1 == c.val + 1) = some r) ∧
    (∃ (ch : Fin 2) (requests : List (Nat × Nat)) (m : LaneMove) (c : Fin 6) (r : Nat × Nat) (s : State), grantClass s ch requests = some c ∧
     requests.find? (fun r => r.1 == c.val + 1) = some r ∧ (c.val ≠ 1 ∧ requests.any (fun r => r.1 == 2) = false)) ∧
    (∃ (ch : Fin 2) (requests : List (Nat × Nat)) (c : Fin 6) (n : Lane) (s : State), grantClass s ch requests = some c ∧
     (c.val ≠ 1 ∧ requests.any (fun r => r.1 == 2) = true)) :=
  ⟨⟨9, 6, setPoison 9 true active, by decide +kernel⟩,
   ⟨9, 6, active, by decide +kernel⟩,
   ⟨9, 6, ⟨10, 1, [5]⟩, (List.range 31).map (fun i => ⟨11 + i, 1, [5]⟩), active.onBuf
         (fun b => { b with merge := ⟨10, 1, [5]⟩ :: (List.range 31).map (fun i => ⟨11 + i, 1, [5]⟩) }), by decide +kernel⟩,
   ⟨9, 6, ⟨9, 1, [5]⟩, active.onBuf (fun b => { b with merge := [⟨9, 1, [5]⟩] }), by decide +kernel⟩,
   ⟨⟨9, 1, [5]⟩, [], active.onBuf (fun b => { b with merge := [⟨9, 1, [5]⟩] }), by decide +kernel⟩,
   ⟨⟨9, 1, [5]⟩, [], (setPoison 9 true active).onBuf (fun b => { b with merge := [⟨9, 1, [5]⟩] }), by decide +kernel⟩,
   ⟨active, by decide +kernel⟩,
   ⟨1, 0, .firmware, ((allocPage .firmware (active.put (F.DMCn_INIT_PTR_PAGES 0) 50)).map Prod.snd).getD active, active.put (F.DMCn_INIT_PTR_PAGES 0)
         50, by decide +kernel⟩,
   ⟨1, .firmware, active.put (F.DMCn_INIT_PTR_PAGES 0) 0, by decide +kernel⟩,
   ⟨3, .dma, active.onBuf (fun b => { b with pages := [(3, .owned .dma)], cache := [(5, ⟨[], false, false, 0, 48, 0, none, 1⟩)] }), by decide +kernel⟩,
   ⟨0, .dma, setPoison 4 true (active.onBuf (fun b => { b with pages := [(0, .owned .dma)] })), by decide +kernel⟩,
   ⟨0, active.onBuf (fun b => { b with cache := [(5, ⟨[], true, false, 0, 0, 0, none, 1⟩)] }), by decide +kernel⟩,
   ⟨3, (active.onBuf (fun b => { b with pages := [(3, .quarantined false)] })).put F.BUF_CTL_QUAR_TEST 1, by decide +kernel⟩,
   ⟨3, (active.onBuf (fun b => { b with pages := [(3, .quarantined false)] })).put F.BUF_CTL_QUAR_TEST 1, by decide +kernel⟩,
   ⟨0, [], active, by decide +kernel⟩,
   ⟨0, [(3, 4), (5, 9)], 2, (3, 4), active, by decide +kernel⟩,
   ⟨0, [(3, 4), (5, 9)], .decoded, 2, (3, 4), active, by decide +kernel⟩,
   ⟨0, [(1, 4), (2, 9)], 0, 0, active, by decide +kernel⟩⟩

theorem witness_CoresAndSccServeRequests :
    (∃ (a : CoreAccess) (s : State), hartRuns s a.hart = false) ∧
    (∃ (a : CoreAccess) (s : State), hartRuns s a.hart = true ∧ a.refused = none ∧
     (match a.op with | .fence | .fenceI | .csrWriteMisa | .csrRead _ => false | _ => true) = true ∧ 0x10000000 ≤ a.addr ∧
     (a.addr < bufferBase ∨ bufferBase + bufBytes s < a.addr + a.size)) ∧
    (∃ (a : CoreAccess) (n : Nat) (s : State), hartRuns s a.hart = true ∧
     (match a.op with | .fence | .fenceI | .csrWriteMisa | .csrRead _ => false | _ => true) = true ∧ a.refused = some n) ∧
    (∃ (a : CoreAccess) (n : Nat) (s : State), hartRuns s a.hart = true ∧ a.refused = none ∧
     (match a.op with | .fence | .fenceI | .csrWriteMisa | .csrRead _ => false | _ => true) = true ∧ bufferBase ≤ a.addr ∧
     a.addr + a.size ≤ bufferBase + bufBytes s ∧ misaligned a (a.addr - bufferBase) = some n) ∧
    (∃ (a : CoreAccess) (s : State), hartRuns s a.hart = true ∧ a.refused = none ∧ a.op = .load ∧ bufferBase ≤ a.addr ∧
     a.addr + a.size ≤ bufferBase + bufBytes s ∧ misaligned a (a.addr - bufferBase) = none ∧ l1Has a.hart ((a.addr - bufferBase) / 64) s = true ∧
     a.l1 = .hit) ∧
    (∃ (a : CoreAccess) (s : State), hartRuns s a.hart = true ∧ a.refused = none ∧ a.op = .load ∧ bufferBase ≤ a.addr ∧
     a.addr + a.size ≤ bufferBase + bufBytes s ∧ misaligned a (a.addr - bufferBase) = none ∧ l1Has a.hart ((a.addr - bufferBase) / 64) s = false ∧
     glPoisoned s ((a.addr - bufferBase) / 64) = false ∧ sccFind s ((a.addr - bufferBase) / 64) = none ∧ a.array = .ok ∧ chPages s 0 ≤ 2 ^ 18 ∧
     s.on F.SCC_CTL_PF_EN = false) ∧
    (∃ (a : CoreAccess) (s : State), hartRuns s a.hart = true ∧ a.refused = none ∧ a.op = .store ∧ bufferBase ≤ a.addr ∧
     a.addr + a.size ≤ bufferBase + bufBytes s ∧ misaligned a (a.addr - bufferBase) = none ∧
     sbRuns (a.addr - bufferBase) (le a.size a.data.toNat) = [((a.addr - bufferBase), le a.size a.data.toNat)] ∧
     ((s.ccx.sb.get a.hart).find? (sbTouch (a.addr - bufferBase, le a.size a.data.toNat)) = none ∧ (s.ccx.sb.get a.hart).length < 8)) ∧
    (∃ (a : CoreAccess) (s : State), hartRuns s a.hart = true ∧ a.op = .fence ∧ s.ccx.sb.get a.hart = []) ∧
    (∃ (a : CoreAccess) (r : CoreCsr) (s : State), hartRuns s a.hart = true ∧ a.op = .csrRead r) ∧
    (∃ (a : CoreAccess) (s : State), hartRuns s a.hart = true ∧ a.op = .csrWriteMisa) ∧
    (∃ (a : CoreAccess) (s : State), hartRuns s a.hart = true ∧ a.op = .fenceI ∧ s.ccx.sb.get a.hart = []) ∧
    (∃ (a : CoreAccess) (b : List Byte) (s : State), hartRuns s a.hart = true ∧ a.refused = none ∧ a.op = .fetch ∧ bufferBase ≤ a.addr ∧
     a.addr + a.size ≤ bufferBase + bufBytes s ∧ smGet ((a.addr - bufferBase) / 64) (s.ccx.icache.get a.hart) = some b ∧ a.l1 = .hit ∧
     (a.addr - bufferBase) % 64 + a.size ≤ 64) ∧
    (∃ (a : CoreAccess) (s : State), hartRuns s a.hart = true ∧ a.refused = none ∧ a.op = .lr ∧ bufferBase ≤ a.addr ∧
     a.addr + a.size ≤ bufferBase + bufBytes s ∧ misaligned a (a.addr - bufferBase) = none ∧ l1Has a.hart ((a.addr - bufferBase) / 64) s = true ∧
     a.l1 = .hit) ∧
    (∃ (a : CoreAccess) (f : AmoOp) (s : State), hartRuns s a.hart = true ∧ a.refused = none ∧ a.op = .amo f ∧ bufferBase ≤ a.addr ∧
     a.addr + a.size ≤ bufferBase + bufBytes s ∧ misaligned a (a.addr - bufferBase) = none ∧ (a.size = 4 ∨ a.size = 8) ∧
     l1Has a.hart ((a.addr - bufferBase) / 64) s = true ∧ a.array = .ok ∧ s.ccx.sb.get a.hart = [] ∧
     glPoisoned s ((a.addr - bufferBase) / 64) = false ∧ s.on F.SCC_CTL_PF_EN = false) ∧
    (∃ (w : Bool) (a : CoreAccess) (s : State), hartRuns s a.hart = true ∧ a.refused = none ∧ a.op = .sc w ∧ bufferBase ≤ a.addr ∧
     a.addr + a.size ≤ bufferBase + bufBytes s ∧ misaligned a (a.addr - bufferBase) = none ∧ l1Has a.hart ((a.addr - bufferBase) / 64) s = true ∧
     a.l1 = .hit ∧ s.ccx.sb.get a.hart = [] ∧ (w = false ∨ s.ccx.reserve.get a.hart ≠ some ((a.addr - bufferBase) / 64))) ∧
    (∃ (a : CoreAccess) (s : State), hartRuns s a.hart = true ∧ a.refused = none ∧ a.op = .sc true ∧ bufferBase ≤ a.addr ∧
     a.addr + a.size ≤ bufferBase + bufBytes s ∧ misaligned a (a.addr - bufferBase) = none ∧ l1Has a.hart ((a.addr - bufferBase) / 64) s = true ∧
     a.l1 = .hit ∧ s.ccx.sb.get a.hart = [] ∧ s.ccx.reserve.get a.hart = some ((a.addr - bufferBase) / 64) ∧
     glPoisoned s ((a.addr - bufferBase) / 64) = false ∧ s.on F.SCC_CTL_PF_EN = false) ∧
    (∃ (line : Nat) (s : State), lineInBuf s line = false) ∧
    (∃ (line : Nat) (k : Nat) (l : SccLine) (s : State), lineInBuf s line = true ∧ sccFind s line = some (k, l) ∧ l.prefetched = false ∧
     l.poison = false) ∧
    (∃ (h : Fin 8) (sup : Bool) (s : State), claimChoice s h sup = none) ∧
    (∃ (h : Fin 8) (sup : Bool) (n : Nat) (s : State), claimChoice s h sup = some n) ∧
    (∃ (h : Fin 8) (sup : Bool) (n : Nat) (s : State), claimChoice s h sup = some n) ∧
    (∃ (s : State), s.accepts R.CCX_WDOG_KICK = true) ∧
    (∃ (s : State), s.on F.CCX_WDOG_CFG_TIMEOUT = false) ∧
    (∃ (h : Fin 8) (s : State), s.on F.CCX_WDOG_CFG_TIMEOUT = true ∧ s.get (F.CCX_HART_STAT_RELEASED.bit h.val) = 1 ∧
     s.get (F.CCX_HART_STAT_LOST.bit h.val) = 0 ∧ s.ccx.warned.getLsbD h.val = false) ∧
    (∃ (h : Fin 8) (s : State), s.on F.CCX_WDOG_CFG_TIMEOUT = true ∧ s.get (F.CCX_HART_STAT_RELEASED.bit h.val) = 1 ∧
     s.get (F.CCX_HART_STAT_LOST.bit h.val) = 0 ∧ s.ccx.warned.getLsbD h.val = true) ∧
    (∃ (w : Nat) (s : State), s.accepts R.SCC_WAY_DIS = true ∧ w < 16 ∧ isQeWay s w = false ∧ enabledWays s = [w] ∧
     (s.reg R.SCC_WAY_EN).getLsbD w = true) ∧
    (∃ (w : Nat) (s : State), s.accepts R.SCC_WAY_DIS = true ∧ w < 16 ∧ isQeWay s w = false ∧ enabledWays s ≠ [w] ∧
     (s.reg R.SCC_WAY_EN).getLsbD w = true ∧ s.ccx.lines = []) :=
  ⟨⟨⟨2, .load, 0x1000, 0x1000000000, 4, 0, none, .hit, .ok⟩, active, by decide +kernel⟩,
   ⟨⟨2, .load, 0x1000, 0x20000000, 4, 0, none, .hit, .ok⟩, (active.put (F.CCX_HART_STAT_RELEASED.bit 2) 1), by decide +kernel⟩,
   ⟨⟨2, .load, 0x1000, 0x1000000040, 4, 0, some 13, .hit, .ok⟩, 13, (active.put (F.CCX_HART_STAT_RELEASED.bit 2) 1), by decide +kernel⟩,
   ⟨⟨2, .lr, 0x1000, 0x1000000042, 4, 0, none, .hit, .ok⟩, 4, ((active.put (F.CCX_HART_STAT_RELEASED.bit 2) 1).put F.BUF_PAGE_TOTAL_COUNT 64), by
         decide +kernel⟩,
   ⟨⟨2, .load, 0x1000, 0x1000000044, 4, 0, none, .hit, .ok⟩, ((active.put (F.CCX_HART_STAT_RELEASED.bit 2) 1).put F.BUF_PAGE_TOTAL_COUNT 64).onCcx
         (fun c => { c with lines := [(16, ⟨1, false, false, 0, false, 4⟩)] }), by decide +kernel⟩,
   ⟨⟨2, .load, 0x1000, 0x1000000044, 4, 0, none, .hit, .ok⟩, ((active.put (F.CCX_HART_STAT_RELEASED.bit 2) 1).put F.BUF_PAGE_TOTAL_COUNT 64).put
         F.SCC_CTL_PF_EN 0, by decide +kernel⟩,
   ⟨⟨2, .store, 0x1000, 0x1000000044, 4, 4660, none, .hit, .ok⟩, ((active.put (F.CCX_HART_STAT_RELEASED.bit 2) 1).put F.BUF_PAGE_TOTAL_COUNT 64), by
         decide +kernel⟩,
   ⟨⟨2, .fence, 0x1000, 0, 4, 0, none, .hit, .ok⟩, (active.put (F.CCX_HART_STAT_RELEASED.bit 2) 1), by decide +kernel⟩,
   ⟨⟨2, .csrRead .mhartid, 0, 0, 8, 0, none, .hit, .ok⟩, .mhartid, (active.put (F.CCX_HART_STAT_RELEASED.bit 2) 1), by decide +kernel⟩,
   ⟨⟨2, .csrWriteMisa, 0, 0, 8, 0, none, .hit, .ok⟩, (active.put (F.CCX_HART_STAT_RELEASED.bit 2) 1), by decide +kernel⟩,
   ⟨⟨2, .fenceI, 0, 0, 4, 0, none, .hit, .ok⟩, (active.put (F.CCX_HART_STAT_RELEASED.bit 2) 1).onCcx
         (fun c => { c with icache := setV c.icache 2 [(1, [7])] }), by decide +kernel⟩,
   ⟨⟨2, .fetch, 0x1000, 0x1000000044, 4, 0, none, .hit, .ok⟩, zeros 4 ++ [1, 2, 3, 4],
         ((active.put (F.CCX_HART_STAT_RELEASED.bit 2) 1).put F.BUF_PAGE_TOTAL_COUNT 64).onCcx
         (fun c => { c with icache := setV c.icache 2 [(1, zeros 4 ++ [1, 2, 3, 4])] }), by decide +kernel⟩,
   ⟨⟨2, .lr, 0x1000, 0x1000000044, 4, 0, none, .hit, .ok⟩, ((active.put (F.CCX_HART_STAT_RELEASED.bit 2) 1).put F.BUF_PAGE_TOTAL_COUNT 64).onCcx
         (fun c => { c with lines := [(16, ⟨1, false, false, 0, false, 4⟩)] }), by decide +kernel⟩,
   ⟨⟨2, .amo .add, 0x1000, 0x1000000044, 4, 4660, none, .hit, .ok⟩, .add, ((
             ((active.put (F.CCX_HART_STAT_RELEASED.bit 2) 1).put F.BUF_PAGE_TOTAL_COUNT 64).onCcx
             (fun c => { c with lines := [(16, ⟨1, false, false, 0, false, 4⟩)] })).onBuf (fun b => { b with mem := [(68, 9)] })).put
         F.SCC_CTL_PF_EN 0, by decide +kernel⟩,
   ⟨false, ⟨2, .sc false, 0x1000, 0x1000000044, 4, 4660, none, .hit, .ok⟩,
         ((active.put (F.CCX_HART_STAT_RELEASED.bit 2) 1).put F.BUF_PAGE_TOTAL_COUNT 64).onCcx
         (fun c => { c with lines := [(16, ⟨1, false, false, 0, false, 4⟩)], reserve := setV c.reserve 2 (some 1) }), by decide +kernel⟩,
   ⟨⟨2, .sc true, 0x1000, 0x1000000044, 4, 4660, none, .hit, .ok⟩, (
           ((active.put (F.CCX_HART_STAT_RELEASED.bit 2) 1).put F.BUF_PAGE_TOTAL_COUNT 64).onCcx
           (fun c => { c with lines := [(16, ⟨1, false, false, 0, false, 4⟩)], reserve := setV c.reserve 2 (some 1) })).put F.SCC_CTL_PF_EN 0, by
         decide +kernel⟩,
   ⟨2 ^ 40, active, by decide +kernel⟩,
   ⟨1, 16, ⟨1, false, false, 2, false, 4⟩, ((active.put (F.CCX_HART_STAT_RELEASED.bit 2) 1).put F.BUF_PAGE_TOTAL_COUNT 64).onCcx
         (fun c => { c with lines := [(16, ⟨1, false, false, 2, false, 4⟩)] }), by decide +kernel⟩,
   ⟨2, false, active, by decide +kernel⟩,
   ⟨2, false, 43, active.onCcx (fun c => { c with irq := 1 <<< 43, routes := [(43, 0x112)] }), by decide +kernel⟩,
   ⟨2, false, 43, active.onCcx (fun c => { c with irq := 1 <<< 43, routes := [(43, 0x112)] }), by decide +kernel⟩,
   ⟨active.onCcx (fun c => { c with warned := 6 }), by decide +kernel⟩,
   ⟨active, by decide +kernel⟩,
   ⟨2, (active.put (F.CCX_HART_STAT_RELEASED.bit 2) 1).put F.CCX_WDOG_CFG_TIMEOUT 5, by decide +kernel⟩,
   ⟨2, ((active.put (F.CCX_HART_STAT_RELEASED.bit 2) 1).put F.CCX_WDOG_CFG_TIMEOUT 5).onCcx (fun c => { c with warned := 4 }), by decide +kernel⟩,
   ⟨3, (chip 0 Mode.active).setReg R.SCC_WAY_EN 8, by decide +kernel⟩,
   ⟨3, (chip 0 Mode.active).setReg R.SCC_WAY_EN 0xFFFF, by decide +kernel⟩⟩

theorem witness_KeysUnwrapIntoTheKeyStore :
    (∃ (s : State), s.key.kek = none) ∧
    (∃ (k : Nat) (a : List Byte) (b : List Byte) (s : State), s.key.kek.isSome = true ∧ smGet k s.key.recs = some (a, b)) :=
  ⟨⟨{ active with key := { active.key with kek := none } }, by decide +kernel⟩,
   ⟨1, zeros 96, [], { active with key := { active.key with kek := some (zeros 32), recs := [(1, (zeros 96, []))] } }, by decide +kernel⟩⟩

theorem witness_DmaChannelsMoveAndRunPrograms :
    (∃ (c : Fin 64) (s : State), s.accepts (R.DMAc_CTL c) = true ∧ dmaBusy s c = false ∧ s.on F.DMA_CTL_DISABLE = false) ∧
    (∃ (c : Fin 64) (s : State), s.accepts (R.DMAc_CTL c) = true ∧ (dmaBusy s c = true ∨ s.on F.DMA_CTL_DISABLE = true)) ∧
    (∃ (c : Fin 64) (s : State), s.accepts (R.DMAc_CTL c) = true ∧ dmaState s c = 3) ∧
    (∃ (c : Fin 64) (s : State), s.accepts (R.DMAc_CTL c) = true ∧ dmaState s c ≠ 3) ∧
    (∃ (c : Fin 64) (s : State), s.accepts (R.DMAc_CTL c) = true ∧ dmaState s c ≠ 0 ∧ dmaState s c ≠ 4) ∧
    (∃ (c : Fin 64) (s : State), s.accepts (R.DMAc_CTL c) = true ∧ (dmaState s c = 0 ∨ dmaState s c = 4)) ∧
    (∃ (w : Word) (s : State), s.accepts R.DMA_CTL = true ∧ w.getLsbD 0 = true ∧ (∀ c : Fin 64, dmaState s c = 0 ∨ dmaState s c = 4)) ∧
    (∃ (w : Word) (s : State), s.accepts R.DMA_CTL = true ∧ w.getLsbD 0 = false) ∧
    (∃ (c : Fin 64) (s : State), dmaState s c = 1 ∧ dmaProgram s c = true ∧ (s.dmaCh c).instr = none ∧ (s.dmaCh c).past = true) ∧
    (∃ (c : Fin 64) (s : State), dmaState s c = 1 ∧ dmaProgram s c = true ∧ (s.dmaCh c).instr = none ∧ (s.dmaCh c).past = false ∧
     bufBytes s < dmaInstrAt s c + 16) ∧
    (∃ (c : Fin 64) (s : State), dmaState s c = 1 ∧ dmaProgram s c = true ∧ (s.dmaCh c).instr = none ∧ (s.dmaCh c).past = false ∧
     dmaInstrAt s c + 16 ≤ bufBytes s ∧ glPoisoned s (dmaInstrAt s c / 64) = false ∧ sccFind s (dmaInstrAt s c / 64) = none ∧
     dmaLegal (unle (memRead s (dmaInstrAt s c) 16)) = true) ∧
    (∃ (c : Fin 64) (s : State), dmaState s c = 1 ∧ (s.dmaCh c).moving = false ∧ dmaProgram s c = false ∧
     bufBytes s < (dmaElem s c).sa + (dmaElem s c).len) ∧
    (∃ (c : Fin 64) (s : State), dmaState s c = 1 ∧ (s.dmaCh c).moving = false ∧ dmaProgram s c = false ∧
     (dmaElem s c).sa + (dmaElem s c).len ≤ bufBytes s ∧ bufBytes s < (dmaElem s c).da + (dmaElem s c).len) ∧
    (∃ (c : Fin 64) (s : State), dmaState s c = 1 ∧ (s.dmaCh c).moving = false ∧ (s.dmaCh c).bursts = [] ∧ dmaProgram s c = false ∧
     (dmaElem s c).sa + (dmaElem s c).len ≤ bufBytes s ∧ (dmaElem s c).da + (dmaElem s c).len ≤ bufBytes s ∧ selfOverlap (dmaElem s c) = false ∧
     (dmaElem s c).len ≤ burstLen (dmaElem s c).sa (dmaElem s c).da (dmaElem s c).len ∧
     (linesOf (dmaElem s c).sa (dmaElem s c).len).all (fun l => (sccFind s l).isNone && !linePoisoned s l) = true ∧ (dmaElem s c).alloc = false ∧
     0 < s.get F.DMA_CRED_FREE) ∧
    (∃ (c : Fin 64) (b : Burst) (s : State), dmaState s c = 1 ∧ dmaProgram s c = false ∧ (s.dmaCh c).bursts = [b] ∧
     (dmaElem s c).len ≤ (s.dmaCh c).issued ∧ b.data.length = 64 ∧ b.dst % 64 = 0 ∧ sccFind s (b.dst / 64) = none ∧
     s.get (dmaIdx c 0) + 1 < dmaCnt s c 0) ∧
    (∃ (c : Fin 64) (b : Burst) (s : State), dmaState s c = 1 ∧ dmaProgram s c = false ∧ (s.dmaCh c).bursts = [b] ∧
     (dmaElem s c).len ≤ (s.dmaCh c).issued ∧ b.data.length = 64 ∧ b.dst % 64 = 0 ∧ sccFind s (b.dst / 64) = none ∧
     ((∀ k : Fin 3, dmaCnt s c k ≤ s.get (dmaIdx c k) + 1))) ∧
    (∃ (c : Fin 64) (v : Nat) (s : State), dmaAt s c 2 = some v ∧ s.get (dmaIdx c (bitsOf v 5 4 - 1)) + 1 < dmaCnt s c (bitsOf v 5 4 - 1)) ∧
    (∃ (c : Fin 64) (v : Nat) (s : State), dmaAt s c 2 = some v ∧ dmaCnt s c (bitsOf v 5 4 - 1) ≤ s.get (dmaIdx c (bitsOf v 5 4 - 1)) + 1) ∧
    (∃ (c : Fin 64) (v : Nat) (s : State), dmaAt s c 3 = some v ∧ bitsOf v 4 4 = 1) ∧
    (∃ (c : Fin 64) (v : Nat) (s : State), dmaAt s c 3 = some v ∧ bitsOf v 4 4 = 0 ∧ s.on (F.DMA_FLAGS_FLAG.bit (bitsOf v 9 5)) = false) ∧
    (∃ (c : Fin 64) (v : Nat) (s : State), dmaAt s c 3 = some v ∧ bitsOf v 4 4 = 0 ∧ s.on (F.DMA_FLAGS_FLAG.bit (bitsOf v 9 5)) = true) ∧
    (∃ (c : Fin 64) (v : Nat) (s : State), dmaAt s c 4 = some v ∧ bitsOf v 4 4 = 1 ∧ bitsOf v 11 11 = 0 ∧
     ((∀ k : Fin 64, (s.dmaCh k).waitFlag ≠ some (bitsOf v 9 5)))) ∧
    (∃ (c : Fin 64) (v : Nat) (s : State), dmaAt s c 4 = some v ∧ bitsOf v 4 4 = 0 ∧ bitsOf v 11 11 = 1) ∧
    (∃ (c : Fin 64) (s : State), dmaState s c = 2 ∧ (s.dmaCh c).waitDelay = true) ∧
    (∃ (f : Fin 32) (s : State), s.accepts R.DMA_FLAG_SET = true ∧ ((∀ k : Fin 64, (s.dmaCh k).waitFlag ≠ some f.val))) ∧
    (∃ (f : Fin 32) (k : Nat) (s : State), s.accepts R.DMA_FLAG_SET = true ∧
     (List.range 64).find? (fun c => (s.dmaCh c).waitFlag == some f.val) = some k) ∧
    (∃ (s : State), s.accepts R.DMA_FLAGS = true) ∧
    (∃ (c : Fin 64) (gl : Nat) (l : List Byte) (s : State), (s.dmaCh c).line = some (gl, l) ∧
     ((s.dmaCh c).past = false ∧ dmaInstrAt s c / 64 = gl) ∧ dmaLegal (unle ((l.drop (dmaInstrAt s c % 64)).take 16)) = true) :=
  ⟨⟨5, (active.put (F.DMAc_STAT_STATE 5) 3).setReg (R.DMAc_IDX01 5) 7, by decide +kernel⟩,
   ⟨5, (active.put (F.DMAc_STAT_STATE 5) 1), by decide +kernel⟩,
   ⟨5, active.put (F.DMAc_STAT_STATE 5) 3, by decide +kernel⟩,
   ⟨5, active, by decide +kernel⟩,
   ⟨5, (active.put (F.DMAc_STAT_STATE 5) 1), by decide +kernel⟩,
   ⟨5, active, by decide +kernel⟩,
   ⟨1, active, by decide +kernel⟩,
   ⟨0, active, by decide +kernel⟩,
   ⟨5, (((active.put (F.DMAc_STAT_STATE 5) 1).setReg R.DMA_MODE_LO 32).put F.BUF_PAGE_TOTAL_COUNT 64).onDma 5 (fun x => { x with past := true }), by
         decide +kernel⟩,
   ⟨5, (((active.put (F.DMAc_STAT_STATE 5) 1).setReg R.DMA_MODE_LO 32).put F.BUF_PAGE_TOTAL_COUNT 64).put F.BUF_PAGE_TOTAL_COUNT 0, by decide +kernel⟩,
   ⟨5, memWrite 0 [4, 8] (((active.put (F.DMAc_STAT_STATE 5) 1).setReg R.DMA_MODE_LO 32).put F.BUF_PAGE_TOTAL_COUNT 64), by decide +kernel⟩,
   ⟨5, (active.put (F.DMAc_STAT_STATE 5) 1), by decide +kernel⟩,
   ⟨5, ((active.put (F.DMAc_STAT_STATE 5) 1).put F.BUF_PAGE_TOTAL_COUNT 1).setReg (R.DMAc_DST_LO 5) 0x100000, by decide +kernel⟩,
   ⟨5, memWrite 0 [1, 2, 3]
         ((((active.put (F.DMAc_STAT_STATE 5) 1).put F.BUF_PAGE_TOTAL_COUNT 1).setReg (R.DMAc_DST_LO 5) 0x200).put (F.DMAc_ELEM_LEN 5) 64), by
         decide +kernel⟩,
   ⟨5, ⟨0, 64, le 64 0x1234⟩, (((active.put (F.DMAc_STAT_STATE 5) 1).put (F.DMAc_ELEM_LEN 5) 64).put (F.DMAc_CNT01_CNT0 5) 3).onDma 5
         (fun x => { x with moving := true, issued := 64, bursts := [⟨0, 64, le 64 0x1234⟩] }), by decide +kernel⟩,
   ⟨5, ⟨0, 64, le 64 0x1234⟩, ((active.put (F.DMAc_STAT_STATE 5) 1).put (F.DMAc_ELEM_LEN 5) 64).onDma 5
         (fun x => { x with moving := true, issued := 64, bursts := [⟨0, 64, le 64 0x1234⟩] }), by decide +kernel⟩,
   ⟨5, 594, ((((active.put (F.DMAc_STAT_STATE 5) 1).setReg R.DMA_MODE_LO 32).put F.BUF_PAGE_TOTAL_COUNT 64).onDma 5
           (fun x => { x with instr := some 594 })).put (F.DMAc_CNT01_CNT0 5) 3, by decide +kernel⟩,
   ⟨5, 594, (((active.put (F.DMAc_STAT_STATE 5) 1).setReg R.DMA_MODE_LO 32).put F.BUF_PAGE_TOTAL_COUNT 64).onDma 5
         (fun x => { x with instr := some 594 }), by decide +kernel⟩,
   ⟨5, 214748364819, (((active.put (F.DMAc_STAT_STATE 5) 1).setReg R.DMA_MODE_LO 32).put F.BUF_PAGE_TOTAL_COUNT 64).onDma 5
         (fun x => { x with instr := some 214748364819 }), by decide +kernel⟩,
   ⟨5, 227, (((active.put (F.DMAc_STAT_STATE 5) 1).setReg R.DMA_MODE_LO 32).put F.BUF_PAGE_TOTAL_COUNT 64).onDma 5
         (fun x => { x with instr := some 227 }), by decide +kernel⟩,
   ⟨5, 227, ((((active.put (F.DMAc_STAT_STATE 5) 1).setReg R.DMA_MODE_LO 32).put F.BUF_PAGE_TOTAL_COUNT 64).onDma 5
           (fun x => { x with instr := some 227 })).put (F.DMA_FLAGS_FLAG.bit 7) 1, by decide +kernel⟩,
   ⟨5, 1268, (((active.put (F.DMAc_STAT_STATE 5) 1).setReg R.DMA_MODE_LO 32).put F.BUF_PAGE_TOTAL_COUNT 64).onDma 5
         (fun x => { x with instr := some 1268 }), by decide +kernel⟩,
   ⟨5, 3076, (((active.put (F.DMAc_STAT_STATE 5) 1).setReg R.DMA_MODE_LO 32).put F.BUF_PAGE_TOTAL_COUNT 64).onDma 5
         (fun x => { x with instr := some 3076 }), by decide +kernel⟩,
   ⟨5, (active.put (F.DMAc_STAT_STATE 5) 2).onDma 5 (fun x => { x with waitDelay := true }), by decide +kernel⟩,
   ⟨7, active, by decide +kernel⟩,
   ⟨7, 5, (active.put (F.DMAc_STAT_STATE 5) 2).onDma 5 (fun x => { x with waitFlag := some 7 }), by decide +kernel⟩,
   ⟨active.setReg R.DMA_FLAGS 7, by decide +kernel⟩,
   ⟨5, 0, [4, 8] ++ zeros 62, active.onDma 5 (fun x => { x with line := some (0, [4, 8] ++ zeros 62) }), by decide +kernel⟩⟩

theorem witness_OwnershipAndLinkFollowTheCells :
    (∃ (s : State), (imageRole s = 0 ∨ s.mode = Mode.off)) ∧
    (∃ (a : BitVec 4) (s : State), imageRole s ≠ 0 ∧ s.mode ≠ Mode.off ∧ ackBits s &&& ~~~a = 0 ∧ s.bat.releasing = 0 ∧ s.bat.claimed = 0) ∧
    (∃ (a : BitVec 4) (s : State), imageRole s ≠ 0 ∧ s.mode ≠ Mode.off ∧ ackBits s &&& ~~~a = 0 ∧ s.bat.releasing = 0 ∧
     (s.bat.claimed ≠ 0 ∧ s.bat.claimed &&& ~~~a = 0 ∧ s.get F.BAT_STAT_FAILOVER = 0)) ∧
    (∃ (a : BitVec 4) (s : State), imageRole s ≠ 0 ∧ s.mode ≠ Mode.off ∧ ackBits s &&& ~~~a &&& ~~~claimBits s = 0 ∧ s.bat.releasing = 0 ∧
     s.bat.claimed = 0 ∧ lanes.any (fun (n : Lane) => (ackBits s &&& ~~~a).getLsbD (actOf s n)) = true) ∧
    (∃ (s : State), s.get F.BAT_STAT_FAILOVER ≠ 2) ∧
    (∃ (s : State), s.get F.BAT_STAT_FAILOVER = 2 ∧ s.bat.mirrors = [] ∧ s.bat.adopted = true ∧ s.bnd.flushDue = false ∧ s.bnd.flush = none) ∧
    (∃ (s : State), s.bat.linkLost = true) ∧
    (∃ (s : State), s.on F.BAT_CTL_ENABLE = true ∧ imageRole s ≠ 0 ∧ s.on F.GLB_UNIT_OK0_BAT = true ∧ s.bat.linkLost = false ∧
     batonUp s = false ∧ s.on F.GLB_MODE_COND_POWER_FAIL = false) ∧
    (∃ (s : State), imageRole s ≠ 0 ∧ (s.mode ≠ Mode.off ∧ s.mode ≠ Mode.service) ∧ s.on F.BAT_STAT_SUSPECT = false ∧
     s.on F.GLB_MODE_COND_PARTNER_LOST = false ∧ s.on F.BAT_CTL_AUTO_TAKE = true ∧ s.bat.linkLost = false ∧
     (s.mode ≠ Mode.partnerStandby ∨ s.bat.resynced = true) ∧ peerOwns s ≠ 0) ∧
    (∃ (s : State), imageRole s ≠ 0 ∧ (s.mode ≠ Mode.off ∧ s.mode ≠ Mode.service) ∧ s.on F.BAT_STAT_SUSPECT = false ∧
     s.on F.GLB_MODE_COND_PARTNER_LOST = false ∧ (s.on F.BAT_CTL_AUTO_TAKE = false ∨ s.bat.linkLost = true)) ∧
    (∃ (s : State), (s.bat.claimed = 0 ∨ s.get F.BAT_STAT_FAILOVER ≠ 0)) ∧
    (∃ (s : State), s.bat.claimed ≠ 0 ∧ s.get F.BAT_STAT_FAILOVER = 0) ∧
    (∃ (s : State), batonUp s = true) ∧
    (∃ (s : State), batonUp s = false) ∧
    (∃ (l : BitVec 16) (s : State), batonUp s = true ∧ s.bat.unacked.any (fun e => !lseqBefore e.1 l) = false) ∧
    (∃ (l : BitVec 16) (e : BitVec 16 × BitVec 32 × BatMsg) (s : State), batonUp s = true ∧
     s.bat.unacked.filter (fun e => !lseqBefore e.1 l) = [e] ∧ s.on F.GLB_MODE_COND_POWER_FAIL = false ∧
     msgLen e.2.2 + 1 ≤ s.get F.BAT_CRED_AVAIL) ∧
    (∃ (s : State), (batonUp s = false ∨ mayToggle s = false)) ∧
    (∃ (s : State), s.maySend 0 = true ∧ mayToggle s = true) :=
  ⟨⟨active, by decide +kernel⟩,
   ⟨15, pairActive.put F.BAT_OWN_STAT_ACK 3, by decide +kernel⟩,
   ⟨15, (pairActive.put F.BAT_OWN_STAT_ACK 3).onBat (fun b => { b with claimed := 12 }), by decide +kernel⟩,
   ⟨1, (pairActive.put F.BAT_OWN_STAT_ACK 3).put F.BAT_OWN_CTL_CLAIM 3, by decide +kernel⟩,
   ⟨active, by decide +kernel⟩,
   ⟨(pairActive.put F.BAT_STAT_FAILOVER 2).onBat (fun b => { b with adopted := true, claimed := 3 }), by decide +kernel⟩,
   ⟨pairActive.onBat (fun b => { b with linkLost := true }), by decide +kernel⟩,
   ⟨(pairActive.put F.BAT_CTL_ENABLE 1).put F.GLB_UNIT_OK0_BAT 1, by decide +kernel⟩,
   ⟨(linked.put F.BAT_CTL_AUTO_TAKE 1).put F.BAT_OWN_STAT_PEER_OWNS 12, by decide +kernel⟩,
   ⟨(linked.put F.BAT_CTL_AUTO_TAKE 0).put F.BAT_OWN_STAT_PEER_OWNS 12, by decide +kernel⟩,
   ⟨active, by decide +kernel⟩,
   ⟨(linked.put F.BAT_OWN_CTL_CLAIM 15).onBat (fun b => { b with claimed := 12 }), by decide +kernel⟩,
   ⟨linked, by decide +kernel⟩,
   ⟨active, by decide +kernel⟩,
   ⟨5, linked.onBat (fun b => { b with unacked := [(4, 9, .rack)] }), by decide +kernel⟩,
   ⟨4, (4, 9, .rack), linked.onBat (fun b => { b with unacked := [(3, 9, .rack), (4, 9, .rack)] }), by decide +kernel⟩,
   ⟨active, by decide +kernel⟩,
   ⟨linked, by decide +kernel⟩⟩

theorem witness_MessageOutOfOrderIsDiscarded :
    (∃ (h : BatHdr) (a : Nat) (b : Nat) (c : Nat) (d : Nat) (v : Nat) (x : BitVec 128) (m : BitVec 4) (n : BitVec 4) (p : Bool) (q : Bool)
         (r : Bool) (bl : List (List Byte)) (st : NvStatus) (rq : WorkReq) (es : List JEntry) (kr : List Byte) (en : Option NsEntry)
         (mp : BitVec 256) (im : Option MapImage) (i : Instr) (s : State),
     i ∈ ([.hello h a b c d v x, .heartbeat h a m n p q r b c, .release h m, .data h a b bl, .done h st p a b, .extent h rq a, .outcome h a b,
           .mirror h a b c bl, .commit h a b c p, .mack h, .mfree h a b c, .mreq h a b, .jnl h a es, .jack h a, .keyrec h a kr, .nsrec h a en,
           .rack h, .lwlrec h a b c mp, .resync h a im] : List Instr) ∧ batonUp s = true ∧ h.lseq ≠ s.bat.rxNext) ∧
    (∃ (h : BatHdr) (a : Nat) (b : Nat) (c : Nat) (d : Nat) (v : Nat) (x : BitVec 128) (m : BitVec 4) (n : BitVec 4) (p : Bool) (q : Bool)
         (r : Bool) (bl : List (List Byte)) (st : NvStatus) (rq : WorkReq) (es : List JEntry) (kr : List Byte) (en : Option NsEntry)
         (mp : BitVec 256) (im : Option MapImage) (i : Instr) (s : State),
     i ∈ ([.hello h a b c d v x, .heartbeat h a m n p q r b c, .release h m, .data h a b bl, .done h st p a b, .extent h rq a, .outcome h a b,
           .mirror h a b c bl, .commit h a b c p, .mack h, .mfree h a b c, .mreq h a b, .jnl h a es, .jack h a, .keyrec h a kr, .nsrec h a en,
           .rack h, .lwlrec h a b c mp, .resync h a im] : List Instr) ∧ batonUp s = false) ∧
    (∃ (h : BatHdr) (f : Nat) (ns : Nat) (cl : Nat) (e : Sqe) (s : State), (s.qe.slots.length < 16384 ∧ s.qe.stuck = none) ∧ batonUp s = true ∧
     h.lseq ≠ s.bat.rxNext) ∧
    (∃ (s : State), (16384 ≤ s.qe.slots.length ∨ s.qe.stuck.isSome = true ∨ batonUp s = false)) :=
  ⟨⟨hdr 3, 0, 0, 0, 0, 0, 0, 0, 0, false, false, false, [], .success, calRequest 0 0, [], zeros 96, none, 0, none, .rack (hdr 3), linked.onBat
         (fun b => { b with rxNext := 5 }), by decide +kernel⟩,
   ⟨hdr 3, 0, 0, 0, 0, 0, 0, 0, 0, false, false, false, [], .success, calRequest 0 0, [], zeros 96, none, 0, none, .rack (hdr 3), active, by
         decide +kernel⟩,
   ⟨hdr 3, 0, 0, 0, cmdOf .read, linked.onBat (fun b => { b with rxNext := 5 }), by decide +kernel⟩,
   ⟨active, by decide +kernel⟩⟩

theorem witness_MessagesOfTheLinkAct :
    (∃ (h : BatHdr) (set : Nat) (role : Nat) (stepping : Nat) (image : Nat) (fw : Nat) (r : Nat) (lo : Nat) (hi : Nat) (s : State),
     s.expects h = true ∧ pairSec s = some (r, set, lo, hi) ∧ ((r = 1 ∧ role = 2) ∨ (r = 2 ∧ role = 1)) ∧ testedPeer s stepping image fw = true) ∧
    (∃ (h : BatHdr) (stepping : Nat) (image : Nat) (fw : Nat) (s : State), s.expects h = true ∧ testedPeer s stepping image fw = false) ∧
    (∃ (h : BatHdr) (s : State), s.expects h = true) ∧
    (∃ (h : BatHdr) (s : State), s.expects h = true) ∧
    (∃ (h : BatHdr) (s : State), s.expects h = true ∧ s.mode ≠ Mode.partnerStandby) ∧
    (∃ (h : BatHdr) (s : State), s.expects h = true ∧ s.mode = Mode.partnerStandby) ∧
    (∃ (h : BatHdr) (s : State), s.expects h = true ∧ s.mode = Mode.partnerStandby ∧ s.bat.unflushed = []) ∧
    (∃ (h : BatHdr) (s : State), s.expects h = true ∧ s.mode ≠ Mode.partnerStandby) ∧
    (∃ (h : BatHdr) (l : List Byte) (s : State), s.expects h = true ∧ s.maySend 0 = true ∧ l ≠ zeros 96 ∧
     (match goodCopy s l with | some r => r.erasePending | none => false) = false) ∧
    (∃ (h : BatHdr) (s : State), s.expects h = true ∧ s.maySend 0 = true) ∧
    (∃ (h : BatHdr) (s : State), s.expects h = true ∧ s.maySend 0 = true) ∧
    (∃ (h : BatHdr) (s : State), s.expects h = true) ∧
    (∃ (h : BatHdr) (s : State), s.expects h = true ∧ s.maySend 0 = true) ∧
    (∃ (h : BatHdr) (s : State), s.expects h = true) ∧
    (∃ (h : BatHdr) (s : State), s.expects h = true) ∧
    (∃ (h : BatHdr) (s : State), s.expects h = true ∧ s.maySend 0 = true) :=
  ⟨⟨hdr 0, 5, 2, 1, 1, 1, 1, 3, 10, paired, by decide +kernel, by decide +kernel, by decide, paired_tested⟩,
   ⟨hdr 0, 1, 1, 1, linked, by decide +kernel⟩,
   ⟨hdr 0, linked.put F.BAT_STAT_SUSPECT 1, by decide +kernel⟩,
   ⟨hdr 0, linked, by decide +kernel⟩,
   ⟨hdr 0, linked, by decide +kernel⟩,
   ⟨hdr 0, linked.put F.GLB_MODE_MODE Mode.partnerStandby, by decide +kernel⟩,
   ⟨hdr 0, linked.put F.GLB_MODE_MODE Mode.partnerStandby, by decide +kernel⟩,
   ⟨hdr 0, linked, by decide +kernel⟩,
   ⟨hdr 9, zeros 95, linked, by decide +kernel⟩,
   ⟨hdr 9, linked, by decide +kernel⟩,
   ⟨hdr 9, linked, by decide +kernel⟩,
   ⟨hdr 9, linked, by decide +kernel⟩,
   ⟨hdr 9, linked, by decide +kernel⟩,
   ⟨hdr 9, linked.onBat (fun b => { b with racks := [⟨9, 0⟩] }), by decide +kernel⟩,
   ⟨hdr 9, linked.onBat (fun b => { b with jacks := [⟨3, 0⟩, ⟨7, 1⟩] }), by decide +kernel⟩,
   ⟨hdr 9, linked, by decide +kernel⟩⟩

theorem witness_ForwardedWorkAndMirrorsAct :
    (∃ (s : State), (16384 ≤ s.qe.slots.length ∨ s.qe.stuck.isSome = true)) ∧
    (∃ (h : BatHdr) (ns : Nat) (e : Sqe) (s : State), s.expects h = true ∧ s.qe.slots.length < 16384 ∧ s.qe.stuck = none ∧
     guestFault s ns e = none ∧ e.op ≠ .copy ∧ (∀ k, e.op ≠ .dsm k)) ∧
    (∃ (h : BatHdr) (ns : Nat) (e : Sqe) (s : State), s.expects h = true ∧ s.qe.slots.length < 16384 ∧ s.qe.stuck = none ∧
     guestFault s ns e = none) ∧
    (∃ (h : BatHdr) (ns : Nat) (e : Sqe) (st : NvStatus) (s : State), s.expects h = true ∧ s.qe.slots.length < 16384 ∧ s.qe.stuck = none ∧
     guestFault s ns e = some st) ∧
    (∃ (h : BatHdr) (g : Forward) (x : Slot) (s : State), s.expects h = true ∧ s.bat.guests.find? (fun f => f.tag == h.tag.toNat) = some g ∧
     s.slot g.slot = some x) ∧
    (∃ (h : BatHdr) (f : Forward) (x : Slot) (s : State), s.expects h = true ∧ s.bat.forwards.find? (fun f => f.tag == h.tag.toNat) = some f ∧
     s.slot f.slot = some x ∧ x.result = none ∧ x.dropped = false ∧ x.fon = none) ∧
    (∃ (h : BatHdr) (r : WorkReq) (a : Lane) (s : State), s.expects h = true ∧ r.act = a.val ∧ ownLane s a = true) ∧
    (∃ (h : BatHdr) (r : WorkReq) (s : State), s.expects h = true ∧ s.maySend 0 = true ∧ (∀ a : Lane, r.act = a.val → ownLane s a = false)) ∧
    (∃ (h : BatHdr) (s : State), s.expects h = true ∧ s.bat.extents.find? (fun e => e.1 == h.tag.toNat) = none) ∧
    (∃ (h : BatHdr) (i : Item) (s : State), s.expects h = true ∧ s.bat.extents.find? (fun e => e.1 == h.tag.toNat) = some (h.tag.toNat, i)) ∧
    (∃ (h : BatHdr) (s : State), s.expects h = true ∧ h.tag ≠ 0xFFFFFFFF ∧ s.bat.mirrors.all (fun m => m.tag != h.tag.toNat) = true) ∧
    (∃ (h : BatHdr) (lba : Nat) (s : State), s.expects h = true ∧ h.tag = 0xFFFFFFFF ∧ s.bat.asked.contains lba = false) ∧
    (∃ (h : BatHdr) (lba : Nat) (c : CBlock) (s : State), s.expects h = true ∧ h.tag = 0xFFFFFFFF ∧ s.bat.asked.contains lba = true ∧
     cacheGet s lba = some c) ∧
    (∃ (h : BatHdr) (s : State), s.expects h = true) ∧
    (∃ (h : BatHdr) (s : State), s.expects h = true) ∧
    (∃ (h : BatHdr) (s : State), s.expects h = true) ∧
    (∃ (h : BatHdr) (f : Forward) (x : Slot) (s : State), s.expects h = true ∧ s.bat.macks = [f] ∧ f.tag = h.tag.toNat ∧ s.slot f.slot = some x ∧
     x.mirror = true ∧ x.result = none ∧ x.dropped = false) ∧
    (∃ (h : BatHdr) (ns : Nat) (lba : Nat) (d : List Byte) (s : State), s.expects h = true ∧ mirrorCopy s lba = some d ∧
     s.maySend (msgLen (.mirror ns lba 1 [d])) = true) ∧
    (∃ (h : BatHdr) (lba : Nat) (s : State), s.expects h = true ∧ mirrorCopy s lba = none ∧ (cacheGet s lba).filter (fun c => c.dirty) = none ∧
     s.maySend 0 = true) ∧
    (∃ (h : BatHdr) (ns : Nat) (lba : Nat) (c : CBlock) (s : State), s.expects h = true ∧ mirrorCopy s lba = none ∧
     (cacheGet s lba).filter (fun c => c.dirty) = some c ∧ s.maySend (msgLen (.mirror ns lba 1 [c.data])) = true) :=
  ⟨⟨{ linked with qe := { linked.qe with stuck := some 3 } }, by decide +kernel⟩,
   ⟨hdr 9, 0, cmdOf .flush, linked, by decide +kernel⟩,
   ⟨hdr 9, 0, cmdOf .copy, linked.onBnd (fun b => { b with ns := [(0, ⟨1, 0, 0, 0, 8, 1, [1], []⟩)] }), by decide +kernel⟩,
   ⟨hdr 9, 0, cmdOf .read, .invalidNamespace, linked, by decide +kernel⟩,
   ⟨hdr 9, ⟨9, 0⟩, slotOf (cmdOf .write), ({ linked with qe := { linked.qe with slots := [(0, slotOf (cmdOf .write))] } }).onBat
         (fun b => { b with guests := [⟨9, 0⟩] }), by decide +kernel⟩,
   ⟨hdr 9, ⟨9, 0⟩, { slotOf (cmdOf .write) with fon := none },
         ({ linked with qe := { linked.qe with slots := [(0, { slotOf (cmdOf .write) with fon := none })] } }).onBat
         (fun b => { b with forwards := [⟨9, 0⟩] }), by decide +kernel⟩,
   ⟨hdr 9, calRequest 2 0, 2, linked, by decide +kernel⟩,
   ⟨hdr 9, calRequest 2 0, linked.put ((F.BAT_OWN_STAT_ACK).bit 2) 0, by decide +kernel⟩,
   ⟨hdr 9, linked, by decide +kernel⟩,
   ⟨hdr 9, ⟨0, calRequest 0 1, 0, true⟩, linked.onBat (fun b => { b with extents := [(9, ⟨0, calRequest 0 1, 0, true⟩)] }), by decide +kernel⟩,
   ⟨hdr 9, linked, by decide +kernel⟩,
   ⟨hdr 0xFFFFFFFF, 64, linked, by decide +kernel⟩,
   ⟨hdr 0xFFFFFFFF, 64, ⟨[], true, true, 0, 0, 0, none, 16⟩, (linked.onBat (fun b => { b with asked := [64] })).onBuf
         (fun b => { b with cache := [(64, ⟨[], true, true, 0, 0, 0, none, 16⟩)] }), by decide +kernel⟩,
   ⟨hdr 9, linked.onBat (fun b => { b with mirrors := [⟨9, 1, false, false, [(64, none, [5])]⟩] }), by decide +kernel⟩,
   ⟨hdr 9, linked.onBat (fun b => { b with mirrors := [⟨9, 1, true, true, [(64, none, [5])]⟩] }), by decide +kernel⟩,
   ⟨hdr 9, linked.onBat (fun b => { b with macks := [⟨9, 0⟩, ⟨8, 1⟩] }), by decide +kernel⟩,
   ⟨hdr 9, ⟨9, 0⟩, { slotOf (cmdOf .write) with mirror := true },
         ({ linked with qe := { linked.qe with slots := [(0, { slotOf (cmdOf .write) with mirror := true })] } }).onBat
         (fun b => { b with macks := [⟨9, 0⟩] }), by decide +kernel⟩,
   ⟨hdr 9, 1, 64, [5], linked.onBat (fun b => { b with mirrors := [⟨9, 1, true, true, [(64, none, [5])]⟩] }), by decide +kernel⟩,
   ⟨hdr 9, 64, linked, by decide +kernel⟩,
   ⟨hdr 9, 1, 64, ⟨[7], true, true, 0, 0, 0, none, 16⟩, linked.onBuf (fun b => { b with cache := [(64, ⟨[7], true, true, 0, 0, 0, none, 16⟩)] }), by
         decide +kernel⟩⟩

theorem witness_PowerRowsApplyStatesAndLimits :
    (∃ (v : State) (s : State), v = wakeEnds (showNextEvent s) ∧
     (v.pwr.idleAt = none ∨ v.on F.PWR_CTL_IDLE_EN = false ∨ v.pwr.wakeFor.isSome = true ∨ powerMode v.mode = false ∨ working v = true)) ∧
    (∃ (v : State) (s : State) (since : Nat), v = wakeEnds (showNextEvent s) ∧ v.pwr.idleAt = some since ∧
     ([6, 5, 4, 3] : List Nat).find? (idleAdmits v since) = none) ∧
    (∃ (v : State) (s : State) (since : Nat) (k : Nat), v = wakeEnds (showNextEvent s) ∧ v.pwr.idleAt = some since ∧
     v.on F.PWR_CTL_IDLE_EN = true ∧ v.pwr.wakeFor = none ∧ powerMode v.mode = true ∧ working v = false ∧
     ([6, 5, 4, 3] : List Nat).find? (idleAdmits v since) = some k) ∧
    (∃ (s : State), (s.on F.PWR_CTL_LOOK_EN = false ∨ s.ps < 3 ∨ s.pwr.wakeFor.isSome = true ∨ powerMode s.mode = false)) ∧
    (∃ (src : Nat) (at_ : Nat) (s : State), s.on F.PWR_CTL_LOOK_EN = true ∧ 3 ≤ s.ps ∧ s.pwr.wakeFor = none ∧ powerMode s.mode = true ∧
     bestBy (fun (x y : Nat × Nat) => decide (x.2 < y.2)) ((knownEvents s).filter (fun e => decide (s.now.toNat < e.2))) = some (src, at_) ∧
     at_ ≤ s.now.toNat + exLat s s.ps * 100000) ∧
    (∃ (s : State), laneLimit s < (servableLanes s).length) ∧
    (∃ (s : State), (servableLanes s).length ≤ laneLimit s) ∧
    (∃ (s : State), (2 < s.ps ∨ spinState s ≠ Sp.atSpeed)) ∧
    (∃ (s : State), s.ps ≤ 2 ∧ spinState s = Sp.atSpeed ∧ bothServe s = true) ∧
    (∃ (v : State) (s : State), s.ps ≤ 2 ∧ spinState s = Sp.atSpeed ∧ bothServe s = false ∧ s.on F.PWR_CTL_CAD_AUTO = false ∧
     cadenceDeclared s (s.get F.PWR_CTL_FIXED_CAD) = true ∧
     v = s.onPwr (fun p => { p with svcW := Vector.replicate 4 0, busyW := Vector.replicate 4 0 })) ∧
    (∃ (s : State), s.ps ≤ 2 ∧ spinState s = Sp.atSpeed ∧ bothServe s = false ∧ s.on F.PWR_CTL_CAD_AUTO = true ∧
     cadenceCeiling s s.ps < cadence s) ∧
    (∃ (s : State), s.on F.GLB_MODE_COND_POWER_FAIL = true) ∧
    (∃ (s : State), s.on F.GLB_MODE_COND_POWER_FAIL = false) :=
  ⟨⟨wakeEnds (showNextEvent active), active, by decide +kernel⟩,
   ⟨wakeEnds (showNextEvent (idleChip.onPwr (fun p => { p with idleAt := some 360000000000 }))), idleChip.onPwr
         (fun p => { p with idleAt := some 360000000000 }), 360000000000, by decide +kernel⟩,
   ⟨wakeEnds (showNextEvent idleChip), idleChip, 0, 6, by decide +kernel⟩,
   ⟨active, by decide +kernel⟩,
   ⟨3, 100, ((active.put F.GLB_MODE_PSTATE 4).put F.PWR_CTL_LOOK_EN 1).setPair R.PWR_HINT_LO R.PWR_HINT_HI 100 |>.setReg R.PWR_PSD_LAT4 5, by
         decide +kernel⟩,
   ⟨active.put F.GLB_MODE_PSTATE 3, by decide +kernel⟩,
   ⟨active, by decide +kernel⟩,
   ⟨active.put F.GLB_MODE_PSTATE 4, by decide +kernel⟩,
   ⟨(linked.put F.SPM_STAT_STATE Sp.atSpeed).put F.BAT_STAT_PEER_OK 1 |>.put F.BAT_OWN_STAT_ACK 3, by decide +kernel⟩,
   ⟨(((active.put F.PWR_CTL_CAD_AUTO 0).put F.PWR_CTL_FIXED_CAD 1).put F.SPM_STAT_STATE Sp.atSpeed).onPwr
         (fun p => { p with svcW := Vector.replicate 4 0, busyW := Vector.replicate 4 0 }),
         (((active.put F.PWR_CTL_CAD_AUTO 0).put F.PWR_CTL_FIXED_CAD 1).put F.SPM_STAT_STATE Sp.atSpeed), by decide +kernel⟩,
   ⟨(((active.put F.PWR_CTL_CAD_AUTO 1).put F.SPM_STAT_STATE Sp.atSpeed).put F.SPM_STAT_CAD 3).put F.PWR_TEMP_TJ 0, by decide +kernel⟩,
   ⟨active.put F.GLB_MODE_COND_POWER_FAIL 1, by decide +kernel⟩,
   ⟨active, by decide +kernel⟩⟩

theorem witness_TrustBootReleasesTheHarts :
    (∃ (s : State), (s.get F.TRC_BOOT_STAT_PHASE = 7 ∨ s.get F.TRC_BOOT_STAT_PHASE = 15)) ∧
    (∃ (s : State), s.get F.TRC_BOOT_STAT_PHASE < 5 ∧ installedGood s = false) ∧
    (∃ (m : Manifest) (s : State), s.get F.TRC_BOOT_STAT_PHASE < 5 ∧ installedGood s = true ∧
     ((bootState s).trial = false ∧ (bootState s).armed = none) ∧ bankManifest s (bootState s).active = some m ∧
     firmwareSigned s (tcfBytes s m) = true ∧ (manifestFormed m = true ∧ manifestSigned s m = true) ∧ (bootState s).minSvn.toNat ≤ m.svn.toNat ∧
     (component m (bootRole s m) 1 0).map (fun c => c.digest) = some (sha384 (tcfBytes s m)) ∧ chipMatches m (bootRole s m) = true ∧
     s.on F.CFG_LOAD_STAT_FAIL = false ∧ s.on F.CFG_LOAD_STAT_DONE = false) ∧
    (∃ (s : State), (s.get F.TRC_BOOT_STAT_PHASE = 5 ∨ s.get F.TRC_BOOT_STAT_PHASE = 6) ∧ s.on F.CFG_LOAD_STAT_FAIL = false ∧
     s.on F.CFG_LOAD_STAT_DONE = false) ∧
    (∃ (a : Bool) (b : Bool) (m : Manifest) (f : Component) (s : State), (s.get F.TRC_BOOT_STAT_PHASE = 5 ∨ s.get F.TRC_BOOT_STAT_PHASE = 6) ∧
     bankManifest s (bootState s).active = some m ∧ s.on F.CFG_LOAD_STAT_FAIL = false ∧ s.on F.CFG_LOAD_STAT_DONE = true ∧
     component m (bootRole s m) 2 0 = some f ∧ cfwReady s f = true ∧ sha384 (componentBytes s (bootState s).active f) = f.digest ∧
     (a = true ∨ b = true) ∧ s.on F.TRC_BOOT_STAT_REC_FAIL = false ∧ (s.trc.driveSecret.isSome = true ∨ roleBit s ≠ 0)) ∧
    (∃ (s : State), 1 ≤ s.session ∧ resetIsHeld s = true) ∧
    (∃ (a : BitVec 32) (s : State), 1 ≤ s.session ∧ resetIsHeld s = false ∧ accessOk 4 a.toNat = false) ∧
    (∃ (a : BitVec 32) (s : State), 1 ≤ s.session ∧ resetIsHeld s = false ∧ accessOk 4 a.toNat = true ∧ laneBusy s a.toNat = false) ∧
    (∃ (s : State), 1 ≤ s.session ∧ resetIsHeld s = true) ∧
    (∃ (a : BitVec 32) (s : State), 1 ≤ s.session ∧ resetIsHeld s = false ∧ accessOk 4 a.toNat = false) ∧
    (∃ (a : BitVec 32) (s : State), 1 ≤ s.session ∧ resetIsHeld s = false ∧ accessOk 4 a.toNat = true ∧ earlyWrite s a.toNat = false ∧
     laneBusy s a.toNat = false) ∧
    (∃ (a : BitVec 32) (s : State), 1 ≤ s.session ∧ resetIsHeld s = false ∧ accessOk 4 a.toNat = true ∧ earlyWrite s a.toNat = true) :=
  ⟨⟨active.put F.TRC_BOOT_STAT_PHASE 7, by decide +kernel⟩,
   ⟨State.reset, by decide +kernel⟩,
   ⟨bootable, installed false bootable State.reset, by decide +kernel, bootable_key, by decide +kernel, bootable_manifest, bootable_firmware,
         bootable_signed, by decide +kernel, bootable_digest, bootRole_matches, by decide +kernel, by decide +kernel⟩,
   ⟨State.reset.put F.TRC_BOOT_STAT_PHASE 5, by decide +kernel⟩,
   ⟨false, true, bootable, bootableFirmware,
         ((installed false bootable { active with trc := { active.trc with driveSecret := some (true, 5) } }).put F.TRC_BOOT_STAT_PHASE 5).put
         (F.DMCn_INIT_PTR_PAGES 0) 50, by decide +kernel, bootable_manifest_active rfl (by decide +kernel), by decide +kernel, by decide +kernel, by
         rw [bootRole_bootable]; rfl, by decide +kernel, by decide +kernel, by decide, by decide +kernel, by decide +kernel⟩,
   ⟨{ (active.put F.SVC_STAT_SESSION 1) with glb := { active.glb with cfgReset := .waiting false } }, by decide +kernel⟩,
   ⟨2, (active.put F.SVC_STAT_SESSION 1), by decide +kernel⟩,
   ⟨0, (active.put F.SVC_STAT_SESSION 1), by decide +kernel⟩,
   ⟨{ (active.put F.SVC_STAT_SESSION 1) with glb := { active.glb with cfgReset := .waiting false } }, by decide +kernel⟩,
   ⟨2, (active.put F.SVC_STAT_SESSION 1), by decide +kernel⟩,
   ⟨BitVec.ofNat 32 R.PWR_HINT_LO, (active.put F.SVC_STAT_SESSION 1), by decide +kernel⟩,
   ⟨BitVec.ofNat 32 R.PWR_HINT_LO, State.reset.put F.SVC_STAT_SESSION 1, by decide +kernel⟩⟩

theorem witness_ServicePortSessionsAndAnswers :
    (∃ (s : State), s.on F.SVC_STAT_PEER_HOLD = false) ∧
    (∃ (s : State), s.on F.SVC_STAT_PEER_HOLD = true) ∧
    (∃ (tag : BitVec 16) (a : BitVec 32) (w : Word) (man : List Byte) (d : List Byte) (g : BitVec 128) (e : Dword) (c : BitVec 8)
         (p : Instr × BitVec 8) (s : State),
     p ∈ ([(.regRead tag a, 0x10), (.regWrite tag a w, 0x11), (.stageBegin tag man, 0x20), (.stageData tag a d, 0x21), (.stageEnd tag, 0x22),
           (.arm tag e a g, 0x23), (.disarm tag, 0x24), (.revert tag, 0x25), (.hold tag, 0x26), (.firmwareFrame c tag d, c)] : List
         (Instr × BitVec 8)) ∧ s.session = 0) ∧
    (∃ (s : State), s.session ≤ 1) ∧
    (∃ (s : State), s.trc.trngRefused = true) ∧
    (∃ (s : State), s.trc.trngRefused = false ∧ s.on F.SVC_STAT_PEER_HOLD = false) ∧
    (∃ (k : BitVec 32) (r : BitVec 384) (g : BitVec 384) (s : State), authGood s k r g = true ∧ s.get F.TRC_BOOT_STAT_FAIL_CODE ≠ 1 ∧
     keyAllows s k 4 = true) ∧
    (∃ (k : BitVec 32) (r : BitVec 384) (g : BitVec 384) (s : State), authGood s k r g = true ∧ s.get F.TRC_BOOT_STAT_FAIL_CODE ≠ 1 ∧
     (keyAllows s k 3 = true ∧ keyAllows s k 4 = false)) ∧
    (∃ (k : BitVec 32) (r : BitVec 384) (g : BitVec 384) (s : State),
     (authGood s k r g = false ∨ s.get F.TRC_BOOT_STAT_FAIL_CODE = 1 ∨ (keyAllows s k 3 = false ∧ keyAllows s k 4 = false))) ∧
    (∃ (r : Nat) (n : BitVec 384) (s : State), s.trc.nonce = some n ∧ r < 2 ^ 384) ∧
    (∃ (k : BitVec 16), 2048 ≤ k.toNat) ∧
    (∃ (k : BitVec 16) (s : State), k.toNat < 2048 ∧ smGet k.toNat s.trc.attest = none) ∧
    (∃ (k : BitVec 16) (r : BootRecord) (s : State), k.toNat < 2048 ∧ smGet k.toNat s.trc.attest = some r) ∧
    (∃ (s : State), s.trc.quoteNonce = none) ∧
    (∃ (n : BitVec 384) (s : State), s.trc.quoteNonce = some n) ∧
    (∃ (s : State), s.trc.quote = none) ∧
    (∃ (q : List Byte) (s : State), s.trc.quote = some q) ∧
    (∃ (s : State), 1 ≤ s.session) ∧
    (∃ (s : State), s.svc.fwFrame = none) ∧
    (∃ (c : BitVec 8) (tag : BitVec 16) (s : State), s.svc.fwFrame = some (c, tag)) ∧
    (∃ (s : State), s.trc.trngFails + 1 < 3) ∧
    (∃ (s : State), 2 ≤ s.trc.trngFails) :=
  ⟨⟨active, by decide +kernel⟩,
   ⟨active.put F.SVC_STAT_PEER_HOLD 1, by decide +kernel⟩,
   ⟨1, 0, 0, [], [], 0, 0, 0x80, (.hold 1, 0x26), active, by decide +kernel⟩,
   ⟨active, by decide +kernel⟩,
   ⟨{ active with trc := { active.trc with trngRefused := true } }, by decide +kernel⟩,
   ⟨active, by decide +kernel⟩,
   ⟨1, authR, authS, challenged 0x1F, by decide +kernel⟩,
   ⟨1, authR, authS, challenged 0x0F, by decide +kernel⟩,
   ⟨1, 5, 5, active, by decide +kernel⟩,
   ⟨5, 5, challenged 0x1F, by decide +kernel⟩,
   ⟨2048, by decide +kernel⟩,
   ⟨2047, active, by decide +kernel⟩,
   ⟨7, makeRecord active none 2 2, { active with trc := { active.trc with attest := [(7, makeRecord active none 2 2)] } }, by decide +kernel, rfl⟩,
   ⟨active, by decide +kernel⟩,
   ⟨5, { active with trc := { active.trc with quoteNonce := some 5 } }, by decide +kernel⟩,
   ⟨active, by decide +kernel⟩,
   ⟨[7], { active with trc := { active.trc with quote := some [7] } }, by decide +kernel⟩,
   ⟨(active.put F.SVC_STAT_SESSION 1), by decide +kernel⟩,
   ⟨active, by decide +kernel⟩,
   ⟨0x80, 1, { active with svc := { active.svc with fwFrame := some (0x80, 1) } }, by decide +kernel⟩,
   ⟨active, by decide +kernel⟩,
   ⟨{ active with trc := { active.trc with trngFails := 2 } }, by decide +kernel⟩⟩

theorem witness_StagingArmingAndTrialsFollowTheUpdateStates :
    (∃ (s : State), 1 ≤ s.session ∧ 2 < updState s) ∧
    (∃ (b : List Byte) (s : State), 1 ≤ s.session ∧ updState s ≤ 2 ∧
     (b.length ≠ (readManifest b).length ∨ manifestFormed (readManifest b) = false ∨ manifestSigned s (readManifest b) = false ∨
         (readManifest b).svn.toNat < (bootState s).minSvn.toNat)) ∧
    (∃ (b : List Byte) (n : Nat) (s : State), 1 ≤ s.session ∧ updState s ≤ 2 ∧
     (b.length = (readManifest b).length ∧ manifestFormed (readManifest b) = true ∧ manifestSigned s (readManifest b) = true) ∧
     (bootState s).minSvn.toNat ≤ (readManifest b).svn.toNat ∧ bankBase s (!(bootState s).active) = some n) ∧
    (∃ (s : State), 1 ≤ s.session ∧ updState s ≠ 1) ∧
    (∃ (a : BitVec 32) (d : List Byte) (n : Nat) (s : State), 1 ≤ s.session ∧ updState s = 1 ∧
     (1 ≤ d.length ∧ d.length ≤ 4096 ∧ a.toNat + d.length ≤ bankSize s) ∧ bankBase s (!(bootState s).active) = some n) ∧
    (∃ (d : List Byte) (a : BitVec 32) (s : State), 1 ≤ s.session ∧ updState s = 1 ∧
     (d.length = 0 ∨ 4096 < d.length ∨ bankSize s < a.toNat + d.length)) ∧
    (∃ (s : State), 1 ≤ s.session ∧ updState s ≠ 1) ∧
    (∃ (s : State), 1 ≤ s.session ∧ updState s = 1) ∧
    (∃ (s : State), (updState s ≠ 1 ∨ s.trc.longCmd ≠ some 0x22)) ∧
    (∃ (f : Option (BitVec 8)) (s : State), updState s = 1 ∧ s.trc.longCmd = some 0x22 ∧ stageOutcome s f = none) ∧
    (∃ (f : Option (BitVec 8)) (i : BitVec 8) (c : BitVec 8) (s : State), updState s = 1 ∧ s.trc.longCmd = some 0x22 ∧
     stageOutcome s f = some (i, c)) ∧
    (∃ (m : Manifest) (s : State), stagedManifest s = some m ∧ (ownComponents s m).all (fun e => componentFault s m e.2 == none) = true) ∧
    (∃ (at_ : Dword) (w : BitVec 32) (g : BitVec 128) (m : Manifest) (s : State), 1 ≤ s.session ∧ updState s = 2 ∧ stagedManifest s = some m ∧
     m.digest.extractLsb' 256 128 = g ∧ s.now.toNat + 100000000 ≤ at_.toNat ∧ (1000 ≤ w.toNat ∧ w.toNat ≤ 3600000)) ∧
    (∃ (s : State), 1 ≤ s.session ∧ updState s ≠ 2) ∧
    (∃ (at_ : Dword) (w : BitVec 32) (g : BitVec 128) (s : State), 1 ≤ s.session ∧ updState s = 2 ∧
     (at_.toNat < s.now.toNat + 100000000 ∨ w.toNat < 1000 ∨ 3600000 < w.toNat ∨
         (∀ m, stagedManifest s = some m → m.digest.extractLsb' 256 128 ≠ g))) ∧
    (∃ (s : State), 1 ≤ s.session ∧ (updState s = 3 ∨ updState s = 4)) ∧
    (∃ (s : State), 1 ≤ s.session ∧ updState s ≠ 3 ∧ updState s ≠ 4) ∧
    (∃ (s : State), updState s = 3 ∧ (s.pair R.TRC_ARM_LO R.TRC_ARM_HI).toNat ≤ s.now.toNat) ∧
    (∃ (s : State), (updState s ≠ 3 ∨ s.now.toNat < (s.pair R.TRC_ARM_LO R.TRC_ARM_HI).toNat)) ∧
    (∃ (s : State), (updState s = 3 ∨ updState s = 4) ∧ windowOver s = true) ∧
    (∃ (s : State), ((updState s ≠ 3 ∧ updState s ≠ 4) ∨ windowOver s = false)) ∧
    (∃ (s : State), (windowOver s = false ∨ (updState s ≠ 3 ∧ updState s ≠ 4)) ∧ goAccepted s = false) ∧
    (∃ (s : State), goAccepted s = true ∧ windowOver s = false) ∧
    (∃ (s : State), updState s ≠ 6) ∧
    (∃ (m : Manifest) (s : State), updState s = 6 ∧ bankManifest s (bootState s).active = some m ∧ component m (bootRole s m) 5 0 = none) ∧
    (∃ (m : Manifest) (c : Component) (s : State), updState s = 6 ∧ bankManifest s (bootState s).active = some m ∧
     component m (bootRole s m) 5 0 = some c) ∧
    (∃ (b : List Byte) (s : State),
     ((keyTable s).version.toNat < (readKeyTable b).version.toNat ∧ keyTableGood s.trc.rootDigest ((keyTable s).entries[0]?) (readKeyTable b) =
         true)) ∧
    (∃ (b : List Byte) (s : State),
     ((readKeyTable b).version.toNat ≤ (keyTable s).version.toNat ∨ keyTableGood s.trc.rootDigest ((keyTable s).entries[0]?) (readKeyTable b) =
         false)) ∧
    (∃ (m : Manifest) (s : State), 1 ≤ s.session ∧ (s.mode = Mode.configure ∨ s.mode = Mode.service) ∧ (bootState s).trial = false ∧
     bankManifest s (bootState s).previous = some m ∧ (bootState s).minSvn.toNat ≤ m.svn.toNat ∧ chipMatches m (bootRole s m) = true) ∧
    (∃ (s : State), 1 ≤ s.session ∧
     ((s.mode ≠ Mode.configure ∧ s.mode ≠ Mode.service) ∨ (bootState s).trial = true ∨
         (∀ m, bankManifest s (bootState s).previous = some m → m.svn.toNat < (bootState s).minSvn.toNat ∨ chipMatches m (bootRole s m) = false))) ∧
    (∃ (s : State), 1 ≤ s.session) ∧
    (∃ (s : State), 2 ≤ s.session ∧ s.trc.driveSecret = none) ∧
    (∃ (s : State), 2 ≤ s.session ∧ s.trc.driveSecret.isSome = true) :=
  ⟨⟨((active.put F.SVC_STAT_SESSION 1).put F.TRC_UPD_STAT_STATE 3), by decide +kernel⟩,
   ⟨[], ((active.put F.SVC_STAT_SESSION 1).put F.TRC_UPD_STAT_STATE 0), by decide +kernel⟩,
   ⟨manifestOf bootable, 0x801000, installed false bootable ((active.put F.SVC_STAT_SESSION 1).put F.TRC_UPD_STAT_STATE 0), by decide +kernel⟩,
   ⟨((active.put F.SVC_STAT_SESSION 1).put F.TRC_UPD_STAT_STATE 0), by decide +kernel⟩,
   ⟨4, [7, 8], 0x801000, installed false bootable ((active.put F.SVC_STAT_SESSION 1).put F.TRC_UPD_STAT_STATE 1), by decide +kernel⟩,
   ⟨[], 0, ((active.put F.SVC_STAT_SESSION 1).put F.TRC_UPD_STAT_STATE 1), by decide +kernel⟩,
   ⟨((active.put F.SVC_STAT_SESSION 1).put F.TRC_UPD_STAT_STATE 0), by decide +kernel⟩,
   ⟨((active.put F.SVC_STAT_SESSION 1).put F.TRC_UPD_STAT_STATE 1), by decide +kernel⟩,
   ⟨active, by decide +kernel⟩,
   ⟨none, stagedChip 1, by decide +kernel, by decide +kernel, stageOutcome_staged⟩,
   ⟨some 1, 1, 8, { ((active.put F.SVC_STAT_SESSION 1).put F.TRC_UPD_STAT_STATE 1) with trc := { active.trc with longCmd := some 0x22 } }, by
         decide +kernel⟩,
   ⟨keyed, stagedChip 1, stagedChip_manifest (by decide +kernel), keyed_stored⟩,
   ⟨1000000000, 1000, 0xE26AD94F8EAD2214178576CE2ABE2C54, keyed, stagedChip 2, by decide +kernel, by decide +kernel, stagedChip_manifest
         (by decide +kernel), by decide +kernel, by decide +kernel, by decide +kernel⟩,
   ⟨((active.put F.SVC_STAT_SESSION 1).put F.TRC_UPD_STAT_STATE 3), by decide +kernel⟩,
   ⟨10, 1000, 0, ((active.put F.SVC_STAT_SESSION 1).put F.TRC_UPD_STAT_STATE 2), by decide +kernel, by decide +kernel, Or.inl (by decide +kernel)⟩,
   ⟨((active.put F.SVC_STAT_SESSION 1).put F.TRC_UPD_STAT_STATE 3), by decide +kernel⟩,
   ⟨((active.put F.SVC_STAT_SESSION 1).put F.TRC_UPD_STAT_STATE 2), by decide +kernel⟩,
   ⟨((active.put F.SVC_STAT_SESSION 1).put F.TRC_UPD_STAT_STATE 3), by decide +kernel⟩,
   ⟨((active.put F.SVC_STAT_SESSION 1).put F.TRC_UPD_STAT_STATE 2), by decide +kernel⟩,
   ⟨((active.put F.SVC_STAT_SESSION 1).put F.TRC_UPD_STAT_STATE 3), by decide +kernel⟩,
   ⟨((active.put F.SVC_STAT_SESSION 1).put F.TRC_UPD_STAT_STATE 2), by decide +kernel⟩,
   ⟨active, by decide +kernel⟩,
   ⟨((active.put F.SVC_STAT_SESSION 1).put F.TRC_UPD_STAT_STATE 4).setReg R.TRC_ARM_WIN 5000, by decide +kernel⟩,
   ⟨active, by decide +kernel⟩,
   ⟨bootable, installed false bootable (active.put F.TRC_UPD_STAT_STATE 6), by decide +kernel, bootable_manifest_active rfl (by decide +kernel),
         by rw [bootRole_bootable]; decide +kernel⟩,
   ⟨keyed, keyPart, installed false keyed (active.put F.TRC_UPD_STAT_STATE 6), by decide +kernel, keyed_manifest rfl (by decide +kernel),
         by rw [bootRole_keyed]; decide +kernel⟩,
   ⟨keyFile, { active with trc := { active.trc with keyTab := keyFile.set 8 0, rootDigest := (installed false bootable active).trc.rootDigest } }, by
         decide +kernel⟩,
   ⟨[], active, by decide +kernel⟩,
   ⟨bootable, installed false bootable ((chip 0 Mode.service).put F.SVC_STAT_SESSION 1), by decide +kernel, by decide +kernel, by decide +kernel,
         bootable_manifest_previous rfl (by decide +kernel), by decide +kernel, bootRole_matches⟩,
   ⟨(active.put F.SVC_STAT_SESSION 1), by decide +kernel, Or.inl (by decide +kernel)⟩,
   ⟨(active.put F.SVC_STAT_SESSION 1), by decide +kernel⟩,
   ⟨active.put F.SVC_STAT_SESSION 2, by decide +kernel⟩,
   ⟨{ active.put F.SVC_STAT_SESSION 2 with trc := { active.trc with driveSecret := some (true, 7) } }, by decide +kernel⟩⟩

theorem witness_RecorderKeepsItsEvents :
    (∃ (s : State), s.evr.raised = []) ∧
    (∃ (code : Nat) (sev : Nat) (unit : Nat) (src : Nat) (d : List Byte) (s : State), s.evr.raised = [.system code sev unit src d] ∧
     s.frozen = false ∧ s.on F.EVR_STAT_FULL = false ∧ s.evr.queue.length < 64) ∧
    (∃ (code : Nat) (sev : Nat) (unit : Nat) (src : Nat) (d : List Byte) (s : State), s.evr.raised = [.system code sev unit src d] ∧
     s.frozen = true) ∧
    (∃ (code : Nat) (sev : Nat) (unit : Nat) (src : Nat) (d : List Byte) (s : State), s.evr.raised = [.system code sev unit src d] ∧
     s.frozen = false ∧ s.on F.EVR_STAT_LOG_FAILED = false ∧ s.on F.EVR_STAT_FULL = true) ∧
    (∃ (code : Nat) (sev : Nat) (unit : Nat) (src : Nat) (d : List Byte) (s : State), s.evr.raised = [.system code sev unit src d] ∧
     s.frozen = false ∧ (s.on F.EVR_STAT_LOG_FAILED = true ∨ s.on F.EVR_STAT_FULL = false) ∧ 64 ≤ s.evr.queue.length) ∧
    (∃ (a : Nat) (b : Word) (s : State), s.evr.raised = [.flag a b] ∧ s.on F.EVR_CTL_FLAG_EN = false) ∧
    (∃ (s : State), s.accepts R.EVR_FW_CODE = true ∧ s.evr.raised = [] ∧ s.frozen = false ∧ s.on F.EVR_STAT_FULL = false ∧
     s.evr.queue.length < 64) ∧
    (∃ (s : State), (s.frozen = true ∨ s.evr.queue = [])) ∧
    (∃ (a : Bool) (b : Bool) (e : Accepted) (q : List Accepted) (s : State), s.evr.queue = e :: q ∧ s.frozen = false ∧
     s.on F.EVR_STAT_LOG_FAILED = false ∧ s.on F.EVR_STAT_FULL = false ∧ (a = true ∨ b = true)) ∧
    (∃ (e : Accepted) (q : List Accepted) (s : State), s.evr.queue = e :: q ∧ s.frozen = false ∧ s.on F.EVR_STAT_LOG_FAILED = false ∧
     s.on F.EVR_STAT_FULL = false) ∧
    (∃ (e : Accepted) (q : List Accepted) (s : State), s.evr.queue = e :: q ∧ s.frozen = false ∧ s.on F.EVR_STAT_LOG_FAILED = true ∧
     s.on F.GLB_STICKY_EPITAPH_FAIL = false ∧ s.on F.GLB_STICKY_EPITAPH_FULL = false) ∧
    (∃ (s : State), s.on F.EVR_STAT_FRZ_FW = false) ∧
    (∃ (s : State), s.on F.EVR_STAT_FRZ_FW = true) ∧
    (∃ (s : State), s.on F.EVR_STAT_FRZ_SVC = true) ∧
    (∃ (s : State), s.on F.EVR_STAT_FRZ_SVC = false) ∧
    (∃ (b : Bool) (s : State), s.evr.headerDue = false ∧ (b = false ∨ s.evr.dropChanged = false)) ∧
    (∃ (b : Bool) (s : State), (s.evr.headerDue = true ∨ (b = true ∧ s.evr.dropChanged = true)) ∧ s.on F.GLB_STICKY_EPITAPH_FAIL = false ∧
     s.evr.header0 = none ∧ s.evr.header1 = none) ∧
    (∃ (b : Bool) (h : RecHeader) (g : RecHeader) (s : State), (s.evr.headerDue = true ∨ (b = true ∧ s.evr.dropChanged = true)) ∧
     s.on F.GLB_STICKY_EPITAPH_FAIL = false ∧ (s.evr.header0 = some h ∧ s.evr.header1 = some g)) ∧
    (∃ (s : State), s.on F.GLB_STICKY_EPITAPH_FAIL = true) ∧
    (∃ (f : BitVec 16) (n : BitVec 16), (n.toNat = 0 ∨ 64 < n.toNat ∨ 65536 < f.toNat + n.toNat)) ∧
    (∃ (f : BitVec 16) (n : BitVec 16), (1 ≤ n.toNat ∧ n.toNat ≤ 64 ∧ f.toNat + n.toNat ≤ 65536)) ∧
    (∃ (h : BitVec 8) (s : State), 1 ≤ s.session ∧ 1 < h.toNat) ∧
    (∃ (s : State), 1 ≤ s.session ∧ s.frozen = false) ∧
    (∃ (s : State), 1 ≤ s.session ∧ s.frozen = true) ∧
    (∃ (s : State), 1 ≤ s.session) ∧
    (∃ (s : State), 1 ≤ s.session ∧ s.on F.EVR_STAT_FRZ_SVC = false) ∧
    (∃ (s : State), 1 ≤ s.session ∧ s.on F.EVR_STAT_FRZ_SVC = true ∧ s.get F.EVR_STAT_EPOCH ≠ 0xFFFF) ∧
    (∃ (s : State), 1 ≤ s.session ∧ s.on F.EVR_STAT_FRZ_SVC = true ∧ s.get F.EVR_STAT_EPOCH = 0xFFFF) ∧
    (∃ (s : State), 1 ≤ s.session) ∧
    (∃ (s : State), unitLost s R.EVR_RD_DATA = false ∧ unitAbsent s R.EVR_RD_DATA = false) ∧
    (∃ (s : State), unitLost s R.EVR_STD_DATA = false ∧ unitAbsent s R.EVR_STD_DATA = false) ∧
    (∃ (n : Lane) (s : State), unitLost s (R.MSn_US_DATA n) = false ∧ unitAbsent s (R.MSn_US_DATA n) = false ∧
     laneBusy s (R.MSn_US_DATA n) = false) ∧
    (∃ (n : Lane) (s : State), unitLost s (R.SVn_COEF_DATA n) = false ∧ unitAbsent s (R.SVn_COEF_DATA n) = false) ∧
    (∃ (w : Word) (l : List Word) (s : State), s.svc.rx = w :: l) ∧
    (∃ (s : State), s.svc.rx = []) ∧
    (∃ (e : BitVec 128) (l : List (BitVec 128)) (s : State), s.accepts R.MOC_RX_DATA = true ∧ s.moc.rx = e :: l) ∧
    (∃ (s : State), s.accepts R.MOC_RX_DATA = true ∧ s.moc.rx = []) :=
  ⟨⟨active, by decide +kernel⟩,
   ⟨0x4003, 2, 0xFFFF, 5, [1], { active with evr := { active.evr with raised := [.system 0x4003 2 0xFFFF 5 [1]] } }, by decide +kernel⟩,
   ⟨0x4003, 2, 0xFFFF, 5, [1], { active.put F.EVR_STAT_FRZ_FW 1 with evr := { active.evr with raised := [.system 0x4003 2 0xFFFF 5 [1]] } }, by
         decide +kernel⟩,
   ⟨0x4003, 2, 0xFFFF, 5, [1], { active.put F.EVR_STAT_FULL 1 with evr := { active.evr with raised := [.system 0x4003 2 0xFFFF 5 [1]] } }, by
         decide +kernel⟩,
   ⟨0x4003, 2, 0xFFFF, 5, [1], { active with
           evr :=
             { active.evr with raised := [.system 0x4003 2 0xFFFF 5 [1]], queue := List.replicate 64 ⟨5, 0, 7, 0x4003, 1, 2, 0xFFFF, zeros 36⟩ } },
         by decide +kernel⟩,
   ⟨R.BAT_FLT, 1, { active.put F.EVR_CTL_FLAG_EN 0 with evr := { active.evr with raised := [.flag R.BAT_FLT 1] } }, by decide +kernel⟩,
   ⟨active, by decide +kernel⟩,
   ⟨active, by decide +kernel⟩,
   ⟨true, false, ⟨5, 0, 7, 0x4003, 1, 2, 0xFFFF, zeros 36⟩, [],
         { active with evr := { active.evr with queue := [⟨5, 0, 7, 0x4003, 1, 2, 0xFFFF, zeros 36⟩] } }, by decide +kernel⟩,
   ⟨⟨5, 0, 7, 0x4003, 1, 2, 0xFFFF, zeros 36⟩, [], { active with evr := { active.evr with queue := [⟨5, 0, 7, 0x4003, 1, 2, 0xFFFF, zeros 36⟩] } }, by
         decide +kernel⟩,
   ⟨⟨5, 0, 7, 0x4003, 1, 2, 0xFFFF, zeros 36⟩, [],
         { active.put F.EVR_STAT_LOG_FAILED 1 with evr := { active.evr with queue := [⟨5, 0, 7, 0x4003, 1, 2, 0xFFFF, zeros 36⟩] } }, by
         decide +kernel⟩,
   ⟨active, by decide +kernel⟩,
   ⟨active.put F.EVR_STAT_FRZ_FW 1, by decide +kernel⟩,
   ⟨active.put F.EVR_STAT_FRZ_SVC 1, by decide +kernel⟩,
   ⟨active, by decide +kernel⟩,
   ⟨true, active, by decide +kernel⟩,
   ⟨true, { active with evr := { active.evr with headerDue := true } }, by decide +kernel⟩,
   ⟨true, ⟨4, 0, 0, 0, 0, 0, 0, 0⟩, ⟨3, 0, 0, 0, 0, 0, 0, 0⟩, { active with
           evr := { active.evr with headerDue := true, header0 := some ⟨4, 0, 0, 0, 0, 0, 0, 0⟩, header1 := some ⟨3, 0, 0, 0, 0, 0, 0, 0⟩ } }, by
         decide +kernel⟩,
   ⟨active.put F.GLB_STICKY_EPITAPH_FAIL 1, by decide +kernel⟩,
   ⟨0xFFFF, 2, by decide +kernel⟩,
   ⟨0xFFFF, 1, by decide +kernel⟩,
   ⟨2, (active.put F.SVC_STAT_SESSION 1), by decide +kernel⟩,
   ⟨(active.put F.SVC_STAT_SESSION 1), by decide +kernel⟩,
   ⟨(active.put F.SVC_STAT_SESSION 1).put F.EVR_STAT_FRZ_FW 1, by decide +kernel⟩,
   ⟨{ (active.put F.SVC_STAT_SESSION 1).put F.EVR_STAT_FRZ_SVC 1 with evr := { active.evr with frozenDrops := 3 } }, by decide +kernel⟩,
   ⟨(active.put F.SVC_STAT_SESSION 1), by decide +kernel⟩,
   ⟨(active.put F.SVC_STAT_SESSION 1).put F.EVR_STAT_FRZ_SVC 1, by decide +kernel⟩,
   ⟨((active.put F.SVC_STAT_SESSION 1).put F.EVR_STAT_FRZ_SVC 1).put F.EVR_STAT_EPOCH 0xFFFF, by decide +kernel⟩,
   ⟨(active.put F.SVC_STAT_SESSION 1).setReg R.GLB_STICKY 3, by decide +kernel⟩,
   ⟨active.put F.EVR_RD_SEL_AUTOINC 1, by decide +kernel⟩,
   ⟨active.put F.EVR_STD_SEL_AUTOINC 1, by decide +kernel⟩,
   ⟨2, active, by decide +kernel⟩,
   ⟨2, active, by decide +kernel⟩,
   ⟨7, [8], { active with svc := { active.svc with rx := [7, 8] } }, by decide +kernel⟩,
   ⟨active, by decide +kernel⟩,
   ⟨7, [8], { active with moc := { active.moc with rx := [7, 8] } }, by decide +kernel⟩,
   ⟨active, by decide +kernel⟩⟩

theorem witness_TallyAndStandingsAccount :
    (∃ (s : State), s.on F.GLB_MODE_COND_POWER_FAIL = true) ∧
    (∃ (k : Nat) (d : Nat) (v : Bool × TSlot) (s : State), s.on F.GLB_MODE_COND_POWER_FAIL = false ∧ s.tly.staged = [(k, d)] ∧
     tlyCurrent s.tly k = some v) ∧
    (∃ (k : Nat) (d : Nat) (v : Bool × TSlot) (s : State), s.on F.GLB_MODE_COND_POWER_FAIL = false ∧ s.tly.staged = [(k, d)] ∧
     tlyCurrent s.tly k = some v) ∧
    (∃ (bad : List Nat) (t : State) (s : State), s.accepts R.TLY_CMD = true ∧ exec (.tallyCommit bad) s = .next t) ∧
    (∃ (s : State), (s.pair R.TLY_WIN_END_LO R.TLY_WIN_END_HI).toNat ≤ s.now.toNat) ∧
    (∃ (s : State), s.now.toNat < (s.pair R.TLY_WIN_END_LO R.TLY_WIN_END_HI).toNat) ∧
    (∃ (w : Word) (s : State), s.accepts R.TLY_INC = true ∧ 256 ≤ bitsOf w.toNat 25 16) ∧
    (∃ (w : Word) (s : State), s.accepts R.TLY_INC = true ∧ bitsOf w.toNat 25 16 < 256) ∧
    (∃ (w : Word) (s : State), s.accepts R.TLY_HIST = true ∧ 32 ≤ bitsOf w.toNat 22 16) ∧
    (∃ (w : Word) (s : State), s.accepts R.TLY_HIST = true ∧ bitsOf w.toNat 22 16 < 32) ∧
    (∃ (s : State), s.mode = Mode.off) ∧
    (∃ (s : State), s.mode ≠ Mode.off) ∧
    (∃ (w : Word) (s : State), s.accepts R.EVR_STD_REQ = true ∧ w.getLsbD 0 = true) ∧
    (∃ (w : Word) (s : State), s.accepts R.EVR_STD_REQ = true ∧ w.getLsbD 0 = false) ∧
    (∃ (s : State), s.on F.EVR_STD_STAT_BUSY = false) ∧
    (∃ (s : State), s.on F.EVR_STD_STAT_BUSY = true) ∧
    (∃ (f : BitVec 16) (n : BitVec 16), (n.toNat = 0 ∨ 256 < n.toNat ∨ 5120 < f.toNat + n.toNat)) ∧
    (∃ (f : BitVec 16) (n : BitVec 16), (1 ≤ n.toNat ∧ n.toNat ≤ 256 ∧ f.toNat + n.toNat ≤ 5120)) ∧
    (∃ (h : BitVec 8), 128 ≤ h.toNat) ∧
    (∃ (h : BitVec 8), h.toNat < 128) :=
  ⟨⟨active.put F.GLB_MODE_COND_POWER_FAIL 1, by decide +kernel⟩,
   ⟨300, 5, (false, ⟨0, 0, true⟩), { active with tly := { active.tly with staged := [(300, 5)] } }, by decide +kernel⟩,
   ⟨300, 5, (false, ⟨0, 0, true⟩), { active with tly := { active.tly with staged := [(300, 5)] } }, by decide +kernel⟩,
   ⟨[], active.put F.TLY_STAT_STAGED 0, active, by decide +kernel, rfl⟩,
   ⟨{ active with ccx := { active.ccx with wayCe := [(3, 2, 9)] } }, by decide +kernel⟩,
   ⟨active.setPair R.TLY_WIN_END_LO R.TLY_WIN_END_HI 5, by decide +kernel⟩,
   ⟨0x01000000, active, by decide +kernel⟩,
   ⟨0x00050001, active, by decide +kernel⟩,
   ⟨0x00200003, active, by decide +kernel⟩,
   ⟨0x00050001, active, by decide +kernel⟩,
   ⟨State.reset.put F.GLB_MODE_MODE Mode.off, by decide +kernel⟩,
   ⟨active.put F.PWR_TEMP_TJ 45, by decide +kernel⟩,
   ⟨1, active, by decide +kernel⟩,
   ⟨2, active, by decide +kernel⟩,
   ⟨active, by decide +kernel⟩,
   ⟨active.put F.EVR_STD_STAT_BUSY 1, by decide +kernel⟩,
   ⟨5120, 1, by decide +kernel⟩,
   ⟨5119, 1, by decide +kernel⟩,
   ⟨128, by decide +kernel⟩,
   ⟨127, by decide +kernel⟩⟩

theorem witness_MocelRingForwardsAndKeepsTime :
    (∃ (f : MocFrame) (s : State), mocCrcOk f = false) ∧
    (∃ (f : MocFrame) (s : State), mocCrcOk f = true ∧ (mocSrc f = mocNode s ∨ (mocBcast f = false ∧ mocDst f = mocNode s))) ∧
    (∃ (f : MocFrame) (s : State), mocCrcOk f = true ∧ mocSrc f ≠ mocNode s ∧ (mocBcast f = true ∨ mocDst f ≠ mocNode s) ∧ mocHops f = 8191) ∧
    (∃ (f : MocFrame) (s : State), mocCrcOk f = true ∧ mocSrc f ≠ mocNode s ∧ (mocBcast f = true ∨ mocDst f ≠ mocNode s) ∧ mocHops f ≠ 8191 ∧
     (mocType f ≠ 1 ∨ s.on F.MOC_CTL_MASTER = false ∨ mocSrc f ≤ mocNode s)) ∧
    (∃ (f : MocFrame) (s : State), mocCrcOk f = true ∧ mocSrc f ≠ mocNode s ∧ (mocBcast f = true ∨ mocDst f ≠ mocNode s) ∧ mocHops f ≠ 8191 ∧
     (mocType f = 1 ∧ s.on F.MOC_CTL_MASTER = true ∧ mocNode s < mocSrc f)) ∧
    (∃ (f : MocFrame) (s : State), mocCrcOk f = true ∧ s.on F.MOC_CTL_ENABLE = true ∧ s.on F.MOC_CTL_AUTO_ID = true ∧
     s.on F.MOC_CTL_MASTER = false) ∧
    (∃ (f : MocFrame) (s : State),
     (mocCrcOk f = false ∨ s.on F.MOC_CTL_ENABLE = false ∨ s.on F.MOC_CTL_AUTO_ID = false ∨ s.on F.MOC_CTL_MASTER = true)) ∧
    (∃ (f : MocFrame) (s : State), mocCrcOk f = true ∧ s.on F.MOC_CTL_ENABLE = true ∧ (mocBcast f = true ∨ mocDst f = mocNode s) ∧
     mocSrc f ≠ mocNode s ∧ s.moc.rx.length + 1 + f.payload.length ≤ 64) ∧
    (∃ (f : MocFrame) (s : State), mocCrcOk f = true ∧ s.on F.MOC_CTL_ENABLE = true ∧ (mocBcast f = true ∨ mocDst f = mocNode s) ∧
     mocSrc f ≠ mocNode s ∧ 64 < s.moc.rx.length + 1 + f.payload.length) ∧
    (∃ (f : MocFrame) (s : State),
     (mocCrcOk f = false ∨ s.on F.MOC_CTL_ENABLE = false ∨ (mocBcast f = false ∧ mocDst f ≠ mocNode s) ∨ mocSrc f = mocNode s)) ∧
    (∃ (f : MocFrame) (s : State), (mocCrcOk f = false ∨ s.on F.MOC_CTL_ENABLE = false)) ∧
    (∃ (f : MocFrame) (t0 : Dword) (s : State), mocCrcOk f = true ∧ s.on F.MOC_CTL_ENABLE = true ∧ mocSrc f = mocNode s ∧
     s.on F.MOC_CTL_MASTER = true ∧ s.moc.sentAt = some t0) ∧
    (∃ (f : MocFrame) (s : State), mocCrcOk f = true ∧ s.on F.MOC_CTL_ENABLE = true ∧ s.on F.MOC_CTL_MASTER = true ∧ mocSrc f < mocNode s) ∧
    (∃ (f : MocFrame) (s : State), mocCrcOk f = true ∧ s.on F.MOC_CTL_ENABLE = true ∧ s.on F.MOC_CTL_MASTER = true ∧
     (mocNode s < mocSrc f ∨ (mocSrc f = mocNode s ∧ s.moc.sentAt = none))) ∧
    (∃ (f : MocFrame) (s : State), mocCrcOk f = true ∧ s.on F.MOC_CTL_ENABLE = true ∧ s.on F.MOC_CTL_MASTER = false ∧ mocSeenNow s = [] ∧
     bitsOf (f.payload.headD 0).toNat 31 0 = 0 ∧ (((mocArg f % 2 ^ 64 : Nat) : Int) - (s.now.toNat : Int)).natAbs ≤ 100) ∧
    (∃ (f : MocFrame) (s : State), mocCrcOk f = true ∧ s.on F.MOC_CTL_ENABLE = true ∧ s.on F.MOC_CTL_MASTER = false ∧ mocSeenNow s = [] ∧
     bitsOf (f.payload.headD 0).toNat 31 0 = 0 ∧ 100 < (((mocArg f % 2 ^ 64 : Nat) : Int) - (s.now.toNat : Int)).natAbs) ∧
    (∃ (f : MocFrame) (e : Nat) (s : State), mocCrcOk f = true ∧ s.on F.MOC_CTL_ENABLE = true ∧ s.on F.MOC_CTL_MASTER = false ∧
     mocSeenNow s = [] ∧ bitsOf (f.payload.headD 0).toNat 31 0 ≠ 0 ∧ bitsOf (f.payload.headD 0).toNat 44 32 ≠ 0 ∧
     e = mocArg f + (mocHops f + 1) * bitsOf (f.payload.headD 0).toNat 31 0 / bitsOf (f.payload.headD 0).toNat 44 32) ∧
    (∃ (f : MocFrame) (l : Nat) (d : Dword) (r : SMap Dword) (s : State), mocCrcOk f = true ∧ s.on F.MOC_CTL_ENABLE = true ∧
     s.on F.MOC_CTL_MASTER = false ∧ mocSeenNow s = (l, d) :: r ∧ (l < mocSrc f ∧ smSorted ((l, d) :: r) = true)) ∧
    (∃ (s : State), s.on F.MOC_CTL_ENABLE = true ∧ s.on F.MOC_CTL_MASTER = true ∧ (mocSeenNow s).all (fun p => decide (mocNode s ≤ p.1)) = true) ∧
    (∃ (s : State),
     (s.on F.MOC_CTL_ENABLE = false ∨ s.on F.MOC_CTL_MASTER = false ∨ (mocSeenNow s).any (fun p => decide (p.1 < mocNode s)) = true)) ∧
    (∃ (w : Word) (s : State), s.accepts R.MOC_CMD = true ∧ w.getLsbD 0 = true ∧ s.on F.MOC_CTL_MASTER = true ∧ s.on F.MOC_CTL_ENABLE = true) ∧
    (∃ (w : Word) (s : State), s.accepts R.MOC_CMD = true ∧
     (w.getLsbD 0 = false ∨ s.on F.MOC_CTL_MASTER = false ∨ s.on F.MOC_CTL_ENABLE = false)) ∧
    (∃ (s : State), (s.on F.MOC_CTL_ENABLE = false ∨ s.moc.tx.length < 4)) ∧
    (∃ (a : Word) (b : Word) (c : Word) (d : Word) (l : List Word) (r : List Word) (f : MocFrame) (s : State), s.on F.MOC_CTL_ENABLE = true ∧
     s.moc.tx = a :: b :: c :: d :: (l ++ r) ∧ f = ⟨mocEntry [a, b, c, d], []⟩ ∧ l.length = 4 * mocLen f) ∧
    (∃ (a : Word) (b : Word) (c : Word) (d : Word) (l : List Word) (f : MocFrame) (s : State), s.moc.tx = a :: b :: c :: d :: l ∧
     f = ⟨mocEntry [a, b, c, d], []⟩ ∧ l.length < 4 * mocLen f) ∧
    (∃ (s : State), s.on F.MOC_STAT_SYNC = false) ∧
    (∃ (s : State), s.on F.MOC_STAT_SYNC = true) :=
  ⟨⟨⟨1, []⟩, active, by decide +kernel⟩,
   ⟨mocBuild 3 3 9 0 false 0 [], (((active.put F.MOC_CTL_ENABLE 1).put F.MOC_CTL_AUTO_ID 1).put F.MOC_STAT_NODE 3), by decide +kernel⟩,
   ⟨mocBuild 3 5 9 8191 false 0 [], (((active.put F.MOC_CTL_ENABLE 1).put F.MOC_CTL_AUTO_ID 1).put F.MOC_STAT_NODE 3), by decide +kernel⟩,
   ⟨mocBuild 3 5 9 7 false 0 [], (((active.put F.MOC_CTL_ENABLE 1).put F.MOC_CTL_AUTO_ID 1).put F.MOC_STAT_NODE 3), by decide +kernel⟩,
   ⟨mocBuild 1 0 5 7 true 50 [0], (((active.put F.MOC_CTL_ENABLE 1).put F.MOC_CTL_AUTO_ID 1).put F.MOC_STAT_NODE 3).put F.MOC_CTL_MASTER 1, by
         decide +kernel⟩,
   ⟨mocBuild 2 0 0 7 true 0 [], (((active.put F.MOC_CTL_ENABLE 1).put F.MOC_CTL_AUTO_ID 1).put F.MOC_STAT_NODE 3), by decide +kernel⟩,
   ⟨mocBuild 2 0 0 7 true 0 [], (((active.put F.MOC_CTL_ENABLE 1).put F.MOC_CTL_AUTO_ID 1).put F.MOC_STAT_NODE 3).put F.MOC_CTL_MASTER 1, by
         decide +kernel⟩,
   ⟨mocBuild 3 3 9 7 false 0 [5], (((active.put F.MOC_CTL_ENABLE 1).put F.MOC_CTL_AUTO_ID 1).put F.MOC_STAT_NODE 3), by decide +kernel⟩,
   ⟨mocBuild 3 3 9 7 false 0 [5], { (((active.put F.MOC_CTL_ENABLE 1).put F.MOC_CTL_AUTO_ID 1).put F.MOC_STAT_NODE 3) with
           moc := { active.moc with rx := List.replicate 63 0 } }, by decide +kernel⟩,
   ⟨⟨1, []⟩, active, by decide +kernel⟩,
   ⟨⟨1, []⟩, active, by decide +kernel⟩,
   ⟨mocBuild 1 0 3 7 true 0 [], 0, { ((((active.put F.MOC_CTL_ENABLE 1).put F.MOC_CTL_AUTO_ID 1).put F.MOC_STAT_NODE 3).put F.MOC_CTL_MASTER 1) with
           moc := { active.moc with sentAt := some 0 } }, by decide +kernel⟩,
   ⟨mocBuild 1 0 0 7 true 50 [0], (((active.put F.MOC_CTL_ENABLE 1).put F.MOC_CTL_AUTO_ID 1).put F.MOC_STAT_NODE 3).put F.MOC_CTL_MASTER 1, by
         decide +kernel⟩,
   ⟨mocBuild 1 0 5 7 true 50 [0], (((active.put F.MOC_CTL_ENABLE 1).put F.MOC_CTL_AUTO_ID 1).put F.MOC_STAT_NODE 3).put F.MOC_CTL_MASTER 1, by
         decide +kernel⟩,
   ⟨mocBuild 1 0 0 7 true 50 [0], (((active.put F.MOC_CTL_ENABLE 1).put F.MOC_CTL_AUTO_ID 1).put F.MOC_STAT_NODE 3), by decide +kernel⟩,
   ⟨mocBuild 1 0 0 7 true 5000 [0], (((active.put F.MOC_CTL_ENABLE 1).put F.MOC_CTL_AUTO_ID 1).put F.MOC_STAT_NODE 3), by decide +kernel⟩,
   ⟨mocBuild 1 0 0 7 true 50 [BitVec.ofNat 128 (80 + 10 * 2 ^ 32)], 114,
         (((active.put F.MOC_CTL_ENABLE 1).put F.MOC_CTL_AUTO_ID 1).put F.MOC_STAT_NODE 3), by decide +kernel⟩,
   ⟨mocBuild 1 0 5 7 true 50 [0], 0, 0, [],
         { (((active.put F.MOC_CTL_ENABLE 1).put F.MOC_CTL_AUTO_ID 1).put F.MOC_STAT_NODE 3) with moc := { active.moc with seen := [(0, 0)] } }, by
         decide +kernel⟩,
   ⟨(((active.put F.MOC_CTL_ENABLE 1).put F.MOC_CTL_AUTO_ID 1).put F.MOC_STAT_NODE 3).put F.MOC_CTL_MASTER 1, by decide +kernel⟩,
   ⟨(((active.put F.MOC_CTL_ENABLE 1).put F.MOC_CTL_AUTO_ID 1).put F.MOC_STAT_NODE 3), by decide +kernel⟩,
   ⟨1, (((active.put F.MOC_CTL_ENABLE 1).put F.MOC_CTL_AUTO_ID 1).put F.MOC_STAT_NODE 3).put F.MOC_CTL_MASTER 1, by decide +kernel⟩,
   ⟨1, active, by decide +kernel⟩,
   ⟨active, by decide +kernel⟩,
   ⟨0x13, 0, 0, 0, [1, 2, 3, 4], [9], ⟨mocEntry [0x13, 0, 0, 0], []⟩, {
           (((active.put F.MOC_CTL_ENABLE 1).put F.MOC_CTL_AUTO_ID 1).put F.MOC_STAT_NODE 3) with
           moc := { active.moc with tx := [0x13, 0, 0, 0, 1, 2, 3, 4, 9] } }, by decide +kernel⟩,
   ⟨0x13, 0, 0, 0, [1, 2, 3], ⟨mocEntry [0x13, 0, 0, 0], []⟩, { (((active.put F.MOC_CTL_ENABLE 1).put F.MOC_CTL_AUTO_ID 1).put F.MOC_STAT_NODE 3) with
           moc := { active.moc with tx := [0x13, 0, 0, 0, 1, 2, 3] } }, by decide +kernel⟩,
   ⟨active, by decide +kernel⟩,
   ⟨active.put F.MOC_STAT_SYNC 1, by decide +kernel⟩⟩

theorem witness_ResetsClearAndKeep :
    (∃ (s : State), s.glb.porHeld = false) ∧
    (∃ (s : State), s.glb.porHeld = true) ∧
    (∃ (d : Word) (s : State), d.getLsbD 0 = true ∧ d.getLsbD 2 = false ∧ ((∀ n : Lane, d.getLsbD (4 + n) = false)) ∧
     (s.on F.GLB_MODE_COND_POWER_FAIL = true ∨ s.glb.cfgReset ≠ .none ∨ (d.getLsbD 1 = false ∧ cleanNow s = false))) ∧
    (∃ (d : Word) (s : State), d.getLsbD 0 = true ∧ d.getLsbD 2 = false ∧ ((∀ n : Lane, d.getLsbD (4 + n) = false)) ∧
     s.on F.GLB_MODE_COND_POWER_FAIL = false ∧ s.glb.cfgReset = .none ∧ (d.getLsbD 1 = true ∨ cleanNow s = true)) ∧
    (∃ (s : State), s.glb.cfgReset = .none) ∧
    (∃ (s : State), s.glb.cfgReset ≠ .none ∧ allQuiet s = false) ∧
    (∃ (b : Bool) (d : Bool) (s : State), s.glb.cfgReset = .waiting d ∧ (allQuiet s = true ∨ b = true)) ∧
    (∃ (n : Lane) (s : State), s.glb.cfgReset = .none ∧ laneIncluded s n = true ∧ (seqState s n = Seq.halted ∨ seqState s n = Seq.faulted) ∧
     gateOpen s n = false ∧ (s.ln n).vgate = none ∧ s.get ((F.GLB_RST_STAT_LANE_BUSY).bit n) = 0) ∧
    (∃ (n : Lane) (s : State), s.glb.cfgReset = .none ∧ laneIncluded s n = true ∧
     ((seqState s n ≠ Seq.halted ∧ seqState s n ≠ Seq.faulted) ∨ gateOpen s n = true ∨ (s.ln n).vgate ≠ none ∨ s.get
         ((F.GLB_RST_STAT_LANE_BUSY).bit n) = 1)) ∧
    (∃ (s : State), s.glb.cfgReset ≠ .none) ∧
    (∃ (n : Lane) (s : State), s.glb.cfgReset = .none ∧ laneIncluded s n = false) ∧
    (∃ (n : Lane) (s : State), s.get ((F.GLB_RST_STAT_LANE_BUSY).bit n) = 0) ∧
    (∃ (n : Lane) (s : State), s.get ((F.GLB_RST_STAT_LANE_BUSY).bit n) = 1 ∧ s.glb.waiting.all (fun a => decide (a.lane ≠ n)) = true) ∧
    (∃ (n : Lane) (l : List LaneAccess) (s : State), s.get ((F.GLB_RST_STAT_LANE_BUSY).bit n) = 1 ∧
     s.glb.waiting.filter (fun a => decide (a.lane = n)) = l) ∧
    (∃ (s : State), s.on F.GLB_MODE_COND_POWER_FAIL = false ∧ cleanNow s = true) ∧
    (∃ (s : State), (s.on F.GLB_MODE_COND_POWER_FAIL = true ∨ cleanNow s = false)) ∧
    (∃ (c : PowerCause) (s : State), (c = ⟨false, false, false⟩ ∨ s.on F.GLB_MODE_COND_POWER_FAIL = true)) ∧
    (∃ (c : PowerCause) (b : NoteWrite) (s : State), c ≠ ⟨false, false, false⟩ ∧ s.on F.GLB_MODE_COND_POWER_FAIL = false) ∧
    (∃ (s : State), s.glb.offByT16 = false) ∧
    (∃ (s : State), s.glb.offByT16 = true) :=
  ⟨⟨active, by decide +kernel⟩,
   ⟨{ State.reset with glb := { State.reset.glb with porHeld := true } }, by decide +kernel⟩,
   ⟨3, active.put F.GLB_MODE_COND_POWER_FAIL 1, by decide +kernel⟩,
   ⟨3, active, by decide +kernel⟩,
   ⟨active, by decide +kernel⟩,
   ⟨{ active.put (F.SVn_STAT_STATE 0) 4 with glb := { active.glb with cfgReset := .waiting false } }, by decide +kernel⟩,
   ⟨true, true, { active with glb := { active.glb with cfgReset := .waiting true } }, by decide +kernel⟩,
   ⟨1, active.put (F.MSn_STAT_STATE 1) 1, by decide +kernel⟩,
   ⟨1, active.put (F.MSn_STAT_STATE 1) 2, by decide +kernel⟩,
   ⟨{ active with glb := { active.glb with cfgReset := .waiting false } }, by decide +kernel⟩,
   ⟨1, State.reset, by decide +kernel⟩,
   ⟨1, active, by decide +kernel⟩,
   ⟨1, (active.put ((F.GLB_RST_STAT_LANE_BUSY).bit 1) 1).put (F.LNn_BAUD_M_M 1) 5, by decide +kernel⟩,
   ⟨1, [⟨1, .service, R.LNn_CTL 1, none, none⟩],
         { active.put ((F.GLB_RST_STAT_LANE_BUSY).bit 1) 1 with glb := { active.glb with waiting := [⟨1, .service, R.LNn_CTL 1, none, none⟩] } }, by
         decide +kernel⟩,
   ⟨active, by decide +kernel⟩,
   ⟨active.put F.GLB_MODE_COND_POWER_FAIL 1, by decide +kernel⟩,
   ⟨⟨false, false, false⟩, active, by decide +kernel⟩,
   ⟨⟨true, false, false⟩, .made, active, by decide +kernel⟩,
   ⟨active, by decide +kernel⟩,
   ⟨{ active with glb := { active.glb with offByT16 := true } }, by decide +kernel⟩⟩

theorem witness_UnitsLinksAndPortsReport :
    (∃ (s : State), s.on F.CFG_LOAD_STAT_DONE = false) ∧
    (∃ (x : UnitId) (s : State), s.on F.CFG_LOAD_STAT_DONE = true ∧ x.reg1 = true ∧ (included1 s).testBit x.bit = true ∧
     s.glb.lost1.getLsbD x.bit = false) ∧
    (∃ (x : UnitId) (s : State), s.on F.CFG_LOAD_STAT_DONE = true ∧ x.reg1 = false ∧ (included0 s).testBit x.bit = true ∧
     s.glb.lost0.getLsbD x.bit = false ∧ (x.bit < 8 ∨ 28 ≤ x.bit)) ∧
    (∃ (x : UnitId) (s : State), s.on F.CFG_LOAD_STAT_DONE = true ∧ x.reg1 = true ∧ (included1 s).testBit x.bit = true ∧
     s.glb.lost1.getLsbD x.bit = false) ∧
    (∃ (x : UnitId) (s : State), s.on F.CFG_LOAD_STAT_DONE = true ∧ x.reg1 = false ∧ (included0 s).testBit x.bit = true ∧
     s.glb.lost0.getLsbD x.bit = false ∧ (x.bit < 8 ∨ x.bit = 10 ∨ x.bit = 11 ∨ 28 ≤ x.bit)) ∧
    (∃ (b : Nat) (s : State), (included0 s).testBit b = true ∧ s.glb.lost0.getLsbD b = false ∧ (b < 8 ∨ 28 ≤ b) ∧ b < 32) ∧
    (∃ (x : UnitId) (s : State), s.on F.CFG_LOAD_STAT_DONE = true ∧ x.reg1 = false ∧
     ((included0 s).testBit x.bit = false ∨ s.glb.lost0.getLsbD x.bit = true)) ∧
    (∃ (x : UnitId) (s : State), x.reg1 = false ∧ (s.reg R.GLB_UNIT_OK0).getLsbD x.bit = false) ∧
    (∃ (x : UnitId) (s : State), x.reg1 = false ∧ (s.reg R.GLB_UNIT_OK0).getLsbD x.bit = true ∧ (x.bit = 8 ∨ x.bit = 30 ∨ x.bit = 31) ∧
     s.glb.lost0.getLsbD x.bit = false ∧ (included0 s).testBit x.bit = true) ∧
    (∃ (x : UnitId) (s : State), x.reg1 = true ∧ (s.reg R.GLB_UNIT_OK1).getLsbD x.bit = true ∧ x.bit ≠ 0 ∧ x.bit ≠ 6 ∧ x.bit ≠ 7) ∧
    (∃ (s : State), bndRuns s = true ∧ s.bnd.built = true) ∧
    (∃ (k : Nat) (x : Slot) (s : State), s.slot k = some x ∧ x.result = none ∧ x.dropped = false ∧ x.admitted = false ∧ x.fetched = false) ∧
    (∃ (k : Nat) (x : Slot) (s : State), s.slot k = some x ∧ x.result.isSome = true) ∧
    (∃ (k : Nat) (s : State), s.slot k = none) ∧
    (∃ (p : Fin 2) (s : State), portReached s p = false) ∧
    (∃ (p : Fin 2) (s : State), portReached s p = true) ∧
    (∃ (p : Fin 2) (s : State), portReached s p = true) ∧
    (∃ (p : Fin 2) (s : State), portReached s p = true) ∧
    (∃ (p : Fin 2) (s : State), portReached s p = true) ∧
    (∃ (p : Fin 2) (s : State), portReached s p = true) ∧
    (∃ (p : Fin 2) (k : Nat) (x : Slot) (s : State), portReached s p = true ∧ s.slot k = some x ∧
     (x.result = none ∧ x.dropped = false ∧ x.admitted = false ∧ x.fetched = false)) ∧
    (∃ (p : Fin 2) (k : Nat) (s : State), portReached s p = true ∧ s.slot k = none) ∧
    (∃ (p : Fin 2) (v : Nat) (w : Nat) (s : State), portPresent s p = true ∧ s.on (F.HIFn_CTL_TRAIN_EN p) = true ∧ s.mode ≠ Mode.off ∧
     s.on (F.HIFn_LINK_STAT_DL_UP p) = false ∧ (1 ≤ v ∧ v ≤ max 1 (min 5 (s.get (F.HIFn_CTL_MAX_SPEED p)))) ∧ (w = 1 ∨ w = 2 ∨ w = 4) ∧
     w ≤ portWidth s p) ∧
    (∃ (p : Fin 2) (s : State),
     (portPresent s p = false ∨ s.on (F.HIFn_CTL_TRAIN_EN p) = false ∨ s.mode = Mode.off ∨ s.on (F.HIFn_LINK_STAT_DL_UP p) = true)) ∧
    (∃ (p : Fin 2) (v : Nat) (w : Nat) (s : State),
     (v = 0 ∨ max 1 (min 5 (s.get (F.HIFn_CTL_MAX_SPEED p))) < v ∨ (w ≠ 1 ∧ w ≠ 2 ∧ w ≠ 4) ∨ portWidth s p < w)) ∧
    (∃ (fn : Fin 128) (s : State), (portReached s (portOf fn) && functionExists s fn) = false) ∧
    (∃ (fn : Fin 128) (s : State), (portReached s (portOf fn) && functionExists s fn) = true) ∧
    (∃ (fn : Fin 128) (s : State), (portReached s (portOf fn) && functionExists s fn) = true) ∧
    (∃ (fn : Fin 128) (v : Nat) (s : State), (portReached s (portOf fn) && functionExists s fn) = true ∧ isPf fn = true ∧
     (v % 4 = 0 ∨ v % 4 = 3)) ∧
    (∃ (fn : Fin 128) (v : Nat) (s : State), (portReached s (portOf fn) && functionExists s fn) = true ∧ isPf fn = true ∧
     (v % 4 = 1 ∨ v % 4 = 2)) ∧
    (∃ (fn : Fin 128) (v : Nat) (s : State), (portReached s (portOf fn) && functionExists s fn) = true ∧ isPf fn = true ∧
     s.on (F.HIFn_FN_STAT_VF_EN (portOf fn)) = false ∧ v ≤ totalVfs s (portOf fn)) ∧
    (∃ (fn : Fin 128) (v : Nat) (s : State), (portReached s (portOf fn) && functionExists s fn) = true ∧ isPf fn = true ∧
     (s.on (F.HIFn_FN_STAT_VF_EN (portOf fn)) = true ∨ totalVfs s (portOf fn) < v)) ∧
    (∃ (fn : Fin 128) (v : Nat) (s : State), (portReached s (portOf fn) && functionExists s fn) = true ∧ isPf fn = true ∧ v % 2 = 1) ∧
    (∃ (fn : Fin 128) (v : Nat) (s : State), (portReached s (portOf fn) && functionExists s fn) = true ∧ isPf fn = true ∧ v % 2 = 0) ∧
    (∃ (fn : Fin 128) (k : Nat) (s : State), (portReached s (portOf fn) && functionExists s fn) = true ∧ viOf s fn ≤ k) ∧
    (∃ (fn : Fin 128) (k : Nat) (s : State), (portReached s (portOf fn) && functionExists s fn) = true ∧ k < viOf s fn) :=
  ⟨⟨State.reset, by decide +kernel⟩,
   ⟨⟨true, 2, false⟩, active, by decide +kernel⟩,
   ⟨⟨false, 28, false⟩, active, by decide +kernel⟩,
   ⟨⟨true, 2, false⟩, active, by decide +kernel⟩,
   ⟨⟨false, 28, false⟩, active, by decide +kernel⟩,
   ⟨28, active, by decide +kernel⟩,
   ⟨⟨false, 29, false⟩, active, by decide +kernel⟩,
   ⟨⟨false, 29, false⟩, active.put F.GLB_UNIT_OK0_BAT 0, by decide +kernel⟩,
   ⟨⟨false, 30, false⟩, active, by decide +kernel⟩,
   ⟨⟨true, 2, false⟩, active, by decide +kernel⟩,
   ⟨mapBuilt.onBnd (fun b => { b with built := true }), by decide +kernel⟩,
   ⟨0, slotOf (cmdOf .read), withSlot (slotOf (cmdOf .read)), by decide +kernel⟩,
   ⟨0, { slotOf (cmdOf .read) with result := some okResult }, withSlot { slotOf (cmdOf .read) with result := some okResult }, by decide +kernel⟩,
   ⟨3, active, by decide +kernel⟩,
   ⟨1, active, by decide +kernel⟩,
   ⟨0, hostReady, by decide +kernel⟩,
   ⟨0, hostReady, by decide +kernel⟩,
   ⟨0, hostReady, by decide +kernel⟩,
   ⟨0, hostReady, by decide +kernel⟩,
   ⟨0, hostReady, by decide +kernel⟩,
   ⟨0, 0, slotOf (cmdOf .read), withSlot (slotOf (cmdOf .read)), by decide +kernel⟩,
   ⟨0, 3, hostReady, by decide +kernel⟩,
   ⟨0, 1, 1, active.put (F.HIFn_CTL_TRAIN_EN 0) 1, by decide +kernel⟩,
   ⟨0, hostReady, by decide +kernel⟩,
   ⟨0, 0, 1, hostReady, by decide +kernel⟩,
   ⟨1, active, by decide +kernel⟩,
   ⟨0, hostReady, by decide +kernel⟩,
   ⟨0, hostReady, by decide +kernel⟩,
   ⟨0, 3, hostReady, by decide +kernel⟩,
   ⟨0, 1, hostReady, by decide +kernel⟩,
   ⟨0, 1, hostReady, by decide +kernel⟩,
   ⟨0, 127, hostReady, by decide +kernel⟩,
   ⟨0, 1, hostReady, by decide +kernel⟩,
   ⟨0, 0, hostReady.put (F.HIFn_FN_STAT_VF_EN 0) 1, by decide +kernel⟩,
   ⟨0, 5000, hostReady, by decide +kernel⟩,
   ⟨0, 0, hostReady, by decide +kernel⟩⟩

theorem witness_StepRunsFrontCommand :
    ∃ (c : Instr) (l : List Instr) (s : State), s.pending = c :: l :=
  ⟨.cadenceRampEnd, [.nop 0], { State.reset with pending := [.cadenceRampEnd, .nop 0] }, by decide +kernel⟩

theorem witness_EmptyQueueIdles :
    (∃ (s : State), s.pending = []) ∧
    (∃ (s : State), s.moc.slew = 0) ∧
    (∃ (c : TckCycle) (r : List TckCycle) (s : State), s.glb.tap.clocks = c :: r) ∧
    (∃ (c : TckCycle), c.trstN = false) ∧
    (∃ (c : TckCycle), (c.trstN = true ∧ c.tms = true)) ∧
    (∃ (c : TckCycle) (s : State), c.trstN = true ∧ s.glb.tap.state = .shiftIr) ∧
    (∃ (c : TckCycle) (s : State), (c.trstN = true ∧ c.tms = true) ∧ (s.glb.tap.state = .exit1Ir ∨ s.glb.tap.state = .exit2Ir)) ∧
    (∃ (b : BitVec 8), (b ≠ 1 ∧ b ≠ 2 ∧ b ≠ 3 ∧ b ≠ 4 ∧ b ≠ 5)) ∧
    (∃ (c : TckCycle) (s : State), c.trstN = true ∧ s.glb.tap.state = .captureDr) ∧
    (∃ (c : TckCycle) (s : State), c.trstN = true ∧ s.glb.tap.state = .shiftDr) :=
  ⟨⟨State.reset, by decide +kernel⟩,
   ⟨State.reset, by decide +kernel⟩,
   ⟨⟨true, false, true⟩, [], State.reset.onTap (fun t => { t with clocks := [⟨true, false, true⟩] }), by decide +kernel⟩,
   ⟨⟨false, false, false⟩, by decide +kernel⟩,
   ⟨⟨true, true, true⟩, by decide +kernel⟩,
   ⟨⟨true, true, true⟩, State.reset.onTap (fun t => { t with state := .shiftIr }), by decide +kernel⟩,
   ⟨⟨true, true, true⟩, State.reset.onTap (fun t => { t with state := .exit1Ir, shiftIr := 3 }), by decide +kernel⟩,
   ⟨0xFF, by decide +kernel⟩,
   ⟨⟨true, true, true⟩, State.reset.onTap (fun t => { t with state := .captureDr }), by decide +kernel⟩,
   ⟨⟨true, true, true⟩, State.reset.onTap (fun t => { t with state := .shiftDr }), by decide +kernel⟩⟩

theorem witness_StepKeepsWellFormed : ∃ s t : State, s.wf = true ∧ step s = .next t :=
  ⟨{ State.reset with pending := [.cadenceRampEnd] }, _, by decide +kernel, rfl⟩

theorem witness_CommandKeepsQueueAndOutputs : ∃ (c : Instr) (s t : State), exec c s = .next t :=
  ⟨.cadenceRampEnd, State.reset, _, rfl⟩

theorem witness_CommandChangesOnlyItsParts : ∃ (c : Instr) (s t : State), exec c s = .next t :=
  ⟨.cadenceRampEnd, State.reset, _, rfl⟩

theorem witness_CommandsLeaveOtherRegisters : ∃ (c : Instr) (s t : State), exec c s = .next t ∧ Part.regs ∉ changedBy c :=
  ⟨.cadenceRampEnd, State.reset, _, rfl, by decide +kernel⟩

theorem witness_ResetValues :
    ∃ (a : Nat) (r : RegDesc), descOf a = some r ∧ a ≠ R.GLB_RST_STAT :=
  ⟨R.GLB_MODE, ⟨0, 1, [⟨19, 16, .ro⟩, ⟨9, 8, .ro⟩, ⟨6, 4, .ro⟩, ⟨3, 0, .ro⟩]⟩, by decide +kernel⟩

end Sys2Proof.Tests
end

section
/-! PROOF. The whole-chip statements: what a step is, the frame of every command, and that every command answers. The `Moves` lemmas of Laws/ say for
each command which parts it may change; here they are put together over all commands, and the statements about every command follow. -/

namespace Sys2Proof.Machine

/-! ### A step -/

/-- A step on an empty queue idles. -/
theorem step_nil {s : State} (h : s.pending = []) : step s = .next (idleStep s) := by
  simp only [step, h]

/-- A step runs the command at the front of the queue with the rest waiting. -/
theorem step_cons {c : Instr} {l : List Instr} {s : State} (h : s.pending = c :: l) : step s = exec c { s with pending := l } := by
  simp only [step, h]

/-! ### What a command may change -/

/-- The mask of some parts of the state, in the bits of `Moves`. -/
def partMask (l : List Part) : Nat := l.foldr (fun p m => 1 <<< p.bit ||| m) 0

/-- Every command moves only the parts that are listed for it: its `Moves` lemma, whose mask is that of the list. -/
theorem exec_moves (c : Instr) (s : State) : MovesR (partMask (changedBy c)) s (exec c s) :=
  match c with
  | .registerWrite .. => execRegisterWrite_moves
  | .pairLoRead .. => execPairLoRead_moves
  | .pairHiWrite .. => execPairHiWrite_moves
  | .pairLoWrite .. => execPairLoWrite_moves
  | .counterReadClear .. => execCounterReadClear_moves
  | .modeRequest .. => execModeRequest_moves
  | .transitionComplete => execTransitionComplete_moves
  | .fabricPaceUpdate .. => execFabricPaceUpdate_moves
  | .imageLoadStart => execImageLoadStart_moves
  | .imageReadDone .. => execImageReadDone_moves
  | .signatureVerified .. => execSignatureVerified_moves
  | .dramTrainingDone .. => execDramTrainingDone_moves
  | .dramInitChunk .. => execDramInitChunk_moves
  | .pbusCommandWrite .. => execPbusCommandWrite_moves
  | .pbusFrameStart .. => execPbusFrameStart_moves
  | .pbusFrameEnd .. => execPbusFrameEnd_moves
  | .faultQualified .. => execFaultQualified_moves
  | .pllRelock .. => execPllRelock_moves
  | .tableDataWrite .. => execTableDataWrite_moves
  | .tableDataRead who _ => execTableDataRead_moves (a0 := who)
  | .gateClose .. => execGateClose_moves
  | .tokenRequest .. => execTokenRequest_moves
  | .tokenGrant => execTokenGrant_moves
  | .decodeDone .. => execDecodeDone_moves
  | .engineFault .. => execEngineFault_moves
  | .ladderAttemptEnd .. => execLadderAttemptEnd_moves
  | .verifyGateOpen .. => execVerifyGateOpen_moves
  | .verifyOutcome .. => execVerifyOutcome_moves
  | .sectorRewrite .. => execSectorRewrite_moves
  | .writeInhibit .. => execWriteInhibit_moves
  | .inhibitResume .. => execInhibitResume_moves
  | .interruptedRewrite .. => execInterruptedRewrite_moves
  | .writeFifoUnderrun .. => execWriteFifoUnderrun_moves
  | .servoEnable .. => execServoEnable_moves
  | .servoDisable .. => execServoDisable_moves
  | .syncReference .. => execSyncReference_moves
  | .syncWindowEnd .. => execSyncWindowEnd_moves
  | .servoSample .. => execServoSample_moves
  | .currentTick .. => execCurrentTick_moves
  | .servoOutput .. => execServoOutput_moves
  | .nop .. => execNop_moves
  | .mul .. => execMul_moves
  | .mac .. => execMac_moves
  | .store .. => execStore_moves
  | .abacusMove .. => execAbacusMove_moves
  | .in_ .. => execIn_moves
  | .out_ .. => execOut_moves
  | .renorm .. => execRenorm_moves
  | .nopFrame => execNopFrame_moves
  | .currentFrame .. => execCurrentFrame_moves
  | .bemfFrame .. => execBemfFrame_moves
  | .statusFrame .. => execStatusFrame_moves
  | .inboundFrameGap => execInboundFrameGap_moves
  | .motionLinkLost => execMotionLinkLost_moves
  | .targetMailboxWrite .. => execTargetMailboxWrite_moves
  | .pacerStep .. => execPacerStep_moves
  | .planEnd .. => execPlanEnd_moves
  | .feTrip .. => execFeTrip_moves
  | .settleDone .. => execSettleDone_moves
  | .settleTimeout .. => execSettleTimeout_moves
  | .load .. => execLoad_moves
  | .unload .. => execUnload_moves
  | .retract .. => execRetract_moves
  | .clearFault .. => execClearFault_moves
  | .acquireDone .. => execAcquireDone_moves
  | .loadTimeout .. => execLoadTimeout_moves
  | .retractTimeEnd .. => execRetractTimeEnd_moves
  | .spindleStart => execSpindleStart_moves
  | .rotorRestCheck => execRotorRestCheck_moves
  | .senseDone => execSenseDone_moves
  | .commutation .. => execCommutation_moves
  | .speedUpdate => execSpeedUpdate_moves
  | .zcTimeout => execZcTimeout_moves
  | .noHandover => execNoHandover_moves
  | .spinTimeout => execSpinTimeout_moves
  | .keCheckEnd .. => execKeCheckEnd_moves
  | .spindleBrake => execSpindleBrake_moves
  | .brakeProbe => execBrakeProbe_moves
  | .retryWaitEnd => execRetryWaitEnd_moves
  | .spindleClearFault => execSpindleClearFault_moves
  | .spmSelfTest .. => execSpmSelfTest_moves
  | .cadenceRequest .. => execCadenceRequest_moves
  | .drainComplete => execDrainComplete_moves
  | .cadenceRampEnd => execCadenceRampEnd_moves
  | .cadTimeout => execCadTimeout_moves
  | .laneResume .. => execLaneResume_moves
  | .pfCoastEnd => execPfCoastEnd_moves
  | .run .. => execRun_moves
  | .runStop .. => execRunStop_moves
  | .sequencerResume .. => execSequencerResume_moves
  | .firmwareInterrupt .. => execFirmwareInterrupt_moves
  | .trap .. => execTrap_moves
  | .forcedHalt .. => execForcedHalt_moves
  | .timerHoldEnd .. => execTimerHoldEnd_moves
  | .branch .. => execBranch_moves
  | .loop .. => execLoop_moves
  | .call .. => execCall_moves
  | .return_ .. => execReturn_moves
  | .dispatch .. => execDispatch_moves
  | .halt .. => execHalt_moves
  | .trapReturn .. => execTrapReturn_moves
  | .openRead .. => execOpenRead_moves
  | .openWrite .. => execOpenWrite_moves
  | .closeNow .. => execCloseNow_moves
  | .gateFrame .. => execGateFrame_moves
  | .settingFrame .. => execSettingFrame_moves
  | .readFaultStat .. => execReadFaultStat_moves
  | .readRegister .. => execReadRegister_moves
  | .readOverride .. => execReadOverride_moves
  | .sectRead .. => execSectRead_moves
  | .sectWrite .. => execSectWrite_moves
  | .sectWriteVerify .. => execSectWriteVerify_moves
  | .startParityGroup .. => execStartParityGroup_moves
  | .sectReadSpill .. => execSectReadSpill_moves
  | .pop .. => execPop_moves
  | .discard .. => execDiscard_moves
  | .eventPost .. => execEventPost_moves
  | .alu .. => execAlu_moves
  | .clkZone .. => execClkZone_moves
  | .journalFlush .. => execJournalFlush_moves
  | .checkpointPlaced => execCheckpointPlaced_moves
  | .flushCommand => execFlushCommand_moves
  | .imageCommand => execImageCommand_moves
  | .mapImage => execMapImage_moves
  | .mapImagePlaced => execMapImagePlaced_moves
  | .bandRewriteBegin .. => execBandRewriteBegin_moves
  | .bandSwitch .. => execBandSwitch_moves
  | .relocation => execRelocation_moves
  | .mapRebuild .. => execMapRebuild_moves
  | .regionScan .. => execRegionScan_moves
  | .rebuildReady => execRebuildReady_moves
  | .rangeRebuild .. => execRangeRebuild_moves
  | .collectionLevel .. => execCollectionLevel_moves
  | .collectionWork .. => execCollectionWork_moves
  | .migration .. => execMigration_moves
  | .patrolPass .. => execPatrolPass_moves
  | .patrolRequest .. => execPatrolRequest_moves
  | .readonlyEntry => execReadonlyEntry_moves
  | .workItemArrival .. => execWorkItemArrival_moves
  | .relayDecision .. => execRelayDecision_moves
  | .slip .. => execSlip_moves
  | .offsetReq .. => execOffsetReq_moves
  | .trackDone .. => execTrackDone_moves
  | .ladder .. => execLadder_moves
  | .rewrite .. => execRewrite_moves
  | .relocate .. => execRelocate_moves
  | .squelch .. => execSquelch_moves
  | .vfyMiss .. => execVfyMiss_moves
  | .preampFault .. => execPreampFault_moves
  | .calRange .. => execCalRange_moves
  | .laneLost .. => execLaneLost_moves
  | .controllerEnable .. => execControllerEnable_moves
  | .flr .. => execFlr_moves
  | .controllerReset .. => execControllerReset_moves
  | .hotReset .. => execHotReset_moves
  | .linkDown .. => execLinkDown_moves
  | .sqTailDoorbell .. => execSqTailDoorbell_moves
  | .cqHeadDoorbell .. => execCqHeadDoorbell_moves
  | .fetchVisit .. => execFetchVisit_moves
  | .entryDecode => execEntryDecode_moves
  | .writeAdmission .. => execWriteAdmission_moves
  | .readSnapshot .. => execReadSnapshot_moves
  | .completionPost .. => execCompletionPost_moves
  | .coalesceTimer .. => execCoalesceTimer_moves
  | .poisonedTlp .. => execPoisonedTlp_moves
  | .createIoSq .. => execCreateIoSq_moves
  | .createIoCq .. => execCreateIoCq_moves
  | .deleteIoSq .. => execDeleteIoSq_moves
  | .deleteIoCq .. => execDeleteIoCq_moves
  | .abort .. => execAbort_moves
  | .asyncEventRequest .. => execAsyncEventRequest_moves
  | .identify .. => execIdentify_moves
  | .getLogPage .. => execGetLogPage_moves
  | .getFeatures .. => execGetFeatures_moves
  | .setFeatures .. => execSetFeatures_moves
  | .namespaceCreate .. => execNamespaceCreate_moves
  | .namespaceDelete .. => execNamespaceDelete_moves
  | .namespaceAttach .. => execNamespaceAttach_moves
  | .namespaceDetach .. => execNamespaceDetach_moves
  | .secondaryOffline .. => execSecondaryOffline_moves
  | .secondaryAssign .. => execSecondaryAssign_moves
  | .secondaryOnline .. => execSecondaryOnline_moves
  | .primaryFlexibleAllocation .. => execPrimaryFlexibleAllocation_moves
  | .formatNvm .. => execFormatNvm_moves
  | .sanitizeCryptoErase .. => execSanitizeCryptoErase_moves
  | .sanitizeOverwrite .. => execSanitizeOverwrite_moves
  | .sanitizeBlockErase .. => execSanitizeBlockErase_moves
  | .firmwareImageDownload .. => execFirmwareImageDownload_moves
  | .firmwareCommit .. => execFirmwareCommit_moves
  | .invalidOpcode .. => execInvalidOpcode_moves
  | .securityProtocolList .. => execSecurityProtocolList_moves
  | .info .. => execInfo_moves
  | .state .. => execState_moves
  | .rotate .. => execRotate_moves
  | .permit .. => execPermit_moves
  | .standingsAdmin .. => execStandingsAdmin_moves
  | .read .. => execRead_moves
  | .write .. => execWrite_moves
  | .flush .. => execFlush_moves
  | .compare .. => execCompare_moves
  | .writeUncorrectable .. => execWriteUncorrectable_moves
  | .writeZeroes .. => execWriteZeroes_moves
  | .datasetManagement .. => execDatasetManagement_moves
  | .verify .. => execVerify_moves
  | .copy .. => execCopy_moves
  | .zoneOpen .. => execZoneOpen_moves
  | .zoneClose .. => execZoneClose_moves
  | .zoneFinish .. => execZoneFinish_moves
  | .zoneReset .. => execZoneReset_moves
  | .zoneOffline .. => execZoneOffline_moves
  | .zoneManagementReceive .. => execZoneManagementReceive_moves
  | .zoneAppend .. => execZoneAppend_moves
  | .quotaWindow => execQuotaWindow_moves
  | .keyUnwrap .. => execKeyUnwrap_moves
  | .dramRead .. => execDramRead_moves
  | .narrowWrite .. => execNarrowWrite_moves
  | .mergeAgeExpiry => execMergeAgeExpiry_moves
  | .scrubRead .. => execScrubRead_moves
  | .quarantineTest .. => execQuarantineTest_moves
  | .arbiterEpoch .. => execArbiterEpoch_moves
  | .arbiterGrant .. => execArbiterGrant_moves
  | .pageAllocate .. => execPageAllocate_moves
  | .pageRelease .. => execPageRelease_moves
  | .flipWrite .. => execFlipWrite_moves
  | .ceTableClear => execCeTableClear_moves
  | .markClear .. => execMarkClear_moves
  | .dmcLost => execDmcLost_moves
  | .sccFill .. => execSccFill_moves
  | .wayDisable .. => execWayDisable_moves
  | .coreAccess .. => execCoreAccess_moves
  | .interruptClaim .. => execInterruptClaim_moves
  | .timerInterrupt .. => execTimerInterrupt_moves
  | .watchdogKick .. => execWatchdogKick_moves
  | .watchdogExpiry .. => execWatchdogExpiry_moves
  | .channelStart .. => execChannelStart_moves
  | .channelResume .. => execChannelResume_moves
  | .channelAbort .. => execChannelAbort_moves
  | .dmaDisable .. => execDmaDisable_moves
  | .instructionFetch .. => execInstructionFetch_moves
  | .move .. => execMove_moves
  | .dmaLoop .. => execDmaLoop_moves
  | .wait .. => execWait_moves
  | .signal .. => execSignal_moves
  | .waitDelayEnd .. => execWaitDelayEnd_moves
  | .flagSet .. => execFlagSet_moves
  | .flagClear .. => execFlagClear_moves
  | .burstDone .. => execBurstDone_moves
  | .ownToggle => execOwnToggle_moves
  | .ownAckChange .. => execOwnAckChange_moves
  | .failoverDone => execFailoverDone_moves
  | .batonLinkUp => execBatonLinkUp_moves
  | .hello .. => execHello_moves
  | .heartbeat .. => execHeartbeat_moves
  | .release .. => execRelease_moves
  | .cmd .. => execCmd_moves
  | .data .. => execData_moves
  | .done .. => execDone_moves
  | .extent .. => execExtent_moves
  | .outcome .. => execOutcome_moves
  | .mirror .. => execMirror_moves
  | .commit .. => execCommit_moves
  | .mack .. => execMack_moves
  | .mfree .. => execMfree_moves
  | .mreq .. => execMreq_moves
  | .jnl .. => execJnl_moves
  | .jack .. => execJack_moves
  | .keyrec .. => execKeyrec_moves
  | .nsrec .. => execNsrec_moves
  | .rack .. => execRack_moves
  | .lwlrec .. => execLwlrec_moves
  | .resync .. => execResync_moves
  | .messageReplay .. => execMessageReplay_moves
  | .partnerSuspect => execPartnerSuspect_moves
  | .claimTimeout => execClaimTimeout_moves
  | .idleTick => execIdleTick_moves
  | .preWake => execPreWake_moves
  | .laneRotation => execLaneRotation_moves
  | .cadenceWindow => execCadenceWindow_moves
  | .temperatureSample .. => execTemperatureSample_moves
  | .railLow => execRailLow_moves
  | .trustBoot .. => execTrustBoot_moves
  | .badFrame => execBadFrame_moves
  | .unknownCommand .. => execUnknownCommand_moves
  | .ident .. => execIdent_moves
  | .challenge .. => execChallenge_moves
  | .auth .. => execAuth_moves
  | .close .. => execClose_moves
  | .result .. => execResult_moves
  | .regRead .. => execRegRead_moves
  | .regWrite .. => execRegWrite_moves
  | .stageBegin .. => execStageBegin_moves
  | .stageData .. => execStageData_moves
  | .stageEnd .. => execStageEnd_moves
  | .stageCheckDone .. => execStageCheckDone_moves
  | .arm .. => execArm_moves
  | .disarm .. => execDisarm_moves
  | .revert .. => execRevert_moves
  | .hold .. => execHold_moves
  | .provision .. => execProvision_moves
  | .recordRead .. => execRecordRead_moves
  | .quote .. => execQuote_moves
  | .quoteDone => execQuoteDone_moves
  | .quoteRead .. => execQuoteRead_moves
  | .firmwareFrame .. => execFirmwareFrame_moves
  | .firmwareFrameTimeout => execFirmwareFrameTimeout_moves
  | .sessionTimeout => execSessionTimeout_moves
  | .alignmentLoss => execAlignmentLoss_moves
  | .activationDue => execActivationDue_moves
  | .windowMissed => execWindowMissed_moves
  | .go => execGo_moves
  | .confirm => execConfirm_moves
  | .trngHealthFail .. => execTrngHealthFail_moves
  | .eventAccept => execEventAccept_moves
  | .firmwareRecord .. => execFirmwareRecord_moves
  | .recordWrite .. => execRecordWrite_moves
  | .freezeTimeout .. => execFreezeTimeout_moves
  | .headerWrite .. => execHeaderWrite_moves
  | .tallyCommit .. => execTallyCommit_moves
  | .tallyCommitCommand .. => execTallyCommitCommand_moves
  | .tallyWindowClose .. => execTallyWindowClose_moves
  | .tallyInc .. => execTallyInc_moves
  | .tallyHist .. => execTallyHist_moves
  | .standingsRequest .. => execStandingsRequest_moves
  | .standingsComplete => execStandingsComplete_moves
  | .standings .. => execStandings_moves
  | .evrStatus .. => execEvrStatus_moves
  | .evrRead .. => execEvrRead_moves
  | .evrFreeze .. => execEvrFreeze_moves
  | .epitaphRead .. => execEpitaphRead_moves
  | .evrClear .. => execEvrClear_moves
  | .stickyClear .. => execStickyClear_moves
  | .tallyRead .. => execTallyRead_moves
  | .histRead .. => execHistRead_moves
  | .tallyInfo .. => execTallyInfo_moves
  | .ringStatus .. => execRingStatus_moves
  | .time .. => execTime_moves
  | .enumFrame .. => execEnumFrame_moves
  | .msg .. => execMsg_moves
  | .frameForward .. => execFrameForward_moves
  | .timeSend => execTimeSend_moves
  | .enumCommand .. => execEnumCommand_moves
  | .msgSend => execMsgSend_moves
  | .syncLoss => execSyncLoss_moves
  | .powerOnReset .. => execPowerOnReset_moves
  | .porRelease .. => execPorRelease_moves
  | .configReset .. => execConfigReset_moves
  | .configResetRelease .. => execConfigResetRelease_moves
  | .laneReset .. => execLaneReset_moves
  | .laneResetComplete .. => execLaneResetComplete_moves
  | .clean .. => execClean_moves
  | .powerFail .. => execPowerFail_moves
  | .brownOut => execBrownOut_moves
  | .unitSelfTestDone .. => execUnitSelfTestDone_moves
  | .unitFailure .. => execUnitFailure_moves
  | .heartbeatSend => execHeartbeatSend_moves
  | .checkpointOverdue => execCheckpointOverdue_moves
  | .completionTimeout .. => execCompletionTimeout_moves
  | .tlpErrorReceived .. => execTlpErrorReceived_moves
  | .linkUp .. => execLinkUp_moves
  | .configurationRequest .. => execConfigurationRequest_moves
  | .alignmentAcquired => execAlignmentAcquired_moves
  | .cuharFlowControl .. => execCuharFlowControl_moves
  | .receiveWordPop .. => execReceiveWordPop_moves
  | .indexPortRead .. => execIndexPortRead_moves
  | .tallyTemperatureSample => execTallyTemperatureSample_moves

/-- The mask has the bits of its parts and no other. -/
theorem testBit_partMask (l : List Part) (p : Part) : (partMask l).testBit p.bit = decide (p ∈ l) := by
  induction l with
  | nil => simp [partMask]
  | cons q l ih =>
    have h : (1 <<< q.bit).testBit p.bit = decide (p = q) := by cases p <;> cases q <;> rfl
    rw [partMask, List.foldr_cons, Nat.testBit_or, h, ← partMask, ih]
    simp

/-- The queue is among no command's parts. -/
theorem pending_notMem_changedBy (c : Instr) : Part.pending ∉ changedBy c := by
  cases c <;> exact of_decide_eq_true rfl

/-- The frame of every command. -/
theorem exec_onlyParts {c : Instr} {s t : State} (h : exec c s = .next t) : onlyParts (changedBy c) s t :=
  (exec_moves c s t h).only (changedBy c) (fun p hp => by simp [testBit_partMask, hp])

/-- A move keeps the canonical forms. -/
theorem Moves.wf {m : Nat} {s t : State} (h : Moves m s t) (w : s.wf = true) : t.wf = true := by
  obtain ⟨wr, wm⟩ := (Bool.and_eq_true _ _).mp w
  exact (Bool.and_eq_true _ _).mpr ⟨h.regs wr, h.mem wm⟩

/-! ### The statements about every command -/

/-- Settles O54: each command and the idle step keep the canonical forms (`Moves`), and the queue is no part of the form. -/
theorem stepKeepsWellFormed : Obligations.StepKeepsWellFormed := by
  intro s t w h
  cases hq : s.pending with
  | nil =>
    rw [step_nil hq] at h
    exact Host.Outcome.next.inj h ▸ idleStep_moves.wf w
  | cons c l =>
    rw [step_cons hq] at h
    exact (exec_moves c _ t h).wf w

/-- Settles O55. -/
theorem resetWellFormed : Obligations.ResetWellFormed := by
  unfold Obligations.ResetWellFormed
  decide

/-- Settles O56: the moves of every command, whose parts leave out the queue. -/
theorem commandKeepsQueueAndOutputs : Obligations.CommandKeepsQueueAndOutputs := by
  intro c s t h
  have m := exec_moves c s t h
  exact ⟨exec_onlyParts h .pending (pending_notMem_changedBy c), m.sent, m.free⟩

/-- Settles O58. -/
theorem commandChangesOnlyItsParts : Obligations.CommandChangesOnlyItsParts :=
  fun _ _ _ h => exec_onlyParts h

/-- Settles O59: a register is read from the register map alone, and the frame leaves that map. -/
theorem commandsLeaveOtherRegisters : Obligations.CommandsLeaveOtherRegisters := by
  intro c s t a h hc
  have hr : t.regs = s.regs := exec_onlyParts h .regs hc
  rw [reg_eq, reg_eq, hr]

/-- Settles O52. -/
theorem stepRunsFrontCommand : Obligations.StepRunsFrontCommand :=
  fun _ _ _ h => step_cons h

/-! ### Every command answers -/

theorem onDecoded_answers (k : Nat) (s : State) (f : Slot → State → State) : ∃ t, onDecoded k s f = .next t := by
  unfold onDecoded
  split
  · exact ⟨_, rfl⟩
  · exact ⟨_, rfl⟩

theorem adminRow_answers (k : Nat) (s : State) (f : Slot → State → State) : ∃ t, adminRow k s f = .next t :=
  onDecoded_answers ..

theorem securityRow_answers (k : Nat) (s : State) (f : Slot → State → State) : ∃ t, securityRow k s f = .next t :=
  adminRow_answers ..

theorem ioRow_answers (k : Nat) (s : State) (p : HostOp → Bool) (f : Slot → State → State) : ∃ t, ioRow k s p f = .next t := by
  unfold ioRow
  split
  · exact ⟨_, rfl⟩
  · exact ⟨_, rfl⟩

theorem zoneRow_answers (k : Nat) (a : ZoneAction) (s : State) (f : Slot → Nat → State → State) : ∃ t, zoneRow k a s f = .next t :=
  ioRow_answers ..

/-- Every command answers a next state: a row of a decoded command as its frame does (`adminRow`, `ioRow` and their kin), a meaning that branches in
each of its branches, and every other meaning at once. -/
theorem exec_answers (c : Instr) (s : State) : ∃ t, exec c s = .next t := by
  cases c <;> dsimp only [exec]
  case firmwareImageDownload | firmwareCommit | invalidOpcode =>
    exact onDecoded_answers ..
  case createIoSq | createIoCq | deleteIoSq | deleteIoCq | abort | asyncEventRequest | identify | getLogPage | getFeatures | setFeatures |
      namespaceCreate | namespaceDelete | namespaceAttach | namespaceDetach | secondaryOffline | secondaryAssign | secondaryOnline |
      primaryFlexibleAllocation | formatNvm | sanitizeCryptoErase | sanitizeOverwrite | sanitizeBlockErase | standingsAdmin =>
    exact adminRow_answers ..
  case securityProtocolList | info | state | rotate | permit =>
    exact securityRow_answers ..
  case read | write | flush | compare | writeUncorrectable | writeZeroes | datasetManagement | verify | copy | zoneManagementReceive |
      zoneAppend =>
    exact ioRow_answers ..
  case zoneOpen | zoneClose | zoneFinish | zoneReset | zoneOffline =>
    exact zoneRow_answers ..
  case' imageLoadStart => unfold execImageLoadStart
  case' imageReadDone => unfold execImageReadDone
  case' signatureVerified => unfold execSignatureVerified
  case' dramTrainingDone => unfold execDramTrainingDone
  case' dramInitChunk => unfold execDramInitChunk
  case' pbusFrameStart => unfold execPbusFrameStart
  case' pbusFrameEnd => unfold execPbusFrameEnd
  case' faultQualified => unfold execFaultQualified
  case' pllRelock => unfold execPllRelock
  case' tableDataWrite => unfold execTableDataWrite
  case' tableDataRead => unfold execTableDataRead
  case' tokenRequest => unfold execTokenRequest
  case' tokenGrant => unfold execTokenGrant
  case' engineFault => unfold execEngineFault
  case' verifyGateOpen => unfold execVerifyGateOpen
  case' sectorRewrite => unfold execSectorRewrite
  case' writeInhibit => unfold execWriteInhibit
  case' inhibitResume => unfold execInhibitResume
  case' writeFifoUnderrun => unfold execWriteFifoUnderrun
  case' syncWindowEnd => unfold execSyncWindowEnd
  case' renorm => unfold execRenorm
  case' motionLinkLost => unfold execMotionLinkLost
  case' planEnd => unfold execPlanEnd
  case' feTrip => unfold execFeTrip
  case' settleDone => unfold execSettleDone
  case' settleTimeout => unfold execSettleTimeout
  case' acquireDone => unfold execAcquireDone
  case' loadTimeout => unfold execLoadTimeout
  case' retractTimeEnd => unfold execRetractTimeEnd
  case' rotorRestCheck => unfold execRotorRestCheck
  case' senseDone => unfold execSenseDone
  case' commutation => unfold execCommutation
  case' speedUpdate => unfold execSpeedUpdate
  case' keCheckEnd => unfold execKeCheckEnd
  case' brakeProbe => unfold execBrakeProbe
  case' spmSelfTest => unfold execSpmSelfTest
  case' drainComplete => unfold execDrainComplete
  case' cadenceRampEnd => unfold execCadenceRampEnd
  case' laneResume => unfold execLaneResume
  case' forcedHalt => unfold execForcedHalt
  case' timerHoldEnd => unfold execTimerHoldEnd
  case' sqTailDoorbell => unfold execSqTailDoorbell
  case' cqHeadDoorbell => unfold execCqHeadDoorbell
  case' fetchVisit => unfold execFetchVisit
  case' entryDecode => unfold execEntryDecode
  case' readSnapshot => unfold execReadSnapshot
  case' coalesceTimer => unfold execCoalesceTimer
  case' poisonedTlp => unfold execPoisonedTlp
  case' keyUnwrap => unfold execKeyUnwrap
  case' narrowWrite => unfold execNarrowWrite
  case' mergeAgeExpiry => unfold execMergeAgeExpiry
  case' scrubRead => unfold execScrubRead
  case' quarantineTest => unfold execQuarantineTest
  case' arbiterGrant => unfold execArbiterGrant
  case' pageAllocate => unfold execPageAllocate
  case' pageRelease => unfold execPageRelease
  case' dmcLost => unfold execDmcLost
  case' sccFill => unfold execSccFill
  case' watchdogExpiry => unfold execWatchdogExpiry
  case' move => unfold execMove
  case' dmaLoop => unfold execDmaLoop
  case' wait => unfold execWait
  case' signal => unfold execSignal
  case' cmd => unfold execCmd
  case' idleTick => unfold execIdleTick
  case' preWake => unfold execPreWake
  case' trustBoot => unfold execTrustBoot
  case' stageCheckDone => unfold execStageCheckDone
  case' quoteDone => unfold execQuoteDone
  case' firmwareFrameTimeout => unfold execFirmwareFrameTimeout
  case' activationDue => unfold execActivationDue
  case' windowMissed => unfold execWindowMissed
  case' trngHealthFail => unfold execTrngHealthFail
  case' recordWrite => unfold execRecordWrite
  case' freezeTimeout => unfold execFreezeTimeout
  case' headerWrite => unfold execHeaderWrite
  case' tallyWindowClose => unfold execTallyWindowClose
  case' standingsComplete => unfold execStandingsComplete
  case' time => unfold execTime; dsimp only
  case' enumFrame => unfold execEnumFrame
  case' msg => unfold execMsg
  case' frameForward => unfold execFrameForward
  case' timeSend => unfold execTimeSend
  case' msgSend => unfold execMsgSend
  case' syncLoss => unfold execSyncLoss
  case' porRelease => unfold execPorRelease
  case' configResetRelease => unfold execConfigResetRelease
  case' laneResetComplete => unfold execLaneResetComplete
  case' powerFail => unfold execPowerFail
  case' brownOut => unfold execBrownOut
  case' unitSelfTestDone => unfold execUnitSelfTestDone
  case' unitFailure => unfold execUnitFailure
  case' completionTimeout => unfold execCompletionTimeout
  case' cuharFlowControl => unfold execCuharFlowControl
  case' tallyTemperatureSample => unfold execTallyTemperatureSample
  all_goals with_reducible repeat' first | exact ⟨_, rfl⟩ | extract_lets | split

/-- Settles O57: with every command every step answers, and an empty queue idles. -/
theorem everyCommandAnswersANextState : Obligations.EveryCommandAnswersANextState := by
  refine ⟨exec_answers, fun s => ?_⟩
  cases hq : s.pending with
  | nil => exact ⟨_, step_nil hq⟩
  | cons c l => exact step_cons hq ▸ exec_answers c _

end Sys2Proof.Machine
end

section

/-! PROOF. The values after reset (R17): every register shows what its table says. -/

namespace Sys2Proof.Machine

/-- After reset every register but GLB_RST_STAT shows its reset value: the map lists no other. -/
theorem reset_reg {a : Nat} (h : a ≠ R.GLB_RST_STAT) : State.reset.reg a = resetOf a := by
  have hm : State.reset.regs = [(R.GLB_RST_STAT, 0x20000000)] := rfl
  simp [State.reg, hm, smGetD, smGet, h.symm]

theorem resetOf_eq {a : Nat} {r : RegDesc} (h : descOf a = some r) : resetOf a = BitVec.ofNat 32 r.reset := by
  simp [resetOf, h]

/-- Settles O60: the named registers one by one, and the others by what the reset map lists. -/
theorem resetValues : Obligations.ResetValues := by
  refine ⟨?_, ?_, ?_, ?_, ?_, fun a r hr ha => (reset_reg ha).trans (resetOf_eq hr), ?_⟩
  all_goals decide +kernel

end Sys2Proof.Machine

end

section

/-! PROOF. Writes of registers (R10, R11, R13, R59, R109): what a word written leaves, bit by bit, and the rows that are commands. -/

namespace Sys2Proof.Machine

/-- The frame that a move within the mask of some parts gives. -/
theorem Moves.frame {k : Nat} {l : List Part} {s t : State} (h : Moves k s t) (sub : k ||| partMask l = partMask l) : onlyParts l s t :=
  (h.wide sub).only l (fun p hp => by simp [testBit_partMask, hp])

/-! ### Reads after writes -/

theorem reg_setReg (s : State) (a : Nat) (w : Word) (b : Nat) : (s.setReg a w).reg b = if b = a then w else s.reg b := by
  split
  next h => subst h; exact rreg_rset_same ..
  next h => exact rreg_rset_other h ..

@[simp] theorem reg_setReg_same (s : State) (a : Nat) (w : Word) : (s.setReg a w).reg a = w := rreg_rset_same ..

theorem reg_put_other {f : Fld} {a : Nat} (h : a ≠ f.addr) (s : State) (v : Nat) : (s.put f v).reg a = s.reg a := rreg_rput_other h ..

@[simp] theorem reg_irq (s : State) (n a : Nat) : (s.irq n).reg a = s.reg a := rfl

@[simp] theorem reg_raiseEvent (s : State) (e : Raised) (a : Nat) : (s.raiseEvent e).reg a = s.reg a := rfl

@[simp] theorem reg_answer (s : State) (b : BusAnswer) (a : Nat) : (s.answer b).reg a = s.reg a := rfl

@[simp] theorem get_answer (s : State) (b : BusAnswer) (f : Fld) : (s.answer b).get f = s.get f := rfl

theorem regsKept.trans {l : List Nat} {s t u : State} (h : regsKept l s t) (g : regsKept l t u) : regsKept l s u :=
  fun a ha => (g a ha).trans (h a ha)

theorem regsKept_put {l : List Nat} {s : State} {f : Fld} (h : f.addr ∈ l) (v : Nat) : regsKept l s (s.put f v) :=
  fun a ha => reg_put_other (fun e : a = f.addr => ha (e ▸ h)) ..

/-- An access is answered on the register bus, and nothing else changes. -/
theorem onlyParts_answer {l : List Part} {s t : State} (h : onlyParts l s t) (hb : Part.bus ∈ l) (b : BusAnswer) : onlyParts l s (t.answer b) := by
  intro p hp
  have hs : p.same s t := h p hp
  cases p <;> first | exact hs | exact absurd hb hp

/-! ### What a plain write leaves -/

theorem reg_hwFlags (a : Nat) (bits : Word) (s : State) (b : Nat) :
    (hwFlags a bits s).reg b = if b = a then s.reg a ||| bits else s.reg b := by
  unfold hwFlags
  split
  next h => split <;> simp_all
  next =>
    dsimp only
    split
    · exact reg_setReg ..
    · cases flagSource a <;> dsimp only <;> split <;> exact reg_setReg ..

/-- Where hardware updates no bit of a register the word is as it was. -/
theorem hwData_of_mask_eq_zero {a : Nat} {hw : HwEdit} (h : hw.mask &&& accMask a [.rw, .rwl] = 0) (w : Word) : hwData a hw w = w := by
  unfold hwData
  rw [h]
  exact (congrArg₂ (· ||| ·) BitVec.and_allOnes BitVec.and_zero).trans BitVec.or_zero

theorem reg_hwUpdate (a : Nat) (hw : HwEdit) (s : State) (b : Nat) :
    (hwUpdate a hw s).reg b = if b = a then hwData a hw (s.reg a) ||| (hw.set &&& accMask a [.w1c]) else s.reg b := by
  unfold hwUpdate
  dsimp only
  rw [reg_hwFlags]
  by_cases hm : hw.mask &&& accMask a [.rw, .rwl] = 0
  · rw [if_pos hm, hwData_of_mask_eq_zero hm]
  · rw [if_neg hm]
    by_cases e : b = a <;> simp [e, reg_setReg]

theorem reg_plainWrite (a : Nat) (data : Word) (hw : HwEdit) (s : State) (b : Nat) :
    (plainWrite a data hw s).reg b = if b = a then hwData a hw (mergeWrite s a data) ||| (hw.set &&& accMask a [.w1c]) else s.reg b := by
  unfold plainWrite
  rw [reg_hwUpdate]
  by_cases e : b = a <;> simp [reg_setReg, e]

theorem regsKept_plainWrite (a : Nat) (data : Word) (hw : HwEdit) (s : State) : regsKept [a] s (plainWrite a data hw s) := by
  intro b hb
  rw [reg_plainWrite, if_neg (by simpa using hb)]

/-- A plain write that hardware does not meet leaves the access codes' word. -/
theorem reg_plainWrite_noEdit (a : Nat) (data : Word) (s : State) : (plainWrite a data noEdit s).reg a = mergeWrite s a data := by
  rw [reg_plainWrite, if_pos rfl, hwData_of_mask_eq_zero BitVec.zero_and]
  exact (congrArg _ BitVec.zero_and).trans BitVec.or_zero

/-- The bits of a plain write, by the access codes and what hardware does in the same handshake (R10, R11, R13). -/
theorem getLsbD_plainWrite (a : Nat) (data : Word) (hw : HwEdit) (s : State) (i : Fin 32) :
    ((plainWrite a data hw s).reg a).getLsbD i =
      ((if hw.mask.getLsbD i && (accMask a [.rw, .rwl]).getLsbD i then hw.val.getLsbD i else
          ((if (accMask a (if s.mode = Mode.configure then [.rw, .rwl] else [.rw])).getLsbD i then data.getLsbD i else (s.reg a).getLsbD i) &&
            !(data.getLsbD i && (accMask a [.w1c]).getLsbD i)) || (data.getLsbD i && (accMask a [.w1s]).getLsbD i)) ||
        (hw.set.getLsbD i && (accMask a [.w1c]).getLsbD i)) := by
  rw [reg_plainWrite, if_pos rfl]
  simp only [hwData, mergeWrite, BitVec.getLsbD_or, BitVec.getLsbD_and, BitVec.getLsbD_not, i.isLt, decide_true, Bool.true_and]
  generalize (accMask a (if s.mode = Mode.configure then [.rw, .rwl] else [.rw])).getLsbD i = rw
  generalize (hw.mask.getLsbD i && (accMask a [.rw, .rwl]).getLsbD i) = m
  cases m <;> cases rw <;> simp

/-! ### Which write an access is -/

/-- Only the registers of LNn and MSn wait for a lane's reset (R633). -/
theorem laneBusy_eq_false {s : State} {addr n o : Nat} {b : Blk} (h : locate addr = some (b, n, o)) (hl : b ≠ .ln) (hm : b ≠ .ms) :
    laneBusy s addr = false := by
  unfold laneBusy laneOfAddr
  rw [h]
  cases b <;> simp_all

/-- A write of a whole register that does not wait is performed and answered (R9, R59, R633). -/
theorem busWrite_eq {s : State} {who : Req} {addr : Nat} {data : Word} {hw : HwEdit} (ok : accessOk 4 addr = true)
    (early : earlyWrite s addr = false) (busy : laneBusy s addr = false) :
    busWrite who 4 addr data hw s = (registerWriteNow who addr data hw s).answer .done := by
  simp [busWrite, State.write, ok, early, busy]

/-- A write of a register that is no half of a pair acts as its block says (R16). -/
theorem registerWriteNow_single {s : State} {who : Req} {addr : Nat} {data : Word} {hw : HwEdit} (hi : pairHi addr = false)
    (lo : pairLo addr = false) :
    registerWriteNow who addr data hw s = performWrite who addr data hw s := by
  simp [registerWriteNow, hi, lo]

/-- A write of a plain block's register is a plain write (R10); LDP keeps the range of LDP_ITER besides (R109). -/
theorem performWrite_plain {s : State} {who : Req} {addr n o : Nat} {b : Blk} {data : Word} {hw : HwEdit} (h : locate addr = some (b, n, o))
    (hb : b ∈ [Blk.cfg, .qe, .ldp, .key, .mot]) (ha : addr ≠ R.LDP_ITER) (lost : (commandReg addr && unitLost s addr) = false) :
    performWrite who addr data hw s = plainWrite addr data hw s := by
  unfold performWrite
  split
  · rfl
  · rw [h]
    simp only [List.mem_cons, List.not_mem_nil, or_false] at hb
    rcases hb with rfl | rfl | rfl | rfl | rfl <;> simp [lost, ldpWrite, ha]

/-! ### LDP_ITER (R109) -/

theorem locate_LDP_ITER : locate R.LDP_ITER = some (.ldp, 0, R.LDP_ITER - 0x03800000) := by decide

/-- The write of LDP_ITER stores each budget held to its range. -/
theorem performWrite_LDP_ITER (s : State) (who : Req) (data : Word) (hw : HwEdit) :
    performWrite who R.LDP_ITER data hw s = ldpWrite R.LDP_ITER data hw s := by
  have hu : unitOf R.LDP_ITER = (0, 0) := by decide
  simp [performWrite, unitAbsent, unitLost, hu, locate_LDP_ITER]

/-! ### Rows that write a command register (R59, R632, R633) -/

/-- The command-register rows with the register and the word that each writes. -/
noncomputable def commandRows (s : State) (c : Fin 64) (n : Lane) (h : Fin 2) (w : Word) : List (Instr × Nat × Word) :=
  [(.flushCommand, R.BND_CMD, 1), (.imageCommand, R.BND_CMD, 2), (.channelStart c, R.DMAc_CTL c, ctlWord s c 31),
   (.channelResume c, R.DMAc_CTL c, ctlWord s c 30), (.channelAbort c, R.DMAc_CTL c, ctlWord s c 29), (.dmaDisable w, R.DMA_CTL, w),
   (.flagSet w, R.DMA_FLAG_SET, w), (.flagClear w, R.DMA_FLAGS, w), (.wayDisable w, R.SCC_WAY_DIS, w),
   (.watchdogKick w, R.CCX_WDOG_KICK, w), (.run n, R.MSn_CTL n, s.reg (R.MSn_CTL n) ||| 0x80000000),
   (.runStop n, R.MSn_CTL n, s.reg (R.MSn_CTL n) &&& 0x7FFFFFFF), (.sequencerResume n, R.MSn_CTL n, s.reg (R.MSn_CTL n) ||| 0x40000000),
   (.firmwareInterrupt n, R.MSn_INT n, 0x40), (.spindleStart, R.SPM_CMD, 1), (.spindleBrake, R.SPM_CMD, 2),
   (.spindleClearFault, R.SPM_CMD, 3), (.firmwareRecord w, R.EVR_FW_CODE, w), (.tallyCommitCommand [], R.TLY_CMD, 1),
   (.tallyInc w, R.TLY_INC, w), (.tallyHist w, R.TLY_HIST, w), (.enumCommand w, R.MOC_CMD, w), (.standingsRequest w, R.EVR_STD_REQ, w),
   (.ceTableClear, R.BUF_CE_SEL, 0x80000000), (.markClear h, R.DMCn_ECC_STAT h, 0x80000000), (.flipWrite h true w, R.DMCn_FLIP_CTL h, w),
   (.flipWrite h false w, R.DMCn_FLIP_DQ h, w)]

/-- Each of these rows is a write of its word to its command register. -/
theorem exec_commandRow {s : State} {c : Fin 64} {n : Lane} {h : Fin 2} {w : Word} {p : Instr × Nat × Word} (hp : p ∈ commandRows s c n h w) :
    ∃ eff, exec p.1 s = .next (s.command p.2.1 p.2.2 eff) := by
  simp only [commandRows, List.mem_cons, List.not_mem_nil, or_false] at hp
  rcases hp with rfl | rfl | rfl | rfl | rfl | rfl | rfl | rfl | rfl | rfl | rfl | rfl | rfl | rfl | rfl | rfl | rfl | rfl | rfl | rfl | rfl | rfl |
    rfl | rfl | rfl | rfl | rfl <;> exact ⟨_, rfl⟩

/-- A field all of whose bits a write takes reads as the data written. -/
theorem get_of_mergeWrite {s t : State} {f : Fld} {data : Word} (ht : t.reg f.addr = mergeWrite s f.addr data)
    (rw_ : ∀ m : Bool, (accMask f.addr (if m then [.rw, .rwl] else [.rw])).extractLsb' f.lo f.width = BitVec.allOnes f.width)
    (w1c : accMask f.addr [.w1c] = 0) (w1s : accMask f.addr [.w1s] = 0) : t.get f = (data.extractLsb' f.lo f.width).toNat := by
  have hrw := rw_ (decide (s.mode = Mode.configure))
  simp only [decide_eq_true_eq] at hrw
  rw [State.get, ht, mergeWrite]
  congr 1
  apply BitVec.eq_of_getLsbD_eq
  intro i hi
  have taken := congrArg (fun w => w.getLsbD i) hrw
  simp only [BitVec.getLsbD_extractLsb', BitVec.getLsbD_allOnes, hi, decide_true, Bool.true_and] at taken
  have inside : f.lo + i < 32 := BitVec.lt_of_getLsbD taken
  simp only [BitVec.getLsbD_extractLsb', BitVec.getLsbD_or, BitVec.getLsbD_and, BitVec.getLsbD_not, w1c, w1s, taken, inside, hi]
  simp

/-- A value held below a field's range is not cut by it. -/
theorem min_range_mod {lo hi k v : Nat} (h : hi < k) : min hi (max lo v) % k = min hi (max lo v) := Nat.mod_eq_of_lt (by omega)

/-- Each budget of LDP_ITER ends as the data's, held to its range. -/
theorem get_ldpWrite_ITER (s : State) (data : Word) :
    (ldpWrite R.LDP_ITER data noEdit s).get F.LDP_ITER_RTY = min 60 (max 1 (data.toNat / 256 % 64)) ∧
      (ldpWrite R.LDP_ITER data noEdit s).get F.LDP_ITER_OTF = min 12 (max 1 (data.toNat % 16)) := by
  have hr : (plainWrite R.LDP_ITER data noEdit s).get F.LDP_ITER_RTY = data.toNat / 256 % 64 := by
    refine (get_of_mergeWrite (f := F.LDP_ITER_RTY) (reg_plainWrite_noEdit ..) (by decide +kernel) (by decide +kernel) (by decide +kernel)).trans ?_
    simp [F.LDP_ITER_RTY, Fld.width, Nat.shiftRight_eq_div_pow]
  have ho : (plainWrite R.LDP_ITER data noEdit s).get F.LDP_ITER_OTF = data.toNat % 16 := by
    refine (get_of_mergeWrite (f := F.LDP_ITER_OTF) (reg_plainWrite_noEdit ..) (by decide +kernel) (by decide +kernel) (by decide +kernel)).trans ?_
    simp [F.LDP_ITER_OTF, Fld.width]
  have hr' : F.LDP_ITER_RTY.lo + F.LDP_ITER_RTY.width ≤ 32 := by decide
  have ho' : F.LDP_ITER_OTF.lo + F.LDP_ITER_OTF.width ≤ 32 := by decide
  have apart : F.LDP_ITER_OTF.lo + F.LDP_ITER_OTF.width ≤ F.LDP_ITER_RTY.lo := by decide
  rw [get_eq] at hr ho
  simp only [ldpWrite, if_true, get_eq, put_regs]
  rw [rget_rput_bits _ _ (.inr apart), rget_rput_same _ _ _ hr', rget_rput_same _ _ _ ho', hr, ho]
  exact ⟨min_range_mod (by decide), min_range_mod (by decide)⟩

theorem regsKept_ldpWrite_ITER (s : State) (data : Word) : regsKept [R.LDP_ITER] s (ldpWrite R.LDP_ITER data noEdit s) :=
  ((regsKept_plainWrite _ _ _ _).trans (regsKept_put (f := F.LDP_ITER_RTY) List.mem_cons_self _)).trans
    (regsKept_put (f := F.LDP_ITER_OTF) List.mem_cons_self _)

theorem onlyParts_ldpWrite_ITER (s : State) (data : Word) : onlyParts [.regs, .bus, .ccx, .evr] s (ldpWrite R.LDP_ITER data noEdit s) := by
  have h : Moves 0x901 s (ldpWrite R.LDP_ITER data noEdit s) := put_moves.on (put_moves.on plainWrite_moves rfl) rfl
  exact h.frame (by decide)

/-- Settles O2. -/
theorem registerWriteFollowsAccessCodes : Obligations.RegisterWriteFollowsAccessCodes := by
  refine ⟨?plain, ?iter, ?early, ?busy, ?lost⟩
  case plain =>
    intro who addr data hw s b n o ok hl hb ha hi lo early lost
    have busy : laneBusy s addr = false := laneBusy_eq_false hl (by rintro rfl; simp at hb) (by rintro rfl; simp at hb)
    have hx : exec (.registerWrite who 4 addr data hw) s = .next ((plainWrite addr data hw s).answer .done) := by
      rw [← performWrite_plain (who := who) hl hb ha lost, ← registerWriteNow_single hi lo, ← busWrite_eq ok early busy]
      rfl
    exact ⟨_, hx, rfl, getLsbD_plainWrite addr data hw s, regsKept_plainWrite addr data hw s,
      onlyParts_answer (plainWrite_moves.frame (by decide)) (by decide) _⟩
  case iter =>
    intro who data s early
    have busy : laneBusy s R.LDP_ITER = false := laneBusy_eq_false locate_LDP_ITER (by decide) (by decide)
    have hx : exec (.registerWrite who 4 R.LDP_ITER data noEdit) s = .next ((ldpWrite R.LDP_ITER data noEdit s).answer .done) := by
      rw [← performWrite_LDP_ITER s who, ← registerWriteNow_single (by decide +kernel) (by decide +kernel),
        ← busWrite_eq (by decide +kernel) early busy]
      rfl
    exact ⟨_, hx, rfl, (get_ldpWrite_ITER s data).1, (get_ldpWrite_ITER s data).2, regsKept_ldpWrite_ITER s data,
      onlyParts_answer (onlyParts_ldpWrite_ITER s data) (by decide) _⟩
  case early =>
    intro p c n h w s hp early
    obtain ⟨eff, he⟩ := exec_commandRow hp
    simp [he, State.command, State.write, early]
  case busy =>
    intro p c n h w s hp early busy
    obtain ⟨eff, he⟩ := exec_commandRow hp
    simp [he, State.command, State.write, early, busy]
  case lost =>
    intro p c n h w s hp early busy gone
    obtain ⟨eff, he⟩ := exec_commandRow hp
    simp [he, State.command, State.write, early, busy, gone]

end Sys2Proof.Machine

end

section

/-! PROOF. Reads of registers (R10, R12): what a read answers and what it clears. -/

namespace Sys2Proof.Machine

/-! ### Where an address lies (R629) -/

theorem locateIn_spec {d : BlockDesc} {a : Nat} {k : Nat} {b : Blk} {n o : Nat} (h : locateIn d a k = some (b, n, o)) :
    b = d.blk ∧ n < k ∧ a = d.base + n * d.stride + o ∧ o < blockSize := by
  induction k with
  | zero => cases h
  | succ k ih =>
    simp only [locateIn] at h
    split at h
    next inside =>
      cases h
      exact ⟨rfl, Nat.lt_succ_self _, by omega, by omega⟩
    next =>
      obtain ⟨hb, hn, ho⟩ := ih h
      exact ⟨hb, Nat.lt_succ_of_lt hn, ho⟩

theorem locateAmong_spec {a : Nat} {l : List BlockDesc} {b : Blk} {n o : Nat} (h : locateAmong a l = some (b, n, o)) :
    ∃ d ∈ l, b = d.blk ∧ n < d.count ∧ a = d.base + n * d.stride + o ∧ o < blockSize := by
  induction l with
  | nil => cases h
  | cons d l ih =>
    simp only [locateAmong] at h
    split at h
    next r hd =>
      cases h
      exact ⟨d, List.mem_cons_self, locateIn_spec hd⟩
    next =>
      obtain ⟨e, he, hs⟩ := ih h
      exact ⟨e, List.mem_cons_of_mem _ he, hs⟩

/-- An address lies at its offset in one of the blocks of the base map. -/
theorem locate_spec {a : Nat} {b : Blk} {n o : Nat} (h : locate a = some (b, n, o)) :
    ∃ d ∈ blockTable, b = d.blk ∧ n < d.count ∧ a = d.base + n * d.stride + o ∧ o < blockSize := locateAmong_spec h

/-- There are two host ports. -/
theorem hif_lt {a n o : Nat} (h : locate a = some (.hif, n, o)) : n < 2 := by
  obtain ⟨d, hd, hb, hn, -⟩ := locate_spec h
  have two : ∀ d ∈ blockTable, d.blk = .hif → d.count = 2 := by decide
  exact two d hd hb.symm ▸ hn

/-! ### Which read an access is -/

/-- A read of a whole register that does not wait is performed and answered (R9, R633). -/
theorem busRead_eq {s : State} {who : Req} {addr : Nat} {event : Word} (ok : accessOk 4 addr = true) (busy : laneBusy s addr = false) :
    busRead who 4 addr event s = (registerReadNow addr event s).2.answer (.value (registerReadNow addr event s).1) := by
  simp [busRead, ok, busy]

/-- A read of a register that is not latched and latches none. -/
theorem registerReadNow_single {s : State} {addr : Nat} {event : Word} (h : latchesNext addr = false)
    (g : 4 ≤ addr → latchesNext (addr - 4) = false) :
    registerReadNow addr event s = performRead addr event s := by
  have held : ¬ (4 ≤ addr ∧ latchesNext (addr - 4) = true) := fun ⟨h4, hl⟩ => by simp [g h4] at hl
  simp [registerReadNow, held, h]

/-- A read that only shows the register and clears its RC fields (R10, R12). -/
def plainRead (addr : Nat) (event : Word) (s : State) : Word × State :=
  (viewWord s addr, if accMask addr [.rc] = 0 then s else s.setReg addr ((s.reg addr &&& ~~~(accMask addr [.rc])) ||| (event &&& accMask addr [.rc])))

/-- A register whose read does more than `plainRead`: a port that pops or advances, a claim, a selected entry, a value taken from outside. -/
def portRead (addr : Nat) : Bool :=
  match locate addr with
  | some (.svc, _, _) => addr == R.SVC_RX_DATA
  | some (.moc, _, _) => addr == R.MOC_RX_DATA
  | some (.evr, _, _) => addr == R.EVR_RD_DATA || addr == R.EVR_STD_DATA
  | some (.ms, n, o) => decide (n < 4) && o == 0x024
  | some (.sv, n, o) => decide (n < 4) && o == 0x038
  | some (.ln, n, _) => decide (n < 4) && (addr == R.LNn_TBL_DATA n || addr == R.LNn_WTBL_DATA n)
  | some (.tly, _, _) => addr == R.TLY_RD_LO
  | some (.rly, _, o) => o == 0x018
  | some (.buf, _, o) => o == 0x02C
  | some (.scc, _, o) => decide (0x840 ≤ o) && decide (o < 0x880)
  | some (.glb, _, _) => addr == R.GLB_GPIO_IN
  | some (.hif, n, _) => addr == R.HIFn_LINK_STAT n
  | _ => false

/-- Every other register of a present unit is read plainly. -/
theorem performRead_plain {s : State} {addr : Nat} {event : Word} (present : unitAbsent s addr = false) (h : portRead addr = false) :
    performRead addr event s = plainRead addr event s := by
  unfold performRead plainRead
  unfold portRead at h
  simp only [present, Bool.false_eq_true, if_false]
  split at h <;> simp_all

theorem get_setV {α : Type} {k : Nat} (v : Vector α k) (i : Fin k) (x : α) (j : Fin k) : (setV v i x).get j = if j = i then x else v.get j := by
  simp [setV, Vector.get_eq_getElem, Vector.getElem_set, Fin.ext_iff, eq_comm]

/-! ### BUF_ARB_DEFER (R426) -/

/-- The counters of the class selected, read out: the event of the handshake is what they hold afterwards. -/
def deferTaken (event : Word) (i : Fin 6) (b : Buf) : Vector (Vector Nat 6) 2 :=
  setV (setV b.defer 0 (setV (b.defer.get 0) i (bitsOf event.toNat 15 0))) 1 (setV (b.defer.get 1) i (bitsOf event.toNat 31 16))

theorem performRead_BUF_ARB_DEFER {s : State} {event : Word} {i : Fin 6} (present : unitAbsent s R.BUF_ARB_DEFER = false)
    (sel : s.get F.BUF_ARB_SEL_CLASS = i.val + 1) :
    performRead R.BUF_ARB_DEFER event s = (viewWord s R.BUF_ARB_DEFER, s.onBuf (fun b => { b with defer := deferTaken event i s.buf })) := by
  have hl : locate R.BUF_ARB_DEFER = some (.buf, 0, 0x02C) := by decide
  have hi : 1 ≤ i.val + 1 ∧ i.val + 1 ≤ 6 := by omega
  simp [performRead, present, hl, sel, hi, deferTaken]

/-- Settles O4. -/
theorem counterReadReturnsThenClears : Obligations.CounterReadReturnsThenClears := by
  refine ⟨?plain, ?defer⟩
  case plain =>
    intro who addr event s b n o ok hl rc hbuf hscc hms hsv hrly hport htab present busy latch latched
    have port : portRead addr = false := by
      unfold portRead
      rw [hl]
      simp only [List.mem_cons, not_or] at hport
      have hh : b = .hif → n < 2 := fun e => hif_lt (e ▸ hl)
      cases b <;> simp_all
      · rcases Nat.le_one_iff_eq_zero_or_eq_one.mp hh with rfl | rfl <;> simp_all
      · exact fun h4 => htab ⟨n, h4⟩
    have hx : exec (.counterReadClear who addr event) s = .next ((plainRead addr event s).2.answer (.value (viewWord s addr))) := by
      show Host.Outcome.next (busRead who 4 addr event s) = _
      rw [busRead_eq ok busy, registerReadNow_single latch latched, performRead_plain present port]
      rfl
    rw [plainRead, if_neg rc] at hx
    refine ⟨_, hx, rfl, reg_setReg_same .., fun a ha => ?_, onlyParts_answer (setReg_moves.frame (by decide)) (by decide) _⟩
    exact (reg_answer ..).trans ((reg_setReg ..).trans (if_neg (by simpa using ha)))
  case defer =>
    intro who event s i present sel
    have busy : laneBusy s R.BUF_ARB_DEFER = false := laneBusy_eq_false (b := .buf) (n := 0) (o := 0x02C) (by decide) (by decide) (by decide)
    have hx : exec (.counterReadClear who R.BUF_ARB_DEFER event) s =
        .next ((s.onBuf (fun b => { b with defer := deferTaken event i s.buf })).answer (.value (viewWord s R.BUF_ARB_DEFER))) := by
      show Host.Outcome.next (busRead who 4 R.BUF_ARB_DEFER event s) = _
      rw [busRead_eq (by decide +kernel) busy, registerReadNow_single (by decide +kernel) (by decide +kernel), performRead_BUF_ARB_DEFER present sel]
    refine ⟨_, hx, rfl, ?_, ?_, fun j hj => ⟨?_, ?_⟩, rfl, ?_⟩
    case refine_5 =>
      have moved : Moves 0x200000 s (s.onBuf (fun b => { b with defer := deferTaken event i s.buf })) := onBuf_moves (fun _ => rfl)
      exact onlyParts_answer (moved.frame (by decide)) (by decide) _
    all_goals show ((deferTaken event i s.buf).get _).get _ = _
    · simp [deferTaken, get_setV]
    · simp [deferTaken, get_setV]
    · simp [deferTaken, get_setV, hj]
    · simp [deferTaken, get_setV, hj]

end Sys2Proof.Machine

end

section

/-! PROOF. Pairs of registers (R16): the halves held and committed, block by block. -/

namespace Sys2Proof.Machine

/-! ### Writes that hardware does not meet -/

theorem hwUpdate_noEdit (a : Nat) (s : State) : hwUpdate a noEdit s = s := by
  simp [hwUpdate, hwFlags, noEdit]

theorem plainWrite_noEdit (a : Nat) (w : Word) (s : State) : plainWrite a w noEdit s = s.setReg a (mergeWrite s a w) := hwUpdate_noEdit ..

/-- The word of a write is that of the register's value and of the mode. -/
theorem mergeWrite_congr {s t : State} {a : Nat} (hr : t.reg a = s.reg a) (hm : t.reg R.GLB_MODE = s.reg R.GLB_MODE) (w : Word) :
    mergeWrite t a w = mergeWrite s a w := by
  have mode : t.mode = s.mode := congrArg (fun r : Word => (r.extractLsb' F.GLB_MODE_MODE.lo F.GLB_MODE_MODE.width).toNat) hm
  simp only [mergeWrite, hr, mode]

/-! ### The registers of a pair (R16) -/

/-- What the _HI half of a pair commits: the holding register, or the reset value where nothing was written. -/
def heldHi (s : State) (addr : Nat) : Word := smGetD (resetOf (addr + 4)) (addr + 4) s.hold

/-- Both halves of a pair stored by their access codes. -/
def storePair (addr : Nat) (lo : Word) (s : State) : State := plainWrite addr lo noEdit (plainWrite (addr + 4) (heldHi s addr) noEdit s)

theorem storePair_eq (addr : Nat) (lo : Word) (s : State) :
    storePair addr lo s = (s.setReg (addr + 4) (mergeWrite s (addr + 4) (heldHi s addr))).setReg addr (mergeWrite s addr lo) := by
  have apart (w : Word) : mergeWrite (s.setReg (addr + 4) w) addr lo = mergeWrite s addr lo :=
    mergeWrite_congr ((reg_setReg ..).trans (if_neg (by omega))) ((reg_setReg ..).trans (if_neg (Nat.succ_ne_zero _).symm)) lo
  rw [storePair, plainWrite_noEdit, plainWrite_noEdit, apart]

theorem reg_storePair_lo (addr : Nat) (lo : Word) (s : State) : (storePair addr lo s).reg addr = mergeWrite s addr lo := by
  rw [storePair_eq, reg_setReg_same]

theorem reg_storePair_hi (addr : Nat) (lo : Word) (s : State) : (storePair addr lo s).reg (addr + 4) = mergeWrite s (addr + 4) (heldHi s addr) := by
  rw [storePair_eq, reg_setReg, if_neg (by omega), reg_setReg_same]

theorem regsKept_storePair (addr : Nat) (lo : Word) (s : State) : regsKept [addr, addr + 4] s (storePair addr lo s) := by
  intro b hb
  simp only [List.mem_cons, List.not_mem_nil, or_false, not_or] at hb
  rw [storePair_eq, reg_setReg, if_neg hb.1, reg_setReg, if_neg hb.2]

theorem storePair_moves (addr : Nat) (lo : Word) (s : State) : Moves 0x1 s (storePair addr lo s) := by
  rw [storePair_eq]
  exact setReg_moves.step setReg_moves

/-- What the write of a _LO register does, by its block (R16): most pairs are stored. -/
theorem commitPair_stored {s : State} {addr n o : Nat} {b : Blk} {lo : Word} (h : locate addr = some (b, n, o))
    (hb : b ∈ [Blk.cfg, .trc, .bnd, .rly, .qe, .tly, .moc, .bat]) : commitPair addr lo s = storePair addr lo s := by
  unfold commitPair
  split
  · rfl
  · rw [h]
    simp only [List.mem_cons, List.not_mem_nil, or_false] at hb
    rcases hb with rfl | rfl | rfl | rfl | rfl | rfl | rfl | rfl <;> rfl

/-- A pair of DMA is stored while its channel does not run. -/
theorem commitPair_dma {s : State} {addr n o : Nat} {lo : Word} (h : locate addr = some (.dma, n, o))
    (idle : ∀ p, dmaChannelOf addr = some p → dmaBusy s p.1 = false) : commitPair addr lo s = storePair addr lo s := by
  unfold commitPair
  split
  · rfl
  · rw [h]
    dsimp only
    split
    next c o hc => simp [idle _ hc, storePair, heldHi, noEdit]
    next => rfl

/-- A channel that runs refuses the write. -/
theorem commitPair_dma_busy {s : State} {addr c o : Nat} {lo : Word} (hc : dmaChannelOf addr = some (c, o)) (busy : dmaBusy s c = true)
    (rw_ : accMask addr [.rw] ≠ 0) (present : unitAbsent s addr = false) : commitPair addr lo s = s.put (F.DMAc_STAT_REJ c) 1 := by
  have hl : ∃ n o, locate addr = some (.dma, n, o) := by
    unfold dmaChannelOf at hc
    split at hc
    next h => exact ⟨_, _, h⟩
    next => cases hc
  obtain ⟨n, o, hl⟩ := hl
  have refused : (dmaBusy s c && accMask addr [.rw] != 0) = true := by simpa [busy] using rw_
  simp only [commitPair, present, hl, hc, refused, if_true]
  rfl

theorem commitPair_pwr {s : State} {addr n o : Nat} {lo : Word} (h : locate addr = some (.pwr, n, o)) (present : unitAbsent s addr = false) :
    commitPair addr lo s = (storePair addr lo s).settle := by
  unfold commitPair
  rw [present, h]
  rfl

theorem commitPair_sv {s : State} {addr o : Nat} {n : Lane} {lo : Word} (h : locate addr = some (.sv, n.val, o)) (present : unitAbsent s addr = false)
    (found : unitLost s addr = false) : commitPair addr lo s = mailboxWrite n true (heldHi s addr ++ lo) s := by
  simp [commitPair, present, h, found, heldHi]

/-- The write of a _LO register that does not wait commits its pair and is answered. -/
theorem exec_pairLoWrite {s : State} {who : Req} {addr : Nat} {data : Word} (ok : accessOk 4 addr = true) (lo : pairLo addr = true)
    (hi : pairHi addr = false) (early : earlyWrite s addr = false) (busy : laneBusy s addr = false) :
    exec (.pairLoWrite who addr data) s = .next ((commitPair addr data s).answer .done) := by
  show Host.Outcome.next (busWrite who 4 addr data noEdit s) = _
  rw [busWrite_eq ok early busy]
  simp [registerWriteNow, hi, lo, hwUpdate_noEdit]

/-- No pair lies in LNn or MSn. -/
theorem laneBusy_of_pairLo {s : State} {addr : Nat} (lo : pairLo addr = true) : laneBusy s addr = false := by
  unfold pairLo at lo
  split at lo
  case h_13 => cases lo
  all_goals exact laneBusy_eq_false ‹_› (by decide) (by decide)

/-! ### A pair is no port -/

/-- A _LO register is read plainly, but TLY_RD_LO. -/
theorem portRead_of_pairLo {addr : Nat} (lo : pairLo addr = true) (h : addr ≠ R.TLY_RD_LO) : portRead addr = false := by
  have rx : addr ≠ R.MOC_RX_DATA := by rintro rfl; exact absurd lo (by decide)
  unfold pairLo at lo
  unfold portRead
  split at lo <;> simp_all

theorem locateIn_page {d : BlockDesc} {a c : Nat} (hb : d.base % blockSize = 0) (hs : d.stride % blockSize = 0) (h : a / blockSize = c / blockSize)
    (k : Nat) : locateIn d c k = (locateIn d a k).map (fun r => (r.1, r.2.1, c % blockSize)) := by
  induction k with
  | zero => rfl
  | succ k ih =>
    have aligned : (d.base + k * d.stride) % blockSize = 0 := by
      rw [Nat.add_mod, hb, Nat.mul_mod, hs]
      rfl
    have same : d.base + k * d.stride ≤ c ∧ c < d.base + k * d.stride + blockSize ↔
        d.base + k * d.stride ≤ a ∧ a < d.base + k * d.stride + blockSize := by
      simp only [blockSize] at *
      omega
    by_cases inside : d.base + k * d.stride ≤ a ∧ a < d.base + k * d.stride + blockSize
    · simp only [locateIn, same, inside, and_self, if_true, Option.map_some]
      congr 3
      simp only [blockSize] at *
      omega
    · simp only [locateIn, same, inside, if_false, ih]

/-- Two addresses of one page lie in the same block, each at its place in the page. -/
theorem locate_page {a c : Nat} (h : a / blockSize = c / blockSize) : locate c = (locate a).map (fun r => (r.1, r.2.1, c % blockSize)) := by
  have aligned : ∀ d ∈ blockTable, d.base % blockSize = 0 ∧ d.stride % blockSize = 0 := by decide
  unfold locate
  generalize blockTable = l at aligned
  induction l with
  | nil => rfl
  | cons d l ih =>
    obtain ⟨hd, hl⟩ := List.forall_mem_cons.mp aligned
    rw [locateAmong, locateAmong, locateIn_page hd.1 hd.2 h]
    cases locateIn d a d.count with
    | none => exact ih hl
    | some r => rfl

/-- The offset of an address is its place in the page. -/
theorem locate_offset {a : Nat} {b : Blk} {n o : Nat} (h : locate a = some (b, n, o)) : o = a % blockSize := by
  have := locate_page (rfl : a / blockSize = a / blockSize)
  rw [h] at this
  simpa using this

/-- The register behind one that does not end its page. -/
theorem locate_next {a : Nat} {b : Blk} {n o : Nat} (h : locate a = some (b, n, o)) (ho : o + 4 < blockSize) :
    locate (a + 4) = some (b, n, o + 4) := by
  have hm := locate_offset h
  simp only [blockSize] at *
  rw [locate_page (a := a) (c := a + 4) (by simp only [blockSize]; omega), h]
  simp only [Option.map_some, blockSize]
  congr 3
  omega

/-- A _HI register is read plainly. -/
theorem portRead_of_pairHi {addr : Nat} (hi : pairHi addr = true) : portRead addr = false := by
  obtain ⟨h4, lo⟩ := (Bool.and_eq_true _ _).mp hi
  obtain ⟨a, rfl⟩ : ∃ a, addr = a + 4 := ⟨addr - 4, by simp at h4; omega⟩
  have rx : a + 4 ≠ R.MOC_RX_DATA := by rintro e; rw [e] at lo; exact absurd lo (by decide)
  have rd : a + 4 ≠ R.TLY_RD_LO := by rintro e; rw [e] at lo; exact absurd lo (by decide)
  rw [Nat.add_sub_cancel] at lo
  unfold pairLo at lo
  unfold portRead
  split at lo
  case h_13 => cases lo
  all_goals
    rename_i hl
    obtain ⟨-, -, -, -, -, hs⟩ := locate_spec hl
    simp at lo
    have next := locate_next hl (by simp only [blockSize] at hs ⊢; omega)
    simp [next, rx, rd] <;> omega

end Sys2Proof.Machine

end

section

/-! PROOF. Flags, counters and the timer compares of hart k (R443). -/

namespace Sys2Proof.Machine

/-! ### Flags and counters -/

/-- A flag that rises sets its bits in the register map, whatever else it makes pending. -/
theorem flag_regs (s : State) (f : Fld) : (s.flag f).regs = rput s.regs f (2 ^ f.width - 1) := by
  unfold State.flag
  dsimp only
  split
  · rfl
  · cases flagSource f.addr <;> dsimp only <;> split <;> rfl

theorem get_flag {s : State} {f : Fld} (hf : f.lo + f.width ≤ 32) : (s.flag f).get f = 2 ^ f.width - 1 := by
  rw [get_eq, flag_regs, rget_rput_same _ _ _ hf]
  exact Nat.mod_eq_of_lt (Nat.sub_lt (Nat.two_pow_pos _) Nat.one_pos)

theorem regsKept_flag (s : State) (f : Fld) : regsKept [f.addr] s (s.flag f) := by
  intro a ha
  rw [reg_eq, flag_regs, rreg_rput_other (by simpa using ha), ← reg_eq]

theorem get_count {s : State} {f : Fld} (hf : f.lo + f.width ≤ 32) (n : Nat) : (s.count f n).get f = min (s.get f + n) (2 ^ f.width - 1) := by
  rw [get_eq, count_regs, rget_rput_same _ _ _ hf, ← get_eq]
  exact Nat.mod_eq_of_lt (Nat.lt_of_le_of_lt (Nat.min_le_right ..) (Nat.sub_lt (Nat.two_pow_pos _) Nat.one_pos))

theorem regsKept_count (s : State) (f : Fld) (n : Nat) : regsKept [f.addr] s (s.count f n) := regsKept_put List.mem_cons_self _

/-- A register all of whose bits a write takes ends with the data. -/
theorem mergeWrite_full {s : State} {a : Nat} (rw_ : ∀ m : Bool, accMask a (if m then [.rw, .rwl] else [.rw]) = BitVec.allOnes 32)
    (w1c : accMask a [.w1c] = 0) (w1s : accMask a [.w1s] = 0) (w : Word) : mergeWrite s a w = w := by
  have taken := rw_ (decide (s.mode = Mode.configure))
  simp only [decide_eq_true_eq] at taken
  apply BitVec.eq_of_getLsbD_eq
  intro i hi
  simp only [mergeWrite, taken, w1c, w1s, BitVec.getLsbD_or, BitVec.getLsbD_and, BitVec.getLsbD_not, BitVec.getLsbD_allOnes, hi]
  simp

/-! ### The timer compares (R443) -/

/-- What a timer compare of hart `k` is: a pair of CCX, all of whose bits software writes. -/
theorem timerCompare_facts (k : Fin 8) : accessOk 4 (R.CCX_TCMPk_LO k) = true ∧
    pairLo (R.CCX_TCMPk_LO k) = true ∧ pairHi (R.CCX_TCMPk_LO k) = false ∧
    locate (R.CCX_TCMPk_LO k) = some (Blk.scc, 0, 0x880 + 8 * k.val) ∧ resetOf (R.CCX_TCMPk_HI k) = 0xFFFFFFFF ∧
    ∀ a ∈ [R.CCX_TCMPk_LO k, R.CCX_TCMPk_HI k], (∀ m : Bool, accMask a (if m then [.rw, .rwl] else [.rw]) = BitVec.allOnes 32) ∧
      accMask a [.w1c] = 0 ∧ accMask a [.w1s] = 0 := by
  revert k
  decide +kernel

theorem timerCompare_next (k : Nat) : R.CCX_TCMPk_LO k + 4 = R.CCX_TCMPk_HI k := by
  simp only [R.CCX_TCMPk_LO, R.CCX_TCMPk_HI]
  omega

theorem commitPair_timer {s : State} {k : Fin 8} {lo : Word} (present : unitAbsent s (R.CCX_TCMPk_LO k) = false) :
    commitPair (R.CCX_TCMPk_LO k) lo s = showTimer k (storePair (R.CCX_TCMPk_LO k) lo s) := by
  obtain ⟨-, -, -, hl, -⟩ := timerCompare_facts k
  have hk : (0x880 + 8 * k.val - 0x880) / 8 = k.val := by omega
  unfold commitPair
  simp only [present, hl, Bool.false_eq_true, if_false, hk]
  rfl

/-- Bit `k` of the pending timer interrupts follows the comparison, the others stay. -/
theorem getLsbD_mtip_showTimer (s : State) (k j : Fin 8) :
    (showTimer k s).ccx.mtip.getLsbD j =
      if j = k then decide ((s.pair (R.CCX_TCMPk_LO k) (R.CCX_TCMPk_HI k)).toNat ≤ s.now.toNat) else s.ccx.mtip.getLsbD j := by
  have one : (1#8 <<< k.val).getLsbD j = decide (j = k) := by
    revert j k
    decide
  unfold showTimer State.onCcx
  dsimp only
  split
  next due => simp only [BitVec.getLsbD_or, one]; by_cases h : j = k <;> simp_all
  next due => simp only [BitVec.getLsbD_and, BitVec.getLsbD_not, one, j.isLt]; by_cases h : j = k <;> simp_all

/-- Storing a timer compare leaves ring time. -/
theorem now_storePair_timer (s : State) (k : Fin 8) (lo : Word) : (storePair (R.CCX_TCMPk_LO k) lo s).now = s.now := by
  have apart : ∀ k : Fin 8, ∀ a ∈ [R.MOC_TIME_LO, R.MOC_TIME_HI], a ∉ [R.CCX_TCMPk_LO k, R.CCX_TCMPk_LO k + 4] := by decide
  obtain ⟨hl, hh⟩ : _ ∧ _ := ⟨apart k R.MOC_TIME_LO (by decide), apart k R.MOC_TIME_HI (by decide)⟩
  simp only [State.now, State.pair, regsKept_storePair _ _ _ _ hl, regsKept_storePair _ _ _ _ hh]

end Sys2Proof.Machine

end

section

/-! PROOF. Reads of pairs (R16): what is latched and what is shown; the pair of a mailbox (R184). -/

namespace Sys2Proof.Machine

/-! ### Answers and pairs -/

theorem regsKept_answer {l : List Nat} {s t : State} (h : regsKept l s t) (b : BusAnswer) : regsKept l s (t.answer b) :=
  fun a ha => (reg_answer t b a).trans (h a ha)

@[simp] theorem hold_answer (s : State) (b : BusAnswer) : (s.answer b).hold = s.hold := rfl

@[simp] theorem sv_answer (s : State) (b : BusAnswer) (m : Lane) : (s.answer b).sv m = s.sv m := rfl

theorem hold_storePair (addr : Nat) (lo : Word) (s : State) : (storePair addr lo s).hold = s.hold := (storePair_moves addr lo s).parts 2 rfl

theorem onlyParts_storePair (addr : Nat) (lo : Word) (s : State) : onlyParts [.regs] s (storePair addr lo s) :=
  (storePair_moves addr lo s).frame (by decide)

theorem onlyParts.mono {l k : List Part} {s t : State} (h : onlyParts l s t) (sub : l ⊆ k) : onlyParts k s t :=
  fun p hp => h p (fun hl => hp (sub hl))

/-- What a pair stored and answered shows (R16). -/
theorem storePair_answered (addr : Nat) (lo : Word) (s : State) :
    ((storePair addr lo s).answer .done).reg addr = mergeWrite s addr lo ∧
      ((storePair addr lo s).answer .done).reg (addr + 4) = mergeWrite s (addr + 4) (heldHi s addr) ∧
      ((storePair addr lo s).answer .done).hold = s.hold ∧
      regsKept [addr, addr + 4] s ((storePair addr lo s).answer .done) ∧
      onlyParts [.regs, .bus] s ((storePair addr lo s).answer .done) := by
  refine ⟨?_, ?_, ?_, regsKept_answer (regsKept_storePair addr lo s) _, ?_⟩
  · rw [reg_answer, reg_storePair_lo]
  · rw [reg_answer, reg_storePair_hi]
  · rw [hold_answer, hold_storePair]
  · exact onlyParts_answer ((onlyParts_storePair addr lo s).mono (by simp)) (by decide) _

/-! ### Reads of a pair -/

/-- A plain register without RC fields is shown and left as it is, whether its unit is present or not. -/
theorem performRead_view {s : State} {addr : Nat} {event : Word} (port : portRead addr = false) (rc : accMask addr [.rc] = 0) :
    performRead addr event s = (viewWord s addr, s) := by
  cases present : unitAbsent s addr with
  | true => simp [performRead, viewWord, present]
  | false => simp [performRead_plain present port, plainRead, rc]

/-- A pair's _LO register stands behind no register that latches. -/
theorem latchesNext_before_pairLo {addr : Nat} (lo : pairLo addr = true) (hi : pairHi addr = false) :
    ¬ (4 ≤ addr ∧ latchesNext (addr - 4) = true) := by
  rintro ⟨h4, latch⟩
  simp only [latchesNext, Bool.or_eq_true, beq_iff_eq] at latch
  have behind (r : Nat) (hr : pairLo (r + 4) = false) : addr - 4 ≠ r := by
    rintro rfl
    rw [Nat.sub_add_cancel h4] at hr
    simp [lo] at hr
  rcases latch with ((pair | e) | e) | e
  · simp [pairHi, h4, pair] at hi
  · exact behind _ (by decide) e
  · exact behind _ (by decide) e
  · exact behind _ (by decide) e

/-- The read of a _LO register latches the _HI half beside it. -/
theorem registerReadNow_lo {s : State} {addr : Nat} {event : Word} (lo : pairLo addr = true) (hi : pairHi addr = false) :
    registerReadNow addr event s =
      ((performRead addr event s).1,
        { (performRead addr event s).2 with
          shadow := smSet (addr + 4) (viewWord (performRead addr event s).2 (addr + 4)) (performRead addr event s).2.shadow }) := by
  have latch : latchesNext addr = true := by simp [latchesNext, lo]
  simp [registerReadNow, latchesNext_before_pairLo lo hi, latch]

/-- A performed read latches nothing. -/
theorem shadow_performRead (addr : Nat) (event : Word) (s : State) : (performRead addr event s).2.shadow = s.shadow :=
  performRead_moves.parts 1 rfl

/-- A read latches no register but the one behind it. -/
theorem shadow_registerReadNow {s : State} {a b : Nat} {event : Word} (h : a + 4 ≠ b) :
    smGet b (registerReadNow a event s).2.shadow = smGet b s.shadow := by
  unfold registerReadNow
  split
  · split
    · rfl
    · exact congrArg _ (shadow_performRead ..)
  · split
    · exact (smGet_smSet_other h.symm ..).trans (congrArg _ (shadow_performRead ..))
    · exact congrArg _ (shadow_performRead ..)

theorem shadow_busRead {s : State} {who : Req} {a b : Nat} {event : Word} (h : a + 4 ≠ b) :
    smGet b (busRead who 4 a event s).shadow = smGet b s.shadow := by
  unfold busRead
  split
  · rfl
  · split
    · exact congrArg _ (hold__moves.parts 1 rfl)
    · exact shadow_registerReadNow h

/-! ### The pair that a read of TLY_RD_LO fills (R571) -/

theorem locate_TLY_RD_LO : locate R.TLY_RD_LO = some (.tly, 0, 0x1C) := by decide

theorem performRead_TLY_RD_LO {s : State} {event : Word} (present : unitAbsent s R.TLY_RD_LO = false) :
    performRead R.TLY_RD_LO event s = tlyReadLo s := by
  simp [performRead, present, locate_TLY_RD_LO]

/-- The entry's value is shown in the pair, its validity in TLY_RD_STAT, and nothing else changes. -/
theorem tlyReadLo_spec (s : State) :
    (tlyReadLo s).1 = (tlyRead s (s.get F.TLY_RD_SEL_ENTRY)).2.1.extractLsb' 0 32 ∧
      (tlyReadLo s).2.reg R.TLY_RD_HI = (tlyRead s (s.get F.TLY_RD_SEL_ENTRY)).2.1.extractLsb' 32 32 ∧
      (tlyReadLo s).2.get F.TLY_RD_STAT_VALID = b2n (tlyRead s (s.get F.TLY_RD_SEL_ENTRY)).1 ∧
      regsKept [R.TLY_RD_LO, R.TLY_RD_HI, R.TLY_RD_STAT] s (tlyReadLo s).2 := by
  unfold tlyReadLo
  obtain ⟨valid, v, pend, seq⟩ := tlyRead s (s.get F.TLY_RD_SEL_ENTRY)
  refine ⟨rfl, ?_, ?_, ?_⟩
  · have stat : R.TLY_RD_HI ≠ R.TLY_RD_STAT := by decide
    simp only [State.putB, State.setPair]
    rw [reg_put_other stat, reg_put_other stat, reg_put_other stat, reg_setReg_same]
  · have valid32 : F.TLY_RD_STAT_VALID.lo + F.TLY_RD_STAT_VALID.width ≤ 32 := by decide
    simp only [get_eq, put_regs, putB_regs]
    rw [rget_rput_bits _ _ (.inr (by decide)), rget_rput_bits _ _ (.inr (by decide)), rget_rput_same _ _ _ valid32]
    cases valid <;> rfl
  · intro a ha
    simp only [List.mem_cons, List.not_mem_nil, or_false, not_or] at ha
    obtain ⟨hlo, hhi, hst⟩ := ha
    simp only [State.putB, State.setPair]
    rw [reg_put_other (f := F.TLY_RD_STAT_SEQ) hst, reg_put_other (f := F.TLY_RD_STAT_PEND) hst, reg_put_other (f := F.TLY_RD_STAT_VALID) hst,
      reg_setReg, if_neg hhi, reg_setReg, if_neg hlo]

theorem viewWord_TLY_RD_HI (s : State) : viewWord s R.TLY_RD_HI = s.reg R.TLY_RD_HI := by
  have hl : locate R.TLY_RD_HI = some (.tly, 0, 0x20) := by decide
  have hm : accMask R.TLY_RD_HI [.wo] = 0 := by decide +kernel
  simp only [viewWord, hl, hm, ite_self]
  exact BitVec.and_allOnes

/-! ### The mailbox of SVn (R184, R185) -/

/-- A servo with an entry in its mailbox. -/
def withEntry (e : Dword) (v : Sv) : Sv := { v with mailbox := some e }

/-- An entry from the selected source stands in the mailbox, over an unread one that is counted. -/
theorem mailboxWrite_taken {s : State} {n : Lane} (src : s.on (F.SVn_PACE_CTL_SRC n) = true) (e : Dword) :
    mailboxWrite n true e s =
      (if (s.sv n).mailbox.isSome then s.count (F.SVn_PACE_CNT_OVERWRITE n) else s).onSv n (withEntry e) := by
  simp [mailboxWrite, src]
  rfl

/-- An entry from the other source is refused. -/
theorem mailboxWrite_refused {s : State} {n : Lane} (src : s.on (F.SVn_PACE_CTL_SRC n) = false) (e : Dword) :
    mailboxWrite n true e s = s.flag (F.SVn_PACE_STAT_SRC_REJ n) := by
  simp [mailboxWrite, src]

theorem sv_onSv (s : State) (n m : Lane) (f : Sv → Sv) : (s.onSv n f).sv m = if m = n then f (s.sv n) else s.sv m := get_setV ..

@[simp] theorem reg_onSv (s : State) (n : Lane) (f : Sv → Sv) (a : Nat) : (s.onSv n f).reg a = s.reg a := rfl

@[simp] theorem regs_onSv (s : State) (n : Lane) (f : Sv → Sv) : (s.onSv n f).regs = s.regs := rfl

@[simp] theorem get_onSv (s : State) (n : Lane) (f : Sv → Sv) (g : Fld) : (s.onSv n f).get g = s.get g := rfl

theorem sv_count (s : State) (f : Fld) (k : Nat) (n : Lane) : (s.count f k).sv n = s.sv n := rfl

/-- An entry taken: it stands in the mailbox of its servo, and an unread one before it is counted. -/
theorem mailboxWrite_taken_spec {s : State} {n : Lane} (src : s.on (F.SVn_PACE_CTL_SRC n) = true) (e : Dword) :
    (mailboxWrite n true e s).sv n = { s.sv n with mailbox := some e } ∧
      ((s.sv n).mailbox = none → (mailboxWrite n true e s).regs = s.regs) ∧
      ((s.sv n).mailbox.isSome = true → (mailboxWrite n true e s).get (F.SVn_PACE_CNT_OVERWRITE n) =
        min (s.get (F.SVn_PACE_CNT_OVERWRITE n) + 1) (2 ^ (F.SVn_PACE_CNT_OVERWRITE n).width - 1)) ∧
      (∀ m, m ≠ n → (mailboxWrite n true e s).sv m = s.sv m) ∧
      regsKept [R.SVn_PACE_CNT n] s (mailboxWrite n true e s) ∧
      onlyParts [.regs, .svs] s (mailboxWrite n true e s) := by
  rw [mailboxWrite_taken src]
  have fits : (F.SVn_PACE_CNT_OVERWRITE n).lo + (F.SVn_PACE_CNT_OVERWRITE n).width ≤ 32 := by simp [F.SVn_PACE_CNT_OVERWRITE, Fld.width]
  cases unread : (s.sv n).mailbox with
  | none =>
    rw [if_neg (by simp)]
    refine ⟨?_, fun _ => regs_onSv .., fun h => absurd h (by simp), fun m hm => ?_, fun _ _ => reg_onSv .., ?_⟩
    · simp [sv_onSv, withEntry]
    · simp [sv_onSv, hm]
    · exact onSv_moves.frame (by decide)
  | some old =>
    rw [if_pos Option.isSome_some]
    refine ⟨?_, fun h => absurd h (by simp), fun _ => ?_, fun m hm => ?_, fun a ha => ?_, ?_⟩
    · rw [sv_onSv, if_pos rfl, sv_count, withEntry]
    · exact (get_onSv ..).trans (get_count fits 1)
    · rw [sv_onSv, if_neg hm, sv_count]
    · exact (reg_onSv ..).trans (regsKept_count s (F.SVn_PACE_CNT_OVERWRITE n) 1 a ha)
    · exact (onSv_moves.on (count_moves.wide (m := 0x8001) rfl) rfl).frame (by decide)

/-- An entry refused is marked in SRC_REJ of its servo. -/
theorem mailboxWrite_refused_spec {s : State} {n : Lane} (src : s.on (F.SVn_PACE_CTL_SRC n) = false) (e : Dword) :
    (mailboxWrite n true e s).get (F.SVn_PACE_STAT_SRC_REJ n) = 1 ∧
      (mailboxWrite n true e s).svs = s.svs ∧
      regsKept [R.SVn_PACE_STAT n] s (mailboxWrite n true e s) ∧
      onlyParts [.regs, .ccx, .evr] s (mailboxWrite n true e s) := by
  rw [mailboxWrite_refused src]
  have fits : (F.SVn_PACE_STAT_SRC_REJ n).lo + (F.SVn_PACE_STAT_SRC_REJ n).width ≤ 32 := by simp [F.SVn_PACE_STAT_SRC_REJ, Fld.width]
  exact ⟨get_flag fits, flag_moves.parts 15 rfl, regsKept_flag s (F.SVn_PACE_STAT_SRC_REJ n), flag_moves.frame (by decide)⟩

/-- Settles O3. -/
theorem registerPairsHoldCommitAndLatch : Obligations.RegisterPairsHoldCommitAndLatch := by
  refine ⟨?hold, ?stored, ?dma, ?dmaBusy, ?timer, ?pwr, ?mailbox, ?refused, ?readLo, ?readTly, ?readHi, ?unlatched, ?others, rfl, rfl⟩
  case hold =>
    intro who addr data s ok hi early busy
    show Host.Outcome.next (busWrite who 4 addr data noEdit s) = _
    rw [busWrite_eq ok early busy]
    simp [registerWriteNow, hi, hwUpdate_noEdit]
  case stored =>
    intro who addr data s b n o ok lo hi hl hb early
    rw [exec_pairLoWrite ok lo hi early (laneBusy_of_pairLo lo), commitPair_stored hl hb]
    exact ⟨_, rfl, rfl, storePair_answered addr data s⟩
  case dma =>
    intro who addr data s n o ok lo hi hl idle early
    rw [exec_pairLoWrite ok lo hi early (laneBusy_of_pairLo lo), commitPair_dma hl idle]
    exact ⟨_, rfl, rfl, storePair_answered addr data s⟩
  case dmaBusy =>
    intro who addr data s c o ok lo hi hc busy rw_ present early
    rw [exec_pairLoWrite ok lo hi early (laneBusy_of_pairLo lo), commitPair_dma_busy hc busy rw_ present]
  case timer =>
    intro who k data s early present
    obtain ⟨ok, lo, hi, -, reset, full⟩ := timerCompare_facts k
    obtain ⟨rwLo, w1cLo, w1sLo⟩ := full _ (List.mem_cons_self ..)
    obtain ⟨rwHi, w1cHi, w1sHi⟩ := full (R.CCX_TCMPk_HI k) (by simp)
    rw [exec_pairLoWrite ok lo hi early (laneBusy_of_pairLo lo), commitPair_timer present]
    have hLo : (storePair (R.CCX_TCMPk_LO k) data s).reg (R.CCX_TCMPk_LO k) = data :=
      (reg_storePair_lo ..).trans (mergeWrite_full rwLo w1cLo w1sLo _)
    have hHi : (storePair (R.CCX_TCMPk_LO k) data s).reg (R.CCX_TCMPk_HI k) = smGetD 0xFFFFFFFF (R.CCX_TCMPk_HI k) s.hold := by
      have h := reg_storePair_hi (R.CCX_TCMPk_LO k) data s
      rw [heldHi, timerCompare_next, reset, mergeWrite_full rwHi w1cHi w1sHi] at h
      exact h
    have hcx : (storePair (R.CCX_TCMPk_LO k) data s).ccx = s.ccx := (storePair_moves ..).parts 11 rfl
    refine ⟨_, rfl, rfl, hLo, hHi, ?_, fun j hj => ?_, ?_, (storePair_moves ..).parts 2 rfl, ?_, ?_⟩
    · refine (getLsbD_mtip_showTimer _ k k).trans ?_
      rw [if_pos rfl, now_storePair_timer, State.pair, hLo, hHi]
    · refine (getLsbD_mtip_showTimer _ k j).trans ?_
      rw [if_neg hj, hcx]
    · exact hcx ▸ rfl
    · exact timerCompare_next k ▸ regsKept_storePair (R.CCX_TCMPk_LO k) data s
    · exact onlyParts_answer ((mk_ccx.on ((storePair_moves ..).wide (m := 0x801) rfl) rfl).frame (by decide)) (by decide) _
  case pwr =>
    intro who addr data s n o ok lo hi hl present early
    rw [exec_pairLoWrite ok lo hi early (laneBusy_of_pairLo lo), commitPair_pwr hl present]
    exact ⟨_, rfl, reg_storePair_lo .., reg_storePair_hi .., regsKept_storePair addr data s, (storePair_moves ..).frame (by decide)⟩
  case mailbox =>
    intro who n addr o data s ok lo hi hl present found early src
    rw [exec_pairLoWrite ok lo hi early (laneBusy_of_pairLo lo), commitPair_sv hl present found]
    obtain ⟨taken, free, counted, others, kept, only⟩ := mailboxWrite_taken_spec src (heldHi s addr ++ data)
    exact ⟨_, rfl, rfl, (sv_answer ..).trans taken, free, fun unread => (get_answer ..).trans (counted unread),
      fun m hm => (sv_answer ..).trans (others m hm), regsKept_answer kept _, onlyParts_answer (only.mono (by simp)) (by decide) _⟩
  case refused =>
    intro who n addr o data s ok lo hi hl present found early src
    rw [exec_pairLoWrite ok lo hi early (laneBusy_of_pairLo lo), commitPair_sv hl present found]
    obtain ⟨flagged, entries, kept, only⟩ := mailboxWrite_refused_spec src (heldHi s addr ++ data)
    exact ⟨_, rfl, rfl, (get_answer ..).trans flagged, entries, regsKept_answer kept _, onlyParts_answer (only.mono (by simp)) (by decide) _⟩
  case readLo =>
    intro who addr s ok lo hi tly rc busy
    show Host.Outcome.next (busRead who 4 addr 0 s) = _
    rw [busRead_eq ok busy, registerReadNow_lo lo hi, performRead_view (portRead_of_pairLo lo tly) rc]
  case readTly =>
    intro who s present
    have busy : laneBusy s R.TLY_RD_LO = false := laneBusy_eq_false locate_TLY_RD_LO (by decide) (by decide)
    obtain ⟨hv, hh, hs, hk⟩ := tlyReadLo_spec s
    have hx : exec (.pairLoRead who R.TLY_RD_LO) s = _ := congrArg Host.Outcome.next (busRead_eq (who := who) (event := 0) (by decide +kernel) busy)
    rw [registerReadNow_lo (by decide +kernel) (by decide +kernel), performRead_TLY_RD_LO present] at hx
    refine ⟨_, hx, congrArg _ hv, ?_, hs, hk, ?_⟩
    · exact (smGet_smSet_same ..).trans (congrArg some ((viewWord_TLY_RD_HI _).trans hh))
    · have moved : Moves 0x1 s (tlyReadLo s).2 := tlyReadLo_moves
      exact onlyParts_answer ((mk_shadow.on (moved.wide (m := 0x3) rfl) rfl).frame (by decide)) (by decide) _
  case readHi =>
    intro who addr event s w ok h4 latch busy held
    show Host.Outcome.next (busRead who 4 addr event s) = _
    rw [busRead_eq ok busy]
    simp [registerReadNow, h4, latch, held]
  case unlatched =>
    intro who addr s ok hi busy held rc
    obtain ⟨h4, lo⟩ := (Bool.and_eq_true _ _).mp hi
    have latch : latchesNext (addr - 4) = true := by simp [latchesNext, lo]
    show Host.Outcome.next (busRead who 4 addr 0 s) = _
    have read : registerReadNow addr 0 s = performRead addr 0 s := by
      simp [registerReadNow, of_decide_eq_true h4, latch, held]
    rw [busRead_eq ok busy, read, performRead_view (portRead_of_pairHi hi) rc]
  case others =>
    intro who a event addr s t h ha
    exact Host.Outcome.next.inj h ▸ shadow_busRead ha

end Sys2Proof.Machine

end

section

/-! PROOF. Admin commands (R332, R367, R375): how a decoded command ends with a result. -/

namespace Sys2Proof.Machine

/-! ### A command and its result (R332, R367, R372) -/

/-- The command in slot `k` has no result yet, and its completion is not dropped. -/
def Unanswered (k : Nat) (s : State) : Prop := ∃ x, s.slot k = some x ∧ x.result = none ∧ x.dropped = false

/-- The command in slot `k` ends with the result `r`: no controller changes, and nothing outside the registers and QE. -/
def Ends (k : Nat) (r : Result) (s t : State) : Prop := t.resultOf k = some r ∧ (∀ fn, t.ctrl fn = s.ctrl fn) ∧ Moves 0x2000001 s t

theorem qe_showSlots (s : State) : (showSlots s).qe = s.qe := showSlots_moves.parts 25 rfl

theorem slot_setSlot (s : State) (k : Nat) (x : Slot) : (s.setSlot k x).slot k = some x := by
  rw [State.slot, State.setSlot, qe_showSlots]
  exact smGet_smSet_same ..

theorem ctrl_setSlot (s : State) (k : Nat) (x : Slot) (fn : Nat) : (s.setSlot k x).ctrl fn = s.ctrl fn := by
  rw [State.ctrl, State.setSlot, qe_showSlots]
  rfl

theorem Unanswered.onSlot {k : Nat} {s : State} (h : Unanswered k s) {f : Slot → Slot} (hr : ∀ x, (f x).result = x.result)
    (hd : ∀ x, (f x).dropped = x.dropped) : Unanswered k (s.onSlot k f) := by
  obtain ⟨x, hx, none_, kept⟩ := h
  refine ⟨f x, ?_, (hr x).trans none_, (hd x).trans kept⟩
  rw [State.onSlot, hx]
  exact slot_setSlot ..

theorem ctrl_onSlot (s : State) (k : Nat) (f : Slot → Slot) (fn : Nat) : (s.onSlot k f).ctrl fn = s.ctrl fn := by
  unfold State.onSlot
  split
  · exact ctrl_setSlot ..
  · rfl

theorem Ends.finish {k : Nat} {s : State} (h : Unanswered k s) (r : Result) : Ends k r s (finish k r s) := by
  obtain ⟨x, hx, none_, kept⟩ := h
  have set_ : Machine.finish k r s = s.setSlot k { x with result := some r } := by simp [Machine.finish, hx, none_, kept]
  rw [set_]
  refine ⟨?_, fun fn => ctrl_setSlot .., setSlot_moves⟩
  rw [State.resultOf, slot_setSlot]
  rfl

theorem Ends.answerData {k : Nat} {s : State} (h : Unanswered k s) (dw0 : Nat) (data : List Byte) :
    Ends k ⟨.success, false, dw0, 0, [data]⟩ s (answerData k dw0 data s) := by
  have begun := h.onSlot (f := fun x => { x with moved := true }) (fun _ => rfl) fun _ => rfl
  obtain ⟨result, ctrls, moved⟩ := Ends.finish begun ⟨.success, false, dw0, 0, [data]⟩
  exact ⟨result, fun fn => (ctrls fn).trans (ctrl_onSlot ..), moved.step onSlot_moves⟩

theorem Ends.only {k : Nat} {r : Result} {s t : State} (h : Ends k r s t) : onlyParts [.regs, .qe] s t := h.2.2.frame (by decide)

/-! ### Rows of a decoded command -/

theorem decoded_iff {s : State} {k : Nat} {x : Slot} : s.decoded k x = true ↔
    s.slot k = some x ∧ x.result = none ∧ x.fon.isSome = true ∧ slotEntered s k = true ∧ qeRuns s = true ∧ x.dropped = false := by
  simp [State.decoded, and_assoc]

theorem adminReady_iff {s : State} {k : Nat} {x : Slot} : s.adminReady k x = true ↔
    s.decoded k x = true ∧ x.sq = 0 ∧ opAllowed x.fn 0 x.cmd.op = true ∧ x.cmd.prpOk = true := by
  simp [State.adminReady, and_assoc]

theorem unanswered_of_decoded {s : State} {k : Nat} {x : Slot} (h : s.decoded k x = true) : Unanswered k s := by
  obtain ⟨hx, none_, -, -, -, kept⟩ := decoded_iff.mp h
  exact ⟨x, hx, none_, kept⟩

theorem unanswered_of_adminReady {s : State} {k : Nat} {x : Slot} (h : s.adminReady k x = true) : Unanswered k s :=
  unanswered_of_decoded (adminReady_iff.mp h).1

/-- A row of a decoded command has its effect. -/
theorem onDecoded_eq {s : State} {k : Nat} {x : Slot} (h : s.decoded k x = true) (f : Slot → State → State) :
    onDecoded k s f = .next (f x s).settle := by
  obtain ⟨hx, none_, fetched, entered, serves, -⟩ := decoded_iff.mp h
  simp [onDecoded, hx, none_, Option.isNone_eq_false_iff.mpr fetched, entered, serves]

theorem adminRow_eq {s : State} {k : Nat} {x : Slot} (h : s.adminReady k x = true) (f : Slot → State → State) :
    adminRow k s f = .next (f x s).settle := by
  obtain ⟨decoded, admin, allowed, aligned⟩ := adminReady_iff.mp h
  rw [adminRow, onDecoded_eq decoded]
  simp [admin, allowed, aligned]

theorem securityRow_eq {s : State} {k : Nat} {x : Slot} (h : s.adminReady k x = true) (known : securityUnknown x.cmd.op = false)
    (f : Slot → State → State) :
    securityRow k s f = .next (f x s).settle := by
  rw [securityRow, adminRow_eq h]
  simp [known]

end Sys2Proof.Machine

end

section

/-! PROOF. Admin commands (R338, R339): what a command changes before it ends, and the bytes of a page. -/

namespace Sys2Proof.Machine

/-! ### What a command changes before it ends -/

theorem Unanswered.of_slots {k : Nat} {s t : State} (h : Unanswered k s) (e : t.qe.slots = s.qe.slots) : Unanswered k t := by
  obtain ⟨x, hx, rest⟩ := h
  exact ⟨x, (congrArg (smGet k) e).trans hx, rest⟩

theorem slots_setCtrl (s : State) (fn : Nat) (c : Ctrl) : (s.setCtrl fn c).qe.slots = s.qe.slots := rfl

theorem ctrl_setCtrl_same (s : State) (fn : Nat) (c : Ctrl) : (s.setCtrl fn c).ctrl fn = c := smGetD_smPut_same ..

theorem Unanswered.setCtrl {k : Nat} {s : State} (h : Unanswered k s) (fn : Nat) (c : Ctrl) : Unanswered k (s.setCtrl fn c) :=
  h.of_slots (slots_setCtrl ..)

theorem Unanswered.pageRead {k : Nat} {s : State} (h : Unanswered k s) (fn lid : Nat) : Unanswered k (pageRead fn lid s) := h.setCtrl ..

/-- A free value taken leaves the commands. -/
theorem Unanswered.free {k : Nat} {s : State} (h : Unanswered k s) (w : Nat) : Unanswered k (s.free w).2 := h.of_slots rfl

/-- A command that ends after a controller changed shows that controller as it was set. -/
theorem Ends.after_setCtrl {k fn : Nat} {c : Ctrl} {r : Result} {s t : State} (h : Ends k r (s.setCtrl fn c) t) :
    t.ctrl fn = c ∧ t.resultOf k = some r ∧ onlyParts [.regs, .qe] s t := by
  obtain ⟨result, ctrls, moved⟩ := h
  exact ⟨(ctrls fn).trans (ctrl_setCtrl_same ..), result, (moved.on (setCtrl_moves.wide (m := 0x2000001) rfl) rfl).frame (by decide)⟩

/-- A command that ends after a free value was taken. -/
theorem Ends.after_free {k w : Nat} {r : Result} {s t : State} (h : Ends k r (s.free w).2 t) :
    t.freeN = s.freeN + 1 ∧ t.resultOf k = some r ∧ onlyParts [.regs, .qe, .freeN] s t := by
  obtain ⟨result, -, moved⟩ := h
  exact ⟨moved.parts 28 rfl, result, (moved.on (free_moves.wide (m := 0x12000001) rfl) rfl).frame (by decide)⟩

/-! ### Bytes of a page -/

theorem length_le (n v : Nat) : (le n v).length = n := by
  induction n generalizing v with
  | zero => rfl
  | succ n ih => rw [le, List.length_cons, ih]

theorem length_fit (n : Nat) (l : List Byte) : (fit n l).length = n := by
  simp only [fit, zeros, List.length_take, List.length_append, List.length_replicate]
  omega

/-- Fields that lie within a page leave its length. -/
theorem length_layOut {n : Nat} {fields : List (Nat × List Byte)} (h : ∀ f ∈ fields, f.1 + f.2.length ≤ n) : (layOut n fields).length = n := by
  unfold layOut
  have start : (zeros n).length = n := List.length_replicate
  generalize zeros n = l at start
  induction fields generalizing l with
  | nil => exact start
  | cons f fields ih =>
    have fits := h f List.mem_cons_self
    refine ih (fun g hg => h g (List.mem_cons_of_mem _ hg)) _ ?_
    simp only [List.length_append, List.length_take, List.length_drop, start]
    omega

theorem length_smartLog (s : State) (fn : Nat) (ns : Option Nat) (busy : BitVec 128) : (smartLog s fn ns busy).length = 512 := by
  refine length_layOut ?_
  simp [length_le]

/-- The SMART page of the drive or of an attached namespace, of one sector. -/
theorem logPage_smart {s : State} {fn nsid : Nat} (h : nsid = 0 ∨ nsid = 0xFFFFFFFF ∨ (attachedNs s fn nsid).isSome = true)
    (c : Nat) (busy : BitVec 128) :
    ∃ l, logPage s fn nsid 2 c busy = .ok l ∧ l.length = 512 := by
  by_cases drive : nsid = 0 ∨ nsid = 0xFFFFFFFF
  · exact ⟨_, if_pos drive, length_smartLog ..⟩
  · obtain ⟨e, he⟩ := Option.isSome_iff_exists.mp ((or_assoc.mpr h).resolve_left drive)
    refine ⟨_, (if_neg drive).trans ?_, length_smartLog s fn (some e.1) busy⟩
    rw [he]

end Sys2Proof.Machine

end

section

/-! PROOF. Admin commands (R335 to R341, R390, R578): Identify, log pages, features, security receives and standings, row by row. -/

namespace Sys2Proof.Machine

/-! ### The rows of the admin commands -/

theorem exec_identify {s : State} {k : Nat} {x : Slot} {c a b : Nat} {l : List Byte} (ready : s.adminReady k x = true)
    (op : x.cmd.op = .identify c a b) (page : identifyData s x.fn x.cmd.nsid c a b = .ok l) :
    exec (.identify k) s = .next (answerData k 0 l s).settle := by
  show execIdentify k s = _
  rw [execIdentify, adminRow_eq ready, op]
  simp only [page]

theorem exec_identify_fails {s : State} {k : Nat} {x : Slot} {c a b : Nat} {st : NvStatus} (ready : s.adminReady k x = true)
    (op : x.cmd.op = .identify c a b) (page : identifyData s x.fn x.cmd.nsid c a b = .error st) :
    exec (.identify k) s = .next (refuse k st s).settle := by
  show execIdentify k s = _
  rw [execIdentify, adminRow_eq ready, op]
  simp only [page]

theorem exec_getLogPage {s : State} {k : Nat} {x : Slot} {i c n o : Nat} {l : List Byte} (ready : s.adminReady k x = true)
    (op : x.cmd.op = .getLog i c n o) (other : i ≠ 2) (page : logPage s x.fn x.cmd.nsid i c 0 = .ok l) (fits : o < l.length ∧ n ≤ 2 ^ 21) :
    exec (.getLogPage k) s = .next (answerData k 0 (fit n (l.drop o)) (pageRead x.fn i s)).settle := by
  obtain ⟨ho, hn⟩ := fits
  show execGetLogPage k s = _
  rw [execGetLogPage, adminRow_eq ready, op]
  simp only [other, page, Nat.not_le.mpr ho, Nat.not_lt.mpr hn, or_self, if_false]

theorem exec_getLogPage_fails {s : State} {k : Nat} {x : Slot} {i c n o : Nat} {st : NvStatus} (ready : s.adminReady k x = true)
    (op : x.cmd.op = .getLog i c n o) (other : i ≠ 2) (page : logPage s x.fn x.cmd.nsid i c 0 = .error st) :
    exec (.getLogPage k) s = .next (refuse k st s).settle := by
  show execGetLogPage k s = _
  rw [execGetLogPage, adminRow_eq ready, op]
  simp only [other, page, if_false]

/-- The SMART page takes its busy time as a free value. -/
theorem exec_getLogPage_smart {s : State} {k : Nat} {x : Slot} {c n o : Nat} {l : List Byte} (ready : s.adminReady k x = true)
    (op : x.cmd.op = .getLog 2 c n o) (page : logPage (s.free 128).2 x.fn x.cmd.nsid 2 c (s.free 128).1 = .ok l)
    (fits : o < l.length ∧ n ≤ 2 ^ 21) :
    exec (.getLogPage k) s = .next (answerData k 0 (fit n (l.drop o)) (pageRead x.fn 2 (s.free 128).2)).settle := by
  obtain ⟨ho, hn⟩ := fits
  show execGetLogPage k s = _
  rw [execGetLogPage, adminRow_eq ready, op]
  simp only [if_true, page, Nat.not_le.mpr ho, Nat.not_lt.mpr hn, or_self, if_false]

theorem exec_setFeatures_fails {s : State} {k : Nat} {x : Slot} {f arg data : Nat} {st : NvStatus} (ready : s.adminReady k x = true)
    (op : x.cmd.op = .setFeatures f arg data false) (fails : setFeature s x.fn f arg data = .error st) :
    exec (.setFeatures k) s = .next (refuse k st s).settle := by
  show execSetFeatures k s = _
  rw [execSetFeatures, adminRow_eq ready, op]
  simp only [Bool.false_eq_true, if_false, fails]

/-- A feature whose setting changes only the controller. -/
theorem exec_setFeatures_ctrl {s : State} {k : Nat} {x : Slot} {f arg data dw0 : Nat} {c : Ctrl} (ready : s.adminReady k x = true)
    (op : x.cmd.op = .setFeatures f arg data false) (set_ : setFeature s x.fn f arg data = .ok (dw0, s.setCtrl x.fn c)) :
    ∃ u : State, exec (.setFeatures k) s = .next u.settle ∧ u.ctrl x.fn = c ∧ u.resultOf k = some ⟨.success, false, dw0, 0, []⟩ ∧
      onlyParts [.regs, .qe] s u := by
  refine ⟨answerDw0 k dw0 (s.setCtrl x.fn c), ?_, (Ends.finish ((unanswered_of_adminReady ready).setCtrl ..) _).after_setCtrl⟩
  show execSetFeatures k s = _
  rw [execSetFeatures, adminRow_eq ready, op]
  simp only [Bool.false_eq_true, if_false, set_]

/-- The bytes of INFO (R390). -/
def infoData (s : State) (x : Slot) : List Byte := fit 32 (le 2 1 ++ le 2 1024 ++ le 2 (attachedIds s x.fn none).length ++ [0x0F])

/-- The bytes of STATE of an attached namespace (R390). -/
def stateData (s : State) (x : Slot) (j : Nat) (e : NsEntry) : List Byte :=
  fit 32 (le 4 x.cmd.nsid ++ le 4 (keyGen s j).toNat ++ le 8 (((keySelected s j).map (fun r => r.created.toNat)).getD 0) ++
    [BitVec.ofNat 8 (keyState s j), BitVec.ofNat 8 (b2n (e.permits.contains (cntlidOf s x.fn)))])

/-- A summary taken counts the generation (R576). -/
theorem generation_standingsTake (who : Nat) (s : State) : (standingsTake who s).2.evr.generation = s.evr.generation + 1 := by
  show BitVec.ofNat 64 (s.evr.generation.toNat + 1) = _
  apply BitVec.eq_of_toNat_eq
  simp

/-- Queues asked for are granted up to the resources of the function, while it has no I/O queue. -/
theorem setFeature_queues {s : State} {fn arg data : Nat} (sq : bitsOf arg 15 0 ≠ 65535) (cq : bitsOf arg 31 16 ≠ 65535)
    (noSq : (s.ctrl fn).sqs.any (fun q => q.1 != 0) = false) (noCq : (s.ctrl fn).cqs.any (fun q => q.1 != 0) = false) :
    setFeature s fn 0x07 arg data =
      .ok ((min (bitsOf arg 15 0 + 1) (vqOf s fn - 1) - 1) + (min (bitsOf arg 31 16 + 1) (vqOf s fn - 1) - 1) * 65536,
        s.setCtrl fn { s.ctrl fn with nsq := min (bitsOf arg 15 0 + 1) (vqOf s fn - 1), ncq := min (bitsOf arg 31 16 + 1) (vqOf s fn - 1) }) := by
  simp only [setFeature, sq, cq, noSq, noCq, or_self, if_false, Bool.or_self, Bool.false_eq_true]

/-- What a row whose command ends with a result answers. -/
theorem answers_ends {s u : State} {k : Nat} {r : Result} {c : Instr} (row : exec c s = .next u.settle) (ends : Ends k r s u) :
    ∃ u : State, exec c s = .next u.settle ∧ u.resultOf k = some r ∧ onlyParts [.regs, .qe] s u := ⟨u, row, ends.1, ends.only⟩

/-- Settles O30, row by row. -/
theorem adminDataAndFeatureCommandsComplete : Obligations.AdminDataAndFeatureCommandsComplete := by
  refine ⟨?identify, ?identifyFails, ?log, ?logFails, ?smart, ?getSet, ?getNoThreshold, ?getGiven, ?getData, ?getUnknown, ?save, ?writeCache,
    ?queues, ?feats, ?setFails, ?fwDownload, ?fwCommit, ?opcode, ?protocols, ?info, ?state, ?infoLength, ?standings, ?standingsLength⟩
  case identify =>
    intro k x c a b l s ready op page
    exact answers_ends (exec_identify ready op page) (Ends.answerData (unanswered_of_adminReady ready) 0 l)
  case identifyFails =>
    intro k x c a b st s ready op page
    exact answers_ends (exec_identify_fails ready op page) (Ends.finish (unanswered_of_adminReady ready) _)
  case log =>
    intro k x i c n o l s ready op other page fits
    obtain ⟨shown, result, only⟩ := Ends.after_setCtrl (Ends.answerData ((unanswered_of_adminReady ready).pageRead x.fn i) 0 (fit n (l.drop o)))
    refine ⟨_, exec_getLogPage ready op other page fits, result, ?_, only⟩
    rintro rfl
    exact congrArg Ctrl.changed shown
  case logFails =>
    intro k x i c n o st s ready op other page
    exact answers_ends (exec_getLogPage_fails ready op other page) (Ends.finish (unanswered_of_adminReady ready) _)
  case smart =>
    intro k x c n o s ready op reach fits
    obtain ⟨l, page, length⟩ := logPage_smart (s := (s.free 128).2) (fn := x.fn) (nsid := x.cmd.nsid) reach c (s.free 128).1
    obtain ⟨result, -, moved⟩ := Ends.answerData (((unanswered_of_adminReady ready).free 128).pageRead x.fn 2) 0 (fit n (l.drop o))
    refine ⟨_, exec_getLogPage_smart ready op page (length.symm ▸ fits), ?_, ?_, ?_⟩
    · have counter : _ = (pageRead x.fn 2 (s.free 128).2).freeN := moved.parts 28 rfl
      exact counter
    · rw [result, Option.map_some, List.map_singleton, length_fit]
    · exact (moved.on (pageRead_moves.on (free_moves.wide (m := 0x12000001) rfl) rfl) rfl).frame (by decide)
  case getSet =>
    intro k x f arg v s ready op setting
    show execGetFeatures k s = _
    rw [execGetFeatures, adminRow_eq ready, op]
    simp only [List.mem_cons, Prod.mk.injEq, List.not_mem_nil, or_false] at setting
    rcases setting with ⟨rfl, rfl⟩ | ⟨rfl, rfl⟩ | ⟨rfl, rfl⟩ | ⟨rfl, rfl⟩ | ⟨rfl, rfl⟩ | ⟨rfl, rfl⟩ | ⟨rfl, rfl⟩
    all_goals rfl
  case getNoThreshold =>
    intro k x s ready op unset
    have row : exec (.getFeatures k) s = .next (answerDw0 k (s.free 16).1.toNat (s.free 16).2).settle := by
      show execGetFeatures k s = _
      rw [execGetFeatures, adminRow_eq ready, op]
      simp [unset, bitsOf]
    obtain ⟨drawn, result, only⟩ :=
      (Ends.finish ((unanswered_of_adminReady ready).free 16) ⟨.success, false, (s.free 16).1.toNat, 0, []⟩).after_free
    exact ⟨_, row, drawn, congrArg (Option.map Result.status) result, only⟩
  case getGiven =>
    intro k x arg v s ready setting
    show execGetFeatures k s = _
    rcases setting with ⟨op, sensor, ⟨upper, set_⟩ | ⟨lower, set_⟩⟩ | ⟨op, vector, rfl⟩
    · rw [execGetFeatures, adminRow_eq ready, op]
      simp [sensor, upper, set_, answerDw0]
    · rw [execGetFeatures, adminRow_eq ready, op]
      simp [sensor, lower, set_, answerDw0]
    · rw [execGetFeatures, adminRow_eq ready, op]
      simp [Nat.not_le.mpr vector, answerDw0]
  case getData =>
    intro k x f arg d s ready op setting
    show execGetFeatures k s = _
    rw [execGetFeatures, adminRow_eq ready, op]
    rcases setting with ⟨rfl, rfl⟩ | ⟨rfl, odd, rfl⟩
    · rfl
    · simp [odd]
  case getUnknown =>
    intro k x f arg s ready op unknown
    show execGetFeatures k s = _
    rw [execGetFeatures, adminRow_eq ready, op]
    simp only [List.mem_cons, List.not_mem_nil, or_false, not_or] at unknown
    dsimp only
    split
    case h_12 => rfl
    all_goals simp at unknown
  case save =>
    intro k x f arg data s ready op
    show execSetFeatures k s = _
    rw [execSetFeatures, adminRow_eq ready, op]
    rfl
  case writeCache =>
    intro k x arg data s ready op
    obtain ⟨u, row, ctrl, result, only⟩ := exec_setFeatures_ctrl ready op rfl
    refine ⟨u, row, ?_, result, only⟩
    rw [ctrl]
    rfl
  case queues =>
    intro k x arg data s ready op asked none_ _
    obtain ⟨sq, cq⟩ := asked
    obtain ⟨noSq, noCq⟩ := none_
    obtain ⟨u, row, ctrl, result, only⟩ := exec_setFeatures_ctrl ready op (setFeature_queues sq cq noSq noCq)
    refine ⟨u, row, ?_, ?_, only⟩
    · rw [ctrl]
    · rw [result]
      rfl
  case feats =>
    intro k x f v arg data s ready op setting odd
    have set_ : setFeature s x.fn f arg data = .ok (0, s.setCtrl x.fn { s.ctrl x.fn with feats := smPut 0 f v (s.ctrl x.fn).feats }) := by
      simp only [List.mem_cons, Prod.mk.injEq, List.not_mem_nil, or_false] at setting
      rcases setting with ⟨rfl, rfl⟩ | ⟨rfl, rfl⟩ | ⟨rfl, rfl⟩
      · rfl
      · rfl
      · simp [setFeature, odd rfl]
    obtain ⟨u, row, ctrl, result, only⟩ := exec_setFeatures_ctrl ready op set_
    refine ⟨u, row, ?_, result, only⟩
    rw [ctrl]
    exact smGetD_smPut_same ..
  case setFails =>
    intro k x f arg data st s ready op fails
    exact answers_ends (exec_setFeatures_fails ready op fails) (Ends.finish (unanswered_of_adminReady ready) _)
  case fwDownload =>
    intro k x s decoded op
    show execFirmwareImageDownload k s = _
    rw [execFirmwareImageDownload, onDecoded_eq decoded, op]
    rfl
  case fwCommit =>
    intro k x s decoded op
    show execFirmwareCommit k s = _
    rw [execFirmwareCommit, onDecoded_eq decoded, op]
    rfl
  case opcode =>
    intro k x s decoded unusable
    show execInvalidOpcode k s = _
    rw [execInvalidOpcode, onDecoded_eq decoded, unusable]
    rfl
  case protocols =>
    intro k x n s ready op
    have row : exec (.securityProtocolList k) s = .next (answerData k 0 (fit n [0, 0, 0, 0, 0, 0, 0, 2, 0x00, 0xF0]) s).settle := by
      show execSecurityProtocolList k s = _
      rw [execSecurityProtocolList, securityRow_eq ready (op ▸ rfl), op]
      rfl
    exact answers_ends row (Ends.answerData (unanswered_of_adminReady ready) ..)
  case info =>
    intro k x s ready op
    have row : exec (.info k) s = .next (answerData k 0 (infoData s x) s).settle := by
      show execInfo k s = _
      rw [execInfo, securityRow_eq ready (op ▸ rfl), op]
      rfl
    exact answers_ends row (Ends.answerData (unanswered_of_adminReady ready) ..)
  case state =>
    intro k x j e s ready op attached
    have row : exec (.state k) s = .next (answerData k 0 (stateData s x j e) s).settle := by
      show execState k s = _
      rw [execState, securityRow_eq ready (op ▸ rfl), op]
      simp only [attached, ne_eq, not_true, if_false, stateData]
      cases keySelected s j <;> rfl
    exact answers_ends row (Ends.answerData (unanswered_of_adminReady ready) ..)
  case infoLength =>
    intro k x c n s ready op length
    obtain ⟨rfl, length⟩ := length
    show execInfo k s = _
    rw [execInfo, securityRow_eq ready (op ▸ rfl), op]
    simp only [ne_eq, length, not_false_eq_true, if_true]
    rfl
  case standings =>
    rintro k x n s ready op rfl
    have row : exec (.standingsAdmin k) s =
        .next (answerData k ((standingsTake 1 s).2.evr.generation.toNat % 2 ^ 32) (standingsTake 1 s).1 (standingsTake 1 s).2).settle := by
      show execStandingsAdmin k s = _
      rw [execStandingsAdmin, adminRow_eq ready, op]
      rfl
    obtain ⟨result, -, moved⟩ := Ends.answerData (k := k) (s := (standingsTake 1 s).2) ((unanswered_of_adminReady ready).of_slots rfl)
      ((standingsTake 1 s).2.evr.generation.toNat % 2 ^ 32) (standingsTake 1 s).1
    have evr : (answerData k ((standingsTake 1 s).2.evr.generation.toNat % 2 ^ 32) (standingsTake 1 s).1 (standingsTake 1 s).2).evr =
        (standingsTake 1 s).2.evr := moved.parts 8 rfl
    refine ⟨_, row, ?_, ?_, ?_⟩
    · rw [evr, generation_standingsTake]
    · rw [result, generation_standingsTake]
      rfl
    · exact (moved.on (standingsTake_moves.wide (m := 0x2000101) rfl) rfl).frame (by decide)
  case standingsLength =>
    intro k x n s ready op length
    show execStandingsAdmin k s = _
    rw [execStandingsAdmin, adminRow_eq ready, op]
    simp only [ne_eq, length, not_false_eq_true, if_true]
    rfl

end Sys2Proof.Machine

end

section

/-! PROOF. The mode controller (R28, R34, R35, R38, R635): a request taken or rejected, a transition completed, and the pace of the fabric. -/

namespace Sys2Proof.Machine

/-! ### A transition that completes (R38) -/

/-- The state of a transition completed, before the blocks start and end what the change of mode asks for. -/
def completed (row new : Nat) (s : State) : State :=
  let t := (((((s.put F.GLB_MODE_MODE new).put F.GLB_MODE_PREV s.mode).put F.GLB_MODE_STAT_CAUSE row).put F.GLB_MODE_STAT_BUSY 0).put
    F.GLB_MODE_STAT_TARGET 0)
  let u := { t with glb := { t.glb with row := 0, offByT16 := t.glb.offByT16 || row == 16 } }
  (u.irq 19).sysEvent 0x4002 (if new = Mode.degraded ∨ new = Mode.readonly ∨ new = Mode.service then 2 else 0) 0xFFFF (sourceOf R.GLB_MODE)
    [BitVec.ofNat 8 s.mode, BitVec.ofNat 8 new, BitVec.ofNat 8 row, BitVec.ofNat 8 u.ps]

theorem complete_eq (row new : Nat) (s : State) : complete row new s = onMode s.mode new (completed row new s) := rfl

theorem completed_regs (row new : Nat) (s : State) : (completed row new s).regs =
    rput (rput (rput (rput (rput s.regs F.GLB_MODE_MODE new) F.GLB_MODE_PREV s.mode) F.GLB_MODE_STAT_CAUSE row) F.GLB_MODE_STAT_BUSY 0)
      F.GLB_MODE_STAT_TARGET 0 := rfl

theorem mode_lt (s : State) : s.mode < 16 := rget_lt s.regs F.GLB_MODE_MODE

/-- MODE, PREV and CAUSE show the transition; BUSY and TARGET are clear. -/
theorem completed_fields {row new : Nat} (hr : row < 256) (hn : new < 16) (s : State) :
    (completed row new s).get F.GLB_MODE_MODE = new ∧ (completed row new s).get F.GLB_MODE_PREV = s.mode ∧
      (completed row new s).get F.GLB_MODE_STAT_CAUSE = row ∧ (completed row new s).get F.GLB_MODE_STAT_BUSY = 0 ∧
      (completed row new s).get F.GLB_MODE_STAT_TARGET = 0 := by
  simp (disch := decide) only [get_eq, completed_regs, rget_rput_same, rget_rput_bits]
  exact ⟨Nat.mod_eq_of_lt hn, Nat.mod_eq_of_lt (mode_lt s), Nat.mod_eq_of_lt hr, rfl, rfl⟩

theorem regsKept_completed (row new : Nat) (s : State) : regsKept [R.GLB_MODE, R.GLB_MODE_STAT] s (completed row new s) := by
  have puts : regsKept [R.GLB_MODE, R.GLB_MODE_STAT] s
      (((((s.put F.GLB_MODE_MODE new).put F.GLB_MODE_PREV s.mode).put F.GLB_MODE_STAT_CAUSE row).put F.GLB_MODE_STAT_BUSY 0).put
        F.GLB_MODE_STAT_TARGET 0) :=
    ((((regsKept_put (by decide) _).trans (regsKept_put (by decide) _)).trans (regsKept_put (by decide) _)).trans (regsKept_put (by decide) _)).trans
      (regsKept_put (by decide) _)
  exact puts

theorem completed_moves (row new : Nat) (s : State) : Moves 0x911 s (completed row new s) := by
  have puts : Moves 0x11 s
      (((((s.put F.GLB_MODE_MODE new).put F.GLB_MODE_PREV s.mode).put F.GLB_MODE_STAT_CAUSE row).put F.GLB_MODE_STAT_BUSY 0).put
        F.GLB_MODE_STAT_TARGET 0) :=
    (put_moves.step (put_moves.step (put_moves.step (put_moves.step put_moves)))).wide rfl
  exact sysEvent_moves.on (irq_moves.on (mk_glb.on (puts.wide (m := 0x911) rfl) rfl) rfl) rfl

/-- The mode controller's source is pending once a transition has completed (R441). -/
theorem irq_completed (row new : Nat) (s : State) : (completed row new s).ccx.irq.getLsbD 19 = true := by
  show (s.ccx.irq ||| (BitVec.ofNat 256 1 <<< 19)).getLsbD 19 = true
  simp

/-! ### Requests (R35) -/

/-- A request is a write of GLB_MODE_REQ, which no image and no lane holds up. -/
theorem exec_modeRequest (target : BitVec 4) (s : State) :
    exec (.modeRequest target) s = .next ((modeRequestEff target.toNat s).settle.answer .done) := by
  have place : locate R.GLB_MODE_REQ = some (.glb, 0, R.GLB_MODE_REQ) := by decide
  have early : earlyWrite s R.GLB_MODE_REQ = false := by simp [earlyWrite, place]
  have busy : laneBusy s R.GLB_MODE_REQ = false := laneBusy_eq_false place (by decide) (by decide)
  show Host.Outcome.next (s.write _ _ _ _) = _
  simp [State.write, early, busy]

/-- SERVICE may be asked for in every mode but OFF, CONFIGURE and SERVICE (T13). -/
theorem modeRequestEff_service {s : State} (off : s.mode ≠ Mode.off) (configure : s.mode ≠ Mode.configure) (service : s.mode ≠ Mode.service) :
    modeRequestEff Mode.service s = complete 13 Mode.service s := by
  unfold modeRequestEff
  rw [if_neg (fun h => absurd h.1 (by decide)), if_neg (fun h => absurd h.1 (by decide)), if_pos ⟨rfl, off, configure, service⟩]

/-- In OFF and in SERVICE no request matches a row (R35). -/
theorem modeRequestEff_rejected {s : State} (h : s.mode = Mode.off ∨ s.mode = Mode.service) (target : Nat) :
    modeRequestEff target s = (s.put F.GLB_MODE_STAT_REJ 1).put F.GLB_MODE_STAT_REJ_TARGET target := by
  have only : ∀ m ∈ [Mode.configure, Mode.active, Mode.degraded], s.mode ≠ m := by
    rcases h with h | h <;> rw [h] <;> decide
  have configure : s.mode ≠ Mode.configure := only _ (by decide)
  have active : s.mode ≠ Mode.active := only _ (by decide)
  have degraded : s.mode ≠ Mode.degraded := only _ (by decide)
  unfold modeRequestEff
  rw [if_neg fun c => configure c.2.1, if_neg fun c => configure c.2.1, if_neg ?_, if_neg fun c => c.2.1.elim active degraded]
  rintro ⟨-, notOff, -, notService⟩
  exact h.elim notOff notService

/-! ### A transition that waited (R635) -/

theorem transitions_none {s : State} (h : transition s = none) (k : Nat) : transitions k s = s := by
  cases k with
  | zero => rfl
  | succ k => simp [transitions, h]

/-- The wait of T07 for IDLE_READY ends. -/
theorem powerTransition_idleReady {s : State} (active : s.mode = Mode.active) (ps : s.ps = 3) (busy : s.on F.GLB_MODE_STAT_BUSY = true)
    (target : s.get F.GLB_MODE_STAT_TARGET = Mode.idleReady) (may : mayComplete s 7 Mode.idleReady = true) :
    powerTransition s = complete 7 Mode.idleReady s := by
  have want : modeOfState s.ps = Mode.idleReady := by rw [ps]; rfl
  have begun : begin_ 7 Mode.idleReady s = s := by simp [begin_, busy, target]
  have row : (if s.mode < Mode.idleReady then 7 else 8) = 7 := by rw [active]; rfl
  have moves : ¬ Mode.idleReady = s.mode := by rw [active]; decide
  have notStandby : s.mode ≠ Mode.standby := by rw [active]; decide
  simp only [powerTransition, want, row, begun, may, if_true, if_neg notStandby, if_neg moves, if_pos (Or.inl active)]

/-! ### The pace of the fabric (R28) -/

/-- A pace that begins no excursion below 256 is shown. -/
theorem exec_fabricPaceUpdate_quiet {pace : BitVec 16} {s : State} (h : 256 ≤ pace.toNat ∨ s.glb.paceLow = true) :
    exec (.fabricPaceUpdate pace) s =
      .next ({ s.put F.GLB_FABRIC_PACE_PACE pace.toNat with glb := { s.glb with paceLow := decide (pace.toNat < 256) } }) := by
  have known : (decide (pace.toNat < 256) && !s.glb.paceLow) = false := by
    rcases h with h | h <;> simp [h]
  show execFabricPaceUpdate pace s = _
  simp only [execFabricPaceUpdate, (put_rest ..).2.2.2.1, known, Bool.false_eq_true, if_false]

/-- The state in which an excursion below 256 begins: PACE shown and the excursion recorded. -/
def paceFell (pace : BitVec 16) (s : State) : State :=
  { (s.put F.GLB_FABRIC_PACE_PACE pace.toNat).sysEvent 0x4004 2 0xFFFF (sourceOf R.GLB_FABRIC_PACE) (le 2 pace.toNat) with
    glb := { s.glb with paceLow := true } }

theorem paceFell_moves (pace : BitVec 16) (s : State) : Moves 0x111 s (paceFell pace s) :=
  mk_glb.on (sysEvent_moves.on (put_moves.wide (m := 0x111) rfl) rfl) rfl

theorem exec_fabricPaceUpdate_low {pace : BitVec 16} {s : State} (h : pace.toNat < 256) (first : s.glb.paceLow = false) :
    exec (.fabricPaceUpdate pace) s = .next (paceFell pace s) := by
  show execFabricPaceUpdate pace s = _
  simp only [execFabricPaceUpdate, (put_rest ..).2.2.2.1, (sysEvent_rest ..).2.2.2.2.1, first, h, decide_true, Bool.not_false, Bool.and_self, if_true]
  rfl

/-- Settles O5. -/
theorem modeControllerTakesAndCompletesTransitions : Obligations.ModeControllerTakesAndCompletesTransitions := by
  refine ⟨?service, ?rejected, ?waited, ?quiet, ?low⟩
  case service =>
    intro s off configure service
    obtain ⟨mode, prev, cause, busy, target⟩ := completed_fields (row := 13) (new := Mode.service) (by decide) (by decide) s
    refine ⟨completed 13 Mode.service s, ?_, mode, prev, cause, busy, target, irq_completed .., regsKept_completed _ _ _,
      (completed_moves ..).frame (by decide)⟩
    rw [exec_modeRequest, ← complete_eq, ← modeRequestEff_service off configure service]
    rfl
  case rejected =>
    intro target s h
    rw [exec_modeRequest, modeRequestEff_rejected h]
  case waited =>
    intro s heads none_ pwr power settled active ps busy target may
    obtain ⟨mode, prev, cause, idle, clear⟩ := completed_fields (row := 7) (new := Mode.idleReady) (by decide) (by decide) s
    rw [active] at prev
    refine ⟨completed 7 Mode.idleReady s, ?_, mode, prev, cause, idle, clear, regsKept_completed _ _ _, (completed_moves ..).frame (by decide)⟩
    show Host.Outcome.next s.settle = _
    rw [State.settle, transitions_none none_, heads]
    simp only [pwr, power, Bool.not_true, Bool.or_self, Bool.false_eq_true, if_false]
    rw [settled, powerTransition_idleReady active ps busy target may, complete_eq, active]
  case quiet =>
    intro pace s h
    exact exec_fabricPaceUpdate_quiet h
  case low =>
    intro pace s h first
    refine ⟨_, exec_fabricPaceUpdate_low h first, ?_, rfl, rfl, ?_, (paceFell_moves pace s).frame (by decide)⟩
    · refine (rget_rput_same s.regs F.GLB_FABRIC_PACE_PACE pace.toNat (by decide)).trans ?_
      exact Nat.mod_eq_of_lt pace.isLt
    · exact regsKept_put (s := s) (f := F.GLB_FABRIC_PACE_PACE) (by decide) pace.toNat

end Sys2Proof.Machine

end

section

/-! PROOF. What settling leaves as it was (R34 to R38): nothing but the mode controller writes the row of a transition. -/

namespace Sys2Proof.Machine

/-- The row of the transition in progress is one that the mode controller writes: none, T07 or T08. -/
def RowWritten (s : State) : Prop := s.glb.row = 0 ∨ s.glb.row = 7 ∨ s.glb.row = 8

/-- From `s` to `t` the mode controller wrote the row, or neither the state of GLB nor that of QE changed. -/
def Rests (s t : State) : Prop := RowWritten t ∨ (t.glb = s.glb ∧ t.qe = s.qe)

theorem Rests.refl (s : State) : Rests s s := .inr ⟨rfl, rfl⟩

theorem Rests.trans {s t u : State} (h : Rests s t) (g : Rests t u) : Rests s u := by
  rcases g with row | ⟨glb, qe⟩
  · exact .inl row
  · rcases h with row | ⟨glb', qe'⟩
    · exact .inl (by rwa [RowWritten, glb])
    · exact .inr ⟨glb.trans glb', qe.trans qe'⟩

/-- An operation whose parts are neither GLB nor QE. -/
theorem Rests.of_moves {m : Nat} {s t : State} (h : Moves m s t) (glb : m.testBit 4 = false) (qe : m.testBit 25 = false) : Rests s t :=
  .inr ⟨h.parts 4 glb, h.parts 25 qe⟩

/-- A row once written stays one of the mode controller's. -/
theorem Rests.rowWritten {s t : State} (h : Rests s t) (row : RowWritten s) : RowWritten t := by
  rcases h with row' | ⟨glb, -⟩
  · exact row'
  · rwa [RowWritten, glb]

theorem row_complete (row new : Nat) (s : State) : (complete row new s).glb.row = 0 := by
  have kept : (complete row new s).glb = (completed row new s).glb := onMode_moves.parts 4 rfl
  rw [kept]
  rfl

theorem beginTransition_cases (row target : Nat) (s : State) : begin_ row target s = s ∨ (begin_ row target s).glb.row = row := by
  unfold begin_
  split
  · exact .inl rfl
  · exact .inr rfl

theorem withdraw_cases (s : State) : withdraw s = s ∨ (withdraw s).glb.row = 0 := by
  unfold withdraw
  split
  · exact .inr rfl
  · exact .inl rfl

/-- A transition that is taken completes (R34). -/
theorem row_transition {s t : State} (h : transition s = some t) : t.glb.row = 0 := by
  have completes : ∀ {row new : Nat}, some (complete row new s) = some t → t.glb.row = 0 := fun e => Option.some.inj e ▸ row_complete ..
  unfold transition at h
  dsimp only at h
  repeat' split at h
  all_goals first | exact completes h | cases h

theorem transitions_cases (k : Nat) (s : State) : transitions k s = s ∨ (transitions k s).glb.row = 0 := by
  induction k generalizing s with
  | zero => exact .inl rfl
  | succ k ih =>
    cases taken : transition s with
    | none => exact .inl (transitions_none taken _)
    | some t =>
      simp only [transitions, taken]
      rcases ih t with same | row
      · exact .inr (same.symm ▸ row_transition taken)
      · exact .inr row

theorem transitions_rests (k : Nat) (s : State) : Rests s (transitions k s) := by
  rcases transitions_cases k s with same | row
  · exact same.symm ▸ .refl s
  · exact .inl (.inl row)

theorem powerTransition_rests (s : State) : Rests s (powerTransition s) := by
  have completes (row new : Nat) (t : State) : Rests s (complete row new t) := .inl (.inl (row_complete row new t))
  have begins {row : Nat} (hr : row = 7 ∨ row = 8) (target : Nat) : Rests s (begin_ row target s) := by
    rcases beginTransition_cases row target s with same | begun
    · exact same.symm ▸ .refl s
    · exact .inl (.inr (begun.symm ▸ hr))
  unfold powerTransition
  dsimp only
  split
  · split
    · exact completes ..
    · exact .refl s
  · split
    · split
      · rcases withdraw_cases s with same | row
        · exact same.symm ▸ .refl s
        · exact .inl (.inl row)
      · have row : (if s.mode < modeOfState s.ps then 7 else 8) = 7 ∨ (if s.mode < modeOfState s.ps then 7 else 8) = 8 := by split <;> simp
        generalize (if s.mode < modeOfState s.ps then 7 else 8) = r at row
        split
        · exact completes ..
        · exact begins row _
    · exact .refl s

/-- What settling does once the conditions have had their transitions. -/
theorem settle_tail_rests (s : State) :
    Rests s (if !s.on F.GLB_UNIT_OK0_PWR || s.on F.GLB_MODE_COND_POWER_FAIL then s else transitions 2 (powerTransition (pwrSettle s))) := by
  split
  · exact .refl s
  · exact ((Rests.of_moves pwrSettle_moves rfl rfl).trans (powerTransition_rests _)).trans (transitions_rests ..)

theorem brakeIfQuiet_loadHeads_rests (s : State) : Rests s (brakeIfQuiet (loadHeads s)) :=
  (Rests.of_moves loadHeads_moves rfl rfl).trans (.of_moves brakeIfQuiet_moves rfl rfl)

theorem settle_rests (s : State) : Rests s s.settle :=
  ((transitions_rests 6 s).trans (brakeIfQuiet_loadHeads_rests _)).trans (settle_tail_rests _)

/-- A chip without PWR, in a configuration reset and with no brake due, settles by transitions alone. -/
theorem settle_eq_self_or_rowWritten {s : State} (reset : s.glb.cfgReset ≠ .none) (brake : s.spm.brakeDue = none)
    (pwr : s.on F.GLB_UNIT_OK0_PWR = false) : s.settle = s ∨ RowWritten s.settle := by
  rcases transitions_cases 6 s with same | row
  · left
    have heads : loadHeads s = s := by simp [loadHeads, reset]
    have quiet : brakeIfQuiet s = s := by simp [brakeIfQuiet, brake]
    simp [State.settle, same, heads, quiet, pwr]
  · right
    exact ((brakeIfQuiet_loadHeads_rests _).trans (settle_tail_rests _)).rowWritten (.inl row)

end Sys2Proof.Machine

end

section

/-! PROOF. Units and their loss (R42): the loss of the last control core is a loss of the data-service set, which the set judged before it is not. -/

namespace Sys2Proof.Machine

/-- An image without sections. -/
def bareImage : Image := ⟨0, 1, 0, 8192, 1, 0xFFFFFFFF, 7, 0, 128, 8064, true, 0, 0, true, 0, 0, []⟩

/-- A chip in SERVICE, in a configuration reset, that has lost every control core but hart 0, with UNIT_LOST clear. The row 5 is one that the mode
controller does not write, so that it tells whether a transition has been taken. -/
def lastHart : State :=
  { State.reset with
    cfg := { State.reset.cfg with image := some bareImage }
    glb := { State.reset.glb with lost0 := 0xFE, row := 5, cfgReset := .waiting false } }.put F.GLB_MODE_MODE Mode.service

/-- The loss of hart 0 sets SET_LOST and not UNIT_LOST, and takes no transition. -/
theorem loseUnit0_lastHart : (lastHart.loseUnit0 0).glb.row = 5 ∧ (lastHart.loseUnit0 0).on F.GLB_MODE_COND_UNIT_LOST = false := by
  decide +kernel

/-- Refutes O51: with every other control core lost, hart 0 is the last of its line in the data-service set, so that its loss sets SET_LOST (R42). The
statement judges the set before the loss, finds it complete, and claims UNIT_LOST, which stays clear. -/
theorem not_unitsLinksAndPortsReport : ¬ Obligations.UnitsLinksAndPortsReport := by
  rintro ⟨-, -, -, -, -, lose, -⟩
  obtain ⟨u, settled, glb, ok0, -, unitLost, only⟩ := lose 0 lastHart (by decide +kernel) (by decide +kernel) (.inl (by decide)) (by decide)
  have claimed : u.on F.GLB_MODE_COND_UNIT_LOST = true := unitLost (by decide +kernel)
  obtain ⟨row, clear⟩ := loseUnit0_lastHart
  rw [settled] at row clear
  have reset : u.glb.cfgReset ≠ .none := by rw [glb]; decide +kernel
  have brake : u.spm.brakeDue = none := by
    rw [show u.spm = lastHart.spm from only .spm (by decide)]
    decide +kernel
  have pwr : u.on F.GLB_UNIT_OK0_PWR = false := by
    rw [State.on, State.get, show F.GLB_UNIT_OK0_PWR.addr = R.GLB_UNIT_OK0 from rfl, ok0]
    decide +kernel
  rcases settle_eq_self_or_rowWritten reset brake pwr with same | written
  · rw [same, claimed] at clear
    cases clear
  · rcases written with h | h | h <;> rw [row] at h <;> cases h

end Sys2Proof.Machine

end

section

/-! PROOF. The rewrite of an interrupted sector (R146, R149): the sources of a write inhibit are six. -/

namespace Sys2Proof.Machine

/-- A sector cut off whose source is none of the six: its number is the place of SQUELCH beside the INH_NOW bits. -/
def strayCut : Sector where
  write := true
  forced := false
  spillSum := false
  head := 0
  zone := 0
  track := 5
  index := 2
  lba := 1000
  lbaValid := true
  meta_ := 0
  seq := 7
  band := 3
  over_ := 0
  gpos := 0
  limited := false
  slot := none
  verify := false
  sampled := false
  misses := 0
  revs := 0
  source := 15
  badWedge := false
  data := []
  cnt := 0
  front := none
  part := 0

/-- Lane 0 with that sector cut off and SQUELCH set, no inhibit source in force, its preamp ready for a write. -/
def strayLane : State :=
  let s := ((State.reset.put (F.LNn_STAT_PLL_LOCK 0) 1).put (F.LNn_WR_STAT_SQUELCH 0) 1).setNow 2
  s.onLn 0 (fun l =>
    { l with
      cut := [strayCut]
      pre := ⟨2, 0⟩
      lastSent := (writeSettings s 0 strayCut).foldl (fun m v => smSet v.1.toNat v.2 m) [] })

/-- The sector is not written again. -/
theorem sent_interruptedRewrite_strayLane : (afterOutcomes (interruptedRewriteEff 0 strayLane)).sent = [] := by decide +kernel

/-- Refutes O11: an interrupted sector whose source is no write-inhibit source. The statement does not bound the source, and that of 15 stands at the
place of SQUELCH, so that with no source in force the sector still waits for it to clear, and nothing leaves on the write pair. -/
theorem not_writePathVerifiesInhibitsAndRewrites : ¬ Obligations.WritePathVerifiesInhibitsAndRewrites := by
  rintro ⟨-, -, -, -, -, -, rewrite, -⟩
  obtain ⟨u, answered, -, -, -, -, ⟨p, w, sent⟩, -⟩ :=
    rewrite 0 strayCut [] strayLane (by decide +kernel) (by decide +kernel) (by decide +kernel) (by decide +kernel)
  have same : afterOutcomes (interruptedRewriteEff 0 strayLane) = afterOutcomes u := Host.Outcome.next.inj answered
  have grows : u.sent <+: (afterOutcomes u).sent := afterOutcomes_moves.sent
  rw [← same, sent_interruptedRewrite_strayLane, sent] at grows
  simp at grows

end Sys2Proof.Machine

end

section

/-! PROOF. Changes of a namespace (R341, R346): the controllers told of one complete the async event request that they hold. -/

namespace Sys2Proof.Machine

/-- A command of function 0 in slot 0 that attaches namespace 0 to its own controller. -/
def attachSlot : Slot :=
  { fn := 0, sq := 0, cq := 0, cmd := ⟨.nsAttach [1], 5, 1, 0, 1, false, false, true, true⟩, state := .running, fon := some 0, reads := [],
    writes := [], data := [], fetched := false, moved := false, admitted := false, failed := none, snap := none, result := none, dropped := false,
    waits := false, mirror := false, failLba := none, at_ := 0, sprint := false, hazWait := false }

/-- A namespace that no controller is attached to. -/
def looseNs : NsEntry := ⟨1, 0, 0, 0, 8, 1, [], []⟩

/-- A chip in SPINUP that holds that command, while controller 0 lists its slot as an async event request. The row 5 is one that the mode controller
does not write, so that it tells whether a transition has been taken. -/
def attachListed : State :=
  let s := (((State.reset.put F.GLB_MODE_MODE Mode.spinup).put F.GLB_UNIT_OK1_QE 1).put F.QE_CTL_ENABLE 1).setCtrl 0 { ctrlNew true with aer := [0] }
  { s with
    glb := { s.glb with row := 5 }
    bnd := { s.bnd with ns := [(0, looseNs)] }
    qe := { s.qe with slots := [(0, attachSlot)] } }

theorem attachListed_ready : attachListed.adminReady 0 attachSlot = true := by decide +kernel

/-- Refutes O31: a NAMESPACE_ATTACH in a slot that its controller also lists as an async event request. The attachment is told to the controller, so
that the slot ends with the event (R341, R346) and not with success alone. -/
theorem not_namespaceAndEraseCommandsComplete : ¬ Obligations.NamespaceAndEraseCommandsComplete := by
  rintro ⟨-, -, -, -, attach, -⟩
  obtain ⟨u, answered, -, -, success, -⟩ := attach 0 attachSlot 0 looseNs [1] attachListed attachListed_ready rfl rfl (by decide +kernel)
    (by decide +kernel) (by decide) (by decide +kernel) (by decide +kernel)
  have row : execNamespaceAttach 0 attachListed = _ := adminRow_eq attachListed_ready _
  have same := Host.Outcome.next.inj (answered.symm.trans row)
  have shown : u.settle.glb.row = 5 ∧ u.settle.resultOf 0 = some ⟨.success, false, 2 + 4 * 65536, 0, []⟩ := by
    rw [same]
    decide +kernel
  obtain ⟨untaken, event⟩ := shown
  rcases settle_rests u with written | ⟨-, qe⟩
  · rcases written with h | h | h <;> rw [untaken] at h <;> cases h
  · have result : u.settle.resultOf 0 = u.resultOf 0 := congrArg (fun q : Qe => (smGet 0 q.slots).bind (fun x => x.result)) qe
    rw [result, success] at event
    exact absurd event (by decide)

end Sys2Proof.Machine

end

section

/-! PROOF. Lanes, sequencers and engines: what each of them reads after a write, and staged tallies (R110, R574). -/

namespace Sys2Proof.Machine

/-! ### Reads after writes -/

theorem ln_setLn (s : State) (n m : Lane) (l : Ln) : (s.setLn n l).ln m = if m = n then l else s.ln m := get_setV ..

theorem ln_setLn_same (s : State) (n : Lane) (l : Ln) : (s.setLn n l).ln n = l := (ln_setLn ..).trans (if_pos rfl)

theorem ln_setLn_other {n m : Lane} (h : m ≠ n) (s : State) (l : Ln) : (s.setLn n l).ln m = s.ln m := (ln_setLn ..).trans (if_neg h)

theorem ln_onLn_same (s : State) (n : Lane) (f : Ln → Ln) : (s.onLn n f).ln n = f (s.ln n) := ln_setLn_same ..

theorem ln_onLn_other {n m : Lane} (h : m ≠ n) (s : State) (f : Ln → Ln) : (s.onLn n f).ln m = s.ln m := ln_setLn_other h ..

theorem ms_onMs_same (s : State) (n : Lane) (f : Ms → Ms) : (s.onMs n f).ms n = f (s.ms n) := (get_setV ..).trans (if_pos rfl)

theorem ms_onMs_other {n m : Lane} (h : m ≠ n) (s : State) (f : Ms → Ms) : (s.onMs n f).ms m = s.ms m := (get_setV ..).trans (if_neg h)

theorem engine_setEngine_same (s : State) (k : Fin 12) (e : Engine) : (s.setEngine k e).engine k = e := (get_setV ..).trans (if_pos rfl)

theorem engine_setEngine_other {k i : Fin 12} (h : i ≠ k) (s : State) (e : Engine) : (s.setEngine k e).engine i = s.engine i :=
  (get_setV ..).trans (if_neg h)

/-! ### Frames -/

/-- A field of a register that an operation keeps. -/
theorem regsKept.get {l : List Nat} {s t : State} (h : regsKept l s t) {f : Fld} (hf : f.addr ∉ l) : t.get f = s.get f := by
  rw [get_eq, get_eq, rget, rget, ← reg_eq, ← reg_eq, h _ hf]

theorem regsKept.mono {l k : List Nat} {s t : State} (h : regsKept l s t) (sub : l ⊆ k) : regsKept k s t := fun a ha => h a (fun hl => ha (sub hl))

theorem regsKept.of_regs {l : List Nat} {s t : State} (h : t.regs = s.regs) : regsKept l s t := fun a _ => by rw [reg_eq, h, ← reg_eq]

/-- An operation that leaves the registers keeps them. -/
theorem Moves.regsKept {m : Nat} {l : List Nat} {s t : State} (h : Moves m s t) (c : m.testBit 0 = false) : regsKept l s t := .of_regs (h.parts 0 c)

/-- A list of operations keeps what each of them keeps. -/
theorem forEach_keeps {α β : Type} (p : State → β) {f : α → State → State} (h : ∀ a t, p (f a t) = p t) (l : List α) (s : State) :
    p (forEach l f s) = p s := by
  induction l generalizing s with
  | nil => rfl
  | cons a l ih => exact (ih (f a s)).trans (h a s)

theorem forEach_regsKept {α : Type} {k : List Nat} {f : α → State → State} (h : ∀ a t, regsKept k t (f a t)) (l : List α) (s : State) :
    regsKept k s (forEach l f s) := by
  induction l generalizing s with
  | nil => exact fun _ _ => rfl
  | cons a l ih => exact (h a s).trans (ih (f a s))

/-! ### Staged tallies (R574) -/

/-- A tally whose entry is not written at once is staged. -/
theorem tally_staged {e : Nat} (h : tlyAtOnce e = false) (d : Nat) (s : State) :
    s.tally e d = ({ s with tly := { s.tly with staged := smPut 0 e (smGetD 0 e s.tly.staged + d) s.tly.staged } }).put F.TLY_STAT_STAGED
      (smPut 0 e (smGetD 0 e s.tly.staged + d) s.tly.staged).length := by
  simp [State.tally, h]

theorem tally_staged_moves {e : Nat} (h : tlyAtOnce e = false) (d : Nat) (s : State) : Moves 0x201 s (s.tally e d) := by
  rw [tally_staged h]
  exact put_moves.on (mk_tly.wide rfl) rfl

theorem regsKept_tally {e : Nat} (h : tlyAtOnce e = false) (d : Nat) (s : State) : regsKept [R.TLY_STAT] s (s.tally e d) := by
  intro a ha
  rw [tally_staged h, reg_put_other (fun e : a = R.TLY_STAT => ha (e ▸ List.mem_singleton_self _))]
  rfl

/-- The entries of a lane and the histograms are staged. -/
theorem tlyAtOnce_ge {e : Nat} (h : 75 ≤ e) : tlyAtOnce e = false := by
  unfold tlyAtOnce
  simp
  omega

theorem tlyAtOnce_lane (n : Lane) : tlyAtOnce (24 + n) = false ∧ tlyAtOnce (28 + n) = false := by
  revert n
  decide

theorem histo_staged_moves (h b : Nat) (s : State) : Moves 0x201 s (s.histo h b) := tally_staged_moves (tlyAtOnce_ge (by omega)) ..

end Sys2Proof.Machine

end

section

/-! PROOF. Decoder tokens (R111 to R113, R127): what showing and levelling them leave. -/

namespace Sys2Proof.Machine

/-! ### The ledger shown -/

theorem forEach_cons {α : Type} (a : α) (l : List α) (f : α → State → State) (s : State) : forEach (a :: l) f s = forEach l f (f a s) := rfl

/-- An engine shown in LDP_ENG_BUSY. -/
def showEngine (k : Fin 12) (s : State) : State := s.putB (F.LDP_ENG_BUSY_BUSY.bit k) (!(s.engine k).jobs.isEmpty)

theorem engine_showEngine (i k : Fin 12) (s : State) : (showEngine i s).engine k = s.engine k :=
  congrArg (fun l => l.engines.get k) ((putB_moves (s := s)).parts 16 rfl)

/-- The tokens of each place shown in LDP_TOK_STAT. -/
def showCounts (s : State) : State :=
  let s := (s.put F.LDP_TOK_STAT_LOST (tokensIn s .lost)).put F.LDP_TOK_STAT_FREE (tokensIn s .free)
  let s := (s.put F.LDP_TOK_STAT_LANE0 (tokensIn s (.lane 0))).put F.LDP_TOK_STAT_LANE1 (tokensIn s (.lane 1))
  (s.put F.LDP_TOK_STAT_LANE2 (tokensIn s (.lane 2))).put F.LDP_TOK_STAT_LANE3 (tokensIn s (.lane 3))

theorem showTokens_eq (s : State) : showTokens s = forEach engineIds showEngine (showCounts s) := rfl

theorem ldp_showTokens (s : State) : (showTokens s).ldp = s.ldp := showTokens_moves.parts 16 rfl

theorem engine_showTokens (s : State) (k : Fin 12) : (showTokens s).engine k = s.engine k := by rw [State.engine, ldp_showTokens, State.engine]

theorem regsKept_showCounts (s : State) : regsKept [R.LDP_TOK_STAT] s (showCounts s) :=
  ((((regsKept_put (by decide) _).trans (regsKept_put (by decide) _)).trans (regsKept_put (by decide) _)).trans (regsKept_put (by decide) _)).trans
    ((regsKept_put (by decide) _).trans (regsKept_put (by decide) _))

theorem regsKept_showEngine (k : Fin 12) (s : State) : regsKept [R.LDP_ENG_BUSY] s (showEngine k s) := by
  intro a ha
  exact reg_put_other (f := F.LDP_ENG_BUSY_BUSY.bit k) (fun e : a = R.LDP_ENG_BUSY => ha (e ▸ List.mem_singleton_self _)) s _

theorem regsKept_showTokens (s : State) : regsKept [R.LDP_TOK_STAT, R.LDP_ENG_BUSY] s (showTokens s) :=
  ((regsKept_showCounts s).mono (by simp)).trans ((forEach_regsKept regsKept_showEngine engineIds _).mono (by simp))

/-- The bit of another engine stays. -/
theorem get_showEngine_other {k i : Fin 12} (h : k ≠ i) (s : State) :
    (showEngine i s).get (F.LDP_ENG_BUSY_BUSY.bit k) = s.get (F.LDP_ENG_BUSY_BUSY.bit k) := by
  have apart : ∀ k i : Fin 12, k ≠ i → (F.LDP_ENG_BUSY_BUSY.bit k).lo + (F.LDP_ENG_BUSY_BUSY.bit k).width ≤ (F.LDP_ENG_BUSY_BUSY.bit i).lo ∨
      (F.LDP_ENG_BUSY_BUSY.bit i).lo + (F.LDP_ENG_BUSY_BUSY.bit i).width ≤ (F.LDP_ENG_BUSY_BUSY.bit k).lo := by decide
  rw [showEngine, get_eq, putB_regs, rget_rput_bits _ _ (apart k i h), get_eq]

theorem get_showEngine_same (k : Fin 12) (s : State) :
    (showEngine k s).get (F.LDP_ENG_BUSY_BUSY.bit k) = b2n (!(s.engine k).jobs.isEmpty) := by
  have place : ∀ k : Fin 12, (F.LDP_ENG_BUSY_BUSY.bit k).lo + (F.LDP_ENG_BUSY_BUSY.bit k).width ≤ 32 ∧ (F.LDP_ENG_BUSY_BUSY.bit k).width = 1 := by
    decide
  obtain ⟨fits, one⟩ := place k
  rw [showEngine, get_eq, putB_regs, rget_rput_same _ _ _ fits, one]
  cases (s.engine k).jobs.isEmpty <;> rfl

theorem get_showEngines_of_notMem {k : Fin 12} {l : List (Fin 12)} (h : k ∉ l) (s : State) :
    (forEach l showEngine s).get (F.LDP_ENG_BUSY_BUSY.bit k) = s.get (F.LDP_ENG_BUSY_BUSY.bit k) := by
  induction l generalizing s with
  | nil => rfl
  | cons i l ih =>
    obtain ⟨apart, notMem⟩ : k ≠ i ∧ k ∉ l := by simpa using h
    rw [forEach_cons, ih notMem, get_showEngine_other apart]

/-- An engine of the list shows whether it has a codeword. -/
theorem get_showEngines_of_mem {k : Fin 12} {l : List (Fin 12)} (h : k ∈ l) (s : State) :
    (forEach l showEngine s).get (F.LDP_ENG_BUSY_BUSY.bit k) = b2n (!(s.engine k).jobs.isEmpty) := by
  induction l generalizing s with
  | nil => cases h
  | cons i l ih =>
    by_cases mem : k ∈ l
    · rw [forEach_cons, ih mem, engine_showEngine]
    · obtain rfl : k = i := (List.mem_cons.mp h).resolve_right mem
      rw [forEach_cons, get_showEngines_of_notMem mem, get_showEngine_same]

theorem get_showTokens_busy (s : State) (k : Fin 12) :
    (showTokens s).get (F.LDP_ENG_BUSY_BUSY.bit k) = b2n (!(s.engine k).jobs.isEmpty) :=
  get_showEngines_of_mem (by revert k; decide) (showCounts s)

/-! ### Tokens levelled -/

/-- The codewords of the pool: those of each engine, those that wait, and those handed to BUF. -/
def codewords (s : State) : (Fin 12 → List DecodeJob) × List DecodeJob × List Handed := (fun i => (s.engine i).jobs, s.ldp.waiting, s.ldp.handed)

theorem codewords_of_ldp {s t : State} (h : t.ldp = s.ldp) : codewords t = codewords s := by simp only [codewords, State.engine, h]

/-- A token that moves leaves the codewords. -/
theorem codewords_setToken (s : State) (k : Fin 12) (t : Token) : codewords (s.setEngine k { s.engine k with token := t }) = codewords s := by
  have jobs : (fun i => ((s.setEngine k { s.engine k with token := t }).engine i).jobs) = fun i => (s.engine i).jobs := by
    funext i
    by_cases h : i = k
    · rw [h, engine_setEngine_same]
    · rw [engine_setEngine_other h]
  exact Prod.ext jobs rfl

theorem codewords_returnToken (k : Fin 12) (s : State) : codewords (returnToken k s) = codewords s := by
  unfold returnToken
  dsimp only
  split
  next n _ =>
    generalize (if inService s n then tokenFloor s else 0) = floor
    split
    · exact codewords_setToken ..
    · rfl
  next => rfl

theorem codewords_raiseToFloor (n : Lane) (k : Fin 12) (s : State) : codewords (raiseToFloor n k s) = codewords s := by
  unfold raiseToFloor
  dsimp only
  split
  · exact codewords_setToken ..
  · rfl

theorem codewords_levelTokens (s : State) : codewords (levelTokens s) = codewords s :=
  calc codewords (levelTokens s)
      = codewords (forEach lanes (fun n s => forEach engineIds (raiseToFloor n) s) (forEach engineIds returnToken s)) :=
        codewords_of_ldp (ldp_showTokens _)
    _ = codewords (forEach engineIds returnToken s) :=
        forEach_keeps codewords (fun n t => forEach_keeps codewords (codewords_raiseToFloor n) engineIds t) lanes _
    _ = codewords s := forEach_keeps codewords codewords_returnToken engineIds s

/-- An engine left without a codeword, where none waits, stays so, and nothing is handed to BUF. -/
theorem codewords_freeBuffer {k : Fin 12} {n : Lane} {s : State} (none_ : s.ldp.waiting = []) : codewords (freeBuffer k n s) = codewords s := by
  unfold freeBuffer
  simp only [none_, List.find?_nil]
  generalize (if inService s n then tokenFloor s else 0) = floor
  split
  · exact codewords_levelTokens s
  · exact codewords_of_ldp (ldp_showTokens s)

theorem handed_freeBuffer (k : Fin 12) (n : Lane) (s : State) : (freeBuffer k n s).ldp.handed = s.ldp.handed := by
  unfold freeBuffer
  dsimp only
  generalize (if inService s n then tokenFloor s else 0) = floor
  split
  · exact congrArg (fun c => c.2.2) (codewords_levelTokens s)
  · split
    · rw [ldp_showTokens]
      rfl
    · rw [ldp_showTokens]

end Sys2Proof.Machine

end

section

/-! PROOF. Requests for decoder tokens (R30, R105, R113): what is asked, who takes it, who waits, and the overflow of a soft-output FIFO. -/

namespace Sys2Proof.Machine

/-! ### What the loaded image fixes -/

theorem sectorGroup_congr {s t : State} (h : t.cfg = s.cfg) (d : Sector) : sectorGroup t d = sectorGroup s d :=
  congrArg (fun c => sectorGroup { s with cfg := c } d) h

/-- The LLRs of a codeword follow from its gate's settings, its wave and the formats of the image. -/
theorem llrsOf_congr {s t : State} (h : t.cfg = s.cfg) (n : Lane) (kind : DecodeFor) (d : Sector) (w : Wave) :
    llrsOf t n kind d w = llrsOf s n kind d w :=
  congrArg (fun c => llrsOf { s with cfg := c } n kind d w) h

/-! ### A codeword that asks -/

theorem heldEngine_congr {s t : State} (h : t.ldp = s.ldp) (n : Lane) : heldEngine t n = heldEngine s n :=
  congrArg (fun l => heldEngine { s with ldp := l } n) h

/-- Whether a job may start follows from its lane and kind, the engines and RTY_MAX. -/
theorem mayDecode_congr {s t : State} (ldp : t.ldp = s.ldp) (regs : t.regs = s.regs) {i j : DecodeJob} (lane : i.lane = j.lane) (kind : i.kind = j.kind) :
    mayDecode t i = mayDecode s j := by
  have job : mayDecode t i = mayDecode t j := congrArg₂ (fun n k => mayDecode t { j with lane := n, kind := k }) lane kind
  have state : mayDecode t j = mayDecode s j := congrArg₂ (fun l r => mayDecode { s with ldp := l, regs := r } j) ldp regs
  exact job.trans state

/-- A job that no engine takes waits, and GRANT_WAIT counts it (R113). -/
theorem requestEngine_waits {j : DecodeJob} {s : State} (h : heldEngine s j.lane = none ∨ mayDecode s j = false) :
    requestEngine j s = ({ s with ldp := { s.ldp with waiting := s.ldp.waiting ++ [j] } }).count F.LDP_CNT0_GRANT_WAIT := by
  unfold requestEngine
  rcases h with held | may
  · simp [held]
  · simp [may]

/-- A job that may start is taken by the held engine with a free buffer (R113). -/
theorem requestEngine_taken {j : DecodeJob} {k : Fin 12} {s : State} (held : heldEngine s j.lane = some k) (may : mayDecode s j = true) :
    requestEngine j s = showTokens (s.setEngine k { s.engine k with jobs := (s.engine k).jobs ++ [j] }) := by
  simp [requestEngine, held, may]

/-- A lane whose next codeword has been taken from the gates' list, its loops tracking (R88, R105). -/
def asking (n : Lane) (reads : List Sector) (s : State) : State := loopsTracking n (s.setLn n { s.ln n with reads := reads })

theorem asking_moves (n : Lane) (reads : List Sector) (s : State) : Moves 0x2000 s (asking n reads s) :=
  loopsTracking_moves.step setLn_moves

theorem reads_loopsTracking (n : Lane) (s : State) : ((loopsTracking n s).ln n).reads = (s.ln n).reads := by
  rw [loopsTracking, ln_onLn_same]

theorem awaiting_loopsTracking (n : Lane) (s : State) : ((loopsTracking n s).ln n).awaiting = (s.ln n).awaiting := by
  rw [loopsTracking, ln_onLn_same]

theorem ln_loopsTracking_other {n m : Lane} (h : m ≠ n) (s : State) : (loopsTracking n s).ln m = s.ln m := ln_onLn_other h ..

theorem reads_asking (n : Lane) (reads : List Sector) (s : State) : ((asking n reads s).ln n).reads = reads := by
  rw [asking, reads_loopsTracking, ln_setLn_same]

theorem ln_asking_other {n m : Lane} (h : m ≠ n) (reads : List Sector) (s : State) : (asking n reads s).ln m = s.ln m := by
  rw [asking, ln_loopsTracking_other h, ln_setLn_other h]

theorem det_asking (n : Lane) (reads : List Sector) (s : State) : ((asking n reads s).ln n).det = (s.ln n).det := by
  rw [asking, loopsTracking, ln_onLn_same, ln_setLn_same]

theorem ln_of_lns {s t : State} (h : t.lns = s.lns) (n : Lane) : t.ln n = s.ln n := congrArg (·.get n) h

/-- A codeword that is read asks first in the order of its gates. -/
theorem nextCodeword_read {n : Lane} {kind : DecodeFor} {d : Sector} {rest : List Sector} {s : State} (read : kind ≠ .verify)
    (reads : (s.ln n).reads = d :: rest) : nextCodeword n kind s = some (d, s.setLn n { s.ln n with reads := rest }) := by
  cases kind with
  | verify => exact absurd rfl read
  | otf => simp [nextCodeword, reads]
  | retry => simp [nextCodeword, reads]

/-- With room in the soft-output FIFO, and neither spilled nor combined, a codeword asks with its own LLRs (R30, R105). -/
theorem exec_tokenRequest {n : Lane} {kind : DecodeFor} {fifo : Nat} {d : Sector} {s x : State} (wave : Wave)
    (next : nextCodeword n kind s = some (d, x)) (lns : Moves 0x2000 s x) (room : fifo ≤ 9600)
    (plain : kind = .retry → ((loopsTracking n x).ln n).det.getLsbD 2 = false ∧ d.spillSum = false) :
    exec (.tokenRequest n kind fifo wave) s =
      .next (requestEngine ⟨n, kind, d, llrsOf s n kind d wave, s.now⟩ (loopsTracking n x)) := by
  have moved : Moves 0x2000 s (loopsTracking n x) := loopsTracking_moves.step lns
  have llrs : llrsOf (loopsTracking n x) n kind d wave = llrsOf s n kind d wave := llrsOf_congr (moved.parts 5 rfl) ..
  have now : (loopsTracking n x).now = s.now := by
    have regs : (loopsTracking n x).regs = s.regs := moved.parts 0 rfl
    simp only [State.now, State.pair, reg_eq, regs]
  have unspilled : (if kind = .retry then spillRead n d (llrsOf s n kind d wave) (loopsTracking n x) else loopsTracking n x) = loopsTracking n x := by
    split
    next retry =>
      have off : (!((loopsTracking n x).ln n).det.getLsbD 2) = true := by rw [(plain retry).1]; rfl
      exact if_pos off
    next => rfl
  have alone : ¬ (kind = .retry ∧ d.spillSum = true) := fun h => by simp [(plain h.1).2] at h
  show execTokenRequest n kind fifo wave s = _
  simp only [execTokenRequest, next, Nat.not_lt.mpr room, if_false, llrs, unspilled, alone, List.isEmpty_nil, if_true, now]

/-- The same of a codeword that is read, whose lane spills nothing and whose descriptor asks for no sum. -/
theorem exec_tokenRequest_read {n : Lane} {kind : DecodeFor} {d : Sector} {rest : List Sector} {fifo : Nat} (wave : Wave) {s : State}
    (read : kind ≠ .verify) (reads : (s.ln n).reads = d :: rest) (room : fifo ≤ 9600)
    (plain : kind = .retry → (s.ln n).det.getLsbD 2 = false ∧ d.spillSum = false) :
    exec (.tokenRequest n kind fifo wave) s = .next (requestEngine ⟨n, kind, d, llrsOf s n kind d wave, s.now⟩ (asking n rest s)) :=
  exec_tokenRequest wave (nextCodeword_read read reads) setLn_moves room
    (fun retry => ⟨(congrArg (·.getLsbD 2) (det_asking n rest s)).trans (plain retry).1, (plain retry).2⟩)

/-- What an operation on lanes does not change, counting GRANT_WAIT for it. -/
theorem waits_frame {j : DecodeJob} {s t : State} (moved : Moves 0x2000 s t) (h : heldEngine s j.lane = none ∨ mayDecode s j = false) :
    (requestEngine j t).ldp = { s.ldp with waiting := s.ldp.waiting ++ [j] } ∧
      (requestEngine j t).get F.LDP_CNT0_GRANT_WAIT = min (s.get F.LDP_CNT0_GRANT_WAIT + 1) (2 ^ F.LDP_CNT0_GRANT_WAIT.width - 1) ∧
      (requestEngine j t).lns = t.lns ∧
      regsKept [R.LDP_CNT0] s (requestEngine j t) ∧ onlyParts [.regs, .lns, .ldp] s (requestEngine j t) := by
  have ldp : t.ldp = s.ldp := moved.parts 16 rfl
  have regs : t.regs = s.regs := moved.parts 0 rfl
  have waits : heldEngine t j.lane = none ∨ mayDecode t j = false := by
    rwa [heldEngine_congr ldp, mayDecode_congr ldp regs rfl rfl]
  have frame : Moves 0x12001 s (requestEngine j t) := requestEngine_moves.on (moved.wide rfl) rfl
  refine ⟨?_, ?_, requestEngine_moves.parts 13 rfl, ?_, frame.frame (by decide)⟩
  · rw [requestEngine_waits waits, ← ldp]
    rfl
  · rw [requestEngine_waits waits, get_count (by decide)]
    exact congrArg (fun r => min (rget r F.LDP_CNT0_GRANT_WAIT + 1) (2 ^ F.LDP_CNT0_GRANT_WAIT.width - 1)) regs
  · rw [requestEngine_waits waits]
    exact (regsKept.of_regs regs).trans (regsKept_count _ F.LDP_CNT0_GRANT_WAIT 1)

/-- A codeword that is read and finds no engine waits (R113). -/
theorem tokenRequest_read_waits {n : Lane} {kind : DecodeFor} {d : Sector} {rest : List Sector} {fifo : Nat} (wave : Wave) {s : State}
    (read : kind ≠ .verify) (reads : (s.ln n).reads = d :: rest) (room : fifo ≤ 9600)
    (plain : kind = .retry → (s.ln n).det.getLsbD 2 = false ∧ d.spillSum = false)
    (waits : heldEngine s n = none ∨ mayDecode s ⟨n, kind, d, [], 0⟩ = false) :
    ∃ t : State, exec (.tokenRequest n kind fifo wave) s = .next t ∧
      (t.ln n).reads = rest ∧
      t.ldp = { s.ldp with waiting := s.ldp.waiting ++ [⟨n, kind, d, llrsOf s n kind d wave, s.now⟩] } ∧
      t.get F.LDP_CNT0_GRANT_WAIT = min (s.get F.LDP_CNT0_GRANT_WAIT + 1) (2 ^ F.LDP_CNT0_GRANT_WAIT.width - 1) ∧
      (∀ m, m ≠ n → t.ln m = s.ln m) ∧
      regsKept [R.LDP_CNT0] s t ∧
      onlyParts [.regs, .lns, .ldp] s t := by
  have may : mayDecode s ⟨n, kind, d, llrsOf s n kind d wave, s.now⟩ = mayDecode s ⟨n, kind, d, [], 0⟩ := mayDecode_congr rfl rfl rfl rfl
  obtain ⟨ldp, count, lns, regs, frame⟩ :=
    waits_frame (j := ⟨n, kind, d, llrsOf s n kind d wave, s.now⟩) (asking_moves n rest s) (by rwa [may])
  refine ⟨_, exec_tokenRequest_read wave read reads room plain, ?_, ldp, count, ?_, regs, frame⟩
  · rw [ln_of_lns lns, reads_asking]
  · intro m hm
    rw [ln_of_lns lns, ln_asking_other hm]

/-- A codeword to be verified that finds no engine waits (R113, R140). -/
theorem tokenRequest_verify_waits {n : Lane} {d : Sector} {fifo : Nat} (wave : Wave) {s : State} (next : nextCodeword n .verify s = some (d, s))
    (room : fifo ≤ 9600) (held : heldEngine s n = none) :
    ∃ t : State, exec (.tokenRequest n .verify fifo wave) s = .next t ∧
      t.ldp = { s.ldp with waiting := s.ldp.waiting ++ [⟨n, .verify, d, llrsOf s n .verify d wave, s.now⟩] } ∧
      t.get F.LDP_CNT0_GRANT_WAIT = min (s.get F.LDP_CNT0_GRANT_WAIT + 1) (2 ^ F.LDP_CNT0_GRANT_WAIT.width - 1) ∧
      (t.ln n).awaiting = (s.ln n).awaiting ∧
      regsKept [R.LDP_CNT0] s t ∧
      onlyParts [.regs, .lns, .ldp] s t := by
  obtain ⟨ldp, count, lns, regs, frame⟩ :=
    waits_frame (j := ⟨n, .verify, d, llrsOf s n .verify d wave, s.now⟩) (loopsTracking_moves (a0 := n)) (.inl held)
  exact ⟨_, exec_tokenRequest wave next .refl room nofun, ldp, count, by rw [ln_of_lns lns, awaiting_loopsTracking], regs, frame⟩

/-- What a held engine that takes a codeword shows, after an operation on lanes. -/
theorem taken_frame {j : DecodeJob} {k : Fin 12} {s t : State} (moved : Moves 0x2000 s t) (held : heldEngine s j.lane = some k)
    (may : mayDecode s j = true) :
    (requestEngine j t).engine k = { s.engine k with jobs := (s.engine k).jobs ++ [j] } ∧
      (∀ i, i ≠ k → (requestEngine j t).engine i = s.engine i) ∧
      (requestEngine j t).ldp.waiting = s.ldp.waiting ∧
      (requestEngine j t).get (F.LDP_ENG_BUSY_BUSY.bit k) = 1 ∧
      (requestEngine j t).lns = t.lns ∧
      regsKept [R.LDP_TOK_STAT, R.LDP_ENG_BUSY] s (requestEngine j t) ∧
      onlyParts [.regs, .lns, .ldp] s (requestEngine j t) := by
  have ldp : t.ldp = s.ldp := moved.parts 16 rfl
  have regs : t.regs = s.regs := moved.parts 0 rfl
  have engine (i : Fin 12) : t.engine i = s.engine i := congrArg (·.engines.get i) ldp
  have taken : requestEngine j t = showTokens (t.setEngine k { s.engine k with jobs := (s.engine k).jobs ++ [j] }) := by
    rw [← engine k]
    exact requestEngine_taken ((heldEngine_congr ldp _).trans held) ((mayDecode_congr ldp regs rfl rfl).trans may)
  have frame : Moves 0x12001 s (requestEngine j t) := requestEngine_moves.on (moved.wide rfl) rfl
  have set (e : Engine) : regsKept [R.LDP_TOK_STAT, R.LDP_ENG_BUSY] s (t.setEngine k e) := .of_regs regs
  have waiting (e : Engine) : (t.setEngine k e).ldp.waiting = t.ldp.waiting := rfl
  refine ⟨?_, ?_, ?_, ?_, requestEngine_moves.parts 13 rfl, ?_, frame.frame (by decide)⟩
  · rw [taken, engine_showTokens, engine_setEngine_same]
  · intro i hi
    rw [taken, engine_showTokens, engine_setEngine_other hi, engine]
  · rw [taken, ldp_showTokens, waiting, ldp]
  · rw [taken, get_showTokens_busy, engine_setEngine_same]
    simp [b2n]
  · rw [taken]
    exact (set _).trans (regsKept_showTokens _)

/-- A codeword that is read is taken by a held engine with a free buffer (R113). -/
theorem tokenRequest_read_taken {n : Lane} {k : Fin 12} {kind : DecodeFor} {d : Sector} {rest : List Sector} {fifo : Nat} (wave : Wave) {s : State}
    (read : kind ≠ .verify) (reads : (s.ln n).reads = d :: rest) (room : fifo ≤ 9600)
    (plain : kind = .retry → (s.ln n).det.getLsbD 2 = false ∧ d.spillSum = false)
    (held : heldEngine s n = some k) (may : mayDecode s ⟨n, kind, d, [], 0⟩ = true) :
    ∃ t : State, exec (.tokenRequest n kind fifo wave) s = .next t ∧
      (t.ln n).reads = rest ∧
      t.engine k = { s.engine k with jobs := (s.engine k).jobs ++ [⟨n, kind, d, llrsOf s n kind d wave, s.now⟩] } ∧
      (∀ i, i ≠ k → t.engine i = s.engine i) ∧
      t.ldp.waiting = s.ldp.waiting ∧
      t.get (F.LDP_ENG_BUSY_BUSY.bit k) = 1 ∧
      regsKept [R.LDP_TOK_STAT, R.LDP_ENG_BUSY] s t ∧
      onlyParts [.regs, .lns, .ldp] s t := by
  have may' : mayDecode s ⟨n, kind, d, llrsOf s n kind d wave, s.now⟩ = true := may
  obtain ⟨engine, others, waiting, busy, lns, regs, frame⟩ :=
    taken_frame (j := ⟨n, kind, d, llrsOf s n kind d wave, s.now⟩) (asking_moves n rest s) held may'
  exact ⟨_, exec_tokenRequest_read wave read reads room plain, by rw [ln_of_lns lns, reads_asking], engine, others, waiting, busy, regs, frame⟩

/-! ### An overflow of the soft-output FIFO (R30) -/

/-- Beyond 9,600 entries the FIFO overflows, and the codeword asks nothing. -/
theorem exec_tokenRequest_overflow {n : Lane} {kind : DecodeFor} {fifo : Nat} {d : Sector} {s x : State} (wave : Wave)
    (next : nextCodeword n kind s = some (d, x)) (full : 9600 < fifo) :
    exec (.tokenRequest n kind fifo wave) s = .next (softOverflow n kind d (loopsTracking n x)) := by
  show execTokenRequest n kind fifo wave s = _
  simp only [execTokenRequest, next, full, if_true]

/-- An event posted to the sequencer stands behind those that it holds. -/
theorem events_msPost (n : Lane) (code hd w5 w6 : Nat) (s : State) :
    ((msPost n code hd w5 w6 s).ms n).events = (s.ms n).events ++ [msEvent code n hd w5 w6] := by
  unfold msPost
  dsimp only
  rw [ms_onMs_same]
  split <;> rfl

/-- A read codeword lost to an overflow sets its flag, counts a slip and tells the sequencer (R30, R233). -/
theorem softOverflow_otf (n : Lane) (d : Sector) (s : State) :
    (softOverflow n .otf d s).get (F.GLB_FIFO_OVF_LN_SOFT_OVF.bit n) = 1 ∧
      (softOverflow n .otf d s).get (F.MSn_CNT_SLIPS n) = min (s.get (F.MSn_CNT_SLIPS n) + 1) (2 ^ (F.MSn_CNT_SLIPS n).width - 1) ∧
      ((softOverflow n .otf d s).ms n).events = (s.ms n).events ++ [msEvent 0x07 n d.head.toNat d.track d.index] := by
  have bits : ∀ n : Lane, (F.GLB_FIFO_OVF_LN_SOFT_OVF.bit n).lo + (F.GLB_FIFO_OVF_LN_SOFT_OVF.bit n).width ≤ 32 ∧
      (F.GLB_FIFO_OVF_LN_SOFT_OVF.bit n).width = 1 ∧ (F.GLB_FIFO_OVF_LN_SOFT_OVF.bit n).addr ∉ [(F.MSn_CNT_SLIPS n).addr] ∧
      (F.GLB_FIFO_OVF_LN_SOFT_OVF.bit n).addr ∉ [R.TLY_STAT] ∧ (F.MSn_CNT_SLIPS n).lo + (F.MSn_CNT_SLIPS n).width ≤ 32 ∧
      (F.MSn_CNT_SLIPS n).addr ∉ [(F.GLB_FIFO_OVF_LN_SOFT_OVF.bit n).addr] ∧ (F.MSn_CNT_SLIPS n).addr ∉ [R.TLY_STAT] := by decide
  obtain ⟨fits, one, apart, apartTly, slipsFit, slipsApart, slipsTly⟩ := bits n
  obtain ⟨-, staged⟩ := tlyAtOnce_lane n
  have posted : (softOverflow n .otf d s).regs =
      (((s.flag (F.GLB_FIFO_OVF_LN_SOFT_OVF.bit n)).count (F.MSn_CNT_SLIPS n)).tally (28 + n)).regs := msPost_moves.parts 0 rfl
  have tally := regsKept_tally staged 1 ((s.flag (F.GLB_FIFO_OVF_LN_SOFT_OVF.bit n)).count (F.MSn_CNT_SLIPS n))
  have count := regsKept_count (s.flag (F.GLB_FIFO_OVF_LN_SOFT_OVF.bit n)) (F.MSn_CNT_SLIPS n) 1
  have flag := regsKept_flag s (F.GLB_FIFO_OVF_LN_SOFT_OVF.bit n)
  have mss : ((((s.flag (F.GLB_FIFO_OVF_LN_SOFT_OVF.bit n)).count (F.MSn_CNT_SLIPS n)).tally (28 + n)).ms n) = s.ms n :=
    congrArg (·.get n) (((tally_staged_moves staged 1 _).on (count_moves.on (flag_moves.wide (m := 0xB01) rfl) rfl) rfl).parts 14 rfl)
  refine ⟨?_, ?_, ?_⟩
  · rw [get_eq, posted, ← get_eq, tally.get apartTly, count.get apart, get_flag fits, one]
    rfl
  · rw [get_eq, posted, ← get_eq, tally.get slipsTly, get_count slipsFit, flag.get slipsApart]
  · exact (events_msPost ..).trans (congrArg (·.events ++ _) mss)

/-- A read codeword that finds its FIFO full is lost and asks for no engine (R30). -/
theorem tokenRequest_overflow {n : Lane} {d : Sector} {rest : List Sector} {fifo : Nat} (wave : Wave) {s : State}
    (reads : (s.ln n).reads = d :: rest) (full : 9600 < fifo) :
    ∃ t : State, exec (.tokenRequest n .otf fifo wave) s = .next t ∧
      (t.ln n).reads = rest ∧
      t.get (F.GLB_FIFO_OVF_LN_SOFT_OVF.bit n) = 1 ∧
      t.get (F.MSn_CNT_SLIPS n) = min (s.get (F.MSn_CNT_SLIPS n) + 1) (2 ^ (F.MSn_CNT_SLIPS n).width - 1) ∧
      (t.ms n).events = (s.ms n).events ++ [msEvent 0x07 n d.head.toNat d.track d.index] ∧
      t.ldp = s.ldp := by
  have moved := asking_moves n rest s
  have lost : Moves 0x4B01 (asking n rest s) (softOverflow n .otf d (asking n rest s)) := slipSector_moves.on (fifoFlag_moves.wide rfl) rfl
  obtain ⟨flag, slips, events⟩ := softOverflow_otf n d (asking n rest s)
  have regs : (asking n rest s).regs = s.regs := moved.parts 0 rfl
  refine ⟨_, exec_tokenRequest_overflow wave (nextCodeword_read nofun reads) full, ?_, flag, ?_, ?_, ?_⟩
  · exact (congrArg Ln.reads (ln_of_lns (lost.parts 13 rfl) n)).trans (reads_asking n rest s)
  · exact slips.trans (congrArg (fun r => min (rget r (F.MSn_CNT_SLIPS n) + 1) (2 ^ (F.MSn_CNT_SLIPS n).width - 1)) regs)
  · exact events.trans (congrArg (fun m => (m.get n).events ++ _) (moved.parts 14 rfl))
  · exact (moved.parts 16 rfl).trans (lost.parts 16 rfl)

end Sys2Proof.Machine

end

section

/-! PROOF. Grants of decoder tokens (R113) and the end of a decode (R108, R110, R113, R141). -/

namespace Sys2Proof.Machine

/-! ### The request that a token serves (R113) -/

/-- Of the request kept so far and another, the one that a token serves first. -/
def served (s : State) (best : Option DecodeJob) (j : DecodeJob) : Option DecodeJob :=
  match best with
  | none => some j
  | some b => if j.asked < b.asked ∨ (j.asked = b.asked ∧ pointerDistance s j.lane < pointerDistance s b.lane) then some j else some b

theorem nextGranted_eq (s : State) : nextGranted s = (s.ldp.waiting.filter (mayDecode s)).foldl (served s) none := rfl

/-- Of two requests the older is kept. -/
theorem served_some (s : State) (b j : DecodeJob) :
    ∃ c, served s (some b) j = some c ∧ (c = b ∨ c = j) ∧ c.asked ≤ b.asked ∧ c.asked ≤ j.asked := by
  unfold served
  dsimp only
  split
  next first =>
    refine ⟨j, rfl, .inr rfl, ?_, BitVec.le_refl _⟩
    rcases first with younger | ⟨same, -⟩
    · exact BitVec.le_of_lt younger
    · exact same ▸ BitVec.le_refl _
  next first => exact ⟨b, rfl, .inl rfl, BitVec.le_refl _, BitVec.not_lt.mp (fun h => first (.inl h))⟩

theorem foldl_served_some (s : State) (l : List DecodeJob) (b : DecodeJob) :
    ∃ j, l.foldl (served s) (some b) = some j ∧ (j = b ∨ j ∈ l) ∧ j.asked ≤ b.asked ∧ ∀ i ∈ l, j.asked ≤ i.asked := by
  induction l generalizing b with
  | nil => exact ⟨b, rfl, .inl rfl, BitVec.le_refl _, fun i h => absurd h List.not_mem_nil⟩
  | cons a l ih =>
    obtain ⟨c, kept, which, leB, leA⟩ := served_some s b a
    obtain ⟨j, last, mem, leC, all⟩ := ih c
    refine ⟨j, by rw [List.foldl_cons, kept, last], ?_, BitVec.le_trans leC leB, ?_⟩
    · rcases mem with rfl | mem
      · rcases which with rfl | rfl
        · exact .inl rfl
        · exact .inr List.mem_cons_self
      · exact .inr (List.mem_cons_of_mem _ mem)
    · exact List.forall_mem_cons.mpr ⟨BitVec.le_trans leC leA, all⟩

/-- Of a list of requests the oldest is served. -/
theorem oldest_of_foldl_served {s : State} {l : List DecodeJob} {j : DecodeJob} (h : l.foldl (served s) none = some j) :
    j ∈ l ∧ ∀ i ∈ l, j.asked ≤ i.asked := by
  cases l with
  | nil => cases h
  | cons a l =>
    obtain ⟨i, last, mem, le, all⟩ := foldl_served_some s l a
    obtain rfl : i = j := Option.some.inj (last.symm.trans h)
    exact ⟨List.mem_cons.mpr mem, List.forall_mem_cons.mpr ⟨le, all⟩⟩

/-- Where every request may start, the token goes to the oldest. -/
theorem nextGranted_oldest {s : State} {j : DecodeJob} (may : ∀ i ∈ s.ldp.waiting, mayDecode s i = true) (next : nextGranted s = some j) :
    j ∈ s.ldp.waiting ∧ ∀ i ∈ s.ldp.waiting, j.asked ≤ i.asked := by
  rw [nextGranted_eq, List.filter_eq_self.mpr may] at next
  exact oldest_of_foldl_served next

/-- The state in which a token has gone to a request, before the ledger shows it. -/
def tokenGranted (k : Fin 12) (j : DecodeJob) (s : State) : State :=
  let s := { s with ldp := { s.ldp with waiting := s.ldp.waiting.erase j } }.setEngine k ⟨.lane j.lane, [j]⟩
  { s with ldp := { s.ldp with pointer := (j.lane.val + 1) % 4 } }

theorem tokenGranted_moves (k : Fin 12) (j : DecodeJob) (s : State) : Moves 0x10000 s (tokenGranted k j s) := mk_ldp.step (setEngine_moves.step mk_ldp)

theorem engine_tokenGranted (k i : Fin 12) (j : DecodeJob) (s : State) : (tokenGranted k j s).engine i = if i = k then ⟨.lane j.lane, [j]⟩ else s.engine i :=
  get_setV ..

theorem exec_tokenGrant {k : Fin 12} {j : DecodeJob} {s : State} (free : engineIds.find? (fun k => decide ((s.engine k).token = .free)) = some k)
    (next : nextGranted s = some j) : exec .tokenGrant s = .next (showTokens (tokenGranted k j s)) := by
  show execTokenGrant s = _
  simp only [execTokenGrant, free, next, tokenGranted]

/-- A token that is granted leaves the pool with the request it serves. -/
theorem tokenGrant_grants {k : Fin 12} {j : DecodeJob} {s : State} (free : engineIds.find? (fun k => decide ((s.engine k).token = .free)) = some k)
    (next : nextGranted s = some j) :
    ∃ t : State, exec .tokenGrant s = .next t ∧
      t.engine k = ⟨.lane j.lane, [j]⟩ ∧
      t.ldp.waiting = s.ldp.waiting.erase j ∧
      t.ldp.pointer = (j.lane.val + 1) % 4 ∧
      (∀ i, i ≠ k → t.engine i = s.engine i) ∧
      regsKept [R.LDP_TOK_STAT, R.LDP_ENG_BUSY] s t ∧
      onlyParts [.regs, .ldp] s t := by
  have frame : Moves 0x10001 s (showTokens (tokenGranted k j s)) := showTokens_moves.on ((tokenGranted_moves k j s).wide rfl) rfl
  refine ⟨_, exec_tokenGrant free next, ?_, ?_, ?_, ?_, ?_, frame.frame (by decide)⟩
  · rw [engine_showTokens, engine_tokenGranted, if_pos rfl]
  · rw [ldp_showTokens]
    rfl
  · rw [ldp_showTokens]
    rfl
  · intro i hi
    rw [engine_showTokens, engine_tokenGranted, if_neg hi]
  · exact ((tokenGranted_moves k j s).regsKept rfl).trans (regsKept_showTokens _)

/-! ### The end of a decode -/

/-- An engine whose oldest codeword has left it and whose buffer is free (R112, R113). -/
def freed (k : Fin 12) (n : Lane) (rest : List DecodeJob) (s : State) : State := freeBuffer k n (s.setEngine k { s.engine k with jobs := rest })

theorem freed_moves (k : Fin 12) (n : Lane) (rest : List DecodeJob) (s : State) : Moves 0x10001 s (freed k n rest s) :=
  freeBuffer_moves.on (setEngine_moves.wide rfl) rfl

/-- A codeword whose decode ends leaves its engine, and then its outcome takes effect (R108). -/
theorem decodeDoneEff_cons {k : Fin 12} {j : DecodeJob} {rest : List DecodeJob} {s : State} (r : Decoded) (jobs : (s.engine k).jobs = j :: rest) :
    decodeDoneEff k r s =
      (match j.kind with | .otf => otfEnd j.lane j.sector j.llrs | .retry => retryEnd j.lane j.sector | .verify => verifyEnd j.lane j.sector)
        (outcomeOf s j (decodeBudget s j) r) r (freed k j.lane rest s) := by
  unfold decodeDoneEff
  simp only [jobs]
  cases j.kind <;> rfl

/-- An engine without a codeword ends no decode. -/
theorem decodeDoneEff_nil {k : Fin 12} {s : State} (r : Decoded) (jobs : (s.engine k).jobs = []) : decodeDoneEff k r s = s := by
  unfold decodeDoneEff
  simp only [jobs]

theorem exec_decodeDone (k : Fin 12) (r : Decoded) (s : State) : exec (.decodeDone k r) s = .next (afterOutcomes (decodeDoneEff k r s)) := rfl

theorem jobs_freed {k : Fin 12} {n : Lane} {rest : List DecodeJob} {s : State} (waiting : s.ldp.waiting = []) : ((freed k n rest s).engine k).jobs = rest := by
  have kept : codewords (freed k n rest s) = codewords (s.setEngine k { s.engine k with jobs := rest }) := codewords_freeBuffer waiting
  exact (congrArg (fun c => c.1 k) kept).trans (congrArg Engine.jobs (engine_setEngine_same ..))

theorem handed_freed (k : Fin 12) (n : Lane) (rest : List DecodeJob) (s : State) : (freed k n rest s).ldp.handed = s.ldp.handed := handed_freeBuffer ..

/-- The counts of a verify decode that ended. -/
def verifyCounted (n : Lane) (code : Nat) (s : State) : State := if code = 0 then s.tally (24 + n) else countFailure n code s

theorem verifyCounted_moves (n : Lane) (code : Nat) (s : State) : Moves 0x201 s (verifyCounted n code s) := by
  unfold verifyCounted
  split
  · exact tally_staged_moves (tlyAtOnce_lane n).1 1 s
  · exact countFailure_moves.wide rfl

/-- A verify decode whose sector still has an outcome leaves it for the comparison (R141). -/
theorem verifyEnd_compared {n : Lane} {d : Sector} {s : State} (code : Nat) (r : Decoded) (outcome : (s.ln n).lost.any (fun e => e.same d) = false) :
    verifyEnd n d code r s =
      (verifyCounted n code s).onLn n (fun l => { l with compared := l.compared ++ [(d, decide (code = 0), r.info)] }) := by
  have lns : (verifyCounted n code s).ln n = s.ln n := ln_of_lns ((verifyCounted_moves n code s).parts 13 rfl) n
  have still : ((verifyCounted n code s).ln n).lost.any (fun e => e.same d) = false := by rw [lns, outcome]
  exact if_neg (by rw [verifyCounted] at still; rw [still]; exact Bool.false_ne_true)

/-- A decode for verification leaves its outcome and its information part for the comparison, its engine without a codeword (R141). -/
theorem decodeDone_verify {k : Fin 12} {n : Lane} {d : Sector} {llrs : List Int} {asked : Dword} (r : Decoded) {s : State}
    (jobs : (s.engine k).jobs = [⟨n, .verify, d, llrs, asked⟩]) (waiting : s.ldp.waiting = [])
    (outcome : (s.ln n).lost.any (fun e => e.same d) = false) :
    ∃ u : State, exec (.decodeDone k r) s = .next (afterOutcomes u) ∧
      (u.ln n).compared = (s.ln n).compared ++
        [(d, decide (outcomeOf s ⟨n, .verify, d, llrs, asked⟩ (decodeBudget s ⟨n, .verify, d, llrs, asked⟩) r = 0), r.info)] ∧
      (u.engine k).jobs = [] ∧
      (∀ m, m ≠ n → u.ln m = s.ln m) ∧
      onlyParts [.regs, .lns, .ldp, .tly] s u := by
  generalize hc : outcomeOf s ⟨n, .verify, d, llrs, asked⟩ (decodeBudget s ⟨n, .verify, d, llrs, asked⟩) r = code
  have left : Moves 0x10001 s (freed k n [] s) := freed_moves k n [] s
  have counted : Moves 0x10201 s (verifyCounted n code (freed k n [] s)) := (verifyCounted_moves ..).on (left.wide rfl) rfl
  have lns : (verifyCounted n code (freed k n [] s)).lns = s.lns := counted.parts 13 rfl
  have ended : exec (.decodeDone k r) s = .next (afterOutcomes (verifyEnd n d code r (freed k n [] s))) := by
    rw [exec_decodeDone, decodeDoneEff_cons r jobs, ← hc]
  have still : ((freed k n [] s).ln n).lost.any (fun e => e.same d) = false := by rw [ln_of_lns (left.parts 13 rfl), outcome]
  rw [verifyEnd_compared code r still] at ended
  refine ⟨_, ended, ?_, ?_, ?_, (onLn_moves.on (counted.wide (m := 0x12201) rfl) rfl).frame (by decide)⟩
  · rw [ln_onLn_same, ln_of_lns lns]
  · have ldp : (verifyCounted n code (freed k n [] s)).ldp = (freed k n [] s).ldp := (verifyCounted_moves ..).parts 16 rfl
    exact (congrArg (fun l => (l.engines.get k).jobs) ldp).trans (jobs_freed waiting)
  · intro m hm
    rw [ln_onLn_other hm, ln_of_lns lns]

/-! ### A delivery (R110) -/

/-- The tallies of a delivery. -/
def deliveryCounted (n : Lane) (iters : Nat) (s : State) : State := (s.tally (24 + n)).histo (4 + n) (iters - 1)

theorem deliveryCounted_moves (n : Lane) (iters : Nat) (s : State) : Moves 0x201 s (deliveryCounted n iters s) :=
  (histo_staged_moves ..).step (tally_staged_moves (tlyAtOnce_lane n).1 1 s)

/-- What a delivery hands to BUF: the whole information part, under the LBA of its tag. -/
def delivery (n : Lane) (d : Sector) (r : Decoded) : Handed :=
  ⟨n.val, d, some (unle ((r.info.drop (r.info.length - 32)).take 8)), ((r.info.drop (r.info.length - 32)).getD 19 0).getLsbD 0, r.info⟩

theorem deliver_eq (n : Lane) (d : Sector) (r : Decoded) (s : State) : deliver n d r s =
    sendOutcome n d 0 r.iters (handOver n d (delivery n d r).lba (delivery n d r).parity r.info (deliveryCounted n r.iters s)) := rfl

theorem ms_sendOutcome_same (n : Lane) (d : Sector) (code iters : Nat) (s : State) :
    ((sendOutcome n d code iters s).ms n).cmd = (s.ms n).cmd ++ [msEntry 0xFF (indexInTransfer s n d) code iters 0 0] := by
  rw [sendOutcome, msSend, ms_onMs_same]

theorem ms_sendOutcome_other {n m : Lane} (h : m ≠ n) (d : Sector) (code iters : Nat) (s : State) : (sendOutcome n d code iters s).ms m = s.ms m :=
  ms_onMs_other h ..

/-- A delivery reaches BUF and the sequencer, and nothing but tallies and their register changes with it. -/
theorem deliver_delivers (n : Lane) (d : Sector) (r : Decoded) (s : State) :
    (deliver n d r s).ldp.handed = s.ldp.handed ++ [delivery n d r] ∧
      ((deliver n d r s).ms n).cmd = (s.ms n).cmd ++ [msEntry 0xFF (indexInTransfer s n d) 0 r.iters 0 0] ∧
      (∀ m, m ≠ n → (deliver n d r s).ms m = s.ms m) ∧
      Moves 0x14201 s (deliver n d r s) := by
  have counted : Moves 0x201 s (deliveryCounted n r.iters s) := deliveryCounted_moves n r.iters s
  have ldp : (deliveryCounted n r.iters s).ldp = s.ldp := counted.parts 16 rfl
  have mss : (deliveryCounted n r.iters s).mss = s.mss := counted.parts 14 rfl
  rw [deliver_eq]
  refine ⟨?_, ?_, ?_, ?_⟩
  · exact congrArg (·.handed ++ _) ldp
  · rw [ms_sendOutcome_same]
    exact congrArg (fun v => (Vector.get v n).cmd ++ [msEntry 0xFF (indexInTransfer { s with mss := v } n d) 0 r.iters 0 0]) mss
  · intro m hm
    rw [ms_sendOutcome_other hm]
    exact congrArg (fun v => Vector.get v m) mss
  · exact sendOutcome_moves.on (handOver_moves.on (counted.wide (m := 0x14201) rfl) rfl) rfl

/-- Outside a parity group a delivered sector joins none (R118). -/
theorem groupDecoded_none {n : Lane} {d : Sector} {s : State} (alone : sectorGroup s d = none) (r : Decoded) : groupDecoded s n d r = s := by
  simp only [groupDecoded, alone]

theorem groupEnd_none {n : Lane} {d : Sector} {s : State} (alone : sectorGroup s d = none) : groupEnd n d s = s := by simp only [groupEnd, alone]

/-- A decode on the fly that succeeds outside a parity group is delivered (R110). -/
theorem otfEnd_delivered {n : Lane} {d : Sector} {s : State} (llrs : List Int) (r : Decoded) (alone : sectorGroup s d = none) :
    otfEnd n d llrs 0 r s = sectorOutcome n (deliver n d r s) := by
  have cfg : (sectorOutcome n (deliver n d r s)).cfg = s.cfg :=
    (sectorOutcome_moves.on ((deliver_delivers n d r s).2.2.2.wide (m := 0x94201) rfl) rfl).parts 5 rfl
  have still : sectorGroup (sectorOutcome n (deliver n d r s)) d = none := (sectorGroup_congr cfg d).trans alone
  rw [otfEnd, if_pos rfl, groupDecoded_none still, groupEnd_none still]

/-- A decode on the fly that succeeds outside a parity group reaches BUF and the sequencer (R110, R236). -/
theorem decodeDone_otf {k : Fin 12} {n : Lane} {d : Sector} {llrs : List Int} {asked : Dword} {rest : List DecodeJob} {r : Decoded} {s : State}
    (jobs : (s.engine k).jobs = ⟨n, .otf, d, llrs, asked⟩ :: rest)
    (success : outcomeOf s ⟨n, .otf, d, llrs, asked⟩ (decodeBudget s ⟨n, .otf, d, llrs, asked⟩) r = 0) (alone : sectorGroup s d = none) :
    ∃ u : State, exec (.decodeDone k r) s = .next (afterOutcomes u) ∧
      u.ldp.handed = s.ldp.handed ++ [delivery n d r] ∧
      (u.ms n).cmd = (s.ms n).cmd ++ [msEntry 0xFF (indexInTransfer s n d) 0 r.iters 0 0] ∧
      (∀ m, m ≠ n → u.ms m = s.ms m) ∧
      u.lns = s.lns ∧
      onlyParts [.regs, .ldp, .tly, .mss, .rly] s u := by
  have left : Moves 0x10001 s (freed k n rest s) := freed_moves k n rest s
  have mss : (freed k n rest s).mss = s.mss := left.parts 14 rfl
  have ended : exec (.decodeDone k r) s = .next (afterOutcomes (otfEnd n d llrs 0 r (freed k n rest s))) := by
    rw [exec_decodeDone, decodeDoneEff_cons r jobs, success]
  rw [otfEnd_delivered llrs r ((sectorGroup_congr (left.parts 5 rfl) d).trans alone)] at ended
  obtain ⟨handed, cmd, others, delivered⟩ := deliver_delivers n d r (freed k n rest s)
  generalize deliver n d r (freed k n rest s) = x at *
  have outcome : Moves 0x80000 x (sectorOutcome n x) := sectorOutcome_moves
  have all : Moves 0x94201 s (sectorOutcome n x) := outcome.on (delivered.on (left.wide rfl) rfl) rfl
  have mssKept : (sectorOutcome n x).mss = x.mss := outcome.parts 14 rfl
  refine ⟨_, ended, ?_, ?_, ?_, all.parts 13 rfl, all.frame (by decide)⟩
  · rw [show (sectorOutcome n x).ldp = x.ldp from outcome.parts 16 rfl, handed, handed_freed]
  · refine (congrArg (fun v => (Vector.get v n).cmd) mssKept).trans (cmd.trans ?_)
    exact congrArg (fun v => (Vector.get v n).cmd ++ [msEntry 0xFF (indexInTransfer { s with mss := v } n d) 0 r.iters 0 0]) mss
  · intro m hm
    exact (congrArg (fun v => Vector.get v m) mssKept).trans ((others m hm).trans (congrArg (fun v => Vector.get v m) mss))

end Sys2Proof.Machine

end

section

/-! PROOF. An engine that faults (R115) and the ladder's next attempt (R121, R124); the decoder pool settled. -/

namespace Sys2Proof.Machine

/-! ### An idle engine that faults (R115) -/

/-- The state in which an engine has lost its token. -/
def faulted (k : Fin 12) (s : State) : State := ((s.setEngine k ⟨.lost, []⟩).count F.LDP_CNT0_ENG_FAULT).irq 35

theorem exec_engineFault_lost {k : Fin 12} {s : State} (lost : (s.engine k).token = .lost) : exec (.engineFault k) s = .next s := if_pos lost

/-- An engine without a codeword loses its token, and no codeword with it. -/
theorem exec_engineFault_idle {k : Fin 12} {s : State} (held : (s.engine k).token ≠ .lost) (idle : (s.engine k).jobs = []) :
    exec (.engineFault k) s = .next ((levelTokens (faulted k s)).loseUnit0 (16 + k)) := by
  show execEngineFault k s = _
  simp only [execEngineFault, held, idle, if_false]
  rfl

theorem engine_faulted (k i : Fin 12) (s : State) : (faulted k s).engine i = if i = k then ⟨.lost, []⟩ else s.engine i := get_setV ..

theorem faulted_moves (k : Fin 12) (s : State) : Moves 0x10801 s (faulted k s) :=
  irq_moves.on (count_moves.on (setEngine_moves.wide (m := 0x10801) rfl) rfl) rfl

theorem irq_faulted (k : Fin 12) (s : State) : (faulted k s).ccx.irq.getLsbD 35 = true := by
  show (s.ccx.irq ||| (BitVec.ofNat 256 1 <<< 35)).getLsbD 35 = true
  simp

theorem engineFault_idle {k : Fin 12} {s : State} (held : (s.engine k).token ≠ .lost) (idle : (s.engine k).jobs = []) :
    ∃ u : State, exec (.engineFault k) s = .next ((levelTokens u).loseUnit0 (16 + k)) ∧
      u.engine k = ⟨.lost, []⟩ ∧
      u.get F.LDP_CNT0_ENG_FAULT = min (s.get F.LDP_CNT0_ENG_FAULT + 1) (2 ^ F.LDP_CNT0_ENG_FAULT.width - 1) ∧
      u.ccx.irq.getLsbD 35 = true ∧
      (∀ i, i ≠ k → u.engine i = s.engine i) ∧
      regsKept [R.LDP_CNT0] s u ∧
      onlyParts [.regs, .ldp, .ccx] s u :=
  ⟨faulted k s, exec_engineFault_idle held idle, (engine_faulted k k s).trans (if_pos rfl), get_count (s := s.setEngine k ⟨.lost, []⟩) (by decide) 1,
    irq_faulted k s, fun i hi => (engine_faulted k i s).trans (if_neg hi), regsKept_count (s.setEngine k ⟨.lost, []⟩) F.LDP_CNT0_ENG_FAULT 1,
    (faulted_moves k s).frame (by decide)⟩

/-! ### The ladder (R121, R124) -/

theorem exec_ladderAttemptEnd (n : Lane) (ended : LadderEnd) (s : State) :
    exec (.ladderAttemptEnd n ended) s = .next (afterOutcomes (ladderAttemptEndEff n ended s)) := rfl

/-- An attempt that is abandoned or spoiled is made again (R124). -/
theorem ladderAttemptEndEff_again {n : Lane} {l : Ladder} {ended : LadderEnd} {s : State} (ladder : (s.ln n).ladder = some l)
    (again : ended = .abandoned ∨ l.spoiled = true) :
    ladderAttemptEndEff n ended s = s.setLn n { s.ln n with ladder := some { l with spoiled := false } } := by
  have fresh : freshAttempt n s = s.setLn n { s.ln n with ladder := some { l with spoiled := false } } := by
    simp only [freshAttempt, State.onLn, ladder, Option.map_some]
  rw [← fresh]
  unfold ladderAttemptEndEff
  cases ended with
  | abandoned => simp only [ladder]
  | done => simp only [ladder, again.resolve_left nofun, if_true]

/-- The ladder at an attempt of rung 1, whose settings are those in use. -/
def rung1 (n : Lane) (k : Nat) (s : State) : State :=
  (((s.count (F.LNn_RTY_STAT_REVS n)).onLn n (fun l => { l with ovr := none })).put (F.LNn_RTY_STAT_RUNG n) 1).put (F.LNn_RTY_STAT_ATTEMPT n) k

theorem enterRung_restoreSettings (n : Lane) (k : Nat) (s : State) : enterRung n 1 k (restoreSettings n 1 (s.count (F.LNn_RTY_STAT_REVS n))) = rung1 n k s :=
  rfl

/-- The fields of LNn_RTY_STAT lie apart, and the limits of the ladder in other registers. -/
theorem rtyStat_places (n : Lane) :
    (F.LNn_RTY_STAT_REVS n).lo + (F.LNn_RTY_STAT_REVS n).width ≤ (F.LNn_RTY_STAT_ATTEMPT n).lo ∧
      (F.LNn_RTY_STAT_ATTEMPT n).lo + (F.LNn_RTY_STAT_ATTEMPT n).width ≤ (F.LNn_RTY_STAT_RUNG n).lo ∧
      (F.LNn_RTY_STAT_RUNG n).lo + (F.LNn_RTY_STAT_RUNG n).width ≤ 32 ∧
      (F.LNn_RTY_STAT_REVS n).width = 8 ∧ (F.LNn_RTY_STAT_RUNG n).width = 4 ∧
      (F.LNn_RTY_CFG_LIMIT n).addr ∉ [(F.LNn_RTY_STAT_REVS n).addr] ∧ R.LNn_RTY_BUDGET n ∉ [(F.LNn_RTY_STAT_REVS n).addr] := by
  revert n
  decide

theorem rung1_fields (n : Lane) (k : Nat) {s : State} (room : s.get (F.LNn_RTY_STAT_REVS n) < 255) :
    (rung1 n k s).get (F.LNn_RTY_STAT_REVS n) = s.get (F.LNn_RTY_STAT_REVS n) + 1 ∧ (rung1 n k s).get (F.LNn_RTY_STAT_RUNG n) = 1 ∧
      (rung1 n k s).get (F.LNn_RTY_STAT_ATTEMPT n) = k % 2 ^ (F.LNn_RTY_STAT_ATTEMPT n).width := by
  obtain ⟨revsAttempt, attemptRung, fits, revs, rung, -, -⟩ := rtyStat_places n
  have regs : (rung1 n k s).regs = rput (rput (s.count (F.LNn_RTY_STAT_REVS n)).regs (F.LNn_RTY_STAT_RUNG n) 1) (F.LNn_RTY_STAT_ATTEMPT n) k := rfl
  simp only [get_eq, regs]
  refine ⟨?_, ?_, ?_⟩
  · rw [rget_rput_bits _ _ (.inl revsAttempt), rget_rput_bits _ _ (.inl (by omega)), ← get_eq, get_count (by omega), revs, ← get_eq]
    omega
  · rw [rget_rput_bits _ _ (.inr attemptRung), rget_rput_same _ _ _ fits, rung]
    rfl
  · rw [rget_rput_same _ _ _ (by omega)]

theorem regsKept_rung1 (n : Lane) (k : Nat) (s : State) : regsKept [R.LNn_RTY_STAT n] s (rung1 n k s) :=
  have count : regsKept [R.LNn_RTY_STAT n] s (s.count (F.LNn_RTY_STAT_REVS n)) := regsKept_count s (F.LNn_RTY_STAT_REVS n) 1
  have restored : regsKept [R.LNn_RTY_STAT n] (s.count (F.LNn_RTY_STAT_REVS n))
      ((s.count (F.LNn_RTY_STAT_REVS n)).onLn n (fun l => { l with ovr := none })) := .of_regs rfl
  ((count.trans restored).trans (regsKept_put (f := F.LNn_RTY_STAT_RUNG n) List.mem_cons_self 1)).trans
    (regsKept_put (f := F.LNn_RTY_STAT_ATTEMPT n) List.mem_cons_self k)

theorem rung1_moves (n : Lane) (k : Nat) (s : State) : Moves 0x2001 s (rung1 n k s) :=
  put_moves.on (put_moves.on (onLn_moves.on (count_moves.wide (m := 0x2001) rfl) rfl) rfl) rfl

theorem ln_rung1 (n m : Lane) (k : Nat) (s : State) : (rung1 n k s).ln m = if m = n then { s.ln n with ovr := none } else s.ln m := by
  have counted (i : Lane) : (s.count (F.LNn_RTY_STAT_REVS n)).ln i = s.ln i := ln_of_lns (count_moves.parts 13 rfl) i
  have shown : (rung1 n k s).lns = ((s.count (F.LNn_RTY_STAT_REVS n)).onLn n (fun l => { l with ovr := none })).lns :=
    (put_moves.step put_moves).parts 13 rfl
  rw [ln_of_lns shown, State.onLn, ln_setLn, counted, counted]

/-- Counting the revolutions leaves the attempts that a rung has. -/
theorem rungAttempts_count (n : Lane) (limited parity : Bool) (rung : Nat) (s : State) :
    rungAttempts (s.count (F.LNn_RTY_STAT_REVS n)) n limited parity rung = rungAttempts s n limited parity rung := by
  obtain ⟨-, -, -, -, -, -, budget⟩ := rtyStat_places n
  have kept : (s.count (F.LNn_RTY_STAT_REVS n)).get ⟨R.LNn_RTY_BUDGET n, 4 * rung - 1, 4 * rung - 4⟩ =
      s.get ⟨R.LNn_RTY_BUDGET n, 4 * rung - 1, 4 * rung - 4⟩ := (regsKept_count s (F.LNn_RTY_STAT_REVS n) 1).get budget
  simp only [rungAttempts, kept]

theorem ladderParity_congr {s t : State} (h : t.cfg = s.cfg) (l : Ladder) : ladderParity t l = ladderParity s l :=
  congrArg (fun c => ladderParity { s with cfg := c } l) h

/-- A counted attempt of rung 1 that leaves a sector failing within the budget moves to the next attempt (R121). -/
theorem ladderAttemptEndEff_next {n : Lane} {l : Ladder} {d : Sector} {rest : List Sector} {s : State} (ladder : (s.ln n).ladder = some l)
    (failing : l.failing = d :: rest) (clean : l.spoiled = false) (rung : s.get (F.LNn_RTY_STAT_RUNG n) = 1)
    (room : s.get (F.LNn_RTY_STAT_REVS n) < 255) (limit : s.get (F.LNn_RTY_STAT_REVS n) + 1 < s.get (F.LNn_RTY_CFG_LIMIT n))
    (budget : s.get (F.LNn_RTY_STAT_ATTEMPT n) < rungAttempts s n l.limited (ladderParity s l) 1) :
    ladderAttemptEndEff n .done s = rung1 n (s.get (F.LNn_RTY_STAT_ATTEMPT n) + 1) s := by
  obtain ⟨revsAttempt, attemptRung, fits, revs, -, cfg, -⟩ := rtyStat_places n
  have counted : (s.count (F.LNn_RTY_STAT_REVS n)).get (F.LNn_RTY_STAT_REVS n) = s.get (F.LNn_RTY_STAT_REVS n) + 1 := by
    rw [get_count (by omega), revs]
    omega
  have limitKept : (s.count (F.LNn_RTY_STAT_REVS n)).get (F.LNn_RTY_CFG_LIMIT n) = s.get (F.LNn_RTY_CFG_LIMIT n) :=
    (regsKept_count s (F.LNn_RTY_STAT_REVS n) 1).get cfg
  have below : ¬ (s.count (F.LNn_RTY_STAT_REVS n)).get (F.LNn_RTY_CFG_LIMIT n) ≤ (s.count (F.LNn_RTY_STAT_REVS n)).get (F.LNn_RTY_STAT_REVS n) := by
    rw [counted, limitKept]
    omega
  have attempts : s.get (F.LNn_RTY_STAT_ATTEMPT n) <
      rungAttempts (s.count (F.LNn_RTY_STAT_REVS n)) n l.limited (ladderParity (s.count (F.LNn_RTY_STAT_REVS n)) l) 1 := by
    rw [rungAttempts_count, ladderParity_congr (count_moves.parts 5 rfl)]
    exact budget
  have ladderKept : ((s.count (F.LNn_RTY_STAT_REVS n)).ln n).ladder = some l :=
    (congrArg Ln.ladder (ln_of_lns (count_moves.parts 13 rfl) n)).trans ladder
  have some_ : l.failing.isEmpty = false := by rw [failing, List.isEmpty_cons]
  rw [← enterRung_restoreSettings]
  unfold ladderAttemptEndEff
  simp only [ladder, clean, Bool.false_eq_true, if_false, rung, show ¬ (1 : Nat) = 7 by decide, ladderKept, some_, below, attempts, if_true]

/-! ### The decoder pool -/

/-- Settles O10: a lemma for each of the pool's rows, over what their shared operations leave. -/
theorem decoderPoolGrantsAndDelivers : Obligations.DecoderPoolGrantsAndDelivers := by
  unfold Obligations.DecoderPoolGrantsAndDelivers
  refine ⟨?readWaits, ?verifyWaits, ?readTaken, ?overflow, ?grant, ?oldest, ?ends, ?verifyEnds, ?otfEnds, ?noCodeword, ?fault, ?faultLost,
    ?nextAttempt, ?sameAttempt⟩
  case readWaits =>
    intro n kind d rest fifo wave s read reads room plain waits
    exact tokenRequest_read_waits wave read reads room plain waits
  case verifyWaits =>
    intro n d fifo wave s next room held
    exact tokenRequest_verify_waits wave next room held
  case readTaken =>
    intro n k kind d rest fifo wave s read reads room plain held may
    exact tokenRequest_read_taken wave read reads room plain held may
  case overflow =>
    intro n d rest fifo wave s reads full
    exact tokenRequest_overflow wave reads full
  case grant =>
    intro k j s free next
    exact tokenGrant_grants free next
  case oldest =>
    intro j s may next
    exact nextGranted_oldest may next
  case ends =>
    intro k j rest r s jobs
    rw [exec_decodeDone, decodeDoneEff_cons r jobs]
    rfl
  case verifyEnds =>
    intro k n d llrs asked r s jobs waiting outcome
    exact decodeDone_verify r jobs waiting outcome
  case otfEnds =>
    intro k n d llrs asked rest r s jobs success alone
    exact decodeDone_otf jobs success alone
  case noCodeword =>
    intro k r s jobs
    rw [exec_decodeDone, decodeDoneEff_nil r jobs]
  case fault =>
    intro k s held idle
    exact engineFault_idle held idle
  case faultLost =>
    intro k s lost
    exact exec_engineFault_lost lost
  case nextAttempt =>
    intro n l d rest s ladder failing clean rung room limit budget
    obtain ⟨revs, rung', attempt⟩ := rung1_fields n (s.get (F.LNn_RTY_STAT_ATTEMPT n) + 1) room
    refine ⟨rung1 n (s.get (F.LNn_RTY_STAT_ATTEMPT n) + 1) s, ?_, revs, rung', attempt, (ln_rung1 n n _ s).trans (if_pos rfl),
      fun m hm => (ln_rung1 n m _ s).trans (if_neg hm), regsKept_rung1 n _ s, (rung1_moves ..).frame (by decide)⟩
    rw [exec_ladderAttemptEnd, ladderAttemptEndEff_next ladder failing clean rung room limit budget]
  case sameAttempt =>
    intro n l ended s ladder again
    rw [exec_ladderAttemptEnd, ladderAttemptEndEff_again ladder again]

end Sys2Proof.Machine

end

section

/-! PROOF. Refused loads (R58): what the state before settling shows and what it keeps. -/

namespace Sys2Proof.Machine

/-! ### Single updates -/

theorem reg_setReg_other {a b : Nat} (h : b ≠ a) (s : State) (w : Word) : (s.setReg a w).reg b = s.reg b := rreg_rset_other h ..

theorem reg_setPair_other {lo hi a : Nat} (hl : a ≠ lo) (hh : a ≠ hi) (s : State) (v : Dword) : (s.setPair lo hi v).reg a = s.reg a :=
  (reg_setReg_other hh ..).trans (reg_setReg_other hl ..)

/-- A source made pending is pending. -/
theorem irq_getLsbD_same (s : State) {n : Nat} (h : n < 256) : (s.irq n).ccx.irq.getLsbD n = true := by
  show (s.ccx.irq ||| (BitVec.ofNat 256 1 <<< n)).getLsbD n = true
  simp [h]

/-- A pending source stays pending when another becomes so. -/
theorem irq_getLsbD_mono {s : State} {n : Nat} (h : s.ccx.irq.getLsbD n = true) (k : Nat) : (s.irq k).ccx.irq.getLsbD n = true := by
  show (s.ccx.irq ||| (BitVec.ofNat 256 1 <<< k)).getLsbD n = true
  simp [h]

/-! ### Conditions of the mode controller (R36) -/

/-- A condition set reads 1, whether or not it was set before. -/
theorem get_cond (s : State) {f : Fld} (fits : f.lo + f.width ≤ 32) (bit : f.width = 1) : (s.cond f).get f = 1 := by
  unfold State.cond
  split
  next set =>
    have one : s.get f < 2 ^ f.width := rget_lt ..
    have nonzero : s.get f ≠ 0 := by simpa [State.on] using set
    rw [bit] at one
    omega
  next => exact (rget_rput_same s.regs f 1 fits).trans (by rw [bit]; rfl)

theorem regsKept_cond (s : State) (f : Fld) : regsKept [f.addr] s (s.cond f) := by
  unfold State.cond
  split
  next => exact fun _ _ => rfl
  next => exact regsKept_put List.mem_cons_self 1

theorem irq_getLsbD_cond {s : State} {n : Nat} (h : s.ccx.irq.getLsbD n = true) (f : Fld) : (s.cond f).ccx.irq.getLsbD n = true := by
  unfold State.cond
  split
  next => exact h
  next => exact irq_getLsbD_mono (s := s.put f 1) h 19

/-! ### A refused load (R58) -/

/-- The record of a refusal in CFG. -/
def refusalRecorded (f : Nat × Nat) (s : State) : State :=
  (((s.put F.CFG_LOAD_ERR_CODE f.1).put F.CFG_LOAD_ERR_SECTION f.2).put F.CFG_LOAD_STAT_SECTION f.2).put F.CFG_LOAD_STAT_FAIL 1

/-- The state of a refused load, before the mode controller acts on IMAGE_FAIL. -/
def refused (f : Nat × Nat) (s : State) : State :=
  ({ (refusalRecorded f s).irq 21 with cfg := { s.cfg with staging := none } }).cond F.GLB_MODE_COND_IMAGE_FAIL

theorem loadFail_eq (f : Nat × Nat) (s : State) : loadFail f s = (refused f s).settle := rfl

theorem refusalRecorded_fields (f : Nat × Nat) (s : State) :
    (refusalRecorded f s).get F.CFG_LOAD_ERR_CODE = f.1 % 2 ^ F.CFG_LOAD_ERR_CODE.width ∧
      (refusalRecorded f s).get F.CFG_LOAD_ERR_SECTION = f.2 % 2 ^ F.CFG_LOAD_ERR_SECTION.width ∧
      (refusalRecorded f s).get F.CFG_LOAD_STAT_SECTION = f.2 % 2 ^ F.CFG_LOAD_STAT_SECTION.width ∧
      (refusalRecorded f s).get F.CFG_LOAD_STAT_FAIL = 1 ∧
      (refusalRecorded f s).get F.CFG_LOAD_STAT_DONE = s.get F.CFG_LOAD_STAT_DONE := by
  simp (disch := decide) only [refusalRecorded, get_eq, put_regs, rget_rput_same, rget_rput_bits, rget_rput_addr]
  trivial

theorem regsKept_refusalRecorded (f : Nat × Nat) (s : State) : regsKept [R.CFG_LOAD_ERR, R.CFG_LOAD_STAT] s (refusalRecorded f s) :=
  (((regsKept_put (by decide) _).trans (regsKept_put (by decide) _)).trans (regsKept_put (by decide) _)).trans (regsKept_put (by decide) _)

/-- IMAGE_FAIL is in a register of its own: the rest of a refusal is as CFG recorded it. -/
theorem get_refused {f : Nat × Nat} {s : State} {g : Fld} (h : g.addr ≠ R.GLB_MODE_COND) : (refused f s).get g = (refusalRecorded f s).get g :=
  (regsKept_cond _ F.GLB_MODE_COND_IMAGE_FAIL).get (fun m => h (List.mem_singleton.mp m))

theorem refusedAs_refused (f : Nat × Nat) (s : State) : refusedAs f.1 f.2 (refused f s) := by
  obtain ⟨code, errSection, statSection, fail, -⟩ := refusalRecorded_fields f s
  refine ⟨(get_refused (by decide)).trans code, (get_refused (by decide)).trans errSection, (get_refused (by decide)).trans statSection,
    (get_refused (by decide)).trans fail, get_cond _ (by decide) (by decide), irq_getLsbD_cond ?_ _⟩
  exact irq_getLsbD_same (refusalRecorded f s) (by decide)

theorem get_refused_done (f : Nat × Nat) (s : State) : (refused f s).get F.CFG_LOAD_STAT_DONE = s.get F.CFG_LOAD_STAT_DONE := by
  obtain ⟨-, -, -, -, done⟩ := refusalRecorded_fields f s
  exact (get_refused (by decide)).trans done

theorem cfg_refused (f : Nat × Nat) (s : State) : (refused f s).cfg = { s.cfg with staging := none } := cond_moves.parts 5 rfl

theorem regsKept_refused (f : Nat × Nat) (s : State) : regsKept [R.CFG_LOAD_ERR, R.CFG_LOAD_STAT, R.GLB_MODE_COND] s (refused f s) := by
  have recorded : regsKept [R.CFG_LOAD_ERR, R.CFG_LOAD_STAT, R.GLB_MODE_COND] s (refusalRecorded f s) :=
    (regsKept_refusalRecorded f s).mono (by decide)
  have dropped : regsKept [R.CFG_LOAD_ERR, R.CFG_LOAD_STAT, R.GLB_MODE_COND] (refusalRecorded f s)
      { (refusalRecorded f s).irq 21 with cfg := { s.cfg with staging := none } } := .of_regs rfl
  exact (recorded.trans dropped).trans ((regsKept_cond _ _).mono (by decide))

theorem refused_moves (f : Nat × Nat) (s : State) : Moves 0x821 s (refused f s) := by
  have recorded : Moves 0x1 s (refusalRecorded f s) := put_moves.step (put_moves.step (put_moves.step put_moves))
  exact cond_moves.on (mk_cfg.on (irq_moves.on (recorded.wide (m := 0x821) rfl) rfl) rfl) rfl

end Sys2Proof.Machine

end

section

/-! PROOF. The sections of an image applied (R57 step 4): none of them writes the progress of the load. -/

namespace Sys2Proof.Machine

@[simp] theorem reg_onSpm (s : State) (f : Spm → Spm) (a : Nat) : (s.onSpm f).reg a = s.reg a := rfl

theorem regsKept_setReg {l : List Nat} {s : State} {a : Nat} (h : a ∈ l) (w : Word) : regsKept l s (s.setReg a w) :=
  fun b hb => reg_setReg_other (fun e : b = a => hb (e ▸ h)) ..

theorem regsKept_applyStore (n : Lane) (words : List (BitVec 176)) (digest : BitVec 384) (s : State) :
    regsKept [R.MSn_UCODE_VER n, R.MSn_UCODE_DIG n, R.MSn_STAT n] s (applyStore n words digest s) := by
  refine .trans (.trans (.trans (.trans (.of_regs ?store) (regsKept_setReg ?_ _)) (regsKept_setReg ?_ _)) (regsKept_put ?_ _)) (regsKept_put ?_ _)
  case store => exact (onMs_rest ..).1
  all_goals simp [F.MSn_STAT_STATE, F.MSn_STAT_PC]

theorem regsKept_applyServo (n : Lane) (v : ServoSec) (s : State) :
    regsKept [R.SVn_PACE_VMAX n, R.SVn_PACE_AMAX n, R.SVn_PACE_JMAX n] s (applyServo n v s) := by
  refine .trans (.trans (.trans (.trans (.trans (regsKept_put ?_ _) (regsKept_put ?_ _)) (regsKept_put ?_ _)) (regsKept_put ?_ _)) (regsKept_put ?_ _))
    (regsKept_put ?_ _)
  all_goals simp [F.SVn_PACE_VMAX_CEIL, F.SVn_PACE_AMAX_CEIL, F.SVn_PACE_JMAX_CEIL, F.SVn_PACE_VMAX_VMAX, F.SVn_PACE_AMAX_AMAX, F.SVn_PACE_JMAX_JMAX]

theorem regsKept_laneEnables (n : Lane) (r : LaneRec) (s : State) : regsKept [R.LNn_HEAD_EN n, R.SVn_CTL n] s (laneEnables n r s) := by
  refine .trans (.trans (regsKept_put ?_ _) (regsKept_put ?_ _)) (regsKept_put ?_ _)
  all_goals simp [F.LNn_HEAD_EN_EN, F.SVn_CTL_MILLI_EN, F.SVn_CTL_MICRO_EN]

theorem loadStat_notMem_applyStore (n : Lane) : R.CFG_LOAD_STAT ∉ [R.MSn_UCODE_VER n, R.MSn_UCODE_DIG n, R.MSn_STAT n] := by
  revert n
  decide

theorem loadStat_notMem_applyServo (n : Lane) : R.CFG_LOAD_STAT ∉ [R.SVn_PACE_VMAX n, R.SVn_PACE_AMAX n, R.SVn_PACE_JMAX n] := by
  revert n
  decide

theorem loadStat_notMem_laneEnables (n : Lane) : R.CFG_LOAD_STAT ∉ [R.LNn_HEAD_EN n, R.SVn_CTL n] := by
  revert n
  decide

theorem loadStat_ne_cadSet (n : Lane) : R.CFG_LOAD_STAT ≠ (F.SVn_STAT_CAD_SET n).addr := by
  revert n
  decide

/-- The progress of the load is the loader's to show: a section writes the registers of its own block. -/
theorem loadStat_applySection (img : Image) (d : DirEntry) (s : State) : (applySection img d s).reg R.CFG_LOAD_STAT = s.reg R.CFG_LOAD_STAT := by
  unfold applySection
  cases d.body with
  | lanes l =>
    refine (forEach_keeps (fun t => t.reg R.CFG_LOAD_STAT) (fun n t => ?_) _ _).trans (reg_setReg_other (by decide) ..)
    split
    · split
      · exact regsKept_laneEnables _ _ _ _ (loadStat_notMem_laneEnables _)
      · rfl
    · rfl
  | readers r =>
    dsimp only
    split
    · exact applyReaders_moves.regsKept (l := []) rfl _ (by decide)
    · rfl
  | zones z => exact forEach_keeps (fun t => t.reg R.CFG_LOAD_STAT) (fun p t => applyPreset_moves.regsKept (l := []) rfl _ (by decide)) _ _
  | ustore w =>
    dsimp only
    split
    · exact regsKept_applyStore _ _ _ _ _ (loadStat_notMem_applyStore _)
    · rfl
  | servo v =>
    dsimp only
    split
    · exact forEach_keeps (fun t => t.reg R.CFG_LOAD_STAT) (fun n t => regsKept_applyServo n v t _ (loadStat_notMem_applyServo n)) _ _
    · rfl
  | spindle p =>
    refine (forEach_keeps (fun t => t.reg R.CFG_LOAD_STAT) (fun n t => reg_put_other (loadStat_ne_cadSet n) ..) _ _).trans ?_
    simp (disch := decide) only [reg_put_other, reg_onSpm]
  | pair r p lo hi =>
    dsimp only
    split <;> simp (disch := decide) only [reg_put_other]
  | sram | host | balls | bandwidth | bands => simp (disch := decide) only [reg_put_other, reg_setPair_other]
  | dram | presets | unknown => rfl

end Sys2Proof.Machine

end

section

/-! PROOF. The load of the structure image (R47, R57, R58): its start, the end of the read, and the judgement. -/

namespace Sys2Proof.Machine

/-! ### The start of a load (R57 step 1) -/

/-- The state in which an image is being read. -/
def reading (img : Image) (s : State) : State :=
  { s with cfg := { s.cfg with handed := none, staging := some img } }.put F.CFG_LOAD_STAT_PHASE 1

/-- A load starts on what TRC handed over, in CONFIGURE and before any phase or failure; the header is judged first. -/
theorem exec_imageLoadStart {off : Nat} {s : State} (handed : s.cfg.handed = some off) (configure : s.mode = Mode.configure)
    (phase : s.get F.CFG_LOAD_STAT_PHASE = 0) (fail : s.on F.CFG_LOAD_STAT_FAIL = false) :
    exec .imageLoadStart s = .next (if headerSane (readImage (imageBytes s off)) then reading (readImage (imageBytes s off)) s
      else loadFail (3, 0xFF) (reading (readImage (imageBytes s off)) s)) := by
  show execImageLoadStart s = _
  simp only [execImageLoadStart, handed, configure, phase, fail, ne_eq, not_true_eq_false, Bool.false_eq_true, or_self, if_false]
  rfl

theorem headerSane_iff (img : Image) : headerSane img = true ↔ img.length ≤ 4194304 ∧ img.sigOffset + 128 = img.length := by
  simp [headerSane]

theorem headerSane_eq_false_iff (img : Image) : headerSane img = false ↔ 4194304 < img.length ∨ img.sigOffset + 128 ≠ img.length := by
  rw [← Bool.not_eq_true, headerSane_iff, not_and_or, not_le]

theorem refused_reading_cfg (f : Nat × Nat) (img : Image) (s : State) :
    (refused f (reading img s)).cfg = { s.cfg with handed := none, staging := none } := cfg_refused ..

theorem regsKept_reading (img : Image) (s : State) : regsKept [R.CFG_LOAD_STAT] s (reading img s) :=
  regsKept_put (s := { s with cfg := { s.cfg with handed := none, staging := some img } }) (f := F.CFG_LOAD_STAT_PHASE) List.mem_cons_self 1

theorem reading_moves (img : Image) (s : State) : Moves 0x21 s (reading img s) := put_moves.on (mk_cfg.wide rfl) rfl

/-! ### The end of the read (check 0x0001) -/

theorem loading_eq {s : State} {img : Image} {phase : Nat} (configure : s.mode = Mode.configure) (staging : s.cfg.staging = some img)
    (at_ : s.get F.CFG_LOAD_STAT_PHASE = phase) : loading s phase = some img := by
  rw [loading, if_pos ⟨configure, at_⟩, staging]

/-- A byte of the image that could not be read. -/
theorem exec_imageReadDone_fails {b : Nat} {img : Image} {s : State} (load : loading s 1 = some img) (inside : b < img.length) :
    exec (.imageReadDone (some b)) s =
      .next (loadFail (1, (firstWhere img (fun d => decide (d.offset ≤ b) && decide (b < d.offset + d.length))).getD 0xFF) s) := by
  show execImageReadDone (some b) s = _
  simp only [execImageReadDone, load, Option.filter_some, inside, decide_true, if_true]

theorem exec_imageReadDone_complete {failedAt : Option Nat} {img : Image} {s : State} (load : loading s 1 = some img)
    (outside : ∀ b, failedAt = some b → img.length ≤ b) : exec (.imageReadDone failedAt) s = .next (s.put F.CFG_LOAD_STAT_PHASE 2) := by
  have read : failedAt.filter (fun b => decide (b < img.length)) = none := by
    simpa [Option.filter_eq_none_iff] using outside
  show execImageReadDone failedAt s = _
  simp only [execImageReadDone, load, read]

/-! ### The judgement (R57 steps 2 to 6) -/

theorem exec_signatureVerified (badStore : Option Lane) {img : Image} {s : State} (load : loading s 2 = some img) :
    exec (.signatureVerified badStore) s = .next (judgeImage badStore img s) := by
  show execSignatureVerified badStore s = _
  simp only [execSignatureVerified, load]

theorem judgeImage_digestDiffers (badStore : Option Lane) {img : Image} {s : State} (digests : manifestDigests s img = false) :
    judgeImage badStore img s = loadFail (2, 0xFF) (s.flag F.TRC_FLT_DIGEST) := by
  simp only [judgeImage, digests, Bool.not_false, if_true]

theorem judgeImage_unsigned (badStore : Option Lane) {img : Image} {s : State} (digests : manifestDigests s img = true)
    (signed : imageSigned s img = false) : judgeImage badStore img s = loadFail (2, 0xFF) s := by
  simp only [judgeImage, digests, signed, Bool.not_true, Bool.not_false, Bool.false_eq_true, if_false, if_true]

theorem judgeImage_notAdmitted (badStore : Option Lane) {img : Image} {f : Nat × Nat} {s : State} (digests : manifestDigests s img = true)
    (signed : imageSigned s img = true) (failed : admission (s.put F.CFG_LOAD_STAT_PHASE 4) img = some f) :
    judgeImage badStore img s = loadFail f (s.put F.CFG_LOAD_STAT_PHASE 4) := by
  simp only [judgeImage, digests, signed, failed, Bool.not_true, Bool.false_eq_true, if_false]

/-- The index of lane n's microcode section. -/
def storeIndex (img : Image) (n : Lane) : Option Nat := firstWhere img (fun d => match d.body with | .ustore _ => d.inst == n.val | _ => false)

/-- The state of an admitted image whose sections are applied. -/
def applied (img : Image) (s : State) : State :=
  (applyImage img ((s.put F.CFG_LOAD_STAT_PHASE 4).put F.CFG_LOAD_STAT_PHASE 5)).put F.CFG_LOAD_STAT_PHASE 6

/-- The state of a complete load, before the mode controller acts on it. -/
def loaded (img : Image) (s : State) : State :=
  let t := ((loadDone img (applyPresets img (applied img s))).put F.CFG_LOAD_STAT_PHASE 8).irq 21
  { t with cfg := { t.cfg with staging := none } }

/-- An admitted image is applied; only a store whose digest differs refuses it then. -/
theorem judgeImage_admitted (badStore : Option Lane) {img : Image} {s : State} (digests : manifestDigests s img = true)
    (signed : imageSigned s img = true) (admitted : admission (s.put F.CFG_LOAD_STAT_PHASE 4) img = none) :
    judgeImage badStore img s =
      match badStore.bind (storeIndex img) with
      | some k => loadFail (5, k) (applied img s)
      | none => (loaded img s).settle := by
  simp only [judgeImage, digests, signed, admitted, Bool.not_true, Bool.false_eq_true, if_false]
  rfl

theorem get_applied_done (img : Image) (s : State) : (applied img s).get F.CFG_LOAD_STAT_DONE = s.get F.CFG_LOAD_STAT_DONE := by
  have sections (t : State) : (applyImage img t).get F.CFG_LOAD_STAT_DONE = t.get F.CFG_LOAD_STAT_DONE :=
    congrArg (fun w => (w.extractLsb' 31 1).toNat) (forEach_keeps (fun u => u.reg R.CFG_LOAD_STAT) (loadStat_applySection img) img.dir t)
  have phase (t : State) (v : Nat) : (t.put F.CFG_LOAD_STAT_PHASE v).get F.CFG_LOAD_STAT_DONE = t.get F.CFG_LOAD_STAT_DONE :=
    rget_rput_bits _ _ (by decide)
  rw [applied, phase, sections, phase, phase]

/-! ### A complete load (R57 steps 5 and 6) -/

theorem loadDone_fields (img : Image) (s : State) :
    ((loadDone img s).put F.CFG_LOAD_STAT_PHASE 8).get F.CFG_LOAD_STAT_DONE = 1 ∧
      ((loadDone img s).put F.CFG_LOAD_STAT_PHASE 8).get F.CFG_LOAD_STAT_PHASE = 8 := by
  simp (disch := decide) only [loadDone, get_eq, put_regs, rget_rput_same, rget_rput_bits]
  trivial

theorem reg_loadDone {a : Nat} (h : a ≠ R.CFG_LOAD_STAT) (img : Image) (s : State) :
    ((loadDone img s).put F.CFG_LOAD_STAT_PHASE 8).reg a =
      ((s.setReg R.CFG_IMAGE_VER img.imageVer).setPair R.CFG_BUILD_LO R.CFG_BUILD_HI img.buildId).reg a := by
  rw [reg_put_other h, loadDone, reg_put_other h, reg_put_other h]

theorem reg_loaded_version (img : Image) (s : State) : (loaded img s).reg R.CFG_IMAGE_VER = img.imageVer :=
  (reg_loadDone (by decide) ..).trans ((reg_setPair_other (by decide) (by decide) ..).trans (reg_setReg_same ..))

theorem reg_loaded_build (img : Image) (s : State) : (loaded img s).reg R.CFG_BUILD_HI ++ (loaded img s).reg R.CFG_BUILD_LO = img.buildId := by
  have hi : (loaded img s).reg R.CFG_BUILD_HI = img.buildId.extractLsb' 32 32 := (reg_loadDone (by decide) ..).trans (reg_setReg_same ..)
  have lo : (loaded img s).reg R.CFG_BUILD_LO = img.buildId.extractLsb' 0 32 :=
    (reg_loadDone (by decide) ..).trans ((reg_setReg_other (by decide) ..).trans (reg_setReg_same ..))
  rw [hi, lo, BitVec.extractLsb'_append_extractLsb'_eq_extractLsb' (show 32 = 0 + 32 from rfl)]
  exact BitVec.extractLsb'_eq_self

/-- The presets of an image. -/
def imgPresets (img : Image) : Option (List (Word × Word)) := imgFind img (fun d => match d.body with | .presets l => some l | _ => none)

theorem applyPresets_eq (img : Image) (s : State) :
    applyPresets img s = forEach ((imgPresets img).getD []) (fun p s => registerWriteNow (.core 0) p.1.toNat p.2 ⟨0, 0, 0⟩ s) s := rfl

/-- An image without presets is in use as its sections were applied. -/
theorem image_loaded {img : Image} (presets : imgPresets img = none) (s : State) : (loaded img s).cfg.image = some img := by
  have unwritten : applyPresets img (applied img s) = applied img s := by rw [applyPresets_eq, presets]; rfl
  show (applyPresets img (applied img s)).cfg.image = some img
  rw [unwritten]
  rfl

/-- Settles O6: each refusal is `refused` before the chip settles, and a complete load is `loaded`. -/
theorem imageLoadRunsInOrder : Obligations.ImageLoadRunsInOrder := by
  refine ⟨?start, ?unusable, ?read, ?unread, ?digest, ?signature, ?admission, ?done, ?store⟩
  case start =>
    intro off img s handed configure phase fail bytes size offset
    rw [exec_imageLoadStart handed configure phase fail, bytes, if_pos ((headerSane_iff img).mpr ⟨size, offset⟩)]
    rfl
  case unusable =>
    intro off img s handed configure phase fail bytes unusable
    have insane : ¬ headerSane img = true := Bool.eq_false_iff.mp ((headerSane_eq_false_iff img).mpr unusable)
    refine ⟨refused (3, 0xFF) (reading img s), ?_, refusedAs_refused (3, 0xFF) _, refused_reading_cfg .., ?_, ?_⟩
    · rw [exec_imageLoadStart handed configure phase fail, bytes, if_neg insane, loadFail_eq]
    · exact ((regsKept_reading img s).mono (by decide)).trans (regsKept_refused _ _)
    · exact ((refused_moves (3, 0xFF) (reading img s)).on ((reading_moves img s).wide (m := 0x821) rfl) rfl).frame (by decide)
  case read =>
    intro failedAt img s configure staging phase outside
    exact exec_imageReadDone_complete (loading_eq configure staging phase) outside
  case unread =>
    intro b img s configure staging phase inside
    exact ⟨_, exec_imageReadDone_fails (loading_eq configure staging phase) inside, refusedAs_refused (1, _) s, cfg_refused .., regsKept_refused _ _,
      (refused_moves ..).frame (by decide)⟩
  case digest =>
    intro badStore img s configure staging phase digests
    refine ⟨refused (2, 0xFF) (s.flag F.TRC_FLT_DIGEST), ?_, refusedAs_refused (2, 0xFF) _, ?_, ?_, ?_⟩
    · rw [exec_signatureVerified badStore (loading_eq configure staging phase), judgeImage_digestDiffers badStore digests, loadFail_eq]
    · rw [State.on, (regsKept_refused _ _).get (f := F.TRC_FLT_DIGEST) (by decide), get_flag (by decide)]
      rfl
    · rw [cfg_refused, (flag_moves.parts 5 rfl)]
    · exact ((regsKept_flag s F.TRC_FLT_DIGEST).mono (by decide)).trans ((regsKept_refused _ _).mono (by decide))
  case signature =>
    intro badStore img s configure staging phase digests signed
    refine ⟨refused (2, 0xFF) s, ?_, refusedAs_refused (2, 0xFF) s, cfg_refused .., regsKept_refused _ _, (refused_moves ..).frame (by decide)⟩
    rw [exec_signatureVerified badStore (loading_eq configure staging phase), judgeImage_unsigned badStore digests signed, loadFail_eq]
  case admission =>
    intro badStore img f s configure staging phase digests signed failed
    refine ⟨refused f (s.put F.CFG_LOAD_STAT_PHASE 4), ?_, refusedAs_refused f _, cfg_refused .., ?_, ?_⟩
    · rw [exec_signatureVerified badStore (loading_eq configure staging phase), judgeImage_notAdmitted badStore digests signed failed, loadFail_eq]
    · exact (regsKept_put (f := F.CFG_LOAD_STAT_PHASE) (by decide) 4).trans (regsKept_refused _ _)
    · exact ((refused_moves f _).on (put_moves.wide (m := 0x821) rfl) rfl).frame (by decide)
  case done =>
    intro badStore img s configure staging phase digests signed admitted agree
    have stores : badStore.bind (storeIndex img) = none := agree
    obtain ⟨done, at_⟩ := loadDone_fields img (applyPresets img (applied img s))
    refine ⟨loaded img s, ?_, done, at_, reg_loaded_version img s, reg_loaded_build img s, ?_, rfl, fun presets => image_loaded presets s⟩
    · rw [exec_signatureVerified badStore (loading_eq configure staging phase), judgeImage_admitted badStore digests signed admitted, stores]
    · exact irq_getLsbD_same ((loadDone img (applyPresets img (applied img s))).put F.CFG_LOAD_STAT_PHASE 8) (by decide)
  case store =>
    intro n img k s configure staging phase digests signed admitted differs
    have store : (some n).bind (storeIndex img) = some k := differs
    refine ⟨refused (5, k) (applied img s), ?_, refusedAs_refused (5, k) _, ?_, ?_⟩
    · rw [exec_signatureVerified (some n) (loading_eq configure staging phase), judgeImage_admitted (some n) digests signed admitted, store]
      rfl
    · rw [get_refused_done, get_applied_done]
    · rw [cfg_refused]

end Sys2Proof.Machine

end

section

/-! PROOF. A lane and its fields after several writes, and whether its head link runs (R67). -/

namespace Sys2Proof.Machine

/-! ### The state of a lane written again -/

theorem setV_setV {α : Type} {k : Nat} (v : Vector α k) (i : Fin k) (x y : α) : setV (setV v i x) i y = setV v i y := by
  ext j hj
  simp only [setV, Vector.getElem_set]
  split <;> rfl

theorem setV_get {α : Type} {k : Nat} (v : Vector α k) (i : Fin k) : setV v i (v.get i) = v := by
  ext j hj
  simp only [setV, Vector.getElem_set, Vector.get_eq_getElem]
  split
  next h => simp only [h]
  next => rfl

theorem setLn_setLn (s : State) (n : Lane) (l k : Ln) : (s.setLn n l).setLn n k = s.setLn n k :=
  congrArg (fun v => { s with lns := v }) (setV_setV s.lns n l k)

theorem setLn_self (s : State) (n : Lane) : s.setLn n (s.ln n) = s := congrArg (fun v => { s with lns := v }) (setV_get s.lns n)

theorem onLn_setLn (s : State) (n : Lane) (l : Ln) (f : Ln → Ln) : (s.setLn n l).onLn n f = s.setLn n (f l) := by
  rw [State.onLn, ln_setLn_same, setLn_setLn]

theorem onLn_self {s : State} {n : Lane} {f : Ln → Ln} (h : f (s.ln n) = s.ln n) : s.onLn n f = s := by rw [State.onLn, h, setLn_self]

/-! ### Registers written again -/

@[simp] theorem reg_onLn (s : State) (n : Lane) (f : Ln → Ln) (a : Nat) : (s.onLn n f).reg a = s.reg a := rfl

@[simp] theorem get_onLn (s : State) (n : Lane) (f : Ln → Ln) (g : Fld) : (s.onLn n f).get g = s.get g := rfl

theorem reg_put_same (s : State) (f : Fld) (v : Nat) : (s.put f v).reg f.addr = insertBits f v (s.reg f.addr) := rreg_rput_same ..

theorem insertBits_zero (f : Fld) : insertBits f 0 0 = 0 := by simp [insertBits]

/-- A field of a register that has been cleared. -/
theorem rget_rset_zero {f : Fld} {a : Nat} (h : f.addr = a) (m : SMap Word) : rget (rset m a 0) f = 0 := by
  rw [rget, h, rreg_rset_same]
  simp

theorem get_put_same {s : State} {f : Fld} (hf : f.lo + f.width ≤ 32) (v : Nat) : (s.put f v).get f = v % 2 ^ f.width := rget_rput_same _ _ _ hf

theorem get_put_apart {f g : Fld} (h : g.lo + g.width ≤ f.lo ∨ f.lo + f.width ≤ g.lo) (s : State) (v : Nat) : (s.put f v).get g = s.get g :=
  rget_rput_bits _ _ h

/-- A field is not zero where one of its bits is set. -/
theorem on_eq_any_bit (s : State) (f : Fld) : s.on f = (List.range f.width).any (fun b => s.on (f.bit b)) := by
  rw [Bool.eq_iff_iff, List.any_eq_true]
  have bit {b : Nat} (hb : b < f.width) : s.on (f.bit b) = (s.get f).testBit b := by
    rw [State.on, get_eq, rget_bit _ _ _ hb, get_eq]
    cases (rget s.regs f).testBit b <;> rfl
  constructor
  · intro on_
    obtain ⟨b, hb⟩ := Nat.exists_testBit_of_ne_zero (bne_iff_ne.mp on_)
    have inside : b < f.width := by
      by_contra outside
      have small : s.get f < 2 ^ b := Nat.lt_of_lt_of_le (rget_lt s.regs f) (Nat.pow_le_pow_right (by decide) (Nat.not_lt.mp outside))
      rw [Nat.testBit_lt_two_pow small] at hb
      cases hb
    exact ⟨b, List.mem_range.mpr inside, (bit inside).trans hb⟩
  · rintro ⟨b, mem, hb⟩
    rw [bit (List.mem_range.mp mem)] at hb
    exact bne_iff_ne.mpr (fun zero => by simp [zero] at hb)

/-! ### The head link (R67) -/

/-- An operation that writes neither the mode nor the units leaves whether the head link runs. -/
theorem regsKept.pckRuns {l : List Nat} {s t : State} (h : regsKept l s t) {n : Lane} (apart : R.GLB_MODE ∉ l ∧ R.GLB_UNIT_OK0 ∉ l) :
    pckRuns t n = pckRuns s n := by
  have mode : t.mode = s.mode := h.get (f := F.GLB_MODE_MODE) apart.1
  have present : lanePresent t n = lanePresent s n := by rw [lanePresent, h.get (f := F.GLB_UNIT_OK0_LANE.bit n) apart.2, lanePresent]
  rw [Machine.pckRuns, mode, present, Machine.pckRuns]

/-- The registers of a lane that the head link writes are no part of what decides whether it runs. -/
theorem headLink_apart (n : Lane) : R.GLB_MODE ∉ [R.LNn_PBUS_RES n, R.LNn_HL_STAT n, R.LNn_HL_CNT n] ∧
    R.GLB_UNIT_OK0 ∉ [R.LNn_PBUS_RES n, R.LNn_HL_STAT n, R.LNn_HL_CNT n] := by
  revert n
  decide

end Sys2Proof.Machine

end

section

/-! PROOF. Firmware commands of the preamp bus (R67, R78, R134): queued, refused while the result is busy, dropped with the head link stopped. -/

namespace Sys2Proof.Machine

/-! ### What a command does -/

@[simp] theorem ln_answer (s : State) (b : BusAnswer) (m : Lane) : (s.answer b).ln m = s.ln m := rfl

/-- A command that neither comes early nor waits acts, and is answered (R59, R633). -/
theorem exec_pbusCommandWrite {n : Lane} {s : State} (w : Word) (early : earlyWrite s (R.LNn_PBUS_CMD n) = false)
    (busy : laneBusy s (R.LNn_PBUS_CMD n) = false) : exec (.pbusCommandWrite n w) s = .next ((pbusCommandEff n w s).answer .done) := by
  show Host.Outcome.next (s.write (.core 0) (R.LNn_PBUS_CMD n) w (pbusCommandEff n w)) = _
  rw [State.write, early, busy]
  rfl

/-- While the result is busy a command is rejected (R78). -/
theorem pbusCommandEff_busy {n : Lane} {s : State} (w : Word) (busy : s.on (F.LNn_PBUS_RES_BUSY n) = true) :
    pbusCommandEff n w s = s.put (F.LNn_PBUS_RES_REJECT n) 1 := if_pos busy

/-- While the head link is stopped a command is dropped at once (R67). -/
theorem pbusCommandEff_stopped {n : Lane} {s : State} (w : Word) (idle : s.on (F.LNn_PBUS_RES_BUSY n) = false) (stopped : pckRuns s n = false) :
    pbusCommandEff n w s = dropFirmware n (s.put (F.LNn_PBUS_RES_REJECT n) 0) := by
  simp [pbusCommandEff, idle, stopped]

/-- A command's frames at the end of the queue, its result busy and empty (R78). -/
def commandQueued (n : Lane) (frames : List PbFrame) (s : State) : State :=
  (((s.onLn n (fun l => { l with fwQ := l.fwQ ++ frames, fwCrc := false, fwMis := false, fwData := 0 })).put (F.LNn_PBUS_RES_BUSY n) 1).put
    (F.LNn_PBUS_RES_VALID n) 0).put (F.LNn_PBUS_RES_REJECT n) 0

/-- While the head link runs a command that has frames queues them. -/
theorem pbusCommandEff_queues {n : Lane} {w : Word} {frames : List PbFrame} {s : State} (idle : s.on (F.LNn_PBUS_RES_BUSY n) = false)
    (runs : pckRuns s n = true) (command : firmwareFrames s n w = frames) (some_ : frames ≠ []) :
    pbusCommandEff n w s = commandQueued n frames s := by
  subst command
  simp [pbusCommandEff, idle, runs, some_, commandQueued]

/-! ### The frames of a command -/

/-- But for a broadcast of ASSIST a command has one frame. -/
theorem firmwareFrames_single {s : State} {n : Lane} {w : Word} (h : ¬ (w.getLsbD 31 = true ∧ w.getLsbD 30 = true ∧ w.extractLsb' 21 6 = 4)) :
    firmwareFrames s n w = [⟨.firmware, if w.getLsbD 31 then .write else .read, 0, w.getLsbD 31 && w.getLsbD 30, w.extractLsb' 27 3,
      w.extractLsb' 21 6, w.extractLsb' 0 16, 0, none, false, false, true, false, []⟩] := by
  have single : ¬ ((w.getLsbD 31 && w.getLsbD 30) && w.extractLsb' 21 6 == 0x04) = true := fun c => h (by simpa [and_assoc] using c)
  exact if_neg single

/-- A broadcast of ASSIST has a frame for each declared head (R134). -/
theorem firmwareFrames_assist {s : State} {n : Lane} {w : Word} (write : w.getLsbD 31 = true) (broadcast : w.getLsbD 30 = true)
    (assist : w.extractLsb' 21 6 = 4) :
    firmwareFrames s n w = (List.range (headsOf s n)).map (fun h =>
      ⟨.firmware, .write, 0, false, BitVec.ofNat 3 h, 4, w.extractLsb' 0 16, 0, none, false, false, h + 1 == headsOf s n, false, []⟩) := by
  simp [firmwareFrames, write, broadcast, assist]

/-! ### What a queued command leaves -/

theorem commandQueued_fields (n : Lane) (frames : List PbFrame) (s : State) :
    (commandQueued n frames s).get (F.LNn_PBUS_RES_BUSY n) = 1 ∧ (commandQueued n frames s).get (F.LNn_PBUS_RES_VALID n) = 0 ∧
      (commandQueued n frames s).get (F.LNn_PBUS_RES_REJECT n) = 0 := by
  simp (disch := exact of_decide_eq_true rfl) only [commandQueued, get_put_same, get_put_apart]
  exact ⟨rfl, rfl, rfl⟩

theorem ln_commandQueued (n m : Lane) (frames : List PbFrame) (s : State) : (commandQueued n frames s).ln m =
    if m = n then { s.ln n with fwQ := (s.ln n).fwQ ++ frames, fwCrc := false, fwMis := false, fwData := 0 } else s.ln m :=
  (ln_of_lns ((put_moves.step (put_moves.step put_moves)).parts 13 rfl) m).trans (ln_setLn ..)

theorem regsKept_commandQueued (n : Lane) (frames : List PbFrame) (s : State) : regsKept [R.LNn_PBUS_RES n] s (commandQueued n frames s) :=
  have queue : regsKept [R.LNn_PBUS_RES n] s
      (s.onLn n (fun l => { l with fwQ := l.fwQ ++ frames, fwCrc := false, fwMis := false, fwData := 0 })) := .of_regs rfl
  ((queue.trans (regsKept_put (f := F.LNn_PBUS_RES_BUSY n) List.mem_cons_self _)).trans
    (regsKept_put (f := F.LNn_PBUS_RES_VALID n) List.mem_cons_self _)).trans (regsKept_put (f := F.LNn_PBUS_RES_REJECT n) List.mem_cons_self _)

theorem commandQueued_moves (n : Lane) (frames : List PbFrame) (s : State) : Moves 0x2001 s (commandQueued n frames s) :=
  put_moves.on (put_moves.on (put_moves.on (onLn_moves.wide (m := 0x2001) rfl) rfl) rfl) rfl

/-- An accepted command waits in the queue, busy, and nothing but its lane and its result changes (R78). -/
theorem pbusCommandWrite_queues {n : Lane} {w : Word} {frames : List PbFrame} {s : State} (early : earlyWrite s (R.LNn_PBUS_CMD n) = false)
    (busy : laneBusy s (R.LNn_PBUS_CMD n) = false) (runs : pckRuns s n = true) (idle : s.on (F.LNn_PBUS_RES_BUSY n) = false)
    (command : firmwareFrames s n w = frames) (some_ : frames ≠ []) :
    ∃ t : State, exec (.pbusCommandWrite n w) s = .next t ∧
      t.bus = .done ∧
      t.get (F.LNn_PBUS_RES_BUSY n) = 1 ∧
      t.get (F.LNn_PBUS_RES_VALID n) = 0 ∧
      t.get (F.LNn_PBUS_RES_REJECT n) = 0 ∧
      t.ln n = { s.ln n with fwQ := (s.ln n).fwQ ++ frames, fwCrc := false, fwMis := false, fwData := 0 } ∧
      (∀ m, m ≠ n → t.ln m = s.ln m) ∧
      regsKept [R.LNn_PBUS_RES n] s t ∧
      onlyParts [.regs, .lns, .bus] s t := by
  obtain ⟨isBusy, invalid, unrejected⟩ := commandQueued_fields n frames s
  refine ⟨(commandQueued n frames s).answer .done, ?_, rfl, (get_answer ..).trans isBusy, (get_answer ..).trans invalid,
    (get_answer ..).trans unrejected, (ln_answer ..).trans ((ln_commandQueued n n frames s).trans (if_pos rfl)),
    fun m hm => (ln_answer ..).trans ((ln_commandQueued n m frames s).trans (if_neg hm)), regsKept_answer (regsKept_commandQueued n frames s) _,
    onlyParts_answer ((commandQueued_moves n frames s).frame (by decide)) (by decide) _⟩
  rw [exec_pbusCommandWrite w early busy, pbusCommandEff_queues idle runs command some_]

/-! ### What a dropped command leaves -/

/-- A command dropped shows VALID and DROPPED alone, since REJECT has been cleared. -/
theorem reg_dropFirmware (n : Lane) (s : State) :
    (dropFirmware n (s.put (F.LNn_PBUS_RES_REJECT n) 0)).reg (R.LNn_PBUS_RES n) =
      (((s.setReg (R.LNn_PBUS_RES n) 0).put (F.LNn_PBUS_RES_VALID n) 1).put (F.LNn_PBUS_RES_DROPPED n) 1).reg (R.LNn_PBUS_RES n) := by
  have cleared : (s.put (F.LNn_PBUS_RES_REJECT n) 0).get (F.LNn_PBUS_RES_REJECT n) = 0 := get_put_same (of_decide_eq_true rfl) 0
  have result : (clearResult n (s.put (F.LNn_PBUS_RES_REJECT n) 0)).reg (R.LNn_PBUS_RES n) = 0 := by
    rw [clearResult, cleared]
    refine (reg_put_same _ (F.LNn_PBUS_RES_REJECT n) 0).trans ?_
    exact (congrArg (insertBits (F.LNn_PBUS_RES_REJECT n) 0) (reg_setReg_same ..)).trans (insertBits_zero _)
  have shown {t : State} (h : t.reg (R.LNn_PBUS_RES n) = 0) :
      ((t.put (F.LNn_PBUS_RES_VALID n) 1).put (F.LNn_PBUS_RES_DROPPED n) 1).reg (R.LNn_PBUS_RES n) =
      insertBits (F.LNn_PBUS_RES_DROPPED n) 1 (insertBits (F.LNn_PBUS_RES_VALID n) 1 0) :=
    (reg_put_same _ (F.LNn_PBUS_RES_DROPPED n) 1).trans
      (congrArg _ ((reg_put_same _ (F.LNn_PBUS_RES_VALID n) 1).trans (congrArg (insertBits (F.LNn_PBUS_RES_VALID n) 1) h)))
  exact (shown result).trans (shown (reg_setReg_same ..)).symm

theorem regsKept_clearResult (n : Lane) (s : State) : regsKept [R.LNn_PBUS_RES n] s (clearResult n s) := by
  have set : regsKept [R.LNn_PBUS_RES n] s (s.setReg (R.LNn_PBUS_RES n) 0) := regsKept_setReg List.mem_cons_self _
  exact set.trans (regsKept_put (f := F.LNn_PBUS_RES_REJECT n) List.mem_cons_self _)

theorem regsKept_dropFirmware (n : Lane) (s : State) : regsKept [R.LNn_PBUS_RES n] s (dropFirmware n s) :=
  ((regsKept_clearResult n s).trans (regsKept_put (f := F.LNn_PBUS_RES_VALID n) List.mem_cons_self _)).trans
    (regsKept_put (f := F.LNn_PBUS_RES_DROPPED n) List.mem_cons_self _)

/-- With the head link stopped a command completes as dropped (R67). -/
theorem pbusCommandWrite_dropped {n : Lane} (w : Word) {s : State} (early : earlyWrite s (R.LNn_PBUS_CMD n) = false)
    (busy : laneBusy s (R.LNn_PBUS_CMD n) = false) (idle : s.on (F.LNn_PBUS_RES_BUSY n) = false) (stopped : pckRuns s n = false) :
    ∃ t : State, exec (.pbusCommandWrite n w) s = .next t ∧
      t.bus = .done ∧
      t.reg (R.LNn_PBUS_RES n) =
        (((s.setReg (R.LNn_PBUS_RES n) 0).put (F.LNn_PBUS_RES_VALID n) 1).put (F.LNn_PBUS_RES_DROPPED n) 1).reg (R.LNn_PBUS_RES n) ∧
      regsKept [R.LNn_PBUS_RES n] s t ∧
      onlyParts [.regs, .bus] s t := by
  have kept : regsKept [R.LNn_PBUS_RES n] s (s.put (F.LNn_PBUS_RES_REJECT n) 0) := regsKept_put (f := F.LNn_PBUS_RES_REJECT n) List.mem_cons_self _
  refine ⟨(dropFirmware n (s.put (F.LNn_PBUS_RES_REJECT n) 0)).answer .done, ?_, rfl, (reg_answer ..).trans (reg_dropFirmware n s),
    regsKept_answer (kept.trans (regsKept_dropFirmware n _)) _,
    onlyParts_answer ((dropFirmware_moves.step put_moves).frame (by decide)) (by decide) _⟩
  rw [exec_pbusCommandWrite w early busy, pbusCommandEff_stopped w idle stopped]

end Sys2Proof.Machine

end

section

/-! PROOF. The start of a frame on the preamp bus (R68, R74, R75, R77): which frame starts, what leaves the chip, and what is recorded. -/

namespace Sys2Proof.Machine

/-! ### A frame put on the bus -/

/-- The values last sent to the registers of the heads, with a write frame put on the bus (R133). -/
def valuesSent (n : Lane) (f : PbFrame) (s : State) : SMap (BitVec 16) :=
  if f.kind ≠ .write then (s.ln n).lastSent
  else if f.bc then (List.range 8).foldl (fun m h => smSet (64 * h + f.addr.toNat) (frameData s n f) m) (s.ln n).lastSent
  else smSet (64 * f.head.toNat + f.addr.toNat) (frameData s n f) (s.ln n).lastSent

/-- The heads whose HEAT a frame changes (R94). -/
def headsHeated (n : Lane) (f : PbFrame) (s : State) : List Nat :=
  (if f.kind = .write ∧ f.addr = 0x08 then (if f.bc then List.range 8 else [f.head.toNat]) else []).filter
    (fun h => decide (smGet (64 * h + 8) (s.ln n).lastSent ≠ some (frameData s n f)))

/-- The lane with a frame on its bus. -/
def frameOnBus (n : Lane) (f : PbFrame) (s : State) : Ln :=
  { s.ln n with
    bus := some { f with data := frameData s n f, heats := headsHeated n f s }, lastSent := valuesSent n f s,
    heatAt := (headsHeated n f s).foldl (fun m h => smSet h s.now m) (s.ln n).heatAt }

/-- A frame that starts sends its bits and stands on its lane's bus. -/
theorem startFrame_eq (n : Lane) (f : PbFrame) (s : State) : startFrame n f s =
    (s.emit (.preamp n (frameBits { f with data := frameData s n f }).1 (frameBits { f with data := frameData s n f }).2)).setLn n
      (frameOnBus n f s) := by
  have sent (l : Ln) (b : Option PbFrame) (t : SMap Dword) :
      { (if f.kind ≠ .write then l
          else if f.bc then { l with lastSent := (List.range 8).foldl (fun m h => smSet (64 * h + f.addr.toNat) (frameData s n f) m) l.lastSent }
          else { l with lastSent := smSet (64 * f.head.toNat + f.addr.toNat) (frameData s n f) l.lastSent }) with bus := b, heatAt := t } =
        { l with
          bus := b, heatAt := t,
          lastSent :=
            if f.kind ≠ .write then l.lastSent
            else if f.bc then (List.range 8).foldl (fun m h => smSet (64 * h + f.addr.toNat) (frameData s n f) m) l.lastSent
            else smSet (64 * f.head.toNat + f.addr.toNat) (frameData s n f) l.lastSent } := by
    by_cases write : f.kind = .write
    · cases broadcast : f.bc <;> simp [write]
    · simp [write]
  exact congrArg (State.setLn _ n) (sent (s.ln n) _ _)

theorem ln_startFrame (n m : Lane) (f : PbFrame) (s : State) : (startFrame n f s).ln m = if m = n then frameOnBus n f s else s.ln m := by
  rw [startFrame_eq, ln_setLn]
  rfl

theorem sent_startFrame (n : Lane) (f : PbFrame) (s : State) : (startFrame n f s).sent =
    s.sent ++ [.preamp n (frameBits { f with data := frameData s n f }).1 (frameBits { f with data := frameData s n f }).2] := by
  rw [startFrame_eq]
  rfl

/-- A gate frame records no value and heats no head. -/
theorem frameOnBus_gate {n : Lane} {f : PbFrame} {s : State} (gate : f.kind = .gate) :
    frameOnBus n f s = { s.ln n with bus := some { f with data := frameData s n f, heats := [] } } := by
  simp [frameOnBus, headsHeated, valuesSent, gate]

/-- A gate frame has no data bits (R68). -/
theorem frameBits_gate {f : PbFrame} (gate : f.kind = .gate) (data : BitVec 16) :
    frameBits { f with data := data } = (8, gateHeader f * 2 + parityBit (gateHeader f) 7) := by
  simp only [frameBits, gate]
  rfl

/-- The value of a register write to one head is recorded for it (R133). -/
theorem valuesSent_write {n : Lane} {f : PbFrame} {s : State} (write : f.kind = .write) (single : f.bc = false) :
    smGet (64 * f.head.toNat + f.addr.toNat) (valuesSent n f s) = some (frameData s n f) := by
  simp [valuesSent, write, single]

/-! ### Which frame starts -/

/-- A frame fits before the next gate frame, if one is scheduled (R75). -/
def fitsBefore (room : Option Nat) (f : PbFrame) : Bool := match room with | some r => decide (frameLength f ≤ r) | none => true

theorem fitsBefore_iff {room : Option Nat} {f : PbFrame} : fitsBefore room f = true ↔ ∀ r, room = some r → frameLength f ≤ r := by
  cases room <;> simp [fitsBefore]

/-- Whether a gate frame may start follows from the registers and the clears that wait for a gate (R77). -/
theorem gateAllowed_setLn {n : Lane} {g : PbFrame} {s : State} {k : Ln} (held : k.enHeld = (s.ln n).enHeld) :
    gateAllowed (s.setLn n k) n g = gateAllowed s n g := by
  simp only [gateAllowed, headEnabled, ln_setLn_same, held]
  rfl

/-- A gate frame that is due starts, or is taken away where its head is disabled (R75, R77). -/
theorem exec_pbusFrameStart_gate {n : Lane} {room : Option Nat} {g : PbFrame} {rest : List PbFrame} {s : State} (free : (s.ln n).bus = none)
    (runs : pckRuns s n = true) (queue : (s.ln n).gateQ = g :: rest) (due : g.asap = true ∨ room = some 0) :
    exec (.pbusFrameStart n room) s =
      .next (if gateAllowed s n g then startFrame n g (s.setLn n { s.ln n with gateQ := rest }) else s.setLn n { s.ln n with gateQ := rest }) := by
  have due' : (g.asap || room == some 0) = true := by simpa using due
  show execPbusFrameStart n room s = _
  simp only [execPbusFrameStart, free, runs, queue, due', gateAllowed_setLn, Option.isSome_none, Bool.true_or, Bool.not_true, Bool.or_self,
    Bool.false_eq_true, if_false, if_true]

/-- With no gate frame due the first setting frame starts, if it fits before the next gate frame (R74, R75). -/
theorem exec_pbusFrameStart_setting {n : Lane} {room : Option Nat} {f : PbFrame} {rest : List PbFrame} {s : State} (free : (s.ln n).bus = none)
    (runs : pckRuns s n = true) (notDue : ∀ g, (s.ln n).gateQ.head? = some g → g.asap = false ∧ room ≠ some 0)
    (queue : (s.ln n).setQ = f :: rest) (fits : ∀ r, room = some r → frameLength f ≤ r) :
    exec (.pbusFrameStart n room) s = .next (startFrame n f (s.setLn n { s.ln n with setQ := rest })) := by
  show execPbusFrameStart n room s = _
  cases gates : (s.ln n).gateQ with
  | nil =>
    simp only [execPbusFrameStart, free, runs, gates, queue, Option.isSome_none, Bool.true_or, Bool.not_true, Bool.or_self,
      Bool.false_eq_true, if_false]
    exact congrArg _ (if_pos (fitsBefore_iff.mpr fits))
  | cons g gs =>
    have later : (g.asap || room == some 0) = false := by simpa using notDue g (by rw [gates, List.head?_cons])
    simp only [execPbusFrameStart, free, runs, gates, queue, later, Option.isSome_none, Bool.true_or, Bool.not_true, Bool.or_self,
      Bool.false_eq_true, if_false]
    exact congrArg _ (if_pos (fitsBefore_iff.mpr fits))

/-- With no gate frame due and no setting frame the first firmware frame starts, if it fits before the next gate frame (R74, R75). -/
theorem exec_pbusFrameStart_firmware {n : Lane} {room : Option Nat} {f : PbFrame} {rest : List PbFrame} {s : State} (free : (s.ln n).bus = none)
    (runs : pckRuns s n = true) (notDue : ∀ g, (s.ln n).gateQ.head? = some g → g.asap = false ∧ room ≠ some 0) (noSetting : (s.ln n).setQ = [])
    (queue : (s.ln n).fwQ = f :: rest) (fits : ∀ r, room = some r → frameLength f ≤ r) :
    exec (.pbusFrameStart n room) s = .next (startFrame n f (s.setLn n { s.ln n with fwQ := rest })) := by
  show execPbusFrameStart n room s = _
  cases gates : (s.ln n).gateQ with
  | nil =>
    simp only [execPbusFrameStart, free, runs, gates, noSetting, queue, Option.isSome_none, Bool.true_or, Bool.not_true, Bool.or_self,
      Bool.false_eq_true, if_false]
    exact congrArg _ (if_pos (fitsBefore_iff.mpr fits))
  | cons g gs =>
    have later : (g.asap || room == some 0) = false := by simpa using notDue g (by rw [gates, List.head?_cons])
    simp only [execPbusFrameStart, free, runs, gates, noSetting, queue, later, Option.isSome_none, Bool.true_or, Bool.not_true, Bool.or_self,
      Bool.false_eq_true, if_false]
    exact congrArg _ (if_pos (fitsBefore_iff.mpr fits))

/-! ### What a frame that starts leaves -/

/-- A gate frame for an enabled head stands on the bus, and its eight bits leave the chip (R68, R75). -/
theorem pbusFrameStart_gate {n : Lane} {room : Option Nat} {g : PbFrame} {rest : List PbFrame} {s : State} (free : (s.ln n).bus = none)
    (runs : pckRuns s n = true) (queue : (s.ln n).gateQ = g :: rest) (gate : g.kind = .gate) (due : g.asap = true ∨ room = some 0)
    (allowed : gateAllowed s n g = true) :
    ∃ t : State, exec (.pbusFrameStart n room) s = .next t ∧
      t.ln n = { s.ln n with gateQ := rest, bus := some { g with data := frameData s n g, heats := [] } } ∧
      (∀ m, m ≠ n → t.ln m = s.ln m) ∧
      t.sent = s.sent ++ [.preamp n 8 (gateHeader g * 2 + parityBit (gateHeader g) 7)] ∧
      onlyParts [.lns, .sent] s t := by
  have start := exec_pbusFrameStart_gate free runs queue due
  rw [if_pos allowed] at start
  refine ⟨_, start, ?_, fun m hm => ?_, ?_, (startFrame_moves.on (setLn_moves.wide (m := 0x8002000) rfl) rfl).frame (by decide)⟩
  · rw [ln_startFrame, if_pos rfl, frameOnBus_gate gate, ln_setLn_same]
    rfl
  · rw [ln_startFrame, if_neg hm, ln_setLn_other hm]
  · rw [sent_startFrame, frameBits_gate gate]
    rfl

/-- A setting or firmware frame that starts from its queue: `k` is its lane without the frame. -/
theorem startFrame_fromQueue (n : Lane) (f : PbFrame) (k : Ln) (s : State) (values : k.lastSent = (s.ln n).lastSent) :
    ((startFrame n f (s.setLn n k)).ln n).bus.map (fun g => { g with heats := [] }) = some { f with data := frameData s n f, heats := [] } ∧
      ((startFrame n f (s.setLn n k)).ln n).gateQ = k.gateQ ∧ ((startFrame n f (s.setLn n k)).ln n).setQ = k.setQ ∧
      ((startFrame n f (s.setLn n k)).ln n).fwQ = k.fwQ ∧
      (f.kind = .write → f.bc = false →
        smGet (64 * f.head.toNat + f.addr.toNat) ((startFrame n f (s.setLn n k)).ln n).lastSent = some (frameData s n f)) ∧
      (f.kind ≠ .write → ((startFrame n f (s.setLn n k)).ln n).lastSent = (s.ln n).lastSent) ∧
      (startFrame n f (s.setLn n k)).sent =
        s.sent ++ [.preamp n (frameBits { f with data := frameData s n f }).1 (frameBits { f with data := frameData s n f }).2] ∧
      (∀ m, m ≠ n → (startFrame n f (s.setLn n k)).ln m = s.ln m) ∧
      onlyParts [.lns, .sent] s (startFrame n f (s.setLn n k)) := by
  have lane : (startFrame n f (s.setLn n k)).ln n = frameOnBus n f (s.setLn n k) := (ln_startFrame ..).trans (if_pos rfl)
  have taken : (s.setLn n k).ln n = k := ln_setLn_same ..
  rw [lane]
  refine ⟨rfl, ?_, ?_, ?_, fun write single => ?_, fun other => ?_, sent_startFrame .., fun m hm => ?_,
    (startFrame_moves.on (setLn_moves.wide (m := 0x8002000) rfl) rfl).frame (by decide)⟩
  · exact (congrArg Ln.gateQ taken :)
  · exact (congrArg Ln.setQ taken :)
  · exact (congrArg Ln.fwQ taken :)
  · exact valuesSent_write (s := s.setLn n k) write single
  · exact (if_pos other).trans ((congrArg Ln.lastSent taken).trans values)
  · rw [ln_startFrame, if_neg hm, ln_setLn_other hm]

/-- The frame of a setting queue or, with none there, of the firmware's starts where no gate frame is due (R74, R75). -/
theorem pbusFrameStart_queued {n : Lane} {room : Option Nat} {f : PbFrame} {rest : List PbFrame} {s : State} (free : (s.ln n).bus = none)
    (runs : pckRuns s n = true) (notDue : ∀ g, (s.ln n).gateQ.head? = some g → g.asap = false ∧ room ≠ some 0)
    (queue : (s.ln n).setQ = f :: rest ∨ ((s.ln n).setQ = [] ∧ (s.ln n).fwQ = f :: rest)) (fits : ∀ r, room = some r → frameLength f ≤ r) :
    ∃ t : State, exec (.pbusFrameStart n room) s = .next t ∧
      (t.ln n).bus.map (fun g => { g with heats := [] }) = some { f with data := frameData s n f, heats := [] } ∧
      (t.ln n).gateQ = (s.ln n).gateQ ∧
      ((s.ln n).setQ = [] → (t.ln n).setQ = [] ∧ (t.ln n).fwQ = rest) ∧
      ((s.ln n).setQ ≠ [] → (t.ln n).setQ = rest ∧ (t.ln n).fwQ = (s.ln n).fwQ) ∧
      (f.kind = .write → f.bc = false → smGet (64 * f.head.toNat + f.addr.toNat) (t.ln n).lastSent = some (frameData s n f)) ∧
      (f.kind ≠ .write → (t.ln n).lastSent = (s.ln n).lastSent) ∧
      t.sent = s.sent ++ [.preamp n (frameBits { f with data := frameData s n f }).1 (frameBits { f with data := frameData s n f }).2] ∧
      (∀ m, m ≠ n → t.ln m = s.ln m) ∧
      onlyParts [.lns, .sent] s t := by
  rcases queue with setting | ⟨noSetting, firmware⟩
  · obtain ⟨bus, gates, settings, firmware, after⟩ := startFrame_fromQueue n f { s.ln n with setQ := rest } s rfl
    have some_ : (s.ln n).setQ ≠ [] := by rw [setting]; exact List.cons_ne_nil f rest
    exact ⟨_, exec_pbusFrameStart_setting free runs notDue setting fits, bus, gates,
      fun none_ => absurd none_ some_, fun _ => ⟨settings, firmware⟩, after⟩
  · obtain ⟨bus, gates, settings, left, after⟩ := startFrame_fromQueue n f { s.ln n with fwQ := rest } s rfl
    exact ⟨_, exec_pbusFrameStart_firmware free runs notDue noSetting firmware fits, bus, gates, fun _ => ⟨settings.trans noSetting, left⟩,
      fun some_ => absurd noSetting some_, after⟩

end Sys2Proof.Machine

end

section

/-! PROOF. The end of a frame on the preamp bus (R67, R69, R78, R79): a gate frame, a firmware read checked, a firmware write and its read-back. -/

namespace Sys2Proof.Machine

/-! ### Which end a frame has -/

/-- The lane's bus set free. -/
def busFreed (n : Lane) (s : State) : State := s.onLn n (fun l => { l with bus := none })

@[simp] theorem get_busFreed (n : Lane) (s : State) (f : Fld) : (busFreed n s).get f = s.get f := rfl

@[simp] theorem on_busFreed (n : Lane) (s : State) (f : Fld) : (busFreed n s).on f = s.on f := rfl

@[simp] theorem pckRuns_busFreed (n : Lane) (s : State) : pckRuns (busFreed n s) n = pckRuns s n := rfl

theorem ln_busFreed (n : Lane) (s : State) : (busFreed n s).ln n = { s.ln n with bus := none } := ln_onLn_same ..

/-- What the frame's kind gives at its end. -/
def frameEnded (n : Lane) (f : PbFrame) (data : BitVec 16) (check : BitVec 8) (s : State) : State :=
  match f.kind with
  | .gate => s.onLn n (fun l => { l with pre := ⟨f.mode, f.head⟩, preAt := s.now })
  | .write => writeEnd n f s
  | .read => readEnd n f data check s

section

variable {n : Lane} {f : PbFrame} {data : BitVec 16} {check : BitVec 8} {s : State}

theorem frameEnded_gate (h : f.kind = .gate) :
    frameEnded n f data check s = s.onLn n (fun l => { l with pre := ⟨f.mode, f.head⟩, preAt := s.now }) := by rw [frameEnded, h]

theorem frameEnded_write (h : f.kind = .write) : frameEnded n f data check s = writeEnd n f s := by rw [frameEnded, h]

theorem frameEnded_read (h : f.kind = .read) : frameEnded n f data check s = readEnd n f data check s := by rw [frameEnded, h]

end

/-- Unless the head link has stopped under a firmware command, a frame's end is what its kind gives (R67). -/
theorem exec_pbusFrameEnd {n : Lane} {f : PbFrame} {data : BitVec 16} {check : BitVec 8} {s t : State} (bus : (s.ln n).bus = some f)
    (ended : frameEnded n f data check (busFreed n s) = t) (going : pckRuns t n = true ∨ t.on (F.LNn_PBUS_RES_BUSY n) = false) :
    exec (.pbusFrameEnd n data check) s = .next t := by
  subst ended
  have going' : ¬ (!pckRuns (frameEnded n f data check (busFreed n s)) n &&
      (frameEnded n f data check (busFreed n s)).on (F.LNn_PBUS_RES_BUSY n)) = true := by
    rcases going with runs | idle
    · simp [runs]
    · simp [idle]
  show execPbusFrameEnd n data check s = _
  unfold execPbusFrameEnd
  rw [bus]
  exact if_neg going'

/-- A frame whose end writes only the result and the check's flags and counters, with the head link running. -/
theorem exec_pbusFrameEnd_running {n : Lane} {f : PbFrame} {data : BitVec 16} {check : BitVec 8} {s t : State} (bus : (s.ln n).bus = some f)
    (runs : pckRuns s n = true) (ended : frameEnded n f data check (busFreed n s) = t)
    (kept : regsKept [R.LNn_PBUS_RES n, R.LNn_HL_STAT n, R.LNn_HL_CNT n] s t) : exec (.pbusFrameEnd n data check) s = .next t :=
  exec_pbusFrameEnd bus ended (.inl ((kept.pckRuns (headLink_apart n)).trans runs))

/-- A gate frame gives the preamp's mode and head (R69). -/
theorem pbusFrameEnd_gate {n : Lane} {f : PbFrame} {data : BitVec 16} {check : BitVec 8} {s : State} (bus : (s.ln n).bus = some f)
    (gate : f.kind = .gate) (going : pckRuns s n = true ∨ s.on (F.LNn_PBUS_RES_BUSY n) = false) :
    exec (.pbusFrameEnd n data check) s = .next (s.setLn n { s.ln n with bus := none, pre := ⟨f.mode, f.head⟩, preAt := s.now }) := by
  exact exec_pbusFrameEnd bus ((frameEnded_gate gate).trans (onLn_setLn ..)) going

/-! ### A firmware command that completes (R78) -/

/-- The result of the firmware command shows its data, its checks and that it is valid; REJECT stands. -/
theorem completeFirmware_fields (n : Lane) (s : State) :
    (completeFirmware n s).get (F.LNn_PBUS_RES_VALID n) = 1 ∧ (completeFirmware n s).get (F.LNn_PBUS_RES_BUSY n) = 0 ∧
      (completeFirmware n s).get (F.LNn_PBUS_RES_DATA n) = (s.ln n).fwData.toNat ∧
      (completeFirmware n s).get (F.LNn_PBUS_RES_CRC_ERR n) = b2n (s.ln n).fwCrc ∧
      (completeFirmware n s).get (F.LNn_PBUS_RES_MISMATCH n) = b2n (s.ln n).fwMis ∧
      (completeFirmware n s).get (F.LNn_PBUS_RES_REJECT n) = s.get (F.LNn_PBUS_RES_REJECT n) := by
  have regs : (completeFirmware n s).regs =
      rput (rput (rput (rput (rput (rset s.regs (R.LNn_PBUS_RES n) 0) (F.LNn_PBUS_RES_REJECT n) (s.get (F.LNn_PBUS_RES_REJECT n)))
        (F.LNn_PBUS_RES_VALID n) 1) (F.LNn_PBUS_RES_DATA n) (s.ln n).fwData.toNat) (F.LNn_PBUS_RES_CRC_ERR n) (b2n (s.ln n).fwCrc))
        (F.LNn_PBUS_RES_MISMATCH n) (b2n (s.ln n).fwMis) := rfl
  have flag (b : Bool) : b2n b % 2 ^ 1 = b2n b := by cases b <;> rfl
  have reject : s.get (F.LNn_PBUS_RES_REJECT n) < 2 ^ (F.LNn_PBUS_RES_REJECT n).width := rget_lt ..
  rw [get_eq, get_eq, get_eq, get_eq, get_eq, get_eq, regs]
  simp (disch := exact of_decide_eq_true rfl) only [rget_rput_same, rget_rput_bits]
  exact ⟨rfl, rget_rset_zero rfl _, Nat.mod_eq_of_lt (s.ln n).fwData.isLt, flag _, flag _, Nat.mod_eq_of_lt reject⟩

theorem regsKept_completeFirmware (n : Lane) (s : State) : regsKept [R.LNn_PBUS_RES n] s (completeFirmware n s) := by
  have mem {f : Fld} (h : f.addr = R.LNn_PBUS_RES n) : f.addr ∈ [R.LNn_PBUS_RES n] := h ▸ List.mem_cons_self
  exact ((((regsKept_clearResult n s).trans (regsKept_put (f := F.LNn_PBUS_RES_VALID n) (mem rfl) _)).trans
    (regsKept_put (f := F.LNn_PBUS_RES_DATA n) (mem rfl) _)).trans (regsKept_put (f := F.LNn_PBUS_RES_CRC_ERR n) (mem rfl) _)).trans
    (regsKept_put (f := F.LNn_PBUS_RES_MISMATCH n) (mem rfl) _)

theorem ln_completeFirmware (n m : Lane) (s : State) : (completeFirmware n s).ln m = s.ln m := ln_of_lns (completeFirmware_moves.parts 13 rfl) m

/-! ### The end of a firmware read (R79) -/

/-- The last frame of a read command has ended: its data is taken, with a CHECK error where the CHECK was wrong. -/
def readTaken (n : Lane) (bad : Bool) (data : BitVec 16) (s : State) : State :=
  completeFirmware n (s.onLn n (fun l => { l with fwCrc := l.fwCrc || bad, fwData := data }))

theorem ln_readTaken (n m : Lane) (bad : Bool) (data : BitVec 16) (s : State) :
    (readTaken n bad data s).ln m = if m = n then { s.ln n with fwCrc := (s.ln n).fwCrc || bad, fwData := data } else s.ln m := by
  rw [readTaken, ln_completeFirmware, State.onLn, ln_setLn]

theorem readTaken_fields (n : Lane) (bad : Bool) (data : BitVec 16) (s : State) :
    (readTaken n bad data s).get (F.LNn_PBUS_RES_VALID n) = 1 ∧ (readTaken n bad data s).get (F.LNn_PBUS_RES_BUSY n) = 0 ∧
      (readTaken n bad data s).get (F.LNn_PBUS_RES_DATA n) = data.toNat ∧
      (readTaken n bad data s).get (F.LNn_PBUS_RES_CRC_ERR n) = b2n ((s.ln n).fwCrc || bad) ∧
      (readTaken n bad data s).get (F.LNn_PBUS_RES_MISMATCH n) = b2n (s.ln n).fwMis ∧
      (readTaken n bad data s).get (F.LNn_PBUS_RES_REJECT n) = s.get (F.LNn_PBUS_RES_REJECT n) := by
  have fields := completeFirmware_fields n (s.onLn n (fun l => { l with fwCrc := l.fwCrc || bad, fwData := data }))
  rw [ln_onLn_same] at fields
  exact fields

theorem regsKept_readTaken (n : Lane) (bad : Bool) (data : BitVec 16) (s : State) : regsKept [R.LNn_PBUS_RES n] s (readTaken n bad data s) :=
  have taken : regsKept [R.LNn_PBUS_RES n] s (s.onLn n (fun l => { l with fwCrc := l.fwCrc || bad, fwData := data })) := .of_regs rfl
  taken.trans (regsKept_completeFirmware n _)

theorem readTaken_moves (n : Lane) (bad : Bool) (data : BitVec 16) (s : State) : Moves 0x2001 s (readTaken n bad data s) :=
  completeFirmware_moves.on (onLn_moves.wide (m := 0x2001) rfl) rfl

section

variable {n : Lane} {f : PbFrame} {data : BitVec 16} {check : BitVec 8} {s : State}

/-- A read whose CHECK is right completes its command. -/
theorem readEnd_right (firmware : f.source = .firmware) (final : f.final = true) (plain : f.expect = none) (right : check.toNat = readCheck f data) :
    readEnd n f data check s = readTaken n false data s := by
  simp [readEnd, right, plain, firmware, final, readTaken]

/-- A read whose CHECK is wrong is sent once more with AUTO_RETRY. -/
theorem readEnd_again (firmware : f.source = .firmware) (wrong : check.toNat ≠ readCheck f data) (first : f.retried = false)
    (auto : (busCheck n s).on (F.LNn_PBUS_CTL_AUTO_RETRY n) = true) (runs : pckRuns (busCheck n s) n = true) :
    readEnd n f data check s = (busCheck n s).onLn n (fun l => { l with fwQ := { f with retried := true } :: l.fwQ }) := by
  simp [readEnd, wrong, first, auto, runs, resend, firmware]

/-- A read whose CHECK is wrong and that is not sent again completes its command with the error. -/
theorem readEnd_wrong (firmware : f.source = .firmware) (final : f.final = true) (plain : f.expect = none) (wrong : check.toNat ≠ readCheck f data)
    (last : f.retried = true ∨ (busCheck n s).on (F.LNn_PBUS_CTL_AUTO_RETRY n) = false) :
    readEnd n f data check s = readTaken n true data (busCheck n s) := by
  have bad : (check.toNat == readCheck f data) = false := beq_eq_false_iff_ne.mpr wrong
  rcases last with retried | manual
  · simp [readEnd, bad, retried, plain, firmware, final, readTaken]
  · simp [readEnd, bad, manual, plain, firmware, final, readTaken]

end

/-- The registers of a failed CHECK, of the bus's result and of its control are four. -/
theorem checkRegs_apart (n : Lane) : R.LNn_HL_STAT n ∉ [R.LNn_PBUS_RES n] ∧ R.LNn_HL_CNT n ∉ [R.LNn_PBUS_RES n] ∧
    R.LNn_HL_STAT n ∉ [R.LNn_HL_CNT n] ∧ R.LNn_HL_CNT n ∉ [R.LNn_HL_STAT n] ∧ R.LNn_PBUS_CTL n ∉ [R.LNn_HL_STAT n, R.LNn_HL_CNT n] ∧
    R.LNn_PBUS_RES n ∉ [R.LNn_HL_STAT n, R.LNn_HL_CNT n] := by
  revert n
  decide

/-- The lane's bus free after a frame whose CHECK was wrong: the error is flagged and counted (R79). -/
def checkFailed (n : Lane) (s : State) : State := busCheck n (busFreed n s)

theorem ln_checkFailed (n m : Lane) (s : State) : (checkFailed n s).ln m = if m = n then { s.ln n with bus := none } else s.ln m := by
  rw [checkFailed, ln_of_lns (busCheck_moves.parts 13 rfl), busFreed, State.onLn, ln_setLn]

theorem checkFailed_moves (n : Lane) (s : State) : Moves 0x2901 s (checkFailed n s) :=
  busCheck_moves.on (onLn_moves.wide (m := 0x2901) rfl) rfl

theorem regsKept_checkFailed (n : Lane) (s : State) : regsKept [R.LNn_HL_STAT n, R.LNn_HL_CNT n] s (checkFailed n s) := by
  have freed : regsKept [R.LNn_HL_STAT n, R.LNn_HL_CNT n] s (busFreed n s) := .of_regs rfl
  have flagged : regsKept [R.LNn_HL_STAT n, R.LNn_HL_CNT n] (busFreed n s) ((busFreed n s).flag (F.LNn_HL_STAT_BUS_CHECK n)) :=
    (regsKept_flag _ (F.LNn_HL_STAT_BUS_CHECK n)).mono (List.cons_subset_cons _ (List.nil_subset _))
  exact (freed.trans flagged).trans (regsKept_put (f := F.LNn_HL_CNT_CHECK_CNT n) (List.mem_cons_of_mem _ List.mem_cons_self) _)

section

variable {n : Lane} {s t : State} (kept : regsKept [R.LNn_PBUS_RES n] (checkFailed n s) t)

include kept

/-- What follows and writes the result alone leaves the flag and the count. -/
theorem checkFailed_fields : t.get (F.LNn_HL_STAT_BUS_CHECK n) = 1 ∧
    t.get (F.LNn_HL_CNT_CHECK_CNT n) = min (s.get (F.LNn_HL_CNT_CHECK_CNT n) + 1) (2 ^ (F.LNn_HL_CNT_CHECK_CNT n).width - 1) := by
  obtain ⟨stat, cnt, statCnt, cntStat, -, -⟩ := checkRegs_apart n
  have flagged : regsKept [R.LNn_HL_STAT n] (busFreed n s) ((busFreed n s).flag (F.LNn_HL_STAT_BUS_CHECK n)) :=
    regsKept_flag _ (F.LNn_HL_STAT_BUS_CHECK n)
  have counted : regsKept [R.LNn_HL_CNT n] ((busFreed n s).flag (F.LNn_HL_STAT_BUS_CHECK n)) (checkFailed n s) :=
    regsKept_count _ (F.LNn_HL_CNT_CHECK_CNT n) 1
  constructor
  · rw [kept.get (f := F.LNn_HL_STAT_BUS_CHECK n) stat, counted.get (f := F.LNn_HL_STAT_BUS_CHECK n) statCnt,
      get_flag (of_decide_eq_true rfl)]
    rfl
  · rw [kept.get (f := F.LNn_HL_CNT_CHECK_CNT n) cnt, checkFailed, busCheck, get_count (of_decide_eq_true rfl),
      flagged.get (f := F.LNn_HL_CNT_CHECK_CNT n) cntStat, get_busFreed]

theorem regsKept_of_checkFailed : regsKept [R.LNn_PBUS_RES n, R.LNn_HL_STAT n, R.LNn_HL_CNT n] s t :=
  ((regsKept_checkFailed n s).mono (List.subset_cons_self ..)).trans (kept.mono (List.cons_subset_cons _ (List.nil_subset _)))

end

/-- A failed CHECK leaves AUTO_RETRY, and whether the head link runs. -/
theorem retry_checkFailed (n : Lane) (s : State) :
    (checkFailed n s).on (F.LNn_PBUS_CTL_AUTO_RETRY n) = s.on (F.LNn_PBUS_CTL_AUTO_RETRY n) ∧ pckRuns (checkFailed n s) n = pckRuns s n := by
  obtain ⟨-, -, -, -, ctl, -⟩ := checkRegs_apart n
  refine ⟨?_, (regsKept_of_checkFailed (.of_regs rfl)).pckRuns (headLink_apart n)⟩
  rw [State.on, (regsKept_checkFailed n s).get (f := F.LNn_PBUS_CTL_AUTO_RETRY n) ctl, State.on]

/-- A firmware read whose CHECK is right completes with its data (R78, R79). -/
theorem pbusFrameEnd_right {n : Lane} {f : PbFrame} {data : BitVec 16} {check : BitVec 8} {s : State} (bus : (s.ln n).bus = some f)
    (read : f.kind = .read) (firmware : f.source = .firmware) (final : f.final = true) (plain : f.expect = none) (runs : pckRuns s n = true)
    (right : check.toNat = readCheck f data) :
    ∃ t : State, exec (.pbusFrameEnd n data check) s = .next t ∧
      t.ln n = { s.ln n with bus := none, fwData := data } ∧
      (∀ m, m ≠ n → t.ln m = s.ln m) ∧
      t.get (F.LNn_PBUS_RES_VALID n) = 1 ∧
      t.get (F.LNn_PBUS_RES_BUSY n) = 0 ∧
      t.get (F.LNn_PBUS_RES_DATA n) = data.toNat ∧
      t.get (F.LNn_PBUS_RES_CRC_ERR n) = b2n (s.ln n).fwCrc ∧
      t.get (F.LNn_PBUS_RES_MISMATCH n) = b2n (s.ln n).fwMis ∧
      t.get (F.LNn_PBUS_RES_REJECT n) = s.get (F.LNn_PBUS_RES_REJECT n) ∧
      regsKept [R.LNn_PBUS_RES n] s t ∧
      onlyParts [.regs, .lns] s t := by
  have freed : regsKept [R.LNn_PBUS_RES n] s (busFreed n s) := .of_regs rfl
  have kept : regsKept [R.LNn_PBUS_RES n] s (readTaken n false data (busFreed n s)) := freed.trans (regsKept_readTaken n false data _)
  have ended : frameEnded n f data check (busFreed n s) = readTaken n false data (busFreed n s) :=
      (frameEnded_read read).trans (readEnd_right firmware final plain right)
  obtain ⟨valid, idle, value, crc, mis, reject⟩ := readTaken_fields n false data (busFreed n s)
  rw [ln_busFreed] at crc mis
  have moved : Moves 0x2001 s (readTaken n false data (busFreed n s)) := (readTaken_moves ..).on (onLn_moves.wide (m := 0x2001) rfl) rfl
  refine ⟨_, exec_pbusFrameEnd_running bus runs ended (kept.mono (List.cons_subset_cons _ (List.nil_subset _))), ?_, fun m hm => ?_, valid, idle,
    value, crc.trans (congrArg b2n (Bool.or_false _)), mis, reject.trans (get_busFreed ..), kept, moved.frame (by decide)⟩
  · rw [ln_readTaken, if_pos rfl, ln_busFreed, Bool.or_false]
  · rw [ln_readTaken, if_neg hm, busFreed, ln_onLn_other hm]

/-- A firmware read whose CHECK is wrong is flagged and counted, and is sent once more with AUTO_RETRY, else it completes with the error (R79). -/
theorem pbusFrameEnd_wrong {n : Lane} {f : PbFrame} {data : BitVec 16} {check : BitVec 8} {s : State} (bus : (s.ln n).bus = some f)
    (read : f.kind = .read) (firmware : f.source = .firmware) (final : f.final = true) (plain : f.expect = none) (runs : pckRuns s n = true)
    (wrong : check.toNat ≠ readCheck f data) :
    ∃ t : State, exec (.pbusFrameEnd n data check) s = .next t ∧
      t.get (F.LNn_HL_STAT_BUS_CHECK n) = 1 ∧
      t.get (F.LNn_HL_CNT_CHECK_CNT n) = min (s.get (F.LNn_HL_CNT_CHECK_CNT n) + 1) (2 ^ (F.LNn_HL_CNT_CHECK_CNT n).width - 1) ∧
      (f.retried = false → s.on (F.LNn_PBUS_CTL_AUTO_RETRY n) = true → t.ln n =
          { s.ln n with bus := none, fwQ := { f with retried := true } :: (s.ln n).fwQ } ∧ t.reg (R.LNn_PBUS_RES n) = s.reg (R.LNn_PBUS_RES n)) ∧
      (f.retried = true ∨ s.on (F.LNn_PBUS_CTL_AUTO_RETRY n) = false → t.ln n = { s.ln n with bus := none, fwCrc := true, fwData := data } ∧ t.get
          (F.LNn_PBUS_RES_VALID n) = 1 ∧ t.get (F.LNn_PBUS_RES_CRC_ERR n) = 1 ∧ t.get (F.LNn_PBUS_RES_BUSY n) = 0) ∧
      (∀ m, m ≠ n → t.ln m = s.ln m) ∧
      regsKept [R.LNn_PBUS_RES n, R.LNn_HL_STAT n, R.LNn_HL_CNT n] s t ∧
      onlyParts [.regs, .lns, .ccx, .evr] s t := by
  obtain ⟨-, -, -, -, -, res⟩ := checkRegs_apart n
  obtain ⟨auto, runs'⟩ := retry_checkFailed n s
  have moved := checkFailed_moves n s
  by_cases again : f.retried = false ∧ s.on (F.LNn_PBUS_CTL_AUTO_RETRY n) = true
  · obtain ⟨first, on_⟩ := again
    have ended := (frameEnded_read read).trans (readEnd_again (data := data) firmware wrong first (auto.trans on_) (runs'.trans runs))
    have kept : regsKept [R.LNn_PBUS_RES n] (checkFailed n s)
        ((checkFailed n s).onLn n (fun l => { l with fwQ := { f with retried := true } :: l.fwQ })) := .of_regs rfl
    obtain ⟨flag, count⟩ := checkFailed_fields kept
    refine ⟨_, exec_pbusFrameEnd_running bus runs ended (regsKept_of_checkFailed kept), flag, count,
      fun _ _ => ⟨?_, (reg_onLn ..).trans (regsKept_checkFailed n s _ res)⟩, fun not => ?_, fun m hm => ?_, regsKept_of_checkFailed kept,
      (onLn_moves.on moved rfl).frame (by decide)⟩
    · exact (ln_onLn_same ..).trans (by rw [← checkFailed, ln_checkFailed, if_pos rfl])
    · simp [first, on_] at not
    · exact (ln_onLn_other hm ..).trans ((ln_checkFailed n m s).trans (if_neg hm))
  · have last : f.retried = true ∨ s.on (F.LNn_PBUS_CTL_AUTO_RETRY n) = false := by
      simpa only [not_and_or, Bool.not_eq_false, Bool.not_eq_true] using again
    have ended := (frameEnded_read read).trans (readEnd_wrong firmware final plain wrong (last.imp_right auto.trans))
    have kept : regsKept [R.LNn_PBUS_RES n] (checkFailed n s) (readTaken n true data (checkFailed n s)) := regsKept_readTaken n true data _
    obtain ⟨flag, count⟩ := checkFailed_fields kept
    obtain ⟨valid, idle, -, crc, -, -⟩ := readTaken_fields n true data (checkFailed n s)
    refine ⟨_, exec_pbusFrameEnd_running bus runs ended (regsKept_of_checkFailed kept), flag, count, fun first on_ => absurd ⟨first, on_⟩ again,
      fun _ => ⟨?_, valid, crc.trans (congrArg b2n (Bool.or_true _)), idle⟩, fun m hm => ?_, regsKept_of_checkFailed kept,
      ((readTaken_moves ..).on moved rfl).frame (by decide)⟩
    · exact (ln_readTaken n n true data (checkFailed n s)).trans (by rw [if_pos rfl, ln_checkFailed, if_pos rfl, Bool.or_true])
    · exact (ln_readTaken n m true data (checkFailed n s)).trans ((if_neg hm).trans ((ln_checkFailed n m s).trans (if_neg hm)))

/-! ### The end of a firmware write (R79) -/

section

variable {n : Lane} {f : PbFrame} {s : State}

/-- The read of a register written, compared with its value (R79). -/
def readBack (f : PbFrame) : PbFrame :=
  { f with kind := .read, bc := false, head := if f.bc then 0 else f.head, expect := some f.data, retried := false }

/-- A write that heats no head is read back with VERIFY. -/
theorem writeEnd_verified (firmware : f.source = .firmware) (cold : f.heats = []) (verify : s.on (F.LNn_PBUS_CTL_VERIFY n) = true)
    (runs : pckRuns s n = true) : writeEnd n f s = s.onLn n (fun l => { l with fwQ := readBack f :: l.fwQ }) := by
  have heat : s.onLn n (fun l => { l with heatAt := f.heats.foldl (fun m h => smSet h s.now m) l.heatAt }) = s :=
    onLn_self (by rw [cold, List.foldl_nil])
  simp only [writeEnd, heat, verify, runs, Bool.and_self, if_true, resend, firmware, readBack]

/-- Without VERIFY a write that heats no head completes its command. -/
theorem writeEnd_unverified (firmware : f.source = .firmware) (final : f.final = true) (cold : f.heats = [])
    (plain : s.on (F.LNn_PBUS_CTL_VERIFY n) = false) : writeEnd n f s = completeFirmware n s := by
  have heat : s.onLn n (fun l => { l with heatAt := f.heats.foldl (fun m h => smSet h s.now m) l.heatAt }) = s :=
    onLn_self (by rw [cold, List.foldl_nil])
  simp only [writeEnd, heat, plain, Bool.false_and, Bool.false_eq_true, if_false, firmware, final, and_self, if_true]

end

/-- A firmware write is read back with VERIFY, and completes without (R78, R79). -/
theorem pbusFrameEnd_write {n : Lane} {f : PbFrame} (data : BitVec 16) (check : BitVec 8) {s : State} (bus : (s.ln n).bus = some f)
    (write : f.kind = .write) (firmware : f.source = .firmware) (final : f.final = true) (cold : f.heats = []) (runs : pckRuns s n = true) :
    ∃ t : State, exec (.pbusFrameEnd n data check) s = .next t ∧
      (s.on (F.LNn_PBUS_CTL_VERIFY n) = true → t = s.setLn n { s.ln n with bus := none, fwQ := readBack f :: (s.ln n).fwQ }) ∧
      (s.on (F.LNn_PBUS_CTL_VERIFY n) = false → t.ln n = { s.ln n with bus := none } ∧ t.get (F.LNn_PBUS_RES_VALID n) = 1 ∧
        t.get (F.LNn_PBUS_RES_BUSY n) = 0) ∧
      (∀ m, m ≠ n → t.ln m = s.ln m) ∧
      regsKept [R.LNn_PBUS_RES n] s t ∧
      onlyParts [.regs, .lns] s t := by
  have wide {t : State} (h : regsKept [R.LNn_PBUS_RES n] s t) : regsKept [R.LNn_PBUS_RES n, R.LNn_HL_STAT n, R.LNn_HL_CNT n] s t :=
    h.mono (List.cons_subset_cons _ (List.nil_subset _))
  cases verify : s.on (F.LNn_PBUS_CTL_VERIFY n) with
  | true =>
    have kept : regsKept [R.LNn_PBUS_RES n] s (s.setLn n { s.ln n with bus := none, fwQ := readBack f :: (s.ln n).fwQ }) := .of_regs rfl
    have ended : frameEnded n f data check (busFreed n s) = s.setLn n { s.ln n with bus := none, fwQ := readBack f :: (s.ln n).fwQ } :=
      calc frameEnded n f data check (busFreed n s)
          = writeEnd n f (busFreed n s) := frameEnded_write write
        _ = (busFreed n s).onLn n (fun l => { l with fwQ := readBack f :: l.fwQ }) :=
            writeEnd_verified firmware cold ((on_busFreed ..).trans verify) ((pckRuns_busFreed ..).trans runs)
        _ = s.setLn n { s.ln n with bus := none, fwQ := readBack f :: (s.ln n).fwQ } := onLn_setLn ..
    exact ⟨_, exec_pbusFrameEnd_running bus runs ended (wide kept), fun _ => rfl, nofun, fun m hm => ln_setLn_other hm .., kept,
      (setLn_moves.wide (m := 0x2001) rfl).frame (by decide)⟩
  | false =>
    have freed : regsKept [R.LNn_PBUS_RES n] s (busFreed n s) := .of_regs rfl
    have kept : regsKept [R.LNn_PBUS_RES n] s (completeFirmware n (busFreed n s)) := freed.trans (regsKept_completeFirmware n _)
    have ended : frameEnded n f data check (busFreed n s) = completeFirmware n (busFreed n s) :=
      (frameEnded_write write).trans (writeEnd_unverified firmware final cold ((on_busFreed ..).trans verify))
    obtain ⟨valid, idle, -⟩ := completeFirmware_fields n (busFreed n s)
    refine ⟨_, exec_pbusFrameEnd_running bus runs ended (wide kept), nofun, fun _ => ⟨(ln_completeFirmware ..).trans (ln_busFreed ..), valid, idle⟩,
      fun m hm => (ln_completeFirmware ..).trans (ln_onLn_other hm ..), kept, ?_⟩
    exact (completeFirmware_moves.on (onLn_moves.wide (m := 0x2001) rfl) rfl).frame (by decide)

end Sys2Proof.Machine

end

section

/-! PROOF. The fault input (R81, R133, R146) and the synthesiser's relock (R86, R146); the head link and front end settled. -/

namespace Sys2Proof.Machine

/-! ### The fault input -/

/-- A qualified fault flagged and counted, and the sequencer told (R81). -/
def faultTold (n : Lane) (s : State) : State := msInt n 2 ((s.flag (F.LNn_HL_STAT_FAULT_SEEN n)).count (F.LNn_HL_CNT_FAULT_CNT n))

/-- The same with the head's settings to be sent again (R133). -/
def faultSignalled (n : Lane) (s : State) : State := forgetSettings n (s.get (F.LNn_STAT_HEAD n)) (faultTold n s)

theorem get_faultSignalled (n : Lane) (s : State) (f : Fld) : (faultSignalled n s).get f = (faultTold n s).get f := by
  rw [faultSignalled, forgetSettings, get_onLn]

/-- The registers that a fault writes are three, and the lane's status is none of them. -/
theorem faultRegs_apart (n : Lane) : R.LNn_HL_STAT n ∉ [R.LNn_HL_CNT n, R.MSn_INT n] ∧ R.LNn_HL_CNT n ∉ [R.LNn_HL_STAT n] ∧
    R.LNn_HL_CNT n ∉ [R.MSn_INT n] ∧ R.LNn_STAT n ∉ [R.LNn_HL_STAT n, R.LNn_HL_CNT n, R.MSn_INT n] := by
  revert n
  decide

theorem regsKept_faultTold (n : Lane) (s : State) : regsKept [R.LNn_HL_STAT n, R.LNn_HL_CNT n, R.MSn_INT n] s (faultTold n s) := by
  have flagged : regsKept [R.LNn_HL_STAT n, R.LNn_HL_CNT n, R.MSn_INT n] s (s.flag (F.LNn_HL_STAT_FAULT_SEEN n)) :=
    (regsKept_flag s (F.LNn_HL_STAT_FAULT_SEEN n)).mono (List.cons_subset_cons _ (List.nil_subset _))
  have counted : regsKept [R.LNn_HL_STAT n, R.LNn_HL_CNT n, R.MSn_INT n] s
      ((s.flag (F.LNn_HL_STAT_FAULT_SEEN n)).count (F.LNn_HL_CNT_FAULT_CNT n)) :=
    flagged.trans (regsKept_put (f := F.LNn_HL_CNT_FAULT_CNT n) (List.mem_cons_of_mem _ List.mem_cons_self) _)
  exact counted.trans (regsKept_put (f := (⟨R.MSn_INT n, 6, 0⟩ : Fld).bit 2) (by simp [Fld.bit]) 1)

theorem regsKept_faultSignalled (n : Lane) (s : State) : regsKept [R.LNn_HL_STAT n, R.LNn_HL_CNT n, R.MSn_INT n] s (faultSignalled n s) :=
  (regsKept_faultTold n s).trans (.of_regs rfl)

theorem faultTold_moves (n : Lane) (s : State) : Moves 0x901 s (faultTold n s) := msInt_moves.on (count_moves.on flag_moves rfl) rfl

theorem faultSignalled_moves (n : Lane) (s : State) : Moves 0x2901 s (faultSignalled n s) :=
  forgetSettings_moves.on ((faultTold_moves n s).wide (m := 0x2901) rfl) rfl

theorem faultSignalled_fields (n : Lane) (s : State) :
    (faultSignalled n s).get (F.LNn_HL_STAT_FAULT_SEEN n) = 1 ∧
      (faultSignalled n s).get (F.LNn_HL_CNT_FAULT_CNT n) =
        min (s.get (F.LNn_HL_CNT_FAULT_CNT n) + 1) (2 ^ (F.LNn_HL_CNT_FAULT_CNT n).width - 1) ∧
      (faultSignalled n s).get ((⟨R.MSn_INT n, 6, 0⟩ : Fld).bit 2) = 1 := by
  obtain ⟨stat, cnt, cntInt, -⟩ := faultRegs_apart n
  have flagged : regsKept [R.LNn_HL_STAT n] s (s.flag (F.LNn_HL_STAT_FAULT_SEEN n)) := regsKept_flag s (F.LNn_HL_STAT_FAULT_SEEN n)
  have told (t : State) : regsKept [R.MSn_INT n] t (msInt n 2 t) := regsKept_put (f := (⟨R.MSn_INT n, 6, 0⟩ : Fld).bit 2) List.mem_cons_self 1
  have counted (t : State) : regsKept [R.LNn_HL_CNT n, R.MSn_INT n] t (msInt n 2 (t.count (F.LNn_HL_CNT_FAULT_CNT n))) :=
    ((regsKept_count t (F.LNn_HL_CNT_FAULT_CNT n) 1).mono (List.cons_subset_cons _ (List.nil_subset _))).trans
      ((told _).mono (List.subset_cons_self ..))
  simp only [get_faultSignalled, faultTold]
  refine ⟨?_, ?_, ?_⟩
  · rw [(counted _).get (f := F.LNn_HL_STAT_FAULT_SEEN n) stat, get_flag (of_decide_eq_true rfl)]
    rfl
  · rw [(told _).get (f := F.LNn_HL_CNT_FAULT_CNT n) cntInt, get_count (of_decide_eq_true rfl), flagged.get (f := F.LNn_HL_CNT_FAULT_CNT n) cnt]
  · exact get_put_same (of_decide_eq_true rfl) 1

theorem ln_faultSignalled (n m : Lane) (s : State) : (faultSignalled n s).ln m =
    if m = n then { s.ln n with lastSent := [2, 3, 4].foldr (fun a m => smErase (64 * s.get (F.LNn_STAT_HEAD n) + a) m) (s.ln n).lastSent }
    else s.ln m := by
  have told (i : Lane) : (faultTold n s).ln i = s.ln i := ln_of_lns ((faultTold_moves n s).parts 13 rfl) i
  rw [faultSignalled, forgetSettings, State.onLn, ln_setLn, told, told]
  rfl

/-- A qualified fault inhibits an open write gate by source 1 (R81, R146). -/
theorem exec_faultQualified {n : Lane} {s : State} (runs : pckRuns s n = true) : exec (.faultQualified n) s =
    .next (if s.get (F.LNn_STAT_WR_GATE n) = 1 then inhibit n 1 (faultSignalled n s) else faultSignalled n s) := by
  obtain ⟨-, -, -, stat⟩ := faultRegs_apart n
  have head : (faultTold n s).get (F.LNn_STAT_HEAD n) = s.get (F.LNn_STAT_HEAD n) := (regsKept_faultTold n s).get stat
  have gate : (faultSignalled n s).get (F.LNn_STAT_WR_GATE n) = s.get (F.LNn_STAT_WR_GATE n) := (regsKept_faultSignalled n s).get stat
  rw [faultTold] at head
  rw [faultSignalled, faultTold] at gate
  show execFaultQualified n s = _
  simp only [execFaultQualified, runs, Bool.not_true, Bool.false_eq_true, if_false, head, gate, faultSignalled, faultTold]
  exact (apply_ite Host.Outcome.next ..).symm

/-! ### The relock -/

/-- The synthesiser locked, and inhibit source 3 no longer shown. -/
def relocked (n : Lane) (s : State) : State := (s.put (F.LNn_STAT_PLL_LOCK n) 1).put ((F.LNn_WR_STAT_INH_NOW n).bit 3) 0

/-- The sources of inhibit that a relock leaves. -/
def inhibitedBeside3 (s : State) (n : Lane) : Bool :=
  (s.ln n).inh0 || (List.range 6).any (fun b => b != 3 && s.on ((F.LNn_WR_STAT_INH_NOW n).bit b))

/-- A relock ends source 3, and the squelch where no source is left (R86, R146). -/
theorem exec_pllRelock {n : Lane} {s : State} (m : s.get (F.LNn_BAUD_M_M n) ≠ 0) :
    exec (.pllRelock n) s = .next (if !inhibited (relocked n s) n then (relocked n s).put (F.LNn_WR_STAT_SQUELCH n) 0 else relocked n s) := by
  have lane : (relocked n s).onLn n (fun l => if (3 : Nat) = 0 then { l with inh0 := false } else l) = relocked n s := onLn_self rfl
  refine (if_neg m).trans ?_
  show Host.Outcome.next (resumeSource n 3 (s.put (F.LNn_STAT_PLL_LOCK n) 1)) = _
  rw [resumeSource, ← relocked, lane]

theorem laneStat_ne_writeStat (n : Lane) : R.LNn_STAT n ∉ [R.LNn_WR_STAT n] ∧ R.LNn_WR_STAT n ∉ [R.LNn_STAT n] := by
  revert n
  decide

theorem relocked_fields (n : Lane) (s : State) :
    (relocked n s).get (F.LNn_STAT_PLL_LOCK n) = 1 ∧ (relocked n s).get ((F.LNn_WR_STAT_INH_NOW n).bit 3) = 0 ∧
      (∀ b : Nat, b ≠ 3 → (relocked n s).get ((F.LNn_WR_STAT_INH_NOW n).bit b) = s.get ((F.LNn_WR_STAT_INH_NOW n).bit b)) ∧
      (relocked n s).get (F.LNn_WR_STAT_SQUELCH n) = s.get (F.LNn_WR_STAT_SQUELCH n) := by
  obtain ⟨stat, writeStat⟩ := laneStat_ne_writeStat n
  have locked : regsKept [R.LNn_STAT n] s (s.put (F.LNn_STAT_PLL_LOCK n) 1) := regsKept_put (f := F.LNn_STAT_PLL_LOCK n) List.mem_cons_self 1
  have ended : regsKept [R.LNn_WR_STAT n] (s.put (F.LNn_STAT_PLL_LOCK n) 1) (relocked n s) :=
    regsKept_put (f := (F.LNn_WR_STAT_INH_NOW n).bit 3) List.mem_cons_self 0
  refine ⟨?_, get_put_same (of_decide_eq_true rfl) 0, fun b hb => ?_, ?_⟩
  · rw [ended.get (f := F.LNn_STAT_PLL_LOCK n) stat, get_put_same (of_decide_eq_true rfl)]
    rfl
  · have apart : ((F.LNn_WR_STAT_INH_NOW n).bit b).lo + ((F.LNn_WR_STAT_INH_NOW n).bit b).width ≤ ((F.LNn_WR_STAT_INH_NOW n).bit 3).lo ∨
        ((F.LNn_WR_STAT_INH_NOW n).bit 3).lo + ((F.LNn_WR_STAT_INH_NOW n).bit 3).width ≤ ((F.LNn_WR_STAT_INH_NOW n).bit b).lo := by
      simp only [Fld.bit, Fld.width]
      omega
    rw [relocked, get_put_apart apart, locked.get (f := (F.LNn_WR_STAT_INH_NOW n).bit b) writeStat]
  · rw [relocked, get_put_apart (of_decide_eq_true rfl), locked.get (f := F.LNn_WR_STAT_SQUELCH n) writeStat]

/-- After a relock the lane is inhibited by its other sources alone. -/
theorem inhibited_relocked (n : Lane) (s : State) : inhibited (relocked n s) n = inhibitedBeside3 s n := by
  obtain ⟨-, ended, others, -⟩ := relocked_fields n s
  have lane : (relocked n s).ln n = s.ln n := ln_of_lns ((put_moves.step put_moves).parts 13 rfl) n
  have bit (b : Nat) : (relocked n s).on ((F.LNn_WR_STAT_INH_NOW n).bit b) = (b != 3 && s.on ((F.LNn_WR_STAT_INH_NOW n).bit b)) := by
    by_cases h : b = 3
    · simp [h, State.on, ended]
    · simp [h, State.on, others b h]
  simp only [inhibited, inhibitedBeside3, on_eq_any_bit _ (F.LNn_WR_STAT_INH_NOW n), bit, lane]
  exact Bool.or_comm ..

/-- A write of SQUELCH leaves the bits of the sources. -/
theorem get_inhibit_put_squelch (n : Lane) {b : Nat} (hb : b < 6) (s : State) (v : Nat) :
    (s.put (F.LNn_WR_STAT_SQUELCH n) v).get ((F.LNn_WR_STAT_INH_NOW n).bit b) = s.get ((F.LNn_WR_STAT_INH_NOW n).bit b) := by
  refine get_put_apart (.inl ?_) s v
  simp only [Fld.bit, Fld.width, F.LNn_WR_STAT_INH_NOW, F.LNn_WR_STAT_SQUELCH]
  omega

/-- A relock locks the synthesiser and ends source 3; the squelch ends with the last source (R86, R146). -/
theorem pllRelock_relocks {n : Lane} {s : State} (m : s.get (F.LNn_BAUD_M_M n) ≠ 0) :
    ∃ t : State, exec (.pllRelock n) s = .next t ∧
      t.get (F.LNn_STAT_PLL_LOCK n) = 1 ∧
      t.get ((F.LNn_WR_STAT_INH_NOW n).bit 3) = 0 ∧
      (∀ b : Fin 6, b ≠ 3 → t.get ((F.LNn_WR_STAT_INH_NOW n).bit b.val) = s.get ((F.LNn_WR_STAT_INH_NOW n).bit b.val)) ∧
      t.on (F.LNn_WR_STAT_SQUELCH n) = (s.on (F.LNn_WR_STAT_SQUELCH n) && inhibitedBeside3 s n) ∧
      regsKept [R.LNn_STAT n, R.LNn_WR_STAT n] s t ∧
      onlyParts [.regs] s t := by
  obtain ⟨lock, ended, others, squelch⟩ := relocked_fields n s
  have kept : regsKept [R.LNn_STAT n, R.LNn_WR_STAT n] s (relocked n s) :=
    (regsKept_put (f := F.LNn_STAT_PLL_LOCK n) List.mem_cons_self 1).trans
      (regsKept_put (f := (F.LNn_WR_STAT_INH_NOW n).bit 3) (List.mem_cons_of_mem _ List.mem_cons_self) 0)
  have moved : Moves 0x1 s (relocked n s) := put_moves.step put_moves
  have beside (b : Fin 6) (hb : b ≠ 3) : (relocked n s).get ((F.LNn_WR_STAT_INH_NOW n).bit b.val) = s.get ((F.LNn_WR_STAT_INH_NOW n).bit b.val) :=
    others b.val (fun e => hb (Fin.ext e))
  have next := exec_pllRelock m
  rw [inhibited_relocked] at next
  cases left : inhibitedBeside3 s n with
  | true =>
    rw [left, if_neg (by decide)] at next
    exact ⟨_, next, lock, ended, beside, by rw [State.on, squelch, Bool.and_true, State.on], kept, moved.frame (by decide)⟩
  | false =>
    rw [left, if_pos (by decide)] at next
    have cleared : regsKept [R.LNn_WR_STAT n] (relocked n s) ((relocked n s).put (F.LNn_WR_STAT_SQUELCH n) 0) :=
      regsKept_put (f := F.LNn_WR_STAT_SQUELCH n) List.mem_cons_self 0
    refine ⟨_, next, ?_, ?_, fun b hb => ?_, ?_, kept.trans (cleared.mono (List.subset_cons_self ..)), (put_moves.step moved).frame (by decide)⟩
    · exact (cleared.get (f := F.LNn_STAT_PLL_LOCK n) (laneStat_ne_writeStat n).1).trans lock
    · exact (get_inhibit_put_squelch n (by decide) _ 0).trans ended
    · exact (get_inhibit_put_squelch n b.isLt _ 0).trans (beside b hb)
    · rw [State.on, get_put_same (of_decide_eq_true rfl), Bool.and_false]
      rfl

/-! ### The head link and the front end -/

/-- Settles O8: a lemma for each row of the preamp bus, of the fault input and of the synthesiser. -/
theorem preampBusFramesQueueStartAndEnd : Obligations.PreampBusFramesQueueStartAndEnd := by
  unfold Obligations.PreampBusFramesQueueStartAndEnd
  refine ⟨?command, ?assist, ?rejected, ?dropped, ?gate, ?disabled, ?queued, ?gateEnd, ?right, ?wrong, ?write, ?fault, ?faultStopped, ?relock,
    ?noRelock⟩
  case command =>
    intro n w s early busy runs idle single
    exact pbusCommandWrite_queues early busy runs idle (firmwareFrames_single single) (List.cons_ne_nil _ _)
  case assist =>
    intro n w k s early busy runs idle write broadcast assist heads some_
    subst heads
    exact pbusCommandWrite_queues early busy runs idle (firmwareFrames_assist write broadcast assist) (by simpa using Nat.pos_iff_ne_zero.mp some_)
  case rejected =>
    intro n w s early busy pending
    rw [exec_pbusCommandWrite w early busy, pbusCommandEff_busy w pending]
  case dropped =>
    intro n w s early busy idle stopped
    exact pbusCommandWrite_dropped w early busy idle stopped
  case gate =>
    intro n room g rest s free runs queue gate due allowed
    exact pbusFrameStart_gate free runs queue gate due allowed
  case disabled =>
    intro n room g rest s free runs queue due disabled
    rw [exec_pbusFrameStart_gate free runs queue due, disabled]
    rfl
  case queued =>
    intro n room f rest s free runs notDue queue fits
    exact pbusFrameStart_queued free runs notDue queue fits
  case gateEnd =>
    intro n f data check s bus gate going
    exact pbusFrameEnd_gate bus gate going
  case right =>
    intro n f data check s bus read firmware final plain runs right
    exact pbusFrameEnd_right bus read firmware final plain runs right
  case wrong =>
    intro n f data check s bus read firmware final plain runs wrong
    exact pbusFrameEnd_wrong bus read firmware final plain runs wrong
  case write =>
    intro n f data check s bus write firmware final cold runs
    exact pbusFrameEnd_write data check bus write firmware final cold runs
  case fault =>
    intro n s runs
    obtain ⟨seen, count, told⟩ := faultSignalled_fields n s
    exact ⟨faultSignalled n s, exec_faultQualified runs, seen, count, told, (ln_faultSignalled n n s).trans (if_pos rfl),
      fun m hm => (ln_faultSignalled n m s).trans (if_neg hm), regsKept_faultSignalled n s, (faultSignalled_moves n s).frame (by decide)⟩
  case faultStopped =>
    intro n s stopped
    exact if_pos (by rw [stopped]; rfl)
  case relock =>
    intro n s m
    exact pllRelock_relocks m
  case noRelock =>
    intro n s m
    exact if_pos m

end Sys2Proof.Machine

end

section

/-! PROOF. The zone-table ports of a lane (R96, R97): a write applied, held, discarded or waiting, a read, and the advance of INDEX. -/

namespace Sys2Proof.Machine

/-! ### The advance of INDEX (R96) -/

/-- The selection register of a port. -/
def portSel (n : Lane) (wr : Bool) : Nat := if wr then R.LNn_WTBL_SEL n else R.LNn_TBL_SEL n

theorem regsKept_tableStep (n : Lane) (wr : Bool) (s : State) : regsKept [portSel n wr] s (tableStep n wr s) := by
  cases wr with
  | true =>
    simp only [tableStep, tableSel, if_true, portSel]
    split
    · exact fun _ _ => rfl
    · exact regsKept_put (f := F.LNn_WTBL_SEL_INDEX n) List.mem_cons_self _
  | false =>
    simp only [tableStep, tableSel, Bool.false_eq_true, if_false, portSel]
    split
    · exact fun _ _ => rfl
    · exact regsKept_put (f := F.LNn_TBL_SEL_INDEX n) List.mem_cons_self _

theorem tableStep_frame (n : Lane) (wr : Bool) (s : State) : onlyParts [.regs] s (tableStep n wr s) := tableStep_moves.frame (by decide)

/-- A field advanced by one where a bit is set has the bit added to it. -/
theorem get_advanced {index auto : Fld} (fits : index.lo + index.width ≤ 32) (bit : auto.width = 1) (s : State) :
    (if s.get auto = 0 then s else s.put index (s.get index + 1)).get index = (s.get index + s.get auto) % 2 ^ index.width := by
  have small : s.get auto < 2 ^ 1 := bit ▸ rget_lt s.regs auto
  have held : s.get index < 2 ^ index.width := rget_lt s.regs index
  split
  next off => rw [off, Nat.add_zero, Nat.mod_eq_of_lt held]
  next on_ => rw [get_put_same fits, show s.get auto = 1 by omega]

/-- With AUTOINC the INDEX of a port advances by one. -/
theorem tableStep_index (n : Lane) (s : State) :
    (tableStep n false s).get (F.LNn_TBL_SEL_INDEX n) =
        (s.get (F.LNn_TBL_SEL_INDEX n) + s.get (F.LNn_TBL_SEL_AUTOINC n)) % 2 ^ (F.LNn_TBL_SEL_INDEX n).width ∧
      (tableStep n true s).get (F.LNn_WTBL_SEL_INDEX n) =
        (s.get (F.LNn_WTBL_SEL_INDEX n) + s.get (F.LNn_WTBL_SEL_AUTOINC n)) % 2 ^ (F.LNn_WTBL_SEL_INDEX n).width :=
  ⟨get_advanced (of_decide_eq_true rfl) rfl s, get_advanced (of_decide_eq_true rfl) rfl s⟩

/-! ### Accesses of a port -/

/-- The write of a port that a gate holds (R97). -/
def heldWrite (l : Ln) (wr : Bool) : Option (Nat × Word) := if wr then l.wheld else l.held

/-- The table of a port's TABLE field: the write tables follow the read tables. -/
def portTable (wr : Bool) (tbl : Nat) : Nat := if wr then tbl + 4 else tbl

section

variable {n : Lane} {addr : Nat} {wr : Bool} {s : State}

/-- A write of DATA that neither comes early nor waits for a reset acts on its port, and is answered (R59, R97, R633). -/
theorem exec_tableDataWrite (who : Req) (w : Word) (port : tablePort addr = some (n, wr, true)) (early : earlyWrite s addr = false)
    (busy : laneBusy s addr = false) : exec (.tableDataWrite who addr w) s = .next ((tablePortWrite n wr true addr w s).answer .done) := by
  show execTableDataWrite who addr w s = _
  simp only [execTableDataWrite, port, State.write, early, busy, Bool.false_eq_true, if_false]

/-- A write waits while one of its port is held. -/
theorem tablePortWrite_waits (w : Word) (held : (heldWrite (s.ln n) wr).isSome = true) :
    tablePortWrite n wr true addr w s = s.onLn n (fun l => { l with waitT := l.waitT ++ [(addr, w)] }) := by
  cases wr with
  | true =>
    have held' : (s.ln n).wheld.isSome = true := held
    simp only [tablePortWrite, if_true, held']
  | false =>
    have held' : (s.ln n).held.isSome = true := held
    simp only [tablePortWrite, Bool.false_eq_true, if_false, held', if_true]

/-- A write of DATA with none held does not wait. -/
theorem tablePortWrite_now (w : Word) (free : heldWrite (s.ln n) wr = none) : tablePortWrite n wr true addr w s = tableWriteNow n wr w s := by
  cases wr with
  | true =>
    have free' : (s.ln n).wheld = none := free
    simp only [tablePortWrite, if_true, free', Option.isSome_none, Bool.false_eq_true, if_false]
  | false =>
    have free' : (s.ln n).held = none := free
    simp only [tablePortWrite, if_true, free', Option.isSome_none, Bool.false_eq_true, if_false]

variable {auto tbl head zone index : Nat}

/-- A read answers the selected entry, and zero beyond the last (R96). -/
theorem exec_tableDataRead (who : Req) (port : tablePort addr = some (n, wr, true)) (sel : tableSel s n wr = (auto, tbl, head, zone, index)) :
    exec (.tableDataRead who addr) s = .next
      ((tableStep n wr s).answer (.value (if tbl < 4 then tableGet s n (portTable wr tbl) head zone index else 0))) := by
  show execTableDataRead who addr s = _
  simp only [execTableDataRead, port, tableRead, sel, portTable]

/-- The selection names an entry of one of the port's tables (R96, R153). -/
def namesEntry (wr : Bool) (tbl index : Nat) : Bool := decide (tbl < 4) && !(wr && tbl == 3) && decide (index < tableLen (portTable wr tbl))

theorem namesEntry_iff : namesEntry wr tbl index = true ↔ tbl < (if wr then 3 else 4) ∧ index < tableLen (portTable wr tbl) := by
  cases wr with
  | true =>
    have three : (tbl < 4 ∧ tbl ≠ 3) ↔ tbl < 3 := by omega
    simp [namesEntry, three]
  | false => simp [namesEntry]

variable (w : Word) (sel : tableSel s n wr = (auto, tbl, head, zone, index))

include sel

/-- Beyond a table's last entry a write changes none. -/
theorem tableWriteNow_beyond (beyond : namesEntry wr tbl index = false) : tableWriteNow n wr w s = tableStep n wr s := by
  rw [namesEntry, portTable] at beyond
  simp only [tableWriteNow, sel, beyond, Bool.not_false, if_true]

/-- With none of the port's gates open a write applies at once. -/
theorem tableWriteNow_applies (entry : namesEntry wr tbl index = true) (closed : portGate s n wr = false) :
    tableWriteNow n wr w s = tableStep n wr
      (putEntry n (tableKey (cadence s) (portTable wr tbl) head zone index) (w &&& tableMask (portTable wr tbl) index) s) := by
  rw [namesEntry, portTable] at entry
  simp only [tableWriteNow, sel, entry, closed, Bool.not_true, Bool.false_eq_true, if_false, portTable]

/-- With one of the port's gates open a write is held. -/
theorem tableWriteNow_holds (entry : namesEntry wr tbl index = true) (opened : portGate s n wr = true) :
    tableWriteNow n wr w s = tableStep n wr (s.onLn n (fun l => if wr then
      { l with wheld := some (tableKey (cadence s) (tbl + 4) head zone index, w &&& tableMask (tbl + 4) index) } else
      { l with held := some (tableKey (cadence s) tbl head zone index, w &&& tableMask tbl index) })) := by
  rw [namesEntry, portTable] at entry
  simp only [tableWriteNow, sel, entry, opened, Bool.not_true, Bool.false_eq_true, if_false, if_true]
  cases wr <;> rfl

end

/-- A write held leaves the tables, and changes nothing but its lane and the port's selection. -/
theorem tableStep_holding (n : Lane) (wr : Bool) {f : Ln → Ln} {s : State} (tables : (f (s.ln n)).tables = (s.ln n).tables) :
    ((tableStep n wr (s.onLn n f)).ln n).tables = (s.ln n).tables ∧ regsKept [portSel n wr] s (tableStep n wr (s.onLn n f)) ∧
      onlyParts [.regs, .lns] s (tableStep n wr (s.onLn n f)) := by
  have held : regsKept [portSel n wr] s (s.onLn n f) := .of_regs rfl
  refine ⟨?_, held.trans (regsKept_tableStep n wr _), (tableStep_moves.on (onLn_moves.wide (m := 0x2001) rfl) rfl).frame (by decide)⟩
  rw [ln_of_lns (tableStep_moves.parts 13 rfl), ln_onLn_same, tables]

end Sys2Proof.Machine

end

section

/-! PROOF. The close of a lane's gates (R77, R91, R97, R136, R137, R145, R233) with no table write held and no drain; the table ports settled. -/

namespace Sys2Proof.Machine

/-! ### Entries written back (R91, R137) -/

/-- A lane's tables with entries of one of them set, in the copy of a cadence. -/
def tablesWritten (c tbl head zone : Nat) (entries : List (Nat × Word)) (tables : SMap Word) : SMap Word :=
  entries.foldl (fun m e => if e.1 < tableLen tbl then smPut 0 (tableKey c tbl head zone e.1) (e.2 &&& tableMask tbl e.1) m else m) tables

/-- Entries written back change the tables of their lane. -/
theorem writeBack_eq (n : Lane) (tbl head zone : Nat) (entries : List (Nat × Word)) (s : State) : writeBack n tbl head zone entries s =
    s.setLn n { s.ln n with tables := tablesWritten (cadence s) tbl head zone entries (s.ln n).tables } := by
  induction entries generalizing s with
  | nil => exact (setLn_self s n).symm
  | cons e es ih =>
    refine (ih (tablePut n tbl head zone e.1 e.2 s)).trans ?_
    unfold tablePut tablesWritten
    by_cases inside : e.1 < tableLen tbl
    · simp only [inside, if_true, List.foldl_cons, putEntry, State.onLn, ln_setLn_same, setLn_setLn]
      rfl
    · simp only [inside, if_false, List.foldl_cons]

/-- The entries that a read gate with ADAPT writes back: the taps of its set, for the readers that served (R91). -/
def adaptedEntries (d : Sector) (taps : List Word) : List (Nat × Word) :=
  match d.front with
  | some f =>
    if !f.adapt then []
    else (((List.range 48).filter (fun i => f.only.all (fun r => decide (i / 16 = r)))).filter (fun i => decide (i < taps.length))).map
      (fun i => (48 * f.set + i, taps.getD i 0))
  | none => []

theorem writeBackRead_eq (n : Lane) (d : Sector) (taps : List Word) (s : State) :
    writeBackRead n d (some taps) s = writeBack n 3 d.head.toNat d.zone (adaptedEntries d taps) s := by
  unfold writeBackRead adaptedEntries
  cases d.front with
  | none => rfl
  | some f => cases adapt : f.adapt <;> simp only [adapt] <;> rfl

theorem adaptedEntries_fixed {d : Sector} (taps : List Word) (fixed : ∀ f, d.front = some f → f.adapt = false) : adaptedEntries d taps = [] := by
  unfold adaptedEntries
  cases front : d.front with
  | none => rfl
  | some f => exact if_pos (by rw [fixed f front]; rfl)

/-- Where all readers served, the taps of the whole set are written back. -/
theorem adaptedEntries_all {d : Sector} {f : Front} {taps : List Word} (front : d.front = some f) (adapt : f.adapt = true) (all : f.only = none)
    (enough : 48 ≤ taps.length) : adaptedEntries d taps = (List.range 48).map (fun i => (48 * f.set + i, taps.getD i 0)) := by
  have given : ∀ i ∈ List.range 48, decide (i < taps.length) = true := fun i hi => by
    have below : i < 48 := List.mem_range.mp hi
    exact decide_eq_true (by omega)
  simp only [adaptedEntries, front, adapt, all, Option.all_none, Bool.not_true, Bool.false_eq_true, if_false, List.filter_true,
    List.filter_eq_self.mpr given]

/-- The entries that a verify gate writes back with CANCEL_EN and CANCEL_ADAPT (R137). -/
def cancelEntries (n : Lane) (taps : List Word) (s : State) : List (Nat × Word) :=
  if s.on (F.LNn_WR_CTL_CANCEL_EN n) && s.on (F.LNn_WR_CTL_CANCEL_ADAPT n) then
    (List.range (min 32 taps.length)).map (fun i => (i, taps.getD i 0))
  else []

theorem writeBackCancel_eq (n : Lane) (d : Sector) (taps : List Word) (s : State) :
    writeBackCancel n d (some taps) s = writeBack n 6 d.head.toNat 0 (cancelEntries n taps s) s := by
  unfold writeBackCancel cancelEntries
  split <;> rfl

/-! ### What a close lets happen -/

/-- No table write of the lane is held or waits, and no drain is in force. -/
def portsQuiet (l : Ln) : Prop := l.held = none ∧ l.wheld = none ∧ l.waitT = [] ∧ l.drain = false

/-- With no gate of the lane open the head-enable bits held back clear (R77). -/
def enablesReleased (n : Lane) (s : State) : State := s.onLn n (fun l => if l.gate.isNone && l.vgate.isNone then { l with enHeld := 0 } else l)

theorem ln_enablesReleased (n m : Lane) (s : State) : (enablesReleased n s).ln m =
    if m = n then { s.ln n with enHeld := if (s.ln n).gate.isNone && (s.ln n).vgate.isNone then 0 else (s.ln n).enHeld } else s.ln m := by
  rw [enablesReleased, State.onLn, ln_setLn]
  cases (s.ln n).gate.isNone && (s.ln n).vgate.isNone <;> rfl

/-- With nothing held and nothing waiting there is nothing to release. -/
theorem releaseHeld_quiet {n : Lane} {s : State} (quiet : portsQuiet (s.ln n)) (wr : Bool) : releaseHeld n wr s = s := by
  obtain ⟨held, wheld, waiting, -⟩ := quiet
  unfold releaseHeld
  split
  · rfl
  · cases wr with
    | true =>
      have same : { s.ln n with wheld := none, waitT := [] } = s.ln n := by rw [← wheld, ← waiting]
      simp only [if_true, wheld, waiting]
      exact onLn_self (f := fun l => { l with wheld := none, waitT := [] }) same
    | false =>
      have same : { s.ln n with held := none, waitT := [] } = s.ln n := by rw [← held, ← waiting]
      simp only [Bool.false_eq_true, if_false, held, waiting]
      exact onLn_self (f := fun l => { l with held := none, waitT := [] }) same

/-- After a close with the ports quiet nothing but head-enable bits changes. -/
theorem afterClose_quiet {n : Lane} {s : State} (quiet : portsQuiet (s.ln n)) : afterClose n s = enablesReleased n s := by
  have still : portsQuiet ((enablesReleased n s).ln n) := by
    rw [ln_enablesReleased, if_pos rfl]
    exact quiet
  have idle : ((enablesReleased n s).ln n).drain = false := still.2.2.2
  show drainFifo n (releaseHeld n true (releaseHeld n false (enablesReleased n s))) = _
  rw [releaseHeld_quiet still, releaseHeld_quiet still, drainFifo, idle]
  rfl

theorem closesAtSplit_congr {s t : State} (h : t.cfg = s.cfg) (d : Sector) : closesAtSplit t d = closesAtSplit s d :=
  congrArg (fun c => closesAtSplit { s with cfg := c } d) h

theorem cadence_congr {s t : State} {l : List Nat} (h : regsKept l s t) (apart : R.SPM_STAT ∉ l) : cadence t = cadence s :=
  h.get (f := F.SPM_STAT_CAD) apart

theorem exec_gateClose (n : Lane) (gate : GateKind) (taps : List Word) (s : State) :
    exec (.gateClose n gate taps) s = .next (afterOutcomes (gateCloseEff n gate taps s)) := rfl

/-! ### The verify gate -/

/-- The verify gate's bit clear and its sector gone. -/
def verifyShut (n : Lane) (s : State) : State := (s.put (F.LNn_WR_STAT_VFY_GATE n) 0).onLn n (fun l => { l with vgate := none })

/-- The verify gate closed, with the entries that it writes back. -/
def verifyClosed (n : Lane) (d : Sector) (taps : List Word) (s : State) : State :=
  enablesReleased n (writeBack n 6 d.head.toNat 0 (cancelEntries n taps s) (verifyShut n s))

theorem gateRegs_apart (n : Lane) : R.LNn_WR_CTL n ∉ [R.LNn_WR_STAT n] ∧ R.SPM_STAT ∉ [R.LNn_WR_STAT n] ∧ R.SPM_STAT ∉ [R.LNn_STAT n] := by
  revert n
  decide

theorem regsKept_verifyShut (n : Lane) (s : State) : regsKept [R.LNn_WR_STAT n] s (verifyShut n s) :=
  have shown : regsKept [R.LNn_WR_STAT n] s (s.put (F.LNn_WR_STAT_VFY_GATE n) 0) := regsKept_put (f := F.LNn_WR_STAT_VFY_GATE n) List.mem_cons_self 0
  shown.trans (.of_regs rfl)

theorem ln_verifyShut (n m : Lane) (s : State) : (verifyShut n s).ln m = if m = n then { s.ln n with vgate := none } else s.ln m := by
  have shown (i : Lane) : (s.put (F.LNn_WR_STAT_VFY_GATE n) 0).ln i = s.ln i := ln_of_lns (put_moves.parts 13 rfl) i
  rw [verifyShut, State.onLn, ln_setLn, shown, shown]

theorem ln_verifyClosed (n m : Lane) (d : Sector) (taps : List Word) (s : State) : (verifyClosed n d taps s).ln m =
    if m = n then { s.ln n with
      vgate := none, enHeld := if (s.ln n).gate.isNone then 0 else (s.ln n).enHeld,
      tables := tablesWritten (cadence s) 6 d.head.toNat 0 (cancelEntries n taps s) (s.ln n).tables }
    else s.ln m := by
  have cad : cadence (verifyShut n s) = cadence s := cadence_congr (regsKept_verifyShut n s) (gateRegs_apart n).2.1
  rw [verifyClosed, ln_enablesReleased, writeBack_eq, ln_setLn_same, ln_setLn, ln_verifyShut, ln_verifyShut, if_pos rfl, cad]
  by_cases h : m = n
  · simp only [h, if_true, Option.isNone_none, Bool.and_true]
  · simp only [h, if_false]

/-- A verify gate that is open closes, its bit clear (R137, R233). -/
theorem gateCloseEff_verify {n : Lane} {d : Sector} (taps : List Word) {s : State} (opened : (s.ln n).vgate = some d) (quiet : portsQuiet (s.ln n)) :
    gateCloseEff n .verify taps s = verifyClosed n d taps s := by
  have entries : cancelEntries n taps (verifyShut n s) = cancelEntries n taps s := by
    have ctl {f : Fld} (h : f.addr = R.LNn_WR_CTL n) : (verifyShut n s).on f = s.on f := by
      rw [State.on, (regsKept_verifyShut n s).get (h ▸ (gateRegs_apart n).1), State.on]
    rw [cancelEntries, ctl rfl, ctl rfl, cancelEntries]
  have still : portsQuiet ((writeBack n 6 d.head.toNat 0 (cancelEntries n taps s) (verifyShut n s)).ln n) := by
    rw [writeBack_eq, ln_setLn_same, ln_verifyShut, if_pos rfl]
    exact quiet
  show closeVerify n (some taps) s = _
  unfold closeVerify
  simp only [opened]
  rw [← verifyShut, writeBackCancel_eq, entries, afterClose_quiet still, verifyClosed]

theorem regsKept_verifyClosed (n : Lane) (d : Sector) (taps : List Word) (s : State) : regsKept [R.LNn_WR_STAT n] s (verifyClosed n d taps s) :=
  (regsKept_verifyShut n s).trans ((onLn_moves.step writeBack_moves).regsKept rfl)

theorem get_verifyClosed (n : Lane) (d : Sector) (taps : List Word) (s : State) :
    (verifyClosed n d taps s).get (F.LNn_WR_STAT_VFY_GATE n) = 0 := by
  have shut : regsKept [] (verifyShut n s) (verifyClosed n d taps s) := (onLn_moves.step writeBack_moves).regsKept rfl
  rw [shut.get List.not_mem_nil, verifyShut, get_onLn, get_put_same (of_decide_eq_true rfl)]
  rfl

theorem verifyClosed_moves (n : Lane) (d : Sector) (taps : List Word) (s : State) : Moves 0x2001 s (verifyClosed n d taps s) :=
  onLn_moves.on (writeBack_moves.on (onLn_moves.on (put_moves.wide (m := 0x2001) rfl) rfl) rfl) rfl

/-! ### The read gate and the write gate -/

/-- The gate's bit clear, and the sequencer's view of its gate idle from the next word (R228, R233). -/
def gateShown (f : Fld) (n : Lane) (s : State) : State := seqGateIdle n (s.put f 0)

/-- The gate's sector gone from it: one that a servo field splits waits for its continuation (R99). -/
def gateLeft (n : Lane) (d : Sector) (s : State) : State :=
  s.onLn n (fun l => { l with gate := none, cont := if closesAtSplit s d then some { d with part := 1 } else none })

/-- The lane of a gate that has closed, its tables as given. -/
def laneClosed (s : State) (n : Lane) (d : Sector) (tables : SMap Word) : Ln :=
  { s.ln n with
    gate := none, cont := if closesAtSplit s d then some { d with part := 1 } else none,
    enHeld := if (s.ln n).vgate.isNone then 0 else (s.ln n).enHeld, tables := tables }

section

variable (f : Fld) (n m : Lane) (d : Sector) (s : State)

theorem gateShown_moves : Moves 0x4001 s (gateShown f n s) := seqGateIdle_moves.on (put_moves.wide (m := 0x4001) rfl) rfl

theorem ln_gateShown : (gateShown f n s).ln m = s.ln m := ln_of_lns ((gateShown_moves f n s).parts 13 rfl) m

theorem regsKept_gateShown : regsKept [f.addr] s (gateShown f n s) :=
  have shown : regsKept [f.addr] s (s.put f 0) := regsKept_put List.mem_cons_self 0
  shown.trans (seqGateIdle_moves.regsKept rfl)

theorem get_gateShown {f : Fld} (fits : f.lo + f.width ≤ 32) : (gateShown f n s).get f = 0 := by
  have idle : regsKept [] (s.put f 0) (gateShown f n s) := seqGateIdle_moves.regsKept rfl
  rw [idle.get List.not_mem_nil, get_put_same fits, Nat.zero_mod]

theorem ms_gateShown : (gateShown f n s).ms m = if m = n then { s.ms n with nxt := { (s.ms n).nxt with gate := 0 } } else s.ms m := by
  split
  next h => subst h; exact ms_onMs_same ..
  next h => exact ms_onMs_other h ..

theorem ln_gateLeft : (gateLeft n d s).ln m =
    if m = n then { s.ln n with gate := none, cont := if closesAtSplit s d then some { d with part := 1 } else none } else s.ln m := ln_setLn ..

end

/-- The read gate closed, with the entries that it writes back. -/
def readClosed (n : Lane) (d : Sector) (taps : List Word) (s : State) : State :=
  enablesReleased n (writeBack n 3 d.head.toNat d.zone (adaptedEntries d taps) (gateLeft n d (gateShown (F.LNn_STAT_RD_GATE n) n s)))

/-- The write gate closed, its pair squelched (R136). -/
def writeClosed (n : Lane) (d : Sector) (s : State) : State :=
  enablesReleased n (gateLeft n d ((gateShown (F.LNn_STAT_WR_GATE n) n s).emit (.squelched n)))

/-- A lane whose gate has closed, after the head-enable bits: whatever the close shows and sends beside. -/
theorem ln_closed {n : Lane} {d : Sector} {s t u : State} (lns : t.lns = s.lns) (cfg : t.cfg = s.cfg) {tables : SMap Word}
    (left : u = (gateLeft n d t).setLn n { (gateLeft n d t).ln n with tables := tables }) (m : Lane) :
    (enablesReleased n u).ln m = if m = n then laneClosed s n d tables else s.ln m := by
  subst left
  rw [ln_enablesReleased, ln_setLn_same, ln_setLn, ln_gateLeft, ln_gateLeft, if_pos rfl, ln_of_lns lns, ln_of_lns lns, closesAtSplit_congr cfg]
  by_cases h : m = n
  · simp only [h, if_true, Option.isNone_none, Bool.true_and, laneClosed]
  · simp only [h, if_false]

theorem ln_readClosed (n m : Lane) (d : Sector) (taps : List Word) (s : State) : (readClosed n d taps s).ln m =
    if m = n then laneClosed s n d (tablesWritten (cadence s) 3 d.head.toNat d.zone (adaptedEntries d taps) (s.ln n).tables) else s.ln m := by
  have shown := gateShown_moves (F.LNn_STAT_RD_GATE n) n s
  have kept : regsKept [R.LNn_STAT n] s (gateLeft n d (gateShown (F.LNn_STAT_RD_GATE n) n s)) :=
    (regsKept_gateShown (F.LNn_STAT_RD_GATE n) n s).trans (.of_regs rfl)
  have cad : cadence (gateLeft n d (gateShown (F.LNn_STAT_RD_GATE n) n s)) = cadence s := cadence_congr kept (gateRegs_apart n).2.2
  refine ln_closed (t := gateShown (F.LNn_STAT_RD_GATE n) n s) (shown.parts 13 rfl) (shown.parts 5 rfl) ?_ m
  rw [writeBack_eq, cad, ln_gateLeft, if_pos rfl, ln_gateShown]

theorem ln_writeClosed (n m : Lane) (d : Sector) (s : State) :
    (writeClosed n d s).ln m = if m = n then laneClosed s n d (s.ln n).tables else s.ln m := by
  have shown : Moves 0x8004001 s ((gateShown (F.LNn_STAT_WR_GATE n) n s).emit (.squelched n)) :=
    emit_moves.on ((gateShown_moves (F.LNn_STAT_WR_GATE n) n s).wide rfl) rfl
  refine ln_closed (t := (gateShown (F.LNn_STAT_WR_GATE n) n s).emit (.squelched n)) (shown.parts 13 rfl) (shown.parts 5 rfl) ?_ m
  have lane : ((gateShown (F.LNn_STAT_WR_GATE n) n s).emit (.squelched n)).ln n = s.ln n := ln_of_lns (shown.parts 13 rfl) n
  exact ((congrArg _ (by rw [ln_gateLeft, if_pos rfl, lane])).trans (setLn_self ..)).symm

/-- The pair is squelched with the close (R136). -/
theorem sent_writeClosed (n : Lane) (d : Sector) (s : State) : (writeClosed n d s).sent = s.sent ++ [.squelched n] := by
  have released : (writeClosed n d s).sent = ((gateShown (F.LNn_STAT_WR_GATE n) n s).emit (.squelched n)).sent :=
    (onLn_moves.step onLn_moves).parts 27 rfl
  have shown : (gateShown (F.LNn_STAT_WR_GATE n) n s).sent = s.sent := (gateShown_moves ..).parts 27 rfl
  rw [released, State.emit, shown]

theorem gateCloseEff_read {n : Lane} {d : Sector} (taps : List Word) {s : State} (opened : (s.ln n).gate = some d)
    (shown : s.get (F.LNn_STAT_RD_GATE n) = 1) (quiet : portsQuiet (s.ln n)) : gateCloseEff n .read taps s = readClosed n d taps s := by
  have still : portsQuiet
      ((writeBack n 3 d.head.toNat d.zone (adaptedEntries d taps) (gateLeft n d (gateShown (F.LNn_STAT_RD_GATE n) n s))).ln n) := by
    rw [writeBack_eq, ln_setLn_same, ln_gateLeft, if_pos rfl, ln_gateShown]
    exact quiet
  have on_ : s.on (F.LNn_STAT_RD_GATE n) = true := by rw [State.on, shown]; rfl
  refine (if_pos on_).trans ?_
  unfold closeRead
  simp only [opened]
  rw [← gateShown, ← gateLeft, writeBackRead_eq, afterClose_quiet still, readClosed]

theorem gateCloseEff_write {n : Lane} {d : Sector} (taps : List Word) {s : State} (opened : (s.ln n).gate = some d)
    (shown : s.get (F.LNn_STAT_WR_GATE n) = 1) (quiet : portsQuiet (s.ln n)) :
    gateCloseEff n .write taps s = if closesAtSplit s d || d.verify then writeClosed n d s else sectorPlaced n d (writeClosed n d s) := by
  have squelched : Moves 0x8004001 s ((gateShown (F.LNn_STAT_WR_GATE n) n s).emit (.squelched n)) :=
    emit_moves.on ((gateShown_moves (F.LNn_STAT_WR_GATE n) n s).wide rfl) rfl
  have still : portsQuiet ((gateLeft n d ((gateShown (F.LNn_STAT_WR_GATE n) n s).emit (.squelched n))).ln n) := by
    rw [ln_gateLeft, if_pos rfl, ln_of_lns (squelched.parts 13 rfl)]
    exact quiet
  have on_ : s.on (F.LNn_STAT_WR_GATE n) = true := by rw [State.on, shown]; rfl
  have split : closesAtSplit ((gateShown (F.LNn_STAT_WR_GATE n) n s).emit (.squelched n)) d = closesAtSplit s d :=
    closesAtSplit_congr (squelched.parts 5 rfl) d
  refine (if_pos on_).trans ?_
  unfold closeWrite
  simp only [opened]
  rw [← gateShown, ← gateLeft, split, afterClose_quiet still, writeClosed]

theorem readClosed_moves (n : Lane) (d : Sector) (taps : List Word) (s : State) : Moves 0x6001 s (readClosed n d taps s) :=
  onLn_moves.on (writeBack_moves.on (onLn_moves.on ((gateShown_moves _ n s).wide (m := 0x6001) rfl) rfl) rfl) rfl

theorem writeClosed_moves (n : Lane) (d : Sector) (s : State) : Moves 0x8006001 s (writeClosed n d s) :=
  onLn_moves.on (onLn_moves.on (emit_moves.on ((gateShown_moves _ n s).wide (m := 0x8006001) rfl) rfl) rfl) rfl

/-- What follows the bit of a closed gate leaves the registers and the sequencer. -/
theorem closed_frame {f : Fld} {n : Lane} {s t : State} (moved : Moves 0x8002000 (gateShown f n s) t) (fits : f.lo + f.width ≤ 32) :
    t.get f = 0 ∧ t.ms n = { s.ms n with nxt := { (s.ms n).nxt with gate := 0 } } ∧ (∀ m, m ≠ n → t.ms m = s.ms m) ∧ regsKept [f.addr] s t := by
  have mss (m : Lane) : t.ms m = (gateShown f n s).ms m := congrArg (·.get m) (moved.parts 14 rfl)
  refine ⟨?_, (mss n).trans ((ms_gateShown ..).trans (if_pos rfl)), fun m hm => (mss m).trans ((ms_gateShown ..).trans (if_neg hm)),
    (regsKept_gateShown f n s).trans (moved.regsKept rfl)⟩
  have kept : regsKept [] (gateShown f n s) t := moved.regsKept rfl
  rw [kept.get List.not_mem_nil, get_gateShown n s fits]

/-- A close of a gate that is not open closes nothing (R233). -/
theorem gateCloseEff_notOpen (n : Lane) (taps : List Word) (s : State) :
    (s.get (F.LNn_STAT_RD_GATE n) = 0 → gateCloseEff n .read taps s = s) ∧ (s.get (F.LNn_STAT_WR_GATE n) = 0 → gateCloseEff n .write taps s = s) ∧
      ((s.ln n).vgate = none → gateCloseEff n .verify taps s = s) := by
  have off {f : Fld} (h : s.get f = 0) : ¬ s.on f = true := by simp [State.on, h]
  refine ⟨fun closed => if_neg (off closed), fun closed => if_neg (off closed), fun closed => ?_⟩
  show closeVerify n (some taps) s = s
  unfold closeVerify
  simp only [closed]

/-! ### The table ports -/

/-- Settles O9: a lemma for each row of the ports, and for the close of each gate. -/
theorem tablePortsHoldWhileGateOpen : Obligations.TablePortsHoldWhileGateOpen := by
  unfold Obligations.TablePortsHoldWhileGateOpen
  refine ⟨?applies, ?holds, ?beyond, ?waits, ?read, ?index, ?verifyGate, ?readGate, ?writeGate, ?notOpen⟩
  case applies =>
    intro who n addr w wr auto tbl head zone index s port early busy free closed sel table entry
    rw [exec_tableDataWrite who w port early busy, tablePortWrite_now w free, tableWriteNow_applies w sel (namesEntry_iff.mpr ⟨table, entry⟩) closed]
    rfl
  case holds =>
    intro who n addr w wr auto tbl head zone index s port early busy free opened sel table entry
    refine ⟨_, ?_, rfl, tableStep_holding n wr (by cases wr <;> rfl)⟩
    rw [exec_tableDataWrite who w port early busy, tablePortWrite_now w free, tableWriteNow_holds w sel (namesEntry_iff.mpr ⟨table, entry⟩) opened]
  case beyond =>
    intro who n addr w wr auto tbl head zone index s port early busy free sel beyond
    have none_ : namesEntry wr tbl index = false := by
      rw [← Bool.not_eq_true, namesEntry_iff, not_and_or, Nat.not_lt, Nat.not_lt]
      exact beyond
    rw [exec_tableDataWrite who w port early busy, tablePortWrite_now w free, tableWriteNow_beyond w sel none_]
  case waits =>
    intro who n addr w wr s port early busy held
    rw [exec_tableDataWrite who w port early busy, tablePortWrite_waits w held]
  case read =>
    intro who n addr wr auto tbl head zone index s port sel
    exact exec_tableDataRead who port sel
  case index =>
    intro n s
    obtain ⟨read, write⟩ := tableStep_index n s
    exact ⟨read, write, regsKept_tableStep n false s, regsKept_tableStep n true s, tableStep_frame n false s, tableStep_frame n true s⟩
  case verifyGate =>
    intro n d taps s opened held wheld waiting drain
    have close := gateCloseEff_verify taps opened ⟨held, wheld, waiting, drain⟩
    have lane := (ln_verifyClosed n n d taps s).trans (if_pos rfl)
    refine ⟨verifyClosed n d taps s, by rw [exec_gateClose, close], get_verifyClosed n d taps s, fun off => ?_,
      fun enabled adapts => ?_, fun m hm => (ln_verifyClosed n m d taps s).trans (if_neg hm), regsKept_verifyClosed n d taps s,
      (verifyClosed_moves n d taps s).frame (by decide)⟩
    · rw [lane, cancelEntries, off]
      rfl
    · rw [lane, cancelEntries, enabled, adapts, writeBack_eq, ln_setLn_same]
      rfl
  case readGate =>
    intro n d taps s opened shown held wheld waiting drain
    have close := gateCloseEff_read taps opened shown ⟨held, wheld, waiting, drain⟩
    have lane := (ln_readClosed n n d taps s).trans (if_pos rfl)
    have after : Moves 0x8002000 (gateShown (F.LNn_STAT_RD_GATE n) n s) (readClosed n d taps s) :=
      onLn_moves.on (writeBack_moves.on (onLn_moves.wide (m := 0x8002000) rfl) rfl) rfl
    obtain ⟨clear, idle, others, kept⟩ := closed_frame after (of_decide_eq_true rfl)
    refine ⟨readClosed n d taps s, by rw [exec_gateClose, close], clear, fun fixed => ?_,
      fun f front adapt all enough => ?_, idle, fun m hm => ⟨(ln_readClosed n m d taps s).trans (if_neg hm), others m hm⟩, kept,
      (readClosed_moves n d taps s).frame (by decide)⟩
    · rw [lane, adaptedEntries_fixed taps fixed]
      rfl
    · rw [lane, adaptedEntries_all front adapt all enough, writeBack_eq, ln_setLn_same]
      rfl
  case writeGate =>
    intro n d taps s opened shown held wheld waiting drain
    have close := gateCloseEff_write taps opened shown ⟨held, wheld, waiting, drain⟩
    have after : Moves 0x8002000 (gateShown (F.LNn_STAT_WR_GATE n) n s) (writeClosed n d s) :=
      onLn_moves.on (onLn_moves.on (emit_moves.wide (m := 0x8002000) rfl) rfl) rfl
    obtain ⟨clear, idle, others, kept⟩ := closed_frame after (of_decide_eq_true rfl)
    exact ⟨writeClosed n d s, by rw [exec_gateClose, close], clear, sent_writeClosed n d s,
      (ln_writeClosed n n d s).trans (if_pos rfl), idle, fun m hm => ⟨(ln_writeClosed n m d s).trans (if_neg hm), others m hm⟩, kept,
      (writeClosed_moves n d s).frame (by decide)⟩
  case notOpen =>
    intro n taps s
    obtain ⟨read, write, verify⟩ := gateCloseEff_notOpen n taps s
    exact ⟨fun closed => by rw [exec_gateClose, read closed], fun closed => by rw [exec_gateClose, write closed],
      fun closed => by rw [exec_gateClose, verify closed]⟩

end Sys2Proof.Machine

end

section

/-! PROOF. The Abacus unit (R643, R167 to R169): its slots, and the words and blocks that they write. -/

namespace Sys2Proof.Machine

/-! ### The state of an engine written again -/

theorem sv_onSv_same (s : State) (n : Lane) (f : Sv → Sv) : (s.onSv n f).sv n = f (s.sv n) := (sv_onSv ..).trans (if_pos rfl)

theorem sv_onSv_other {n m : Lane} (h : m ≠ n) (s : State) (f : Sv → Sv) : (s.onSv n f).sv m = s.sv m := (sv_onSv ..).trans (if_neg h)

theorem onSv_onSv (s : State) (n : Lane) (f g : Sv → Sv) : (s.onSv n f).onSv n g = s.onSv n (fun v => g (f v)) := by
  rw [State.onSv, sv_onSv_same]
  exact congrArg (fun v => { s with svs := v }) (setV_setV s.svs n ..)

/-! ### Slots (R643) -/

/-- The row of a slot that puts a value into a word, with its OP and the value: STORE, ABACUS_MOVE or IN. -/
abbrev StoringRow (n : Lane) (s : State) (c : Instr) (op : Nat) (x : Rat) : Prop :=
  (c = .store n ∧ op = 3 ∧ x = accValue (s.sv n).acc) ∨ (c = .abacusMove n ∧ op = 4 ∧ x = wordValue s n (setInUse s n) (slotNow s n).2.2.1) ∨
    (c = .in_ n ∧ op = 5 ∧ x = abacusInput s n (slotNow s n).2.2.1)

/-- What a row that puts a value into a word leaves: the word stored, and the lane lost where the block's exponent overflows (R169). -/
theorem exec_storingRow {n : Lane} {s : State} {c : Instr} {op : Nat} {x : Rat} (row : StoringRow n s c op x) (runs : slotRuns s n op = true) :
    exec c s = .next (if (storeWord n (setInUse s n) (slotNow s n).2.1 x 64 (nextSlot n s)).1 then
      servoLoses n 6 (storeWord n (setInUse s n) (slotNow s n).2.1 x 64 (nextSlot n s)).2 else
      (storeWord n (setInUse s n) (slotNow s n).2.1 x 64 (nextSlot n s)).2) := by
  rcases row with ⟨rfl, rfl, rfl⟩ | ⟨rfl, rfl, rfl⟩ | ⟨rfl, rfl, rfl⟩ <;> exact congrArg Host.Outcome.next (if_pos runs)

/-- NOP and the reserved operations pass (R643). -/
theorem exec_nop_runs {n : Lane} {s : State} {op : Nat} (reserved : op ∈ [0, 8, 9, 10, 11, 12, 13, 14, 15]) (runs : slotRuns s n op = true) :
    exec (.nop n) s = .next (nextSlot n s) := by
  refine congrArg Host.Outcome.next (if_pos ?_)
  rcases List.mem_cons.mp reserved with rfl | other
  · rw [runs, Bool.true_or]
  · rw [List.any_eq_true.mpr ⟨op, other, runs⟩, Bool.or_true]

theorem exec_nop_idle {n : Lane} {s : State} (idle : ∀ op ∈ [0, 8, 9, 10, 11, 12, 13, 14, 15], slotRuns s n op = false) :
    exec (.nop n) s = .next s := by
  obtain ⟨zero, others⟩ := List.forall_mem_cons.mp idle
  refine congrArg Host.Outcome.next (if_neg ?_)
  rw [zero, Bool.false_or, List.any_eq_true]
  rintro ⟨op, mem, runs⟩
  exact ne_true_of_eq_false (others op mem) runs

/-- A slot that leaves an accumulation: the engine's next slot has its turn. -/
theorem sv_accumulated (s : State) (n : Lane) (f : List (Int × Nat) → List (Int × Nat)) :
    ((nextSlot n (s.onSv n (fun v => { v with acc := f v.acc }))).sv n = { s.sv n with acc := f (s.sv n).acc, slot := (s.sv n).slot + 1 }) ∧
      (∀ m, m ≠ n → (nextSlot n (s.onSv n (fun v => { v with acc := f v.acc }))).sv m = s.sv m) ∧
      onlyParts [.svs] s (nextSlot n (s.onSv n (fun v => { v with acc := f v.acc }))) := by
  rw [nextSlot, onSv_onSv]
  exact ⟨sv_onSv_same .., fun m hm => sv_onSv_other hm .., onSv_moves.frame (by decide)⟩

/-! ### Words and blocks (R166 to R169) -/

/-- The turn of the next slot leaves every exponent. -/
theorem wordExp_nextSlot (s : State) (n : Lane) (c w : Nat) : wordExp (nextSlot n s) n c w = wordExp s n c w := by
  simp only [wordExp, blockExp, nextSlot, sv_onSv_same]
  rfl

/-- A value's mantissa at an exponent holds 24 bits. -/
abbrev MantissaFits (x : Rat) (e : Nat) : Prop := -(2 ^ 23) ≤ roundEven (x * pow2 (55 - (e : Int))) ∧ roundEven (x * pow2 (55 - (e : Int))) < 2 ^ 23

/-- A value that fits is rounded into its word at the word's exponent (R167). -/
theorem storeWord_fits {n : Lane} {c w : Nat} {x : Rat} {s : State} (fits : MantissaFits x (wordExp s n c w)) (k : Nat) :
    storeWord n c w x (k + 1) s = (false, putMant n c w (roundEven (x * pow2 (55 - (wordExp s n c w : Int)))) s) := by
  rw [storeWord, decide_eq_true fits.1, decide_eq_true fits.2]
  rfl

/-- A value that does not fit raises its block's exponent, and at exponent 63 saturates (R168, R169). -/
theorem storeWord_raises {n : Lane} {c w b : Nat} {x : Rat} {s : State} (block : blockOf s c w = some b) (wide : ¬ MantissaFits x (wordExp s n c w)) (k : Nat) :
    storeWord n c w x (k + 1) s =
      if 63 ≤ wordExp s n c w then
        (true, putMant n c w (saturate (roundEven (x * pow2 (55 - (wordExp s n c w : Int))))) (mapBlock n c b 63 saturate s))
      else storeWord n c w x k (mapBlock n c b (wordExp s n c w + 1) halve s) := by
  rw [storeWord, if_neg (by rwa [Bool.and_eq_true, decide_eq_true_eq, decide_eq_true_eq]), block]

/-- A block whose greatest mantissa is 0, or from 2^21 to below 2^22, is normal (R168). -/
theorem renormBlock_normal {n : Lane} {c b : Nat} {s : State} (normal : blockPeak s n c b = 0 ∨ (2 ^ 21 ≤ blockPeak s n c b ∧ blockPeak s n c b < 2 ^ 22)) :
    renormBlock n c b s = (false, s) := by
  have up : renormUp n c b 64 s = (false, s) := by
    rw [renormUp, if_pos (by omega)]
  have down : renormDown n c b 64 s = s := by
    rw [renormDown, if_pos (by omega)]
  rw [renormBlock, up]
  exact congrArg (Prod.mk false) down

/-! ### Outputs (R643) -/

/-- Each numbered output of a program is set by its own number alone. -/
theorem abacusOutput_outputs (n : Lane) (k : Nat) (x : Rat) (s : State) :
    ((abacusOutput n k x s).sv n).out0 = (if k = 0 then x else (s.sv n).out0) ∧
      ((abacusOutput n k x s).sv n).out1 = (if k = 1 then x else (s.sv n).out1) ∧
      ((abacusOutput n k x s).sv n).out2 = (if k = 2 then x else (s.sv n).out2) := by
  rw [abacusOutput, sv_onSv_same]
  match k with
  | 0 | 1 | 2 => exact ⟨rfl, rfl, rfl⟩
  | k + 3 => exact ⟨rfl, rfl, rfl⟩

/-! ### The Abacus slots -/

/-- Settles O14: a lemma for what a slot's row leaves, one for each way of storing a word, and one for a normal block. -/
theorem abacusSlotsComputeExactly : Obligations.AbacusSlotsComputeExactly := by
  unfold Obligations.AbacusSlotsComputeExactly
  refine ⟨?nop, ?mul, ?mac, ?product, ?fits, ?store, ?raises, ?out, ?outputs, ?renorm, ?normal, ?idle⟩
  case nop =>
    intro n op s reserved runs
    exact exec_nop_runs reserved runs
  case mul =>
    intro n s runs
    exact ⟨_, congrArg Host.Outcome.next (if_pos runs), sv_accumulated s n (fun _ => [slotProduct s n])⟩
  case mac =>
    intro n s runs
    exact ⟨_, congrArg Host.Outcome.next (if_pos runs), sv_accumulated s n (fun acc => acc ++ [slotProduct s n])⟩
  case product =>
    intro n s
    rfl
  case fits =>
    rintro n c op x s w e row runs rfl rfl low high
    rw [exec_storingRow row runs, storeWord_fits (by rw [wordExp_nextSlot]; exact ⟨low, high⟩), wordExp_nextSlot]
    rfl
  case store =>
    rintro n c op x s w row runs rfl
    exact exec_storingRow row runs
  case raises =>
    intro n c w b k x s block wide
    rw [storeWord_raises block wide]
    exact ⟨fun below => if_neg (by omega), fun top => if_pos top⟩
  case out =>
    intro n s runs
    exact congrArg Host.Outcome.next (if_pos runs)
  case outputs =>
    intro n k x s
    obtain ⟨out0, out1, out2⟩ := abacusOutput_outputs n k x s
    exact ⟨out0, out1, out2, abacusOutput_moves.frame (by decide)⟩
  case renorm =>
    intro n s runs
    exact (if_pos runs).trans rfl
  case normal =>
    intro n c b s normal
    exact renormBlock_normal normal
  case idle =>
    intro n s
    have idles {c : Bool} {t : State} (idle : c = false) : (.next (if c then t else s) : Host.Outcome State Fault Refusal) = .next s :=
      congrArg _ (if_neg (ne_true_of_eq_false idle))
    exact ⟨idles, idles, idles, idles, idles, idles, fun idle => if_neg (ne_true_of_eq_false idle), exec_nop_idle⟩

end Sys2Proof.Machine

end

section

/-! PROOF. Registers of the servo engines and of the motion link (R629): what a lane, Tally and a write inhibit do beside them leaves them. -/

namespace Sys2Proof.Machine

/-! ### The registers of SVn and MOT -/

/-- The address lies in a block SVn or in MOT. -/
def servoBlock (a : Nat) : Bool :=
  match locate a with
  | some (.sv, _) => true
  | some (.mot, _) => true
  | _ => false

/-- Every register of SVn and MOT outside `l` reads as before. -/
structure ServoKept (l : List Nat) (s t : State) : Prop where
  reg : ∀ a, servoBlock a = true → a ∉ l → t.reg a = s.reg a

section

variable {l k : List Nat} {s t u : State}

theorem ServoKept.refl : ServoKept l s s := ⟨fun _ _ _ => rfl⟩

theorem ServoKept.trans (h : ServoKept l s t) (g : ServoKept l t u) : ServoKept l s u := ⟨fun a ha hl => (g.reg a ha hl).trans (h.reg a ha hl)⟩

theorem ServoKept.mono (h : ServoKept l s t) (sub : l ⊆ k) : ServoKept k s t := ⟨fun a ha hk => h.reg a ha (fun hl => hk (sub hl))⟩

theorem ServoKept.get (h : ServoKept l s t) {f : Fld} (own : servoBlock f.addr = true) (apart : f.addr ∉ l) : t.get f = s.get f := by
  rw [get_eq, get_eq, rget, rget, ← reg_eq, ← reg_eq, h.reg _ own apart]

/-- Registers kept but for some of other blocks. -/
theorem regsKept.servo (h : regsKept k s t) (out : ∀ a ∈ k, servoBlock a = false) : ServoKept l s t :=
  ⟨fun a ha _ => h a (fun hk => ne_false_of_eq_true ha (out a hk))⟩

/-- Registers kept but for the same ones. -/
theorem regsKept.servoKept (h : regsKept l s t) : ServoKept l s t := ⟨fun a _ hl => h a hl⟩

theorem Moves.servo {m : Nat} (h : Moves m s t) (c : m.testBit 0 = false) : ServoKept l s t := (h.regsKept c).servoKept

theorem ServoKept.put (h : ServoKept l s t) {f : Fld} (out : servoBlock f.addr = false) (v : Nat) : ServoKept l s (t.put f v) :=
  h.trans ((regsKept_put List.mem_cons_self v).servo (List.forall_mem_singleton.mpr out))

theorem ServoKept.flag (h : ServoKept l s t) {f : Fld} (out : servoBlock f.addr = false) : ServoKept l s (t.flag f) :=
  h.trans ((regsKept_flag t f).servo (List.forall_mem_singleton.mpr out))

theorem ServoKept.count (h : ServoKept l s t) {f : Fld} (out : servoBlock f.addr = false) (n : Nat) : ServoKept l s (t.count f n) :=
  h.trans ((regsKept_count t f n).servo (List.forall_mem_singleton.mpr out))

theorem ServoKept.ite {c : Prop} [Decidable c] (h : ServoKept l s t) (g : ServoKept l s u) : ServoKept l s (if c then t else u) := by
  split
  · exact h
  · exact g

theorem ServoKept.forEach {α : Type} {f : α → State → State} (h : ∀ a t, ServoKept l t (f a t)) {as : List α} :
    ServoKept l s (forEach as f s) := by
  induction as generalizing s with
  | nil => exact .refl
  | cons a as ih => exact (h a s).trans ih

end

/-! ### Tally -/

/-- The registers that Tally writes are none of a servo's. -/
theorem servoBlock_tally : servoBlock R.TLY_STAT = false ∧ servoBlock R.TLY_FLT = false ∧ servoBlock R.TLY_CNT = false ∧
    servoBlock R.GLB_STICKY = false := by decide +kernel

/-- The registers that a write inhibit of lane n writes lie in LNn and MSn. -/
theorem servoBlock_lane (n : Lane) : ∀ a ∈ [R.LNn_STAT n, R.LNn_WR_STAT n, R.LNn_WFLT_STAT n, R.LNn_WR_CNT n, R.LNn_VFY_STAT n, R.LNn_VFY_CNT1 n,
    R.MSn_INT n, R.LNn_TBL_SEL n, R.LNn_WTBL_SEL n], servoBlock a = false := by
  revert n
  decide +kernel

section

variable {l : List Nat} {s : State}

theorem servoKept_tlyUpdate {e d : Nat} : ServoKept l s (s.tlyUpdate e d false) := by
  obtain ⟨-, flt, cnt, sticky⟩ := servoBlock_tally
  unfold State.tlyUpdate
  dsimp only
  split
  · exact mk_tly.servo rfl
  · exact (((ServoKept.refl.flag (f := F.TLY_FLT_SLOT_BAD) flt).count (f := F.TLY_CNT_SLOT_BAD) cnt 1).put (f := F.GLB_STICKY_TALLY_FAIL) sticky 1).trans
      ⟨fun _ _ _ => rfl⟩

theorem servoKept_tally {e d : Nat} : ServoKept l s (s.tally e d) := by
  unfold State.tally
  exact .ite servoKept_tlyUpdate ((mk_tly.servo rfl).put (f := F.TLY_STAT_STAGED) servoBlock_tally.1 _)

/-! ### The table ports and the gates of a lane -/

/-- The registers of a lane and of its sequencer are none of a servo's. -/
theorem servoBlock_of_laneOfAddr {a : Nat} {n : Lane} (h : laneOfAddr a = some n) : servoBlock a = false := by
  unfold laneOfAddr at h
  unfold servoBlock
  split at h
  next at_ => rw [at_]
  next at_ => rw [at_]
  next => cases h

theorem servoBlock_of_tablePort {a : Nat} {p : Lane × Bool × Bool} (h : tablePort a = some p) : servoBlock a = false := by
  unfold tablePort at h
  split at h
  next n at_ => exact servoBlock_of_laneOfAddr at_
  next => cases h

variable {n : Lane}

theorem servoKept_tableStep {wr : Bool} : ServoKept l s (tableStep n wr s) := by
  refine (regsKept_tableStep n wr s).servo (fun a ha => servoBlock_lane n a ?_)
  rw [List.mem_singleton.mp ha]
  cases wr <;> simp [portSel]

theorem servoKept_tableWriteNow {wr : Bool} {w : Word} : ServoKept l s (tableWriteNow n wr w s) := by
  unfold tableWriteNow
  exact .trans (.ite .refl (.ite (.ite (onLn_moves.servo rfl) (onLn_moves.servo rfl)) (putEntry_moves.servo rfl))) servoKept_tableStep

theorem servoKept_tablePortWrite {wr d : Bool} {a : Nat} {w : Word} (h : servoBlock a = false) : ServoKept l s (tablePortWrite n wr d a w s) := by
  unfold tablePortWrite
  refine .ite (onLn_moves.servo rfl) (.ite servoKept_tableWriteNow ?_)
  exact (regsKept_setReg List.mem_cons_self _).servo (List.forall_mem_singleton.mpr h)

theorem servoKept_releaseHeld {wr : Bool} : ServoKept l s (releaseHeld n wr s) := by
  unfold releaseHeld
  refine .ite .refl (.trans (.trans ?_ (onLn_moves.servo rfl)) (.forEach (fun p t => ?_)))
  · split
    · exact putEntry_moves.servo rfl
    · exact .refl
  · split
    next port => exact servoKept_tablePortWrite (servoBlock_of_tablePort port)
    next => exact .refl

theorem servoKept_afterClose : ServoKept l s (afterClose n s) := by
  have drained {t : State} : ServoKept l t (drainFifo n t) := by
    unfold drainFifo
    exact .ite (((onLn_moves.servo rfl).trans (onAct_moves.servo rfl)).trans servoKept_tally) .refl
  exact (((onLn_moves.servo rfl).trans servoKept_releaseHeld).trans servoKept_releaseHeld).trans drained

theorem servoKept_closeVerify {taps : Option (List Word)} : ServoKept l s (closeVerify n taps s) := by
  have stat : servoBlock (R.LNn_WR_STAT n) = false := servoBlock_lane n _ (by simp)
  unfold closeVerify
  split
  · exact (((ServoKept.refl.put (f := F.LNn_WR_STAT_VFY_GATE n) stat 0).trans (onLn_moves.servo rfl)).trans
      (writeBackCancel_moves.servo rfl)).trans servoKept_afterClose
  · exact .refl

/-! ### A write inhibit (R146 to R150) -/

theorem servoKept_relocateSector {d : Sector} : ServoKept l s (relocateSector n d s) := by
  have cnt : servoBlock (R.LNn_WR_CNT n) = false := servoBlock_lane n _ (by simp)
  have counted {t : State} : ServoKept l t (t.count (F.LNn_WR_CNT_RELOCATED n)) := ServoKept.refl.count (f := F.LNn_WR_CNT_RELOCATED n) cnt 1
  exact ((((msPost_moves.servo rfl).trans counted).trans servoKept_tally).trans (report_moves.servo rfl)).trans (sectorOutcome_moves.servo rfl)

theorem servoKept_squelchGate {src : Nat} : ServoKept l s (squelchGate n src s) := by
  have lane := servoBlock_lane n
  have stat : servoBlock (R.LNn_STAT n) = false := lane _ (by simp)
  have cnt : servoBlock (R.LNn_WR_CNT n) = false := lane _ (by simp)
  have verify : servoBlock (R.LNn_VFY_STAT n) = false := lane _ (by simp)
  have skipped : servoBlock (R.LNn_VFY_CNT1 n) = false := lane _ (by simp)
  unfold squelchGate
  split
  next d _ =>
    have sample {c : Bool} {t : State} : ServoKept l t (if c then t.put (F.LNn_VFY_STAT_SAMPLE_CNT n) d.cnt else t) :=
      .ite (ServoKept.refl.put (f := F.LNn_VFY_STAT_SAMPLE_CNT n) verify _) .refl
    have skip {c : Bool} {t : State} : ServoKept l t (if c then t.count (F.LNn_VFY_CNT1_SKIPPED n) else t) :=
      .ite (ServoKept.refl.count (f := F.LNn_VFY_CNT1_SKIPPED n) skipped 1) .refl
    have shown {t : State} : ServoKept l t (showPending n t) := ServoKept.refl.put (f := F.LNn_VFY_STAT_PENDING n) verify _
    have cut : ServoKept l s (((s.put (F.LNn_STAT_WR_GATE n) 0).count (F.LNn_WR_CNT_INTERRUPTED n)).tally (48 + n)) :=
      ((ServoKept.refl.put (f := F.LNn_STAT_WR_GATE n) stat 0).count (f := F.LNn_WR_CNT_INTERRUPTED n) cnt 1).trans servoKept_tally
    have closed {c : Bool} {t : State} : ServoKept l t (if c then closeVerify n none t else t) := .ite servoKept_closeVerify .refl
    have told {t : State} : ServoKept l t (if src = 0 then report .disturbed n d t else t) := .ite (report_moves.servo rfl) .refl
    refine .ite .refl (.trans (.trans (.trans (.trans ?_ closed) servoKept_afterClose) told) (.ite servoKept_relocateSector (onLn_moves.servo rfl)))
    refine .trans (.trans (.trans ?_ (seqGateIdle_moves.servo rfl)) (emit_moves.servo rfl)) shown
    exact ((cut.trans sample).trans skip).trans (onLn_moves.servo rfl)
  next => exact .refl

/-- A write inhibit leaves the registers of the servo engines and of the motion link. -/
theorem servoKept_inhibit {src : Nat} : ServoKept l s (inhibit n src s) := by
  have lane := servoBlock_lane n
  have stat : servoBlock (R.LNn_WR_STAT n) = false := lane _ (by simp)
  have seen : servoBlock (R.LNn_WFLT_STAT n) = false := lane _ (by simp)
  have int : servoBlock (R.MSn_INT n) = false := lane _ (by simp)
  have shown : ServoKept l s (((s.put ((F.LNn_WR_STAT_INH_NOW n).bit src) 1).put (F.LNn_WR_STAT_SQUELCH n) 1).flag ((F.LNn_WFLT_STAT_INH_SEEN n).bit src)) :=
    ((ServoKept.refl.put (f := (F.LNn_WR_STAT_INH_NOW n).bit src) stat 1).put (f := F.LNn_WR_STAT_SQUELCH n) stat 1).flag
      (f := (F.LNn_WFLT_STAT_INH_SEEN n).bit src) seen
  have told {t : State} : ServoKept l t (msInt n 3 t) := ServoKept.refl.put (f := (⟨R.MSn_INT n, 6, 0⟩ : Fld).bit 3) int 1
  have abandoned {t : State} : ServoKept l t (abandonVerify n t) := (setLn_moves.servo rfl).trans servoKept_closeVerify
  refine .trans ?_ (.ite .refl abandoned)
  exact (shown.trans (onLn_moves.servo rfl)).trans (.ite (told.trans servoKept_squelchGate) .refl)

theorem servoKept_inhibitWrites : ServoKept l s (inhibitWrites n s) := by
  unfold inhibitWrites
  exact .ite servoKept_inhibit (onLn_moves.servo rfl)

end

end Sys2Proof.Machine

end

section

/-! PROOF. Motion states, servo faults and coasted wedges (R159, R177, R192, R195): what each writes of its engine, and what it leaves of the others. -/

namespace Sys2Proof.Machine

/-! ### The registers of an engine -/

/-- The registers of engine n that its wedges and motion states write or read. -/
theorem servoBlock_engine (n : Lane) : ∀ a ∈ [R.SVn_STAT n, R.SVn_LAP n, R.SVn_TRACK n, R.SVn_PES n, R.SVn_FLT_STAT n, R.SVn_FLT_CNT n,
    R.SVn_SYNC_CFG n, R.SVn_PERIOD n, R.SVn_PACE_POS n, R.MOT_STAT, R.MOT_FLAGS, R.MOT_CTL], servoBlock a = true := by
  revert n
  decide +kernel

/-- Two engines have no status register in common. -/
theorem engineStat_apart {n m : Lane} (h : m ≠ n) : R.SVn_STAT m ∉ [R.SVn_STAT n, R.SVn_FLT_STAT n] := by
  revert n m
  decide

theorem sv_of_svs {s t : State} (h : t.svs = s.svs) (n : Lane) : t.sv n = s.sv n := congrArg (·.get n) h

/-! ### Servo faults and write inhibit (R177) -/

section

variable {n : Lane} {s : State}

theorem servoKept_servoFault {k : Nat} : ServoKept [R.SVn_FLT_STAT n] s (servoFault n k s) :=
  (regsKept_flag s ((F.SVn_FLT_STAT_FLT n).bit k)).servoKept

theorem get_servoFault_same {k : Nat} (hk : k < 32) : (servoFault n k s).get ((F.SVn_FLT_STAT_FLT n).bit k) = 1 := by
  have one : ((F.SVn_FLT_STAT_FLT n).bit k).width = 1 := by simp [Fld.bit, Fld.width]
  rw [servoFault, get_flag (by rw [one]; simp only [Fld.bit, F.SVn_FLT_STAT_FLT]; omega), one]
  rfl

theorem get_servoFault_other {k j : Nat} (h : j ≠ k) : (servoFault n k s).get ((F.SVn_FLT_STAT_FLT n).bit j) = s.get ((F.SVn_FLT_STAT_FLT n).bit j) := by
  have apart : ((F.SVn_FLT_STAT_FLT n).bit j).lo + ((F.SVn_FLT_STAT_FLT n).bit j).width ≤ ((F.SVn_FLT_STAT_FLT n).bit k).lo ∨
      ((F.SVn_FLT_STAT_FLT n).bit k).lo + ((F.SVn_FLT_STAT_FLT n).bit k).width ≤ ((F.SVn_FLT_STAT_FLT n).bit j).lo := by
    simp only [Fld.bit, Fld.width]
    omega
  rw [get_eq, servoFault, flag_regs, rget_rput_bits _ _ apart, ← get_eq]

theorem servoKept_writeUnsafe : ServoKept [R.SVn_FLT_STAT n] s (writeUnsafe n s) := servoKept_servoFault.trans servoKept_inhibitWrites

/-- The inhibit of a wedge at which writes are not safe leaves every servo fault but WR_UNSAFE. -/
theorem get_writeUnsafe_fault {j : Nat} (h : j ≠ 4) : (writeUnsafe n s).get ((F.SVn_FLT_STAT_FLT n).bit j) = s.get ((F.SVn_FLT_STAT_FLT n).bit j) := by
  have own : servoBlock ((F.SVn_FLT_STAT_FLT n).bit j).addr = true := servoBlock_engine n _ (by simp [Fld.bit, F.SVn_FLT_STAT_FLT])
  rw [writeUnsafe, (servoKept_inhibitWrites (l := [])).get own (by simp), get_servoFault_other h]

theorem sv_writeUnsafe (m : Lane) : (writeUnsafe n s).sv m = s.sv m := sv_of_svs (writeUnsafe_moves.parts 15 rfl) m

/-! ### Motion states (R192, R193) -/

theorem servoKept_setMotion {st : Nat} : ServoKept [R.SVn_STAT n, R.SVn_FLT_STAT n] s (setMotion n st s) := by
  have shown : ServoKept [R.SVn_STAT n, R.SVn_FLT_STAT n] s (s.put (F.SVn_STAT_STATE n) st) :=
    (regsKept_put (f := F.SVn_STAT_STATE n) List.mem_cons_self st).servoKept
  exact .ite shown (shown.trans (servoKept_writeUnsafe.mono (List.subset_cons_self ..)))

/-- The status register of an engine after a motion state is entered: STATE, and the other fields as they were. -/
theorem reg_setMotion {st : Nat} : (setMotion n st s).reg (R.SVn_STAT n) = (s.put (F.SVn_STAT_STATE n) st).reg (R.SVn_STAT n) := by
  unfold setMotion
  dsimp only
  split
  · rfl
  · exact servoKept_writeUnsafe.reg _ (servoBlock_engine n _ (by simp)) (by simp [R.SVn_STAT, R.SVn_FLT_STAT])

theorem get_setMotion {st : Nat} {f : Fld} (h : f.addr = R.SVn_STAT n) : (setMotion n st s).get f = (s.put (F.SVn_STAT_STATE n) st).get f := by
  rw [State.get, State.get, h, reg_setMotion]

theorem motionState_setMotion {st : Nat} (h : st < 16) : motionState (setMotion n st s) n = st := by
  rw [motionState, get_setMotion rfl, get_put_same (of_decide_eq_true rfl)]
  exact Nat.mod_eq_of_lt h

theorem get_setMotion_syncLock {st : Nat} : (setMotion n st s).get (F.SVn_STAT_SYNC_LOCK n) = s.get (F.SVn_STAT_SYNC_LOCK n) := by
  rw [get_setMotion rfl, get_put_apart (of_decide_eq_true rfl)]

/-- A motion state entered leaves every servo fault but WR_UNSAFE. -/
theorem get_setMotion_fault {st j : Nat} (h : j ≠ 4) : (setMotion n st s).get ((F.SVn_FLT_STAT_FLT n).bit j) = s.get ((F.SVn_FLT_STAT_FLT n).bit j) := by
  have shown : (s.put (F.SVn_STAT_STATE n) st).get ((F.SVn_FLT_STAT_FLT n).bit j) = s.get ((F.SVn_FLT_STAT_FLT n).bit j) :=
    (regsKept_put (l := [R.SVn_STAT n]) (f := F.SVn_STAT_STATE n) List.mem_cons_self st).get (by simp [Fld.bit, F.SVn_FLT_STAT_FLT, R.SVn_STAT, R.SVn_FLT_STAT])
  unfold setMotion
  dsimp only
  split
  · exact shown
  · exact (get_writeUnsafe_fault h).trans shown

theorem sv_setMotion {st : Nat} (m : Lane) : (setMotion n st s).sv m = s.sv m := sv_of_svs (setMotion_moves.parts 15 rfl) m

/-! ### Retracts and FAULT (R195, R192) -/

theorem servoKept_abandonTarget {l : List Nat} : ServoKept l s (abandonTarget n s) := abandonTarget_moves.servo rfl

/-- An engine whose state is one of those in which the heads may fly. -/
abbrev Flies (s : State) (n : Lane) : Prop := motionState s n ∉ [Mo.off, Mo.parked, Mo.retract, Mo.fault]

/-- What an emergency retract of a flying engine leaves of the engine (R195). -/
def retracted (v : Sv) : Sv :=
  { v with plan := none, restartDue := false, unloadDue := false, uldEnded := false, attempt := 0, again := false, offRetract := false }

theorem svRetract_flies (flies : Flies s n) : svRetract n s =
    ((retractSleep n (setMotion n Mo.retract (abandonTarget n s))).tally
      (16 + actOf s n)).onSv n retracted := by
  obtain ⟨off, parked, retract, fault⟩ : motionState s n ≠ Mo.off ∧ motionState s n ≠ Mo.parked ∧ motionState s n ≠ Mo.retract ∧
      motionState s n ≠ Mo.fault := by simpa [Flies] using flies
  have quiet : motionQuiet s n = false := by simp [motionQuiet, off, parked, fault]
  rw [svRetract, if_neg (by rw [quiet]; exact Bool.false_ne_true), if_neg retract]
  rfl

/-- A flying engine that retracts is in RETRACT, its plan dropped; it shows the faults that it showed, and its registers stand but for STATE and
WR_UNSAFE. -/
theorem svRetract_spec (flies : Flies s n) :
    motionState (svRetract n s) n = Mo.retract ∧
      (svRetract n s).sv n = retracted (s.sv n) ∧
      (svRetract n s).get (F.SVn_STAT_SYNC_LOCK n) = s.get (F.SVn_STAT_SYNC_LOCK n) ∧
      (∀ j, j ≠ 4 → (svRetract n s).get ((F.SVn_FLT_STAT_FLT n).bit j) = s.get ((F.SVn_FLT_STAT_FLT n).bit j)) ∧
      ServoKept [R.SVn_STAT n, R.SVn_FLT_STAT n] s (svRetract n s) := by
  have own := servoBlock_engine n
  have told (t : State) : ServoKept [] t (((retractSleep n t).tally (16 + actOf s n)).onSv n retracted) :=
    ((retractSleep_moves.servo rfl).trans servoKept_tally).trans (onSv_moves.servo rfl)
  have before (t : State) : ServoKept [] t (abandonTarget n t) := servoKept_abandonTarget
  have svs (t : State) : ((retractSleep n t).tally (16 + actOf s n)).sv n = t.sv n :=
    sv_of_svs ((tally_moves.on (retractSleep_moves.wide (m := 0x2B01) rfl) rfl).parts 15 rfl) n
  have stat : servoBlock (R.SVn_STAT n) = true := own _ (by simp)
  have flt : servoBlock (R.SVn_FLT_STAT n) = true := own _ (by simp)
  rw [svRetract_flies flies]
  refine ⟨?_, ?_, ?_, fun j hj => ?_, ?_⟩
  · exact ((told _).get (f := F.SVn_STAT_STATE n) stat (by simp)).trans (motionState_setMotion (by decide))
  · rw [sv_onSv_same, svs, sv_setMotion]
    exact congrArg retracted (sv_of_svs (abandonTarget_moves.parts 15 rfl) n)
  · rw [(told _).get (f := F.SVn_STAT_SYNC_LOCK n) stat (by simp), get_setMotion_syncLock, (before s).get (f := F.SVn_STAT_SYNC_LOCK n) stat (by simp)]
  · rw [(told _).get (f := (F.SVn_FLT_STAT_FLT n).bit j) flt (by simp), get_setMotion_fault hj,
      (before s).get (f := (F.SVn_FLT_STAT_FLT n).bit j) flt (by simp)]
  · exact (servoKept_abandonTarget.trans servoKept_setMotion).trans ((told _).mono (List.nil_subset _))

/-- An engine put in FAULT (R192): the registers of SVn and MOT stand but for its STATE and WR_UNSAFE. -/
theorem motionState_svFault : motionState (svFault n s) n = Mo.fault := by
  rw [svFault, motionState, get_onSv]
  exact motionState_setMotion (by decide)

theorem servoKept_svFault : ServoKept [R.SVn_STAT n, R.SVn_FLT_STAT n] s (svFault n s) :=
  (servoKept_abandonTarget.trans servoKept_setMotion).trans (onSv_moves.servo rfl)

/-! ### Coasted wedges (R159) -/

/-- What a coasted wedge leaves of its engine. -/
def coasted (v : Sv) : Sv := { v with sampled := false, interval := none, acqCount := 0, settleCount := 0 }

/-- A coasted wedge keeps the misses in a row and the plan. -/
theorem coasted_keeps (v : Sv) : (coasted v).miss = v.miss ∧ (coasted v).plan = v.plan := ⟨rfl, rfl⟩

theorem coastWedge_eq (estTrack : Nat) :
    coastWedge n estTrack s = writeUnsafe n (((s.put (F.SVn_PES_COAST n) 1).put (F.SVn_TRACK_TRACK n) estTrack).onSv n coasted) := rfl

/-- A coasted wedge shows COAST and the predicted track, and leaves every servo fault but WR_UNSAFE. -/
theorem coastWedge_spec (estTrack : Nat) :
    (coastWedge n estTrack s).get (F.SVn_PES_COAST n) = 1 ∧
      (coastWedge n estTrack s).get (F.SVn_TRACK_TRACK n) = estTrack % 2 ^ (F.SVn_TRACK_TRACK n).width ∧
      (coastWedge n estTrack s).sv n = coasted (s.sv n) ∧
      (∀ j, j ≠ 4 → (coastWedge n estTrack s).get ((F.SVn_FLT_STAT_FLT n).bit j) = s.get ((F.SVn_FLT_STAT_FLT n).bit j)) ∧
      ServoKept [R.SVn_PES n, R.SVn_TRACK n, R.SVn_FLT_STAT n] s (coastWedge n estTrack s) := by
  have own := servoBlock_engine n
  obtain ⟨pesTrack, pesFlt, trackFlt⟩ : R.SVn_PES n ∉ [R.SVn_TRACK n] ∧ R.SVn_PES n ∉ [R.SVn_FLT_STAT n] ∧ R.SVn_TRACK n ∉ [R.SVn_FLT_STAT n] := by
    simp [R.SVn_PES, R.SVn_TRACK, R.SVn_FLT_STAT]
  have fltApart : R.SVn_FLT_STAT n ∉ [R.SVn_PES n, R.SVn_TRACK n] := by simp [R.SVn_PES, R.SVn_TRACK, R.SVn_FLT_STAT]
  have pes : servoBlock (R.SVn_PES n) = true := own _ (by simp)
  have track : servoBlock (R.SVn_TRACK n) = true := own _ (by simp)
  have shown (t : State) : regsKept [R.SVn_PES n] t (t.put (F.SVn_PES_COAST n) 1) := regsKept_put (f := F.SVn_PES_COAST n) List.mem_cons_self 1
  have tracked (t : State) : regsKept [R.SVn_TRACK n] t (t.put (F.SVn_TRACK_TRACK n) estTrack) :=
    regsKept_put (f := F.SVn_TRACK_TRACK n) List.mem_cons_self estTrack
  have both : regsKept [R.SVn_PES n, R.SVn_TRACK n] s ((s.put (F.SVn_PES_COAST n) 1).put (F.SVn_TRACK_TRACK n) estTrack) :=
    ((shown s).mono (by simp)).trans ((tracked _).mono (by simp))
  have inhibited (t : State) : ServoKept [R.SVn_FLT_STAT n] t (writeUnsafe n (t.onSv n coasted)) := (onSv_moves.servo rfl).trans servoKept_writeUnsafe
  rw [coastWedge_eq]
  refine ⟨?_, ?_, ?_, fun j hj => ?_, ?_⟩
  · rw [(inhibited _).get (f := F.SVn_PES_COAST n) pes pesFlt, (tracked _).get (f := F.SVn_PES_COAST n) pesTrack, get_put_same (of_decide_eq_true rfl)]
    rfl
  · rw [(inhibited _).get (f := F.SVn_TRACK_TRACK n) track trackFlt, get_put_same (of_decide_eq_true rfl)]
  · rw [sv_writeUnsafe, sv_onSv_same, sv_of_svs ((put_moves.step put_moves).parts 15 rfl)]
  · rw [get_writeUnsafe_fault hj, get_onSv, both.get (f := (F.SVn_FLT_STAT_FLT n).bit j) fltApart]
  · exact (both.servoKept.mono (by simp)).trans ((inhibited _).mono (by simp))

end

end Sys2Proof.Machine

end

section

/-! PROOF. The motion link (R171 to R175, R200): frames sent and received, their gaps, and the loss of the link. -/

namespace Sys2Proof.Machine

/-! ### Frames sent (R171 to R173) -/

/-- While MOT_CTL.ENABLE is 1 a frame leaves behind those still on their way. -/
theorem sendMotion_enabled {s : State} (enabled : s.on F.MOT_CTL_ENABLE = true) (beats type ch payload : Nat) :
    (sendMotion type ch payload (beatsPass beats s)).sent =
        s.sent ++ [.motion (motionFrame type ch (min 39 ((s.mot.ahead - 4 * beats + 3) / 4)) payload)] ∧
      (sendMotion type ch payload (beatsPass beats s)).mot = { s.mot with ahead := 4 * min 39 ((s.mot.ahead - 4 * beats + 3) / 4) + 16 } ∧
      (sendMotion type ch payload (beatsPass beats s)).regs = s.regs ∧
      onlyParts [.mot, .sent] s (sendMotion type ch payload (beatsPass beats s)) := by
  have moved : Moves 0x8020000 s (sendMotion type ch payload (beatsPass beats s)) := sendMotion_moves.on (beatsPass_moves.wide rfl) rfl
  have sends : sendMotion type ch payload (beatsPass beats s) = _ := if_pos enabled
  exact ⟨congrArg State.sent sends, congrArg State.mot sends, moved.parts 0 rfl, moved.frame (by decide)⟩

theorem on_beatsPass (k : Nat) (s : State) (f : Fld) : (beatsPass k s).on f = s.on f := rfl

theorem exec_nopFrame (s : State) : exec .nopFrame s = .next (sendMotion 0 0 0 (beatsPass 500 s)) := rfl

theorem sendMotion_disabled {s : State} (disabled : s.on F.MOT_CTL_ENABLE = false) (type ch payload : Nat) : sendMotion type ch payload s = s :=
  if_neg (ne_true_of_eq_false disabled)

/-! ### Frames received (R174) -/

theorem frameField_lt (f : BitVec 64) (hi lo : Nat) : frameField f hi lo < 2 ^ (hi + 1 - lo) := Nat.mod_lt _ (Nat.two_pow_pos _)

/-- A flag of one bit that is not zero. -/
theorem get_of_on {s : State} {f : Fld} (one : f.width = 1) (on_ : s.on f = true) : s.get f = 1 := by
  have small : s.get f < 2 ^ 1 := one ▸ rget_lt s.regs f
  have set : s.get f ≠ 0 := bne_iff_ne.mp on_
  omega

/-- The link is up after a valid frame; where it was down the floating voltages kept begin anew. -/
def linkHeard (s : State) : State :=
  if s.on F.MOT_STAT_LINK_UP then s else { s.put F.MOT_STAT_LINK_UP 1 with spm := { s.spm with volts := [] } }

/-- A valid frame received: the link up, and the frame in the status FIFO. -/
def received (f : BitVec 64) (s : State) : State := { linkHeard s with mot := { s.mot with status := (f :: s.mot.status).take 32 } }

theorem linkHeard_up {s : State} (up : s.on F.MOT_STAT_LINK_UP = true) : linkHeard s = s := if_pos up

theorem received_up {f : BitVec 64} {s : State} (up : s.on F.MOT_STAT_LINK_UP = true) :
    received f s = { s with mot := { s.mot with status := (f :: s.mot.status).take 32 } } := by rw [received, linkHeard_up up]

theorem mot_received (f : BitVec 64) (s : State) : (received f s).mot = { s.mot with status := (f :: s.mot.status).take 32 } := rfl

theorem regs_received_up {f : BitVec 64} {s : State} (up : s.on F.MOT_STAT_LINK_UP = true) : (received f s).regs = s.regs := by rw [received_up up]

theorem spm_received_up {f : BitVec 64} {s : State} (up : s.on F.MOT_STAT_LINK_UP = true) : (received f s).spm = s.spm := by rw [received_up up]

theorem linkHeard_moves (s : State) : Moves 0x40001 s (linkHeard s) := by
  unfold linkHeard
  split
  · exact .refl
  · exact mk_spm.on (put_moves.wide (m := 0x40001) rfl) rfl

theorem received_moves (f : BitVec 64) (s : State) : Moves 0x60001 s (received f s) :=
  mk_mot.on ((linkHeard_moves s).wide (m := 0x60001) rfl) rfl

theorem regsKept_received (f : BitVec 64) (s : State) : regsKept [R.MOT_STAT] s (received f s) := by
  have heard : regsKept [R.MOT_STAT] s (linkHeard s) := by
    unfold linkHeard
    split
    · exact .of_regs rfl
    · exact regsKept_put (f := F.MOT_STAT_LINK_UP) List.mem_cons_self 1
  exact heard.trans (.of_regs rfl)

theorem get_received_linkUp (f : BitVec 64) (s : State) : (received f s).get F.MOT_STAT_LINK_UP = 1 := by
  show (linkHeard s).get F.MOT_STAT_LINK_UP = 1
  unfold linkHeard
  split
  next up => exact get_of_on rfl up
  next => exact get_put_same (f := F.MOT_STAT_LINK_UP) (of_decide_eq_true rfl) 1

theorem inbound_bad {type : Nat} {f : BitVec 64} {eff : State → State} {s : State} (bad : frameField f 63 56 ≠ motionCheck (frameField f 55 0)) :
    inbound type f eff s = s.count F.MOT_CNT_RX_CRC := if_pos bad

/-- A valid frame is received, and one of the row's type acts. -/
theorem inbound_valid {type : Nat} {f : BitVec 64} {eff : State → State} {s : State} (valid : frameField f 63 56 = motionCheck (frameField f 55 0)) :
    inbound type f eff s = if frameField f 11 8 = type then eff (received f s) else received f s := by
  have mot : (linkHeard s).mot = s.mot := (linkHeard_moves s).parts 17 rfl
  rw [inbound, if_neg (not_not.mpr valid), received, ← mot]
  rfl

/-! ### CURRENT frames (R172) -/

theorem laneOfChannel_congr {s t : State} (h : t.cfg = s.cfg) (ch : Nat) : laneOfChannel t ch = laneOfChannel s ch := by
  simp only [laneOfChannel, laneIncluded, channelOf, laneRec, h]

/-- The measured current of a CURRENT frame, given to the engine of its channel. -/
def measure (f : BitVec 64) (s : State) : State :=
  match laneOfChannel s (frameField f 13 12) with
  | some n => s.onSv n (fun v => { v with measured := signed 20 (frameField f 39 20) })
  | none => s

theorem exec_currentFrame (f : BitVec 64) (s : State) : exec (.currentFrame f) s = .next (inbound 8 f (measure f) s) := rfl

theorem measure_moves (f : BitVec 64) (s : State) : Moves 0x8000 s (measure f s) := by
  unfold measure
  split
  · exact onSv_moves
  · exact .refl

theorem sv_measure_channel {f : BitVec 64} {s : State} {n : Lane} (lane : laneOfChannel s (frameField f 13 12) = some n) :
    (measure f s).sv n = { s.sv n with measured := signed 20 (frameField f 39 20) } := by
  simp only [measure, lane]
  exact sv_onSv_same ..

theorem sv_measure_other {f : BitVec 64} {s : State} {m : Lane} (lane : laneOfChannel s (frameField f 13 12) ≠ some m) :
    (measure f s).sv m = s.sv m := by
  unfold measure
  split
  next n at_ => exact sv_onSv_other (fun e => lane (at_.trans (congrArg some e.symm))) ..
  next => rfl

/-- A CURRENT frame that passes CHECK. -/
theorem currentFrame_valid {f : BitVec 64} {s : State} (valid : frameField f 63 56 = motionCheck (frameField f 55 0)) (type : frameField f 11 8 = 8) :
    ∃ t : State, exec (.currentFrame f) s = .next t ∧
      t.get F.MOT_STAT_LINK_UP = 1 ∧
      (∀ n, laneOfChannel s (frameField f 13 12) = some n → t.sv n = { s.sv n with measured := signed 20 (frameField f 39 20) }) ∧
      (∀ m, laneOfChannel s (frameField f 13 12) ≠ some m → t.sv m = s.sv m) ∧
      t.mot = { s.mot with status := (f :: s.mot.status).take 32 } ∧
      (s.on F.MOT_STAT_LINK_UP = true → t.regs = s.regs ∧ t.spm = s.spm) ∧
      regsKept [R.MOT_STAT] s t ∧
      onlyParts [.regs, .mot, .svs, .spm] s t := by
  have moved := measure_moves f (received f s)
  have regs : (measure f (received f s)).regs = (received f s).regs := moved.parts 0 rfl
  have sv (n : Lane) : (received f s).sv n = s.sv n := sv_of_svs ((received_moves f s).parts 15 rfl) n
  have channel := laneOfChannel_congr ((received_moves f s).parts 5 rfl) (frameField f 13 12)
  refine ⟨_, by rw [exec_currentFrame, inbound_valid valid, if_pos type], ?_, fun n lane => ?_, fun m lane => ?_, moved.parts 17 rfl, fun up => ?_,
    (regsKept_received f s).trans (.of_regs regs), (moved.on ((received_moves f s).wide (m := 0x68001) rfl) rfl).frame (by decide)⟩
  · rw [get_eq, regs, ← get_eq]
    exact get_received_linkUp f s
  · rw [sv_measure_channel (channel.trans lane), sv]
  · rw [sv_measure_other (channel.trans_ne lane), sv]
  · have spm : (measure f (received f s)).spm = (received f s).spm := moved.parts 18 rfl
    exact ⟨regs.trans (regs_received_up up), spm.trans (spm_received_up up)⟩

/-! ### BEMF frames (R200, R204, R206, R210) -/

/-- The fields of a BEMF frame shown in MOT_SPN_BEMF. -/
def bemfShown (f : BitVec 64) (s : State) : State :=
  (((((s.put F.MOT_SPN_BEMF_FLOAT (frameField f 21 20)).put F.MOT_SPN_BEMF_ZC (frameField f 22 22)).put F.MOT_SPN_BEMF_ZC_RISE
    (frameField f 23 23)).put F.MOT_SPN_BEMF_V_FLOAT (frameField f 42 32)).put F.MOT_SPN_BEMF_PULSE_END (frameField f 43 43)).put
    F.MOT_SPN_BEMF_I_MEAS (frameField f 55 44)

theorem bemfShown_fields (f : BitVec 64) (s : State) :
    (bemfShown f s).get F.MOT_SPN_BEMF_V_FLOAT = frameField f 42 32 ∧
      (bemfShown f s).get F.MOT_SPN_BEMF_FLOAT = frameField f 21 20 ∧
      (bemfShown f s).get F.MOT_SPN_BEMF_ZC = frameField f 22 22 ∧
      (bemfShown f s).get F.MOT_SPN_BEMF_ZC_RISE = frameField f 23 23 ∧
      (bemfShown f s).get F.MOT_SPN_BEMF_PULSE_END = frameField f 43 43 ∧
      (bemfShown f s).get F.MOT_SPN_BEMF_I_MEAS = frameField f 55 44 := by
  have shown {g : Fld} {hi lo : Nat} (width : g.width = hi + 1 - lo) (fits : g.lo + g.width ≤ 32) (t : State) :
      (t.put g (frameField f hi lo)).get g = frameField f hi lo := by
    rw [get_put_same fits, width, Nat.mod_eq_of_lt (frameField_lt f hi lo)]
  simp (disch := decide) only [bemfShown, get_put_apart, shown, and_self]

theorem regsKept_bemfShown (f : BitVec 64) (s : State) : regsKept [R.MOT_SPN_BEMF] s (bemfShown f s) := by
  have put {t : State} {g : Fld} (h : g.addr = R.MOT_SPN_BEMF) (v : Nat) : regsKept [R.MOT_SPN_BEMF] t (t.put g v) :=
    regsKept_put (h ▸ List.mem_cons_self) v
  exact (((((put rfl _).trans (put rfl _)).trans (put rfl _)).trans (put rfl _)).trans (put rfl _)).trans (put rfl _)

theorem bemfShown_moves (f : BitVec 64) (s : State) : Moves 0x1 s (bemfShown f s) :=
  put_moves.step (put_moves.step (put_moves.step (put_moves.step (put_moves.step put_moves))))

/-- The floating voltage of a BEMF frame kept with those before it. -/
def voltKept (f : BitVec 64) (s : State) : State :=
  s.onSpm (fun m => { m with volts := (16 * (signed 11 (frameField f 42 32)).natAbs :: m.volts).take 2000 })

theorem get_onSpm (s : State) (f : Spm → Spm) (g : Fld) : (s.onSpm f).get g = s.get g := rfl

/-- A BEMF frame without a zero crossing, outside KE_CHECK and but for the end of a SENSE pulse, shows its fields and keeps its voltage. -/
theorem bemf_plain {f : BitVec 64} {at_ : Nat} {s : State} (valid : frameField f 63 56 = motionCheck (frameField f 55 0)) (type : frameField f 11 8 = 9)
    (noCrossing : frameField f 22 22 = 0) (keCheck : spinState s ≠ Sp.keCheck)
    (sense : spinState s ≠ Sp.sense ∨ frameField f 43 43 = 0) :
    exec (.bemfFrame f at_) s = .next (voltKept f (bemfShown f (received f s))) := by
  have spin : spinState (voltKept f (bemfShown f (received f s))) = spinState s := by
    rw [spinState, voltKept, get_onSpm, (regsKept_bemfShown f _).get (by decide), (regsKept_received f s).get (by decide), spinState]
  have noSense : ¬ (frameField f 43 43 = 1 ∧ spinState s = Sp.sense) := fun ⟨ended, at_⟩ => sense.elim (· at_) (by omega)
  have noZc : ¬ frameField f 22 22 = 1 := by omega
  show Host.Outcome.next (inbound 9 f _ s) = _
  rw [inbound_valid valid, if_pos type]
  simp only [voltKept, bemfShown] at spin ⊢
  simp only [spin, keCheck, noSense, noZc, if_false]

theorem spm_voltKept (f : BitVec 64) (s : State) :
    (voltKept f s).spm = { s.spm with volts := (16 * (signed 11 (frameField f 42 32)).natAbs :: s.spm.volts).take 2000 } := rfl

theorem bemfFrame_plain {f : BitVec 64} {at_ : Nat} {s : State} (valid : frameField f 63 56 = motionCheck (frameField f 55 0))
    (type : frameField f 11 8 = 9) (noCrossing : frameField f 22 22 = 0) (up : s.on F.MOT_STAT_LINK_UP = true)
    (keCheck : spinState s ≠ Sp.keCheck) (sense : spinState s ≠ Sp.sense ∨ frameField f 43 43 = 0) :
    ∃ t : State, exec (.bemfFrame f at_) s = .next t ∧
      t.get F.MOT_SPN_BEMF_V_FLOAT = frameField f 42 32 ∧
      t.get F.MOT_SPN_BEMF_FLOAT = frameField f 21 20 ∧
      t.get F.MOT_SPN_BEMF_ZC = 0 ∧
      t.get F.MOT_SPN_BEMF_ZC_RISE = frameField f 23 23 ∧
      t.get F.MOT_SPN_BEMF_PULSE_END = frameField f 43 43 ∧
      t.get F.MOT_SPN_BEMF_I_MEAS = frameField f 55 44 ∧
      t.spm = { s.spm with volts := ((16 * (signed 11 (frameField f 42 32)).natAbs) :: s.spm.volts).take 2000 } ∧
      t.mot = { s.mot with status := (f :: s.mot.status).take 32 } ∧
      regsKept [R.MOT_SPN_BEMF] s t ∧
      onlyParts [.regs, .mot, .spm] s t := by
  have shown := bemfShown_moves f (received f s)
  have kept : Moves 0x40000 (bemfShown f (received f s)) (voltKept f (bemfShown f (received f s))) := onSpm_moves
  have whole : Moves 0x60001 s (voltKept f (bemfShown f (received f s))) := kept.on (shown.on (received_moves f s) rfl) rfl
  obtain ⟨volt, float, zc, rise, ended, current⟩ := bemfShown_fields f (received f s)
  have spmShown : (bemfShown f (received f s)).spm = (received f s).spm := shown.parts 18 rfl
  have motShown : (bemfShown f (received f s)).mot = (received f s).mot := shown.parts 17 rfl
  have motVolt : (voltKept f (bemfShown f (received f s))).mot = (bemfShown f (received f s)).mot := kept.parts 17 rfl
  refine ⟨_, bemf_plain valid type noCrossing keCheck sense, ?_, ?_, ?_, ?_, ?_, ?_, ?_, ?_, ?_, whole.frame (by decide)⟩
  · exact (get_onSpm ..).trans volt
  · exact (get_onSpm ..).trans float
  · exact (get_onSpm ..).trans (zc.trans noCrossing)
  · exact (get_onSpm ..).trans rise
  · exact (get_onSpm ..).trans ended
  · exact (get_onSpm ..).trans current
  · rw [spm_voltKept, spmShown, spm_received_up up]
  · exact (motVolt.trans motShown).trans (mot_received f s)
  · exact ((regsKept.of_regs (regs_received_up up)).trans (regsKept_bemfShown f _)).trans (.of_regs (kept.parts 0 rfl))

/-! ### STATUS frames (R175) -/

/-- The four fields that a STATUS frame shows. -/
def statusShown (f : BitVec 64) (s : State) : State :=
  (((s.put F.MOT_STAT_SHOCK (frameField f 23 20)).put F.MOT_STAT_SUPPLY_LOW (frameField f 27 24)).put F.MOT_STAT_OVERTEMP
    (frameField f 28 28)).put F.MOT_STAT_RETRACTING (frameField f 32 29)

theorem statusShown_fields (f : BitVec 64) (s : State) :
    (statusShown f s).get F.MOT_STAT_SHOCK = frameField f 23 20 ∧
      (statusShown f s).get F.MOT_STAT_SUPPLY_LOW = frameField f 27 24 ∧
      (statusShown f s).get F.MOT_STAT_OVERTEMP = frameField f 28 28 ∧
      (statusShown f s).get F.MOT_STAT_RETRACTING = frameField f 32 29 := by
  have shown {g : Fld} {hi lo : Nat} (width : g.width = hi + 1 - lo) (fits : g.lo + g.width ≤ 32) (t : State) :
      (t.put g (frameField f hi lo)).get g = frameField f hi lo := by
    rw [get_put_same fits, width, Nat.mod_eq_of_lt (frameField_lt f hi lo)]
  simp (disch := decide) only [statusShown, get_put_apart, shown, and_self]

theorem regsKept_statusShown (f : BitVec 64) (s : State) : regsKept [R.MOT_STAT] s (statusShown f s) := by
  have put {t : State} {g : Fld} (h : g.addr = R.MOT_STAT) (v : Nat) : regsKept [R.MOT_STAT] t (t.put g v) :=
    regsKept_put (h ▸ List.mem_cons_self) v
  exact (((put rfl _).trans (put rfl _)).trans (put rfl _)).trans (put rfl _)

theorem statusShown_moves (f : BitVec 64) (s : State) : Moves 0x1 s (statusShown f s) :=
  put_moves.step (put_moves.step (put_moves.step put_moves))

/-- Every update of a list changes nothing. -/
theorem forEach_same {α : Type} {as : List α} {f : α → State → State} (h : ∀ a t, f a t = t) (s : State) : forEach as f s = s := by
  induction as with
  | nil => rfl
  | cons a as ih => exact (congrArg (forEach as f) (h a s)).trans ih

/-- A STATUS frame without a flag shows them clear, and does no more. -/
theorem statusFlags_clear {f : BitVec 64} {s : State} (shock : frameField f 23 20 = 0) (supply : frameField f 27 24 = 0)
    (overtemp : frameField f 28 28 = 0) : statusFlags f s = statusShown f s := by
  have quiet : ¬ frameField f 28 28 = 1 := by omega
  unfold statusFlags
  simp only [shock, supply, Nat.zero_testBit, Bool.false_eq_true, if_false, quiet, Bool.not_false, Bool.or_true, if_true, forEach_same, implies_true]
  rw [statusShown, shock, supply]

/-- The servo and motion-link registers that a STATUS frame may write. -/
def statusRegs : List Nat := [R.MOT_STAT, R.MOT_FLAGS, R.SVn_FLT_STAT 0, R.SVn_FLT_STAT 1, R.SVn_FLT_STAT 2, R.SVn_FLT_STAT 3]

theorem faultStat_mem (n : Lane) : R.SVn_FLT_STAT n ∈ statusRegs := by
  revert n
  decide

theorem servoKept_statusFlags (f : BitVec 64) (s : State) : ServoKept statusRegs s (statusFlags f s) := by
  have flagged {t : State} {g : Fld} (h : g.addr = R.MOT_FLAGS) {c : Prop} [Decidable c] : ServoKept statusRegs t (if c then t.flag g else t) :=
    .ite ((regsKept_flag t g).servoKept.mono (by simp [h, statusRegs])) .refl
  have shown : ServoKept statusRegs s (statusShown f s) := (regsKept_statusShown f s).servoKept.mono (by simp [statusRegs])
  have faulted (n : Lane) {t : State} : ServoKept statusRegs t (inhibitWrites n (servoFault n 5 t)) :=
    (servoKept_servoFault.mono (by simpa using faultStat_mem n)).trans servoKept_inhibitWrites
  refine .trans (.trans (shown.trans ?_) (flagged rfl)) (.forEach (fun n t => .ite .refl (.trans (.ite .refl servoKept_tally) (faulted n))))
  exact .forEach (fun k t => .trans (flagged rfl) (flagged rfl))

/-- What a STATUS frame does: its flags, and a power failure where a low supply is one (R175). -/
theorem exec_statusFrame {f : BitVec 64} {s : State} (valid : frameField f 63 56 = motionCheck (frameField f 55 0)) (type : frameField f 11 8 = 10) :
    exec (.statusFrame f) s = .next (if frameField f 27 24 ≠ 0 ∧ (statusFlags f (received f s)).on F.MOT_CTL_SUPPLY_PF = true then
      powerFail 4 .made (statusFlags f (received f s)) else statusFlags f (received f s)) := by
  show Host.Outcome.next (inbound 10 f _ s) = _
  rw [inbound_valid valid, if_pos type]

/-- SUPPLY_PF is software's: neither a frame received nor its flags write it. -/
theorem on_supplyPf (f : BitVec 64) (s : State) : (statusFlags f (received f s)).on F.MOT_CTL_SUPPLY_PF = s.on F.MOT_CTL_SUPPLY_PF := by
  have kept : (statusFlags f (received f s)).get F.MOT_CTL_SUPPLY_PF = s.get F.MOT_CTL_SUPPLY_PF :=
    ((servoKept_statusFlags f _).get (f := F.MOT_CTL_SUPPLY_PF) (by decide +kernel) (by decide)).trans ((regsKept_received f s).get (by decide))
  rw [State.on, kept, State.on]

theorem statusFrame_clear {f : BitVec 64} {s : State} (valid : frameField f 63 56 = motionCheck (frameField f 55 0)) (type : frameField f 11 8 = 10)
    (supply : frameField f 27 24 = 0) (shock : frameField f 23 20 = 0) (overtemp : frameField f 28 28 = 0) (up : s.on F.MOT_STAT_LINK_UP = true) :
    ∃ t : State, exec (.statusFrame f) s = .next t ∧
      t.get F.MOT_STAT_SHOCK = 0 ∧
      t.get F.MOT_STAT_SUPPLY_LOW = 0 ∧
      t.get F.MOT_STAT_OVERTEMP = 0 ∧
      t.get F.MOT_STAT_RETRACTING = frameField f 32 29 ∧
      t.mot = { s.mot with status := (f :: s.mot.status).take 32 } ∧
      regsKept [R.MOT_STAT] s t ∧
      onlyParts [.regs, .mot] s t := by
  have shown := statusShown_moves f (received f s)
  have motShown : (statusShown f (received f s)).mot = (received f s).mot := shown.parts 17 rfl
  have heard : Moves 0x20001 s (received f s) := by
    rw [received_up up]
    exact mk_mot.wide rfl
  obtain ⟨shockShown, supplyShown, overtempShown, retracting⟩ := statusShown_fields f (received f s)
  refine ⟨statusShown f (received f s), ?_, shockShown.trans shock, supplyShown.trans supply, overtempShown.trans overtemp, retracting,
    motShown.trans (mot_received f s), (regsKept.of_regs (regs_received_up up)).trans (regsKept_statusShown f _), (shown.on heard rfl).frame (by decide)⟩
  rw [exec_statusFrame valid type, if_neg (fun low => low.1 supply), statusFlags_clear shock supply overtemp]

/-! ### The loss of the link (R174, R177) -/

/-- The status and fault registers of the engines. -/
def engineStats : List Nat :=
  [R.SVn_STAT 0, R.SVn_FLT_STAT 0, R.SVn_STAT 1, R.SVn_FLT_STAT 1, R.SVn_STAT 2, R.SVn_FLT_STAT 2, R.SVn_STAT 3, R.SVn_FLT_STAT 3]

theorem engineStat_mem (n : Lane) : [R.SVn_STAT n, R.SVn_FLT_STAT n] ⊆ engineStats := by
  revert n
  decide

theorem mem_lanes (n : Lane) : n ∈ lanes := by
  revert n
  decide

/-- LINK_DOWN of an included engine (R177 bit 8): FAULT. -/
def linkDown (n : Lane) (s : State) : State := if laneIncluded s n then svFault n (servoFault n 8 s) else s

theorem servoKept_linkDown (n : Lane) (s : State) : ServoKept [R.SVn_STAT n, R.SVn_FLT_STAT n] s (linkDown n s) :=
  .ite ((servoKept_servoFault.mono (List.subset_cons_self ..)).trans servoKept_svFault) .refl

theorem linkDown_moves (n : Lane) (s : State) : Moves 0x1C08EB01 s (linkDown n s) := by
  unfold linkDown
  split
  · exact svFault_moves.on (servoFault_moves.wide (m := 0x1C08EB01) rfl) rfl
  · exact .refl

theorem motionState_linkDown_same {n : Lane} {s : State} (included : laneIncluded s n = true) : motionState (linkDown n s) n = Mo.fault := by
  rw [linkDown, if_pos included, motionState_svFault]

theorem motionState_linkDown_other {n m : Lane} (h : m ≠ n) (s : State) : motionState (linkDown n s) m = motionState s m :=
  (servoKept_linkDown n s).get (f := F.SVn_STAT_STATE m) (servoBlock_engine m _ (by simp [F.SVn_STAT_STATE])) (engineStat_apart h)

theorem laneIncluded_linkDown (n m : Lane) (s : State) : laneIncluded (linkDown n s) m = laneIncluded s m := by
  have cfg : (linkDown n s).cfg = s.cfg := (linkDown_moves n s).parts 5 rfl
  simp only [laneIncluded, laneRec, cfg]

/-- An included engine in FAULT stays there. -/
theorem forEach_linkDown_stays {n : Lane} (as : List Lane) {s : State} (included : laneIncluded s n = true) (fault : motionState s n = Mo.fault) :
    motionState (forEach as linkDown s) n = Mo.fault := by
  induction as generalizing s with
  | nil => exact fault
  | cons a as ih =>
    refine ih ((laneIncluded_linkDown ..).trans included) ?_
    by_cases h : n = a
    · exact h ▸ motionState_linkDown_same included
    · exact (motionState_linkDown_other h s).trans fault

/-- The link's loss puts every included engine of a list in FAULT. -/
theorem forEach_linkDown_fault {n : Lane} {as : List Lane} (mem : n ∈ as) {s : State} (included : laneIncluded s n = true) :
    motionState (forEach as linkDown s) n = Mo.fault := by
  induction as generalizing s with
  | nil => cases mem
  | cons a as ih =>
    have still := (laneIncluded_linkDown a n s).trans included
    rcases List.mem_cons.mp mem with rfl | later
    · exact forEach_linkDown_stays as still (motionState_linkDown_same included)
    · exact ih later still

theorem exec_motionLinkLost_down {s : State} (down : s.on F.MOT_STAT_LINK_UP = false) : exec .motionLinkLost s = .next s :=
  if_pos (by rw [down]; rfl)

/-- The loss of a link that is up. -/
theorem motionLinkLost_up {s : State} (up : s.on F.MOT_STAT_LINK_UP = true) :
    ∃ u : State, exec .motionLinkLost s = .next (u.loseUnit1 7).settle ∧
      u.get F.MOT_STAT_LINK_UP = 0 ∧
      u.get F.MOT_FLAGS_LINK_LOST = 1 ∧
      (∀ n : Lane, laneIncluded s n = true → motionState u n = Mo.fault) ∧
      onlyParts [.regs, .evr, .tly, .ccx, .lns, .mss, .svs, .rly, .reports, .sent, .freeN] s u := by
  have lost : Moves 0x1C08EB01 s ((s.put F.MOT_STAT_LINK_UP 0).flag F.MOT_FLAGS_LINK_LOST) := flag_moves.on (put_moves.wide rfl) rfl
  have kept (t : State) : ServoKept engineStats t (forEach lanes linkDown t) :=
    .forEach (fun n t => (servoKept_linkDown n t).mono (engineStat_mem n))
  have flagged (t : State) : regsKept [R.MOT_FLAGS] t (t.flag F.MOT_FLAGS_LINK_LOST) := regsKept_flag t F.MOT_FLAGS_LINK_LOST
  have cfg : ((s.put F.MOT_STAT_LINK_UP 0).flag F.MOT_FLAGS_LINK_LOST).cfg = s.cfg := lost.parts 5 rfl
  refine ⟨forEach lanes linkDown ((s.put F.MOT_STAT_LINK_UP 0).flag F.MOT_FLAGS_LINK_LOST), ?_, ?_, ?_, fun n included => ?_, ?_⟩
  · exact if_neg (by rw [up]; exact Bool.false_ne_true)
  · rw [(kept _).get (f := F.MOT_STAT_LINK_UP) (by decide +kernel) (by decide), (flagged _).get (by decide), get_put_same (of_decide_eq_true rfl)]
    rfl
  · rw [(kept _).get (f := F.MOT_FLAGS_LINK_LOST) (by decide +kernel) (by decide), get_flag (of_decide_eq_true rfl)]
    rfl
  · refine forEach_linkDown_fault (mem_lanes n) ?_
    rwa [laneIncluded, laneRec, cfg, ← laneRec, ← laneIncluded]
  · exact ((forEach_moves (fun n t => linkDown_moves n t)).step lost).frame (by decide)

/-! ### The motion link -/

/-- Settles O15: a lemma for the frames sent, one for each type of inbound frame, and one for the loss of the link. -/
theorem motionLinkFramesActOnceChecked : Obligations.MotionLinkFramesActOnceChecked := by
  unfold Obligations.MotionLinkFramesActOnceChecked
  refine ⟨?nop, ?noNop, ?bad, ?current, ?bemf, ?clear, ?status, ?others, ?gap, ?lost, ?down⟩
  case nop =>
    intro s enabled
    obtain ⟨sent, mot, -, only⟩ := sendMotion_enabled enabled 500 0 0 0
    exact ⟨_, exec_nopFrame s, sent, mot, only⟩
  case noNop =>
    intro s disabled
    rw [exec_nopFrame, sendMotion_disabled ((on_beatsPass ..).trans disabled), beatsPass]
  case bad =>
    intro f at_ s bad
    have counted {type : Nat} {eff : State → State} : inbound type f eff s = s.count F.MOT_CNT_RX_CRC := inbound_bad bad
    exact ⟨congrArg Host.Outcome.next counted, congrArg Host.Outcome.next counted, congrArg Host.Outcome.next counted⟩
  case current =>
    intro f s valid type
    exact currentFrame_valid valid type
  case bemf =>
    intro f at_ s valid type noCrossing up keCheck sense
    exact bemfFrame_plain valid type noCrossing up keCheck sense
  case clear =>
    intro f s valid type supply shock overtemp up
    exact statusFrame_clear valid type supply shock overtemp up
  case status =>
    intro f s valid type up
    rw [exec_statusFrame valid type, on_supplyPf, received_up up]
  case others =>
    intro f at_ s valid up
    have idle {type : Nat} {eff : State → State} (other : frameField f 11 8 ≠ type) : inbound type f eff s = _ :=
      ((inbound_valid valid).trans (if_neg other)).trans (received_up up)
    exact ⟨fun other => congrArg Host.Outcome.next (idle other), fun other => congrArg Host.Outcome.next (idle other),
      fun other => congrArg Host.Outcome.next (idle other)⟩
  case gap =>
    intro s
    exact ⟨_, rfl, get_count (of_decide_eq_true rfl) 1, regsKept_count s F.MOT_CNT_RX_GAP 1, count_moves.frame (by decide)⟩
  case lost =>
    intro s up
    exact motionLinkLost_up up
  case down =>
    intro s down
    exact exec_motionLinkLost_down down

end Sys2Proof.Machine

end

section

/-! PROOF. The start of a wedge (R157 to R160, R165, R186): the Lap counter, the reference, and the mark found or missed. -/

namespace Sys2Proof.Machine

variable {n : Lane} {s : State}

/-! ### The Lap counter (R160) -/

theorem regsKept_lapAdvance : regsKept [R.SVn_LAP n] s (lapAdvance n s) := by
  have wedge {t : State} {v : Nat} : regsKept [R.SVn_LAP n] t (t.put (F.SVn_LAP_WEDGE n) v) := regsKept_put (f := F.SVn_LAP_WEDGE n) List.mem_cons_self v
  have lap {t : State} {v : Nat} : regsKept [R.SVn_LAP n] t (t.put (F.SVn_LAP_LAP n) v) := regsKept_put (f := F.SVn_LAP_LAP n) List.mem_cons_self v
  unfold lapAdvance
  dsimp only
  split
  · exact (regsKept.of_regs (regs_onSv ..)).trans (wedge.trans lap)
  · exact (regsKept.of_regs (regs_onSv ..)).trans wedge

theorem sv_lapAdvance (m : Lane) : (lapAdvance n s).sv m = (s.onSv n (fun v => { v with wedges := v.wedges + 1 })).sv m := by
  unfold lapAdvance
  dsimp only
  split
  · exact sv_of_svs ((put_moves.step put_moves).parts 15 rfl) m
  · exact sv_of_svs (put_moves.parts 15 rfl) m

/-- The wedge number advances and wraps after 719, which counts a lap. -/
theorem lapAdvance_counts :
    (lapAdvance n s).get (F.SVn_LAP_WEDGE n) =
        (if s.get (F.SVn_LAP_WEDGE n) = 719 then 0 else (s.get (F.SVn_LAP_WEDGE n) + 1) % 2 ^ (F.SVn_LAP_WEDGE n).width) ∧
      (lapAdvance n s).get (F.SVn_LAP_LAP n) =
        (if s.get (F.SVn_LAP_WEDGE n) = 719 then (s.get (F.SVn_LAP_LAP n) + 1) % 2 ^ (F.SVn_LAP_LAP n).width else s.get (F.SVn_LAP_LAP n)) := by
  unfold lapAdvance
  dsimp only
  split
  · rw [get_put_apart (of_decide_eq_true rfl), get_put_same (of_decide_eq_true rfl), get_put_same (of_decide_eq_true rfl), get_onSv]
    exact ⟨rfl, rfl⟩
  · rw [get_put_same (of_decide_eq_true rfl), get_put_apart (of_decide_eq_true rfl), get_onSv]
    exact ⟨rfl, rfl⟩

/-! ### Parameters, sets and the reference (R165, R170, R186) -/

theorem applyParams_none (none_ : (s.sv n).params = []) : applyParams n s = s.onSv n (fun v => { v with headChanged := false }) := by
  rw [applyParams, none_]
  rfl

theorem applySwitch_none (none_ : (s.sv n).switch = none) : applySwitch n s = s := by
  rw [applySwitch, none_]

/-- The plan and the reference advanced by a wedge. -/
def planAdvanced (r : Motion) (dt : Rat) (v : Sv) : Sv :=
  { v with ref := r, plan := v.plan.map (fun p => { p with time := if p.fresh then 0 else p.time + dt, fresh := false }) }

theorem sv_advancePlan (m : Lane) : (advancePlan n s).sv m = (s.onSv n (planAdvanced (refAhead s n) (wedgeMs s n))).sv m :=
  sv_of_svs (put_moves.parts 15 rfl) m

theorem regsKept_advancePlan : regsKept [R.SVn_PACE_POS n] s (advancePlan n s) :=
  (regsKept.of_regs (regs_onSv ..)).trans (regsKept_put (f := F.SVn_PACE_POS_POS n) List.mem_cons_self _)

theorem wedgeMs_congr {t : State} (period : t.get (F.SVn_PERIOD_PERIOD n) = s.get (F.SVn_PERIOD_PERIOD n)) : wedgeMs t n = wedgeMs s n := by
  rw [wedgeMs, wedgeMs, period]

theorem refAhead_congr {t : State} (plan : (t.sv n).plan = (s.sv n).plan) (ref : (t.sv n).ref = (s.sv n).ref)
    (period : t.get (F.SVn_PERIOD_PERIOD n) = s.get (F.SVn_PERIOD_PERIOD n)) : refAhead t n = refAhead s n := by
  simp only [refAhead, plan, ref, wedgeMs_congr period]

/-! ### What every reference brings -/

/-- An engine at the reference of a wedge with no parameter entry and no switch of sets due. -/
def wedgeBegun (r : Motion) (dt : Rat) (settling : Bool) (v : Sv) : Sv :=
  { planAdvanced r dt { v with wedges := v.wedges + 1, headChanged := false } with
    slot := 0, acc := [], sampled := false, settleWedges := if settling then v.settleWedges + 1 else v.settleWedges }

/-- The engine's state once its plan has moved on, before the program's first slot. -/
def wedgeMoved (n : Lane) (s : State) : State := advancePlan n ((lapAdvance n s).onSv n (fun v => { v with headChanged := false }))

theorem wedgeStart_eq (params : (s.sv n).params = []) (switch : (s.sv n).switch = none) :
    wedgeStart n s = ((wedgeMoved n s).onSv n (fun v => { v with
      slot := 0, acc := [], sampled := false,
      settleWedges := if motionState (wedgeMoved n s) n = Mo.settle then v.settleWedges + 1 else v.settleWedges })).onLn n
        (fun l => { l with rdUnsafe := false }) := by
  have lap : (lapAdvance n s).sv n = { s.sv n with wedges := (s.sv n).wedges + 1 } := (sv_lapAdvance n).trans (sv_onSv_same ..)
  have parameters : applyParams n (lapAdvance n s) = (lapAdvance n s).onSv n (fun v => { v with headChanged := false }) :=
    applyParams_none (by rw [lap]; exact params)
  have set : applySwitch n ((lapAdvance n s).onSv n (fun v => { v with headChanged := false })) = _ :=
    applySwitch_none (by rw [sv_onSv_same, lap]; exact switch)
  rw [wedgeStart, parameters, set]
  rfl

theorem regsKept_wedgeMoved : regsKept [R.SVn_LAP n, R.SVn_PACE_POS n] s (wedgeMoved n s) :=
  ((regsKept_lapAdvance.mono (by simp)).trans (.of_regs (regs_onSv ..))).trans (regsKept_advancePlan.mono (by simp))

theorem wedgeRegs_apart (n : Nat) : R.SVn_STAT n ∉ [R.SVn_LAP n, R.SVn_PACE_POS n] ∧ R.SVn_PERIOD n ∉ [R.SVn_LAP n] ∧
    R.SVn_LAP n ∉ [R.SVn_PACE_POS n] ∧ R.SVn_LAP n ∉ [R.SVn_STAT n] ∧ R.SVn_LAP n ∉ [R.SVn_STAT n, R.SVn_FLT_STAT n] := by
  simp [R.SVn_STAT, R.SVn_LAP, R.SVn_PERIOD, R.SVn_PACE_POS, R.SVn_FLT_STAT]

theorem sv_wedgeMoved :
    (wedgeMoved n s).sv n = planAdvanced (refAhead s n) (wedgeMs s n) { s.sv n with wedges := (s.sv n).wedges + 1, headChanged := false } := by
  obtain ⟨-, period, -, -, -⟩ := wedgeRegs_apart n
  have lap : (lapAdvance n s).sv n = { s.sv n with wedges := (s.sv n).wedges + 1 } := (sv_lapAdvance n).trans (sv_onSv_same ..)
  have kept : (lapAdvance n s).get (F.SVn_PERIOD_PERIOD n) = s.get (F.SVn_PERIOD_PERIOD n) := regsKept_lapAdvance.get period
  have ref : refAhead ((lapAdvance n s).onSv n (fun v => { v with headChanged := false })) n = refAhead s n :=
    refAhead_congr (by rw [sv_onSv_same, lap]) (by rw [sv_onSv_same, lap]) kept
  have ms : wedgeMs ((lapAdvance n s).onSv n (fun v => { v with headChanged := false })) n = wedgeMs s n := wedgeMs_congr kept
  rw [wedgeMoved, sv_advancePlan, sv_onSv_same, sv_onSv_same, lap, ref, ms]

theorem sv_wedgeMoved_other {m : Lane} (h : m ≠ n) : (wedgeMoved n s).sv m = s.sv m := by
  rw [wedgeMoved, sv_advancePlan, sv_onSv_other h, sv_onSv_other h, sv_lapAdvance, sv_onSv_other h]

theorem motionState_wedgeMoved : motionState (wedgeMoved n s) n = motionState s n :=
  regsKept_wedgeMoved.get (f := F.SVn_STAT_STATE n) (wedgeRegs_apart n).1

/-- A reference with no parameter entry and no switch of sets due: the Lap counter advances and the plan moves on. -/
theorem wedgeStart_plain (params : (s.sv n).params = []) (switch : (s.sv n).switch = none) :
    (wedgeStart n s).sv n = wedgeBegun (refAhead s n) (wedgeMs s n) (decide (motionState s n = Mo.settle)) (s.sv n) ∧
      (∀ m, m ≠ n → (wedgeStart n s).sv m = s.sv m) ∧
      (wedgeStart n s).get (F.SVn_LAP_WEDGE n) = (lapAdvance n s).get (F.SVn_LAP_WEDGE n) ∧
      (wedgeStart n s).get (F.SVn_LAP_LAP n) = (lapAdvance n s).get (F.SVn_LAP_LAP n) ∧
      regsKept [R.SVn_LAP n, R.SVn_PACE_POS n] s (wedgeStart n s) := by
  obtain ⟨-, -, lapPos, -, -⟩ := wedgeRegs_apart n
  have lane (t : State) (m : Lane) : (t.onLn n (fun l => { l with rdUnsafe := false })).sv m = t.sv m := sv_of_svs (onLn_moves.parts 15 rfl) m
  have lap {f : Fld} (at_ : f.addr = R.SVn_LAP n) : (wedgeMoved n s).get f = (lapAdvance n s).get f :=
    (regsKept_advancePlan.get (at_ ▸ lapPos)).trans (get_onSv ..)
  rw [wedgeStart_eq params switch]
  refine ⟨?_, fun m h => ?_, ?_, ?_, regsKept_wedgeMoved.trans (.of_regs rfl)⟩
  · rw [lane, sv_onSv_same, sv_wedgeMoved, motionState_wedgeMoved]
    simp only [wedgeBegun, decide_eq_true_eq]
    rfl
  · rw [lane, sv_onSv_other h, sv_wedgeMoved_other h]
  · rw [get_onLn, get_onSv, lap rfl]
  · rw [get_onLn, get_onSv, lap rfl]

/-! ### A wedge whose mark is found or missed (R157 to R159) -/

/-- A wedge begun after `f` on its engine, and SYNC_LOCK shown. -/
def wedgeShown (n : Lane) (f : Sv → Sv) (lock : Nat) (s : State) : State := (wedgeStart n (s.onSv n f)).put (F.SVn_STAT_SYNC_LOCK n) lock

theorem wedgeShown_moves (f : Sv → Sv) (lock : Nat) : Moves 0xA001 s (wedgeShown n f lock s) :=
  put_moves.on (wedgeStart_moves.on (onSv_moves.wide (m := 0xA001) rfl) rfl) rfl

/-- What a wedge that begins shows, for an `f` that leaves the plan and the reference. -/
theorem wedgeShown_spec {f : Sv → Sv} {lock : Nat} (bit : lock < 2) (params : (f (s.sv n)).params = []) (switch : (f (s.sv n)).switch = none)
    (plan : (f (s.sv n)).plan = (s.sv n).plan) (ref : (f (s.sv n)).ref = (s.sv n).ref) :
    (wedgeShown n f lock s).sv n = wedgeBegun (refAhead s n) (wedgeMs s n) (decide (motionState s n = Mo.settle)) (f (s.sv n)) ∧
      (∀ m, m ≠ n → (wedgeShown n f lock s).sv m = s.sv m) ∧
      (wedgeShown n f lock s).get (F.SVn_STAT_SYNC_LOCK n) = lock ∧
      motionState (wedgeShown n f lock s) n = motionState s n ∧
      (wedgeShown n f lock s).get (F.SVn_LAP_WEDGE n) =
        (if s.get (F.SVn_LAP_WEDGE n) = 719 then 0 else (s.get (F.SVn_LAP_WEDGE n) + 1) % 2 ^ (F.SVn_LAP_WEDGE n).width) ∧
      (wedgeShown n f lock s).get (F.SVn_LAP_LAP n) =
        (if s.get (F.SVn_LAP_WEDGE n) = 719 then (s.get (F.SVn_LAP_LAP n) + 1) % 2 ^ (F.SVn_LAP_LAP n).width else s.get (F.SVn_LAP_LAP n)) ∧
      regsKept [R.SVn_STAT n, R.SVn_LAP n, R.SVn_PACE_POS n] s (wedgeShown n f lock s) := by
  obtain ⟨statApart, -, -, lapStat, -⟩ := wedgeRegs_apart n
  have heard : (s.onSv n f).sv n = f (s.sv n) := sv_onSv_same ..
  have ahead : refAhead (s.onSv n f) n = refAhead s n := refAhead_congr (by rw [heard, plan]) (by rw [heard, ref]) rfl
  obtain ⟨sv, others, wedge, lap, kept⟩ := wedgeStart_plain (n := n) (s := s.onSv n f) (by rw [heard, params]) (by rw [heard, switch])
  obtain ⟨wedgeCount, lapCount⟩ := lapAdvance_counts (n := n) (s := s.onSv n f)
  have locked (t : State) : regsKept [R.SVn_STAT n] t (t.put (F.SVn_STAT_SYNC_LOCK n) lock) := regsKept_put (f := F.SVn_STAT_SYNC_LOCK n) List.mem_cons_self lock
  have svs (t : State) (m : Lane) : (t.put (F.SVn_STAT_SYNC_LOCK n) lock).sv m = t.sv m := sv_of_svs (put_moves.parts 15 rfl) m
  unfold wedgeShown
  refine ⟨?_, fun m h => ?_, ?_, ?_, ?_, ?_, ?_⟩
  · rw [svs, sv, heard, ahead]
    rfl
  · rw [svs, others m h, sv_onSv_other h]
  · rw [get_put_same (of_decide_eq_true rfl)]
    exact Nat.mod_eq_of_lt bit
  · rw [motionState, get_put_apart (of_decide_eq_true rfl), kept.get (f := F.SVn_STAT_STATE n) statApart]
    rfl
  · rw [(locked _).get (f := F.SVn_LAP_WEDGE n) lapStat, wedge, wedgeCount]
    rfl
  · rw [(locked _).get (f := F.SVn_LAP_LAP n) lapStat, lap, lapCount]
    rfl
  · exact ((regsKept.of_regs (regs_onSv ..)).trans (kept.mono (by simp))).trans ((locked _).mono (by simp))

end Sys2Proof.Machine

end

section

/-! PROOF. Sync marks and windows (R155, R157 to R160, R192): a mark found, a window without one, and the misses that retract the heads. -/

namespace Sys2Proof.Machine

variable {n : Lane} {s : State}

/-! ### A mark found -/

/-- The baud count of a steady lane leaves the synthesiser alone (R85). -/
theorem steerBauds_steady {bauds : Nat}
    (steady : (s.sv n).lastFound = false ∨ (s.get (F.LNn_BPW_BPW n) ≤ bauds + 8 ∧ bauds ≤ s.get (F.LNn_BPW_BPW n) + 8)) : steerBauds n bauds s = s := by
  refine if_neg fun steers => ?_
  simp only [Bool.and_eq_true, decide_eq_true_eq] at steers
  obtain ⟨⟨⟨found, -⟩, -⟩, off⟩ := steers
  rcases steady with lost | ⟨below, above⟩
  · exact Bool.false_ne_true (lost.symm.trans found)
  · split at off <;> omega

/-- What a found mark leaves of its engine before the wedge begins. -/
def markHeard (interval : Nat) (v : Sv) : Sv :=
  { v with interval := if v.sampled then some interval else none, found := true, lastFound := true, ranged := true, miss := 0 }

/-- A found mark takes LOADING to ACQUIRE (R192). -/
def acquires (n : Lane) (s : State) : State :=
  if motionState s n = Mo.loading then (setMotion n Mo.acquire s).onSv n (fun v => { v with havePred := false, acqCount := 0 }) else s

theorem syncFound_eq {interval bauds : Nat} (steady : (s.sv n).lastFound = false ∨
    (s.get (F.LNn_BPW_BPW n) ≤ bauds + 8 ∧ bauds ≤ s.get (F.LNn_BPW_BPW n) + 8)) :
    syncFound n interval bauds s = countWindow n (acquires n (wedgeShown n (markHeard interval) 1 s)) := by
  rw [syncFound, steerBauds_steady steady]
  rw [onSv_onSv]
  rfl

theorem exec_syncReference_found {interval bauds : Nat} (runs : servoRuns s n = true) (inside : inWindow s n interval = true) :
    exec (.syncReference n 0b10110001 interval bauds) s = .next (syncFound n interval bauds s).settle :=
  congrArg Host.Outcome.next (if_pos (by rw [runs, inside]; rfl))

theorem exec_syncReference_ignored {mark : BitVec 8} {interval bauds : Nat}
    (ignored : servoRuns s n = false ∨ mark ≠ 0b10110001 ∨ inWindow s n interval = false) : exec (.syncReference n mark interval bauds) s = .next s := by
  refine congrArg Host.Outcome.next (if_neg fun taken => ?_)
  simp only [Bool.and_eq_true, decide_eq_true_eq] at taken
  obtain ⟨⟨runs, mark_⟩, inside⟩ := taken
  rcases ignored with stands | other | outside
  · exact Bool.false_ne_true (stands.symm.trans runs)
  · exact other mark_
  · exact Bool.false_ne_true (outside.symm.trans inside)

/-- An engine that was not loading acquires nothing. -/
theorem acquires_other (other : motionState s n ≠ Mo.loading) : acquires n s = s := if_neg other

/-- What a mark found leaves, acquired or not: the status of the engine but for STATE. -/
theorem acquires_spec :
    motionState (acquires n s) n = (if motionState s n = Mo.loading then Mo.acquire else motionState s n) ∧
      (acquires n s).get (F.SVn_STAT_SYNC_LOCK n) = s.get (F.SVn_STAT_SYNC_LOCK n) ∧
      (∃ p q, (acquires n s).sv n = { s.sv n with havePred := p, acqCount := q }) ∧
      (∀ m, m ≠ n → (acquires n s).sv m = s.sv m) ∧
      ServoKept [R.SVn_STAT n, R.SVn_FLT_STAT n] s (acquires n s) := by
  by_cases loading : motionState s n = Mo.loading
  · rw [acquires, if_pos loading, if_pos loading, motionState, get_onSv, get_onSv, sv_onSv_same, sv_setMotion]
    exact ⟨motionState_setMotion (by decide), get_setMotion_syncLock, ⟨_, _, rfl⟩, fun m h => by rw [sv_onSv_other h, sv_setMotion],
      servoKept_setMotion.trans (onSv_moves.servo rfl)⟩
  · rw [acquires_other loading, if_neg loading]
    exact ⟨rfl, rfl, ⟨_, _, rfl⟩, fun _ _ => rfl, .refl⟩

/-- A sync mark found in the search window. -/
theorem syncReference_found {interval bauds : Nat} (runs : servoRuns s n = true) (inside : inWindow s n interval = true)
    (steady : (s.sv n).lastFound = false ∨ (s.get (F.LNn_BPW_BPW n) ≤ bauds + 8 ∧ bauds ≤ s.get (F.LNn_BPW_BPW n) + 8))
    (params : (s.sv n).params = []) (switch : (s.sv n).switch = none) :
    ∃ u : State, exec (.syncReference n 0b10110001 interval bauds) s = .next ((countWindow n u).settle) ∧
      u.get (F.SVn_STAT_SYNC_LOCK n) = 1 ∧
      u.get (F.SVn_LAP_WEDGE n) = (if s.get (F.SVn_LAP_WEDGE n) = 719 then 0 else (s.get (F.SVn_LAP_WEDGE n) + 1) % 2 ^ (F.SVn_LAP_WEDGE n).width)
        ∧
      u.get (F.SVn_LAP_LAP n) =
        (if s.get (F.SVn_LAP_WEDGE n) = 719 then (s.get (F.SVn_LAP_LAP n) + 1) % 2 ^ (F.SVn_LAP_LAP n).width else s.get (F.SVn_LAP_LAP n)) ∧
      (u.sv n).found = true ∧
      (u.sv n).lastFound = true ∧
      (u.sv n).ranged = true ∧
      (u.sv n).miss = 0 ∧
      (u.sv n).slot = 0 ∧
      (u.sv n).interval = (if (s.sv n).sampled then some interval else none) ∧
      (u.sv n).ref = refAhead s n ∧
      (u.sv n).wedges = (s.sv n).wedges + 1 ∧
      motionState u n = (if motionState s n = Mo.loading then Mo.acquire else motionState s n) ∧
      (∀ m, m ≠ n → u.sv m = s.sv m) ∧
      (motionState s n ≠ Mo.loading → regsKept [R.SVn_STAT n, R.SVn_LAP n, R.SVn_PACE_POS n] s u) ∧
      (motionState s n ≠ Mo.loading → onlyParts [.regs, .lns, .svs] s u) := by
  obtain ⟨-, -, -, -, lapApart⟩ := wedgeRegs_apart n
  have own : servoBlock (R.SVn_LAP n) = true := servoBlock_engine n _ (by simp)
  obtain ⟨sv, others, lock, motion, wedge, lap, kept⟩ := wedgeShown_spec (f := markHeard interval) (lock := 1) (by decide) params switch rfl rfl
  obtain ⟨motionU, lockU, ⟨p, q, svU⟩, othersU, keptU⟩ := acquires_spec (n := n) (s := wedgeShown n (markHeard interval) 1 s)
  rw [sv] at svU
  refine ⟨_, by rw [exec_syncReference_found runs inside, syncFound_eq steady], lockU.trans lock,
    (keptU.get (f := F.SVn_LAP_WEDGE n) own lapApart).trans wedge, (keptU.get (f := F.SVn_LAP_LAP n) own lapApart).trans lap,
    congrArg Sv.found svU, congrArg Sv.lastFound svU, congrArg Sv.ranged svU, congrArg Sv.miss svU, congrArg Sv.slot svU, congrArg Sv.interval svU,
    congrArg Sv.ref svU, congrArg Sv.wedges svU, by rw [motionU, motion], fun m h => (othersU m h).trans (others m h), fun other => ?_, fun other => ?_⟩
  · rwa [acquires_other (by rwa [motion])]
  · rw [acquires_other (by rwa [motion])]
    exact (wedgeShown_moves ..).frame (by decide)

/-- The search window, once a reference has been found (R158). -/
theorem inWindow_ranged {interval : Nat} (ranged : (s.sv n).ranged = true) : inWindow s n interval = decide (
    (if interval < s.get (F.SVn_PERIOD_PERIOD n) then s.get (F.SVn_PERIOD_PERIOD n) - interval else interval - s.get (F.SVn_PERIOD_PERIOD n)) ≤
      64 * max 1 (s.get (F.SVn_SYNC_CFG_WIN n)) * (if s.on (F.SVn_STAT_CAD_CHANGE n) then 8 else 1)) := by
  rw [inWindow, ranged]
  rfl

/-! ### A window without a mark (R159) -/

theorem engineFault_apart (n : Nat) : R.SVn_FLT_CNT n ∉ [R.SVn_FLT_STAT n] ∧ R.SVn_FLT_STAT n ∉ [R.SVn_FLT_CNT n] ∧
    R.SVn_SYNC_CFG n ∉ [R.SVn_FLT_STAT n, R.SVn_FLT_CNT n] ∧ R.SVn_STAT n ∉ [R.SVn_FLT_STAT n, R.SVn_FLT_CNT n] ∧
    R.SVn_LAP n ∉ [R.SVn_FLT_STAT n, R.SVn_FLT_CNT n] ∧ R.SVn_SYNC_CFG n ∉ [R.SVn_STAT n, R.SVn_LAP n, R.SVn_PACE_POS n] ∧
    R.SVn_FLT_CNT n ∉ [R.SVn_STAT n, R.SVn_LAP n, R.SVn_PACE_POS n] := by
  simp [R.SVn_FLT_CNT, R.SVn_FLT_STAT, R.SVn_SYNC_CFG, R.SVn_STAT, R.SVn_LAP, R.SVn_PACE_POS]

/-- A missed window noted and counted, with the misses in a row at `m` (R159, R177 bit 0). -/
def missNoted (n : Lane) (m : Nat) (s : State) : State :=
  ((servoFault n 0 s).count (F.SVn_FLT_CNT_SYNC_MISS n)).onSv n (fun v => { v with miss := m })

theorem missNoted_spec (m : Nat) :
    (missNoted n m s).sv n = { s.sv n with miss := m } ∧
      (missNoted n m s).get (F.SVn_FLT_CNT_SYNC_MISS n) = min (s.get (F.SVn_FLT_CNT_SYNC_MISS n) + 1) (2 ^ (F.SVn_FLT_CNT_SYNC_MISS n).width - 1) ∧
      ServoKept [R.SVn_FLT_STAT n, R.SVn_FLT_CNT n] s (missNoted n m s) := by
  obtain ⟨cnt, -⟩ := engineFault_apart n
  have fault : regsKept [R.SVn_FLT_STAT n] s (servoFault n 0 s) := regsKept_flag s ((F.SVn_FLT_STAT_FLT n).bit 0)
  have counted : regsKept [R.SVn_FLT_CNT n] (servoFault n 0 s) ((servoFault n 0 s).count (F.SVn_FLT_CNT_SYNC_MISS n)) :=
    regsKept_count _ (F.SVn_FLT_CNT_SYNC_MISS n) 1
  refine ⟨?_, ?_, ?_⟩
  · rw [missNoted, sv_onSv_same, sv_of_svs ((count_moves.on (servoFault_moves.wide (m := 0x901) rfl) rfl).parts 15 rfl)]
  · rw [missNoted, get_onSv, get_count (of_decide_eq_true rfl), fault.get (f := F.SVn_FLT_CNT_SYNC_MISS n) cnt]
  · exact (((fault.mono (by simp)).trans (counted.mono (by simp))).trans (.of_regs (regs_onSv ..))).servoKept

/-- The misses in a row have reached MISS_MAX (R159). -/
abbrev MissesReached (s : State) (n : Lane) : Prop := max 1 (s.get (F.SVn_SYNC_CFG_MISS_MAX n)) ≤ (s.sv n).miss + 1

theorem countMiss_eq (counts : missCounts s n = true) : countMiss n s =
    if ¬ MissesReached s n then missNoted n ((s.sv n).miss + 1) s
    else svRetract n (((servoFault n 9 (missNoted n ((s.sv n).miss + 1) s)).tally (60 + actOf (missNoted n ((s.sv n).miss + 1) s) n)).onSv n
      (fun v => { v with miss := 0, havePred := false, ranged := false })) := by
  obtain ⟨-, -, cfg, -⟩ := engineFault_apart n
  have kept : (missNoted n ((s.sv n).miss + 1) s).get (F.SVn_SYNC_CFG_MISS_MAX n) = s.get (F.SVn_SYNC_CFG_MISS_MAX n) :=
    (missNoted_spec _).2.2.get (f := F.SVn_SYNC_CFG_MISS_MAX n) (servoBlock_engine n _ (by simp [F.SVn_SYNC_CFG_MISS_MAX])) cfg
  unfold countMiss
  rw [if_neg (by rw [counts]; exact Bool.false_ne_true)]
  show (if (s.sv n).miss + 1 < max 1 ((missNoted n ((s.sv n).miss + 1) s).get (F.SVn_SYNC_CFG_MISS_MAX n)) then _ else _) = _
  rw [kept]
  exact if_congr Nat.not_le.symm rfl rfl

/-- A missed window that does not reach MISS_MAX counts where the heads fly over the pattern. -/
theorem countMiss_below (below : missCounts s n = false ∨ ¬ MissesReached s n) :
    (countMiss n s).sv n = { s.sv n with miss := if missCounts s n then (s.sv n).miss + 1 else (s.sv n).miss } ∧
      (countMiss n s).get (F.SVn_FLT_CNT_SYNC_MISS n) = (if missCounts s n then
        min (s.get (F.SVn_FLT_CNT_SYNC_MISS n) + 1) (2 ^ (F.SVn_FLT_CNT_SYNC_MISS n).width - 1) else s.get (F.SVn_FLT_CNT_SYNC_MISS n)) ∧
      ServoKept [R.SVn_FLT_STAT n, R.SVn_FLT_CNT n] s (countMiss n s) := by
  cases counts : missCounts s n with
  | false =>
    rw [countMiss, counts]
    exact ⟨rfl, rfl, .refl⟩
  | true =>
    rw [countMiss_eq counts, if_pos (below.resolve_left (by rw [counts]; nofun))]
    exact missNoted_spec _

/-- Where misses count the heads fly. -/
theorem flies_of_missCounts (counts : missCounts s n = true) : Flies s n := by
  have flying : motionState s n ∈ [Mo.acquire, Mo.seek, Mo.settle, Mo.follow, Mo.unloading] := by
    simp only [missCounts, Bool.or_eq_true, Bool.and_eq_true, beq_iff_eq] at counts
    simp only [List.mem_cons, List.not_mem_nil, or_false]
    tauto
  have apart : ∀ a ∈ [Mo.acquire, Mo.seek, Mo.settle, Mo.follow, Mo.unloading], a ∉ [Mo.off, Mo.parked, Mo.retract, Mo.fault] := by decide
  exact apart _ flying

/-- The miss that reaches MISS_MAX retracts the heads. -/
theorem countMiss_reached (counts : missCounts s n = true) (reached : MissesReached s n) :
    motionState (countMiss n s) n = Mo.retract ∧
      (countMiss n s).get ((F.SVn_FLT_STAT_FLT n).bit 9) = 1 ∧
      (countMiss n s).get (F.SVn_STAT_SYNC_LOCK n) = s.get (F.SVn_STAT_SYNC_LOCK n) ∧
      ((countMiss n s).sv n).miss = 0 ∧
      ((countMiss n s).sv n).plan = none := by
  obtain ⟨-, -, -, stat, -⟩ := engineFault_apart n
  have own := servoBlock_engine n
  have statOwn : servoBlock (R.SVn_STAT n) = true := own _ (by simp)
  rw [countMiss_eq counts, if_neg (not_not.mpr reached)]
  generalize hm : (s.sv n).miss + 1 = m
  have told (t : State) (e : Nat) (f : Sv → Sv) : ServoKept [] t ((t.tally e).onSv n f) := servoKept_tally.trans (onSv_moves.servo rfl)
  have kept (e : Nat) (f : Sv → Sv) : ServoKept [R.SVn_FLT_STAT n, R.SVn_FLT_CNT n] s (((servoFault n 9 (missNoted n m s)).tally e).onSv n f) :=
    ((missNoted_spec m).2.2.trans (servoKept_servoFault.mono (by simp))).trans ((told _ e f).mono (List.nil_subset _))
  have flies (e : Nat) (f : Sv → Sv) : Flies (((servoFault n 9 (missNoted n m s)).tally e).onSv n f) n := by
    have motion : motionState (((servoFault n 9 (missNoted n m s)).tally e).onSv n f) n = motionState s n :=
      (kept e f).get (f := F.SVn_STAT_STATE n) statOwn stat
    rw [Flies, motion]
    exact flies_of_missCounts counts
  obtain ⟨motion, sv, lock, faults, -⟩ := svRetract_spec (flies (60 + actOf (missNoted n m s) n) (fun v => { v with miss := 0, havePred := false, ranged := false }))
  refine ⟨motion, ?_, ?_, ?_, ?_⟩
  · rw [faults 9 (by decide), (told _ _ _).get (f := (F.SVn_FLT_STAT_FLT n).bit 9) (own _ (by simp [Fld.bit, F.SVn_FLT_STAT_FLT])) (by simp),
      get_servoFault_same (by decide)]
  · rw [lock, (kept _ _).get (f := F.SVn_STAT_SYNC_LOCK n) statOwn stat]
  · rw [sv, sv_onSv_same]
    rfl
  · rw [sv]
    rfl

/-- What a window without a mark leaves of its engine before the wedge begins. -/
def markMissed (estV : Int) (v : Sv) : Sv := { v with found := false, lastFound := false, widHist := [], estV := estV }

theorem exec_syncWindowEnd {estTrack : Nat} {estV : Int} (runs : servoRuns s n = true) : exec (.syncWindowEnd n estTrack estV) s =
    .next (countWindow n (coastWedge n estTrack (countMiss n (wedgeShown n (markMissed estV) 0 s)))).settle :=
  if_neg (by rw [runs]; exact Bool.false_ne_true)

/-- The registers of a coasted wedge are none that a wedge's start or a miss writes. -/
theorem coastRegs_apart (n : Nat) : R.SVn_STAT n ∉ [R.SVn_PES n, R.SVn_TRACK n, R.SVn_FLT_STAT n] ∧
    R.SVn_LAP n ∉ [R.SVn_PES n, R.SVn_TRACK n, R.SVn_FLT_STAT n] ∧ R.SVn_FLT_CNT n ∉ [R.SVn_PES n, R.SVn_TRACK n, R.SVn_FLT_STAT n] := by
  simp [R.SVn_FLT_CNT, R.SVn_FLT_STAT, R.SVn_STAT, R.SVn_LAP, R.SVn_PES, R.SVn_TRACK]

section

variable {estTrack : Nat} {estV : Int} (params : (s.sv n).params = []) (switch : (s.sv n).switch = none)

include params switch

/-- Whether a missed window counts, and whether it is the last allowed, stands as before the wedge began. -/
theorem missCounts_wedgeShown :
    missCounts (wedgeShown n (markMissed estV) 0 s) n = missCounts s n ∧ (MissesReached (wedgeShown n (markMissed estV) 0 s) n ↔ MissesReached s n) := by
  obtain ⟨-, -, -, -, -, cfg, -⟩ := engineFault_apart n
  obtain ⟨sv, -, -, motion, -, -, kept⟩ := wedgeShown_spec (f := markMissed estV) (lock := 0) (by decide) params switch rfl rfl
  have uldEnded : ((wedgeShown n (markMissed estV) 0 s).sv n).uldEnded = (s.sv n).uldEnded := by rw [sv]; rfl
  have miss : ((wedgeShown n (markMissed estV) 0 s).sv n).miss = (s.sv n).miss := by rw [sv]; rfl
  exact ⟨by rw [missCounts, missCounts, motion, uldEnded], by rw [MissesReached, MissesReached, miss, kept.get (f := F.SVn_SYNC_CFG_MISS_MAX n) cfg]⟩

/-- A window without a mark that is not the last allowed: the wedge coasts. -/
theorem syncWindowEnd_coasts (runs : servoRuns s n = true) (below : missCounts s n = false ∨ ¬ MissesReached s n) :
    ∃ u : State, exec (.syncWindowEnd n estTrack estV) s = .next ((countWindow n u).settle) ∧
      u.get (F.SVn_STAT_SYNC_LOCK n) = 0 ∧
      u.get (F.SVn_PES_COAST n) = 1 ∧
      u.get (F.SVn_TRACK_TRACK n) = estTrack % 2 ^ (F.SVn_TRACK_TRACK n).width ∧
      u.get (F.SVn_LAP_WEDGE n) = (if s.get (F.SVn_LAP_WEDGE n) = 719 then 0 else (s.get (F.SVn_LAP_WEDGE n) + 1) % 2 ^ (F.SVn_LAP_WEDGE n).width)
        ∧
      u.get (F.SVn_FLT_CNT_SYNC_MISS n) = (if missCounts s n then min (s.get (F.SVn_FLT_CNT_SYNC_MISS n) + 1)
          (2 ^ (F.SVn_FLT_CNT_SYNC_MISS n).width - 1) else s.get (F.SVn_FLT_CNT_SYNC_MISS n)) ∧
      (u.sv n).miss = (if missCounts s n then (s.sv n).miss + 1 else (s.sv n).miss) ∧
      (u.sv n).found = false ∧
      (u.sv n).lastFound = false ∧
      (u.sv n).estV = estV ∧
      (u.sv n).sampled = false ∧
      motionState u n = motionState s n ∧
      onlyParts [.regs, .evr, .tly, .ccx, .lns, .mss, .svs, .rly, .reports, .sent, .freeN] s u := by
  obtain ⟨-, -, -, statMiss, lapMiss, -, cntShown⟩ := engineFault_apart n
  obtain ⟨statCoast, lapCoast, cntCoast⟩ := coastRegs_apart n
  have own := servoBlock_engine n
  have stat : servoBlock (R.SVn_STAT n) = true := own _ (by simp)
  have lap : servoBlock (R.SVn_LAP n) = true := own _ (by simp)
  obtain ⟨counts, reached⟩ := missCounts_wedgeShown (estV := estV) params switch
  obtain ⟨svShown, -, lock, motion, wedge, -, shown⟩ := wedgeShown_spec (f := markMissed estV) (lock := 0) (by decide) params switch rfl rfl
  have moved : Moves 0x1C08EB01 s (coastWedge n estTrack (countMiss n (wedgeShown n (markMissed estV) 0 s))) :=
    coastWedge_moves.step (countMiss_moves.step ((wedgeShown_moves ..).wide rfl))
  have still := exec_syncWindowEnd (estTrack := estTrack) (estV := estV) runs
  generalize wedgeShown n (markMissed estV) 0 s = w at counts reached svShown lock motion wedge shown moved still
  obtain ⟨svMiss, misses, missKept⟩ := countMiss_below (n := n) (s := w) (by rwa [counts, reached])
  obtain ⟨coast, track, svCoast, -, coastKept⟩ := coastWedge_spec (n := n) (s := countMiss n w) estTrack
  have sv : ((coastWedge n estTrack (countMiss n w)).sv n) = _ := svCoast.trans (congrArg coasted (svMiss.trans (by rw [svShown, counts])))
  refine ⟨_, still, ?_, coast, track, ?_, ?_, congrArg Sv.miss sv, congrArg Sv.found sv, congrArg Sv.lastFound sv, congrArg Sv.estV sv,
    congrArg Sv.sampled sv, ?_, moved.frame (by decide)⟩
  · rw [coastKept.get (f := F.SVn_STAT_SYNC_LOCK n) stat statCoast, missKept.get (f := F.SVn_STAT_SYNC_LOCK n) stat statMiss, lock]
  · rw [coastKept.get (f := F.SVn_LAP_WEDGE n) lap lapCoast, missKept.get (f := F.SVn_LAP_WEDGE n) lap lapMiss, wedge]
  · rw [coastKept.get (f := F.SVn_FLT_CNT_SYNC_MISS n) (own _ (by simp [F.SVn_FLT_CNT_SYNC_MISS])) cntCoast, misses, counts,
      shown.get (f := F.SVn_FLT_CNT_SYNC_MISS n) cntShown]
  · rw [motionState, coastKept.get (f := F.SVn_STAT_STATE n) stat statCoast, missKept.get (f := F.SVn_STAT_STATE n) stat statMiss, ← motionState, motion]

/-- The window without a mark that is the last allowed retracts the heads. -/
theorem syncWindowEnd_retracts (runs : servoRuns s n = true) (counts : missCounts s n = true) (reached : MissesReached s n) :
    ∃ u : State, exec (.syncWindowEnd n estTrack estV) s = .next ((countWindow n u).settle) ∧
      motionState u n = Mo.retract ∧
      u.get ((F.SVn_FLT_STAT_FLT n).bit 9) = 1 ∧
      u.get (F.SVn_STAT_SYNC_LOCK n) = 0 ∧
      (u.sv n).miss = 0 ∧
      (u.sv n).plan = none := by
  obtain ⟨statCoast, -, -⟩ := coastRegs_apart n
  have stat : servoBlock (R.SVn_STAT n) = true := servoBlock_engine n _ (by simp)
  obtain ⟨countsShown, reachedShown⟩ := missCounts_wedgeShown (estV := estV) params switch
  obtain ⟨-, -, lock, -, -, -, -⟩ := wedgeShown_spec (f := markMissed estV) (lock := 0) (by decide) params switch rfl rfl
  obtain ⟨motion, fault, lockMiss, miss, plan⟩ := countMiss_reached (countsShown.trans counts) (reachedShown.mpr reached)
  obtain ⟨-, -, sv, faults, kept⟩ := coastWedge_spec (n := n) (s := countMiss n (wedgeShown n (markMissed estV) 0 s)) estTrack
  refine ⟨_, exec_syncWindowEnd runs, ?_, (faults 9 (by decide)).trans fault, ?_, by rw [sv, (coasted_keeps _).1, miss],
    by rw [sv, (coasted_keeps _).2, plan]⟩
  · exact (kept.get (f := F.SVn_STAT_STATE n) stat statCoast).trans motion
  · exact (kept.get (f := F.SVn_STAT_SYNC_LOCK n) stat statCoast).trans (lockMiss.trans lock)

end

end Sys2Proof.Machine

end

section

/-! PROOF. Samples of the servo field (R155, R156, R160, R161, R165): coasted after a head change, discarded, or judged. -/

namespace Sys2Proof.Machine

variable {n : Lane} {s : State} {field : BitVec 82} {a b : Int} {estTrack : Nat} {estV : Int}

/-- The estimator's velocity kept, as a sample brings it. -/
abbrev estimated (n : Lane) (estV : Int) (s : State) : State := s.onSv n (fun v => { v with estV := estV })

theorem exec_servoSample (runs : servoRuns s n = true) (found : (s.sv n).found = true) :
    exec (.servoSample n field a b estTrack estV) s = .next (afterOutcomes (takeSample n field a b estTrack (estimated n estV s))) :=
  congrArg Host.Outcome.next (if_pos (by rw [runs, found]; rfl))

theorem regsKept.ite {l : List Nat} {t u : State} {c : Prop} [Decidable c] (h : regsKept l s t) (g : regsKept l s u) :
    regsKept l s (if c then t else u) := by
  split
  · exact h
  · exact g

/-- The wedge number judged writes the Lap counter and a fault alone (R160). -/
theorem regsKept_judgeWedge {dec : Option Nat} : regsKept [R.SVn_LAP n, R.SVn_FLT_STAT n] s (judgeWedge n dec s) := by
  have same {f : Sv → Sv} {t : State} : regsKept [R.SVn_LAP n, R.SVn_FLT_STAT n] t (t.onSv n f) := .of_regs rfl
  have wedge {t : State} {v : Nat} : regsKept [R.SVn_LAP n, R.SVn_FLT_STAT n] t (t.put (F.SVn_LAP_WEDGE n) v) :=
    regsKept_put (f := F.SVn_LAP_WEDGE n) List.mem_cons_self v
  have lap {t : State} {v : Nat} : regsKept [R.SVn_LAP n, R.SVn_FLT_STAT n] t (t.put (F.SVn_LAP_LAP n) v) :=
    regsKept_put (f := F.SVn_LAP_LAP n) List.mem_cons_self v
  have fault {t : State} : regsKept [R.SVn_LAP n, R.SVn_FLT_STAT n] t (servoFault n 2 t) :=
    (regsKept_flag t ((F.SVn_FLT_STAT_FLT n).bit 2)).mono (List.subset_cons_self ..)
  unfold judgeWedge
  dsimp only
  split
  · exact same
  · exact .ite (wedge.trans same) (.ite same (.ite same (((regsKept.ite lap (.ite lap (.of_regs rfl))).trans (wedge.trans same)).trans fault)))

/-! ### A head change (R165) -/

theorem takeSample_headChanged (changed : (s.sv n).headChanged = true) :
    takeSample n field a b estTrack s = coastWedge n estTrack (s.onSv n (fun v => { v with widHist := [] })) := if_pos changed

/-- After a head change the wedge coasts. -/
theorem servoSample_coasts (runs : servoRuns s n = true) (found : (s.sv n).found = true) (changed : (s.sv n).headChanged = true) :
    ∃ u : State, exec (.servoSample n field a b estTrack estV) s = .next (afterOutcomes u) ∧
      u.get (F.SVn_PES_COAST n) = 1 ∧
      u.get (F.SVn_TRACK_TRACK n) = estTrack % 2 ^ (F.SVn_TRACK_TRACK n).width ∧
      (u.sv n).sampled = false ∧
      onlyParts [.regs, .evr, .tly, .ccx, .lns, .mss, .svs, .rly, .reports, .sent, .freeN] s u := by
  have still : ((estimated n estV s).sv n).headChanged = true := by rw [sv_onSv_same]; exact changed
  have moved : Moves 0x1C08EB01 s (coastWedge n estTrack ((estimated n estV s).onSv n (fun v => { v with widHist := [] }))) :=
    coastWedge_moves.step ((onSv_moves.step onSv_moves).wide rfl)
  obtain ⟨coast, track, sv, -, -⟩ := coastWedge_spec (n := n) (s := (estimated n estV s).onSv n (fun v => { v with widHist := [] })) estTrack
  exact ⟨_, by rw [exec_servoSample runs found, takeSample_headChanged still], coast, track, congrArg Sv.sampled sv, moved.frame (by decide)⟩

/-! ### A sample discarded (R161) -/

/-- Without its address mark, or with a TRACK dibit that is neither 01 nor 10, a field shows no track. -/
theorem takeSample_bad (same : (s.sv n).headChanged = false)
    (bad : fieldSam field ≠ 0b1110010000110101 ∨ decodeTrack (fieldTrack field) = none) :
    ∃ dec, takeSample n field a b estTrack s = discardSample n estTrack (judgeWedge n dec s) := by
  have track : (if decide (fieldSam field = servoSam) then decodeTrack (fieldTrack field) else none) = none := by
    rcases bad with mark | none_
    · exact if_neg (by rw [decide_eq_true_eq]; exact mark)
    · rw [none_, ite_self]
  rw [takeSample, if_neg (ne_true_of_eq_false same)]
  dsimp only
  exact ⟨_, by rw [track]⟩

/-- A discarded sample is counted, and the wedge coasts. -/
theorem discardSample_spec :
    (discardSample n estTrack s).get (F.SVn_PES_COAST n) = 1 ∧
      (discardSample n estTrack s).get (F.SVn_TRACK_TRACK n) = estTrack % 2 ^ (F.SVn_TRACK_TRACK n).width ∧
      (discardSample n estTrack s).get (F.SVn_FLT_CNT_TID_BAD n) = min (s.get (F.SVn_FLT_CNT_TID_BAD n) + 1) (2 ^ (F.SVn_FLT_CNT_TID_BAD n).width - 1) ∧
      (discardSample n estTrack s).get ((F.SVn_FLT_STAT_FLT n).bit 1) = 1 ∧
      ((discardSample n estTrack s).sv n).sampled = false := by
  obtain ⟨cnt, flt, -⟩ := engineFault_apart n
  obtain ⟨-, -, cntCoast⟩ := coastRegs_apart n
  have fault : regsKept [R.SVn_FLT_STAT n] s (servoFault n 1 s) := regsKept_flag s ((F.SVn_FLT_STAT_FLT n).bit 1)
  have counted : regsKept [R.SVn_FLT_CNT n] (servoFault n 1 s) ((servoFault n 1 s).count (F.SVn_FLT_CNT_TID_BAD n)) :=
    regsKept_count _ (F.SVn_FLT_CNT_TID_BAD n) 1
  obtain ⟨coast, track, sv, faults, kept⟩ := coastWedge_spec (n := n) (s := (servoFault n 1 s).count (F.SVn_FLT_CNT_TID_BAD n)) estTrack
  refine ⟨coast, track, ?_, ?_, congrArg Sv.sampled sv⟩
  · rw [discardSample, kept.get (f := F.SVn_FLT_CNT_TID_BAD n) (servoBlock_engine n _ (by simp [F.SVn_FLT_CNT_TID_BAD])) cntCoast,
      get_count (of_decide_eq_true rfl), fault.get (f := F.SVn_FLT_CNT_TID_BAD n) cnt]
  · rw [discardSample, faults 1 (by decide), counted.get (f := (F.SVn_FLT_STAT_FLT n).bit 1) flt, get_servoFault_same (by decide)]

theorem servoSample_discarded (runs : servoRuns s n = true) (found : (s.sv n).found = true) (same : (s.sv n).headChanged = false)
    (bad : fieldSam field ≠ 0b1110010000110101 ∨ decodeTrack (fieldTrack field) = none) :
    ∃ u : State, exec (.servoSample n field a b estTrack estV) s = .next (afterOutcomes u) ∧
      u.get (F.SVn_PES_COAST n) = 1 ∧
      u.get (F.SVn_TRACK_TRACK n) = estTrack % 2 ^ (F.SVn_TRACK_TRACK n).width ∧
      u.get (F.SVn_FLT_CNT_TID_BAD n) = min (s.get (F.SVn_FLT_CNT_TID_BAD n) + 1) (2 ^ (F.SVn_FLT_CNT_TID_BAD n).width - 1) ∧
      u.get ((F.SVn_FLT_STAT_FLT n).bit 1) = 1 ∧
      (u.sv n).sampled = false := by
  have cnt : R.SVn_FLT_CNT n ∉ [R.SVn_LAP n, R.SVn_FLT_STAT n] := by simp [R.SVn_FLT_CNT, R.SVn_FLT_STAT, R.SVn_LAP]
  obtain ⟨dec, discards⟩ := takeSample_bad (n := n) (s := estimated n estV s) (a := a) (b := b) (estTrack := estTrack)
    (by rw [sv_onSv_same]; exact same) bad
  obtain ⟨coast, track, count, fault, sampled⟩ := discardSample_spec (n := n) (s := judgeWedge n dec (estimated n estV s)) (estTrack := estTrack)
  refine ⟨_, by rw [exec_servoSample runs found, discards], coast, track, ?_, fault, sampled⟩
  rw [count, regsKept_judgeWedge.get (f := F.SVn_FLT_CNT_TID_BAD n) cnt, get_onSv]

/-! ### A sample judged (R156) -/

/-- A field whose track is near the estimate is measured from its burst phase and judged. -/
theorem takeSample_good {tr : Nat} (same : (s.sv n).headChanged = false) (mark : fieldSam field = 0b1110010000110101)
    (track : decodeTrack (fieldTrack field) = some tr) (near : (if tr < estTrack then estTrack - tr else tr - estTrack) ≤ s.get (F.SVn_SYNC_CFG_TID_TOL n))
    (phase : ¬ (a = 0 ∧ b = 0)) :
    takeSample n field a b estTrack s = judgeSample n (((judgeWedge n (decodeWedge (fieldWedge field)) s).put (F.SVn_TRACK_TRACK n) tr).onSv n
      (fun v => { v with x := measuredPosition (phaseOf a b).toNat tr })) := by
  have marked : decide (fieldSam field = servoSam) = true := decide_eq_true mark
  have cfg : R.SVn_SYNC_CFG n ∉ [R.SVn_LAP n, R.SVn_FLT_STAT n] := by simp [R.SVn_SYNC_CFG, R.SVn_FLT_STAT, R.SVn_LAP]
  have tolerance := (regsKept_judgeWedge (n := n) (s := s) (dec := decodeWedge (fieldWedge field))).get (f := F.SVn_SYNC_CFG_TID_TOL n) cfg
  have within : ¬ (judgeWedge n (decodeWedge (fieldWedge field)) s).get (F.SVn_SYNC_CFG_TID_TOL n) <
      (if tr < estTrack then estTrack - tr else tr - estTrack) := by rw [tolerance]; exact Nat.not_lt.mpr near
  rw [takeSample, if_neg (ne_true_of_eq_false same)]
  simp only [marked, if_true, track, within, if_false, burstPhase, phase]

end Sys2Proof.Machine

end

section

/-! PROOF. Current ticks and the outputs of cycle 1,280 (R162 to R164, R169, R172, R173, R176, R194, R195). -/

namespace Sys2Proof.Machine

variable {n : Lane} {s : State} {beats : Nat}

/-! ### A RETRACT frame at a current tick (R194, R195) -/

theorem exec_currentTick : exec (.currentTick n beats) s = .next (currentTick n (beatsPass beats s)) := rfl

/-- The voltage that a current tick sends in place of a current: in RETRACT, in OFF after a disable, and at the end of an unload. -/
abbrev RetractDue (s : State) (n : Lane) (mv : Nat) : Prop :=
  (motionState s n = Mo.retract ∧ mv = s.get (F.SVn_PACE_RET_EMER_V n)) ∨
    (motionState s n = Mo.off ∧ (s.sv n).offRetract = true ∧ mv = s.get (F.SVn_PACE_RET_EMER_V n)) ∨
    (motionState s n = Mo.unloading ∧ (s.sv n).uldEnded = true ∧ mv = s.get (F.SVn_PACE_RET_ULD_V n))

theorem currentTick_retracts {mv : Nat} (due : RetractDue s n mv) : currentTick n s = retractFrame n mv s := by
  unfold currentTick
  rcases due with ⟨retract, rfl⟩ | ⟨off, disabled, rfl⟩ | ⟨unloading, ended, rfl⟩
  · rw [retract, if_neg (by decide), if_pos rfl]
  · rw [off, if_pos rfl, if_pos disabled]
  · rw [unloading, if_neg (by decide), if_neg (by decide), if_pos ⟨rfl, ended⟩]

theorem currentTick_retractFrame {mv : Nat} (enabled : s.on F.MOT_CTL_ENABLE = true) (due : RetractDue s n mv) :
    ∃ t : State, exec (.currentTick n beats) s = .next t ∧
      t.sent = s.sent ++ [.motion (motionFrame 4 (channelOf s n) (min 39 ((s.mot.ahead - 4 * beats + 3) / 4)) (mv % 2 ^ 16))] ∧
      t.mot = { s.mot with ahead := 4 * min 39 ((s.mot.ahead - 4 * beats + 3) / 4) + 16 } ∧
      t.regs = s.regs ∧
      onlyParts [.mot, .sent] s t := by
  have still : RetractDue (beatsPass beats s) n mv := due
  exact ⟨_, by rw [exec_currentTick, currentTick_retracts still]; rfl, sendMotion_enabled enabled beats 4 (channelOf s n) (mv % 2 ^ 16)⟩

theorem currentTick_off (off : motionState s n = Mo.off) (quiet : (s.sv n).offRetract = false) : currentTick n s = s := by
  unfold currentTick
  rw [off, if_pos rfl, if_neg (ne_true_of_eq_false quiet)]

/-! ### A VCM frame at a current tick (R164, R172) -/

/-- The currents of the load profile of the set of cadence 0. -/
def loadProfile (s : State) : List (Int × Nat) := match servoSec s 0 with | some sec => sec.load | none => []

/-- The current of a tick with the current loop off: the load profile's in LOADING, else the demand. -/
def tickCurrent (s : State) (n : Lane) : Int :=
  if motionState s n = Mo.loading then loadCurrent (loadProfile s) ((s.now.toNat - (s.sv n).loadAt) / 1000) else (s.sv n).demand

/-- An engine whose currents agree. -/
def converged (v : Sv) : Sv := { v with divTicks := 0 }

/-- An engine whose currents agree, and the current that it commands. -/
def commands (i : Int) (v : Sv) : Sv := { v with divTicks := 0, commanded := i }

/-- Currents within DIV_LIM set the count of divergent ticks back (R177 bit 7). -/
theorem currentDiverges_within (within : ((s.sv n).measured - (s.sv n).commanded).natAbs * 4 ≤ s.get (F.SVn_CUR_CFG_DIV_LIM n) * 1000) :
    currentDiverges n s = s.onSv n converged := by
  unfold currentDiverges
  dsimp only
  rw [decide_eq_false (Nat.not_lt.mpr within)]
  rfl

theorem currentCommand_loopOff (loopOff : s.on (F.SVn_CTL_CUR_LOOP_EN n) = false) : currentCommand n s = ((s.sv n).demand, s) := by
  unfold currentCommand
  dsimp only
  split
  · exact if_neg (ne_true_of_eq_false loopOff)
  · rfl

theorem currentTick_commands (flies : motionState s n ∉ [Mo.off, Mo.retract]) (driven : ¬ (motionState s n = Mo.unloading ∧ (s.sv n).uldEnded = true))
    (loopOff : motionState s n = Mo.loading ∨ s.on (F.SVn_CTL_CUR_LOOP_EN n) = false)
    (within : ((s.sv n).measured - (s.sv n).commanded).natAbs * 4 ≤ s.get (F.SVn_CUR_CFG_DIV_LIM n) * 1000) :
    currentTick n s = sendMotion 1 (channelOf s n) (unsigned 20 (tickCurrent s n)) (s.onSv n (commands (tickCurrent s n))) := by
  obtain ⟨off, retract⟩ : motionState s n ≠ Mo.off ∧ motionState s n ≠ Mo.retract := by simpa using flies
  have calm : ¬ max 1 ((s.onSv n converged).get (F.SVn_CUR_CFG_DIV_TICKS n)) ≤
      ((s.onSv n converged).sv n).divTicks := by
    rw [sv_onSv_same]
    exact Nat.not_le.mpr (Nat.lt_of_lt_of_le Nat.one_pos (Nat.le_max_left ..))
  unfold currentTick
  dsimp only
  rw [if_neg off, if_neg retract, if_neg driven, currentDiverges_within within, if_neg calm]
  by_cases loading : motionState s n = Mo.loading
  · rw [if_pos loading, vcmFrame, onSv_onSv, tickCurrent, if_pos loading]
    rfl
  · have still : (s.onSv n converged).on (F.SVn_CTL_CUR_LOOP_EN n) = false := loopOff.resolve_left loading
    rw [if_neg loading, currentCommand_loopOff still, tickCurrent, if_neg loading, vcmFrame, onSv_onSv, sv_onSv_same]
    rfl

/-- A current tick that commands a current. -/
theorem currentTick_vcmFrame (enabled : s.on F.MOT_CTL_ENABLE = true) (flies : motionState s n ∉ [Mo.off, Mo.retract])
    (driven : ¬ (motionState s n = Mo.unloading ∧ (s.sv n).uldEnded = true))
    (loopOff : motionState s n = Mo.loading ∨ s.on (F.SVn_CTL_CUR_LOOP_EN n) = false)
    (within : ((s.sv n).measured - (s.sv n).commanded).natAbs * 4 ≤ s.get (F.SVn_CUR_CFG_DIV_LIM n) * 1000) :
    ∃ t : State, exec (.currentTick n beats) s = .next t ∧
      (t.sv n).commanded = tickCurrent s n ∧
      t.sent = s.sent ++ [.motion (motionFrame 1 (channelOf s n) (min 39 ((s.mot.ahead - 4 * beats + 3) / 4)) (unsigned 20 (t.sv n).commanded))] ∧
      t.sv n = { s.sv n with divTicks := 0, commanded := (t.sv n).commanded } ∧
      (∀ m, m ≠ n → t.sv m = s.sv m) ∧
      onlyParts [.svs, .mot, .sent] s t := by
  have ticks : currentTick n (beatsPass beats s) =
      sendMotion 1 (channelOf s n) (unsigned 20 (tickCurrent s n)) (beatsPass beats (s.onSv n (commands (tickCurrent s n)))) :=
    currentTick_commands (s := beatsPass beats s) flies driven loopOff within
  obtain ⟨sent, -, -, only⟩ := sendMotion_enabled (s := s.onSv n (commands (tickCurrent s n))) enabled beats 1 (channelOf s n) (unsigned 20 (tickCurrent s n))
  have sv (m : Lane) : (sendMotion 1 (channelOf s n) (unsigned 20 (tickCurrent s n)) (beatsPass beats (s.onSv n (commands (tickCurrent s n))))).sv m =
      (s.onSv n (commands (tickCurrent s n))).sv m :=
    sv_of_svs ((sendMotion_moves.on (beatsPass_moves.wide (m := 0x8020000) rfl) rfl).parts 15 rfl) m
  have own := (sv n).trans (sv_onSv_same ..)
  have commanded := congrArg Sv.commanded own
  have moved : onlyParts [.svs, .mot, .sent] s (s.onSv n (commands (tickCurrent s n))) := onSv_moves.frame (by decide)
  refine ⟨_, by rw [exec_currentTick, ticks], commanded, by rw [commanded]; exact sent, by rw [commanded]; exact own,
    fun m h => (sv m).trans (sv_onSv_other h ..), moved.trans (only.mono (by simp))⟩

/-! ### The outputs converted (R169, R643) -/

/-- A conversion writes the count of saturations alone. -/
theorem convert_spec (w : Nat) (x : Rat) :
    (convert n w x s).1 = (toCode w x).1 ∧ Moves 0x1 s (convert n w x s).2 ∧ regsKept [R.SVn_ABA_CNT n] s (convert n w x s).2 ∧
      (convert n w x s).2.get (F.SVn_ABA_CNT_OUT_SAT n) = (if (toCode w x).2 then
        min (s.get (F.SVn_ABA_CNT_OUT_SAT n) + 1) (2 ^ (F.SVn_ABA_CNT_OUT_SAT n).width - 1) else s.get (F.SVn_ABA_CNT_OUT_SAT n)) := by
  refine ⟨rfl, convert_moves, ?_, ?_⟩
  · exact .ite (regsKept_count s (F.SVn_ABA_CNT_OUT_SAT n) 1) (.of_regs rfl)
  · show (if (toCode w x).2 then s.count (F.SVn_ABA_CNT_OUT_SAT n) else s).get (F.SVn_ABA_CNT_OUT_SAT n) = _
    split
    · exact get_count (of_decide_eq_true rfl) 1
    · rfl

/-- The demand converted at cycle 1,280. -/
theorem convertDemand_spec :
    (convertDemand n s).sv n = { s.sv n with demand := (toCode 20 ((s.sv n).out0 * 250000)).1 } ∧
      (∀ m, m ≠ n → (convertDemand n s).sv m = s.sv m) ∧
      regsKept [R.SVn_ABA_CNT n] s (convertDemand n s) ∧
      (convertDemand n s).get (F.SVn_ABA_CNT_OUT_SAT n) = (if (toCode 20 ((s.sv n).out0 * 250000)).2 then
        min (s.get (F.SVn_ABA_CNT_OUT_SAT n) + 1) (2 ^ (F.SVn_ABA_CNT_OUT_SAT n).width - 1) else s.get (F.SVn_ABA_CNT_OUT_SAT n)) := by
  obtain ⟨code, moved, kept, count⟩ := convert_spec (n := n) (s := s) 20 ((s.sv n).out0 * 250000)
  have sv (m : Lane) : (convert n 20 ((s.sv n).out0 * 250000) s).2.sv m = s.sv m := sv_of_svs (moved.parts 15 rfl) m
  have converted : convertDemand n s = (convert n 20 ((s.sv n).out0 * 250000) s).2.onSv n
    (fun v => { v with demand := (convert n 20 ((s.sv n).out0 * 250000) s).1 }) := rfl
  rw [converted, code]
  exact ⟨(sv_onSv_same ..).trans (by rw [sv]), fun m h => (sv_onSv_other h ..).trans (sv m), kept.trans (.of_regs (regs_onSv ..)), count⟩

/-! ### The MICRO frame and the status report (R172, R176) -/

theorem stagesOf_congr {t : State} (h : t.cfg = s.cfg) : stagesOf t n = stagesOf s n := by simp only [stagesOf, laneRec, h]

theorem microFrame_none (none_ : stagesOf s n = (false, false)) : microFrame n s = s := by
  unfold microFrame
  dsimp only
  rw [none_]
  rfl

/-- A status report enters a status FIFO with room. -/
theorem pushStatus_room (room : (s.sv n).status.length < 128) :
    pushStatus n s = s.onSv n (fun v => { v with status := v.status ++ [statusReport s n] }) := if_neg (Nat.not_le.mpr room)

/-- A status report is made of the registers and the demand, which a report sent leaves. -/
theorem statusReport_pushed (g : Sv → List (BitVec 128)) : statusReport (s.onSv n (fun v => { v with status := g v })) n = statusReport s n := by
  rw [statusReport, statusReport, sv_onSv_same]
  rfl

/-- What the conversion and the frames of cycle 1,280 leave, once its status report has entered a FIFO with room. -/
theorem pushStatus_spec (room : (s.sv n).status.length < 128) :
    ((pushStatus n s).sv n).demand = (s.sv n).demand ∧
      ((pushStatus n s).sv n).status = (s.sv n).status ++ [statusReport (pushStatus n s) n] ∧
      (∀ m, m ≠ n → (pushStatus n s).sv m = s.sv m) ∧
      (pushStatus n s).regs = s.regs ∧
      Moves 0x8000 s (pushStatus n s) := by
  rw [pushStatus_room room, statusReport_pushed, sv_onSv_same]
  exact ⟨rfl, rfl, fun m h => sv_onSv_other h .., rfl, onSv_moves⟩

theorem exec_servoOutput (runs : servoRuns s n = true) :
    exec (.servoOutput n beats) s = .next (pushStatus n (microFrame n (convertDemand n (beatsPass beats s)))) :=
  congrArg Host.Outcome.next (if_pos runs)

/-- The demand converted after the beats that have passed. -/
theorem convertDemand_beats_moves : Moves 0x28001 s (convertDemand n (beatsPass beats s)) :=
  convertDemand_moves.on (beatsPass_moves.wide (m := 0x28001) rfl) rfl

/-- Outputs of a lane without stages. -/
theorem servoOutput_plain (runs : servoRuns s n = true) (none_ : stagesOf s n = (false, false)) (room : (s.sv n).status.length < 128) :
    ∃ t : State, exec (.servoOutput n beats) s = .next t ∧
      (t.sv n).demand = (toCode 20 ((s.sv n).out0 * 250000)).1 ∧
      t.get (F.SVn_ABA_CNT_OUT_SAT n) = (if (toCode 20 ((s.sv n).out0 * 250000)).2 then min (s.get (F.SVn_ABA_CNT_OUT_SAT n) + 1)
          (2 ^ (F.SVn_ABA_CNT_OUT_SAT n).width - 1) else s.get (F.SVn_ABA_CNT_OUT_SAT n)) ∧
      (t.sv n).status = (s.sv n).status ++ [statusReport t n] ∧
      t.sent = s.sent ∧
      (∀ m, m ≠ n → t.sv m = s.sv m) ∧
      regsKept [R.SVn_ABA_CNT n] s t ∧
      onlyParts [.regs, .svs, .mot] s t := by
  have moved := convertDemand_beats_moves (n := n) (s := s) (beats := beats)
  obtain ⟨svC, othersC, keptC, countC⟩ := convertDemand_spec (n := n) (s := beatsPass beats s)
  have frames : microFrame n (convertDemand n (beatsPass beats s)) = convertDemand n (beatsPass beats s) :=
    microFrame_none ((stagesOf_congr (moved.parts 5 rfl)).trans none_)
  have ends := exec_servoOutput (beats := beats) runs
  rw [frames] at ends
  have statusC : ((convertDemand n (beatsPass beats s)).sv n).status = (s.sv n).status := by rw [svC]; rfl
  have demandC : ((convertDemand n (beatsPass beats s)).sv n).demand = (toCode 20 ((s.sv n).out0 * 250000)).1 := by rw [svC]; rfl
  obtain ⟨demand, status, others, regs, pushed⟩ := pushStatus_spec (n := n) (s := convertDemand n (beatsPass beats s)) (by rwa [statusC])
  have whole : Moves 0x28001 s (pushStatus n (convertDemand n (beatsPass beats s))) := pushed.on moved rfl
  refine ⟨_, ends, demand.trans demandC, ?_, status.trans (by rw [statusC]), whole.parts 27 rfl, fun m h => (others m h).trans (othersC m h), ?_,
    whole.frame (by decide)⟩
  · rw [get_eq, regs, ← get_eq]
    exact countC
  · exact (regsKept.of_regs (s := s) rfl).trans (keptC.trans (.of_regs regs))

/-! ### The MICRO frame of a lane with both stages (R172) -/

/-- The states in which the stages of a lane are driven. -/
abbrev Driven (s : State) (n : Lane) : Prop := motionState s n ∈ [Mo.acquire, Mo.seek, Mo.settle, Mo.follow]

/-- Both stages converted, their saturations counted. -/
def stagesConverted (n : Lane) (s : State) : State := (convert n 16 (s.sv n).out2 (convert n 16 (s.sv n).out1 s).2).2

theorem stagesConverted_moves : Moves 0x1 s (stagesConverted n s) := convert_moves.step convert_moves

theorem regsKept_stagesConverted : regsKept [R.SVn_ABA_CNT n] s (stagesConverted n s) :=
  (convert_spec 16 _).2.2.1.trans (convert_spec 16 _).2.2.1

theorem engineOutputs_apart (n : Nat) : R.SVn_CTL n ∉ [R.SVn_ABA_CNT n] ∧ R.SVn_STAT n ∉ [R.SVn_ABA_CNT n] ∧ R.MOT_CTL ∉ [R.SVn_ABA_CNT n] := by
  refine ⟨by simp [R.SVn_CTL, R.SVn_ABA_CNT], by simp [R.SVn_STAT, R.SVn_ABA_CNT], ?_⟩
  simp only [R.MOT_CTL, R.SVn_ABA_CNT, List.mem_singleton]
  omega

theorem channelOf_congr {t : State} (h : t.cfg = s.cfg) : channelOf t n = channelOf s n := by simp only [channelOf, laneRec, h]

theorem waitBeats_congr {t : State} (h : t.mot = s.mot) : waitBeats t = waitBeats s := by rw [waitBeats, h, waitBeats]

theorem sendMotion_sent (enabled : s.on F.MOT_CTL_ENABLE = true) (type ch payload : Nat) :
    (sendMotion type ch payload s).sent = s.sent ++ [.motion (motionFrame type ch (waitBeats s) payload)] :=
  congrArg State.sent (if_pos enabled)

theorem microFrame_both (both : stagesOf s n = (true, true)) (driven : Driven s n) (milli : s.on (F.SVn_CTL_MILLI_EN n) = true)
    (micro : s.on (F.SVn_CTL_MICRO_EN n) = true) :
    microFrame n s = sendMotion 2 (channelOf (stagesConverted n s) n) (unsigned 16 (toCode 16 (s.sv n).out1).1 +
      unsigned 16 (toCode 16 (s.sv n).out2).1 * 2 ^ 16 + (stagesConverted n s).get (F.SVn_STAT_HEAD n) * 2 ^ 32) (stagesConverted n s) := by
  have moving : ∀ st ∈ [Mo.acquire, Mo.seek, Mo.settle, Mo.follow], (st == Mo.loading) = false ∧ (st == Mo.retract) = false ∧ (st == Mo.unloading) = false := by
    decide
  obtain ⟨loading, retract, unloading⟩ := moving _ driven
  have microStill : (convert n 16 (s.sv n).out1 s).2.on (F.SVn_CTL_MICRO_EN n) = true := by
    rw [State.on, (convert_spec 16 _).2.2.1.get (f := F.SVn_CTL_MICRO_EN n) (engineOutputs_apart n).1]
    exact micro
  unfold microFrame
  simp only [both, loading, retract, unloading, milli, microStill, Bool.or_false, Bool.false_and, Bool.not_false, Bool.not_true, Bool.and_true,
    Bool.false_eq_true, if_false, if_true]
  rfl

/-- What the MICRO frame of a lane with both stages driven sends and leaves. -/
theorem microFrame_sends (both : stagesOf s n = (true, true)) (driven : Driven s n) (milli : s.on (F.SVn_CTL_MILLI_EN n) = true)
    (micro : s.on (F.SVn_CTL_MICRO_EN n) = true) (enabled : s.on F.MOT_CTL_ENABLE = true) :
    (microFrame n s).sent = s.sent ++ [.motion (motionFrame 2 (channelOf s n) (waitBeats s) (unsigned 16 (toCode 16 (s.sv n).out1).1 +
        unsigned 16 (toCode 16 (s.sv n).out2).1 * 2 ^ 16 + s.get (F.SVn_STAT_HEAD n) * 2 ^ 32))] ∧
      (∀ m, (microFrame n s).sv m = s.sv m) ∧
      regsKept [R.SVn_ABA_CNT n] s (microFrame n s) := by
  obtain ⟨-, stat, mot⟩ := engineOutputs_apart n
  have stages : Moves 0x1 s (stagesConverted n s) := stagesConverted_moves
  have kept : regsKept [R.SVn_ABA_CNT n] s (stagesConverted n s) := regsKept_stagesConverted
  rw [microFrame_both both driven milli micro]
  generalize stagesConverted n s = x at stages kept
  have enabledX : x.on F.MOT_CTL_ENABLE = true := by rw [State.on, kept.get (f := F.MOT_CTL_ENABLE) mot]; exact enabled
  have sends (payload : Nat) : Moves 0x8020001 s (sendMotion 2 (channelOf x n) payload x) := sendMotion_moves.on (stages.wide rfl) rfl
  refine ⟨?_, fun m => sv_of_svs ((sends _).parts 15 rfl) m, kept.trans (.of_regs (sendMotion_moves.parts 0 rfl))⟩
  rw [sendMotion_sent enabledX, stages.parts 27 rfl, channelOf_congr (stages.parts 5 rfl), waitBeats_congr (stages.parts 17 rfl),
    kept.get (f := F.SVn_STAT_HEAD n) stat]

/-- Outputs of a lane with both stages driven. -/
theorem servoOutput_both (runs : servoRuns s n = true) (both : stagesOf s n = (true, true)) (driven : Driven s n)
    (milli : s.on (F.SVn_CTL_MILLI_EN n) = true) (micro : s.on (F.SVn_CTL_MICRO_EN n) = true) (enabled : s.on F.MOT_CTL_ENABLE = true)
    (room : (s.sv n).status.length < 128) :
    ∃ t : State, exec (.servoOutput n beats) s = .next t ∧
      t.sent = s.sent ++ [.motion (motionFrame 2 (channelOf s n) (min 39 ((s.mot.ahead - 4 * beats + 3) / 4))
            (unsigned 16 (toCode 16 (s.sv n).out1).1 + unsigned 16 (toCode 16 (s.sv n).out2).1 * 2 ^ 16 + s.get (F.SVn_STAT_HEAD n) * 2 ^ 32))] ∧
      (t.sv n).demand = (toCode 20 ((s.sv n).out0 * 250000)).1 ∧
      (t.sv n).status = (s.sv n).status ++ [statusReport t n] ∧
      regsKept [R.SVn_ABA_CNT n] s t ∧
      onlyParts [.regs, .svs, .mot, .sent] s t := by
  obtain ⟨ctl, stat, mot⟩ := engineOutputs_apart n
  have ends := exec_servoOutput (beats := beats) runs
  have moved := convertDemand_beats_moves (n := n) (s := s) (beats := beats)
  have passed : (convertDemand n (beatsPass beats s)).mot = (beatsPass beats s).mot := convertDemand_moves.parts 17 rfl
  obtain ⟨svC, -, keptC, -⟩ := convertDemand_spec (n := n) (s := beatsPass beats s)
  have kept : regsKept [R.SVn_ABA_CNT n] s (convertDemand n (beatsPass beats s)) := (regsKept.of_regs (s := s) rfl).trans keptC
  generalize convertDemand n (beatsPass beats s) = c at ends moved passed svC kept
  have out1 : (c.sv n).out1 = (s.sv n).out1 := by rw [svC]; rfl
  have out2 : (c.sv n).out2 = (s.sv n).out2 := by rw [svC]; rfl
  have statusC : (c.sv n).status = (s.sv n).status := by rw [svC]; rfl
  have demandC : (c.sv n).demand = (toCode 20 ((s.sv n).out0 * 250000)).1 := by rw [svC]; rfl
  have onC {f : Fld} (h : f.addr ∉ [R.SVn_ABA_CNT n]) : c.on f = s.on f := by rw [State.on, kept.get h, State.on]
  have drivenC : Driven c n := by
    rw [Driven, motionState, kept.get (f := F.SVn_STAT_STATE n) stat]
    exact driven
  have sends : Moves 0x8020001 c (microFrame n c) := microFrame_moves
  obtain ⟨sent, svF, keptF⟩ := microFrame_sends ((stagesOf_congr (moved.parts 5 rfl)).trans both) drivenC
    ((onC (f := F.SVn_CTL_MILLI_EN n) ctl).trans milli) ((onC (f := F.SVn_CTL_MICRO_EN n) ctl).trans micro)
    ((onC (f := F.MOT_CTL_ENABLE) mot).trans enabled)
  generalize microFrame n c = f at ends sent svF keptF sends
  have statusF : (f.sv n).status = (s.sv n).status := by rw [svF, statusC]
  have wait : waitBeats c = min 39 ((s.mot.ahead - 4 * beats + 3) / 4) := waitBeats_congr passed
  obtain ⟨demand, status, -, regs, pushed⟩ := pushStatus_spec (n := n) (s := f) (by rwa [statusF])
  have whole : Moves 0x8028001 s (pushStatus n f) := pushed.on (sends.on (moved.wide (m := 0x8028001) rfl) rfl) rfl
  refine ⟨_, ends, ?_, ?_, status.trans (by rw [statusF]), (kept.trans keptF).trans (.of_regs regs), whole.frame (by decide)⟩
  · rw [pushed.parts 27 rfl, sent, moved.parts 27 rfl, channelOf_congr (moved.parts 5 rfl), wait, out1, out2, kept.get (f := F.SVn_STAT_HEAD n) stat]
  · rw [demand, svF, demandC]

end Sys2Proof.Machine

end

section

/-! PROOF. A servo wedge (R155 to R176): O13 from the lemmas of its reference, its sample, its current ticks and its outputs. -/

namespace Sys2Proof.Machine

/-! ### An engine that does not run (R155) -/

theorem exec_syncWindowEnd_stands {n : Lane} {s : State} (stands : servoRuns s n = false) (estTrack : Nat) (estV : Int) :
    exec (.syncWindowEnd n estTrack estV) s = .next s :=
  if_pos (by rw [stands]; rfl)

theorem exec_servoSample_stands {n : Lane} {s : State} (stands : servoRuns s n = false) (field : BitVec 82) (a b : Int) (estTrack : Nat) (estV : Int) :
    exec (.servoSample n field a b estTrack estV) s = .next s :=
  congrArg Host.Outcome.next (if_neg (by rw [stands]; exact Bool.false_ne_true))

theorem exec_servoOutput_stands {n : Lane} {s : State} (stands : servoRuns s n = false) (beats : Nat) :
    exec (.servoOutput n beats) s = .next (beatsPass beats s) :=
  congrArg Host.Outcome.next (if_neg (ne_true_of_eq_false stands))

/-! ### The wedge -/

/-- Settles O13: a lemma for a mark found and one for a window without a mark, one for each end of a sample, and one for each kind of frame sent. -/
theorem servoWedgeFromSyncToOutput : Obligations.ServoWedgeFromSyncToOutput := by
  unfold Obligations.ServoWedgeFromSyncToOutput
  refine ⟨?found, ?ignored, ?window, ?coasts, ?retracts, ?headChange, ?judged, ?discarded, ?retractFrame, ?current, ?off, ?plain, ?stages, ?stands⟩
  case found =>
    intro n interval bauds s runs inside steady params switch
    exact syncReference_found runs inside steady params switch
  case ignored =>
    intro n mark interval bauds s ignored
    exact exec_syncReference_ignored ignored
  case window =>
    intro n interval s ranged
    exact inWindow_ranged ranged
  case coasts =>
    intro n estTrack estV s runs below params switch
    exact syncWindowEnd_coasts params switch runs (below.imp_right Nat.not_le.mpr)
  case retracts =>
    intro n estTrack estV s runs counts reached params switch
    exact syncWindowEnd_retracts params switch runs counts reached
  case headChange =>
    intro n field a b estTrack estV s runs found changed
    exact servoSample_coasts runs found changed
  case judged =>
    intro n field a b tr estTrack estV s runs found same mark track near phase
    have sameHead : ((estimated n estV s).sv n).headChanged = false := by rw [sv_onSv_same]; exact same
    rw [exec_servoSample runs found, takeSample_good sameHead mark track near phase]
  case discarded =>
    intro n field a b estTrack estV s runs found same bad
    exact servoSample_discarded runs found same bad
  case retractFrame =>
    intro n beats mv s enabled due
    exact currentTick_retractFrame enabled due
  case current =>
    intro n beats s enabled ⟨flies, driven⟩ loopOff within
    exact currentTick_vcmFrame enabled flies driven loopOff within
  case off =>
    intro n beats s off quiet
    rw [exec_currentTick, currentTick_off (s := beatsPass beats s) off quiet]
  case plain =>
    intro n beats s runs none_ room
    exact servoOutput_plain runs none_ room
  case stages =>
    intro n beats s runs both driven milli micro enabled room
    exact servoOutput_both runs both driven milli micro enabled room
  case stands =>
    intro n beats estTrack estV field a b s stands
    exact ⟨exec_syncWindowEnd_stands stands estTrack estV, exec_servoSample_stands stands field a b estTrack estV, exec_servoOutput_stands stands beats⟩

end Sys2Proof.Machine

end

section

/-! PROOF. Commands of an engine (R181, R192, R194, R195, R632): what enabling, disabling, a load, an unload, a retract and a clear-fault leave. -/

namespace Sys2Proof.Machine

variable {n : Lane} {s : State}

/-! ### The rows -/

/-- A write that CFG does not discard and that waits for no lane acts and is answered (R59, R633). -/
theorem write_taken {who : Req} {addr : Nat} {w : Word} {eff : State → State} (early : earlyWrite s addr = false) (busy : laneBusy s addr = false) :
    s.write who addr w eff = (eff s).answer .done := by
  rw [State.write, if_neg (ne_true_of_eq_false early), if_neg (ne_true_of_eq_false busy)]

theorem accepts_iff {addr : Nat} : s.accepts addr = true ↔
    earlyWrite s addr = false ∧ laneBusy s addr = false ∧ unitAbsent s addr = false ∧ unitLost s addr = false := by
  simp only [State.accepts, Bool.and_eq_true, Bool.not_eq_true', and_assoc]

/-- A command of an engine that the image includes acts, and the chip settles (R632). -/
theorem exec_paceRow {c : Instr} {code : Nat} {u : State} (row : exec c s = .next (paceRow n code s)) (early : earlyWrite s (R.SVn_PACE_CMD n) = false)
    (busy : laneBusy s (R.SVn_PACE_CMD n) = false) (absent : unitAbsent s (R.SVn_PACE_CMD n) = false) (acts : paceCommand n code s = u) :
    exec c s = .next (u.settle.answer .done) := by
  rw [row, paceRow, write_taken early busy, if_neg (ne_true_of_eq_false absent), acts]

theorem enableRow_taken (accepts : s.accepts (R.SVn_CTL n) = true) :
    enableRow n true s = (svEnable n s).settle.answer .done ∧ enableRow n false s = (svDisable n s).settle.answer .done := by
  obtain ⟨early, busy, absent, -⟩ := accepts_iff.mp accepts
  rw [enableRow, enableRow, write_taken early busy, write_taken early busy, if_neg (ne_true_of_eq_false absent), if_neg (ne_true_of_eq_false absent),
    if_pos rfl, if_neg Bool.false_ne_true]
  exact ⟨rfl, rfl⟩

/-! ### The registers of an engine beside its motion state -/

/-- The registers of an engine that a change of its motion state leaves. -/
theorem engineRegs_apart (n : Lane) : R.SVn_CTL n ∉ [R.SVn_STAT n, R.SVn_FLT_STAT n] ∧ R.SVn_CTL n ∉ [R.SVn_PERIOD n] ∧
    R.SVn_STAT n ∉ [R.SVn_CTL n] ∧ R.SVn_STAT n ∉ [R.SVn_PERIOD n] := by
  revert n
  decide

theorem servoBlock_ctl (n : Lane) : servoBlock (F.SVn_CTL_ENABLE n).addr = true := by
  revert n
  decide +kernel

/-- The registers that bring an engine into another motion state. -/
def motionRegs (n : Lane) : List Nat := [R.SVn_CTL n, R.SVn_STAT n, R.SVn_FLT_STAT n, R.SVn_PERIOD n]

theorem motionRegs_apart {n m : Lane} (h : m ≠ n) : R.SVn_STAT m ∉ motionRegs n := by
  revert n m
  decide

theorem motionRegs_mem : [R.SVn_STAT n, R.SVn_FLT_STAT n] ⊆ motionRegs n ∧ [R.SVn_CTL n] ⊆ motionRegs n ∧ [R.SVn_PERIOD n] ⊆ motionRegs n := by
  simp [motionRegs]

/-- A change of one engine's motion state leaves the other engines in theirs. -/
theorem ServoKept.motionState_other {t : State} (h : ServoKept (motionRegs n) s t) (m : Lane) (other : m ≠ n) : motionState t m = motionState s m :=
  h.get (f := F.SVn_STAT_STATE m) (servoBlock_engine m _ (by simp [F.SVn_STAT_STATE])) (motionRegs_apart other)

theorem servoBlock_stat (n : Lane) : servoBlock (F.SVn_STAT_STATE n).addr = true := servoBlock_engine n _ (by simp [F.SVn_STAT_STATE])

/-! ### Motion states entered -/

/-- An engine that a row brings into a motion state. -/
theorem enters_spec {st : Nat} (h : st < 16) (f : Sv → Sv) :
    motionState ((setMotion n st s).onSv n f) n = st ∧
      ((setMotion n st s).onSv n f).sv n = f (s.sv n) ∧
      ServoKept [R.SVn_STAT n, R.SVn_FLT_STAT n] s ((setMotion n st s).onSv n f) := by
  refine ⟨?_, ?_, servoKept_setMotion.trans (onSv_moves.servo rfl)⟩
  · exact motionState_setMotion h
  · rw [sv_onSv_same, sv_setMotion]

/-- An engine whose heads leave the media: the target on the way is given up, and the heaters go off (R95). -/
def leaves (n : Lane) (st : Nat) (f : Sv → Sv) (s : State) : State := (retractSleep n (setMotion n st (abandonTarget n s))).onSv n f

theorem leaves_spec {st : Nat} (h : st < 16) (f : Sv → Sv) :
    motionState (leaves n st f s) n = st ∧
      (leaves n st f s).sv n = f (s.sv n) ∧
      ServoKept [R.SVn_STAT n, R.SVn_FLT_STAT n] s (leaves n st f s) := by
  have slept {l : List Nat} (t : State) : ServoKept l t ((retractSleep n t).onSv n f) := (retractSleep_moves.servo rfl).trans (onSv_moves.servo rfl)
  refine ⟨?_, ?_, (servoKept_abandonTarget.trans servoKept_setMotion).trans (slept _)⟩
  · exact ((slept (l := []) _).get (f := F.SVn_STAT_STATE n) (servoBlock_stat n) (by simp)).trans (motionState_setMotion h)
  · rw [leaves, sv_onSv_same, sv_of_svs (retractSleep_moves.parts 15 rfl), sv_setMotion]
    exact congrArg f (sv_of_svs (abandonTarget_moves.parts 15 rfl) n)

/-! ### Enabling (R192) -/

/-- What enabling leaves of an engine in OFF (R157, R192). -/
def started (v : Sv) : Sv :=
  { v with intervals := [], interval := none, lastFound := false, havePred := false, ranged := false, widHist := [], offRetract := false }

theorem servoKept_enablePut (v : Nat) : ServoKept [R.SVn_CTL n] s (s.put (F.SVn_CTL_ENABLE n) v) :=
  (regsKept_put (f := F.SVn_CTL_ENABLE n) List.mem_cons_self v).servoKept

theorem motionState_enable (v : Nat) : motionState (s.put (F.SVn_CTL_ENABLE n) v) n = motionState s n := by
  obtain ⟨-, -, statCtl, -⟩ := engineRegs_apart n
  exact (servoKept_enablePut v).get (f := F.SVn_STAT_STATE n) (servoBlock_stat n) statCtl

theorem sv_put (f : Fld) (v : Nat) : (s.put f v).sv n = s.sv n := sv_of_svs (put_moves.parts 15 rfl) n

theorem svEnable_off (off : motionState s n = Mo.off) :
    svEnable n s = holdPeriod n ((setMotion n Mo.parked (s.put (F.SVn_CTL_ENABLE n) 1)).onSv n started) := by
  rw [svEnable, motionState_enable, if_neg (not_not.mpr off)]
  rfl

theorem svEnable_on (on_ : motionState s n ≠ Mo.off) : svEnable n s = s.put (F.SVn_CTL_ENABLE n) 1 := by
  rw [svEnable, motionState_enable, if_pos on_]

theorem servoKept_holdPeriod : ServoKept [R.SVn_PERIOD n] s (holdPeriod n s) :=
  .ite .refl (regsKept_put (f := F.SVn_PERIOD_PERIOD n) List.mem_cons_self _).servoKept

/-- Enabling an engine in OFF parks it, its measured intervals dropped. -/
theorem svEnable_spec (off : motionState s n = Mo.off) :
    (svEnable n s).get (F.SVn_CTL_ENABLE n) = 1 ∧
      motionState (svEnable n s) n = Mo.parked ∧
      (svEnable n s).sv n = started (s.sv n) ∧
      ServoKept (motionRegs n) s (svEnable n s) := by
  obtain ⟨ctlStat, ctlPeriod, -, statPeriod⟩ := engineRegs_apart n
  obtain ⟨memStat, memCtl, memPeriod⟩ := motionRegs_mem (n := n)
  obtain ⟨motion, sv, kept⟩ := enters_spec (n := n) (s := s.put (F.SVn_CTL_ENABLE n) 1) (st := Mo.parked) (by decide) started
  rw [svEnable_off off]
  refine ⟨?_, ?_, ?_, ?_⟩
  · rw [servoKept_holdPeriod.get (f := F.SVn_CTL_ENABLE n) (servoBlock_ctl n) ctlPeriod, kept.get (f := F.SVn_CTL_ENABLE n) (servoBlock_ctl n) ctlStat,
      get_put_same (of_decide_eq_true rfl)]
    rfl
  · exact (servoKept_holdPeriod.get (f := F.SVn_STAT_STATE n) (servoBlock_stat n) statPeriod).trans motion
  · rw [sv_of_svs (holdPeriod_moves.parts 15 rfl), sv, sv_put]
  · exact (((servoKept_enablePut 1).mono memCtl).trans (kept.mono memStat)).trans (servoKept_holdPeriod.mono memPeriod)

/-! ### Disabling (R192) -/

/-- What disabling leaves of an engine that was not in OFF. -/
def stopped (v : Sv) : Sv :=
  { v with plan := none, restartDue := false, unloadDue := false, uldEnded := false, attempt := 0, again := false, offRetract := true }

theorem svDisable_off (off : motionState s n = Mo.off) : svDisable n s = s.put (F.SVn_CTL_ENABLE n) 0 := by
  rw [svDisable, motionState_enable, if_pos off]

theorem svDisable_on (on_ : motionState s n ≠ Mo.off) : svDisable n s = leaves n Mo.off stopped (s.put (F.SVn_CTL_ENABLE n) 0) := by
  rw [svDisable, motionState_enable, if_neg on_]
  rfl

/-- Disabling an engine in any other state brings it to OFF, where it retracts. -/
theorem svDisable_spec (on_ : motionState s n ≠ Mo.off) :
    (svDisable n s).get (F.SVn_CTL_ENABLE n) = 0 ∧
      motionState (svDisable n s) n = Mo.off ∧
      (svDisable n s).sv n = stopped (s.sv n) ∧
      ServoKept (motionRegs n) s (svDisable n s) := by
  obtain ⟨ctlStat, -⟩ := engineRegs_apart n
  obtain ⟨memStat, memCtl, -⟩ := motionRegs_mem (n := n)
  obtain ⟨motion, sv, kept⟩ := leaves_spec (n := n) (s := s.put (F.SVn_CTL_ENABLE n) 0) (st := Mo.off) (by decide) stopped
  rw [svDisable_on on_]
  refine ⟨?_, motion, sv.trans (by rw [sv_put]), ((servoKept_enablePut 0).mono memCtl).trans (kept.mono memStat)⟩
  rw [kept.get (f := F.SVn_CTL_ENABLE n) (servoBlock_ctl n) ctlStat, get_put_same (of_decide_eq_true rfl)]
  rfl

/-! ### Loads and unloads (R181, R194, R195) -/

/-- What the start of a load attempt leaves of its engine (R194). -/
def loadStarted (attempt now : Nat) (v : Sv) : Sv :=
  { v with
    attempt := attempt, again := false, loadAt := now, havePred := false, ranged := false, acqCount := 0, miss := 0, feCount := 0, plan := none,
    target := none }

theorem svLoad_spec (attempt : Nat) :
    motionState (svLoad n attempt s) n = Mo.loading ∧
      (svLoad n attempt s).sv n = loadStarted attempt s.now.toNat (s.sv n) ∧
      ServoKept [R.SVn_STAT n, R.SVn_FLT_STAT n] s (svLoad n attempt s) :=
  enters_spec (by decide) (loadStarted attempt s.now.toNat)

/-- What the start of an unload leaves of its engine (R195). -/
def unloadStarted (v : Sv) : Sv := { v with target := none, unloadDue := true, uldEnded := false, attempt := 0 }

/-- The states from which an unload begins. -/
abbrev Unloads (s : State) (n : Lane) : Prop := motionState s n = Mo.follow ∨ motionState s n = Mo.seek ∨ motionState s n = Mo.settle

theorem svUnload_seek (seek : motionState s n = Mo.seek) : svUnload n s = leaves n Mo.unloading unloadStarted s := by
  rw [svUnload, if_pos (.inr (.inl seek)), if_pos seek]
  rfl

theorem svUnload_rests (from_ : Unloads s n) (rests : motionState s n ≠ Mo.seek) :
    svUnload n s = leaves n Mo.unloading unloadStarted (latchLimits n s) := by
  rw [svUnload, if_pos from_, if_neg rests]
  rfl

theorem svUnload_refused (other : ¬ Unloads s n) : svUnload n s = s.flag (F.SVn_PACE_STAT_CMD_REJ n) := if_neg other

/-- The limits of an engine that latches them (R181). -/
def latched (s : State) (n : Lane) (v : Sv) : Sv :=
  { v with vmax := max 1 (s.get (F.SVn_PACE_VMAX_VMAX n)), amax := max 1 (s.get (F.SVn_PACE_AMAX_AMAX n)), jmax := max 1 (s.get (F.SVn_PACE_JMAX_JMAX n)) }

theorem sv_latchLimits : (latchLimits n s).sv n = latched s n (s.sv n) := sv_onSv_same ..

/-- An unload from SEEK keeps the limits; from SETTLE and FOLLOW it latches them (R181). -/
theorem svUnload_spec (from_ : Unloads s n) :
    motionState (svUnload n s) n = Mo.unloading ∧
      (svUnload n s).sv n = unloadStarted (if motionState s n = Mo.seek then s.sv n else latched s n (s.sv n)) ∧
      ServoKept (motionRegs n) s (svUnload n s) := by
  obtain ⟨memStat, -⟩ := motionRegs_mem (n := n)
  by_cases seek : motionState s n = Mo.seek
  · obtain ⟨motion, sv, kept⟩ := leaves_spec (n := n) (s := s) (st := Mo.unloading) (by decide) unloadStarted
    rw [svUnload_seek seek, if_pos seek]
    exact ⟨motion, sv, kept.mono memStat⟩
  · obtain ⟨motion, sv, kept⟩ := leaves_spec (n := n) (s := latchLimits n s) (st := Mo.unloading) (by decide) unloadStarted
    rw [svUnload_rests from_ seek, if_neg seek]
    exact ⟨motion, sv.trans (by rw [sv_latchLimits]), (latchLimits_moves.servo rfl).trans (kept.mono memStat)⟩

/-! ### Retracts (R192, R195) -/

theorem motionQuiet_iff : motionQuiet s n = true ↔ motionState s n ∈ [Mo.off, Mo.parked, Mo.fault] := by
  simp [motionQuiet, or_assoc]

theorem svRetract_again (retract : motionState s n = Mo.retract) :
    svRetract n s = s.onSv n (fun v => { v with attempt := 0, again := false }) := by
  have quiet : motionQuiet s n = false := Bool.eq_false_iff.mpr fun q => by
    rw [motionQuiet_iff, retract] at q
    exact absurd q (by decide)
  rw [svRetract, if_neg (ne_true_of_eq_false quiet), if_pos retract]

/-- A retract command of an engine that is not quiet. -/
theorem svRetract_loud (loud : motionState s n ∉ [Mo.off, Mo.parked, Mo.fault]) :
    motionState (svRetract n s) n = Mo.retract ∧
      ((svRetract n s).sv n).attempt = 0 ∧
      ((svRetract n s).sv n).again = false ∧
      (motionState s n ≠ Mo.retract → ((svRetract n s).sv n).plan = none) ∧
      ServoKept (motionRegs n) s (svRetract n s) := by
  by_cases retract : motionState s n = Mo.retract
  · rw [svRetract_again retract, sv_onSv_same]
    exact ⟨retract, rfl, rfl, fun other => absurd retract other, onSv_moves.servo rfl⟩
  · have flies : Flies s n := by
      simp only [Flies, List.mem_cons, List.not_mem_nil, or_false, not_or] at loud ⊢
      obtain ⟨off, parked, fault⟩ := loud
      exact ⟨off, parked, retract, fault⟩
    obtain ⟨motion, sv, -, -, kept⟩ := svRetract_spec flies
    rw [sv]
    exact ⟨motion, rfl, rfl, fun _ => rfl, kept.mono motionRegs_mem.1⟩

/-! ### The commands (R192) -/

/-- A lost lane takes no command but clear-fault. -/
theorem paceCommand_lost {code : Nat} (other : code ≠ 4) (lost : s.glb.lost0.getLsbD (12 + n) = true) : paceCommand n code s = s := if_pos ⟨other, lost⟩

section

variable (present : s.glb.lost0.getLsbD (12 + n) = false)

include present

theorem paceCommand_load : paceCommand n 1 s =
    if motionState s n = Mo.parked ∧ speedReady s then svLoad n 1 s else s.flag (F.SVn_PACE_STAT_CMD_REJ n) :=
  if_neg (fun lost => ne_true_of_eq_false present lost.2)

theorem paceCommand_unload : paceCommand n 2 s = svUnload n s := if_neg (fun lost => ne_true_of_eq_false present lost.2)

theorem paceCommand_retract : paceCommand n 3 s = if motionQuiet s n then s.flag (F.SVn_PACE_STAT_CMD_REJ n) else svRetract n s :=
  if_neg (fun lost => ne_true_of_eq_false present lost.2)

end

theorem paceCommand_clearFault : paceCommand n 4 s =
    if motionState s n = Mo.fault ∧ s.on F.MOT_STAT_LINK_UP then setMotion n Mo.parked s else s.flag (F.SVn_PACE_STAT_CMD_REJ n) := by
  rw [paceCommand, if_neg (fun lost => lost.1 rfl)]

/-- Settles O12: a lemma for enabling and one for disabling, one for each command's start, and the rows of the commands refused. -/
theorem servoCommandsMoveTheEngine : Obligations.ServoCommandsMoveTheEngine := by
  unfold Obligations.ServoCommandsMoveTheEngine
  refine ⟨?enable, ?enabled, ?disabled, ?disable, ?load, ?noLoad, ?unload, ?noUnload, ?retract, ?noRetract, ?clear, ?noClear, ?lost⟩
  case enable =>
    intro n s accepts off
    obtain ⟨enable, motion, sv, kept⟩ := svEnable_spec off
    exact ⟨svEnable n s, congrArg Host.Outcome.next (enableRow_taken accepts).1, enable, motion, congrArg Sv.intervals sv, congrArg Sv.offRetract sv,
      kept.motionState_other, svEnable_moves.frame (by decide)⟩
  case enabled =>
    intro n s accepts on_
    rw [← svEnable_on on_]
    exact congrArg Host.Outcome.next (enableRow_taken accepts).1
  case disabled =>
    intro n s accepts off
    rw [← svDisable_off off]
    exact congrArg Host.Outcome.next (enableRow_taken accepts).2
  case disable =>
    intro n s accepts on_
    obtain ⟨enable, motion, sv, kept⟩ := svDisable_spec on_
    exact ⟨svDisable n s, congrArg Host.Outcome.next (enableRow_taken accepts).2, enable, motion, congrArg Sv.plan sv, congrArg Sv.offRetract sv,
      kept.motionState_other, svDisable_moves.frame (by decide)⟩
  case load =>
    intro n s early busy absent present parked speed
    obtain ⟨motion, sv, kept⟩ := svLoad_spec (n := n) (s := s) 1
    exact ⟨svLoad n 1 s, exec_paceRow rfl early busy absent ((paceCommand_load present).trans (if_pos ⟨parked, speed⟩)), motion, congrArg Sv.attempt sv,
      congrArg Sv.loadAt sv, congrArg Sv.plan sv, (kept.mono motionRegs_mem.1).motionState_other, svLoad_moves.frame (by decide)⟩
  case noLoad =>
    intro n s early busy absent present unready
    refine exec_paceRow rfl early busy absent ((paceCommand_load present).trans (if_neg fun ready => ?_))
    exact unready.elim (fun other => other ready.1) (fun slow => ne_true_of_eq_false slow ready.2)
  case unload =>
    intro n s early busy absent present from_
    obtain ⟨motion, sv, kept⟩ := svUnload_spec (n := n) (s := s) (by tauto)
    refine ⟨svUnload n s, exec_paceRow rfl early busy absent (paceCommand_unload present), motion, congrArg Sv.unloadDue sv, congrArg Sv.uldEnded sv,
      congrArg Sv.target sv, fun rests => ?_, fun seek => ?_, kept.motionState_other, svUnload_moves.frame (by decide)⟩
    · rw [sv, if_neg rests]
      exact ⟨rfl, rfl, rfl⟩
    · rw [sv, if_pos seek]
      exact ⟨rfl, rfl, rfl⟩
  case noUnload =>
    intro n s early busy absent present other
    refine exec_paceRow rfl early busy absent ((paceCommand_unload present).trans (svUnload_refused ?_))
    simp only [List.mem_cons, List.not_mem_nil, or_false] at other
    tauto
  case retract =>
    intro n s early busy absent present loud
    obtain ⟨motion, attempt, again, plan, kept⟩ := svRetract_loud loud
    exact ⟨svRetract n s, exec_paceRow rfl early busy absent ((paceCommand_retract present).trans (if_neg (mt motionQuiet_iff.mp loud))), motion, attempt,
      again, plan, kept.motionState_other, svRetract_moves.frame (by decide)⟩
  case noRetract =>
    intro n s early busy absent present quiet
    exact exec_paceRow rfl early busy absent ((paceCommand_retract present).trans (if_pos (motionQuiet_iff.mpr quiet)))
  case clear =>
    intro n s early busy absent fault up
    exact ⟨setMotion n Mo.parked s, exec_paceRow rfl early busy absent (paceCommand_clearFault.trans (if_pos ⟨fault, up⟩)),
      motionState_setMotion (by decide), (servoKept_setMotion.mono motionRegs_mem.1).motionState_other, setMotion_moves.frame (by decide)⟩
  case noClear =>
    intro n s early busy absent unready
    refine exec_paceRow rfl early busy absent (paceCommand_clearFault.trans (if_neg fun ready => ?_))
    exact unready.elim (fun other => other ready.1) (fun down => ne_true_of_eq_false down ready.2)
  case lost =>
    intro n s early busy absent lost
    exact ⟨exec_paceRow rfl early busy absent (paceCommand_lost (by decide) lost), exec_paceRow rfl early busy absent (paceCommand_lost (by decide) lost),
      exec_paceRow rfl early busy absent (paceCommand_lost (by decide) lost)⟩

end Sys2Proof.Machine

end

section

/-! PROOF. Whether the spindle is at speed (R192, R200): a motion state entered, with its write inhibit, writes registers of the lanes, the engines, Tally
and GLB, and none of SPM. -/

namespace Sys2Proof.Machine

/-! ### The blocks that a motion state entered may write -/

/-- The address lies in a block LNn, MSn, SVn, TLY or GLB. -/
def headBlock (a : Nat) : Bool :=
  match locate a with
  | some (.ln, _) => true
  | some (.ms, _) => true
  | some (.sv, _) => true
  | some (.tly, _) => true
  | some (.glb, _) => true
  | _ => false

/-- Every register outside those blocks reads as before. -/
structure HeadSide (s t : State) : Prop where
  reg : ∀ a, headBlock a = false → t.reg a = s.reg a

section

variable {k : List Nat} {s t u : State}

theorem HeadSide.refl : HeadSide s s := ⟨fun _ _ => rfl⟩

theorem HeadSide.trans (h : HeadSide s t) (g : HeadSide t u) : HeadSide s u := ⟨fun a ha => (g.reg a ha).trans (h.reg a ha)⟩

theorem HeadSide.get (h : HeadSide s t) {f : Fld} (out : headBlock f.addr = false) : t.get f = s.get f := by
  rw [State.get, State.get, h.reg _ out]

/-- Registers kept but for some of those blocks. -/
theorem regsKept.headSide (h : regsKept k s t) (within : ∀ a ∈ k, headBlock a = true) : HeadSide s t :=
  ⟨fun a ha => h a (fun hk => ne_true_of_eq_false ha (within a hk))⟩

theorem Moves.headSide {m : Nat} (h : Moves m s t) (c : m.testBit 0 = false) : HeadSide s t := (h.regsKept (l := []) c).headSide (by simp)

theorem HeadSide.put (h : HeadSide s t) {f : Fld} (own : headBlock f.addr = true) (v : Nat) : HeadSide s (t.put f v) :=
  h.trans ((regsKept_put List.mem_cons_self v).headSide (List.forall_mem_singleton.mpr own))

theorem HeadSide.flag (h : HeadSide s t) {f : Fld} (own : headBlock f.addr = true) : HeadSide s (t.flag f) :=
  h.trans ((regsKept_flag t f).headSide (List.forall_mem_singleton.mpr own))

theorem HeadSide.ite {c : Prop} [Decidable c] (h : HeadSide s t) (g : HeadSide s u) : HeadSide s (if c then t else u) := by
  split
  · exact h
  · exact g

theorem HeadSide.forEach {α : Type} {f : α → State → State} (h : ∀ a t, HeadSide t (f a t)) {as : List α} : HeadSide s (forEach as f s) := by
  induction as generalizing s with
  | nil => exact .refl
  | cons a as ih => exact (h a s).trans ih

end

theorem headBlock_tally : headBlock R.TLY_STAT = true ∧ headBlock R.TLY_FLT = true ∧ headBlock R.TLY_CNT = true ∧ headBlock R.GLB_STICKY = true := by
  decide +kernel

theorem headBlock_lane (n : Lane) : ∀ a ∈ [R.LNn_STAT n, R.LNn_WR_STAT n, R.LNn_WFLT_STAT n, R.LNn_WR_CNT n, R.LNn_VFY_STAT n, R.LNn_VFY_CNT1 n,
    R.MSn_INT n, R.LNn_TBL_SEL n, R.LNn_WTBL_SEL n, R.SVn_STAT n, R.SVn_FLT_STAT n], headBlock a = true := by
  revert n
  decide +kernel

theorem headBlock_of_tablePort {a : Nat} {p : Lane × Bool × Bool} (h : tablePort a = some p) : headBlock a = true := by
  unfold tablePort at h
  split at h
  next n at_ =>
    unfold laneOfAddr at at_
    unfold headBlock
    split at at_
    next there => rw [there]
    next there => rw [there]
    next => cases at_
  next => cases h

/-! ### Tally, the table ports and the gates of a lane -/

section

variable {n : Lane} {s : State}

theorem headSide_tally {e d : Nat} : HeadSide s (s.tally e d) := by
  obtain ⟨stat, flt, cnt, sticky⟩ := headBlock_tally
  have updated : HeadSide s (s.tlyUpdate e d false) := by
    unfold State.tlyUpdate
    dsimp only
    split
    · exact mk_tly.headSide rfl
    · exact (((HeadSide.refl.flag (f := F.TLY_FLT_SLOT_BAD) flt).put (f := F.TLY_CNT_SLOT_BAD) cnt _).put (f := F.GLB_STICKY_TALLY_FAIL) sticky 1).trans
        ⟨fun _ _ => rfl⟩
  unfold State.tally
  exact .ite updated ((mk_tly.headSide rfl).put (f := F.TLY_STAT_STAGED) stat _)

theorem headSide_tableWriteNow {wr : Bool} {w : Word} : HeadSide s (tableWriteNow n wr w s) := by
  have step (t : State) : HeadSide t (tableStep n wr t) := by
    refine (regsKept_tableStep n wr t).headSide (fun a ha => headBlock_lane n a ?_)
    rw [List.mem_singleton.mp ha]
    cases wr <;> simp [portSel]
  unfold tableWriteNow
  exact .trans (.ite .refl (.ite (.ite (onLn_moves.headSide rfl) (onLn_moves.headSide rfl)) (putEntry_moves.headSide rfl))) (step _)

theorem headSide_tablePortWrite {wr d : Bool} {a : Nat} {w : Word} (h : headBlock a = true) : HeadSide s (tablePortWrite n wr d a w s) := by
  unfold tablePortWrite
  refine .ite (onLn_moves.headSide rfl) (.ite headSide_tableWriteNow ?_)
  exact (regsKept_setReg List.mem_cons_self _).headSide (List.forall_mem_singleton.mpr h)

theorem headSide_releaseHeld {wr : Bool} : HeadSide s (releaseHeld n wr s) := by
  unfold releaseHeld
  refine .ite .refl (.trans (.trans ?_ (onLn_moves.headSide rfl)) (.forEach (fun p t => ?_)))
  · split
    · exact putEntry_moves.headSide rfl
    · exact .refl
  · split
    next port => exact headSide_tablePortWrite (headBlock_of_tablePort port)
    next => exact .refl

theorem headSide_afterClose : HeadSide s (afterClose n s) := by
  have drained {t : State} : HeadSide t (drainFifo n t) := by
    unfold drainFifo
    exact .ite (((onLn_moves.headSide rfl).trans (onAct_moves.headSide rfl)).trans headSide_tally) .refl
  exact (((onLn_moves.headSide rfl).trans headSide_releaseHeld).trans headSide_releaseHeld).trans drained

theorem headSide_closeVerify {taps : Option (List Word)} : HeadSide s (closeVerify n taps s) := by
  have stat : headBlock (R.LNn_WR_STAT n) = true := headBlock_lane n _ (by simp)
  unfold closeVerify
  split
  · exact (((HeadSide.refl.put (f := F.LNn_WR_STAT_VFY_GATE n) stat 0).trans (onLn_moves.headSide rfl)).trans
      (writeBackCancel_moves.headSide rfl)).trans headSide_afterClose
  · exact .refl

/-! ### A write inhibit (R146 to R150) -/

theorem headSide_relocateSector {d : Sector} : HeadSide s (relocateSector n d s) := by
  have cnt : headBlock (R.LNn_WR_CNT n) = true := headBlock_lane n _ (by simp)
  have counted {t : State} : HeadSide t (t.count (F.LNn_WR_CNT_RELOCATED n)) := HeadSide.refl.put (f := F.LNn_WR_CNT_RELOCATED n) cnt _
  exact ((((msPost_moves.headSide rfl).trans counted).trans headSide_tally).trans (report_moves.headSide rfl)).trans (sectorOutcome_moves.headSide rfl)

theorem headSide_squelchGate {src : Nat} : HeadSide s (squelchGate n src s) := by
  have lane := headBlock_lane n
  have stat : headBlock (R.LNn_STAT n) = true := lane _ (by simp)
  have cnt : headBlock (R.LNn_WR_CNT n) = true := lane _ (by simp)
  have verify : headBlock (R.LNn_VFY_STAT n) = true := lane _ (by simp)
  have skipped : headBlock (R.LNn_VFY_CNT1 n) = true := lane _ (by simp)
  unfold squelchGate
  split
  next d _ =>
    have cut : HeadSide s (((s.put (F.LNn_STAT_WR_GATE n) 0).count (F.LNn_WR_CNT_INTERRUPTED n)).tally (48 + n)) :=
      ((HeadSide.refl.put (f := F.LNn_STAT_WR_GATE n) stat 0).put (f := F.LNn_WR_CNT_INTERRUPTED n) cnt _).trans headSide_tally
    have sample {c : Bool} {t : State} : HeadSide t (if c then t.put (F.LNn_VFY_STAT_SAMPLE_CNT n) d.cnt else t) :=
      .ite (HeadSide.refl.put (f := F.LNn_VFY_STAT_SAMPLE_CNT n) verify _) .refl
    have skip {c : Bool} {t : State} : HeadSide t (if c then t.count (F.LNn_VFY_CNT1_SKIPPED n) else t) :=
      .ite (HeadSide.refl.put (f := F.LNn_VFY_CNT1_SKIPPED n) skipped _) .refl
    have shown {t : State} : HeadSide t (showPending n t) := HeadSide.refl.put (f := F.LNn_VFY_STAT_PENDING n) verify _
    have closed {c : Bool} {t : State} : HeadSide t (if c then closeVerify n none t else t) := .ite headSide_closeVerify .refl
    have told {t : State} : HeadSide t (if src = 0 then report .disturbed n d t else t) := .ite (report_moves.headSide rfl) .refl
    refine .ite .refl (.trans (.trans (.trans (.trans ?_ closed) headSide_afterClose) told) (.ite headSide_relocateSector (onLn_moves.headSide rfl)))
    refine .trans (.trans (.trans ?_ (seqGateIdle_moves.headSide rfl)) (emit_moves.headSide rfl)) shown
    exact ((cut.trans sample).trans skip).trans (onLn_moves.headSide rfl)
  next => exact .refl

theorem headSide_inhibit {src : Nat} : HeadSide s (inhibit n src s) := by
  have lane := headBlock_lane n
  have stat : headBlock (R.LNn_WR_STAT n) = true := lane _ (by simp)
  have seen : headBlock (R.LNn_WFLT_STAT n) = true := lane _ (by simp)
  have int : headBlock (R.MSn_INT n) = true := lane _ (by simp)
  have shown : HeadSide s (((s.put ((F.LNn_WR_STAT_INH_NOW n).bit src) 1).put (F.LNn_WR_STAT_SQUELCH n) 1).flag ((F.LNn_WFLT_STAT_INH_SEEN n).bit src)) :=
    ((HeadSide.refl.put (f := (F.LNn_WR_STAT_INH_NOW n).bit src) stat 1).put (f := F.LNn_WR_STAT_SQUELCH n) stat 1).flag
      (f := (F.LNn_WFLT_STAT_INH_SEEN n).bit src) seen
  have told {t : State} : HeadSide t (msInt n 3 t) := HeadSide.refl.put (f := (⟨R.MSn_INT n, 6, 0⟩ : Fld).bit 3) int 1
  have abandoned {t : State} : HeadSide t (abandonVerify n t) := (setLn_moves.headSide rfl).trans headSide_closeVerify
  refine .trans ?_ (.ite .refl abandoned)
  exact (shown.trans (onLn_moves.headSide rfl)).trans (.ite (told.trans headSide_squelchGate) .refl)

/-! ### The spindle's speed -/

theorem headSide_setMotion {st : Nat} : HeadSide s (setMotion n st s) := by
  have stat : headBlock (R.SVn_STAT n) = true := headBlock_lane n _ (by simp)
  have flt : headBlock (R.SVn_FLT_STAT n) = true := headBlock_lane n _ (by simp)
  have shown : HeadSide s (s.put (F.SVn_STAT_STATE n) st) := HeadSide.refl.put (f := F.SVn_STAT_STATE n) stat st
  have unsafe_ (t : State) : HeadSide t (writeUnsafe n t) := by
    have fault : HeadSide t (servoFault n 4 t) := HeadSide.refl.flag (f := (F.SVn_FLT_STAT_FLT n).bit 4) flt
    unfold writeUnsafe inhibitWrites
    exact fault.trans (.ite headSide_inhibit (onLn_moves.headSide rfl))
  exact .ite shown (shown.trans (unsafe_ _))

/-- Whether the spindle is at speed stands in SPM and its registers. -/
theorem speedReady_congr {t : State} (spm : t.spm = s.spm) (h : HeadSide s t) : speedReady t = speedReady s := by
  have speed : t.get F.SPM_SPEED_SPEED = s.get F.SPM_SPEED_SPEED := h.get (by decide +kernel)
  have atSpeed : t.get F.SPM_STAT_AT_SPEED = s.get F.SPM_STAT_AT_SPEED := h.get (by decide +kernel)
  have state : t.get F.SPM_STAT_STATE = s.get F.SPM_STAT_STATE := h.get (by decide +kernel)
  have tol : t.get F.SPM_REG_CFG_LOCK_TOL = s.get F.SPM_REG_CFG_LOCK_TOL := h.get (by decide +kernel)
  simp only [speedReady, State.on, spm, speed, atSpeed, state, tol]

end

end Sys2Proof.Machine

end

section

/-! PROOF. An abandoned target reported to the Relay scheduler (R191, R316): what is done with its items leaves the engines' registers but for the target
mailbox's flags and counts, and of an engine nothing but its mailbox. -/

namespace Sys2Proof.Machine

variable {l : List Nat} {s : State}

/-! ### Messages and what the Relay scheduler shows -/

theorem servoKept_showRelay : ServoKept l s (showRelay s) := by
  have used : ServoKept l s (s.put F.RLY_STAT_POOL_USED (min 65535 (poolUsed s))) := ServoKept.refl.put (by decide +kernel) _
  have stop (t : State) (b : Bool) : ServoKept l t (t.putB F.RLY_STAT_DISPATCH_STOP b) := ServoKept.refl.put (by decide +kernel) _
  have busy (a : Lane) (t : State) (b : Bool) : ServoKept l t (t.putB (F.RLY_STAT_BUSY.bit a) b) := ServoKept.refl.put (by revert a; decide +kernel) _
  exact (used.trans (stop _ _)).trans (.forEach (fun a t => busy a t _))

theorem servoKept_batSend {tag : BitVec 32} {m : BatMsg} : ServoKept l s (batSend tag m s) := by
  have freed (t : State) : ServoKept l t (setFreed 0 t) := (ServoKept.refl.put (f := F.BAT_CRED_INFLIGHT) (by decide +kernel) _).trans (mk_bat.servo rfl)
  have spent (t : State) (v : Nat) : ServoKept l t (t.put F.BAT_CRED_AVAIL v) := ServoKept.refl.put (by decide +kernel) _
  have sent : ServoKept l s (batPut tag m s) := (((emit_moves.servo rfl).trans (spent _ _)).trans (freed _)).trans (mk_bat.servo rfl)
  unfold batSend
  exact .ite .refl (.ite sent (mk_bat.servo rfl))

/-! ### Charges (R309, R320, R398) -/

theorem servoKept_chargeQos {fn us : Nat} : ServoKept l s (chargeQos fn us s) := by
  have shown (t : State) : ServoKept l t (showQos t) :=
    (ServoKept.refl.put (f := F.RLY_QOS_STAT_HELD_CNT) (by decide +kernel) _).put (f := F.RLY_QOS_STAT_FLOOR_SUM) (by decide +kernel) _
  have held (t : State) : ServoKept l t (t.flag F.RLY_QOS_FLT_HELD) := ServoKept.refl.flag (by decide +kernel)
  have charged (q : Qos) : ServoKept l s (showQos (s.setQos fn q)) := (setQos_moves.servo rfl).trans (shown _)
  unfold chargeQos
  exact .ite .refl (.ite ((charged _).trans (held _)) (charged _))

theorem servoKept_chargeAccount {idx total seek ladder : Nat} : ServoKept l s (chargeAccount idx total seek ladder s) :=
  (((addAccount_moves.servo rfl).trans (addAccount_moves.servo rfl)).trans (addAccount_moves.servo rfl)).trans servoKept_chargeQos

theorem servoKept_chargeItems {a : Lane} {outcome : Nat} {items : List Item} {charge : Nat × Nat × Nat} :
    ServoKept l s (chargeItems a outcome items charge s) := by
  have shares (ks : List Nat) (idx total seek ladder : Nat → Nat) (t : State) :
      ServoKept l t (forEach ks (fun k t => chargeAccount (idx k) (total k) (seek k) (ladder k) t) t) := .forEach (fun _ _ => servoKept_chargeAccount)
  unfold chargeItems
  refine .forEach (fun k t => .trans ?_ (updateCredits_moves.servo rfl))
  split
  · exact (shares _ _ _ _ _ t).trans servoKept_batSend
  · exact (shares _ _ _ _ _ t).trans (onBnd_moves.servo rfl)
  · exact shares _ _ _ _ _ t

theorem servoKept_endDispatch {a : Lane} {outcome : Nat} : ServoKept l s (endDispatch a outcome s) := by
  unfold endDispatch
  exact .ite .refl (((onAct_moves.servo rfl).trans servoKept_chargeItems).trans servoKept_showRelay)

theorem servoKept_endFailed {a : Lane} : ServoKept l s (endFailed a s) := by
  unfold endFailed
  split
  · exact ((onAct_moves.servo rfl).trans servoKept_chargeItems).trans servoKept_showRelay
  · exact servoKept_endDispatch

/-! ### Items that end (R315, R316) -/

theorem servoKept_showSlots : ServoKept l s (showSlots s) := by
  have free (t : State) (v : Nat) : ServoKept l t (t.put F.QE_SLOT_FREE_FREE v) := ServoKept.refl.put (by decide +kernel) v
  have active (t : State) (v : Nat) : ServoKept l t (t.put F.QE_SLOT_FREE_ACTIVE v) := ServoKept.refl.put (by decide +kernel) v
  have held (t : State) (v : Nat) : ServoKept l t (t.put F.QE_SLOT_HELD_HELD v) := ServoKept.refl.put (by decide +kernel) v
  have full (t : State) (v : Nat) : ServoKept l t (t.put F.QE_SLOT_HELD_CQ_FULL v) := ServoKept.refl.put (by decide +kernel) v
  have runs (t : State) (v : Nat) : ServoKept l t (t.put F.QE_HAZ_STAT_RUNS v) := ServoKept.refl.put (by decide +kernel) v
  have stuck (t : State) (b : Bool) : ServoKept l t (t.putB F.QE_HAZ_STAT_FULL b) := ServoKept.refl.put (by decide +kernel) _
  exact (((((free _ _).trans (active _ _)).trans (held _ _)).trans (full _ _)).trans (runs _ _)).trans (stuck _ _)

theorem servoKept_setSlot {k : Nat} {x : Slot} : ServoKept l s (s.setSlot k x) := (mk_qe.servo rfl).trans servoKept_showSlots

theorem servoKept_finish {k : Nat} {r : Result} : ServoKept l s (finish k r s) := by
  have freed : ServoKept l s (freeSlot k s) :=
    (((dropWork_moves.servo rfl).trans (mk_qe.servo rfl)).trans (unstick_moves.servo rfl)).trans servoKept_showSlots
  unfold finish
  split
  · exact .ite .refl (.ite freed servoKept_setSlot)
  · exact .refl

theorem servoKept_failRead {k lba n : Nat} {r : Result} : ServoKept l s (failRead k lba n r s) := by
  unfold failRead
  split
  · exact .ite servoKept_setSlot (servoKept_setSlot.trans servoKept_finish)
  · exact .refl

theorem servoKept_undoDestage {r : WorkReq} : ServoKept l s (undoDestage r s) := by
  have shown (t : State) : ServoKept l t (showDirty t) :=
    (ServoKept.refl.put (f := F.BUF_WC_DIRTY_BLOCKS) (by decide +kernel) _).put (f := F.BUF_WC_MIRR_BLOCKS) (by decide +kernel) _
  have cached (k : Nat) (c : CBlock) (t : State) : ServoKept l t (cacheSet k c t) :=
    .trans (t := t.onBuf (fun b => { b with cache := smSet k c b.cache })) ⟨fun _ _ _ => rfl⟩ (shown _)
  exact .forEach (fun e t => cached _ _ t)

theorem servoKept_journal {e : JEntry} : ServoKept l s (journal e s) := by
  have shown (t : State) : ServoKept l t (showJournal t) :=
    (ServoKept.refl.put (f := F.BND_JNL_STAT_PENDING) (by decide +kernel) _).put (f := F.BND_JNL_STAT_FLUSHING) (by decide +kernel) _
  have told (t : State) : ServoKept l t (jnlSend e t) := by
    unfold jnlSend
    exact .ite .refl ((mk_bat.servo rfl).trans servoKept_batSend)
  exact ((onBnd_moves.servo rfl).trans (shown _)).trans (told _)

theorem servoKept_evalBand {b : Nat} : ServoKept l s (evalBand b s) := by
  have stat : servoBlock R.BND_GC_STAT = false := by decide +kernel
  have level (a : Lane) (t : State) (v : Nat) : ServoKept l t (t.put ⟨R.BND_GC_STAT, 2 * a + 1, 2 * a⟩ v) := ServoKept.refl.put stat v
  have shown (t : State) : ServoKept l t (showMc t) :=
    (ServoKept.refl.put (f := F.BND_MC_STAT_MC_FILL) (by decide +kernel) _).put (f := F.BND_MC_STAT_MCI_USE) (by decide +kernel) _
  have evaluated (a : Lane) : ServoKept l s (evalLevel a s) := by
    unfold evalLevel
    exact .ite (((level a _ _).trans (shown _)).trans (setCredit_moves.servo rfl)) ((level a _ _).trans (shown _))
  unfold evalBand
  dsimp only
  split
  · exact evaluated _
  · exact .refl

theorem servoKept_abandonRewrite {k : Nat} : ServoKept l s (abandonRewrite k s) := by
  have entered (b state : Nat) (t : State) : ServoKept l t (bandState b state t) :=
    ((setBand_moves.servo rfl).trans servoKept_journal).trans servoKept_evalBand
  have freed (b : Nat) (t : State) : ServoKept l t (freeBand b t) := by
    unfold freeBand
    exact (((setBand_moves.servo rfl).trans (entered _ _ _)).trans (skipPatrol_moves.servo rfl)).trans (onBnd_moves.servo rfl)
  unfold abandonRewrite
  split
  · exact ((mk_bnd.servo rfl).trans (setBand_moves.servo rfl)).trans (freed _ _)
  · exact .refl

theorem servoKept_failItem {i : Item} {outcome : Nat} : ServoKept l s (failItem i outcome s) := by
  have copy (t : State) : ServoKept l t (t.flag F.BND_FLT_JNL_COPY) := ServoKept.refl.flag (by decide +kernel)
  unfold failItem
  dsimp only
  split
  · exact servoKept_failRead
  · exact .ite (mk_reports.servo rfl) servoKept_undoDestage
  · exact (onBnd_moves.servo rfl).trans (copy _)
  · exact onBnd_moves.servo rfl
  · refine .ite (mk_reports.servo rfl) ?_
    split
    · exact servoKept_undoDestage.trans servoKept_abandonRewrite
    · exact .refl
  · split
    · exact servoKept_abandonRewrite
    · exact .refl
  · exact .ite (mk_reports.servo rfl) .refl
  · exact servoKept_batSend
  · exact .refl

theorem servoKept_posFail {a : Lane} : ServoKept l s (posFail a s) := by
  have flagged (t : State) : ServoKept l t (t.flag F.RLY_FLT_POS_FAIL) := ServoKept.refl.flag (by decide +kernel)
  have counted (t : State) (k : Nat) : ServoKept l t (t.count F.RLY_CNT_POS_FAIL k) := ServoKept.refl.count (by decide +kernel) k
  have told (n : Lane) (t : State) : ServoKept l t (msInt n 5 t) :=
    ServoKept.refl.put (f := (⟨R.MSn_INT n, 6, 0⟩ : Fld).bit 5) (servoBlock_lane n _ (by simp [Fld.bit])) 1
  unfold posFail
  refine .ite .refl (.trans ?_ (.forEach (fun i t => servoKept_failItem)))
  exact (((servoKept_endFailed.trans (flagged _)).trans (counted _ _)).trans (onAct_moves.servo rfl)).trans ((onMs_moves.servo rfl).trans (told _ _))

/-! ### The report of a trip (R191, R316) -/

/-- From `s` to `t` the mailbox of an engine may have changed, and the registers of the engines stand but for the mailbox's flags and counts. -/
structure OnlyMailbox (s t : State) : Prop where
  sv : ∀ n, ∃ m, t.sv n = { s.sv n with mailbox := m }
  reg : ∀ a, servoBlock a = true → (∀ n : Lane, a ∉ [R.SVn_PACE_STAT n, R.SVn_PACE_CNT n]) → t.reg a = s.reg a

theorem OnlyMailbox.of_kept {t : State} (svs : t.svs = s.svs) (kept : ServoKept [] s t) : OnlyMailbox s t :=
  ⟨fun n => ⟨(s.sv n).mailbox, sv_of_svs svs n⟩, fun a own _ => kept.reg a own (by simp)⟩

theorem OnlyMailbox.trans {t u : State} (h : OnlyMailbox s t) (g : OnlyMailbox t u) : OnlyMailbox s u := by
  refine ⟨fun n => ?_, fun a own apart => (g.reg a own apart).trans (h.reg a own apart)⟩
  obtain ⟨p, first⟩ := h.sv n
  obtain ⟨q, second⟩ := g.sv n
  exact ⟨q, by rw [second, first]⟩

theorem OnlyMailbox.refl : OnlyMailbox s s := .of_kept rfl .refl

/-- An entry from the Relay scheduler is taken, or refused with SRC_REJ (R184). -/
theorem onlyMailbox_mailboxWrite {n : Lane} {fw : Bool} {e : Dword} : OnlyMailbox s (mailboxWrite n fw e s) := by
  have flagged : OnlyMailbox s (s.flag (F.SVn_PACE_STAT_SRC_REJ n)) :=
    ⟨fun m => ⟨(s.sv m).mailbox, sv_of_svs (flag_moves.parts 15 rfl) m⟩, fun a _ apart => regsKept_flag s (F.SVn_PACE_STAT_SRC_REJ n) a (fun at_ =>
      apart n (List.mem_cons.mpr (.inl (List.mem_singleton.mp at_))))⟩
  have counted : OnlyMailbox s (s.count (F.SVn_PACE_CNT_OVERWRITE n)) :=
    ⟨fun m => ⟨(s.sv m).mailbox, sv_count ..⟩, fun a _ apart => regsKept_count s (F.SVn_PACE_CNT_OVERWRITE n) 1 a (fun at_ =>
      apart n (List.mem_cons_of_mem _ at_))⟩
  have filled (t : State) : OnlyMailbox t (t.onSv n (withEntry e)) := by
    refine ⟨fun m => ?_, fun a _ _ => reg_onSv ..⟩
    by_cases here : m = n
    · exact ⟨some e, by rw [here, sv_onSv_same, withEntry]⟩
    · exact ⟨(t.sv m).mailbox, sv_onSv_other here ..⟩
  unfold mailboxWrite
  split
  · exact flagged
  · refine .trans ?_ (filled _)
    split
    · exact counted
    · exact .refl

/-- A target reported as failed is written again, or its items end with POS_FAIL. -/
theorem onlyMailbox_reissueTarget {a : Lane} {tag : BitVec 8} : OnlyMailbox s (reissueTarget a tag s) := by
  have acted (f : Act → Act) (t : State) : OnlyMailbox t (t.onAct a f) := .of_kept (onAct_moves.parts 15 rfl) (onAct_moves.servo rfl)
  have written (e : Dword) (t : State) : OnlyMailbox t (writeTarget a e t) := by
    unfold writeTarget
    dsimp only
    split
    · exact .refl
    · split
      · exact acted _ t
      · exact (acted _ t).trans onlyMailbox_mailboxWrite
  have failed : OnlyMailbox s (posFail a s) := .of_kept (posFail_moves.parts 15 rfl) servoKept_posFail
  unfold reissueTarget
  split
  · split
    · exact .refl
    · split
      · exact (acted _ s).trans (written _ _)
      · exact failed
  · exact .refl

theorem onlyMailbox_reportTrip {n : Lane} {t : Option Dword} : OnlyMailbox s (reportTrip n t s) := by
  cases t with
  | none => exact .refl
  | some e => exact onlyMailbox_reissueTarget

/-- The report of a trip leaves the count of trips and the number allowed. -/
theorem reportTrip_trips (n : Lane) (t : Option Dword) (s : State) :
    ((reportTrip n t s).sv n).trips = (s.sv n).trips ∧ (reportTrip n t s).get (F.SVn_PACE_FE_RETRY n) = s.get (F.SVn_PACE_FE_RETRY n) := by
  have own : ∀ n : Lane, servoBlock (R.SVn_PACE_FE n) = true := by decide +kernel
  have apart : ∀ n m : Lane, R.SVn_PACE_FE n ∉ [R.SVn_PACE_STAT m, R.SVn_PACE_CNT m] := by decide
  obtain ⟨m, sv⟩ := (onlyMailbox_reportTrip (s := s) (n := n) (t := t)).sv n
  refine ⟨by rw [sv], ?_⟩
  rw [State.get, State.get, show (F.SVn_PACE_FE_RETRY n).addr = R.SVn_PACE_FE n from rfl, onlyMailbox_reportTrip.reg _ (own n) (apart n)]

end Sys2Proof.Machine

end

section

/-! PROOF. Targets and the Pacer's tick (R181 to R186, R191, R193, R195): the mailbox filled and read, SEEK entered, and the plans of a tick. -/

namespace Sys2Proof.Machine

variable {n : Lane} {s : State}

/-! ### The mailbox (R183, R184) -/

theorem exec_targetMailboxWrite {fw : Bool} {e : BitVec 64} (accepts : s.accepts (R.SVn_PACE_TGT_LO n) = true) :
    exec (.targetMailboxWrite n fw e) s = .next ((mailboxWrite n fw e s).answer .done) := by
  obtain ⟨early, busy, absent, lost⟩ := accepts_iff.mp accepts
  show Host.Outcome.next (s.command _ _ _) = _
  rw [State.command, write_taken early busy, absent, lost]
  rfl

/-- An entry from the selected source. -/
theorem mailboxWrite_selected {fw : Bool} (e : Dword) (src : s.on (F.SVn_PACE_CTL_SRC n) = fw) :
    mailboxWrite n fw e s = (if (s.sv n).mailbox.isSome then s.count (F.SVn_PACE_CNT_OVERWRITE n) else s).onSv n (withEntry e) :=
  if_neg (by rw [src, bne_self_eq_false]; exact Bool.false_ne_true)

/-- An entry from the other source. -/
theorem mailboxWrite_unselected {fw : Bool} (e : Dword) (src : s.on (F.SVn_PACE_CTL_SRC n) ≠ fw) :
    mailboxWrite n fw e s = s.flag (F.SVn_PACE_STAT_SRC_REJ n) :=
  if_pos (bne_iff_ne.mpr src)

/-- An unread entry that is overwritten is counted. -/
theorem overwrite_counted : ∃ t : State, (if (s.sv n).mailbox.isSome then s.count (F.SVn_PACE_CNT_OVERWRITE n) else s) = t ∧
    t.get (F.SVn_PACE_CNT_OVERWRITE n) = (if (s.sv n).mailbox.isSome then min (s.get (F.SVn_PACE_CNT_OVERWRITE n) + 1)
      (2 ^ (F.SVn_PACE_CNT_OVERWRITE n).width - 1) else s.get (F.SVn_PACE_CNT_OVERWRITE n)) ∧
    regsKept [R.SVn_PACE_CNT n] s t ∧
    Moves 0x1 s t := by
  refine ⟨_, rfl, ?_⟩
  split
  · exact ⟨get_count (of_decide_eq_true rfl) 1, regsKept_count s (F.SVn_PACE_CNT_OVERWRITE n) 1, count_moves⟩
  · exact ⟨rfl, .of_regs rfl, .refl⟩

/-! ### The mailbox read (R185, R193) -/

/-- The engine with its mailbox read. -/
def emptied (v : Sv) : Sv := { v with mailbox := none }

theorem readMailbox_none (empty : (s.sv n).mailbox = none) : readMailbox n s = (none, s) := by rw [readMailbox, empty]

theorem readMailbox_acquire (acquire : motionState s n = Mo.acquire) : readMailbox n s = (none, s) := by
  unfold readMailbox
  split
  · rfl
  · exact if_pos acquire

theorem readMailbox_follow {e : Dword} (entry : (s.sv n).mailbox = some e) (follow : motionState s n = Mo.follow) :
    readMailbox n s = (some e, s.onSv n emptied) := by
  have acquire : ¬ Mo.follow = Mo.acquire := by decide
  simp only [readMailbox, entry, follow, acquire, or_true, ne_eq, not_true_eq_false, false_and, if_false, if_true]
  rfl

/-- In the states in which no target is taken an entry is dropped and counted. -/
theorem readMailbox_drops {e : Dword} (entry : (s.sv n).mailbox = some e)
    (idle : motionState s n ∉ [Mo.acquire, Mo.seek, Mo.settle, Mo.follow]) :
    readMailbox n s = (none, (s.onSv n emptied).count (F.SVn_PACE_CNT_DROP n)) := by
  simp only [List.mem_cons, List.not_mem_nil, or_false, not_or] at idle
  obtain ⟨acquire, seek, settle, follow⟩ := idle
  simp only [readMailbox, entry, acquire, seek, settle, follow, or_false, if_false]
  rfl

/-- An entry dropped: the mailbox is empty and DROP counts. -/
theorem dropped_spec :
    ((s.onSv n emptied).count (F.SVn_PACE_CNT_DROP n)).sv n = { s.sv n with mailbox := none } ∧
      (∀ m, m ≠ n → ((s.onSv n emptied).count (F.SVn_PACE_CNT_DROP n)).sv m = s.sv m) ∧
      ((s.onSv n emptied).count (F.SVn_PACE_CNT_DROP n)).get (F.SVn_PACE_CNT_DROP n) =
        min (s.get (F.SVn_PACE_CNT_DROP n) + 1) (2 ^ (F.SVn_PACE_CNT_DROP n).width - 1) ∧
      regsKept [R.SVn_PACE_CNT n] s ((s.onSv n emptied).count (F.SVn_PACE_CNT_DROP n)) ∧
      onlyParts [.regs, .svs] s ((s.onSv n emptied).count (F.SVn_PACE_CNT_DROP n)) := by
  refine ⟨?_, fun m h => ?_, get_count (of_decide_eq_true rfl) 1, ?_, ?_⟩
  · rw [sv_count, sv_onSv_same, emptied]
  · rw [sv_count, sv_onSv_other h]
  · exact (regsKept.of_regs (regs_onSv ..)).trans (regsKept_count _ (F.SVn_PACE_CNT_DROP n) 1)
  · exact (count_moves.on (onSv_moves.wide (m := 0x8001) rfl) rfl).frame (by decide)

/-! ### A plan (R186, R188) -/

/-- An engine with a new plan. -/
def planned (m : Motion) (target : Rat) (tag : Option (BitVec 8)) (unload : Bool) (v : Sv) : Sv :=
  { v with plan := some ⟨m, planSegs v.vmax v.amax (16 * v.jmax) m target, target, 0, true, tag, unload⟩ }

theorem newPlan_eq (m : Motion) (target : Rat) (tag : Option (BitVec 8)) (unload : Bool) :
    newPlan n m target tag unload s = s.onSv n (planned m target tag unload) := rfl

/-- The 16 bits of an offset read as a signed number and written again. -/
theorem unsigned_signed {x : Nat} (h : x < 2 ^ 16) : unsigned 16 (signed 16 x) = x := by
  unfold unsigned signed
  split <;> omega

/-- An engine that has accepted a target. -/
def aimed (e : Dword) (v : Sv) : Sv := { v with target := some e, aim := tgtTrack e, restartDue := false }

/-- What a target accepted leaves (R185, R186). -/
theorem acceptTarget_spec (m : Motion) (e : Dword) :
    (acceptTarget n m e s).sv n = planned m (tgtPosition e) (some (tgtTag e)) false (aimed e (s.sv n)) ∧
      motionState (acceptTarget n m e s) n = motionState s n ∧
      (acceptTarget n m e s).get (F.SVn_OFS_OFS n) = (e.extractLsb' 32 16).toNat := by
  have apart : ∀ n : Lane, R.SVn_STAT n ∉ [R.SVn_OFS n] := by decide
  have charged (t : State) (a : Lane) (w : Nat) : Moves 0x84000 t (offsetReached n (planCharged a e w t)) :=
    offsetReached_moves.on (planCharged_moves.wide rfl) rfl
  have shown : regsKept [R.SVn_OFS n] s (s.put (F.SVn_OFS_OFS n) (unsigned 16 (tgtOfs e))) := regsKept_put (f := F.SVn_OFS_OFS n) List.mem_cons_self _
  have regs : (acceptTarget n m e s).regs = (s.put (F.SVn_OFS_OFS n) (unsigned 16 (tgtOfs e))).regs := (charged _ _ _).parts 0 rfl
  have get (f : Fld) : (acceptTarget n m e s).get f = (s.put (F.SVn_OFS_OFS n) (unsigned 16 (tgtOfs e))).get f := by
    rw [get_eq, regs, ← get_eq]
  refine ⟨?_, ?_, ?_⟩
  · unfold acceptTarget
    rw [sv_of_svs ((charged _ _ _).parts 15 rfl), newPlan_eq, sv_onSv_same, sv_onSv_same, sv_put]
    rfl
  · exact (get _).trans (shown.get (f := F.SVn_STAT_STATE n) (apart n))
  · rw [get, get_put_same (of_decide_eq_true rfl), tgtOfs, unsigned_signed (BitVec.isLt _)]
    exact Nat.mod_eq_of_lt (BitVec.isLt _)

/-! ### SEEK entered (R181, R190) -/

/-- The limits latched are those of the registers, which a motion state entered leaves. -/
theorem latched_congr {t : State} (h : ServoKept [R.SVn_STAT n, R.SVn_FLT_STAT n] s t) (v : Sv) : latched t n v = latched s n v := by
  have own : ∀ n : Lane, ∀ a ∈ [R.SVn_PACE_VMAX n, R.SVn_PACE_AMAX n, R.SVn_PACE_JMAX n],
      servoBlock a = true ∧ a ∉ [R.SVn_STAT n, R.SVn_FLT_STAT n] := by decide +kernel
  obtain ⟨vOwn, vApart⟩ := own n (R.SVn_PACE_VMAX n) (by simp)
  obtain ⟨aOwn, aApart⟩ := own n (R.SVn_PACE_AMAX n) (by simp)
  obtain ⟨jOwn, jApart⟩ := own n (R.SVn_PACE_JMAX n) (by simp)
  rw [latched, h.get (f := F.SVn_PACE_VMAX_VMAX n) vOwn vApart, h.get (f := F.SVn_PACE_AMAX_AMAX n) aOwn aApart,
    h.get (f := F.SVn_PACE_JMAX_JMAX n) jOwn jApart, latched]

/-- The counts of an engine that enters SEEK. -/
def seeking (v : Sv) : Sv := { v with feCount := 0, settleCount := 0, settleWedges := 0 }

theorem enterSeek_spec (other : motionState s n ≠ Mo.seek) :
    motionState (enterSeek n s) n = Mo.seek ∧ (enterSeek n s).sv n = seeking (latched s n (s.sv n)) := by
  have entered : enterSeek n s = (latchLimits n (setMotion n Mo.seek s)).onSv n seeking := if_neg other
  have counts : ServoKept [] (setMotion n Mo.seek s) (enterSeek n s) := by
    rw [entered]
    exact (latchLimits_moves.servo rfl).trans (onSv_moves.servo rfl)
  refine ⟨?_, ?_⟩
  · exact (counts.get (f := F.SVn_STAT_STATE n) (servoBlock_stat n) (by simp)).trans (motionState_setMotion (by decide))
  · rw [entered, sv_onSv_same, sv_latchLimits, latched_congr servoKept_setMotion, sv_setMotion]

/-! ### The tick (R162, R185, R191, R193, R195) -/

theorem exec_pacerStep_off (off : motionState s n = Mo.off) : exec (.pacerStep n) s = .next (readMailbox n s).2 := congrArg Host.Outcome.next (if_pos off)

theorem exec_pacerStep_tick (runs : servoRuns s n = true) (tick : s.get (F.SVn_LAP_WEDGE n) % 4 = 0) :
    exec (.pacerStep n) s = .next (pacerTick n s).settle := by
  have off : motionState s n ≠ Mo.off := fun off => by simp [servoRuns, off] at runs
  exact congrArg Host.Outcome.next ((if_neg off).trans (if_pos (by rw [runs, tick]; rfl)))

section

variable {t : State}

/-- A tick with nothing due and no entry taken. -/
theorem pacerTick_idle (read : readMailbox n s = (none, t)) (unload : (t.sv n).unloadDue = false) (restart : (t.sv n).restartDue = false) :
    pacerTick n s = t := by
  simp [pacerTick, read, unload, restart]

/-- A tick that accepts an entry with nothing due. -/
theorem pacerTick_accepts {e : Dword} (read : readMailbox n s = (some e, t)) (unload : (t.sv n).unloadDue = false)
    (restart : (t.sv n).restartDue = false) : pacerTick n s = acceptTarget n (refAhead t n) e (enterSeek n t) := by
  simp [pacerTick, read, unload, restart]

/-- The unload track of the SERVO section (R195). -/
def unloadTrack (s : State) : Nat := match servoSec s 0 with | some sec => sec.unloadTrack | none => 0

/-- An engine whose unload plan is built. -/
def unloadPlanned (aim : Nat) (v : Sv) : Sv := { v with unloadDue := false, restartDue := false, aim := aim }

/-- An engine whose restart plan is built. -/
def restartPlanned (aim : Nat) (v : Sv) : Sv := { v with restartDue := false, aim := aim }

theorem pacerTick_unload (read : readMailbox n s = (none, s)) (unload : (s.sv n).unloadDue = true) :
    pacerTick n s = (s.onSv n (unloadPlanned (unloadTrack s))).onSv n
      (planned (if (s.sv n).restartDue then restartState s n else refAhead s n) (unloadTrack s) none true) := by
  rw [pacerTick, read]
  exact if_pos unload

theorem pacerTick_restart (read : readMailbox n s = (none, s)) (unload : (s.sv n).unloadDue = false) (restart : (s.sv n).restartDue = true) :
    pacerTick n s = (s.onSv n (restartPlanned (nearestTrack s n (restartState s n)))).onSv n
      (planned (restartState s n) (nearestTrack s n (restartState s n)) none false) := by
  rw [pacerTick, read]
  exact (if_neg (ne_true_of_eq_false unload)).trans (if_pos restart)

end

/-- An entry taken in FOLLOW begins a seek from the reference in progress. -/
theorem pacerStep_follow {e : Dword} (runs : servoRuns s n = true) (tick : s.get (F.SVn_LAP_WEDGE n) % 4 = 0) (follow : motionState s n = Mo.follow)
    (entry : (s.sv n).mailbox = some e) (unload : (s.sv n).unloadDue = false) (restart : (s.sv n).restartDue = false) :
    ∃ u : State, exec (.pacerStep n) s = .next u.settle ∧
      motionState u n = Mo.seek ∧
      u.sv n = planned (refAhead s n) (tgtPosition e) (some (tgtTag e)) false (aimed e (seeking (latched s n (emptied (s.sv n))))) ∧
      u.get (F.SVn_OFS_OFS n) = (e.extractLsb' 32 16).toNat := by
  have sv : (s.onSv n emptied).sv n = emptied (s.sv n) := sv_onSv_same ..
  have ahead : refAhead (s.onSv n emptied) n = refAhead s n := refAhead_congr (by rw [sv]; rfl) (by rw [sv]; rfl) rfl
  have ticks := pacerTick_accepts (readMailbox_follow entry follow) (by rw [sv]; exact unload) (by rw [sv]; exact restart)
  have still : motionState (s.onSv n emptied) n ≠ Mo.seek := fun seek => absurd (follow.symm.trans seek) (by decide)
  obtain ⟨motion, entered⟩ := enterSeek_spec still
  obtain ⟨svU, motionU, ofs⟩ := acceptTarget_spec (n := n) (s := enterSeek n (s.onSv n emptied)) (refAhead s n) e
  rw [ahead] at ticks
  refine ⟨_, (exec_pacerStep_tick runs tick).trans (by rw [ticks]), motionU.trans motion, ?_, ofs⟩
  rw [svU, entered, sv]
  rfl

/-- A plan that is due, with no entry to take: the unload plan, else the plan to the nearest track. -/
theorem pacerStep_due (runs : servoRuns s n = true) (tick : s.get (F.SVn_LAP_WEDGE n) % 4 = 0) (empty : (s.sv n).mailbox = none)
    (due : (s.sv n).unloadDue = true ∨ (s.sv n).restartDue = true) :
    ∃ (u : State) (f : Sv → Sv), exec (.pacerStep n) s = .next u.settle ∧
      u = s.onSv n f ∧
      (f (s.sv n)).restartDue = false ∧
      (f (s.sv n)).unloadDue = false ∧
      ((s.sv n).unloadDue = true → (f (s.sv n)).plan.map (fun p => (p.target, p.unload)) = some ((unloadTrack s : Rat), true)) ∧
      ((s.sv n).unloadDue = false → (f (s.sv n)).plan.map (fun p => (p.target, p.unload)) = some ((nearestTrack s n (restartState s n) : Rat), false)) ∧
      (f (s.sv n)).plan.map (fun p => p.start) = some (if (s.sv n).restartDue then restartState s n else refAhead s n) := by
  have read := readMailbox_none empty
  cases unload : (s.sv n).unloadDue with
  | true =>
    have ticks := (pacerTick_unload read unload).trans (onSv_onSv ..)
    exact ⟨_, _, (exec_pacerStep_tick runs tick).trans (by rw [ticks]), rfl, rfl, rfl, fun _ => rfl, nofun, rfl⟩
  | false =>
    have restart : (s.sv n).restartDue = true := due.resolve_left (by rw [unload]; exact Bool.false_ne_true)
    have ticks := (pacerTick_restart read unload restart).trans (onSv_onSv ..)
    refine ⟨_, _, (exec_pacerStep_tick runs tick).trans (by rw [ticks]), rfl, rfl, unload, nofun, fun _ => rfl, ?_⟩
    rw [if_pos restart]
    rfl

end Sys2Proof.Machine

end

section

/-! PROOF. The end of a plan, settling, trips and acquisition (R181, R189 to R193): the rows that move an engine among SEEK, SETTLE and FOLLOW. -/

namespace Sys2Proof.Machine

variable {n : Lane} {s : State}

theorem motionState_onSv (f : Sv → Sv) (m : Lane) : motionState (s.onSv n f) m = motionState s m := get_onSv ..

/-- The registers of the Pacer that its rows write or read. -/
theorem servoBlock_pacer (n : Lane) : ∀ a ∈ [R.SVn_PACE_STAT n, R.SVn_PACE_CNT n, R.SVn_PACE_FE n, R.SVn_STAT n], servoBlock a = true := by
  revert n
  decide +kernel

theorem pacerRegs_apart (n : Lane) : R.SVn_PACE_STAT n ∉ [R.SVn_PACE_CNT n] ∧ R.SVn_PACE_CNT n ∉ [R.SVn_PACE_STAT n] ∧
    R.SVn_PACE_FE n ∉ [R.SVn_PACE_STAT n, R.SVn_PACE_CNT n] ∧ R.SVn_STAT n ∉ [R.SVn_PACE_STAT n, R.SVn_PACE_CNT n] ∧
    R.SVn_STAT n ∉ [R.SVn_PACE_STAT n] ∧ R.SVn_PACE_STAT n ∉ [R.SVn_STAT n, R.SVn_FLT_STAT n] := by
  revert n
  decide

/-! ### The end of a plan (R189, R195) -/

/-- A plan without the fresh mark, with no restart due, whose time has passed its length. -/
structure PlanOver (s : State) (n : Lane) (p : Plan) : Prop where
  plan : (s.sv n).plan = some p
  fresh : p.fresh = false
  restart : (s.sv n).restartDue = false
  past : planLength p ≤ p.time

theorem PlanOver.ends {p : Plan} (h : PlanOver s n p) : (p.fresh || (s.sv n).restartDue || decide (p.time < planLength p)) = false := by
  rw [h.fresh, h.restart, decide_eq_false (Rat.not_lt.mpr h.past)]
  rfl

/-- An engine that enters SETTLE. -/
def settling (v : Sv) : Sv := { v with settleCount := 0, settleWedges := 0 }

theorem exec_planEnd_seek {p : Plan} (h : PlanOver s n p) (seek : motionState s n = Mo.seek) :
    exec (.planEnd n) s = .next ((setMotion n Mo.settle s).onSv n settling).settle := by
  show execPlanEnd n s = _
  simp only [execPlanEnd, h.plan, h.ends, Bool.false_eq_true, if_false, if_pos seek]
  rfl

theorem exec_planEnd_unloading {p : Plan} (h : PlanOver s n p) (unloading : motionState s n = Mo.unloading) (unload : p.unload = true) :
    exec (.planEnd n) s = .next (s.onSv n (fun v => { v with uldEnded := true, plan := none })) := by
  have seek : motionState s n ≠ Mo.seek := fun seek => absurd (unloading.symm.trans seek) (by decide)
  show execPlanEnd n s = _
  simp only [execPlanEnd, h.plan, h.ends, Bool.false_eq_true, if_false, if_neg seek, if_pos (And.intro unloading unload)]

theorem exec_planEnd_none (none_ : (s.sv n).plan = none) : exec (.planEnd n) s = .next s := by
  show execPlanEnd n s = _
  rw [execPlanEnd, none_]

/-! ### Following-error trips (R190, R191) -/

/-- What a trip leaves of its engine. -/
def tripped (v : Sv) : Sv := { v with feCount := 0, trips := v.trips + 1, target := none, restartDue := true, settleCount := 0 }

/-- A trip flagged and counted. -/
def tripTold (n : Lane) (s : State) : State :=
  ((s.flag (F.SVn_PACE_STAT_FE_TRIP n)).count (F.SVn_PACE_CNT_FE_TRIPS n)).tally (56 + actOf s n)

/-- A trip whose target is abandoned and not yet reported. -/
def tripState (n : Lane) (s : State) : State := (abandonTarget n (tripTold n s)).onSv n tripped

theorem tripTold_moves : Moves 0xB01 s (tripTold n s) := tally_moves.on (count_moves.on (flag_moves.wide (m := 0xB01) rfl) rfl) rfl

theorem tripState_moves : Moves 0x8B01 s (tripState n s) :=
  onSv_moves.on (abandonTarget_moves.on (tripTold_moves.wide (m := 0x8B01) rfl) rfl) rfl

/-- What a trip leaves beside FE_TRIP and its count. -/
theorem servoKept_tripTold : ServoKept [R.SVn_PACE_STAT n, R.SVn_PACE_CNT n] s (tripTold n s) := by
  have flagged : regsKept [R.SVn_PACE_STAT n] s (s.flag (F.SVn_PACE_STAT_FE_TRIP n)) := regsKept_flag s (F.SVn_PACE_STAT_FE_TRIP n)
  have counted (t : State) : regsKept [R.SVn_PACE_CNT n] t (t.count (F.SVn_PACE_CNT_FE_TRIPS n)) := regsKept_count t (F.SVn_PACE_CNT_FE_TRIPS n) 1
  exact ((flagged.servoKept.mono (by simp)).trans ((counted _).servoKept.mono (by simp))).trans servoKept_tally

theorem tripTold_counts :
    (tripTold n s).get (F.SVn_PACE_STAT_FE_TRIP n) = 1 ∧
      (tripTold n s).get (F.SVn_PACE_CNT_FE_TRIPS n) = min (s.get (F.SVn_PACE_CNT_FE_TRIPS n) + 1) (2 ^ (F.SVn_PACE_CNT_FE_TRIPS n).width - 1) := by
  obtain ⟨statCnt, cntStat, -⟩ := pacerRegs_apart n
  have own := servoBlock_pacer n
  have stat : servoBlock (R.SVn_PACE_STAT n) = true := own _ (by simp)
  have cnt : servoBlock (R.SVn_PACE_CNT n) = true := own _ (by simp)
  have told (t : State) (e : Nat) : ServoKept [] t (t.tally e) := servoKept_tally
  have counted (t : State) : regsKept [R.SVn_PACE_CNT n] t (t.count (F.SVn_PACE_CNT_FE_TRIPS n)) := regsKept_count t (F.SVn_PACE_CNT_FE_TRIPS n) 1
  have flagged : regsKept [R.SVn_PACE_STAT n] s (s.flag (F.SVn_PACE_STAT_FE_TRIP n)) := regsKept_flag s (F.SVn_PACE_STAT_FE_TRIP n)
  refine ⟨?_, ?_⟩
  · rw [tripTold, (told _ _).get (f := F.SVn_PACE_STAT_FE_TRIP n) stat (by simp), (counted _).get (f := F.SVn_PACE_STAT_FE_TRIP n) statCnt,
      get_flag (of_decide_eq_true rfl)]
    rfl
  · rw [tripTold, (told _ _).get (f := F.SVn_PACE_CNT_FE_TRIPS n) cnt (by simp), get_count (of_decide_eq_true rfl),
      flagged.get (f := F.SVn_PACE_CNT_FE_TRIPS n) cntStat]

/-- A trip abandons the target: the engine's interrupt line rises where there was one, and a restart is due. -/
theorem tripState_spec (flying : motionState s n = Mo.seek ∨ motionState s n = Mo.settle) :
    (tripState n s).sv n = tripped (s.sv n) ∧
      (∀ m, m ≠ n → (tripState n s).sv m = s.sv m) ∧
      motionState (tripState n s) n = motionState s n ∧
      ((s.sv n).target.isSome = true → (tripState n s).ccx.irq.getLsbD (9 + n) = true) ∧
      ServoKept [] (tripTold n s) (tripState n s) := by
  obtain ⟨-, -, -, stat, -⟩ := pacerRegs_apart n
  have told (m : Lane) : (tripTold n s).sv m = s.sv m := sv_of_svs (tripTold_moves.parts 15 rfl) m
  have abandoned (m : Lane) : (abandonTarget n (tripTold n s)).sv m = s.sv m := (sv_of_svs (abandonTarget_moves.parts 15 rfl) m).trans (told m)
  have motion : motionState (tripTold n s) n = motionState s n := servoKept_tripTold.get (f := F.SVn_STAT_STATE n) (servoBlock_stat n) stat
  have kept : ServoKept [] (tripTold n s) (tripState n s) := servoKept_abandonTarget.trans (onSv_moves.servo rfl)
  refine ⟨?_, fun m h => ?_, ?_, fun target => ?_, kept⟩
  · rw [tripState, sv_onSv_same, abandoned]
  · rw [tripState, sv_onSv_other h, abandoned]
  · exact (kept.get (f := F.SVn_STAT_STATE n) (servoBlock_stat n) (by simp)).trans motion
  · have given : abandonTarget n (tripTold n s) = (tripTold n s).irq (9 + n) := by
      refine if_pos ?_
      rw [motion, told, target, Bool.and_true, Bool.or_eq_true, beq_iff_eq, beq_iff_eq]
      exact flying
    have line : ((tripTold n s).irq (9 + n)).ccx.irq.getLsbD (9 + n) = true := irq_getLsbD_same _ (by omega)
    rw [← given] at line
    exact line

/-- A trip: the target reported, and after the last allowed trip the heads retract. -/
theorem exec_feTrip (flying : motionState s n = Mo.seek ∨ motionState s n = Mo.settle) (restart : (s.sv n).restartDue = false)
    (reached : max 1 (s.get (F.SVn_PACE_FE_WEDGES n)) ≤ (s.sv n).feCount) :
    exec (.feTrip n) s = .next ((if (s.sv n).trips + 1 < max 1 (s.get (F.SVn_PACE_FE_RETRY n)) then reportTrip n (s.sv n).target (tripState n s)
      else svRetract n ((reportTrip n (s.sv n).target (tripState n s)).flag (F.SVn_PACE_STAT_FE_RETRACT n))).settle) := by
  obtain ⟨sv, -, -, -, kept⟩ := tripState_spec flying
  obtain ⟨-, -, fe, -⟩ := pacerRegs_apart n
  have own : servoBlock (R.SVn_PACE_FE n) = true := servoBlock_pacer n _ (by simp)
  obtain ⟨trips, retry⟩ := reportTrip_trips n (s.sv n).target (tripState n s)
  have allowed : (tripState n s).get (F.SVn_PACE_FE_RETRY n) = s.get (F.SVn_PACE_FE_RETRY n) :=
    (kept.get (f := F.SVn_PACE_FE_RETRY n) own (by simp)).trans (servoKept_tripTold.get (f := F.SVn_PACE_FE_RETRY n) own fe)
  rw [sv] at trips
  rw [allowed] at retry
  have acts : exec (.feTrip n) s =
      if ((reportTrip n (s.sv n).target (tripState n s)).sv n).trips <
          max 1 ((reportTrip n (s.sv n).target (tripState n s)).get (F.SVn_PACE_FE_RETRY n)) then
        .next (reportTrip n (s.sv n).target (tripState n s)).settle
      else .next (svRetract n ((reportTrip n (s.sv n).target (tripState n s)).flag (F.SVn_PACE_STAT_FE_RETRACT n))).settle := by
    refine if_neg ?_
    rw [restart]
    rintro (other | due | below)
    · exact flying.elim other.1 other.2
    · cases due
    · exact absurd reached (Nat.not_le.mpr below)
  rw [acts, trips, retry, apply_ite State.settle, apply_ite Host.Outcome.next]
  rfl

theorem exec_feTrip_other (other : motionState s n ∉ [Mo.seek, Mo.settle]) : exec (.feTrip n) s = .next s := by
  simp only [List.mem_cons, List.not_mem_nil, or_false, not_or] at other
  exact if_pos (.inl other)

/-! ### Settling (R193) -/

theorem irq_getLsbD_flag {k : Nat} (h : s.ccx.irq.getLsbD k = true) (f : Fld) : (s.flag f).ccx.irq.getLsbD k = true := by
  unfold State.flag
  dsimp only
  split
  · exact h
  · cases flagSource f.addr <;> dsimp only <;> split
    · exact h
    · exact h
    · exact irq_getLsbD_mono (s := s.put f _) h _
    · exact irq_getLsbD_mono (s := s.put f _) h _

/-- A tally leaves what is pending. -/
theorem irq_getLsbD_tally {k : Nat} (h : s.ccx.irq.getLsbD k = true) (e : Nat) : (s.tally e).ccx.irq.getLsbD k = true := by
  unfold State.tally
  split
  · unfold State.tlyUpdate
    dsimp only
    split
    · exact h
    · exact irq_getLsbD_flag h _
  · exact h

/-- FOLLOW shown with the TAG of the target that the plan serves, the engine's interrupt line raised (R193, R441). -/
def followShown (n : Lane) (tag : BitVec 8) (s : State) : State :=
  ((s.put (F.SVn_STAT_STATE n) Mo.follow).put (F.SVn_PACE_STAT_TAG n) tag.toNat).irq (9 + n)

/-- A load that reaches FOLLOW is counted (R573). -/
def loadCounted (n : Lane) (attempt : Nat) (s : State) : State := if 0 < attempt then s.tally (8 + actOf s n) else s

/-- An engine that has reached FOLLOW. -/
def following (v : Sv) : Sv := { v with attempt := 0, trips := 0 }

/-- The state of an engine that has settled, before the chip settles. -/
def followEntered (n : Lane) (tag : BitVec 8) (s : State) : State :=
  let t := (loadCounted n (s.sv n).attempt (followShown n tag s)).onSv n following
  followCharged (actOf t n) (s.sv n).wedges t

theorem exec_settleDone {p : Plan} {tag : BitVec 8} (settle : motionState s n = Mo.settle) (restart : (s.sv n).restartDue = false)
    (reached : max 1 (s.get (F.SVn_PACE_SETTLE_WEDGES n)) ≤ (s.sv n).settleCount) (plan : (s.sv n).plan = some p) (serves : p.tag = some tag) :
    exec (.settleDone n) s = .next (followEntered n tag s).settle := by
  have done : ¬ (motionState s n ≠ Mo.settle ∨ (s.sv n).restartDue ∨ (s.sv n).settleCount < max 1 (s.get (F.SVn_PACE_SETTLE_WEDGES n))) := by
    rw [restart]
    rintro (other | due | below)
    · exact other settle
    · cases due
    · exact absurd reached (Nat.not_le.mpr below)
  have tagged : (s.sv n).plan.bind (fun p => p.tag) = some tag := by rw [plan, Option.bind_some, serves]
  show execSettleDone n s = _
  simp only [execSettleDone, if_neg done, tagged]
  rfl

theorem get_irq (k : Nat) (f : Fld) : (s.irq k).get f = s.get f := by rw [State.get, reg_irq, State.get]

theorem followShown_spec (tag : BitVec 8) :
    motionState (followShown n tag s) n = Mo.follow ∧
      (followShown n tag s).get (F.SVn_PACE_STAT_TAG n) = tag.toNat ∧
      (followShown n tag s).ccx.irq.getLsbD (9 + n) = true ∧
      regsKept [R.SVn_STAT n, R.SVn_PACE_STAT n] s (followShown n tag s) ∧
      Moves 0x801 s (followShown n tag s) := by
  obtain ⟨-, -, -, -, stat, -⟩ := pacerRegs_apart n
  have moved (t : State) : regsKept [R.SVn_STAT n] t (t.put (F.SVn_STAT_STATE n) Mo.follow) := regsKept_put (f := F.SVn_STAT_STATE n) List.mem_cons_self _
  have tagged (t : State) : regsKept [R.SVn_PACE_STAT n] t (t.put (F.SVn_PACE_STAT_TAG n) tag.toNat) :=
    regsKept_put (f := F.SVn_PACE_STAT_TAG n) List.mem_cons_self _
  refine ⟨?_, ?_, irq_getLsbD_same _ (by omega), ?_, ?_⟩
  · rw [motionState, followShown, get_irq, (tagged _).get (f := F.SVn_STAT_STATE n) stat, get_put_same (of_decide_eq_true rfl)]
    rfl
  · rw [followShown, get_irq, get_put_same (of_decide_eq_true rfl)]
    exact Nat.mod_eq_of_lt (BitVec.isLt _)
  · exact (((moved s).mono (by simp)).trans ((tagged _).mono (by simp))).trans (.of_regs rfl)
  · exact irq_moves.on (put_moves.on (put_moves.wide (m := 0x801) rfl) rfl) rfl

theorem loadCounted_moves (attempt : Nat) : Moves 0xB01 s (loadCounted n attempt s) := by
  unfold loadCounted
  split
  · exact tally_moves
  · exact .refl

theorem servoKept_loadCounted (attempt : Nat) : ServoKept [] s (loadCounted n attempt s) := .ite servoKept_tally .refl

/-- Enough settled wedges bring FOLLOW. -/
theorem settleDone_follows {p : Plan} {tag : BitVec 8} (settle : motionState s n = Mo.settle) (restart : (s.sv n).restartDue = false)
    (reached : max 1 (s.get (F.SVn_PACE_SETTLE_WEDGES n)) ≤ (s.sv n).settleCount) (plan : (s.sv n).plan = some p) (serves : p.tag = some tag) :
    ∃ u : State, exec (.settleDone n) s = .next u.settle ∧
      motionState u n = Mo.follow ∧
      u.get (F.SVn_PACE_STAT_TAG n) = tag.toNat ∧
      u.ccx.irq.getLsbD (9 + n) = true ∧
      u.sv n = { s.sv n with attempt := 0, trips := 0 } ∧
      (∀ m, m ≠ n → u.sv m = s.sv m) ∧
      ((s.sv n).attempt = 0 → regsKept [R.SVn_STAT n, R.SVn_PACE_STAT n] s u ∧ u.tly = s.tly) ∧
      onlyParts [.regs, .ccx, .svs, .rly, .tly, .evr] s u := by
  obtain ⟨motion, shown, line, kept, moved⟩ := followShown_spec (n := n) (s := s) tag
  have pace : servoBlock (R.SVn_PACE_STAT n) = true := servoBlock_pacer n _ (by simp)
  have counted := loadCounted_moves (n := n) (s := followShown n tag s) (s.sv n).attempt
  have last : Moves 0x88000 (loadCounted n (s.sv n).attempt (followShown n tag s)) (followEntered n tag s) :=
    followCharged_moves.on (onSv_moves.wide (m := 0x88000) rfl) rfl
  have lastSv (m : Lane) : (followEntered n tag s).sv m = ((loadCounted n (s.sv n).attempt (followShown n tag s)).onSv n following).sv m :=
    sv_of_svs (followCharged_moves.parts 15 rfl) m
  have before (m : Lane) : (loadCounted n (s.sv n).attempt (followShown n tag s)).sv m = s.sv m :=
    (sv_of_svs (counted.parts 15 rfl) m).trans (sv_of_svs (moved.parts 15 rfl) m)
  have regs : ServoKept [] (followShown n tag s) (followEntered n tag s) := (servoKept_loadCounted _).trans (last.servo rfl)
  refine ⟨_, exec_settleDone settle restart reached plan serves, ?_, ?_, ?_, ?_, fun m h => ?_, fun first => ?_, ?_⟩
  · exact (regs.get (f := F.SVn_STAT_STATE n) (servoBlock_stat n) (by simp)).trans motion
  · exact (regs.get (f := F.SVn_PACE_STAT_TAG n) pace (by simp)).trans shown
  · rw [last.parts 11 rfl, loadCounted]
    split
    · exact irq_getLsbD_tally line _
    · exact line
  · rw [lastSv, sv_onSv_same, before, following]
  · rw [lastSv, sv_onSv_other h, before]
  · have alone : loadCounted n (s.sv n).attempt (followShown n tag s) = followShown n tag s := if_neg (by omega)
    rw [alone] at last
    exact ⟨kept.trans (last.regsKept rfl), (moved.parts 9 rfl).trans (last.parts 9 rfl)⟩
  · exact (last.on (counted.on (moved.wide (m := 0x88B01) rfl) rfl) rfl).frame (by decide)

theorem exec_settleDone_other (other : motionState s n ≠ Mo.settle) : exec (.settleDone n) s = .next s := if_pos (.inl other)

/-- A settle that lasts too long is flagged and counted. -/
theorem settleTimeout_counted (settle : motionState s n = Mo.settle) (limited : s.get (F.SVn_PACE_SETTLE_MAX n) ≠ 0)
    (late : s.get (F.SVn_PACE_SETTLE_MAX n) ≤ (s.sv n).settleWedges) :
    ∃ t : State, exec (.settleTimeout n) s = .next t ∧
      t.get (F.SVn_PACE_STAT_SETTLE_TO n) = 1 ∧
      t.get (F.SVn_PACE_CNT_SETTLE_TO n) = min (s.get (F.SVn_PACE_CNT_SETTLE_TO n) + 1) (2 ^ (F.SVn_PACE_CNT_SETTLE_TO n).width - 1) ∧
      regsKept [R.SVn_PACE_STAT n, R.SVn_PACE_CNT n] s t ∧
      onlyParts [.regs, .ccx, .evr] s t := by
  obtain ⟨statCnt, cntStat, -⟩ := pacerRegs_apart n
  have flagged : regsKept [R.SVn_PACE_STAT n] s (s.flag (F.SVn_PACE_STAT_SETTLE_TO n)) := regsKept_flag s (F.SVn_PACE_STAT_SETTLE_TO n)
  have counted (t : State) : regsKept [R.SVn_PACE_CNT n] t (t.count (F.SVn_PACE_CNT_SETTLE_TO n)) := regsKept_count t (F.SVn_PACE_CNT_SETTLE_TO n) 1
  refine ⟨(s.flag (F.SVn_PACE_STAT_SETTLE_TO n)).count (F.SVn_PACE_CNT_SETTLE_TO n), if_neg ?_, ?_, ?_, ?_, ?_⟩
  · rintro (other | zero | early)
    · exact other settle
    · exact limited zero
    · exact absurd late (Nat.not_le.mpr early)
  · rw [(counted _).get (f := F.SVn_PACE_STAT_SETTLE_TO n) statCnt, get_flag (of_decide_eq_true rfl)]
    rfl
  · rw [get_count (of_decide_eq_true rfl), flagged.get (f := F.SVn_PACE_CNT_SETTLE_TO n) cntStat]
  · exact (flagged.mono (by simp)).trans ((counted _).mono (by simp))
  · exact (count_moves.on (flag_moves.wide (m := 0x901) rfl) rfl).frame (by decide)

theorem exec_settleTimeout_other (other : motionState s n ≠ Mo.settle) : exec (.settleTimeout n) s = .next s := if_pos (.inl other)

/-! ### Acquisition (R192, R193) -/

/-- An engine whose acquisition has ended. -/
def acquired (v : Sv) : Sv := { v with acqCount := 0, restartDue := true, plan := none, target := none }

theorem exec_acquireDone (acquire : motionState s n = Mo.acquire) (reached : max 1 (s.get (F.SVn_PACE_LOAD_ACQ_WEDGES n)) ≤ (s.sv n).acqCount) :
    exec (.acquireDone n) s = .next ((enterSeek n s).onSv n acquired).settle := by
  refine if_neg ?_
  rintro (other | below)
  · exact other acquire
  · exact absurd reached (Nat.not_le.mpr below)

/-- Acquisition ends in SEEK, the limits latched and a restart due. -/
theorem acquireDone_seeks (acquire : motionState s n = Mo.acquire) :
    motionState ((enterSeek n s).onSv n acquired) n = Mo.seek ∧
      ((enterSeek n s).onSv n acquired).sv n = acquired (seeking (latched s n (s.sv n))) ∧
      Moves 0x1C08EB01 s ((enterSeek n s).onSv n acquired) := by
  obtain ⟨motion, sv⟩ := enterSeek_spec (n := n) (s := s) (fun seek => absurd (acquire.symm.trans seek) (by decide))
  exact ⟨by rw [motionState_onSv, motion], by rw [sv_onSv_same, sv], onSv_moves.on enterSeek_moves rfl⟩

theorem exec_acquireDone_other (other : motionState s n ≠ Mo.acquire) : exec (.acquireDone n) s = .next s := if_pos (.inl other)

end Sys2Proof.Machine

end

section

/-! PROOF. The ends of loads and of RET_TIME (R192, R194, R195), and the rows of the Pacer and the motion states together. -/

namespace Sys2Proof.Machine

variable {n : Lane} {s : State}

/-! ### A load that times out (R194) -/

/-- A load is timed in the states before FOLLOW, in which the heads fly. -/
theorem flies_of_timed (timed : motionState s n ∈ [Mo.loading, Mo.acquire, Mo.seek, Mo.settle]) : Flies s n := by
  simp only [List.mem_cons, List.not_mem_nil, or_false] at timed
  unfold Flies
  obtain h | h | h | h := timed <;> rw [h] <;> decide

/-- An engine that retracts to try its load again. -/
def tryingAgain (attempt : Nat) (v : Sv) : Sv := { v with attempt := attempt, again := true }

theorem exec_loadTimeout_retry (timed : motionState s n ∈ [Mo.loading, Mo.acquire, Mo.seek, Mo.settle]) (loads : 1 ≤ (s.sv n).attempt)
    (retries : (s.sv n).attempt ≤ s.get (F.SVn_PACE_LOAD_RETRY n)) :
    exec (.loadTimeout n) s = .next ((svRetract n s).onSv n (tryingAgain (s.sv n).attempt)).settle := by
  simp only [List.mem_cons, List.not_mem_nil, or_false] at timed
  exact (if_neg (by omega)).trans (if_neg (by omega))

theorem exec_loadTimeout_last (timed : motionState s n ∈ [Mo.loading, Mo.acquire, Mo.seek, Mo.settle])
    (last : s.get (F.SVn_PACE_LOAD_RETRY n) < (s.sv n).attempt) :
    exec (.loadTimeout n) s = .next ((svRetract n (s.flag (F.SVn_PACE_STAT_LOAD_FAIL n))).loseUnit0 (12 + n)) := by
  simp only [List.mem_cons, List.not_mem_nil, or_false] at timed
  exact (if_neg (by omega)).trans (if_pos (by omega))

theorem exec_loadTimeout_other (other : motionState s n ∉ [Mo.loading, Mo.acquire, Mo.seek, Mo.settle]) : exec (.loadTimeout n) s = .next s := by
  simp only [List.mem_cons, List.not_mem_nil, or_false, not_or] at other
  exact if_pos (.inr other)

/-- The retract between two attempts of a load keeps the attempt. -/
theorem loadRetry_retracts (flies : Flies s n) (attempt : Nat) :
    motionState ((svRetract n s).onSv n (tryingAgain attempt)) n = Mo.retract ∧
      ((svRetract n s).onSv n (tryingAgain attempt)).sv n = tryingAgain attempt (retracted (s.sv n)) ∧
      Moves 0x1C08EB01 s ((svRetract n s).onSv n (tryingAgain attempt)) := by
  obtain ⟨motion, sv, -⟩ := svRetract_spec flies
  exact ⟨by rw [motionState_onSv, motion], by rw [sv_onSv_same, sv], onSv_moves.on svRetract_moves rfl⟩

/-- The retract after the last attempt, with LOAD_FAIL shown. -/
theorem loadFail_retracts (flies : Flies s n) :
    motionState (svRetract n (s.flag (F.SVn_PACE_STAT_LOAD_FAIL n))) n = Mo.retract ∧
      ((svRetract n (s.flag (F.SVn_PACE_STAT_LOAD_FAIL n))).sv n).attempt = 0 ∧
      (svRetract n (s.flag (F.SVn_PACE_STAT_LOAD_FAIL n))).get (F.SVn_PACE_STAT_LOAD_FAIL n) = 1 := by
  obtain ⟨-, -, -, -, stat, pace⟩ := pacerRegs_apart n
  have own : servoBlock (R.SVn_PACE_STAT n) = true := servoBlock_pacer n _ (by simp)
  have flagged : regsKept [R.SVn_PACE_STAT n] s (s.flag (F.SVn_PACE_STAT_LOAD_FAIL n)) := regsKept_flag s (F.SVn_PACE_STAT_LOAD_FAIL n)
  have still : motionState (s.flag (F.SVn_PACE_STAT_LOAD_FAIL n)) n = motionState s n := flagged.get (f := F.SVn_STAT_STATE n) stat
  obtain ⟨motion, sv, -, -, kept⟩ := svRetract_spec (n := n) (s := s.flag (F.SVn_PACE_STAT_LOAD_FAIL n)) (by rw [Flies, still]; exact flies)
  refine ⟨motion, congrArg Sv.attempt sv, ?_⟩
  rw [kept.get (f := F.SVn_PACE_STAT_LOAD_FAIL n) own pace, get_flag (of_decide_eq_true rfl)]
  rfl

/-! ### The end of RET_TIME (R192, R194, R195) -/

/-- An engine parked between two attempts of a load. -/
def betweenLoads (v : Sv) : Sv := { v with attempt := 0, again := false }

/-- An engine in PARKED whose load is to be tried again. -/
def reparked (n : Lane) (s : State) : State := (setMotion n Mo.parked s).onSv n betweenLoads

/-- The state of an engine whose retract has ended, before the chip settles. -/
def retractEnded (n : Lane) (s : State) : State :=
  if s.glb.lost0.getLsbD (12 + n) || !s.on F.MOT_STAT_LINK_UP then setMotion n Mo.fault s
  else if (s.sv n).again then if speedReady (reparked n s) then svLoad n ((s.sv n).attempt + 1) (reparked n s) else reparked n s
  else setMotion n Mo.parked s

theorem exec_retractTimeEnd_retract (retract : motionState s n = Mo.retract) (power : s.on F.GLB_MODE_COND_POWER_FAIL = false) :
    exec (.retractTimeEnd n) s = .next (retractEnded n s).settle := by
  have unloading : ¬ (motionState s n = Mo.unloading ∧ (s.sv n).uldEnded = true) := fun h => absurd (retract.symm.trans h.1) (by decide)
  show execRetractTimeEnd n s = _
  rw [execRetractTimeEnd, if_neg unloading, if_pos ⟨retract, by rw [power]; rfl⟩, retractEnded, apply_ite State.settle, apply_ite Host.Outcome.next,
    apply_ite State.settle (P := (s.sv n).again = true), apply_ite Host.Outcome.next (P := (s.sv n).again = true)]
  rfl

theorem reparked_spec :
    motionState (reparked n s) n = Mo.parked ∧
      ServoKept [R.SVn_STAT n, R.SVn_FLT_STAT n] s (reparked n s) ∧
      speedReady (reparked n s) = speedReady s ∧
      Moves 0x1C08EB01 s (reparked n s) := by
  obtain ⟨motion, -, kept⟩ := enters_spec (n := n) (s := s) (st := Mo.parked) (by decide) betweenLoads
  have moved : Moves 0x1C08EB01 s (reparked n s) := onSv_moves.on (setMotion_moves.wide (m := 0x1C08EB01) rfl) rfl
  exact ⟨motion, kept, speedReady_congr (moved.parts 18 rfl) (headSide_setMotion.trans (onSv_moves.headSide rfl)), moved⟩

theorem retractEnded_fault (failed : s.glb.lost0.getLsbD (12 + n) = true ∨ s.on F.MOT_STAT_LINK_UP = false) : retractEnded n s = setMotion n Mo.fault s :=
  if_pos (by rw [Bool.or_eq_true, Bool.not_eq_true']; exact failed)

section

variable (present : s.glb.lost0.getLsbD (12 + n) = false) (up : s.on F.MOT_STAT_LINK_UP = true)

include present up

theorem retractEnded_parked (once : (s.sv n).again = false) : retractEnded n s = setMotion n Mo.parked s := by
  rw [retractEnded, if_neg (by rw [present, up]; exact Bool.false_ne_true), if_neg (ne_true_of_eq_false once)]

theorem retractEnded_waits (again : (s.sv n).again = true) (slow : speedReady s = false) : retractEnded n s = reparked n s := by
  obtain ⟨-, -, speed, -⟩ := reparked_spec (n := n) (s := s)
  rw [retractEnded, if_neg (by rw [present, up]; exact Bool.false_ne_true), if_pos again, if_neg (by rw [speed, slow]; exact Bool.false_ne_true)]

theorem retractEnded_loads (again : (s.sv n).again = true) (ready : speedReady s = true) :
    retractEnded n s = svLoad n ((s.sv n).attempt + 1) (reparked n s) := by
  obtain ⟨-, -, speed, -⟩ := reparked_spec (n := n) (s := s)
  rw [retractEnded, if_neg (by rw [present, up]; exact Bool.false_ne_true), if_pos again, if_pos (speed.trans ready)]

/-- The end of the retract parks the engine, or begins the next attempt of its load. -/
theorem motionState_retractEnded : motionState (retractEnded n s) n = if (s.sv n).again && speedReady s then Mo.loading else Mo.parked := by
  cases again : (s.sv n).again with
  | false =>
    rw [retractEnded_parked present up again]
    exact motionState_setMotion (by decide)
  | true =>
    cases ready : speedReady s with
    | false =>
      rw [retractEnded_waits present up again ready]
      exact reparked_spec.1
    | true =>
      rw [retractEnded_loads present up again ready]
      exact (svLoad_spec _).1

end

/-- What the end of a retract leaves beside the state and WR_UNSAFE of its engine. -/
theorem retractEnded_kept : ServoKept [R.SVn_STAT n, R.SVn_FLT_STAT n] s (retractEnded n s) ∧ Moves 0x1C08EB01 s (retractEnded n s) := by
  obtain ⟨-, kept, -, moved⟩ := reparked_spec (n := n) (s := s)
  obtain ⟨-, -, loads⟩ := svLoad_spec (n := n) (s := reparked n s) ((s.sv n).attempt + 1)
  unfold retractEnded
  refine ⟨.ite servoKept_setMotion (.ite (.ite (kept.trans loads) kept) servoKept_setMotion), ?_⟩
  split
  · exact setMotion_moves.wide rfl
  · split
    · split
      · exact svLoad_moves.on moved rfl
      · exact moved
    · exact setMotion_moves.wide rfl

/-- An engine whose unload has ended. -/
def unloadEnded (v : Sv) : Sv := { v with uldEnded := false }

theorem exec_retractTimeEnd_unloading (unloading : motionState s n = Mo.unloading) (ended : (s.sv n).uldEnded = true) :
    exec (.retractTimeEnd n) s = .next (((setMotion n Mo.parked s).tally (12 + actOf s n)).onSv n unloadEnded).settle :=
  if_pos ⟨unloading, ended⟩

theorem unloadEnded_parks (e : Nat) :
    motionState (((setMotion n Mo.parked s).tally e).onSv n unloadEnded) n = Mo.parked ∧
      ((((setMotion n Mo.parked s).tally e).onSv n unloadEnded).sv n).uldEnded = false ∧
      ServoKept [R.SVn_STAT n, R.SVn_FLT_STAT n] s (((setMotion n Mo.parked s).tally e).onSv n unloadEnded) := by
  have told : ServoKept [] (setMotion n Mo.parked s) (((setMotion n Mo.parked s).tally e).onSv n unloadEnded) :=
    servoKept_tally.trans (onSv_moves.servo rfl)
  refine ⟨?_, ?_, servoKept_setMotion.trans (told.mono (by simp))⟩
  · exact (told.get (f := F.SVn_STAT_STATE n) (servoBlock_stat n) (by simp)).trans (motionState_setMotion (by decide))
  · rw [sv_onSv_same, unloadEnded]

theorem exec_retractTimeEnd_other (other : motionState s n ∉ [Mo.retract, Mo.unloading]) :
    exec (.retractTimeEnd n) s = .next (s.onSv n (fun v => { v with offRetract := false })) := by
  simp only [List.mem_cons, List.not_mem_nil, or_false, not_or] at other
  exact (if_neg (fun h => other.2 h.1)).trans (if_neg (fun h => other.1 h.1))

/-- A tick in a state in which no target is taken. -/
theorem exec_pacerStep_drops {e : Dword} (entry : (s.sv n).mailbox = some e)
    (idle : motionState s n = Mo.off ∨ (servoRuns s n = true ∧ s.get (F.SVn_LAP_WEDGE n) % 4 = 0 ∧ motionState s n ∈
      [Mo.parked, Mo.fault, Mo.retract, Mo.unloading, Mo.loading] ∧ (s.sv n).unloadDue = false ∧ (s.sv n).restartDue = false)) :
    exec (.pacerStep n) s = .next (if motionState s n = Mo.off then (s.onSv n emptied).count (F.SVn_PACE_CNT_DROP n)
      else ((s.onSv n emptied).count (F.SVn_PACE_CNT_DROP n)).settle) := by
  obtain ⟨sv, -⟩ := dropped_spec (n := n) (s := s)
  by_cases off : motionState s n = Mo.off
  · have read := readMailbox_drops entry (by rw [off]; decide)
    rw [exec_pacerStep_off off, read, if_pos off]
  · obtain ⟨runs, tick, state, unload, restart⟩ := idle.resolve_left off
    have read := readMailbox_drops entry fun flying => by
      simp only [List.mem_cons, List.not_mem_nil, or_false] at state flying
      obtain h | h | h | h | h := state <;> rw [h] at flying <;> exact absurd flying (by decide)
    have ticks : pacerTick n s = (s.onSv n emptied).count (F.SVn_PACE_CNT_DROP n) :=
      pacerTick_idle read (by rw [sv]; exact unload) (by rw [sv]; exact restart)
    rw [exec_pacerStep_tick runs tick, ticks, if_neg off]

/-- Settles O16: a lemma for each row, which says what it does and where it does nothing. -/
theorem pacerPlansSettlesAndLoads : Obligations.PacerPlansSettlesAndLoads := by
  unfold Obligations.PacerPlansSettlesAndLoads
  refine ⟨?mailbox, ?refused, ?follow, ?drop, ?acquire, ?due, ?planEnd, ?unloadEnd, ?trip, ?settled, ?late, ?acquired, ?retry, ?fail, ?retracted,
    ?unloaded, ?idle⟩
  case mailbox =>
    intro n fw e s accepts src
    obtain ⟨t, counts, overwrite, kept, moved⟩ := overwrite_counted (n := n) (s := s)
    have takes := (exec_targetMailboxWrite accepts).trans (by rw [mailboxWrite_selected e src, counts])
    have before (m : Lane) : t.sv m = s.sv m := sv_of_svs (moved.parts 15 rfl) m
    refine ⟨t.onSv n (withEntry e), takes, ?_, fun m h => ?_, ?_, kept.trans (.of_regs (regs_onSv ..)),
      (onSv_moves.on (moved.wide (m := 0x8001) rfl) rfl).frame (by decide)⟩
    · rw [sv_onSv_same, before, withEntry]
    · rw [sv_onSv_other h, before]
    · rw [get_onSv, overwrite]
  case refused =>
    intro n fw e s accepts src
    exact (exec_targetMailboxWrite accepts).trans (by rw [mailboxWrite_unselected e src])
  case follow =>
    intro n e s runs tick follow entry unload restart _
    obtain ⟨u, steps, motion, sv, ofs⟩ := pacerStep_follow runs tick follow entry unload restart
    refine ⟨u, steps, motion, ?_, ?_, ?_, ?_, ?_, ?_, ofs⟩ <;> rw [sv] <;> rfl
  case drop =>
    intro n e s idle entry
    exact ⟨_, exec_pacerStep_drops entry idle, dropped_spec⟩
  case acquire =>
    intro n s runs tick acquire unload restart
    rw [exec_pacerStep_tick runs tick, pacerTick_idle (readMailbox_acquire acquire) unload restart]
  case due =>
    intro n s runs tick empty due
    obtain ⟨u, f, steps, rfl, restart, unload, unloads, restarts, start⟩ := pacerStep_due runs tick empty due
    have sv : (s.onSv n f).sv n = f (s.sv n) := sv_onSv_same ..
    refine ⟨_, steps, ?_, ?_, ?_, ?_, ?_, regs_onSv .., fun m h => sv_onSv_other h .., (onSv_moves.wide (m := 0x8000) rfl).frame (by decide)⟩ <;> rw [sv]
    · exact restart
    · exact unload
    · exact unloads
    · exact restarts
    · exact start
  case planEnd =>
    intro n p s plan fresh restart past seek
    obtain ⟨motion, sv, kept⟩ := enters_spec (n := n) (s := s) (st := Mo.settle) (by decide) settling
    exact ⟨_, exec_planEnd_seek ⟨plan, fresh, restart, past⟩ seek, motion, congrArg Sv.settleCount sv, congrArg Sv.settleWedges sv,
      (kept.mono motionRegs_mem.1).motionState_other, (onSv_moves.on (setMotion_moves.wide (m := 0x1C08EB01) rfl) rfl).frame (by decide)⟩
  case unloadEnd =>
    intro n p s plan fresh restart past unloading unload
    exact exec_planEnd_unloading ⟨plan, fresh, restart, past⟩ unloading unload
  case trip =>
    intro n s flying restart reached
    obtain ⟨sv, others, motion, irq, kept⟩ := tripState_spec flying
    obtain ⟨flag, count⟩ := tripTold_counts (n := n) (s := s)
    have own := servoBlock_pacer n
    refine ⟨tripState n s, exec_feTrip flying restart reached, ?_, ?_, sv, others, motion, irq, tripState_moves.frame (by decide)⟩
    · exact (kept.get (f := F.SVn_PACE_STAT_FE_TRIP n) (own _ (by simp [F.SVn_PACE_STAT_FE_TRIP])) (by simp)).trans flag
    · exact (kept.get (f := F.SVn_PACE_CNT_FE_TRIPS n) (own _ (by simp [F.SVn_PACE_CNT_FE_TRIPS])) (by simp)).trans count
  case settled =>
    intro n p tag s settle restart reached plan serves
    exact settleDone_follows settle restart reached plan serves
  case late =>
    intro n s settle limited late
    exact settleTimeout_counted settle limited late
  case acquired =>
    intro n s acquire reached
    obtain ⟨motion, sv, moved⟩ := acquireDone_seeks acquire
    refine ⟨_, exec_acquireDone acquire reached, motion, ?_, ?_, ?_, ?_, ?_, ?_, ?_, moved.frame (by decide)⟩ <;> rw [sv] <;> rfl
  case retry =>
    intro n s timed loads retries
    obtain ⟨motion, sv, moved⟩ := loadRetry_retracts (flies_of_timed timed) (s.sv n).attempt
    refine ⟨_, exec_loadTimeout_retry timed loads retries, motion, ?_, ?_, ?_, moved.frame (by decide)⟩ <;> rw [sv, tryingAgain]
    rfl
  case fail =>
    intro n s timed last
    exact ⟨_, exec_loadTimeout_last timed last, loadFail_retracts (flies_of_timed timed)⟩
  case retracted =>
    intro n s retract power
    obtain ⟨kept, moved⟩ := retractEnded_kept (n := n) (s := s)
    refine ⟨_, exec_retractTimeEnd_retract retract power, fun failed => ?_, motionState_retractEnded, fun present up again ready => ?_,
      (kept.mono motionRegs_mem.1).motionState_other, moved.frame (by decide)⟩
    · rw [retractEnded_fault failed]
      exact motionState_setMotion (by decide)
    · obtain ⟨-, sv, -⟩ := svLoad_spec (n := n) (s := reparked n s) ((s.sv n).attempt + 1)
      rw [retractEnded_loads present up again ready, sv, loadStarted]
  case unloaded =>
    intro n s unloading ended
    obtain ⟨motion, sv, kept⟩ := unloadEnded_parks (n := n) (s := s) (12 + actOf s n)
    exact ⟨_, exec_retractTimeEnd_unloading unloading ended, motion, sv, (kept.mono motionRegs_mem.1).motionState_other⟩
  case idle =>
    intro n s
    exact ⟨exec_planEnd_none, exec_feTrip_other, fun other => ⟨exec_settleDone_other other, exec_settleTimeout_other other⟩, exec_acquireDone_other,
      exec_loadTimeout_other, exec_retractTimeEnd_other⟩

end Sys2Proof.Machine

end

section

/-! PROOF. The spin state, the frames of the spindle and its commutation (R200 to R203, R206, R214): what each operation writes and leaves. -/

namespace Sys2Proof.Machine

variable {s : State}

/-! ### The spin state (R214) -/

theorem regsKept.spinState_eq {l : List Nat} {t : State} (h : regsKept l s t) (apart : R.SPM_STAT ∉ l) : spinState t = spinState s :=
  h.get (f := F.SPM_STAT_STATE) apart

@[simp] theorem spm_onSpm (f : Spm → Spm) : (s.onSpm f).spm = f s.spm := rfl

/-- A spin state entered, before AT_SPEED is shown. -/
theorem setSpin_eq (st : Nat) :
    setSpin st s = ((if spinState s = st then s else s.irq 17).put F.SPM_STAT_STATE st).putB F.SPM_STAT_AT_SPEED (st == Sp.atSpeed) := rfl

theorem setSpin_spec {st : Nat} (h : st < 16) :
    spinState (setSpin st s) = st ∧
      (setSpin st s).get F.SPM_STAT_AT_SPEED = b2n (st == Sp.atSpeed) ∧
      regsKept [R.SPM_STAT] s (setSpin st s) := by
  have told : regsKept [R.SPM_STAT] s (if spinState s = st then s else s.irq 17) := by split <;> exact .of_regs rfl
  rw [setSpin_eq, State.putB]
  refine ⟨?_, ?_, ?_⟩
  · rw [spinState, get_put_apart (of_decide_eq_true rfl), get_put_same (of_decide_eq_true rfl)]
    exact Nat.mod_eq_of_lt h
  · rw [get_put_same (of_decide_eq_true rfl)]
    cases st == Sp.atSpeed <;> rfl
  · exact (told.trans (regsKept_put (f := F.SPM_STAT_STATE) List.mem_cons_self _)).trans
      (regsKept_put (f := F.SPM_STAT_AT_SPEED) List.mem_cons_self _)

/-- The fields of SPM_STAT below AT_SPEED stand. -/
theorem get_setSpin {f : Fld} (below : f.lo + f.width ≤ 27) (st : Nat) : (setSpin st s).get f = s.get f := by
  have told : (if spinState s = st then s else s.irq 17).get f = s.get f := by
    split
    · rfl
    · exact get_irq 17 f
  rw [setSpin_eq, State.putB, get_put_apart (.inl below), get_put_apart (.inl (Nat.le_succ_of_le below)), told]

theorem regsKept_setSpin {st : Nat} (h : st < 16) : regsKept [R.SPM_STAT] s (setSpin st s) := (setSpin_spec h).2.2

theorem spinState_setSpin {st : Nat} (h : st < 16) : spinState (setSpin st s) = st := (setSpin_spec h).1

theorem irq_setSpin {st : Nat} (change : spinState s ≠ st) : (setSpin st s).ccx.irq.getLsbD 17 = true := by
  rw [setSpin_eq, if_neg change]
  exact irq_getLsbD_same _ (by omega)

theorem spm_setSpin (st : Nat) : (setSpin st s).spm = s.spm := setSpin_moves.parts 18 rfl

theorem mot_setSpin (st : Nat) : (setSpin st s).mot = s.mot := setSpin_moves.parts 17 rfl

/-! ### Frames (R200 to R202, R222) -/

/-- The command FIFO holds other frames. -/
def withFifo (l : List (BitVec 64)) (s : State) : State := { s with mot := { s.mot with spindle := l } }

@[simp] theorem withFifo_rest (l : List (BitVec 64)) : (withFifo l s).regs = s.regs ∧ (withFifo l s).ccx = s.ccx ∧ (withFifo l s).spm = s.spm :=
  ⟨rfl, rfl, rfl⟩

@[simp] theorem mot_withFifo (l : List (BitVec 64)) : (withFifo l s).mot = { s.mot with spindle := l } := rfl

theorem withFifo_moves (l : List (BitVec 64)) : Moves 0x20000 s (withFifo l s) := mk_mot

/-- The frame last sent as MOT_SPN_CMD shows it. -/
def spindleShown (step drive ilim : Nat) (s : State) : State :=
  ((s.put F.MOT_SPN_CMD_STATE step).put F.MOT_SPN_CMD_DRIVE drive).put F.MOT_SPN_CMD_ILIM ilim

theorem spindleShown_fields {step drive ilim : Nat} (hs : step < 8) (hd : drive < 4096) (hi : ilim < 4096) :
    (spindleShown step drive ilim s).get F.MOT_SPN_CMD_STATE = step ∧
      (spindleShown step drive ilim s).get F.MOT_SPN_CMD_DRIVE = drive ∧
      (spindleShown step drive ilim s).get F.MOT_SPN_CMD_ILIM = ilim := by
  simp (disch := decide) only [spindleShown, get_put_apart, get_put_same]
  exact ⟨Nat.mod_eq_of_lt hs, Nat.mod_eq_of_lt hd, Nat.mod_eq_of_lt hi⟩

theorem regsKept_spindleShown (step drive ilim : Nat) : regsKept [R.MOT_SPN_CMD] s (spindleShown step drive ilim s) :=
  ((regsKept_put (f := F.MOT_SPN_CMD_STATE) List.mem_cons_self _).trans (regsKept_put (f := F.MOT_SPN_CMD_DRIVE) List.mem_cons_self _)).trans
    (regsKept_put (f := F.MOT_SPN_CMD_ILIM) List.mem_cons_self _)

/-- Outside PARTNER and with the motion link enabled a frame is sent and shown. -/
theorem sendSpindle_sends (own : spinState s ≠ Sp.partner) (enabled : s.on F.MOT_CTL_ENABLE = true) (step drive ilim pulse : Nat) :
    sendSpindle step drive ilim pulse s =
      spindleShown step drive ilim (sendMotion 3 0 (step % 8 + drive % 4096 * 2 ^ 3 + ilim % 4096 * 2 ^ 15 + pulse % 256 * 2 ^ 27) s) :=
  if_neg (by simp [own, enabled])

theorem regsKept_sendSpindle (step drive ilim pulse : Nat) : regsKept [R.MOT_SPN_CMD] s (sendSpindle step drive ilim pulse s) := by
  unfold sendSpindle
  split
  · exact .of_regs rfl
  · exact (sendMotion_moves.regsKept rfl).trans (regsKept_spindleShown _ _ _)

theorem fifo_sendSpindle (step drive ilim pulse : Nat) : (sendSpindle step drive ilim pulse s).mot.spindle = s.mot.spindle := by
  have sent (w : Nat) : (sendMotion 3 0 w s).mot.spindle = s.mot.spindle := by
    unfold sendMotion
    split <;> rfl
  unfold sendSpindle
  split
  · rfl
  · exact sent _

theorem spm_sendSpindle (step drive ilim pulse : Nat) : (sendSpindle step drive ilim pulse s).spm = s.spm := sendSpindle_moves.parts 18 rfl

/-! ### Frames released (R202) -/

/-- The step in force after a frame is released (R202). -/
def stepTaken (k : Nat) (m : Spm) : Spm := { m with inForce := if k < 6 then k else m.inForce }

theorem releaseSpindle_eq (w : BitVec 64) :
    releaseSpindle w s = (sendSpindle (bitsOf w.toNat 2 0) (bitsOf w.toNat 14 3) (bitsOf w.toNat 26 15) (bitsOf w.toNat 34 27) s).onSpm
      (stepTaken (bitsOf w.toNat 2 0)) := by
  by_cases step : bitsOf w.toNat 2 0 < 6
  · simp only [releaseSpindle, State.onSpm, stepTaken, if_pos step]
  · simp only [releaseSpindle, State.onSpm, stepTaken, if_neg step]

theorem regsKept_releaseSpindle (w : BitVec 64) : regsKept [R.MOT_SPN_CMD] s (releaseSpindle w s) := by
  rw [releaseSpindle_eq]
  exact (regsKept_sendSpindle _ _ _ _).trans (.of_regs rfl)

theorem fifo_releaseSpindle (w : BitVec 64) : (releaseSpindle w s).mot.spindle = s.mot.spindle := by
  rw [releaseSpindle_eq]
  exact fifo_sendSpindle ..

theorem spm_releaseSpindle (w : BitVec 64) : (releaseSpindle w s).spm = stepTaken (bitsOf w.toNat 2 0) s.spm := by
  rw [releaseSpindle_eq]
  exact congrArg (stepTaken (bitsOf w.toNat 2 0)) (spm_sendSpindle ..)

theorem bitsOf_lt (v hi lo : Nat) : bitsOf v hi lo < 2 ^ (hi + 1 - lo) := Nat.mod_lt _ (Nat.two_pow_pos _)

/-- The payload of the frame that an entry of the FIFO becomes (R200). -/
def entryPayload (w : BitVec 64) : Nat :=
  bitsOf w.toNat 2 0 + bitsOf w.toNat 14 3 * 2 ^ 3 + bitsOf w.toNat 26 15 * 2 ^ 15 + bitsOf w.toNat 34 27 * 2 ^ 27

/-- What a frame of the FIFO released outside PARTNER sends and shows. -/
theorem releaseSpindle_spec (own : spinState s ≠ Sp.partner) (enabled : s.on F.MOT_CTL_ENABLE = true) (beats : Nat) (w : BitVec 64) :
    (releaseSpindle w (beatsPass beats s)).sent =
        s.sent ++ [.motion (motionFrame 3 0 (min 39 ((s.mot.ahead - 4 * beats + 3) / 4)) (entryPayload w))] ∧
      (releaseSpindle w (beatsPass beats s)).get F.MOT_SPN_CMD_STATE = bitsOf w.toNat 2 0 ∧
      (releaseSpindle w (beatsPass beats s)).get F.MOT_SPN_CMD_DRIVE = bitsOf w.toNat 14 3 ∧
      (releaseSpindle w (beatsPass beats s)).get F.MOT_SPN_CMD_ILIM = bitsOf w.toNat 26 15 := by
  have step : bitsOf w.toNat 2 0 < 8 := bitsOf_lt w.toNat 2 0
  have drive : bitsOf w.toNat 14 3 < 4096 := bitsOf_lt w.toNat 14 3
  have ilim : bitsOf w.toNat 26 15 < 4096 := bitsOf_lt w.toNat 26 15
  have pulse : bitsOf w.toNat 34 27 < 256 := bitsOf_lt w.toNat 34 27
  obtain ⟨sent, -⟩ := sendMotion_enabled enabled beats 3 0 (entryPayload w)
  have sends : releaseSpindle w (beatsPass beats s) = (spindleShown (bitsOf w.toNat 2 0) (bitsOf w.toNat 14 3) (bitsOf w.toNat 26 15)
      (sendMotion 3 0 (entryPayload w) (beatsPass beats s))).onSpm (stepTaken (bitsOf w.toNat 2 0)) := by
    rw [releaseSpindle_eq, sendSpindle_sends (s := beatsPass beats s) own enabled, Nat.mod_eq_of_lt step, Nat.mod_eq_of_lt drive,
      Nat.mod_eq_of_lt ilim, Nat.mod_eq_of_lt pulse, entryPayload]
  rw [sends]
  exact ⟨sent, spindleShown_fields step drive ilim⟩

/-! ### Commutation (R202, R203) -/

theorem nextCommutation_open (opens : spinState s = Sp.openLoop) :
    nextCommutation s = (spindleWord ((s.spm.step + 1) % 6) (profileDrive s) (startIlim s) 0,
      s.onSpm (fun m => { m with step := (s.spm.step + 1) % 6, profileAt := m.profileAt + 1 })) := if_pos opens

/-- The state before a frame at the front of the FIFO is released. -/
def frontTaken (beats : Nat) (rest : List (BitVec 64)) (s : State) : State := beatsPass beats (withFifo rest s)

theorem frontTaken_moves (beats : Nat) (rest : List (BitVec 64)) : Moves 0x20000 s (frontTaken beats rest s) :=
  beatsPass_moves.step (withFifo_moves rest)

section

variable {beats : Nat} {w : BitVec 64} {rest : List (BitVec 64)}

theorem spinState_released : spinState (releaseSpindle w (frontTaken beats rest s)) = spinState s :=
  (regsKept_releaseSpindle w).spinState_eq (by decide)

theorem released_moves : Moves 0x8060001 s (releaseSpindle w (frontTaken beats rest s)) :=
  releaseSpindle_moves.on ((frontTaken_moves beats rest).wide rfl) rfl

theorem regsKept_released : regsKept [R.MOT_SPN_CMD] s (releaseSpindle w (frontTaken beats rest s)) :=
  ((frontTaken_moves beats rest).regsKept rfl).trans (regsKept_releaseSpindle w)

variable (front : s.mot.spindle = w :: rest)

include front

theorem exec_commutation_other (other : spinState s ∉ [Sp.sense, Sp.openLoop]) :
    exec (.commutation beats) s = .next (releaseSpindle w (frontTaken beats rest s)) := by
  obtain ⟨sense, opens⟩ : spinState s ≠ Sp.sense ∧ spinState s ≠ Sp.openLoop := by simpa using other
  have released := spinState_released (s := s) (beats := beats) (w := w) (rest := rest)
  have taken : (beatsPass beats s).mot.spindle = w :: rest := front
  show execCommutation beats s = _
  simp only [execCommutation, taken]
  exact (if_neg (released.trans_ne sense)).trans (if_neg (released.trans_ne opens))

/-- SENSE counts the pulse sent, OPEN queues the step that follows (R202, R206). -/
theorem exec_commutation_starts (starts : spinState s = Sp.sense ∨ spinState s = Sp.openLoop) :
    exec (.commutation beats) s = .next (if spinState s = Sp.sense then
      (releaseSpindle w (frontTaken beats rest s)).onSpm (fun m => { m with pulses := m.pulses + 1 }) else
      queueSpindle (nextCommutation (releaseSpindle w (frontTaken beats rest s))).1
        (nextCommutation (releaseSpindle w (frontTaken beats rest s))).2) := by
  have released := spinState_released (s := s) (beats := beats) (w := w) (rest := rest)
  have taken : (beatsPass beats s).mot.spindle = w :: rest := front
  show execCommutation beats s = _
  simp only [execCommutation, taken]
  by_cases sense : spinState s = Sp.sense
  · rw [if_pos sense]
    exact if_pos (released.trans sense)
  · have opens := starts.resolve_left sense
    rw [if_neg sense]
    exact (if_neg (released.trans_ne sense)).trans (if_pos (released.trans opens))

end

/-- A commutation that finds the FIFO empty, counted. -/
def lateCounted (beats : Nat) (s : State) : State := (beatsPass beats s).count F.SPM_CNT_LATE_COMM

theorem exec_commutation_late {beats : Nat} (empty : s.mot.spindle = []) (turns : commutates s = true) :
    exec (.commutation beats) s = .next (releaseSpindle (nextCommutation (lateCounted beats s)).1 (nextCommutation (lateCounted beats s)).2) := by
  have none_ : (beatsPass beats s).mot.spindle = [] := empty
  show execCommutation beats s = _
  simp only [execCommutation, none_]
  exact if_pos turns

theorem exec_commutation_idle {beats : Nat} (empty : s.mot.spindle = []) (rests : commutates s = false) :
    exec (.commutation beats) s = .next (beatsPass beats s) := by
  have none_ : (beatsPass beats s).mot.spindle = [] := empty
  show execCommutation beats s = _
  simp only [execCommutation, none_]
  exact if_neg (ne_true_of_eq_false rests)

end Sys2Proof.Machine

end

section

/-! PROOF. Starts, failed attempts and the Ke check (R206, R207, R209, R210, R212): O17 from a lemma for each row. -/

namespace Sys2Proof.Machine

variable {s : State}

/-! ### Commands and the self-test (R206, R212) -/

/-- A command that SPM accepts acts, and the chip settles. -/
theorem spinRow_accepted (accepts : s.accepts R.SPM_CMD = true) (code : Nat) : spinRow code s = (spinCommand code s).settle.answer .done := by
  obtain ⟨early, busy, absent, lost⟩ := accepts_iff.mp accepts
  rw [spinRow, State.command, write_taken early busy, absent, lost]
  rfl

theorem spinStart_eq : spinStart s = if allQuiet s = false then s.flag F.SPM_FLT_REQ_REJ else if spinState s = Sp.stopped then
    s.onSpm (fun m => { m with restCheck := true }) else if spinState s ∈ [Sp.braking, Sp.pfCoast, Sp.partner] then startTurning s else
    s.flag F.SPM_FLT_REQ_REJ := by
  simp only [spinStart, Bool.not_eq_true', List.mem_cons, List.not_mem_nil, or_false]

theorem exec_spmSelfTest_ready (done : s.on F.CFG_LOAD_STAT_DONE = true) (held : s.glb.lost1.getLsbD 6 = false) :
    exec (.spmSelfTest true) s = .next (s.setReg R.GLB_UNIT_OK1 (s.reg R.GLB_UNIT_OK1 ||| (1#32 <<< 6))).settle ∧
      exec (.spmSelfTest false) s = .next (s.loseUnit1 6) := by
  have tests (passed : Bool) : exec (.spmSelfTest passed) s = _ := if_neg (by rw [done, held]; exact Bool.false_ne_true)
  exact ⟨tests true, tests false⟩

theorem exec_spmSelfTest_other (other : s.on F.CFG_LOAD_STAT_DONE = false ∨ s.glb.lost1.getLsbD 6 = true) (passed : Bool) :
    exec (.spmSelfTest passed) s = .next s := by
  refine if_pos ?_
  rcases other with early | lost
  · rw [early]; rfl
  · rw [lost, Bool.or_true]

/-! ### An attempt begins (R206, R209) -/

/-- The six sensing pulses of an attempt (R206). -/
def sensingPulses (s : State) : List (BitVec 64) := (List.range 6).map (fun i => spindleWord i 0 0 (max 1 (s.get F.SPM_START_CFG_PULSE)))

/-- The sensing state shown, with the attempt's number. -/
def attemptShown (k : Nat) (s : State) : State := (setSpin Sp.sense s).put F.SPM_STAT_ATTEMPT k

theorem regsKept_attemptShown (k : Nat) : regsKept [R.SPM_STAT] s (attemptShown k s) :=
  (regsKept_setSpin (by decide)).trans (regsKept_put (f := F.SPM_STAT_ATTEMPT) List.mem_cons_self k)

/-- What the begin of attempt k leaves of SPM's own state. -/
def attempting (k cad : Nat) (m : Spm) : Spm :=
  { m with
    restCheck := false, sense := [], pulses := 0, forward := 0, reverse := 0, profileAt := 0, keDone := m.keDone && k != 1, resync := false,
    probing := false, crossings := [], integ := 0, drive := 0, decel := false, goal := cad, lockRevs := 0, faultRevs := 0, ramping := false,
    draining := false, brakeDue := none, unparked := false }

theorem beginAttempt_eq (k : Nat) : beginAttempt k s = (withFifo (sensingPulses (attemptShown k s)) (attemptShown k s)).onSpm
    (attempting k ((attemptShown k s).get F.SPM_CAD_REQ_CAD)) := by
  unfold beginAttempt withFifo attemptShown sensingPulses attempting
  rfl

theorem spm_beginAttempt (k : Nat) : (beginAttempt k s).spm = attempting k (s.get F.SPM_CAD_REQ_CAD) s.spm := by
  have spm : (attemptShown k s).spm = s.spm := by simp only [attemptShown, put_rest, spm_setSpin]
  have cad : (attemptShown k s).get F.SPM_CAD_REQ_CAD = s.get F.SPM_CAD_REQ_CAD := (regsKept_attemptShown k).get (by decide)
  rw [beginAttempt_eq, spm_onSpm, cad, (withFifo_rest _).2.2, spm]

/-- What the begin of an attempt shows, and the sensing pulses in the FIFO. -/
theorem beginAttempt_spec (k : Nat) :
    spinState (beginAttempt k s) = Sp.sense ∧
      (beginAttempt k s).get F.SPM_STAT_ATTEMPT = k % 2 ^ F.SPM_STAT_ATTEMPT.width ∧
      (beginAttempt k s).get F.SPM_STAT_AT_SPEED = 0 ∧
      (beginAttempt k s).mot = { s.mot with spindle := sensingPulses s } ∧
      regsKept [R.SPM_STAT] s (beginAttempt k s) := by
  have kept := regsKept_attemptShown (s := s) k
  obtain ⟨state, speed, -⟩ := setSpin_spec (s := s) (st := Sp.sense) (by decide)
  have mot : (attemptShown k s).mot = s.mot := by simp only [attemptShown, put_rest, mot_setSpin]
  have pulses : sensingPulses (attemptShown k s) = sensingPulses s := by
    rw [sensingPulses, kept.get (f := F.SPM_START_CFG_PULSE) (by decide), sensingPulses]
  have same : regsKept [] (attemptShown k s) (beginAttempt k s) := by
    rw [beginAttempt_eq]
    exact (onSpm_moves.on ((withFifo_moves _).wide (m := 0x60000) rfl) rfl).regsKept rfl
  refine ⟨?_, ?_, ?_, ?_, kept.trans (same.mono (List.nil_subset _))⟩
  · rw [same.spinState_eq (by simp), attemptShown, spinState, get_put_apart (of_decide_eq_true rfl)]
    exact state
  · rw [same.get (by simp), attemptShown, get_put_same (of_decide_eq_true rfl)]
  · rw [same.get (by simp), attemptShown, get_put_apart (of_decide_eq_true rfl)]
    exact speed
  · simp only [beginAttempt_eq, onSpm_rest, mot_withFifo, pulses, mot]

theorem irq_beginAttempt (change : spinState s ≠ Sp.sense) (k : Nat) : (beginAttempt k s).ccx.irq.getLsbD 17 = true := by
  simp only [beginAttempt_eq, onSpm_rest, withFifo_rest, attemptShown, put_rest]
  exact irq_setSpin change

theorem exec_rotorRestCheck (check : s.spm.restCheck = true) (stopped : spinState s = Sp.stopped) (samples : 2000 ≤ s.spm.volts.length) :
    exec .rotorRestCheck s = if peakVolts s < s.get F.SPM_BRAKE_CFG_STOP_MV then .next (beginAttempt 1 s) else
      .next (startTurning (s.onSpm (fun m => { m with restCheck := false }))).settle :=
  if_neg (by simp [check, stopped, Nat.not_lt.mpr samples])

/-- A rotor at rest (R206). -/
theorem rotorRestCheck_begins (check : s.spm.restCheck = true) (stopped : spinState s = Sp.stopped) (samples : 2000 ≤ s.spm.volts.length)
    (rests : peakVolts s < s.get F.SPM_BRAKE_CFG_STOP_MV) : exec .rotorRestCheck s = .next (beginAttempt 1 s) :=
  (exec_rotorRestCheck check stopped samples).trans (if_pos rests)

/-! ### Sensing ends (R206) -/

/-- Open-loop commutation about to begin one step past the rotor's sector. -/
def sensed (k : Nat) (m : Spm) : Spm := { m with step := (k + 1) % 6, profileAt := 0, forward := 0, reverse := 0 }

/-- The first step of the open loop, put into the FIFO. -/
def stepQueued (step : Nat) (m : Spm) : Spm := { m with step := step, profileAt := 1 }

/-- The state of SPM that opens the loop. -/
def loopOpened (s : State) : State := (setSpin Sp.openLoop s).onSpm (sensed (sensedSector (s.spm.sense.take 6)))

theorem spinState_loopOpened : spinState (loopOpened s) = Sp.openLoop := spinState_setSpin (by decide)

theorem regsKept_loopOpened : regsKept [R.SPM_STAT] s (loopOpened s) := (regsKept_setSpin (by decide)).trans (.of_regs rfl)

theorem loopOpened_moves : Moves 0x40801 s (loopOpened s) := onSpm_moves.on (setSpin_moves.wide rfl) rfl

theorem exec_senseDone (sense : spinState s = Sp.sense) (measured : 6 ≤ s.spm.sense.length) :
    exec .senseDone s = .next (withFifo [(nextCommutation (loopOpened s)).1] (nextCommutation (loopOpened s)).2) :=
  if_neg (by simp [sense, Nat.not_lt.mpr measured])

/-- The first step of the open loop: two past the sensed sector (R206). -/
def firstStep (s : State) : Nat := (sensedSector (s.spm.sense.take 6) + 2) % 6

/-- The frame of the first step, with the profile's first drive. -/
def firstFrame (s : State) : BitVec 64 :=
  spindleWord (firstStep s) (match spindleSec s with | some p => (p.profile.getD (min 0 (p.profile.length - 1)) (0, 0)).2 | none => 0)
    (s.get F.SPM_START_CFG_ILIM) 0

theorem nextCommutation_loopOpened : nextCommutation (loopOpened s) = (firstFrame s, (loopOpened s).onSpm (stepQueued (firstStep s))) := by
  have step : ((loopOpened s).spm.step + 1) % 6 = firstStep s := Nat.mod_add_mod ..
  have sec : spindleSec (loopOpened s) = spindleSec s := by
    have cfg : (loopOpened s).cfg = s.cfg := loopOpened_moves.parts 5 rfl
    rw [spindleSec, cfg, spindleSec]
  have drive : profileDrive (loopOpened s) =
      (match spindleSec s with | some p => (p.profile.getD (min 0 (p.profile.length - 1)) (0, 0)).2 | none => 0) := by
    rw [profileDrive, sec]
    rfl
  have limit : startIlim (loopOpened s) = s.get F.SPM_START_CFG_ILIM := regsKept_loopOpened.get (f := F.SPM_START_CFG_ILIM) (by decide)
  rw [nextCommutation_open spinState_loopOpened, step, drive, limit]
  rfl

/-- The loop opened, with the first frame in the FIFO. -/
def loopStarted (s : State) : State := withFifo [firstFrame s] ((loopOpened s).onSpm (stepQueued (firstStep s)))

theorem senseDone_opens (sense : spinState s = Sp.sense) (measured : 6 ≤ s.spm.sense.length) : exec .senseDone s = .next (loopStarted s) := by
  rw [exec_senseDone sense measured, nextCommutation_loopOpened, loopStarted]

theorem loopStarted_spec (sense : spinState s = Sp.sense) :
    spinState (loopStarted s) = Sp.openLoop ∧
      (loopStarted s).spm = { s.spm with step := firstStep s, profileAt := 1, forward := 0, reverse := 0 } ∧
      (loopStarted s).mot = { s.mot with spindle := [firstFrame s] } ∧
      (loopStarted s).ccx.irq.getLsbD 17 = true ∧
      regsKept [R.SPM_STAT] s (loopStarted s) ∧
      Moves 0x60801 s (loopStarted s) := by
  have last : Moves 0x60000 (loopOpened s) (loopStarted s) := (withFifo_moves _).on (onSpm_moves.wide rfl) rfl
  have same : regsKept [] (loopOpened s) (loopStarted s) := last.regsKept rfl
  refine ⟨?_, ?_, ?_, ?_, regsKept_loopOpened.trans (same.mono (List.nil_subset _)), last.on (loopOpened_moves.wide rfl) rfl⟩
  · rw [same.spinState_eq (by simp), spinState_loopOpened]
  · simp only [loopStarted, withFifo_rest, loopOpened, spm_onSpm, spm_setSpin, stepQueued, sensed]
  · simp only [loopStarted, mot_withFifo, loopOpened, onSpm_rest, mot_setSpin]
  · simp only [loopStarted, withFifo_rest, loopOpened, onSpm_rest]
    exact irq_setSpin (by rw [sense]; decide)

/-! ### Attempts that fail (R207, R209) -/

/-- The failure of an attempt shown, counted and recorded. -/
def failureTold (f : Fld) (s : State) : State := ((s.flag f).count F.SPM_CNT_FAILED).tally 5

theorem failureTold_moves (f : Fld) : Moves 0xB01 s (failureTold f s) := tally_moves.on (count_moves.on (flag_moves.wide rfl) rfl) rfl

section

variable {f : Fld} (flt : f.addr = R.SPM_FLT)

include flt

/-- Of SPM's registers a failure writes its flag and its count. -/
theorem get_failureTold_other {g : Fld} (own : headBlock g.addr = false) (apart : g.addr ∉ [R.SPM_FLT, R.SPM_CNT]) :
    (failureTold f s).get g = s.get g := by
  have flagged : regsKept [R.SPM_FLT] s (s.flag f) := flt ▸ regsKept_flag s f
  have counted : regsKept [R.SPM_CNT] (s.flag f) ((s.flag f).count F.SPM_CNT_FAILED) := regsKept_count (f := F.SPM_CNT_FAILED) _ 1
  rw [failureTold, headSide_tally.get own, counted.get (by simp_all), flagged.get (by simp_all)]

theorem failureTold_shows (fits : f.lo + f.width ≤ 32) (bit : f.width = 1) :
    (failureTold f s).get f = 1 ∧
      (failureTold f s).get F.SPM_CNT_FAILED = min (s.get F.SPM_CNT_FAILED + 1) (2 ^ F.SPM_CNT_FAILED.width - 1) := by
  have flagged : regsKept [R.SPM_FLT] s (s.flag f) := flt ▸ regsKept_flag s f
  have counted : regsKept [R.SPM_CNT] (s.flag f) ((s.flag f).count F.SPM_CNT_FAILED) := regsKept_count (f := F.SPM_CNT_FAILED) _ 1
  have own : headBlock f.addr = false := by rw [flt]; decide +kernel
  refine ⟨?_, ?_⟩
  · rw [failureTold, headSide_tally.get own, counted.get (by rw [flt]; decide), get_flag fits, bit]
    rfl
  · rw [failureTold, headSide_tally.get (by decide +kernel), get_count (of_decide_eq_true rfl), flagged.get (by decide)]

end

theorem failAttempt_eq (f : Fld) : failAttempt f s =
    if (failureTold f s).get F.SPM_STAT_ATTEMPT ≤ min 5 ((failureTold f s).get F.SPM_START_CFG_RETRY) then
      (requestBrake .retry (failureTold f s)).settle else spinLost (requestBrake .fault ((failureTold f s).flag F.SPM_FLT_START_FAIL)) := rfl

/-- A failed attempt, by the number of attempts made and permitted. -/
theorem failAttempt_spec {f : Fld} (flt : f.addr = R.SPM_FLT) (fits : f.lo + f.width ≤ 32) (bit : f.width = 1) :
    ∃ u : State, failAttempt f s = (if s.get F.SPM_STAT_ATTEMPT ≤ min 5 (s.get F.SPM_START_CFG_RETRY) then (requestBrake .retry u).settle else
        spinLost (requestBrake .fault (u.flag F.SPM_FLT_START_FAIL))) ∧
      u.get f = 1 ∧
      u.get F.SPM_CNT_FAILED = min (s.get F.SPM_CNT_FAILED + 1) (2 ^ F.SPM_CNT_FAILED.width - 1) ∧
      u.spm = s.spm ∧
      onlyParts [.regs, .evr, .tly, .ccx] s u := by
  obtain ⟨shown, counted⟩ := failureTold_shows (s := s) flt fits bit
  have attempt : (failureTold f s).get F.SPM_STAT_ATTEMPT = s.get F.SPM_STAT_ATTEMPT := get_failureTold_other flt (by decide +kernel) (by decide)
  have retry : (failureTold f s).get F.SPM_START_CFG_RETRY = s.get F.SPM_START_CFG_RETRY := get_failureTold_other flt (by decide +kernel) (by decide)
  refine ⟨failureTold f s, ?_, shown, counted, (failureTold_moves f).parts 18 rfl, (failureTold_moves f).frame (by decide)⟩
  rw [failAttempt_eq, attempt, retry]

/-! ### The Ke check (R210) -/

/-- How far the peak measured lies from the image's constant at the mean speed, in the units of `keCheckEnd`. -/
def keError (mean : Nat) (s : State) : Nat :=
  if 10000 * s.spm.kePeak < s.get F.SPM_KE_KE_IMG * mean then s.get F.SPM_KE_KE_IMG * mean - 10000 * s.spm.kePeak
  else 10000 * s.spm.kePeak - s.get F.SPM_KE_KE_IMG * mean

/-- The measured constant recorded: a free value where the check saw no speed. -/
def keRecorded (mean : Nat) (s : State) : State :=
  if mean = 0 then (s.free 16).2.put F.SPM_KE_KE_MEAS (s.free 16).1.toNat
  else s.put F.SPM_KE_KE_MEAS (min 65535 (10000 * s.spm.kePeak / mean))

theorem regsKept_keRecorded (mean : Nat) : regsKept [R.SPM_KE] s (keRecorded mean s) := by
  unfold keRecorded
  split
  · exact (free_moves.regsKept rfl).trans (regsKept_put (f := F.SPM_KE_KE_MEAS) List.mem_cons_self _)
  · exact regsKept_put (f := F.SPM_KE_KE_MEAS) List.mem_cons_self _

theorem keRecorded_moves (mean : Nat) : Moves 0x10000001 s (keRecorded mean s) := by
  unfold keRecorded
  split
  · exact put_moves.on (free_moves.wide rfl) rfl
  · exact put_moves.wide rfl

/-- With a speed the value recorded is the constant measured. -/
theorem keRecorded_measured {mean : Nat} (turns : mean ≠ 0) :
    keRecorded mean s = s.put F.SPM_KE_KE_MEAS (min 65535 (10000 * s.spm.kePeak / mean)) := if_neg turns

theorem get_keMeas {mean : Nat} (turns : mean ≠ 0) : (keRecorded mean s).get F.SPM_KE_KE_MEAS = min 65535 (10000 * s.spm.kePeak / mean) := by
  rw [keRecorded_measured turns, get_put_same (of_decide_eq_true rfl)]
  exact Nat.mod_eq_of_lt (Nat.lt_of_le_of_lt (Nat.min_le_left ..) (by decide))

/-- The run-up goes on from the next crossing. -/
def kePassed (s : State) : State := ((setSpin Sp.runup s).put F.GLB_RST_STAT_KE_OK 1).onSpm (fun m => { m with resync := true })

theorem exec_keCheckEnd {mean : Nat} (check : spinState s = Sp.keCheck) :
    exec (.keCheckEnd mean) s =
      if keError mean s * 100 ≤ 12 * s.get F.SPM_KE_KE_IMG * mean ∧ mean ≠ 0 then .next (kePassed (keRecorded mean s)) else
        .next (spinLost (requestBrake .fault (failureTold F.SPM_FLT_KE_REFUSED (keRecorded mean s)))) := if_neg (not_not.mpr check)

theorem keCheckEnd_passes {mean : Nat} (check : spinState s = Sp.keCheck) (turns : mean ≠ 0)
    (near : keError mean s * 100 ≤ 12 * (s.get F.SPM_KE_KE_IMG * mean)) :
    ∃ t : State, exec (.keCheckEnd mean) s = .next t ∧
      spinState t = Sp.runup ∧
      t.get F.SPM_KE_KE_MEAS = min 65535 (10000 * s.spm.kePeak / mean) ∧
      t.get F.GLB_RST_STAT_KE_OK = 1 ∧
      t.spm = { s.spm with resync := true } ∧
      regsKept [R.SPM_STAT, R.SPM_KE, R.GLB_RST_STAT] s t ∧
      onlyParts [.regs, .ccx, .spm] s t := by
  have state (t : State) : regsKept [R.SPM_STAT] t (setSpin Sp.runup t) := regsKept_setSpin (by decide)
  have ok (t : State) : regsKept [R.GLB_RST_STAT] t (t.put F.GLB_RST_STAT_KE_OK 1) := regsKept_put (f := F.GLB_RST_STAT_KE_OK) List.mem_cons_self 1
  have recorded : Moves 0x1 s (keRecorded mean s) := by rw [keRecorded_measured turns]; exact put_moves
  have spm : (setSpin Sp.runup (keRecorded mean s)).spm = s.spm := (spm_setSpin _).trans (recorded.parts 18 rfl)
  refine ⟨kePassed (keRecorded mean s), ?_, ?_, ?_, ?_, ?_, ?_, ?_⟩
  · rw [exec_keCheckEnd check, if_pos ⟨Nat.mul_assoc .. ▸ near, turns⟩]
  · exact ((ok _).spinState_eq (by decide)).trans (spinState_setSpin (by decide))
  · exact ((ok _).get (f := F.SPM_KE_KE_MEAS) (by decide)).trans (((state _).get (f := F.SPM_KE_KE_MEAS) (by decide)).trans (get_keMeas turns))
  · exact get_put_same (f := F.GLB_RST_STAT_KE_OK) (of_decide_eq_true rfl) 1
  · exact congrArg (fun m : Spm => { m with resync := true }) spm
  · exact (((regsKept_keRecorded mean).mono (by simp)).trans ((state _).mono (by simp))).trans (((ok _).mono (by simp)).trans (.of_regs rfl))
  · have moved : Moves 0x40801 s (kePassed (keRecorded mean s)) :=
      onSpm_moves.on (put_moves.on (setSpin_moves.on (recorded.wide rfl) rfl) rfl) rfl
    exact moved.frame (by decide)

theorem keCheckEnd_refuses {mean : Nat} (check : spinState s = Sp.keCheck)
    (off : mean = 0 ∨ 12 * (s.get F.SPM_KE_KE_IMG * mean) < keError mean s * 100) :
    ∃ u : State, exec (.keCheckEnd mean) s = .next (spinLost (requestBrake .fault u)) ∧
      u.get F.SPM_FLT_KE_REFUSED = 1 ∧
      u.get F.SPM_CNT_FAILED = min (s.get F.SPM_CNT_FAILED + 1) (2 ^ F.SPM_CNT_FAILED.width - 1) ∧
      (mean ≠ 0 → u.get F.SPM_KE_KE_MEAS = min 65535 (10000 * s.spm.kePeak / mean) ∧ u.freeN = s.freeN) ∧
      onlyParts [.regs, .evr, .tly, .ccx, .freeN] s u := by
  obtain ⟨shown, counted⟩ := failureTold_shows (s := keRecorded mean s) (f := F.SPM_FLT_KE_REFUSED) rfl (of_decide_eq_true rfl) rfl
  have told := failureTold_moves (s := keRecorded mean s) F.SPM_FLT_KE_REFUSED
  have far : ¬ (keError mean s * 100 ≤ 12 * s.get F.SPM_KE_KE_IMG * mean ∧ mean ≠ 0) := by
    rw [Nat.mul_assoc]
    rintro ⟨near, turns⟩
    exact off.elim turns (Nat.not_lt.mpr near)
  refine ⟨failureTold F.SPM_FLT_KE_REFUSED (keRecorded mean s), (exec_keCheckEnd check).trans (if_neg far), shown, ?_,
    fun turns => ⟨?_, ?_⟩, ?_⟩
  · rw [counted, (regsKept_keRecorded mean).get (by decide)]
  · exact (get_failureTold_other rfl (by decide +kernel) (by decide)).trans (get_keMeas turns)
  · have free : (keRecorded mean s).freeN = s.freeN := by
      rw [keRecorded_measured turns]
      exact put_moves.parts 28 rfl
    exact Eq.trans (told.parts 28 rfl) free
  · exact (told.on ((keRecorded_moves mean).wide (m := 0x10000B01) rfl) rfl).frame (by decide)

/-! ### The rows of a failure and of the retry, and rows whose state does not stand -/

theorem exec_spinTimeout (timed : spinState s ∈ [Sp.openLoop, Sp.runup, Sp.locking]) :
    exec .spinTimeout s = .next (failAttempt F.SPM_FLT_SPIN_TIMEOUT s) :=
  congrArg Host.Outcome.next (if_pos (by simpa using timed))

theorem exec_noHandover (opens : spinState s = Sp.openLoop) : exec .noHandover s = .next (failAttempt F.SPM_FLT_NO_HANDOVER s) :=
  congrArg Host.Outcome.next (if_pos opens)

theorem exec_retryWaitEnd (waits : spinState s = Sp.retryWait) :
    exec .retryWaitEnd s = .next (beginAttempt (s.get F.SPM_STAT_ATTEMPT + 1) s) :=
  congrArg Host.Outcome.next (if_pos waits)

/-- The rows of a start change nothing where their state does not stand. -/
theorem startRows_other :
    (spinState s ≠ Sp.stopped → exec .rotorRestCheck s = .next s) ∧
      (spinState s ≠ Sp.sense → exec .senseDone s = .next s) ∧
      (spinState s ≠ Sp.keCheck → ∀ mean, exec (.keCheckEnd mean) s = .next s) ∧
      (spinState s ≠ Sp.openLoop → exec .noHandover s = .next s) ∧
      (spinState s ∉ [Sp.openLoop, Sp.runup, Sp.locking] → exec .spinTimeout s = .next s) ∧
      (spinState s ≠ Sp.retryWait → exec .retryWaitEnd s = .next s) := by
  refine ⟨fun h => if_pos (by simp [h]), fun h => if_pos (.inl h), fun h mean => if_pos h, fun h => ?_, fun h => ?_, fun h => ?_⟩
  · exact congrArg Host.Outcome.next (if_neg h)
  · exact congrArg Host.Outcome.next (if_neg (by simpa using h))
  · exact congrArg Host.Outcome.next (if_neg h)

/-- Settles O17: a lemma for the begin of an attempt, one for each outcome of a check, and the rows of a commutation. -/
theorem spindleStartsUnderControl : Obligations.SpindleStartsUnderControl := by
  unfold Obligations.SpindleStartsUnderControl
  refine ⟨?start, ?rest, ?turning, ?sensed, ?released, ?starting, ?late, ?idle, ?kePasses, ?keRefuses, ?fails, ?retry, ?other⟩
  case start =>
    intro s accepts
    rw [← spinStart_eq]
    exact congrArg Host.Outcome.next (spinRow_accepted accepts 1)
  case rest =>
    intro s check stopped samples rests
    obtain ⟨state, attempt, speed, mot, kept⟩ := beginAttempt_spec (s := s) 1
    have spm := spm_beginAttempt (s := s) 1
    exact ⟨beginAttempt 1 s, rotorRestCheck_begins check stopped samples rests, state, attempt, speed, mot, congrArg Spm.restCheck spm,
      congrArg Spm.sense spm, congrArg Spm.pulses spm, (congrArg Spm.keDone spm).trans (Bool.and_false _), congrArg Spm.goal spm,
      irq_beginAttempt (by rw [stopped]; decide) 1, kept, beginAttempt_moves.frame (by decide)⟩
  case turning =>
    intro s check stopped samples turns
    exact (exec_rotorRestCheck check stopped samples).trans (if_neg (Nat.not_lt.mpr turns))
  case sensed =>
    intro s sense measured
    obtain ⟨state, spm, mot, irq, kept, moved⟩ := loopStarted_spec sense
    exact ⟨loopStarted s, senseDone_opens sense measured, state, spm, mot, irq, kept, moved.frame (by decide)⟩
  case released =>
    intro beats w rest s front other enabled
    obtain ⟨sense, opens, partner⟩ : spinState s ≠ Sp.sense ∧ spinState s ≠ Sp.openLoop ∧ spinState s ≠ Sp.partner := by
      simpa using other
    obtain ⟨sent, step, drive, ilim⟩ := releaseSpindle_spec (s := withFifo rest s) partner enabled beats w
    exact ⟨_, exec_commutation_other front (by simp [sense, opens]), fifo_releaseSpindle w, sent, step, drive, ilim, spm_releaseSpindle w,
      regsKept_released, released_moves.frame (by decide)⟩
  case starting =>
    intro beats w rest s front starts
    have own : spinState s ≠ Sp.partner := by rcases starts with h | h <;> rw [h] <;> decide
    refine ⟨_, exec_commutation_starts front starts, fifo_releaseSpindle w, spinState_released, ?_, fun enabled => ?_, regsKept_released,
      released_moves.frame (by decide)⟩
    · exact (congrArg Spm.step (spm_releaseSpindle w)).trans rfl
    · obtain ⟨sent, -⟩ := releaseSpindle_spec (s := withFifo rest s) own enabled beats w
      exact (congrArg List.length sent).trans List.length_append
  case late =>
    intro beats s empty turns
    have counted : Moves 0x20001 s (lateCounted beats s) := count_moves.on (beatsPass_moves.wide rfl) rfl
    have kept : regsKept [R.SPM_CNT] (beatsPass beats s) (lateCounted beats s) := regsKept_count (f := F.SPM_CNT_LATE_COMM) _ 1
    exact ⟨lateCounted beats s, exec_commutation_late empty turns,
      get_count (s := beatsPass beats s) (f := F.SPM_CNT_LATE_COMM) (of_decide_eq_true rfl) 1, counted.parts 18 rfl, kept, counted.frame (by decide)⟩
  case idle =>
    intro beats s empty rests
    exact exec_commutation_idle empty rests
  case kePasses =>
    intro mean s check turns near
    exact keCheckEnd_passes check turns near
  case keRefuses =>
    intro mean s check off
    exact keCheckEnd_refuses check off
  case fails =>
    rintro c f s (⟨rfl, rfl, opens⟩ | ⟨rfl, rfl, timed⟩)
    · rw [exec_noHandover opens]
      obtain ⟨u, fails, told⟩ := failAttempt_spec (s := s) (f := F.SPM_FLT_NO_HANDOVER) rfl (of_decide_eq_true rfl) rfl
      exact ⟨u, congrArg Host.Outcome.next fails, told⟩
    · rw [exec_spinTimeout timed]
      obtain ⟨u, fails, told⟩ := failAttempt_spec (s := s) (f := F.SPM_FLT_SPIN_TIMEOUT) rfl (of_decide_eq_true rfl) rfl
      exact ⟨u, congrArg Host.Outcome.next fails, told⟩
  case retry =>
    intro s waits
    obtain ⟨state, attempt, -, mot, kept⟩ := beginAttempt_spec (s := s) (s.get F.SPM_STAT_ATTEMPT + 1)
    have spm := spm_beginAttempt (s := s) (s.get F.SPM_STAT_ATTEMPT + 1)
    refine ⟨_, exec_retryWaitEnd waits, state, attempt, mot, congrArg Spm.sense spm, fun again => ?_, kept, beginAttempt_moves.frame (by decide)⟩
    rw [spm, attempting, bne_iff_ne.mpr (by omega), Bool.and_true]
  case other =>
    intro s
    exact ⟨exec_spmSelfTest_ready, fun other => ⟨exec_spmSelfTest_other other true, exec_spmSelfTest_other other false⟩, startRows_other⟩

end Sys2Proof.Machine

end

section

/-! PROOF. The spindle's brake, its faults and its regulation (R204, R205, R212 to R214, R220): what each leaves of SPM and of the engines. -/

namespace Sys2Proof.Machine

variable {s : State}

/-! ### Coast and brake (R200, R213) -/

theorem regsKept_spinCoast : regsKept [R.MOT_SPN_CMD] s (spinCoast s) := regsKept_sendSpindle 6 0 0 0

theorem regsKept_spinBrake : regsKept [R.MOT_SPN_CMD] s (spinBrake s) := regsKept_sendSpindle 7 0 0 0

theorem spm_spinCoast : (spinCoast s).spm = s.spm := spm_sendSpindle 6 0 0 0

theorem spm_spinBrake : (spinBrake s).spm = s.spm := spm_sendSpindle 7 0 0 0

theorem fifo_spinBrake : (spinBrake s).mot.spindle = s.mot.spindle := fifo_sendSpindle 7 0 0 0

/-! ### A brake begins (R213, R214) -/

/-- What the begin of a brake leaves of SPM's own state. -/
def brakes (after : AfterBrake) (m : Spm) : Spm :=
  { m with after := after, brakeDue := none, restCheck := false, decel := false, probing := false }

theorem enterBraking_eq (still : spinState s ≠ Sp.changing) (after : AfterBrake) :
    enterBraking after s = spinBrake ((setSpin Sp.braking (withFifo [] s)).onSpm (brakes after)) := by
  rw [enterBraking, if_neg still]
  rfl

/-- A brake outside a cadence change shows BRAKING, empties the FIFO and sends its frame. -/
theorem enterBraking_spec (still : spinState s ≠ Sp.changing) (after : AfterBrake) :
    spinState (enterBraking after s) = Sp.braking ∧
      (enterBraking after s).get F.SPM_STAT_AT_SPEED = 0 ∧
      (enterBraking after s).mot.spindle = [] ∧
      (enterBraking after s).spm = brakes after s.spm ∧
      regsKept [R.SPM_STAT, R.MOT_SPN_CMD] s (enterBraking after s) ∧
      Moves 0x8060801 s (enterBraking after s) := by
  obtain ⟨state, speed, kept⟩ := setSpin_spec (s := withFifo [] s) (st := Sp.braking) (by decide)
  have shown : regsKept [R.SPM_STAT] s ((setSpin Sp.braking (withFifo [] s)).onSpm (brakes after)) :=
    (((withFifo_moves []).regsKept rfl).trans kept).trans (onSpm_moves.regsKept rfl)
  rw [enterBraking_eq still]
  refine ⟨?_, ?_, ?_, ?_, (shown.mono (by simp)).trans (regsKept_spinBrake.mono (by simp)), ?_⟩
  · rw [regsKept_spinBrake.spinState_eq (by decide), spinState, get_onSpm]
    exact state
  · rw [regsKept_spinBrake.get (by decide), get_onSpm, speed]
    rfl
  · simp only [fifo_spinBrake, onSpm_rest, mot_setSpin, mot_withFifo]
  · simp only [spm_spinBrake, spm_onSpm, spm_setSpin, withFifo_rest]
  · exact spinBrake_moves.on (onSpm_moves.on (setSpin_moves.on ((withFifo_moves []).wide rfl) rfl) rfl) rfl

/-- The fault's brake that is already due stands; any other gives way to a brake command (R205, R214). -/
theorem brakeEnd_stopped (due : Option AfterBrake) : brakeEnd due .stopped = if due = some .fault then .fault else .stopped := by
  rcases due with _ | due
  · rfl
  · cases due <;> rfl

theorem requestBrake_quiet (quiet : allQuiet s = true) (after : AfterBrake) : requestBrake after s = enterBraking (brakeEnd s.spm.brakeDue after) s :=
  if_pos quiet

theorem requestBrake_held (loud : allQuiet s = false) (after : AfterBrake) :
    requestBrake after s = s.onSpm (fun m => { m with brakeDue := some (brakeEnd s.spm.brakeDue after) }) := if_neg (ne_true_of_eq_false loud)

/-! ### Commands (R212 to R214) -/

theorem spinBrakeCommand_spinning (starts : Sp.sense ≤ spinState s) (ends : spinState s ≤ Sp.changing) :
    spinBrakeCommand s = requestBrake .stopped s := if_pos ⟨starts, ends⟩

theorem spinBrakeCommand_refused (other : spinState s = Sp.stopped ∨ Sp.braking ≤ spinState s) :
    spinBrakeCommand s = s.flag F.SPM_FLT_REQ_REJ := by
  refine if_neg ?_
  simp only [Sp.stopped, Sp.braking, Sp.sense, Sp.changing] at *
  omega

theorem exec_spindleBrake (accepts : s.accepts R.SPM_CMD = true) :
    exec .spindleBrake s = .next ((spinBrakeCommand s).settle.answer .done) := congrArg Host.Outcome.next (spinRow_accepted accepts 2)

theorem exec_spindleClearFault (accepts : s.accepts R.SPM_CMD = true) :
    exec .spindleClearFault s = .next ((spinClearFault s).settle.answer .done) := congrArg Host.Outcome.next (spinRow_accepted accepts 3)

/-- A clear-fault command lets a unit lost by a fault return with the next AT_SPEED (R212). -/
def faultCleared (m : Spm) : Spm := { m with okState := if m.okState = 1 then 2 else m.okState }

theorem spinClearFault_fault (fault : spinState s = Sp.fault) : spinClearFault s = (setSpin Sp.stopped s).onSpm faultCleared := if_pos fault

theorem spinClearFault_refused (other : spinState s ≠ Sp.fault) : spinClearFault s = s.flag F.SPM_FLT_REQ_REJ := if_neg other

/-! ### The probe of a brake (R213) -/

theorem exec_brakeProbe_begins (braking : spinState s = Sp.braking) (probing : s.spm.probing = false) :
    exec .brakeProbe s = .next (spinCoast (s.onSpm (fun m => { m with probing := true, volts := [] }))) :=
  (if_neg (not_not.mpr braking)).trans (if_pos (by rw [probing]; rfl))

/-- A probe judged: SPM no longer probes. -/
def probed (s : State) : State := s.onSpm (fun m => { m with probing := false })

theorem exec_brakeProbe_judged (braking : spinState s = Sp.braking) (probing : s.spm.probing = true) (samples : 2000 ≤ s.spm.volts.length) :
    exec .brakeProbe s = .next (if peakVolts s < s.get F.SPM_BRAKE_CFG_STOP_MV then (brakeStopped (probed s)).settle else spinBrake (probed s)) :=
  (if_neg (not_not.mpr braking)).trans ((if_neg (by rw [probing]; exact Bool.false_ne_true)).trans (if_neg (Nat.not_lt.mpr samples)))

/-- The state in which a brake that does not lead to a start ends. -/
def brakeGoal (after : AfterBrake) : Nat := match after with | .fault => Sp.fault | .retry => Sp.retryWait | _ => Sp.stopped

/-- The coast of a spindle that stands, with a speed of 0. -/
def coastStopped (s : State) : State := (spinCoast s).put F.SPM_SPEED_SPEED 0

theorem spm_coastStopped : (coastStopped s).spm = s.spm := by simp only [coastStopped, put_rest, spm_spinCoast]

theorem brakeStopped_eq (ends : s.spm.after ≠ .start) : brakeStopped s = setSpin (brakeGoal s.spm.after) (coastStopped s) := by
  have after : ((spinCoast s).put F.SPM_SPEED_SPEED 0).spm = s.spm := spm_coastStopped
  unfold brakeStopped
  dsimp only
  rw [after]
  cases h : s.spm.after with
  | start => exact absurd h ends
  | stopped => rfl
  | fault => rfl
  | retry => rfl

theorem brakeGoal_lt (after : AfterBrake) : brakeGoal after < 16 := by cases after <;> decide

theorem brakeStopped_spec (ends : s.spm.after ≠ .start) :
    spinState (brakeStopped s) = brakeGoal s.spm.after ∧
      (brakeStopped s).get F.SPM_SPEED_SPEED = 0 ∧
      (brakeStopped s).spm = s.spm ∧
      regsKept [R.SPM_STAT, R.SPM_SPEED, R.MOT_SPN_CMD] s (brakeStopped s) := by
  have lt := brakeGoal_lt s.spm.after
  have speed : regsKept [R.SPM_SPEED] (spinCoast s) (coastStopped s) := regsKept_put (f := F.SPM_SPEED_SPEED) List.mem_cons_self 0
  have state : regsKept [R.SPM_STAT] (coastStopped s) (setSpin (brakeGoal s.spm.after) (coastStopped s)) := regsKept_setSpin lt
  rw [brakeStopped_eq ends]
  refine ⟨spinState_setSpin lt, ?_, ?_, ((regsKept_spinCoast.mono (by simp)).trans (speed.mono (by simp))).trans (state.mono (by simp))⟩
  · exact (state.get (f := F.SPM_SPEED_SPEED) (by decide)).trans (get_put_same (f := F.SPM_SPEED_SPEED) (of_decide_eq_true rfl) 0)
  · rw [spm_setSpin, spm_coastStopped]

/-! ### Every actuator retracted (R205, R217) -/

section

variable {n : Lane}

theorem motionQuiet_congr {t : State} (h : motionState t n = motionState s n) : motionQuiet t n = motionQuiet s n := by
  simp only [motionQuiet, h]

theorem svRetract_quiet (quiet : motionQuiet s n = true) : svRetract n s = s := if_pos quiet

theorem retract_not_quiet (retract : motionState s n = Mo.retract) : motionQuiet s n = false := by
  rw [motionQuiet, retract]
  rfl

theorem motionState_svRetract_loud (loud : motionQuiet s n = false) : motionState (svRetract n s) n = Mo.retract :=
  (svRetract_loud (fun mem => ne_true_of_eq_false loud (motionQuiet_iff.mpr mem))).1

theorem servoKept_svRetract : ServoKept (motionRegs n) s (svRetract n s) := by
  cases quiet : motionQuiet s n with
  | true =>
    rw [svRetract_quiet quiet]
    exact .refl
  | false =>
    obtain ⟨-, -, -, -, kept⟩ := svRetract_loud (s := s) (fun mem => ne_true_of_eq_false quiet (motionQuiet_iff.mpr mem))
    exact kept

theorem headSide_svRetract : HeadSide s (svRetract n s) := by
  have flies : HeadSide s (((retractSleep n (setMotion n Mo.retract (abandonTarget n s))).tally (16 + actOf s n)).onSv n retracted) :=
    ((((abandonTarget_moves.headSide rfl).trans headSide_setMotion).trans (retractSleep_moves.headSide rfl)).trans headSide_tally).trans
      (onSv_moves.headSide rfl)
  exact .ite .refl (.ite (onSv_moves.headSide rfl) flies)

/-- An engine that does not fly stays in its state while engines retract. -/
theorem motionState_svRetract_rests (rests : motionQuiet s n = true ∨ motionState s n = Mo.retract) (m : Lane) :
    motionState (svRetract m s) n = motionState s n := by
  by_cases same : n = m
  · subst same
    rcases rests with quiet | retract
    · rw [svRetract_quiet quiet]
    · rw [motionState_svRetract_loud (retract_not_quiet retract), retract]
  · exact servoKept_svRetract.motionState_other n same

/-- An engine that is not quiet is not quiet after a retract of any engine. -/
theorem motionQuiet_svRetract (loud : motionQuiet s n = false) (m : Lane) : motionQuiet (svRetract m s) n = false := by
  by_cases same : n = m
  · subst same
    exact retract_not_quiet (motionState_svRetract_loud loud)
  · exact (motionQuiet_congr (servoKept_svRetract.motionState_other n same)).trans loud

end

/-- A property that the update for one element of the list brings about and no update ends, given one that every update keeps. -/
theorem forEach_establishes {α : Type} {f : α → State → State} {I P : State → Prop} {a : α} (start : I s) (inv : ∀ b t, I t → I (f b t))
    (est : ∀ t, I t → P (f a t)) (keep : ∀ b t, P t → P (f b t)) {as : List α} (mem : a ∈ as) : P (forEach as f s) := by
  have stays (bs : List α) {t : State} (h : P t) : P (forEach bs f t) := by
    induction bs generalizing t with
    | nil => exact h
    | cons b bs ih => exact ih (keep b t h)
  induction as generalizing s with
  | nil => cases mem
  | cons b bs ih =>
    rcases List.mem_cons.mp mem with rfl | later
    · exact stays bs (est s start)
    · exact ih (inv b s start) later

/-- A property that every update keeps. -/
theorem forEach_invariant {α : Type} {f : α → State → State} {I : State → Prop} (inv : ∀ b t, I t → I (f b t)) (as : List α)
    (start : I s) : I (forEach as f s) := by
  induction as generalizing s with
  | nil => exact start
  | cons b bs ih => exact ih (inv b s start)

/-- A fault of the spindle with every actuator retracted (R205). -/
def allRetracted (f : Fld) (s : State) : State := forEach lanes svRetract (s.flag f)

theorem allRetracted_moves (f : Fld) : Moves 0x1C08EB01 s (allRetracted f s) :=
  (forEach_moves (fun _ _ => svRetract_moves)).on (flag_moves.wide rfl) rfl

theorem motionState_flag_spm {f : Fld} (flt : f.addr = R.SPM_FLT) (n : Lane) : motionState (s.flag f) n = motionState s n := by
  have apart : R.SVn_STAT n ∉ [R.SPM_FLT] := by
    revert n
    decide
  exact (flt ▸ regsKept_flag s f : regsKept [R.SPM_FLT] s (s.flag f)).get (f := F.SVn_STAT_STATE n) apart

/-- The flag of the fault is shown, the engines that were not quiet retract, and the others stand. -/
theorem allRetracted_spec {f : Fld} (flt : f.addr = R.SPM_FLT) (fits : f.lo + f.width ≤ 32) (bit : f.width = 1) :
    (allRetracted f s).get f = 1 ∧
      (∀ n : Lane, motionQuiet s n = false → motionState (allRetracted f s) n = Mo.retract) ∧
      (∀ n : Lane, motionQuiet s n = true → motionState (allRetracted f s) n = motionState s n) := by
  have side : HeadSide (s.flag f) (allRetracted f s) := .forEach (fun _ _ => headSide_svRetract)
  refine ⟨?_, fun n loud => ?_, fun n quiet => ?_⟩
  · rw [side.get (by rw [flt]; decide +kernel), get_flag fits, bit]
    rfl
  · exact forEach_establishes (I := fun t => motionQuiet t n = false) (P := fun t => motionState t n = Mo.retract)
      ((motionQuiet_congr (motionState_flag_spm flt n)).trans loud) (fun m t h => motionQuiet_svRetract h m) (fun t h => motionState_svRetract_loud h)
      (fun m t h => (motionState_svRetract_rests (.inr h) m).trans h) (mem_lanes n)
  · refine forEach_invariant (I := fun t => motionState t n = motionState s n) (fun m t h => ?_) lanes (motionState_flag_spm flt n)
    exact (motionState_svRetract_rests (.inl ((motionQuiet_congr h).trans quiet)) m).trans h

/-! ### The speed loop (R204, R205) -/

/-- The speed of a revolution shown (R204). -/
def speedShown (ns : Nat) (s : State) : State := s.put F.SPM_SPEED_SPEED (min (2 ^ 17 - 1) (600000000000 / ns))

theorem regsKept_speedShown (ns : Nat) : regsKept [R.SPM_SPEED] s (speedShown ns s) := regsKept_put (f := F.SPM_SPEED_SPEED) List.mem_cons_self _

theorem spinState_speedShown (ns : Nat) : spinState (speedShown ns s) = spinState s := (regsKept_speedShown ns).spinState_eq (by decide)

theorem get_speedShown (ns : Nat) : (speedShown ns s).get F.SPM_SPEED_SPEED = min (2 ^ 17 - 1) (600000000000 / ns) :=
  (get_put_same (f := F.SPM_SPEED_SPEED) (of_decide_eq_true rfl) _).trans
    (Nat.mod_eq_of_lt (Nat.lt_of_le_of_lt (Nat.min_le_left ..) (by decide)))

theorem exec_speedUpdate {ns : Nat} (turn : revolution s = some ns) :
    exec .speedUpdate s = .next (spinRestored (runSpeed ((ns : Rat) / 1000000) (speedShown ns s))).settle := by
  show execSpeedUpdate s = _
  rw [execSpeedUpdate, turn]
  rfl

theorem exec_speedUpdate_none (none_ : revolution s = none) : exec .speedUpdate s = .next s := by
  show execSpeedUpdate s = _
  rw [execSpeedUpdate, none_]

theorem spinRestored_same (same : spinState s ≠ Sp.atSpeed ∨ s.spm.okState ≠ 2) : spinRestored s = s := if_neg (by tauto)

/-- The loop rests where SPM neither runs up nor regulates. -/
theorem runSpeed_rests (rests : spinState s ∈ [Sp.stopped, Sp.openLoop, Sp.braking, Sp.fault, Sp.partner]) (ms : Rat) : runSpeed ms s = s := by
  obtain ⟨runup, locking, atSpeed, changing⟩ :
      spinState s ≠ Sp.runup ∧ spinState s ≠ Sp.locking ∧ spinState s ≠ Sp.atSpeed ∧ spinState s ≠ Sp.changing := by
    simp only [List.mem_cons, List.not_mem_nil, or_false, Sp.stopped, Sp.openLoop, Sp.braking, Sp.fault, Sp.partner, Sp.runup, Sp.locking, Sp.atSpeed,
      Sp.changing] at *
    omega
  simp only [runSpeed, if_neg runup, if_neg locking, if_neg atSpeed, if_neg changing]

theorem speedLoop_spec : (speedLoop s).spm.okState = s.spm.okState ∧ (speedLoop s).spm.goal = s.spm.goal := by
  unfold speedLoop
  split <;> exact ⟨rfl, rfl⟩

theorem inRegulation_congr {t : State} (goal : t.spm.goal = s.spm.goal) (speed : t.get F.SPM_SPEED_SPEED = s.get F.SPM_SPEED_SPEED) (tol : Nat) :
    inRegulation t tol = inRegulation s tol := by
  simp only [inRegulation, goal, speed]

/-- A regulated speed in AT_SPEED ends a run of revolutions out of tolerance. -/
def regulated (s : State) : State := (speedLoop s).onSpm (fun m => { m with faultRevs := 0 })

theorem regulated_moves : Moves 0x40000 s (regulated s) := onSpm_moves.step speedLoop_moves

theorem runSpeed_regulated (atSpeed : spinState s = Sp.atSpeed) (tol : inRegulation s (s.get F.SPM_REG_CFG_FAULT_TOL) = true) (ms : Rat) :
    runSpeed ms s = regulated s := by
  have kept : regsKept [] s (speedLoop s) := speedLoop_moves.regsKept rfl
  have within_ : inRegulation (speedLoop s) ((speedLoop s).get F.SPM_REG_CFG_FAULT_TOL) = true := by
    rw [kept.get (by simp), inRegulation_congr speedLoop_spec.2 (kept.get (by simp)), tol]
  have runup : spinState s ≠ Sp.runup := by rw [atSpeed]; decide
  have locking : spinState s ≠ Sp.locking := by rw [atSpeed]; decide
  simp only [runSpeed, if_neg runup, if_neg locking, if_pos atSpeed, if_pos within_, regulated]

end Sys2Proof.Machine

end

section

/-! PROOF. Cadence changes (R170, R216, R217, R240): the request, the drain of the lanes and the end of a lane's pause. -/

namespace Sys2Proof.Machine

variable {s : State}

/-! ### Lanes and actuators written again -/

theorem act_onAct (s : State) (a b : Lane) (f : Act → Act) : (s.onAct a f).act b = if b = a then f (s.act a) else s.act b := get_setV ..

theorem act_onAct_same (s : State) (a : Lane) (f : Act → Act) : (s.onAct a f).act a = f (s.act a) := (act_onAct ..).trans (if_pos rfl)

theorem ln_onAct (s : State) (a : Lane) (f : Act → Act) (m : Lane) : (s.onAct a f).ln m = s.ln m := ln_of_lns (onAct_moves.parts 13 rfl) m

theorem ln_put (s : State) (f : Fld) (v : Nat) (m : Lane) : (s.put f v).ln m = s.ln m := ln_of_lns (put_moves.parts 13 rfl) m

theorem ln_onSpm (s : State) (f : Spm → Spm) (m : Lane) : (s.onSpm f).ln m = s.ln m := rfl

/-- An update whose every step leaves the state as it is. -/
theorem forEach_fixed {α : Type} {f : α → State → State} {as : List α} (h : ∀ a, f a s = s) : forEach as f s = s :=
  forEach_invariant (I := fun t => t = s) (fun a _ same => same ▸ h a) as rfl

/-! ### Requests (R215, R216, R219) -/

theorem laneBusy_cadReq : laneBusy s R.SPM_CAD_REQ = false := laneBusy_eq_false (b := .spm) (n := 0) (o := 0x1C) (by decide) (by decide) (by decide)

theorem exec_cadenceRequest (early : earlyWrite s R.SPM_CAD_REQ = false) (c : BitVec 2) :
    exec (.cadenceRequest c) s = .next ((cadenceRequest c.toNat s).settle.answer .done) :=
  congrArg Host.Outcome.next (write_taken early laneBusy_cadReq)

/-- The requested cadence noted (R215). -/
def cadenceNoted (c : Nat) (s : State) : State := s.put F.SPM_CAD_REQ_CAD c

theorem regsKept_cadenceNoted (c : Nat) : regsKept [R.SPM_CAD_REQ] s (cadenceNoted c s) := regsKept_put (f := F.SPM_CAD_REQ_CAD) List.mem_cons_self c

theorem cadence_cadenceNoted (c : Nat) : cadence (cadenceNoted c s) = cadence s := (regsKept_cadenceNoted c).get (f := F.SPM_STAT_CAD) (by decide)

theorem cadenceRequest_undeclared {c : Nat} (undeclared : cadenceDeclared s c = false) : cadenceRequest c s = s.flag F.SPM_FLT_REQ_REJ :=
  if_pos (by rw [undeclared]; rfl)

section

variable {c : Nat} (declared : cadenceDeclared s c = true)

include declared

theorem cadenceRequest_declared : cadenceRequest c s =
    if spinState s = Sp.atSpeed then (if c = cadence (cadenceNoted c s) then cadenceNoted c s else startChange c (cadenceNoted c s))
    else if spinState s = Sp.changing then (if c = (cadenceNoted c s).spm.goal then cadenceNoted c s else
      (cadenceNoted c s).onSpm (fun m => { m with goal := c, ramping := !m.draining, lockRevs := 0 }))
    else (cadenceNoted c s).onSpm (fun m => { m with goal := c }) := if_neg (by rw [declared]; exact Bool.false_ne_true)

theorem cadenceRequest_atSpeed (atSpeed : spinState s = Sp.atSpeed) :
    cadenceRequest c s = if c = cadence s then cadenceNoted c s else startChange c (cadenceNoted c s) := by
  rw [cadenceRequest_declared declared, if_pos atSpeed, cadence_cadenceNoted]

theorem cadenceRequest_changing (changing : spinState s = Sp.changing) (moves : c ≠ s.spm.goal) :
    cadenceRequest c s = (cadenceNoted c s).onSpm (fun m => { m with goal := c, ramping := !m.draining, lockRevs := 0 }) := by
  have goal : (cadenceNoted c s).spm.goal = s.spm.goal := rfl
  rw [cadenceRequest_declared declared, if_neg (by rw [changing]; decide), if_pos changing, goal, if_neg moves]

theorem cadenceRequest_noted (other : spinState s ∉ [Sp.atSpeed, Sp.changing]) :
    cadenceRequest c s = (cadenceNoted c s).onSpm (fun m => { m with goal := c }) := by
  obtain ⟨atSpeed, changing⟩ : spinState s ≠ Sp.atSpeed ∧ spinState s ≠ Sp.changing := by simpa using other
  rw [cadenceRequest_declared declared, if_neg atSpeed, if_neg changing]

end

/-! ### The lanes drain (R216, R240) -/

/-- The drain of one present lane. -/
def drainLane (n : Lane) (s : State) : State :=
  if lanePresent s n then spoilAttempt n ((msInt n 4 (s.onLn n (fun l => { l with drain := true }))).onAct (actOf s n)
    (fun a => { a with pausedAt := some (s.sv n).wedges })) else s

theorem startDrain_eq : startDrain s = forEach lanes drainLane s := rfl

/-- The lane drains, and its sequencer is told. -/
def Draining (n : Lane) (s : State) : Prop := (s.ln n).drain = true ∧ s.get ((⟨R.MSn_INT n, 6, 0⟩ : Fld).bit 4) = 1

theorem regsKept_msInt (n : Lane) : regsKept [R.MSn_INT n] s (msInt n 4 s) :=
  regsKept_put (f := (⟨R.MSn_INT n, 6, 0⟩ : Fld).bit 4) List.mem_cons_self 1

theorem regsKept_spoiled {l : List Nat} {a : Lane} {f : Act → Act} (n : Lane) : regsKept l s (spoilAttempt n (s.onAct a f)) :=
  (spoilAttempt_moves.on (onAct_moves.wide (m := 0x82000) rfl) rfl).regsKept rfl

theorem regsKept_drainLane (n : Lane) : regsKept [R.MSn_INT n] s (drainLane n s) := by
  unfold drainLane
  split
  · exact ((onLn_moves.regsKept rfl).trans (regsKept_msInt n)).trans (regsKept_spoiled n)
  · exact .of_regs rfl

theorem msInt_apart (n m : Lane) : R.GLB_UNIT_OK0 ∉ [R.MSn_INT n] ∧ R.SPM_STAT ∉ [R.MSn_INT n] ∧ R.SPM_CAD_REQ ∉ [R.MSn_INT n] ∧
    R.MSn_INT m ∉ [R.SVn_STAT n] ∧ (m ≠ n → R.MSn_INT m ∉ [R.MSn_INT n]) := by
  revert n m
  decide

theorem lanePresent_drainLane (m n : Lane) : lanePresent (drainLane m s) n = lanePresent s n := by
  rw [lanePresent, (regsKept_drainLane m).get (f := (F.GLB_UNIT_OK0_LANE).bit n) (msInt_apart m n).1, lanePresent]

theorem drainLane_present {n : Lane} (present : lanePresent s n = true) : Draining n (drainLane n s) := by
  rw [drainLane, if_pos present]
  refine ⟨?_, ?_⟩
  · rw [spoilAttempt, ln_onLn_same, ln_onAct, msInt, ln_put, ln_onLn_same]
  · rw [(regsKept_spoiled (l := []) n).get (by simp), msInt, get_put_same (of_decide_eq_true rfl)]
    rfl

theorem ln_drainLane_other {n m : Lane} (other : n ≠ m) : (drainLane m s).ln n = s.ln n := by
  unfold drainLane
  split
  · rw [spoilAttempt, ln_onLn_other other, ln_onAct, msInt, ln_put, ln_onLn_other other]
  · rfl

theorem Draining.drainLane {n : Lane} (h : Draining n s) (m : Lane) : Draining n (drainLane m s) := by
  by_cases same : n = m
  · subst same
    cases present : lanePresent s n with
    | true => exact drainLane_present present
    | false => rwa [Machine.drainLane, if_neg (ne_true_of_eq_false present)]
  · obtain ⟨drain, told⟩ := h
    exact ⟨by rw [ln_drainLane_other same, drain], ((regsKept_drainLane m).get ((msInt_apart m n).2.2.2.2 same)).trans told⟩

theorem startDrain_drains {n : Lane} (present : lanePresent s n = true) : Draining n (startDrain s) :=
  forEach_establishes (I := fun t => lanePresent t n = true) (P := Draining n) present (fun m _ h => (lanePresent_drainLane m n).trans h)
    (fun _ h => drainLane_present h) (fun m _ h => h.drainLane m) (mem_lanes n)

/-! ### A change begins (R170, R216) -/

/-- SVn shows the change. -/
def showChange (n : Lane) (s : State) : State := s.put (F.SVn_STAT_CAD_CHANGE n) 1

theorem get_showChange_same (n : Lane) : (showChange n s).get (F.SVn_STAT_CAD_CHANGE n) = 1 := by
  rw [showChange, get_put_same (of_decide_eq_true rfl)]
  rfl

theorem regsKept_showChange (n : Lane) : regsKept [R.SVn_STAT n] s (showChange n s) :=
  regsKept_put (f := F.SVn_STAT_CAD_CHANGE n) List.mem_cons_self 1

theorem svStat_apart {n m : Lane} (h : n ≠ m) : R.SVn_STAT n ∉ [R.SVn_STAT m] := by
  revert n m
  decide

/-- Every SVn shows the change. -/
def changeShown (s : State) : State := forEach lanes showChange s

theorem get_changeShown (n : Lane) : (changeShown s).get (F.SVn_STAT_CAD_CHANGE n) = 1 := by
  refine forEach_establishes (I := fun _ => True) (P := fun t => t.get (F.SVn_STAT_CAD_CHANGE n) = 1) trivial (fun _ _ _ => trivial)
    (fun t _ => get_showChange_same n) (fun m t h => ?_) (mem_lanes n)
  by_cases same : n = m
  · exact same ▸ get_showChange_same n
  · exact ((regsKept_showChange m).get (f := F.SVn_STAT_CAD_CHANGE n) (svStat_apart same)).trans h

theorem switch_signalSets (c : Nat) (ends : Bool) (n : Lane) : ((signalSets c ends s).sv n).switch = some (c, ends) := by
  refine forEach_establishes (I := fun _ => True) (P := fun t => (t.sv n).switch = some (c, ends)) trivial (fun _ _ _ => trivial)
    (fun t _ => by rw [sv_onSv_same]) (fun m t h => ?_) (mem_lanes n)
  rw [sv_onSv]
  split
  · rfl
  · exact h

/-- CHANGING shown, every present lane draining, and the change shown by every SVn. -/
def changeBegun (s : State) : State := changeShown (startDrain (setSpin Sp.changing s))

/-- What the begin of a change leaves of SPM's own state. -/
def changes (c now : Nat) (ref : Rat) (m : Spm) : Spm :=
  { m with goal := c, draining := true, ramping := false, drainAt := now, lockRevs := 0, faultRevs := 0, ref := ref }

/-- The sets signalled, and the pauses of the change counted from 0. -/
def changeSignalled (c : Nat) (s : State) : State := (signalSets (min c (cadence s)) false s).put F.SPM_CAD_STAT_LAST_PAUSE 0

theorem startChange_eq (c : Nat) : startChange c s = (changeSignalled c (changeBegun s)).onSpm
    (changes c (changeSignalled c (changeBegun s)).now.toNat (rpmOf (cadence (changeSignalled c (changeBegun s))) : Rat)) := rfl

theorem startChange_signalled_moves (c : Nat) : Moves 0x48001 (changeBegun s) (startChange c s) := by
  rw [startChange_eq, changeSignalled]
  exact onSpm_moves.on (put_moves.on (signalSets_moves.wide rfl) rfl) rfl

theorem regsKept_signalled (c : Nat) : regsKept [R.SPM_CAD_STAT] (changeBegun s) (startChange c s) := by
  have signalled : regsKept [R.SPM_CAD_STAT] (changeBegun s) (changeSignalled c (changeBegun s)) :=
    (signalSets_moves.regsKept rfl).trans (regsKept_put (f := F.SPM_CAD_STAT_LAST_PAUSE) List.mem_cons_self 0)
  rw [startChange_eq]
  exact signalled.trans (onSpm_moves.regsKept rfl)

theorem reg_startDrain {a : Nat} (seq : ∀ n : Lane, a ∉ [R.MSn_INT n]) : (startDrain s).reg a = s.reg a := by
  rw [startDrain_eq]
  exact forEach_keeps (fun t => t.reg a) (fun n _ => regsKept_drainLane n a (seq n)) lanes s

theorem reg_changeShown {a : Nat} (engine : ∀ n : Lane, a ∉ [R.SVn_STAT n]) : (changeShown s).reg a = s.reg a := by
  rw [changeShown]
  exact forEach_keeps (fun t => t.reg a) (fun n _ => regsKept_showChange n a (engine n)) lanes s

theorem changeShown_moves : Moves 0x1 s (changeShown s) := forEach_moves (fun _ _ => put_moves)

/-- The registers beside those of the sequencers and the engines as CHANGING leaves them. -/
theorem reg_changeBegun {a : Nat} (seq : ∀ n : Lane, a ∉ [R.MSn_INT n]) (engine : ∀ n : Lane, a ∉ [R.SVn_STAT n]) :
    (changeBegun s).reg a = (setSpin Sp.changing s).reg a :=
  (reg_changeShown engine).trans (reg_startDrain seq)

/-- SPM's status and request registers lie apart from those that a change writes. -/
theorem changeRegs_apart : ∀ a ∈ [R.SPM_STAT, R.SPM_CAD_REQ],
    (∀ n : Lane, a ∉ [R.MSn_INT n]) ∧ (∀ n : Lane, a ∉ [R.SVn_STAT n]) ∧ a ∉ [R.SPM_CAD_STAT] := by decide

theorem get_changeBegun {f : Fld} (own : f.addr ∈ [R.SPM_STAT, R.SPM_CAD_REQ]) : (changeBegun s).get f = (setSpin Sp.changing s).get f := by
  obtain ⟨seq, engine, -⟩ := changeRegs_apart _ own
  rw [State.get, State.get, reg_changeBegun seq engine]

theorem get_startChange {f : Fld} (own : f.addr ∈ [R.SPM_STAT, R.SPM_CAD_REQ]) (c : Nat) :
    (startChange c s).get f = (setSpin Sp.changing s).get f := by
  obtain ⟨-, -, apart⟩ := changeRegs_apart _ own
  rw [(regsKept_signalled c).get apart, get_changeBegun own]

theorem Draining.congr {n : Lane} {t : State} (h : Draining n s) (lns : t.lns = s.lns) (told : t.reg (R.MSn_INT n) = s.reg (R.MSn_INT n)) :
    Draining n t := by
  have same : t.get ((⟨R.MSn_INT n, 6, 0⟩ : Fld).bit 4) = s.get ((⟨R.MSn_INT n, 6, 0⟩ : Fld).bit 4) := by
    show ((t.reg (R.MSn_INT n)).extractLsb' _ _).toNat = ((s.reg (R.MSn_INT n)).extractLsb' _ _).toNat
    rw [told]
  obtain ⟨drains, seen⟩ := h
  exact ⟨(congrArg Ln.drain (ln_of_lns lns n)).trans drains, same.trans seen⟩

theorem intReg_apart (n m : Lane) : R.MSn_INT n ∉ [R.SVn_STAT m] ∧ R.MSn_INT n ∉ [R.SPM_CAD_STAT] ∧ R.SVn_STAT n ∉ [R.SPM_CAD_STAT] ∧
    R.GLB_UNIT_OK0 ∉ [R.SPM_STAT] := by
  revert n m
  decide

theorem startChange_drains {n : Lane} (present : lanePresent s n = true) (c : Nat) : Draining n (startChange c s) := by
  have still : lanePresent (setSpin Sp.changing s) n = true := by
    rw [lanePresent, (regsKept_setSpin (by decide)).get (f := (F.GLB_UNIT_OK0_LANE).bit n) (intReg_apart n n).2.2.2]
    exact present
  have begun : Draining n (changeBegun s) :=
    (startDrain_drains still).congr (changeShown_moves.parts 13 rfl) (reg_changeShown fun m => (intReg_apart n m).1)
  exact begun.congr ((startChange_signalled_moves c).parts 13 rfl) (regsKept_signalled c _ (intReg_apart n n).2.1)

/-- A change shows CHANGING, drains the present lanes, and signals the set of the slower cadence to every SVn. -/
theorem startChange_spec (c : Nat) :
    spinState (startChange c s) = Sp.changing ∧
      (startChange c s).get F.SPM_CAD_REQ_CAD = s.get F.SPM_CAD_REQ_CAD ∧
      (startChange c s).spm.goal = c ∧
      (startChange c s).spm.draining = true ∧
      (∀ n : Lane, (startChange c s).get (F.SVn_STAT_CAD_CHANGE n) = 1) ∧
      (∀ n : Lane, ((startChange c s).sv n).switch = some (min c (cadence s), false)) := by
  have cad : cadence (changeBegun s) = cadence s := by
    rw [cadence, get_changeBegun (f := F.SPM_STAT_CAD) (by simp [F.SPM_STAT_CAD]), get_setSpin (of_decide_eq_true rfl), cadence]
  refine ⟨?_, ?_, by rw [startChange_eq, spm_onSpm, changes], by rw [startChange_eq, spm_onSpm, changes], fun n => ?_, fun n => ?_⟩
  · rw [spinState, get_startChange (f := F.SPM_STAT_STATE) (by simp [F.SPM_STAT_STATE])]
    exact spinState_setSpin (by decide)
  · rw [get_startChange (f := F.SPM_CAD_REQ_CAD) (by simp [F.SPM_CAD_REQ_CAD]), (regsKept_setSpin (by decide)).get (by decide)]
  · rw [(regsKept_signalled c).get (f := F.SVn_STAT_CAD_CHANGE n) (intReg_apart n n).2.2.1]
    exact get_changeShown n
  · have last : Moves 0x40001 (signalSets (min c (cadence (changeBegun s))) false (changeBegun s)) (startChange c s) := by
      rw [startChange_eq, changeSignalled]
      exact onSpm_moves.on (put_moves.wide rfl) rfl
    rw [sv_of_svs (last.parts 15 rfl), switch_signalSets, cad]

/-! ### The drain ends (R216) -/

/-- A lane without write data not yet read. -/
def withoutWrites (l : Ln) : Ln := { l with wfifo := [] }

theorem withoutWrites_of_nil {l : Ln} (nil : l.wfifo = []) : withoutWrites l = l := by
  rw [withoutWrites, ← nil]

theorem discardWrites_nil {n : Lane} (nil : (s.ln n).wfifo = []) : discardWrites n s = s := if_pos (by rw [nil]; rfl)

theorem ln_discardWrites (n m : Lane) : (discardWrites n s).ln m = if m = n then withoutWrites (s.ln n) else s.ln m := by
  by_cases nil : (s.ln n).wfifo = []
  · rw [discardWrites_nil nil, withoutWrites_of_nil nil]
    split
    next same => rw [same]
    next => rfl
  · have some_ : ¬ (s.ln n).wfifo.length = 0 := fun zero => nil (List.length_eq_zero_iff.mp zero)
    have discards : discardWrites n s = _ := if_neg some_
    have counted {t : State} {k : Nat} : (t.tally (28 + n) k).ln m = t.ln m := ln_of_lns (tally_moves.parts 13 rfl) m
    rw [discards, counted, ln_onAct, State.onLn, ln_setLn]
    rfl

/-- The write data of every lane discarded. -/
def allDiscarded (s : State) : State := forEach lanes discardWrites s

theorem allDiscarded_moves : Moves 0x82B01 s (allDiscarded s) := forEach_moves (fun _ _ => discardWrites_moves)

theorem ln_allDiscarded (n : Lane) : (allDiscarded s).ln n = withoutWrites (s.ln n) := by
  refine forEach_establishes (I := fun t => withoutWrites (t.ln n) = withoutWrites (s.ln n)) (P := fun t => t.ln n = withoutWrites (s.ln n)) rfl
    (fun m t h => ?_) (fun t h => ?_) (fun m t h => ?_) (mem_lanes n)
  · rw [ln_discardWrites]
    split
    next same => exact same ▸ h
    next => exact h
  · rw [ln_discardWrites, if_pos rfl, h]
  · rw [ln_discardWrites]
    split
    next same => rw [← same, h, withoutWrites, withoutWrites]
    next => exact h

theorem allDiscarded_nil (nil : ∀ n : Lane, (s.ln n).wfifo = []) : allDiscarded s = s := forEach_fixed (fun n => discardWrites_nil (nil n))

/-- The drain has ended: the ramp begins. -/
def ramps (m : Spm) : Spm := { m with draining := false, ramping := true }

theorem exec_drainComplete (drains : s.spm.draining = true) (changing : spinState s = Sp.changing)
    (closed : lanes.any (fun n => lanePresent s n && gateOpen s n) = false) :
    exec .drainComplete s = .next ((allDiscarded s).onSpm ramps) := by
  refine (if_neg ?_).trans rfl
  rw [drains, closed, changing]
  decide

/-! ### The end of the ramp, and of a lane's pause (R216, R217) -/

theorem exec_cadenceRampEnd (changing : spinState s = Sp.changing) (ramping : s.spm.ramping = true) (there : s.spm.ref = (rpmOf s.spm.goal : Rat)) :
    exec .cadenceRampEnd s = .next (s.onSpm (fun m => { m with ramping := false, lockRevs := 0 })) := if_pos ⟨changing, ramping, there⟩

theorem exec_laneResume {n : Lane} (drains : (s.ln n).drain = true) (atSpeed : spinState s = Sp.atSpeed)
    (relocked : s.on (F.LNn_STAT_PLL_LOCK n) = true ∨ s.get (F.LNn_BPW_BPW n) = 0) : exec (.laneResume n) s = .next (endPause n s).settle := by
  refine if_pos ?_
  simp only [drains, atSpeed, Bool.true_and, Bool.and_eq_true, Bool.or_eq_true, beq_iff_eq, true_and]
  exact relocked

/-- A lane whose drain has ended. -/
def resumed (l : Ln) : Ln := { l with drain := false }

/-- A pause that began at a wedge ends: its wedges are not charged. -/
def unpaused (wedges : Nat) (a : Act) : Act := { a with pausedAt := none, pauseW := a.pauseW + wedges }

/-- The longest pause of the change so far (R217). -/
def longestPause (s : State) : Nat := max (s.get F.SPM_CAD_STAT_LAST_PAUSE) (min (2 ^ 24 - 1) ((s.now.toNat - s.spm.drainAt) / 100))

section

variable {n : Lane}

theorem endPause_none (none_ : (s.act (actOf s n)).pausedAt = none) : endPause n s = s.onLn n resumed := by
  rw [endPause, none_]
  rfl

theorem endPause_some {w : Nat} (paused : (s.act (actOf s n)).pausedAt = some w) :
    endPause n s = ((s.onLn n resumed).onAct (actOf s n) (unpaused ((s.sv n).wedges - w))).put F.SPM_CAD_STAT_LAST_PAUSE (longestPause s) := by
  rw [endPause, paused]
  rfl

theorem longestPause_lt : longestPause s < 2 ^ 24 := by
  have shown : s.get F.SPM_CAD_STAT_LAST_PAUSE < 2 ^ 24 := rget_lt s.regs F.SPM_CAD_STAT_LAST_PAUSE
  unfold longestPause
  omega

theorem act_put (f : Fld) (v : Nat) (a : Lane) : (s.put f v).act a = s.act a := rfl

theorem act_onLn (f : Ln → Ln) (a : Lane) : (s.onLn n f).act a = s.act a := rfl

/-- A lane's pause ends: the lane's drain, the actuator's pause, and the longest pause shown. -/
theorem endPause_spec :
    (∀ m, (endPause n s).ln m = if m = n then resumed (s.ln n) else s.ln m) ∧
      ((endPause n s).act (actOf s n)).pausedAt = none ∧
      (∀ w, (s.act (actOf s n)).pausedAt = some w →
        ((endPause n s).act (actOf s n)).pauseW = (s.act (actOf s n)).pauseW + ((s.sv n).wedges - w) ∧
        (endPause n s).get F.SPM_CAD_STAT_LAST_PAUSE = longestPause s) ∧
      regsKept [R.SPM_CAD_STAT] s (endPause n s) := by
  cases paused : (s.act (actOf s n)).pausedAt with
  | none =>
    rw [endPause_none paused]
    exact ⟨fun m => ln_setLn .., paused, nofun, .of_regs rfl⟩
  | some w =>
    have kept : regsKept [R.SPM_CAD_STAT] s (endPause n s) := by
      rw [endPause_some paused]
      exact regsKept.trans (.of_regs rfl) (regsKept_put (f := F.SPM_CAD_STAT_LAST_PAUSE) List.mem_cons_self _)
    have act : (endPause n s).act (actOf s n) = unpaused ((s.sv n).wedges - w) (s.act (actOf s n)) := by
      rw [endPause_some paused, act_put, act_onAct_same, act_onLn]
    refine ⟨fun m => ?_, congrArg Act.pausedAt act, fun v same => ?_, kept⟩
    · rw [endPause_some paused, ln_put, ln_onAct]
      exact ln_setLn ..
    · obtain rfl : w = v := Option.some.inj same
      refine ⟨congrArg Act.pauseW act, ?_⟩
      rw [endPause_some paused, get_put_same (of_decide_eq_true rfl)]
      exact Nat.mod_eq_of_lt longestPause_lt

end

/-! ### Faults and rows whose state does not stand -/

theorem exec_zcTimeout (turns : spinState s ∈ [Sp.atSpeed, Sp.changing]) : exec .zcTimeout s = .next (spinFails F.SPM_FLT_REG_LOST s) :=
  congrArg Host.Outcome.next (if_pos (by simpa using turns))

theorem exec_cadTimeout (changing : spinState s = Sp.changing) (ramping : s.spm.ramping = false) (draining : s.spm.draining = false) :
    exec .cadTimeout s = .next (spinFails F.SPM_FLT_CAD_TIMEOUT s) :=
  congrArg Host.Outcome.next (if_pos (by simp [changing, ramping, draining]))

/-- A fault that retracts every actuator and brakes to FAULT. -/
theorem spinFails_spec {f : Fld} (flt : f.addr = R.SPM_FLT) (fits : f.lo + f.width ≤ 32) (bit : f.width = 1) :
    ∃ u : State, spinFails f s = spinLost (requestBrake .fault u) ∧
      u.get f = 1 ∧
      (∀ n : Lane, motionQuiet s n = false → motionState u n = Mo.retract) ∧
      (∀ n : Lane, motionQuiet s n = true → motionState u n = motionState s n) ∧
      u.spm = s.spm ∧
      onlyParts [.regs, .evr, .tly, .ccx, .lns, .mss, .svs, .rly, .reports, .sent, .freeN] s u := by
  obtain ⟨shown, loud, quiet⟩ := allRetracted_spec (s := s) flt fits bit
  exact ⟨allRetracted f s, rfl, shown, loud, quiet, (allRetracted_moves f).parts 18 rfl, (allRetracted_moves f).frame (by decide)⟩

/-- The rows of a brake, of a change and of a pause change nothing where their state does not stand. -/
theorem spinRows_other (n : Lane) :
    (spinState s ≠ Sp.braking → exec .brakeProbe s = .next s) ∧
      (spinState s ≠ Sp.pfCoast → exec .pfCoastEnd s = .next s) ∧
      (spinState s ≠ Sp.changing → exec .drainComplete s = .next s ∧ exec .cadenceRampEnd s = .next s ∧ exec .cadTimeout s = .next s) ∧
      (spinState s ∉ [Sp.atSpeed, Sp.changing] → exec .zcTimeout s = .next s) ∧
      ((s.ln n).drain = false → exec (.laneResume n) s = .next s) := by
  refine ⟨fun h => if_pos h, fun h => ?_, fun h => ⟨if_pos (by simp [h]), if_neg fun at_ => h at_.1, ?_⟩, fun h => ?_,
    fun h => if_neg (by simp [h])⟩
  · exact congrArg Host.Outcome.next (if_neg h)
  · exact congrArg Host.Outcome.next (if_neg fun at_ => h at_.1)
  · exact congrArg Host.Outcome.next (if_neg (by simpa using h))

end Sys2Proof.Machine

end

section

/-! PROOF. The spindle in regulation, its brake, its faults and its cadence (R204 to R220): O18 from the lemmas of each. -/

namespace Sys2Proof.Machine

variable {s : State}

/-- A speed within FAULT_TOL in AT_SPEED: the speed is shown, and SPM stands but for the loop (R204, R205). -/
theorem speedUpdate_regulated {ns : Nat} (turn : revolution s = some ns) (atSpeed : spinState s = Sp.atSpeed) (held : s.spm.okState ≠ 2)
    (tol : inRegulation (speedShown ns s) (s.get F.SPM_REG_CFG_FAULT_TOL) = true) :
    exec .speedUpdate s = .next (regulated (speedShown ns s)).settle := by
  have shown := regsKept_speedShown (s := s) ns
  have ok : (regulated (speedShown ns s)).spm.okState = s.spm.okState := speedLoop_spec.1
  rw [← shown.get (f := F.SPM_REG_CFG_FAULT_TOL) (by decide)] at tol
  rw [exec_speedUpdate turn, runSpeed_regulated ((spinState_speedShown ns).trans atSpeed) tol, spinRestored_same (.inr (by rw [ok]; exact held))]

/-- The loop rests outside the states of closed-loop regulation: the speed is shown, and nothing else changes. -/
theorem speedUpdate_rests {ns : Nat} (turn : revolution s = some ns)
    (rests : spinState s ∈ [Sp.stopped, Sp.openLoop, Sp.braking, Sp.fault, Sp.partner]) : exec .speedUpdate s = .next (speedShown ns s).settle := by
  have other : spinState (speedShown ns s) ≠ Sp.atSpeed := by
    rw [spinState_speedShown]
    intro atSpeed
    rw [atSpeed] at rests
    exact absurd rests (by decide)
  rw [exec_speedUpdate turn, runSpeed_rests (by rw [spinState_speedShown]; exact rests), spinRestored_same (.inl other)]

/-- A brake command with every actuator quiet begins its brake outside a cadence change. -/
theorem spinBrakeCommand_begins (spins : Sp.sense ≤ spinState s ∧ spinState s ≤ Sp.locking ∨ spinState s = Sp.atSpeed)
    (quiet : allQuiet s = true) (noFault : s.spm.brakeDue ≠ some .fault) :
    spinBrakeCommand s = enterBraking .stopped s ∧ spinState s ≠ Sp.changing := by
  simp only [Sp.sense, Sp.locking, Sp.atSpeed] at spins
  refine ⟨?_, by rw [Sp.changing]; omega⟩
  rw [spinBrakeCommand_spinning (by rw [Sp.sense]; omega) (by rw [Sp.changing]; omega), requestBrake_quiet quiet, brakeEnd_stopped, if_neg noFault]

/-- A change requested in AT_SPEED begins from the state in which the request is noted. -/
theorem cadenceRequest_begins {c : BitVec 2} (declared : cadenceDeclared s c.toNat = true) (atSpeed : spinState s = Sp.atSpeed)
    (other : c.toNat ≠ cadence s) : cadenceRequest c.toNat s = startChange c.toNat (cadenceNoted c.toNat s) := by
  rw [cadenceRequest_atSpeed declared atSpeed, if_neg other]

theorem get_cadenceNoted (c : BitVec 2) : (cadenceNoted c.toNat s).get F.SPM_CAD_REQ_CAD = c.toNat := by
  rw [cadenceNoted, get_put_same (of_decide_eq_true rfl)]
  exact Nat.mod_eq_of_lt c.isLt

theorem lanePresent_cadenceNoted (c : Nat) (n : Lane) : lanePresent (cadenceNoted c s) n = lanePresent s n := by
  have apart : R.GLB_UNIT_OK0 ∉ [R.SPM_CAD_REQ] := by decide
  rw [lanePresent, (regsKept_cadenceNoted c).get (f := (F.GLB_UNIT_OK0_LANE).bit n) apart, lanePresent]

/-- Settles O18: a lemma for each row of the loop, the brake, the faults and the cadence, and the rows whose state does not stand. -/
theorem spindleRegulatesBrakesAndChangesCadence : Obligations.SpindleRegulatesBrakesAndChangesCadence := by
  unfold Obligations.SpindleRegulatesBrakesAndChangesCadence
  refine ⟨?speed, ?regulates, ?noTurn, ?faults, ?brakes, ?waits, ?refused, ?probes, ?stands, ?goesOn, ?coastEnds, ?clears, ?noClear, ?changes,
    ?requests, ?drained, ?ramped, ?resumes, ?other⟩
  case speed =>
    intro ns s turn
    exact ⟨exec_speedUpdate turn, speedUpdate_rests turn⟩
  case regulates =>
    intro ns s turn atSpeed held tol
    have loop := regulated_moves (s := speedShown ns s)
    have same : regsKept [] (speedShown ns s) (regulated (speedShown ns s)) := loop.regsKept rfl
    have moved : Moves 0x40001 s (regulated (speedShown ns s)) := loop.on (put_moves.wide rfl) rfl
    exact ⟨_, speedUpdate_regulated turn atSpeed held tol, (same.get (by simp)).trans (get_speedShown ns), rfl,
      ((same.spinState_eq (by simp)).trans (spinState_speedShown ns)).trans atSpeed, (regsKept_speedShown ns).trans (same.mono (List.nil_subset _)),
      moved.frame (by decide)⟩
  case noTurn =>
    intro s none_
    exact exec_speedUpdate_none none_
  case faults =>
    rintro c f s (⟨rfl, rfl, turns⟩ | ⟨rfl, rfl, changing, ramping, draining⟩)
    · rw [exec_zcTimeout turns]
      obtain ⟨u, fails, told⟩ := spinFails_spec (s := s) (f := F.SPM_FLT_REG_LOST) rfl (of_decide_eq_true rfl) rfl
      exact ⟨u, congrArg Host.Outcome.next fails, told⟩
    · rw [exec_cadTimeout changing ramping draining]
      obtain ⟨u, fails, told⟩ := spinFails_spec (s := s) (f := F.SPM_FLT_CAD_TIMEOUT) rfl (of_decide_eq_true rfl) rfl
      exact ⟨u, congrArg Host.Outcome.next fails, told⟩
  case brakes =>
    intro s accepts spins quiet noFault
    obtain ⟨begins, still⟩ := spinBrakeCommand_begins spins quiet noFault
    obtain ⟨state, speed, fifo, spm, kept, moved⟩ := enterBraking_spec still .stopped
    exact ⟨enterBraking .stopped s, begins ▸ exec_spindleBrake accepts, state, speed, fifo, spm, kept, moved.frame (by decide)⟩
  case waits =>
    intro s accepts starts ends loud
    rw [exec_spindleBrake accepts, spinBrakeCommand_spinning starts ends, requestBrake_held loud, brakeEnd_stopped]
    rfl
  case refused =>
    intro s accepts other
    rw [exec_spindleBrake accepts, spinBrakeCommand_refused other]
  case probes =>
    intro s braking probing
    exact exec_brakeProbe_begins braking probing
  case stands =>
    intro s braking probing samples below ends
    obtain ⟨state, speed, spm, kept⟩ := brakeStopped_spec (s := probed s) ends
    have moved : Moves 0x8060801 s (brakeStopped (probed s)) := brakeStopped_moves.on (onSpm_moves.wide rfl) rfl
    refine ⟨brakeStopped (probed s), ?_, ?_, speed, spm, regsKept.trans (.of_regs rfl) kept, moved.frame (by decide)⟩
    · rw [exec_brakeProbe_judged braking probing samples, if_pos below]
    · rw [state]
      rfl
  case goesOn =>
    intro s braking probing samples above
    rw [exec_brakeProbe_judged braking probing samples, if_neg (Nat.not_lt.mpr above)]
    rfl
  case coastEnds =>
    intro s coasts
    obtain ⟨state, -, fifo, spm, kept, moved⟩ := enterBraking_spec (s := s) (by rw [coasts]; decide) .stopped
    refine ⟨(enterBraking .stopped s).onSpm (fun m => { m with unparked := true }), congrArg Host.Outcome.next (if_pos coasts), state, ?_, fifo,
      kept.trans (.of_regs rfl), (onSpm_moves.on moved rfl).frame (by decide)⟩
    rw [spm_onSpm, spm, brakes]
  case clears =>
    intro s accepts fault
    have moved : Moves 0x40801 s ((setSpin Sp.stopped s).onSpm faultCleared) := onSpm_moves.on (setSpin_moves.wide rfl) rfl
    refine ⟨(setSpin Sp.stopped s).onSpm faultCleared, ?_, spinState_setSpin (by decide), ?_, (regsKept_setSpin (by decide)).trans (.of_regs rfl),
      moved.frame (by decide)⟩
    · rw [exec_spindleClearFault accepts, spinClearFault_fault fault]
    · rw [spm_onSpm, spm_setSpin, faultCleared]
  case noClear =>
    intro s accepts other
    rw [exec_spindleClearFault accepts, spinClearFault_refused other]
  case changes =>
    intro c s early declared atSpeed other
    obtain ⟨state, cad, goal, draining, shown, switch⟩ := startChange_spec (s := cadenceNoted c.toNat s) c.toNat
    have moved : Moves 0xCA801 s (startChange c.toNat (cadenceNoted c.toNat s)) := startChange_moves.on (put_moves.wide rfl) rfl
    refine ⟨startChange c.toNat (cadenceNoted c.toNat s), ?_, state, cad.trans (get_cadenceNoted c), goal, draining, fun n present => ?_, shown,
      fun n => ?_, moved.frame (by decide)⟩
    · rw [exec_cadenceRequest early, cadenceRequest_begins declared atSpeed other]
    · exact startChange_drains ((lanePresent_cadenceNoted _ n).trans present) c.toNat
    · rw [switch n, cadence_cadenceNoted]
  case requests =>
    intro c s early
    refine ⟨fun undeclared => ?_, fun declared atSpeed same => ?_, fun declared other => ?_, fun declared changing moves => ?_⟩ <;>
      rw [exec_cadenceRequest early]
    · rw [cadenceRequest_undeclared undeclared]
    · rw [cadenceRequest_atSpeed declared atSpeed, if_pos same, cadenceNoted]
    · rw [cadenceRequest_noted declared other, cadenceNoted]
    · rw [cadenceRequest_changing declared changing moves, cadenceNoted]
  case drained =>
    intro s drains changing closed
    have moved : Moves 0xC2B01 s ((allDiscarded s).onSpm ramps) := onSpm_moves.on (allDiscarded_moves.wide rfl) rfl
    have spm : (allDiscarded s).spm = s.spm := allDiscarded_moves.parts 18 rfl
    refine ⟨(allDiscarded s).onSpm ramps, exec_drainComplete drains changing closed, congrArg ramps spm,
      fun n => (ln_onSpm ..).trans (ln_allDiscarded n), fun nil => ?_, moved.frame (by decide)⟩
    rw [allDiscarded_nil nil]
    rfl
  case ramped =>
    intro s changing ramping there
    exact exec_cadenceRampEnd changing ramping there
  case resumes =>
    intro n s drains atSpeed relocked
    obtain ⟨ln, act, pause, kept⟩ := endPause_spec (s := s) (n := n)
    exact ⟨endPause n s, exec_laneResume drains atSpeed relocked, (ln n).trans (if_pos rfl), act, pause, fun m other => (ln m).trans (if_neg other),
      kept, endPause_moves.frame (by decide)⟩
  case other =>
    intro n s
    exact spinRows_other n

end Sys2Proof.Machine

end

section

/-! PROOF. Sectors described by a word that pops their transfer (R228, R235, R236, R314): the popped XFER starts the count of its sectors anew. -/

namespace Sys2Proof.Machine

/-- Lane 0's sequencer at a word whose CMD is POP and whose SECT is READ: its POP has popped an XFER, its SECT has not acted. -/
def poppedTransfer : State :=
  (State.reset.put (F.MSn_STAT_STATE 0) Seq.running).onMs 0 (fun m =>
    { m with store := [(0, 1 <<< 80 ||| 1 <<< 83)], acted := 1 <<< 4, nxt := { m.nxt with op := 1 } })

/-- SECT leaves the count of the popped transfer at its start. -/
theorem sectNo_sectRead_poppedTransfer :
    (match exec (.sectRead 0) poppedTransfer with | .next t => some (t.ms 0).nxt.sectNo | _ => none) = some 0 := by
  decide +kernel

/-- Refutes O21: a word that pops an XFER and describes a sector. The popped transfer starts the count of its sectors anew (R236, R314), so that the
count is 0 after the word, and not one more than that of the transfer before it. -/
theorem not_microwordGatesAndBusFieldsAct : ¬ Obligations.MicrowordGatesAndBusFieldsAct := by
  rintro ⟨-, -, -, -, -, -, -, -, -, -, -, -, -, sect, -⟩
  obtain ⟨t, answered, -, -, -, counted, -⟩ := sect 0 1 (.sectRead 0) poppedTransfer (by decide +kernel) (by decide +kernel) (by decide)
    (by decide +kernel) (by decide +kernel)
  have anew := sectNo_sectRead_poppedTransfer
  rw [answered, Option.some.injEq, counted] at anew
  cases anew

end Sys2Proof.Machine

end

section

/-! PROOF. What the close of a gate and a write inhibit leave as it was (R137, R146, R149, R233): a lane's clock, and of its sequencer everything but
the gate mode of the next word and the events. -/

namespace Sys2Proof.Machine

/-! ### Fields that share no bit -/

/-- Two fields share no bit. -/
def Fld.apart (f g : Fld) : Bool := f.addr != g.addr || decide (g.lo + g.width ≤ f.lo) || decide (f.lo + f.width ≤ g.lo)

theorem get_put_of_apart {f g : Fld} (h : f.apart g = true) (s : State) (v : Nat) : (s.put f v).get g = s.get g := by
  simp only [Fld.apart, Bool.or_eq_true, bne_iff_ne, decide_eq_true_eq, or_assoc] at h
  rcases h with other | bits
  · exact rget_rput_addr other.symm ..
  · exact rget_rput_bits _ _ bits

/-! ### The frame of a gate's close -/

/-- The fields of a lane's clock and sequencer that no close of a gate and no write inhibit writes. -/
def steadyFields (n : Lane) : List Fld :=
  [F.GLB_MODE_MODE, F.MSn_CTL_RUN n, F.MSn_STAT_PC n, F.MSn_TRAP_CAUSE n, F.MSn_TRAP_RET n, F.MSn_TRAP_PC n, F.MSn_CNT_FAULTS n,
    F.MSn_CNT_FORCED n, F.LNn_STAT_PLL_LOCK n, F.LNn_STAT_ZONE n, F.LNn_BPW_BPW n]

/-- The registers beside LNn_STAT that the close of a gate and a write inhibit write. -/
def inhibitRegs (n : Lane) : List Nat :=
  [R.LNn_WR_STAT n, R.LNn_WFLT_STAT n, R.LNn_WR_CNT n, R.LNn_VFY_STAT n, R.LNn_VFY_CNT1 n, R.MSn_INT n, R.TLY_STAT]

theorem steadyFields_apart (n : Lane) : ∀ f ∈ steadyFields n, f.addr ∉ inhibitRegs n ∧ (F.LNn_STAT_RD_GATE n).apart f = true ∧
    (F.LNn_STAT_WR_GATE n).apart f = true := by
  revert n
  decide

/-- The steady fields read as before, and of the sequencer nothing has changed but the gate mode of the next word and the events. -/
structure GateKept (n : Lane) (s t : State) : Prop where
  get : ∀ f ∈ steadyFields n, t.get f = s.get f
  ms : ∃ gate events, t.ms n = { s.ms n with nxt := { (s.ms n).nxt with gate := gate }, events := events }

section

variable {n : Lane} {s t u : State}

theorem GateKept.trans (h : GateKept n s t) (g : GateKept n t u) : GateKept n s u := by
  obtain ⟨_, _, first⟩ := h.ms
  obtain ⟨gate, events, second⟩ := g.ms
  exact ⟨fun f hf => (g.get f hf).trans (h.get f hf), gate, events, by rw [second, first]⟩

theorem GateKept.of_eq (regs : ∀ f ∈ steadyFields n, t.get f = s.get f) (mss : t.mss = s.mss) : GateKept n s t :=
  ⟨regs, (s.ms n).nxt.gate, (s.ms n).events, congrArg (·.get n) mss⟩

theorem GateKept.refl : GateKept n s s := .of_eq (fun _ _ => rfl) rfl

/-- An operation whose parts are neither the registers nor the sequencers. -/
theorem Moves.gateKept {m : Nat} (h : Moves m s t) (regs : m.testBit 0 = false) (mss : m.testBit 14 = false) : GateKept n s t :=
  .of_eq (fun _ _ => (h.regsKept (l := []) regs).get List.not_mem_nil) (h.parts 14 mss)

/-- An operation that keeps the sequencers and writes registers of its own. -/
theorem regsKept.gateKept {l : List Nat} (kept : regsKept l s t) (own : ∀ f ∈ steadyFields n, f.addr ∉ l) (mss : t.mss = s.mss) :
    GateKept n s t := .of_eq (fun f hf => kept.get (own f hf)) mss

theorem inhibitRegs_apart (n : Lane) : ∀ f ∈ steadyFields n, f.addr ∉ inhibitRegs n := fun f hf => (steadyFields_apart n f hf).1

theorem GateKept.put (h : GateKept n s t) {f : Fld} (own : f.addr ∈ inhibitRegs n) (v : Nat) : GateKept n s (t.put f v) :=
  h.trans ((regsKept_put own v).gateKept (inhibitRegs_apart n) (put_moves.parts 14 rfl))

theorem GateKept.count (h : GateKept n s t) {f : Fld} (own : f.addr ∈ inhibitRegs n) (k : Nat) : GateKept n s (t.count f k) := h.put own _

theorem GateKept.flag (h : GateKept n s t) {f : Fld} (own : f.addr ∈ inhibitRegs n) : GateKept n s (t.flag f) :=
  h.trans (((regsKept_flag t f).mono (by simpa using own)).gateKept (inhibitRegs_apart n) (flag_moves.parts 14 rfl))

theorem GateKept.tally (h : GateKept n s t) {e : Nat} (staged : tlyAtOnce e = false) (d : Nat) : GateKept n s (t.tally e d) :=
  h.trans (((regsKept_tally staged d t).mono (by simp [inhibitRegs])).gateKept (inhibitRegs_apart n) (tally_moves.parts 14 rfl))

theorem GateKept.ite {c : Prop} [Decidable c] (h : GateKept n s t) (g : GateKept n s u) : GateKept n s (if c then t else u) := by
  split
  · exact h
  · exact g

theorem GateKept.forEach {α : Type} {f : α → State → State} (h : ∀ a t, GateKept n t (f a t)) {as : List α} :
    GateKept n s (forEach as f s) := by
  induction as generalizing s with
  | nil => exact .refl
  | cons a as ih => exact (h a s).trans ih

theorem gateKept_seqGateIdle : GateKept n s (seqGateIdle n s) := ⟨fun _ _ => rfl, 0, (s.ms n).events, ms_onMs_same ..⟩

theorem ms_msPost (code hd w5 w6 : Nat) :
    (msPost n code hd w5 w6 s).ms n = { s.ms n with events := (s.ms n).events ++ [msEvent code n hd w5 w6] } := by
  unfold msPost
  split <;> exact ms_onMs_same ..

theorem gateKept_msPost {code hd w5 w6 : Nat} : GateKept n s (msPost n code hd w5 w6 s) :=
  ⟨fun _ _ => (msPost_moves.regsKept (l := []) rfl).get List.not_mem_nil, (s.ms n).nxt.gate, _, ms_msPost ..⟩

/-- A gate's bit of LNn_STAT written. -/
theorem gateKept_gateBit {f : Fld} (gate : f = F.LNn_STAT_RD_GATE n ∨ f = F.LNn_STAT_WR_GATE n) (v : Nat) : GateKept n s (s.put f v) :=
  .of_eq (fun g hg => by
    obtain ⟨-, rd, wr⟩ := steadyFields_apart n g hg
    rcases gate with rfl | rfl
    · exact get_put_of_apart rd s v
    · exact get_put_of_apart wr s v) (put_moves.parts 14 rfl)

/-! ### The table ports -/

/-- The registers of a lane's table ports. -/
def portRegs (n : Lane) : List Nat := [R.LNn_TBL_DATA n, R.LNn_WTBL_DATA n, R.LNn_TBL_SEL n, R.LNn_WTBL_SEL n]

theorem portRegs_apart (n m : Lane) : ∀ f ∈ steadyFields n, f.addr ∉ portRegs m := by
  revert n m
  decide

theorem mem_portRegs_of_tablePort {a : Nat} {p : Lane × Bool × Bool} (h : tablePort a = some p) : ∃ m, a ∈ portRegs m := by
  unfold tablePort at h
  split at h
  next m _ =>
    refine ⟨m, ?_⟩
    by_contra other
    simp only [portRegs, List.mem_cons, List.not_mem_nil, or_false, not_or] at other
    obtain ⟨data, wdata, sel, wsel⟩ := other
    simp [data, wdata, sel, wsel] at h
  next => cases h

variable {m : Lane}

theorem gateKept_tableWriteNow {wr : Bool} {w : Word} : GateKept n s (tableWriteNow m wr w s) := by
  have stepped {t : State} : GateKept n t (tableStep m wr t) := by
    refine ((regsKept_tableStep m wr t).mono ?_).gateKept (portRegs_apart n m) (tableStep_moves.parts 14 rfl)
    cases wr <;> simp [portSel, portRegs]
  unfold tableWriteNow
  exact .trans (.ite .refl (.ite (.ite (onLn_moves.gateKept rfl rfl) (onLn_moves.gateKept rfl rfl)) (putEntry_moves.gateKept rfl rfl))) stepped

theorem gateKept_tablePortWrite {wr d : Bool} {a : Nat} {w : Word} {l : Lane} (h : a ∈ portRegs l) :
    GateKept n s (tablePortWrite m wr d a w s) := by
  unfold tablePortWrite
  exact .ite (onLn_moves.gateKept rfl rfl) (.ite gateKept_tableWriteNow
    ((regsKept_setReg h _).gateKept (portRegs_apart n l) rfl))

theorem gateKept_releaseHeld {wr : Bool} : GateKept n s (releaseHeld m wr s) := by
  unfold releaseHeld
  refine .ite .refl (.trans (.trans ?held (onLn_moves.gateKept rfl rfl)) (.forEach (fun p t => ?waiting)))
  case held =>
    split
    · exact putEntry_moves.gateKept rfl rfl
    · exact .refl
  case waiting =>
    split
    next port =>
      obtain ⟨l, mem⟩ := mem_portRegs_of_tablePort port
      exact gateKept_tablePortWrite mem
    next => exact .refl

/-! ### Closes and inhibits -/

theorem tlyAtOnce_laneCounts (n : Lane) : tlyAtOnce (28 + n) = false ∧ tlyAtOnce (44 + n) = false ∧ tlyAtOnce (48 + n) = false := by
  revert n
  decide

theorem gateKept_afterClose : GateKept n s (afterClose n s) := by
  have drained {t : State} : GateKept n t (drainFifo n t) := by
    unfold drainFifo
    exact .ite (.tally ((onLn_moves.gateKept rfl rfl).trans (onAct_moves.gateKept rfl rfl)) (tlyAtOnce_laneCounts n).1 _) .refl
  exact (((onLn_moves.gateKept rfl rfl).trans gateKept_releaseHeld).trans gateKept_releaseHeld).trans drained

theorem gateKept_closeVerify {taps : Option (List Word)} : GateKept n s (closeVerify n taps s) := by
  unfold closeVerify
  split
  · have shut : GateKept n s (s.put (F.LNn_WR_STAT_VFY_GATE n) 0) := GateKept.refl.put (by simp [inhibitRegs, F.LNn_WR_STAT_VFY_GATE]) 0
    exact ((shut.trans (onLn_moves.gateKept rfl rfl)).trans (writeBackCancel_moves.gateKept rfl rfl)).trans gateKept_afterClose
  · exact .refl

theorem gateKept_closeRead {taps : Option (List Word)} : GateKept n s (closeRead n taps s) := by
  unfold closeRead
  split
  · exact ((((gateKept_gateBit (.inl rfl) 0).trans gateKept_seqGateIdle).trans (onLn_moves.gateKept rfl rfl)).trans
      (writeBackRead_moves.gateKept rfl rfl)).trans gateKept_afterClose
  · exact .refl

theorem gateKept_relocateSector {d : Sector} : GateKept n s (relocateSector n d s) := by
  have counted : GateKept n s ((msPost n 0x04 d.head.toNat (highByte 1 d.track) d.index s).count (F.LNn_WR_CNT_RELOCATED n)) :=
    gateKept_msPost.count (by simp [inhibitRegs, F.LNn_WR_CNT_RELOCATED]) 1
  exact ((counted.tally (tlyAtOnce_laneCounts n).2.1 1).trans (report_moves.gateKept rfl rfl)).trans (sectorOutcome_moves.gateKept rfl rfl)

theorem gateKept_showPending : GateKept n s (showPending n s) := GateKept.refl.put (by simp [inhibitRegs, F.LNn_VFY_STAT_PENDING]) _

theorem gateKept_msInt {b : Nat} : GateKept n s (msInt n b s) := GateKept.refl.put (by simp [inhibitRegs, Fld.bit]) 1

theorem gateKept_squelchGate {src : Nat} : GateKept n s (squelchGate n src s) := by
  unfold squelchGate
  split
  next d _ =>
    have cut : GateKept n s (((s.put (F.LNn_STAT_WR_GATE n) 0).count (F.LNn_WR_CNT_INTERRUPTED n)).tally (48 + n)) :=
      ((gateKept_gateBit (.inr rfl) 0).count (by simp [inhibitRegs, F.LNn_WR_CNT_INTERRUPTED]) 1).tally (tlyAtOnce_laneCounts n).2.2 1
    have sample {c : Bool} {t : State} : GateKept n t (if c then t.put (F.LNn_VFY_STAT_SAMPLE_CNT n) d.cnt else t) :=
      .ite (GateKept.refl.put (by simp [inhibitRegs, F.LNn_VFY_STAT_SAMPLE_CNT]) _) .refl
    have skip {c : Bool} {t : State} : GateKept n t (if c then t.count (F.LNn_VFY_CNT1_SKIPPED n) else t) :=
      .ite (GateKept.refl.count (by simp [inhibitRegs, F.LNn_VFY_CNT1_SKIPPED]) 1) .refl
    have closed {c : Bool} {t : State} : GateKept n t (if c then closeVerify n none t else t) := .ite gateKept_closeVerify .refl
    have told {t : State} : GateKept n t (if src = 0 then report .disturbed n d t else t) := .ite (report_moves.gateKept rfl rfl) .refl
    refine .ite .refl (.trans (.trans (.trans (.trans ?_ closed) gateKept_afterClose) told)
      (.ite gateKept_relocateSector (onLn_moves.gateKept rfl rfl)))
    exact .trans (.trans (.trans ((cut.trans sample).trans skip |>.trans (onLn_moves.gateKept rfl rfl)) gateKept_seqGateIdle)
      (emit_moves.gateKept rfl rfl)) gateKept_showPending
  next => exact .refl

theorem gateKept_inhibit {src : Nat} : GateKept n s (inhibit n src s) := by
  have shown : GateKept n s
      (((s.put ((F.LNn_WR_STAT_INH_NOW n).bit src) 1).put (F.LNn_WR_STAT_SQUELCH n) 1).flag ((F.LNn_WFLT_STAT_INH_SEEN n).bit src)) :=
    ((GateKept.refl.put (f := (F.LNn_WR_STAT_INH_NOW n).bit src) (by simp [inhibitRegs, Fld.bit, F.LNn_WR_STAT_INH_NOW]) 1).put
      (f := F.LNn_WR_STAT_SQUELCH n) (by simp [inhibitRegs, F.LNn_WR_STAT_SQUELCH]) 1).flag
      (by simp [inhibitRegs, Fld.bit, F.LNn_WFLT_STAT_INH_SEEN])
  have abandoned {t : State} : GateKept n t (abandonVerify n t) := (setLn_moves.gateKept rfl rfl).trans gateKept_closeVerify
  exact .trans ((shown.trans (onLn_moves.gateKept rfl rfl)).trans (.ite (gateKept_msInt.trans gateKept_squelchGate) .refl)) (.ite .refl abandoned)

end

end Sys2Proof.Machine

end

section

/-! PROOF. The sequencer's own operations (R228, R242, R245, R246): what a word that begins, a record, a trap and a halt show and leave. -/

namespace Sys2Proof.Machine

/-! ### Reads after writes -/

@[simp] theorem reg_onMs (s : State) (n : Lane) (f : Ms → Ms) (a : Nat) : (s.onMs n f).reg a = s.reg a := (rfl)

@[simp] theorem get_onMs (s : State) (n : Lane) (f : Ms → Ms) (g : Fld) : (s.onMs n f).get g = s.get g := (rfl)

@[simp] theorem ms_put (s : State) (f : Fld) (v : Nat) (m : Lane) : (s.put f v).ms m = s.ms m := (rfl)

@[simp] theorem ms_answer (s : State) (b : BusAnswer) (m : Lane) : (s.answer b).ms m = s.ms m := (rfl)

section

variable {n : Lane} {s t : State}

theorem seqWord_congr (pc : t.get (F.MSn_STAT_PC n) = s.get (F.MSn_STAT_PC n)) (store : (t.ms n).store = (s.ms n).store) :
    seqWord t n = seqWord s n := by rw [seqWord, pc, store, seqWord]

theorem pendingInt_congr (mask : t.get (F.MSn_STAT_MASK n) = s.get (F.MSn_STAT_MASK n)) (int : t.reg (R.MSn_INT n) = s.reg (R.MSn_INT n))
    (ctl : t.reg (R.MSn_CTL n) = s.reg (R.MSn_CTL n)) : pendingInt t n = pendingInt s n := by
  have pend : t.get ⟨R.MSn_INT n, 6, 0⟩ = s.get ⟨R.MSn_INT n, 6, 0⟩ := by rw [State.get, int, State.get]
  have en : t.get (F.MSn_CTL_INT_EN n) = s.get (F.MSn_CTL_INT_EN n) := congrArg (fun w : Word => (w.extractLsb' 0 7).toNat) ctl
  unfold pendingInt State.on
  rw [mask, pend, en]

/-- The sequencer's interrupts are seven. -/
theorem pendingInt_lt {b : Nat} (pending : pendingInt s n = some b) : b < 7 := by
  unfold pendingInt at pending
  split at pending
  · cases pending
  · have mem := List.mem_of_find?_eq_some pending
    simp only [List.mem_cons, List.not_mem_nil, or_false] at mem
    omega

/-- MSn_INT and MSn_CTL are not MSn_STAT. -/
theorem seqRegs_apart (n : Lane) : R.MSn_INT n ∉ [R.MSn_STAT n] ∧ R.MSn_CTL n ∉ [R.MSn_STAT n] := by
  revert n
  decide

/-- The word and the pending interrupt do not depend on the state that MSn_STAT shows. -/
theorem seqWord_putState (st : Nat) : seqWord (s.put (F.MSn_STAT_STATE n) st) n = seqWord s n :=
  seqWord_congr (get_put_apart (of_decide_eq_true rfl) ..) (by rw [ms_put])

theorem pendingInt_putState (st : Nat) : pendingInt (s.put (F.MSn_STAT_STATE n) st) n = pendingInt s n := by
  have kept : regsKept [R.MSn_STAT n] s (s.put (F.MSn_STAT_STATE n) st) := regsKept_put (f := F.MSn_STAT_STATE n) List.mem_cons_self st
  exact pendingInt_congr (get_put_apart (of_decide_eq_true rfl) ..) (kept _ (seqRegs_apart n).1) (kept _ (seqRegs_apart n).2)

/-! ### A word begins (R228, R232) -/

/-- The sequencer at the start of a word: the last word's changes in force, no field acted. -/
def inForce (m : Ms) : Ms := { m with cur := m.nextRegs, nxt := m.nextRegs, landed := none, acted := 0, passBkpt := false, slipped := false }

/-- The state MSn_STAT shows for a word that has begun. -/
def begunState (n : Lane) (pc : Nat) (s : State) : Nat :=
  if holdsAtStart ((s.put (F.MSn_STAT_PC n) pc).onMs n inForce) n then Seq.holding else Seq.running

/-- MSn_STAT shows the word that begins. -/
def wordShown (n : Lane) (pc : Nat) (s : State) : State :=
  showSeq n (((s.put (F.MSn_STAT_PC n) pc).onMs n inForce).put (F.MSn_STAT_STATE n) (begunState n pc s))

theorem beginWord_eq (pc : Nat) : ∃ conds holding,
    beginWord n pc s = (wordShown n pc s).onMs n (fun m => { m with conds := conds, holding := holding }) := ⟨_, _, rfl⟩

theorem ms_wordShown (m : Lane) (pc : Nat) : (wordShown n pc s).ms m = if m = n then inForce (s.ms n) else s.ms m := by
  simp only [wordShown, showSeq, ms_put]
  split
  next same => rw [same, ms_onMs_same, ms_put]
  next other => rw [ms_onMs_other other, ms_put]

/-- A word that begins has the last word's changes in force, and leaves the store and the FIFOs. -/
theorem ms_beginWord (pc : Nat) : ∃ conds holding,
    (beginWord n pc s).ms n = { inForce (s.ms n) with conds := conds, holding := holding } := by
  obtain ⟨conds, holding, eq⟩ := beginWord_eq (n := n) (s := s) pc
  exact ⟨conds, holding, by rw [eq, ms_onMs_same, ms_wordShown, if_pos rfl]⟩

theorem ms_beginWord_other {m : Lane} (other : m ≠ n) (pc : Nat) : (beginWord n pc s).ms m = s.ms m := by
  obtain ⟨conds, holding, eq⟩ := beginWord_eq (n := n) (s := s) pc
  rw [eq, ms_onMs_other other, ms_wordShown, if_neg other]

theorem cur_beginWord (pc : Nat) : ((beginWord n pc s).ms n).cur = (s.ms n).nextRegs ∧ ((beginWord n pc s).ms n).nxt = (s.ms n).nextRegs := by
  obtain ⟨conds, holding, eq⟩ := ms_beginWord (n := n) (s := s) pc
  rw [eq]
  exact ⟨rfl, rfl⟩

/-- A field of MSn_STAT after a word has begun. -/
theorem get_beginWord (pc : Nat) (f : Fld) : (beginWord n pc s).get f = (wordShown n pc s).get f := by
  obtain ⟨conds, holding, eq⟩ := beginWord_eq (n := n) (s := s) pc
  rw [eq, get_onMs]

theorem get_beginWord_pc {pc : Nat} (fits : pc < 4096) : (beginWord n pc s).get (F.MSn_STAT_PC n) = pc := by
  rw [get_beginWord, wordShown, showSeq]
  simp (disch := exact of_decide_eq_true rfl) only [get_put_same, get_put_apart, get_onMs]
  exact Nat.mod_eq_of_lt fits

theorem get_beginWord_flags (pc : Nat) : (beginWord n pc s).get (F.MSn_STAT_MASK n) = s.get (F.MSn_STAT_MASK n) ∧
    (beginWord n pc s).get (F.MSn_STAT_MODE_HALT n) = s.get (F.MSn_STAT_MODE_HALT n) := by
  rw [get_beginWord, get_beginWord, wordShown, showSeq]
  simp (disch := exact of_decide_eq_true rfl) only [get_put_apart, get_onMs, and_self]

theorem seqRuns_beginWord (pc : Nat) : seqRuns (beginWord n pc s) n = true := by
  have shown : seqState (beginWord n pc s) n = begunState n pc s % 16 := by
    rw [seqState, get_beginWord, wordShown, showSeq]
    simp (disch := exact of_decide_eq_true rfl) only [get_put_same, get_put_apart]
    rfl
  rw [seqRuns, shown, begunState]
  split <;> rfl

theorem regsKept_showSeq : regsKept [R.MSn_STAT n] s (showSeq n s) :=
  ((regsKept_put (f := F.MSn_STAT_GATE n) List.mem_cons_self _).trans (regsKept_put (f := F.MSn_STAT_DEPTH n) List.mem_cons_self _)).trans
    (regsKept_put (f := F.MSn_STAT_HD n) List.mem_cons_self _)

theorem regsKept_wordShown (pc : Nat) : regsKept [R.MSn_STAT n] s (wordShown n pc s) := by
  have addressed : regsKept [R.MSn_STAT n] s (s.put (F.MSn_STAT_PC n) pc) := regsKept_put (f := F.MSn_STAT_PC n) List.mem_cons_self pc
  have changed : regsKept [R.MSn_STAT n] (s.put (F.MSn_STAT_PC n) pc) ((s.put (F.MSn_STAT_PC n) pc).onMs n inForce) := .of_regs rfl
  exact ((addressed.trans changed).trans (regsKept_put (f := F.MSn_STAT_STATE n) List.mem_cons_self _)).trans regsKept_showSeq

theorem regsKept_beginWord (pc : Nat) : regsKept [R.MSn_STAT n] s (beginWord n pc s) := by
  obtain ⟨conds, holding, eq⟩ := beginWord_eq (n := n) (s := s) pc
  rw [eq]
  intro a ha
  rw [reg_onMs, regsKept_wordShown pc a ha]

/-! ### Halts (R245, R246) -/

/-- The lane's gates closed for a halt: a read gate closes, a write gate is squelched as source 5 does. -/
def gatesShut (n : Lane) (s : State) : State :=
  let s := if s.on (F.LNn_STAT_RD_GATE n) then closeRead n none s else s
  if s.on (F.LNn_STAT_WR_GATE n) then squelchGate n 5 (msInt n 3 (s.flag ((F.LNn_WFLT_STAT_INH_SEEN n).bit 5))) else s

/-- The sequencer halted: its word's changes in force with the gates idle. -/
def rested (m : Ms) : Ms :=
  { m with cur := { m.nxt with gate := 0 }, nxt := { m.nxt with gate := 0 }, acted := 0, holding := false, stopping := false }

theorem haltGates_eq : haltGates n s = (gatesShut n s).onMs n rested := rfl

theorem gateKept_gatesShut : GateKept n s (gatesShut n s) :=
  .trans (.ite gateKept_closeRead .refl)
    (.ite (((GateKept.refl.flag (by simp [inhibitRegs, Fld.bit, F.LNn_WFLT_STAT_INH_SEEN])).trans gateKept_msInt).trans gateKept_squelchGate) .refl)

/-- MSn_STAT shows a halt in the fields beside PC and MASK. -/
theorem steadyFields_shown (n : Lane) : ∀ f ∈ steadyFields n,
    ∀ g ∈ [F.MSn_STAT_STATE n, F.MSn_STAT_GATE n, F.MSn_STAT_DEPTH n, F.MSn_STAT_HD n, F.MSn_STAT_MODE_HALT n], g.apart f = true := by
  revert n
  decide

/-- The halt shown, before the mode halt. -/
def haltShown (n : Lane) (st : Nat) (s : State) : State := showSeq n ((haltGates n s).put (F.MSn_STAT_STATE n) st)

theorem haltSeq_eq (st : Nat) (modeHalt : Bool) : haltSeq n st modeHalt s =
    if modeHalt && !seqMode (haltShown n st s).mode then (haltShown n st s).put (F.MSn_STAT_MODE_HALT n) 1 else haltShown n st s := rfl

theorem get_haltShown (st : Nat) : ∀ f ∈ steadyFields n, (haltShown n st s).get f = s.get f := by
  intro f hf
  obtain ⟨state, gate, depth, hd, -⟩ : _ ∧ _ ∧ _ ∧ _ ∧ _ := by simpa using steadyFields_shown n f hf
  rw [haltShown, showSeq, get_put_of_apart hd, get_put_of_apart depth, get_put_of_apart gate, get_put_of_apart state, haltGates_eq, get_onMs]
  exact gateKept_gatesShut.get f hf

/-- A halt leaves the steady fields. -/
theorem get_haltSeq (st : Nat) (modeHalt : Bool) : ∀ f ∈ steadyFields n, (haltSeq n st modeHalt s).get f = s.get f := by
  intro f hf
  rw [haltSeq_eq]
  split
  · rw [get_put_of_apart (steadyFields_shown n f hf _ (by simp)), get_haltShown st f hf]
  · exact get_haltShown st f hf

theorem ms_haltSeq (st : Nat) (modeHalt : Bool) : ∃ gate events, (haltSeq n st modeHalt s).ms n =
    rested { s.ms n with nxt := { (s.ms n).nxt with gate := gate }, events := events } := by
  obtain ⟨gate, events, shut⟩ := (gateKept_gatesShut (n := n) (s := s)).ms
  have shown : (haltShown n st s).ms n = rested { s.ms n with nxt := { (s.ms n).nxt with gate := gate }, events := events } := by
    rw [← shut]
    simp only [haltShown, showSeq, ms_put, haltGates_eq, ms_onMs_same]
  refine ⟨gate, events, ?_⟩
  rw [haltSeq_eq]
  split
  · rw [ms_put, shown]
  · exact shown

theorem cur_haltSeq (st : Nat) (modeHalt : Bool) : ((haltSeq n st modeHalt s).ms n).cur = { (s.ms n).nxt with gate := 0 } := by
  obtain ⟨gate, events, eq⟩ := ms_haltSeq (n := n) (s := s) st modeHalt
  rw [eq]
  rfl

theorem seqState_haltSeq {st : Nat} (fits : st < 16) (modeHalt : Bool) : seqState (haltSeq n st modeHalt s) n = st := by
  have shown : seqState (haltShown n st s) n = st := by
    rw [seqState, haltShown, showSeq]
    simp (disch := exact of_decide_eq_true rfl) only [get_put_same, get_put_apart]
    exact Nat.mod_eq_of_lt fits
  rw [haltSeq_eq]
  split
  · rw [seqState, get_put_apart (of_decide_eq_true rfl), ← seqState, shown]
  · exact shown

theorem mode_mem_steadyFields (n : Lane) : F.GLB_MODE_MODE ∈ steadyFields n := List.mem_cons_self

/-- A HALT word or a forced halt outside the running modes is a mode halt (R246). -/
theorem modeHalt_haltSeq (st : Nat) (outside : seqMode s.mode = false) : (haltSeq n st true s).get (F.MSn_STAT_MODE_HALT n) = 1 := by
  have mode : (haltShown n st s).mode = s.mode := get_haltShown st _ (mode_mem_steadyFields n)
  rw [haltSeq_eq, mode, outside]
  exact get_put_same (of_decide_eq_true rfl) 1

/-! ### Records and traps (R242, R247) -/

theorem gateKept_msHwEvent {code w5 w6 : Nat} : GateKept n s (msHwEvent n code w5 w6 s) := by
  unfold msHwEvent
  exact .ite .refl gateKept_msPost

theorem get_lt (s : State) (f : Fld) : s.get f < 2 ^ f.width := rget_lt ..

/-- The record of a halt: its cause and the word, the return address standing. -/
theorem recordHalt_spec {cause : Nat} (fits : cause < 256) :
    (recordHalt n cause s).get (F.MSn_TRAP_CAUSE n) = cause ∧
      (recordHalt n cause s).get (F.MSn_TRAP_PC n) = s.get (F.MSn_STAT_PC n) ∧
      (recordHalt n cause s).get (F.MSn_TRAP_RET n) = s.get (F.MSn_TRAP_RET n) ∧
      regsKept [R.MSn_TRAP n] s (recordHalt n cause s) := by
  have pc : s.get (F.MSn_STAT_PC n) % 4096 = s.get (F.MSn_STAT_PC n) := Nat.mod_eq_of_lt (get_lt s (F.MSn_STAT_PC n))
  have kept : regsKept [R.MSn_TRAP n] s (s.put (F.MSn_TRAP_CAUSE n) cause) := regsKept_put (f := F.MSn_TRAP_CAUSE n) List.mem_cons_self cause
  refine ⟨?_, ?_, ?_, kept.trans (regsKept_put (f := F.MSn_TRAP_PC n) List.mem_cons_self _)⟩
  all_goals
    rw [recordHalt]
    simp (disch := exact of_decide_eq_true rfl) only [get_put_same, get_put_apart]
  · exact Nat.mod_eq_of_lt fits
  · exact pc

/-- Several fields written one after the other. -/
def putAll (l : List (Fld × Nat)) (s : State) : State := l.foldl (fun t p => t.put p.1 p.2) s

theorem get_putAll_of_apart {l : List (Fld × Nat)} {g : Fld} (h : ∀ p ∈ l, p.1.apart g = true) : (putAll l s).get g = s.get g := by
  induction l generalizing s with
  | nil => rfl
  | cons p l ih =>
    obtain ⟨first, others⟩ := List.forall_mem_cons.mp h
    exact (ih others).trans (get_put_of_apart first s p.2)

/-- Of fields that share no bit each reads as it was written. -/
theorem get_putAll {l : List (Fld × Nat)} (apart : (l.map Prod.fst).Pairwise (fun f g => g.apart f = true)) {f : Fld} {v : Nat} (mem : (f, v) ∈ l)
    (fits : f.lo + f.width ≤ 32) (small : v < 2 ^ f.width) : (putAll l s).get f = v := by
  induction l generalizing s with
  | nil => cases mem
  | cons p l ih =>
    obtain ⟨first, others⟩ := List.pairwise_cons.mp apart
    rcases List.mem_cons.mp mem with rfl | later
    · have kept : (putAll l (s.put f v)).get f = (s.put f v).get f := get_putAll_of_apart (fun q hq => first q.1 (List.mem_map_of_mem hq))
      exact kept.trans ((get_put_same fits v).trans (Nat.mod_eq_of_lt small))
    · exact ih others later

theorem regsKept_putAll {l : List (Fld × Nat)} {k : List Nat} (own : ∀ p ∈ l, p.1.addr ∈ k) : regsKept k s (putAll l s) := by
  induction l generalizing s with
  | nil => exact fun _ _ => rfl
  | cons p l ih =>
    obtain ⟨first, others⟩ := List.forall_mem_cons.mp own
    exact (regsKept_put first p.2).trans (ih others)

/-- The fields in which a trap is recorded, with what stands in them. -/
def trapRecord (n : Lane) (cause ret : Nat) (s : State) : List (Fld × Nat) :=
  [(F.MSn_TRAP_CAUSE n, cause), (F.MSn_TRAP_PC n, s.get (F.MSn_STAT_PC n)), (F.MSn_TRAP_RET n, ret),
    (F.MSn_TRAP_LC_LC0 n, (s.ms n).nxt.lc0.toNat), (F.MSn_TRAP_LC_LC1 n, (s.ms n).nxt.lc1.toNat),
    (F.MSn_TRAP_AUX_GATE_AT n, (s.ms n).cur.gate), (F.MSn_TRAP_AUX_PENDING n, s.get ⟨R.MSn_INT n, 6, 0⟩)]

/-- The registers in which a trap is recorded. -/
def trapRegs (n : Lane) : List Nat := [R.MSn_TRAP n, R.MSn_TRAP_LC n, R.MSn_TRAP_AUX n]

theorem trapFields_apart (n : Lane) (cause ret : Nat) :
    ((trapRecord n cause ret s).map Prod.fst).Pairwise (fun f g => g.apart f = true) ∧
      (∀ f ∈ (trapRecord n cause ret s).map Prod.fst, f.apart ⟨R.MSn_INT n, 6, 0⟩ = true) ∧
      ∀ f ∈ (trapRecord n cause ret s).map Prod.fst, f.addr ∈ trapRegs n := by
  simp only [trapRecord, List.map_cons, List.map_nil]
  revert n
  decide

theorem recordTrap_eq (cause ret : Nat) : recordTrap n cause ret s = putAll (trapRecord n cause ret s) s := by
  have pending : (putAll ((trapRecord n cause ret s).take 5) s).get ⟨R.MSn_INT n, 6, 0⟩ = s.get ⟨R.MSn_INT n, 6, 0⟩ :=
    get_putAll_of_apart (fun p hp => (trapFields_apart n cause ret).2.1 p.1 (List.mem_map_of_mem (List.mem_of_mem_take hp)))
  simp only [trapRecord, putAll, List.take_succ_cons, List.take_zero, List.foldl_cons, List.foldl_nil] at pending
  simp only [recordTrap, recordHalt, pending, trapRecord, putAll, List.foldl_cons, List.foldl_nil]

/-- The record of a trap (R242). -/
theorem recordTrap_spec {cause ret : Nat} (fits : cause < 256) (inStore : ret < 4096) :
    (recordTrap n cause ret s).get (F.MSn_TRAP_CAUSE n) = cause ∧
      (recordTrap n cause ret s).get (F.MSn_TRAP_PC n) = s.get (F.MSn_STAT_PC n) ∧
      (recordTrap n cause ret s).get (F.MSn_TRAP_RET n) = ret ∧
      (recordTrap n cause ret s).get (F.MSn_TRAP_LC_LC0 n) = (s.ms n).nxt.lc0.toNat ∧
      (recordTrap n cause ret s).get (F.MSn_TRAP_LC_LC1 n) = (s.ms n).nxt.lc1.toNat ∧
      (recordTrap n cause ret s).get (F.MSn_TRAP_AUX_PENDING n) = s.get ⟨R.MSn_INT n, 6, 0⟩ ∧
      regsKept (trapRegs n) s (recordTrap n cause ret s) := by
  obtain ⟨apart, -, own⟩ := trapFields_apart (s := s) n cause ret
  have pcFits : s.get (F.MSn_STAT_PC n) < 2 ^ 12 := get_lt s _
  have pendingFits : s.get ⟨R.MSn_INT n, 6, 0⟩ < 2 ^ 7 := get_lt s _
  rw [recordTrap_eq]
  have written {f : Fld} {v : Nat} (mem : (f, v) ∈ trapRecord n cause ret s) (fits : f.lo + f.width ≤ 32) (small : v < 2 ^ f.width) :
      (putAll (trapRecord n cause ret s) s).get f = v := get_putAll apart mem fits small
  refine ⟨written (by simp [trapRecord]) (of_decide_eq_true rfl) fits, written (by simp [trapRecord]) (of_decide_eq_true rfl) pcFits,
    written (by simp [trapRecord]) (of_decide_eq_true rfl) inStore, written (by simp [trapRecord]) (of_decide_eq_true rfl) (BitVec.isLt _),
    written (by simp [trapRecord]) (of_decide_eq_true rfl) (BitVec.isLt _), written (by simp [trapRecord]) (of_decide_eq_true rfl) pendingFits,
    regsKept_putAll (fun p hp => own p.1 (List.mem_map_of_mem hp))⟩

end

end Sys2Proof.Machine

end

section

/-! PROOF. Words that fault, hold or are interrupted, and the rows that start, stop and halt a sequencer (R232, R240 to R246): O19 from a lemma for
each. -/

namespace Sys2Proof.Machine

section

variable {n : Lane} {s t u : State}

/-! ### Commands -/

/-- A command that is accepted acts and is answered (R59, R632, R633). -/
theorem command_taken {addr : Nat} (accepts : s.accepts addr = true) (w : Word) (eff : State → State) :
    s.command addr w eff = (eff s).answer .done := by
  obtain ⟨early, busy, absent, lost⟩ := accepts_iff.mp accepts
  rw [State.command, write_taken early busy, absent, lost, Bool.or_self, if_neg Bool.false_ne_true]

theorem mode_congr (kept : t.reg R.GLB_MODE = s.reg R.GLB_MODE) : t.mode = s.mode := congrArg (fun w : Word => (w.extractLsb' 0 4).toNat) kept

/-! ### What happens at a word -/

/-- A word that is ready acts, shown RUNNING (R231). -/
theorem atWord_ready (ready : s.wordReady n = true) (act : State → State) : atWord n true s act = act (s.put (F.MSn_STAT_STATE n) Seq.running) := by
  simp only [State.wordReady, Bool.and_eq_true, Bool.not_eq_true', Option.isNone_iff_eq_none] at ready
  obtain ⟨⟨⟨⟨runs, goes⟩, unmarked⟩, sound⟩, free⟩ := ready
  simp only [atWord, runs, goes, unmarked, sound, free, Bool.not_true, Bool.false_eq_true, if_false]

theorem seqRuns_of_wordReady (ready : s.wordReady n = true) : seqRuns s n = true := by
  simp only [State.wordReady, Bool.and_eq_true] at ready
  exact ready.1.1.1.1

section

variable (runs : seqRuns s n = true) (goes : (s.ms n).stopping = false) (unmarked : mw (seqWord s n) 32 32 = 0)

include runs goes unmarked

theorem atWord_faults {c : Nat} (fault : wordFault s n = some c) (act : State → State) : atWord n true s act = takeFault n c s := by
  simp [atWord, runs, goes, unmarked, fault]

theorem wordReady_of_free (sound : wordFault s n = none) (free : wordHolds s n = false) : s.wordReady n = true := by
  simp [State.wordReady, runs, goes, unmarked, sound, free]

/-- A pending interrupt takes a waiting safe point, whose changes are given up (R242). -/
theorem atWord_interrupted {b : Nat} (sound : wordFault s n = none) (waits : wordWaits s n = true) (safe : mw (seqWord s n) 141 141 = 1)
    (pending : pendingInt s n = some b) (act : State → State) :
    atWord n true s act = takeInt n b (s.get (F.MSn_STAT_PC n))
      ((s.put (F.MSn_STAT_STATE n) Seq.holding).onMs n (fun m => { m with nxt := { m.cur with gate := m.nxt.gate } })) := by
  have holds : wordHolds s n = true := by simp [wordHolds, waits]
  have kept : deferHeater n s = s := by simp [deferHeater, waits]
  have pc : (s.put (F.MSn_STAT_STATE n) Seq.holding).get (F.MSn_STAT_PC n) = s.get (F.MSn_STAT_PC n) := get_put_apart (of_decide_eq_true rfl) ..
  simp [atWord, runs, goes, unmarked, sound, holds, kept, pendingInt_putState, pending, safe, pc]

end

/-- A fault, if there is one, has a code that fits MSn_TRAP.CAUSE. -/
def FitsCause (o : Option Nat) : Prop := ∀ c ∈ o, c < 256

theorem FitsCause.none : FitsCause .none := fun _ h => by cases h

theorem FitsCause.code {c : Nat} (h : c < 256) : FitsCause (some c) := fun _ e => by
  cases e
  exact h

theorem FitsCause.ite {p : Prop} [Decidable p] {a b : Option Nat} (ha : FitsCause a) (hb : FitsCause b) : FitsCause (if p then a else b) := by
  split
  · exact ha
  · exact hb

theorem gateFault_fits : FitsCause (gateFault s n) :=
  .ite .none (.ite (.code (by decide)) (.ite (.code (by decide)) (.ite (.code (by decide)) (.ite .none (.ite (.code (by decide))
    (.ite (.code (by decide)) .none))))))

/-- The codes of R241 fit. -/
theorem wordFault_fits : FitsCause (wordFault s n) := by
  refine .ite .none (.ite (.code (by decide)) (.ite (.code (by decide)) (.ite (.code (by decide)) (.ite (.code (by decide)) (.ite (.code (by decide))
    (.ite (.code (by decide)) (.ite (.code (by decide)) (.ite (.code (by decide)) (.ite .none ?_)))))))))
  split
  next fault => exact .code (gateFault_fits _ fault)
  next => exact .ite (.code (by decide)) .none

/-! ### Traps taken (R242, R243) -/

/-- A handler begins with MASK set. -/
def handlerBegun (n : Lane) (addr : Nat) (s : State) : State := beginWord n addr (s.put (F.MSn_STAT_MASK n) 1)

theorem handlerBegun_spec {addr : Nat} (fits : addr < 4096) :
    (handlerBegun n addr s).get (F.MSn_STAT_PC n) = addr ∧
      (handlerBegun n addr s).get (F.MSn_STAT_MASK n) = 1 ∧
      ((handlerBegun n addr s).ms n).cur = (s.ms n).nextRegs ∧
      regsKept [R.MSn_STAT n] s (handlerBegun n addr s) := by
  have masked : regsKept [R.MSn_STAT n] s (s.put (F.MSn_STAT_MASK n) 1) := regsKept_put (f := F.MSn_STAT_MASK n) List.mem_cons_self 1
  refine ⟨get_beginWord_pc fits, ?_, ?_, masked.trans (regsKept_beginWord addr)⟩
  · rw [handlerBegun, (get_beginWord_flags addr).1]
    exact get_put_same (of_decide_eq_true rfl) 1
  · rw [handlerBegun, (cur_beginWord addr).1, ms_put]

/-- The changes of a word given up: the next word begins with what this one began with. -/
def givenUp (m : Ms) : Ms := { m with nxt := { m.cur with gate := m.nxt.gate } }

/-- A word's fault counted, its changes suppressed. -/
def faultCounted (n : Lane) (s : State) : State := (s.onMs n givenUp).count (F.MSn_CNT_FAULTS n)

theorem faultCounted_spec :
    (faultCounted n s).get (F.MSn_CNT_FAULTS n) = min (s.get (F.MSn_CNT_FAULTS n) + 1) 255 ∧
      (faultCounted n s).ms n = givenUp (s.ms n) ∧
      regsKept [R.MSn_CNT n] s (faultCounted n s) := by
  refine ⟨get_count (of_decide_eq_true rfl) 1, ?_, fun a ha => ?_⟩
  · rw [faultCounted, State.count, ms_put, ms_onMs_same]
  · rw [faultCounted, regsKept_count _ _ _ _ ha, reg_onMs]

theorem takeFault_eq (c : Nat) : takeFault n c s =
    if (faultCounted n s).on (F.MSn_STAT_MASK n) then
      haltSeq n Seq.faulted false
        (msHwEvent n 0xF0 c ((faultCounted n s).get (F.MSn_STAT_PC n)) (recordHalt n 0x20 (faultCounted n s)))
    else handlerBegun n 0x001 (recordTrap n c ((faultCounted n s).get (F.MSn_STAT_PC n)) (faultCounted n s)) := rfl

theorem takeInt_eq (b ret : Nat) : takeInt n b ret s =
    handlerBegun n 0x002 ((recordTrap n (0x10 + b) ret s).put ((⟨R.MSn_INT n, 6, 0⟩ : Fld).bit b) 0) := rfl

/-- The registers of a sequencer that a trap writes are apart from each other. -/
theorem trapRegs_apart (n : Lane) : R.MSn_STAT n ∉ [R.MSn_CNT n] ∧ R.MSn_INT n ∉ [R.MSn_CNT n] ∧ R.MSn_CNT n ∉ [R.MSn_STAT n] ∧
    R.MSn_CNT n ∉ trapRegs n ∧ R.MSn_TRAP n ∉ [R.MSn_CNT n] ∧ R.MSn_CNT n ∉ [R.MSn_TRAP n] := by
  revert n
  decide

/-- The registers of a trap's record are apart from those in which the handler begins and from the pending interrupts. -/
theorem trapRegs_kept (n : Lane) : ∀ a ∈ trapRegs n, a ∉ [R.MSn_STAT n] ∧ a ∉ [R.MSn_INT n] := by
  revert n
  decide

theorem get_handlerBegun_trap {f : Fld} (own : f.addr ∈ trapRegs n) (addr : Nat) : (handlerBegun n addr s).get f = s.get f := by
  have masked : regsKept [R.MSn_STAT n] s (s.put (F.MSn_STAT_MASK n) 1) := regsKept_put (f := F.MSn_STAT_MASK n) List.mem_cons_self 1
  exact (masked.trans (regsKept_beginWord addr)).get (trapRegs_kept n _ own).1

theorem ms_recordTrap (cause ret : Nat) : (recordTrap n cause ret s).ms n = s.ms n := congrArg (·.get n) (recordTrap_moves.parts 14 rfl)

/-- A fault outside a handler traps to 0x001 with its record (R242). -/
theorem takeFault_unmasked {c : Nat} (unmasked : s.on (F.MSn_STAT_MASK n) = false) :
    takeFault n c s = handlerBegun n 0x001 (recordTrap n c (s.get (F.MSn_STAT_PC n)) (faultCounted n s)) := by
  obtain ⟨-, -, kept⟩ := faultCounted_spec (n := n) (s := s)
  have mask : (faultCounted n s).on (F.MSn_STAT_MASK n) = false := by rw [State.on, kept.get (trapRegs_apart n).1, ← State.on, unmasked]
  have pc : (faultCounted n s).get (F.MSn_STAT_PC n) = s.get (F.MSn_STAT_PC n) := kept.get (trapRegs_apart n).1
  rw [takeFault_eq, mask, pc, if_neg Bool.false_ne_true]

theorem takeFault_masked {c : Nat} (masked : s.on (F.MSn_STAT_MASK n) = true) :
    takeFault n c s = haltSeq n Seq.faulted false (msHwEvent n 0xF0 c (s.get (F.MSn_STAT_PC n)) (recordHalt n 0x20 (faultCounted n s))) := by
  obtain ⟨-, -, kept⟩ := faultCounted_spec (n := n) (s := s)
  have mask : (faultCounted n s).on (F.MSn_STAT_MASK n) = true := by rw [State.on, kept.get (trapRegs_apart n).1, ← State.on, masked]
  have pc : (faultCounted n s).get (F.MSn_STAT_PC n) = s.get (F.MSn_STAT_PC n) := kept.get (trapRegs_apart n).1
  rw [takeFault_eq, mask, pc, if_pos rfl]

theorem steadyFields_mem (n : Lane) : F.MSn_CTL_RUN n ∈ steadyFields n ∧ F.MSn_STAT_PC n ∈ steadyFields n ∧
    F.MSn_TRAP_CAUSE n ∈ steadyFields n ∧ F.MSn_TRAP_RET n ∈ steadyFields n ∧ F.MSn_CNT_FAULTS n ∈ steadyFields n ∧
    F.MSn_CNT_FORCED n ∈ steadyFields n := by
  simp [steadyFields]

/-- A halt and its event leave the steady fields. -/
theorem get_haltSeq_event (st : Nat) (modeHalt : Bool) (code w5 w6 : Nat) :
    ∀ f ∈ steadyFields n, (haltSeq n st modeHalt (msHwEvent n code w5 w6 s)).get f = s.get f :=
  fun f hf => (get_haltSeq st modeHalt f hf).trans (gateKept_msHwEvent.get f hf)

/-! ### RUN and RESUME (R244, R245) -/

theorem seqState_congr (kept : t.get (F.MSn_STAT_STATE n) = s.get (F.MSn_STAT_STATE n)) : seqState t n = seqState s n := kept

theorem seqRuns_congr (kept : t.get (F.MSn_STAT_STATE n) = s.get (F.MSn_STAT_STATE n)) : seqRuns t n = seqRuns s n := by
  rw [seqRuns, seqState_congr kept, seqRuns]

/-- RUN written, with what the sequencer notes of it; a mode halt no longer stands (R246). -/
def runSet (n : Lane) (v : Nat) (f : Ms → Ms) (s : State) : State := ((s.put (F.MSn_STAT_MODE_HALT n) 0).put (F.MSn_CTL_RUN n) v).onMs n f

theorem ctl_apart (n : Lane) : R.MSn_STAT n ∉ [R.MSn_CTL n] ∧ R.MSn_CTL n ∉ [R.MSn_STAT n] ∧ R.GLB_MODE ∉ [R.MSn_CTL n, R.MSn_STAT n] := by
  revert n
  decide

theorem regsKept_runSet (v : Nat) (f : Ms → Ms) : regsKept [R.MSn_CTL n, R.MSn_STAT n] s (runSet n v f s) := by
  have shown : regsKept [R.MSn_CTL n, R.MSn_STAT n] s (s.put (F.MSn_STAT_MODE_HALT n) 0) :=
    regsKept_put (f := F.MSn_STAT_MODE_HALT n) (by simp [F.MSn_STAT_MODE_HALT]) 0
  intro a ha
  rw [runSet, reg_onMs]
  exact (shown.trans (regsKept_put (f := F.MSn_CTL_RUN n) List.mem_cons_self v)) a ha

theorem runSet_moves (v : Nat) (f : Ms → Ms) : Moves 0x4001 s (runSet n v f s) :=
  onMs_moves.on (put_moves.on (put_moves.wide (m := 0x4001) rfl) rfl) rfl

theorem ms_runSet (v : Nat) (f : Ms → Ms) : (runSet n v f s).ms n = f (s.ms n) := by rw [runSet, ms_onMs_same, ms_put, ms_put]

theorem get_runSet_run {v : Nat} (bit : v < 2) (f : Ms → Ms) : (runSet n v f s).get (F.MSn_CTL_RUN n) = v := by
  rw [runSet, get_onMs, get_put_same (of_decide_eq_true rfl)]
  exact Nat.mod_eq_of_lt bit

/-- RUN leaves what MSn_STAT shows beside a mode halt. -/
theorem get_runSet_stat {g : Fld} (own : g.addr = R.MSn_STAT n) (apart : (F.MSn_STAT_MODE_HALT n).apart g = true) (v : Nat) (f : Ms → Ms) :
    (runSet n v f s).get g = s.get g := by
  have ctl : regsKept [R.MSn_CTL n] (s.put (F.MSn_STAT_MODE_HALT n) 0) ((s.put (F.MSn_STAT_MODE_HALT n) 0).put (F.MSn_CTL_RUN n) v) :=
    regsKept_put (f := F.MSn_CTL_RUN n) List.mem_cons_self v
  rw [runSet, get_onMs, ctl.get (by rw [own]; exact (ctl_apart n).1), get_put_of_apart apart]

theorem statFields_apart (n : Lane) : (F.MSn_STAT_MODE_HALT n).apart (F.MSn_STAT_STATE n) = true ∧
    (F.MSn_STAT_MODE_HALT n).apart (F.MSn_STAT_PC n) = true ∧ (F.MSn_STAT_MODE_HALT n).apart (F.MSn_STAT_MASK n) = true := by
  revert n
  decide

theorem seqState_runSet (v : Nat) (f : Ms → Ms) : seqState (runSet n v f s) n = seqState s n := get_runSet_stat rfl (statFields_apart n).1 v f

theorem mode_runSet (v : Nat) (f : Ms → Ms) : (runSet n v f s).mode = s.mode := mode_congr (regsKept_runSet v f _ (ctl_apart n).2.2)

/-- A sequencer that is not to stop. -/
def goesOn (m : Ms) : Ms := { m with stopping := false }

/-- A sequencer that waits for no running mode. -/
def notDue (m : Ms) : Ms := { m with startDue := false }

theorem runEff_eq : runEff n s =
    if s.on (F.MSn_CTL_RUN n) then s.put (F.MSn_STAT_MODE_HALT n) 0
    else if (seqState ((s.put (F.MSn_STAT_MODE_HALT n) 0).put (F.MSn_CTL_RUN n) 1) n = Seq.halted ∨
          seqState ((s.put (F.MSn_STAT_MODE_HALT n) 0).put (F.MSn_CTL_RUN n) 1) n = Seq.faulted) ∧
        !((runSet n 1 goesOn s).ms n).storeErr then
      if seqMode (runSet n 1 goesOn s).mode then startSeq n (runSet n 1 goesOn s)
      else (runSet n 1 goesOn s).onMs n (fun m => { m with startDue := true })
    else runSet n 1 goesOn s := rfl

theorem runStopEff_eq : runStopEff n s =
    if !s.on (F.MSn_CTL_RUN n) then s.put (F.MSn_STAT_MODE_HALT n) 0
    else if !seqRuns (runSet n 0 notDue s) n then runSet n 0 notDue s
    else if mw (seqWord (runSet n 0 notDue s) n) 141 141 = 1 ∧ ((runSet n 0 notDue s).ms n).acted = 0 then
      haltSeq n Seq.halted false (runSet n 0 notDue s)
    else (runSet n 0 notDue s).onMs n (fun m => { m with stopping := true }) := rfl

/-- RUN starts a sequencer that rests, at once in a running mode (R244). -/
theorem runEff_rests (off : s.on (F.MSn_CTL_RUN n) = false) (rests : seqState s n = Seq.halted ∨ seqState s n = Seq.faulted)
    (sound : (s.ms n).storeErr = false) : runEff n s = if seqMode s.mode then startSeq n (runSet n 1 goesOn s) else
      (runSet n 1 goesOn s).onMs n (fun m => { m with startDue := true }) := by
  have note : ((runSet n 1 goesOn s).ms n).storeErr = false := by rw [ms_runSet]; exact sound
  have state : seqState ((s.put (F.MSn_STAT_MODE_HALT n) 0).put (F.MSn_CTL_RUN n) 1) n = seqState s n := by
    rw [← seqState_runSet (n := n) (s := s) 1 goesOn, runSet, seqState, seqState, get_onMs]
  rw [runEff_eq, off, if_neg Bool.false_ne_true, state, note, mode_runSet, if_pos ⟨rests, rfl⟩]

section

variable (on_ : s.on (F.MSn_CTL_RUN n) = true) (runs : seqRuns s n = true)

include on_ runs

theorem runStopEff_runs : runStopEff n s =
    if mw (seqWord s n) 141 141 = 1 ∧ (s.ms n).acted = 0 then haltSeq n Seq.halted false (runSet n 0 notDue s)
    else (runSet n 0 notDue s).onMs n (fun m => { m with stopping := true }) := by
  have still : seqRuns (runSet n 0 notDue s) n = true := (seqRuns_congr (seqState_runSet 0 notDue)).trans runs
  have word : seqWord (runSet n 0 notDue s) n = seqWord s n :=
    seqWord_congr (get_runSet_stat rfl (statFields_apart n).2.1 0 notDue) (by rw [ms_runSet]; rfl)
  have acted : ((runSet n 0 notDue s).ms n).acted = (s.ms n).acted := by rw [ms_runSet]; rfl
  rw [runStopEff_eq, on_, still, word, acted, Bool.not_true, if_neg Bool.false_ne_true, if_neg Bool.false_ne_true]

end

/-- A sequencer at its start: everything cleared but the gate mode and the transfer in hand (R244). -/
def cleared (m : Ms) : Ms :=
  { m with nxt := { SeqRegs.clear with gate := m.nxt.gate, op := m.nxt.op, xfer := m.nxt.xfer, sectNo := m.nxt.sectNo }, landed := none,
           stopping := false, startDue := false }

/-- MASK and a mode halt cleared for a start. -/
def flagsCleared (n : Lane) (s : State) : State := (s.put (F.MSn_STAT_MASK n) 0).put (F.MSn_STAT_MODE_HALT n) 0

theorem startSeq_eq : startSeq n s = beginWord n 0 ((flagsCleared n s).onMs n cleared) := rfl

theorem regsKept_startSeq : regsKept [R.MSn_STAT n] s (startSeq n s) := by
  have masked : regsKept [R.MSn_STAT n] s (s.put (F.MSn_STAT_MASK n) 0) := regsKept_put (f := F.MSn_STAT_MASK n) List.mem_cons_self 0
  have flags : regsKept [R.MSn_STAT n] s (flagsCleared n s) := masked.trans (regsKept_put (f := F.MSn_STAT_MODE_HALT n) List.mem_cons_self 0)
  have noted : regsKept [R.MSn_STAT n] (flagsCleared n s) ((flagsCleared n s).onMs n cleared) := .of_regs rfl
  exact (flags.trans noted).trans (regsKept_beginWord 0)

/-- A sequencer that starts is at 0x000 with its registers, MASK and mode halt cleared (R244, R246). -/
theorem startSeq_spec :
    (startSeq n s).get (F.MSn_STAT_PC n) = 0 ∧
      (startSeq n s).get (F.MSn_STAT_MASK n) = 0 ∧
      (startSeq n s).get (F.MSn_STAT_MODE_HALT n) = 0 ∧
      ((startSeq n s).ms n).cur = { SeqRegs.clear with
        gate := (s.ms n).nxt.gate, op := (s.ms n).nxt.op, xfer := (s.ms n).nxt.xfer, sectNo := (s.ms n).nxt.sectNo } := by
  rw [startSeq_eq]
  refine ⟨get_beginWord_pc (by decide), ?_, ?_, ?_⟩
  · rw [(get_beginWord_flags 0).1, get_onMs, flagsCleared, get_put_apart (of_decide_eq_true rfl), get_put_same (of_decide_eq_true rfl)]
    rfl
  · rw [(get_beginWord_flags 0).2, get_onMs, flagsCleared, get_put_same (of_decide_eq_true rfl)]
    rfl
  · rw [(cur_beginWord 0).1, ms_onMs_same, flagsCleared, ms_put, ms_put]
    rfl

/-- The sequencer after RESUME: its breakpoint is passed once (R244, R245). -/
def resumedSeq (n : Lane) (s : State) : State := (beginWord n (s.get (F.MSn_STAT_PC n)) s).onMs n (fun m => { m with passBkpt := true })

theorem resumeEff_eq : resumeEff n s =
    if seqState (s.put (F.MSn_STAT_MODE_HALT n) 0) n = Seq.halted ∧ (s.put (F.MSn_STAT_MODE_HALT n) 0).on (F.MSn_CTL_RUN n) ∧
        seqMode (s.put (F.MSn_STAT_MODE_HALT n) 0).mode ∧ !((s.put (F.MSn_STAT_MODE_HALT n) 0).ms n).storeErr then
      resumedSeq n (s.put (F.MSn_STAT_MODE_HALT n) 0)
    else s.put (F.MSn_STAT_MODE_HALT n) 0 := rfl

theorem resumeEff_halted (on_ : s.on (F.MSn_CTL_RUN n) = true) (halted : seqState s n = Seq.halted) (mode : seqMode s.mode = true)
    (sound : (s.ms n).storeErr = false) : resumeEff n s = resumedSeq n (s.put (F.MSn_STAT_MODE_HALT n) 0) := by
  have kept : regsKept [R.MSn_STAT n] s (s.put (F.MSn_STAT_MODE_HALT n) 0) := regsKept_put (f := F.MSn_STAT_MODE_HALT n) List.mem_cons_self 0
  have state : seqState (s.put (F.MSn_STAT_MODE_HALT n) 0) n = Seq.halted := (get_put_apart (of_decide_eq_true rfl) ..).trans halted
  have run : (s.put (F.MSn_STAT_MODE_HALT n) 0).on (F.MSn_CTL_RUN n) = true := by
    rw [State.on, kept.get (f := F.MSn_CTL_RUN n) (ctl_apart n).2.1]
    exact on_
  have same : (s.put (F.MSn_STAT_MODE_HALT n) 0).mode = s.mode := mode_congr (kept _ (fun h => (ctl_apart n).2.2 (by simp_all)))
  rw [resumeEff_eq, if_pos ⟨state, run, by rw [same, mode], by rw [ms_put, sound]; rfl⟩]

end

end Sys2Proof.Machine

end

section

/-! PROOF. O19 (R232, R240 to R246), a lemma for each row that starts, stops, traps or halts a lane's sequencer. -/

namespace Sys2Proof.Machine

section

variable {n : Lane} {s : State}

theorem regsKept_onMs {l : List Nat} (f : Ms → Ms) : regsKept l s (s.onMs n f) := .of_regs rfl

theorem bus_answer (b : BusAnswer) : (s.answer b).bus = b := rfl

/-! ### RUN, its end and RESUME (R244, R245) -/

theorem run_running (accepts : s.accepts (R.MSn_CTL n) = true) (off : s.on (F.MSn_CTL_RUN n) = false)
    (rests : seqState s n = Seq.halted ∨ seqState s n = Seq.faulted) (sound : (s.ms n).storeErr = false) (mode : seqMode s.mode = true) :
    ∃ t : State, exec (.run n) s = .next t ∧ t.bus = .done ∧ t.get (F.MSn_CTL_RUN n) = 1 ∧ t.get (F.MSn_STAT_PC n) = 0 ∧
      t.get (F.MSn_STAT_MASK n) = 0 ∧ t.get (F.MSn_STAT_MODE_HALT n) = 0 ∧ seqRuns t n = true ∧
      (t.ms n).cur =
        { SeqRegs.clear with gate := (s.ms n).nxt.gate, op := (s.ms n).nxt.op, xfer := (s.ms n).nxt.xfer, sectNo := (s.ms n).nxt.sectNo } ∧
      regsKept [R.MSn_CTL n, R.MSn_STAT n] s t ∧ onlyParts [.regs, .mss, .bus] s t := by
  have exec_eq : exec (.run n) s = .next ((startSeq n (runSet n 1 goesOn s)).answer .done) := by
    show Host.Outcome.next (s.command ..) = _
    rw [command_taken accepts, runEff_rests off rests sound, mode, if_pos rfl]
  obtain ⟨pc, mask, modeHalt, cur⟩ := startSeq_spec (n := n) (s := runSet n 1 goesOn s)
  have kept : regsKept [R.MSn_STAT n] (runSet n 1 goesOn s) (startSeq n (runSet n 1 goesOn s)) := regsKept_startSeq
  have moved : Moves 0x4001 s (startSeq n (runSet n 1 goesOn s)) := startSeq_moves.on (runSet_moves 1 goesOn) rfl
  refine ⟨_, exec_eq, bus_answer _, ?_, by rw [get_answer, pc], by rw [get_answer, mask], by rw [get_answer, modeHalt], ?_, ?_,
    regsKept_answer ((regsKept_runSet 1 goesOn).trans (kept.mono (by simp))) _, onlyParts_answer (moved.frame (by decide)) (by simp) _⟩
  · rw [get_answer, kept.get (ctl_apart n).2.1, get_runSet_run (by decide)]
  · rw [seqRuns_congr (get_answer ..), startSeq_eq, seqRuns_beginWord]
  · rw [ms_answer, cur, ms_runSet]
    rfl

theorem run_waiting (accepts : s.accepts (R.MSn_CTL n) = true) (off : s.on (F.MSn_CTL_RUN n) = false) (rests : seqState s n = Seq.halted)
    (sound : (s.ms n).storeErr = false) (outside : seqMode s.mode = false) :
    ∃ t : State, exec (.run n) s = .next t ∧ (t.ms n).startDue = true ∧ t.get (F.MSn_CTL_RUN n) = 1 ∧ seqState t n = Seq.halted ∧
      t.bus = .done ∧ regsKept [R.MSn_CTL n, R.MSn_STAT n] s t ∧ onlyParts [.regs, .mss, .bus] s t := by
  have exec_eq : exec (.run n) s = .next (((runSet n 1 goesOn s).onMs n (fun m => { m with startDue := true })).answer .done) := by
    show Host.Outcome.next (s.command ..) = _
    rw [command_taken accepts, runEff_rests off (.inl rests) sound, outside, if_neg Bool.false_ne_true]
  have noted : regsKept [R.MSn_CTL n, R.MSn_STAT n] (runSet n 1 goesOn s) ((runSet n 1 goesOn s).onMs n (fun m => { m with startDue := true })) :=
    regsKept_onMs _
  have moved := (onMs_moves (a1 := n) (a2 := fun m => { m with startDue := true })).on (runSet_moves (n := n) (s := s) 1 goesOn) rfl
  refine ⟨_, exec_eq, ?_, ?_, ?_, bus_answer _, regsKept_answer ((regsKept_runSet 1 goesOn).trans noted) _,
    onlyParts_answer (moved.frame (by decide)) (by simp) _⟩
  · rw [ms_answer, ms_onMs_same]
  · rw [get_answer, get_onMs, get_runSet_run (by decide)]
  · rw [seqState, get_answer, get_onMs, ← seqState, seqState_runSet, rests]

/-- The halt of a sequencer at a safe point that has not begun to act (R245). -/
theorem runStop_safe (accepts : s.accepts (R.MSn_CTL n) = true) (on : s.on (F.MSn_CTL_RUN n) = true) (runs : seqRuns s n = true)
    (safe : mw (seqWord s n) 141 141 = 1) (fresh : (s.ms n).acted = 0) :
    ∃ t : State, exec (.runStop n) s = .next t ∧ seqState t n = Seq.halted ∧ t.get (F.MSn_CTL_RUN n) = 0 ∧
      t.get (F.MSn_STAT_PC n) = s.get (F.MSn_STAT_PC n) ∧ (t.ms n).cur = { (s.ms n).nxt with gate := 0 } ∧ t.bus = .done ∧
      onlyParts [.regs, .evr, .tly, .ccx, .lns, .mss, .rly, .reports, .sent, .freeN, .bus] s t := by
  have exec_eq : exec (.runStop n) s = .next ((haltSeq n Seq.halted false (runSet n 0 notDue s)).answer .done) := by
    show Host.Outcome.next (s.command ..) = _
    rw [command_taken accepts, runStopEff_runs on runs, if_pos ⟨safe, fresh⟩]
  obtain ⟨run, pc, -⟩ := steadyFields_mem n
  have moved : Moves 0x1C086B01 s (haltSeq n Seq.halted false (runSet n 0 notDue s)) := haltSeq_moves.on ((runSet_moves 0 notDue).wide rfl) rfl
  refine ⟨_, exec_eq, ?_, ?_, ?_, ?_, bus_answer _, onlyParts_answer (moved.frame (by decide)) (by simp) _⟩
  · rw [seqState, get_answer, ← seqState, seqState_haltSeq (by decide)]
  · rw [get_answer, get_haltSeq _ _ _ run, get_runSet_run (by decide)]
  · rw [get_answer, get_haltSeq _ _ _ pc, get_runSet_stat rfl (statFields_apart n).2.1]
  · rw [ms_answer, cur_haltSeq, ms_runSet]
    rfl

theorem runStop_noted (accepts : s.accepts (R.MSn_CTL n) = true) (on : s.on (F.MSn_CTL_RUN n) = true) (runs : seqRuns s n = true)
    (unsafePoint : mw (seqWord s n) 141 141 = 0) :
    ∃ t : State, exec (.runStop n) s = .next t ∧ (t.ms n).stopping = true ∧ seqState t n = seqState s n ∧ t.get (F.MSn_CTL_RUN n) = 0 ∧
      t.bus = .done ∧ regsKept [R.MSn_CTL n, R.MSn_STAT n] s t ∧ onlyParts [.regs, .mss, .bus] s t := by
  have exec_eq : exec (.runStop n) s = .next (((runSet n 0 notDue s).onMs n (fun m => { m with stopping := true })).answer .done) := by
    show Host.Outcome.next (s.command ..) = _
    rw [command_taken accepts, runStopEff_runs on runs, if_neg (by simp [unsafePoint])]
  have noted : regsKept [R.MSn_CTL n, R.MSn_STAT n] (runSet n 0 notDue s) ((runSet n 0 notDue s).onMs n (fun m => { m with stopping := true })) :=
    regsKept_onMs _
  have moved := (onMs_moves (a1 := n) (a2 := fun m => { m with stopping := true })).on (runSet_moves (n := n) (s := s) 0 notDue) rfl
  refine ⟨_, exec_eq, ?_, ?_, ?_, bus_answer _, regsKept_answer ((regsKept_runSet 0 notDue).trans noted) _,
    onlyParts_answer (moved.frame (by decide)) (by simp) _⟩
  · rw [ms_answer, ms_onMs_same]
  · rw [seqState, get_answer, get_onMs, ← seqState, seqState_runSet]
  · rw [get_answer, get_onMs, get_runSet_run (by decide)]

theorem resume_halted (accepts : s.accepts (R.MSn_CTL n) = true) (on : s.on (F.MSn_CTL_RUN n) = true) (halted : seqState s n = Seq.halted)
    (mode : seqMode s.mode = true) (sound : (s.ms n).storeErr = false) :
    ∃ t : State, exec (.sequencerResume n) s = .next t ∧ seqRuns t n = true ∧ t.get (F.MSn_STAT_PC n) = s.get (F.MSn_STAT_PC n) ∧
      (t.ms n).cur = (s.ms n).nextRegs ∧ (t.ms n).nxt = (s.ms n).nextRegs ∧ t.get (F.MSn_STAT_MASK n) = s.get (F.MSn_STAT_MASK n) ∧
      t.get (F.MSn_STAT_MODE_HALT n) = 0 ∧ t.bus = .done ∧ regsKept [R.MSn_STAT n] s t ∧ onlyParts [.regs, .mss, .bus] s t := by
  have exec_eq : exec (.sequencerResume n) s = .next ((resumedSeq n (s.put (F.MSn_STAT_MODE_HALT n) 0)).answer .done) := by
    show Host.Outcome.next (s.command ..) = _
    rw [command_taken accepts, resumeEff_halted on halted mode sound]
  obtain ⟨u, cleared⟩ : ∃ u, s.put (F.MSn_STAT_MODE_HALT n) 0 = u := ⟨_, rfl⟩
  have pc : u.get (F.MSn_STAT_PC n) = s.get (F.MSn_STAT_PC n) := by rw [← cleared, get_put_of_apart (statFields_apart n).2.1]
  have mask : u.get (F.MSn_STAT_MASK n) = s.get (F.MSn_STAT_MASK n) := by rw [← cleared, get_put_of_apart (statFields_apart n).2.2]
  have modeHalt : u.get (F.MSn_STAT_MODE_HALT n) = 0 := by rw [← cleared]; exact get_put_same (of_decide_eq_true rfl) 0
  have ms : u.ms n = s.ms n := by rw [← cleared, ms_put]
  have kept : regsKept [R.MSn_STAT n] s u := by rw [← cleared]; exact regsKept_put (f := F.MSn_STAT_MODE_HALT n) List.mem_cons_self 0
  have moved : Moves 0x4001 s u := by rw [← cleared]; exact put_moves.wide rfl
  have pcFits : u.get (F.MSn_STAT_PC n) < 2 ^ 12 := get_lt u _
  rw [cleared] at exec_eq
  obtain ⟨word, begun⟩ : ∃ w, beginWord n (u.get (F.MSn_STAT_PC n)) u = w := ⟨_, rfl⟩
  have went : resumedSeq n u = word.onMs n (fun m => { m with passBkpt := true }) := by rw [resumedSeq, begun]
  have passed : regsKept [R.MSn_STAT n] word (word.onMs n (fun m => { m with passBkpt := true })) := regsKept_onMs _
  rw [went] at exec_eq
  refine ⟨_, exec_eq, ?_, ?_, ?_, ?_, ?_, ?_, bus_answer _,
    regsKept_answer ((kept.trans (begun ▸ regsKept_beginWord _)).trans passed) _,
    onlyParts_answer ((onMs_moves.on ((begun ▸ beginWord_moves.on moved rfl)) rfl).frame (by decide)) (by simp) _⟩
  · rw [seqRuns_congr (s := word) (by rw [get_answer, get_onMs]), ← begun, seqRuns_beginWord]
  · rw [get_answer, get_onMs, ← begun, get_beginWord_pc pcFits, pc]
  · rw [ms_answer, ms_onMs_same, ← begun, (cur_beginWord _).1, ms]
  · rw [ms_answer, ms_onMs_same, ← begun, (cur_beginWord _).2, ms]
  · rw [get_answer, get_onMs, ← begun, (get_beginWord_flags _).1, mask]
  · rw [get_answer, get_onMs, ← begun, (get_beginWord_flags _).2, modeHalt]

/-! ### Traps (R242, R243) -/

theorem stat_notMem_trap (n : Lane) : R.MSn_STAT n ∉ [R.MSn_TRAP n] := by
  revert n
  decide

/-- An interrupt's bit among the seven of MSn_INT. -/
theorem get_intBit_cleared {b : Nat} (seven : b < 7) (t : State) :
    (t.put ((⟨R.MSn_INT n, 6, 0⟩ : Fld).bit b) 0).get ((⟨R.MSn_INT n, 6, 0⟩ : Fld).bit b) = 0 :=
  get_put_same (by simp [Fld.bit, Fld.width]; omega) 0

/-- What an interrupt begins: its handler, with the record of the trap in place and its bit cleared (R242). -/
theorem takeInt_spec {b ret : Nat} (seven : b < 7) (inStore : ret < 4096) :
    (takeInt n b ret s).get (F.MSn_STAT_PC n) = 2 ∧ (takeInt n b ret s).get (F.MSn_STAT_MASK n) = 1 ∧
      (takeInt n b ret s).get (F.MSn_TRAP_CAUSE n) = 0x10 + b ∧ (takeInt n b ret s).get (F.MSn_TRAP_PC n) = s.get (F.MSn_STAT_PC n) ∧
      (takeInt n b ret s).get (F.MSn_TRAP_RET n) = ret ∧ (takeInt n b ret s).get ((⟨R.MSn_INT n, 6, 0⟩ : Fld).bit b) = 0 ∧
      ((takeInt n b ret s).ms n).cur = (s.ms n).nextRegs ∧
      regsKept [R.MSn_STAT n, R.MSn_TRAP n, R.MSn_TRAP_LC n, R.MSn_TRAP_AUX n, R.MSn_INT n] s (takeInt n b ret s) := by
  obtain ⟨cause, trapPc, trapRet, -, -, -, recorded⟩ := recordTrap_spec (n := n) (s := s) (cause := 0x10 + b) (by omega) inStore
  rw [takeInt_eq]
  obtain ⟨taken, bit⟩ : ∃ u, (recordTrap n (0x10 + b) ret s).put ((⟨R.MSn_INT n, 6, 0⟩ : Fld).bit b) 0 = u := ⟨_, rfl⟩
  have int : regsKept [R.MSn_INT n] (recordTrap n (0x10 + b) ret s) taken := by
    rw [← bit]
    exact regsKept_put (f := (⟨R.MSn_INT n, 6, 0⟩ : Fld).bit b) List.mem_cons_self 0
  have cleared : taken.get ((⟨R.MSn_INT n, 6, 0⟩ : Fld).bit b) = 0 := by rw [← bit, get_intBit_cleared seven]
  have ms : taken.ms n = s.ms n := by rw [← bit, ms_put, ms_recordTrap]
  rw [bit]
  obtain ⟨pc, mask, cur, begun⟩ := handlerBegun_spec (n := n) (s := taken) (addr := 0x002) (by decide)
  have inRecord {f : Fld} (own : f.addr ∈ trapRegs n) : (handlerBegun n 0x002 taken).get f = (recordTrap n (0x10 + b) ret s).get f :=
    (get_handlerBegun_trap own 0x002).trans (int.get (trapRegs_kept n _ own).2)
  refine ⟨pc, mask, ?_, ?_, ?_, ?_, ?_, ?_⟩
  · rw [inRecord (by simp [trapRegs, F.MSn_TRAP_CAUSE]), cause]
  · rw [inRecord (by simp [trapRegs, F.MSn_TRAP_PC]), trapPc]
  · rw [inRecord (by simp [trapRegs, F.MSn_TRAP_RET]), trapRet]
  · rw [begun.get (seqRegs_apart n).1, cleared]
  · rw [cur, ms]
  · exact ((recorded.mono (by simp [trapRegs])).trans (int.mono (by simp))).trans (begun.mono (by simp))

section

variable (runs : seqRuns s n = true) (goes : (s.ms n).stopping = false) (unmarked : mw (seqWord s n) 32 32 = 0)

include runs goes unmarked

theorem exec_trap_faults {c : Nat} (fault : wordFault s n = some c) : exec (.trap n) s = .next (takeFault n c s) :=
  congrArg Host.Outcome.next (atWord_faults runs goes unmarked fault _)

theorem trap_fault {c : Nat} (fault : wordFault s n = some c) (unmasked : s.on (F.MSn_STAT_MASK n) = false) :
    ∃ t : State, exec (.trap n) s = .next t ∧ t.get (F.MSn_STAT_PC n) = 1 ∧ t.get (F.MSn_STAT_MASK n) = 1 ∧ t.get (F.MSn_TRAP_CAUSE n) = c ∧
      t.get (F.MSn_TRAP_PC n) = s.get (F.MSn_STAT_PC n) ∧ t.get (F.MSn_TRAP_RET n) = s.get (F.MSn_STAT_PC n) ∧
      t.get (F.MSn_TRAP_LC_LC0 n) = (s.ms n).cur.lc0.toNat ∧ t.get (F.MSn_TRAP_LC_LC1 n) = (s.ms n).cur.lc1.toNat ∧
      t.get (F.MSn_TRAP_AUX_PENDING n) = s.get ⟨R.MSn_INT n, 6, 0⟩ ∧ (t.ms n).cur = (givenUp (s.ms n)).nextRegs ∧
      t.get (F.MSn_CNT_FAULTS n) = min (s.get (F.MSn_CNT_FAULTS n) + 1) 255 ∧
      regsKept [R.MSn_STAT n, R.MSn_TRAP n, R.MSn_TRAP_LC n, R.MSn_TRAP_AUX n, R.MSn_CNT n] s t ∧ onlyParts [.regs, .mss] s t := by
  have exec_eq := exec_trap_faults runs goes unmarked fault
  rw [takeFault_unmasked unmasked] at exec_eq
  have pcFits : s.get (F.MSn_STAT_PC n) < 2 ^ 12 := get_lt s _
  obtain ⟨faults, ms, counted⟩ := faultCounted_spec (n := n) (s := s)
  obtain ⟨statApart, intApart, cntStat, cntTrap, -, -⟩ := trapRegs_apart n
  obtain ⟨cause, trapPc, ret, lc0, lc1, pending, recorded⟩ :=
    recordTrap_spec (n := n) (s := faultCounted n s) (wordFault_fits c fault) pcFits
  obtain ⟨pc, mask, cur, begun⟩ := handlerBegun_spec (n := n) (addr := 0x001)
    (s := recordTrap n c (s.get (F.MSn_STAT_PC n)) (faultCounted n s)) (by decide)
  have inRecord {f : Fld} (own : f.addr ∈ trapRegs n) := get_handlerBegun_trap (n := n)
    (s := recordTrap n c (s.get (F.MSn_STAT_PC n)) (faultCounted n s)) own 0x001
  have moved : Moves 0x4001 s (handlerBegun n 0x001 (recordTrap n c (s.get (F.MSn_STAT_PC n)) (faultCounted n s))) :=
    beginWord_moves.on (put_moves.on (recordTrap_moves.on (count_moves.on (onMs_moves.wide rfl) rfl) rfl) rfl) rfl
  refine ⟨_, exec_eq, pc, mask, ?_, ?_, ?_, ?_, ?_, ?_, ?_, ?_, ?_, moved.frame (by decide)⟩
  · rw [inRecord (by simp [trapRegs, F.MSn_TRAP_CAUSE]), cause]
  · rw [inRecord (by simp [trapRegs, F.MSn_TRAP_PC]), trapPc, counted.get statApart]
  · rw [inRecord (by simp [trapRegs, F.MSn_TRAP_RET]), ret]
  · rw [inRecord (by simp [trapRegs, F.MSn_TRAP_LC_LC0]), lc0, ms, givenUp]
  · rw [inRecord (by simp [trapRegs, F.MSn_TRAP_LC_LC1]), lc1, ms, givenUp]
  · rw [inRecord (by simp [trapRegs, F.MSn_TRAP_AUX_PENDING]), pending, counted.get intApart]
  · rw [cur, ms_recordTrap, ms]
  · rw [begun.get cntStat, recorded.get cntTrap, faults]
  · exact ((counted.mono (by simp)).trans (recorded.mono (by simp [trapRegs]))).trans (begun.mono (by simp))

theorem trap_fault_masked {c : Nat} (fault : wordFault s n = some c) (masked : s.on (F.MSn_STAT_MASK n) = true) :
    ∃ t : State, exec (.trap n) s = .next t ∧ seqState t n = Seq.faulted ∧ t.get (F.MSn_TRAP_CAUSE n) = 0x20 ∧
      t.get (F.MSn_STAT_PC n) = s.get (F.MSn_STAT_PC n) ∧ t.get (F.MSn_TRAP_RET n) = s.get (F.MSn_TRAP_RET n) ∧
      t.get (F.MSn_CNT_FAULTS n) = min (s.get (F.MSn_CNT_FAULTS n) + 1) 255 ∧
      onlyParts [.regs, .evr, .tly, .ccx, .lns, .mss, .rly, .reports, .sent, .freeN] s t := by
  have exec_eq := exec_trap_faults runs goes unmarked fault
  rw [takeFault_masked masked] at exec_eq
  obtain ⟨faults, -, counted⟩ := faultCounted_spec (n := n) (s := s)
  obtain ⟨cause, -, ret, recorded⟩ := recordHalt_spec (n := n) (s := faultCounted n s) (cause := 0x20) (by decide)
  obtain ⟨-, pcSteady, causeSteady, retSteady, faultsSteady, -⟩ := steadyFields_mem n
  obtain ⟨statCnt, -, -, -, trapCnt, cntTrap⟩ := trapRegs_apart n
  have moved : Moves 0x1C086B01 s (haltSeq n Seq.faulted false
      (msHwEvent n 0xF0 c (s.get (F.MSn_STAT_PC n)) (recordHalt n 0x20 (faultCounted n s)))) :=
    haltSeq_moves.on (msHwEvent_moves.on (recordHalt_moves.on (count_moves.on (onMs_moves.wide rfl) rfl) rfl) rfl) rfl
  refine ⟨_, exec_eq, seqState_haltSeq (by decide) _, ?_, ?_, ?_, ?_, moved.frame (by decide)⟩
  · rw [get_haltSeq_event _ _ _ _ _ _ causeSteady, cause]
  · rw [get_haltSeq_event _ _ _ _ _ _ pcSteady, recorded.get (stat_notMem_trap n), counted.get statCnt]
  · rw [get_haltSeq_event _ _ _ _ _ _ retSteady, ret, counted.get trapCnt]
  · rw [get_haltSeq_event _ _ _ _ _ _ faultsSteady, recorded.get cntTrap, faults]

theorem trap_interrupt {b : Nat} (sound : wordFault s n = none) (waits : wordWaits s n = true) (safe : mw (seqWord s n) 141 141 = 1)
    (pending : pendingInt s n = some b) :
    ∃ t : State, exec (.trap n) s = .next t ∧ t.get (F.MSn_STAT_PC n) = 2 ∧ t.get (F.MSn_STAT_MASK n) = 1 ∧
      t.get (F.MSn_TRAP_CAUSE n) = 0x10 + b ∧ t.get (F.MSn_TRAP_RET n) = s.get (F.MSn_STAT_PC n) ∧
      t.get ((⟨R.MSn_INT n, 6, 0⟩ : Fld).bit b) = 0 ∧ (t.ms n).cur = (givenUp (s.ms n)).nextRegs ∧
      regsKept [R.MSn_STAT n, R.MSn_TRAP n, R.MSn_TRAP_LC n, R.MSn_TRAP_AUX n, R.MSn_INT n] s t ∧ onlyParts [.regs, .mss] s t := by
  have exec_eq : exec (.trap n) s = .next (takeInt n b (s.get (F.MSn_STAT_PC n)) ((s.put (F.MSn_STAT_STATE n) Seq.holding).onMs n givenUp)) :=
    congrArg Host.Outcome.next (atWord_interrupted runs goes unmarked sound waits safe pending _)
  have pcFits : s.get (F.MSn_STAT_PC n) < 2 ^ 12 := get_lt s _
  obtain ⟨pc, mask, cause, -, ret, bit, cur, kept⟩ := takeInt_spec (n := n) (b := b)
    (s := (s.put (F.MSn_STAT_STATE n) Seq.holding).onMs n givenUp) (pendingInt_lt pending) pcFits
  have shown : regsKept [R.MSn_STAT n] s (s.put (F.MSn_STAT_STATE n) Seq.holding) := regsKept_put (f := F.MSn_STAT_STATE n) List.mem_cons_self _
  refine ⟨_, exec_eq, pc, mask, cause, ret, bit, ?_, ((shown.trans (regsKept_onMs givenUp)).mono (by simp)).trans kept,
    (takeInt_moves.on (onMs_moves.on (put_moves.wide (m := 0x4001) rfl) rfl) rfl).frame (by decide)⟩
  rw [cur, ms_onMs_same, ms_put]

theorem trap_after_word {b : Nat} (sound : wordFault s n = none) (free : wordHolds s n = false) (safe : mw (seqWord s n) 141 141 = 1)
    (pending : pendingInt s n = some b) : exec (.trap n) s = .next (finishWord n (s.put (F.MSn_STAT_STATE n) Seq.running)) := by
  have exec_eq : exec (.trap n) s = .next (atWord n true s (fun s' =>
      if (pendingInt s' n).isSome && mw (seqWord s' n) 141 141 == 1 then finishWord n s' else s)) := rfl
  rw [exec_eq, atWord_ready (wordReady_of_free runs goes unmarked sound free), pendingInt_putState, seqWord_putState, pending, safe]
  rfl

end

/-! ### Forced halts and holds (R232, R245, R246) -/

/-- A forced halt records itself and is counted. -/
theorem exec_forcedHalt (runs : seqRuns s n = true) (due : seqMode s.mode = false ∨ (s.ms n).stopping = true) :
    exec (.forcedHalt n) s = .next (haltSeq n Seq.halted
      ((msHwEvent n 0xF2 (s.get (F.MSn_STAT_PC n)) 0 ((recordHalt n 0x22 s).count (F.MSn_CNT_FORCED n))).on (F.MSn_CTL_RUN n))
      (msHwEvent n 0xF2 (s.get (F.MSn_STAT_PC n)) 0 ((recordHalt n 0x22 s).count (F.MSn_CNT_FORCED n)))) := by
  have taken : (seqRuns s n && (!seqMode s.mode || (s.ms n).stopping)) = true := by rcases due with h | h <;> simp [runs, h]
  show execForcedHalt n s = _
  rw [execForcedHalt, if_pos taken]

/-- A forced halt writes neither RUN nor the mode before it halts. -/
theorem run_mode_notMem (n : Lane) : R.MSn_CTL n ∉ [R.MSn_TRAP n, R.MSn_CNT n] ∧ R.GLB_MODE ∉ [R.MSn_TRAP n, R.MSn_CNT n] := by
  revert n
  decide

theorem forcedHalt_halts (runs : seqRuns s n = true) (due : seqMode s.mode = false ∨ (s.ms n).stopping = true) :
    ∃ t : State, exec (.forcedHalt n) s = .next t ∧ seqState t n = Seq.halted ∧ t.get (F.MSn_TRAP_CAUSE n) = 0x22 ∧
      t.get (F.MSn_STAT_PC n) = s.get (F.MSn_STAT_PC n) ∧ t.get (F.MSn_CNT_FORCED n) = min (s.get (F.MSn_CNT_FORCED n) + 1) 255 ∧
      (s.on (F.MSn_CTL_RUN n) = true → seqMode s.mode = false → t.get (F.MSn_STAT_MODE_HALT n) = 1) ∧
      onlyParts [.regs, .evr, .tly, .ccx, .lns, .mss, .rly, .reports, .sent, .freeN] s t := by
  obtain ⟨cause, -, -, recorded⟩ := recordHalt_spec (n := n) (s := s) (cause := 0x22) (by decide)
  have counted : regsKept [R.MSn_CNT n] (recordHalt n 0x22 s) ((recordHalt n 0x22 s).count (F.MSn_CNT_FORCED n)) :=
    regsKept_count _ (F.MSn_CNT_FORCED n) 1
  have forced : ((recordHalt n 0x22 s).count (F.MSn_CNT_FORCED n)).get (F.MSn_CNT_FORCED n) =
      min ((recordHalt n 0x22 s).get (F.MSn_CNT_FORCED n) + 1) 255 := get_count (of_decide_eq_true rfl) 1
  have written : Moves 0x1 s ((recordHalt n 0x22 s).count (F.MSn_CNT_FORCED n)) := count_moves.on recordHalt_moves rfl
  have both := (recorded.mono (k := [R.MSn_TRAP n, R.MSn_CNT n]) (by simp)).trans (counted.mono (by simp))
  have exec_eq := exec_forcedHalt runs due
  obtain ⟨u, rec⟩ : ∃ u, (recordHalt n 0x22 s).count (F.MSn_CNT_FORCED n) = u := ⟨_, rfl⟩
  rw [rec] at exec_eq counted forced written both
  obtain ⟨statCnt, -, -, -, trapCnt, cntTrap⟩ := trapRegs_apart n
  obtain ⟨ctl, glb⟩ := run_mode_notMem n
  obtain ⟨runSteady, pcSteady, causeSteady, -, -, forcedSteady⟩ := steadyFields_mem n
  refine ⟨_, exec_eq, seqState_haltSeq (by decide) _, ?_, ?_, ?_, fun on outside => ?_,
    (haltSeq_moves.on (msHwEvent_moves.on (written.wide (m := 0x1C086B01) rfl) rfl) rfl).frame (by decide)⟩
  · rw [get_haltSeq_event _ _ _ _ _ _ causeSteady, counted.get trapCnt, cause]
  · rw [get_haltSeq_event _ _ _ _ _ _ pcSteady, counted.get statCnt, recorded.get (stat_notMem_trap n)]
  · rw [get_haltSeq_event _ _ _ _ _ _ forcedSteady, forced, recorded.get cntTrap]
  · have run : (msHwEvent n 0xF2 (s.get (F.MSn_STAT_PC n)) 0 u).on (F.MSn_CTL_RUN n) = true := by
      rw [State.on, gateKept_msHwEvent.get _ runSteady, both.get ctl]
      exact on
    have mode : (msHwEvent n 0xF2 (s.get (F.MSn_STAT_PC n)) 0 u).mode = s.mode :=
      (gateKept_msHwEvent.get _ (mode_mem_steadyFields n)).trans (mode_congr (both _ glb))
    rw [run, modeHalt_haltSeq _ (by rw [mode, outside])]

/-- The end of a cycle hold sets a word that is ready running (R232). -/
theorem timerHoldEnd_cycles (timed : mw (seqWord s n) 140 139 = 2) (runs : seqRuns s n = true) (holding : (s.ms n).holding = true)
    (ready : (s.onMs n (fun m => { m with holding := false })).wordReady n = true) :
    exec (.timerHoldEnd n) s =
      .next ((s.onMs n (fun m => { m with holding := false })).put (F.MSn_STAT_STATE n) Seq.running) := by
  show execTimerHoldEnd n s = _
  simp only [execTimerHoldEnd, timed, runs, holding, atWord_ready ready]
  rfl

/-- A baud target is not reached without lock (R232). -/
theorem timerHoldEnd_unlocked (timed : mw (seqWord s n) 140 139 = 1) (unlocked : s.on (F.LNn_STAT_PLL_LOCK n) = false) :
    exec (.timerHoldEnd n) s = .next s := by
  show execTimerHoldEnd n s = _
  simp only [execTimerHoldEnd, timed, unlocked, Bool.not_false, Bool.or_true, if_true]

end

/-- Settles O19, a lemma for each row of the chapter that starts, traps or halts a sequencer. -/
theorem sequencerRunsTrapsAndHalts : Obligations.SequencerRunsTrapsAndHalts :=
  ⟨fun _ _ accepts off rests sound mode => run_running accepts off rests sound mode,
    fun _ _ accepts off rests sound outside => run_waiting accepts off rests sound outside,
    fun _ _ accepts on runs safe fresh => runStop_safe accepts on runs safe fresh,
    fun _ _ accepts on runs unsafePoint => runStop_noted accepts on runs unsafePoint,
    fun _ _ accepts on halted mode sound => resume_halted accepts on halted mode sound,
    fun n _ accepts => congrArg Host.Outcome.next (command_taken accepts 0x40 (msInt n 6)),
    fun _ _ _ runs goes unmarked fault unmasked => trap_fault runs goes unmarked fault unmasked,
    fun _ _ _ runs goes unmarked sound waits safe pending => trap_interrupt runs goes unmarked sound waits safe pending,
    fun _ _ _ runs goes unmarked fault masked => trap_fault_masked runs goes unmarked fault masked,
    fun _ _ runs due => forcedHalt_halts runs due,
    fun _ _ timed runs holding ready => timerHoldEnd_cycles timed runs holding ready,
    fun _ _ timed unlocked => timerHoldEnd_unlocked timed unlocked,
    fun _ _ _ runs goes unmarked sound free safe pending => trap_after_word runs goes unmarked sound free safe pending⟩

end Sys2Proof.Machine

end

section

/-! PROOF. O22 (R236 to R239): the fields CMD, EVT, ALU and CLK of a word that executes, each acting on the sequencer's next word. -/

namespace Sys2Proof.Machine

section

variable {n : Lane} {s : State}

/-! ### A field acts -/

/-- A field's mark on the word. -/
def marked (bit : Nat) (m : Ms) : Ms := { m with acted := m.acted ||| (1 <<< bit) }

/-- The word RUNNING with a field marked as having acted. -/
def acting (n : Lane) (bit : Nat) (s : State) : State := (s.put (F.MSn_STAT_STATE n) Seq.running).onMs n (marked bit)

theorem ms_acting (bit : Nat) : (acting n bit s).ms n = marked bit (s.ms n) := by rw [acting, ms_onMs_same, ms_put]

theorem regsKept_acting (bit : Nat) : regsKept [R.MSn_STAT n] s (acting n bit s) := by
  have shown : regsKept [R.MSn_STAT n] s (s.put (F.MSn_STAT_STATE n) Seq.running) := regsKept_put (f := F.MSn_STAT_STATE n) List.mem_cons_self _
  exact shown.trans (regsKept_onMs (marked bit))

theorem acting_moves (bit : Nat) : Moves 0x4001 s (acting n bit s) := onMs_moves.on (put_moves.wide (m := 0x4001) rfl) rfl

theorem seqWord_acting (bit : Nat) : seqWord (acting n bit s) n = seqWord s n := by
  refine seqWord_congr ?_ (by rw [ms_acting]; rfl)
  rw [acting, get_onMs, get_put_apart (of_decide_eq_true rfl)]

theorem powerFail_notMem (n : Lane) : F.GLB_MODE_COND_POWER_FAIL.addr ∉ [R.MSn_STAT n] := by
  revert n
  decide

/-- The row of a field that the word carries, unless an open under POWER_FAIL mutes the word or the field has acted. -/
theorem fieldRow_once {has : BitVec 176 → Bool} {bit : Nat} (ready : s.wordReady n = true) (carried : has (seqWord s n) = true)
    (heard : mutedWord s n = false) (fresh : (s.ms n).acted.getLsbD bit = false) {eff f : State → State}
    (eff_eq : eff (s.put (F.MSn_STAT_STATE n) Seq.running) = once n bit true f (s.put (F.MSn_STAT_STATE n) Seq.running)) :
    fieldRow n has eff s = f (acting n bit s) := by
  have shown : regsKept [R.MSn_STAT n] s (s.put (F.MSn_STAT_STATE n) Seq.running) := regsKept_put (f := F.MSn_STAT_STATE n) List.mem_cons_self _
  have unmuted : mutedWord (s.put (F.MSn_STAT_STATE n) Seq.running) n = false := by
    rw [mutedWord, State.on, seqWord_putState, shown.get (powerFail_notMem n), ← State.on, ← mutedWord, heard]
  rw [fieldRow, seqRuns_of_wordReady ready, carried, Bool.and_self, if_pos rfl, atWord_ready ready, eff_eq, once, ms_put, fresh, unmuted]
  rfl

/-! ### CMD (R236) -/

/-- The first entry popped: OP and W0 to W4 copied; an XFER stands as the transfer, its sectors not counted yet. -/
def popped (e : BitVec 128) (rest : List (BitVec 128)) (m : Ms) : Ms :=
  let w := fun i => e.extractLsb' (8 + 24 * i) 24
  { m with
    cmd := rest
    nxt := { m.nxt with
      op := e.extractLsb' 0 8
      w := ((((m.nxt.w.set 0 (w 0)).set 1 (w 1)).set 2 (w 2)).set 3 (w 3)).set 4 (w 4)
      xfer := if e.extractLsb' 0 8 = 0x01 then #v[w 0, w 1, w 2, w 3, w 4] else m.nxt.xfer
      sectNo := if e.extractLsb' 0 8 = 0x01 then 0 else m.nxt.sectNo } }

theorem w_popped (e : BitVec 128) (rest : List (BitVec 128)) (m : Ms) :
    ((popped e rest m).nxt.w.get 0, (popped e rest m).nxt.w.get 1, (popped e rest m).nxt.w.get 2) =
        (e.extractLsb' 8 24, e.extractLsb' 32 24, e.extractLsb' 56 24) ∧
      ((popped e rest m).nxt.w.get 3, (popped e rest m).nxt.w.get 4) = (e.extractLsb' 80 24, e.extractLsb' 104 24) := by
  simp [popped, Vector.get_eq_getElem]

/-- A POP of an entry: an ALU write of the word that has acted stands over the copy, and a CAL command starts a calibration. -/
def popEff (n : Lane) (measured : List CalMeasure) (e : BitVec 128) (rest : List (BitVec 128)) (s : State) : State :=
  let w := fun i => e.extractLsb' (8 + 24 * i) 24
  let s := s.onMs n (popped e rest)
  let s := if (s.ms n).acted.getLsbD 6 then aluWrite n s else s
  if e.extractLsb' 0 8 = 0x05 then calibrate n ((w 0).toNat % 8) measured s else s

theorem calRange_notMem (n : Lane) : ∀ f ∈ steadyFields n, f.addr ∉ [R.LNn_HL_STAT n] := by
  revert n
  decide

/-- A calibration writes tables and events, nothing of the next word. -/
theorem gateKept_calibrate {h : Nat} {measured : List CalMeasure} : GateKept n s (calibrate n h measured s) := by
  have event {c : Prop} [Decidable c] {code hd w5 w6 : Nat} {t : State} :
      GateKept n t (if c then msPost n code hd w5 w6 (t.flag (F.LNn_HL_STAT_CAL_RANGE n)) else t) :=
    .ite (((regsKept_flag t _).gateKept (calRange_notMem n) (flag_moves.parts 14 rfl)).trans gateKept_msPost) .refl
  unfold calibrate
  exact .ite .refl (.trans (.forEach (fun z t => .forEach (fun r u => tablePut_moves.gateKept rfl rfl)))
    (.forEach (fun m t => (event.trans event).trans event)))

section

variable (ready : s.wordReady n = true) (heard : mutedWord s n = false) (fresh : (s.ms n).acted.getLsbD 4 = false) {e : BitVec 128}
  {rest : List (BitVec 128)} (queued : (s.ms n).cmd = e :: rest)

include ready heard fresh queued

theorem exec_pop (measured : List CalMeasure) (pop : mw (seqWord s n) 82 80 = 1) :
    exec (.pop n measured) s = .next (popEff n measured e rest (acting n 4 s)) := by
  show execPop n measured s = _
  have queue : ((acting n 4 s).ms n).cmd = e :: rest := by rw [ms_acting]; exact queued
  rw [execPop, fieldRow_once ready (by simp [pop]) heard fresh (by rw [cmdEff, seqWord_putState, pop]; rfl)]
  simp only [queue]
  rw [if_neg (by decide)]
  rfl

theorem exec_discard (discard : mw (seqWord s n) 82 80 = 2) :
    exec (.discard n) s = .next ((acting n 4 s).onMs n (fun m => { m with cmd := rest })) := by
  show execDiscard n s = _
  have queue : ((acting n 4 s).ms n).cmd = e :: rest := by rw [ms_acting]; exact queued
  rw [execDiscard, fieldRow_once ready (by simp [discard]) heard fresh (by rw [cmdEff, seqWord_putState, discard]; rfl)]
  simp only [queue]
  rfl

theorem pop_spec (measured : List CalMeasure) (pop : mw (seqWord s n) 82 80 = 1) (noAlu : (s.ms n).acted.getLsbD 6 = false) :
    ∃ t : State, exec (.pop n measured) s = .next t ∧
      (∃ gate events, t.ms n = { popped e rest (marked 4 (s.ms n)) with
        nxt := { (popped e rest (s.ms n)).nxt with gate := gate }, events := events }) ∧
      (e.extractLsb' 0 8 ≠ 0x05 → regsKept [R.MSn_STAT n] s t ∧ onlyParts [.regs, .mss] s t) := by
  have ms : ((acting n 4 s).onMs n (popped e rest)).ms n = popped e rest (marked 4 (s.ms n)) := by rw [ms_onMs_same, ms_acting]
  have kept : (((acting n 4 s).onMs n (popped e rest)).ms n).acted.getLsbD 6 = false := by
    rw [ms, popped, marked, BitVec.getLsbD_or, noAlu]
    rfl
  have moved : Moves 0x4001 s ((acting n 4 s).onMs n (popped e rest)) := onMs_moves.on (acting_moves 4) rfl
  have exec_eq := exec_pop ready heard fresh queued measured pop
  rw [popEff, kept, if_neg Bool.false_ne_true] at exec_eq
  refine ⟨_, exec_eq, ?_, fun noCal => ?_⟩
  · split
    · obtain ⟨gate, events, calibrated⟩ := (gateKept_calibrate (s := (acting n 4 s).onMs n (popped e rest))).ms
      exact ⟨gate, events, by rw [calibrated, ms]; rfl⟩
    · exact ⟨(s.ms n).nxt.gate, (s.ms n).events, ms⟩
  · rw [if_neg noCal]
    exact ⟨(regsKept_acting 4).trans (regsKept_onMs _), moved.frame (by decide)⟩

theorem discard_spec (discard : mw (seqWord s n) 82 80 = 2) :
    ∃ t : State, exec (.discard n) s = .next t ∧ (t.ms n).cmd = rest ∧ (t.ms n).nxt = (s.ms n).nxt ∧ regsKept [R.MSn_STAT n] s t ∧
      onlyParts [.regs, .mss] s t := by
  refine ⟨_, exec_discard ready heard fresh queued discard, ?_, ?_, (regsKept_acting 4).trans (regsKept_onMs _),
    (onMs_moves.on (acting_moves 4) rfl).frame (by decide)⟩
  · rw [ms_onMs_same]
  · rw [ms_onMs_same, ms_acting]
    rfl

end

/-! ### EVT (R237) -/

theorem slips_notMem (n : Lane) : R.MSn_CNT n ∉ [R.TLY_STAT] ∧ R.MSn_CNT n ∉ [R.MSn_STAT n] := by
  revert n
  decide

section

variable (ready : s.wordReady n = true) (heard : mutedWord s n = false)

include ready heard

theorem exec_eventPost (carried : mw (seqWord s n) 79 72 ≠ 0) (fresh : (s.ms n).acted.getLsbD 5 = false) :
    exec (.eventPost n) s = .next (
      let r := (s.ms n).cur
      let u := msPost n (mw (seqWord s n) 79 72) r.hd.toNat (r.w.get 5).toNat (r.w.get 6).toNat (acting n 5 s)
      if mw (seqWord s n) 79 72 = 7 then (u.count (F.MSn_CNT_SLIPS n)).tally (28 + n) else u) := by
  show execEventPost n s = _
  have on : (mw (seqWord s n) 79 72 != 0) = true := by simpa using carried
  rw [execEventPost, fieldRow_once ready (by simpa using carried) heard fresh (by rw [evtEff, seqWord_putState, on, ms_put])]

theorem eventPost_spec (carried : mw (seqWord s n) 79 72 ≠ 0) (fresh : (s.ms n).acted.getLsbD 5 = false) :
    ∃ t : State, exec (.eventPost n) s = .next t ∧
      (t.ms n).events = (s.ms n).events ++
        [msEvent (mw (seqWord s n) 79 72) n (s.ms n).cur.hd.toNat ((s.ms n).cur.w.get 5).toNat ((s.ms n).cur.w.get 6).toNat] ∧
      t.get (F.MSn_CNT_SLIPS n) =
        (if mw (seqWord s n) 79 72 = 7 then min (s.get (F.MSn_CNT_SLIPS n) + 1) 65535 else s.get (F.MSn_CNT_SLIPS n)) ∧
      (t.ms n).nxt = (s.ms n).nxt ∧ onlyParts [.regs, .evr, .tly, .ccx, .mss] s t := by
  refine ⟨_, exec_eventPost ready heard carried fresh, ?_⟩
  obtain ⟨u, post⟩ : ∃ u, msPost n (mw (seqWord s n) 79 72) (s.ms n).cur.hd.toNat ((s.ms n).cur.w.get 5).toNat ((s.ms n).cur.w.get 6).toNat
    (acting n 5 s) = u := ⟨_, rfl⟩
  have ms : u.ms n = { marked 5 (s.ms n) with events := (s.ms n).events ++
      [msEvent (mw (seqWord s n) 79 72) n (s.ms n).cur.hd.toNat ((s.ms n).cur.w.get 5).toNat ((s.ms n).cur.w.get 6).toNat] } := by
    rw [← post, ms_msPost, ms_acting]
    rfl
  have regs : regsKept [R.MSn_STAT n] s u := by
    rw [← post]
    exact (regsKept_acting 5).trans ((msPost_moves.regsKept (l := []) rfl).mono (List.nil_subset _))
  have moved : Moves 0x4B01 s u := by
    rw [← post]
    exact msPost_moves.on ((acting_moves 5).wide rfl) rfl
  have slips : u.get (F.MSn_CNT_SLIPS n) = s.get (F.MSn_CNT_SLIPS n) := regs.get (slips_notMem n).2
  simp only [post]
  split
  · have counted : (u.count (F.MSn_CNT_SLIPS n)).get (F.MSn_CNT_SLIPS n) = min (u.get (F.MSn_CNT_SLIPS n) + 1) 65535 :=
      get_count (of_decide_eq_true rfl) 1
    have tallied := regsKept_tally (tlyAtOnce_laneCounts n).1 1 (u.count (F.MSn_CNT_SLIPS n))
    have same : ((u.count (F.MSn_CNT_SLIPS n)).tally (28 + n)).ms n = u.ms n :=
      congrArg (·.get n) ((tally_moves.on (count_moves.wide (m := 0xB01) rfl) rfl).parts 14 rfl)
    refine ⟨?_, ?_, ?_, (tally_moves.on (count_moves.on moved rfl) rfl).frame (by decide)⟩
    · rw [same, ms]
    · rw [tallied.get (slips_notMem n).1, counted, slips]
    · rw [same, ms]
      rfl
  · exact ⟨by rw [ms], slips, by rw [ms]; rfl, moved.frame (by decide)⟩

end

/-! ### The ALU (R238) -/

/-- The lane fields that operation 11 reads, by their number. -/
theorem laneField_eq {k : Nat} (small : k < 8) : laneField s n k = BitVec.ofNat 24
    ([s.get (F.SVn_LAP_WEDGE n), s.get (F.SVn_LAP_LAP n), s.get (F.LNn_STAT_ZONE n), s.get (F.LNn_WR_STAT_INH_NOW n),
      s.get (F.LNn_VFY_STAT_PENDING n), s.get (F.MSn_TRAP_CAUSE n), 0, 0].getD k 0) := by
  interval_cases k <;> rfl

theorem laneFields_notMem (n : Lane) : ∀ f ∈ [F.SVn_LAP_WEDGE n, F.SVn_LAP_LAP n, F.LNn_STAT_ZONE n, F.LNn_WR_STAT_INH_NOW n,
    F.LNn_VFY_STAT_PENDING n, F.MSn_TRAP_CAUSE n], f.addr ∉ [R.MSn_STAT n] := by
  revert n
  decide

theorem laneField_acting {k : Nat} (small : k < 8) (bit : Nat) : laneField (acting n bit s) n k = laneField s n k := by
  have kept {f : Fld} (mem : f ∈ [F.SVn_LAP_WEDGE n, F.SVn_LAP_LAP n, F.LNn_STAT_ZONE n, F.LNn_WR_STAT_INH_NOW n, F.LNn_VFY_STAT_PENDING n,
      F.MSn_TRAP_CAUSE n]) : (acting n bit s).get f = s.get f := (regsKept_acting bit).get (laneFields_notMem n f mem)
  rw [laneField_eq small, laneField_eq small, kept (by simp), kept (by simp), kept (by simp), kept (by simp), kept (by simp), kept (by simp)]

/-- The results of R238: operations 9 and 10 write no register, 3 to 10 set the flags. -/
theorem aluResult_of_mem {op : Nat} {v dst src imm : BitVec 24}
    (mem : (op, v) ∈ [(1, src), (2, imm), (3, dst + src), (4, dst + imm), (5, dst - src), (6, dst &&& imm), (7, dst ||| imm),
      (8, src >>> (imm.toNat % 32)), (9, dst - src), (10, dst - imm), (11, laneField s n (imm.toNat % 8))]) :
    aluResult s n op dst src imm = (v, op != 9 && op != 10, decide (3 ≤ op ∧ op ≤ 10)) := by
  simp only [List.mem_cons, List.not_mem_nil, or_false, Prod.mk.injEq] at mem
  rcases mem with ⟨rfl, rfl⟩ | ⟨rfl, rfl⟩ | ⟨rfl, rfl⟩ | ⟨rfl, rfl⟩ | ⟨rfl, rfl⟩ | ⟨rfl, rfl⟩ | ⟨rfl, rfl⟩ | ⟨rfl, rfl⟩ |
    ⟨rfl, rfl⟩ | ⟨rfl, rfl⟩ | ⟨rfl, rfl⟩ <;> rfl

/-- The next word's registers after an ALU result. -/
def aluNext (d : Nat) (v : BitVec 24) (writes flags : Bool) (c : SeqRegs) : SeqRegs :=
  let x := if writes then setSeqReg c d v else c
  if flags then { x with zf := v == 0, nf := v.getLsbD 23 } else x

theorem setSeqReg_flags (c : SeqRegs) (d : Nat) (v : BitVec 24) : (setSeqReg c d v).zf = c.zf ∧ (setSeqReg c d v).nf = c.nf := by
  unfold setSeqReg
  split
  · exact ⟨rfl, rfl⟩
  · split <;> exact ⟨rfl, rfl⟩

theorem seqReg_setSeqReg {d : Nat} (word : d < 12) (c : SeqRegs) (v : BitVec 24) : seqReg (setSeqReg c d v) d = v := by
  rw [seqReg, setSeqReg, dif_pos word, dif_pos word]
  exact Vector.getElem_set_self word

/-- Flags set by a result leave every register. -/
theorem aluNext_regs (d : Nat) (v : BitVec 24) (writes flags : Bool) (c : SeqRegs) :
    (aluNext d v writes flags c).w = (if writes then setSeqReg c d v else c).w ∧
      (∀ k, seqReg (aluNext d v writes flags c) k = seqReg (if writes then setSeqReg c d v else c) k) ∧
      (aluNext d v writes flags c).hd = (if writes then setSeqReg c d v else c).hd ∧
      (aluNext d v writes flags c).wcmp = (if writes then setSeqReg c d v else c).wcmp ∧
      (aluNext d v writes flags c).lc0 = (if writes then setSeqReg c d v else c).lc0 ∧
      (aluNext d v writes flags c).lc1 = (if writes then setSeqReg c d v else c).lc1 := by
  cases flags <;> exact ⟨rfl, fun _ => rfl, rfl, rfl, rfl, rfl⟩

theorem aluNext_flags (d : Nat) (v : BitVec 24) (writes flags : Bool) (c : SeqRegs) :
    (aluNext d v writes flags c).zf = (if flags then v == 0 else c.zf) ∧
      (aluNext d v writes flags c).nf = (if flags then v.getLsbD 23 else c.nf) := by
  obtain ⟨zf, nf⟩ := setSeqReg_flags c d v
  cases flags <;> cases writes
  · exact ⟨rfl, rfl⟩
  · exact ⟨zf, nf⟩
  · exact ⟨rfl, rfl⟩
  · exact ⟨rfl, rfl⟩

theorem aluWrite_eq {v : BitVec 24} {writes flags : Bool} (result : aluResult s n (mw (seqWord s n) 71 68)
    (seqReg (s.ms n).cur (mw (seqWord s n) 67 64)) (seqReg (s.ms n).cur (mw (seqWord s n) 63 60)) (BitVec.ofNat 24 (mw (seqWord s n) 59 36)) =
      (v, writes, flags)) :
    aluWrite n s = s.onMs n (fun m => { m with nxt := aluNext (mw (seqWord s n) 67 64) v writes flags m.nxt }) := by
  rw [aluWrite, result]
  rfl

/-- The word's ALU operation: its result stands in the next word's registers. -/
theorem alu_spec {op : Nat} {v dst src imm : BitVec 24} (ready : s.wordReady n = true) (heard : mutedWord s n = false)
    (carried : mw (seqWord s n) 71 68 = op) (operates : 1 ≤ op) (fresh : (s.ms n).acted.getLsbD 6 = false)
    (dst_eq : dst = seqReg (s.ms n).cur (mw (seqWord s n) 67 64)) (src_eq : src = seqReg (s.ms n).cur (mw (seqWord s n) 63 60))
    (imm_eq : imm = BitVec.ofNat 24 (mw (seqWord s n) 59 36))
    (mem : (op, v) ∈ [(1, src), (2, imm), (3, dst + src), (4, dst + imm), (5, dst - src), (6, dst &&& imm), (7, dst ||| imm),
      (8, src >>> (imm.toNat % 32)), (9, dst - src), (10, dst - imm), (11, laneField s n (imm.toNat % 8))]) :
    ∃ t : State, exec (.alu n) s = .next t ∧
      (t.ms n).nxt = aluNext (mw (seqWord s n) 67 64) v (op != 9 && op != 10) (decide (3 ≤ op ∧ op ≤ 10)) (s.ms n).nxt ∧
      (t.ms n).cur = (s.ms n).cur ∧ regsKept [R.MSn_STAT n] s t ∧ onlyParts [.regs, .mss] s t := by
  have on : (mw (seqWord s n) 71 68 != 0) = true := by
    rw [carried]
    exact bne_iff_ne.mpr (by omega)
  have exec_eq : exec (.alu n) s = .next (aluWrite n (acting n 6 s)) := by
    show execAlu n s = _
    rw [execAlu, fieldRow_once ready (by simpa using on) heard fresh (by rw [aluEff, seqWord_putState, on])]
  have result : aluResult (acting n 6 s) n (mw (seqWord (acting n 6 s) n) 71 68)
      (seqReg ((acting n 6 s).ms n).cur (mw (seqWord (acting n 6 s) n) 67 64))
      (seqReg ((acting n 6 s).ms n).cur (mw (seqWord (acting n 6 s) n) 63 60))
      (BitVec.ofNat 24 (mw (seqWord (acting n 6 s) n) 59 36)) = (v, op != 9 && op != 10, decide (3 ≤ op ∧ op ≤ 10)) := by
    rw [seqWord_acting, ms_acting, carried]
    show aluResult _ n op (seqReg (s.ms n).cur _) (seqReg (s.ms n).cur _) _ = _
    rw [← dst_eq, ← src_eq, ← imm_eq]
    exact aluResult_of_mem (by rw [laneField_acting (Nat.mod_lt _ (by decide))]; exact mem)
  rw [aluWrite_eq result, seqWord_acting] at exec_eq
  refine ⟨_, exec_eq, ?_, ?_, (regsKept_acting 6).trans (regsKept_onMs _), (onMs_moves.on (acting_moves 6) rfl).frame (by decide)⟩
  · rw [ms_onMs_same, ms_acting]
    rfl
  · rw [ms_onMs_same, ms_acting]
    rfl

/-! ### CLK (R85, R239) -/

/-- The fields of a lane's clock are apart from each other and from the sequencer's state. -/
theorem clockFields_apart (n : Lane) : (F.LNn_STAT_ZONE n).apart (F.LNn_BPW_BPW n) = true ∧ (F.LNn_BPW_BPW n).apart (F.LNn_BAUD_M_M n) = true ∧
    (F.LNn_STAT_ZONE n).apart (F.LNn_BAUD_M_M n) = true ∧ (F.LNn_BAUD_M_M n).apart (F.LNn_BPW_BPW n) = true ∧
    (F.LNn_STAT_PLL_LOCK n).apart (F.LNn_BPW_BPW n) = true ∧ (F.LNn_BAUD_M_M n).apart (F.LNn_STAT_ZONE n) = true ∧
    (F.LNn_STAT_PLL_LOCK n).apart (F.LNn_STAT_ZONE n) = true ∧ R.LNn_BAUD_M n ∉ [R.MSn_STAT n] ∧ R.SPM_STAT ∉ [R.MSn_STAT n] := by
  revert n
  decide

/-- A zone's format loaded: the synthesiser loses lock where its divider changes. -/
theorem loadZone_spec {zone : Nat} {f : ZoneFmt} (fmt : zoneFmt s zone = some f) (small : zone < 32) :
    (loadZone n zone s).get (F.LNn_BPW_BPW n) = f.bpw % 2 ^ (F.LNn_BPW_BPW n).width ∧
      (loadZone n zone s).get (F.LNn_STAT_ZONE n) = zone ∧
      (baudM f.bpw (cadence s) ≠ s.get (F.LNn_BAUD_M_M n) → (loadZone n zone s).get (F.LNn_STAT_PLL_LOCK n) = 0) := by
  obtain ⟨zoneBpw, bpwBaud, zoneBaud, baudBpw, lockBpw, baudZone, lockZone, -, -⟩ := clockFields_apart n
  obtain ⟨shown, loaded⟩ : ∃ u, (s.put (F.LNn_BPW_BPW n) f.bpw).put (F.LNn_STAT_ZONE n) zone = u := ⟨_, rfl⟩
  have bpw : shown.get (F.LNn_BPW_BPW n) = f.bpw % 2 ^ (F.LNn_BPW_BPW n).width := by
    rw [← loaded, get_put_of_apart zoneBpw, get_put_same (of_decide_eq_true rfl)]
  have zoneShown : shown.get (F.LNn_STAT_ZONE n) = zone := by
    rw [← loaded, get_put_same (of_decide_eq_true rfl)]
    exact Nat.mod_eq_of_lt small
  have baud : shown.get (F.LNn_BAUD_M_M n) = s.get (F.LNn_BAUD_M_M n) := by
    rw [← loaded, get_put_of_apart zoneBaud, get_put_of_apart bpwBaud]
  have eq : loadZone n zone s = if baudM f.bpw (cadence s) = s.get (F.LNn_BAUD_M_M n) then shown else
      inhibit n 3 ((shown.put (F.LNn_BAUD_M_M n) (baudM f.bpw (cadence s))).put (F.LNn_STAT_PLL_LOCK n) 0) := by
    rw [loadZone, fmt]
    simp only [loaded, baud]
  rw [eq]
  split
  next same => exact ⟨bpw, zoneShown, fun other => absurd same other⟩
  next =>
    have inhibited := (gateKept_inhibit (n := n) (src := 3)
      (s := (shown.put (F.LNn_BAUD_M_M n) (baudM f.bpw (cadence s))).put (F.LNn_STAT_PLL_LOCK n) 0)).get
    refine ⟨?_, ?_, fun _ => ?_⟩
    · rw [inhibited _ (by simp [steadyFields]), get_put_of_apart lockBpw, get_put_of_apart baudBpw, bpw]
    · rw [inhibited _ (by simp [steadyFields]), get_put_of_apart lockZone, get_put_of_apart baudZone, zoneShown]
    · rw [inhibited _ (by simp [steadyFields]), get_put_same (of_decide_eq_true rfl)]
      exact Nat.zero_mod _

theorem clkZone_spec {f : ZoneFmt} (ready : s.wordReady n = true) (heard : mutedWord s n = false) (carried : mw (seqWord s n) 35 33 = 1)
    (fresh : (s.ms n).acted.getLsbD 7 = false) (fmt : zoneFmt s (bitsOf ((s.ms n).cur.w.get 2).toNat 4 0) = some f)
    (inside : (zonesOf s 0).map (fun z => decide (bitsOf ((s.ms n).cur.w.get 2).toNat 4 0 < z.z)) = some true) :
    ∃ t : State, exec (.clkZone n) s = .next t ∧
      t.get (F.LNn_BPW_BPW n) = f.bpw % 2 ^ (F.LNn_BPW_BPW n).width ∧
      t.get (F.LNn_STAT_ZONE n) = bitsOf ((s.ms n).cur.w.get 2).toNat 4 0 ∧
      onlyParts [.regs, .evr, .tly, .ccx, .lns, .mss, .rly, .reports, .sent, .freeN] s t ∧
      (baudM f.bpw (cadence s) ≠ s.get (F.LNn_BAUD_M_M n) → t.get (F.LNn_STAT_PLL_LOCK n) = 0) := by
  have small : bitsOf ((s.ms n).cur.w.get 2).toNat 4 0 < 32 := bitsOf_lt _ 4 0
  obtain ⟨zone, zone_eq⟩ : ∃ z, bitsOf ((s.ms n).cur.w.get 2).toNat 4 0 = z := ⟨_, rfl⟩
  rw [zone_eq] at fmt inside small ⊢
  have cfg : (acting n 7 s).cfg = s.cfg := (acting_moves 7).parts 5 rfl
  have zones : zonesOf (acting n 7 s) 0 = zonesOf s 0 := by rw [zonesOf, cfg, ← zonesOf]
  have actingFmt : zoneFmt (acting n 7 s) zone = some f := by rw [zoneFmt, zones, ← zoneFmt, fmt]
  obtain ⟨zs, zs_eq, below⟩ : ∃ zs, zonesOf s 0 = some zs ∧ zone < zs.z := by simpa using inside
  have last : min (zs.z - 1) zone = zone := by omega
  have exec_eq : exec (.clkZone n) s = .next (loadZone n zone (acting n 7 s)) := by
    show execClkZone n s = _
    have on : decide (mw (seqWord s n) 35 33 = 1) = true := decide_eq_true carried
    rw [execClkZone, fieldRow_once ready on heard fresh (by rw [clkEff, seqWord_putState, on])]
    have w2 : ((acting n 7 s).ms n).cur = (s.ms n).cur := by rw [ms_acting]; rfl
    simp only [zones, zs_eq, w2, zone_eq, last]
  obtain ⟨-, -, -, -, -, -, -, baudReg, spm⟩ := clockFields_apart n
  have cad : cadence (acting n 7 s) = cadence s := (regsKept_acting 7).get (f := F.SPM_STAT_CAD) spm
  have baud : (acting n 7 s).get (F.LNn_BAUD_M_M n) = s.get (F.LNn_BAUD_M_M n) := (regsKept_acting 7).get baudReg
  obtain ⟨bpw, shown, unlocked⟩ := loadZone_spec (n := n) actingFmt small
  rw [cad, baud] at unlocked
  exact ⟨_, exec_eq, bpw, shown, (loadZone_moves.on ((acting_moves 7).wide (m := 0x1C086B01) rfl) rfl).frame (by decide), unlocked⟩

end

/-- Settles O22, a lemma for each field of the microword. -/
theorem microwordDataFieldsAct : Obligations.MicrowordDataFieldsAct := by
  refine ⟨?_, fun n e rest s ready heard discard fresh queued => discard_spec ready heard fresh queued discard,
    fun n s ready heard carried fresh => eventPost_spec ready heard carried fresh, ?_,
    fun n f s ready heard carried fresh fmt inside => clkZone_spec ready heard carried fresh fmt inside⟩
  · intro n measured e rest s ready heard pop fresh noAlu queued
    obtain ⟨t, exec_eq, ⟨gate, events, ms⟩, frame⟩ := pop_spec ready heard fresh queued measured pop noAlu
    refine ⟨t, exec_eq, ?_⟩
    obtain ⟨low, high⟩ := w_popped e rest (s.ms n)
    rw [ms]
    exact ⟨rfl, rfl, low, high, rfl, rfl, rfl, frame⟩
  · intro n op dst src imm v s ready heard carried operates fresh dst_eq src_eq imm_eq mem
    obtain ⟨t, exec_eq, nxt, cur, kept, parts⟩ := alu_spec ready heard carried operates fresh dst_eq src_eq imm_eq
      (by rw [laneField_eq (Nat.mod_lt _ (by decide))]; exact mem)
    obtain ⟨zf, nf⟩ := aluNext_flags (mw (seqWord s n) 67 64) v (op != 9 && op != 10) (decide (3 ≤ op ∧ op ≤ 10)) (s.ms n).nxt
    obtain ⟨w, reg, hd, wcmp, lc0, lc1⟩ :=
      aluNext_regs (mw (seqWord s n) 67 64) v (op != 9 && op != 10) (decide (3 ≤ op ∧ op ≤ 10)) (s.ms n).nxt
    have writes (a : op ≠ 9) (b : op ≠ 10) : (op != 9 && op != 10) = true := by simp [a, b]
    rw [← nxt] at zf nf w reg hd wcmp lc0 lc1
    refine ⟨t, exec_eq, fun flags => ?_, fun noFlags => ?_, fun compare => ?_, fun a b word => ?_, fun a b at12 => ?_, fun a b at13 => ?_,
      fun a b at14 => ?_, fun a b at15 => ?_, cur, kept, parts⟩
    · exact ⟨by rw [zf, if_pos (decide_eq_true flags)], by rw [nf, if_pos (decide_eq_true flags)]⟩
    · exact ⟨by rw [zf, if_neg (by simpa using noFlags)], by rw [nf, if_neg (by simpa using noFlags)]⟩
    · rw [w, if_neg (by rcases compare with rfl | rfl <;> decide)]
    · rw [reg, writes a b, if_pos rfl, seqReg_setSeqReg word]
    · rw [hd, writes a b, if_pos rfl, at12]
      rfl
    · rw [wcmp, writes a b, if_pos rfl, at13]
      rfl
    · rw [lc0, writes a b, if_pos rfl, at14]
      rfl
    · rw [lc1, writes a b, if_pos rfl, at15]
      rfl

end Sys2Proof.Machine

end

section

/-! PROOF. What the fields of a word leave as it was while it executes (R228, R233 to R239): the address of the word, the recorded return address, the
mode, and of the sequencer the registers that the word began with, the conditions it sampled, the store and the next word's stack. -/

namespace Sys2Proof.Machine

/-- The fields that choose the next address and that no field of a word writes. -/
def wordFields (n : Lane) : List Fld := [F.GLB_MODE_MODE, F.MSn_STAT_PC n, F.MSn_TRAP_RET n]

/-- The registers that the fields of a word write beside those of a gate's close. -/
def fieldRegs (n : Lane) : List Nat :=
  [R.LNn_STAT n, R.LNn_BPW n, R.LNn_BAUD_M n, R.LNn_VFY_STAT n, R.LDP_TOK_STAT, R.LDP_ENG_BUSY, R.MSn_CNT n, R.MSn_INT n, R.TLY_STAT]

theorem wordFields_apart (n : Lane) : ∀ f ∈ wordFields n, f ∈ steadyFields n ∧ f.addr ∉ fieldRegs n := by
  revert n
  decide

/-- What a word's next address depends on is as it was. -/
structure WordKept (n : Lane) (s t : State) : Prop where
  get : ∀ f ∈ wordFields n, t.get f = s.get f
  cur : (t.ms n).cur = (s.ms n).cur
  conds : (t.ms n).conds = (s.ms n).conds
  store : (t.ms n).store = (s.ms n).store
  stack : (t.ms n).nxt.stack = (s.ms n).nxt.stack

section

variable {n : Lane} {s t u : State}

theorem WordKept.refl : WordKept n s s := ⟨fun _ _ => rfl, rfl, rfl, rfl, rfl⟩

theorem WordKept.trans (h : WordKept n s t) (g : WordKept n t u) : WordKept n s u :=
  ⟨fun f hf => (g.get f hf).trans (h.get f hf), g.cur.trans h.cur, g.conds.trans h.conds, g.store.trans h.store, g.stack.trans h.stack⟩

theorem GateKept.wordKept (h : GateKept n s t) : WordKept n s t := by
  obtain ⟨gate, events, eq⟩ := h.ms
  refine ⟨fun f hf => h.get f (wordFields_apart n f hf).1, ?_, ?_, ?_, ?_⟩ <;> rw [eq]

/-- An operation that keeps the sequencers and writes registers that are the fields' own. -/
theorem WordKept.of_regs {l : List Nat} (kept : regsKept l s t) (own : l ⊆ fieldRegs n) (mss : t.mss = s.mss) : WordKept n s t := by
  have ms : t.ms n = s.ms n := congrArg (·.get n) mss
  exact ⟨fun f hf => kept.get (fun h => (wordFields_apart n f hf).2 (own h)), by rw [ms], by rw [ms], by rw [ms], by rw [ms]⟩

/-- An operation whose parts are neither the registers nor the sequencers. -/
theorem Moves.wordKept {m : Nat} (h : Moves m s t) (regs : m.testBit 0 = false) (mss : m.testBit 14 = false) : WordKept n s t :=
  .of_regs (Moves.regsKept (l := []) h regs) (List.nil_subset _) (h.parts 14 mss)

theorem WordKept.put {f : Fld} (own : f.addr ∈ fieldRegs n) (v : Nat) : WordKept n s (s.put f v) :=
  .of_regs (l := [f.addr]) (regsKept_put List.mem_cons_self v) (by simpa using own) (put_moves.parts 14 rfl)

/-- A change of the sequencer beside the word's registers, conditions, store and stack. -/
theorem WordKept.onMs {f : Ms → Ms} (cur : (f (s.ms n)).cur = (s.ms n).cur) (conds : (f (s.ms n)).conds = (s.ms n).conds)
    (store : (f (s.ms n)).store = (s.ms n).store) (stack : (f (s.ms n)).nxt.stack = (s.ms n).nxt.stack) : WordKept n s (s.onMs n f) := by
  refine ⟨fun _ _ => get_onMs .., ?_, ?_, ?_, ?_⟩ <;> rw [ms_onMs_same] <;> assumption

theorem WordKept.ite {c : Prop} [Decidable c] (h : WordKept n s t) (g : WordKept n s u) : WordKept n s (if c then t else u) := by
  split
  · exact h
  · exact g

theorem WordKept.once {bit : Nat} {on : Bool} {f : State → State} (h : ∀ v, WordKept n v (f v)) : WordKept n s (once n bit on f s) :=
  .ite ((WordKept.onMs rfl rfl rfl rfl).trans (h _)) .refl

theorem wordKept_onLn {f : Ln → Ln} : WordKept n s (s.onLn n f) := onLn_moves.wordKept rfl rfl

/-! ### SECT, OVR and PB_OP (R133, R234, R235) -/

theorem wordKept_sectEff : WordKept n s (sectEff n s) :=
  .once (fun _ => .ite wordKept_onLn (wordKept_onLn.trans (.onMs rfl rfl rfl rfl)))

theorem wordKept_ovrEff : WordKept n s (ovrEff n s) := .once (fun _ => wordKept_onLn)

theorem wordKept_pbEff : WordKept n s (pbEff n s) := by
  unfold pbEff
  refine .once (fun v => ?_)
  dsimp only
  split <;> exact wordKept_onLn

/-! ### GATE (R233) -/

theorem wordKept_showTokens : WordKept n s (showTokens s) :=
  .of_regs (regsKept_showTokens s) (by simp [fieldRegs]) (showTokens_moves.parts 14 rfl)

theorem wordKept_closeNowEff : WordKept n s (closeNowEff n s) := by
  unfold closeNowEff
  refine .ite ?read (.ite (gateKept_squelchGate.wordKept.trans wordKept_onLn) .refl)
  case read =>
    have dropped : WordKept n s (match (s.ln n).gate with | some d => showTokens (dropRead n d s) | none => s) := by
      split
      · exact (dropRead_moves.wordKept rfl rfl).trans wordKept_showTokens
      · exact .refl
    exact ((dropped.trans gateKept_closeRead.wordKept).trans wordKept_onLn).trans
      (GateKept.refl.tally (tlyAtOnce_laneCounts n).1 1).wordKept

/-- A gate shown in LNn_STAT with its zone and head. -/
theorem wordKept_gateShown {f : Fld} (own : f.addr = R.LNn_STAT n) (zone head : Nat) :
    WordKept n s (((s.put f 1).put (F.LNn_STAT_ZONE n) zone).put (F.LNn_STAT_HEAD n) head) :=
  ((WordKept.put (by simp [own, fieldRegs]) 1).trans (WordKept.put (f := F.LNn_STAT_ZONE n) (by simp [F.LNn_STAT_ZONE, fieldRegs]) zone)).trans
    (WordKept.put (f := F.LNn_STAT_HEAD n) (by simp [F.LNn_STAT_HEAD, fieldRegs]) head)

/-- A read gate whose sync mark is heard. -/
theorem wordKept_openReadGate {d : Sector} : WordKept n s (openReadGate n d syncHeard s) := by
  have heard : markFound syncHeard = true := by decide +kernel
  have latched : WordKept n s (latchSettings n s) := latchSettings_moves.wordKept rfl rfl
  have restarted {c : Bool} {v : State} : WordKept n v (if c then restartGroup n d v else v) := .ite (restartGroup_moves.wordKept rfl rfl) .refl
  unfold openReadGate
  simp only [heard, if_true]
  exact (((latched.trans restarted).trans (wordKept_gateShown rfl ..)).trans wordKept_onLn).trans (.onMs rfl rfl rfl rfl)

theorem wordKept_openInhibited : WordKept n s (openInhibited n s) := by
  unfold openInhibited
  dsimp only
  split
  · exact (gateKept_msInt.trans gateKept_squelchGate).wordKept
  · exact .refl

theorem wordKept_driveGate {d : Sector} {info : List Byte} {parity : List Dword} : WordKept n s (driveGate n d info parity s) := by
  unfold driveGate
  exact (((emit_moves.wordKept rfl rfl).trans (wordKept_gateShown rfl ..)).trans wordKept_onLn).trans (.onMs rfl rfl rfl rfl)

theorem wordKept_chooseVerify {d : Sector} : WordKept n s (chooseVerify n d s).2 := by
  have counted {c : Nat} {v : State} : WordKept n v (v.put (F.LNn_VFY_STAT_SAMPLE_CNT n) c) :=
    .put (by simp [F.LNn_VFY_STAT_SAMPLE_CNT, fieldRegs]) c
  unfold chooseVerify
  dsimp only
  split
  · exact .refl
  · split
    · exact .refl
    · split <;> exact counted
    · exact .refl

theorem wordKept_openWriteGate {d : Sector} {parity : Nat} : WordKept n s (openWriteGate n d parity s) := by
  unfold openWriteGate
  exact ((((wordKept_chooseVerify.trans (latchSettings_moves.wordKept rfl rfl)).trans wordKept_driveGate).trans wordKept_onLn).trans
    gateKept_showPending.wordKept).trans wordKept_openInhibited

theorem wordKept_writeSector {d : Sector} : WordKept n s (writeSector n d s) := by
  unfold writeSector
  dsimp only
  split
  · exact (setLn_moves.wordKept rfl rfl).trans wordKept_openWriteGate
  · exact wordKept_openWriteGate

theorem wordKept_continueWrite {d : Sector} : WordKept n s (continueWrite n d s) := by
  unfold continueWrite
  exact ((latchSettings_moves.wordKept rfl rfl).trans wordKept_driveGate).trans wordKept_openInhibited

theorem wordKept_gateEff : WordKept n s (gateEff n syncHeard s) := by
  unfold gateEff
  refine .once (fun v => .ite wordKept_closeNowEff ?_)
  split
  · exact .ite wordKept_openReadGate wordKept_continueWrite
  · exact .trans (.ite wordKept_openReadGate (wordKept_onLn.trans wordKept_writeSector)) (gateOpened_moves.wordKept rfl rfl)
  · exact .refl

/-! ### CMD, EVT, the ALU and CLK (R236 to R239) -/

theorem stack_setSeqReg (c : SeqRegs) (d : Nat) (v : BitVec 24) : (setSeqReg c d v).stack = c.stack := by
  unfold setSeqReg
  split
  · rfl
  · split <;> rfl

theorem stack_aluNext (d : Nat) (v : BitVec 24) (writes flags : Bool) (c : SeqRegs) : (aluNext d v writes flags c).stack = c.stack := by
  cases flags <;> cases writes
  · rfl
  · exact stack_setSeqReg c d v
  · rfl
  · exact stack_setSeqReg c d v

theorem wordKept_aluWrite : WordKept n s (aluWrite n s) := by
  rcases result : aluResult s n (mw (seqWord s n) 71 68) (seqReg (s.ms n).cur (mw (seqWord s n) 67 64))
    (seqReg (s.ms n).cur (mw (seqWord s n) 63 60)) (BitVec.ofNat 24 (mw (seqWord s n) 59 36)) with ⟨v, writes, flags⟩
  rw [aluWrite_eq result]
  exact .onMs rfl rfl rfl (stack_aluNext ..)

theorem wordKept_popEff {e : BitVec 128} {rest : List (BitVec 128)} {measured : List CalMeasure} : WordKept n s (popEff n measured e rest s) := by
  have copied : WordKept n s (s.onMs n (popped e rest)) := .onMs rfl rfl rfl rfl
  have over_ : WordKept n s (if ((s.onMs n (popped e rest)).ms n).acted.getLsbD 6 then aluWrite n (s.onMs n (popped e rest))
      else s.onMs n (popped e rest)) := copied.trans (.ite wordKept_aluWrite .refl)
  exact over_.trans (.ite gateKept_calibrate.wordKept .refl)

theorem wordKept_cmdEff : WordKept n s (cmdEff n [] s) := by
  unfold cmdEff
  refine .once (fun v => ?_)
  dsimp only
  split
  · exact .refl
  · exact .ite (.onMs rfl rfl rfl rfl) wordKept_popEff

theorem wordKept_evtEff : WordKept n s (evtEff n s) := by
  unfold evtEff
  refine .once (fun v => ?_)
  have posted {code hd w5 w6 : Nat} {v : State} : WordKept n v (msPost n code hd w5 w6 v) := gateKept_msPost.wordKept
  have slipped {v : State} : WordKept n v (v.count (F.MSn_CNT_SLIPS n)) := .put (by simp [F.MSn_CNT_SLIPS, fieldRegs]) _
  exact .ite ((posted.trans slipped).trans (GateKept.refl.tally (tlyAtOnce_laneCounts n).1 1).wordKept) posted

theorem wordKept_clkEff : WordKept n s (clkEff n s) := by
  have shown {zone bpw : Nat} {v : State} : WordKept n v ((v.put (F.LNn_BPW_BPW n) bpw).put (F.LNn_STAT_ZONE n) zone) :=
    (WordKept.put (f := F.LNn_BPW_BPW n) (by simp [F.LNn_BPW_BPW, fieldRegs]) bpw).trans
      (WordKept.put (f := F.LNn_STAT_ZONE n) (by simp [F.LNn_STAT_ZONE, fieldRegs]) zone)
  have relocked {m : Nat} {v : State} : WordKept n v ((v.put (F.LNn_BAUD_M_M n) m).put (F.LNn_STAT_PLL_LOCK n) 0) :=
    (WordKept.put (f := F.LNn_BAUD_M_M n) (by simp [F.LNn_BAUD_M_M, fieldRegs]) m).trans
      (WordKept.put (f := F.LNn_STAT_PLL_LOCK n) (by simp [F.LNn_STAT_PLL_LOCK, fieldRegs]) 0)
  unfold clkEff
  refine .once (fun v => ?_)
  exact shown.trans (.ite .refl (relocked.trans gateKept_inhibit.wordKept))

theorem wordKept_fieldsEff : WordKept n s (fieldsEff n syncHeard s) :=
  ((((((wordKept_sectEff.trans wordKept_ovrEff).trans wordKept_gateEff).trans wordKept_pbEff).trans wordKept_cmdEff).trans
    wordKept_evtEff).trans (.once (fun _ => wordKept_aluWrite))).trans wordKept_clkEff

end

end Sys2Proof.Machine

end

section

/-! PROOF. O20 (R224, R229, R230): the word's fields act, its sequence operation chooses the next address, and the next word begins there. -/

namespace Sys2Proof.Machine

section

variable {n : Lane} {s t : State}

theorem mw_lt (w : BitVec 176) (hi lo : Nat) : mw w hi lo < 2 ^ (hi + 1 - lo) := BitVec.isLt _

/-! ### The word executes -/

/-- The lane after the fields of the word have acted. -/
def executed (n : Lane) (s : State) : State := fieldsEff n syncHeard (s.put (F.MSn_STAT_STATE n) Seq.running)

theorem state_apart (n : Lane) : ∀ f ∈ wordFields n, (F.MSn_STAT_STATE n).apart f = true := by
  revert n
  decide

theorem wordKept_executed : WordKept n s (executed n s) := by
  have shown : WordKept n s (s.put (F.MSn_STAT_STATE n) Seq.running) :=
    ⟨fun f hf => get_put_of_apart (state_apart n f hf) .., by rw [ms_put], by rw [ms_put], by rw [ms_put], by rw [ms_put]⟩
  exact shown.trans wordKept_fieldsEff

theorem wordFields_mem (n : Lane) : F.GLB_MODE_MODE ∈ wordFields n ∧ F.MSn_STAT_PC n ∈ wordFields n ∧ F.MSn_TRAP_RET n ∈ wordFields n := by
  simp [wordFields]

theorem seqWord_executed : seqWord (executed n s) n = seqWord s n :=
  seqWord_congr (wordKept_executed.get _ (wordFields_mem n).2.1) wordKept_executed.store

/-- What follows the fields of a word: the next address chosen, and an interrupt pending at a safe point taken (R242). -/
theorem finishWord_eq : finishWord n (s.put (F.MSn_STAT_STATE n) Seq.running) = match chooseNext n (executed n s) with
    | none => haltSeq n Seq.halted true (executed n s)
    | some (next, t) => match pendingInt s n with
      | some b => if mw (seqWord s n) 141 141 = 1 then takeInt n b next t else beginWord n next t
      | none => beginWord n next t := by
  rw [finishWord, pendingInt_putState, seqWord_putState, executed] <;> rfl

section

variable {ops : List Nat} (ready : s.wordReady n = true) (carried : mw (seqWord s n) 144 142 ∈ ops)

include ready carried

theorem seqRow_ready : seqRow n ops true s = finishWord n (s.put (F.MSn_STAT_STATE n) Seq.running) := by
  simp [seqRow, seqRuns_of_wordReady ready, carried, atWord_ready ready]

theorem seqRow_halts (last : chooseNext n (executed n s) = none) : seqRow n ops true s = haltSeq n Seq.halted true (executed n s) := by
  rw [seqRow_ready ready carried, finishWord_eq, last]

theorem seqRow_next {next : Nat} (calm : pendingInt s n = none) (chosen : chooseNext n (executed n s) = some (next, t)) :
    seqRow n ops true s = beginWord n next t := by
  rw [seqRow_ready ready carried, finishWord_eq, chosen, calm]

theorem seqRow_interrupted {b next : Nat} (pending : pendingInt s n = some b) (safe : mw (seqWord s n) 141 141 = 1)
    (chosen : chooseNext n (executed n s) = some (next, t)) : seqRow n ops true s = takeInt n b next t := by
  rw [seqRow_ready ready carried, finishWord_eq, chosen, pending]
  exact if_pos safe

end

/-! ### The next address (R229, R230) -/

/-- The condition of a BRANCH, inverted by CPOL, or none. -/
def branchTaken (w : BitVec 176) (conds : BitVec 16) : Bool := mw w 140 139 = 3 || (conds.getLsbD (mw w 151 146) != (mw w 145 145 = 1))

theorem branchTaken_iff (w : BitVec 176) (conds : BitVec 16) : branchTaken w conds = true ↔
    mw w 140 139 = 3 ∨ conds.getLsbD (mw w 151 146) ≠ (mw w 145 145 == 1) := by
  simp [branchTaken, beq_eq_decide]

/-- NEXT pushed. -/
def pushed (a : Nat) (m : Ms) : Ms := { m with nxt := { m.nxt with stack := BitVec.ofNat 12 a :: m.nxt.stack } }

/-- The return address popped. -/
def unstacked (rest : List (BitVec 12)) (m : Ms) : Ms := { m with nxt := { m.nxt with stack := rest } }

theorem chooseNext_branch (op : mw (seqWord s n) 144 142 = 0) : chooseNext n s =
    some (if branchTaken (seqWord s n) (s.ms n).conds then mw (seqWord s n) 163 152 else mw (seqWord s n) 175 164, s) := by
  rw [chooseNext, op]
  rfl

theorem chooseNext_loop {k : Nat} (two : k < 2) (op : mw (seqWord s n) 144 142 = k + 1) :
    chooseNext n s = some (loopNext n k (seqWord s n) s) := by
  rw [chooseNext, op]
  interval_cases k <;> rfl

/-- Landed data leave the loop counters and the stack. -/
theorem nextRegs_counters (m : Ms) : m.nextRegs.lc0 = m.nxt.lc0 ∧ m.nextRegs.lc1 = m.nxt.lc1 ∧ m.nextRegs.stack = m.nxt.stack := by
  unfold Ms.nextRegs
  split <;> exact ⟨rfl, rfl, rfl⟩

/-- A loop counter by its number. -/
def counter (k : Nat) (c : SeqRegs) : BitVec 16 := if k = 0 then c.lc0 else c.lc1

/-- A loop counter written. -/
def counterSet (k x : Nat) (m : Ms) : Ms :=
  { m with nxt := if k = 0 then { m.nxt with lc0 := BitVec.ofNat 16 x } else { m.nxt with lc1 := BitVec.ofNat 16 x } }

/-- The counter of a LOOPk word written, unless the word's ALU writes it (R228). -/
def loopSet (n : Lane) (k : Nat) (w : BitVec 176) (x : Nat) (s : State) : State := if aluWritesLc w k then s else s.onMs n (counterSet k x)

/-- A counter above 1 goes down and branches; one that ends, a value of 0 taken as 1, is 0 and goes to NEXT (R230). -/
theorem loopNext_eq (k : Nat) (w : BitVec 176) : loopNext n k w s =
    if 1 < (counter k (s.ms n).cur).toNat then (mw w 163 152, loopSet n k w ((counter k (s.ms n).cur).toNat - 1) s)
    else (mw w 175 164, loopSet n k w 0 s) := by
  obtain ⟨v, value⟩ : ∃ v, (counter k (s.ms n).cur).toNat = v := ⟨_, rfl⟩
  have read : (if k = 0 then (s.ms n).cur.lc0.toNat else (s.ms n).cur.lc1.toNat) = v := by
    rw [← value, counter]
    split <;> rfl
  rw [loopNext, value, read]
  by_cases more : 1 < v
  · have most : max 1 v = v := by omega
    rw [most, if_pos more, if_pos more]
    rfl
  · rw [if_neg more, if_neg (by omega)]
    rfl

theorem loopSet_kept {k : Nat} {w : BitVec 176} (kept : aluWritesLc w k = false) (x : Nat) : loopSet n k w x s = s.onMs n (counterSet k x) := by
  rw [loopSet, kept, if_neg Bool.false_ne_true]

theorem counter_counterSet (k x : Nat) (m : Ms) : counter k (counterSet k x m).nextRegs = BitVec.ofNat 16 x := by
  obtain ⟨lc0, lc1, -⟩ := nextRegs_counters (counterSet k x m)
  rw [counter, lc0, lc1, counterSet]
  split <;> rfl

theorem chooseNext_call (op : mw (seqWord s n) 144 142 = 3) :
    chooseNext n s = some (mw (seqWord s n) 163 152, s.onMs n (pushed (mw (seqWord s n) 175 164))) := by
  rw [chooseNext, op]
  rfl

theorem chooseNext_return {a : BitVec 12} {rest : List (BitVec 12)} (op : mw (seqWord s n) 144 142 = 4) (stacked : (s.ms n).cur.stack = a :: rest) :
    chooseNext n s = some (a.toNat, s.onMs n (unstacked rest)) := by
  rw [chooseNext, op]
  simp only [stacked]
  rfl

theorem chooseNext_dispatch (op : mw (seqWord s n) 144 142 = 5) :
    chooseNext n s = some ((mw (seqWord s n) 163 152 + (s.ms n).cur.op.toNat) % 4096, s) := by
  rw [chooseNext, op]
  rfl

theorem chooseNext_halt (op : mw (seqWord s n) 144 142 = 6) : chooseNext n s = none := by
  rw [chooseNext, op]
  rfl

theorem chooseNext_trapReturn (op : mw (seqWord s n) 144 142 = 7) :
    chooseNext n s = some (s.get (F.MSn_TRAP_RET n), s.put (F.MSn_STAT_MASK n) 0) := by
  rw [chooseNext, op]
  rfl

/-! ### The rows -/

section

variable (ready : s.wordReady n = true)

include ready

section

variable (calm : pendingInt s n = none)

include calm

theorem branch_next (op : mw (seqWord s n) 144 142 = 0) :
    ∃ t : State, exec (.branch n true) s = .next t ∧
      t.get (F.MSn_STAT_PC n) = (if mw (seqWord s n) 140 139 = 3 ∨ (s.ms n).conds.getLsbD (mw (seqWord s n) 151 146) ≠
          (mw (seqWord s n) 145 145 == 1) then mw (seqWord s n) 163 152 else mw (seqWord s n) 175 164) ∧
      (t.ms n).cur = (t.ms n).nxt := by
  have chosen := chooseNext_branch (s := executed n s) (n := n) (by rw [seqWord_executed, op])
  rw [seqWord_executed, wordKept_executed.conds] at chosen
  refine ⟨_, congrArg Host.Outcome.next (seqRow_next ready (ops := [0]) (by simp [op]) calm chosen), ?_,
    by rw [(cur_beginWord _).1, (cur_beginWord _).2]⟩
  have fits : (if branchTaken (seqWord s n) (s.ms n).conds then mw (seqWord s n) 163 152 else mw (seqWord s n) 175 164) < 4096 := by
    split <;> exact mw_lt ..
  rw [get_beginWord_pc fits]
  simp only [branchTaken_iff]

theorem loop_next {k : Nat} (two : k < 2) (op : mw (seqWord s n) 144 142 = k + 1) (kept : aluWritesLc (seqWord s n) k = false) :
    ∃ t : State, exec (.loop n true) s = .next t ∧
      t.get (F.MSn_STAT_PC n) =
        (if 1 < (counter k (s.ms n).cur).toNat then mw (seqWord s n) 163 152 else mw (seqWord s n) 175 164) ∧
      counter k (t.ms n).cur = (if 1 < (counter k (s.ms n).cur).toNat then counter k (s.ms n).cur - 1 else 0) := by
  have chosen := chooseNext_loop (s := executed n s) (n := n) two (by rw [seqWord_executed, op])
  rw [seqWord_executed, loopNext_eq, loopSet_kept kept, loopSet_kept kept, wordKept_executed.cur] at chosen
  have carried : mw (seqWord s n) 144 142 ∈ [1, 2] := by
    rw [op]
    interval_cases k <;> decide
  split at chosen
  next more =>
    refine ⟨_, congrArg Host.Outcome.next (seqRow_next ready carried calm chosen), ?_, ?_⟩
    · rw [get_beginWord_pc (mw_lt ..), if_pos more]
    · rw [(cur_beginWord _).1, ms_onMs_same, counter_counterSet, if_pos more]
      exact BitVec.eq_of_toNat_eq (by bv_omega)
  next last =>
    refine ⟨_, congrArg Host.Outcome.next (seqRow_next ready carried calm chosen), ?_, ?_⟩
    · rw [get_beginWord_pc (mw_lt ..), if_neg last]
    · rw [(cur_beginWord _).1, ms_onMs_same, counter_counterSet, if_neg last]
      rfl

theorem call_next (op : mw (seqWord s n) 144 142 = 3) :
    ∃ t : State, exec (.call n true) s = .next t ∧ t.get (F.MSn_STAT_PC n) = mw (seqWord s n) 163 152 ∧
      (t.ms n).cur.stack = BitVec.ofNat 12 (mw (seqWord s n) 175 164) :: (s.ms n).nxt.stack := by
  have chosen := chooseNext_call (s := executed n s) (n := n) (by rw [seqWord_executed, op])
  rw [seqWord_executed] at chosen
  refine ⟨_, congrArg Host.Outcome.next (seqRow_next ready (ops := [3]) (by simp [op]) calm chosen), get_beginWord_pc (mw_lt ..), ?_⟩
  rw [(cur_beginWord _).1, (nextRegs_counters _).2.2, ms_onMs_same, pushed, wordKept_executed.stack]

theorem return_next {a : BitVec 12} {rest : List (BitVec 12)} (op : mw (seqWord s n) 144 142 = 4) (stacked : (s.ms n).cur.stack = a :: rest) :
    ∃ t : State, exec (.return_ n true) s = .next t ∧ t.get (F.MSn_STAT_PC n) = a.toNat ∧ (t.ms n).cur.stack = rest := by
  have chosen := chooseNext_return (s := executed n s) (n := n) (by rw [seqWord_executed, op]) (by rw [wordKept_executed.cur, stacked])
  refine ⟨_, congrArg Host.Outcome.next (seqRow_next ready (ops := [4]) (by simp [op]) calm chosen), get_beginWord_pc a.isLt, ?_⟩
  rw [(cur_beginWord _).1, (nextRegs_counters _).2.2, ms_onMs_same, unstacked]

theorem dispatch_next (op : mw (seqWord s n) 144 142 = 5) :
    ∃ t : State, exec (.dispatch n true) s = .next t ∧
      t.get (F.MSn_STAT_PC n) = (mw (seqWord s n) 163 152 + (s.ms n).cur.op.toNat) % 4096 := by
  have chosen := chooseNext_dispatch (s := executed n s) (n := n) (by rw [seqWord_executed, op])
  rw [seqWord_executed, wordKept_executed.cur] at chosen
  exact ⟨_, congrArg Host.Outcome.next (seqRow_next ready (ops := [5]) (by simp [op]) calm chosen),
    get_beginWord_pc (Nat.mod_lt _ (by decide))⟩

theorem trapReturn_next (op : mw (seqWord s n) 144 142 = 7) :
    ∃ t : State, exec (.trapReturn n true) s = .next t ∧ t.get (F.MSn_STAT_PC n) = s.get (F.MSn_TRAP_RET n) ∧
      t.get (F.MSn_STAT_MASK n) = 0 := by
  have chosen := chooseNext_trapReturn (s := executed n s) (n := n) (by rw [seqWord_executed, op])
  rw [wordKept_executed.get _ (wordFields_mem n).2.2] at chosen
  have fits : s.get (F.MSn_TRAP_RET n) < 2 ^ 12 := get_lt s _
  refine ⟨_, congrArg Host.Outcome.next (seqRow_next ready (ops := [7]) (by simp [op]) calm chosen), get_beginWord_pc fits, ?_⟩
  rw [(get_beginWord_flags _).1, get_put_same (of_decide_eq_true rfl)]
  exact Nat.zero_mod _

end

theorem halt_stops (op : mw (seqWord s n) 144 142 = 6) :
    ∃ t : State, exec (.halt n true) s = .next t ∧ seqState t n = Seq.halted ∧ t.get (F.MSn_STAT_PC n) = s.get (F.MSn_STAT_PC n) ∧
      (seqMode s.mode = false → t.get (F.MSn_STAT_MODE_HALT n) = 1) := by
  have last := chooseNext_halt (s := executed n s) (n := n) (by rw [seqWord_executed, op])
  obtain ⟨glb, pc, -⟩ := wordFields_mem n
  have mode : (executed n s).mode = s.mode := wordKept_executed.get _ glb
  refine ⟨_, congrArg Host.Outcome.next (seqRow_halts ready (ops := [6]) (by simp [op]) last), seqState_haltSeq (by decide) _, ?_,
    fun outside => ?_⟩
  · rw [get_haltSeq _ _ _ (steadyFields_mem n).2.1, wordKept_executed.get _ pc]
  · exact modeHalt_haltSeq _ (by rw [mode, outside])

/-- An interrupt pending at a CALL that is a safe point is taken after the whole word (R242). -/
theorem call_interrupted {b : Nat} (pending : pendingInt s n = some b) (safe : mw (seqWord s n) 141 141 = 1) (op : mw (seqWord s n) 144 142 = 3) :
    ∃ t : State, exec (.call n true) s = .next t ∧ t.get (F.MSn_STAT_PC n) = 2 ∧ t.get (F.MSn_TRAP_RET n) = mw (seqWord s n) 163 152 ∧
      t.get (F.MSn_TRAP_PC n) = s.get (F.MSn_STAT_PC n) ∧ t.get (F.MSn_TRAP_CAUSE n) = 0x10 + b ∧ t.get (F.MSn_STAT_MASK n) = 1 := by
  have chosen := chooseNext_call (s := executed n s) (n := n) (by rw [seqWord_executed, op])
  rw [seqWord_executed] at chosen
  obtain ⟨pc, mask, cause, trapPc, ret, -⟩ := takeInt_spec (n := n) (s := (executed n s).onMs n (pushed (mw (seqWord s n) 175 164)))
    (pendingInt_lt pending) (mw_lt (seqWord s n) 163 152)
  refine ⟨_, congrArg Host.Outcome.next (seqRow_interrupted ready (ops := [3]) (by simp [op]) pending safe chosen), pc, ret, ?_, cause, mask⟩
  rw [trapPc, get_onMs, wordKept_executed.get _ (wordFields_mem n).2.1]

end

/-! ### Faults of the stack and of TRAP_RETURN (R229, R241), and store errors (R224) -/

section

variable (fresh : (s.ms n).acted = 0) (inStore : s.get (F.MSn_STAT_PC n) ≠ 0xFFF) (known : reservedCode (seqWord s n) = false)
  (untimed : mw (seqWord s n) 140 139 = 0) (noFrame : mw (seqWord s n) 119 117 = 0) (noSect : mw (seqWord s n) 85 83 = 0)

include fresh inStore known untimed noFrame noSect

theorem wordFault_stackFull (op : mw (seqWord s n) 144 142 = 3) (full : 4 ≤ (s.ms n).cur.stack.length) : wordFault s n = some 0x04 := by
  simp [wordFault, fresh, inStore, known, untimed, noFrame, noSect, op, full]

theorem wordFault_stackEmpty (op : mw (seqWord s n) 144 142 = 4) (empty : (s.ms n).cur.stack = []) : wordFault s n = some 0x05 := by
  simp [wordFault, fresh, inStore, known, untimed, noFrame, noSect, op, empty]

theorem wordFault_noHandler (op : mw (seqWord s n) 144 142 = 7) (unmasked : s.on (F.MSn_STAT_MASK n) = false) : wordFault s n = some 0x05 := by
  simp [wordFault, fresh, inStore, known, untimed, noFrame, noSect, op, unmasked]

end

theorem seqRow_storeErr {ops : List Nat} (runs : seqRuns s n = true) (carried : mw (seqWord s n) 144 142 ∈ ops) :
    seqRow n ops false s = (storeErrHalt n s).loseUnit0 (12 + n) := by
  simp [seqRow, runs, carried, atWord]

theorem storeErrHalt_eq : storeErrHalt n s = (haltSeq n Seq.faulted false (msHwEvent n 0xF1 (s.get (F.MSn_STAT_PC n)) 0 (recordHalt n 0x21 s))).onMs n
    (fun m => { m with storeErr := true }) := rfl

theorem storeErrHalt_spec : ((storeErrHalt n s).ms n).storeErr = true ∧ seqState (storeErrHalt n s) n = Seq.faulted ∧
    (storeErrHalt n s).get (F.MSn_TRAP_CAUSE n) = 0x21 := by
  rw [storeErrHalt_eq]
  refine ⟨by rw [ms_onMs_same], ?_, ?_⟩
  · rw [seqState, get_onMs, ← seqState, seqState_haltSeq (by decide)]
  · rw [get_onMs, get_haltSeq_event _ _ _ _ _ _ (steadyFields_mem n).2.2.1, (recordHalt_spec (by decide)).1]

/-! ### A word without fields -/

/-- Of the lane nothing has changed but the sequencer: its registers beside the store, the commands and the events, and MSn_STAT. -/
structure SeqOnly (n : Lane) (s t : State) : Prop where
  others : ∀ m : Lane, m ≠ n → t.ms m = s.ms m
  cmd : (t.ms n).cmd = (s.ms n).cmd
  events : (t.ms n).events = (s.ms n).events
  store : (t.ms n).store = (s.ms n).store
  regs : regsKept [R.MSn_STAT n] s t
  moved : Moves 0x4001 s t

variable {u : State}

theorem SeqOnly.refl : SeqOnly n s s := ⟨fun _ _ => rfl, rfl, rfl, rfl, fun _ _ => rfl, .refl⟩

theorem SeqOnly.trans (h : SeqOnly n s t) (g : SeqOnly n t u) : SeqOnly n s u :=
  ⟨fun m other => (g.others m other).trans (h.others m other), g.cmd.trans h.cmd, g.events.trans h.events, g.store.trans h.store,
    h.regs.trans g.regs, g.moved.on h.moved rfl⟩

theorem SeqOnly.put {f : Fld} (own : f.addr = R.MSn_STAT n) (v : Nat) : SeqOnly n s (s.put f v) :=
  ⟨fun _ _ => ms_put .., by rw [ms_put], by rw [ms_put], by rw [ms_put], regsKept_put (by rw [own]; exact List.mem_cons_self) v,
    put_moves.wide rfl⟩

theorem SeqOnly.onMs {f : Ms → Ms} (cmd : (f (s.ms n)).cmd = (s.ms n).cmd) (events : (f (s.ms n)).events = (s.ms n).events)
    (store : (f (s.ms n)).store = (s.ms n).store) : SeqOnly n s (s.onMs n f) := by
  refine ⟨fun m other => ms_onMs_other other s f, ?_, ?_, ?_, regsKept_onMs f, onMs_moves.wide rfl⟩ <;> rw [ms_onMs_same] <;> assumption

theorem seqOnly_beginWord (pc : Nat) : SeqOnly n s (beginWord n pc s) := by
  obtain ⟨conds, holding, eq⟩ := ms_beginWord (n := n) (s := s) pc
  exact ⟨fun m other => ms_beginWord_other other pc, by rw [eq]; rfl, by rw [eq]; rfl, by rw [eq]; rfl, regsKept_beginWord pc, beginWord_moves⟩

theorem seqOnly_loopNext (k : Nat) (w : BitVec 176) : SeqOnly n s (loopNext n k w s).2 := by
  have updated {x : Nat} : SeqOnly n s (loopSet n k w x s) := by
    unfold loopSet
    split
    · exact .refl
    · exact .onMs rfl rfl rfl
  rw [loopNext_eq]
  split <;> exact updated

/-- Every sequence operation but HALT chooses an address, and changes only the sequencer. -/
theorem seqOnly_chooseNext (goes : mw (seqWord s n) 144 142 ≠ 6) : ∃ next t, chooseNext n s = some (next, t) ∧ SeqOnly n s t := by
  unfold chooseNext
  dsimp only
  split
  · exact ⟨_, _, rfl, .refl⟩
  · exact ⟨_, _, rfl, seqOnly_loopNext ..⟩
  · exact ⟨_, _, rfl, seqOnly_loopNext ..⟩
  · exact ⟨_, _, rfl, .onMs rfl rfl rfl⟩
  · split
    · exact ⟨_, _, rfl, .onMs rfl rfl rfl⟩
    · exact ⟨_, _, rfl, .refl⟩
  · exact ⟨_, _, rfl, .refl⟩
  next halt => exact absurd halt goes
  · exact ⟨_, _, rfl, .put rfl 0⟩

/-! #### Bits of a word -/

theorem mw_eq_zero_iff {w : BitVec 176} {hi lo : Nat} : mw w hi lo = 0 ↔ ∀ i, lo ≤ i → i ≤ hi → w.getLsbD i = false := by
  have zero : mw w hi lo = 0 ↔ w.extractLsb' lo (hi + 1 - lo) = 0 := by
    rw [mw, ← BitVec.toNat_inj]
    rfl
  rw [zero]
  constructor
  · intro empty i above below
    have bit := congrArg (·.getLsbD (i - lo)) empty
    simpa [BitVec.getLsbD_extractLsb', show i - lo < hi + 1 - lo by omega, show lo + (i - lo) = i by omega] using bit
  · intro bits
    refine BitVec.eq_of_getLsbD_eq (fun i small => ?_)
    simp [small, bits (lo + i) (by omega) (by omega)]

/-- A part of a field that is zero is zero. -/
theorem mw_part {w : BitVec 176} {hi lo hi' lo' : Nat} (zero : mw w hi lo = 0) (low : lo ≤ lo') (high : hi' ≤ hi) : mw w hi' lo' = 0 :=
  mw_eq_zero_iff.mpr (fun i above below => mw_eq_zero_iff.mp zero i (low.trans above) (below.trans high))

/-- The operation of an OVR field. -/
theorem bitsOf_ovr (w : BitVec 176) : bitsOf (mw w 93 86) 7 6 = mw w 93 92 := by
  simp only [mw, bitsOf, BitVec.extractLsb'_toNat, Nat.shiftRight_eq_div_pow]
  omega

/-- A word that carries no field. -/
theorem fieldsEff_quiet (noGate : mw (seqWord s n) 121 117 = 0) (noOvr : mw (seqWord s n) 93 92 = 0) (noData : mw (seqWord s n) 85 68 = 0)
    (noClk : mw (seqWord s n) 35 33 = 0) : fieldsEff n syncHeard s = s := by
  have sect : sectEff n s = s := by
    rw [sectEff, mw_part (hi' := 85) (lo' := 83) noData (by decide) (by decide)]
    rfl
  have ovr : ovrEff n s = s := by
    rw [ovrEff, bitsOf_ovr, noOvr]
    rfl
  have gate : gateEff n syncHeard s = s := by
    rw [gateEff, mw_part (hi' := 121) (lo' := 120) noGate (by decide) (by decide)]
    rfl
  have frame : pbEff n s = s := by
    rw [pbEff, mw_part (hi' := 119) (lo' := 117) noGate (by decide) (by decide)]
    rfl
  have cmd : cmdEff n [] s = s := by
    rw [cmdEff, mw_part (hi' := 82) (lo' := 80) noData (by decide) (by decide)]
    rfl
  have event : evtEff n s = s := by
    rw [evtEff, mw_part (hi' := 79) (lo' := 72) noData (by decide) (by decide)]
    rfl
  have alu : aluEff n s = s := by
    rw [aluEff, mw_part (hi' := 71) (lo' := 68) noData (by decide) (by decide)]
    rfl
  have clk : clkEff n s = s := by
    rw [clkEff, noClk]
    rfl
  rw [fieldsEff, sect, ovr, gate, frame, cmd, event, alu, clk]

/-- A word that carries no field changes nothing but its sequencer. -/
theorem seqRow_quiet {ops : List Nat} (ready : s.wordReady n = true) (calm : pendingInt s n = none) (carried : mw (seqWord s n) 144 142 ∈ ops)
    (goes : mw (seqWord s n) 144 142 ≠ 6) (noGate : mw (seqWord s n) 121 117 = 0) (noOvr : mw (seqWord s n) 93 92 = 0)
    (noData : mw (seqWord s n) 85 68 = 0) (noClk : mw (seqWord s n) 35 33 = 0) : SeqOnly n s (seqRow n ops true s) := by
  have quiet : executed n s = s.put (F.MSn_STAT_STATE n) Seq.running :=
    fieldsEff_quiet (by rw [seqWord_putState, noGate]) (by rw [seqWord_putState, noOvr]) (by rw [seqWord_putState, noData])
      (by rw [seqWord_putState, noClk])
  have shown : SeqOnly n s (executed n s) := by
    rw [quiet]
    exact .put rfl _
  obtain ⟨next, t, chosen, only⟩ := seqOnly_chooseNext (n := n) (s := executed n s) (by rw [seqWord_executed]; exact goes)
  rw [seqRow_next ready carried calm chosen]
  exact (shown.trans only).trans (seqOnly_beginWord next)

/-- The rows of the sequence operations. -/
theorem exec_seqRow {c : Instr} {k : Nat} {ok : Bool}
    (mem : (k, c) ∈ [(0, Instr.branch n ok), (1, .loop n ok), (2, .loop n ok), (3, .call n ok), (4, .return_ n ok), (5, .dispatch n ok),
      (6, .halt n ok), (7, .trapReturn n ok)]) : ∃ ops, k ∈ ops ∧ ∀ s, exec c s = .next (seqRow n ops ok s) := by
  simp only [List.mem_cons, List.not_mem_nil, or_false, Prod.mk.injEq] at mem
  rcases mem with ⟨rfl, rfl⟩ | ⟨rfl, rfl⟩ | ⟨rfl, rfl⟩ | ⟨rfl, rfl⟩ | ⟨rfl, rfl⟩ | ⟨rfl, rfl⟩ | ⟨rfl, rfl⟩ |
    ⟨rfl, rfl⟩
  · exact ⟨[0], by decide, fun _ => rfl⟩
  · exact ⟨[1, 2], by decide, fun _ => rfl⟩
  · exact ⟨[1, 2], by decide, fun _ => rfl⟩
  · exact ⟨[3], by decide, fun _ => rfl⟩
  · exact ⟨[4], by decide, fun _ => rfl⟩
  · exact ⟨[5], by decide, fun _ => rfl⟩
  · exact ⟨[6], by decide, fun _ => rfl⟩
  · exact ⟨[7], by decide, fun _ => rfl⟩

end

/-- Settles O20, a lemma for each sequence operation; `wordKept_fieldsEff` says what the word's other fields leave. -/
theorem microwordChoosesNextAddress : Obligations.MicrowordChoosesNextAddress := by
  refine ⟨fun _ _ ready calm op => branch_next ready calm op, fun _ _ _ ready pending safe op => call_interrupted ready pending safe op,
    fun _ _ ready calm op kept => loop_next ready calm (k := 0) (by decide) op kept,
    fun _ _ ready calm op kept => loop_next ready calm (k := 1) (by decide) op kept,
    fun _ _ ready calm op => call_next ready calm op, fun _ _ _ _ ready calm op stacked => return_next ready calm op stacked,
    fun _ _ ready calm op => dispatch_next ready calm op, fun _ _ ready op => halt_stops ready op,
    fun _ _ ready calm op => trapReturn_next ready calm op, ?faults, ?storeErr, ?quiet⟩
  case faults =>
    intro n s fresh inStore known untimed noFrame noSect
    exact ⟨wordFault_stackFull fresh inStore known untimed noFrame noSect, wordFault_stackEmpty fresh inStore known untimed noFrame noSect,
      wordFault_noHandler fresh inStore known untimed noFrame noSect⟩
  case storeErr =>
    intro n c k s mem runs op
    obtain ⟨ops, carried, row⟩ := exec_seqRow mem
    exact ⟨by rw [row, seqRow_storeErr runs (by rw [op]; exact carried)], storeErrHalt_spec⟩
  case quiet =>
    intro n c k s mem ready calm op noGate noOvr noData noClk
    have goes : k ≠ 6 := by
      simp only [List.mem_cons, List.not_mem_nil, or_false, Prod.mk.injEq] at mem
      omega
    obtain ⟨ops, carried, row⟩ := exec_seqRow (n := n) (c := c) (k := k) (ok := true) (by
      simp only [List.mem_cons] at mem ⊢
      tauto)
    have only := seqRow_quiet ready calm (by rw [op]; exact carried) (by rw [op]; exact goes) noGate noOvr noData noClk
    exact ⟨_, row s, only.others, only.cmd, only.events, only.store, only.regs, only.moved.frame (by decide)⟩

end Sys2Proof.Machine

end
